-- ==== Sys2Proof/Word.lean ====
section
/-!
DEFINITION. The word types of the model: a byte, and a string of bytes in wire order (R27: least significant
byte first).
-/

set_option Elab.async false

namespace Sys2Proof

/-- One byte as it travels on a path or lies in a memory. -/
abbrev Byte := BitVec 8

/-- Bytes in the order they travel. -/
abbrev Bytes := List Byte

end Sys2Proof
end

