-- ==== Sys2Proof/Types.lean ====
section
/-!
DEFINITION. The types of the commands' operands: paths to the dictionary, cells, frames and messages.
-/

namespace Sys2Proof

/-- The paths to the dictionary (R33); tunnel 1 names the message's session slot. -/
inductive Path where
  | can
  | tunnel (slot : Nat)
  | service
  | gateway
  deriving DecidableEq, Repr

/-- The path's code in challenges, journal entries and counters (R35, R41). -/
def Path.code : Path → Nat
  | .can => 0
  | .tunnel _ => 1
  | .service => 2
  | .gateway => 3

/-- The session slot, 0 on paths with one session (R33). -/
def Path.slot : Path → Nat
  | .tunnel n => n
  | _ => 0

/-- The number under which the hub holds the path's session and its own windows (R33, R174). -/
def Path.held : Path → Nat
  | .can => 0
  | .tunnel n => 1 + n
  | .service => 5
  | .gateway => 6

/-- A path the hub has: tunnel 1 has four session slots (R33). -/
def Path.ok : Path → Bool
  | .tunnel n => decide (n < 4)
  | _ => true

/-- The straps as sampled at the release from Reset (R439). -/
structure Straps where
  trueHead : Bool                          -- ROLE_HEAD high: the role is head (R3)
  liftN : Bool                             -- LIFT_N high: a normal boot (R445)
  deriving DecidableEq, Repr

/-- A cell (R90-R92): header fields and payload. -/
structure Cell where
  tunnel : Nat
  cls : Nat
  colour : Nat := 0
  first : Bool := true
  last : Bool := true
  bad : Bool := false        -- tail-bad mark
  len : Nat := 0
  seq : Nat := 0
  ver : Nat := 0
  cong : Bool := false       -- congestion mark
  enc : Bool := false
  twin : Nat := 0            -- 0 untwinned, 1 copy A, 2 copy B
  kind : Nat := 0            -- 0 data, 1 adapter control, 2 tail
  hold : Bool := false       -- origin in holdover
  origin : Nat := 0          -- low 40 bits of the origin's TIME64
  slot : Nat := 0
  payload : Bytes := []
  fixed : Bool := false      -- inside the hub: its PTP frame's correctionField has lost an ingress stamp (R274)
  deriving DecidableEq, Repr

/-- What the decoder reports of one lane's codeword in a group (R64): symbol errors corrected, or rejected, and
whether a marker named another lane. -/
structure Codeword where
  symbols : Nat := 0
  good : Bool := true
  wrongLane : Bool := false
  skew : Int := 0            -- skew against L0 in ps, measured at a marker (R84)
  deriving DecidableEq, Repr

/-- What a serialiser meets as it takes a cell (R140, R124). -/
structure Serving where
  place : Nat := 0           -- the cell of a frame at which the memory read was bad (R124)
  ready : Bool := true       -- the destination can accept a cell (R140)
  found : Option Nat := none -- the tunnel that the header read names, where it is another
  deriving DecidableEq, Repr

/-- A pixel of an output's active area (R190). -/
structure Pixel where
  x : Nat
  y : Nat
  deriving DecidableEq, Repr

/-- What a CC pin shows of a partner (R245, R254). -/
structure CcSeen where
  level : Nat := 0           -- the level of its Rp, 0 default, 1 1.5 A, 2 3.0 A (R248)
  debounced : Bool := true   -- it has been there for the CC debounce (R245)
  deriving DecidableEq, Repr

/-- A Vendor_Defined message received: its MessageID and its VDM header (R242). -/
structure VdmIn where
  id : Nat
  hdr : Nat
  deriving DecidableEq, Repr

/-- A Power Delivery message (R242). -/
inductive PdMsg where
  | accept | reject | psRdy | getSinkCap | drSwap | vconnSwap | softReset | notSupported
  | sourceCap (pdos : List Nat)
  | request (rdo : Nat)
  | sinkCap (pdos : List Nat)
  | vdm (objects : List Nat)
  deriving DecidableEq, Repr

/-- The fields of an IRIG-B frame as its line code gives them (R275): `good` when parity and marker sequence pass. -/
structure Irig where
  good : Bool := true
  year : Option Nat := none  -- BCD_YEAR, of the century of station time
  day : Nat := 1             -- day of the year, from 1
  secs : Nat := 0            -- second of that day
  leapPending : Bool := false
  leapDelete : Bool := false
  localMin : Int := 0        -- local-time offset in minutes
  quality : Nat := 0         -- time quality
  deriving DecidableEq, Repr

/-- The kinds of request TLPs that the hub tells apart (R292). -/
inductive TlpKind where
  | memory | io | atomic | config
  deriving DecidableEq, Repr

/-- The payload of a TLP and what came with it (R292). -/
structure TlpData where
  bytes : Bytes                            -- the payload
  poisoned : Bool := false                 -- the EP bit: the payload is poisoned
  kind : TlpKind := .memory                -- what the TLP requests
  tag : Nat := 0                           -- the requester's tag, where the request is answered
  ecrcBad : Bool := false                  -- its ECRC fails
  replays : Nat := 0                       -- replays that the port's data link has made since the request before
  deriving DecidableEq, Repr

/-- A buffer of the NVMe server: its PRP entries, and the bytes it holds (R295, R297). -/
structure HostBuf where
  prps : List Nat                          -- PRP entries; the first may lie inside its page
  bytes : Bytes                            -- the bytes there
  deriving DecidableEq, Repr

/-- The server writes an endpoint's command register, power state or device control (R292, R293). -/
structure MasterWrite where
  port : Nat                               -- P0 or P1
  enable : Bool := false                   -- the value of Bus Master Enable
  d3hot : Bool := false                    -- the port is held in D3hot
  readSize : Option Nat := none            -- a new Max_Read_Request_Size, bytes
  deriving DecidableEq, Repr

/-- What a drive shows when its initialisation has not ended (R294). -/
structure InitStat where
  csts : Nat                               -- CSTS
  readyTime : Nat                          -- CAP.TO, in units of 500 ms
  deriving DecidableEq, Repr

/-- How a unit of a tunnel arrived (R297, R322). -/
structure UnitMark where
  seq : Nat := 0                           -- the sequence of its first cell
  damaged : Bool := false                  -- a cell of it was lost, or its last is tail-bad or a truncation cell
  deriving DecidableEq, Repr

/-- A step of the engine at a drive's initialisation (R294). -/
inductive DriveInit where
  | readCap                                -- CAP is read
  | enable                                 -- CC.EN is set
  | identifyController                     -- Identify for the controller
  | identifyNamespaces                     -- Identify for the active namespace list
  | createQueues (k depth base : Nat)      -- an I/O queue pair with its depth, its PRP lists from `base` in staging
  deriving DecidableEq, Repr

/-- What an endpoint port presents to the server (R293, R295). -/
structure Endpoint where
  legacy : Bool                            -- Legacy PCI Express Endpoint
  classCode : Nat
  vendor : Nat
  device : Nat
  bar0 : Nat                               -- bytes of BAR0/1, 64-bit, non-prefetchable
  bar2 : Nat                               -- bytes of BAR2/3, 64-bit, non-prefetchable
  bar4 : Nat                               -- bytes of BAR4/5, 64-bit
  prefetchable : Bool                      -- BAR4/5 is prefetchable
  vectors : Nat                            -- MSI-X vectors
  capabilities : List String
  ecrc : Bool                              -- ECRC is generated and checked
  maxPayload : Nat
  mqes : Nat                               -- CAP.MQES
  dstrd : Nat                              -- CAP.DSTRD
  readyTime : Nat                          -- CAP.TO
  mps : Nat                                -- the one memory page size, bytes
  deriving DecidableEq, Repr

/-- A unit of a version-2 storage tunnel (R297). -/
inductive SUnit where
  | command (tag op slba blocks : Nat)
  | data (tag off : Nat) (bytes : Bytes)
  | completion (tag status : Nat)
  | nsInfo (blocks lbads : Nat)
  deriving DecidableEq, Repr

/-- A CAN frame (R315, R323). -/
structure CanFrame where
  ide : Bool := false
  fd : Bool := false
  brs : Bool := false
  esi : Bool := false
  rtr : Bool := false
  id : Nat
  data : Bytes := []
  deriving DecidableEq, Repr

/-- A write of a key command (R346). -/
structure KeyRun where
  path : Path                              -- the path that writes the command
  cut : Bool                               -- a tamper alarm comes before the command's commit point (R353)
  deriving DecidableEq, Repr

/-- What the hub puts out: frames, cells, messages and pin levels. -/
inductive Out where
  | pin (name : String) (level : Nat)                       -- an output pin's level
  | mgmtReply (port : Nat) (msg : Bytes)                    -- a management reply on tunnel 1 of a trunk, or 4 the service port (R46)
  | cell (t : Nat) (c : Cell)                               -- a cell on a trunk's line
  | control (t : Nat) (blocks : List Bytes)                 -- a control cell with its control blocks (R81)
  | marker (t cycle : Nat) (lanes : List Nat)               -- the cycle-start marker: each data lane's block (R63)
  | group (t : Nat) (words : List Nat)                      -- a codeword group: the lanes' codewords, L0 first (R62)
  | idleBlocks (t n : Nat)                                  -- idle blocks on each data lane (R61)
  | training (t lane rate : Nat) (frame : Bytes)            -- what a lane's training frames carry from now on; rate in kb/s (R73)
  | lanesOff (t : Nat)                                      -- the trunk's transmitters go off (R77)
  | lpOff (t : Nat)                                         -- the trunk's LP transmitter is powered down (R60)
  | adapter (n : Nat) (payload : Bytes)                     -- an adapter control message taken from a tunnel (R103)
  | deliver (fp : Nat) (c : Cell)                           -- a cell taken by a local port's adapter (R140)
  | panel (d on : Nat)                                      -- an output's panel signals start or stop (R179)
  | dpLink (d rate lanes : Nat) (spread : Bool)             -- a DisplayPort link as trained, down-spread 0.5 % or not (R177)
  | rgb (d bits : Nat) (lines : List (List (Nat × Nat × Nat))) -- a DisplayPort frame's active lines: red, green, blue (R177)
  | lvds (d : Nat) (lines : List (List (Nat × Nat)))        -- an LVDS frame's active lines: the two channels' words by pixel pair (R178)
  | dpAux (d addr len : Nat)                                -- a DPCD read over AUX (R177)
  | dpIgnoreMsa (d : Nat) (on : Bool)                        -- DPCD 0x00107 bit 7 written over AUX (R177)
  | sof (u frame : Nat)                                     -- SOF, or the low-speed keep-alive, on a downstream port (R227)
  | usbToken (u : Nat) (hdr data : Bytes)                   -- a transaction begun on a port, by its request's header (R221)
  | usbDrive (u signal : Nat)                               -- a port drives: 0 SE0, 1 K, 2 KJ chirps, 3 a test pattern (R223)
  | ringRead (p addr len : Nat)                             -- a relay's fetch from its down ring (R218)
  | svcPull (on hs : Bool)                                  -- the service-port device's pull-up (R231)
  | svcAnswer (ep kind : Nat) (data : Bytes)                -- 0 ACK, 1 NAK, 2 STALL, 3 data: the service-port device's answer (R233)
  | svcTest (selector : Nat)                                -- the service-port device's test mode, 0 none (R231)
  | svcK                                                    -- remote-wake K of the service-port device (R239)
  | pd (m : PdMsg) (id : Nat)                               -- a message on CC with its MessageID (R243)
  | pdGoodCrc (id : Nat)                                    -- a GoodCRC (R243)
  | pdHardReset                                             -- Hard Reset signalling (R253)
  | pdBist (carrier : Bool)                                 -- BIST carrier mode or test data (R242)
  | ccPull (rp : Bool) (level : Nat)                        -- Rp at a TypeCCurrent, or Rd (R245)
  | ccOpen                                                  -- no termination (R244)
  | frame (e : Nat) (bytes : Bytes)                         -- a frame on an Ethernet port's line (R262)
  | value (path : Path) (index sub : Nat) (data : Bytes)    -- what a read of an object answers (R27)
  | endpoint (p : Nat) (e : Endpoint)                       -- what a port presents from its link-up on (R293)
  | driveInit (p : Nat) (step : DriveInit)                  -- a step of a drive's initialisation (R294)
  | storage (n : Nat) (u : SUnit)                           -- a storage unit handed to its tunnel's adapter, whose cells carry it (R297)
  | driveCmd (p nsid tag op slba blocks addr : Nat)         -- a command put into a drive's queue, its PRPs in staging (R297)
  | memWrite (p addr : Nat) (be : Nat) (data : Bytes)       -- a memory write TLP a port masters; byte enables first, last (R300)
  | memRead (p addr len be : Nat)                           -- a memory read TLP a port masters (R300)
  | lockRead (p addr len : Nat)                             -- an MRdLk a port masters (R306)
  | unlock (p : Nat)                                        -- an Unlock message downstream (R306)
  | cpl (p tag status : Nat) (locked : Bool) (data : Bytes) -- a completion to a requester: 0 successful, 1 UR, 2 CA (R304)
  | cqe (p cq sq cid status dw0 : Nat)                      -- a completion queue entry posted (R297)
  | msix (p vector : Nat)                                   -- an MSI-X message (R297)
  | nvmeData (p cid : Nat) (data : Bytes)                   -- data of an admin command written to the server (R295)
  | can (c : Nat) (f : CanFrame)                            -- a frame on a CAN port (R318)
  | canopen (f : CanFrame)                                  -- a C0 frame passed to CANopen (R317)
  | serial (u : Nat) (data : Bytes)                         -- a unit on a UART's line (R320)
  | wire (name : String)                                    -- a signal on a dedicated wire between the dies (R12)
  | busRead (addr data : Nat)                               -- what pair B's local bus answers (R388)
  | claimed (pair cls src : Nat)                            -- what a claim read returns (R397)
  | stime (lo : Nat)                                        -- what a read of STIME_LO returns (R394)
  | avs (mv : Nat)                                          -- a VDD_CORE setpoint on AVSBus (R422)
  | d2dRepeat                                             -- a die-to-die frame is asked for again (R12)
  | dfuStatus (status state : Nat) (poll : Nat)             -- a DFU_GETSTATUS answer (R445)
  | dfuState (state : Nat)                                  -- a DFU_GETSTATE answer (R445)
  deriving DecidableEq, Repr

end Sys2Proof
end

