-- ==== Sys2Proof/Syntax.lean ====
section
/-!
DEFINITION. The commands of the block: one constructor for each row of the opcode table, with the operands its rule
names.
-/

namespace Sys2Proof

/-- The commands (spec/opcode_table.json). -/
inductive Instr where
  /-- R7. A reset is asserted or a supply falls below its threshold: the hub enters Reset and every domain except PD0 and PD1 is held in reset. -/
  | resetAsserted (card : Bool)
  /-- R7. Reset is released with supplies good: the hub enters Boot, samples the straps and runs the boot ROM. -/
  | resetReleased (straps : Straps) (rootTest : Nat)
  /-- R444. Ilkai completes key restore, configuration choice and domain start, declares itself started, and the hub enters Run or Setup. -/
  | ilkaiDeclaredStarted
  /-- R444. Pair A has not declared itself started within t_BWD: the hub resets with kind 4 and counts a failed boot. -/
  | bootWatchdogExpired
  /-- R7. A StateRequest of Setup disables every data tunnel under the drain bound before the hub reports Setup. -/
  | stateRequestSetup (path : Path)
  /-- R7. A StateRequest of Run applies the configuration from Setup, or returns from Maintain. -/
  | stateRequestRun (path : Path)
  /-- R7. A StateRequest of Maintain moves the hub from Run to Maintain while traffic continues. -/
  | stateRequestMaintain (path : Path)
  /-- R7. The tunnel drains of a transition to Setup have ended, and the hub reports Setup. -/
  | setupTransitionComplete
  /-- R17. A clock island has stopped for 10 µs: the stop is raised as an interrupt and journalled. -/
  | islandWatchdogExpired (isl : Nat) (fifo : List (Nat × Nat))
  /-- R12. A die-to-die serial frame is received; a frame that fails its CRC is repeated. -/
  | d2dFrameReceived (good : Bool)
  /-- R12. The die-to-die link delivers no valid frame for 10 µs and counts as a stopped island. -/
  | d2dLinkTimeout
  /-- R21. A write to a DomainEnable switches a power domain on or off, subject to the DRAM dependency. -/
  | domainEnableWrite (path : Path) (dom value : Nat)
  /-- R380. At the end of Boot the next enabled domain powers up t_DS after the previous one reads on. -/
  | domainPowerUpStagger
  /-- R21. An enabled domain's supply fails: the domain is isolated, reports state 3 and raises an interrupt. -/
  | domainSupplyFail (dom rail mv : Nat)
  /-- R39. A write to an object that has no row of its own is judged under R37 and applied whole, or ignored. -/
  | odWrite (path : Path) (index sub : Nat) (data : Bytes)
  /-- R46. A complete management read request on tunnel 1 or the service port is executed and answered. -/
  | mgmtReadRequest (mp : Nat) (msg : Bytes)
  /-- R46. A complete management write request on tunnel 1 or the service port is executed and answered. -/
  | mgmtWriteRequest (mp : Nat) (msg : Bytes)
  /-- R43. A CAN SDO download is initiated; an expedited download completes at once. -/
  | sdoInitiateDownload (frame : Bytes)
  /-- R39. A segment of an SDO download is acknowledged; at the last segment the write is judged and applied whole. -/
  | sdoDownloadSegment (frame : Bytes)
  /-- R38. An SDO upload is initiated, and the value or its size is returned. -/
  | sdoInitiateUpload (frame : Bytes)
  /-- R38. A segment request of an SDO upload is answered with the next segment. -/
  | sdoUploadSegment (frame : Bytes)
  /-- R43. A block segment of an SDO block download is received and acknowledged. -/
  | sdoBlockDownloadSegment (frame : Bytes)
  /-- R39. The end of an SDO block download is checked by its CRC, and the write is applied or discarded whole. -/
  | sdoBlockDownloadEnd (frame : Bytes)
  /-- R38. A client command of an SDO block upload is answered with the next block. -/
  | sdoBlockUploadRequest (frame : Bytes)
  /-- R45. An abort from the client ends the open transfer without effect. -/
  | sdoAbortReceived (frame : Bytes)
  /-- R45. No frame arrives from the client within SdoTimeout: the transfer is aborted. -/
  | sdoTimeout
  /-- R43. An RPDO is received and written to its mapped objects with Operator rights. -/
  | rpdoReceived (pdo : Nat) (data : Bytes)
  /-- R43. A SYNC frame is consumed, and the synchronous TPDOs due on it are sent. -/
  | syncReceived
  /-- R43. The event timer of an event-driven TPDO expires and the TPDO is sent. -/
  | tpdoEventTimer (pdo : Nat)
  /-- R43. The inhibit time of a TPDO ends, and a deferred transmission is sent. -/
  | tpdoInhibitEnd (pdo : Nat)
  /-- R43. The heartbeat producer period elapses and a heartbeat is sent. -/
  | heartbeatTimer
  /-- R44. The NMT start command makes the PDOs and the SDO active. -/
  | nmtStartRemoteNode (node : Nat)
  /-- R44. The NMT pre-operational command stops the PDOs and keeps the SDO active. -/
  | nmtEnterPreOperational (node : Nat)
  /-- R44. The NMT stop command leaves only NMT and heartbeat active. -/
  | nmtStopRemoteNode (node : Nat)
  /-- R44. The NMT reset-communication command reloads the COB-IDs and ends the C0 session. -/
  | nmtResetCommunication (node : Nat)
  /-- R44. The NMT reset-node command is treated as reset communication; the hub is not reset. -/
  | nmtResetNode (node : Nat)
  /-- R35. A write of 1 to 3 to SessionRequest draws a fresh challenge unless the path is locked out. -/
  | sessionRequest (path : Path) (value : Nat)
  /-- R36. A write of 0 to SessionRequest returns the session to Guest. -/
  | sessionEndRequest (path : Path)
  /-- R35. A write to SessionResponse is checked against the challenge, and the rights are granted or refused. -/
  | sessionResponse (path : Path) (tk : Nat) (data : Bytes)
  /-- R35. A challenge expires after 10 s, and SessionChallenge reads zero. -/
  | challengeExpired (path : Path)
  /-- R36. A session's idle time passes SessionIdleLimit, and it returns to Guest. -/
  | sessionIdleTimeout (path : Path)
  /-- R36. A session's age passes SessionAgeLimit, and it returns to Guest. -/
  | sessionAgeTimeout (path : Path)
  /-- R36. A new idle or age limit applies at once to every session, ending those already beyond it. -/
  | sessionLimitWrite (path : Path) (sub value : Nat)
  /-- R36. The 60 s lockout of a path ends and its refusal count starts again from zero. -/
  | lockoutEnd (path : Path)
  /-- R42. A write of 0 to ViolationsTotal clears the violation counters 0x01–0x0C. -/
  | violationsClear (path : Path) (value : Nat)
  /-- R50. A write of save to 0x1010 stores a configuration area in the MRAM copy with the lower write count. -/
  | storeConfiguration (path : Path) (area value : Nat)
  /-- R50. A write of load to 0x1011 marks an area for defaults at the next Reset. -/
  | restoreDefaults (path : Path) (area value : Nat)
  /-- R57. A write to a command block's Abort undoes a command before its commit point, or reports it already complete. -/
  | commandAbort (path : Path) (index value : Nat)
  /-- R55. A write of the other mode to 0x2010 starts a function-mode switch, draining its traffic first. -/
  | functionModeWrite (path : Path) (fn value : Nat)
  /-- R55. The function's drains have ended: the mode changes, the function is enabled again and the change is journalled. -/
  | functionSwitchComplete (fn : Nat)
  /-- R65. A codeword group is decoded per lane, rebuilt from parity or discarded, and the lane counters advance. -/
  | codewordGroupReceived (t : Nat) (words : List Codeword) (xorZero : Bool) (marker : Option Nat) (stamp idles : Nat)
  /-- R68. Loss of signal, CDR lock, eye or block lock makes a lane Lost. -/
  | laneSignalLost (t lane cause : Nat)
  /-- R70. No valid cycle-start marker arrives for 250 µs, and the trunk is lost. -/
  | markerTimeout (t : Nat)
  /-- R73. A good training frame advances the training handshake, the capability exchange and any retrain request. -/
  | trainingFrameReceived (t phys : Nat) (inverted : Bool) (frame : Bytes)
  /-- R77. A TrunkEnable write starts training at Detect, or drains the trunk's tunnels and turns it Off. -/
  | trunkEnableWrite (path : Path) (t value : Nat)
  /-- R77. Signal on at least four receive lanes moves training from Detect to LaneSync. -/
  | trunkSignalDetect (t mask : Nat)
  /-- R77. LaneSync has lasted 10 ms without success and training returns to Detect. -/
  | laneSyncTimeout (t : Nat)
  /-- R77. Identify has lasted 10 ms without a full lane map and the trunk enters Held with reason 4. -/
  | identifyTimeout (t : Nat)
  /-- R77. Capabilities has lasted 50 ms without a complete exchange and training returns to Detect. -/
  | capabilitiesTimeout (t : Nat)
  /-- R77. 100 µs after the later ready bit both ends switch to the new lane rate. -/
  | rateSwitchDelayExpired (t : Nat)
  /-- R77. There is no lock 1 ms after the rate change: the next mode is tried, or the trunk enters Held. -/
  | rateChangeLockTimeout (t : Nat)
  /-- R77. Hardware adaptation completes and this end sets state complete for Equalise. -/
  | equaliseAdaptationComplete (t : Nat)
  /-- R77. This end's adaptation has not completed in 500 ms and the next mode is tried. -/
  | equaliseTimeout (t : Nat)
  /-- R79. The 10 ms Verify window ends: the trunk becomes Trained or falls back. -/
  | verifyWindowEnd (t : Nat)
  /-- R77. RetryInterval has passed in Held and training returns to Detect. -/
  | heldRetryExpired (t : Nat)
  /-- R80. EV_TRUNK_EYE_WAIT is repeated every 10 s while the trunk waits in host-mode Equalise. -/
  | eyeWaitRepeat (t : Nat)
  /-- R86. TrunkControl command 1 drains and retrains a Trained trunk, or takes a training trunk to Detect. -/
  | trunkRetrain (path : Path) (t : Nat)
  /-- R86. TrunkControl command 2 clears the lane and group counters. -/
  | trunkClearCounters (path : Path) (t : Nat)
  /-- R78. Once the retrain drains are done, the retrain request is sent in a link control block. -/
  | retrainRequestSend (t : Nat)
  /-- R78. The far retrain request has not arrived within one drain bound and the hub enters Detect anyway. -/
  | retrainWaitTimeout (t : Nat)
  /-- R80. TrunkEyeTuning command 1 applies the selected lane's receiver settings and sends the far-transmitter request. -/
  | eyeApplyLane (path : Path) (t : Nat)
  /-- R80. TrunkEyeTuning command 2 sets state complete for Equalise. -/
  | eyeFinishEqualise (path : Path) (t : Nat)
  /-- R81. A control cell that passes its CRC is consumed block by block by the link layer. -/
  | controlCellReceived (t : Nat) (cell : Bytes)
  /-- R94. A trunk cell is checked in order and delivered, or discarded under one cause. -/
  | cellReceived (t : Nat) (raw : Bytes) (keyParity : Bool)
  /-- R100. A write of 1 to TunnelEnable is judged against the record's conditions, and the tunnel leaves Off in Run or Maintain. -/
  | tunnelEnable (path : Path) (n : Nat)
  /-- R102. A write of 0 to TunnelEnable drains an Open tunnel or turns a Waiting, Negotiating or Refused one Off. -/
  | tunnelDisable (path : Path) (n : Nat)
  /-- R99. A write to 0x02–0x0C of a record is kept, and takes a Refused tunnel back to Negotiating. -/
  | tunnelRecordWrite (path : Path) (n sub value : Nat)
  /-- R98. Tunnel command 1 sets TunnelEnable to 0 and drains the tunnel to Off. -/
  | tunnelDrain (path : Path) (n : Nat)
  /-- R98. Tunnel command 2 clears the record's counters and TwinSkew. -/
  | tunnelClearCounters (path : Path) (n : Nat)
  /-- R104. An adapter offer is judged: the tunnel opens, is refused, or negotiates again. -/
  | offerReceived (t n : Nat) (msg : Bytes)
  /-- R102. 10 ms pass without a reply and the offer is repeated. -/
  | negotiationRepeat (n : Nat)
  /-- R119. A Close from the far end starts a far-initiated drain, or completes a local one. -/
  | closeReceived (n : Nat)
  /-- R118. After its last queued cell a draining tunnel sends its Close. -/
  | closeSend (n : Nat)
  /-- R118. DrainBound elapses: queued cells are discarded and the drain completes. -/
  | drainBoundExpired (n : Nat)
  /-- R116. A key-ready message lets the sender move to KeySlotNext, or withdraws an earlier one. -/
  | keyReadyReceived (n slotNamed : Nat)
  /-- R116. A KeySlotNext write starts, replaces or cancels a key change. -/
  | keySlotNextWrite (path : Path) (n value : Nat)
  /-- R116. The key-ready message is repeated each millisecond until the hub moves. -/
  | keyReadyRepeat (n : Nat)
  /-- R116. One DrainBound after the first new-slot cell the old slot is no longer accepted. -/
  | oldKeyAcceptExpired (n : Nat)
  /-- R113. A side's last has not advanced for 125 µs while the other side's did, and the side becomes lagging. -/
  | twinLagTimeout (n side : Nat)
  /-- R125. A cell arriving at a fabric port is looked up and admitted to its egress queues. -/
  | fabricCellArrival (fp cls : Nat)
  /-- R140. A serialiser takes a cell from its queue when the destination can accept it, and sends it. -/
  | egressSerialise (fp cls ecc : Nat) (x : Serving)
  /-- R138. Every 50 cell times an empty queue's average occupancy is updated with zero. -/
  | redAverageIdleUpdate (fp cls : Nat)
  /-- R141. A queue's stall time reaches StallBound and its cells are discarded. -/
  | stallBoundExpired (fp cls : Nat)
  /-- R142. A receive-stage cell reaches HoldBound, is discarded, and its credit returns. -/
  | holdBoundExpired (t : Nat)
  /-- R129. An open unit at a terminating egress passes the stall bound and is discarded whole. -/
  | openUnitTimeout (fp cls flow : Nat)
  /-- R136. A learnt entry not refreshed for AgeingTime is removed. -/
  | l2EntryAged (entry : Nat)
  /-- R147. L2Entry command 1 reads the entry matching the window's MAC and VLAN. -/
  | l2ReadMatch (path : Path)
  /-- R147. L2Entry command 2 reads the entry in the window's slot. -/
  | l2ReadSlot (path : Path)
  /-- R147. L2Entry command 3 writes the window as an entry. -/
  | l2WriteEntry (path : Path)
  /-- R147. L2Entry command 4 deletes the matching entry. -/
  | l2DeleteEntry (path : Path)
  /-- R147. L2Entry command 5 flushes every learnt entry. -/
  | l2FlushLearnt (path : Path)
  /-- R146. FabricStatus command 1 clears the fabric and port counters. -/
  | fabricClearCounters (path : Path)
  /-- R158. A trunk cycle starts: shapers are refilled, the remainder gate is planned and any table switch takes effect. -/
  | schedCycleStart (t : Nat)
  /-- R151. Each cell time the scheduler picks a control, data, lent, tail or idle cell by place and fair queuing. -/
  | schedCellTime (t ecc : Nat)
  /-- R155. GateTableNext command 1 checks the next table and announces a switch cycle. -/
  | gateTableSwitch (path : Path) (t : Nat)
  /-- R156. The versions have differed for more than 8 cycles: the mismatch is journalled and ScheduleMatch reads 0. -/
  | schedVersionMismatch (t : Nat)
  /-- R165. Every 8 cycles carve recomputes the best-effort shares from measured demand. -/
  | carveEpoch (t : Nat)
  /-- R181. A write of 1 to OutputEnable checks the whole timing and starts the output. -/
  | outputEnable (path : Path) (d : Nat)
  /-- R179. A write of 0 to OutputEnable stops the panel signals and discards the outstanding flips. -/
  | outputDisable (path : Path) (d : Nat)
  /-- R179. HPD goes high and the output starts training toward Running. -/
  | hpdAsserted (d : Nat)
  /-- R179. HPD goes low and its loss timer starts. -/
  | hpdDeasserted (d : Nat)
  /-- R179. HPD has stayed low for its limit and the output enters Down. -/
  | hpdLowTimeout (d : Nat)
  /-- R177. IRQ_HPD is answered by reading the link status, and by retraining if the link is lost. -/
  | irqHpd (d : Nat) (linkGood : Bool) (goods : List (Nat × Nat))
  /-- R177. DP training ends: the output runs if the link carries the stream, or goes Down. -/
  | dpLinkTrainingDone (d sinkRate sinkLanes dpcd7 : Nat) (goods : List (Nat × Nat)) (edid : Bytes)
  /-- R179. The LVDS clock is stable and the output enters Running. -/
  | lvdsClockStable (d : Nat)
  /-- R189. At the end of each front-porch line the output decides to latch or glide. -/
  | frontPorchLineEnd (d : Nat)
  /-- R185. A display-tunnel cell is placed by sequence into its unit and written to DRAM. -/
  | displayCellReceived (n : Nat) (c : Cell)
  /-- R190. A layer's pixel is missing: the layer is blanked for the rest of the frame. -/
  | layerUnderrun (lay : Nat) (p : Pixel)
  /-- R194. OutputStatus command 1 clears the glide, flip and discard counters. -/
  | outputClearCounters (path : Path) (d : Nat)
  /-- R202. A region's signature completes and is judged under heartbeat or must-match. -/
  | signatureCompletion (d reg : Nat)
  /-- R202. FreezeTime passes without a qualifying completion and the region is declared Frozen. -/
  | freezeTimeExpired (d reg : Nat)
  /-- R208. The last active line ends and the frame's receipt is sent on the back channel. -/
  | activeAreaEnd (d : Nat)
  /-- R213. IntegrityControl command 1 clears the fault latches, fault counts and ReceiptsLost. -/
  | integrityClear (path : Path) (d : Nat)
  /-- R205. A direct write of ExpectedSignature takes effect at the next latch and cancels any arm. -/
  | expectedSignatureWrite (path : Path) (d reg value : Nat)
  /-- R221. A peripheral request unit is taken in sequence order and queued for its port. -/
  | usbRequestUnit (n : Nat) (unit : Bytes) (damage : Nat)
  /-- R227. A microframe boundary sends SOF and runs the periodic requests due in it. -/
  | microframeStart
  /-- R221. A port starts its next asynchronous transaction when it fits before the next SOF. -/
  | usbTransactionStart (u dur : Nat)
  /-- R221. A transaction ends: it is retried, or its completion is queued. -/
  | usbTransactionEnd (u res pid : Nat) (data : Bytes)
  /-- R221. NakRetryTime passes since the first attempt and the NAK is returned. -/
  | nakRetryExpired (u : Nat)
  /-- R222. A reset bus command discards the queues, switches the ports Off and resets the hub function. -/
  | busCommandReset (n : Nat)
  /-- R222. A suspend bus command raises S, stops SOF and suspends the hub function. -/
  | busCommandSuspend (n : Nat)
  /-- R222. A resume carrying the current S drives K on every Enabled port. -/
  | busCommandResume (n sn : Nat)
  /-- R222. 20 ms of resume K end: SOF resumes and event 3 is sent. -/
  | resumeKEnd
  /-- R223. A device attaches on a powered port, which enters Disabled. -/
  | dspDeviceAttach (u : Nat) (slow : Bool)
  /-- R223. A device detaches: the port returns to Powered and its queue is discarded. -/
  | dspDeviceDetach (u : Nat)
  /-- R224. A device chirp in reset is answered with KJ chirps for high speed. -/
  | deviceChirpDetected (u len : Nat)
  /-- R224. PortResetTime ends: the port is Enabled at its detected speed. -/
  | portResetEnd (u : Nat)
  /-- R226. A device K on a suspended port or hub function is a remote wake. -/
  | dspDeviceK (u : Nat)
  /-- R223. SetPortFeature PORT_POWER switches on the port's eFuse channel. -/
  | setPortPower (u : Nat)
  /-- R223. ClearPortFeature PORT_POWER turns the port Off. -/
  | clearPortPower (u : Nat)
  /-- R223. SetPortFeature PORT_RESET starts a port reset. -/
  | setPortReset (u : Nat)
  /-- R223. SetPortFeature PORT_SUSPEND suspends an Enabled port. -/
  | setPortSuspend (u : Nat)
  /-- R223. ClearPortFeature PORT_SUSPEND starts a resume of the port. -/
  | clearPortSuspend (u : Nat)
  /-- R223. ClearPortFeature PORT_ENABLE disables the port. -/
  | clearPortEnable (u : Nat)
  /-- R216. SetPortFeature PORT_TEST starts a test mode on the port. -/
  | setPortTest (u selector : Nat)
  /-- R223. ClearPortFeature of a C_PORT feature clears that change bit. -/
  | clearPortChange (u feature : Nat)
  /-- R216. ClearHubFeature clears C_HUB_OVER_CURRENT or C_HUB_LOCAL_POWER. -/
  | clearHubChange (feature : Nat)
  /-- R216. GetPortStatus returns a port's status and change bits. -/
  | getPortStatus (u : Nat)
  /-- R216. GET_STATUS or GetHubStatus returns the hub function's status. -/
  | hubGetStatus (of : Nat)
  /-- R215. GET_DESCRIPTOR or GetHubDescriptor returns a descriptor of the hub function. -/
  | hubGetDescriptor (type num len : Nat)
  /-- R216. SET_ADDRESS gives the hub function its address. -/
  | hubSetAddress (addr : Nat)
  /-- R216. SET_CONFIGURATION configures the hub function. -/
  | hubSetConfiguration (value : Nat)
  /-- R228. SET_INTERFACE selects single or multi-TT. -/
  | hubSetInterface (alt : Nat)
  /-- R226. SET_FEATURE DEVICE_REMOTE_WAKEUP enables remote wake of the hub function. -/
  | hubSetRemoteWakeup
  /-- R226. CLEAR_FEATURE DEVICE_REMOTE_WAKEUP disables remote wake of the hub function. -/
  | hubClearRemoteWakeup
  /-- R229. ClearTTBuffer discards the queued requests of the named endpoint with result 10. -/
  | clearTtBuffer (u addr endpoint type : Nat) (isIn : Bool)
  /-- R229. ResetTT discards every full- and low-speed request of the port with result 10. -/
  | resetTt (u : Nat)
  /-- R218. The server writes DownProducer and the relay fetches and sends the new units. -/
  | relayDownProducerWrite (relay count : Nat) (units : List Bytes)
  /-- R218. The server writes UpConsumer and frees up-ring slots. -/
  | relayUpConsumerWrite (relay count : Nat)
  /-- R218. A completion or bus event reaches the relay, is written to the up ring and signalled by MSI-X. -/
  | relayUnitFromTunnel (n : Nat) (unit : Bytes)
  /-- R237. Raw port command 1 powers a port on. -/
  | usbPortPowerOn (path : Path) (u : Nat)
  /-- R237. Raw port command 2 powers a port off. -/
  | usbPortPowerOff (path : Path) (u : Nat)
  /-- R237. Raw port command 3 resets a port. -/
  | usbPortReset (path : Path) (u : Nat)
  /-- R237. Raw port command 4 suspends a port. -/
  | usbPortSuspend (path : Path) (u : Nat)
  /-- R237. Raw port command 5 resumes a port. -/
  | usbPortResume (path : Path) (u : Nat)
  /-- R237. Raw port command 6 starts a test mode. -/
  | usbPortTestMode (path : Path) (u selector : Nat)
  /-- R236. UsbHubStatus command 1 clears the hub and port counters. -/
  | usbHubClearCounters (path : Path)
  /-- R231. The conditions for attach hold and the service-port device connects its pull-up. -/
  | svcDeviceAttach
  /-- R231. An attach condition is lost: the device detaches and the service-port session ends. -/
  | svcDeviceDetach
  /-- R233. A bus reset returns the device to Default with its toggles and halts cleared. -/
  | svcBusReset (hs : Bool)
  /-- R233. A SETUP on EP0 begins a control transfer. -/
  | svcSetupReceived (setup : Bytes)
  /-- R231. A control request's status stage completes and the request takes effect. -/
  | svcStatusStageComplete
  /-- R231. SET_ADDRESS gives the service-port device its address. -/
  | svcSetAddress (addr : Nat)
  /-- R233. SET_CONFIGURATION resets toggles and halts of the configuration. -/
  | svcSetConfiguration (value : Nat)
  /-- R233. SET_INTERFACE to alternate 0 resets the interface's toggles and halts. -/
  | svcSetInterface (face alt : Nat)
  /-- R233. SET_FEATURE ENDPOINT_HALT halts a direction. -/
  | svcSetEndpointHalt (ep : Nat) (isIn : Bool)
  /-- R233. CLEAR_FEATURE ENDPOINT_HALT clears a halt and resets the toggle. -/
  | svcClearEndpointHalt (ep : Nat) (isIn : Bool)
  /-- R233. An OUT data packet is acknowledged, and its toggle is checked. -/
  | svcOutPacket (ep pid : Nat) (data : Bytes)
  /-- R233. An IN token is answered with data, NAK or STALL. -/
  | svcInToken (ep : Nat) (acked : Bool)
  /-- R235. The bus has been idle for t_SUS and the device enters Suspended. -/
  | svcSuspendDetected
  /-- R234. The service-port host drives resume K and the device leaves Suspended. -/
  | svcHostResume
  /-- R239. ServiceDeviceStatus command 1 drives remote-wake K. -/
  | svcRemoteWake (path : Path) (hostFirst : Bool)
  /-- R232. A write of 1 to DeviceEnable checks the endpoint memory plan and enables the device. -/
  | svcDeviceEnableWrite (path : Path) (value : Nat)
  /-- R245. A partner is attached after CC debounce, and the port takes its attach roles. -/
  | typecAttach (source : Bool) (cc : Nat) (partner : CcSeen)
  /-- R254. The partner detaches; VBUS and VCONN are removed and any transition ends. -/
  | typecDetach
  /-- R245. The DRP period toggles the terminations between Rp and Rd. -/
  | drpToggleTimer
  /-- R245. The Try.SNK wait ends without success and the port becomes Source. -/
  | trySnkTimeout
  /-- R244. tErrorRecovery ends and the port attaches again under its configuration. -/
  | errorRecoveryEnd
  /-- R247. Ra on the unused CC pin makes the Source apply VCONN. -/
  | raDetected
  /-- R251. Source_Capabilities received by the Sink are answered with a Request. -/
  | pdSourceCapabilities (id rev : Nat) (pdos : List Nat)
  /-- R250. A Request is accepted and the voltage transition starts, or it is rejected. -/
  | pdRequest (id rev rdo : Nat)
  /-- R250. An Accept is received for the hub's request or swap. -/
  | pdAccept (id : Nat)
  /-- R251. A Reject leaves the existing contract or roles in force. -/
  | pdReject (id : Nat) (notSupported : Bool)
  /-- R251. A Wait schedules a retry of the request or swap. -/
  | pdWait (id : Nat)
  /-- R251. PS_RDY completes a contract change or a swap. -/
  | pdPsRdy (id : Nat)
  /-- R242. Get_Source_Cap is answered with Source_Capabilities. -/
  | pdGetSourceCap (id : Nat)
  /-- R251. Get_Sink_Cap is answered with the hub's Sink_Capabilities. -/
  | pdGetSinkCap (id : Nat)
  /-- R246. A DR_Swap is accepted or refused under DrSwapPolicy. -/
  | pdDrSwap (id : Nat)
  /-- R247. A VCONN_Swap is accepted or refused under VconnSwapPolicy. -/
  | pdVconnSwap (id : Nat)
  /-- R242. A Soft_Reset resets the protocol layer. -/
  | pdSoftReset (id : Nat)
  /-- R253. A Hard Reset ends any swap and returns the roles and VBUS to their defaults. -/
  | pdHardReset
  /-- R242. Discover Identity is answered with ACK. -/
  | pdDiscoverIdentity (m : VdmIn)
  /-- R242. PR_Swap is answered with Not_Supported or Reject. -/
  | pdPrSwap (id : Nat)
  /-- R242. A chunked extended message is received and answered with Not_Supported. -/
  | pdExtendedMessage (id : Nat)
  /-- R242. A BIST message starts carrier mode or test data. -/
  | pdBist (id : Nat) (carrier : Bool)
  /-- R243. No GoodCRC arrives within tReceive: the message is retried or counted failed. -/
  | pdGoodcrcTimeout
  /-- R250. tFirstSourceCap after vSafe5V the Source sends Source_Capabilities. -/
  | firstSourceCapTimer
  /-- R250. Source_Capabilities are repeated until GoodCRC, at most nCapsCount times. -/
  | sourceCapRepeat
  /-- R250. tSrcTransition passes after Accept and the voltage selection is driven. -/
  | srcTransitionExpired
  /-- R250. VBUS has been within 5 % of the new voltage for 1 ms and PS_RDY is sent. -/
  | vbusSettled (sinkPdos : List Nat)
  /-- R250. The Source transition does not complete in time: Hard Reset is sent. -/
  | psTransitionSrcTimeout (mv : Nat)
  /-- R251. As Sink, PS_RDY does not arrive within tPSTransition: Hard Reset is sent. -/
  | psTransitionTimeout
  /-- R246. No response arrives within tSenderResponse, or a waited swap is repeated. -/
  | senderResponseTimeout
  /-- R251. tSinkRequest after a Wait the Sink requests again. -/
  | sinkRequestRetry
  /-- R252. VBUS over-voltage cuts channel 8 or removes the terminations. -/
  | svcVbusOvervoltage (mv ma : Nat) (temp : Int)
  /-- R252. CC-pin over-voltage isolates the CC pins and turns VCONN off. -/
  | svcCcOvervoltage (mv : Nat)
  /-- R252. VCONN over-current turns VCONN off until the next attach. -/
  | vconnOvercurrent (ma : Nat)
  /-- R258. ServicePowerStatus command 1 sends DR_Swap. -/
  | pdCmdDrSwap (path : Path)
  /-- R258. ServicePowerStatus command 2 sends VCONN_Swap. -/
  | pdCmdVconnSwap (path : Path)
  /-- R258. ServicePowerStatus command 3 sends Hard Reset. -/
  | pdCmdHardReset (path : Path)
  /-- R258. ServicePowerStatus command 4 sends Source_Capabilities. -/
  | pdCmdSendSourceCap (path : Path)
  /-- R258. ServicePowerStatus command 5 requests a given object position. -/
  | pdCmdRequest (path : Path) (position : Nat)
  /-- R250. A PDO write under a contract makes the hub send new Source_Capabilities within 10 ms. -/
  | pdoWrite (path : Path) (item value : Nat)
  /-- R264. An Ethernet frame is stamped, VLAN-checked, recognised, classed and forwarded. -/
  | ethFrameReceived (e : Nat) (frame : Bytes)
  /-- R291. An Ethernet link comes up. -/
  | ethLinkUp (e speed : Nat)
  /-- R291. An Ethernet link goes down. -/
  | ethLinkDown (e : Nat)
  /-- R262. A PAUSE frame holds the port's egress when PauseRx is 1. -/
  | pauseFrameReceived (e quanta : Nat)
  /-- R286. EthPortStatus command 1 clears the port counters. -/
  | ethPortClearCounters (path : Path) (e : Nat)
  /-- R265. Each LifeCheckInterval a redundancy pair sends supervision frames. -/
  | lifeCheckTimer (rp : Nat)
  /-- R265. No supervision frame for three intervals makes the pair degraded. -/
  | supervisionTimeout (e : Nat)
  /-- R265. A duplicate-discard source entry ages out after NodeForgetTime. -/
  | nodeForgetTimeout (rp mac : Nat)
  /-- R273. A Sync is used as a time sample, or is corrected and forwarded as a transparent clock. -/
  | ptpSyncReceived (e : Nat) (frame : Bytes)
  /-- R273. A Follow_Up completes a two-step Sync sample. -/
  | ptpFollowUpReceived (e : Nat) (frame : Bytes)
  /-- R273. An Announce is reported in PtpReceivedAnnounce. -/
  | ptpAnnounceReceived (e : Nat) (frame : Bytes)
  /-- R273. A Pdelay_Req is answered. -/
  | ptpPdelayReqReceived (e : Nat) (frame : Bytes)
  /-- R273. A Pdelay_Resp updates meanLinkDelay, or is corrected and forwarded. -/
  | ptpPdelayRespReceived (e : Nat) (frame : Bytes)
  /-- R273. Each second a time-transmitter port sends Sync and Announce. -/
  | ptpSyncTimer (e : Nat)
  /-- R273. Each second a port sends its own Pdelay_Req. -/
  | ptpPdelayTimer (e : Nat)
  /-- R268. announceReceiptTimeout expires on the PTP source. -/
  | announceReceiptTimeout (e : Nat)
  /-- R275. An IRIG-B frame is decoded into a time sample, or counted in error. -/
  | irigFrameReceived (stamp : Nat) (irig : Irig)
  /-- R276. A PPS_IN edge gives a time sample. -/
  | ppsInEdge (rising : Bool)
  /-- R276. PPS_OUT rises at each whole TAI second while time is valid. -/
  | ppsOutSecond
  /-- R276. PPS_OUT falls after PpsOutWidth. -/
  | ppsOutWidthEnd
  /-- R268. The selected source misses its samples, and the time base enters Holdover or Free-running. -/
  | timeSourceLost
  /-- R269. HoldoverLimit elapses and the time base enters HoldoverExpired. -/
  | holdoverLimitExpired
  /-- R269. A TimeSource or SourcePort write re-selects the source. -/
  | timeSourceWrite (path : Path) (sub value : Nat)
  /-- R278. A time-base fault is detected and the time base enters Fault. -/
  | sf3Fault (cause : Nat)
  /-- R288. TimeControl command 1 steps station time by the last offset. -/
  | timeStep (path : Path)
  /-- R288. TimeControl command 2 sets station time to SetTimeValue. -/
  | timeSet (path : Path)
  /-- R288. TimeControl command 3 slews station time by HostPhase. -/
  | timeSlew (path : Path)
  /-- R270. In host mode a HostFrequency write sets the frequency word at once. -/
  | hostFrequencyWrite (path : Path) (value : Nat)
  /-- R272. Every 8 cycles a time-status message is sent on tunnel 2. -/
  | timeStatusMessageSend (t : Nat)
  /-- R272. A time-status message is stored in PlTime, and may set the UTC offset. -/
  | timeStatusMessageReceived (t : Nat) (msg : Bytes)
  /-- R281. JournalControl command 1 empties the ring and writes EV_JOURNAL_CLEARED. -/
  | journalClear (path : Path)
  /-- R282. A read of Entry returns the entry at ReadIndex and advances the index. -/
  | journalEntryRead (path : Path)
  /-- R283. A read of RemoteEntry returns a pushed entry and advances RemoteReadIndex. -/
  | remoteEntryRead (path : Path) (t : Nat)
  /-- R283. Pushed entries are stored and acknowledged by the far hub. -/
  | journalPushCellReceived (t : Nat) (payload : Bytes)
  /-- R283. An acknowledgement advances AckedIndex. -/
  | journalAckReceived (t index : Nat)
  /-- R283. A push cell not acknowledged within 1 ms is sent again. -/
  | journalPushRetransmit (t : Nat)
  /-- R479. A rate-limit period ends and one gathering entry is written. -/
  | rateLimitPeriodEnd (code inst : Nat)
  /-- R292. A PCIe link comes up; at a root port the drive initialisation starts. -/
  | pcieLinkUp (p4 speed width : Nat)
  /-- R309. A PCIe link goes down; outstanding commands complete with Internal Error. -/
  | pcieLinkDown (p4 : Nat)
  /-- R294. CSTS.RDY arrives; the engine identifies the drive and creates its queues. -/
  | driveReady (p4 csts : Nat) (spaces : List (Nat × Nat × Nat))
  /-- R294. CSTS.RDY has not come within CAP.TO and the drive is failed. -/
  | driveInitTimeout (p4 : Nat) (x : InitStat)
  /-- R295. The server rings a submission-queue doorbell and the controller fetches commands. -/
  | nvmeSqDoorbell (p4 q tail : Nat)
  /-- R297. An NVMe Read is forwarded and its data returned by posted writes before its completion. -/
  | nvmeRead (p4 q cid nsid slba blocks : Nat) (prps : List Nat)
  /-- R297. An NVMe Write reads the server's buffers and sends data and command. -/
  | nvmeWrite (p4 q cid nsid slba blocks : Nat) (buf : HostBuf)
  /-- R297. An NVMe Flush is forwarded to the drive. -/
  | nvmeFlush (p4 q cid nsid : Nat)
  /-- R297. An NVMe Write Zeroes is forwarded to the drive. -/
  | nvmeWriteZeroes (p4 q cid nsid slba blocks : Nat)
  /-- R295. An admin Identify returns controller or namespace data. -/
  | nvmeIdentify (p4 cid cns nsid : Nat)
  /-- R295. An admin command creates an I/O submission or completion queue. -/
  | nvmeCreateIoQueue (p4 cid : Nat) (submission : Bool) (q size other : Nat) (ien : Bool)
  /-- R295. An admin command deletes an I/O submission or completion queue. -/
  | nvmeDeleteIoQueue (p4 cid : Nat) (submission : Bool) (q : Nat)
  /-- R295. Get Log Page returns Error Information or SMART/Health. -/
  | nvmeGetLogPage (p4 cid lid len : Nat)
  /-- R295. Get Features returns a supported feature. -/
  | nvmeGetFeatures (p4 cid fid : Nat)
  /-- R295. Set Features sets a supported feature. -/
  | nvmeSetFeatures (p4 cid fid value : Nat)
  /-- R295. Abort completes with command not aborted. -/
  | nvmeAbort (p4 cid : Nat)
  /-- R295. An Asynchronous Event Request is held for a later notice. -/
  | nvmeAsyncEventRequest (p4 cid : Nat)
  /-- R295. An unsupported opcode completes with Invalid Command Opcode. -/
  | nvmeInvalidOpcode (p4 q cid : Nat)
  /-- R297. A storage unit is restored to sequence order and acted on by the engine or server side. -/
  | storageUnitReceived (n : Nat) (u : SUnit) (mark : UnitMark)
  /-- R297. A drive completion is returned and posted at the server, or counts toward a flush. -/
  | driveCompletion (p4 own status : Nat)
  /-- R304. A posted write into a window crosses its tunnel as one unit. -/
  | windowWriteRequest (p4 addr be : Nat) (data : TlpData)
  /-- R304. A read into a window reserves its completion and crosses, or is answered from the prefetch store. -/
  | windowReadRequest (p4 addr len be tag : Nat)
  /-- R306. An MRdLk is passed on as a locked read, or refused with UR. -/
  | mrdlkRequest (p4 addr len tag : Nat)
  /-- R306. An Unlock message is passed on and releases the far port. -/
  | unlockMessage (p4 : Nat)
  /-- R300. The far hub issues a window unit's TLPs on its bus in sequence order. -/
  | windowUnitReceived (n damaged seq : Nat) (unit : Bytes) (busStatus : Nat) (busData : Bytes)
  /-- R304. A completion unit completes the requester's read. -/
  | windowCompletionReceived (n damaged seq : Nat) (unit : Bytes)
  /-- R308. A lock-refused unit completes the MRdLk with UR. -/
  | lockRefusedReceived (n : Nat) (unit : Bytes)
  /-- R304. A read completion does not arrive within CompletionTimeout and the requester gets CA. -/
  | completionTimeout (tag : Nat)
  /-- R303. Prefetched bytes older than PrefetchLife are discarded. -/
  | prefetchLifeExpired (win : Nat)
  /-- R313. Window command 1 clears the fence of the window's tunnel. -/
  | windowUnfence (path : Path) (win : Nat)
  /-- R313. Window command 2 clears the window counters. -/
  | windowClearCounters (path : Path) (win : Nat)
  /-- R298. StorageGlobal command 1 sends Flush to every ready namespace. -/
  | storageFlush (path : Path)
  /-- R293. The server clears Bus Master Enable and requests the port must master complete with CA. -/
  | busMasterDisable (w : MasterWrite)
  /-- R293. A request from the drive reaches staging DRAM or the windows, or completes with UR. -/
  | rootPortDeviceRequest (p4 : Nat) (write : Bool) (addr len be tag : Nat) (data : TlpData)
  /-- R312. PcieStatus command 1 clears the port counters. -/
  | pcieClearCounters (path : Path) (p4 : Nat)
  /-- R317. A received CAN frame is stamped and sent to the tunnel, the gateway or CANopen. -/
  | canFrameReceived (cp : Nat) (frame : CanFrame) (stamp : Nat)
  /-- R318. A CAN port enters bus-off. -/
  | canBusOff (cp tec rec_ : Nat)
  /-- R318. After 128 occurrences of 11 recessive bits the port leaves bus-off. -/
  | canBusOffRecovery (cp : Nat)
  /-- R335. CanPortStatus command 1 takes the port out of bus-off. -/
  | canLeaveBusOff (path : Path) (cp : Nat)
  /-- R320. A serial unit closes on size, gap, break or error and is queued for its tunnel. -/
  | uartUnitClose (ua flags stamp : Nat) (data : Bytes)
  /-- R320. After GapChars of idle line a serial unit is transmitted, under Un_DE in RS-485. -/
  | uartUnitTransmit (ua : Nat) (cts : Bool)
  /-- R322. A field unit from a tunnel is taken in sequence order and sent or applied. -/
  | fieldUnitReceived (n : Nat) (unit : Bytes) (mark : UnitMark)
  /-- R326. A map entry's Period elapses: an object source is sampled or the destination is updated. -/
  | mapPeriodTimer (me : Nat)
  /-- R327. StaleTime passes without a source update and the entry becomes stale. -/
  | staleTimeExpired (me : Nat)
  /-- R328. A CanTxFrame's CycleTime elapses and it is sent. -/
  | canTxCycleTimer (fr : Nat)
  /-- R328. The inhibit of a CanTxFrame ends and a deferred frame is sent. -/
  | canTxInhibitEnd (fr : Nat)
  /-- R329. A GOOSE publisher repeats its frame at the doubling interval. -/
  | gooseRepeatTimer (g : Nat)
  /-- R330. A subscription's timeAllowedToLive passes and it expires. -/
  | gooseTalExpired (sb : Nat)
  /-- R331. In host mapping a Value or Quality write is packed into the entry's destination. -/
  | signalValueWrite (path : Path) (me sub value : Nat)
  /-- R346. Key command 1 derives a key into the selected slot. -/
  | keyDerive (run : KeyRun)
  /-- R346. Key command 2 agrees a key by ECDH. -/
  | keyAgree (run : KeyRun)
  /-- R346. Key command 3 unwraps WrappedKey into the slot. -/
  | keyImport (run : KeyRun)
  /-- R348. Key command 4 destroys the slot and its bound children. -/
  | keyInvalidate (run : KeyRun)
  /-- R342. SecurityStatus command 1 programs the Operational life cycle. -/
  | enterOperational (path : Path) (upper : Nat)
  /-- R342. SecurityStatus command 2 decommissions the hub. -/
  | decommission (path : Path) (upper : Nat)
  /-- R350. SecurityStatus command 3 programs the customer key hash. -/
  | enrolCustomerKeyHash (path : Path)
  /-- R351. A tamper source alarms; it is latched and its action applies. -/
  | tamperAlarm (source : Nat) (active : Bool)
  /-- R360. TamperStatus command 1 clears the inactive latches, the lock and AonColdStart. -/
  | tamperClear (path : Path)
  /-- R355. A tunnel-4 request unit is answered with a signed statement. -/
  | vanguriRequest (t : Nat) (busy : Bool) (msg : Bytes) (cut : Bool)
  /-- R355. Vanguri command 1 signs a statement over the caller's nonce. -/
  | vanguriSign (path : Path) (cut : Bool)
  /-- R356. Each SelfTestInterval the AES engines run their known-answer test. -/
  | cryptoSelftest (engine : Nat) (pass : Bool)
  /-- R356. A continuous health test fails and TRNG output stops. -/
  | trngHealthFailure (test : Nat)
  /-- R364. A feed becomes present or absent after t_FD. -/
  | feedStateChange (feed mv vor : Nat)
  /-- R364. A reversing feed's ideal diode turns off within t_RTO. -/
  | feedReverseCurrent (feed mv vor : Nat)
  /-- R365. VOR falls below 6.0 V: PD1 stops, the inlet turns off and PD0 runs from HOLDUP. -/
  | vorBelowMinimum (vor : Nat)
  /-- R365. 100 ms after VOR is good, a low HOLDUP is journalled. -/
  | holdupCheck (mv : Nat)
  /-- R366. The insertion debounce passes and the inlet is requested. -/
  | inletDebounceComplete (vor : Nat)
  /-- R366. VOR at or above InletOv turns the inlet gate off. -/
  | inletOvervoltage (vor : Nat)
  /-- R366. VOR below InletUvOff raises the power-fail warning. -/
  | powerFailWarning (vor : Nat)
  /-- R372. An on-request ramps an Off breaker. -/
  | breakerOnRequest (ch : Nat)
  /-- R372. A withdrawn request turns a Ramping or On breaker Off. -/
  | breakerRequestWithdrawn (ch : Nat)
  /-- R367. The gate is fully enhanced; the breaker is On and power-good is asserted. -/
  | breakerFullEnhancement (ch : Nat)
  /-- R367. The breaker is not On within RampTimeout and trips with cause 4. -/
  | breakerRampTimeout (ch ma : Nat) (temp : Int)
  /-- R368. The time above a curve level reaches its point time and the breaker trips. -/
  | breakerCurveTrip (ch point ma : Nat) (temp : Int)
  /-- R369. Current above twice ContinuousLimit trips the breaker within t_FT. -/
  | breakerFastTrip (ch ma : Nat) (temp : Int)
  /-- R370. The FET temperature exceeds FetTempLimit and the breaker trips. -/
  | breakerThermalTrip (ch ma : Nat) (temp : Int)
  /-- R371. A channel output above its input rail trips the channel. -/
  | breakerReverseCurrent (ch ma : Nat) (temp : Int)
  /-- R372. The retry timer expires and a cool, requested breaker ramps again. -/
  | breakerRetryTimer (ch : Nat) (temp : Int)
  /-- R372. A breaker On for RetryResetTime has RetriesUsed cleared. -/
  | retryResetTimeExpired (ch : Nat)
  /-- R372. RetryCount written at or below RetriesUsed locks out a Tripped breaker. -/
  | retryCountWrite (path : Path) (ch value : Nat)
  /-- R372. INLET_RESTART_N held low 10 ms clears an inlet lockout. -/
  | inletRestart
  /-- R370. An NTC reads open or short and the breaker uses the model alone. -/
  | fetSensorFault (ch ohms : Nat)
  /-- R384. BreakerStatus command 1 returns the breaker to Off. -/
  | breakerReset (path : Path) (ch : Nat)
  /-- R384. BreakerStatus command 2 ramps a Waiting breaker. -/
  | breakerRetryNow (path : Path) (ch : Nat) (temp : Int)
  /-- R384. BreakerStatus command 3 clears TripCount and PeakCurrent. -/
  | breakerClearCounters (path : Path) (ch : Nat)
  /-- R382. PowerEntryStatus command 1 clears the feed and inlet counters. -/
  | powerEntryClearCounters (path : Path)
  /-- R374. PD0 restarts after losing HOLDUP and the breaker state is lost. -/
  | pd0ColdStart
  /-- R378. After its delay the next PMIC group is enabled. -/
  | railGroupEnable
  /-- R378. Every rail of a group is good and the next delay starts, or the reset release follows. -/
  | railGroupGood
  /-- R378. A group is not good within t_GRP and the sequence fails. -/
  | railGroupTimeout
  /-- R379. A rail outside its window for t_RF cuts power, resets the hub or isolates domains. -/
  | railFault (rail : Nat) (overV : Bool) (mv : Nat)
  /-- R387. An AppEnable write starts loading pair B or holds it Off. -/
  | appEnableWrite (path : Path) (value : Nat)
  /-- R387. Pair B's image is accepted and it runs, or is refused. -/
  | appLoadComplete
  /-- R387. AppConfig command 1 resumes a halted pair B. -/
  | appStart (path : Path)
  /-- R387. AppConfig command 2 halts pair B. -/
  | appHalt (path : Path)
  /-- R387. AppConfig command 3 reloads pair B. -/
  | appRestart (path : Path)
  /-- R403. AppStatus command 1 clears pair B's counters. -/
  | appClearCounters (path : Path)
  /-- R388. An unmapped pair-B access reads zero and is counted. -/
  | busUnmappedAccess (addr : Nat)
  /-- R390. GW_GO 1 submits a gateway read. -/
  | gwGoRead (address length : Nat)
  /-- R390. GW_GO 2 submits a gateway write. -/
  | gwGoWrite (address length : Nat) (data : Bytes)
  /-- R390. The engine executes the gateway request, sets done and raises source 3. -/
  | gatewayDone
  /-- R391. A read of the last JP_ENTRY word advances JP_READ_INDEX. -/
  | jpEntryRead (index : Option Nat)
  /-- R391. A JP_WRITE commits a pair-B journal entry, or drops it beyond the limit. -/
  | jpWrite (code sev : Nat) (args : Bytes)
  /-- R392. Pair B sets a doorbell toward pair A. -/
  | dbSet (bell : Nat)
  /-- R392. Pair B clears a doorbell of its own. -/
  | dbClear (bell : Nat)
  /-- R404. A host write to AppMailbox Ring sets a doorbell toward pair B. -/
  | doorbellRing (path : Path) (bell : Nat)
  /-- R392. AppMailbox command 1 posts HostToApp and raises source 11. -/
  | appMailboxPost (path : Path)
  /-- R392. Pair B takes the posted message: the post commits. -/
  | hostMsgTake
  /-- R392. APP_MSG_SEND copies the reply to AppToHost and raises source 12. -/
  | appMsgSend (msg : Bytes)
  /-- R393. Pair B hands a service-port endpoint buffer to USB or requests a halt. -/
  | endpointDescriptorWrite (ep : Nat) (isIn : Bool) (buf owner : Nat) (halt : Bool) (data : Bytes)
  /-- R394. A read of STIME_LO latches station time. -/
  | stimeLatchRead
  /-- R394. A write of TMR_CMP_HI arms a timer. -/
  | tmrArm (tmr due period : Nat) (periodic : Bool)
  /-- R394. A pair-B timer reaches its due time and raises its source. -/
  | timerExpiry (tmr : Nat)
  /-- R394. The key value to WDOG_KICK restarts the watchdog. -/
  | wdogKick (value : Nat)
  /-- R394. The pair-B watchdog runs out, raises source 2 and restarts. -/
  | watchdogExpiry
  /-- R397. A normal-class claim returns and activates the best pending source. -/
  | nClaim (pair enable : Nat)
  /-- R397. A normal-class complete ends the active source. -/
  | nComplete (pair source : Nat)
  /-- R397. A fast-class claim returns and activates the best pending source. -/
  | fClaim (pair enable : Nat)
  /-- R397. A fast-class complete ends the active source. -/
  | fComplete (pair source : Nat)
  /-- R399. A normal delivery stacks registers, claims and enters the handler. -/
  | normalInterruptEntry (pair enable ctrl : Nat) (resumed : Bool)
  /-- R399. A fast delivery switches bank, claims and preempts the normal class. -/
  | fastInterruptEntry (pair enable ctrl : Nat)
  /-- R400. In Setup with both pairs asleep, CI2 stops. -/
  | ci2ClockStop
  /-- R400. An enabled wake latch or a dictionary request restarts CI2. -/
  | ci2ClockRestart (request : Bool)
  /-- R412. The cores of a pair differ; the mismatch is latched, raised and journalled. -/
  | lockstepMismatch (pair cycle address : Nat)
  /-- R414. Every 39 µs a shadow block's CRC is recomputed and a mismatch is latched. -/
  | shadowCheck (ok writing : Bool) (low high : Nat)
  /-- R416. A watched tunnel is silent for SilenceCycles and SF2 is latched. -/
  | tunnelSilent (n : Nat)
  /-- R418. A power-path check fails its consecutive count and SF4 is latched. -/
  | sf4PowerPathFault (cause unit value : Nat)
  /-- R411. Pair A refreshes the SAFE_PULSE permission. -/
  | safePulsePermission
  /-- R411. The permission is not refreshed for 10 ms and SAFE_PULSE goes low. -/
  | safePulsePermissionTimeout
  /-- R433. SafetyStatus command 1 clears SfLatched and CommonLatched. -/
  | safetyClearLatches (path : Path)
  /-- R433. SafetyStatus command 2 rewrites every shadow from the dictionary. -/
  | shadowReload (path : Path)
  /-- R420. Every 10 s the sentinels report margin and degradation. -/
  | sentinelReport (margins : List Int) (delays : List Nat)
  /-- R422. The planner computes the voltage, equaliser and DRAM guard settings and applies or proposes them. -/
  | planInstant (eyes : List Nat)
  /-- R426. MarginStatus command 1 applies the pending proposal. -/
  | marginApprove (path : Path)
  /-- R434. MarginStatus command 2 takes a plan instant at once. -/
  | marginPlanNow (path : Path) (eyes : List Nat)
  /-- R425. A narrowed envelope moves the value in force to the nearer bound. -/
  | marginEnvelopeWrite (path : Path) (item value : Nat)
  /-- R425. Every 24 h a loop still pinned repeats EV_MARGIN_PINNED. -/
  | marginPinnedRepeat (loop_ : Nat)
  /-- R427. The DRAM patrol scrub reads and corrects the next words. -/
  | dramPatrolScrub (corrected : Nat) (bad : Option Nat) (done : Bool)
  /-- R427. The fabric-buffer scrub checks the next words in free bank slots. -/
  | bufferPatrolScrub (corrected : Nat) (bad : Option Nat) (done : Bool)
  /-- R427. The SRAM and tightly coupled memory scrub checks the next words. -/
  | sramScrub (mem corrected : Nat) (bad : Option Nat) (done : Bool)
  /-- R427. The MRAM scrub checks the next words. -/
  | mramScrub (corrected : Nat) (bad : Option (Nat × Nat × Nat)) (done : Bool)
  /-- R427. ZQ calibration, DQS tracking and refresh adjustment run on their periods. -/
  | ddrCalibration (kind : Nat) (widths : List Nat)
  /-- R427. The auxiliary sampler sweeps a trunk lane's eye. -/
  | serdesSweep (t lane best : Nat)
  /-- R427. Temperature sensors and guard-die ADC references are calibrated. -/
  | sensorCalibration
  /-- R427. A task fails to complete a pass within twice its period. -/
  | backgroundTaskBehind (task : Nat)
  /-- R428. A write disables or enables a background task and is journalled. -/
  | backgroundTaskEnableWrite (path : Path) (task value : Nat)
  /-- R429. Log data are written to the boot-flash log area under the erase limits. -/
  | norLogWrite (log bytes : Nat) (erased programmed : Bool)
  /-- R430. Each TelemetryInterval temperatures, rails and power are sampled. -/
  | telemetrySample (temps : List Int) (guard : Int) (rails powers : List Nat)
  /-- R430. Each TelemetryLogInterval a telemetry record is written to the log. -/
  | telemetryLogRecord
  /-- R446. A Lift DFU download block is checked and programmed. -/
  | liftDfuDnload (alt block : Nat) (data : Bytes) (erased programmed : Bool)
  /-- R446. The zero-length download completes the Lift image and resets the hub. -/
  | liftDfuDnloadEnd (alt : Nat) (programmed : Bool)
  /-- R446. DFU_ABORT ends the Lift download with no image in the target. -/
  | liftDfuAbort
  /-- R445. DFU_GETSTATUS returns the DFU status. -/
  | liftDfuGetstatus
  /-- R445. DFU_CLRSTATUS clears a DFU error. -/
  | liftDfuClrstatus
  /-- R445. DFU_GETSTATE returns the DFU state. -/
  | liftDfuGetstate
  /-- R447. DFU_DETACH followed by a bus reset makes Ilkai present DFU-mode descriptors. -/
  | dfuDetach
  /-- R447. An in-service DFU block is programmed into the staging area. -/
  | stagingDfuDnload (block : Nat) (data : Bytes) (erased programmed : Bool)
  /-- R447. The last staging block is checked and the staged header programmed. -/
  | stagingDfuDnloadEnd (programmed : Bool)
  /-- R456. ImageStaging command 1 accepts a DFU download into staging. -/
  | imageStage (path : Path)
  /-- R448. ImageStaging command 2 copies the staged image into its slot. -/
  | imageActivate (path : Path)
  /-- R448. The copy is verified, its header programmed and TrialSlot set. -/
  | imageActivationDone (programmed : Bool)
  /-- R456. ImageStaging command 3 discards the staged image. -/
  | imageDiscard (path : Path)
  /-- R455. FirmwareStatus command 1 makes the running slot preferred. -/
  | fwConfirmSlot (path : Path)
  /-- R448. FirmwareStatus command 2 raises RollbackCount by fuses. -/
  | fwAdvanceRollback (path : Path) (force : Bool)
  /-- R448. FirmwareStatus command 3 raises AppSecurityFloor. -/
  | fwRaiseAppFloor (path : Path)
  /-- R455. FirmwareStatus command 4 replies and schedules a kind-5 reset. -/
  | fwReset (path : Path)
  /-- R454. t_CR after the reply the commanded reset is asserted. -/
  | fwResetDelayExpired
  /-- R457. OrphanWindow command 1 discards every orphan. -/
  | orphanDiscard (path : Path)
  /-- R449. Within 5 s of a store the committed copy is copied into the boot-flash backup. -/
  | configBackupWrite
  /-- R68. In mode 3 each received 66b block is checked for a valid sync header, counted in SyncHeaderErrors and, on a run of 16 invalid headers, makes its lane Lost. -/
  | pcsBlockReceived (t lane : Nat) (valid : Bool) (marker : Option Nat) (stamp : Nat) (skew : Int)
  /-- R69. A lane receiver gains CDR lock and block lock, in training, after a rate change or after being Lost. -/
  | laneLockAcquired (t lane : Nat)
  /-- R179. The power-good of a domain that failed while enabled returns, and a Down display output returns to Starting. -/
  | domainGoodAgain (dom : Nat)
  /-- R223. 20 ms of K on a selectively resuming downstream port end, followed by LS EOP, and the port returns to Enabled with C_PORT_SUSPEND set. -/
  | portResumingEnd (u : Nat)
  /-- R253. tPSHardReset after a Hard Reset the Source turns channel 8 off to take VBUS toward vSafe0V. -/
  | psHardResetTimer
  /-- R254. VBUS falls below vSafe0V after a hard reset or detach, ending SVC_VBUS_DIS discharge and allowing a new attach or the recovery timer. -/
  | vbusSafe0vReached
  /-- R253. tSrcRecover after vSafe0V the Source restores VBUS to vSafe5V, reapplies VCONN and restarts Source_Capabilities. -/
  | srcRecoverTimer
  /-- R284. At the end of a UTC day with a leap pending, TaiUtcOffset changes and EV_TIME_LEAP is journalled. -/
  | leapSecond
  deriving DecidableEq, Repr

end Sys2Proof
end

