-- ==== Sys2Proof/Config.lean ====
section
/-!
DEFINITION. What the spec leaves open: free values, as constants without a body. A claim that holds in the model
holds for every value of them. Each is named in the assumption log.
-/

namespace Sys2Proof.Config

/-- What a counter reads after passing its width where the spec says neither that it stops nor that it wraps. -/
opaque counterOverflow : Nat → Nat → Nat

/-- The rise of a tunnel whose group has no planned cell time (R161), which the spec does not give: the share. -/
opaque riseOfNone : Nat → Nat

/-- What a measured object reads (a sensor, an eye monitor), which no command of the table gives: key and clock. -/
opaque measured : Nat → Nat → Nat

/-- Random bits of the TRNG: the draw's number gives them. -/
opaque trng : Nat → Nat

/-- The raw TRNG samples collected for a root (R339), by the draw's number. -/
opaque rootSamples : Nat → Bytes

/-- What the derivation engine gives in place of the TRNG (R356): the draw's number gives it. -/
opaque engineRandom : Nat → Nat

/-- Which native objects the QH5-12 layout of a function lacks (R53): function and index. -/
opaque qh5Lacks : Nat → Nat → Bool

/-- What an object reads in the QH5-12 layout (R53), which the spec does not give: index, subindex and native value. -/
opaque qh5Value : Nat → Nat → Nat → Nat

/-- The native value that a write in the QH5-12 layout stands for (R53), which the spec does not give: index, subindex and
the value written. -/
opaque qh5Write : Nat → Nat → Nat → Nat

/-- Characters of a string object that the spec does not give: HardwareVersion by die revision, SoftwareVersion by image
version (R32). -/
opaque versionText : Nat → Nat → List (BitVec 8)

/-- The number that an entry or object carries for a case that the spec names without a number: event or object, and
case. -/
opaque code : Nat → Nat → Nat

/-- AES-256-GCM (R115): key, IV, authenticated data and plaintext give ciphertext and tag. -/
opaque gcmSeal : Nat → Nat → Bytes → Bytes → Bytes

/-- AES-256-GCM (R115): key, IV, authenticated data and ciphertext with tag give the plaintext, or none where the tag
fails. -/
opaque gcmOpen : Nat → Nat → Bytes → Bytes → Option Bytes
/-- The four bits below a colour component of 8 bits at 12 bits (R182), whose widening the spec does not give. -/
opaque widen12 : Nat → Nat

/-- A blended component that is no whole number at 12 bits is rounded up and not down, by its sum over 65 025 (R182): the
spec does not give that rounding. -/
opaque blendUp : Nat → Bool

/-- A component converted from a limited-range Y, U, V (R183) is rounded up and not down, by the matrix, and the exact
value's numerator and denominator: the spec does not give the rounding. -/
opaque yuvUp : Nat → Int → Nat → Bool

/-- A byte of the row that is being scanned while the host writes it (R188): old or new content, by address and draw. -/
opaque tornByte : Nat → Nat → BitVec 8

/-- The 257-bit block into which 32 bytes of a cell are transcoded (R62), by IEEE 802.3 Clause 91. -/
opaque transcode : Bytes → Nat

/-- The transcoded idle block (R61, R62), by IEEE 802.3 Clause 91. -/
opaque idleBlock : Nat

/-- The bit that a marker's transcoded block has beside its 256-bit content (R63). -/
opaque markerHead : Nat

/-- The RS(528,514) codeword of 20 transcoded blocks (R62), by IEEE 802.3 Clause 91. -/
opaque rsEncode : List Nat → Nat

/-- The blocks of a group that training frames have filled when Verify starts (R62): draw. -/
opaque trainingBlocks : Nat → List Nat

/-- The cycle number of a marker sent in Verify, before the count of R63 starts: draw. -/
opaque verifyCycle : Nat → Nat
/-- Fields of a completion that no attempt gives (R220), by the draw. -/
opaque noAttempt : Nat → Nat

/-- String descriptors of the hub function and of the service-port device (R216), which the spec does not give. -/
opaque usbString : Nat → Nat → List (BitVec 8)
/-- bInterval of an endpoint of the service-port device (R231), which the spec does not give. -/
opaque svcInterval : Nat → Bool → Nat

/-- bwPollTimeout of a DFU_GETSTATUS answer (R445, R447), which the spec does not give. -/
opaque dfuPoll : Nat → Nat
/-- The VDOs of the Discover Identity answer (R242), which the spec does not give. -/
opaque identityVdos : List Nat
/-- The frequency word after a sample (R270): the spec gives the loop's bandwidth and no gains. Bandwidth, offset, old
word and draw give it. -/
opaque servoWord : Nat → Int → Int → Nat → Int

/-- The hub's MAC address, its PTP clock identity, by serial number, which the spec does not give (R265, R273). -/
opaque hubMac : Nat → Bytes
opaque clockIdentity : Nat → Bytes

/-- Whether a source new to a full duplicate table of 1024 entries (R265) takes the place of another, which the spec
does not say: the place taken, or none from 1024 on. Pair and draw. -/
opaque fullNodeTable : Nat → Nat → Nat
/-- Where in the staging region the engine places a command's data (R294), which the spec does not give: port, tag. -/
opaque stagingPlace : Nat → Nat → Nat

/-- Fields of Identify data and log pages that the spec does not give (R295): port, selector, namespace, draw. -/
opaque nvmeFill : Nat → Nat → Nat → Nat → Bytes

/-- The SMART/Health page of the far drive behind a tunnel (R295), by draw. -/
opaque farHealth : Nat → Nat → Bytes

/-- The header of a storage unit (R297), whose bytes the spec does not give. -/
opaque storageHead : SUnit → Bytes

/-- The far port of a window's tunnel (R314), of which the source hub is told nothing: tunnel. -/
opaque farPort : Nat → Nat

/-- The address to which the engine lets a drive send its MSI-X messages (R293). -/
opaque msixAddress : Nat → Nat
/-- The field of a CAN frame that is shorter than a map entry's field (R324), which the spec does not give: entry and
draw. -/
opaque shortField : Nat → Nat → Nat

/-- The result where an infinite source meets a gain of 0 (R325), which the spec does not give: draw. -/
opaque scaledNan : Nat → Int

/-- Raw value of a GOOSE member of a type that the spec's decoding does not name (R324): draw. -/
opaque gooseRaw : Nat → Nat
/-- SHA-384 (R339, R354): the digest's 48 bytes. -/
opaque sha384 : Bytes → Bytes

/-- HMAC-SHA-384 (R35, R345): key and message give 48 bytes. -/
opaque hmacSha384 : Bytes → Bytes → Bytes

/-- The public key, X then Y, of a P-384 private key (R359). -/
opaque ecPublic : Nat → Bytes

/-- The x-coordinate of the ECDH P-384 shared point, or none where the peer's key is no point of P-384 (R345, R346). -/
opaque ecdhX : Nat → Bytes → Option Bytes

/-- The measurement of the security configuration (R354), whose bytes the spec does not give: SHA-384 of the stored area 4
and the tamper configuration, as keys and values. -/
opaque areaDigest : List (Nat × Nat) → List (Nat × Bytes) → Bytes

/-- The ECDSA P-384 signature, r then s, of a message (R354). -/
opaque ecdsaSign : Nat → Bytes → Bytes
/-- Bytes of an erase block of the log area that its header takes (R429), which the spec does not give. -/
opaque norHeader : Nat
/-- ECDSA P-384 verification of a signature under a public key, of a message's SHA-384 (R442). -/
opaque ecdsaVerify : Bytes → Bytes → Bytes → Bool

/-- Kerpevan's image-signing key hash in the ROM, SHA-384 (R442). -/
opaque imageKeyHash : List (BitVec 8)

/-- The ROM's measurement of itself (R439, R354). -/
opaque romMeasure : List (BitVec 8)

/-- An image's migration table (R450): image version, old schema, old key and value; the native key and converted value. -/
opaque migrated : Nat → Nat → Nat → Nat → Option (Nat × Nat)

/-- The same for a string or long octet value. -/
opaque migratedStr : Nat → Nat → Nat → List (BitVec 8) → Option (Nat × List (BitVec 8))

end Sys2Proof.Config
end

