-- ==== Sys2Proof/Machine/Bits.lean ====
section
/-!
DEFINITION. Bit fields, two's complement and byte order (R27): the helpers every register read and write uses.
-/

set_option Elab.async false

namespace Sys2Proof.Machine

/-- The low `n` bytes of `v`, least significant first (R27). -/
def leBytes : Nat → Nat → Bytes
  | 0, _ => []
  | n + 1, v => BitVec.ofNat 8 v :: leBytes n (v / 256)

/-- The value of bytes that travel least significant first (R27). -/
def leNat : Bytes → Nat
  | [] => 0
  | b :: r => b.toNat + 256 * leNat r

/-- The value of bytes that travel most significant first. -/
def beNat (bs : Bytes) : Nat := leNat bs.reverse

/-- The low `n` bytes of `v`, most significant first. -/
def beBytes (n v : Nat) : Bytes := (leBytes n v).reverse

/-- The low `bits` bits of `v` read as two's complement (R28). -/
def sget (bits v : Nat) : Int :=
  if v % 2 ^ bits < 2 ^ (bits - 1) then (v % 2 ^ bits : Nat) else (v % 2 ^ bits : Nat) - (2 ^ bits : Nat)

/-- `x` written in `bits` bits of two's complement (R28). -/
def sput (bits : Nat) (x : Int) : Nat := (x % (2 ^ bits : Nat)).toNat

/-- `x` held within the range of `bits` bits of two's complement, then written. -/
def sputSat (bits : Nat) (x : Int) : Nat :=
  sput bits (max (-(2 ^ (bits - 1) : Nat)) (min ((2 ^ (bits - 1) : Nat) - 1) x))

/-- Bit `i` of a mask set. -/
def setBit (v i : Nat) : Nat := v ||| (1 <<< i)

/-- Bit `i` of a mask cleared. -/
def clrBit (v i : Nat) : Nat := if v.testBit i then v - 1 <<< i else v

/-- Bit `i` of a mask given the value `b`. -/
def putBit (v i : Nat) (b : Bool) : Nat := if b then setBit v i else clrBit v i

/-- 1 for true, 0 for false: a BOOL object's value (R28). -/
def ofBool (b : Bool) : Nat := if b then 1 else 0

/-- The field of `v` from bit `lo`, `w` bits wide. -/
def field (v lo w : Nat) : Nat := (v >>> lo) % 2 ^ w

/-- How many of the lowest `n` bits of `v` are set. -/
def popCount : Nat → Nat → Nat
  | 0, _ => 0
  | n + 1, v => v % 2 + popCount n (v / 2)

/-- A counter that stops at its maximum value. -/
def satAdd (bits v n : Nat) : Nat := min (v + n) (2 ^ bits - 1)

/-- A counter that wraps. -/
def wrapAdd (bits v n : Nat) : Nat := (v + n) % 2 ^ bits

/-- `n` copies of byte 0. -/
def zeros (n : Nat) : Bytes := List.replicate n 0

/-- Bytes cut or filled with zero to length `n`. -/
def fitBytes (n : Nat) (bs : Bytes) : Bytes := (bs ++ zeros n).take n

/-- `n` steps of the reflected CRC-32C register (R93). -/
def crcShift : Nat → Nat → Nat
  | 0, r => r
  | n + 1, r => crcShift n (if r % 2 = 1 then (r / 2) ^^^ 0x82F63B78 else r / 2)

/-- The CRC-32C register run over bytes (R93). -/
def crcRun : Nat → Bytes → Nat
  | r, [] => r
  | r, b :: bs => crcRun (crcShift 8 (r ^^^ b.toNat)) bs

/-- CRC-32C: polynomial 0x1EDC6F41, reflected, initial value 0xFFFFFFFF, final XOR 0xFFFFFFFF (R93). -/
def crc32c (bs : Bytes) : Nat := crcRun 0xFFFFFFFF bs ^^^ 0xFFFFFFFF

/-- The bytes from `off`, `n` of them, as a number sent least significant byte first (R27). -/
def leAt (bs : Bytes) (off n : Nat) : Nat := leNat (fitBytes n (bs.drop off))

/-- The bytes from `off`, `n` of them, as a number sent most significant byte first. -/
def beAt (bs : Bytes) (off n : Nat) : Nat := beNat (fitBytes n (bs.drop off))

/-- One byte. -/
def byteAt (bs : Bytes) (off : Nat) : Nat := leAt bs off 1

end Sys2Proof.Machine
end

