-- ==== Sys2Proof/Machine/Objects.lean ====
section
/-!
DEFINITION. The object dictionary's tables (R27-R31): for every index and subindex its type, size, access mode,
default, range and write level, taken chapter by chapter from the tables of the spec. An index inside an array is
looked up under the array's first index.
-/

set_option Elab.async false

namespace Sys2Proof.Machine

/-- Access modes of R29. -/
inductive Access where
  | ro | const | rw | rws | wo
  deriving DecidableEq, Repr

/-- The range column of an object table; cross-object conditions are judged apart. -/
inductive Range where
  | any
  | between (lo hi : Nat)
  | sBetween (lo hi : Int)
  | oneOf (vs : List Nat)
  | multiple (m lo hi : Nat)
  deriving DecidableEq, Repr

/-- One row of an object table: index, first and last subindex, type code (R28), size in bytes (0 for STR),
access, default, range, write level (R30). -/
structure ObjRow where
  index : Nat
  lo : Nat
  hi : Nat
  type : Nat
  size : Nat
  acc : Access
  dflt : Nat
  rng : Range
  level : Nat
  deriving DecidableEq, Repr

/-- The part on the card: what CONST identity objects and straps show. -/
structure Part where
  qh34 : Bool          -- variant QH7-34, else QH7-18
  revision : Nat
  serial : Nat
  dramBytes : Nat      -- fitted DRAM
  straps : Bool        -- ROLE_HEAD level, true head
  deriving DecidableEq, Repr

/-- Trunks of the part (R1). -/
def Part.trunks (p : Part) : Nat := if p.qh34 then 4 else 2
/-- The part has trunk `t`. -/
def Part.hasTrunk (p : Part) (t : Nat) : Bool := decide (t < p.trunks)
/-- The part has display output `d`: QH7-18 has D0 and D2. -/
def Part.hasOutput (p : Part) (d : Nat) : Bool := if p.qh34 then decide (d < 4) else decide (d = 0 ∨ d = 2)
/-- The part has Ethernet port `e`. -/
def Part.hasEth (p : Part) (e : Nat) : Bool := decide (e < (if p.qh34 then 8 else 4))
/-- The part has PCIe port `k`. -/
def Part.hasPcie (p : Part) (k : Nat) : Bool := decide (k < (if p.qh34 then 2 else 1))
/-- The part has downstream USB port `u`. -/
def Part.hasUsb (p : Part) (u : Nat) : Bool := decide (u < (if p.qh34 then 8 else 4))
/-- The part has breaker `c`: eFuse channels 0-8 and the inlet; QH7-18 lacks channels 4-7 (R2, R363). -/
def Part.hasBreaker (p : Part) (c : Nat) : Bool := decide (c < 10) && (p.qh34 || decide (c < 4 ∨ 8 ≤ c))
/-- The part has UART `u`. -/
def Part.hasUart (p : Part) (u : Nat) : Bool := decide (u < (if p.qh34 then 4 else 2))
/-- The units that a cause of R418 names: a breaker, a rail, none, a feed. -/
def powerUnit (cause unit : Nat) : Bool :=
  if cause ≤ 3 then decide (unit < 10)
  else if cause = 4 then decide (unit < 7)
  else if cause = 5 then true
  else decide (unit < 2)
/-- The part has the unit that a cause of R418 names. -/
def Part.pathUnit (p : Part) (cause unit : Nat) : Bool :=
  powerUnit cause unit && (decide (3 < cause) || p.hasBreaker unit)
/-- The QH7-34 with this part's values: it has every port of the family (R1). -/
def Part.full (p : Part) : Part := { p with qh34 := true }
/-- The part has fabric port `f` (R13). -/
def Part.hasFabricPort (p : Part) (f : Nat) : Bool :=
  decide (f < 20) && (p.qh34 || !([2, 3, 8, 9, 10, 11, 13].contains f))

/-- The objects of the identification range (R32, R43). Of 0x1017 the spec gives index and default only: that it is a U16,
RW at Engineer is DESIGN CHOICE, log entry 227. -/
def identityRows1 : List ObjRow := [
  ⟨0x1000, 0x00, 0x00, 7, 4, .const, 0, .any, 2⟩, -- DeviceType (R32)
  ⟨0x1008, 0x00, 0x00, 9, 0, .const, 0, .any, 2⟩, -- DeviceName (R32)
  ⟨0x1009, 0x00, 0x00, 9, 0, .const, 0, .any, 2⟩, -- HardwareVersion (R32)
  ⟨0x100A, 0x00, 0x00, 9, 0, .ro, 0, .any, 2⟩, -- SoftwareVersion (R32)
  ⟨0x1010, 0x00, 0x00, 5, 1, .const, 4, .any, 2⟩, -- HighestSub (R50)
  ⟨0x1010, 0x01, 0x04, 7, 4, .rw, 1, (.oneOf [0x65766173]), 2⟩, -- Store (R50)
  ⟨0x1011, 0x00, 0x00, 5, 1, .const, 4, .any, 2⟩, -- HighestSub (R50)
  ⟨0x1011, 0x01, 0x04, 7, 4, .rw, 1, (.oneOf [0x64616F6C]), 2⟩, -- Restore (R50)
  ⟨0x1017, 0x00, 0x00, 6, 2, .rw, 1000, .any, 2⟩, -- HeartbeatTime (R43)
  ⟨0x1018, 0x00, 0x00, 5, 1, .const, 4, .any, 2⟩, -- HighestSub (R32)
  ⟨0x1018, 0x01, 0x01, 7, 4, .const, 2621, .any, 2⟩, -- VendorId (R32)
  ⟨0x1018, 0x02, 0x02, 7, 4, .const, 0, .any, 2⟩, -- ProductCode (R32)
  ⟨0x1018, 0x03, 0x03, 7, 4, .const, 0, .any, 2⟩, -- RevisionNumber (R32)
  ⟨0x1018, 0x04, 0x04, 7, 4, .const, 0, .any, 2⟩, -- SerialNumber (R32)
  ⟨0x1019, 0x00, 0x00, 5, 1, .const, 2, .any, 2⟩, -- HighestSub (R32)
  ⟨0x1019, 0x01, 0x01, 5, 1, .ro, 0, .any, 2⟩, -- HubRole (R32)
  ⟨0x1019, 0x02, 0x02, 5, 1, .const, 0, .any, 2⟩, -- Variant (R32)
  ⟨0x1100, 0x00, 0x00, 5, 1, .const, 8, .any, 0⟩, -- HighestSub (R34)
  ⟨0x1100, 0x01, 0x01, 5, 1, .rw, 0, (.oneOf [0, 1, 2, 3, 3]), 0⟩, -- SessionRequest (R34)
  ⟨0x1100, 0x02, 0x02, 5, 1, .rw, 0, (.between 0 15), 0⟩, -- CredentialId (R34)
  ⟨0x1100, 0x03, 0x03, 10, 16, .ro, 0, .any, 0⟩, -- SessionChallenge (R34)
  ⟨0x1100, 0x04, 0x04, 10, 16, .wo, 0, .any, 0⟩, -- SessionResponse (R34)
  ⟨0x1100, 0x05, 0x05, 5, 1, .ro, 0, .any, 0⟩, -- SessionRights (R34)
  ⟨0x1100, 0x06, 0x06, 6, 2, .ro, 0, .any, 0⟩, -- SessionId (R34)
  ⟨0x1100, 0x07, 0x07, 64, 8, .ro, 0, .any, 0⟩, -- SessionStart (R34)
  ⟨0x1100, 0x08, 0x08, 7, 4, .ro, 0, .any, 0⟩, -- SessionIdle (R34)
  ⟨0x1101, 0x00, 0x00, 5, 1, .const, 2, .any, 2⟩, -- HighestSub (R36)
  ⟨0x1101, 0x01, 0x01, 7, 4, .rw, 300000, (.between 10000 3600000), 2⟩, -- SessionIdleLimit (R36)
  ⟨0x1101, 0x02, 0x02, 7, 4, .rw, 28800000, (.between 60000 86400000), 2⟩, -- SessionAgeLimit (R36)
  ⟨0x1210, 0x00, 0x00, 5, 1, .const, 3, .any, 2⟩, -- HighestSub (R45)
  ⟨0x1210, 0x01, 0x01, 5, 1, .rws, 127, (.between 1 127), 2⟩, -- CanNodeId (R45)
  ⟨0x1210, 0x02, 0x02, 6, 2, .rw, 1000, (.between 10 10000), 2⟩, -- SdoTimeout (R45)
  ⟨0x1210, 0x03, 0x03, 5, 1, .rw, 127, (.between 1 127), 2⟩, -- SdoBlockSizeMax (R45)
  ⟨0x1400, 0x00, 0x00, 5, 1, .const, 5, .any, 2⟩, -- HighestSub (R43)
  ⟨0x1400, 0x01, 0x01, 7, 4, .rws, 639, .any, 2⟩, -- RpdoCobId (R43)
  ⟨0x1400, 0x02, 0x02, 5, 1, .rws, 255, .any, 2⟩, -- RpdoType (R43)
  ⟨0x1400, 0x03, 0x03, 6, 2, .rws, 0, .any, 2⟩, -- RpdoInhibitTime (R43)
  ⟨0x1400, 0x05, 0x05, 6, 2, .rws, 0, .any, 2⟩, -- RpdoEventTimer (R43)
  ⟨0x1401, 0x00, 0x00, 5, 1, .const, 5, .any, 2⟩, -- HighestSub (R43)
  ⟨0x1401, 0x01, 0x01, 7, 4, .rws, 895, .any, 2⟩, -- RpdoCobId (R43)
  ⟨0x1401, 0x02, 0x02, 5, 1, .rws, 255, .any, 2⟩, -- RpdoType (R43)
  ⟨0x1401, 0x03, 0x03, 6, 2, .rws, 0, .any, 2⟩, -- RpdoInhibitTime (R43)
  ⟨0x1401, 0x05, 0x05, 6, 2, .rws, 0, .any, 2⟩, -- RpdoEventTimer (R43)
  ⟨0x1402, 0x00, 0x00, 5, 1, .const, 5, .any, 2⟩, -- HighestSub (R43)
  ⟨0x1402, 0x01, 0x01, 7, 4, .rws, 1151, .any, 2⟩, -- RpdoCobId (R43)
  ⟨0x1402, 0x02, 0x02, 5, 1, .rws, 255, .any, 2⟩, -- RpdoType (R43)
  ⟨0x1402, 0x03, 0x03, 6, 2, .rws, 0, .any, 2⟩, -- RpdoInhibitTime (R43)
  ⟨0x1402, 0x05, 0x05, 6, 2, .rws, 0, .any, 2⟩, -- RpdoEventTimer (R43)
  ⟨0x1403, 0x00, 0x00, 5, 1, .const, 5, .any, 2⟩, -- HighestSub (R43)
  ⟨0x1403, 0x01, 0x01, 7, 4, .rws, 1407, .any, 2⟩, -- RpdoCobId (R43)
  ⟨0x1403, 0x02, 0x02, 5, 1, .rws, 255, .any, 2⟩, -- RpdoType (R43)
  ⟨0x1403, 0x03, 0x03, 6, 2, .rws, 0, .any, 2⟩, -- RpdoInhibitTime (R43)
  ⟨0x1403, 0x05, 0x05, 6, 2, .rws, 0, .any, 2⟩, -- RpdoEventTimer (R43)
  ⟨0x1600, 0x00, 0x00, 5, 1, .rws, 0, (.between 0 8), 2⟩, -- RpdoMapCount (R43)
  ⟨0x1600, 0x01, 0x08, 7, 4, .rws, 0, .any, 2⟩, -- RpdoMap (R43)
  ⟨0x1601, 0x00, 0x00, 5, 1, .rws, 0, (.between 0 8), 2⟩, -- RpdoMapCount (R43)
  ⟨0x1601, 0x01, 0x08, 7, 4, .rws, 0, .any, 2⟩, -- RpdoMap (R43)
  ⟨0x1602, 0x00, 0x00, 5, 1, .rws, 0, (.between 0 8), 2⟩, -- RpdoMapCount (R43)
  ⟨0x1602, 0x01, 0x08, 7, 4, .rws, 0, .any, 2⟩, -- RpdoMap (R43)
  ⟨0x1603, 0x00, 0x00, 5, 1, .rws, 0, (.between 0 8), 2⟩, -- RpdoMapCount (R43)
  ⟨0x1603, 0x01, 0x08, 7, 4, .rws, 0, .any, 2⟩, -- RpdoMap (R43)
  ⟨0x1800, 0x00, 0x00, 5, 1, .const, 5, .any, 2⟩, -- HighestSub (R43)
  ⟨0x1800, 0x01, 0x01, 7, 4, .rws, 511, .any, 2⟩, -- TpdoCobId (R43)
  ⟨0x1800, 0x02, 0x02, 5, 1, .rws, 255, .any, 2⟩, -- TpdoType (R43)
  ⟨0x1800, 0x03, 0x03, 6, 2, .rws, 0, .any, 2⟩, -- TpdoInhibitTime (R43)
  ⟨0x1800, 0x05, 0x05, 6, 2, .rws, 0, .any, 2⟩, -- TpdoEventTimer (R43)
  ⟨0x1801, 0x00, 0x00, 5, 1, .const, 5, .any, 2⟩, -- HighestSub (R43)
  ⟨0x1801, 0x01, 0x01, 7, 4, .rws, 767, .any, 2⟩, -- TpdoCobId (R43)
  ⟨0x1801, 0x02, 0x02, 5, 1, .rws, 255, .any, 2⟩, -- TpdoType (R43)
  ⟨0x1801, 0x03, 0x03, 6, 2, .rws, 0, .any, 2⟩, -- TpdoInhibitTime (R43)
  ⟨0x1801, 0x05, 0x05, 6, 2, .rws, 0, .any, 2⟩, -- TpdoEventTimer (R43)
  ⟨0x1802, 0x00, 0x00, 5, 1, .const, 5, .any, 2⟩, -- HighestSub (R43)
  ⟨0x1802, 0x01, 0x01, 7, 4, .rws, 1023, .any, 2⟩, -- TpdoCobId (R43)
  ⟨0x1802, 0x02, 0x02, 5, 1, .rws, 255, .any, 2⟩, -- TpdoType (R43)
  ⟨0x1802, 0x03, 0x03, 6, 2, .rws, 0, .any, 2⟩, -- TpdoInhibitTime (R43)
  ⟨0x1802, 0x05, 0x05, 6, 2, .rws, 0, .any, 2⟩, -- TpdoEventTimer (R43)
  ⟨0x1803, 0x00, 0x00, 5, 1, .const, 5, .any, 2⟩, -- HighestSub (R43)
  ⟨0x1803, 0x01, 0x01, 7, 4, .rws, 1279, .any, 2⟩, -- TpdoCobId (R43)
  ⟨0x1803, 0x02, 0x02, 5, 1, .rws, 255, .any, 2⟩, -- TpdoType (R43)
  ⟨0x1803, 0x03, 0x03, 6, 2, .rws, 0, .any, 2⟩] -- TpdoInhibitTime (R43)

def identityRows2 : List ObjRow := [
  ⟨0x1803, 0x05, 0x05, 6, 2, .rws, 0, .any, 2⟩, -- TpdoEventTimer (R43)
  ⟨0x1A00, 0x00, 0x00, 5, 1, .rws, 0, (.between 0 8), 2⟩, -- TpdoMapCount (R43)
  ⟨0x1A00, 0x01, 0x08, 7, 4, .rws, 0, .any, 2⟩, -- TpdoMap (R43)
  ⟨0x1A01, 0x00, 0x00, 5, 1, .rws, 0, (.between 0 8), 2⟩, -- TpdoMapCount (R43)
  ⟨0x1A01, 0x01, 0x08, 7, 4, .rws, 0, .any, 2⟩, -- TpdoMap (R43)
  ⟨0x1A02, 0x00, 0x00, 5, 1, .rws, 0, (.between 0 8), 2⟩, -- TpdoMapCount (R43)
  ⟨0x1A02, 0x01, 0x08, 7, 4, .rws, 0, .any, 2⟩, -- TpdoMap (R43)
  ⟨0x1A03, 0x00, 0x00, 5, 1, .rws, 0, (.between 0 8), 2⟩, -- TpdoMapCount (R43)
  ⟨0x1A03, 0x01, 0x08, 7, 4, .rws, 0, .any, 2⟩, -- TpdoMap (R43)
  ⟨0x1F80, 0x00, 0x00, 5, 1, .const, 16, .any, 2⟩, -- HighestSub (R42)
  ⟨0x1F80, 0x01, 0x01, 7, 4, .rw, 0, (.oneOf [0]), 2⟩, -- ViolationsTotal (R42)
  ⟨0x1F80, 0x02, 0x08, 7, 4, .ro, 0, .any, 2⟩, -- ViolationsKind1–Kind7 (R42)
  ⟨0x1F80, 0x09, 0x09, 7, 4, .ro, 0, .any, 2⟩, -- ViolationsCan (R42)
  ⟨0x1F80, 0x0A, 0x0A, 7, 4, .ro, 0, .any, 2⟩, -- ViolationsTunnel (R42)
  ⟨0x1F80, 0x0B, 0x0B, 7, 4, .ro, 0, .any, 2⟩, -- ViolationsServicePort (R42)
  ⟨0x1F80, 0x0C, 0x0C, 7, 4, .ro, 0, .any, 2⟩, -- ViolationsGateway (R42)
  ⟨0x1F80, 0x0D, 0x0D, 6, 2, .ro, 0, .any, 2⟩, -- LastIndex (R42)
  ⟨0x1F80, 0x0E, 0x0E, 5, 1, .ro, 0, .any, 2⟩, -- LastSubindex (R42)
  ⟨0x1F80, 0x0F, 0x0F, 5, 1, .ro, 0, .any, 2⟩, -- LastKind (R42)
  ⟨0x1F80, 0x10, 0x10, 64, 8, .ro, 0, .any, 2⟩, -- LastTime (R42)
  ⟨0x1F90, 0x00, 0x00, 5, 1, .const, 11, .any, 2⟩, -- HighestSub (R53)
  ⟨0x1F90, 0x01, 0x0B, 5, 1, .rws, 2, (.oneOf [1, 2]), 2⟩, -- ProfileVersion (R53)
  ⟨0x1F91, 0x00, 0x00, 5, 1, .const, 9, .any, 0⟩, -- HighestSub (R53)
  ⟨0x1F91, 0x01, 0x09, 5, 1, .ro, 0, .any, 0⟩] -- SupportedVersions (R53)

def identityRows : List ObjRow := identityRows1 ++ identityRows2

def deviceRows : List ObjRow := [
  ⟨0x2000, 0x00, 0x00, 5, 1, .const, 4, .any, 2⟩, -- HighestSub (R32)
  ⟨0x2000, 0x01, 0x01, 5, 1, .ro, 0, .any, 2⟩, -- DeviceState (R32)
  ⟨0x2000, 0x02, 0x02, 5, 1, .wo, 0, (.oneOf [3, 4, 5]), 2⟩, -- StateRequest (R32)
  ⟨0x2000, 0x03, 0x03, 5, 1, .rws, 3, (.oneOf [3, 4]), 2⟩, -- StartState (R32)
  ⟨0x2000, 0x04, 0x04, 1, 1, .ro, 0, .any, 2⟩, -- TransitionBusy (R32)
  ⟨0x2010, 0x00, 0x00, 5, 1, .const, 11, .any, 2⟩, -- HighestSub (R54)
  ⟨0x2010, 0x01, 0x0B, 5, 1, .rw, 0, (.oneOf [0, 1]), 2⟩, -- FunctionMode (R54)
  ⟨0x2011, 0x00, 0x00, 5, 1, .const, 11, .any, 2⟩, -- HighestSub (R54)
  ⟨0x2011, 0x01, 0x0B, 5, 1, .ro, 0, .any, 2⟩, -- FunctionState (R54)
  ⟨0x2020, 0x00, 0x00, 5, 1, .const, 14, .any, 2⟩, -- DomainCount (R20)
  ⟨0x2020, 0x01, 0x04, 5, 1, .const, 1, .any, 2⟩, -- DomainEnablePD0–PD3 (R20)
  ⟨0x2020, 0x05, 0x08, 5, 1, .rws, 1, (.oneOf [0, 1]), 2⟩, -- DomainEnablePD4–PD7 (R20)
  ⟨0x2020, 0x09, 0x09, 5, 1, .rws, 0, (.oneOf [0, 1]), 2⟩, -- DomainEnablePD8 (R20)
  ⟨0x2020, 0x0A, 0x0A, 5, 1, .rws, 1, (.oneOf [0, 1]), 2⟩, -- DomainEnablePD9 (R20)
  ⟨0x2020, 0x0B, 0x0B, 5, 1, .rws, 1, (.oneOf [0, 1]), 2⟩, -- DomainEnablePD10 (R20)
  ⟨0x2020, 0x0C, 0x0C, 5, 1, .rws, 1, (.oneOf [0, 1]), 2⟩, -- DomainEnablePD11 (R20)
  ⟨0x2020, 0x0D, 0x0D, 5, 1, .rws, 1, (.oneOf [0, 1]), 2⟩, -- DomainEnablePD12 (R20)
  ⟨0x2020, 0x0E, 0x0E, 5, 1, .rws, 1, (.oneOf [0, 1]), 2⟩, -- DomainEnablePD13 (R20)
  ⟨0x2021, 0x00, 0x00, 5, 1, .const, 14, .any, 2⟩, -- DomainCount (R20)
  ⟨0x2021, 0x01, 0x02, 5, 1, .ro, 2, .any, 2⟩, -- DomainStatePD0, PD1 (R20): on in Reset too (R19)
  ⟨0x2021, 0x03, 0x0E, 5, 1, .ro, 0, .any, 2⟩] -- DomainStatePD2–PD13 (R20)

def trunkRows : List ObjRow := [
  ⟨0x2100, 0x00, 0x00, 5, 1, .const, 8, .any, 2⟩, -- HighestSub (R86)
  ⟨0x2100, 0x01, 0x01, 1, 1, .rw, 1, (.oneOf [0, 1]), 2⟩, -- TrunkEnable (R86)
  ⟨0x2100, 0x02, 0x02, 5, 1, .rw, 14, (.between 1 0x0E), 2⟩, -- VersionsAllowed (R86)
  ⟨0x2100, 0x03, 0x03, 5, 1, .rw, 7, (.between 0 7), 2⟩, -- ModesAllowed (R86)
  ⟨0x2100, 0x04, 0x04, 1, 1, .rw, 0, (.oneOf [0, 1]), 2⟩, -- SnowploughFirst (R86)
  ⟨0x2100, 0x05, 0x05, 5, 1, .rw, 4, (.oneOf [4, 5]), 2⟩, -- MinLanes (R86)
  ⟨0x2100, 0x06, 0x06, 1, 1, .rw, 0, (.oneOf [0, 1]), 2⟩, -- ScheduleOwner (R86)
  ⟨0x2100, 0x07, 0x07, 6, 2, .rw, 1000, (.between 100 60000), 2⟩, -- RetryInterval (R86)
  ⟨0x2100, 0x08, 0x08, 6, 2, .rw, 160, (.between 20 160), 2⟩, -- LaneSkewLimit (R86)
  ⟨0x2101, 0x00, 0x00, 5, 1, .const, 13, .any, 2⟩, -- HighestSub (R87)
  ⟨0x2101, 0x01, 0x01, 5, 1, .ro, 0, .any, 2⟩, -- TrainState (R87)
  ⟨0x2101, 0x02, 0x02, 5, 1, .ro, 0, .any, 2⟩, -- WaitReason (R87)
  ⟨0x2101, 0x03, 0x03, 5, 1, .ro, 0, .any, 2⟩, -- Version (R87)
  ⟨0x2101, 0x04, 0x04, 5, 1, .ro, 0, .any, 2⟩, -- Mode (R87)
  ⟨0x2101, 0x05, 0x05, 5, 1, .ro, 0, .any, 2⟩, -- LanesInService (R87)
  ⟨0x2101, 0x06, 0x06, 7, 4, .ro, 0, .any, 2⟩, -- PayloadRate (R87)
  ⟨0x2101, 0x07, 0x07, 7, 4, .ro, 0, .any, 2⟩, -- CellTime (R87)
  ⟨0x2101, 0x08, 0x08, 6, 2, .ro, 0, .any, 2⟩, -- CellTimesPerCycle (R87)
  ⟨0x2101, 0x09, 0x09, 64, 8, .ro, 0, .any, 2⟩, -- TrainedSince (R87)
  ⟨0x2101, 0x0A, 0x0A, 7, 4, .ro, 0, .any, 2⟩, -- TrainAttempts (R87)
  ⟨0x2101, 0x0B, 0x0B, 7, 4, .ro, 0, .any, 2⟩, -- TrunkLossCount (R87)
  ⟨0x2101, 0x0C, 0x0C, 7, 4, .ro, 0, .any, 2⟩, -- RemoteSerial (R87)
  ⟨0x2101, 0x0D, 0x0D, 5, 1, .ro, 0, .any, 2⟩, -- RemoteVariant (R87)
  ⟨0x2102, 0x00, 0x00, 10, 64, .ro, 0, .any, 2⟩, -- CapabilityLocal (R87)
  ⟨0x2103, 0x00, 0x00, 10, 64, .ro, 0, .any, 2⟩, -- CapabilityRemote (R87)
  ⟨0x2108, 0x00, 0x00, 5, 1, .const, 14, .any, 2⟩, -- HighestSub (R87)
  ⟨0x2108, 0x01, 0x01, 5, 1, .ro, 0, .any, 2⟩, -- PhysicalLane (R87)
  ⟨0x2108, 0x02, 0x02, 1, 1, .ro, 0, .any, 2⟩, -- PolarityInverted (R87)
  ⟨0x2108, 0x03, 0x03, 5, 1, .ro, 0, .any, 2⟩, -- LaneState (R87)
  ⟨0x2108, 0x04, 0x04, 4, 4, .ro, 0, .any, 2⟩, -- Skew (R87)
  ⟨0x2108, 0x05, 0x05, 27, 8, .ro, 0, .any, 2⟩, -- CodewordsTotal (R87)
  ⟨0x2108, 0x06, 0x06, 27, 8, .ro, 0, .any, 2⟩, -- CodewordsCorrected (R87)
  ⟨0x2108, 0x07, 0x07, 27, 8, .ro, 0, .any, 2⟩, -- SymbolsCorrected (R87)
  ⟨0x2108, 0x08, 0x08, 27, 8, .ro, 0, .any, 2⟩, -- CodewordsUncorrectable (R87)
  ⟨0x2108, 0x09, 0x09, 27, 8, .ro, 0, .any, 2⟩, -- CodewordsRebuilt (R87)
  ⟨0x2108, 0x0A, 0x0A, 27, 8, .ro, 0, .any, 2⟩, -- CodewordsWhileLost (R87)
  ⟨0x2108, 0x0B, 0x0B, 27, 8, .ro, 0, .any, 2⟩, -- SyncHeaderErrors (R87)
  ⟨0x2108, 0x0C, 0x0C, 7, 4, .ro, 0, .any, 2⟩, -- LossCount (R87)
  ⟨0x2108, 0x0D, 0x0D, 64, 8, .ro, 0, .any, 2⟩, -- LastLossTime (R87)
  ⟨0x2108, 0x0E, 0x0E, 64, 8, .ro, 0, .any, 2⟩, -- LastRestoreTime (R87)
  ⟨0x2110, 0x00, 0x00, 5, 1, .const, 8, .any, 2⟩, -- HighestSub (R87)
  ⟨0x2110, 0x01, 0x01, 27, 8, .ro, 0, .any, 2⟩, -- GroupsTotal (R88)
  ⟨0x2110, 0x02, 0x02, 27, 8, .ro, 0, .any, 2⟩, -- GroupsRebuilt (R88)
  ⟨0x2110, 0x03, 0x03, 27, 8, .ro, 0, .any, 2⟩, -- GroupsLpErased (R88)
  ⟨0x2110, 0x04, 0x04, 27, 8, .ro, 0, .any, 2⟩, -- GroupsUncorrectable (R88)
  ⟨0x2110, 0x05, 0x05, 27, 8, .ro, 0, .any, 2⟩, -- ParityMismatches (R88)
  ⟨0x2110, 0x06, 0x06, 27, 8, .ro, 0, .any, 2⟩, -- CellsDiscardedUncorrectable (R88)
  ⟨0x2110, 0x07, 0x07, 27, 8, .ro, 0, .any, 2⟩, -- MarkersMissed (R88)
  ⟨0x2110, 0x08, 0x08, 27, 8, .ro, 0, .any, 2⟩, -- CellsDiscardedTrunkLoss (R88)
  ⟨0x2120, 0x00, 0x00, 5, 1, .const, 6, .any, 2⟩, -- HighestSub (R87)
  ⟨0x2120, 0x01, 0x01, 5, 1, .rw, 0, (.between 0 4), 2⟩, -- LaneSelect (R88)
  ⟨0x2120, 0x02, 0x02, 5, 1, .rw, 12, (.between 0 31), 2⟩, -- RxCtle (R88)
  ⟨0x2120, 0x03, 0x03, 1, 1, .rw, 1, (.oneOf [0, 1]), 2⟩, -- RxDfeEnable (R88)
  ⟨0x2120, 0x04, 0x04, 5, 1, .rw, 0, (.between 0 7), 2⟩, -- RemoteTxPreset (R88)
  ⟨0x2120, 0x05, 0x05, 2, 1, .rw, 0, (.sBetween (-1) 1), 2⟩, -- RemoteTxPreStep (R88)
  ⟨0x2120, 0x06, 0x06, 2, 1, .rw, 0, (.sBetween (-1) 1), 2⟩, -- RemoteTxPostStep (R88)
  ⟨0x2121, 0x00, 0x00, 5, 1, .const, 10, .any, 2⟩, -- HighestSub (R87)
  ⟨0x2121, 0x01, 0x05, 6, 2, .ro, 0, .any, 2⟩, -- EyeHeightL0-LP (R88)
  ⟨0x2121, 0x06, 0x0A, 6, 2, .ro, 0, .any, 2⟩] -- EyeWidthL0-LP (R88)

def fabricRows : List ObjRow := [
  ⟨0x2500, 0x00, 0x00, 5, 1, .const, 11, .any, 2⟩, -- HighestSub (R146)
  ⟨0x2500, 0x01, 0x01, 7, 4, .const, 131072, .any, 2⟩, -- BufferCells (R146)
  ⟨0x2500, 0x02, 0x02, 7, 4, .ro, 0, .any, 2⟩, -- ReservedSum (R146)
  ⟨0x2500, 0x03, 0x03, 7, 4, .ro, 0, .any, 2⟩, -- SharedPool (R146)
  ⟨0x2500, 0x04, 0x04, 7, 4, .ro, 0, .any, 2⟩, -- SharedInUse (R146)
  ⟨0x2500, 0x05, 0x05, 7, 4, .ro, 0, .any, 2⟩, -- CellsInUse (R146)
  ⟨0x2500, 0x06, 0x06, 7, 4, .ro, 0, .any, 2⟩, -- CellsInUsePeak (R146)
  ⟨0x2500, 0x07, 0x07, 27, 8, .ro, 0, .any, 2⟩, -- EccCorrected (R146)
  ⟨0x2500, 0x08, 0x08, 27, 8, .ro, 0, .any, 2⟩, -- EccUncorrectable (R146)
  ⟨0x2500, 0x09, 0x09, 7, 4, .ro, 0, .any, 2⟩, -- SharedExhausted (R146)
  ⟨0x2500, 0x0A, 0x0A, 7, 4, .ro, 0, .any, 2⟩, -- DescriptorsInUse (R146)
  ⟨0x2500, 0x0B, 0x0B, 7, 4, .const, 114688, .any, 2⟩, -- ReservedSumLimit (R146)
  ⟨0x2501, 0x00, 0x00, 5, 1, .const, 10, .any, 2⟩, -- HighestSub (R147)
  ⟨0x2501, 0x01, 0x01, 7, 4, .rw, 300, (.between 10 86400), 2⟩, -- AgeingTime (R147)
  ⟨0x2501, 0x02, 0x02, 5, 1, .rw, 0, (.oneOf [0, 1]), 2⟩, -- UnknownUnicast (R147)
  ⟨0x2501, 0x03, 0x03, 5, 1, .rw, 255, .any, 2⟩, -- FloodPortMask (R147)
  ⟨0x2501, 0x04, 0x04, 5, 1, .rw, 0, (.between 0 15), 2⟩, -- FloodGroup (R147)
  ⟨0x2501, 0x05, 0x05, 1, 1, .rw, 1, (.oneOf [0, 1]), 2⟩, -- LearnFromTunnels (R147)
  ⟨0x2501, 0x06, 0x06, 6, 2, .ro, 0, .any, 2⟩, -- EntriesUsed (R147)
  ⟨0x2501, 0x07, 0x07, 6, 2, .ro, 0, .any, 2⟩, -- EntriesLearnt (R147)
  ⟨0x2501, 0x08, 0x08, 27, 8, .ro, 0, .any, 2⟩, -- LearnRefusedFull (R147)
  ⟨0x2501, 0x09, 0x09, 27, 8, .ro, 0, .any, 2⟩, -- StationMoves (R147)
  ⟨0x2501, 0x0A, 0x0A, 27, 8, .ro, 0, .any, 2⟩, -- UnknownUnicastFrames (R147)
  ⟨0x2502, 0x00, 0x00, 5, 1, .const, 8, .any, 2⟩, -- HighestSub (R147)
  ⟨0x2502, 0x01, 0x01, 6, 2, .rw, 0, (.between 0 16383), 2⟩, -- Slot (R147)
  ⟨0x2502, 0x02, 0x02, 10, 6, .rw, 0, .any, 2⟩, -- MacAddress (R147)
  ⟨0x2502, 0x03, 0x03, 6, 2, .rw, 0, (.between 0 4095), 2⟩, -- VlanId (R147)
  ⟨0x2502, 0x04, 0x04, 5, 1, .rw, 0, .any, 2⟩, -- PortMask (R147)
  ⟨0x2502, 0x05, 0x05, 6, 2, .rw, 0, (.between 0 4095), 2⟩, -- Tunnel (R147)
  ⟨0x2502, 0x06, 0x06, 1, 1, .rw, 1, (.oneOf [0, 1]), 2⟩, -- Static (R147)
  ⟨0x2502, 0x07, 0x07, 7, 4, .ro, 0, .any, 2⟩, -- Age (R147)
  ⟨0x2502, 0x08, 0x08, 1, 1, .ro, 0, .any, 2⟩, -- Valid (R147)
  ⟨0x2510, 0x00, 0x00, 5, 1, .const, 25, .any, 2⟩, -- HighestSub (R148)
  ⟨0x2510, 0x01, 0x08, 7, 4, .rws, 0, (.between 0 16384), 2⟩, -- ReservedTC0–TC7 (R148)
  ⟨0x2510, 0x09, 0x10, 7, 4, .rws, 0, (.between 0 131072), 2⟩, -- MaxTC0–TC7 (R148)
  ⟨0x2510, 0x11, 0x18, 5, 1, .rw, 16, (.between 0 16), 2⟩, -- ProfileTC0–TC7 (R148)
  ⟨0x2510, 0x19, 0x19, 7, 4, .rw, 2000, (.between 100 10000), 2⟩, -- StallBound (R148)
  ⟨0x2510, 0x1A, 0x1A, 7, 4, .rw, 500, (.between 50 5000), 2⟩, -- HoldBound (R148)
  ⟨0x2530, 0x00, 0x00, 5, 1, .const, 23, .any, 2⟩, -- HighestSub (R148)
  ⟨0x2530, 0x01, 0x08, 7, 4, .ro, 0, .any, 2⟩, -- OccupancyTC0–TC7 (R148)
  ⟨0x2530, 0x09, 0x09, 27, 8, .ro, 0, .any, 2⟩, -- CellsIn (R148)
  ⟨0x2530, 0x0A, 0x0A, 27, 8, .ro, 0, .any, 2⟩, -- CellsOut (R148)
  ⟨0x2530, 0x0B, 0x0B, 27, 8, .ro, 0, .any, 2⟩, -- RedDrops (R148)
  ⟨0x2530, 0x0C, 0x0C, 27, 8, .ro, 0, .any, 2⟩, -- RedMarks (R148)
  ⟨0x2530, 0x0D, 0x0D, 27, 8, .ro, 0, .any, 2⟩, -- LimitDrops (R148)
  ⟨0x2530, 0x0E, 0x0E, 27, 8, .ro, 0, .any, 2⟩, -- StallDiscards (R148)
  ⟨0x2530, 0x0F, 0x0F, 7, 4, .ro, 0, .any, 2⟩, -- StallEvents (R148)
  ⟨0x2530, 0x10, 0x10, 27, 8, .ro, 0, .any, 2⟩, -- HoldDiscards (R148)
  ⟨0x2530, 0x11, 0x11, 27, 8, .ro, 0, .any, 2⟩, -- UnknownTunnelCells (R148)
  ⟨0x2530, 0x12, 0x12, 27, 8, .ro, 0, .any, 2⟩, -- NoRouteDiscards (R148)
  ⟨0x2530, 0x13, 0x13, 27, 8, .ro, 0, .any, 2⟩, -- TailBadUnits (R148)
  ⟨0x2530, 0x14, 0x14, 27, 8, .ro, 0, .any, 2⟩, -- Truncations (R148)
  ⟨0x2530, 0x15, 0x15, 27, 8, .ro, 0, .any, 2⟩, -- EccDiscards (R148)
  ⟨0x2530, 0x16, 0x16, 27, 8, .ro, 0, .any, 2⟩, -- IncompleteUnits (R148)
  ⟨0x2530, 0x17, 0x17, 7, 4, .ro, 0, .any, 2⟩, -- PeakOccupancy (R148)
  ⟨0x2550, 0x00, 0x00, 5, 1, .const, 32, .any, 2⟩, -- HighestSub (R147)
  ⟨0x2550, 0x01, 0x20, 6, 2, .rw, 0, .any, 2⟩] -- TunnelId (R147)

def schedRows : List ObjRow := [
  ⟨0x2600, 0x00, 0x00, 5, 1, .const, 6, .any, 2⟩, -- HighestSub (R171)
  ⟨0x2600, 0x01, 0x01, 6, 2, .rw, 64, (.between 0 512), 2⟩, -- Tc7BestEffortLimit (R171)
  ⟨0x2600, 0x02, 0x02, 5, 1, .rw, 9, (.between 8 16), 2⟩, -- CarveHeadroom (R171)
  ⟨0x2600, 0x03, 0x03, 5, 1, .const, 3, .any, 2⟩, -- LatenessBound (R171)
  ⟨0x2600, 0x04, 0x04, 6, 2, .const, 1000, .any, 2⟩, -- EpochLength (R171)
  ⟨0x2600, 0x05, 0x05, 6, 2, .const, 64, .any, 2⟩, -- MinRemainder (R171)
  ⟨0x2600, 0x06, 0x06, 5, 1, .const, 3, .any, 2⟩, -- CorrectionPerCycle (R171)
  ⟨0x2610, 0x00, 0x00, 5, 1, .const, 65, .any, 2⟩, -- HighestSub (R172)
  ⟨0x2610, 0x01, 0x40, 7, 4, .rw, 0, .any, 2⟩, -- GateEntry0–63 (R172)
  ⟨0x2610, 0x41, 0x41, 6, 2, .rw, 80, (.between 8 8000), 2⟩, -- SwitchLead (R172)
  ⟨0x2614, 0x00, 0x00, 5, 1, .const, 64, .any, 2⟩, -- HighestSub (R172)
  ⟨0x2614, 0x01, 0x40, 7, 4, .ro, 0, .any, 2⟩, -- ActiveEntry0–63 (R172)
  ⟨0x2618, 0x00, 0x00, 5, 1, .const, 17, .any, 2⟩, -- HighestSub (R173)
  ⟨0x2618, 0x01, 0x01, 7, 4, .ro, 0, .any, 2⟩, -- VersionActive (R173)
  ⟨0x2618, 0x02, 0x02, 7, 4, .ro, 0, .any, 2⟩, -- VersionNext (R173)
  ⟨0x2618, 0x03, 0x03, 7, 4, .ro, 0, .any, 2⟩, -- VersionFar (R173)
  ⟨0x2618, 0x04, 0x04, 7, 4, .ro, 0, .any, 2⟩, -- SwitchCycle (R173)
  ⟨0x2618, 0x05, 0x05, 7, 4, .ro, 0, .any, 2⟩, -- CycleNumber (R173)
  ⟨0x2618, 0x06, 0x06, 5, 1, .ro, 0, .any, 2⟩, -- Lateness (R173)
  ⟨0x2618, 0x07, 0x07, 4, 4, .ro, 0, .any, 2⟩, -- OffsetToFollow (R173)
  ⟨0x2618, 0x08, 0x08, 27, 8, .ro, 0, .any, 2⟩, -- HerringboneCycles (R173)
  ⟨0x2618, 0x09, 0x09, 27, 8, .ro, 0, .any, 2⟩, -- LateCycles (R173)
  ⟨0x2618, 0x0A, 0x0A, 27, 8, .ro, 0, .any, 2⟩, -- LentCells (R173)
  ⟨0x2618, 0x0B, 0x0B, 6, 2, .ro, 0, .any, 2⟩, -- RemainderCells (R173)
  ⟨0x2618, 0x0C, 0x0C, 6, 2, .ro, 0, .any, 2⟩, -- BestEffortCapacity (R173)
  ⟨0x2618, 0x0D, 0x0D, 6, 2, .ro, 0, .any, 2⟩, -- MinimaSum (R173)
  ⟨0x2618, 0x0E, 0x0E, 5, 1, .ro, 0, .any, 2⟩, -- EntriesCut (R173)
  ⟨0x2618, 0x0F, 0x0F, 1, 1, .ro, 1, .any, 2⟩, -- ScheduleMatch (R173)
  ⟨0x2618, 0x10, 0x10, 27, 8, .ro, 0, .any, 2⟩, -- CarveEpochs (R173)
  ⟨0x2618, 0x11, 0x11, 27, 8, .ro, 0, .any, 2⟩] -- CapacityShortEpochs (R173)

def profileRows : List ObjRow := [
  ⟨0x2700, 0x00, 0x00, 5, 1, .const, 13, .any, 2⟩, -- HighestSub (R146)
  ⟨0x2700, 0x01, 0x01, 5, 1, .rw, 9, (.between 0 15), 2⟩, -- AvgWeight (R146)
  ⟨0x2700, 0x02, 0x02, 7, 4, .rw, 8192, (.between 0 131072), 2⟩, -- GreenMin (R146)
  ⟨0x2700, 0x03, 0x03, 7, 4, .rw, 16384, (.between 1 131072), 2⟩, -- GreenMax (R146)
  ⟨0x2700, 0x04, 0x04, 6, 2, .rw, 6554, (.between 0 65535), 2⟩, -- GreenMaxP (R146)
  ⟨0x2700, 0x05, 0x05, 5, 1, .rw, 0, (.oneOf [0, 1, 2]), 2⟩, -- GreenMode (R146)
  ⟨0x2700, 0x06, 0x06, 7, 4, .rw, 2048, (.between 0 131072), 2⟩, -- YellowMin (R146)
  ⟨0x2700, 0x07, 0x07, 7, 4, .rw, 8192, (.between 1 131072), 2⟩, -- YellowMax (R146)
  ⟨0x2700, 0x08, 0x08, 6, 2, .rw, 32768, (.between 0 65535), 2⟩, -- YellowMaxP (R146)
  ⟨0x2700, 0x09, 0x09, 5, 1, .rw, 0, (.oneOf [0, 1, 2]), 2⟩, -- YellowMode (R146)
  ⟨0x2700, 0x0A, 0x0A, 7, 4, .rw, 0, (.between 0 131072), 2⟩, -- RedMin (R146)
  ⟨0x2700, 0x0B, 0x0B, 7, 4, .rw, 2048, (.between 1 131072), 2⟩, -- RedMax (R146)
  ⟨0x2700, 0x0C, 0x0C, 6, 2, .rw, 65535, (.between 0 65535), 2⟩, -- RedMaxP (R146)
  ⟨0x2700, 0x0D, 0x0D, 5, 1, .rw, 0, (.oneOf [0, 1, 2]), 2⟩] -- RedMode (R146)

def allotRows : List ObjRow := [
  ⟨0x2710, 0x00, 0x00, 5, 1, .const, 14, .any, 2⟩, -- HighestSub (R174)
  ⟨0x2710, 0x01, 0x01, 6, 2, .rw, 16, .any, 2⟩, -- TunnelSelect (R174)
  ⟨0x2710, 0x02, 0x02, 7, 4, .rw, 0, (.between 0 100000), 2⟩, -- Minimum (R174)
  ⟨0x2710, 0x03, 0x03, 7, 4, .rw, 100000, (.between 1 100000), 2⟩, -- Maximum (R174)
  ⟨0x2710, 0x04, 0x04, 5, 1, .rw, 16, (.between 1 255), 2⟩, -- Weight (R174)
  ⟨0x2710, 0x05, 0x05, 7, 4, .rw, 0, (.between 0 100000), 2⟩, -- HostShare (R174)
  ⟨0x2710, 0x06, 0x06, 5, 1, .rw, 8, (.between 1 64), 2⟩, -- BurstLimit (R174)
  ⟨0x2710, 0x07, 0x07, 6, 2, .ro, 0, .any, 2⟩, -- ShareCells (R174)
  ⟨0x2710, 0x08, 0x08, 6, 2, .ro, 0, .any, 2⟩, -- DemandCells (R174)
  ⟨0x2710, 0x09, 0x09, 4, 4, .ro, 0, .any, 2⟩, -- ShaperCredit (R174)
  ⟨0x2710, 0x0A, 0x0A, 7, 4, .ro, 0, .any, 2⟩, -- Rise (R174)
  ⟨0x2710, 0x0B, 0x0B, 6, 2, .ro, 0, .any, 2⟩, -- MinimumCells (R174)
  ⟨0x2710, 0x0C, 0x0C, 6, 2, .ro, 0, .any, 2⟩, -- MaximumCells (R174)
  ⟨0x2710, 0x0D, 0x0D, 7, 4, .ro, 0, .any, 2⟩, -- AtMaximumEpochs (R174)
  ⟨0x2710, 0x0E, 0x0E, 7, 4, .ro, 0, .any, 2⟩] -- BelowMinimumEpochs (R174)

def displayRows1 : List ObjRow := [
  ⟨0x2800, 0x00, 0x00, 5, 1, .const, 24, .any, 2⟩, -- HighestSub (R194)
  ⟨0x2800, 0x01, 0x01, 1, 1, .rw, 0, (.oneOf [0, 1]), 2⟩, -- OutputEnable (R194)
  ⟨0x2800, 0x02, 0x02, 7, 4, .rw, 148500, .any, 2⟩, -- PixelClock (R194)
  ⟨0x2800, 0x03, 0x03, 6, 2, .rw, 1920, (.between 16 3840), 2⟩, -- HActive (R194)
  ⟨0x2800, 0x04, 0x04, 6, 2, .rw, 88, (.between 1 1024), 2⟩, -- HFrontPorch (R194)
  ⟨0x2800, 0x05, 0x05, 6, 2, .rw, 44, (.between 1 1024), 2⟩, -- HSync (R194)
  ⟨0x2800, 0x06, 0x06, 6, 2, .rw, 148, (.between 1 1024), 2⟩, -- HBackPorch (R194)
  ⟨0x2800, 0x07, 0x07, 6, 2, .rw, 1080, (.between 16 2160), 2⟩, -- VActive (R194)
  ⟨0x2800, 0x08, 0x08, 6, 2, .rw, 4, (.between 1 1024), 2⟩, -- VFrontPorch (R194)
  ⟨0x2800, 0x09, 0x09, 6, 2, .rw, 5, (.between 1 64), 2⟩, -- VSync (R194)
  ⟨0x2800, 0x0A, 0x0A, 6, 2, .rw, 36, (.between 1 1024), 2⟩, -- VBackPorch (R194)
  ⟨0x2800, 0x0B, 0x0B, 5, 1, .rw, 3, (.between 0 3), 2⟩, -- SyncPolarity (R194)
  ⟨0x2800, 0x0C, 0x0C, 6, 2, .rw, 1125, .any, 2⟩, -- VTotalMin (R194)
  ⟨0x2800, 0x0D, 0x0D, 6, 2, .rw, 1125, .any, 2⟩, -- VTotalMax (R194)
  ⟨0x2800, 0x0E, 0x0E, 1, 1, .rw, 0, (.oneOf [0, 1]), 2⟩, -- GlideEnable (R194)
  ⟨0x2800, 0x0F, 0x0F, 5, 1, .rw, 8, (.oneOf [6, 8, 10]), 2⟩, -- BitsPerComponent (R194)
  ⟨0x2800, 0x10, 0x10, 5, 1, .rw, 3, (.oneOf [0, 1, 2, 3]), 2⟩, -- DpLinkRateMax (R194)
  ⟨0x2800, 0x11, 0x11, 5, 1, .rw, 4, (.oneOf [1, 2, 4]), 2⟩, -- DpLanesMax (R194)
  ⟨0x2800, 0x12, 0x12, 1, 1, .rw, 1, (.oneOf [0, 1]), 2⟩, -- DpSpreadSpectrum (R194)
  ⟨0x2800, 0x13, 0x13, 5, 1, .rw, 0, (.oneOf [0, 1]), 2⟩, -- LvdsMapping (R194)
  ⟨0x2800, 0x14, 0x14, 1, 1, .rw, 0, (.oneOf [0, 1]), 2⟩, -- LvdsChannelSwap (R194)
  ⟨0x2800, 0x15, 0x15, 7, 4, .rw, 0, (.between 0 0xFFFFFF), 2⟩, -- BackgroundColour (R194)
  ⟨0x2800, 0x16, 0x16, 6, 2, .rw, 12816, .any, 2⟩, -- LayerOrder (R194)
  ⟨0x2800, 0x17, 0x17, 5, 1, .rw, 0, (.oneOf [0, 1]), 2⟩, -- FlipQueueMode (R194)
  ⟨0x2800, 0x18, 0x18, 5, 1, .rw, 1, (.oneOf [0, 1]), 2⟩, -- FlipDamagePolicy (R194)
  ⟨0x2804, 0x00, 0x00, 5, 1, .const, 22, .any, 2⟩, -- HighestSub (R194)
  ⟨0x2804, 0x01, 0x01, 5, 1, .ro, 0, .any, 2⟩, -- OutputState (R194)
  ⟨0x2804, 0x02, 0x02, 5, 1, .ro, 0, .any, 2⟩, -- DownReason (R194)
  ⟨0x2804, 0x03, 0x03, 7, 4, .ro, 0, .any, 2⟩, -- FrameCounter (R194)
  ⟨0x2804, 0x04, 0x04, 64, 8, .ro, 0, .any, 2⟩, -- LastFlipTime (R194)
  ⟨0x2804, 0x05, 0x05, 6, 2, .ro, 0, .any, 2⟩, -- ShownFlip (R194)
  ⟨0x2804, 0x06, 0x06, 6, 2, .ro, 0, .any, 2⟩, -- Lateness (R194)
  ⟨0x2804, 0x07, 0x07, 27, 8, .ro, 0, .any, 2⟩, -- GlideFrames (R194)
  ⟨0x2804, 0x08, 0x08, 27, 8, .ro, 0, .any, 2⟩, -- GlideLines (R194)
  ⟨0x2804, 0x09, 0x09, 27, 8, .ro, 0, .any, 2⟩, -- GlideExpired (R194)
  ⟨0x2804, 0x0A, 0x0A, 27, 8, .ro, 0, .any, 2⟩, -- HerringboneFrames (R194)
  ⟨0x2804, 0x0B, 0x0B, 7, 4, .ro, 0, .any, 2⟩, -- CadenceSlips (R194)
  ⟨0x2804, 0x0C, 0x0C, 27, 8, .ro, 0, .any, 2⟩, -- FlipsShown (R194)
  ⟨0x2804, 0x0D, 0x0D, 27, 8, .ro, 0, .any, 2⟩, -- FlipsSkipped (R194)
  ⟨0x2804, 0x0E, 0x0E, 27, 8, .ro, 0, .any, 2⟩, -- FlipsDropped (R194)
  ⟨0x2804, 0x0F, 0x0F, 27, 8, .ro, 0, .any, 2⟩, -- RectsDiscarded (R194)
  ⟨0x2804, 0x10, 0x10, 5, 1, .ro, 0, .any, 2⟩, -- DpLinkRate (R194)
  ⟨0x2804, 0x11, 0x11, 5, 1, .ro, 0, .any, 2⟩, -- DpLanes (R194)
  ⟨0x2804, 0x12, 0x12, 1, 1, .ro, 0, .any, 2⟩, -- SinkAdaptiveSync (R194)
  ⟨0x2804, 0x13, 0x13, 1, 1, .ro, 0, .any, 2⟩, -- GlideActive (R194)
  ⟨0x2804, 0x14, 0x14, 10, 256, .ro, 0, .any, 2⟩, -- SinkEdid (R194)
  ⟨0x2804, 0x15, 0x15, 27, 8, .ro, 0, .any, 2⟩, -- FlipOverflows (R194)
  ⟨0x2804, 0x16, 0x16, 5, 1, .ro, 0, .any, 2⟩, -- FlipsOutstanding (R194)
  ⟨0x2810, 0x00, 0x00, 5, 1, .const, 7, .any, 2⟩, -- HighestSub (R195)
  ⟨0x2810, 0x01, 0x01, 7, 4, .ro, 0, .any, 2⟩, -- FetchSum (R195)
  ⟨0x2810, 0x02, 0x02, 7, 4, .rw, 8000, (.between 1000 16000), 2⟩, -- DamageWriteLimit (R195)
  ⟨0x2810, 0x03, 0x03, 7, 4, .ro, 16000, .any, 2⟩, -- StagingLimit (R195)
  ⟨0x2810, 0x04, 0x04, 7, 4, .const, 4000, .any, 2⟩, -- DramReserve (R195)
  ⟨0x2810, 0x05, 0x05, 7, 4, .const, 62000, .any, 2⟩, -- DramUsable (R195)
  ⟨0x2810, 0x06, 0x06, 7, 4, .ro, 34000, .any, 2⟩, -- FetchLimit (R195)
  ⟨0x2810, 0x07, 0x07, 7, 4, .ro, 0, .any, 2⟩, -- BudgetRefusals (R195)
  ⟨0x2820, 0x00, 0x00, 5, 1, .const, 9, .any, 2⟩, -- HighestSub (R212)
  ⟨0x2820, 0x01, 0x01, 5, 1, .rw, 0, (.oneOf [0, 1, 2]), 2⟩, -- RegionMode (R212)
  ⟨0x2820, 0x02, 0x02, 6, 2, .rw, 0, (.between 0 3839), 2⟩, -- RegionX (R212)
  ⟨0x2820, 0x03, 0x03, 6, 2, .rw, 0, (.between 0 2159), 2⟩, -- RegionY (R212)
  ⟨0x2820, 0x04, 0x04, 6, 2, .rw, 16, (.between 1 3840), 2⟩, -- RegionWidth (R212)
  ⟨0x2820, 0x05, 0x05, 6, 2, .rw, 16, (.between 1 2160), 2⟩, -- RegionHeight (R212)
  ⟨0x2820, 0x06, 0x06, 7, 4, .rw, 0, .any, 2⟩, -- ExpectedSignature (R212)
  ⟨0x2820, 0x07, 0x07, 7, 4, .rw, 0, .any, 2⟩, -- ExpectedNext (R212)
  ⟨0x2820, 0x08, 0x08, 6, 2, .rw, 0, .any, 2⟩, -- ExpectedFlip (R212)
  ⟨0x2820, 0x09, 0x09, 1, 1, .rw, 0, (.oneOf [0, 1]), 2⟩, -- ExpectedArm (R212)
  ⟨0x2840, 0x00, 0x00, 5, 1, .const, 10, .any, 2⟩, -- HighestSub (R212)
  ⟨0x2840, 0x01, 0x01, 5, 1, .ro, 0, .any, 2⟩, -- RegionState (R212)
  ⟨0x2840, 0x02, 0x02, 7, 4, .ro, 0, .any, 2⟩, -- Signature (R212)
  ⟨0x2840, 0x03, 0x03, 7, 4, .ro, 0, .any, 2⟩, -- SignatureFrame (R212)
  ⟨0x2840, 0x04, 0x04, 5, 1, .ro, 0, .any, 2⟩, -- UnchangedFrames (R212)
  ⟨0x2840, 0x05, 0x05, 5, 1, .ro, 0, .any, 2⟩, -- MismatchRun (R212)
  ⟨0x2840, 0x06, 0x06, 64, 8, .ro, 0, .any, 2⟩, -- LastChangeTime (R212)
  ⟨0x2840, 0x07, 0x07, 1, 1, .ro, 0, .any, 2⟩, -- FaultLatched (R212)
  ⟨0x2840, 0x08, 0x08, 7, 4, .ro, 0, .any, 2⟩, -- FreezeCount (R212)
  ⟨0x2840, 0x09, 0x09, 7, 4, .ro, 0, .any, 2⟩, -- MismatchCount (R212)
  ⟨0x2840, 0x0A, 0x0A, 64, 8, .ro, 0, .any, 2⟩, -- LastFaultTime (R212)
  ⟨0x2860, 0x00, 0x00, 5, 1, .const, 7, .any, 2⟩, -- HighestSub (R213)
  ⟨0x2860, 0x01, 0x01, 5, 1, .rw, 3, (.between 1 3), 2⟩, -- FreezeFrames (R213)
  ⟨0x2860, 0x02, 0x02, 6, 2, .rw, 100, (.between 10 100), 2⟩] -- FreezeTime (R213)

def displayRows2 : List ObjRow := [
  ⟨0x2860, 0x03, 0x03, 5, 1, .rw, 1, (.between 1 3), 2⟩, -- MismatchFrames (R213)
  ⟨0x2860, 0x04, 0x04, 1, 1, .rw, 1, (.oneOf [0, 1]), 2⟩, -- ReceiptEnable (R213)
  ⟨0x2860, 0x05, 0x05, 27, 8, .ro, 0, .any, 2⟩, -- ReceiptsSent (R213)
  ⟨0x2860, 0x06, 0x06, 27, 8, .ro, 0, .any, 2⟩, -- ReceiptsLost (R213)
  ⟨0x2860, 0x07, 0x07, 5, 1, .ro, 0, .any, 2⟩, -- FaultMask (R213)
  ⟨0x2900, 0x00, 0x00, 5, 1, .const, 16, .any, 2⟩, -- HighestSub (R196)
  ⟨0x2900, 0x01, 0x01, 1, 1, .rw, 0, (.oneOf [0, 1]), 2⟩, -- LayerEnable (R196)
  ⟨0x2900, 0x02, 0x02, 5, 1, .rw, 0, (.between 0 3), 2⟩, -- Format (R196)
  ⟨0x2900, 0x03, 0x03, 6, 2, .rw, 1920, (.between 1 3840), 2⟩, -- Width (R196)
  ⟨0x2900, 0x04, 0x04, 6, 2, .rw, 1080, (.between 1 2160), 2⟩, -- Height (R196)
  ⟨0x2900, 0x05, 0x05, 3, 2, .rw, 0, (.sBetween (-4096) 4095), 2⟩, -- PositionX (R196)
  ⟨0x2900, 0x06, 0x06, 3, 2, .rw, 0, (.sBetween (-4096) 4095), 2⟩, -- PositionY (R196)
  ⟨0x2900, 0x07, 0x07, 5, 1, .rw, 255, (.between 0 255), 2⟩, -- GlobalAlpha (R196)
  ⟨0x2900, 0x08, 0x08, 5, 1, .rw, 1, (.oneOf [0, 1]), 2⟩, -- YuvMatrix (R196)
  ⟨0x2900, 0x09, 0x09, 5, 1, .rw, 2, (.between 1 4), 2⟩, -- BufferCount (R196)
  ⟨0x2900, 0x0A, 0x0A, 7, 4, .rw, 7680, (.multiple 64 64 262144), 2⟩, -- Pitch (R196)
  ⟨0x2900, 0x0B, 0x0E, 27, 8, .rw, 0, (.multiple 256 0 0xFFFFFFFFFFFFFFFF), 2⟩, -- BufferBase0–3 (R196)
  ⟨0x2900, 0x0F, 0x0F, 5, 1, .rw, 0, (.between 0 3), 2⟩, -- FrontBuffer (R196)
  ⟨0x2900, 0x10, 0x10, 10, 1024, .rw, 0, .any, 2⟩, -- Palette (R196)
  ⟨0x2910, 0x00, 0x00, 5, 1, .const, 8, .any, 2⟩, -- HighestSub (R196)
  ⟨0x2910, 0x01, 0x01, 5, 1, .ro, 0, .any, 2⟩, -- CurrentFront (R196)
  ⟨0x2910, 0x02, 0x02, 5, 1, .ro, 0, .any, 2⟩, -- BufferOwner (R196)
  ⟨0x2910, 0x03, 0x03, 7, 4, .ro, 0, .any, 2⟩, -- LayerFetch (R196)
  ⟨0x2910, 0x04, 0x04, 27, 8, .ro, 0, .any, 2⟩, -- UnderrunFrames (R196)
  ⟨0x2910, 0x05, 0x05, 27, 8, .ro, 0, .any, 2⟩, -- UnderrunPixels (R196)
  ⟨0x2910, 0x06, 0x06, 64, 8, .ro, 0, .any, 2⟩, -- LastUnderrunTime (R196)
  ⟨0x2910, 0x07, 0x07, 27, 8, .ro, 0, .any, 2⟩, -- RectsWritten (R196)
  ⟨0x2910, 0x08, 0x08, 27, 8, .ro, 0, .any, 2⟩] -- BytesWritten (R196)

def displayRows : List ObjRow := displayRows1 ++ displayRows2

def usbRows1 : List ObjRow := [
  ⟨0x2A00, 0x00, 0x00, 5, 1, .const, 10, .any, 2⟩, -- HighestSub (R236)
  ⟨0x2A00, 0x01, 0x01, 6, 2, .rws, 0, .any, 2⟩, -- UsbVendorId (R236)
  ⟨0x2A00, 0x02, 0x02, 6, 2, .rws, 0, .any, 2⟩, -- UsbProductId (R236)
  ⟨0x2A00, 0x03, 0x03, 6, 2, .rws, 256, .any, 2⟩, -- UsbBcdDevice (R236)
  ⟨0x2A00, 0x04, 0x04, 5, 1, .rws, 0, (.oneOf [0, 1]), 2⟩, -- PowerMode (R236)
  ⟨0x2A00, 0x05, 0x05, 5, 1, .rws, 0, .any, 2⟩, -- DeviceRemovable (R236)
  ⟨0x2A00, 0x06, 0x06, 5, 1, .rw, 15, (.between 10 20), 2⟩, -- PortResetTime (R236)
  ⟨0x2A00, 0x07, 0x07, 6, 2, .rw, 0, (.between 0 1000), 2⟩, -- NakRetryTime (R236)
  ⟨0x2A00, 0x08, 0x08, 5, 1, .rws, 50, (.between 1 255), 2⟩, -- PowerOnToGood (R236)
  ⟨0x2A00, 0x09, 0x09, 5, 1, .const, 8, .any, 2⟩, -- PortCount (R236)
  ⟨0x2A00, 0x0A, 0x0A, 5, 1, .const, 3, .any, 2⟩, -- AsyncAttempts (R236)
  ⟨0x2A01, 0x00, 0x00, 5, 1, .const, 11, .any, 2⟩, -- HighestSub (R236)
  ⟨0x2A01, 0x01, 0x01, 5, 1, .ro, 0, .any, 2⟩, -- HubState (R236)
  ⟨0x2A01, 0x02, 0x02, 5, 1, .ro, 0, .any, 2⟩, -- HubAddress (R236)
  ⟨0x2A01, 0x03, 0x03, 6, 2, .ro, 0, .any, 2⟩, -- SuspendNumber (R236)
  ⟨0x2A01, 0x04, 0x04, 27, 8, .ro, 0, .any, 2⟩, -- RequestsExecuted (R236)
  ⟨0x2A01, 0x05, 0x05, 27, 8, .ro, 0, .any, 2⟩, -- RequestsMalformed (R236)
  ⟨0x2A01, 0x06, 0x06, 27, 8, .ro, 0, .any, 2⟩, -- RequestsLate (R236)
  ⟨0x2A01, 0x07, 0x07, 27, 8, .ro, 0, .any, 2⟩, -- RequestsOutsideWindow (R236)
  ⟨0x2A01, 0x08, 0x08, 27, 8, .ro, 0, .any, 2⟩, -- RequestsQueueFull (R236)
  ⟨0x2A01, 0x09, 0x09, 7, 4, .ro, 0, .any, 2⟩, -- UpstreamResets (R236)
  ⟨0x2A01, 0x0A, 0x0A, 7, 4, .ro, 0, .any, 2⟩, -- ResumesIgnored (R236)
  ⟨0x2A01, 0x0B, 0x0B, 7, 4, .ro, 0, .any, 2⟩, -- RemoteWakesSent (R236)
  ⟨0x2A08, 0x00, 0x00, 5, 1, .const, 14, .any, 2⟩, -- HighestSub (R237)
  ⟨0x2A08, 0x01, 0x01, 5, 1, .ro, 0, .any, 2⟩, -- PortState (R237)
  ⟨0x2A08, 0x02, 0x02, 5, 1, .ro, 0, .any, 2⟩, -- PortSpeed (R237)
  ⟨0x2A08, 0x03, 0x03, 6, 2, .ro, 0, .any, 2⟩, -- PortStatusBits (R237)
  ⟨0x2A08, 0x04, 0x04, 6, 2, .ro, 0, .any, 2⟩, -- PortChangeBits (R237)
  ⟨0x2A08, 0x05, 0x05, 27, 8, .ro, 0, .any, 2⟩, -- Transactions (R237)
  ⟨0x2A08, 0x06, 0x06, 27, 8, .ro, 0, .any, 2⟩, -- TransmissionErrors (R237)
  ⟨0x2A08, 0x07, 0x07, 27, 8, .ro, 0, .any, 2⟩, -- NoResponse (R237)
  ⟨0x2A08, 0x08, 0x08, 27, 8, .ro, 0, .any, 2⟩, -- PeriodicLate (R237)
  ⟨0x2A08, 0x09, 0x09, 27, 8, .ro, 0, .any, 2⟩, -- PeriodicOverBudget (R237)
  ⟨0x2A08, 0x0A, 0x0A, 7, 4, .ro, 0, .any, 2⟩, -- OverCurrents (R237)
  ⟨0x2A08, 0x0B, 0x0B, 7, 4, .ro, 0, .any, 2⟩, -- RemoteWakes (R237)
  ⟨0x2A08, 0x0C, 0x0C, 27, 8, .ro, 0, .any, 2⟩, -- ResetDiscards (R237)
  ⟨0x2A08, 0x0D, 0x0D, 64, 8, .ro, 0, .any, 2⟩, -- LastConnectTime (R237)
  ⟨0x2A08, 0x0E, 0x0E, 5, 1, .const, 0, .any, 2⟩, -- EfuseChannel (R237)
  ⟨0x2A20, 0x00, 0x00, 5, 1, .const, 7, .any, 2⟩, -- HighestSub (R239)
  ⟨0x2A20, 0x01, 0x01, 1, 1, .rw, 1, (.oneOf [0, 1]), 2⟩, -- DeviceEnable (R239)
  ⟨0x2A20, 0x02, 0x02, 5, 1, .rw, 0, (.oneOf [0, 1]), 2⟩, -- MaxSpeed (R239)
  ⟨0x2A20, 0x03, 0x03, 6, 2, .rws, 0, .any, 2⟩, -- DeviceVendorId (R239)
  ⟨0x2A20, 0x04, 0x04, 6, 2, .rws, 0, .any, 2⟩, -- DeviceProductId (R239)
  ⟨0x2A20, 0x05, 0x05, 1, 1, .rw, 0, (.oneOf [0, 1]), 2⟩, -- RemoteWakeCapable (R239)
  ⟨0x2A20, 0x06, 0x06, 1, 1, .rw, 0, (.oneOf [0, 1]), 2⟩, -- AppInterfaceEnable (R239)
  ⟨0x2A20, 0x07, 0x07, 1, 1, .rws, 1, (.oneOf [0, 1]), 2⟩, -- SelfPowered (R239)
  ⟨0x2A21, 0x00, 0x00, 5, 1, .const, 8, .any, 2⟩, -- HighestSub (R239)
  ⟨0x2A21, 0x01, 0x01, 5, 1, .ro, 0, .any, 2⟩, -- DeviceState (R239)
  ⟨0x2A21, 0x02, 0x02, 5, 1, .ro, 0, .any, 2⟩, -- DeviceAddress (R239)
  ⟨0x2A21, 0x03, 0x03, 5, 1, .ro, 0, .any, 2⟩, -- DeviceSpeed (R239)
  ⟨0x2A21, 0x04, 0x04, 7, 4, .ro, 0, .any, 2⟩, -- BusResets (R239)
  ⟨0x2A21, 0x05, 0x05, 27, 8, .ro, 0, .any, 2⟩, -- SetupsReceived (R239)
  ⟨0x2A21, 0x06, 0x06, 7, 4, .ro, 0, .any, 2⟩, -- ControlAbandoned (R239)
  ⟨0x2A21, 0x07, 0x07, 6, 2, .ro, 478, .any, 2⟩, -- GranulesFree (R239)
  ⟨0x2A21, 0x08, 0x08, 64, 8, .ro, 0, .any, 2⟩, -- LastResetTime (R239)
  ⟨0x2A30, 0x00, 0x00, 5, 1, .const, 16, .any, 2⟩, -- HighestSub (R240)
  ⟨0x2A30, 0x01, 0x01, 1, 1, .rw, 0, (.oneOf [0, 1]), 2⟩, -- OutEnable (R240)
  ⟨0x2A30, 0x02, 0x02, 5, 1, .rw, 2, (.oneOf [1, 2, 3]), 2⟩, -- OutType (R240)
  ⟨0x2A30, 0x03, 0x03, 6, 2, .rw, 512, (.between 1 1024), 2⟩, -- OutMaxPacket (R240)
  ⟨0x2A30, 0x04, 0x04, 5, 1, .rw, 2, (.oneOf [1, 2]), 2⟩, -- OutBuffers (R240)
  ⟨0x2A30, 0x05, 0x05, 6, 2, .rw, 0, (.between 0 511), 2⟩, -- OutGranuleStart (R240)
  ⟨0x2A30, 0x06, 0x06, 6, 2, .rw, 0, (.between 0 512), 2⟩, -- OutGranuleCount (R240)
  ⟨0x2A30, 0x07, 0x07, 1, 1, .rw, 0, (.oneOf [0, 1]), 2⟩, -- InEnable (R240)
  ⟨0x2A30, 0x08, 0x08, 5, 1, .rw, 2, (.oneOf [1, 2, 3]), 2⟩, -- InType (R240)
  ⟨0x2A30, 0x09, 0x09, 6, 2, .rw, 512, (.between 1 1024), 2⟩, -- InMaxPacket (R240)
  ⟨0x2A30, 0x0A, 0x0A, 5, 1, .rw, 2, (.oneOf [1, 2]), 2⟩, -- InBuffers (R240)
  ⟨0x2A30, 0x0B, 0x0B, 6, 2, .rw, 0, (.between 0 511), 2⟩, -- InGranuleStart (R240)
  ⟨0x2A30, 0x0C, 0x0C, 6, 2, .rw, 0, (.between 0 512), 2⟩, -- InGranuleCount (R240)
  ⟨0x2A30, 0x0D, 0x0D, 5, 1, .ro, 0, .any, 2⟩, -- OutToggle (R240)
  ⟨0x2A30, 0x0E, 0x0E, 5, 1, .ro, 0, .any, 2⟩, -- InToggle (R240)
  ⟨0x2A30, 0x0F, 0x0F, 1, 1, .ro, 0, .any, 2⟩, -- OutHalted (R240)
  ⟨0x2A30, 0x10, 0x10, 1, 1, .ro, 0, .any, 2⟩, -- InHalted (R240)
  ⟨0x2A60, 0x00, 0x00, 5, 1, .const, 11, .any, 2⟩, -- HighestSub (R238)
  ⟨0x2A60, 0x01, 0x01, 1, 1, .rw, 0, (.oneOf [0, 1]), 2⟩, -- RelayEnable (R238)
  ⟨0x2A60, 0x02, 0x02, 5, 1, .rw, 12, (.oneOf [12, 13]), 2⟩, -- RelayPort (R238)
  ⟨0x2A60, 0x03, 0x03, 27, 8, .rw, 0, (.multiple 4096 0 0xFFFFFFFFFFFFFFFF), 2⟩, -- DownRingBase (R238)
  ⟨0x2A60, 0x04, 0x04, 27, 8, .rw, 0, (.multiple 4096 0 0xFFFFFFFFFFFFFFFF), 2⟩, -- UpRingBase (R238)
  ⟨0x2A60, 0x05, 0x05, 6, 2, .rw, 64, (.oneOf [16, 32, 64, 128, 256, 512, 1024]), 2⟩, -- RingSlots (R238)
  ⟨0x2A60, 0x06, 0x06, 27, 8, .rw, 0, (.multiple 8 0 0xFFFFFFFFFFFFFFFF), 2⟩, -- UpIndexAddress (R238)
  ⟨0x2A60, 0x07, 0x07, 6, 2, .rw, 0, (.between 0 63), 2⟩] -- RelayVector (R238)

def usbRows2 : List ObjRow := [
  ⟨0x2A60, 0x08, 0x08, 27, 8, .ro, 0, .any, 2⟩, -- UnitsDown (R238)
  ⟨0x2A60, 0x09, 0x09, 27, 8, .ro, 0, .any, 2⟩, -- UnitsUp (R238)
  ⟨0x2A60, 0x0A, 0x0A, 27, 8, .ro, 0, .any, 2⟩, -- UnitsRefused (R238)
  ⟨0x2A60, 0x0B, 0x0B, 27, 8, .ro, 0, .any, 2⟩] -- UpRingFullTime (R238)

def usbRows : List ObjRow := usbRows1 ++ usbRows2

def powerRows : List ObjRow := [
  ⟨0x2B00, 0x00, 0x00, 5, 1, .const, 14, .any, 2⟩, -- HighestSub (R257)
  ⟨0x2B00, 0x01, 0x01, 5, 1, .rws, 2, (.oneOf [0, 1, 2]), 2⟩, -- PortRoleMode (R257)
  ⟨0x2B00, 0x02, 0x02, 1, 1, .rw, 1, (.oneOf [0, 1]), 2⟩, -- TrySnk (R257)
  ⟨0x2B00, 0x03, 0x03, 5, 1, .rw, 1, (.oneOf [0, 1, 2]), 2⟩, -- TypeCCurrent (R257)
  ⟨0x2B00, 0x04, 0x04, 1, 1, .rw, 0, (.oneOf [0, 1]), 2⟩, -- SourceUnconstrained (R257)
  ⟨0x2B00, 0x05, 0x05, 6, 2, .rw, 150, (.between 0 300), 2⟩, -- Pdo1Current (R257)
  ⟨0x2B00, 0x06, 0x06, 1, 1, .rw, 0, (.oneOf [0, 1]), 2⟩, -- Pdo2Enable (R257)
  ⟨0x2B00, 0x07, 0x07, 6, 2, .rw, 0, (.between 0 300), 2⟩, -- Pdo2Current (R257)
  ⟨0x2B00, 0x08, 0x08, 1, 1, .rw, 0, (.oneOf [0, 1]), 2⟩, -- Pdo3Enable (R257)
  ⟨0x2B00, 0x09, 0x09, 6, 2, .rw, 0, (.between 0 300), 2⟩, -- Pdo3Current (R257)
  ⟨0x2B00, 0x0A, 0x0A, 6, 2, .rw, 10, (.between 0 300), 2⟩, -- SinkCurrent (R257)
  ⟨0x2B00, 0x0B, 0x0B, 5, 1, .rw, 1, (.oneOf [0, 1, 2]), 2⟩, -- DrSwapPolicy (R257)
  ⟨0x2B00, 0x0C, 0x0C, 5, 1, .rw, 1, (.oneOf [0, 1]), 2⟩, -- VconnSwapPolicy (R257)
  ⟨0x2B00, 0x0D, 0x0D, 1, 1, .rw, 1, (.oneOf [0, 1]), 2⟩, -- AutoUfp (R257)
  ⟨0x2B00, 0x0E, 0x0E, 1, 1, .rw, 1, (.oneOf [0, 1]), 2⟩, -- VconnSource (R257)
  ⟨0x2B01, 0x00, 0x00, 5, 1, .const, 16, .any, 2⟩, -- HighestSub (R258)
  ⟨0x2B01, 0x01, 0x01, 5, 1, .ro, 0, .any, 2⟩, -- TypeCState (R258)
  ⟨0x2B01, 0x02, 0x02, 5, 1, .ro, 0, .any, 2⟩, -- PowerRole (R258)
  ⟨0x2B01, 0x03, 0x03, 5, 1, .ro, 0, .any, 2⟩, -- DataRole (R258)
  ⟨0x2B01, 0x04, 0x04, 1, 1, .ro, 0, .any, 2⟩, -- VconnOn (R258)
  ⟨0x2B01, 0x05, 0x05, 5, 1, .ro, 0, .any, 2⟩, -- Orientation (R258)
  ⟨0x2B01, 0x06, 0x06, 5, 1, .ro, 0, .any, 2⟩, -- PdRevision (R258)
  ⟨0x2B01, 0x07, 0x07, 6, 2, .ro, 0, .any, 2⟩, -- ContractVoltage (R258)
  ⟨0x2B01, 0x08, 0x08, 6, 2, .ro, 0, .any, 2⟩, -- ContractCurrent (R258)
  ⟨0x2B01, 0x09, 0x09, 5, 1, .ro, 0, .any, 2⟩, -- ContractState (R258)
  ⟨0x2B01, 0x0A, 0x0A, 5, 1, .ro, 0, .any, 2⟩, -- PartnerTypeCCurrent (R258)
  ⟨0x2B01, 0x0B, 0x0B, 6, 2, .ro, 0, .any, 2⟩, -- VbusVoltage (R258)
  ⟨0x2B01, 0x0C, 0x0C, 1, 1, .ro, 0, .any, 2⟩, -- PowerRestricted (R258)
  ⟨0x2B01, 0x0D, 0x0D, 7, 4, .ro, 0, .any, 2⟩, -- HardResets (R258)
  ⟨0x2B01, 0x0E, 0x0E, 7, 4, .ro, 0, .any, 2⟩, -- Protections (R258)
  ⟨0x2B01, 0x0F, 0x0F, 7, 4, .ro, 0, .any, 2⟩, -- TransmitFailures (R258)
  ⟨0x2B01, 0x10, 0x10, 64, 8, .ro, 0, .any, 2⟩, -- LastContractTime (R258)
  ⟨0x2B02, 0x00, 0x00, 5, 1, .const, 8, .any, 2⟩, -- HighestSub (R259)
  ⟨0x2B02, 0x01, 0x07, 7, 4, .ro, 0, .any, 2⟩, -- PartnerPdo1–7 (R259)
  ⟨0x2B02, 0x08, 0x08, 5, 1, .ro, 0, .any, 2⟩] -- PartnerPdoCount (R259)

def ethRows : List ObjRow := [
  ⟨0x2C00, 0x00, 0x00, 5, 1, .const, 14, .any, 2⟩, -- HighestSub (R286)
  ⟨0x2C00, 0x01, 0x01, 1, 1, .rw, 1, (.oneOf [0, 1]), 2⟩, -- PortEnable (R286)
  ⟨0x2C00, 0x02, 0x02, 5, 1, .rws, 1, (.oneOf [0, 1, 2, 3]), 2⟩, -- Mode (R286)
  ⟨0x2C00, 0x03, 0x03, 1, 1, .rw, 1, (.oneOf [0, 1]), 2⟩, -- AutoNeg (R286)
  ⟨0x2C00, 0x04, 0x04, 6, 2, .rw, 1522, (.between 1518 9216), 2⟩, -- MaxFrame (R286)
  ⟨0x2C00, 0x05, 0x05, 1, 1, .rw, 0, (.oneOf [0, 1]), 2⟩, -- PauseRx (R286)
  ⟨0x2C00, 0x06, 0x06, 6, 2, .rw, 1, (.between 1 4094), 2⟩, -- PortVlan (R286)
  ⟨0x2C00, 0x07, 0x07, 5, 1, .rw, 0, (.oneOf [0, 1, 2]), 2⟩, -- AcceptFrames (R286)
  ⟨0x2C00, 0x08, 0x08, 5, 1, .rw, 0, (.between 0 7), 2⟩, -- DefaultPcp (R286)
  ⟨0x2C00, 0x09, 0x09, 1, 1, .rw, 0, (.oneOf [0, 1]), 2⟩, -- RecognitionEnable (R286)
  ⟨0x2C00, 0x0A, 0x0A, 5, 1, .rw, 2, .any, 2⟩, -- Tc0PcpMask (R286)
  ⟨0x2C00, 0x0B, 0x0B, 5, 1, .rw, 1, (.between 0 3), 2⟩, -- PtpRole (R286)
  ⟨0x2C00, 0x0C, 0x0C, 4, 4, .rw, 0, (.sBetween (-100000) 100000), 2⟩, -- PtpAsymmetry (R286)
  ⟨0x2C00, 0x0D, 0x0D, 1, 1, .rw, 1, (.oneOf [0, 1]), 2⟩, -- MarkToEcn (R286)
  ⟨0x2C00, 0x0E, 0x0E, 10, 16, .ro, 0, .any, 2⟩, -- PtpReceivedAnnounce (R286)
  ⟨0x2C08, 0x00, 0x00, 5, 1, .const, 15, .any, 2⟩, -- HighestSub (R286)
  ⟨0x2C08, 0x01, 0x01, 5, 1, .ro, 0, .any, 2⟩, -- LinkState (R286)
  ⟨0x2C08, 0x02, 0x02, 6, 2, .ro, 0, .any, 2⟩, -- Speed (R286)
  ⟨0x2C08, 0x03, 0x03, 27, 8, .ro, 0, .any, 2⟩, -- FramesIn (R286)
  ⟨0x2C08, 0x04, 0x04, 27, 8, .ro, 0, .any, 2⟩, -- FramesOut (R286)
  ⟨0x2C08, 0x05, 0x05, 27, 8, .ro, 0, .any, 2⟩, -- FcsErrors (R286)
  ⟨0x2C08, 0x06, 0x06, 27, 8, .ro, 0, .any, 2⟩, -- LengthErrors (R286)
  ⟨0x2C08, 0x07, 0x07, 27, 8, .ro, 0, .any, 2⟩, -- VlanDiscards (R286)
  ⟨0x2C08, 0x08, 0x08, 27, 8, .ro, 0, .any, 2⟩, -- PauseReceived (R286)
  ⟨0x2C08, 0x09, 0x09, 27, 8, .ro, 0, .any, 2⟩, -- GooseFrames (R286)
  ⟨0x2C08, 0x0A, 0x0A, 27, 8, .ro, 0, .any, 2⟩, -- SvFrames (R286)
  ⟨0x2C08, 0x0B, 0x0B, 27, 8, .ro, 0, .any, 2⟩, -- PtpUncorrectedHoldover (R286)
  ⟨0x2C08, 0x0C, 0x0C, 7, 4, .ro, 0, .any, 2⟩, -- MeanLinkDelay (R286)
  ⟨0x2C08, 0x0D, 0x0D, 27, 8, .ro, 0, .any, 2⟩, -- EcnMarked (R286)
  ⟨0x2C08, 0x0E, 0x0E, 7, 4, .ro, 0, .any, 2⟩, -- LinkDowns (R286)
  ⟨0x2C08, 0x0F, 0x0F, 5, 1, .ro, 0, .any, 2⟩, -- PtpPortState (R286)
  ⟨0x2C10, 0x00, 0x00, 5, 1, .const, 8, .any, 2⟩, -- HighestSub (R287)
  ⟨0x2C10, 0x01, 0x01, 5, 1, .rws, 0, (.oneOf [0, 1, 2]), 2⟩, -- PairMode (R287)
  ⟨0x2C10, 0x02, 0x02, 6, 2, .rw, 60, (.between 1 3600), 2⟩, -- NodeForgetTime (R287)
  ⟨0x2C10, 0x03, 0x03, 6, 2, .rw, 2000, (.between 100 10000), 2⟩, -- LifeCheckInterval (R287)
  ⟨0x2C10, 0x04, 0x04, 27, 8, .ro, 0, .any, 2⟩, -- DuplicatesDiscarded (R287)
  ⟨0x2C10, 0x05, 0x05, 27, 8, .ro, 0, .any, 2⟩, -- WrongLan (R287)
  ⟨0x2C10, 0x06, 0x06, 27, 8, .ro, 0, .any, 2⟩, -- UnpairedFrames (R287)
  ⟨0x2C10, 0x07, 0x07, 6, 2, .ro, 0, .any, 2⟩, -- ProxyNodes (R287)
  ⟨0x2C10, 0x08, 0x08, 1, 1, .ro, 0, .any, 2⟩, -- PairDegraded (R287)
  ⟨0x2C18, 0x00, 0x00, 5, 1, .const, 3, .any, 2⟩, -- HighestSub (R287)
  ⟨0x2C18, 0x01, 0x01, 6, 2, .rw, 1, (.between 1 4094), 2⟩, -- VlanSelect (R287)
  ⟨0x2C18, 0x02, 0x02, 5, 1, .rw, 0, .any, 2⟩, -- MemberMask (R287)
  ⟨0x2C18, 0x03, 0x03, 5, 1, .rw, 0, .any, 2⟩] -- UntagMask (R287)

def storageRows : List ObjRow := [
  ⟨0x2D00, 0x00, 0x00, 5, 1, .const, 8, .any, 2⟩, -- HighestSub (R311)
  ⟨0x2D00, 0x01, 0x01, 27, 8, .rws, 0, (.multiple 1048576 0 0xFFFFFFFFFFFFFFFF), 2⟩, -- StagingBase (R311)
  ⟨0x2D00, 0x02, 0x02, 6, 2, .rws, 256, (.between 16 4096), 2⟩, -- StagingSize (R311)
  ⟨0x2D00, 0x03, 0x03, 7, 4, .rw, 16000, (.between 1000 40000), 2⟩, -- StagingLimit (R311)
  ⟨0x2D00, 0x04, 0x04, 7, 4, .rw, 50000, (.between 1000 1000000), 2⟩, -- CompletionTimeout (R311)
  ⟨0x2D00, 0x05, 0x05, 6, 2, .rw, 100, (.between 10 10000), 2⟩, -- PrefetchLife (R311)
  ⟨0x2D00, 0x06, 0x06, 5, 1, .rws, 4, (.between 1 16), 2⟩, -- IoQueuesPerDrive (R311)
  ⟨0x2D00, 0x07, 0x07, 27, 8, .ro, 0, .any, 2⟩, -- CommandsCompleted (R311)
  ⟨0x2D00, 0x08, 0x08, 27, 8, .ro, 0, .any, 2⟩, -- DataTransferErrors (R311)
  ⟨0x2D01, 0x00, 0x00, 5, 1, .const, 13, .any, 2⟩, -- HighestSub (R312)
  ⟨0x2D01, 0x01, 0x01, 1, 1, .rw, 1, (.oneOf [0, 1]), 2⟩, -- PortEnable (R312)
  ⟨0x2D01, 0x02, 0x02, 5, 1, .rws, 0, (.oneOf [0, 1]), 2⟩, -- PortRole (R312)
  ⟨0x2D01, 0x03, 0x03, 5, 1, .rw, 4, (.between 1 4), 2⟩, -- MaxLinkSpeed (R312)
  ⟨0x2D01, 0x04, 0x04, 5, 1, .rw, 4, (.oneOf [1, 2, 4]), 2⟩, -- MaxLinkWidth (R312)
  ⟨0x2D01, 0x05, 0x05, 6, 2, .rws, 256, (.oneOf [128, 256, 512]), 2⟩, -- MaxPayload (R312)
  ⟨0x2D01, 0x06, 0x06, 6, 2, .rws, 0, .any, 2⟩, -- PcieVendorId (R312)
  ⟨0x2D01, 0x07, 0x07, 6, 2, .rws, 0, .any, 2⟩, -- PcieDeviceId (R312)
  ⟨0x2D01, 0x08, 0x08, 5, 1, .rws, 30, (.between 20 36), 2⟩, -- WindowApertureSize (R312)
  ⟨0x2D01, 0x09, 0x09, 1, 1, .rws, 0, (.oneOf [0, 1]), 2⟩, -- WindowAperturePrefetchable (R312)
  ⟨0x2D01, 0x0A, 0x0A, 1, 1, .rws, 0, (.oneOf [0, 1]), 2⟩, -- LockSupport (R312)
  ⟨0x2D01, 0x0B, 0x0B, 1, 1, .rw, 0, (.oneOf [0, 1]), 2⟩, -- EcrcEnable (R312)
  ⟨0x2D01, 0x0C, 0x0C, 27, 8, .rws, 68719476736, .any, 2⟩, -- RootWindowBase (R312)
  ⟨0x2D01, 0x0D, 0x0D, 5, 1, .rws, 32, (.between 20 40), 2⟩, -- RootWindowSize (R312)
  ⟨0x2D03, 0x00, 0x00, 5, 1, .const, 13, .any, 2⟩, -- HighestSub (R312)
  ⟨0x2D03, 0x01, 0x01, 5, 1, .ro, 0, .any, 2⟩, -- LinkState (R312)
  ⟨0x2D03, 0x02, 0x02, 5, 1, .ro, 0, .any, 2⟩, -- LinkSpeed (R312)
  ⟨0x2D03, 0x03, 0x03, 5, 1, .ro, 0, .any, 2⟩, -- LinkWidth (R312)
  ⟨0x2D03, 0x04, 0x04, 5, 1, .ro, 0, .any, 2⟩, -- DriveState (R312)
  ⟨0x2D03, 0x05, 0x05, 27, 8, .ro, 0, .any, 2⟩, -- TlpsIn (R312)
  ⟨0x2D03, 0x06, 0x06, 27, 8, .ro, 0, .any, 2⟩, -- TlpsOut (R312)
  ⟨0x2D03, 0x07, 0x07, 27, 8, .ro, 0, .any, 2⟩, -- Replays (R312)
  ⟨0x2D03, 0x08, 0x08, 27, 8, .ro, 0, .any, 2⟩, -- PoisonedTlps (R312)
  ⟨0x2D03, 0x09, 0x09, 27, 8, .ro, 0, .any, 2⟩, -- UnsupportedRequests (R312)
  ⟨0x2D03, 0x0A, 0x0A, 27, 8, .ro, 0, .any, 2⟩, -- CompletionAborts (R312)
  ⟨0x2D03, 0x0B, 0x0B, 1, 1, .ro, 0, .any, 2⟩, -- PortLocked (R312)
  ⟨0x2D03, 0x0C, 0x0C, 7, 4, .ro, 0, .any, 2⟩, -- LinkDowns (R312)
  ⟨0x2D03, 0x0D, 0x0D, 6, 2, .ro, 0, .any, 2⟩, -- NamespacesActive (R312)
  ⟨0x2D40, 0x00, 0x00, 5, 1, .const, 20, .any, 2⟩, -- HighestSub (R313)
  ⟨0x2D40, 0x01, 0x01, 1, 1, .rw, 0, (.oneOf [0, 1]), 2⟩, -- WindowEnable (R313)
  ⟨0x2D40, 0x02, 0x02, 5, 1, .rw, 12, (.oneOf [12, 13]), 2⟩, -- SourcePort (R313)
  ⟨0x2D40, 0x03, 0x03, 27, 8, .rw, 0, .any, 2⟩, -- LocalBase (R313)
  ⟨0x2D40, 0x04, 0x04, 5, 1, .rw, 12, (.between 12 36), 2⟩, -- WindowSize (R313)
  ⟨0x2D40, 0x05, 0x05, 6, 2, .rw, 0, (.between 16 4095), 2⟩, -- Tunnel (R313)
  ⟨0x2D40, 0x06, 0x06, 27, 8, .rw, 0, .any, 2⟩, -- TargetBase (R313)
  ⟨0x2D40, 0x07, 0x07, 5, 1, .rw, 0, (.between 0 3), 2⟩, -- ByteLanes (R313)
  ⟨0x2D40, 0x08, 0x08, 1, 1, .rw, 0, (.oneOf [0, 1]), 2⟩, -- Prefetchable (R313)
  ⟨0x2D40, 0x09, 0x09, 1, 1, .rw, 0, (.oneOf [0, 1]), 2⟩, -- LockPass (R313)
  ⟨0x2D40, 0x0A, 0x0A, 5, 1, .ro, 0, .any, 2⟩, -- WindowState (R313)
  ⟨0x2D40, 0x0B, 0x0B, 27, 8, .ro, 0, .any, 2⟩, -- Writes (R313)
  ⟨0x2D40, 0x0C, 0x0C, 27, 8, .ro, 0, .any, 2⟩, -- Reads (R313)
  ⟨0x2D40, 0x0D, 0x0D, 27, 8, .ro, 0, .any, 2⟩, -- PrefetchHits (R313)
  ⟨0x2D40, 0x0E, 0x0E, 27, 8, .ro, 0, .any, 2⟩, -- PrefetchDiscards (R313)
  ⟨0x2D40, 0x0F, 0x0F, 27, 8, .ro, 0, .any, 2⟩, -- Splits (R313)
  ⟨0x2D40, 0x10, 0x10, 27, 8, .ro, 0, .any, 2⟩, -- UnitsDamaged (R313)
  ⟨0x2D40, 0x11, 0x11, 27, 8, .ro, 0, .any, 2⟩, -- LateCompletions (R313)
  ⟨0x2D40, 0x12, 0x12, 7, 4, .ro, 0, .any, 2⟩, -- LocksPassed (R313)
  ⟨0x2D40, 0x13, 0x13, 7, 4, .ro, 0, .any, 2⟩, -- LocksRefused (R313)
  ⟨0x2D40, 0x14, 0x14, 64, 8, .ro, 0, .any, 2⟩] -- LastFenceTime (R313)

def fieldRows : List ObjRow := [
  ⟨0x2E00, 0x00, 0x00, 5, 1, .const, 1, .any, 2⟩, -- HighestSub (R334)
  ⟨0x2E00, 0x01, 0x01, 6, 2, .rw, 200, (.between 0 2000), 2⟩, -- C0GatewayLimit (R334)
  ⟨0x2E01, 0x00, 0x00, 5, 1, .const, 6, .any, 2⟩, -- HighestSub (R334)
  ⟨0x2E01, 0x01, 0x01, 1, 1, .rw, 1, (.oneOf [0, 1]), 2⟩, -- PortEnable (R334)
  ⟨0x2E01, 0x02, 0x02, 6, 2, .rws, 250, (.between 125 1000), 2⟩, -- NominalBitRate (R334)
  ⟨0x2E01, 0x03, 0x03, 6, 2, .rws, 875, (.between 500 900), 2⟩, -- NominalSamplePoint (R334)
  ⟨0x2E01, 0x04, 0x04, 6, 2, .rws, 0, .any, 2⟩, -- DataBitRate (R334)
  ⟨0x2E01, 0x05, 0x05, 6, 2, .rws, 750, (.between 500 900), 2⟩, -- DataSamplePoint (R334)
  ⟨0x2E01, 0x06, 0x06, 5, 1, .rw, 0, (.oneOf [0, 1]), 2⟩, -- BusOffRecovery (R334)
  ⟨0x2E03, 0x00, 0x00, 5, 1, .const, 4, .any, 2⟩, -- HighestSub (R27)
  ⟨0x2E03, 0x01, 0x01, 5, 1, .ro, 0, .any, 2⟩, -- BusState (R335)
  ⟨0x2E03, 0x02, 0x02, 27, 8, .ro, 0, .any, 2⟩, -- FramesIn (R335)
  ⟨0x2E03, 0x03, 0x03, 27, 8, .ro, 0, .any, 2⟩, -- FramesFiltered (R335)
  ⟨0x2E03, 0x04, 0x04, 27, 8, .ro, 0, .any, 2⟩, -- TxDiscards (R335)
  ⟨0x2E05, 0x00, 0x00, 5, 1, .const, 32, .any, 2⟩, -- HighestSub (R334)
  ⟨0x2E05, 0x01, 0x20, 27, 8, .rw, 0, .any, 2⟩, -- CanFilter (R334)
  ⟨0x2E08, 0x00, 0x00, 5, 1, .const, 6, .any, 2⟩, -- HighestSub (R27)
  ⟨0x2E08, 0x01, 0x01, 5, 1, .rws, 0, (.between 0 3), 2⟩, -- Mode (R335)
  ⟨0x2E08, 0x02, 0x02, 7, 4, .rw, 115200, (.between 300 3000000), 2⟩, -- Baud (R335)
  ⟨0x2E08, 0x03, 0x03, 5, 1, .rw, 1, (.between 0 15), 2⟩, -- Format (R335)
  ⟨0x2E08, 0x04, 0x04, 5, 1, .rw, 4, (.between 2 255), 2⟩, -- GapChars (R335)
  ⟨0x2E08, 0x05, 0x05, 5, 1, .rw, 1, (.between 0 32), 2⟩, -- TurnaroundBits (R335)
  ⟨0x2E08, 0x06, 0x06, 1, 1, .rw, 0, (.oneOf [0, 1]), 2⟩, -- FlowControl (R335)
  ⟨0x2E40, 0x00, 0x00, 5, 1, .const, 5, .any, 2⟩, -- HighestSub (R27)
  ⟨0x2E40, 0x01, 0x01, 7, 4, .rw, 0, .any, 2⟩, -- Frame (R336)
  ⟨0x2E40, 0x02, 0x02, 5, 1, .rw, 8, (.oneOf [0, 1, 2, 3, 4, 5, 6, 7, 8, 12, 16, 20, 24, 32, 48, 64]), 2⟩, -- Length (R336)
  ⟨0x2E40, 0x03, 0x03, 6, 2, .rw, 0, .any, 2⟩, -- InhibitTime (R336)
  ⟨0x2E40, 0x04, 0x04, 6, 2, .rw, 0, (.between 0 60000), 2⟩, -- CycleTime (R336)
  ⟨0x2E40, 0x05, 0x05, 5, 1, .rw, 0, .any, 2⟩, -- FillByte (R336)
  ⟨0x2E80, 0x00, 0x00, 5, 1, .const, 11, .any, 2⟩, -- HighestSub (R27)
  ⟨0x2E80, 0x01, 0x01, 1, 1, .rw, 0, (.oneOf [0, 1]), 2⟩, -- PublisherEnable (R336)
  ⟨0x2E80, 0x02, 0x02, 10, 6, .rw, 30215169, .any, 2⟩, -- DestMac (R336)
  ⟨0x2E80, 0x03, 0x03, 6, 2, .rw, 0, (.between 0 16383), 2⟩, -- AppId (R336)
  ⟨0x2E80, 0x04, 0x04, 6, 2, .rw, 32768, .any, 2⟩, -- VlanPcp (R336)
  ⟨0x2E80, 0x05, 0x07, 9, 0, .rw, 0, .any, 2⟩, -- GoCbRef, DatSet, GoId (R336)
  ⟨0x2E80, 0x08, 0x08, 7, 4, .rw, 1, .any, 2⟩, -- ConfRev (R336)
  ⟨0x2E80, 0x09, 0x09, 6, 2, .rw, 2, (.between 1 1000), 2⟩, -- MinInterval (R336)
  ⟨0x2E80, 0x0A, 0x0A, 6, 2, .rw, 1000, (.between 1 60000), 2⟩, -- MaxInterval (R336)
  ⟨0x2E80, 0x0B, 0x0B, 10, 32, .rw, 0, .any, 2⟩, -- MemberTypes (R336)
  ⟨0x2E90, 0x00, 0x00, 5, 1, .const, 5, .any, 2⟩, -- HighestSub (R27)
  ⟨0x2E90, 0x01, 0x01, 1, 1, .rw, 0, (.oneOf [0, 1]), 2⟩, -- SubscriptionEnable (R336)
  ⟨0x2E90, 0x02, 0x02, 6, 2, .rw, 0, (.between 0 16383), 2⟩, -- SubAppId (R336)
  ⟨0x2E90, 0x03, 0x03, 10, 6, .rw, 0, .any, 2⟩, -- SubSourceMac (R336)
  ⟨0x2E90, 0x04, 0x04, 7, 4, .rw, 0, .any, 2⟩, -- SubConfRev (R336)
  ⟨0x2E90, 0x05, 0x05, 7, 4, .ro, 0, .any, 2⟩] -- TalExpiries (R336)

def timeRows : List ObjRow := [
  ⟨0x2F00, 0x00, 0x00, 5, 1, .const, 20, .any, 2⟩, -- HighestSub (R288)
  ⟨0x2F00, 0x01, 0x01, 5, 1, .rw, 0, (.between 0 4), 2⟩, -- TimeSource (R288)
  ⟨0x2F00, 0x02, 0x02, 5, 1, .rw, 0, (.between 0 7), 2⟩, -- SourcePort (R288)
  ⟨0x2F00, 0x03, 0x03, 3, 2, .rw, 37, .any, 2⟩, -- TaiUtcOffset (R288)
  ⟨0x2F00, 0x04, 0x04, 2, 1, .rw, 0, (.sBetween (-1) 1), 2⟩, -- LeapPending (R288)
  ⟨0x2F00, 0x05, 0x05, 6, 2, .rw, 50, (.between 1 400), 2⟩, -- MaxSlew (R288)
  ⟨0x2F00, 0x06, 0x06, 7, 4, .rw, 1000000, (.between 1000 1000000000), 2⟩, -- StepThreshold (R288)
  ⟨0x2F00, 0x07, 0x07, 7, 4, .rw, 600, (.between 1 86400), 2⟩, -- HoldoverLimit (R288)
  ⟨0x2F00, 0x08, 0x08, 5, 1, .rws, 0, (.oneOf [0, 1, 2]), 2⟩, -- RefclkFrequency (R288)
  ⟨0x2F00, 0x09, 0x09, 5, 1, .rw, 4, (.between 0 7), 2⟩, -- IrigCode (R288)
  ⟨0x2F00, 0x0A, 0x0A, 1, 1, .rw, 1, (.oneOf [0, 1]), 2⟩, -- IrigC37Extensions (R288)
  ⟨0x2F00, 0x0B, 0x0B, 3, 2, .rw, 0, (.sBetween (-1440) 1440), 2⟩, -- IrigLocalOffset (R288)
  ⟨0x2F00, 0x0C, 0x0C, 1, 1, .rw, 1, (.oneOf [0, 1]), 2⟩, -- PpsOutEnable (R288)
  ⟨0x2F00, 0x0D, 0x0D, 6, 2, .rw, 100, (.between 1 500), 2⟩, -- PpsOutWidth (R288)
  ⟨0x2F00, 0x0E, 0x0E, 5, 1, .rw, 0, (.oneOf [0, 1]), 2⟩, -- PpsInEdge (R288)
  ⟨0x2F00, 0x0F, 0x0F, 7, 4, .rw, 1000, (.between 100 100000), 2⟩, -- PlOffsetLimit (R288)
  ⟨0x2F00, 0x10, 0x10, 5, 1, .rw, 1, (.oneOf [1, 2]), 2⟩, -- PtpStepMode (R288)
  ⟨0x2F00, 0x11, 0x11, 5, 1, .rw, 128, (.between 0 255), 2⟩, -- PtpPriority1 (R288)
  ⟨0x2F00, 0x12, 0x12, 5, 1, .rw, 128, (.between 0 255), 2⟩, -- PtpPriority2 (R288)
  ⟨0x2F00, 0x13, 0x13, 5, 1, .rw, 0, (.between 0 127), 2⟩, -- PtpDomain (R288)
  ⟨0x2F00, 0x14, 0x14, 6, 2, .rw, 100, (.between 10 10000), 2⟩, -- ServoBandwidth (R288)
  ⟨0x2F01, 0x00, 0x00, 5, 1, .const, 11, .any, 2⟩, -- HighestSub (R289)
  ⟨0x2F01, 0x01, 0x01, 5, 1, .ro, 0, .any, 2⟩, -- TimeState (R289)
  ⟨0x2F01, 0x02, 0x02, 64, 8, .ro, 0, .any, 2⟩, -- StationTime (R289)
  ⟨0x2F01, 0x03, 0x03, 1, 1, .ro, 0, .any, 2⟩, -- TimeValid (R289)
  ⟨0x2F01, 0x04, 0x04, 4, 4, .ro, 0, .any, 2⟩, -- Offset (R289)
  ⟨0x2F01, 0x05, 0x05, 4, 4, .ro, 0, .any, 2⟩, -- FrequencyAdjust (R289)
  ⟨0x2F01, 0x06, 0x06, 64, 8, .ro, 0, .any, 2⟩, -- HoldoverSince (R289)
  ⟨0x2F01, 0x07, 0x07, 7, 4, .ro, 0, .any, 2⟩, -- SourceLosses (R289)
  ⟨0x2F01, 0x08, 0x08, 7, 4, .ro, 0, .any, 2⟩, -- Steps (R289)
  ⟨0x2F01, 0x09, 0x09, 7, 4, .ro, 0, .any, 2⟩, -- Sf3Faults (R289)
  ⟨0x2F01, 0x0A, 0x0A, 5, 1, .ro, 0, .any, 2⟩, -- Sf3Cause (R289)
  ⟨0x2F01, 0x0B, 0x0B, 27, 8, .ro, 0, .any, 2⟩, -- IrigErrors (R289)
  ⟨0x2F03, 0x00, 0x00, 5, 1, .const, 3, .any, 2⟩, -- HighestSub (R288)
  ⟨0x2F03, 0x01, 0x01, 64, 8, .rw, 0, .any, 2⟩, -- SetTimeValue (R288)
  ⟨0x2F03, 0x02, 0x02, 4, 4, .rw, 0, (.sBetween (-400000000) 400000000), 2⟩, -- HostFrequency (R288)
  ⟨0x2F03, 0x03, 0x03, 4, 4, .rw, 0, .any, 2⟩, -- HostPhase (R288)
  ⟨0x2F04, 0x00, 0x00, 5, 1, .const, 7, .any, 2⟩, -- HighestSub (R289)
  ⟨0x2F04, 0x01, 0x01, 4, 4, .rw, 0, (.sBetween (-10000) 10000), 2⟩, -- PlAsymmetry (R289)
  ⟨0x2F04, 0x02, 0x02, 4, 4, .ro, 0, .any, 2⟩, -- PlOffset (R289)
  ⟨0x2F04, 0x03, 0x03, 7, 4, .ro, 0, .any, 2⟩, -- PlMeanDelay (R289)
  ⟨0x2F04, 0x04, 0x04, 27, 8, .ro, 0, .any, 2⟩, -- PlSamples (R289)
  ⟨0x2F04, 0x05, 0x05, 27, 8, .ro, 0, .any, 2⟩, -- PlMissedSamples (R289)
  ⟨0x2F04, 0x06, 0x06, 5, 1, .ro, 0, .any, 2⟩, -- PlFarState (R289)
  ⟨0x2F04, 0x07, 0x07, 5, 1, .ro, 0, .any, 2⟩, -- PlHopCount (R289)
  ⟨0x2F10, 0x00, 0x00, 5, 1, .const, 8, .any, 2⟩, -- HighestSub (R290)
  ⟨0x2F10, 0x01, 0x01, 27, 8, .ro, 0, .any, 2⟩, -- EntriesWritten (R290)
  ⟨0x2F10, 0x02, 0x02, 7, 4, .ro, 0, .any, 2⟩, -- NewestIndex (R290)
  ⟨0x2F10, 0x03, 0x03, 7, 4, .ro, 0, .any, 2⟩, -- OldestIndex (R290)
  ⟨0x2F10, 0x04, 0x04, 6, 2, .ro, 0, .any, 2⟩, -- NextSequence (R290)
  ⟨0x2F10, 0x05, 0x05, 1, 1, .rw, 1, (.oneOf [0, 1]), 2⟩, -- PushEnable (R290)
  ⟨0x2F10, 0x06, 0x06, 5, 1, .rw, 1, (.between 0 4), 2⟩, -- PushMinSeverity (R290)
  ⟨0x2F10, 0x07, 0x07, 6, 2, .rw, 256, (.between 0 4096), 2⟩, -- PushBacklog (R290)
  ⟨0x2F10, 0x08, 0x08, 5, 1, .rw, 2, (.between 1 4), 2⟩, -- PushCellsPerCycle (R290)
  ⟨0x2F11, 0x00, 0x00, 5, 1, .const, 3, .any, 2⟩, -- HighestSub (R290)
  ⟨0x2F11, 0x01, 0x01, 7, 4, .rw, 0, .any, 2⟩, -- ReadIndex (R290)
  ⟨0x2F11, 0x02, 0x02, 10, 32, .ro, 0, .any, 2⟩, -- Entry (R290)
  ⟨0x2F11, 0x03, 0x03, 1, 1, .ro, 0, .any, 2⟩, -- EntryValid (R290)
  ⟨0x2F18, 0x00, 0x00, 5, 1, .const, 7, .any, 2⟩, -- HighestSub (R290)
  ⟨0x2F18, 0x01, 0x01, 7, 4, .ro, 0, .any, 2⟩, -- PushedIndex (R290)
  ⟨0x2F18, 0x02, 0x02, 7, 4, .ro, 0, .any, 2⟩, -- AckedIndex (R290)
  ⟨0x2F18, 0x03, 0x03, 27, 8, .ro, 0, .any, 2⟩, -- EntriesSkipped (R290)
  ⟨0x2F18, 0x04, 0x04, 27, 8, .ro, 0, .any, 2⟩, -- RemoteEntries (R290)
  ⟨0x2F18, 0x05, 0x05, 7, 4, .rw, 0, .any, 2⟩, -- RemoteReadIndex (R290)
  ⟨0x2F18, 0x06, 0x06, 10, 32, .ro, 0, .any, 2⟩, -- RemoteEntry (R290)
  ⟨0x2F18, 0x07, 0x07, 27, 8, .ro, 0, .any, 2⟩] -- RemoteOverruns (R290)

def tunnelRows : List ObjRow := [
  ⟨0x3000, 0x00, 0x00, 5, 1, .const, 36, .any, 2⟩, -- HighestSub (R98)
  ⟨0x3000, 0x01, 0x01, 1, 1, .rw, 0, (.oneOf [0, 1]), 2⟩, -- TunnelEnable (R98)
  ⟨0x3000, 0x02, 0x02, 5, 1, .rw, 2, (.oneOf [0, 1, 2, 3, 4, 5, 6]), 2⟩, -- Kind (R98)
  ⟨0x3000, 0x03, 0x03, 5, 1, .rw, 1, (.between 0 7), 2⟩, -- TrafficClass (R98)
  ⟨0x3000, 0x04, 0x04, 5, 1, .rw, 0, (.between 0 3), 2⟩, -- TrunkPort (R98)
  ⟨0x3000, 0x05, 0x05, 1, 1, .rw, 0, (.oneOf [0, 1]), 2⟩, -- TwinTrunk (R98)
  ⟨0x3000, 0x06, 0x06, 5, 1, .rw, 17, (.between 0 19), 2⟩, -- LocalPort (R98)
  ⟨0x3000, 0x07, 0x07, 1, 1, .rw, 0, (.oneOf [0, 1]), 2⟩, -- LocalTwin (R98)
  ⟨0x3000, 0x08, 0x08, 6, 2, .rw, 0, .any, 2⟩, -- LocalEndpoint (R98)
  ⟨0x3000, 0x09, 0x09, 5, 1, .rw, 0, (.between 1 255), 2⟩, -- AdapterVersions (R98)
  ⟨0x3000, 0x0A, 0x0A, 1, 1, .rw, 0, (.oneOf [0, 1]), 3⟩, -- EncryptEnable (R98)
  ⟨0x3000, 0x0B, 0x0B, 5, 1, .rw, 0, (.between 0 127), 3⟩, -- KeySlot (R98)
  ⟨0x3000, 0x0C, 0x0C, 5, 1, .rw, 0, (.between 0 127), 3⟩, -- KeySlotNext (R98)
  ⟨0x3000, 0x0D, 0x0D, 7, 4, .rw, 2000, (.between 100 10000), 2⟩, -- DrainBound (R98)
  ⟨0x3000, 0x10, 0x10, 5, 1, .ro, 0, .any, 2⟩, -- TunnelState (R98)
  ⟨0x3000, 0x11, 0x11, 5, 1, .ro, 0, .any, 2⟩, -- RefuseReason (R98)
  ⟨0x3000, 0x12, 0x12, 5, 1, .ro, 0, .any, 2⟩, -- AdapterVersion (R98)
  ⟨0x3000, 0x13, 0x13, 5, 1, .ro, 0, .any, 2⟩, -- TwinState (R98)
  ⟨0x3000, 0x14, 0x14, 4, 4, .ro, 0, .any, 2⟩, -- TwinSkew (R98)
  ⟨0x3000, 0x15, 0x15, 64, 8, .ro, 0, .any, 2⟩, -- OpenSince (R98)
  ⟨0x3000, 0x16, 0x16, 7, 4, .ro, 0, .any, 2⟩, -- OpenEpochTx (R98)
  ⟨0x3000, 0x17, 0x17, 27, 8, .ro, 0, .any, 2⟩, -- CellsSent (R98)
  ⟨0x3000, 0x18, 0x18, 27, 8, .ro, 0, .any, 2⟩, -- CellsDelivered (R98)
  ⟨0x3000, 0x19, 0x19, 27, 8, .ro, 0, .any, 2⟩, -- CellsLost (R98)
  ⟨0x3000, 0x1A, 0x1A, 27, 8, .ro, 0, .any, 2⟩, -- DuplicatesDiscarded (R98)
  ⟨0x3000, 0x1B, 0x1B, 27, 8, .ro, 0, .any, 2⟩, -- StaleDiscarded (R98)
  ⟨0x3000, 0x1C, 0x1C, 27, 8, .ro, 0, .any, 2⟩, -- AuthFailures (R98)
  ⟨0x3000, 0x1D, 0x1D, 27, 8, .ro, 0, .any, 2⟩, -- DrainDiscards (R98)
  ⟨0x3000, 0x1E, 0x1E, 27, 8, .ro, 0, .any, 2⟩, -- VersionDiscards (R98)
  ⟨0x3000, 0x1F, 0x1F, 27, 8, .ro, 0, .any, 2⟩, -- CellsNotOpen (R98)
  ⟨0x3000, 0x20, 0x20, 27, 8, .ro, 0, .any, 2⟩, -- CreditWaits (R98)
  ⟨0x3000, 0x21, 0x21, 7, 4, .ro, 0, .any, 2⟩, -- PathLosses (R98)
  ⟨0x3000, 0x22, 0x22, 64, 8, .ro, 0, .any, 2⟩, -- LastLossTime (R98)
  ⟨0x3000, 0x23, 0x23, 27, 8, .ro, 0, .any, 2⟩, -- EncryptedCellsSent (R98)
  ⟨0x3000, 0x24, 0x24, 27, 8, .ro, 0, .any, 2⟩] -- ExtendedSequenceTx (R98)

def securityRows : List ObjRow := [
  ⟨0x4000, 0x00, 0x00, 5, 1, .const, 10, .any, 3⟩, -- HighestSub (R358)
  ⟨0x4000, 0x01, 0x01, 5, 1, .ro, 0, .any, 3⟩, -- LifeCycle (R358)
  ⟨0x4000, 0x02, 0x02, 5, 1, .ro, 0, .any, 3⟩, -- RootState (R358)
  ⟨0x4000, 0x03, 0x03, 10, 8, .ro, 0, .any, 3⟩, -- IdentityKeyId (R358)
  ⟨0x4000, 0x04, 0x04, 10, 96, .ro, 0, .any, 3⟩, -- IdentityPublicKey (R358)
  ⟨0x4000, 0x05, 0x05, 10, 48, .ro, 0, .any, 3⟩, -- CustomerKeyHash (R358)
  ⟨0x4000, 0x06, 0x06, 10, 48, .rw, 0, .any, 3⟩, -- CustomerKeyHashNext (R358)
  ⟨0x4000, 0x07, 0x07, 5, 1, .ro, 0, .any, 3⟩, -- TrngState (R358)
  ⟨0x4000, 0x08, 0x08, 5, 1, .ro, 0, .any, 3⟩, -- EngineState (R358)
  ⟨0x4000, 0x09, 0x09, 7, 4, .rw, 86400, (.between 3600 604800), 3⟩, -- SelfTestInterval (R358)
  ⟨0x4000, 0x0A, 0x0A, 5, 1, .ro, 0, .any, 3⟩, -- SlotsValid (R358)
  ⟨0x4002, 0x00, 0x00, 5, 1, .const, 16, .any, 3⟩, -- HighestSub (R359)
  ⟨0x4002, 0x01, 0x01, 5, 1, .rw, 1, (.between 0 127), 0⟩, -- SlotSelect (R359)
  ⟨0x4002, 0x02, 0x02, 1, 1, .ro, 0, .any, 3⟩, -- SlotValid (R359)
  ⟨0x4002, 0x03, 0x03, 5, 1, .rw, 0, (.between 0 4), 3⟩, -- KeyType (R359)
  ⟨0x4002, 0x04, 0x04, 5, 1, .rw, 2, (.oneOf [1, 2, 4, 8, 16, 32]), 3⟩, -- Usage (R359)
  ⟨0x4002, 0x05, 0x05, 5, 1, .rw, 255, .any, 3⟩, -- ParentSlot (R359)
  ⟨0x4002, 0x06, 0x06, 1, 1, .rw, 1, (.oneOf [0, 1]), 3⟩, -- BindParent (R359)
  ⟨0x4002, 0x07, 0x07, 1, 1, .rw, 0, (.oneOf [0, 1]), 3⟩, -- BindLifeCycle (R359)
  ⟨0x4002, 0x08, 0x08, 1, 1, .rw, 1, (.oneOf [0, 1]), 3⟩, -- Persistent (R359)
  ⟨0x4002, 0x09, 0x09, 10, 16, .rw, 0, .any, 3⟩, -- Label (R359)
  ⟨0x4002, 0x0A, 0x0A, 10, 16, .rw, 0, .any, 3⟩, -- Context (R359)
  ⟨0x4002, 0x0B, 0x0B, 10, 96, .rw, 0, .any, 3⟩, -- PeerPublicKey (R359)
  ⟨0x4002, 0x0C, 0x0C, 10, 76, .rw, 0, .any, 3⟩, -- WrappedKey (R359)
  ⟨0x4002, 0x0D, 0x0D, 5, 1, .rw, 0, (.between 0 3), 3⟩, -- MaxRights (R359)
  ⟨0x4002, 0x0E, 0x0E, 10, 8, .ro, 0, .any, 3⟩, -- KeyId (R359)
  ⟨0x4002, 0x0F, 0x0F, 10, 96, .ro, 0, .any, 3⟩, -- PublicKey (R359)
  ⟨0x4002, 0x10, 0x10, 5, 1, .ro, 0, .any, 3⟩, -- Children (R359)
  ⟨0x4008, 0x00, 0x00, 5, 1, .const, 10, .any, 3⟩, -- HighestSub (R360)
  ⟨0x4008, 0x01, 0x09, 5, 1, .rw, 0, (.between 0 3), 3⟩, -- TamperAction0–8 (R360)
  ⟨0x4008, 0x0A, 0x0A, 5, 1, .rw, 4, (.between 0 32), 3⟩, -- TamperFilter (R360)
  ⟨0x4009, 0x00, 0x00, 5, 1, .const, 7, .any, 3⟩, -- HighestSub (R360)
  ⟨0x4009, 0x01, 0x01, 6, 2, .ro, 0, (.between 0 3), 3⟩, -- TamperLatched (R360)
  ⟨0x4009, 0x02, 0x02, 6, 2, .ro, 0, .any, 3⟩, -- SourceActive (R360)
  ⟨0x4009, 0x03, 0x03, 1, 1, .ro, 0, .any, 3⟩, -- TamperLock (R360)
  ⟨0x4009, 0x04, 0x04, 7, 4, .ro, 0, .any, 3⟩, -- TamperEvents (R360)
  ⟨0x4009, 0x05, 0x05, 64, 8, .ro, 0, .any, 3⟩, -- LastTamperTime (R360)
  ⟨0x4009, 0x06, 0x06, 5, 1, .ro, 0, .any, 3⟩, -- LastTamperSource (R360)
  ⟨0x4009, 0x07, 0x07, 1, 1, .ro, 0, .any, 3⟩, -- AonColdStart (R360)
  ⟨0x4010, 0x00, 0x00, 5, 1, .const, 5, .any, 3⟩, -- HighestSub (R361)
  ⟨0x4010, 0x01, 0x01, 10, 32, .rw, 0, .any, 0⟩, -- Nonce (R361)
  ⟨0x4010, 0x02, 0x02, 10, 456, .ro, 0, .any, 3⟩, -- Statement (R361)
  ⟨0x4010, 0x03, 0x03, 64, 8, .ro, 0, .any, 3⟩, -- StatementTime (R361)
  ⟨0x4010, 0x04, 0x04, 7, 4, .ro, 0, .any, 3⟩, -- StatementsSigned (R361)
  ⟨0x4010, 0x05, 0x05, 7, 4, .ro, 0, .any, 3⟩] -- RequestsDiscarded (R361)

def entryRows : List ObjRow := [
  ⟨0x4100, 0x00, 0x00, 5, 1, .const, 7, .any, 2⟩, -- HighestSub (R382)
  ⟨0x4100, 0x01, 0x01, 1, 1, .rw, 1, (.oneOf [0, 1]), 2⟩, -- FeedEnableA (R382)
  ⟨0x4100, 0x02, 0x02, 1, 1, .rw, 1, (.oneOf [0, 1]), 2⟩, -- FeedEnableB (R382)
  ⟨0x4100, 0x03, 0x03, 6, 2, .rw, 8000, (.between 7000 20000), 2⟩, -- FeedUv (R382)
  ⟨0x4100, 0x04, 0x04, 6, 2, .rw, 8600, (.between 7500 30000), 2⟩, -- InletUvOn (R382)
  ⟨0x4100, 0x05, 0x05, 6, 2, .rw, 8200, (.between 7000 29800), 2⟩, -- InletUvOff (R382)
  ⟨0x4100, 0x06, 0x06, 6, 2, .rw, 38000, (.between 30000 39000), 2⟩, -- InletOv (R382)
  ⟨0x4100, 0x07, 0x07, 5, 1, .rw, 30, (.between 0 60), 2⟩, -- ColdStartMargin (R382)
  ⟨0x4101, 0x00, 0x00, 5, 1, .const, 13, .any, 2⟩, -- HighestSub (R382)
  ⟨0x4101, 0x01, 0x01, 5, 1, .ro, 0, .any, 2⟩, -- FeedAState (R382)
  ⟨0x4101, 0x02, 0x02, 5, 1, .ro, 0, .any, 2⟩, -- FeedBState (R382)
  ⟨0x4101, 0x03, 0x03, 6, 2, .ro, 0, .any, 2⟩, -- FeedAVoltage (R382)
  ⟨0x4101, 0x04, 0x04, 6, 2, .ro, 0, .any, 2⟩, -- FeedBVoltage (R382)
  ⟨0x4101, 0x05, 0x05, 6, 2, .ro, 0, .any, 2⟩, -- CommonNodeVoltage (R382)
  ⟨0x4101, 0x06, 0x06, 3, 2, .ro, 0, .any, 2⟩, -- GuardTemperature (R382)
  ⟨0x4101, 0x07, 0x07, 6, 2, .ro, 0, .any, 2⟩, -- HoldUpVoltage (R382)
  ⟨0x4101, 0x08, 0x08, 5, 1, .ro, 0, .any, 2⟩, -- SequenceState (R382)
  ⟨0x4101, 0x09, 0x09, 7, 4, .ro, 0, .any, 2⟩, -- ReverseTurnOffsA (R382)
  ⟨0x4101, 0x0A, 0x0A, 7, 4, .ro, 0, .any, 2⟩, -- ReverseTurnOffsB (R382)
  ⟨0x4101, 0x0B, 0x0B, 7, 4, .ro, 0, .any, 2⟩, -- PowerFailWarnings (R382)
  ⟨0x4101, 0x0C, 0x0C, 7, 4, .ro, 0, .any, 2⟩, -- InputOvCutoffs (R382)
  ⟨0x4101, 0x0D, 0x0D, 6, 2, .ro, 0, .any, 2⟩, -- QueuedEventsLost (R382)
  ⟨0x4110, 0x00, 0x00, 5, 1, .const, 29, .any, 2⟩, -- HighestSub (R383)
  ⟨0x4110, 0x01, 0x01, 6, 2, .rw, 550, (.between 100 20000), 2⟩, -- ContinuousLimit (R383)
  ⟨0x4110, 0x02, 0x02, 6, 2, .rws, 20000, (.between 1000 65000), 2⟩, -- SenseResistor (R383)
  ⟨0x4110, 0x03, 0x03, 6, 2, .rw, 5000, (.between 100 20000), 2⟩, -- RampRate (R383)
  ⟨0x4110, 0x04, 0x04, 6, 2, .rw, 10, (.between 1 1000), 2⟩, -- RampTimeout (R383)
  ⟨0x4110, 0x05, 0x05, 5, 1, .rw, 0, (.oneOf [0, 1]), 2⟩, -- TempSource (R383)
  ⟨0x4110, 0x06, 0x06, 6, 2, .rw, 30000, (.between 500 65000), 2⟩, -- RdsOn (R383)
  ⟨0x4110, 0x07, 0x07, 6, 2, .rw, 600, (.between 10 2000), 2⟩, -- ThermalResistance (R383)
  ⟨0x4110, 0x08, 0x08, 6, 2, .rw, 2000, (.between 10 60000), 2⟩, -- ThermalTau (R383)
  ⟨0x4110, 0x09, 0x09, 5, 1, .rw, 150, (.between 85 175), 2⟩, -- FetTempLimit (R383)
  ⟨0x4110, 0x0A, 0x0A, 5, 1, .rw, 100, (.between 40 165), 2⟩, -- FetTempRestart (R383)
  ⟨0x4110, 0x0B, 0x0B, 5, 1, .rw, 0, (.between 0 7), 2⟩, -- RetryCount (R383)
  ⟨0x4110, 0x0C, 0x0C, 6, 2, .rw, 1000, (.between 100 60000), 2⟩, -- RetryDelay (R383)
  ⟨0x4110, 0x0D, 0x0D, 6, 2, .rw, 60, (.between 1 3600), 2⟩, -- RetryResetTime (R383)
  ⟨0x4110, 0x0E, 0x0E, 6, 2, .const, 1000, .any, 2⟩, -- PointLevel0 (R383)
  ⟨0x4110, 0x0F, 0x15, 6, 2, .rw, 0, (.between 1001 2000), 2⟩, -- PointLevel1–7 (R383)
  ⟨0x4110, 0x16, 0x1D, 7, 4, .rw, 0, (.between 10 10000000), 2⟩, -- PointTime0–7 (R383)
  ⟨0x4120, 0x00, 0x00, 5, 1, .const, 14, .any, 2⟩, -- HighestSub (R384)
  ⟨0x4120, 0x01, 0x01, 5, 1, .ro, 0, .any, 2⟩, -- BreakerState (R384)
  ⟨0x4120, 0x02, 0x02, 6, 2, .ro, 0, .any, 2⟩, -- Current (R384)
  ⟨0x4120, 0x03, 0x03, 6, 2, .ro, 0, .any, 2⟩, -- OutputVoltage (R384)
  ⟨0x4120, 0x04, 0x04, 3, 2, .ro, 0, .any, 2⟩, -- FetTemperature (R384)
  ⟨0x4120, 0x05, 0x05, 3, 2, .ro, 0, .any, 2⟩, -- ModelTemperature (R384)
  ⟨0x4120, 0x06, 0x06, 5, 1, .ro, 0, .any, 2⟩, -- SensorState (R384)
  ⟨0x4120, 0x07, 0x07, 5, 1, .ro, 0, .any, 2⟩, -- RetriesUsed (R384)
  ⟨0x4120, 0x08, 0x08, 7, 4, .ro, 0, .any, 2⟩, -- RetryRemaining (R384)
  ⟨0x4120, 0x09, 0x09, 7, 4, .ro, 0, .any, 2⟩, -- TripCount (R384)
  ⟨0x4120, 0x0A, 0x0A, 5, 1, .ro, 0, .any, 2⟩, -- LastTripCause (R384)
  ⟨0x4120, 0x0B, 0x0B, 5, 1, .ro, 0, .any, 2⟩, -- LastTripPoint (R384)
  ⟨0x4120, 0x0C, 0x0C, 64, 8, .ro, 0, .any, 2⟩, -- LastTripTime (R384)
  ⟨0x4120, 0x0D, 0x0D, 1, 1, .ro, 0, .any, 2⟩, -- RetryStateLost (R384)
  ⟨0x4120, 0x0E, 0x0E, 6, 2, .ro, 0, .any, 2⟩, -- PeakCurrent (R384)
  ⟨0x4130, 0x00, 0x00, 5, 1, .const, 10, .any, 2⟩, -- HighestSub (R385)
  ⟨0x4130, 0x01, 0x07, 6, 2, .ro, 0, .any, 2⟩, -- RailVoltage CORE, TRK, SER, DDRQ, DDRPP, IO18, IO33 (R385)
  ⟨0x4130, 0x08, 0x08, 5, 1, .ro, 0, .any, 2⟩, -- RailGood (R385)
  ⟨0x4130, 0x09, 0x09, 7, 4, .ro, 0, .any, 2⟩, -- RailFaults (R385)
  ⟨0x4130, 0x0A, 0x0A, 5, 1, .ro, 0, .any, 2⟩] -- LastRailFault (R385)

def ageingRows1 : List ObjRow := [
  ⟨0x4200, 0x00, 0x00, 5, 1, .const, 11, .any, 2⟩, -- HighestSub (R434)
  ⟨0x4200, 0x01, 0x01, 6, 2, .rw, 720, (.between 680 850), 2⟩, -- VoltageMin (R434)
  ⟨0x4200, 0x02, 0x02, 6, 2, .rw, 850, (.between 680 850), 2⟩, -- VoltageMax (R434)
  ⟨0x4200, 0x03, 0x03, 6, 2, .rw, 60, (.between 20 200), 2⟩, -- MarginTarget (R434)
  ⟨0x4200, 0x04, 0x04, 6, 2, .rw, 20, (.between 5 100), 2⟩, -- MarginHysteresis (R434)
  ⟨0x4200, 0x05, 0x05, 6, 2, .rw, 30, (.between 10 200), 2⟩, -- MarginFloor (R434)
  ⟨0x4200, 0x06, 0x06, 7, 4, .rw, 600, (.between 60 86400), 2⟩, -- PlanInterval (R434)
  ⟨0x4200, 0x07, 0x07, 5, 1, .rw, 4, (.between 0 31), 2⟩, -- EqCtleMin (R434)
  ⟨0x4200, 0x08, 0x08, 5, 1, .rw, 24, (.between 0 31), 2⟩, -- EqCtleMax (R434)
  ⟨0x4200, 0x09, 0x09, 6, 2, .rw, 40, (.between 10 200), 2⟩, -- EyeTarget (R434)
  ⟨0x4200, 0x0A, 0x0A, 5, 1, .rw, 2, (.between 0 4), 2⟩, -- DramGuardMax (R434)
  ⟨0x4200, 0x0B, 0x0B, 6, 2, .rw, 50, (.between 20 120), 2⟩, -- DramEyeTarget (R434)
  ⟨0x4201, 0x00, 0x00, 5, 1, .const, 9, .any, 2⟩, -- HighestSub (R434)
  ⟨0x4201, 0x01, 0x01, 6, 2, .ro, 750, .any, 2⟩, -- VddCoreInForce (R434)
  ⟨0x4201, 0x02, 0x02, 6, 2, .ro, 0, .any, 2⟩, -- VddCoreProposed (R434)
  ⟨0x4201, 0x03, 0x03, 3, 2, .ro, 0, .any, 2⟩, -- WorstMargin (R434)
  ⟨0x4201, 0x04, 0x04, 5, 1, .ro, 0, .any, 2⟩, -- WorstSentinel (R434)
  ⟨0x4201, 0x05, 0x05, 5, 1, .ro, 0, .any, 2⟩, -- Pinned (R434)
  ⟨0x4201, 0x06, 0x06, 7, 4, .ro, 0, .any, 2⟩, -- PlanSteps (R434)
  ⟨0x4201, 0x07, 0x07, 7, 4, .ro, 0, .any, 2⟩, -- PinnedIntervals (R434)
  ⟨0x4201, 0x08, 0x08, 64, 8, .ro, 0, .any, 2⟩, -- LastPlanTime (R434)
  ⟨0x4201, 0x09, 0x09, 1, 1, .ro, 0, .any, 2⟩, -- ProposalPending (R434)
  ⟨0x4210, 0x00, 0x00, 5, 1, .const, 32, .any, 2⟩, -- HighestSub (R27)
  ⟨0x4210, 0x01, 0x20, 3, 2, .ro, 0, .any, 2⟩, -- SentinelMargin (R435)
  ⟨0x4211, 0x00, 0x00, 5, 1, .const, 33, .any, 2⟩, -- HighestSub (R27)
  ⟨0x4211, 0x01, 0x20, 6, 2, .ro, 0, .any, 2⟩, -- SentinelDegradation (R435)
  ⟨0x4211, 0x21, 0x21, 64, 8, .ro, 0, .any, 2⟩, -- BaselineTime (R435)
  ⟨0x4220, 0x00, 0x00, 5, 1, .const, 11, .any, 2⟩, -- HighestSub (R27)
  ⟨0x4220, 0x01, 0x05, 5, 1, .ro, 0, .any, 2⟩, -- PlannedCtle (R435)
  ⟨0x4220, 0x06, 0x0A, 5, 1, .ro, 0, .any, 2⟩, -- ProposedCtle (R435)
  ⟨0x4220, 0x0B, 0x0B, 5, 1, .ro, 0, .any, 2⟩, -- PinnedLanes (R435)
  ⟨0x4230, 0x00, 0x00, 5, 1, .const, 9, .any, 2⟩, -- HighestSub (R27)
  ⟨0x4230, 0x01, 0x04, 6, 2, .ro, 0, .any, 2⟩, -- DramEyeWidth (R435)
  ⟨0x4230, 0x05, 0x08, 5, 1, .ro, 0, .any, 2⟩, -- GuardCycles (R435)
  ⟨0x4230, 0x09, 0x09, 5, 1, .ro, 0, .any, 2⟩, -- PinnedChannels (R435)
  ⟨0x4300, 0x00, 0x00, 5, 1, .const, 6, .any, 2⟩, -- HighestSub (R436)
  ⟨0x4300, 0x01, 0x01, 6, 2, .rw, 256, (.between 64 1000), 2⟩, -- ScrubDramRate (R436)
  ⟨0x4300, 0x02, 0x02, 6, 2, .rw, 60, (.between 1 600), 2⟩, -- NorErasesPerHour (R436)
  ⟨0x4300, 0x03, 0x03, 7, 4, .rw, 80000, (.between 10000 100000), 2⟩, -- NorEraseLimit (R436)
  ⟨0x4300, 0x04, 0x04, 6, 2, .rw, 1000, (.between 100 60000), 2⟩, -- TelemetryInterval (R436)
  ⟨0x4300, 0x05, 0x05, 7, 4, .rw, 600, (.between 60 86400), 2⟩, -- TelemetryLogInterval (R436)
  ⟨0x4300, 0x06, 0x06, 5, 1, .rw, 105, (.between 85 115), 2⟩, -- ThermalWarning (R436)
  ⟨0x4310, 0x00, 0x00, 5, 1, .const, 9, .any, 2⟩, -- HighestSub (R437)
  ⟨0x4310, 0x01, 0x01, 1, 1, .rw, 1, (.oneOf [0, 1]), 2⟩, -- TaskEnable (R437)
  ⟨0x4310, 0x02, 0x02, 5, 1, .ro, 0, .any, 2⟩, -- TaskState (R437)
  ⟨0x4310, 0x03, 0x03, 6, 2, .ro, 0, .any, 2⟩, -- Position (R437)
  ⟨0x4310, 0x04, 0x04, 27, 8, .ro, 0, .any, 2⟩, -- PassesCompleted (R437)
  ⟨0x4310, 0x05, 0x05, 64, 8, .ro, 0, .any, 2⟩, -- LastPassTime (R437)
  ⟨0x4310, 0x06, 0x06, 7, 4, .ro, 0, .any, 2⟩, -- LastPassDuration (R437)
  ⟨0x4310, 0x07, 0x07, 27, 8, .ro, 0, .any, 2⟩, -- Corrected (R437)
  ⟨0x4310, 0x08, 0x08, 27, 8, .ro, 0, .any, 2⟩, -- Uncorrectable (R437)
  ⟨0x4310, 0x09, 0x09, 7, 4, .ro, 0, .any, 2⟩, -- BehindCount (R437)
  ⟨0x4330, 0x00, 0x00, 5, 1, .const, 12, .any, 2⟩, -- HighestSub (R436)
  ⟨0x4330, 0x01, 0x08, 3, 2, .ro, 0, .any, 2⟩, -- HubTemperature0–7 (R436)
  ⟨0x4330, 0x09, 0x09, 3, 2, .ro, 0, .any, 2⟩, -- TjMax (R436)
  ⟨0x4330, 0x0A, 0x0A, 3, 2, .ro, 0, .any, 2⟩, -- TjPeak (R436)
  ⟨0x4330, 0x0B, 0x0B, 7, 4, .ro, 0, .any, 2⟩, -- PowerEstimate (R436)
  ⟨0x4330, 0x0C, 0x0C, 7, 4, .ro, 0, .any, 2⟩, -- ThermalWarnings (R436)
  ⟨0x4340, 0x00, 0x00, 5, 1, .const, 7, .any, 2⟩, -- HighestSub (R436)
  ⟨0x4340, 0x01, 0x01, 6, 2, .ro, 0, .any, 2⟩, -- BlocksTotal (R436)
  ⟨0x4340, 0x02, 0x02, 6, 2, .ro, 0, .any, 2⟩, -- BlocksRetired (R436)
  ⟨0x4340, 0x03, 0x03, 6, 2, .ro, 0, .any, 2⟩, -- BlocksFree (R436)
  ⟨0x4340, 0x04, 0x04, 7, 4, .ro, 0, .any, 2⟩, -- EraseCountMax (R436)
  ⟨0x4340, 0x05, 0x05, 7, 4, .ro, 0, .any, 2⟩, -- EraseCountMean (R436)
  ⟨0x4340, 0x06, 0x06, 6, 2, .ro, 0, .any, 2⟩, -- ErasesLastHour (R436)
  ⟨0x4340, 0x07, 0x07, 27, 8, .ro, 0, .any, 2⟩, -- DataDropped (R436)
  ⟨0x4400, 0x00, 0x00, 5, 1, .const, 12, .any, 2⟩, -- HighestSub (R433)
  ⟨0x4400, 0x01, 0x01, 5, 1, .rw, 31, (.between 0 31), 3⟩, -- SafetyFaultMask (R433)
  ⟨0x4400, 0x02, 0x02, 5, 1, .ro, 0, .any, 2⟩, -- SfLatched (R433)
  ⟨0x4400, 0x03, 0x03, 5, 1, .ro, 0, .any, 2⟩, -- CommonLatched (R433)
  ⟨0x4400, 0x04, 0x04, 5, 1, .ro, 0, .any, 2⟩, -- SafePulseState (R433)
  ⟨0x4400, 0x05, 0x05, 7, 4, .ro, 0, .any, 2⟩, -- LockstepMismatchesA (R433)
  ⟨0x4400, 0x06, 0x06, 7, 4, .ro, 0, .any, 2⟩, -- LockstepMismatchesB (R433)
  ⟨0x4400, 0x07, 0x07, 7, 4, .ro, 0, .any, 2⟩, -- IslandStops (R433)
  ⟨0x4400, 0x08, 0x08, 7, 4, .ro, 0, .any, 2⟩, -- ShadowCorruptions (R433)
  ⟨0x4400, 0x09, 0x09, 7, 4, .ro, 0, .any, 2⟩, -- Sf4Faults (R433)
  ⟨0x4400, 0x0A, 0x0A, 5, 1, .ro, 0, .any, 2⟩, -- LastSf4Cause (R433)
  ⟨0x4400, 0x0B, 0x0B, 64, 8, .ro, 0, .any, 2⟩, -- LastDangerousTime (R433)
  ⟨0x4400, 0x0C, 0x0C, 6, 2, .ro, 0, .any, 2⟩, -- LastDangerousCode (R433)
  ⟨0x4410, 0x00, 0x00, 5, 1, .const, 35, .any, 3⟩] -- HighestSub (R433)

def ageingRows2 : List ObjRow := [
  ⟨0x4410, 0x01, 0x20, 6, 2, .rw, 0, .any, 3⟩, -- WatchedTunnel0–31 (R433)
  ⟨0x4410, 0x21, 0x21, 5, 1, .rw, 2, (.between 1 8), 3⟩, -- SilenceCycles (R433)
  ⟨0x4410, 0x22, 0x22, 7, 4, .ro, 0, .any, 3⟩, -- SilentEvents (R433)
  ⟨0x4410, 0x23, 0x23, 27, 8, .ro, 0, .any, 3⟩, -- EgressMismatches (R433)
  ⟨0x4420, 0x00, 0x00, 5, 1, .const, 10, .any, 2⟩, -- HighestSub (R433)
  ⟨0x4420, 0x01, 0x02, 27, 8, .ro, 0, .any, 2⟩, -- DramCorrected, DramUncorrectable (R433)
  ⟨0x4420, 0x03, 0x04, 27, 8, .ro, 0, .any, 2⟩, -- SramCorrected, SramUncorrectable (R433)
  ⟨0x4420, 0x05, 0x06, 27, 8, .ro, 0, .any, 2⟩, -- TcmACorrected, TcmAUncorrectable (R433)
  ⟨0x4420, 0x07, 0x08, 27, 8, .ro, 0, .any, 2⟩, -- TcmBCorrected, TcmBUncorrectable (R433)
  ⟨0x4420, 0x09, 0x0A, 27, 8, .ro, 0, .any, 2⟩] -- MramCorrected, MramUncorrectable (R433)

def ageingRows : List ObjRow := ageingRows1 ++ ageingRows2

def appRows : List ObjRow := [
  ⟨0x4500, 0x00, 0x00, 5, 1, .const, 9, .any, 2⟩, -- HighestSub (R403)
  ⟨0x4500, 0x01, 0x01, 1, 1, .rw, 0, (.oneOf [0, 1]), 3⟩, -- AppEnable (R403)
  ⟨0x4500, 0x02, 0x02, 5, 1, .rws, 2, (.between 0 3), 3⟩, -- AppMaxRights (R403)
  ⟨0x4500, 0x03, 0x03, 6, 2, .rws, 512, (.multiple 64 0 1024), 2⟩, -- AppSramSize (R403)
  ⟨0x4500, 0x04, 0x04, 6, 2, .rws, 256, (.multiple 64 0 1024), 2⟩, -- AppMramSize (R403)
  ⟨0x4500, 0x05, 0x05, 27, 8, .rws, 0, (.multiple 0x80000000 0 0xFFFFFFFFFFFFFFFF), 3⟩, -- DramApertureBase (R403)
  ⟨0x4500, 0x06, 0x06, 6, 2, .rw, 1000, (.between 0 2000), 2⟩, -- AppDramLimit (R403)
  ⟨0x4500, 0x07, 0x07, 6, 2, .rw, 0, (.between 0 60000), 2⟩, -- WatchdogTimeout (R403)
  ⟨0x4500, 0x08, 0x08, 6, 2, .rw, 100, (.between 1 1000), 2⟩, -- AppJournalLimit (R403)
  ⟨0x4500, 0x09, 0x09, 1, 1, .rw, 0, (.oneOf [0, 1]), 2⟩, -- ClockStopEnable (R403)
  ⟨0x4501, 0x00, 0x00, 5, 1, .const, 12, .any, 2⟩, -- HighestSub (R403)
  ⟨0x4501, 0x01, 0x01, 5, 1, .ro, 0, .any, 2⟩, -- AppState (R403)
  ⟨0x4501, 0x02, 0x02, 5, 1, .ro, 0, .any, 2⟩, -- RefuseReason (R403)
  ⟨0x4501, 0x03, 0x03, 7, 4, .ro, 0, .any, 2⟩, -- ImageVersion (R403)
  ⟨0x4501, 0x04, 0x04, 64, 8, .ro, 0, .any, 2⟩, -- StartTime (R403)
  ⟨0x4501, 0x05, 0x05, 27, 8, .ro, 0, .any, 2⟩, -- BusErrors (R403)
  ⟨0x4501, 0x06, 0x06, 7, 4, .ro, 0, .any, 2⟩, -- LastBusErrorAddress (R403)
  ⟨0x4501, 0x07, 0x07, 27, 8, .ro, 0, .any, 2⟩, -- GatewayRequests (R403)
  ⟨0x4501, 0x08, 0x08, 7, 4, .ro, 0, .any, 2⟩, -- GatewayOverruns (R403)
  ⟨0x4501, 0x09, 0x09, 27, 8, .ro, 0, .any, 2⟩, -- JournalWrites (R403)
  ⟨0x4501, 0x0A, 0x0A, 27, 8, .ro, 0, .any, 2⟩, -- JournalWritesDropped (R403)
  ⟨0x4501, 0x0B, 0x0B, 7, 4, .ro, 0, .any, 2⟩, -- WatchdogExpiries (R403)
  ⟨0x4501, 0x0C, 0x0C, 7, 4, .ro, 0, .any, 2⟩, -- SpuriousEntries (R403)
  ⟨0x4502, 0x00, 0x00, 5, 1, .const, 6, .any, 2⟩, -- HighestSub (R404)
  ⟨0x4502, 0x01, 0x01, 10, 256, .rw, 0, .any, 2⟩, -- HostToApp (R404)
  ⟨0x4502, 0x02, 0x02, 6, 2, .rw, 0, (.between 0 256), 2⟩, -- HostToAppLength (R404)
  ⟨0x4502, 0x03, 0x03, 10, 256, .ro, 0, .any, 2⟩, -- AppToHost (R404)
  ⟨0x4502, 0x04, 0x04, 6, 2, .ro, 0, .any, 2⟩, -- AppToHostLength (R404)
  ⟨0x4502, 0x05, 0x05, 7, 4, .ro, 0, .any, 2⟩, -- AppToHostSeq (R404)
  ⟨0x4502, 0x06, 0x06, 6, 2, .wo, 0, (.between 384 447), 2⟩, -- Ring (R404)
  ⟨0x4510, 0x00, 0x00, 5, 1, .const, 7, .any, 2⟩, -- HighestSub (R405)
  ⟨0x4510, 0x01, 0x01, 6, 2, .rw, 1, (.between 1 511), 2⟩, -- SourceSelect (R405)
  ⟨0x4510, 0x02, 0x02, 5, 1, .rw, 1, (.oneOf [0, 1, 2]), 2⟩, -- Route (R405)
  ⟨0x4510, 0x03, 0x03, 5, 1, .rw, 0, (.oneOf [0, 1]), 2⟩, -- Class (R405)
  ⟨0x4510, 0x04, 0x04, 5, 1, .rw, 4, (.between 0 7), 2⟩, -- Priority (R405)
  ⟨0x4510, 0x05, 0x05, 1, 1, .ro, 0, .any, 2⟩, -- Pending (R405)
  ⟨0x4510, 0x06, 0x06, 1, 1, .ro, 0, .any, 2⟩, -- Active (R405)
  ⟨0x4510, 0x07, 0x07, 27, 8, .ro, 0, .any, 2⟩] -- Deliveries (R405)

def mapRows : List ObjRow := [
  ⟨0x5000, 0x00, 0x00, 5, 1, .const, 24, .any, 2⟩, -- HighestSub (R27)
  ⟨0x5000, 0x01, 0x01, 1, 1, .rw, 0, (.oneOf [0, 1]), 2⟩, -- Enable (R337)
  ⟨0x5000, 0x02, 0x02, 5, 1, .rw, 0, (.between 0 3), 2⟩, -- SourceKind (R337)
  ⟨0x5000, 0x03, 0x03, 7, 4, .rw, 0, .any, 2⟩, -- SourceSelect (R337)
  ⟨0x5000, 0x04, 0x04, 6, 2, .rw, 0, (.between 0 511), 2⟩, -- BitOffset (R337)
  ⟨0x5000, 0x05, 0x05, 5, 1, .rw, 1, (.between 1 64), 2⟩, -- BitLength (R337)
  ⟨0x5000, 0x06, 0x06, 5, 1, .rw, 0, (.between 0 5), 2⟩, -- SourceFormat (R337)
  ⟨0x5000, 0x07, 0x07, 4, 4, .rw, 65536, .any, 2⟩, -- Gain (R337)
  ⟨0x5000, 0x08, 0x08, 4, 4, .rw, 0, .any, 2⟩, -- Offset (R337)
  ⟨0x5000, 0x09, 0x09, 5, 1, .rw, 0, (.between 0 2), 2⟩, -- RoundMode (R337)
  ⟨0x5000, 0x0A, 0x0A, 4, 4, .rw, 2147483648, .any, 2⟩, -- OutMin (R337)
  ⟨0x5000, 0x0B, 0x0B, 4, 4, .rw, 2147483647, .any, 2⟩, -- OutMax (R337)
  ⟨0x5000, 0x0C, 0x0C, 5, 1, .rw, 0, (.between 0 3), 2⟩, -- DestKind (R337)
  ⟨0x5000, 0x0D, 0x0D, 7, 4, .rw, 0, .any, 2⟩, -- DestSelect (R337)
  ⟨0x5000, 0x0E, 0x0E, 5, 1, .rw, 0, (.between 0 5), 2⟩, -- DestFormat (R337)
  ⟨0x5000, 0x0F, 0x0F, 5, 1, .rw, 1, (.between 1 64), 2⟩, -- DestLength (R337)
  ⟨0x5000, 0x10, 0x10, 5, 1, .rw, 0, (.between 0 3), 2⟩, -- TriggerMode (R337)
  ⟨0x5000, 0x11, 0x11, 7, 4, .rw, 0, .any, 2⟩, -- Deadband (R337)
  ⟨0x5000, 0x12, 0x12, 6, 2, .rw, 100, (.between 1 60000), 2⟩, -- Period (R337)
  ⟨0x5000, 0x13, 0x13, 6, 2, .rw, 0, (.between 0 60000), 2⟩, -- StaleTime (R337)
  ⟨0x5000, 0x14, 0x14, 5, 1, .rw, 0, (.oneOf [0, 1]), 2⟩, -- StaleAction (R337)
  ⟨0x5000, 0x15, 0x15, 4, 4, .rw, 0, .any, 2⟩, -- SubstituteValue (R337)
  ⟨0x5000, 0x16, 0x16, 21, 8, .rw, 0, .any, 2⟩, -- Value (R337)
  ⟨0x5000, 0x17, 0x17, 5, 1, .rw, 2, .any, 2⟩, -- Quality (R337)
  ⟨0x5000, 0x18, 0x18, 64, 8, .ro, 0, .any, 2⟩] -- ValueTime (R337)

def bootRows : List ObjRow := [
  ⟨0x6000, 0x00, 0x00, 5, 1, .const, 21, .any, 2⟩, -- HighestSub (R455)
  ⟨0x6000, 0x01, 0x01, 5, 1, .ro, 0, .any, 2⟩, -- RunningSlot (R455)
  ⟨0x6000, 0x02, 0x02, 7, 4, .ro, 0, .any, 2⟩, -- RunningVersion (R455)
  ⟨0x6000, 0x03, 0x03, 5, 1, .ro, 0, .any, 2⟩, -- RunningSecurityVersion (R455)
  ⟨0x6000, 0x04, 0x04, 5, 1, .ro, 0, .any, 2⟩, -- SlotAState (R455)
  ⟨0x6000, 0x05, 0x05, 7, 4, .ro, 0, .any, 2⟩, -- SlotAVersion (R455)
  ⟨0x6000, 0x06, 0x06, 5, 1, .ro, 0, .any, 2⟩, -- SlotASecurityVersion (R455)
  ⟨0x6000, 0x07, 0x07, 5, 1, .ro, 0, .any, 2⟩, -- SlotBState (R455)
  ⟨0x6000, 0x08, 0x08, 7, 4, .ro, 0, .any, 2⟩, -- SlotBVersion (R455)
  ⟨0x6000, 0x09, 0x09, 5, 1, .ro, 0, .any, 2⟩, -- SlotBSecurityVersion (R455)
  ⟨0x6000, 0x0A, 0x0A, 5, 1, .ro, 0, .any, 2⟩, -- PreferredSlot (R455)
  ⟨0x6000, 0x0B, 0x0B, 5, 1, .ro, 0, .any, 2⟩, -- TrialSlot (R455)
  ⟨0x6000, 0x0C, 0x0C, 5, 1, .ro, 0, .any, 2⟩, -- FailedBoots (R455)
  ⟨0x6000, 0x0D, 0x0D, 5, 1, .ro, 0, .any, 2⟩, -- LastFailCause (R455)
  ⟨0x6000, 0x0E, 0x0E, 5, 1, .ro, 0, .any, 2⟩, -- RollbackCount (R455)
  ⟨0x6000, 0x0F, 0x0F, 5, 1, .ro, 0, .any, 2⟩, -- AppSlotState (R455)
  ⟨0x6000, 0x10, 0x10, 7, 4, .ro, 0, .any, 2⟩, -- AppVersion (R455)
  ⟨0x6000, 0x11, 0x11, 5, 1, .ro, 0, .any, 2⟩, -- AppSecurityFloor (R455)
  ⟨0x6000, 0x12, 0x12, 7, 4, .ro, 0, .any, 2⟩, -- SchemaVersion (R455)
  ⟨0x6000, 0x13, 0x13, 5, 1, .ro, 0, .any, 2⟩, -- ResetCause (R455)
  ⟨0x6000, 0x14, 0x14, 7, 4, .ro, 0, .any, 2⟩, -- BootDuration (R455)
  ⟨0x6000, 0x15, 0x15, 5, 1, .ro, 0, .any, 2⟩, -- LiftCause (R455)
  ⟨0x6001, 0x00, 0x00, 5, 1, .const, 7, .any, 2⟩, -- HighestSub (R456)
  ⟨0x6001, 0x01, 0x01, 5, 1, .ro, 0, .any, 2⟩, -- StagingState (R456)
  ⟨0x6001, 0x02, 0x02, 5, 1, .ro, 0, .any, 2⟩, -- StagedKind (R456)
  ⟨0x6001, 0x03, 0x03, 7, 4, .ro, 0, .any, 2⟩, -- StagedVersion (R456)
  ⟨0x6001, 0x04, 0x04, 5, 1, .ro, 0, .any, 2⟩, -- StagedSecurityVersion (R456)
  ⟨0x6001, 0x05, 0x05, 7, 4, .ro, 0, .any, 2⟩, -- BytesReceived (R456)
  ⟨0x6001, 0x06, 0x06, 5, 1, .ro, 0, .any, 2⟩, -- DfuState (R456)
  ⟨0x6001, 0x07, 0x07, 5, 1, .ro, 0, .any, 2⟩, -- DfuStatus (R456)
  ⟨0x6002, 0x00, 0x00, 5, 1, .const, 5, .any, 2⟩, -- HighestSub (R457)
  ⟨0x6002, 0x01, 0x01, 6, 2, .ro, 0, .any, 2⟩, -- OrphanCount (R457)
  ⟨0x6002, 0x02, 0x02, 6, 2, .rw, 0, (.between 0 1023), 0⟩, -- OrphanSelect (R457)
  ⟨0x6002, 0x03, 0x03, 10, 16, .ro, 0, .any, 2⟩, -- OrphanHeader (R457)
  ⟨0x6002, 0x04, 0x04, 10, 4096, .ro, 0, .any, 2⟩, -- OrphanValue (R457)
  ⟨0x6002, 0x05, 0x05, 7, 4, .ro, 0, .any, 2⟩] -- OrphansDropped (R457)

/-- The chapter's rows that may hold index `i`. -/
def rowsOf (i : Nat) : List ObjRow :=
  if i < 0x2000 then identityRows else
  if i < 0x2100 then deviceRows else
  if i < 0x2500 then trunkRows else
  if i < 0x2600 then fabricRows else
  if i < 0x2700 then schedRows else
  if i < 0x2710 then profileRows else
  if i < 0x2800 then allotRows else
  if i < 0x2A00 then displayRows else
  if i < 0x2B00 then usbRows else
  if i < 0x2C00 then powerRows else
  if i < 0x2D00 then ethRows else
  if i < 0x2E00 then storageRows else
  if i < 0x2F00 then fieldRows else
  if i < 0x3000 then timeRows else
  if i < 0x4000 then tunnelRows else
  if i < 0x4100 then securityRows else
  if i < 0x4200 then entryRows else
  if i < 0x4500 then ageingRows else
  if i < 0x5000 then appRows else
  if i < 0x6000 then mapRows else
  if i < 0x7000 then bootRows else
  []

/-- The arrays of the dictionary: first index, count, stride. -/
def arrays : List (Nat × Nat × Nat) :=
  [(0x2510, 20, 1), (0x2530, 20, 1), (0x2551, 15, 1), (0x2610, 4, 1), (0x2614, 4, 1), (0x2618, 4, 1),
   (0x2700, 16, 1), (0x2800, 4, 1), (0x2804, 4, 1), (0x2820, 32, 1), (0x2840, 32, 1), (0x2860, 4, 1),
   (0x2900, 16, 1), (0x2910, 16, 1), (0x2A08, 8, 1), (0x2A30, 16, 1), (0x2A60, 16, 1), (0x2C00, 8, 1),
   (0x2C08, 8, 1), (0x2C10, 4, 1), (0x2D01, 2, 1), (0x2D03, 2, 1), (0x2D40, 64, 1), (0x2E01, 2, 1),
   (0x2E03, 2, 1), (0x2E05, 2, 1), (0x2E08, 4, 1), (0x2E40, 64, 1), (0x2E80, 16, 1), (0x2E90, 16, 1),
   (0x2F04, 4, 1), (0x2F18, 4, 1), (0x3001, 4095, 1), (0x4110, 10, 1), (0x4120, 10, 1), (0x4220, 4, 1),
   (0x4310, 11, 1), (0x5000, 1024, 1)]

/-- The first index of the array that holds `i`. -/
def arrayBase (i : Nat) : List (Nat × Nat × Nat) → Nat
  | [] => i
  | (b, n, _) :: r =>
    if b ≤ i ∧ i < b + n then (if b = 0x2551 then 0x2550 else if b = 0x3001 then 0x3000 else b) else arrayBase i r

/-- Numbers the hub keeps per selected item or per path lie above 0xFFFF; this gives the dictionary index whose
table row describes them (R174, R282, R287, R359, R405). -/
def plainIndex (i : Nat) : Nat :=
  if i < 0x10000 then i
  else if 0x20000 ≤ i then i % 0x10000
  else if 0x13000 ≤ i then 0x2C18
  else if 0x12000 ≤ i then 0x4002
  else if 0x11000 ≤ i then 0x2710
  else 0x4510

/-- The index under which the tables list `i`. -/
def baseIndex (i : Nat) : Nat :=
  if 0x2100 ≤ i ∧ i < 0x2500 then
    if 8 ≤ i % 0x100 ∧ i % 0x100 ≤ 12 then 0x2108 else 0x2100 + i % 0x100
  else arrayBase i arrays

/-- The row of `index` and `sub` in a list of rows. -/
def findRow (i sub : Nat) : List ObjRow → Option ObjRow
  | [] => none
  | r :: rs => if r.index = i ∧ r.lo ≤ sub ∧ sub ≤ r.hi then some r else findRow i sub rs

/-- The indices that own a command block (R56). -/
def commandOwners : List Nat :=
  [0x1010, 0x1011, 0x2100, 0x2120, 0x2500, 0x2502, 0x2610, 0x2804, 0x2860, 0x2A01, 0x2A08, 0x2A21, 0x2B01,
   0x2C08, 0x2D00, 0x2D03, 0x2D40, 0x2E03, 0x2F00, 0x2F10, 0x3000, 0x4000, 0x4002, 0x4009, 0x4010, 0x4101,
   0x4120, 0x4201, 0x4400, 0x4500, 0x4501, 0x4502, 0x6000, 0x6001, 0x6002]

/-- The command block's rows (R56). -/
def commandRow (i sub level : Nat) : Option ObjRow :=
  if sub = 0xF0 then some ⟨i, sub, sub, 7, 4, .wo, 0, .any, level⟩
  else if sub = 0xF1 then some ⟨i, sub, sub, 5, 1, .wo, 0, .oneOf [1], level⟩
  else if sub = 0xF2 then some ⟨i, sub, sub, 5, 1, .ro, 0, .any, level⟩
  else if sub = 0xF3 then some ⟨i, sub, sub, 7, 4, .ro, 0, .any, level⟩
  else if sub = 0xF4 then some ⟨i, sub, sub, 0x40, 8, .ro, 0, .any, level⟩
  else if sub = 0xF5 then some ⟨i, sub, sub, 6, 2, .ro, 0, .any, level⟩
  else none

/-- The row that describes `index` and `sub`, the numbers above 0xFFFF included. -/
def rowAt (i sub : Nat) : Option ObjRow :=
  if 0xF0 ≤ sub then
    if commandOwners.contains (baseIndex (plainIndex i)) then
      commandRow (baseIndex (plainIndex i)) sub
        (if 0x4000 ≤ plainIndex i ∧ plainIndex i < 0x4100 ∧ plainIndex i ≠ 0x4010 then 3
         else if plainIndex i = 0x4010 then 0 else 2)
    else none
  else findRow (baseIndex (plainIndex i)) sub (rowsOf (baseIndex (plainIndex i)))

/-- An object's key in the store: its index and subindex as one number. -/
def ob (index sub : Nat) : Nat := index * 256 + sub

/-- What the hub keeps per interrupt source under InterruptRoute (R405). -/
def irqIndex (src : Nat) : Nat := 0x10000 + src
/-- What the hub keeps per tunnel under AllotmentWindow (R174). -/
def allotIndex (n : Nat) : Nat := 0x11000 + n
/-- What the hub keeps per key slot under KeySlotWindow (R359). -/
def slotIndex (n : Nat) : Nat := 0x12000 + n
/-- What the hub keeps per VLAN under VlanEntry (R287). -/
def vlanIndex (v : Nat) : Nat := 0x13000 + v
/-- What the hub keeps per path and session slot (R33, R174); `h` is `Path.held`. -/
def heldIndex (h index : Nat) : Nat := 0x20000 + h * 0x10000 + index

/-- The default of Reserved for class `c` of fabric port `p` (R133). -/
def reservedDefault (p c : Nat) : Nat :=
  let row : List Nat :=
    if p ≤ 3 then [128, 512, 256, 512, 128, 1024, 2048, 256]
    else if p ≤ 11 then [128, 512, 0, 0, 0, 256, 0, 0]
    else if p ≤ 13 then [128, 256, 0, 1024, 0, 0, 0, 0]
    else if p = 14 then [0, 0, 0, 0, 0, 0, 4096, 0]
    else if p = 15 then [0, 0, 512, 0, 0, 0, 256, 0]
    else if p = 16 then [0, 0, 128, 0, 0, 64, 0, 64]
    else if p = 17 then [128, 0, 0, 0, 128, 0, 0, 256]
    else if p = 18 then [256, 512, 0, 2048, 0, 0, 0, 0]
    else [64, 64, 64, 64, 64, 64, 64, 64]
  row.getD c 0

/-- The default of Max for class `c` of fabric port `p` (R133). -/
def maxDefault (p c : Nat) : Nat :=
  if reservedDefault p c = 0 then 0
  else if c = 7 then reservedDefault p c
  else if 4 ≤ c then 2 * reservedDefault p c
  else 16384

/-- Routes that the allocation of R406 fixes: 1 pair A, 2 pair B. -/
def fixedRoute (src : Nat) : Option Nat :=
  if src = 1 ∨ src = 2 ∨ src = 12 ∨ src = 17 then some 1
  else if src = 3 ∨ src = 11 ∨ (13 ≤ src ∧ src ≤ 16) ∨ src = 19 ∨ src = 20 then some 2
  else if 384 ≤ src ∧ src ≤ 447 then some 2
  else if 448 ≤ src ∧ src ≤ 511 then some 1
  else none

/-- The kind of system tunnel n, 1 to 4 (R15). -/
def systemKind (n : Nat) : Nat := if n = 2 then 5 else 6

/-- The adapter versions of a tunnel kind (R105). -/
def kindVersions (kind : Nat) : Nat := if kind = 0 ∨ kind = 1 ∨ kind = 4 then 0x06 else 0x02

/-- The version of the gate table of Reset, one remainder entry 0x0300_0000 (R153): CRC-32C of its four bytes. -/
def resetGateVersion : Nat := 0x5B37B833

/-- The Label of slot 1's recipe, "QH7 enrol" padded with zeros, first character lowest (R349). -/
def enrolLabel : Nat := 0x6C6F726E6520374851

/-- Defaults that depend on the variant, the role or the place in an array. -/
def specialDefault (p : Part) (head : Bool) (i sub : Nat) : Option Nat :=
  if i < 0x2000 then
    if i = 0x1000 then some (if p.qh34 then 0x00340000 else 0x00180000)
    else if i = 0x1018 ∧ sub = 2 then some (if p.qh34 then 0x00070034 else 0x00070018)
    else if i = 0x1018 ∧ sub = 3 then some p.revision
    else if i = 0x1018 ∧ sub = 4 then some p.serial
    else if i = 0x1019 ∧ sub = 1 then some (ofBool head)
    else if i = 0x1019 ∧ sub = 2 then some (if p.qh34 then 34 else 18)
    else if i = 0x1F91 then
      if sub = 1 then some 0x0E else if 2 ≤ sub ∧ sub ≤ 8 then some (kindVersions (sub - 2))
      else if sub = 9 then some 0x06 else none
    else none
  else if i < 0x2500 then
    if i = 0x2020 ∧ (sub = 7 ∨ sub = 8) then some (ofBool p.qh34)
    else if i = 0x2020 ∧ sub = 9 then some (ofBool (!head))
    else if 0x2100 ≤ i ∧ i % 0x100 = 0 ∧ sub = 6 then some (ofBool head)
    else none
  else if i < 0x2800 then
    if i = 0x2500 ∧ sub = 2 then some (if p.qh34 then 38400 else 23680)
    else if i = 0x2500 ∧ sub = 3 then some (if p.qh34 then 92672 else 107392)
    else if i = 0x2501 ∧ sub = 3 then some (if p.qh34 then 0xFF else 0x0F)
    else if 0x2510 ≤ i ∧ i < 0x2524 then
      let q := i - 0x2510
      if sub = 0 then some (if q ≤ 3 then 0x1A else 0x19)
      else if 1 ≤ sub ∧ sub ≤ 16 ∧ !p.hasFabricPort q then some 0
      else if 1 ≤ sub ∧ sub ≤ 8 then some (reservedDefault q (sub - 1))
      else if 9 ≤ sub ∧ sub ≤ 16 then some (maxDefault q (sub - 9))
      else if 17 ≤ sub ∧ sub ≤ 24 then some (if sub - 17 ≤ 3 ∧ maxDefault q (sub - 17) ≠ 0 then 0 else 16)
      else none
    else if 0x2610 ≤ i ∧ i < 0x2618 ∧ sub = 1 then some 0x03000000
    else if 0x2618 ≤ i ∧ i < 0x261C ∧ (sub = 1 ∨ sub = 2) then some resetGateVersion
    else none
  else if i < 0x3000 then
    if 0x2800 ≤ i ∧ i < 0x2804 then
      if sub = 1 then some (ofBool (!head))
      else if (i = 0x2800 ∨ i = 0x2801) ∧ (sub = 0x13 ∨ sub = 0x14) then some 0
      else if (i = 0x2802 ∨ i = 0x2803) ∧ 0x10 ≤ sub ∧ sub ≤ 0x12 then some 0
      else none
    else if i = 0x2A00 ∧ sub = 9 then some (if p.qh34 then 8 else 4)
    else if 0x2A08 ≤ i ∧ i < 0x2A10 ∧ sub = 0x0E then some (i - 0x2A08)
    else if i = 0x2A30 then
      if sub = 1 ∨ sub = 7 then some 1
      else if sub = 2 ∨ sub = 8 then some 0
      else if sub = 3 ∨ sub = 9 then some 64
      else if sub = 4 ∨ sub = 10 then some 1
      else if sub = 5 then some 0
      else if sub = 11 then some 1
      else if sub = 6 ∨ sub = 12 then some 1
      else none
    else if i = 0x2A31 then
      if sub = 1 ∨ sub = 7 then some 1
      else if sub = 5 then some 2
      else if sub = 11 then some 18
      else if sub = 6 ∨ sub = 12 then some 16
      else none
    else if i = 0x2B00 ∧ (sub = 0x0B ∨ sub = 0x0D) then some (ofBool p.qh34)
    else if (i = 0x2C00 ∨ i = 0x2C01) ∧ sub = 2 then some 0
    else if i = 0x2F00 ∧ sub = 1 then some (if head then 0 else 2)
    else if (i = 0x2D01 ∨ i = 0x2D02) ∧ sub = 2 then some (ofBool head)
    else none
  else if i < 0x4000 then
    if i ≤ 0x3004 then
      if sub = 1 then some 1
      else if sub = 2 then some (systemKind (i - 0x3000))
      else if sub = 3 then some (if i = 0x3002 then 4 else 7)
      else if sub = 4 then some 0xFF
      else if sub = 9 then some (kindVersions (systemKind (i - 0x3000)))
      else none
    else if sub = 9 then some (kindVersions 2)
    else none
  else if i < 0x10000 then
    if i = 0x4008 then
      if 1 ≤ sub ∧ sub ≤ 9 then some ([0, 0, 1, 1, 1, 1, 1, 1, 2].getD (sub - 1) 0) else none
    else if 0x4110 ≤ i ∧ i < 0x411A then
      let g := if i < 0x4118 then 0 else if i = 0x4118 then 1 else 2
      if sub = 1 then some ([550, 1500, 3000].getD g 0)
      else if sub = 2 then some ([20000, 20000, 5000].getD g 0)
      else if sub = 3 then some ([5000, 5000, 1000].getD g 0)
      else if sub = 4 then some ([10, 10, 100].getD g 0)
      else if sub = 6 then some ([30000, 30000, 4000].getD g 0)
      else if sub = 7 then some ([600, 600, 300].getD g 0)
      else if sub = 8 then some ([2000, 2000, 5000].getD g 0)
      else if 0x0F ≤ sub ∧ sub ≤ 0x15 then some ([1100, 1250, 1450, 1650, 1800, 1900, 2000].getD (sub - 0x0F) 0)
      else if 0x16 ≤ sub ∧ sub ≤ 0x1D then
        some ([10000000, 5000000, 1000000, 200000, 50000, 10000, 1000, 100].getD (sub - 0x16) 0)
      else none
    else none
  else if 0x20000 ≤ i then none
  else if 0x13000 ≤ i then
    if i = 0x13001 ∧ (sub = 2 ∨ sub = 3) then some 0xFF else none
  else if 0x12000 ≤ i then
    if i = slotIndex 1 ∧ sub = 3 then some 3
    else if i = slotIndex 1 ∧ sub = 4 then some 0x10
    else if i = slotIndex 1 ∧ sub = 9 then some enrolLabel
    else none
  else if 0x11000 ≤ i then none
  else if sub = 2 then fixedRoute (i - 0x10000) else none

/-- What an object reads as when nothing has been written to it: its default (R52), by variant and role. -/
def objDefault (p : Part) (head : Bool) (k : Nat) : Nat :=
  match specialDefault p head (k / 256) (k % 256) with
  | some v => v
  | none => match rowAt (k / 256) (k % 256) with
    | some r => r.dflt
    | none => 0

/-- The bytes of an object's value; 0 for an STR or a missing object (R28). -/
def objSize (i sub : Nat) : Nat :=
  match rowAt i sub with
  | some r => r.size
  | none => 0

/-- Objects of an absent port do not exist (R2). -/
def Part.lacks (p : Part) (i sub : Nat) : Bool :=
  if p.qh34 then false
  else if 0x2300 ≤ i ∧ i < 0x2500 then true
  else if 0x2510 ≤ i ∧ i < 0x2524 then !p.hasFabricPort (i - 0x2510)
  else if 0x2530 ≤ i ∧ i < 0x2544 then !p.hasFabricPort (i - 0x2530)
  else if 0x2610 ≤ i ∧ i < 0x261C then !p.hasTrunk ((i - 0x2610) % 4)
  else if 0x2800 ≤ i ∧ i < 0x2808 then !p.hasOutput ((i - 0x2800) % 4)
  else if 0x2820 ≤ i ∧ i < 0x2860 then !p.hasOutput ((i - 0x2820) % 32 / 8)
  else if 0x2860 ≤ i ∧ i < 0x2864 then !p.hasOutput (i - 0x2860)
  else if 0x2900 ≤ i ∧ i < 0x2920 then !p.hasOutput ((i - 0x2900) % 16 / 4)
  else if 0x2A08 ≤ i ∧ i < 0x2A10 then !p.hasUsb (i - 0x2A08)
  else if 0x2C00 ≤ i ∧ i < 0x2C10 then !p.hasEth ((i - 0x2C00) % 8)
  else if 0x2C12 ≤ i ∧ i < 0x2C14 then true
  else if 0x2D01 ≤ i ∧ i < 0x2D05 then !p.hasPcie ((i - 0x2D01) % 2)
  else if 0x2E08 ≤ i ∧ i < 0x2E0C then !p.hasUart (i - 0x2E08)
  else if i = 0x2F00 then decide (9 ≤ sub ∧ sub ≤ 0x0B)
  else if i = 0x2F01 then decide (sub = 0x0B)
  else if 0x2F04 ≤ i ∧ i < 0x2F08 then !p.hasTrunk (i - 0x2F04)
  else if 0x2F18 ≤ i ∧ i < 0x2F1C then !p.hasTrunk (i - 0x2F18)
  else if 0x4220 ≤ i ∧ i < 0x4224 then !p.hasTrunk (i - 0x4220)
  else if (0x4114 ≤ i ∧ i < 0x4118) ∨ (0x4124 ≤ i ∧ i < 0x4128) then true
  else false

end Sys2Proof.Machine
end

