-- ==== Sys2Proof/Machine/Sparse.lean ====
section
/-!
DEFINITION. A store of values by number in ONE canonical form: numbers strictly rising, and no entry equal to what
an unlisted number reads as. Memories, objects and the records of ports and tunnels are all held so.
-/

set_option Elab.async false

namespace Sys2Proof.Machine

/-- The entry listed under `k`, if any. -/
def Sparse.find {α : Type} (k : Nat) : List (Nat × α) → Option α
  | [] => none
  | (k', v) :: r => if k = k' then some v else Sparse.find k r

/-- What `k` reads as: its entry, or `d` where none is listed. -/
def Sparse.get {α : Type} (d : α) (m : List (Nat × α)) (k : Nat) : α := (Sparse.find k m).getD d

/-- The store without its entry for `k`. -/
def Sparse.drop {α : Type} (k : Nat) : List (Nat × α) → List (Nat × α)
  | [] => []
  | (k', v) :: r => if k = k' then Sparse.drop k r else (k', v) :: Sparse.drop k r

/-- An entry put in its place by number. -/
def Sparse.ins {α : Type} (k : Nat) (v : α) : List (Nat × α) → List (Nat × α)
  | [] => [(k, v)]
  | (k', v') :: r => if k < k' then (k, v) :: (k', v') :: r else (k', v') :: Sparse.ins k v r

/-- The store with `v` at `k`; a value equal to what an unlisted `k` reads as is not listed. -/
def Sparse.put {α : Type} [DecidableEq α] (d : α) (k : Nat) (v : α) (m : List (Nat × α)) : List (Nat × α) :=
  if v = d then Sparse.drop k m else Sparse.ins k v (Sparse.drop k m)

/-- Numbers strictly above `lo`, rising, and no entry equal to its default. -/
def Sparse.wfFrom {α : Type} [DecidableEq α] (d : Nat → α) (lo : Nat) : List (Nat × α) → Bool
  | [] => true
  | (k, v) :: r => decide (lo ≤ k) && decide (v ≠ d k) && Sparse.wfFrom d (k + 1) r

/-- The canonical form. -/
def Sparse.wf {α : Type} [DecidableEq α] (d : Nat → α) (m : List (Nat × α)) : Bool := Sparse.wfFrom d 0 m

end Sys2Proof.Machine
end

