-- ==== Sys2Proof/Machine/State.lean ====
section
/-!
DEFINITION. The hub's state as plain data: the object dictionary in one canonical store, the state that no object
shows, the queue of waiting commands, and what the hub has sent. Every field's comment names its rule.
-/

namespace Sys2Proof.Machine

/-- Why the machine stops. -/
inductive Fault where
  /-- A command names a trunk, port, channel, slot or record that the part does not have. Every meaning with such an
  operand raises it. Safe: no part has that unit. -/
  | noSuchUnit
  deriving DecidableEq, Repr

/-- Why a command is turned away. -/
inductive Refusal where
  /-- The command has no meaning yet. Raised by the dispatch. Safe. -/
  | notModelled (mnemonic : String)
  deriving DecidableEq, Repr

/-- A ski pass (R34) of one path and slot. -/
structure Session where
  request : Nat := 0                       -- SessionRequest, 2 bits (R34)
  cred : Nat := 0                          -- CredentialId, 4 bits (R34)
  chal : Option (Nat × Nat) := none        -- challenge, 128 bits, and the clock at its draw (R35)
  chalRights : Nat := 0                    -- the request that drew it (R35)
  rights : Nat := 0                        -- SessionRights, 2 bits (R34)
  id : Nat := 0                            -- SessionId, 16 bits (R34)
  start : Nat := 0                         -- SessionStart, TIME64 (R34)
  granted : Nat := 0                       -- clock of the grant (R36)
  used : Bool := false                     -- an access has been made since Reset (R34)
  lastAccess : Nat := 0                    -- clock of the last access (R34)
  grantCred : Nat := 0                     -- credential of the grant (R36)
  trunk : Nat := 0                         -- trunk that carried the grant (R36)
  deriving DecidableEq, Repr

/-- Refusals and lockout of one path (R36). -/
structure Lockout where
  refusals : Nat := 0                      -- consecutive refusals (R36)
  since : Option Nat := none               -- clock at the lockout's begin (R36)
  deriving DecidableEq, Repr

/-- The command last accepted by a command block (R56, R57). -/
structure CmdRec where
  value : Nat := 0                         -- the Command value (R56)
  path : Path := .can                      -- the path that gave it (R478)
  at_ : Nat := 0                           -- station time of the access that gave it (R58)
  undoing : Bool := false                  -- an abort's undo runs (R57)
  abortPath : Path := .can                 -- the path of that abort (R478)
  abortAt : Nat := 0                       -- station time of that abort (R58)
  deriving DecidableEq, Repr

/-- One journal entry (R279); its index and sequence follow from its place in the ring. -/
structure JEntry where
  time : Nat := 0                          -- TIME64 of the event (R279)
  code : Nat := 0                          -- event code, 16 bits (R279)
  inst : Nat := 0                          -- source instance, 16 bits (R279)
  sev : Nat := 0                           -- severity, 8 bits (R279)
  flags : Nat := 0                         -- flags, 8 bits (R279)
  args : Bytes := []                       -- arguments, at most 16 bytes (R279)
  arrival : Nat := 0                       -- clock at which the engine took it (R281)
  bad : Bool := false                      -- uncorrectable in MRAM: reads as zero bytes (R413)
  deriving DecidableEq, Repr

/-- The journal's ring in MRAM (R281). -/
structure Journal where
  ring : List JEntry := []                 -- newest first, at most 131 072 entries (R281)
  next : Nat := 0                          -- index of the next entry, 32 bits (R281)
  seq : Nat := 0                           -- NextSequence, 16 bits (R279)
  written : Nat := 0                       -- EntriesWritten, 64 bits (R290)
  deriving DecidableEq, Repr

/-- What a rate-limited event gathers for one instance (R479). -/
structure Rate where
  code : Nat := 0                          -- event code (R479)
  inst : Nat := 0                          -- instance (R479)
  sev : Nat := 0                           -- severity (R479)
  since : Nat := 0                         -- clock at the period's begin (R479)
  period : Nat := 0                        -- length of the period in ns; 0 for a per-cycle event (R479)
  clk : Nat := 0                           -- whose cycle a per-cycle event has: a trunk, or 4 for station time; else which of the instances that share `inst` (R479)
  cycle : Nat := 0                         -- that cycle's number at the first occurrence (R479)
  first : Nat := 0                         -- TIME64 of the first occurrence gathered (R479)
  head : Bytes := []                       -- arguments before the counts, of that occurrence (R479)
  counts : List Nat := []                  -- counts gathered, 32 bits each (R479)
  tail : Bytes := []                       -- arguments after the counts (R479)
  some_ : Bool := false                    -- an occurrence is gathered and not yet written (R479)
  deriving DecidableEq, Repr

/-- The interrupt controller of both pairs (R395-R400). -/
structure Irq where
  latch : Nat := 0                         -- source latches 1-383, a mask (R396)
  async : Nat := 0                         -- asynchronous latches of PD0, a mask (R400)
  bells : Nat := 0                         -- doorbells 384-511, a mask (R392)
  enableA : Nat := 0                       -- IRQ_ENABLE of pair A, a mask (R395)
  enableB : Nat := 0                       -- IRQ_ENABLE of pair B, a mask (R395)
  ctrlA : Nat := 0                         -- IRQ_CTRL of pair A, 2 bits (R395)
  ctrlB : Nat := 0                         -- IRQ_CTRL of pair B, 2 bits (R395)
  normalA : Nat := 0                       -- active normal source of pair A, 9 bits (R395)
  normalB : Nat := 0                       -- active normal source of pair B, 9 bits (R395)
  fastA : Nat := 0                         -- active fast source of pair A, 9 bits (R395)
  fastB : Nat := 0                         -- active fast source of pair B, 9 bits (R395)
  stopped : Bool := false                  -- CI2 is stopped (R400)
  deriving DecidableEq, Repr

/-- The hub's running timers; each command that a passing time gives names one. -/
inductive Timer where
  | heartbeat
  | laneSync (t : Nat)
  | identify (t : Nat)
  | capabilities (t : Nat)
  | rateSwitch (t : Nat)
  | rateLock (t : Nat)
  | equalise (t : Nat)
  | verify (t : Nat)
  | heldRetry (t : Nat)
  | eyeWait (t : Nat)
  | retrainWait (t : Nat)
  | marker (t : Nat)
  | offer (n : Nat)
  | offerWait (n : Nat)
  | drain (n : Nat)
  | keyReady (n : Nat)
  | oldKey (n : Nat)
  | stall (q : Nat)
  | hpdLow (d : Nat)
  | usbReset (u : Nat)
  | usbResume (u : Nat)
  | hubResume
  | pdFirstCap
  | pdCapRepeat
  | pdTransition
  | pdTransitionSrc
  | pdPsRdy
  | pdResponse
  | pdAuto
  | pdSinkRetry
  | pdHardReset
  | pdRecover
  | pdError
  | pdDrp
  | pdTrySnk
  | pdCc
  | pdGoodCrc
  | selfTest (k : Nat)
  | ramp (c : Nat)
  | retry (c : Nat)
  | onTime (c : Nat)
  | holdUp
  | rail
  | railGood
  | resetRelease
  | appWdog
  | permit
  | plan
  | pinned (loop : Nat)
  | shadow
  | sentinel
  | telemetry
  | telemetryLog
  | pass (task : Nat)
  | norWear
  | bootWatchdog
  | domainStagger
  | fwReset
  | fwWait
  | d2d
  deriving DecidableEq, Repr

/-- The transfer of the SDO server on C0 (R43). -/
structure Sdo where
  kind : Nat := 0                          -- 0 none, 1 segmented download, 2 segmented upload, 3 block download, 4 its end awaited, 5 block upload not started, 6 block upload, 7 its end awaited (R43)
  index : Nat := 0                         -- index (R43)
  sub : Nat := 0                           -- subindex (R43)
  size : Option Nat := none                -- the size a download indicated (R39)
  data : Bytes := []                       -- a download's bytes so far; an upload's value (R38, R39)
  sent : Nat := 0                          -- bytes of an upload acknowledged (R38)
  toggle : Bool := false                   -- toggle bit of the next segment (R45)
  crc : Bool := false                      -- the client supports CRC (R43)
  blk : Nat := 127                         -- segments per block (R43)
  seq : Nat := 0                           -- last segment of this block received in order, or sent (R45)
  at_ : Nat := 0                           -- clock of the client's last frame (R45)
  deriving DecidableEq, Repr

/-- A TPDO beyond its objects (R43). -/
structure Tpdo where
  last : Option Nat := none                -- clock of its last transmission (R43)
  deferred : Bool := false                 -- a transmission waits for the inhibit time's end (R43)
  syncs : Nat := 0                         -- SYNCs since its last transmission (R43)
  timer : Nat := 0                         -- clock at the event timer's begin (R43)
  data : Bytes := []                       -- what it sent last (R43)
  deriving DecidableEq, Repr

/-- CANopen on C0 beyond the objects (R43-R45). -/
structure CanOpen where
  nmt : Nat := 127                         -- state as the heartbeat reports it: 4 stopped, 5 operational, 127 pre-operational (R44)
  sdo : Sdo := {}                          -- the open transfer (R43)
  tpdos : List (Nat × Tpdo) := []          -- TPDOs, canonical (R43)
  rpdos : List (Nat × Bytes) := []         -- data of synchronous RPDOs that wait for a SYNC, canonical (R43)
  deriving DecidableEq, Repr

/-- What a lane holds beyond its objects. -/
structure Lane where
  run : Nat := 0                           -- consecutive erased codewords, or invalid sync headers in mode 3 (R68)
  good : Nat := 0                          -- consecutive good groups while Lost (R69)
  locked : Bool := false                   -- CDR and block lock (R69)
  lostAt : Nat := 0                        -- clock at the loss (R89)
  verifyErased : Bool := false             -- an erased codeword in Verify (R79)
  verifySymbols : Nat := 0                 -- corrected symbols in Verify (R79)
  verifySync : Bool := false               -- a sync-header error in Verify (R79)
  pre : Nat := 0                           -- transmit pre-cursor, steps (R480)
  main : Nat := 40                         -- transmit main cursor, steps (R480)
  post : Nat := 0                          -- transmit post-cursor, steps (R480)
  status : Nat := 0                        -- coefficient status, byte 14 (R480)
  reqPre : Nat := 0                        -- last pre-cursor request received (R480)
  reqMain : Nat := 0                       -- last main-cursor request received (R480)
  reqPost : Nat := 0                       -- last post-cursor request received (R480)
  reqPreset : Nat := 0                     -- last preset request received (R480)
  ctle : Option Nat := none                -- receiver peaking that host eye tuning loaded (R80)
  dfe : Option Nat := none                 -- RxDfeEnable that host eye tuning loaded (R80)
  deriving DecidableEq, Repr

/-- A destination of a cell: egress queue (p, c), flow, and the cell as that queue sends it (R125). -/
structure Dest where
  p : Nat                                  -- the egress port (R125)
  c : Nat                                  -- the class of its queue (R125)
  flow : Nat                               -- whose units these are: tunnel, or a source of it, or 0x10000 plus the arriving port (R127)
  cell : Cell                              -- the cell with the header of this destination (R137)
  deriving DecidableEq, Repr

/-- A cell waiting in a trunk's receive stage or in an ingress adapter (R140). -/
structure Held where
  cell : Cell                              -- the cell (R140)
  since : Nat := 0                         -- clock of its arrival (R142)
  offered : Bool := false                  -- the red-drop decision is taken (R139)
  dests : List Dest := []                  -- in an adapter, the destinations found when it was offered (R125)
  own : Bool := false                      -- the hub formed the cell for a tunnel: its destinations are known (R13, R103)
  reserved : Option Nat := none            -- the sequence kept for a late Close (R118)
  deriving DecidableEq, Repr

/-- A write judged and answered, whose effect waits until its reply has been sent (R21, R255). -/
structure LateWrite where
  path : Path                              -- the path of its access (R478)
  time : Nat                               -- station time of that access (R58)
  index : Nat                              -- index: 0x2010, 0x2020 or a trunk's configuration (R21, R255)
  sub : Nat                                -- subindex (R21, R255)
  value : Nat                              -- value written (R21, R255)
  deriving DecidableEq, Repr

/-- What a trunk holds beyond its objects. -/
structure Trunk where
  cycle : Nat := 0                         -- number of the transmit cycle, 32 bits (R63)
  lanes : List (Nat × Lane) := []          -- lanes 0-4, canonical (R68)
  signal : Nat := 0                        -- physical lanes with signal, a mask (R77)
  frames : Nat := 0                        -- physical lanes with a good training frame, a mask (R77)
  ids : List (Nat × Nat) := []             -- logical lane found on each physical lane (R74)
  inverted : Nat := 0                      -- physical lanes with complemented sync headers, a mask (R74)
  attempts : List Nat := []                -- modes still to try, the present one first (R76)
  done : Bool := false                     -- this end has set state complete (R77)
  farState : Nat := 0                      -- the far end's training state (R73)
  farDone : Bool := false                  -- the far end has set state complete (R77)
  farReady : Bool := false                 -- the far end is rate-change ready (R77)
  passed : Bool := false                   -- the Verify window has ended and passed here (R79)
  heldReason : Nat := 0                    -- WaitReason of the last Held since Trained (R77)
  asking : Bool := false                   -- the retrain bit is set in training frames in Detect (R77)
  retrain : Nat := 0                       -- reason of a running retrain: 1 command, 2 mode change, 3 far (R78)
  retrainBound : Nat := 2000               -- the drain bound to wait for the far request, µs (R78)
  reqDue : Bool := false                   -- this end's retrain request leaves in the next control cell (R78, R82)
  reqSent : Bool := false                  -- this end's retrain request is sent (R78)
  reqGot : Bool := false                   -- the far end's retrain request is received (R78)
  closing : Bool := false                  -- drains run before the trunk goes Off (R77)
  laneBlock : Bool := false                -- a lane-status block is due in the next control cell (R68)
  farLanes : Nat := 0                      -- the far receiver's lanes in service (R83)
  farLost : Nat := 0                       -- the far receiver's lanes Lost (R83)
  farUncorrectable : Nat := 0              -- the far receiver's uncorrectable groups of its last cycle (R83)
  groups : Nat := 0                        -- uncorrectable groups in this cycle (R83)
  groupsLast : Nat := 0                    -- uncorrectable groups in the previous cycle (R83)
  held : List Held := []                   -- cells in the receive stage, oldest first (R106)
  sent : List (Nat × Nat) := []            -- cells sent by class modulo 4096 (R107)
  back : List (Nat × Nat) := []            -- credits returned to this end by class (R107)
  returned : List (Nat × Nat) := []        -- credits this end returned by class (R107)
  reported : List (Nat × Nat) := []        -- the totals of the last credit block sent (R82)
  rate : Nat := 10312500                   -- lane rate of the transmitters, kb/s (R73)
  line : List Nat := []                    -- transcoded blocks of the codeword group under way, 257 bits each (R62)
  markDue : Bool := false                  -- a cycle-start marker waits for the next group (R63)
  markerTx : Nat := 0                      -- transmit stamp of the own marker last sent (R84)
  txCycle : Nat := 0                       -- number of that own marker (R83)
  farNext : Nat := 0                       -- predicted number of the far end's next marker (R63)
  rxLeft : Nat := 0                        -- blocks of a straddling cell that the next received group still brings (R62)
  rxDoomed : Bool := false                 -- that cell is discarded (R65)
  doomed : Nat := 0                        -- received cells still to discard for an uncorrectable group (R65)
  markerRx : Nat := 0                      -- receive stamp of the far marker last stamped (R84)
  farCycle : Nat := 0                      -- number of that far marker (R83)
  eyeLane : Nat := 0                       -- lane of the running eye-tuning command (R80)
  eyePreset : Nat := 0                     -- preset requested of the far transmitter, byte 13 (R80)
  eyePre : Nat := 0                        -- pre-cursor request, byte 12 (R80)
  eyePost : Nat := 0                       -- post-cursor request, byte 12 (R80)
  waitSince : Nat := 0                     -- clock at which the wait for host eye tuning began (R80)
  residue : Nat := 0                       -- residue of the line's cycles not yet released, 1/64 cell time (R61)
  late : List LateWrite := []              -- writes over its tunnel 1 that wait for their reply, oldest first (R21)
  deriving DecidableEq, Repr

/-- One side of a tunnel's twin-tip delivery (R113); an untwinned tunnel uses side A. -/
structure Side where
  cond : Nat := 0                          -- 0 down, 1 joining, 2 current, 3 lagging (R113)
  last : Int := -1                         -- highest sequence this side reported (R112)
  advanced : Nat := 0                      -- clock at which last advanced (R113)
  since : Nat := 0                         -- clock at which the side left current, 0 if it has not since Open (R121)
  deriving DecidableEq, Repr

/-- What a tunnel holds beyond its record. -/
structure Tunnel where
  cfg : List (Nat × Nat) := []             -- record values in effect, by subindex (R99)
  h : Int := -1                            -- highest accepted sequence (R112)
  checked : Int := -1                      -- highest sequence judged (R112)
  seen : List Int := []                    -- sequences seen in the window (R112)
  firsts : List (Int × Nat × Nat) := []    -- sequences received on one side only: sequence, side, clock (R98)
  sideA : Side := {}                       -- side A (R113)
  sideB : Side := {}                       -- side B (R113)
  gotOffer : Bool := false                 -- a compatible offer is received (R103)
  gotSeen : Bool := false                  -- one with peer-seen set is received (R102)
  sentSeen : Bool := false                 -- the own offer is sent with peer-seen set (R102)
  farSerial : Nat := 0                     -- the far end's SerialNumber (R103)
  farEpoch : Nat := 0                      -- the far end's OpenEpochTx (R103)
  farVersions : Nat := 0                   -- the far end's AdapterVersions (R103)
  waiting : Nat := 0                       -- clock of the entry to Negotiating (R102)
  farInit : Bool := false                  -- the drain is far-initiated (R119)
  closeSent : Bool := false                -- this end has sent its Close (R118)
  closeQueued : Bool := false              -- this end's Close is queued (R118)
  closeGot : Bool := false                 -- the far end's Close is received (R118)
  closeFwd : Nat := 0                      -- directions in which a transit record forwarded a Close, a mask (R118)
  discards : Nat := 0                      -- cells discarded in this drain (R98)
  ends : Bool := false                     -- TunnelEnable was written 0 in this drain: it ends in Off (R102, R120)
  owner : Nat := 0                         -- who drains: 0 host, 1 retrain or trunk Off, 2 function switch, 3 Setup (R102)
  commanded : Bool := false                -- drain command 1 runs (R98)
  farReady : Nat := 0                      -- slot named by the far end's key ready (R116)
  oldSlot : Nat := 0                       -- old slot still accepted, 0 none (R116)
  slot : Nat := 0                          -- key slot in force on the line (R116)
  tags : List (Nat × Nat) := []            -- cycle in which the tunnel last sent a data cell, plus 1, by trunk (R109)
  nextSeq : Nat := 0                       -- next sequence of tunnels 1-4 on a trunk (R95, R108)
  quiet : Nat := 0                         -- consecutive silent cycles of a watched tunnel (R416)
  silent : Bool := false                   -- declared silent, and nothing has arrived since (R416)
  heard : Bool := false                    -- a cell or tail arrived from a current side in this cycle (R416)
  watchTail : Bool := false                -- the tail rule of a watched tunnel, taken at Open (R416)
  tailDue : Nat := 0                       -- trunks on which a tail cell is due, a mask (R109)
  deriving DecidableEq, Repr

/-- A cell in the shared buffer (R123). -/
structure BufCell where
  cell : Cell                              -- the cell (R123)
  refs : Nat := 0                          -- descriptors (R123)
  sealed : List (Nat × Nat × Bytes) := []  -- key slot and sealed payload by tunnel, of the first copy (R115)
  ext : List (Nat × Nat) := []             -- extended sequence by tunnel, taken with the first copy; by 0x2000 + k of pair k (R126, R265)
  reserved : Option Nat := none            -- the sequence kept for a late Close (R118)
  deriving DecidableEq, Repr

/-- One descriptor of an egress queue (R123); without a buffer cell it is a truncation descriptor (R130). -/
structure Desc where
  buf : Option Nat := none                 -- the buffer cell (R123)
  cell : Cell                              -- header as the queue sees it (R130)
  flow : Nat := 0                          -- whose unit it is: tunnel, or a source of it, or 0x10000 plus the arriving port (R127)
  since : Nat := 0                         -- clock of the admission (R129)
  deriving DecidableEq, Repr

/-- One egress queue (R123). -/
structure Queue where
  descs : List Desc := []                  -- descriptors, head first (R123)
  avg : Nat := 0                           -- average occupancy, 1/256 cell (R138)
  units : List (Nat × Nat) := []           -- open unit by flow: 1 admit, 2 drop, 3 mark, 4 refused, 5 truncated (R139)
  opens : List (Nat × Nat) := []           -- open unit by flow at a terminating egress: clock of its first cell (R129)
  stall : Nat := 0                         -- stall time gathered in cell times given to the class, ps (R141)
  prof : Option Nat := none                -- the red-drop profile in force since the last first cell (R138, R148)
  avgAt : Nat := 0                         -- clock from which the empty queue's update interval runs (R138)
  deriving DecidableEq, Repr

/-- An entry of the Layer-2 table (R135). -/
structure L2 where
  valid : Bool := false                    -- Valid (R147)
  mac : Nat := 0                           -- MacAddress, 48 bits (R147)
  vlan : Nat := 0                          -- VlanId, 12 bits (R147)
  ports : Nat := 0                         -- PortMask, 8 bits (R147)
  tunnel : Nat := 0                        -- Tunnel, 12 bits (R147)
  fixed : Bool := false                    -- Static (R147)
  seen : Nat := 0                          -- clock of the last refresh (R136)
  written : Nat := 0                       -- clock of the host's last write of it, plus 1; 0 for none (R144)
  deriving DecidableEq, Repr

/-- A tunnel's two-rate three-colour meter (R137). -/
structure Meter where
  tc : Nat := 0                            -- committed tokens, 1/125000 cell (R137)
  tp : Nat := 0                            -- peak tokens, 1/125000 cell (R137)
  at_ : Nat := 0                           -- clock of the last update (R137)
  full : Bool := false                     -- the buckets were filled once (R137)
  deriving DecidableEq, Repr

/-- The fabric beyond its objects. -/
structure Fabric where
  bufs : List (Nat × BufCell) := []        -- the buffer's cells by address (R123)
  queues : List (Nat × Queue) := []        -- egress queues 8p + c, canonical (R123)
  lfsr : List (Nat × Nat) := []            -- LFSR of each profile, 16 bits (R139)
  l2 : List (Nat × L2) := []               -- Layer-2 table by slot, canonical (R135)
  meters : List (Nat × Meter) := []        -- meters by tunnel, canonical (R137)
  waiting : List (Nat × List Held) := []   -- cells in the ingress adapters by fabric port, oldest first (R140)
  writer : Nat := 0                        -- when the display writer may take its next cell, ps of the hub's clock (R191)
  backed : List (Nat × List Held) := []    -- TC7 cells held at their source by fabric port, oldest first (R140, R143)
  grant : Nat := 17                        -- the external port that the write arbiter granted last (R122)
  sources : List (Nat × Nat × Nat) := []   -- source MAC and VLAN of the open frame by tunnel, or 0x10000 plus port and class (R136)
  routes : List (Nat × List (Nat × Nat × Nat)) := [] -- destinations of the open unit by port and class: port, class, flow (R127)
  deriving DecidableEq, Repr

/-- A tunnel's tags and shaper on one trunk (R160, R161), and what carve measures (R165). -/
structure Shaper where
  start : Nat := 0                         -- start tag, 48 bits (R160)
  finish : Nat := 0                        -- finish tag, 48 bits (R160)
  credit : Int := 0                        -- shaper credit, 1/65536 cell (R161)
  rise : Nat := 0                          -- rise per planned cell time (R161)
  high : Nat := 0                          -- high limit (R161)
  share : Nat := 0                         -- share in force, cells per cycle (R162)
  carved : Option Nat := none              -- share that this trunk's carve computed since the tunnel opened (R168)
  arrived : Nat := 0                       -- cells that arrived in this epoch (R165)
  demand : Nat := 0                        -- demand d of the last epoch (R174)
  sentEpoch : Nat := 0                     -- cells sent in this epoch (R174)
  backlogged : Bool := false               -- a backlog stood at the epoch's start (R174)
  deriving DecidableEq, Repr

/-- A trunk's scheduler beyond its objects. -/
structure Sched where
  rendered : List (Nat × Nat) := []        -- rendered table: 0 guard, 4-7 class, 2 fixed, 3 remainder; cell times (R154)
  places : List (Nat × Nat) := []          -- what is left of this cycle; 8 lent to the next due (R158)
  running : Bool := false                  -- a first cycle has started since Trained (R150)
  due : Nat := 0                           -- due(n), as the hub's clock reads it, ps (R150, R158)
  late : Nat := 0                          -- lateness at this cycle's start, cell times (R158)
  follow : Int := 0                        -- corrections still to follow, cell times (R157)
  fraction : Int := 0                      -- fraction of a correction carried, ps (R157)
  tc7 : Nat := 0                           -- TC7 cells sent in this cycle's best-effort gates (R151)
  control : Nat := 0                       -- best-effort cell times since the last control cell (R82)
  marked : Bool := false                   -- gate-marker and time-transfer blocks sent in this cycle (R82)
  switch : Nat := 0                        -- announced switch cycle X, 0 none (R155)
  next : List Nat := []                    -- next table as checked, 64 entries (R155)
  armed : List Nat := []                   -- table of a switch past its commit point, 64 entries (R155)
  armedAt : Nat := 0                       -- the cycle X of that switch (R155)
  farDue : Nat := 0                        -- far cycle X announced in the owner's marker of X - 1, 0 none (R156)
  farNumber : Nat := 0                     -- cycle number of that marker (R156)
  mismatch : Nat := 0                      -- consecutive cycles of differing versions (R156)
  cut : Nat := 0                           -- cell times cut from this cycle's remainder gate (R158)
  corr : Int := 0                          -- correction followed in this cycle, cell times (R158)
  beLen : Nat := 0                         -- length of this cycle's remainder gate (R158)
  epoch : Bool := false                    -- an epoch starts and carve has not yet run (R165)
  hold : Bool := false                     -- shares are held until the new mode's first epoch (R167)
  farTx : Nat := 0                         -- transmit stamp of the far marker, from a time-transfer block (R156)
  farTxCycle : Nat := 0                    -- low 16 bits of that marker's cycle (R156)
  farKnown : Bool := false                 -- such a stamp has arrived (R156)
  virtual : List (Nat × Nat) := []         -- virtual time by group: 7-4, 1 for TC3-TC1, 0 (R160)
  shapers : List (Nat × Shaper) := []      -- by tunnel, canonical (R161)
  deriving DecidableEq, Repr

/-- An outstanding flip (R187). -/
structure Flip where
  num : Nat                                -- flip number, 16 bits (R186)
  phase : Nat := 0                         -- 0 Open, 1 Committed, 2 Ready, 3 Dropped (R187)
  mask : Nat := 0                          -- layers named, 4 bits (R185)
  bufs : Nat := 0                          -- buffer per layer, 2 bits each (R185)
  notBefore : Option Nat := none           -- not-before time, TIME64 (R185)
  commitSeq : Int := 0                     -- sequence of its commit (R187)
  damaged : Bool := false                  -- marked damaged (R187)
  palettes : List (Nat × Nat × Bytes) := [] -- palette units: layer, first entry, entries (R186)
  deriving DecidableEq, Repr

/-- A unit of a display tunnel whose first cell has come (R185). -/
structure DUnit where
  first : Int                              -- sequence of its first cell (R185)
  kind : Nat                               -- 0 discarded, 1 rectangle, 3 palette, 4 raster line (R185, R188)
  flip : Nat := 0                          -- flip number (R185)
  layer : Nat := 0                         -- layer 0-3 (R185)
  buf : Nat := 0                           -- buffer (R185)
  x : Nat := 0                             -- first pixel of a rectangle; first entry of a palette (R185)
  y : Nat := 0                             -- first line (R185)
  w : Nat := 0                             -- width in pixels (R185)
  h : Nat := 0                             -- height in lines (R185)
  len : Nat := 0                           -- content bytes by its header (R186)
  ended : Bool := false                    -- its last cell has come (R186)
  last : Option Int := none                -- sequence of that cell (R185)
  spoilt : Bool := false                   -- damaged (R186)
  overLong : Bool := false                 -- its declared end has passed without its last cell (R186)
  data : List (Nat × Nat) := []            -- a palette's bytes by place, canonical from 0 (R185)
  deriving DecidableEq, Repr

/-- A signature region's values in effect and what it judges by (R198-R205). -/
structure Region where
  mode : Nat := 0                          -- RegionMode in effect (R201)
  x : Nat := 0                             -- RegionX in effect (R201)
  y : Nat := 0                             -- RegionY in effect (R201)
  w : Nat := 0                             -- RegionWidth in effect (R201)
  h : Nat := 0                             -- RegionHeight in effect (R201)
  want : Nat := 0                          -- ExpectedSignature in effect (R205)
  armed : Nat := 0                         -- station time at entry into Arming (R203)
  fault : Nat := 0                         -- clock at the declaration (R214)
  changed : Bool := false                  -- its last completion changed (R208)
  seen : Bool := false                     -- it has completed since Arming (R208)
  frame : Option Nat := none               -- the frame of its last completion (R199)
  direct : Bool := false                   -- ExpectedSignature was written directly since the latch (R210)
  deriving DecidableEq, Repr

/-- A display output beyond its objects. -/
structure Disp where
  hpd : Bool := false                      -- HPD level (R179)
  adapt : Nat := 0                         -- DPCD 0x00007 as last read (R177)
  sinkRate : Nat := 0                      -- highest link rate of the sink's DPCD capabilities (R177)
  sinkLanes : Nat := 0                     -- highest lane count of the sink's DPCD capabilities (R177)
  timing : List (Nat × Nat) := []          -- OutputConfig in effect since leaving Off, by subindex (R181)
  latched : List (Nat × Nat) := []         -- LayerOrder, background and flip modes in effect, by subindex (R181)
  layers : List (Nat × Nat) := []          -- LayerConfig in effect, by layer × 16 + subindex (R196)
  palettes : List (Nat × Nat) := []        -- Palette in effect, 1024 bytes by layer 0-3 (R196)
  fronts : List Nat := []                  -- layers that have a front buffer (R182)
  blanked : Nat := 0                       -- layers blanked by underrun in this frame, 4 bits (R190)
  blankAt : List (Nat × Nat) := []         -- by such a layer, the pixel from which it is blanked, 65536 y + x (R190)
  porch : Bool := true                     -- the front porch runs (R180)
  base : Nat := 0                          -- line count at the porch's start (R189)
  line : Nat := 0                          -- porch lines ended (R189)
  due : Nat := 0                           -- line at which the latch is due (R189)
  plan : Nat := 0                          -- planned front porch (R189)
  glided : Bool := false                   -- the porch has glided (R189)
  flips : List Flip := []                  -- outstanding flips that a unit has named (R186)
  oldest : Nat := 0                        -- oldest outstanding flip number (R186)
  newest : Option Nat := none              -- newest flip committed since the tunnel opened (R208)
  dropped : Nat := 0                       -- flips dropped since the tunnel opened (R208)
  skipped : Nat := 0                       -- flips skipped since the tunnel opened (R208)
  units : List DUnit := []                 -- units under way (R185)
  early : List (Int × Cell) := []          -- cells before their unit's first, at most 64 (R185)
  bads : List (Int × Bool) := []           -- sequences of early cells discarded, and which were last cells (R185)
  done : Int := -1                         -- sequences judged for flips (R187)
  freed : List (Nat × Nat) := []           -- layer and buffer to release in the next receipt (R188)
  shadow : List (Nat × BitVec 8) := []     -- bytes of this frame as they were scanned, by DRAM address, where written since (R188)
  started : Nat := 0                       -- clock of the latch (R180)
  left : Nat := 0                          -- FlipsOutstanding after the latch (R208)
  leftAt : Nat := 0                        -- oldest outstanding flip after the latch (R208)
  latchTime : Nat := 0                     -- station time of the latch (R208)
  flags : Nat := 0                         -- receipt byte 2 of this frame (R208)
  rearm : Bool := false                    -- regions re-arm at the first latch after the switch (R210)
  blankDue : Bool := false                 -- no frame has begun since the switch that blanks it (R54)
  regions : List (Nat × Region) := []      -- signature regions, canonical (R198)
  deriving DecidableEq, Repr

/-- A peripheral request queued at a port or on its wire (R219). -/
structure UsbReq where
  tunnel : Nat := 0                        -- the tunnel that carried it (R221)
  hdr : Bytes := []                        -- its 16-byte header (R219)
  data : Bytes := []                       -- SETUP or OUT data (R219)
  order : Nat := 0                         -- number of its arrival at the hub function (R228)
  errs : Nat := 0                          -- attempts that ended in no response or an error (R221)
  first : Option Nat := none               -- clock of the first attempt (R221)
  naked : Bool := false                    -- its last attempt was answered NAK (R221)
  micro : Nat := 0                         -- microframe number of its last attempt (R220)
  deriving DecidableEq, Repr

/-- A downstream port of the hub function beyond its objects (R223). -/
structure UsbPort where
  asyncQ : List UsbReq := []               -- asynchronous requests, at most 64 (R221)
  perQ : List UsbReq := []                 -- periodic requests, at most 64 (R221)
  active : Option UsbReq := none           -- the transaction on the wire (R221)
  slow : Bool := false                     -- D- pull-up at attach: low speed (R223)
  chirped : Bool := false                  -- a device chirp was answered in this reset (R224)
  babbled : Bool := false                  -- babble disables the port at the end of the microframe (R221)
  next : Nat := 0                          -- after the transaction on the wire: 0 nothing, 1 reset, 2 suspend (R223)
  test : Nat := 0                          -- test selector in force, 0 none (R216)
  deriving DecidableEq, Repr

/-- A relay beyond its objects (R218). -/
structure Relay where
  on : Bool := false                       -- RelayEnable was taken (R218)
  cfg : List (Nat × Nat) := []             -- 0x02-0x07 as that write took them, canonical (R238)
  down : Nat := 0                          -- DownProducer, 32 bits (R218)
  up : Nat := 0                            -- units written to the up ring, 32 bits (R218)
  consumed : Nat := 0                      -- UpConsumer, 32 bits (R218)
  held : List Bytes := []                  -- units that wait for an up slot (R218)
  fullSince : Option Nat := none           -- clock at which the up ring became full (R238)
  deriving DecidableEq, Repr

/-- The hub function and the relays (R215). -/
structure UsbHub where
  ports : List (Nat × UsbPort) := []       -- downstream ports, canonical (R223)
  relays : List (Nat × Relay) := []        -- relays, canonical (R218)
  addr : Nat := 0                          -- address, 7 bits (R216)
  config : Bool := false                   -- configured (R216)
  alt : Nat := 0                           -- alternate setting of interface 0 (R215)
  wakeOn : Bool := false                   -- the remote-wake feature (R226)
  ganged : Bool := false                   -- PowerMode as the Boot or the last upstream reset took it (R225)
  suspended : Bool := false                -- the hub function is suspended (R222)
  resuming : Bool := false                 -- a resume's K is driven (R222)
  wakes : Nat := 0                         -- ports that signalled remote wake since the suspend (R222)
  lost : Bool := false                     -- the asynchronous tunnel has left Open and not reopened (R234)
  order : Nat := 0                         -- requests taken so far, model's own
  micro : Nat := 0                         -- last microframe started, from station time 0 (R227)
  status : Nat := 0                        -- wHubStatus (R216, R225)
  change : Nat := 0                        -- wHubChange (R216, R225)
  setup : Bytes := []                      -- SETUP of the control transfer under way (R231)
  ctrl : Bytes := []                       -- data stage of that transfer (R216)
  ctrlPid : Bool := true                   -- next data PID of it is DATA1 (R220)
  stalled : Bool := false                  -- it is answered STALL (R216)
  epPid : Bool := false                    -- next data PID of the status-change endpoint is DATA1 (R215)
  ignored : Nat := 0                       -- bus commands ignored in raw port control (R230)
  deriving DecidableEq, Repr

/-- A buffer of endpoint memory with its descriptor (R393). -/
structure SvcBuf where
  full : Bool := false                     -- OUT: owner 1, a packet waits for pair B; IN: owner 0, one waits for the host (R393)
  data : Bytes := []                       -- its packet; its length is the descriptor's (R393)
  deriving DecidableEq, Repr

/-- The service-port device beyond its objects (R231). -/
structure SvcDev where
  setup : Option Bytes := none             -- SETUP of the control transfer under way (R233)
  stall : Bool := false                    -- EP0 protocol stall (R233)
  config : Bool := false                   -- configured, 1 (R231)
  before : Nat := 0                        -- DeviceState before a suspend (R239)
  wakeOn : Bool := false                   -- remote wake enabled by the host (R239)
  fast : Bool := true                      -- MaxSpeed at attach was high speed (R239)
  wakeCap : Bool := false                  -- RemoteWakeCapable at attach (R239)
  app : Bool := false                      -- AppInterfaceEnable at attach (R239)
  plan : List (Nat × Nat) := []            -- endpoint configuration as the last write of 1 took it, canonical (R232)
  rx : Bytes := []                         -- EP1 OUT request received in part (R47)
  complete : List Bytes := []              -- EP1 requests received whole and not yet executed, oldest first (R47, R234)
  held : List (Bytes × Bool) := []         -- requests that a halt of EP1 holds, and whether each is the 17th (R48, R233)
  late : List LateWrite := []              -- writes over the service port that wait for their reply, oldest first (R255)
  inQ : List (Nat × List Bytes) := []      -- IN packets waiting on EP0 and EP1, canonical (R233)
  bufs : List (Nat × SvcBuf) := []         -- buffers of EP2-EP15 by 4e + 2 (IN) + number, canonical (R393)
  turn : List (Nat × Nat) := []            -- next buffer of a direction by 2e + 1 (IN), canonical (R393)
  detach : Option Nat := none              -- clock of a DFU_DETACH (R447)
  dfu : Bool := false                      -- DFU-mode descriptors are presented (R447)
  test : Nat := 0                          -- test mode by its selector, 0 none (R216, R231)
  deriving DecidableEq, Repr

/-- The service port's Type-C and PD state beyond the objects (R242). -/
structure Pd where
  vbus : Bool := false                     -- VBUS is present at the port (R231, R250)
  rp : Bool := false                       -- an unattached port presents Rp (R245)
  discharge : Bool := false                -- SVC_VBUS_DIS is on; no attach until vSafe0V (R254)
  ra : Bool := false                       -- Ra on the unused CC pin (R247)
  vconnCut : Bool := false                 -- VCONN is off until the next attach (R252)
  txId : Nat := 0                          -- MessageID of the next message, 3 bits (R243)
  rxId : Option Nat := none                -- MessageID last received (R243)
  waitCrc : Option PdMsg := none           -- the message whose GoodCRC has not come (R243)
  retries : Nat := 0                       -- its retries (R243)
  queue : List PdMsg := []                 -- messages that wait for that GoodCRC, oldest first (R243)
  ask : List PdMsg := []                   -- own requests of the Sink that wait for SinkTxOk, oldest first (R243)
  sinkCaps : Option (List Nat) := none     -- the partner's answer to the Get_Sink_Cap under way (R259)
  caps : Nat := 0                          -- Source_Capabilities sent without GoodCRC (R250)
  capsBad : Bool := false                  -- the last one found no GoodCRC (R250)
  advertised : List Nat := []              -- the PDOs last advertised (R250)
  capsLater : Bool := false                -- new Source_Capabilities follow PS_RDY (R255)
  target : Option (Nat × Nat × Nat) := none -- in transition: object position, mV, mA (R250, R251)
  asked : Option Nat := none               -- object position of the hub's own Request without an answer (R251)
  askedMa : Nat := 0                       -- operating current of that Request, mA (R251, R257)
  swap : Nat := 0                          -- swap under way: 0 none, 1 data role, 2 VCONN (R253)
  swapOwn : Bool := false                  -- the hub asked for it (R255)
  swapAgreed : Bool := false               -- it was accepted (R253)
  swapNext : Nat := 0                      -- swap commanded that waits for the end of it: 0 none, 1 data role, 2 VCONN (R258)
  softSent : Bool := false                 -- the hub's Soft_Reset waits for Accept (R255)
  autoTries : Nat := 0                     -- DR_Swap requests of AutoUfp in this attach (R246)
  autoDone : Bool := false                 -- AutoUfp asks no more in this attach (R246)
  autoWait : Bool := false                 -- AutoUfp repeats after a Wait (R246)
  hardStage : Nat := 0                     -- after a Hard Reset as Source: 1 before off, 2 to vSafe0V, 3 recovering (R253)
  deriving DecidableEq, Repr

/-- What an Ethernet port holds beyond its objects. -/
structure EthPort where
  pausedTo : Nat := 0                      -- clock at which a received PAUSE ends (R262)
  heard : Nat := 0                         -- clock of the last supervision frame (R265)
  upSince : Nat := 0                       -- clock at which the link came up (R265)
  syncSeq : Option Nat := none             -- sequence of a two-step Sync that waits for its Follow_Up (R273)
  syncAt : Nat := 0                        -- its stamp (R273)
  syncCorr : Int := 0                      -- its correctionField (R273)
  reqSeq : Nat := 0                        -- sequence of the next Pdelay_Req sent (R273)
  reqAt : Nat := 0                         -- stamp of the last one (R273)
  respSeq : Option Nat := none             -- two-step Pdelay_Resp that waits for its follow-up (R273)
  respT4 : Nat := 0                        -- stamp of that response (R273)
  respT2 : Nat := 0                        -- its requestReceiptTimestamp (R273)
  respCorr : Int := 0                      -- its correctionField (R273)
  outSeq : Nat := 0                        -- sequence of the next Sync sent (R273)
  lastSync : Nat := 0                      -- clock of the last Sync sent (R273)
  lastReq : Nat := 0                       -- clock of the last Pdelay_Req sent (R273)
  announced : Nat := 0                     -- clock of the last Announce received (R268)
  deriving DecidableEq, Repr

/-- A source entry of a pair's duplicate discard (R265). -/
structure Node where
  pair : Nat                               -- the pair (R265)
  mac : Nat                                -- source MAC, 48 bits (R265)
  seqs : List (Nat × Nat) := []            -- sequences of the window, newest first, and the LANs that brought each (R265)
  seen : Nat := 0                          -- clock of its last frame (R265)
  deriving DecidableEq, Repr

/-- What a redundancy pair holds beyond its objects. -/
structure RedPair where
  seq : Nat := 0                           -- next sequence sent, 16 bits (R265)
  lastLife : Nat := 0                      -- clock of its last supervision frames (R265)
  since : Nat := 0                         -- clock at which it became degraded (R291)
  deriving DecidableEq, Repr

/-- The network function beyond the objects. -/
structure Eth where
  ports : List (Nat × EthPort) := []       -- by port, canonical (R261)
  nodes : List Node := []                  -- source entries, at most 1024 per pair (R265)
  pairs : List (Nat × RedPair) := []       -- by pair, canonical (R265)
  deriving DecidableEq, Repr

/-- Station time's base beyond the objects. -/
structure TimeBase where
  good : Nat := 0                          -- consecutive samples within 100 ns (R269)
  far : Nat := 0                           -- consecutive samples beyond 1 µs (R269)
  locked : Bool := false                   -- Locked at some time since Reset (R269)
  valid : Bool := false                    -- the selected source is valid (R268)
  sampled : Bool := false                  -- the selected source has given a sample (R288)
  offset : Int := 0                        -- its last offset, ns (R268)
  sampleAt : Nat := 0                      -- clock of its last sample (R268)
  irigBad : Nat := 0                       -- consecutive IRIG-B frames that failed decode (R268)
  irigAt : Nat := 0                        -- clock of the last IRIG-B frame (R268)
  words : List (Nat × Int) := []           -- frequency words in Locked, newest first: since when, ppt (R269)
  slew : Int := 0                          -- phase still to slew, ppm·ns; positive forward (R267)
  frac : Int := 0                          -- rate adjustment gathered below 1 ns, 1e-12 ns (R267)
  limitSince : Option Nat := none          -- clock since which the frequency word is at its limit (R278)
  plFar : Nat := 0                         -- consecutive cycles with |pl_offset| above PlOffsetLimit (R278)
  heldFault : Bool := false                -- the fault came in Holdover (R284)
  holdAt : Nat := 0                        -- clock of the entry to Holdover (R269)
  pps : Bool := false                      -- PPS_OUT is high (R276)
  ppsAt : Nat := 0                         -- clock of its rise (R276)
  ptpGm : Nat := 0                         -- grandmaster identity of the PTP source, 64 bits (R272)
  deriving DecidableEq, Repr

/-- What PL time transfer and the journal push hold per trunk. -/
structure PlTime where
  txs : List (Nat × Nat) := []             -- the last own markers: low 16 bits of the cycle, stamp (R271)
  rxs : List (Nat × Nat) := []             -- the last far markers stamped (R271)
  got : Bool := false                      -- this cycle has given a sample (R268)
  missed : Nat := 0                        -- consecutive cycles without one (R268)
  had : Bool := false                      -- the trunk has given a sample since Trained (R268)
  utc : Option (Nat × Nat) := none         -- TaiUtcOffset and byte 6 of the last time-status message (R272)
  gm : Nat := 0                            -- grandmaster identity of that message, 64 bits (R272)
  statusSent : Option Nat := none          -- cycle of the last time-status message sent (R272)
  shift : Int := 0                         -- station time less the clock, as the scheduler last followed it (R157)
  pushes : List (Nat × List Nat × Nat) := []  -- push cells not acknowledged: last index, indices, clock of sending (R283)
  cells : Nat := 0                         -- push cells sent in this cycle (R283)
  pushSerial : Option Nat := none          -- RemoteSerial of the hub that acknowledged last (R283)
  ring : List (Nat × Bytes) := []          -- the far hub's entries stored here, newest first: index, 32 bytes (R283)
  deriving DecidableEq, Repr

/-- An NVMe submission queue (R295). -/
structure Sq where
  size : Nat := 1024                       -- entries (R295)
  head : Nat := 0                          -- next entry to fetch (R295)
  tail : Nat := 0                          -- the doorbell's value (R295)
  cq : Nat := 0                            -- its completion queue (R295)
  deriving DecidableEq, Repr

/-- An NVMe completion queue (R295). -/
structure Cq where
  size : Nat := 1024                       -- entries (R295)
  tail : Nat := 0                          -- next entry to post (R295)
  vector : Nat := 0                        -- MSI-X vector (R297)
  ien : Bool := true                       -- interrupts enabled (R297)
  deriving DecidableEq, Repr

/-- An I/O command forwarded and not yet completed (R297). -/
structure NvCmd where
  tunnel : Nat                             -- its namespace's tunnel (R297)
  tag : Nat                                -- the number under which it crossed (R297)
  sq : Nat                                 -- its submission queue (R297)
  cid : Nat                                -- its command identifier (R297)
  op : Nat                                 -- opcode (R297)
  prps : List Nat := []                    -- the PRP entries of the server's buffer (R297)
  want : Nat := 0                          -- bytes that a read returns (R298)
  got : Nat := 0                           -- bytes of them that came (R298)
  damaged : Bool := false                  -- a data unit of it is damaged (R298)
  deriving DecidableEq, Repr

/-- A command at a drive (R297). -/
structure DrCmd where
  tunnel : Nat                             -- its tunnel; 0 for a storage flush (R298)
  tag : Nat                                -- its number on the tunnel (R297)
  own : Nat                                -- its number at the drive (R297)
  nsid : Nat                               -- namespace on the drive (R297)
  op : Nat                                 -- opcode (R297)
  bytes : Nat := 0                         -- length of its data (R297)
  deriving DecidableEq, Repr

/-- A command that waits for room in the staging region (R294, R314). -/
structure QdCmd where
  tunnel : Nat                             -- its tunnel (R297)
  tag : Nat                                -- its number on the tunnel (R297)
  nsid : Nat                               -- namespace on the drive (R297)
  op : Nat                                 -- opcode (R297)
  slba : Nat                               -- first block (R297)
  blocks : Nat                             -- blocks (R297)
  since : Nat                              -- clock at its arrival (R314)
  deriving DecidableEq, Repr

/-- A window read that crosses (R304). -/
structure WinRead where
  tag : Nat                                -- its tag (R300)
  win : Nat                                -- its window (R300)
  reqTag : Nat                             -- the requester's tag (R304)
  addr : Nat                               -- first local address asked (R304)
  len : Nat                                -- bytes asked by the requester (R304)
  reserve : Nat                            -- bytes reserved in the completion store (R304)
  runs : Nat                               -- runs whose completion has not come (R302)
  data : List (Nat × Nat) := []            -- bytes that came, by local address, canonical from 0 (R302)
  status : Nat := 0                        -- worst status that came (R304)
  since : Nat := 0                         -- clock at the request (R304)
  locked : Bool := false                   -- a locked read (R306)
  fetch : Bool := false                    -- a read ahead whose excess is stored (R303)
  deriving DecidableEq, Repr

/-- A request unit that waits while another tunnel's locked sequence holds its port, with what the bus answers (R306). -/
structure WinUnit where
  tunnel : Nat                             -- its tunnel (R304)
  unit : Bytes                             -- header and data (R300)
  status : Nat                             -- the bus's answer (R300)
  data : Bytes                             -- the bytes that the bus answers (R300)
  deriving DecidableEq, Repr

/-- A unit of a storage tunnel that an adapter took (R297, R300, R304). -/
inductive InUnit where
  | window (damaged : Nat) (unit : Bytes) (status : Nat) (data : Bytes)
  | completion (damaged : Nat) (unit : Bytes)
  | storage (u : SUnit) (damaged : Bool)
  deriving DecidableEq, Repr

/-- A unit that waits for an earlier sequence of its tunnel (R297, R304). -/
structure SeqUnit where
  tunnel : Nat                             -- its tunnel (R297)
  seq : Nat                                -- the sequence of its first cell (R297)
  unit : InUnit                            -- the unit (R297)
  deriving DecidableEq, Repr

/-- A PCIe port beyond its objects. -/
structure Pcie where
  role : Option Nat := none                -- PortRole as it stood when the hub last left Setup (R292)
  master : Bool := true                    -- Bus Master Enable (R293)
  d3hot : Bool := false                    -- held in D3hot (R293)
  readSize : Nat := 512                    -- Max_Read_Request_Size, bytes (R292, R300)
  aer : Nat := 0                           -- uncorrectable errors of AER: 12 poisoned, 15 CA, 19 ECRC, 20 UR (R292)
  initAt : Nat := 0                        -- clock at the begin of the drive's initialisation (R294)
  sqs : List (Nat × Sq) := [(0, {})]       -- submission queues (R295)
  cqs : List (Nat × Cq) := [(0, {})]       -- completion queues (R295)
  aers : List Nat := []                    -- Asynchronous Event Requests held, by command identifier (R295)
  notice : Bool := false                   -- a notice waits for a request (R295)
  feats : List (Nat × Nat) := []           -- features set, by identifier (R295)
  cmds : List NvCmd := []                  -- I/O commands forwarded (R297)
  drive : List DrCmd := []                 -- commands at the drive (R297)
  spaces : List (Nat × Nat × Nat) := []    -- the drive's active namespaces: NSID, blocks, log2 block size (R294)
  queued : List QdCmd := []                -- commands that wait for staging room, oldest first (R294)
  staged : List Nat := []                  -- tags of writes whose data is damaged, by tunnel × 65536 + tag (R298)
  landed : List (Nat × Nat) := []          -- bytes of writes that came, by tunnel × 65536 + tag (R298)
  lockTunnel : Nat := 0                    -- tunnel whose locked sequence holds the port, 0 none (R306)
  lockWin : Nat := 0                       -- its source window (R306)
  waiting : List WinUnit := []             -- units that wait for the end of the lock, oldest first (R306)
  deriving DecidableEq, Repr

/-- Storage and bridge beyond the objects. -/
structure Store where
  ports : List (Nat × Pcie) := []          -- P0 and P1, canonical (R292)
  info : List (Nat × Nat × Nat) := []      -- namespace information by tunnel: blocks, log2 block size (R295)
  nextTag : Nat := 0                       -- next tag (R300)
  reads : List WinRead := []               -- window reads that cross, oldest first (R304)
  fenced : List Nat := []                  -- fenced tunnels (R305)
  wins : List (Nat × List (Nat × Nat)) := [] -- window values in effect, by window and subindex (R313)
  lockedWins : List Nat := []              -- windows that hold a lock (R306)
  fetched : List (Nat × Nat × Nat × Bytes) := []  -- prefetch stores: window, local address, clock, bytes (R303)
  hurt : List (Nat × Nat × Nat) := []      -- damage that the hub judged: tunnel, sequence, 1 lost, 2 tail-bad, 3 truncated (R298, R305)
  held : List SeqUnit := []                -- units that wait for an earlier sequence, oldest first (R297, R304)
  writer : Nat := 0                        -- ps on the clock to which the engine's staging writes take it at StagingLimit (R294)
  flushLeft : Nat := 0                     -- namespaces a storage flush still waits for (R298)
  flushed : Nat := 0                       -- namespaces it has flushed (R298)
  deriving DecidableEq, Repr

/-- A CAN port beyond its objects. -/
structure CanPort where
  tx : List CanFrame := []                 -- transmit queue, at most 64 frames, highest priority first (R318)
  second : Nat := 0                        -- second of the gateway frames counted, clock in s (R316)
  frames : Nat := 0                        -- gateway frames in it (R316)
  tec : Nat := 0                           -- transmit error counter of ISO 11898-1 (R318)
  rec_ : Nat := 0                          -- receive error counter of ISO 11898-1 (R318)
  deriving DecidableEq, Repr

/-- A map entry beyond its objects. -/
structure MapEntry where
  cfg : List (Nat × Nat) := []             -- subindexes 0x02-0x15 in effect (R332)
  updated : Nat := 0                       -- clock of the last source update (R327)
  lastSent : Nat := 0                      -- Value last packed (R326)
  everSent : Bool := false                 -- a value has been packed (R326)
  stales : Nat := 0                        -- transitions into stale (R327)
  periodAt : Nat := 0                      -- clock at the Period's begin (R326)
  deriving DecidableEq, Repr

/-- A CanTxFrame beyond its objects. -/
structure CanTx where
  last : Option Nat := none                -- clock of its last transmission (R328)
  deferred : Bool := false                 -- a trigger waits for the inhibit's end (R328)
  cycleAt : Nat := 0                       -- clock at the CycleTime's begin (R328)
  deriving DecidableEq, Repr

/-- A GOOSE publisher beyond its objects. -/
structure GoosePub where
  st : Nat := 1                            -- stNum (R329)
  sq : Nat := 0                            -- sqNum of the next frame (R329)
  at_ : Nat := 0                           -- station time of the last change (R329)
  interval : Nat := 0                      -- interval to the next repeat, ms; 0 none runs (R329)
  sentAt : Nat := 0                        -- clock of the last frame (R329)
  members : List (Nat × Nat × Nat × Nat) := []  -- packed members: member, value, quality, ValueTime (R328, R329)
  deriving DecidableEq, Repr

/-- A GOOSE subscription beyond its objects. -/
structure GooseSub where
  alive : Bool := false                    -- a frame is accepted and has not expired (R330)
  heard : Bool := false                    -- a frame has been accepted (R330)
  st : Nat := 0                            -- stNum of the last frame (R330)
  sq : Nat := 0                            -- sqNum of the last frame (R330)
  tal : Nat := 0                           -- its timeAllowedToLive, ms (R330)
  at_ : Nat := 0                           -- clock of its acceptance (R330)
  badRev : Nat := 0                        -- frames that failed confRev alone (R330)
  badSeq : Nat := 0                        -- frames whose sqNum repeated or stepped back (R330)
  deriving DecidableEq, Repr

/-- A UART beyond its objects. -/
structure Uart where
  rx : List (Nat × Nat × Bytes) := []      -- closed units in the receive FIFO of 1 KiB: flags, stamp, bytes (R319, R320)
  busyTo : Nat := 0                        -- clock at which the transmit FIFO is empty and the turnaround over (R319, R320)
  heardAt : Nat := 0                       -- clock of the last byte received (R320)
  driving : Bool := false                  -- Un_DE is asserted (R320)
  rts : Bool := false                      -- Un_RTS_N is asserted (R319)
  deriving DecidableEq, Repr

/-- A field unit that waits for an earlier sequence of its tunnel (R322). -/
structure FieldUnit where
  tunnel : Nat                             -- its tunnel (R322)
  seq : Nat                                -- its sequence (R322)
  unit : Bytes                             -- header and content (R323)
  bad : Bool                               -- tail-bad (R322)
  deriving DecidableEq, Repr

/-- The field function beyond its objects. -/
structure Field where
  cans : List (Nat × CanPort) := []        -- CAN ports, canonical (R315)
  uarts : List (Nat × List Bytes) := []    -- units waiting to be sent by UART, at most 16 (R320)
  lines : List (Nat × Uart) := []          -- UART lines and FIFOs, canonical (R319)
  held : List FieldUnit := []              -- units that wait for an earlier sequence, in order (R322)
  batch : Option (List Nat) := none        -- CanTxFrames triggered by the source at work, while it is (R332)
  maps : List (Nat × MapEntry) := []       -- map entries, canonical (R324)
  txs : List (Nat × CanTx) := []           -- CanTxFrames, canonical (R328)
  pubs : List (Nat × GoosePub) := []       -- GOOSE publishers, canonical (R329)
  subs : List (Nat × GooseSub) := []       -- GOOSE subscriptions, canonical (R330)
  records : List (Nat × List (Nat × Bytes)) := []  -- records gathered by map block, with their entries, oldest first (R328)
  badUnits : Nat := 0                      -- tail-bad units discarded (R322)
  deriving DecidableEq, Repr

/-- What the security functions hold in fuses, in AON and beside the objects. -/
structure Security where
  life : Nat := 0                          -- life-cycle antifuses, 2 bits (R341)
  root : Nat := 0                          -- root antifuses, 256 bits; 0 unprogrammed (R339)
  check : Nat := 0                         -- the root's check value in the antifuses, 32 bits (R339)
  blocked : Bool := false                  -- the root read port is blocked until the next Reset (R352)
  custHash : Nat := 0                      -- customer key hash fuses, 384 bits (R350)
  custDone : Bool := false                 -- that hash is programmed (R350)
  latched : Nat := 0                       -- tamper latches in AON, 9 bits (R351)
  active : Nat := 0                        -- tamper sources active now, 9 bits (R360)
  lock : Bool := false                     -- TamperLock in AON (R351)
  cold : Bool := false                     -- AonColdStart (R353)
  decommission : Bool := false             -- decommission request in the guard die's one-time cells (R353)
  events : Nat := 0                        -- TamperEvents in MRAM, 32 bits (R351)
  lastTime : Nat := 0                      -- LastTamperTime (R360)
  lastSource : Nat := 0                    -- LastTamperSource (R360)
  asleep : List (Nat × Nat × Nat) := []    -- alarms while the hub die slept: source, action, clock (R353)
  actions : List (Nat × Nat) := []         -- TamperAction 0-8, and 9 TamperFilter, as copied into AON, where not the default (R360)
  marks : List Nat := []                   -- slots with a restore mark in the stored copies (R347, R348)
  stored : Bool := false                   -- a stored copy holds area 4 (R347)
  fresh : Bool := true                     -- no Boot in Provisioning or Operational yet since the part shipped or area 1 or 4 was restored (R347)
  asks : List (Nat × Bytes × Bool) := []   -- Vanguri requests that wait, oldest first: trunk, unit, a tamper alarm cuts it; at most 4 a trunk (R355)
  deriving DecidableEq, Repr

/-- An event of the guard die while the hub die has no power (R374). -/
structure QEv where
  code : Nat                               -- event code (R386)
  inst : Nat                               -- instance (R386)
  sev : Nat                                -- severity (R386)
  src : Nat                                -- interrupt source (R386)
  args : Bytes                             -- its arguments (R386)
  clock : Nat                              -- clock at the event (R374)
  deriving DecidableEq, Repr

/-- The period of a feed's reverse turn-offs that were queued, or gathered, in Reset (R364, R479). -/
structure TurnOff where
  feed : Nat := 0                          -- 0 feed A, 1 feed B (R364)
  since : Nat := 0                         -- clock at the period's begin (R479)
  count : Nat := 0                         -- occurrences gathered in it (R479)
  first : Nat := 0                         -- clock of the first of them (R479)
  deriving DecidableEq, Repr

/-- The guard die's power entry beyond the objects (R363). -/
structure Power where
  want : List Nat := []                    -- breakers with a standing on-request (R372)
  overV : Bool := false                     -- the inlet was cut off by over-voltage (R366)
  delays : List (Nat × Nat) := []          -- RetryDelay in ms as each trip took it, canonical (R372)
  queue : List QEv := []                   -- events of the unpowered hub, oldest first, at most 16 (R374)
  lost : Bool := false                     -- PD0 cold-started since the last Boot (R374)
  kind : Nat := 1                          -- reset kind in AON (R452)
  groupGood : Bool := false                -- every rail of the group that ramps is good (R378)
  turned : List TurnOff := []              -- periods of reverse turn-offs that began in Reset, at most one a feed (R364)
  failed : List Nat := []                  -- switchable domains whose power-good has failed (R20, R21)
  deriving DecidableEq, Repr

/-- A timer of pair B (R394). -/
structure AppTimer where
  due : Nat := 0                           -- due time, 64 bits (R394)
  period : Nat := 0                        -- TMR_PERIOD in ns (R394)
  enable : Bool := false                   -- TMR_CTRL bit 0 (R394)
  periodic : Bool := false                 -- TMR_CTRL bit 1 (R394)
  overruns : Nat := 0                      -- TMR_OVERRUNS (R394)
  slips : Nat := 0                         -- TMR_SLIPS (R394)
  deriving DecidableEq, Repr

/-- Pair B and its local bus beyond the objects (R387). -/
structure App where
  tcm : List Host.Cell := []               -- tightly coupled memory, 256 KiB, canonical; unlisted reads 0 (R388)
  sram : List Host.Cell := []              -- pair B's partition of the shared SRAM, canonical (R388)
  mram : List Host.Cell := []              -- MRAM application area, canonical (R388)
  secVersion : Nat := 0                    -- security version of the loaded image (R448)
  measure : Bytes := []                    -- measurement of the loaded image (R442)
  gwAddress : Nat := 0                     -- GW_ADDRESS, 24 bits (R390)
  gwLength : Nat := 0                      -- GW_LENGTH (R390)
  gwData : Bytes := []                     -- GW_DATA (R390)
  gwOp : Nat := 0                          -- the request held: 0 none, 1 read, 2 write; GW_STATUS busy (R390)
  gwDone : Bool := false                   -- GW_STATUS done (R390)
  gwOverrun : Bool := false                -- GW_STATUS overrun (R390)
  jpIndex : Option Nat := none             -- JP_READ_INDEX; none: OldestIndex (R391)
  jpSince : Nat := 0                       -- clock at which the counted second began (R391)
  jpCount : Nat := 0                       -- JP_WRITE entries in that second (R391)
  hostMsg : Bytes := []                    -- HOST_MSG; its length is HOST_MSG_LEN (R392)
  posted : Bool := false                   -- a host post waits for HOST_MSG_TAKE (R392)
  stime : Nat := 0                         -- the station time latched by STIME_LO (R394)
  timers : List (Nat × AppTimer) := []     -- timers 0-3, canonical (R394)
  stop : Nat := 0                          -- waits for the gateway request at the engine: 1 halt, 2 restart, 3 Off (R387)
  stopBy : Path := .gateway                -- the path of the access that asked for it (R478)
  stopAt : Nat := 0                        -- station time of that access (R58)
  deriving DecidableEq, Repr

/-- An erase block of the boot flash's log area (R429). -/
structure NorBlock where
  erases : Nat := 0                        -- erase count in its header (R429)
  seq : Nat := 0                           -- sequence number in its header; 0 free (R429)
  log : Nat := 0                           -- 0 the journal archive, 1 the telemetry log (R429)
  used : Nat := 0                          -- bytes written (R429)
  retired : Bool := false                  -- never used again (R429)
  deriving DecidableEq, Repr

/-- Minimum, maximum and mean of a telemetry quantity since the last record (R430). -/
structure Gauge where
  low : Int := 0                           -- minimum (R430)
  high : Int := 0                          -- maximum (R430)
  sum : Int := 0                           -- sum of the samples (R430)
  count : Nat := 0                         -- samples (R430)
  deriving DecidableEq, Repr

/-- The safety functions' and background services' state beyond the objects. -/
structure SafetyState where
  fresh : Bool := false                    -- pair A refreshed the SAFE_PULSE permission within 10 ms (R411)
  link : Bool := true                      -- the die-to-die link runs (R12, R411)
  lowSince : Nat := 0                      -- clock at which SAFE_PULSE went low (R411)
  lockB : Bool := false                    -- a pair-B lockstep mismatch is held (R412)
  lockA : Bool := false                    -- a pair-A mismatch and no refreshed permission since (R431)
  shadowNext : Nat := 0                    -- block that the shadow checker recomputes next, 0-255 (R414)
  delays : List Nat := []                  -- sentinels' delays at the reference point, as last reported (R420)
  baseline : List Nat := []                -- their baseline in MRAM; empty before the first Run (R420)
  baseTime : Nat := 0                      -- BaselineTime in MRAM (R420)
  vdd : Nat := 750                         -- VDD_CORE setpoint in MRAM, mV (R422)
  best : List (Nat × Nat) := []            -- best CTLE by trunk and lane as the last sweep found it, canonical (R423)
  nor : List (Nat × NorBlock) := []        -- log blocks 0-95, canonical (R429)
  norSeq : Nat := 0                        -- last sequence number given (R429)
  norWait : Nat := 0                       -- bytes waiting in SRAM for an erase, at most 256 KiB (R429)
  norErased : List Nat := []               -- clocks of the erases of the last hour (R429)
  gauges : List (Nat × Gauge) := []        -- telemetry since the last record, by quantity, canonical (R430)
  record : List (Nat × Gauge) := []        -- the last telemetry record written (R430)
  late : List Nat := []                    -- tasks whose running pass is reported behind (R427)
  guards : List (Nat × Nat) := []          -- proposed DRAM guard cycles by channel (R424, R426)
  pins : List (Nat × Nat × Nat) := []      -- pinned loops: loop, bound and wanted value (R425)
  clearedAt : Option Nat := none           -- clock at which command 1 cleared the latches, for 1 ms (R431, R433)
  again : Nat := 0                         -- latches set again since, common ones from bit 8 (R431)
  deriving DecidableEq, Repr

/-- A stored configuration (R51): a copy in MRAM or the backup in flash. -/
structure Copy where
  schema : Nat := 0                        -- schema version (R51)
  count : Nat := 0                         -- write count (R51)
  good : Bool := true                      -- its CRC-32C fits (R51)
  head : Bool := false                     -- the role whose defaults its absent values are (R4)
  areas : List Nat := []                   -- areas 2, 3 and 4 that it holds (R50)
  objs : List (Nat × Nat) := []            -- its values, canonical (R51)
  strs : List (Nat × Bytes) := []          -- its strings and long octet values, canonical (R51)
  deriving DecidableEq, Repr

/-- A record of the orphan area (R451). -/
structure Orphan where
  schema : Nat                             -- schema version under which it was stored (R451)
  key : Nat                                -- its old index and subindex (R451)
  type : Nat                               -- type code (R451)
  value : Bytes                            -- its value (R451)
  cause : Nat                              -- 1 not in the new schema, 2 outside range, 3 wrong size or type (R451)
  image : Nat                              -- version of the image that made it (R451)
  deriving DecidableEq, Repr

/-- A DFU download, in Lift or in service (R446, R447). -/
structure Dfu where
  alt : Nat := 0                           -- alternate setting (R445)
  next : Nat := 0                          -- block expected next (R446)
  header : Bytes := []                     -- the image's header, held until the last block (R440)
  state : Nat := 2                         -- bState of DFU 1.1 (R445)
  status : Nat := 0                        -- bStatus of DFU 1.1 (R445)
  deriving DecidableEq, Repr

/-- What MRAM, fuses and the boot flash hold for start-up, and start-up's own state (R439). -/
structure Boot where
  flash : List Host.Cell := []             -- boot NOR flash, canonical; an unlisted byte is erased, 0xFF (R440)
  preferred : Nat := 0                     -- PreferredSlot, 0 A, 1 B (R443)
  trial : Nat := 0                         -- TrialSlot, 0 none, 1 A, 2 B (R443)
  failed : Nat := 0                        -- FailedBoots (R443)
  lastSlot : Nat := 0                      -- LastSlotTried, 0 A, 1 B (R443)
  failCause : Nat := 0                     -- LastFailCause (R455)
  liftCause : Nat := 0                     -- LiftCause of the last Lift (R455)
  vendor : Nat := 0                        -- DeviceVendorId at the last store of area 1 or 3 (R445)
  product : Nat := 0                       -- DeviceProductId at that store (R445)
  notes : List QEv := []                   -- failures and Lift entries to be journalled, oldest first (R444)
  rollback : Nat := 0                      -- RollbackCount in fuses (R448)
  appFloor : Nat := 0                      -- AppSecurityFloor in MRAM (R448)
  version : Nat := 0                       -- version of the running image (R455)
  secVersion : Nat := 0                    -- its security version (R455)
  schema : Nat := 0                        -- its schema version (R455)
  measure : Bytes := []                    -- its measurement (R442)
  released : Nat := 0                      -- clock at which the hub-die reset was released (R455)
  copyA : Option Copy := none              -- first configuration copy in MRAM (R51)
  copyB : Option Copy := none              -- second configuration copy in MRAM (R51)
  backup : Option Copy := none             -- configuration backup in the boot flash (R449)
  backupDue : Option Copy := none          -- a committed copy not yet backed up (R449)
  restore : List Nat := []                 -- areas marked for defaults at the next Reset (R50)
  chosen : Nat := 0                        -- source of this Boot's configuration: 1 MRAM copy, 2 backup, 3 defaults (R450)
  from_ : Option Copy := none              -- the copy chosen, not yet migrated (R450)
  used2 : Option Copy := none              -- the stored copy of area 2 in use; none: its defaults (R44, R51)
  used4 : Option Copy := none              -- the stored copy of area 4 in use; none: its defaults (R51, R354)
  passed : Option (Nat × Nat) := none      -- schema of a newer copy passed over, and the schema used (R450)
  orphans : List Orphan := []              -- the orphan area, oldest first, at most 1024 (R451)
  domains : List Nat := []                 -- domains still to power up after Boot (R380)
  lift : Dfu := {}                         -- the download in Lift (R446)
  stage : Dfu := {}                        -- the download in service (R447)
  stageBad : Bool := false                 -- a Reset cut a staging download (R453)
  resetAsked : Bool := false               -- command 4 of FirmwareStatus waits to reset (R453)
  deriving DecidableEq, Repr
/-- The machine. -/
structure State where
  part : Part                              -- the part: variant, serial, straps (R1, R3, R32)
  head : Bool                              -- the role sampled at Boot, true head (R3)
  objs : List (Nat × Nat) := []            -- the dictionary's values, canonical, by index and subindex (R27)
  strs : List (Nat × Bytes) := []          -- values of strings and long octet objects, canonical (R28)
  clock : Nat := 0                         -- nanoseconds of CI1 since power-on, model's own
  station : Nat := 0                       -- station time, TIME64 (R10)
  freeCount : Nat := 0                     -- draws of free values so far, model's own
  timers : List (Timer × Nat) := []        -- running timers and the clock at their start
  sessions : List (Nat × Session) := []    -- sessions by path and slot, canonical (R33)
  lockouts : List (Nat × Lockout) := []    -- lockouts by path code, canonical (R36)
  sessionCounter : Nat := 0                -- last SessionId granted, 16 bits (R34)
  cmds : List (Nat × CmdRec) := []         -- the commands of the command blocks, canonical, by index (R56)
  irq : Irq := {}                          -- the interrupt controller (R395)
  jour : Journal := {}                     -- the journal (R281)
  rates : List Rate := []                  -- rate-limited events gathering (R479)
  sent : List Out := []                    -- what the hub has sent, newest first, model's own
  pending : List Instr := []               -- commands waiting, first in first out, model's own
  canOpen : CanOpen := {}                  -- CANopen on C0 (R43)
  modeHeld : List (Nat × Nat × Path × Nat) := [] -- mode writes held during a switch: function, value, path, station time (R55, R58)
  stateHeld : List (Nat × Path × Nat) := [] -- state requests held during a transition, oldest first, with the station time (R8, R58)
  trunks : List (Nat × Trunk) := []        -- trunks, canonical (R59)
  tunnels : List (Nat × Tunnel) := []      -- tunnels, canonical; tunnels 1-4 by trunk above 0x1000 (R95)
  fabric : Fabric := {}                    -- the fabric (R122)
  scheds : List (Nat × Sched) := []        -- schedulers by trunk, canonical (R150)
  disps : List (Nat × Disp) := []          -- display outputs, canonical (R176)
  usb : UsbHub := {}                       -- the USB hub function and relays (R215)
  svc : SvcDev := {}                       -- the service-port device (R231)
  pd : Pd := {}                            -- the service port's power (R242)
  time : TimeBase := {}                    -- station time (R267)
  eth : Eth := {}                          -- Ethernet ports, pairs and nodes (R261)
  pl : List (Nat × PlTime) := []           -- time transfer and journal push by trunk, canonical (R271)
  stor : Store := {}                       -- PCIe ports, queue engine and windows (R292)
  dram : List Host.Cell := []              -- external DRAM's bytes, canonical; an unlisted byte reads 0 (R11, R294)
  fld : Field := {}                        -- CAN, serial ports and the signal gateway (R315)
  canNode : Nat := 127                     -- the node ID in effect on C0 (R45)
  keys : List (Nat × Nat) := []            -- key material by slot, engine keys among it, canonical (R343)
  secu : Security := {}                     -- fuses, AON and tamper (R339)
  power : Power := {}                      -- power entry (R363)
  app : App := {}                          -- pair B (R387)
  safety : SafetyState := {}               -- safety functions and background services (R408)
  boot : Boot := {}                        -- start-up and update (R439)
  deriving DecidableEq, Repr

/-- The hub right after reset is asserted at power-on (R6, R7): device state Reset, every object at its default
(R52), nothing stored, nothing waiting. The part is a QH7-34 whose ROLE_HEAD strap is high. -/
def State.reset : State where
  part := { qh34 := true, revision := 0xA1, serial := 1, dramBytes := 68719476736, straps := true }
  head := false

end Sys2Proof.Machine
end

