-- ==== Sys2Proof/Machine/Ops.lean ====
section
/-!
DEFINITION. The named operations over the hub's state: objects, counters, timers, free values and what is sent.
-/

set_option Elab.async false

namespace Sys2Proof.Machine

open Sys2Proof

/-- What a command's meaning answers. -/
abbrev Ans := Host.Outcome State Fault Refusal

/-- A meaning that names a unit by its number: a number that names none stops the machine. -/
def onUnit (known : Bool) (t : State) : Ans := if known then .next t else .fault .noSuchUnit

/-- An event of a port, a channel or a trunk. A part without that port carries no cells on it and raises none of its
sources, so nothing changes (R2); a number that no part of the family has stops the machine. -/
def onPort (s : State) (has : Part → Bool) (t : State) : Ans :=
  if has s.part.full then .next (if has s.part then t else s) else .fault .noSuchUnit

/-- A request on a path. One with a session slot above 3 is malformed and not executed (R48); an object of an absent port
is judged as missing by the write itself (R2); a number that names no unit stops the machine. -/
def onPath (p : Path) (known : Bool) (s t : State) : Ans :=
  if known then .next (if p.ok then t else s) else .fault .noSuchUnit

/-- The value of the object with key `k` (R27). -/
def State.get (s : State) (k : Nat) : Nat := Sparse.get (objDefault s.part s.head k) s.objs k

/-- The object with key `k` given the value `v`. -/
def State.set (s : State) (k v : Nat) : State :=
  { s with objs := Sparse.put (objDefault s.part s.head k) k v s.objs }

/-- Several objects set, the first first. -/
def State.setAll (s : State) : List (Nat × Nat) → State
  | [] => s
  | (k, v) :: r => (s.set k v).setAll r

/-- The string object with key `k` (R28). -/
def State.str (s : State) (k : Nat) : Bytes := Sparse.get [] s.strs k

/-- The string object with key `k` given the bytes `v`. -/
def State.setStr (s : State) (k : Nat) (v : Bytes) : State := { s with strs := Sparse.put [] k v s.strs }

/-- The object is 1. -/
def State.flag (s : State) (k : Nat) : Bool := decide (s.get k = 1)

/-- A count of `n` more on an object of `bits` bits, where the spec does not say what happens at its end: past the
width the value is free. -/
def cnt (bits v n : Nat) : Nat := if v + n < 2 ^ bits then v + n else Config.counterOverflow bits (v + n) % 2 ^ bits

/-- A counter object counts `n` more (its width is the object's). -/
def State.count (s : State) (k n : Nat) : State := s.set k (cnt (8 * objSize (k / 256) (k % 256)) (s.get k) n)

/-- A counter object that stops at its maximum counts `n` more. -/
def State.countSat (s : State) (k n : Nat) : State :=
  s.set k (satAdd (8 * objSize (k / 256) (k % 256)) (s.get k) n)

/-- A counter object that wraps counts `n` more. -/
def State.countWrap (s : State) (k n : Nat) : State :=
  s.set k (wrapAdd (8 * objSize (k / 256) (k % 256)) (s.get k) n)

/-- The last object of a list read as present that is set to 0: counters cleared. -/
def State.clear (s : State) : List Nat → State
  | [] => s
  | k :: r => (s.set k 0).clear r

/-- Device states (R6). -/
def devReset : Nat := 0
def devBoot : Nat := 1
def devLift : Nat := 2
def devSetup : Nat := 3
def devRun : Nat := 4
def devMaintain : Nat := 5

/-- DeviceState (R32). -/
def State.dev (s : State) : Nat := s.get (ob 0x2000 1)

/-- A path reaches the dictionary: Setup, Run and Maintain (R6). -/
def State.reach (s : State) : Bool := decide (3 ≤ s.dev)

/-- Tunnels of the host carry traffic: Run and Maintain (R6). -/
def State.running (s : State) : Bool := decide (s.dev = 4 ∨ s.dev = 5)

/-- The power domain reads on (R20). -/
def State.domainOn (s : State) (dom : Nat) : Bool := decide (s.get (ob 0x2021 (dom + 1)) = 2)

/-- The power domain is switched off, or not yet on again: not on, and not in fault (R20, R21). -/
def State.domainOff (s : State) (dom : Nat) : Bool := decide (s.get (ob 0x2021 (dom + 1)) < 2)

/-- The mode of a function is host-assisted (R54). -/
def State.hostMode (s : State) (fn : Nat) : Bool := decide (s.get (ob 0x2010 fn) = 1)

/-- The time from 0 of the timer's start, if it runs. -/
def timerStart (t : Timer) : List (Timer × Nat) → Option Nat
  | [] => none
  | (t', c) :: r => if t = t' then some c else timerStart t r

/-- The timers without `t`. -/
def dropTimer (t : Timer) : List (Timer × Nat) → List (Timer × Nat)
  | [] => []
  | (t', c) :: r => if t = t' then dropTimer t r else (t', c) :: dropTimer t r

/-- The timer starts now, anew if it runs. -/
def State.start (s : State) (t : Timer) : State := { s with timers := (t, s.clock) :: dropTimer t s.timers }

/-- The timer stops. -/
def State.stop (s : State) (t : Timer) : State := { s with timers := dropTimer t s.timers }

/-- The timers stop. -/
def State.stopAll (s : State) : List Timer → State
  | [] => s
  | t :: r => (s.stop t).stopAll r

/-- The timer runs. -/
def State.timing (s : State) (t : Timer) : Bool := (timerStart t s.timers).isSome

/-- The timer runs and `ns` nanoseconds have passed since its start. -/
def State.due (s : State) (t : Timer) (ns : Nat) : Bool :=
  match timerStart t s.timers with
  | some c => decide (c + ns ≤ s.clock)
  | none => false

/-- Microseconds, milliseconds and seconds in nanoseconds. -/
def usec (n : Nat) : Nat := n * 1000
def msec (n : Nat) : Nat := n * 1000000
def sec (n : Nat) : Nat := n * 1000000000

/-- The hub sends. -/
def State.send (s : State) (o : Out) : State := { s with sent := o :: s.sent }

/-- The next draw number of a free value, and the state with the draw taken. -/
def State.draw (s : State) : Nat × State := (s.freeCount, { s with freeCount := s.freeCount + 1 })

/-- A step applied for each element. -/
def forAll {α : Type} (f : α → State → State) : List α → State → State
  | [], s => s
  | a :: r, s => forAll f r (f a s)

/-- A step taken only if the condition holds. -/
def onlyIf (c : Bool) (f : State → State) (s : State) : State := if c then f s else s

/-- What is gathered of rate adjustments beyond whole nanoseconds, taken into station time: the change and the rest, in
1e-12 ns (R267). -/
def wholeNs (frac : Int) : Int × Int :=
  if 1000000000000 ≤ frac then (1, frac - 1000000000000)
  else if frac ≤ -1000000000000 then (-1, frac + 1000000000000) else (0, frac)

/-- A nanosecond passes: the model's clock and, out of Reset, station time, which runs at the frequency word and slews
at no more than MaxSlew (R10, R19, R267). -/
def State.tick (s : State) : State :=
  let s := { s with clock := s.clock + 1 }
  if s.dev = devReset then s
  else
    let m : Int := s.get (ob 0x2F00 5)
    let d := max (-m) (min m s.time.slew)
    let (k, frac) := wholeNs (s.time.frac + sget 32 (s.get (ob 0x2F01 5)) + d * 1000000)
    { s with station := ((s.station : Int) + 1 + k).toNat, time := { s.time with slew := s.time.slew - d, frac } }

/-- Numbers from 0 below `n`. -/
def upTo (n : Nat) : List Nat := List.range n

/-- Little-endian fields of event arguments and messages. -/
def u8 (v : Nat) : Bytes := leBytes 1 v
def u16 (v : Nat) : Bytes := leBytes 2 v
def u32 (v : Nat) : Bytes := leBytes 4 v
def u64 (v : Nat) : Bytes := leBytes 8 v

end Sys2Proof.Machine
end

