-- ==== Sys2Proof/Machine/Flags.lean ====
section
/-!
DEFINITION. Interrupt sources, the journal, violations and command blocks: what the commands raise and record.
-/

set_option Elab.async false

namespace Sys2Proof.Machine

open Sys2Proof

/-- The trunk's own state. -/
def State.trunk (s : State) (t : Nat) : Trunk := Sparse.get {} s.trunks t

/-- The trunk's own state changed. -/
def State.updTrunk (s : State) (t : Nat) (f : Trunk → Trunk) : State :=
  { s with trunks := Sparse.put {} t (f (s.trunk t)) s.trunks }

/-- The pair a source is routed to: 0 none, 1 pair A, 2 pair B (R395). -/
def State.route (s : State) (src : Nat) : Nat := s.get (ob (irqIndex src) 2)

/-- The source belongs to a switchable domain that is off: it never becomes pending (R21, R406). C0 and the service
port's power stay powered (R20). -/
def State.srcOff (s : State) (src : Nat) : Bool :=
  if 32 ≤ src ∧ src < 64 then s.domainOff (4 + (src - 32) / 8)
  else if 96 ≤ src ∧ src < 128 then s.domainOff 8
  else if 128 ≤ src ∧ src < 168 then s.domainOff 12
  else if 176 ≤ src ∧ src < 208 then s.domainOff 10
  else if 208 ≤ src ∧ src < 240 then s.domainOff 11
  else if 241 ≤ src ∧ src < 256 then s.domainOff 13
  else false

/-- An event of a source sets its latch; a source routed to none has none; while CI2 is stopped the asynchronous
latch takes it (R396, R400). Source 0 means none. -/
def State.raise (s : State) (src : Nat) : State :=
  if src = 0 ∨ 384 ≤ src ∨ s.route src = 0 ∨ s.srcOff src then s
  else if s.irq.stopped then { s with irq := { s.irq with async := setBit s.irq.async src } }
  else { s with irq := { s.irq with latch := setBit s.irq.latch src } }

/-- The flags of a journal entry written now (R279). -/
def State.jFlags (s : State) : Nat :=
  s.get (ob 0x2F01 3) % 2 + (if s.get (ob 0x2F01 1) = 3 ∨ s.get (ob 0x2F01 1) = 4 ∨ s.time.heldFault then 2 else 0)

/-- The declarations of two regions of one output (R210). -/
def regionPair (e x : JEntry) : Bool :=
  let decl := fun (y : JEntry) => decide (y.code = 0x6040 ∨ y.code = 0x6041)
  decl e && decl x && decide (e.inst = x.inst)

/-- A waiting entry goes before one that arrived within 20 µs and has a later stamp, or the same stamp and a higher
code (R281); two regions declared in one line stay in the order of their numbers (R210; log entry 219). -/
def jBefore (e x : JEntry) : Bool :=
  decide (e.arrival < x.arrival + 20000) &&
  (decide (e.time < x.time) || (decide (e.time = x.time ∧ e.code < x.code) && !regionPair e x))

/-- An entry put into the ring in the order of R281, newest first. -/
def jInsert (e : JEntry) : List JEntry → List JEntry
  | [] => [e]
  | x :: r => if jBefore e x then x :: jInsert e r else e :: x :: r

/-- One entry written; a full ring loses its oldest (R281). -/
def Journal.add (j : Journal) (e : JEntry) : Journal :=
  { ring := (jInsert e j.ring).take 131072, next := wrapAdd 32 j.next 1, seq := wrapAdd 16 j.seq 1,
    written := cnt 64 j.written 1 }

/-- The arguments in portions of 16 bytes; at least one portion. -/
def argParts : Nat → Bytes → List Bytes
  | 0, b => [b.take 16]
  | n + 1, b => if b.length ≤ 16 then [b] else b.take 16 :: argParts n (b.drop 16)

/-- An event's entries written: arguments past 16 bytes go on in a further entry (R279, R479). -/
def Journal.addParts (j : Journal) (e : JEntry) : List Bytes → Journal
  | [] => j
  | [b] => j.add { e with args := fitBytes 16 b }
  | b :: r => (j.add { e with args := fitBytes 16 b, flags := e.flags ||| 4 }).addParts e r

/-- An event written to the journal with a given stamp. -/
def State.journalAt (s : State) (time code inst sev : Nat) (args : Bytes) : State :=
  { s with jour := s.jour.addParts { time, code, inst, sev, flags := s.jFlags, arrival := s.clock } (argParts 8 args) }

/-- An event happens that bears the station time of the access that caused it (R58): its entry is written (R281) and its
interrupt source is set; source 0 means none. -/
def State.evAt (s : State) (time code inst sev src : Nat) (args : Bytes) : State :=
  (s.journalAt time code inst sev args).raise src

/-- An event happens now. -/
def State.ev (s : State) (code inst sev src : Nat) (args : Bytes) : State := s.evAt s.station code inst sev src args

/-- The number of the cycle in which an occurrence falls: a trunk's transmit cycle, or the 125 µs interval of station
time for an occurrence at another port (R479). -/
def State.cycleOf (s : State) (clk : Nat) : Nat := if clk < 4 then (s.trunk clk).cycle else s.station / 125000

/-- The gathered entry's arguments (R479). -/
def Rate.args (r : Rate) : Bytes := r.head ++ (r.counts.map u32).flatten ++ r.tail

/-- The record of a rate-limited event and instance whose period is that of `clk` (R479). -/
def findRate (code inst clk : Nat) : List Rate → Option Rate
  | [] => none
  | r :: rs => if r.code = code ∧ r.inst = inst ∧ r.clk = clk then some r else findRate code inst clk rs

/-- The records without one. -/
def dropRate (code inst clk : Nat) : List Rate → List Rate
  | [] => []
  | r :: rs =>
    if r.code = code ∧ r.inst = inst ∧ r.clk = clk then dropRate code inst clk rs else r :: dropRate code inst clk rs

/-- A record put in place of the one with its code, instance and period. -/
def State.putRate (s : State) (r : Rate) : State := { s with rates := r :: dropRate r.code r.inst r.clk s.rates }

/-- The record's period has ended. -/
def State.rateDue (s : State) (r : Rate) : Bool :=
  if r.period = 0 then decide (s.cycleOf r.clk ≠ r.cycle) else decide (r.since + r.period ≤ s.clock)

/-- The end of a period: a gathering entry is written if there was an occurrence, and for a longer period a new one
starts; otherwise the record goes (R479). -/
def State.rateEnd (s : State) (r : Rate) : State :=
  if r.some_ then
    let s := s.journalAt r.first r.code r.inst r.sev r.args
    if r.period = 0 then { s with rates := dropRate r.code r.inst r.clk s.rates }
    else s.putRate { r with since := s.clock, counts := [], head := [], tail := [], some_ := false }
  else { s with rates := dropRate r.code r.inst r.clk s.rates }

/-- Counts added one by one, each stopping at 0xFFFF_FFFF (R479). -/
def addCounts : List Nat → List Nat → List Nat
  | a :: as, b :: bs => satAdd 32 a b :: addCounts as bs
  | [], bs => bs
  | as, [] => as

/-- An occurrence gathered into a record: values other than counts are those of the first (R479), but the tunnel of
EV_FABRIC_UNKNOWN_TUNNEL, which is the last (R149). -/
def Rate.gather (r : Rate) (time : Nat) (head : Bytes) (counts : List Nat) (tail : Bytes) : Rate :=
  if r.some_ then { r with counts := addCounts r.counts counts, head := if r.code = 0x4020 then head else r.head }
  else { r with first := time, head, counts, tail, some_ := true }

/-- The record, its period ended first if it has. -/
def State.rateNow (s : State) (code inst clk : Nat) : State :=
  match findRate code inst clk s.rates with
  | some r => if s.rateDue r then s.rateEnd r else s
  | none => s

/-- An occurrence of an event journalled at most once per `period` nanoseconds (R479): the source is raised at every
occurrence, the entry is written at once or gathered; `clk` tells apart instances that share a source instance. -/
def State.evRate (s : State) (code inst sev src period : Nat) (head : Bytes) (counts : List Nat) (tail : Bytes)
    (clk : Nat := 0) : State :=
  let s := (s.raise src).rateNow code inst clk
  match findRate code inst clk s.rates with
  | some r => s.putRate (r.gather s.station head counts tail)
  | none =>
    (s.journalAt s.station code inst sev (head ++ (counts.map u32).flatten ++ tail)).putRate
      { code, inst, sev, since := s.clock, period, clk }

/-- An occurrence of an event journalled once per cycle (R479): the entry is written at the end of the cycle; `clk` is
the trunk, or 4 for station time. -/
def State.evCycle (s : State) (code inst sev src clk : Nat) (head : Bytes) (counts : List Nat) (tail : Bytes) : State :=
  let s := (s.raise src).rateNow code inst clk
  match findRate code inst clk s.rates with
  | some r => s.putRate (r.gather s.station head counts tail)
  | none =>
    s.putRate (({ code, inst, sev, since := s.clock, clk, cycle := s.cycleOf clk } : Rate).gather
      s.station head counts tail)

/-- The session of a path (R33). -/
def State.session (s : State) (p : Path) : Session := Sparse.get {} s.sessions p.held

/-- The session of a path changed. -/
def State.updSession (s : State) (p : Path) (f : Session → Session) : State :=
  { s with sessions := Sparse.put {} p.held (f (s.session p)) s.sessions }

/-- A violation of the kind by an access made at `time` is counted, journalled and raised (R41, R42, R58). -/
def State.violateAt (s : State) (time : Nat) (p : Path) (index sub kind : Nat) : State :=
  let index := plainIndex index
  let r := (s.session p).rights
  let id := if r = 0 then 0 else (s.session p).id
  let s := ((s.countSat (ob 0x1F80 1) 1).countSat (ob 0x1F80 (1 + kind)) 1).countSat (ob 0x1F80 (9 + p.code)) 1
  let s := s.setAll [(ob 0x1F80 0x0D, index), (ob 0x1F80 0x0E, sub), (ob 0x1F80 0x0F, kind), (ob 0x1F80 0x10, time)]
  s.evAt time 0x1101 p.code (if kind = 3 then 2 else 1) 4
    (u16 index ++ u8 sub ++ u8 kind ++ u8 p.code ++ u8 r ++ u16 id ++ u32 (s.get (ob 0x1F80 1)))

/-- A violation by an access made now. -/
def State.violate (s : State) (p : Path) (index sub kind : Nat) : State := s.violateAt s.station p index sub kind

/-- What a command block's Status tells (R56). -/
def State.cmdStatus (s : State) (i : Nat) : Nat := s.get (ob i 0xF2)

/-- The command a block last accepted. -/
def State.cmd (s : State) (i : Nat) : CmdRec := Sparse.get {} s.cmds i

/-- A command of the block runs, and no abort of it has been taken: its commit point can be reached (R57). -/
def State.cmdRuns (s : State) (i : Nat) : Bool := decide (s.cmdStatus i = 1) && !(s.cmd i).undoing

/-- A command is accepted: Status 1, Result and CommitTime 0, CommandCount one more, in one step (R56). -/
def State.cmdAccept (s : State) (i v : Nat) (p : Path) : State :=
  let s := { s with cmds := Sparse.put {} i { value := v, path := p, at_ := s.station } s.cmds }
  (s.setAll [(ob i 0xF2, 1), (ob i 0xF3, 0), (ob i 0xF4, 0)]).countWrap (ob i 0xF5) 1

/-- The commit point: Status 2, the Result and the CommitTime are set, EV_OD_COMMAND_COMMITTED is journalled with the time
of the access that gave the command, and source 6 is set (R56-R58, R478). -/
def State.cmdCommit (s : State) (i result : Nat) : State :=
  let s := s.setAll [(ob i 0xF2, 2), (ob i 0xF3, result), (ob i 0xF4, s.station)]
  s.evAt (s.cmd i).at_ 0x1110 (s.cmd i).path.code 0 6
    (u16 (plainIndex i) ++ u32 (s.cmd i).value ++ u16 (s.get (ob i 0xF5)) ++ u64 (s.get (ob i 0xF4)))

/-- The command fails: Status 5 and a Result (R56). -/
def State.cmdFail (s : State) (i result : Nat) : State := s.setAll [(ob i 0xF2, 5), (ob i 0xF3, result)]

/-- An abort before the commit point is taken, and its undo runs until the hub next idles (R57; log entry 53). -/
def State.cmdUndoing (s : State) (i : Nat) (p : Path) : State :=
  { s with cmds := Sparse.put {} i { s.cmd i with undoing := true, abortPath := p, abortAt := s.station } s.cmds }

/-- The undo of an abort is done: Status 3 and EV_OD_COMMAND_ABORTED with the time of the abort (R57, R58, R478). -/
def State.cmdAborted (s : State) (i : Nat) : State :=
  let x := s.cmd i
  let s := { s.set (ob i 0xF2) 3 with cmds := Sparse.put {} i { x with undoing := false } s.cmds }
  s.evAt x.abortAt 0x1111 x.abortPath.code 1 0
    (u16 (plainIndex i) ++ u32 x.value ++ u8 x.abortPath.code ++ u8 0 ++ u16 (s.get (ob i 0xF5)))

end Sys2Proof.Machine
end

