-- ==== Sys2Proof/Machine/Latches.lean ====
section
/-!
DEFINITION. The latches of the safety functions and the SAFE_PULSE output (R409, R411), and the ends of sessions
(R36): what commands of many families set off.
-/

set_option Elab.async false

namespace Sys2Proof.Machine

open Sys2Proof

/-- The lowest-numbered condition of R411 that does not hold, counted from 1 in the order of the rule; 0 when
SAFE_PULSE may toggle. -/
def State.pulseFault (s : State) : Nat :=
  if s.dev < devSetup then 1
  else if !s.safety.fresh then 2
  else if !s.safety.link then 3
  else if s.get (ob 0x4400 3) ≠ 0 then 4
  else if s.get (ob 0x4400 2) % 16 &&& s.get (ob 0x4400 1) ≠ 0 then 5
  else if (s.get (ob 0x4400 1)).testBit 4 ∧ s.safety.lockB then 6
  else 0

/-- SAFE_PULSE follows its conditions: it stops when one fails and toggles again when all hold (R411). -/
def State.pulse (s : State) : State :=
  if s.pulseFault = 0 then
    if s.get (ob 0x4400 4) = 1 then s
    else
      let s := (s.set (ob 0x4400 4) 1).send (.pin "SAFE_PULSE" 2)
      s.ev 0xE041 0 1 327 (u32 ((s.clock - s.safety.lowSince) / 1000000))
  else if s.get (ob 0x4400 4) = 0 then s
  else
    let c := s.pulseFault
    let s := { (s.set (ob 0x4400 4) 0).send (.pin "SAFE_PULSE" 0) with
      safety := { s.safety with lowSince := s.clock } }
    s.ev 0xE040 0 4 327 (u16 c)

/-- An event of severity 4, remembered as the last dangerous one (R409, R433). -/
def State.danger (s : State) (code inst src : Nat) (args : Bytes) : State :=
  ((s.setAll [(ob 0x4400 0x0B, s.station), (ob 0x4400 0x0C, code)]).ev code inst 4 src args)

/-- A latch set within 1 ms of the commit point of SafetyStatus command 1 shows in its Result (R431, R433). -/
def State.setAgain (s : State) (bit : Nat) : State :=
  match s.safety.clearedAt with
  | none => s
  | some c =>
    if c + 1000000 < s.clock then { s with safety := { s.safety with clearedAt := none } }
    else
      let again := setBit s.safety.again bit
      { s.set (ob 0x4400 0xF3) (Config.code 0x4400 again % 2 ^ 32) with safety := { s.safety with again } }

/-- A detection sets the bit of safety function `k`, 0 to 3 for SF1 to SF4 (R409). -/
def State.latchSf (s : State) (k : Nat) : State :=
  ((s.set (ob 0x4400 2) (setBit (s.get (ob 0x4400 2)) k)).setAgain k).pulse

/-- A detection sets a bit of CommonLatched (R409, R433). -/
def State.latchCommon (s : State) (k : Nat) : State :=
  ((s.set (ob 0x4400 3) (setBit (s.get (ob 0x4400 3)) k)).setAgain (8 + k)).pulse

/-- A power-path detection is counted, latched as SF4 and journalled (R418). -/
def State.sf4Fault (s : State) (cause : Nat) (args : Bytes) : State :=
  (((s.count (ob 0x4400 9) 1).set (ob 0x4400 0x0A) cause).latchSf 3).danger 0xE030 cause 326 args

/-- An event of severity 4 journalled once per cycle, remembered as the last dangerous one (R409, R433). -/
def State.dangerCycle (s : State) (code inst src clk : Nat) (head : Bytes) (counts : List Nat) (tail : Bytes) : State :=
  (s.setAll [(ob 0x4400 0x0B, s.station), (ob 0x4400 0x0C, code)]).evCycle code inst 4 src clk head counts tail

/-- An event of severity 4 journalled at most once a second for its instance (R175, R479). -/
def State.dangerRate (s : State) (code inst src : Nat) (args : Bytes) : State :=
  (s.setAll [(ob 0x4400 0x0B, s.station), (ob 0x4400 0x0C, code)]).evRate code inst 4 src (sec 1) args [] []

/-- The tunnel is watched (R416). -/
def State.watched (s : State) (n : Nat) : Bool :=
  decide (n ≠ 0) && (upTo 32).any fun k => decide (s.get (ob 0x4410 (k + 1)) = n)

/-- The corrected errors of a memory (R413): 0 fabric buffer, 1 DRAM, 2 SRAM, 3 pair A's, 4 pair B's, 5 MRAM. -/
def State.memCorrected (s : State) (mem n : Nat) : State :=
  let s := if mem = 0 then s.count (ob 0x2500 7) n else s.count (ob 0x4420 (2 * mem - 1)) n
  let m := Config.code 0xE010 mem % 65536
  s.evRate 0xE010 m 1 324 (sec 1) (u16 m) [n] []

/-- An uncorrectable error of a memory at an address (R413); pair A's latches CommonLatched bit 3. -/
def State.memBad (s : State) (mem addr : Nat) : State :=
  let s := if mem = 0 then s.count (ob 0x2500 8) 1 else if mem ≤ 5 then s.count (ob 0x4420 (2 * mem)) 1 else s
  let m := Config.code 0xE010 mem % 65536
  let s := s.ev 0xE011 m 3 324 (u16 m ++ u64 addr)
  if mem = 3 then s.latchCommon 3 else s

/-- A session that holds rights returns to Guest with a cause of R36, by an access on the path `giver` made at station
time `time` (R58, R478). -/
def State.endSessionAt (s : State) (time : Nat) (p : Path) (cause : Nat) (giver : Path) : State :=
  let x := s.session p
  if x.rights = 0 then s
  else
    (s.updSession p fun x => { x with rights := 0 }).evAt time 0x1122 giver.code 1 5
      (u8 p.code ++ u8 p.slot ++ u8 x.rights ++ u8 x.grantCred ++ u16 x.id ++ u8 cause)

/-- The same at once. -/
def State.endSession (s : State) (p : Path) (cause : Nat) (giver : Path := p) : State :=
  s.endSessionAt s.station p cause giver

/-- The cause for which a held session returns to Guest by its limits: 2 idle, 3 age, 0 none (R36). -/
def State.overLimit (s : State) (p : Path) : Nat :=
  let x := s.session p
  if x.rights = 0 then 0
  else if x.lastAccess + msec (s.get (ob 0x1101 1)) < s.clock then 2
  else if x.granted + msec (s.get (ob 0x1101 2)) < s.clock then 3
  else 0

/-- A session past a limit returns to Guest before the next access on its path is judged (R36). -/
def State.settleSession (s : State) (p : Path) : State :=
  if s.overLimit p = 0 then s else s.endSession p (s.overLimit p)

/-- The rights that an access on the path carries now (R30, R36). -/
def State.rightsOf (s : State) (p : Path) : Nat := if s.overLimit p = 0 then (s.session p).rights else 0

/-- Every path and slot that holds a session (R33). -/
def allPaths : List Path := [.can, .tunnel 0, .tunnel 1, .tunnel 2, .tunnel 3, .service, .gateway]

/-- Tunnel 1's sessions that the trunk carried end when it leaves Trained (R36). -/
def State.endTrunkSessions (s : State) (t : Nat) : State :=
  forAll (fun (k : Nat) s => onlyIf (decide ((s.session (.tunnel k)).trunk = t)) (fun s => s.endSession (.tunnel k) 4) s)
    [0, 1, 2, 3] s

/-- A slot holds a valid tunnel key (R343, R104). -/
def State.tunnelKey (s : State) (slot : Nat) : Bool :=
  decide (slot ≠ 0 ∧ s.get (ob (slotIndex slot) 2) = 1 ∧ s.get (ob (slotIndex slot) 3) = 0 ∧
    s.get (ob (slotIndex slot) 4) = 2)

/-- The key material of a slot. -/
def State.key (s : State) (slot : Nat) : Nat := Sparse.get 0 s.keys slot

/-- Key material written into a slot. -/
def State.setKey (s : State) (slot v : Nat) : State := { s with keys := Sparse.put 0 slot v s.keys }

end Sys2Proof.Machine
end

