-- ==== Sys2Proof/Machine/FabricOps.lean ====
section
/-!
DEFINITION. The shared-memory switch: buffer cells, descriptors, egress queues, limits, red drop, truncation and the
discards at bounds (R122-R144).
-/

set_option Elab.async false

namespace Sys2Proof.Machine

open Sys2Proof

/-- The number of egress queue (p, c) (R123). -/
def qOf (p c : Nat) : Nat := 8 * p + c

/-- An egress queue. -/
def State.queue (s : State) (q : Nat) : Queue := Sparse.get {} s.fabric.queues q

/-- The fabric changed. -/
def State.updFabric (s : State) (f : Fabric → Fabric) : State := { s with fabric := f s.fabric }

/-- An egress queue changed. -/
def State.updQueue (s : State) (q : Nat) (f : Queue → Queue) : State :=
  s.updFabric fun x => { x with queues := Sparse.put {} q (f (s.queue q)) x.queues }

/-- How many descriptors hold a buffer cell; a truncation descriptor holds none (R130). -/
def heldDescs : List Desc → Nat
  | [] => 0
  | d :: r => (if d.buf.isSome then 1 else 0) + heldDescs r

/-- Occupancy of a queue (R131). -/
def State.occ (s : State) (q : Nat) : Nat := heldDescs (s.queue q).descs

/-- Limits and counters of a fabric port (R148). -/
def reservedKey (p c : Nat) : Nat := ob (0x2510 + p) (1 + c)
def maxKey (p c : Nat) : Nat := ob (0x2510 + p) (9 + c)
def profileKey (p c : Nat) : Nat := ob (0x2510 + p) (0x11 + c)
def portKey (p sub : Nat) : Nat := ob (0x2530 + p) sub

/-- A fabric event, at most once a second for the port; argument 16-17 is the port (R149). -/
def State.fabricEv (s : State) (code sev k p : Nat) (head : Bytes) (counts : List Nat) (tail : Bytes) : State :=
  s.evRate code p sev (64 + k) (sec 1) (u16 p ++ head) counts tail

/-- The power domain of a fabric port (R13, R20). -/
def portDomain (fp : Nat) : Nat :=
  if fp < 4 then 4 + fp else if fp < 12 then 10 else if fp < 14 then 11
  else if fp = 14 then 8 else if fp = 15 then 12 else if fp = 16 then 13 else if fp = 18 then 9 else 2

/-- A port that can take a descriptor: present, and its domain on (R125). -/
def State.portOn (s : State) (fp : Nat) : Bool := s.part.hasFabricPort fp && s.domainOn (portDomain fp)

/-- CellsInUse and its peak (R146). -/
def State.showUse (s : State) : State :=
  let s := s.set (ob 0x2500 5) s.fabric.bufs.length
  s.set (ob 0x2500 6) (max s.fabric.bufs.length (s.get (ob 0x2500 6)))

/-- The counts of cells and descriptors follow a queue's change: occupancies, peaks and totals (R146, R148). -/
def State.recount (s : State) (q : Nat) : State :=
  let p := q / 8
  let c := q % 8
  let s := s.set (portKey p (1 + c)) (s.occ q)
  let all := (upTo 8).foldl (fun n c => n + s.get (portKey p (1 + c))) 0
  let s := s.set (portKey p 0x17) (max all (s.get (portKey p 0x17)))
  (s.set (ob 0x2500 0x0A) (s.fabric.queues.foldl (fun n e => n + heldDescs e.2.descs) 0)).showUse

/-- The lowest free buffer address. -/
def freeAddr : Nat → List (Nat × BufCell) → Nat
  | n, [] => n
  | n, (k, _) :: r => if n < k then n else freeAddr (k + 1) r

/-- A buffer cell. -/
def State.buf (s : State) (a : Nat) : Option BufCell := Sparse.find a s.fabric.bufs

/-- A buffer cell changed. -/
def State.updBuf (s : State) (a : Nat) (f : BufCell → BufCell) : State :=
  match s.buf a with
  | some b => s.updFabric fun x => { x with bufs := Sparse.ins a (f b) (Sparse.drop a x.bufs) }
  | none => s

/-- A descriptor leaves: the buffer cell is freed with its last descriptor (R123). -/
def State.unref (s : State) (a : Nat) : State :=
  match s.buf a with
  | some b =>
    s.updFabric fun x =>
      { x with bufs := if b.refs ≤ 1 then Sparse.drop a x.bufs
                       else Sparse.ins a { b with refs := b.refs - 1 } (Sparse.drop a x.bufs) }
  | none => s

/-- Room for one more cell in queue (p, c): the reserve first, then the shared pool (R131). -/
def State.admits (s : State) (p c : Nat) : Bool :=
  decide (s.occ (qOf p c) < s.get (reservedKey p c)) ||
  (decide (s.occ (qOf p c) < s.get (maxKey p c)) && decide (s.get (ob 0x2500 4) < s.get (ob 0x2500 3)))

/-- Credits of a class returned to the far end of a trunk (R107). -/
def State.giveCredits (s : State) (t c n : Nat) : State :=
  s.updTrunk t fun x => { x with returned := Sparse.put 0 c ((Sparse.get 0 x.returned c + n) % 4096) x.returned }

/-- ReservedSum, SharedPool and SharedInUse follow the values of Reserved (R131, R146). -/
def State.showReserved (s : State) : State :=
  let sum := (upTo 20).foldl (fun n p => (upTo 8).foldl (fun n c => n + s.get (reservedKey p c)) n) 0
  s.setAll [(ob 0x2500 2, sum), (ob 0x2500 3, 131072 - sum),
    (ob 0x2500 4, s.fabric.queues.foldl (fun n e => n + (heldDescs e.2.descs - s.get (reservedKey (e.1 / 8) (e.1 % 8)))) 0)]

/-- A trunk's scheduler. -/
def State.sched (s : State) (t : Nat) : Sched := Sparse.get {} s.scheds t

/-- A trunk's scheduler changed. -/
def State.updSched (s : State) (t : Nat) (f : Sched → Sched) : State :=
  { s with scheds := Sparse.put {} t (f (s.sched t)) s.scheds }

/-- A tunnel's tags and shaper on a trunk. -/
def Sched.shaper (x : Sched) (n : Nat) : Shaper := Sparse.get {} x.shapers n

/-- A tunnel's tags and shaper on a trunk changed. -/
def State.updShaper (s : State) (t n : Nat) (f : Shaper → Shaper) : State :=
  s.updSched t fun x => { x with shapers := Sparse.put {} n (f (x.shaper n)) x.shapers }

/-- The service group of a class (R160): 4-7 by class, 1 for TC3-TC1, 0 for TC0. -/
def groupOf (c : Nat) : Nat := if 4 ≤ c then c else if c = 0 then 0 else 1

/-- `a` is earlier than `b` on the 48-bit circle of virtual times (R160). -/
def earlier (a b : Nat) : Bool := decide ((b + 2 ^ 48 - a % 2 ^ 48) % 2 ^ 48 < 2 ^ 47)

/-- The later of two virtual times (R160). -/
def later (a b : Nat) : Nat := if earlier a b then b else a

/-- What a tunnel's cell costs in virtual time (R160). -/
def State.cost (s : State) (n : Nat) : Nat := 2 ^ 24 / max 1 (s.get (ob (allotIndex n) 4))

/-- A cell of a tunnel enters a trunk's queue: carve counts it, and a queue that wakes from empty takes its tags from
the group's virtual time (R160, R165). A tail that was due gives it its turn, and its tags with it (R169). -/
def State.wake (s : State) (t c n : Nat) : State :=
  let empty := !((s.queue (qOf t c)).descs.any fun d => decide (d.cell.tunnel = n)) &&
    !(Sparse.get {} s.tunnels n).tailDue.testBit t
  let v := Sparse.get 0 (s.sched t).virtual (groupOf c)
  let cost := s.cost n
  s.updShaper t n fun x =>
    let x := { x with arrived := x.arrived + 1 }
    if empty then
      { x with start := later v x.finish, finish := (later v x.finish + cost) % 2 ^ 48 }
    else x

/-- The queues that hold more than their reserve (R149). -/
def State.aboveReserve (s : State) : Nat :=
  s.fabric.queues.foldl (fun n e =>
    if s.get (reservedKey (e.1 / 8) (e.1 % 8)) < heldDescs e.2.descs then n + 1 else n) 0

/-- The shared pool is exhausted (R144, R149). -/
def State.sharedGone (s : State) : State :=
  s.evRate 0x4050 0xFFFF 2 70 (sec 1) (u16 0xFFFF ++ u32 s.aboveReserve) [] []

/-- A descriptor put at the end of a queue that has room; above the reserve it draws from the shared pool, whose
exhaustion is counted and journalled (R131, R144). -/
def State.enqueue (s : State) (p c : Nat) (d : Desc) : State :=
  let q := qOf p c
  let shared := decide (s.get (reservedKey p c) ≤ s.occ q) && d.buf.isSome
  let s := if (s.queue q).descs.isEmpty then s.start (.stall q) else s
  let s := if p < 4 then s.wake p c d.cell.tunnel else s
  let s := s.updQueue q fun x => { x with descs := x.descs ++ [d] }
  let s := if shared then s.set (ob 0x2500 4) (s.get (ob 0x2500 4) + 1) else s
  let s := s.recount q
  if shared && decide (s.get (ob 0x2500 4) = s.get (ob 0x2500 3)) then
    (s.count (ob 0x2500 9) 1).sharedGone
  else s

/-- Descriptors are taken out of a queue, each returning its shared place and its hold on the buffer (R123, R131). -/
def State.takeOut (s : State) (p c : Nat) (gone kept : List Desc) : State :=
  let q := qOf p c
  let n := heldDescs gone
  let overV := s.occ q - s.get (reservedKey p c)
  let s := s.set (ob 0x2500 4) (s.get (ob 0x2500 4) - min n overV)
  let s := s.updQueue q fun x => { x with descs := kept, avgAt := if x.descs.isEmpty then x.avgAt else s.clock }
  let s := forAll (fun (d : Desc) s => match d.buf with | some a => s.unref a | none => s) gone s
  s.recount q

/-- Descriptors leave a queue: the stall time returns to zero (R141). -/
def State.release (s : State) (p c : Nat) (gone kept : List Desc) : State :=
  let q := qOf p c
  let s := (s.takeOut p c gone kept).updQueue q fun x => { x with stall := 0 }
  if kept.isEmpty then s.stop (.stall q) else s.start (.stall q)

/-- Descriptors are withdrawn from a queue, their cells discarded: no cell leaves, so the stall time runs on while the queue
holds others (R141; log entry 214). -/
def State.withdraw (s : State) (p c : Nat) (gone kept : List Desc) : State :=
  let q := qOf p c
  let s := s.takeOut p c gone kept
  if kept.isEmpty then (s.updQueue q fun x => { x with stall := 0 }).stop (.stall q) else s

/-- The open unit of a flow at a queue: 0 none (R139). -/
def State.unitOf (s : State) (q flow : Nat) : Nat := Sparse.get 0 (s.queue q).units flow

/-- The open unit of a flow at a queue set. -/
def State.setUnit (s : State) (q flow v : Nat) : State :=
  s.updQueue q fun x => { x with units := Sparse.put 0 flow v x.units }

/-- A number divided by a power of two, rounded down, as `asr` does (R138). -/
def asr (x : Int) (n : Nat) : Int := x / (2 ^ n : Nat)

/-- The average occupancy updated with an occupancy (R138). -/
def newAvg (avg occ w : Nat) : Nat := ((avg : Int) + asr ((occ * 256 : Nat) - (avg : Int)) w).toNat

/-- The queue's profile, if it names one (R138). -/
def State.profile (s : State) (p c : Nat) : Option Nat :=
  if s.get (profileKey p c) < 16 then some (s.get (profileKey p c)) else none

/-- At a unit's first cell the queue takes the profile that it names now; one that names none keeps no average (R138,
R144, R148). -/
def State.takeProfile (s : State) (p c : Nat) : State :=
  let r := s.profile p c
  s.updQueue (qOf p c) fun x => { x with prof := r, avg := if r = none then 0 else x.avg }

/-- The average is updated for a cell offered, or for an empty queue (R138). -/
def State.average (s : State) (p c : Nat) : State :=
  match (s.queue (qOf p c)).prof with
  | some r => s.updQueue (qOf p c) fun x => { x with avg := newAvg x.avg (s.occ (qOf p c)) (s.get (ob (0x2700 + r) 1)) }
  | none => s

/-- The LFSR of a profile steps (R139). -/
def lfsrNext (v : Nat) : Nat := if v % 2 = 1 then (v / 2) ^^^ 0xB400 else v / 2

/-- The decision of R139 at a first cell of the colour: 1 admit, 2 drop, 3 mark, and the LFSR stepped. -/
def State.redDecision (s : State) (p c colour : Nat) : Nat × State :=
  match (s.queue (qOf p c)).prof with
  | none => (1, s)
  | some r =>
    let k := 4 * min colour 2
    let i := 0x2700 + r
    let lo := s.get (ob i (2 + k))
    let hi := s.get (ob i (3 + k))
    let mode := s.get (ob i (5 + k))
    let a := (s.queue (qOf p c)).avg / 256
    let v := Sparse.get 0 s.fabric.lfsr r
    let prob := s.get (ob i (4 + k)) * (a - lo) / (hi - lo)
    let ans :=
      if a < lo then 1
      else if hi ≤ a then (if mode = 2 then 3 else 2)
      else if v < prob then (if 1 ≤ mode then 3 else 2)
      else 1
    (ans, s.updFabric fun x => { x with lfsr := Sparse.put 0 r (lfsrNext v) x.lfsr })

/-- A drop, mark or limit drop is counted for a port and journalled (R139, R131, R149). -/
def State.dropEv (s : State) (p red marks limit : Nat) : State :=
  let s := ((s.count (portKey p 0x0B) red).count (portKey p 0x0C) marks).count (portKey p 0x0D) limit
  s.fabricEv 0x4010 1 2 p [] [red, marks, limit] []

/-- Tail-bad units, truncations and incomplete units of a port (R128-R130, R149). -/
def State.tailEv (s : State) (p bad trunc incomplete : Nat) : State :=
  let s := ((s.count (portKey p 0x13) bad).count (portKey p 0x14) trunc).count (portKey p 0x16) incomplete
  s.fabricEv 0x4030 1 4 p [] [bad, trunc, incomplete] []

/-- The header of a truncation cell (R130). -/
def truncated (c : Cell) : Cell := { c with first := false, last := true, bad := true, len := 0, payload := [] }

/-- The cells of a flow after its last whole unit, and the rest: an open unit taken out of a queue (R129). -/
def openPart (flow : Nat) : List Desc → List Desc × List Desc
  | [] => ([], [])
  | d :: r =>
    let (g, k) := openPart flow r
    if d.flow = flow ∧ !d.cell.last ∧ !(r.any fun e => decide (e.flow = flow) && e.cell.last) then (d :: g, k)
    else (g, d :: k)

/-- A terminating egress discards the open unit of a flow whole (R129): its cells still queued there are withdrawn. -/
def State.dropUnit (s : State) (p c flow : Nat) : State :=
  let (gone, kept) := openPart flow (s.queue (qOf p c)).descs
  let s := s.withdraw p c gone kept
  let s := s.updQueue (qOf p c) fun x => { x with opens := Sparse.put 0 flow 0 x.opens }
  s.tailEv p 0 0 1

/-- The egress of a local fabric port is where a unit leaves the hubs (R129). -/
def terminating (p : Nat) : Bool := decide (4 ≤ p)

/-- A unit is truncated at a queue: one truncation cell stands for the rest (R130); a terminating egress, where that
cell's tail-bad mark would end the unit, discards the unit whole (R129). -/
def State.truncate (s : State) (p c flow : Nat) (cell : Cell) : State :=
  let s := (s.setUnit (qOf p c) flow 5).tailEv p 0 1 0
  if terminating p then s.dropUnit p c flow
  else s.enqueue p c { cell := truncated cell, flow, since := s.clock }

/-- A cell already in buffer `a` offered to queue (p, c), with its unit's decision taken: it is queued, dropped,
refused or truncates its unit (R129-R131). The open unit of the flow, one whose first cell is missing too, is tracked at a
terminating egress, which discards it when the next unit's first cell arrives before its last. -/
def State.place (s : State) (p c a flow : Nat) (cell : Cell) : State :=
  let q := qOf p c
  let u := if cell.first then s.unitOf q flow else if s.unitOf q flow = 0 then 1 else s.unitOf q flow
  let s := if terminating p && cell.first && decide (Sparse.get 0 (s.queue q).opens flow ≠ 0)
           then s.dropUnit p c flow else s
  let s :=
    if u = 2 then s.dropEv p 1 0 0
    else if u = 5 then s
    else if u = 4 then s.dropEv p 0 0 1
    else if s.admits p c then
      let cell := if u = 3 then { cell with cong := true } else cell
      let s := (s.enqueue p c { buf := some a, cell, flow, since := s.clock }).updBuf a fun b => { b with refs := b.refs + 1 }
      if terminating p then
        if cell.last then
          if cell.bad then
            let (gone, kept) := openPart flow ((s.queue q).descs.map fun d =>
              if d.buf = some a then { d with cell := { d.cell with last := false } } else d)
            let s := s.withdraw p c gone kept
            (s.updQueue q fun x => { x with opens := Sparse.put 0 flow 0 x.opens }).tailEv p 0 0 1
          else s.updQueue q fun x => { x with opens := Sparse.put 0 flow 0 x.opens }
        else if cell.first || decide (Sparse.get 0 (s.queue q).opens flow = 0) then
          s.updQueue q fun x => { x with opens := Sparse.put 0 flow (s.clock + 1) x.opens }
        else s
      else s
    else if cell.first then (s.setUnit q flow 4).dropEv p 0 0 1
    else (s.dropEv p 0 0 1).truncate p c flow cell
  if cell.last then s.setUnit q flow 0 else s

/-- A cell is offered to queue (p, c): the average is updated and at a unit's first cell the decision is taken, under
the profile that the queue names then (R138, R139). -/
def State.offer (s : State) (p c flow : Nat) (cell : Cell) : State :=
  let s := (if cell.first then s.takeProfile p c else s).average p c
  if cell.first then
    let (u, s) := s.redDecision p c cell.colour
    let s := s.setUnit (qOf p c) flow u
    if u = 3 then s.dropEv p 0 1 0 else s
  else s

/-- Every destination has room for the cell, or its unit is not admitted there. -/
def State.fits (s : State) (dests : List Dest) : Bool :=
  dests.all fun d => s.admits d.p d.c || decide (s.unitOf (qOf d.p d.c) d.flow = 2 ∨ 4 ≤ s.unitOf (qOf d.p d.c) d.flow)

/-- Some destination takes the cell: its unit is admitted there and there is room (R131, R139). -/
def State.taken (s : State) (dests : List Dest) : Bool :=
  dests.any fun d => s.admits d.p d.c &&
    (let u := s.unitOf (qOf d.p d.c) d.flow
     decide (u = 1 ∨ u = 3) || (decide (u = 0) && !d.cell.first))

/-- A cell offered to every destination (R138, R139). -/
def State.offerAll (s : State) (dests : List Dest) : State :=
  forAll (fun (d : Dest) s => s.offer d.p d.c d.flow d.cell) dests s

/-- A cell written once into the buffer and described in every destination's queue (R123, R131). The write itself holds
the buffer cell until every destination has been served, so that a cell whose descriptor leaves one queue at once is still
there for the next; without a descriptor it is then free again. -/
def State.store (s : State) (dests : List Dest) (cell : Cell) (reserved : Option Nat := none) : State :=
  let a := freeAddr 0 s.fabric.bufs
  let s := s.updFabric fun x => { x with bufs := Sparse.ins a { cell, refs := 1, reserved } x.bufs }
  ((forAll (fun (d : Dest) s => s.place d.p d.c a d.flow d.cell) dests s).unref a).showUse

/-- The cells of an adapter's TC7 reserve in use (R143). -/
def urgent (hs : List Held) : Nat := (hs.filter fun h => decide (h.cell.cls = 7)).length

/-- The cells that wait in the ingress adapter of a fabric port (R140). -/
def State.waitsAt (s : State) (fp : Nat) : List Held := Sparse.get [] s.fabric.waiting fp

/-- A cell of a class waits at a fabric port that could not be admitted: its adapter withholds the credits of that class
(R140, R304). -/
def State.adapterFull (s : State) (fp cls : Nat) : Bool :=
  (s.waitsAt fp).any fun h => h.offered && decide (h.cell.cls = cls)

/-- A cell comes to wait in the ingress adapter of a fabric port (R140). -/
def State.holdAt (s : State) (fp : Nat) (h : Held) : State :=
  s.updFabric fun x => { x with waiting := Sparse.put [] fp (s.waitsAt fp ++ [h]) x.waiting }

/-- The cells held at the source of a fabric port (R140, R143). -/
def State.backedAt (s : State) (fp : Nat) : List Held := Sparse.get [] s.fabric.backed fp

/-- A cell comes to the ingress adapter of a fabric port (R140): a TC7 cell beyond the sixteen that the adapter holds is
held at its source (R143). -/
def State.toAdapter (s : State) (fp : Nat) (h : Held) : State :=
  if h.cell.cls = 7 ∧ 16 ≤ urgent (s.waitsAt fp) then
    s.updFabric fun x => { x with backed := Sparse.put [] fp (s.backedAt fp ++ [h]) x.backed }
  else s.holdAt fp h

/-- A cell of an adapter's own comes to its fabric port. -/
def State.toFabric (s : State) (fp : Nat) (cell : Cell) : State := s.toAdapter fp { cell, since := s.clock }

/-- A cell has left the ingress adapter of a fabric port: a TC7 cell held at its source takes a free place (R143). -/
def State.leaves (s : State) (fp : Nat) (kept : List Held) : State :=
  let s := s.updFabric fun x => { x with waiting := Sparse.put [] fp kept x.waiting }
  match s.backedAt fp with
  | [] => s
  | h :: r =>
    if 16 ≤ urgent kept then s
    else (s.updFabric fun x => { x with backed := Sparse.put [] fp r x.backed }).holdAt fp { h with since := s.clock }

/-- An adapter whose power domain goes off drops what waits in it (R21). -/
def State.emptyAdapter (s : State) (fp : Nat) : State :=
  s.updFabric fun x => { x with waiting := Sparse.put [] fp [] x.waiting, backed := Sparse.put [] fp [] x.backed }

/-- The frame whose first cell this is, as its flow's source address and VLAN (R136). -/
def State.noteSource (s : State) (key : Nat) (c : Cell) : State :=
  if c.first then
    s.updFabric fun x =>
      { x with sources := Sparse.put (0, 0) key (leAt c.payload 6 6, beAt c.payload 14 2 % 4096) x.sources }
  else s

/-- Lists of waiting cells without those of a kind. -/
def without (mine : Cell → Bool) (m : List (Nat × List Held)) : List (Nat × List Held) :=
  (m.map fun e => (e.1, e.2.filter fun h => !(h.own && mine h.cell))).filter fun e => !e.2.isEmpty

/-- The cells of a kind that the hub formed and that wait in the adapters. -/
def ownWaiting (mine : Cell → Bool) (m : List (Nat × List Held)) : Nat :=
  (m.flatMap fun e => e.2.filter fun h => h.own && mine h.cell).length

/-- Cells of a kind, queued in the hub or formed by it and still waiting, are discarded; the count is of cells, not of
descriptors (R118). -/
def State.discardCells (s : State) (mine : Cell → Bool) : Nat × State :=
  let cells := (s.fabric.queues.flatMap fun e => (e.2.descs.filter fun d => mine d.cell).filterMap (·.buf)).eraseDups
  let waiting := ownWaiting mine s.fabric.waiting + ownWaiting mine s.fabric.backed
  let s := forAll (fun (e : Nat × Queue) s =>
    let g := e.2.descs.filter fun d => mine d.cell
    if g.isEmpty then s else s.withdraw (e.1 / 8) (e.1 % 8) g (e.2.descs.filter fun d => !mine d.cell))
    s.fabric.queues s
  (cells.length + waiting,
    s.updFabric fun x => { x with waiting := without mine x.waiting, backed := without mine x.backed })

/-- The cells of a tunnel still queued in the hub are discarded (R118). -/
def State.discardTunnel (s : State) (n : Nat) : Nat × State := s.discardCells fun c => decide (c.tunnel = n)

/-- A cell of the tunnel is queued toward the trunks (R118). -/
def State.queuedOut (s : State) (n : Nat) : Bool :=
  s.fabric.queues.any fun e => decide (e.1 < 32) && e.2.descs.any fun d => decide (d.cell.tunnel = n)

end Sys2Proof.Machine
end

