-- ==== Sys2Proof/Machine/TunnelBase.lean ====
section
/-!
DEFINITION. Tunnel records, what a tunnel joins, its sides, and the cells this hub forms for it (R95-R113).
-/

set_option Elab.async false

namespace Sys2Proof.Machine

open Sys2Proof

/-- An object of a trunk (R86-R88). -/
def tk (t off sub : Nat) : Nat := ob (0x2100 + 0x100 * t + off) sub

/-- An object of a tunnel's record (R98). -/
def tunKey (n sub : Nat) : Nat := ob (0x3000 + n) sub

/-- The trunk is Trained (R77). -/
def State.trained (s : State) (t : Nat) : Bool := s.part.hasTrunk t && decide (s.get (tk t 1 1) = 8)

/-- A byte of a capability block by its number in R75, 16 to 79; `off` 2 local, 3 remote. -/
def State.capByte (s : State) (t off b : Nat) : Nat := s.get (tk t off 0) / 256 ^ (b - 16) % 256

/-- The pair conditions of R114 hold for the trunk: its mode, the twin-tip bits of both its capability blocks and the
partner it names; where its partner is Trained too, the far ends name each other and are one hub. -/
def State.pairOk (s : State) (t : Nat) : Bool :=
  let u := t ^^^ 1
  decide ((s.get (tk t 1 4) = 1 ∨ s.get (tk t 1 4) = 4) ∧ (s.capByte t 2 18).testBit 1 ∧ (s.capByte t 3 18).testBit 1 ∧
      s.capByte t 2 26 = u) &&
    (!s.trained u || decide (s.capByte t 3 26 = s.capByte u 3 25 ∧ s.capByte u 3 26 = s.capByte t 3 25 ∧
      s.get (tk t 1 0x0C) = s.get (tk u 1 0x0C)))

/-- The per-link windows of tunnels 1-4 on a trunk (R95). -/
def linkTun (t n : Nat) : Nat := n + 0x1000 * (t + 1)

/-- The tunnel's own state. -/
def State.tun (s : State) (n : Nat) : Tunnel := Sparse.get {} s.tunnels n

/-- The tunnel's own state changed. -/
def State.updTun (s : State) (n : Nat) (f : Tunnel → Tunnel) : State :=
  { s with tunnels := Sparse.put {} n (f (s.tun n)) s.tunnels }

/-- TunnelState (R102). -/
def State.tstate (s : State) (n : Nat) : Nat := s.get (tunKey n 0x10)

/-- The tunnel is Open or Draining. -/
def State.live (s : State) (n : Nat) : Bool := decide (s.tstate n = 3 ∨ s.tstate n = 4)

/-- A configuration value in effect: the record's while Off, else the one latched (R99). -/
def State.tcfg (s : State) (n sub : Nat) : Nat :=
  if s.tstate n = 0 ∨ n < 16 then s.get (tunKey n sub) else Sparse.get 0 (s.tun n).cfg sub

/-- The values kept under R99 take effect. -/
def State.latchCfg (s : State) (n : Nat) : State :=
  let vs := (upTo 10).foldl (fun m k => Sparse.put 0 (k + 2) (s.get (tunKey n (k + 2))) m) []
  s.updTun n fun x => { x with cfg := vs }

/-- The adapter versions that a record offers: AdapterVersions, for a storage tunnel only the version that its local port
and endpoint name, for a map block of the field gateway version 2 (R103, R296, R321). -/
def State.offered (s : State) (n : Nat) : Nat :=
  if s.tcfg n 2 = 1 then s.tcfg n 9 &&& (if s.tcfg n 6 = 18 ∨ s.tcfg n 8 ≠ 0 then 4 else 2)
  else if s.tcfg n 2 = 4 ∧ 0x0200 ≤ s.tcfg n 8 then s.tcfg n 9 &&& 4
  else s.tcfg n 9

/-- A sequence extended to the value nearest `h`, a tie taken below (R108). -/
def extend (seq : Nat) (h : Int) : Int :=
  if h < 0 then seq
  else
    let d := ((seq : Int) - h) % 65536
    let x := if d < 32768 then h + d else h + d - 65536
    if x < 0 then h + d else x

/-- The record joins two trunks (R96). -/
def State.transit (s : State) (n : Nat) : Bool := decide (s.tcfg n 6 < 4)

/-- A trunk, or both trunks of its pair. -/
def pairOf (t : Nat) (twin : Bool) : List Nat := if twin then [t - t % 2, t - t % 2 + 1] else [t]

/-- The trunks of the record's TrunkPort; the system tunnels join every trunk (R98). -/
def State.trunksOf (s : State) (n : Nat) : List Nat :=
  if n < 16 then upTo s.part.trunks else pairOf (s.tcfg n 4) (decide (s.tcfg n 5 = 1))

/-- The trunks of a transit record's LocalPort. -/
def State.localTrunks (s : State) (n : Nat) : List Nat :=
  if s.transit n then pairOf (s.tcfg n 6) (decide (s.tcfg n 7 = 1)) else []

/-- Both trunks of a pair carry the tunnel. -/
def State.twinned (s : State) (n : Nat) : Bool := decide (16 ≤ n) && decide (s.tcfg n 5 = 1)

/-- The record is twinned and terminates here: it has sides A and B (R113). -/
def State.sided (s : State) (n : Nat) : Bool := s.twinned n && !s.transit n

/-- A trunk carries the tunnel: Trained, and for a twinned tunnel fit for the pair (R113, R114). -/
def State.carries (s : State) (n t : Nat) : Bool := s.trained t && (!s.twinned n || s.pairOk t)

/-- A trunk on which a Waiting tunnel may start: Trained, and not about to leave it (R78, R102). -/
def State.ready (s : State) (t : Nat) : Bool :=
  s.trained t && decide ((s.trunk t).retrain = 0) && !(s.trunk t).closing

/-- The tunnel has a path (R98, R101, R102): a Trained trunk, on both sides of a transit record. -/
def State.hasPath (s : State) (n : Nat) (up : Nat → Bool) : Bool :=
  (s.trunksOf n).any up && (!s.transit n || (s.localTrunks n).any up)

/-- The tunnel may start now: it has a path, and waits for every trunk it names that is about to leave Trained
(R78, R102). -/
def State.mayStart (s : State) (n : Nat) : Bool :=
  s.hasPath n s.ready && (s.trunksOf n ++ s.localTrunks n).all fun t => !s.trained t || s.ready t

/-- A tunnel event of R121; arguments begin with the tunnel ID. -/
def State.tunEv (s : State) (code sev k n : Nat) (args : Bytes) : State := s.ev code n sev (80 + k) (u16 n ++ args)

/-- The trunk carries a watched tunnel (R416, R417). -/
def State.watchedOn (s : State) (t : Nat) : Bool :=
  (upTo 32).any fun k =>
    let n := s.get (ob 0x4410 (k + 1))
    decide (n ≠ 0) && decide (s.tstate n = 3 ∨ s.tstate n = 4) && (s.trunksOf n ++ s.localTrunks n).contains t

/-- Cells discarded at a trunk for their CRC, or as malformed (R94, R121); a CRC
failure on a trunk that carries a watched tunnel latches SF2 (R417). -/
def State.cellCrc (s : State) (t crc bad : Nat) : State :=
  let s := s.evCycle 0x3030 t 3 83 t (u16 t ++ u32 (s.trunk t).cycle) [crc, bad] []
  if crc ≠ 0 ∧ s.watchedOn t then s.latchSf 1 else s

/-- The data tunnels that are not Off. -/
def State.liveTunnels (s : State) : List Nat :=
  s.objs.filterMap fun e =>
    if 0x3010 ≤ e.1 / 256 ∧ e.1 / 256 < 0x4000 ∧ e.1 % 256 = 0x10 ∧ e.2 ≠ 0 then some (e.1 / 256 - 0x3000) else none

/-- The data tunnels whose TunnelEnable reads 1. -/
def State.enabledTunnels (s : State) : List Nat :=
  s.objs.filterMap fun e =>
    if 0x3010 ≤ e.1 / 256 ∧ e.1 / 256 < 0x4000 ∧ e.1 % 256 = 1 ∧ e.2 = 1 then some (e.1 / 256 - 0x3000) else none

/-- The side of a tunnel on a trunk: 0 for side A, the lower-numbered trunk of a pair, or the only one (R112). -/
def State.sideOf (s : State) (n t : Nat) : Nat := if s.sided n then t % 2 else 0

/-- A side's record. -/
def Tunnel.side (x : Tunnel) (k : Nat) : Side := if k = 0 then x.sideA else x.sideB

/-- A side's record changed. -/
def Tunnel.setSide (x : Tunnel) (k : Nat) (v : Side) : Tunnel :=
  if k = 0 then { x with sideA := v } else { x with sideB := v }

/-- TwinState follows the sides' conditions; it reads 0 on an untwinned tunnel (R98, R113). -/
def State.showTwin (s : State) (n : Nat) : State :=
  let x := s.tun n
  let bit := fun (k c : Nat) => if (x.side k).cond = c then 1 else 0
  s.set (tunKey n 0x13) (if s.sided n then
    bit 0 2 + 2 * bit 1 2 + 4 * bit 0 3 + 8 * bit 1 3 + 16 * bit 0 1 + 32 * bit 1 1 else 0)

/-- A side of a twinned tunnel takes a condition: entering lagging or down is journalled as degraded with why, 1 trunk
lost, 2 lagging, 3 a condition of R114, and the return to current of a side that was degraded as restored (R113,
R121). -/
def State.setCond (s : State) (n k cond why : Nat) : State :=
  let old := (s.tun n).side k
  if old.cond = cond then s
  else
    let worse := decide (cond = 0 ∨ cond = 3)
    let s := s.updTun n fun x =>
      x.setSide k { old with cond, since := if worse && decide (old.cond = 2 ∨ old.cond = 1) then s.clock else old.since }
    let s := s.showTwin n
    if !s.sided n then s
    else if worse then s.tunEv 0x3050 2 5 n (u16 k ++ u16 why)
    else if cond = 2 ∧ old.since ≠ 0 then s.tunEv 0x3051 1 5 n (u16 k ++ u32 ((s.clock - old.since) / 1000))
    else s

/-- The header of a cell that this hub forms for a tunnel now (R91, R92). -/
def State.newCell (s : State) (n kind : Nat) (payload : Bytes) : Cell :=
  { tunnel := n, cls := s.tcfg n 3, len := payload.length, kind, hold := (s.jFlags).testBit 1,
    origin := s.station % 2 ^ 40, payload }

/-- A frame cut into cells of at most `k` bytes (R91). -/
def chunks : Nat → Nat → Bytes → List Bytes
  | 0, _, _ => []
  | n + 1, k, bs => if bs.length ≤ k then [bs] else bs.take k :: chunks n k (bs.drop k)

/-- The cells of a unit (R91); `bad` marks the last (R128). -/
def State.unitCells (s : State) (n cls colour k : Nat) (bad : Bool) (bs : Bytes) : List Cell :=
  let parts := chunks (bs.length + 1) k bs
  (upTo parts.length).map fun i =>
    { tunnel := n, cls, colour, first := decide (i = 0), last := decide (i + 1 = parts.length),
      bad := bad && decide (i + 1 = parts.length), len := (parts.getD i []).length, hold := s.jFlags.testBit 1,
      origin := s.station % 2 ^ 40, payload := parts.getD i [] }

/-- A unit of a tunnel handed to the fabric at a local port, in cells that the tunnel can carry (R91, R115). A bad unit of
one cell is discarded whole; a longer one carries the tail-bad mark and is counted (R128). -/
def State.unitOut (s : State) (fp n : Nat) (bad : Bool) (bs : Bytes) : State :=
  let k := if s.tcfg n 0x0A = 1 then 220 else 236
  let cs := s.unitCells n (s.tcfg n 3) 0 k bad bs
  if bad && decide (cs.length ≤ 1) then s
  else
    let s := forAll (fun c s => s.toFabric fp { c with ver := s.get (tunKey n 0x12) }) cs s
    if bad then s.tailEv fp 1 0 0 else s

/-- Cells of a unit of some bytes (R91, R115). -/
def State.cellsFor (s : State) (n bytes : Nat) : Nat :=
  let k := if s.tcfg n 0x0A = 1 then 220 else 236
  max 1 ((bytes + k - 1) / k)

/-- A sequence of the tunnel before `seq` has neither been delivered nor judged lost, as its window shows it (R112): a unit
whose first cell is `seq` is not in order yet. -/
def State.seqGap (s : State) (n seq : Nat) : Bool :=
  let x := s.tun n
  let last := min (extend (seq % 65536) x.h - 1) x.h
  decide (0 ≤ x.h) && (upTo (last - x.checked).toNat).any fun k => !x.seen.contains (x.checked + 1 + (k : Int))

/-- A rate in Mb/s as cells per cycle for a tunnel (R163). -/
def State.cellsOf (s : State) (n r : Nat) : Nat :=
  let p := if 16 ≤ n ∧ s.tcfg n 0x0A = 1 then 1760 else 1888
  (r * 125 + p - 1) / p

/-- Minimum of a tunnel in cells per cycle; it applies to TC3-TC1 (R163). -/
def State.minCells (s : State) (n : Nat) : Nat :=
  if 1 ≤ s.tcfg n 3 ∧ s.tcfg n 3 ≤ 3 then s.cellsOf n (s.get (ob (allotIndex n) 2)) else 0

/-- Maximum and HostShare of a tunnel in cells per cycle (R163). -/
def State.maxCells (s : State) (n : Nat) : Nat := s.cellsOf n (s.get (ob (allotIndex n) 3))
def State.hostCells (s : State) (n : Nat) : Nat := s.cellsOf n (s.get (ob (allotIndex n) 5))

/-- A tunnel's meter as of now: the buckets filled at Minimum and Maximum, up to one cycle's cells (R137). -/
def State.meterNow (s : State) (n : Nat) : Meter :=
  let x := Sparse.get {} s.fabric.meters n
  let lo := s.minCells n
  let hi := s.maxCells n
  let dt := s.clock - x.at_
  if x.full then
    { x with tc := min (lo * 125000) (x.tc + dt * lo), tp := min (hi * 125000) (x.tp + dt * hi), at_ := s.clock }
  else { tc := lo * 125000, tp := hi * 125000, at_ := s.clock, full := true }

/-- A cell entering a tunnel at its origin is coloured (R137): green in TC7-TC4, else by the colour-aware two-rate
three-colour meter of RFC 2698. -/
def State.colour (s : State) (n : Nat) (c : Cell) : Nat × State :=
  if 4 ≤ s.tcfg n 3 then (0, s)
  else
    let m := s.meterNow n
    let keep := fun (m : Meter) => s.updFabric fun x => { x with meters := Sparse.put {} n m x.meters }
    if 2 ≤ c.colour ∨ m.tp < 125000 then (2, keep m)
    else if c.colour = 1 ∨ m.tc < 125000 then (1, keep { m with tp := m.tp - 125000 })
    else (0, keep { m with tp := m.tp - 125000, tc := m.tc - 125000 })

end Sys2Proof.Machine
end

