-- ==== Sys2Proof/Machine/StoreOps.lean ====
section
/-!
DEFINITION. PCIe ports, the NVMe queue engine and the windows: what their commands share (R292-R309).
-/

set_option Elab.async false

namespace Sys2Proof.Machine

open Sys2Proof

/-- Bytes of external DRAM: an address that nothing has written reads 0. -/
def State.dramByte (s : State) (a : Nat) : BitVec 8 := Sparse.get 0 s.dram a

/-- `n` bytes of DRAM from an address. -/
def State.dramRead (s : State) (a n : Nat) : Bytes := (upTo n).map fun k => s.dramByte (a + k)

/-- A byte of DRAM written. -/
def State.dramPut (s : State) (a : Nat) (v : BitVec 8) : State := { s with dram := Sparse.put 0 a v s.dram }

/-- Objects of a PCIe port and of a window (R312, R313). -/
def pcieCfg (p sub : Nat) : Nat := ob (0x2D01 + p) sub
def pcieStat (p sub : Nat) : Nat := ob (0x2D03 + p) sub
def winKey (w sub : Nat) : Nat := ob (0x2D40 + w) sub

/-- The storage function changed. -/
def State.updStore (s : State) (f : Store → Store) : State := { s with stor := f s.stor }

/-- A PCIe port's own state, and changed. -/
def State.pcie (s : State) (p : Nat) : Pcie := Sparse.get {} s.stor.ports p
def State.updPcie (s : State) (p : Nat) (f : Pcie → Pcie) : State :=
  s.updStore fun x => { x with ports := Sparse.put {} p (f (s.pcie p)) x.ports }

/-- A window's value in effect (R313). -/
def State.win (s : State) (w sub : Nat) : Nat := Sparse.get 0 (Sparse.get [] s.stor.wins w) sub

/-- Queue-engine mode (R294). -/
def State.queueMode (s : State) : Bool := !s.hostMode 7

/-- The storage domain is on, and the port present, enabled and its link up (R312). -/
def State.pcieUp (s : State) (p : Nat) : Bool :=
  s.part.hasPcie p && s.domainOn 11 && decide (s.get (pcieCfg p 1) = 1 ∧ s.get (pcieStat p 1) = 2)

/-- The port's role is root (R292): PortRole as it stood when the hub last left Setup; as it stands before the first time. -/
def State.isRoot (s : State) (p : Nat) : Bool := decide ((s.pcie p).role.getD (s.get (pcieCfg p 2)) = 0)

/-- The ports take their roles as the hub leaves Setup (R292). -/
def State.takeRoles (s : State) : State :=
  forAll (fun p s => s.updPcie p fun x => { x with role := some (s.get (pcieCfg p 2)) }) ((upTo 2).filter s.part.hasPcie) s

/-- The port may master requests: Bus Master Enable is set and it is not in D3hot (R293). -/
def State.masters (s : State) (p : Nat) : Bool := (s.pcie p).master && !(s.pcie p).d3hot

/-- An uncorrectable error shows in AER (R292; its bits are those of the PCI Express specification, log entry 222). -/
def State.aerSet (s : State) (p bit : Nat) : State := s.updPcie p fun x => { x with aer := setBit x.aer bit }

/-- Errors of a PCIe port, at most once a second (R314): replays, poisoned, UR, CA; the last three show in AER (R292). -/
def State.pcieErrors (s : State) (p replays poisoned ur ca : Nat) : State :=
  let s := if poisoned = 0 then s else s.aerSet p 12
  let s := if ca = 0 then s else s.aerSet p 15
  let s := if ur = 0 then s else s.aerSet p 20
  ((((s.count (pcieStat p 7) replays).count (pcieStat p 8) poisoned).count (pcieStat p 9) ur).count (pcieStat p 0x0A)
    ca).evRate 0xA010 p 2 (210 + p) (sec 1) (u16 p) [replays, poisoned, ur, ca] []

/-- What a port presents in the endpoint role (R293), and the figures of its NVMe controller (R295). -/
def State.presents (s : State) (p : Nat) : Endpoint :=
  let cfg := fun (sub : Nat) => s.get (pcieCfg p sub)
  { legacy := decide (cfg 0x0A = 1), classCode := if s.queueMode then 0x010802 else 0x058000, vendor := cfg 6, device := cfg 7,
    bar0 := if s.queueMode then 16384 else 0, bar2 := 4096, bar4 := 2 ^ cfg 8, prefetchable := decide (cfg 9 = 1),
    vectors := 64, capabilities := ["PCI Express", "MSI-X", "Power Management", "AER"], ecrc := decide (cfg 0x0B = 1),
    maxPayload := cfg 5, mqes := 1023, dstrd := 0, readyTime := 30, mps := 4096 }

/-- The spans of `len` bytes from an offset on that cross no multiple of `m`, by `place` the address of an offset: address and
length, ascending (R297, R300). -/
def spansOf (place : Nat → Nat) (m : Nat) : Nat → Nat → Nat → List (Nat × Nat × Nat)
  | 0, _, _ => []
  | k + 1, off, len =>
    if len = 0 then []
    else
      let n := min len (m - place off % m)
      (off, place off, n) :: spansOf place m k (off + n) (len - n)

/-- The address of a buffer's byte by its PRP entries: the first may lie inside its page of 4 KiB, the others begin theirs; a
list that ends early goes on from its last entry (R295, R297). -/
def prpAt (prps : List Nat) (off : Nat) : Nat :=
  let o := prps.headD 0 % 4096 + off
  let k := o / 4096
  let last := prps.length - 1
  if k = 0 then prps.headD 0 + off else (prps.getD (min k last) 0) / 4096 * 4096 + (k - min k last) * 4096 + o % 4096

/-- Byte enables of a write of whole bytes of some length. -/
def wholeBe (n : Nat) : Nat := if n ≤ 4 then 2 ^ n - 1 else 255

/-- Data written to a buffer of the server in posted writes of at most MaxPayload (R297, R300). -/
def State.hostWrite (s : State) (p : Nat) (prps : List Nat) (off : Nat) (data : Bytes) : State :=
  forAll (fun (e : Nat × Nat × Nat) s =>
    (s.count (pcieStat p 6) 1).send (.memWrite p e.2.1 (wholeBe e.2.2) ((data.drop (e.1 - off)).take e.2.2)))
    (spansOf (prpAt prps) (max 4 (s.get (pcieCfg p 5))) data.length off data.length) s

/-- A buffer of the server is read, by reads of at most Max_Read_Request_Size; their completions come in (R297, R300). -/
def State.hostRead (s : State) (p : Nat) (prps : List Nat) (len : Nat) : State :=
  forAll (fun (e : Nat × Nat × Nat) s =>
    ((s.count (pcieStat p 6) 1).count (pcieStat p 5) 1).send (.memRead p e.2.1 ((e.2.2 + 3) / 4) 255))
    (spansOf (prpAt prps) (max 4 (s.pcie p).readSize) len 0 len) s

/-- A completion to a requester on a port: 0 successful, 1 UR, 2 CA (R304). -/
def State.complete (s : State) (p tag status : Nat) (locked : Bool) (data : Bytes) : State :=
  (s.count (pcieStat p 6) 1).send (.cpl p tag status locked data)

/-- The next tag. -/
def State.newTag (s : State) : Nat × State :=
  (s.stor.nextTag, s.updStore fun x => { x with nextTag := (x.nextTag + 1) % 65536 })

/-! The queue engine (R294-R298). -/

/-- The Open version-2 tunnel that is namespace `nsid` of an endpoint port (R295). -/
def State.nsTunnel (s : State) (p nsid : Nat) : Option Nat :=
  s.liveTunnels.find? fun n =>
    decide (s.tstate n = 3 ∧ s.tcfg n 2 = 1 ∧ s.get (tunKey n 0x12) = 2 ∧ s.tcfg n 6 = 12 + p ∧ s.tcfg n 8 = nsid)

/-- The active namespaces of an endpoint port (R295). -/
def State.activeNs (s : State) (p : Nat) : List Nat :=
  s.liveTunnels.filterMap fun n =>
    if s.tstate n = 3 ∧ s.tcfg n 2 = 1 ∧ s.get (tunKey n 0x12) = 2 ∧ s.tcfg n 6 = 12 + p then some (s.tcfg n 8) else none

/-- A completion queue entry posted, and its interrupt after it (R297); neither by a port that may not master (R293). -/
def State.cqEntry (s : State) (p sq cid status dw0 : Nat) : State :=
  let x := s.pcie p
  let q := Sparse.get ({} : Sq) x.sqs sq
  match Sparse.find q.cq x.cqs with
  | none => s
  | some c =>
   if !s.masters p then s.pcieErrors p 0 0 0 1
   else
    let s := s.updPcie p fun y =>
      { y with cqs := Sparse.ins q.cq { c with tail := (c.tail + 1) % max 1 c.size } (Sparse.drop q.cq y.cqs) }
    let s := (s.count (pcieStat p 6) 1).send (.cqe p q.cq sq cid status dw0)
    if c.ien then (s.count (pcieStat p 6) 1).send (.msix p c.vector) else s

/-- An NVMe status: code type and code (R295). -/
def nvStatus (sct sc : Nat) : Nat := sct * 256 + sc

/-- A data error of a command (R298, R314). -/
def State.nvmeDataError (s : State) (p n sc : Nat) : State :=
  (s.count (ob 0x2D00 8) 1).evRate 0xA021 p 3 212 (sec 1) (u16 p ++ u16 n ++ u16 sc) [1] []

/-- An I/O command of the server completes (R297). -/
def State.ioDone (s : State) (p : Nat) (c : NvCmd) (status : Nat) : State :=
  let s := s.updPcie p fun x => { x with cmds := x.cmds.filter fun y => decide (y ≠ c) }
  (s.count (ob 0x2D00 7) 1).cqEntry p c.sq c.cid status 0

/-- The Namespace Attribute Notice, where the server has enabled it; without a request it waits for one
(R295). -/
def State.nsNotice (s : State) (p : Nat) : State :=
  let x := s.pcie p
  if !(Sparse.get 0 x.feats 0x0B).testBit 8 then s
  else
    match x.aers with
    | [] => s.updPcie p fun y => { y with notice := true }
    | cid :: r => (s.updPcie p fun y => { y with aers := r }).cqEntry p 0 cid 0 0x040002

/-- DriveState changes (R294, R314). -/
def State.driveState (s : State) (p new csts : Nat) : State :=
  let old := s.get (pcieStat p 4)
  if old = new then s
  else (s.set (pcieStat p 4) new).ev 0xA020 p (if new = 3 then 3 else 0) 212 (u16 p ++ u16 old ++ u16 new ++ u32 csts)

/-- A drive's initialisation begins (R294): CAP is read and CC.EN set. -/
def State.driveBegin (s : State) (p : Nat) : State :=
  (((s.updPcie p fun x => { x with initAt := s.clock }).driveState p 1 0).send (.driveInit p .readCap)).send
    (.driveInit p .enable)

/-- With CSTS.RDY the engine identifies the drive and creates IoQueuesPerDrive queue pairs of depth 256, their PRP lists in
staging (R294). -/
def State.driveQueues (s : State) (p : Nat) : State :=
  let s := (s.send (.driveInit p .identifyController)).send (.driveInit p .identifyNamespaces)
  forAll (fun k s => s.send (.driveInit p (.createQueues (k + 1) 256 (s.get (ob 0x2D00 1))))) (upTo (s.get (ob 0x2D00 6))) s

/-- The bytes of a storage unit as its cells carry it: a header of 16 bytes, then data (R297; log entry 223). -/
def storageBytes (u : SUnit) : Bytes :=
  fitBytes 16 (Config.storageHead u) ++ (match u with | .data _ _ bs => bs | _ => [])

/-- A storage unit leaves in cells of its tunnel at the port of this end: FP18, FP12 or FP13 (R297). -/
def State.sendUnit (s : State) (n : Nat) (u : SUnit) : State :=
  (s.send (.storage n u)).unitOut (s.tcfg n 6) n false (storageBytes u)

/-- What the drive side of a version-2 tunnel sends at Open (R295). -/
def State.sendNsInfo (s : State) (n endpoint : Nat) : State :=
  let p := endpoint / 4096 % 16
  match (s.pcie p).spaces.find? fun e => decide (e.1 = endpoint % 4096) with
  | some (_, blocks, lbads) => s.sendUnit n (.nsInfo blocks lbads)
  | none => s

/-- The number of bytes that the staging region holds (R294). -/
def State.stagingSize (s : State) : Nat := max 1 (s.get (ob 0x2D00 2) * 1048576)

/-- The DRAM address of a byte of a command's data in staging (R294). -/
def State.staging (s : State) (n tag off : Nat) : Nat :=
  s.get (ob 0x2D00 1) + (Config.stagingPlace n tag + off) % s.stagingSize

/-- A command's data landed in staging, and read from it (R297). -/
def State.stageIn (s : State) (n tag off : Nat) : Bytes → State
  | [] => s
  | b :: r => (s.dramPut (s.staging n tag off) b).stageIn n tag (off + 1) r
def State.stageOut (s : State) (n tag len : Nat) : Bytes := (upTo len).map fun k => s.dramByte (s.staging n tag k)

/-- The engine may write to staging now: its writes before have taken their time at StagingLimit (R294). -/
def State.stagingFree (s : State) : Bool := decide (s.stor.writer ≤ s.clock * 1000)

/-- Bytes written to staging take their time at the StagingLimit that is in force, MB/s (R294, R309). -/
def State.stagingTakes (s : State) (n : Nat) : State :=
  s.updStore fun x => { x with writer := max (s.clock * 1000) x.writer + n * 1000000 / max 1 (s.get (ob 0x2D00 3)) }

/-- Bytes of staging that commands at the drives hold. -/
def State.staged (s : State) : Nat :=
  ((s.pcie 0).drive ++ (s.pcie 1).drive).foldl (fun n c => n + c.bytes) 0

/-- The bytes that a command moves through staging: reads and writes. -/
def State.moves (s : State) (p nsid op blocks : Nat) : Nat :=
  if op = 1 ∨ op = 2 then
    match (s.pcie p).spaces.find? fun e => decide (e.1 = nsid) with
    | some (_, _, lb) => blocks * 2 ^ lb
    | none => blocks * 512
  else 0

/-- A command put into the drive's queue, its PRPs in staging (R297). -/
def State.issue (s : State) (p : Nat) (c : QdCmd) : State :=
  let (own, s) := s.newTag
  let s := s.updPcie p fun x =>
    { x with drive := x.drive ++ [{ tunnel := c.tunnel, tag := c.tag, own, nsid := c.nsid, op := c.op, bytes := s.moves p c.nsid c.op c.blocks }] }
  s.send (.driveCmd p c.nsid own c.op c.slba c.blocks (s.staging c.tunnel c.tag 0))

/-- A drive's queues have room: each of its IoQueuesPerDrive pairs has 256 entries, one of them free (R294; log entry 224). -/
def State.driveRoom (s : State) (p : Nat) : Bool := decide ((s.pcie p).drive.length < s.get (ob 0x2D00 6) * 255)

/-- Commands that waited for room in staging and in the drive's queues are issued in order while there is room, and the time
they waited is journalled (R294, R314). -/
def State.issueQueued (s : State) (p : Nat) : List QdCmd → State
  | [] => s
  | c :: r =>
    if s.driveRoom p ∧ (s.staged + s.moves p c.nsid c.op c.blocks ≤ s.stagingSize ∨ s.staged = 0) then
      let s := (s.issue p c).updPcie p fun x => { x with queued := r }
      let us := (s.clock - c.since) / 1000
      let s := if us = 0 then s else s.evRate 0xA050 p 2 216 (sec 1) (u16 p) [us] []
      s.issueQueued p r
    else s

/-- A command for the drive joins those that wait for staging. -/
def State.toDrive (s : State) (p : Nat) (c : QdCmd) : State :=
  let s := s.updPcie p fun x => { x with queued := x.queued ++ [c] }
  s.issueQueued p (s.pcie p).queued

/-- The units of a command's data, at most 4096 bytes each. -/
def State.sendData (s : State) (n tag : Nat) (data : Bytes) : State :=
  let parts := chunks (data.length + 1) 4096 data
  forAll (fun k s => s.sendUnit n (.data tag (4096 * k) (parts.getD k []))) (upTo parts.length) s

/-! Windows (R299-R308). -/

/-- A write of 1 to WindowEnable breaks a condition of R299. -/
def State.windowBad (s : State) (w : Nat) : Bool :=
  let v := fun (sub : Nat) => s.get (winKey w sub)
  let p := v 2 - 12
  let n := v 5
  let size := 2 ^ v 4
  let lo := if s.isRoot p then s.get (pcieCfg p 0x0C) else 0
  let span := 2 ^ (if s.isRoot p then s.get (pcieCfg p 0x0D) else s.get (pcieCfg p 8))
  decide (v 4 < 12 ∨ v 3 % size ≠ 0 ∨ v 6 % size ≠ 0 ∨ v 3 < lo ∨ lo + span < v 3 + size) ||
  !s.part.hasPcie p ||
  ((upTo 64).any fun u =>
    decide (u ≠ w ∧ s.get (winKey u 1) = 1 ∧ s.win u 2 = v 2 ∧ v 3 < s.win u 3 + 2 ^ s.win u 4 ∧ s.win u 3 < v 3 + size)) ||
  decide (n < 16 ∨ s.get (tunKey n 2) ≠ 1 ∨ s.get (tunKey n 6) ≠ v 2 ∨ s.get (tunKey n 8) ≠ 0)

/-- The element size of ByteLanes (R301). -/
def elemSize (lanes : Nat) : Nat := 2 ^ min lanes 3

/-- The far address of a local byte of a window (R301). -/
def State.farAddr (s : State) (w a : Nat) : Nat :=
  s.win w 6 + ((a - s.win w 3) ^^^ (elemSize (s.win w 7) - 1))

/-- The local address of a far byte (R301). -/
def State.localAddr (s : State) (w f : Nat) : Nat :=
  s.win w 3 + ((f - s.win w 6) ^^^ (elemSize (s.win w 7) - 1))

/-- The enabled window of a port that holds an address (R299). -/
def State.findWin (s : State) (p a : Nat) : Option Nat :=
  (upTo 64).find? fun w =>
    decide (s.get (winKey w 1) = 1 ∧ s.win w 2 = 12 + p ∧ s.win w 3 ≤ a ∧ a < s.win w 3 + 2 ^ s.win w 4)

/-- The enabled windows of a tunnel. -/
def State.winsOf (s : State) (n : Nat) : List Nat :=
  (upTo 64).filter fun w => decide (s.get (winKey w 1) = 1 ∧ s.win w 5 = n)

/-- The tunnel is fenced here (R305). -/
def State.isFenced (s : State) (n : Nat) : Bool := s.stor.fenced.contains n

/-- The tunnel of a window carries its transport: Open, version 1 (R299). -/
def State.winOpen (s : State) (n : Nat) : Bool := decide (s.tstate n = 3 ∧ s.tcfg n 2 = 1 ∧ s.get (tunKey n 0x12) = 1)

/-- WindowState (R313). -/
def State.winState (s : State) (w : Nat) : Nat :=
  if s.get (winKey w 1) ≠ 1 then 0
  else if s.isFenced (s.win w 5) then 2
  else if !s.winOpen (s.win w 5) then 0
  else if s.stor.lockedWins.contains w then 3 else 1

/-- The tunnel that a window names: the one in effect while it is enabled, else the one written (R313). -/
def State.winTunnel (s : State) (w : Nat) : Nat := if s.get (winKey w 1) = 1 then s.win w 5 else s.get (winKey w 5)

/-- Prefetched bytes of windows discarded and counted (R303, R314). -/
def State.dropFetched (s : State) (ws : List Nat) (old : Nat → Bool) : State :=
  forAll (fun w s =>
    let n := ((s.stor.fetched.filter fun e => decide (e.1 = w) && old e.2.2.1).map fun e => e.2.2.2.length).foldl (· + ·) 0
    if n = 0 then s
    else
      let s := s.updStore fun x => { x with fetched := x.fetched.filter fun e => !(decide (e.1 = w) && old e.2.2.1) }
      (s.count (winKey w 0x0E) n).evRate 0xA032 w 1 214 (sec 1) (u16 w) [n] []) ws s

/-- All that windows have prefetched is discarded, and what a read ahead still brings them is not stored (R303). -/
def State.dropAll (s : State) (ws : List Nat) : State :=
  (s.dropFetched ws fun _ => true).updStore fun x =>
    { x with reads := x.reads.map fun r => if ws.contains r.win then { r with fetch := false } else r }

/-- The damage that the hub itself judged of a unit that begins at a sequence: 1 lost, 2 tail-bad, 3 truncated (R298,
R305). -/
def State.hurtOf (s : State) (n seq bytes : Nat) : Nat :=
  match s.stor.hurt.find? fun e => decide (e.1 = n ∧ (e.2.1 + 65536 - seq % 65536) % 65536 < s.cellsFor n bytes) with
  | some e => e.2.2
  | none => 0

/-- Damage judged of a unit is forgotten once the unit has come. -/
def State.hurtDone (s : State) (n seq bytes : Nat) : State :=
  let k := s.cellsFor n bytes
  s.updStore fun x => { x with hurt := x.hurt.filter fun e => !decide (e.1 = n ∧ (e.2.1 + 65536 - seq % 65536) % 65536 < k) }

/-- A lock's event (R314): 1 granted, 2 refused, 3 released. -/
def State.lockEv (s : State) (w n action port : Nat) : State :=
  s.ev 0xA040 w (if action = 2 then 2 else 1) 215 (u16 w ++ u16 n ++ u16 (Config.code 0xA040 action) ++ u16 port)

/-- A unit of a window transport leaves: header and data (R300); `bad` where its TLP was poisoned (R128, R292). -/
def State.windowOut (s : State) (bad : Bool) (n kind win tag len be status addr : Nat) (data : Bytes) : State :=
  s.unitOut (s.tcfg n 6) n bad
    (u8 kind ++ u8 win ++ u16 tag ++ u16 len ++ u8 be ++ u8 status ++ u64 addr ++ data)

/-- A unit of a window transport leaves whole (R300). -/
def State.windowUnit (s : State) (n kind win tag len be status addr : Nat) (data : Bytes) : State :=
  s.windowOut false n kind win tag len be status addr data

/-- A write unit issued on the far bus in TLPs of at most MaxPayload, ascending (R300). -/
def State.farWrite (s : State) (p addr be : Nat) (data : Bytes) : State :=
  let m := max 4 (s.get (pcieCfg p 5))
  let parts := chunks (data.length + 1) m data
  forAll (fun k s =>
    let first := if k = 0 then be % 16 else 15
    let last := if k + 1 = parts.length then be / 16 % 16 else 15
    let d := parts.getD k []
    let be := if 4 < d.length then first + 16 * last
      else if k = 0 then first else if last = 0 then 15 else last
    (s.count (pcieStat p 6) 1).send (.memWrite p (addr + m * k) be d)) (upTo parts.length) s

/-- What the far bus answers to a read goes back: 0 successful, 1 UR, 2 CA, and 3 successful with poisoned data, whose unit
is tail-bad (R128, R292, R300). -/
def State.busAnswer (s : State) (n p w tag len be addr busStatus : Nat) (busData : Bytes) : State :=
  let s := s.count (pcieStat p 5) 1
  let s := if busStatus = 3 then s.pcieErrors p 0 1 0 0 else s
  s.windowOut (decide (busStatus = 3)) n 0x81 w tag len be (busStatus % 3) addr
    (if busStatus % 3 = 0 then fitBytes (4 * len) busData else [])

/-- A read unit issued on the far bus in TLPs of at most Max_Read_Request_Size, ascending (R300). -/
def State.farRead (s : State) (p addr len be : Nat) : State :=
  let parts := spansOf id (max 4 (s.pcie p).readSize) (4 * len) addr (4 * len)
  forAll (fun (e : Nat × Nat × Nat) s =>
    let first := if e.1 = addr then be % 16 else 15
    let last := if e.1 + e.2.2 = addr + 4 * len then be / 16 % 16 else 15
    let en := if 4 < e.2.2 then first + 16 * last
      else if e.1 = addr then first else if last = 0 then 15 else last
    (s.count (pcieStat p 6) 1).send (.memRead p e.2.1 (e.2.2 / 4) en)) parts s

/-- A request unit of a tunnel is issued on the far bus (R300, R304): not while the tunnel is fenced (R305) or the port may
not master (R293). A write discards what the tunnel's windows have prefetched (R303). -/
def State.issueUnit (s : State) (n p : Nat) (unit : Bytes) (busStatus : Nat) (busData : Bytes) : State :=
  let kind := byteAt unit 0
  let w := byteAt unit 1 % 64
  let tag := leAt unit 2 2
  let len := leAt unit 4 2
  let be := byteAt unit 6
  let addr := leAt unit 8 8
  if !s.live n then s
  else if s.isFenced n then if kind = 1 then s else s.windowUnit n 0x81 w tag len be 2 addr []
  else if !s.pcieUp p ∨ !s.masters p then
    let s := s.pcieErrors p 0 0 0 1
    if kind = 1 then s else s.windowUnit n 0x81 w tag len be 2 addr []
  else if kind = 1 then (s.dropAll (s.winsOf n)).farWrite p addr be (fitBytes (4 * len) (unit.drop 16))
  else if kind = 2 then (s.farRead p addr len be).busAnswer n p w tag len be addr busStatus busData
  else s

/-- A locked sequence at this hub's port ends: Unlock goes downstream and the port is released, and the units of other
tunnels and windows that waited for it are issued (R306). -/
def State.freeLock (s : State) (p : Nat) : State :=
  let n := (s.pcie p).lockTunnel
  let w := (s.pcie p).lockWin
  let hs := (s.pcie p).waiting
  if n = 0 then s
  else
    let s := (((s.updPcie p fun x => { x with lockTunnel := 0, lockWin := 0, waiting := [] }).set (pcieStat p 0x0B)
      0).send (.unlock p)).lockEv w n 3 (12 + p)
    forAll (fun (u : WinUnit) s => s.issueUnit u.tunnel p u.unit u.status u.data) hs s

/-- WindowEnable is written: 1 takes the values kept, 0 discards what the window prefetched (R303, R313). -/
def State.windowSet (s : State) (w v : Nat) : State :=
  let vs := (upTo 8).foldl (fun m k => Sparse.put 0 (k + 2) (s.get (winKey w (k + 2))) m) ([] : List (Nat × Nat))
  let s := if v = 1 then s.updStore fun x => { x with wins := Sparse.put [] w vs x.wins } else s.dropAll [w]
  s.set (winKey w 1) v

/-- A tunnel is fenced (R305): cause 1 lost, 2 tail-bad, 3 truncated. -/
def State.fence (s : State) (n w cause seq : Nat) : State :=
  let ws := s.winsOf n
  let s := forAll (fun k s => s.count (winKey k 0x10) 1) ws s
  if s.isFenced n then s
  else
    let s := s.updStore fun x => { x with fenced := n :: x.fenced, lockedWins := x.lockedWins.filter fun k => !ws.contains k }
    let s := forAll (fun k s => s.set (winKey k 0x14) s.station) ws s
    let s := s.dropAll ws
    let s := forAll (fun p s => if (s.pcie p).lockTunnel = n then s.freeLock p else s) [0, 1] s
    s.ev 0xA030 w 3 213 (u16 w ++ u16 n ++ u16 cause ++ u16 seq)

/-- A storage tunnel opens: the drive side sends its namespace's information, the server side announces a change
(R295). -/
def State.storageOpen (s : State) (n endpoint : Nat) : State :=
  let lp := s.tcfg n 6
  if s.get (tunKey n 0x12) = 2 then
    if lp = 18 then s.sendNsInfo n endpoint else if lp = 12 ∨ lp = 13 then s.nsNotice (lp - 12) else s
  else s

/-- A storage tunnel leaves Open (R295, R298, R303, R306): its commands complete with Internal Error, its prefetched bytes
go, its lock is released. -/
def State.storageClose (s : State) (n : Nat) : State :=
  let lp := s.tcfg n 6
  let p := lp - 12
  let s :=
    if lp = 12 ∨ lp = 13 then
      let mine := (s.pcie p).cmds.filter fun c => decide (c.tunnel = n)
      let s := forAll (fun c s => (s.ioDone p c (nvStatus 0 6)).nvmeDataError p n 6) mine s
      if s.get (tunKey n 0x12) = 2 then s.nsNotice p else s
    else s
  let s := forAll (fun q s => s.updPcie q fun x =>
    { x with drive := x.drive.filter fun c => decide (c.tunnel ≠ n), queued := x.queued.filter fun c => decide (c.tunnel ≠ n),
             staged := x.staged.filter fun k => decide (k / 65536 ≠ n),
             landed := x.landed.filter fun e => decide (e.1 / 65536 ≠ n) }) [0, 1] s
  let s := s.dropAll (s.winsOf n)
  let ws := s.winsOf n
  let s := s.updStore fun x =>
    { x with info := x.info.filter fun e => decide (e.1 ≠ n), lockedWins := x.lockedWins.filter fun k => !ws.contains k,
             hurt := x.hurt.filter fun e => decide (e.1 ≠ n), held := x.held.filter fun e => decide (e.tunnel ≠ n) }
  forAll (fun q s => if (s.pcie q).lockTunnel = n then s.freeLock q else s) [0, 1] s

/-- Sequences of a storage tunnel that ends here are judged lost (R112): a window transport is fenced by them at once, with
the first of its windows in the event (R305); in each case the unit that they belong to is damaged (R298). -/
def State.storageLost (s : State) (n : Nat) (ys : List Int) : State :=
  if n < 16 ∨ s.tcfg n 2 ≠ 1 ∨ s.transit n then s
  else
    let s := s.updStore fun x => { x with hurt := x.hurt ++ ys.map fun y => (n, (y % 65536).toNat, 1) }
    if s.get (tunKey n 0x12) = 1 ∧ s.live n then
      s.fence n ((s.winsOf n).headD (Config.code 0xA030 n % 64)) 1 ((ys.headD 0) % 65536).toNat
    else s

/-- The adapter of a PCIe or staging port takes a cell: the last one of a unit, tail-bad or a truncation cell, damages it
(R298, R305); data for staging takes its time (R294). -/
def State.storageTakes (s : State) (fp : Nat) (c : Cell) : State :=
  let s := if c.last ∧ c.bad ∧ c.kind = 0 then
      s.updStore fun x => { x with hurt := x.hurt ++ [(c.tunnel, c.seq % 65536, if c.len = 0 then 3 else 2)] }
    else s
  if fp = 18 ∧ c.kind = 0 then s.stagingTakes (c.len - (if c.first then 16 else 0)) else s

/-- The enabled bytes of a request by local address: all of its DWs, but the first and last by their enables (R300). -/
def enabledBytes (addr dws be : Nat) : List Nat :=
  (upTo (4 * dws)).filterMap fun k =>
    let dw := k / 4
    let en := if dw = 0 then be % 16 else if dw + 1 = dws then be / 16 % 16 else 15
    if en.testBit (k % 4) then some (addr / 4 * 4 + k) else none

/-- The runs of a request (R302): local addresses in its partial first element, whole elements and partial last one. -/
def runsOf (base e : Nat) (as : List Nat) : List (List Nat) :=
  match as with
  | [] => []
  | a :: _ =>
    let z := as.getLastD a
    let el := fun (x : Nat) => (x - base) / e
    let count := fun (k : Nat) => (as.filter fun x => decide (el x = k)).length
    let whole := fun (x : Nat) => decide (count (el x) = e) || (decide (el x ≠ el a ∧ el x ≠ el z))
    let first := as.filter fun x => decide (el x = el a) && !whole x
    let mid := as.filter fun x => whole x
    let last := as.filter fun x => decide (el x = el z ∧ el x ≠ el a) && !whole x
    [first, mid, last].filter fun r => !r.isEmpty

/-- A run as it crosses (R300, R302): far DW address, length in DWs and byte enables. A request that enables no byte crosses
as one DW without enables. -/
def State.runHead (s : State) (w addr : Nat) (as : List Nat) : Nat × Nat × Nat :=
  let fs := as.map (s.farAddr w)
  let at_ := s.farAddr w (addr / 4 * 4)
  let lo := fs.foldl min (fs.headD at_)
  let hi := if fs.isEmpty then at_ else fs.foldl max 0
  let dws := hi / 4 - lo / 4 + 1
  let en := fun (dw : Nat) => (upTo 4).foldl (fun m k => if fs.contains (dw * 4 + k) then setBit m k else m) 0
  (lo / 4 * 4, dws, en (lo / 4) + 16 * (if dws = 1 then 0 else en (hi / 4)))

/-- The far bytes of a run, its gaps 0. -/
def State.runData (s : State) (w : Nat) (as : List Nat) (addr : Nat) (data : Bytes) : Bytes :=
  let (lo, dws, _) := s.runHead w addr as
  let m := as.foldl (fun m a => Sparse.put 0 (s.farAddr w a) (byteAt data (a - addr / 4 * 4)) m) ([] : List (Nat × Nat))
  (upTo (4 * dws)).map fun k => BitVec.ofNat 8 (Sparse.get 0 m (lo + k))

/-- The runs of a request's enabled bytes; one without bytes where it enables none (R302). -/
def requestRuns (base e : Nat) (as : List Nat) : List (List Nat) :=
  let rs := runsOf base e as
  if rs.isEmpty then [[]] else rs

/-- A posted write into a window (R304); `bad` where its TLP is poisoned (R292). -/
def State.windowWrite (s : State) (p addr be : Nat) (data : Bytes) (bad : Bool) : State :=
  match s.findWin p addr with
  | none => s.pcieErrors p 0 0 1 0
  | some w =>
    let n := s.win w 5
    let s := s.count (winKey w 0x0B) 1
    if s.isFenced n ∨ !s.winOpen n then s
    else
      let rs := requestRuns (s.win w 3) (elemSize (s.win w 7)) (enabledBytes addr ((data.length + 3) / 4) be)
      let s := s.count (winKey w 0x0F) (rs.length - 1)
      let s := s.dropAll (s.winsOf n)
      forAll (fun (r : List Nat) s =>
        let (lo, dws, b) := s.runHead w addr r
        let (t, s) := s.newTag
        s.windowOut bad n 1 w t dws b 0 lo (s.runData w r addr data)) rs s

/-- Bytes reserved in the completion store of a port (R304). -/
def State.reserved (s : State) (p : Nat) : Nat :=
  ((s.stor.reads.filter fun r => decide (s.win r.win 2 = 12 + p)).map (·.reserve)).foldl (· + ·) 0

/-- A read that lies wholly inside stored bytes (R303). -/
def State.fetchHit (s : State) (w addr len : Nat) : Option Bytes :=
  s.stor.fetched.findSome? fun e =>
    if e.1 = w ∧ e.2.1 ≤ addr ∧ addr + len ≤ e.2.1 + e.2.2.2.length then some ((e.2.2.2.drop (addr - e.2.1)).take len) else none

/-- The range a prefetchable window's read asks for (R303): rounded out to 64 bytes, and on to the end of the window's
next 512-byte block; at most 4096 bytes and never past the window. -/
def State.fetchRange (s : State) (w addr len : Nat) : Nat × Nat :=
  let base := s.win w 3
  let a := (addr - base) / 64 * 64
  let z := (addr - base + len + 63) / 64 * 64
  let stop := min (min ((z - 1) / 512 * 512 + 1024) (2 ^ s.win w 4)) (a + 4096)
  (base + a, stop - a)

/-- What a read of a window asks for: where the completion store's excess is kept, or the bytes themselves (R303). -/
def State.readSpan (s : State) (w addr len : Nat) (locked : Bool) : Nat × Nat :=
  if !locked && decide (s.win w 8 = 1) then s.fetchRange w (addr / 4 * 4) (4 * len) else (addr / 4 * 4, 4 * len)

/-- A write is withheld at the requester: the ingress adapter cannot admit it (R304). -/
def State.writeHeld (s : State) (p addr : Nat) : Bool :=
  match s.findWin p addr with
  | none => false
  | some w => !s.isFenced (s.win w 5) && s.winOpen (s.win w 5) && s.adapterFull (12 + p) (s.tcfg (s.win w 5) 3)

/-- A read is withheld at the requester: the completion store has no room for it, or the ingress adapter cannot admit it
(R304). -/
def State.readHeld (s : State) (p addr len : Nat) (locked : Bool) : Bool :=
  match s.findWin p addr with
  | none => false
  | some w =>
    !(!locked && decide (s.win w 8 = 1) && (s.fetchHit w (addr / 4 * 4) (4 * len)).isSome) &&
    !s.isFenced (s.win w 5) && s.winOpen (s.win w 5) &&
    (decide (262144 < s.reserved p + (s.readSpan w addr len locked).2) ||
      s.adapterFull (12 + p) (s.tcfg (s.win w 5) 3))

/-- A read into a window that is not withheld (R303, R304); `locked` for an MRdLk. -/
def State.windowRead (s : State) (p addr len be tag : Nat) (locked : Bool) : State :=
  match s.findWin p addr with
  | none => (s.pcieErrors p 0 0 1 0).complete p tag 1 locked []
  | some w =>
    let n := s.win w 5
    let pre := !locked && decide (s.win w 8 = 1)
    let bytes := 4 * len
    let start := addr / 4 * 4
    if s.isFenced n ∨ !s.winOpen n then
      ((s.count (winKey w 0x0C) 1).pcieErrors p 0 0 0 1).complete p tag 2 locked []
    else
      match (if pre then s.fetchHit w start bytes else none) with
      | some d => ((s.count (winKey w 0x0C) 1).count (winKey w 0x0D) 1).complete p tag 0 false d
      | none =>
        let (a, m) := s.readSpan w addr len locked
        let as := if pre then (upTo m).map (a + ·) else enabledBytes addr len be
        let rs := requestRuns (s.win w 3) (elemSize (s.win w 7)) as
        let (t, s) := ((s.count (winKey w 0x0C) 1).count (winKey w 0x0F) (rs.length - 1)).newTag
        let s := s.updStore fun x =>
          { x with reads := x.reads ++ [{ tag := t, win := w, reqTag := tag, addr := start, len := bytes, reserve := m,
                                          runs := rs.length, since := s.clock, locked, fetch := pre }] }
        forAll (fun (r : List Nat) s =>
          let (lo, dws, b) := s.runHead w addr r
          s.windowUnit n (if locked then 3 else 2) w t dws b 0 lo []) rs s

end Sys2Proof.Machine
end

