-- ==== Sys2Proof/Machine/DisplayOps.lean ====
section
/-!
DEFINITION. Display outputs, layers, flips, composition, signature regions and receipts: what their commands share
(R176-R214).
-/

set_option Elab.async false

namespace Sys2Proof.Machine

open Sys2Proof

/-- Objects of an output, a layer and a region (R194, R196, R212, R213). -/
def outCfg (d sub : Nat) : Nat := ob (0x2800 + d) sub
def outStat (d sub : Nat) : Nat := ob (0x2804 + d) sub
def layCfg (l sub : Nat) : Nat := ob (0x2900 + l) sub
def layStat (l sub : Nat) : Nat := ob (0x2910 + l) sub
def regCfg (d r sub : Nat) : Nat := ob (0x2820 + 8 * d + r) sub
def regStat (d r sub : Nat) : Nat := ob (0x2840 + 8 * d + r) sub
def integ (d sub : Nat) : Nat := ob (0x2860 + d) sub

/-- An output's own state, and changed. -/
def State.disp (s : State) (d : Nat) : Disp := Sparse.get {} s.disps d
def State.updDisp (s : State) (d : Nat) (f : Disp → Disp) : State :=
  { s with disps := Sparse.put {} d (f (s.disp d)) s.disps }

/-- A region's own state, and changed. -/
def State.region (s : State) (d r : Nat) : Region := Sparse.get {} (s.disp d).regions r
def State.updRegion (s : State) (d r : Nat) (f : Region → Region) : State :=
  s.updDisp d fun x => { x with regions := Sparse.put {} r (f (s.region d r)) x.regions }

/-- OutputState (R179). -/
def State.outState (s : State) (d : Nat) : Nat := s.get (outStat d 1)

/-- A timing value in effect (R181). -/
def State.timing_ (s : State) (d sub : Nat) : Nat := Sparse.get 0 (s.disp d).timing sub

/-- A value in effect since the last latch (R181). -/
def State.latched (s : State) (d sub : Nat) : Nat := Sparse.get 0 (s.disp d).latched sub

/-- A layer's value in effect: the latched one, or the object's while its output is Off (R196). -/
def State.lay (s : State) (l sub : Nat) : Nat :=
  if s.outState (l / 4) = 0 then s.get (layCfg l sub) else Sparse.get 0 (s.disp (l / 4)).layers (l * 16 + sub)

/-- Bytes of a pixel by format (R183). -/
def pixelBytes (format : Nat) : Nat := if format = 0 then 4 else if format = 2 then 1 else 2

/-! The fetch budget (R191). -/

/-- LayerFetch by the objects' values, in MB/s (R191). -/
def layerFetch (g : Nat → Nat) (l : Nat) : Nat :=
  let d := l / 4
  let v := fun (sub : Nat) => g (outCfg d sub)
  if g (layCfg l 1) = 1 ∧ v 1 = 1 ∧ !(g (ob 0x2010 4) = 1 ∧ l % 4 ≠ 0) then
    let htotal := v 3 + v 4 + v 5 + v 6
    let lines := if v 0x0E = 1 then v 0x0C else v 7 + v 8 + v 9 + v 0x0A
    let den := max 1 (htotal * lines * 1000)
    (g (layCfg l 3) * g (layCfg l 4) * pixelBytes (g (layCfg l 2)) * v 2 + den - 1) / den
  else 0

/-- FetchSum by the objects' values (R191). -/
def fetchSum (g : Nat → Nat) : Nat := (upTo 16).foldl (fun n l => n + layerFetch g l) 0

/-- The objects' values with one of them changed. -/
def State.given (s : State) (key v : Nat) : Nat → Nat := fun k => if k = key then v else s.get k

/-- A write of the value would break the budget (R191): it raises FetchSum, or sets one of the limits. -/
def State.budgetBad (s : State) (key v : Nat) : Bool :=
  let g := s.given key v
  let limit := key = ob 0x2810 2 ∨ key = ob 0x2D00 3 ∨ key = ob 0x2010 4
  decide (limit ∨ fetchSum s.get < fetchSum g) &&
  decide (g (ob 0x2810 5) < fetchSum g + g (ob 0x2810 2) + g (ob 0x2D00 3) + g (ob 0x2810 4))

/-- A write refused for the budget is counted (R191, R195). -/
def State.budgetCount (s : State) (bad : Bool) (kind : Option Nat) : State :=
  if bad && decide (kind = some 7) then s.count (ob 0x2810 7) 1 else s

/-! Timing (R180, R181). -/

/-- VTotalNominal by a timing's values (R180). -/
def vTotalNom (v : Nat → Nat) : Nat := v 7 + v 8 + v 9 + v 0x0A

/-- The ranges of single fields that depend on the output (R176, R178, R194). -/
def outFieldBad (d sub v : Nat) : Bool :=
  if sub = 2 then decide (if d < 2 then v < 25000 ∨ 533240 < v else v < 12500 ∨ 170000 < v)
  else if sub = 3 then decide (2 ≤ d ∧ 1920 < v)
  else if sub = 7 then decide (2 ≤ d ∧ 1200 < v)
  else if sub = 0x0F then decide (if d < 2 then v = 6 else v = 10)
  else if sub = 0x16 then
    !((upTo 4).all fun k => (upTo 4).any fun j => decide (v / 16 ^ j % 16 = k))
  else false

/-- The whole timing fails the check of a write of 1 to OutputEnable (R181). -/
def State.outTimingBad (s : State) (d : Nat) : Bool :=
  let v := fun (sub : Nat) => s.get (outCfg d sub)
  let nom := vTotalNom v
  decide (nom < v 0x0C ∨ v 0x0D < nom ∨ v 8 < nom - v 0x0C + 1 ∨ (v 3 + v 4 + v 5 + v 6) * v 0x0C < 1000) ||
  outFieldBad d 2 (v 2) || outFieldBad d 3 (v 3) || outFieldBad d 7 (v 7) ||
  decide (2 ≤ d ∧ (v 3 % 2 ≠ 0 ∨ v 4 % 2 ≠ 0 ∨ v 5 % 2 ≠ 0 ∨ v 6 % 2 ≠ 0))

/-- The kinds that a write to a display object adds (R181, R191, R194, R196, R200). -/
def State.displayKinds (s : State) (i sub v : Nat) : List Nat :=
  let bad :=
    if 0x2800 ≤ i ∧ i < 0x2804 then
      let d := i - 0x2800
      outFieldBad d sub v ||
      (decide (sub = 0x0E ∧ v = 1) && decide (s.get (outCfg d 0x0C) = vTotalNom fun k => s.get (outCfg d k)))
    else if 0x2900 ≤ i ∧ i < 0x2910 then
      let l := i - 0x2900
      let g := fun (k : Nat) => if k = sub then v else s.get (layCfg l k)
      let yuv := decide (g 2 = 3)
      (decide (sub = 0x0A) && decide (g 0x0A < g 3 * pixelBytes (g 2))) ||
      (yuv && decide (sub = 2 ∨ sub = 3 ∨ sub = 5) && decide (g 3 % 2 ≠ 0 ∨ g 5 % 2 ≠ 0)) ||
      (decide (0x0B ≤ sub ∧ sub ≤ 0x0E) && decide (s.part.dramBytes ≤ v)) ||
      (decide (sub = 0x0F) && decide (s.get (layCfg l 9) ≤ v))
    else if 0x2820 ≤ i ∧ i < 0x2840 ∧ 1 ≤ sub ∧ sub ≤ 5 then
      let k := i - 0x2820
      let g := fun (j : Nat) => if j = sub then v else s.get (regCfg (k / 8) (k % 8) j)
      decide (g 1 ≠ 0) &&
      decide (s.get (outCfg (k / 8) 3) < g 2 + g 4 ∨ s.get (outCfg (k / 8) 7) < g 3 + g 5)
    else false
  (if bad then [7] else []) ++
    (if (0x2800 ≤ i ∧ i < 0x2804) ∨ (0x2900 ≤ i ∧ i < 0x2910) ∨ i = 0x2810 ∨ i = 0x2D00 then
      if s.budgetBad (ob i sub) v then [7] else [] else [])

/-! Events (R197, R214). -/

/-- An output's event; `k` is its source's place. -/
def State.outEv (s : State) (d code sev k : Nat) (args : Bytes) : State := s.ev code d sev (96 + 4 * d + k) (u16 d ++ args)

/-- A rectangle discarded (R186, R197): 1 bounds, 2 window, 3 damaged. -/
def State.rectDiscard (s : State) (d layer buf cause : Nat) : State :=
  let s := if cause = 2 then s.count (outStat d 0x15) 1 else s.count (outStat d 0x0F) 1
  s.evRate 0x6020 d 2 (96 + 4 * d + 2) (sec 1) (u16 d ++ u16 layer ++ u16 buf ++ u16 cause) [1] []

/-- A receipt that the fabric could not admit (R208, R214). -/
def State.receiptLost (s : State) (d : Nat) : State :=
  (s.count (integ d 6) 1).evRate 0x6044 d 2 (96 + 4 * d + 3) (sec 1) (u16 d ++ u8 0xFF) [1] []

/-! Regions (R198-R205). -/

/-! The scan (R180, R188). -/

/-- The line of the frame that is sent now, by the hub's clock, from the first active line on; none before it (log entry
208). -/
def State.scanLine (s : State) (d : Nat) : Option Nat :=
  let v := s.timing_ d
  let x := s.disp d
  let row := max 1 (v 3 + v 4 + v 5 + v 6)
  let n := (s.clock - x.started) * v 2 / 1000000 / row
  if s.outState d = 0 ∨ x.porch ∨ n < v 9 + v 0x0A then none else some (n - (v 9 + v 0x0A))

/-- RegionState set. -/
def State.regState (s : State) (d r v : Nat) : State := s.set (regStat d r 1) v

/-- A region's FaultLatched set or cleared, and FaultMask with it (R203, R213). -/
def State.regFault (s : State) (d r : Nat) (on : Bool) : State :=
  (s.set (regStat d r 7) (ofBool on)).set (integ d 7) (putBit (s.get (integ d 7)) r on)

/-- A region enters Arming: its completions start anew (R201, R203). -/
def State.regArm (s : State) (d r : Nat) : State :=
  let s := s.updRegion d r fun x => { x with armed := s.station, changed := false, seen := false, frame := none }
  (s.regState d r 1).setAll [(regStat d r 4, 0), (regStat d r 5, 0)]

/-- The region in effect lies inside the active area in effect (R200). -/
def State.regInside (s : State) (d r : Nat) : Bool :=
  let x := s.region d r
  decide (x.x + x.w ≤ s.timing_ d 3 ∧ x.y + x.h ≤ s.timing_ d 7)

/-- A region's configuration takes effect (R201); a change of mode or geometry re-arms it. -/
def State.regTake (s : State) (d r : Nat) : State :=
  let v := fun (sub : Nat) => s.get (regCfg d r sub)
  let x := s.region d r
  let y := { x with mode := v 1, x := v 2, y := v 3, w := v 4, h := v 5, want := v 6 }
  let same := decide (y.mode = x.mode ∧ y.x = x.x ∧ y.y = x.y ∧ y.w = x.w ∧ y.h = x.h)
  let s := s.updRegion d r fun _ => y
  if y.mode = 0 then s.regState d r 0
  else if s.get (regStat d r 1) = 5 then if s.regInside d r then s.regArm d r else s
  else if !same || decide (s.get (regStat d r 1) = 0) then s.regArm d r
  else s

/-- A region at the transition out of Off (R200). -/
def State.regStart (s : State) (d r : Nat) : State :=
  let s := s.regTake d r
  if (s.region d r).mode = 0 then s
  else if s.regInside d r then s.regArm d r
  else
    (s.regState d r 5).ev 0x6043 d 3 (96 + 4 * d + 3) (u16 d ++ u8 r ++ u16 (s.timing_ d 3) ++ u16 (s.timing_ d 7))

/-- An arm whose flip is dropped, skipped or discarded is cancelled (R205): cause 1, 2 or 3. -/
def State.expectCancel (s : State) (d num cause : Nat) : State :=
  forAll (fun r s =>
    if s.get (regCfg d r 9) = 1 ∧ s.get (regCfg d r 8) = num then
      (s.set (regCfg d r 9) 0).ev 0x6045 d 2 (96 + 4 * d + 3) (u16 d ++ u8 r ++ u16 num ++ u16 cause)
    else s) (upTo 8) s

/-- An arm whose flip is Shown applies (R205); a direct write of ExpectedSignature for the same latch wins, and cancels it
(R210). -/
def State.expectApply (s : State) (d num : Nat) : State :=
  forAll (fun r s =>
    if s.get (regCfg d r 9) = 1 ∧ s.get (regCfg d r 8) = num then
      let v := s.get (regCfg d r 7)
      if (s.region d r).direct then s.set (regCfg d r 9) 0
      else (s.setAll [(regCfg d r 6, v), (regCfg d r 9, 0)]).updRegion d r fun x => { x with want := v }
    else s) (upTo 8) s

/-! Flips (R186-R188). -/

/-- FlipsOutstanding follows the flips (R186). -/
def State.showFlips (s : State) (d : Nat) : State :=
  s.set (outStat d 0x16) ((s.disp d).flips.filter fun f => decide (f.phase < 3)).length

/-- A flip's record, by number. -/
def Disp.flip (x : Disp) (num : Nat) : Option Flip := x.flips.find? fun f => decide (f.num = num)

/-- A flip's record changed, or made. -/
def State.updFlip (s : State) (d num : Nat) (f : Flip → Flip) : State :=
  (s.updDisp d fun x =>
    if (x.flip num).isSome then { x with flips := x.flips.map fun y => if y.num = num then f y else y }
    else { x with flips := x.flips ++ [f { num := num }] }).showFlips d

/-- The flip number lies among the four outstanding ones (R186). -/
def State.inWindow (s : State) (d num : Nat) : Bool := decide ((num + 65536 - (s.disp d).oldest) % 65536 < 4)

/-- The buffers that a flip names: layer 0-3 and buffer. -/
def Flip.named (f : Flip) : List (Nat × Nat) :=
  ((upTo 4).filter fun k => f.mask.testBit k).map fun k => (k, f.bufs / 4 ^ k % 4)

/-- A buffer becomes hub-owned or host-owned (R188). -/
def State.own (s : State) (d : Nat) (e : Nat × Nat) (hub : Bool) : State :=
  s.set (layStat (4 * d + e.1) 2) (putBit (s.get (layStat (4 * d + e.1) 2)) e.2 hub)

/-- Buffers return to the host, but for those that an outstanding commit names or that are shown (R188). -/
def State.giveBack (s : State) (d : Nat) (es : List (Nat × Nat)) : State :=
  forAll (fun (e : Nat × Nat) s =>
    let x := s.disp d
    if x.flips.any fun f => decide (f.phase = 1 ∨ f.phase = 2) && f.named.contains e then s
    else if x.fronts.contains e.1 ∧ s.get (layStat (4 * d + e.1) 1) = e.2 then s
    else s.own d e false) es s

/-- Dropped flips at the front of the window leave it. -/
def popDropped : Nat → Disp → Disp
  | 0, x => x
  | n + 1, x =>
    match x.flip x.oldest with
    | some f =>
      if f.phase = 3 then
        popDropped n { x with flips := x.flips.filter fun y => decide (y.num ≠ f.num), oldest := (x.oldest + 1) % 65536 }
      else x
    | none => x

/-- A flip is dropped for its damage (R187). -/
def State.dropFlip (s : State) (d : Nat) (f : Flip) (rects : Nat) : State :=
  let s := s.updFlip d f.num fun y => { y with phase := 3 }
  let s := s.updDisp d fun x =>
    popDropped 4 { x with dropped := (x.dropped + 1) % 65536, freed := (x.freed ++ f.named).eraseDups }
  (((s.count (outStat d 0x0E) 1).showFlips d).outEv d 0x6021 2 2 (u16 f.num ++ u16 rects)).expectCancel d f.num 1

/-- The hub-owned buffers of an output: layer 0-3 and buffer (R188). -/
def State.hubOwned (s : State) (d : Nat) : List (Nat × Nat) :=
  (upTo 4).flatMap fun k =>
    ((upTo 4).filter fun b => (s.get (layStat (4 * d + k) 2)).testBit b).map fun b => (k, b)

/-- Every outstanding flip is discarded, and the hub-owned buffers that no layer shows return (R187). -/
def State.discardFlips (s : State) (d : Nat) : State :=
  let fs := (s.disp d).flips
  let es := s.hubOwned d
  let s := (s.updDisp d fun x =>
    { x with flips := [], freed := [], units := [], early := [], bads := [],
             oldest := (fs.foldl (fun m f => if (f.num + 65536 - x.oldest) % 65536 < 4 then max m ((f.num + 65536 - x.oldest) % 65536 + 1) else m) 0
                + x.oldest) % 65536 }).showFlips d
  forAll (fun (f : Flip) s => s.expectCancel d f.num 3) (fs.filter fun f => decide (f.phase < 3)) (s.giveBack d es)

/-- FrontBuffer of each enabled layer is hub-owned and every other buffer the host's (R188). -/
def State.ownFronts (s : State) (d : Nat) : State :=
  forAll (fun k s =>
    let l := 4 * d + k
    s.set (layStat l 2) (if s.get (layCfg l 1) = 1 then 2 ^ s.get (layCfg l 0x0F) else 0)) (upTo 4) s

/-! Display tunnels (R185). -/

/-- The output whose tunnel a record is: display kind, ending at FP14, its endpoint the output. -/
def State.outputOf (s : State) (n : Nat) : Option Nat :=
  if s.tcfg n 2 = 0 ∧ s.tcfg n 6 = 14 ∧ s.part.hasOutput (s.tcfg n 8) then some (s.tcfg n 8) else none

/-- The Open display tunnel of an output. -/
def State.outTunnel (s : State) (d : Nat) : Option Nat :=
  s.liveTunnels.find? fun n => decide (s.tstate n = 3 ∧ s.outputOf n = some d)

/-- A display tunnel opens (R186, R188): flips start at number 0. -/
def State.displayOpen (s : State) (n : Nat) : State :=
  match s.outputOf n with
  | none => s
  | some d =>
    let s := (s.discardFlips d).updDisp d fun x =>
      { x with oldest := 0, newest := none, dropped := 0, skipped := 0, done := -1 }
    s.ownFronts d

/-- A display tunnel leaves Open (R187). -/
def State.displayClose (s : State) (n : Nat) : State :=
  match s.outputOf n with
  | none => s
  | some d => s.discardFlips d

/-- Bytes of content in cell `j` of a unit lie from here on (R185). -/
def contentAt (j : Nat) : Nat := if j = 0 then 0 else 236 * j - 16

/-- The number of cells that a unit of so many content bytes takes (R185). -/
def unitSpan (len : Nat) : Nat := if len ≤ 220 then 1 else 1 + (len - 220 + 235) / 236

/-- The sequence after those that a unit's header declares (R185). -/
def DUnit.span (u : DUnit) : Int := u.first + unitSpan u.len

/-- A sequence lies in a unit: up to its last cell once that has come, else within the span that its header declares; a
unit that goes on past it, or is discarded without one, goes on to the next (R185, R186). -/
def DUnit.holds (u : DUnit) (seq : Int) : Bool :=
  decide (u.first ≤ seq) &&
  (match u.last with
   | some l => decide (seq ≤ l)
   | none => u.overLong || decide (u.len = 0 ∨ seq < u.span))

/-- The latest unit begun by a sequence (R185). -/
def Disp.begunBy (x : Disp) (seq : Int) : Option DUnit :=
  (x.units.filter fun u => decide (u.first ≤ seq)).foldl (fun (b : Option DUnit) u =>
    match b with
    | none => some u
    | some v => if v.first < u.first then some u else b) none

/-- The unit to which a sequence belongs: the latest one begun by then, if it holds it (R185). -/
def Disp.unitAt (x : Disp) (seq : Int) : Option DUnit := (x.begunBy seq).filter fun u => u.holds seq

/-- A unit's record changed. -/
def State.updUnit (s : State) (d : Nat) (first : Int) (f : DUnit → DUnit) : State :=
  s.updDisp d fun x => { x with units := x.units.map fun u => if u.first = first then f u else u }

/-- The DRAM address of a pixel of a layer's buffer (R183). -/
def State.pixelAddr (s : State) (l buf x y : Nat) : Nat :=
  s.lay l (0x0B + buf) + y * s.lay l 0x0A + x * pixelBytes (s.lay l 2)

/-- A byte of a shown buffer is written: above the line that is sent the frame keeps what was scanned, on that line the
byte sent is free, and below it the frame shows the new byte (R188). `row` is the output's line of the byte. -/
def State.tear (s : State) (d a : Nat) (row : Int) : State :=
  match s.scanLine d with
  | none => s
  | some n =>
    if (n : Int) < row ∨ (Sparse.find a (s.disp d).shadow).isSome then s
    else
      let (k, s) := s.draw
      let v := if row = n then Config.tornByte a k else s.dramByte a
      s.updDisp d fun x => { x with shadow := Sparse.ins a v x.shadow }

/-- Content of a rectangle from an offset on written to DRAM; bytes beyond its size are not written (R186). A version-1
line's alpha is ignored: its pixels are opaque (R188). -/
def State.writePixels (s : State) (d : Nat) (u : DUnit) (off : Nat) (bs : Bytes) : State :=
  let l := 4 * d + u.layer
  let row := max 1 (u.w * pixelBytes (s.lay l 2))
  let bs := bs.take (u.len - off)
  let shown := (s.disp d).fronts.contains u.layer && decide (s.get (layStat l 1) = u.buf)
  let s := forAll (fun k s =>
    let o := off + k
    let y := u.y + o / row
    let a := s.pixelAddr l u.buf u.x y + o % row
    let s := if shown then s.tear d a (sget 16 (s.lay l 6) + y) else s
    s.dramPut a (if u.kind = 4 ∧ o % 4 = 3 then 255 else bs.getD k 0)) (upTo bs.length) s
  s.count (layStat l 8) bs.length

/-- A cell's content placed in its unit (R185, R186). -/
def State.placeCell (s : State) (d : Nat) (u : DUnit) (seq : Int) (c : Cell) : State :=
  let j := (seq - u.first).toNat
  let bs := (c.payload.take c.len).drop (if j = 0 then 16 else 0)
  let off := contentAt j
  let s :=
    if u.kind = 1 ∨ u.kind = 4 then s.writePixels d u off bs
    else if u.kind = 3 then
      s.updUnit d u.first fun u =>
        { u with data := (upTo bs.length).foldl (fun m k => Sparse.ins (off + k) (byteAt bs k) (Sparse.drop (off + k) m)) u.data }
    else s
  if c.last then
    let wrong := c.bad || decide (c.kind = 2) || decide (off + bs.length ≠ u.len)
    let s := s.updUnit d u.first fun u => { u with ended := true, last := some seq, spoilt := u.spoilt || wrong }
    if u.kind = 1 ∧ !wrong then s.count (layStat (4 * d + u.layer) 7) 1 else s
  else s

/-- A rectangle may be written (R183, R184, R186). -/
def State.rectFits (s : State) (d : Nat) (u : DUnit) : Bool :=
  let l := 4 * d + u.layer
  decide (u.layer < 4) && !(s.hostMode 4 && decide (u.layer ≠ 0)) &&
  (if u.kind = 3 then decide (1 ≤ u.w ∧ u.x + u.w ≤ 256)
   else
    decide (u.buf < s.lay l 9 ∧ u.x + u.w ≤ s.lay l 3 ∧ u.y + u.h ≤ s.lay l 4) &&
    !(decide (s.lay l 2 = 3) && decide (u.x % 2 ≠ 0 ∨ u.w % 2 ≠ 0)))

/-- A commit (R187, R188): the buffers it names become hub-owned; a second one for the flip is ignored. -/
def State.commitFlip (s : State) (d num mask bufs : Nat) (notBefore : Option Nat) (seq : Int) : State :=
  if ((s.disp d).flip num).any fun f => decide (f.phase ≠ 0) then s
  else
    let s := s.updFlip d num fun f => { f with phase := 1, mask, bufs, notBefore, commitSeq := seq }
    let s := s.updDisp d fun x => { x with newest := some num }
    forAll (fun e s => s.own d e true) (({ num, mask, bufs } : Flip).named) s

/-- The first cell of a version-2 unit (R185, R186). -/
def State.unitFirst (s : State) (d : Nat) (seq : Int) (c : Cell) : State :=
  let b := c.payload
  let kind := byteAt b 0
  let num := leAt b 4 2
  let layer := byteAt b 1
  let u : DUnit :=
    if kind = 1 then
      { first := seq, kind := 1, flip := num, layer, buf := byteAt b 2, x := leAt b 6 2, y := leAt b 8 2,
        w := leAt b 10 2, h := leAt b 12 2,
        len := leAt b 10 2 * leAt b 12 2 * pixelBytes (s.lay (4 * d + layer) 2) }
    else if kind = 3 then
      { first := seq, kind := 3, flip := num, layer, x := byteAt b 2, w := leAt b 6 2, len := 4 * leAt b 6 2 }
    else { first := seq, kind := 0, flip := num, layer, ended := true }
  let u := { u with last := if c.last then some seq else none }
  let keep := fun (u : DUnit) (s : State) => s.updDisp d fun x => { x with units := x.units ++ [u] }
  let void := { u with kind := 0 }
  if !s.inWindow d num then keep void (s.rectDiscard d layer u.buf 2)
  else if kind = 2 then
    if s.hostMode 4 ∧ layer &&& 0x0E ≠ 0 then s.rectDiscard d layer 0 1
    else s.commitFlip d num (layer % 16) (byteAt b 6) (if (byteAt b 2).testBit 0 then some (leAt b 8 8) else none) seq
  else if (kind ≠ 1 ∧ kind ≠ 3) ∨ !s.rectFits d u then keep void (s.rectDiscard d layer u.buf 1)
  else ((keep u s).updFlip d num fun f => f).placeCell d u seq c

/-- The first cell of a version-1 raster line (R188): it lands in layer 0, in buffers 0 and 1 by turns; the frame's last
line is an implicit flip. -/
def State.lineFirst (s : State) (d : Nat) (seq : Int) (c : Cell) : State :=
  let frame := leAt c.payload 0 2
  let line := leAt c.payload 2 2
  let l := 4 * d
  let wide := s.timing_ d 3
  let u : DUnit :=
    { first := seq, kind := 4, buf := frame % 2, y := line, w := wide, h := 1, len := 4 * wide,
      last := if c.last then some seq else none }
  let ok := decide (s.lay l 2 = 0 ∧ s.lay l 3 = wide ∧ s.lay l 4 = s.timing_ d 7 ∧ s.lay l 9 = 2 ∧ line < s.timing_ d 7)
  let keep := fun (u : DUnit) (s : State) => s.updDisp d fun x => { x with units := x.units ++ [u] }
  if !ok then keep { u with kind := 0 } (s.rectDiscard d 0 u.buf 1)
  else
    let num := ((s.disp d).oldest + ((s.disp d).flips.filter fun f => decide (f.phase ≠ 0)).length) % 65536
    let u := { u with flip := num }
    let s := if s.inWindow d num then (keep u s).updFlip d num fun f => f else keep u s
    let s := s.placeCell d u seq c
    if line + 1 = s.timing_ d 7 then
      if s.inWindow d num then s.commitFlip d num 1 (frame % 2) none (seq + unitSpan u.len) else s.rectDiscard d 0 u.buf 2
    else s

/-- A cell that shows its unit to be longer than declared (R186): no last cell where the declared end lies, or a later cell
right behind it. -/
def State.outgrown (s : State) (d : Nat) (seq : Int) (c : Cell) : State :=
  match (s.disp d).begunBy seq with
  | some u =>
    if u.last = none ∧ u.len ≠ 0 ∧ ((seq + 1 = u.span ∧ c.last = false) ∨ (seq = u.span ∧ c.first = false)) then
      s.updUnit d u.first fun u => { u with overLong := true }
    else s
  | none => s

/-- Early cells that lie in a unit now are placed (R185). -/
def State.takeEarly (s : State) (d : Nat) : State :=
  let mine := fun (e : Int × Cell) => ((s.disp d).unitAt e.1).isSome
  let es := (s.disp d).early.filter mine
  if es.isEmpty then s
  else
    forAll (fun (e : Int × Cell) s =>
      match (s.disp d).unitAt e.1 with
      | some u => s.placeCell d u e.1 e.2
      | none => s) es (s.updDisp d fun x => { x with early := x.early.filter fun e => !mine e })

/-- A display cell with its sequence (R185): a first cell starts its unit and takes the early ones after it; a later one is
placed, or waits for its first. -/
def State.displayCell (s : State) (n d : Nat) (seq : Int) (c : Cell) : State :=
  if c.first then
    (((if s.get (tunKey n 0x12) = 1 then s.lineFirst d seq c else s.unitFirst d seq c).outgrown d seq c).takeEarly d)
  else
    let s := s.outgrown d seq c
    match (s.disp d).unitAt seq with
    | some u => (s.placeCell d u seq c).takeEarly d
    | none =>
      s.updDisp d fun x =>
        if x.early.length < 64 then { x with early := x.early ++ [(seq, c)] } else { x with bads := (seq, c.last) :: x.bads }

/-- A cell of the tunnel with an earlier sequence still waits in the hub. -/
def State.displayWaits (s : State) (n : Nat) (seq : Int) : Bool :=
  let before := fun (c : Cell) => decide (c.tunnel = n ∧ c.kind = 0 ∧ extend c.seq (s.tun n).h < seq)
  (s.fabric.queues.any fun e => decide (e.1 / 8 = 14) && e.2.descs.any fun q => before q.cell) ||
  (upTo 4).any fun t => (s.trunk t).held.any fun h => before h.cell

/-- The sequences of the tunnel's window from one on, below another, have been delivered or judged lost (R112, R187). -/
def State.settled (s : State) (n : Nat) (from_ upTo_ : Int) : Bool :=
  let x := s.tun n
  let lo := max from_ (x.h - 32767)
  ((upTo (upTo_ - lo).toNat).all fun k =>
    decide (lo + (k : Int) ≤ x.checked) || x.seen.contains (lo + (k : Int))) && !s.displayWaits n upTo_

/-- Every sequence below a commit's has been delivered or judged lost (R187). -/
def State.flipJudged (s : State) (n d : Nat) (f : Flip) : Bool := s.settled n ((s.disp d).done + 1) f.commitSeq

/-- The first cell of an early cell's unit is judged lost (R185): nothing before it, from the end of the unit before on, is
still to come. -/
def State.firstLost (s : State) (n d : Nat) (seq : Int) : Bool :=
  s.settled n (match (s.disp d).begunBy seq with
    | some u => (match u.last with | some l => l + 1 | none => u.span)
    | none => (s.disp d).done + 1) seq

/-- Early cells whose first cell is judged lost are discarded, and their unit is damaged (R185). -/
def State.dropEarly (s : State) (n d : Nat) : State :=
  let gone := (s.disp d).early.filter fun e => s.firstLost n d e.1
  if gone.isEmpty then s
  else s.updDisp d fun x =>
    { x with early := x.early.filter fun e => !gone.contains e, bads := x.bads ++ gone.map fun e => (e.1, e.2.last) }

/-- The units whose first cell was lost, by the sequences that lie in no unit begun: a run of them is one unit, and so is
what follows a last cell (R185, R192). -/
def strayUnits (ends : Int → Bool) : Option Int → List Int → Nat
  | _, [] => 0
  | p, z :: r => (if p = some (z - 1) ∧ !ends (z - 1) then 0 else 1) + strayUnits ends (some z) r

/-- A rectangle of which only later cells came is damaged (R192); the layer and buffer that its header named are lost. -/
def State.strayDiscard (s : State) (d : Nat) : State :=
  s.rectDiscard d (Config.code 0x6020 0 % 65536) (Config.code 0x6020 1 % 65536) 3

/-- A committed flip is judged (R186, R187): a sequence lost inside a unit damages that unit, one outside every unit a unit
of the flip; a damaged flip is shown or dropped by FlipDamagePolicy. -/
def State.judgeFlip (s : State) (n d : Nat) (f : Flip) : State :=
  let t := s.tun n
  let lo := max ((s.disp d).done + 1) (t.h - 32767)
  let ys := ((upTo (f.commitSeq - lo).toNat).map fun (k : Nat) => lo + (k : Int)).filter fun y =>
    !t.seen.contains y || (s.disp d).bads.any fun e => decide (e.1 = y)
  let early := ((s.disp d).early.filter fun e => decide (e.1 < f.commitSeq)).map fun e => (e.1, e.2.last)
  let ends := fun (z : Int) => (early ++ (s.disp d).bads).any fun e => decide (e.1 = z) && e.2
  let strays := strayUnits ends none
    (((upTo (f.commitSeq - lo).toNat).map fun (k : Nat) => lo + (k : Int)).filter fun z =>
      (ys.contains z || early.any fun e => decide (e.1 = z)) && ((s.disp d).unitAt z).isNone)
  let s := forAll (fun (y : Int) s =>
    match (s.disp d).unitAt y with
    | some u => s.updUnit d u.first fun u => { u with spoilt := true }
    | none => s) ys s
  let mine := (s.disp d).units.filter fun u => decide (u.flip = f.num ∧ u.first < f.commitSeq) && decide (u.kind ≠ 0)
  let hurt := mine.filter fun u => u.spoilt || !u.ended
  let s := forAll (fun (u : DUnit) s => s.rectDiscard d u.layer u.buf 3) hurt s
  let s := forAll (fun _ s => s.strayDiscard d) (upTo strays) s
  let pals := (mine.filter fun u => decide (u.kind = 3) && u.ended && !u.spoilt).map fun u =>
    (u.layer, u.x, (upTo u.len).map fun k => BitVec.ofNat 8 (Sparse.get 0 u.data k))
  let s := s.updDisp d fun x =>
    { x with done := max x.done f.commitSeq, bads := x.bads.filter fun y => decide (f.commitSeq < y.1),
             early := x.early.filter fun e => decide (f.commitSeq < e.1),
             units := x.units.filter fun u => decide (f.commitSeq < u.first) || (decide (u.flip ≠ f.num) && decide (u.kind ≠ 0)) }
  let damaged := decide (strays ≠ 0) || !hurt.isEmpty
  if damaged ∧ s.latched d 0x18 = 1 then s.dropFlip d f (hurt.length + strays)
  else s.updFlip d f.num fun y => { y with phase := 2, damaged, palettes := pals }

/-- The committed flips of an output whose sequences are all judged become Ready or Dropped (R187). -/
def State.judgeFlips (s : State) (d : Nat) : State :=
  match s.outTunnel d with
  | none => s
  | some n =>
    let s := s.dropEarly n d
    forAll (fun (f : Flip) s => if f.phase = 1 ∧ s.flipJudged n d f then s.judgeFlip n d f else s) (s.disp d).flips s

/-! The latch (R180, R187, R189). -/

/-- The time from a latch to the frame's first active pixel, in ns (R180). -/
def State.toFirstPixel (s : State) (d : Nat) : Nat :=
  let v := s.timing_ d
  (v 9 + v 0x0A) * (v 3 + v 4 + v 5 + v 6) * 1000000 / max 1 (v 2)

/-- A flip is Shown (R187, R188): layers take its buffers and its palettes apply; the old front buffers go back with the
frame's receipt. -/
def State.showFlip (s : State) (d : Nat) (f : Flip) : State :=
  let old := f.named.filterMap fun e =>
    let now := s.get (layStat (4 * d + e.1) 1)
    if (s.disp d).fronts.contains e.1 ∧ now ≠ e.2 then some (e.1, now) else none
  let s := s.updDisp d fun x =>
    { x with flips := x.flips.filter fun y => decide (y.num ≠ f.num), oldest := (f.num + 1) % 65536,
             fronts := (f.named.map (·.1)) ++ x.fronts.filter fun k => !f.mask.testBit k,
             freed := (x.freed ++ old).eraseDups }
  let s := forAll (fun (e : Nat × Nat) s => s.set (layStat (4 * d + e.1) 1) e.2) f.named s
  let s := forAll (fun (p : Nat × Nat × Bytes) s =>
    let k := layCfg (4 * d + p.1) 0x10
    let bs := leBytes 1024 (s.get k)
    let v := leNat (bs.take (4 * p.2.1) ++ p.2.2 ++ bs.drop (4 * p.2.1 + p.2.2.length))
    (s.set k v).updDisp d fun x => { x with palettes := Sparse.put 0 p.1 v x.palettes }) f.palettes s
  let s := s.updDisp d popDropped4
  (((s.set (outStat d 5) f.num).count (outStat d 0x0C) 1).showFlips d).expectApply d f.num
where
  popDropped4 (x : Disp) : Disp := popDropped 4 x

/-- The oldest outstanding flip, if it is Ready and eligible for a frame latched now (R187). -/
def State.readyFlip (s : State) (d num : Nat) : Option Flip :=
  match (s.disp d).flip num with
  | some f => if f.phase = 2 ∧ f.notBefore.all fun t => decide (t ≤ s.station + s.toFirstPixel d) then some f else none
  | none => none

/-- The flips of a latch (R187): in queue mode 1 a Ready flip before another Ready one is skipped. Tells the flip shown. -/
def State.latchFlip (s : State) (d : Nat) : Nat → Option Flip × State
  | 0 => (none, s)
  | n + 1 =>
    match s.readyFlip d (s.disp d).oldest with
    | none => (none, s)
    | some f =>
      if s.latched d 0x17 = 1 ∧ (s.readyFlip d ((f.num + 1) % 65536)).isSome then
        let s := s.updDisp d fun x =>
          { x with flips := x.flips.filter fun y => decide (y.num ≠ f.num), oldest := (f.num + 1) % 65536,
                   skipped := (x.skipped + 1) % 65536, freed := (x.freed ++ f.named).eraseDups }
        let s := ((s.count (outStat d 0x0D) 1).showFlips d).expectCancel d f.num 2
        s.latchFlip d n
      else (some f, s.showFlip d f)

/-- GlideActive follows GlideEnable and the sink (R177, R178); a Running DisplayPort sink is told of a change. -/
def State.glideActive (s : State) (d : Nat) : State :=
  let on := decide (s.latched d 0x0E = 1) && (decide (2 ≤ d) || (s.disp d).adapt.testBit 6)
  let told := decide (d < 2 ∧ s.outState d = 2 ∧ s.get (outStat d 0x13) ≠ ofBool on)
  onlyIf told (·.send (.dpIgnoreMsa d on)) (s.set (outStat d 0x13) (ofBool on))

/-- A DisplayPort output whose sink cannot be told to ignore the nominal timing does not glide, and says so (R177). -/
def State.noGlide (s : State) (d : Nat) : State :=
  if s.latched d 0x0E = 1 ∧ d < 2 ∧ !(s.disp d).adapt.testBit 6 then s.outEv d 0x6003 2 0 (u16 (s.disp d).adapt) else s

/-- The values that take effect at a latch are taken (R181, R196, R201); GlideEnable 1 that takes effect now may find a
sink without it (R177). -/
def State.takeValues (s : State) (d : Nat) : State :=
  let lat := ([0x0E, 0x15, 0x16, 0x17, 0x18] : List Nat).foldl (fun m k => Sparse.put 0 k (s.get (outCfg d k)) m) []
  let lay := ((upTo 4).flatMap fun k => (upTo 15).map fun j => (4 * d + k, j + 1)).foldl
    (fun m e => Sparse.put 0 (e.1 * 16 + e.2) (s.get (layCfg e.1 e.2)) m) ([] : List (Nat × Nat))
  let pal := (upTo 4).foldl (fun m k => Sparse.put 0 k (s.get (layCfg (4 * d + k) 0x10)) m) ([] : List (Nat × Nat))
  let fresh := decide (s.latched d 0x0E ≠ 1 ∧ s.outState d = 2)
  let s := s.updDisp d fun x => { x with latched := lat, layers := lay, palettes := pal }
  let s := if fresh then s.noGlide d else s
  if s.outState d = 2 ∨ 2 ≤ d then s.glideActive d else s

/-- The latch of a frame (R180, R187-R189, R201). `expired` tells that glide ran out. -/
def State.latch (s : State) (d : Nat) (expired : Bool) : State :=
  let s := s.takeValues d
  let s := forAll (fun r s => s.regTake d r) (upTo 8) s
  let s := if (s.disp d).rearm ∧ s.get (ob 0x2011 4) ≠ 2 then
      (forAll (fun r s => if (s.region d r).mode ≠ 0 ∧ s.get (regStat d r 1) ≠ 5 then s.regArm d r else s) (upTo 8) s).updDisp d
        fun x => { x with rearm := false }
    else s
  let x := s.disp d
  let v := s.timing_ d
  let nom := vTotalNom v
  let now := x.base + x.line
  let late := now - x.due
  let slip := decide (nom ≤ late)
  let s := s.countWrap (outStat d 3) 1
  let s := if slip then (s.count (outStat d 0x0B) 1).outEv d 0x6011 2 1 (u16 late ++ u32 (s.get (outStat d 3))) else s
  let due := if slip then now else x.due
  let late := if slip then 0 else late
  let plan := max (v 8 - (nom - v 0x0C)) (v 8 - late)
  let short := decide (plan < v 8)
  let s := if short then s.count (outStat d 0x0A) 1 else s
  let s := if x.glided then s.count (outStat d 7) 1 else s
  let s := s.setAll [(outStat d 6, late), (outStat d 4, s.station + s.toFirstPixel d)]
  let s := s.updDisp d fun x =>
    { x with due := due + nom, plan, base := now + v 9 + v 0x0A + v 7, line := 0, porch := false, blanked := 0,
             blankAt := [], shadow := [], latchTime := s.station, started := s.clock, glided := false,
             blankDue := false }
  let (shown, s) := s.latchFlip d 4
  let s := forAll (fun r s => s.updRegion d r fun x => { x with direct := false }) (upTo 8) s
  let bit := fun (b : Bool) (k : Nat) => if b then 2 ^ k else 0
  let flags := bit (decide (s.outState d ≠ 2)) 0 + bit shown.isSome 1 + bit (shown.any fun f => f.damaged) 2 +
    bit x.glided 3 + bit expired 4 + bit slip 5 + bit short 6
  s.updDisp d fun y => { y with flags, left := s.get (outStat d 0x16), leftAt := y.oldest }

/-- The front porch is held back by the oldest outstanding flip (R189). -/
def State.waiting (s : State) (d : Nat) : Bool :=
  match (s.disp d).flip (s.disp d).oldest with
  | some f => decide (f.phase ≤ 1) && f.notBefore.all fun t => decide (t ≤ s.station + s.toFirstPixel d)
  | none => false

/-! Output states (R179). -/

/-- The output goes Down (R179). -/
def State.outDown (s : State) (d reason : Nat) : State :=
  let s := (s.stop (.hpdLow d)).setAll [(outStat d 1, 3), (outStat d 2, reason), (outStat d 0x10, 0), (outStat d 0x11, 0)]
  s.outEv d 0x6002 3 0 (u16 reason ++ u32 (s.get (outStat d 3)))

/-- The output is Starting: a DisplayPort output waits for HPD (R179). -/
def State.outStarting (s : State) (d : Nat) : State :=
  let s := s.setAll [(outStat d 1, 1), (outStat d 2, 0)]
  if d < 2 ∧ !(s.disp d).hpd then s.start (.hpdLow d) else s

/-- The output leaves Off while enabled with PD8 on (R179-R181, R188, R200). All of OutputConfig but what R181 takes at a
latch is taken then (log entry 218). -/
def State.outStart (s : State) (d : Nat) : State :=
  if 3 ≤ s.dev ∧ s.part.hasOutput d ∧ s.outState d = 0 ∧ s.get (outCfg d 1) = 1 ∧ s.domainOn 8 ∧ !s.outTimingBad d then
    let tim := (upTo 24).foldl (fun m k => Sparse.put 0 (k + 1) (s.get (outCfg d (k + 1))) m) ([] : List (Nat × Nat))
    let nomVfp := s.get (outCfg d 8)
    let s := s.updDisp d fun x =>
      { x with timing := tim, porch := true, base := 0, line := 0, due := nomVfp, plan := nomVfp, glided := false,
               fronts := (upTo 4).filter fun k => decide (s.get (layCfg (4 * d + k) 1) = 1) }
    let s := forAll (fun k s =>
      if s.get (layCfg (4 * d + k) 1) = 1 then s.set (layStat (4 * d + k) 1) (s.get (layCfg (4 * d + k) 0x0F)) else s) (upTo 4) s
    let s := ((s.outStarting d).takeValues d).ownFronts d
    forAll (fun r s => s.regStart d r) (upTo 8) (s.send (.panel d 1))
  else s

/-- The output enters Off (R179, R203). -/
def State.outOff (s : State) (d : Nat) : State :=
  if s.outState d = 0 then s
  else
    let s := ((s.stop (.hpdLow d)).discardFlips d).setAll
      [(outStat d 1, 0), (outStat d 2, 0), (outStat d 0x10, 0), (outStat d 0x11, 0), (outStat d 0x13, 0)]
    forAll (fun r s => s.regState d r 0) (upTo 8) (s.send (.panel d 0))

/-- PD8 is switched on or off, or its power-good is lost or returns (R179). -/
def State.displaysOn (s : State) : State := forAll (fun d s => s.outStart d) (upTo 4) s
def State.displaysOff (s : State) : State := forAll (fun d s => s.outOff d) (upTo 4) s
def State.displaysFail (s : State) : State :=
  forAll (fun d s => if s.outState d = 2 then s.outDown d 4 else s) (upTo 4) s
def State.displaysGood (s : State) : State :=
  forAll (fun d s => if s.outState d = 3 ∧ s.domainOn 8 then s.outStarting d else s) (upTo 4) s

/-- The switch of function 4 discards the flips, blanks at least one frame and re-arms the regions (R54, R187, R210). -/
def State.displaySwitch (s : State) : State :=
  forAll (fun d s => (s.discardFlips d).updDisp d fun x => { x with rearm := true, blankDue := true }) (upTo 4) s

/-! Composition (R182, R183) and signatures (R199). -/

/-- Bytes of DRAM as this frame of the output scans them (R188). -/
def State.scanRead (s : State) (d a n : Nat) : Bytes :=
  (upTo n).map fun k => (Sparse.find (a + k) (s.disp d).shadow).getD (s.dramByte (a + k))

/-- A layer's Palette in effect: the latched one, or the object's while its output is Off (R196). -/
def State.palette (s : State) (l : Nat) : Nat :=
  if s.outState (l / 4) = 0 then s.get (layCfg l 0x10) else Sparse.get 0 (s.disp (l / 4)).palettes (l % 4)

/-- A converted component: the exact value, held to 8 bits; where it is no whole number its rounding is free (R183). -/
def component (matrix : Nat) (num : Int) (den : Nat) : Nat :=
  let v := num / den + (if num % den ≠ 0 ∧ Config.yuvUp matrix num den then 1 else 0)
  min 255 v.toNat

/-- Red, green and blue of a limited-range Y, U, V by BT.601 (0) or BT.709 (1), with the matrices of those standards
(R183, log entry 209). -/
def yuvRgb (matrix y u v : Nat) : Nat × Nat × Nat :=
  let (kr, kg, kb) : Nat × Nat × Nat := if matrix = 0 then (2990, 5870, 1140) else (2126, 7152, 722)
  let l : Int := 255 * ((y : Int) - 16) * 1120000
  let du : Int := (u : Int) - 128
  let dv : Int := (v : Int) - 128
  (component matrix (l + 55845 * ((10000 - kr : Nat) : Int) * dv) 245280000,
   component matrix (l * kg - 55845 * (((10000 - kb) * kb : Nat) * du + ((10000 - kr) * kr : Nat) * dv)) (245280000 * kg),
   component matrix (l + 55845 * ((10000 - kb : Nat) : Int) * du) 245280000)

/-- A pixel of a layer's front buffer: alpha and colour, 8 bits each (R183). -/
def State.layerPixel (s : State) (l x y : Nat) : Nat × Nat × Nat × Nat :=
  let b := s.get (layStat l 1)
  let d := l / 4
  let a := s.pixelAddr l b x y
  let argb := fun (v : Nat) => (v / 2 ^ 24 % 256, v / 65536 % 256, v / 256 % 256, v % 256)
  match s.lay l 2 with
  | 0 => argb (leNat (s.scanRead d a 4))
  | 1 =>
    let v := leNat (s.scanRead d a 2)
    let r := v / 2048 % 32
    let g := v / 32 % 64
    let c := v % 32
    (255, r * 8 + r / 4, g * 4 + g / 16, c * 8 + c / 4)
  | 2 => argb (leAt (leBytes 1024 (s.palette l)) (4 * leNat (s.scanRead d a 1)) 4)
  | _ =>
    let p := s.pixelAddr l b (x / 2 * 2) y
    let q := s.scanRead d p 4
    let (r, g, c) := yuvRgb (s.lay l 8) (byteAt q (if x % 2 = 0 then 0 else 2)) (byteAt q 1) (byteAt q 3)
    (255, r, g, c)

/-- A component blended over the one below it (R182): src × a + dst × (1 − a), a over 65 025; where that is no whole number
its rounding is free. -/
def blend (src dst a : Nat) : Nat :=
  let v := src * a + dst * (65025 - a)
  v / 65025 + ofBool (decide (v % 65025 ≠ 0) && Config.blendUp v)

/-- A component of 8 bits at 12 bits (R182); the bits below it are free. -/
def widen (v : Nat) : Nat := 16 * (v % 256) + Config.widen12 (v % 256) % 16

/-- A component rounded half up from 12 bits (R182). -/
def round12to (bits v : Nat) : Nat := min ((v + 2 ^ (11 - bits)) / 2 ^ (12 - bits)) (2 ^ bits - 1)

/-- The pixel of layer `k` that lies at a pixel of the output, if the layer is shown there: enabled, with a front buffer, of
the function's mode, and not in a frame blanked by a switch (R54, R182, R184). -/
def State.layerAt (s : State) (d k x y : Nat) : Option (Nat × Nat) :=
  let l := 4 * d + k
  let lx : Int := (x : Int) - sget 16 (s.lay l 5)
  let ly : Int := (y : Int) - sget 16 (s.lay l 6)
  if s.lay l 1 = 1 ∧ (s.disp d).fronts.contains k ∧ !(s.hostMode 4 ∧ k ≠ 0) ∧ s.get (ob 0x2011 4) ≠ 2 ∧
      0 ≤ lx ∧ lx < s.lay l 3 ∧ 0 ≤ ly ∧ ly < s.lay l 4 then some (lx.toNat, ly.toNat)
  else none

/-- An underrun has blanked the layer from an earlier pixel of the frame on, or from this one (R190). -/
def State.blankedAt (s : State) (d k x y : Nat) : Bool :=
  (s.disp d).blanked.testBit k && decide (Sparse.get 0 (s.disp d).blankAt k ≤ y * 65536 + x)

/-- The composed pixel of an output: red, green and blue at 12 bits (R182, R184, R190). -/
def State.composed (s : State) (d x y : Nat) : Nat × Nat × Nat :=
  let bg := s.latched d 0x15
  let w := widen
  let order := (upTo 4).map fun k => s.latched d 0x16 / 16 ^ k % 16
  order.foldl (fun (c : Nat × Nat × Nat) k =>
    match (if s.blankedAt d k x y then none else s.layerAt d k x y) with
    | some (lx, ly) =>
      let (a, r, g, b) := s.layerPixel (4 * d + k) lx ly
      let m := a * s.lay (4 * d + k) 7
      (blend (w r) c.1 m, blend (w g) c.2.1 m, blend (w b) c.2.2 m)
    | none => c) (w (bg / 65536), w (bg / 256), w bg)

/-- The pixels of a layer inside the active area from one of them on, in the order of the scan (R190). -/
def State.pixelsFrom (s : State) (d k x y : Nat) : Nat :=
  let l := 4 * d + k
  let px := sget 16 (s.lay l 5)
  let py := sget 16 (s.lay l 6)
  let x0 := px.toNat
  let x1 := min (s.timing_ d 3) (px + s.lay l 3).toNat
  let y1 := min (s.timing_ d 7) (py + s.lay l 4).toNat
  (y1 - (y + 1)) * (x1 - x0) + (x1 - x)

/-- The bytes that a pixel gives a signature (R199). -/
def State.signedPixel (s : State) (d x y : Nat) : Bytes :=
  let (r, g, b) := s.composed d x y
  let bits := s.timing_ d 0x0F
  let f := fun (v : Nat) => leBytes (if bits = 10 then 2 else 1) (round12to bits v)
  f r ++ f g ++ f b

/-- A DisplayPort frame's active lines at its BitsPerComponent (R177, R182). -/
def State.rgbFrame (s : State) (d : Nat) : List (List (Nat × Nat × Nat)) :=
  let f := round12to (s.timing_ d 0x0F)
  (upTo (s.timing_ d 7)).map fun y => (upTo (s.timing_ d 3)).map fun x =>
    let (r, g, b) := s.composed d x y
    (f r, f g, f b)

/-! The LVDS links (R178). -/

/-- A pixel's word on an LVDS channel: four pairs of seven bits at 24 bits, three at 18, pair 0 lowest, mapped as in VESA
(0) or JEIDA (1); `ctl` is DE, VSync and HSync (R178, log entry 209). -/
def lvdsWord (bits mapping ctl r g b : Nat) : Nat :=
  let word := fun (r g b : Nat) => field r 0 6 + field g 0 1 * 2 ^ 6 + field g 1 5 * 2 ^ 7 + field b 0 2 * 2 ^ 12 +
    field b 2 4 * 2 ^ 14 + ctl * 2 ^ 18
  if bits = 6 then word r g b
  else if mapping = 0 then
    word r g b + 2 ^ 21 * (field r 6 2 + field g 6 2 * 4 + field b 6 2 * 16)
  else word (r / 4) (g / 4) (b / 4) + 2 ^ 21 * (field r 0 2 + field g 0 2 * 4 + field b 0 2 * 16)

/-- A pixel's word: DE is 1, and the syncs rest at the level that SyncPolarity gives (R178, R194). -/
def State.lvdsPixel (s : State) (d x y : Nat) : Nat :=
  let (r, g, b) := s.composed d x y
  let v := s.timing_ d
  let bits := v 0x0F
  let rest := v 0x0B
  let ctl := (1 - rest % 2) + 2 * (1 - rest / 2 % 2) + 4
  lvdsWord bits (v 0x13) ctl (round12to bits r) (round12to bits g) (round12to bits b)

/-- A frame's active lines on the two channels of an LVDS output: odd pixels, counted from 1, on the first and even ones on
the second, or the other way with LvdsChannelSwap (R178). -/
def State.lvdsFrame (s : State) (d : Nat) : List (List (Nat × Nat)) :=
  (upTo (s.timing_ d 7)).map fun y => (upTo (s.timing_ d 3 / 2)).map fun i =>
    let odd := s.lvdsPixel d (2 * i) y
    let even := s.lvdsPixel d (2 * i + 1) y
    if s.timing_ d 0x14 = 1 then (even, odd) else (odd, even)

/-- The signature of a region over the pixels now in the buffers shown (R199). -/
def State.signature (s : State) (d r : Nat) : Nat :=
  let g := s.region d r
  crc32c ((upTo g.h).flatMap fun j => (upTo g.w).flatMap fun i => s.signedPixel d (g.x + i) (g.y + j))

/-- A region is declared Frozen (R203, R206, R214): criterion 1 frame count, 2 time. -/
def State.frozen_ (s : State) (d r criterion : Nat) : State :=
  let ms := (s.station - s.get (regStat d r 6)) / 1000000
  let s := (((s.regState d r 3).regFault d r true).count (regStat d r 8) 1).set (regStat d r 0x0A) s.station
  let s := s.updRegion d r fun x => { x with fault := s.clock }
  (s.danger 0x6040 d (96 + 4 * d + 3)
    (u16 d ++ u8 r ++ u16 criterion ++ u16 (s.get (regStat d r 4)) ++ u16 ms ++ u32 (s.get (regStat d r 2)))).latchSf 0

/-- A region is declared Mismatch (R203, R206, R214). -/
def State.mismatch (s : State) (d r : Nat) : State :=
  let s := (((s.regState d r 4).regFault d r true).count (regStat d r 9) 1).set (regStat d r 0x0A) s.station
  let s := s.updRegion d r fun x => { x with fault := s.clock }
  (s.danger 0x6041 d (96 + 4 * d + 3)
    (u16 d ++ u8 r ++ u32 (s.region d r).want ++ u32 (s.get (regStat d r 2)) ++ u32 (s.get (outStat d 3)))).latchSf 0

/-- A region returns to Good (R203, R214). -/
def State.restored (s : State) (d r : Nat) : State :=
  let left := s.get (regStat d r 1)
  (s.regState d r 2).ev 0x6042 d 1 (96 + 4 * d + 3)
    (u16 d ++ u8 r ++ u16 left ++ u32 ((s.clock - (s.region d r).fault) / 1000000))

/-- A completion in heartbeat mode (R202, R203). -/
def State.heartbeat (s : State) (d r : Nat) (was sig : Nat) : State :=
  let st := s.get (regStat d r 1)
  if st = 1 then (s.regState d r 2).setAll [(regStat d r 4, 0), (regStat d r 6, s.station)]
  else if was ≠ sig then
    let s := s.setAll [(regStat d r 4, 0), (regStat d r 6, s.station)]
    if st = 3 ∨ st = 4 then s.restored d r else s
  else
    let s := s.countSat (regStat d r 4) 1
    if st = 2 then if s.get (integ d 1) ≤ s.get (regStat d r 4) then s.frozen_ d r 1 else s
    else s.regFault d r true

/-- A completion in must-match mode (R202, R203). -/
def State.mustMatch (s : State) (d r : Nat) (sig : Nat) : State :=
  let st := s.get (regStat d r 1)
  let s := s.set (regStat d r 6) s.station
  if sig = (s.region d r).want then
    let s := s.set (regStat d r 5) 0
    if st = 3 ∨ st = 4 then s.restored d r else s.regState d r 2
  else
    let s := s.countSat (regStat d r 5) 1
    let s := if st = 3 then s.restored d r else if st = 1 then s.regState d r 2 else s
    if st = 4 then s.regFault d r true
    else if s.get (integ d 3) ≤ s.get (regStat d r 5) then s.mismatch d r else s

/-! Completions (R199). -/

/-- The region has completed in the frame that is being sent. -/
def State.completed (s : State) (d r : Nat) : Bool := decide ((s.region d r).frame = some (s.get (outStat d 3)))

/-- A region whose signature is still to complete in this frame: it is not Off or Invalid, and no switch of the display
function keeps it unjudged (R199, R210). -/
def State.pendingRegion (s : State) (d r : Nat) : Bool :=
  !(s.disp d).rearm && decide (s.outState d ≠ 0 ∧ (s.region d r).mode ≠ 0 ∧ s.get (regStat d r 1) ≠ 0 ∧ s.get (regStat d r 1) ≠ 5) &&
    !(s.disp d).porch && !s.completed d r

/-- The line at whose end a region's signature is complete (R199). -/
def State.lastLine (s : State) (d r : Nat) : Nat := (s.region d r).y + (s.region d r).h - 1

/-- A region's signature is complete and judged (R199, R202, R203). -/
def State.regComplete (s : State) (d r : Nat) : State :=
  let sig := s.signature d r
  let was := s.get (regStat d r 2)
  let n := s.get (outStat d 3)
  let s := s.updRegion d r fun x => { x with changed := decide (x.seen ∧ was ≠ sig), seen := true, frame := some n }
  let s := s.setAll [(regStat d r 2, sig), (regStat d r 3, n)]
  if (s.region d r).mode = 1 then s.heartbeat d r was sig else s.mustMatch d r sig

/-! Receipts (R208). -/

/-- The receipt of an output's frame, 80 bytes (R208). -/
def State.receipt (s : State) (d : Nat) : Bytes :=
  let x := s.disp d
  let st := fun (r : Nat) => s.get (regStat d r 1)
  let mask := fun (p : Nat → Bool) => (upTo 8).foldl (fun m r => if p r then setBit m r else m) 0
  let own := (upTo 4).foldl (fun m k => m + s.get (layStat (4 * d + k) 2) % 16 * 16 ^ k) 0
  let pairs := (upTo 8).foldl (fun m r =>
    m + (if st r = 3 then 1 else if st r = 4 then 2 else if st r = 5 then 3 else 0) * 4 ^ r) 0
  let sig := fun (r : Nat) =>
    if st r = 0 ∨ st r = 5 ∨ !(s.region d r).seen then 0 else s.get (regStat d r 2)
  u8 0x81 ++ u8 d ++ u8 x.flags ++ u8 x.blanked ++ u16 (s.get (outStat d 5)) ++ u16 (s.get (outStat d 6)) ++
  u32 (s.get (outStat d 3)) ++ u16 own ++ u16 0 ++ u64 (s.get (outStat d 4)) ++ u64 x.latchTime ++
  u16 (x.newest.getD 0) ++ u8 (ofBool x.newest.isSome) ++ u8 x.left ++ u16 x.leftAt ++
  u16 x.dropped ++ u16 x.skipped ++ u8 (mask fun r => decide ((s.region d r).mode ≠ 0)) ++
  u8 (mask fun r => decide (s.get (regStat d r 7) = 1)) ++ u16 pairs ++ u8 (mask fun r => (s.region d r).changed && s.completed d r) ++ u8 0 ++
  ((upTo 8).map fun r => u32 (sig r)).flatten

end Sys2Proof.Machine
end

