-- ==== Sys2Proof/Machine/Operands.lean ====
section
/-!
DEFINITION. How an access to the dictionary is judged (R30, R37-R42): rights, sizes, modes, states and ranges, the
lowest code winning.
-/

set_option Elab.async false

namespace Sys2Proof.Machine

open Sys2Proof

/-- The function whose profile presents an index (R53, R54); 0 for none. Which index ranges a function's profile presents
is DESIGN CHOICE, log entry 228. -/
def profileFn (i : Nat) : Nat :=
  if 0x2100 ≤ i ∧ i < 0x2500 then 1
  else if 0x2500 ≤ i ∧ i < 0x2600 then 2
  else if 0x2600 ≤ i ∧ i < 0x2800 then 3
  else if 0x2800 ≤ i ∧ i < 0x2A00 then 4
  else if 0x2A00 ≤ i ∧ i < 0x2B00 then 5
  else if 0x2D00 ≤ i ∧ i < 0x2E00 then 7
  else if (0x2E00 ≤ i ∧ i < 0x2F00) ∨ (0x5000 ≤ i ∧ i < 0x5400) then 8
  else if 0x2F00 ≤ i ∧ i < 0x2F10 then 9
  else 0

/-- The function of the index presents profile 1 (R53). -/
def State.oldProfile (s : State) (i : Nat) : Bool :=
  decide (profileFn (plainIndex i) ≠ 0) && decide (s.get (ob 0x1F90 (profileFn (plainIndex i))) = 1)

/-- The object is missing: outside the tables, of an absent port (R2), without a record (R31), or lacking in the
QH5-12 layout while that is presented (R53). -/
def State.missing (s : State) (i sub : Nat) : Bool :=
  (rowAt i sub).isNone || s.part.lacks i sub || decide (i = 0x3000 ∨ (0x3005 ≤ i ∧ i ≤ 0x300F)) ||
  decide (i = 0x2550 ∨ (0x2514 ≤ i ∧ i < 0x2524 ∧ sub = 0x1A)) ||
  (s.oldProfile i && Config.qh5Lacks (profileFn (plainIndex i)) (plainIndex i))

/-- The rights a write or command needs: the object's write level, with the exceptions the chapters name. -/
def writeLevel (i sub v : Nat) (r : ObjRow) : Nat :=
  if (i = 0x1010 ∨ i = 0x1011) ∧ (sub = 1 ∨ sub = 4) then 3
  else if sub = 0xF0 ∧ i = 0x6000 ∧ (v % 256 = 2 ∨ v = 3) then 3
  else if sub = 0xF0 ∧ i = 0x6002 then 3
  else if sub = 0xF0 ∧ i = 0x2F10 ∧ v = 1 then 3
  else r.level

/-- The bootstrap enrolment of R349: on the service port, in Provisioning, while slot 112 is invalid. -/
def State.bootstrap (s : State) (p : Path) : Bool :=
  decide (p = .service ∧ s.secu.life = 1 ∧ s.get (ob (slotIndex 112) 2) = 0)

/-- The rights a write needs on its path (R30, R349). -/
def State.levelFor (s : State) (p : Path) (i sub v : Nat) (r : ObjRow) : Nat :=
  if s.bootstrap p && decide (i = slotIndex 112 ∨
      (i = 0x4002 ∧ sub = 0xF0 ∧ v = 2 ∧ s.get (ob (heldIndex p.held 0x4002) 1) = 112 ∧ s.get (ob (slotIndex 112) 5) = 1))
  then 0
  else writeLevel i sub v r

/-- The value lies in the row's range (R37 kind 7); BOOL takes 0 and 1 only (R28). -/
def inRange (r : ObjRow) (v : Nat) : Bool :=
  (decide (r.type ≠ 1) || decide (v ≤ 1)) &&
  match r.rng with
  | .any => true
  | .between a b => decide (a ≤ v ∧ v ≤ b)
  | .sBetween a b => decide (a ≤ sget (8 * r.size) v ∧ sget (8 * r.size) v ≤ b)
  | .oneOf vs => vs.contains v
  | .multiple m a b => decide (v % m = 0 ∧ a ≤ v ∧ v ≤ b)

/-- A written value without the bits that its object's table marks reserved, whose value is ignored and which read as zero
(R9): BackgroundColour (R194), CanFilter (R334), Quality (R327). -/
def withoutReserved (i sub v : Nat) : Nat :=
  if 0x2800 ≤ i ∧ i < 0x2804 ∧ sub = 0x15 then v % 2 ^ 24
  else if (i = 0x2E05 ∨ i = 0x2E06) ∧ 1 ≤ sub then v / 2 ^ 32 * 2 ^ 32 + v % 2 ^ 29
  else if 0x5000 ≤ i ∧ i < 0x5400 ∧ sub = 0x17 then v % 16
  else v

/-- The longest value of a string object (R32, R336). -/
def strMax (i : Nat) : Nat :=
  if 0x2E80 ≤ i ∧ i < 0x2E90 then 65 else if i = 0x1008 then 16 else if i = 0x1009 then 8 else 32

/-- The data's length does not fit the object (R37 kind 2). -/
def sizeBad (i : Nat) (r : ObjRow) (n : Nat) : Bool :=
  if r.type = 9 then decide (strMax i < n) else decide (n ≠ r.size)

/-- The lowest of the kinds. -/
def lowest : List Nat → Option Nat
  | [] => none
  | k :: r => match lowest r with
    | none => some k
    | some m => some (min k m)

/-- A kind, if the condition holds. -/
def kindIf (c : Bool) (k : Nat) : List Nat := if c then [k] else []

/-- What the paths add (R34, R389): Custodian is out of range on C0; a request above AppMaxRights on the gateway;
pair B never writes 0x4500-0x45FF. -/
def State.pathKinds (s : State) (p : Path) (i sub v : Nat) : List Nat :=
  kindIf (decide (p = .can ∧ i = 0x1100 ∧ sub = 1 ∧ v = 3)) 7 ++
  kindIf (decide (p = .gateway ∧ i = 0x1100 ∧ sub = 1 ∧ s.get (ob 0x4500 2) < v)) 7 ++
  kindIf (decide (p = .gateway ∧ 0x4500 ≤ plainIndex i ∧ plainIndex i < 0x4600)) 3

/-- Values that are CONST in one place of a table whose rows are writable: tunnels 1-4 (R98, R174), slot 0 (R344),
endpoints 0 and 1 (R240), what an output of the other kind has (R194), and what the QH7-18 lacks (R20, R246). -/
def State.frozen (s : State) (i sub : Nat) : Bool :=
  decide (0x3001 ≤ i ∧ i ≤ 0x3004 ∧ 1 ≤ sub ∧ sub ≤ 0x0D) ||
  decide (allotIndex 1 ≤ i ∧ i ≤ allotIndex 4 ∧ 2 ≤ sub ∧ sub ≤ 6) ||
  decide (i = slotIndex 0 ∧ 2 ≤ sub) || decide ((i = 0x4314 ∨ i = 0x4317) ∧ sub = 1) ||
  decide (i = 0x2A30 ∧ 1 ≤ sub ∧ sub ≤ 0x0C) || decide (i = 0x2A31 ∧ (sub ≤ 3 ∨ 7 ≤ sub ∧ sub ≤ 9)) ||
  decide ((i = 0x2C00 ∨ i = 0x2C01) ∧ sub = 2) ||
  decide ((i = 0x2800 ∨ i = 0x2801) ∧ (sub = 0x13 ∨ sub = 0x14)) ||
  decide ((i = 0x2802 ∨ i = 0x2803) ∧ 0x10 ≤ sub ∧ sub ≤ 0x12) ||
  decide (0x10000 ≤ i ∧ i < 0x11000 ∧ sub = 2 ∧ (fixedRoute (i - 0x10000)).isSome) ||
  (!s.part.qh34 && decide (i = 0x2B00 ∧ (sub = 0x0B ∨ sub = 0x0D))) ||
  (!s.part.qh34 && decide (i = 0x2020 ∧ (sub = 7 ∨ sub = 8)))

/-- The kind of violation a write is, if any (R37); `more` are the kinds its family adds. -/
def State.judgeWrite (s : State) (p : Path) (i sub : Nat) (data : Bytes) (more : List Nat) : Option Nat :=
  match rowAt i sub with
  | none => some 1
  | some r =>
    lowest (kindIf (s.missing i sub) 1 ++ kindIf (sizeBad i r data.length) 2 ++
      kindIf (decide (s.rightsOf p < s.levelFor p i sub (leNat data) r)) 3 ++
      kindIf (decide (r.acc = .ro ∨ r.acc = .const) || s.frozen i sub) 4 ++
      kindIf (decide (r.acc = .rws ∧ s.dev ≠ devSetup)) 6 ++
      kindIf (r.type ≠ 9 && !inRange r (withoutReserved i sub (leNat data))) 7 ++
      s.pathKinds p i sub (leNat data) ++ more)

/-- The rights a read needs (R30): Engineer for the objects that have one level (R36, R43, R45, R53, R54), else Guest. -/
def readLevel (i : Nat) : Nat :=
  if [0x1101, 0x1210, 0x1F90, 0x2010].contains i ∨ (0x1400 ≤ i ∧ i < 0x1404) ∨ (0x1600 ≤ i ∧ i < 0x1604) ∨
      (0x1800 ≤ i ∧ i < 0x1804) ∨ (0x1A00 ≤ i ∧ i < 0x1A04) then 2
  else 0

/-- The kind of violation a read is, if any (R37): a missing object, rights below the read level, or a write-only object. -/
def State.judgeRead (s : State) (p : Path) (i sub : Nat) : Option Nat :=
  match rowAt i sub with
  | none => some 1
  | some r =>
    lowest (kindIf (s.missing i sub) 1 ++ kindIf (decide (s.rightsOf p < readLevel i)) 3 ++ kindIf (decide (r.acc = .wo)) 5)

/-- CI2 runs again: every asynchronous latch is copied into its source latch and cleared (R400). -/
def State.ciWake (s : State) : State :=
  if s.irq.stopped then
    { s with irq := { s.irq with stopped := false, latch := s.irq.latch ||| s.irq.async, async := 0 } }
  else s

/-- An access of the path: a complete request restarts CI2 (R400), a session past a limit ends (R36), and its idle time
starts anew (R34). -/
def State.touch (s : State) (p : Path) : State :=
  let s := s.ciWake.settleSession p
  s.updSession p fun x => { x with used := true, lastAccess := s.clock }

/-- A write that reaches the engine: judged, then its effect or a counted violation; no path reaches the dictionary
in Reset, Boot or Lift (R6, R39, R41). -/
def State.write (s : State) (p : Path) (i sub : Nat) (data : Bytes) (more : List Nat) (eff : State → State) : State :=
  if s.reach then
    match s.judgeWrite p i sub data more with
    | some k => (s.touch p).violate p i sub k
    | none => eff (s.touch p)
  else s

/-- A write of a number to an object of fixed size. -/
def State.writeNum (s : State) (p : Path) (i sub v : Nat) (more : List Nat) (eff : State → State) : State :=
  s.write p i sub (leBytes (objSize i sub) v) more eff

/-- A write that only stores its value. -/
def State.writeKeep (s : State) (p : Path) (i sub v : Nat) (more : List Nat) : State :=
  s.writeNum p i sub v more fun s => s.set (ob i sub) v

/-- The kinds a command adds: kind 6 while Status is 1 or outside the states its owner names, kind 7 for a value the
owner does not define (R56). -/
def State.cmdKinds (s : State) (i v : Nat) (states : List Nat) (known : List Nat) : List Nat :=
  kindIf (decide (s.cmdStatus i = 1) || !states.contains s.dev) 6 ++ kindIf (!known.contains v) 7

/-- Setup, Run and Maintain: the states of a command whose owner names none (R56). -/
def anyState : List Nat := [3, 4, 5]

/-- A command written to the block of an index: judged, accepted and begun (R56). `more` are the kinds its owner
adds. -/
def State.command (s : State) (p : Path) (i v : Nat) (states known : List Nat) (more : List Nat)
    (eff : State → State) : State :=
  s.writeNum p i 0xF0 v (s.cmdKinds i v states known ++ more) fun s => eff (s.cmdAccept i v p)

/-- A command that commits at once with a Result. -/
def State.commandNow (s : State) (p : Path) (i v : Nat) (states known : List Nat) (more : List Nat) (result : Nat)
    (eff : State → State) : State :=
  s.command p i v states known more fun s => (eff s).cmdCommit i result

/-- Test_J, Test_K, Test_SE0_NAK, Test_Packet and Test_Force_Enable (R216). -/
def testKnown (selector : Nat) : Bool := decide (1 ≤ selector ∧ selector ≤ 5)

end Sys2Proof.Machine
end

