-- ==== Sys2Proof/Machine/Display.lean ====
section
/-!
DEFINITION. The commands of the display outputs and of freeze detection (R176-R214).
-/

set_option Elab.async false

namespace Sys2Proof.Machine

open Sys2Proof

/-- R179, R181. A write of 1 to OutputEnable checks the whole timing and the fetch budget, and starts the output. -/
def execOutputEnable (path : Path) (d : Nat) (s : State) : Ans :=
  onPath path (decide (d < 4)) s
    (let overV := s.budgetBad (outCfg d 1) 1
     let more := kindIf (s.outTimingBad d || overV) 7
     let kind := s.judgeWrite path (0x2800 + d) 1 (leBytes 1 1) more
     (s.writeNum path (0x2800 + d) 1 1 more fun s => (s.set (outCfg d 1) 1).outStart d).budgetCount (s.reach && overV) kind)

/-- R179. A write of 0 to OutputEnable stops the panel signals and discards the outstanding flips. -/
def execOutputDisable (path : Path) (d : Nat) (s : State) : Ans :=
  onPath path (decide (d < 4)) s
    (s.writeNum path (0x2800 + d) 1 0 [] fun s => (s.set (outCfg d 1) 0).outOff d)

/-- R179. HPD goes high: a Down output whose domain is good starts again. -/
def execHpdAsserted (d : Nat) (s : State) : Ans :=
  onPort s (fun q => q.hasOutput d && decide (d < 2))
    (let s := (s.stop (.hpdLow d)).updDisp d fun x => { x with hpd := true }
     if s.outState d = 3 ∧ s.domainOn 8 then s.outStarting d else s)

/-- R179. HPD goes low and its loss is timed. -/
def execHpdDeasserted (d : Nat) (s : State) : Ans :=
  onPort s (fun q => q.hasOutput d && decide (d < 2))
    (let s := s.updDisp d fun x => { x with hpd := false }
     if s.outState d = 1 ∨ s.outState d = 2 then s.start (.hpdLow d) else s)

/-- R179. HPD has stayed low 2 ms while Running, or 100 ms while Starting: the output is Down. -/
def execHpdLowTimeout (d : Nat) (s : State) : Ans :=
  onPort s (fun q => q.hasOutput d && decide (d < 2))
    (if (s.outState d = 2 ∧ s.due (.hpdLow d) (msec 2)) ∨ (s.outState d = 1 ∧ s.due (.hpdLow d) (msec 100)) then
      s.outDown d 1
     else s)

/-- The link rate in kbit/s per lane (R177). -/
def dpRate (code : Nat) : Nat := ([1620000, 2700000, 5400000, 8100000] : List Nat).getD code 0

/-- The rates and lane counts in the order in which training tries them (R177): from the highest that the output's maxima
and the sink's capabilities both allow, falling back in rate first, then in lane count. -/
def dpTries (rate lanes : Nat) : List (Nat × Nat) :=
  (([4, 2, 1] : List Nat).filter fun l => decide (l ≤ lanes)).flatMap fun l =>
    (([3, 2, 1, 0] : List Nat).filter fun r => decide (r ≤ rate)).map fun r => (r, l)

/-- The rate and lane count at which a link trains: the first one tried at which the sink answers, of those it `goods`. -/
def State.dpLink (s : State) (d : Nat) (goods : List (Nat × Nat)) : Option (Nat × Nat) :=
  (dpTries (min (s.timing_ d 0x10) (s.disp d).sinkRate) (min (s.timing_ d 0x11) (s.disp d).sinkLanes)).find? goods.contains

/-- A trained link carries the stream (R177). -/
def State.dpCarries (s : State) (d rate lanes : Nat) : Bool :=
  decide (s.timing_ d 2 * 3 * s.timing_ d 0x0F * 10 ≤ lanes * dpRate rate * 8)

/-- A link runs at a rate and lane count, down-spread where DpSpreadSpectrum says so (R177). -/
def State.linkRuns (s : State) (d rate lanes : Nat) : State :=
  (s.setAll [(outStat d 0x10, rate), (outStat d 0x11, lanes)]).send (.dpLink d rate lanes (decide (s.timing_ d 0x12 = 1)))

/-- R177, R179. IRQ_HPD: the link status is read, and the link retrained if it is lost; where that fails, or the new link
cannot carry the stream, the output is Down. `goods` are the rates and lane counts at which the sink trains. -/
def execIrqHpd (d : Nat) (linkGood : Bool) (goods : List (Nat × Nat)) (s : State) : Ans :=
  onPort s (fun q => q.hasOutput d && decide (d < 2))
    (if s.outState d = 2 then
      let s := s.send (.dpAux d 0x202 6)
      if linkGood then s
      else
        match s.dpLink d goods with
        | none => s.outDown d 2
        | some (rate, lanes) =>
          if s.dpCarries d rate lanes then s.linkRuns d rate lanes else s.outDown d 3
     else s)

/-- R177, R179. DP training ends: the output runs if the link carries the stream, else it is Down. `sinkRate` and
`sinkLanes` are the sink's DPCD capabilities, `goods` the rates and lane counts at which it trains. -/
def execDpLinkTrainingDone (d sinkRate sinkLanes dpcd7 : Nat) (goods : List (Nat × Nat)) (edid : Bytes) (s : State) : Ans :=
  onPort s (fun q => q.hasOutput d && decide (d < 2))
    (if s.outState d ≠ 1 ∨ !(s.disp d).hpd then s
     else
      let s := (s.stop (.hpdLow d)).updDisp d fun x => { x with adapt := dpcd7, sinkRate, sinkLanes }
      let s := s.setAll [(outStat d 0x12, ofBool (dpcd7.testBit 6)), (outStat d 0x14, leNat (fitBytes 256 edid))]
      match s.dpLink d goods with
      | none => s.outDown d 2
      | some (rate, lanes) =>
        if !s.dpCarries d rate lanes then s.outDown d 3
        else
          let s := ((s.setAll [(outStat d 1, 2), (outStat d 2, 0), (outStat d 0x13, 0)]).linkRuns d rate lanes).glideActive d
          (s.noGlide d).outEv d 0x6001 0 0 (u16 rate ++ u16 lanes ++ u16 (s.get (outStat d 0x13))))

/-- R179. The LVDS clock is stable: the output runs. -/
def execLvdsClockStable (d : Nat) (s : State) : Ans :=
  onPort s (fun q => q.hasOutput d && decide (2 ≤ d))
    (if s.outState d = 1 then
      let s := (s.set (outStat d 1) 2).glideActive d
      s.outEv d 0x6001 0 0 (u16 0 ++ u16 0 ++ u16 (s.get (outStat d 0x13)))
     else s)

/-- R189, R192. A front-porch line ends: the output goes on to its plan, latches, or glides. -/
def execFrontPorchLineEnd (d : Nat) (s : State) : Ans :=
  onPort s (fun q => q.hasOutput d)
    (if s.outState d = 0 ∨ !(s.disp d).porch then s
     else
      let s := (s.judgeFlips d).updDisp d fun x => { x with line := x.line + 1 }
      let x := s.disp d
      let v := s.timing_ d
      let most := v 8 + (v 0x0D - vTotalNom v)
      if x.line < x.plan then s
      else if s.get (outStat d 0x13) = 0 ∨ s.get (outCfg d 0x0E) = 0 ∨ !s.waiting d then s.latch d false
      else if most ≤ x.line then
        let s := (s.count (outStat d 9) 1).evRate 0x6010 d 2 (96 + 4 * d + 1) (sec 1) (u16 d ++ u16 x.oldest) [1] []
        s.latch d true
      else (s.count (outStat d 8) 1).updDisp d fun x => { x with glided := true })

/-- R185-R188. A cell of a display tunnel is placed by its sequence into its unit. -/
def execDisplayCellReceived (n : Nat) (c : Cell) (s : State) : Ans :=
  onUnit (decide (n < 4096))
    (match s.outputOf n with
     | none => s
     | some d =>
      if !s.live n ∨ !s.domainOn 8 ∨ c.kind = 1 then s
      else (s.displayCell n d (extend c.seq (s.tun n).h) c).judgeFlips d)

/-- R190. A pixel of a layer is missing: the layer is blanked from it to the end of the frame. -/
def execLayerUnderrun (lay : Nat) (p : Pixel) (s : State) : Ans :=
  let d := lay / 4
  onPort s (fun q => decide (lay < 16) && q.hasOutput d)
    (if s.outState d = 0 ∨ (s.disp d).porch ∨ (s.disp d).blanked.testBit (lay % 4) ∨ s.timing_ d 3 ≤ p.x ∨ s.timing_ d 7 ≤ p.y ∨
        s.layerAt d (lay % 4) p.x p.y = none then s
     else
      let n := s.pixelsFrom d (lay % 4) p.x p.y
      let s := s.updDisp d fun z =>
        { z with blanked := setBit z.blanked (lay % 4), blankAt := Sparse.put 0 (lay % 4) (p.y * 65536 + p.x) z.blankAt }
      let s := ((s.count (layStat lay 4) 1).count (layStat lay 5) n).set (layStat lay 6) s.station
      s.evRate 0x6030 lay 3 (112 + lay) (sec 1) (u16 lay) [1, n] [])

/-- R194. OutputStatus command 1 clears 0x07-0x0F and 0x15. -/
def execOutputClearCounters (path : Path) (d : Nat) (s : State) : Ans :=
  onPath path (decide (d < 4)) s
    (s.commandNow path (0x2804 + d) 1 anyState [1] [] 0 fun s =>
      s.clear (outStat d 0x15 :: (upTo 9).map fun k => outStat d (7 + k)))

/-- R199, R202, R203. A region's signature is complete and judged, once in a frame; regions of lower numbers that complete in
the same line come first (R210). -/
def execSignatureCompletion (d reg : Nat) (s : State) : Ans :=
  onPort s (fun q => q.hasOutput d && decide (reg < 8))
    (if s.pendingRegion d reg then
      forAll (fun r (s : State) => s.regComplete d r)
        ((upTo (reg + 1)).filter fun r => s.pendingRegion d r && decide (s.lastLine d r = s.lastLine d reg)) s
     else s)

/-- R202, R203. FreezeTime of station time has passed without a qualifying completion. In the line in which the region's
completion is still to come, that is judged first. -/
def execFreezeTimeExpired (d reg : Nat) (s : State) : Ans :=
  onPort s (fun q => q.hasOutput d && decide (reg < 8))
    (let st := s.get (regStat d reg 1)
     let x := s.region d reg
     let since := if st = 1 then x.armed else s.get (regStat d reg 6)
     if s.outState d = 0 ∨ x.mode = 0 ∨ (s.disp d).rearm ∨ s.station < since + msec (s.get (integ d 2)) then s
     else if s.pendingRegion d reg ∧ s.scanLine d = some (s.lastLine d reg) then s
     else if st = 1 ∨ st = 2 ∨ st = 4 then s.frozen_ d reg 2
     else if st = 3 then s.regFault d reg true else s)

/-- The frame's receipt, with the buffers released in it, goes back on the output's tunnel (R188, R208). -/
def State.sendReceipt (s : State) (d : Nat) : State :=
  match s.outTunnel d with
  | none => s
  | some n =>
    if s.get (tunKey n 0x12) = 2 ∧ s.get (integ d 4) = 1 then
      let freed := (s.disp d).freed
      let s := (s.updDisp d fun x => { x with freed := [] }).giveBack d freed
      (s.count (integ d 5) 1).unitOut 14 n false (s.receipt d)
    else s

/-- R177, R178, R187, R208. The last active line ends: the frame has gone out on an output that runs, the flips judged by now
are dropped or Ready, the receipt goes back, and the next front porch begins. -/
def execActiveAreaEnd (d : Nat) (s : State) : Ans :=
  onPort s (fun q => q.hasOutput d)
    (if s.outState d = 0 ∨ (s.disp d).porch then s
     else
      let s := if s.outState d ≠ 2 then s
        else if 2 ≤ d then s.send (.lvds d (s.lvdsFrame d)) else s.send (.rgb d (s.timing_ d 0x0F) (s.rgbFrame d))
      ((s.judgeFlips d).updDisp d fun x => { x with porch := true, line := 0 }).sendReceipt d)

/-- R213. IntegrityControl command 1 clears the fault latches, the fault counts and ReceiptsLost. -/
def execIntegrityClear (path : Path) (d : Nat) (s : State) : Ans :=
  onPath path (decide (d < 4)) s
    (s.commandNow path (0x2860 + d) 1 anyState [1] [] 0 fun s =>
      s.clear ([integ d 6, integ d 7] ++ (upTo 8).flatMap fun r => [regStat d r 7, regStat d r 8, regStat d r 9]))

/-- R205, R210. A direct write of ExpectedSignature takes effect at the next latch and cancels any arm. -/
def execExpectedSignatureWrite (path : Path) (d reg value : Nat) (s : State) : Ans :=
  onPath path (decide (d < 4) && decide (reg < 8)) s
    (s.writeNum path (0x2820 + 8 * d + reg) 6 value [] fun s =>
      (s.setAll [(regCfg d reg 6, value), (regCfg d reg 9, 0)]).updRegion d reg fun x => { x with direct := true })

end Sys2Proof.Machine
end

