-- ==== Sys2Proof/Machine/CellOps.lean ====
section
/-!
DEFINITION. Cells on the line (R90-R94): header fields, payload and trailer read from 256 bytes and written to them.
-/

set_option Elab.async false

namespace Sys2Proof.Machine

open Sys2Proof

/-- The trailer of a line cell is right (R93). -/
def crcGood (raw : Bytes) : Bool := decide (raw.length = 256) && decide (crc32c (raw.take 252) = leAt raw 252 4)

/-- A cell of 256 bytes read by its header (R91, R92). -/
def parseCell (raw : Bytes) : Cell :=
  let w0 := beAt raw 0 8
  let w1 := beAt raw 8 8
  let flags := field w0 0 16
  let len := field w0 36 8
  { tunnel := field w0 52 12, cls := field w0 49 3, colour := field w0 47 2,
    first := w0.testBit 46, last := w0.testBit 45, bad := w0.testBit 44, len, seq := field w0 20 16,
    ver := field w0 16 4, cong := flags.testBit 15, enc := flags.testBit 14, twin := field flags 12 2,
    kind := field flags 10 2, hold := flags.testBit 9, origin := field w1 24 40, slot := field w1 17 7,
    payload := if flags.testBit 14 then (raw.drop 16).take 236 else (raw.drop 16).take len }

/-- The 16 header bytes of a cell (R90-R92); reserved bits are zero. -/
def headerBytes (c : Cell) : Bytes :=
  let flags := 2 ^ 15 * ofBool c.cong + 2 ^ 14 * ofBool c.enc + 2 ^ 12 * (c.twin % 4) + 2 ^ 10 * (c.kind % 4) +
    2 ^ 9 * ofBool c.hold
  let w0 := 2 ^ 52 * (c.tunnel % 4096) + 2 ^ 49 * (c.cls % 8) + 2 ^ 47 * (c.colour % 4) + 2 ^ 46 * ofBool c.first +
    2 ^ 45 * ofBool c.last + 2 ^ 44 * ofBool c.bad + 2 ^ 36 * (c.len % 256) + 2 ^ 20 * (c.seq % 65536) +
    2 ^ 16 * (c.ver % 16) + flags
  beBytes 8 w0 ++ beBytes 8 (2 ^ 24 * (c.origin % 2 ^ 40) + 2 ^ 17 * (c.slot % 128))

/-- The 256 bytes of a cell on the line (R90, R93). -/
def cellBytes (c : Cell) : Bytes :=
  let body := headerBytes c ++ fitBytes 236 c.payload
  body ++ leBytes 4 (crc32c body)

/-- The authenticated header of an encrypted cell: mutable fields zero (R115). -/
def aad (c : Cell) : Bytes := headerBytes { c with colour := 0, cong := false, bad := false, twin := 0 }

/-- A payload length above 236, or a reserved value of a flag field: the cell is malformed (R94 step 3). -/
def malformed (c : Cell) : Bool := decide (236 < c.len ∨ c.twin = 3 ∨ c.kind = 3)

end Sys2Proof.Machine
end

