-- ==== Sys2Proof/Machine/LineOps.lean ====
section
/-!
DEFINITION. A trunk's transmit line: transcoded blocks, codeword groups, cycle-start markers and idle blocks (R61-R63).
-/

set_option Elab.async false

namespace Sys2Proof.Machine

open Sys2Proof

/-- PL time and push state of a trunk. -/
def State.plt (s : State) (t : Nat) : PlTime := Sparse.get {} s.pl t

/-- PL time and push state of a trunk changed. -/
def State.updPl (s : State) (t : Nat) (f : PlTime → PlTime) : State :=
  { s with pl := Sparse.put {} t (f (s.plt t)) s.pl }

/-- The mode has the parity lane (R59, R60). -/
def hasLp (m : Nat) : Bool := decide (m = 1 ∨ m = 4)

/-- TrainState (R77). -/
def State.train (s : State) (t : Nat) : Nat := s.get (tk t 1 1)

/-- The mode being tried: the head of the attempt list (R76). -/
def State.tryMode (s : State) (t : Nat) : Nat := (s.trunk t).attempts.headD 0

/-- The mode whose lanes carry the line: the trunk's own once trained, else the one being tried (R59, R76). -/
def State.lineMode (s : State) (t : Nat) : Nat := if s.trained t then s.get (tk t 1 4) else s.tryMode t

/-- The 256-bit content of a lane's marker block in modes 1, 2 and 4 (R63). -/
def markerContent (cycle lane mode : Nat) : Nat :=
  2 ^ 224 * (cycle % 2 ^ 32) + 2 ^ 221 * (lane % 8) + 2 ^ 216 * (mode % 32) + leNat (List.replicate 27 0x5A)

/-- A lane's marker in mode 3, the first byte lowest (R63): the block type and seven bytes. -/
def markerBlock3 (cycle lane : Nat) : Nat :=
  leNat (u8 0x4B ++ u8 (64 * lane + cycle / 2 ^ 24 % 64) ++ beBytes 3 (cycle % 2 ^ 24) ++ zeros 3)

/-- Block j of a group goes to data lane j mod 4; LP carries the XOR of the four codewords (R62). -/
def codewords (blocks : List Nat) (lp : Bool) : List Nat :=
  let words := [0, 1, 2, 3].map fun l => Config.rsEncode ((upTo 20).map fun k => blocks.getD (4 * k + l) 0) % 2 ^ 5280
  if lp then words ++ [words.foldl (· ^^^ ·) 0] else words

/-- A transcoded block put into the group under way, which leaves once it has 80 (R62). -/
def State.pushBlock (s : State) (t b : Nat) : State :=
  let line := (s.trunk t).line ++ [b]
  if line.length < 80 then s.updTrunk t fun x => { x with line }
  else (s.updTrunk t fun x => { x with line := [] }).send (.group t (codewords line (hasLp (s.lineMode t))))

/-- The cycle-start marker leaves on every data lane, and its transmit stamp is kept (R63, R84, R271). -/
def State.putMarker (s : State) (t : Nat) : State :=
  let m := s.lineMode t
  let n := (s.trunk t).cycle
  let lanes := [0, 1, 2, 3].map fun l => if m = 3 then markerBlock3 n l else markerContent n l m
  let s := s.updTrunk t fun x => { x with markDue := false, markerTx := s.station, txCycle := n }
  let s := (s.updPl t fun x => { x with txs := ((n % 65536, s.station) :: x.txs).take 16 }).send (.marker t n lanes)
  if m = 3 then s else forAll (fun v s => s.pushBlock t (Config.markerHead % 2 * 2 ^ 256 + v)) lanes s

/-- The next block of the line; a marker that is due goes before it at the start of a group (R62, R63). -/
def State.putBlock (s : State) (t b : Nat) : State :=
  let s := if (s.trunk t).markDue && (s.trunk t).line.isEmpty then s.putMarker t else s
  s.pushBlock t b

/-- A cycle starts: its marker leaves with the first group that starts from now on, in mode 3 at once (R63). -/
def State.dueMarker (s : State) (t : Nat) : State :=
  if s.lineMode t = 3 ∨ (s.trunk t).line.isEmpty then s.putMarker t else s.updTrunk t fun x => { x with markDue := true }

/-- A cell's eight transcoded blocks follow one another on the line (R62); mode 3 has no groups. -/
def State.putCell (s : State) (t : Nat) (c : Cell) : State :=
  if s.lineMode t = 3 then s
  else forAll (fun k s => s.putBlock t (Config.transcode (((cellBytes c).drop (32 * k)).take 32) % 2 ^ 257)) (upTo 8) s

/-- A control cell with its control blocks; without any it is an idle cell (R81). -/
def controlOf (bs : List Bytes) : Cell := { tunnel := 0, cls := 7, len := 16 * bs.length, payload := bs.flatten }

/-- An idle cell fills a cell time (R81, R151). -/
def State.idleCell (s : State) (t : Nat) : State := s.putCell t (controlOf [])

/-- Idle blocks released on each data lane stand together at a cell boundary (R61, R62). -/
def State.putIdle (s : State) (t n : Nat) : State :=
  let s := s.send (.idleBlocks t n)
  if s.lineMode t = 3 then s else forAll (fun _ s => s.putBlock t (Config.idleBlock % 2 ^ 257)) (upTo (4 * n)) s

/-- The per-cycle entries of the cycle just ended are written (R479). -/
def State.flushCycle (s : State) (clk : Nat) : State :=
  forAll (fun (r : Rate) s => if r.period = 0 ∧ r.clk = clk then s.rateEnd r else s) s.rates s

/-- A cycle in Verify: the trunk sends markers and idle cells (R79); the count of R63 has not started yet. -/
def State.verifyCycle (s : State) (t : Nat) : State :=
  let (d, s) := s.draw
  ((s.flushCycle t).updTrunk t fun x => { x with cycle := Config.verifyCycle d % 2 ^ 32 }).dueMarker t

end Sys2Proof.Machine
end

