-- ==== Sys2Proof/Machine/BreakerOps.lean ====
section
/-!
DEFINITION. The breakers of the guard die (R363-R374): states, on-requests, trips and the queue of events of the
unpowered hub.
-/

set_option Elab.async false

namespace Sys2Proof.Machine

open Sys2Proof

def brCfg (c sub : Nat) : Nat := ob (0x4110 + c) sub
def brStat (c sub : Nat) : Nat := ob (0x4120 + c) sub

/-- BreakerState: 0 Off, 1 Ramping, 2 On, 3 Tripped, 4 LockedOut, 5 Waiting (R372). -/
def State.breaker (s : State) (c : Nat) : Nat := s.get (brStat c 1)

/-- The gate is driven (R369). -/
def State.driven (s : State) (c : Nat) : Bool := decide (s.breaker c = 1 ∨ s.breaker c = 2)

/-- A temperature in 0.1 °C as two bytes (R386). -/
def t16 (v : Int) : Bytes := u16 (sput 16 v)

/-- An event of the guard die: journalled now, or queued while the hub die has no power, at most 16; further ones are
counted, from the first of a new queue on (R374). -/
def State.pwrEv (s : State) (code inst sev src : Nat) (args : Bytes) : State :=
  if s.dev ≠ devReset then s.ev code inst sev src args
  else
    let s := if s.power.queue = [] then s.set (ob 0x4101 0x0D) 0 else s
    if s.power.queue.length < 16 then
    { s with power := { s.power with queue := s.power.queue ++ [{ code, inst, sev, src, args, clock := s.clock }] } }
  else s.count (ob 0x4101 0x0D) 1

/-- The record of a feed's reverse turn-offs in place of the one it has (R364). -/
def State.putTurn (s : State) (x : TurnOff) : State :=
  { s with power := { s.power with turned := x :: s.power.turned.filter fun e => decide (e.feed ≠ x.feed) } }

/-- The end of a period of reverse turn-offs that began in Reset (R364, R479): what it gathered becomes one entry with the
clock of its first, and a new period begins; else the record goes. -/
def State.turnEnd (s : State) (x : TurnOff) : State :=
  if s.clock < x.since + sec 1 then s
  else if x.count = 0 then
    { s with power := { s.power with turned := s.power.turned.filter fun e => decide (e.feed ≠ x.feed) } }
  else
    let args := u16 x.feed ++ u32 x.count
    let s :=
      if s.dev ≠ devReset then s.evAt (s.station - (s.clock - x.first)) 0xD002 x.feed 2 0 args
      else s.pwrEv 0xD002 x.feed 2 (288 + x.feed) args
    s.putTurn { feed := x.feed, since := s.clock }

/-- The periods of a feed's reverse turn-offs that are over end (R364, R479). -/
def State.turnsEnd (s : State) (feed : Nat) : State :=
  forAll (fun x s => s.turnEnd x) (s.power.turned.filter fun e => decide (e.feed = feed)) s

/-- A reverse turn-off is journalled, or queued in Reset, at most once per feed per second (R364, R374, R479). -/
def State.turnOff (s : State) (feed : Nat) : State :=
  let s := s.turnsEnd feed
  match s.power.turned.find? fun e => decide (e.feed = feed) with
  | some x =>
    (if s.dev = devReset then s else s.raise (288 + feed)).putTurn
      { x with count := satAdd 32 x.count 1, first := if x.count = 0 then s.clock else x.first }
  | none =>
    if s.dev ≠ devReset then s.evRate 0xD002 feed 2 (288 + feed) (sec 1) (u16 feed) [1] []
    else (s.pwrEv 0xD002 feed 2 (288 + feed) (u16 feed ++ u32 1)).putTurn { feed, since := s.clock }

/-- The gate pin of a breaker (R363). -/
def gatePin (c : Nat) : String :=
  ["EF_GATE0", "EF_GATE1", "EF_GATE2", "EF_GATE3", "EF_GATE4", "EF_GATE5", "EF_GATE6", "EF_GATE7", "EF_GATE8"].getD c
    "INLET_GATE"

/-- A breaker's gate is driven, or off (R363, R369). -/
def State.gate (s : State) (c : Nat) (on : Bool) : State := s.send (.pin (gatePin c) (ofBool on))

/-- The source of a breaker (R386). -/
def brSource (c : Nat) : Nat := if c = 9 then 293 else 294 + c

/-- An on-request stands or is withdrawn (R372). -/
def State.request (s : State) (c : Nat) (on : Bool) : State :=
  let others := s.power.want.filter fun x => decide (x ≠ c)
  { s with power := { s.power with want := if on then others ++ [c] else others } }

/-- An on-request of the breaker stands. -/
def State.wanted (s : State) (c : Nat) : Bool := s.power.want.contains c

/-- The breaker ramps (R367). -/
def State.breakerRamp (s : State) (c : Nat) : State :=
  (((s.set (brStat c 1) 1).stop (.retry c)).start (.ramp c)).gate c true

/-- The gate is off and the breaker is Off (R372). -/
def State.breakerOff (s : State) (c : Nat) : State :=
  let s := if s.driven c then s.gate c false else s
  (s.set (brStat c 1) 0).stopAll [.ramp c, .onTime c, .retry c]

/-- Host-supervised breakers: mode 1 applies to channels, never to the inlet (R373). -/
def State.supervised (s : State) (c : Nat) : Bool := s.hostMode 11 && decide (c < 9)

/-- The retry decision after a trip (R372, R373). -/
def State.retryDecision (s : State) (c : Nat) : State :=
  if s.supervised c then s.set (brStat c 1) 5
  else if s.get (brStat c 7) < s.get (brCfg c 0x0B) then
    let s := { s with power := { s.power with delays := Sparse.put 0 c (s.get (brCfg c 0x0C)) s.power.delays } }
    (s.set (brStat c 1) 3).start (.retry c)
  else
    (s.set (brStat c 1) 4).pwrEv 0xD022 c 3 (brSource c) (u16 c ++ u8 (s.get (brStat c 7)) ++ u8 (s.get (brStat c 0x0A)))

/-- A trip (R371): the gate is off, the trip is counted, recorded and journalled, and the retry decision is taken. -/
def State.trip (s : State) (c cause point ma : Nat) (temp : Int) : State :=
  let s := ((s.gate c false).stopAll [.ramp c, .onTime c]).count (brStat c 9) 1
  let s := s.setAll [(brStat c 0x0A, cause), (brStat c 0x0B, point), (brStat c 0x0C, s.station),
    (brStat c 0x0E, max (s.get (brStat c 0x0E)) (min ma 65535))]
  let s := s.pwrEv 0xD020 c 3 (brSource c) (u16 c ++ u8 cause ++ u8 point ++ u16 ma ++ t16 temp)
  s.retryDecision c

/-- The retry timer does not run any more: it has run for the delay that its trip took, or the trip started none
(R372, R373). -/
def State.retryDue (s : State) (c : Nat) : Bool :=
  !s.timing (.retry c) || s.due (.retry c) (msec (Sparse.get 0 s.power.delays c))

/-- A retry: RetriesUsed rises and the breaker ramps (R372). -/
def State.retryBreaker (s : State) (c : Nat) (temp : Int) : State :=
  let s := s.count (brStat c 7) 1
  (s.breakerRamp c).pwrEv 0xD021 c 1 (brSource c) (u16 c ++ u8 (s.get (brStat c 7)) ++ t16 temp)

/-- The breaker returns to Off with its retries forgotten (R372); who did it: 1 a command, 2 INLET_RESTART_N. -/
def State.breakerReset (s : State) (c who : Nat) : State :=
  ((s.breakerOff c).set (brStat c 7) 0).pwrEv 0xD023 c 1 (brSource c) (u16 c ++ u8 (Config.code 0xD023 who))

/-- The switch of the breaker function: Tripped and Waiting channels follow the new mode (R373). -/
def State.breakerSwitch (s : State) (host : Bool) : State :=
  forAll (fun (c : Nat) s =>
    if host then onlyIf (decide (s.breaker c = 3)) (fun s => s.set (brStat c 1) 5) s
    else if s.breaker c = 5 then
      s.set (brStat c 1) (if s.get (brStat c 7) < s.get (brCfg c 0x0B) then 3 else 4)
    else s) (upTo 9) s

end Sys2Proof.Machine
end

