-- ==== Sys2Proof/Machine/UsbOps.lean ====
section
/-!
DEFINITION. The hub function: requests and their completions, the downstream ports, suspend and resume (R215-R230).
-/

set_option Elab.async false

namespace Sys2Proof.Machine

open Sys2Proof

def usbPort (u sub : Nat) : Nat := ob (0x2A08 + u) sub
def usbStat (sub : Nat) : Nat := ob 0x2A01 sub

def UsbReq.port (r : UsbReq) : Nat := byteAt r.hdr 1
def UsbReq.token (r : UsbReq) : Nat := byteAt r.hdr 3 / 16
def UsbReq.endpoint (r : UsbReq) : Nat := byteAt r.hdr 3 % 16
def UsbReq.periodic (r : UsbReq) : Bool := (byteAt r.hdr 4).testBit 4
def UsbReq.kind (r : UsbReq) : Nat := byteAt r.hdr 4 / 4 % 4
def UsbReq.pid (r : UsbReq) : Nat := byteAt r.hdr 4 % 4
def UsbReq.speed (r : UsbReq) : Nat := byteAt r.hdr 5
def UsbReq.len (r : UsbReq) : Nat := leAt r.hdr 8 2
def UsbReq.target (r : UsbReq) : Nat := leAt r.hdr 10 2 % 16384

/-- A downstream port's own state. -/
def State.uport (s : State) (u : Nat) : UsbPort := Sparse.get {} s.usb.ports u

/-- A downstream port's own state changed. -/
def State.updUport (s : State) (u : Nat) (f : UsbPort → UsbPort) : State :=
  { s with usb := { s.usb with ports := Sparse.put {} u (f (s.uport u)) s.usb.ports } }

/-- PortState (R223). -/
def State.pstate (s : State) (u : Nat) : Nat := s.get (usbPort u 1)

/-- Raw port control (R230). -/
def State.rawUsb (s : State) : Bool := s.hostMode 5

/-- The downstream ports of the part. -/
def State.usbPorts (s : State) : List Nat := upTo (if s.part.qh34 then 8 else 4)

/-- The hub function is suspended; under raw port control it is no hub, and its ports go on (R222, R230). -/
def State.asleep (s : State) : Bool := s.usb.suspended && !s.rawUsb

/-- The hub function's path: its asynchronous tunnel, Open (R217, R236). -/
def State.hubTunnel (s : State) : Option Nat :=
  s.liveTunnels.find? fun n => decide (16 ≤ n ∧ s.tstate n = 3 ∧ s.tcfg n 2 = 3 ∧ s.tcfg n 8 = 0 ∧ s.tcfg n 6 = 15)

/-- HubState and HubAddress follow what they report (R236). -/
def State.showHub (s : State) : State :=
  let h := s.usb
  s.setAll [(usbStat 1,
      if s.hubTunnel.isNone then 0 else if h.suspended then 4 else if h.config then 3 else if h.addr ≠ 0 then 2 else 1),
    (usbStat 2, h.addr)]

/-- The number of a microframe (R227). -/
def State.microNo (s : State) : Nat := s.station / 125000 % 16384

/-- A completion (R220): what no attempt gives is free. -/
def State.usbComplete (s : State) (r : UsbReq) (result attempts pid sent : Nat) (data : Bytes) : State :=
  let (d, s) := s.draw
  let free := Config.noAttempt d
  let b5 := if attempts = 0 then free % 16 else attempts * 4 + (if r.token = 3 ∧ result = 0 then pid % 4 else free % 4)
  let micro := if attempts = 0 then free / 16 % 16384 else r.micro
  s.unitOut 15 r.tunnel false
    (u8 2 ++ (r.hdr.drop 1).take 3 ++ u8 result ++ u8 b5 ++ (r.hdr.drop 6).take 2 ++ u16 sent ++ u16 micro ++ zeros 4 ++ data)

/-- Results 8, 9 and 11 of a port are counted and journalled once a second (R236, R241). -/
def State.missed (s : State) (u result : Nat) : State :=
  let s :=
    if result = 8 then (s.count (usbStat 6) 1).count (usbPort u 8) 1
    else if result = 9 then s.count (usbPort u 9) 1
    else s.count (usbStat 7) 1
  s.evRate 0x7030 (u + 1) 2 137 (sec 1) (u16 (u + 1))
    [if result = 8 then 1 else 0, if result = 9 then 1 else 0, if result = 11 then 1 else 0] []

/-- A request ended before it ran. -/
def State.turnAway (s : State) (u : Nat) (r : UsbReq) (result : Nat) : State :=
  let s := if result = 8 ∨ result = 9 ∨ result = 11 then s.missed u result
    else if result = 12 then s.count (usbStat 8) 1 else s
  s.usbComplete r result 0 0 0 []

/-- A request put in the order of arrival. -/
def byOrder (r : UsbReq) : List UsbReq → List UsbReq
  | [] => [r]
  | x :: t => if r.order ≤ x.order then r :: x :: t else x :: byOrder r t

/-- Requests discarded with result 10 are counted and journalled with a cause of R241. -/
def State.discardNote (s : State) (u cause n : Nat) : State :=
  if n = 0 then s
  else (s.count (usbPort u 0x0C) n).ev 0x7020 (u + 1) 1 0 (u16 (u + 1) ++ u8 cause ++ u16 n)

/-- The attempts made of a request that is still queued (R220, R221). -/
def UsbReq.tried (r : UsbReq) : Nat := min 3 (r.errs + ofBool r.naked)

/-- Queued requests of a port that the test picks are completed with a result, in the order of arrival (R223). -/
def State.discardSome (s : State) (u result cause : Nat) (pick : UsbReq → Bool) : State :=
  let x := s.uport u
  let out := (x.asyncQ ++ x.perQ).filter pick |>.foldl (fun l r => byOrder r l) []
  let s := s.updUport u fun x => { x with
    asyncQ := x.asyncQ.filter fun r => !pick r, perQ := x.perQ.filter fun r => !pick r }
  let s := if result = 10 then s.discardNote u cause out.length else s
  forAll (fun r s => s.usbComplete r result r.tried 0 0 []) out s

/-- Every queued request of the port is completed with a result (R223). -/
def State.discard (s : State) (u result cause : Nat) : State := s.discardSome u result cause fun _ => true

/-- Bits of wPortStatus and wPortChange, as USB 2.0 numbers them: 0 connection, 1 enable, 2 suspend, 3 over-current,
4 reset, 8 power, 9 low speed, 10 high speed, 11 test (R237). -/
def State.pbit (s : State) (u bit : Nat) (on : Bool) : State :=
  s.set (usbPort u 3) (putBit (s.get (usbPort u 3)) bit on)

/-- A change bit of the port is set: its source and its bit of the status-change endpoint follow (R223). -/
def State.cbit (s : State) (u bit : Nat) : State :=
  (s.set (usbPort u 4) (setBit (s.get (usbPort u 4)) bit)).raise (128 + u)

/-- The raw port command of the port that runs, if one does (R237). -/
def State.rawCmd (s : State) (u : Nat) : Nat :=
  if s.cmdRuns (0x2A08 + u) then (s.cmd (0x2A08 + u)).value % 256 else 0

/-- A running raw port command commits; its Result is PortState (R237). -/
def State.rawDone (s : State) (u : Nat) : State := s.cmdCommit (0x2A08 + u) (s.pstate u)

/-- What a change of PortState means to a raw port command (R237). -/
def State.rawFollow (s : State) (u old new : Nat) : State :=
  let c := s.rawCmd u
  if (c = 3 ∧ old = 3) ∨ (c = 4 ∧ new = 5) ∨ (c = 5 ∧ old = 6) then s.rawDone u
  else if (c = 3 ∨ c = 4) ∧ new < 3 then s.cmdFail (0x2A08 + u) new else s

/-- The port enters a state (R223): its status bits follow and the change is journalled; in raw port control each change
raises the port's source (R230). -/
def State.pgo (s : State) (u new : Nat) : State :=
  let old := s.pstate u
  if old = new then s
  else
    let s := (s.set (usbPort u 1) new).stopAll [.usbReset u, .usbResume u]
    let s := s.updUport u fun x => { x with
      next := 0, chirped := false, babbled := x.babbled && decide (4 ≤ new), test := if new = 0 then 0 else x.test }
    let s := ((s.pbit u 0 (decide (2 ≤ new))).pbit u 1 (decide (4 ≤ new))).pbit u 2 (decide (new = 5 ∨ new = 6))
    let s := (s.pbit u 4 (decide (new = 3))).pbit u 9 (decide (2 ≤ new) && (s.uport u).slow)
    let s := if new < 4 then (s.set (usbPort u 2) 0).pbit u 10 false else s
    let s := if new = 0 then (s.pbit u 8 false).pbit u 11 false else s
    let s := s.ev 0x7001 (u + 1) 0 (if s.rawUsb then 128 + u else 0)
      (u16 (u + 1) ++ u8 old ++ u8 new ++ u8 (s.get (usbPort u 2)))
    s.rawFollow u old new

/-- The hub function answers requests of its port 0 and its class requests: it has a path, runs and is no raw control
(R216, R230). -/
def State.hubLive (s : State) : Bool := s.domainOn 12 && !s.rawUsb && !s.asleep && s.hubTunnel.isSome

/-- The ports on which a power request acts: all of them in ganged mode (R225). -/
def State.gang (s : State) (u : Nat) : List Nat := if s.usb.ganged then s.usbPorts else [u]

/-- PORT_POWER set on a port (R223). -/
def State.portPowerOn (s : State) (u : Nat) : State :=
  let s := s.request u true
  if s.pstate u = 0 then
    let s := s.pgo u 1
    if s.breaker u = 2 then s.pbit u 8 true else s
  else s

/-- PORT_POWER cleared on a port, or an upstream reset: it is Off and its channel's request goes (R223). -/
def State.portPowerOff (s : State) (u result cause : Nat) : State :=
  ((s.request u false).pgo u 0).discard u result cause

/-- The channel of a port reports power-good (R223, R225): PORT_POWER reads 1; after a trip the port returns to Powered and
the over-current bit reads 0. -/
def State.portPowerGood (s : State) (u : Nat) : State :=
  let s :=
    if s.usb.ganged then { s with usb := { s.usb with status := clrBit s.usb.status 1 } } else s.pbit u 3 false
  let s := if s.pstate u = 0 then s.pgo u 1 else s
  let s := s.pbit u 8 true
  if s.rawCmd u = 1 then s.rawDone u else s

/-- The channel of a port trips (R225). -/
def State.portTrip (s : State) (u : Nat) : State :=
  let s := ((s.pgo u 0).discard u 7 0).count (usbPort u 0x0A) 1
  let s :=
    if s.usb.ganged then
      ({ s with usb := { s.usb with status := setBit s.usb.status 1, change := setBit s.usb.change 1 } }).raise (128 + u)
    else (s.pbit u 3 true).cbit u 3
  s.ev 0x7010 (u + 1) 3 0 (u16 (u + 1) ++ u8 u ++ u8 (ofBool s.usb.ganged))

/-- The port's channel is off (R237). -/
def State.portChannelOff (s : State) (u : Nat) : State := if s.rawCmd u = 2 then s.rawDone u else s

/-- A reset begins: queued requests end with result 10 and SE0 is driven (R223, R224). -/
def State.portReset (s : State) (u : Nat) : State :=
  (((s.pgo u 3).start (.usbReset u)).send (.usbDrive u 0)).discard u 10 1

/-- The port suspends: SOF stops and queued requests end with result 7 (R223). -/
def State.portSuspend (s : State) (u : Nat) : State := (s.pgo u 5).discard u 7 0

/-- The port resumes: K for 20 ms (R223). -/
def State.portResume (s : State) (u : Nat) : State :=
  ((s.pgo u 6).start (.usbResume u)).send (.usbDrive u 1)

/-- PORT_RESET set: after any transaction on the wire (R223, R234). -/
def State.askReset (s : State) (u : Nat) : State :=
  if s.pstate u = 2 ∨ s.pstate u = 4 then
    if (s.uport u).active.isSome then s.updUport u fun x => { x with next := 1 } else s.portReset u
  else s

/-- PORT_SUSPEND set: after the current transaction (R223). -/
def State.askSuspend (s : State) (u : Nat) : State :=
  if s.pstate u = 4 then
    if (s.uport u).active.isSome then s.updUport u fun x => { x with next := 2 } else s.portSuspend u
  else s

/-- The port is disabled by its host, by babble or by an error (R223). -/
def State.portDisable (s : State) (u : Nat) (byHost : Bool) : State :=
  let s := (s.pgo u 2).discard u 7 0
  if byHost then s else s.cbit u 1

/-- Babble or a port error disables an Enabled, Suspended or Resuming port (R223). -/
def State.portError (s : State) (u : Nat) : State := if 4 ≤ s.pstate u then s.portDisable u false else s

/-- A test pattern starts on the port (R216). -/
def State.portTest (s : State) (u selector : Nat) : State :=
  ((s.updUport u fun x => { x with test := selector }).pbit u 11 true).send (.usbDrive u 3)

/-- A request's transaction takes the wire. -/
def State.toWire (s : State) (u : Nat) (r : UsbReq) : State :=
  let r := { r with first := some (r.first.getD s.clock), naked := false, micro := s.microNo }
  (s.updUport u fun x => { x with active := some r }).send (.usbToken u r.hdr r.data)

/-- The request's microframe, or frame at full and low speed, is the one that runs (R228). -/
def State.isNow (s : State) (r : UsbReq) : Bool :=
  if r.speed = 0 then decide (r.target = s.microNo) else decide (r.target / 8 = s.microNo / 8)

/-- The next periodic request of this microframe takes the wire, if none has it (R221). -/
def State.runPeriodic (s : State) (u : Nat) : State :=
  let x := s.uport u
  if x.active.isSome ∨ s.pstate u ≠ 4 then s
  else
    match x.perQ.find? s.isNow with
    | some r => (s.updUport u fun x => { x with perQ := x.perQ.filter fun y => decide (y.order ≠ r.order) }).toWire u r
    | none => s

/-- Microframes from now to the request's target, or its frame's begin (R228). -/
def State.ahead (s : State) (r : UsbReq) : Nat :=
  ((if r.speed = 0 then r.target else r.target / 8 * 8) + 16384 - s.microNo) % 16384

/-- Fewer than t_PRL remain before the request's target starts (R228, R235). -/
def State.tooLate (s : State) (r : UsbReq) : Bool :=
  decide (s.ahead r = 0 ∨ 8192 ≤ s.ahead r ∨ (s.station / 125000 + s.ahead r) * 125000 < s.station + 10000)

/-- What a periodic request takes of its budget (R228). -/
def UsbReq.cost (r : UsbReq) : Nat :=
  if r.speed = 0 then r.len + 38 else if r.speed = 1 then r.len + 13 else 8 * (r.len + 13)

/-- The requests that share a budget with `r` (R228): its microframe at its port, or its frame at its port or at all ports
by the alternate setting. -/
def State.sharers (s : State) (u : Nat) (r : UsbReq) : List UsbReq :=
  if r.speed = 0 then (s.uport u).perQ.filter fun x => decide (x.speed = 0 ∧ x.target = r.target)
  else
    let ports := if s.usb.alt = 1 then [u] else s.usbPorts
    (ports.map fun v => (s.uport v).perQ).flatten.filter fun x => decide (x.speed ≠ 0 ∧ x.target / 8 = r.target / 8)

/-- The budget would be exceeded (R228); requests admitted before `r` count. -/
def State.overBudget (s : State) (u : Nat) (r : UsbReq) : Bool :=
  let sum := (((s.sharers u r).filter fun x => decide (x.order < r.order)).map UsbReq.cost).sum
  decide ((if r.speed = 0 then 6000 else 1350) < sum + r.cost)

/-- A request is queued at its port, or turned away (R221, R223, R228). -/
def State.takeRequest (s : State) (u : Nat) (r : UsbReq) : State :=
  if !s.part.hasUsb u ∨ s.pstate u ≠ 4 ∨ s.asleep then s.turnAway u r 7
  else if r.periodic then
    if s.tooLate r then s.turnAway u r 8
    else if 257 ≤ s.ahead r then s.turnAway u r 11
    else if 64 ≤ (s.uport u).perQ.length then s.turnAway u r 12
    else if s.overBudget u r then s.turnAway u r 9
    else s.updUport u fun x => { x with perQ := x.perQ ++ [r] }
  else if 64 ≤ (s.uport u).asyncQ.length then s.turnAway u r 12
  else s.updUport u fun x => { x with asyncQ := x.asyncQ ++ [r] }

/-- A value that R219 reserves, or fields that disagree (result 13 of R220). -/
def UsbReq.malformed (r : UsbReq) (periodicTunnel : Bool) : Bool :=
  decide (byteAt r.hdr 0 ≠ 1 ∨ 8 < r.port ∨ 128 ≤ byteAt r.hdr 2 ∨ r.token = 0 ∨ 4 < r.token ∨ 32 ≤ byteAt r.hdr 4 ∨
    2 < r.speed ∨ 16384 ≤ leAt r.hdr 10 2 ∨ leAt r.hdr 14 2 ≠ 0 ∨ 1024 < r.len ∨ (!r.periodic ∧ r.target ≠ 0)) ||
  (if r.token = 1 then decide (r.len ≠ 8 ∨ r.data.length ≠ 8 ∨ r.kind ≠ 0)
   else if r.token = 2 then decide (r.data.length ≠ r.len)
   else decide (r.data ≠ []) || decide (r.token = 4 ∧ (r.kind = 1 ∨ r.kind = 3))) ||
  decide (periodicTunnel ≠ (r.periodic && decide (r.port ≠ 0)))

/-- The status-change endpoint's bitmap: bit 0 the hub, bit p port p (R215, R223). -/
def State.changeMap (s : State) : Nat :=
  s.usbPorts.foldl (fun m u => if s.get (usbPort u 4) ≠ 0 then setBit m (u + 1) else m)
    (if s.usb.change ≠ 0 then 1 else 0)

/-- A SETUP that R216 does not support is answered STALL: standard requests by their code, hub class requests by code and
feature. -/
def State.hubKnows (s : State) (b : Bytes) : Bool :=
  let rt := byteAt b 0
  let rq := byteAt b 1
  let v := leAt b 2 2
  let ix := leAt b 4 2 % 256
  let port := decide (1 ≤ ix ∧ ix ≤ s.usbPorts.length)
  if rt = 0x00 then decide (rq = 5 ∨ rq = 9 ∧ v ≤ 1) || decide ((rq = 1 ∨ rq = 3) ∧ (v = 1 ∨ v = 2))
  else if rt = 0x01 then decide (rq = 11 ∧ v ≤ 1)
  else if rt = 0x80 then decide (rq = 0 ∨ rq = 8) || decide (rq = 6 ∧ [1, 2, 3, 6, 7].contains (v / 256))
  else if rt = 0x81 then decide (rq = 0 ∨ rq = 10)
  else if rt = 0x82 then decide (rq = 0)
  else if rt = 0xA0 then decide (rq = 0 ∨ rq = 6)
  else if rt = 0xA3 then decide (rq = 0) && port
  else if rt = 0x20 then decide (rq = 1 ∧ v ≤ 1)
  else if rt = 0x23 then
    decide (rq = 8 ∨ rq = 9) ||
    ((decide (rq = 3) && [2, 4, 8, 21].contains v || decide (rq = 1) && [1, 2, 8, 16, 17, 18, 19, 20].contains v) && port)
  else false

/-- What GET_CONFIGURATION and GET_INTERFACE answer; the data stage of every other request is given by its own command
(R216). -/
def State.hubSmall (s : State) (b : Bytes) : Bytes :=
  let d : Bytes :=
    if byteAt b 0 = 0x80 ∧ byteAt b 1 = 8 then u8 (ofBool s.usb.config)
    else if byteAt b 0 = 0x81 ∧ byteAt b 1 = 10 then u8 s.usb.alt else []
  d.take (leAt b 6 2)

/-- The hub function answers a request of its port 0 at once (R221): control transfers on EP0, the status-change endpoint
on EP1. -/
def State.hubAnswer (s : State) (r : UsbReq) : State :=
  let s := s.count (usbStat 4) 1
  let r := { r with micro := s.microNo }
  if s.rawUsb ∨ byteAt r.hdr 2 % 128 ≠ s.usb.addr then s.usbComplete r 4 1 0 0 []
  else if r.endpoint = 1 then
    if r.token ≠ 3 then s.usbComplete r 4 1 0 0 []
    else if !s.usb.config then s.usbComplete r 4 1 0 0 []
    else if s.changeMap = 0 then s.usbComplete r 1 1 0 0 []
    else
      let d := (leBytes (if s.part.qh34 then 2 else 1) s.changeMap).take r.len
      let s := s.usbComplete r 0 1 (ofBool s.usb.epPid) d.length d
      { s with usb := { s.usb with epPid := !s.usb.epPid } }
  else if r.endpoint ≠ 0 then s.usbComplete r 4 1 0 0 []
  else if r.token = 1 then
    let s := { s with usb := { s.usb with
      setup := r.data, ctrl := s.hubSmall r.data, ctrlPid := true, stalled := !s.hubKnows r.data } }
    s.usbComplete r 0 1 0 8 []
  else if s.usb.stalled then s.usbComplete r 2 1 0 0 []
  else if r.token = 3 then
    let n := min r.len 64
    let d := s.usb.ctrl.take n
    let s := s.usbComplete r 0 1 (ofBool s.usb.ctrlPid) d.length d
    { s with usb := { s.usb with ctrl := s.usb.ctrl.drop n, ctrlPid := !s.usb.ctrlPid } }
  else s.usbComplete r 0 1 0 r.data.length []

/-- A relay's own state. -/
def State.relay (s : State) (n : Nat) : Relay := Sparse.get {} s.usb.relays n

/-- A relay's own state changed. -/
def State.updRelay (s : State) (n : Nat) (f : Relay → Relay) : State :=
  { s with usb := { s.usb with relays := Sparse.put {} n (f (s.relay n)) s.usb.relays } }

def relayKey (n sub : Nat) : Nat := ob (0x2A60 + n) sub

/-- A configured value of the relay as the last write of 1 to RelayEnable took it (R238). -/
def State.rcfg (s : State) (n sub : Nat) : Nat := Sparse.get (objDefault s.part s.head (relayKey n sub)) (s.relay n).cfg sub

/-- The up ring is full (R218). -/
def State.ringFull (s : State) (n : Nat) : Bool :=
  decide (s.rcfg n 5 ≤ ((s.relay n).up + 2 ^ 32 - (s.relay n).consumed) % 2 ^ 32)

/-- The relay that a peripheral tunnel joins, by its LocalEndpoint (R217). -/
def State.relayOf (s : State) (n : Nat) : Option Nat :=
  let ep := s.tcfg n 8
  if 16 ≤ n ∧ s.tcfg n 2 = 3 ∧ s.tcfg n 6 = 15 ∧ (ep / 128 = 2 ∨ ep / 128 = 3) ∧ ep % 128 < 16 then some (ep % 128) else none

/-- The relay of a tunnel takes nothing from its FP15 egress queue: its up ring is full, or a unit waits for a slot
(R218). -/
def State.relayFull (s : State) (n : Nat) : Bool :=
  match s.relayOf n with
  | some r => s.ringFull r || !(s.relay r).held.isEmpty
  | none => false

/-- A bus event on the asynchronous tunnel (R222). -/
def State.busEvent (s : State) (n event : Nat) : State :=
  s.unitOut 15 n false (u8 4 ++ u8 event ++ u16 (s.get (usbStat 3)) ++ u8 s.usb.wakes ++ zeros 3 ++ u64 s.station)

/-- A bus command is taken and journalled (R222, R241). -/
def State.busNote (s : State) (cmd : Nat) : State := s.ev 0x7040 0 1 136 (u16 0 ++ u8 cmd ++ u16 (s.get (usbStat 3)))

/-- S rises and the hub function is suspended (R222). -/
def State.hubSuspend (s : State) : State :=
  let s := s.set (usbStat 3) (wrapAdd 16 (s.get (usbStat 3)) 1)
  ({ s with usb := { s.usb with suspended := true, resuming := false, wakes := 0 } }).stop .hubResume

/-- A resume starts: K on every Enabled port for 20 ms (R222). -/
def State.hubResume (s : State) : State :=
  let s := ({ s with usb := { s.usb with resuming := true } }).start .hubResume
  forAll (fun (u : Nat) s => onlyIf (decide (s.pstate u = 4)) (fun s => s.send (.usbDrive u 1)) s) s.usbPorts s

/-- The hub function returns to its default state (R222). -/
def State.hubDefault (s : State) : State :=
  { s with usb := { s.usb with
      addr := 0, config := false, alt := 0, wakeOn := false, suspended := false, resuming := false,
      wakes := 0, setup := [], ctrl := [], stalled := false, epPid := false } }

/-- Requests that came over a tunnel are dropped without completion (R234). -/
def State.forget (s : State) (n : Nat) (count : Bool) : State :=
  forAll (fun (u : Nat) s =>
    let x := s.uport u
    let gone := ((x.asyncQ ++ x.perQ).filter fun r => decide (r.tunnel = n)).length
    let s := s.updUport u fun x => { x with
      asyncQ := x.asyncQ.filter fun r => decide (r.tunnel ≠ n),
      perQ := x.perQ.filter fun r => decide (r.tunnel ≠ n) }
    if count then s.discardNote u 4 gone else s) s.usbPorts s

/-- The peripheral tunnel opens (R234): the asynchronous one of the hub function tells of the path. -/
def State.usbOpen (s : State) (n endpoint : Nat) : State :=
  if endpoint ≠ 0 then s
  else
    let s := s.showHub
    if s.usb.lost then
      let s := s.busEvent n 5
      ({ s with usb := { s.usb with lost := false } }).raise 136
    else s

/-- The peripheral tunnel leaves Open (R234): with the asynchronous one HubState reads no path (R236). -/
def State.usbClose (s : State) (n endpoint : Nat) : State :=
  if endpoint = 1 then s.forget n false
  else if endpoint ≠ 0 then s
  else
    let s := (s.forget n true).hubSuspend
    let s := if s.asleep then forAll (fun (u : Nat) s => s.discard u 7 0) s.usbPorts s else s
    ({ s with usb := { s.usb with lost := true } }).set (usbStat 1) 0

/-- PD12 goes, or the function switches: ports are disabled and their requests end (R21, R54). -/
def State.usbPortsOff (s : State) (vbus : Bool) : State :=
  forAll (fun (u : Nat) s =>
    if vbus then
      if 2 ≤ s.pstate u then (s.pgo u 2).discard u 7 0 else s
    else ((s.request u false).pgo u 0).discard u 7 0) s.usbPorts s

end Sys2Proof.Machine
end

