-- ==== Sys2Proof/Machine/TunnelHooks.lean ====
section
/-!
DEFINITION. What a tunnel's opening and closing sets off at the function that ends it.
-/

set_option Elab.async false

namespace Sys2Proof.Machine

open Sys2Proof

/-- A tunnel of the kind and local endpoint opens. -/
def State.onOpen (s : State) (n kind endpoint : Nat) : State :=
  if kind = 0 then s.displayOpen n
  else if kind = 1 then s.storageOpen n endpoint
  else if kind = 3 then s.usbOpen n endpoint else s

/-- A tunnel of the kind and local endpoint leaves Open (R187, R234, R298). -/
def State.onClose (s : State) (n kind endpoint : Nat) : State :=
  if kind = 0 then s.displayClose n
  else if kind = 1 then s.storageClose n
  else if kind = 3 then s.usbClose n endpoint
  else if kind = 4 then { s with fld := { s.fld with held := s.fld.held.filter fun u => decide (u.tunnel ≠ n) } } else s

/-- Sequences of a tunnel are judged lost: the function that ends it hears of them (R298, R305). -/
def State.onLost (s : State) (n : Nat) (ys : List Int) : State := s.storageLost n ys

/-- A drain is called off, and the tunnel is Open again: its storage or peripheral function is told. -/
def State.onReopen (s : State) (n kind endpoint : Nat) : State := if kind = 0 then s else s.onOpen n kind endpoint

end Sys2Proof.Machine
end

