-- ==== Sys2Proof/Machine/TunnelOps.lean ====
section
/-!
DEFINITION. Tunnel life: negotiation cells, opening, draining, paths and twin sides (R95-R120).
-/

set_option Elab.async false

namespace Sys2Proof.Machine

open Sys2Proof

/-- The units of a cell that the hub formed for a tunnel are told apart from those of the tunnel's other sources. -/
def ownFlow (n : Nat) : Nat := n + 0x1000000

/-- A cell that the hub itself forms for a tunnel comes from FP17 for tunnels 1-4 and from the tunnel's LocalPort for an
adapter control cell (R13, R103). Like any other it waits in the port's adapter for a write slot (R122, R140); its
destinations are the trunks given. `reserved` is the sequence kept for a late Close (R118). -/
def State.emit (s : State) (n : Nat) (ts : List Nat) (cell : Cell) (reserved : Option Nat := none) : State :=
  if ts.isEmpty then s
  else
    s.toAdapter (if n < 16 then 17 else s.tcfg n 6)
      { cell, since := s.clock, own := true, reserved,
        dests := ts.map fun t => { p := t, c := s.tcfg n 3, flow := ownFlow n, cell } }

/-- An adapter control cell is queued toward every trunk that carries the tunnel (R103). -/
def State.sendControl (s : State) (n : Nat) (payload : Bytes) (reserved : Option Nat := none) : State :=
  s.emit n ((s.trunksOf n).filter fun t => s.carries n t || s.ready t) (s.newCell n 1 payload) reserved

/-- An offer with peer-seen and a refusal reason is queued (R103), SerialNumber and OpenEpochTx least significant byte first
(DESIGN CHOICE, log entry 231). -/
def State.sendOffer (s : State) (n reason : Nat) : State :=
  let flags := ofBool (s.tun n).gotOffer + 2 * ofBool (s.tcfg n 0x0A = 1) + 4 * ofBool (s.twinned n)
  s.sendControl n (u8 1 ++ u8 flags ++ u8 (s.tcfg n 2) ++ u8 (s.tcfg n 3) ++ u8 (s.offered n) ++ u8 0 ++
    u8 reason ++ u8 0 ++ u32 (s.get (ob 0x1018 4)) ++ leBytes 3 (s.get (tunKey n 0x16)) ++ u8 0)

/-- A Close (R103). -/
def State.sendClose (s : State) (n : Nat) (reserved : Option Nat := none) : State :=
  s.sendControl n (u8 2 ++ zeros 7 ++ u32 (s.get (ob 0x1018 4)) ++ zeros 4) reserved

/-- A key ready that names a slot (R103, R116). -/
def State.sendKeyReady (s : State) (n slot : Nat) : State :=
  s.sendControl n (u8 3 ++ zeros 6 ++ u8 slot ++ u32 (s.get (ob 0x1018 4)) ++ zeros 4)

/-- The tunnel is Refused: RefuseReason, the event, and one refusing offer (R103, R104). -/
def State.refuse (s : State) (n reason : Nat) : State :=
  let s := (s.stopAll [.offer n, .offerWait n]).setAll [(tunKey n 0x10, 5), (tunKey n 0x11, reason)]
  let s := s.tunEv 0x3010 2 1 n
    (u16 reason ++ u32 (s.tun n).farSerial ++ u16 (s.offered n) ++ u16 (s.tun n).farVersions)
  s.sendOffer n reason

/-- The tunnel enters Negotiating: OpenEpochTx counts for an encrypted tunnel, unless it would pass 0xFFFFFF, and an
offer is sent (R102, R104). -/
def State.negotiate (s : State) (n : Nat) : State :=
  let s := s.updTun n fun x =>
    { cfg := x.cfg, farSerial := x.farSerial, farReady := x.farReady, waiting := s.clock }
  let s := s.showTwin n
  if s.tcfg n 0x0A = 1 ∧ s.get (tunKey n 0x16) = 0xFFFFFF then s.refuse n 6
  else
    let s := if s.tcfg n 0x0A = 1 then s.set (tunKey n 0x16) (s.get (tunKey n 0x16) + 1) else s
    let s := s.setAll [(tunKey n 0x10, 2), (tunKey n 0x11, 0), (tunKey n 0x12, 0)]
    ((s.start (.offer n)).start (.offerWait n)).sendOffer n 0

/-- The key-ready messages of a change under way begin: KeySlotNext names a valid tunnel key (R116). -/
def State.announceKey (s : State) (n : Nat) : State :=
  if s.tstate n = 3 ∧ s.tcfg n 0x0A = 1 ∧ s.get (tunKey n 0x0C) ≠ 0 ∧ s.tunnelKey (s.get (tunKey n 0x0C)) then
    (s.sendKeyReady n (s.get (tunKey n 0x0C))).start (.keyReady n)
  else s

/-- The move to KeySlotNext (R116): the old slot's time runs anew from the first cell under the new one. -/
def State.moveKey (s : State) (n : Nat) : State :=
  let old := (s.tun n).slot
  let new := s.get (tunKey n 0x0C)
  let s := (s.setAll [(tunKey n 0x0B, new), (tunKey n 0x0C, 0)]).stopAll [.keyReady n, .oldKey n]
  let s := s.updTun n fun x =>
    { x with slot := new, oldSlot := old, farReady := 0, cfg := Sparse.put 0 0x0B new x.cfg }
  s.tunEv 0x3070 0 7 n (u16 old ++ u16 new)

/-- A tunnel that may move, moves: its own KeySlotNext names a valid slot that the far end is known to use (R116). -/
def State.mayMove (s : State) (n slot : Nat) : State :=
  if slot ≠ 0 ∧ s.get (tunKey n 0x0C) = slot ∧ s.tunnelKey slot ∧ (s.tstate n = 3 ∨ s.tstate n = 4) then s.moveKey n else s

/-- KeySlotNext names a slot that holds a valid key from now on: it is announced, and the tunnel moves where the far end's
key ready is already held (R116). -/
def State.takeKey (s : State) (n slot : Nat) : State :=
  (s.announceKey n).mayMove n (if (s.tun n).farReady = slot then slot else 0)

/-- The shapers' credit of a tunnel is gone on every trunk: it has left Open or Draining (R161). -/
def State.creditGone (s : State) (n : Nat) : State :=
  forAll (fun t s => s.updShaper t n fun y => { y with credit := 0 }) (s.trunksOf n ++ s.localTrunks n) s

/-- The tunnel opens: sequences start at 0 in each direction, its sides join, its shapers start at 0 with tags at the virtual
time of its group (log entry 215), and the event is journalled (R102, R108, R113, R160, R161). A side whose trunk is not
Trained then is down without an event, and is restored when it first becomes current (log entry 216). -/
def State.openTunnel (s : State) (n version : Nat) : State :=
  let s := s.stopAll [.offer n, .offerWait n]
  let s := s.setAll [(tunKey n 0x10, 3), (tunKey n 0x12, version), (tunKey n 0x15, s.station), (tunKey n 0x24, 0)]
  let side := fun (t : Nat) =>
    ({ cond := if !s.carries n t then 0 else if s.sided n then 1 else 2, advanced := s.clock,
       since := if s.carries n t then 0 else s.clock } : Side)
  let ts := s.trunksOf n
  let s := s.updTun n fun x =>
    { x with h := -1, checked := -1, seen := [], sideA := side (ts.headD 0), sideB := side (ts.getD 1 (ts.headD 0)),
             closeSent := false, closeQueued := false, closeGot := false, closeFwd := 0,
             farInit := false, discards := 0,
             slot := s.tcfg n 0x0B, oldSlot := 0, tags := [], tailDue := 0,
             quiet := 0, silent := false, heard := false, watchTail := s.watched n }
  let s := forAll (fun t s =>
    let v := Sparse.get 0 (s.sched t).virtual (groupOf (s.tcfg n 3))
    s.updShaper t n fun _ => { start := v, finish := v }) (ts ++ s.localTrunks n) s
  let s := forAll (fun t s =>
    if s.sided n && s.trained t && !s.pairOk t then s.tunEv 0x3050 2 5 n (u16 (t % 2) ++ u16 3) else s)
    (s.trunksOf n) (s.showTwin n)
  let s := s.tunEv 0x3001 0 0 n (u16 version ++ u16 (s.get (tunKey n 0x13)) ++ u16 (s.tcfg n 0x0A))
  (s.onOpen n (s.tcfg n 2) (s.tcfg n 8)).announceKey n

/-- The highest common adapter version (R104). -/
def highestBit (v : Nat) : Nat := (upTo 8).foldl (fun b k => if v.testBit k then k else b) 0

/-- A negotiation completes once an offer with peer-seen is received and the own is sent with it (R102). -/
def State.openCheck (s : State) (n : Nat) : State :=
  let x := s.tun n
  if s.tstate n = 2 ∧ x.gotSeen ∧ x.sentSeen then s.openTunnel n (highestBit (x.farVersions &&& s.offered n)) else s

/-- An offer of this end leaves on a trunk: one with peer-seen set may complete the negotiation (R102, R103). -/
def State.offerSent (s : State) (n : Nat) (c : Cell) : State :=
  if c.kind = 1 ∧ byteAt c.payload 0 = 1 ∧ (byteAt c.payload 1).testBit 0 ∧ s.tstate n = 2 then
    (s.updTun n fun x => { x with sentSeen := true }).openCheck n
  else s

/-- A Waiting tunnel with a path goes on: a terminating record negotiates, a transit record opens (R101, R102). -/
def State.tryStart (s : State) (n : Nat) : State :=
  if s.tstate n = 1 ∧ s.mayStart n then
    if s.transit n then s.openTunnel n 0 else s.negotiate n
  else s

/-- The function whose switch holds tunnels of a kind back (R54, R55). -/
def kindFn (kind : Nat) : Nat := if kind = 0 then 4 else if kind = 1 then 7 else if kind = 2 then 2 else if kind = 3 then 5 else 0

/-- A tunnel in Off with TunnelEnable 1 leaves Off while the device is in Run or Maintain and not on the way out, and
its function is not switching (R55, R101, R102). -/
def State.leaveOff (s : State) (n : Nat) : State :=
  let fn := kindFn (s.get (tunKey n 2))
  if 16 ≤ n ∧ s.tstate n = 0 ∧ s.get (tunKey n 1) = 1 ∧ s.running ∧ s.get (ob 0x2000 4) = 0 ∧
      (fn = 0 ∨ s.get (ob 0x2011 fn) ≠ 2) then
    ((s.latchCfg n).set (tunKey n 0x10) 1).tryStart n
  else s

/-- A tunnel reaches Off: its timers stop, its shapers' credit is gone, a running drain command commits with the
count of cells discarded, and an enabled one leaves Off again (R98, R102, R161). -/
def State.toOff (s : State) (n : Nat) : State :=
  let x := s.tun n
  let was := s.tstate n
  let s := ((s.creditGone n).stopAll [.offer n, .offerWait n, .drain n, .keyReady n, .oldKey n]).set (tunKey n 0x10) 0
  let s := if was = 3 then s.onClose n (Sparse.get 0 x.cfg 2) (Sparse.get 0 x.cfg 8) else s
  let s := (s.updTun n fun _ => {}).showTwin n
  let s := if x.commanded then s.cmdCommit (0x3000 + n) x.discards else s
  s.leaveOff n

/-- The cells of a tunnel still queued are discarded into DrainDiscards (R102, R118). -/
def State.drainDiscard (s : State) (n : Nat) : State :=
  let (k, s) := s.discardTunnel n
  (s.count (tunKey n 0x1D) k).updTun n fun x => { x with discards := x.discards + k }

/-- The tunnel waits for a path, its values in effect kept (R99, R102); its shapers' credit is gone (R161). -/
def State.toWaiting (s : State) (n : Nat) : State :=
  (((s.creditGone n).updTun n fun x => { cfg := x.cfg }).set (tunKey n 0x10) 1).showTwin n

/-- The drain is far-initiated, and TunnelEnable has been 1 throughout (R102, R119, R120). -/
def State.reopens (s : State) (n : Nat) : Bool :=
  let x := s.tun n
  x.farInit && !x.ends && decide (s.get (tunKey n 1) = 1 ∧ x.owner = 0)

/-- A drain is complete: a far-initiated one of a tunnel still enabled negotiates again, any other ends in Off
(R102, R118, R119). -/
def State.drainDone (s : State) (n : Nat) : State :=
  let x := s.tun n
  let s := s.stop (.drain n)
  if s.reopens n then
    let s := s.toWaiting n
    if !s.mayStart n then s else if s.transit n then s.openTunnel n 0 else s.negotiate n
  else (s.tunEv 0x3002 0 0 n (u16 (ofBool x.farInit) ++ u32 x.discards)).toOff n

/-- The drain completes once both Closes are exchanged, or a transit record forwarded one each way (R118). -/
def State.drainCheck (s : State) (n : Nat) : State :=
  let x := s.tun n
  if s.tstate n = 4 ∧ ((x.closeSent ∧ x.closeGot) ∨ (s.transit n ∧ x.closeFwd = 3)) then s.drainDone n else s

/-- An Open tunnel starts to drain (R118): `owner` 0 the host or the far end, 1 a retrain or a trunk going Off, 2 a
function switch, 3 the way to Setup. It has left Open for the function that ends it. -/
def State.drain (s : State) (n owner : Nat) (far : Bool) : State :=
  let s := s.updTun n fun x =>
    { x with farInit := far, ends := false, owner, discards := 0, closeSent := false, closeQueued := false, closeGot := far, closeFwd := 0 }
  (((s.stop (.keyReady n)).set (tunKey n 0x10) 4).start (.drain n)).onClose n (s.tcfg n 2) (s.tcfg n 8)

/-- The effect of TunnelEnable 0, or of a drain, in the tunnel's present state (R102): Open drains, Draining goes on,
any other state goes Off, with one Close out of Negotiating. -/
def State.shut (s : State) (n owner : Nat) : State :=
  if s.tstate n = 3 then s.drain n owner false
  else if s.tstate n = 4 then s.updTun n fun x => { x with ends := true, owner := if owner = 0 then x.owner else owner }
  else if s.tstate n = 2 then (s.sendClose n).toOff n
  else if s.tstate n = 0 then s
  else s.toOff n

/-- Every trunk of the path has left Trained (R102): Open waits again, Draining ends, Negotiating waits. -/
def State.pathLost (s : State) (n : Nat) : State :=
  if s.tstate n = 3 then
    let ts := (s.trunksOf n ++ s.localTrunks n).foldl (fun m t => setBit m t) 0
    let before := s.get (tunKey n 0x1D)
    let s := (s.drainDiscard n).count (tunKey n 0x21) 1
    let s := s.tunEv 0x3060 3 6 n (u16 ts ++ u32 (s.get (tunKey n 0x1D) - before))
    ((s.onClose n (s.tcfg n 2) (s.tcfg n 8)).stopAll [.keyReady n, .oldKey n]).toWaiting n
  else if s.tstate n = 4 then
    let s := (s.drainDiscard n).stop (.drain n)
    if s.reopens n then s.toWaiting n else s.toOff n
  else if s.tstate n = 2 then (s.stopAll [.offer n, .offerWait n]).toWaiting n
  else s

/-- A side goes down; with no side current or lagging an Open or Draining tunnel has lost its path (R113). -/
def State.sideDown (s : State) (n k why : Nat) : State :=
  let s := s.setCond n k 0 why
  if 2 ≤ (s.tun n).sideA.cond ∨ 2 ≤ (s.tun n).sideB.cond then s else s.pathLost n

/-- A trunk has left Trained: the sides on it go down, the tunnels without a path lose it, and a Waiting tunnel that
has another path starts (R102, R113). -/
def State.tunnelsDown (s : State) (t : Nat) : State :=
  forAll (fun n s =>
    if !(s.trunksOf n ++ s.localTrunks n).contains t then s
    else
      let s := if s.live n && s.sided n && (s.trunksOf n).contains t then s.sideDown n (t % 2) 1 else s
      let s := if (s.trunksOf n ++ s.localTrunks n).any s.trained then s else s.pathLost n
      s.tryStart n) s.liveTunnels s

/-- A trunk of a pair whose conditions do not hold is down for the tunnel, and the condition is journalled (R114). -/
def State.sideBad (s : State) (n t : Nat) : State :=
  if s.live n && s.sided n && (s.trunksOf n).contains t && s.trained t && !s.pairOk t then
    if ((s.tun n).side (t % 2)).cond = 0 then s.tunEv 0x3050 2 5 n (u16 (t % 2) ++ u16 3) else s.sideDown n (t % 2) 3
  else s

/-- A trunk is Trained: sides on it join, or are down where R114 fails, and Waiting tunnels start (R102, R113). -/
def State.tunnelsUp (s : State) (t : Nat) : State :=
  forAll (fun n s =>
    if !(s.trunksOf n ++ s.localTrunks n).contains t then s
    else if s.tstate n = 1 then s.tryStart n
    else if s.live n && s.sided n && (s.trunksOf n).contains t then
      let s := if s.pairOk t then s.setCond n (t % 2) 1 0 else s
      (s.sideBad n t).sideBad n (t ^^^ 1)
    else s) s.liveTunnels s

/-- The data tunnels that this hub sends on a trunk and that are Open or Draining (R77, R78). -/
def State.sendingOn (s : State) (t : Nat) : List Nat :=
  s.liveTunnels.filter fun n =>
    decide (s.tstate n = 3 ∨ s.tstate n = 4) && (s.trunksOf n ++ s.localTrunks n).contains t

/-- The tunnels that a trunk carries are drained, TunnelEnable staying 1 (R77, R78, R102). -/
def State.drainTrunk (s : State) (t : Nat) : State :=
  forAll (fun n s => if s.tstate n = 3 then s.drain n 1 false else s) (s.sendingOn t) s

end Sys2Proof.Machine
end

