-- ==== Sys2Proof/Machine/SchedOps.lean ====
section
/-!
DEFINITION. Gate tables, cycles, fair queuing, shapers, carve and what a trunk's serialiser sends (R150-R168).
-/

set_option Elab.async false

namespace Sys2Proof.Machine

open Sys2Proof

/-- Fields of a gate entry (R152). -/
def entryKind (v : Nat) : Nat := field v 24 2
def entryClass (v : Nat) : Nat := field v 16 3
def entryLen (v : Nat) : Nat := field v 0 13

/-- A gate entry within the fields' values (R152). -/
def entryOk (v : Nat) : Bool :=
  let k := entryKind v
  decide (field v 26 6 = 0 ∧ field v 19 5 = 0 ∧ field v 13 3 = 0) &&
  (if k = 1 then decide (4 ≤ entryClass v ∧ 1 ≤ entryLen v ∧ entryLen v ≤ 6039)
   else if k = 2 then decide (entryClass v = 0 ∧ 1 ≤ entryLen v ∧ entryLen v ≤ 6039)
   else decide (entryClass v = 0 ∧ entryLen v = 0))

/-- The 64 entries of a table object: 0x2610 + t next, 0x2614 + t active (R172). -/
def State.table (s : State) (i : Nat) : List Nat := (upTo 64).map fun k => s.get (ob i (k + 1))

/-- The entries before the first of kind 3 (R153). -/
def beforeRest : List Nat → List Nat
  | [] => []
  | v :: r => if entryKind v = 3 then [] else v :: beforeRest r

/-- The entries after the first of kind 3 (R153). -/
def afterRest : List Nat → List Nat
  | [] => []
  | v :: r => if entryKind v = 3 then r else afterRest r

/-- The first rule of R153 that a table breaks; 0 for none. -/
def tableRule (es : List Nat) : Nat :=
  let before := beforeRest es
  if (es.filter fun v => decide (entryKind v = 3)).length ≠ 1 then 1
  else if (afterRest es).any fun v => decide (entryKind v ≠ 0) then 2
  else if before.any fun v => decide (entryKind v = 0) then 3
  else if 6039 < (before.map fun v => entryLen v + ofBool (decide (entryKind v = 1))).foldl (· + ·) 0 then 4
  else 0

/-- The version of a table that satisfies R153, else 0 (R153, R173). -/
def tableVersion (es : List Nat) : Nat :=
  if tableRule es ≠ 0 then 0
  else
    let c := crc32c ((beforeRest es ++ [0x03000000]).map (leBytes 4)).flatten
    if c = 0 then 0xFFFFFFFF else c

/-- An entry scaled to a mode with `c` cell times per cycle: its place, 4-7 or 2, and its length (R154). -/
def scaleEntry (c v : Nat) : Nat × Nat :=
  (if entryKind v = 1 then entryClass v else 2, max 1 (entryLen v * c / 6103))

/-- The cell times of scaled entries, guards included (R154). -/
def usedCells (es : List (Nat × Nat)) : Nat := (es.map fun e => e.2 + ofBool (decide (4 ≤ e.1))).foldl (· + ·) 0

/-- Entries, last first, shortened from the last one until `c` cell times leave 64 (R154); with how many were touched. -/
def shorten (c : Nat) : List (Nat × Nat) → List (Nat × Nat) × Nat
  | [] => ([], 0)
  | e :: r =>
    let used := usedCells (e :: r)
    if used + 64 ≤ c then (e :: r, 0)
    else
      let overV := used + 64 - c
      if overV < e.2 then ((e.1, e.2 - overV) :: r, 1)
      else let (k, n) := shorten c r; (k, n + 1)

/-- A table rendered for `c` cell times per cycle: places in order, and how many entries were cut (R154). -/
def render (c : Nat) (es : List Nat) : List (Nat × Nat) × Nat :=
  let (kept, n) := shorten c ((beforeRest es).map (scaleEntry c)).reverse
  let es := kept.reverse
  ((es.flatMap fun e => if 4 ≤ e.1 then [(0, 1), e] else [e]) ++ [(3, c - usedCells es)], n)

/-- Cell times that a rendered table gives a kind of place. -/
def placeCells (es : List (Nat × Nat)) (k : Nat) : Nat :=
  ((es.filter fun e => decide (e.1 = k)).map (·.2)).foldl (· + ·) 0

/-- Planned cell times of a group in this cycle (R161); TC7 has its gates and its best-effort part. -/
def Sched.planned (x : Sched) (g : Nat) : Nat :=
  let be := x.beLen + placeCells x.rendered 2
  if g = 7 then placeCells x.rendered 7 + be else if 4 ≤ g then placeCells x.rendered g else be

/-- The tunnels that have a cell queued toward a trunk. -/
def State.queuedFor (s : State) (t : Nat) : List Nat :=
  ((upTo 8).flatMap fun c => (s.queue (qOf t c)).descs.map fun d => d.cell.tunnel).eraseDups

/-- The tunnels, tunnels 1-4 among them, that a trunk sends (R150, R160): Open and Draining ones, and others that have
an adapter control cell queued (R103). -/
def State.onTrunk (s : State) (t : Nat) : List Nat :=
  let live := s.liveTunnels.filter fun n =>
    decide (s.tstate n = 3 ∨ s.tstate n = 4) && (s.trunksOf n ++ s.localTrunks n).contains t
  [1, 2, 3, 4] ++ live ++ ((s.queuedFor t).filter fun n => decide (16 ≤ n) && !live.contains n)

/-- The Open best-effort tunnels of a trunk (R164). -/
def State.bestEffort (s : State) (t : Nat) : List Nat :=
  s.liveTunnels.filter fun n =>
    decide (s.tstate n = 3 ∧ s.tcfg n 3 < 4) && (s.trunksOf n ++ s.localTrunks n).contains t

/-- The class of a tunnel; R15's for tunnels 1-4. -/
def State.classOf (s : State) (n : Nat) : Nat := s.tcfg n 3

/-- The best-effort capacity of a trunk direction (R164). -/
def State.capacity (s : State) (t : Nat) : Nat :=
  let x := s.sched t
  let r := placeCells x.rendered 3 + placeCells x.rendered 2
  r - (3 + (r + 63) / 64 + s.get (ob 0x2600 1) + (s.bestEffort t).length)

/-- A scheduler event journalled at most once a second for its instance; arguments begin with the trunk (R175). -/
def State.schedRate (s : State) (code inst sev k t : Nat) (head : Bytes) (counts : List Nat) : State :=
  s.evRate code inst sev (72 + k) (sec 1) (u16 t ++ head) counts []

/-- The active table rendered for the trunk's mode (R154, R164). -/
def State.renderTable (s : State) (t : Nat) : State :=
  let (r, n) := render (s.get (tk t 1 8)) (s.table (0x2614 + t))
  let s := s.updSched t fun x => { x with rendered := r, beLen := placeCells r 3 }
  let s := s.setAll [(ob (0x2618 + t) 0x0B, placeCells r 3), (ob (0x2618 + t) 0x0E, n)]
  let s := s.set (ob (0x2618 + t) 0x0C) (s.capacity t)
  if n = 0 then s else s.schedRate 0x5030 t 2 4 t (u16 (s.get (tk t 1 4)) ++ u16 n) []

/-- A table becomes active (R155). -/
def State.activate (s : State) (t : Nat) (es : List Nat) (cycle : Nat) : State :=
  let old := tableVersion (s.table (0x2614 + t))
  let s := forAll (fun (e : Nat × Nat) s => s.set (ob (0x2614 + t) (e.1 + 1)) e.2) ((upTo 64).zip es) s
  let s := s.set (ob (0x2618 + t) 4) (s.sched t).switch
  s.schedRate 0x5001 t 0 0 t (u32 old ++ u32 (tableVersion es) ++ u32 cycle) []

/-- This end owns the schedule of the trunk (R155). -/
def State.ownsSchedule (s : State) (t : Nat) : Bool :=
  if s.trained t then (s.capByte t 2 18).testBit 3 else decide (s.get (tk t 0 6) = 1)

/-- The switch command of a trunk runs (R155). -/
def State.switching (s : State) (t : Nat) : Bool :=
  s.cmdRuns (0x2610 + t)

/-- An announced switch, or one that waits for a cycle, is given up; one past its commit point stands (R155). -/
def State.noSwitch (s : State) (t : Nat) : State :=
  let s := s.updSched t fun x => { x with switch := 0, next := [] }
  s.set (ob (0x2618 + t) 4) (if (s.sched t).armed = [] then 0 else (s.sched t).armedAt)

/-- A switch command fails with a Result (R155, R172, R175). -/
def State.switchFails (s : State) (t result : Nat) : State :=
  ((s.noSwitch t).cmdFail (0x2610 + t) result).schedRate 0x5002 t 2 0 t (u16 result) []

/-- The trunk reaches Trained: the schedule starts anew, aligned to station time, a switch past its commit point takes
effect, and the table is rendered (R154, R157, R169). -/
def State.schedUp (s : State) (t : Nat) : State :=
  let x := s.sched t
  let es := if x.armed ≠ [] then x.armed else if x.farDue ≠ 0 then s.table (0x2610 + t) else []
  let s := if tableRule es = 0 then s.activate t es 0 else s
  let s := s.updSched t fun x =>
    { due := (s.clock + (125000 - s.station % 125000) % 125000) * 1000, hold := x.hold, switch := x.switch, next := x.next,
      shapers := (x.shapers.map fun e => (e.1, ({ share := e.2.share, carved := e.2.carved, credit := e.2.credit } : Shaper))).filter
        fun e => decide (e.2 ≠ {}) }
  (s.setAll [(ob (0x2618 + t) 3, 0), (ob (0x2618 + t) 5, 0), (ob (0x2618 + t) 6, 0), (ob (0x2618 + t) 7, 0),
    (ob (0x2618 + t) 0x0F, 1)]).renderTable t

/-- The trunk leaves Trained: a switch before its commit point fails with Result 6 (R169), the credit of tunnels 1-4 is gone
on it (R161), and no tail follows what it has sent (R109). -/
def State.schedDown (s : State) (t : Nat) : State :=
  let x := s.sched t
  let s := s.updSched t fun x => { x with running := false, places := [] }
  let s := forAll (fun n s => s.updShaper t n fun y => { y with credit := 0 }) [1, 2, 3, 4] s
  let s := forAll (fun (e : Nat × Tunnel) s =>
    s.updTun e.1 fun x => { x with tags := Sparse.put 0 t 0 x.tags, tailDue := clrBit x.tailDue t }) s.tunnels s
  if x.switch ≠ 0 ∨ x.next ≠ [] then
    if (s.cmd (0x2610 + t)).undoing then s else s.switchFails t 6
  else s

/-- A gate-marker block of the far end (R83, R156): its version in force, and the switch that the marker of X - 1
announces to a follower. -/
def State.gateMarker (s : State) (t number version switch : Nat) : State :=
  let fresh := decide (number ≠ (s.sched t).farNumber) || decide (s.get (ob (0x2618 + t) 3) = 0)
  let s := s.set (ob (0x2618 + t) 3) version
  let differs := decide (version ≠ tableVersion (s.table (0x2614 + t)))
  let promised := decide (switch ≠ 0 ∧ (number + 1) % 2 ^ 32 = switch) && !s.ownsSchedule t
  let s := s.updSched t fun x =>
    { x with farNumber := number, farDue := if promised then switch else x.farDue,
             mismatch := if !differs then 0 else if fresh then x.mismatch + 1 else x.mismatch }
  if differs then s else s.set (ob (0x2618 + t) 0x0F) 1

/-- A phase correction of station time, positive forward, passed to a trunk's scheduler as whole cell times (R157). -/
def State.correct (s : State) (t : Nat) (ns : Int) : State :=
  let ct := (s.get (tk t 1 7) : Int)
  if ct = 0 then s
  else
    let x := s.sched t
    let total := x.fraction - ns * 1000
    let cells := Int.tdiv total ct
    let follow := x.follow + cells
    let s := s.updSched t fun x => { x with follow, fraction := total - cells * ct }
    let s := s.set (ob (0x2618 + t) 7) (sput 32 (Int.tdiv (follow * ct) 1000))
    if 3 < follow.natAbs ∧ x.follow.natAbs ≤ 3 then s.schedRate 0x5021 t 1 2 t (leBytes 4 (sput 32 ns)) [] else s

/-- Shares of a refill (R161, R162, R167, R168): the class's rule, within the host's bounds. A best-effort tunnel that has
left Open keeps its share until an epoch releases it. -/
def State.refillShare (s : State) (t n : Nat) : Nat :=
  let c := s.classOf n
  let old := ((s.sched t).shaper n).share
  if 4 ≤ c then s.maxCells n
  else if (s.sched t).hold ∨ (16 ≤ n ∧ s.tstate n ≠ 3) then old
  else if s.hostMode 3 then max (s.minCells n) (min (s.hostCells n) (s.maxCells n))
  else max (s.minCells n) (min old (s.maxCells n))

/-- The refill of one tunnel's shaper (R161). -/
def State.refillOne (s : State) (t n : Nat) : State :=
  let share := s.refillShare t n
  let p := (s.sched t).planned (groupOf (s.classOf n))
  s.updShaper t n fun x =>
    { x with share, rise := if p = 0 then Config.riseOfNone share % 2 ^ 32 else min 65536 (share * 65536 / p),
             high := s.get (ob (allotIndex n) 6) * 65536 }

/-- The sum of Maximum of an isochronous class against its gates (R162). -/
def State.overbooked (s : State) (t c : Nat) : State :=
  let sum := (((s.onTrunk t).filter fun n => decide (s.classOf n = c)).map s.maxCells).foldl (· + ·) 0
  let p := placeCells (s.sched t).rendered c
  if p < sum then s.schedRate 0x5031 t 2 4 t (u16 c ++ u32 sum ++ u16 p) [] else s

/-- The refill at a cycle's start (R161, R162). -/
def State.refill (s : State) (t : Nat) : State :=
  let s := forAll (fun n s => s.refillOne t n) (s.onTrunk t) s
  forAll (fun c s => s.overbooked t c) [4, 5, 6, 7] s

/-- Cycle `x` has come when cycle `n` starts, on the circle of 32-bit cycle numbers (R63). -/
def reached (n x : Nat) : Bool := decide ((n + 2 ^ 32 - x % 2 ^ 32) % 2 ^ 32 < 2 ^ 31)

/-- The switch past its commit point is due at this cycle (R155). -/
def State.armedNow (s : State) (t : Nat) : Bool :=
  decide ((s.sched t).armed ≠ []) && reached (s.trunk t).cycle (s.sched t).armedAt

/-- The switch due at this cycle, if any: the table that becomes active (R155, R156). A follower locates cycle X by station
time, from the owner's transmit stamps. -/
def State.switchNow (s : State) (t : Nat) : List Nat :=
  let x := s.sched t
  if s.armedNow t then x.armed
  else if x.next ≠ [] ∧ (x.switch = 0 ∨ reached (s.trunk t).cycle x.switch) then x.next
  else if x.farDue ≠ 0 ∧ x.farKnown then
    let ahead := (x.farDue % 65536 + 65536 - x.farTxCycle) % 65536
    if x.farTx + 125000 * (if ahead < 32768 then ahead else 0) ≤ s.station + 62500 then s.table (0x2610 + t) else []
  else []

/-- A table switch takes effect at a cycle's start; a follower whose next table breaks R153 keeps its active one
(R155, R156). -/
def State.switchAt (s : State) (t : Nat) : State :=
  let es := s.switchNow t
  if es.isEmpty then s
  else
    let armed := s.armedNow t
    let s := s.updSched t fun x =>
      if armed then { x with armed := [], farDue := 0 } else { x with switch := 0, next := [], farDue := 0 }
    if tableRule es ≠ 0 then s
    else
      let s := (s.activate t es (s.trunk t).cycle).renderTable t
      if !armed && s.switching t then s.cmdCommit (0x2610 + t) 0 else s

/-- The first descriptor of a tunnel in a queue. -/
def headOf (n : Nat) (ds : List Desc) : Option Desc := ds.find? fun d => decide (d.cell.tunnel = n)

/-- The classes of a group. -/
def groupClasses (g : Nat) : List Nat := if 4 ≤ g then [g] else if g = 1 then [3, 2, 1] else [0]

/-- The class in whose queue a trunk sends the tunnel (R160): its class, but a cell queued under an earlier one goes first,
such as the Close of a drain that its bound ended (R118). -/
def State.sendClass (s : State) (t n : Nat) : Nat :=
  let c := s.classOf n
  ((upTo 8).find? fun k => decide (k ≠ c) && (headOf n (s.queue (qOf t k)).descs).isSome).getD c

/-- A tunnel in a service group: its head is a data cell, or a tail that is due with nothing queued (R109, R160). -/
def State.headKind (s : State) (t n : Nat) : Nat :=
  match headOf n (s.queue (qOf t (s.sendClass t n))).descs with
  | some d => if d.cell.kind = 2 then 2 else 1
  | none => if (s.tun n).tailDue.testBit t then 3 else 0

/-- A tail falls due (R109): with nothing queued it is at once its tunnel's head, and takes its tags (R160). -/
def State.tailHead (s : State) (t n : Nat) : State :=
  let x := s.sched t
  let fresh := decide (s.headKind t n = 0)
  let start := later (Sparse.get 0 x.virtual (groupOf (s.sendClass t n))) (x.shaper n).finish
  let s := s.updTun n fun x => { x with tailDue := setBit x.tailDue t }
  if fresh then s.updShaper t n fun y => { y with start, finish := (start + s.cost n) % 2 ^ 48 } else s

/-- Tails fall due on a trunk (R109, R416): a tunnel that sent a data cell in the cycle just ended, or one whose
watched rule was taken at its Open. -/
def State.tailsDue (s : State) (t : Nat) : State :=
  let n0 := (s.trunk t).cycle
  forAll (fun n s =>
    if n < 16 ∨ s.transit n then s
    else if (s.tun n).watchTail || decide (Sparse.get 0 (s.tun n).tags t = if n0 = 0 then 2 ^ 32 else n0) then
      s.tailHead t n
    else s) (s.onTrunk t) s

/-- What a cycle of the mode leaves beyond its cell times and its marker, and what one idle block on each data lane
takes, in 1/64 cell time (R59, R61, R63). -/
def residueOf (mode : Nat) : Nat × Nat :=
  match mode with
  | 1 => (1, 32)
  | 2 => (58, 32)
  | 3 => (18, 8)
  | _ => (13, 32)

/-- The residue of the cycle just ended, and the idle blocks that it fills (R61). -/
def State.releaseIdle (s : State) (t : Nat) : State :=
  let (r, unit) := residueOf (s.get (tk t 1 4))
  let total := (s.trunk t).residue + r
  let s := s.updTrunk t fun x => { x with residue := total % unit }
  if total < unit then s else s.putIdle t (total / unit)

/-- A trunk's cycle starts (R61, R63, R150, R158). -/
def State.startCycle (s : State) (t : Nat) : State :=
  let first := !(s.sched t).running
  let s := s.flushCycle t
  let s := if first then s.updTrunk t fun x => { x with residue := 0 } else s.releaseIdle t
  let s := s.updTrunk t fun x =>
    { x with cycle := if first then 0 else wrapAdd 32 x.cycle 1, groupsLast := x.groups, groups := 0 }
  let s := s.set (ob (0x2618 + t) 5) (s.trunk t).cycle
  let s := (s.switchAt t).tailsDue t
  let x := s.sched t
  let be := placeCells x.rendered 3
  let cut := min x.late (be / 8)
  let corr := max (-3) (min 3 x.follow)
  let follow := x.follow - corr
  let s := s.updSched t fun x =>
    { x with running := true, cut, corr, follow, beLen := be - cut, tc7 := 0, marked := false,
             epoch := decide ((s.trunk t).cycle % 8 = 0),
             places := (x.rendered.map fun e => if e.1 = 3 then (3, be - cut) else e) }
  let s := s.setAll [(ob (0x2618 + t) 6, x.late),
    (ob (0x2618 + t) 7, sput 32 (Int.tdiv (follow * s.get (tk t 1 7)) 1000))]
  (s.refill t).dueMarker t

/-- The cycle's remainder gate has ended (R158): lateness, or lent cell times up to the next due. -/
def State.endCycle (s : State) (t : Nat) : State :=
  let x := s.sched t
  let late := (x.late : Int) - x.cut - x.corr
  let ct := s.get (tk t 1 7)
  let s := s.updSched t fun x =>
    { x with late := late.toNat, places := if late < 0 then [(8, (-late).toNat)] else [],
             due := ((x.due : Int) + 125000000 + x.corr * ct).toNat }
  let s := if x.cut = 0 then s else s.count (ob (0x2618 + t) 8) 1
  let s := if late ≤ 0 then s else s.count (ob (0x2618 + t) 9) 1
  let s := if x.cut = 0 ∧ late ≤ 0 then s
           else s.schedRate 0x5020 t 1 2 t [] [ofBool (decide (0 < late)), ofBool (decide (x.cut ≠ 0))]
  if late ≤ 3 then s
  else (s.dangerRate 0x5022 t 75 (u16 t ++ u16 late.toNat ++ u32 (s.trunk t).cycle)).latchSf 1

/-- The credit pools of R106. -/
def creditPool (c : Nat) : Nat :=
  match c with
  | 7 => 256
  | 6 => 2048
  | 5 => 1024
  | 4 => 128
  | 3 => 1536
  | 2 => 512
  | 1 => 1536
  | _ => 1152

/-- A link credit of the class is there (R107). -/
def State.hasCredit (s : State) (t c : Nat) : Bool :=
  let x := s.trunk t
  decide ((Sparse.get 0 x.sent c + 4096 - Sparse.get 0 x.back c) % 4096 < creditPool c)

/-- Start tag of a tunnel's head (R160). -/
def State.startTag (s : State) (t n : Nat) : Nat := ((s.sched t).shaper n).start

/-- The tunnels of a group on a trunk. -/
def State.groupOn (s : State) (t g : Nat) : List Nat := (s.onTrunk t).filter fun n => decide (groupOf (s.sendClass t n) = g)

/-- Eligible: a head cell, a link credit, and shaper credit or a tail at the head (R160). -/
def State.eligible (s : State) (t n : Nat) : Bool :=
  let k := s.headKind t n
  decide (k ≠ 0) && s.hasCredit t (s.sendClass t n) && (decide (2 ≤ k) || decide (0 ≤ ((s.sched t).shaper n).credit))

/-- The eligible tunnel with the earliest start tag, the lowest ID on a tie (R160). -/
def State.pick (s : State) (t g : Nat) : Option Nat :=
  ((s.groupOn t g).filter (s.eligible t)).foldl (fun best n =>
    match best with
    | none => some n
    | some b =>
      let x := s.startTag t n
      let y := s.startTag t b
      if (x = y ∧ n < b) ∨ (x ≠ y ∧ earlier x y) then some n else some b) none

/-- The initialisation vector of a cell (R115). -/
def gcmIv (n epoch ext : Nat) (larger : Bool) : Nat :=
  2 ^ 84 * n + 2 ^ 83 * ofBool larger + 2 ^ 56 * (epoch % 2 ^ 24) + ext % 2 ^ 56

/-- A cell as the line carries it when its tunnel is encrypted (R115). -/
def State.seal (s : State) (n ext : Nat) (c : Cell) : Cell :=
  let c := { c with enc := true, slot := (s.tun n).slot }
  let iv := gcmIv n (s.get (tunKey n 0x16)) ext (decide ((s.tun n).farSerial < s.get (ob 0x1018 4)))
  let ct := Config.gcmSeal (s.key c.slot) iv (aad c) (c.payload.take c.len)
  { c with payload := fitBytes 220 (ct.take c.len) ++ fitBytes 16 (ct.drop c.len) }

/-- An encrypted cell leaves: both copies of a twinned cell carry the ciphertext of the first (R115). -/
def State.sealOnce (s : State) (n ext : Nat) (buf : Option Nat) (c : Cell) : Cell × State :=
  match buf.bind fun a => (s.buf a).bind fun b => Sparse.find n b.sealed with
  | some (slot, payload) => ({ c with enc := true, slot, payload }, s)
  | none =>
    let c := s.seal n ext c
    (c, match buf with
      | some a => s.updBuf a fun b => { b with sealed := Sparse.ins n (c.slot, c.payload) b.sealed }
      | none => s)

/-- The sequence of a cell leaving on a trunk: taken at the first take, kept in the buffer copy (R126); transit cells
keep theirs (R96), an offer, which is formed before Open, takes none (R103), and a late Close has its own (R118). -/
def State.sequence (s : State) (t n : Nat) (d : Desc) : Nat × State :=
  if n < 16 then
    ((s.tun (linkTun t n)).nextSeq, s.updTun (linkTun t n) fun x => { x with nextSeq := x.nextSeq + 1 })
  else if s.transit n ∨ d.cell.kind = 2 then (d.cell.seq, s)
  else if d.cell.kind = 1 ∧ byteAt d.cell.payload 0 = 1 then (0, s.count (tunKey n 0x17) 1)
  else
    let taken := match d.buf with
      | some a => (s.buf a).bind fun b => Sparse.find n b.ext
      | none => none
    match taken with
    | some e => (e, s)
    | none =>
      let kept := (d.buf.bind s.buf).bind (·.reserved)
      if s.tstate n ≠ 3 ∧ s.tstate n ≠ 4 ∧ kept = none then (0, s.count (tunKey n 0x17) 1)
      else
      let e := kept.getD (s.get (tunKey n 0x24))
      let s := if kept = none then s.countWrap (tunKey n 0x24) 1 else s
      let s := match d.buf with
        | some a => s.updBuf a fun b => { b with ext := Sparse.ins n e b.ext }
        | none => s
      (e, s.count (tunKey n 0x17) 1)

/-- Twin copy bits of a cell leaving on a trunk (R92, R125): copy A on the lower trunk, B on the higher. -/
def State.twinBits (s : State) (t n : Nat) (c : Cell) : Nat :=
  if n < 16 then 0
  else if s.transit n then (if c.twin = 0 then 0 else 1 + t % 2)
  else if s.twinned n then 1 + t % 2 else 0

/-- A cell of a class uses a link credit and a cell goes out (R107, R148). -/
def State.lineCell (s : State) (t : Nat) (c : Cell) : State :=
  let s := s.updTrunk t fun x => { x with sent := Sparse.put 0 c.cls ((Sparse.get 0 x.sent c.cls + 1) % 4096) x.sent }
  ((s.count (portKey t 0x0A) 1).send (.cell t c)).putCell t c

/-- The tags of a tunnel move on after its head has left group `g` (R160). -/
def State.nextHead (s : State) (t n g start : Nat) : State :=
  let s := s.updSched t fun x => { x with virtual := Sparse.put 0 g start x.virtual }
  let more := decide (s.headKind t n = 1 ∨ s.headKind t n = 2)
  s.updShaper t n fun x =>
    if more then { x with start := x.finish, finish := (x.finish + s.cost n) % 2 ^ 48 }
    else { x with backlogged := false }

/-- The rest of a unit that is already queued behind a discarded cell, and what stays; whether its last cell was among
it (R130). -/
def restOfUnit (flow : Nat) : List Desc → List Desc × List Desc × Bool
  | [] => ([], [], false)
  | d :: r =>
    if d.flow = flow then
      if d.cell.last then ([d], r, true) else let (g, k, b) := restOfUnit flow r; (d :: g, k, b)
    else let (g, k, b) := restOfUnit flow r; (g, d :: k, b)

/-- A cell is discarded at read for an uncorrectable error (R124): a later cell of its unit truncates it. -/
def State.eccDiscard (s : State) (p c : Nat) (d : Desc) : State :=
  let s := s.count (portKey p 0x15) 1
  let s := (s.memBad 0 (d.buf.getD 0)).ev 0x4040 p 3 69 (u16 p ++ u32 (d.buf.getD 0) ++ u16 c)
  if d.cell.first then s
  else
    let t := ({ cell := truncated d.cell, flow := d.flow, since := s.clock } : Desc)
    if d.cell.last then
      (s.updQueue (qOf p c) fun x => { x with descs := t :: x.descs }).tailEv p 0 1 0
    else
      let (gone, kept, ended) := restOfUnit d.flow (s.queue (qOf p c)).descs
      let s := s.withdraw p c gone kept
      let s := s.updQueue (qOf p c) fun x => { x with descs := t :: x.descs }
      let s := if ended then s else s.setUnit (qOf p c) d.flow 5
      s.tailEv p 0 1 0

/-- A data cell leaves on a trunk: on each trunk that carries the tunnel its tail may follow in the next cycle (R109). -/
def State.tailTags (s : State) (t n : Nat) (m : List (Nat × Nat)) : List (Nat × Nat) :=
  (t :: (s.trunksOf n).filter fun u => decide (u ≠ t) && s.carries n u).foldl
    (fun m u => Sparse.put 0 u ((s.trunk u).cycle + 1) m) m

/-- The head cell of a tunnel leaves a trunk's queue (R107, R115, R126, R160). Each copy of a twinned cell counts in
EncryptedCellsSent (DESIGN CHOICE, log entry 74). -/
def State.sendHead (s : State) (t n ecc : Nat) : State :=
  let c := s.sendClass t n
  let q := qOf t c
  match headOf n (s.queue q).descs with
  | none => s
  | some d =>
    let start := s.startTag t n
    let fine := decide (ecc ≠ 2) || d.buf.isNone
    let (e, s) := if fine then s.sequence t n d else (0, s)
    let kept := (s.queue q).descs.erase d
    let own := decide (16 ≤ n) && !s.transit n
    let ciphered := own && decide (s.tcfg n 0x0A = 1) && decide (d.cell.kind = 0)
    let cell : Cell := { d.cell with seq := e % 65536, twin := s.twinBits t n d.cell }
    let (cell, s) := if fine && ciphered then s.sealOnce n e d.buf cell else (cell, s)
    let s := s.release t c [d] kept
    let s := if ecc = 1 ∧ d.buf.isSome then s.memCorrected 0 1 else s
    if !fine then (s.eccDiscard t c d).nextHead t n (groupOf c) start
    else
      let s := if ciphered then s.count (tunKey n 0x23) 1 else s
      let s := if n < 16 ∨ s.transit n then (if cell.kind = 2 then s else s.count (tunKey n 0x17) 1) else s
      let s := s.updTun n fun x =>
        { x with tags := if own && decide (cell.kind = 0) then s.tailTags t n x.tags else x.tags,
                 tailDue := clrBit x.tailDue t }
      let s := (s.updShaper t n fun x => { x with sentEpoch := x.sentEpoch + 1 }).lineCell t cell |>.nextHead t n (groupOf c) start
      let s := if own then s.offerSent n cell else s
      if 16 ≤ n ∧ cell.kind = 1 ∧ byteAt cell.payload 0 = 2 ∧ s.tstate n = 4 then
        (s.updTun n fun x =>
          if own then { x with closeSent := true }
          else { x with closeFwd := setBit x.closeFwd (if (s.trunksOf n).contains t then 0 else 1) }).drainCheck n
      else s

/-- A tail cell leaves (R109). -/
def State.sendTail (s : State) (t n : Nat) : State :=
  let start := s.startTag t n
  let cell := { s.newCell n 2 [] with seq := s.get (tunKey n 0x24) % 65536, twin := s.twinBits t n {tunnel := n, cls := 0} }
  let s := (s.updTun n fun x => { x with tailDue := clrBit x.tailDue t }).lineCell t cell
  s.updSched t fun x =>
    { x with virtual := Sparse.put 0 (groupOf (s.sendClass t n)) start x.virtual }

/-- The picked tunnel sends its head cell or its tail. -/
def State.sendPick (s : State) (t n ecc : Nat) : State :=
  if s.headKind t n = 3 then s.sendTail t n else s.sendHead t n ecc

/-- Shapers at a planned cell time of a group; `sender` sent a data or adapter control cell (R161). -/
def State.shape (s : State) (t g : Nat) (sender : Option Nat) : State :=
  forAll (fun n s =>
    let queued := decide (s.headKind t n = 1 ∨ s.headKind t n = 2)
    s.updShaper t n fun x =>
      if sender = some n then { x with credit := x.credit + x.rise - 65536 }
      else if queued then { x with credit := min (x.credit + x.rise) x.high }
      else if x.credit < 0 then { x with credit := min (x.credit + x.rise) 0 }
      else { x with credit := 0 }) (s.groupOn t g) s

/-- Stall time and waits for credit at a cell time in which a group's classes may send (R107, R141). -/
def State.mayWait (s : State) (t g : Nat) (sent : Option Nat) : State :=
  let ct := s.get (tk t 1 7)
  let s := forAll (fun n s =>
    if decide (s.headKind t n ≠ 0) && !s.hasCredit t (s.sendClass t n) then s.count (tunKey n 0x20) 1 else s)
    (s.groupOn t g) s
  forAll (fun c s =>
    if (s.queue (qOf t c)).descs.isEmpty || (match sent with | some n => decide (s.sendClass t n = c) | none => false) then s
    else s.updQueue (qOf t c) fun x => { x with stall := x.stall + ct }) (groupClasses g) s

/-- The control blocks due in the next control cell (R82, R83): gate marker and time transfer once per cycle, credits
that have changed, lane status after a loss, and a retrain request (R78). -/
def State.dueBlocks (s : State) (t : Nat) : List Bytes :=
  let x := s.trunk t
  let y := s.sched t
  let credit := (upTo 8).foldl (fun v k => v + Sparse.get 0 x.returned (7 - k) * 2 ^ (12 * k)) 0
  (if y.marked then [] else
    [u8 2 ++ u8 0 ++ u32 x.cycle ++ u32 (tableVersion (s.table (0x2614 + t))) ++ u32 y.switch ++
       u8 ((beforeRest (s.table (0x2614 + t))).length + 1) ++ u8 0,
     u8 3 ++ u8 0 ++ u16 x.txCycle ++ leBytes 5 x.markerTx ++ u16 x.farCycle ++ leBytes 5 x.markerRx]) ++
  (if x.returned = x.reported then [] else [u8 1 ++ u8 0 ++ leBytes 12 credit ++ zeros 2]) ++
  (if x.laneBlock then
    [u8 4 ++ u8 0 ++ u8 (s.get (tk t 1 5)) ++
       u8 ((upTo 5).foldl (fun m l => if s.get (tk t (8 + l) 3) = 3 then setBit m l else m) 0) ++ u32 x.groupsLast ++
       zeros 8] else []) ++
  (if x.reqDue then [u8 5 ++ u8 0 ++ u8 1 ++ u8 x.retrain ++ zeros 12] else [])

/-- The retrain request leaves: the wait for the far end's begins, and a retrain command commits (R78, R86). -/
def State.requestSent (s : State) (t : Nat) : State :=
  if (s.trunk t).reqDue then
    let i := 0x2100 + 0x100 * t
    let s := (s.updTrunk t fun x => { x with reqDue := false, reqSent := true }).start (.retrainWait t)
    if s.cmdRuns i ∧ (s.cmd i).value = 1 then s.cmdCommit i 0 else s
  else s

/-- A control cell leaves with the blocks that are due (R81, R82); the gate marker of cycle X - 1 is the commit point
of a switch announced for X (R155). One without blocks is an idle cell, which State.sent does not list. -/
def State.sendControlCell (s : State) (t : Nat) : State :=
  let bs := s.dueBlocks t
  let y := s.sched t
  let commits := !y.marked && decide (y.switch ≠ 0 ∧ y.switch = ((s.trunk t).cycle + 1) % 2 ^ 32)
  let s := if bs.isEmpty then s else s.send (.control t bs)
  let s := ((s.putCell t (controlOf bs)).updTrunk t fun x => { x with reported := x.returned, laneBlock := false }).requestSent t
  let s := s.updSched t fun x => { x with marked := true, control := 0 }
  let s := if commits then
      s.updSched t fun x => { x with armed := x.next, armedAt := x.switch, switch := 0, next := [] }
    else s
  if commits && s.switching t then s.cmdCommit (0x2610 + t) 0 else s

/-- The best-effort service at one cell time (R151); `planned` when the groups' planned cell time it is, else lent. A
control cell never takes a cell time of an isochronous gate (R82): `gate` tells of one. -/
def State.bestEffortTime (s : State) (t ecc : Nat) (planned gate : Bool) : State :=
  let y := s.sched t
  let tc7ok := decide (y.tc7 < s.get (ob 0x2600 1))
  let s := s.updSched t fun x => { x with control := x.control + 1 }
  if 64 ≤ y.control ∧ s.dueBlocks t ≠ [] ∧ gate = false then
    let s := s.sendControlCell t
    if planned then forAll (fun g s => s.shape t g none) [7, 1, 0] s else s
  else
    let p7 := if tc7ok then s.pick t 7 else none
    let p := match p7 with | some n => some n | none => match s.pick t 1 with | some n => some n | none => s.pick t 0
    let data := match p with | some n => if s.headKind t n = 1 then some n else none | none => none
    let s := forAll (fun g s => if g = 7 ∧ !tc7ok then s else s.mayWait t g p) [7, 1, 0] s
    let s := if planned then forAll (fun g s => s.shape t g data) [7, 1, 0] s
             else match data with
               | some n => s.updShaper t n fun x => { x with credit := x.credit - 65536 }
               | none => s
    match p with
    | some n =>
      let s := if p7.isSome then s.updSched t fun x => { x with tc7 := x.tc7 + 1 } else s
      let s := if planned then s else s.count (ob (0x2618 + t) 0x0A) 1
      s.sendPick t n ecc
    | none => if gate ∨ s.dueBlocks t = [] then s.idleCell t else s.sendControlCell t

/-- One cell time of a trunk's cycle (R151): what its place gives it. -/
def State.cellTime (s : State) (t ecc : Nat) : State :=
  match (s.sched t).places with
  | [] => s
  | (k, len) :: r =>
    let s := s.updSched t fun x => { x with places := if len ≤ 1 then r else (k, len - 1) :: r }
    let s :=
      if k = 0 then s.sendControlCell t
      else if 4 ≤ k ∧ k ≤ 7 then
        let p := s.pick t k
        let data := match p with | some n => if s.headKind t n = 1 then some n else none | none => none
        let s := (s.mayWait t k p).shape t k data
        match p with
        | some n => s.sendPick t n ecc
        | none => s.bestEffortTime t ecc false true
      else s.bestEffortTime t ecc (decide (k ≠ 8)) false
    if k = 3 ∧ len ≤ 1 then s.endCycle t else s

/-- A round of carve's fill for one tunnel (R165). -/
def fillOne (free w weight share target : Nat) : Nat := min (free * weight / w) (target - share)

/-- A tunnel's place in carve: ID, weight, share, target. -/
structure Cut where
  n : Nat
  weight : Nat
  share : Nat
  target : Nat
  deriving DecidableEq, Repr

/-- One more cell for the tunnel of highest weight, the lowest ID on a tie (R165). -/
def bump (m : Nat) (ws : List Cut) : List Cut := ws.map fun e => if e.n = m then { e with share := e.share + 1 } else e

/-- The tunnel that takes the last cells (R165). -/
def heaviest (ws : List Cut) : Nat :=
  (ws.foldl (fun (b : Nat × Nat) e => if b.2 < e.weight then (e.n, e.weight) else b) (0, 0)).1

/-- The fill of R165: shares and what is left. -/
def fill : Nat → Nat → List Cut → List Cut × Nat
  | 0, free, ws => (ws, free)
  | k + 1, free, ws =>
    let a := ws.filter fun e => decide (e.share < e.target)
    if free = 0 ∨ a = [] then (ws, free)
    else
      let w := (a.map (·.weight)).foldl (· + ·) 0
      let give := fun (e : Cut) => if e.share < e.target then fillOne free w e.weight e.share e.target else 0
      let given := (a.map give).foldl (· + ·) 0
      if given = 0 then fill k (free - 1) (bump (heaviest a) ws)
      else fill k (free - given) (ws.map fun e => { e with share := e.share + give e })

/-- Cells a tunnel has queued for a trunk. -/
def State.backlog (s : State) (t n : Nat) : Nat :=
  ((s.queue (qOf t (s.classOf n))).descs.filter fun d => decide (d.cell.tunnel = n)).length

/-- Demand d of a tunnel over the epoch just ended (R165). -/
def State.demand (s : State) (t n : Nat) : Nat := (((s.sched t).shaper n).arrived + s.backlog t n + 7) / 8

/-- Want of a tunnel (R165). -/
def State.want (s : State) (t n : Nat) : Nat := (s.demand t n * s.get (ob 0x2600 2) + 7) / 8

/-- The other trunk of a pair whose share is tied to this one's (R168). -/
def State.twinOf (s : State) (t n : Nat) : Option Nat :=
  if s.twinned n ∧ s.carries n (t ^^^ 1) then some (t ^^^ 1) else none

/-- The share that carve computed on a trunk takes effect: on both trunks of a twinned tunnel the lower of the two computed,
within the host's bounds (R168). A trunk that has computed none yet has no part in it. -/
def State.takeShare (s : State) (t n : Nat) : State :=
  let own := ((s.sched t).shaper n).carved.getD 0
  match (s.twinOf t n).bind fun u => ((s.sched u).shaper n).carved.map fun v => (u, v) with
  | some (u, other) =>
    let v := max (s.minCells n) (min (s.maxCells n) (min own other))
    (s.updShaper t n fun x => { x with share := v }).updShaper u n fun x => { x with share := v }
  | none => s.updShaper t n fun x => { x with share := own }

/-- The best-effort tunnels on a trunk's shapers that have left Open: an epoch releases their shares (R168). -/
def State.released (s : State) (t : Nat) : List Nat :=
  ((s.sched t).shapers.map (·.1)).filter fun n => decide (16 ≤ n ∧ s.classOf n < 4 ∧ s.tstate n ≠ 3)

/-- Carve at the start of an epoch (R165, R167, R168). C is that of the last switch or Trained transition (R164); while a
switch of mode runs the shares are held. Epochs and the sum of Minimum are shown in host-table mode too (log entry 217). -/
def State.carve (s : State) (t : Nat) : State :=
  let s := s.updSched t fun x => { x with epoch := false, hold := decide (s.get (ob 0x2011 3) = 2) }
  let ns := s.bestEffort t
  let cap := s.get (ob (0x2618 + t) 0x0C)
  let minima := (ns.map s.minCells).foldl (· + ·) 0
  let s := ((s.count (ob (0x2618 + t) 0x10) 1).set (ob (0x2618 + t) 0x0D) minima)
  let s := forAll (fun n s =>
    let x := (s.sched t).shaper n
    if x.backlogged && decide (x.sentEpoch < 8 * s.minCells n) then s.count (ob (allotIndex n) 0x0E) 1 else s) ns s
  let clamp := fun n v => min (max v (s.minCells n)) (s.maxCells n)
  let shares :=
    if cap < minima then ns.map fun n => (n, s.minCells n)
    else
      let start := ns.map fun n => ({ n, weight := s.get (ob (allotIndex n) 4), share := s.minCells n,
                                      target := clamp n (s.want t n) } : Cut)
      let (a, free) := fill 100000 (cap - minima) start
      let (b, _) := fill 100000 free (a.map fun e => { e with target := s.maxCells e.n })
      b.map fun e => (e.n, e.share)
  let wants := (ns.map fun n => clamp n (s.want t n)).foldl (· + ·) 0
  let s := if s.hostMode 3 ∨ (s.sched t).hold then s
    else
      let s := forAll (fun n s =>
        if s.maxCells n < s.want t n then
          (s.count (ob (allotIndex n) 0x0D) 1).schedRate 0x5040 n 1 5 t (u16 n ++ u32 (s.demand t n) ++ u16 (s.maxCells n)) []
        else s) ns s
      let s := if cap < wants then
          (s.count (ob (0x2618 + t) 0x11) 1).schedRate 0x5041 t 2 6 t (u32 wants ++ u16 cap) []
        else s
      let s := if cap < minima then s.schedRate 0x5042 t 3 7 t (u32 minima ++ u16 cap) [] else s
      let s := forAll (fun (e : Nat × Nat) s => s.updShaper t e.1 fun x => { x with carved := some e.2 }) shares s
      forAll (fun n s => s.takeShare t n) ns s
  let s := forAll (fun n s => s.updShaper t n fun x => { x with share := 0, carved := none }) (s.released t) s
  let s := forAll (fun n s =>
    let d := s.demand t n
    let b := decide (s.backlog t n ≠ 0)
    s.updShaper t n fun x => { x with demand := d, arrived := 0, sentEpoch := 0, backlogged := b }) ns s
  s.refill t

end Sys2Proof.Machine
end

