-- ==== Sys2Proof/Machine/TimeOps.lean ====
section
/-!
DEFINITION. The station time base: samples, the time state, the servo, steps and slews, PL time transfer and PPS_OUT
(R267-R278).
-/

set_option Elab.async false

namespace Sys2Proof.Machine

open Sys2Proof

/-- The time base changed. -/
def State.updTime (s : State) (f : TimeBase → TimeBase) : State := { s with time := f s.time }

/-- TimeState, TimeSource and SourcePort (R288, R289). -/
def State.tmState (s : State) : Nat := s.get (ob 0x2F01 1)
def State.tmSource (s : State) : Nat := s.get (ob 0x2F00 1)
def State.tmPort (s : State) : Nat := s.get (ob 0x2F00 2)

/-- Time valid: Locked, or Holdover (R269). -/
def State.timeValid (s : State) : Bool := decide (s.tmState = 2 ∨ s.tmState = 3)

/-- A time event; arguments begin with 0 for the time base (R291). -/
def State.timeEv (s : State) (code sev k : Nat) (args : Bytes) : State := s.ev code 0 sev (256 + k) (u16 0 ++ args)

/-- Errors of the time inputs, at most once a second (R291): IRIG errors, PPS pulses missing, uncorrected Sync. -/
def State.inputErrors (s : State) (irig pps sync : Nat) : State :=
  s.evRate 0x9060 0 2 262 (sec 1) (u16 0) [irig, pps, sync] []

/-- The time state changes (R269). -/
def State.setTime (s : State) (new : Nat) : State :=
  let old := s.tmState
  if new = old then s
  else
    let s := s.updTime fun x => { x with heldFault := decide (new = 5 ∧ (old = 3 ∨ old = 4)), good := 0, far := 0,
                                         holdAt := if new = 3 then s.clock else x.holdAt,
                                         locked := x.locked || decide (new = 2) }
    let s := s.setAll [(ob 0x2F01 1, new), (ob 0x2F01 3, ofBool (decide (new = 2 ∨ new = 3)))]
    let s := if new = 3 then s.set (ob 0x2F01 6) s.station else s
    s.timeEv 0x9030 (if new = 3 then 2 else if new = 4 then 3 else 1) 0 (u16 old ++ u16 new ++ u16 s.tmSource)

/-- The frequency word set within ±400 ppm (R267), and since when it stands at that limit (R278). -/
def State.setWord (s : State) (w : Int) : State :=
  let w := max (-400000000) (min 400000000 w)
  let s := s.updTime fun x =>
    { x with limitSince := if w.natAbs = 400000000 then (match x.limitSince with | some c => some c | none => some s.clock)
                           else none }
  s.set (ob 0x2F01 5) (sput 32 w)

/-- The frequency word. -/
def State.word (s : State) : Int := sget 32 (s.get (ob 0x2F01 5))

/-- Segments of lock within the last `ns` nanoseconds of it. -/
def lastOf : Nat → List (Nat × Int) → List (Nat × Int)
  | _, [] => []
  | ns, (d, w) :: r => if ns ≤ d then [(ns, w)] else (d, w) :: lastOf (ns - d) r

/-- The mean frequency word of segments; `w` where there is none (R269). -/
def meanWord (w : Int) (ds : List (Nat × Int)) : Int :=
  let n : Nat := ds.foldl (fun a d => a + d.1) 0
  if n = 0 then w else ds.foldl (fun (a : Int) (d : Nat × Int) => a + (d.1 : Int) * d.2) 0 / (n : Int)

/-- A segment of lock added under a word; equal neighbours are one (R269). -/
def addSegment (d : Nat) (w : Int) : List (Nat × Int) → List (Nat × Int)
  | (d', w') :: r => if w = w' then (d' + d, w') :: r else (d, w) :: (d', w') :: r
  | [] => [(d, w)]

/-- A change of station time against the clock passed to a trunk's scheduler (R157, R267). -/
def State.followTime (s : State) (t : Nat) : State :=
  let d := (s.station : Int) - s.clock
  let x := (s.plt t).shift
  if d = x then s else (s.updPl t fun y => { y with shift := d }).correct t (d - x)

/-- A change passed to every trunk that runs a schedule. -/
def State.followAll (s : State) : State :=
  forAll (fun t s => onlyIf (s.trained t) (fun s => s.followTime t) s) [0, 1, 2, 3] s

/-- A step of station time, by a command (1) or the servo (2) (R267, R291). -/
def State.stepTime (s : State) (d : Int) (who : Nat) : State :=
  let s := { s with station := ((s.station : Int) + d).toNat, time := { s.time with slew := 0 } }
  ((s.count (ob 0x2F01 8) 1).timeEv 0x9032 2 3 (leBytes 8 (sput 64 d) ++ u16 (Config.code 0x9032 who))).followAll

/-- Station time slews by `d` nanoseconds, in place of what was still to slew (R267). -/
def State.slewTime (s : State) (d : Int) : State := s.updTime fun x => { x with slew := d * 1000000 }

/-- The servo in hardware mode (R270): the word is steered, and the phase steps or slews; an offset beyond what MaxSlew
takes off in `span` nanoseconds holds it there. -/
def State.servo (s : State) (off : Int) (span : Nat) : State :=
  if s.hostMode 9 then s
  else
    let (d, s) := s.draw
    let s := s.setWord (Config.servoWord (s.get (ob 0x2F00 0x14)) off s.word d)
    if s.get (ob 0x2F00 6) < off.natAbs ∧ (s.dev = devSetup ∨ !s.time.locked) then s.stepTime (-off) 2
    else
      let s := s.slewTime (-off)
      if s.get (ob 0x2F00 5) * span < off.natAbs * 1000000 ∧ s.running then
        s.evRate 0x9033 0 2 259 (sec 1) (u16 0 ++ leBytes 4 (sputSat 32 off)) [1] []
      else s

/-- A sample of the selected source (R268, R269); `span` is its interval. -/
def State.sample (s : State) (off : Int) (span : Nat) : State :=
  if s.get (ob 0x2011 9) = 2 then s else
  let s := s.set (ob 0x2F01 4) (sputSat 32 off)
  let s :=
    if s.tmState = 2 then
      s.updTime fun x =>
        { x with words := lastOf (sec 100) (addSegment (s.clock - x.sampleAt) s.word x.words) }
    else s
  let s := s.updTime fun x => { x with valid := true, sampled := true, offset := off, sampleAt := s.clock }
  let s :=
    match s.tmState with
    | 0 | 3 | 4 => s.setTime 1
    | 1 =>
      let g := if off.natAbs ≤ 100 then s.time.good + 1 else 0
      if 8 ≤ g then (s.updTime fun x => { x with words := [] }).setTime 2 else s.updTime fun x => { x with good := g }
    | 2 =>
      let f := if 1000 < off.natAbs then s.time.far + 1 else 0
      if 4 ≤ f then s.setTime 1 else s.updTime fun x => { x with far := f }
    | _ => s
  s.servo off span

/-- The selected source is lost, with a cause (R268, R269). -/
def State.sourceLost (s : State) (why : Nat) : State :=
  let was := s.time.valid
  let s := s.updTime fun x => { x with valid := false, plFar := 0 }
  if was && decide (s.tmState = 1 ∨ s.tmState = 2) then
    let s := s.count (ob 0x2F01 7) 1
    let s := if s.time.locked then s.setWord (meanWord s.word s.time.words) else s
    let s := s.timeEv 0x9031 3 1 (u16 s.tmSource ++ u16 s.tmPort ++ u16 (Config.code 0x9031 why))
    s.setTime (if s.time.locked then 3 else 0)
  else s

/-- The newly selected source is valid (R268, R269): PL, on a trunk that gives samples. -/
def State.newValid (s : State) : Bool :=
  decide (s.tmSource = 2) && s.trained s.tmPort && (s.plt s.tmPort).had && decide ((s.plt s.tmPort).missed < 8)

/-- TimeSource (sub 1) or SourcePort (sub 2) is written (R269); Fault is left by its own row: a TimeSource write. -/
def State.reselect (s : State) (sub : Nat) : State :=
  let s := s.updTime fun x => { x with valid := s.newValid, sampled := false, good := 0, far := 0, plFar := 0, irigBad := 0, irigAt := s.clock }
  if s.tmState = 5 then
    if sub = 1 then s.setTime (if s.time.valid then 1 else 0) else s
  else
    let s := if !s.time.valid ∧ s.time.locked ∧ s.tmState = 2 then s.setWord (meanWord s.word s.time.words) else s
    s.setTime (if s.time.valid then 1 else if s.time.locked then 3 else 0)

/-- A step or set command that commits leaves Fault (R269). -/
def State.leaveFault (s : State) : State :=
  if s.tmState = 5 then s.setTime (if s.time.valid then 1 else 0) else s

/-- A time-base fault with its cause, 1 to 6 in the order of R278. -/
def State.timeFault (s : State) (cause : Nat) : State :=
  let s := (s.count (ob 0x2F01 9) 1).set (ob 0x2F01 0x0A) cause
  let s := (s.danger 0x9040 0 258 (u16 0 ++ u16 cause ++ leBytes 4 (sputSat 32 s.time.offset))).latchSf 2
  if s.tmState = 5 then s else s.setTime 5

/-- A 40-bit stamp extended to the value nearest station time (R10). -/
def State.extend40 (s : State) (v : Nat) : Int :=
  let d := ((v : Int) - s.station) % (2 ^ 40 : Nat)
  (s.station : Int) + (if d < (2 ^ 39 : Nat) then d else d - (2 ^ 40 : Nat))

/-- The cycle just ended gave a sample or missed one (R268, R271). -/
def State.markCycle (s : State) (t : Nat) : State :=
  let x := s.plt t
  let missed := if x.got then 0 else x.missed + 1
  let s := if x.got then s else s.count (ob (0x2F04 + t) 5) 1
  s.updPl t fun x => { x with missed, got := false, cells := 0 }

/-- The stamp of a far marker is kept (R271). -/
def State.keepRx (s : State) (t number stamp : Nat) : State :=
  s.updPl t fun x => { x with rxs := ((number % 65536, stamp) :: x.rxs).take 16 }

/-- A time-transfer block (R271, R83): the far end's cycle and transmit stamp, this end's cycle and the far receive
stamp of its marker. -/
def State.timeTransfer (s : State) (t n tx m rx : Nat) : State :=
  let s := s.updSched t fun x => { x with farTx := (s.extend40 tx).toNat, farTxCycle := n, farKnown := true }
  match (s.plt t).rxs.find? fun e => decide (e.1 = n), (s.plt t).txs.find? fun e => decide (e.1 = m) with
  | some (_, r2), some (_, t3) =>
    let fwd := (r2 : Int) - s.extend40 tx
    let rev := s.extend40 rx - (t3 : Int)
    let off := asr (fwd - rev - sget 32 (s.get (ob (0x2F04 + t) 1))) 1
    let s := s.setAll [(ob (0x2F04 + t) 2, sputSat 32 off), (ob (0x2F04 + t) 3, sputSat 32 (asr (fwd + rev) 1))]
    let s := (s.count (ob (0x2F04 + t) 4) 1).updPl t fun x => { x with got := true, had := true }
    if s.tmSource = 2 ∧ s.tmPort = t then
      let s := s.updTime fun x => { x with plFar := if s.get (ob 0x2F00 0x0F) < off.natAbs then x.plFar + 1 else 0 }
      s.sample off 125000
    else s
  | _, _ => s

/-- The UTC fields in force (R272): those of the PL source's message in a Locked bay, else the hub's own: TaiUtcOffset in
seconds, and byte 6 of a time-status message. -/
def State.utcOffset (s : State) : Nat :=
  match (if !s.head ∧ s.tmSource = 2 ∧ s.tmState = 2 then (s.plt s.tmPort).utc else none) with
  | some (o, _) => o
  | none => s.get (ob 0x2F00 3)

def State.leapByte (s : State) : Nat :=
  match (if !s.head ∧ s.tmSource = 2 ∧ s.tmState = 2 then (s.plt s.tmPort).utc else none) with
  | some (_, b) => b
  | none => let v := s.get (ob 0x2F00 4); if v = 0 then 0 else if v = 1 then 1 else 3

/-- The grandmaster identity of the source: PTP's, or what PL brought; zero when none (R272). -/
def State.sourceGm (s : State) : Nat :=
  if s.tmSource = 1 then s.time.ptpGm else if s.tmSource = 2 then (s.plt s.tmPort).gm else 0

/-- The clock class of R272. -/
def State.clockClass (s : State) : Nat :=
  match s.tmState with
  | 2 => if s.tmSource = 1 ∨ s.tmSource = 3 ∨ s.tmSource = 4 then 6 else 248
  | 3 => 7
  | 4 => 52
  | _ => 248

/-- The time-status message of this hub (R272). -/
def State.timeStatus (s : State) : Bytes :=
  u8 s.tmState ++ u8 s.tmSource ++ u8 (if s.tmSource = 2 then min 255 (s.get (ob (0x2F04 + s.tmPort) 7) + 1) else 0) ++
    u8 s.clockClass ++ u16 s.utcOffset ++ u8 s.leapByte ++ u8 0 ++ u64 s.sourceGm

/-- Days from 1970-01-01 to 1 January of a year from 1970 on. -/
def daysTo (y : Nat) : Nat := 365 * (y - 1970) + ((y - 1) / 4 - (y - 1) / 100 + (y - 1) / 400) - 477

/-- The year of a count of days since 1970-01-01. -/
def yearOf (days : Nat) : Nat :=
  let y := 1970 + days * 400 / 146097
  if days < daysTo y then y - 1 else if daysTo (y + 1) ≤ days then y + 1 else y

/-- Of two instants, the one nearer to `x`; the first on a tie. -/
def nearer (x a b : Int) : Int := if (b - x).natAbs < (a - x).natAbs then b else a

/-- The TAI instant, in nanoseconds, that an IRIG-B frame's on-time point marks (R275). -/
def State.irigTime (s : State) (f : Irig) : Int :=
  let c37 := decide (s.get (ob 0x2F00 0x0A) = 1)
  let zone : Int := if c37 then f.localMin else sget 16 (s.get (ob 0x2F00 0x0B))
  let taiIn := fun (y : Nat) => (((daysTo y + (f.day - 1)) * 86400 + f.secs : Nat) - zone * 60 + sget 16 s.utcOffset) * 1000000000
  let y := yearOf (s.station / 86400000000000)
  match (if 4 ≤ s.get (ob 0x2F00 9) then f.year else none) with
  | some yy =>
    let b := y - y % 100 + yy
    nearer s.station (taiIn b) (nearer s.station (taiIn (b - 100)) (taiIn (b + 100)))
  | none => nearer s.station (taiIn y) (nearer s.station (taiIn (y - 1)) (taiIn (y + 1)))

/-- A station-time instant against the nearest whole second (R276). -/
def fromSecond (x : Nat) : Int :=
  let r := x % 1000000000
  if r < 500000000 then r else (r : Int) - 1000000000

end Sys2Proof.Machine
end

