-- ==== Sys2Proof/Machine/TrunkHooks.lean ====
section
/-!
DEFINITION. What a trunk's reaching and leaving Trained sets off at its scheduler, at station time and at the journal
push.
-/

set_option Elab.async false

namespace Sys2Proof.Machine

open Sys2Proof

/-- The index at which the journal push of a trunk starts (R283): after the last one that the same hub acknowledged,
else it begins PushBacklog entries before the newest; the index is that of the entry before. -/
def State.pushStart (s : State) (t : Nat) : Nat :=
  let far := s.get (tk t 1 0x0C)
  if (s.plt t).pushSerial = some far then s.get (ob (0x2F18 + t) 2)
  else (s.jour.next + 2 ^ 32 - 1 - min s.jour.ring.length (s.get (ob 0x2F10 7) + 1)) % 2 ^ 32

/-- The trunk reaches Trained. -/
def State.onTrained (s : State) (t : Nat) : State :=
  let s := s.schedUp t
  let s := s.updPl t fun x =>
    { utc := x.utc, gm := x.gm, pushSerial := x.pushSerial, ring := x.ring, got := true,
      shift := (s.station : Int) - s.clock }
  s.set (ob (0x2F18 + t) 1) (s.pushStart t)

/-- The trunk leaves Trained. -/
def State.onUntrained (s : State) (t : Nat) : State :=
  (s.schedDown t).updPl t fun x =>
    { utc := x.utc, gm := x.gm, pushSerial := x.pushSerial, ring := x.ring }

end Sys2Proof.Machine
end

