-- ==== Sys2Proof/Machine/EthOps.lean ====
section
/-!
DEFINITION. Ethernet frames: tags, classes, the Layer-2 table, redundancy pairs and what leaves a port (R134-R136,
R261-R266, R274).
-/

set_option Elab.async false

namespace Sys2Proof.Machine

open Sys2Proof

/-- `n` steps of the reflected CRC-32 register of IEEE 802.3 (R262). -/
def fcsShift : Nat → Nat → Nat
  | 0, r => r
  | n + 1, r => fcsShift n (if r % 2 = 1 then (r / 2) ^^^ 0xEDB88320 else r / 2)

/-- The frame check sequence of a frame's bytes (R262). -/
def fcsOf (bs : Bytes) : Nat := (bs.foldl (fun r b => fcsShift 8 (r ^^^ b.toNat)) 0xFFFFFFFF) ^^^ 0xFFFFFFFF

/-- A frame's bytes with their frame check sequence. -/
def withFcs (bs : Bytes) : Bytes := bs ++ u32 (fcsOf bs)

/-- A received frame without its frame check sequence, and whether that was right. -/
def dropFcs (bs : Bytes) : Bytes := bs.take (bs.length - 4)
def fcsGood (bs : Bytes) : Bool := decide (leAt bs (bs.length - 4) 4 = fcsOf (dropFcs bs))

/-- Destination and source MAC, as OCT6 holds them. -/
def dstMac (f : Bytes) : Nat := leAt f 0 6
def srcMac (f : Bytes) : Nat := leAt f 6 6

/-- A C-tag is the outermost (R263); the EtherType behind it (R266). -/
def tagged (f : Bytes) : Bool := decide (beAt f 12 2 = 0x8100)
def etherType (f : Bytes) : Nat := if tagged f then beAt f 16 2 else beAt f 12 2

/-- Where the EtherType's content begins. -/
def bodyAt (f : Bytes) : Nat := if tagged f then 18 else 14

/-- Bytes put over a part of others. -/
def overlay (bs : Bytes) (off : Nat) (v : Bytes) : Bytes := bs.take off ++ v ++ bs.drop (off + v.length)

/-- Objects of a port and of a redundancy pair (R286, R287). -/
def ethCfg (e sub : Nat) : Nat := ob (0x2C00 + e) sub
def ethStat (e sub : Nat) : Nat := ob (0x2C08 + e) sub
def pairKey (k sub : Nat) : Nat := ob (0x2C10 + k) sub

/-- A port's own state. -/
def State.ethp (s : State) (e : Nat) : EthPort := Sparse.get {} s.eth.ports e

/-- A port's own state changed. -/
def State.updEthp (s : State) (e : Nat) (f : EthPort → EthPort) : State :=
  { s with eth := { s.eth with ports := Sparse.put {} e (f (s.ethp e)) s.eth.ports } }

/-- A pair's own state. -/
def State.redp (s : State) (k : Nat) : RedPair := Sparse.get {} s.eth.pairs k

/-- A pair's own state changed. -/
def State.updRedp (s : State) (k : Nat) (f : RedPair → RedPair) : State :=
  { s with eth := { s.eth with pairs := Sparse.put {} k (f (s.redp k)) s.eth.pairs } }

/-- PairMode of the port's pair: 0 independent, 1 PRP, 2 HSR (R265). -/
def State.pairMode (s : State) (e : Nat) : Nat := s.get (pairKey (e / 2) 1)

/-- The ports of the bridge port to which a port belongs, as a mask (R265). -/
def State.bridgeMask (s : State) (e : Nat) : Nat := if s.pairMode e = 0 then 1 <<< e else 3 <<< (e / 2 * 2)

/-- A port takes part: present, enabled, its domain on (R125, R286). -/
def State.ethUp (s : State) (e : Nat) : Bool := s.part.hasEth e && s.domainOn 10 && decide (s.get (ethCfg e 1) = 1)

/-- The MemberMask and UntagMask of a VLAN (R263). -/
def State.memberMask (s : State) (v : Nat) : Nat := s.get (ob (vlanIndex v) 2)
def State.untagMask (s : State) (v : Nat) : Nat := s.get (ob (vlanIndex v) 3)

/-- The VLAN ID, PCP and drop-eligible indicator of a frame that arrived at a port (R263). -/
def State.frameTag (s : State) (e : Nat) (f : Bytes) : Nat × Nat × Nat :=
  if tagged f then
    let v := beAt f 14 2
    if v % 4096 = 0 then (s.get (ethCfg e 6), s.get (ethCfg e 8), v / 4096 % 2) else (v % 4096, v / 8192, v / 4096 % 2)
  else (s.get (ethCfg e 6), s.get (ethCfg e 8), 0)

/-- A frame with the tag it has inside the hub. -/
def setTag (f : Bytes) (vlan pcp dei : Nat) : Bytes :=
  let t := beBytes 2 0x8100 ++ beBytes 2 (vlan + 4096 * dei + 8192 * pcp)
  if tagged f then overlay f 12 t else f.take 12 ++ t ++ f.drop 12

/-- AcceptFrames of the port admits the frame (R263). -/
def State.accepts (s : State) (e : Nat) (f : Bytes) : Bool :=
  let has := tagged f && decide (beAt f 14 2 % 4096 ≠ 0)
  match s.get (ethCfg e 7) with
  | 1 => has
  | 2 => !has
  | _ => true

/-- The frame is recognised at the port: 1 GOOSE, 2 sampled values, 0 not (R266). -/
def State.recognised (s : State) (e : Nat) (f : Bytes) : Nat :=
  let app := beAt f (bodyAt f) 2
  if s.get (ethCfg e 9) ≠ 1 then 0
  else if etherType f = 0x88B8 ∧ app ≤ 0x3FFF then 1
  else if etherType f = 0x88BA ∧ 0x4000 ≤ app ∧ app ≤ 0x7FFF then 2
  else 0

/-- The class that the ingress adapter gives (R264). -/
def State.frameClass (s : State) (e pcp : Nat) (f : Bytes) : Nat :=
  if s.recognised e f ≠ 0 then 5 else if (s.get (ethCfg e 0x0A)).testBit pcp then 0 else 1

/-- The bucket of an address (R135): CRC-16/CCITT over the MAC and the VLAN ID. -/
def crc16Bits : Nat → Nat → Nat
  | 0, r => r
  | n + 1, r => crc16Bits n (if 0x8000 ≤ r then ((r * 2) % 65536) ^^^ 0x1021 else r * 2)

def bucketOf (mac vlan : Nat) : Nat :=
  ((leBytes 6 mac ++ beBytes 2 vlan).foldl (fun r b => crc16Bits 8 (r ^^^ (b.toNat * 256))) 0xFFFF) % 4096

/-- An entry of the Layer-2 table. -/
def State.l2 (s : State) (k : Nat) : L2 := Sparse.get {} s.fabric.l2 k

/-- An entry of the Layer-2 table set; the counts of entries follow (R147). -/
def State.setL2 (s : State) (k : Nat) (x : L2) : State :=
  let s := s.updFabric fun y => { y with l2 := Sparse.put {} k x y.l2 }
  s.setAll [(ob 0x2501 6, (s.fabric.l2.filter fun e => e.2.valid).length),
    (ob 0x2501 7, (s.fabric.l2.filter fun e => e.2.valid && !e.2.fixed).length)]

/-- The ways of a bucket. -/
def waysOf (b : Nat) : List Nat := [4 * b, 4 * b + 1, 4 * b + 2, 4 * b + 3]

/-- The slot of the entry that matches an address (R135). -/
def State.findL2 (s : State) (mac vlan : Nat) : Option Nat :=
  (waysOf (bucketOf mac vlan)).find? fun k => (s.l2 k).valid && decide ((s.l2 k).mac = mac ∧ (s.l2 k).vlan = vlan)

/-- A free way of a bucket. -/
def State.freeWay (s : State) (b : Nat) : Option Nat := (waysOf b).find? fun k => !(s.l2 k).valid

/-- The source address of an admitted good frame is learnt (R136) against a bridge port: a port mask, or a tunnel; `fp` is
the arriving fabric port. -/
def State.learn (s : State) (mac vlan ports tunnel fp : Nat) : State :=
  if s.hostMode 2 then s
  else
    match s.findL2 mac vlan with
    | some k =>
      let x := s.l2 k
      if x.fixed ∨ x.written = s.clock + 1 then s
      else
        let s' := s.setL2 k { x with ports, tunnel, seen := s.clock }
        if x.ports = ports ∧ x.tunnel = tunnel then s'
        else (s'.count (ob 0x2501 9) 1).fabricEv 0x4061 1 7 fp (u16 vlan) [1] []
    | none =>
      let b := bucketOf mac vlan
      match s.freeWay b with
      | some k => s.setL2 k { valid := true, mac, vlan, ports, tunnel, seen := s.clock }
      | none => (s.count (ob 0x2501 8) 1).fabricEv 0x4060 2 7 fp (u16 b) [1] []

/-- The network tunnels that a frame may enter (R134). -/
def State.netOpen (s : State) (n : Nat) : Bool :=
  decide (16 ≤ n ∧ s.tstate n = 3 ∧ s.tcfg n 2 = 2) && !s.transit n

/-- The tunnels that a tunnel field names (R134). -/
def State.fieldTunnels (s : State) (f : Nat) : List Nat :=
  (if f = 0 then [] else if f < 16 then (upTo 32).map fun k => s.get (ob (0x2550 + f) (k + 1)) else [f]).eraseDups.filter
    s.netOpen

/-- Port and tunnel destinations of a frame by the table (R134, R135): a port mask and a tunnel field; none where an
unknown unicast address is discarded. -/
def State.lookup (s : State) (mac vlan : Nat) : Option (Nat × Nat) :=
  match s.findL2 mac vlan with
  | some k => some ((s.l2 k).ports, (s.l2 k).tunnel)
  | none =>
    if mac % 2 = 1 ∨ s.get (ob 0x2501 2) = 0 then some (s.get (ob 0x2501 3), s.get (ob 0x2501 4)) else none

/-- PTP frames are exempt from a pair's duplication (R265). -/
def isPtp (f : Bytes) : Bool := decide (etherType f = 0x88F7)

/-- The Ethernet ports on which a frame for a port mask leaves (R263, R265): members of its VLAN, a pair's both ports,
never the arriving bridge port; `from_` is the arriving port, 8 for a tunnel. -/
def State.outPorts (s : State) (mask vlan from_ : Nat) (ptp : Bool) : List Nat :=
  let full := (upTo 8).foldl (fun m e => if mask.testBit e then m ||| (if ptp then 1 <<< e else s.bridgeMask e) else m) 0
  let own := if from_ < 8 then (if ptp then 1 <<< from_ else s.bridgeMask from_) else 0
  (upTo 8).filter fun e => full.testBit e && !own.testBit e && (s.memberMask vlan).testBit e && s.ethUp e

/-- A MAC address behind a pair, at another bridge port of the hub: a proxy node (R265). -/
def State.proxy (s : State) (k mac : Nat) : Bool :=
  s.fabric.l2.any fun e => e.2.valid && decide (e.2.mac = mac ∧ e.2.ports &&& (3 <<< (2 * k)) = 0)

/-- ProxyNodes of a pair (R265, R287). -/
def State.proxyNodes (s : State) (k : Nat) : Nat :=
  if s.pairMode (2 * k) = 0 then 0
  else
    min 1024 ((s.fabric.l2.filter fun e =>
      e.2.valid && decide (e.2.ports &&& (3 <<< (2 * k)) = 0)).map fun e => e.2.mac).eraseDups.length

/-- An HSR frame's tag: where it lies, and the sequence (R265). -/
def hsrTag (f : Bytes) : Option (Nat × Nat) :=
  if etherType f = 0x892F then some (bodyAt f - 2, beAt f (bodyAt f + 2) 2) else none

/-- A frame received in HSR mode without its tag, and the tag; elsewhere the frame as it is (R265). -/
def State.inner (s : State) (e : Nat) (f : Bytes) : Bytes :=
  match (if s.pairMode e = 2 then hsrTag f else none) with
  | some (o, _) => f.take o ++ f.drop (o + 6)
  | none => f

def State.ringTag (s : State) (e : Nat) (f : Bytes) : Bytes :=
  match (if s.pairMode e = 2 then hsrTag f else none) with
  | some (o, _) => (f.drop o).take 6
  | none => []

/-- A port of an HSR pair can pass a frame on. -/
def State.ringOpen (s : State) (e : Nat) : Bool := s.ethUp e && decide (s.get (ethStat e 1) = 1)

/-- Where the first cell of a frame from an Ethernet port goes (R125, R134): ports and tunnels; whether it is an unknown
unicast frame to be discarded. -/
def State.frameDests (s : State) (e : Nat) (f : Bytes) : List Nat × List Nat × Bool :=
  let vlan := beAt f 14 2 % 4096
  match s.lookup (dstMac f) vlan with
  | some (mask, field) => (s.outPorts mask vlan e (isPtp f), s.fieldTunnels field, false)
  | none => ([], [], true)

/-- A frame handed to the fabric at an Ethernet port: cells small enough for every tunnel it may enter; a bad frame of
one cell is discarded whole, a longer one carries the tail-bad mark (R128). `fixed`: an ingress stamp was taken off a PTP
frame (R274). -/
def State.frameIn (s : State) (e cls dei : Nat) (bad : Bool) (f : Bytes) (fixed : Bool := false) : State :=
  let (_, ts, _) := s.frameDests e f
  let k := if ts.any fun n => decide (s.tcfg n 0x0A = 1) then 220 else 236
  let cs := (s.unitCells 0 cls dei k bad f).map fun c => { c with fixed }
  if bad then
    if cs.length ≤ 1 then s else (forAll (fun c s => s.toFabric (4 + e) c) cs s).tailEv (4 + e) 1 0 0
  else forAll (fun c s => s.toFabric (4 + e) c) cs s

/-- The congestion mark in a frame (R264): ECN 01 or 10 becomes 11, with the IPv4 checksum; whether it changed. -/
def onesAdd : Nat → List Nat → Nat
  | a, [] => a
  | a, w :: r => onesAdd (let x := a + w; x % 65536 + x / 65536) r

def words16 : Nat → Bytes → List Nat
  | 0, _ => []
  | n + 1, b => beAt b 0 2 :: words16 n (b.drop 2)

def markEcn (f : Bytes) : Bytes × Bool :=
  let o := bodyAt f
  if etherType f = 0x0800 then
    let tos := byteAt f (o + 1)
    if tos % 4 = 1 ∨ tos % 4 = 2 then
      let f := overlay (overlay f (o + 1) (u8 (tos ||| 3))) (o + 10) (zeros 2)
      let hl := byteAt f o % 16 * 4
      (overlay f (o + 10) (beBytes 2 (65535 - onesAdd 0 (words16 (hl / 2) (f.drop o)))), true)
    else (f, false)
  else if etherType f = 0x86DD then
    let ecn := byteAt f (o + 1) / 16 % 4
    if ecn = 1 ∨ ecn = 2 then (overlay f (o + 1) (u8 (byteAt f (o + 1) ||| 0x30)), true) else (f, false)
  else (f, false)

/-- The messageType of a PTP message, and its place in a frame (R273). -/
def ptpType (f : Bytes) : Nat := byteAt f (bodyAt f) % 16

/-- Nanoseconds added to a PTP message's correctionField, modulo 2^64 (R274). -/
def addCorrection (f : Bytes) (ns : Int) : Bytes :=
  let o := bodyAt f + 8
  overlay f o (beBytes 8 (((beAt f o 8 : Int) + ns * 65536) % (2 ^ 64 : Nat)).toNat)

/-- A frame is corrected as a transparent clock at egress (R274): one whose ingress stamp was taken off here (`fixed`), or at
the far hub of the tunnel `n` that brought it; both hubs of its transit are time-valid. A frame that entered at a port
without a role is bridged as an ordinary frame (R273; log entry 213). -/
def State.ptpOut (s : State) (e n : Nat) (fixed : Bool) (f : Bytes) : Bytes × State :=
  if isPtp f ∧ (fixed ∨ 16 ≤ n) ∧ (ptpType f = 0 ∨ ptpType f = 3) then
    let farOk := decide (n < 16) || ((s.trunksOf n).any fun t =>
      s.trained t && decide (s.get (ob (0x2F04 + t) 6) = 2 ∨ s.get (ob (0x2F04 + t) 6) = 3))
    if s.timeValid && farOk then (addCorrection f s.station, s)
    else (f, (s.count (ethStat e 0x0B) 1).inputErrors 0 0 1)
  else (f, s)

/-- The redundancy trailer or tag of a frame that leaves a pair's port (R265). -/
def redTag (mode e seq : Nat) (f : Bytes) : Bytes :=
  let o := bodyAt f - 2
  if mode = 1 then
    f ++ beBytes 2 seq ++ beBytes 2 ((if e % 2 = 0 then 0xA else 0xB) * 4096 + (f.length - o + 6) % 4096) ++ beBytes 2 0x88FB
  else f.take o ++ beBytes 2 0x892F ++ beBytes 2 (e % 2 * 4096 + (f.length - o + 6) % 4096) ++ beBytes 2 seq ++ f.drop o

/-- A frame without its frame check sequence padded to the shortest length (R262). -/
def padFrame (f : Bytes) : Bytes := f ++ zeros (60 - f.length)

/-- A PTP frame from a tunnel leaves one port of a pair only, the tunnel's own: it is exempt from duplication (R265). -/
def State.ptpElsewhere (s : State) (e n : Nat) (f : Bytes) : Bool :=
  isPtp f && decide (16 ≤ n ∧ s.pairMode e ≠ 0 ∧ s.tcfg n 6 ≠ 4 + e)

/-- A frame leaves an Ethernet port (R262-R265): it is discarded where the link is down, or the port no member of its
VLAN, or for a foreign Sync at a time transmitter (R274). `n` is the tunnel that brought it, else 0; `seq` its pair's
sequence. -/
def State.frameOut (s : State) (e n seq : Nat) (cong fixed : Bool) (raw : Bytes) : State :=
  let f := dropFcs raw
  let vlan := beAt f 14 2 % 4096
  if !s.ethUp e || decide (s.get (ethStat e 1) ≠ 1) || !(s.memberMask vlan).testBit e ||
      (isPtp f && decide (s.get (ethCfg e 0x0B) = 3 ∧ ptpType f = 0)) || s.ptpElsewhere e n f then s
  else
    let (f, marked) := if cong ∧ s.get (ethCfg e 0x0D) = 1 then markEcn f else (f, false)
    let s := if marked then s.count (ethStat e 0x0D) 1 else s
    let (f, s) := s.ptpOut e n fixed f
    let f := padFrame (if (s.untagMask vlan).testBit e then f.take 12 ++ f.drop 16 else f)
    let f := if s.pairMode e = 0 ∨ (isPtp f ∧ s.pairMode e = 1) then f else redTag (s.pairMode e) e seq f
    (s.count (ethStat e 4) 1).send (.frame e (withFcs f))

end Sys2Proof.Machine
end

