-- ==== Sys2Proof/Machine/FloatOps.lean ====
section
/-!
DEFINITION. binary32 and binary64 arithmetic of the signal gateway (R324, R325), on numbers m · 2^e.
-/

set_option Elab.async false

namespace Sys2Proof.Machine

/-- A number m · 2^e. -/
structure Dy where
  m : Int
  e : Int
  deriving DecidableEq, Repr

/-- What a binary32 holds. -/
inductive F32 where
  | nan
  | inf (neg : Bool)
  | num (x : Dy)
  deriving DecidableEq, Repr

/-- The value of a binary32's bits. -/
def f32Of (b : Nat) : F32 :=
  let neg := b.testBit 31
  let e := field b 23 8
  let f := field b 0 23
  let sg : Int := if neg then -1 else 1
  if e = 255 then (if f = 0 then .inf neg else .nan)
  else if e = 0 then .num { m := sg * f, e := -149 }
  else .num { m := sg * (f + 8388608 : Nat), e := (e : Int) - 150 }

/-- How many bits a magnitude has. -/
def bitLen (n : Nat) : Nat := if n = 0 then 0 else Nat.log2 n + 1

/-- m / 2^k rounded to nearest, ties to even. -/
def roundEven (m : Int) (k : Nat) : Int :=
  let q := m / (2 ^ k : Nat)
  let r := m % (2 ^ k : Nat)
  let h : Int := (2 ^ k : Nat)
  if 2 * r < h then q else if h < 2 * r then q + 1 else if q % 2 = 0 then q else q + 1

/-- Rounded to `p` significant bits, to nearest even. -/
def Dy.round (p : Nat) (x : Dy) : Dy :=
  let l := bitLen x.m.natAbs
  if l ≤ p then x else { m := roundEven x.m (l - p), e := x.e + (l - p : Nat) }

/-- The exact sum. -/
def Dy.add (a b : Dy) : Dy :=
  if a.e ≤ b.e then { m := a.m + b.m * (2 ^ (b.e - a.e).toNat : Nat), e := a.e }
  else { m := a.m * (2 ^ (a.e - b.e).toNat : Nat) + b.m, e := b.e }

/-- The exact product with an integer. -/
def Dy.scale (a : Dy) (k : Int) : Dy := { m := a.m * k, e := a.e }

/-- `a` is less than `b`. -/
def Dy.lt (a b : Dy) : Bool := decide ((a.add (b.scale (-1))).m < 0)

/-- An integer. -/
def Dy.int (k : Int) : Dy := { m := k, e := 0 }

/-- Rounded to an integer: 0 to nearest with ties away from zero, 1 toward zero, 2 toward minus infinity (R325). -/
def Dy.toInt (mode : Nat) (x : Dy) : Int :=
  if 0 ≤ x.e then x.m * (2 ^ x.e.toNat : Nat)
  else
    let d : Int := (2 ^ (-x.e).toNat : Nat)
    if mode = 2 then x.m / d
    else if mode = 1 then Int.tdiv x.m d
    else if 0 ≤ x.m then (2 * x.m + d) / (2 * d) else -((2 * (-x.m) + d) / (2 * d))

/-- The binary32 nearest to a number, ties to even; past the largest, infinity. -/
def f32Bits (x : Dy) : Nat :=
  if x.m = 0 then 0
  else
    let sign := if x.m < 0 then 2 ^ 31 else 0
    let a : Dy := { m := x.m.natAbs, e := x.e }
    let top := a.e + bitLen a.m.natAbs - 1
    let q := if top < -126 then -149 else top - 23
    let m := (if q ≤ a.e then a.m * (2 ^ (a.e - q).toNat : Nat) else roundEven a.m (q - a.e).toNat).toNat
    let (m, q) := if m = 16777216 then (8388608, q + 1) else (m, q)
    if m < 8388608 then sign + m
    else if 104 < q then sign + 255 * 8388608
    else sign + (q + 150).toNat * 8388608 + (m - 8388608)

/-- The largest binary32. -/
def f32Max : Dy := { m := 16777215, e := 104 }

end Sys2Proof.Machine
end

