-- ==== Sys2Proof/Machine/FieldOps.lean ====
section
/-!
DEFINITION. CAN ports, serial units and the signal gateway: fields, scaling, qualities, destinations, GOOSE (R315-R331).
-/

set_option Elab.async false

namespace Sys2Proof.Machine

open Sys2Proof

/-- The field function changed. -/
def State.updFld (s : State) (f : Field → Field) : State := { s with fld := f s.fld }

/-- The field domain is on (R316, R332). -/
def State.fieldOn (s : State) : Bool := s.domainOn 13

/-- An object of a map entry, a CAN port's status, a publisher (R335-R337). -/
def mapKey (n sub : Nat) : Nat := ob (0x5000 + n) sub
def canStat (c sub : Nat) : Nat := ob (0x2E03 + c) sub
def pubKey (g sub : Nat) : Nat := ob (0x2E80 + g) sub
def subKey (k sub : Nat) : Nat := ob (0x2E90 + k) sub

/-- A CAN port's own state, and changed. -/
def State.canp (s : State) (c : Nat) : CanPort := Sparse.get {} s.fld.cans c
def State.updCanp (s : State) (c : Nat) (f : CanPort → CanPort) : State :=
  s.updFld fun x => { x with cans := Sparse.put {} c (f (s.canp c)) x.cans }

/-- A map entry's own state, and changed. -/
def State.mapEntry (s : State) (n : Nat) : MapEntry := Sparse.get {} s.fld.maps n
def State.updMap (s : State) (n : Nat) (f : MapEntry → MapEntry) : State :=
  s.updFld fun x => { x with maps := Sparse.put {} n (f (s.mapEntry n)) x.maps }

/-- A CanTxFrame's own state, and changed. -/
def State.canTx (s : State) (f : Nat) : CanTx := Sparse.get {} s.fld.txs f
def State.updCanTx (s : State) (k : Nat) (f : CanTx → CanTx) : State :=
  s.updFld fun x => { x with txs := Sparse.put {} k (f (s.canTx k)) x.txs }

/-- A publisher's and a subscription's own state, and changed. -/
def State.pub (s : State) (g : Nat) : GoosePub := Sparse.get {} s.fld.pubs g
def State.updPub (s : State) (g : Nat) (f : GoosePub → GoosePub) : State :=
  s.updFld fun x => { x with pubs := Sparse.put {} g (f (s.pub g)) x.pubs }
def State.gsub (s : State) (k : Nat) : GooseSub := Sparse.get {} s.fld.subs k
def State.updGsub (s : State) (k : Nat) (f : GooseSub → GooseSub) : State :=
  s.updFld fun x => { x with subs := Sparse.put {} k (f (s.gsub k)) x.subs }

/-- A configuration value of a map entry in effect (R332, R337). -/
def State.mcfg (s : State) (n sub : Nat) : Nat := Sparse.get 0 (s.mapEntry n).cfg sub

/-- The enabled map entries. -/
def State.mapsOn (s : State) : List Nat :=
  s.objs.filterMap fun e =>
    if 0x5000 ≤ e.1 / 256 ∧ e.1 / 256 < 0x5400 ∧ e.1 % 256 = 1 ∧ e.2 = 1 then some (e.1 / 256 - 0x5000) else none

/-- Discards of a CAN port, at most once a second (R338): TxDiscards, FramesFiltered. -/
def State.canDrop (s : State) (c tx filtered : Nat) : State :=
  ((s.count (canStat c 4) tx).count (canStat c 3) filtered).evRate 0xB002 c 2 (240 + c) (sec 1) (u16 c) [tx, filtered] []

/-- The COB-IDs of enabled PDOs, each with its IDE bit (R43, R316). -/
def State.pdoIds (s : State) : List (Bool × Nat) :=
  [0x1400, 0x1401, 0x1402, 0x1403, 0x1800, 0x1801, 0x1802, 0x1803].filterMap fun i =>
    let v := s.get (ob i 1)
    if v.testBit 31 then none else if v.testBit 29 then some (true, v % 2 ^ 29) else some (false, v % 2 ^ 11)

/-- An identifier reserved for CANopen on C0 (R316). -/
def State.reservedId (s : State) (ide : Bool) (id : Nat) : Bool :=
  (!ide && decide (id = 0 ∨ id = 0x80 ∨ id = 0x700 + s.canNode ∨ id = 0x580 + s.canNode ∨ id = 0x600 + s.canNode)) ||
    s.pdoIds.contains (ide, id)

/-- A frame's place by identifier priority: the lower value wins; a standard frame before an extended one of the same
leading bits (R318). -/
def canRank (f : CanFrame) : Nat := if f.ide then f.id * 2 + 1 else f.id * 2 ^ 19

/-- A frame put into a transmit queue by its priority, behind its equals. -/
def canInsert (f : CanFrame) : List CanFrame → List CanFrame
  | [] => [f]
  | x :: r => if canRank f < canRank x then f :: x :: r else x :: canInsert f r

/-- A frame for transmission on a CAN port (R318). -/
def State.canSend (s : State) (c : Nat) (f : CanFrame) : State :=
  if 64 ≤ (s.canp c).tx.length ∨ s.get (canStat c 1) = 2 ∨ s.get (ob (0x2E01 + c) 1) ≠ 1 then s.canDrop c 1 0
  else s.updCanp c fun x => { x with tx := canInsert f x.tx }

/-- A change of BusState (R338). -/
def State.busState (s : State) (c new tec rec_ : Nat) : State :=
  let old := s.get (canStat c 1)
  (s.set (canStat c 1) new).ev 0xB001 c (if new = 2 then 3 else 1) (240 + c)
    (u16 c ++ u16 old ++ u16 new ++ u16 tec ++ u16 rec_)

/-- A port's error counters take values, and its state is the one that they give by ISO 11898-1 (R318): bus-off from 256 in
the transmit counter, error passive from 128 in either. -/
def State.canErrors (s : State) (c tec rec_ : Nat) : State :=
  let new := if 256 ≤ tec then 2 else if 128 ≤ tec ∨ 128 ≤ rec_ then 1 else 0
  let s := s.updCanp c fun x => { x with tec, rec_ }
  if s.get (canStat c 1) = new then s else s.busState c new tec rec_

/-- A good frame received lowers the receive error counter by 1; one above 127 falls to a value from 119 to 127 that ISO
11898-1 leaves open (R318; log entry 212). -/
def State.canHeard (s : State) (c : Nat) : State :=
  let x := s.canp c
  if x.rec_ = 0 then s
  else s.canErrors c x.tec (if 127 < x.rec_ then 119 + Config.code 0x2E03 x.rec_ % 9 else x.rec_ - 1)

/-- A frame transmitted lowers the transmit error counter by 1 (R318). -/
def State.canSpoken (s : State) (c : Nat) : State :=
  let x := s.canp c
  if x.tec = 0 then s else s.canErrors c (x.tec - 1) x.rec_

/-- The first waiting frame of a port leaves on a free bus (R318). -/
def State.canDrain (s : State) (c : Nat) : State :=
  match (s.canp c).tx with
  | [] => s
  | f :: r =>
    if s.get (canStat c 1) = 2 then s else ((s.updCanp c fun x => { x with tx := r }).send (.can c f)).canSpoken c

/-- A gateway frame: on C0 never with a reserved identifier, and within C0GatewayLimit (R316). -/
def State.gatewaySend (s : State) (c : Nat) (f : CanFrame) : State :=
  if c ≠ 0 then s.canSend c f
  else
    let now := s.clock / 1000000000
    let x := s.canp 0
    let n := if x.second = now then x.frames else 0
    if s.reservedId f.ide f.id ∨ s.get (ob 0x2E00 1) ≤ n then s.canDrop 0 1 0
    else (s.updCanp 0 fun x => { x with second := now, frames := n + 1 }).canSend 0 f

/-- The Open field tunnel with a local endpoint (R321). -/
def State.fieldTunnel (s : State) (endpoint : Nat) : Option Nat :=
  s.liveTunnels.find? fun n =>
    decide (s.tstate n = 3 ∧ s.tcfg n 2 = 4 ∧ s.tcfg n 6 = 16 ∧ s.tcfg n 8 = endpoint)

/-- A field unit goes to its tunnel in one cell (R322); whether there was one. -/
def State.fieldUnit (s : State) (endpoint : Nat) (unit : Bytes) : Bool × State :=
  match s.fieldTunnel endpoint with
  | some n => (true, s.toFabric 16 { s.newCell n 0 unit with ver := s.get (tunKey n 0x12) })
  | none => (false, s)

/-- The unit of a CAN frame, and the frame of a unit (R323). -/
def canUnit (c stamp : Nat) (f : CanFrame) : Bytes :=
  u8 1 ++ u8 c ++ u8 (ofBool f.ide + 2 * ofBool f.fd + 4 * ofBool f.brs + 8 * ofBool f.esi + 16 * ofBool f.rtr) ++
    u8 f.data.length ++ u32 f.id ++ u64 stamp ++ f.data

def unitCan (b : Bytes) : CanFrame :=
  let g := byteAt b 2
  { ide := g.testBit 0, fd := g.testBit 1, brs := g.testBit 2, esi := g.testBit 3, rtr := g.testBit 4,
    id := leAt b 4 4 % 2 ^ 29, data := fitBytes (byteAt b 3) (b.drop 16) }

/-! Fields of a source or a destination (R324). -/

/-- The bit of a frame at a place counted as big-endian fields run: from a byte's bit, downwards, on to bit 7 of the next
byte. -/
def beStep (p : Nat) : Nat := if p % 8 = 0 then p + 15 else p - 1

/-- A big-endian field: its bits from the most significant one on. -/
def beField (data : Bytes) : Nat → Nat → Nat → Nat
  | 0, _, acc => acc
  | n + 1, p, acc => beField data n (beStep p) (2 * acc + ofBool ((leNat data).testBit p))

/-- The last bit place that a big-endian field takes. -/
def beEnd : Nat → Nat → Nat
  | 0, p => p
  | n + 1, p => if n = 0 then p else beEnd n (beStep p)

/-- The formats that run big-endian. -/
def bigEndian (fmt : Nat) : Bool := decide (fmt = 2 ∨ fmt = 3 ∨ fmt = 5)

/-- The raw field of a CAN frame; none where the frame is too short for it. -/
def canField (data : Bytes) (fmt off len : Nat) : Option Nat :=
  if bigEndian fmt then
    if beEnd len off / 8 < data.length then some (beField data len off 0) else none
  else if off + len ≤ 8 * data.length then some (field (leNat data) off len) else none

/-- A field's value: an integer, or binary32 bits. -/
inductive FVal where
  | int (v : Int)
  | flt (bits : Nat)
  deriving DecidableEq, Repr

/-- A raw field read in a format (R324). -/
def fieldVal (fmt len raw : Nat) : FVal :=
  if 4 ≤ fmt then .flt raw else if fmt % 2 = 1 then .int (sget len raw) else .int raw

/-- Lowest and highest value of an integer format and length (R325). -/
def intLow (fmt len : Nat) : Int := if fmt % 2 = 1 then -(2 ^ (len - 1) : Nat) else 0
def intHigh (fmt len : Nat) : Int := if fmt % 2 = 1 then (2 ^ (len - 1) : Nat) - 1 else (2 ^ len : Nat) - 1

/-- A scaled result before its bounds. -/
inductive Scaled where
  | nan
  | int (v : Int)
  | real (x : Dy)
  | inf (neg : Bool)
  deriving DecidableEq, Repr

/-- The result of R325 before its bounds, with the entry's gain, offset and round mode; `toFloat` when the destination is
binary32. A draw's number stands for an infinite source times gain 0. -/
def scaleVal (f : FVal) (gain off : Int) (mode : Nat) (toFloat : Bool) (d : Nat) : Scaled :=
  match f with
  | .flt b =>
    match f32Of b with
    | .nan => .nan
    | .inf neg =>
      if gain = 0 then .int (Config.scaledNan d) else .inf (neg ≠ decide (gain < 0))
    | .num x =>
      let p := (x.scale gain).round 53
      let y := (({ m := p.m, e := p.e - 16 } : Dy).add (Dy.int off)).round 53
      if toFloat then .real y else .int (y.toInt mode)
  | .int v =>
    if toFloat then
      let p := ((Dy.int v).round 53).scale gain |>.round 53
      .real ((({ m := p.m, e := p.e - 16 } : Dy).add (Dy.int off)).round 53)
    else .int (({ m := v * gain, e := -16 } : Dy).toInt mode + off)

/-- The result held within its bounds (R325): Value's bits, and whether it saturated. -/
def boundVal (y : Scaled) (fmt len : Nat) (outMin outMax : Int) : Nat × Bool :=
  if 4 ≤ fmt then
    let y := match y with
      | .int v => Scaled.real (Dy.int v)
      | y => y
    match y with
    | .inf neg => (f32Bits (Dy.int (if neg then outMin else outMax)), true)
    | .real x =>
      let v := f32Of (f32Bits x)
      match v with
      | .num z =>
        if z.lt (Dy.int outMin) then (f32Bits (Dy.int outMin), true)
        else if (Dy.int outMax).lt z then (f32Bits (Dy.int outMax), true)
        else (f32Bits x, false)
      | .inf neg => (f32Bits (Dy.int (if neg then outMin else outMax)), true)
      | .nan => (0, false)
    | _ => (0, false)
  else
    let lo := max outMin (intLow fmt len)
    let hi := min outMax (intHigh fmt len)
    match y with
    | .int v => if v < lo then (sput 64 lo, true) else if hi < v then (sput 64 hi, true) else (sput 64 v, false)
    | .inf neg => (sput 64 (if neg then lo else hi), true)
    | _ => (0, false)

/-- How far two Values lie apart, as numbers of the destination's format. -/
def apart (fmt a b : Nat) : Dy :=
  if 4 ≤ fmt then
    match f32Of a, f32Of b with
    | .num x, .num y => let d := x.add (y.scale (-1)); { m := d.m.natAbs, e := d.e }
    | _, _ => Dy.int 0
  else Dy.int ((sget 64 a - sget 64 b).natAbs)

/-! Destinations (R328). -/

/-- A field placed in a frame's bits. -/
def putLe (bits : Nat) (off len v : Nat) : Nat :=
  (upTo len).foldl (fun b k => putBit b (off + k) (v.testBit k)) bits

def putBe (v : Nat) : Nat → Nat → Nat → Nat
  | 0, _, bits => bits
  | n + 1, p, bits => putBe v n (beStep p) (putBit bits p (v.testBit n))

/-- A CanTxFrame with the present values of all its entries, and FillByte where none lies (R328). -/
def State.canTxData (s : State) (f : Nat) : Bytes :=
  let len := s.get (ob (0x2E40 + f) 2)
  let fill := leNat (List.replicate len (BitVec.ofNat 8 (s.get (ob (0x2E40 + f) 5))))
  leBytes len ((s.mapsOn.filter fun n => decide (s.mcfg n 0x0C = 1 ∧ field (s.mcfg n 0x0D) 16 6 = f)).foldl (fun b n =>
    let v := s.get (mapKey n 0x16)
    let off := field (s.mcfg n 0x0D) 0 9
    let l := s.mcfg n 0x0F
    if bigEndian (s.mcfg n 0x0E) then putBe v l off b else putLe b off l v) fill)

/-- A CanTxFrame is sent now (R328). -/
def State.canTxNow (s : State) (f : Nat) : State :=
  let v := s.get (ob (0x2E40 + f) 1)
  let s := s.updCanTx f fun x => { x with last := some s.clock, deferred := false }
  s.gatewaySend (field v 31 1)
    { ide := v.testBit 30, fd := v.testBit 29, id := field v 0 29, data := s.canTxData f }

/-- The frame is within its InhibitTime (R328). -/
def State.inhibited (s : State) (f : Nat) : Bool :=
  match (s.canTx f).last with
  | some c => decide (s.clock < c + s.get (ob (0x2E40 + f) 3) * 100000)
  | none => false

/-- A CanTxFrame triggers: within the inhibit it is deferred (R328); while a source is at work its frames wait for the end of
it, so that entries that trigger together share one frame (R332). -/
def State.canTrigger (s : State) (f : Nat) : State :=
  match s.fld.batch with
  | some fs => if fs.contains f then s else s.updFld fun x => { x with batch := some (fs ++ [f]) }
  | none => if s.inhibited f then s.updCanTx f fun x => { x with deferred := true } else s.canTxNow f

/-- What one source brings is taken, and then the CanTxFrames that it triggers go (R332). -/
def State.together (s : State) (eff : State → State) : State :=
  let s := eff (s.updFld fun x => { x with batch := some [] })
  forAll (fun f (s : State) => s.canTrigger f) (s.fld.batch.getD []) (s.updFld fun x => { x with batch := none })

/-! TPDOs (R43). -/

/-- A TPDO's own state, and changed. -/
def State.tpdo (s : State) (k : Nat) : Tpdo := Sparse.get {} s.canOpen.tpdos k
def State.updTpdo (s : State) (k : Nat) (f : Tpdo → Tpdo) : State :=
  { s with canOpen := { s.canOpen with tpdos := Sparse.put {} k (f (s.tpdo k)) s.canOpen.tpdos } }

/-- The mapping of a PDO: its entries in use (R43). -/
def State.pdoMap (s : State) (i : Nat) : List Nat := (upTo (s.get (ob i 0))).map fun k => s.get (ob i (k + 1))

/-- What a TPDO carries: its mapped objects one after the other, 8 bytes at most; objects of a domain that is off read zero
(R21, R43). -/
def State.tpdoData (s : State) (k : Nat) : Bytes :=
  ((s.pdoMap (0x1A00 + k)).flatMap fun v =>
    leBytes (v % 256 / 8) (if s.fieldOn then s.get (ob (field v 16 16) (field v 8 8)) else 0)).take 8

/-- CANopen is operational, the TPDO valid and something mapped (R43, R44). -/
def State.tpdoOn (s : State) (k : Nat) : Bool :=
  s.reach && decide (s.canOpen.nmt = 5) && !(s.get (ob (0x1800 + k) 1)).testBit 31 && !(s.pdoMap (0x1A00 + k)).isEmpty

/-- A TPDO is sent now (R43). -/
def State.tpdoSend (s : State) (k : Nat) : State :=
  let v := s.get (ob (0x1800 + k) 1)
  let data := s.tpdoData k
  (s.canSend 0 { ide := v.testBit 29, id := if v.testBit 29 then v % 2 ^ 29 else v % 2 ^ 11, data }).updTpdo k fun _ =>
    { last := some s.clock, timer := s.clock, data }

/-- The TPDO is within its inhibit time, in 100 µs (R43). -/
def State.tpdoHeld (s : State) (k : Nat) : Bool :=
  match (s.tpdo k).last with
  | some c => decide (s.clock < c + s.get (ob (0x1800 + k) 3) * 100000)
  | none => false

/-- An event-driven TPDO is due: sent, or deferred to the end of its inhibit time (R43). -/
def State.tpdoTrigger (s : State) (k : Nat) : State :=
  if s.tpdoHeld k then s.updTpdo k fun x => { x with deferred := true, timer := s.clock } else s.tpdoSend k

/-- Mapped data may have changed: event-driven TPDOs whose data differ from what they sent last are due (R43). -/
def State.tpdoCheck (s : State) : State :=
  forAll (fun (k : Nat) s =>
    if s.tpdoOn k && decide (254 ≤ s.get (ob (0x1800 + k) 2)) && decide (s.tpdoData k ≠ (s.tpdo k).data) then s.tpdoTrigger k
    else s) (upTo 4) s

/-! GOOSE (R329, R330). -/

/-- A BER length, and a field. -/
def berLen (n : Nat) : Bytes :=
  if n < 128 then u8 n else if n < 256 then u8 0x81 ++ u8 n else u8 0x82 ++ beBytes 2 n
def ber (tag : Nat) (b : Bytes) : Bytes := u8 tag ++ berLen b.length ++ b

/-- The shortest two's-complement bytes of an integer. -/
def berInt (v : Int) : Bytes :=
  let n := ((upTo 9).find? fun k => decide (1 ≤ k ∧ -(2 ^ (8 * k - 1) : Nat) ≤ v ∧ v < (2 ^ (8 * k - 1) : Nat))).getD 9
  beBytes n (sput (8 * n) v)

/-- The type code of a publisher's member; the code 0 ends them (R336). -/
def State.memberType (s : State) (g m : Nat) : Nat := field (s.get (pubKey g 0x0B)) (8 * m) 8

/-- How many members a publisher has. -/
def State.memberCount (s : State) (g : Nat) : Nat :=
  ((upTo 32).find? fun m => decide (s.memberType g m = 0)).getD 32

/-- UtcTime of a station time (R329): seconds, fraction, quality. -/
def State.utcTime (s : State) (t : Nat) : Bytes :=
  let secs := ((t / 1000000000 : Nat) - sget 16 s.utcOffset).toNat
  let q := 0x80 + (if s.timeValid then 0 else 0x40) + (if s.tmState = 3 then 0x20 else 0) +
    (if s.tmState = 2 then 20 else 31)
  beBytes 4 secs ++ beBytes 3 (t % 1000000000 * 2 ^ 24 / 1000000000) ++ u8 q

/-- The 13 bits of a Quality member from an entry's Quality (R329): validity first, then overflow, outOfRange,
badReference, oscillatory, failure, oldData; the bit string's first bit is the highest. -/
def qualityBits (q : Nat) : Nat :=
  (if q.testBit 1 ∨ q.testBit 2 then 0x1800 else if q.testBit 0 then 0x0800 else 0) +
    (if q.testBit 2 then 0x0200 else 0) + (if q.testBit 1 then 0x0020 else 0)

/-- The member whose entry fills the member before `m`: past Quality and Timestamp members, which have none (R329). -/
def State.memberOwner (s : State) (g : Nat) : Nat → Nat
  | 0 => 0
  | m + 1 => if s.memberType g m = 6 ∨ s.memberType g m = 7 then s.memberOwner g m else m

/-- The data of a publisher's member (R329). -/
def State.memberData (s : State) (g m : Nat) : Bytes :=
  let own := ((s.pub g).members.find? fun e => decide (e.1 = m)).getD (m, 0, 0, 0)
  let prev := ((s.pub g).members.find? fun e => decide (e.1 = s.memberOwner g m)).getD (m, 0, 2, 0)
  match s.memberType g m with
  | 1 => ber 0x83 (u8 (if own.2.1 = 0 then 0 else 1))
  | 2 => ber 0x84 (u8 6 ++ u8 (own.2.1 % 4 * 64))
  | 3 => ber 0x85 (berInt (sget 32 own.2.1))
  | 4 => ber 0x86 (berInt (own.2.1 % 2 ^ 32 : Nat))
  | 5 => ber 0x87 (u8 8 ++ beBytes 4 own.2.1)
  | 6 => ber 0x84 (u8 3 ++ beBytes 2 (qualityBits prev.2.2.1 * 8))
  | 7 => ber 0x91 (s.utcTime prev.2.2.2)
  | _ => []

/-- A publisher's frame without its frame check sequence (R329); `tal` is the time to its own next one, doubled. -/
def State.gooseFrame (s : State) (g tal : Nat) : Bytes :=
  let x := s.pub g
  let n := s.memberCount g
  let pdu := ber 0x61
    (ber 0x80 (s.str (pubKey g 5)) ++ ber 0x81 (berInt tal) ++ ber 0x82 (s.str (pubKey g 6)) ++
     ber 0x83 (s.str (pubKey g 7)) ++ ber 0x84 (s.utcTime x.at_) ++ ber 0x85 (berInt x.st) ++ ber 0x86 (berInt x.sq) ++
     ber 0x87 (u8 0) ++ ber 0x88 (berInt (s.get (pubKey g 8))) ++ ber 0x89 (u8 0) ++ ber 0x8A (berInt n) ++
     ber 0xAB ((upTo n).flatMap (s.memberData g)))
  leBytes 6 (s.get (pubKey g 2)) ++ Config.hubMac s.part.serial ++ beBytes 2 0x8100 ++
    beBytes 2 (s.get (pubKey g 4)) ++ beBytes 2 0x88B8 ++ beBytes 2 (s.get (pubKey g 3)) ++ beBytes 2 (pdu.length + 8) ++
    zeros 4 ++ pdu

/-- A publisher sends a frame and its next repeat's interval is set (R329): only while time is valid. -/
def State.goosePublish (s : State) (g interval : Nat) : State :=
  let s := s.updPub g fun x => { x with interval, sentAt := s.clock }
  if s.timeValid ∧ s.get (pubKey g 1) = 1 then
    let s := s.frameIn 12 5 0 false (withFcs (s.gooseFrame g (2 * interval)))
    s.updPub g fun x => { x with sq := wrapAdd 32 x.sq 1 }
  else s

/-- A value packed into a publisher's member: a change of any member sends at once (R329). -/
def State.goosePack (s : State) (g m v q time : Nat) : State :=
  let old := (upTo (s.memberCount g)).map (s.memberData g)
  let s := s.updPub g fun x => { x with members := (m, v, q, time) :: x.members.filter fun e => decide (e.1 ≠ m) }
  if old ≠ (upTo (s.memberCount g)).map (s.memberData g) then
    (s.updPub g fun x => { x with st := wrapAdd 32 x.st 1, sq := 0, at_ := time }).goosePublish g (s.get (pubKey g 9))
  else s

/-- A signal record (R323). -/
def signalRecord (sig q fmt v time : Nat) : Bytes := u16 sig ++ u8 q ++ u8 fmt ++ u32 v ++ u64 time

/-- A record of an entry discarded and counted: the tunnel of its block is not Open (R328, R338). -/
def State.recordLost (s : State) (n b : Nat) : State := s.evRate 0xB031 n 2 249 (sec 1) (u16 n ++ u16 b) [1] []

/-- An entry's record gathered for its block (R328). -/
def State.gatherRecord (s : State) (n b : Nat) (r : Bytes) : State :=
  match s.fieldTunnel (0x200 + b) with
  | some _ => s.updFld fun x => { x with records := Sparse.put [] b (Sparse.get [] x.records b ++ [(n, r)]) x.records }
  | none => s.recordLost n b

/-- Records in messages of up to 13 (R328). -/
def messagesOf (b time : Nat) : Nat → List Bytes → List Bytes
  | 0, _ => []
  | n + 1, rs =>
    if rs.isEmpty then []
    else (u8 3 ++ u8 b ++ u8 (rs.take 13).length ++ zeros 5 ++ u64 time ++ (rs.take 13).flatten) ::
      messagesOf b time n (rs.drop 13)

/-- At a trunk's cycle start the records of the cycle before leave on the tunnels of their blocks; those whose tunnel has
left Open are discarded and counted (R328). -/
def State.flushRecords (s : State) (t : Nat) : State :=
  forAll (fun (e : Nat × List (Nat × Bytes)) s =>
    match s.fieldTunnel (0x200 + e.1) with
    | some n =>
      if (s.trunksOf n).headD 4 = t then
        let s := forAll (fun m s => (s.fieldUnit (0x200 + e.1) m).2) (messagesOf e.1 s.station e.2.length (e.2.map (·.2))) s
        s.updFld fun x => { x with records := Sparse.put [] e.1 [] x.records }
      else s
    | none =>
      (forAll (fun (r : Nat × Bytes) s => s.recordLost r.1 e.1) e.2 s).updFld fun x =>
        { x with records := Sparse.put [] e.1 [] x.records }) s.fld.records s

/-- An entry's result is packed into its destination (R326, R328). -/
def State.mapPack (s : State) (n : Nat) : State :=
  let v := s.get (mapKey n 0x16)
  let q := s.get (mapKey n 0x17)
  let time := s.get (mapKey n 0x18)
  let d := s.mcfg n 0x0D
  let s := s.updMap n fun x => { x with lastSent := v, everSent := true }
  match s.mcfg n 0x0C with
  | 1 => s.canTrigger (field d 16 6)
  | 2 => s.goosePack (field d 16 4) (field d 0 5) v q time
  | 3 => s.gatherRecord n (field d 16 4) (signalRecord (field d 0 10) q (if s.mcfg n 0x0E = 4 then 1 else 0) v time)
  | _ => s

/-- After a new Value or Quality: the entry packs if its trigger says so (R326). `update` tells of a source update. -/
def State.mapTrigger (s : State) (n oldV oldQ : Nat) (update : Bool) : State :=
  let v := s.get (mapKey n 0x16)
  let q := s.get (mapKey n 0x17)
  let go :=
    match s.mcfg n 0x10 with
    | 0 => decide (v ≠ oldV ∨ q ≠ oldQ)
    | 1 => update
    | 3 => decide (q ≠ oldQ) || !(s.mapEntry n).everSent ||
        !((apart (s.mcfg n 0x0E) v (s.mapEntry n).lastSent).lt (Dy.int (s.mcfg n 0x11)))
    | _ => false
  (if go then s.mapPack n else s).tpdoCheck

/-- An entry becomes stale (R327): cause 1 StaleTime, 2 TAL, 3 record flag. -/
def State.mapStale (s : State) (n cause : Nat) : State :=
  let q := s.get (mapKey n 0x17)
  let v := s.get (mapKey n 0x16)
  if q.testBit 1 then s
  else
    let s := (s.set (mapKey n 0x17) (setBit q 1)).updMap n fun x => { x with stales := x.stales + 1 }
    let s := if s.mcfg n 0x14 = 1 then
        s.set (mapKey n 0x16) (if 4 ≤ s.mcfg n 0x0E then f32Bits (Dy.int (sget 32 (s.mcfg n 0x15)))
                               else sput 64 (sget 32 (s.mcfg n 0x15)))
      else s
    (s.ev 0xB020 n 2 246 (u16 n ++ u16 cause)).mapTrigger n v q false

/-- A source update of an entry (R325): its field, the source's stamp and flags of R327 that came with it. -/
def State.mapUpdate (s : State) (n raw time flags : Nat) : State :=
  let oldV := s.get (mapKey n 0x16)
  let oldQ := s.get (mapKey n 0x17)
  let c := s.mcfg n
  let s := s.updMap n fun x => { x with updated := s.clock }
  let q := (flags &&& 9) ||| (if s.timeValid then 0 else 8) ||| (oldQ &&& 4)
  let (d, s) := s.draw
  let y := scaleVal (fieldVal (c 6) (c 5) raw) (sget 32 (c 7)) (sget 32 (c 8)) (c 9) (decide (4 ≤ c 0x0E)) d
  let s :=
    if y = .nan then s.set (mapKey n 0x17) (q ||| 1)
    else
      let (v, sat) := boundVal y (c 0x0E) (c 0x0F) (sget 32 (c 0x0A)) (sget 32 (c 0x0B))
      let s := s.setAll [(mapKey n 0x16, v), (mapKey n 0x17, if sat then setBit q 2 else clrBit q 2), (mapKey n 0x18, time)]
      if sat then s.evRate 0xB021 n 1 247 (sec 1) (u16 n) [1] [] else s
  let s := if flags.testBit 1 then
      let s := s.set (mapKey n 0x17) (setBit (s.get (mapKey n 0x17)) 1)
      let s := if oldQ.testBit 1 then s
        else (s.updMap n fun x => { x with stales := x.stales + 1 }).ev 0xB020 n 2 246 (u16 n ++ u16 3)
      if c 0x14 = 1 then
        s.set (mapKey n 0x16) (if 4 ≤ c 0x0E then f32Bits (Dy.int (sget 32 (c 0x15))) else sput 64 (sget 32 (c 0x15)))
      else s
    else s
  s.mapTrigger n oldV oldQ true

/-- The gateway evaluates its entries: its domain is on, in hardware mapping, and no switch between the modes holds its
outputs (R54, R331, R332). -/
def State.mapping (s : State) : Bool := s.fieldOn && !s.hostMode 8 && decide (s.get (ob 0x2011 8) ≠ 2)

/-- The host maps: its mode is on, and no switch between the modes holds the outputs (R54, R331; log entry 226). -/
def State.hostMaps (s : State) : Bool := s.hostMode 8 && decide (s.get (ob 0x2011 8) ≠ 2)

/-- A frame of a CAN port for the gateway: every matching entry is updated (R324). -/
def State.canSource (s : State) (c : Nat) (f : CanFrame) (stamp : Nat) : State :=
  if !s.mapping then s
  else
    s.together <| forAll (fun n s =>
      let sel := s.mcfg n 3
      if s.mcfg n 2 = 0 ∧ field sel 31 1 = c ∧ sel.testBit 29 = f.ide ∧ field sel 0 29 = f.id then
        match canField f.data (s.mcfg n 6) (s.mcfg n 4) (s.mcfg n 5) with
        | some raw => s.mapUpdate n raw stamp 0
        | none => let (d, s) := s.draw; s.mapUpdate n (Config.shortField n d % 2 ^ s.mcfg n 5) stamp 0
      else s) s.mapsOn

/-- A raw 64-bit value for an entry of a source kind other than CAN (R324). -/
def State.mapRaw (s : State) (n raw time flags : Nat) : State :=
  s.mapUpdate n (field raw (s.mcfg n 4) (s.mcfg n 5)) time flags

/-- A signal record from a tunnel (R324, R327). -/
def State.recordSource (s : State) (b : Nat) (r : Bytes) : State :=
  if !s.mapping then s
  else
    let sig := leAt r 0 2 % 1024
    let raw := if byteAt r 3 = 1 then leAt r 4 4 else sput 64 (sget 32 (leAt r 4 4))
    forAll (fun n s =>
      let sel := s.mcfg n 3
      if s.mcfg n 2 = 2 ∧ field sel 16 4 = b ∧ field sel 0 10 = sig then s.mapRaw n raw (leAt r 8 8) (byteAt r 2) else s)
      s.mapsOn s

/-- A BER field at the head of some bytes: tag, content, and what follows. -/
def berHead (b : Bytes) : Nat × Bytes × Bytes :=
  let l := byteAt b 1
  if l < 128 then (byteAt b 0, (b.drop 2).take l, b.drop (2 + l))
  else
    let k := l - 128
    let n := beAt b 2 k
    (byteAt b 0, (b.drop (2 + k)).take n, b.drop (2 + k + n))

/-- The BER fields of some bytes. -/
def berFields : Nat → Bytes → List (Nat × Bytes)
  | 0, _ => []
  | k + 1, b => if b.length < 2 then [] else let (t, c, r) := berHead b; (t, c) :: berFields k r

/-- The content of the first field with a tag. -/
def berFind (tag : Nat) : List (Nat × Bytes) → Bytes
  | [] => []
  | (t, c) :: r => if t = tag then c else berFind tag r

/-- The raw value of a GOOSE member (R324); a type that the decoding does not name gives a free value. -/
def gooseRawOf (d : Nat) : Nat × Bytes → Nat
  | (0x83, c) => if beNat c = 0 then 0 else 1
  | (0x84, c) => beNat (c.drop 1) / 2 ^ byteAt c 0
  | (0x85, c) => sput 64 (sget (8 * max 1 c.length) (beNat c))
  | (0x86, c) => beNat c % 2 ^ 64
  | (0x87, c) => beNat (c.drop 1) % 2 ^ 32
  | _ => Config.gooseRaw d % 2 ^ 64

/-- A recognised GOOSE frame offered to a subscription (R330): one that it accepts updates its members. -/
def State.gooseOffer (s : State) (f : Bytes) (stamp k : Nat) : State :=
  let o := bodyAt f
  let (_, pdu, _) := berHead (f.drop (o + 8))
  let fs := berFields 16 pdu
  let mac := s.get (subKey k 3)
  let rev := s.get (subKey k 4)
  if s.get (subKey k 1) ≠ 1 ∨ s.get (subKey k 2) ≠ beAt f o 2 ∨ (mac ≠ 0 ∧ mac ≠ srcMac f) then s
  else if rev ≠ 0 ∧ rev ≠ beNat (berFind 0x88 fs) then s.updGsub k fun x => { x with badRev := x.badRev + 1 }
  else
    let st := beNat (berFind 0x85 fs)
    let sq := beNat (berFind 0x86 fs)
    let x := s.gsub k
    if x.heard ∧ x.st = st ∧ sq ≤ x.sq then s.updGsub k fun x => { x with badSeq := x.badSeq + 1 }
    else
      let s := s.updGsub k fun x =>
        { x with alive := true, heard := true, st, sq, tal := beNat (berFind 0x81 fs), at_ := s.clock }
      let data := berFields 256 (berFind 0xAB fs)
      s.together <| forAll (fun n s =>
        let sel := s.mcfg n 3
        if s.mapping ∧ s.mcfg n 2 = 1 ∧ field sel 16 4 = k then
          match data[field sel 0 8]? with
          | some m => let (d, s) := s.draw; s.mapRaw n (gooseRawOf d m) stamp 0
          | none => s
        else s) s.mapsOn

/-- A recognised GOOSE frame reaches the gateway (R266, R330). -/
def State.gooseIn (s : State) (f : Bytes) (stamp : Nat) : State :=
  if s.fieldOn then forAll (fun k s => s.gooseOffer f stamp k) (upTo 16) s else s

/-- A switch of the gateway's mode holds every output and marks it stale (R54, R331). -/
def State.staleAll (s : State) : State :=
  (forAll (fun n s => s.set (mapKey n 0x17) (setBit (s.get (mapKey n 0x17)) 1)) s.mapsOn s).tpdoCheck

/-! Checks of a write of Enable 1 (R324, R326, R328). -/

/-- The destination bits of an entry: destination and bit places. -/
def destBits (n : Nat) (v : Nat → Nat) : List (Nat × Nat) :=
  let d := v 0x0D
  match v 0x0C with
  | 1 =>
    let f := field d 16 6
    let p := field d 0 9
    let l := v 0x0F
    (upTo l).map fun k => (f, if bigEndian (v 0x0E) then beEnd (k + 1) p else p + k)
  | 2 => [(0x100 + field d 16 4, field d 0 5)]
  | 3 => [(0x200 + field d 16 4, field d 0 10)]
  | _ => [(0x1000 + n, 0)]

/-- A write of Enable 1 is of kind 7. -/
def State.mapBad (s : State) (n : Nat) : Bool :=
  let v := fun sub => s.get (mapKey n sub)
  let d := v 0x0D
  let g := field d 16 4
  let m := field d 0 5
  let ty := s.memberType g m
  (decide (4 ≤ v 6) && decide (v 5 ≠ 32)) ||
  (decide (v 2 ≠ 0) && !([0, 1, 4].contains (v 6))) ||
  (decide (v 2 = 3) && (decide (v 0x10 ≠ 2) ||
    s.missing (field (v 3) 8 16) (field (v 3) 0 8) ||
    (match rowAt (field (v 3) 8 16) (field (v 3) 0 8) with | some r => decide (r.acc = .wo) | none => true))) ||
  decide (sget 32 (v 0x0B) < sget 32 (v 0x0A)) ||
  (match v 0x0C with
   | 1 => decide (4 ≤ v 0x0E) && decide (v 0x0F ≠ 32)
   | 2 =>
     !((decide (ty = 1) && decide (v 0x0E = 0 ∧ v 0x0F = 1)) || (decide (ty = 2) && decide (v 0x0E = 0 ∧ v 0x0F = 2)) ||
       (decide (ty = 3) && decide (v 0x0E = 1 ∧ v 0x0F = 32)) || (decide (ty = 4) && decide (v 0x0E = 0 ∧ v 0x0F = 32)) ||
       (decide (ty = 5) && decide (v 0x0E = 4 ∧ v 0x0F = 32)))
   | 3 => !(decide (v 0x0E = 1 ∨ v 0x0E = 4) && decide (v 0x0F = 32))
   | _ => false) ||
  s.mapsOn.any fun k => decide (k ≠ n) && (destBits k (s.mcfg k)).any fun b => (destBits n v).contains b

/-- Enable is written 1: the configuration takes effect (R332). -/
def State.mapEnable (s : State) (n : Nat) : State :=
  let s := s.set (mapKey n 1) 1
  s.updMap n fun x =>
    { x with cfg := (upTo 20).foldl (fun m k => Sparse.put 0 (k + 2) (s.get (mapKey n (k + 2))) m) [],
             updated := s.clock, periodAt := s.clock, everSent := false }

/-- A CAN identifier that a CanTxFrame or a filter must not name on C0 (R316). -/
def State.canIdBad (s : State) (ide : Bool) (id : Nat) : Bool := s.reservedId ide id

end Sys2Proof.Machine
end

