-- ==== Sys2Proof/Machine/Eth.lean ====
section
/-!
DEFINITION. The commands of the Ethernet ports, redundancy pairs and IEEE 1588 (R261-R266, R273, R274).
-/

set_option Elab.async false

namespace Sys2Proof.Machine

open Sys2Proof

/-- Errors of a port, at most once a second (R291): FCS, length, VLAN discards. -/
def State.ethErrors (s : State) (e fcs len vlan : Nat) : State :=
  (((s.count (ethStat e 5) fcs).count (ethStat e 6) len).count (ethStat e 7) vlan).evRate 0x9010 e 2 (184 + e) (sec 1)
    (u16 e) [fcs, len, vlan] []

/-- A PRP frame's redundancy trailer: sequence and LAN nibble (R265). -/
def prpTrailer (f : Bytes) : Option (Nat × Nat) :=
  let n := f.length
  if 20 ≤ n ∧ beAt f (n - 2) 2 = 0x88FB then some (beAt f (n - 6) 2, beAt f (n - 4) 2 / 4096) else none

/-- The source entry of a pair's duplicate discard. -/
def State.node (s : State) (k mac : Nat) : Option Node := s.eth.nodes.find? fun x => decide (x.pair = k ∧ x.mac = mac)

/-- A source entry kept in place of its old one. -/
def State.keepNode (s : State) (x : Node) : State :=
  { s with eth := { s.eth with nodes := x :: s.eth.nodes.filter fun y => !decide (y.pair = x.pair ∧ y.mac = x.mac) } }

/-- A copy with a sequence from a LAN (R265): whether it is a duplicate, and the entry kept. A full table takes a new
source in the place that the free value names, if it names one. -/
def State.pairSeen (s : State) (k mac seq lan : Nat) : Bool × State :=
  match s.node k mac with
  | some x =>
    match x.seqs.find? fun e => decide (e.1 = seq) with
    | some (_, ls) =>
      (true, s.keepNode { x with seen := s.clock,
                                 seqs := x.seqs.map fun e => if e.1 = seq then (seq, setBit ls lan) else e })
    | none => (false, s.keepNode { x with seen := s.clock, seqs := ((seq, 1 <<< lan) :: x.seqs).take 64 })
  | none =>
    let mine := s.eth.nodes.filter fun x => decide (x.pair = k)
    let fresh : Node := { pair := k, mac, seqs := [(seq, 1 <<< lan)], seen := s.clock }
    if mine.length < 1024 then (false, s.keepNode fresh)
    else
      let (d, s) := s.draw
      match mine[Config.fullNodeTable k d]? with
      | some old => (false, ({ s with eth := { s.eth with nodes := s.eth.nodes.filter fun y => decide (y ≠ old) } }).keepNode fresh)
      | none => (false, s)

/-- A frame at a port of a pair (R265): none for a duplicate or a frame that this hub or one of its proxies put on the
ring, else the frame without its trailer or tag. -/
def State.pairIn (s : State) (e : Nat) (f : Bytes) : Option Bytes × State :=
  let k := e / 2
  let dup := fun (s : State) => s.count (pairKey k 4) 1
  let g := s.inner e f
  match s.pairMode e, isPtp g with
  | 1, true => (some g, s)
  | 1, false =>
    match prpTrailer f with
    | some (seq, lan) =>
      let s := if lan ≠ 0xA + e % 2 then s.count (pairKey k 5) 1 else s
      let (d, s) := s.pairSeen k (srcMac f) seq (e % 2)
      if d then (none, dup s) else (some (f.take (f.length - 6)), s)
    | none => (some f, s)
  | 2, _ =>
    match hsrTag f with
    | some (_, seq) =>
      if (f.drop 6).take 6 = Config.hubMac s.part.serial ∨ s.proxy k (srcMac f) then (none, s)
      else if isPtp g then (some g, s)
      else
        let (d, s) := s.pairSeen k (srcMac f) seq (e % 2)
        if d then (none, dup s) else (some g, s)
    | none => (some f, s)
  | _, _ => (some f, s)

/-- In HSR mode a frame is passed on to the other port of its pair with the tag it came with (R265), unless it is addressed
to this hub or its proxies alone; `g` is the frame without the tag. -/
def State.ringOn (s : State) (e : Nat) (fixed : Bool) (tag g : Bytes) : State :=
  let o := e ^^^ 1
  let mine := decide (g.take 6 = Config.hubMac s.part.serial) || s.proxy (e / 2) (dstMac g)
  if tag = [] ∨ (mine && decide (dstMac g % 2 = 0)) ∨ !s.ringOpen o then s
  else
    let (h, s) := s.ptpOut o 0 fixed g
    (s.count (ethStat o 4) 1).send (.frame o (withFcs (h.take (bodyAt h - 2) ++ tag ++ h.drop (bodyAt h - 2))))

/-- The PTP messages that have a command of their own: Sync, Pdelay_Req, Pdelay_Resp, Follow_Up, Pdelay_Resp_Follow_Up and
Announce (R273). Others are bridged as ordinary frames. -/
def ptpOwn (f : Bytes) : Bool := isPtp f && [0, 2, 3, 8, 10, 11].contains (ptpType f)

/-- A frame past its checks is recognised, classed and handed to the fabric (R264, R266, R330). -/
def State.forward (s : State) (e : Nat) (bad : Bool) (f : Bytes) : State :=
  let (vlan, pcp, dei) := s.frameTag e f
  if !s.accepts e f || !(s.memberMask vlan).testBit e then s.ethErrors e 0 0 1
  else
    let r := s.recognised e f
    let s := if r = 1 then s.count (ethStat e 9) 1 else if r = 2 then s.count (ethStat e 0x0A) 1 else s
    let cls := s.frameClass e pcp f
    let t := setTag f vlan pcp dei
    let s := if r = 1 ∧ !bad then s.gooseIn t s.station else s
    s.frameIn e cls dei bad (withFcs t)

/-- An Announce received on any port is reported in PtpReceivedAnnounce (R273). -/
def State.reportAnnounce (s : State) (e : Nat) (f : Bytes) : State :=
  if isPtp f ∧ ptpType f = 11 then
    let b := f.drop (bodyAt f)
    s.set (ethCfg e 0x0E) (leNat ((b.drop 53).take 8 ++ (b.drop 47).take 1 ++ (b.drop 48).take 4 ++ (b.drop 52).take 1 ++
      (b.drop 61).take 2))
  else s

/-- An Ethernet frame, its frame check sequence included, is stamped, checked, recognised, classed and forwarded; in
HSR mode it is passed on round the ring (R265). A good PTP frame of a port with a role comes by the command of its message
and has no effect here. A supervision frame is heard at its port, be it a duplicate (R264). -/
def State.frameReceived (s : State) (e : Nat) (frame : Bytes) : State :=
  if !s.ethUp e ∨ s.get (ethStat e 1) ≠ 1 then s
  else if frame.length < 64 then (s.count (ethStat e 3) 1).ethErrors e 0 1 0
  else
    let long := decide (s.get (ethCfg e 4) < frame.length)
    let f := dropFcs frame
    let g := s.inner e f
    let tag := s.ringTag e f
    if long then ((s.count (ethStat e 3) 1).ethErrors e 0 1 0).forward e true f
    else if !fcsGood frame then ((s.count (ethStat e 3) 1).ethErrors e 1 0 0).forward e true f
    else if ptpOwn g ∧ s.get (ethCfg e 0x0B) ≠ 0 then s
    else
      let s := (s.count (ethStat e 3) 1).reportAnnounce e g
      let s := if etherType g = 0x88FB then s.updEthp e fun x => { x with heard := s.clock } else s
      match s.pairIn e f with
      | (some g, s) => (s.ringOn e false tag g).forward e false g
      | (none, s) => s

/-- R264. An Ethernet frame arrives at a port. -/
def execEthFrameReceived (e : Nat) (frame : Bytes) (s : State) : Ans :=
  onPort s (fun q => q.hasEth e) (s.frameReceived e frame)

/-- A change of a port's link (R291). -/
def State.linkEv (s : State) (e state speed sev : Nat) : State :=
  (s.setAll [(ethStat e 1, state), (ethStat e 2, speed)]).ev 0x9001 e sev (176 + e) (u16 e ++ u16 state ++ u16 speed)

/-- A pair becomes degraded: a port's link (1) or its supervision (2) (R265, R291). -/
def State.pairDown (s : State) (e cause : Nat) : State :=
  let k := e / 2
  if s.pairMode e = 0 ∨ s.get (pairKey k 8) = 1 then s
  else
    ((s.set (pairKey k 8) 1).updRedp k fun x => { x with since := s.clock }).ev 0x9020 k 3 (192 + k)
      (u16 k ++ u16 e ++ u16 cause)

/-- A pair with a port that is down is degraded (R265). -/
def State.pairCheck (s : State) (k : Nat) : State :=
  forAll (fun e s => if s.get (ethStat e 1) = 1 then s else s.pairDown e 1) [2 * k, 2 * k + 1] s

/-- A port of a pair brings supervision and its link is up (R265). -/
def State.pairPortGood (s : State) (e : Nat) : Bool :=
  decide (s.get (ethStat e 1) = 1) &&
    decide (s.clock < max (s.ethp e).heard (s.ethp e).upSince + 3 * msec (s.get (pairKey (e / 2) 3)))

/-- A pair is no longer degraded when both its ports are good again (R291). -/
def State.pairUp (s : State) (k : Nat) : State :=
  if s.get (pairKey k 8) = 1 ∧ s.pairPortGood (2 * k) ∧ s.pairPortGood (2 * k + 1) then
    (s.set (pairKey k 8) 0).ev 0x9021 k 1 (192 + k) (u16 k ++ u32 ((s.clock - (s.redp k).since) / 1000000000))
  else s

/-- The rates in Mb/s at which a port's link can come up in its Mode (R261): 10GBASE-R, 1000BASE-X, SGMII by the PHY's
control word, 100BASE-FX. -/
def State.linkRates (s : State) (e : Nat) : List Nat :=
  match s.get (ethCfg e 2) with
  | 0 => [10000]
  | 1 => [1000]
  | 2 => [10, 100, 1000]
  | _ => [100]

/-- R291. An Ethernet link comes up with a speed in Mb/s that the port's Mode has (R261). -/
def execEthLinkUp (e speed : Nat) (s : State) : Ans :=
  onPort s (fun q => q.hasEth e)
    (if !s.ethUp e ∨ s.get (ethStat e 1) = 1 ∨ !(s.linkRates e).contains speed then s
     else ((s.linkEv e 1 speed 0).updEthp e fun x => { x with upSince := s.clock }).pairUp (e / 2))

/-- A port's link goes down. -/
def State.ethLinkLost (s : State) (e : Nat) : State :=
  if s.get (ethStat e 1) = 0 then s
  else (((s.count (ethStat e 0x0E) 1).linkEv e 0 0 2).updEthp e fun x => { x with pausedTo := 0 }).pairDown e 1

/-- R291. An Ethernet link goes down; its pair becomes degraded. -/
def execEthLinkDown (e : Nat) (s : State) : Ans := onPort s (fun q => q.hasEth e) (s.ethLinkLost e)

/-- R262. A PAUSE frame holds the port's egress for its quanta, of 512 bit times, when PauseRx is 1. -/
def execPauseFrameReceived (e quanta : Nat) (s : State) : Ans :=
  onPort s (fun q => q.hasEth e)
    (if s.ethUp e ∧ s.get (ethStat e 1) = 1 ∧ s.get (ethCfg e 5) = 1 then
      (s.count (ethStat e 8) 1).updEthp e fun x =>
        { x with pausedTo := s.clock + quanta % 65536 * 512 * 1000 / max 1 (s.get (ethStat e 2)) }
     else s)

/-- R286. EthPortStatus command 1 clears the port counters. -/
def execEthPortClearCounters (path : Path) (e : Nat) (s : State) : Ans :=
  onPath path (decide (e < 8)) s
    (s.commandNow path (0x2C08 + e) 1 anyState [1] [] 0 fun s =>
      s.clear (ethStat e 0x0D :: ethStat e 0x0E :: (upTo 9).map fun k => ethStat e (3 + k)))

/-- The supervision frame of a pair (R265): the hub's MAC, and the RedBox TLV. -/
def State.lifeFrame (s : State) (k : Nat) : Bytes :=
  let mac := Config.hubMac s.part.serial
  let seq := (s.redp k).seq
  [0x01, 0x15, 0x4E, 0x00, 0x01, 0x00] ++ mac ++ beBytes 2 0x8100 ++ beBytes 2 (s.get (ethCfg (2 * k) 6)) ++
    beBytes 2 0x88FB ++ beBytes 2 1 ++ beBytes 2 seq ++ u8 (if s.pairMode (2 * k) = 1 then 20 else 23) ++ u8 6 ++ mac ++
    u8 30 ++ u8 6 ++ mac ++ zeros 24

/-- R265. Each LifeCheckInterval a pair sends supervision frames on both ports, and looks at their links. -/
def execLifeCheckTimer (rp : Nat) (s : State) : Ans :=
  onPort s (fun q => q.hasEth (2 * rp))
    (if s.pairMode (2 * rp) ≠ 0 ∧ (s.redp rp).lastLife + msec (s.get (pairKey rp 3)) ≤ s.clock then
      let raw := withFcs (s.lifeFrame rp)
      let seq := (s.redp rp).seq
      let s := s.updRedp rp fun x => { x with lastLife := s.clock, seq := wrapAdd 16 x.seq 1 }
      let s := forAll (fun e s => s.frameOut e 0 seq false false raw) [2 * rp, 2 * rp + 1] s
      (s.pairCheck rp).pairUp rp
     else s)

/-- R265. A port has received no supervision frame for three LifeCheckIntervals: its pair is degraded. -/
def execSupervisionTimeout (e : Nat) (s : State) : Ans :=
  onPort s (fun q => q.hasEth e)
    (if s.get (ethStat e 1) = 1 ∧ !s.pairPortGood e then s.pairDown e 2 else s)

/-- R265. A source entry ages out after NodeForgetTime; frames seen on one LAN only are counted. -/
def execNodeForgetTimeout (rp mac : Nat) (s : State) : Ans :=
  onPort s (fun q => q.hasEth (2 * rp))
    (match s.node rp mac with
     | some x =>
       if x.seen + sec (s.get (pairKey rp 2)) ≤ s.clock then
         let lone := (x.seqs.filter fun e => decide (e.2 ≠ 3)).length
         let s := { s with eth := { s.eth with nodes := s.eth.nodes.filter fun y => decide (y ≠ x) } }
         s.count (pairKey rp 6) lone
       else s
     | none => s)

/-! IEEE 1588 (R273, R274). -/

/-- The portState of a port, which its PtpRole sets; a change is journalled (R273, R291). -/
def State.ptpState (s : State) (e new : Nat) : State :=
  if s.get (ethStat e 0x0F) = new then s
  else (s.set (ethStat e 0x0F) new).ev 0x9050 e 1 260 (u16 e ++ u16 new)

/-- A PTP frame that the port takes: its port up, a role, its domain (R273). -/
def State.ptpTakes (s : State) (e : Nat) (f : Bytes) (kind : Nat) : Bool :=
  s.ethUp e && decide (s.get (ethStat e 1) = 1) && isPtp f && decide (ptpType f = kind) &&
    decide (s.get (ethCfg e 0x0B) ≠ 0)

/-- Fields of a PTP message in a frame. -/
def ptpAt (f : Bytes) (off n : Nat) : Nat := beAt f (bodyAt f + off) n
def ptpCorr (f : Bytes) : Int := sget 64 (ptpAt f 8 8) / 65536
def ptpStamp (f : Bytes) : Int := ptpAt f 34 6 * 1000000000 + ptpAt f 40 4

/-- A PTP frame without its HSR tag, of a length that the port takes and with a good check sequence, of the message type and
taken by the port, counts among the frames received and has its effect (R262, R265, R273). -/
def State.onPtp (s : State) (e kind : Nat) (frame : Bytes) (eff : Bytes → State → State) : State :=
  let f := s.inner e (dropFcs frame)
  if decide (64 ≤ frame.length ∧ frame.length ≤ s.get (ethCfg e 4)) && fcsGood frame && s.ptpTakes e f kind then
    eff f (s.count (ethStat e 3) 1)
  else s

/-- A PTP frame goes on through the bridge, and round an HSR ring with the tag it came with (R265, R273). -/
def State.ptpBridge (s : State) (e : Nat) (tag f : Bytes) : State :=
  let s :=
    if (f.drop 6).take 6 = Config.hubMac s.part.serial ∨ (s.get (ethCfg (e ^^^ 1) 0x0B) = 3 ∧ ptpType f = 0) then s
    else s.ringOn e true tag f
  let (vlan, pcp, dei) := s.frameTag e f
  if s.accepts e f && (s.memberMask vlan).testBit e then
    s.frameIn e (s.frameClass e pcp f) dei false (withFcs (setTag f vlan pcp dei)) true
  else s.ethErrors e 0 0 1

/-- The correction at a transparent clock's ingress (R274): less the stamp, plus link delay and asymmetry. -/
def State.ptpIn (s : State) (e : Nat) (f : Bytes) : Bytes :=
  addCorrection f (-(s.station : Int) + s.get (ethStat e 0x0C) + sget 32 (s.get (ethCfg e 0x0C)))

/-- The port is the time receiver of the selected source (R273). -/
def State.ptpSource (s : State) (e : Nat) : Bool :=
  decide (s.tmSource = 1 ∧ s.tmPort = e ∧ s.get (ethCfg e 0x0B) = 2)

/-- A Sync's sample (R268, R273): local stamp less origin, correction, link delay and asymmetry. -/
def State.ptpSample (s : State) (e : Nat) (at_ : Nat) (origin corr : Int) : State :=
  s.sample ((at_ : Int) - (origin + corr + s.get (ethStat e 0x0C) + sget 32 (s.get (ethCfg e 0x0C)))) (sec 1)

/-- R273. A Sync is used as a time sample, and is corrected and forwarded as a transparent clock; a time transmitter does
not forward it. -/
def execPtpSyncReceived (e : Nat) (frame : Bytes) (s : State) : Ans :=
  let tag := s.ringTag e (dropFcs frame)
  onPort s (fun q => q.hasEth e)
    (s.onPtp e 0 frame fun f s =>
      let mine := s.ptpSource e && decide (ptpAt f 4 1 = s.get (ob 0x2F00 0x13))
      let s' :=
        if !mine then s
        else if (ptpAt f 6 1).testBit 1 then
          s.updEthp e fun x => { x with syncSeq := some (ptpAt f 30 2), syncAt := s.station, syncCorr := ptpCorr f }
        else s.ptpSample e s.station (ptpStamp f) (ptpCorr f)
      if s.get (ethCfg e 0x0B) = 3 then s' else s'.ptpBridge e tag (s.ptpIn e f))

/-- A port's own measure of its link's delay (R273). -/
def State.linkDelay (s : State) (e : Nat) (t41 turn : Int) : State :=
  s.set (ethStat e 0x0C) (max 0 ((t41 - turn) / 2)).toNat

/-- R273. A Follow_Up completes a two-step Sync sample and is forwarded unaltered; a Pdelay_Resp_Follow_Up completes a
two-step delay. -/
def execPtpFollowUpReceived (e : Nat) (frame : Bytes) (s : State) : Ans :=
  let x := s.ethp e
  let tag := s.ringTag e (dropFcs frame)
  onPort s (fun q => q.hasEth e)
    (if ptpType (s.inner e (dropFcs frame)) = 8 then
      s.onPtp e 8 frame fun f s =>
        let mine := s.ptpSource e && decide (x.syncSeq = some (ptpAt f 30 2)) && decide (ptpAt f 4 1 = s.get (ob 0x2F00 0x13))
        let s' := if mine then
            (s.ptpSample e x.syncAt (ptpStamp f) (x.syncCorr + ptpCorr f)).updEthp e fun y => { y with syncSeq := none }
          else s
        s'.ptpBridge e tag f
     else
      s.onPtp e 10 frame fun f s =>
        if x.respSeq = some (ptpAt f 30 2) then
          (s.linkDelay e ((x.respT4 : Int) - x.reqAt) (ptpStamp f - x.respT2 + x.respCorr + ptpCorr f)).updEthp e fun y =>
            { y with respSeq := none }
        else s)

/-- R273. An Announce is reported in PtpReceivedAnnounce, and forwarded; on a port without a role it is bridged as an
ordinary frame. -/
def execPtpAnnounceReceived (e : Nat) (frame : Bytes) (s : State) : Ans :=
  let tag := s.ringTag e (dropFcs frame)
  onPort s (fun q => q.hasEth e)
    (if s.get (ethCfg e 0x0B) = 0 then s.frameReceived e frame
     else
      s.onPtp e 11 frame fun f s =>
        let s' := (s.reportAnnounce e f).updEthp e fun x => { x with announced := s.clock }
        let s' := if s.ptpSource e then
            s'.updTime fun x => { x with ptpGm := leNat ((f.drop (bodyAt f + 53)).take 8) }
          else s'
        s'.ptpBridge e tag f)

/-- A PTP header (R273): message type, length, flags, correction, sequence, control, interval; the hub's port. -/
def State.ptpHead (s : State) (e kind len flags : Nat) (corr : Int) (seq ctl : Nat) : Bytes :=
  u8 kind ++ u8 0x12 ++ beBytes 2 len ++ u8 (s.get (ob 0x2F00 0x13)) ++ u8 0 ++ beBytes 2 flags ++
    beBytes 8 (sput 64 (corr * 65536)) ++ zeros 4 ++ fitBytes 8 (Config.clockIdentity s.part.serial) ++ beBytes 2 (e + 1) ++
    beBytes 2 seq ++ u8 ctl ++ u8 0

/-- A PTP time stamp of 10 bytes. -/
def ptpTime (t : Nat) : Bytes := beBytes 6 (t / 1000000000) ++ beBytes 4 (t % 1000000000)

/-- The hub's own PTP frame leaves a port; peer-delay messages have their own destination (R273). -/
def State.ptpSend (s : State) (e : Nat) (peer : Bool) (msg : Bytes) : State :=
  let dst : Bytes := if peer then [0x01, 0x80, 0xC2, 0x00, 0x00, 0x0E] else [0x01, 0x1B, 0x19, 0x00, 0x00, 0x00]
  if s.ethUp e ∧ s.get (ethStat e 1) = 1 then
    let f := padFrame (dst ++ Config.hubMac s.part.serial ++ beBytes 2 0x88F7 ++ msg)
    (s.count (ethStat e 4) 1).send
      (.frame e (withFcs (if s.pairMode e = 2 then redTag 2 e (s.redp (e / 2)).seq f else f)))
  else s

/-- R273. A Pdelay_Req is answered by every port with a role. -/
def execPtpPdelayReqReceived (e : Nat) (frame : Bytes) (s : State) : Ans :=
  onPort s (fun q => q.hasEth e)
    (s.onPtp e 2 frame fun f s =>
      let id := (f.drop (bodyAt f + 20)).take 10
      let seq := ptpAt f 30 2
      if s.get (ob 0x2F00 0x10) = 2 then
        (s.ptpSend e true (s.ptpHead e 3 54 0x0200 0 seq 5 ++ ptpTime s.station ++ id)).ptpSend e true
          (s.ptpHead e 10 54 0 (ptpCorr f) seq 5 ++ ptpTime s.station ++ id)
      else s.ptpSend e true (s.ptpHead e 3 54 0 (ptpCorr f) seq 5 ++ zeros 10 ++ id))

/-- R273. A Pdelay_Resp to this port updates meanLinkDelay; one for another is corrected and forwarded. -/
def execPtpPdelayRespReceived (e : Nat) (frame : Bytes) (s : State) : Ans :=
  let x := s.ethp e
  let tag := s.ringTag e (dropFcs frame)
  onPort s (fun q => q.hasEth e)
    (s.onPtp e 3 frame fun f s =>
      let own := decide ((f.drop (bodyAt f + 44)).take 10 = fitBytes 8 (Config.clockIdentity s.part.serial) ++ beBytes 2 (e + 1))
      if !own then s.ptpBridge e tag (s.ptpIn e f)
      else if ptpAt f 30 2 ≠ (x.reqSeq + 65535) % 65536 then s
      else if (ptpAt f 6 1).testBit 1 then
        s.updEthp e fun y =>
          { y with respSeq := some (ptpAt f 30 2), respT4 := s.station, respT2 := (ptpStamp f).toNat, respCorr := ptpCorr f }
      else s.linkDelay e ((s.station : Int) - x.reqAt) (ptpCorr f))

/-- R273. Each second a time-transmitter port sends Sync, Follow_Up when PtpStepMode is 2, and Announce, while time is
valid. -/
def execPtpSyncTimer (e : Nat) (s : State) : Ans :=
  let x := s.ethp e
  onPort s (fun q => q.hasEth e)
    (if s.get (ethCfg e 0x0B) = 3 ∧ s.timeValid ∧ x.lastSync + sec 1 ≤ s.clock then
      let two := decide (s.get (ob 0x2F00 0x10) = 2)
      let s := s.updEthp e fun y => { y with lastSync := s.clock, outSeq := wrapAdd 16 y.outSeq 1 }
      let s := s.ptpSend e false (s.ptpHead e 0 44 (if two then 0x0200 else 0) 0 x.outSeq 0 ++
        (if two then zeros 10 else ptpTime s.station))
      let s := if two then s.ptpSend e false (s.ptpHead e 8 44 0 0 x.outSeq 2 ++ ptpTime s.station) else s
      let leap := s.leapByte
      let flags := 8 + (if leap = 1 then 1 else if leap = 3 then 2 else 0)
      let gm := if s.sourceGm = 0 then fitBytes 8 (Config.clockIdentity s.part.serial) else leBytes 8 s.sourceGm
      s.ptpSend e false (s.ptpHead e 11 64 flags 0 x.outSeq 5 ++ zeros 10 ++ beBytes 2 s.utcOffset ++ u8 0 ++
        u8 (s.get (ob 0x2F00 0x11)) ++ u8 s.clockClass ++ beBytes 3 (Config.code 0x2F00 s.clockClass) ++
        u8 (s.get (ob 0x2F00 0x12)) ++ gm ++ beBytes 2 (byteAt s.timeStatus 2) ++ u8 (Config.code 0x2F00 (256 + s.tmSource)))
     else s)

/-- R273. Each second a port with a role sends its own Pdelay_Req. -/
def execPtpPdelayTimer (e : Nat) (s : State) : Ans :=
  let x := s.ethp e
  onPort s (fun q => q.hasEth e)
    (if s.get (ethCfg e 0x0B) ≠ 0 ∧ x.lastReq + sec 1 ≤ s.clock then
      (s.ptpSend e true (s.ptpHead e 2 54 0 0 x.reqSeq 5 ++ zeros 20)).updEthp e fun y =>
        { y with lastReq := s.clock, reqAt := s.station, reqSeq := wrapAdd 16 y.reqSeq 1, respSeq := none }
     else s)

/-- R268. announceReceiptTimeout, three announce intervals of 1 s, expires on the PTP source. -/
def execAnnounceReceiptTimeout (e : Nat) (s : State) : Ans :=
  onPort s (fun q => q.hasEth e)
    (if s.ptpSource e ∧ s.time.valid ∧ (s.ethp e).announced + sec 3 ≤ s.clock then s.sourceLost 3 else s)

end Sys2Proof.Machine
end

