-- ==== Sys2Proof/Machine/PdOps.lean ====
section
/-!
DEFINITION. The service port's power: attach roles, PD messages, contracts, swaps, hard resets and protection
(R242-R255).
-/

set_option Elab.async false

namespace Sys2Proof.Machine

open Sys2Proof

def pdCfg (sub : Nat) : Nat := ob 0x2B00 sub
def pdStat (sub : Nat) : Nat := ob 0x2B01 sub

/-- The port's Type-C and PD state changed. -/
def State.updPd (s : State) (f : Pd → Pd) : State := { s with pd := f s.pd }

/-- TypeCState (R258). -/
def State.typeC (s : State) : Nat := s.get (pdStat 1)

/-- The port is Attached.SRC or Attached.SNK. -/
def State.attached (s : State) : Bool := decide (s.typeC = 2 ∨ s.typeC = 3)

def State.isSource (s : State) : Bool := decide (s.typeC = 2)
def State.isSink (s : State) : Bool := decide (s.typeC = 3)

/-- The port behaves as configured (R244). -/
def State.portConfigured (s : State) : Bool := decide (3 ≤ s.dev)

/-- PD runs: host-assisted mode, attached (R248). -/
def State.pdOn (s : State) : Bool := s.portConfigured && s.hostMode 6 && s.attached

/-- An event of the port: its arguments begin with the two roles (R260). -/
def State.pdEv (s : State) (code sev src : Nat) (args : Bytes) : State :=
  s.ev code 0 sev src (u8 (s.get (pdStat 2)) ++ u8 (s.get (pdStat 3)) ++ args)

/-- The port presents Rp at a level of TypeCCurrent (R245, R248). -/
def State.presentRp (s : State) (level : Nat) : State := s.send (.ccPull true level)

/-- Collision avoidance is in force: a contract at revision 3.1 (R243). -/
def State.avoids (s : State) : Bool := decide (s.get (pdStat 6) = 3 ∧ s.get (pdStat 9) ≠ 0)

/-- The message begins an exchange of its sender (R243). -/
def pdOpens : PdMsg → Bool
  | .sourceCap _ => true
  | .getSinkCap => true
  | .drSwap => true
  | .vconnSwap => true
  | _ => false

/-- The partner answers the message within tSenderResponse (R256). -/
def pdAnswered : PdMsg → Bool
  | .request _ => true
  | .drSwap => true
  | .vconnSwap => true
  | _ => false

/-- A message goes on the wire and waits for its GoodCRC (R243); a Source that begins an exchange presents SinkTxNG, 1.5 A,
first (log entry 120). -/
def State.pdPut (s : State) (m : PdMsg) : State :=
  let s := if s.isSource && s.avoids && pdOpens m then s.presentRp 1 else s
  let s := (s.send (.pd m s.pd.txId)).start .pdGoodCrc
  let s := if pdAnswered m then s.start .pdResponse else s
  s.updPd fun x => { x with txId := (x.txId + 1) % 8, waitCrc := some m, retries := 0 }

/-- A PD message is sent, after those that still wait for a GoodCRC (R243). -/
def State.pdSend (s : State) (m : PdMsg) : State :=
  if s.pd.waitCrc.isSome ∨ s.pd.queue ≠ [] then s.updPd fun x => { x with queue := x.queue ++ [m] } else s.pdPut m

/-- A Sink's own request waits for SinkTxOk, the partner's Rp at 3.0 A (R243; log entry 120). -/
def State.mustWait (s : State) : Bool := s.isSink && s.avoids && decide (s.get (pdStat 0x0A) ≠ 2)

/-- A request comes to wait for SinkTxOk. -/
def State.pdLater (s : State) (m : PdMsg) : State := s.updPd fun x => { x with ask := x.ask ++ [m] }

/-- The hub's own swap request (R243). -/
def State.pdAsk (s : State) (m : PdMsg) : State := if s.mustWait then s.pdLater m else s.pdSend m

/-- A message that begins a swap. -/
def pdSwaps : PdMsg → Bool
  | .drSwap => true
  | .vconnSwap => true
  | _ => false

/-- The Source's exchange is over: SinkTxOk, 3.0 A, is presented (R243; log entry 120). -/
def State.readyRp (s : State) : State :=
  if s.isSource && s.avoids && decide (s.get (pdStat 9) = 1) then s.presentRp 2 else s

/-- PD timers that an attach, a detach or a hard reset ends. -/
def pdTimers : List Timer :=
  [.pdFirstCap, .pdCapRepeat, .pdTransition, .pdTransitionSrc, .pdPsRdy, .pdResponse, .pdAuto, .pdSinkRetry, .pdHardReset,
   .pdRecover, .pdGoodCrc]

/-- A running command of ServicePowerStatus ends: EV_SVC_COMMAND_DONE (R260). -/
def State.pdDone (s : State) (cmd result : Nat) : State :=
  if s.cmdRuns 0x2B01 ∧ (s.cmd 0x2B01).value % 256 = cmd then
    let s := if result = 0 then s.cmdCommit 0x2B01 0 else s.cmdFail 0x2B01 result
    s.pdEv 0x8050 0 174 (u8 cmd ++ u8 result)
  else s

/-- Whatever command runs ends with a Result. -/
def State.pdEndAny (s : State) (result : Nat) : State :=
  forAll (fun (c : Nat) s => s.pdDone c result) [1, 2, 4, 5] s

/-- The current of a PDO as written, in 10 mA (R249). -/
def State.pdoWritten (s : State) (k : Nat) : Nat := s.get (pdCfg (3 + 2 * k))

/-- The continuous current of channel 8 in mA (R249, R368). -/
def State.svcLimit (s : State) : Nat := s.get (brCfg 8 1)

/-- The current advertised for a PDO, in 10 mA: clipped at the channel's limit (R249). -/
def State.pdoCurrent (s : State) (k : Nat) : Nat := min (s.pdoWritten k) (s.svcLimit / 10)

/-- The PDOs that the hub advertises: their numbers, 1 to 3 (R249). -/
def State.pdoList (s : State) : List Nat :=
  if s.get (pdCfg 6) ≠ 1 then [1] else if s.get (pdCfg 8) ≠ 1 then [1, 2] else [1, 2, 3]

/-- Millivolts of PDO 1 to 3 (R249). -/
def pdoVolts (k : Nat) : Nat := if k = 1 then 5000 else if k = 2 then 9000 else 15000

/-- A fixed PDO of the hub as Source (R249); the voltage field is in 50 mV. -/
def State.pdoWord (s : State) (k : Nat) : Nat :=
  (if s.get (pdCfg 1) = 2 then 2 ^ 29 else 0) + s.get (pdCfg 4) * 2 ^ 27 + 2 ^ 26 +
    (if s.part.qh34 then 2 ^ 25 else 0) + pdoVolts k / 50 * 1024 + s.pdoCurrent k

/-- The hub's Sink_Capabilities: 5 V at SinkCurrent, Unconstrained Power and USB Communications Capable 1 (R251). -/
def State.sinkPdo (s : State) : Nat := 2 ^ 27 + 2 ^ 26 + 100 * 1024 + s.get (pdCfg 0x0A)

/-- Source_Capabilities are sent; a PDO clipped at the channel's limit is journalled (R249, R250). Without a contract at
revision 3.1 Rp advertises TypeCCurrent as written by now (R248, R257). -/
def State.sendCaps (s : State) : State :=
  let s := forAll (fun k s =>
    onlyIf (decide (s.pdoCurrent k < s.pdoWritten k))
      (fun s => s.pdEv 0x8012 2 169 (u8 k ++ u16 (s.pdoWritten k * 10) ++ u16 (s.pdoCurrent k * 10))) s) s.pdoList s
  let s := if s.isSource && !s.avoids then s.presentRp (s.get (pdCfg 3)) else s
  let pdos := s.pdoList.map s.pdoWord
  (s.updPd fun x => { x with advertised := pdos, caps := x.caps + 1, capsBad := false, capsLater := false }).pdSend (.sourceCap pdos)

/-- The object position that the running command 5 requests (R258). -/
def State.cmdPosition (s : State) : Option Nat :=
  if s.cmdRuns 0x2B01 ∧ (s.cmd 0x2B01).value % 256 = 5 then some ((s.cmd 0x2B01).value / 256) else none

/-- A Request for an object position is over: command 5 ends where it was that command's (R258). -/
def State.requestDone (s : State) (position result : Nat) : State :=
  if s.cmdPosition = some position then s.pdDone 5 result else s

/-- A Request leaves; one without an answer is superseded (R251, R258). -/
def State.putRequest (s : State) (rdo : Nat) : State :=
  let k := field rdo 28 3
  let s := match s.pd.asked with
    | some j => if j = k then s else s.requestDone j 4
    | none => s
  (s.updPd fun x => { x with asked := some k, askedMa := field rdo 10 10 * 10 }).pdSend (.request rdo)

/-- The hub's Request for an object position: SinkCurrent as operating and maximum current (R251); `own` where no
Source_Capabilities asked for it. -/
def State.sendRequest (s : State) (position : Nat) (own : Bool) : State :=
  let ma := s.get (pdCfg 0x0A)
  let rdo := position * 2 ^ 28 + 2 ^ 25 + ma * 1024 + ma
  if own && s.mustWait then s.pdLater (.request rdo) else s.putRequest rdo

/-- SVC_VSEL1, SVC_VSEL0 for a voltage (R249). -/
def State.vsel (s : State) (mv : Nat) : State :=
  (s.send (.pin "SVC_VSEL1" (if mv = 15000 then 1 else 0))).send (.pin "SVC_VSEL0" (if mv = 9000 then 1 else 0))

/-- SVC_VBUS_DIS (R252, R254). -/
def State.discharging (s : State) (on : Bool) : State :=
  (s.updPd fun x => { x with discharge := on }).send (.pin "SVC_VBUS_DIS" (ofBool on))

/-- VCONN on or off (R247). -/
def State.vconn (s : State) (on : Bool) : State := (s.set (pdStat 4) (ofBool on)).send (.pin "SVC_VCONN" (ofBool on))

/-- A contract (R250, R251): ContractState 1, its values and EV_SVC_CONTRACT. -/
def State.contract (s : State) (position mv ma : Nat) : State :=
  let s := s.setAll [(pdStat 7, mv), (pdStat 8, ma), (pdStat 9, 1), (pdStat 0x10, s.station)]
  let s := (s.updPd fun x => { x with target := none }).stopAll [.pdTransition, .pdTransitionSrc, .pdPsRdy]
  s.pdEv 0x8010 0 169 (u16 mv ++ u16 ma ++ u8 position ++ u8 (s.get (pdStat 6)))

/-- No contract: the Type-C default (R254, R255). -/
def State.noContract (s : State) : State :=
  (s.setAll [(pdStat 7, 0), (pdStat 8, 0), (pdStat 9, 0)]).updPd fun x => { x with target := none, asked := none }

/-- A swap request is sent (R246, R247). -/
def State.putSwap (s : State) (kind : Nat) : State :=
  let s := s.updPd fun x => { x with swap := kind, swapOwn := true, swapAgreed := false, swapNext := 0 }
  s.pdAsk (if kind = 1 then .drSwap else .vconnSwap)

/-- A swap is asked for (R246, R247): one of the same kind that the hub has asked for stands for it, and another swap under
way is ended first. -/
def State.askSwap (s : State) (kind : Nat) : State :=
  if s.pd.swap = 0 then s.putSwap kind
  else if s.pd.swap = kind ∧ s.pd.swapOwn then s
  else s.updPd fun x => { x with swapNext := kind }

/-- Outcome of a swap: 1 data role, 2 VCONN; who asked: 0 the hub, 1 the partner (R260). One that was commanded meanwhile
follows. -/
def State.swapEnd (s : State) (result : Nat) : State :=
  let x := s.pd
  let s := s.pdEv 0x8020 1 170 (u8 x.swap ++ u8 (Config.code 0x8020 (if x.swapOwn then 0 else 1)) ++ u8 result)
  let s := (s.updPd fun x => { x with
    swap := 0, swapAgreed := false, ask := if x.swapOwn then x.ask.filter fun m => !pdSwaps m else x.ask }).stop .pdResponse
  let s := if x.swapOwn then (s.pdDone x.swap result).readyRp else s
  if x.swapNext = 0 then s else s.putSwap x.swapNext

/-- The data role of a power role: Source DFP, Sink UFP (R245). -/
def State.defaultRole (s : State) : State := s.set (pdStat 3) (if s.isSource then 2 else 1)

/-- The data roles are exchanged (R246); a repeat that AutoUfp still waited for is off. -/
def State.swapRoles (s : State) : State :=
  let s := (s.updPd fun x => { x with autoWait := false }).stop .pdAuto
  (s.set (pdStat 3) (3 - s.get (pdStat 3))).swapEnd 0

/-- AutoUfp asks for the UFP role once after the first explicit contract as Source and DFP (R246). -/
def State.autoUfp (s : State) : State :=
  if s.part.qh34 ∧ s.get (pdCfg 0x0D) = 1 ∧ s.isSource ∧ s.get (pdStat 3) = 2 ∧ !s.pd.autoDone ∧ s.pd.swap = 0 ∧
      s.pd.autoTries = 0 then
    (s.updPd fun x => { x with autoTries := 1 }).askSwap 1
  else s

/-- A Hard Reset, sent or received, ends swaps and contracts and returns roles, VCONN and VBUS to their defaults (R253). -/
def State.hardReset (s : State) (byHub : Bool) : State :=
  let x := s.pd
  let s := if byHub then s.send .pdHardReset else s
  let s := s.count (pdStat 0x0D) 1
  let s := s.pdEv 0x8030 2 171 (u8 (Config.code 0x8030 (if byHub then 0 else 1)) ++ u8 x.swap)
  let s := (s.pdEndAny 5).stopAll pdTimers
  let s := if s.get (pdStat 4) = 1 then s.vconn false else s
  let s := s.defaultRole.noContract
  let s := s.updPd fun x => { x with
    swap := 0, swapAgreed := false, swapNext := 0, txId := 0, rxId := none, waitCrc := none, queue := [], ask := [],
    sinkCaps := none, caps := 0, capsBad := false, capsLater := false,
    softSent := false, autoTries := 0, autoDone := false, autoWait := false }
  if s.isSource then ((s.presentRp (s.get (pdCfg 3))).updPd fun x => { x with hardStage := 1 }).start .pdHardReset
  else s.updPd fun x => { x with vbus := false }

/-- In Lift the DFU device's pull-up follows VBUS (R244). -/
def State.liftPull (s : State) (on : Bool) : State := if s.dev = devLift then s.send (.svcPull on on) else s

/-- Everything of an attach is gone (R254). -/
def State.unattach (s : State) : State :=
  let s := ((if s.isSink then s.liftPull false else s).pdEndAny 6).stopAll (.pdTrySnk :: .pdCc :: pdTimers)
  let s := if s.get (pdStat 4) = 1 then s.vconn false else s
  let s := (s.request 8 false).noContract
  let s := s.setAll ([(pdStat 2, 0), (pdStat 3, 0), (pdStat 5, 0), (pdStat 6, 0), (pdStat 0x0A, 0)] ++
    ([1, 2, 3, 4, 5, 6, 7, 8].map fun k => (ob 0x2B02 k, 0)))
  { s with pd := { discharge := s.pd.discharge } }

/-- The terminations go for tErrorRecovery (R244, R252). -/
def State.errorRecovery (s : State) : State :=
  ((s.unattach.set (pdStat 1) 6).send .ccOpen).start .pdError

/-- The hub presents Rd only until channel 8 returns (R252). -/
def State.restricted (s : State) : Bool := s.flag (pdStat 0x0C)

/-- PortRoleMode as it acts: Sink before the port is configured and while power is restricted (R244, R252). -/
def State.roleMode (s : State) : Nat := if s.portConfigured ∧ !s.restricted then s.get (pdCfg 1) else 0

/-- The terminations of an unattached port (R245). -/
def State.terminate (s : State) : State :=
  let rp := decide (s.roleMode = 1)
  let s := (s.updPd fun x => { x with rp }).send (.ccPull rp (s.get (pdCfg 3)))
  if s.roleMode = 2 then s.start .pdDrp else s.stop .pdDrp

/-- PortRoleMode is written (R244, R245, R255): an attached port goes through ErrorRecovery, one in ErrorRecovery takes it
at its end, and any other starts anew from Unattached. -/
def State.roleModeWritten (s : State) : State :=
  if s.attached then s.errorRecovery
  else if s.typeC = 6 then s
  else ((s.stopAll [.pdTrySnk, .pdCc]).setAll [(pdStat 1, 0), (pdStat 5, 0)]).terminate

/-- TypeCCurrent is written: an unattached port that presents Rp presents it at the new level (R245). -/
def State.rpWritten (s : State) : State :=
  if (s.typeC ≤ 1 ∧ s.pd.rp) ∨ s.typeC = 5 then s.presentRp (s.get (pdCfg 3)) else s

/-- A protection of R252 acts; rows 1 to 6 in the order of its table. -/
def State.protect (s : State) (row mv : Nat) : State :=
  let v := s.get (pdStat 7)
  ((s.count (pdStat 0x0E) 1).pdEv 0x8040 3 172 (u8 row ++ u16 mv ++ u16 v))

/-- VBUS in mV as the hub measures it now (R258). -/
def State.vbusNow (s : State) : Nat := Config.measured (pdStat 0x0B) s.clock

/-- Channel 8 trips (R252): over-current, causes 1 and 2, and reverse current, cause 5, end in ErrorRecovery with power
restricted. A trip for its FET or its ramp is no condition of that table; the port recovers from it likewise (log entry
220). -/
def State.svcTrip (s : State) (cause : Nat) : State :=
  if cause = 6 then s
  else
    let s := if cause = 5 then s.protect 4 s.vbusNow else if cause ≤ 2 then s.protect 3 s.vbusNow else s
    (s.errorRecovery).set (pdStat 0x0C) 1

/-- Channel 8 has left Tripped, LockedOut or Waiting: power is no more restricted, and an unattached port presents its
configured terminations again (R245, R252). -/
def State.svcReturn (s : State) : State :=
  if s.restricted then
    let s := s.set (pdStat 0x0C) 0
    if s.typeC = 0 then s.terminate else s
  else s

/-- Channel 8 reports power-good: VBUS comes to vSafe5V and Source_Capabilities fall due (R250, R367). -/
def State.svcPowerGood (s : State) : State :=
  let s := s.updPd fun x => { x with vbus := true }
  if s.isSource ∧ s.hostMode 6 then s.start .pdFirstCap else s

/-- The partner's Sink_Capabilities are in PartnerCapabilities once Get_Sink_Cap is through (R259). -/
def State.showSinkCaps (s : State) : State :=
  match s.pd.sinkCaps with
  | some l =>
    let s := s.setAll (((upTo 7).map fun i => (ob 0x2B02 (i + 1), l.getD i 0 % 2 ^ 32)) ++ [(ob 0x2B02 8, min 7 l.length)])
    (s.updPd fun x => { x with sinkCaps := none }).readyRp
  | none => s

/-- No message waits for a GoodCRC any more. -/
def State.crcOver (s : State) : State := (s.updPd fun x => { x with waitCrc := none, retries := 0 }).stop .pdGoodCrc

/-- The next message goes (R243). -/
def State.pdNext (s : State) : State :=
  if s.pd.waitCrc.isSome then s
  else match s.pd.queue with
  | [] => s
  | m :: rest => (s.updPd fun x => { x with queue := rest }).pdPut m

/-- A message's GoodCRC has come: waiting Source_Capabilities are heard (R250), and the next message goes (R243). -/
def State.heard (s : State) : State :=
  let was := s.pd.waitCrc
  let s := s.crcOver
  (match was with
    | some (.sourceCap _) => ((s.updPd fun x => { x with caps := 0, capsBad := false }).stop .pdCapRepeat).pdDone 4 0
    | some .getSinkCap => s.showSinkCaps
    | _ => s).pdNext

/-- The protocol layer starts anew (R242, R243): messages that waited for a GoodCRC are gone, and the hub's own Request or
swap that was sent gets no answer; one that waits for SinkTxOk still does. -/
def State.pdRestart (s : State) : State :=
  let s := s.crcOver.updPd fun x => { x with queue := [], sinkCaps := none }
  let s := match s.pd.asked with
    | some k => ((s.updPd fun x => { x with asked := none }).stopAll [.pdResponse, .pdSinkRetry]).requestDone k 4
    | none => s
  if s.pd.swap ≠ 0 ∧ !(s.pd.swapOwn && s.pd.ask.any pdSwaps) then s.swapEnd 4 else s

/-- tReceive has passed at its longest and no PD_GOODCRC_TIMEOUT came: the GoodCRC did (R243, R256; log entry 121). -/
def State.crcCame (s : State) : State :=
  if s.pdOn && s.pd.waitCrc.isSome && s.due .pdGoodCrc 1100001 then s.heard else s

/-- The port is attached, as Source or as Sink (R245, R248). -/
def State.attachAs (s : State) (source : Bool) (cc partnerRp : Nat) : State :=
  let s := s.setAll [(pdStat 1, if source then 2 else 3), (pdStat 2, if source then 2 else 1),
    (pdStat 3, if source then 2 else 1), (pdStat 5, cc), (pdStat 0x0A, if source then 0 else partnerRp), (pdStat 9, 0)]
  let s := s.pdEv 0x8001 0 168 (u8 (s.typeC) ++ u8 cc ++ u8 partnerRp)
  if source then ((s.presentRp (s.get (pdCfg 3))).vsel 5000).request 8 true
  else (s.updPd fun x => { x with vbus := true }).liftPull true

/-- The partner's Rp is at another level; at SinkTxOk the Sink's waiting requests go (R243, R248). -/
def State.partnerLevel (s : State) (level : Nat) : State :=
  let s := s.set (pdStat 0x0A) level
  if level = 2 then
    forAll (fun m s => match m with | .request rdo => s.putRequest rdo | m => s.pdSend m) s.pd.ask
      (s.updPd fun x => { x with ask := [] })
  else s

/-- The switch of the function: to hardware mode a Hard Reset, then silence; to host-assisted mode capabilities or a
Soft_Reset (R255). -/
def State.pdSwitch (s : State) (host : Bool) : State :=
  if !s.attached then s
  else if host then
    if s.isSource then if s.pd.vbus then s.start .pdFirstCap else s
    else (s.updPd fun x => { x with softSent := true }).pdSend .softReset
  else
    let s := s.hardReset true
    s.updPd fun x => { x with waitCrc := none, queue := [], ask := [] }

/-- A Source's PDO object was written under a contract: new Source_Capabilities now, or after PS_RDY (R250, R255). -/
def State.pdoChanged (s : State) : State :=
  if s.pdOn ∧ s.isSource ∧ s.get (pdStat 9) = 1 then s.sendCaps
  else if s.pdOn ∧ s.isSource ∧ s.get (pdStat 9) = 2 then s.updPd fun x => { x with capsLater := true }
  else s

/-- What a write of ServicePowerConfig adds to R37: a current above channel 8's limit is of kind 7 (R249). -/
def State.pdKinds (s : State) (sub v : Nat) : List Nat :=
  kindIf (decide ((sub = 5 ∨ sub = 7 ∨ sub = 9) ∧ s.svcLimit < v * 10)) 7 ++
  kindIf (decide (sub = 3 ∧ s.svcLimit < (if v = 0 then 500 else if v = 1 then 1500 else 3000))) 7

end Sys2Proof.Machine
end

