-- ==== Sys2Proof/Machine/ResetOps.lean ====
section
/-!
DEFINITION. Entering Reset (R7, R452): what MRAM, fuses, flash and the guard die keep, and what is lost.
-/

set_option Elab.async false

namespace Sys2Proof.Machine

open Sys2Proof

/-- What a breaker keeps in AON through a loss of VOR (R374): state, model temperature, retries used, last cause, and that
its state was lost. -/
def aonSub (sub : Nat) : Bool := [1, 5, 7, 0x0A, 0x0D].contains sub

/-- The objects that the guard die keeps through Reset: all of power entry while VOR stays, else what is in AON (R374,
R452). -/
def guardKeeps (vorLost : Bool) (k : Nat) : Bool :=
  let i := k / 256
  let sub := k % 256
  decide (i = 0x4100 ∨ (0x4110 ≤ i ∧ i < 0x411A) ∨ (i = 0x4101 ∧ sub = 0x0D)) ||
  (if vorLost then decide (0x4120 ≤ i ∧ i < 0x412A) && aonSub sub
   else decide ((0x4120 ≤ i ∧ i < 0x412A ∧ sub < 0xF0) ∨ (i = 0x4101 ∧ sub < 0xF0) ∨ i = 0x4130))

/-- The timers that run on CI0 in the guard die: the inlet's, every retry, the rails' (R372, R378). -/
def guardTimer : Timer → Bool
  | .retry _ => true
  | .ramp c => decide (c = 9)
  | .onTime c => decide (c = 9)
  | .holdUp => true
  | .rail => true
  | .railGood => true
  | .resetRelease => true
  | _ => false

/-- Channels 0-8 lose their on-requests and turn off (R377). -/
def State.channelsOff (s : State) : State :=
  let s := { s with power := { s.power with want := s.power.want.filter fun c => decide (c = 9) } }
  forAll (fun c s => onlyIf (s.driven c) (fun s => ((s.gate c false).set (brStat c 1) 0).stopAll [.ramp c, .onTime c]) s) (upTo 9) s

/-- In Reset the service port presents Rd, sources neither VBUS nor VCONN and selects 5 V (R244). -/
def State.svcSilent (s : State) : State :=
  let s := if s.pd.discharge then s.discharging false else s
  ((s.vconn false).vsel 5000).send (.ccPull false 0)

/-- The hub die goes into Reset with a kind of R452. SAFE_PULSE stops (R411) and pair B is Off (R387), journalled before
the dictionary is gone. -/
def State.toReset (s : State) (kind : Nat) (vorLost : Bool) : State :=
  if s.dev = devReset then { s with power := { s.power with kind } }
  else
    let app := s.get (ob 0x4501 1)
    let s := if app = 0 then s else s.ev 0x1200 0 1 1 (u8 app ++ u8 0 ++ u8 3)
    let stageBad := decide (s.get (ob 0x6001 1) = 1)
    let s := ((s.set (ob 0x2000 1) devReset).pulse).channelsOff.svcSilent
    let b := s.boot
    { part := s.part
      head := s.head
      clock := s.clock
      freeCount := s.freeCount
      jour := s.jour
      sent := s.sent
      pending := s.pending
      objs := s.objs.filter fun e => guardKeeps vorLost e.1
      timers := s.timers.filter fun e => guardTimer e.1
      secu := { s.secu with asks := [] }
      power := { s.power with
        kind
        turned := s.power.turned ++ (s.rates.filter fun r => decide (r.code = 0xD002)).map fun r =>
          { feed := r.inst, since := r.since, count := r.counts.headD 0, first := r.since } }
      app := { mram := s.app.mram }
      safety := { vdd := s.safety.vdd, baseline := s.safety.baseline, baseTime := s.safety.baseTime, nor := s.safety.nor,
                  norSeq := s.safety.norSeq, link := s.safety.link }
      boot := { b with
        chosen := 0, from_ := none, passed := none, domains := [], lift := {}, stage := {}, resetAsked := false,
        backupDue := none, stageBad := b.stageBad || stageBad } }

end Sys2Proof.Machine
end

