-- ==== Sys2Proof/Machine/PowerOps.lean ====
section
/-!
DEFINITION. The inlet, the trips' consequences and the rail sequence of the guard die (R364-R379).
-/

set_option Elab.async false

namespace Sys2Proof.Machine

open Sys2Proof

def peCfg (sub : Nat) : Nat := ob 0x4100 sub
def peStat (sub : Nat) : Nat := ob 0x4101 sub
def railKey (sub : Nat) : Nat := ob 0x4130 sub

/-- FeedState of R364: 0 absent, 1 present and blocking, 2 conducting, 3 disabled. -/
def State.feedState (s : State) (feed : Nat) : Nat := s.get (peStat (1 + feed))

/-- The gate pin of a feed's ideal diode (R363). -/
def diodePin (feed : Nat) : String := if feed = 0 then "DIODE_A_GATE" else "DIODE_B_GATE"

/-- A feed changes state (R364): its diode's gate is driven while it conducts. -/
def State.feedGo (s : State) (feed new mv : Nat) : State :=
  let old := s.feedState feed
  if old = new then s
  else
    let s := if old = 2 ∨ new = 2 then s.send (.pin (diodePin feed) (ofBool (decide (new = 2)))) else s
    (s.set (peStat (1 + feed)) new).pwrEv 0xD001 feed (if new = 0 then 2 else 0) (288 + feed)
      (u16 feed ++ u8 old ++ u8 new ++ u16 mv)

/-- What an ideal diode does with a feed of `mv` at a common node of `vor` (R364): it starts at 50 mV above and stops
at more than 10 mV below. -/
def State.feedNow (s : State) (feed mv vor : Nat) : Nat :=
  if s.get (peCfg (1 + feed)) = 0 then 3
  else if mv ≤ s.get (peCfg 3) then 0
  else if vor + 50 ≤ mv then 2
  else if s.feedState feed = 2 ∧ vor ≤ mv + 10 then 2
  else 1

/-- SequenceState of R378. -/
def State.seqState (s : State) : Nat := s.get (peStat 8)

/-- PWR_EN pins. -/
def enablePin (g : Nat) : String :=
  if g = 1 then "PWR_EN1" else if g = 2 then "PWR_EN2" else if g = 3 then "PWR_EN3" else "PWR_EN4"

/-- The enables up to group `g` drop, the last first (R378). -/
def State.dropEnables (s : State) : Nat → State
  | 0 => s
  | g + 1 => (s.send (.pin (enablePin (g + 1)) 0)).dropEnables g

/-- The groups whose enable is driven. -/
def State.groupsOn (s : State) : Nat := if s.seqState = 6 then 0 else min s.seqState 4

/-- The rails are off and the sequence reads `state`: 0 off, 6 failed (R378). -/
def State.railsOff (s : State) (state : Nat) : State :=
  let s := (s.dropEnables s.groupsOn).stopAll [.rail, .railGood, .resetRelease]
  { s.setAll [(peStat 8, state), (railKey 8, 0)] with power := { s.power with groupGood := false } }

/-- The card is without power: the hub die is in Reset and its rails are off (R371, R378). -/
def State.cardOff (s : State) : State := (s.toReset 1 false).railsOff 0

/-- The inlet's gate is turned off without a trip (R366). -/
def State.inletOff (s : State) : State := if s.driven 9 then (s.cardOff).breakerOff 9 else s

/-- VOR is below 6.0 V: PD1 has stopped, and only what is in AON stays (R365, R374). -/
def State.vorGone (s : State) : State :=
  let s := ((s.inletOff.request 9 false).toReset 1 true).railsOff 0
  { s.stop .holdUp with objs := s.objs.filter fun e => guardKeeps true e.1 }

/-- The lowest-numbered cause of those that the same evaluation shows (R371). -/
def State.lowestCause (s : State) (c cause ma : Nat) (temp : Int) : Nat :=
  if 2 * s.get (brCfg c 1) < ma then 1
  else if 3 < cause ∧ (10 * s.get (brCfg c 9) : Nat) < temp then 3
  else cause

/-- A breaker trips while its gate is driven (R371): the fast-trip wire is driven (R12), the inlet's trip removes the
card's power first, and the channel's user is told. -/
def State.tripNow (s : State) (c cause point ma : Nat) (temp : Int) : State :=
  if !s.driven c then s
  else
    let cause := s.lowestCause c cause ma temp
    let point := if cause = 2 then point else 0
    let s := if cause = 1 then s.send (.wire "FAST_TRIP") else s
    let s := if c = 9 then s.cardOff else s
    let s := s.trip c cause point ma temp
    if c < 8 then s.portTrip c else if c = 8 then s.svcTrip cause else s

/-- The rails of a group, by their places in RailGood (R378, R385). -/
def groupRails (g : Nat) : List Nat := if g = 1 then [0] else if g = 2 then [5, 4, 1] else if g = 3 then [2, 3] else [6]

/-- A rail's good window in mV, in tenths of one (R378). -/
def railWindow (r : Nat) : Nat × Nat :=
  if r = 0 then (6400, 9000)
  else if r = 1 then (8550, 9450)
  else if r = 2 then (11400, 12600)
  else if r = 3 then (10450, 11550)
  else if r = 6 then (31350, 34650)
  else (17100, 18900)

/-- The switchable domains that take a rail other than VDD_CORE, VDD_IO18 and VDD_IO33 (R19). -/
def railDomains (r : Nat) : List Nat :=
  if r = 1 then [4, 5, 6, 7] else if r = 2 then [4, 5, 6, 7, 8, 10, 11] else [9]

end Sys2Proof.Machine
end

