-- ==== Sys2Proof/Machine/Storage.lean ====
section
/-!
DEFINITION. The commands of storage and the window bridge (R292-R314).
-/

set_option Elab.async false

namespace Sys2Proof.Machine

open Sys2Proof

/-- R292, R294. A PCIe link comes up at a speed and width: an endpoint presents itself, and at a root port in queue-engine mode
the drive is initialised. A speed of 0 tells that training has begun (log entry 225). -/
def execPcieLinkUp (p speed width : Nat) (s : State) : Ans :=
  onPort s (fun q => q.hasPcie p)
    (if s.domainOn 11 ∧ s.get (pcieCfg p 1) = 1 ∧ s.get (pcieStat p 1) = 0 ∧ speed = 0 then s.set (pcieStat p 1) 1
     else if s.domainOn 11 ∧ s.get (pcieCfg p 1) = 1 ∧ s.get (pcieStat p 1) ≠ 2 ∧ 1 ≤ speed ∧ speed ≤ s.get (pcieCfg p 3) ∧
        width ≤ s.get (pcieCfg p 4) ∧ [1, 2, 4].contains width then
      let s := s.setAll [(pcieStat p 1, 2), (pcieStat p 2, speed), (pcieStat p 3, width)]
      let s := s.updPcie p fun x => { x with master := true, d3hot := false, readSize := 512 }
      let s := s.ev 0xA001 p 0 (208 + p) (u16 p ++ u16 2 ++ u16 speed ++ u16 width)
      if !s.isRoot p then s.send (.endpoint p (s.presents p)) else if s.queueMode then s.driveBegin p else s
     else s)

/-- The flush of one namespace is over; the last commits the storage flush (R298). -/
def State.flushOne (s : State) (ok : Bool) : State :=
  let s := s.updStore fun x => { x with flushLeft := x.flushLeft - 1, flushed := x.flushed + ofBool ok }
  if s.stor.flushLeft = 0 ∧ s.cmdRuns 0x2D00 then s.cmdCommit 0x2D00 s.stor.flushed else s

/-- What is left of a storage flush's commands at a drive is over without success (R298). -/
def State.flushCut (s : State) (p : Nat) : State :=
  forAll (fun _ (s : State) => s.flushOne false) ((s.pcie p).drive.filter fun c => decide (c.tunnel = 0)) s

/-- The queues of a port are deleted and its namespaces inactive, as its function switches (R54, R309). -/
def State.queuesGone (s : State) (p : Nat) : State :=
  (s.flushCut p).updPcie p fun x =>
    { x with sqs := [(0, {})], cqs := [(0, {})], cmds := [], drive := [], queued := [], landed := [], spaces := [], aers := [] }

/-- A port's PCIe link goes down (R309). -/
def State.pcieLinkLost (s : State) (p : Nat) : State :=
  if s.get (pcieStat p 1) = 0 then s
  else if s.get (pcieStat p 1) = 1 then s.set (pcieStat p 1) 0
  else
   let s := (s.setAll [(pcieStat p 1, 0), (pcieStat p 2, 0), (pcieStat p 3, 0)]).count (pcieStat p 0x0C) 1
   let s := s.ev 0xA001 p 2 (208 + p) (u16 p ++ u16 0 ++ u16 0 ++ u16 0)
   let x := s.pcie p
   let s := s.updPcie p fun y =>
     { role := y.role, aer := y.aer, lockTunnel := y.lockTunnel, lockWin := y.lockWin, waiting := y.waiting }
   let s := s.updStore fun y => { y with reads := y.reads.filter fun r => decide (s.win r.win 2 ≠ 12 + p) }
   let s := forAll (fun (c : DrCmd) s =>
     if c.tunnel = 0 then s.flushOne false else s.sendUnit c.tunnel (.completion c.tag (nvStatus 0 6))) x.drive s
   let s := forAll (fun (c : QdCmd) s => s.sendUnit c.tunnel (.completion c.tag (nvStatus 0 6))) x.queued s
   (s.freeLock p).driveState p 0 0

/-- R309. A PCIe link goes down: the commands outstanding at its drive complete with Internal Error, its lock is
released, and what its server had asked for is forgotten. -/
def execPcieLinkDown (p : Nat) (s : State) : Ans := onPort s (fun q => q.hasPcie p) (s.pcieLinkLost p)

/-- R294. CSTS.RDY arrives: the engine identifies the drive and its namespaces and creates its queues; CSTS.CFS set
makes the drive failed, then or later. -/
def execDriveReady (p csts : Nat) (spaces : List (Nat × Nat × Nat)) (s : State) : Ans :=
  onPort s (fun q => q.hasPcie p)
    (if s.pcieUp p ∧ s.isRoot p ∧ s.queueMode ∧ s.get (pcieStat p 4) = 2 ∧ csts.testBit 1 then s.driveState p 3 csts
     else if s.pcieUp p ∧ s.isRoot p ∧ s.queueMode ∧ s.get (pcieStat p 4) = 1 then
      if csts.testBit 1 then s.driveState p 3 csts
      else
        let s := ((s.driveQueues p).updPcie p fun x => { x with spaces }).driveState p 2 csts
        forAll (fun n s =>
          if s.tstate n = 3 ∧ s.tcfg n 2 = 1 ∧ s.tcfg n 6 = 18 ∧ s.tcfg n 8 / 4096 = p then s.sendNsInfo n (s.tcfg n 8) else s)
          s.liveTunnels s
     else s)

/-- R294. CSTS.RDY has not come within CAP.TO: the drive is failed. -/
def execDriveInitTimeout (p : Nat) (x : InitStat) (s : State) : Ans :=
  onPort s (fun q => q.hasPcie p)
    (if s.isRoot p ∧ s.get (pcieStat p 4) = 1 ∧ (s.pcie p).initAt + msec (500 * x.readyTime) ≤ s.clock then s.driveState p 3 x.csts
     else s)

/-- The endpoint's NVMe controller runs: an endpoint in queue-engine mode whose link is up (R295). -/
def State.nvmeOn (s : State) (p : Nat) : Bool := s.pcieUp p && !s.isRoot p && s.queueMode

/-- R295. The server rings a submission-queue doorbell. -/
def execNvmeSqDoorbell (p q tail : Nat) (s : State) : Ans :=
  onPort s (fun q => q.hasPcie p)
    (match Sparse.find q (s.pcie p).sqs with
     | some x =>
       if s.nvmeOn p ∧ tail < x.size then
        (s.count (pcieStat p 5) 1).updPcie p fun y => { y with sqs := Sparse.ins q { x with tail } (Sparse.drop q y.sqs) }
       else s
     | none => s)

/-- A command is fetched from its submission queue, by a read of the server's memory, and taken (R295). A port that may not
master fetches none (R293). -/
def State.fetched (s : State) (p q : Nat) (eff : State → State) : State :=
  match Sparse.find q (s.pcie p).sqs with
  | some x =>
    if s.nvmeOn p ∧ s.masters p ∧ x.head ≠ x.tail then
      eff (((s.count (pcieStat p 6) 1).count (pcieStat p 5) 1).updPcie p fun y =>
        { y with sqs := Sparse.ins q { x with head := (x.head + 1) % max 1 x.size } (Sparse.drop q y.sqs) })
    else s
  | none => s

/-- An I/O command of the server is forwarded under a number of its own (R297); to an inactive namespace it completes with
Namespace Not Ready, past MDTS with Invalid Field in Command (R295). The server's buffer of a Write is read, and its data sent
first. -/
def State.nvForward (s : State) (p q cid nsid op slba blocks : Nat) (buf : HostBuf) : State :=
  match s.nsTunnel p nsid with
  | none => s.cqEntry p q cid (nvStatus 0 0x82) 0
  | some n =>
    let size := 2 ^ (Sparse.get (0, 9) s.stor.info n).2
    if (op = 1 ∨ op = 2) ∧ 1048576 < blocks * size then s.cqEntry p q cid (nvStatus 0 2) 0
    else
      let (tag, s) := s.newTag
      let bytes := blocks * size
      let want := if op = 2 then bytes else 0
      let s := s.updPcie p fun x => { x with cmds := x.cmds ++ [{ tunnel := n, tag, sq := q, cid, op, prps := buf.prps, want }] }
      let s := if op = 1 then (s.hostRead p buf.prps bytes).sendData n tag (fitBytes bytes buf.bytes) else s
      s.sendUnit n (.command tag op slba blocks)

/-- R297. An NVMe Read is forwarded. -/
def execNvmeRead (p q cid nsid slba blocks : Nat) (prps : List Nat) (s : State) : Ans :=
  onPort s (fun q => q.hasPcie p) (s.fetched p q fun s => s.nvForward p q cid nsid 2 slba blocks ⟨prps, []⟩)

/-- R297. An NVMe Write: the server's buffers are read and sent, then the command. -/
def execNvmeWrite (p q cid nsid slba blocks : Nat) (buf : HostBuf) (s : State) : Ans :=
  onPort s (fun q => q.hasPcie p) (s.fetched p q fun s => s.nvForward p q cid nsid 1 slba blocks buf)

/-- R297. An NVMe Flush is forwarded. -/
def execNvmeFlush (p q cid nsid : Nat) (s : State) : Ans :=
  onPort s (fun q => q.hasPcie p) (s.fetched p q fun s => s.nvForward p q cid nsid 0 0 0 ⟨[], []⟩)

/-- R297. An NVMe Write Zeroes is forwarded. -/
def execNvmeWriteZeroes (p q cid nsid slba blocks : Nat) (s : State) : Ans :=
  onPort s (fun q => q.hasPcie p) (s.fetched p q fun s => s.nvForward p q cid nsid 8 slba blocks ⟨[], []⟩)

/-- Bytes with a part replaced from an offset. -/
def patch (bs : Bytes) (off : Nat) (new : Bytes) : Bytes := bs.take off ++ new ++ bs.drop (off + new.length)

/-- Data of an admin command written to the server, then its completion (R295). -/
def State.nvReply (s : State) (p cid : Nat) (data : Bytes) : State :=
  ((s.count (pcieStat p 6) 1).send (.nvmeData p cid data)).cqEntry p 0 cid 0 0

/-- R295. Identify returns the controller's data, a namespace's, or the list of active namespaces. -/
def execNvmeIdentify (p cid cns nsid : Nat) (s : State) : Ans :=
  onPort s (fun q => q.hasPcie p) (s.fetched p 0 fun s =>
    let (d, s) := s.draw
    let fill := fitBytes 4096 (Config.nvmeFill p cns nsid d)
    if cns = 1 then s.nvReply p cid (patch (patch fill 0 (u16 (s.get (pcieCfg p 6)))) 77 (u8 8))
    else if cns = 0 then
      match s.nsTunnel p nsid with
      | none => s.cqEntry p 0 cid (nvStatus 0 0x82) 0
      | some n =>
        let (blocks, lb) := Sparse.get (0, 9) s.stor.info n
        s.nvReply p cid (patch (patch (patch fill 0 (u64 blocks)) 26 (u8 0)) 130 (u8 lb))
    else if cns = 2 then
      let ids := (upTo 1025).filter fun k => decide (nsid < k) && (s.activeNs p).contains k
      s.nvReply p cid (fitBytes 4096 (ids.map u32).flatten)
    else s.cqEntry p 0 cid (nvStatus 0 2) 0)

/-- R295. Create I/O Submission or Completion Queue; `other` is the completion queue of the one and the vector of the
other. -/
def execNvmeCreateIoQueue (p cid : Nat) (submission : Bool) (q size other : Nat) (ien : Bool) (s : State) : Ans :=
  onPort s (fun q => q.hasPcie p) (s.fetched p 0 fun s =>
    let x := s.pcie p
    let taken := if submission then (Sparse.find q x.sqs).isSome else (Sparse.find q x.cqs).isSome
    if q = 0 ∨ 16 < q ∨ taken then s.cqEntry p 0 cid (nvStatus 1 1) 0
    else if size < 2 ∨ 1024 < size then s.cqEntry p 0 cid (nvStatus 1 2) 0
    else if submission then
      if other = 0 ∨ (Sparse.find other x.cqs).isNone then s.cqEntry p 0 cid (nvStatus 1 0) 0
      else (s.updPcie p fun y => { y with sqs := Sparse.ins q { size, cq := other } y.sqs }).cqEntry p 0 cid 0 0
    else if 64 ≤ other then s.cqEntry p 0 cid (nvStatus 1 8) 0
    else (s.updPcie p fun y => { y with cqs := Sparse.ins q { size, vector := other, ien } y.cqs }).cqEntry p 0 cid 0 0)

/-- R295. Delete I/O Submission or Completion Queue; a completion queue that a submission queue uses stays. -/
def execNvmeDeleteIoQueue (p cid : Nat) (submission : Bool) (q : Nat) (s : State) : Ans :=
  onPort s (fun q => q.hasPcie p) (s.fetched p 0 fun s =>
    let x := s.pcie p
    if submission then
      if q = 0 ∨ (Sparse.find q x.sqs).isNone then s.cqEntry p 0 cid (nvStatus 1 1) 0
      else
        (s.updPcie p fun y =>
          { y with sqs := Sparse.drop q y.sqs, cmds := y.cmds.filter fun c => decide (c.sq ≠ q) }).cqEntry p 0 cid 0 0
    else if q = 0 ∨ (Sparse.find q x.cqs).isNone then s.cqEntry p 0 cid (nvStatus 1 1) 0
    else if x.sqs.any fun e => decide (e.2.cq = q) then s.cqEntry p 0 cid (nvStatus 1 0x0C) 0
    else (s.updPcie p fun y => { y with cqs := Sparse.drop q y.cqs }).cqEntry p 0 cid 0 0)

/-- The first Open tunnel whose namespace the port presents: the far drive behind it is the one whose health is asked (R295). -/
def State.nsFirst (s : State) (p : Nat) : Nat :=
  (s.liveTunnels.find? fun n => decide (s.tstate n = 3 ∧ s.tcfg n 2 = 1 ∧ s.get (tunKey n 0x12) = 2 ∧ s.tcfg n 6 = 12 + p)).getD 0

/-- R295. Get Log Page returns Error Information, or the far drive's SMART/Health. -/
def execNvmeGetLogPage (p cid lid len : Nat) (s : State) : Ans :=
  onPort s (fun q => q.hasPcie p) (s.fetched p 0 fun s =>
    if lid = 1 ∨ lid = 2 then
      let (d, s) := s.draw
      s.nvReply p cid (fitBytes len
        (if lid = 2 then Config.farHealth (s.nsFirst p) d else Config.nvmeFill p (256 + lid) 0 d))
    else s.cqEntry p 0 cid (nvStatus 1 9) 0)

/-- The features that the controller supports: Number of Queues, Interrupt Coalescing, Asynchronous Event Configuration
(R295). -/
def nvFeature (fid : Nat) : Bool := [7, 8, 0x0B].contains fid

/-- R295. Get Features returns a supported feature. -/
def execNvmeGetFeatures (p cid fid : Nat) (s : State) : Ans :=
  onPort s (fun q => q.hasPcie p) (s.fetched p 0 fun s =>
    if nvFeature fid then
      s.cqEntry p 0 cid 0 (if fid = 7 then 0x000F000F else Sparse.get 0 (s.pcie p).feats fid)
    else s.cqEntry p 0 cid (nvStatus 0 2) 0)

/-- R295. Set Features sets a supported feature; Number of Queues answers the 16 pairs that there are. -/
def execNvmeSetFeatures (p cid fid value : Nat) (s : State) : Ans :=
  onPort s (fun q => q.hasPcie p) (s.fetched p 0 fun s =>
    if nvFeature fid then
      (s.updPcie p fun x => { x with feats := Sparse.put 0 fid value x.feats }).cqEntry p 0 cid 0
        (if fid = 7 then 0x000F000F else 0)
    else s.cqEntry p 0 cid (nvStatus 0 2) 0)

/-- R295. Abort completes with bit 0 of Dword 0 set. -/
def execNvmeAbort (p cid : Nat) (s : State) : Ans :=
  onPort s (fun q => q.hasPcie p) (s.fetched p 0 fun s => s.cqEntry p 0 cid 0 1)

/-- R295. An Asynchronous Event Request is held, and answers a notice that waits. -/
def execNvmeAsyncEventRequest (p cid : Nat) (s : State) : Ans :=
  onPort s (fun q => q.hasPcie p) (s.fetched p 0 fun s =>
    let s := s.updPcie p fun x => { x with aers := x.aers ++ [cid] }
    if (s.pcie p).notice then (s.updPcie p fun x => { x with notice := false }).nsNotice p else s)

/-- R295. Any other opcode completes with Invalid Command Opcode. -/
def execNvmeInvalidOpcode (p q cid : Nat) (s : State) : Ans :=
  onPort s (fun q => q.hasPcie p) (s.fetched p q fun s => s.cqEntry p q cid (nvStatus 0 1) 0)

/-- A unit at the server side (R297, R298): a read's data is written to the server's buffer, and a completion posted; one of a
read whose data did not all come is a Data Transfer Error. -/
def State.serverUnit (s : State) (n p : Nat) (u : SUnit) (damaged : Bool) : State :=
  let find := fun (tag : Nat) => (s.pcie p).cmds.find? fun c => decide (c.tunnel = n ∧ c.tag = tag)
  match u with
  | .command .. => s
  | .nsInfo blocks lb =>
    if damaged then s
    else
      let s := s.updStore fun x => { x with info := Sparse.ins n (blocks, lb) (Sparse.drop n x.info) }
      s.nsNotice p
  | .data tag off bytes =>
    match find tag with
    | none => s
    | some c =>
      if damaged then
        s.updPcie p fun x => { x with cmds := x.cmds.map fun y => if y = c then { c with damaged := true } else y }
      else if !s.masters p then s.pcieErrors p 0 0 0 1
      else if c.op = 2 then
        (s.updPcie p fun x => { x with cmds := x.cmds.map fun y => if y = c then { c with got := c.got + bytes.length } else y }).hostWrite
          p c.prps off bytes
      else s
  | .completion tag status =>
    match find tag with
    | none => s
    | some c =>
      if damaged ∨ c.damaged ∨ status = nvStatus 0 4 ∨ (status = 0 ∧ c.got < c.want) then (s.ioDone p c (nvStatus 0 4)).nvmeDataError p n 4
      else (s.ioDone p c status)

/-- A unit at the drive side (R297, R298): data lands in staging, a command goes to the drive unless its data is damaged or did
not all come. -/
def State.driveUnit (s : State) (n p nsid : Nat) (u : SUnit) (damaged : Bool) : State :=
  let key := fun (tag : Nat) => n * 65536 + tag
  match u with
  | .completion .. => s
  | .nsInfo .. => s
  | .data tag off bytes =>
    if damaged then s.updPcie p fun x => { x with staged := key tag :: x.staged }
    else
      (s.updPcie p fun x => { x with landed := Sparse.put 0 (key tag) (Sparse.get 0 x.landed (key tag) + bytes.length) x.landed }).stageIn
        n tag off bytes
  | .command tag op slba blocks =>
    let missing := decide (op = 1 ∧ Sparse.get 0 (s.pcie p).landed (key tag) < s.moves p nsid op blocks)
    let spoilt := damaged || missing || (s.pcie p).staged.contains (key tag)
    let s := s.updPcie p fun x =>
      { x with staged := x.staged.filter fun k => decide (k ≠ key tag), landed := Sparse.put 0 (key tag) 0 x.landed }
    if s.get (pcieStat p 4) ≠ 2 then s.sendUnit n (.completion tag (nvStatus 0 0x82))
    else if spoilt then s.sendUnit n (.completion tag (nvStatus 0 4))
    else s.toDrive p { tunnel := n, tag, nsid, op, slba, blocks, since := s.clock }

/-- A storage unit whose turn has come is acted on by the engine or the server side (R297); damage that the hub itself has
judged counts like what its adapter tells (R298). -/
def State.storageUnit (s : State) (n seq : Nat) (u : SUnit) (damaged : Bool) : State :=
  let k := (storageBytes u).length
  let damaged := damaged || decide (s.hurtOf n seq k ≠ 0)
  if s.domainOn 11 ∧ s.queueMode ∧ s.tstate n = 3 ∧ s.tcfg n 2 = 1 ∧ s.get (tunKey n 0x12) = 2 then
    let s := s.hurtDone n seq k
    let lp := s.tcfg n 6
    if lp = 18 then s.driveUnit n (s.tcfg n 8 / 4096) (s.tcfg n 8 % 4096) u damaged
    else if lp = 12 ∨ lp = 13 then s.serverUnit n (lp - 12) u damaged
    else s
  else s

/-- R297. The drive completes a command: a read's data is returned from staging before its completion; a storage flush
counts its namespace. -/
def execDriveCompletion (p own status : Nat) (s : State) : Ans :=
  onPort s (fun q => q.hasPcie p)
    (match (s.pcie p).drive.find? fun c => decide (c.own = own) with
     | none => s
     | some c =>
      let s := (s.count (pcieStat p 5) 1).updPcie p fun x => { x with drive := x.drive.filter fun y => decide (y ≠ c) }
      let s :=
        if c.tunnel = 0 then s.flushOne (decide (status = 0))
        else
          let s := if c.op = 2 ∧ status = 0 then s.sendData c.tunnel c.tag (s.stageOut c.tunnel c.tag c.bytes) else s
          s.sendUnit c.tunnel (.completion c.tag status)
      s.issueQueued p (s.pcie p).queued)

/-- A request TLP comes in: it is counted with the replays reported, and goes on by `eff` unless its ECRC is checked and bad,
or it is of a kind that the port does not support, which is answered with UR (R292). -/
def State.tlpIn (s : State) (p : Nat) (x : TlpData) (eff : State → State) : State :=
  let s := s.count (pcieStat p 5) 1
  let s := if x.replays = 0 then s else s.pcieErrors p x.replays 0 0 0
  if x.ecrcBad ∧ s.get (pcieCfg p 0x0B) = 1 then s.aerSet p 19
  else if x.kind = .memory then eff (if x.poisoned then s.pcieErrors p 0 1 0 0 else s)
  else (s.pcieErrors p 0 0 1 0).complete p x.tag 1 false []

/-- R304. A posted write into a window crosses its tunnel; a poisoned one is carried as tail-bad (R292). -/
def execWindowWriteRequest (p addr be : Nat) (data : TlpData) (s : State) : Ans :=
  onPort s (fun q => q.hasPcie p)
    (if s.pcieUp p ∧ s.writeHeld p addr = false then
      s.tlpIn p data fun s => s.windowWrite p addr be data.bytes data.poisoned
     else s)

/-- R304. A read into a window crosses, or is answered from the prefetch store. -/
def execWindowReadRequest (p addr len be tag : Nat) (s : State) : Ans :=
  onPort s (fun q => q.hasPcie p)
    (if s.pcieUp p ∧ s.readHeld p addr len false = false then (s.count (pcieStat p 5) 1).windowRead p addr len be tag false
     else s)

/-- A locked request is refused: a locked completion of status UR (R306, R308). -/
def State.refuseLock (s : State) (p w tag : Nat) : State :=
  let s := (s.count (winKey w 0x13) 1).lockEv w (s.win w 5) 2 (Config.farPort (s.win w 5))
  (s.pcieErrors p 0 0 1 0).complete p tag 1 true []

/-- R306. An MRdLk is passed on as a locked read, or answered with UR. -/
def execMrdlkRequest (p addr len tag : Nat) (s : State) : Ans :=
  onPort s (fun q => q.hasPcie p)
    (if !s.pcieUp p then s
     else
      match s.findWin p addr with
      | none => ((s.count (pcieStat p 5) 1).pcieErrors p 0 0 1 0).complete p tag 1 true []
      | some w =>
        if s.isRoot p ∨ s.get (pcieCfg p 0x0A) ≠ 1 ∨ s.win w 9 ≠ 1 then (s.count (pcieStat p 5) 1).refuseLock p w tag
        else if s.readHeld p addr len true then s
        else (s.count (pcieStat p 5) 1).windowRead p addr len 255 tag true)

/-- R306. The server's Unlock message crosses each tunnel in which its windows hold a lock. -/
def execUnlockMessage (p : Nat) (s : State) : Ans :=
  onPort s (fun q => q.hasPcie p)
    (if !s.pcieUp p ∨ s.isRoot p then s
     else
      forAll (fun w s =>
        if s.win w 2 = 12 + p then
          let s := s.updStore fun x => { x with lockedWins := x.lockedWins.filter fun k => decide (k ≠ w) }
          (s.windowUnit (s.win w 5) 4 w 0 1 0 0 (s.win w 6) []).lockEv w (s.win w 5) 3 (Config.farPort (s.win w 5))
        else s) s.stor.lockedWins (s.count (pcieStat p 5) 1))

/-- The hub has a locked read in flight toward the hub of that serial number (R308). -/
def State.lockCrosses (s : State) (serial : Nat) : Bool :=
  s.stor.reads.any fun r => r.locked && decide ((s.tun (s.win r.win 5)).farSerial = serial)

/-- A locked read at the far hub (R306, R308, R309): granted at a root port that no other tunnel or window has locked, and
where two cross to the hub of the larger SerialNumber. A sequence whose first read fails on the bus ends with it. -/
def State.lockedRead (s : State) (n p w tag len be addr busStatus : Nat) (busData : Bytes) : State :=
  let far := (s.tun n).farSerial
  let mine := decide ((s.pcie p).lockTunnel = n ∧ (s.pcie p).lockWin = w)
  let busy := (s.pcie p).lockTunnel ≠ 0 ∧ !mine
  if s.tstate n ≠ 3 ∨ !s.isRoot p ∨ busy ∨ (s.lockCrosses far ∧ far < s.get (ob 0x1018 4)) then s.windowUnit n 0x82 w tag len be 1 addr []
  else
    let s :=
      if mine then s
      else ((s.updPcie p fun x => { x with lockTunnel := n, lockWin := w }).set (pcieStat p 0x0B) 1).lockEv w n 1 (12 + p)
    let s := ((s.count (pcieStat p 6) 1).send (.lockRead p addr len)).busAnswer n p w tag len be addr busStatus busData
    if busStatus % 3 ≠ 0 ∧ !mine then s.freeLock p else s

/-- A damaged unit fences its transport (R305), unless the loss of its cells has done so already. -/
def State.unitHurt (s : State) (n w cause seq bytes : Nat) : State :=
  if s.hurtOf n seq bytes = 1 then s.hurtDone n seq bytes else (s.fence n w cause seq).hurtDone n seq bytes

/-- A window unit whose turn has come: the far hub issues its TLPs on its bus; `busStatus` and `busData` are what its bus
answers to a read (State.busAnswer). A damaged unit fences the transport: 1 lost, 2 tail-bad, 3 truncated (R305). A unit for a
port locked by another tunnel or window waits (R306). -/
def State.windowIn (s : State) (n seq damaged : Nat) (unit : Bytes) (busStatus : Nat) (busData : Bytes) : State :=
  let kind := byteAt unit 0
  let w := byteAt unit 1 % 64
  let tag := leAt unit 2 2
  let len := leAt unit 4 2
  let be := byteAt unit 6
  let addr := leAt unit 8 8
  let lp := s.tcfg n 6
  let p := lp - 12
  let hurt := if damaged ≠ 0 then damaged else s.hurtOf n seq unit.length
  if !s.domainOn 11 ∨ !s.live n ∨ s.tcfg n 2 ≠ 1 ∨ s.get (tunKey n 0x12) ≠ 1 ∨ !(lp = 12 ∨ lp = 13) then s
  else if hurt ≠ 0 then s.unitHurt n w hurt seq unit.length
  else if kind = 4 then if (s.pcie p).lockTunnel = n then s.freeLock p else s
  else if kind = 3 ∧ !s.isFenced n ∧ s.pcieUp p ∧ s.masters p then s.lockedRead n p w tag len be addr busStatus busData
  else if !s.isFenced n ∧ (s.pcie p).lockTunnel ≠ 0 ∧ !((s.pcie p).lockTunnel = n ∧ (s.pcie p).lockWin = w) then
    s.updPcie p fun x => { x with waiting := x.waiting ++ [{ tunnel := n, unit, status := busStatus, data := busData }] }
  else s.issueUnit n p unit busStatus busData

/-- Prefetch stores as far as they fit in some room, the newest first. -/
def fitFetched : Nat → List (Nat × Nat × Nat × Bytes) → List (Nat × Nat × Nat × Bytes)
  | _, [] => []
  | room, e :: r => if e.2.2.2.length ≤ room then e :: fitFetched (room - e.2.2.2.length) r else fitFetched room r

/-- What a read ahead brought beyond the request is kept: the part before and the part after (R303). The store holds 4 KiB:
older bytes that no longer fit are discarded and counted. -/
def State.keepFetched (s : State) (r : WinRead) : State :=
  let ks := r.data.map (·.1)
  let lo := ks.headD r.addr
  let hi := ks.getLastD r.addr + 1
  let bytes := fun (a z : Nat) => (upTo (z - a)).map fun k => BitVec.ofNat 8 (Sparse.get 0 r.data (a + k))
  let parts := [(lo, bytes lo r.addr), (r.addr + r.len, bytes (r.addr + r.len) hi)].filter fun e => !e.2.isEmpty
  let all := (parts.map fun e => (r.win, e.1, s.clock, e.2)) ++ s.stor.fetched.filter fun e => decide (e.1 = r.win)
  let size := fun (l : List (Nat × Nat × Nat × Bytes)) => (l.map fun e => e.2.2.2.length).foldl (· + ·) 0
  let kept := fitFetched 4096 all
  let s := s.updStore fun x => { x with fetched := kept ++ x.fetched.filter fun e => decide (e.1 ≠ r.win) }
  let gone := size all - size kept
  if gone = 0 then s
  else (s.count (winKey r.win 0x0E) gone).evRate 0xA032 r.win 1 214 (sec 1) (u16 r.win) [gone] []

/-- A read whose runs have all returned completes to its requester (R302, R304, R306). -/
def State.readDone (s : State) (n : Nat) (r : WinRead) : State :=
  let p := s.win r.win 2 - 12
  if r.status ≠ 0 then
    let s := if r.locked then (s.count (winKey r.win 0x13) 1).lockEv r.win n 2 (Config.farPort n) else s
    (s.pcieErrors p 0 0 (if r.status = 1 then 1 else 0) (if r.status = 2 then 1 else 0)).complete p r.reqTag r.status r.locked []
  else
    let s := if r.fetch then s.keepFetched r else s
    let s :=
      if r.locked then
        ((s.updStore fun x => { x with lockedWins := r.win :: x.lockedWins.filter fun k => decide (k ≠ r.win) }).count
          (winKey r.win 0x12) 1).lockEv r.win n 1 (Config.farPort n)
      else s
    s.complete p r.reqTag 0 r.locked ((upTo r.len).map fun k => BitVec.ofNat 8 (Sparse.get 0 r.data (r.addr + k)))

/-- The bytes of a run that its enables name, mapped back into local order (R301, R302). -/
def State.readBytes (s : State) (w addr be : Nat) (data : Bytes) (m : List (Nat × Nat)) : List (Nat × Nat) :=
  (enabledBytes addr ((data.length + 3) / 4) be).foldl
    (fun m f => Sparse.ins (s.localAddr w f) (byteAt data (f - addr / 4 * 4)) (Sparse.drop (s.localAddr w f) m)) m

/-- A completion unit whose turn has come completes the requester's read once each of its runs has returned; one that comes
too late is discarded and counted, and a damaged one fences (R304, R305). -/
def State.windowCompletion (s : State) (n seq damaged : Nat) (unit : Bytes) : State :=
  let w := byteAt unit 1 % 64
  let tag := leAt unit 2 2
  let status := byteAt unit 7
  let hurt := if damaged ≠ 0 then damaged else s.hurtOf n seq unit.length
  if !s.domainOn 11 ∨ !s.live n ∨ s.tcfg n 2 ≠ 1 ∨ s.get (tunKey n 0x12) ≠ 1 then s
  else if hurt ≠ 0 then s.unitHurt n w hurt seq unit.length
  else
    match s.stor.reads.find? fun r => decide (r.tag = tag ∧ r.win = w ∧ s.win w 5 = n) with
    | none => (s.count (winKey w 0x11) 1).evRate 0xA031 w 2 214 (sec 1) (u16 w ++ u16 n) [0, 1] []
    | some r =>
      let r' := { r with runs := r.runs - 1, status := max r.status status,
                         data := if status = 0 then s.readBytes w (leAt unit 8 8) (byteAt unit 6) (unit.drop 16) r.data else r.data }
      let s := s.updStore fun x =>
        { x with reads := if r'.runs = 0 then x.reads.filter fun y => decide (y ≠ r)
                          else x.reads.map fun y => if y = r then r' else y }
      if r'.runs = 0 then s.readDone n r' else s

/-- A unit of a storage tunnel whose turn has come (R297, R304). -/
def State.unitNow (s : State) (n seq : Nat) : InUnit → State
  | .window damaged unit status data => s.windowIn n seq damaged unit status data
  | .completion damaged unit => s.windowCompletion n seq damaged unit
  | .storage u damaged => s.storageUnit n seq u damaged

/-- The units of a tunnel that waited and are in order now are acted on, in order of their sequences (R297, R304). -/
def State.unitsReady (s : State) (n : Nat) : State :=
  let ready := s.stor.held.filter fun e => decide (e.tunnel = n) && !s.seqGap n e.seq
  if ready.isEmpty then s
  else
    let s := s.updStore fun x => { x with held := x.held.filter fun e => !ready.contains e }
    forAll (fun (e : SeqUnit) s => s.unitNow n e.seq e.unit) ready s

/-- A unit put among those that wait, before the first of its tunnel with a later sequence. -/
def State.heldInsert (s : State) (u : SeqUnit) : List SeqUnit → List SeqUnit
  | [] => [u]
  | e :: r =>
    let h := (s.tun u.tunnel).h
    if e.tunnel = u.tunnel ∧ extend (u.seq % 65536) h < extend (e.seq % 65536) h then u :: e :: r else e :: s.heldInsert u r

/-- A unit of a storage tunnel comes (R297, R304): while an earlier sequence of its tunnel is out, it waits. -/
def State.unitIn (s : State) (n seq : Nat) (u : InUnit) : State :=
  let s := s.unitsReady n
  if s.seqGap n seq then s.updStore fun x => { x with held := s.heldInsert { tunnel := n, seq, unit := u } x.held }
  else s.unitNow n seq u

/-- R297. A storage unit, in sequence order, is acted on by the engine or the server side. -/
def execStorageUnitReceived (n : Nat) (u : SUnit) (mark : UnitMark) (s : State) : Ans :=
  onUnit (decide (n < 4096)) (s.unitIn n mark.seq (.storage u mark.damaged))

/-- R300. The far hub issues a window unit's TLPs on its bus, in sequence order (State.windowIn). -/
def execWindowUnitReceived (n damaged seq : Nat) (unit : Bytes) (busStatus : Nat) (busData : Bytes) (s : State) : Ans :=
  onUnit (decide (n < 4096)) (s.unitIn n seq (.window damaged unit busStatus busData))

/-- R304. A completion unit completes the requester's read, in sequence order (State.windowCompletion). -/
def execWindowCompletionReceived (n damaged seq : Nat) (unit : Bytes) (s : State) : Ans :=
  onUnit (decide (n < 4096)) (s.unitIn n seq (.completion damaged unit))

/-- R308. A lock-refused unit completes the MRdLk with UR. -/
def execLockRefusedReceived (n : Nat) (unit : Bytes) (s : State) : Ans :=
  let w := byteAt unit 1 % 64
  let tag := leAt unit 2 2
  onUnit (decide (n < 4096))
    (match s.stor.reads.find? fun r => decide (r.tag = tag ∧ r.win = w ∧ r.locked ∧ s.win w 5 = n) with
     | none => s
     | some r =>
      (s.updStore fun x => { x with reads := x.reads.filter fun y => decide (y ≠ r) }).refuseLock (s.win w 2 - 12) w r.reqTag)

/-- R304. A read's completion has not come within CompletionTimeout: the requester gets CA and the reservation is
released. A completion of the same instant is used (R309), so the time has passed only after it. -/
def execCompletionTimeout (tag : Nat) (s : State) : Ans :=
  .next
    (match s.stor.reads.find? fun r => decide (r.tag = tag ∧ r.since + usec (s.get (ob 0x2D00 4)) < s.clock) with
     | none => s
     | some r =>
      let p := s.win r.win 2 - 12
      let s := s.updStore fun x => { x with reads := x.reads.filter fun y => decide (y ≠ r) }
      let s := s.evRate 0xA031 r.win 2 214 (sec 1) (u16 r.win ++ u16 (s.win r.win 5)) [1, 0] []
      (s.pcieErrors p 0 0 0 1).complete p r.reqTag 2 r.locked [])

/-- R303. Prefetched bytes older than PrefetchLife are discarded. -/
def execPrefetchLifeExpired (w : Nat) (s : State) : Ans :=
  onUnit (decide (w < 64)) (s.dropFetched [w] fun c => decide (c + usec (s.get (ob 0x2D00 5)) ≤ s.clock))

/-- R313. Window command 1 clears the fence of the window's tunnel. -/
def execWindowUnfence (path : Path) (w : Nat) (s : State) : Ans :=
  onPath path (decide (w < 64)) s
    (s.commandNow path (0x2D40 + w) 1 anyState [1, 2] [] 0 fun s =>
      s.updStore fun x => { x with fenced := x.fenced.filter fun n => decide (n ≠ s.winTunnel w) })

/-- R313. Window command 2 clears 0x0B-0x13. -/
def execWindowClearCounters (path : Path) (w : Nat) (s : State) : Ans :=
  onPath path (decide (w < 64)) s
    (s.commandNow path (0x2D40 + w) 2 anyState [1, 2] [] 0 fun s => s.clear ((upTo 9).map fun k => winKey w (0x0B + k)))

/-- R298. StorageGlobal command 1 sends Flush to every ready namespace of the drives attached here; with no ready drive it
commits at once with Result 0. -/
def execStorageFlush (path : Path) (s : State) : Ans :=
  onPath path true s
    (s.command path 0x2D00 1 anyState [1] [] fun s =>
      let all := ([0, 1] : List Nat).flatMap fun p =>
        if s.part.hasPcie p ∧ s.isRoot p ∧ s.get (pcieStat p 4) = 2 then (s.pcie p).spaces.map fun e => (p, e.1) else []
      let s := forAll (fun (p : Nat) s => s.updPcie p fun x => { x with drive := x.drive.filter fun c => decide (c.tunnel ≠ 0) })
        [0, 1] s
      let s := s.updStore fun x => { x with flushLeft := all.length, flushed := 0 }
      if all.isEmpty then s.cmdCommit 0x2D00 0
      else
        forAll (fun (e : Nat × Nat) s =>
          s.issue e.1 { tunnel := 0, tag := 0, nsid := e.2, op := 0, slba := 0, blocks := 0, since := s.clock }) all s)

/-- R293, R292. The server clears Bus Master Enable, or sets it again, moves the port to D3hot or out of it, and may name a
Max_Read_Request_Size of 128 to 4096 bytes. -/
def execBusMasterDisable (w : MasterWrite) (s : State) : Ans :=
  onPort s (fun q => q.hasPcie w.port)
    (if s.pcieUp w.port ∧ !s.isRoot w.port then
      s.updPcie w.port fun x =>
        { x with master := w.enable, d3hot := w.d3hot,
                 readSize := match w.readSize with
                   | some n => if [128, 256, 512, 1024, 2048, 4096].contains n then n else x.readSize
                   | none => x.readSize }
     else s)

/-- The enabled bytes of a write put into DRAM. -/
def State.dramEnabled (s : State) (addr be : Nat) (data : Bytes) : State :=
  forAll (fun (a : Nat) s => s.dramPut a (data.getD (a - addr / 4 * 4) 0)) (enabledBytes addr ((data.length + 3) / 4) be) s

/-- A device's read of the windows is withheld (R304). -/
def State.deviceReadHeld (s : State) (p addr len : Nat) : Bool :=
  let base := s.get (ob 0x2D00 1)
  let lo := s.get (pcieCfg p 0x0C)
  !decide (base ≤ addr ∧ addr < base + s.stagingSize) && decide (lo ≤ addr ∧ addr < lo + 2 ^ s.get (pcieCfg p 0x0D)) &&
    s.readHeld p addr len false

/-- A device's write is withheld: to staging while the engine's writes still take their time, to a window while its adapter
cannot admit it (R294, R304). -/
def State.deviceWriteHeld (s : State) (p addr : Nat) : Bool :=
  let base := s.get (ob 0x2D00 1)
  let lo := s.get (pcieCfg p 0x0C)
  if base ≤ addr ∧ addr < base + s.stagingSize then !s.stagingFree
  else decide (lo ≤ addr ∧ addr < lo + 2 ^ s.get (pcieCfg p 0x0D)) && s.writeHeld p addr

/-- R293. A drive's request reaches staging DRAM or the windows; its MSI-X writes are consumed by the engine; anything
else is an unsupported request. -/
def execRootPortDeviceRequest (p : Nat) (write : Bool) (addr len be tag : Nat) (data : TlpData) (s : State) : Ans :=
  onPort s (fun q => q.hasPcie p)
    (if !s.pcieUp p ∨ !s.isRoot p ∨ (!write ∧ s.deviceReadHeld p addr len) ∨ (write ∧ s.deviceWriteHeld p addr) then s
     else
      s.tlpIn p { data with tag } fun s =>
        let base := s.get (ob 0x2D00 1)
        let lo := s.get (pcieCfg p 0x0C)
        if base ≤ addr ∧ addr < base + s.stagingSize then
          if write then (s.stagingTakes data.bytes.length).dramEnabled addr be data.bytes
          else s.complete p tag 0 false (s.dramRead (addr / 4 * 4) (4 * len))
        else if lo ≤ addr ∧ addr < lo + 2 ^ s.get (pcieCfg p 0x0D) then
          if write then s.windowWrite p addr be data.bytes data.poisoned else s.windowRead p addr len be tag false
        else if write ∧ s.queueMode ∧ addr = Config.msixAddress p then s
        else
          let s := s.pcieErrors p 0 0 1 0
          if write then s else s.complete p tag 1 false [])

/-- R312. PcieStatus command 1 clears 0x05-0x0A and 0x0C. -/
def execPcieClearCounters (path : Path) (p : Nat) (s : State) : Ans :=
  onPath path (decide (p < 2)) s
    (s.commandNow path (0x2D03 + p) 1 anyState [1] [] 0 fun s =>
      s.clear (([5, 6, 7, 8, 9, 0x0A, 0x0C] : List Nat).map fun k => pcieStat p k))

end Sys2Proof.Machine
end

