-- ==== Sys2Proof/Machine/SvcOps.lean ====
section
/-!
DEFINITION. The service-port device: attachment, endpoints, toggles and halts, descriptors (R231-R233).
-/

set_option Elab.async false

namespace Sys2Proof.Machine

open Sys2Proof

def svcStat (sub : Nat) : Nat := ob 0x2A21 sub
def svcEp (e sub : Nat) : Nat := ob (0x2A30 + e) sub

/-- The device's own state changed. -/
def State.updSvc (s : State) (f : SvcDev → SvcDev) : State := { s with svc := f s.svc }

/-- DeviceState of the service-port device (R239). -/
def State.svcState (s : State) : Nat := s.get (svcStat 1)

/-- Every condition of an attach holds (R231). -/
def State.svcMay (s : State) : Bool :=
  decide (3 ≤ s.dev) && s.domainOn 12 && s.flag (ob 0x2A20 1) && decide (s.get (ob 0x2B01 3) = 1) && s.pd.vbus

/-- The device enters a state (R239, R241). -/
def State.svcGo (s : State) (new : Nat) : State :=
  let old := s.svcState
  if old = new then s
  else (s.set (svcStat 1) new).ev 0x7060 0 0 160 (u16 0 ++ u8 old ++ u8 new ++ u8 (s.get (svcStat 3)))

/-- A configured value of an endpoint as the last write of 1 to DeviceEnable took it (R232). -/
def State.scfg (s : State) (e sub : Nat) : Nat :=
  Sparse.get (objDefault s.part s.head (svcEp e sub)) s.svc.plan (16 * e + sub)

/-- The direction of an endpoint is enabled in the configuration that the host sees (R231, R232). -/
def State.epOn (s : State) (e : Nat) (isIn : Bool) : Bool :=
  if e = 0 then true
  else if !s.svc.config ∨ s.svc.dfu then false
  else if e = 1 then true
  else s.svc.app && decide (s.scfg e (if isIn then 7 else 1) = 1)

/-- The longest packet of a direction at the speed in use (R232). -/
def State.epMax (s : State) (e : Nat) (isIn : Bool) : Nat :=
  let base := if isIn then 6 else 0
  let m := s.scfg e (3 + base)
  if e = 0 then 64
  else if s.get (svcStat 3) = 1 then m
  else if s.scfg e (2 + base) = 2 then 64 else if s.scfg e (2 + base) = 3 then min m 64 else min m 1023

def toggleKey (e : Nat) (isIn : Bool) : Nat := svcEp e (if isIn then 0x0E else 0x0D)
def haltKey (e : Nat) (isIn : Bool) : Nat := svcEp e (if isIn then 0x10 else 0x0F)

/-- Toggles DATA0 and halts cleared for endpoints (R233). -/
def State.freshEps (s : State) (es : List Nat) : State :=
  let was := es.any fun e => s.flag (haltKey e false) || s.flag (haltKey e true)
  let s := s.clear ((es.map fun e => [toggleKey e false, toggleKey e true, haltKey e false, haltKey e true]).flatten)
  if was then s.raise 162 else s

/-- The endpoints of an interface (R231). -/
def faceEps (face : Nat) : List Nat :=
  if face = 0 then [1] else if face = 2 then [2, 3, 4, 5, 6, 7, 8, 9, 10, 11, 12, 13, 14, 15] else []

/-- Packets of a data stage or a reply: pieces of the longest length, and a shorter last one (R47). -/
def packets (m : Nat) : Nat → Bytes → List Bytes
  | 0, b => [b]
  | k + 1, b => if b.length < m then [b] else b.take m :: packets m k (b.drop m)

/-- IN packets put into an endpoint's queue. -/
def State.svcQueue (s : State) (e : Nat) (ps : List Bytes) : State :=
  s.updSvc fun x => { x with inQ := Sparse.put [] e (Sparse.get [] x.inQ e ++ ps) x.inQ }

/-- The key of a direction's next buffer, and of a buffer (R393). -/
def turnKey (e : Nat) (isIn : Bool) : Nat := 2 * e + ofBool isIn
def bufKey (e : Nat) (isIn : Bool) (b : Nat) : Nat := 4 * e + 2 * ofBool isIn + b

/-- A buffer of a direction of EP2-EP15 (R393). -/
def State.svcBuf (s : State) (e : Nat) (isIn : Bool) (b : Nat) : SvcBuf := Sparse.get {} s.svc.bufs (bufKey e isIn b)

/-- That buffer changed. -/
def State.setSvcBuf (s : State) (e : Nat) (isIn : Bool) (b : Nat) (v : SvcBuf) : State :=
  s.updSvc fun x => { x with bufs := Sparse.put {} (bufKey e isIn b) v x.bufs }

/-- The buffer that the device uses next in a direction (R393). -/
def State.svcTurn (s : State) (e : Nat) (isIn : Bool) : Nat := Sparse.get 0 s.svc.turn (turnKey e isIn)

/-- The next buffer's turn. -/
def State.nextTurn (s : State) (e : Nat) (isIn : Bool) : State :=
  let n := max 1 (s.scfg e (if isIn then 10 else 4))
  s.updSvc fun x => { x with turn := Sparse.put 0 (turnKey e isIn) ((s.svcTurn e isIn + 1) % n) x.turn }

/-- A management reply on the service port: one bulk transfer of EP1 IN (R47). -/
def State.svcReply (s : State) (msg : Bytes) : State :=
  s.svcQueue 1 (packets (s.epMax 1 true) (msg.length + 1) msg)

/-- The device detaches: it is out of its address and configuration, and the service port's session ends (R231, R36). A
staging download that ran fails with Result 6 (R453). -/
def State.svcDetach (s : State) : State :=
  if s.svcState = 0 then s
  else
    let s := (s.svcGo 0).send (.svcPull false false)
    let s := s.setAll [(svcStat 2, 0), (svcStat 3, 0)]
    let s := { s with svc := { plan := s.svc.plan, bufs := s.svc.bufs, turn := s.svc.turn, late := s.svc.late } }
    let s := s.endSession .service 4
    if s.cmdRuns 0x6001 ∧ (s.cmd 0x6001).value = 1 then
      ((s.cmdFail 0x6001 6).set (ob 0x6001 1) 3).ev 0xF011 0 2 0 (u16 0 ++ u16 6)
    else s

/-- SET_ADDRESS (R231). -/
def State.svcAddress (s : State) (addr : Nat) : State :=
  if (s.svcState = 2 ∨ s.svcState = 3) ∧ addr < 128 then (s.set (svcStat 2) addr).svcGo (if addr = 0 then 2 else 3) else s

/-- SET_CONFIGURATION (R233): the one configuration is 1. -/
def State.svcConfigure (s : State) (v : Nat) : State :=
  if (s.svcState = 3 ∨ s.svcState = 4) ∧ v ≤ 1 then
    ((s.updSvc fun x => { x with config := decide (v = 1) }).freshEps (faceEps 0 ++ faceEps 2)).svcGo (if v = 1 then 4 else 3)
  else s

/-- SET_INTERFACE to alternate 0 (R233). -/
def State.svcInterface (s : State) (face alt : Nat) : State :=
  if s.svcState = 4 ∧ alt = 0 then s.freshEps (faceEps face) else s

/-- A halt set or cleared (R233): clearing starts the toggle anew. -/
def State.svcHalt (s : State) (e : Nat) (isIn on : Bool) : State :=
  if e = 0 ∨ !s.epOn e isIn then s
  else
    let was := s.flag (haltKey e isIn)
    let s := s.set (haltKey e isIn) (ofBool on)
    let s := if on then s else s.set (toggleKey e isIn) 0
    if was = on then s else s.raise 162

/-- The areas of the endpoint memory: start and count of every enabled direction (R232). -/
def areas (g : Nat → Nat → Nat) : List (Nat × Nat) :=
  ((upTo 16).map fun e => [0, 6].filterMap fun b =>
    if g e (1 + b) = 1 then some (g e (5 + b), g e (6 + b)) else none).flatten

/-- No two areas share a granule. -/
def areasApart : List (Nat × Nat) → Bool
  | [] => true
  | (a, n) :: r => (r.all fun e => decide (a + n ≤ e.1 ∨ e.1 + e.2 ≤ a)) && areasApart r

/-- The endpoint memory plan of R232 does not hold. -/
def State.planBad (s : State) : Bool :=
  let g := fun e sub => s.get (svcEp e sub)
  ((upTo 16).any fun e => [0, 6].any fun b =>
    decide (g e (1 + b) = 1) &&
    (decide (g e (6 + b) < g e (4 + b) * ((g e (3 + b) + 63) / 64) ∨ 512 < g e (5 + b) + g e (6 + b)) ||
     decide (e ≠ 0 ∧ g e (2 + b) = 2 ∧ g e (3 + b) ≠ 512))) ||
  !areasApart (areas g)

/-- Granules in no enabled area (R232). -/
def State.granulesFree (s : State) : Nat :=
  512 - ((areas fun e sub => s.get (svcEp e sub)).map (·.2)).sum

/-- The endpoint configuration is taken (R232). -/
def State.takePlan (s : State) : State :=
  let plan := ((upTo 16).map fun e => (upTo 13).map fun sub => (16 * e + sub, s.get (svcEp e sub))).flatten.filter fun x =>
    decide (x.2 ≠ objDefault s.part s.head (svcEp (x.1 / 16) (x.1 % 16)))
  (s.updSvc fun x => { x with plan }).set (svcStat 7) s.granulesFree

/-- A hexadecimal digit, upper case. -/
def hexDigit (n : Nat) : Nat := if n < 10 then 48 + n else 55 + n

/-- The serial number as eight digits, in UTF-16 (R231). -/
def serialText (serial : Nat) : Bytes :=
  (((upTo 8).map fun k => u16 (hexDigit (serial / 16 ^ (7 - k) % 16)))).flatten

/-- Endpoint descriptors of the application interface (R231). -/
def State.epDescriptors (s : State) (fast : Bool) : List Bytes :=
  ((faceEps 2).map fun e => [false, true].filterMap fun isIn =>
    let b := if isIn then 6 else 0
    if s.scfg e (1 + b) = 1 then
      let kind := s.scfg e (2 + b)
      let m := s.scfg e (3 + b)
      let m := if fast then m else if kind = 2 then 64 else if kind = 3 then min m 64 else min m 1023
      some (([7, 5] : Bytes) ++ u8 (e + if isIn then 128 else 0) ++ u8 kind ++ u16 m ++ u8 (Config.svcInterval e isIn))
    else none).flatten

/-- The DFU functional descriptor (R447). -/
def dfuFunction (attributes : Nat) : Bytes := [9, 0x21] ++ u8 attributes ++ u16 1000 ++ u16 4096 ++ u16 0x0110

/-- The configuration descriptor of the service-port device (R231), or of its DFU mode (R447). -/
def State.svcConfig (s : State) (type : Nat) (fast : Bool) : Bytes :=
  let bulk := fun (e : Nat) => ([7, 5] : Bytes) ++ u8 e ++ [2] ++ u16 (if fast then 512 else 64) ++ [0]
  let self := s.get (ob 0x2A20 7)
  let attrs := 0x80 + 0x40 * self + (if s.svc.wakeCap then 0x20 else 0)
  let eps := s.epDescriptors fast
  let faces : Bytes :=
    if s.svc.dfu then [9, 4, 0, 0, 0, 0xFE, 1, 2, 4] ++ dfuFunction 0x05
    else
      [9, 4, 0, 0, 2, 0xFF, 1, 1, 0] ++ bulk 1 ++ bulk 0x81 ++ [9, 4, 1, 0, 0, 0xFE, 1, 1, 0] ++ dfuFunction 0x05 ++
      (if s.svc.app then [9, 4, 2, 0] ++ u8 eps.length ++ [0xFF, 2, 1, 0] ++ eps.flatten else [])
  [9] ++ u8 type ++ u16 (9 + faces.length) ++ u8 (if s.svc.dfu then 1 else if s.svc.app then 3 else 2) ++ [1, 0] ++
    u8 attrs ++ u8 (if self = 1 then 0 else 50) ++ faces

/-- A descriptor of the service-port device (R231); none where it is answered STALL. -/
def State.svcDescriptor (s : State) (type num : Nat) : Option Bytes :=
  let fast := decide (s.get (svcStat 3) = 1)
  if type = 1 then
    some ([18, 1, 0, 2, 0, 0, 0, 64] ++ u16 (s.get (ob 0x2A20 3)) ++ u16 (s.get (ob 0x2A20 4)) ++ [0, 0, 1, 2, 3, 1])
  else if type = 2 then some (s.svcConfig 2 fast)
  else if type = 3 then some (if num = 3 then [18, 3] ++ serialText s.part.serial else Config.usbString 1 num)
  else if type = 6 then some [10, 6, 0, 2, 0, 0, 0, 64, 1, 0]
  else if type = 7 then some (s.svcConfig 7 (!fast))
  else none

/-- The data stage of a control request to the service-port device; none where it is answered STALL (R216, R231). -/
def State.svcRequest (s : State) (b : Bytes) : Option Bytes :=
  let rt := byteAt b 0
  let rq := byteAt b 1
  let v := leAt b 2 2
  let ix := leAt b 4 2
  let e := ix % 16
  let isIn := decide (128 ≤ ix % 256)
  if rt = 0x80 then
    if rq = 0 then some (u16 (s.get (ob 0x2A20 7) + 2 * ofBool s.svc.wakeOn))
    else if rq = 6 then s.svcDescriptor (v / 256) (v % 256)
    else if rq = 8 then some (u8 (ofBool s.svc.config)) else none
  else if rt = 0x81 then if rq = 0 then some (u16 0) else if rq = 10 then some (u8 0) else none
  else if rt = 0x82 then if rq = 0 then some (u16 (s.get (haltKey e isIn))) else none
  else if rt = 0x00 then
    if rq = 5 ∨ (rq = 9 ∧ v ≤ 1) ∨ ((rq = 1 ∨ rq = 3) ∧ v = 1 ∧ s.svc.wakeCap) ∨
        (v = 2 ∧ (rq = 1 ∨ rq = 3 ∧ testKnown (ix / 256))) then some [] else none
  else if rt = 0x01 then if rq = 11 ∧ v = 0 then some [] else none
  else if rt = 0x02 then if (rq = 1 ∨ rq = 3) ∧ v = 0 ∧ s.epOn e isIn then some [] else none
  else if rt = 0x21 then
    if !s.svc.dfu then if rq = 0 then some [] else none
    else if rq = 1 ∨ rq = 4 ∨ rq = 6 then some [] else none
  else if rt = 0xA1 ∧ s.svc.dfu then
    if rq = 3 then
      some (u8 (s.get (ob 0x6001 7)) ++ leBytes 3 (Config.dfuPoll (s.get (ob 0x6001 6))) ++ u8 (s.get (ob 0x6001 6)) ++ u8 0)
    else if rq = 5 then some (u8 (s.get (ob 0x6001 6))) else none
  else none

end Sys2Proof.Machine
end

