-- ==== Sys2Proof/Machine/TrunkOps.lean ====
section
/-!
DEFINITION. Training, loss and retrain of the trunks (R59-R89).
-/

set_option Elab.async false

namespace Sys2Proof.Machine

open Sys2Proof

/-- The index of a trunk's object. -/
def tkIndex (t off : Nat) : Nat := 0x2100 + 0x100 * t + off

/-- An object of a lane (R87). -/
def laneKey (t l sub : Nat) : Nat := tk t (8 + l) sub

/-- A lane's own state. -/
def State.lane (s : State) (t l : Nat) : Lane := Sparse.get {} (s.trunk t).lanes l

/-- A lane's own state changed. -/
def State.updLane (s : State) (t l : Nat) (f : Lane → Lane) : State :=
  s.updTrunk t fun x => { x with lanes := Sparse.put {} l (f (s.lane t l)) x.lanes }

/-- The lanes that a mode uses (R59). -/
def lanesOf (m : Nat) : List Nat := if hasLp m then [0, 1, 2, 3, 4] else [0, 1, 2, 3]

/-- The figures of a mode (R59): version, payload rate in Mb/s, cell time in ps, cell times per cycle. -/
def modeVersion (m : Nat) : Nat := if m = 2 then 2 else if m = 3 then 1 else if m = 0 then 0 else 3
def modeRate (m : Nat) : Nat := if m = 1 then 100000 else if m = 4 then 20000 else if m = 0 then 0 else 40000
def modeCellTime (m : Nat) : Nat := if m = 1 then 20480 else if m = 4 then 102400 else if m = 0 then 0 else 51200
def modeCells (m : Nat) : Nat :=
  if m = 1 then 6103 else if m = 2 then 2440 else if m = 3 then 2441 else if m = 4 then 1220 else 0

/-- A trunk event (R89). -/
def State.trunkEv (s : State) (code sev k t : Nat) (args : Bytes) : State :=
  s.ev code t sev (32 + 8 * t + k) (u16 t ++ args)

/-- A running command of a block ends because its ground is gone: Status 5 and Result 0xFFFF_FFFF (R85). One that an abort
already undoes ends with its undo (R57). -/
def State.cmdEnd (s : State) (i : Nat) : State := if s.cmdRuns i then s.cmdFail i 0xFFFFFFFF else s

/-- The capability block this end sends (R75); without the twin-tip bit in mode 2 or 3 (R60). -/
def State.capBlock (s : State) (t m : Nat) : Bytes :=
  let owner := s.get (tk t 0 6)
  u8 (s.get (tk t 0 2)) ++
  u8 (s.get (tk t 0 3) % 8 + 8 * s.get (tk t 0 4)) ++
  u8 (1 + 2 * ofBool (decide (m ≠ 2 ∧ m ≠ 3)) + 4 + 8 * owner + 16 * ofBool (s.hostMode 1)) ++
  u8 (ofBool s.head) ++ u32 (s.get (ob 0x1018 4)) ++ u8 (if s.part.qh34 then 34 else 18) ++ u8 t ++ u8 (t ^^^ 1) ++
  u8 (s.get (tk t 0 5)) ++ u64 s.station ++ u32 (if owner = 1 then tableVersion (s.table (0x2614 + t)) else 0) ++ zeros 24

/-- CapabilityLocal takes the values in effect. -/
def State.showCap (s : State) (t m : Nat) : State := s.set (tk t 2 0) (leNat (s.capBlock t m))

/-- The capability block of a frame built now: CapabilityLocal with the station time in bytes 28-35 (R75). -/
def State.capNow (s : State) (t : Nat) : Bytes :=
  let b := leBytes 64 (s.get (tk t 2 0))
  b.take 12 ++ u64 s.station ++ b.drop 20

/-- The training frame that a lane sends now (R73); requests of host eye tuning stand in bytes 12 and 13 until they are
answered (R80). The order code 0xA stands in the low nibble of byte 4 (DESIGN CHOICE, log entry 230). -/
def State.trainingFrame (s : State) (t l : Nat) : Bytes :=
  let x := s.trunk t
  let st := s.train t
  let flags := ofBool x.done + 2 * ofBool (decide (st = 5)) + 4 * ofBool (x.asking && decide (st = 1))
  let (coef, pset) := if x.eyeLane = l then (64 * x.eyePre + 4 * x.eyePost, x.eyePreset) else (0, 0)
  let body := u8 0x4B ++ zeros 3 ++ u8 0x0A ++ zeros 3 ++ u8 l ++ u8 st ++ u8 flags ++ u8 0 ++ u8 coef ++ u8 pset ++
    u8 (s.lane t l).status ++ u8 0 ++ s.capNow t ++ zeros 172
  body ++ u32 (crc32c body)

/-- What a lane's training frames carry from now on. -/
def State.sendLane (s : State) (t l : Nat) : State := s.send (.training t l (s.trunk t).rate (s.trainingFrame t l))

/-- LP is powered down: the trunk goes into mode 2 or 3, from RateChange onwards (R60). -/
def State.lpDown (s : State) (t : Nat) : Bool := decide (5 ≤ s.train t ∧ s.train t ≤ 7) && !hasLp (s.tryMode t)

/-- What the training frames of every lane carry from now on (R73); LP's transmitter goes off in modes 2 and 3 (R60). -/
def State.sendTraining (s : State) (t : Nat) : State :=
  if s.lpDown t then forAll (fun l s => s.sendLane t l) [0, 1, 2, 3] (s.send (.lpOff t))
  else forAll (fun l s => s.sendLane t l) [0, 1, 2, 3, 4] s

/-- The timers of training and of a Trained trunk. -/
def trainTimers (t : Nat) : List Timer :=
  [.laneSync t, .identify t, .capabilities t, .rateSwitch t, .rateLock t, .equalise t, .verify t, .heldRetry t,
   .eyeWait t, .retrainWait t, .marker t]

/-- The trunk enters a training state: state complete is not yet set, and the state's own timers run (R77). -/
def State.enter (s : State) (t st : Nat) : State :=
  let s := (s.stopAll (trainTimers t)).setAll [(tk t 1 1, st), (tk t 1 2, 0)]
  (s.updTrunk t fun x => { x with done := false, passed := false, asking := x.asking && decide (st = 1) }).sendTraining t

/-- Every lane shows a state (R87). -/
def State.showLanes (s : State) (t v : Nat) : State := s.setAll ([0, 1, 2, 3, 4].map fun l => (laneKey t l 3, v))

/-- The cells of the receive stage are discarded and counted in CellsDiscardedTrunkLoss (R71, R78). -/
def State.dropHeld (s : State) (t : Nat) : State :=
  (s.countSat (tk t 0x10 8) (s.trunk t).held.length).updTrunk t fun x => { x with held := [] }

/-- With no trunk Trained, tunnels 1 to 4 are Off (R95). -/
def State.systemDown (s : State) : State :=
  if (upTo 4).any s.trained then s else s.setAll ([1, 2, 3, 4].map fun n => (tunKey n 0x10, 0))

/-- The trunk leaves Trained, or stays out of it: its cycle's entries are written (R89), its figures and what the far end
told read 0, running commands end, sessions and paths that it carried end (R36, R85, R87, R102). -/
def State.untrain (s : State) (t : Nat) : State :=
  let was := s.trained t
  let s := ((s.flushCycle t).cmdEnd (tkIndex t 0x20)).setAll
    [(tk t 3 0, 0), (tk t 1 0x0C, 0), (tk t 1 0x0D, 0), (tk t 1 1, 1), (tk t 1 3, 0), (tk t 1 4, 0), (tk t 1 5, 0),
      (tk t 1 6, 0), (tk t 1 7, 0), (tk t 1 8, 0)]
  if was then ((((s.dropHeld t).onUntrained t).systemDown).endTrunkSessions t).tunnelsDown t else s

/-- The trunk enters Detect (R77): the transmitters take preset 0 (R480), and what the far end told is forgotten. -/
def State.toDetect (s : State) (t : Nat) : State :=
  let s := (s.untrain t).updTrunk t fun x =>
    { cycle := x.cycle, signal := x.signal, asking := x.asking, heldReason := x.heldReason }
  ((s.showLanes t 1).showCap t 0).enter t 1

/-- The trunk goes Off (R77): transmitters off. -/
def State.trunkOff (s : State) (t : Nat) : State :=
  let s := (s.untrain t).cmdEnd (tkIndex t 0)
  let s := (s.updTrunk t fun x => { cycle := x.cycle, signal := x.signal, heldReason := x.heldReason, late := x.late }).stopAll (trainTimers t)
  ((s.setAll [(tk t 1 1, 0), (tk t 1 2, 0)]).showLanes t 0).send (.lanesOff t)

/-- A re-entry with the reason of the last Held since Trained is neither journalled nor raised (R77). -/
def State.toHeld (s : State) (t reason : Nat) : State :=
  let old := (s.trunk t).heldReason
  let s := ((s.enter t 9).set (tk t 1 2) reason).start (.heldRetry t)
  let s := s.updTrunk t fun x => { x with heldReason := reason }
  if old = reason then s
  else
    s.trunkEv 0x2030 2 4 t (u16 reason ++
      leBytes 3 (s.get (tk t 2 0)) ++ leBytes 3 (s.get (tk t 3 0)))

/-- The trunk enters RateChange for the mode at the head of the attempt list (R77). -/
def State.toRateChange (s : State) (t : Nat) : State := (s.showCap t (s.tryMode t)).enter t 5

/-- The next mode of the list, or Held with reason 3 (R76, R77). What the far end told of its former attempt counts no
more. -/
def State.nextMode (s : State) (t failing : Nat) : State :=
  let failed := s.tryMode t
  let s := (s.cmdEnd (tkIndex t 0x20)).updTrunk t fun x =>
    { x with attempts := x.attempts.drop 1, farState := 0, farDone := false, farReady := false,
             eyePreset := 0, eyePre := 0, eyePost := 0 }
  let s := s.flushCycle t
  let s := s.trunkEv 0x2050 2 0 t (u16 failed ++ u16 (s.tryMode t) ++ u16 failing)
  if (s.trunk t).attempts.isEmpty then s.toHeld t 3 else s.toRateChange t

/-- The versions both ends offer (R76). -/
def State.commonVersion (s : State) (t : Nat) : Nat :=
  let both := s.capByte t 2 16 &&& s.capByte t 3 16
  if both.testBit 3 then 3 else if both.testBit 2 then 2 else if both.testBit 1 then 1 else 0

/-- The attempt list (R76). -/
def State.attemptList (s : State) (t : Nat) : List Nat :=
  let both := s.capByte t 2 17 &&& s.capByte t 3 17
  let v := s.commonVersion t
  if v = 3 then
    let m1 := if both.testBit 0 then [1] else []
    let m2 := if both.testBit 1 && (s.capByte t 2 16 &&& s.capByte t 3 16).testBit 2 then [2] else []
    let m4 := if both.testBit 2 then [4] else []
    if (s.capByte t 2 17 ||| s.capByte t 3 17).testBit 3 then m4 ++ m1 ++ m2 else m1 ++ m2 ++ m4
  else if v = 2 then [2] else if v = 1 then [3] else []

/-- The far end has set state complete for a state: it says so, or has gone on to a later one (R77). -/
def State.farComplete (s : State) (t st : Nat) : Bool :=
  let x := s.trunk t
  decide (st < x.farState ∧ x.farState ≤ 8) || (decide (x.farState = st) && x.farDone)

/-- This end sets state complete for its present state (R77). -/
def State.setDone (s : State) (t : Nat) : State :=
  if (s.trunk t).done then s else (s.updTrunk t fun x => { x with done := true }).sendTraining t

/-- The physical lanes on which a logical ID was found (R74). -/
def foundOn (ids : List (Nat × Nat)) (l : Nat) : List Nat := (ids.filter fun e => decide (e.2 = l)).map (·.1)

/-- Identify finds IDs 0-3 each on exactly one lane and ID 4 on at most one (R77). -/
def identified (ids : List (Nat × Nat)) : Bool :=
  ([0, 1, 2, 3].all fun l => decide ((foundOn ids l).length = 1)) && decide ((foundOn ids 4).length ≤ 1)

/-- Mapping and polarity are recorded (R74). -/
def State.recordLanes (s : State) (t : Nat) : State :=
  forAll (fun l s =>
    match foundOn (s.trunk t).ids l with
    | p :: _ => s.setAll [(laneKey t l 1, p), (laneKey t l 2, ofBool ((s.trunk t).inverted.testBit p))]
    | [] => s) [0, 1, 2, 3, 4] s

/-- MinLanes of the trunk: the larger of both ends' (R79). -/
def State.minLanes (s : State) (t : Nat) : Nat := max (s.capByte t 2 27) (s.capByte t 3 27)

/-- Enough lanes for a mode (R77, R79): all four data lanes, or MinLanes of five with three data lanes. -/
def State.enough (s : State) (t m : Nat) (ok : Nat → Bool) : Bool :=
  if hasLp m then
    decide (s.minLanes t ≤ ([0, 1, 2, 3, 4].filter ok).length) && decide (3 ≤ ([0, 1, 2, 3].filter ok).length)
  else [0, 1, 2, 3].all ok

/-- The most corrected symbols with which a lane passes Verify (R79). -/
def symbolLimit (m : Nat) : Nat := if m = 1 then 258 else if m = 2 then 103 else 52

/-- A lane passes Verify (R79). -/
def State.lanePasses (s : State) (t m l : Nat) : Bool :=
  let x := s.lane t l
  let k := sget 32 (s.get (laneKey t l 4))
  x.locked && !x.verifyErased && (decide (m = 3) || decide (x.verifySymbols ≤ symbolLimit m)) && !x.verifySync &&
    decide (k.natAbs ≤ 1000 * s.get (tk t 0 8))

/-- The mask of the lanes of a list. -/
def maskOf (ls : List Nat) : Nat := ls.foldl (fun m l => setBit m l) 0

/-- The lanes of the trunk that are in a state (R87). -/
def State.lanesIn (s : State) (t v : Nat) : List Nat := [0, 1, 2, 3, 4].filter fun l => decide (s.get (laneKey t l 3) = v)

/-- A lane is Lost (R68). -/
def State.laneLost (s : State) (t l cause : Nat) : State :=
  let s := s.setAll [(laneKey t l 3, 3), (laneKey t l 0x0D, s.station)]
  let s := (s.countSat (laneKey t l 0x0C) 1).set (tk t 1 5) (maskOf (s.lanesIn t 2))
  let s := s.updLane t l fun x => { x with run := 0, good := 0, lostAt := s.clock }
  let s := s.updTrunk t fun x => { x with laneBlock := true }
  s.trunkEv 0x2010 3 1 t (u16 l ++ u16 (s.get (laneKey t l 1)) ++ u16 cause)

/-- A Lost lane with lock and 64 good groups returns to service (R69). -/
def State.laneBack (s : State) (t l : Nat) : State :=
  let x := s.lane t l
  if s.get (laneKey t l 3) = 3 ∧ x.locked ∧ 64 ≤ x.good then
    let s := s.setAll [(laneKey t l 3, 2), (laneKey t l 0x0E, s.station)]
    let s := s.set (tk t 1 5) (maskOf (s.lanesIn t 2))
    let s := s.updLane t l fun x => { x with run := 0, good := 0 }
    s.trunkEv 0x2011 1 2 t (u16 l ++ u32 ((s.clock - x.lostAt) / 1000))
  else s

/-- PlannedCtle and ProposedCtle of a trunk's lanes (R435). -/
def ctleKey (t l : Nat) : Nat := ob (0x4220 + t) (1 + l)
def ctlePlan (t l : Nat) : Nat := ob (0x4220 + t) (6 + l)

/-- The equaliser's value in service starts where eye tuning or the receiver's adaptation left it (R423). -/
def State.planStart (s : State) (t : Nat) : State :=
  s.setAll ([0, 1, 2, 3, 4].map fun l =>
    (ctleKey t l, (if s.hostMode 1 then (s.lane t l).ctle.getD (Config.measured (ctleKey t l) s.clock) else
      Config.measured (ctleKey t l) s.clock) % 32))

/-- The trunk is Trained (R77): its figures, its lanes, its credits and windows at 0 (R95, R107), and what waits for
it. -/
def State.toTrained (s : State) (t : Nat) : State :=
  let m := s.tryMode t
  let pass := (lanesOf m).filter (s.lanePasses t m)
  let fail := (lanesOf m).filter fun l => !s.lanePasses t m l
  let s := (s.stopAll (trainTimers t)).setAll
    [(tk t 1 1, 8), (tk t 1 2, 0), (tk t 1 3, modeVersion m), (tk t 1 4, m), (tk t 1 6, modeRate m),
     (tk t 1 7, modeCellTime m), (tk t 1 8, modeCells m), (tk t 1 9, s.station)]
  let s := (s.showLanes t 0).setAll (pass.map fun l => (laneKey t l 3, 2))
  let s := s.set (tk t 1 5) (maskOf pass)
  let s := (s.flushCycle t).updTrunk t fun x =>
    { lanes := x.lanes, signal := x.signal, ids := x.ids, inverted := x.inverted, rate := x.rate, line := x.line,
      rxLeft := x.rxLeft, rxDoomed := x.rxDoomed, doomed := x.doomed }
  let s := forAll (fun n s => (s.updTun (linkTun t n) fun _ => { sideA := { cond := 2 } }).set (tunKey n 0x10) 3)
    [1, 2, 3, 4] s
  let s := (s.start (.marker t)).onTrained t
  let s := s.trunkEv 0x2001 0 0 t (u16 (modeVersion m) ++ u16 m ++ u16 (maskOf pass) ++ u32 (s.get (tk t 1 0x0C)))
  let s := s.planStart t
  let s := forAll (fun l s => s.laneLost t l 7) fail s
  s.tunnelsUp t

/-- The far end's capability block is recorded (R75, R87). -/
def State.recordRemote (s : State) (t : Nat) (frame : Bytes) : State :=
  s.setAll [(tk t 3 0, leAt frame 16 64), (tk t 1 0x0C, leAt frame 20 4), (tk t 1 0x0D, leAt frame 24 1)]

/-- The outcome of a complete exchange of capabilities (R76, R77). -/
def State.judgeCaps (s : State) (t : Nat) : State :=
  let list := s.attemptList t
  if list.isEmpty then s.toHeld t 1
  else if (s.capByte t 2 18).testBit 3 == (s.capByte t 3 18).testBit 3 then s.toHeld t 2
  else (s.updTrunk t fun x => { x with attempts := list }).toRateChange t

/-- Entry to Equalise: the host's wait or the hardware's limit (R77, R80). -/
def State.toEqualise (s : State) (t : Nat) : State :=
  let s := s.enter t 6
  if s.hostMode 1 then
    let s := (s.set (tk t 1 2) 6).start (.eyeWait t)
    (s.updTrunk t fun x => { x with waitSince := s.clock }).trunkEv 0x2060 1 7 t (u32 0)
  else s.start (.equalise t)

/-- Entry to Verify (R79): the group streams of both directions run on from training frames, at places that the spec does
not give (R62). -/
def State.toVerify (s : State) (t : Nat) : State :=
  let (d, s) := s.draw
  let blocks := (Config.trainingBlocks d).map (· % 2 ^ 257)
  let s := s.updTrunk t fun x =>
    { x with line := blocks.take (blocks.length % 80), rxLeft := Config.trng d % 8, rxDoomed := false, doomed := 0 }
  let s := forAll (fun l s =>
    s.updLane t l fun x => { x with verifyErased := false, verifySymbols := 0, verifySync := false, run := 0 })
    [0, 1, 2, 3, 4] (s.enter t 7)
  s.start (.verify t)

/-- One advance of training whose conditions hold, if any (R77). -/
def State.advanceOnce (s : State) (t : Nat) : State :=
  let x := s.trunk t
  match s.train t with
  | 1 =>
    let s := if 4 ≤ popCount 5 x.signal then s.setDone t else s
    if (s.trunk t).done && s.farComplete t 1 then (s.enter t 2).start (.laneSync t) else s
  | 2 =>
    let s := if 4 ≤ popCount 5 (x.frames &&& x.signal) then s.setDone t else s
    if (s.trunk t).done && s.farComplete t 2 then (s.enter t 3).start (.identify t) else s
  | 3 =>
    let s := if identified x.ids && !x.done then (s.recordLanes t).setDone t else s
    if (s.trunk t).done && s.farComplete t 3 then ((s.showCap t 0).enter t 4).start (.capabilities t) else s
  | 4 => if x.done && s.farComplete t 4 then s.judgeCaps t else s
  | 5 =>
    if x.done then (if s.farComplete t 5 then s.toEqualise t else s)
    else if (decide (x.farState = 5) && x.farReady || decide (6 ≤ x.farState ∧ x.farState ≤ 8)) &&
        !s.timing (.rateSwitch t) && !s.timing (.rateLock t) then s.start (.rateSwitch t)
    else s
  | 6 => if x.done && s.farComplete t 6 then s.toVerify t else s
  | 7 => if x.passed && s.farComplete t 7 then s.toTrained t else s
  | _ => s

/-- Training goes on as far as its conditions hold (R77). -/
def State.advance (s : State) (t : Nat) : State :=
  (upTo 8).foldl (fun s _ => s.advanceOnce t) s

/-- The trunk goes to Detect, or Off where it was on its way there (R77). -/
def State.leaveTrained (s : State) (t : Nat) : State :=
  if (s.trunk t).closing then s.trunkOff t else s.toDetect t

/-- The trunk is lost (R70, R71); one that carries a watched tunnel latches SF2 (R417). -/
def State.trunkLost (s : State) (t cause : Nat) : State :=
  let n := (s.trunk t).held.length
  let lost := maskOf (s.lanesIn t 3)
  let s := if s.watchedOn t then s.latchSf 1 else s
  let s := ((s.cmdEnd (tkIndex t 0)).count (tk t 1 0x0B) 1).leaveTrained t
  (s.trunkEv 0x2020 3 3 t (u16 lost ++ u16 cause ++ u32 n)).advance t

/-- The causes of R70 that lie in the lanes. -/
def State.lossCheck (s : State) (t : Nat) : State :=
  if !s.trained t then s
  else
    let n := (s.lanesIn t 3).length
    if hasLp (s.get (tk t 1 4)) then (if 2 ≤ n then s.trunkLost t 1 else s) else if 1 ≤ n then s.trunkLost t 2 else s

/-- Detect, or Off where it was on its way there, and whatever its conditions allow at once (R77). -/
def State.retry (s : State) (t : Nat) : State := (s.leaveTrained t).advance t

/-- One more attempt, counted (R77). -/
def State.tryAgain (s : State) (t : Nat) : State := (s.count (tk t 1 0x0A) 1).retry t

/-- The enabled trunk of a domain that is on leaves Off (R77). -/
def State.trunkOn (s : State) (t : Nat) : State :=
  if s.train t = 0 ∧ s.get (tk t 0 1) = 1 ∧ s.domainOn (4 + t) ∧ 3 ≤ s.dev then s.retry t else s

/-- A tunnel of the trunk still drains on the hub's own account (R77, R78). -/
def State.drainsOn (s : State) (t : Nat) : Bool :=
  (s.sendingOn t).any fun n => decide (s.tstate n = 4)

/-- A trunk on its way Off goes Off once its drains are done (R77). -/
def State.settleTrunk (s : State) (t : Nat) : State :=
  if (s.trunk t).closing && !s.drainsOn t then s.trunkOff t else s

/-- Every trunk on its way Off is looked at. -/
def State.settle (s : State) : State := forAll (fun t s => s.settleTrunk t) (upTo s.part.trunks) s

/-- The trunk is told to go Off: at once, or after the drains of a Trained one (R77). -/
def State.closeTrunk (s : State) (t : Nat) : State :=
  if s.trained t then ((s.updTrunk t fun x => { x with closing := true }).drainTrunk t).settleTrunk t
  else if s.train t = 0 then s else s.trunkOff t

/-- A Trained trunk starts to retrain (R78): `reason` 1 command, 2 mode change, 3 far request. -/
def State.startRetrain (s : State) (t reason : Nat) : State :=
  if (s.trunk t).retrain ≠ 0 then s
  else
    let bounds := ((s.sendingOn t).filter fun n => decide (s.tstate n = 3)).map fun n => s.get (tunKey n 0x0D)
    (s.updTrunk t fun x =>
      { x with retrain := reason, retrainBound := if bounds.isEmpty then 2000 else bounds.foldl max 0 }).drainTrunk t

/-- Both ends have asked to retrain: the trunk enters Detect (R78). -/
def State.retrainCheck (s : State) (t : Nat) : State :=
  if (s.trunk t).reqSent && (s.trunk t).reqGot then s.retry t else s

/-- The retrain command is undone (R57): the trunk stays Trained, unless the far end has asked too, and the tunnels
drained for it leave Off again. -/
def State.undoRetrain (s : State) (t : Nat) : State :=
  if (s.trunk t).reqGot then s.updTrunk t fun x => { x with retrain := 3 }
  else
    let s := s.updTrunk t fun x => { x with retrain := 0, reqDue := false }
    forAll (fun n s => s.tryStart n) s.liveTunnels s

/-- A host write to TrunkControl takes a Held trunk to Detect (R77). -/
def State.heldWrite (s : State) (t : Nat) : State := if s.train t = 9 then s.tryAgain t else s

end Sys2Proof.Machine
end

