-- ==== Sys2Proof/Machine/Trunk.lean ====
section
/-!
DEFINITION. The commands of the trunks: codeword groups, training, retrain, control cells and TrunkControl (R59-R89).
-/

set_option Elab.async false

namespace Sys2Proof.Machine

open Sys2Proof

/-- The codeword of a lane is taken as the decoder reports it: none past 7 symbol errors, and in modes 1 and 4 none
whose marker names another lane (R64). -/
def wordGood (m : Nat) (marker : Bool) (w : Codeword) : Bool :=
  w.good && decide (w.symbols ≤ 7) && !(hasLp m && marker && w.wrongLane)

/-- The run of erased codewords that makes a lane Lost (R68). -/
def runLimit (m : Nat) : Nat := if m = 1 then 8 else if m = 2 then 3 else 1

/-- One lane's part in a group: its counters, its run, and what Verify observes (R64, R67, R79). -/
def State.laneWord (s : State) (t m l : Nat) (marker : Bool) (w : Codeword) : State :=
  let ok := wordGood m marker w
  let s := s.countSat (laneKey t l 5) 1
  if s.get (laneKey t l 3) = 3 then
    (s.countSat (laneKey t l 0x0A) 1).updLane t l fun x => { x with good := if ok then x.good + 1 else 0 }
  else if ok then
    let s := if w.symbols = 0 then s else (s.countSat (laneKey t l 6) 1).countSat (laneKey t l 7) w.symbols
    let s := if marker then s.set (laneKey t l 4) (sput 32 w.skew) else s
    s.updLane t l fun x => { x with run := 0, verifySymbols := x.verifySymbols + w.symbols }
  else
    (s.countSat (laneKey t l 8) 1).updLane t l fun x => { x with run := x.run + 1, verifyErased := true }

/-- A lane of the group is erased (R64). -/
def State.erased (s : State) (t m : Nat) (marker : Bool) (words : List Codeword) (l : Nat) : Bool :=
  decide (s.get (laneKey t l 3) = 3) || !wordGood m marker (words.getD l {})

/-- The receive stamp of a marker, normalised to L0 by the reference lane's skew (R84). -/
def State.normalised (s : State) (t stamp : Nat) : Nat :=
  let ref := ([0, 1, 2, 3].filter fun l => decide (s.get (laneKey t l 3) = 2)).headD 0
  (((stamp * 1000 : Nat) - sget 32 (s.get (laneKey t ref 4))) / 1000).toNat

/-- A valid marker restarts the marker timer, gives a receive stamp and sets the count from which the next is predicted
(R63, R70, R84). -/
def State.markerGot (s : State) (t number stamp : Nat) : State :=
  ((s.updTrunk t fun x => { x with markerRx := s.normalised t stamp, farCycle := number, farNext := wrapAdd 32 number 1 }).keepRx t number
    (s.normalised t stamp)).start (.marker t)

/-- The erased lanes of a group rebuilt, or the group's cells discarded, and counted (R65): `d` are the data lanes erased. -/
def State.groupFate (s : State) (t m : Nat) (d : List Nat) (lpErased delivered xorZero : Bool) (touched : Nat) : State :=
  if d.isEmpty then
    if lpErased then s.countSat (tk t 0x10 3) 1
    else if hasLp m && !xorZero then
      (s.countSat (tk t 0x10 5) 1).evCycle 0x2041 t 2 (32 + 8 * t + 6) t (u16 t ++ u32 (s.trunk t).cycle) [1] []
    else s
  else if delivered then (s.countSat (laneKey t (d.headD 0) 9) 1).countSat (tk t 0x10 2) 1
  else
    (((s.countSat (tk t 0x10 4) 1).countSat (tk t 0x10 6) touched).updTrunk t fun x => { x with groups := x.groups + 1 }).evCycle
      0x2040 t 3 (32 + 8 * t + 5) t (u16 t ++ u32 (s.trunk t).cycle) [1, touched] []

/-- The lanes in service whose run of bad words has reached the limit (R66). -/
def State.losing (s : State) (t m : Nat) : List Nat :=
  (lanesOf m).filter fun l => decide (s.get (laneKey t l 3) = 2) && decide (runLimit m ≤ (s.lane t l).run)

/-- A predicted marker passes unseen: the count goes on (R63). -/
def State.markerPassed (s : State) (t : Nat) : State := s.updTrunk t fun x => { x with farNext := wrapAdd 32 x.farNext 1 }

/-- A trained trunk after a group: its marker, and the lanes that come back or are lost (R65, R66). -/
def State.groupAfter (s : State) (t m : Nat) (marker : Option Nat) (stamp : Nat) (delivered : Bool) : State :=
  let s := match marker with
    | some n => if delivered then s.markerGot t n stamp else (s.countSat (tk t 0x10 7) 1).markerPassed t
    | none => s
  (forAll (fun l s => s.laneLost t l 5) (s.losing t m) (forAll (fun l s => s.laneBack t l) (lanesOf m) s)).lossCheck t

/-- The cells in a received group (R62): how many have a block in it, and how many blocks of the last are still to come.
A marker takes four positions, `idles` times four are idle blocks, `left` blocks belong to a cell of the group before. -/
def cellsIn (left : Nat) (marker : Bool) (idles : Nat) : Nat × Nat :=
  let room := 80 - 4 * ofBool marker - 4 * min idles 19
  let old := min left room
  ((if old = 0 then 0 else 1) + (room - old + 7) / 8, (8 - (room - old) % 8) % 8 + (left - old))

/-- The cells of a received group (R65): those of an uncorrectable one are discarded, each once, and their number is what
the second component tells. -/
def State.groupCells (s : State) (t : Nat) (delivered marker : Bool) (idles : Nat) : State × Nat :=
  let x := s.trunk t
  let (touched, left) := cellsIn x.rxLeft marker idles
  let gone := if delivered then 0 else touched - ofBool (x.rxDoomed && decide (x.rxLeft ≠ 0))
  (s.updTrunk t fun x =>
    { x with rxLeft := left, rxDoomed := !delivered && decide (left ≠ 0), doomed := x.doomed + gone }, gone)

/-- A cell comes from the line: one of an uncorrectable group is discarded and told by true (R65). -/
def State.lineIn (s : State) (t : Nat) : Bool × State :=
  if (s.trunk t).doomed = 0 then (false, s) else (true, s.updTrunk t fun x => { x with doomed := x.doomed - 1 })

/-- A group of a mode, with the lanes that came erased: each lane's word, then the group's fate. -/
def State.groupIn (s : State) (t m : Nat) (er : List Nat) (words : List Codeword) (xorZero : Bool) (marker : Option Nat)
    (stamp idles : Nat) : State :=
  let d := er.filter fun l => decide (l < 4)
  let delivered := d.isEmpty || (decide (d.length = 1) && hasLp m && !er.contains 4)
  let s := forAll (fun l s => s.laneWord t m l marker.isSome (words.getD l {})) (lanesOf m) (s.countSat (tk t 0x10 1) 1)
  let (s, gone) := s.groupCells t delivered marker.isSome idles
  let s := s.groupFate t m d (er.contains 4) delivered xorZero gone
  if !s.trained t then s else s.groupAfter t m marker stamp delivered

/-- What a codeword group does on a trunk (R65). -/
def State.group (s : State) (t : Nat) (words : List Codeword) (xorZero : Bool) (marker : Option Nat)
    (stamp idles : Nat) : State :=
  let m := s.lineMode t
  s.groupIn t m ((lanesOf m).filter (s.erased t m marker.isSome words)) words xorZero marker stamp idles

/-- R65. A codeword group is decoded per lane, rebuilt from parity or discarded; a group of a trunk that neither runs
nor verifies is none. `idles` tells how many times R61's idle blocks stand in it. -/
def execCodewordGroupReceived (t : Nat) (words : List Codeword) (xorZero : Bool) (marker : Option Nat)
    (stamp idles : Nat) (s : State) : Ans :=
  onPort s (fun q => q.hasTrunk t)
    (if (s.train t = 8 ∧ s.get (tk t 1 4) ≠ 3) ∨ (s.train t = 7 ∧ s.tryMode t ≠ 3)
     then s.group t words xorZero marker stamp idles else s)

/-- R68. A lane loses signal, CDR lock, eye or block lock. -/
def execLaneSignalLost (t lane cause : Nat) (s : State) : Ans :=
  let u := s.updLane t lane fun x => { x with locked := x.locked && decide (cause = 3), good := 0, verifyErased := true }
  onPort s (fun q => q.hasTrunk t && decide (lane < 5))
    (if s.trained t then
      if s.get (laneKey t lane 3) = 2 then (u.laneLost t lane cause).lossCheck t else u
     else u)

/-- R70. No valid marker for 250 µs after the last valid one. -/
def execMarkerTimeout (t : Nat) (s : State) : Ans :=
  onPort s (fun q => q.hasTrunk t) (if s.trained t && s.due (.marker t) (usec 250) then s.trunkLost t 3 else s)

/-- The sum rule and ranges of the transmit coefficients (R480). -/
def coefOk (pre main post : Int) : Bool :=
  decide (0 ≤ pre ∧ pre ≤ 8 ∧ 20 ≤ main ∧ main ≤ 40 ∧ 0 ≤ post ∧ post ≤ 16 ∧ pre + main + post ≤ 40)

/-- The presets of R480. -/
def preset : Nat → Nat × Nat × Nat
  | 1 => (0, 36, 4)
  | 2 => (0, 32, 8)
  | 3 => (0, 28, 12)
  | 4 => (2, 32, 6)
  | 5 => (4, 30, 6)
  | 6 => (4, 26, 10)
  | 7 => (6, 24, 10)
  | _ => (0, 40, 0)

/-- The change that a request asks of a coefficient: 1 increment, 2 decrement. -/
def stepOf (r : Nat) : Int := if r = 1 then 1 else if r = 2 then -1 else 0

/-- The coefficients with one of them, 0 pre, 1 main, 2 post, changed by a request, and its status field (R480). -/
def Lane.request (x : Lane) (k r : Nat) : Lane :=
  let old := if k = 0 then x.reqPre else if k = 1 then x.reqMain else x.reqPost
  let x := if k = 0 then { x with reqPre := r } else if k = 1 then { x with reqMain := r } else { x with reqPost := r }
  let sh := 6 - 2 * k
  let put := fun (x : Lane) (v : Nat) => { x with status := x.status - field x.status sh 2 <<< sh + v <<< sh }
  if r = 0 ∨ r = 3 then put x 0
  else if r = old then x
  else
    let pre := (x.pre : Int) + (if k = 0 then stepOf r else 0)
    let main := (x.main : Int) + (if k = 1 then stepOf r else 0)
    let post := (x.post : Int) + (if k = 2 then stepOf r else 0)
    if coefOk pre main post then put { x with pre := pre.toNat, main := main.toNat, post := post.toNat } 1 else put x 2

/-- The far end's coefficient and preset requests for a lane (R480): pre-cursor, main cursor, post-cursor. -/
def Lane.requests (x : Lane) (coef pset : Nat) : Lane :=
  if 1 ≤ pset ∧ pset ≤ 7 then
    if pset = x.reqPreset then x
    else
      let (a, b, c) := preset pset
      { x with pre := a, main := b, post := c, status := 0x54, reqPreset := pset }
  else
    (({ x with reqPreset := 0 }.request 0 (field coef 6 2)).request 1 (field coef 4 2)).request 2 (field coef 2 2)

/-- A running apply-lane command commits when the far end's status answers its requests: Result 1 where one was at the
limit (R80). -/
def State.eyeAnswer (s : State) (t l status : Nat) : State :=
  let x := s.trunk t
  let i := tkIndex t 0x20
  let asked := [(x.eyePre, field status 6 2), (x.eyePost, field status 2 2)].filter fun e => decide (e.1 ≠ 0)
  let answers := if x.eyePreset ≠ 0 then [field status 6 2, field status 4 2, field status 2 2] else asked.map (·.2)
  if s.cmdRuns i ∧ (s.cmd i).value = 1 ∧ x.eyeLane = l ∧
      answers.all (fun a => decide (a = 1 ∨ a = 2)) then
    let s := s.updTrunk t fun x => { x with eyePreset := 0, eyePre := 0, eyePost := 0 }
    (s.sendLane t l).cmdCommit i (ofBool (answers.any fun a => decide (a = 2)))
  else s

/-- A good training frame is taken (R73-R77, R480). -/
def State.frame (s : State) (t phys : Nat) (inverted : Bool) (f : Bytes) : State :=
  let id := byteAt f 8
  let st := byteAt f 9
  let flags := byteAt f 10
  let mine := s.train t
  if 3 ≤ mine ∧ mine ≤ 7 ∧ flags.testBit 2 then s.retry t
  else
    let before := (s.trunk t).farState
    let s := s.updTrunk t fun x =>
      { x with frames := setBit x.frames phys, ids := if mine ≤ 3 then Sparse.ins phys id (Sparse.drop phys x.ids) else x.ids,
               inverted := if mine ≤ 3 then putBit x.inverted phys inverted else x.inverted,
               farState := st, farDone := flags.testBit 0, farReady := flags.testBit 1,
               asking := x.asking && decide (mine = 1) }
    let old := s.lane t id
    let s := if id < 5 then s.updLane t id fun x => x.requests (byteAt f 12) (byteAt f 13) else s
    let s := if s.lane t id = old then s else s.sendLane t id
    let s := s.eyeAnswer t id (byteAt f 14)
    let s := if mine = 4 ∧ 4 ≤ st then (s.recordRemote t f).setDone t else s
    if (mine = 6 ∨ mine = 7) ∧ (st = 5 ∨ st = 9) ∧ 6 ≤ before then (s.nextMode t 0).advance t else s.advance t

/-- A frame comes on LP's receiver while that lane is powered down: it is ignored (R60). -/
def State.fromLp (s : State) (t phys : Nat) (f : Bytes) : Bool :=
  s.lpDown t && (decide (byteAt f 8 = 4) || (foundOn (s.trunk t).ids 4).contains phys)

/-- R73. A training frame is received; one whose CRC fails is ignored. -/
def execTrainingFrameReceived (t phys : Nat) (inverted : Bool) (frame : Bytes) (s : State) : Ans :=
  onPort s (fun q => q.hasTrunk t)
    (if crcGood frame && decide (phys < 5) && decide (1 ≤ s.train t ∧ s.train t ≤ 7) && !s.fromLp t phys frame then
       s.frame t phys inverted frame
     else s)

/-- TrunkEnable takes its value (R77). -/
def State.trunkSwitch (s : State) (t value : Nat) : State :=
  let s := s.set (tk t 0 1) value
  if value = 0 then s.closeTrunk t
  else
    let s := s.updTrunk t fun x => { x with closing := false }
    let s := forAll (fun n s => s.tryStart n) s.liveTunnels s
    if s.train t = 9 then s.heldWrite t else s.trunkOn t

/-- R77. TrunkEnable is written. -/
def execTrunkEnableWrite (path : Path) (t value : Nat) (s : State) : Ans :=
  onPath path (decide (t < 4)) s
    (s.writeNum path (tkIndex t 0) 1 value [] fun s => s.trunkSwitch t value)

/-- R77. The physical receive lanes with signal. -/
def execTrunkSignalDetect (t mask : Nat) (s : State) : Ans :=
  onPort s (fun q => q.hasTrunk t) ((s.updTrunk t fun x => { x with signal := mask % 32 }).advance t)

/-- R77. LaneSync has lasted 10 ms without success. -/
def execLaneSyncTimeout (t : Nat) (s : State) : Ans :=
  onPort s (fun q => q.hasTrunk t)
    (if s.train t = 2 ∧ !(s.trunk t).done ∧ s.due (.laneSync t) (msec 10) then s.tryAgain t else s)

/-- R77. Identify has lasted 10 ms without a full lane map. -/
def execIdentifyTimeout (t : Nat) (s : State) : Ans :=
  onPort s (fun q => q.hasTrunk t)
    (if s.train t = 3 ∧ !(s.trunk t).done ∧ s.due (.identify t) (msec 10) then s.toHeld t 4 else s)

/-- R77. Capabilities has lasted 50 ms without a complete exchange. -/
def execCapabilitiesTimeout (t : Nat) (s : State) : Ans :=
  onPort s (fun q => q.hasTrunk t) (if s.train t = 4 ∧ s.due (.capabilities t) (msec 50) then s.tryAgain t else s)

/-- The lane rate of a mode, kb/s (R59). -/
def laneRate (m : Nat) : Nat := if m = 1 then 25781250 else if m = 4 then 5156250 else 10312500

/-- R77. 100 µs after the later ready bit the hub switches to the new lane rate; the lanes lock anew. -/
def execRateSwitchDelayExpired (t : Nat) (s : State) : Ans :=
  onPort s (fun q => q.hasTrunk t)
    (if s.train t = 5 ∧ s.due (.rateSwitch t) (usec 100) then
      let s := s.updTrunk t fun x => { x with rate := laneRate (s.tryMode t) }
      forAll (fun l s => s.updLane t l fun x => { x with locked := false }) [0, 1, 2, 3, 4]
        (((s.stop (.rateSwitch t)).start (.rateLock t)).sendTraining t)
     else s)

/-- R77. No lock 1 ms after the rate change: the next mode. -/
def execRateChangeLockTimeout (t : Nat) (s : State) : Ans :=
  onPort s (fun q => q.hasTrunk t)
    (if s.train t = 5 ∧ !(s.trunk t).done ∧ s.due (.rateLock t) (msec 1) then
      (s.nextMode t (maskOf ((lanesOf (s.tryMode t)).filter fun l => !(s.lane t l).locked))).advance t
     else s)

/-- R77. Hardware adaptation completes. -/
def execEqualiseAdaptationComplete (t : Nat) (s : State) : Ans :=
  onPort s (fun q => q.hasTrunk t)
    (if s.train t = 6 ∧ !s.hostMode 1 then ((s.stop (.equalise t)).setDone t).advance t else s)

/-- R77. 500 ms have passed in Equalise while this end's adaptation is not complete. -/
def execEqualiseTimeout (t : Nat) (s : State) : Ans :=
  onPort s (fun q => q.hasTrunk t)
    (if s.train t = 6 ∧ !(s.trunk t).done ∧ s.due (.equalise t) (msec 500) then (s.nextMode t 0).advance t else s)

/-- R79. The Verify window ends. -/
def execVerifyWindowEnd (t : Nat) (s : State) : Ans :=
  let m := s.tryMode t
  onPort s (fun q => q.hasTrunk t)
    (if s.train t = 7 ∧ s.due (.verify t) (msec 10) then
      let s := s.stop (.verify t)
      if s.enough t m (s.lanePasses t m) then
        ((s.updTrunk t fun x => { x with passed := true }).setDone t).advance t
      else (s.nextMode t (maskOf ((lanesOf m).filter fun l => !s.lanePasses t m l))).advance t
     else s)

/-- R77. RetryInterval has passed in Held. -/
def execHeldRetryExpired (t : Nat) (s : State) : Ans :=
  onPort s (fun q => q.hasTrunk t)
    (if s.train t = 9 ∧ s.due (.heldRetry t) (msec (s.get (tk t 0 7))) then s.tryAgain t else s)

/-- R80. EV_TRUNK_EYE_WAIT is repeated every 10 s. -/
def execEyeWaitRepeat (t : Nat) (s : State) : Ans :=
  onPort s (fun q => q.hasTrunk t)
    (if s.train t = 6 ∧ s.due (.eyeWait t) (sec 10) then
      (s.start (.eyeWait t)).trunkEv 0x2060 1 7 t (u32 ((s.clock - (s.trunk t).waitSince) / 1000000000))
     else s)

/-- R86. TrunkControl command 1 retrains: a Trained trunk drains first, any other goes to Detect at once. -/
def execTrunkRetrain (path : Path) (t : Nat) (s : State) : Ans :=
  let i := tkIndex t 0
  onPath path (decide (t < 4)) s
    (s.command path i 1 anyState [1, 2] (kindIf (decide (s.train t = 0)) 6) fun s =>
      if s.trained t then
        if (s.trunk t).reqSent then s.cmdCommit i 0 else s.startRetrain t 1
      else ((s.updTrunk t fun x => { x with asking := true }).toDetect t |>.cmdCommit i 0).advance t)

/-- The counters of offsets 0x08-0x10 (R86-R88). -/
def trunkCounters (t : Nat) : List Nat :=
  [0, 1, 2, 3, 4].flatMap (fun l => [5, 6, 7, 8, 9, 0x0A, 0x0B, 0x0C].map (laneKey t l)) ++
    [1, 2, 3, 4, 5, 6, 7, 8].map (tk t 0x10)

/-- R86. TrunkControl command 2 clears the lane and group counters. -/
def execTrunkClearCounters (path : Path) (t : Nat) (s : State) : Ans :=
  onPath path (decide (t < 4)) s
    (s.commandNow path (tkIndex t 0) 2 anyState [1, 2] [] 0 fun s => s.clear (trunkCounters t))

/-- R78. Once the drains are done the retrain request is set in a link control block, which leaves in the next control
cell that R82 allows. -/
def execRetrainRequestSend (t : Nat) (s : State) : Ans :=
  let x := s.trunk t
  onPort s (fun q => q.hasTrunk t)
    (if s.trained t && decide (x.retrain ≠ 0) && !x.reqSent && !s.drainsOn t then
      s.updTrunk t fun x => { x with reqDue := true }
     else s)

/-- R78. The far request has not arrived within one drain bound. -/
def execRetrainWaitTimeout (t : Nat) (s : State) : Ans :=
  onPort s (fun q => q.hasTrunk t)
    (if s.trained t && (s.trunk t).reqSent && s.due (.retrainWait t) (usec (s.trunk t).retrainBound) then s.retry t
     else s)

/-- The eye commands are for host mode in Equalise (R80). -/
def State.eyeKinds (s : State) (t : Nat) : List Nat := kindIf (!(s.hostMode 1 && decide (s.train t = 6))) 6

/-- The coding of a coefficient step in byte 12 (R73): 1 increment, 2 decrement. -/
def stepCode (v : Nat) : Nat := if v = 1 then 1 else if v = 0xFF then 2 else 0

/-- R80. TrunkEyeTuning command 1: the selected lane's receiver settings take effect, and the requests go out in its
training frames. -/
def execEyeApplyLane (path : Path) (t : Nat) (s : State) : Ans :=
  let i := tkIndex t 0x20
  onPath path (decide (t < 4)) s
    (s.command path i 1 anyState [1, 2] (s.eyeKinds t) fun s =>
      let l := s.get (tk t 0x20 1)
      let s := s.updTrunk t fun x =>
        { x with eyeLane := l, eyePreset := s.get (tk t 0x20 4), eyePre := stepCode (s.get (tk t 0x20 5)),
                 eyePost := stepCode (s.get (tk t 0x20 6)) }
      let s := s.updLane t l fun x => { x with ctle := some (s.get (tk t 0x20 2)), dfe := some (s.get (tk t 0x20 3)) }
      let x := s.trunk t
      let s := s.sendLane t l
      if x.eyePreset = 0 ∧ x.eyePre = 0 ∧ x.eyePost = 0 then s.cmdCommit i 0 else s)

/-- R80. TrunkEyeTuning command 2 sets state complete for Equalise. -/
def execEyeFinishEqualise (path : Path) (t : Nat) (s : State) : Ans :=
  let i := tkIndex t 0x20
  onPath path (decide (t < 4)) s
    (s.command path i 2 anyState [1, 2] (s.eyeKinds t) fun s =>
      ((s.setDone t).cmdCommit i 0).advance t)

/-- A credit block's totals (R83, R107), TC7 first. -/
def creditTotals (b : Bytes) : List (Nat × Nat) :=
  (upTo 8).map fun k => (7 - k, field (leAt b 2 12) (12 * k) 12)

/-- One control block (R83). -/
def State.block (s : State) (t : Nat) (b : Bytes) : State :=
  match byteAt b 0 with
  | 1 => s.updTrunk t fun x => { x with back := (creditTotals b).foldl (fun m e => Sparse.put 0 e.1 e.2 m) x.back }
  | 2 => s.gateMarker t (leAt b 2 4) (leAt b 6 4) (leAt b 10 4)
  | 3 => s.timeTransfer t (leAt b 2 2) (leAt b 4 5) (leAt b 9 2) (leAt b 11 5)
  | 4 => s.updTrunk t fun x => { x with farLanes := byteAt b 2, farLost := byteAt b 3, farUncorrectable := leAt b 4 4 }
  | 5 =>
    if byteAt b 2 = 1 then ((s.updTrunk t fun x => { x with reqGot := true }).startRetrain t 3).retrainCheck t else s
  | _ => s

/-- The control blocks of a control cell. -/
def blocksOf : Nat → Bytes → List Bytes
  | 0, _ => []
  | n + 1, b => fitBytes 16 b :: blocksOf n (b.drop 16)

/-- The blocks of a control cell are consumed one by one (R81). -/
def State.controlCell (s : State) (t : Nat) (c : Cell) : State :=
  forAll (fun b s => if s.trained t then s.block t b else s) (blocksOf (min 14 (c.len / 16)) c.payload) s

/-- R81. A control cell that passes its CRC is consumed block by block; one that fails is counted under
EV_CELL_CRC (R94). -/
def execControlCellReceived (t : Nat) (cell : Bytes) (s : State) : Ans :=
  let c := parseCell cell
  onPort s (fun q => q.hasTrunk t)
    (let (gone, s) := s.lineIn t
     if gone || !s.trained t then s
     else if !crcGood cell then s.cellCrc t 1 0
     else if c.tunnel ≠ 0 then s
     else s.controlCell t c)

/-- The cycle number of a marker of mode 3, which carries its low 30 bits; the others are those of the predicted count
(R63). -/
def nextCycle (predicted low : Nat) : Nat := predicted / 2 ^ 30 * 2 ^ 30 + low % 2 ^ 30

/-- R68. In mode 3 a lane's 66b block arrives: runs of invalid sync headers lose the lane, and a marker is stamped. -/
def execPcsBlockReceived (t lane : Nat) (valid : Bool) (marker : Option Nat) (stamp : Nat) (skew : Int) (s : State) :
    Ans :=
  let verify := decide (s.train t = 7 ∧ s.tryMode t = 3)
  let runs := decide (s.trained t = true ∧ s.get (tk t 1 4) = 3)
  onPort s (fun q => q.hasTrunk t && decide (lane < 4))
    (if !verify && !runs then s
     else
      let s := if valid then s else s.countSat (laneKey t lane 0x0B) 1
      let s := s.updLane t lane fun x =>
        { x with run := if valid then 0 else x.run + 1, verifySync := x.verifySync || !valid }
      let s := if valid && marker.isSome then s.set (laneKey t lane 4) (sput 32 skew) else s
      if !runs then s
      else
        let s := match marker with
          | some n =>
            if lane ≠ 0 then s
            else if valid then s.markerGot t (nextCycle (s.trunk t).farNext n) stamp else s.markerPassed t
          | none => s
        if s.get (laneKey t lane 3) = 2 ∧ 16 ≤ (s.lane t lane).run then (s.laneLost t lane 6).lossCheck t else s)

/-- R69. A lane's receiver has CDR lock and block lock: a Lost lane may return, and RateChange may go on (R77). -/
def execLaneLockAcquired (t lane : Nat) (s : State) : Ans :=
  onPort s (fun q => q.hasTrunk t && decide (lane < 5))
    (let s := s.updLane t lane fun x => { x with locked := true }
     if s.trained t then s.laneBack t lane
     else if s.train t = 5 && s.timing (.rateLock t) && s.enough t (s.tryMode t) (fun l => (s.lane t l).locked) then
       ((s.stop (.rateLock t)).setDone t).advance t
     else s)

end Sys2Proof.Machine
end

