-- ==== Sys2Proof/Machine/Domains.lean ====
section
/-!
DEFINITION. The switchable power domains (R19-R21, R380): what stops with a domain, what starts again, and the commands
that switch and isolate them.
-/

set_option Elab.async false

namespace Sys2Proof.Machine

open Sys2Proof

/-- DomainState of R20: 0 off, 1 powering, 2 on, 3 fault. -/
def domKey (dom : Nat) : Nat := ob 0x2021 (dom + 1)

/-- DomainEnable of R20. -/
def enKey (dom : Nat) : Nat := ob 0x2020 (dom + 1)

/-- The latches of the sources of domains that are off are taken back (R21). -/
def State.dropOffSources (s : State) : State :=
  { s with irq := { s.irq with latch := (upTo 384).foldl (fun m k => if s.srcOff k then clrBit m k else m) s.irq.latch } }

/-- What a domain held stops: its links go down, its ports and outputs are off, its memory is lost (R21). -/
def State.domainStops (s : State) (dom : Nat) (failed : Bool) : State :=
  let s := forAll (fun fp s => if 4 ≤ fp ∧ portDomain fp = dom then s.emptyAdapter fp else s) (upTo 20) s
  if 4 ≤ dom ∧ dom < 8 then if failed then s.trunkOff (dom - 4) else s.closeTrunk (dom - 4)
  else if dom = 8 then if failed then s.displaysFail else s.displaysOff
  else if dom = 9 then { s with dram := [] }
  else if dom = 10 then forAll (fun e s => s.ethLinkLost e) ((upTo 8).filter s.part.hasEth) s
  else if dom = 11 then forAll (fun p s => s.pcieLinkLost p) ((upTo 2).filter s.part.hasPcie) s
  else if dom = 12 then (s.usbPortsOff false).svcDetach
  else { s with fld := { s.fld with uarts := [], lines := [], held := [], cans := s.fld.cans.filter fun e => decide (e.1 = 0) } }

/-- The domain is without power, reporting `report` (R20, R21). -/
def State.domainDown (s : State) (dom report : Nat) : State :=
  let fault := decide (s.get (domKey dom) = 3)
  if s.domainOn dom then ((s.set (domKey dom) report).domainStops dom (decide (report = 3))).dropOffSources
  else
    let s := (s.set (domKey dom) report).dropOffSources
    if dom = 8 ∧ fault ∧ report = 0 then s.displaysOff else s

/-- The domain's power-good stands: it has not failed, and the rails it takes are good (R19-R21, R379, R385). -/
def State.powerGood (s : State) (dom : Nat) : Bool :=
  !s.power.failed.contains dom &&
  [1, 2, 3, 4].all fun r => !(railDomains r).contains dom || (s.get (railKey 8)).testBit r

/-- An enabled domain reads on, and what its configuration asks for starts (R20, R77, R179); without power-good it reads
fault (R20; log entry 135). -/
def State.domainUp (s : State) (dom : Nat) : State :=
  let was := s.get (domKey dom)
  if !s.powerGood dom then s.set (domKey dom) 3
  else
  let s := s.set (domKey dom) 2
  if was = 2 then s
  else if 4 ≤ dom ∧ dom < 8 then s.trunkOn (dom - 4)
  else if dom = 8 then if was = 3 then s.displaysGood.displaysOn else s.displaysOn
  else s

/-- The storage function is in NVMe queue-engine mode, or PD8 on, while PD9 would be off (R21). -/
def State.dramMissing (s : State) (dom v : Nat) : Bool :=
  let on (k : Nat) := if k = dom then decide (v = 1) else s.flag (enKey k)
  !on 9 && (on 8 || !s.hostMode 7)

/-- The kinds a DomainEnable write adds (R21). -/
def State.domainKinds (s : State) (dom v : Nat) : List Nat := kindIf (s.dramMissing dom v) 7

/-- A DomainEnable takes its value (R20). -/
def State.domainSwitch (s : State) (dom v : Nat) : State :=
  let s := s.set (enKey dom) v
  if dom < 4 then s else if v = 1 then s.domainUp dom else s.domainDown dom 0

/-- R20, R21. A write to a DomainEnable, in Setup only. -/
def execDomainEnableWrite (path : Path) (dom value : Nat) (s : State) : Ans :=
  onPath path (decide (dom < 14)) s
    (s.writeNum path 0x2020 (dom + 1) value (s.domainKinds dom value) fun s => s.domainSwitch dom value)

/-- The domain's supply fails while it is enabled: it is isolated, reports state 3 and raises source 292 (R21, R22,
R379). -/
def State.isolate (s : State) (dom rail cause mv : Nat) : State :=
  ({ s.domainDown dom 3 with power := { s.power with failed := dom :: s.power.failed } } : State).ev
    0xD040 (rail + 1) 3 292 (u16 (rail + 1) ++ u8 cause ++ u16 mv)

/-- R21. An enabled domain's supply fails; no other domain is switched. -/
def execDomainSupplyFail (dom rail mv : Nat) (s : State) : Ans :=
  onUnit (decide (dom < 14 ∧ rail < 7))
    (if 4 ≤ dom ∧ s.flag (enKey dom) ∧ s.domainOn dom then s.isolate dom rail 1 mv else s)

/-- The domain's power-good returns, and with it the rails it takes (R20, R385). -/
def State.goodAgain (s : State) (dom : Nat) : State :=
  let rails := [1, 2, 3, 4].filter fun r => (railDomains r).contains dom
  let s := { s with power := { s.power with failed := s.power.failed.filter (· ≠ dom) } }
  s.set (railKey 8) (rails.foldl setBit (s.get (railKey 8)))

/-- R179, R20. The power-good of a domain returns; one in fault while it is enabled reads on again. -/
def execDomainGoodAgain (dom : Nat) (s : State) : Ans :=
  onUnit (decide (dom < 14))
    (if 4 ≤ dom then
      let s := s.goodAgain dom
      if s.get (domKey dom) = 3 ∧ s.flag (enKey dom) then s.domainUp dom else s
     else s)

/-- R380. The next enabled domain of the start-up order powers up t_DS after the one before reads on. -/
def execDomainPowerUpStagger (s : State) : Ans :=
  .next
    (if s.due .domainStagger 20000 then
      match s.boot.domains with
      | [] => s.stop .domainStagger
      | dom :: rest =>
        let s := { s with boot := { s.boot with domains := rest } }
        let s := if rest = [] then s.stop .domainStagger else s.start .domainStagger
        s.domainUp dom
     else s)

end Sys2Proof.Machine
end

