-- ==== Sys2Proof/Machine/KeyOps.lean ====
section
/-!
DEFINITION. The key register: making, announcing and destroying keys, the life cycle and zeroisation (R339-R352).
-/

set_option Elab.async false

namespace Sys2Proof.Machine

open Sys2Proof

/-- An object of a key slot (R359). -/
def slotKey (slot sub : Nat) : Nat := ob (slotIndex slot) sub

/-- SlotValid (R359). -/
def State.slotValid (s : State) (slot : Nat) : Bool := decide (s.get (slotKey slot 2) = 1)

/-- The key length in bits (R343). -/
def keyBits (type : Nat) : Nat := if type = 0 then 256 else if type ≤ 2 then 384 else 448

/-- The order of the P-384 group (R345). -/
def p384Order : Nat :=
  0xFFFFFFFFFFFFFFFFFFFFFFFFFFFFFFFFFFFFFFFFFFFFFFFFC7634D81F4372DDF581A0DB248B0A77AECEC196ACCC52973

/-- The key derivation of R345: input, label, context, s, type and usage. -/
def deriveKey (ki label context serial : Bytes) (type usage : Nat) : Nat :=
  let bits := keyBits type
  let part := fun i => fitBytes 48 (Config.hmacSha384 ki
    (u8 i ++ label ++ u8 0 ++ context ++ serial ++ u8 type ++ u8 usage ++ beBytes 4 bits))
  let all := (if 384 < bits then part 1 ++ part 2 else part 1)
  let v := beNat (fitBytes (bits / 8) all)
  if 3 ≤ type then v % (p384Order - 1) + 1 else v

/-- The identity key of slot 0 (R344). -/
def State.identityKey (s : State) : Nat :=
  deriveKey (beBytes 32 s.secu.root) (fitBytes 16 ("QH7 identity".toUTF8.toList.map fun b => BitVec.ofNat 8 b.toNat)) (zeros 16)
    (u32 (s.get (ob 0x1018 4))) 4 0x20

/-- KeyId of a key (R359). -/
def keyId (type key : Nat) : Nat :=
  leNat (fitBytes 8 (if 3 ≤ type then Config.sha384 (Config.ecPublic key)
    else Config.hmacSha384 (beBytes (keyBits type / 8) key)
      ("QH7 key id".toUTF8.toList.map fun b => BitVec.ofNat 8 b.toNat)))

/-- The records of data tunnels whose values are set. -/
def State.tunnelRecords (s : State) (sub : Nat) : List Nat :=
  s.objs.filterMap fun e =>
    if 0x3010 ≤ e.1 / 256 ∧ e.1 / 256 < 0x4000 ∧ e.1 % 256 = sub then some (e.1 / 256 - 0x3000) else none

/-- A slot receives a key (R346): it is valid, shows its identity, and the tunnels that name it take it up
(R104, R116). -/
def State.fillSlot (s : State) (slot key : Nat) : State :=
  let type := s.get (slotKey slot 3)
  let s := (s.setKey slot key).setAll
    [(slotKey slot 2, 1), (slotKey slot 0x0E, keyId type key),
     (slotKey slot 0x0F, if 3 ≤ type then leNat (fitBytes 96 (Config.ecPublic key)) else 0)]
  let s := forAll (fun n s => if s.get (tunKey n 0x0B) = slot then s.set (tunKey n 0x16) 0 else s)
    (s.tunnelRecords 0x0B) s
  forAll (fun n s => if s.get (tunKey n 0x0C) = slot then s.takeKey n slot else s) (s.tunnelRecords 0x0C) s

/-- A slot is emptied (R348): the key is overwritten, and an engine that used it holds a TRNG value from now on, or one of
the derivation engine while TRNG output is stopped (R356); without slot 0 there is no identity (R358). -/
def State.emptySlot (s : State) (slot : Nat) : State :=
  if !s.slotValid slot then s
  else
    let (d, s) := s.draw
    let key := if s.get (ob 0x4000 7) = 1 then Config.engineRandom d else Config.trng d
    let s := (s.setKey slot key).setAll [(slotKey slot 2, 0), (slotKey slot 0x0E, 0), (slotKey slot 0x0F, 0)]
    let s := if slot = 0 then s.setAll [(ob 0x4000 3, 0), (ob 0x4000 4, 0)] else s
    forAll (fun n s =>
      if s.get (tunKey n 0x0B) = slot ∧ s.tcfg n 0x0A = 1 ∧ s.tstate n ≠ 0 then
        s.ev 0xC023 slot 3 275 (u16 slot ++ u16 n)
      else s) (s.tunnelRecords 0x0B) s

/-- The valid slots. -/
def State.validSlots (s : State) : List Nat := (upTo 128).filter s.slotValid

/-- The slots that go with a set of slots: valid children bound to a destroyed parent, in turn (R348). -/
def State.boundTo (s : State) (roots : List Nat) : List Nat :=
  (upTo 128).foldl (fun gone k =>
    if roots.contains k then gone ++ [k]
    else if s.slotValid k && decide (s.get (slotKey k 6) = 1) && gone.contains (s.get (slotKey k 5)) then gone ++ [k]
    else gone) []

/-- Slots are destroyed with the children bound to them; other children are detached, and no mark brings any of them
back (R348). -/
def State.destroy (s : State) (roots : List Nat) (cause : Nat) : State :=
  let gone := s.boundTo roots
  let loose := s.validSlots.filter fun k => !gone.contains k && gone.contains (s.get (slotKey k 5))
  let s := forAll (fun k s => s.emptySlot k) gone s
  let s := forAll (fun k s => s.set (slotKey k 5) 0xFE) loose s
  let s := { s with secu := { s.secu with marks := s.secu.marks.filter fun k => !gone.contains k && !loose.contains k } }
  forAll (fun k s =>
    if roots.contains k then
      s.ev 0xC021 k 1 275 (u16 k ++ u16 cause ++ u16 gone.length ++ u16 loose.length)
    else s.ev 0xC021 k 1 275 (u16 k ++ u16 2 ++ u16 1 ++ u16 0)) gone s

/-- A parity error of the key register invalidates the slot (R413). -/
def State.keyParity (s : State) (slot : Nat) : State :=
  if !s.slotValid slot then s
  else ((s.emptySlot slot).ev 0xC021 slot 1 275 (u16 slot ++ u16 5 ++ u16 1 ++ u16 0))

/-- Zeroisation (R352): every slot and engine key is overwritten, and the root read port is blocked. -/
def State.zeroise (s : State) (source : Nat) : State :=
  let n := s.validSlots.length
  let s := forAll (fun k s => s.emptySlot k) s.validSlots s
  let s := { s with secu := { s.secu with blocked := true } }
  s.ev 0xC021 source 1 273 (u16 source ++ u16 4 ++ u16 n ++ u16 0)

/-- The life cycle changes (R342): slots bound to it go, and every slot on entry to Decommissioned (R348). -/
def State.toLife (s : State) (life cause : Nat) : State :=
  let old := s.secu.life
  let s := { s with secu := { s.secu with life := life } }
  let s := s.ev 0xC010 0 2 274 (u16 0 ++ u16 old ++ u16 life ++ u16 cause)
  let roots := if life = 3 then s.validSlots else s.validSlots.filter fun k => decide (s.get (slotKey k 7) = 1)
  if roots.isEmpty then s else s.destroy roots 3

/-- The KeyType and Usage that a slot may hold (R343). -/
def keyFits (slot type usage : Nat) : Bool :=
  match type with
  | 0 => decide (usage = 2 ∨ usage = 4)
  | 1 => decide (usage = 8 ∧ 112 ≤ slot)
  | 2 => decide (usage = 1)
  | 3 => decide (usage = 0x10)
  | _ => false

/-- Credential `c` is valid (R349): slot 112 + c holds a key of type 1 with usage credential, as each use checks (R343). -/
def State.credential (s : State) (c : Nat) : Bool :=
  s.slotValid (112 + c) && decide (s.get (slotKey (112 + c) 3) = 1 ∧ s.get (slotKey (112 + c) 4) = 8)

/-- A slot's bytes. -/
def State.slotBytes (s : State) (slot sub n : Nat) : Bytes := leBytes n (s.get (slotKey slot sub))

/-- What a key command would put into a slot (R345, R346): the key, or the Result that tells why not. -/
def State.workKey (s : State) (slot cmd : Nat) : Nat ⊕ Nat :=
  let type := s.get (slotKey slot 3)
  let usage := s.get (slotKey slot 4)
  let parent := s.get (slotKey slot 5)
  let ptype := s.get (slotKey parent 3)
  let puse := s.get (slotKey parent 4)
  let label := s.slotBytes slot 9 16
  let context := s.slotBytes slot 0x0A 16
  let root := decide (parent = 0xFF)
  if s.secu.life = 0 ∨ s.secu.life = 3 ∨ s.secu.blocked then .inr 7
  else if !keyFits slot type usage ∨ (type = 3 ∧ cmd ≠ 1) then .inr 6
  else if (root ∧ cmd ≠ 1) ∨ (!root ∧ !(s.slotValid parent ∧ parent < 128)) then .inr (if root then 2 else 1)
  else if !root ∧ !(ptype = (if cmd = 1 then 2 else if cmd = 2 then 3 else 0) ∧
      puse = (if cmd = 1 then 1 else if cmd = 2 then 0x10 else 4)) then .inr 2
  else if !root ∧ slot ≤ parent then .inr 3
  else if cmd = 1 then
    let ki := if root then beBytes 32 s.secu.root else beBytes 48 (s.key parent)
    .inl (deriveKey ki label context (u32 (s.get (ob 0x1018 4))) type usage)
  else if cmd = 2 then
    match Config.ecdhX (s.key parent) (s.slotBytes slot 0x0B 96) with
    | none => .inr 4
    | some z => .inl (deriveKey z label context (zeros 4) type usage)
  else
    let w := s.slotBytes slot 0x0C 76
    let n := keyBits type / 8
    match Config.gcmOpen (s.key parent) (beNat (w.take 12)) (u8 type ++ u8 usage ++ label) ((w.drop 12).take (n + 16)) with
    | none => .inr 5
    | some k => .inl (beNat (fitBytes n k))

/-- A key made by a command is journalled (R362). -/
def State.keyCreated (s : State) (slot cmd : Nat) : State :=
  s.ev 0xC020 slot 0 275 (u16 slot ++ u16 cmd ++ u8 (s.get (slotKey slot 3)) ++ u8 (s.get (slotKey slot 4)) ++
    leBytes 8 (s.get (slotKey slot 0x0E)))

/-- The command that works a recipe, by its parent's type (R346, R347). -/
def State.recipeCmd (s : State) (slot : Nat) : Nat :=
  let parent := s.get (slotKey slot 5)
  if parent = 0xFF then 1
  else if s.get (slotKey parent 3) = 2 then 1 else if s.get (slotKey parent 3) = 3 then 2 else 3

/-- The parents of a slot, up to the root. -/
def State.chain (s : State) : Nat → Nat → List Nat
  | 0, _ => []
  | n + 1, k => if 128 ≤ k then [] else k :: s.chain n (s.get (slotKey k 5))

/-- The slots whose recipes a Boot works (R347): the marked ones of the stored area 4; where no copy holds it, at the first
Boot in Provisioning or after a restore, those of the default configuration, slot 1 (R349). -/
def State.restorable (s : State) (k : Nat) : Bool :=
  decide (k ≠ 0) && (if s.secu.stored then s.secu.marks.contains k else s.secu.fresh && decide (k = 1)) &&
  decide (s.get (slotKey k 8) = 1)

/-- The recipes of restorable slots are worked in ascending order (R347); under TamperLock only those of the credential
slots and of their parents (R351). Without a root there are none to work (R341). -/
def State.restoreKeys (s : State) : State :=
  if s.secu.life ≠ 1 ∧ s.secu.life ≠ 2 then s
  else
  let allowed := ((upTo 16).map fun c => s.chain 128 (112 + c)).flatten
  let todo := (upTo 128).filter fun k => s.restorable k && (!s.secu.lock || allowed.contains k)
  let s := { s with secu := { s.secu with fresh := false } }
  forAll (fun k s =>
    if s.slotValid k then s
    else match s.workKey k (s.recipeCmd k) with
      | .inl key => s.fillSlot k key
      | .inr r => s.ev 0xC022 k 3 275 (u16 k ++ u16 r)) todo s

/-- Slot 0, which the ROM derives at each Boot in Provisioning or Operational (R344). -/
def State.bootIdentity (s : State) : State :=
  if s.secu.life = 1 ∨ s.secu.life = 2 then
    let s := s.setAll [(slotKey 0 3, 4), (slotKey 0 4, 0x20), (slotKey 0 5, 0xFF),
      (slotKey 0 9, leNat (fitBytes 16 ("QH7 identity".toUTF8.toList.map fun b => BitVec.ofNat 8 b.toNat)))]
    let s := s.fillSlot 0 s.identityKey
    s.setAll [(ob 0x4000 3, s.get (slotKey 0 0x0E)), (ob 0x4000 4, s.get (slotKey 0 0x0F))]
  else s

/-- An alarm is journalled with the AON ticks since it, for one that came while the hub die slept (R351, R362). -/
def State.tamperEv (s : State) (source action ticks : Nat) : State :=
  s.ev 0xC040 source 4 272 (u16 source ++ u16 action ++ u32 ticks)

/-- The root's check value (R339): the first four bytes of the HMAC keyed with it. -/
def rootCheck (root : Nat) : Nat :=
  beNat ((fitBytes 48 (Config.hmacSha384 (beBytes 32 root)
    ("QH7 root check".toUTF8.toList.map fun b => BitVec.ofNat 8 b.toNat))).take 4)

/-- The ROM makes the root (R339): the samples are conditioned with SHA-384, root and check value are programmed, and the
check value is computed again from the array and compared. In a `flawed` array the check value reads back as another. -/
def State.makeRoot (s : State) (flawed : Bool) : State :=
  let (d, s) := s.draw
  let root := beNat ((fitBytes 48 (Config.sha384 (Config.rootSamples d))).take 32)
  let check := if flawed then (rootCheck root + 1 + Config.trng d % (2 ^ 32 - 1)) % 2 ^ 32 else rootCheck root
  let s := { s with secu := { s.secu with root, check } }
  if rootCheck s.secu.root ≠ s.secu.check then (s.ev 0xC002 0 4 274 (u16 0 ++ u16 2)).toLife 3 3
  else (s.ev 0xC001 0 1 274 (u16 0 ++ u32 (Config.measured 0xC001 d))).toLife 1 3

/-- What the ROM does at Boot before and at the opening of the root (R339, R344, R353): alarms of the sleep are
journalled, a decommission request is blown, the first Boot in Blank makes the root, and slot 0 is derived. `rootTest` tells
of a generation: 1 a health test fails and nothing is programmed, 2 the array reads back flawed, else it succeeds. -/
def State.bootSecurity (s : State) (rootTest : Nat) : State :=
  let was := s.secu.asleep
  let s := { s with secu := { s.secu with blocked := false, asleep := [], lock := s.secu.lock || was.any fun e => decide (e.2.1 = 2) } }
  let s := forAll (fun (e : Nat × Nat × Nat) s => s.tamperEv e.1 e.2.1 ((s.clock - e.2.2) * 32768 / 1000000000)) was s
  let s := if s.secu.decommission ∧ (s.secu.life = 1 ∨ s.secu.life = 2) then s.toLife 3 2 else s
  let s :=
    if s.secu.life = 0 then
      if rootTest = 1 then s.ev 0xC002 0 3 274 (u16 0 ++ u16 1)
      else s.makeRoot (decide (rootTest = 2))
    else s
  s.bootIdentity

end Sys2Proof.Machine
end

