-- ==== Sys2Proof/Machine/Tunnel.lean ====
section
/-!
DEFINITION. The commands of the tunnels: cells received, records, negotiation, drains, key changes and twin sides
(R90-R121).
-/

set_option Elab.async false

namespace Sys2Proof.Machine

open Sys2Proof

/-- The sequences from `a` to `b` that were not seen, or lie above `h` (R112). -/
def lostBetween (a b h : Int) (seen : List Int) : List Int :=
  ((upTo (b + 1 - a).toNat).map fun (k : Nat) => a + (k : Int)).filter fun y => decide (h < y) || !seen.contains y

/-- Sequences are judged lost (R112, R121, R417): the first of them is carried by the cycle's entry. -/
def State.lose (s : State) (t n : Nat) (ys : List Int) : State :=
  match ys with
  | [] => s
  | y :: _ =>
    let s := (s.count (tunKey n 0x19) ys.length).set (tunKey n 0x22) s.station
    let s := s.evCycle 0x3020 n 3 82 t (u16 n ++ u32 (s.trunk t).cycle) [ys.length] (leBytes 7 y.toNat)
    (if s.watched n then s.latchSf 1 else s).onLost n ys

/-- What R112 makes of a cell: 0 tail, 1 deliver, 2 duplicate, 3 stale. A sequence already judged is stale whatever
the window says: no cell is both delivered and counted lost. -/
def Tunnel.judge (x : Tunnel) (seq : Int) (tail : Bool) : Nat :=
  if tail then 0
  else if seq ≤ x.h - 32768 then 3
  else if seq ≤ x.h ∧ x.seen.contains seq then 2
  else if seq ≤ x.checked then 3
  else 1

/-- A side of a tunnel's window reports a sequence: its last, and when it advanced (R112, R113). -/
def Side.report (y : Side) (last : Int) (up : Bool) (clock : Nat) : Side :=
  let l := if up then max y.last last else last
  { y with last := l, advanced := if l = y.last then y.advanced else clock }

/-- Joining and lagging sides return to current (R113). -/
def State.sideHeard (s : State) (n w k : Nat) : State :=
  let x := s.tun w
  let y := x.side k
  if (y.cond = 1 ∨ (y.cond = 3 ∧ x.checked ≤ y.last)) ∧ 16 ≤ n then s.setCond n k 2 0 else s

/-- The lowest last of the current sides; none without one (R112). -/
def Tunnel.lowest (x : Tunnel) (sided : Bool) : Option Int :=
  let a := if x.sideA.cond = 2 then some x.sideA.last else none
  let b := if sided ∧ x.sideB.cond = 2 then some x.sideB.last else none
  match a, b with
  | some p, some q => some (min p q)
  | some p, none => some p
  | none, q => q

/-- Sequences that every current side has passed are judged (R112). -/
def State.judgeLost (s : State) (t n w : Nat) : State :=
  let x := s.tun w
  match x.lowest (s.sided n) with
  | none => s
  | some p =>
    let ys := lostBetween (x.checked + 1) p x.h x.seen
    (s.updTun w fun x => { x with checked := max x.checked p }).lose t n ys

/-- TwinSkew: the arrival of copy B minus that of copy A for the latest sequence received on both sides (R98). -/
def State.skew (s : State) (n k : Nat) (seq : Int) : State :=
  if !s.sided n then s
  else
    let x := s.tun n
    match x.firsts.find? fun e => decide (e.1 = seq) with
    | some (_, k', c) =>
      if k' = k then s
      else
        let d : Int := if k = 1 then (s.clock : Int) - c else (c : Int) - s.clock
        (s.set (tunKey n 0x14) (sput 32 d)).updTun n fun x => { x with firsts := x.firsts.filter fun e => decide (seq < e.1) }
    | none => s.updTun n fun x => { x with firsts := ((seq, k, s.clock) :: x.firsts).take 32768 }

/-- The window after a delivered sequence (R112): those that leave it undelivered are lost; a sequence whose cell failed
its tag is not marked (R117). -/
def State.accept (s : State) (t n w k : Nat) (seq : Int) (marked : Bool) : State :=
  let x := s.tun w
  let s :=
    if x.h < seq then
      let ys := lostBetween (x.checked + 1) (seq - 32768) x.h x.seen
      (s.updTun w fun x =>
        { x with checked := max x.checked (seq - 32768), h := seq,
                 seen := (if marked then [seq] else []) ++ x.seen.filter fun y => decide (seq - 32768 < y) }).lose t n ys
    else if marked then s.updTun w fun x => { x with seen := seq :: x.seen } else s
  s.updTun w fun x => x.setSide k ((x.side k).report seq false s.clock)

/-- The key slots accepted from the far end (R116). -/
def State.acceptedSlot (s : State) (n slot : Nat) : Bool :=
  let x := s.tun n
  s.tunnelKey slot && decide (slot = x.slot ∨ slot = s.get (tunKey n 0x0C) ∨ (slot = x.oldSlot ∧ x.oldSlot ≠ 0))

/-- A data cell of a tunnel opened by its tag (R115, R117): the plaintext cell, or none. -/
def State.unseal (s : State) (n : Nat) (seq : Int) (c : Cell) : Option Cell :=
  if n < 16 ∨ (s.tcfg n 0x0A = 0 ∧ !c.enc) ∨ (c.kind ≠ 0 ∧ !c.enc) then some c
  else if s.tcfg n 0x0A = 0 ∨ !c.enc ∨ 220 < c.len ∨ !s.acceptedSlot n c.slot then none
  else
    let x := s.tun n
    let iv := gcmIv n x.farEpoch seq.toNat (decide (s.get (ob 0x1018 4) < x.farSerial))
    (Config.gcmOpen (s.key c.slot) iv (aad c) (c.payload.take c.len ++ (c.payload.drop 220).take 16)).map
      fun p => { c with payload := p.take c.len }

/-- A cell under a new slot has passed its tag: the tunnel moves, and the old slot's time runs (R116). -/
def State.slotSeen (s : State) (n slot : Nat) : State :=
  let s := s.mayMove n slot
  let x := s.tun n
  if slot = x.slot ∧ x.oldSlot ≠ 0 ∧ !s.timing (.oldKey n) then s.start (.oldKey n) else s

/-- Credit of a class returned when a cell leaves the receive stage (R107). -/
def State.giveCredit (s : State) (t c : Nat) : State := s.giveCredits t c 1

/-- A cell enters the receive stage, to be taken by the fabric (R94, R140). -/
def State.hold (s : State) (t : Nat) (c : Cell) : State :=
  s.updTrunk t fun x => { x with held := x.held ++ [{ cell := c, since := s.clock }] }

/-- A cell accepted by the sequence rules (R94): data goes to the fabric, an adapter control message to the tunnel. -/
def State.take (s : State) (t n : Nat) (c : Cell) : State :=
  if c.kind = 0 then (s.count (tunKey n 0x18) 1).hold t c
  else (s.send (.adapter n c.payload)).giveCredit t c.cls

/-- EV_TWIN_STALE and its count (R112, R121). -/
def State.stale (s : State) (t n : Nat) : State :=
  let s := s.count (tunKey n 0x1B) 1
  if s.sided n then
    s.evCycle 0x3052 n 2 85 t (u16 n ++ u32 (s.trunk t).cycle) [1] (u32 (s.get (tunKey n 0x14)))
  else s

/-- Steps 7 and 8 of R94: the sequence rules of R112 and the tag of R117. -/
def State.sequenced (s : State) (t n : Nat) (c : Cell) : State :=
  let w := if n < 16 then linkTun t n else n
  let k := s.sideOf n t
  if s.sided n ∧ c.twin ≠ 1 + t % 2 then (s.stale t n).giveCredit t c.cls
  else
    let x := s.tun w
    let seq := extend c.seq x.h
    let j := x.judge seq (decide (c.kind = 2))
    let s := if (x.side k).cond = 2 ∨ (x.side k).cond = 1 then s.updTun w fun x => { x with heard := true } else s
    let s := if j = 0 then s else s.skew n k seq
    let s :=
      if j = 0 then
        (s.updTun w fun x => x.setSide k ((x.side k).report (seq - 1) false s.clock)).giveCredit t c.cls
      else if j = 2 then
        ((s.count (tunKey n 0x1A) 1).updTun w fun x => x.setSide k ((x.side k).report seq false s.clock)).giveCredit t c.cls
      else if j = 3 then
        ((s.stale t n).updTun w fun x => x.setSide k ((x.side k).report seq true s.clock)).giveCredit t c.cls
      else
        match s.unseal n seq c with
        | some p => ((s.accept t n w k seq true).slotSeen n (if c.enc then c.slot else 0)).take t n p
        | none =>
          let s := (s.count (tunKey n 0x1C) 1).evCycle 0x3021 n 3 83 t (u16 n ++ u32 (s.trunk t).cycle) [1] (u16 c.slot)
          (s.accept t n w k seq false).giveCredit t c.cls
    (s.sideHeard n w k).judgeLost t n w

/-- The record takes part on the trunk (R94 step 4): it was enabled, or is not yet Off, and names the trunk. -/
def State.recordOn (s : State) (t n : Nat) : Bool :=
  decide (1 ≤ n ∧ n ≤ 4) ||
  (decide (16 ≤ n) && decide (s.get (tunKey n 1) = 1 ∨ s.tstate n ≠ 0 ∨ s.get (tunKey n 0x15) ≠ 0) &&
    (s.trunksOf n ++ s.localTrunks n).contains t)

/-- Steps 3 to 8 of R94 for a cell whose CRC passed. -/
def State.cellIn (s : State) (t : Nat) (c : Cell) : State :=
  let n := c.tunnel
  if malformed c then (s.cellCrc t 0 1).giveCredit t c.cls
  else if !s.recordOn t n then
    ((s.count (portKey t 0x11) 1).fabricEv 0x4020 2 3 t (u16 n) [1] []).giveCredit t c.cls
  else if s.tstate n ≠ 3 ∧ s.tstate n ≠ 4 then
    if c.kind = 1 ∧ byteAt c.payload 0 = 1 ∧ (s.tstate n = 2 ∨ s.tstate n = 5) then
      (s.send (.adapter n c.payload)).giveCredit t c.cls
    else (s.count (tunKey n 0x1F) 1).giveCredit t c.cls
  else if c.kind = 1 ∧ byteAt c.payload 0 = 1 ∧ !s.transit n then (s.send (.adapter n c.payload)).giveCredit t c.cls
  else if 16 ≤ n ∧ s.transit n then (if c.kind = 0 then s.count (tunKey n 0x18) 1 else s).hold t c
  else if 16 ≤ n ∧ c.kind = 0 ∧ c.ver ≠ s.get (tunKey n 0x12) then
    (s.count (tunKey n 0x1E) 1).giveCredit t c.cls
  else s.sequenced t n c

/-- R94. A trunk cell is checked in order and delivered, or discarded under one cause. `keyParity` tells that the read
of its key slot found a parity error (R413). -/
def execCellReceived (t : Nat) (raw : Bytes) (keyParity : Bool) (s : State) : Ans :=
  let c := parseCell raw
  onPort s (fun q => q.hasTrunk t)
    (let (gone, s) := s.lineIn t
     if gone || !s.trained t then s
     else if !crcGood raw then s.cellCrc t 1 0
     else if c.tunnel = 0 then s.controlCell t c
     else
      let s := if keyParity && c.enc then s.keyParity c.slot else s
      s.cellIn t c)

/-- The classes that R14 permits for a kind. -/
def kindClasses (s : State) (n kind : Nat) : List Nat :=
  let lp := s.get (tunKey n 6)
  match kind with
  | 0 => [6]
  | 1 => [3, 1, 0]
  | 2 => if lp < 4 ∨ (4 ≤ lp ∧ lp ≤ 11 ∧ s.get (ob (0x2C00 + (lp - 4)) 9) = 1) then [5, 1, 0] else [1, 0]
  | 3 => [2, 6]
  | 4 => [7, 5, 2]
  | 5 => [4]
  | _ => [7]

/-- The ports at which a kind terminates (R14); log entry 201. -/
def kindPorts (kind : Nat) : List Nat :=
  match kind with
  | 0 => [4, 5, 6, 7, 8, 9, 10, 11, 12, 13, 14, 15, 16, 17, 18]
  | 1 => [12, 13, 18]
  | 2 => [4, 5, 6, 7, 8, 9, 10, 11]
  | 3 => [15]
  | 4 => [16]
  | _ => [17]

/-- The local port and endpoint of a storage record break the table of R296. -/
def State.storageBad (s : State) (n : Nat) : Bool :=
  let lp := s.get (tunKey n 6)
  let ep := s.get (tunKey n 8)
  if lp = 18 then
    decide (1 < ep / 4096 ∨ ep % 4096 = 0 ∨ 1024 < ep % 4096) || !s.part.hasPcie (ep / 4096) || !s.queueMode
  else if ep = 0 then false
  else
    decide (1024 < ep) || s.isRoot (lp - 12) || !s.queueMode ||
    s.enabledTunnels.any fun m =>
      decide (m ≠ n ∧ s.get (tunKey m 2) = 1 ∧ s.get (tunKey m 6) = lp ∧ s.get (tunKey m 8) = ep)

/-- An endpoint that the table of R321 has: a CAN port, a UART of the part, a map block. -/
def State.fieldEndpoint (s : State) (ep : Nat) : Bool :=
  decide (ep ≤ 1) || (decide (0x0100 ≤ ep ∧ ep < 0x0104) && s.part.hasUart (ep - 0x0100)) || decide (0x0200 ≤ ep ∧ ep < 0x0210)

/-- The local endpoint of a field record is taken, unknown, or a map block without version 2 (R321). -/
def State.fieldBad (s : State) (n : Nat) : Bool :=
  let ep := s.get (tunKey n 8)
  !s.fieldEndpoint ep || decide (0x0200 ≤ ep ∧ !(s.get (tunKey n 9)).testBit 2) ||
  s.enabledTunnels.any fun m => decide (m ≠ n ∧ s.get (tunKey m 2) = 4 ∧ s.get (tunKey m 6) = 16 ∧ s.get (tunKey m 8) = ep)

/-- What R217 asks of a peripheral record: FP15, an endpoint of its table, its class, and no other enabled record with
that endpoint. -/
def State.usbBad (s : State) (n : Nat) : Bool :=
  let ep := s.get (tunKey n 8)
  let cls := if ep = 1 ∨ (0x0180 ≤ ep ∧ ep < 0x0190) then 6 else 2
  decide (s.get (tunKey n 6) ≠ 15 ∨ s.get (tunKey n 3) ≠ cls) ||
  !decide (ep ≤ 1 ∨ (0x0100 ≤ ep ∧ ep < 0x0110) ∨ (0x0180 ≤ ep ∧ ep < 0x0190)) ||
  s.enabledTunnels.any fun m => decide (m ≠ n ∧ s.get (tunKey m 2) = 3 ∧ s.get (tunKey m 6) = 15 ∧ s.get (tunKey m 8) = ep)

/-- What a kind's own rules add to R100 (R217, R296, R321). -/
def State.endpointBad (s : State) (n kind : Nat) : Bool :=
  if kind = 1 then s.storageBad n else if kind = 3 then s.usbBad n else if kind = 4 then s.fieldBad n else false

/-- A condition of R100 holds: the write of 1 to TunnelEnable is of kind 7. -/
def State.enableBad (s : State) (n : Nat) : Bool :=
  let kind := s.get (tunKey n 2)
  let tp := s.get (tunKey n 4)
  let lp := s.get (tunKey n 6)
  let transit := decide (lp < 4)
  let twin := decide (s.get (tunKey n 5) = 1)
  let ltwin := decide (s.get (tunKey n 7) = 1)
  let named := pairOf tp twin ++ (if transit then pairOf lp ltwin else [])
  !(kindClasses s n kind).contains (s.get (tunKey n 3)) ||
  !(transit || (kindPorts kind).contains lp) ||
  decide (kind = 5 ∨ kind = 6) || decide (lp = tp) || (twin && decide (tp = 1 ∨ tp = 3)) ||
  (transit && (decide (twin ≠ ltwin) || (ltwin && decide (lp = 1 ∨ lp = 3)))) ||
  (decide (s.get (tunKey n 0x0A) = 1) && (decide (s.get (tunKey n 0x0B) = 0) || transit)) ||
  named.any (fun t => !s.part.hasTrunk t || decide (s.get (ob 0x2020 (5 + t)) = 0)) ||
  (!transit && (!s.part.hasFabricPort lp || s.endpointBad n kind))

/-- R100. TunnelEnable is written 1. -/
def execTunnelEnable (path : Path) (n : Nat) (s : State) : Ans :=
  onPath path (decide (n < 4096)) s
    (s.writeNum path (0x3000 + n) 1 1 (kindIf (s.enableBad n) 7) fun s => (s.set (tunKey n 1) 1).leaveOff n)

/-- R102. TunnelEnable is written 0. -/
def execTunnelDisable (path : Path) (n : Nat) (s : State) : Ans :=
  onPath path (decide (n < 4096)) s
    (s.writeNum path (0x3000 + n) 1 0 [] fun s => ((s.set (tunKey n 1) 0).shut n 0).settle)

/-- A host write to 0x02-0x0C of a Refused record takes it back to Negotiating with the values kept (R99, R102). -/
def State.refusedAgain (s : State) (n : Nat) : State :=
  if s.tstate n = 5 then
    ((s.latchCfg n).set (tunKey n 0x11) 0).negotiate n
  else s

/-- A KeySlotNext write starts, replaces or cancels a key change; one of the value that it holds leaves the change as it
is (R116). -/
def State.keyNext (s : State) (n value : Nat) : State :=
  let s :=
    if s.get (tunKey n 0x0C) = value then s
    else
      let s := (s.set (tunKey n 0x0C) value).stop (.keyReady n)
      if s.tstate n ≠ 3 ∨ s.tcfg n 0x0A ≠ 1 then s
      else if value = 0 then s.sendKeyReady n 0
      else s.takeKey n value
  s.refusedAgain n

/-- R99. A write to a configuration subindex of a record is kept. -/
def execTunnelRecordWrite (path : Path) (n sub value : Nat) (s : State) : Ans :=
  onPath path (decide (n < 4096 ∧ 2 ≤ sub ∧ sub ≤ 0x0D)) s
    (s.writeNum path (0x3000 + n) sub value
      (kindIf (decide (sub = 9) && decide (value &&& kindVersions (s.get (tunKey n 2)) ≠ value ∨ value = 0)) 7 ++
        kindIf (decide (sub = 4 ∧ s.part.trunks ≤ value)) 7) fun s =>
      if sub = 0x0C then s.keyNext n value
      else
        let s := s.set (tunKey n sub) value
        if sub = 0x0D then s else s.refusedAgain n)

/-- R98. Tunnel command 1 sets TunnelEnable to 0 and drains the tunnel to Off. -/
def execTunnelDrain (path : Path) (n : Nat) (s : State) : Ans :=
  let i := 0x3000 + n
  onPath path (decide (n < 4096)) s
    (s.command path i 1 anyState [1, 2] (kindIf (decide (n ≤ 4)) 6) fun s =>
      let s := s.set (tunKey n 1) 0
      if s.tstate n = 0 then s.cmdCommit i 1
      else ((s.updTun n fun x => { x with commanded := true }).shut n 0).settle)

/-- R98. Tunnel command 2 clears 0x17-0x23 and 0x14. -/
def execTunnelClearCounters (path : Path) (n : Nat) (s : State) : Ans :=
  onPath path (decide (n < 4096)) s
    (s.commandNow path (0x3000 + n) 2 anyState [1, 2] [] 0 fun s =>
      s.clear ((tunKey n 0x14) :: (upTo 13).map fun k => tunKey n (0x17 + k)))

/-- The cell is a Close of the tunnel (R103). -/
def isClose (n : Nat) (c : Cell) : Bool := decide (c.tunnel = n ∧ c.kind = 1 ∧ byteAt c.payload 0 = 2)

/-- A Close that no trunk has sent yet is withdrawn (R57). -/
def State.withdrawClose (s : State) (n : Nat) : State :=
  if (s.tun n).closeQueued && !(s.tun n).closeSent then
    ((s.discardCells (isClose n)).2).updTun n fun x => { x with closeQueued := false }
  else s

/-- An abort of a drain command: admission resumes and TunnelEnable returns to 1 (R57, R98). -/
def State.undoDrain (s : State) (n : Nat) : State :=
  let s := (s.set (tunKey n 1) 1).updTun n fun x => { x with commanded := false, ends := false }
  if s.tstate n = 4 ∧ !(s.tun n).farInit then
    let s := s.withdrawClose n
    (((s.set (tunKey n 0x10) 3).stop (.drain n)).announceKey n).onReopen n (s.tcfg n 2) (s.tcfg n 8)
  else s

/-- An offer is read from an adapter control message (R103) and judged by R104: 0, or the reason. -/
def State.offerReason (s : State) (n : Nat) (m : Bytes) : Nat :=
  let flags := byteAt m 1
  if byteAt m 2 ≠ s.tcfg n 2 then 1
  else if byteAt m 3 ≠ s.tcfg n 3 then 2
  else if byteAt m 4 &&& s.offered n = 0 then 3
  else if flags.testBit 1 ≠ decide (s.tcfg n 0x0A = 1) then 4
  else if s.tcfg n 0x0A = 1 ∧ !s.tunnelKey (s.tcfg n 0x0B) then 5
  else if flags.testBit 2 ≠ s.twinned n then 7
  else 0

/-- An offer in Negotiating (R102, R104). -/
def State.offerIn (s : State) (n : Nat) (m : Bytes) : State :=
  let s := s.updTun n fun x => { x with farSerial := leAt m 8 4, farEpoch := leAt m 12 3, farVersions := byteAt m 4 }
  let r := s.offerReason n m
  if r ≠ 0 then s.refuse n r
  else if byteAt m 6 ≠ 0 then s
  else
    (s.updTun n fun x => { x with gotOffer := true, gotSeen := x.gotSeen || (byteAt m 1).testBit 0 }).openCheck n

/-- R104. An adapter offer is judged: the tunnel opens, is refused, or negotiates again. -/
def execOfferReceived (t n : Nat) (msg : Bytes) (s : State) : Ans :=
  onPort s (fun q => q.hasTrunk t && decide (n < 4096))
    (if n < 16 ∨ !s.recordOn t n ∨ s.transit n ∨ !s.trained t then s
     else
      match s.tstate n with
      | 2 => s.offerIn n msg
      | 5 =>
        if byteAt msg 6 ≠ 0 then s
        else
          let s := s.refusedAgain n
          if s.tstate n = 2 then s.offerIn n msg else s
      | 3 =>
        if s.offerReason n msg ≠ 0 then s.count (tunKey n 0x1F) 1
        else if (s.tun n).closeSent then
          (((s.onClose n (s.tcfg n 2) (s.tcfg n 8)).creditGone n).negotiate n).offerIn n msg
        else s
      | 4 => s
      | _ => s.count (tunKey n 0x1F) 1)

/-- R102. 10 ms without a reply: the offer is repeated, and the wait journalled every 10 s. -/
def execNegotiationRepeat (n : Nat) (s : State) : Ans :=
  onUnit (decide (n < 4096))
    (if s.tstate n = 2 ∧ s.due (.offer n) (msec 10) then
      let s := (s.start (.offer n)).sendOffer n 0
      if s.due (.offerWait n) (sec 10) then
        (s.start (.offerWait n)).tunEv 0x3011 1 1 n (u32 ((s.clock - (s.tun n).waiting) / 1000000000))
      else s
     else s)

/-- R119. A Close from the far end starts a far-initiated drain, or completes a local one. -/
def execCloseReceived (n : Nat) (s : State) : Ans :=
  onUnit (decide (n < 4096))
    (if n < 16 ∨ s.transit n then s
     else if s.tstate n = 3 then (s.drain n 0 true).settle
     else if s.tstate n = 4 then ((s.updTun n fun x => { x with closeGot := true }).drainCheck n).settle
     else s)

/-- R118. After its last queued cell a draining tunnel sends its Close. -/
def execCloseSend (n : Nat) (s : State) : Ans :=
  onUnit (decide (n < 4096))
    (if s.tstate n = 4 ∧ !s.transit n ∧ !(s.tun n).closeQueued ∧ !s.queuedOut n then
      (s.updTun n fun x => { x with closeQueued := true }).sendClose n
     else s)

/-- The Close that a drain ended by its bound still sends: it takes the next sequence of the direction (R118). -/
def State.lateClose (s : State) (n : Nat) : State :=
  (s.countWrap (tunKey n 0x24) 1).sendClose n (some (s.get (tunKey n 0x24)))

/-- DrainBound of a draining tunnel has elapsed (R118). -/
def State.drainOver (s : State) (n : Nat) : Bool :=
  decide (s.tstate n = 4) && s.due (.drain n) (usec (s.get (tunKey n 0x0D)))

/-- DrainBound elapses: the queued cells are discarded and the drain completes (R118). -/
def State.drainExpired (s : State) (n : Nat) : State :=
  let before := (s.tun n).discards
  let s := s.drainDiscard n
  let s := s.tunEv 0x3040 2 4 n (u32 ((s.tun n).discards - before) ++ u32 (s.get (tunKey n 0x0D)))
  let s := if s.transit n ∨ (s.tun n).closeSent then s else s.lateClose n
  (s.drainDone n).settle

/-- R118. DrainBound elapses. -/
def execDrainBoundExpired (n : Nat) (s : State) : Ans :=
  onUnit (decide (n < 4096)) (if s.drainOver n then s.drainExpired n else s)

/-- R116. A key-ready message lets the sender move to KeySlotNext, or withdraws an earlier one. -/
def execKeyReadyReceived (n slotNamed : Nat) (s : State) : Ans :=
  onUnit (decide (n < 4096))
    (if s.tstate n = 3 ∨ s.tstate n = 4 then
      (s.updTun n fun x => { x with farReady := slotNamed }).mayMove n slotNamed
     else s)

/-- R116. KeySlotNext is written. -/
def execKeySlotNextWrite (path : Path) (n value : Nat) (s : State) : Ans :=
  onPath path (decide (n < 4096)) s (s.writeNum path (0x3000 + n) 0x0C value [] fun s => s.keyNext n value)

/-- R116. The key-ready message is repeated each millisecond until the hub moves. -/
def execKeyReadyRepeat (n : Nat) (s : State) : Ans :=
  onUnit (decide (n < 4096)) (if s.due (.keyReady n) (msec 1) then s.announceKey n else s)

/-- R116. One DrainBound after the first new-slot cell the old slot is no longer accepted. -/
def execOldKeyAcceptExpired (n : Nat) (s : State) : Ans :=
  onUnit (decide (n < 4096))
    (if s.due (.oldKey n) (usec (s.get (tunKey n 0x0D))) then
      (s.stop (.oldKey n)).updTun n fun x => { x with oldSlot := 0 }
     else s)

/-- R113. A side's last has not advanced for 125 µs while the other's did: it lags. -/
def execTwinLagTimeout (n side : Nat) (s : State) : Ans :=
  let x := s.tun n
  let k := side % 2
  onUnit (decide (n < 4096))
    (if s.live n && s.sided n && decide ((x.side k).cond = 2) && decide ((x.side k).advanced + 125000 ≤ s.clock) &&
        decide ((x.side k).advanced < (x.side (1 - k)).advanced) then
      s.setCond n k 3 2
     else s)

end Sys2Proof.Machine
end

