-- ==== Sys2Proof/Machine/Fabric.lean ====
section
/-!
DEFINITION. The commands of the fabric: cells that arrive and leave, the bounds, and the Layer-2 table's window
(R122-R149).
-/

set_option Elab.async false

namespace Sys2Proof.Machine

open Sys2Proof

/-- Destinations of a cell that enters a tunnel here: every trunk that carries it (R125), with the cell as the tunnel
carries it. `flow` tells its source's units from those of the tunnel's other sources. -/
def State.intoTunnel (s : State) (n flow : Nat) (c : Cell) : List Dest × State :=
  let (colour, s) := s.colour n c
  let cell := { c with tunnel := n, cls := s.tcfg n 3, colour, ver := s.get (tunKey n 0x12) }
  ((((s.trunksOf n).filter fun t => s.portOn t && (!s.twinned n || s.carries n t)).map fun t =>
    { p := t, c := cell.cls, flow, cell }), s)

/-- Destinations of a cell that arrived on trunk `t` (R125): the other trunk of a transit record, or LocalPort; a pair's
both ports, but for a PTP frame (R265). The units of tunnels 1-4 are those of their trunk. -/
def State.fromTunnel (s : State) (t : Nat) (c : Cell) : List Dest :=
  let n := c.tunnel
  let cls := if n < 16 then c.cls else s.tcfg n 3
  let ps :=
    if n < 16 then [17]
    else if s.transit n then
      let other := if (s.trunksOf n).contains t then s.localTrunks n else s.trunksOf n
      if c.twin = 0 then other.take 1 else (other.drop (c.twin - 1)).take 1 |>.filter s.trained
    else
      let lp := s.tcfg n 6
      if 4 ≤ lp ∧ lp ≤ 11 then
        if s.pairMode (lp - 4) = 0 ∨ (c.first && c.last && isPtp c.payload) then [lp] else [4 + (lp - 4) / 2 * 2, 5 + (lp - 4) / 2 * 2]
      else [lp]
  let flow := if n < 16 then n + 0x20000 * (t + 1) else n
  (ps.filter s.portOn).map fun p => { p, c := cls, flow, cell := c }

/-- The oldest cell of a class in a receive stage, and the others. -/
def takeHeld (c : Nat) : List Held → Option (Held × List Held)
  | [] => none
  | h :: r =>
    if h.cell.cls = c then some (h, r)
    else match takeHeld c r with
      | some (x, k) => some (x, h :: k)
      | none => none

/-- A cell leaves the receive stage: its credit returns (R107). -/
def State.unhold (s : State) (t cls : Nat) (kept : List Held) : State :=
  (s.updTrunk t fun x => { x with held := kept }).giveCredit t cls

/-- The cell belongs to a frame of a network tunnel that ends at an Ethernet port here, and the hub learns from
tunnels (R136). -/
def State.learnsFrom (s : State) (n : Nat) : Bool :=
  decide (16 ≤ n ∧ s.tcfg n 2 = 2 ∧ 4 ≤ s.tcfg n 6 ∧ s.tcfg n 6 ≤ 11 ∧ s.get (ob 0x2501 5) = 1)

/-- The source of an admitted frame whose last cell this is, and good, is learnt (R136): against a port mask or a
tunnel. `key` names the frame's flow, `took` tells that some destination takes the cell. -/
def State.learnAt (s : State) (key ports tunnel fp : Nat) (took : Bool) (c : Cell) : State :=
  if c.last && !c.bad && took then
    let x := Sparse.get (0, 0) s.fabric.sources key
    s.learn x.1 x.2 ports tunnel fp
  else s

/-- The oldest held cell of a class on a trunk is looked up and admitted, or goes on waiting (R125, R140). The port's
CellsIn counts it when the arbiter first serves it (DESIGN CHOICE, log entry 232). -/
def State.trunkArrival (s : State) (t cls : Nat) : State :=
  match takeHeld cls (s.trunk t).held with
  | none => s
  | some (h, kept) =>
    let ds := s.fromTunnel t h.cell
    let s := if h.offered then s else s.count (portKey t 9) 1
    match ds with
    | [] => (s.count (portKey t 0x12) 1).unhold t cls kept
    | d :: _ =>
      let n := h.cell.tunnel
      let learns := s.learnsFrom n
      let s := if h.offered then s else (if learns then s.noteSource n h.cell else s).offerAll ds
      if s.fits ds then
        let took := s.taken ds
        let s := (s.store ds h.cell).unhold t cls kept
        if learns then s.learnAt n 0 n d.p took h.cell else s
      else s.updTrunk t fun x => { x with held := x.held.replace h { h with offered := true } }

/-- Destinations of a cell from an Ethernet port (R125, R134): those found for its frame's first cell. -/
def State.ethDests (s : State) (fp cls : Nat) (c : Cell) : List Dest × State :=
  let e := fp - 4
  let q := qOf fp cls
  let s :=
    if c.first then
      let (ps, ts, unknown) := s.frameDests e c.payload
      let s := if unknown then s.count (ob 0x2501 0x0A) 1 else s
      let r := if unknown && ps.isEmpty then [(255, 0, 0)]
        else (ps.map fun p => (4 + p, cls, 0x10000 + fp)) ++ (ts.map fun n => (16, 0, n))
      s.updFabric fun x => { x with routes := Sparse.put [] q r x.routes }
    else s
  (Sparse.get [] s.fabric.routes q).foldl (fun (a : List Dest × State) r =>
    if r.1 = 16 then
      if a.2.netOpen r.2.2 then
        let (ds, s) := a.2.intoTunnel r.2.2 (r.2.2 + 0x20000 * (q + 1)) c
        (a.1 ++ ds, s)
      else a
    else (a.1 ++ [{ p := r.1, c := r.2.1, flow := r.2.2, cell := c }], a.2)) ([], s)

/-- The destinations of a cell that an adapter offers (R125): by the Layer-2 bridge for an Ethernet frame, which has no
tunnel yet, else the tunnel that the adapter assigned. -/
def State.adapterDests (s : State) (fp cls : Nat) (c : Cell) : List Dest × State :=
  if c.tunnel = 0 then s.ethDests fp cls c
  else if (s.tstate c.tunnel = 3 ∨ c.tunnel < 16) ∧ !s.transit c.tunnel then s.intoTunnel c.tunnel c.tunnel c
  else ([], s)

/-- Where a cell that has waited goes now: its destinations whose ports are on and whose tunnels still take it (R125,
R144). -/
def State.destsNow (s : State) (h : Held) : List Dest :=
  h.dests.filter fun d =>
    let n := d.cell.tunnel
    s.portOn d.p && (decide (4 ≤ d.p ∨ n < 16 ∨ d.cell.kind = 1) ||
      (decide (s.tstate n = 3) && (!s.twinned n || s.carries n d.p)))

/-- The destinations of the oldest waiting cell of a class (R125): found when it is first offered. One that the hub formed
has them already, and enters its tunnel then (R137). -/
def State.heldDests (s : State) (fp cls : Nat) (h : Held) : List Dest × State :=
  if h.offered then (s.destsNow h, s)
  else if h.own then
    let (colour, s) := s.colour h.cell.tunnel h.cell
    ((s.destsNow h).map fun d => { d with cell := { d.cell with colour } }, s)
  else s.adapterDests fp cls h.cell

/-- An adapter can hold back the source of the cell (R140): not an Ethernet port a frame, nor the display writer. -/
def holdsBack (fp : Nat) (c : Cell) : Bool := !(decide (4 ≤ fp ∧ fp ≤ 11 ∧ c.tunnel = 0) || decide (fp = 14))

/-- The oldest waiting cell of a class in an ingress adapter is looked up and admitted, goes on waiting, or, where its
source cannot be held back, is refused (R125, R140). -/
def State.adapterArrival (s : State) (fp cls : Nat) : State :=
  match takeHeld cls (s.waitsAt fp) with
  | none => s
  | some (h, kept) =>
    let c := h.cell
    let (ds, s) := s.heldDests fp cls h
    let s := if h.offered then s else s.count (portKey fp 9) 1
    if ds.any fun d => decide (d.p = 255) then s.leaves fp kept
    else
      let ds := ds.filter fun d => s.portOn d.p
      if ds.isEmpty then (s.count (portKey fp 0x12) 1).leaves fp kept
      else
        let frame := decide (c.tunnel = 0 ∧ fp ≤ 11)
        let key := 0x10000 + qOf fp cls
        let s := if h.offered then s else (if frame then s.noteSource key c else s).offerAll ds
        let fits := s.fits ds
        if !fits && (h.own || holdsBack fp c) then
          let again := { h with offered := true, dests := ds }
          let hs := (s.waitsAt fp).replace h again
          s.updFabric fun x => { x with waiting := Sparse.put [] fp hs x.waiting }
        else
          let took := s.taken ds
          let s := (s.store ds c h.reserved).leaves fp kept
          let s := if frame then s.learnAt key (s.bridgeMask (fp - 4)) 0 fp took c else s
          if fp = 14 ∧ !fits ∧ !h.own then s.receiptLost (byteAt c.payload 1) else s

/-- The cells that wait at a fabric port for a write slot (R140). -/
def State.waitersAt (s : State) (fp : Nat) : List Held := if fp < 4 then (s.trunk fp).held else s.waitsAt fp

/-- A waiting cell would use a write slot: it has not been offered yet, or it can be admitted now (R122, R140). -/
def State.slotClaim (s : State) (fp : Nat) (h : Held) : Bool :=
  !h.offered || s.fits (if fp < 4 then s.fromTunnel fp h.cell else s.destsNow h)

/-- The oldest cell of a class at a fabric port claims a write slot (R122). -/
def State.classClaims (s : State) (fp cls : Nat) : Bool :=
  match takeHeld cls (s.waitersAt fp) with
  | some (h, _) => s.slotClaim fp h
  | none => false

/-- A fabric port claims a write slot (R122): its domain is on (R21); a trunk's receive stage drains on its own. -/
def State.portClaims (s : State) (fp : Nat) : Bool :=
  (decide (fp < 4) || s.portOn fp) && (upTo 8).any fun c => s.classClaims fp c

/-- The external ports in the order in which the write arbiter looks at them next (R122). -/
def State.grantOrder (s : State) : List Nat := (upTo 18).map fun k => (s.fabric.grant + 1 + k) % 18

/-- The write arbiter grants the next slot to the port (R122): the next external port in round-robin order among those
that claim one; FP18 and FP19 only where no external port does (R24). -/
def State.granted (s : State) (fp : Nat) : Bool :=
  match s.grantOrder.find? s.portClaims with
  | some p => decide (fp = p)
  | none => decide (18 ≤ fp) && s.portClaims fp

/-- R125, R122. The write arbiter grants a slot to a fabric port: the oldest cell of a class that waits there is looked up
and admitted to its egress queues. -/
def execFabricCellArrival (fp cls : Nat) (s : State) : Ans :=
  onPort s (fun q => q.hasFabricPort fp && decide (cls < 8))
    (if s.granted fp && s.classClaims fp cls then
      let s := if fp < 18 then s.updFabric fun x => { x with grant := fp } else s
      if fp < 4 then s.trunkArrival fp cls else s.adapterArrival fp cls
     else s)

/-- The cells of the first whole unit of a flow, and the rest of the queue. -/
def wholeUnit (flow : Nat) : List Desc → List Desc × List Desc
  | [] => ([], [])
  | d :: r =>
    if d.flow = flow then
      if d.cell.last then ([d], r) else let (g, k) := wholeUnit flow r; (d :: g, k)
    else let (g, k) := wholeUnit flow r; (g, d :: k)

/-- The flow whose last cell comes first in a queue: the unit an Ethernet port sends next (R129). -/
def readyFlow : List Desc → Option Nat
  | [] => none
  | d :: r => if d.cell.last then some d.flow else readyFlow r

/-- A cell is discarded at read for an uncorrectable error: counted, and journalled with its buffer address and class
(R124, R149). -/
def State.eccCell (s : State) (p c : Nat) (d : Desc) : State :=
  ((s.count (portKey p 0x15) 1).memBad 0 (d.buf.getD 0)).ev 0x4040 p 3 69 (u16 p ++ u32 (d.buf.getD 0) ++ u16 c)

/-- A terminating egress discards a cell for its memory error, and with it what is left of a unit begun (R124, R129,
R130). -/
def State.eccLocal (s : State) (p c : Nat) (d : Desc) : State :=
  let s := s.eccCell p c d
  if d.cell.first then s
  else
    let (gone, kept, ended) := if d.cell.last then ([], (s.queue (qOf p c)).descs, true)
                               else restOfUnit d.flow (s.queue (qOf p c)).descs
    let s := s.withdraw p c gone kept
    let s := s.updQueue (qOf p c) fun x => { x with opens := Sparse.put 0 d.flow 0 x.opens }
    (if ended then s else s.setUnit (qOf p c) d.flow 5).tailEv p 0 1 1

/-- The frame of a whole unit leaves an Ethernet port (R129, R262). One without its first cell is discarded, and so is one
of which cell `at_` cannot be read: after the first cell that truncates the unit, whose tail-bad end discards the rest
(R124, R129, R130; log entry 205). -/
def State.sendFrame (s : State) (p c ecc at_ : Nat) : State :=
  let q := s.queue (qOf p c)
  match readyFlow q.descs with
  | none => s
  | some flow =>
    let (unit, kept) := wholeUnit flow q.descs
    let bufs := unit.filterMap (·.buf)
    let k := (p - 4) / 2
    let seq := match bufs.head? with
      | some a => match s.buf a with
        | some b => (Sparse.find (0x2000 + k) b.ext).getD (s.redp k).seq
        | none => (s.redp k).seq
      | none => (s.redp k).seq
    let taken := match bufs.head? with
      | some a => match s.buf a with
        | some b => (Sparse.find (0x2000 + k) b.ext).isSome
        | none => false
      | none => false
    let s := if decide (s.pairMode (p - 4) = 0) || taken then s
      else
        let s := s.updRedp k fun x => { x with seq := wrapAdd 16 x.seq 1 }
        match bufs.head? with
        | some a => s.updBuf a fun b => { b with ext := Sparse.ins (0x2000 + k) seq b.ext }
        | none => s
    let s := s.release p c unit kept
    let k := min at_ (unit.length - 1)
    if ecc = 2 then
      let s := s.eccCell p c (unit.getD k { cell := { tunnel := 0, cls := c } })
      if unit.length = 1 then s else s.tailEv p 0 (if k = 0 then 0 else 1) 1
    else if (unit.head?.map fun d => d.cell.first) = some false then s.tailEv p 0 0 1
    else
      let s := if ecc = 1 then s.memCorrected 0 1 else s
      let s := s.count (portKey p 0x0A) unit.length
      s.frameOut (p - 4) ((unit.head?.map fun d => d.cell.tunnel).getD 0) seq (unit.any fun d => d.cell.cong)
        (unit.any fun d => d.cell.fixed) (unit.flatMap fun d => d.cell.payload.take d.cell.len)

/-- A cell whose header names another tunnel than the record of its descriptor (R415). -/
def State.egressMismatch (s : State) (p expected found : Nat) : State :=
  ((s.count (ob 0x4410 0x23) 1).dangerCycle 0xE021 p 325 4 (u16 p ++ u16 expected ++ u16 found) [1] []).latchSf 1

/-- The destination of a port's serialiser can accept a cell (R140): PCIe credit, a USB handshake or a DRAM write slot is
the device's to give; the display writer holds its writes to DamageWriteLimit (R191) and the queue engine its own to
StagingLimit (R294); a relay with a full up ring takes nothing of its tunnels (R218). -/
def State.mayDeliver (s : State) (fp n : Nat) (ready : Bool) : Bool :=
  ready && (decide (fp ≠ 14) || decide (s.fabric.writer ≤ s.clock * 1000)) && (decide (fp ≠ 18) || s.stagingFree) &&
    !(decide (fp = 15) && s.relayFull n)

/-- The display writer takes a cell: its content bytes take their time at DamageWriteLimit MB/s (R191). -/
def State.writerTakes (s : State) (c : Cell) : State :=
  let n := if c.kind = 0 then c.len - (if c.first then 16 else 0) else 0
  s.updFabric fun x => { x with writer := max (s.clock * 1000) x.writer + n * 1000000 / max 1 (s.get (ob 0x2810 2)) }

/-- The adapter of a storage or field port takes a cell (R298, R305, R322). -/
def State.localTakes (s : State) (fp : Nat) (c : Cell) : State := if fp = 16 then s else s.storageTakes fp c

/-- R140. A serialiser takes a cell from its queue and sends it. A trunk's serialiser follows its schedule (R151). An
Ethernet port sends a frame once it is whole, unless PAUSE holds it; another port sends its head cell when the destination
is `ready` to accept it. A port whose domain is off carries no cells (R21). `ecc` is 0 for a clean read, 1 corrected, 2
uncorrectable, there at cell `place` of a frame; `found` a header read with another tunnel. -/
def execEgressSerialise (fp cls ecc : Nat) (x : Serving) (s : State) : Ans :=
  onPort s (fun q => q.hasFabricPort fp && decide (cls < 8))
    (if fp < 4 ∨ !s.portOn fp then s
     else
      match (s.queue (qOf fp cls)).descs with
      | [] => s
      | d :: kept =>
        if 12 ≤ fp ∧ !s.mayDeliver fp d.cell.tunnel x.ready then s
        else
        match (if d.cell.tunnel = 0 then none else x.found) with
        | some n => if n = d.cell.tunnel then s else (s.release fp cls [d] kept).egressMismatch fp d.cell.tunnel n
        | none =>
          if fp < 12 then
            if s.clock < (s.ethp (fp - 4)).pausedTo then s else s.sendFrame fp cls ecc x.place
          else
            let s := s.release fp cls [d] kept
            if ecc = 2 then s.eccLocal fp cls d
            else
              let s := if ecc = 1 then s.memCorrected 0 1 else s
              let s := if fp = 14 then s.writerTakes d.cell else if fp = 15 ∨ fp = 17 then s else s.localTakes fp d.cell
              (s.count (portKey fp 0x0A) 1).send (.deliver fp d.cell))

/-- R138. Each 50 cell times, of 1.024 µs together, an empty queue with a profile updates its average occupancy. -/
def execRedAverageIdleUpdate (fp cls : Nat) (s : State) : Ans :=
  onPort s (fun q => q.hasFabricPort fp && decide (cls < 8))
    (let q := s.queue (qOf fp cls)
     if q.descs.isEmpty && decide (q.avgAt + 1024 ≤ s.clock) then
      (s.updQueue (qOf fp cls) fun x => { x with avgAt := x.avgAt + 1024 }).average fp cls
     else s)

/-- The stall time of a queue has reached StallBound (R141): on a trunk the cell times given to the class count. -/
def State.stalled (s : State) (fp cls : Nat) : Bool :=
  let q := qOf fp cls
  !(s.queue q).descs.isEmpty &&
    (if fp < 4 then decide (s.get (ob (0x2510 + fp) 0x19) * 1000000 ≤ (s.queue q).stall)
     else s.due (.stall q) (usec (s.get (ob (0x2510 + fp) 0x19))))

/-- The tunnels with cells in a queue whose DrainBound is due (R118, R144). -/
def State.drainsDue (s : State) (q : Nat) : List Nat :=
  (((s.queue q).descs.map fun d => d.cell.tunnel).eraseDups).filter s.drainOver

/-- R141. A queue's stall time reaches StallBound: every queued cell is discarded, after those of the tunnels whose
DrainBound is due in the same cycle (R144). -/
def execStallBoundExpired (fp cls : Nat) (s : State) : Ans :=
  onPort s (fun q => q.hasFabricPort fp && decide (cls < 8))
    (if s.stalled fp cls then
      let q := qOf fp cls
      let s := forAll (fun n (s : State) => s.drainExpired n) (s.drainsDue q) s
      let n := (s.queue q).descs.length
      if n = 0 then s
      else
      let s := s.release fp cls (s.queue q).descs []
      let s := s.updQueue q fun x => { x with opens := [] }
      let s := (s.count (portKey fp 0x0E) n).count (portKey fp 0x0F) 1
      s.fabricEv 0x4001 2 0 fp (u16 cls) [n] (u32 (s.get (ob (0x2510 + fp) 0x19)))
     else s)

/-- A held cell has reached HoldBound and cannot be admitted now (R142, R144). -/
def State.overHeld (s : State) (t : Nat) (h : Held) : Bool :=
  decide (h.since + usec (s.get (ob (0x2510 + t) 0x1A)) ≤ s.clock) && !s.fits (s.fromTunnel t h.cell)

/-- R142. Cells held for HoldBound are discarded and their credits return. -/
def execHoldBoundExpired (t : Nat) (s : State) : Ans :=
  onPort s (fun q => q.hasTrunk t)
    (let gone := (s.trunk t).held.filter (s.overHeld t)
     let s' := s.updTrunk t fun x => { x with held := x.held.filter fun h => !s.overHeld t h }
     let s' := forAll (fun (h : Held) s => s.giveCredit t h.cell.cls) gone s'
     forAll (fun c (s : State) =>
       let n := (gone.filter fun h => decide (h.cell.cls = c)).length
       if n = 0 then s
       else (s.count (portKey t 0x10) n).fabricEv 0x4002 2 1 t (u16 c) [n] (u32 (s.get (ob (0x2510 + t) 0x1A))))
       (upTo 8) s')

/-- R129. An open unit older than the stall bound is discarded whole at its terminating egress, the cells still to come with
it. -/
def execOpenUnitTimeout (fp cls flow : Nat) (s : State) : Ans :=
  let since := Sparse.get 0 (s.queue (qOf fp cls)).opens flow
  onPort s (fun q => q.hasFabricPort fp && decide (cls < 8))
    (if terminating fp && decide (since ≠ 0 ∧ since - 1 + usec (s.get (ob (0x2510 + fp) 0x19)) ≤ s.clock) then
      (s.dropUnit fp cls flow).setUnit (qOf fp cls) flow 5
     else s)

/-- R136. A learnt entry not refreshed for AgeingTime is removed. -/
def execL2EntryAged (entry : Nat) (s : State) : Ans :=
  let x := s.l2 entry
  onUnit (decide (entry < 16384))
    (if x.valid && !x.fixed && decide (x.seen + sec (s.get (ob 0x2501 1)) ≤ s.clock) then s.setL2 entry {} else s)

/-- An entry copied into the window (R147). -/
def State.showL2 (s : State) (x : L2) : State :=
  s.setAll [(ob 0x2502 2, x.mac), (ob 0x2502 3, x.vlan), (ob 0x2502 4, x.ports), (ob 0x2502 5, x.tunnel),
    (ob 0x2502 6, ofBool (x.fixed || s.hostMode 2)), (ob 0x2502 7, if x.valid then (s.clock - x.seen) / 1000000000 else 0),
    (ob 0x2502 8, ofBool x.valid)]

/-- The slot of the window's address (R147). -/
def State.windowSlot (s : State) : Option Nat := s.findL2 (s.get (ob 0x2502 2)) (s.get (ob 0x2502 3))

/-- R147. L2Entry command 1 reads the entry that matches the window's MAC and VLAN. -/
def execL2ReadMatch (path : Path) (s : State) : Ans :=
  onPath path true s (s.command path 0x2502 1 anyState [1, 2, 3, 4, 5] [] fun s =>
    match s.windowSlot with
    | some k => (s.showL2 (s.l2 k)).cmdCommit 0x2502 0
    | none => s.cmdFail 0x2502 1)

/-- R147. L2Entry command 2 reads the entry in a slot. -/
def execL2ReadSlot (path : Path) (s : State) : Ans :=
  onPath path true s (s.commandNow path 0x2502 2 anyState [1, 2, 3, 4, 5] [] 0 fun s => s.showL2 (s.l2 (s.get (ob 0x2502 1))))

/-- The way that a host write takes: its own entry, a free way, or the oldest learnt one (R144). -/
def State.writeWay (s : State) (mac vlan : Nat) : Option Nat :=
  match s.findL2 mac vlan with
  | some k => some k
  | none =>
    let b := bucketOf mac vlan
    match s.freeWay b with
    | some k => some k
    | none =>
      ((waysOf b).filter fun k => !(s.l2 k).fixed).foldl (fun o k =>
        match o with
        | none => some k
        | some j => if (s.l2 k).seen < (s.l2 j).seen then some k else some j) none

/-- R147. L2Entry command 3 writes the window as an entry. -/
def execL2WriteEntry (path : Path) (s : State) : Ans :=
  onPath path true s (s.command path 0x2502 3 anyState [1, 2, 3, 4, 5] [] fun s =>
    let mac := s.get (ob 0x2502 2)
    let vlan := s.get (ob 0x2502 3)
    match s.writeWay mac vlan with
    | some k =>
      (s.setL2 k { valid := true, mac, vlan, ports := s.get (ob 0x2502 4), tunnel := s.get (ob 0x2502 5),
                   fixed := s.hostMode 2 || decide (s.get (ob 0x2502 6) = 1), seen := s.clock,
                   written := s.clock + 1 }).cmdCommit 0x2502 0
    | none => s.cmdFail 0x2502 2)

/-- R147. L2Entry command 4 deletes the matching entry. -/
def execL2DeleteEntry (path : Path) (s : State) : Ans :=
  onPath path true s (s.command path 0x2502 4 anyState [1, 2, 3, 4, 5] [] fun s =>
    match s.windowSlot with
    | some k => (s.setL2 k {}).cmdCommit 0x2502 0
    | none => s.cmdFail 0x2502 1)

/-- Every learnt entry is flushed (R147, R54). -/
def State.flushLearnt (s : State) : State :=
  forAll (fun (e : Nat × L2) s => if e.2.fixed then s else s.setL2 e.1 {}) s.fabric.l2 s

/-- R147. L2Entry command 5 flushes every learnt entry. -/
def execL2FlushLearnt (path : Path) (s : State) : Ans :=
  onPath path true s (s.commandNow path 0x2502 5 anyState [1, 2, 3, 4, 5] [] 0 fun s => s.flushLearnt)

/-- R146. FabricStatus command 1 clears the fabric counters. -/
def execFabricClearCounters (path : Path) (s : State) : Ans :=
  onPath path true s (s.commandNow path 0x2500 1 anyState [1] [] 0 fun s =>
    s.clear (([6, 7, 8, 9].map fun k => ob 0x2500 k) ++
      (upTo 20).flatMap fun p => (upTo 15).map fun k => portKey p (9 + k)))

end Sys2Proof.Machine
end

