-- ==== Sys2Proof/Machine/BootOps.lean ====
section
/-!
DEFINITION. The boot flash, images and their checks, the boot record, and the stored configuration (R50-R52, R439-R452).
-/

set_option Elab.async false

namespace Sys2Proof.Machine

open Sys2Proof

/-- Boot's own state changed. -/
def State.updBoot (s : State) (f : Boot → Boot) : State := { s with boot := f s.boot }

/-- A byte of the boot flash; an unlisted byte is erased. -/
def State.flashByte (s : State) (a : Nat) : BitVec 8 := Sparse.get 0xFF s.boot.flash a

/-- `n` bytes of the boot flash from an address. -/
def State.flashBytes (s : State) (a n : Nat) : Bytes := (upTo n).map fun k => s.flashByte (a + k)

/-- Bytes programmed into the boot flash from an address. -/
def State.program (s : State) (a : Nat) : Bytes → State
  | [] => s
  | b :: r => (s.updBoot fun x => { x with flash := Sparse.put 0xFF a b x.flash }).program (a + 1) r

/-- The regions that hold images (R440): 0 slot A, 1 slot B, 2 the application slot, 3 the staging area. -/
def regionBase (r : Nat) : Nat :=
  if r = 0 then 0x00100000 else if r = 1 then 0x01100000 else if r = 2 then 0x03100000 else 0x02100000

def regionSize (r : Nat) : Nat := if r = 2 then 0x00800000 else 0x01000000

/-- A region erased. -/
def State.eraseRegion (s : State) (r : Nat) : State :=
  s.updBoot fun x =>
    { x with flash := x.flash.filter fun e => decide (e.1 < regionBase r ∨ regionBase r + regionSize r ≤ e.1) }

/-- Fields of an image's header (R441). -/
def imgKind (h : Bytes) : Nat := byteAt h 5
def imgSecurity (h : Bytes) : Nat := byteAt h 6
def imgVersion (h : Bytes) : Nat := leAt h 8 4
def imgSchema (h : Bytes) : Nat := leAt h 12 4
def imgLoad (h : Bytes) : Nat := leAt h 16 4
def imgPayload (h : Bytes) : Nat := leAt h 20 4
def imgEntry (h : Bytes) : Nat := leAt h 24 4

/-- The header of a region. -/
def State.regionHeader (s : State) (r : Nat) : Bytes := s.flashBytes (regionBase r) 512

/-- The payload of a region, of the length its header gives. -/
def State.regionPayload (s : State) (r : Nat) : Bytes :=
  s.flashBytes (regionBase r + 512) (imgPayload (s.regionHeader r))

/-- Check 1 of R442: magic, format, kind, lengths and revision. -/
def State.headerGood (s : State) (kind : Nat) (h : Bytes) : Bool :=
  let load := imgLoad h
  let pay := imgPayload h
  decide (512 ≤ h.length) && decide (leAt h 0 4 = 0x494E4C51) && decide (byteAt h 4 = 1) && decide (imgKind h = kind) &&
  decide (load ≤ pay ∧ imgEntry h < max 1 load) &&
  (if kind = 1 then decide (load ≤ 1280 * 1024 ∧ pay ≤ 0x01000000 - 512)
   else decide (load ≤ 256 * 1024 ∧ pay ≤ 0x00800000 - 512 ∧ pay - load ≤ s.get (ob 0x4500 3) * 1024)) &&
  decide (leAt h 28 4 ≤ s.part.revision)

/-- A SHA-384 digest, 48 bytes (R442). -/
def sha384 (b : Bytes) : Bytes := fitBytes 48 (Config.sha384 b)

/-- The key hash of check 2 (R442). -/
def State.keyHash (s : State) (kind : Nat) : Bytes := if kind = 1 then fitBytes 48 Config.imageKeyHash else leBytes 48 s.secu.custHash

/-- The floor of check 5 (R442). -/
def State.floor (s : State) (kind : Nat) : Nat := if kind = 1 then s.boot.rollback else s.boot.appFloor

/-- The cause of the first failing check of R442; 0 when all pass. Without a payload, check 4 is left out (R446). -/
def State.imageCause (s : State) (kind : Nat) (h : Bytes) (payload : Option Bytes) : Nat :=
  let pub := fitBytes 96 (h.drop 80)
  if !s.headerGood kind h then 1
  else if sha384 pub ≠ s.keyHash kind then 2
  else if !Config.ecdsaVerify pub (fitBytes 96 (h.drop 256)) (h.take 256) then 3
  else if (match payload with
      | some p => decide (sha384 p ≠ fitBytes 48 (h.drop 32))
      | none => false) then 4
  else if imgSecurity h < s.floor kind then 5
  else 0

/-- The check of a region's image. -/
def State.regionCause (s : State) (r kind : Nat) : Nat := s.imageCause kind (s.regionHeader r) (some (s.regionPayload r))

/-- The measurement of an image (R442). -/
def State.regionMeasure (s : State) (r : Nat) : Bytes := sha384 (s.regionHeader r ++ s.regionPayload r)

/-- The region that a running activation writes (R448). -/
def State.activating (s : State) : Option Nat :=
  if s.get (ob 0x6001 1) = 4 then some (if s.get (ob 0x6001 2) = 2 then 2 else 1 - s.boot.lastSlot) else none

/-- SlotState of R455: 0 no image, 1 valid, 2 below the rollback count. -/
def State.slotState (s : State) (r : Nat) : Nat :=
  if s.activating = some r then 0
  else
    let c := s.regionCause r (if r = 2 then 2 else 1)
    if c = 0 then 1 else if c = 5 then 2 else 0

/-- Something to journal at the first successful Boot (R444). -/
def State.note (s : State) (code sev : Nat) (args : Bytes) : State :=
  s.updBoot fun x => { x with notes := x.notes ++ [{ code, inst := 0, sev, src := 0, args, clock := s.clock }] }

/-- The ROM enters Lift (R445): PD12 is powered and the service port presents the DFU device. -/
def State.enterLift (s : State) (cause : Nat) : State :=
  let s := (s.setAll [(ob 0x2000 1, devLift), (ob 0x2021 13, 2)]).updBoot fun x => { x with liftCause := cause, lift := {} }
  let s := s.note 0xF004 3 (u16 0 ++ u8 cause)
  if s.isSink && s.pd.vbus then s.liftPull true else s

/-- Areas of the configuration (R50); 0 for an index that no area holds. -/
def areaOf (i : Nat) : Nat :=
  if 0x1000 ≤ i ∧ i < 0x2000 then 2
  else if (0x2000 ≤ i ∧ i < 0x4000) ∨ (0x4100 ≤ i ∧ i < 0x7000) then 3
  else if 0x4000 ≤ i ∧ i < 0x4100 then 4
  else 0

/-- The area of an object's key. -/
def keyArea (k : Nat) : Nat := areaOf (plainIndex (k / 256))

/-- The object is stored (R51): RW or RWS, none of sessions, counters, gate tables (R153) and command blocks. -/
def storedKey (k : Nat) : Bool :=
  let i := k / 256
  let sub := k % 256
  decide (sub < 0xF0) && !([0x1010, 0x1011, 0x1100, 0x1101, 0x1F80].contains i) &&
  !decide (0x2610 ≤ i ∧ i < 0x2614 ∧ 1 ≤ sub ∧ sub ≤ 0x40) &&
  (match rowAt i sub with
   | some r => decide (r.acc = .rw ∨ r.acc = .rws)
   | none => false)

/-- Value and Quality of a map entry, which are RO in hardware mapping and RW in host mapping (R331, R337). -/
def mapLive (k : Nat) : Bool :=
  decide (0x5000 ≤ k / 256 ∧ k / 256 < 0x5400 ∧ (k % 256 = 0x16 ∨ k % 256 = 0x17))

/-- The areas that a store or restore of `n` names (R50). -/
def areasOf (n : Nat) : List Nat := if n = 1 then [2, 3, 4] else [n]

/-- The valid copies in MRAM. -/
def State.goodCopies (s : State) : List Copy :=
  (s.boot.copyA.toList ++ s.boot.copyB.toList).filter fun c => c.good

/-- The copy with the highest write count. -/
def newestCopy : List Copy → Option Copy
  | [] => none
  | c :: r => match newestCopy r with
    | none => some c
    | some d => if c.count < d.count then some d else some c

/-- A copy written in place of the one with the lower write count, an absent one first (R51). -/
def State.putCopy (s : State) (c : Copy) : State :=
  let count (x : Option Copy) : Nat := match x with
    | some d => d.count + 1
    | none => 0
  let s := s.updBoot fun x =>
    if count x.copyA ≤ count x.copyB then { x with copyA := some c } else { x with copyB := some c }
  s.updBoot fun x => { x with backupDue := some c }

/-- The next write count. -/
def State.nextCount (s : State) : Nat :=
  match newestCopy ((s.boot.copyA.toList ++ s.boot.copyB.toList)) with
  | some c => cnt 32 c.count 1
  | none => 1

/-- The configuration of this Boot chosen: its source, 1 an MRAM copy, 2 the backup, 3 the defaults, and the copy
(R450). -/
def State.chooseCopy (s : State) : Nat × Option Copy :=
  match newestCopy (s.goodCopies.filter fun c => decide (c.schema ≤ s.boot.schema)) with
  | some c => (1, some c)
  | none =>
    match s.boot.backup with
    | some c => if c.good ∧ c.schema ≤ s.boot.schema then (2, some c) else (3, none)
    | none => (3, none)

/-- A copy comes to be the stored one in use of the areas that it has among these (R44, R51, R354). -/
def State.useCopy (s : State) (c : Option Copy) (areas : List Nat) : State :=
  let of (a : Nat) (old : Option Copy) : Option Copy :=
    if areas.contains a then c.filter fun c => c.areas.contains a else old
  s.updBoot fun x => { x with used2 := of 2 x.used2, used4 := of 4 x.used4 }

/-- The present values of areas as a copy, beside what the copy that a Boot would choose holds of the others (R50, R51). -/
def State.copyNow (s : State) (areas : List Nat) : Copy :=
  let old : Copy := s.chooseCopy.2.getD {}
  let keepOld := old.areas.filter fun a => !areas.contains a
  let mine (k : Nat) : Bool := areas.contains (keyArea k) && storedKey k && (s.hostMode 8 || !mapLive k)
  let objs := (old.objs.filter fun e => keepOld.contains (keyArea e.1)).foldl (fun m e => Sparse.ins e.1 e.2 m)
    (s.objs.filter fun e => mine e.1)
  let strs := (old.strs.filter fun e => keepOld.contains (keyArea e.1)).foldl (fun m e => Sparse.ins e.1 e.2 m)
    (s.strs.filter fun e => mine e.1)
  { schema := s.boot.schema, count := s.nextCount, head := s.head, areas := keepOld ++ areas, objs, strs }

/-- The objects whose defaults depend on the role (R4). -/
def roleKeys : List Nat :=
  [ob 0x2100 6, ob 0x2200 6, ob 0x2300 6, ob 0x2400 6, ob 0x2F00 1, ob 0x2F00 2, ob 0x2800 1, ob 0x2801 1, ob 0x2802 1,
   ob 0x2803 1, ob 0x2020 9, ob 0x2D01 2, ob 0x2D02 2]

/-- The values of a copy in force, of the areas named; what it does not list has its default in the role under which it
was stored (R51, R52). -/
def State.applyCopy (s : State) (c : Copy) (areas : List Nat) : State :=
  let mine (k : Nat) : Bool := areas.contains (keyArea k) && c.areas.contains (keyArea k)
  let s := forAll (fun (e : Nat × Nat) s => s.set e.1 e.2) (c.objs.filter fun e => mine e.1) s
  let s := forAll (fun (k : Nat) s => s.set k (Sparse.get (objDefault s.part c.head k) c.objs k)) (roleKeys.filter mine) s
  forAll (fun (e : Nat × Bytes) s => s.setStr e.1 e.2) (c.strs.filter fun e => mine e.1) s

/-- What a stored value becomes in the running image: a value in place, or the cause that makes it an orphan (R450,
R451). -/
def State.mapValue (s : State) (schema k v : Nat) : (Nat × Nat) ⊕ Nat :=
  match Config.migrated s.boot.version schema k v with
  | none => .inr 1
  | some (k', v') =>
    match rowAt (k' / 256) (k' % 256) with
    | none => .inr 1
    | some r =>
      if !storedKey k' || r.type = 9 || decide (2 ^ (8 * r.size) ≤ v') then .inr 3
      else if inRange r v' then .inl (k', v') else .inr 2

/-- The same for a string. -/
def State.mapStr (s : State) (schema k : Nat) (v : Bytes) : (Nat × Bytes) ⊕ Nat :=
  match Config.migratedStr s.boot.version schema k v with
  | none => .inr 1
  | some (k', v') =>
    match rowAt (k' / 256) (k' % 256) with
    | none => .inr 1
    | some r => if !storedKey k' || r.type ≠ 9 || decide (strMax (k' / 256) < v'.length) then .inr 3 else .inl (k', v')

/-- The type code and length under which an orphan is recorded: its object's, where the object still exists. -/
def orphanType (k : Nat) : Nat × Nat :=
  match rowAt (k / 256) (k % 256) with
  | some r => (r.type, r.size)
  | none => (Config.code 0xF020 k % 256, Config.code 0x6002 k % 4097)

/-- The orphans that a migration of the copy makes (R450). -/
def State.newOrphans (s : State) (c : Copy) : List Orphan :=
  (c.objs.filterMap fun e =>
    match s.mapValue c.schema e.1 e.2 with
    | .inl _ => none
    | .inr cause =>
      let (type, size) := orphanType e.1
      some { schema := c.schema, key := e.1, type, value := leBytes size e.2, cause, image := s.boot.version }) ++
  (c.strs.filterMap fun e =>
    match s.mapStr c.schema e.1 e.2 with
    | .inl _ => none
    | .inr cause => some { schema := c.schema, key := e.1, type := 9, value := e.2, cause, image := s.boot.version })

/-- What an orphan of the area is adopted as, if the image's table maps it (R450). -/
def State.adopts (s : State) (o : Orphan) : Option (Nat × (Nat ⊕ Bytes)) :=
  if o.type = 9 then
    match s.mapStr o.schema o.key o.value with
    | .inl (k, v) => some (k, .inr v)
    | .inr _ => none
  else
    match s.mapValue o.schema o.key (leNat o.value) with
    | .inl (k, v) => some (k, .inl v)
    | .inr _ => none

/-- The migrated values in force (R450). -/
def State.applyMigrated (s : State) (c : Copy) (areas : List Nat) : State :=
  let mine (k : Nat) : Bool := areas.contains (keyArea k)
  let s := forAll (fun (e : Nat × Nat) s =>
    match s.mapValue c.schema e.1 e.2 with
    | .inl (k, v) => if mine k then s.set k v else s
    | .inr _ => s) c.objs s
  let s := forAll (fun (e : Nat × Bytes) s =>
    match s.mapStr c.schema e.1 e.2 with
    | .inl (k, v) => if mine k then s.setStr k v else s
    | .inr _ => s) c.strs s
  forAll (fun (o : Orphan) s =>
    match s.adopts o with
    | some (k, .inl v) => if mine k then s.set k v else s
    | some (k, .inr v) => if mine k then s.setStr k v else s
    | none => s) s.boot.orphans s

/-- The schema of a newer copy that the choice passes over (R450). -/
def State.passedOver (s : State) (chosen : Option Copy) : Option Nat :=
  let low := match chosen with
    | some c => c.count
    | none => 0
  let backup := if chosen.isNone then s.boot.backup.toList.filter fun c => c.good else []
  (newestCopy ((s.goodCopies ++ backup).filter fun c => decide (s.boot.schema < c.schema ∧ low < c.count))).map fun c =>
    c.schema

/-- TamperConfig as copied into AON (R360). -/
def State.copyTamper (s : State) : State :=
  let as := (upTo 10).foldl (fun m k =>
    Sparse.put (objDefault s.part s.head (ob 0x4008 (k + 1))) k (s.get (ob 0x4008 (k + 1))) m) ([] : List (Nat × Nat))
  { s with secu := { s.secu with actions := as } }

/-- The chosen configuration is in force, without any write effect (R51, R52); areas marked for defaults have them, and
the guard die takes the power-entry configuration (R374). -/
def State.takeConfig (s : State) : State :=
  let s := { s with objs := s.objs.filter fun e => !storedKey e.1 || decide (e.1 / 256 = slotIndex 0), strs := [] }
  let (source, copy) := s.chooseCopy
  let used := match copy with
    | some c => c.schema
    | none => s.boot.schema
  let passed := (s.passedOver copy).map fun p => (p, used)
  let areas := [2, 3, 4].filter fun a => !(s.boot.restore.contains 1 || s.boot.restore.contains a)
  let s :=
    match copy with
    | none => s
    | some c => if c.schema < s.boot.schema then s.applyMigrated c areas else s.applyCopy c areas
  let from_ := match copy with
    | some c => if c.schema < s.boot.schema then some c else none
    | none => none
  let s := (s.updBoot fun x => { x with chosen := source, from_, passed, used2 := none, used4 := none }).useCopy copy areas
  let s := forAll (fun (f : Nat) s => s.set (ob 0x2011 (f + 1)) (s.get (ob 0x2010 (f + 1)))) (upTo 11) s
  ({ s with usb := { s.usb with ganged := decide (s.get (ob 0x2A00 4) = 1) } }).copyTamper

/-- The migration's end (R450): orphans recorded, those adopted removed, and the migrated configuration stored; at most
1024 orphans are kept, the oldest dropped and counted (R451). -/
def State.storeMigrated (s : State) : State :=
  match s.boot.from_ with
  | none => s
  | some c =>
    let new := s.newOrphans c
    let kept := s.boot.orphans.filter fun o => (s.adopts o).isNone
    let adopted := s.boot.orphans.length - kept.length
    let all := kept ++ new
    let overV := all.length - 1024
    let s := (s.updBoot fun x => { x with orphans := all.drop overV, from_ := none }).count (ob 0x6002 5) overV
    let stored := s.copyNow c.areas
    let s := (s.putCopy stored).useCopy (some stored) c.areas
    let done := c.objs.length + c.strs.length - new.length
    s.ev 0xF020 0 1 0 (u16 0 ++ u32 c.schema ++ u32 s.boot.schema ++ u16 done ++ u16 new.length ++ u16 adopted)

/-- Parts of the dictionary that take effect when a function is enabled, taken as the stored configuration has them
(R51): windows, map entries, the service-port device's endpoints. -/
def State.takeEnabled (s : State) : State :=
  let s := forAll (fun (w : Nat) s => if s.get (winKey w 1) = 1 then s.windowSet w 1 else s) (upTo 64) s
  let s := forAll (fun (n : Nat) s => if s.get (mapKey n 1) = 1 then s.mapEnable n else s) (upTo 1024) s
  s.takePlan

end Sys2Proof.Machine
end

