-- ==== Sys2Proof/Machine/AppOps.lean ====
section
/-!
DEFINITION. Pair B's states and image (R387), and the interrupt controller's claims (R395-R399).
-/

set_option Elab.async false

namespace Sys2Proof.Machine

open Sys2Proof

/-- Pair B's own state changed. -/
def State.updApp (s : State) (f : App → App) : State := { s with app := f s.app }

/-- AppState: 0 Off, 1 Loading, 2 Running, 3 Halted, 4 Refused (R387). -/
def State.appState (s : State) : Nat := s.get (ob 0x4501 1)

/-- Pair B executes (R387). -/
def State.appRuns (s : State) : Bool := decide (s.appState = 2)

/-- Pair B changes state, for a cause of R407: 1 command, 2 AppEnable, 3 device Reset. -/
def State.appGo (s : State) (new cause : Nat) : State :=
  let old := s.appState
  (s.set (ob 0x4501 1) new).ev 0x1200 0 1 1 (u8 old ++ u8 new ++ u8 cause)

/-- The watchdog of pair B starts anew, if a timeout is set (R394). -/
def State.appWatch (s : State) : State := if s.get (ob 0x4500 7) = 0 then s.stop .appWdog else s.start .appWdog

/-- What a halt, a restart and Off end (R387, R401): the gateway session, by an access on path `p` made at station time
`time` (R58, R478), and the active marks of pair B's sources. -/
def State.appEnd (s : State) (p : Path) (time : Nat) : State :=
  let s := (s.endSessionAt time .gateway 4 p).stop .appWdog
  { s with irq := { s.irq with normalB := 0, fastB := 0 } }

/-- Loading begins: the tightly coupled memory is lost (R387). -/
def State.appLoad (s : State) (cause : Nat) : State :=
  ((s.appGo 1 cause).updApp fun x => { x with tcm := [] }).set (ob 0x4501 2) 0

/-- A halt (1), restart (2) or Off (3) that an access asked for takes place (R387). -/
def State.appStop (s : State) (what : Nat) : State :=
  let s := (s.updApp fun x => { x with stop := 0 }).appEnd s.app.stopBy s.app.stopAt
  if what = 1 then (s.appGo 3 1).cmdCommit 0x4500 0
  else if what = 2 then s.appLoad 1
  else
    let s := (s.appGo 0 2).updApp fun x => { sram := x.sram, mram := x.mram }
    if s.get (ob 0x4500 1) = 1 then s.appLoad 2 else s

/-- A halt, restart or Off asked for on path `p` waits for a gateway request already complete at the engine (R387). -/
def State.appAsk (s : State) (p : Path) (what : Nat) : State :=
  let s := s.updApp fun x => { x with stopBy := p, stopAt := s.station }
  if s.app.gwOp = 0 then s.appStop what else s.updApp fun x => { x with stop := what }

/-- Bytes copied into a memory from an address, canonical; an unlisted byte reads 0. -/
def putBytes (m : List Host.Cell) (a : Nat) : Bytes → List Host.Cell
  | [] => m
  | b :: r => putBytes (Sparse.put 0 a b m) (a + 1) r

/-- The reason for which the application slot's image is refused; 0 when it is accepted (R442). -/
def State.appRefusal (s : State) : Nat :=
  let c := s.regionCause 2 2
  if s.secu.custHash = 0 then 1 else if c = 1 then 4 else if c = 5 then 3 else if c = 0 then 0 else 2

/-- Loading ends (R387): Running from the image's start, or Refused. -/
def State.appLoaded (s : State) : State :=
  let why := s.appRefusal
  let h := s.regionHeader 2
  let byCmd := s.cmdRuns 0x4500 && decide ((s.cmd 0x4500).value = 3)
  let cause := if byCmd then 1 else 2
  if why = 0 then
    let pay := s.regionPayload 2
    let n := imgLoad h
    let sec := imgSecurity h
    let measure := s.regionMeasure 2
    let s := s.updApp fun x =>
      { x with tcm := putBytes [] 0 (pay.take n), sram := putBytes x.sram 0 (pay.drop n), secVersion := sec, measure }
    let s := s.setAll [(ob 0x4501 2, 0), (ob 0x4501 3, imgVersion h), (ob 0x4501 4, s.station)]
    let s := (s.updSession .gateway fun _ => {}).appWatch.appGo 2 cause
    if byCmd then s.cmdCommit 0x4500 0 else s
  else
    let s := ((s.set (ob 0x4501 2) why).appGo 4 cause).ev 0x1201 0 3 1 (u8 why ++ u32 (imgVersion h))
    if byCmd then s.cmdFail 0x4500 (Config.code 0x4500 why % 2 ^ 32) else s

/-- The active source of a class on a pair (0 A, 1 B); class 0 normal, 1 fast (R395). -/
def Irq.active (x : Irq) (pair cls : Nat) : Nat :=
  if pair = 0 then if cls = 0 then x.normalA else x.fastA else if cls = 0 then x.normalB else x.fastB

/-- That source set. -/
def Irq.setActive (x : Irq) (pair cls src : Nat) : Irq :=
  if pair = 0 then if cls = 0 then { x with normalA := src } else { x with fastA := src }
  else if cls = 0 then { x with normalB := src } else { x with fastB := src }

/-- The source's level (R396). -/
def Irq.level (x : Irq) (src : Nat) : Bool := if src < 384 then x.latch.testBit src else x.bells.testBit src

/-- The source is active on some pair. -/
def Irq.isActive (x : Irq) (src : Nat) : Bool := [x.normalA, x.normalB, x.fastA, x.fastB].contains src

/-- The source is pending (R396). -/
def State.srcPending (s : State) (src : Nat) : Bool := s.irq.level src && !s.irq.isActive src

/-- The pair's enable bits; those of sources not routed to it read zero (R395). -/
def State.enabled (s : State) (pair src : Nat) : Bool :=
  (if pair = 0 then s.irq.enableA else s.irq.enableB).testBit src && decide (s.route src = pair + 1)

/-- The pair writes its enable bits; those of sources not routed to it are ignored (R395). -/
def State.setEnable (s : State) (pair mask : Nat) : State :=
  let m := (upTo 512).foldl (fun v k => if mask.testBit k && decide (k ≠ 0 ∧ s.route k = pair + 1) then setBit v k else v) 0
  { s with irq := if pair = 0 then { s.irq with enableA := m } else { s.irq with enableB := m } }

/-- The pair writes IRQ_CTRL (R395). -/
def State.setCtrl (s : State) (pair ctrl : Nat) : State :=
  { s with irq := if pair = 0 then { s.irq with ctrlA := ctrl % 4 } else { s.irq with ctrlB := ctrl % 4 } }

/-- The better of two sources: higher Priority, then lower number (R397). -/
def State.better (s : State) (a b : Nat) : Nat :=
  if s.get (ob (irqIndex a) 4) < s.get (ob (irqIndex b) 4) then b else a

/-- The source that a claim of the class returns, 0 for none (R397). -/
def State.bestSource (s : State) (pair cls : Nat) : Nat :=
  let able := ((upTo 512).filter fun k => decide (k ≠ 0)).filter fun k =>
    s.srcPending k && s.enabled pair k && decide (s.get (ob (irqIndex k) 3) = cls)
  match able with
  | [] => 0
  | k :: r => r.foldl s.better k

/-- A read of a claim register (R397). -/
def State.claim (s : State) (pair cls : Nat) : State :=
  let k := if s.irq.active pair cls ≠ 0 then 0 else s.bestSource pair cls
  let s :=
    if k = 0 then s
    else
      let x := s.irq.setActive pair cls k
      ({ s with irq := if k < 384 then { x with latch := clrBit x.latch k } else x }).count (ob (irqIndex k) 7) 1
  s.send (.claimed pair cls k)

/-- A write of a complete register (R397); the event counts pairs as Route does, from 1. -/
def State.endSource (s : State) (pair cls src : Nat) : State :=
  if src ≠ 0 ∧ s.irq.active pair cls = src then { s with irq := s.irq.setActive pair cls 0 }
  else s.evRate 0x1230 0 2 0 (sec 1) (u8 (pair + 1) ++ u8 cls ++ u16 src) [1] []

/-- The class requests delivery to the pair (R398). -/
def State.delivers (s : State) (pair cls : Nat) : Bool :=
  !(if pair = 0 then s.irq.ctrlA else s.irq.ctrlB).testBit cls && decide (s.irq.active pair cls = 0) &&
  decide (s.bestSource pair cls ≠ 0) && (decide (cls = 1) || decide (s.irq.active pair 1 = 0))

/-- The pair executes: pair A outside Reset, pair B in Running. -/
def State.pairRuns (s : State) (pair : Nat) : Bool :=
  if pair = 0 then decide (s.dev ≠ devReset) && !s.irq.stopped else s.appRuns && !s.irq.stopped

/-- A delivery (R399): an entry claims; one that resumes and finds no source counts as spurious. -/
def State.deliver (s : State) (pair cls : Nat) (resumed : Bool) : State :=
  if s.delivers pair cls then s.claim pair cls
  else if resumed ∧ s.irq.active pair cls = 0 then
    let s := if pair = 1 ∧ s.bestSource pair cls = 0 then s.count (ob 0x4501 0x0C) 1 else s
    s.claim pair cls
  else s

end Sys2Proof.Machine
end

