-- ==== Sys2Proof/Machine/JournalOps.lean ====
section
/-!
DEFINITION. Reading the journal's ring and pushing it to the far hub (R279-R283).
-/

set_option Elab.async false

namespace Sys2Proof.Machine

open Sys2Proof

/-- Indices of the newest and the oldest entry; with an empty ring the oldest is the next one (R281, R290). -/
def State.newestIndex (s : State) : Nat := (s.jour.next + 2 ^ 32 - 1) % 2 ^ 32
def State.oldestIndex (s : State) : Nat := (s.jour.next + 2 ^ 32 - s.jour.ring.length) % 2 ^ 32

/-- The place of an index in the ring, newest first, if it is there. -/
def State.placeOf (s : State) (index : Nat) : Option Nat :=
  let k := wrapAdd 32 s.jour.next (2 ^ 32 - 1 - index % 2 ^ 32)
  if k < s.jour.ring.length then some k else none

/-- The 32 bytes of the entry at a place (R279). -/
def State.entryBytes (s : State) (k : Nat) : Bytes :=
  let e := s.jour.ring.getD k {}
  if e.bad then zeros 32
  else u64 e.time ++ u16 e.code ++ u16 e.inst ++ u8 e.sev ++ u8 e.flags ++ u16 (s.jour.seq + 65536 * 3 - 1 - k % 65536) ++
    fitBytes 16 e.args

/-- ReadIndex of a path: OldestIndex until it is written or a read advances it (R282, R290). The hub keeps 0 for that, else
the index plus 1. -/
def readKey (p : Path) : Nat := ob (heldIndex p.held 0x2F11) 1
def State.readIndex (s : State) (p : Path) : Nat :=
  if s.get (readKey p) = 0 then s.oldestIndex else s.get (readKey p) - 1

/-- RemoteReadIndex of a path (R283). -/
def remoteKey (p : Path) (t : Nat) : Nat := ob (heldIndex p.held (0x2F18 + t)) 5

/-- A journal-push object of a trunk (R290). -/
def pushKey (t sub : Nat) : Nat := ob (0x2F18 + t) sub

/-- The indices from `a` on, `n` of them. -/
def indicesFrom (a n : Nat) : List Nat := (upTo n).map fun i => (a + i) % 2 ^ 32

/-- Entries that were overwritten before they were pushed are skipped and counted (R283). -/
def State.pushSkip (s : State) (t : Nat) : State :=
  let behind := (s.newestIndex + 2 ^ 32 - s.get (pushKey t 1)) % 2 ^ 32
  let n := behind - s.jour.ring.length
  if n = 0 then s
  else
    ((s.set (pushKey t 1) ((s.get (pushKey t 1) + n) % 2 ^ 32)).count (pushKey t 3) n).evRate 0x1181 t 2 8 (sec 1) (u16 t)
      [n] []

/-- The path's ReadIndex past an entry, and whether the entry is intact (R282, R413). -/
def State.entryTaken (s : State) (p : Path) (next : Nat) (bad : Bool) : State :=
  (s.set (readKey p) (next + 1)).set (ob (heldIndex p.held 0x2F11) 3) (ofBool !bad)

/-- The journal entry at an index read by a path, and its ReadIndex set past it (R282). -/
def State.takeAt (s : State) (p : Path) (i : Nat) : Bytes × State :=
  match s.placeOf i with
  | some k =>
    (s.entryBytes k, s.entryTaken p ((i + 1) % 2 ^ 32) (s.jour.ring.getD k {}).bad)
  | none => (zeros 32, s.set (ob (heldIndex p.held 0x2F11) 3) 0)

/-- The journal entry at a path's ReadIndex, and the index advanced past it (R282). -/
def State.takeEntry (s : State) (p : Path) : Bytes × State := s.takeAt p (s.readIndex p)

/-- The far hub's entry at a path's RemoteReadIndex of a trunk, and the index advanced past it (R283). -/
def State.takeRemote (s : State) (p : Path) (t : Nat) : Bytes × State :=
  let i := s.get (remoteKey p t)
  match (s.plt t).ring.find? fun e => decide (e.1 = i) with
  | some (_, b) => (b, s.set (remoteKey p t) ((i + 1) % 2 ^ 32))
  | none => (zeros 32, s)

/-- A push cell of the entries with these indices goes to tunnel 3 of the trunk (R283). -/
def State.pushSend (s : State) (t : Nat) (is : List Nat) : State :=
  let bytes := is.flatMap fun i => match s.placeOf i with | some k => s.entryBytes k | none => []
  if bytes = [] then s else s.emit 3 [t] (s.newCell 3 0 bytes)

/-- Another push cell may leave in this cycle (R283). -/
def State.pushFree (s : State) (t : Nat) : Bool := decide ((s.plt t).cells < s.get (ob 0x2F10 8))

/-- A push cell sent again, as far as the cycle has room for it (R283). -/
def State.pushAgain (s : State) (t : Nat) (e : Nat × List Nat × Nat) : State :=
  if s.pushFree t then
    (s.pushSend t e.2.1).updPl t fun x =>
      { x with pushes := x.pushes.map fun y => if y = e then (e.1, e.2.1, s.clock) else y, cells := x.cells + 1 }
  else s

/-- One push cell, if entries of at least PushMinSeverity wait (R283). -/
def State.pushOne (s : State) (t : Nat) : State :=
  if !s.pushFree t then s
  else
  let s := s.pushSkip t
  let from_ := s.get (pushKey t 1)
  let behind := (s.newestIndex + 2 ^ 32 - from_) % 2 ^ 32
  let wait := (indicesFrom (from_ + 1) behind).filter fun i =>
    match s.placeOf i with | some k => decide (s.get (ob 0x2F10 6) ≤ (s.jour.ring.getD k {}).sev) | none => false
  let is := wait.take 7
  if is.isEmpty then s.set (pushKey t 1) s.newestIndex
  else
    let last := is.getLastD 0
    ((s.set (pushKey t 1) last).pushSend t is).updPl t fun x =>
      { x with pushes := x.pushes ++ [(last, is, s.clock)], cells := x.cells + 1 }

/-- The push cells of a cycle (R283). -/
def State.pushCycle (s : State) (t : Nat) : State :=
  if s.get (ob 0x2F10 5) = 1 ∧ s.trained t then
    forAll (fun _ s => s.pushOne t) (upTo (s.get (ob 0x2F10 8))) s
  else s

/-- Command 1 of JournalControl empties the ring; pushing continues from EV_JOURNAL_CLEARED (R281, R284). -/
def State.clearJournal (s : State) (id : Nat) : State :=
  let s := { s with jour := { s.jour with ring := [] } }
  let s := forAll (fun t s => (s.set (pushKey t 1) s.newestIndex).updPl t fun x => { x with pushes := [] })
    (upTo s.part.trunks) s
  s.ev 0x1180 0 1 9 (u16 id)

/-- A pushed entry's index at the far hub: its sequence extended to the value nearest the newest one stored (R279,
R283). -/
def farIndex (ring : List (Nat × Bytes)) (seq : Nat) : Nat :=
  match ring with
  | [] => seq
  | (n, _) :: _ =>
    let d := (seq + 65536 - n % 65536) % 65536
    if d < 32768 ∨ n + d < 65536 then n + d else n + d - 65536

/-- An entry put into the far hub's ring by its index. -/
def ringPut (i : Nat) (b : Bytes) : List (Nat × Bytes) → List (Nat × Bytes)
  | [] => [(i, b)]
  | (n, x) :: r => if n < i then (i, b) :: (n, x) :: r else if n = i then (n, x) :: r else (n, x) :: ringPut i b r

/-- A pushed entry is stored unaltered; a full ring loses its oldest (R283). -/
def State.pushStore (s : State) (t : Nat) (b : Bytes) : State :=
  let ring := (s.plt t).ring
  let i := farIndex ring (leAt b 14 2)
  if ring.any fun e => decide (e.1 = i) then s
  else
    let s := (s.count (pushKey t 4) 1).updPl t fun x => { x with ring := (ringPut i b x.ring).take 1024 }
    if 1024 ≤ ring.length then s.count (pushKey t 7) 1 else s

/-- The 32-byte entries of a push cell. -/
def entriesOf : Nat → Bytes → List Bytes
  | 0, _ => []
  | n + 1, b => b.take 32 :: entriesOf n (b.drop 32)

/-- A read of an object by a path that answers the bytes. -/
def State.answer (s : State) (p : Path) (index sub : Nat) (b : Bytes) : State := s.send (.value p index sub b)

end Sys2Proof.Machine
end

