-- ==== Sys2Proof/Machine/DiagOps.lean ====
section
/-!
DEFINITION. Margin planning, background tasks, the wear of the boot flash and telemetry (R420-R430).
-/

set_option Elab.async false

namespace Sys2Proof.Machine

open Sys2Proof

/-- The safety functions' own state changed. -/
def State.updSafety (s : State) (f : SafetyState → SafetyState) : State := { s with safety := f s.safety }

/-- MarginConfig, MarginStatus, and DramMargin (R434, R435). -/
def mgCfg (sub : Nat) : Nat := ob 0x4200 sub
def mgStat (sub : Nat) : Nat := ob 0x4201 sub
def dramKey (sub : Nat) : Nat := ob 0x4230 sub

/-- BackgroundTask of R437. -/
def taskKey (k sub : Nat) : Nat := ob (0x4310 + k) sub

/-- The task is suspended (R427). -/
def State.taskSuspended (s : State) (k : Nat) : Bool :=
  if k = 0 ∨ k = 5 then !s.domainOn 9
  else if k = 6 then !((upTo s.part.trunks).any s.trained)
  else if k = 8 then decide (s.get (ob 0x6001 1) = 1) || decide (s.dev = devLift)
  else false

/-- The task runs: in every state but Reset, Boot and Lift, enabled, and not suspended (R427, R428). -/
def State.taskRuns (s : State) (k : Nat) : Bool := s.reach && s.flag (taskKey k 1) && !s.taskSuspended k

/-- TaskState: 0 idle, 1 running, 2 suspended, 3 disabled (R437). -/
def State.taskState (s : State) (k : Nat) : Nat :=
  if !s.flag (taskKey k 1) then 3 else if s.taskSuspended k then 2 else s.get (taskKey k 2)

/-- A pass begins (R437). -/
def State.passBegin (s : State) (k : Nat) : State := (s.start (.pass k)).updSafety fun x => { x with late := x.late.filter (· ≠ k) }

/-- A portion of a task's pass: what it corrected and could not correct, and the pass's end (R437). -/
def State.taskStep (s : State) (k corrected bad : Nat) (done : Bool) : State :=
  let s := if s.timing (.pass k) then s else s.passBegin k
  let s := (s.count (taskKey k 7) corrected).count (taskKey k 8) bad
  if done then
    let ms := (s.clock - (timerStart (.pass k) s.timers).getD s.clock) / 1000000
    let s := (s.count (taskKey k 4) 1).setAll [(taskKey k 2, 0), (taskKey k 5, s.station), (taskKey k 6, ms % 2 ^ 32)]
    s.passBegin k
  else s.set (taskKey k 2) 1

/-- The period of a task's pass in nanoseconds (R427); 0 for continuous work without one. -/
def State.taskPeriod (s : State) (k : Nat) : Nat :=
  if k = 0 then s.part.dramBytes * 1000 / s.get (ob 0x4300 1)
  else if k = 1 then msec 100
  else if k = 2 then sec 10
  else if k = 3 then sec 60
  else if k = 4 then msec 10
  else if k = 5 then msec 128
  else if k = 6 then sec 60
  else if k = 7 then msec 5
  else if k = 8 then 0
  else if k = 9 then msec (s.get (ob 0x4300 4))
  else sec (s.get (mgCfg 6))

/-- TaskEnable takes its value (R428). -/
def State.taskSwitch (s : State) (k v : Nat) : State :=
  let was := s.get (taskKey k 1)
  let s := s.set (taskKey k 1) v
  if v = 1 then s.passBegin k
  else if was = 1 then (s.stop (.pass k)).ev 0xE071 k 2 (352 + k) (u16 k)
  else s

/-- A value is moved by a loop: 0 voltage, 1 equaliser, 2 DRAM (R422-R425, R438). -/
def State.stepEv (s : State) (loop old new : Nat) : State :=
  ((s.count (mgStat 6) 1).count (taskKey 10 7) 1).ev 0xE060 loop 0 329
    (u16 loop ++ u16 old ++ u16 new ++ u16 (s.get (mgStat 3)))

/-- The setpoints on the way from `v` to `goal`, 5 mV apart (R422). -/
def voltSteps : Nat → Nat → Nat → List Nat
  | 0, _, goal => [goal]
  | n + 1, v, goal =>
    if v + 5 < goal then (v + 5) :: voltSteps n (v + 5) goal
    else if goal + 5 < v then (v - 5) :: voltSteps n (v - 5) goal
    else [goal]

/-- VDD_CORE moves to a setpoint, which MRAM holds (R422). -/
def State.setVolts (s : State) (new : Nat) : State :=
  let old := s.get (mgStat 1)
  if old = new then s
  else
    let s := forAll (fun (v : Nat) s => s.send (.avs v)) (voltSteps 200 old new) s
    ((s.set (mgStat 1) new).updSafety fun x => { x with vdd := new }).stepEv 0 old new

/-- PlannedCtle of a lane changes (R423). -/
def State.setCtle (s : State) (t l new : Nat) : State :=
  let old := s.get (ctleKey t l)
  if old = new then s else (s.set (ctleKey t l) new).stepEv 1 old new

/-- A channel's guard cycles change (R424). -/
def State.setGuard (s : State) (c new : Nat) : State :=
  let old := s.get (dramKey (5 + c))
  if old = new then s else (s.set (dramKey (5 + c)) new).stepEv 2 old new

/-- A loop's pinned state (R425): the event on becoming pinned, and from then on once every 24 h. -/
def State.setPin (s : State) (loop : Nat) (pin : Option (Nat × Nat)) : State :=
  let was := (s.get (mgStat 5)).testBit loop
  let others := s.safety.pins.filter fun e => decide (e.1 ≠ loop)
  match pin with
  | none =>
    ((s.set (mgStat 5) (clrBit (s.get (mgStat 5)) loop)).stop (.pinned loop)).updSafety fun x => { x with pins := others }
  | some (bound, want) =>
    let s := (s.set (mgStat 5) (setBit (s.get (mgStat 5)) loop)).updSafety fun x =>
      { x with pins := (loop, bound, want) :: others }
    if was then s
    else (s.start (.pinned loop)).ev 0xE061 loop 2 329 (u16 loop ++ u16 bound ++ u16 want)

/-- What the voltage loop wants (R422), and the value it may have. Nothing is wanted before the sentinels have
reported. -/
def State.wantVolts (s : State) : Nat × Nat :=
  let w := sget 16 (s.get (mgStat 3))
  let v := s.get (mgStat 1)
  let target : Int := s.get (mgCfg 3)
  let want :=
    if s.safety.delays = [] then v
    else if w < (s.get (mgCfg 5) : Nat) then v + 20
    else if w < target then v + 5
    else if target + (s.get (mgCfg 4) : Nat) < w then v - 5
    else v
  (want, min (max want (s.get (mgCfg 1))) (s.get (mgCfg 2)))

/-- The trunk's equaliser is adjusted: Trained in mode 1 or 4 with all five lanes in service (R423). -/
def State.eqRuns (s : State) (t : Nat) : Bool :=
  s.trained t && decide (s.get (tk t 1 4) = 1 ∨ s.get (tk t 1 4) = 4) && decide ((s.lanesIn t 2).length = 5)

/-- The lane with the lowest eye height below EyeTarget (R423). -/
def lowLane (target : Nat) (eyes : List Nat) : List Nat → Option Nat
  | [] => none
  | l :: r =>
    match lowLane target eyes r with
    | none => if eyes.getD l target < target then some l else none
    | some m => if eyes.getD l target < target ∧ eyes.getD l target ≤ eyes.getD m target then some l else some m

/-- What the equaliser loop wants of a trunk (R423): the lane, and a step towards the setting that the last sweep found
best. -/
def State.wantCtle (s : State) (t : Nat) (eyes : List Nat) : Option (Nat × Nat) :=
  if s.eqRuns t then
    (lowLane (s.get (mgCfg 9)) ((eyes.drop (5 * t)).take 5) [0, 1, 2, 3, 4]).map fun l =>
      let p := s.get (ctleKey t l)
      let best := Sparse.get p s.safety.best (5 * t + l)
      (l, if p < best then p + 1 else if best < p then p - 1 else p)
  else none

/-- A wanted equaliser value beyond its bound: the bound (R425). -/
def State.ctleBound (s : State) (old want : Nat) : Option Nat :=
  if old < want ∧ s.get (mgCfg 8) < want then some (s.get (mgCfg 8))
  else if want < old ∧ want < s.get (mgCfg 7) then some (s.get (mgCfg 7))
  else none

/-- What the DRAM loop wants of a channel (R424); a channel not yet measured keeps its setting. -/
def State.wantGuard (s : State) (c : Nat) : Nat :=
  let g := s.get (dramKey (5 + c))
  let width := s.get (dramKey (1 + c))
  let target := s.get (mgCfg 0x0B)
  if width = 0 ∨ !s.domainOn 9 then g
  else if width < target then g + 1
  else if target + 20 < width then g - 1
  else g

/-- A trunk's part of the equaliser loop: applied in hardware mode, else proposed (R423, R426). -/
def State.planTrunk (s : State) (t : Nat) (eyes : List Nat) : State :=
  let pinKey := ob (0x4220 + t) 0x0B
  let plan (s : State) (l v : Nat) : State := if s.hostMode 10 then s.set (ctlePlan t l) v else s.setCtle t l v
  let s := if s.hostMode 10 then s.setAll ([0, 1, 2, 3, 4].map fun l => (ctlePlan t l, s.get (ctleKey t l))) else s
  match s.wantCtle t eyes with
  | none => s.set pinKey 0
  | some (l, want) =>
    match s.ctleBound (s.get (ctleKey t l)) want with
    | some _ => s.set pinKey (setBit 0 l)
    | none => plan (s.set pinKey 0) l want

/-- The first trunk lane that is pinned: its bound and what it wants (R425). -/
def State.pinnedLane (s : State) (eyes : List Nat) : List Nat → Option (Nat × Nat)
  | [] => none
  | t :: r =>
    match s.wantCtle t eyes with
    | some (l, want) =>
      match s.ctleBound (s.get (ctleKey t l)) want with
      | some b => some (b, want)
      | none => s.pinnedLane eyes r
    | none => s.pinnedLane eyes r

/-- A channel's part of the DRAM loop (R424, R426). -/
def State.planChannel (s : State) (c : Nat) : State :=
  let want := s.wantGuard c
  let top := s.get (mgCfg 0x0A)
  let pinned := decide (s.get (dramKey (5 + c)) < want ∧ top < want)
  let s := s.set (dramKey 9) (putBit (s.get (dramKey 9)) c pinned)
  let v := if pinned then s.get (dramKey (5 + c)) else want
  if s.hostMode 10 then s.updSafety fun x => { x with guards := Sparse.ins c v x.guards } else s.setGuard c v

/-- The loops that the proposal would change, a mask (R426). -/
def State.proposed (s : State) : Nat :=
  let volts := ofBool (decide (s.get (mgStat 2) ≠ s.get (mgStat 1)))
  let eq := (upTo s.part.trunks).any fun t =>
    [0, 1, 2, 3, 4].any fun l => decide (s.get (ctlePlan t l) ≠ s.get (ctleKey t l))
  let dram := s.safety.guards.any fun e => decide (s.get (dramKey (5 + e.1)) ≠ e.2)
  volts + 2 * ofBool eq + 4 * ofBool dram

/-- The proposal is gone (R54, R431). -/
def State.dropProposal (s : State) : State :=
  let s := s.clear [mgStat 2, mgStat 9]
  let s := forAll (fun (t : Nat) s => s.clear ([0, 1, 2, 3, 4].map (ctlePlan t))) (upTo s.part.trunks) s
  s.updSafety fun x => { x with guards := [] }

/-- A plan instant (R422-R426). -/
def State.plan (s : State) (eyes : List Nat) : State :=
  let trunks := upTo s.part.trunks
  let (want, new) := s.wantVolts
  let lanePin := s.pinnedLane eyes trunks
  let guardPin := (upTo 4).find? fun c =>
    decide (s.get (dramKey (5 + c)) < s.wantGuard c ∧ s.get (mgCfg 0x0A) < s.wantGuard c)
  let s := s.setPin 0 (if s.get (mgCfg 2) < want then some (s.get (mgCfg 2), want)
    else if want < s.get (mgCfg 1) then some (s.get (mgCfg 1), want) else none)
  let s := s.setPin 1 lanePin
  let s := s.setPin 2 (guardPin.map fun c => (s.get (mgCfg 0x0A), s.wantGuard c))
  let low := !s.safety.delays.isEmpty && decide (sget 16 (s.get (mgStat 3)) < (s.get (mgCfg 5) : Nat))
  let s := if low ∧ new = s.get (mgCfg 2) then
      s.ev 0xE062 0 3 329 (u16 (s.get (mgStat 3)) ++ u16 (s.get (mgStat 4))) else s
  let s := if s.hostMode 10 then s.set (mgStat 2) new else s.setVolts new
  let s := forAll (fun (t : Nat) s => s.planTrunk t eyes) trunks s
  let s := forAll (fun (c : Nat) s => s.planChannel c) (upTo 4) s
  let s := if s.get (mgStat 5) = 0 then s else s.count (mgStat 7) 1
  let s := if s.hostMode 10 then (s.set (mgStat 9) 1).ev 0xE063 0 1 330 (u16 s.proposed) else s
  let s := ((s.set (mgStat 8) s.station).start .plan).taskStep 10 0 0 true
  if s.cmdRuns 0x4201 ∧ (s.cmd 0x4201).value = 2 then s.cmdCommit 0x4201 0 else s

/-- A plan instant is due: after PlanInterval, or 1 s while the worst margin is below MarginFloor (R422), or when a
command waits for one; none while a pair-A mismatch awaits a refreshed permission (R431). -/
def State.planDue (s : State) : Bool :=
  let low := !s.safety.delays.isEmpty && decide (sget 16 (s.get (mgStat 3)) < (s.get (mgCfg 5) : Nat))
  !s.safety.lockA &&
  ((s.taskRuns 10 && s.due .plan (sec (if low then 1 else s.get (mgCfg 6)))) ||
   s.cmdRuns 0x4201 && decide ((s.cmd 0x4201).value = 2))

/-- A lane's PlannedCtle moves to the nearer bound of its envelope, one step per group (R431). -/
def State.ctleInto (s : State) (t l : Nat) : State :=
  forAll (fun (_ : Nat) s =>
    let v := s.get (ctleKey t l)
    if v < s.get (mgCfg 7) then s.setCtle t l (v + 1)
    else if s.get (mgCfg 8) < v then s.setCtle t l (v - 1)
    else s) (upTo 32) s

/-- Values that a narrowed envelope excludes move to the nearer bound (R425, R431). -/
def State.intoEnvelope (s : State) : State :=
  let s := s.setVolts (min (max (s.get (mgStat 1)) (s.get (mgCfg 1))) (s.get (mgCfg 2)))
  let s := forAll (fun (t : Nat) s =>
    if s.trained t then
      forAll (fun (l : Nat) s =>
        s.ctleInto t l) [0, 1, 2, 3, 4] s
    else s) (upTo s.part.trunks) s
  forAll (fun (c : Nat) s => s.setGuard c (min (s.get (dramKey (5 + c))) (s.get (mgCfg 0x0A)))) (upTo 4) s

/-- The proposal applied, within the envelope in force (R426). -/
def State.applyProposal (s : State) : State :=
  if s.flag (mgStat 9) then
    let s := s.setVolts (s.get (mgStat 2))
    let s := forAll (fun (t : Nat) s =>
      if s.eqRuns t then forAll (fun (l : Nat) s => s.setCtle t l (s.get (ctlePlan t l))) [0, 1, 2, 3, 4] s else s)
      (upTo s.part.trunks) s
    let s := forAll (fun (e : Nat × Nat) s => s.setGuard e.1 e.2) s.safety.guards s
    s.intoEnvelope.dropProposal
  else s

/-- Where MarginConfig gives a minimum and a maximum, the minimum does not exceed the maximum, and MarginFloor does not
exceed MarginTarget (R434). -/
def State.marginKinds (s : State) (item v : Nat) : List Nat :=
  let now (sub : Nat) : Nat := if sub = item then v else s.get (mgCfg sub)
  kindIf (decide (now 2 < now 1 ∨ now 8 < now 7 ∨ now 3 < now 5)) 7

/-- A MarginConfig write takes effect (R425). -/
def State.marginSet (s : State) (item v : Nat) : State :=
  let s := s.set (mgCfg item) v
  if [1, 2, 7, 8, 0x0A].contains item then s.intoEnvelope else s

/-- The degradation of a delay against its baseline in 0.01 % (R420); below the baseline or past the width it is
free. -/
def State.degradation (s : State) (k delay base : Nat) : Nat :=
  let d := (delay - base) * 10000 / base
  if base ≤ delay ∧ 0 < base ∧ d < 65536 then d else Config.measured (ob 0x4211 (k + 1)) s.clock % 65536

/-- The baseline recorded once, at the first entry to Run (R420). -/
def State.baselineNow (s : State) : State :=
  if s.dev = devRun ∧ s.safety.baseline = [] ∧ s.safety.delays ≠ [] then
    s.updSafety fun x => { x with baseline := x.delays, baseTime := s.station }
  else s

/-- The sentinel with the lowest margin. -/
def worst : Nat → List Int → Option (Nat × Int)
  | _, [] => none
  | k, m :: r =>
    match worst (k + 1) r with
    | none => some (k, m)
    | some (j, x) => if x < m then some (j, x) else some (k, m)

/-- Blocks of the log area that are still used (R429). -/
def State.norBlock (s : State) (b : Nat) : NorBlock := Sparse.get {} s.safety.nor b
def State.norUsable (s : State) : List Nat := (upTo 96).filter fun b => !(s.norBlock b).retired
def State.setNor (s : State) (b : Nat) (x : NorBlock) : State :=
  s.updSafety fun y => { y with nor := Sparse.put {} b x y.nor }

/-- The erases of the last hour (R429). -/
def State.norHour (s : State) : List Nat := s.safety.norErased.filter fun c => decide (s.clock < c + 3600000000000)

/-- NorWear shows the log area (R436). -/
def State.norShow (s : State) : State :=
  let u := s.norUsable
  let counts := (upTo 96).map fun b => (s.norBlock b).erases
  s.setAll [(ob 0x4340 1, 96), (ob 0x4340 2, 96 - u.length),
    (ob 0x4340 3, (u.filter fun b => decide ((s.norBlock b).seq = 0)).length),
    (ob 0x4340 4, counts.foldl max 0 % 2 ^ 32), (ob 0x4340 5, counts.foldl (· + ·) 0 / 96 % 2 ^ 32),
    (ob 0x4340 6, s.norHour.length)]

/-- Fewer than 8 usable blocks are journalled, once per day (R429). -/
def State.norWarn (s : State) : State :=
  if s.norUsable.length < 8 ∧ !(s.timing .norWear ∧ !s.due .norWear (sec 86400)) then
    (s.start .norWear).ev 0xE081 0 3 360 (u16 s.norUsable.length)
  else s

/-- A block is retired (R429): cause 0 its erase count, 1 a failed erase, 2 a failed program. -/
def State.norRetire (s : State) (b cause : Nat) : State :=
  let x := s.norBlock b
  let s := s.setNor b { x with retired := true }
  (s.ev 0xE080 b 2 360 (u16 b ++ u32 x.erases ++ u16 (Config.code 0xE080 cause % 65536))).norWarn

/-- The block with the least value of `f`, the lowest-numbered of equals. -/
def leastBlock (f : Nat → Nat) : List Nat → Option Nat
  | [] => none
  | b :: r => match leastBlock f r with
    | none => some b
    | some c => if f c < f b then some c else some b

/-- The blocks of a log. -/
def State.norOf (s : State) (log : Nat) : List Nat :=
  s.norUsable.filter fun b => decide ((s.norBlock b).seq ≠ 0 ∧ (s.norBlock b).log = log)

/-- The block that a log is being written to: its newest. -/
def State.norOpen (s : State) (log : Nat) : Option Nat :=
  leastBlock (fun b => s.safety.norSeq - (s.norBlock b).seq) (s.norOf log)

/-- Data bytes that a block takes. -/
def norRoom : Nat := 65536 - Config.norHeader % 65536

/-- A free block of the lowest erase count is begun (R429). -/
def State.norBegin (s : State) (log b : Nat) : State :=
  let n := s.safety.norSeq + 1
  (s.setNor b { s.norBlock b with seq := n, log, used := 0 }).updSafety fun x => { x with norSeq := n }

/-- The oldest block of the log with the most blocks is erased, inside NorErasesPerHour (R429). -/
def State.norReclaim (s : State) (good : Bool) : State :=
  if s.get (ob 0x4300 2) ≤ s.norHour.length then s
  else
    let log := if (s.norOf 0).length < (s.norOf 1).length then 1 else 0
    match leastBlock (fun b => (s.norBlock b).seq) (s.norOf log) with
    | none => s
    | some b =>
      let x := s.norBlock b
      let s := (s.setNor b { x with erases := x.erases + 1, seq := 0, used := 0 }).updSafety fun y =>
        { y with norErased := s.clock :: s.norHour }
      if !good then s.norRetire b 1
      else if s.get (ob 0x4300 3) ≤ x.erases + 1 then s.norRetire b 0
      else s

/-- A free block with the lowest erase count (R429). -/
def State.norFree (s : State) : Option Nat :=
  leastBlock (fun b => (s.norBlock b).erases) (s.norUsable.filter fun b => decide ((s.norBlock b).seq = 0))

/-- The bytes that a log's open block still takes. -/
def State.norLeft (s : State) (log : Nat) : Option (Nat × Nat) :=
  match s.norOpen log with
  | some b => if (s.norBlock b).used < norRoom then some (b, norRoom - (s.norBlock b).used) else none
  | none => none

/-- Log data placed: into the log's open block, a free block, or a reclaimed one; a block whose program fails is retired
(R429). Answers the bytes that found no place. -/
def State.norPlace (s : State) (log : Nat) (erased : Bool) : Nat → Bool → Nat → State × Nat
  | 0, _, n => (s, n)
  | fuel + 1, programmed, n =>
    if n = 0 then (s, 0)
    else
      match s.norLeft log with
      | some (b, k) =>
        if programmed then
          (s.setNor b { s.norBlock b with used := (s.norBlock b).used + min n k }).norPlace log erased fuel true (n - min n k)
        else (s.norRetire b 2).norPlace log erased fuel true n
      | none =>
        let s := if s.norFree.isSome then s else s.norReclaim erased
        match s.norFree with
        | none => (s, n)
        | some b => (s.norBegin log b).norPlace log erased fuel programmed n

/-- Data that find no place wait in SRAM, up to 256 KiB, and are then dropped and counted (R429). -/
def State.norHold (s : State) (n : Nat) : State :=
  let keep := min n (256 * 1024)
  (s.updSafety fun x => { x with norWait := keep }).count (ob 0x4340 7) (n - keep)

/-- A quantity's sample gathered (R430). -/
def Gauge.add (g : Gauge) (v : Int) : Gauge :=
  if g.count = 0 then { low := v, high := v, sum := v, count := 1 }
  else { low := min g.low v, high := max g.high v, sum := g.sum + v, count := g.count + 1 }

/-- Samples gathered, numbered from `k`. -/
def State.gather (s : State) : Nat → List Int → State
  | _, [] => s
  | k, v :: r =>
    (s.updSafety fun x => { x with gauges := Sparse.put {} k ((Sparse.get {} x.gauges k).add v) x.gauges }).gather (k + 1) r

end Sys2Proof.Machine
end

