-- ==== Sys2Proof/Machine/Usb.lean ====
section
/-!
DEFINITION. The commands of the USB hub function, its downstream ports and the relays (R215-R230, R234-R241).
-/

set_option Elab.async false

namespace Sys2Proof.Machine

open Sys2Proof

/-- An Open tunnel of the hub function: asynchronous or periodic (R217). -/
def State.ofHub (s : State) (n : Nat) : Bool :=
  s.domainOn 12 && decide (16 ≤ n ∧ s.tstate n = 3 ∧ s.tcfg n 2 = 3 ∧ s.tcfg n 6 = 15 ∧ s.tcfg n 8 ≤ 1)

/-- A port's command of the hub function or of the wire: the port exists and PD12 is on. -/
def State.portOk (s : State) (u : Nat) : Bool := s.part.hasUsb u && s.domainOn 12

/-- A class request for a port reaches a hub function that answers (R216). -/
def State.classOk (s : State) (u : Nat) : Bool := s.part.hasUsb u && s.hubLive

/-- R219, R221. A request unit is taken in sequence order; damage 1: its first cell is lost, 2: a later cell is lost or it
is tail-bad or a truncation. -/
def execUsbRequestUnit (n : Nat) (unit : Bytes) (damage : Nat) (s : State) : Ans :=
  onUnit (decide (n < 4096))
    (if !s.ofHub n then s
     else if damage = 1 then s.count (usbStat 5) 1
     else if byteAt unit 0 = 3 then s
     else
      let r : UsbReq := { tunnel := n, hdr := fitBytes 16 unit, data := unit.drop 16, order := s.usb.order }
      let s := { s with usb := { s.usb with order := s.usb.order + 1 } }
      if damage = 2 ∨ r.malformed (decide (s.tcfg n 8 = 1)) then s.usbComplete r 13 0 0 0 []
      else if r.port = 0 then
        if s.asleep then s.usbComplete r 7 0 0 0 [] else s.hubAnswer r
      else s.takeRequest (r.port - 1) r)

/-- Periodic requests that a step of station time has passed get result 8 (R234). -/
def State.passed (s : State) (u : Nat) : State :=
  let gone := (s.uport u).perQ.filter fun r => !s.isNow r && decide (8192 ≤ s.ahead r)
  let s := s.updUport u fun x => { x with perQ := x.perQ.filter fun r => !gone.contains r }
  forAll (fun r s => s.turnAway u r 8) gone s

/-- A port at a microframe boundary: babble disables it, SOF or keep-alive is sent, the periodic requests run (R221,
R227). -/
def State.microPort (s : State) (u : Nat) : State :=
  let s := if (s.uport u).babbled then
      (s.updUport u fun x => { x with babbled := false }).portError u
    else s
  let s := s.passed u
  if s.pstate u = 4 ∧ !s.asleep then
    let s := if s.get (usbPort u 2) = 1 ∨ s.microNo % 8 = 0 then s.send (.sof u (s.microNo / 8)) else s
    s.runPeriodic u
  else s

/-- R227. A microframe boundary of station time. -/
def execMicroframeStart (s : State) : Ans :=
  .next
    (if s.domainOn 12 ∧ s.usb.micro ≠ s.station / 125000 then
      let s := { s with usb := { s.usb with micro := s.station / 125000 } }
      forAll (fun u s => s.microPort u) s.usbPorts s
     else s)

/-- R221. A port starts its next asynchronous transaction, of at most `dur` nanoseconds, if it ends before the next SOF. -/
def execUsbTransactionStart (u dur : Nat) (s : State) : Ans :=
  onPort s (fun q => q.hasUsb u)
    (let x := s.uport u
     match x.asyncQ with
     | [] => s
     | r :: rest =>
      let period := if r.speed = 0 then 125000 else 1000000
      if s.domainOn 12 ∧ s.pstate u = 4 ∧ !s.asleep ∧ x.active = none ∧ x.next = 0 ∧
          (x.perQ.any s.isNow) = false ∧ s.station % period + dur ≤ period then
        (s.updUport u fun x => { x with asyncQ := rest }).toWire u r
      else s)

/-- The request has a NAK to repeat: NakRetryTime has not passed since its first attempt (R221). -/
def State.nakAgain (s : State) (r : UsbReq) : Bool :=
  decide (r.token ≠ 1 ∧ s.clock < r.first.getD s.clock + usec (s.get (ob 0x2A00 7)))

/-- A transaction of the port is over: what was to follow it does (R223), else the next periodic request runs (R221). -/
def State.wireFree (s : State) (u : Nat) : State :=
  let next := (s.uport u).next
  let s := s.updUport u fun x => { x with next := 0 }
  if next = 1 then s.portReset u else if next = 2 then s.portSuspend u else s.runPeriodic u

/-- An executed request is completed and counted (R221, R237, R241). -/
def State.executed (s : State) (u : Nat) (r : UsbReq) (res pid : Nat) (data : Bytes) : State :=
  let s := ((s.count (usbStat 4) 1).count (usbPort u 5) 1)
  let s := if res = 4 then s.count (usbPort u 7) 1 else s
  let s := if res = 4 ∨ res = 5 ∨ res = 6 then
      s.evRate 0x7011 (u + 1) 2 0 (sec 1) (u16 (u + 1))
        [if res = 4 then 1 else 0, if res = 5 then 1 else 0, if res = 6 then 1 else 0] []
    else s
  let sent := if r.token = 3 then data.length else if res = 0 ∨ res = 3 then r.data.length else 0
  s.usbComplete r res (min (r.errs + 1) 3) pid sent data

/-- R221. The transaction on the port's wire ends with one of the results 0 to 6 of R220. -/
def execUsbTransactionEnd (u res pid : Nat) (data : Bytes) (s : State) : Ans :=
  onPort s (fun q => q.hasUsb u)
    (let x := s.uport u
     match x.active with
     | none => s
     | some r =>
      if 6 < res then s
      else
      let s := s.updUport u fun x => { x with active := none, babbled := x.babbled || decide (res = 6 ∧ s.pstate u = 4) }
      let s := if res = 5 then s.count (usbPort u 6) 1 else s
      let stays := decide (s.pstate u = 4) && !r.periodic
      let s :=
        if stays ∧ (res = 4 ∨ res = 5) ∧ r.errs + 1 < 3 then
          s.updUport u fun x => { x with asyncQ := { r with errs := r.errs + 1, naked := false } :: x.asyncQ }
        else if stays ∧ res = 1 ∧ s.nakAgain r then
          s.updUport u fun x => { x with asyncQ := { r with naked := true } :: x.asyncQ }
        else s.executed u r res pid ((data.take r.len).take (if r.token = 3 then 1024 else 0))
      s.wireFree u)

/-- R221. NakRetryTime has passed since the first attempt and the NAK is returned. -/
def execNakRetryExpired (u : Nat) (s : State) : Ans :=
  onPort s (fun q => q.hasUsb u)
    (match (s.uport u).asyncQ with
     | [] => s
     | r :: rest =>
      if s.domainOn 12 ∧ r.naked ∧ !s.nakAgain r then (s.updUport u fun x => { x with asyncQ := rest }).executed u r 1 0 []
      else s)

/-- A bus command reached the hub function over its asynchronous tunnel (R222); in raw port control it is ignored and
counted (R230). -/
def State.busCommand (s : State) (n : Nat) (eff : State → State) : State :=
  if !s.ofHub n ∨ s.tcfg n 8 ≠ 0 then s
  else if s.rawUsb then { s with usb := { s.usb with ignored := s.usb.ignored + 1 } }
  else eff s

/-- R222. Reset: queues end with result 10, ports are Off, the hub function is in its default state. -/
def execBusCommandReset (n : Nat) (s : State) : Ans :=
  onUnit (decide (n < 4096))
    (s.busCommand n fun s =>
      let s := forAll (fun u s => s.portPowerOff u 10 2) s.usbPorts s
      let s := (s.hubDefault.stop .hubResume).count (usbStat 9) 1
      let s := { s with usb := { s.usb with ganged := decide (s.get (ob 0x2A00 4) = 1) } }
      (s.showHub.busNote 1).busEvent n 1)

/-- R222. Suspend: S rises, queued requests end with result 7 and the hub function is suspended. -/
def execBusCommandSuspend (n : Nat) (s : State) : Ans :=
  onUnit (decide (n < 4096))
    (s.busCommand n fun s =>
      let s := s.hubSuspend
      let s := forAll (fun u s => s.discard u 7 0) s.usbPorts s
      (s.showHub.busNote 2).busEvent n 2)

/-- R222, R234. Resume: with the current S it drives K or joins the resume under way; any other is ignored and counted. -/
def execBusCommandResume (n sn : Nat) (s : State) : Ans :=
  onUnit (decide (n < 4096))
    (s.busCommand n fun s =>
      let s := s.busNote 3
      if s.usb.suspended ∧ sn = s.get (usbStat 3) then if s.usb.resuming then s else s.hubResume
      else s.count (usbStat 0x0A) 1)

/-- R222. 20 ms of K end: SOF goes on from the next boundary and event 3 is sent. -/
def execResumeKEnd (s : State) : Ans :=
  .next
    (if s.usb.resuming ∧ s.due .hubResume (msec 20) then
      let s := { s.stop .hubResume with usb := { s.usb with suspended := false, resuming := false } }
      let s := s.showHub
      match s.hubTunnel with
      | some n => (s.busEvent n 3).raise 136
      | none => s
     else s)

/-- R223. A device attaches on a powered port; `slow` for the D- pull-up. -/
def execDspDeviceAttach (u : Nat) (slow : Bool) (s : State) : Ans :=
  onPort s (fun q => q.hasUsb u)
    (if s.portOk u ∧ s.pstate u = 1 ∧ (s.get (usbPort u 3)).testBit 8 then
      let s := (s.updUport u fun x => { x with slow }).pgo u 2
      (s.set (usbPort u 0x0D) s.station).cbit u 0
     else s)

/-- R223. The device of the port detaches. -/
def execDspDeviceDetach (u : Nat) (s : State) : Ans :=
  onPort s (fun q => q.hasUsb u)
    (if s.portOk u ∧ 2 ≤ s.pstate u then ((s.pgo u 1).discard u 7 0).cbit u 0 else s)

/-- R224. A device chirp K of `len` nanoseconds within the first 7 ms of reset is answered with K and J. -/
def execDeviceChirpDetected (u len : Nat) (s : State) : Ans :=
  onPort s (fun q => q.hasUsb u)
    (if s.portOk u ∧ s.pstate u = 3 ∧ 2500 ≤ len ∧ !s.due (.usbReset u) 7000001 then
      (s.updUport u fun x => { x with chirped := true }).send (.usbDrive u 2)
     else s)

/-- R223, R224. PortResetTime ends. -/
def execPortResetEnd (u : Nat) (s : State) : Ans :=
  onPort s (fun q => q.hasUsb u)
    (if s.portOk u ∧ s.pstate u = 3 ∧ s.due (.usbReset u) (msec (s.get (ob 0x2A00 6))) then
      let x := s.uport u
      let s := s.set (usbPort u 2) (if x.chirped then 1 else if x.slow then 3 else 2)
      ((s.pgo u 4).pbit u 10 x.chirped).cbit u 4
     else s)

/-- The port has signalled remote wake since the suspend (R222). -/
def State.noteWake (s : State) (u : Nat) : State :=
  if s.asleep then { s with usb := { s.usb with wakes := setBit s.usb.wakes u } } else s

/-- R226. A device K: remote wake of a suspended port, or of a suspended hub function with the feature set; a later one
joins the resume under way. -/
def execDspDeviceK (u : Nat) (s : State) : Ans :=
  onPort s (fun q => q.hasUsb u)
    (if !s.portOk u then s
     else if s.pstate u = 5 then ((s.noteWake u).count (usbPort u 0x0B) 1).portResume u
     else if s.pstate u = 4 ∧ s.asleep ∧ s.usb.wakeOn ∧ s.usb.resuming then s.noteWake u
     else if s.pstate u = 4 ∧ s.asleep ∧ s.usb.wakeOn then
      let s := s.noteWake u
      let s := ((s.count (usbPort u 0x0B) 1).count (usbStat 0x0B) 1).hubResume
      let s := s.ev 0x7041 0 1 136 (u16 0 ++ u16 (s.get (usbStat 3)) ++ u8 s.usb.wakes)
      match s.hubTunnel with
      | some n => s.busEvent n 4
      | none => s
     else s)

/-- R223, R225. SetPortFeature PORT_POWER. -/
def execSetPortPower (u : Nat) (s : State) : Ans :=
  onPort s (fun q => q.hasUsb u)
    (if s.classOk u then forAll (fun v s => s.portPowerOn v) (s.gang u) s else s)

/-- R223, R225. ClearPortFeature PORT_POWER. -/
def execClearPortPower (u : Nat) (s : State) : Ans :=
  onPort s (fun q => q.hasUsb u)
    (if s.classOk u then forAll (fun v s => s.portPowerOff v 7 0) (s.gang u) s else s)

/-- R223. SetPortFeature PORT_RESET. -/
def execSetPortReset (u : Nat) (s : State) : Ans :=
  onPort s (fun q => q.hasUsb u) (if s.classOk u then s.askReset u else s)

/-- R223. SetPortFeature PORT_SUSPEND. -/
def execSetPortSuspend (u : Nat) (s : State) : Ans :=
  onPort s (fun q => q.hasUsb u) (if s.classOk u then s.askSuspend u else s)

/-- R223. ClearPortFeature PORT_SUSPEND. -/
def execClearPortSuspend (u : Nat) (s : State) : Ans :=
  onPort s (fun q => q.hasUsb u) (if s.classOk u ∧ s.pstate u = 5 then s.portResume u else s)

/-- R223. ClearPortFeature PORT_ENABLE. -/
def execClearPortEnable (u : Nat) (s : State) : Ans :=
  onPort s (fun q => q.hasUsb u)
    (if s.classOk u ∧ 4 ≤ s.pstate u then s.portDisable u true else s)

/-- R216. SetPortFeature PORT_TEST; a selector that USB 2.0 does not know is answered STALL. -/
def execSetPortTest (u selector : Nat) (s : State) : Ans :=
  onPort s (fun q => q.hasUsb u)
    (if !s.classOk u then s
     else if testKnown selector then s.portTest u selector
     else { s with usb := { s.usb with stalled := true } })

/-- R223. ClearPortFeature of C_PORT_CONNECTION, _ENABLE, _SUSPEND, _OVER_CURRENT or _RESET, features 0 to 4. -/
def execClearPortChange (u feature : Nat) (s : State) : Ans :=
  onPort s (fun q => q.hasUsb u)
    (if s.classOk u ∧ feature < 5 then s.set (usbPort u 4) (clrBit (s.get (usbPort u 4)) feature) else s)

/-- R216. ClearHubFeature of C_HUB_LOCAL_POWER, feature 0, or C_HUB_OVER_CURRENT, feature 1. -/
def execClearHubChange (feature : Nat) (s : State) : Ans :=
  .next
    (if s.hubLive ∧ feature < 2 then { s with usb := { s.usb with change := clrBit s.usb.change feature } } else s)

/-- The data stage of a control transfer to the hub function is ready, as long as the request asks for (R216). -/
def State.hubData (s : State) (len : Nat) (d : Bytes) : State :=
  { s with usb := { s.usb with ctrl := d.take len, ctrlPid := true, stalled := false } }

/-- R216. GetPortStatus: wPortStatus, wPortChange. -/
def execGetPortStatus (u : Nat) (s : State) : Ans :=
  onPort s (fun q => q.hasUsb u)
    (if s.classOk u then s.hubData 4 (u16 (s.get (usbPort u 3)) ++ u16 (s.get (usbPort u 4))) else s)

/-- R216. GET_STATUS of the device 0, an interface 1 or an endpoint 2, or GetHubStatus 3. -/
def execHubGetStatus (of : Nat) (s : State) : Ans :=
  .next
    (if !s.hubLive then s
     else if of = 0 then s.hubData 2 (u16 (1 + 2 * ofBool s.usb.wakeOn))
     else if of = 3 then s.hubData 4 (u16 s.usb.status ++ u16 s.usb.change)
     else s.hubData 2 (u16 0))

/-- The hub function's device descriptor, or its qualifier (R215). -/
def State.hubDevice (s : State) (qualifier : Bool) : Bytes :=
  let c := fun k => s.get (ob 0x2A00 k)
  if qualifier then [0x0A, 6, 0, 2, 9, 0, 1, 64, 1, 0]
  else [0x12, 1, 0, 2, 9, 0, 2, 64] ++ u16 (c 1) ++ u16 (c 2) ++ u16 (c 3) ++ [1, 2, 3, 1]

/-- The hub function's configuration descriptor: one self-powered configuration, interface 0 with a single-TT and a multi-TT
setting, EP1 IN of 2 bytes at interval 12 (R215). -/
def hubConfig (type : Nat) : Bytes :=
  let face := fun (alt proto : Nat) =>
    ([9, 4, 0] : Bytes) ++ u8 alt ++ [1, 9, 0] ++ u8 proto ++ [0] ++ [7, 5, 0x81, 3, 2, 0, 12]
  [9] ++ u8 type ++ [41, 0, 1, 1, 0, 0xE0, 0] ++ face 0 1 ++ face 1 2

/-- The hub descriptor (R215). -/
def State.hubDescriptor (s : State) : Bytes :=
  let ports := s.usbPorts.length
  let ganged := s.usb.ganged
  let wide := if s.part.qh34 then 2 else 1
  let body := u8 0x29 ++ u8 ports ++ u16 (if ganged then 0 else 0x09) ++ u8 (s.get (ob 0x2A00 8)) ++ u8 0 ++
    leBytes wide (s.get (ob 0x2A00 5) * 2) ++ leBytes wide (2 ^ (8 * wide) - 1)
  u8 (body.length + 1) ++ body

/-- R215. GET_DESCRIPTOR of a type and index, or GetHubDescriptor, type 0x29. -/
def execHubGetDescriptor (type num len : Nat) (s : State) : Ans :=
  .next
    (if !s.hubLive then s
     else if type = 1 then s.hubData len (s.hubDevice false)
     else if type = 2 ∨ type = 7 then s.hubData len (hubConfig type)
     else if type = 3 then s.hubData len (Config.usbString 0 num)
     else if type = 6 then s.hubData len (s.hubDevice true)
     else if type = 0x29 then s.hubData len s.hubDescriptor
     else { s with usb := { s.usb with stalled := true } })

/-- R216. SET_ADDRESS. -/
def execHubSetAddress (addr : Nat) (s : State) : Ans :=
  .next (if s.hubLive ∧ addr < 128 then ({ s with usb := { s.usb with addr } }).showHub else s)

/-- R216. SET_CONFIGURATION; the one configuration is 1. -/
def execHubSetConfiguration (value : Nat) (s : State) : Ans :=
  .next
    (if !s.hubLive then s
     else if value ≤ 1 then
      ({ s with usb := { s.usb with config := decide (value = 1), alt := 0, epPid := false } }).showHub
     else { s with usb := { s.usb with stalled := true } })

/-- Requests that no longer fit their budget, in order of arrival, get result 9 (R228). -/
def State.admitAgain (s : State) (u : Nat) : State :=
  forAll (fun r s =>
    if r.speed ≠ 0 ∧ s.overBudget u r then
      (s.updUport u fun x => { x with perQ := x.perQ.filter fun y => decide (y.order ≠ r.order) }).turnAway u r 9
    else s) (s.uport u).perQ s

/-- R228. SET_INTERFACE: alternate 0 single TT, 1 multi-TT. -/
def execHubSetInterface (alt : Nat) (s : State) : Ans :=
  .next
    (if !s.hubLive then s
     else if alt ≤ 1 then
      let s := { s with usb := { s.usb with alt, epPid := false } }
      forAll (fun u s => s.admitAgain u) s.usbPorts s
     else { s with usb := { s.usb with stalled := true } })

/-- R226. SET_FEATURE DEVICE_REMOTE_WAKEUP. -/
def execHubSetRemoteWakeup (s : State) : Ans :=
  .next (if s.hubLive then { s with usb := { s.usb with wakeOn := true } } else s)

/-- R226. CLEAR_FEATURE DEVICE_REMOTE_WAKEUP. -/
def execHubClearRemoteWakeup (s : State) : Ans :=
  .next (if s.hubLive then { s with usb := { s.usb with wakeOn := false } } else s)

/-- R229. ClearTTBuffer: the queued requests of the endpoint end with result 10. -/
def execClearTtBuffer (u addr endpoint type : Nat) (isIn : Bool) (s : State) : Ans :=
  onPort s (fun q => q.hasUsb u)
    (if s.classOk u then
      s.discardSome u 10 3 fun r => decide (byteAt r.hdr 2 = addr ∧ r.endpoint = endpoint ∧ r.kind = type ∧
        (type = 0 ∨ decide (r.token = 3) = isIn))
     else s)

/-- R229. ResetTT: every full- and low-speed request of the port ends with result 10. -/
def execResetTt (u : Nat) (s : State) : Ans :=
  onPort s (fun q => q.hasUsb u)
    (if s.classOk u then s.discardSome u 10 3 fun r => decide (r.speed ≠ 0) else s)

/-- R223. 20 ms of K on a selectively resuming port end. -/
def execPortResumingEnd (u : Nat) (s : State) : Ans :=
  onPort s (fun q => q.hasUsb u)
    (if s.portOk u ∧ s.pstate u = 6 ∧ s.due (.usbResume u) (msec 20) then
      let speed := s.get (usbPort u 2)
      (((s.pgo u 4).set (usbPort u 2) speed).pbit u 10 (decide (speed = 1))).cbit u 2
     else s)

/-- The relay works: enabled, and its PCIe port's link is up (R218). -/
def State.relayOn (s : State) (n : Nat) : Bool := (s.relay n).on && s.pcieUp (s.rcfg n 2 - 12)

/-- A unit goes to the next up slot, the index is written and MSI-X is signalled; it waits while the ring is full (R218).
No cell is taken from the queue meanwhile, so what waits is at most the unit of each tunnel whose last cell had been taken,
and the relay's own completions, which the down ring's slots bound (log entry 210). -/
def State.ringUp (s : State) (n : Nat) (unit : Bytes) : State :=
  let x := s.relay n
  if s.ringFull n ∨ x.held ≠ [] then s.updRelay n fun x => { x with held := x.held ++ [unit] }
  else
    let p := s.rcfg n 2 - 12
    let up := wrapAdd 32 x.up 1
    let s := s.count (pcieStat p 6) 3
    let s := s.send (.memWrite p (s.rcfg n 4 + 2048 * (x.up % s.rcfg n 5)) 255 unit)
    let s := (s.send (.memWrite p (s.rcfg n 6) 255 (u32 up))).send (.msix p (s.rcfg n 7))
    let s := (s.updRelay n fun x => { x with up }).count (relayKey n 9) 1
    if s.ringFull n then s.updRelay n fun x => { x with fullSince := some s.clock } else s

/-- The live tunnel of a relay, asynchronous or periodic (R217). -/
def State.relayTunnel (s : State) (n : Nat) (periodic : Bool) : Option Nat :=
  s.liveTunnels.find? fun m => decide (16 ≤ m ∧ s.tstate m = 3 ∧ s.tcfg m 2 = 3 ∧ s.tcfg m 6 = 15 ∧
    s.tcfg m 8 = (if periodic then 0x180 else 0x100) + n)

/-- A fetched unit goes on its tunnel, or is answered or counted where that is not Open (R218). -/
def State.relayDown (s : State) (n : Nat) (unit : Bytes) : State :=
  let r : UsbReq := { hdr := fitBytes 16 unit }
  let isReq := decide (byteAt unit 0 = 1)
  match s.relayTunnel n (isReq && r.periodic && decide (r.port ≠ 0)) with
  | some m => (s.count (relayKey n 8) 1).unitOut 15 m false unit
  | none =>
    if isReq then
      let (d, s) := s.draw
      let free := Config.noAttempt d
      s.ringUp n (u8 2 ++ (r.hdr.drop 1).take 3 ++ u8 14 ++ u8 (free % 16) ++ (r.hdr.drop 6).take 2 ++ u16 0 ++
        u16 (free / 16 % 16384) ++ zeros 4)
    else s.count (relayKey n 0x0A) 1

/-- R218. The server writes DownProducer; `units` are the units fetched from the down ring. -/
def execRelayDownProducerWrite (relay count : Nat) (units : List Bytes) (s : State) : Ans :=
  onUnit (decide (relay < 16))
    (let fresh := (count + 2 ^ 32 - (s.relay relay).down) % 2 ^ 32
     if s.relayOn relay ∧ count < 2 ^ 32 ∧ fresh = units.length ∧ fresh ≤ s.rcfg relay 5 then
      let p := s.rcfg relay 2 - 12
      let s := forAll (fun k s =>
        (s.count (pcieStat p 6) 1).send
          (.ringRead p (s.rcfg relay 3 + 2048 * (((s.relay relay).down + k) % s.rcfg relay 5)) 2048)) (upTo fresh) s
      let s := s.updRelay relay fun x => { x with down := count }
      forAll (fun unit s => s.relayDown relay unit) units s
     else s)

/-- Units that waited for an up slot go on (R218). -/
def State.ringDrain (s : State) (n : Nat) : State :=
  let held := (s.relay n).held
  forAll (fun unit s => s.ringUp n unit) held (s.updRelay n fun x => { x with held := [] })

/-- R218. The server writes UpConsumer: slots are free again. -/
def execRelayUpConsumerWrite (relay count : Nat) (s : State) : Ans :=
  onUnit (decide (relay < 16))
    (if s.relayOn relay ∧ count < 2 ^ 32 then
      let s := s.updRelay relay fun x => { x with consumed := count }
      match (s.relay relay).fullSince with
      | some c =>
        if s.ringFull relay then s
        else
          let us := (s.clock - c) / 1000
          let s := (s.updRelay relay fun x => { x with fullSince := none }).count (relayKey relay 0x0B) us
          let s := s.evRate 0x7050 relay 2 138 (sec 1) (u16 relay) [us] []
          s.ringDrain relay
      | none => s
     else s)

/-- R218. A completion or bus event reaches the relay of its tunnel. -/
def execRelayUnitFromTunnel (n : Nat) (unit : Bytes) (s : State) : Ans :=
  onUnit (decide (n < 4096))
    (match s.relayOf n with
     | some r => if (s.tstate n = 3 ∨ s.tstate n = 4) ∧ s.relayOn r then s.ringUp r unit else s
     | none => s)

/-- A raw port command (R237): in hardware mode, or where R223 has no row for the port's state, of kind 6. -/
def State.rawPort (s : State) (path : Path) (u c value : Nat) (states : List Nat) (eff : State → State) : State :=
  s.command path (0x2A08 + u) value anyState [1, 2, 3, 4, 5, value] (kindIf (!s.rawUsb || !s.domainOn 12) 6 ++
    kindIf (!states.contains (s.pstate u)) 6 ++ kindIf (decide (c = 6 ∧ !testKnown (value / 256)) || decide (c ≠ 6 ∧ 256 ≤ value)) 7) eff

/-- R237. Raw port command 1: power on; it commits at the channel's power-good. -/
def execUsbPortPowerOn (path : Path) (u : Nat) (s : State) : Ans :=
  onPath path (decide (u < 8)) s
    (s.rawPort path u 1 1 [0, 1, 2, 3, 4, 5, 6] fun s =>
      let s := s.portPowerOn u
      if (s.get (usbPort u 3)).testBit 8 then s.rawDone u else s)

/-- R237. Raw port command 2: power off; it commits when the channel is off. -/
def execUsbPortPowerOff (path : Path) (u : Nat) (s : State) : Ans :=
  onPath path (decide (u < 8)) s
    (s.rawPort path u 2 2 [0, 1, 2, 3, 4, 5, 6] fun s =>
      let s := s.portPowerOff u 7 0
      if s.driven u then s else s.rawDone u)

/-- R237. Raw port command 3: reset; it commits when Resetting is left. -/
def execUsbPortReset (path : Path) (u : Nat) (s : State) : Ans :=
  onPath path (decide (u < 8)) s (s.rawPort path u 3 3 [2, 4] fun s => s.askReset u)

/-- R237. Raw port command 4: suspend; it commits when Suspended is entered. -/
def execUsbPortSuspend (path : Path) (u : Nat) (s : State) : Ans :=
  onPath path (decide (u < 8)) s (s.rawPort path u 4 4 [4] fun s => s.askSuspend u)

/-- R237. Raw port command 5: resume; it commits when Resuming is left. -/
def execUsbPortResume (path : Path) (u : Nat) (s : State) : Ans :=
  onPath path (decide (u < 8)) s (s.rawPort path u 5 5 [5] fun s => s.portResume u)

/-- R237. Raw port command 6: a test mode by the selector in bits 15:8. -/
def execUsbPortTestMode (path : Path) (u selector : Nat) (s : State) : Ans :=
  onPath path (decide (u < 8)) s
    (s.rawPort path u 6 (6 + 256 * selector) [0, 1, 2, 3, 4, 5, 6] fun s => (s.portTest u selector).rawDone u)

/-- R236. UsbHubStatus command 1 clears the hub's and every port's counters. -/
def execUsbHubClearCounters (path : Path) (s : State) : Ans :=
  onPath path true s
    (s.commandNow path 0x2A01 1 anyState [1] [] 0 fun s =>
      (s.clear ([4, 5, 6, 7, 8, 9, 0x0A, 0x0B].map usbStat)).clear
        ((s.usbPorts.map fun u => [5, 6, 7, 8, 9, 0x0A, 0x0B, 0x0C].map (usbPort u)).flatten))

end Sys2Proof.Machine
end

