-- ==== Sys2Proof/Machine/StartOps.lean ====
section
/-!
DEFINITION. Reset and Boot (R7, R439-R452), and what runs once Ilkai has started.
-/

set_option Elab.async false

namespace Sys2Proof.Machine

open Sys2Proof

/-- A slot's image becomes the running one (R443, R444). -/
def State.loadSlot (s : State) (slot : Nat) : State :=
  let h := s.regionHeader slot
  let measure := s.regionMeasure slot
  (s.updBoot fun x =>
    { x with version := imgVersion h, secVersion := imgSecurity h, schema := imgSchema h, measure }).start .bootWatchdog

/-- The slots tried in order (R443): the first good image is loaded; a second failure enters Lift. -/
def State.trySlots (s : State) : List Nat → State
  | [] => s
  | slot :: r =>
    let s := s.updBoot fun x => { x with lastSlot := slot }
    let c := s.regionCause slot 1
    if c = 0 then s.loadSlot slot
    else
      let s := s.updBoot fun x => { x with failed := x.failed + 1, failCause := c }
      let s := s.note 0xF003 3 (u16 slot ++ u8 c ++ u32 (imgVersion (s.regionHeader slot)))
      if 2 ≤ s.boot.failed then s.enterLift 2 else s.trySlots r

/-- The ROM's choice of a slot (R443). -/
def State.chooseSlot (s : State) (liftN : Bool) : State :=
  let b := s.boot
  if !liftN then s.enterLift 1
  else if 2 ≤ b.failed then s.enterLift 2
  else
    let first := if b.trial ≠ 0 then b.trial - 1 else if b.failed = 1 then 1 - b.lastSlot else b.preferred
    (s.updBoot fun x => { x with trial := 0 }).trySlots [first, 1 - first]

/-- The order in which the enabled domains power up at the end of Boot (R380). -/
def State.startDomains (s : State) : List Nat :=
  [9, 4, 5, 6, 7, 8, 10, 11, 12, 13].filter fun d => s.flag (enKey d)

/-- The red-drop generators are seeded from the TRNG, never with zero (R139). -/
def State.seedLfsrs (s : State) : State :=
  forAll (fun (r : Nat) s =>
    let (d, s) := s.draw
    s.updFabric fun x => { x with lfsr := Sparse.put 0 r (1 + Config.trng d % 65535) x.lfsr }) (upTo 16) s

/-- The hub-die reset is released (R7): straps, tamper latches, root and slot 0, then a slot or Lift (R439). -/
def State.bootStart (s : State) (trueHead liftN : Bool) (rootTest : Nat) : State :=
  let s := { s with head := trueHead, objs := s.objs.filter fun e => decide (e.2 ≠ objDefault s.part trueHead e.1) }
  let s := s.setAll [(ob 0x2000 1, devBoot), (domKey 0, 2), (domKey 1, 2), (domKey 2, 2), (domKey 3, 2), (railKey 8, 0x7F)]
  let bad := s.boot.stageBad
  let s := (s.updBoot fun x => { x with released := s.clock, stageBad := false }).stop .resetRelease
  let s := if bad then s.set (ob 0x6001 1) 3 else s
  let s := { s with power := { s.power with groupGood := true, failed := [] } }
  let s := ((s.bootSecurity rootTest).start .d2d).seedLfsrs
  let s := s.chooseSlot liftN
  if s.dev = devBoot then
    let s := s.takeConfig.showReserved.storeMigrated
    (s.updBoot fun x => { x with domains := s.startDomains }).start .domainStagger
  else s

/-- Events of the unpowered hub are journalled in order, with the AON ticks since each; the last carries the count of
those lost; a power-path detection latches SF4 then (R353, R374, R418). -/
def State.queueJournal (s : State) : List QEv → State
  | [] => s
  | e :: r =>
    let lost := s.get (ob 0x4101 0x0D)
    let ticks := (s.clock - e.clock) * 32768 / 1000000000
    let more := if r = [] ∧ lost ≠ 0 then u32 lost else []
    let args := e.args ++ u32 (ticks % 2 ^ 32) ++ more
    (if e.code = 0xE030 then s.sf4Fault e.inst args else s.ev e.code e.inst e.sev e.src args).queueJournal r

/-- Boot failures and Lift entries and downloads are journalled in their order (R444). -/
def State.noteJournal (s : State) : List QEv → State
  | [] => s
  | e :: r => (s.ev e.code e.inst e.sev 0 e.args).noteJournal r

/-- The start's entries in the journal (R444, R450, R452). -/
def State.startJournal (s : State) : State :=
  let b := s.boot
  let s := (s.queueJournal s.power.queue).noteJournal b.notes
  let kind := s.power.kind
  let s :=
    if s.power.lost then
      let mask := ((upTo 10).filter s.part.hasBreaker).foldl setBit 0
      s.ev 0xD024 0 2 291 (u16 0 ++ u16 mask)
    else s
  let s := s.ev 0xF001 0 (if kind = 4 then 3 else 1) (if kind = 3 then 292 else 0)
    (u16 0 ++ u8 kind ++ u8 (ofBool s.secu.cold))
  let s := match b.passed with
    | some (p, used) => s.ev 0xF021 0 2 0 (u16 0 ++ u32 p ++ u32 used ++ u8 b.chosen)
    | none => s
  let ms := (s.clock - b.released) / 1000000 % 2 ^ 32
  (s.set (ob 0x6000 0x14) ms).ev 0xF002 0 0 0 (u16 b.lastSlot ++ u32 b.version ++ u32 ms)

/-- A relay's configuration is taken by a write of 1 to RelayEnable (R218, R238). -/
def State.relaySwitch (s : State) (n v : Nat) : State :=
  let s := s.set (relayKey n 1) v
  if v = 1 then
    let cfg := [2, 3, 4, 5, 6, 7].foldl (fun m k =>
      Sparse.put (objDefault s.part s.head (relayKey n k)) k (s.get (relayKey n k)) m) ([] : List (Nat × Nat))
    s.updRelay n fun _ => { on := true, cfg }
  else s.updRelay n fun x => { x with on := false, held := [] }

/-- CANopen on C0 begins: the node ID takes effect, the communication state is pre-operational (R43-R45). -/
def State.canTake (s : State) : State := ({ s with canNode := s.get (ob 0x1210 1), canOpen := {} }).start .heartbeat

/-- The background services and the monitors begin (R420, R422, R427, R430). -/
def State.servicesStart (s : State) : State :=
  let s := forAll (fun (tm : Timer) s => s.start tm) [.shadow, .sentinel, .plan, .telemetry, .telemetryLog] s
  let s := forAll (fun (k : Nat) s => if s.flag (taskKey k 1) then s.passBegin k else s) (upTo 11) s
  (s.set (ob 0x4211 0x21) s.safety.baseTime).norShow

/-- A state of R7 is entered and source 18 raised. -/
def State.enterState (s : State) (new : Nat) : State := ((s.set (ob 0x2000 1) new).raise 18).pulse

/-- Run is entered: the enabled tunnels leave Off, and the first entry records the baseline (R7, R101, R420). -/
def State.enterRun (s : State) : State :=
  let was := s.dev
  let s := (if was = devSetup then s.takeRoles else s).enterState devRun
  let s := if was = devMaintain then s else forAll (fun (n : Nat) s => s.leaveOff n) s.enabledTunnels s
  let s := s.baselineNow
  s.set (ob 0x4211 0x21) s.safety.baseTime

/-- Ilkai declares itself started (R444): keys, configuration, journal, and Run or Setup (R7). -/
def State.declared (s : State) : State :=
  let marked := s.boot.restore
  let s := if marked.contains 1 ∨ marked.contains 4 then
      { s with secu := { s.secu with stored := false, fresh := true, marks := [] } } else s
  let s := s.restoreKeys
  let toRun := decide (s.get (ob 0x2000 3) = 4 ∧ s.boot.chosen ≠ 3 ∧ marked = [])
  let s := s.stop .bootWatchdog
  let s := s.startJournal
  let s := s.updBoot fun x => { x with failed := 0, notes := [], restore := [], passed := none }
  let s := { s with power := { s.power with queue := [], lost := false } }
  let s := (s.enterState devSetup).takeEnabled
  let s := forAll (fun (n : Nat) s => if s.get (relayKey n 1) = 1 then s.relaySwitch n 1 else s) (upTo 16) s
  let s := s.canTake.servicesStart
  let s := s.setVolts (min (max s.safety.vdd (s.get (mgCfg 1))) (s.get (mgCfg 2)))
  let s := (forAll (fun (t : Nat) s => s.trunkOn t) (upTo s.part.trunks) s).displaysOn.errorRecovery
  let s := if s.get (ob 0x4500 1) = 1 then s.appLoad 2 else s
  if toRun then s.enterRun else s

/-- The transitions that R7 lists. -/
def State.mayGo (s : State) (v : Nat) : Bool :=
  (s.dev = devSetup && v = devRun) || (s.dev = devRun && (v = devSetup || v = devMaintain)) ||
  (s.dev = devMaintain && (v = devRun || v = devSetup))

/-- A transition begins (R7): the way to Setup drains every data tunnel first. -/
def State.goState (s : State) (v : Nat) : State :=
  if v = devRun then s.enterRun
  else if v = devMaintain then s.enterState devMaintain
  else
    let s := s.set (ob 0x2000 4) 1
    (forAll (fun (n : Nat) s => s.shut n 3) s.liveTunnels s).settle

/-- Requests held during a transition are judged in the state it reached, the oldest first (R8). -/
def State.heldRequests (s : State) : Nat → State
  | 0 => s
  | k + 1 =>
    match s.stateHeld with
    | [] => s
    | (v, p, time) :: r =>
      if s.flag (ob 0x2000 4) then s
      else
        let s := { s with stateHeld := r }
        (if s.mayGo v then s.goState v else s.violateAt time p 0x2000 2 6).heldRequests k

/-- A write to StateRequest (R7, R8). -/
def State.askState (s : State) (p : Path) (v : Nat) : State :=
  s.writeNum p 0x2000 2 v (kindIf (!s.flag (ob 0x2000 4) && !s.mayGo v) 6) fun s =>
    if s.flag (ob 0x2000 4) then { s with stateHeld := s.stateHeld ++ [(v, p, s.station)] } else s.goState v

/-- A stopped island or die-to-die link is latched, raised and journalled (R17). -/
def State.islandStop (s : State) (island partner : Nat) : State :=
  ((s.count (ob 0x4400 7) 1).latchCommon 2).danger 0xE002 island 322 (u16 island ++ u16 partner)

/-- The fabric ports whose cells cross between an island and the fabric (R11, R13, R16). Log entry 201: FP19's AES engines
lie in CI3. -/
def islandPorts (isl : Nat) : List Nat :=
  if isl = 2 then [17]
  else if isl = 3 then upTo 20
  else if isl = 4 then [0, 1, 2, 3]
  else if 5 ≤ isl ∧ isl ≤ 8 then [isl - 5]
  else if 9 ≤ isl ∧ isl ≤ 12 then [14]
  else if isl = 13 then [18]
  else if isl = 14 then [4, 5, 6, 7, 8, 9, 10, 11]
  else if isl = 15 then [12, 13, 18]
  else if isl = 16 then [15, 17]
  else if isl = 17 then [16] else []

/-- Cells of a class that a stopped island leaves in a port's crossing FIFO: they are discarded into the port's
StallDiscards, and the credits held for a trunk's received cells return at once (R18, R22, R144). The crossings of CI4 hold
cells on their way out, for which no such credit is held. -/
def State.crossingDiscard (s : State) (isl fp cls n : Nat) : State :=
  if n = 0 then s
  else
    let s := if fp < 4 ∧ isl ≠ 4 then s.giveCredits fp cls n else s
    (s.count (portKey fp 0x0E) n).fabricEv 0x4001 2 0 fp (u16 cls) [n] (u32 (s.get (ob (0x2510 + fp) 0x19)))

/-- The cells in the crossing FIFOs of a stopped island, by fabric port and class, are discarded (R18). -/
def State.crossingLost (s : State) (isl : Nat) (fifo : List (Nat × Nat)) : State :=
  forAll (fun (fp : Nat) s => forAll (fun (c : Nat) s => s.crossingDiscard isl fp c (fifo.count (fp, c))) (upTo 8) s)
    ((islandPorts isl).filter s.part.hasFabricPort) s

/-- The partner of an island (R16). -/
def islandPartner (isl : Nat) : Nat :=
  if isl ≤ 1 then 2 else if isl = 2 then 3 else if isl = 3 then 2 else if 9 ≤ isl ∧ isl ≤ 12 then 13 else 3

/-- The island is watched now (R17): a trunk's while the trunk is trained, an output's while it is enabled, every other
one always. -/
def State.islandWatched (s : State) (isl : Nat) : Bool :=
  if 5 ≤ isl ∧ isl ≤ 8 then s.trained (isl - 5)
  else if 9 ≤ isl ∧ isl ≤ 12 then s.flag (outCfg (isl - 9) 1)
  else true

end Sys2Proof.Machine
end

