-- ==== Sys2Proof/Machine/Sessions.lean ====
section
/-!
DEFINITION. Ski passes (R33-R36, R349, R389): challenges, responses, grants, refusals and lockouts.
-/

set_option Elab.async false

namespace Sys2Proof.Machine

open Sys2Proof

/-- Refusals and lockout of a path (R36). -/
def State.lockout (s : State) (p : Path) : Lockout := Sparse.get {} s.lockouts p.code

/-- They change. -/
def State.setLockout (s : State) (p : Path) (x : Lockout) : State :=
  { s with lockouts := Sparse.put {} p.code x s.lockouts }

/-- The path is locked out: 60 s from the fifth refusal (R36). -/
def State.lockedOut (s : State) (p : Path) : Bool :=
  match (s.lockout p).since with
  | some c => decide (s.clock < c + sec 60)
  | none => false

/-- A lockout whose 60 s have ended: the count starts again from zero (R36). -/
def State.lockSettle (s : State) (p : Path) : State :=
  if (s.lockout p).since.isSome && !s.lockedOut p then s.setLockout p {} else s

/-- The challenge that a response is checked against: for 10 s and one response (R35). -/
def State.liveChallenge (s : State) (p : Path) : Option Nat :=
  match (s.session p).chal with
  | some (v, c) => if s.clock < c + sec 10 then some v else none
  | none => none

/-- SessionChallenge (R34, R36, R356): zero without a valid challenge, during a lockout, and while TRNG output is
stopped. -/
def State.shownChallenge (s : State) (p : Path) : Nat :=
  if s.lockedOut p || decide (s.get (ob 0x4000 7) = 1) then 0 else (s.liveChallenge p).getD 0

/-- SessionRequest is written (R35, R36): 0 ends the session, 1 to 3 draw a challenge unless the path is locked out or
the TRNG has stopped. -/
def State.askSession (s : State) (p : Path) (v : Nat) : State :=
  let s := s.updSession p fun x => { x with request := v }
  if v = 0 then s.endSession p 1
  else if s.lockedOut p || decide (s.get (ob 0x4000 7) = 1) then s
  else
    let (d, s) := s.draw
    s.updSession p fun x => { x with chal := some (Config.trng d % 2 ^ 128, s.clock), chalRights := v }

/-- The response that proves credential `c` for a challenge (R35). -/
def State.answerTo (s : State) (p : Path) (chal rights c : Nat) : Bytes :=
  fitBytes 16 (Config.hmacSha384 (beBytes 48 (s.key (112 + c)))
    (leBytes 16 chal ++ u8 rights ++ u8 p.code ++ u8 p.slot ++ u32 (s.get (ob 0x1018 4))))

/-- A refusal is journalled (R35, R478). -/
def State.refusedEv (s : State) (p : Path) (rights cause : Nat) : State :=
  s.ev 0x1121 p.code 2 5
    (u8 p.code ++ u8 p.slot ++ u8 rights ++ u8 (s.session p).cred ++ u8 cause ++ u8 (s.lockout p).refusals)

/-- The check matches (R35 step 3): the rights are granted, and the path's count of refusals starts anew (R36). -/
def State.grant (s : State) (p : Path) (tk : Nat) : State :=
  let id := s.sessionCounter % 65535 + 1
  let s := { s.setLockout p {} with sessionCounter := id }
  let s := s.updSession p fun x =>
    { x with chal := none, rights := x.chalRights, id, start := s.station, granted := s.clock, grantCred := x.cred,
             trunk := tk }
  let x := s.session p
  s.ev 0x1120 p.code 1 5 (u8 p.code ++ u8 p.slot ++ u8 x.rights ++ u8 x.cred ++ u16 x.id)

/-- The check does not match (R35 step 4): the session falls to Guest and the refusal counts; the fifth one locks the
path out (R36). -/
def State.refuseSession (s : State) (p : Path) : State :=
  let n := (s.lockout p).refusals + 1
  let rights := (s.session p).chalRights
  let s := (s.updSession p fun x => { x with chal := none, rights := 0 }).setLockout p { refusals := n }
  let s := s.refusedEv p rights 1
  if 5 ≤ n then
    (s.setLockout p { refusals := n, since := some s.clock }).ev 0x1123 p.code 3 5
      (u8 p.code ++ u8 p.slot ++ zeros 6 ++ u64 (s.station + sec 60))
  else s

/-- SessionResponse is written (R35): checked against a valid challenge, else refused without a check. `tk` is the trunk
that carried it. -/
def State.respond (s : State) (p : Path) (tk : Nat) (data : Bytes) : State :=
  let s := s.lockSettle p
  let x := s.session p
  if s.lockedOut p then s.refusedEv p x.request 3
  else
    match s.liveChallenge p with
    | none => (s.updSession p fun x => { x with chal := none }).refusedEv p x.request 2
    | some chal =>
      let slot := 112 + x.cred
      if s.credential x.cred ∧ x.chalRights ≤ s.get (slotKey slot 0x0D) ∧ data = s.answerTo p chal x.chalRights x.cred then
        s.grant p tk
      else s.refuseSession p

/-- R35. A write of 1 to 3 to SessionRequest draws a challenge. -/
def execSessionRequest (path : Path) (value : Nat) (s : State) : Ans :=
  onPath path true s (s.writeNum path 0x1100 1 value [] fun s => s.askSession path value)

/-- R36. A write of 0 to SessionRequest ends the session. -/
def execSessionEndRequest (path : Path) (s : State) : Ans :=
  onPath path true s (s.writeNum path 0x1100 1 0 [] fun s => s.askSession path 0)

/-- R35. A write to SessionResponse; the path of tunnel 1 comes over trunk `tk`. -/
def execSessionResponse (path : Path) (tk : Nat) (data : Bytes) (s : State) : Ans :=
  onPath path (decide (tk < 4)) s (s.write path 0x1100 4 data [] fun s => s.respond path tk data)

/-- R35. A challenge is no longer valid after 10 s. -/
def execChallengeExpired (path : Path) (s : State) : Ans :=
  onPath path true s
    (if (s.session path).chal.isSome && (s.liveChallenge path).isNone then
      s.updSession path fun x => { x with chal := none }
     else s)

/-- R36. A session's idle time passes SessionIdleLimit. -/
def execSessionIdleTimeout (path : Path) (s : State) : Ans :=
  onPath path true s (if s.overLimit path = 2 then s.endSession path 2 else s)

/-- R36. A session's age passes SessionAgeLimit. -/
def execSessionAgeTimeout (path : Path) (s : State) : Ans :=
  onPath path true s
    (let x := s.session path
     if x.rights ≠ 0 ∧ x.granted + msec (s.get (ob 0x1101 2)) < s.clock then s.endSession path 3 else s)

/-- A session limit is set by a path and applies at once to every session held (R36, R478). -/
def State.setLimit (s : State) (giver : Path) (sub v : Nat) : State :=
  forAll (fun (p : Path) s => if s.overLimit p ≠ 0 then s.endSession p (s.overLimit p) giver else s) allPaths
    (s.set (ob 0x1101 sub) v)

/-- R36. SessionIdleLimit (sub 1) or SessionAgeLimit (sub 2) is written. -/
def execSessionLimitWrite (path : Path) (sub value : Nat) (s : State) : Ans :=
  onPath path (decide (sub < 256)) s (s.writeNum path 0x1101 sub value [] fun s => s.setLimit path sub value)

/-- R36. The 60 s of a path's lockout end, and its count starts again from zero. -/
def execLockoutEnd (path : Path) (s : State) : Ans := onPath path true s (s.lockSettle path)

/-- The violation counters cleared (R42). -/
def State.clearViolations (s : State) : State := s.clear ((upTo 12).map fun k => ob 0x1F80 (k + 1))

/-- R42. A write to ViolationsTotal: only 0 is in range. -/
def execViolationsClear (path : Path) (value : Nat) (s : State) : Ans :=
  onPath path true s (s.writeNum path 0x1F80 1 value [] fun s => s.clearViolations)

end Sys2Proof.Machine
end

