-- ==== Sys2Proof/Machine/Update.lean ====
section
/-!
DEFINITION. Lift and firmware update: DFU downloads, staging, activation, and the firmware's commands (R445-R458).
-/

set_option Elab.async false

namespace Sys2Proof.Machine

open Sys2Proof

/-- DFU 1.1 states: 2 idle, 3 download sync, 5 download idle, 8 manifest wait reset, 10 error; and its status codes
(R445, R446). -/
def dfuIdle : Nat := 2
def dfuSync : Nat := 3
def dfuNext : Nat := 5
def dfuWaitReset : Nat := 8
def dfuError : Nat := 10
def errFile : Nat := 2
def errWrite : Nat := 3
def errErase : Nat := 4
def errProg : Nat := 6
def errVerify : Nat := 7
def errAddress : Nat := 8
def errStalled : Nat := 15

/-- What a DFU block does to a target region: its new download state, or the DFU status and the Result of R456 with
which it fails. Block 0 is checked before anything is erased (R446). -/
def State.dfuBlock (s : State) (d : Dfu) (region kind block : Nat) (data : Bytes) (erased programmed : Bool) :
    State × (Dfu ⊕ (Nat × Nat)) :=
  if d.state = dfuIdle then
    if block ≠ 0 then (s, .inr (errAddress, Config.code 0x6001 errAddress % 2 ^ 32))
    else
      let h := data.take 512
      let c := s.imageCause kind h none
      if c = 1 ∨ c = 5 then (s, .inr (errFile, c))
      else if c ≠ 0 then (s, .inr (errVerify, c))
      else
        let s := s.eraseRegion region
        if !erased then (s, .inr (errErase, 7))
        else if !programmed then (s, .inr (errProg, 7))
        else (s.program (regionBase region + 512) (data.drop 512),
          .inl { d with next := 1, header := h, state := dfuSync, status := 0 })
  else if d.state = dfuNext then
    if block ≠ d.next ∨ regionSize region < block * 4096 + data.length then
      (s.eraseRegion region, .inr (errAddress, Config.code 0x6001 errAddress % 2 ^ 32))
    else if !programmed then (s.eraseRegion region, .inr (errProg, 7))
    else (s.program (regionBase region + block * 4096) data, .inl { d with next := block + 1, state := dfuSync })
  else (s, .inr (errStalled, Config.code 0x6001 errStalled % 2 ^ 32))

/-- The end of a download (R446): check 4, then the header is programmed last. -/
def State.dfuEnd (s : State) (d : Dfu) (region : Nat) (programmed : Bool) : State ⊕ (Nat × Nat) :=
  let payload := s.flashBytes (regionBase region + 512) (imgPayload d.header)
  if d.state ≠ dfuNext then .inr (errStalled, Config.code 0x6001 errStalled % 2 ^ 32)
  else if sha384 payload ≠ fitBytes 48 (d.header.drop 32) then .inr (errVerify, 4)
  else if !programmed then .inr (errProg, 7)
  else .inl (s.program (regionBase region) d.header)

/-- The slot that an event names for an alternate setting (R458). -/
def altSlot (alt : Nat) : Nat := if alt < 2 then alt else 0

/-- A Lift download fails with a DFU status; the download's target holds no image (R446). -/
def State.liftFail (s : State) (alt status : Nat) : State :=
  let d := s.boot.lift
  if d.state = dfuError then s
  else
    let v := imgVersion d.header
    (s.updBoot fun x => { x with lift := { d with state := dfuError, status, header := [] } }).note 0xF005 2
      (u16 (altSlot alt) ++ u8 alt ++ u32 v ++ u8 status)

/-- Lift's DFU device is attached: the port is a Sink and UFP with VBUS (R244, R445). -/
def State.liftHere (s : State) : Bool := decide (s.dev = devLift) && s.isSink && s.pd.vbus

/-- R446. A download block in Lift; whether the erase and the programming succeed. -/
def execLiftDfuDnload (alt block : Nat) (data : Bytes) (erased programmed : Bool) (s : State) : Ans :=
  onUnit (decide (alt < 3))
    (if s.liftHere ∧ 0 < data.length ∧ data.length ≤ 4096 then
      let d := s.boot.lift
      if d.state = dfuNext ∧ d.alt ≠ alt then (s.eraseRegion d.alt).liftFail alt errStalled
      else
        match s.dfuBlock { d with alt } alt (if alt = 2 then 2 else 1) block data erased programmed with
        | (s, .inl d) => s.updBoot fun x => { x with lift := d }
        | (s, .inr (status, _)) => s.liftFail alt status
     else s)

/-- R446. The zero-length download: the image is complete, a slot is marked for a trial, and the hub resets with
kind 6. -/
def execLiftDfuDnloadEnd (alt : Nat) (programmed : Bool) (s : State) : Ans :=
  onUnit (decide (alt < 3))
    (if s.liftHere then
      let d := s.boot.lift
      if d.alt ≠ alt then s.liftFail alt errStalled
      else
        match s.dfuEnd d alt programmed with
        | .inl s =>
          let s := if alt < 2 then s.updBoot fun x => { x with trial := alt + 1, failed := 0 } else s
          let s := s.note 0xF005 2 (u16 (altSlot alt) ++ u8 alt ++ u32 (imgVersion d.header) ++ u8 0)
          (s.send (.dfuStatus 0 dfuWaitReset (Config.dfuPoll dfuWaitReset))).toReset 6 false
        | .inr (status, _) => (if d.state = dfuNext then s.eraseRegion alt else s).liftFail alt status
     else s)

/-- R446. DFU_ABORT in Lift: the target holds no image. -/
def execLiftDfuAbort (s : State) : Ans :=
  .next
    (if s.liftHere ∧ s.boot.lift.state ≠ dfuError then
      let d := s.boot.lift
      let s := if d.state = dfuIdle then s else s.eraseRegion d.alt
      s.updBoot fun x => { x with lift := { alt := d.alt } }
     else s)

/-- The service port presents a DFU device: Lift's, or Ilkai's in DFU mode (R445, R447). -/
def State.dfuHere (s : State) : Bool := s.liftHere || (s.reach && s.svc.dfu)

/-- bState and bStatus of the DFU device that the port presents. -/
def State.dfuNow (s : State) : Nat × Nat :=
  if s.dev = devLift then (s.boot.lift.state, s.boot.lift.status) else (s.get (ob 0x6001 6), s.get (ob 0x6001 7))

/-- They change; Ilkai's also show in ImageStaging (R456). -/
def State.dfuSet (s : State) (state status : Nat) : State :=
  if s.dev = devLift then s.updBoot fun x => { x with lift := { x.lift with state, status } }
  else (s.setAll [(ob 0x6001 6, state), (ob 0x6001 7, status)]).updBoot fun x =>
    { x with stage := { x.stage with state, status } }

/-- R445. DFU_GETSTATUS: a block's programming has ended when it is answered. -/
def execLiftDfuGetstatus (s : State) : Ans :=
  .next
    (if s.dfuHere then
      let (state, status) := s.dfuNow
      let state := if state = dfuSync then dfuNext else state
      (s.dfuSet state status).send (.dfuStatus status state (Config.dfuPoll state))
     else s)

/-- R445. DFU_CLRSTATUS takes the device out of its error. -/
def execLiftDfuClrstatus (s : State) : Ans :=
  .next
    (if s.dfuHere then
      let (state, status) := s.dfuNow
      if state = dfuError then s.dfuSet dfuIdle 0 else s.dfuSet dfuError (if status = 0 then errStalled else status)
     else s)

/-- R445. DFU_GETSTATE. -/
def execLiftDfuGetstate (s : State) : Ans := .next (if s.dfuHere then s.send (.dfuState s.dfuNow.1) else s)

/-- R447. DFU_DETACH to the runtime interface: a bus reset within 1000 ms enters DFU mode. -/
def execDfuDetach (s : State) : Ans :=
  .next (if s.svcState = 4 ∧ !s.svc.dfu then s.updSvc fun x => { x with detach := some s.clock } else s)

/-- A staging download is being received (R447). -/
def State.stagingRuns (s : State) : Bool := s.cmdRuns 0x6001 && decide ((s.cmd 0x6001).value = 1)

/-- The staging command fails with a Result of R456 (R447). -/
def State.stagingFail (s : State) (status result : Nat) : State :=
  let s := s.dfuSet dfuError status
  ((s.cmdFail 0x6001 result).set (ob 0x6001 1) 3).ev 0xF011 0 2 0 (u16 0 ++ u16 (result % 65536))

/-- R447. A DFU block in service: accepted only while command 1 of ImageStaging runs. -/
def execStagingDfuDnload (block : Nat) (data : Bytes) (erased programmed : Bool) (s : State) : Ans :=
  .next
    (if s.reach ∧ s.svc.dfu ∧ 0 < data.length ∧ data.length ≤ 4096 then
      if s.dfuNow.1 = dfuError then s
      else if !s.stagingRuns then s.dfuSet dfuError errWrite
      else
        let d := { s.boot.stage with state := s.dfuNow.1 }
        let h := if d.state = dfuIdle then data else d.header
        match s.dfuBlock d 3 (if imgKind h = 2 then 2 else 1) block data erased programmed with
        | (s, .inl d) =>
          let s := (s.updBoot fun x => { x with stage := d }).count (ob 0x6001 5) data.length
          s.dfuSet d.state 0
        | (s, .inr (status, result)) => s.stagingFail status result
     else s)

/-- R447. The last block: the image is checked and the staged header programmed, which is the command's commit point. -/
def execStagingDfuDnloadEnd (programmed : Bool) (s : State) : Ans :=
  .next
    (if s.reach ∧ s.svc.dfu then
      if s.dfuNow.1 = dfuError then s
      else if !s.stagingRuns then s.dfuSet dfuError errWrite
      else
        let d := { s.boot.stage with state := s.dfuNow.1 }
        match s.dfuEnd d 3 programmed with
        | .inl s =>
          let h := d.header
          let s := s.setAll [(ob 0x6001 1, 2), (ob 0x6001 2, imgKind h), (ob 0x6001 3, imgVersion h),
            (ob 0x6001 4, imgSecurity h)]
          let s := (s.dfuSet dfuIdle 0).ev 0xF010 0 1 0 (u16 0 ++ u8 (imgKind h) ++ u32 (imgVersion h) ++ u8 (imgSecurity h))
          s.cmdCommit 0x6001 0
        | .inr (status, result) => (s.eraseRegion 3).stagingFail status result
     else s)

/-- ImageStaging shows that nothing is staged. -/
def State.unstaged (s : State) (state : Nat) : State :=
  ((s.eraseRegion 3).updBoot fun x => { x with stage := {} }).setAll
    [(ob 0x6001 1, state), (ob 0x6001 2, 0), (ob 0x6001 3, 0), (ob 0x6001 4, 0), (ob 0x6001 5, 0)]

/-- R456, R447. ImageStaging command 1: the staging area waits for a download. -/
def execImageStage (path : Path) (s : State) : Ans :=
  onPath path true s (s.command path 0x6001 1 [3, 5] [1, 2, 3] [] fun s => s.unstaged 1)

/-- The copy of an activation can run now: a pair B image waits while pair B is Loading (R453). -/
def State.copyReady (s : State) : Bool := decide (s.get (ob 0x6001 2) ≠ 2 ∨ s.appState ≠ 1)

/-- R448. ImageStaging command 2: the target region is erased and the copy begins; Result 8 with nothing staged. -/
def execImageActivate (path : Path) (s : State) : Ans :=
  onPath path true s
    (s.command path 0x6001 2 [3, 5] [1, 2, 3] [] fun s =>
      if s.get (ob 0x6001 1) ≠ 2 then s.cmdFail 0x6001 8
      else
        let s := s.set (ob 0x6001 1) 4
        match s.activating with
        | some r => if s.copyReady then s.eraseRegion r else s
        | none => s)

/-- R448. The copy has ended: kind 1 is verified in place, the header is programmed last, and TrialSlot names its
slot. -/
def execImageActivationDone (programmed : Bool) (s : State) : Ans :=
  .next
    (match s.activating with
     | none => s
     | some r =>
      if !s.copyReady then s
      else
        let kind := s.get (ob 0x6001 2)
        let h := s.regionHeader 3
        let c := if kind = 1 then s.imageCause 1 h (some (s.regionPayload 3)) else 0
        let s := (s.eraseRegion r).set (ob 0x6001 1) 2
        if !programmed then s.cmdFail 0x6001 7
        else
          let s := s.program (regionBase r + 512) (s.regionPayload 3)
          if c ≠ 0 then s.cmdFail 0x6001 c
          else
            let s := s.program (regionBase r) h
            let s := if kind = 1 then s.updBoot fun x => { x with trial := r + 1 } else s
            let s := s.ev 0xF012 0 1 0 (u16 (altSlot r) ++ u8 kind ++ u32 (imgVersion h) ++ u8 r)
            s.cmdCommit 0x6001 0)

/-- R456. ImageStaging command 3 discards the staged image. -/
def execImageDiscard (path : Path) (s : State) : Ans :=
  onPath path true s (s.commandNow path 0x6001 3 [3, 5] [1, 2, 3] [] 0 fun s => s.unstaged 0)

/-- The commands of FirmwareStatus, command 2 with and without bit 8 (R448, R455). -/
def fwCmds : List Nat := [1, 2, 3, 4, 0x102]

/-- R455. FirmwareStatus command 1: the running slot is preferred. -/
def execFwConfirmSlot (path : Path) (s : State) : Ans :=
  onPath path true s
    (s.commandNow path 0x6000 1 anyState fwCmds [] 0 fun s =>
      (s.updBoot fun x => { x with preferred := x.lastSlot }).ev 0xF013 0 1 0 (u16 s.boot.lastSlot ++ u32 s.boot.version))

/-- R448. FirmwareStatus command 2 raises RollbackCount; Result 3 off the preferred slot, 1 with nothing to raise, 2
while the other slot's valid image would be shut out and bit 8 is not set. -/
def execFwAdvanceRollback (path : Path) (force : Bool) (s : State) : Ans :=
  onPath path true s
    (s.command path 0x6000 (2 + 256 * ofBool force) [3, 5] fwCmds [] fun s =>
      let b := s.boot
      let other := 1 - b.lastSlot
      if b.lastSlot ≠ b.preferred then s.cmdFail 0x6000 3
      else if b.secVersion ≤ b.rollback then s.cmdFail 0x6000 1
      else if !force ∧ s.slotState other = 1 ∧ imgSecurity (s.regionHeader other) < b.secVersion then s.cmdFail 0x6000 2
      else
        let s := (s.updBoot fun x => { x with rollback := x.secVersion }).ev 0xF014 0 2 0
          (u16 b.lastSlot ++ u8 1 ++ u8 b.rollback ++ u8 b.secVersion)
        s.cmdCommit 0x6000 0)

/-- R448. FirmwareStatus command 3 raises AppSecurityFloor to the loaded image's security version. -/
def execFwRaiseAppFloor (path : Path) (s : State) : Ans :=
  onPath path true s
    (s.commandNow path 0x6000 3 anyState fwCmds [] 0 fun s =>
      let old := s.boot.appFloor
      let new := s.app.secVersion
      if new ≤ old then s
      else (s.updBoot fun x => { x with appFloor := new }).ev 0xF014 0 2 0 (u16 0 ++ u8 2 ++ u8 old ++ u8 new))

/-- A command of another block runs (R453). -/
def State.otherRuns (s : State) : Bool := s.cmds.any fun e => decide (e.1 ≠ 0x6000) && decide (s.cmdStatus e.1 = 1)

/-- R455. FirmwareStatus command 4: the reply, and a reset of kind 5 after t_CR; it waits for another running command, at
most 1 s (R453). -/
def execFwReset (path : Path) (s : State) : Ans :=
  onPath path true s
    (s.commandNow path 0x6000 4 anyState fwCmds [] 0 fun s =>
      if s.otherRuns then (s.updBoot fun x => { x with resetAsked := true }).start .fwWait else s.start .fwReset)

/-- R454. t_CR after the reply the hub resets with kind 5; a reset that waited begins its t_CR. -/
def execFwResetDelayExpired (s : State) : Ans :=
  .next
    (if s.boot.resetAsked then
      if !s.otherRuns ∨ s.due .fwWait (sec 1) then
        ((s.updBoot fun x => { x with resetAsked := false }).stop .fwWait).start .fwReset
      else s
     else if s.due .fwReset (msec 10) then (s.stop .fwReset).toReset 5 false
     else s)

/-- R457. OrphanWindow command 1 discards every orphan. -/
def execOrphanDiscard (path : Path) (s : State) : Ans :=
  onPath path true s
    (s.commandNow path 0x6002 1 anyState [1] [] 0 fun s => s.updBoot fun x => { x with orphans := [] })

/-- R449. A committed copy goes into the boot-flash backup, after any staging or activation. -/
def execConfigBackupWrite (s : State) : Ans :=
  .next
    (if s.reach ∧ s.get (ob 0x6001 1) ≠ 1 ∧ s.get (ob 0x6001 1) ≠ 4 then
      match s.boot.backupDue with
      | some c => s.updBoot fun x => { x with backup := some c, backupDue := none }
      | none => s
     else s)

end Sys2Proof.Machine
end

