-- ==== Sys2Proof/Machine/Dictionary.lean ====
section
/-!
DEFINITION. Store, restore, aborts of commands and function modes (R50-R57).
-/

set_option Elab.async false

namespace Sys2Proof.Machine

open Sys2Proof

/-! Store and restore (R50, R51). -/

/-- The kinds of a store or restore on the block `i`: kind 6 while one runs, and in Run (R50, R56). -/
def State.storeKinds (s : State) (i : Nat) : List Nat := kindIf (decide (s.cmdStatus i = 1 ∨ s.dev = devRun)) 6

/-- Area `n` is stored into the older copy (R51); a store of the security range saves which slots are restorable (R347),
one of the configuration range keeps the ROM's USB identity (R445). -/
def State.storeArea (s : State) (n : Nat) : State :=
  let stored := s.copyNow (areasOf n)
  let s := (s.putCopy stored).useCopy (some stored) (areasOf n)
  let s :=
    if n = 1 ∨ n = 4 then
      let marks := s.validSlots.filter fun k =>
        decide (k ≠ 0 ∧ s.get (slotKey k 8) = 1 ∧ s.get (slotKey k 5) ≠ 0xFE)
      { s with secu := { s.secu with stored := true, marks } }
    else s
  if n = 1 ∨ n = 3 then
    s.updBoot fun x => { x with vendor := s.get (ob 0x2A20 3), product := s.get (ob 0x2A20 4) }
  else s

/-- A write to Store (R50): a command on the block of 0x1010 with the area as its value. -/
def State.writeStore (s : State) (p : Path) (area value : Nat) : State :=
  s.writeNum p 0x1010 area value (s.storeKinds 0x1010) fun s =>
    ((s.cmdAccept 0x1010 area p).storeArea area).cmdCommit 0x1010 0

/-- A write to Restore (R50): the area is marked for defaults at the next Reset. -/
def State.writeRestore (s : State) (p : Path) (area value : Nat) : State :=
  s.writeNum p 0x1011 area value (s.storeKinds 0x1011) fun s =>
    ((s.cmdAccept 0x1011 area p).updBoot fun x => { x with restore := area :: x.restore.filter (· ≠ area) }).cmdCommit
      0x1011 0

/-- R50, R51. A write to 0x1010.0n stores an area. -/
def execStoreConfiguration (path : Path) (area value : Nat) (s : State) : Ans :=
  onPath path true s (s.writeStore path area value)

/-- R50, R52. A write to 0x1011.0n marks an area for defaults. -/
def execRestoreDefaults (path : Path) (area value : Nat) (s : State) : Ans :=
  onPath path true s (s.writeRestore path area value)

/-! Aborts (R57). -/

/-- What an abort before the commit point on path `p` undoes (R57, R155, R387, R392, R448). -/
def State.undo (s : State) (p : Path) (i : Nat) : State :=
  let v := (s.cmd i).value
  if 0x3000 ≤ i ∧ i < 0x4000 then s.undoDrain (i - 0x3000)
  else if 0x2100 ≤ i ∧ i < 0x2500 ∧ i % 0x100 = 0 then s.undoRetrain (i / 0x100 - 0x21)
  else if 0x2610 ≤ i ∧ i < 0x2614 then
    s.noSwitch (i - 0x2610)
  else if 0x2100 ≤ i ∧ i < 0x2500 then
    s.updTrunk (i / 0x100 - 0x21) fun x => { x with eyePreset := 0, eyePre := 0, eyePost := 0 }
  else if i = 0x2D00 then s.updStore fun x => { x with flushLeft := 0 }
  else if i = 0x6001 then
    if v = 1 then s.unstaged 3
    else
      let s := match s.activating with
        | some r => s.eraseRegion r
        | none => s
      s.set (ob 0x6001 1) 2
  else if i = 0x4500 then
    let s := s.updApp fun x => { x with stop := 0 }
    if v = 3 then (((s.appEnd p s.station).updApp fun x => { x with tcm := [] }).appGo 3 1)
    else s
  else if i = 0x4502 then s.updApp fun x => { x with hostMsg := [], posted := false }
  else s

/-- An abort is written to the block of index `i` (R57). -/
def State.abortCmd (s : State) (p : Path) (i : Nat) : State :=
  if s.cmdStatus i = 2 then
    (s.set (ob i 0xF2) 4).ev 0x1112 p.code 1 0
      (u16 i ++ u32 (s.cmd i).value ++ u8 p.code ++ u8 0 ++ u64 (s.get (ob i 0xF4)))
  else if s.cmdRuns i then (s.undo p i).cmdUndoing i p
  else s

/-- A write to the Abort subindex of a command block; of kind 6 in Status 0, 3 and 5 (R57). -/
def State.writeAbort (s : State) (p : Path) (i value : Nat) : State :=
  s.writeNum p i 0xF1 value (kindIf ([0, 3, 5].contains (s.cmdStatus i)) 6) fun s => s.abortCmd p i

/-- R57. An abort is written to the command block of an index. -/
def execCommandAbort (path : Path) (index value : Nat) (s : State) : Ans :=
  onPath path (decide (index < 65536)) s (s.writeAbort path index value)

/-! Function modes (R54, R55). -/

/-- The tunnels of a function that are not Off. -/
def State.fnTunnels (s : State) (fn : Nat) : List Nat := s.liveTunnels.filter fun n => decide (kindFn (s.tcfg n 2) = fn)

/-- The function carries traffic (R55). Margins and breaker recovery have nothing to disable. -/
def State.fnBusy (s : State) (fn : Nat) : Bool :=
  !(s.fnTunnels fn).isEmpty ||
  (match fn with
   | 1 => (upTo 4).any s.trained
   | 2 => (upTo 8).any fun e => decide (s.get (ethStat e 1) = 1)
   | 3 => (upTo 4).any fun t => !(s.bestEffort t).isEmpty
   | 4 => (upTo 4).any fun d => decide (s.outState d ≠ 0)
   | 5 => s.usbPorts.any fun u => decide (2 ≤ s.pstate u)
   | 6 => s.attached
   | 7 => (upTo 2).any fun p => !(s.pcie p).spaces.isEmpty
   | 8 => s.fieldOn && !s.mapsOn.isEmpty
   | 9 => decide (s.tmState ≠ 0)
   | _ => false)

/-- The function is disabled for its switch to mode `v` (R54, R55). -/
def State.switchBegin (s : State) (fn v : Nat) : State :=
  let s := forAll (fun (n : Nat) s => s.shut n 2) (s.fnTunnels fn) s
  match fn with
  | 1 => forAll (fun (t : Nat) s => if s.trained t then s.startRetrain t 2 else s) (upTo 4) s
  | 3 => forAll (fun (t : Nat) s => s.updSched t fun x => { x with hold := true }) (upTo s.part.trunks) s
  | 4 => s.displaySwitch
  | 5 => s.usbPortsOff true
  | 6 => if v = 0 then s.pdSwitch false else s
  | 7 =>
    forAll (fun (p : Nat) s => s.queuesGone p) [0, 1] s
  | 8 => s.staleAll
  | 9 => if s.tmState = 1 ∨ s.tmState = 2 then s.setTime 3 else s
  | _ => s

/-- The mode is changed, by an access made at `time`, and the function enabled again with its configuration (R54, R55, R58). -/
def State.switchEnd (s : State) (fn v : Nat) (p : Path) (time : Nat) : State :=
  let old := s.get (ob 0x2010 fn)
  let s := s.setAll [(ob 0x2010 fn, v), (ob 0x2011 fn, v)]
  let s :=
    match fn with
    | 2 => s.flushLearnt
    | 3 => forAll (fun (t : Nat) s => s.updSched t fun x => { x with hold := true }) (upTo s.part.trunks) s
    | 6 => if v = 1 then s.pdSwitch true else s
    | 8 => s.staleAll
    | 9 => if s.tmState = 3 ∧ s.time.valid then s.setTime 1 else s
    | 10 => s.dropProposal
    | 11 => s.breakerSwitch (decide (v = 1))
    | _ => s
  let s := s.evAt time 0x1130 p.code 1 7 (u8 fn ++ u8 old ++ u8 v)
  forAll (fun (n : Nat) s => s.leaveOff n) s.enabledTunnels s

/-- Key under which the hub keeps who asked for a function's switch. -/
def modeKey (fn : Nat) : Nat := ob 0x2010 fn

/-- A mode that may be taken (R55): the value in force changes nothing; without traffic it changes at once. -/
def State.takeMode (s : State) (fn v : Nat) (p : Path) (time : Nat) : State :=
  if s.get (ob 0x2010 fn) = v then s
  else if s.fnBusy fn then
    let s := { s with cmds := Sparse.put {} (modeKey fn) { value := v, path := p, at_ := time } s.cmds }
    (s.set (ob 0x2011 fn) 2).switchBegin fn v
  else (s.switchBegin fn v).switchEnd fn v p time

/-- Mode 0 of storage, or of display, needs PD9 (R21, R55). -/
def State.modeBad (s : State) (fn v : Nat) : Bool := decide ((fn = 7 ∨ fn = 4) ∧ v = 0) && !s.flag (enKey 9)

/-- The mode may not be taken: it needs PD9, or breaks the fetch budget (R21, R55, R191). -/
def State.modeRefused (s : State) (fn v : Nat) : Bool :=
  s.modeBad fn v || decide (fn = 4) && s.budgetBad (ob 0x2010 fn) v

/-- A write to a function's mode (R55). During the function's switch it is held, the latest only, and what the value asks
for is not judged before the switch completes; a value outside the object's range is refused at once (DESIGN CHOICE, log
entry 229). -/
def State.writeMode (s : State) (p : Path) (fn v : Nat) : State :=
  let held := decide (s.get (ob 0x2011 fn) = 2)
  let more := kindIf (!held && s.modeRefused fn v) 7
  (s.writeNum p 0x2010 fn v more fun s =>
    if held then { s with modeHeld := (fn, v, p, s.station) :: s.modeHeld.filter fun e => decide (e.1 ≠ fn) }
    else s.takeMode fn v p s.station).budgetCount
      (s.reach && !held && decide (fn = 4) && s.budgetBad (ob 0x2010 fn) v) (s.judgeWrite p 0x2010 fn (leBytes 1 v) more)

/-- The function's disabling has ended: its tunnels are Off, and what else it must leave is left (R54, R55). -/
def State.switchReady (s : State) (fn : Nat) : Bool :=
  (s.fnTunnels fn).isEmpty &&
  (match fn with
   | 1 => (upTo 4).all fun t => !s.trained t || !s.drainsOn t
   | 4 => (upTo 4).all fun d => decide (s.outState d ≠ 2) || (!(s.disp d).blankDue && (s.disp d).porch)
   | _ => true)

/-- The write held for a function is evaluated (R55): a violation of kind 7 bears the time of its access (R58). -/
def State.heldMode (s : State) (fn : Nat) : State :=
  match s.modeHeld.find? fun e => decide (e.1 = fn) with
  | none => s
  | some (_, v, p, time) =>
    let s := { s with modeHeld := s.modeHeld.filter fun e => decide (e.1 ≠ fn) }
    if s.modeRefused fn v then
      (s.violateAt time p 0x2010 fn 7).budgetCount (decide (fn = 4) && s.budgetBad (ob 0x2010 fn) v) (some 7)
    else s.takeMode fn v p time

/-- R55. A write to a function's mode. -/
def execFunctionModeWrite (path : Path) (fn value : Nat) (s : State) : Ans :=
  onPath path (decide (1 ≤ fn ∧ fn ≤ 11)) s (s.writeMode path fn value)

/-- R55. A function's switch completes: the new mode is in force, its tunnels leave Off, and a held write is evaluated. -/
def execFunctionSwitchComplete (fn : Nat) (s : State) : Ans :=
  onUnit (decide (1 ≤ fn ∧ fn ≤ 11))
    (if s.get (ob 0x2011 fn) = 2 ∧ s.switchReady fn then
      let c := s.cmd (modeKey fn)
      (s.switchEnd fn c.value c.path c.at_).heldMode fn
     else s)

end Sys2Proof.Machine
end

