-- ==== Sys2Proof/Machine/Security.lean ====
section
/-!
DEFINITION. The commands of the key register, the life cycle, tampering and self-tests (R339-R362).
-/

set_option Elab.async false

namespace Sys2Proof.Machine

open Sys2Proof

/-- The slot that the path has selected (R359). -/
def State.slotOf (s : State) (p : Path) : Nat := s.get (ob (heldIndex p.held 0x4002) 1)

/-- Commands 1 to 3 of R346 on the path's slot: slot 0 is of kind 7, a valid slot of kind 6; a failure ends with Status 5
and the Result. `cut` tells that a tamper alarm came before the commit point: with zeroisation that is Result 8 (R353). -/
def State.makeKey (s : State) (path : Path) (cmd : Nat) (cut : Bool) : State :=
  let slot := s.slotOf path
  s.command path 0x4002 cmd anyState [1, 2, 3, 4]
    (kindIf (decide (slot = 0)) 7 ++ kindIf (s.slotValid slot) 6) fun s =>
    match (if cut && s.secu.blocked then .inr 8 else s.workKey slot cmd) with
    | .inr r => s.cmdFail 0x4002 r
    | .inl key =>
      let s := (s.fillSlot slot key).keyCreated slot cmd
      let s :=
        if 112 ≤ slot ∧ s.get (slotKey slot 3) = 1 then
          s.ev 0xC030 slot 1 276 (u16 slot ++ u16 (slot - 112) ++ u8 (s.get (slotKey slot 0x0D)) ++ u8 path.code)
        else s
      s.cmdCommit 0x4002 0

/-- R346. Key command 1 derives a key from a derivation slot or the root. -/
def execKeyDerive (run : KeyRun) (s : State) : Ans := onPath run.path true s (s.makeKey run.path 1 run.cut)

/-- R346. Key command 2 agrees a key by ECDH and derivation. -/
def execKeyAgree (run : KeyRun) (s : State) : Ans := onPath run.path true s (s.makeKey run.path 2 run.cut)

/-- R346. Key command 3 decrypts WrappedKey into the slot. -/
def execKeyImport (run : KeyRun) (s : State) : Ans := onPath run.path true s (s.makeKey run.path 3 run.cut)

/-- Credential c is revoked by a command on the path `giver`: the sessions granted under it end (R349, R478). -/
def State.revoke (s : State) (giver : Path) (slot : Nat) : State :=
  if slot < 112 then s
  else
    let c := slot - 112
    let mine := allPaths.filter fun p => decide ((s.session p).rights ≠ 0 ∧ (s.session p).grantCred = c)
    let s := forAll (fun p s => s.endSession p 5 giver) mine s
    s.ev 0xC031 slot 1 276 (u16 slot ++ u16 c ++ u16 mine.length)

/-- R346, R348. Key command 4 destroys the slot and its bound children; a credential is revoked. With no root to use it
ends with Result 7, and with Result 8 where zeroisation came before its commit point (R352, R353). -/
def execKeyInvalidate (run : KeyRun) (s : State) : Ans :=
  let slot := s.slotOf run.path
  onPath run.path true s
    (s.command run.path 0x4002 4 anyState [1, 2, 3, 4] (kindIf (decide (slot = 0)) 7) fun s =>
      if s.secu.blocked ∧ run.cut then s.cmdFail 0x4002 8
      else if s.secu.life = 0 ∨ s.secu.life = 3 ∨ s.secu.blocked then s.cmdFail 0x4002 7
      else if s.slotValid slot then
        let n := (s.boundTo [slot]).length
        ((s.destroy [slot] 1).revoke run.path slot).cmdCommit 0x4002 (n * 256)
      else
        let s := { s with secu := { s.secu with marks := s.secu.marks.filter fun k => decide (k ≠ slot) } }
        s.cmdCommit 0x4002 0)

/-- The commands of SecurityStatus (R358). -/
def lifeCmds : List Nat := [0x5A5A5A01, 0x5A5A5A02, 3]

/-- R342. SecurityStatus command 1 enters Operational; without a valid credential of MaxRights 3 it ends with Result 1. -/
def execEnterOperational (path : Path) (upper : Nat) (s : State) : Ans :=
  onPath path true s
    (s.command path 0x4000 (upper * 256 + 1) anyState lifeCmds (kindIf (decide (s.secu.life ≠ 1)) 6) fun s =>
      if (upTo 16).any fun c => s.credential c && decide (s.get (slotKey (112 + c) 0x0D) = 3) then
        (s.toLife 2 1).cmdCommit 0x4000 0
      else s.cmdFail 0x4000 1)

/-- R342. SecurityStatus command 2 decommissions: every slot is destroyed and the root revoked. -/
def execDecommission (path : Path) (upper : Nat) (s : State) : Ans :=
  onPath path true s
    (s.command path 0x4000 (upper * 256 + 2) anyState lifeCmds
      (kindIf (decide (s.secu.life ≠ 1 ∧ s.secu.life ≠ 2)) 6) fun s => (s.toLife 3 1).cmdCommit 0x4000 0)

/-- R350. SecurityStatus command 3 programs the customer key hash, once, in Provisioning. -/
def execEnrolCustomerKeyHash (path : Path) (s : State) : Ans :=
  onPath path true s
    (s.commandNow path 0x4000 3 anyState lifeCmds (kindIf (decide (s.secu.life ≠ 1) || s.secu.custDone) 6) 0 fun s =>
      let h := s.get (ob 0x4000 6)
      ({ s with secu := { s.secu with custHash := h, custDone := true } }).set (ob 0x4000 5) h)

/-- The action of a tamper source, as AON holds it (R351, R360). -/
def State.tamperAction (s : State) (source : Nat) : Nat :=
  Sparse.get (objDefault s.part s.head (ob 0x4008 (source + 1))) s.secu.actions source

/-- R351, R353. A tamper source alarms and is acted on by its action and the device's state; `active` false: the source is
no longer active. Source 6 is sensed while the hub die runs. -/
def execTamperAlarm (source : Nat) (active : Bool) (s : State) : Ans :=
  onUnit (decide (source < 9))
    (if !active then { s with secu := { s.secu with active := clrBit s.secu.active source } }
     else if s.dev = devReset ∧ source = 6 then s
     else
      let a := s.tamperAction source
      let s := { s with secu := { s.secu with
        active := setBit s.secu.active source, latched := setBit s.secu.latched source,
        events := cnt 32 s.secu.events 1, lastTime := s.station, lastSource := source, lock := s.secu.lock || decide (a = 2) } }
      if s.dev = devReset then
        { s with secu := { s.secu with asleep := s.secu.asleep ++ [(source, a, s.clock)], decommission := s.secu.decommission || decide (a = 3) } }
      else
        let s := s.tamperEv source a 0
        if s.dev = devLift then { s with secu := { s.secu with decommission := s.secu.decommission || decide (a = 3) } }
        else if a = 0 ∨ s.secu.life = 3 then s
        else
          let s := s.zeroise source
          if a = 3 ∧ s.secu.life ≠ 0 then s.toLife 3 2 else s)

/-- R360. TamperStatus command 1 clears the latches whose source is no longer active, TamperLock and AonColdStart. -/
def execTamperClear (path : Path) (s : State) : Ans :=
  let kept := s.secu.latched &&& s.secu.active
  onPath path true s
    (s.commandNow path 0x4009 1 anyState [1] [] kept fun s =>
      let gone := s.secu.latched - kept
      ({ s with secu := { s.secu with latched := kept, lock := false, cold := false } }).ev 0xC041 0 2 272
        (u16 0 ++ u16 gone ++ u16 kept))

/-- R356. An engine runs its known-answer test, at Boot and every SelfTestInterval; a failure is marked and journalled. -/
def execCryptoSelftest (engine : Nat) (pass : Bool) (s : State) : Ans :=
  onPort s (fun q => q.hasTrunk engine)
    (if s.dev = devReset ∨ (s.timing (.selfTest engine) ∧ !s.due (.selfTest engine) (sec (s.get (ob 0x4000 9)))) then s
     else
      let s := s.start (.selfTest engine)
      if pass then s
      else (s.set (ob 0x4000 8) (setBit (s.get (ob 0x4000 8)) engine)).ev 0xC060 engine 4 278 (u16 engine ++ u16 engine))

/-- R356. A continuous health test of the TRNG fails: 1 repetition count, 2 adaptive proportion. TRNG output stops. -/
def execTrngHealthFailure (test : Nat) (s : State) : Ans :=
  .next (if s.dev = devReset then s else (s.set (ob 0x4000 7) 1).ev 0xC061 0 4 278 (u16 0 ++ u16 test))

end Sys2Proof.Machine
end

