-- ==== Sys2Proof/Machine/AccessKinds.lean ====
section
/-!
DEFINITION. The cross-object conditions of a write that only stores its value (R37 kind 7), chapter by chapter, and where
the hub keeps what a path writes.
-/

set_option Elab.async false

namespace Sys2Proof.Machine

open Sys2Proof

/-- The index under which the hub keeps an object that a path reaches as `i`, `sub`: the selections of R174, R282, R283,
R287, R359, R361, R405 and R457 are held per path and session slot, and lead to the item selected. -/
def State.placed (s : State) (p : Path) (i sub : Nat) : Nat :=
  let sel := s.get (ob (heldIndex p.held i) 1)
  if i = 0x2710 ∨ i = 0x2C18 ∨ i = 0x4002 ∨ i = 0x4510 then
    if sub = 0 ∨ 0xF0 ≤ sub then i
    else if sub = 1 then heldIndex p.held i
    else if i = 0x2710 then allotIndex sel
    else if i = 0x2C18 then vlanIndex sel
    else if i = 0x4002 then slotIndex sel
    else irqIndex sel
  else if (i = 0x4010 ∧ (sub = 1 ∨ sub = 2)) ∨ (i = 0x2F11 ∧ 1 ≤ sub) ∨ (0x2F18 ≤ i ∧ i < 0x2F1C ∧ sub = 5) ∨
      (i = 0x6002 ∧ sub = 2) then heldIndex p.held i
  else i

/-- The sum of Reserved over every queue, with one of them changed (R132). -/
def State.reservedSum (s : State) (key v : Nat) : Nat :=
  (upTo 20).foldl (fun n f => (upTo 8).foldl (fun n c => n + s.given key v (ob (0x2510 + f) (c + 1))) n) 0

/-- Traffic of the class can reach the port (R14, R15, R132, R133): every class a trunk and FP19, TC6 any port, since a
display tunnel may start at any, the others where the table of defaults gives them room. -/
def classReaches (f c : Nat) : Bool := decide (f < 4 ∨ f = 19 ∨ c = 6 ∨ maxDefault f c ≠ 0)

/-- Limits of a fabric port (R132, R138, R142). -/
def State.limitBad (s : State) (f sub v : Nat) : Bool :=
  if 1 ≤ sub ∧ sub ≤ 8 then
    let c := sub - 1
    decide (114688 < s.reservedSum (ob (0x2510 + f) sub) v ∨
      (c = 7 ∧ (f ≤ 3 ∨ f = 16 ∨ f = 17) ∧ v < reservedDefault f 7)) ||
    decide (s.get (ob (0x2510 + f) (sub + 8)) < v)
  else if 9 ≤ sub ∧ sub ≤ 16 then
    decide (v < s.get (ob (0x2510 + f) (sub - 8)) ∨ (!classReaches f (sub - 9) ∧ v ≠ 0))
  else if 0x15 ≤ sub ∧ sub ≤ 0x18 then decide (v ≠ 16)
  else if sub = 0x19 then decide (f < 4 ∧ v ≤ s.get (ob (0x2510 + f) 0x1A))
  else if sub = 0x1A then decide (s.get (ob (0x2510 + f) 0x19) ≤ v)
  else false

/-- Trunks, fabric and scheduling (R86, R132, R138, R139, R142, R147, R152, R174). -/
def State.fabricWriteBad (s : State) (p : Path) (i sub v : Nat) : Bool :=
  if 0x2100 ≤ i ∧ i < 0x2500 then decide (i % 0x100 = 0 ∧ sub = 2 ∧ v % 2 = 1)
  else if i = 0x2502 then decide (sub = 6 ∧ v = 0) && s.hostMode 2
  else if 0x2510 ≤ i ∧ i < 0x2524 then s.limitBad (i - 0x2510) sub v
  else if 0x2551 ≤ i ∧ i < 0x2560 then decide (v ≠ 0 ∧ (v < 16 ∨ 4095 < v))
  else if 0x2610 ≤ i ∧ i < 0x2614 then decide (sub ≤ 0x40) && !entryOk v
  else if 0x2700 ≤ i ∧ i < 0x2710 then
    (decide (sub = 2 ∨ sub = 6 ∨ sub = 0x0A) && decide (s.get (ob i (sub + 1)) ≤ v)) ||
    (decide (sub = 3 ∨ sub = 7 ∨ sub = 0x0B) && decide (v ≤ s.get (ob i (sub - 1))))
  else if i = heldIndex p.held 0x2710 then decide (v = 0 ∨ (4 < v ∧ v < 16) ∨ 4095 < v)
  else if 0x11000 ≤ i ∧ i < 0x12000 then
    let c := s.get (tunKey (i - 0x11000) 3)
    decide (sub = 2 ∧ s.get (ob i 3) < v) || decide (sub = 3 ∧ v < s.get (ob i 2)) ||
    decide (sub = 2 ∧ v ≠ 0 ∧ (c = 0 ∨ 4 ≤ c))
  else false

/-- The CAN timing of a rate in kb/s and a sample point cannot be met exactly from 80 MHz (R315). -/
def canTimingBad (rate point : Nat) : Bool :=
  decide (rate = 0 ∨ 80000 % rate ≠ 0 ∨ 80000 / rate * point % 1000 ≠ 0)

/-- Ethernet, storage and field ports (R261, R311-R313, R315-R317, R334-R337). -/
def State.fieldWriteBad (s : State) (i sub v : Nat) : Bool :=
  if 0x2C02 ≤ i ∧ i < 0x2C08 then decide (sub = 2 ∧ v = 0)
  else if i = 0x2D00 then decide (sub = 1 ∧ s.part.dramBytes ≤ v)
  else if i = 0x2D01 ∨ i = 0x2D02 then decide (sub = 0x0C) && decide (v % 2 ^ s.get (ob i 0x0D) ≠ 0)
  else if 0x2D40 ≤ i ∧ i < 0x2D80 then
    (decide (sub = 1 ∧ v = 1) && s.windowBad (i - 0x2D40)) || (decide (sub = 2 ∧ v = 13) && !s.part.qh34)
  else if i = 0x2E01 ∨ i = 0x2E02 then
    (decide (sub = 1 ∧ v = 1) &&
      (canTimingBad (s.get (ob i 2)) (s.get (ob i 3)) ||
        (decide (s.get (ob i 4) ≠ 0) && canTimingBad (s.get (ob i 4)) (s.get (ob i 5))))) ||
    decide (sub = 4 ∧ v ≠ 0 ∧ (v < 1000 ∨ 5000 < v))
  else if i = 0x2E05 then decide (field v 62 2 ≠ 0) && s.reservedId (v.testBit 61) (field v 0 29)
  else if 0x2E08 ≤ i ∧ i < 0x2E0C then decide (sub = 3 ∧ field v 1 2 = 3)
  else if 0x2E40 ≤ i ∧ i < 0x2E80 then decide (sub = 1) && !v.testBit 31 && s.reservedId (v.testBit 30) (field v 0 29)
  else if 0x2E80 ≤ i ∧ i < 0x2E90 then
    decide (sub = 0x0A ∧ v < s.get (ob i 9)) ||
    (decide (sub = 0x0B) && ((leBytes 32 v).takeWhile fun b => decide (b ≠ 0)).any fun b => decide (7 < b.toNat))
  else if 0x5000 ≤ i ∧ i < 0x5400 then
    (decide (sub = 1 ∧ v = 1) && s.mapBad (i - 0x5000)) ||
    decide (sub = 0x0A ∧ sget 32 (s.get (ob i 0x0B)) < sget 32 v) ||
    decide (sub = 0x0B ∧ sget 32 v < sget 32 (s.get (ob i 0x0A)))
  else false

/-- The order of a breaker's curve with one of its values changed (R368). -/
def State.curveBad (s : State) (c sub v : Nat) : Bool :=
  let g := fun (k : Nat) => if k = sub then v else s.get (brCfg c k)
  let level := fun (k : Nat) => if k = 0 then 1000 else g (0x0E + k)
  (upTo 7).any fun k => decide (level (k + 1) ≤ level k ∨ g (0x16 + k) < g (0x16 + k + 1))

/-- Power entry and breakers (R382, R383). -/
def State.powerWriteBad (s : State) (i sub v : Nat) : Bool :=
  if i = 0x4100 then decide (sub = 5 ∧ s.get (ob i 4) < v + 200)
  else if 0x4110 ≤ i ∧ i < 0x411A then
    let c := i - 0x4110
    (decide (sub = 1) && decide (if c < 8 then 2000 < v else if c = 8 then 3000 < v else v < 500)) ||
    decide (sub = 0x0A ∧ s.get (ob i 9) < v + 10) ||
    (decide (0x0F ≤ sub) && s.curveBad c sub v)
  else false

/-- The lowest action of a tamper source (R351). -/
def tamperLowest (sub : Nat) : Nat := if sub ≤ 5 then 0 else if sub ≤ 8 then 1 else 2

/-- Security, safety, ageing and the application core (R351, R359, R360, R388, R394, R403, R428, R433). -/
def State.systemWriteBad (s : State) (i sub v : Nat) : Bool :=
  if 0x12000 ≤ i ∧ i < 0x13000 then
    decide (sub = 5 ∧ 126 < v ∧ v ≠ 0xFF) || decide (sub = 0x0D ∧ v ≠ 0 ∧ i < slotIndex 112)
  else if i = 0x4008 then decide (1 ≤ sub ∧ sub ≤ 9 ∧ v < tamperLowest sub)
  else if i = 0x4300 then decide (sub = 1 ∧ 3000 < v + s.get (ob 0x4500 6))
  else if i = 0x4410 then decide (sub ≤ 0x20 ∧ v ≠ 0 ∧ (v < 16 ∨ 4095 < v))
  else if i = 0x4500 then
    decide (sub = 5 ∧ s.part.dramBytes ≤ v ∧ v ≠ 0) || decide (sub = 6 ∧ 3000 < v + s.get (ob 0x4300 1)) ||
    decide (sub = 7 ∧ v ≠ 0 ∧ v < 10)
  else false

/-- An object that may be mapped into a PDO: Value and Quality of a map entry (R43, R337), with its length in bits; 0 for
none. -/
def mappable (i sub : Nat) : Nat := if 0x5000 ≤ i ∧ i < 0x5400 then if sub = 0x16 then 64 else if sub = 0x17 then 8 else 0 else 0

/-- PDO mappings and profiles (R43, R53). -/
def State.openWriteBad (s : State) (i sub v : Nat) : Bool :=
  if (0x1600 ≤ i ∧ i < 0x1604) ∨ (0x1A00 ≤ i ∧ i < 0x1A04) then
    decide (1 ≤ sub ∧ v ≠ 0 ∧ (mappable (field v 16 16) (field v 8 8) = 0 ∨ mappable (field v 16 16) (field v 8 8) ≠ v % 256)) ||
    decide (sub = 0 ∧ 64 < ((upTo v).map fun k => s.get (ob i (k + 1)) % 256).foldl (· + ·) 0)
  else if (0x1400 ≤ i ∧ i < 0x1404) ∨ (0x1800 ≤ i ∧ i < 0x1804) then decide (sub = 2 ∧ 240 < v ∧ v < 254)
  else if i = 0x1F90 then decide (v = 1 ∧ (sub = 6 ∨ 10 ≤ sub))
  else false

/-- The kinds that a plain write adds for its value and for the state of what it writes (R37). -/
def State.plainKinds (s : State) (p : Path) (i sub v : Nat) : List Nat :=
  kindIf (s.fabricWriteBad p i sub v || s.fieldWriteBad i sub v || s.powerWriteBad i sub v || s.systemWriteBad i sub v ||
    s.openWriteBad i sub v) 7 ++
  s.displayKinds i sub v ++ (if 0x2B00 = i then s.pdKinds sub v else []) ++
  (if 0x4200 = i then s.marginKinds sub v else []) ++
  kindIf (decide (0x2A60 ≤ i ∧ i < 0x2A70) && (decide (sub = 2 ∧ v = 13) && !s.part.qh34 ||
    decide (sub = 1 ∧ v = 1) && (s.isRoot (s.get (ob i 2) - 12) || !s.domainOn 11))) 7 ++
  kindIf (decide (0x12000 ≤ i ∧ i < 0x13000 ∧ 3 ≤ sub ∧ sub ≤ 0x0D) && decide (s.get (ob i 2) = 1)) 6 ++
  kindIf (decide (i = 0x4008 ∧ 1 ≤ sub ∧ sub ≤ 9 ∧ v < s.get (ob i sub) ∧ s.secu.life = 2)) 6

end Sys2Proof.Machine
end

