-- ==== Sys2Proof/Machine/AccessRead.lean ====
section
/-!
DEFINITION. A read of any object on any path (R27, R30, R37-R40): what is computed at the read, what is measured, and what
a rule broken gives.
-/

set_option Elab.async false

namespace Sys2Proof.Machine

open Sys2Proof

/-- The domain whose status and counters an object shows, if a switchable one (R20, R21): they read zero while it is off. -/
def domainOfObject (i sub : Nat) : Option Nat :=
  if 0x2101 ≤ i ∧ i < 0x2500 ∧ i % 0x100 ≠ 0 ∧ i % 0x100 ≠ 0x20 then some (i / 0x100 - 0x21 + 4)
  else if (0x2804 ≤ i ∧ i < 0x2808) ∨ i = 0x2810 ∨ (0x2840 ≤ i ∧ i < 0x2864) ∨ (0x2910 ≤ i ∧ i < 0x2920) then some 8
  else if i = 0x4230 then some 9
  else if (0x2C00 ≤ i ∧ i < 0x2C14) then some 10
  else if i = 0x2D00 ∨ i = 0x2D03 ∨ i = 0x2D04 ∨ (0x2D40 ≤ i ∧ i < 0x2D80) then some 11
  else if i = 0x2A01 ∨ (0x2A08 ≤ i ∧ i < 0x2A10) ∨ i = 0x2A21 ∨ (0x2A30 ≤ i ∧ i < 0x2A70) then some 12
  else if i = 0x2E04 ∨ (0x2E90 ≤ i ∧ i < 0x2EA0) ∨ (0x5000 ≤ i ∧ i < 0x5400 ∧ 0x16 ≤ sub) then some 13
  else none

/-- The object is the status or a counter of a domain that is off (R21, R40). -/
def State.dark (s : State) (i sub : Nat) (r : ObjRow) : Bool :=
  decide (r.acc = .ro ∨ (0x5000 ≤ i ∧ i < 0x5400 ∧ 0x16 ≤ sub)) && decide (sub < 0xF0) &&
  match domainOfObject i sub with
  | some d => s.domainOff d
  | none => false

/-- Objects of the session that the access carries (R34). -/
def State.sessionValue (s : State) (p : Path) (sub : Nat) : Nat :=
  let x := s.session p
  if sub = 1 then x.request
  else if sub = 2 then x.cred
  else if sub = 3 then s.shownChallenge p
  else if sub = 5 then x.rights
  else if sub = 6 then x.id
  else if sub = 7 then x.start
  else if sub = 8 then if x.used then (s.clock - x.lastAccess) / 1000000 % 2 ^ 32 else 0
  else 8

/-- What AllotmentWindow shows of tunnel `n`'s shaper, on the trunk or the lower trunk of the pair that its TrunkPort names;
on T0 for tunnels 1-4 (R174, log entry 207). -/
def State.allotValue (s : State) (n sub : Nat) : Nat :=
  let x := (s.sched ((s.trunksOf n).headD 0)).shaper n
  if sub = 7 then x.share
  else if sub = 8 then x.demand
  else if sub = 9 then sputSat 32 x.credit
  else if sub = 0x0A then x.rise
  else if sub = 0x0B then s.minCells n
  else if sub = 0x0C then s.maxCells n
  else s.get (ob (allotIndex n) sub)

/-- What an event or a source's route shows (R405). -/
def State.routeValue (s : State) (src sub : Nat) : Nat :=
  if sub = 5 then ofBool (s.srcPending src)
  else if sub = 6 then ofBool (s.irq.isActive src)
  else s.get (ob (irqIndex src) sub)

/-- The orphan selected on a path (R457). -/
def State.orphanAt (s : State) (p : Path) : Option Orphan := (s.boot.orphans.drop (s.get (ob (heldIndex p.held 0x6002) 2))).head?

/-- An orphan's header (R451). -/
def Orphan.header (o : Orphan) : Bytes :=
  u32 o.schema ++ u16 (plainIndex (o.key / 256)) ++ u8 (o.key % 256) ++ u8 o.type ++ u16 o.value.length ++ u8 o.cause ++ u8 0 ++
    u32 o.image

/-- FirmwareStatus (R455). -/
def State.firmwareValue (s : State) (sub : Nat) : Nat :=
  let b := s.boot
  if sub = 1 then b.lastSlot
  else if sub = 2 then b.version
  else if sub = 3 then b.secVersion
  else if 4 ≤ sub ∧ sub ≤ 9 then
    let r := (sub - 4) / 3
    if (sub - 4) % 3 = 0 then s.slotState r
    else if s.slotState r = 0 then 0
    else if (sub - 4) % 3 = 1 then imgVersion (s.regionHeader r) else imgSecurity (s.regionHeader r)
  else if sub = 0x0A then b.preferred
  else if sub = 0x0B then b.trial
  else if sub = 0x0C then b.failed
  else if sub = 0x0D then b.failCause
  else if sub = 0x0E then b.rollback
  else if sub = 0x0F then s.slotState 2
  else if sub = 0x10 then if s.slotState 2 = 0 then 0 else imgVersion (s.regionHeader 2)
  else if sub = 0x11 then b.appFloor
  else if sub = 0x12 then b.schema
  else if sub = 0x13 then s.power.kind
  else if sub = 0x15 then b.liftCause
  else s.get (ob 0x6000 sub)

/-- RootState (R341, R352, R358). -/
def State.rootState (s : State) : Nat :=
  if s.secu.life = 0 then 0 else if s.secu.life = 3 then 3 else if s.secu.blocked then 2 else 1

/-- TamperStatus (R360). -/
def State.tamperValue (s : State) (sub : Nat) : Nat :=
  if sub = 1 then s.secu.latched
  else if sub = 2 then s.secu.active
  else if sub = 3 then ofBool s.secu.lock
  else if sub = 4 then s.secu.events
  else if sub = 5 then s.secu.lastTime
  else if sub = 6 then s.secu.lastSource
  else if sub = 7 then ofBool s.secu.cold
  else 7

/-- Objects that the hub measures when they are read: feeds, breakers, rails, VBUS, eyes and a scrub's place (R87, R88,
R259, R382-R385, R437). -/
def measuredObject (i sub : Nat) : Bool :=
  decide (0x2100 ≤ i ∧ i < 0x2500 ∧ i % 0x100 = 0x21 ∧ 1 ≤ sub) || decide (i = 0x4101 ∧ 3 ≤ sub ∧ sub ≤ 7) ||
  decide (0x4120 ≤ i ∧ i < 0x412A ∧ 2 ≤ sub ∧ sub ≤ 5) || decide (i = 0x4130 ∧ 1 ≤ sub ∧ sub ≤ 7) ||
  decide (i = 0x2B01 ∧ sub = 0x0B) || decide (0x4310 ≤ i ∧ i < 0x431B ∧ sub = 3)

/-- The milliseconds left of a breaker's retry delay (R372). -/
def State.retryLeft (s : State) (c : Nat) : Nat :=
  match timerStart (.retry c) s.timers with
  | some from_ => (from_ + msec (Sparse.get 0 s.power.delays c) - s.clock) / 1000000
  | none => 0

/-- The value of an object of fixed size as the path reads it. -/
def State.valueOf (s : State) (p : Path) (i sub : Nat) (r : ObjRow) : Nat :=
  let j := s.placed p i sub
  if 0x2100 ≤ i ∧ i < 0x2500 ∧ i % 0x100 = 2 ∧ sub = 0 ∧ 1 ≤ s.train (i / 0x100 - 0x21) ∧ s.train (i / 0x100 - 0x21) ≤ 7 then
    leNat (s.capNow (i / 0x100 - 0x21))
  else if 0xF0 ≤ sub ∨ sub = 0 then s.get (ob i sub)
  else if measuredObject i sub then
    if 0x2100 ≤ i ∧ i < 0x2500 ∧ ([6, 7, 8].contains (s.train (i / 0x100 - 0x21)) = false) then 0
    else if 0x4310 ≤ i ∧ i < 0x431B then Config.measured (ob i sub) s.clock % 10001
    else Config.measured (ob i sub) s.clock % 2 ^ (8 * r.size)
  else if i = 0x1100 then s.sessionValue p sub
  else if 0x2618 ≤ i ∧ i < 0x261C ∧ sub ≤ 2 then
    tableVersion (s.table ((if sub = 1 then 0x2614 else 0x2610) + (i - 0x2618)))
  else if 0x11000 ≤ j ∧ j < 0x12000 then s.allotValue (j - 0x11000) sub
  else if 0x12000 ≤ j ∧ j < 0x13000 ∧ sub = 0x10 then
    ((upTo 128).filter fun k => s.slotValid k && decide (s.get (slotKey k 5) = j - 0x12000)).length
  else if 0x10000 ≤ j ∧ j < 0x11000 then s.routeValue (j - 0x10000) sub
  else if i = 0x2502 ∧ sub = 6 ∧ s.hostMode 2 then 1
  else if i = 0x2810 ∧ sub = 1 then fetchSum s.get
  else if i = 0x2810 ∧ sub = 3 then s.get (ob 0x2D00 3)
  else if i = 0x2810 ∧ sub = 6 then s.get (ob i 5) - s.get (ob i 4) - s.get (ob i 2) - s.get (ob 0x2D00 3)
  else if 0x2910 ≤ i ∧ i < 0x2920 ∧ sub = 3 then layerFetch s.get (i - 0x2910)
  else if (i = 0x2D03 ∨ i = 0x2D04) ∧ sub = 0x0D then (s.activeNs (i - 0x2D03)).length
  else if 0x2D40 ≤ i ∧ i < 0x2D80 ∧ sub = 0x0A then s.winState (i - 0x2D40)
  else if 0x2C10 ≤ i ∧ i < 0x2C14 ∧ sub = 7 then s.proxyNodes (i - 0x2C10)
  else if i = 0x2F01 ∧ sub = 2 then s.station
  else if i = 0x2F10 ∧ sub ≤ 4 then
    if sub = 1 then s.jour.written else if sub = 2 then s.newestIndex else if sub = 3 then s.oldestIndex else s.jour.seq
  else if i = 0x2F11 ∧ sub = 1 then s.readIndex p
  else if i = 0x4000 ∧ sub = 1 then s.secu.life
  else if i = 0x4000 ∧ sub = 2 then s.rootState
  else if i = 0x4000 ∧ sub = 5 then s.secu.custHash
  else if i = 0x4000 ∧ sub = 0x0A then s.validSlots.length
  else if i = 0x4009 then s.tamperValue sub
  else if 0x4120 ≤ i ∧ i < 0x412A ∧ sub = 6 then if s.get (ob (i - 0x10) 5) = 0 then 0 else max 1 (s.get (ob i 6))
  else if 0x4120 ≤ i ∧ i < 0x412A ∧ sub = 8 then s.retryLeft (i - 0x4120)
  else if 0x4310 ≤ i ∧ i < 0x431B ∧ sub = 2 then s.taskState (i - 0x4310)
  else if i = 0x6000 then s.firmwareValue sub
  else if i = 0x6002 ∧ sub = 1 then s.boot.orphans.length
  else s.get (ob j sub)

/-- The text "QH7-34" or "QH7-18" (R32). -/
def partName (p : Part) : Bytes := [0x51, 0x48, 0x37, 0x2D] ++ (if p.qh34 then [0x33, 0x34] else [0x31, 0x38])

/-- What a permitted read of an object answers, and the state after it (R27). -/
def State.readObject (s : State) (p : Path) (i sub : Nat) (r : ObjRow) : Bytes × State :=
  if s.dark i sub r then (zeros r.size, s)
  else if s.oldProfile i then (leBytes r.size (Config.qh5Value i sub (s.valueOf p i sub r)), s)
  else if i = 0x2F11 ∧ sub = 2 then s.takeEntry p
  else if 0x2F18 ≤ i ∧ i < 0x2F1C ∧ sub = 6 then s.takeRemote p (i - 0x2F18)
  else if i = 0x4010 ∧ sub = 2 then (fitBytes r.size (s.str (ob (heldIndex p.held i) 2)), s)
  else if i = 0x6002 ∧ sub = 3 then ((s.orphanAt p).elim (zeros 16) Orphan.header, s)
  else if i = 0x6002 ∧ sub = 4 then (fitBytes r.size ((s.orphanAt p).elim [] fun o => o.value), s)
  else if i = 0x1008 then (partName s.part, s)
  else if i = 0x1009 then ((Config.versionText 0 s.part.revision).take 8, s)
  else if i = 0x100A then ((Config.versionText 1 s.boot.version).take 32, s)
  else if r.type = 9 then (s.str (ob i sub), s)
  else (leBytes r.size (s.valueOf p i sub r), s)

/-- A read that reaches the engine (R37-R41): the value, or the data of R38 with the violation counted. In Reset, Boot and
Lift no path reaches the dictionary. -/
def State.readNow (s : State) (p : Path) (i sub : Nat) : Bytes × State :=
  let s := s.settleSession p
  match rowAt i sub with
  | none => (zeros 4, (s.touch p).violate p i sub 1)
  | some r =>
    match s.judgeRead p i sub with
    | some 1 => (zeros 4, (s.touch p).violate p i sub 1)
    | some k => (zeros r.size, (s.touch p).violate p i sub k)
    | none =>
      let (b, s) := s.readObject p i sub r
      (b, s.touch p)

end Sys2Proof.Machine
end

