-- ==== Sys2Proof/Machine/App.lean ====
section
/-!
DEFINITION. The commands of pair B, its local bus and the interrupt controller (R387-R407).
-/

set_option Elab.async false

namespace Sys2Proof.Machine

open Sys2Proof

/-- AppConfig's commands (R403). -/
def appCmds : List Nat := [1, 2, 3]

/-- AppEnable takes its value (R387). -/
def State.appEnable (s : State) (p : Path) (value : Nat) : State :=
  let s := s.set (ob 0x4500 1) value
  if value = 1 then if s.appState = 0 then s.appLoad 2 else s
  else if s.appState = 0 then s
  else s.appAsk p 3

/-- R387. A write to AppEnable starts Loading, or takes pair B Off; Custodian rights. -/
def execAppEnableWrite (path : Path) (value : Nat) (s : State) : Ans :=
  onPath path true s (s.writeNum path 0x4500 1 value [] fun s => s.appEnable path value)

/-- R387, R442. Pair B's image is verified: Running or Refused. -/
def execAppLoadComplete (s : State) : Ans := .next (if s.appState = 1 ∧ s.reach then s.appLoaded else s)

/-- R387. AppConfig command 1: a Halted pair B runs on. -/
def execAppStart (path : Path) (s : State) : Ans :=
  onPath path true s
    (s.commandNow path 0x4500 1 anyState appCmds (kindIf (decide (s.appState ≠ 3)) 6) 0 fun s => s.appWatch.appGo 2 1)

/-- R387. AppConfig command 2: pair B halts, after a gateway request already complete at the engine. -/
def execAppHalt (path : Path) (s : State) : Ans :=
  onPath path true s (s.command path 0x4500 2 anyState appCmds (kindIf (decide (s.appState ≠ 2)) 6) fun s => s.appAsk path 1)

/-- R387. AppConfig command 3: pair B is loaded anew. -/
def execAppRestart (path : Path) (s : State) : Ans :=
  onPath path true s (s.command path 0x4500 3 anyState appCmds (kindIf (decide (s.appState < 2)) 6) fun s => s.appAsk path 2)

/-- R403. AppStatus command 1 clears 0x05–0x0C. -/
def execAppClearCounters (path : Path) (s : State) : Ans :=
  onPath path true s
    (s.commandNow path 0x4501 1 anyState [1] [] 0 fun s => s.clear ((upTo 8).map fun k => ob 0x4501 (5 + k)))

/-- R388. An access outside pair B's map, or an unaligned one, reads zero and is counted. -/
def execBusUnmappedAccess (addr : Nat) (s : State) : Ans :=
  .next
    (if s.appRuns then
      let s := (s.count (ob 0x4501 5) 1).set (ob 0x4501 6) (addr % 2 ^ 32)
      (s.evRate 0x1220 0 2 17 (sec 1) (u32 addr) [1] []).send (.busRead addr 0)
     else s)

/-- A GW_GO (R390): 1 read, 2 write. -/
def State.gwGo (s : State) (op address length : Nat) (data : Bytes) : State :=
  if !s.appRuns then s
  else if s.app.gwOp ≠ 0 then (s.updApp fun x => { x with gwOverrun := true }).count (ob 0x4501 8) 1
  else
    let s := s.updApp fun x =>
      { x with gwAddress := address % 2 ^ 24, gwLength := length, gwData := if op = 2 then fitBytes 4096 data else x.gwData }
    if 4096 < length then
      (s.updApp fun x => { x with gwLength := 0, gwDone := true, gwOverrun := true }).raise 3
    else
      (s.updApp fun x => { x with gwOp := op, gwDone := false, gwOverrun := false }).count (ob 0x4501 7) 1

/-- R390. GW_GO 1 submits a read. -/
def execGwGoRead (address length : Nat) (s : State) : Ans := .next (s.gwGo 1 address length [])

/-- R390. GW_GO 2 submits a write. -/
def execGwGoWrite (address length : Nat) (data : Bytes) (s : State) : Ans := .next (s.gwGo 2 address length data)

/-- R391. JP_READ_INDEX is written, if an index is given, and a read of JP_ENTRY's last word advances it. -/
def execJpEntryRead (index : Option Nat) (s : State) : Ans :=
  .next
    (if s.appRuns then
      let i := (index.getD (s.app.jpIndex.getD s.oldestIndex)) % 2 ^ 32
      match s.placeOf i with
      | some k => (s.updApp fun x => { x with jpIndex := some ((i + 1) % 2 ^ 32) }).send (.busRead 0x40020020 (leNat (s.entryBytes k)))
      | none => (s.updApp fun x => { x with jpIndex := some i }).send (.busRead 0x40020020 0)
     else s)

/-- R391. JP_WRITE commits an entry of pair B's own, or drops it beyond AppJournalLimit in one second. -/
def execJpWrite (code sev : Nat) (args : Bytes) (s : State) : Ans :=
  .next
    (if s.appRuns then
      let s := if s.app.jpSince + sec 1 ≤ s.clock ∨ s.app.jpCount = 0
        then s.updApp fun x => { x with jpSince := s.clock, jpCount := 0 } else s
      if s.get (ob 0x4500 8) ≤ s.app.jpCount then
        (s.count (ob 0x4501 0x0A) 1).evRate 0x1221 0 2 10 (Sys2Proof.Machine.sec 1) [] [1] []
      else
        let s := (s.updApp fun x => { x with jpCount := x.jpCount + 1 }).count (ob 0x4501 9) 1
        s.ev (0x1F00 + code % 256) 2 (sev % 4) 0 (fitBytes 16 args)
     else s)

/-- R392. DB_SET: pair B sets a doorbell towards pair A, 448 to 511. -/
def execDbSet (bell : Nat) (s : State) : Ans :=
  .next
    (if s.appRuns ∧ 448 ≤ bell ∧ bell < 512 then { s with irq := { s.irq with bells := setBit s.irq.bells bell } } else s)

/-- R392. DB_CLEAR: pair B clears a doorbell of its own, 384 to 447. -/
def execDbClear (bell : Nat) (s : State) : Ans :=
  .next
    (if s.appRuns ∧ 384 ≤ bell ∧ bell < 448 then { s with irq := { s.irq with bells := clrBit s.irq.bells bell } } else s)

/-- R404. A write to Ring sets a doorbell towards pair B. -/
def execDoorbellRing (path : Path) (bell : Nat) (s : State) : Ans :=
  onPath path true s
    (s.writeNum path 0x4502 6 bell [] fun s => { s with irq := { s.irq with bells := setBit s.irq.bells bell } })

/-- R392, R404. AppMailbox command 1 posts HostToApp; the post runs until pair B takes it. -/
def execAppMailboxPost (path : Path) (s : State) : Ans :=
  onPath path true s
    (s.command path 0x4502 1 anyState [1] [] fun s =>
      let msg := leBytes (min 256 (s.get (ob 0x4502 2))) (s.get (ob 0x4502 1))
      (s.updApp fun x => { x with hostMsg := msg, posted := true }).raise 11)

/-- R392. Pair B takes the posted message: the post's commit point. -/
def execHostMsgTake (s : State) : Ans :=
  .next
    (if s.appRuns ∧ s.app.posted then
      (s.updApp fun x => { x with hostMsg := [], posted := false }).cmdCommit 0x4502 0
     else s)

/-- R392. APP_MSG_SEND copies the reply into AppToHost. -/
def execAppMsgSend (msg : Bytes) (s : State) : Ans :=
  .next
    (if s.appRuns then
      let m := msg.take 256
      ((s.setAll [(ob 0x4502 3, leNat m), (ob 0x4502 4, m.length)]).countWrap (ob 0x4502 5) 1).raise 12
     else s)

/-- R393. Pair B writes a descriptor: owner 0 hands the buffer to USB unless USB holds it already, and a halt request
halts the direction. -/
def execEndpointDescriptorWrite (e : Nat) (isIn : Bool) (buf owner : Nat) (halt : Bool) (data : Bytes) (s : State) : Ans :=
  onUnit (decide (e < 16))
    (if s.appRuns ∧ 2 ≤ e ∧ buf < 2 ∧ s.epOn e isIn then
      let x := s.svcBuf e isIn buf
      let s :=
        if owner ≠ 0 ∨ x.full = isIn then s
        else s.setSvcBuf e isIn buf (if isIn then { full := true, data := data.take 2047 } else {})
      if halt then s.svcHalt e isIn true else s
     else s)

/-- R394. A read of STIME_LO latches the station time. -/
def execStimeLatchRead (s : State) : Ans :=
  .next
    (if s.appRuns then (s.updApp fun x => { x with stime := s.station }).send (.stime (s.station % 2 ^ 32)) else s)

/-- A timer of pair B (R394). -/
def State.appTimer (s : State) (k : Nat) : AppTimer := Sparse.get {} s.app.timers k

/-- A timer of pair B changed. -/
def State.setAppTimer (s : State) (k : Nat) (x : AppTimer) : State :=
  s.updApp fun y => { y with timers := Sparse.put {} k x y.timers }

/-- R394. TMR_CTRL, TMR_PERIOD and TMR_CMP are written, TMR_CMP_HI last, which arms the timer; a period outside its range
is not taken. -/
def execTmrArm (k due period : Nat) (periodic : Bool) (s : State) : Ans :=
  onUnit (decide (k < 4))
    (if s.appRuns then
      let x := s.appTimer k
      let p := if 10000 ≤ period ∧ period < 2 ^ 32 then period else x.period
      s.setAppTimer k { x with due := due % 2 ^ 64, period := p, enable := true, periodic }
     else s)

/-- R394. A timer reaches its due time. -/
def execTimerExpiry (k : Nat) (s : State) : Ans :=
  onUnit (decide (k < 4))
    (let x := s.appTimer k
     if x.enable ∧ x.due ≤ s.station then
      let x := if s.srcPending (13 + k) then { x with overruns := cnt 32 x.overruns 1 } else x
      let s := s.raise (13 + k)
      let due := x.due + x.period
      if !x.periodic then s.setAppTimer k { x with enable := false }
      else if due ≤ s.station then
        let late := (s.station - due) / max 1 x.period + 1
        s.setAppTimer k { x with due := due + x.period * late, slips := cnt 32 x.slips 1 }
      else s.setAppTimer k { x with due }
     else s)

/-- R394. WDOG_KICK with its key restarts the watchdog. -/
def execWdogKick (value : Nat) (s : State) : Ans := .next (if s.appRuns ∧ value = 0xA55A then s.appWatch else s)

/-- R394. The watchdog runs out; it restarts, and pair B is not stopped. -/
def execWatchdogExpiry (s : State) : Ans :=
  .next
    (let w := s.get (ob 0x4500 7)
     if s.appRuns ∧ w ≠ 0 ∧ s.due .appWdog (msec w) then
      let s := (s.count (ob 0x4501 0x0B) 1).start .appWdog
      s.ev 0x1210 0 3 2 (u16 w ++ u32 (s.get (ob 0x4501 0x0B)))
     else s)

/-- R397. A read of N_CLAIM, under the enable bits the pair has written. -/
def execNClaim (pair enable : Nat) (s : State) : Ans :=
  onUnit (decide (pair < 2)) (if s.pairRuns pair then (s.setEnable pair enable).claim pair 0 else s)

/-- R397. A write of N_COMPLETE. -/
def execNComplete (pair source : Nat) (s : State) : Ans :=
  onUnit (decide (pair < 2)) (if s.pairRuns pair then s.endSource pair 0 source else s)

/-- R397. A read of F_CLAIM. -/
def execFClaim (pair enable : Nat) (s : State) : Ans :=
  onUnit (decide (pair < 2)) (if s.pairRuns pair then (s.setEnable pair enable).claim pair 1 else s)

/-- R397. A write of F_COMPLETE. -/
def execFComplete (pair source : Nat) (s : State) : Ans :=
  onUnit (decide (pair < 2)) (if s.pairRuns pair then s.endSource pair 1 source else s)

/-- R399. A normal entry, under the enable bits and IRQ_CTRL that the pair has written; `resumed`: it had begun before a
fast delivery. -/
def execNormalInterruptEntry (pair enable ctrl : Nat) (resumed : Bool) (s : State) : Ans :=
  onUnit (decide (pair < 2))
    (if s.pairRuns pair then ((s.setEnable pair enable).setCtrl pair ctrl).deliver pair 0 resumed else s)

/-- R399. A fast entry, which preempts the normal class. -/
def execFastInterruptEntry (pair enable ctrl : Nat) (s : State) : Ans :=
  onUnit (decide (pair < 2))
    (if s.pairRuns pair then ((s.setEnable pair enable).setCtrl pair ctrl).deliver pair 1 false else s)

/-- R400. In Setup with ClockStopEnable and nothing to deliver to either pair, CI2 stops. -/
def execCi2ClockStop (s : State) : Ans :=
  .next
    (if s.dev = devSetup ∧ s.get (ob 0x4500 9) = 1 ∧ !s.delivers 0 0 ∧ !s.delivers 0 1 ∧ !s.delivers 1 0 ∧ !s.delivers 1 1
     then { s with irq := { s.irq with stopped := true } } else s)

/-- R400. An asynchronous latch of an enabled source, or a dictionary request, restarts CI2. -/
def execCi2ClockRestart (request : Bool) (s : State) : Ans :=
  .next
    (let woken := (upTo 384).any fun k => s.irq.async.testBit k && (s.enabled 0 k || s.enabled 1 k)
     if s.irq.stopped ∧ (request ∨ woken) then s.ciWake else s)

end Sys2Proof.Machine
end

