-- ==== Sys2Proof/Machine/Diag.lean ====
section
/-!
DEFINITION. The commands of the safety functions, ageing and background work (R408-R438).
-/

set_option Elab.async false

namespace Sys2Proof.Machine

open Sys2Proof

/-- R412. The cores of a pair differ; pair 0 is A, 1 is B. The pair keeps running, and the pair that did not fail is
told. -/
def execLockstepMismatch (pair cycle address : Nat) (s : State) : Ans :=
  onUnit (decide (pair < 2))
    (if s.dev = devReset ∨ (pair = 1 ∧ s.get (ob 0x4501 1) = 0) then s
     else
      let s := s.updSafety fun x => if pair = 0 then { x with lockA := true } else { x with lockB := true }
      let s := (s.count (ob 0x4400 (5 + pair)) 1).latchCommon pair
      s.danger 0xE001 (pair + 1) (320 + pair) (u16 (pair + 1) ++ u32 cycle ++ u64 address))

/-- R414. The shadow checker recomputes the next block; one being written is checked again after the write (R431). -/
def execShadowCheck (ok writing : Bool) (low high : Nat) (s : State) : Ans :=
  .next
    (if s.taskRuns 4 ∧ s.due .shadow 39000 then
      let b := s.safety.shadowNext
      let s := s.start .shadow
      if writing then s
      else
        let s := s.updSafety fun x => { x with shadowNext := (b + 1) % 256 }
        let s := if ok then s else
          ((s.count (ob 0x4400 8) 1).latchCommon 3).danger 0xE003 b 323 (u16 b ++ u16 low ++ u16 high)
        s.taskStep 4 0 (ofBool !ok) (decide (b = 255))
     else s)

/-- R416. A watched tunnel has been silent for SilenceCycles while Open. -/
def execTunnelSilent (n : Nat) (s : State) : Ans :=
  onUnit (decide (n < 4096))
    (let x := s.tun n
     if s.watched n ∧ s.tstate n = 3 ∧ s.get (ob 0x4410 0x21) ≤ x.quiet ∧ !x.silent then
      let s := (s.updTun n fun x => { x with silent := true }).count (ob 0x4410 0x22) 1
      (s.latchSf 1).danger 0xE020 n 325 (u16 n ++ u16 x.quiet)
     else s)

/-- The check of R418 as far as the state of the breaker or feed decides it. -/
def State.pathFault (s : State) (cause unit value : Nat) : Bool :=
  if cause = 1 then decide (s.breaker unit ≠ 1 ∧ s.breaker unit ≠ 2 ∧ 50 < value)
  else if cause = 2 then if s.breaker unit = 2 then decide (value < 9000) else decide (s.breaker unit ≠ 1 ∧ 1000 ≤ value)
  else if cause = 3 then decide (s.breaker unit = 0 ∧ 2 * s.get (brCfg unit 1) < 100 * value)
  else if cause = 4 then true
  else if cause = 5 then true
  else decide (cause = 6 ∧ s.feedState unit = 2)

/-- R418. A power-path check fails its consecutive count; the breaker keeps its state. -/
def execSf4PowerPathFault (cause unit value : Nat) (s : State) : Ans :=
  onPort s (fun q => decide (1 ≤ cause ∧ cause ≤ 6) && q.pathUnit cause unit)
    (if s.pathFault cause unit value then
      let args := u16 cause ++ u16 unit ++ u16 value
      if s.dev = devReset then s.pwrEv 0xE030 cause 4 326 args
      else
        s.sf4Fault cause args
     else s)

/-- R411. Pair A refreshes the pulse permission through the die-to-die link. -/
def execSafePulsePermission (s : State) : Ans :=
  .next
    (if s.dev = devReset ∨ !s.safety.link then s
     else ((s.updSafety fun x => { x with fresh := true, lockA := false }).start .permit).pulse)

/-- R411. The permission has not been refreshed for 10 ms. -/
def execSafePulsePermissionTimeout (s : State) : Ans :=
  .next
    (if s.due .permit (msec 10) then ((s.updSafety fun x => { x with fresh := false }).stop .permit).pulse else s)

/-- R433. SafetyStatus command 1 clears both latches; what is set again within 1 ms shows in Result (R431). -/
def execSafetyClearLatches (path : Path) (s : State) : Ans :=
  onPath path true s
    (s.command path 0x4400 1 anyState [1, 2] [] fun s =>
      let s := s.clear [ob 0x4400 2, ob 0x4400 3]
      let s := s.updSafety fun x => { x with lockB := false, clearedAt := some s.clock, again := 0 }
      (s.cmdCommit 0x4400 0).pulse)

/-- R433, R414. SafetyStatus command 2 rewrites and checks every shadow. -/
def execShadowReload (path : Path) (s : State) : Ans :=
  onPath path true s
    (s.commandNow path 0x4400 2 anyState [1, 2] [] 0 fun s => s)

/-- R420. The sentinels report margin and degradation. -/
def execSentinelReport (margins : List Int) (delays : List Nat) (s : State) : Ans :=
  .next
    (if s.reach ∧ s.due .sentinel (sec 10) ∧ margins.length = 32 ∧ delays.length = 32 then
      let s := ((s.start .sentinel).updSafety fun x => { x with delays }).baselineNow
      let base := s.safety.baseline
      let s := s.setAll ((upTo 32).map fun k => (ob 0x4210 (k + 1), sputSat 16 (margins.getD k 0)))
      let s := if base = [] then s else
        s.setAll ((upTo 32).map fun k => (ob 0x4211 (k + 1), s.degradation k (delays.getD k 0) (base.getD k 0)))
      match worst 0 margins with
      | some (k, m) => s.setAll [(mgStat 3, sputSat 16 m), (mgStat 4, k)]
      | none => s
     else s)

/-- R422. The planner computes the voltage, equaliser and DRAM guard settings and applies or proposes them. -/
def execPlanInstant (eyes : List Nat) (s : State) : Ans := .next (if s.reach ∧ s.planDue then s.plan eyes else s)

/-- R426. MarginStatus command 1 applies the pending proposal; Setup and Maintain only. -/
def execMarginApprove (path : Path) (s : State) : Ans :=
  onPath path true s (s.commandNow path 0x4201 1 [3, 5] [1, 2] [] 0 fun s => s.applyProposal)

/-- R434. MarginStatus command 2: a plan instant now; after a pair-A mismatch it waits for the permission (R431). -/
def execMarginPlanNow (path : Path) (eyes : List Nat) (s : State) : Ans :=
  onPath path true s (s.command path 0x4201 2 anyState [1, 2] [] fun s => if s.safety.lockA then s else s.plan eyes)

/-- R425. A write of MarginConfig; a narrowed envelope moves the value in force. -/
def execMarginEnvelopeWrite (path : Path) (item value : Nat) (s : State) : Ans :=
  onPath path true s (s.writeNum path 0x4200 item value (s.marginKinds item value) fun s => s.marginSet item value)

/-- R425. A loop that has been pinned for 24 h repeats EV_MARGIN_PINNED. -/
def execMarginPinnedRepeat (loop_ : Nat) (s : State) : Ans :=
  onUnit (decide (loop_ < 3))
    (if s.reach ∧ s.due (.pinned loop_) (sec 86400) then
      match s.safety.pins.find? fun e => decide (e.1 = loop_) with
      | some (_, bound, want) => (s.start (.pinned loop_)).ev 0xE061 loop_ 2 329 (u16 loop_ ++ u16 bound ++ u16 want)
      | none => s
     else s)

/-- Errors that a scrub finds in a memory (R413). -/
def State.scrubbed (s : State) (task mem corrected : Nat) (bad : Option Nat) (done : Bool) : State :=
  let s := if corrected = 0 then s else s.memCorrected mem corrected
  let s := match bad with
    | some a => s.memBad mem a
    | none => s
  s.taskStep task corrected (ofBool bad.isSome) done

/-- R427, R413. The DRAM patrol scrub; an uncorrectable word is left as it is. -/
def execDramPatrolScrub (corrected : Nat) (bad : Option Nat) (done : Bool) (s : State) : Ans :=
  .next (if s.taskRuns 0 then s.scrubbed 0 1 corrected bad done else s)

/-- R427, R413. The fabric-buffer scrub. -/
def execBufferPatrolScrub (corrected : Nat) (bad : Option Nat) (done : Bool) (s : State) : Ans :=
  .next (if s.taskRuns 1 then s.scrubbed 1 0 corrected bad done else s)

/-- R427, R413. The scrub of SRAM (2) and of the pairs' tightly coupled memories (3, 4). -/
def execSramScrub (mem corrected : Nat) (bad : Option Nat) (done : Bool) (s : State) : Ans :=
  onUnit (decide (2 ≤ mem ∧ mem ≤ 4)) (if s.taskRuns 2 then s.scrubbed 2 mem corrected bad done else s)

/-- What an uncorrectable MRAM word takes with it (R413): 1 a configuration copy, 2 a journal entry. -/
def State.mramLost (s : State) (what which : Nat) : State :=
  if what = 1 then
    let spoil (c : Option Copy) : Option Copy := c.map fun c => { c with good := false }
    s.updBoot fun x => if which = 0 then { x with copyA := spoil x.copyA } else { x with copyB := spoil x.copyB }
  else if what = 2 then
    match s.placeOf which with
    | some k => { s with jour := { s.jour with ring := s.jour.ring.modify k fun e => { e with bad := true } } }
    | none => s
  else s

/-- R427, R413. The MRAM scrub: what a bad word belongs to (1 a configuration copy, 2 a journal entry by index), which
one, and its address. -/
def execMramScrub (corrected : Nat) (bad : Option (Nat × Nat × Nat)) (done : Bool) (s : State) : Ans :=
  .next
    (if s.taskRuns 3 then
      let s := match bad with
        | some (what, which, _) => s.mramLost what which
        | none => s
      s.scrubbed 3 5 corrected (bad.map fun b => b.2.2) done
     else s)

/-- R427, R421. ZQ calibration (0), DQS tracking (1), which measures each channel's read eye, and refresh
adjustment (2). -/
def execDdrCalibration (kind : Nat) (widths : List Nat) (s : State) : Ans :=
  onUnit (decide (kind < 3))
    (if s.taskRuns 5 then
      let s := if kind = 1 then s.setAll ((upTo 4).map fun c => (dramKey (1 + c), widths.getD c 0 % 65536)) else s
      s.taskStep 5 1 0 (decide (kind = 0))
     else s)

/-- R427, R423. The auxiliary sampler sweeps a lane and finds its best setting. -/
def execSerdesSweep (t lane best : Nat) (s : State) : Ans :=
  onPort s (fun q => q.hasTrunk t && decide (lane < 5))
    (if s.taskRuns 6 ∧ s.trained t then
      let s := s.updSafety fun x => { x with best := Sparse.ins (5 * t + lane) (best % 32) x.best }
      s.taskStep 6 1 0 (decide (lane = 4 ∧ t + 1 = s.part.trunks))
     else s)

/-- R427. Temperature sensors and guard-die ADC references are calibrated. -/
def execSensorCalibration (s : State) : Ans := .next (if s.taskRuns 7 then s.taskStep 7 1 0 true else s)

/-- R427. A task's pass has taken more than twice its period. -/
def execBackgroundTaskBehind (task : Nat) (s : State) : Ans :=
  onUnit (decide (task < 11))
    (let p := s.taskPeriod task
     if s.taskRuns task ∧ p ≠ 0 ∧ s.due (.pass task) (2 * p) ∧ !s.safety.late.contains task then
      let ms := (s.clock - (timerStart (.pass task) s.timers).getD s.clock) / 1000000
      let s := (s.count (taskKey task 9) 1).updSafety fun x => { x with late := task :: x.late }
      s.ev 0xE070 task 2 (352 + task) (u16 task ++ u32 ms)
     else s)

/-- R428. TaskEnable; tasks 4 and 7 cannot be disabled. -/
def execBackgroundTaskEnableWrite (path : Path) (task value : Nat) (s : State) : Ans :=
  onPath path (decide (task < 11)) s
    (s.writeNum path (0x4310 + task) 1 value [] fun s => s.taskSwitch task value)

/-- R429. Log data for the journal archive (0) or the telemetry log (1); whether an erase and the program succeed. -/
def execNorLogWrite (log bytes : Nat) (erased programmed : Bool) (s : State) : Ans :=
  onUnit (decide (log < 2))
    (if !s.reach then s
     else if s.taskRuns 8 then
      let (s, left) := s.norPlace log erased 200 programmed (s.safety.norWait + bytes)
      ((s.norHold left).taskStep 8 0 0 (decide (left = 0))).norWarn.norShow
     else s.norHold (s.safety.norWait + bytes))

/-- R430. Temperatures in 0.1 °C, the guard die's, the rails in mV and each domain's power in mW are sampled. -/
def execTelemetrySample (temps : List Int) (guard : Int) (rails powers : List Nat) (s : State) : Ans :=
  .next
    (if s.taskRuns 9 ∧ s.due .telemetry (msec (s.get (ob 0x4300 4))) ∧ temps.length = 8 then
      let first := decide (s.get (taskKey 9 4) = 0)
      let s := s.start .telemetry
      let top := temps.foldl max (temps.headD 0)
      let peak := if first then top else max (sget 16 (s.get (ob 0x4330 0x0A))) top
      let s := s.setAll ((upTo 8).map fun k => (ob 0x4330 (k + 1), sputSat 16 (temps.getD k 0)))
      let s := s.setAll [(ob 0x4330 9, sputSat 16 top), (ob 0x4330 0x0A, sputSat 16 peak),
        (ob 0x4330 0x0B, powers.foldl (· + ·) 0 % 2 ^ 32)]
      let s := s.gather 0 (temps ++ [guard] ++ (rails.take 7).map Int.ofNat ++ (powers.take 14).map Int.ofNat)
      let s := if (10 * s.get (ob 0x4300 6) : Nat) < top then
          let sensor := temps.findIdx fun v => decide (v = top)
          (s.count (ob 0x4330 0x0C) 1).evRate 0xE050 0 (if 1150 < top then 3 else 2) 328 (sec 60)
            (u16 sensor ++ u16 (sputSat 16 top)) [] []
        else s
      s.taskStep 9 1 0 true
     else s)

/-- R430. A telemetry record goes to the telemetry log. -/
def execTelemetryLogRecord (s : State) : Ans :=
  .next
    (if s.taskRuns 9 ∧ s.due .telemetryLog (sec (s.get (ob 0x4300 5))) then
      (s.start .telemetryLog).updSafety fun x => { x with record := x.gauges, gauges := [] }
     else s)

end Sys2Proof.Machine
end

