-- ==== Sys2Proof/Machine/Field.lean ====
section
/-!
DEFINITION. The commands of the CAN ports, the serial ports and the signal gateway (R315-R331, R335), but for a map
entry's Period, which reads objects.
-/

set_option Elab.async false

namespace Sys2Proof.Machine

open Sys2Proof

/-- The action of the first acceptance filter that a frame matches; none without a match (R317, R334). -/
def State.canFilter (s : State) (c : Nat) (f : CanFrame) : Option Nat :=
  ((upTo 32).map fun k => s.get (ob (0x2E05 + c) (k + 1))).findSome? fun v =>
    if field v 62 2 ≠ 0 ∧ v.testBit 61 = f.ide ∧ (f.id ^^^ field v 0 29) &&& field v 32 29 = 0 then some (field v 62 2)
    else none

/-- R317. A received CAN frame, stamped at its start-of-frame bit, goes to the tunnel, the gateway or CANopen. -/
def execCanFrameReceived (cp : Nat) (frame : CanFrame) (stamp : Nat) (s : State) : Ans :=
  onUnit (decide (cp < 2))
    (if !s.reach ∨ s.get (ob (0x2E01 + cp) 1) ≠ 1 ∨ s.get (canStat cp 1) = 2 ∨ (cp = 1 ∧ !s.fieldOn) then s
     else
      let s := (s.count (canStat cp 2) 1).canHeard cp
      match (if s.fieldOn then s.canFilter cp frame else none) with
      | some a =>
        let s := if a.testBit 0 then (s.fieldUnit cp (canUnit cp stamp frame)).2 else s
        if a.testBit 1 then s.canSource cp frame stamp else s
      | none =>
        if cp = 0 ∧ s.reservedId frame.ide frame.id then s.send (.canopen frame)
        else s.canDrop cp 0 1)

/-- R318. A CAN port's error counters reach bus-off; C0's session stays. Counters short of it make the port error passive or
active (log entry 212). -/
def execCanBusOff (cp tec rec_ : Nat) (s : State) : Ans :=
  onUnit (decide (cp < 2)) (if !s.reach ∨ s.get (canStat cp 1) = 2 then s else s.canErrors cp tec rec_)

/-- R318. After 128 occurrences of 11 recessive bits the port leaves bus-off, if BusOffRecovery is 0. -/
def execCanBusOffRecovery (cp : Nat) (s : State) : Ans :=
  onUnit (decide (cp < 2))
    (if s.reach ∧ s.get (canStat cp 1) = 2 ∧ s.get (ob (0x2E01 + cp) 6) = 0 then s.canErrors cp 0 0 else s)

/-- R335. CanPortStatus command 1 takes the port out of bus-off. -/
def execCanLeaveBusOff (path : Path) (cp : Nat) (s : State) : Ans :=
  onPath path (decide (cp < 2)) s
    (s.commandNow path (0x2E03 + cp) 1 anyState [1] [] 0 fun s =>
      if s.get (canStat cp 1) = 2 then s.canErrors cp 0 0 else s)

/-- Errors of a UART, at most once a second (R338): framing, parity, overrun, units discarded. -/
def State.uartErrors (s : State) (u framing parity overV discarded : Nat) : State :=
  if framing + parity + overV + discarded = 0 then s
  else s.evRate 0xB010 u 2 (242 + u) (sec 1) (u16 u) [framing, parity, overV, discarded] []

/-- A UART's line, and changed. -/
def State.uart (s : State) (u : Nat) : Uart := Sparse.get {} s.fld.lines u
def State.updUart (s : State) (u : Nat) (f : Uart → Uart) : State :=
  s.updFld fun x => { x with lines := Sparse.put {} u (f (s.uart u)) x.lines }

/-- The length of some bits on a UART's line, in ns (R319). -/
def State.uartBits (s : State) (u n : Nat) : Nat := n * 1000000000 / max 1 (s.get (ob (0x2E08 + u) 2))

/-- The bits of a character in the UART's format: start, data, parity and stop (R319, R335). -/
def State.charBits (s : State) (u : Nat) : Nat :=
  let f := s.get (ob (0x2E08 + u) 3)
  1 + (if f.testBit 0 then 8 else 7) + (if field f 1 2 = 0 then 0 else 1) + (if f.testBit 3 then 2 else 1)

/-- The length of some characters on a UART's line, in ns. -/
def State.uartChars (s : State) (u n : Nat) : Nat := s.uartBits u (n * s.charBits u)

/-- Bytes in the receive FIFO of a UART. -/
def Uart.filled (x : Uart) : Nat := (x.rx.map fun e => e.2.2.length).foldl (· + ·) 0

/-- A pin of a UART. -/
def uartPin (u : Nat) (name : String) : String := "U" ++ toString u ++ "_" ++ name

/-- Un_RTS_N of mode 1 is asserted, low, while the receive FIFO has room for a unit (R319; log entry 88). -/
def State.uartRts (s : State) (u : Nat) : State :=
  let on := decide (s.get (ob (0x2E08 + u) 1) = 1 ∧ (s.uart u).filled + 220 ≤ 1024)
  if (s.uart u).rts = on then s
  else (s.updUart u fun x => { x with rts := on }).send (.pin (uartPin u "RTS_N") (ofBool !on))

/-- A serial unit goes to the tunnel of its UART (R320, R323). -/
def State.serialUnit (s : State) (u : Nat) (e : Nat × Nat × Bytes) : State :=
  (s.fieldUnit (0x100 + u) (u8 2 ++ u8 u ++ u8 (e.1 % 16) ++ u8 0 ++ u32 e.2.2.length ++ u64 e.2.1 ++ e.2.2)).2

/-- The adapter of the field port cannot take a unit for a UART's tunnel (R140). -/
def State.serialHeld (s : State) (u : Nat) : Bool :=
  match s.fieldTunnel (0x100 + u) with
  | some n => s.adapterFull 16 (s.tcfg n 3)
  | none => false

/-- What is due on a UART's line is done: Un_DE falls once the turnaround is over, and the units in the receive FIFO go to their
tunnel once its adapter takes them (R319, R320). -/
def State.uartSettle (s : State) (u : Nat) : State :=
  let s :=
    if (s.uart u).driving ∧ (s.uart u).busyTo ≤ s.clock then
      (s.updUart u fun x => { x with driving := false }).send (.pin (uartPin u "DE") 0)
    else s
  let s :=
    if (s.uart u).rx = [] ∨ s.serialHeld u then s
    else
      forAll (fun e (s : State) => s.serialUnit u e) (s.uart u).rx (s.updUart u fun x => { x with rx := [] })
  if s.fieldOn then s.uartRts u else s

/-- R320. A serial unit closes on size, gap, break or error and goes to its tunnel, or waits in the receive FIFO; `flags` are those
of R323. What the FIFO has no room for is lost as an overrun, more than 220 bytes are several units, and the receiver is ignored
while the hub drives the line. -/
def execUartUnitClose (ua flags stamp : Nat) (data : Bytes) (s : State) : Ans :=
  onPort s (fun q => q.hasUart ua)
    (if !s.fieldOn ∨ s.get (ob (0x2E08 + ua) 1) = 0 then s
     else
      let s := s.uartSettle ua
      if (s.uart ua).driving then s
      else
        let bytes := data.take (1024 - (s.uart ua).filled)
        let flags := if bytes.length < data.length then setBit flags 3 else flags
        let s := s.uartErrors ua (field flags 1 1) (field flags 2 1) (field flags 3 1) 0
        let parts := chunks (bytes.length + 1) 220 bytes
        let units := (upTo parts.length).map fun k => (if k + 1 = parts.length then flags else 0, stamp + s.uartChars ua (220 * k), parts.getD k [])
        (s.updUart ua fun x => { x with rx := x.rx ++ units, heardAt := s.clock }).uartSettle ua)

/-- R320. The first waiting unit is transmitted as the transmit FIFO has room: in RS-485 after GapChars character times of idle
line, under Un_DE until TurnaroundBits after its last stop bit, and held back by CTS in RS-232 with flow control. -/
def execUartUnitTransmit (ua : Nat) (cts : Bool) (s : State) : Ans :=
  onPort s (fun q => q.hasUart ua)
    (let s := if s.fieldOn then s.uartSettle ua else s
     let mode := s.get (ob (0x2E08 + ua) 1)
     let x := s.uart ua
     match Sparse.get [] s.fld.uarts ua with
     | [] => s
     | d :: r =>
       let from_ := max s.clock x.busyTo
       if !s.fieldOn || decide (mode = 0) || (decide (mode = 1 ∧ s.get (ob (0x2E08 + ua) 6) = 1) && !cts) ||
           decide (s.uartChars ua 1024 < from_ - s.clock + s.uartChars ua d.length) ||
           (decide (mode = 3) && decide (s.clock < max x.busyTo x.heardAt + s.uartChars ua (s.get (ob (0x2E08 + ua) 4)))) then s
       else
         let s := s.updFld fun x => { x with uarts := Sparse.put [] ua r x.uarts }
         let sentAt := from_ + s.uartChars ua d.length
         if mode = 3 then
           ((s.updUart ua fun x => { x with busyTo := sentAt + s.uartBits ua (s.get (ob (0x2E08 + ua) 5)), driving := true }).send
             (.pin (uartPin ua "DE") 1)).send (.serial ua d)
         else (s.updUart ua fun x => { x with busyTo := sentAt }).send (.serial ua d))

/-- The records of a signal message. -/
def recordsOf : Nat → Bytes → List Bytes
  | 0, _ => []
  | n + 1, b => fitBytes 16 b :: recordsOf n (b.drop 16)

/-- A field unit whose turn has come is sent or applied; a tail-bad one is discarded (R322). -/
def State.fieldNow (s : State) (n : Nat) (unit : Bytes) (bad : Bool) : State :=
  let ep := s.tcfg n 8
  if (s.tstate n ≠ 3 ∧ s.tstate n ≠ 4) ∨ s.tcfg n 2 ≠ 4 ∨ s.transit n ∨ !s.fieldOn then s
  else if bad then s.updFld fun x => { x with badUnits := x.badUnits + 1 }
  else if ep < 2 ∧ byteAt unit 0 = 1 then
    let f := unitCan unit
    if ep = 0 ∧ s.reservedId f.ide f.id then s.canDrop 0 1 0 else s.canSend ep f
  else if 0x100 ≤ ep ∧ ep < 0x104 ∧ byteAt unit 0 = 2 then
    let u := ep - 0x100
    let q := Sparse.get [] s.fld.uarts u
    if 16 ≤ q.length then s.uartErrors u 0 0 0 1
    else s.updFld fun x => { x with uarts := Sparse.put [] u (q ++ [fitBytes (leAt unit 4 2) (unit.drop 16)]) x.uarts }
  else if 0x200 ≤ ep ∧ ep < 0x210 ∧ byteAt unit 0 = 3 ∧ s.get (tunKey n 0x12) = 2 then
    s.together (forAll (fun r s => s.recordSource (ep - 0x200) r) (recordsOf (byteAt unit 2) (unit.drop 16)))
  else s

/-- The field units of a tunnel that waited and are in order now are acted on (R322). -/
def State.fieldReady (s : State) (n : Nat) : State :=
  let ready := s.fld.held.filter fun u => decide (u.tunnel = n) && !s.seqGap n u.seq
  if ready.isEmpty then s
  else
    let s := s.updFld fun x => { x with held := x.held.filter fun u => !ready.contains u }
    forAll (fun (u : FieldUnit) s => s.fieldNow n u.unit u.bad) ready s

/-- A unit put among those that wait, before the first of its tunnel with a later sequence. -/
def State.fieldInsert (s : State) (u : FieldUnit) : List FieldUnit → List FieldUnit
  | [] => [u]
  | e :: r =>
    let h := (s.tun u.tunnel).h
    if e.tunnel = u.tunnel ∧ extend (u.seq % 65536) h < extend (e.seq % 65536) h then u :: e :: r else e :: s.fieldInsert u r

/-- R322. A field unit from a tunnel is taken in sequence order: one ahead of an earlier sequence waits. -/
def execFieldUnitReceived (n : Nat) (unit : Bytes) (mark : UnitMark) (s : State) : Ans :=
  onUnit (decide (n < 4096))
    (let s := s.fieldReady n
     if s.seqGap n mark.seq then
      s.updFld fun x => { x with held := s.fieldInsert { tunnel := n, seq := mark.seq, unit, bad := mark.damaged } x.held }
     else s.fieldNow n unit mark.damaged)

/-- R327. StaleTime passes without a source update and the entry becomes stale. -/
def execStaleTimeExpired (me : Nat) (s : State) : Ans :=
  onUnit (decide (me < 1024))
    (if s.mapping && decide (s.get (mapKey me 1) = 1 ∧ s.mcfg me 0x13 ≠ 0) &&
        decide ((s.mapEntry me).updated + msec (s.mcfg me 0x13) ≤ s.clock) then s.mapStale me 1
     else s)

/-- R328. A CanTxFrame's CycleTime elapses and it is sent. -/
def execCanTxCycleTimer (fr : Nat) (s : State) : Ans :=
  let ct := s.get (ob (0x2E40 + fr) 4)
  onUnit (decide (fr < 64))
    (if s.fieldOn ∧ ct ≠ 0 ∧ (s.canTx fr).cycleAt + msec ct ≤ s.clock then
      (s.updCanTx fr fun x => { x with cycleAt := s.clock }).canTrigger fr
     else s)

/-- R328. The inhibit of a CanTxFrame ends: one deferred frame is sent with the latest values. -/
def execCanTxInhibitEnd (fr : Nat) (s : State) : Ans :=
  onUnit (decide (fr < 64))
    (if s.fieldOn ∧ (s.canTx fr).deferred ∧ !s.inhibited fr then s.canTxNow fr else s)

/-- R329. A publisher repeats its frame; the interval doubles up to MaxInterval. -/
def execGooseRepeatTimer (g : Nat) (s : State) : Ans :=
  let x := s.pub g
  onUnit (decide (g < 16))
    (if s.fieldOn ∧ s.get (pubKey g 1) = 1 ∧ x.interval ≠ 0 ∧ x.sentAt + msec x.interval ≤ s.clock then
      s.goosePublish g (min (2 * x.interval) (s.get (pubKey g 0x0A)))
     else s)

/-- R330. A subscription's timeAllowedToLive passes: it expires, and its entries become stale. -/
def execGooseTalExpired (sb : Nat) (s : State) : Ans :=
  let x := s.gsub sb
  onUnit (decide (sb < 16))
    (if x.alive ∧ s.get (subKey sb 1) = 1 ∧ x.at_ + msec x.tal ≤ s.clock then
      let s := (s.updGsub sb fun x => { x with alive := false }).count (subKey sb 5) 1
      let s := s.ev 0xB030 sb 3 248 (u16 sb ++ u16 (s.get (subKey sb 2)) ++ u32 x.st)
      if s.mapping then
        s.together (forAll (fun n s => if s.mcfg n 2 = 1 ∧ field (s.mcfg n 3) 16 4 = sb then s.mapStale n 2 else s) s.mapsOn)
      else s
     else s)

/-- R331. In host mapping a Value or Quality write is packed into the entry's destination as a trigger; in hardware mode
both are read-only. -/
def execSignalValueWrite (path : Path) (me sub value : Nat) (s : State) : Ans :=
  onPath path (decide (me < 1024 ∧ (sub = 0x16 ∨ sub = 0x17))) s
    (s.writeNum path (0x5000 + me) sub value (kindIf (!s.hostMaps) 4) fun s =>
      let s := s.setAll [(mapKey me sub, withoutReserved (0x5000 + me) sub value), (mapKey me 0x18, s.station)]
      (if s.get (mapKey me 1) = 1 ∧ s.fieldOn then s.mapPack me else s).tpdoCheck)

end Sys2Proof.Machine
end

