-- ==== Sys2Proof/Machine/Journal.lean ====
section
/-!
DEFINITION. The commands of the event journal (R279-R283, R479).
-/

set_option Elab.async false

namespace Sys2Proof.Machine

open Sys2Proof

/-- R281. JournalControl command 1 empties the ring and writes EV_JOURNAL_CLEARED. -/
def execJournalClear (path : Path) (s : State) : Ans :=
  onPath path true s (s.commandNow path 0x2F10 1 anyState [1] [] 0 fun s => s.clearJournal (s.session path).id)

/-- R282. A read of Entry returns the entry at ReadIndex and advances the index. -/
def execJournalEntryRead (path : Path) (s : State) : Ans :=
  onPath path true s (if s.reach then
    let (b, s) := s.takeEntry path
    (s.touch path).answer path 0x2F11 2 b
   else s)

/-- R283. A read of RemoteEntry returns a pushed entry and advances RemoteReadIndex. -/
def execRemoteEntryRead (path : Path) (t : Nat) (s : State) : Ans :=
  onPath path (decide (t < 4)) s
    (if !s.reach then s
     else
      let i := 0x2F18 + t
      match s.judgeRead path i 6 with
      | some k => ((s.touch path).violate path i 6 k).answer path i 6 (zeros (if k = 1 then 4 else 32))
      | none =>
        let (b, s) := s.takeRemote path t
        (s.touch path).answer path i 6 b)

/-- R283. Pushed entries are stored, and the highest index stored is acknowledged. -/
def execJournalPushCellReceived (t : Nat) (payload : Bytes) (s : State) : Ans :=
  onPort s (fun q => q.hasTrunk t)
    (if s.trained t ∧ 32 ≤ payload.length then
      let s := forAll (fun b s => s.pushStore t b) (entriesOf (min 7 (payload.length / 32)) payload) s
      let high := match (s.plt t).ring with | (n, _) :: _ => n | [] => 0
      s.emit 3 [t] (s.newCell 3 0 (u32 high))
     else s)

/-- R283. An acknowledgement advances AckedIndex; what it covers is not sent again. -/
def execJournalAckReceived (t index : Nat) (s : State) : Ans :=
  onPort s (fun q => q.hasTrunk t)
    (if s.trained t then
      let p := s.get (pushKey t 1)
      let a := (p + 2 ^ 32 - (p + 65536 - index % 65536) % 65536) % 2 ^ 32
      (s.set (pushKey t 2) a).updPl t fun x =>
        { x with pushSerial := some (s.get (tk t 1 0x0C)),
                 pushes := x.pushes.filter fun e => decide (e.1 ≠ a ∧ (e.1 + 2 ^ 32 - a) % 2 ^ 32 < 2 ^ 31) }
     else s)

/-- R283. Push cells not acknowledged within 1 ms are sent again, oldest first, within the cells of the cycle. -/
def execJournalPushRetransmit (t : Nat) (s : State) : Ans :=
  onPort s (fun q => q.hasTrunk t)
    (if s.trained t then
      let late := (s.plt t).pushes.filter fun e => decide (e.2.2 + msec 1 ≤ s.clock)
      forAll (fun e s => s.pushAgain t e) late s
     else s)

/-- The shared pool is exhausted now (R144). -/
def State.sharedFull (s : State) : Bool := decide (s.get (ob 0x2500 4) = s.get (ob 0x2500 3))

/-- R479. A rate-limit period ends and one gathering entry is written; a tunnel's sides end their own trunks' cycles.
EV_FABRIC_SHARED_EXHAUSTED occurs anew each second while the pool stays exhausted (R144); the periods of reverse turn-offs
in Reset are the guard die's (R364). -/
def execRateLimitPeriodEnd (code inst : Nat) (s : State) : Ans :=
  let s := if code = 0xD002 then s.turnsEnd inst else s
  .next (forAll (fun r s =>
      if s.rateDue r then
        let s := s.rateEnd r
        if code = 0x4050 ∧ s.sharedFull then s.sharedGone else s
      else s)
    (s.rates.filter fun r => decide (r.code = code ∧ r.inst = inst)) s)

end Sys2Proof.Machine
end

