-- ==== Sys2Proof/Machine/Pd.lean ====
section
/-!
DEFINITION. The commands of the service port's power: attach, PD messages and timers, protection and the host's commands
(R242-R260).
-/

set_option Elab.async false

namespace Sys2Proof.Machine

open Sys2Proof

/-- R245, R248, R254. A partner's terminations are seen, and the port waits for CC debounce in AttachWait; or, once debounced,
after tCCDebounce, the partner is attached: the hub is Source or Sink, on CC1 or CC2, a Sink with the partner's Rp level.
A DRP that may try becomes Try.SNK first. On a port that is Sink already the level of the partner's Rp is another (log entry 121). -/
def execTypecAttach (source : Bool) (cc : Nat) (partner : CcSeen) (s : State) : Ans :=
  .next
    (let st := s.typeC
     let mode := s.roleMode
     if st = 3 ∧ !source ∧ partner.debounced ∧ partner.level ≤ 2 then s.partnerLevel partner.level
     else if s.domainOn 2 ∧ (st ≤ 1 ∨ st = 4 ∨ st = 5) ∧ !s.pd.discharge ∧ (cc = 1 ∨ cc = 2) ∧ partner.level ≤ 2 ∧
        (mode = 2 ∨ (mode = 1 ∧ source) ∨ (mode = 0 ∧ !source)) ∧ (st = 4 → !source) ∧ (st = 5 → source) then
      if !partner.debounced then if st = 0 then ((s.stop .pdDrp).start .pdCc).set (pdStat 1) 1 else s
      else if st = 1 ∧ !s.due .pdCc (msec 100) then s
      else
        let s := s.stopAll [.pdDrp, .pdTrySnk, .pdCc]
        if st ≤ 1 ∧ source ∧ mode = 2 ∧ s.get (pdCfg 2) = 1 then
          ((s.setAll [(pdStat 1, 4), (pdStat 5, cc)]).send (.ccPull false 0)).start .pdTrySnk
        else s.attachAs source cc partner.level
     else s)

/-- R254. The partner detaches: VBUS, VCONN and the contract go; out of AttachWait, Try.SNK or TryWait.SRC nothing was
attached yet. -/
def execTypecDetach (s : State) : Ans :=
  .next
    (if 1 ≤ s.typeC ∧ s.typeC ≤ 5 then
      let source := s.isSource
      let s := if s.attached then
          s.pdEv 0x8002 0 168 (u16 (s.get (pdStat 7)) ++
            u16 (match s.pd.target with | some (_, mv, _) => mv | none => 0))
        else s
      let s := if source then (s.vsel 5000).discharging true else s
      (s.unattach.set (pdStat 1) 0).terminate
     else s)

/-- R245, R256. The DRP period toggles Rp and Rd of an unattached port; each lasts half of tDRP. -/
def execDrpToggleTimer (s : State) : Ans :=
  .next
    (if s.typeC = 0 ∧ s.roleMode = 2 ∧ s.due .pdDrp (msec 25) then
      let rp := !s.pd.rp
      ((s.updPd fun x => { x with rp }).send (.ccPull rp (s.get (pdCfg 3)))).start .pdDrp
     else s)

/-- R245. The Try.SNK wait ends without a Source: the port presents Rp, as a Source does, in TryWait.SRC, and is Source and
DFP once a TYPEC_ATTACH shows the partner's Rd (log entry 121). -/
def execTrySnkTimeout (s : State) : Ans :=
  .next
    (if s.typeC = 4 ∧ s.due .pdTrySnk (msec 75) then
      ((s.stop .pdTrySnk).set (pdStat 1) 5).presentRp (s.get (pdCfg 3))
     else s)

/-- R244. tErrorRecovery ends: the port is Unattached and presents its configured terminations. -/
def execErrorRecoveryEnd (s : State) : Ans :=
  .next (if s.typeC = 6 ∧ s.due .pdError (msec 25) then ((s.stop .pdError).set (pdStat 1) 0).terminate else s)

/-- R247. Ra on the unused CC pin: the Source applies VCONN. -/
def execRaDetected (s : State) : Ans :=
  .next
    (if s.isSource then
      let s := s.updPd fun x => { x with ra := true }
      if s.get (pdCfg 0x0E) = 1 ∧ !s.pd.vconnCut ∧ s.get (pdStat 4) = 0 then s.vconn true else s
     else s)

/-- A PD message with a good CRC: it is acknowledged; one whose MessageID repeats is discarded (R243). In hardware mode the
PHY acknowledges nothing (R248). A new message shows that the hub's own had its GoodCRC (log entry 121). -/
def State.pdTake (s : State) (id : Nat) (eff : State → State) : State :=
  if !s.pdOn ∨ 8 ≤ id then s
  else
    let s := s.send (.pdGoodCrc id)
    if s.pd.rxId = some id then s
    else eff (s.updPd fun x => { x with rxId := some id }).heard

/-- The revision in use is the lower one offered (R242). -/
def State.revision (s : State) (rev : Nat) : State := s.set (pdStat 6) (if rev = 2 then 2 else 3)

/-- Not_Supported, or Reject at revision 2.0 (R242, R246). -/
def State.notSupported (s : State) : State :=
  s.pdSend (if s.get (pdStat 6) = 2 then .reject else .notSupported)

/-- R251, R259. Source_Capabilities reach the Sink, which requests the 5 V PDO, the first. -/
def execPdSourceCapabilities (id rev : Nat) (pdos : List Nat) (s : State) : Ans :=
  .next
    (s.pdTake id fun s =>
      if !s.isSink then s.notSupported
      else
        let s := (s.revision rev).updPd fun x => { x with vbus := true, softSent := false }
        let s := s.setAll (((upTo 7).map fun k => (ob 0x2B02 (k + 1), pdos.getD k 0 % 2 ^ 32)) ++
          [(ob 0x2B02 8, min 7 pdos.length)])
        s.sendRequest 1 false)

/-- R250. A Request reaches the Source: accepted, and the voltage transition starts, or rejected. -/
def execPdRequest (id rev rdo : Nat) (s : State) : Ans :=
  .next
    (s.pdTake id fun s =>
      if !s.isSource then s.notSupported
      else
        let s := s.revision rev
        let k := field rdo 28 3
        let most := s.pd.advertised.getD (k - 1) 0 % 1024
        let op := field rdo 10 10
        if 1 ≤ k ∧ k ≤ s.pd.advertised.length ∧ op ≤ most ∧ (rdo % 1024 ≤ most ∨ rdo.testBit 26) then
          let s := (s.pdSend .accept).set (pdStat 9) 2
          let s := s.updPd fun x => { x with target := some (k, pdoVolts k, op * 10) }
          (s.start .pdTransition).start .pdTransitionSrc
        else (s.pdSend .reject).readyRp)

/-- R246, R247, R251. An Accept of the hub's Request, swap or Soft_Reset. VCONN cut off stays off until the next attach
(R252). -/
def execPdAccept (id : Nat) (s : State) : Ans :=
  .next
    (s.pdTake id fun s =>
      let x := s.pd
      if x.softSent then s.updPd fun x => { x with softSent := false, txId := 0, rxId := none }
      else
      match x.asked with
      | some k =>
        let pdo := s.get (ob 0x2B02 k)
        let s := (s.stop .pdResponse).set (pdStat 9) 2
        (s.updPd fun x => { x with
          asked := none, target := some (k, field pdo 10 10 * 50, x.askedMa) }).start .pdPsRdy
      | none =>
        if x.swap = 0 ∨ !x.swapOwn ∨ x.swapAgreed ∨ x.ask.any pdSwaps then s
        else if x.swap = 1 then (s.updPd fun x => { x with autoDone := true }).swapRoles
        else
          let s := (s.updPd fun x => { x with swapAgreed := true }).stop .pdResponse
          if s.get (pdStat 4) = 1 ∨ s.pd.vconnCut then s else ((s.vconn true).pdSend .psRdy).swapEnd 0)

/-- R246, R251. A Reject, or Not_Supported, of the hub's Request or swap: what stood stands. -/
def execPdReject (id : Nat) (notSupported : Bool) (s : State) : Ans :=
  .next
    (s.pdTake id fun s =>
      let r := if notSupported then 3 else 1
      match s.pd.asked with
      | some k =>
        ((s.stop .pdResponse).updPd fun x => { x with asked := none }).requestDone k r
      | none =>
        if s.pd.swap = 1 ∧ s.pd.swapOwn then
          ((s.updPd fun x => { x with autoDone := true, autoWait := false }).stop .pdAuto).swapEnd r
        else if s.pd.swap ≠ 0 ∧ s.pd.swapOwn then s.swapEnd r
        else s)

/-- R246, R251. A Wait: a Request is retried after tSinkRequest, a swap of AutoUfp after tSenderResponse, at most three
times in all; a swap command ends with Result 2. -/
def execPdWait (id : Nat) (s : State) : Ans :=
  .next
    (s.pdTake id fun s =>
      match s.pd.asked with
      | some _ => (s.stop .pdResponse).start .pdSinkRetry
      | none =>
        if s.pd.swap ≠ 0 ∧ s.pd.swapOwn then
          let auto := decide (s.pd.swap = 1 ∧ !(s.cmdRuns 0x2B01 ∧ (s.cmd 0x2B01).value % 256 = 1) ∧ 0 < s.pd.autoTries ∧ s.pd.autoTries < 3)
          let s := s.swapEnd 2
          if auto then (s.updPd fun x => { x with autoWait := true }).start .pdAuto else s
        else s)

/-- R247, R251. PS_RDY completes the Sink's contract change or a VCONN swap in which the hub gives VCONN up. -/
def execPdPsRdy (id : Nat) (s : State) : Ans :=
  .next
    (s.pdTake id fun s =>
      if s.pd.swap = 2 ∧ s.pd.swapAgreed then (s.vconn false).swapEnd 0
      else
        match s.pd.target with
        | some (k, mv, ma) => if s.isSink then (s.contract k mv ma).requestDone k 0 else s
        | none => s)

/-- R242. Get_Source_Cap is answered by the Source with Source_Capabilities. -/
def execPdGetSourceCap (id : Nat) (s : State) : Ans :=
  .next (s.pdTake id fun s => if s.isSource then s.sendCaps else s.notSupported)

/-- R251. Get_Sink_Cap is answered with Sink_Capabilities. -/
def execPdGetSinkCap (id : Nat) (s : State) : Ans :=
  .next (s.pdTake id fun s => s.pdSend (.sinkCap [s.sinkPdo]))

/-- The hub's own swap request that a partner's crosses is dropped; its command ends with Result 7 (R255). -/
def State.crossed (s : State) : State :=
  if s.pd.swap ≠ 0 ∧ s.pd.swapOwn ∧ !s.pd.swapAgreed then s.swapEnd 7 else s

/-- R246, R255. A DR_Swap is accepted or refused by DrSwapPolicy; the QH7-18 has no data-role swap. -/
def execPdDrSwap (id : Nat) (s : State) : Ans :=
  .next
    (s.pdTake id fun s =>
      let s := s.crossed
      let policy := s.get (pdCfg 0x0B)
      if !s.part.qh34 then s.notSupported
      else if s.pd.swap ≠ 0 then s.pdSend .reject
      else if policy = 2 ∨ (policy = 1 ∧ s.get (pdStat 3) = 2) then
        (s.pdSend .accept).updPd (fun x => { x with swap := 1, swapOwn := false, swapAgreed := true }) |>.swapRoles
      else s.pdSend .reject)

/-- R247, R255. A VCONN_Swap is accepted or refused by VconnSwapPolicy; a hub that takes VCONN applies it and sends
PS_RDY. One whose VCONN is cut off does not take it (R252). -/
def execPdVconnSwap (id : Nat) (s : State) : Ans :=
  .next
    (s.pdTake id fun s =>
      let s := s.crossed
      if s.pd.swap ≠ 0 then s.pdSend .reject
      else if s.get (pdCfg 0x0C) = 1 ∧ (s.get (pdStat 4) = 1 ∨ !s.pd.vconnCut) then
        let s := (s.pdSend .accept).updPd fun x => { x with swap := 2, swapOwn := false, swapAgreed := true }
        if s.get (pdStat 4) = 1 then s else ((s.vconn true).pdSend .psRdy).swapEnd 0
      else s.pdSend .reject)

/-- R242. A Soft_Reset resets the protocol layer: MessageIDs start again, it is accepted, and a Source sends its
capabilities anew. -/
def execPdSoftReset (id : Nat) (s : State) : Ans :=
  .next
    (if s.pdOn ∧ id < 8 then
      let s := s.send (.pdGoodCrc id)
      let s := (s.pdRestart.updPd fun x => { x with txId := 0, rxId := none }).pdSend .accept
      if s.isSource then s.start .pdFirstCap else s
     else s)

/-- R253. A Hard Reset is received. -/
def execPdHardReset (s : State) : Ans := .next (if s.pdOn then s.hardReset false else s)

/-- R242. A Vendor_Defined message with its VDM header: Discover Identity is answered with ACK, every other structured
request with NAK, an unstructured one with Not_Supported; an answer is not answered (log entry 120). -/
def execPdDiscoverIdentity (m : VdmIn) (s : State) : Ans :=
  .next
    (s.pdTake m.id fun s =>
      if !m.hdr.testBit 15 then s.pdSend .notSupported
      else if field m.hdr 6 2 ≠ 0 then s
      else if m.hdr / 65536 = 0xFF00 ∧ m.hdr % 32 = 1 then s.pdSend (.vdm (0xFF008041 :: Config.identityVdos))
      else s.pdSend (.vdm [m.hdr + 0x80]))

/-- R242. PR_Swap is answered with Not_Supported or Reject. -/
def execPdPrSwap (id : Nat) (s : State) : Ans := .next (s.pdTake id fun s => s.notSupported)

/-- R242. A chunked extended message is received and answered with Not_Supported. -/
def execPdExtendedMessage (id : Nat) (s : State) : Ans := .next (s.pdTake id fun s => s.pdSend .notSupported)

/-- R242. A BIST message starts carrier mode or test data. -/
def execPdBist (id : Nat) (carrier : Bool) (s : State) : Ans :=
  .next (s.pdTake id fun s => s.send (.pdBist carrier))

/-- The type code of a message, as PD numbers it (R260). -/
def pdCode : PdMsg → Nat
  | .sourceCap _ => 1
  | .request _ => 2
  | .accept => 3
  | .reject => 4
  | .psRdy => 6
  | .sinkCap _ => 4
  | .getSinkCap => 8
  | .drSwap => 9
  | .vconnSwap => 11
  | .softReset => 13
  | .vdm _ => 15
  | .notSupported => 16

/-- R243. No GoodCRC within tReceive: the message is sent again, nRetryCount times, then counted failed and handled by what
it was. -/
def execPdGoodcrcTimeout (s : State) : Ans :=
  .next
    (match s.pd.waitCrc with
     | none => s
     | some m =>
      if !s.pdOn ∨ !s.due .pdGoodCrc 900000 then s
      else
        let limit := if s.get (pdStat 6) = 2 then 3 else 2
        if s.pd.retries < limit then
          ((s.updPd fun x => { x with retries := x.retries + 1 }).send (.pd m ((s.pd.txId + 7) % 8))).start .pdGoodCrc
        else
          let s := (s.count (pdStat 0x0F) 1).pdEv 0x8060 2 175 (u8 (pdCode m) ++ u8 limit)
          let s := s.crcOver
          match m with
          | .sourceCap _ => (((s.updPd fun x => { x with capsBad := true }).start .pdCapRepeat).pdDone 4 4).pdNext
          | .softReset => s.hardReset true
          | .psRdy => s.hardReset true
          | .drSwap => (s.swapEnd 4).pdNext
          | .vconnSwap => (s.swapEnd 4).pdNext
          | _ => (s.pdRestart.updPd fun x => { x with softSent := true }).pdSend .softReset)

/-- R250. tFirstSourceCap after vSafe5V. -/
def execFirstSourceCapTimer (s : State) : Ans :=
  .next
    (if s.pdOn ∧ s.isSource ∧ s.pd.vbus ∧ s.due .pdFirstCap (msec 100) then
      ((s.stop .pdFirstCap).updPd fun x => { x with caps := 0 }).sendCaps
     else s)

/-- R250. Source_Capabilities are repeated until a GoodCRC arrives, at most nCapsCount times. -/
def execSourceCapRepeat (s : State) : Ans :=
  .next
    (if s.pdOn ∧ s.isSource ∧ s.pd.capsBad ∧ s.pd.caps < 50 ∧ s.due .pdCapRepeat (msec 100) then
      (s.stop .pdCapRepeat).sendCaps
     else s)

/-- R250. tSrcTransition after Accept the voltage selection is driven. -/
def execSrcTransitionExpired (s : State) : Ans :=
  .next
    (match s.pd.target with
     | some (_, mv, _) =>
      if s.isSource ∧ s.due .pdTransition (msec 25) then (s.stop .pdTransition).vsel mv else s
     | none => s)

/-- R250, R259. VBUS has been within 5 % of the new voltage for 1 ms: PS_RDY is sent, the contract is in force, and after
PS_RDY's GoodCRC the partner's Sink_Capabilities are fetched; `sinkPdos` are its answer. On a Sink it tells that VBUS is back
after a Hard Reset (R253; log entry 221). -/
def execVbusSettled (sinkPdos : List Nat) (s : State) : Ans :=
  .next
    (if s.isSink then s.updPd fun x => { x with vbus := true }
     else match s.pd.target with
     | some (k, mv, ma) =>
      if s.isSource ∧ s.pdOn ∧ !s.timing .pdTransition then
        let s := ((s.pdSend .psRdy).contract k mv ma)
        let s := (s.updPd fun x => { x with sinkCaps := some sinkPdos }).pdSend .getSinkCap
        if s.pd.capsLater then s.sendCaps else s.autoUfp
      else s
     | none => s)

/-- R250. The Source's transition does not complete within tPSTransitionSrc: Hard Reset. -/
def execPsTransitionSrcTimeout (mv : Nat) (s : State) : Ans :=
  .next
    (match s.pd.target with
     | some (_, want, _) =>
      if s.isSource ∧ s.pdOn ∧ s.due .pdTransitionSrc (msec 275) then
        (s.pdEv 0x8011 3 169 (u16 want ++ u16 mv)).hardReset true
      else s
     | none => s)

/-- R251. As Sink no PS_RDY arrives within tPSTransition: Hard Reset. -/
def execPsTransitionTimeout (s : State) : Ans :=
  .next (if s.isSink ∧ s.pdOn ∧ s.due .pdPsRdy (msec 450) then s.hardReset true else s)

/-- R246. No answer within tSenderResponse: a command ends with Result 4; an unanswered Request resets hard, as PD asks; a
swap of AutoUfp that had to wait is asked again. -/
def execSenderResponseTimeout (s : State) : Ans :=
  .next
    (if s.pdOn ∧ s.pd.autoWait ∧ s.pd.swap = 0 ∧ s.due .pdAuto (msec 27) then
      let s := (s.stop .pdAuto).updPd fun x => { x with autoWait := false }
      if s.isSource ∧ s.get (pdStat 3) = 2 then
        (s.updPd fun x => { x with autoTries := x.autoTries + 1 }).askSwap 1
      else s
     else if s.pdOn ∧ s.due .pdResponse (msec 27) then
      let s := s.stop .pdResponse
      if s.pd.asked.isSome then (s.requestDone (s.pd.asked.getD 0) 4).hardReset true
      else if s.pd.swap ≠ 0 ∧ s.pd.swapOwn then s.swapEnd 4
      else s
     else s)

/-- R251. tSinkRequest after a Wait the Sink requests again. -/
def execSinkRequestRetry (s : State) : Ans :=
  .next
    (match s.pd.asked with
     | some k => if s.isSink ∧ s.pdOn ∧ s.due .pdSinkRetry (msec 100) then (s.stop .pdSinkRetry).sendRequest k true else s
     | none => s)

/-- The VBUS threshold of R252 in mV: 6.0 V at 5 V or without a contract, 10.8 V at 9 V, 18.0 V at 15 V; a Source in
transition takes the higher of both. -/
def State.vbusLimit (s : State) : Nat :=
  let at_ := fun mv => if mv = 15000 then 18000 else if mv = 9000 then 10800 else 6000
  match s.pd.target with
  | some (_, mv, _) => max (at_ mv) (at_ (s.get (pdStat 7)))
  | none => at_ (s.get (pdStat 7))

/-- R252, R371. VBUS over-voltage: as Source channel 8 trips with cause 6, discharge is on and the port recovers; as Sink the
terminations go. -/
def execSvcVbusOvervoltage (mv ma : Nat) (temp : Int) (s : State) : Ans :=
  .next
    (if s.vbusLimit < mv then
      if s.isSource ∧ s.driven 8 then
        let s := ((s.protect 1 mv).trip 8 6 0 ma temp).discharging true
        s.errorRecovery
      else if s.isSink then (s.protect 2 mv).errorRecovery
      else s
     else s)

/-- R252. Over-voltage on a CC pin: the pins are isolated, VCONN is off, the port recovers. -/
def execSvcCcOvervoltage (mv : Nat) (s : State) : Ans :=
  .next (if 6000 < mv ∧ s.dev ≠ devReset then ((s.protect 5 s.vbusNow).vconn false).errorRecovery else s)

/-- R252. VCONN over-current: VCONN is off until the next attach, the contract is kept. -/
def execVconnOvercurrent (ma : Nat) (s : State) : Ans :=
  .next
    (if 400 < ma ∧ s.get (pdStat 4) = 1 then
      ((s.protect 6 s.vbusNow).vconn false).updPd fun x => { x with vconnCut := true }
     else s)

/-- The commands of ServicePowerStatus: of kind 6 in hardware mode, without a PD partner or in the wrong role (R258). -/
def State.pdCommand (s : State) (path : Path) (c value : Nat) (bad : List Nat) (eff : State → State) : State :=
  s.command path 0x2B01 value anyState [1, 2, 3, 4, value]
    (kindIf (!s.hostMode 6 || !s.attached || decide (s.get (pdStat 6) = 0)) 6 ++
      kindIf (decide (c = 4) && !s.isSource || decide (c = 5) && !s.isSink) 6 ++ bad) eff

/-- R258, R246. Command 1 sends DR_Swap; on the QH7-18 it is of kind 7. -/
def execPdCmdDrSwap (path : Path) (s : State) : Ans :=
  onPath path true s (s.pdCommand path 1 1 (kindIf (!s.part.qh34) 7) fun s => s.askSwap 1)

/-- R258, R247. Command 2 sends VCONN_Swap. -/
def execPdCmdVconnSwap (path : Path) (s : State) : Ans := onPath path true s (s.pdCommand path 2 2 [] fun s => s.askSwap 2)

/-- R258, R253. Command 3 sends Hard Reset and commits. -/
def execPdCmdHardReset (path : Path) (s : State) : Ans :=
  onPath path true s (s.pdCommand path 3 3 [] fun s => (s.pdDone 3 0).hardReset true)

/-- R258, R249. Command 4 sends Source_Capabilities; it commits when they are acknowledged. -/
def execPdCmdSendSourceCap (path : Path) (s : State) : Ans :=
  onPath path true s (s.pdCommand path 4 4 [] fun s => (s.updPd fun x => { x with caps := 0 }).sendCaps)

/-- R258, R251. Command 5 requests the object position in bits 15:8. -/
def execPdCmdRequest (path : Path) (position : Nat) (s : State) : Ans :=
  onPath path true s
    (s.pdCommand path 5 (5 + 256 * position) (kindIf (decide (position = 0 ∨ s.get (ob 0x2B02 8) < position)) 7) fun s =>
      s.sendRequest position true)

/-- R250, R249. A PDO object, item 5 to 9 of ServicePowerConfig, is written. -/
def execPdoWrite (path : Path) (item value : Nat) (s : State) : Ans :=
  onPath path true s
    (if 5 ≤ item ∧ item ≤ 9 then
      s.writeNum path 0x2B00 item value (s.pdKinds item value) fun s => (s.set (pdCfg item) value).pdoChanged
     else s)

/-- R253. tPSHardReset after a Hard Reset the Source turns channel 8 off. -/
def execPsHardResetTimer (s : State) : Ans :=
  .next
    (if s.isSource ∧ s.pd.hardStage = 1 ∧ s.due .pdHardReset (msec 25) then
      let s := (((s.stop .pdHardReset).request 8 false).vsel 5000).discharging true
      s.updPd fun x => { x with hardStage := 2, vbus := false }
     else s)

/-- R253, R254. VBUS falls below vSafe0V: discharge ends, and after a Hard Reset recovery begins. -/
def execVbusSafe0vReached (s : State) : Ans :=
  .next
    (if s.pd.discharge ∧ !s.driven 8 then
      let s := (s.discharging false).updPd fun x => { x with vbus := false }
      if s.pd.hardStage = 2 then (s.updPd fun x => { x with hardStage := 3 }).start .pdRecover else s
     else s)

/-- R253. tSrcRecover after vSafe0V the Source restores VBUS, and VCONN under R247. -/
def execSrcRecoverTimer (s : State) : Ans :=
  .next
    (if s.isSource ∧ s.pd.hardStage = 3 ∧ s.due .pdRecover (msec 660) then
      let s := ((s.stop .pdRecover).updPd fun x => { x with hardStage := 0 }).request 8 true
      if s.pd.ra ∧ s.get (pdCfg 0x0E) = 1 ∧ !s.pd.vconnCut then s.vconn true else s
     else s)

end Sys2Proof.Machine
end

