-- ==== Sys2Proof/Machine/Power.lean ====
section
/-!
DEFINITION. Power entry: feeds, inlet, breakers, rails and their commands (R363-R386).
-/

set_option Elab.async false

namespace Sys2Proof.Machine

open Sys2Proof

/-- R364. A feed has been above or below FeedUv for t_FD, or its diode starts conducting. -/
def execFeedStateChange (feed mv vor : Nat) (s : State) : Ans :=
  onUnit (decide (feed < 2)) (s.feedGo feed (s.feedNow feed mv vor) mv)

/-- R364. The current of a conducting feed reverses and its diode turns off, journalled at most once per second. -/
def execFeedReverseCurrent (feed mv vor : Nat) (s : State) : Ans :=
  onUnit (decide (feed < 2))
    (if s.feedState feed = 2 ∧ mv + 10 < vor then
      ((s.feedGo feed 1 mv).count (peStat (9 + feed)) 1).turnOff feed
     else s)

/-- R365, R366. VOR falls below 6.0 V: PD1 stops and the inlet turns off, which is no trip. -/
def execVorBelowMinimum (vor : Nat) (s : State) : Ans := .next (if vor < 6000 then s.vorGone else s)

/-- R365. HOLDUP below 10.0 V, 100 ms after VOR has become good. -/
def execHoldupCheck (mv : Nat) (s : State) : Ans :=
  .next
    (if s.due .holdUp (msec 50) then
      let s := s.stop .holdUp
      if mv < 10000 then s.pwrEv 0xD012 0 2 291 (u16 0 ++ u16 mv) else s
     else s)

/-- R366. VOR has been at or above InletUvOn for t_INS without falling below InletUvOff: the inlet is requested, after
an over-voltage only from 1 V below InletOv. -/
def execInletDebounceComplete (vor : Nat) (s : State) : Ans :=
  .next
    (let ov := s.get (peCfg 6)
     if s.wanted 9 ∨ vor < s.get (peCfg 5) ∨ ov ≤ vor ∨ (s.power.overV ∧ ov < vor + 1000) then s
     else
      let s := (s.request 9 true).start .holdUp
      { s with power := { s.power with overV := false } })

/-- R366. VOR at or above InletOv: the inlet's gate turns off. -/
def execInletOvervoltage (vor : Nat) (s : State) : Ans :=
  .next
    (if s.get (peCfg 6) ≤ vor then
      let was := s.driven 9
      let s := s.inletOff.request 9 false
      let s := { s with power := { s.power with overV := true } }
      if was then (s.count (peStat 0x0C) 1).pwrEv 0xD011 0 3 290 (u16 0 ++ u16 vor) else s
     else s)

/-- R366. VOR below InletUvOff for t_FD: the warning is raised and the gate stays on. -/
def execPowerFailWarning (vor : Nat) (s : State) : Ans :=
  .next
    (if vor < s.get (peCfg 5) then (s.count (peStat 0x0B) 1).pwrEv 0xD010 0 3 290 (u16 0 ++ u16 vor) else s)

/-- R367, R372. A standing on-request ramps an Off breaker. -/
def execBreakerOnRequest (c : Nat) (s : State) : Ans :=
  onPort s (fun q => q.hasBreaker c) (if s.wanted c ∧ s.breaker c = 0 then s.breakerRamp c else s)

/-- R372. A breaker whose on-request is gone turns off; the inlet takes the card's power with it. -/
def execBreakerRequestWithdrawn (c : Nat) (s : State) : Ans :=
  onPort s (fun q => q.hasBreaker c)
    (if !s.wanted c ∧ s.driven c then
      if c = 9 then s.inletOff
      else
        let s := s.breakerOff c
        if c < 8 then s.portChannelOff c else s
     else s)

/-- R367. The gate is fully enhanced: On, and power-good; the inlet's starts the rail sequence. -/
def execBreakerFullEnhancement (c : Nat) (s : State) : Ans :=
  onPort s (fun q => q.hasBreaker c)
    (if s.breaker c = 1 then
      let s := ((s.set (brStat c 1) 2).stop (.ramp c)).start (.onTime c)
      if c < 8 then s.portPowerGood c
      else if c = 8 then s.svcPowerGood
      else
        let s := { s with power := { s.power with kind := 1, groupGood := false } }
        (s.set (peStat 8) 0).start .rail
     else s)

/-- R367. Not On within RampTimeout: a trip with cause 4. -/
def execBreakerRampTimeout (c ma : Nat) (temp : Int) (s : State) : Ans :=
  onPort s (fun q => q.hasBreaker c)
    (if s.breaker c = 1 ∧ s.due (.ramp c) (msec (s.get (brCfg c 4))) then s.tripNow c 4 0 ma temp else s)

/-- R368. The current has been above a curve level for the point's time: a trip with cause 2. -/
def execBreakerCurveTrip (c point ma : Nat) (temp : Int) (s : State) : Ans :=
  onPort s (fun q => q.hasBreaker c)
    (if s.breaker c = 2 ∧ point < 8 ∧ s.get (brCfg c (0x0E + point)) * s.get (brCfg c 1) / 1000 < ma then
      s.tripNow c 2 point ma temp else s)

/-- R369. A current above twice ContinuousLimit trips in every state that drives the gate, with cause 1. -/
def execBreakerFastTrip (c ma : Nat) (temp : Int) (s : State) : Ans :=
  onPort s (fun q => q.hasBreaker c) (if 2 * s.get (brCfg c 1) < ma then s.tripNow c 1 0 ma temp else s)

/-- R370. A FET temperature above FetTempLimit trips with cause 3. -/
def execBreakerThermalTrip (c ma : Nat) (temp : Int) (s : State) : Ans :=
  onPort s (fun q => q.hasBreaker c)
    (if (10 * s.get (brCfg c 9) : Nat) < temp then s.tripNow c 3 0 ma temp else s)

/-- R371. A channel's output more than 50 mV above its input rail trips with cause 5. -/
def execBreakerReverseCurrent (c ma : Nat) (temp : Int) (s : State) : Ans :=
  onPort s (fun q => q.hasBreaker c) (if c < 9 then s.tripNow c 5 0 ma temp else s)

/-- R372. The retry timer of a Tripped breaker has expired and the FET is cool: a requested breaker ramps again, and
channel 8 may be requested again (R252). -/
def execBreakerRetryTimer (c : Nat) (temp : Int) (s : State) : Ans :=
  onPort s (fun q => q.hasBreaker c)
    (if s.breaker c = 3 ∧ s.retryDue c ∧ temp ≤ (10 * s.get (brCfg c 0x0A) : Nat) then
      let s := if c = 8 then s.svcReturn else s
      if s.wanted c then s.retryBreaker c temp else s
     else s)

/-- R372. A breaker has been On for RetryResetTime without a trip. -/
def execRetryResetTimeExpired (c : Nat) (s : State) : Ans :=
  onPort s (fun q => q.hasBreaker c)
    (if s.breaker c = 2 ∧ s.due (.onTime c) (sec (s.get (brCfg c 0x0D))) then
      (s.set (brStat c 7) 0).stop (.onTime c) else s)

/-- R372. RetryCount written at or below RetriesUsed locks a Tripped breaker out. -/
def execRetryCountWrite (path : Path) (c value : Nat) (s : State) : Ans :=
  onPath path (decide (c < 10)) s
    (s.writeNum path (0x4110 + c) 0x0B value [] fun s =>
      let s := s.set (brCfg c 0x0B) value
      if s.breaker c = 3 ∧ value ≤ s.get (brStat c 7) then (s.set (brStat c 1) 4).stop (.retry c) else s)

/-- R372. INLET_RESTART_N held low for 10 ms clears an inlet lockout. -/
def execInletRestart (s : State) : Ans := .next (if s.breaker 9 = 4 then s.breakerReset 9 2 else s)

/-- What an NTC of so many ohms reads as (R363): 1 valid, 2 open, 3 short. -/
def ntcState (ohms : Nat) : Nat := if 400000 < ohms then 2 else if ohms < 200 then 3 else 1

/-- R363, R370. The NTC of a breaker in use has come to a resistance: open or short, the model alone is used from then
on. -/
def execFetSensorFault (c ohms : Nat) (s : State) : Ans :=
  onPort s (fun q => q.hasBreaker c)
    (let state := ntcState ohms
     if s.get (brCfg c 5) = 0 ∨ max 1 (s.get (brStat c 6)) = state then s
     else
      let s := s.set (brStat c 6) state
      if state = 1 then s else s.pwrEv 0xD030 c 2 303 (u16 c ++ u8 state))

/-- R384. BreakerStatus command 1: the breaker returns to Off; of kind 6 in Off, Ramping and On (R377). -/
def execBreakerReset (path : Path) (c : Nat) (s : State) : Ans :=
  onPath path (decide (c < 10)) s
    (s.commandNow path (0x4120 + c) 1 anyState [1, 2, 3] (kindIf (decide (s.breaker c < 3)) 6) 0 fun s =>
      let s := s.breakerReset c 1
      if c = 8 then s.svcReturn else s)

/-- R384. BreakerStatus command 2 ramps a Waiting breaker: Result 1 too hot, 2 no on-request. -/
def execBreakerRetryNow (path : Path) (c : Nat) (temp : Int) (s : State) : Ans :=
  onPath path (decide (c < 10)) s
    (s.command path (0x4120 + c) 2 anyState [1, 2, 3] (kindIf (decide (s.breaker c ≠ 5)) 6) fun s =>
      if (10 * s.get (brCfg c 0x0A) : Nat) < temp then s.cmdFail (0x4120 + c) 1
      else if !s.wanted c then s.cmdFail (0x4120 + c) 2
      else (s.retryBreaker c temp).cmdCommit (0x4120 + c) 0)

/-- R384. BreakerStatus command 3 clears TripCount and PeakCurrent. -/
def execBreakerClearCounters (path : Path) (c : Nat) (s : State) : Ans :=
  onPath path (decide (c < 10)) s
    (s.commandNow path (0x4120 + c) 3 anyState [1, 2, 3] [] 0 fun s => s.clear [brStat c 9, brStat c 0x0E])

/-- R382. PowerEntryStatus command 1 clears 0x09–0x0C. -/
def execPowerEntryClearCounters (path : Path) (s : State) : Ans :=
  onPath path true s (s.commandNow path 0x4101 1 anyState [1] [] 0 fun s => s.clear [peStat 9, peStat 0x0A, peStat 0x0B, peStat 0x0C])

/-- What PD0 loses at a cold start (R353, R374): the guard die starts on the factory defaults, every breaker Off with its
state lost, and the tamper latches gone; a recorded decommission request stays. -/
def State.coldStart (s : State) : State :=
  let s := s.toReset 1 true
  let s := { s with
    objs := []
    timers := []
    power := { lost := true }
    secu := { s.secu with cold := true, latched := 0, lock := false, asleep := [], actions := [] } }
  forAll (fun (c : Nat) s => s.set (brStat c 0x0D) 1) ((upTo 10).filter s.part.hasBreaker) s

/-- R374. HOLDUP has fallen below 3.0 V with VOR absent, and PD0 starts cold: possible only while the inlet is not
requested. -/
def execPd0ColdStart (s : State) : Ans :=
  .next (if s.dev = devReset ∧ !s.wanted 9 then s.coldStart else s)

/-- R378. 1 ms after the inlet is On, or t_SEQ after the previous group is good, the next group is enabled. -/
def execRailGroupEnable (s : State) : Ans :=
  .next
    (let q := s.seqState
     if s.breaker 9 = 2 ∧ q < 4 ∧ (q = 0 ∨ s.power.groupGood) ∧ s.due .rail (msec 1) then
      let s := ((s.set (peStat 8) (q + 1)).stop .rail).start .railGood
      ({ s with power := { s.power with groupGood := false } }).send (.pin (enablePin (q + 1)) 1)
     else s)

/-- R378. Every rail of the ramping group is good: the next delay starts, and after group 4 the reset's release
follows. -/
def execRailGroupGood (s : State) : Ans :=
  .next
    (let q := s.seqState
     if 1 ≤ q ∧ q ≤ 4 ∧ s.timing .railGood then
      let s := (s.set (railKey 8) ((groupRails q).foldl setBit (s.get (railKey 8)))).stop .railGood
      let s := { s with power := { s.power with groupGood := true } }
      if q = 4 then (s.set (peStat 8) 5).start .resetRelease else s.start .rail
     else s)

/-- R378. A group is not good within t_GRP: the enables drop and the sequence has failed. -/
def execRailGroupTimeout (s : State) : Ans :=
  .next
    (let q := s.seqState
     if 1 ≤ q ∧ q ≤ 4 ∧ s.due .railGood (msec 10) then
      let good := s.get (railKey 8)
      (s.railsOff 6).pwrEv 0xD041 0 3 292 (u16 0 ++ u8 q ++ u8 good)
     else s)

/-- R379. A rail has been outside its window for t_RF: over-voltage cuts the rails off; under-voltage resets the hub or
isolates the enabled domains that take the rail. -/
def execRailFault (rail : Nat) (overV : Bool) (mv : Nat) (s : State) : Ans :=
  onUnit (decide (rail < 7))
    (let (low, high) := railWindow rail
     if s.seqState = 5 ∧ (if overV then decide (high < 10 * mv) else decide (10 * mv < low)) then
      let s := (s.count (railKey 9) 1).set (railKey 0x0A) (rail + 1)
      let note (s : State) : State := s.pwrEv 0xD040 (rail + 1) 3 292 (u16 (rail + 1) ++ u8 (if overV then 2 else 1) ++ u16 mv)
      let bad (s : State) : State := s.set (railKey 8) (clrBit (s.get (railKey 8)) rail)
      if overV then note ((s.toReset 3 false).railsOff 6)
      else if rail = 0 ∨ rail = 5 ∨ rail = 6 then note (bad (s.toReset 3 false))
      else
        note (forAll (fun dom s => s.domainDown dom 3)
          ((railDomains rail).filter fun dom => s.flag (enKey dom) && s.domainOn dom) (bad s))
     else s)

end Sys2Proof.Machine
end

