-- ==== Sys2Proof/Machine/Sched.lean ====
section
/-!
DEFINITION. The commands of the schedulers: cycles, cell times, table switches and carve (R150-R168).
-/

set_option Elab.async false

namespace Sys2Proof.Machine

open Sys2Proof

/-- The cycle may start: the one before has ended, and the hub's clock has reached its start (R150, R158). -/
def State.cycleDue (s : State) (t : Nat) : Bool :=
  let x := s.sched t
  s.trained t && x.places.isEmpty && decide (x.due + x.late * s.get (tk t 1 7) ≤ s.clock * 1000)

/-- Cycles in which a watched tunnel brought nothing are counted (R416), at the cycle starts of its first trunk. -/
def State.watchCycle (s : State) (t : Nat) : State :=
  forAll (fun k s =>
    let n := s.get (ob 0x4410 (k + 1))
    if n ≠ 0 ∧ s.tstate n = 3 ∧ (s.trunksOf n).headD 4 = t then
      s.updTun n fun x => { x with quiet := if x.heard then 0 else x.quiet + 1, silent := x.silent && !x.heard, heard := false }
    else s) (upTo 32) s

/-- In Verify a marker is due in each 125 µs of station time (R79, R150). -/
def State.verifyDue (s : State) (t : Nat) : Bool :=
  let x := s.trunk t
  decide (s.train t = 7) && !x.markDue && decide (x.markerTx / 125000 ≠ s.station / 125000)

/-- R150. A trunk's cycle starts: station time's corrections are followed, shapers refilled, a due table switch takes
effect, and what leaves once a cycle is queued. In Verify its marker is all that it brings (R79). -/
def execSchedCycleStart (t : Nat) (s : State) : Ans :=
  onPort s (fun q => q.hasTrunk t)
    (if s.verifyDue t then s.verifyCycle t
     else if s.cycleDue t then
      let s := ((s.followTime t).startCycle t).markCycle t
      ((s.pushCycle t).flushRecords t).watchCycle t
     else s)

/-- R151. One cell time of a running cycle: its place takes the first alternative that has a cell ready. `ecc` is what the
read of the buffer finds: 0 clean, 1 corrected, 2 uncorrectable. In Verify the trunk sends idle cells (R79). -/
def execSchedCellTime (t ecc : Nat) (s : State) : Ans :=
  onPort s (fun q => q.hasTrunk t)
    (if s.trained t then (s.cellTime t ecc).retrainCheck t else if s.train t = 7 then s.idleCell t else s)

/-- The cycle of a switch commanded now (R155): the first multiple of 8 at least SwitchLead cycles ahead. The number 0 reads
as none, so a switch that would fall on it takes the next multiple (log entry 207). -/
def State.switchCycle (s : State) (t : Nat) : Nat :=
  let x := ((s.trunk t).cycle + s.get (ob (0x2610 + t) 0x41) + 7) / 8 * 8 % 2 ^ 32
  if x = 0 then 8 else x

/-- R155. GateTableNext command 1: the owner checks the next table and announces the switch cycle; without a Trained trunk
the table becomes active at the next cycle start. -/
def execGateTableSwitch (path : Path) (t : Nat) (s : State) : Ans :=
  let i := 0x2610 + t
  onPath path (decide (t < 4)) s
    (s.command path i 1 anyState [1] [] fun s =>
      let es := s.table i
      if !s.ownsSchedule t then s.switchFails t 5
      else if tableRule es ≠ 0 then s.switchFails t (tableRule es)
      else if s.trained t then
        let x := s.switchCycle t
        (s.updSched t fun y => { y with switch := x, next := es }).set (ob (0x2618 + t) 4) x
      else s.updSched t fun y => { y with switch := 0, next := es })

/-- R156. Differing schedule versions for more than 8 consecutive cycles are journalled; neither end changes anything. -/
def execSchedVersionMismatch (t : Nat) (s : State) : Ans :=
  onPort s (fun q => q.hasTrunk t)
    (if s.trained t ∧ 8 < (s.sched t).mismatch ∧ s.get (ob (0x2618 + t) 0x0F) = 1 then
      (s.set (ob (0x2618 + t) 0x0F) 0).schedRate 0x5010 t 2 1 t
        (u32 (tableVersion (s.table (0x2614 + t))) ++ u32 (s.get (ob (0x2618 + t) 3))) []
     else s)

/-- R165. At the start of each 8-cycle epoch carve computes the best-effort shares. -/
def execCarveEpoch (t : Nat) (s : State) : Ans :=
  onPort s (fun q => q.hasTrunk t) (if s.trained t ∧ (s.sched t).epoch then s.carve t else s)

end Sys2Proof.Machine
end

