-- ==== Sys2Proof/Machine/Start.lean ====
section
/-!
DEFINITION. The commands of resets, Boot, device states, islands and the die-to-die link (R6-R18, R439-R452).
-/

set_option Elab.async false

namespace Sys2Proof.Machine

open Sys2Proof

/-- R7, R452. Reset is asserted by RESET_N (`card`), or by a supply below its threshold; a RESET_N pulse lets a failed
rail sequence start again (R378). -/
def execResetAsserted (card : Bool) (s : State) : Ans :=
  .next
    (if s.dev ≠ devReset then s.toReset (if card then 2 else 3) false
     else if card ∧ s.seqState = 6 ∧ s.breaker 9 = 2 then
      (s.setAll [(peStat 8, 0)]).start .rail
     else if card ∧ s.seqState = 5 then { s with power := { s.power with kind := 2 } }
     else s)

/-- R7, R339, R439. Reset is released with supplies good, t_RR after the last rail group: straps are sampled and the ROM
runs. `rootTest` tells how a generation of the root goes: 1 its health test fails, 2 its read-back does not match. -/
def execResetReleased (straps : Straps) (rootTest : Nat) (s : State) : Ans :=
  .next
    (if s.dev = devReset ∧ s.seqState = 5 ∧ (!s.timing .resetRelease ∨ s.due .resetRelease (msec 2)) then
      s.bootStart straps.trueHead straps.liftN rootTest
     else s)

/-- R444. Keys restored, configuration chosen and the domains started: Ilkai declares itself started. -/
def execIlkaiDeclaredStarted (s : State) : Ans :=
  .next (if s.dev = devBoot ∧ s.boot.domains = [] then s.declared else s)

/-- R444. Pair A has not declared itself started within t_BWD: a failed boot with cause 6 and reset kind 4. -/
def execBootWatchdogExpired (s : State) : Ans :=
  .next
    (if s.dev = devBoot ∧ s.due .bootWatchdog (sec 20) then
      let s := s.updBoot fun x => { x with failed := x.failed + 1, failCause := 6 }
      (s.note 0xF003 3 (u16 s.boot.lastSlot ++ u8 6 ++ u32 s.boot.version)).toReset 4 false
     else s)

/-- R7. A StateRequest of Setup drains every data tunnel first. -/
def execStateRequestSetup (path : Path) (s : State) : Ans := onPath path true s (s.askState path devSetup)

/-- R7. A StateRequest of Run. -/
def execStateRequestRun (path : Path) (s : State) : Ans := onPath path true s (s.askState path devRun)

/-- R7. A StateRequest of Maintain. -/
def execStateRequestMaintain (path : Path) (s : State) : Ans := onPath path true s (s.askState path devMaintain)

/-- R7, R8. The drains of a transition to Setup have ended: Setup is reported, and held requests are judged. -/
def execSetupTransitionComplete (s : State) : Ans :=
  .next
    (if s.flag (ob 0x2000 4) ∧ s.liveTunnels = [] then
      let s := (s.set (ob 0x2000 4) 0).enterState devSetup
      s.heldRequests s.stateHeld.length
     else s)

/-- R17, R18. A watched island has stopped for 10 µs; `fifo` are the cells found in its crossing FIFOs, by fabric port and
class. -/
def execIslandWatchdogExpired (isl : Nat) (fifo : List (Nat × Nat)) (s : State) : Ans :=
  onUnit (decide (isl < 18))
    (if s.dev = devReset ∨ !s.islandWatched isl then s
     else (s.islandStop isl (islandPartner isl)).crossingLost isl fifo)

/-- R12. A die-to-die frame: a good one restarts the frame timer, a bad one is asked for again. -/
def execD2dFrameReceived (good : Bool) (s : State) : Ans :=
  .next
    (if s.dev = devReset then s
     else if good then ((s.updSafety fun x => { x with link := true }).start .d2d).pulse
     else s.send .d2dRepeat)

/-- R12. The link has delivered no valid frame for 10 µs: it counts as a stopped island. The numbers that its entry names
for the link and for its partner are free (log entry 19). -/
def execD2dLinkTimeout (s : State) : Ans :=
  .next
    (if s.dev ≠ devReset ∧ s.due .d2d 10000 then
      let s := ((s.updSafety fun x => { x with link := false }).stop .d2d).pulse
      s.islandStop (Config.code 0xE002 18 % 65536) (Config.code 0xE002 19 % 65536)
     else s)

end Sys2Proof.Machine
end

