-- ==== Sys2Proof/Machine/Svc.lean ====
section
/-!
DEFINITION. The commands of the service-port device (R231-R235, R239-R240).
-/

set_option Elab.async false

namespace Sys2Proof.Machine

open Sys2Proof

/-- The service-port device is on the bus, in one of the states from `a` to `b` of R239. -/
def State.svcIn (s : State) (a b : Nat) : Bool := decide (a ≤ s.svcState ∧ s.svcState ≤ b)

/-- R231. The conditions of an attach hold: the pull-up is connected, at the speed that MaxSpeed allows. -/
def execSvcDeviceAttach (s : State) : Ans :=
  .next
    (if s.svcState = 0 ∧ s.svcMay then
      let fast := decide (s.get (ob 0x2A20 2) = 0)
      let s := s.updSvc fun x => { x with
        fast, wakeCap := s.flag (ob 0x2A20 5), app := s.flag (ob 0x2A20 6) }
      (s.svcGo 1).send (.svcPull true fast)
     else s)

/-- R231. A condition of the attach is lost. -/
def execSvcDeviceDetach (s : State) : Ans := .next (if s.svcMay then s else s.svcDetach)

/-- R233, R234. A bus reset: Default, toggles and halts cleared; a control transfer and a partial EP1 request are
abandoned; the session is kept. DFU mode is entered or left here (R447). -/
def execSvcBusReset (hs : Bool) (s : State) : Ans :=
  .next
    (if 1 ≤ s.svcState then
      let x := s.svc
      let dfu :=
        match x.detach with
        | some c => if s.clock ≤ c + sec 1 then true else x.dfu
        | none => x.dfu && !(decide (s.get (ob 0x6001 6) = 2 ∧ s.get (ob 0x6001 1) = 2) || decide (s.get (ob 0x6001 6) = 10))
      let s := s.setAll [(svcStat 2, 0), (svcStat 3, if hs ∧ x.fast then 1 else 2), (svcStat 8, s.station)]
      let s := ((s.count (svcStat 4) 1).freshEps (0 :: faceEps 0 ++ faceEps 2)).svcGo 2
      let s := s.updSvc fun x => { x with
        setup := none, stall := false, config := false, wakeOn := false, rx := [], inQ := [], detach := none, dfu }
      let s := if dfu = x.dfu then s else s.setAll [(ob 0x6001 6, if dfu then 2 else 0), (ob 0x6001 7, 0)]
      s.ev 0x7061 0 1 161 (u16 0 ++ u16 (ofBool x.setup.isSome) ++ u16 (ofBool (decide (x.rx ≠ []))))
     else s)

/-- R233, R234. A SETUP on EP0 begins a control transfer; an earlier one is abandoned without effect. -/
def execSvcSetupReceived (setup : Bytes) (s : State) : Ans :=
  .next
    (if s.svcIn 2 4 ∧ setup.length = 8 then
      let s := s.count (svcStat 5) 1
      let s := if s.svc.setup.isSome then s.count (svcStat 6) 1 else s
      let answer := s.svcRequest setup
      let data := (answer.getD []).take (leAt setup 6 2)
      let s := s.setAll [(toggleKey 0 false, 1), (toggleKey 0 true, 1)]
      let s := s.updSvc fun x => { x with setup := some setup, stall := answer.isNone, inQ := Sparse.put [] 0 [] x.inQ }
      if data = [] then s else s.svcQueue 0 (packets 64 (data.length / 64) data)
     else s)

/-- The port's test mode starts, by its selector, or ends with 0 (R216, R231). -/
def State.svcTest (s : State) (selector : Nat) : State :=
  (s.updSvc fun x => { x with test := selector }).send (.svcTest selector)

/-- What a control request does when its status stage completes (R231, R447). -/
def State.svcEffect (s : State) (b : Bytes) : State :=
  let rt := byteAt b 0
  let rq := byteAt b 1
  let v := leAt b 2 2
  let ix := leAt b 4 2
  if rt = 0x00 ∧ rq = 5 then s.svcAddress v
  else if rt = 0x00 ∧ rq = 9 then s.svcConfigure v
  else if rt = 0x00 ∧ (rq = 1 ∨ rq = 3) ∧ v = 1 then s.updSvc fun x => { x with wakeOn := decide (rq = 3) }
  else if rt = 0x00 ∧ (rq = 1 ∨ rq = 3) ∧ v = 2 then s.svcTest (if rq = 3 then ix / 256 else 0)
  else if rt = 0x01 ∧ rq = 11 then s.svcInterface ix v
  else if rt = 0x02 ∧ (rq = 1 ∨ rq = 3) then s.svcHalt (ix % 16) (decide (128 ≤ ix % 256)) (decide (rq = 3))
  else if rt = 0x21 ∧ rq = 4 then s.setAll [(ob 0x6001 7, 0), (ob 0x6001 6, 2)]
  else if rt = 0x21 ∧ rq = 6 then
    let s := s.set (ob 0x6001 6) 2
    if s.cmdRuns 0x6001 ∧ (s.cmd 0x6001).value = 1 then
      ((s.cmdFail 0x6001 5).set (ob 0x6001 1) 3).ev 0xF011 0 2 0 (u16 0 ++ u16 5)
    else s
  else s

/-- R231. A control request's status stage completes and the request takes effect. -/
def execSvcStatusStageComplete (s : State) : Ans :=
  .next
    (match s.svc.setup with
     | some b =>
      let done := s.updSvc fun x => { x with setup := none }
      if s.svc.stall then done else done.svcEffect b
     | none => s)

/-- R231. SET_ADDRESS takes effect. -/
def execSvcSetAddress (addr : Nat) (s : State) : Ans :=
  .next ((s.updSvc fun x => { x with setup := none }).svcAddress addr)

/-- R233. SET_CONFIGURATION takes effect. -/
def execSvcSetConfiguration (value : Nat) (s : State) : Ans :=
  .next ((s.updSvc fun x => { x with setup := none }).svcConfigure value)

/-- R233. SET_INTERFACE takes effect; only alternate setting 0 exists. -/
def execSvcSetInterface (face alt : Nat) (s : State) : Ans :=
  .next ((s.updSvc fun x => { x with setup := none }).svcInterface face alt)

/-- R233. SET_FEATURE(ENDPOINT_HALT): STALL to every token, the toggle kept. -/
def execSvcSetEndpointHalt (ep : Nat) (isIn : Bool) (s : State) : Ans :=
  onUnit (decide (ep < 16)) ((s.updSvc fun x => { x with setup := none }).svcHalt ep isIn true)

/-- R233. CLEAR_FEATURE(ENDPOINT_HALT): the direction is DATA0 and not halted. -/
def execSvcClearEndpointHalt (ep : Nat) (isIn : Bool) (s : State) : Ans :=
  onUnit (decide (ep < 16)) ((s.updSvc fun x => { x with setup := none }).svcHalt ep isIn false)

/-- Data of an accepted OUT packet: EP1's go to the request being received, which a short packet ends (R47); those of
EP2-EP15 wait in their buffer for pair B (R393). -/
def State.svcStore (s : State) (e : Nat) (data : Bytes) : State :=
  if e = 0 then s
  else if e = 1 then
    if data.length < s.epMax 1 false then s.updSvc fun x => { x with rx := [], complete := x.complete ++ [x.rx ++ data] }
    else s.updSvc fun x => { x with rx := x.rx ++ data }
  else ((s.setSvcBuf e false (s.svcTurn e false) { full := true, data }).nextTurn e false).raise 19

/-- R233, R393. An OUT data packet with PID DATA0 or DATA1 on an endpoint. -/
def execSvcOutPacket (ep pid : Nat) (data : Bytes) (s : State) : Ans :=
  onUnit (decide (ep < 16))
    (if !s.svcIn 2 4 ∨ !s.epOn ep false ∨ s.epMax ep false < data.length then s
     else
      let free := decide (ep ≤ 1) || !(s.svcBuf ep false (s.svcTurn ep false)).full
      if 2 ≤ ep ∧ s.scfg ep 2 = 1 then if free then s.svcStore ep data else s
      else if s.flag (haltKey ep false) ∨ (ep = 0 ∧ s.svc.stall) then s.send (.svcAnswer ep 2 [])
      else if pid ≠ s.get (toggleKey ep false) then s.send (.svcAnswer ep 0 [])
      else if free then
        let s := (s.set (toggleKey ep false) (1 - s.get (toggleKey ep false))).send (.svcAnswer ep 0 [])
        s.svcStore ep data
      else s.send (.svcAnswer ep 1 []))

/-- The packet that answers an IN token, if there is one (R233, R393). -/
def State.svcReady (s : State) (e : Nat) : Option Bytes :=
  if e ≤ 1 then (Sparse.get [] s.svc.inQ e).head?
  else
    let b := s.svcBuf e true (s.svcTurn e true)
    if b.full then some b.data else none

/-- That packet has reached the host. -/
def State.svcSent (s : State) (e : Nat) : State :=
  if e ≤ 1 then s.updSvc fun x => { x with inQ := Sparse.put [] e (Sparse.get [] x.inQ e).tail x.inQ }
  else ((s.setSvcBuf e true (s.svcTurn e true) {}).nextTurn e true).raise 20

/-- R233, R393. An IN token: data, NAK or STALL; the toggle advances on ACK. -/
def execSvcInToken (ep : Nat) (acked : Bool) (s : State) : Ans :=
  onUnit (decide (ep < 16))
    (if !s.svcIn 2 4 ∨ !s.epOn ep true then s
     else
      let iso := decide (2 ≤ ep ∧ s.scfg ep 8 = 1)
      if !iso ∧ (s.flag (haltKey ep true) ∨ (ep = 0 ∧ s.svc.stall)) then s.send (.svcAnswer ep 2 [])
      else
        match s.svcReady ep with
        | none => if iso then s.send (.svcAnswer ep 3 []) else s.send (.svcAnswer ep 1 [])
        | some d =>
          let s := s.send (.svcAnswer ep 3 d)
          if iso then s.svcSent ep
          else if acked then (s.set (toggleKey ep true) (1 - s.get (toggleKey ep true))).svcSent ep
          else s)

/-- R235. The bus has been idle for t_SUS. -/
def execSvcSuspendDetected (s : State) : Ans :=
  .next
    (if s.svcIn 1 4 then (s.updSvc fun x => { x with before := s.svcState }).svcGo 5 else s)

/-- R234. The service-port host drives resume K. -/
def execSvcHostResume (s : State) : Ans := .next (if s.svcState = 5 then s.svcGo s.svc.before else s)

/-- R239, R234. ServiceDeviceStatus command 1, in Suspended with remote wake enabled: K is driven; where the host's K is
seen first it ends with Result 1. -/
def execSvcRemoteWake (path : Path) (hostFirst : Bool) (s : State) : Ans :=
  onPath path true s
    (s.command path 0x2A21 1 anyState [1] (kindIf (decide (s.svcState ≠ 5) || !s.svc.wakeOn) 6) fun s =>
      let s := if hostFirst then s.cmdFail 0x2A21 1 else (s.send .svcK).cmdCommit 0x2A21 0
      s.raise 163)

/-- R232. A write to DeviceEnable: 1 checks the endpoint memory plan and takes it. -/
def execSvcDeviceEnableWrite (path : Path) (value : Nat) (s : State) : Ans :=
  onPath path true s
    (s.writeNum path 0x2A20 1 value (kindIf (decide (value = 1) && s.planBad) 7) fun s =>
      let s := s.set (ob 0x2A20 1) value
      if value = 1 then s.takePlan else s)

end Sys2Proof.Machine
end

