-- ==== Sys2Proof/Machine/Time.lean ====
section
/-!
DEFINITION. The commands of station time: IRIG-B, 1PPS, the source, faults, TimeControl and time-status messages
(R267-R278, R288).
-/

set_option Elab.async false

namespace Sys2Proof.Machine

open Sys2Proof

/-- Consecutive IRIG-B frames that are missing or failed decode (R268): one a second is due, and one whose second has passed
without it is missing. -/
def State.irigFailing (s : State) : Nat :=
  s.time.irigBad + ((s.clock - max s.time.irigAt s.time.sampleAt) / 1000000000 - 1)

/-- R275. An IRIG-B frame gives a time sample, or is counted in error. `stamp` is the station time of its on-time
point. -/
def execIrigFrameReceived (stamp : Nat) (irig : Irig) (s : State) : Ans :=
  onPort s (fun q => q.qh34)
    (let on := decide (s.tmSource = 3)
     if !s.reach then s
     else if !irig.good then
       let s := (s.count (ob 0x2F01 0x0B) 1).inputErrors 1 0 0
       if on then s.updTime fun x => { x with irigBad := s.irigFailing + 1, irigAt := s.clock } else s
     else
       let c37 := decide (s.get (ob 0x2F00 0x0A) = 1)
       let s := s.updTime fun x => { x with irigBad := 0, irigAt := s.clock }
       if !on then s
       else if c37 && decide (irig.quality = 15) then s.sourceLost 4
       else
         let leap : Int := if irig.leapPending then (if irig.leapDelete then -1 else 1) else 0
         let s := if c37 then s.set (ob 0x2F00 4) (sput 8 leap) else s
         s.sample ((stamp : Int) - s.irigTime irig) (sec 1))

/-- R276. An edge at PPS_IN gives a time sample. -/
def execPpsInEdge (rising : Bool) (s : State) : Ans :=
  .next (if s.tmSource = 4 ∧ rising = decide (s.get (ob 0x2F00 0x0E) = 0) then s.sample (fromSecond s.station) (sec 1) else s)

/-- R276. PPS_OUT rises at a whole TAI second while time is valid and PpsOutEnable is 1; station time may pass the second by
the 1 ns that its rate adds. -/
def execPpsOutSecond (s : State) : Ans :=
  .next (if s.timeValid ∧ s.get (ob 0x2F00 0x0C) = 1 ∧ s.station % 1000000000 < 2 ∧ !s.time.pps then
    (s.updTime fun x => { x with pps := true, ppsAt := s.clock }).send
      (.pin "PPS_OUT" 1)
   else s)

/-- R276. PPS_OUT falls after PpsOutWidth. -/
def execPpsOutWidthEnd (s : State) : Ans :=
  .next (if s.time.pps ∧ s.time.ppsAt + msec (s.get (ob 0x2F00 0x0D)) ≤ s.clock then
    (s.updTime fun x => { x with pps := false }).send (.pin "PPS_OUT" 0)
   else s)

/-- The condition under which the selected source is lost, as a cause; 0 for none (R268). -/
def State.lossCause (s : State) : Nat :=
  let idle := s.clock - s.time.sampleAt
  match s.tmSource with
  | 1 => if sec 3 ≤ idle then 2 else 0
  | 2 => if !s.trained s.tmPort then 1 else if 8 ≤ (s.plt s.tmPort).missed then 2 else 0
  | 3 => if 2 ≤ s.irigFailing then 2 else 0
  | 4 => if msec 1500 ≤ idle then 2 else 0
  | _ => 0

/-- R268. The selected source misses its samples: the time base enters Holdover or Free-running. -/
def execTimeSourceLost (s : State) : Ans :=
  .next (if s.time.valid ∧ s.lossCause ≠ 0 then
    let s := if s.tmSource = 4 then s.inputErrors 0 1 0 else s
    s.sourceLost s.lossCause
   else s)

/-- R269. HoldoverLimit elapses: the time base enters HoldoverExpired. -/
def execHoldoverLimitExpired (s : State) : Ans :=
  .next (if s.tmState = 3 ∧ s.time.holdAt + sec (s.get (ob 0x2F00 7)) ≤ s.clock then s.setTime 4 else s)

/-- R269. TimeSource or SourcePort is written and re-selects the source; the QH7-18 has no IRIG-B. -/
def execTimeSourceWrite (path : Path) (sub value : Nat) (s : State) : Ans :=
  onPath path (decide (sub = 1 ∨ sub = 2)) s
    (s.writeNum path 0x2F00 sub value (kindIf (decide (sub = 1 ∧ value = 3) && !s.part.qh34) 7) fun s =>
      (s.set (ob 0x2F00 sub) value).reselect sub)

/-- R278. A time-base fault is detected. The frequency word at its limit for 1 ms and |pl_offset| above PlOffsetLimit for 8
cycles are the hub's own counts; the others are detections of the clock circuits. -/
def execSf3Fault (cause : Nat) (s : State) : Ans :=
  let here :=
    match cause with
    | 4 => match s.time.limitSince with | some c => decide (c + msec 1 ≤ s.clock) | none => false
    | 5 => decide (s.tmSource = 2 ∧ 8 ≤ s.time.plFar)
    | c => decide (1 ≤ c ∧ c ≤ 6)
  .next (if here then s.timeFault cause else s)

/-- R288. TimeControl command 1 steps station time by the selected source's last offset. -/
def execTimeStep (path : Path) (s : State) : Ans :=
  onPath path true s (s.command path 0x2F00 1 anyState [1, 2, 3] [] fun s =>
    if s.hostMode 9 then s.cmdFail 0x2F00 2
    else if !s.time.valid ∨ !s.time.sampled then s.cmdFail 0x2F00 1
    else ((s.stepTime (-s.time.offset) 1).cmdCommit 0x2F00 0).leaveFault)

/-- R288. TimeControl command 2 sets station time to SetTimeValue. -/
def execTimeSet (path : Path) (s : State) : Ans :=
  onPath path true s (s.command path 0x2F00 2 anyState [1, 2, 3] [] fun s =>
    ((s.stepTime ((s.get (ob 0x2F03 1) : Int) - s.station) 1).cmdCommit 0x2F00 0).leaveFault)

/-- R288. TimeControl command 3 slews station time by HostPhase, in host mode. -/
def execTimeSlew (path : Path) (s : State) : Ans :=
  onPath path true s (s.command path 0x2F00 3 anyState [1, 2, 3] [] fun s =>
    if s.hostMode 9 then (s.slewTime (sget 32 (s.get (ob 0x2F03 3)))).cmdCommit 0x2F00 0 else s.cmdFail 0x2F00 2)

/-- R270. HostFrequency is written; in host mode the frequency word follows at once. -/
def execHostFrequencyWrite (path : Path) (value : Nat) (s : State) : Ans :=
  onPath path true s (s.writeNum path 0x2F03 2 value [] fun s =>
    let s := s.set (ob 0x2F03 2) value
    if s.hostMode 9 then s.setWord (sget 32 value) else s)

/-- R272. Every 8 cycles a time-status message is sent on tunnel 2 of a Trained trunk. -/
def execTimeStatusMessageSend (t : Nat) (s : State) : Ans :=
  let c := (s.trunk t).cycle
  onPort s (fun q => q.hasTrunk t)
    (if s.trained t && decide (c % 8 = 0) && decide ((s.plt t).statusSent ≠ some c) then
      (s.updPl t fun x => { x with statusSent := some c }).emit 2 [t] (s.newCell 2 0 s.timeStatus)
     else s)

/-- R272. A time-status message is stored in PlTime; the UTC fields of the source's trunk may take effect. -/
def execTimeStatusMessageReceived (t : Nat) (msg : Bytes) (s : State) : Ans :=
  onPort s (fun q => q.hasTrunk t)
    (if s.trained t then
      let old := s.utcOffset
      let s := s.setAll [(ob (0x2F04 + t) 6, byteAt msg 0), (ob (0x2F04 + t) 7, byteAt msg 2)]
      let s := s.updPl t fun x => { x with utc := some (leAt msg 4 2, byteAt msg 6 % 4), gm := leAt msg 8 8 }
      if s.utcOffset = old then s else s.timeEv 0x9051 1 5 (u16 s.utcOffset)
     else s)

/-- The trunk whose time-status message rules the UTC fields, if one does (R272). -/
def State.utcTrunk (s : State) : Option Nat :=
  if !s.head ∧ s.tmSource = 2 ∧ s.tmState = 2 ∧ (s.plt s.tmPort).utc.isSome then some s.tmPort else none

/-- R284. At the end of a UTC day with a leap pending in the UTC fields in force (R272) TaiUtcOffset changes there; station
time does not. -/
def execLeapSecond (s : State) : Ans :=
  let b := s.leapByte % 4
  let leap : Int := if b = 1 then 1 else if b = 3 then -1 else 0
  let o := sput 16 (sget 16 s.utcOffset + leap)
  .next (if leap = 0 ∨ 1000000000 ≤ ((s.station : Int) - sget 16 o * 1000000000) % (86400 * 1000000000) then s
   else
    let s := match s.utcTrunk with
      | some t => s.updPl t fun x => { x with utc := some (o, 0) }
      | none => s.setAll [(ob 0x2F00 3, o), (ob 0x2F00 4, 0)]
    s.timeEv 0x9051 1 5 (u16 o))

end Sys2Proof.Machine
end

