-- ==== Sys2Proof/Machine/Vanguri.lean ====
section
/-!
DEFINITION. The Vanguri statement and its two requests (R354, R355).
-/

set_option Elab.async false

namespace Sys2Proof.Machine

open Sys2Proof

/-- The measurement of the security configuration: the stored area 4 in use, with the tamper configuration (R354). -/
def State.areaMeasure (s : State) : Bytes :=
  let stored : Copy := s.boot.used4.getD {}
  fitBytes 48 (Config.areaDigest
    (stored.objs.filter (fun e => decide (keyArea e.1 = 4)) ++ (upTo 10).map fun k => (ob 0x4008 (k + 1), s.get (ob 0x4008 (k + 1))))
    (stored.strs.filter fun e => decide (keyArea e.1 = 4)))

/-- Bytes 0-359 of a statement over a nonce (R354). -/
def State.statementBody (s : State) (nonce : Bytes) : Bytes :=
  [0x56, 0x4E, 0x47, 0x52, 1] ++ u8 s.secu.life ++
  u8 (ofBool s.secu.lock + 2 * ofBool (decide (s.secu.latched ≠ 0)) + 4 * ofBool s.secu.cold +
    8 * ofBool (s.secu.decommission && decide (s.secu.life ≠ 3))) ++
  u8 s.dev ++ u32 (s.get (ob 0x1018 4)) ++ u32 (s.get (ob 0x1018 2)) ++ u64 s.station ++ u8 (s.jFlags % 4) ++
  u8 s.boot.lastSlot ++ u16 s.secu.latched ++ u32 s.secu.events ++ fitBytes 32 nonce ++ fitBytes 48 Config.romMeasure ++
  fitBytes 48 s.boot.measure ++ (if s.appRuns then fitBytes 48 s.app.measure else zeros 48) ++ s.areaMeasure ++
  u8 s.boot.rollback ++ zeros 7 ++ (if s.slotValid 0 then fitBytes 96 (Config.ecPublic (s.key 0)) else zeros 96)

/-- The status of a request (R355): 0 signed, 1 unsigned, 2 aborted by a tamper alarm while it was being signed. -/
def State.statementStatus (s : State) (cut : Bool) : Nat := if cut ∧ s.secu.blocked then 2 else if s.slotValid 0 then 0 else 1

/-- The 456 bytes of a statement (R354). -/
def State.statement (s : State) (nonce : Bytes) (status : Nat) : Bytes :=
  let body := s.statementBody nonce
  body ++ (if status = 0 then fitBytes 96 (Config.ecdsaSign (s.key 0) body) else zeros 96)

/-- A statement is made: counted when signed, and journalled at most once per second (R361, R362); `apart` tells the trunks
(0) from the paths (1). -/
def State.statementMade (s : State) (inst status by_ : Nat) (apart : Nat := 0) : State :=
  let s := if status = 0 then s.count (ob 0x4010 4) 1 else s
  (s.set (ob 0x4010 3) s.station).evRate 0xC050 inst 0 277 (sec 1) (u16 inst ++ u16 status ++ u16 by_) [1] [] apart

/-- The response to a request unit that trunk `t` brought (R355); `cut` tells that a tamper alarm came while it was being
signed. -/
def State.vanguriAnswer (s : State) (t : Nat) (msg : Bytes) (cut : Bool) : State :=
  let status := s.statementStatus cut
  let stmt := s.statement ((msg.drop 4).take 32) status
  let s := s.statementMade t status t
  let unit := u8 2 ++ u8 status ++ (msg.drop 2).take 2 ++ zeros 12 ++ stmt
  forAll (fun c s => s.emit 4 [t] c) (s.unitCells 4 7 0 236 false unit) s

/-- The Vanguri requests that wait on a trunk (R355). -/
def State.asksOf (s : State) (t : Nat) : List (Nat × Bytes × Bool) := s.secu.asks.filter fun e => decide (e.1 = t)

/-- R355. A request unit on tunnel 4 of a trunk: answered at once, or queued behind up to three others while the hub is
`busy` with an earlier statement; a fifth is discarded and counted. -/
def execVanguriRequest (t : Nat) (busy : Bool) (msg : Bytes) (cut : Bool) (s : State) : Ans :=
  onPort s (fun q => q.hasTrunk t)
    (if s.reach ∧ s.trained t ∧ byteAt msg 0 = 1 ∧ 36 ≤ msg.length then
      if 4 ≤ (s.asksOf t).length then s.count (ob 0x4010 5) 1
      else if busy ∨ s.asksOf t ≠ [] then { s with secu := { s.secu with asks := s.secu.asks ++ [(t, msg, cut)] } }
      else s.vanguriAnswer t msg cut
     else s)

/-- The oldest Vanguri request of a trunk is answered when Ilkai comes to it (R355; log entry 185). -/
def State.vanguriServe (s : State) (t : Nat) : State :=
  match s.asksOf t with
  | [] => s
  | e :: _ =>
    if s.reach ∧ s.trained t then
      ({ s with secu := { s.secu with asks := s.secu.asks.erase e } }).vanguriAnswer t e.2.1 e.2.2
    else s

/-- R355. Command 1 of Vanguri: a statement over the nonce of the caller's path and session slot. -/
def execVanguriSign (path : Path) (cut : Bool) (s : State) : Ans :=
  onPath path true s
    (s.command path 0x4010 1 anyState [1] [] fun s =>
      let status := s.statementStatus cut
      let held := heldIndex path.held 0x4010
      let stmt := s.statement (leBytes 32 (s.get (ob held 1))) status
      ((s.setStr (ob held 2) stmt).statementMade path.code status path.code 1).cmdCommit 0x4010 status)

end Sys2Proof.Machine
end

