-- ==== Sys2Proof/Machine/Access.lean ====
section
/-!
DEFINITION. A write of any object on any path (R37-R41, R49): the write reaches the meaning of the object's own command
where the table has one, and else is judged and stored with the effect its chapter gives.
-/

set_option Elab.async false

namespace Sys2Proof.Machine

open Sys2Proof

/-- The state that a meaning leaves, the state itself where it stops. -/
def State.after (s : State) (a : Ans) : State :=
  match a with
  | .next t => t
  | _ => s

/-- A Command value that the owner does not define: of kind 7, or of kind 6 outside the owner's states and conditions. -/
def State.noCommand (s : State) (p : Path) (i v : Nat) (states more : List Nat) : State := s.command p i v states [] more id

/-- Commands of trunks, fabric, scheduling and displays. -/
def State.linkCommand (s : State) (p : Path) (i v : Nat) : State :=
  if 0x2100 ≤ i ∧ i < 0x2500 then
    let t := i / 0x100 - 0x21
    if i % 0x100 = 0x20 then
      if v = 1 then s.after (execEyeApplyLane p t s) else if v = 2 then s.after (execEyeFinishEqualise p t s)
      else s.noCommand p i v anyState (s.eyeKinds t)
    else if v = 1 then s.after (execTrunkRetrain p t s)
    else if v = 2 then s.after (execTrunkClearCounters p t s)
    else s.noCommand p i v anyState []
  else if i = 0x2500 ∧ v = 1 then s.after (execFabricClearCounters p s)
  else if i = 0x2502 ∧ 1 ≤ v ∧ v ≤ 5 then
    match v with
    | 1 => s.after (execL2ReadMatch p s)
    | 2 => s.after (execL2ReadSlot p s)
    | 3 => s.after (execL2WriteEntry p s)
    | 4 => s.after (execL2DeleteEntry p s)
    | _ => s.after (execL2FlushLearnt p s)
  else if 0x2610 ≤ i ∧ i < 0x2614 ∧ v = 1 then s.after (execGateTableSwitch p (i - 0x2610) s)
  else if 0x2804 ≤ i ∧ i < 0x2808 ∧ v = 1 then s.after (execOutputClearCounters p (i - 0x2804) s)
  else if 0x2860 ≤ i ∧ i < 0x2864 ∧ v = 1 then s.after (execIntegrityClear p (i - 0x2860) s)
  else s.noCommand p i v anyState []

/-- Commands of USB, the service port, Ethernet and storage. -/
def State.portCommand (s : State) (p : Path) (i v : Nat) : State :=
  if i = 0x2A01 ∧ v = 1 then s.after (execUsbHubClearCounters p s)
  else if 0x2A08 ≤ i ∧ i < 0x2A10 then
    let u := i - 0x2A08
    if v % 256 = 6 then s.after (execUsbPortTestMode p u (v / 256) s)
    else if v = 1 then s.after (execUsbPortPowerOn p u s)
    else if v = 2 then s.after (execUsbPortPowerOff p u s)
    else if v = 3 then s.after (execUsbPortReset p u s)
    else if v = 4 then s.after (execUsbPortSuspend p u s)
    else if v = 5 then s.after (execUsbPortResume p u s)
    else s.noCommand p i v anyState (kindIf (!s.rawUsb || !s.domainOn 12) 6)
  else if i = 0x2A21 ∧ v = 1 then s.after (execSvcRemoteWake p (decide (Config.measured (ob i 0xF0) s.clock % 2 = 1)) s)
  else if i = 0x2B01 then
    if v = 1 then s.after (execPdCmdDrSwap p s)
    else if v = 2 then s.after (execPdCmdVconnSwap p s)
    else if v = 3 then s.after (execPdCmdHardReset p s)
    else if v = 4 then s.after (execPdCmdSendSourceCap p s)
    else if v % 256 = 5 then s.after (execPdCmdRequest p (v / 256) s)
    else s.pdCommand p 0 v [7] id
  else if 0x2C08 ≤ i ∧ i < 0x2C10 ∧ v = 1 then s.after (execEthPortClearCounters p (i - 0x2C08) s)
  else if i = 0x2D00 ∧ v = 1 then s.after (execStorageFlush p s)
  else if 0x2D03 ≤ i ∧ i < 0x2D05 ∧ v = 1 then s.after (execPcieClearCounters p (i - 0x2D03) s)
  else if 0x2D40 ≤ i ∧ i < 0x2D80 ∧ v = 1 then s.after (execWindowUnfence p (i - 0x2D40) s)
  else if 0x2D40 ≤ i ∧ i < 0x2D80 ∧ v = 2 then s.after (execWindowClearCounters p (i - 0x2D40) s)
  else if 0x2E03 ≤ i ∧ i < 0x2E05 ∧ v = 1 then s.after (execCanLeaveBusOff p (i - 0x2E03) s)
  else if i = 0x2F00 ∧ v = 1 then s.after (execTimeStep p s)
  else if i = 0x2F00 ∧ v = 2 then s.after (execTimeSet p s)
  else if i = 0x2F00 ∧ v = 3 then s.after (execTimeSlew p s)
  else if i = 0x2F10 ∧ v = 1 then s.after (execJournalClear p s)
  else s.noCommand p i v anyState []

/-- Commands of tunnels, security and power. -/
def State.keyCommand (s : State) (p : Path) (i v : Nat) : State :=
  if 0x3000 ≤ i ∧ i < 0x4000 then
    if v = 1 then s.after (execTunnelDrain p (i - 0x3000) s)
    else if v = 2 then s.after (execTunnelClearCounters p (i - 0x3000) s)
    else s.noCommand p i v anyState []
  else if i = 0x4000 then
    if v % 256 = 1 then s.after (execEnterOperational p (v / 256) s)
    else if v % 256 = 2 then s.after (execDecommission p (v / 256) s)
    else if v = 3 then s.after (execEnrolCustomerKeyHash p s)
    else s.noCommand p i v anyState []
  else if i = 0x4002 then
    if v = 1 then s.after (execKeyDerive ⟨p, false⟩ s)
    else if v = 2 then s.after (execKeyAgree ⟨p, false⟩ s)
    else if v = 3 then s.after (execKeyImport ⟨p, false⟩ s)
    else if v = 4 then s.after (execKeyInvalidate ⟨p, false⟩ s)
    else s.noCommand p i v anyState []
  else if i = 0x4009 ∧ v = 1 then s.after (execTamperClear p s)
  else if i = 0x4010 ∧ v = 1 then s.after (execVanguriSign p false s)
  else if i = 0x4101 ∧ v = 1 then s.after (execPowerEntryClearCounters p s)
  else if 0x4120 ≤ i ∧ i < 0x412A then
    let c := i - 0x4120
    if v = 1 then s.after (execBreakerReset p c s)
    else if v = 2 then s.after (execBreakerRetryNow p c (sget 16 (Config.measured (ob i 4) s.clock)) s)
    else if v = 3 then s.after (execBreakerClearCounters p c s)
    else s.noCommand p i v anyState []
  else s.noCommand p i v anyState []

/-- The eyes that the monitors of every lane report at a plan (R424). -/
def State.eyesNow (s : State) : List Nat :=
  (upTo 20).map fun k => Config.measured (ob (0x2121 + 0x100 * (k / 5)) (k % 5 + 1)) s.clock % 65536

/-- Commands of margins, safety, the application core and update. -/
def State.systemCommand (s : State) (p : Path) (i v : Nat) : State :=
  if i = 0x4201 ∧ v = 1 then s.after (execMarginApprove p s)
  else if i = 0x4201 ∧ v = 2 then s.after (execMarginPlanNow p s.eyesNow s)
  else if i = 0x4400 ∧ v = 1 then s.after (execSafetyClearLatches p s)
  else if i = 0x4400 ∧ v = 2 then s.after (execShadowReload p s)
  else if i = 0x4500 ∧ v = 1 then s.after (execAppStart p s)
  else if i = 0x4500 ∧ v = 2 then s.after (execAppHalt p s)
  else if i = 0x4500 ∧ v = 3 then s.after (execAppRestart p s)
  else if i = 0x4501 ∧ v = 1 then s.after (execAppClearCounters p s)
  else if i = 0x4502 ∧ v = 1 then s.after (execAppMailboxPost p s)
  else if i = 0x6000 then
    if v = 1 then s.after (execFwConfirmSlot p s)
    else if v = 2 ∨ v = 0x102 then s.after (execFwAdvanceRollback p (decide (v = 0x102)) s)
    else if v = 3 then s.after (execFwRaiseAppFloor p s)
    else if v = 4 then s.after (execFwReset p s)
    else s.noCommand p i v anyState []
  else if i = 0x6001 then
    if v = 1 then s.after (execImageStage p s)
    else if v = 2 then s.after (execImageActivate p s)
    else if v = 3 then s.after (execImageDiscard p s)
    else s.noCommand p i v [3, 5] []
  else if i = 0x6002 ∧ v = 1 then s.after (execOrphanDiscard p s)
  else s.noCommand p i v anyState []

/-- A write to a Command subindex (R56). -/
def State.commandWrite (s : State) (p : Path) (i v : Nat) : State :=
  if i = 0x1010 ∨ i = 0x1011 then s.noCommand p i v [3, 5] []
  else if i < 0x2A00 then s.linkCommand p i v
  else if i < 0x3000 then s.portCommand p i v
  else if i < 0x4200 then s.keyCommand p i v
  else s.systemCommand p i v

/-- What the storing of a value brings with it, by its chapter; `j` is where it is kept. -/
def State.afterStore (s : State) (p : Path) (i sub j v : Nat) : State :=
  if i = 0x1100 then s.updSession p fun x => { x with cred := v }
  else
  let v := withoutReserved i sub v
  let s := s.set (ob j sub) v
  if i = 0x1017 then s.start .heartbeat
  else if 0x2100 ≤ i ∧ i < 0x2500 ∧ i % 0x100 = 0 then s.heldWrite (i / 0x100 - 0x21)
  else if 0x2510 ≤ i ∧ i < 0x2524 ∧ sub ≤ 8 then s.showReserved
  else if 0x2A60 ≤ i ∧ i < 0x2A70 ∧ sub = 1 then s.relaySwitch (i - 0x2A60) v
  else if i = 0x2B00 ∧ sub = 1 then s.roleModeWritten
  else if i = 0x2B00 ∧ sub = 3 then s.rpWritten
  else if 0x2C00 ≤ i ∧ i < 0x2C08 ∧ sub = 0x0B then s.ptpState (i - 0x2C00) (Config.code 0x2C0F v % 256)
  else if 0x2C00 ≤ i ∧ i < 0x2C08 ∧ (sub = 1 ∧ v = 0 ∨ sub = 2) then s.ethLinkLost (i - 0x2C00)
  else if 0x2C10 ≤ i ∧ i < 0x2C14 ∧ sub = 1 then s.pairCheck (i - 0x2C10)
  else if 0x2D01 ≤ i ∧ i < 0x2D03 ∧ sub = 1 ∧ v = 0 then s.pcieLinkLost (i - 0x2D01)
  else if 0x2D40 ≤ i ∧ i < 0x2D80 ∧ sub = 1 then s.windowSet (i - 0x2D40) v
  else if 0x2E80 ≤ i ∧ i < 0x2E90 ∧ sub = 1 then
    if v = 1 then s.goosePublish (i - 0x2E80) (s.get (ob i 9)) else s.updPub (i - 0x2E80) fun x => { x with interval := 0 }
  else if 0x2E08 ≤ i ∧ i < 0x2E0C ∧ sub = 1 then if s.fieldOn then s.uartRts (i - 0x2E08) else s
  else if 0x2E90 ≤ i ∧ i < 0x2EA0 ∧ sub = 1 ∧ v = 0 then s.updGsub (i - 0x2E90) fun x => { x with alive := false }
  else if i = 0x2F11 ∧ sub = 1 then s.set (readKey p) (v + 1)
  else if i = 0x4008 then s.copyTamper
  else if i = 0x4100 ∧ (sub = 1 ∨ sub = 2) then
    let feed := sub - 1
    let mv := Config.measured (ob 0x4101 (3 + feed)) s.clock % 65536
    s.feedGo feed (s.feedNow feed mv (Config.measured (ob 0x4101 5) s.clock % 65536)) mv
  else if i = 0x4400 then s.pulse
  else if i = 0x4500 ∧ sub = 7 then if s.appRuns then s.appWatch else s
  else if i = 0x4510 ∧ sub = 2 ∧ v = 0 then
    let src := j - 0x10000
    { s with irq := { s.irq with latch := clrBit s.irq.latch src, async := clrBit s.irq.async src } }
  else if 0x5000 ≤ i ∧ i < 0x5400 ∧ sub = 1 ∧ v = 1 then s.mapEnable (i - 0x5000)
  else s

/-- A write to an object without a command of its own: judged with the conditions of its chapter, then stored with what
it brings (R37-R39); a refusal for the fetch budget is counted (R191). -/
def State.plainWrite (s : State) (p : Path) (i sub : Nat) (r : ObjRow) (data : Bytes) : State :=
  let j := s.placed p i sub
  let v := leNat data
  let more := s.plainKinds p j sub v
  let s' := s.write p j sub data more fun s => if r.type = 9 then s.setStr (ob j sub) data else s.afterStore p i sub j v
  s'.budgetCount (s.reach && s.budgetBad (ob i sub) v && decide ((0x2800 ≤ i ∧ i < 0x2804) ∨ (0x2900 ≤ i ∧ i < 0x2910) ∨
    i = 0x2810 ∨ (i = 0x2D00 ∧ sub = 3))) (s.judgeWrite p j sub data more)

/-- A write to an object below 0x2A00 whose effect is a command of its own, else a plain write. -/
def State.lowWrite (s : State) (p : Path) (tk i sub : Nat) (r : ObjRow) (data : Bytes) : State :=
  let v := leNat data
  if i = 0x1100 ∧ sub = 1 then if v = 0 then s.after (execSessionEndRequest p s) else s.after (execSessionRequest p v s)
  else if i = 0x1100 ∧ sub = 4 then s.after (execSessionResponse p tk data s)
  else if i = 0x1101 then s.after (execSessionLimitWrite p sub v s)
  else if i = 0x1010 then s.writeStore p sub v
  else if i = 0x1011 then s.writeRestore p sub v
  else if i = 0x1F80 then s.after (execViolationsClear p v s)
  else if i = 0x2000 ∧ sub = 2 then s.askState p v
  else if i = 0x2010 then s.writeMode p sub v
  else if i = 0x2020 then s.after (execDomainEnableWrite p (sub - 1) v s)
  else if 0x2100 ≤ i ∧ i < 0x2500 ∧ i % 0x100 = 0 ∧ sub = 1 then s.after (execTrunkEnableWrite p (i / 0x100 - 0x21) v s)
  else if 0x2800 ≤ i ∧ i < 0x2804 ∧ sub = 1 then
    if v = 1 then s.after (execOutputEnable p (i - 0x2800) s)
    else if v = 0 then s.after (execOutputDisable p (i - 0x2800) s)
    else s.plainWrite p i sub r data
  else if 0x2820 ≤ i ∧ i < 0x2840 ∧ sub = 6 then
    s.after (execExpectedSignatureWrite p ((i - 0x2820) / 8) ((i - 0x2820) % 8) v s)
  else s.plainWrite p i sub r data

/-- A write to an object from 0x2A00 on whose effect is a command of its own, else a plain write. -/
def State.highWrite (s : State) (p : Path) (i sub : Nat) (r : ObjRow) (data : Bytes) : State :=
  let v := leNat data
  if i = 0x2A20 ∧ sub = 1 then s.after (execSvcDeviceEnableWrite p v s)
  else if i = 0x2B00 ∧ 5 ≤ sub ∧ sub ≤ 9 then s.after (execPdoWrite p sub v s)
  else if i = 0x2F00 ∧ (sub = 1 ∨ sub = 2) then s.after (execTimeSourceWrite p sub v s)
  else if i = 0x2F03 ∧ sub = 2 then s.after (execHostFrequencyWrite p v s)
  else if 0x3000 ≤ i ∧ i < 0x4000 then
    let n := i - 0x3000
    if sub = 1 ∧ v = 1 then s.after (execTunnelEnable p n s)
    else if sub = 1 ∧ v = 0 then s.after (execTunnelDisable p n s)
    else if sub = 0x0C then s.after (execKeySlotNextWrite p n v s)
    else if 2 ≤ sub ∧ sub ≤ 0x0D then s.after (execTunnelRecordWrite p n sub v s)
    else s.plainWrite p i sub r data
  else if 0x4110 ≤ i ∧ i < 0x411A ∧ sub = 0x0B then s.after (execRetryCountWrite p (i - 0x4110) v s)
  else if i = 0x4200 then s.after (execMarginEnvelopeWrite p sub v s)
  else if 0x4310 ≤ i ∧ i < 0x431B ∧ sub = 1 then s.after (execBackgroundTaskEnableWrite p (i - 0x4310) v s)
  else if i = 0x4500 ∧ sub = 1 then s.after (execAppEnableWrite p v s)
  else if i = 0x4502 ∧ sub = 6 then s.after (execDoorbellRing p v s)
  else if 0x5000 ≤ i ∧ i < 0x5400 ∧ (sub = 0x16 ∨ sub = 0x17) then s.after (execSignalValueWrite p (i - 0x5000) sub v s)
  else s.plainWrite p i sub r data

/-- The native bytes that a write stands for while an index presents the QH5-12 layout (R53). -/
def State.nativeData (s : State) (i sub : Nat) (r : ObjRow) (data : Bytes) : Bytes :=
  if s.oldProfile i && decide (r.type ≠ 9 ∧ sub < 0xF0 ∧ data.length = r.size) then
    leBytes r.size (Config.qh5Write i sub (leNat data))
  else data

/-- A complete write of bytes to an object on a path (R37, R39, R49); `tk` is the trunk that carried it on tunnel 1. An object
that is missing, read-only or of another size takes the judgement alone. -/
def State.odWrite (s : State) (p : Path) (tk i sub : Nat) (data : Bytes) : State :=
  match rowAt i sub with
  | none => s.write p i sub data [] id
  | some r =>
    let data := s.nativeData i sub r data
    if s.missing i sub then s.write p i sub data [] id
    else if sizeBad i r data.length || decide (r.acc = .ro ∨ r.acc = .const) then
      s.write p (s.placed p i sub) sub data [] id
    else if sub = 0xF0 then s.commandWrite p i (leNat data)
    else if sub = 0xF1 then s.writeAbort p i (leNat data)
    else if i < 0x2A00 then s.lowWrite p tk i sub r data
    else s.highWrite p i sub r data

/-- R37, R39. A write to an object is judged and applied whole, or ignored. -/
def execOdWrite (path : Path) (index sub : Nat) (data : Bytes) (s : State) : Ans :=
  onPath path (decide (index < 65536 ∧ sub < 256)) s (s.odWrite path 0 index sub data)

end Sys2Proof.Machine
end

