-- ==== Sys2Proof/Machine/Sdo.lean ====
section
/-!
DEFINITION. The SDO server of C0 (R38, R39, R43, R45): expedited, segmented and block transfers, and aborts for protocol
faults.
-/

set_option Elab.async false

namespace Sys2Proof.Machine

open Sys2Proof

/-- CANopen on C0 works: the dictionary is reached and the port takes part in the bus (R6, R316). -/
def State.canRuns (s : State) : Bool := s.reach && decide (s.get (ob 0x2E01 1) = 1 ∧ s.get (canStat 0 1) ≠ 2)

/-- The SDO server is active (R44). -/
def State.sdoRuns (s : State) : Bool := s.canRuns && decide (s.canOpen.nmt ≠ 4)

/-- The open transfer changed. -/
def State.updSdo (s : State) (f : Sdo → Sdo) : State := { s with canOpen := { s.canOpen with sdo := f s.canOpen.sdo } }

/-- A frame of the hub's own on C0 (R43). -/
def State.canOut (s : State) (id : Nat) (data : Bytes) : State := s.canSend 0 { id, data }

/-- An SDO answer of 8 bytes (R43). -/
def State.sdoOut (s : State) (data : Bytes) : State := s.canOut (0x580 + s.canNode) (fitBytes 8 data)

/-- The transfer ends without effect. -/
def State.sdoClose (s : State) : State := s.updSdo fun _ => {}

/-- The hub aborts (R45): the frame, EV_SDO_ABORT and the transfer's end. -/
def State.sdoAbort (s : State) (index sub code : Nat) : State :=
  ((s.sdoOut (u8 0x80 ++ u16 index ++ u8 sub ++ u32 code)).ev 0x1140 0 2 0 (u32 code ++ u16 index ++ u8 sub)).sdoClose

/-- The open transfer is aborted. -/
def State.sdoFault (s : State) (code : Nat) : State := s.sdoAbort s.canOpen.sdo.index s.canOpen.sdo.sub code

/-- CRC-16/CCITT with initial value 0, over a block transfer's data (R43). -/
def blockCrc (bs : Bytes) : Nat := bs.foldl (fun r b => crc16Bits 8 (r ^^^ (b.toNat * 256))) 0

/-- A download is complete (R39, R40): with a size indicated that differs from the bytes delivered it is of kind 2, else it
is written. -/
def State.sdoWrite (s : State) (index sub : Nat) (size : Option Nat) (data : Bytes) : State :=
  match size with
  | some n => if n = data.length then s.odWrite .can 0 index sub data else s.write .can index sub data [2] id
  | none => s.odWrite .can 0 index sub data

/-- The bytes of an expedited download (R40): the size it indicates, else the object's own size from the low bytes. -/
def expeditedData (index sub n : Nat) (sized : Bool) (four : Bytes) : Bytes :=
  if sized then four.take (4 - n)
  else
    match rowAt index sub with
    | some r => if r.type ≠ 9 ∧ r.size ≤ 4 then four.take r.size else four
    | none => four

/-- The object is a string, which takes more than 4 bytes. -/
def longString (index sub : Nat) : Bool :=
  match rowAt index sub with
  | some r => decide (r.type = 9 ∧ 4 < strMax index)
  | none => false

/-- An expedited download is written (R40): without a size indication, one to a larger object is of kind 2. -/
def State.sdoExpedited (s : State) (index sub n : Nat) (sized : Bool) (four : Bytes) : State :=
  if !sized && longString index sub then s.write .can index sub four [2] id
  else s.sdoWrite index sub none (expeditedData index sub n sized four)

/-- A download is initiated (R43): client command 1. -/
def State.sdoDownload (s : State) (f : Bytes) : State :=
  let b := byteAt f 0
  let index := leAt f 1 2
  let sub := byteAt f 3
  let s := s.sdoClose
  if b.testBit 1 then
    (s.sdoExpedited index sub (field b 2 2) (b.testBit 0) (f.drop 4)).sdoOut (u8 0x60 ++ u16 index ++ u8 sub)
  else
    (s.updSdo fun _ =>
      { kind := 1, index, sub, size := if b.testBit 0 then some (leAt f 4 4) else none, at_ := s.clock }).sdoOut
      (u8 0x60 ++ u16 index ++ u8 sub)

/-- A segment of a download (R39): client command 0. -/
def State.sdoSegment (s : State) (f : Bytes) : State :=
  let x := s.canOpen.sdo
  let b := byteAt f 0
  if x.kind ≠ 1 then s.sdoFault 0x05040001
  else if b.testBit 4 ≠ x.toggle then s.sdoFault 0x05030000
  else
    let data := x.data ++ (f.drop 1).take (7 - field b 1 3)
    let s :=
      if b.testBit 0 then (s.sdoWrite x.index x.sub x.size data).sdoClose
      else s.updSdo fun x => { x with data, toggle := !x.toggle, at_ := s.clock }
    s.sdoOut (u8 (0x20 + 16 * ofBool x.toggle))

/-- The value of an upload is read (R30, R38, R49). -/
def State.sdoRead (s : State) (index sub : Nat) : Bytes × State := s.readNow .can index sub

/-- An upload is initiated (R38, R43): client command 2; 1 to 4 bytes travel expedited. -/
def State.sdoUpload (s : State) (f : Bytes) : State :=
  let index := leAt f 1 2
  let sub := byteAt f 3
  let (v, s) := s.sdoClose.sdoRead index sub
  let mux := u16 index ++ u8 sub
  if 1 ≤ v.length ∧ v.length ≤ 4 then s.sdoOut (u8 (0x43 + 4 * (4 - v.length)) ++ mux ++ v)
  else
    (s.updSdo fun _ => { kind := 2, index, sub, data := v, at_ := s.clock }).sdoOut (u8 0x41 ++ mux ++ u32 v.length)

/-- The next segment of an upload (R38): client command 3. -/
def State.sdoNext (s : State) (f : Bytes) : State :=
  let x := s.canOpen.sdo
  if x.kind ≠ 2 then s.sdoFault 0x05040001
  else if (byteAt f 0).testBit 4 ≠ x.toggle then s.sdoFault 0x05030000
  else
    let part := (x.data.drop x.sent).take 7
    let last := decide (x.data.length ≤ x.sent + 7)
    let s :=
      if last then s.sdoClose
      else s.updSdo fun x => { x with sent := x.sent + 7, toggle := !x.toggle, at_ := s.clock }
    s.sdoOut (u8 (16 * ofBool x.toggle + 2 * (7 - part.length) + ofBool last) ++ part)

/-- A block download is initiated (R43): client command 6. -/
def State.sdoBlockDownload (s : State) (f : Bytes) : State :=
  let b := byteAt f 0
  let index := leAt f 1 2
  let sub := byteAt f 3
  let blk := s.get (ob 0x1210 3)
  (s.updSdo fun _ =>
    { kind := 3, index, sub, size := if b.testBit 1 then some (leAt f 4 4) else none, crc := b.testBit 2, blk,
      at_ := s.clock }).sdoOut (u8 0xA4 ++ u16 index ++ u8 sub ++ u8 blk)

/-- A segment of a block download (R43, R45): in sequence, and acknowledged at the block's end. -/
def State.sdoBlockSegment (s : State) (f : Bytes) : State :=
  let x := s.canOpen.sdo
  let b := byteAt f 0
  let seq := b % 128
  let last := b.testBit 7
  if seq ≠ x.seq + 1 then s.sdoFault 0x05040003
  else
    let data := x.data ++ (f.drop 1).take 7
    let done := last || decide (seq = x.blk)
    let next := s.get (ob 0x1210 3)
    let s := s.updSdo fun x =>
      { x with data, seq := if done then 0 else seq, blk := if done then next else x.blk, kind := if last then 4 else 3,
               at_ := s.clock }
    if done then s.sdoOut (u8 0xA2 ++ u8 seq ++ u8 next) else s

/-- The end of a block download (R39, R45): its CRC is checked and the write is applied or discarded whole. -/
def State.sdoBlockEnd (s : State) (f : Bytes) : State :=
  let x := s.canOpen.sdo
  let data := x.data.take (x.data.length - field (byteAt f 0) 2 3)
  if x.crc && decide (blockCrc data ≠ leAt f 1 2) then s.sdoFault 0x05040004
  else ((s.sdoWrite x.index x.sub x.size data).sdoClose).sdoOut (u8 0xA1)

/-- The segments of a block of an upload, from the bytes not yet acknowledged. -/
def blockParts (data : Bytes) (blk : Nat) : List Bytes :=
  if data = [] then [[]] else (upTo (min blk ((data.length + 6) / 7))).map fun k => (data.drop (7 * k)).take 7

/-- A block of an upload is sent (R38). -/
def State.sdoBlock (s : State) : State :=
  let x := s.canOpen.sdo
  let rest := x.data.drop x.sent
  let parts := blockParts rest x.blk
  let s := forAll (fun (k : Nat) s =>
    let last := decide (k + 1 = parts.length ∧ rest.length ≤ 7 * parts.length)
    s.sdoOut (u8 (k + 1 + 128 * ofBool last) ++ parts.getD k [])) (upTo parts.length) s
  s.updSdo fun x => { x with kind := 6, seq := parts.length, at_ := s.clock }

/-- A block upload is initiated (R38, R43): client command 5. -/
def State.sdoBlockUpload (s : State) (f : Bytes) : State :=
  let b := byteAt f 0
  let index := leAt f 1 2
  let sub := byteAt f 3
  let blk := byteAt f 4
  let s := s.sdoClose
  if blk = 0 ∨ s.get (ob 0x1210 3) < blk then s.sdoAbort index sub 0x05040002
  else
    let (v, s) := s.sdoRead index sub
    (s.updSdo fun _ => { kind := 5, index, sub, data := v, crc := b.testBit 2, blk, at_ := s.clock }).sdoOut
      (u8 0xC6 ++ u16 index ++ u8 sub ++ u32 v.length)

/-- A client's acknowledgement in a block upload (R38, R45): the next block, or the end with the CRC. -/
def State.sdoBlockAck (s : State) (f : Bytes) : State :=
  let x := s.canOpen.sdo
  let ack := byteAt f 1
  let blk := byteAt f 2
  if x.seq < ack then s.sdoFault 0x05040003
  else
    let sent := min x.data.length (x.sent + 7 * ack)
    if sent = x.data.length ∧ (x.data ≠ [] ∨ ack = 1) then
      let n := if x.data = [] then 7 else (7 - x.data.length % 7) % 7
      (s.updSdo fun x => { x with kind := 7, sent, at_ := s.clock }).sdoOut
        (u8 (0xC1 + 4 * n) ++ u16 (if x.crc then blockCrc x.data else 0))
    else if blk = 0 ∨ s.get (ob 0x1210 3) < blk then s.sdoFault 0x05040002
    else (s.updSdo fun x => { x with sent, blk }).sdoBlock

/-- A client's command of block upload: start (3), acknowledgement (2), end (1), or the initiation (0). -/
def State.sdoBlockCommand (s : State) (f : Bytes) : State :=
  let x := s.canOpen.sdo
  let cs := field (byteAt f 0) 0 2
  if cs = 0 then s.sdoBlockUpload f
  else if cs = 3 ∧ x.kind = 5 then s.sdoBlock
  else if cs = 2 ∧ x.kind = 6 then s.sdoBlockAck f
  else if cs = 1 ∧ x.kind = 7 then s.sdoClose
  else s.sdoFault 0x05040001

/-- The client aborts: the transfer ends without effect and without a violation (R45). -/
def State.sdoClientAbort (s : State) (_f : Bytes) : State := s.sdoClose

/-- A frame for the SDO server (R43, R45): a segment while a block is received, an abort, or what its client command
specifier asks for. -/
def State.sdoFrame (s : State) (frame : Bytes) : State :=
  if !s.sdoRuns then s
  else
    let f := fitBytes 8 frame
    let b := byteAt f 0
    let ccs := b / 32
    if b = 0x80 then s.sdoClientAbort f
    else if s.canOpen.sdo.kind = 3 then s.sdoBlockSegment f
    else
      match ccs with
      | 0 => s.sdoSegment f
      | 1 => s.sdoDownload f
      | 2 => s.sdoUpload f
      | 3 => s.sdoNext f
      | 5 => s.sdoBlockCommand f
      | 6 =>
        if b.testBit 0 then if s.canOpen.sdo.kind = 4 then s.sdoBlockEnd f else s.sdoFault 0x05040001
        else s.sdoBlockDownload f
      | _ => s.sdoFault 0x05040001

/-- R43, R39, R40. An SDO download is initiated, expedited, segmented or by blocks. -/
def execSdoInitiateDownload (frame : Bytes) (s : State) : Ans := .next (s.sdoFrame frame)

/-- R39, R45. A segment of an SDO download; at the last one the write is judged and applied whole. -/
def execSdoDownloadSegment (frame : Bytes) (s : State) : Ans := .next (s.sdoFrame frame)

/-- R38, R43. An SDO upload is initiated. -/
def execSdoInitiateUpload (frame : Bytes) (s : State) : Ans := .next (s.sdoFrame frame)

/-- R38, R45. A segment request of an SDO upload. -/
def execSdoUploadSegment (frame : Bytes) (s : State) : Ans := .next (s.sdoFrame frame)

/-- R43, R45. A segment of an SDO block download. -/
def execSdoBlockDownloadSegment (frame : Bytes) (s : State) : Ans := .next (s.sdoFrame frame)

/-- R39, R45. The end of an SDO block download. -/
def execSdoBlockDownloadEnd (frame : Bytes) (s : State) : Ans := .next (s.sdoFrame frame)

/-- R38, R45. A client command of an SDO block upload. -/
def execSdoBlockUploadRequest (frame : Bytes) (s : State) : Ans := .next (s.sdoFrame frame)

/-- R45. An abort from the client. -/
def execSdoAbortReceived (frame : Bytes) (s : State) : Ans := .next (s.sdoFrame frame)

/-- R45. No frame from the client within SdoTimeout: the transfer is aborted. -/
def execSdoTimeout (s : State) : Ans :=
  .next
    (if s.sdoRuns ∧ s.canOpen.sdo.kind ≠ 0 ∧ s.canOpen.sdo.at_ + msec (s.get (ob 0x1210 2)) ≤ s.clock then
      s.sdoFault 0x05040000
     else s)

end Sys2Proof.Machine
end

