-- ==== Sys2Proof/Machine/CanOpen.lean ====
section
/-!
DEFINITION. CANopen on C0 beside the SDO server (R43, R44): NMT, PDOs, SYNC and the heartbeat.
-/

set_option Elab.async false

namespace Sys2Proof.Machine

open Sys2Proof

/-- An RPDO's objects are written with Operator rights, whatever session C0 holds (R43). -/
def State.asOperator (s : State) (f : State → State) : State :=
  let x := s.session .can
  let s := f (s.updSession .can fun y => { y with rights := 1, lastAccess := s.clock, granted := s.clock, id := if x.rights = 0 then 0 else x.id })
  s.updSession .can fun _ => x

/-- The mapped objects of an RPDO written one after the other with their parts of its data (R43). -/
def State.rpdoWrite (s : State) : List Nat → Bytes → State
  | [], _ => s
  | v :: r, data =>
    let n := v % 256 / 8
    let s := if v = 0 then s else s.odWrite .can 0 (field v 16 16) (field v 8 8) (data.take n)
    s.rpdoWrite r (data.drop n)

/-- The RPDO is taken: CANopen is operational and the RPDO valid (R43, R44). -/
def State.rpdoOn (s : State) (pdo : Nat) : Bool :=
  s.canRuns && decide (s.canOpen.nmt = 5) && !(s.get (ob (0x1400 + pdo) 1)).testBit 31

/-- An RPDO's data is written into its mapped objects (R43). A frame shorter than the mapping is not applied. -/
def State.rpdoApply (s : State) (pdo : Nat) (data : Bytes) : State :=
  let map := s.pdoMap (0x1600 + pdo)
  if (map.map fun v => v % 256 / 8).foldl (· + ·) 0 ≤ data.length then s.asOperator fun s => s.rpdoWrite map data else s

/-- R43. An RPDO is received: an event-driven one is written at once, a synchronous one (types 0 to 240) is held for the
next SYNC, the latest data only. -/
def execRpdoReceived (pdo : Nat) (data : Bytes) (s : State) : Ans :=
  onUnit (decide (pdo < 4))
    (if !s.rpdoOn pdo then s
     else if s.get (ob (0x1400 + pdo) 2) ≤ 240 then
      { s with canOpen := { s.canOpen with rpdos := Sparse.put [] pdo data s.canOpen.rpdos } }
     else s.rpdoApply pdo data)

/-- A synchronous RPDO's data takes effect at a SYNC (R43). -/
def State.rpdoSync (s : State) (pdo : Nat) : State :=
  match Sparse.find pdo s.canOpen.rpdos with
  | none => s
  | some data =>
    let s := { s with canOpen := { s.canOpen with rpdos := Sparse.drop pdo s.canOpen.rpdos } }
    if s.rpdoOn pdo then s.rpdoApply pdo data else s

/-- A synchronous TPDO at a SYNC (R43): type 0 after its data changed, types 1 to 240 at every n-th. -/
def State.tpdoSync (s : State) (k : Nat) : State :=
  let type := s.get (ob (0x1800 + k) 2)
  if !s.tpdoOn k ∨ 240 < type then s
  else if type = 0 then if s.tpdoData k ≠ (s.tpdo k).data then s.tpdoSend k else s
  else if type ≤ (s.tpdo k).syncs + 1 then s.tpdoSend k
  else s.updTpdo k fun x => { x with syncs := x.syncs + 1 }

/-- R43. A SYNC on COB-ID 0x080: the synchronous TPDOs due on it are sent, and the synchronous RPDOs received since the
last one take effect. -/
def execSyncReceived (s : State) : Ans :=
  .next
    (if s.canRuns then
      forAll (fun (k : Nat) s => s.rpdoSync k) (upTo 4) (forAll (fun (k : Nat) s => s.tpdoSync k) (upTo 4) s)
     else s)

/-- R43. The event timer of an event-driven TPDO expires. -/
def execTpdoEventTimer (pdo : Nat) (s : State) : Ans :=
  onUnit (decide (pdo < 4))
    (let ms := s.get (ob (0x1800 + pdo) 5)
     if s.tpdoOn pdo ∧ 254 ≤ s.get (ob (0x1800 + pdo) 2) ∧ ms ≠ 0 ∧ (s.tpdo pdo).timer + msec ms ≤ s.clock then s.tpdoTrigger pdo
     else s)

/-- R43. The inhibit time of a TPDO ends, and a deferred transmission is sent. -/
def execTpdoInhibitEnd (pdo : Nat) (s : State) : Ans :=
  onUnit (decide (pdo < 4))
    (if s.tpdoOn pdo ∧ (s.tpdo pdo).deferred ∧ !s.tpdoHeld pdo then s.tpdoSend pdo else s)

/-- R43. The heartbeat producer's period elapses: a heartbeat with the communication state is sent. -/
def execHeartbeatTimer (s : State) : Ans :=
  .next
    (let ms := s.get (ob 0x1017 0)
     if s.canRuns ∧ ms ≠ 0 ∧ s.due .heartbeat (msec ms) then
       (s.canOut (0x700 + s.canNode) (u8 s.canOpen.nmt)).start .heartbeat
     else s)

/-- An NMT command is for this hub: for every node, or for its own (R44). -/
def State.forMe (s : State) (node : Nat) : Bool := s.canRuns && decide (node = 0 ∨ node = s.canNode)

/-- The communication state changes; the device state does not (R44). -/
def State.setNmt (s : State) (v : Nat) : State := { s with canOpen := { s.canOpen with nmt := v } }

/-- R44. Start remote node: PDOs and SDO are active; the TPDOs' event timers begin. -/
def execNmtStartRemoteNode (node : Nat) (s : State) : Ans :=
  .next
    (if s.forMe node then
      if s.canOpen.nmt = 5 then s
      else forAll (fun (k : Nat) s => s.updTpdo k fun x => { x with timer := s.clock, syncs := 0 }) (upTo 4) (s.setNmt 5)
     else s)

/-- R44. Enter pre-operational: SDO active, PDOs stopped. -/
def execNmtEnterPreOperational (node : Nat) (s : State) : Ans := .next (if s.forMe node then s.setNmt 127 else s)

/-- R44. Stop remote node: only NMT and heartbeat are active. -/
def execNmtStopRemoteNode (node : Nat) (s : State) : Ans := .next (if s.forMe node then s.setNmt 4 else s)

/-- The value that the stored copy in use gives an object of area 2, its default where that copy lists none (R44, R51). -/
def State.storedValue (s : State) (k : Nat) : Nat :=
  match s.boot.used2 with
  | some c => Sparse.get (objDefault s.part s.head k) c.objs k
  | none => objDefault s.part s.head k

/-- Reset communication (R36, R44, R45): the C0 session ends, the COB-IDs are those stored, the node ID takes effect and
CANopen begins anew. -/
def State.canReset (s : State) : State :=
  let s := s.endSession .can 4
  let s := forAll (fun (k : Nat) s => s.set k (s.storedValue k))
    ((upTo 4).flatMap fun k => [ob (0x1400 + k) 1, ob (0x1800 + k) 1]) s
  s.canTake

/-- R44. Reset communication. -/
def execNmtResetCommunication (node : Nat) (s : State) : Ans := .next (if s.forMe node then s.canReset else s)

/-- R44. Reset node is treated as reset communication; the hub is not reset. -/
def execNmtResetNode (node : Nat) (s : State) : Ans := .next (if s.forMe node then s.canReset else s)

end Sys2Proof.Machine
end

