-- ==== Sys2Proof/Machine/Mgmt.lean ====
section
/-!
DEFINITION. Management messages of tunnel 1 and the service port (R46-R48), the gateway's request at the dictionary engine
(R49, R390), and the Period of signal map entries (R326).
-/

set_option Elab.async false

namespace Sys2Proof.Machine

open Sys2Proof

/-- A byte of a message; of one that ends before it, a free value (log entry 60). -/
def mgmtByte (msg : Bytes) (k : Nat) : Nat :=
  match msg[k]? with
  | some b => b.toNat
  | none => Config.code 0x4600 k % 256

/-- A little-endian field of two bytes of a message (R46). -/
def mgmtWord (msg : Bytes) (k : Nat) : Nat := mgmtByte msg k + 256 * mgmtByte msg (k + 1)

/-- Management port 0-3 is the trunk whose tunnel 1 carries the message, 4 the service port: its path for a session slot. -/
def mgmtPath (mp slot : Nat) : Path := if mp = 4 then .service else .tunnel slot

/-- A malformed request: an unknown Op, a slot that the port does not have, or a wrong Data length (R48). -/
def mgmtMalformed (mp : Nat) (msg : Bytes) : Bool :=
  decide (msg.length < 12 ∨ msg.length ≠ 12 + mgmtWord msg 8 ∨ 4096 < mgmtWord msg 8 ∨
    (mgmtByte msg 0 ≠ 1 ∧ mgmtByte msg 0 ≠ 2) ∨ (if mp = 4 then 0 else 3) < mgmtByte msg 1)

/-- A reply (R46): the request's slot, tag and address, a status and the data read. -/
def mgmtReply (msg : Bytes) (status : Nat) (data : Bytes) : Bytes :=
  let op := mgmtByte msg 0
  u8 (if op = 1 then 0x81 else if op = 2 then 0x82 else Config.code 0x4601 op % 256) ++ u8 (mgmtByte msg 1) ++
    u16 (mgmtWord msg 2) ++ u16 (mgmtWord msg 4) ++ u8 (mgmtByte msg 6) ++ u8 status ++ u16 data.length ++ zeros 2 ++ data

/-- Requests outstanding on a management port (R48): its replies that wait, and on the service port the requests that a halt
holds; the 16 of tunnel 1 are counted for each trunk (DESIGN CHOICE, log entry 60). -/
def State.mgmtWaiting (s : State) (mp : Nat) : Nat :=
  if mp = 4 then
    ((Sparse.get [] s.svc.inQ 1).filter fun b => decide (b.length < s.epMax 1 true)).length + s.svc.held.length
  else
    let last := fun (c : Cell) => decide (c.tunnel = 1 ∧ c.kind = 0) && c.last
    ((s.queue (qOf mp (s.tcfg 1 3))).descs.filter fun d => last d.cell).length +
      ((s.waitsAt 17 ++ s.backedAt 17).filter fun h => h.own && last h.cell && h.dests.any fun d => decide (d.p = mp)).length

/-- The port carries management messages: the dictionary is reached and the trunk is trained, or the device is configured
(R6, R31, R231). -/
def State.mgmtOn (s : State) (mp : Nat) : Bool :=
  s.reach && (if mp = 4 then decide (s.svcState = 4) else s.trained mp)

/-- A reply leaves in the cells of tunnel 1, or in one transfer of endpoint 1 IN (R47); one that its port no longer carries is
discarded (R234). -/
def State.mgmtSend (s : State) (mp : Nat) (reply : Bytes) : State :=
  if !s.mgmtOn mp then s
  else
    let s := s.send (.mgmtReply mp reply)
    if mp = 4 then s.svcReply reply
    else forAll (fun c s => s.emit 1 [mp] c) (s.unitCells 1 (s.tcfg 1 3) 0 236 false reply) s

/-- Writes whose effect waits for the reply (R21, R255): those that switch off the trunk that carries them, and a mode of
service-port power over the service port. -/
def awaitsReply (mp i sub v : Nat) : Bool :=
  if mp = 4 then decide (i = 0x2010 ∧ sub = 6)
  else decide (v = 0 ∧ ((i = 0x2020 ∧ sub = mp + 5) ∨ (i = tkIndex mp 0 ∧ sub = 1)))

/-- The effect of such a write (R21, R55, R77). -/
def State.lateEffect (s : State) (w : LateWrite) : State :=
  if w.index = 0x2010 then
    if s.get (ob 0x2011 w.sub) = 2 then
      { s with modeHeld := (w.sub, w.value, w.path, w.time) :: s.modeHeld.filter fun e => decide (e.1 ≠ w.sub) }
    else s.takeMode w.sub w.value w.path w.time
  else if w.index = 0x2020 then s.domainSwitch (w.sub - 1) w.value
  else s.trunkSwitch (w.index / 0x100 - 0x21) w.value

/-- The writes of a management port that wait for their reply. -/
def State.lateWrites (s : State) (mp : Nat) : List LateWrite := if mp = 4 then s.svc.late else (s.trunk mp).late

/-- They are taken off, or one joins them. -/
def State.setLate (s : State) (mp : Nat) (ws : List LateWrite) : State :=
  if mp = 4 then s.updSvc fun x => { x with late := ws } else s.updTrunk mp fun x => { x with late := ws }

/-- They take effect once no reply waits on the port any more (R21, R255); a port that carries none has none waiting. -/
def State.lateRun (s : State) (mp : Nat) : State :=
  if s.lateWrites mp ≠ [] ∧ (s.mgmtWaiting mp = 0 ∨ !s.mgmtOn mp) then
    forAll (fun w s => s.lateEffect w) (s.lateWrites mp) (s.setLate mp [])
  else s

/-- A write request is executed (R46-R49): its reply is queued before its effect, since a write may take the path away; one of
those above that breaks no rule waits until the reply has left. -/
def State.mgmtWrite (s : State) (mp : Nat) (msg : Bytes) : State :=
  let p := mgmtPath mp (mgmtByte msg 1)
  let i := mgmtWord msg 4
  let sub := mgmtByte msg 6
  let data := msg.drop 12
  let s := s.mgmtSend mp (mgmtReply msg 0 [])
  if awaitsReply mp i sub (leNat data) && (s.judgeWrite p i sub data []).isNone then
    let s := s.touch p
    s.setLate mp (s.lateWrites mp ++ [{ path := p, time := s.station, index := i, sub, value := leNat data }])
  else s.odWrite p (if mp = 4 then 0 else mp) i sub data

/-- A complete request is executed and answered, or answered malformed, or busy as a 17th (R46-R49). -/
def State.mgmtExecute (s : State) (mp : Nat) (msg : Bytes) (busy : Bool) : State :=
  if mgmtMalformed mp msg then s.mgmtSend mp (mgmtReply msg 1 [])
  else if busy then s.mgmtSend mp (mgmtReply msg 2 [])
  else if mgmtByte msg 0 = 1 then
    let (b, s) := s.readNow (mgmtPath mp (mgmtByte msg 1)) (mgmtWord msg 4) (mgmtByte msg 6)
    s.mgmtSend mp (mgmtReply msg 0 b)
  else s.mgmtWrite mp msg

/-- Endpoint 1 is halted in a direction (R233). -/
def State.ep1Halted (s : State) : Bool := s.flag (haltKey 1 false) || s.flag (haltKey 1 true)

/-- The requests that a halt of EP1 held are executed once it is cleared (R233). -/
def State.releaseHeld (s : State) : State :=
  if s.ep1Halted || s.svc.held.isEmpty then s
  else
    let ms := s.svc.held
    forAll (fun m s => s.mgmtExecute 4 m.1 m.2) ms (s.updSvc fun x => { x with held := [] })

/-- A complete request of a management port is taken (R46-R49). On the service port one that was received whole before a bus
reset is still executed (R234), and a halt of EP1 holds it (R233). -/
def State.mgmtRequest (s : State) (mp : Nat) (msg : Bytes) : State :=
  let s := s.lateRun mp
  let whole := decide (mp = 4) && s.svc.complete.contains msg
  if !s.reach || !(s.mgmtOn mp || whole) then s
  else
    let s := if whole then s.updSvc fun x => { x with complete := x.complete.erase msg } else s
    let busy := decide (16 ≤ s.mgmtWaiting mp)
    if mp = 4 ∧ s.ep1Halted then s.updSvc fun x => { x with held := x.held ++ [(msg, busy)] }
    else s.mgmtExecute mp msg busy

/-- R46-R49. A complete read request is executed and answered. -/
def execMgmtReadRequest (mp : Nat) (msg : Bytes) (s : State) : Ans :=
  onPort s (fun q => decide (mp = 4) || q.hasTrunk mp) (s.mgmtRequest mp msg)

/-- R46-R49. A complete write request is executed and answered. -/
def execMgmtWriteRequest (mp : Nat) (msg : Bytes) (s : State) : Ans :=
  onPort s (fun q => decide (mp = 4) || q.hasTrunk mp) (s.mgmtRequest mp msg)

/-- The engine executes the gateway's request: the data of R38 and its length after a read; a broken rule ends in done as
well (R389, R390). -/
def State.gatewayRun (s : State) : State :=
  let i := s.app.gwAddress / 256
  let sub := s.app.gwAddress % 256
  let s :=
    if s.app.gwOp = 1 then
      let (b, s) := s.readNow .gateway i sub
      s.updApp fun x => { x with gwLength := b.length, gwData := b ++ x.gwData.drop b.length }
    else s.odWrite .gateway 0 i sub (s.app.gwData.take s.app.gwLength)
  (s.updApp fun x => { x with gwOp := 0, gwDone := true }).raise 3

/-- R390. The engine executes the request held, sets done and raises source 3; a halt, restart or Off that waited for it
follows (R387). -/
def execGatewayDone (s : State) : Ans :=
  .next
    (if s.app.gwOp = 0 then s
     else
      let s := s.gatewayRun
      if s.app.stop = 0 then s else s.appStop s.app.stop)

/-- The raw value of an object source, read with Custodian rights and sign-extended by type (R324). -/
def State.objectRaw (s : State) (i sub : Nat) : Nat :=
  match rowAt i sub with
  | none => 0
  | some r =>
    let v := leNat (s.readObject .can i sub r).1
    if [2, 3, 4, 21].contains r.type then sput 64 (sget (8 * r.size) v) else v % 2 ^ 64

/-- R326. An entry's Period elapses: its object source is sampled, and an entry of TriggerMode 2 is packed. -/
def execMapPeriodTimer (me : Nat) (s : State) : Ans :=
  onUnit (decide (me < 1024))
    (if !s.mapping || !s.flag (mapKey me 1) || decide (s.clock < (s.mapEntry me).periodAt + msec (s.mcfg me 0x12)) then s
     else
      let s := s.updMap me fun x => { x with periodAt := s.clock }
      let s :=
        if s.mcfg me 2 = 3 then
          let sel := s.mcfg me 3
          s.mapRaw me (s.objectRaw (field sel 8 16) (field sel 0 8)) s.station 0
        else s
      if s.mcfg me 0x10 = 2 then (s.mapPack me).tpdoCheck else s)

end Sys2Proof.Machine
end

