-- ==== Sys2Proof/Machine/Dispatch.lean ====
section
/-!
DEFINITION. The dispatch: one arm for each command.
-/

namespace Sys2Proof.Machine

open Sys2Proof

/-- The command's effect on everything but the queue. -/
def exec (i : Instr) (s : State) : Host.Outcome State Fault Refusal :=
  match i with
  | .resetAsserted card => Sys2Proof.Machine.execResetAsserted card s
  | .resetReleased straps rootTest => Sys2Proof.Machine.execResetReleased straps rootTest s
  | .ilkaiDeclaredStarted => Sys2Proof.Machine.execIlkaiDeclaredStarted s
  | .bootWatchdogExpired => Sys2Proof.Machine.execBootWatchdogExpired s
  | .stateRequestSetup path => Sys2Proof.Machine.execStateRequestSetup path s
  | .stateRequestRun path => Sys2Proof.Machine.execStateRequestRun path s
  | .stateRequestMaintain path => Sys2Proof.Machine.execStateRequestMaintain path s
  | .setupTransitionComplete => Sys2Proof.Machine.execSetupTransitionComplete s
  | .islandWatchdogExpired isl fifo => Sys2Proof.Machine.execIslandWatchdogExpired isl fifo s
  | .d2dFrameReceived good => Sys2Proof.Machine.execD2dFrameReceived good s
  | .d2dLinkTimeout => Sys2Proof.Machine.execD2dLinkTimeout s
  | .domainEnableWrite path dom value => Sys2Proof.Machine.execDomainEnableWrite path dom value s
  | .domainPowerUpStagger => Sys2Proof.Machine.execDomainPowerUpStagger s
  | .domainSupplyFail dom rail mv => Sys2Proof.Machine.execDomainSupplyFail dom rail mv s
  | .odWrite path index sub data => Sys2Proof.Machine.execOdWrite path index sub data s
  | .mgmtReadRequest mp msg => Sys2Proof.Machine.execMgmtReadRequest mp msg s
  | .mgmtWriteRequest mp msg => Sys2Proof.Machine.execMgmtWriteRequest mp msg s
  | .sdoInitiateDownload frame => Sys2Proof.Machine.execSdoInitiateDownload frame s
  | .sdoDownloadSegment frame => Sys2Proof.Machine.execSdoDownloadSegment frame s
  | .sdoInitiateUpload frame => Sys2Proof.Machine.execSdoInitiateUpload frame s
  | .sdoUploadSegment frame => Sys2Proof.Machine.execSdoUploadSegment frame s
  | .sdoBlockDownloadSegment frame => Sys2Proof.Machine.execSdoBlockDownloadSegment frame s
  | .sdoBlockDownloadEnd frame => Sys2Proof.Machine.execSdoBlockDownloadEnd frame s
  | .sdoBlockUploadRequest frame => Sys2Proof.Machine.execSdoBlockUploadRequest frame s
  | .sdoAbortReceived frame => Sys2Proof.Machine.execSdoAbortReceived frame s
  | .sdoTimeout => Sys2Proof.Machine.execSdoTimeout s
  | .rpdoReceived pdo data => Sys2Proof.Machine.execRpdoReceived pdo data s
  | .syncReceived => Sys2Proof.Machine.execSyncReceived s
  | .tpdoEventTimer pdo => Sys2Proof.Machine.execTpdoEventTimer pdo s
  | .tpdoInhibitEnd pdo => Sys2Proof.Machine.execTpdoInhibitEnd pdo s
  | .heartbeatTimer => Sys2Proof.Machine.execHeartbeatTimer s
  | .nmtStartRemoteNode node => Sys2Proof.Machine.execNmtStartRemoteNode node s
  | .nmtEnterPreOperational node => Sys2Proof.Machine.execNmtEnterPreOperational node s
  | .nmtStopRemoteNode node => Sys2Proof.Machine.execNmtStopRemoteNode node s
  | .nmtResetCommunication node => Sys2Proof.Machine.execNmtResetCommunication node s
  | .nmtResetNode node => Sys2Proof.Machine.execNmtResetNode node s
  | .sessionRequest path value => Sys2Proof.Machine.execSessionRequest path value s
  | .sessionEndRequest path => Sys2Proof.Machine.execSessionEndRequest path s
  | .sessionResponse path tk data => Sys2Proof.Machine.execSessionResponse path tk data s
  | .challengeExpired path => Sys2Proof.Machine.execChallengeExpired path s
  | .sessionIdleTimeout path => Sys2Proof.Machine.execSessionIdleTimeout path s
  | .sessionAgeTimeout path => Sys2Proof.Machine.execSessionAgeTimeout path s
  | .sessionLimitWrite path sub value => Sys2Proof.Machine.execSessionLimitWrite path sub value s
  | .lockoutEnd path => Sys2Proof.Machine.execLockoutEnd path s
  | .violationsClear path value => Sys2Proof.Machine.execViolationsClear path value s
  | .storeConfiguration path area value => Sys2Proof.Machine.execStoreConfiguration path area value s
  | .restoreDefaults path area value => Sys2Proof.Machine.execRestoreDefaults path area value s
  | .commandAbort path index value => Sys2Proof.Machine.execCommandAbort path index value s
  | .functionModeWrite path fn value => Sys2Proof.Machine.execFunctionModeWrite path fn value s
  | .functionSwitchComplete fn => Sys2Proof.Machine.execFunctionSwitchComplete fn s
  | .codewordGroupReceived t words xorZero marker stamp idles => Sys2Proof.Machine.execCodewordGroupReceived t words xorZero marker stamp idles s
  | .laneSignalLost t lane cause => Sys2Proof.Machine.execLaneSignalLost t lane cause s
  | .markerTimeout t => Sys2Proof.Machine.execMarkerTimeout t s
  | .trainingFrameReceived t phys inverted frame => Sys2Proof.Machine.execTrainingFrameReceived t phys inverted frame s
  | .trunkEnableWrite path t value => Sys2Proof.Machine.execTrunkEnableWrite path t value s
  | .trunkSignalDetect t mask => Sys2Proof.Machine.execTrunkSignalDetect t mask s
  | .laneSyncTimeout t => Sys2Proof.Machine.execLaneSyncTimeout t s
  | .identifyTimeout t => Sys2Proof.Machine.execIdentifyTimeout t s
  | .capabilitiesTimeout t => Sys2Proof.Machine.execCapabilitiesTimeout t s
  | .rateSwitchDelayExpired t => Sys2Proof.Machine.execRateSwitchDelayExpired t s
  | .rateChangeLockTimeout t => Sys2Proof.Machine.execRateChangeLockTimeout t s
  | .equaliseAdaptationComplete t => Sys2Proof.Machine.execEqualiseAdaptationComplete t s
  | .equaliseTimeout t => Sys2Proof.Machine.execEqualiseTimeout t s
  | .verifyWindowEnd t => Sys2Proof.Machine.execVerifyWindowEnd t s
  | .heldRetryExpired t => Sys2Proof.Machine.execHeldRetryExpired t s
  | .eyeWaitRepeat t => Sys2Proof.Machine.execEyeWaitRepeat t s
  | .trunkRetrain path t => Sys2Proof.Machine.execTrunkRetrain path t s
  | .trunkClearCounters path t => Sys2Proof.Machine.execTrunkClearCounters path t s
  | .retrainRequestSend t => Sys2Proof.Machine.execRetrainRequestSend t s
  | .retrainWaitTimeout t => Sys2Proof.Machine.execRetrainWaitTimeout t s
  | .eyeApplyLane path t => Sys2Proof.Machine.execEyeApplyLane path t s
  | .eyeFinishEqualise path t => Sys2Proof.Machine.execEyeFinishEqualise path t s
  | .controlCellReceived t cell => Sys2Proof.Machine.execControlCellReceived t cell s
  | .cellReceived t raw keyParity => Sys2Proof.Machine.execCellReceived t raw keyParity s
  | .tunnelEnable path n => Sys2Proof.Machine.execTunnelEnable path n s
  | .tunnelDisable path n => Sys2Proof.Machine.execTunnelDisable path n s
  | .tunnelRecordWrite path n sub value => Sys2Proof.Machine.execTunnelRecordWrite path n sub value s
  | .tunnelDrain path n => Sys2Proof.Machine.execTunnelDrain path n s
  | .tunnelClearCounters path n => Sys2Proof.Machine.execTunnelClearCounters path n s
  | .offerReceived t n msg => Sys2Proof.Machine.execOfferReceived t n msg s
  | .negotiationRepeat n => Sys2Proof.Machine.execNegotiationRepeat n s
  | .closeReceived n => Sys2Proof.Machine.execCloseReceived n s
  | .closeSend n => Sys2Proof.Machine.execCloseSend n s
  | .drainBoundExpired n => Sys2Proof.Machine.execDrainBoundExpired n s
  | .keyReadyReceived n slotNamed => Sys2Proof.Machine.execKeyReadyReceived n slotNamed s
  | .keySlotNextWrite path n value => Sys2Proof.Machine.execKeySlotNextWrite path n value s
  | .keyReadyRepeat n => Sys2Proof.Machine.execKeyReadyRepeat n s
  | .oldKeyAcceptExpired n => Sys2Proof.Machine.execOldKeyAcceptExpired n s
  | .twinLagTimeout n side => Sys2Proof.Machine.execTwinLagTimeout n side s
  | .fabricCellArrival fp cls => Sys2Proof.Machine.execFabricCellArrival fp cls s
  | .egressSerialise fp cls ecc x => Sys2Proof.Machine.execEgressSerialise fp cls ecc x s
  | .redAverageIdleUpdate fp cls => Sys2Proof.Machine.execRedAverageIdleUpdate fp cls s
  | .stallBoundExpired fp cls => Sys2Proof.Machine.execStallBoundExpired fp cls s
  | .holdBoundExpired t => Sys2Proof.Machine.execHoldBoundExpired t s
  | .openUnitTimeout fp cls flow => Sys2Proof.Machine.execOpenUnitTimeout fp cls flow s
  | .l2EntryAged entry => Sys2Proof.Machine.execL2EntryAged entry s
  | .l2ReadMatch path => Sys2Proof.Machine.execL2ReadMatch path s
  | .l2ReadSlot path => Sys2Proof.Machine.execL2ReadSlot path s
  | .l2WriteEntry path => Sys2Proof.Machine.execL2WriteEntry path s
  | .l2DeleteEntry path => Sys2Proof.Machine.execL2DeleteEntry path s
  | .l2FlushLearnt path => Sys2Proof.Machine.execL2FlushLearnt path s
  | .fabricClearCounters path => Sys2Proof.Machine.execFabricClearCounters path s
  | .schedCycleStart t => Sys2Proof.Machine.execSchedCycleStart t s
  | .schedCellTime t ecc => Sys2Proof.Machine.execSchedCellTime t ecc s
  | .gateTableSwitch path t => Sys2Proof.Machine.execGateTableSwitch path t s
  | .schedVersionMismatch t => Sys2Proof.Machine.execSchedVersionMismatch t s
  | .carveEpoch t => Sys2Proof.Machine.execCarveEpoch t s
  | .outputEnable path d => Sys2Proof.Machine.execOutputEnable path d s
  | .outputDisable path d => Sys2Proof.Machine.execOutputDisable path d s
  | .hpdAsserted d => Sys2Proof.Machine.execHpdAsserted d s
  | .hpdDeasserted d => Sys2Proof.Machine.execHpdDeasserted d s
  | .hpdLowTimeout d => Sys2Proof.Machine.execHpdLowTimeout d s
  | .irqHpd d linkGood goods => Sys2Proof.Machine.execIrqHpd d linkGood goods s
  | .dpLinkTrainingDone d sinkRate sinkLanes dpcd7 goods edid => Sys2Proof.Machine.execDpLinkTrainingDone d sinkRate sinkLanes dpcd7 goods edid s
  | .lvdsClockStable d => Sys2Proof.Machine.execLvdsClockStable d s
  | .frontPorchLineEnd d => Sys2Proof.Machine.execFrontPorchLineEnd d s
  | .displayCellReceived n c => Sys2Proof.Machine.execDisplayCellReceived n c s
  | .layerUnderrun lay p => Sys2Proof.Machine.execLayerUnderrun lay p s
  | .outputClearCounters path d => Sys2Proof.Machine.execOutputClearCounters path d s
  | .signatureCompletion d reg => Sys2Proof.Machine.execSignatureCompletion d reg s
  | .freezeTimeExpired d reg => Sys2Proof.Machine.execFreezeTimeExpired d reg s
  | .activeAreaEnd d => Sys2Proof.Machine.execActiveAreaEnd d s
  | .integrityClear path d => Sys2Proof.Machine.execIntegrityClear path d s
  | .expectedSignatureWrite path d reg value => Sys2Proof.Machine.execExpectedSignatureWrite path d reg value s
  | .usbRequestUnit n unit damage => Sys2Proof.Machine.execUsbRequestUnit n unit damage s
  | .microframeStart => Sys2Proof.Machine.execMicroframeStart s
  | .usbTransactionStart u dur => Sys2Proof.Machine.execUsbTransactionStart u dur s
  | .usbTransactionEnd u res pid data => Sys2Proof.Machine.execUsbTransactionEnd u res pid data s
  | .nakRetryExpired u => Sys2Proof.Machine.execNakRetryExpired u s
  | .busCommandReset n => Sys2Proof.Machine.execBusCommandReset n s
  | .busCommandSuspend n => Sys2Proof.Machine.execBusCommandSuspend n s
  | .busCommandResume n sn => Sys2Proof.Machine.execBusCommandResume n sn s
  | .resumeKEnd => Sys2Proof.Machine.execResumeKEnd s
  | .dspDeviceAttach u slow => Sys2Proof.Machine.execDspDeviceAttach u slow s
  | .dspDeviceDetach u => Sys2Proof.Machine.execDspDeviceDetach u s
  | .deviceChirpDetected u len => Sys2Proof.Machine.execDeviceChirpDetected u len s
  | .portResetEnd u => Sys2Proof.Machine.execPortResetEnd u s
  | .dspDeviceK u => Sys2Proof.Machine.execDspDeviceK u s
  | .setPortPower u => Sys2Proof.Machine.execSetPortPower u s
  | .clearPortPower u => Sys2Proof.Machine.execClearPortPower u s
  | .setPortReset u => Sys2Proof.Machine.execSetPortReset u s
  | .setPortSuspend u => Sys2Proof.Machine.execSetPortSuspend u s
  | .clearPortSuspend u => Sys2Proof.Machine.execClearPortSuspend u s
  | .clearPortEnable u => Sys2Proof.Machine.execClearPortEnable u s
  | .setPortTest u selector => Sys2Proof.Machine.execSetPortTest u selector s
  | .clearPortChange u feature => Sys2Proof.Machine.execClearPortChange u feature s
  | .clearHubChange feature => Sys2Proof.Machine.execClearHubChange feature s
  | .getPortStatus u => Sys2Proof.Machine.execGetPortStatus u s
  | .hubGetStatus of => Sys2Proof.Machine.execHubGetStatus of s
  | .hubGetDescriptor type num len => Sys2Proof.Machine.execHubGetDescriptor type num len s
  | .hubSetAddress addr => Sys2Proof.Machine.execHubSetAddress addr s
  | .hubSetConfiguration value => Sys2Proof.Machine.execHubSetConfiguration value s
  | .hubSetInterface alt => Sys2Proof.Machine.execHubSetInterface alt s
  | .hubSetRemoteWakeup => Sys2Proof.Machine.execHubSetRemoteWakeup s
  | .hubClearRemoteWakeup => Sys2Proof.Machine.execHubClearRemoteWakeup s
  | .clearTtBuffer u addr endpoint type isIn => Sys2Proof.Machine.execClearTtBuffer u addr endpoint type isIn s
  | .resetTt u => Sys2Proof.Machine.execResetTt u s
  | .relayDownProducerWrite relay count units => Sys2Proof.Machine.execRelayDownProducerWrite relay count units s
  | .relayUpConsumerWrite relay count => Sys2Proof.Machine.execRelayUpConsumerWrite relay count s
  | .relayUnitFromTunnel n unit => Sys2Proof.Machine.execRelayUnitFromTunnel n unit s
  | .usbPortPowerOn path u => Sys2Proof.Machine.execUsbPortPowerOn path u s
  | .usbPortPowerOff path u => Sys2Proof.Machine.execUsbPortPowerOff path u s
  | .usbPortReset path u => Sys2Proof.Machine.execUsbPortReset path u s
  | .usbPortSuspend path u => Sys2Proof.Machine.execUsbPortSuspend path u s
  | .usbPortResume path u => Sys2Proof.Machine.execUsbPortResume path u s
  | .usbPortTestMode path u selector => Sys2Proof.Machine.execUsbPortTestMode path u selector s
  | .usbHubClearCounters path => Sys2Proof.Machine.execUsbHubClearCounters path s
  | .svcDeviceAttach => Sys2Proof.Machine.execSvcDeviceAttach s
  | .svcDeviceDetach => Sys2Proof.Machine.execSvcDeviceDetach s
  | .svcBusReset hs => Sys2Proof.Machine.execSvcBusReset hs s
  | .svcSetupReceived setup => Sys2Proof.Machine.execSvcSetupReceived setup s
  | .svcStatusStageComplete => Sys2Proof.Machine.execSvcStatusStageComplete s
  | .svcSetAddress addr => Sys2Proof.Machine.execSvcSetAddress addr s
  | .svcSetConfiguration value => Sys2Proof.Machine.execSvcSetConfiguration value s
  | .svcSetInterface face alt => Sys2Proof.Machine.execSvcSetInterface face alt s
  | .svcSetEndpointHalt ep isIn => Sys2Proof.Machine.execSvcSetEndpointHalt ep isIn s
  | .svcClearEndpointHalt ep isIn => Sys2Proof.Machine.execSvcClearEndpointHalt ep isIn s
  | .svcOutPacket ep pid data => Sys2Proof.Machine.execSvcOutPacket ep pid data s
  | .svcInToken ep acked => Sys2Proof.Machine.execSvcInToken ep acked s
  | .svcSuspendDetected => Sys2Proof.Machine.execSvcSuspendDetected s
  | .svcHostResume => Sys2Proof.Machine.execSvcHostResume s
  | .svcRemoteWake path hostFirst => Sys2Proof.Machine.execSvcRemoteWake path hostFirst s
  | .svcDeviceEnableWrite path value => Sys2Proof.Machine.execSvcDeviceEnableWrite path value s
  | .typecAttach source cc partner => Sys2Proof.Machine.execTypecAttach source cc partner s
  | .typecDetach => Sys2Proof.Machine.execTypecDetach s
  | .drpToggleTimer => Sys2Proof.Machine.execDrpToggleTimer s
  | .trySnkTimeout => Sys2Proof.Machine.execTrySnkTimeout s
  | .errorRecoveryEnd => Sys2Proof.Machine.execErrorRecoveryEnd s
  | .raDetected => Sys2Proof.Machine.execRaDetected s
  | .pdSourceCapabilities id rev pdos => Sys2Proof.Machine.execPdSourceCapabilities id rev pdos s
  | .pdRequest id rev rdo => Sys2Proof.Machine.execPdRequest id rev rdo s
  | .pdAccept id => Sys2Proof.Machine.execPdAccept id s
  | .pdReject id notSupported => Sys2Proof.Machine.execPdReject id notSupported s
  | .pdWait id => Sys2Proof.Machine.execPdWait id s
  | .pdPsRdy id => Sys2Proof.Machine.execPdPsRdy id s
  | .pdGetSourceCap id => Sys2Proof.Machine.execPdGetSourceCap id s
  | .pdGetSinkCap id => Sys2Proof.Machine.execPdGetSinkCap id s
  | .pdDrSwap id => Sys2Proof.Machine.execPdDrSwap id s
  | .pdVconnSwap id => Sys2Proof.Machine.execPdVconnSwap id s
  | .pdSoftReset id => Sys2Proof.Machine.execPdSoftReset id s
  | .pdHardReset => Sys2Proof.Machine.execPdHardReset s
  | .pdDiscoverIdentity m => Sys2Proof.Machine.execPdDiscoverIdentity m s
  | .pdPrSwap id => Sys2Proof.Machine.execPdPrSwap id s
  | .pdExtendedMessage id => Sys2Proof.Machine.execPdExtendedMessage id s
  | .pdBist id carrier => Sys2Proof.Machine.execPdBist id carrier s
  | .pdGoodcrcTimeout => Sys2Proof.Machine.execPdGoodcrcTimeout s
  | .firstSourceCapTimer => Sys2Proof.Machine.execFirstSourceCapTimer s
  | .sourceCapRepeat => Sys2Proof.Machine.execSourceCapRepeat s
  | .srcTransitionExpired => Sys2Proof.Machine.execSrcTransitionExpired s
  | .vbusSettled sinkPdos => Sys2Proof.Machine.execVbusSettled sinkPdos s
  | .psTransitionSrcTimeout mv => Sys2Proof.Machine.execPsTransitionSrcTimeout mv s
  | .psTransitionTimeout => Sys2Proof.Machine.execPsTransitionTimeout s
  | .senderResponseTimeout => Sys2Proof.Machine.execSenderResponseTimeout s
  | .sinkRequestRetry => Sys2Proof.Machine.execSinkRequestRetry s
  | .svcVbusOvervoltage mv ma temp => Sys2Proof.Machine.execSvcVbusOvervoltage mv ma temp s
  | .svcCcOvervoltage mv => Sys2Proof.Machine.execSvcCcOvervoltage mv s
  | .vconnOvercurrent ma => Sys2Proof.Machine.execVconnOvercurrent ma s
  | .pdCmdDrSwap path => Sys2Proof.Machine.execPdCmdDrSwap path s
  | .pdCmdVconnSwap path => Sys2Proof.Machine.execPdCmdVconnSwap path s
  | .pdCmdHardReset path => Sys2Proof.Machine.execPdCmdHardReset path s
  | .pdCmdSendSourceCap path => Sys2Proof.Machine.execPdCmdSendSourceCap path s
  | .pdCmdRequest path position => Sys2Proof.Machine.execPdCmdRequest path position s
  | .pdoWrite path item value => Sys2Proof.Machine.execPdoWrite path item value s
  | .ethFrameReceived e frame => Sys2Proof.Machine.execEthFrameReceived e frame s
  | .ethLinkUp e speed => Sys2Proof.Machine.execEthLinkUp e speed s
  | .ethLinkDown e => Sys2Proof.Machine.execEthLinkDown e s
  | .pauseFrameReceived e quanta => Sys2Proof.Machine.execPauseFrameReceived e quanta s
  | .ethPortClearCounters path e => Sys2Proof.Machine.execEthPortClearCounters path e s
  | .lifeCheckTimer rp => Sys2Proof.Machine.execLifeCheckTimer rp s
  | .supervisionTimeout e => Sys2Proof.Machine.execSupervisionTimeout e s
  | .nodeForgetTimeout rp mac => Sys2Proof.Machine.execNodeForgetTimeout rp mac s
  | .ptpSyncReceived e frame => Sys2Proof.Machine.execPtpSyncReceived e frame s
  | .ptpFollowUpReceived e frame => Sys2Proof.Machine.execPtpFollowUpReceived e frame s
  | .ptpAnnounceReceived e frame => Sys2Proof.Machine.execPtpAnnounceReceived e frame s
  | .ptpPdelayReqReceived e frame => Sys2Proof.Machine.execPtpPdelayReqReceived e frame s
  | .ptpPdelayRespReceived e frame => Sys2Proof.Machine.execPtpPdelayRespReceived e frame s
  | .ptpSyncTimer e => Sys2Proof.Machine.execPtpSyncTimer e s
  | .ptpPdelayTimer e => Sys2Proof.Machine.execPtpPdelayTimer e s
  | .announceReceiptTimeout e => Sys2Proof.Machine.execAnnounceReceiptTimeout e s
  | .irigFrameReceived stamp irig => Sys2Proof.Machine.execIrigFrameReceived stamp irig s
  | .ppsInEdge rising => Sys2Proof.Machine.execPpsInEdge rising s
  | .ppsOutSecond => Sys2Proof.Machine.execPpsOutSecond s
  | .ppsOutWidthEnd => Sys2Proof.Machine.execPpsOutWidthEnd s
  | .timeSourceLost => Sys2Proof.Machine.execTimeSourceLost s
  | .holdoverLimitExpired => Sys2Proof.Machine.execHoldoverLimitExpired s
  | .timeSourceWrite path sub value => Sys2Proof.Machine.execTimeSourceWrite path sub value s
  | .sf3Fault cause => Sys2Proof.Machine.execSf3Fault cause s
  | .timeStep path => Sys2Proof.Machine.execTimeStep path s
  | .timeSet path => Sys2Proof.Machine.execTimeSet path s
  | .timeSlew path => Sys2Proof.Machine.execTimeSlew path s
  | .hostFrequencyWrite path value => Sys2Proof.Machine.execHostFrequencyWrite path value s
  | .timeStatusMessageSend t => Sys2Proof.Machine.execTimeStatusMessageSend t s
  | .timeStatusMessageReceived t msg => Sys2Proof.Machine.execTimeStatusMessageReceived t msg s
  | .journalClear path => Sys2Proof.Machine.execJournalClear path s
  | .journalEntryRead path => Sys2Proof.Machine.execJournalEntryRead path s
  | .remoteEntryRead path t => Sys2Proof.Machine.execRemoteEntryRead path t s
  | .journalPushCellReceived t payload => Sys2Proof.Machine.execJournalPushCellReceived t payload s
  | .journalAckReceived t index => Sys2Proof.Machine.execJournalAckReceived t index s
  | .journalPushRetransmit t => Sys2Proof.Machine.execJournalPushRetransmit t s
  | .rateLimitPeriodEnd code inst => Sys2Proof.Machine.execRateLimitPeriodEnd code inst s
  | .pcieLinkUp p4 speed width => Sys2Proof.Machine.execPcieLinkUp p4 speed width s
  | .pcieLinkDown p4 => Sys2Proof.Machine.execPcieLinkDown p4 s
  | .driveReady p4 csts spaces => Sys2Proof.Machine.execDriveReady p4 csts spaces s
  | .driveInitTimeout p4 x => Sys2Proof.Machine.execDriveInitTimeout p4 x s
  | .nvmeSqDoorbell p4 q tail => Sys2Proof.Machine.execNvmeSqDoorbell p4 q tail s
  | .nvmeRead p4 q cid nsid slba blocks prps => Sys2Proof.Machine.execNvmeRead p4 q cid nsid slba blocks prps s
  | .nvmeWrite p4 q cid nsid slba blocks buf => Sys2Proof.Machine.execNvmeWrite p4 q cid nsid slba blocks buf s
  | .nvmeFlush p4 q cid nsid => Sys2Proof.Machine.execNvmeFlush p4 q cid nsid s
  | .nvmeWriteZeroes p4 q cid nsid slba blocks => Sys2Proof.Machine.execNvmeWriteZeroes p4 q cid nsid slba blocks s
  | .nvmeIdentify p4 cid cns nsid => Sys2Proof.Machine.execNvmeIdentify p4 cid cns nsid s
  | .nvmeCreateIoQueue p4 cid submission q size other ien => Sys2Proof.Machine.execNvmeCreateIoQueue p4 cid submission q size other ien s
  | .nvmeDeleteIoQueue p4 cid submission q => Sys2Proof.Machine.execNvmeDeleteIoQueue p4 cid submission q s
  | .nvmeGetLogPage p4 cid lid len => Sys2Proof.Machine.execNvmeGetLogPage p4 cid lid len s
  | .nvmeGetFeatures p4 cid fid => Sys2Proof.Machine.execNvmeGetFeatures p4 cid fid s
  | .nvmeSetFeatures p4 cid fid value => Sys2Proof.Machine.execNvmeSetFeatures p4 cid fid value s
  | .nvmeAbort p4 cid => Sys2Proof.Machine.execNvmeAbort p4 cid s
  | .nvmeAsyncEventRequest p4 cid => Sys2Proof.Machine.execNvmeAsyncEventRequest p4 cid s
  | .nvmeInvalidOpcode p4 q cid => Sys2Proof.Machine.execNvmeInvalidOpcode p4 q cid s
  | .storageUnitReceived n u mark => Sys2Proof.Machine.execStorageUnitReceived n u mark s
  | .driveCompletion p4 own status => Sys2Proof.Machine.execDriveCompletion p4 own status s
  | .windowWriteRequest p4 addr be data => Sys2Proof.Machine.execWindowWriteRequest p4 addr be data s
  | .windowReadRequest p4 addr len be tag => Sys2Proof.Machine.execWindowReadRequest p4 addr len be tag s
  | .mrdlkRequest p4 addr len tag => Sys2Proof.Machine.execMrdlkRequest p4 addr len tag s
  | .unlockMessage p4 => Sys2Proof.Machine.execUnlockMessage p4 s
  | .windowUnitReceived n damaged seq unit busStatus busData => Sys2Proof.Machine.execWindowUnitReceived n damaged seq unit busStatus busData s
  | .windowCompletionReceived n damaged seq unit => Sys2Proof.Machine.execWindowCompletionReceived n damaged seq unit s
  | .lockRefusedReceived n unit => Sys2Proof.Machine.execLockRefusedReceived n unit s
  | .completionTimeout tag => Sys2Proof.Machine.execCompletionTimeout tag s
  | .prefetchLifeExpired win => Sys2Proof.Machine.execPrefetchLifeExpired win s
  | .windowUnfence path win => Sys2Proof.Machine.execWindowUnfence path win s
  | .windowClearCounters path win => Sys2Proof.Machine.execWindowClearCounters path win s
  | .storageFlush path => Sys2Proof.Machine.execStorageFlush path s
  | .busMasterDisable w => Sys2Proof.Machine.execBusMasterDisable w s
  | .rootPortDeviceRequest p4 write addr len be tag data => Sys2Proof.Machine.execRootPortDeviceRequest p4 write addr len be tag data s
  | .pcieClearCounters path p4 => Sys2Proof.Machine.execPcieClearCounters path p4 s
  | .canFrameReceived cp frame stamp => Sys2Proof.Machine.execCanFrameReceived cp frame stamp s
  | .canBusOff cp tec rec_ => Sys2Proof.Machine.execCanBusOff cp tec rec_ s
  | .canBusOffRecovery cp => Sys2Proof.Machine.execCanBusOffRecovery cp s
  | .canLeaveBusOff path cp => Sys2Proof.Machine.execCanLeaveBusOff path cp s
  | .uartUnitClose ua flags stamp data => Sys2Proof.Machine.execUartUnitClose ua flags stamp data s
  | .uartUnitTransmit ua cts => Sys2Proof.Machine.execUartUnitTransmit ua cts s
  | .fieldUnitReceived n unit mark => Sys2Proof.Machine.execFieldUnitReceived n unit mark s
  | .mapPeriodTimer me => Sys2Proof.Machine.execMapPeriodTimer me s
  | .staleTimeExpired me => Sys2Proof.Machine.execStaleTimeExpired me s
  | .canTxCycleTimer fr => Sys2Proof.Machine.execCanTxCycleTimer fr s
  | .canTxInhibitEnd fr => Sys2Proof.Machine.execCanTxInhibitEnd fr s
  | .gooseRepeatTimer g => Sys2Proof.Machine.execGooseRepeatTimer g s
  | .gooseTalExpired sb => Sys2Proof.Machine.execGooseTalExpired sb s
  | .signalValueWrite path me sub value => Sys2Proof.Machine.execSignalValueWrite path me sub value s
  | .keyDerive run => Sys2Proof.Machine.execKeyDerive run s
  | .keyAgree run => Sys2Proof.Machine.execKeyAgree run s
  | .keyImport run => Sys2Proof.Machine.execKeyImport run s
  | .keyInvalidate run => Sys2Proof.Machine.execKeyInvalidate run s
  | .enterOperational path upper => Sys2Proof.Machine.execEnterOperational path upper s
  | .decommission path upper => Sys2Proof.Machine.execDecommission path upper s
  | .enrolCustomerKeyHash path => Sys2Proof.Machine.execEnrolCustomerKeyHash path s
  | .tamperAlarm source active => Sys2Proof.Machine.execTamperAlarm source active s
  | .tamperClear path => Sys2Proof.Machine.execTamperClear path s
  | .vanguriRequest t busy msg cut => Sys2Proof.Machine.execVanguriRequest t busy msg cut s
  | .vanguriSign path cut => Sys2Proof.Machine.execVanguriSign path cut s
  | .cryptoSelftest engine pass => Sys2Proof.Machine.execCryptoSelftest engine pass s
  | .trngHealthFailure test => Sys2Proof.Machine.execTrngHealthFailure test s
  | .feedStateChange feed mv vor => Sys2Proof.Machine.execFeedStateChange feed mv vor s
  | .feedReverseCurrent feed mv vor => Sys2Proof.Machine.execFeedReverseCurrent feed mv vor s
  | .vorBelowMinimum vor => Sys2Proof.Machine.execVorBelowMinimum vor s
  | .holdupCheck mv => Sys2Proof.Machine.execHoldupCheck mv s
  | .inletDebounceComplete vor => Sys2Proof.Machine.execInletDebounceComplete vor s
  | .inletOvervoltage vor => Sys2Proof.Machine.execInletOvervoltage vor s
  | .powerFailWarning vor => Sys2Proof.Machine.execPowerFailWarning vor s
  | .breakerOnRequest ch => Sys2Proof.Machine.execBreakerOnRequest ch s
  | .breakerRequestWithdrawn ch => Sys2Proof.Machine.execBreakerRequestWithdrawn ch s
  | .breakerFullEnhancement ch => Sys2Proof.Machine.execBreakerFullEnhancement ch s
  | .breakerRampTimeout ch ma temp => Sys2Proof.Machine.execBreakerRampTimeout ch ma temp s
  | .breakerCurveTrip ch point ma temp => Sys2Proof.Machine.execBreakerCurveTrip ch point ma temp s
  | .breakerFastTrip ch ma temp => Sys2Proof.Machine.execBreakerFastTrip ch ma temp s
  | .breakerThermalTrip ch ma temp => Sys2Proof.Machine.execBreakerThermalTrip ch ma temp s
  | .breakerReverseCurrent ch ma temp => Sys2Proof.Machine.execBreakerReverseCurrent ch ma temp s
  | .breakerRetryTimer ch temp => Sys2Proof.Machine.execBreakerRetryTimer ch temp s
  | .retryResetTimeExpired ch => Sys2Proof.Machine.execRetryResetTimeExpired ch s
  | .retryCountWrite path ch value => Sys2Proof.Machine.execRetryCountWrite path ch value s
  | .inletRestart => Sys2Proof.Machine.execInletRestart s
  | .fetSensorFault ch ohms => Sys2Proof.Machine.execFetSensorFault ch ohms s
  | .breakerReset path ch => Sys2Proof.Machine.execBreakerReset path ch s
  | .breakerRetryNow path ch temp => Sys2Proof.Machine.execBreakerRetryNow path ch temp s
  | .breakerClearCounters path ch => Sys2Proof.Machine.execBreakerClearCounters path ch s
  | .powerEntryClearCounters path => Sys2Proof.Machine.execPowerEntryClearCounters path s
  | .pd0ColdStart => Sys2Proof.Machine.execPd0ColdStart s
  | .railGroupEnable => Sys2Proof.Machine.execRailGroupEnable s
  | .railGroupGood => Sys2Proof.Machine.execRailGroupGood s
  | .railGroupTimeout => Sys2Proof.Machine.execRailGroupTimeout s
  | .railFault rail overV mv => Sys2Proof.Machine.execRailFault rail overV mv s
  | .appEnableWrite path value => Sys2Proof.Machine.execAppEnableWrite path value s
  | .appLoadComplete => Sys2Proof.Machine.execAppLoadComplete s
  | .appStart path => Sys2Proof.Machine.execAppStart path s
  | .appHalt path => Sys2Proof.Machine.execAppHalt path s
  | .appRestart path => Sys2Proof.Machine.execAppRestart path s
  | .appClearCounters path => Sys2Proof.Machine.execAppClearCounters path s
  | .busUnmappedAccess addr => Sys2Proof.Machine.execBusUnmappedAccess addr s
  | .gwGoRead address length => Sys2Proof.Machine.execGwGoRead address length s
  | .gwGoWrite address length data => Sys2Proof.Machine.execGwGoWrite address length data s
  | .gatewayDone => Sys2Proof.Machine.execGatewayDone s
  | .jpEntryRead index => Sys2Proof.Machine.execJpEntryRead index s
  | .jpWrite code sev args => Sys2Proof.Machine.execJpWrite code sev args s
  | .dbSet bell => Sys2Proof.Machine.execDbSet bell s
  | .dbClear bell => Sys2Proof.Machine.execDbClear bell s
  | .doorbellRing path bell => Sys2Proof.Machine.execDoorbellRing path bell s
  | .appMailboxPost path => Sys2Proof.Machine.execAppMailboxPost path s
  | .hostMsgTake => Sys2Proof.Machine.execHostMsgTake s
  | .appMsgSend msg => Sys2Proof.Machine.execAppMsgSend msg s
  | .endpointDescriptorWrite ep isIn buf owner halt data => Sys2Proof.Machine.execEndpointDescriptorWrite ep isIn buf owner halt data s
  | .stimeLatchRead => Sys2Proof.Machine.execStimeLatchRead s
  | .tmrArm tmr due period periodic => Sys2Proof.Machine.execTmrArm tmr due period periodic s
  | .timerExpiry tmr => Sys2Proof.Machine.execTimerExpiry tmr s
  | .wdogKick value => Sys2Proof.Machine.execWdogKick value s
  | .watchdogExpiry => Sys2Proof.Machine.execWatchdogExpiry s
  | .nClaim pair enable => Sys2Proof.Machine.execNClaim pair enable s
  | .nComplete pair source => Sys2Proof.Machine.execNComplete pair source s
  | .fClaim pair enable => Sys2Proof.Machine.execFClaim pair enable s
  | .fComplete pair source => Sys2Proof.Machine.execFComplete pair source s
  | .normalInterruptEntry pair enable ctrl resumed => Sys2Proof.Machine.execNormalInterruptEntry pair enable ctrl resumed s
  | .fastInterruptEntry pair enable ctrl => Sys2Proof.Machine.execFastInterruptEntry pair enable ctrl s
  | .ci2ClockStop => Sys2Proof.Machine.execCi2ClockStop s
  | .ci2ClockRestart request => Sys2Proof.Machine.execCi2ClockRestart request s
  | .lockstepMismatch pair cycle address => Sys2Proof.Machine.execLockstepMismatch pair cycle address s
  | .shadowCheck ok writing low high => Sys2Proof.Machine.execShadowCheck ok writing low high s
  | .tunnelSilent n => Sys2Proof.Machine.execTunnelSilent n s
  | .sf4PowerPathFault cause unit value => Sys2Proof.Machine.execSf4PowerPathFault cause unit value s
  | .safePulsePermission => Sys2Proof.Machine.execSafePulsePermission s
  | .safePulsePermissionTimeout => Sys2Proof.Machine.execSafePulsePermissionTimeout s
  | .safetyClearLatches path => Sys2Proof.Machine.execSafetyClearLatches path s
  | .shadowReload path => Sys2Proof.Machine.execShadowReload path s
  | .sentinelReport margins delays => Sys2Proof.Machine.execSentinelReport margins delays s
  | .planInstant eyes => Sys2Proof.Machine.execPlanInstant eyes s
  | .marginApprove path => Sys2Proof.Machine.execMarginApprove path s
  | .marginPlanNow path eyes => Sys2Proof.Machine.execMarginPlanNow path eyes s
  | .marginEnvelopeWrite path item value => Sys2Proof.Machine.execMarginEnvelopeWrite path item value s
  | .marginPinnedRepeat loop_ => Sys2Proof.Machine.execMarginPinnedRepeat loop_ s
  | .dramPatrolScrub corrected bad done => Sys2Proof.Machine.execDramPatrolScrub corrected bad done s
  | .bufferPatrolScrub corrected bad done => Sys2Proof.Machine.execBufferPatrolScrub corrected bad done s
  | .sramScrub mem corrected bad done => Sys2Proof.Machine.execSramScrub mem corrected bad done s
  | .mramScrub corrected bad done => Sys2Proof.Machine.execMramScrub corrected bad done s
  | .ddrCalibration kind widths => Sys2Proof.Machine.execDdrCalibration kind widths s
  | .serdesSweep t lane best => Sys2Proof.Machine.execSerdesSweep t lane best s
  | .sensorCalibration => Sys2Proof.Machine.execSensorCalibration s
  | .backgroundTaskBehind task => Sys2Proof.Machine.execBackgroundTaskBehind task s
  | .backgroundTaskEnableWrite path task value => Sys2Proof.Machine.execBackgroundTaskEnableWrite path task value s
  | .norLogWrite log bytes erased programmed => Sys2Proof.Machine.execNorLogWrite log bytes erased programmed s
  | .telemetrySample temps guard rails powers => Sys2Proof.Machine.execTelemetrySample temps guard rails powers s
  | .telemetryLogRecord => Sys2Proof.Machine.execTelemetryLogRecord s
  | .liftDfuDnload alt block data erased programmed => Sys2Proof.Machine.execLiftDfuDnload alt block data erased programmed s
  | .liftDfuDnloadEnd alt programmed => Sys2Proof.Machine.execLiftDfuDnloadEnd alt programmed s
  | .liftDfuAbort => Sys2Proof.Machine.execLiftDfuAbort s
  | .liftDfuGetstatus => Sys2Proof.Machine.execLiftDfuGetstatus s
  | .liftDfuClrstatus => Sys2Proof.Machine.execLiftDfuClrstatus s
  | .liftDfuGetstate => Sys2Proof.Machine.execLiftDfuGetstate s
  | .dfuDetach => Sys2Proof.Machine.execDfuDetach s
  | .stagingDfuDnload block data erased programmed => Sys2Proof.Machine.execStagingDfuDnload block data erased programmed s
  | .stagingDfuDnloadEnd programmed => Sys2Proof.Machine.execStagingDfuDnloadEnd programmed s
  | .imageStage path => Sys2Proof.Machine.execImageStage path s
  | .imageActivate path => Sys2Proof.Machine.execImageActivate path s
  | .imageActivationDone programmed => Sys2Proof.Machine.execImageActivationDone programmed s
  | .imageDiscard path => Sys2Proof.Machine.execImageDiscard path s
  | .fwConfirmSlot path => Sys2Proof.Machine.execFwConfirmSlot path s
  | .fwAdvanceRollback path force => Sys2Proof.Machine.execFwAdvanceRollback path force s
  | .fwRaiseAppFloor path => Sys2Proof.Machine.execFwRaiseAppFloor path s
  | .fwReset path => Sys2Proof.Machine.execFwReset path s
  | .fwResetDelayExpired => Sys2Proof.Machine.execFwResetDelayExpired s
  | .orphanDiscard path => Sys2Proof.Machine.execOrphanDiscard path s
  | .configBackupWrite => Sys2Proof.Machine.execConfigBackupWrite s
  | .pcsBlockReceived t lane valid marker stamp skew => Sys2Proof.Machine.execPcsBlockReceived t lane valid marker stamp skew s
  | .laneLockAcquired t lane => Sys2Proof.Machine.execLaneLockAcquired t lane s
  | .domainGoodAgain dom => Sys2Proof.Machine.execDomainGoodAgain dom s
  | .portResumingEnd u => Sys2Proof.Machine.execPortResumingEnd u s
  | .psHardResetTimer => Sys2Proof.Machine.execPsHardResetTimer s
  | .vbusSafe0vReached => Sys2Proof.Machine.execVbusSafe0vReached s
  | .srcRecoverTimer => Sys2Proof.Machine.execSrcRecoverTimer s
  | .leapSecond => Sys2Proof.Machine.execLeapSecond s

end Sys2Proof.Machine
end

