-- ==== Sys2Proof/Machine/Idle.lean ====
section
/-!
DEFINITION. What an empty queue leaves the block: a nanosecond of its own time.
-/

set_option Elab.async false

namespace Sys2Proof.Machine

open Sys2Proof

/-- The undos of aborted commands that run end (R57; DESIGN CHOICE, log entry 53). -/
def State.undosEnd (s : State) : State :=
  forAll (fun (e : Nat × CmdRec) s => if e.2.undoing then s.cmdAborted e.1 else s) s.cmds s

/-- What waits for management replies and for a halt of EP1 to be cleared is done (R21, R233, R255; log entry 53). -/
def State.mgmtSettle (s : State) : State := (forAll (fun mp s => s.lateRun mp) (upTo 5) s).releaseHeld

/-- The storage and field units whose earlier sequences have come or been judged are acted on (R297, R304, R322; log entry
53). -/
def State.unitsSettle (s : State) : State :=
  let s := forAll (fun n s => s.unitsReady n) ((s.stor.held.map fun e => e.tunnel).eraseDups) s
  forAll (fun n s => s.fieldReady n) ((s.fld.held.map fun e => e.tunnel).eraseDups) s

/-- What is due on the UARTs' lines is done (R319, R320). -/
def State.uartsSettle (s : State) : State := forAll (fun (e : Nat × Uart) s => s.uartSettle e.1) s.fld.lines s

/-- The next Vanguri request of each trunk is answered (R355). -/
def State.vanguriSettle (s : State) : State := forAll (fun t s => s.vanguriServe t) (upTo 4) s

/-- What waited for the hub's own time (log entry 53): undos end, held management messages and late writes are done, units
that waited for their turn are acted on, the UARTs' lines go on, waiting Vanguri requests are answered, and a GoodCRC of
which no timeout told has come (R243). -/
def State.waitsEnd (s : State) : State :=
  s.undosEnd.mgmtSettle.unitsSettle.uartsSettle.vanguriSettle.crcCame

/-- A nanosecond in which no command comes: the clocks run, what waited for the hub's own time is done, and each CAN port
sends the frame that waits first (R318). DESIGN CHOICE, log entry 3. -/
def State.idle (s : State) : State := forAll (fun c s => s.canDrain c) [0, 1] s.tick.waitsEnd

end Sys2Proof.Machine
end

