-- ==== Sys2Proof/Safety.lean ====
section
/-!
DEFINITION. The terms in which statements speak of the hub: the pieces of its state and which of them each command may
change, the canonical form of what it stores, and when the dictionary permits a write.
-/

set_option Elab.async false

namespace Sys2Proof.Machine

open Sys2Proof

/-- The pieces of the state that commands change: its fields, the part, the clock and the queue apart. -/
inductive Piece where
  | head | objs | strs | station | freeCount | timers | sessions | lockouts | sessionCounter | cmds
  | irq | jour | rates | sent | canOpen | modeHeld | stateHeld | trunks | tunnels | fabric
  | scheds | disps | usb | svc | pd | time | eth | pl | stor | dram
  | fld | canNode | keys | secu | power | app | safety | boot
  deriving DecidableEq, Repr

/-- The piece is the same in two states. -/
def Piece.same (z t : State) : Piece → Prop
  | .head => t.head = z.head
  | .objs => t.objs = z.objs
  | .strs => t.strs = z.strs
  | .station => t.station = z.station
  | .freeCount => t.freeCount = z.freeCount
  | .timers => t.timers = z.timers
  | .sessions => t.sessions = z.sessions
  | .lockouts => t.lockouts = z.lockouts
  | .sessionCounter => t.sessionCounter = z.sessionCounter
  | .cmds => t.cmds = z.cmds
  | .irq => t.irq = z.irq
  | .jour => t.jour = z.jour
  | .rates => t.rates = z.rates
  | .sent => t.sent = z.sent
  | .canOpen => t.canOpen = z.canOpen
  | .modeHeld => t.modeHeld = z.modeHeld
  | .stateHeld => t.stateHeld = z.stateHeld
  | .trunks => t.trunks = z.trunks
  | .tunnels => t.tunnels = z.tunnels
  | .fabric => t.fabric = z.fabric
  | .scheds => t.scheds = z.scheds
  | .disps => t.disps = z.disps
  | .usb => t.usb = z.usb
  | .svc => t.svc = z.svc
  | .pd => t.pd = z.pd
  | .time => t.time = z.time
  | .eth => t.eth = z.eth
  | .pl => t.pl = z.pl
  | .stor => t.stor = z.stor
  | .dram => t.dram = z.dram
  | .fld => t.fld = z.fld
  | .canNode => t.canNode = z.canNode
  | .keys => t.keys = z.keys
  | .secu => t.secu = z.secu
  | .power => t.power = z.power
  | .app => t.app = z.app
  | .safety => t.safety = z.safety
  | .boot => t.boot = z.boot

/-- Every piece but some. -/
def Piece.allBut (F : List Piece) : List Piece :=
  [.head, .objs, .strs, .station, .freeCount, .timers, .sessions, .lockouts, .sessionCounter, .cmds, .irq, .jour, .rates, .sent,
    .canOpen, .modeHeld, .stateHeld, .trunks, .tunnels, .fabric, .scheds, .disps, .usb, .svc, .pd, .time, .eth, .pl,
    .stor, .dram, .fld, .canNode, .keys, .secu, .power, .app, .safety, .boot].filter fun f => !F.contains f

/-- What is stored is in its one canonical form (R27, R294), and the journal ring is within its size (R281). -/
structure Canonical (s : State) : Prop where
  objs : Sparse.wf (objDefault s.part s.head) s.objs = true
  strs : Sparse.wf (fun _ => ([] : Bytes)) s.strs = true
  dram : Sparse.wf (fun _ => (0 : BitVec 8)) s.dram = true
  ring : s.jour.ring.length ≤ 131072

/-- The dictionary permits the write of a number (R37-R41): the path exists and reaches it, and the write breaks no rule that
the object's own row states. -/
def State.allows (s : State) (p : Path) (i sub v : Nat) : Prop :=
  p.ok = true ∧ s.reach = true ∧ s.judgeWrite p i sub (leBytes (objSize i sub) v) [] = none

/-- A command block takes a command (R56): the dictionary permits the write, no command of the block is running, and the
hub is in Setup, Run or Maintain. -/
def State.takes (s : State) (p : Path) (i v : Nat) : Prop :=
  s.allows p i 0xF0 v ∧ s.cmdStatus i ≠ 1 ∧ s.dev ≤ 5

/-- The pieces of the state that a command may change, beside the part, the queue and the model's clock, which none does. -/
def mayChange : Instr → List Piece
  | .resetAsserted _ | .bootWatchdogExpired | .inletOvervoltage _ | .breakerRequestWithdrawn _
  | .liftDfuDnloadEnd _ _ | .fwResetDelayExpired | .pd0ColdStart | .vorBelowMinimum _ =>
    Piece.allBut [.head, .freeCount]
  | .resetReleased _ _ =>
    [.head, .objs, .strs, .freeCount, .timers, .irq, .jour, .rates, .sent, .tunnels, .fabric, .scheds, .usb, .keys,
      .secu, .power, .boot]
  | .ilkaiDeclaredStarted =>
    Piece.allBut [.head, .strs, .station, .lockouts, .sessionCounter, .cmds, .modeHeld, .stateHeld, .time, .eth,
      .dram]
  | .stateRequestSetup _ | .stateRequestRun _ | .stateRequestMaintain _ | .setupTransitionComplete =>
    [.objs, .freeCount, .timers, .sessions, .irq, .jour, .rates, .sent, .stateHeld, .trunks, .tunnels, .fabric,
      .scheds, .disps, .usb, .pl, .stor, .fld, .safety]
  | .islandWatchdogExpired _ _ => [.objs, .irq, .jour, .rates, .sent, .trunks, .safety]
  | .d2dFrameReceived _ | .d2dLinkTimeout | .shadowCheck _ _ _ _ | .safePulsePermission
  | .safePulsePermissionTimeout | .planInstant _ => [.objs, .timers, .irq, .jour, .sent, .safety]
  | .domainEnableWrite _ _ _ | .domainSupplyFail _ _ _ =>
    Piece.allBut [.head, .strs, .station, .lockouts, .sessionCounter, .canOpen, .modeHeld, .stateHeld, .pd, .time,
      .canNode, .keys, .secu, .app, .safety, .boot]
  | .domainPowerUpStagger =>
    [.objs, .freeCount, .timers, .sessions, .irq, .jour, .rates, .sent, .trunks, .tunnels, .fabric, .scheds, .disps,
      .usb, .pl, .stor, .fld, .boot]
  | .odWrite _ _ _ _ | .mgmtReadRequest _ _ | .mgmtWriteRequest _ _ | .sdoInitiateDownload _
  | .sdoDownloadSegment _ | .sdoInitiateUpload _ | .sdoUploadSegment _ | .sdoBlockDownloadSegment _
  | .sdoBlockDownloadEnd _ | .sdoBlockUploadRequest _ | .sdoAbortReceived _ | .rpdoReceived _ _
  | .gatewayDone | .syncReceived => Piece.allBut [.head, .canNode]
  | .sdoTimeout | .tpdoEventTimer _ | .tpdoInhibitEnd _ => [.objs, .irq, .jour, .rates, .canOpen, .fld]
  | .heartbeatTimer => [.objs, .timers, .irq, .jour, .rates, .fld]
  | .nmtStartRemoteNode _ | .nmtEnterPreOperational _ | .nmtStopRemoteNode _ => [.canOpen]
  | .nmtResetCommunication _ | .nmtResetNode _ => [.objs, .timers, .sessions, .irq, .jour, .canOpen, .canNode]
  | .sessionRequest _ _ | .sessionEndRequest _ => [.objs, .freeCount, .sessions, .irq, .jour]
  | .sessionResponse _ _ _ => [.objs, .sessions, .lockouts, .sessionCounter, .irq, .jour]
  | .challengeExpired _ => [.sessions]
  | .sessionIdleTimeout _ | .sessionAgeTimeout _ => [.sessions, .irq, .jour]
  | .sessionLimitWrite _ _ _ | .violationsClear _ _ | .doorbellRing _ _ => [.objs, .sessions, .irq, .jour]
  | .expectedSignatureWrite _ _ _ _ => [.objs, .sessions, .irq, .jour, .disps]
  | .lockoutEnd _ => [.lockouts]
  | .storeConfiguration _ _ _ => [.objs, .sessions, .cmds, .irq, .jour, .secu, .boot]
  | .restoreDefaults _ _ _ | .imageStage _ | .imageActivate _ | .imageDiscard _ | .fwConfirmSlot _
  | .fwAdvanceRollback _ _ | .fwRaiseAppFloor _ | .orphanDiscard _ => [.objs, .sessions, .cmds, .irq, .jour, .boot]
  | .commandAbort _ _ _ =>
    [.objs, .timers, .sessions, .cmds, .irq, .jour, .rates, .sent, .trunks, .tunnels, .fabric, .scheds, .disps, .usb,
      .stor, .app, .boot]
  | .functionModeWrite _ _ _ =>
    Piece.allBut [.head, .strs, .station, .lockouts, .sessionCounter, .stateHeld, .svc, .eth, .pl, .dram, .canNode,
      .keys, .secu, .app, .boot]
  | .functionSwitchComplete _ =>
    Piece.allBut [.head, .strs, .station, .sessions, .lockouts, .sessionCounter, .stateHeld, .svc, .eth, .pl, .dram,
      .canNode, .keys, .secu, .app, .boot]
  | .codewordGroupReceived _ _ _ _ _ _ | .laneSignalLost _ _ _ | .markerTimeout _
  | .pcsBlockReceived _ _ _ _ _ _ | .schedCellTime _ _ =>
    [.objs, .freeCount, .timers, .sessions, .irq, .jour, .rates, .sent, .trunks, .tunnels, .fabric, .scheds, .disps,
      .usb, .pl, .stor, .fld, .safety]
  | .trainingFrameReceived _ _ _ _ | .trunkEnableWrite _ _ _ | .laneSyncTimeout _ | .capabilitiesTimeout _
  | .heldRetryExpired _ | .retrainWaitTimeout _ | .tunnelDisable _ _ | .closeReceived _
  | .drainBoundExpired _ | .stallBoundExpired _ _ =>
    [.objs, .freeCount, .timers, .sessions, .irq, .jour, .rates, .sent, .trunks, .tunnels, .fabric, .scheds, .disps,
      .usb, .pl, .stor, .fld]
  | .trunkRetrain _ _ | .eyeFinishEqualise _ _ | .tunnelDrain _ _ =>
    [.objs, .freeCount, .timers, .sessions, .cmds, .irq, .jour, .rates, .sent, .trunks, .tunnels, .fabric, .scheds,
      .disps, .usb, .pl, .stor, .fld]
  | .retrainRequestSend _ => [.trunks]
  | .domainGoodAgain _ =>
    [.objs, .freeCount, .timers, .sessions, .irq, .jour, .rates, .sent, .trunks, .tunnels, .fabric, .scheds, .disps,
      .usb, .pl, .stor, .fld, .power]
  | .trunkSignalDetect _ _ | .equaliseAdaptationComplete _ | .laneLockAcquired _ _
  | .rateChangeLockTimeout _ | .equaliseTimeout _ | .verifyWindowEnd _ =>
    [.objs, .freeCount, .timers, .irq, .jour, .rates, .sent, .trunks, .tunnels, .fabric, .scheds, .disps, .usb, .pl,
      .stor, .fld]
  | .identifyTimeout _ => [.objs, .timers, .irq, .jour, .sent, .trunks]
  | .rateSwitchDelayExpired _ => [.timers, .sent, .trunks]
  | .eyeWaitRepeat _ | .marginPinnedRepeat _ => [.timers, .irq, .jour]
  | .trunkClearCounters _ _ | .tunnelClearCounters _ _ | .l2ReadMatch _ | .l2ReadSlot _
  | .fabricClearCounters _ | .outputClearCounters _ _ | .integrityClear _ _ | .usbHubClearCounters _
  | .ethPortClearCounters _ _ | .windowClearCounters _ _ | .pcieClearCounters _ _
  | .breakerClearCounters _ _ | .powerEntryClearCounters _ | .appClearCounters _ | .shadowReload _ =>
    [.objs, .sessions, .cmds, .irq, .jour]
  | .canLeaveBusOff _ _ => [.objs, .sessions, .cmds, .irq, .jour, .fld]
  | .eyeApplyLane _ _ => [.objs, .sessions, .cmds, .irq, .jour, .sent, .trunks]
  | .controlCellReceived _ _ =>
    Piece.allBut [.head, .strs, .lockouts, .sessionCounter, .cmds, .canOpen, .modeHeld, .stateHeld, .svc, .pd, .eth,
      .dram, .canNode, .keys, .secu, .power, .app, .boot]
  | .cellReceived _ _ _ =>
    Piece.allBut [.head, .strs, .lockouts, .sessionCounter, .cmds, .canOpen, .modeHeld, .stateHeld, .svc, .pd, .eth,
      .dram, .canNode, .secu, .power, .app, .boot]
  | .tunnelEnable _ _ =>
    [.objs, .timers, .sessions, .irq, .jour, .rates, .sent, .tunnels, .fabric, .scheds, .disps, .usb, .stor]
  | .tunnelRecordWrite _ _ _ _ | .keySlotNextWrite _ _ _ => [.objs, .timers, .sessions, .irq, .jour, .tunnels, .fabric]
  | .offerReceived _ _ _ =>
    [.objs, .freeCount, .timers, .irq, .jour, .rates, .sent, .tunnels, .fabric, .scheds, .disps, .usb, .stor, .fld]
  | .negotiationRepeat _ => [.timers, .irq, .jour, .fabric]
  | .keyReadyRepeat _ => [.timers, .fabric]
  | .vanguriRequest _ _ _ _ => [.objs, .irq, .jour, .rates, .fabric, .secu]
  | .closeSend _ => [.tunnels, .fabric]
  | .keyReadyReceived _ _ => [.objs, .timers, .irq, .jour, .tunnels]
  | .oldKeyAcceptExpired _ => [.timers, .tunnels]
  | .twinLagTimeout _ _ => [.objs, .irq, .jour, .tunnels]
  | .fabricCellArrival _ _ => [.objs, .timers, .irq, .jour, .rates, .trunks, .fabric, .scheds]
  | .egressSerialise _ _ _ _ => [.objs, .timers, .irq, .jour, .rates, .sent, .fabric, .eth, .stor, .safety]
  | .redAverageIdleUpdate _ _ => [.fabric]
  | .openUnitTimeout _ _ _ => [.objs, .timers, .irq, .jour, .rates, .fabric]
  | .holdBoundExpired _ => [.objs, .irq, .jour, .rates, .trunks]
  | .l2EntryAged _ => [.objs, .fabric]
  | .l2WriteEntry _ | .l2DeleteEntry _ | .l2FlushLearnt _ => [.objs, .sessions, .cmds, .irq, .jour, .fabric]
  | .schedCycleStart _ =>
    [.objs, .freeCount, .irq, .jour, .rates, .sent, .trunks, .tunnels, .fabric, .scheds, .pl, .fld]
  | .gateTableSwitch _ _ => [.objs, .sessions, .cmds, .irq, .jour, .rates, .scheds]
  | .schedVersionMismatch _ => [.objs, .irq, .jour, .rates]
  | .svcHostResume | .driveInitTimeout _ _ | .trngHealthFailure _ => [.objs, .irq, .jour]
  | .canBusOff _ _ _ | .canBusOffRecovery _ => [.objs, .irq, .jour, .fld]
  | .leapSecond | .timeStatusMessageReceived _ _ => [.objs, .irq, .jour, .pl]
  | .carveEpoch _ => [.objs, .irq, .jour, .rates, .scheds]
  | .outputEnable _ _ | .outputDisable _ _ => [.objs, .timers, .sessions, .irq, .jour, .sent, .disps]
  | .hpdAsserted _ => [.objs, .timers, .disps]
  | .hpdDeasserted _ => [.timers, .disps]
  | .hpdLowTimeout _ | .cryptoSelftest _ _ | .watchdogExpiry => [.objs, .timers, .irq, .jour]
  | .irqHpd _ _ _ => [.objs, .timers, .irq, .jour, .sent]
  | .dpLinkTrainingDone _ _ _ _ _ _ => [.objs, .timers, .irq, .jour, .sent, .disps]
  | .lvdsClockStable _ => [.objs, .irq, .jour, .sent]
  | .frontPorchLineEnd _ => [.objs, .irq, .jour, .rates, .sent, .disps]
  | .displayCellReceived _ _ => [.objs, .freeCount, .irq, .jour, .rates, .disps, .dram]
  | .layerUnderrun _ _ => [.objs, .irq, .jour, .rates, .disps]
  | .signatureCompletion _ _ | .freezeTimeExpired _ _ => [.objs, .irq, .jour, .sent, .disps, .safety]
  | .activeAreaEnd _ => [.objs, .irq, .jour, .rates, .sent, .fabric, .disps]
  | .usbRequestUnit _ _ _ | .nakRetryExpired _ | .hubSetInterface _ | .clearTtBuffer _ _ _ _ _ | .resetTt _ =>
    [.objs, .freeCount, .irq, .jour, .rates, .fabric, .usb]
  | .microframeStart | .usbTransactionEnd _ _ _ _ | .setPortReset _ =>
    [.objs, .freeCount, .timers, .irq, .jour, .rates, .sent, .fabric, .usb]
  | .usbTransactionStart _ _ | .deviceChirpDetected _ _ => [.sent, .usb]
  | .busCommandReset _ | .clearPortPower _ => [.objs, .freeCount, .timers, .irq, .jour, .rates, .fabric, .usb, .power]
  | .busCommandSuspend _ | .dspDeviceDetach _ | .setPortSuspend _ | .clearPortEnable _ =>
    [.objs, .freeCount, .timers, .irq, .jour, .rates, .fabric, .usb]
  | .busCommandResume _ _ | .clearPortSuspend _ => [.objs, .timers, .irq, .jour, .sent, .usb]
  | .resumeKEnd => [.objs, .timers, .irq, .jour, .rates, .fabric, .usb]
  | .dspDeviceAttach _ _ | .portResetEnd _ | .portResumingEnd _ => [.objs, .timers, .irq, .jour, .usb]
  | .dspDeviceK _ => [.objs, .timers, .irq, .jour, .rates, .sent, .fabric, .usb]
  | .setPortPower _ => [.objs, .timers, .irq, .jour, .usb, .power]
  | .setPortTest _ _ | .relayUnitFromTunnel _ _ => [.objs, .sent, .usb]
  | .clearPortChange _ _ => [.objs]
  | .clearHubChange _ | .getPortStatus _ | .hubGetStatus _ | .hubGetDescriptor _ _ _ | .hubSetRemoteWakeup
  | .hubClearRemoteWakeup => [.usb]
  | .hubSetAddress _ | .hubSetConfiguration _ => [.objs, .usb]
  | .relayDownProducerWrite _ _ _ => [.objs, .freeCount, .irq, .jour, .rates, .sent, .fabric, .usb]
  | .relayUpConsumerWrite _ _ => [.objs, .irq, .jour, .rates, .sent, .usb]
  | .usbPortPowerOn _ _ => [.objs, .timers, .sessions, .cmds, .irq, .jour, .usb, .power]
  | .usbPortPowerOff _ _ => [.objs, .freeCount, .timers, .sessions, .cmds, .irq, .jour, .rates, .fabric, .usb, .power]
  | .usbPortReset _ _ => [.objs, .freeCount, .timers, .sessions, .cmds, .irq, .jour, .rates, .sent, .fabric, .usb]
  | .usbPortSuspend _ _ => [.objs, .freeCount, .timers, .sessions, .cmds, .irq, .jour, .rates, .fabric, .usb]
  | .usbPortResume _ _ => [.objs, .timers, .sessions, .cmds, .irq, .jour, .sent, .usb]
  | .usbPortTestMode _ _ _ => [.objs, .sessions, .cmds, .irq, .jour, .sent, .usb]
  | .svcDeviceAttach | .svcStatusStageComplete => [.objs, .irq, .jour, .sent, .svc]
  | .svcDeviceDetach => [.objs, .sessions, .irq, .jour, .sent, .svc]
  | .svcBusReset _ | .svcSetAddress _ | .svcSetConfiguration _ | .svcSuspendDetected => [.objs, .irq, .jour, .svc]
  | .svcSetupReceived _ => [.objs, .svc]
  | .svcSetInterface _ _ | .svcSetEndpointHalt _ _ | .svcClearEndpointHalt _ _
  | .endpointDescriptorWrite _ _ _ _ _ _ => [.objs, .irq, .svc]
  | .svcOutPacket _ _ _ | .svcInToken _ _ => [.objs, .irq, .sent, .svc]
  | .svcRemoteWake _ _ => [.objs, .sessions, .cmds, .irq, .jour, .sent]
  | .svcDeviceEnableWrite _ _ => [.objs, .sessions, .irq, .jour, .svc]
  | .typecAttach _ _ _ | .typecDetach | .svcVbusOvervoltage _ _ _ | .svcCcOvervoltage _
  | .breakerRetryTimer _ _ => [.objs, .timers, .irq, .jour, .sent, .pd, .power]
  | .trySnkTimeout | .breakerOnRequest _ => [.objs, .timers, .sent]
  | .drpToggleTimer | .vbusSafe0vReached => [.timers, .sent, .pd]
  | .pdSoftReset _ | .sinkRequestRetry | .pdSourceCapabilities _ _ _ | .pdRequest _ _ _ | .pdAccept _
  | .pdReject _ _ | .pdWait _ | .pdPsRdy _ | .pdGetSourceCap _ | .pdGetSinkCap _ | .pdDrSwap _
  | .pdVconnSwap _ | .pdHardReset | .pdDiscoverIdentity _ | .pdPrSwap _ | .pdExtendedMessage _
  | .pdBist _ _ | .pdGoodcrcTimeout | .vbusSettled _ | .psTransitionSrcTimeout _ | .psTransitionTimeout
  | .senderResponseTimeout => [.objs, .timers, .irq, .jour, .sent, .pd]
  | .railGroupTimeout | .inletRestart => [.objs, .timers, .irq, .jour, .sent, .power]
  | .errorRecoveryEnd => [.objs, .timers, .sent, .pd]
  | .raDetected => [.objs, .sent, .pd]
  | .firstSourceCapTimer | .sourceCapRepeat => [.timers, .irq, .jour, .sent, .pd]
  | .srcTransitionExpired => [.timers, .sent]
  | .vconnOvercurrent _ => [.objs, .irq, .jour, .sent, .pd]
  | .pdCmdDrSwap _ | .pdCmdVconnSwap _ | .pdCmdHardReset _ | .pdCmdSendSourceCap _ | .pdCmdRequest _ _ =>
    [.objs, .timers, .sessions, .cmds, .irq, .jour, .sent, .pd]
  | .pdoWrite _ _ _ => [.objs, .timers, .sessions, .irq, .jour, .sent, .pd]
  | .ethFrameReceived _ _ => [.objs, .freeCount, .irq, .jour, .rates, .sent, .canOpen, .fabric, .eth, .fld]
  | .ethLinkUp _ _ | .ethLinkDown _ | .supervisionTimeout _ => [.objs, .irq, .jour, .eth]
  | .pauseFrameReceived _ _ | .nodeForgetTimeout _ _ => [.objs, .eth]
  | .lifeCheckTimer _ => [.objs, .irq, .jour, .rates, .sent, .eth]
  | .ptpSyncReceived _ _ | .ptpFollowUpReceived _ _ =>
    [.objs, .station, .freeCount, .irq, .jour, .rates, .sent, .fabric, .scheds, .time, .eth, .pl]
  | .ptpAnnounceReceived _ _ => [.objs, .freeCount, .irq, .jour, .rates, .sent, .canOpen, .fabric, .time, .eth, .fld]
  | .ptpPdelayReqReceived _ _ => [.objs, .sent]
  | .ptpPdelayRespReceived _ _ => [.objs, .irq, .jour, .rates, .sent, .fabric, .eth]
  | .ptpSyncTimer _ | .ptpPdelayTimer _ => [.objs, .sent, .eth]
  | .announceReceiptTimeout _ | .holdoverLimitExpired => [.objs, .irq, .jour, .time]
  | .irigFrameReceived _ _ | .ppsInEdge _ => [.objs, .station, .freeCount, .irq, .jour, .rates, .scheds, .time, .pl]
  | .ppsOutSecond | .ppsOutWidthEnd => [.sent, .time]
  | .timeSourceLost => [.objs, .irq, .jour, .rates, .time]
  | .timeSourceWrite _ _ _ | .hostFrequencyWrite _ _ => [.objs, .sessions, .irq, .jour, .time]
  | .sf3Fault _ => [.objs, .irq, .jour, .sent, .time, .safety]
  | .timeStep _ | .timeSet _ => [.objs, .station, .sessions, .cmds, .irq, .jour, .rates, .scheds, .time, .pl]
  | .timeSlew _ => [.objs, .sessions, .cmds, .irq, .jour, .time]
  | .timeStatusMessageSend _ | .journalPushRetransmit _ => [.fabric, .pl]
  | .journalPushCellReceived _ _ => [.objs, .fabric, .pl]
  | .journalClear _ => [.objs, .sessions, .cmds, .irq, .jour, .pl]
  | .journalEntryRead _ | .remoteEntryRead _ _ => [.objs, .sessions, .irq, .jour, .sent]
  | .journalAckReceived _ _ => [.objs, .pl]
  | .rateLimitPeriodEnd _ _ => [.objs, .irq, .jour, .rates, .power]
  | .nComplete _ _ | .fComplete _ _ => [.irq, .jour, .rates]
  | .pcieLinkUp _ _ _ => [.objs, .irq, .jour, .sent, .stor]
  | .pcieLinkDown _ | .windowReadRequest _ _ _ _ _ | .mrdlkRequest _ _ _ _ | .driveReady _ _ _
  | .nvmeRead _ _ _ _ _ _ _ | .nvmeWrite _ _ _ _ _ _ _ | .nvmeFlush _ _ _ _ | .nvmeWriteZeroes _ _ _ _ _ _
  | .driveCompletion _ _ _ | .windowWriteRequest _ _ _ _ => [.objs, .irq, .jour, .rates, .sent, .fabric, .stor]
  | .windowUnitReceived _ _ _ _ _ _ | .windowCompletionReceived _ _ _ _ | .storageUnitReceived _ _ _
  | .rootPortDeviceRequest _ _ _ _ _ _ _ => [.objs, .irq, .jour, .rates, .sent, .fabric, .stor, .dram]
  | .nvmeSqDoorbell _ _ _ => [.objs, .stor]
  | .nvmeCreateIoQueue _ _ _ _ _ _ _ | .nvmeDeleteIoQueue _ _ _ _ | .nvmeGetFeatures _ _ _
  | .nvmeSetFeatures _ _ _ _ | .nvmeAbort _ _ | .nvmeAsyncEventRequest _ _ | .nvmeInvalidOpcode _ _ _
  | .lockRefusedReceived _ _ | .completionTimeout _ => [.objs, .irq, .jour, .rates, .sent, .stor]
  | .nvmeIdentify _ _ _ _ | .nvmeGetLogPage _ _ _ _ => [.objs, .freeCount, .irq, .jour, .rates, .sent, .stor]
  | .unlockMessage _ => [.objs, .irq, .jour, .rates, .fabric, .stor]
  | .prefetchLifeExpired _ => [.objs, .irq, .jour, .rates, .stor]
  | .windowUnfence _ _ => [.objs, .sessions, .cmds, .irq, .jour, .stor]
  | .storageFlush _ => [.objs, .sessions, .cmds, .irq, .jour, .sent, .stor]
  | .busMasterDisable _ => [.stor]
  | .canFrameReceived _ _ _ => [.objs, .freeCount, .irq, .jour, .rates, .sent, .canOpen, .fabric, .fld]
  | .uartUnitClose _ _ _ _ => [.irq, .jour, .rates, .sent, .fabric, .fld]
  | .uartUnitTransmit _ _ => [.sent, .fabric, .fld]
  | .fieldUnitReceived _ _ _ | .mapPeriodTimer _ => [.objs, .freeCount, .irq, .jour, .rates, .canOpen, .fabric, .fld]
  | .staleTimeExpired _ | .gooseTalExpired _ => [.objs, .irq, .jour, .rates, .canOpen, .fabric, .fld]
  | .canTxCycleTimer _ | .canTxInhibitEnd _ => [.objs, .irq, .jour, .rates, .fld]
  | .gooseRepeatTimer _ => [.objs, .irq, .jour, .rates, .fabric, .fld]
  | .signalValueWrite _ _ _ _ => [.objs, .sessions, .irq, .jour, .rates, .canOpen, .fabric, .fld]
  | .keyDerive _ | .keyAgree _ | .keyImport _ =>
    [.objs, .timers, .sessions, .cmds, .irq, .jour, .tunnels, .fabric, .keys]
  | .keyInvalidate _ | .enterOperational _ _ | .decommission _ _ =>
    [.objs, .freeCount, .sessions, .cmds, .irq, .jour, .keys, .secu]
  | .enrolCustomerKeyHash _ | .tamperClear _ => [.objs, .sessions, .cmds, .irq, .jour, .secu]
  | .tamperAlarm _ _ => [.objs, .freeCount, .irq, .jour, .keys, .secu]
  | .vanguriSign _ _ => [.objs, .strs, .sessions, .cmds, .irq, .jour, .rates]
  | .feedStateChange _ _ _ => [.objs, .irq, .jour, .sent, .power]
  | .powerFailWarning _ | .fetSensorFault _ _ => [.objs, .irq, .jour, .power]
  | .feedReverseCurrent _ _ _ => [.objs, .irq, .jour, .rates, .sent, .power]
  | .holdupCheck _ => [.objs, .timers, .irq, .jour, .power]
  | .inletDebounceComplete _ => [.timers, .power]
  | .retryResetTimeExpired _ => [.objs, .timers]
  | .breakerFullEnhancement _ => [.objs, .timers, .irq, .jour, .usb, .pd, .power]
  | .breakerRampTimeout _ _ _ | .breakerCurveTrip _ _ _ _ | .breakerFastTrip _ _ _
  | .breakerThermalTrip _ _ _ | .breakerReverseCurrent _ _ _ | .railFault _ _ _ => Piece.allBut [.head]
  | .retryCountWrite _ _ _ => [.objs, .timers, .sessions, .irq, .jour]
  | .breakerReset _ _ => [.objs, .timers, .sessions, .cmds, .irq, .jour, .sent, .pd, .power]
  | .breakerRetryNow _ _ _ => [.objs, .timers, .sessions, .cmds, .irq, .jour, .sent, .power]
  | .railGroupEnable => [.objs, .timers, .sent, .power]
  | .railGroupGood => [.objs, .timers, .power]
  | .appEnableWrite _ _ | .appLoadComplete => [.objs, .timers, .sessions, .irq, .jour, .app]
  | .appStart _ => [.objs, .timers, .sessions, .cmds, .irq, .jour]
  | .appHalt _ | .appRestart _ => [.objs, .timers, .sessions, .cmds, .irq, .jour, .app]
  | .busUnmappedAccess _ => [.objs, .irq, .jour, .rates, .sent]
  | .gwGoRead _ _ | .gwGoWrite _ _ _ => [.objs, .irq, .app]
  | .jpEntryRead _ | .stimeLatchRead => [.sent, .app]
  | .jpWrite _ _ _ => [.objs, .irq, .jour, .rates, .app]
  | .dbSet _ | .dbClear _ | .ci2ClockStop | .ci2ClockRestart _ => [.irq]
  | .appMailboxPost _ => [.objs, .sessions, .cmds, .irq, .jour, .app]
  | .hostMsgTake => [.objs, .irq, .jour, .app]
  | .appMsgSend _ => [.objs, .irq]
  | .tmrArm _ _ _ _ => [.app]
  | .timerExpiry _ => [.irq, .app]
  | .wdogKick _ => [.timers]
  | .nClaim _ _ | .fClaim _ _ | .normalInterruptEntry _ _ _ _ | .fastInterruptEntry _ _ _ => [.objs, .irq, .sent]
  | .lockstepMismatch _ _ _ => [.objs, .irq, .jour, .sent, .safety]
  | .tunnelSilent _ => [.objs, .irq, .jour, .sent, .tunnels, .safety]
  | .sf4PowerPathFault _ _ _ => [.objs, .irq, .jour, .sent, .power, .safety]
  | .safetyClearLatches _ | .marginApprove _ => [.objs, .sessions, .cmds, .irq, .jour, .sent, .safety]
  | .sentinelReport _ _ | .ddrCalibration _ _ | .serdesSweep _ _ _ | .sensorCalibration => [.objs, .timers, .safety]
  | .marginPlanNow _ _ => [.objs, .timers, .sessions, .cmds, .irq, .jour, .sent, .safety]
  | .marginEnvelopeWrite _ _ _ => [.objs, .sessions, .irq, .jour, .sent, .safety]
  | .dramPatrolScrub _ _ _ | .bufferPatrolScrub _ _ _ | .sramScrub _ _ _ _ =>
    [.objs, .timers, .irq, .jour, .rates, .sent, .safety]
  | .mramScrub _ _ _ => [.objs, .timers, .irq, .jour, .rates, .sent, .safety, .boot]
  | .backgroundTaskBehind _ => [.objs, .irq, .jour, .safety]
  | .backgroundTaskEnableWrite _ _ _ => [.objs, .timers, .sessions, .irq, .jour, .safety]
  | .norLogWrite _ _ _ _ => [.objs, .timers, .irq, .jour, .safety]
  | .telemetrySample _ _ _ _ => [.objs, .timers, .irq, .jour, .rates, .safety]
  | .telemetryLogRecord => [.timers, .safety]
  | .liftDfuDnload _ _ _ _ _ | .liftDfuAbort | .configBackupWrite => [.boot]
  | .liftDfuGetstatus => [.objs, .sent, .boot]
  | .liftDfuClrstatus => [.objs, .boot]
  | .liftDfuGetstate => [.sent]
  | .dfuDetach => [.svc]
  | .stagingDfuDnload _ _ _ _ | .stagingDfuDnloadEnd _ | .imageActivationDone _ => [.objs, .irq, .jour, .boot]
  | .fwReset _ => [.objs, .timers, .sessions, .cmds, .irq, .jour, .boot]
  | .psHardResetTimer => [.timers, .sent, .pd, .power]
  | .srcRecoverTimer => [.objs, .timers, .sent, .pd, .power]

/-- A memory in its one canonical form: addresses strictly rising, and no entry equal to what an unlisted address reads
as (0 in DRAM and in pair B's memories, 0xFF in the boot flash). -/
def Memory.wf (unlisted : BitVec 8) (m : List Host.Cell) : Bool := Sparse.wf (fun _ => unlisted) m

/-- Nothing waits for the hub's own time (log entry 53): no late write or held management message, no unit out of its turn,
no Vanguri request, no character on a UART, no awaited GoodCRC, and no CAN error counter that a sent frame lowers. -/
def State.quiet (s : State) : Prop :=
  (∀ mp, mp < 5 → s.lateWrites mp = []) ∧ s.svc.held = [] ∧ s.stor.held = [] ∧ s.fld.held = [] ∧ s.fld.lines = [] ∧
    s.secu.asks = [] ∧ s.pd.waitCrc = none ∧ ∀ c, (s.canp c).tec = 0

/-- The command is an access to the dictionary by a path (R33, R37). -/
def viaPath : Instr → Bool
  | .stateRequestSetup _ | .stateRequestRun _ | .stateRequestMaintain _ | .domainEnableWrite _ _ _ | .odWrite _ _ _ _
  | .sessionRequest _ _ | .sessionEndRequest _ | .sessionResponse _ _ _ | .sessionLimitWrite _ _ _
  | .violationsClear _ _ | .storeConfiguration _ _ _ | .restoreDefaults _ _ _ | .commandAbort _ _ _
  | .functionModeWrite _ _ _ | .trunkEnableWrite _ _ _ | .trunkRetrain _ _ | .trunkClearCounters _ _
  | .eyeApplyLane _ _ | .eyeFinishEqualise _ _ | .tunnelEnable _ _ | .tunnelDisable _ _ | .tunnelRecordWrite _ _ _ _
  | .tunnelDrain _ _ | .tunnelClearCounters _ _ | .keySlotNextWrite _ _ _ | .l2ReadMatch _ | .l2ReadSlot _
  | .l2WriteEntry _ | .l2DeleteEntry _ | .l2FlushLearnt _ | .fabricClearCounters _ | .gateTableSwitch _ _
  | .outputEnable _ _ | .outputDisable _ _ | .outputClearCounters _ _ | .integrityClear _ _
  | .expectedSignatureWrite _ _ _ _ | .usbPortPowerOn _ _ | .usbPortPowerOff _ _ | .usbPortReset _ _
  | .usbPortSuspend _ _ | .usbPortResume _ _ | .usbPortTestMode _ _ _ | .usbHubClearCounters _ | .svcRemoteWake _ _
  | .svcDeviceEnableWrite _ _ | .pdCmdDrSwap _ | .pdCmdVconnSwap _ | .pdCmdHardReset _ | .pdCmdSendSourceCap _
  | .pdCmdRequest _ _ | .pdoWrite _ _ _ | .ethPortClearCounters _ _ | .timeSourceWrite _ _ _ | .timeStep _
  | .timeSet _ | .timeSlew _ | .hostFrequencyWrite _ _ | .journalClear _ | .journalEntryRead _ | .remoteEntryRead _ _
  | .windowUnfence _ _ | .windowClearCounters _ _ | .storageFlush _ | .pcieClearCounters _ _ | .canLeaveBusOff _ _
  | .signalValueWrite _ _ _ _ | .keyDerive _ | .keyAgree _ | .keyImport _ | .keyInvalidate _ | .enterOperational _ _
  | .decommission _ _ | .enrolCustomerKeyHash _ | .tamperClear _ | .vanguriSign _ _ | .retryCountWrite _ _ _
  | .breakerReset _ _ | .breakerRetryNow _ _ _ | .breakerClearCounters _ _ | .powerEntryClearCounters _
  | .appEnableWrite _ _ | .appStart _ | .appHalt _ | .appRestart _ | .appClearCounters _ | .doorbellRing _ _
  | .appMailboxPost _ | .safetyClearLatches _ | .shadowReload _ | .marginApprove _ | .marginPlanNow _ _
  | .marginEnvelopeWrite _ _ _ | .backgroundTaskEnableWrite _ _ _ | .imageStage _ | .imageActivate _
  | .imageDiscard _ | .fwConfirmSlot _ | .fwAdvanceRollback _ _ | .fwRaiseAppFloor _ | .fwReset _ | .orphanDiscard _ => true
  | _ => false

end Sys2Proof.Machine
end

