-- ==== Sys2Proof/WellFormed.lean ====
section
/-!
DEFINITION. Which commands name only units that a part of the family has (R1, R2, R11, R33).
-/

namespace Sys2Proof

open Sys2Proof.Machine

/-- The command's numbers name objects, ports, channels and records of the family. -/
def Instr.wellFormed : Instr → Bool
  | .resetAsserted _ => true
  | .resetReleased _ _ => true
  | .ilkaiDeclaredStarted => true
  | .bootWatchdogExpired => true
  | .stateRequestSetup _ => true
  | .stateRequestRun _ => true
  | .stateRequestMaintain _ => true
  | .setupTransitionComplete => true
  | .islandWatchdogExpired isl _ => decide (isl < 18)
  | .d2dFrameReceived _ => true
  | .d2dLinkTimeout => true
  | .domainEnableWrite _ dom _ => decide (dom < 14)
  | .domainPowerUpStagger => true
  | .domainSupplyFail dom rail _ => decide (dom < 14) && decide (rail < 7)
  | .odWrite _ index sub _ => decide (index < 65536) && decide (sub < 256)
  | .mgmtReadRequest mp _ => decide (mp < 5)
  | .mgmtWriteRequest mp _ => decide (mp < 5)
  | .sdoInitiateDownload _ => true
  | .sdoDownloadSegment _ => true
  | .sdoInitiateUpload _ => true
  | .sdoUploadSegment _ => true
  | .sdoBlockDownloadSegment _ => true
  | .sdoBlockDownloadEnd _ => true
  | .sdoBlockUploadRequest _ => true
  | .sdoAbortReceived _ => true
  | .sdoTimeout => true
  | .rpdoReceived pdo _ => decide (pdo < 4)
  | .syncReceived => true
  | .tpdoEventTimer pdo => decide (pdo < 4)
  | .tpdoInhibitEnd pdo => decide (pdo < 4)
  | .heartbeatTimer => true
  | .nmtStartRemoteNode _ => true
  | .nmtEnterPreOperational _ => true
  | .nmtStopRemoteNode _ => true
  | .nmtResetCommunication _ => true
  | .nmtResetNode _ => true
  | .sessionRequest _ _ => true
  | .sessionEndRequest _ => true
  | .sessionResponse _ tk _ => decide (tk < 4)
  | .challengeExpired _ => true
  | .sessionIdleTimeout _ => true
  | .sessionAgeTimeout _ => true
  | .sessionLimitWrite _ sub _ => decide (sub < 256)
  | .lockoutEnd _ => true
  | .violationsClear _ _ => true
  | .storeConfiguration _ _ _ => true
  | .restoreDefaults _ _ _ => true
  | .commandAbort _ index _ => decide (index < 65536)
  | .functionModeWrite _ fn _ => decide (1 ≤ fn ∧ fn ≤ 11)
  | .functionSwitchComplete fn => decide (1 ≤ fn ∧ fn ≤ 11)
  | .codewordGroupReceived t _ _ _ _ _ => decide (t < 4)
  | .laneSignalLost t lane _ => decide (t < 4) && decide (lane < 5)
  | .markerTimeout t => decide (t < 4)
  | .trainingFrameReceived t _ _ _ => decide (t < 4)
  | .trunkEnableWrite _ t _ => decide (t < 4)
  | .trunkSignalDetect t _ => decide (t < 4)
  | .laneSyncTimeout t => decide (t < 4)
  | .identifyTimeout t => decide (t < 4)
  | .capabilitiesTimeout t => decide (t < 4)
  | .rateSwitchDelayExpired t => decide (t < 4)
  | .rateChangeLockTimeout t => decide (t < 4)
  | .equaliseAdaptationComplete t => decide (t < 4)
  | .equaliseTimeout t => decide (t < 4)
  | .verifyWindowEnd t => decide (t < 4)
  | .heldRetryExpired t => decide (t < 4)
  | .eyeWaitRepeat t => decide (t < 4)
  | .trunkRetrain _ t => decide (t < 4)
  | .trunkClearCounters _ t => decide (t < 4)
  | .retrainRequestSend t => decide (t < 4)
  | .retrainWaitTimeout t => decide (t < 4)
  | .eyeApplyLane _ t => decide (t < 4)
  | .eyeFinishEqualise _ t => decide (t < 4)
  | .controlCellReceived t _ => decide (t < 4)
  | .cellReceived t _ _ => decide (t < 4)
  | .tunnelEnable _ n => decide (n < 4096)
  | .tunnelDisable _ n => decide (n < 4096)
  | .tunnelRecordWrite _ n sub _ => decide (n < 4096 ∧ 2 ≤ sub ∧ sub ≤ 0x0D)
  | .tunnelDrain _ n => decide (n < 4096)
  | .tunnelClearCounters _ n => decide (n < 4096)
  | .offerReceived t n _ => decide (t < 4) && decide (n < 4096)
  | .negotiationRepeat n => decide (n < 4096)
  | .closeReceived n => decide (n < 4096)
  | .closeSend n => decide (n < 4096)
  | .drainBoundExpired n => decide (n < 4096)
  | .keyReadyReceived n _ => decide (n < 4096)
  | .keySlotNextWrite _ n _ => decide (n < 4096)
  | .keyReadyRepeat n => decide (n < 4096)
  | .oldKeyAcceptExpired n => decide (n < 4096)
  | .twinLagTimeout n _ => decide (n < 4096)
  | .fabricCellArrival fp cls => decide (fp < 20) && decide (cls < 8)
  | .egressSerialise fp cls _ _ => decide (fp < 20) && decide (cls < 8)
  | .redAverageIdleUpdate fp cls => decide (fp < 20) && decide (cls < 8)
  | .stallBoundExpired fp cls => decide (fp < 20) && decide (cls < 8)
  | .holdBoundExpired t => decide (t < 4)
  | .openUnitTimeout fp cls _ => decide (fp < 20) && decide (cls < 8)
  | .l2EntryAged entry => decide (entry < 16384)
  | .l2ReadMatch _ => true
  | .l2ReadSlot _ => true
  | .l2WriteEntry _ => true
  | .l2DeleteEntry _ => true
  | .l2FlushLearnt _ => true
  | .fabricClearCounters _ => true
  | .schedCycleStart t => decide (t < 4)
  | .schedCellTime t _ => decide (t < 4)
  | .gateTableSwitch _ t => decide (t < 4)
  | .schedVersionMismatch t => decide (t < 4)
  | .carveEpoch t => decide (t < 4)
  | .outputEnable _ d => decide (d < 4)
  | .outputDisable _ d => decide (d < 4)
  | .hpdAsserted d => decide (d < 2)
  | .hpdDeasserted d => decide (d < 2)
  | .hpdLowTimeout d => decide (d < 2)
  | .irqHpd d _ _ => decide (d < 2)
  | .dpLinkTrainingDone d _ _ _ _ _ => decide (d < 2)
  | .lvdsClockStable d => decide (d < 4) && decide (2 ≤ d)
  | .frontPorchLineEnd d => decide (d < 4)
  | .displayCellReceived n _ => decide (n < 4096)
  | .layerUnderrun lay _ => decide (lay < 16)
  | .outputClearCounters _ d => decide (d < 4)
  | .signatureCompletion d reg => decide (d < 4) && decide (reg < 8)
  | .freezeTimeExpired d reg => decide (d < 4) && decide (reg < 8)
  | .activeAreaEnd d => decide (d < 4)
  | .integrityClear _ d => decide (d < 4)
  | .expectedSignatureWrite _ d reg _ => decide (d < 4) && decide (reg < 8)
  | .usbRequestUnit n _ _ => decide (n < 4096)
  | .microframeStart => true
  | .usbTransactionStart u _ => decide (u < 8)
  | .usbTransactionEnd u _ _ _ => decide (u < 8)
  | .nakRetryExpired u => decide (u < 8)
  | .busCommandReset n => decide (n < 4096)
  | .busCommandSuspend n => decide (n < 4096)
  | .busCommandResume n _ => decide (n < 4096)
  | .resumeKEnd => true
  | .dspDeviceAttach u _ => decide (u < 8)
  | .dspDeviceDetach u => decide (u < 8)
  | .deviceChirpDetected u _ => decide (u < 8)
  | .portResetEnd u => decide (u < 8)
  | .dspDeviceK u => decide (u < 8)
  | .setPortPower u => decide (u < 8)
  | .clearPortPower u => decide (u < 8)
  | .setPortReset u => decide (u < 8)
  | .setPortSuspend u => decide (u < 8)
  | .clearPortSuspend u => decide (u < 8)
  | .clearPortEnable u => decide (u < 8)
  | .setPortTest u _ => decide (u < 8)
  | .clearPortChange u _ => decide (u < 8)
  | .clearHubChange _ => true
  | .getPortStatus u => decide (u < 8)
  | .hubGetStatus _ => true
  | .hubGetDescriptor _ _ _ => true
  | .hubSetAddress _ => true
  | .hubSetConfiguration _ => true
  | .hubSetInterface _ => true
  | .hubSetRemoteWakeup => true
  | .hubClearRemoteWakeup => true
  | .clearTtBuffer u _ _ _ _ => decide (u < 8)
  | .resetTt u => decide (u < 8)
  | .relayDownProducerWrite relay _ _ => decide (relay < 16)
  | .relayUpConsumerWrite relay _ => decide (relay < 16)
  | .relayUnitFromTunnel n _ => decide (n < 4096)
  | .usbPortPowerOn _ u => decide (u < 8)
  | .usbPortPowerOff _ u => decide (u < 8)
  | .usbPortReset _ u => decide (u < 8)
  | .usbPortSuspend _ u => decide (u < 8)
  | .usbPortResume _ u => decide (u < 8)
  | .usbPortTestMode _ u _ => decide (u < 8)
  | .usbHubClearCounters _ => true
  | .svcDeviceAttach => true
  | .svcDeviceDetach => true
  | .svcBusReset _ => true
  | .svcSetupReceived _ => true
  | .svcStatusStageComplete => true
  | .svcSetAddress _ => true
  | .svcSetConfiguration _ => true
  | .svcSetInterface _ _ => true
  | .svcSetEndpointHalt ep _ => decide (ep < 16)
  | .svcClearEndpointHalt ep _ => decide (ep < 16)
  | .svcOutPacket ep _ _ => decide (ep < 16)
  | .svcInToken ep _ => decide (ep < 16)
  | .svcSuspendDetected => true
  | .svcHostResume => true
  | .svcRemoteWake _ _ => true
  | .svcDeviceEnableWrite _ _ => true
  | .typecAttach _ _ _ => true
  | .typecDetach => true
  | .drpToggleTimer => true
  | .trySnkTimeout => true
  | .errorRecoveryEnd => true
  | .raDetected => true
  | .pdSourceCapabilities _ _ _ => true
  | .pdRequest _ _ _ => true
  | .pdAccept _ => true
  | .pdReject _ _ => true
  | .pdWait _ => true
  | .pdPsRdy _ => true
  | .pdGetSourceCap _ => true
  | .pdGetSinkCap _ => true
  | .pdDrSwap _ => true
  | .pdVconnSwap _ => true
  | .pdSoftReset _ => true
  | .pdHardReset => true
  | .pdDiscoverIdentity _ => true
  | .pdPrSwap _ => true
  | .pdExtendedMessage _ => true
  | .pdBist _ _ => true
  | .pdGoodcrcTimeout => true
  | .firstSourceCapTimer => true
  | .sourceCapRepeat => true
  | .srcTransitionExpired => true
  | .vbusSettled _ => true
  | .psTransitionSrcTimeout _ => true
  | .psTransitionTimeout => true
  | .senderResponseTimeout => true
  | .sinkRequestRetry => true
  | .svcVbusOvervoltage _ _ _ => true
  | .svcCcOvervoltage _ => true
  | .vconnOvercurrent _ => true
  | .pdCmdDrSwap _ => true
  | .pdCmdVconnSwap _ => true
  | .pdCmdHardReset _ => true
  | .pdCmdSendSourceCap _ => true
  | .pdCmdRequest _ _ => true
  | .pdoWrite _ _ _ => true
  | .ethFrameReceived e _ => decide (e < 8)
  | .ethLinkUp e _ => decide (e < 8)
  | .ethLinkDown e => decide (e < 8)
  | .pauseFrameReceived e _ => decide (e < 8)
  | .ethPortClearCounters _ e => decide (e < 8)
  | .lifeCheckTimer rp => decide (2 * rp < 8)
  | .supervisionTimeout e => decide (e < 8)
  | .nodeForgetTimeout rp _ => decide (2 * rp < 8)
  | .ptpSyncReceived e _ => decide (e < 8)
  | .ptpFollowUpReceived e _ => decide (e < 8)
  | .ptpAnnounceReceived e _ => decide (e < 8)
  | .ptpPdelayReqReceived e _ => decide (e < 8)
  | .ptpPdelayRespReceived e _ => decide (e < 8)
  | .ptpSyncTimer e => decide (e < 8)
  | .ptpPdelayTimer e => decide (e < 8)
  | .announceReceiptTimeout e => decide (e < 8)
  | .irigFrameReceived _ _ => true
  | .ppsInEdge _ => true
  | .ppsOutSecond => true
  | .ppsOutWidthEnd => true
  | .timeSourceLost => true
  | .holdoverLimitExpired => true
  | .timeSourceWrite _ sub _ => decide (sub = 1 ∨ sub = 2)
  | .sf3Fault _ => true
  | .timeStep _ => true
  | .timeSet _ => true
  | .timeSlew _ => true
  | .hostFrequencyWrite _ _ => true
  | .timeStatusMessageSend t => decide (t < 4)
  | .timeStatusMessageReceived t _ => decide (t < 4)
  | .journalClear _ => true
  | .journalEntryRead _ => true
  | .remoteEntryRead _ t => decide (t < 4)
  | .journalPushCellReceived t _ => decide (t < 4)
  | .journalAckReceived t _ => decide (t < 4)
  | .journalPushRetransmit t => decide (t < 4)
  | .rateLimitPeriodEnd _ _ => true
  | .pcieLinkUp p4 _ _ => decide (p4 < 2)
  | .pcieLinkDown p4 => decide (p4 < 2)
  | .driveReady p4 _ _ => decide (p4 < 2)
  | .driveInitTimeout p4 _ => decide (p4 < 2)
  | .nvmeSqDoorbell p4 _ _ => decide (p4 < 2)
  | .nvmeRead p4 _ _ _ _ _ _ => decide (p4 < 2)
  | .nvmeWrite p4 _ _ _ _ _ _ => decide (p4 < 2)
  | .nvmeFlush p4 _ _ _ => decide (p4 < 2)
  | .nvmeWriteZeroes p4 _ _ _ _ _ => decide (p4 < 2)
  | .nvmeIdentify p4 _ _ _ => decide (p4 < 2)
  | .nvmeCreateIoQueue p4 _ _ _ _ _ _ => decide (p4 < 2)
  | .nvmeDeleteIoQueue p4 _ _ _ => decide (p4 < 2)
  | .nvmeGetLogPage p4 _ _ _ => decide (p4 < 2)
  | .nvmeGetFeatures p4 _ _ => decide (p4 < 2)
  | .nvmeSetFeatures p4 _ _ _ => decide (p4 < 2)
  | .nvmeAbort p4 _ => decide (p4 < 2)
  | .nvmeAsyncEventRequest p4 _ => decide (p4 < 2)
  | .nvmeInvalidOpcode p4 _ _ => decide (p4 < 2)
  | .storageUnitReceived n _ _ => decide (n < 4096)
  | .driveCompletion p4 _ _ => decide (p4 < 2)
  | .windowWriteRequest p4 _ _ _ => decide (p4 < 2)
  | .windowReadRequest p4 _ _ _ _ => decide (p4 < 2)
  | .mrdlkRequest p4 _ _ _ => decide (p4 < 2)
  | .unlockMessage p4 => decide (p4 < 2)
  | .windowUnitReceived n _ _ _ _ _ => decide (n < 4096)
  | .windowCompletionReceived n _ _ _ => decide (n < 4096)
  | .lockRefusedReceived n _ => decide (n < 4096)
  | .completionTimeout _ => true
  | .prefetchLifeExpired win => decide (win < 64)
  | .windowUnfence _ win => decide (win < 64)
  | .windowClearCounters _ win => decide (win < 64)
  | .storageFlush _ => true
  | .busMasterDisable w => decide (w.port < 2)
  | .rootPortDeviceRequest p4 _ _ _ _ _ _ => decide (p4 < 2)
  | .pcieClearCounters _ p4 => decide (p4 < 2)
  | .canFrameReceived cp _ _ => decide (cp < 2)
  | .canBusOff cp _ _ => decide (cp < 2)
  | .canBusOffRecovery cp => decide (cp < 2)
  | .canLeaveBusOff _ cp => decide (cp < 2)
  | .uartUnitClose ua _ _ _ => decide (ua < 4)
  | .uartUnitTransmit ua _ => decide (ua < 4)
  | .fieldUnitReceived n _ _ => decide (n < 4096)
  | .mapPeriodTimer me => decide (me < 1024)
  | .staleTimeExpired me => decide (me < 1024)
  | .canTxCycleTimer fr => decide (fr < 64)
  | .canTxInhibitEnd fr => decide (fr < 64)
  | .gooseRepeatTimer g => decide (g < 16)
  | .gooseTalExpired sb => decide (sb < 16)
  | .signalValueWrite _ me sub _ => decide (me < 1024 ∧ (sub = 0x16 ∨ sub = 0x17))
  | .keyDerive _ => true
  | .keyAgree _ => true
  | .keyImport _ => true
  | .keyInvalidate _ => true
  | .enterOperational _ _ => true
  | .decommission _ _ => true
  | .enrolCustomerKeyHash _ => true
  | .tamperAlarm source _ => decide (source < 9)
  | .tamperClear _ => true
  | .vanguriRequest t _ _ _ => decide (t < 4)
  | .vanguriSign _ _ => true
  | .cryptoSelftest engine _ => decide (engine < 4)
  | .trngHealthFailure _ => true
  | .feedStateChange feed _ _ => decide (feed < 2)
  | .feedReverseCurrent feed _ _ => decide (feed < 2)
  | .vorBelowMinimum _ => true
  | .holdupCheck _ => true
  | .inletDebounceComplete _ => true
  | .inletOvervoltage _ => true
  | .powerFailWarning _ => true
  | .breakerOnRequest ch => decide (ch < 10)
  | .breakerRequestWithdrawn ch => decide (ch < 10)
  | .breakerFullEnhancement ch => decide (ch < 10)
  | .breakerRampTimeout ch _ _ => decide (ch < 10)
  | .breakerCurveTrip ch _ _ _ => decide (ch < 10)
  | .breakerFastTrip ch _ _ => decide (ch < 10)
  | .breakerThermalTrip ch _ _ => decide (ch < 10)
  | .breakerReverseCurrent ch _ _ => decide (ch < 10)
  | .breakerRetryTimer ch _ => decide (ch < 10)
  | .retryResetTimeExpired ch => decide (ch < 10)
  | .retryCountWrite _ ch _ => decide (ch < 10)
  | .inletRestart => true
  | .fetSensorFault ch _ => decide (ch < 10)
  | .breakerReset _ ch => decide (ch < 10)
  | .breakerRetryNow _ ch _ => decide (ch < 10)
  | .breakerClearCounters _ ch => decide (ch < 10)
  | .powerEntryClearCounters _ => true
  | .pd0ColdStart => true
  | .railGroupEnable => true
  | .railGroupGood => true
  | .railGroupTimeout => true
  | .railFault rail _ _ => decide (rail < 7)
  | .appEnableWrite _ _ => true
  | .appLoadComplete => true
  | .appStart _ => true
  | .appHalt _ => true
  | .appRestart _ => true
  | .appClearCounters _ => true
  | .busUnmappedAccess _ => true
  | .gwGoRead _ _ => true
  | .gwGoWrite _ _ _ => true
  | .gatewayDone => true
  | .jpEntryRead _ => true
  | .jpWrite _ _ _ => true
  | .dbSet _ => true
  | .dbClear _ => true
  | .doorbellRing _ _ => true
  | .appMailboxPost _ => true
  | .hostMsgTake => true
  | .appMsgSend _ => true
  | .endpointDescriptorWrite ep _ _ _ _ _ => decide (ep < 16)
  | .stimeLatchRead => true
  | .tmrArm tmr _ _ _ => decide (tmr < 4)
  | .timerExpiry tmr => decide (tmr < 4)
  | .wdogKick _ => true
  | .watchdogExpiry => true
  | .nClaim pair _ => decide (pair < 2)
  | .nComplete pair _ => decide (pair < 2)
  | .fClaim pair _ => decide (pair < 2)
  | .fComplete pair _ => decide (pair < 2)
  | .normalInterruptEntry pair _ _ _ => decide (pair < 2)
  | .fastInterruptEntry pair _ _ => decide (pair < 2)
  | .ci2ClockStop => true
  | .ci2ClockRestart _ => true
  | .lockstepMismatch pair _ _ => decide (pair < 2)
  | .shadowCheck _ _ _ _ => true
  | .tunnelSilent n => decide (n < 4096)
  | .sf4PowerPathFault cause unit _ => decide (1 ≤ cause ∧ cause ≤ 6) && powerUnit cause unit
  | .safePulsePermission => true
  | .safePulsePermissionTimeout => true
  | .safetyClearLatches _ => true
  | .shadowReload _ => true
  | .sentinelReport _ _ => true
  | .planInstant _ => true
  | .marginApprove _ => true
  | .marginPlanNow _ _ => true
  | .marginEnvelopeWrite _ _ _ => true
  | .marginPinnedRepeat loop_ => decide (loop_ < 3)
  | .dramPatrolScrub _ _ _ => true
  | .bufferPatrolScrub _ _ _ => true
  | .sramScrub mem _ _ _ => decide (2 ≤ mem ∧ mem ≤ 4)
  | .mramScrub _ _ _ => true
  | .ddrCalibration kind _ => decide (kind < 3)
  | .serdesSweep t lane _ => decide (t < 4) && decide (lane < 5)
  | .sensorCalibration => true
  | .backgroundTaskBehind task => decide (task < 11)
  | .backgroundTaskEnableWrite _ task _ => decide (task < 11)
  | .norLogWrite log _ _ _ => decide (log < 2)
  | .telemetrySample _ _ _ _ => true
  | .telemetryLogRecord => true
  | .liftDfuDnload alt _ _ _ _ => decide (alt < 3)
  | .liftDfuDnloadEnd alt _ => decide (alt < 3)
  | .liftDfuAbort => true
  | .liftDfuGetstatus => true
  | .liftDfuClrstatus => true
  | .liftDfuGetstate => true
  | .dfuDetach => true
  | .stagingDfuDnload _ _ _ _ => true
  | .stagingDfuDnloadEnd _ => true
  | .imageStage _ => true
  | .imageActivate _ => true
  | .imageActivationDone _ => true
  | .imageDiscard _ => true
  | .fwConfirmSlot _ => true
  | .fwAdvanceRollback _ _ => true
  | .fwRaiseAppFloor _ => true
  | .fwReset _ => true
  | .fwResetDelayExpired => true
  | .orphanDiscard _ => true
  | .configBackupWrite => true
  | .pcsBlockReceived t lane _ _ _ _ => decide (t < 4) && decide (lane < 4)
  | .laneLockAcquired t lane => decide (t < 4) && decide (lane < 5)
  | .domainGoodAgain dom => decide (dom < 14)
  | .portResumingEnd u => decide (u < 8)
  | .psHardResetTimer => true
  | .vbusSafe0vReached => true
  | .srcRecoverTimer => true
  | .leapSecond => true

end Sys2Proof
end

