-- ==== Sys2Proof/Certificates/Slice0/Obligations.lean ====
section
/-!
DEFINITION. The statements for the provers.
-/

set_option Elab.async false

open Sys2Proof Sys2Proof.Machine

/-- O1. A step takes the command at the front of the queue and runs it with the queue's rest. For every state whose
queue has a command at its front, the step's answer is the command's own answer on the state whose queue is the
rest; the dictionary engine, too, takes complete requests one at a time in the order in which they come (R49).
(R49) -/
def Obligations.StepRunsTheFrontCommand : Prop :=
  ∀ (s : State) (c : Instr) (rest : List Instr),
    s.pending = c :: rest →
    step s = exec c { s with pending := rest }

/-- O2. With nothing waiting the hub only lets one nanosecond pass (the model's choice, log entry 3). On an empty
queue the step answers a next state in which the model's clock is one nanosecond later and the queue is empty; where
nothing waits for the hub's own time (State.quiet) the keys, the fuses and the DRAM are as before, and if no undo runs
the dictionary's values, its strings and the journal too; the undo of an aborted command has ended in it, its block at
Status 3. That a step without a command is a nanosecond, in which what waits for the hub's own time is done, is the
model's choice (log entries 3, 53). (R10, R19, R57, R318) -/
def Obligations.EmptyQueueIdlesOneNanosecond : Prop :=
  (∀ (s : State),
      s.pending = [] →
      ∃ t, step s = .next t ∧ t.clock = s.clock + 1 ∧ t.pending = [] ∧ t.part = s.part ∧ t.head = s.head ∧
        (s.quiet → t.keys = s.keys ∧ t.secu = s.secu ∧ t.dram = s.dram) ∧
        (s.quiet → (∀ e, e ∈ s.cmds → e.2.undoing = false) → t.objs = s.objs ∧ t.strs = s.strs ∧ t.jour = s.jour)) ∧
  (∀ (s : State) (i : Nat) (x : CmdRec),
      s.pending = [] →
      s.cmds = [(i, x)] →
      x.undoing = true →
      s.quiet →
      ∃ t, step s = .next t ∧ t.get (ob i 0xF2) = 3 ∧ (t.cmd i).undoing = false ∧ t.get (ob i 0xF3) = s.get (ob i 0xF3))

/-- O3. The hub right after reset. State.reset is in device state Reset with every object at its default, an empty
journal, no session, no running timer, no interrupt latch, no key, empty DRAM, nothing sent and nothing waiting;
no path reaches its dictionary. (R6, R7, R10, R36, R42, R52, R281, R396, R409, R452) -/
def Obligations.HubAfterReset : Prop :=
  State.reset.dev = devReset ∧ State.reset.reach = false ∧ State.reset.pending = [] ∧ State.reset.sent = [] ∧
      (∀ k, State.reset.get k = objDefault State.reset.part State.reset.head k) ∧ State.reset.jour.ring = [] ∧
      (∀ p, (State.reset.session p).rights = 0) ∧ State.reset.timers = [] ∧ State.reset.irq.latch = 0 ∧ State.reset.irq.bells = 0 ∧
      State.reset.keys = [] ∧ (∀ a, State.reset.dramByte a = 0) ∧ State.reset.station = 0

/-- O4. The hub right after reset stores everything in its one canonical form. The lists of object values, of strings
and of DRAM bytes of State.reset are in canonical form, and its journal ring is within its 131 072 entries. (R27,
R281, R294) -/
def Obligations.ResetIsCanonical : Prop :=
  Canonical State.reset

/-- O5. Every step keeps the canonical form of what the hub stores and the bound of the journal ring. From every state
in canonical form, whatever command stands in front of the queue and also when none does, a step that answers a
next state answers one in canonical form: addresses and keys strictly rising, no entry equal to what an unlisted
one reads as, at most 131 072 journal entries. (R27, R281, R294) -/
def Obligations.EveryStepKeepsTheCanonicalForm : Prop :=
  ∀ (s t : State),
    Canonical s →
    step s = .next t →
    Canonical t

/-- O6. Each command leaves every piece of the state unchanged but those listed for it. If a command answers a next
state, every field of the state that mayChange does not list for it is as before, and the part, the queue and the
model's clock are as before: session, key, fuse, interrupt, journal, tunnel, trunk, display, USB, storage, memory,
power and safety state change only through the commands that mayChange names. (R6, R21, R30, R33, R56, R343, R387,
R396, R452) -/
def Obligations.EachCommandChangesOnlyItsPieces : Prop :=
  ∀ (c : Instr) (s t : State) (f : Piece),
    exec c s = .next t →
    (mayChange c).contains f = false →
    f.same s t ∧ t.part = s.part ∧ t.pending = s.pending ∧ t.clock = s.clock

/-- O7. A step takes at most one command, never changes the part, and takes nothing back. If a step answers a next
state, the queue is what it was without its front, the part is as before, the model's clock has not gone back, all
that was sent before is still sent before what the step sent, and the role changes only in the step that releases
the hub from Reset. (R1, R3, R10, R49) -/
def Obligations.EveryStepKeepsPartOrderAndWhatWasSent : Prop :=
  ∀ (s t : State),
    step s = .next t →
    t.pending = s.pending.drop 1 ∧ t.part = s.part ∧ s.clock ≤ t.clock ∧ s.sent <:+ t.sent ∧
      ((∀ a b, s.pending.head? ≠ some (.resetReleased a b)) → t.head = s.head)

/-- O8. Every command answers a next state, whatever the state and the part; only a number that names no unit of the
family stops by name. For every command and every state: if the paths, ports, channels and records that the command
names are numbers of units that the family has, the command answers a next state, on the QH7-18 too; otherwise it stops
with the fault noSuchUnit, which is the model's stop for a command that nobody can send. (R1, R2, R11, R33) -/
def Obligations.EveryCommandCompletesOrNamesAMissingUnit : Prop :=
  ∀ (c : Instr) (s : State),
    (c.wellFormed = true → ∃ t, exec c s = .next t) ∧ (c.wellFormed = false → exec c s = .fault .noSuchUnit)

/-- O9. A violation counts, updates the last-violation fields, journals EV_OD_VIOLATION and sets source 4. A violation
of kind k by path p adds one to 0x1F80.01, to the counter of its kind and to the counter of its path, each
stopping at 0xFFFFFFFF, sets LastIndex, LastSubindex, LastKind and LastTime, changes no other object, writes one
journal entry 0x1101 of severity 2 for kind 3 and 1 otherwise whose sixteen bytes are those of R41's table, and
sets interrupt source 4; a write that breaks a rule is such a violation and nothing else beside the access itself.
(R41) -/
def Obligations.ViolationIsCountedAndJournalled : Prop :=
  (∀ (s : State) (p : Path) (i sub k : Nat),
      1 ≤ k ∧ k ≤ 7 →
      (s.violate p i sub k).get (ob 0x1F80 1) = min (s.get (ob 0x1F80 1) + 1) 0xFFFFFFFF ∧
        (s.violate p i sub k).get (ob 0x1F80 (1 + k)) = min (s.get (ob 0x1F80 (1 + k)) + 1) 0xFFFFFFFF ∧
        (s.violate p i sub k).get (ob 0x1F80 (9 + p.code)) = min (s.get (ob 0x1F80 (9 + p.code)) + 1) 0xFFFFFFFF ∧
        (s.violate p i sub k).get (ob 0x1F80 0x0D) = plainIndex i ∧ (s.violate p i sub k).get (ob 0x1F80 0x0E) = sub ∧
        (s.violate p i sub k).get (ob 0x1F80 0x0F) = k ∧ (s.violate p i sub k).get (ob 0x1F80 0x10) = s.station ∧
        (∀ n, (∀ m, 1 ≤ m → m ≤ 0x10 → n ≠ ob 0x1F80 m) → (s.violate p i sub k).get n = s.get n) ∧
        (∃ e, (s.violate p i sub k).jour = s.jour.add e ∧ e.code = 0x1101 ∧ e.sev = (if k = 3 then 2 else 1) ∧ e.time = s.station ∧
          e.args = u16 (plainIndex i) ++ u8 sub ++ u8 k ++ u8 p.code ++ u8 (s.session p).rights ++
            u16 (if (s.session p).rights = 0 then 0 else (s.session p).id) ++
            u32 (min (s.get (ob 0x1F80 1) + 1) 0xFFFFFFFF) ++ zeros 4) ∧
        (s.route 4 ≠ 0 → s.irq.stopped = false → (s.violate p i sub k).irq.latch.testBit 4 = true)) ∧
  (∀ (s : State) (p : Path) (i sub k : Nat) (data : Bytes) (more : List Nat) (eff : State → State),
      s.reach = true →
      s.judgeWrite p i sub data more = some k →
      s.write p i sub data more eff = (s.touch p).violate p i sub k) ∧
  (∀ (s : State) (p : Path) (i sub : Nat) (data : Bytes),
      p.ok = true →
      s.reach = true →
      i < 65536 ∧ sub < 256 →
      rowAt i sub = none →
      exec (.odWrite p i sub data) s = .next ((s.touch p).violate p i sub 1))

/-- O10. A state request that R7 does not list is refused; one during a transition is judged in the state reached. A
write of a state that the table of R7 does not list for the current state is a violation of kind 6 and leaves the
device state; a request while TransitionBusy is 1 is only held; when the drains have ended Setup is reached first,
and the oldest held request is then judged in Setup. (R8) -/
def Obligations.RefusedStateRequestsAndTransitions : Prop :=
  (∀ (s : State) (p : Path),
      s.allows p 0x2000 2 devSetup →
      s.get (ob 0x2000 4) = 0 →
      s.dev = devSetup →
      exec (.stateRequestSetup p) s = .next ((s.touch p).violate p 0x2000 2 6) ∧ ((s.touch p).violate p 0x2000 2 6).dev = s.dev) ∧
  (∀ (s : State) (p : Path),
      s.allows p 0x2000 2 devRun →
      s.get (ob 0x2000 4) = 0 →
      s.dev = devRun →
      exec (.stateRequestRun p) s = .next ((s.touch p).violate p 0x2000 2 6) ∧ ((s.touch p).violate p 0x2000 2 6).dev = s.dev) ∧
  (∀ (s : State) (p : Path),
      s.allows p 0x2000 2 devMaintain →
      s.get (ob 0x2000 4) = 0 →
      s.dev = devSetup ∨ s.dev = devMaintain →
      exec (.stateRequestMaintain p) s = .next ((s.touch p).violate p 0x2000 2 6) ∧ ((s.touch p).violate p 0x2000 2 6).dev = s.dev) ∧
  (∀ (s : State) (p : Path),
      s.allows p 0x2000 2 devMaintain →
      s.get (ob 0x2000 4) = 1 →
      exec (.stateRequestMaintain p) s = .next { s.touch p with stateHeld := (s.touch p).stateHeld ++ [(devMaintain, p, s.station)] }) ∧
  (∀ (s : State) (p : Path),
      s.allows p 0x2000 2 devRun →
      s.get (ob 0x2000 4) = 1 →
      exec (.stateRequestRun p) s = .next { s.touch p with stateHeld := (s.touch p).stateHeld ++ [(devRun, p, s.station)] }) ∧
  (∀ (s : State) (p : Path),
      s.allows p 0x2000 2 devSetup →
      s.get (ob 0x2000 4) = 1 →
      exec (.stateRequestSetup p) s = .next { s.touch p with stateHeld := (s.touch p).stateHeld ++ [(devSetup, p, s.station)] }) ∧
  (∀ (s y : State) (p : Path) (v_ time : Nat),
      s.get (ob 0x2000 4) = 1 →
      s.liveTunnels = [] →
      s.stateHeld = [(v_, p, time)] →
      y = { (s.set (ob 0x2000 4) 0).enterState devSetup with stateHeld := [] } →
      y.dev = devSetup ∧ exec .setupTransitionComplete s = .next (if v_ = devRun then y.enterRun else y.violateAt time p 0x2000 2 6))

/-- O11. The customer's key hash is programmed once, in Provisioning only. In Provisioning, with the hash not yet
programmed, command 3 of SecurityStatus puts CustomerKeyHashNext into the fuses, which then read back equal, and
commits; in any other life-cycle state, or once the hash is programmed, it is a violation of kind 6 and the fuses
keep their value. (R350) -/
def Obligations.CustomerHashIsProgrammedOnce : Prop :=
  (∀ (s : State) (p : Path),
      s.takes p 0x4000 3 →
      s.secu.life = 1 →
      s.secu.custDone = false →
      ∃ t, exec (.enrolCustomerKeyHash p) s = .next t ∧ t.secu.custHash = s.get (ob 0x4000 6) ∧ t.secu.custDone = true ∧
        t.get (ob 0x4000 5) = s.get (ob 0x4000 6) ∧ t.get (ob 0x4000 0xF2) = 2 ∧ t.get (ob 0x4000 0xF3) = 0 ∧
        t.get (ob 0x4000 0xF4) = s.station ∧ t.keys = s.keys) ∧
  (∀ (s : State) (p : Path),
      s.takes p 0x4000 3 →
      s.secu.life ≠ 1 ∨ s.secu.custDone = true →
      exec (.enrolCustomerKeyHash p) s = .next ((s.touch p).violate p 0x4000 0xF0 6) ∧
        ((s.touch p).violate p 0x4000 0xF0 6).secu = s.secu)

/-- O12. In Reset, Boot and Lift no path reaches the dictionary. While the hub is in Reset, Boot or Lift, every
command that is an access by a path, whatever its path, object and value, leaves the whole state as it is: nothing
is written, counted, journalled or replied. (R6, R7, R33) -/
def Obligations.NoPathReachesTheDictionaryBeforeSetup : Prop :=
  (∀ (c : Instr) (s : State),
      viaPath c = true →
      c.wellFormed = true →
      s.dev < 3 →
      exec c s = .next s) ∧
  (∀ (s : State) (p : Path) (i sub : Nat) (data : Bytes) (more : List Nat) (eff : State → State),
      s.dev < 3 →
      s.write p i sub data more eff = s)

/-- O13. What accepting, committing, failing and refusing a command leave in its command block. A command that its
block takes sets Status 1, clears Result and CommitTime and counts CommandCount, all at once and before its
effect, and no other object; its commit point sets Status 2, the Result and the CommitTime, its failure Status 5
and the Result; while Status is 1 a further command is a violation of kind 6 and changes nothing of the block.
(R56, R57, R37) -/
def Obligations.CommandBlockAcceptsCommitsAndFails : Prop :=
  (∀ (s : State) (p : Path) (i v_ : Nat) (known more : List Nat) (eff : State → State),
      s.takes p i v_ →
      v_ ∈ known →
      more = [] →
      objSize (ob i 0xF5 / 256) (ob i 0xF5 % 256) = 2 →
      ∃ y, s.command p i v_ anyState known more eff = eff y ∧ y.get (ob i 0xF2) = 1 ∧ y.get (ob i 0xF3) = 0 ∧ y.get (ob i 0xF4) = 0 ∧
        y.get (ob i 0xF5) = (s.get (ob i 0xF5) + 1) % 65536 ∧ (∀ n, (∀ m, 0xF2 ≤ m → m ≤ 0xF5 → n ≠ ob i m) → y.get n = s.get n) ∧
        (y.cmd i).value = v_ ∧ (s.overLimit p = 0 → y.jour = s.jour)) ∧
  (∀ (s : State) (i r : Nat),
      (s.cmdCommit i r).get (ob i 0xF2) = 2 ∧ (s.cmdCommit i r).get (ob i 0xF3) = r ∧ (s.cmdCommit i r).get (ob i 0xF4) = s.station ∧
        (s.cmdCommit i r).get (ob i 0xF5) = s.get (ob i 0xF5) ∧ (s.cmdFail i r).get (ob i 0xF2) = 5 ∧ (s.cmdFail i r).get (ob i 0xF3) = r ∧
        (s.cmdFail i r).jour = s.jour ∧ (s.cmdCommit i r).keys = s.keys) ∧
  (∀ (s : State) (p : Path) (i v_ : Nat) (states known more : List Nat) (eff : State → State),
      s.allows p i 0xF0 v_ →
      s.get (ob i 0xF2) = 1 →
      more = [] ∨ more = [6] ∨ more = [7] →
      i ≠ 0x1F80 →
      s.command p i v_ states known more eff = (s.touch p).violate p i 0xF0 6 ∧
        (∀ m, 0xF2 ≤ m → m ≤ 0xF5 → ((s.touch p).violate p i 0xF0 6).get (ob i m) = s.get (ob i m)))

/-- O14. What a reset of any kind keeps and loses. A reset out of any other state leads to device state Reset with its
kind recorded; it keeps the journal but for what a full ring gives up to the entries of the reset itself, the
fuses and AON state of security but for waiting Vanguri requests, the boot flash, pair B's MRAM area, the sentinel baseline and the VDD_CORE
setpoint, and the guard die's objects, in which no channel is driven any more; it loses DRAM, the tightly coupled
memories and shared SRAM, the key register, sessions and lockouts, commands, interrupt state, trunk, tunnel,
fabric and CANopen state, and every other object goes to its default. (R6, R36, R42, R52, R343, R377, R387, R396,
R409, R452) -/
def Obligations.ResetKeepsAndLoses : Prop :=
  ∀ (s t : State) (k_ : Nat) (q : Bool),
    s.dev ≠ devReset →
    t = s.toReset k_ q →
    t.dev = devReset ∧ t.power.kind = k_ ∧ t.secu = { s.secu with asks := [] } ∧ t.boot.flash = s.boot.flash ∧ t.boot.copyA = s.boot.copyA ∧
      t.boot.copyB = s.boot.copyB ∧ t.boot.orphans = s.boot.orphans ∧ t.app = { mram := s.app.mram } ∧ t.safety.baseline = s.safety.baseline ∧
      t.safety.vdd = s.safety.vdd ∧ (∀ e, e ∈ s.jour.ring.take 131070 → e ∈ t.jour.ring) ∧
      (∀ n, guardKeeps q n = true → (∀ c, n ≠ brStat c 1) → t.get n = s.get n) ∧
      (∀ n, guardKeeps q n = false → t.get n = objDefault s.part s.head n) ∧ (∀ c, c < 9 → t.driven c = false) ∧
      t.dram = [] ∧ t.keys = [] ∧ t.sessions = [] ∧ t.lockouts = [] ∧ t.cmds = [] ∧ t.irq = {} ∧ t.rates = [] ∧ t.trunks = [] ∧
      t.tunnels = [] ∧ t.fabric = {} ∧ t.scheds = [] ∧ t.canOpen = {} ∧ t.strs = [] ∧ t.head = s.head ∧ t.part = s.part

/-- O15. The journal ring writes in the order of R281 and a full ring loses its oldest entry. A new entry takes the
next index and sequence and counts EntriesWritten; it stands before every entry that did not arrive within 20 µs
of it with a later stamp, or the same stamp and a higher code; two declarations of regions of one output with the same
stamp stay in the order they came in, which is the model's reading of R210 (log entry 219); the other entries keep
their order; a ring of 131 072 entries loses its oldest, a shorter one nothing. (R279, R281, R290) -/
def Obligations.FullJournalLosesItsOldest : Prop :=
  (∀ (j : Journal) (e : JEntry),
      (∀ x, x ∈ j.ring → x.arrival + 20000 ≤ e.arrival ∨ x.time ≤ e.time ∧ (x.time = e.time → x.code ≤ e.code ∨ regionPair e x = true)) →
      (j.add e).ring = (e :: j.ring).take 131072 ∧ (j.add e).next = (j.next + 1) % 4294967296 ∧ (j.add e).seq = (j.seq + 1) % 65536) ∧
  (∀ (j : Journal) (e x : JEntry) (r : List JEntry),
      j.ring = x :: r →
      e.arrival < x.arrival + 20000 →
      e.time < x.time ∨ (e.time = x.time ∧ e.code < x.code ∧ regionPair e x = false) →
      (j.add e).ring.head? = some x ∧ (r = [] → (j.add e).ring = [x, e])) ∧
  (∀ (j : Journal) (e : JEntry),
      (j.add e).ring.length = min (j.ring.length + 1) 131072 ∧ (j.ring.length < 131072 → ∀ x, x ∈ (j.add e).ring ↔ x = e ∨ x ∈ j.ring))

/-- O16. A claim takes the pending, enabled source of highest priority and lowest number and makes it active. While a
source of the class is active on the pair a claim answers 0 and changes no source; otherwise the source it answers
is pending, enabled, routed to the pair and of the class, no such source has a higher Priority or the same and a
lower number, it becomes active, its latch is cleared while a doorbell bit stays, and its count rises; with no
such source it answers 0. (R392, R395, R396, R397) -/
def Obligations.ClaimsTakeTheBestPendingSource : Prop :=
  (∀ (s : State) (p c : Nat),
      s.irq.active p c ≠ 0 →
      s.claim p c = s.send (.claimed p c 0)) ∧
  (∀ (s : State) (p c : Nat),
      (∀ k, 0 < k → k < 512 → (s.srcPending k && s.enabled p k && decide (s.get (ob (irqIndex k) 3) = c)) = false) →
      s.claim p c = s.send (.claimed p c 0)) ∧
  (∀ (s : State) (p c b : Nat),
      p < 2 ∧ c < 2 →
      s.irq.active p c = 0 →
      b = s.bestSource p c →
      b ≠ 0 →
      b < 512 ∧ s.irq.level b = true ∧ s.irq.isActive b = false ∧ s.enabled p b = true ∧ s.route b = p + 1 ∧ s.get (ob (irqIndex b) 3) = c ∧
        (∀ k, 0 < k → k < 512 → s.srcPending k = true → s.enabled p k = true → s.get (ob (irqIndex k) 3) = c →
          s.get (ob (irqIndex k) 4) < s.get (ob (irqIndex b) 4) ∨ (s.get (ob (irqIndex k) 4) = s.get (ob (irqIndex b) 4) ∧ b ≤ k)) ∧
        (s.claim p c).irq.active p c = b ∧ (s.claim p c).irq.bells = s.irq.bells ∧ (b < 384 → (s.claim p c).irq.latch = clrBit s.irq.latch b) ∧
        (s.claim p c).sent = .claimed p c b :: s.sent) ∧
  (∀ (s : State) (k_ : Nat),
      1 ≤ k_ ∧ k_ < 384 →
      s.srcOff k_ = false →
      (s.route k_ = 0 → s.raise k_ = s) ∧ (s.route k_ ≠ 0 → s.irq.stopped = false → (s.raise k_).irq = { s.irq with latch := setBit s.irq.latch k_ }) ∧
        (s.route k_ ≠ 0 → s.irq.stopped = true → (s.raise k_).irq = { s.irq with async := setBit s.irq.async k_ }))

/-- O17. Each command that stores to DRAM stores only to the bytes that it computes. A write of a drive stores the
enabled bytes of its data at their addresses and no other byte; a unit of data that reaches the drive side stores
its bytes at its command's place in staging and no other byte, and other units store none; a display cell stores
its bytes of content at the pixels of its unit's rectangle and no other byte; every command for which mayChange
does not list DRAM leaves every byte as it was. (R186, R293, R294, R297, R300) -/
def Obligations.BytesOfDramAreStoredWhereComputed : Prop :=
  (∀ (s y t : State) (p addr len be tag : Nat) (write : Bool) (data : TlpData),
      exec (.rootPortDeviceRequest p write addr len be tag data) s = .next t →
      y = s.count (pcieStat p 5) 1 →
      (∀ a, (write = false ∨ a ∉ enabledBytes addr ((data.bytes.length + 3) / 4) be) → t.dramByte a = s.dramByte a) ∧
        (write = true → s.pcieUp p = true → s.isRoot p = true → s.stagingFree = true → data.kind = .memory → data.ecrcBad = false → y.get (ob 0x2D00 1) ≤ addr ∧ addr < y.get (ob 0x2D00 1) + y.stagingSize →
          ∀ a ∈ enabledBytes addr ((data.bytes.length + 3) / 4) be, t.dramByte a = data.bytes.getD (a - addr / 4 * 4) 0)) ∧
  (∀ (s t : State) (n tag off : Nat) (bs : Bytes) (mark : UnitMark),
      exec (.storageUnitReceived n (.data tag off bs) mark) s = .next t →
      s.stor.held = [] →
      ∀ a, (∀ k, k < bs.length → a ≠ s.staging n tag (off + k)) → t.dramByte a = s.dramByte a) ∧
  (∀ (s t : State) (n tag off : Nat) (bs : Bytes) (mark : UnitMark),
      exec (.storageUnitReceived n (.data tag off bs) mark) s = .next t →
      s.stor.held = [] ∧ s.seqGap n mark.seq = false →
      mark.damaged = false ∧ s.hurtOf n mark.seq (storageBytes (.data tag off bs)).length = 0 →
      s.domainOn 11 = true ∧ s.queueMode = true →
      s.tstate n = 3 →
      s.tcfg n 2 = 1 ∧ s.get (tunKey n 0x12) = 2 ∧ s.tcfg n 6 = 18 →
      bs.length ≤ s.stagingSize →
      ∀ k, k < bs.length → t.dramByte (s.staging n tag (off + k)) = bs.getD k 0) ∧
  (∀ (s t : State) (n : Nat) (u : SUnit) (mark : UnitMark),
      exec (.storageUnitReceived n u mark) s = .next t →
      s.stor.held = [] →
      (∀ tag off bs, u ≠ .data tag off bs) →
      ∀ a, t.dramByte a = s.dramByte a) ∧
  (∀ (s t : State) (n d : Nat) (c : Cell) (u : DUnit) (seq : Int) (j row : Nat) (bs : Bytes),
      exec (.displayCellReceived n c) s = .next t →
      s.outputOf n = some d →
      c.first = false ∧ (s.disp d).early = [] →
      seq = extend c.seq (s.tun n).h →
      (s.disp d).unitAt seq = some u →
      j = (seq - u.first).toNat →
      bs = ((c.payload.take c.len).drop (if j = 0 then 16 else 0)).take (u.len - contentAt j) →
      row = max 1 (u.w * pixelBytes (s.lay (4 * d + u.layer) 2)) →
      ∀ a, ((u.kind ≠ 1 ∧ u.kind ≠ 4) ∨ ∀ k, k < bs.length →
          a ≠ s.pixelAddr (4 * d + u.layer) u.buf u.x (u.y + (contentAt j + k) / row) + (contentAt j + k) % row) →
        t.dramByte a = s.dramByte a) ∧
  (∀ (s t : State) (n d : Nat) (c : Cell),
      exec (.displayCellReceived n c) s = .next t →
      s.outputOf n = some d →
      c.first = false ∧ (s.disp d).early = [] →
      (s.disp d).unitAt (extend c.seq (s.tun n).h) = none →
      ∀ a, t.dramByte a = s.dramByte a) ∧
  (∀ (s t y : State) (n d : Nat) (c : Cell) (b : Bytes) (u : DUnit) (row : Nat) (bs : Bytes),
      exec (.displayCellReceived n c) s = .next t →
      s.outputOf n = some d →
      c.first = true ∧ (s.disp d).early = [] ∧ s.get (tunKey n 0x12) ≠ 1 →
      b = c.payload →
      u = { first := extend c.seq (s.tun n).h, kind := 1, flip := leAt b 4 2, layer := byteAt b 1, buf := byteAt b 2, x := leAt b 6 2, y := leAt b 8 2, w := leAt b 10 2, h := leAt b 12 2, len := leAt b 10 2 * leAt b 12 2 * pixelBytes (s.lay (4 * d + byteAt b 1) 2) } →
      y = (s.updDisp d (fun x => { x with units := x.units ++ [u] })).updFlip d u.flip (fun f => f) →
      row = max 1 (u.w * pixelBytes (y.lay (4 * d + u.layer) 2)) →
      bs = ((c.payload.take c.len).drop 16).take u.len →
      ∀ a, (byteAt b 0 ≠ 1 ∨ ∀ k, k < bs.length → a ≠ y.pixelAddr (4 * d + u.layer) u.buf u.x (u.y + k / row) + k % row) →
        t.dramByte a = s.dramByte a) ∧
  (∀ (s : State) (d j row : Nat) (c : Cell) (u : DUnit) (seq : Int) (bs : Bytes),
      j = (seq - u.first).toNat →
      bs = ((c.payload.take c.len).drop (if j = 0 then 16 else 0)).take (u.len - contentAt j) →
      row = max 1 (u.w * pixelBytes (s.lay (4 * d + u.layer) 2)) →
      ∀ a, ((u.kind ≠ 1 ∧ u.kind ≠ 4) ∨ ∀ k, k < bs.length →
          a ≠ s.pixelAddr (4 * d + u.layer) u.buf u.x (u.y + (contentAt j + k) / row) + (contentAt j + k) % row) →
        (s.placeCell d u seq c).dramByte a = s.dramByte a) ∧
  (∀ (c : Instr) (s t : State),
      exec c s = .next t →
      (mayChange c).contains .dram = false →
      ∀ a, t.dramByte a = s.dramByte a)

/-- O18. What a response to a session challenge does when it is not granted. A response checked against a valid
challenge that does not match ends the challenge, lets SessionRights fall to 0, and counts one refusal on the
path, the fifth of which starts the lockout; a response without a valid challenge, or during a lockout, is refused
without a check: rights and the path's count stay as they are; whatever the answer, the sessions of other paths
and slots and the counts of other paths are as before. (R34, R35, R36) -/
def Obligations.RefusedResponsesCountTowardsLockout : Prop :=
  (∀ (s : State) (p : Path) (tk chal : Nat) (data : Bytes),
      p.ok = true ∧ s.part.hasTrunk tk = true →
      s.reach = true →
      s.judgeWrite p 0x1100 4 data [] = none →
      (s.lockout p).since = none →
      s.liveChallenge p = some chal →
      ¬ (s.credential (s.session p).cred = true ∧ (s.session p).chalRights ≤ s.get (slotKey (112 + (s.session p).cred) 0x0D) ∧
        data = s.answerTo p chal (s.session p).chalRights (s.session p).cred) →
      ∃ t, exec (.sessionResponse p tk data) s = .next t ∧ (t.session p).rights = 0 ∧ (t.session p).chal = none ∧
        (t.lockout p).refusals = (s.lockout p).refusals + 1 ∧
        (t.lockout p).since = (if 5 ≤ (s.lockout p).refusals + 1 then some s.clock else none)) ∧
  (∀ (s : State) (p : Path) (tk : Nat) (data : Bytes),
      p.ok = true ∧ s.part.hasTrunk tk = true →
      s.reach = true →
      s.judgeWrite p 0x1100 4 data [] = none →
      (s.lockedOut p = true) ∨ ((s.lockout p).since = none ∧ s.liveChallenge p = none) →
      ∃ t, exec (.sessionResponse p tk data) s = .next t ∧ (t.session p).rights = s.rightsOf p ∧ t.lockouts = s.lockouts) ∧
  (∀ (s t : State) (p q : Path) (tk : Nat) (data : Bytes),
      exec (.sessionResponse p tk data) s = .next t →
      q.held ≠ p.held →
      t.session q = s.session q ∧ (q.code ≠ p.code → t.lockout q = s.lockout q))

/-- O19. The commands of Reset, Boot and the device states complete. Where the rules name the state, a reset cause
puts the hub in Reset, its release begins Boot, Ilkai's declaration ends Boot, the boot watchdog resets the hub,
and StateRequest takes the hub to Setup, Run or Maintain, Setup only when no tunnel is live any more. (R6, R7, R8,
R444, R452) -/
def Obligations.StartCommandsComplete : Prop :=
  (∀ (s : State) (card : Bool),
      s.dev ≠ devReset →
      exec (.resetAsserted card) s = .next (s.toReset (if card then 2 else 3) false)) ∧
  (∀ (s : State) (trueHead liftN : Bool) (r : Nat),
      s.dev = devReset →
      s.seqState = 5 →
      s.timing .resetRelease = false →
      exec (.resetReleased ⟨trueHead, liftN⟩ r) s = .next (s.bootStart trueHead liftN r)) ∧
  (∀ (s : State),
      s.dev = devBoot →
      s.boot.domains = [] →
      exec .ilkaiDeclaredStarted s = .next s.declared) ∧
  (∀ (s : State),
      s.dev = devBoot →
      s.due .bootWatchdog (sec 20) = true →
      exec .bootWatchdogExpired s = .next (({ s with boot := { s.boot with failed := s.boot.failed + 1, failCause := 6 } }.note 0xF003 3
        (u16 s.boot.lastSlot ++ u8 6 ++ u32 s.boot.version)).toReset 4 false)) ∧
  (∀ (s : State) (p : Path),
      s.allows p 0x2000 2 devSetup →
      s.flag (ob 0x2000 4) = false →
      s.dev = devRun ∨ s.dev = devMaintain →
      exec (.stateRequestSetup p) s = .next ((forAll (fun n s => s.shut n 3) ((s.touch p).set (ob 0x2000 4) 1).liveTunnels
        ((s.touch p).set (ob 0x2000 4) 1)).settle)) ∧
  (∀ (s : State) (p : Path),
      s.allows p 0x2000 2 devRun →
      s.flag (ob 0x2000 4) = false →
      s.dev = devSetup ∨ s.dev = devMaintain →
      exec (.stateRequestRun p) s = .next (s.touch p).enterRun) ∧
  (∀ (s : State) (p : Path),
      s.allows p 0x2000 2 devMaintain →
      s.flag (ob 0x2000 4) = false →
      s.dev = devRun →
      exec (.stateRequestMaintain p) s = .next (((s.touch p).set (ob 0x2000 1) devMaintain).raise 18).pulse) ∧
  (∀ (s : State),
      s.flag (ob 0x2000 4) = true →
      s.liveTunnels = [] →
      s.stateHeld = [] →
      exec .setupTransitionComplete s = .next ((((s.set (ob 0x2000 4) 0).set (ob 0x2000 1) devSetup).raise 18).pulse))

/-- O20. The commands of the islands, the die-to-die link and the power domains complete. An island whose watchdog
runs out is counted and latched; a die-to-die frame sets the link, a bad one asks for a repeat, and a silent link
is lost; DomainEnable powers a domain up or down, Boot powers them up one by one, and a failed supply isolates a
domain. (R12, R17, R21, R380) -/
def Obligations.IslandAndDomainCommandsComplete : Prop :=
  (∀ (s : State) (isl : Nat) (fifo : List (Nat × Nat)),
      isl < 18 →
      s.dev ≠ devReset →
      s.islandWatched isl = true →
      exec (.islandWatchdogExpired isl fifo) s =
        .next ((((s.count (ob 0x4400 7) 1).latchCommon 2).danger 0xE002 isl 322 (u16 isl ++ u16 (islandPartner isl))).crossingLost
          isl fifo)) ∧
  (∀ (s : State),
      s.dev ≠ devReset →
      exec (.d2dFrameReceived true) s = .next ((({ s with safety := { s.safety with link := true } } : State).start .d2d).pulse) ∧
        exec (.d2dFrameReceived false) s = .next (s.send .d2dRepeat)) ∧
  (∀ (s : State),
      s.dev ≠ devReset →
      s.due .d2d 10000 = true →
      exec .d2dLinkTimeout s = .next (((({ s with safety := { s.safety with link := false } } : State).stop .d2d).pulse).islandStop
        (Config.code 0xE002 18 % 65536) (Config.code 0xE002 19 % 65536))) ∧
  (∀ (s : State) (p : Path) (dom v : Nat),
      dom < 14 →
      s.allows p 0x2020 (dom + 1) v →
      s.dramMissing dom v = false →
      exec (.domainEnableWrite p dom v) s = .next (if dom < 4 then (s.touch p).set (ob 0x2020 (dom + 1)) v
        else if v = 1 then ((s.touch p).set (ob 0x2020 (dom + 1)) 1).domainUp dom
        else ((s.touch p).set (ob 0x2020 (dom + 1)) v).domainDown dom 0)) ∧
  (∀ (s : State) (dom : Nat) (rest : List Nat),
      s.due .domainStagger 20000 = true →
      s.boot.domains = dom :: rest →
      exec .domainPowerUpStagger s = .next ((if rest = [] then ({ s with boot := { s.boot with domains := rest } } : State).stop .domainStagger
        else ({ s with boot := { s.boot with domains := rest } } : State).start .domainStagger).domainUp dom)) ∧
  (∀ (s : State) (dom rail mv : Nat),
      4 ≤ dom →
      dom < 14 →
      rail < 7 →
      s.flag (enKey dom) = true →
      s.domainOn dom = true →
      exec (.domainSupplyFail dom rail mv) s =
        .next (({ s.domainDown dom 3 with power := { s.power with failed := dom :: s.power.failed } } : State).ev 0xD040 (rail + 1) 3
          292 (u16 (rail + 1) ++ u8 1 ++ u16 mv)))

/-- O21. The messages that read and write the dictionary complete. A permitted write of a numeric entry stores its
value; a management message reads or writes and is answered, a write's reply leaving before its effect, and a write
that takes its own path away waits until the reply is gone; a gateway write at the engine is done; at its Period a
map entry notes the time, an object source is sampled, and an entry of TriggerMode 2 is packed into its destination.
(R21, R39, R46, R47, R255, R390, R324, R326) -/
def Obligations.DictionaryMessagesComplete : Prop :=
  (∀ (s : State) (p : Path) (i sub : Nat) (data : Bytes) (r : ObjRow),
      (0x1200 ≤ i ∧ i < 0x1F80) ∨ (0x2600 ≤ i ∧ i < 0x2710) →
      sub < 0xF0 →
      p.ok = true →
      s.reach = true →
      rowAt i sub = some r →
      r.type ≠ 9 →
      s.oldProfile i = false →
      s.judgeWrite p i sub data [] = none →
      s.plainKinds p i sub (leNat data) = [] →
      exec (.odWrite p i sub data) s = .next ((s.touch p).set (ob i sub) (leNat data))) ∧
  (∀ (s : State) (mp : Nat) (msg : Bytes),
      mp = 4 ∨ s.part.hasTrunk mp = true →
      s.mgmtOn mp = true ∧ s.lateWrites mp = [] →
      (mp = 4 → s.ep1Halted = false ∧ s.svc.complete.contains msg = false) →
      mgmtMalformed mp msg = false →
      s.mgmtWaiting mp < 16 →
      mgmtByte msg 0 = 1 →
      exec (.mgmtReadRequest mp msg) s =
        .next ((s.readNow (mgmtPath mp (mgmtByte msg 1)) (mgmtWord msg 4) (mgmtByte msg 6)).2.mgmtSend mp
          (mgmtReply msg 0 (s.readNow (mgmtPath mp (mgmtByte msg 1)) (mgmtWord msg 4) (mgmtByte msg 6)).1))) ∧
  (∀ (s : State) (mp : Nat) (msg : Bytes),
      mp = 4 ∨ s.part.hasTrunk mp = true →
      s.mgmtOn mp = true ∧ s.lateWrites mp = [] →
      (mp = 4 → s.ep1Halted = false ∧ s.svc.complete.contains msg = false) →
      mgmtMalformed mp msg = false →
      s.mgmtWaiting mp < 16 →
      mgmtByte msg 0 = 2 →
      awaitsReply mp (mgmtWord msg 4) (mgmtByte msg 6) (leNat (msg.drop 12)) = false →
      exec (.mgmtWriteRequest mp msg) s =
        .next ((s.mgmtSend mp (mgmtReply msg 0 [])).odWrite (mgmtPath mp (mgmtByte msg 1)) (if mp = 4 then 0 else mp)
          (mgmtWord msg 4) (mgmtByte msg 6) (msg.drop 12))) ∧
  (∀ (s y : State) (mp v : Nat) (msg : Bytes) (p : Path),
      mp = 4 ∨ s.part.hasTrunk mp = true →
      s.mgmtOn mp = true ∧ s.lateWrites mp = [] →
      (mp = 4 → s.ep1Halted = false ∧ s.svc.complete.contains msg = false) →
      mgmtMalformed mp msg = false →
      s.mgmtWaiting mp < 16 →
      mgmtByte msg 0 = 2 →
      v = leNat (msg.drop 12) ∧ p = mgmtPath mp (mgmtByte msg 1) →
      awaitsReply mp (mgmtWord msg 4) (mgmtByte msg 6) v = true →
      y = s.mgmtSend mp (mgmtReply msg 0 []) →
      y.judgeWrite p (mgmtWord msg 4) (mgmtByte msg 6) (msg.drop 12) [] = none →
      exec (.mgmtWriteRequest mp msg) s =
        .next ((y.touch p).setLate mp ((y.touch p).lateWrites mp ++
          [{ path := p, time := (y.touch p).station, index := mgmtWord msg 4, sub := mgmtByte msg 6, value := v }]))) ∧
  (∀ (s : State) (i sub : Nat),
      s.app.gwOp = 2 →
      s.app.gwAddress = i * 256 + sub →
      sub < 256 →
      (s.odWrite .gateway 0 i sub (s.app.gwData.take s.app.gwLength)).app.stop = 0 →
      exec .gatewayDone s = .next (({ s.odWrite .gateway 0 i sub (s.app.gwData.take s.app.gwLength) with
        app := { (s.odWrite .gateway 0 i sub (s.app.gwData.take s.app.gwLength)).app with gwOp := 0, gwDone := true } } : State).raise 3)) ∧
  (∀ (s : State) (me : Nat),
      me < 1024 →
      s.mapping = true →
      s.flag (mapKey me 1) = true →
      (s.mapEntry me).periodAt + msec (s.mcfg me 0x12) ≤ s.clock →
      s.mcfg me 2 ≠ 3 →
      s.mcfg me 0x10 ≠ 2 →
      exec (.mapPeriodTimer me) s = .next (s.updMap me fun x => { x with periodAt := s.clock })) ∧
  (∀ (s : State) (me : Nat),
      me < 1024 →
      s.mapping = true →
      s.flag (mapKey me 1) = true →
      (s.mapEntry me).periodAt + msec (s.mcfg me 0x12) ≤ s.clock →
      s.mcfg me 2 ≠ 3 →
      s.mcfg me 0x10 = 2 →
      exec (.mapPeriodTimer me) s = .next (((s.updMap me fun x => { x with periodAt := s.clock }).mapPack me).tpdoCheck)) ∧
  (∀ (s : State) (me : Nat),
      me < 1024 →
      s.mapping = true →
      s.flag (mapKey me 1) = true →
      (s.mapEntry me).periodAt + msec (s.mcfg me 0x12) ≤ s.clock →
      s.mcfg me 2 = 3 →
      exec (.mapPeriodTimer me) s =
        let t := s.updMap me fun x => { x with periodAt := s.clock }
        let u := t.mapRaw me (t.objectRaw (field (s.mcfg me 3) 8 16) (field (s.mcfg me 3) 0 8)) s.station 0
        .next (if u.mcfg me 0x10 = 2 then (u.mapPack me).tpdoCheck else u))

/-- O22. The commands of the CANopen SDO server complete. In the transfer state that each row names, a frame of the
SDO server begins, continues, ends or aborts its transfer, with the object written or read by the dictionary's own
operation, and a silent transfer times out. (R43, R45) -/
def Obligations.SdoCommandsComplete : Prop :=
  (∀ (s : State) (frame f : Bytes),
      f = fitBytes 8 frame →
      s.sdoRuns = true →
      s.canOpen.sdo.kind ≠ 3 →
      byteAt f 0 / 32 = 1 →
      (byteAt f 0).testBit 1 = false →
      exec (.sdoInitiateDownload frame) s = .next (({ s with canOpen := { s.canOpen with sdo :=
        { kind := 1, index := leAt f 1 2, sub := byteAt f 3, size := if (byteAt f 0).testBit 0 then some (leAt f 4 4) else none,
          at_ := s.clock } } } : State).sdoOut (u8 0x60 ++ u16 (leAt f 1 2) ++ u8 (byteAt f 3)))) ∧
  (∀ (s : State) (frame f : Bytes),
      f = fitBytes 8 frame →
      s.sdoRuns = true →
      s.canOpen.sdo.kind ≠ 3 →
      byteAt f 0 / 32 = 1 →
      (byteAt f 0).testBit 1 = true →
      exec (.sdoInitiateDownload frame) s = .next ((if (byteAt f 0).testBit 0 = false ∧ longString (leAt f 1 2) (byteAt f 3) = true then
          ({ s with canOpen := { s.canOpen with sdo := {} } } : State).write .can (leAt f 1 2) (byteAt f 3) (f.drop 4) [2] id
        else ({ s with canOpen := { s.canOpen with sdo := {} } } : State).odWrite .can 0 (leAt f 1 2)
        (byteAt f 3) (expeditedData (leAt f 1 2) (byteAt f 3) (field (byteAt f 0) 2 2) ((byteAt f 0).testBit 0) (f.drop 4))).sdoOut
        (u8 0x60 ++ u16 (leAt f 1 2) ++ u8 (byteAt f 3)))) ∧
  (∀ (s : State) (frame f : Bytes),
      f = fitBytes 8 frame →
      s.sdoRuns = true →
      s.canOpen.sdo.kind = 1 →
      byteAt f 0 / 32 = 0 →
      (byteAt f 0).testBit 4 = s.canOpen.sdo.toggle →
      exec (.sdoDownloadSegment frame) s = .next ((if (byteAt f 0).testBit 0 then
          (s.sdoWrite s.canOpen.sdo.index s.canOpen.sdo.sub s.canOpen.sdo.size
            (s.canOpen.sdo.data ++ (f.drop 1).take (7 - field (byteAt f 0) 1 3))).sdoClose
        else { s with canOpen := { s.canOpen with sdo := { s.canOpen.sdo with
          data := s.canOpen.sdo.data ++ (f.drop 1).take (7 - field (byteAt f 0) 1 3), toggle := !s.canOpen.sdo.toggle, at_ := s.clock } } }).sdoOut
        (u8 (0x20 + 16 * ofBool s.canOpen.sdo.toggle)))) ∧
  (∀ (s : State) (frame f v : Bytes) (t : State),
      f = fitBytes 8 frame →
      s.sdoRuns = true →
      s.canOpen.sdo.kind ≠ 3 →
      byteAt f 0 / 32 = 2 →
      (v, t) = ({ s with canOpen := { s.canOpen with sdo := {} } } : State).readNow .can (leAt f 1 2) (byteAt f 3) →
      exec (.sdoInitiateUpload frame) s = .next (if 1 ≤ v.length ∧ v.length ≤ 4 then
          t.sdoOut (u8 (0x43 + 4 * (4 - v.length)) ++ (u16 (leAt f 1 2) ++ u8 (byteAt f 3)) ++ v)
        else ({ t with canOpen := { t.canOpen with sdo :=
          { kind := 2, index := leAt f 1 2, sub := byteAt f 3, data := v, at_ := t.clock } } } : State).sdoOut
            (u8 0x41 ++ (u16 (leAt f 1 2) ++ u8 (byteAt f 3)) ++ u32 v.length))) ∧
  (∀ (s : State) (frame f : Bytes),
      f = fitBytes 8 frame →
      s.sdoRuns = true →
      s.canOpen.sdo.kind = 2 →
      byteAt f 0 / 32 = 3 →
      (byteAt f 0).testBit 4 = s.canOpen.sdo.toggle →
      s.canOpen.sdo.data.length ≤ s.canOpen.sdo.sent + 7 →
      exec (.sdoUploadSegment frame) s = .next (({ s with canOpen := { s.canOpen with sdo := {} } } : State).sdoOut
        (u8 (16 * ofBool s.canOpen.sdo.toggle + 2 * (7 - ((s.canOpen.sdo.data.drop s.canOpen.sdo.sent).take 7).length) + 1) ++
          (s.canOpen.sdo.data.drop s.canOpen.sdo.sent).take 7))) ∧
  (∀ (s : State) (frame f : Bytes),
      f = fitBytes 8 frame →
      s.sdoRuns = true →
      s.canOpen.sdo.kind = 3 →
      byteAt f 0 = s.canOpen.sdo.seq + 1 →
      byteAt f 0 < 128 →
      byteAt f 0 ≠ s.canOpen.sdo.blk →
      exec (.sdoBlockDownloadSegment frame) s = .next { s with canOpen := { s.canOpen with sdo := { s.canOpen.sdo with
        data := s.canOpen.sdo.data ++ (f.drop 1).take 7, seq := s.canOpen.sdo.seq + 1, at_ := s.clock } } }) ∧
  (∀ (s : State) (frame f : Bytes),
      f = fitBytes 8 frame →
      s.sdoRuns = true →
      s.canOpen.sdo.kind = 4 →
      s.canOpen.sdo.crc = false →
      byteAt f 0 / 32 = 6 →
      (byteAt f 0).testBit 0 = true →
      exec (.sdoBlockDownloadEnd frame) s = .next (((s.sdoWrite s.canOpen.sdo.index s.canOpen.sdo.sub s.canOpen.sdo.size
        (s.canOpen.sdo.data.take (s.canOpen.sdo.data.length - field (byteAt f 0) 2 3))).sdoClose).sdoOut (u8 0xA1))) ∧
  (∀ (s : State) (frame f : Bytes),
      f = fitBytes 8 frame →
      s.sdoRuns = true →
      s.canOpen.sdo.kind = 7 →
      byteAt f 0 / 32 = 5 →
      field (byteAt f 0) 0 2 = 1 →
      exec (.sdoBlockUploadRequest frame) s = .next { s with canOpen := { s.canOpen with sdo := {} } }) ∧
  (∀ (s : State) (frame : Bytes),
      s.sdoRuns = true →
      byteAt (fitBytes 8 frame) 0 = 0x80 →
      exec (.sdoAbortReceived frame) s = .next { s with canOpen := { s.canOpen with sdo := {} } }) ∧
  (∀ (s : State),
      s.sdoRuns = true →
      s.canOpen.sdo.kind ≠ 0 →
      s.canOpen.sdo.at_ + msec (s.get (ob 0x1210 2)) ≤ s.clock →
      exec .sdoTimeout s = .next (((s.sdoOut (u8 0x80 ++ u16 s.canOpen.sdo.index ++ u8 s.canOpen.sdo.sub ++ u32 0x05040000)).ev 0x1140 0 2 0
        (u32 0x05040000 ++ u16 s.canOpen.sdo.index ++ u8 s.canOpen.sdo.sub)).updSdo fun _ => {}))

/-- O23. The commands of PDO, SYNC, the heartbeat and NMT complete. While the CANopen node runs, a mapped receive PDO
is written, or held for the next SYNC when its transmission type is synchronous, SYNC serves the transmit PDOs and
applies what is held, their timers send what is due, the heartbeat is sent, and the NMT commands set the node's state.
(R43, R44, R45) -/
def Obligations.CanOpenServicesComplete : Prop :=
  (∀ (s : State) (k : Nat) (data : Bytes),
      k < 4 →
      s.canRuns = true →
      s.canOpen.nmt = 5 →
      (s.get (ob (0x1400 + k) 1)).testBit 31 = false →
      ((s.pdoMap (0x1600 + k)).map fun v => v % 256 / 8).foldl (· + ·) 0 ≤ data.length →
      240 < s.get (ob (0x1400 + k) 2) →
      exec (.rpdoReceived k data) s = .next (s.asOperator fun s => s.rpdoWrite (s.pdoMap (0x1600 + k)) data)) ∧
  (∀ (s : State),
      s.canRuns = true →
      exec .syncReceived s = .next
        ((((((((s.tpdoSync 0).tpdoSync 1).tpdoSync 2).tpdoSync 3).rpdoSync 0).rpdoSync 1).rpdoSync 2).rpdoSync 3)) ∧
  (∀ (s : State) (k : Nat),
      k < 4 →
      s.tpdoOn k = true →
      254 ≤ s.get (ob (0x1800 + k) 2) →
      s.get (ob (0x1800 + k) 5) ≠ 0 →
      (s.tpdo k).timer + msec (s.get (ob (0x1800 + k) 5)) ≤ s.clock →
      s.tpdoHeld k = false →
      exec (.tpdoEventTimer k) s = .next (s.tpdoSend k)) ∧
  (∀ (s : State) (k : Nat),
      k < 4 →
      s.tpdoOn k = true →
      (s.tpdo k).deferred = true →
      s.tpdoHeld k = false →
      exec (.tpdoInhibitEnd k) s = .next (s.tpdoSend k)) ∧
  (∀ (s : State),
      s.canRuns = true →
      s.get (ob 0x1017 0) ≠ 0 →
      s.due .heartbeat (msec (s.get (ob 0x1017 0))) = true →
      exec .heartbeatTimer s = .next ((s.canSend 0 { id := 0x700 + s.canNode, data := u8 s.canOpen.nmt }).start .heartbeat)) ∧
  (∀ (s : State) (node : Nat),
      s.canRuns = true →
      node = 0 ∨ node = s.canNode →
      ∃ t, exec (.nmtStartRemoteNode node) s = .next t ∧ t.canOpen.nmt = 5 ∧ t.canOpen.sdo = s.canOpen.sdo ∧ t.dev = s.dev ∧
        ∀ k, t.get k = s.get k) ∧
  (∀ (s : State) (node : Nat),
      s.canRuns = true →
      node = 0 ∨ node = s.canNode →
      exec (.nmtEnterPreOperational node) s = .next { s with canOpen := { s.canOpen with nmt := 127 } }) ∧
  (∀ (s : State) (node : Nat),
      s.canRuns = true →
      node = 0 ∨ node = s.canNode →
      exec (.nmtStopRemoteNode node) s = .next { s with canOpen := { s.canOpen with nmt := 4 } }) ∧
  (∀ (s : State) (node : Nat),
      s.canRuns = true →
      node = 0 ∨ node = s.canNode →
      exec (.nmtResetCommunication node) s = .next (((forAll (fun k s => s.set k (s.storedValue k))
        [ob 0x1400 1, ob 0x1800 1, ob 0x1401 1, ob 0x1801 1, ob 0x1402 1, ob 0x1802 1, ob 0x1403 1, ob 0x1803 1]
        (s.endSession .can 4))).canTake)) ∧
  (∀ (s : State) (node : Nat),
      s.canRuns = true →
      node = 0 ∨ node = s.canNode →
      exec (.nmtResetNode node) s = .next (((forAll (fun k s => s.set k (s.storedValue k))
        [ob 0x1400 1, ob 0x1800 1, ob 0x1401 1, ob 0x1801 1, ob 0x1402 1, ob 0x1802 1, ob 0x1403 1, ob 0x1803 1]
        (s.endSession .can 4))).canTake)) ∧
  (∀ (s : State) (k : Nat) (data : Bytes),
      k < 4 →
      s.canRuns = true →
      s.canOpen.nmt = 5 →
      (s.get (ob (0x1400 + k) 1)).testBit 31 = false →
      s.get (ob (0x1400 + k) 2) ≤ 240 →
      exec (.rpdoReceived k data) s =
        .next { s with canOpen := { s.canOpen with rpdos := Sparse.put [] k data s.canOpen.rpdos } })

/-- O24. The commands of sessions, challenges, lockouts and violations complete. A request draws a challenge or ends a
session, a right response grants the session, a challenge, an idle or an old session and a lockout run out, the
limits are written, and a write of zero clears the violation counters. (R35, R36, R41) -/
def Obligations.SessionCommandsComplete : Prop :=
  (∀ (s : State) (p : Path) (v : Nat),
      s.allows p 0x1100 1 v →
      v ≠ 0 →
      s.overLimit p = 0 →
      s.lockedOut p = false →
      s.get (ob 0x4000 7) ≠ 1 →
      ∃ t, exec (.sessionRequest p v) s = .next t ∧
        (t.session p).chal = some (Config.trng s.freeCount % 2 ^ 128, s.clock) ∧ (t.session p).chalRights = v ∧
        (t.session p).request = v ∧ (t.session p).rights = (s.session p).rights ∧ t.freeCount = s.freeCount + 1 ∧
        ∀ k, t.get k = s.get k) ∧
  (∀ (s : State) (p : Path),
      s.allows p 0x1100 1 0 →
      (s.session p).rights ≠ 0 →
      ∃ t, exec (.sessionEndRequest p) s = .next t ∧ (t.session p).rights = 0 ∧ (t.session p).request = 0 ∧
        ∀ k, t.get k = s.get k) ∧
  (∀ (s : State) (p : Path) (tk : Nat) (data : Bytes) (chal : Nat),
      p.ok = true →
      s.part.hasTrunk tk = true →
      s.reach = true →
      s.judgeWrite p 0x1100 4 data [] = none →
      s.lockedOut p = false →
      (s.lockout p).since = none →
      s.liveChallenge p = some chal →
      s.credential (s.session p).cred = true →
      (s.session p).chalRights ≤ s.get (slotKey (112 + (s.session p).cred) 0x0D) →
      data = s.answerTo p chal (s.session p).chalRights (s.session p).cred →
      exec (.sessionResponse p tk data) s = .next ((s.touch p).grant p tk) ∧
        (((s.touch p).grant p tk).session p).rights = (s.session p).chalRights ∧
        (((s.touch p).grant p tk).session p).chal = none ∧ (((s.touch p).grant p tk).session p).granted = s.clock) ∧
  (∀ (s : State) (p : Path) (c v : Nat),
      p.ok = true →
      (s.session p).chal = some (v, c) →
      c + sec 10 ≤ s.clock →
      exec (.challengeExpired p) s = .next (s.updSession p fun x => { x with chal := none })) ∧
  (∀ (s : State) (p : Path),
      p.ok = true →
      (s.session p).rights ≠ 0 →
      (s.session p).lastAccess + msec (s.get (ob 0x1101 1)) < s.clock →
      exec (.sessionIdleTimeout p) s = .next ((s.updSession p fun x => { x with rights := 0 }).ev 0x1122 p.code 1 5
        (u8 p.code ++ u8 p.slot ++ u8 (s.session p).rights ++ u8 (s.session p).grantCred ++ u16 (s.session p).id ++ u8 2))) ∧
  (∀ (s : State) (p : Path),
      p.ok = true →
      (s.session p).rights ≠ 0 →
      (s.session p).granted + msec (s.get (ob 0x1101 2)) < s.clock →
      exec (.sessionAgeTimeout p) s = .next ((s.updSession p fun x => { x with rights := 0 }).ev 0x1122 p.code 1 5
        (u8 p.code ++ u8 p.slot ++ u8 (s.session p).rights ++ u8 (s.session p).grantCred ++ u16 (s.session p).id ++ u8 3))) ∧
  (∀ (s : State) (p : Path) (sub v : Nat),
      sub < 256 →
      s.allows p 0x1101 sub v →
      exec (.sessionLimitWrite p sub v) s = .next ((s.touch p).setLimit p sub v)) ∧
  (∀ (s : State) (p : Path) (c : Nat),
      p.ok = true →
      (s.lockout p).since = some c →
      c + sec 60 ≤ s.clock →
      exec (.lockoutEnd p) s = .next { s with lockouts := Sparse.put {} p.code {} s.lockouts }) ∧
  (∀ (s : State) (p : Path),
      s.allows p 0x1F80 1 0 →
      ∃ t, exec (.violationsClear p 0) s = .next t ∧ (∀ n, 1 ≤ n → n ≤ 0x0C → t.get (ob 0x1F80 n) = 0) ∧
        ∀ k, (∀ n, 1 ≤ n → n ≤ 0x0C → k ≠ ob 0x1F80 n) → t.get k = s.get k)

/-- O25. The commands of the stored configuration, the abort of commands and the function modes complete. A store and
a restore take effect outside Run, an abort undoes a running command or has no effect on a committed one, a mode
write switches an unused function, and a waiting switch is completed. (R50, R54, R55, R56, R57) -/
def Obligations.ConfigurationCommandsComplete : Prop :=
  (∀ (s : State) (p : Path) (area v : Nat),
      s.allows p 0x1010 area v →
      s.cmdStatus 0x1010 ≠ 1 →
      s.dev ≠ devRun →
      exec (.storeConfiguration p area v) s = .next ((((s.touch p).cmdAccept 0x1010 area p).storeArea area).cmdCommit 0x1010 0)) ∧
  (∀ (s : State) (p : Path) (area v : Nat),
      s.allows p 0x1011 area v →
      s.cmdStatus 0x1011 ≠ 1 →
      s.dev ≠ devRun →
      exec (.restoreDefaults p area v) s = .next ((((s.touch p).cmdAccept 0x1011 area p).updBoot fun x =>
        { x with restore := area :: x.restore.filter (· ≠ area) }).cmdCommit 0x1011 0)) ∧
  (∀ (s : State) (p : Path) (i v : Nat),
      i < 65536 →
      s.allows p i 0xF1 v →
      s.cmdStatus i = 1 →
      (s.cmd i).undoing = false →
      exec (.commandAbort p i v) s = .next (((s.touch p).undo p i).cmdUndoing i p)) ∧
  (∀ (s : State) (p : Path) (i v : Nat),
      i < 65536 →
      s.allows p i 0xF1 v →
      s.cmdStatus i = 2 →
      exec (.commandAbort p i v) s = .next (((s.touch p).set (ob i 0xF2) 4).ev 0x1112 p.code 1 0
          (u16 i ++ u32 (s.cmd i).value ++ u8 p.code ++ u8 0 ++ u64 (s.get (ob i 0xF4))))) ∧
  (∀ (s : State) (p : Path) (fn v : Nat),
      1 ≤ fn ∧ fn ≤ 11 →
      s.allows p 0x2010 fn v →
      s.modeBad fn v = false →
      fn ≠ 4 →
      s.get (ob 0x2011 fn) ≠ 2 →
      s.get (ob 0x2010 fn) ≠ v →
      (s.touch p).fnBusy fn = false →
      exec (.functionModeWrite p fn v) s = .next (((s.touch p).switchBegin fn v).switchEnd fn v p s.station)) ∧
  (∀ (s : State) (fn : Nat),
      1 ≤ fn ∧ fn ≤ 11 →
      s.get (ob 0x2011 fn) = 2 →
      s.switchReady fn = true →
      exec (.functionSwitchComplete fn) s =
        .next ((s.switchEnd fn (s.cmd (ob 0x2010 fn)).value (s.cmd (ob 0x2010 fn)).path (s.cmd (ob 0x2010 fn)).at_).heldMode fn))

/-- O26. Training commands complete: what each makes of a trunk in its training state. For every state in which the
condition of R77 for the command holds (TrainState, its timer run out, its lanes found), the command answers the
next state that the rule gives: the state entered, the next mode of the attempt list, or Detect again. States in
which the condition fails are left as they are. (R73, R74, R75, R76, R77, R79, R80) -/
def Obligations.TrunkTrainingCommandsComplete : Prop :=
  (∀ (s : State) (t phys : Nat) (inv : Bool) (frame : Bytes),
      s.part.hasTrunk t = true →
      crcGood frame = true →
      phys < 5 →
      1 ≤ s.train t ∧ s.train t ≤ 7 →
      exec (.trainingFrameReceived t phys inv frame) s = .next (s.frame t phys inv frame)) ∧
  (∀ (s : State) (p : Path) (t v : Nat),
      s.part.hasTrunk t = true →
      s.allows p (tkIndex t 0) 1 v →
      exec (.trunkEnableWrite p t v) s = .next (if v = 0 then ((s.touch p).set (tk t 0 1) 0).closeTrunk t
        else
          let s1 := ((s.touch p).set (tk t 0 1) v).updTrunk t fun x => { x with closing := false }
          let s2 := forAll (fun n s => s.tryStart n) s1.liveTunnels s1
          if s2.train t = 9 then s2.heldWrite t else s2.trunkOn t)) ∧
  (∀ (s : State) (t mask : Nat),
      s.part.hasTrunk t = true →
      exec (.trunkSignalDetect t mask) s = .next ((s.updTrunk t fun x => { x with signal := mask % 32 }).advance t)) ∧
  (∀ (s : State) (t : Nat),
      s.part.hasTrunk t = true →
      s.train t = 2 →
      (s.trunk t).done = false →
      s.due (.laneSync t) (msec 10) = true →
      exec (.laneSyncTimeout t) s = .next (s.tryAgain t)) ∧
  (∀ (s : State) (t : Nat),
      s.part.hasTrunk t = true →
      s.train t = 3 →
      (s.trunk t).done = false →
      s.due (.identify t) (msec 10) = true →
      exec (.identifyTimeout t) s = .next (s.toHeld t 4)) ∧
  (∀ (s : State) (t : Nat),
      s.part.hasTrunk t = true →
      s.train t = 4 →
      s.due (.capabilities t) (msec 50) = true →
      exec (.capabilitiesTimeout t) s = .next (s.tryAgain t)) ∧
  (∀ (s : State) (t : Nat),
      s.part.hasTrunk t = true →
      s.train t = 5 →
      s.due (.rateSwitch t) (usec 100) = true →
      ∃ z, exec (.rateSwitchDelayExpired t) s = .next z ∧ (∀ l, l < 5 → (z.lane t l).locked = false) ∧
        (z.trunk t).rate = laneRate (s.tryMode t) ∧ z.timing (.rateSwitch t) = false ∧ z.due (.rateLock t) 0 = true ∧ ∀ k, z.get k = s.get k) ∧
  (∀ (s : State) (t : Nat),
      s.part.hasTrunk t = true →
      s.train t = 5 →
      (s.trunk t).done = false →
      s.due (.rateLock t) (msec 1) = true →
      exec (.rateChangeLockTimeout t) s =
        .next ((s.nextMode t (maskOf ((lanesOf (s.tryMode t)).filter fun l => !(s.lane t l).locked))).advance t)) ∧
  (∀ (s : State) (t : Nat),
      s.part.hasTrunk t = true →
      s.train t = 6 →
      s.hostMode 1 = false →
      exec (.equaliseAdaptationComplete t) s = .next (((s.stop (.equalise t)).setDone t).advance t)) ∧
  (∀ (s : State) (t : Nat),
      s.part.hasTrunk t = true →
      s.train t = 6 →
      (s.trunk t).done = false →
      s.due (.equalise t) (msec 500) = true →
      exec (.equaliseTimeout t) s = .next ((s.nextMode t 0).advance t)) ∧
  (∀ (s : State) (t : Nat),
      s.part.hasTrunk t = true →
      s.train t = 7 →
      s.due (.verify t) (msec 10) = true →
      exec (.verifyWindowEnd t) s = .next (
        if s.enough t (s.tryMode t) (s.lanePasses t (s.tryMode t)) then
          (((s.stop (.verify t)).updTrunk t fun x => { x with passed := true }).setDone t).advance t
        else ((s.stop (.verify t)).nextMode t
          (maskOf ((lanesOf (s.tryMode t)).filter fun l => !s.lanePasses t (s.tryMode t) l))).advance t)) ∧
  (∀ (s : State) (t : Nat),
      s.part.hasTrunk t = true →
      s.train t = 9 →
      s.due (.heldRetry t) (msec (s.get (tk t 0 7))) = true →
      exec (.heldRetryExpired t) s = .next (s.tryAgain t)) ∧
  (∀ (s : State) (t : Nat),
      s.part.hasTrunk t = true →
      s.train t = 6 →
      s.due (.eyeWait t) (sec 10) = true →
      exec (.eyeWaitRepeat t) s = .next ((s.start (.eyeWait t)).ev 0x2060 t 1 (32 + 8 * t + 7)
        (u16 t ++ u32 ((s.clock - (s.trunk t).waitSince) / 1000000000)))) ∧
  (∀ (s : State) (t l : Nat),
      s.part.hasTrunk t = true →
      l < 5 →
      s.trained t = true →
      exec (.laneLockAcquired t l) s = .next ((s.updLane t l fun x => { x with locked := true }).laneBack t l))

/-- O27. Trunk commands complete: codeword groups, lane and trunk loss, retrain, control cells. For every state in
which the rule's condition holds (the trunk is Trained, the block takes the command, the timer has run out), the
command answers the next state the rule gives: counters, lanes, loss, retrain and the command block's commit.
(R65, R68, R70, R77, R78, R80, R81, R86) -/
def Obligations.TrunkServiceCommandsComplete : Prop :=
  (∀ (s : State) (t : Nat) (words : List Codeword) (x : Bool) (m : Option Nat) (stamp idles : Nat),
      s.part.hasTrunk t = true →
      s.train t = 8 →
      s.get (tk t 1 4) ≠ 3 →
      exec (.codewordGroupReceived t words x m stamp idles) s =
        .next (s.groupIn t (s.get (tk t 1 4)) ((lanesOf (s.get (tk t 1 4))).filter (s.erased t (s.get (tk t 1 4)) m.isSome words)) words x m
          stamp idles)) ∧
  (∀ (s : State) (t l cause : Nat),
      s.part.hasTrunk t = true →
      l < 5 →
      s.trained t = true →
      s.get (laneKey t l 3) = 2 →
      exec (.laneSignalLost t l cause) s = .next (((s.updLane t l fun x =>
        { x with locked := x.locked && decide (cause = 3), good := 0, verifyErased := true }).laneLost t l cause).lossCheck t)) ∧
  (∀ (s : State) (t : Nat),
      s.part.hasTrunk t = true →
      s.trained t = true →
      s.due (.marker t) (usec 250) = true →
      exec (.markerTimeout t) s = .next (s.trunkLost t 3)) ∧
  (∀ (s : State) (p : Path) (t : Nat),
      s.part.hasTrunk t = true →
      s.takes p (tkIndex t 0) 1 →
      s.trained t = true →
      (s.trunk t).reqSent = false →
      exec (.trunkRetrain p t) s = .next (((s.touch p).cmdAccept (tkIndex t 0) 1 p).startRetrain t 1)) ∧
  (∀ (s : State) (p : Path) (t : Nat),
      s.part.hasTrunk t = true →
      s.takes p (tkIndex t 0) 2 →
      exec (.trunkClearCounters p t) s =
        .next ((((s.touch p).cmdAccept (tkIndex t 0) 2 p).clear (trunkCounters t)).cmdCommit (tkIndex t 0) 0)) ∧
  (∀ (s : State) (t : Nat),
      s.part.hasTrunk t = true →
      s.trained t = true →
      (s.trunk t).retrain ≠ 0 →
      (s.trunk t).reqSent = false →
      s.drainsOn t = false →
      exec (.retrainRequestSend t) s = .next (s.updTrunk t fun x => { x with reqDue := true })) ∧
  (∀ (s : State) (t : Nat),
      s.part.hasTrunk t = true →
      s.trained t = true →
      (s.trunk t).reqSent = true →
      s.due (.retrainWait t) (usec (s.trunk t).retrainBound) = true →
      exec (.retrainWaitTimeout t) s = .next (s.retry t)) ∧
  (∀ (s : State) (p : Path) (t l pre : Nat),
      s.part.hasTrunk t = true →
      s.takes p (tkIndex t 0x20) 1 →
      s.hostMode 1 = true →
      s.train t = 6 →
      s.get (tk t 0x20 1) = l →
      s.get (tk t 0x20 4) = pre →
      pre ≠ 0 →
      ∃ z, exec (.eyeApplyLane p t) s = .next z ∧ (z.trunk t).eyeLane = l ∧ (z.trunk t).eyePreset = pre ∧
        (z.trunk t).eyePre = stepCode (s.get (tk t 0x20 5)) ∧ (z.trunk t).eyePost = stepCode (s.get (tk t 0x20 6)) ∧
        (z.lane t l).ctle = some (s.get (tk t 0x20 2)) ∧ (z.lane t l).dfe = some (s.get (tk t 0x20 3)) ∧
        z.sent = .training t l (s.trunk t).rate (z.trainingFrame t l) :: s.sent) ∧
  (∀ (s : State) (p : Path) (t : Nat),
      s.part.hasTrunk t = true →
      s.takes p (tkIndex t 0x20) 2 →
      s.hostMode 1 = true →
      s.train t = 6 →
      exec (.eyeFinishEqualise p t) s =
        .next (((((s.touch p).cmdAccept (tkIndex t 0x20) 2 p).setDone t).cmdCommit (tkIndex t 0x20) 0).advance t)) ∧
  (∀ (s : State) (t : Nat) (cell : Bytes),
      s.part.hasTrunk t = true →
      s.trained t = true →
      (s.trunk t).doomed = 0 →
      crcGood cell = true →
      (parseCell cell).tunnel = 0 →
      exec (.controlCellReceived t cell) s = .next (forAll (fun b s => if s.trained t then s.block t b else s)
        (blocksOf (min 14 ((parseCell cell).len / 16)) (parseCell cell).payload) s)) ∧
  (∀ (s : State) (t l stamp : Nat) (skew : Int),
      s.part.hasTrunk t = true →
      l < 4 →
      s.trained t = true →
      s.get (tk t 1 4) = 3 →
      s.get (laneKey t l 3) = 2 →
      16 ≤ (s.lane t l).run + 1 →
      exec (.pcsBlockReceived t l false none stamp skew) s =
        .next ((((s.countSat (laneKey t l 0x0B) 1).updLane t l fun x => { x with run := x.run + 1, verifySync := true }).laneLost t l
          6).lossCheck t)) ∧
  (∀ (s : State) (t : Nat) (cell : Bytes),
      s.part.hasTrunk t = true →
      (s.trunk t).doomed ≠ 0 →
      exec (.controlCellReceived t cell) s = .next (s.updTrunk t fun x => { x with doomed := x.doomed - 1 }))

/-- O28. Tunnel commands complete: cells received, records, negotiation. For every state in which the rule's condition
holds, a tunnel command answers the next state the rule gives: a cell goes on to the checks of R94, a record write
is kept, a tunnel leaves Off or is shut, a drain command shuts it, an offer of a Negotiating tunnel is judged.
(R94, R98, R99, R100, R102, R103, R104) -/
def Obligations.TunnelCommandsComplete : Prop :=
  (∀ (s : State) (t : Nat) (raw : Bytes),
      s.part.hasTrunk t = true →
      s.trained t = true →
      (s.trunk t).doomed = 0 →
      crcGood raw = true →
      (parseCell raw).tunnel ≠ 0 →
      exec (.cellReceived t raw false) s = .next (s.cellIn t (parseCell raw))) ∧
  (∀ (s : State) (t : Nat) (raw : Bytes),
      s.part.hasTrunk t = true →
      s.trained t = true →
      (s.trunk t).doomed = 0 →
      crcGood raw = true →
      (parseCell raw).tunnel ≠ 0 →
      malformed (parseCell raw) = false →
      s.recordOn t (parseCell raw).tunnel = true →
      s.live (parseCell raw).tunnel = true →
      16 ≤ (parseCell raw).tunnel →
      s.transit (parseCell raw).tunnel = true →
      ∃ z, exec (.cellReceived t raw false) s = .next z ∧
        (z.trunk t).held = (s.trunk t).held ++ [{ cell := parseCell raw, since := s.clock }] ∧
        ∀ k, k ≠ tunKey (parseCell raw).tunnel 0x18 → z.get k = s.get k) ∧
  (∀ (s : State) (p : Path) (n : Nat),
      n < 4096 →
      s.allows p (0x3000 + n) 1 1 →
      s.enableBad n = false →
      exec (.tunnelEnable p n) s = .next (((s.touch p).set (tunKey n 1) 1).leaveOff n)) ∧
  (∀ (s : State) (p : Path) (n : Nat),
      n < 4096 →
      s.allows p (0x3000 + n) 1 0 →
      exec (.tunnelDisable p n) s = .next ((((s.touch p).set (tunKey n 1) 0).shut n 0).settle)) ∧
  (∀ (s : State) (p : Path) (n sub v : Nat),
      n < 4096 →
      2 ≤ sub ∧ sub ≤ 0x0B →
      s.allows p (0x3000 + n) sub v →
      (sub = 9 → v &&& kindVersions (s.get (tunKey n 2)) = v ∧ v ≠ 0) →
      (sub = 4 → v < s.part.trunks) →
      s.tstate n ≠ 5 →
      exec (.tunnelRecordWrite p n sub v) s = .next ((s.touch p).set (tunKey n sub) v)) ∧
  (∀ (s : State) (p : Path) (n : Nat),
      n < 4096 →
      4 < n →
      s.takes p (0x3000 + n) 1 →
      s.tstate n ≠ 0 →
      exec (.tunnelDrain p n) s = .next ((((((s.touch p).cmdAccept (0x3000 + n) 1 p).set (tunKey n 1) 0).updTun n
        fun x => { x with commanded := true }).shut n 0).settle)) ∧
  (∀ (s : State) (p : Path) (n : Nat),
      n < 4096 →
      4 < n →
      s.takes p (0x3000 + n) 1 →
      s.tstate n = 0 →
      exec (.tunnelDrain p n) s = .next ((((s.touch p).cmdAccept (0x3000 + n) 1 p).set (tunKey n 1) 0).cmdCommit (0x3000 + n) 1)) ∧
  (∀ (s : State) (p : Path) (n : Nat),
      n < 4096 →
      s.takes p (0x3000 + n) 2 →
      exec (.tunnelClearCounters p n) s = .next ((((s.touch p).cmdAccept (0x3000 + n) 2 p).clear
        (tunKey n 0x14 :: (upTo 13).map fun k => tunKey n (0x17 + k))).cmdCommit (0x3000 + n) 0)) ∧
  (∀ (s : State) (t n : Nat) (msg : Bytes),
      s.part.hasTrunk t = true →
      16 ≤ n ∧ n < 4096 →
      s.recordOn t n = true →
      s.transit n = false →
      s.trained t = true →
      s.tstate n = 2 →
      exec (.offerReceived t n msg) s = .next (s.offerIn n msg)) ∧
  (∀ (s : State) (n : Nat),
      n < 4096 →
      s.tstate n = 2 →
      s.due (.offer n) (msec 10) = true →
      ((s.start (.offer n)).sendOffer n 0).due (.offerWait n) (sec 10) = false →
      exec (.negotiationRepeat n) s = .next ((s.start (.offer n)).sendOffer n 0)) ∧
  (∀ (s : State) (t : Nat) (raw : Bytes) (bad : Bool),
      s.part.hasTrunk t = true →
      (s.trunk t).doomed ≠ 0 →
      exec (.cellReceived t raw bad) s = .next (s.updTrunk t fun x => { x with doomed := x.doomed - 1 }))

/-- O29. Tunnel commands complete: Close, drains, key changes, twin sides. For every state in which the rule's
condition holds, Close received or due, a drain's bound, a key-ready message or its repetition, the end of an old
key and a lagging side answer the next state the rule gives. (R113, R116, R118, R119) -/
def Obligations.TunnelDrainAndKeyCommandsComplete : Prop :=
  (∀ (s : State) (n : Nat),
      16 ≤ n ∧ n < 4096 →
      s.transit n = false →
      s.tstate n = 3 →
      exec (.closeReceived n) s = .next ((s.drain n 0 true).settle)) ∧
  (∀ (s : State) (n : Nat),
      16 ≤ n ∧ n < 4096 →
      s.transit n = false →
      s.tstate n = 4 →
      exec (.closeReceived n) s = .next (((s.updTun n fun x => { x with closeGot := true }).drainCheck n).settle)) ∧
  (∀ (s : State) (n : Nat),
      n < 4096 →
      s.tstate n = 4 →
      s.transit n = false →
      (s.tun n).closeQueued = false →
      s.queuedOut n = false →
      exec (.closeSend n) s = .next ((s.updTun n fun x => { x with closeQueued := true }).sendClose n)) ∧
  (∀ (s z : State) (n : Nat),
      n < 4096 →
      s.tstate n = 4 →
      s.due (.drain n) (usec (s.get (tunKey n 0x0D))) = true →
      z = (s.drainDiscard n).tunEv 0x3040 2 4 n (u32 (((s.drainDiscard n).tun n).discards - (s.tun n).discards) ++
        u32 ((s.drainDiscard n).get (tunKey n 0x0D))) →
      exec (.drainBoundExpired n) s = 
        .next (((if z.transit n = true ∨ (z.tun n).closeSent = true then z else z.lateClose n).drainDone n).settle)) ∧
  (∀ (s : State) (n slot : Nat),
      n < 4096 →
      s.tstate n = 3 ∨ s.tstate n = 4 →
      exec (.keyReadyReceived n slot) s = .next ((s.updTun n fun x => { x with farReady := slot }).mayMove n slot)) ∧
  (∀ (s : State) (p : Path) (n v : Nat),
      n < 4096 →
      s.allows p (0x3000 + n) 0x0C v →
      exec (.keySlotNextWrite p n v) s = .next ((s.touch p).keyNext n v)) ∧
  (∀ (s : State) (n : Nat),
      n < 4096 →
      s.due (.keyReady n) (msec 1) = true →
      s.tstate n = 3 →
      s.tcfg n 0x0A = 1 →
      s.get (tunKey n 0x0C) ≠ 0 →
      s.tunnelKey (s.get (tunKey n 0x0C)) = true →
      exec (.keyReadyRepeat n) s = .next ((s.sendKeyReady n (s.get (tunKey n 0x0C))).start (.keyReady n))) ∧
  (∀ (s : State) (n : Nat),
      n < 4096 →
      s.due (.oldKey n) (usec (s.get (tunKey n 0x0D))) = true →
      exec (.oldKeyAcceptExpired n) s = .next ((s.stop (.oldKey n)).updTun n fun x => { x with oldSlot := 0 })) ∧
  (∀ (s : State) (n k : Nat),
      n < 4096 →
      k < 2 →
      s.live n = true →
      s.sided n = true →
      ((s.tun n).side k).cond = 2 →
      ((s.tun n).side k).advanced + 125000 ≤ s.clock →
      ((s.tun n).side k).advanced < ((s.tun n).side (1 - k)).advanced →
      exec (.twinLagTimeout n k) s = .next (s.setCond n k 3 2))

/-- O30. Fabric commands complete: cells that arrive and leave, bounds, ageing. For every state in which the rule's
condition holds, a fabric command answers the next state the rule gives: a waiting cell is stored or goes on
waiting, a serialiser takes its cell, and what has stood past its bound is discarded and counted. (R125, R129,
R131, R136, R138, R140, R141, R142) -/
def Obligations.FabricCommandsComplete : Prop :=
  (∀ (s : State) (fp cls : Nat) (h : Held) (kept : List Held),
      fp < 4 →
      s.part.hasFabricPort fp = true →
      cls < 8 →
      s.granted fp = true →
      s.classClaims fp cls = true →
      takeHeld cls (s.trunk fp).held = some (h, kept) →
      s.fromTunnel fp h.cell = [] →
      h.offered = true →
      exec (.fabricCellArrival fp cls) s = .next ((((s.updFabric fun x => { x with grant := fp }).count (portKey fp 0x12) 1).updTrunk fp
        fun x => { x with held := kept }).giveCredit fp cls)) ∧
  (∀ (s y z : State) (fp cls : Nat) (h : Held) (kept : List Held) (d : Dest) (r : List Dest),
      fp < 4 →
      s.part.hasFabricPort fp = true →
      cls < 8 →
      s.granted fp = true →
      s.classClaims fp cls = true →
      y = s.updFabric (fun x => { x with grant := fp }) →
      takeHeld cls (y.trunk fp).held = some (h, kept) →
      y.fromTunnel fp h.cell = d :: r →
      h.offered = true →
      y.fits (d :: r) = true →
      z = ((y.store (d :: r) h.cell).updTrunk fp (fun x => { x with held := kept })).giveCredit fp cls →
      exec (.fabricCellArrival fp cls) s = .next (if y.learnsFrom h.cell.tunnel
        then z.learnAt h.cell.tunnel 0 h.cell.tunnel d.p (y.taken (d :: r)) h.cell else z)) ∧
  (∀ (s y : State) (fp cls : Nat) (h : Held) (kept : List Held),
      4 ≤ fp ∧ fp < 18 →
      s.part.hasFabricPort fp = true →
      cls < 8 →
      s.granted fp = true →
      s.classClaims fp cls = true →
      y = s.updFabric (fun x => { x with grant := fp }) →
      takeHeld cls (y.waitsAt fp) = some (h, kept) →
      h.cell.tunnel ≠ 0 →
      fp ≠ 14 →
      h.offered = true →
      y.destsNow h ≠ [] →
      (∀ d ∈ y.destsNow h, d.p < 20) →
      y.fits (y.destsNow h) = true →
      exec (.fabricCellArrival fp cls) s = .next ((y.store (y.destsNow h) h.cell).leaves fp kept)) ∧
  (∀ (s y : State) (fp cls : Nat) (ready : Bool) (d : Desc) (kept : List Desc),
      12 ≤ fp →
      s.part.hasFabricPort fp = true →
      s.portOn fp = true →
      cls < 8 →
      (s.queue (qOf fp cls)).descs = d :: kept →
      s.mayDeliver fp d.flow ready = true →
      y = (if fp = 14 then (s.release fp cls [d] kept).writerTakes d.cell else s.release fp cls [d] kept) →
      exec (.egressSerialise fp cls 0 ⟨0, ready, none⟩) s = .next ((y.count (portKey fp 0x0A) 1).send (.deliver fp d.cell))) ∧
  (∀ (s : State) (fp cls ecc : Nat) (x : Serving),
      4 ≤ fp →
      s.part.hasFabricPort fp = true →
      cls < 8 →
      s.portOn fp = false →
      exec (.egressSerialise fp cls ecc x) s = .next s) ∧
  (∀ (s : State) (fp cls : Nat),
      s.part.hasFabricPort fp = true →
      cls < 8 →
      (s.queue (qOf fp cls)).descs = [] →
      (s.queue (qOf fp cls)).avgAt + 1024 ≤ s.clock →
      exec (.redAverageIdleUpdate fp cls) s =
        .next ((s.updQueue (qOf fp cls) fun x => { x with avgAt := x.avgAt + 1024 }).average fp cls)) ∧
  (∀ (s : State) (fp cls : Nat),
      s.part.hasFabricPort fp = true →
      cls < 8 →
      s.stalled fp cls = true →
      s.drainsDue (qOf fp cls) = [] →
      ∃ z y, exec (.stallBoundExpired fp cls) s = .next z ∧
        y = ((((s.release fp cls (s.queue (qOf fp cls)).descs []).updQueue (qOf fp cls) fun x => { x with opens := [] }).count
          (portKey fp 0x0E) (s.queue (qOf fp cls)).descs.length).count (portKey fp 0x0F) 1) ∧
        z = y.fabricEv 0x4001 2 0 fp (u16 cls) [(s.queue (qOf fp cls)).descs.length] (u32 (y.get (ob (0x2510 + fp) 0x19)))) ∧
  (∀ (s : State) (t : Nat),
      s.part.hasTrunk t = true →
      (s.trunk t).held.all (fun h => !s.overHeld t h) = false →
      ∃ z, exec (.holdBoundExpired t) s = .next z ∧ (z.trunk t).held = (s.trunk t).held.filter fun h => !s.overHeld t h) ∧
  (∀ (s : State) (fp cls flow : Nat),
      4 ≤ fp →
      s.part.hasFabricPort fp = true →
      cls < 8 →
      Sparse.get 0 (s.queue (qOf fp cls)).opens flow ≠ 0 →
      Sparse.get 0 (s.queue (qOf fp cls)).opens flow - 1 + usec (s.get (ob (0x2510 + fp) 0x19)) ≤ s.clock →
      exec (.openUnitTimeout fp cls flow) s = .next ((s.dropUnit fp cls flow).setUnit (qOf fp cls) flow 5)) ∧
  (∀ (s : State) (e : Nat),
      e < 16384 →
      (s.l2 e).valid = true →
      (s.l2 e).fixed = false →
      (s.l2 e).seen + sec (s.get (ob 0x2501 1)) ≤ s.clock →
      exec (.l2EntryAged e) s = .next (s.setL2 e {}))

/-- O31. The commands of L2Entry and FabricStatus complete. Where the block of 0x2502 or 0x2500 takes the command, the
window shows, writes, deletes or flushes the entries of the Layer-2 table and the command commits, or fails with
the Result that R147 gives when no entry matches; command 1 of FabricStatus clears its counters. (R56, R144, R146,
R147) -/
def Obligations.Layer2WindowCommandsComplete : Prop :=
  (∀ (s : State) (p : Path) (k : Nat),
      s.takes p 0x2502 1 →
      ((s.touch p).cmdAccept 0x2502 1 p).windowSlot = some k →
      exec (.l2ReadMatch p) s = .next ((((s.touch p).cmdAccept 0x2502 1 p).showL2 (((s.touch p).cmdAccept 0x2502 1 p).l2 k)).cmdCommit 0x2502 0)) ∧
  (∀ (s : State) (p : Path),
      s.takes p 0x2502 1 →
      ((s.touch p).cmdAccept 0x2502 1 p).windowSlot = none →
      exec (.l2ReadMatch p) s = .next (((s.touch p).cmdAccept 0x2502 1 p).cmdFail 0x2502 1)) ∧
  (∀ (s : State) (p : Path),
      s.takes p 0x2502 2 →
      ∃ z, exec (.l2ReadSlot p) s = .next z ∧ z.get (ob 0x2502 2) = (s.l2 (s.get (ob 0x2502 1))).mac ∧
        z.get (ob 0x2502 3) = (s.l2 (s.get (ob 0x2502 1))).vlan ∧ z.get (ob 0x2502 4) = (s.l2 (s.get (ob 0x2502 1))).ports ∧
        z.get (ob 0x2502 5) = (s.l2 (s.get (ob 0x2502 1))).tunnel ∧ z.get (ob 0x2502 8) = ofBool (s.l2 (s.get (ob 0x2502 1))).valid ∧
        z.cmdStatus 0x2502 = 2 ∧ z.get (ob 0x2502 0xF3) = 0 ∧
        ∀ k, k / 256 ≠ 0x2502 → z.get k = s.get k) ∧
  (∀ (s a : State) (p : Path) (k : Nat),
      s.takes p 0x2502 3 →
      a = (s.touch p).cmdAccept 0x2502 3 p →
      a.writeWay (a.get (ob 0x2502 2)) (a.get (ob 0x2502 3)) = some k →
      exec (.l2WriteEntry p) s = .next ((a.setL2 k
        { valid := true, mac := a.get (ob 0x2502 2), vlan := a.get (ob 0x2502 3), ports := a.get (ob 0x2502 4),
          tunnel := a.get (ob 0x2502 5), fixed := a.hostMode 2 || decide (a.get (ob 0x2502 6) = 1), seen := a.clock, written := a.clock + 1 }).cmdCommit 0x2502 0)) ∧
  (∀ (s a : State) (p : Path) (k : Nat),
      s.takes p 0x2502 4 →
      a = (s.touch p).cmdAccept 0x2502 4 p →
      a.windowSlot = some k →
      exec (.l2DeleteEntry p) s = .next ((a.setL2 k {}).cmdCommit 0x2502 0)) ∧
  (∀ (s : State) (p : Path),
      s.takes p 0x2502 5 →
      exec (.l2FlushLearnt p) s = .next ((((s.touch p).cmdAccept 0x2502 5 p).flushLearnt).cmdCommit 0x2502 0)) ∧
  (∀ (s : State) (p : Path),
      s.takes p 0x2500 1 →
      exec (.fabricClearCounters p) s = .next ((((s.touch p).cmdAccept 0x2500 1 p).clear
        (([6, 7, 8, 9].map fun k => ob 0x2500 k) ++ (upTo 20).flatMap fun p => (upTo 15).map fun k => portKey p (9 + k))).cmdCommit 0x2500 0))

/-- O32. Scheduler commands complete: cycles, cell times, table switches, carve. A due cycle starts, a cell time of a
trained trunk is spent on the place at the head of its cycle, a checked table is announced for a switch, a lasting
version mismatch is journalled, and at an epoch start carve runs. (R150, R151, R153, R155, R156, R165) -/
def Obligations.SchedulerCommandsComplete : Prop :=
  (∀ (s a : State) (t : Nat),
      s.part.hasTrunk t = true →
      s.cycleDue t = true →
      a = ((s.followTime t).startCycle t).markCycle t →
      exec (.schedCycleStart t) s = .next (((a.pushCycle t).flushRecords t).watchCycle t)) ∧
  (∀ (s : State) (t ecc k len : Nat) (r : List (Nat × Nat)),
      s.part.hasTrunk t = true →
      s.trained t = true →
      (s.sched t).places = (k, len) :: r →
      1 < len →
      1 ≤ k ∧ k ≤ 3 →
      exec (.schedCellTime t ecc) s = .next ((s.updSched t fun x => { x with places := (k, len - 1) :: r }).bestEffortTime t ecc true false |>.retrainCheck t)) ∧
  (∀ (s : State) (t ecc len : Nat) (r : List (Nat × Nat)),
      s.part.hasTrunk t = true →
      s.trained t = true →
      (s.sched t).places = (0, len) :: r →
      exec (.schedCellTime t ecc) s = .next ((s.updSched t fun x => { x with places := if len ≤ 1 then r else (0, len - 1) :: r }).sendControlCell t |>.retrainCheck t)) ∧
  (∀ (s a : State) (p : Path) (t : Nat),
      s.part.hasTrunk t = true →
      s.takes p (0x2610 + t) 1 →
      a = (s.touch p).cmdAccept (0x2610 + t) 1 p →
      a.ownsSchedule t = true →
      tableRule (a.table (0x2610 + t)) = 0 →
      a.trained t = false →
      exec (.gateTableSwitch p t) s = .next (a.updSched t fun y => { y with switch := 0, next := a.table (0x2610 + t) })) ∧
  (∀ (s a : State) (p : Path) (t : Nat),
      s.part.hasTrunk t = true →
      s.takes p (0x2610 + t) 1 →
      a = (s.touch p).cmdAccept (0x2610 + t) 1 p →
      a.ownsSchedule t = true →
      tableRule (a.table (0x2610 + t)) = 0 →
      a.trained t = true →
      ∃ z x, exec (.gateTableSwitch p t) s = .next z ∧
        x = (if ((s.trunk t).cycle + s.get (ob (0x2610 + t) 0x41) + 7) / 8 * 8 % 2 ^ 32 = 0 then 8
          else ((s.trunk t).cycle + s.get (ob (0x2610 + t) 0x41) + 7) / 8 * 8 % 2 ^ 32) ∧
        (z.sched t).switch = x ∧ (z.sched t).next = a.table (0x2610 + t) ∧ z.get (ob (0x2618 + t) 4) = x ∧
        z.cmdStatus (0x2610 + t) = 1) ∧
  (∀ (s : State) (t : Nat),
      s.part.hasTrunk t = true →
      s.trained t = true →
      8 < (s.sched t).mismatch →
      s.get (ob (0x2618 + t) 0x0F) = 1 →
      exec (.schedVersionMismatch t) s = .next ((s.set (ob (0x2618 + t) 0x0F) 0).evRate 0x5010 t 2 73 (sec 1)
        (u16 t ++ (u32 (tableVersion (s.table (0x2614 + t))) ++ u32 (s.get (ob (0x2618 + t) 3)))) [] [])) ∧
  (∀ (s : State) (t : Nat),
      s.part.hasTrunk t = true →
      s.trained t = true →
      (s.sched t).epoch = true →
      exec (.carveEpoch t) s = .next (s.carve t))

/-- O33. The commands of a display output complete, from its enable to its latch. For every state in which the rule's
condition holds, a display output takes the state of R179 that its enable, its HPD, its link and its clock give
it, a front-porch line that ends latches the frame or is added to it, a layer without a pixel is blanked and
counted, and command 1 of OutputStatus clears its counters. (R177, R178, R179, R181, R189, R190, R191, R192, R194) -/
def Obligations.DisplayOutputCommandsComplete : Prop :=
  (∀ (s : State) (p : Path) (d : Nat),
      s.part.hasOutput d = true →
      s.allows p (0x2800 + d) 1 1 →
      s.outTimingBad d = false →
      s.budgetBad (outCfg d 1) 1 = false →
      exec (.outputEnable p d) s = .next (((s.touch p).set (outCfg d 1) 1).outStart d)) ∧
  (∀ (s : State) (p : Path) (d : Nat),
      s.part.hasOutput d = true →
      s.allows p (0x2800 + d) 1 0 →
      exec (.outputDisable p d) s = .next (((s.touch p).set (outCfg d 1) 0).outOff d)) ∧
  (∀ (s : State) (d : Nat),
      d < 2 →
      s.part.hasOutput d = true →
      s.outState d ≠ 3 →
      exec (.hpdAsserted d) s = .next ((s.stop (.hpdLow d)).updDisp d fun x => { x with hpd := true })) ∧
  (∀ (s : State) (d : Nat),
      d < 2 →
      s.part.hasOutput d = true →
      s.outState d = 1 ∨ s.outState d = 2 →
      exec (.hpdDeasserted d) s = .next ((s.updDisp d fun x => { x with hpd := false }).start (.hpdLow d))) ∧
  (∀ (s : State) (d : Nat),
      d < 2 →
      s.part.hasOutput d = true →
      (s.outState d = 2 ∧ s.due (.hpdLow d) (msec 2) = true) ∨ (s.outState d = 1 ∧ s.due (.hpdLow d) (msec 100) = true) →
      exec (.hpdLowTimeout d) s = .next (s.outDown d 1)) ∧
  (∀ (s : State) (d : Nat) (goods : List (Nat × Nat)),
      d < 2 →
      s.part.hasOutput d = true →
      s.outState d = 2 →
      exec (.irqHpd d true goods) s = .next (s.send (.dpAux d 0x202 6)) ∧
        (s.dpLink d goods = none → exec (.irqHpd d false goods) s = .next ((s.send (.dpAux d 0x202 6)).outDown d 2)) ∧
        (∀ rate lanes, s.dpLink d goods = some (rate, lanes) → exec (.irqHpd d false goods) s = .next (if s.dpCarries d rate lanes
          then (s.send (.dpAux d 0x202 6)).linkRuns d rate lanes
          else (s.send (.dpAux d 0x202 6)).outDown d 3))) ∧
  (∀ (s x : State) (d rate lanes sinkRate sinkLanes cap : Nat) (goods : List (Nat × Nat)) (edid : Bytes),
      d < 2 →
      s.part.hasOutput d = true →
      s.outState d = 1 →
      (s.disp d).hpd = true →
      x = ((s.stop (.hpdLow d)).updDisp d fun x => { x with adapt := cap, sinkRate, sinkLanes }).setAll
          [(outStat d 0x12, ofBool (cap.testBit 6)), (outStat d 0x14, leNat (fitBytes 256 edid))] →
      x.dpLink d goods = some (rate, lanes) →
      x.dpCarries d rate lanes = true →
      ∃ y z, exec (.dpLinkTrainingDone d sinkRate sinkLanes cap goods edid) s = .next z ∧
        y = ((x.setAll [(outStat d 1, 2), (outStat d 2, 0), (outStat d 0x13, 0)]).linkRuns d rate lanes).glideActive d ∧
        z = (y.noGlide d).outEv d 0x6001 0 0 (u16 rate ++ u16 lanes ++ u16 (y.get (outStat d 0x13)))) ∧
  (∀ (s : State) (d : Nat),
      2 ≤ d →
      s.part.hasOutput d = true →
      s.outState d = 1 →
      ∃ y, y = (s.set (outStat d 1) 2).glideActive d ∧
        exec (.lvdsClockStable d) s = .next (y.outEv d 0x6001 0 0 (u16 0 ++ u16 0 ++ u16 (y.get (outStat d 0x13))))) ∧
  (∀ (s : State) (d : Nat),
      s.part.hasOutput d = true →
      s.outState d ≠ 0 →
      (s.disp d).porch = true →
      s.outTunnel d = none →
      (s.disp d).plan ≤ (s.disp d).line + 1 →
      s.get (outCfg d 0x0E) = 0 →
      exec (.frontPorchLineEnd d) s = .next ((s.updDisp d fun x => { x with line := x.line + 1 }).latch d false)) ∧
  (∀ (s : State) (lay x y n : Nat),
      lay < 16 →
      s.part.hasOutput (lay / 4) = true →
      s.outState (lay / 4) ≠ 0 →
      (s.disp (lay / 4)).porch = false →
      (s.disp (lay / 4)).blanked.testBit (lay % 4) = false →
      x < s.timing_ (lay / 4) 3 →
      y < s.timing_ (lay / 4) 7 →
      s.layerAt (lay / 4) (lay % 4) x y ≠ none →
      n = s.pixelsFrom (lay / 4) (lay % 4) x y →
      ∃ z, z = (((s.updDisp (lay / 4) fun w => { w with blanked := setBit w.blanked (lay % 4), blankAt := Sparse.put 0 (lay % 4) (y * 65536 + x) w.blankAt }).count
          (layStat lay 4) 1).count (layStat lay 5) n).set (layStat lay 6) s.station ∧
        exec (.layerUnderrun lay ⟨x, y⟩) s = .next (z.evRate 0x6030 lay 3 (112 + lay) (sec 1) (u16 lay) [1, n] [])) ∧
  (∀ (s : State) (p : Path) (d : Nat),
      s.part.hasOutput d = true →
      s.takes p (0x2804 + d) 1 →
      exec (.outputClearCounters p d) s = .next ((((s.touch p).cmdAccept (0x2804 + d) 1 p).clear
        (outStat d 0x15 :: (upTo 9).map fun k => outStat d (7 + k))).cmdCommit (0x2804 + d) 0))

/-- O34. The commands of regions, receipts and display cells complete. For every state in which the rule's condition
holds, a completed signature is recorded and judged by the region's mode, FreezeTime without a completion freezes
the region, the end of the active area opens the porch and sends the receipt, a cell of a display tunnel is placed
by its sequence, and IntegrityControl and ExpectedSignature take their writes. (R185, R199, R202, R203, R205,
R208, R210, R213) -/
def Obligations.DisplayRegionCommandsComplete : Prop :=
  (∀ (s : State) (n d : Nat) (c : Cell),
      n < 4096 →
      s.outputOf n = some d →
      s.live n = true →
      s.domainOn 8 = true →
      c.kind ≠ 1 →
      exec (.displayCellReceived n c) s = .next ((s.displayCell n d (extend c.seq (s.tun n).h) c).judgeFlips d)) ∧
  (∀ (s : State) (d reg : Nat),
      s.part.hasOutput d = true →
      reg < 8 →
      s.pendingRegion d reg = true →
      (∀ r, r < reg → s.pendingRegion d r = true → s.lastLine d r ≠ s.lastLine d reg) →
      ∃ y, y = (s.updRegion d reg (fun x => { x with changed := decide (x.seen ∧ s.get (regStat d reg 2) ≠ s.signature d reg), seen := true, frame := some (s.get (outStat d 3)) })).setAll
          [(regStat d reg 2, s.signature d reg), (regStat d reg 3, s.get (outStat d 3))] ∧
        exec (.signatureCompletion d reg) s = .next (if (y.region d reg).mode = 1
          then y.heartbeat d reg (s.get (regStat d reg 2)) (s.signature d reg) else y.mustMatch d reg (s.signature d reg))) ∧
  (∀ (s : State) (d reg : Nat),
      s.part.hasOutput d = true →
      reg < 8 →
      s.outState d ≠ 0 →
      (s.region d reg).mode ≠ 0 →
      (s.disp d).rearm = false →
      s.get (regStat d reg 1) = 2 ∨ s.get (regStat d reg 1) = 4 →
      (s.pendingRegion d reg = true → s.scanLine d ≠ some (s.lastLine d reg)) →
      s.get (regStat d reg 6) + msec (s.get (integ d 2)) ≤ s.station →
      exec (.freezeTimeExpired d reg) s = .next (s.frozen_ d reg 2)) ∧
  (∀ (s : State) (d n : Nat),
      s.part.hasOutput d = true →
      s.outState d ≠ 0 →
      (s.disp d).porch = false →
      s.outTunnel d = some n →
      (s.disp d).flips = [] ∧ (s.disp d).early = [] →
      s.get (tunKey n 0x12) = 2 →
      s.get (integ d 4) = 1 →
      (s.disp d).freed = [] →
      ∃ y, y = ((if s.outState d ≠ 2 then s else if 2 ≤ d then s.send (.lvds d (s.lvdsFrame d))
            else s.send (.rgb d (s.timing_ d 0x0F) (s.rgbFrame d))).updDisp d (fun x => { x with porch := true, line := 0 })).updDisp d
          (fun x => { x with freed := [] }) ∧
        exec (.activeAreaEnd d) s = .next ((y.count (integ d 5) 1).unitOut 14 n false (y.receipt d))) ∧
  (∀ (s : State) (p : Path) (d : Nat),
      s.part.hasOutput d = true →
      s.takes p (0x2860 + d) 1 →
      exec (.integrityClear p d) s = .next ((((s.touch p).cmdAccept (0x2860 + d) 1 p).clear
        ([integ d 6, integ d 7] ++ (upTo 8).flatMap fun r => [regStat d r 7, regStat d r 8, regStat d r 9])).cmdCommit (0x2860 + d) 0)) ∧
  (∀ (s : State) (p : Path) (d reg x : Nat),
      s.part.hasOutput d = true →
      reg < 8 →
      s.allows p (0x2820 + 8 * d + reg) 6 x →
      exec (.expectedSignatureWrite p d reg x) s = 
        .next (((s.touch p).setAll [(regCfg d reg 6, x), (regCfg d reg 9, 0)]).updRegion d reg fun w => { w with direct := true })) ∧
  (∀ (s : State) (d : Nat),
      s.part.hasOutput d = true →
      2 ≤ d →
      s.outState d = 2 →
      (s.disp d).porch = false →
      exec (.activeAreaEnd d) s = .next (((((s.send (.lvds d (s.lvdsFrame d))).judgeFlips d).updDisp d
        fun x => { x with porch := true, line := 0 }).sendReceipt d)))

/-- O35. The commands of the USB hub function complete: requests, transactions and bus commands. For every state in
which the rule's condition holds, the hub function takes a request unit, starts and ends a transaction on a port's
wire, returns a NAK whose time has passed, obeys the three bus commands, and follows what happens on a port's
wire: attach, detach, chirp, reset, resume and remote wake. (R216, R219, R221, R222, R223, R224, R226, R227) -/
def Obligations.UsbHubFunctionCommandsComplete : Prop :=
  (∀ (s : State) (n : Nat) (unit : Bytes) (r : UsbReq),
      n < 4096 →
      s.ofHub n = true →
      byteAt unit 0 = 1 →
      r = { tunnel := n, hdr := fitBytes 16 unit, data := unit.drop 16, order := s.usb.order } →
      r.malformed (decide (s.tcfg n 8 = 1)) = false →
      r.port ≠ 0 →
      exec (.usbRequestUnit n unit 0) s = .next (({ s with usb := { s.usb with order := s.usb.order + 1 } }).takeRequest (r.port - 1) r)) ∧
  (∀ (s : State),
      s.domainOn 12 = true →
      s.usb.micro ≠ s.station / 125000 →
      exec .microframeStart s = .next (forAll (fun u s => s.microPort u) s.usbPorts { s with usb := { s.usb with micro := s.station / 125000 } })) ∧
  (∀ (s : State) (u dur : Nat) (r : UsbReq) (rest : List UsbReq),
      s.part.hasUsb u = true →
      (s.uport u).asyncQ = r :: rest →
      s.domainOn 12 = true →
      s.pstate u = 4 →
      s.usb.suspended = false →
      (s.uport u).active = none →
      (s.uport u).next = 0 →
      (s.uport u).perQ.any s.isNow = false →
      s.station % (if r.speed = 0 then 125000 else 1000000) + dur ≤ (if r.speed = 0 then 125000 else 1000000) →
      exec (.usbTransactionStart u dur) s = .next ((s.updUport u fun x => { x with asyncQ := rest }).toWire u r)) ∧
  (∀ (s : State) (u res pid : Nat) (data : Bytes) (r : UsbReq),
      s.part.hasUsb u = true →
      (s.uport u).active = some r →
      res = 0 ∨ res = 2 ∨ res = 3 →
      exec (.usbTransactionEnd u res pid data) s = .next (((s.updUport u fun x => { x with active := none }).executed u r res pid
          ((data.take r.len).take (if r.token = 3 then 1024 else 0))).wireFree u)) ∧
  (∀ (s : State) (u : Nat) (r : UsbReq) (rest : List UsbReq),
      s.part.hasUsb u = true →
      (s.uport u).asyncQ = r :: rest →
      s.domainOn 12 = true →
      r.naked = true →
      s.nakAgain r = false →
      exec (.nakRetryExpired u) s = .next ((s.updUport u fun x => { x with asyncQ := rest }).executed u r 1 0 [])) ∧
  (∀ (s : State) (n : Nat),
      n < 4096 →
      s.ofHub n = true →
      s.tcfg n 8 = 0 →
      s.rawUsb = false →
      ∃ x y, x = (((forAll (fun u s => s.portPowerOff u 10 2) s.usbPorts s).hubDefault.stop .hubResume).count (usbStat 9) 1) ∧
        y = { x with usb := { x.usb with ganged := decide (x.get (ob 0x2A00 4) = 1) } } ∧
        exec (.busCommandReset n) s = .next ((y.showHub.busNote 1).busEvent n 1)) ∧
  (∀ (s : State) (n : Nat),
      n < 4096 →
      s.ofHub n = true →
      s.tcfg n 8 = 0 →
      s.rawUsb = false →
      exec (.busCommandSuspend n) s = .next (((forAll (fun u s => s.discard u 7 0) s.hubSuspend.usbPorts s.hubSuspend).showHub.busNote 2).busEvent n 2)) ∧
  (∀ (s : State) (n : Nat),
      n < 4096 →
      s.ofHub n = true →
      s.tcfg n 8 = 0 →
      s.rawUsb = false →
      s.usb.suspended = true →
      s.usb.resuming = false →
      exec (.busCommandResume n (s.get (usbStat 3))) s = .next ((s.busNote 3).hubResume)) ∧
  (∀ (s : State) (n sn : Nat),
      n < 4096 →
      s.ofHub n = true →
      s.tcfg n 8 = 0 →
      s.rawUsb = false →
      s.usb.suspended = false ∨ sn ≠ s.get (usbStat 3) →
      exec (.busCommandResume n sn) s = .next ((s.busNote 3).count (usbStat 0x0A) 1)) ∧
  (∀ (s y : State) (n : Nat),
      s.usb.resuming = true →
      s.due .hubResume (msec 20) = true →
      y = ({ s.stop .hubResume with usb := { s.usb with suspended := false, resuming := false } } : State).showHub →
      y.hubTunnel = some n →
      exec .resumeKEnd s = .next ((y.busEvent n 3).raise 136)) ∧
  (∀ (s : State) (u : Nat) (slow : Bool),
      s.portOk u = true →
      s.pstate u = 1 →
      (s.get (usbPort u 3)).testBit 8 = true →
      exec (.dspDeviceAttach u slow) s = .next ((((s.updUport u fun x => { x with slow }).pgo u 2).set (usbPort u 0x0D) s.station).cbit u 0)) ∧
  (∀ (s : State) (u : Nat),
      s.portOk u = true →
      2 ≤ s.pstate u →
      exec (.dspDeviceDetach u) s = .next (((s.pgo u 1).discard u 7 0).cbit u 0)) ∧
  (∀ (s : State) (u len : Nat),
      s.portOk u = true →
      s.pstate u = 3 →
      2500 ≤ len →
      s.due (.usbReset u) 7000001 = false →
      exec (.deviceChirpDetected u len) s = .next ((s.updUport u fun x => { x with chirped := true }).send (.usbDrive u 2))) ∧
  (∀ (s : State) (u : Nat),
      s.portOk u = true →
      s.pstate u = 3 →
      s.due (.usbReset u) (msec (s.get (ob 0x2A00 6))) = true →
      exec (.portResetEnd u) s = .next ((((s.set (usbPort u 2) (if (s.uport u).chirped then 1 else if (s.uport u).slow then 3 else 2)).pgo u
          4).pbit u 10 (s.uport u).chirped).cbit u 4)) ∧
  (∀ (s : State) (u : Nat),
      s.portOk u = true →
      s.pstate u = 5 →
      exec (.dspDeviceK u) s = .next (((s.noteWake u).count (usbPort u 0x0B) 1).portResume u)) ∧
  (∀ (s : State) (u : Nat),
      s.portOk u = true →
      s.pstate u = 6 →
      s.due (.usbResume u) (msec 20) = true →
      exec (.portResumingEnd u) s = .next ((((s.pgo u 4).set (usbPort u 2) (s.get (usbPort u 2))).pbit u 10 (decide (s.get (usbPort u 2) = 1))).cbit u 2))

/-- O36. The hub class and standard requests of the hub function complete. While the hub function has its tunnel, runs
and is not in raw port control, each request of R216 completes with the effect that R215, R216, R223, R226, R228
and R229 give it. (R215, R216, R223, R225, R226, R228, R229) -/
def Obligations.UsbClassRequestsComplete : Prop :=
  (∀ (s : State) (u : Nat),
      s.classOk u = true →
      exec (.setPortPower u) s = .next (forAll (fun v s => s.portPowerOn v) (s.gang u) s)) ∧
  (∀ (s : State) (u : Nat),
      s.classOk u = true →
      exec (.clearPortPower u) s = .next (forAll (fun v s => s.portPowerOff v 7 0) (s.gang u) s)) ∧
  (∀ (s : State) (u : Nat),
      s.classOk u = true →
      s.pstate u = 2 ∨ s.pstate u = 4 →
      (s.uport u).active = none →
      exec (.setPortReset u) s = .next (s.portReset u)) ∧
  (∀ (s : State) (u : Nat),
      s.classOk u = true →
      s.pstate u = 4 →
      (s.uport u).active = none →
      exec (.setPortSuspend u) s = .next (s.portSuspend u)) ∧
  (∀ (s : State) (u : Nat),
      s.classOk u = true →
      s.pstate u = 5 →
      exec (.clearPortSuspend u) s = .next (s.portResume u)) ∧
  (∀ (s : State) (u : Nat),
      s.classOk u = true →
      4 ≤ s.pstate u →
      exec (.clearPortEnable u) s = .next (s.portDisable u true)) ∧
  (∀ (s : State) (u n : Nat),
      s.classOk u = true →
      testKnown n = true →
      exec (.setPortTest u n) s = .next (s.portTest u n)) ∧
  (∀ (s : State) (u f : Nat),
      s.classOk u = true →
      f < 5 →
      exec (.clearPortChange u f) s = .next (s.set (usbPort u 4) (clrBit (s.get (usbPort u 4)) f))) ∧
  (∀ (s : State) (f : Nat),
      s.hubLive = true →
      f < 2 →
      exec (.clearHubChange f) s = .next { s with usb := { s.usb with change := clrBit s.usb.change f } }) ∧
  (∀ (s : State) (u : Nat),
      s.classOk u = true →
      exec (.getPortStatus u) s = .next (s.hubData 4 (u16 (s.get (usbPort u 3)) ++ u16 (s.get (usbPort u 4))))) ∧
  (∀ (s : State) (n : Nat),
      s.hubLive = true →
      exec (.hubGetStatus n) s = .next (if n = 0 then s.hubData 2 (u16 (1 + 2 * ofBool s.usb.wakeOn)) else if n = 3
        then s.hubData 4 (u16 s.usb.status ++ u16 s.usb.change) else s.hubData 2 (u16 0))) ∧
  (∀ (s : State) (num len : Nat),
      s.hubLive = true →
      exec (.hubGetDescriptor 1 num len) s = .next (s.hubData len (s.hubDevice false)) ∧
        exec (.hubGetDescriptor 2 num len) s = .next (s.hubData len (hubConfig 2)) ∧
        exec (.hubGetDescriptor 0x29 num len) s = .next (s.hubData len s.hubDescriptor)) ∧
  (∀ (s : State) (a : Nat),
      s.hubLive = true →
      a < 128 →
      exec (.hubSetAddress a) s = .next (({ s with usb := { s.usb with addr := a } } : State).showHub)) ∧
  (∀ (s : State) (x : Nat),
      s.hubLive = true →
      x ≤ 1 →
      exec (.hubSetConfiguration x) s = .next (({ s with usb := { s.usb with config := decide (x = 1), alt := 0, epPid := false } } : State).showHub)) ∧
  (∀ (s : State) (alt : Nat),
      s.hubLive = true →
      alt ≤ 1 →
      exec (.hubSetInterface alt) s = .next (forAll (fun u s => s.admitAgain u) s.usbPorts { s with usb := { s.usb with alt, epPid := false } })) ∧
  (∀ (s : State),
      s.hubLive = true →
      exec .hubSetRemoteWakeup s = .next { s with usb := { s.usb with wakeOn := true } }) ∧
  (∀ (s : State),
      s.hubLive = true →
      exec .hubClearRemoteWakeup s = .next { s with usb := { s.usb with wakeOn := false } }) ∧
  (∀ (s : State) (u a e t : Nat) (i : Bool),
      s.classOk u = true →
      exec (.clearTtBuffer u a e t i) s = .next (s.discardSome u 10 3 fun r => decide (byteAt r.hdr 2 = a ∧ r.endpoint = e ∧ r.kind = t ∧
        (t = 0 ∨ decide (r.token = 3) = i)))) ∧
  (∀ (s : State) (u : Nat),
      s.classOk u = true →
      exec (.resetTt u) s = .next (s.discardSome u 10 3 fun r => decide (r.speed ≠ 0)))

/-- O37. The relay's rings and the raw port commands complete. A relay whose ring and link are up fetches the units
that its server adds, passes a unit to the next free slot, and takes the index of consumed slots; in raw port
control each port command of R237 is accepted and has the effect that R223 gives its port state; command 1 of
UsbHubStatus clears the counters. (R218, R223, R230, R236, R237) -/
def Obligations.UsbRelayAndRawCommandsComplete : Prop :=
  (∀ (s : State) (r n : Nat) (units : List Bytes),
      r < 16 →
      s.relayOn r = true →
      n < 2 ^ 32 →
      (n + 2 ^ 32 - (s.relay r).down) % 2 ^ 32 = units.length →
      units.length ≤ s.rcfg r 5 →
      exec (.relayDownProducerWrite r n units) s = .next (forAll (fun unit s => s.relayDown r unit) units
        ((forAll (fun k (s' : State) => (s'.count (pcieStat (s.rcfg r 2 - 12) 6) 1).send
          (.ringRead (s.rcfg r 2 - 12) (s'.rcfg r 3 + 2048 * (((s'.relay r).down + k) % s'.rcfg r 5)) 2048)) (upTo units.length) s).updRelay r
            fun x => { x with down := n }))) ∧
  (∀ (s : State) (r n : Nat),
      r < 16 →
      s.relayOn r = true →
      n < 2 ^ 32 →
      (s.relay r).fullSince = none →
      exec (.relayUpConsumerWrite r n) s = .next (s.updRelay r fun x => { x with consumed := n })) ∧
  (∀ (s : State) (n r : Nat) (unit : Bytes),
      16 ≤ n ∧ n < 4096 →
      s.tstate n = 3 ∨ s.tstate n = 4 →
      s.tcfg n 2 = 3 →
      s.tcfg n 6 = 15 →
      r < 16 →
      s.tcfg n 8 = 0x100 + r ∨ s.tcfg n 8 = 0x180 + r →
      s.relayOn r = true →
      exec (.relayUnitFromTunnel n unit) s = .next (s.ringUp r unit)) ∧
  (∀ (s : State) (p : Path) (u : Nat),
      s.part.hasUsb u = true →
      s.takes p (0x2A08 + u) 1 →
      s.rawUsb = true →
      s.domainOn 12 = true →
      s.pstate u ≤ 6 →
      exec (.usbPortPowerOn p u) s = .next (if ((((s.touch p).cmdAccept (0x2A08 + u) 1 p).portPowerOn u).get (usbPort u 3)).testBit 8 then (((s.touch p).cmdAccept (0x2A08 + u) 1 p).portPowerOn u).rawDone u else (((s.touch p).cmdAccept (0x2A08 + u) 1 p).portPowerOn u))) ∧
  (∀ (s : State) (p : Path) (u : Nat),
      s.part.hasUsb u = true →
      s.takes p (0x2A08 + u) 2 →
      s.rawUsb = true →
      s.domainOn 12 = true →
      s.pstate u ≤ 6 →
      exec (.usbPortPowerOff p u) s = .next (if (((s.touch p).cmdAccept (0x2A08 + u) 2 p).portPowerOff u 7 0).driven u then (((s.touch p).cmdAccept (0x2A08 + u) 2 p).portPowerOff u 7 0) else (((s.touch p).cmdAccept (0x2A08 + u) 2 p).portPowerOff u 7 0).rawDone u)) ∧
  (∀ (s : State) (p : Path) (u : Nat),
      s.part.hasUsb u = true →
      s.takes p (0x2A08 + u) 3 →
      s.rawUsb = true →
      s.domainOn 12 = true →
      s.pstate u = 2 ∨ s.pstate u = 4 →
      exec (.usbPortReset p u) s = .next (((s.touch p).cmdAccept (0x2A08 + u) 3 p).askReset u)) ∧
  (∀ (s : State) (p : Path) (u : Nat),
      s.part.hasUsb u = true →
      s.takes p (0x2A08 + u) 4 →
      s.rawUsb = true →
      s.domainOn 12 = true →
      s.pstate u = 4 →
      exec (.usbPortSuspend p u) s = .next (((s.touch p).cmdAccept (0x2A08 + u) 4 p).askSuspend u)) ∧
  (∀ (s : State) (p : Path) (u : Nat),
      s.part.hasUsb u = true →
      s.takes p (0x2A08 + u) 5 →
      s.rawUsb = true →
      s.domainOn 12 = true →
      s.pstate u = 5 →
      exec (.usbPortResume p u) s = .next (((s.touch p).cmdAccept (0x2A08 + u) 5 p).portResume u)) ∧
  (∀ (s : State) (p : Path) (u n : Nat),
      s.part.hasUsb u = true →
      s.takes p (0x2A08 + u) (6 + 256 * n) →
      s.rawUsb = true →
      s.domainOn 12 = true →
      s.pstate u ≤ 6 →
      testKnown n = true →
      exec (.usbPortTestMode p u n) s = .next ((((s.touch p).cmdAccept (0x2A08 + u) (6 + 256 * n) p).portTest u n).rawDone u)) ∧
  (∀ (s : State) (p : Path),
      s.takes p 0x2A01 1 →
      ∃ y, y = ((s.touch p).cmdAccept 0x2A01 1 p) ∧ exec (.usbHubClearCounters p) s = .next (((y.clear
        ([4, 5, 6, 7, 8, 9, 0x0A, 0x0B].map usbStat)).clear
        ((s.usbPorts.map fun u => [5, 6, 7, 8, 9, 0x0A, 0x0B, 0x0C].map (usbPort u)).flatten)).cmdCommit 0x2A01 0))

/-- O38. The commands of the service-port device complete. In the device states that R231 to R235 and R239 name, the
service-port device attaches, detaches and is reset, begins a control transfer, takes its address, configuration,
interface and halts, moves OUT and IN packets by their toggles, suspends, resumes and wakes its host. (R231, R232,
R233, R234, R235, R239, R393) -/
def Obligations.ServiceDeviceCommandsComplete : Prop :=
  (∀ (s y : State),
      s.svcState = 0 →
      s.svcMay = true →
      y = s.updSvc (fun x => { x with fast := decide (s.get (ob 0x2A20 2) = 0), wakeCap := s.flag (ob 0x2A20 5), app := s.flag (ob 0x2A20 6) }) →
      exec .svcDeviceAttach s = .next ((y.svcGo 1).send (.svcPull true (decide (s.get (ob 0x2A20 2) = 0))))) ∧
  (∀ (s : State),
      s.svcMay = false →
      exec .svcDeviceDetach s = .next s.svcDetach) ∧
  (∀ (s x y : State) (hs : Bool),
      1 ≤ s.svcState →
      s.svc.detach = none →
      s.svc.dfu = false →
      x = ((((s.setAll [(svcStat 2, 0), (svcStat 3, if hs ∧ s.svc.fast then 1 else 2), (svcStat 8, s.station)]).count (svcStat 4) 1).freshEps
        (0 :: faceEps 0 ++ faceEps 2)).svcGo 2) →
      y = x.updSvc (fun x => { x with setup := none, stall := false, config := false, wakeOn := false, rx := [], inQ := [], detach := none, dfu := false }) →
      exec (.svcBusReset hs) s = .next (y.ev 0x7061 0 1 161 (u16 0 ++ u16 (ofBool s.svc.setup.isSome) ++ u16 (ofBool (decide (s.svc.rx ≠ [])))))) ∧
  (∀ (s x y : State) (setup d : Bytes),
      s.svcIn 2 4 = true →
      setup.length = 8 →
      s.svc.setup = none →
      x = s.count (svcStat 5) 1 →
      y = (x.setAll [(toggleKey 0 false, 1), (toggleKey 0 true, 1)]).updSvc
          (fun z => { z with setup := some setup, stall := (x.svcRequest setup).isNone, inQ := Sparse.put [] 0 [] z.inQ }) →
      d = ((x.svcRequest setup).getD []).take (leAt setup 6 2) →
      exec (.svcSetupReceived setup) s = .next (if d = [] then y else y.svcQueue 0 (packets 64 (d.length / 64) d))) ∧
  (∀ (s : State) (b : Bytes),
      s.svc.setup = some b →
      s.svc.stall = false →
      exec .svcStatusStageComplete s = .next ((s.updSvc fun x => { x with setup := none }).svcEffect b)) ∧
  (∀ (s : State) (a : Nat),
      s.svcState = 2 ∨ s.svcState = 3 →
      a < 128 →
      exec (.svcSetAddress a) s = .next (((s.updSvc fun x => { x with setup := none }).set (svcStat 2) a).svcGo (if a = 0 then 2 else 3))) ∧
  (∀ (s : State) (x : Nat),
      s.svcState = 3 ∨ s.svcState = 4 →
      x ≤ 1 →
      exec (.svcSetConfiguration x) s = .next ((((s.updSvc fun x => { x with setup := none }).updSvc fun y => { y with config := decide (x = 1) }).freshEps
        (faceEps 0 ++ faceEps 2)).svcGo (if x = 1 then 4 else 3))) ∧
  (∀ (s : State) (f : Nat),
      s.svcState = 4 →
      exec (.svcSetInterface f 0) s = .next ((s.updSvc fun x => { x with setup := none }).freshEps (faceEps f))) ∧
  (∀ (s y : State) (ep : Nat) (i : Bool),
      0 < ep ∧ ep < 16 →
      s.epOn ep i = true →
      s.flag (haltKey ep i) = false →
      y = s.updSvc (fun x => { x with setup := none }) →
      exec (.svcSetEndpointHalt ep i) s = .next ((y.set (haltKey ep i) 1).raise 162)) ∧
  (∀ (s y : State) (ep : Nat) (i : Bool),
      0 < ep ∧ ep < 16 →
      s.epOn ep i = true →
      s.flag (haltKey ep i) = true →
      y = s.updSvc (fun x => { x with setup := none }) →
      exec (.svcClearEndpointHalt ep i) s = .next (((y.set (haltKey ep i) 0).set (toggleKey ep i) 0).raise 162)) ∧
  (∀ (s y : State) (ep pid : Nat) (data : Bytes),
      ep ≤ 1 →
      s.svcIn 2 4 = true →
      s.epOn ep false = true →
      data.length ≤ s.epMax ep false →
      s.flag (haltKey ep false) = false →
      s.svc.stall = false →
      pid = s.get (toggleKey ep false) →
      y = ((s.set (toggleKey ep false) (1 - s.get (toggleKey ep false))).send (.svcAnswer ep 0 [])) →
      exec (.svcOutPacket ep pid data) s = .next (y.svcStore ep data)) ∧
  (∀ (s : State) (ep pid : Nat) (data : Bytes),
      ep ≤ 1 →
      s.svcIn 2 4 = true →
      s.epOn ep false = true →
      data.length ≤ s.epMax ep false →
      s.flag (haltKey ep false) = false →
      s.svc.stall = false →
      pid ≠ s.get (toggleKey ep false) →
      exec (.svcOutPacket ep pid data) s = .next (s.send (.svcAnswer ep 0 []))) ∧
  (∀ (s y : State) (ep : Nat) (d : Bytes),
      ep ≤ 1 →
      s.svcIn 2 4 = true →
      s.epOn ep true = true →
      s.flag (haltKey ep true) = false →
      s.svc.stall = false →
      s.svcReady ep = some d →
      y = s.send (.svcAnswer ep 3 d) →
      exec (.svcInToken ep false) s = .next y ∧
        exec (.svcInToken ep true) s = .next ((y.set (toggleKey ep true) (1 - s.get (toggleKey ep true))).svcSent ep)) ∧
  (∀ (s : State),
      s.svcIn 1 4 = true →
      exec .svcSuspendDetected s = .next ((s.updSvc fun x => { x with before := s.svcState }).svcGo 5)) ∧
  (∀ (s : State),
      s.svcState = 5 →
      exec .svcHostResume s = .next (s.svcGo s.svc.before)) ∧
  (∀ (s y : State) (p : Path),
      s.takes p 0x2A21 1 →
      s.svcState = 5 →
      s.svc.wakeOn = true →
      y = (s.touch p).cmdAccept 0x2A21 1 p →
      exec (.svcRemoteWake p true) s = .next ((y.cmdFail 0x2A21 1).raise 163) ∧
        exec (.svcRemoteWake p false) s = .next (((y.send .svcK).cmdCommit 0x2A21 0).raise 163)) ∧
  (∀ (s : State) (p : Path),
      s.allows p 0x2A20 1 1 →
      s.planBad = false →
      exec (.svcDeviceEnableWrite p 1) s = .next (((s.touch p).set (ob 0x2A20 1) 1).takePlan))

/-- O39. Every PD message that reaches the service port completes with its effect. For a host-assisted, attached
service port and a message whose MessageID is new, the hub acknowledges it with GoodCRC and does what R242 to R254
give the message in the port's role: it requests, accepts, rejects, changes roles, contracts or VCONN, or answers
Not_Supported. (R242, R243, R246, R247, R250, R251, R253, R254) -/
def Obligations.PdMessagesComplete : Prop :=
  (∀ (s y : State) (id : Nat) (rev : Nat) (pdos : List Nat),
      s.pdOn = true →
      id < 8 →
      s.pd.rxId ≠ some id →
      y = ((s.send (.pdGoodCrc id)).updPd fun x => { x with rxId := some id }).heard →
      y.isSink = true →
      exec (.pdSourceCapabilities id rev pdos) s = .next (((((y.revision rev).updPd fun x => { x with vbus := true, softSent := false }).setAll (((upTo 7).map fun k => (ob 0x2B02 (k + 1), pdos.getD k 0 % 2 ^ 32)) ++
        [(ob 0x2B02 8, min 7 pdos.length)])).sendRequest 1 false))) ∧
  (∀ (s y : State) (id : Nat) (rev rdo : Nat),
      s.pdOn = true →
      id < 8 →
      s.pd.rxId ≠ some id →
      y = ((s.send (.pdGoodCrc id)).updPd fun x => { x with rxId := some id }).heard →
      y.isSource = true →
      1 ≤ field rdo 28 3 ∧ field rdo 28 3 ≤ y.pd.advertised.length →
      field rdo 10 10 ≤ y.pd.advertised.getD (field rdo 28 3 - 1) 0 % 1024 →
      rdo % 1024 ≤ y.pd.advertised.getD (field rdo 28 3 - 1) 0 % 1024 ∨ rdo.testBit 26 →
      exec (.pdRequest id rev rdo) s = .next (((((((y.revision rev).pdSend .accept).set (pdStat 9) 2).updPd fun x =>
        { x with target := some (field rdo 28 3, pdoVolts (field rdo 28 3), field rdo 10 10 * 10) }).start .pdTransition).start .pdTransitionSrc))) ∧
  (∀ (s y : State) (id : Nat) (k : Nat),
      s.pdOn = true →
      id < 8 →
      s.pd.rxId ≠ some id →
      y = ((s.send (.pdGoodCrc id)).updPd fun x => { x with rxId := some id }).heard →
      y.pd.softSent = false ∧ y.pd.asked = some k →
      exec (.pdAccept id) s = .next (((((y.stop .pdResponse).set (pdStat 9) 2).updPd fun x => { x with asked := none, target := some (k, field (y.get (ob 0x2B02 k)) 10 10 * 50, y.pd.askedMa) }).start .pdPsRdy))) ∧
  (∀ (s y : State) (id : Nat),
      s.pdOn = true →
      id < 8 →
      s.pd.rxId ≠ some id →
      y = ((s.send (.pdGoodCrc id)).updPd fun x => { x with rxId := some id }).heard →
      y.pd.softSent = false ∧ y.pd.asked = none →
      y.pd.swap = 1 →
      y.pd.swapOwn = true →
      y.pd.swapAgreed = false ∧ y.pd.ask.any pdSwaps = false →
      exec (.pdAccept id) s = .next (((y.updPd fun x => { x with autoDone := true }).swapRoles))) ∧
  (∀ (s y : State) (id : Nat) (n : Bool) (k : Nat),
      s.pdOn = true →
      id < 8 →
      s.pd.rxId ≠ some id →
      y = ((s.send (.pdGoodCrc id)).updPd fun x => { x with rxId := some id }).heard →
      y.pd.asked = some k →
      exec (.pdReject id n) s = .next ((((y.stop .pdResponse).updPd fun x => { x with asked := none }).requestDone k (if n then 3 else 1)))) ∧
  (∀ (s y : State) (id : Nat) (n : Bool),
      s.pdOn = true →
      id < 8 →
      s.pd.rxId ≠ some id →
      y = ((s.send (.pdGoodCrc id)).updPd fun x => { x with rxId := some id }).heard →
      y.pd.asked = none →
      y.pd.swap ≠ 0 →
      y.pd.swapOwn = true →
      exec (.pdReject id n) s = .next ((if y.pd.swap = 1 then (y.updPd fun x => { x with autoDone := true, autoWait := false }).stop .pdAuto else y).swapEnd
        (if n then 3 else 1))) ∧
  (∀ (s y : State) (id : Nat) (k : Nat),
      s.pdOn = true →
      id < 8 →
      s.pd.rxId ≠ some id →
      y = ((s.send (.pdGoodCrc id)).updPd fun x => { x with rxId := some id }).heard →
      y.pd.asked = some k →
      exec (.pdWait id) s = .next (((y.stop .pdResponse).start .pdSinkRetry))) ∧
  (∀ (s y : State) (id : Nat) (k mv ma : Nat),
      s.pdOn = true →
      id < 8 →
      s.pd.rxId ≠ some id →
      y = ((s.send (.pdGoodCrc id)).updPd fun x => { x with rxId := some id }).heard →
      y.isSink = true →
      y.pd.swap = 0 →
      y.pd.target = some (k, mv, ma) →
      exec (.pdPsRdy id) s = .next ((y.contract k mv ma).requestDone k 0)) ∧
  (∀ (s y : State) (id : Nat),
      s.pdOn = true →
      id < 8 →
      s.pd.rxId ≠ some id →
      y = ((s.send (.pdGoodCrc id)).updPd fun x => { x with rxId := some id }).heard →
      y.pd.swap = 2 →
      y.pd.swapAgreed = true →
      exec (.pdPsRdy id) s = .next (((y.vconn false).swapEnd 0))) ∧
  (∀ (s y : State) (id : Nat),
      s.pdOn = true →
      id < 8 →
      s.pd.rxId ≠ some id →
      y = ((s.send (.pdGoodCrc id)).updPd fun x => { x with rxId := some id }).heard →
      exec (.pdGetSourceCap id) s = .next ((if y.isSource then y.sendCaps else y.notSupported))) ∧
  (∀ (s y : State) (id : Nat),
      s.pdOn = true →
      id < 8 →
      s.pd.rxId ≠ some id →
      y = ((s.send (.pdGoodCrc id)).updPd fun x => { x with rxId := some id }).heard →
      exec (.pdGetSinkCap id) s = .next ((y.pdSend (.sinkCap [y.sinkPdo])))) ∧
  (∀ (s y : State) (id : Nat),
      s.pdOn = true →
      id < 8 →
      s.pd.rxId ≠ some id →
      y = ((s.send (.pdGoodCrc id)).updPd fun x => { x with rxId := some id }).heard →
      y.pd.swap = 0 →
      y.part.qh34 = true →
      y.get (pdCfg 0x0B) = 2 ∨ (y.get (pdCfg 0x0B) = 1 ∧ y.get (pdStat 3) = 2) →
      exec (.pdDrSwap id) s = .next ((((y.pdSend .accept).updPd fun x => { x with swap := 1, swapOwn := false, swapAgreed := true }).swapRoles))) ∧
  (∀ (s y : State) (id : Nat),
      s.pdOn = true →
      id < 8 →
      s.pd.rxId ≠ some id →
      y = ((s.send (.pdGoodCrc id)).updPd fun x => { x with rxId := some id }).heard →
      y.pd.swap = 0 →
      y.get (pdCfg 0x0C) = 1 →
      y.get (pdStat 4) = 1 →
      exec (.pdVconnSwap id) s = .next (((y.pdSend .accept).updPd fun x => { x with swap := 2, swapOwn := false, swapAgreed := true }))) ∧
  (∀ (s y : State) (id : Nat),
      s.pdOn = true →
      id < 8 →
      y = (((s.send (.pdGoodCrc id)).pdRestart.updPd fun x => { x with txId := 0, rxId := none }).pdSend .accept) →
      exec (.pdSoftReset id) s = .next (if y.isSource then y.start .pdFirstCap else y)) ∧
  (∀ (s : State),
      s.pdOn = true →
      exec .pdHardReset s = .next (s.hardReset false)) ∧
  (∀ (s y : State) (id : Nat),
      s.pdOn = true →
      id < 8 →
      s.pd.rxId ≠ some id →
      y = ((s.send (.pdGoodCrc id)).updPd fun x => { x with rxId := some id }).heard →
      exec (.pdDiscoverIdentity ⟨id, 0xFF008001⟩) s = .next ((y.pdSend (.vdm (0xFF008041 :: Config.identityVdos))))) ∧
  (∀ (s y : State) (id hdr : Nat),
      s.pdOn = true →
      id < 8 →
      s.pd.rxId ≠ some id →
      y = ((s.send (.pdGoodCrc id)).updPd fun x => { x with rxId := some id }).heard →
      (hdr.testBit 15 = false → exec (.pdDiscoverIdentity ⟨id, hdr⟩) s = .next (y.pdSend .notSupported)) ∧
        (hdr.testBit 15 = true → field hdr 6 2 = 0 → hdr / 65536 ≠ 0xFF00 ∨ hdr % 32 ≠ 1 →
          exec (.pdDiscoverIdentity ⟨id, hdr⟩) s = .next (y.pdSend (.vdm [hdr + 0x80])))) ∧
  (∀ (s y : State) (id : Nat),
      s.pdOn = true →
      id < 8 →
      s.pd.rxId ≠ some id →
      y = ((s.send (.pdGoodCrc id)).updPd fun x => { x with rxId := some id }).heard →
      exec (.pdPrSwap id) s = .next (y.notSupported)) ∧
  (∀ (s y : State) (id : Nat),
      s.pdOn = true →
      id < 8 →
      s.pd.rxId ≠ some id →
      y = ((s.send (.pdGoodCrc id)).updPd fun x => { x with rxId := some id }).heard →
      exec (.pdExtendedMessage id) s = .next ((y.pdSend .notSupported))) ∧
  (∀ (s y : State) (id : Nat) (carrier : Bool),
      s.pdOn = true →
      id < 8 →
      s.pd.rxId ≠ some id →
      y = ((s.send (.pdGoodCrc id)).updPd fun x => { x with rxId := some id }).heard →
      exec (.pdBist id carrier) s = .next (y.send (.pdBist carrier)))

/-- O40. Attach, timers, protections and commands of the service port's power complete. When a partner attaches or
detaches, when a timer of R244 to R256 has run out, when a protection of R252 is crossed and when the host gives a
command of R258 or writes a PDO, the service port takes the state that the rule gives. (R244, R245, R246, R247,
R250, R251, R252, R253, R254, R255, R258) -/
def Obligations.ServicePowerTimersComplete : Prop :=
  (∀ (s x y : State) (cc : Nat),
      s.domainOn 2 = true →
      s.typeC = 0 ∨ (s.typeC = 1 ∧ s.due .pdCc (msec 100) = true) →
      s.pd.discharge = false →
      cc = 1 ∨ cc = 2 →
      s.roleMode = 1 →
      x = (s.stopAll [.pdDrp, .pdTrySnk, .pdCc]).setAll [(pdStat 1, 2), (pdStat 2, 2), (pdStat 3, 2), (pdStat 5, cc), (pdStat 0x0A, 0), (pdStat 9, 0)] →
      y = x.pdEv 0x8001 0 168 (u8 2 ++ u8 cc ++ u8 0) →
      exec (.typecAttach true cc ⟨0, true⟩) s = .next (((y.presentRp (y.get (pdCfg 3))).vsel 5000).request 8 true)) ∧
  (∀ (s : State) (cc rp : Nat),
      s.domainOn 2 = true →
      s.typeC = 0 →
      s.pd.discharge = false →
      cc = 1 ∨ cc = 2 →
      rp ≤ 2 →
      s.roleMode = 0 ∨ s.roleMode = 2 →
      exec (.typecAttach false cc ⟨rp, false⟩) s = .next (((s.stop .pdDrp).start .pdCc).set (pdStat 1) 1)) ∧
  (∀ (s x : State) (cc rp : Nat),
      s.domainOn 2 = true →
      s.typeC = 0 ∨ (s.typeC = 1 ∧ s.due .pdCc (msec 100) = true) ∨ s.typeC = 4 →
      s.pd.discharge = false →
      cc = 1 ∨ cc = 2 →
      rp ≤ 2 →
      s.roleMode = 0 ∨ s.roleMode = 2 →
      x = (s.stopAll [.pdDrp, .pdTrySnk, .pdCc]).setAll [(pdStat 1, 3), (pdStat 2, 1), (pdStat 3, 1), (pdStat 5, cc), (pdStat 0x0A, rp), (pdStat 9, 0)] →
      exec (.typecAttach false cc ⟨rp, true⟩) s =
        .next (((x.pdEv 0x8001 0 168 (u8 3 ++ u8 cc ++ u8 rp)).updPd (fun x => { x with vbus := true })).liftPull true)) ∧
  (∀ (s y : State),
      s.typeC = 3 →
      y = s.pdEv 0x8002 0 168 (u16 (s.get (pdStat 7)) ++ u16 ((s.pd.target.map fun x => x.2.1).getD 0)) →
      exec .typecDetach s = .next ((y.unattach.set (pdStat 1) 0).terminate)) ∧
  (∀ (s : State),
      s.typeC = 0 →
      s.roleMode = 2 →
      s.due .pdDrp (msec 25) = true →
      exec .drpToggleTimer s = .next (((s.updPd fun x => { x with rp := !s.pd.rp }).send (.ccPull (!s.pd.rp) (s.get (pdCfg 3)))).start .pdDrp)) ∧
  (∀ (s : State),
      s.typeC = 4 →
      s.due .pdTrySnk (msec 75) = true →
      exec .trySnkTimeout s = .next (((s.stop .pdTrySnk).set (pdStat 1) 5).presentRp (s.get (pdCfg 3)))) ∧
  (∀ (s x y : State) (cc : Nat),
      s.domainOn 2 = true →
      s.typeC = 5 →
      s.pd.discharge = false →
      cc = 1 ∨ cc = 2 →
      s.roleMode = 2 →
      x = (s.stopAll [.pdDrp, .pdTrySnk, .pdCc]).setAll [(pdStat 1, 2), (pdStat 2, 2), (pdStat 3, 2), (pdStat 5, cc), (pdStat 0x0A, 0), (pdStat 9, 0)] →
      y = x.pdEv 0x8001 0 168 (u8 2 ++ u8 cc ++ u8 0) →
      exec (.typecAttach true cc ⟨0, true⟩) s = .next (((y.presentRp (y.get (pdCfg 3))).vsel 5000).request 8 true)) ∧
  (∀ (s : State),
      s.typeC = 6 →
      s.due .pdError (msec 25) = true →
      exec .errorRecoveryEnd s = .next (((s.stop .pdError).set (pdStat 1) 0).terminate)) ∧
  (∀ (s : State),
      s.isSource = true →
      s.get (pdCfg 0x0E) = 1 →
      s.pd.vconnCut = false →
      s.get (pdStat 4) = 0 →
      exec .raDetected s = .next ((s.updPd fun x => { x with ra := true }).vconn true)) ∧
  (∀ (s : State) (m : PdMsg),
      s.pd.waitCrc = some m →
      s.pdOn = true →
      s.due .pdGoodCrc 900000 = true →
      s.pd.retries < (if s.get (pdStat 6) = 2 then 3 else 2) →
      exec .pdGoodcrcTimeout s = .next (((s.updPd fun x => { x with retries := x.retries + 1 }).send (.pd m ((s.pd.txId + 7) % 8))).start .pdGoodCrc)) ∧
  (∀ (s : State),
      s.pdOn = true →
      s.isSource = true →
      s.pd.vbus = true →
      s.due .pdFirstCap (msec 100) = true →
      exec .firstSourceCapTimer s = .next (((s.stop .pdFirstCap).updPd fun x => { x with caps := 0 }).sendCaps)) ∧
  (∀ (s : State),
      s.pdOn = true →
      s.isSource = true →
      s.pd.capsBad = true →
      s.pd.caps < 50 →
      s.due .pdCapRepeat (msec 100) = true →
      exec .sourceCapRepeat s = .next ((s.stop .pdCapRepeat).sendCaps)) ∧
  (∀ (s : State) (k mv ma : Nat),
      s.pd.target = some (k, mv, ma) →
      s.isSource = true →
      s.due .pdTransition (msec 25) = true →
      exec .srcTransitionExpired s = .next ((s.stop .pdTransition).vsel mv)) ∧
  (∀ (s y : State) (k mv ma : Nat) (pdos : List Nat),
      s.pd.target = some (k, mv, ma) →
      s.isSource = true →
      s.pdOn = true →
      s.timing .pdTransition = false →
      y = (((s.pdSend .psRdy).contract k mv ma).updPd fun x => { x with sinkCaps := some pdos }).pdSend .getSinkCap →
      exec (.vbusSettled pdos) s = .next (if y.pd.capsLater then y.sendCaps else y.autoUfp)) ∧
  (∀ (s : State) (k v ma mv : Nat),
      s.pd.target = some (k, v, ma) →
      s.isSource = true →
      s.pdOn = true →
      s.due .pdTransitionSrc (msec 275) = true →
      exec (.psTransitionSrcTimeout mv) s = .next ((s.pdEv 0x8011 3 169 (u16 v ++ u16 mv)).hardReset true)) ∧
  (∀ (s : State),
      s.isSink = true →
      s.pdOn = true →
      s.due .pdPsRdy (msec 450) = true →
      exec .psTransitionTimeout s = .next (s.hardReset true)) ∧
  (∀ (s : State),
      s.pdOn = true →
      s.due .pdResponse (msec 27) = true →
      s.pd.autoWait = false →
      s.pd.asked = none →
      s.pd.swap ≠ 0 →
      s.pd.swapOwn = true →
      exec .senderResponseTimeout s = .next ((s.stop .pdResponse).swapEnd 4)) ∧
  (∀ (s : State) (k : Nat),
      s.pd.asked = some k →
      s.isSink = true →
      s.pdOn = true →
      s.due .pdSinkRetry (msec 100) = true →
      exec .sinkRequestRetry s = .next ((s.stop .pdSinkRetry).sendRequest k true)) ∧
  (∀ (s : State) (mv ma : Nat) (t : Int),
      s.vbusLimit < mv →
      s.isSource = true →
      s.driven 8 = true →
      exec (.svcVbusOvervoltage mv ma t) s = .next ((((s.protect 1 mv).trip 8 6 0 ma t).discharging true).errorRecovery)) ∧
  (∀ (s : State) (mv ma : Nat) (t : Int),
      s.vbusLimit < mv →
      s.isSink = true →
      exec (.svcVbusOvervoltage mv ma t) s = .next ((s.protect 2 mv).errorRecovery)) ∧
  (∀ (s : State) (mv : Nat),
      6000 < mv →
      s.dev ≠ devReset →
      exec (.svcCcOvervoltage mv) s = .next (((s.protect 5 s.vbusNow).vconn false).errorRecovery)) ∧
  (∀ (s : State) (ma : Nat),
      400 < ma →
      s.get (pdStat 4) = 1 →
      exec (.vconnOvercurrent ma) s = .next (((s.protect 6 (Config.measured (pdStat 0x0B) s.clock)).vconn false).updPd fun x => { x with vconnCut := true })) ∧
  (∀ (s : State),
      s.isSource = true →
      s.pd.hardStage = 1 →
      s.due .pdHardReset (msec 25) = true →
      exec .psHardResetTimer s = .next (((((s.stop .pdHardReset).request 8 false).vsel 5000).discharging true).updPd fun x => { x with hardStage := 2, vbus := false })) ∧
  (∀ (s : State),
      s.pd.discharge = true →
      s.driven 8 = false →
      s.pd.hardStage = 2 →
      exec .vbusSafe0vReached s = .next ((((s.discharging false).updPd fun x => { x with vbus := false }).updPd fun x => { x with hardStage := 3 }).start .pdRecover)) ∧
  (∀ (s y : State),
      s.isSource = true →
      s.pd.hardStage = 3 →
      s.due .pdRecover (msec 660) = true →
      y = ((s.stop .pdRecover).updPd fun x => { x with hardStage := 0 }).request 8 true →
      exec .srcRecoverTimer s = .next (if y.pd.ra ∧ y.get (pdCfg 0x0E) = 1 ∧ y.pd.vconnCut = false then y.vconn true else y)) ∧
  (∀ (s : State) (p : Path),
      s.takes p 0x2B01 1 →
      s.hostMode 6 = true →
      s.attached = true →
      s.get (pdStat 6) ≠ 0 →
      s.part.qh34 = true →
      exec (.pdCmdDrSwap p) s = .next (((s.touch p).cmdAccept 0x2B01 1 p).askSwap 1)) ∧
  (∀ (s : State) (p : Path),
      s.takes p 0x2B01 2 →
      s.hostMode 6 = true →
      s.attached = true →
      s.get (pdStat 6) ≠ 0 →
      exec (.pdCmdVconnSwap p) s = .next (((s.touch p).cmdAccept 0x2B01 2 p).askSwap 2)) ∧
  (∀ (s : State) (p : Path),
      s.takes p 0x2B01 3 →
      s.hostMode 6 = true →
      s.attached = true →
      s.get (pdStat 6) ≠ 0 →
      exec (.pdCmdHardReset p) s = .next ((((s.touch p).cmdAccept 0x2B01 3 p).pdDone 3 0).hardReset true)) ∧
  (∀ (s : State) (p : Path),
      s.takes p 0x2B01 4 →
      s.hostMode 6 = true →
      s.attached = true →
      s.get (pdStat 6) ≠ 0 →
      s.isSource = true →
      exec (.pdCmdSendSourceCap p) s = .next ((((s.touch p).cmdAccept 0x2B01 4 p).updPd fun x => { x with caps := 0 }).sendCaps)) ∧
  (∀ (s : State) (p : Path) (n : Nat),
      s.takes p 0x2B01 (5 + 256 * n) →
      s.hostMode 6 = true →
      s.attached = true →
      s.get (pdStat 6) ≠ 0 →
      s.isSink = true →
      1 ≤ n ∧ n ≤ s.get (ob 0x2B02 8) →
      exec (.pdCmdRequest p n) s = .next ((((s.touch p).cmdAccept 0x2B01 (5 + 256 * n) p)).sendRequest n true)) ∧
  (∀ (s : State) (p : Path) (item x : Nat),
      5 ≤ item ∧ item ≤ 9 →
      s.allows p 0x2B00 item x →
      s.pdKinds item x = [] →
      exec (.pdoWrite p item x) s = .next (((s.touch p).set (pdCfg item) x).pdoChanged))

/-- O41. The commands of the Ethernet ports and redundancy pairs complete. In the states that the rules name, a frame
is counted, checked and forwarded or discarded, a link goes up or down, a PAUSE holds the port, a pair sends its
supervision frames, is degraded or forgets a source, and the counters are cleared. (R136, R262, R263, R264, R265,
R266, R286, R291) -/
def Obligations.EthernetCommandsComplete : Prop :=
  (∀ (s : State) (e : Nat) (frame : Bytes),
      s.ethUp e = true →
      s.get (ethStat e 1) = 1 →
      64 ≤ frame.length ∧ frame.length ≤ s.get (ethCfg e 4) →
      fcsGood frame = true →
      isPtp (dropFcs frame) = false →
      s.pairMode e = 0 →
      etherType (dropFcs frame) ≠ 0x88FB →
      exec (.ethFrameReceived e frame) s = .next ((s.count (ethStat e 3) 1).forward e false (dropFcs frame))) ∧
  (∀ (s y : State) (e : Nat) (frame : Bytes),
      s.ethUp e = true →
      s.get (ethStat e 1) = 1 →
      frame.length < 64 →
      y = s.count (ethStat e 3) 1 →
      exec (.ethFrameReceived e frame) s = .next (y.ethErrors e 0 1 0)) ∧
  (∀ (s : State) (e n : Nat),
      s.ethUp e = true →
      s.get (ethStat e 1) ≠ 1 →
      (s.linkRates e).contains n = true →
      exec (.ethLinkUp e n) s = .next (((s.linkEv e 1 n 0).updEthp e fun x => { x with upSince := s.clock }).pairUp (e / 2))) ∧
  (∀ (s : State) (e : Nat),
      s.part.hasEth e = true →
      s.get (ethStat e 1) = 1 →
      exec (.ethLinkDown e) s = .next ((((s.count (ethStat e 0x0E) 1).linkEv e 0 0 2).updEthp e fun x => { x with pausedTo := 0 }).pairDown e 1)) ∧
  (∀ (s : State) (e q : Nat),
      s.ethUp e = true →
      s.get (ethStat e 1) = 1 →
      s.get (ethCfg e 5) = 1 →
      exec (.pauseFrameReceived e q) s = .next ((s.count (ethStat e 8) 1).updEthp e fun x =>
          { x with pausedTo := s.clock + q % 65536 * 512 * 1000 / max 1 (s.get (ethStat e 2)) })) ∧
  (∀ (s : State) (p : Path) (e : Nat),
      s.part.hasEth e = true →
      s.takes p (0x2C08 + e) 1 →
      exec (.ethPortClearCounters p e) s = .next ((((s.touch p).cmdAccept (0x2C08 + e) 1 p).clear
        (ethStat e 0x0D :: ethStat e 0x0E :: (upTo 9).map fun k => ethStat e (3 + k))).cmdCommit (0x2C08 + e) 0)) ∧
  (∀ (s : State) (k : Nat),
      s.part.hasEth (2 * k) = true →
      s.pairMode (2 * k) ≠ 0 →
      (s.redp k).lastLife + msec (s.get (pairKey k 3)) ≤ s.clock →
      exec (.lifeCheckTimer k) s = .next (((forAll (fun e (z : State) => z.frameOut e 0 (s.redp k).seq false false (withFcs (s.lifeFrame k))) [2 * k, 2 * k + 1]
        (s.updRedp k fun x => { x with lastLife := s.clock, seq := wrapAdd 16 x.seq 1 })).pairCheck k).pairUp k)) ∧
  (∀ (s : State) (e : Nat),
      s.part.hasEth e = true →
      s.get (ethStat e 1) = 1 →
      s.pairPortGood e = false →
      exec (.supervisionTimeout e) s = .next (s.pairDown e 2)) ∧
  (∀ (s : State) (k mac : Nat) (x : Node),
      s.part.hasEth (2 * k) = true →
      s.node k mac = some x →
      x.seen + sec (s.get (pairKey k 2)) ≤ s.clock →
      exec (.nodeForgetTimeout k mac) s = .next (({ s with eth := { s.eth with nodes := s.eth.nodes.filter fun y => decide (y ≠ x) } } : State).count
        (pairKey k 6) (x.seqs.filter fun e => decide (e.2 ≠ 3)).length))

/-- O42. Every PTP message and PTP timer completes. A PTP frame with a good check sequence on a linked port with a PTP
role is used, answered or forwarded as R273 says, and the timers of R273 and R268 send Sync, Announce and
Pdelay_Req or lose the source. (R268, R273, R274) -/
def Obligations.PtpCommandsComplete : Prop :=
  (∀ (s y : State) (e : Nat) (frame f : Bytes),
      f = s.inner e (dropFcs frame) →
      fcsGood frame = true →
      s.ptpTakes e f 0 = true →
      y = s.count (ethStat e 3) 1 →
      y.ptpSource e = false →
      y.get (ethCfg e 0x0B) ≠ 3 →
      exec (.ptpSyncReceived e frame) s = .next (y.ptpBridge e (s.ringTag e (dropFcs frame)) (y.ptpIn e f))) ∧
  (∀ (s y : State) (e : Nat) (frame f : Bytes),
      f = s.inner e (dropFcs frame) →
      fcsGood frame = true →
      s.ptpTakes e f 0 = true →
      y = s.count (ethStat e 3) 1 →
      y.ptpSource e = true →
      ptpAt f 4 1 = y.get (ob 0x2F00 0x13) →
      (ptpAt f 6 1).testBit 1 = false →
      exec (.ptpSyncReceived e frame) s = .next ((y.ptpSample e y.station (ptpStamp f) (ptpCorr f)).ptpBridge e
        (s.ringTag e (dropFcs frame)) (y.ptpIn e f))) ∧
  (∀ (s y : State) (e : Nat) (frame f : Bytes),
      f = s.inner e (dropFcs frame) →
      fcsGood frame = true →
      s.ptpTakes e f 8 = true →
      y = s.count (ethStat e 3) 1 →
      y.ptpSource e = true →
      (s.ethp e).syncSeq = some (ptpAt f 30 2) →
      ptpAt f 4 1 = y.get (ob 0x2F00 0x13) →
      exec (.ptpFollowUpReceived e frame) s = .next (((y.ptpSample e (s.ethp e).syncAt (ptpStamp f) ((s.ethp e).syncCorr + ptpCorr f)).updEthp e
        fun x => { x with syncSeq := none }).ptpBridge e (s.ringTag e (dropFcs frame)) f)) ∧
  (∀ (s y z : State) (e : Nat) (frame f b v : Bytes),
      f = s.inner e (dropFcs frame) →
      fcsGood frame = true →
      s.ptpTakes e f 11 = true →
      z = s.count (ethStat e 3) 1 →
      b = f.drop (bodyAt f) →
      v = (b.drop 53).take 8 ++ (b.drop 47).take 1 ++ (b.drop 48).take 4 ++ (b.drop 52).take 1 ++ (b.drop 61).take 2 →
      y = (z.set (ethCfg e 0x0E) (leNat v)).updEthp e (fun x => { x with announced := z.clock }) →
      z.ptpSource e = false →
      exec (.ptpAnnounceReceived e frame) s = .next (y.ptpBridge e (s.ringTag e (dropFcs frame)) f)) ∧
  (∀ (s y : State) (e : Nat) (frame f : Bytes),
      f = s.inner e (dropFcs frame) →
      fcsGood frame = true →
      s.ptpTakes e f 2 = true →
      y = s.count (ethStat e 3) 1 →
      y.get (ob 0x2F00 0x10) ≠ 2 →
      exec (.ptpPdelayReqReceived e frame) s = .next (y.ptpSend e true (y.ptpHead e 3 54 0 (ptpCorr f) (ptpAt f 30 2) 5 ++ zeros 10 ++
        (f.drop (bodyAt f + 20)).take 10))) ∧
  (∀ (s y : State) (e : Nat) (frame f : Bytes),
      f = s.inner e (dropFcs frame) →
      fcsGood frame = true →
      s.ptpTakes e f 3 = true →
      y = s.count (ethStat e 3) 1 →
      (f.drop (bodyAt f + 44)).take 10 = fitBytes 8 (Config.clockIdentity y.part.serial) ++ beBytes 2 (e + 1) →
      ptpAt f 30 2 = ((s.ethp e).reqSeq + 65535) % 65536 →
      (ptpAt f 6 1).testBit 1 = false →
      exec (.ptpPdelayRespReceived e frame) s = .next (y.linkDelay e ((y.station : Int) - (s.ethp e).reqAt) (ptpCorr f))) ∧
  (∀ (s x y : State) (e : Nat) (gm : Bytes),
      s.part.hasEth e = true →
      s.get (ethCfg e 0x0B) = 3 →
      s.timeValid = true →
      (s.ethp e).lastSync + sec 1 ≤ s.clock →
      s.get (ob 0x2F00 0x10) ≠ 2 →
      x = s.updEthp e (fun y => { y with lastSync := s.clock, outSeq := wrapAdd 16 y.outSeq 1 }) →
      y = x.ptpSend e false (x.ptpHead e 0 44 0 0 (s.ethp e).outSeq 0 ++ ptpTime x.station) →
      gm = (if y.sourceGm = 0 then fitBytes 8 (Config.clockIdentity y.part.serial) else leBytes 8 y.sourceGm) →
      exec (.ptpSyncTimer e) s = .next (y.ptpSend e false (y.ptpHead e 11 64 (8 + (if y.leapByte = 1 then 1 else if y.leapByte = 3 then 2 else 0)) 0
        (s.ethp e).outSeq 5 ++ zeros 10 ++ beBytes 2 y.utcOffset ++ u8 0 ++ u8 (y.get (ob 0x2F00 0x11)) ++ u8 y.clockClass ++
        beBytes 3 (Config.code 0x2F00 y.clockClass) ++ u8 (y.get (ob 0x2F00 0x12)) ++ gm ++ beBytes 2 (byteAt y.timeStatus 2) ++
        u8 (Config.code 0x2F00 (256 + y.tmSource))))) ∧
  (∀ (s : State) (e : Nat),
      s.part.hasEth e = true →
      s.get (ethCfg e 0x0B) ≠ 0 →
      (s.ethp e).lastReq + sec 1 ≤ s.clock →
      exec (.ptpPdelayTimer e) s = .next ((s.ptpSend e true (s.ptpHead e 2 54 0 0 (s.ethp e).reqSeq 5 ++ zeros 20)).updEthp e fun y =>
            { y with lastReq := s.clock, reqAt := s.station, reqSeq := wrapAdd 16 y.reqSeq 1, respSeq := none })) ∧
  (∀ (s : State) (e : Nat),
      s.part.hasEth e = true →
      s.ptpSource e = true →
      s.time.valid = true →
      (s.ethp e).announced + sec 3 ≤ s.clock →
      exec (.announceReceiptTimeout e) s = .next (s.sourceLost 3))

/-- O43. The commands of station time complete. For every state in which the rule's condition holds, an input of the
selected source gives a sample or is counted in error, the source is lost, holdover expires, PPS_OUT follows its
second, TimeControl steps, sets or slews, a fault is declared, and time-status messages are sent and stored.
(R267, R268, R269, R270, R272, R275, R276, R278, R284, R288) -/
def Obligations.TimeCommandsComplete : Prop :=
  (∀ (s : State) (at_ : Nat) (f : Irig),
      s.part.qh34 = true ∧ s.reach = true →
      f.good = true →
      s.tmSource = 3 →
      s.get (ob 0x2F00 0x0A) ≠ 1 →
      exec (.irigFrameReceived at_ f) s = .next ((s.updTime fun x => { x with irigBad := 0, irigAt := s.clock }).sample
        ((at_ : Int) - (s.updTime fun x => { x with irigBad := 0, irigAt := s.clock }).irigTime f) (sec 1))) ∧
  (∀ (s y : State) (at_ : Nat) (f : Irig),
      s.part.qh34 = true ∧ s.reach = true →
      f.good = false →
      s.tmSource = 3 →
      y = (s.count (ob 0x2F01 0x0B) 1).inputErrors 1 0 0 →
      exec (.irigFrameReceived at_ f) s = .next (y.updTime fun x => { x with irigBad := y.irigFailing + 1, irigAt := y.clock })) ∧
  (∀ (s : State) (r : Bool),
      s.tmSource = 4 →
      r = decide (s.get (ob 0x2F00 0x0E) = 0) →
      exec (.ppsInEdge r) s = .next (s.sample (fromSecond s.station) (sec 1))) ∧
  (∀ (s : State),
      s.timeValid = true →
      s.get (ob 0x2F00 0x0C) = 1 →
      s.station % 1000000000 = 0 →
      s.time.pps = false →
      exec .ppsOutSecond s = .next ((s.updTime fun x => { x with pps := true, ppsAt := s.clock }).send (.pin "PPS_OUT" 1))) ∧
  (∀ (s : State),
      s.time.pps = true →
      s.time.ppsAt + msec (s.get (ob 0x2F00 0x0D)) ≤ s.clock →
      exec .ppsOutWidthEnd s = .next ((s.updTime fun x => { x with pps := false }).send (.pin "PPS_OUT" 0))) ∧
  (∀ (s : State),
      s.time.valid = true →
      s.lossCause ≠ 0 →
      s.tmSource ≠ 4 →
      exec .timeSourceLost s = .next (s.sourceLost s.lossCause)) ∧
  (∀ (s : State),
      s.tmState = 3 →
      s.time.holdAt + sec (s.get (ob 0x2F00 7)) ≤ s.clock →
      exec .holdoverLimitExpired s = .next (s.setTime 4)) ∧
  (∀ (s : State) (p : Path) (sub x : Nat),
      sub = 1 ∨ sub = 2 →
      s.allows p 0x2F00 sub x →
      x ≠ 3 ∨ sub = 2 ∨ s.part.qh34 = true →
      exec (.timeSourceWrite p sub x) s = .next (((s.touch p).set (ob 0x2F00 sub) x).reselect sub)) ∧
  (∀ (s : State) (c : Nat),
      c = 1 ∨ c = 2 ∨ c = 3 ∨ c = 6 →
      exec (.sf3Fault c) s = .next (s.timeFault c)) ∧
  (∀ (s y : State) (p : Path),
      s.takes p 0x2F00 1 →
      y = (s.touch p).cmdAccept 0x2F00 1 p →
      y.hostMode 9 = false →
      y.time.valid = true →
      y.time.sampled = true →
      exec (.timeStep p) s = .next (((y.stepTime (-y.time.offset) 1).cmdCommit 0x2F00 0).leaveFault)) ∧
  (∀ (s y : State) (p : Path),
      s.takes p 0x2F00 2 →
      y = (s.touch p).cmdAccept 0x2F00 2 p →
      exec (.timeSet p) s = .next (((y.stepTime ((y.get (ob 0x2F03 1) : Int) - y.station) 1).cmdCommit 0x2F00 0).leaveFault)) ∧
  (∀ (s y : State) (p : Path),
      s.takes p 0x2F00 3 →
      y = (s.touch p).cmdAccept 0x2F00 3 p →
      y.hostMode 9 = true →
      exec (.timeSlew p) s = .next ((y.slewTime (sget 32 (y.get (ob 0x2F03 3)))).cmdCommit 0x2F00 0)) ∧
  (∀ (s y : State) (p : Path) (x : Nat),
      s.allows p 0x2F03 2 x →
      y = (s.touch p).set (ob 0x2F03 2) x →
      exec (.hostFrequencyWrite p x) s = .next (if y.hostMode 9 then y.setWord (sget 32 x) else y)) ∧
  (∀ (s : State) (t : Nat),
      s.trained t = true →
      (s.trunk t).cycle % 8 = 0 →
      (s.plt t).statusSent ≠ some (s.trunk t).cycle →
      exec (.timeStatusMessageSend t) s = .next ((s.updPl t fun x => { x with statusSent := some (s.trunk t).cycle }).emit 2 [t] (s.newCell 2 0 s.timeStatus))) ∧
  (∀ (s y : State) (t : Nat) (msg : Bytes),
      s.trained t = true →
      y = (s.setAll [(ob (0x2F04 + t) 6, byteAt msg 0), (ob (0x2F04 + t) 7, byteAt msg 2)]).updPl t (fun x => { x with utc := some (leAt msg 4 2, byteAt msg 6), gm := leAt msg 8 8 }) →
      exec (.timeStatusMessageReceived t msg) s = .next (if y.utcOffset = s.utcOffset then y else y.timeEv 0x9051 1 5 (u16 y.utcOffset))) ∧
  (∀ (s : State) (n : Int) (o : Nat),
      n = (if s.leapByte % 4 = 1 then 1 else if s.leapByte % 4 = 3 then -1 else 0) →
      n ≠ 0 →
      o = sput 16 (sget 16 s.utcOffset + n) →
      ((s.station : Int) - sget 16 o * 1000000000) % (86400 * 1000000000) < 1000000000 →
      exec .leapSecond s = .next ((match s.utcTrunk with
        | some t => s.updPl t fun x => { x with utc := some (o, 0) }
        | none => s.setAll [(ob 0x2F00 3, o), (ob 0x2F00 4, 0)]).timeEv 0x9051 1 5 (u16 o)))

/-- O44. The commands of the event journal complete. Command 1 of JournalControl empties the ring, a read of Entry or
RemoteEntry answers the entry and advances the path's index, pushed entries are stored and acknowledged, an
acknowledgement advances AckedIndex, cells not acknowledged are sent again, and a rate-limit period that ends
writes its gathering entry. (R281, R282, R283, R479) -/
def Obligations.JournalCommandsComplete : Prop :=
  (∀ (s y : State) (p : Path),
      s.takes p 0x2F10 1 →
      y = (s.touch p).cmdAccept 0x2F10 1 p →
      exec (.journalClear p) s = .next ((y.clearJournal (y.session p).id).cmdCommit 0x2F10 0)) ∧
  (∀ (s : State) (p : Path),
      p.ok = true →
      s.reach = true →
      exec (.journalEntryRead p) s = .next (((s.takeEntry p).2.touch p).answer p 0x2F11 2 (s.takeEntry p).1)) ∧
  (∀ (s : State) (p : Path) (t : Nat),
      p.ok = true →
      s.part.hasTrunk t = true →
      s.reach = true →
      exec (.remoteEntryRead p t) s = .next (((s.takeRemote p t).2.touch p).answer p (0x2F18 + t) 6 (s.takeRemote p t).1)) ∧
  (∀ (s y : State) (t n : Nat) (b : Bytes) (r : List (Nat × Bytes)) (e : Bytes),
      s.trained t = true →
      32 ≤ b.length →
      y = forAll (fun b s => s.pushStore t b) (entriesOf (min 7 (b.length / 32)) b) s →
      (y.plt t).ring = (n, e) :: r →
      exec (.journalPushCellReceived t b) s = .next (y.emit 3 [t] (y.newCell 3 0 (u32 n)))) ∧
  (∀ (s : State) (t i a : Nat),
      s.trained t = true →
      a = (s.get (pushKey t 1) + 2 ^ 32 - (s.get (pushKey t 1) + 65536 - i % 65536) % 65536) % 2 ^ 32 →
      exec (.journalAckReceived t i) s = .next ((s.set (pushKey t 2) a).updPl t fun x =>
        { x with pushSerial := some (s.get (tk t 1 0x0C)), pushes := x.pushes.filter fun e => decide (e.1 ≠ a ∧ (e.1 + 2 ^ 32 - a) % 2 ^ 32 < 2 ^ 31) })) ∧
  (∀ (s y : State) (t : Nat),
      s.trained t = true →
      y = forAll (fun (e : Nat × List Nat × Nat) s => s.pushSend t e.2.1) ((s.plt t).pushes.filter fun e => decide (e.2.2 + msec 1 ≤ s.clock)) s →
      exec (.journalPushRetransmit t) s = .next (y.updPl t fun x =>
            { x with pushes := x.pushes.map fun e => if e.2.2 + msec 1 ≤ y.clock then (e.1, e.2.1, y.clock) else e })) ∧
  (∀ (s : State) (c i : Nat) (r : Rate),
      c ≠ 0xD002 →
      s.rates.filter (fun r => decide (r.code = c ∧ r.inst = i)) = [r] →
      s.rateDue r = true →
      exec (.rateLimitPeriodEnd c i) s =
        .next (if c = 0x4050 ∧ (s.rateEnd r).sharedFull then (s.rateEnd r).sharedGone else s.rateEnd r))

/-- O45. PCIe links, the queue engine and every NVMe command complete. In the states that the rules name, a PCIe link
goes up or down, a drive is ready or fails, a doorbell is rung, every NVMe command of the server is fetched and
forwarded or completed with the status of R295, storage units and drive completions are acted on, and the commands
of the storage objects commit. (R292, R293, R294, R295, R297, R298, R309, R312) -/
def Obligations.StorageEngineCommandsComplete : Prop :=
  (∀ (s y : State) (p speed width : Nat),
      s.part.hasPcie p = true →
      s.domainOn 11 = true →
      s.get (pcieCfg p 1) = 1 →
      s.get (pcieStat p 1) ≠ 2 →
      1 ≤ speed ∧ speed ≤ s.get (pcieCfg p 3) →
      width ≤ s.get (pcieCfg p 4) →
      width = 1 ∨ width = 2 ∨ width = 4 →
      y = ((s.setAll [(pcieStat p 1, 2), (pcieStat p 2, speed), (pcieStat p 3, width)]).updPcie p (fun x => { x with master := true, d3hot := false, readSize := 512 })).ev 0xA001 p 0 (208 + p) (u16 p ++ u16 2 ++ u16 speed ++ u16 width) →
      exec (.pcieLinkUp p speed width) s = .next (if !y.isRoot p then y.send (.endpoint p (y.presents p)) else if y.queueMode then y.driveBegin p else y)) ∧
  (∀ (s : State) (p : Nat),
      s.part.hasPcie p = true →
      s.get (pcieStat p 1) ≠ 0 →
      exec (.pcieLinkDown p) s = .next (s.pcieLinkLost p)) ∧
  (∀ (s y : State) (p csts : Nat) (spaces : List (Nat × Nat × Nat)),
      s.pcieUp p = true →
      s.isRoot p = true →
      s.queueMode = true →
      s.get (pcieStat p 4) = 1 →
      csts.testBit 1 = false →
      y = ((s.driveQueues p).updPcie p (fun x => { x with spaces })).driveState p 2 csts →
      exec (.driveReady p csts spaces) s = .next (forAll (fun n s =>
        if s.tstate n = 3 ∧ s.tcfg n 2 = 1 ∧ s.tcfg n 6 = 18 ∧ s.tcfg n 8 / 4096 = p then s.sendNsInfo n (s.tcfg n 8) else s) y.liveTunnels y)) ∧
  (∀ (s : State) (p : Nat) (x : InitStat),
      s.part.hasPcie p = true →
      s.isRoot p = true →
      s.get (pcieStat p 4) = 1 →
      (s.pcie p).initAt + msec (500 * x.readyTime) ≤ s.clock →
      exec (.driveInitTimeout p x) s = .next (s.driveState p 3 x.csts)) ∧
  (∀ (s : State) (p q tail : Nat) (x : Sq),
      Sparse.find q (s.pcie p).sqs = some x →
      s.nvmeOn p = true →
      tail < x.size →
      exec (.nvmeSqDoorbell p q tail) s = .next ((s.count (pcieStat p 5) 1).updPcie p fun y => { y with sqs := Sparse.ins q { x with tail } (Sparse.drop q y.sqs) })) ∧
  (∀ (s y : State) (p q cid : Nat) (x : Sq) (nsid slba blocks : Nat) (prps : List Nat),
      Sparse.find q (s.pcie p).sqs = some x →
      s.nvmeOn p = true →
      s.masters p = true →
      x.head ≠ x.tail →
      y = ((s.count (pcieStat p 6) 1).count (pcieStat p 5) 1).updPcie p (fun z => { z with sqs := Sparse.ins q { x with head := (x.head + 1) % max 1 x.size } (Sparse.drop q z.sqs) }) →
      exec (.nvmeRead p q cid nsid slba blocks prps) s = .next (y.nvForward p q cid nsid 2 slba blocks ⟨prps, []⟩)) ∧
  (∀ (s y : State) (p q cid : Nat) (x : Sq) (nsid slba blocks : Nat) (buf : HostBuf),
      Sparse.find q (s.pcie p).sqs = some x →
      s.nvmeOn p = true →
      s.masters p = true →
      x.head ≠ x.tail →
      y = ((s.count (pcieStat p 6) 1).count (pcieStat p 5) 1).updPcie p (fun z => { z with sqs := Sparse.ins q { x with head := (x.head + 1) % max 1 x.size } (Sparse.drop q z.sqs) }) →
      exec (.nvmeWrite p q cid nsid slba blocks buf) s = .next (y.nvForward p q cid nsid 1 slba blocks buf)) ∧
  (∀ (s y : State) (p q cid : Nat) (x : Sq) (nsid : Nat),
      Sparse.find q (s.pcie p).sqs = some x →
      s.nvmeOn p = true →
      s.masters p = true →
      x.head ≠ x.tail →
      y = ((s.count (pcieStat p 6) 1).count (pcieStat p 5) 1).updPcie p (fun z => { z with sqs := Sparse.ins q { x with head := (x.head + 1) % max 1 x.size } (Sparse.drop q z.sqs) }) →
      exec (.nvmeFlush p q cid nsid) s = .next (y.nvForward p q cid nsid 0 0 0 ⟨[], []⟩)) ∧
  (∀ (s y : State) (p q cid : Nat) (x : Sq) (nsid slba blocks : Nat),
      Sparse.find q (s.pcie p).sqs = some x →
      s.nvmeOn p = true →
      s.masters p = true →
      x.head ≠ x.tail →
      y = ((s.count (pcieStat p 6) 1).count (pcieStat p 5) 1).updPcie p (fun z => { z with sqs := Sparse.ins q { x with head := (x.head + 1) % max 1 x.size } (Sparse.drop q z.sqs) }) →
      exec (.nvmeWriteZeroes p q cid nsid slba blocks) s = .next (y.nvForward p q cid nsid 8 slba blocks ⟨[], []⟩)) ∧
  (∀ (s y : State) (p cid : Nat) (x : Sq) (nsid : Nat),
      Sparse.find 0 (s.pcie p).sqs = some x →
      s.nvmeOn p = true →
      s.masters p = true →
      x.head ≠ x.tail →
      y = ((s.count (pcieStat p 6) 1).count (pcieStat p 5) 1).updPcie p (fun z => { z with sqs := Sparse.ins 0 { x with head := (x.head + 1) % max 1 x.size } (Sparse.drop 0 z.sqs) }) →
      exec (.nvmeIdentify p cid 2 nsid) s = .next ((y.draw).2.nvReply p cid (fitBytes 4096 (((upTo 1025).filter fun k => decide (nsid < k) && ((y.draw).2.activeNs p).contains k).map u32).flatten))) ∧
  (∀ (s y : State) (p cid : Nat) (x : Sq) (n size vec : Nat) (ien : Bool),
      Sparse.find 0 (s.pcie p).sqs = some x →
      s.nvmeOn p = true →
      s.masters p = true →
      x.head ≠ x.tail →
      y = ((s.count (pcieStat p 6) 1).count (pcieStat p 5) 1).updPcie p (fun z => { z with sqs := Sparse.ins 0 { x with head := (x.head + 1) % max 1 x.size } (Sparse.drop 0 z.sqs) }) →
      1 ≤ n ∧ n ≤ 16 →
      2 ≤ size ∧ size ≤ 1024 →
      vec < 64 →
      Sparse.find n (y.pcie p).cqs = none →
      exec (.nvmeCreateIoQueue p cid false n size vec ien) s = .next ((y.updPcie p fun z => { z with cqs := Sparse.ins n { size, vector := vec, ien } z.cqs }).cqEntry p 0 cid 0 0)) ∧
  (∀ (s y : State) (p cid : Nat) (x : Sq) (n size cq : Nat) (ien : Bool),
      Sparse.find 0 (s.pcie p).sqs = some x →
      s.nvmeOn p = true →
      s.masters p = true →
      x.head ≠ x.tail →
      y = ((s.count (pcieStat p 6) 1).count (pcieStat p 5) 1).updPcie p (fun z => { z with sqs := Sparse.ins 0 { x with head := (x.head + 1) % max 1 x.size } (Sparse.drop 0 z.sqs) }) →
      1 ≤ n ∧ n ≤ 16 →
      2 ≤ size ∧ size ≤ 1024 →
      cq ≠ 0 ∧ (Sparse.find cq (y.pcie p).cqs).isNone = false →
      Sparse.find n (y.pcie p).sqs = none →
      exec (.nvmeCreateIoQueue p cid true n size cq ien) s = .next ((y.updPcie p fun z => { z with sqs := Sparse.ins n { size, cq } z.sqs }).cqEntry p 0 cid 0 0)) ∧
  (∀ (s y : State) (p cid : Nat) (x : Sq) (n : Nat),
      Sparse.find 0 (s.pcie p).sqs = some x →
      s.nvmeOn p = true →
      s.masters p = true →
      x.head ≠ x.tail →
      y = ((s.count (pcieStat p 6) 1).count (pcieStat p 5) 1).updPcie p (fun z => { z with sqs := Sparse.ins 0 { x with head := (x.head + 1) % max 1 x.size } (Sparse.drop 0 z.sqs) }) →
      n ≠ 0 →
      (Sparse.find n (y.pcie p).sqs).isNone = false →
      exec (.nvmeDeleteIoQueue p cid true n) s = .next ((y.updPcie p fun z => { z with sqs := Sparse.drop n z.sqs, cmds := z.cmds.filter fun c => decide (c.sq ≠ n) }).cqEntry p 0 cid 0 0)) ∧
  (∀ (s y : State) (p cid : Nat) (x : Sq) (lid len : Nat),
      Sparse.find 0 (s.pcie p).sqs = some x →
      s.nvmeOn p = true →
      s.masters p = true →
      x.head ≠ x.tail →
      y = ((s.count (pcieStat p 6) 1).count (pcieStat p 5) 1).updPcie p (fun z => { z with sqs := Sparse.ins 0 { x with head := (x.head + 1) % max 1 x.size } (Sparse.drop 0 z.sqs) }) →
      lid = 1 ∨ lid = 2 →
      exec (.nvmeGetLogPage p cid lid len) s = .next ((y.draw).2.nvReply p cid (fitBytes len (if lid = 2 then Config.farHealth ((y.draw).2.nsFirst p) (y.draw).1 else Config.nvmeFill p (256 + lid) 0 (y.draw).1)))) ∧
  (∀ (s y : State) (p cid : Nat) (x : Sq) (fid : Nat),
      Sparse.find 0 (s.pcie p).sqs = some x →
      s.nvmeOn p = true →
      s.masters p = true →
      x.head ≠ x.tail →
      y = ((s.count (pcieStat p 6) 1).count (pcieStat p 5) 1).updPcie p (fun z => { z with sqs := Sparse.ins 0 { x with head := (x.head + 1) % max 1 x.size } (Sparse.drop 0 z.sqs) }) →
      nvFeature fid = true →
      exec (.nvmeGetFeatures p cid fid) s = .next (y.cqEntry p 0 cid 0 (if fid = 7 then 0x000F000F else Sparse.get 0 (y.pcie p).feats fid))) ∧
  (∀ (s y : State) (p cid : Nat) (x : Sq) (fid n : Nat),
      Sparse.find 0 (s.pcie p).sqs = some x →
      s.nvmeOn p = true →
      s.masters p = true →
      x.head ≠ x.tail →
      y = ((s.count (pcieStat p 6) 1).count (pcieStat p 5) 1).updPcie p (fun z => { z with sqs := Sparse.ins 0 { x with head := (x.head + 1) % max 1 x.size } (Sparse.drop 0 z.sqs) }) →
      nvFeature fid = true →
      exec (.nvmeSetFeatures p cid fid n) s = .next ((y.updPcie p fun z => { z with feats := Sparse.put 0 fid n z.feats }).cqEntry p 0 cid 0 (if fid = 7 then 0x000F000F else 0))) ∧
  (∀ (s y : State) (p cid : Nat) (x : Sq),
      Sparse.find 0 (s.pcie p).sqs = some x →
      s.nvmeOn p = true →
      s.masters p = true →
      x.head ≠ x.tail →
      y = ((s.count (pcieStat p 6) 1).count (pcieStat p 5) 1).updPcie p (fun z => { z with sqs := Sparse.ins 0 { x with head := (x.head + 1) % max 1 x.size } (Sparse.drop 0 z.sqs) }) →
      exec (.nvmeAbort p cid) s = .next (y.cqEntry p 0 cid 0 1)) ∧
  (∀ (s y : State) (p cid : Nat) (x : Sq),
      Sparse.find 0 (s.pcie p).sqs = some x →
      s.nvmeOn p = true →
      s.masters p = true →
      x.head ≠ x.tail →
      y = ((s.count (pcieStat p 6) 1).count (pcieStat p 5) 1).updPcie p (fun z => { z with sqs := Sparse.ins 0 { x with head := (x.head + 1) % max 1 x.size } (Sparse.drop 0 z.sqs) }) →
      (y.pcie p).notice = false →
      exec (.nvmeAsyncEventRequest p cid) s = .next (y.updPcie p fun z => { z with aers := z.aers ++ [cid] })) ∧
  (∀ (s y : State) (p q cid : Nat) (x : Sq),
      Sparse.find q (s.pcie p).sqs = some x →
      s.nvmeOn p = true →
      s.masters p = true →
      x.head ≠ x.tail →
      y = ((s.count (pcieStat p 6) 1).count (pcieStat p 5) 1).updPcie p (fun z => { z with sqs := Sparse.ins q { x with head := (x.head + 1) % max 1 x.size } (Sparse.drop q z.sqs) }) →
      exec (.nvmeInvalidOpcode p q cid) s = .next (y.cqEntry p q cid (nvStatus 0 1) 0)) ∧
  (∀ (s y : State) (n : Nat) (u : SUnit) (mark : UnitMark),
      n < 4096 →
      s.domainOn 11 = true →
      s.queueMode = true →
      s.tstate n = 3 →
      s.tcfg n 2 = 1 →
      s.get (tunKey n 0x12) = 2 →
      s.tcfg n 6 = 18 →
      s.stor.held = [] ∧ s.seqGap n mark.seq = false →
      mark.damaged = false ∧ s.hurtOf n mark.seq (storageBytes u).length = 0 →
      y = s.hurtDone n mark.seq (storageBytes u).length →
      exec (.storageUnitReceived n u mark) s = .next (y.driveUnit n (y.tcfg n 8 / 4096) (y.tcfg n 8 % 4096) u false)) ∧
  (∀ (s y : State) (n : Nat) (u : SUnit) (mark : UnitMark),
      n < 4096 →
      s.domainOn 11 = true →
      s.queueMode = true →
      s.tstate n = 3 →
      s.tcfg n 2 = 1 →
      s.get (tunKey n 0x12) = 2 →
      s.tcfg n 6 = 12 ∨ s.tcfg n 6 = 13 →
      s.stor.held = [] ∧ s.seqGap n mark.seq = false →
      mark.damaged = false ∧ s.hurtOf n mark.seq (storageBytes u).length = 0 →
      y = s.hurtDone n mark.seq (storageBytes u).length →
      exec (.storageUnitReceived n u mark) s = .next (y.serverUnit n (y.tcfg n 6 - 12) u false)) ∧
  (∀ (s x y : State) (p own st : Nat) (c : DrCmd),
      s.part.hasPcie p = true →
      (s.pcie p).drive.find? (fun c => decide (c.own = own)) = some c →
      c.tunnel ≠ 0 →
      x = (s.count (pcieStat p 5) 1).updPcie p (fun z => { z with drive := z.drive.filter fun y => decide (y ≠ c) }) →
      y = (if c.op = 2 ∧ st = 0 then x.sendData c.tunnel c.tag (x.stageOut c.tunnel c.tag c.bytes) else x).sendUnit c.tunnel (.completion c.tag st) →
      exec (.driveCompletion p own st) s = .next (y.issueQueued p (y.pcie p).queued)) ∧
  (∀ (s y : State) (p : Path),
      s.takes p 0x2D00 1 →
      y = (s.touch p).cmdAccept 0x2D00 1 p →
      (([0, 1] : List Nat).flatMap fun p => if y.part.hasPcie p ∧ y.isRoot p ∧ y.get (pcieStat p 4) = 2 then (y.pcie p).spaces.map fun e => (p, e.1) else []) = [] →
      exec (.storageFlush p) s = .next (((forAll (fun (q : Nat) s => s.updPcie q fun x => { x with drive := x.drive.filter fun c => decide (c.tunnel ≠ 0) })
        [0, 1] y).updStore fun x => { x with flushLeft := 0, flushed := 0 }).cmdCommit 0x2D00 0)) ∧
  (∀ (s : State) (w : MasterWrite),
      s.pcieUp w.port = true →
      s.isRoot w.port = false →
      exec (.busMasterDisable w) s = .next (s.updPcie w.port fun x => { x with
        master := w.enable, d3hot := w.d3hot,
        readSize := (if w.readSize.any (fun n => [128, 256, 512, 1024, 2048, 4096].contains n) then w.readSize.getD 512 else x.readSize) })) ∧
  (∀ (s : State) (p : Path) (n : Nat),
      s.part.hasPcie n = true →
      s.takes p (0x2D03 + n) 1 →
      exec (.pcieClearCounters p n) s = .next ((((s.touch p).cmdAccept (0x2D03 + n) 1 p).clear
        (([5, 6, 7, 8, 9, 0x0A, 0x0C] : List Nat).map fun k => pcieStat n k)).cmdCommit (0x2D03 + n) 0))

/-- O46. The commands of the window bridge complete. In the states that the rules name, a write or a read into a
window crosses its tunnel, a locked read and an Unlock pass, the far hub issues a unit on its bus, a completion or
a refusal ends its read, a read past CompletionTimeout is answered CA, prefetched bytes age, and the commands of a
window commit. (R299, R300, R301, R302, R303, R304, R305, R306, R308, R313) -/
def Obligations.WindowBridgeCommandsComplete : Prop :=
  (∀ (s y : State) (p addr be : Nat) (data : TlpData),
      s.pcieUp p = true →
      s.writeHeld p addr = false →
      data.kind = .memory ∧ data.ecrcBad = false ∧ data.replays = 0 →
      y = s.count (pcieStat p 5) 1 →
      exec (.windowWriteRequest p addr be data) s = .next ((if data.poisoned then y.pcieErrors p 0 1 0 0 else y).windowWrite p addr be data.bytes data.poisoned)) ∧
  (∀ (s y : State) (p addr be : Nat) (data : TlpData),
      s.pcieUp p = true →
      s.writeHeld p addr = false →
      data.kind ≠ .memory ∧ data.ecrcBad = false ∧ data.replays = 0 →
      y = s.count (pcieStat p 5) 1 →
      exec (.windowWriteRequest p addr be data) s = .next ((y.pcieErrors p 0 0 1 0).complete p data.tag 1 false [])) ∧
  (∀ (s : State) (p addr len be tag : Nat),
      s.pcieUp p = true →
      s.readHeld p addr len false = false →
      exec (.windowReadRequest p addr len be tag) s = .next ((s.count (pcieStat p 5) 1).windowRead p addr len be tag false)) ∧
  (∀ (s : State) (p addr len tag w : Nat),
      s.pcieUp p = true →
      s.findWin p addr = some w →
      s.isRoot p = false →
      s.get (pcieCfg p 0x0A) = 1 →
      s.win w 9 = 1 →
      s.readHeld p addr len true = false →
      exec (.mrdlkRequest p addr len tag) s = .next ((s.count (pcieStat p 5) 1).windowRead p addr len 255 tag true)) ∧
  (∀ (s : State) (p : Nat),
      s.pcieUp p = true →
      s.isRoot p = false →
      ∃ f, exec (.unlockMessage p) s = .next (forAll f s.stor.lockedWins (s.count (pcieStat p 5) 1)) ∧
        ∀ w (y : State), f w y = if y.win w 2 = 12 + p then ((y.updStore fun x => { x with lockedWins := x.lockedWins.filter fun k => decide (k ≠ w) }).windowUnit
          (y.win w 5) 4 w 0 1 0 0 (y.win w 6) []).lockEv w (y.win w 5) 3 (Config.farPort (y.win w 5)) else y) ∧
  (∀ (s : State) (n p w tag len be addr seq bs : Nat) (unit bd : Bytes),
      n < 4096 →
      s.domainOn 11 = true →
      s.live n = true →
      s.tcfg n 2 = 1 →
      s.get (tunKey n 0x12) = 1 →
      p < 2 →
      s.tcfg n 6 = 12 + p →
      byteAt unit 0 = 2 →
      w = byteAt unit 1 % 64 ∧ tag = leAt unit 2 2 ∧ len = leAt unit 4 2 ∧ be = byteAt unit 6 ∧ addr = leAt unit 8 8 →
      s.isFenced n = false →
      s.pcieUp p = true →
      s.masters p = true →
      (s.pcie p).lockTunnel = 0 →
      s.stor.held = [] ∧ s.seqGap n seq = false ∧ s.hurtOf n seq unit.length = 0 →
      exec (.windowUnitReceived n 0 seq unit bs bd) s = .next ((s.farRead p addr len be).busAnswer n p w tag len be addr bs bd)) ∧
  (∀ (s : State) (n p len be addr seq bs : Nat) (unit bd : Bytes),
      n < 4096 →
      s.domainOn 11 = true →
      s.live n = true →
      s.tcfg n 2 = 1 →
      s.get (tunKey n 0x12) = 1 →
      p < 2 →
      s.tcfg n 6 = 12 + p →
      byteAt unit 0 = 1 →
      len = leAt unit 4 2 ∧ be = byteAt unit 6 ∧ addr = leAt unit 8 8 →
      s.isFenced n = false →
      s.pcieUp p = true →
      s.masters p = true →
      (s.pcie p).lockTunnel = 0 →
      s.stor.held = [] ∧ s.seqGap n seq = false ∧ s.hurtOf n seq unit.length = 0 →
      exec (.windowUnitReceived n 0 seq unit bs bd) s = .next ((s.dropAll (s.winsOf n)).farWrite p addr be (fitBytes (4 * len) (unit.drop 16)))) ∧
  (∀ (s : State) (n seq : Nat) (unit : Bytes) (r r' : WinRead),
      n < 4096 →
      s.domainOn 11 = true →
      s.live n = true →
      s.tcfg n 2 = 1 →
      s.get (tunKey n 0x12) = 1 →
      s.stor.reads.find? (fun r => decide (r.tag = leAt unit 2 2 ∧ r.win = byteAt unit 1 % 64 ∧ s.win (byteAt unit 1 % 64) 5 = n)) = some r →
      r.runs = 1 →
      byteAt unit 7 = 0 →
      r' = { r with runs := 0, data := s.readBytes (byteAt unit 1 % 64) (leAt unit 8 8) (byteAt unit 6) (unit.drop 16) r.data } →
      s.stor.held = [] ∧ s.seqGap n seq = false ∧ s.hurtOf n seq unit.length = 0 →
      exec (.windowCompletionReceived n 0 seq unit) s = .next ((s.updStore fun x => { x with reads := x.reads.filter fun y => decide (y ≠ r) }).readDone n r')) ∧
  (∀ (s : State) (n : Nat) (unit : Bytes) (r : WinRead),
      n < 4096 →
      s.stor.reads.find? (fun r => decide (r.tag = leAt unit 2 2 ∧ r.win = byteAt unit 1 % 64 ∧ r.locked ∧ s.win (byteAt unit 1 % 64) 5 = n)) = some r →
      exec (.lockRefusedReceived n unit) s = .next ((s.updStore fun x => { x with reads := x.reads.filter fun y => decide (y ≠ r) }).refuseLock
          (s.win (byteAt unit 1 % 64) 2 - 12) (byteAt unit 1 % 64) r.reqTag)) ∧
  (∀ (s y : State) (tag : Nat) (r : WinRead),
      s.stor.reads.find? (fun r => decide (r.tag = tag ∧ r.since + usec (s.get (ob 0x2D00 4)) < s.clock)) = some r →
      y = s.updStore (fun x => { x with reads := x.reads.filter fun y => decide (y ≠ r) }) →
      exec (.completionTimeout tag) s = .next (((y.evRate 0xA031 r.win 2 214 (sec 1) (u16 r.win ++ u16 (y.win r.win 5)) [1, 0] []).pcieErrors
        (s.win r.win 2 - 12) 0 0 0 1).complete (s.win r.win 2 - 12) r.reqTag 2 r.locked [])) ∧
  (∀ (s : State) (w : Nat),
      w < 64 →
      exec (.prefetchLifeExpired w) s = .next (s.dropFetched [w] fun c => decide (c + usec (s.get (ob 0x2D00 5)) ≤ s.clock))) ∧
  (∀ (s y : State) (p : Path) (w : Nat),
      w < 64 →
      s.takes p (0x2D40 + w) 1 →
      y = (s.touch p).cmdAccept (0x2D40 + w) 1 p →
      exec (.windowUnfence p w) s = .next ((y.updStore fun x => { x with fenced := x.fenced.filter fun n => decide (n ≠ y.winTunnel w) }).cmdCommit (0x2D40 + w) 0)) ∧
  (∀ (s y : State) (p : Path) (w : Nat),
      w < 64 →
      s.takes p (0x2D40 + w) 2 →
      y = (s.touch p).cmdAccept (0x2D40 + w) 2 p →
      exec (.windowClearCounters p w) s = .next ((y.clear ((upTo 9).map fun k => winKey w (0x0B + k))).cmdCommit (0x2D40 + w) 0)) ∧
  (∀ (s y : State) (p addr be len tag : Nat) (data : TlpData),
      s.pcieUp p = true →
      s.isRoot p = true →
      data.kind = .memory ∧ data.ecrcBad = false ∧ data.replays = 0 ∧ data.poisoned = false →
      s.stagingFree = true →
      y = s.count (pcieStat p 5) 1 →
      y.get (ob 0x2D00 1) ≤ addr ∧ addr < y.get (ob 0x2D00 1) + y.stagingSize →
      s.deviceReadHeld p addr len = false →
      exec (.rootPortDeviceRequest p true addr len be tag data) s = .next ((y.stagingTakes data.bytes.length).dramEnabled addr be data.bytes) ∧
        exec (.rootPortDeviceRequest p false addr len be tag data) s = .next (y.complete p tag 0 false (y.dramRead (addr / 4 * 4) (4 * len))))

/-- O47. The commands of CAN, the serial ports, map entries and GOOSE complete. In the states that the rules name, a
CAN frame is counted and filtered, a bus goes off and comes back, a serial unit is closed or transmitted, a field
unit is sent on its port, a map entry goes stale, and the timers of CanTxFrames and GOOSE act. (R317, R318, R320,
R322, R326, R327, R328, R329, R330, R331, R335) -/
def Obligations.FieldCommandsComplete : Prop :=
  (∀ (s y : State) (c at_ a : Nat) (f : CanFrame),
      c < 2 →
      s.get (ob (0x2E01 + c) 1) = 1 →
      s.reach = true ∧ s.fieldOn = true →
      s.get (canStat c 1) ≠ 2 →
      y = (s.count (canStat c 2) 1).canHeard c →
      y.fieldOn = true →
      y.canFilter c f = some a →
      a.testBit 0 = true →
      a.testBit 1 = false →
      exec (.canFrameReceived c f at_) s = .next ((y.fieldUnit c (canUnit c at_ f)).2)) ∧
  (∀ (s y : State) (c at_ : Nat) (f : CanFrame),
      c < 2 →
      s.get (ob (0x2E01 + c) 1) = 1 →
      s.reach = true ∧ s.fieldOn = true →
      s.get (canStat c 1) ≠ 2 →
      y = (s.count (canStat c 2) 1).canHeard c →
      y.fieldOn = true →
      y.canFilter c f = none →
      (c = 0 → y.reservedId f.ide f.id = false) →
      exec (.canFrameReceived c f at_) s = .next (y.canDrop c 0 1)) ∧
  (∀ (s y : State) (c tec rec_ new : Nat),
      c < 2 →
      s.reach = true →
      s.get (canStat c 1) ≠ 2 →
      y = s.updCanp c (fun x => { x with tec, rec_ }) →
      (new = 2 ∧ 256 ≤ tec) ∨ (new = 1 ∧ tec < 256 ∧ (128 ≤ tec ∨ 128 ≤ rec_)) ∨ (new = 0 ∧ tec < 128 ∧ rec_ < 128) →
      exec (.canBusOff c tec rec_) s = .next (if s.get (canStat c 1) = new then y else y.busState c new tec rec_)) ∧
  (∀ (s : State) (c : Nat),
      c < 2 →
      s.reach = true →
      s.get (canStat c 1) = 2 →
      s.get (ob (0x2E01 + c) 6) = 0 →
      exec (.canBusOffRecovery c) s = .next ((s.updCanp c fun x => { x with tec := 0, rec_ := 0 }).busState c 0 0 0)) ∧
  (∀ (s y : State) (p : Path) (c : Nat),
      c < 2 →
      s.takes p (0x2E03 + c) 1 →
      y = (s.touch p).cmdAccept (0x2E03 + c) 1 p →
      exec (.canLeaveBusOff p c) s = .next ((if y.get (canStat c 1) = 2 then (y.updCanp c fun x => { x with tec := 0, rec_ := 0 }).busState c 0 0 0 else y).cmdCommit (0x2E03 + c) 0)) ∧
  (∀ (s x y : State) (u f at_ : Nat) (data : Bytes),
      s.part.hasUart u = true →
      s.fieldOn = true →
      s.get (ob (0x2E08 + u) 1) ≠ 0 →
      x = s.uartSettle u →
      (x.uart u).driving = false →
      data.length ≤ 220 ∧ data.length + (x.uart u).filled ≤ 1024 →
      y = x.uartErrors u (field f 1 1) (field f 2 1) (field f 3 1) 0 →
      exec (.uartUnitClose u f at_ data) s = .next ((y.updUart u fun z => { z with rx := z.rx ++ [(f, at_ + y.uartChars u 0, data)], heardAt := y.clock }).uartSettle u)) ∧
  (∀ (s y : State) (u n : Nat),
      n = (s.uart u).rx.length →
      (s.uart u).driving = false →
      s.fieldOn = true →
      s.serialHeld u = false →
      y = forAll (fun e z => z.serialUnit u e) (s.uart u).rx (s.updUart u fun x => { x with rx := [] }) →
      y.fieldOn = true →
      s.uartSettle u = (if n = 0 then s else y).uartRts u) ∧
  (∀ (s y : State) (u : Nat) (cts : Bool) (d : Bytes) (r : List Bytes),
      s.part.hasUart u = true →
      s.fieldOn = true →
      y = s.uartSettle u →
      y.get (ob (0x2E08 + u) 1) = 2 ∧ Sparse.get [] y.fld.uarts u = d :: r ∧ y.fieldOn = true →
      (y.uart u).busyTo ≤ y.clock ∧ d.length ≤ 1024 →
      exec (.uartUnitTransmit u cts) s = .next (((y.updFld fun x => { x with uarts := Sparse.put [] u r x.uarts }).updUart u fun x =>
        { x with busyTo := y.clock + y.uartChars u d.length }).send (.serial u d))) ∧
  (∀ (s : State) (n : Nat) (unit : Bytes) (mark : UnitMark),
      n < 4096 →
      s.tstate n = 3 ∨ s.tstate n = 4 →
      s.tcfg n 2 = 4 →
      s.transit n = false →
      s.fieldOn = true →
      s.tcfg n 8 = 1 →
      byteAt unit 0 = 1 →
      s.fld.held = [] ∧ s.seqGap n mark.seq = false →
      mark.damaged = false →
      exec (.fieldUnitReceived n unit mark) s = .next (s.canSend 1 (unitCan unit))) ∧
  (∀ (s : State) (n : Nat) (unit : Bytes) (mark : UnitMark),
      n < 4096 →
      s.fld.held = [] →
      s.seqGap n mark.seq = true →
      exec (.fieldUnitReceived n unit mark) s =
        .next (s.updFld fun x => { x with held := [{ tunnel := n, seq := mark.seq, unit, bad := mark.damaged }] })) ∧
  (∀ (s : State) (m : Nat),
      m < 1024 →
      s.mapping = true →
      s.get (mapKey m 1) = 1 →
      s.mcfg m 0x13 ≠ 0 →
      (s.mapEntry m).updated + msec (s.mcfg m 0x13) ≤ s.clock →
      exec (.staleTimeExpired m) s = .next (s.mapStale m 1)) ∧
  (∀ (s : State) (k : Nat),
      k < 64 →
      s.fieldOn = true →
      s.get (ob (0x2E40 + k) 4) ≠ 0 →
      (s.canTx k).cycleAt + msec (s.get (ob (0x2E40 + k) 4)) ≤ s.clock →
      exec (.canTxCycleTimer k) s = .next ((s.updCanTx k fun x => { x with cycleAt := s.clock }).canTrigger k)) ∧
  (∀ (s : State) (k : Nat),
      k < 64 →
      s.fieldOn = true →
      (s.canTx k).deferred = true →
      s.inhibited k = false →
      exec (.canTxInhibitEnd k) s = .next (s.canTxNow k)) ∧
  (∀ (s : State) (g : Nat),
      g < 16 →
      s.fieldOn = true →
      s.get (pubKey g 1) = 1 →
      (s.pub g).interval ≠ 0 →
      (s.pub g).sentAt + msec (s.pub g).interval ≤ s.clock →
      exec (.gooseRepeatTimer g) s = .next (s.goosePublish g (min (2 * (s.pub g).interval) (s.get (pubKey g 0x0A))))) ∧
  (∀ (s y : State) (k : Nat),
      k < 16 →
      (s.gsub k).alive = true ∧ s.get (subKey k 1) = 1 →
      (s.gsub k).at_ + msec (s.gsub k).tal ≤ s.clock →
      y = (s.updGsub k (fun x => { x with alive := false })).count (subKey k 5) 1 →
      y.mapping = false →
      exec (.gooseTalExpired k) s = .next (y.ev 0xB030 k 3 248 (u16 k ++ u16 (y.get (subKey k 2)) ++ u32 (s.gsub k).st))) ∧
  (∀ (s y : State) (p : Path) (m sub x : Nat),
      m < 1024 →
      sub = 0x16 ∨ sub = 0x17 →
      s.allows p (0x5000 + m) sub x →
      s.hostMaps = true →
      y = (s.touch p).setAll [(mapKey m sub, withoutReserved (0x5000 + m) sub x), (mapKey m 0x18, s.station)] →
      exec (.signalValueWrite p m sub x) s = .next ((if y.get (mapKey m 1) = 1 ∧ y.fieldOn then y.mapPack m else y).tpdoCheck))

/-- O48. The commands of keys, the life cycle, tampering and statements complete. Where the block of 0x4002 or 0x4000
takes the command, a slot receives its key or the command fails with the Result of R346, a slot is destroyed, the
life cycle advances and the customer hash is programmed; a tamper source is recorded and its latches cleared;
self-tests and statements complete. (R339, R342, R346, R348, R350, R351, R354, R355, R356, R358, R360) -/
def Obligations.SecurityCommandsComplete : Prop :=
  (∀ (s y : State) (p : Path) (k : Nat),
      s.takes p 0x4002 1 →
      k = s.slotOf p →
      k ≠ 0 →
      s.slotValid k = false →
      k < 112 →
      y = (s.touch p).cmdAccept 0x4002 1 p →
      exec (.keyDerive ⟨p, false⟩) s = .next (Sum.elim (fun key => ((y.fillSlot k key).keyCreated k 1).cmdCommit 0x4002 0) (fun r => y.cmdFail 0x4002 r) (y.workKey k 1))) ∧
  (∀ (s y : State) (p : Path) (k : Nat),
      s.takes p 0x4002 2 →
      k = s.slotOf p →
      k ≠ 0 →
      s.slotValid k = false →
      k < 112 →
      y = (s.touch p).cmdAccept 0x4002 2 p →
      exec (.keyAgree ⟨p, false⟩) s = .next (Sum.elim (fun key => ((y.fillSlot k key).keyCreated k 2).cmdCommit 0x4002 0) (fun r => y.cmdFail 0x4002 r) (y.workKey k 2))) ∧
  (∀ (s y : State) (p : Path) (k : Nat),
      s.takes p 0x4002 3 →
      k = s.slotOf p →
      k ≠ 0 →
      s.slotValid k = false →
      k < 112 →
      y = (s.touch p).cmdAccept 0x4002 3 p →
      exec (.keyImport ⟨p, false⟩) s = .next (Sum.elim (fun key => ((y.fillSlot k key).keyCreated k 3).cmdCommit 0x4002 0) (fun r => y.cmdFail 0x4002 r) (y.workKey k 3))) ∧
  (∀ (s y : State) (p : Path) (cut : Bool),
      s.takes p 0x4002 4 →
      s.slotOf p ≠ 0 →
      s.secu.life = 0 ∨ s.secu.life = 3 ∨ s.secu.blocked = true →
      y = (s.touch p).cmdAccept 0x4002 4 p →
      exec (.keyInvalidate ⟨p, cut⟩) s = .next (y.cmdFail 0x4002 (if cut ∧ s.secu.blocked then 8 else 7))) ∧
  (∀ (s y : State) (p : Path) (k : Nat) (cut : Bool),
      s.takes p 0x4002 4 →
      k = s.slotOf p →
      k ≠ 0 →
      y = (s.touch p).cmdAccept 0x4002 4 p →
      y.slotValid k = true →
      (s.secu.life = 1 ∨ s.secu.life = 2) ∧ s.secu.blocked = false →
      exec (.keyInvalidate ⟨p, cut⟩) s = .next (((y.destroy [k] 1).revoke p k).cmdCommit 0x4002 ((y.boundTo [k]).length * 256))) ∧
  (∀ (s y : State) (p : Path),
      s.takes p 0x4000 0x5A5A5A01 →
      s.secu.life = 1 →
      y = (s.touch p).cmdAccept 0x4000 0x5A5A5A01 p →
      ((upTo 16).any fun c => y.credential c && decide (y.get (slotKey (112 + c) 0x0D) = 3)) = true →
      exec (.enterOperational p 0x5A5A5A) s = .next ((y.toLife 2 1).cmdCommit 0x4000 0)) ∧
  (∀ (s y : State) (p : Path),
      s.takes p 0x4000 0x5A5A5A02 →
      s.secu.life = 1 ∨ s.secu.life = 2 →
      y = (s.touch p).cmdAccept 0x4000 0x5A5A5A02 p →
      exec (.decommission p 0x5A5A5A) s = .next ((y.toLife 3 1).cmdCommit 0x4000 0)) ∧
  (∀ (s y : State) (p : Path),
      s.takes p 0x4000 3 →
      s.secu.life = 1 →
      s.secu.custDone = false →
      y = (s.touch p).cmdAccept 0x4000 3 p →
      exec (.enrolCustomerKeyHash p) s = .next ((({ y with secu := { y.secu with custHash := y.get (ob 0x4000 6), custDone := true } } : State).set (ob 0x4000 5) (y.get (ob 0x4000 6))).cmdCommit 0x4000 0)) ∧
  (∀ (s y : State) (n a : Nat),
      n < 9 →
      s.dev ≠ devReset →
      s.dev ≠ devLift →
      a = s.tamperAction n →
      a = 0 ∨ s.secu.life = 3 →
      y = { s with secu := { s.secu with active := setBit s.secu.active n, latched := setBit s.secu.latched n, events := cnt 32 s.secu.events 1, lastTime := s.station, lastSource := n, lock := s.secu.lock || decide (a = 2) } } →
      exec (.tamperAlarm n true) s = .next (y.tamperEv n a 0)) ∧
  (∀ (s y : State) (n a : Nat),
      n < 9 →
      s.dev ≠ devReset →
      s.dev ≠ devLift →
      a = s.tamperAction n →
      a ≠ 0 ∧ s.secu.life ≠ 3 →
      y = { s with secu := { s.secu with active := setBit s.secu.active n, latched := setBit s.secu.latched n, events := cnt 32 s.secu.events 1, lastTime := s.station, lastSource := n, lock := s.secu.lock || decide (a = 2) } } →
      exec (.tamperAlarm n true) s = .next (if a = 3 ∧ s.secu.life ≠ 0 then ((y.tamperEv n a 0).zeroise n).toLife 3 2 else (y.tamperEv n a 0).zeroise n)) ∧
  (∀ (s : State) (n : Nat),
      n < 9 →
      exec (.tamperAlarm n false) s = .next { s with secu := { s.secu with active := clrBit s.secu.active n } }) ∧
  (∀ (s y : State) (p : Path),
      s.takes p 0x4009 1 →
      y = (s.touch p).cmdAccept 0x4009 1 p →
      exec (.tamperClear p) s = .next ((({ y with secu := { y.secu with latched := s.secu.latched &&& s.secu.active, lock := false, cold := false } } : State).ev
        0xC041 0 2 272 (u16 0 ++ u16 (y.secu.latched - (s.secu.latched &&& s.secu.active)) ++ u16 (s.secu.latched &&& s.secu.active))).cmdCommit 0x4009 (s.secu.latched &&& s.secu.active))) ∧
  (∀ (s y : State) (e : Nat),
      s.part.hasTrunk e = true →
      s.dev ≠ devReset →
      s.timing (.selfTest e) = false →
      y = s.start (.selfTest e) →
      exec (.cryptoSelftest e true) s = .next y ∧
        exec (.cryptoSelftest e false) s = .next ((y.set (ob 0x4000 8) (setBit (y.get (ob 0x4000 8)) e)).ev 0xC060 e 4 278 (u16 e ++ u16 e))) ∧
  (∀ (s : State) (n : Nat),
      s.dev ≠ devReset →
      exec (.trngHealthFailure n) s = .next ((s.set (ob 0x4000 7) 1).ev 0xC061 0 4 278 (u16 0 ++ u16 n))) ∧
  (∀ (s : State) (t : Nat) (busy cut : Bool) (msg : Bytes),
      s.reach = true →
      s.trained t = true →
      byteAt msg 0 = 1 →
      36 ≤ msg.length →
      busy = true ∨ s.asksOf t ≠ [] →
      exec (.vanguriRequest t busy msg cut) s = .next (if 4 ≤ (s.asksOf t).length then s.count (ob 0x4010 5) 1
        else { s with secu := { s.secu with asks := s.secu.asks ++ [(t, msg, cut)] } })) ∧
  (∀ (s y : State) (t st : Nat) (msg unit : Bytes) (cut : Bool),
      s.reach = true →
      s.trained t = true →
      byteAt msg 0 = 1 →
      36 ≤ msg.length →
      s.asksOf t = [] →
      st = s.statementStatus cut →
      y = s.statementMade t st t →
      unit = u8 2 ++ u8 st ++ (msg.drop 2).take 2 ++ zeros 12 ++ s.statement ((msg.drop 4).take 32) st →
      exec (.vanguriRequest t false msg cut) s = .next (forAll (fun c s => s.emit 4 [t] c) (y.unitCells 4 7 0 236 false unit) y)) ∧
  (∀ (s y : State) (p : Path) (cut : Bool) (st h : Nat),
      s.takes p 0x4010 1 →
      y = (s.touch p).cmdAccept 0x4010 1 p →
      st = y.statementStatus cut →
      h = heldIndex p.held 0x4010 →
      exec (.vanguriSign p cut) s = .next (((y.setStr (ob h 2) (y.statement (leBytes 32 (y.get (ob h 1))) st)).statementMade p.code st p.code 1).cmdCommit 0x4010 st))

/-- O49. The commands of feeds, the inlet and the rails complete. In the states that the rules name, a feed changes
state or its current reverses, VOR fails or warns, the inlet is requested or cut, PD0 starts cold, the rail
sequence goes on, is good or fails, a rail faults, and a domain whose supply returns powers up. (R21, R179, R364,
R365, R366, R372, R374, R378, R379, R382) -/
def Obligations.PowerEntryCommandsComplete : Prop :=
  (∀ (s y : State) (f mv vor : Nat),
      f < 2 →
      s.feedNow f mv vor ≠ s.feedState f →
      y = (if s.feedState f = 2 ∨ s.feedNow f mv vor = 2 then s.send (.pin (diodePin f) (ofBool (decide (s.feedNow f mv vor = 2)))) else s) →
      exec (.feedStateChange f mv vor) s = .next ((y.set (peStat (1 + f)) (s.feedNow f mv vor)).pwrEv 0xD001 f (if s.feedNow f mv vor = 0 then 2 else 0) (288 + f)
          (u16 f ++ u8 (s.feedState f) ++ u8 (s.feedNow f mv vor) ++ u16 mv))) ∧
  (∀ (s y : State) (f mv vor : Nat),
      f < 2 →
      s.feedState f = 2 →
      mv + 10 < vor →
      s.dev ≠ devReset →
      s.power.turned = [] →
      y = (((s.send (.pin (diodePin f) 0)).set (peStat (1 + f)) 1).ev 0xD001 f 0 (288 + f) (u16 f ++ u8 2 ++ u8 1 ++ u16 mv)).count (peStat (9 + f)) 1 →
      exec (.feedReverseCurrent f mv vor) s = .next (y.evRate 0xD002 f 2 (288 + f) (sec 1) (u16 f) [1] [])) ∧
  (∀ (s y : State) (f : Nat),
      s.dev = devReset →
      s.power.turned = [] →
      y = s.pwrEv 0xD002 f 2 (288 + f) (u16 f ++ u32 1) →
      s.turnOff f = { y with power := { y.power with turned := [{ feed := f, since := s.clock }] } } ∧
        (s.turnOff f).turnOff f = { s.turnOff f with power := { (s.turnOff f).power with turned := [{ feed := f, since := s.clock, count := 1, first := s.clock }] } }) ∧
  (∀ (s : State) (vor : Nat),
      vor < 6000 →
      exec (.vorBelowMinimum vor) s = .next s.vorGone) ∧
  (∀ (s : State) (mv : Nat),
      s.due .holdUp (msec 50) = true →
      exec (.holdupCheck mv) s = .next (if mv < 10000 then (s.stop .holdUp).pwrEv 0xD012 0 2 291 (u16 0 ++ u16 mv) else s.stop .holdUp)) ∧
  (∀ (s y : State) (vor : Nat),
      s.wanted 9 = false →
      s.get (peCfg 5) ≤ vor ∧ vor < s.get (peCfg 6) →
      s.power.overV = false →
      y = (s.request 9 true).start .holdUp →
      exec (.inletDebounceComplete vor) s = .next { y with power := { y.power with overV := false } }) ∧
  (∀ (s y : State) (vor : Nat),
      s.get (peCfg 6) ≤ vor →
      s.driven 9 = true →
      y = s.inletOff.request 9 false →
      exec (.inletOvervoltage vor) s = .next ((({ y with power := { y.power with overV := true } } : State).count (peStat 0x0C) 1).pwrEv 0xD011 0 3 290 (u16 0 ++ u16 vor))) ∧
  (∀ (s : State) (vor : Nat),
      vor < s.get (peCfg 5) →
      exec (.powerFailWarning vor) s = .next ((s.count (peStat 0x0B) 1).pwrEv 0xD010 0 3 290 (u16 0 ++ u16 vor))) ∧
  (∀ (s : State) (p : Path),
      s.takes p 0x4101 1 →
      exec (.powerEntryClearCounters p) s = .next ((((s.touch p).cmdAccept 0x4101 1 p).clear [peStat 9, peStat 0x0A, peStat 0x0B, peStat 0x0C]).cmdCommit 0x4101 0)) ∧
  (∀ (s : State),
      s.dev = devReset →
      s.wanted 9 = false →
      exec .pd0ColdStart s = .next s.coldStart) ∧
  (∀ (s y : State),
      s.breaker 9 = 2 →
      s.seqState < 4 →
      s.seqState = 0 ∨ s.power.groupGood = true →
      s.due .rail (msec 1) = true →
      y = ((s.set (peStat 8) (s.seqState + 1)).stop .rail).start .railGood →
      exec .railGroupEnable s = .next (({ y with power := { y.power with groupGood := false } } : State).send (.pin (enablePin (s.seqState + 1)) 1))) ∧
  (∀ (s y : State),
      1 ≤ s.seqState ∧ s.seqState < 4 →
      s.timing .railGood = true →
      y = (s.set (railKey 8) ((groupRails s.seqState).foldl setBit (s.get (railKey 8)))).stop .railGood →
      exec .railGroupGood s = .next (({ y with power := { y.power with groupGood := true } } : State).start .rail)) ∧
  (∀ (s y : State),
      s.seqState = 4 →
      s.timing .railGood = true →
      y = (s.set (railKey 8) ((groupRails 4).foldl setBit (s.get (railKey 8)))).stop .railGood →
      exec .railGroupGood s = .next ((({ y with power := { y.power with groupGood := true } } : State).set (peStat 8) 5).start .resetRelease)) ∧
  (∀ (s : State),
      1 ≤ s.seqState ∧ s.seqState ≤ 4 →
      s.due .railGood (msec 10) = true →
      exec .railGroupTimeout s = .next ((s.railsOff 6).pwrEv 0xD041 0 3 292 (u16 0 ++ u8 s.seqState ++ u8 (s.get (railKey 8))))) ∧
  (∀ (s y : State) (r mv : Nat),
      r < 7 →
      s.seqState = 5 →
      (railWindow r).2 < 10 * mv →
      y = (s.count (railKey 9) 1).set (railKey 0x0A) (r + 1) →
      exec (.railFault r true mv) s = .next (((y.toReset 3 false).railsOff 6).pwrEv 0xD040 (r + 1) 3 292 (u16 (r + 1) ++ u8 2 ++ u16 mv))) ∧
  (∀ (s y : State) (r mv : Nat),
      r = 0 ∨ r = 5 ∨ r = 6 →
      s.seqState = 5 →
      10 * mv < (railWindow r).1 →
      y = ((s.count (railKey 9) 1).set (railKey 0x0A) (r + 1)).toReset 3 false →
      exec (.railFault r false mv) s = .next ((y.set (railKey 8) (clrBit (y.get (railKey 8)) r)).pwrEv 0xD040 (r + 1) 3 292 (u16 (r + 1) ++ u8 1 ++ u16 mv))) ∧
  (∀ (s : State) (d : Nat),
      4 ≤ d ∧ d < 14 →
      s.get (domKey d) = 3 →
      s.flag (enKey d) = true →
      exec (.domainGoodAgain d) s = .next ((s.goodAgain d).domainUp d))

/-- O50. The commands of the breakers complete. A requested Off breaker ramps, a breaker whose request is gone turns
off, one that is fully enhanced is On, each protection trips a breaker whose gate is driven with its cause, a
retry follows its timer or its command, and the commands of BreakerStatus commit. (R252, R367, R368, R369, R370,
R371, R372, R373, R377, R384) -/
def Obligations.BreakerCommandsComplete : Prop :=
  (∀ (s : State) (c : Nat),
      s.part.hasBreaker c = true →
      s.wanted c = true →
      s.breaker c = 0 →
      exec (.breakerOnRequest c) s = .next (s.breakerRamp c)) ∧
  (∀ (s : State) (c : Nat),
      s.part.hasBreaker c = true →
      s.wanted c = false →
      s.driven c = true →
      c < 8 →
      exec (.breakerRequestWithdrawn c) s = .next ((s.breakerOff c).portChannelOff c)) ∧
  (∀ (s : State) (c : Nat),
      s.part.hasBreaker c = true →
      s.breaker c = 1 →
      c ≤ 8 →
      exec (.breakerFullEnhancement c) s = .next (if c = 8 then (((s.set (brStat c 1) 2).stop (.ramp c)).start (.onTime c)).svcPowerGood
        else (((s.set (brStat c 1) 2).stop (.ramp c)).start (.onTime c)).portPowerGood c)) ∧
  (∀ (s : State) (c ma : Nat) (t : Int),
      s.part.hasBreaker c = true →
      s.breaker c = 1 →
      s.due (.ramp c) (msec (s.get (brCfg c 4))) = true →
      exec (.breakerRampTimeout c ma t) s = .next (s.tripNow c 4 0 ma t)) ∧
  (∀ (s : State) (c n ma : Nat) (t : Int),
      s.part.hasBreaker c = true →
      s.breaker c = 2 →
      n < 8 →
      s.get (brCfg c (0x0E + n)) * s.get (brCfg c 1) / 1000 < ma →
      exec (.breakerCurveTrip c n ma t) s = .next (s.tripNow c 2 n ma t)) ∧
  (∀ (s : State) (c ma : Nat) (t : Int),
      s.part.hasBreaker c = true →
      2 * s.get (brCfg c 1) < ma →
      exec (.breakerFastTrip c ma t) s = .next (s.tripNow c 1 0 ma t)) ∧
  (∀ (s : State) (c ma : Nat) (t : Int),
      s.part.hasBreaker c = true →
      ((10 * s.get (brCfg c 9) : Nat) : Int) < t →
      exec (.breakerThermalTrip c ma t) s = .next (s.tripNow c 3 0 ma t)) ∧
  (∀ (s : State) (c ma : Nat) (t : Int),
      s.part.hasBreaker c = true →
      c < 9 →
      exec (.breakerReverseCurrent c ma t) s = .next (s.tripNow c 5 0 ma t)) ∧
  (∀ (s : State) (c : Nat) (t : Int),
      s.part.hasBreaker c = true →
      s.breaker c = 3 →
      s.retryDue c = true →
      t ≤ ((10 * s.get (brCfg c 0x0A) : Nat) : Int) →
      c ≠ 8 →
      s.wanted c = true →
      exec (.breakerRetryTimer c t) s = .next (s.retryBreaker c t)) ∧
  (∀ (s : State) (c : Nat),
      s.part.hasBreaker c = true →
      s.breaker c = 2 →
      s.due (.onTime c) (sec (s.get (brCfg c 0x0D))) = true →
      exec (.retryResetTimeExpired c) s = .next ((s.set (brStat c 7) 0).stop (.onTime c))) ∧
  (∀ (s y : State) (p : Path) (c n : Nat),
      s.part.hasBreaker c = true →
      s.allows p (0x4110 + c) 0x0B n →
      y = (s.touch p).set (brCfg c 0x0B) n →
      exec (.retryCountWrite p c n) s = .next (if y.breaker c = 3 ∧ n ≤ y.get (brStat c 7) then (y.set (brStat c 1) 4).stop (.retry c) else y)) ∧
  (∀ (s : State),
      s.breaker 9 = 4 →
      exec .inletRestart s = .next (s.breakerReset 9 2)) ∧
  (∀ (s : State) (c st ohms : Nat),
      s.part.hasBreaker c = true →
      s.get (brCfg c 5) = 1 →
      (st = 2 ∧ 400000 < ohms) ∨ (st = 3 ∧ ohms < 200) →
      s.get (brStat c 6) ≠ st →
      exec (.fetSensorFault c ohms) s = .next ((s.set (brStat c 6) st).pwrEv 0xD030 c 2 303 (u16 c ++ u8 st))) ∧
  (∀ (s : State) (c ohms : Nat),
      s.part.hasBreaker c = true →
      s.get (brCfg c 5) = 1 →
      200 ≤ ohms ∧ ohms ≤ 400000 →
      exec (.fetSensorFault c ohms) s = .next (if s.get (brStat c 6) ≤ 1 then s else s.set (brStat c 6) 1)) ∧
  (∀ (s : State) (p : Path) (c : Nat),
      s.part.hasBreaker c = true →
      s.takes p (0x4120 + c) 1 →
      3 ≤ s.breaker c →
      c ≠ 8 →
      exec (.breakerReset p c) s = .next ((((s.touch p).cmdAccept (0x4120 + c) 1 p).breakerReset c 1).cmdCommit (0x4120 + c) 0)) ∧
  (∀ (s y : State) (p : Path) (c : Nat) (t : Int),
      s.part.hasBreaker c = true →
      s.takes p (0x4120 + c) 2 →
      s.breaker c = 5 →
      y = (s.touch p).cmdAccept (0x4120 + c) 2 p →
      t ≤ ((10 * y.get (brCfg c 0x0A) : Nat) : Int) →
      y.wanted c = true →
      exec (.breakerRetryNow p c t) s = .next ((y.retryBreaker c t).cmdCommit (0x4120 + c) 0)) ∧
  (∀ (s : State) (p : Path) (c : Nat),
      s.part.hasBreaker c = true →
      s.takes p (0x4120 + c) 3 →
      exec (.breakerClearCounters p c) s = .next ((((s.touch p).cmdAccept (0x4120 + c) 3 p).clear [brStat c 9, brStat c 0x0E]).cmdCommit (0x4120 + c) 0))

/-- O51. The commands of pair B, its gateway, journal port, doorbells, mailbox and timers complete. Where the rules
name the state, pair B is loaded, started, halted and loaded anew, its image is judged, an unmapped access reads
zero and is counted, a gateway request is submitted, its journal port and doorbells and mailbox act, a descriptor
is handed over, and its timers and watchdog are armed and run out. (R387, R388, R390, R391, R392, R393, R394,
R403, R404, R442) -/
def Obligations.ApplicationCommandsComplete : Prop :=
  (∀ (s : State) (p : Path) (n : Nat),
      s.allows p 0x4500 1 n →
      exec (.appEnableWrite p n) s = .next ((s.touch p).appEnable p n)) ∧
  (∀ (s : State),
      s.get (ob 0x4501 1) = 1 →
      s.reach = true →
      exec .appLoadComplete s = .next s.appLoaded) ∧
  (∀ (s : State) (p : Path),
      s.takes p 0x4500 1 →
      s.get (ob 0x4501 1) = 3 →
      exec (.appStart p) s = .next (((((s.touch p).cmdAccept 0x4500 1 p).appWatch).appGo 2 1).cmdCommit 0x4500 0)) ∧
  (∀ (s : State) (p : Path),
      s.takes p 0x4500 2 →
      s.get (ob 0x4501 1) = 2 →
      exec (.appHalt p) s = .next (((s.touch p).cmdAccept 0x4500 2 p).appAsk p 1)) ∧
  (∀ (s : State) (p : Path),
      s.takes p 0x4500 3 →
      2 ≤ s.get (ob 0x4501 1) →
      exec (.appRestart p) s = .next (((s.touch p).cmdAccept 0x4500 3 p).appAsk p 2)) ∧
  (∀ (s : State) (p : Path),
      s.takes p 0x4501 1 →
      exec (.appClearCounters p) s = .next ((((s.touch p).cmdAccept 0x4501 1 p).clear ((upTo 8).map fun k => ob 0x4501 (5 + k))).cmdCommit 0x4501 0)) ∧
  (∀ (s y : State) (a : Nat),
      s.get (ob 0x4501 1) = 2 →
      y = (s.count (ob 0x4501 5) 1).set (ob 0x4501 6) (a % 2 ^ 32) →
      exec (.busUnmappedAccess a) s = .next ((y.evRate 0x1220 0 2 17 (sec 1) (u32 a) [1] []).send (.busRead a 0))) ∧
  (∀ (s y : State) (a n : Nat),
      s.get (ob 0x4501 1) = 2 →
      s.app.gwOp = 0 →
      n ≤ 4096 →
      y = s.updApp (fun x => { x with gwAddress := a % 2 ^ 24, gwLength := n }) →
      exec (.gwGoRead a n) s = .next ((y.updApp fun x => { x with gwOp := 1, gwDone := false, gwOverrun := false }).count (ob 0x4501 7) 1)) ∧
  (∀ (s y : State) (a n : Nat) (data : Bytes),
      s.get (ob 0x4501 1) = 2 →
      s.app.gwOp = 0 →
      n ≤ 4096 →
      y = s.updApp (fun x => { x with gwAddress := a % 2 ^ 24, gwLength := n, gwData := fitBytes 4096 data }) →
      exec (.gwGoWrite a n data) s = .next ((y.updApp fun x => { x with gwOp := 2, gwDone := false, gwOverrun := false }).count (ob 0x4501 7) 1)) ∧
  (∀ (s : State) (a n : Nat) (data : Bytes),
      s.get (ob 0x4501 1) = 2 →
      s.app.gwOp ≠ 0 →
      exec (.gwGoWrite a n data) s = .next ((s.updApp fun x => { x with gwOverrun := true }).count (ob 0x4501 8) 1)) ∧
  (∀ (s : State) (i k : Nat),
      s.get (ob 0x4501 1) = 2 →
      s.placeOf (i % 2 ^ 32) = some k →
      exec (.jpEntryRead (some i)) s = .next ((s.updApp fun x => { x with jpIndex := some ((i % 2 ^ 32 + 1) % 2 ^ 32) }).send (.busRead 0x40020020 (leNat (s.entryBytes k))))) ∧
  (∀ (s : State) (i : Nat),
      s.get (ob 0x4501 1) = 2 →
      s.placeOf (i % 2 ^ 32) = none →
      exec (.jpEntryRead (some i)) s = .next ((s.updApp fun x => { x with jpIndex := some (i % 2 ^ 32) }).send (.busRead 0x40020020 0))) ∧
  (∀ (s y : State) (c v : Nat) (b : Bytes),
      s.get (ob 0x4501 1) = 2 →
      s.app.jpSince + sec 1 ≤ s.clock →
      y = s.updApp (fun x => { x with jpSince := s.clock, jpCount := 0 }) →
      0 < s.get (ob 0x4500 8) →
      exec (.jpWrite c v b) s = .next (((y.updApp fun x => { x with jpCount := 1 }).count (ob 0x4501 9) 1).ev (0x1F00 + c % 256) 2 (v % 4) 0 (fitBytes 16 b))) ∧
  (∀ (s : State) (b : Nat),
      s.get (ob 0x4501 1) = 2 →
      448 ≤ b →
      b < 512 →
      exec (.dbSet b) s = .next { s with irq := { s.irq with bells := setBit s.irq.bells b } }) ∧
  (∀ (s : State) (b : Nat),
      s.get (ob 0x4501 1) = 2 →
      384 ≤ b →
      b < 448 →
      exec (.dbClear b) s = .next { s with irq := { s.irq with bells := clrBit s.irq.bells b } }) ∧
  (∀ (s : State) (p : Path) (b : Nat),
      s.allows p 0x4502 6 b →
      exec (.doorbellRing p b) s = .next { s.touch p with irq := { (s.touch p).irq with bells := setBit (s.touch p).irq.bells b } }) ∧
  (∀ (s y : State) (p : Path),
      s.takes p 0x4502 1 →
      y = (s.touch p).cmdAccept 0x4502 1 p →
      exec (.appMailboxPost p) s = .next ((y.updApp fun x => { x with hostMsg := leBytes (min 256 (y.get (ob 0x4502 2))) (y.get (ob 0x4502 1)), posted := true }).raise 11)) ∧
  (∀ (s : State),
      s.get (ob 0x4501 1) = 2 →
      s.app.posted = true →
      exec .hostMsgTake s = .next ((s.updApp fun x => { x with hostMsg := [], posted := false }).cmdCommit 0x4502 0)) ∧
  (∀ (s : State) (m : Bytes),
      s.get (ob 0x4501 1) = 2 →
      exec (.appMsgSend m) s = .next (((s.setAll [(ob 0x4502 3, leNat (m.take 256)), (ob 0x4502 4, (m.take 256).length)]).countWrap (ob 0x4502 5) 1).raise 12)) ∧
  (∀ (s : State) (e b : Nat) (i : Bool) (d : Bytes),
      s.get (ob 0x4501 1) = 2 →
      2 ≤ e ∧ e < 16 →
      b < 2 →
      s.epOn e i = true →
      (s.svcBuf e i b).full ≠ i →
      exec (.endpointDescriptorWrite e i b 0 false d) s = .next (s.setSvcBuf e i b (if i then { full := true, data := d.take 2047 } else {}))) ∧
  (∀ (s : State),
      s.get (ob 0x4501 1) = 2 →
      exec .stimeLatchRead s = .next ((s.updApp fun x => { x with stime := s.station }).send (.stime (s.station % 2 ^ 32)))) ∧
  (∀ (s : State) (k t n : Nat) (q : Bool),
      s.get (ob 0x4501 1) = 2 →
      k < 4 →
      10000 ≤ n ∧ n < 2 ^ 32 →
      exec (.tmrArm k t n q) s = .next (s.setAppTimer k { s.appTimer k with due := t % 2 ^ 64, period := n, enable := true, periodic := q })) ∧
  (∀ (s : State) (k : Nat),
      k < 4 →
      (s.appTimer k).enable = true →
      (s.appTimer k).due ≤ s.station →
      (s.appTimer k).periodic = false →
      s.srcPending (13 + k) = false →
      exec (.timerExpiry k) s = .next ((s.raise (13 + k)).setAppTimer k { s.appTimer k with enable := false })) ∧
  (∀ (s : State) (k : Nat),
      k < 4 →
      (s.appTimer k).enable = true →
      (s.appTimer k).due ≤ s.station →
      (s.appTimer k).periodic = true →
      s.station < (s.appTimer k).due + (s.appTimer k).period →
      s.srcPending (13 + k) = false →
      exec (.timerExpiry k) s = .next ((s.raise (13 + k)).setAppTimer k { s.appTimer k with due := (s.appTimer k).due + (s.appTimer k).period })) ∧
  (∀ (s : State),
      s.get (ob 0x4501 1) = 2 →
      exec (.wdogKick 0xA55A) s = .next s.appWatch) ∧
  (∀ (s y : State),
      s.get (ob 0x4501 1) = 2 →
      s.get (ob 0x4500 7) ≠ 0 →
      s.due .appWdog (msec (s.get (ob 0x4500 7))) = true →
      y = (s.count (ob 0x4501 0x0B) 1).start .appWdog →
      exec .watchdogExpiry s = .next (y.ev 0x1210 0 3 2 (u16 (s.get (ob 0x4500 7)) ++ u32 (y.get (ob 0x4501 0x0B)))))

/-- O52. The claims, completions and deliveries of the interrupt controller complete. Where the pair executes, a claim
answers the best pending and enabled source of its class and makes it active, a completion ends the active source
or is recorded, a delivery claims, and CI2 stops when nothing is to be delivered and restarts on an asynchronous
latch or a request. (R395, R396, R397, R398, R399, R400) -/
def Obligations.InterruptCommandsComplete : Prop :=
  (∀ (s : State) (p m : Nat),
      p < 2 →
      s.pairRuns p = true →
      exec (.nClaim p m) s = .next ((s.setEnable p m).claim p 0)) ∧
  (∀ (s : State) (p k : Nat),
      p < 2 →
      s.pairRuns p = true →
      k ≠ 0 →
      s.irq.active p 0 = k →
      exec (.nComplete p k) s = .next { s with irq := s.irq.setActive p 0 0 }) ∧
  (∀ (s : State) (p k : Nat),
      p < 2 →
      s.pairRuns p = true →
      s.irq.active p 0 ≠ k →
      exec (.nComplete p k) s = .next (s.evRate 0x1230 0 2 0 (sec 1) (u8 (p + 1) ++ u8 0 ++ u16 k) [1] [])) ∧
  (∀ (s : State) (p m : Nat),
      p < 2 →
      s.pairRuns p = true →
      exec (.fClaim p m) s = .next ((s.setEnable p m).claim p 1)) ∧
  (∀ (s : State) (p k : Nat),
      p < 2 →
      s.pairRuns p = true →
      k ≠ 0 →
      s.irq.active p 1 = k →
      exec (.fComplete p k) s = .next { s with irq := s.irq.setActive p 1 0 }) ∧
  (∀ (s y : State) (p m c : Nat) (r : Bool),
      p < 2 →
      s.pairRuns p = true →
      y = (s.setEnable p m).setCtrl p c →
      y.delivers p 0 = true →
      exec (.normalInterruptEntry p m c r) s = .next (y.claim p 0)) ∧
  (∀ (s y : State) (p m c : Nat),
      p < 2 →
      s.pairRuns p = true →
      y = (s.setEnable p m).setCtrl p c →
      y.irq.active p 0 = 0 →
      y.bestSource p 0 = 0 →
      exec (.normalInterruptEntry p m c true) s = .next ((if p = 1 then y.count (ob 0x4501 0x0C) 1 else y).claim p 0)) ∧
  (∀ (s y : State) (p m c : Nat),
      p < 2 →
      s.pairRuns p = true →
      y = (s.setEnable p m).setCtrl p c →
      y.delivers p 1 = true →
      exec (.fastInterruptEntry p m c) s = .next (y.claim p 1)) ∧
  (∀ (s : State),
      s.dev = devSetup →
      s.get (ob 0x4500 9) = 1 →
      s.delivers 0 0 = false ∧ s.delivers 0 1 = false →
      s.delivers 1 0 = false ∧ s.delivers 1 1 = false →
      exec .ci2ClockStop s = .next { s with irq := { s.irq with stopped := true } }) ∧
  (∀ (s : State),
      s.irq.stopped = true →
      exec (.ci2ClockRestart true) s = .next s.ciWake) ∧
  (∀ (s : State) (k : Nat),
      s.irq.stopped = true →
      k < 384 →
      s.irq.async.testBit k = true →
      s.enabled 1 k = true →
      exec (.ci2ClockRestart false) s = .next s.ciWake)

/-- O53. The detections of the safety functions complete. Outside Reset a mismatch of lockstep pair A, and of pair B
while it is enabled, is counted, latched and journalled; a shadow check that is due moves to the next block, and a
damaged block is counted, latched and journalled, while a block being written waits; a watched Open tunnel that has
been silent for SilenceCycles and a power-path check that fails are counted, latched and journalled. (R412, R414,
R416, R418, R431) -/
def Obligations.SafetyCommandsComplete : Prop :=
  (∀ (s : State) (c a : Nat),
      s.dev ≠ devReset →
      exec (.lockstepMismatch 0 c a) s = .next (((({ s with safety := { s.safety with lockA := true } } : State).count (ob 0x4400 5) 1).latchCommon
        0).danger 0xE001 1 320 (u16 1 ++ u32 c ++ u64 a))) ∧
  (∀ (s : State) (c a : Nat),
      s.dev ≠ devReset →
      s.get (ob 0x4501 1) ≠ 0 →
      exec (.lockstepMismatch 1 c a) s = .next (((({ s with safety := { s.safety with lockB := true } } : State).count (ob 0x4400 6) 1).latchCommon
        1).danger 0xE001 2 321 (u16 2 ++ u32 c ++ u64 a))) ∧
  (∀ (s : State) (low high : Nat),
      s.taskRuns 4 = true →
      s.due .shadow 39000 = true →
      exec (.shadowCheck true false low high) s =
        .next ((({ s.start .shadow with safety := { s.safety with shadowNext := (s.safety.shadowNext + 1) % 256 } } : State)).taskStep 4 0 0
          (decide (s.safety.shadowNext = 255)))) ∧
  (∀ (s : State) (low high : Nat),
      s.taskRuns 4 = true →
      s.due .shadow 39000 = true →
      exec (.shadowCheck false false low high) s =
        .next ((((({ s.start .shadow with safety := { s.safety with shadowNext := (s.safety.shadowNext + 1) % 256 } } : State).count
          (ob 0x4400 8) 1).latchCommon 3).danger 0xE003 s.safety.shadowNext 323
            (u16 s.safety.shadowNext ++ u16 low ++ u16 high)).taskStep 4 0 1 (decide (s.safety.shadowNext = 255)))) ∧
  (∀ (s : State) (ok : Bool) (low high : Nat),
      s.taskRuns 4 = true →
      s.due .shadow 39000 = true →
      exec (.shadowCheck ok true low high) s = .next (s.start .shadow)) ∧
  (∀ (s : State) (n : Nat),
      n < 4096 →
      s.watched n = true →
      s.tstate n = 3 →
      s.get (ob 0x4410 0x21) ≤ (s.tun n).quiet →
      (s.tun n).silent = false →
      exec (.tunnelSilent n) s = .next ((((s.updTun n fun x => { x with silent := true }).count (ob 0x4410 0x22) 1).latchSf
        1).danger 0xE020 n 325 (u16 n ++ u16 (s.tun n).quiet))) ∧
  (∀ (s : State) (cause unit value : Nat),
      1 ≤ cause →
      cause ≤ 6 →
      s.part.pathUnit cause unit = true →
      s.pathFault cause unit value = true →
      s.dev ≠ devReset →
      exec (.sf4PowerPathFault cause unit value) s = .next (((((s.count (ob 0x4400 9) 1).set (ob 0x4400 0x0A) cause).latchSf
        3)).danger 0xE030 cause 326 (u16 cause ++ u16 unit ++ u16 value)))

/-- O54. The commands of margin planning, the background tasks, the log area and telemetry complete. Where the rules
name the state, a sentinel report is taken, a plan instant computes the settings, a proposal is applied, an
envelope is written, a task's portion is counted in its block, a late pass is recorded, a task is enabled, log
data are placed, and telemetry is sampled and recorded. (R413, R420, R422, R423, R425, R426, R427, R428, R429,
R430, R434) -/
def Obligations.BackgroundCommandsComplete : Prop :=
  (∀ (s y : State) (m : List Int) (d : List Nat) (k : Nat) (x : Int),
      s.reach = true →
      s.due .sentinel (sec 10) = true →
      m.length = 32 ∧ d.length = 32 →
      y = (((s.start .sentinel).updSafety (fun x => { x with delays := d })).baselineNow).setAll ((upTo 32).map fun k => (ob 0x4210 (k + 1), sputSat 16 (m.getD k 0))) →
      y.safety.baseline = [] →
      worst 0 m = some (k, x) →
      exec (.sentinelReport m d) s = .next (y.setAll [(mgStat 3, sputSat 16 x), (mgStat 4, k)])) ∧
  (∀ (s : State) (e : List Nat),
      s.reach = true →
      s.planDue = true →
      exec (.planInstant e) s = .next (s.plan e)) ∧
  (∀ (s : State) (p : Path),
      s.allows p 0x4201 0xF0 1 →
      s.cmdStatus 0x4201 ≠ 1 →
      s.dev = 3 ∨ s.dev = 5 →
      exec (.marginApprove p) s = .next ((((s.touch p).cmdAccept 0x4201 1 p).applyProposal).cmdCommit 0x4201 0)) ∧
  (∀ (s : State) (p : Path) (e : List Nat),
      s.takes p 0x4201 2 →
      s.safety.lockA = false →
      exec (.marginPlanNow p e) s = .next (((s.touch p).cmdAccept 0x4201 2 p).plan e)) ∧
  (∀ (s : State) (p : Path) (i n : Nat),
      s.allows p 0x4200 i n →
      s.marginKinds i n = [] →
      exec (.marginEnvelopeWrite p i n) s = .next ((s.touch p).marginSet i n)) ∧
  (∀ (s : State) (n b u : Nat),
      n < 3 →
      s.reach = true →
      s.due (.pinned n) (sec 86400) = true →
      (s.safety.pins.find? fun e => decide (e.1 = n)) = some (n, b, u) →
      exec (.marginPinnedRepeat n) s = .next ((s.start (.pinned n)).ev 0xE061 n 2 329 (u16 n ++ u16 b ++ u16 u))) ∧
  (∀ (s : State) (n : Nat) (b : Option Nat) (d : Bool),
      s.taskRuns 0 = true →
      exec (.dramPatrolScrub n b d) s = .next (s.scrubbed 0 1 n b d)) ∧
  (∀ (s : State) (n : Nat) (b : Option Nat) (d : Bool),
      s.taskRuns 1 = true →
      exec (.bufferPatrolScrub n b d) s = .next (s.scrubbed 1 0 n b d)) ∧
  (∀ (s : State) (m n : Nat) (b : Option Nat) (d : Bool),
      2 ≤ m ∧ m ≤ 4 →
      s.taskRuns 2 = true →
      exec (.sramScrub m n b d) s = .next (s.scrubbed 2 m n b d)) ∧
  (∀ (s : State) (n w_ q a : Nat) (d : Bool),
      s.taskRuns 3 = true →
      exec (.mramScrub n (some (w_, q, a)) d) s = .next ((s.mramLost w_ q).scrubbed 3 5 n (some a) d)) ∧
  (∀ (s : State) (n : Nat) (d : Bool),
      s.taskRuns 3 = true →
      exec (.mramScrub n none d) s = .next (s.scrubbed 3 5 n none d)) ∧
  (∀ (s : State) (l : List Nat),
      s.taskRuns 5 = true →
      exec (.ddrCalibration 1 l) s = .next ((s.setAll ((upTo 4).map fun c => (dramKey (1 + c), l.getD c 0 % 65536))).taskStep 5 1 0 false)) ∧
  (∀ (s : State) (n : Nat) (l : List Nat),
      n = 0 ∨ n = 2 →
      s.taskRuns 5 = true →
      exec (.ddrCalibration n l) s = .next (s.taskStep 5 1 0 (decide (n = 0)))) ∧
  (∀ (s : State) (t l b : Nat),
      s.part.hasTrunk t = true →
      l < 5 →
      s.taskRuns 6 = true →
      s.trained t = true →
      exec (.serdesSweep t l b) s = .next ((s.updSafety fun x => { x with best := Sparse.ins (5 * t + l) (b % 32) x.best }).taskStep 6 1 0 (decide (l = 4 ∧ t + 1 = s.part.trunks)))) ∧
  (∀ (s : State),
      s.taskRuns 7 = true →
      exec .sensorCalibration s = .next (s.taskStep 7 1 0 true)) ∧
  (∀ (s y : State) (n : Nat),
      n < 11 →
      s.taskRuns n = true →
      s.taskPeriod n ≠ 0 →
      s.due (.pass n) (2 * s.taskPeriod n) = true →
      s.safety.late.contains n = false →
      y = (s.count (taskKey n 9) 1).updSafety (fun x => { x with late := n :: x.late }) →
      exec (.backgroundTaskBehind n) s = .next (y.ev 0xE070 n 2 (352 + n) (u16 n ++
        u32 ((s.clock - (timerStart (.pass n) s.timers).getD s.clock) / 1000000)))) ∧
  (∀ (s : State) (p : Path) (n v_ : Nat),
      s.allows p (0x4310 + n) 1 v_ →
      n < 11 →
      exec (.backgroundTaskEnableWrite p n v_) s = .next ((s.touch p).taskSwitch n v_)) ∧
  (∀ (s : State) (l n : Nat) (e g : Bool) (a : State × Nat),
      l < 2 →
      s.reach = true →
      s.taskRuns 8 = true →
      a = s.norPlace l e 200 g (s.safety.norWait + n) →
      exec (.norLogWrite l n e g) s = .next (((a.1.norHold a.2).taskStep 8 0 0 (decide (a.2 = 0))).norWarn.norShow)) ∧
  (∀ (s : State) (l n : Nat) (e g : Bool),
      l < 2 →
      s.reach = true →
      s.taskRuns 8 = false →
      exec (.norLogWrite l n e g) s = .next (s.norHold (s.safety.norWait + n))) ∧
  (∀ (s y : State) (l : List Int) (g : Int) (r w_ : List Nat),
      s.taskRuns 9 = true →
      s.due .telemetry (msec (s.get (ob 0x4300 4))) = true →
      l.length = 8 →
      y = (((s.start .telemetry).setAll ((upTo 8).map fun k => (ob 0x4330 (k + 1), sputSat 16 (l.getD k 0)))).setAll [(ob 0x4330 9, sputSat 16 (l.foldl max (l.headD 0))), (ob 0x4330 0x0A, sputSat 16 (if s.get (taskKey 9 4) = 0 then l.foldl max (l.headD 0) else max (sget 16 ((s.start .telemetry).get (ob 0x4330 0x0A))) (l.foldl max (l.headD 0)))), (ob 0x4330 0x0B, w_.foldl (· + ·) 0 % 2 ^ 32)]).gather 0 (l ++ [g] ++ (r.take 7).map Int.ofNat ++ (w_.take 14).map Int.ofNat) →
      l.foldl max (l.headD 0) ≤ (10 * y.get (ob 0x4300 6) : Nat) →
      exec (.telemetrySample l g r w_) s = .next (y.taskStep 9 1 0 true)) ∧
  (∀ (s : State),
      s.taskRuns 9 = true →
      s.due .telemetryLog (sec (s.get (ob 0x4300 5))) = true →
      exec .telemetryLogRecord s = .next ((s.start .telemetryLog).updSafety fun x => { x with record := x.gauges, gauges := [] }))

/-- O55. The commands of Lift, staging, activation and the firmware's blocks complete. Where the rules name the state,
a download block is programmed or fails with its DFU status, the last block completes the image, the DFU requests
answer, and the commands of ImageStaging, FirmwareStatus and OrphanWindow take effect; an activation programs its
region; a reset's delay runs out; a backup is written. (R445, R446, R447, R448, R449, R453, R454, R455, R456,
R457) -/
def Obligations.UpdateCommandsComplete : Prop :=
  (∀ (s : State) (a b : Nat) (data : Bytes) (e g : Bool) (y : State) (d : Dfu),
      a < 3 →
      s.liftHere = true →
      0 < data.length ∧ data.length ≤ 4096 →
      (s.boot.lift.state = dfuNext → s.boot.lift.alt = a) →
      s.dfuBlock { s.boot.lift with alt := a } a (if a = 2 then 2 else 1) b data e g = (y, .inl d) →
      exec (.liftDfuDnload a b data e g) s = .next (y.updBoot fun x => { x with lift := d })) ∧
  (∀ (s : State) (a b : Nat) (data : Bytes) (e g : Bool) (y : State) (k r : Nat),
      a < 3 →
      s.liftHere = true →
      0 < data.length ∧ data.length ≤ 4096 →
      (s.boot.lift.state = dfuNext → s.boot.lift.alt = a) →
      s.dfuBlock { s.boot.lift with alt := a } a (if a = 2 then 2 else 1) b data e g = (y, .inr (k, r)) →
      exec (.liftDfuDnload a b data e g) s = .next (y.liftFail a k)) ∧
  (∀ (s y z : State) (a : Nat) (g : Bool),
      a < 3 →
      s.liftHere = true →
      s.boot.lift.alt = a →
      s.dfuEnd s.boot.lift a g = .inl y →
      z = (if a < 2 then y.updBoot (fun x => { x with trial := a + 1, failed := 0 }) else y) →
      exec (.liftDfuDnloadEnd a g) s = .next ((((z.note 0xF005 2 (u16 (altSlot a) ++ u8 a ++ u32 (imgVersion s.boot.lift.header) ++ u8 0)).send
        (.dfuStatus 0 dfuWaitReset (Config.dfuPoll dfuWaitReset))).toReset 6 false))) ∧
  (∀ (s y : State),
      s.liftHere = true →
      s.boot.lift.state ≠ dfuError →
      y = (if s.boot.lift.state = dfuIdle then s else s.eraseRegion s.boot.lift.alt) →
      exec .liftDfuAbort s = .next (y.updBoot fun x => { x with lift := { alt := s.boot.lift.alt } })) ∧
  (∀ (s : State) (b c k : Nat),
      s.dfuHere = true →
      s.dfuNow = (b, c) →
      k = (if b = dfuSync then dfuNext else b) →
      exec .liftDfuGetstatus s = .next ((s.dfuSet k c).send (.dfuStatus c k (Config.dfuPoll k)))) ∧
  (∀ (s : State) (c : Nat),
      s.dfuHere = true →
      s.dfuNow = (dfuError, c) →
      exec .liftDfuClrstatus s = .next (s.dfuSet dfuIdle 0)) ∧
  (∀ (s : State) (b c : Nat),
      s.dfuHere = true →
      s.dfuNow = (b, c) →
      b ≠ dfuError →
      exec .liftDfuClrstatus s = .next (s.dfuSet dfuError (if c = 0 then errStalled else c))) ∧
  (∀ (s : State),
      s.dfuHere = true →
      exec .liftDfuGetstate s = .next (s.send (.dfuState s.dfuNow.1))) ∧
  (∀ (s : State),
      s.svcState = 4 →
      s.svc.dfu = false →
      exec .dfuDetach s = .next (s.updSvc fun x => { x with detach := some s.clock })) ∧
  (∀ (s y : State) (b : Nat) (data h_ : Bytes) (e g : Bool) (x d : Dfu),
      s.reach = true →
      s.svc.dfu = true →
      0 < data.length ∧ data.length ≤ 4096 →
      s.dfuNow.1 ≠ dfuError →
      s.stagingRuns = true →
      x = { s.boot.stage with state := s.dfuNow.1 } →
      h_ = (if x.state = dfuIdle then data else x.header) →
      s.dfuBlock x 3 (if imgKind h_ = 2 then 2 else 1) b data e g = (y, .inl d) →
      exec (.stagingDfuDnload b data e g) s = .next (((y.updBoot fun x => { x with stage := d }).count (ob 0x6001 5) data.length).dfuSet d.state 0)) ∧
  (∀ (s y : State) (b k r : Nat) (data h_ : Bytes) (e g : Bool) (x : Dfu),
      s.reach = true →
      s.svc.dfu = true →
      0 < data.length ∧ data.length ≤ 4096 →
      s.dfuNow.1 ≠ dfuError →
      s.stagingRuns = true →
      x = { s.boot.stage with state := s.dfuNow.1 } →
      h_ = (if x.state = dfuIdle then data else x.header) →
      s.dfuBlock x 3 (if imgKind h_ = 2 then 2 else 1) b data e g = (y, .inr (k, r)) →
      exec (.stagingDfuDnload b data e g) s = .next (y.stagingFail k r)) ∧
  (∀ (s : State) (g : Bool) (k r : Nat),
      s.reach = true →
      s.svc.dfu = true →
      s.dfuNow.1 ≠ dfuError →
      s.stagingRuns = true →
      s.dfuEnd { s.boot.stage with state := s.dfuNow.1 } 3 g = .inr (k, r) →
      exec (.stagingDfuDnloadEnd g) s = .next ((s.eraseRegion 3).stagingFail k r)) ∧
  (∀ (s y z : State) (g : Bool) (h_ : Bytes),
      s.reach = true →
      s.svc.dfu = true →
      s.dfuNow.1 ≠ dfuError →
      s.stagingRuns = true →
      s.dfuEnd { s.boot.stage with state := s.dfuNow.1 } 3 g = .inl y →
      h_ = s.boot.stage.header →
      z = (y.setAll [(ob 0x6001 1, 2), (ob 0x6001 2, imgKind h_), (ob 0x6001 3, imgVersion h_), (ob 0x6001 4, imgSecurity h_)]).dfuSet dfuIdle 0 →
      exec (.stagingDfuDnloadEnd g) s = .next ((z.ev 0xF010 0 1 0 (u16 0 ++ u8 (imgKind h_) ++ u32 (imgVersion h_) ++ u8 (imgSecurity h_))).cmdCommit 0x6001 0)) ∧
  (∀ (s : State) (p : Path),
      s.allows p 0x6001 0xF0 1 →
      s.cmdStatus 0x6001 ≠ 1 →
      s.dev = 3 ∨ s.dev = 5 →
      exec (.imageStage p) s = .next (((s.touch p).cmdAccept 0x6001 1 p).unstaged 1)) ∧
  (∀ (s y z : State) (p : Path) (r : Nat),
      s.allows p 0x6001 0xF0 2 →
      s.cmdStatus 0x6001 ≠ 1 →
      s.dev = 3 ∨ s.dev = 5 →
      y = (s.touch p).cmdAccept 0x6001 2 p →
      y.get (ob 0x6001 1) = 2 →
      z = y.set (ob 0x6001 1) 4 →
      z.activating = some r →
      z.copyReady = true →
      exec (.imageActivate p) s = .next (z.eraseRegion r)) ∧
  (∀ (s y : State) (p : Path),
      s.allows p 0x6001 0xF0 2 →
      s.cmdStatus 0x6001 ≠ 1 →
      s.dev = 3 ∨ s.dev = 5 →
      y = (s.touch p).cmdAccept 0x6001 2 p →
      y.get (ob 0x6001 1) ≠ 2 →
      exec (.imageActivate p) s = .next (y.cmdFail 0x6001 8)) ∧
  (∀ (s y z : State) (r : Nat),
      s.activating = some r →
      s.copyReady = true →
      s.get (ob 0x6001 2) = 2 →
      y = (((s.eraseRegion r).set (ob 0x6001 1) 2).program (regionBase r + 512) (((s.eraseRegion r).set (ob 0x6001 1) 2).regionPayload 3)) →
      z = y.program (regionBase r) (s.regionHeader 3) →
      exec (.imageActivationDone true) s = .next ((z.ev 0xF012 0 1 0 (u16 (altSlot r) ++ u8 2 ++ u32 (imgVersion (s.regionHeader 3)) ++ u8 r)).cmdCommit 0x6001 0)) ∧
  (∀ (s : State) (p : Path),
      s.allows p 0x6001 0xF0 3 →
      s.cmdStatus 0x6001 ≠ 1 →
      s.dev = 3 ∨ s.dev = 5 →
      exec (.imageDiscard p) s = .next ((((s.touch p).cmdAccept 0x6001 3 p).unstaged 0).cmdCommit 0x6001 0)) ∧
  (∀ (s y : State) (p : Path),
      s.takes p 0x6000 1 →
      y = (s.touch p).cmdAccept 0x6000 1 p →
      exec (.fwConfirmSlot p) s = .next (((y.updBoot fun x => { x with preferred := x.lastSlot }).ev 0xF013 0 1 0 (u16 y.boot.lastSlot ++ u32 y.boot.version)).cmdCommit 0x6000 0)) ∧
  (∀ (s y : State) (p : Path),
      s.allows p 0x6000 0xF0 258 →
      s.cmdStatus 0x6000 ≠ 1 →
      s.dev = 3 ∨ s.dev = 5 →
      y = (s.touch p).cmdAccept 0x6000 258 p →
      y.boot.lastSlot = y.boot.preferred →
      y.boot.rollback < y.boot.secVersion →
      exec (.fwAdvanceRollback p true) s = .next (((y.updBoot fun x => { x with rollback := x.secVersion }).ev 0xF014 0 2 0 (u16 y.boot.lastSlot ++ u8 1 ++ u8 y.boot.rollback ++ u8 y.boot.secVersion)).cmdCommit 0x6000 0)) ∧
  (∀ (s y : State) (p : Path),
      s.takes p 0x6000 3 →
      y = (s.touch p).cmdAccept 0x6000 3 p →
      y.boot.appFloor < y.app.secVersion →
      exec (.fwRaiseAppFloor p) s = .next (((y.updBoot fun x => { x with appFloor := y.app.secVersion }).ev 0xF014 0 2 0 (u16 0 ++ u8 2 ++ u8 y.boot.appFloor ++ u8 y.app.secVersion)).cmdCommit 0x6000 0)) ∧
  (∀ (s y : State) (p : Path),
      s.takes p 0x6000 4 →
      y = (s.touch p).cmdAccept 0x6000 4 p →
      y.otherRuns = false →
      exec (.fwReset p) s = .next ((y.start .fwReset).cmdCommit 0x6000 0)) ∧
  (∀ (s : State),
      s.boot.resetAsked = false →
      s.due .fwReset (msec 10) = true →
      exec .fwResetDelayExpired s = .next ((s.stop .fwReset).toReset 5 false)) ∧
  (∀ (s : State) (p : Path),
      s.takes p 0x6002 1 →
      exec (.orphanDiscard p) s = .next ((((s.touch p).cmdAccept 0x6002 1 p).updBoot fun x => { x with orphans := [] }).cmdCommit 0x6002 0)) ∧
  (∀ (s : State) (c : Copy),
      s.reach = true →
      s.get (ob 0x6001 1) = 0 ∨ s.get (ob 0x6001 1) = 2 →
      s.boot.backupDue = some c →
      exec .configBackupWrite s = .next (s.updBoot fun x => { x with backup := some c, backupDue := none }))

/-- O56. The pulse permission and the commands of SafetyStatus complete. Outside Reset, over a working die-to-die
link, pair A refreshes the permission; after 10 ms without a refresh it ends; command 1 clears both latches and pair
B's mismatch and notes the time; command 2 commits. After each of the first three SAFE_PULSE follows its conditions.
(R411, R414, R431, R433) -/
def Obligations.PulsePermissionAndSafetyCommandsComplete : Prop :=
  (∀ (s : State),
      s.dev ≠ devReset →
      s.safety.link = true →
      exec .safePulsePermission s =
        .next ((({ s with safety := { s.safety with fresh := true, lockA := false } } : State).start .permit).pulse)) ∧
  (∀ (s : State),
      s.due .permit (msec 10) = true →
      exec .safePulsePermissionTimeout s = .next ((({ s with safety := { s.safety with fresh := false } } : State).stop .permit).pulse)) ∧
  (∀ (s : State) (p : Path),
      s.takes p 0x4400 1 →
      exec (.safetyClearLatches p) s = .next ((((((s.touch p).cmdAccept 0x4400 1 p).clear [ob 0x4400 2, ob 0x4400 3]).updSafety
        fun x => { x with lockB := false, clearedAt := some s.clock, again := 0 }).cmdCommit 0x4400 0).pulse)) ∧
  (∀ (s : State) (p : Path),
      s.takes p 0x4400 2 →
      exec (.shadowReload p) s = .next (((s.touch p).cmdAccept 0x4400 2 p).cmdCommit 0x4400 0))
end

