-- ==== Sys2Proof/Laws/Sparse.lean ====
section
/-!
SUPPORT. The laws of the canonical store: a read after a write, and that every write keeps the form.
-/

set_option Elab.async false

namespace Sys2Proof.Laws

open Sys2Proof.Machine

variable {α : Type}

theorem find_drop_same (k : Nat) (m : List (Nat × α)) : Sparse.find k (Sparse.drop k m) = none := by
  induction m with
  | nil => rfl
  | cons e r ih =>
    obtain ⟨k', v'⟩ := e
    by_cases h : k = k'
    · simp [Sparse.drop, h] at ih ⊢; exact h ▸ ih
    · simp [Sparse.drop, Sparse.find, h, ih]

theorem find_drop_ne {k j : Nat} (h : j ≠ k) (m : List (Nat × α)) :
    Sparse.find j (Sparse.drop k m) = Sparse.find j m := by
  induction m with
  | nil => rfl
  | cons e r ih =>
    obtain ⟨k', v'⟩ := e
    by_cases h1 : k = k'
    · have h2 : j ≠ k' := h1 ▸ h
      simp [Sparse.drop, Sparse.find, h1, h2]
      simpa [h1] using ih
    · simp [Sparse.drop, Sparse.find, h1, ih]

theorem find_ins_same (k : Nat) (v : α) (m : List (Nat × α)) (h : Sparse.find k m = none) :
    Sparse.find k (Sparse.ins k v m) = some v := by
  induction m with
  | nil => simp [Sparse.ins, Sparse.find]
  | cons e r ih =>
    obtain ⟨k', v'⟩ := e
    by_cases h1 : k = k'
    · simp [Sparse.find, h1] at h
    · by_cases h2 : k < k'
      · simp [Sparse.ins, h2, Sparse.find]
      · have : Sparse.find k r = none := by simpa [Sparse.find, h1] using h
        simp [Sparse.ins, h2, Sparse.find, h1, ih this]

theorem find_ins_ne {k j : Nat} (h : j ≠ k) (v : α) (m : List (Nat × α)) :
    Sparse.find j (Sparse.ins k v m) = Sparse.find j m := by
  induction m with
  | nil => simp [Sparse.ins, Sparse.find, h]
  | cons e r ih =>
    obtain ⟨k', v'⟩ := e
    by_cases h2 : k < k'
    · simp [Sparse.ins, h2, Sparse.find, h]
    · simp [Sparse.ins, h2, Sparse.find, ih]

/-- A read after a write of the same number gives the value written. -/
@[simp] theorem get_put_same [DecidableEq α] (d : α) (k : Nat) (v : α) (m : List (Nat × α)) :
    Sparse.get d (Sparse.put d k v m) k = v := by
  unfold Sparse.get Sparse.put
  split
  · simp [find_drop_same, *]
  · rw [find_ins_same _ _ _ (find_drop_same k m)]; rfl

/-- A write leaves every other number alone, whatever that number reads as when unlisted. -/
theorem get_put_ne [DecidableEq α] (d d' : α) {k j : Nat} (h : j ≠ k) (v : α) (m : List (Nat × α)) :
    Sparse.get d' (Sparse.put d k v m) j = Sparse.get d' m j := by
  unfold Sparse.get Sparse.put
  split
  · rw [find_drop_ne h]
  · rw [find_ins_ne h, find_drop_ne h]

theorem wfFrom_mono [DecidableEq α] {d : Nat → α} {m : List (Nat × α)} {a b : Nat} (hab : a ≤ b)
    (h : Sparse.wfFrom d b m = true) : Sparse.wfFrom d a m = true := by
  cases m with
  | nil => rfl
  | cons e r =>
    obtain ⟨k, v⟩ := e
    simp [Sparse.wfFrom] at h ⊢
    exact ⟨⟨Nat.le_trans hab h.1.1, h.1.2⟩, h.2⟩

theorem wfFrom_drop [DecidableEq α] {d : Nat → α} {m : List (Nat × α)} {a : Nat} (k : Nat)
    (h : Sparse.wfFrom d a m = true) : Sparse.wfFrom d a (Sparse.drop k m) = true := by
  induction m generalizing a with
  | nil => rfl
  | cons e r ih =>
    obtain ⟨k', v'⟩ := e
    simp [Sparse.wfFrom] at h
    by_cases h1 : k = k'
    · simp only [Sparse.drop, h1, if_true]
      subst h1
      exact ih (wfFrom_mono (Nat.le_succ_of_le h.1.1) h.2)
    · simp [Sparse.drop, h1, Sparse.wfFrom, h.1, ih h.2]

theorem wfFrom_ins [DecidableEq α] {d : Nat → α} {m : List (Nat × α)} {a k : Nat} {v : α} (hk : a ≤ k)
    (hv : v ≠ d k) (hm : Sparse.find k m = none) (h : Sparse.wfFrom d a m = true) :
    Sparse.wfFrom d a (Sparse.ins k v m) = true := by
  induction m generalizing a with
  | nil => simp [Sparse.ins, Sparse.wfFrom, hk, hv]
  | cons e r ih =>
    obtain ⟨k', v'⟩ := e
    simp [Sparse.wfFrom] at h
    have h1 : k ≠ k' := by intro hh; simp [Sparse.find, hh] at hm
    by_cases h2 : k < k'
    · have h3 : k + 1 ≤ k' := h2
      simp [Sparse.ins, h2, Sparse.wfFrom, hk, hv, h.1.2, h.2]
      try exact h3
    · have h3 : k' + 1 ≤ k := by omega
      have h4 : Sparse.find k r = none := by simpa [Sparse.find, h1] using hm
      simp [Sparse.ins, h2, Sparse.wfFrom, h.1]
      exact ih h3 h4 h.2

/-- A write keeps the canonical form. -/
theorem wf_put [DecidableEq α] {d : Nat → α} {m : List (Nat × α)} (k : Nat) (v : α)
    (h : Sparse.wf d m = true) : Sparse.wf d (Sparse.put (d k) k v m) = true := by
  unfold Sparse.put Sparse.wf at *
  split
  · exact wfFrom_drop k h
  · exact wfFrom_ins (Nat.zero_le k) ‹_› (find_drop_same k m) (wfFrom_drop k h)

end Sys2Proof.Laws
end

