-- ==== Sys2Proof/Laws/Keeps.lean ====
section
/-!
SUPPORT. What an operation on the hub's state can do, said once for each operation: which pieces of the state it changes,
that it keeps the part, the command queue, the model's clock and what has been sent, and that it keeps the canonical form of
what is stored.
-/

set_option Elab.async false

namespace Sys2Proof.Laws

open Sys2Proof Sys2Proof.Machine

/-- Every piece of a list may change. -/
def Sub (F : List Piece) (S : Piece → Bool) : Prop := ∀ f, F.contains f = true → S f = true

theorem Sub.of {F G : List Piece} {S : Piece → Bool} (w : Sub F S) (h : (G.all fun f => F.contains f) = true := by decide) :
    Sub G S := fun f hf => w f (by
  have := List.all_eq_true.mp h f (by simpa using hf)
  simpa using this)

theorem Sub.has {F : List Piece} {S : Piece → Bool} {f : Piece} (w : Sub F S) (h : F.contains f = true := by decide) :
    S f = true := w f h

/-- `t` comes from `z` by an effect that changes only the pieces in `S` and keeps the part, the queue, the clock, what was
sent and the canonical form. -/
structure Keeps (S : Piece → Bool) (z t : State) : Prop where
  part : t.part = z.part
  pending : t.pending = z.pending
  clock : t.clock = z.clock
  sent : z.sent <:+ t.sent
  same : ∀ f, S f = false → f.same z t
  canon : Canonical z → Canonical t

/-- The same of a command's meaning: of the next state, if there is one. -/
def KeepsA (S : Piece → Bool) (z : State) (a : Ans) : Prop := ∀ t, a = .next t → Keeps S z t

/-- The same of an effect that may not be. -/
def KeepsO (S : Piece → Bool) (z : State) (o : Option State) : Prop := ∀ t, o = some t → Keeps S z t

/-- The same of an effect or something else. -/
def KeepsI {α : Type} (S : Piece → Bool) (z : State) (x : State ⊕ α) : Prop := ∀ t, x = .inl t → Keeps S z t

variable {S : Piece → Bool} {z s t : State}

theorem Piece.same_refl (f : Piece) (s : State) : f.same s s := by cases f <;> rfl

theorem Piece.same_trans {f : Piece} {a b c : State} (h : f.same a b) (k : f.same b c) : f.same a c := by
  cases f <;> exact Eq.trans k h

theorem Keeps.refl (S : Piece → Bool) (z : State) : Keeps S z z :=
  ⟨rfl, rfl, rfl, List.suffix_refl _, fun f _ => Piece.same_refl f z, id⟩

theorem same_of {F : List Piece} (w : Sub F S) (h : ∀ f, F.contains f = false → f.same s t) (f : Piece) (hf : S f = false) :
    f.same s t := by
  refine h f ?_
  by_contra hc
  have := w f (by simpa using hc)
  simp [hf] at this

theorem keeps_of {F : List Piece} (h : Keeps S z s) (part : t.part = s.part) (pending : t.pending = s.pending)
    (clock : t.clock = s.clock) (sent : s.sent <:+ t.sent) (w : Sub F S) (same : ∀ f, F.contains f = false → f.same s t)
    (canon : Canonical s → Canonical t) : Keeps S z t :=
  ⟨part.trans h.part, pending.trans h.pending, clock.trans h.clock, h.sent.trans sent,
    fun f hf => Piece.same_trans (h.same f hf) (same_of w same f hf), fun c => canon (h.canon c)⟩

theorem keep_eq {α : Type} {f : Piece} {a b : α} (w : a = b ∨ S f = true) (hf : S f = false) : a = b := by
  rcases w with w | w
  · exact w
  · simp [hf] at w

/-- An update of other fields keeps it. -/
theorem keeps_mk {station freeCount timers sessions lockouts sessionCounter cmds irq jour rates canOpen modeHeld stateHeld trunks tunnels fabric scheds disps usb svc pd time eth pl stor fld canNode keys secu power app safety boot} (h : Keeps S z s)
    (w_station : station = s.station ∨ S .station = true := by exact .inl rfl)
    (w_freeCount : freeCount = s.freeCount ∨ S .freeCount = true := by exact .inl rfl)
    (w_timers : timers = s.timers ∨ S .timers = true := by exact .inl rfl)
    (w_sessions : sessions = s.sessions ∨ S .sessions = true := by exact .inl rfl)
    (w_lockouts : lockouts = s.lockouts ∨ S .lockouts = true := by exact .inl rfl)
    (w_sessionCounter : sessionCounter = s.sessionCounter ∨ S .sessionCounter = true := by exact .inl rfl)
    (w_cmds : cmds = s.cmds ∨ S .cmds = true := by exact .inl rfl)
    (w_irq : irq = s.irq ∨ S .irq = true := by exact .inl rfl)
    (w_jour : jour = s.jour ∨ S .jour = true := by exact .inl rfl)
    (w_rates : rates = s.rates ∨ S .rates = true := by exact .inl rfl)
    (w_canOpen : canOpen = s.canOpen ∨ S .canOpen = true := by exact .inl rfl)
    (w_modeHeld : modeHeld = s.modeHeld ∨ S .modeHeld = true := by exact .inl rfl)
    (w_stateHeld : stateHeld = s.stateHeld ∨ S .stateHeld = true := by exact .inl rfl)
    (w_trunks : trunks = s.trunks ∨ S .trunks = true := by exact .inl rfl)
    (w_tunnels : tunnels = s.tunnels ∨ S .tunnels = true := by exact .inl rfl)
    (w_fabric : fabric = s.fabric ∨ S .fabric = true := by exact .inl rfl)
    (w_scheds : scheds = s.scheds ∨ S .scheds = true := by exact .inl rfl)
    (w_disps : disps = s.disps ∨ S .disps = true := by exact .inl rfl)
    (w_usb : usb = s.usb ∨ S .usb = true := by exact .inl rfl)
    (w_svc : svc = s.svc ∨ S .svc = true := by exact .inl rfl)
    (w_pd : pd = s.pd ∨ S .pd = true := by exact .inl rfl)
    (w_time : time = s.time ∨ S .time = true := by exact .inl rfl)
    (w_eth : eth = s.eth ∨ S .eth = true := by exact .inl rfl)
    (w_pl : pl = s.pl ∨ S .pl = true := by exact .inl rfl)
    (w_stor : stor = s.stor ∨ S .stor = true := by exact .inl rfl)
    (w_fld : fld = s.fld ∨ S .fld = true := by exact .inl rfl)
    (w_canNode : canNode = s.canNode ∨ S .canNode = true := by exact .inl rfl)
    (w_keys : keys = s.keys ∨ S .keys = true := by exact .inl rfl)
    (w_secu : secu = s.secu ∨ S .secu = true := by exact .inl rfl)
    (w_power : power = s.power ∨ S .power = true := by exact .inl rfl)
    (w_app : app = s.app ∨ S .app = true := by exact .inl rfl)
    (w_safety : safety = s.safety ∨ S .safety = true := by exact .inl rfl)
    (w_boot : boot = s.boot ∨ S .boot = true := by exact .inl rfl)
    (ring : jour.ring = s.jour.ring := by rfl) :
    Keeps S z (State.mk s.part s.head s.objs s.strs s.clock station freeCount timers sessions lockouts sessionCounter cmds irq jour rates s.sent s.pending canOpen modeHeld stateHeld trunks tunnels fabric scheds disps usb svc pd time eth pl stor s.dram fld canNode keys secu power app safety boot) := by
  refine ⟨h.part, h.pending, h.clock, h.sent, fun f hf => ?_, fun c => ⟨(h.canon c).objs, (h.canon c).strs, (h.canon c).dram, by
    simpa [ring] using (h.canon c).ring⟩⟩
  have k := h.same f hf
  cases f
  case head => exact k
  case objs => exact k
  case strs => exact k
  case station => exact (keep_eq w_station hf).trans k
  case freeCount => exact (keep_eq w_freeCount hf).trans k
  case timers => exact (keep_eq w_timers hf).trans k
  case sessions => exact (keep_eq w_sessions hf).trans k
  case lockouts => exact (keep_eq w_lockouts hf).trans k
  case sessionCounter => exact (keep_eq w_sessionCounter hf).trans k
  case cmds => exact (keep_eq w_cmds hf).trans k
  case irq => exact (keep_eq w_irq hf).trans k
  case jour => exact (keep_eq w_jour hf).trans k
  case rates => exact (keep_eq w_rates hf).trans k
  case sent => exact k
  case canOpen => exact (keep_eq w_canOpen hf).trans k
  case modeHeld => exact (keep_eq w_modeHeld hf).trans k
  case stateHeld => exact (keep_eq w_stateHeld hf).trans k
  case trunks => exact (keep_eq w_trunks hf).trans k
  case tunnels => exact (keep_eq w_tunnels hf).trans k
  case fabric => exact (keep_eq w_fabric hf).trans k
  case scheds => exact (keep_eq w_scheds hf).trans k
  case disps => exact (keep_eq w_disps hf).trans k
  case usb => exact (keep_eq w_usb hf).trans k
  case svc => exact (keep_eq w_svc hf).trans k
  case pd => exact (keep_eq w_pd hf).trans k
  case time => exact (keep_eq w_time hf).trans k
  case eth => exact (keep_eq w_eth hf).trans k
  case pl => exact (keep_eq w_pl hf).trans k
  case stor => exact (keep_eq w_stor hf).trans k
  case dram => exact k
  case fld => exact (keep_eq w_fld hf).trans k
  case canNode => exact (keep_eq w_canNode hf).trans k
  case keys => exact (keep_eq w_keys hf).trans k
  case secu => exact (keep_eq w_secu hf).trans k
  case power => exact (keep_eq w_power hf).trans k
  case app => exact (keep_eq w_app hf).trans k
  case safety => exact (keep_eq w_safety hf).trans k
  case boot => exact (keep_eq w_boot hf).trans k

theorem keeps_pair {α : Type} {x : α × State} {a : α} (h : x = (a, s)) (k : Keeps S z x.2) : Keeps S z s := by
  subst h; exact k

theorem keeps_pair1 {α : Type} {x : State × α} {a : α} (h : x = (s, a)) (k : Keeps S z x.1) : Keeps S z s := by
  subst h; exact k

theorem keeps_some {o : Option State} (h : o = some s) (k : KeepsO S z o) : Keeps S z s := k _ h

theorem keepsO_some (h : Keeps S z s) : KeepsO S z (some s) := by
  intro t e; cases e; exact h

theorem keepsO_none : KeepsO S z none := by
  intro t e; cases e

theorem keeps_inl {α : Type} {x : State ⊕ α} (h : x = .inl s) (k : KeepsI S z x) : Keeps S z s := k _ h

theorem keepsI_inl {α : Type} (h : Keeps S z s) : KeepsI (α := α) S z (.inl s) := by
  intro t e; cases e; exact h

theorem keepsI_inr {α : Type} {a : α} : KeepsI S z (.inr a) := by
  intro t e; cases e

theorem keeps_next (h : Keeps S z s) : KeepsA S z (.next s) := by
  intro t e; cases e; exact h

theorem keeps_fault {f : Fault} : KeepsA S z (.fault f) := by
  intro t e; cases e

theorem keeps_id (h : Keeps S z s) : Keeps S z (id s) := h

theorem keeps_ite {a b : State} {c : Prop} [Decidable c] (ha : Keeps S z a) (hb : Keeps S z b) :
    Keeps S z (if c then a else b) := by
  split <;> assumption

theorem keeps_elim {α : Type} {o : Option α} {f : α → State} (h : Keeps S z s) (hf : ∀ a, Keeps S z (f a)) :
    Keeps S z (o.elim s f) := by
  cases o
  · exact h
  · exact hf _

theorem keeps_foldl {α : Type} {f : State → α → State} (l : List α) (h : Keeps S z s)
    (hf : ∀ s a, Keeps S z s → Keeps S z (f s a)) : Keeps S z (l.foldl f s) := by
  induction l generalizing s with
  | nil => exact h
  | cons a r ih => exact ih (hf s a h)

theorem keeps_foldPair {α β : Type} {f : β × State → α → β × State} (l : List α) {x : β × State}
    (hf : ∀ x a, Keeps S z x.2 → Keeps S z (f x a).2) (h : Keeps S z x.2) : Keeps S z (l.foldl f x).2 := by
  induction l generalizing x with
  | nil => exact h
  | cons a r ih => exact ih (hf x a h)

theorem keeps_onUnit (a1 : Bool) (a2 : State) (h2 : Keeps S z a2) : KeepsA S z (onUnit a1 a2) := by
  unfold onUnit
  split
  · exact keeps_next h2
  · exact keeps_fault

theorem keeps_onPort (a1 : State) (a2 : Part → Bool) (a3 : State) (h1 : Keeps S z a1) (h3 : Keeps S z a3) :
    KeepsA S z (onPort a1 a2 a3) := by
  unfold onPort
  split
  · split
    · exact keeps_next h3
    · exact keeps_next h1
  · exact keeps_fault

theorem keeps_onPath (a1 : Path) (a2 : Bool) (a3 a4 : State) (h3 : Keeps S z a3) (h4 : Keeps S z a4) :
    KeepsA S z (onPath a1 a2 a3 a4) := by
  unfold onPath
  split
  · split
    · exact keeps_next h4
    · exact keeps_next h3
  · exact keeps_fault

theorem keeps_forAll {a1 : Type} (a2 : a1 → State → State) (a3 : List a1) (a4 : State)
    (h2 : ∀ x0 x1, Keeps S z x1 → Keeps S z (a2 x0 x1)) (h4 : Keeps S z a4) : Keeps S z (forAll a2 a3 a4) := by
  induction a3 generalizing a4 with
  | nil => exact h4
  | cons e r ih => exact ih _ (h2 _ _ h4)

theorem keeps_State_set (a1 : State) (a2 a3 : Nat) (h1 : Keeps S z a1) (w : Sub [.objs] S) :
    Keeps S z (State.set a1 a2 a3) :=
  keeps_of h1 rfl rfl rfl (List.suffix_refl _) w (by intro f hf; cases f <;> first | rfl | cases hf) fun c =>
    ⟨wf_put a2 a3 c.objs, c.strs, c.dram, c.ring⟩

theorem keeps_State_setStr (a1 : State) (a2 : Nat) (a3 : Bytes) (h1 : Keeps S z a1) (w : Sub [.strs] S) :
    Keeps S z (State.setStr a1 a2 a3) :=
  keeps_of h1 rfl rfl rfl (List.suffix_refl _) w (by intro f hf; cases f <;> first | rfl | cases hf) fun c =>
    ⟨c.objs, wf_put (d := fun _ => ([] : Bytes)) a2 a3 c.strs, c.dram, c.ring⟩

theorem keeps_State_setAll (a1 : State) (a2 : List (Nat × Nat)) (h1 : Keeps S z a1) (w : Sub [.objs] S) :
    Keeps S z (State.setAll a1 a2) := by
  induction a2 generalizing a1 with
  | nil => exact h1
  | cons e r ih => exact ih _ (keeps_State_set _ _ _ h1 w)

theorem keeps_State_clear (a1 : State) (a2 : List Nat) (h1 : Keeps S z a1) (w : Sub [.objs] S) :
    Keeps S z (State.clear a1 a2) := by
  induction a2 generalizing a1 with
  | nil => exact h1
  | cons e r ih => exact ih _ (keeps_State_set _ _ _ h1 w)

theorem keeps_State_stopAll (a1 : State) (a2 : List Timer) (h1 : Keeps S z a1) (w : Sub [.timers] S) :
    Keeps S z (State.stopAll a1 a2) := by
  induction a2 generalizing a1 with
  | nil => exact h1
  | cons e r ih => exact ih _ (keeps_mk h1 (w_timers := .inr w.has))

theorem keeps_State_send (a1 : State) (a2 : Out) (h1 : Keeps S z a1) (w : Sub [.sent] S) : Keeps S z (State.send a1 a2) :=
  keeps_of h1 rfl rfl rfl (List.suffix_cons _ _) w (by intro f hf; cases f <;> first | rfl | cases hf) fun c =>
    ⟨c.objs, c.strs, c.dram, c.ring⟩

theorem ring_addParts (j : Journal) (e : JEntry) (ps : List Bytes) (h : j.ring.length ≤ 131072) :
    (j.addParts e ps).ring.length ≤ 131072 := by
  induction ps generalizing j with
  | nil => exact h
  | cons b r ih =>
    cases r with
    | nil => simp only [Journal.addParts, Journal.add, List.length_take]; omega
    | cons b' r' =>
      simp only [Journal.addParts]
      exact ih _ (by simp only [Journal.add, List.length_take]; omega)

theorem keeps_State_journalAt (a1 : State) (a2 a3 a4 a5 : Nat) (a6 : Bytes) (h1 : Keeps S z a1) (w : Sub [.jour] S) :
    Keeps S z (State.journalAt a1 a2 a3 a4 a5 a6) :=
  keeps_of h1 rfl rfl rfl (List.suffix_refl _) w (by intro f hf; cases f <;> first | rfl | cases hf) fun c =>
    ⟨c.objs, c.strs, c.dram, ring_addParts _ _ _ c.ring⟩

theorem wfFrom_filter {α : Type} [DecidableEq α] {d : Nat → α} (p : Nat × α → Bool) {m : List (Nat × α)} {a : Nat}
    (h : Sparse.wfFrom d a m = true) : Sparse.wfFrom d a (m.filter p) = true := by
  induction m generalizing a with
  | nil => rfl
  | cons e r ih =>
    obtain ⟨k, v⟩ := e
    simp [Sparse.wfFrom] at h
    rw [List.filter_cons]
    split
    · simp [Sparse.wfFrom, h.1, ih h.2]
    · exact wfFrom_mono (by omega) (ih h.2)

/-- Taking entries away keeps the canonical form. -/
theorem wf_filter {α : Type} [DecidableEq α] {d : Nat → α} (p : Nat × α → Bool) {m : List (Nat × α)}
    (h : Sparse.wf d m = true) : Sparse.wf d (m.filter p) = true := wfFrom_filter p h

theorem wfFrom_rehead {α : Type} [DecidableEq α] {d : Nat → α} (d' : Nat → α) {m : List (Nat × α)} {a : Nat}
    (h : Sparse.wfFrom d a m = true) : Sparse.wfFrom d' a (m.filter fun e => decide (e.2 ≠ d' e.1)) = true := by
  induction m generalizing a with
  | nil => rfl
  | cons e r ih =>
    obtain ⟨k, v⟩ := e
    simp [Sparse.wfFrom] at h
    rw [List.filter_cons]
    split
    · rename_i hv
      simp only [Sparse.wfFrom, Bool.and_eq_true, decide_eq_true_eq] at hv ⊢
      exact ⟨⟨h.1.1, hv⟩, ih h.2⟩
    · exact wfFrom_mono (by omega) (ih h.2)

/-- Under other defaults the form is canonical once the entries that equal them are gone. -/
theorem wf_rehead {α : Type} [DecidableEq α] {d : Nat → α} (d' : Nat → α) {m : List (Nat × α)}
    (h : Sparse.wf d m = true) : Sparse.wf d' (m.filter fun e => decide (e.2 ≠ d' e.1)) = true := wfFrom_rehead d' h

end Sys2Proof.Laws
end

