-- ==== Sys2Proof/Laws/KeepsOps.lean ====
section
/-!
SUPPORT. What each operation can change and what it keeps: the shared operations. One lemma for each definition, in the order of the
files under Machine/.
-/

set_option Elab.async false

set_option linter.all false

namespace Sys2Proof.Laws

open Sys2Proof Sys2Proof.Machine

variable {S : Piece → Bool} {z : State}

theorem keeps_State_count (a1 : State) (a2 : Nat) (a3 : Nat) (h1 : Keeps S z a1) (w : Sub [.objs] S) : Keeps S z
    (State.count a1 a2 a3) := by
  unfold State.count
  apply keeps_State_set (w := w.of)
  assumption

theorem keeps_State_countSat (a1 : State) (a2 : Nat) (a3 : Nat) (h1 : Keeps S z a1) (w : Sub [.objs] S) : Keeps S z
    (State.countSat a1 a2 a3) := by
  unfold State.countSat
  apply keeps_State_set (w := w.of)
  assumption

theorem keeps_State_countWrap (a1 : State) (a2 : Nat) (a3 : Nat) (h1 : Keeps S z a1) (w : Sub [.objs] S) : Keeps S z
    (State.countWrap a1 a2 a3) := by
  unfold State.countWrap
  apply keeps_State_set (w := w.of)
  assumption

theorem keeps_State_start (a1 : State) (a2 : Timer) (h1 : Keeps S z a1) (w : Sub [.timers] S) : Keeps S z (State.start
    a1 a2) := by
  unfold State.start
  refine keeps_mk ?_ (w_timers := .inr w.has)
  assumption

theorem keeps_State_stop (a1 : State) (a2 : Timer) (h1 : Keeps S z a1) (w : Sub [.timers] S) : Keeps S z (State.stop
    a1 a2) := by
  unfold State.stop
  refine keeps_mk ?_ (w_timers := .inr w.has)
  assumption

theorem keeps_State_draw (a1 : State) (h1 : Keeps S z a1) (w : Sub [.freeCount] S) : Keeps S z (State.draw a1).2 := by
  unfold State.draw
  dsimp only
  refine keeps_mk ?_ (w_freeCount := .inr w.has)
  assumption

theorem keeps_onlyIf (a1 : Bool) (a2 : State → State) (a3 : State) (h2 : ∀ x0, Keeps S z x0 → Keeps S z (a2 x0)) (h3 :
    Keeps S z a3) : Keeps S z (onlyIf a1 a2 a3) := by
  unfold onlyIf
  refine keeps_ite ?_ ?_
  · apply h2
    assumption
  · assumption

theorem keeps_State_updTrunk (a1 : State) (a2 : Nat) (a3 : Trunk → Trunk) (h1 : Keeps S z a1) (w : Sub [.trunks] S) :
    Keeps S z (State.updTrunk a1 a2 a3) := by
  unfold State.updTrunk
  refine keeps_mk ?_ (w_trunks := .inr w.has)
  assumption

theorem keeps_State_raise (a1 : State) (a2 : Nat) (h1 : Keeps S z a1) (w : Sub [.irq] S) : Keeps S z (State.raise a1
    a2) := by
  unfold State.raise
  refine keeps_ite ?_ ?_
  · assumption
  · refine keeps_ite ?_ ?_
    · refine keeps_mk ?_ (w_irq := .inr w.has)
      assumption
    · refine keeps_mk ?_ (w_irq := .inr w.has)
      assumption

theorem keeps_State_evAt (a1 : State) (a2 : Nat) (a3 : Nat) (a4 : Nat) (a5 : Nat) (a6 : Nat) (a7 : Bytes) (h1 : Keeps
    S z a1) (w : Sub [.irq, .jour] S) : Keeps S z (State.evAt a1 a2 a3 a4 a5 a6 a7) := by
  unfold State.evAt
  apply keeps_State_raise (w := w.of)
  apply keeps_State_journalAt (w := w.of)
  assumption

theorem keeps_State_ev (a1 : State) (a2 : Nat) (a3 : Nat) (a4 : Nat) (a5 : Nat) (a6 : Bytes) (h1 : Keeps S z a1) (w :
    Sub [.irq, .jour] S) : Keeps S z (State.ev a1 a2 a3 a4 a5 a6) := by
  unfold State.ev
  apply keeps_State_evAt (w := w.of)
  assumption

theorem keeps_State_putRate (a1 : State) (a2 : Rate) (h1 : Keeps S z a1) (w : Sub [.rates] S) : Keeps S z
    (State.putRate a1 a2) := by
  unfold State.putRate
  refine keeps_mk ?_ (w_rates := .inr w.has)
  assumption

theorem keeps_State_rateEnd (a1 : State) (a2 : Rate) (h1 : Keeps S z a1) (w : Sub [.jour, .rates] S) : Keeps S z
    (State.rateEnd a1 a2) := by
  unfold State.rateEnd
  refine keeps_ite ?_ ?_
  · extract_lets +onlyGivenNames y1
    have k1 : Keeps S z y1 := by
      unfold y1
      apply keeps_State_journalAt (w := w.of)
      assumption
    clear_value y1
    refine keeps_ite ?_ ?_
    · refine keeps_mk ?_ (w_rates := .inr w.has)
      assumption
    · apply keeps_State_putRate (w := w.of)
      assumption
  · refine keeps_mk ?_ (w_rates := .inr w.has)
    assumption

theorem keeps_State_rateNow (a1 : State) (a2 : Nat) (a3 : Nat) (a4 : Nat) (h1 : Keeps S z a1) (w : Sub [.jour, .rates]
    S) : Keeps S z (State.rateNow a1 a2 a3 a4) := by
  unfold State.rateNow
  split
  · refine keeps_ite ?_ ?_
    · apply keeps_State_rateEnd (w := w.of)
      assumption
    · assumption
  · assumption

theorem keeps_State_evRate (a1 : State) (a2 : Nat) (a3 : Nat) (a4 : Nat) (a5 : Nat) (a6 : Nat) (a7 : Bytes) (a8 : List
    Nat) (a9 : Bytes) (a10 : Nat) (h1 : Keeps S z a1) (w : Sub [.irq, .jour, .rates] S) : Keeps S z
    (State.evRate a1 a2 a3 a4 a5 a6 a7 a8 a9 a10) := by
  unfold State.evRate
  extract_lets +onlyGivenNames y1
  have k1 : Keeps S z y1 := by
    unfold y1
    apply keeps_State_rateNow (w := w.of)
    apply keeps_State_raise (w := w.of)
    assumption
  clear_value y1
  split
  · apply keeps_State_putRate (w := w.of)
    assumption
  · apply keeps_State_putRate (w := w.of)
    apply keeps_State_journalAt (w := w.of)
    assumption

theorem keeps_State_evCycle (a1 : State) (a2 : Nat) (a3 : Nat) (a4 : Nat) (a5 : Nat) (a6 : Nat) (a7 : Bytes) (a8 :
    List Nat) (a9 : Bytes) (h1 : Keeps S z a1) (w : Sub [.irq, .jour, .rates] S) : Keeps S z (State.evCycle a1 a2 a3
    a4 a5 a6 a7 a8 a9) := by
  unfold State.evCycle
  extract_lets +onlyGivenNames y1
  have k1 : Keeps S z y1 := by
    unfold y1
    apply keeps_State_rateNow (w := w.of)
    apply keeps_State_raise (w := w.of)
    assumption
  clear_value y1
  split
  · apply keeps_State_putRate (w := w.of)
    assumption
  · apply keeps_State_putRate (w := w.of)
    assumption

theorem keeps_State_updSession (a1 : State) (a2 : Path) (a3 : Session → Session) (h1 : Keeps S z a1) (w : Sub
    [.sessions] S) : Keeps S z (State.updSession a1 a2 a3) := by
  unfold State.updSession
  refine keeps_mk ?_ (w_sessions := .inr w.has)
  assumption

theorem keeps_State_violateAt (a1 : State) (a2 : Nat) (a3 : Path) (a4 : Nat) (a5 : Nat) (a6 : Nat) (h1 : Keeps S z a1)
    (w : Sub [.objs, .irq, .jour] S) : Keeps S z (State.violateAt a1 a2 a3 a4 a5 a6) := by
  unfold State.violateAt
  extract_lets +onlyGivenNames y1
  clear_value y1
  extract_lets +onlyGivenNames y2
  clear_value y2
  extract_lets +onlyGivenNames y3
  clear_value y3
  extract_lets +onlyGivenNames y4
  have k4 : Keeps S z y4 := by
    unfold y4
    apply keeps_State_countSat (w := w.of)
    apply keeps_State_countSat (w := w.of)
    apply keeps_State_countSat (w := w.of)
    assumption
  clear_value y4
  extract_lets +onlyGivenNames y5
  have k5 : Keeps S z y5 := by
    unfold y5
    apply keeps_State_setAll (w := w.of)
    assumption
  clear_value y5
  apply keeps_State_evAt (w := w.of)
  assumption

theorem keeps_State_violate (a1 : State) (a2 : Path) (a3 : Nat) (a4 : Nat) (a5 : Nat) (h1 : Keeps S z a1) (w : Sub
    [.objs, .irq, .jour] S) : Keeps S z (State.violate a1 a2 a3 a4 a5) := by
  unfold State.violate
  apply keeps_State_violateAt (w := w.of)
  assumption

theorem keeps_State_cmdAccept (a1 : State) (a2 : Nat) (a3 : Nat) (a4 : Path) (h1 : Keeps S z a1) (w : Sub [.objs,
    .cmds] S) : Keeps S z (State.cmdAccept a1 a2 a3 a4) := by
  unfold State.cmdAccept
  extract_lets +onlyGivenNames y1
  have k1 : Keeps S z y1 := by
    unfold y1
    refine keeps_mk ?_ (w_cmds := .inr w.has)
    assumption
  clear_value y1
  apply keeps_State_countWrap (w := w.of)
  apply keeps_State_setAll (w := w.of)
  assumption

theorem keeps_State_cmdCommit (a1 : State) (a2 : Nat) (a3 : Nat) (h1 : Keeps S z a1) (w : Sub [.objs, .irq, .jour] S)
    : Keeps S z (State.cmdCommit a1 a2 a3) := by
  unfold State.cmdCommit
  extract_lets +onlyGivenNames y1
  have k1 : Keeps S z y1 := by
    unfold y1
    apply keeps_State_setAll (w := w.of)
    assumption
  clear_value y1
  apply keeps_State_evAt (w := w.of)
  assumption

theorem keeps_State_cmdFail (a1 : State) (a2 : Nat) (a3 : Nat) (h1 : Keeps S z a1) (w : Sub [.objs] S) : Keeps S z
    (State.cmdFail a1 a2 a3) := by
  unfold State.cmdFail
  apply keeps_State_setAll (w := w.of)
  assumption

theorem keeps_State_cmdUndoing (a1 : State) (a2 : Nat) (a3 : Path) (h1 : Keeps S z a1) (w : Sub [.cmds] S) : Keeps S z
    (State.cmdUndoing a1 a2 a3) := by
  unfold State.cmdUndoing
  refine keeps_mk ?_ (w_cmds := .inr w.has)
  assumption

theorem keeps_State_cmdAborted (a1 : State) (a2 : Nat) (h1 : Keeps S z a1) (w : Sub [.objs, .cmds, .irq, .jour] S) :
    Keeps S z (State.cmdAborted a1 a2) := by
  unfold State.cmdAborted
  extract_lets +onlyGivenNames y1
  clear_value y1
  extract_lets +onlyGivenNames y2
  have k2 : Keeps S z y2 := by
    unfold y2
    apply keeps_State_set (w := w.of)
    assumption
  clear_value y2
  extract_lets +onlyGivenNames y3
  have k3 : Keeps S z y3 := by
    unfold y3
    refine keeps_mk ?_ (w_cmds := .inr w.has)
    assumption
  clear_value y3
  apply keeps_State_evAt (w := w.of)
  assumption

theorem keeps_State_pulse (a1 : State) (h1 : Keeps S z a1) (w : Sub [.objs, .irq, .jour, .sent, .safety] S) : Keeps S
    z (State.pulse a1) := by
  unfold State.pulse
  refine keeps_ite ?_ ?_
  · refine keeps_ite ?_ ?_
    · assumption
    · extract_lets +onlyGivenNames y1
      have k1 : Keeps S z y1 := by
        unfold y1
        apply keeps_State_send (w := w.of)
        apply keeps_State_set (w := w.of)
        assumption
      clear_value y1
      apply keeps_State_ev (w := w.of)
      assumption
  · refine keeps_ite ?_ ?_
    · assumption
    · extract_lets +onlyGivenNames y2
      clear_value y2
      extract_lets +onlyGivenNames y3
      have k3 : Keeps S z y3 := by
        unfold y3
        apply keeps_State_send (w := w.of)
        apply keeps_State_set (w := w.of)
        assumption
      clear_value y3
      extract_lets +onlyGivenNames y4
      clear_value y4
      extract_lets +onlyGivenNames y5
      have k5 : Keeps S z y5 := by
        unfold y5
        refine keeps_mk ?_ (w_safety := .inr w.has)
        assumption
      clear_value y5
      apply keeps_State_ev (w := w.of)
      assumption

theorem keeps_State_danger (a1 : State) (a2 : Nat) (a3 : Nat) (a4 : Nat) (a5 : Bytes) (h1 : Keeps S z a1) (w : Sub
    [.objs, .irq, .jour] S) : Keeps S z (State.danger a1 a2 a3 a4 a5) := by
  unfold State.danger
  apply keeps_State_ev (w := w.of)
  apply keeps_State_setAll (w := w.of)
  assumption

theorem keeps_State_setAgain (a1 : State) (a2 : Nat) (h1 : Keeps S z a1) (w : Sub [.objs, .safety] S) : Keeps S z
    (State.setAgain a1 a2) := by
  unfold State.setAgain
  split
  · assumption
  · refine keeps_ite ?_ ?_
    · refine keeps_mk ?_ (w_safety := .inr w.has)
      assumption
    · extract_lets +onlyGivenNames y1
      clear_value y1
      extract_lets +onlyGivenNames y2
      have k2 : Keeps S z y2 := by
        unfold y2
        apply keeps_State_set (w := w.of)
        assumption
      clear_value y2
      refine keeps_mk ?_ (w_safety := .inr w.has)
      assumption

theorem keeps_State_latchSf (a1 : State) (a2 : Nat) (h1 : Keeps S z a1) (w : Sub [.objs, .irq, .jour, .sent, .safety]
    S) : Keeps S z (State.latchSf a1 a2) := by
  unfold State.latchSf
  apply keeps_State_pulse (w := w.of)
  apply keeps_State_setAgain (w := w.of)
  apply keeps_State_set (w := w.of)
  assumption

theorem keeps_State_latchCommon (a1 : State) (a2 : Nat) (h1 : Keeps S z a1) (w : Sub [.objs, .irq, .jour, .sent,
    .safety] S) : Keeps S z (State.latchCommon a1 a2) := by
  unfold State.latchCommon
  apply keeps_State_pulse (w := w.of)
  apply keeps_State_setAgain (w := w.of)
  apply keeps_State_set (w := w.of)
  assumption

theorem keeps_State_sf4Fault (a1 : State) (a2 : Nat) (a3 : Bytes) (h1 : Keeps S z a1) (w : Sub [.objs, .irq, .jour,
    .sent, .safety] S) : Keeps S z (State.sf4Fault a1 a2 a3) := by
  unfold State.sf4Fault
  apply keeps_State_danger (w := w.of)
  apply keeps_State_latchSf (w := w.of)
  apply keeps_State_set (w := w.of)
  apply keeps_State_count (w := w.of)
  assumption

theorem keeps_State_dangerCycle (a1 : State) (a2 : Nat) (a3 : Nat) (a4 : Nat) (a5 : Nat) (a6 : Bytes) (a7 : List Nat)
    (a8 : Bytes) (h1 : Keeps S z a1) (w : Sub [.objs, .irq, .jour, .rates] S) : Keeps S z (State.dangerCycle a1 a2 a3
    a4 a5 a6 a7 a8) := by
  unfold State.dangerCycle
  apply keeps_State_evCycle (w := w.of)
  apply keeps_State_setAll (w := w.of)
  assumption

theorem keeps_State_dangerRate (a1 : State) (a2 : Nat) (a3 : Nat) (a4 : Nat) (a5 : Bytes) (h1 : Keeps S z a1) (w : Sub
    [.objs, .irq, .jour, .rates] S) : Keeps S z (State.dangerRate a1 a2 a3 a4 a5) := by
  unfold State.dangerRate
  apply keeps_State_evRate (w := w.of)
  apply keeps_State_setAll (w := w.of)
  assumption

theorem keeps_State_memCorrected (a1 : State) (a2 : Nat) (a3 : Nat) (h1 : Keeps S z a1) (w : Sub [.objs, .irq, .jour,
    .rates] S) : Keeps S z (State.memCorrected a1 a2 a3) := by
  unfold State.memCorrected
  extract_lets +onlyGivenNames y1
  have k1 : Keeps S z y1 := by
    unfold y1
    refine keeps_ite ?_ ?_
    · apply keeps_State_count (w := w.of)
      assumption
    · apply keeps_State_count (w := w.of)
      assumption
  clear_value y1
  extract_lets +onlyGivenNames y2
  clear_value y2
  apply keeps_State_evRate (w := w.of)
  assumption

theorem keeps_State_memBad (a1 : State) (a2 : Nat) (a3 : Nat) (h1 : Keeps S z a1) (w : Sub [.objs, .irq, .jour, .sent,
    .safety] S) : Keeps S z (State.memBad a1 a2 a3) := by
  unfold State.memBad
  extract_lets +onlyGivenNames y1
  have k1 : Keeps S z y1 := by
    unfold y1
    refine keeps_ite ?_ ?_
    · apply keeps_State_count (w := w.of)
      assumption
    · refine keeps_ite ?_ ?_
      · apply keeps_State_count (w := w.of)
        assumption
      · assumption
  clear_value y1
  extract_lets +onlyGivenNames y2
  clear_value y2
  extract_lets +onlyGivenNames y3
  have k3 : Keeps S z y3 := by
    unfold y3
    apply keeps_State_ev (w := w.of)
    assumption
  clear_value y3
  refine keeps_ite ?_ ?_
  · apply keeps_State_latchCommon (w := w.of)
    assumption
  · assumption

theorem keeps_State_endSessionAt (a1 : State) (a2 : Nat) (a3 : Path) (a4 : Nat) (a5 : Path) (h1 : Keeps S z a1) (w :
    Sub [.sessions, .irq, .jour] S) : Keeps S z (State.endSessionAt a1 a2 a3 a4 a5) := by
  unfold State.endSessionAt
  extract_lets +onlyGivenNames y1
  clear_value y1
  refine keeps_ite ?_ ?_
  · assumption
  · apply keeps_State_evAt (w := w.of)
    apply keeps_State_updSession (w := w.of)
    assumption

theorem keeps_State_endSession (a1 : State) (a2 : Path) (a3 : Nat) (a4 : Path) (h1 : Keeps S z a1) (w : Sub
    [.sessions, .irq, .jour] S) : Keeps S z (State.endSession a1 a2 a3 a4) := by
  unfold State.endSession
  apply keeps_State_endSessionAt (w := w.of)
  assumption

theorem keeps_State_settleSession (a1 : State) (a2 : Path) (h1 : Keeps S z a1) (w : Sub [.sessions, .irq, .jour] S) :
    Keeps S z (State.settleSession a1 a2) := by
  unfold State.settleSession
  refine keeps_ite ?_ ?_
  · assumption
  · apply keeps_State_endSession (w := w.of)
    assumption

theorem keeps_State_endTrunkSessions (a1 : State) (a2 : Nat) (h1 : Keeps S z a1) (w : Sub [.sessions, .irq, .jour] S)
    : Keeps S z (State.endTrunkSessions a1 a2) := by
  unfold State.endTrunkSessions
  apply keeps_forAll
  · intro x1
    intro x2
    intro k3
    apply keeps_onlyIf
    · intro x4
      intro k5
      apply keeps_State_endSession (w := w.of)
      assumption
    · assumption
  · assumption

theorem keeps_State_setKey (a1 : State) (a2 : Nat) (a3 : Nat) (h1 : Keeps S z a1) (w : Sub [.keys] S) : Keeps S z
    (State.setKey a1 a2 a3) := by
  unfold State.setKey
  refine keeps_mk ?_ (w_keys := .inr w.has)
  assumption

theorem keeps_State_updFabric (a1 : State) (a2 : Fabric → Fabric) (h1 : Keeps S z a1) (w : Sub [.fabric] S) : Keeps S
    z (State.updFabric a1 a2) := by
  unfold State.updFabric
  refine keeps_mk ?_ (w_fabric := .inr w.has)
  assumption

theorem keeps_State_updQueue (a1 : State) (a2 : Nat) (a3 : Queue → Queue) (h1 : Keeps S z a1) (w : Sub [.fabric] S) :
    Keeps S z (State.updQueue a1 a2 a3) := by
  unfold State.updQueue
  apply keeps_State_updFabric (w := w.of)
  assumption

theorem keeps_State_fabricEv (a1 : State) (a2 : Nat) (a3 : Nat) (a4 : Nat) (a5 : Nat) (a6 : Bytes) (a7 : List Nat) (a8
    : Bytes) (h1 : Keeps S z a1) (w : Sub [.irq, .jour, .rates] S) : Keeps S z (State.fabricEv a1 a2 a3 a4 a5 a6 a7
    a8) := by
  unfold State.fabricEv
  apply keeps_State_evRate (w := w.of)
  assumption

theorem keeps_State_showUse (a1 : State) (h1 : Keeps S z a1) (w : Sub [.objs] S) : Keeps S z (State.showUse a1) := by
  unfold State.showUse
  extract_lets +onlyGivenNames y1
  have k1 : Keeps S z y1 := by
    unfold y1
    apply keeps_State_set (w := w.of)
    assumption
  clear_value y1
  apply keeps_State_set (w := w.of)
  assumption

theorem keeps_State_recount (a1 : State) (a2 : Nat) (h1 : Keeps S z a1) (w : Sub [.objs] S) : Keeps S z (State.recount
    a1 a2) := by
  unfold State.recount
  extract_lets +onlyGivenNames y1
  clear_value y1
  extract_lets +onlyGivenNames y2
  clear_value y2
  extract_lets +onlyGivenNames y3
  have k3 : Keeps S z y3 := by
    unfold y3
    apply keeps_State_set (w := w.of)
    assumption
  clear_value y3
  extract_lets +onlyGivenNames y4
  clear_value y4
  extract_lets +onlyGivenNames y5
  have k5 : Keeps S z y5 := by
    unfold y5
    apply keeps_State_set (w := w.of)
    assumption
  clear_value y5
  apply keeps_State_showUse (w := w.of)
  apply keeps_State_set (w := w.of)
  assumption

theorem keeps_State_updBuf (a1 : State) (a2 : Nat) (a3 : BufCell → BufCell) (h1 : Keeps S z a1) (w : Sub [.fabric] S)
    : Keeps S z (State.updBuf a1 a2 a3) := by
  unfold State.updBuf
  split
  · apply keeps_State_updFabric (w := w.of)
    assumption
  · assumption

theorem keeps_State_unref (a1 : State) (a2 : Nat) (h1 : Keeps S z a1) (w : Sub [.fabric] S) : Keeps S z (State.unref
    a1 a2) := by
  unfold State.unref
  split
  · apply keeps_State_updFabric (w := w.of)
    assumption
  · assumption

theorem keeps_State_giveCredits (a1 : State) (a2 : Nat) (a3 : Nat) (a4 : Nat) (h1 : Keeps S z a1) (w : Sub [.trunks]
    S) : Keeps S z (State.giveCredits a1 a2 a3 a4) := by
  unfold State.giveCredits
  apply keeps_State_updTrunk (w := w.of)
  assumption

theorem keeps_State_showReserved (a1 : State) (h1 : Keeps S z a1) (w : Sub [.objs] S) : Keeps S z (State.showReserved
    a1) := by
  unfold State.showReserved
  extract_lets +onlyGivenNames y1
  clear_value y1
  apply keeps_State_setAll (w := w.of)
  assumption

theorem keeps_State_updSched (a1 : State) (a2 : Nat) (a3 : Sched → Sched) (h1 : Keeps S z a1) (w : Sub [.scheds] S) :
    Keeps S z (State.updSched a1 a2 a3) := by
  unfold State.updSched
  refine keeps_mk ?_ (w_scheds := .inr w.has)
  assumption

theorem keeps_State_updShaper (a1 : State) (a2 : Nat) (a3 : Nat) (a4 : Shaper → Shaper) (h1 : Keeps S z a1) (w : Sub
    [.scheds] S) : Keeps S z (State.updShaper a1 a2 a3 a4) := by
  unfold State.updShaper
  apply keeps_State_updSched (w := w.of)
  assumption

theorem keeps_State_wake (a1 : State) (a2 : Nat) (a3 : Nat) (a4 : Nat) (h1 : Keeps S z a1) (w : Sub [.scheds] S) :
    Keeps S z (State.wake a1 a2 a3 a4) := by
  unfold State.wake
  extract_lets +onlyGivenNames y1
  clear_value y1
  extract_lets +onlyGivenNames y2
  clear_value y2
  extract_lets +onlyGivenNames y3
  clear_value y3
  apply keeps_State_updShaper (w := w.of)
  assumption

theorem keeps_State_sharedGone (a1 : State) (h1 : Keeps S z a1) (w : Sub [.irq, .jour, .rates] S) : Keeps S z
    (State.sharedGone a1) := by
  unfold State.sharedGone
  apply keeps_State_evRate (w := w.of)
  assumption

theorem keeps_State_enqueue (a1 : State) (a2 : Nat) (a3 : Nat) (a4 : Desc) (h1 : Keeps S z a1) (w : Sub [.objs,
    .timers, .irq, .jour, .rates, .fabric, .scheds] S) : Keeps S z (State.enqueue a1 a2 a3 a4) := by
  unfold State.enqueue
  extract_lets +onlyGivenNames y1
  clear_value y1
  extract_lets +onlyGivenNames y2
  clear_value y2
  extract_lets +onlyGivenNames y3
  have k3 : Keeps S z y3 := by
    unfold y3
    refine keeps_ite ?_ ?_
    · apply keeps_State_start (w := w.of)
      assumption
    · assumption
  clear_value y3
  extract_lets +onlyGivenNames y4
  have k4 : Keeps S z y4 := by
    unfold y4
    refine keeps_ite ?_ ?_
    · apply keeps_State_wake (w := w.of)
      assumption
    · assumption
  clear_value y4
  extract_lets +onlyGivenNames y5
  have k5 : Keeps S z y5 := by
    unfold y5
    apply keeps_State_updQueue (w := w.of)
    assumption
  clear_value y5
  extract_lets +onlyGivenNames y6
  have k6 : Keeps S z y6 := by
    unfold y6
    refine keeps_ite ?_ ?_
    · apply keeps_State_set (w := w.of)
      assumption
    · assumption
  clear_value y6
  extract_lets +onlyGivenNames y7
  have k7 : Keeps S z y7 := by
    unfold y7
    apply keeps_State_recount (w := w.of)
    assumption
  clear_value y7
  refine keeps_ite ?_ ?_
  · apply keeps_State_sharedGone (w := w.of)
    apply keeps_State_count (w := w.of)
    assumption
  · assumption

theorem keeps_State_takeOut (a1 : State) (a2 : Nat) (a3 : Nat) (a4 : List Desc) (a5 : List Desc) (h1 : Keeps S z a1)
    (w : Sub [.objs, .fabric] S) : Keeps S z (State.takeOut a1 a2 a3 a4 a5) := by
  unfold State.takeOut
  extract_lets +onlyGivenNames y1
  clear_value y1
  extract_lets +onlyGivenNames y2
  clear_value y2
  extract_lets +onlyGivenNames y3
  clear_value y3
  extract_lets +onlyGivenNames y4
  have k4 : Keeps S z y4 := by
    unfold y4
    apply keeps_State_set (w := w.of)
    assumption
  clear_value y4
  extract_lets +onlyGivenNames y5
  have k5 : Keeps S z y5 := by
    unfold y5
    apply keeps_State_updQueue (w := w.of)
    assumption
  clear_value y5
  extract_lets +onlyGivenNames y6
  have k6 : Keeps S z y6 := by
    unfold y6
    apply keeps_forAll
    · intro x7
      intro x8
      intro k9
      split
      · apply keeps_State_unref (w := w.of)
        assumption
      · assumption
    · assumption
  clear_value y6
  apply keeps_State_recount (w := w.of)
  assumption

theorem keeps_State_release (a1 : State) (a2 : Nat) (a3 : Nat) (a4 : List Desc) (a5 : List Desc) (h1 : Keeps S z a1)
    (w : Sub [.objs, .timers, .fabric] S) : Keeps S z (State.release a1 a2 a3 a4 a5) := by
  unfold State.release
  extract_lets +onlyGivenNames y1
  clear_value y1
  extract_lets +onlyGivenNames y2
  have k2 : Keeps S z y2 := by
    unfold y2
    apply keeps_State_updQueue (w := w.of)
    apply keeps_State_takeOut (w := w.of)
    assumption
  clear_value y2
  refine keeps_ite ?_ ?_
  · apply keeps_State_stop (w := w.of)
    assumption
  · apply keeps_State_start (w := w.of)
    assumption

theorem keeps_State_withdraw (a1 : State) (a2 : Nat) (a3 : Nat) (a4 : List Desc) (a5 : List Desc) (h1 : Keeps S z a1)
    (w : Sub [.objs, .timers, .fabric] S) : Keeps S z (State.withdraw a1 a2 a3 a4 a5) := by
  unfold State.withdraw
  extract_lets +onlyGivenNames y1
  clear_value y1
  extract_lets +onlyGivenNames y2
  have k2 : Keeps S z y2 := by
    unfold y2
    apply keeps_State_takeOut (w := w.of)
    assumption
  clear_value y2
  refine keeps_ite ?_ ?_
  · apply keeps_State_stop (w := w.of)
    apply keeps_State_updQueue (w := w.of)
    assumption
  · assumption

theorem keeps_State_setUnit (a1 : State) (a2 : Nat) (a3 : Nat) (a4 : Nat) (h1 : Keeps S z a1) (w : Sub [.fabric] S) :
    Keeps S z (State.setUnit a1 a2 a3 a4) := by
  unfold State.setUnit
  apply keeps_State_updQueue (w := w.of)
  assumption

theorem keeps_State_takeProfile (a1 : State) (a2 : Nat) (a3 : Nat) (h1 : Keeps S z a1) (w : Sub [.fabric] S) : Keeps S
    z (State.takeProfile a1 a2 a3) := by
  unfold State.takeProfile
  extract_lets +onlyGivenNames y1
  clear_value y1
  apply keeps_State_updQueue (w := w.of)
  assumption

theorem keeps_State_average (a1 : State) (a2 : Nat) (a3 : Nat) (h1 : Keeps S z a1) (w : Sub [.fabric] S) : Keeps S z
    (State.average a1 a2 a3) := by
  unfold State.average
  split
  · apply keeps_State_updQueue (w := w.of)
    assumption
  · assumption

theorem keeps_State_redDecision (a1 : State) (a2 : Nat) (a3 : Nat) (a4 : Nat) (h1 : Keeps S z a1) (w : Sub [.fabric]
    S) : Keeps S z (State.redDecision a1 a2 a3 a4).2 := by
  unfold State.redDecision
  split
  · dsimp only
    assumption
  · extract_lets +onlyGivenNames y1
    clear_value y1
    extract_lets +onlyGivenNames y2
    clear_value y2
    extract_lets +onlyGivenNames y3
    clear_value y3
    extract_lets +onlyGivenNames y4
    clear_value y4
    extract_lets +onlyGivenNames y5
    clear_value y5
    extract_lets +onlyGivenNames y6
    clear_value y6
    extract_lets +onlyGivenNames y7
    clear_value y7
    extract_lets +onlyGivenNames y8
    clear_value y8
    extract_lets +onlyGivenNames y9
    clear_value y9
    dsimp only
    apply keeps_State_updFabric (w := w.of)
    assumption

theorem keeps_State_dropEv (a1 : State) (a2 : Nat) (a3 : Nat) (a4 : Nat) (a5 : Nat) (h1 : Keeps S z a1) (w : Sub
    [.objs, .irq, .jour, .rates] S) : Keeps S z (State.dropEv a1 a2 a3 a4 a5) := by
  unfold State.dropEv
  extract_lets +onlyGivenNames y1
  have k1 : Keeps S z y1 := by
    unfold y1
    apply keeps_State_count (w := w.of)
    apply keeps_State_count (w := w.of)
    apply keeps_State_count (w := w.of)
    assumption
  clear_value y1
  apply keeps_State_fabricEv (w := w.of)
  assumption

theorem keeps_State_tailEv (a1 : State) (a2 : Nat) (a3 : Nat) (a4 : Nat) (a5 : Nat) (h1 : Keeps S z a1) (w : Sub
    [.objs, .irq, .jour, .rates] S) : Keeps S z (State.tailEv a1 a2 a3 a4 a5) := by
  unfold State.tailEv
  extract_lets +onlyGivenNames y1
  have k1 : Keeps S z y1 := by
    unfold y1
    apply keeps_State_count (w := w.of)
    apply keeps_State_count (w := w.of)
    apply keeps_State_count (w := w.of)
    assumption
  clear_value y1
  apply keeps_State_fabricEv (w := w.of)
  assumption

theorem keeps_State_dropUnit (a1 : State) (a2 : Nat) (a3 : Nat) (a4 : Nat) (h1 : Keeps S z a1) (w : Sub [.objs,
    .timers, .irq, .jour, .rates, .fabric] S) : Keeps S z (State.dropUnit a1 a2 a3 a4) := by
  unfold State.dropUnit
  split
  extract_lets +onlyGivenNames y1
  have k1 : Keeps S z y1 := by
    unfold y1
    apply keeps_State_withdraw (w := w.of)
    assumption
  clear_value y1
  extract_lets +onlyGivenNames y2
  have k2 : Keeps S z y2 := by
    unfold y2
    apply keeps_State_updQueue (w := w.of)
    assumption
  clear_value y2
  apply keeps_State_tailEv (w := w.of)
  assumption

theorem keeps_State_truncate (a1 : State) (a2 : Nat) (a3 : Nat) (a4 : Nat) (a5 : Cell) (h1 : Keeps S z a1) (w : Sub
    [.objs, .timers, .irq, .jour, .rates, .fabric, .scheds] S) : Keeps S z (State.truncate a1 a2 a3 a4 a5) := by
  unfold State.truncate
  extract_lets +onlyGivenNames y1
  have k1 : Keeps S z y1 := by
    unfold y1
    apply keeps_State_tailEv (w := w.of)
    apply keeps_State_setUnit (w := w.of)
    assumption
  clear_value y1
  refine keeps_ite ?_ ?_
  · apply keeps_State_dropUnit (w := w.of)
    assumption
  · apply keeps_State_enqueue (w := w.of)
    assumption

theorem keeps_State_place (a1 : State) (a2 : Nat) (a3 : Nat) (a4 : Nat) (a5 : Nat) (a6 : Cell) (h1 : Keeps S z a1) (w
    : Sub [.objs, .timers, .irq, .jour, .rates, .fabric, .scheds] S) : Keeps S z (State.place a1 a2 a3 a4 a5 a6) := by
  unfold State.place
  extract_lets +onlyGivenNames y1
  clear_value y1
  extract_lets +onlyGivenNames y2
  clear_value y2
  extract_lets +onlyGivenNames y3
  have k3 : Keeps S z y3 := by
    unfold y3
    refine keeps_ite ?_ ?_
    · apply keeps_State_dropUnit (w := w.of)
      assumption
    · assumption
  clear_value y3
  extract_lets +onlyGivenNames y4
  clear_value y4
  extract_lets +onlyGivenNames y5
  have k5 : Keeps S z y5 := by
    unfold y5
    apply keeps_State_updBuf (w := w.of)
    apply keeps_State_enqueue (w := w.of)
    assumption
  clear_value y5
  extract_lets +onlyGivenNames y6
  have k6 : Keeps S z y6 := by
    unfold y6
    refine keeps_ite ?_ ?_
    · apply keeps_State_dropEv (w := w.of)
      assumption
    · refine keeps_ite ?_ ?_
      · assumption
      · refine keeps_ite ?_ ?_
        · apply keeps_State_dropEv (w := w.of)
          assumption
        · refine keeps_ite ?_ ?_
          · refine keeps_ite ?_ ?_
            · refine keeps_ite ?_ ?_
              · refine keeps_ite ?_ ?_
                · split
                  extract_lets +onlyGivenNames y7
                  have k7 : Keeps S z y7 := by
                    unfold y7
                    apply keeps_State_withdraw (w := w.of)
                    assumption
                  clear_value y7
                  apply keeps_State_tailEv (w := w.of)
                  apply keeps_State_updQueue (w := w.of)
                  assumption
                · apply keeps_State_updQueue (w := w.of)
                  assumption
              · refine keeps_ite ?_ ?_
                · apply keeps_State_updQueue (w := w.of)
                  assumption
                · assumption
            · assumption
          · refine keeps_ite ?_ ?_
            · apply keeps_State_dropEv (w := w.of)
              apply keeps_State_setUnit (w := w.of)
              assumption
            · apply keeps_State_truncate (w := w.of)
              apply keeps_State_dropEv (w := w.of)
              assumption
  clear_value y6
  refine keeps_ite ?_ ?_
  · apply keeps_State_setUnit (w := w.of)
    assumption
  · assumption

theorem keeps_State_offer (a1 : State) (a2 : Nat) (a3 : Nat) (a4 : Nat) (a5 : Cell) (h1 : Keeps S z a1) (w : Sub
    [.objs, .irq, .jour, .rates, .fabric] S) : Keeps S z (State.offer a1 a2 a3 a4 a5) := by
  unfold State.offer
  extract_lets +onlyGivenNames y1
  have k1 : Keeps S z y1 := by
    unfold y1
    apply keeps_State_average (w := w.of)
    refine keeps_ite ?_ ?_
    · apply keeps_State_takeProfile (w := w.of)
      assumption
    · assumption
  clear_value y1
  refine keeps_ite ?_ ?_
  · split
    extract_lets +onlyGivenNames y2
    have k2 : Keeps S z y2 := by
      unfold y2
      apply keeps_State_setUnit (w := w.of)
      refine keeps_pair (by assumption) ?_
      apply keeps_State_redDecision (w := w.of)
      assumption
    clear_value y2
    refine keeps_ite ?_ ?_
    · apply keeps_State_dropEv (w := w.of)
      assumption
    · assumption
  · assumption

theorem keeps_State_offerAll (a1 : State) (a2 : List Dest) (h1 : Keeps S z a1) (w : Sub [.objs, .irq, .jour, .rates,
    .fabric] S) : Keeps S z (State.offerAll a1 a2) := by
  unfold State.offerAll
  apply keeps_forAll
  · intro x1
    intro x2
    intro k3
    apply keeps_State_offer (w := w.of)
    assumption
  · assumption

theorem keeps_State_store (a1 : State) (a2 : List Dest) (a3 : Cell) (a4 : (Option Nat)) (h1 : Keeps S z
    a1) (w : Sub [.objs, .timers, .irq, .jour, .rates, .fabric, .scheds] S) : Keeps S z (State.store a1 a2 a3 a4) :=
    by
  unfold State.store
  extract_lets +onlyGivenNames y1
  clear_value y1
  extract_lets +onlyGivenNames y2
  have k2 : Keeps S z y2 := by
    unfold y2
    apply keeps_State_updFabric (w := w.of)
    assumption
  clear_value y2
  apply keeps_State_showUse (w := w.of)
  apply keeps_State_unref (w := w.of)
  apply keeps_forAll
  · intro x3
    intro x4
    intro k5
    apply keeps_State_place (w := w.of)
    assumption
  · assumption

theorem keeps_State_holdAt (a1 : State) (a2 : Nat) (a3 : Held) (h1 : Keeps S z a1) (w : Sub [.fabric] S) : Keeps S z
    (State.holdAt a1 a2 a3) := by
  unfold State.holdAt
  apply keeps_State_updFabric (w := w.of)
  assumption

theorem keeps_State_toAdapter (a1 : State) (a2 : Nat) (a3 : Held) (h1 : Keeps S z a1) (w : Sub [.fabric] S) : Keeps S
    z (State.toAdapter a1 a2 a3) := by
  unfold State.toAdapter
  refine keeps_ite ?_ ?_
  · apply keeps_State_updFabric (w := w.of)
    assumption
  · apply keeps_State_holdAt (w := w.of)
    assumption

theorem keeps_State_toFabric (a1 : State) (a2 : Nat) (a3 : Cell) (h1 : Keeps S z a1) (w : Sub [.fabric] S) : Keeps S z
    (State.toFabric a1 a2 a3) := by
  unfold State.toFabric
  apply keeps_State_toAdapter (w := w.of)
  assumption

theorem keeps_State_leaves (a1 : State) (a2 : Nat) (a3 : List Held) (h1 : Keeps S z a1) (w : Sub [.fabric] S) : Keeps
    S z (State.leaves a1 a2 a3) := by
  unfold State.leaves
  extract_lets +onlyGivenNames y1
  have k1 : Keeps S z y1 := by
    unfold y1
    apply keeps_State_updFabric (w := w.of)
    assumption
  clear_value y1
  split
  · assumption
  · refine keeps_ite ?_ ?_
    · assumption
    · apply keeps_State_holdAt (w := w.of)
      apply keeps_State_updFabric (w := w.of)
      assumption

theorem keeps_State_emptyAdapter (a1 : State) (a2 : Nat) (h1 : Keeps S z a1) (w : Sub [.fabric] S) : Keeps S z
    (State.emptyAdapter a1 a2) := by
  unfold State.emptyAdapter
  apply keeps_State_updFabric (w := w.of)
  assumption

theorem keeps_State_noteSource (a1 : State) (a2 : Nat) (a3 : Cell) (h1 : Keeps S z a1) (w : Sub [.fabric] S) : Keeps S
    z (State.noteSource a1 a2 a3) := by
  unfold State.noteSource
  refine keeps_ite ?_ ?_
  · apply keeps_State_updFabric (w := w.of)
    assumption
  · assumption

theorem keeps_State_discardCells (a1 : State) (a2 : Cell → Bool) (h1 : Keeps S z a1) (w : Sub [.objs, .timers,
    .fabric] S) : Keeps S z (State.discardCells a1 a2).2 := by
  unfold State.discardCells
  extract_lets +onlyGivenNames y1
  clear_value y1
  extract_lets +onlyGivenNames y2
  clear_value y2
  extract_lets +onlyGivenNames y3
  have k3 : Keeps S z y3 := by
    unfold y3
    apply keeps_forAll
    · intro x4
      intro x5
      intro k6
      extract_lets +onlyGivenNames y7
      clear_value y7
      refine keeps_ite ?_ ?_
      · assumption
      · apply keeps_State_withdraw (w := w.of)
        assumption
    · assumption
  clear_value y3
  dsimp only
  apply keeps_State_updFabric (w := w.of)
  assumption

theorem keeps_State_discardTunnel (a1 : State) (a2 : Nat) (h1 : Keeps S z a1) (w : Sub [.objs, .timers, .fabric] S) :
    Keeps S z (State.discardTunnel a1 a2).2 := by
  unfold State.discardTunnel
  apply keeps_State_discardCells (w := w.of)
  assumption

theorem keeps_State_updTun (a1 : State) (a2 : Nat) (a3 : Tunnel → Tunnel) (h1 : Keeps S z a1) (w : Sub [.tunnels] S) :
    Keeps S z (State.updTun a1 a2 a3) := by
  unfold State.updTun
  refine keeps_mk ?_ (w_tunnels := .inr w.has)
  assumption

theorem keeps_State_latchCfg (a1 : State) (a2 : Nat) (h1 : Keeps S z a1) (w : Sub [.tunnels] S) : Keeps S z
    (State.latchCfg a1 a2) := by
  unfold State.latchCfg
  extract_lets +onlyGivenNames y1
  clear_value y1
  apply keeps_State_updTun (w := w.of)
  assumption

theorem keeps_State_tunEv (a1 : State) (a2 : Nat) (a3 : Nat) (a4 : Nat) (a5 : Nat) (a6 : Bytes) (h1 : Keeps S z a1) (w
    : Sub [.irq, .jour] S) : Keeps S z (State.tunEv a1 a2 a3 a4 a5 a6) := by
  unfold State.tunEv
  apply keeps_State_ev (w := w.of)
  assumption

theorem keeps_State_cellCrc (a1 : State) (a2 : Nat) (a3 : Nat) (a4 : Nat) (h1 : Keeps S z a1) (w : Sub [.objs, .irq,
    .jour, .rates, .sent, .safety] S) : Keeps S z (State.cellCrc a1 a2 a3 a4) := by
  unfold State.cellCrc
  extract_lets +onlyGivenNames y1
  have k1 : Keeps S z y1 := by
    unfold y1
    apply keeps_State_evCycle (w := w.of)
    assumption
  clear_value y1
  refine keeps_ite ?_ ?_
  · apply keeps_State_latchSf (w := w.of)
    assumption
  · assumption

theorem keeps_State_showTwin (a1 : State) (a2 : Nat) (h1 : Keeps S z a1) (w : Sub [.objs] S) : Keeps S z
    (State.showTwin a1 a2) := by
  unfold State.showTwin
  extract_lets +onlyGivenNames y1
  clear_value y1
  extract_lets +onlyGivenNames y2
  clear_value y2
  apply keeps_State_set (w := w.of)
  assumption

theorem keeps_State_setCond (a1 : State) (a2 : Nat) (a3 : Nat) (a4 : Nat) (a5 : Nat) (h1 : Keeps S z a1) (w : Sub
    [.objs, .irq, .jour, .tunnels] S) : Keeps S z (State.setCond a1 a2 a3 a4 a5) := by
  unfold State.setCond
  extract_lets +onlyGivenNames y1
  clear_value y1
  refine keeps_ite ?_ ?_
  · assumption
  · extract_lets +onlyGivenNames y2
    clear_value y2
    extract_lets +onlyGivenNames y3
    have k3 : Keeps S z y3 := by
      unfold y3
      apply keeps_State_updTun (w := w.of)
      assumption
    clear_value y3
    extract_lets +onlyGivenNames y4
    have k4 : Keeps S z y4 := by
      unfold y4
      apply keeps_State_showTwin (w := w.of)
      assumption
    clear_value y4
    refine keeps_ite ?_ ?_
    · assumption
    · refine keeps_ite ?_ ?_
      · apply keeps_State_tunEv (w := w.of)
        assumption
      · refine keeps_ite ?_ ?_
        · apply keeps_State_tunEv (w := w.of)
          assumption
        · assumption

theorem keeps_State_unitOut (a1 : State) (a2 : Nat) (a3 : Nat) (a4 : Bool) (a5 : Bytes) (h1 : Keeps S z a1) (w : Sub
    [.objs, .irq, .jour, .rates, .fabric] S) : Keeps S z (State.unitOut a1 a2 a3 a4 a5) := by
  unfold State.unitOut
  extract_lets +onlyGivenNames y1
  clear_value y1
  extract_lets +onlyGivenNames y2
  clear_value y2
  refine keeps_ite ?_ ?_
  · assumption
  · extract_lets +onlyGivenNames y3
    have k3 : Keeps S z y3 := by
      unfold y3
      apply keeps_forAll
      · intro x4
        intro x5
        intro k6
        apply keeps_State_toFabric (w := w.of)
        assumption
      · assumption
    clear_value y3
    refine keeps_ite ?_ ?_
    · apply keeps_State_tailEv (w := w.of)
      assumption
    · assumption

theorem keeps_State_colour (a1 : State) (a2 : Nat) (a3 : Cell) (h1 : Keeps S z a1) (w : Sub [.fabric] S) : Keeps S z
    (State.colour a1 a2 a3).2 := by
  unfold State.colour
  split
  · dsimp only
    assumption
  · extract_lets +onlyGivenNames y1
    clear_value y1
    extract_lets +onlyGivenNames y2
    have k2 : ∀ x1, Keeps S z (y2 x1) := by
      intro x1
      unfold y2
      apply keeps_State_updFabric (w := w.of)
      assumption
    clear_value y2
    split
    · dsimp only
      apply k2
    · split
      · dsimp only
        apply k2
      · dsimp only
        apply k2

theorem keeps_State_dramPut (a1 : State) (a2 : Nat) (a3 : BitVec 8) (h1 : Keeps S z a1) (w : Sub [.dram] S) : Keeps S
    z (State.dramPut a1 a2 a3) :=
  keeps_of h1 rfl rfl rfl (List.suffix_refl _) w (by intro f hf; cases f <;> first | rfl | cases hf) fun c =>
    ⟨c.objs, c.strs, wf_put (d := fun _ => (0 : BitVec 8)) a2 a3 c.dram, c.ring⟩

theorem keeps_State_updStore (a1 : State) (a2 : Store → Store) (h1 : Keeps S z a1) (w : Sub [.stor] S) : Keeps S z
    (State.updStore a1 a2) := by
  unfold State.updStore
  refine keeps_mk ?_ (w_stor := .inr w.has)
  assumption

theorem keeps_State_updPcie (a1 : State) (a2 : Nat) (a3 : Pcie → Pcie) (h1 : Keeps S z a1) (w : Sub [.stor] S) : Keeps
    S z (State.updPcie a1 a2 a3) := by
  unfold State.updPcie
  apply keeps_State_updStore (w := w.of)
  assumption

theorem keeps_State_takeRoles (a1 : State) (h1 : Keeps S z a1) (w : Sub [.stor] S) : Keeps S z (State.takeRoles a1) :=
    by
  unfold State.takeRoles
  apply keeps_forAll
  · intro x1
    intro x2
    intro k3
    apply keeps_State_updPcie (w := w.of)
    assumption
  · assumption

theorem keeps_State_aerSet (a1 : State) (a2 : Nat) (a3 : Nat) (h1 : Keeps S z a1) (w : Sub [.stor] S) : Keeps S z
    (State.aerSet a1 a2 a3) := by
  unfold State.aerSet
  apply keeps_State_updPcie (w := w.of)
  assumption

theorem keeps_State_pcieErrors (a1 : State) (a2 : Nat) (a3 : Nat) (a4 : Nat) (a5 : Nat) (a6 : Nat) (h1 : Keeps S z a1)
    (w : Sub [.objs, .irq, .jour, .rates, .stor] S) : Keeps S z (State.pcieErrors a1 a2 a3 a4 a5 a6) := by
  unfold State.pcieErrors
  extract_lets +onlyGivenNames y1
  have k1 : Keeps S z y1 := by
    unfold y1
    refine keeps_ite ?_ ?_
    · assumption
    · apply keeps_State_aerSet (w := w.of)
      assumption
  clear_value y1
  extract_lets +onlyGivenNames y2
  have k2 : Keeps S z y2 := by
    unfold y2
    refine keeps_ite ?_ ?_
    · assumption
    · apply keeps_State_aerSet (w := w.of)
      assumption
  clear_value y2
  extract_lets +onlyGivenNames y3
  have k3 : Keeps S z y3 := by
    unfold y3
    refine keeps_ite ?_ ?_
    · assumption
    · apply keeps_State_aerSet (w := w.of)
      assumption
  clear_value y3
  apply keeps_State_evRate (w := w.of)
  apply keeps_State_count (w := w.of)
  apply keeps_State_count (w := w.of)
  apply keeps_State_count (w := w.of)
  apply keeps_State_count (w := w.of)
  assumption

theorem keeps_State_hostWrite (a1 : State) (a2 : Nat) (a3 : List Nat) (a4 : Nat) (a5 : Bytes) (h1 : Keeps S z a1) (w :
    Sub [.objs, .sent] S) : Keeps S z (State.hostWrite a1 a2 a3 a4 a5) := by
  unfold State.hostWrite
  apply keeps_forAll
  · intro x1
    intro x2
    intro k3
    apply keeps_State_send (w := w.of)
    apply keeps_State_count (w := w.of)
    assumption
  · assumption

theorem keeps_State_hostRead (a1 : State) (a2 : Nat) (a3 : List Nat) (a4 : Nat) (h1 : Keeps S z a1) (w : Sub [.objs,
    .sent] S) : Keeps S z (State.hostRead a1 a2 a3 a4) := by
  unfold State.hostRead
  apply keeps_forAll
  · intro x1
    intro x2
    intro k3
    apply keeps_State_send (w := w.of)
    apply keeps_State_count (w := w.of)
    apply keeps_State_count (w := w.of)
    assumption
  · assumption

theorem keeps_State_complete (a1 : State) (a2 : Nat) (a3 : Nat) (a4 : Nat) (a5 : Bool) (a6 : Bytes) (h1 : Keeps S z
    a1) (w : Sub [.objs, .sent] S) : Keeps S z (State.complete a1 a2 a3 a4 a5 a6) := by
  unfold State.complete
  apply keeps_State_send (w := w.of)
  apply keeps_State_count (w := w.of)
  assumption

theorem keeps_State_newTag (a1 : State) (h1 : Keeps S z a1) (w : Sub [.stor] S) : Keeps S z (State.newTag a1).2 := by
  unfold State.newTag
  dsimp only
  apply keeps_State_updStore (w := w.of)
  assumption

theorem keeps_State_cqEntry (a1 : State) (a2 : Nat) (a3 : Nat) (a4 : Nat) (a5 : Nat) (a6 : Nat) (h1 : Keeps S z a1) (w
    : Sub [.objs, .irq, .jour, .rates, .sent, .stor] S) : Keeps S z (State.cqEntry a1 a2 a3 a4 a5 a6) := by
  unfold State.cqEntry
  extract_lets +onlyGivenNames y1
  clear_value y1
  extract_lets +onlyGivenNames y2
  clear_value y2
  split
  · assumption
  · refine keeps_ite ?_ ?_
    · apply keeps_State_pcieErrors (w := w.of)
      assumption
    · extract_lets +onlyGivenNames y3
      have k3 : Keeps S z y3 := by
        unfold y3
        apply keeps_State_updPcie (w := w.of)
        assumption
      clear_value y3
      extract_lets +onlyGivenNames y4
      have k4 : Keeps S z y4 := by
        unfold y4
        apply keeps_State_send (w := w.of)
        apply keeps_State_count (w := w.of)
        assumption
      clear_value y4
      refine keeps_ite ?_ ?_
      · apply keeps_State_send (w := w.of)
        apply keeps_State_count (w := w.of)
        assumption
      · assumption

theorem keeps_State_nvmeDataError (a1 : State) (a2 : Nat) (a3 : Nat) (a4 : Nat) (h1 : Keeps S z a1) (w : Sub [.objs,
    .irq, .jour, .rates] S) : Keeps S z (State.nvmeDataError a1 a2 a3 a4) := by
  unfold State.nvmeDataError
  apply keeps_State_evRate (w := w.of)
  apply keeps_State_count (w := w.of)
  assumption

theorem keeps_State_ioDone (a1 : State) (a2 : Nat) (a3 : NvCmd) (a4 : Nat) (h1 : Keeps S z a1) (w : Sub [.objs, .irq,
    .jour, .rates, .sent, .stor] S) : Keeps S z (State.ioDone a1 a2 a3 a4) := by
  unfold State.ioDone
  extract_lets +onlyGivenNames y1
  have k1 : Keeps S z y1 := by
    unfold y1
    apply keeps_State_updPcie (w := w.of)
    assumption
  clear_value y1
  apply keeps_State_cqEntry (w := w.of)
  apply keeps_State_count (w := w.of)
  assumption

theorem keeps_State_nsNotice (a1 : State) (a2 : Nat) (h1 : Keeps S z a1) (w : Sub [.objs, .irq, .jour, .rates, .sent,
    .stor] S) : Keeps S z (State.nsNotice a1 a2) := by
  unfold State.nsNotice
  extract_lets +onlyGivenNames y1
  clear_value y1
  refine keeps_ite ?_ ?_
  · assumption
  · split
    · apply keeps_State_updPcie (w := w.of)
      assumption
    · apply keeps_State_cqEntry (w := w.of)
      apply keeps_State_updPcie (w := w.of)
      assumption

theorem keeps_State_driveState (a1 : State) (a2 : Nat) (a3 : Nat) (a4 : Nat) (h1 : Keeps S z a1) (w : Sub [.objs,
    .irq, .jour] S) : Keeps S z (State.driveState a1 a2 a3 a4) := by
  unfold State.driveState
  extract_lets +onlyGivenNames y1
  clear_value y1
  refine keeps_ite ?_ ?_
  · assumption
  · apply keeps_State_ev (w := w.of)
    apply keeps_State_set (w := w.of)
    assumption

theorem keeps_State_driveBegin (a1 : State) (a2 : Nat) (h1 : Keeps S z a1) (w : Sub [.objs, .irq, .jour, .sent, .stor]
    S) : Keeps S z (State.driveBegin a1 a2) := by
  unfold State.driveBegin
  apply keeps_State_send (w := w.of)
  apply keeps_State_send (w := w.of)
  apply keeps_State_driveState (w := w.of)
  apply keeps_State_updPcie (w := w.of)
  assumption

theorem keeps_State_driveQueues (a1 : State) (a2 : Nat) (h1 : Keeps S z a1) (w : Sub [.sent] S) : Keeps S z
    (State.driveQueues a1 a2) := by
  unfold State.driveQueues
  extract_lets +onlyGivenNames y1
  have k1 : Keeps S z y1 := by
    unfold y1
    apply keeps_State_send (w := w.of)
    apply keeps_State_send (w := w.of)
    assumption
  clear_value y1
  apply keeps_forAll
  · intro x2
    intro x3
    intro k4
    apply keeps_State_send (w := w.of)
    assumption
  · assumption

theorem keeps_State_sendUnit (a1 : State) (a2 : Nat) (a3 : SUnit) (h1 : Keeps S z a1) (w : Sub [.objs, .irq, .jour,
    .rates, .sent, .fabric] S) : Keeps S z (State.sendUnit a1 a2 a3) := by
  unfold State.sendUnit
  apply keeps_State_unitOut (w := w.of)
  apply keeps_State_send (w := w.of)
  assumption

theorem keeps_State_sendNsInfo (a1 : State) (a2 : Nat) (a3 : Nat) (h1 : Keeps S z a1) (w : Sub [.objs, .irq, .jour,
    .rates, .sent, .fabric] S) : Keeps S z (State.sendNsInfo a1 a2 a3) := by
  unfold State.sendNsInfo
  extract_lets +onlyGivenNames y1
  clear_value y1
  split
  · apply keeps_State_sendUnit (w := w.of)
    assumption
  · assumption

theorem keeps_State_stageIn (a1 : State) (a2 : Nat) (a3 : Nat) (a4 : Nat) (a5 : Bytes) (h1 : Keeps S z a1) (w : Sub
    [.dram] S) : Keeps S z (State.stageIn a1 a2 a3 a4 a5) := by
  induction a5 generalizing a1 a4 with
  | nil =>
    rw [State.stageIn]
    assumption
  | cons e r ih =>
    rw [State.stageIn]
    apply ih
    apply keeps_State_dramPut (w := w.of)
    assumption

theorem keeps_State_stagingTakes (a1 : State) (a2 : Nat) (h1 : Keeps S z a1) (w : Sub [.stor] S) : Keeps S z
    (State.stagingTakes a1 a2) := by
  unfold State.stagingTakes
  apply keeps_State_updStore (w := w.of)
  assumption

theorem keeps_State_issue (a1 : State) (a2 : Nat) (a3 : QdCmd) (h1 : Keeps S z a1) (w : Sub [.sent, .stor] S) : Keeps
    S z (State.issue a1 a2 a3) := by
  unfold State.issue
  split
  extract_lets +onlyGivenNames y1
  have k1 : Keeps S z y1 := by
    unfold y1
    apply keeps_State_updPcie (w := w.of)
    refine keeps_pair (by assumption) ?_
    apply keeps_State_newTag (w := w.of)
    assumption
  clear_value y1
  apply keeps_State_send (w := w.of)
  assumption

theorem keeps_State_issueQueued (a1 : State) (a2 : Nat) (a3 : List QdCmd) (h1 : Keeps S z a1) (w : Sub [.irq, .jour,
    .rates, .sent, .stor] S) : Keeps S z (State.issueQueued a1 a2 a3) := by
  induction a3 generalizing a1 with
  | nil =>
    rw [State.issueQueued]
    assumption
  | cons e r ih =>
    rw [State.issueQueued]
    refine keeps_ite ?_ ?_
    · extract_lets +onlyGivenNames y1
      have k1 : Keeps S z y1 := by
        unfold y1
        apply keeps_State_updPcie (w := w.of)
        apply keeps_State_issue (w := w.of)
        assumption
      clear_value y1
      extract_lets +onlyGivenNames y2
      clear_value y2
      extract_lets +onlyGivenNames y3
      have k3 : Keeps S z y3 := by
        unfold y3
        refine keeps_ite ?_ ?_
        · assumption
        · apply keeps_State_evRate (w := w.of)
          assumption
      clear_value y3
      apply ih
      assumption
    · assumption

theorem keeps_State_toDrive (a1 : State) (a2 : Nat) (a3 : QdCmd) (h1 : Keeps S z a1) (w : Sub [.irq, .jour, .rates,
    .sent, .stor] S) : Keeps S z (State.toDrive a1 a2 a3) := by
  unfold State.toDrive
  extract_lets +onlyGivenNames y1
  have k1 : Keeps S z y1 := by
    unfold y1
    apply keeps_State_updPcie (w := w.of)
    assumption
  clear_value y1
  apply keeps_State_issueQueued (w := w.of)
  assumption

theorem keeps_State_sendData (a1 : State) (a2 : Nat) (a3 : Nat) (a4 : Bytes) (h1 : Keeps S z a1) (w : Sub [.objs,
    .irq, .jour, .rates, .sent, .fabric] S) : Keeps S z (State.sendData a1 a2 a3 a4) := by
  unfold State.sendData
  extract_lets +onlyGivenNames y1
  clear_value y1
  apply keeps_forAll
  · intro x2
    intro x3
    intro k4
    apply keeps_State_sendUnit (w := w.of)
    assumption
  · assumption

theorem keeps_State_dropFetched (a1 : State) (a2 : List Nat) (a3 : Nat → Bool) (h1 : Keeps S z a1) (w : Sub [.objs,
    .irq, .jour, .rates, .stor] S) : Keeps S z (State.dropFetched a1 a2 a3) := by
  unfold State.dropFetched
  apply keeps_forAll
  · intro x1
    intro x2
    intro k3
    extract_lets +onlyGivenNames y4
    clear_value y4
    refine keeps_ite ?_ ?_
    · assumption
    · extract_lets +onlyGivenNames y5
      have k5 : Keeps S z y5 := by
        unfold y5
        apply keeps_State_updStore (w := w.of)
        assumption
      clear_value y5
      apply keeps_State_evRate (w := w.of)
      apply keeps_State_count (w := w.of)
      assumption
  · assumption

theorem keeps_State_dropAll (a1 : State) (a2 : List Nat) (h1 : Keeps S z a1) (w : Sub [.objs, .irq, .jour, .rates,
    .stor] S) : Keeps S z (State.dropAll a1 a2) := by
  unfold State.dropAll
  apply keeps_State_updStore (w := w.of)
  apply keeps_State_dropFetched (w := w.of)
  assumption

theorem keeps_State_hurtDone (a1 : State) (a2 : Nat) (a3 : Nat) (a4 : Nat) (h1 : Keeps S z a1) (w : Sub [.stor] S) :
    Keeps S z (State.hurtDone a1 a2 a3 a4) := by
  unfold State.hurtDone
  extract_lets +onlyGivenNames y1
  clear_value y1
  apply keeps_State_updStore (w := w.of)
  assumption

theorem keeps_State_lockEv (a1 : State) (a2 : Nat) (a3 : Nat) (a4 : Nat) (a5 : Nat) (h1 : Keeps S z a1) (w : Sub
    [.irq, .jour] S) : Keeps S z (State.lockEv a1 a2 a3 a4 a5) := by
  unfold State.lockEv
  apply keeps_State_ev (w := w.of)
  assumption

theorem keeps_State_windowOut (a1 : State) (a2 : Bool) (a3 : Nat) (a4 : Nat) (a5 : Nat) (a6 : Nat) (a7 : Nat) (a8 :
    Nat) (a9 : Nat) (a10 : Nat) (a11 : Bytes) (h1 : Keeps S z a1) (w : Sub [.objs, .irq, .jour, .rates, .fabric] S) :
    Keeps S z (State.windowOut a1 a2 a3 a4 a5 a6 a7 a8 a9 a10 a11) := by
  unfold State.windowOut
  apply keeps_State_unitOut (w := w.of)
  assumption

theorem keeps_State_windowUnit (a1 : State) (a2 : Nat) (a3 : Nat) (a4 : Nat) (a5 : Nat) (a6 : Nat) (a7 : Nat) (a8 :
    Nat) (a9 : Nat) (a10 : Bytes) (h1 : Keeps S z a1) (w : Sub [.objs, .irq, .jour, .rates, .fabric] S) : Keeps S z
    (State.windowUnit a1 a2 a3 a4 a5 a6 a7 a8 a9 a10) := by
  unfold State.windowUnit
  apply keeps_State_windowOut (w := w.of)
  assumption

theorem keeps_State_farWrite (a1 : State) (a2 : Nat) (a3 : Nat) (a4 : Nat) (a5 : Bytes) (h1 : Keeps S z a1) (w : Sub
    [.objs, .sent] S) : Keeps S z (State.farWrite a1 a2 a3 a4 a5) := by
  unfold State.farWrite
  extract_lets +onlyGivenNames y1
  clear_value y1
  extract_lets +onlyGivenNames y2
  clear_value y2
  apply keeps_forAll
  · intro x3
    intro x4
    intro k5
    extract_lets +onlyGivenNames y6
    clear_value y6
    extract_lets +onlyGivenNames y7
    clear_value y7
    extract_lets +onlyGivenNames y8
    clear_value y8
    extract_lets +onlyGivenNames y9
    clear_value y9
    apply keeps_State_send (w := w.of)
    apply keeps_State_count (w := w.of)
    assumption
  · assumption

theorem keeps_State_busAnswer (a1 : State) (a2 : Nat) (a3 : Nat) (a4 : Nat) (a5 : Nat) (a6 : Nat) (a7 : Nat) (a8 :
    Nat) (a9 : Nat) (a10 : Bytes) (h1 : Keeps S z a1) (w : Sub [.objs, .irq, .jour, .rates, .fabric, .stor] S) : Keeps
    S z (State.busAnswer a1 a2 a3 a4 a5 a6 a7 a8 a9 a10) := by
  unfold State.busAnswer
  extract_lets +onlyGivenNames y1
  have k1 : Keeps S z y1 := by
    unfold y1
    apply keeps_State_count (w := w.of)
    assumption
  clear_value y1
  extract_lets +onlyGivenNames y2
  have k2 : Keeps S z y2 := by
    unfold y2
    refine keeps_ite ?_ ?_
    · apply keeps_State_pcieErrors (w := w.of)
      assumption
    · assumption
  clear_value y2
  apply keeps_State_windowOut (w := w.of)
  assumption

theorem keeps_State_farRead (a1 : State) (a2 : Nat) (a3 : Nat) (a4 : Nat) (a5 : Nat) (h1 : Keeps S z a1) (w : Sub
    [.objs, .sent] S) : Keeps S z (State.farRead a1 a2 a3 a4 a5) := by
  unfold State.farRead
  extract_lets +onlyGivenNames y1
  clear_value y1
  apply keeps_forAll
  · intro x2
    intro x3
    intro k4
    extract_lets +onlyGivenNames y5
    clear_value y5
    extract_lets +onlyGivenNames y6
    clear_value y6
    extract_lets +onlyGivenNames y7
    clear_value y7
    apply keeps_State_send (w := w.of)
    apply keeps_State_count (w := w.of)
    assumption
  · assumption

theorem keeps_State_issueUnit (a1 : State) (a2 : Nat) (a3 : Nat) (a4 : Bytes) (a5 : Nat) (a6 : Bytes) (h1 : Keeps S z
    a1) (w : Sub [.objs, .irq, .jour, .rates, .sent, .fabric, .stor] S) : Keeps S z (State.issueUnit a1 a2 a3 a4 a5
    a6) := by
  unfold State.issueUnit
  extract_lets +onlyGivenNames y1
  clear_value y1
  extract_lets +onlyGivenNames y2
  clear_value y2
  extract_lets +onlyGivenNames y3
  clear_value y3
  extract_lets +onlyGivenNames y4
  clear_value y4
  extract_lets +onlyGivenNames y5
  clear_value y5
  extract_lets +onlyGivenNames y6
  clear_value y6
  refine keeps_ite ?_ ?_
  · assumption
  · refine keeps_ite ?_ ?_
    · refine keeps_ite ?_ ?_
      · assumption
      · apply keeps_State_windowUnit (w := w.of)
        assumption
    · refine keeps_ite ?_ ?_
      · extract_lets +onlyGivenNames y7
        have k7 : Keeps S z y7 := by
          unfold y7
          apply keeps_State_pcieErrors (w := w.of)
          assumption
        clear_value y7
        refine keeps_ite ?_ ?_
        · assumption
        · apply keeps_State_windowUnit (w := w.of)
          assumption
      · refine keeps_ite ?_ ?_
        · apply keeps_State_farWrite (w := w.of)
          apply keeps_State_dropAll (w := w.of)
          assumption
        · refine keeps_ite ?_ ?_
          · apply keeps_State_busAnswer (w := w.of)
            apply keeps_State_farRead (w := w.of)
            assumption
          · assumption

theorem keeps_State_freeLock (a1 : State) (a2 : Nat) (h1 : Keeps S z a1) (w : Sub [.objs, .irq, .jour, .rates, .sent,
    .fabric, .stor] S) : Keeps S z (State.freeLock a1 a2) := by
  unfold State.freeLock
  extract_lets +onlyGivenNames y1
  clear_value y1
  extract_lets +onlyGivenNames y2
  clear_value y2
  extract_lets +onlyGivenNames y3
  clear_value y3
  refine keeps_ite ?_ ?_
  · assumption
  · extract_lets +onlyGivenNames y4
    have k4 : Keeps S z y4 := by
      unfold y4
      apply keeps_State_lockEv (w := w.of)
      apply keeps_State_send (w := w.of)
      apply keeps_State_set (w := w.of)
      apply keeps_State_updPcie (w := w.of)
      assumption
    clear_value y4
    apply keeps_forAll
    · intro x5
      intro x6
      intro k7
      apply keeps_State_issueUnit (w := w.of)
      assumption
    · assumption

theorem keeps_State_windowSet (a1 : State) (a2 : Nat) (a3 : Nat) (h1 : Keeps S z a1) (w : Sub [.objs, .irq, .jour,
    .rates, .stor] S) : Keeps S z (State.windowSet a1 a2 a3) := by
  unfold State.windowSet
  extract_lets +onlyGivenNames y1
  clear_value y1
  extract_lets +onlyGivenNames y2
  have k2 : Keeps S z y2 := by
    unfold y2
    refine keeps_ite ?_ ?_
    · apply keeps_State_updStore (w := w.of)
      assumption
    · apply keeps_State_dropAll (w := w.of)
      assumption
  clear_value y2
  apply keeps_State_set (w := w.of)
  assumption

theorem keeps_State_fence (a1 : State) (a2 : Nat) (a3 : Nat) (a4 : Nat) (a5 : Nat) (h1 : Keeps S z a1) (w : Sub
    [.objs, .irq, .jour, .rates, .sent, .fabric, .stor] S) : Keeps S z (State.fence a1 a2 a3 a4 a5) := by
  unfold State.fence
  extract_lets +onlyGivenNames y1
  clear_value y1
  extract_lets +onlyGivenNames y2
  have k2 : Keeps S z y2 := by
    unfold y2
    apply keeps_forAll
    · intro x3
      intro x4
      intro k5
      apply keeps_State_count (w := w.of)
      assumption
    · assumption
  clear_value y2
  refine keeps_ite ?_ ?_
  · assumption
  · extract_lets +onlyGivenNames y6
    have k6 : Keeps S z y6 := by
      unfold y6
      apply keeps_State_updStore (w := w.of)
      assumption
    clear_value y6
    extract_lets +onlyGivenNames y7
    have k7 : Keeps S z y7 := by
      unfold y7
      apply keeps_forAll
      · intro x8
        intro x9
        intro k10
        apply keeps_State_set (w := w.of)
        assumption
      · assumption
    clear_value y7
    extract_lets +onlyGivenNames y11
    have k11 : Keeps S z y11 := by
      unfold y11
      apply keeps_State_dropAll (w := w.of)
      assumption
    clear_value y11
    extract_lets +onlyGivenNames y12
    have k12 : Keeps S z y12 := by
      unfold y12
      apply keeps_forAll
      · intro x13
        intro x14
        intro k15
        refine keeps_ite ?_ ?_
        · apply keeps_State_freeLock (w := w.of)
          assumption
        · assumption
      · assumption
    clear_value y12
    apply keeps_State_ev (w := w.of)
    assumption

theorem keeps_State_storageOpen (a1 : State) (a2 : Nat) (a3 : Nat) (h1 : Keeps S z a1) (w : Sub [.objs, .irq, .jour,
    .rates, .sent, .fabric, .stor] S) : Keeps S z (State.storageOpen a1 a2 a3) := by
  unfold State.storageOpen
  extract_lets +onlyGivenNames y1
  clear_value y1
  refine keeps_ite ?_ ?_
  · refine keeps_ite ?_ ?_
    · apply keeps_State_sendNsInfo (w := w.of)
      assumption
    · refine keeps_ite ?_ ?_
      · apply keeps_State_nsNotice (w := w.of)
        assumption
      · assumption
  · assumption

theorem keeps_State_storageClose (a1 : State) (a2 : Nat) (h1 : Keeps S z a1) (w : Sub [.objs, .irq, .jour, .rates,
    .sent, .fabric, .stor] S) : Keeps S z (State.storageClose a1 a2) := by
  unfold State.storageClose
  extract_lets +onlyGivenNames y1
  clear_value y1
  extract_lets +onlyGivenNames y2
  clear_value y2
  extract_lets +onlyGivenNames y3
  clear_value y3
  extract_lets +onlyGivenNames y4
  have k4 : Keeps S z y4 := by
    unfold y4
    apply keeps_forAll
    · intro x5
      intro x6
      intro k7
      apply keeps_State_nvmeDataError (w := w.of)
      apply keeps_State_ioDone (w := w.of)
      assumption
    · assumption
  clear_value y4
  extract_lets +onlyGivenNames y8
  have k8 : Keeps S z y8 := by
    unfold y8
    refine keeps_ite ?_ ?_
    · refine keeps_ite ?_ ?_
      · apply keeps_State_nsNotice (w := w.of)
        assumption
      · assumption
    · assumption
  clear_value y8
  extract_lets +onlyGivenNames y9
  have k9 : Keeps S z y9 := by
    unfold y9
    apply keeps_forAll
    · intro x10
      intro x11
      intro k12
      apply keeps_State_updPcie (w := w.of)
      assumption
    · assumption
  clear_value y9
  extract_lets +onlyGivenNames y13
  have k13 : Keeps S z y13 := by
    unfold y13
    apply keeps_State_dropAll (w := w.of)
    assumption
  clear_value y13
  extract_lets +onlyGivenNames y14
  clear_value y14
  extract_lets +onlyGivenNames y15
  have k15 : Keeps S z y15 := by
    unfold y15
    apply keeps_State_updStore (w := w.of)
    assumption
  clear_value y15
  apply keeps_forAll
  · intro x16
    intro x17
    intro k18
    refine keeps_ite ?_ ?_
    · apply keeps_State_freeLock (w := w.of)
      assumption
    · assumption
  · assumption

theorem keeps_State_storageLost (a1 : State) (a2 : Nat) (a3 : List Int) (h1 : Keeps S z a1) (w : Sub [.objs, .irq,
    .jour, .rates, .sent, .fabric, .stor] S) : Keeps S z (State.storageLost a1 a2 a3) := by
  unfold State.storageLost
  refine keeps_ite ?_ ?_
  · assumption
  · extract_lets +onlyGivenNames y1
    have k1 : Keeps S z y1 := by
      unfold y1
      apply keeps_State_updStore (w := w.of)
      assumption
    clear_value y1
    refine keeps_ite ?_ ?_
    · apply keeps_State_fence (w := w.of)
      assumption
    · assumption

theorem keeps_State_storageTakes (a1 : State) (a2 : Nat) (a3 : Cell) (h1 : Keeps S z a1) (w : Sub [.stor] S) : Keeps S
    z (State.storageTakes a1 a2 a3) := by
  unfold State.storageTakes
  extract_lets +onlyGivenNames y1
  have k1 : Keeps S z y1 := by
    unfold y1
    refine keeps_ite ?_ ?_
    · apply keeps_State_updStore (w := w.of)
      assumption
    · assumption
  clear_value y1
  refine keeps_ite ?_ ?_
  · apply keeps_State_stagingTakes (w := w.of)
    assumption
  · assumption

theorem keeps_State_windowWrite (a1 : State) (a2 : Nat) (a3 : Nat) (a4 : Nat) (a5 : Bytes) (a6 : Bool) (h1 : Keeps S z
    a1) (w : Sub [.objs, .irq, .jour, .rates, .fabric, .stor] S) : Keeps S z (State.windowWrite a1 a2 a3 a4 a5 a6) :=
    by
  unfold State.windowWrite
  split
  · apply keeps_State_pcieErrors (w := w.of)
    assumption
  · extract_lets +onlyGivenNames y1
    clear_value y1
    extract_lets +onlyGivenNames y2
    have k2 : Keeps S z y2 := by
      unfold y2
      apply keeps_State_count (w := w.of)
      assumption
    clear_value y2
    refine keeps_ite ?_ ?_
    · assumption
    · extract_lets +onlyGivenNames y3
      clear_value y3
      extract_lets +onlyGivenNames y4
      have k4 : Keeps S z y4 := by
        unfold y4
        apply keeps_State_count (w := w.of)
        assumption
      clear_value y4
      extract_lets +onlyGivenNames y5
      have k5 : Keeps S z y5 := by
        unfold y5
        apply keeps_State_dropAll (w := w.of)
        assumption
      clear_value y5
      apply keeps_forAll
      · intro x6
        intro x7
        intro k8
        split
        split
        apply keeps_State_windowOut (w := w.of)
        refine keeps_pair (by assumption) ?_
        apply keeps_State_newTag (w := w.of)
        assumption
      · assumption

theorem keeps_State_windowRead (a1 : State) (a2 : Nat) (a3 : Nat) (a4 : Nat) (a5 : Nat) (a6 : Nat) (a7 : Bool) (h1 :
    Keeps S z a1) (w : Sub [.objs, .irq, .jour, .rates, .sent, .fabric, .stor] S) : Keeps S z (State.windowRead a1 a2
    a3 a4 a5 a6 a7) := by
  unfold State.windowRead
  split
  · apply keeps_State_complete (w := w.of)
    apply keeps_State_pcieErrors (w := w.of)
    assumption
  · extract_lets +onlyGivenNames y1
    clear_value y1
    extract_lets +onlyGivenNames y2
    clear_value y2
    extract_lets +onlyGivenNames y3
    clear_value y3
    extract_lets +onlyGivenNames y4
    clear_value y4
    refine keeps_ite ?_ ?_
    · apply keeps_State_complete (w := w.of)
      apply keeps_State_pcieErrors (w := w.of)
      apply keeps_State_count (w := w.of)
      assumption
    · split
      · apply keeps_State_complete (w := w.of)
        apply keeps_State_count (w := w.of)
        apply keeps_State_count (w := w.of)
        assumption
      · split
        extract_lets +onlyGivenNames y5
        clear_value y5
        extract_lets +onlyGivenNames y6
        clear_value y6
        split
        extract_lets +onlyGivenNames y7
        have k7 : Keeps S z y7 := by
          unfold y7
          apply keeps_State_updStore (w := w.of)
          refine keeps_pair (by assumption) ?_
          apply keeps_State_newTag (w := w.of)
          apply keeps_State_count (w := w.of)
          apply keeps_State_count (w := w.of)
          assumption
        clear_value y7
        apply keeps_forAll
        · intro x8
          intro x9
          intro k10
          split
          apply keeps_State_windowUnit (w := w.of)
          assumption
        · assumption

theorem keeps_State_updDisp (a1 : State) (a2 : Nat) (a3 : Disp → Disp) (h1 : Keeps S z a1) (w : Sub [.disps] S) :
    Keeps S z (State.updDisp a1 a2 a3) := by
  unfold State.updDisp
  refine keeps_mk ?_ (w_disps := .inr w.has)
  assumption

theorem keeps_State_updRegion (a1 : State) (a2 : Nat) (a3 : Nat) (a4 : Region → Region) (h1 : Keeps S z a1) (w : Sub
    [.disps] S) : Keeps S z (State.updRegion a1 a2 a3 a4) := by
  unfold State.updRegion
  apply keeps_State_updDisp (w := w.of)
  assumption

theorem keeps_State_budgetCount (a1 : State) (a2 : Bool) (a3 : Option Nat) (h1 : Keeps S z a1) (w : Sub [.objs] S) :
    Keeps S z (State.budgetCount a1 a2 a3) := by
  unfold State.budgetCount
  refine keeps_ite ?_ ?_
  · apply keeps_State_count (w := w.of)
    assumption
  · assumption

theorem keeps_State_outEv (a1 : State) (a2 : Nat) (a3 : Nat) (a4 : Nat) (a5 : Nat) (a6 : Bytes) (h1 : Keeps S z a1) (w
    : Sub [.irq, .jour] S) : Keeps S z (State.outEv a1 a2 a3 a4 a5 a6) := by
  unfold State.outEv
  apply keeps_State_ev (w := w.of)
  assumption

theorem keeps_State_rectDiscard (a1 : State) (a2 : Nat) (a3 : Nat) (a4 : Nat) (a5 : Nat) (h1 : Keeps S z a1) (w : Sub
    [.objs, .irq, .jour, .rates] S) : Keeps S z (State.rectDiscard a1 a2 a3 a4 a5) := by
  unfold State.rectDiscard
  extract_lets +onlyGivenNames y1
  have k1 : Keeps S z y1 := by
    unfold y1
    refine keeps_ite ?_ ?_
    · apply keeps_State_count (w := w.of)
      assumption
    · apply keeps_State_count (w := w.of)
      assumption
  clear_value y1
  apply keeps_State_evRate (w := w.of)
  assumption

theorem keeps_State_receiptLost (a1 : State) (a2 : Nat) (h1 : Keeps S z a1) (w : Sub [.objs, .irq, .jour, .rates] S) :
    Keeps S z (State.receiptLost a1 a2) := by
  unfold State.receiptLost
  apply keeps_State_evRate (w := w.of)
  apply keeps_State_count (w := w.of)
  assumption

theorem keeps_State_regState (a1 : State) (a2 : Nat) (a3 : Nat) (a4 : Nat) (h1 : Keeps S z a1) (w : Sub [.objs] S) :
    Keeps S z (State.regState a1 a2 a3 a4) := by
  unfold State.regState
  apply keeps_State_set (w := w.of)
  assumption

theorem keeps_State_regFault (a1 : State) (a2 : Nat) (a3 : Nat) (a4 : Bool) (h1 : Keeps S z a1) (w : Sub [.objs] S) :
    Keeps S z (State.regFault a1 a2 a3 a4) := by
  unfold State.regFault
  apply keeps_State_set (w := w.of)
  apply keeps_State_set (w := w.of)
  assumption

theorem keeps_State_regArm (a1 : State) (a2 : Nat) (a3 : Nat) (h1 : Keeps S z a1) (w : Sub [.objs, .disps] S) : Keeps
    S z (State.regArm a1 a2 a3) := by
  unfold State.regArm
  extract_lets +onlyGivenNames y1
  have k1 : Keeps S z y1 := by
    unfold y1
    apply keeps_State_updRegion (w := w.of)
    assumption
  clear_value y1
  apply keeps_State_setAll (w := w.of)
  apply keeps_State_regState (w := w.of)
  assumption

theorem keeps_State_regTake (a1 : State) (a2 : Nat) (a3 : Nat) (h1 : Keeps S z a1) (w : Sub [.objs, .disps] S) : Keeps
    S z (State.regTake a1 a2 a3) := by
  unfold State.regTake
  extract_lets +onlyGivenNames y1
  clear_value y1
  extract_lets +onlyGivenNames y2
  clear_value y2
  extract_lets +onlyGivenNames y3
  clear_value y3
  extract_lets +onlyGivenNames y4
  clear_value y4
  extract_lets +onlyGivenNames y5
  have k5 : Keeps S z y5 := by
    unfold y5
    apply keeps_State_updRegion (w := w.of)
    assumption
  clear_value y5
  refine keeps_ite ?_ ?_
  · apply keeps_State_regState (w := w.of)
    assumption
  · refine keeps_ite ?_ ?_
    · refine keeps_ite ?_ ?_
      · apply keeps_State_regArm (w := w.of)
        assumption
      · assumption
    · refine keeps_ite ?_ ?_
      · apply keeps_State_regArm (w := w.of)
        assumption
      · assumption

theorem keeps_State_regStart (a1 : State) (a2 : Nat) (a3 : Nat) (h1 : Keeps S z a1) (w : Sub [.objs, .irq, .jour,
    .disps] S) : Keeps S z (State.regStart a1 a2 a3) := by
  unfold State.regStart
  extract_lets +onlyGivenNames y1
  have k1 : Keeps S z y1 := by
    unfold y1
    apply keeps_State_regTake (w := w.of)
    assumption
  clear_value y1
  refine keeps_ite ?_ ?_
  · assumption
  · refine keeps_ite ?_ ?_
    · apply keeps_State_regArm (w := w.of)
      assumption
    · apply keeps_State_ev (w := w.of)
      apply keeps_State_regState (w := w.of)
      assumption

theorem keeps_State_expectCancel (a1 : State) (a2 : Nat) (a3 : Nat) (a4 : Nat) (h1 : Keeps S z a1) (w : Sub [.objs,
    .irq, .jour] S) : Keeps S z (State.expectCancel a1 a2 a3 a4) := by
  unfold State.expectCancel
  apply keeps_forAll
  · intro x1
    intro x2
    intro k3
    refine keeps_ite ?_ ?_
    · apply keeps_State_ev (w := w.of)
      apply keeps_State_set (w := w.of)
      assumption
    · assumption
  · assumption

theorem keeps_State_expectApply (a1 : State) (a2 : Nat) (a3 : Nat) (h1 : Keeps S z a1) (w : Sub [.objs, .disps] S) :
    Keeps S z (State.expectApply a1 a2 a3) := by
  unfold State.expectApply
  apply keeps_forAll
  · intro x1
    intro x2
    intro k3
    refine keeps_ite ?_ ?_
    · extract_lets +onlyGivenNames y4
      clear_value y4
      refine keeps_ite ?_ ?_
      · apply keeps_State_set (w := w.of)
        assumption
      · apply keeps_State_updRegion (w := w.of)
        apply keeps_State_setAll (w := w.of)
        assumption
    · assumption
  · assumption

theorem keeps_State_showFlips (a1 : State) (a2 : Nat) (h1 : Keeps S z a1) (w : Sub [.objs] S) : Keeps S z
    (State.showFlips a1 a2) := by
  unfold State.showFlips
  apply keeps_State_set (w := w.of)
  assumption

theorem keeps_State_updFlip (a1 : State) (a2 : Nat) (a3 : Nat) (a4 : Flip → Flip) (h1 : Keeps S z a1) (w : Sub [.objs,
    .disps] S) : Keeps S z (State.updFlip a1 a2 a3 a4) := by
  unfold State.updFlip
  apply keeps_State_showFlips (w := w.of)
  apply keeps_State_updDisp (w := w.of)
  assumption

theorem keeps_State_own (a1 : State) (a2 : Nat) (a3 : Nat × Nat) (a4 : Bool) (h1 : Keeps S z a1) (w : Sub [.objs] S) :
    Keeps S z (State.own a1 a2 a3 a4) := by
  unfold State.own
  apply keeps_State_set (w := w.of)
  assumption

theorem keeps_State_giveBack (a1 : State) (a2 : Nat) (a3 : List (Nat × Nat)) (h1 : Keeps S z a1) (w : Sub [.objs] S) :
    Keeps S z (State.giveBack a1 a2 a3) := by
  unfold State.giveBack
  apply keeps_forAll
  · intro x1
    intro x2
    intro k3
    extract_lets +onlyGivenNames y4
    clear_value y4
    refine keeps_ite ?_ ?_
    · assumption
    · refine keeps_ite ?_ ?_
      · assumption
      · apply keeps_State_own (w := w.of)
        assumption
  · assumption

theorem keeps_State_dropFlip (a1 : State) (a2 : Nat) (a3 : Flip) (a4 : Nat) (h1 : Keeps S z a1) (w : Sub [.objs, .irq,
    .jour, .disps] S) : Keeps S z (State.dropFlip a1 a2 a3 a4) := by
  unfold State.dropFlip
  extract_lets +onlyGivenNames y1
  have k1 : Keeps S z y1 := by
    unfold y1
    apply keeps_State_updFlip (w := w.of)
    assumption
  clear_value y1
  extract_lets +onlyGivenNames y2
  have k2 : Keeps S z y2 := by
    unfold y2
    apply keeps_State_updDisp (w := w.of)
    assumption
  clear_value y2
  apply keeps_State_expectCancel (w := w.of)
  apply keeps_State_outEv (w := w.of)
  apply keeps_State_showFlips (w := w.of)
  apply keeps_State_count (w := w.of)
  assumption

theorem keeps_State_discardFlips (a1 : State) (a2 : Nat) (h1 : Keeps S z a1) (w : Sub [.objs, .irq, .jour, .disps] S)
    : Keeps S z (State.discardFlips a1 a2) := by
  unfold State.discardFlips
  extract_lets +onlyGivenNames y1
  clear_value y1
  extract_lets +onlyGivenNames y2
  clear_value y2
  extract_lets +onlyGivenNames y3
  have k3 : Keeps S z y3 := by
    unfold y3
    apply keeps_State_showFlips (w := w.of)
    apply keeps_State_updDisp (w := w.of)
    assumption
  clear_value y3
  apply keeps_forAll
  · intro x4
    intro x5
    intro k6
    apply keeps_State_expectCancel (w := w.of)
    assumption
  · apply keeps_State_giveBack (w := w.of)
    assumption

theorem keeps_State_ownFronts (a1 : State) (a2 : Nat) (h1 : Keeps S z a1) (w : Sub [.objs] S) : Keeps S z
    (State.ownFronts a1 a2) := by
  unfold State.ownFronts
  apply keeps_forAll
  · intro x1
    intro x2
    intro k3
    extract_lets +onlyGivenNames y4
    clear_value y4
    apply keeps_State_set (w := w.of)
    assumption
  · assumption

theorem keeps_State_displayOpen (a1 : State) (a2 : Nat) (h1 : Keeps S z a1) (w : Sub [.objs, .irq, .jour, .disps] S) :
    Keeps S z (State.displayOpen a1 a2) := by
  unfold State.displayOpen
  split
  · assumption
  · extract_lets +onlyGivenNames y1
    have k1 : Keeps S z y1 := by
      unfold y1
      apply keeps_State_updDisp (w := w.of)
      apply keeps_State_discardFlips (w := w.of)
      assumption
    clear_value y1
    apply keeps_State_ownFronts (w := w.of)
    assumption

theorem keeps_State_displayClose (a1 : State) (a2 : Nat) (h1 : Keeps S z a1) (w : Sub [.objs, .irq, .jour, .disps] S)
    : Keeps S z (State.displayClose a1 a2) := by
  unfold State.displayClose
  split
  · assumption
  · apply keeps_State_discardFlips (w := w.of)
    assumption

theorem keeps_State_updUnit (a1 : State) (a2 : Nat) (a3 : Int) (a4 : DUnit → DUnit) (h1 : Keeps S z a1) (w : Sub
    [.disps] S) : Keeps S z (State.updUnit a1 a2 a3 a4) := by
  unfold State.updUnit
  apply keeps_State_updDisp (w := w.of)
  assumption

theorem keeps_State_tear (a1 : State) (a2 : Nat) (a3 : Nat) (a4 : Int) (h1 : Keeps S z a1) (w : Sub [.freeCount,
    .disps] S) : Keeps S z (State.tear a1 a2 a3 a4) := by
  unfold State.tear
  split
  · assumption
  · refine keeps_ite ?_ ?_
    · assumption
    · split
      extract_lets +onlyGivenNames y1
      clear_value y1
      apply keeps_State_updDisp (w := w.of)
      refine keeps_pair (by assumption) ?_
      apply keeps_State_draw (w := w.of)
      assumption

theorem keeps_State_writePixels (a1 : State) (a2 : Nat) (a3 : DUnit) (a4 : Nat) (a5 : Bytes) (h1 : Keeps S z a1) (w :
    Sub [.objs, .freeCount, .disps, .dram] S) : Keeps S z (State.writePixels a1 a2 a3 a4 a5) := by
  unfold State.writePixels
  extract_lets +onlyGivenNames y1
  clear_value y1
  extract_lets +onlyGivenNames y2
  clear_value y2
  extract_lets +onlyGivenNames y3
  clear_value y3
  extract_lets +onlyGivenNames y4
  clear_value y4
  extract_lets +onlyGivenNames y5
  have k5 : Keeps S z y5 := by
    unfold y5
    apply keeps_forAll
    · intro x6
      intro x7
      intro k8
      extract_lets +onlyGivenNames y9
      clear_value y9
      extract_lets +onlyGivenNames y10
      clear_value y10
      extract_lets +onlyGivenNames y11
      clear_value y11
      extract_lets +onlyGivenNames y12
      have k12 : Keeps S z y12 := by
        unfold y12
        refine keeps_ite ?_ ?_
        · apply keeps_State_tear (w := w.of)
          assumption
        · assumption
      clear_value y12
      apply keeps_State_dramPut (w := w.of)
      assumption
    · assumption
  clear_value y5
  apply keeps_State_count (w := w.of)
  assumption

theorem keeps_State_placeCell (a1 : State) (a2 : Nat) (a3 : DUnit) (a4 : Int) (a5 : Cell) (h1 : Keeps S z a1) (w : Sub
    [.objs, .freeCount, .disps, .dram] S) : Keeps S z (State.placeCell a1 a2 a3 a4 a5) := by
  unfold State.placeCell
  extract_lets +onlyGivenNames y1
  clear_value y1
  extract_lets +onlyGivenNames y2
  clear_value y2
  extract_lets +onlyGivenNames y3
  clear_value y3
  extract_lets +onlyGivenNames y4
  have k4 : Keeps S z y4 := by
    unfold y4
    refine keeps_ite ?_ ?_
    · apply keeps_State_writePixels (w := w.of)
      assumption
    · refine keeps_ite ?_ ?_
      · apply keeps_State_updUnit (w := w.of)
        assumption
      · assumption
  clear_value y4
  refine keeps_ite ?_ ?_
  · extract_lets +onlyGivenNames y5
    clear_value y5
    extract_lets +onlyGivenNames y6
    have k6 : Keeps S z y6 := by
      unfold y6
      apply keeps_State_updUnit (w := w.of)
      assumption
    clear_value y6
    refine keeps_ite ?_ ?_
    · apply keeps_State_count (w := w.of)
      assumption
    · assumption
  · assumption

theorem keeps_State_commitFlip (a1 : State) (a2 : Nat) (a3 : Nat) (a4 : Nat) (a5 : Nat) (a6 : Option Nat) (a7 : Int)
    (h1 : Keeps S z a1) (w : Sub [.objs, .disps] S) : Keeps S z (State.commitFlip a1 a2 a3 a4 a5 a6 a7) := by
  unfold State.commitFlip
  refine keeps_ite ?_ ?_
  · assumption
  · extract_lets +onlyGivenNames y1
    have k1 : Keeps S z y1 := by
      unfold y1
      apply keeps_State_updFlip (w := w.of)
      assumption
    clear_value y1
    extract_lets +onlyGivenNames y2
    have k2 : Keeps S z y2 := by
      unfold y2
      apply keeps_State_updDisp (w := w.of)
      assumption
    clear_value y2
    apply keeps_forAll
    · intro x3
      intro x4
      intro k5
      apply keeps_State_own (w := w.of)
      assumption
    · assumption

theorem keeps_State_unitFirst (a1 : State) (a2 : Nat) (a3 : Int) (a4 : Cell) (h1 : Keeps S z a1) (w : Sub [.objs,
    .freeCount, .irq, .jour, .rates, .disps, .dram] S) : Keeps S z (State.unitFirst a1 a2 a3 a4) := by
  unfold State.unitFirst
  extract_lets +onlyGivenNames y1
  clear_value y1
  extract_lets +onlyGivenNames y2
  clear_value y2
  extract_lets +onlyGivenNames y3
  clear_value y3
  extract_lets +onlyGivenNames y4
  clear_value y4
  extract_lets +onlyGivenNames y5
  clear_value y5
  extract_lets +onlyGivenNames y6
  clear_value y6
  extract_lets +onlyGivenNames y7
  have k7 : ∀ x1 x2, Keeps S z x2 →  Keeps S z (y7 x1 x2) := by
    intro x1 x2 hx2
    unfold y7
    apply keeps_State_updDisp (w := w.of)
    assumption
  clear_value y7
  extract_lets +onlyGivenNames y8
  clear_value y8
  refine keeps_ite ?_ ?_
  · apply k7
    apply keeps_State_rectDiscard (w := w.of)
    assumption
  · refine keeps_ite ?_ ?_
    · refine keeps_ite ?_ ?_
      · apply keeps_State_rectDiscard (w := w.of)
        assumption
      · apply keeps_State_commitFlip (w := w.of)
        assumption
    · refine keeps_ite ?_ ?_
      · apply k7
        apply keeps_State_rectDiscard (w := w.of)
        assumption
      · apply keeps_State_placeCell (w := w.of)
        apply keeps_State_updFlip (w := w.of)
        apply k7
        assumption

theorem keeps_State_lineFirst (a1 : State) (a2 : Nat) (a3 : Int) (a4 : Cell) (h1 : Keeps S z a1) (w : Sub [.objs,
    .freeCount, .irq, .jour, .rates, .disps, .dram] S) : Keeps S z (State.lineFirst a1 a2 a3 a4) := by
  unfold State.lineFirst
  extract_lets +onlyGivenNames y1
  clear_value y1
  extract_lets +onlyGivenNames y2
  clear_value y2
  extract_lets +onlyGivenNames y3
  clear_value y3
  extract_lets +onlyGivenNames y4
  clear_value y4
  extract_lets +onlyGivenNames y5
  clear_value y5
  extract_lets +onlyGivenNames y6
  clear_value y6
  extract_lets +onlyGivenNames y7
  have k7 : ∀ x1 x2, Keeps S z x2 →  Keeps S z (y7 x1 x2) := by
    intro x1 x2 hx2
    unfold y7
    apply keeps_State_updDisp (w := w.of)
    assumption
  clear_value y7
  refine keeps_ite ?_ ?_
  · apply k7
    apply keeps_State_rectDiscard (w := w.of)
    assumption
  · extract_lets +onlyGivenNames y8
    clear_value y8
    extract_lets +onlyGivenNames y9
    clear_value y9
    extract_lets +onlyGivenNames y10
    have k10 : Keeps S z y10 := by
      unfold y10
      refine keeps_ite ?_ ?_
      · apply keeps_State_updFlip (w := w.of)
        apply k7
        assumption
      · apply k7
        assumption
    clear_value y10
    extract_lets +onlyGivenNames y11
    have k11 : Keeps S z y11 := by
      unfold y11
      apply keeps_State_placeCell (w := w.of)
      assumption
    clear_value y11
    refine keeps_ite ?_ ?_
    · refine keeps_ite ?_ ?_
      · apply keeps_State_commitFlip (w := w.of)
        assumption
      · apply keeps_State_rectDiscard (w := w.of)
        assumption
    · assumption

theorem keeps_State_outgrown (a1 : State) (a2 : Nat) (a3 : Int) (a4 : Cell) (h1 : Keeps S z a1) (w : Sub [.disps] S) :
    Keeps S z (State.outgrown a1 a2 a3 a4) := by
  unfold State.outgrown
  split
  · refine keeps_ite ?_ ?_
    · apply keeps_State_updUnit (w := w.of)
      assumption
    · assumption
  · assumption

theorem keeps_State_takeEarly (a1 : State) (a2 : Nat) (h1 : Keeps S z a1) (w : Sub [.objs, .freeCount, .disps, .dram]
    S) : Keeps S z (State.takeEarly a1 a2) := by
  unfold State.takeEarly
  extract_lets +onlyGivenNames y1
  clear_value y1
  extract_lets +onlyGivenNames y2
  clear_value y2
  refine keeps_ite ?_ ?_
  · assumption
  · apply keeps_forAll
    · intro x3
      intro x4
      intro k5
      split
      · apply keeps_State_placeCell (w := w.of)
        assumption
      · assumption
    · apply keeps_State_updDisp (w := w.of)
      assumption

theorem keeps_State_displayCell (a1 : State) (a2 : Nat) (a3 : Nat) (a4 : Int) (a5 : Cell) (h1 : Keeps S z a1) (w : Sub
    [.objs, .freeCount, .irq, .jour, .rates, .disps, .dram] S) : Keeps S z (State.displayCell a1 a2 a3 a4 a5) := by
  unfold State.displayCell
  refine keeps_ite ?_ ?_
  · apply keeps_State_takeEarly (w := w.of)
    apply keeps_State_outgrown (w := w.of)
    refine keeps_ite ?_ ?_
    · apply keeps_State_lineFirst (w := w.of)
      assumption
    · apply keeps_State_unitFirst (w := w.of)
      assumption
  · extract_lets +onlyGivenNames y1
    have k1 : Keeps S z y1 := by
      unfold y1
      apply keeps_State_outgrown (w := w.of)
      assumption
    clear_value y1
    split
    · apply keeps_State_takeEarly (w := w.of)
      apply keeps_State_placeCell (w := w.of)
      assumption
    · apply keeps_State_updDisp (w := w.of)
      assumption

theorem keeps_State_dropEarly (a1 : State) (a2 : Nat) (a3 : Nat) (h1 : Keeps S z a1) (w : Sub [.disps] S) : Keeps S z
    (State.dropEarly a1 a2 a3) := by
  unfold State.dropEarly
  extract_lets +onlyGivenNames y1
  clear_value y1
  refine keeps_ite ?_ ?_
  · assumption
  · apply keeps_State_updDisp (w := w.of)
    assumption

theorem keeps_State_strayDiscard (a1 : State) (a2 : Nat) (h1 : Keeps S z a1) (w : Sub [.objs, .irq, .jour, .rates] S)
    : Keeps S z (State.strayDiscard a1 a2) := by
  unfold State.strayDiscard
  apply keeps_State_rectDiscard (w := w.of)
  assumption

theorem keeps_State_judgeFlip (a1 : State) (a2 : Nat) (a3 : Nat) (a4 : Flip) (h1 : Keeps S z a1) (w : Sub [.objs,
    .irq, .jour, .rates, .disps] S) : Keeps S z (State.judgeFlip a1 a2 a3 a4) := by
  unfold State.judgeFlip
  extract_lets +onlyGivenNames y1
  clear_value y1
  extract_lets +onlyGivenNames y2
  clear_value y2
  extract_lets +onlyGivenNames y3
  clear_value y3
  extract_lets +onlyGivenNames y4
  clear_value y4
  extract_lets +onlyGivenNames y5
  clear_value y5
  extract_lets +onlyGivenNames y6
  clear_value y6
  extract_lets +onlyGivenNames y7
  have k7 : Keeps S z y7 := by
    unfold y7
    apply keeps_forAll
    · intro x8
      intro x9
      intro k10
      split
      · apply keeps_State_updUnit (w := w.of)
        assumption
      · assumption
    · assumption
  clear_value y7
  extract_lets +onlyGivenNames y11
  clear_value y11
  extract_lets +onlyGivenNames y12
  clear_value y12
  extract_lets +onlyGivenNames y13
  have k13 : Keeps S z y13 := by
    unfold y13
    apply keeps_forAll
    · intro x14
      intro x15
      intro k16
      apply keeps_State_rectDiscard (w := w.of)
      assumption
    · assumption
  clear_value y13
  extract_lets +onlyGivenNames y17
  have k17 : Keeps S z y17 := by
    unfold y17
    apply keeps_forAll
    · intro x18
      intro x19
      intro k20
      apply keeps_State_strayDiscard (w := w.of)
      assumption
    · assumption
  clear_value y17
  extract_lets +onlyGivenNames y21
  clear_value y21
  extract_lets +onlyGivenNames y22
  have k22 : Keeps S z y22 := by
    unfold y22
    apply keeps_State_updDisp (w := w.of)
    assumption
  clear_value y22
  extract_lets +onlyGivenNames y23
  clear_value y23
  refine keeps_ite ?_ ?_
  · apply keeps_State_dropFlip (w := w.of)
    assumption
  · apply keeps_State_updFlip (w := w.of)
    assumption

theorem keeps_State_judgeFlips (a1 : State) (a2 : Nat) (h1 : Keeps S z a1) (w : Sub [.objs, .irq, .jour, .rates,
    .disps] S) : Keeps S z (State.judgeFlips a1 a2) := by
  unfold State.judgeFlips
  split
  · assumption
  · extract_lets +onlyGivenNames y1
    have k1 : Keeps S z y1 := by
      unfold y1
      apply keeps_State_dropEarly (w := w.of)
      assumption
    clear_value y1
    apply keeps_forAll
    · intro x2
      intro x3
      intro k4
      refine keeps_ite ?_ ?_
      · apply keeps_State_judgeFlip (w := w.of)
        assumption
      · assumption
    · assumption

theorem keeps_State_showFlip (a1 : State) (a2 : Nat) (a3 : Flip) (h1 : Keeps S z a1) (w : Sub [.objs, .disps] S) :
    Keeps S z (State.showFlip a1 a2 a3) := by
  unfold State.showFlip
  extract_lets +onlyGivenNames y1
  clear_value y1
  extract_lets +onlyGivenNames y2
  have k2 : Keeps S z y2 := by
    unfold y2
    apply keeps_State_updDisp (w := w.of)
    assumption
  clear_value y2
  extract_lets +onlyGivenNames y3
  have k3 : Keeps S z y3 := by
    unfold y3
    apply keeps_forAll
    · intro x4
      intro x5
      intro k6
      apply keeps_State_set (w := w.of)
      assumption
    · assumption
  clear_value y3
  extract_lets +onlyGivenNames y7
  have k7 : Keeps S z y7 := by
    unfold y7
    apply keeps_forAll
    · intro x8
      intro x9
      intro k10
      extract_lets +onlyGivenNames y11
      clear_value y11
      extract_lets +onlyGivenNames y12
      clear_value y12
      extract_lets +onlyGivenNames y13
      clear_value y13
      apply keeps_State_updDisp (w := w.of)
      apply keeps_State_set (w := w.of)
      assumption
    · assumption
  clear_value y7
  extract_lets +onlyGivenNames y14
  have k14 : Keeps S z y14 := by
    unfold y14
    apply keeps_State_updDisp (w := w.of)
    assumption
  clear_value y14
  apply keeps_State_expectApply (w := w.of)
  apply keeps_State_showFlips (w := w.of)
  apply keeps_State_count (w := w.of)
  apply keeps_State_set (w := w.of)
  assumption

theorem keeps_State_latchFlip (a1 : State) (a2 : Nat) (a3 : Nat) (h1 : Keeps S z a1) (w : Sub [.objs, .irq, .jour,
    .disps] S) : Keeps S z (State.latchFlip a1 a2 a3).2 := by
  induction a3 generalizing a1 with
  | zero =>
    rw [State.latchFlip]
    dsimp only
    assumption
  | succ n ih =>
    rw [State.latchFlip]
    split
    · dsimp only
      assumption
    · split
      · extract_lets +onlyGivenNames y1
        have k1 : Keeps S z y1 := by
          unfold y1
          apply keeps_State_updDisp (w := w.of)
          assumption
        clear_value y1
        extract_lets +onlyGivenNames y2
        have k2 : Keeps S z y2 := by
          unfold y2
          apply keeps_State_expectCancel (w := w.of)
          apply keeps_State_showFlips (w := w.of)
          apply keeps_State_count (w := w.of)
          assumption
        clear_value y2
        apply ih
        assumption
      · dsimp only
        apply keeps_State_showFlip (w := w.of)
        assumption

theorem keeps_State_glideActive (a1 : State) (a2 : Nat) (h1 : Keeps S z a1) (w : Sub [.objs, .sent] S) : Keeps S z
    (State.glideActive a1 a2) := by
  unfold State.glideActive
  extract_lets +onlyGivenNames y1
  clear_value y1
  extract_lets +onlyGivenNames y2
  clear_value y2
  apply keeps_onlyIf
  · intro x3
    intro k4
    apply keeps_State_send (w := w.of)
    assumption
  · apply keeps_State_set (w := w.of)
    assumption

theorem keeps_State_noGlide (a1 : State) (a2 : Nat) (h1 : Keeps S z a1) (w : Sub [.irq, .jour] S) : Keeps S z
    (State.noGlide a1 a2) := by
  unfold State.noGlide
  refine keeps_ite ?_ ?_
  · apply keeps_State_outEv (w := w.of)
    assumption
  · assumption

theorem keeps_State_takeValues (a1 : State) (a2 : Nat) (h1 : Keeps S z a1) (w : Sub [.objs, .irq, .jour, .sent,
    .disps] S) : Keeps S z (State.takeValues a1 a2) := by
  unfold State.takeValues
  extract_lets +onlyGivenNames y1
  clear_value y1
  extract_lets +onlyGivenNames y2
  clear_value y2
  extract_lets +onlyGivenNames y3
  clear_value y3
  extract_lets +onlyGivenNames y4
  clear_value y4
  extract_lets +onlyGivenNames y5
  have k5 : Keeps S z y5 := by
    unfold y5
    apply keeps_State_updDisp (w := w.of)
    assumption
  clear_value y5
  extract_lets +onlyGivenNames y6
  have k6 : Keeps S z y6 := by
    unfold y6
    refine keeps_ite ?_ ?_
    · apply keeps_State_noGlide (w := w.of)
      assumption
    · assumption
  clear_value y6
  refine keeps_ite ?_ ?_
  · apply keeps_State_glideActive (w := w.of)
    assumption
  · assumption

theorem keeps_State_latch (a1 : State) (a2 : Nat) (a3 : Bool) (h1 : Keeps S z a1) (w : Sub [.objs, .irq, .jour, .sent,
    .disps] S) : Keeps S z (State.latch a1 a2 a3) := by
  unfold State.latch
  extract_lets +onlyGivenNames y1
  have k1 : Keeps S z y1 := by
    unfold y1
    apply keeps_State_takeValues (w := w.of)
    assumption
  clear_value y1
  extract_lets +onlyGivenNames y2
  have k2 : Keeps S z y2 := by
    unfold y2
    apply keeps_forAll
    · intro x3
      intro x4
      intro k5
      apply keeps_State_regTake (w := w.of)
      assumption
    · assumption
  clear_value y2
  extract_lets +onlyGivenNames y6
  have k6 : Keeps S z y6 := by
    unfold y6
    refine keeps_ite ?_ ?_
    · apply keeps_State_updDisp (w := w.of)
      apply keeps_forAll
      · intro x7
        intro x8
        intro k9
        refine keeps_ite ?_ ?_
        · apply keeps_State_regArm (w := w.of)
          assumption
        · assumption
      · assumption
    · assumption
  clear_value y6
  extract_lets +onlyGivenNames y10
  clear_value y10
  extract_lets +onlyGivenNames y11
  clear_value y11
  extract_lets +onlyGivenNames y12
  clear_value y12
  extract_lets +onlyGivenNames y13
  clear_value y13
  extract_lets +onlyGivenNames y14
  clear_value y14
  extract_lets +onlyGivenNames y15
  clear_value y15
  extract_lets +onlyGivenNames y16
  have k16 : Keeps S z y16 := by
    unfold y16
    apply keeps_State_countWrap (w := w.of)
    assumption
  clear_value y16
  extract_lets +onlyGivenNames y17
  have k17 : Keeps S z y17 := by
    unfold y17
    refine keeps_ite ?_ ?_
    · apply keeps_State_outEv (w := w.of)
      apply keeps_State_count (w := w.of)
      assumption
    · assumption
  clear_value y17
  extract_lets +onlyGivenNames y18
  clear_value y18
  extract_lets +onlyGivenNames y19
  clear_value y19
  extract_lets +onlyGivenNames y20
  clear_value y20
  extract_lets +onlyGivenNames y21
  clear_value y21
  extract_lets +onlyGivenNames y22
  have k22 : Keeps S z y22 := by
    unfold y22
    refine keeps_ite ?_ ?_
    · apply keeps_State_count (w := w.of)
      assumption
    · assumption
  clear_value y22
  extract_lets +onlyGivenNames y23
  have k23 : Keeps S z y23 := by
    unfold y23
    refine keeps_ite ?_ ?_
    · apply keeps_State_count (w := w.of)
      assumption
    · assumption
  clear_value y23
  extract_lets +onlyGivenNames y24
  have k24 : Keeps S z y24 := by
    unfold y24
    apply keeps_State_setAll (w := w.of)
    assumption
  clear_value y24
  extract_lets +onlyGivenNames y25
  have k25 : Keeps S z y25 := by
    unfold y25
    apply keeps_State_updDisp (w := w.of)
    assumption
  clear_value y25
  split
  extract_lets +onlyGivenNames y26
  have k26 : Keeps S z y26 := by
    unfold y26
    apply keeps_forAll
    · intro x27
      intro x28
      intro k29
      apply keeps_State_updRegion (w := w.of)
      assumption
    · refine keeps_pair (by assumption) ?_
      apply keeps_State_latchFlip (w := w.of)
      assumption
  clear_value y26
  extract_lets +onlyGivenNames y30
  clear_value y30
  extract_lets +onlyGivenNames y31
  clear_value y31
  apply keeps_State_updDisp (w := w.of)
  assumption

theorem keeps_State_outDown (a1 : State) (a2 : Nat) (a3 : Nat) (h1 : Keeps S z a1) (w : Sub [.objs, .timers, .irq,
    .jour] S) : Keeps S z (State.outDown a1 a2 a3) := by
  unfold State.outDown
  extract_lets +onlyGivenNames y1
  have k1 : Keeps S z y1 := by
    unfold y1
    apply keeps_State_setAll (w := w.of)
    apply keeps_State_stop (w := w.of)
    assumption
  clear_value y1
  apply keeps_State_outEv (w := w.of)
  assumption

theorem keeps_State_outStarting (a1 : State) (a2 : Nat) (h1 : Keeps S z a1) (w : Sub [.objs, .timers] S) : Keeps S z
    (State.outStarting a1 a2) := by
  unfold State.outStarting
  extract_lets +onlyGivenNames y1
  have k1 : Keeps S z y1 := by
    unfold y1
    apply keeps_State_setAll (w := w.of)
    assumption
  clear_value y1
  refine keeps_ite ?_ ?_
  · apply keeps_State_start (w := w.of)
    assumption
  · assumption

theorem keeps_State_outStart (a1 : State) (a2 : Nat) (h1 : Keeps S z a1) (w : Sub [.objs, .timers, .irq, .jour, .sent,
    .disps] S) : Keeps S z (State.outStart a1 a2) := by
  unfold State.outStart
  refine keeps_ite ?_ ?_
  · extract_lets +onlyGivenNames y1
    clear_value y1
    extract_lets +onlyGivenNames y2
    clear_value y2
    extract_lets +onlyGivenNames y3
    have k3 : Keeps S z y3 := by
      unfold y3
      apply keeps_State_updDisp (w := w.of)
      assumption
    clear_value y3
    extract_lets +onlyGivenNames y4
    have k4 : Keeps S z y4 := by
      unfold y4
      apply keeps_forAll
      · intro x5
        intro x6
        intro k7
        refine keeps_ite ?_ ?_
        · apply keeps_State_set (w := w.of)
          assumption
        · assumption
      · assumption
    clear_value y4
    extract_lets +onlyGivenNames y8
    have k8 : Keeps S z y8 := by
      unfold y8
      apply keeps_State_ownFronts (w := w.of)
      apply keeps_State_takeValues (w := w.of)
      apply keeps_State_outStarting (w := w.of)
      assumption
    clear_value y8
    apply keeps_forAll
    · intro x9
      intro x10
      intro k11
      apply keeps_State_regStart (w := w.of)
      assumption
    · apply keeps_State_send (w := w.of)
      assumption
  · assumption

theorem keeps_State_outOff (a1 : State) (a2 : Nat) (h1 : Keeps S z a1) (w : Sub [.objs, .timers, .irq, .jour, .sent,
    .disps] S) : Keeps S z (State.outOff a1 a2) := by
  unfold State.outOff
  refine keeps_ite ?_ ?_
  · assumption
  · extract_lets +onlyGivenNames y1
    have k1 : Keeps S z y1 := by
      unfold y1
      apply keeps_State_setAll (w := w.of)
      apply keeps_State_discardFlips (w := w.of)
      apply keeps_State_stop (w := w.of)
      assumption
    clear_value y1
    apply keeps_forAll
    · intro x2
      intro x3
      intro k4
      apply keeps_State_regState (w := w.of)
      assumption
    · apply keeps_State_send (w := w.of)
      assumption

theorem keeps_State_displaysOn (a1 : State) (h1 : Keeps S z a1) (w : Sub [.objs, .timers, .irq, .jour, .sent, .disps]
    S) : Keeps S z (State.displaysOn a1) := by
  unfold State.displaysOn
  apply keeps_forAll
  · intro x1
    intro x2
    intro k3
    apply keeps_State_outStart (w := w.of)
    assumption
  · assumption

theorem keeps_State_displaysOff (a1 : State) (h1 : Keeps S z a1) (w : Sub [.objs, .timers, .irq, .jour, .sent, .disps]
    S) : Keeps S z (State.displaysOff a1) := by
  unfold State.displaysOff
  apply keeps_forAll
  · intro x1
    intro x2
    intro k3
    apply keeps_State_outOff (w := w.of)
    assumption
  · assumption

theorem keeps_State_displaysFail (a1 : State) (h1 : Keeps S z a1) (w : Sub [.objs, .timers, .irq, .jour] S) : Keeps S
    z (State.displaysFail a1) := by
  unfold State.displaysFail
  apply keeps_forAll
  · intro x1
    intro x2
    intro k3
    refine keeps_ite ?_ ?_
    · apply keeps_State_outDown (w := w.of)
      assumption
    · assumption
  · assumption

theorem keeps_State_displaysGood (a1 : State) (h1 : Keeps S z a1) (w : Sub [.objs, .timers] S) : Keeps S z
    (State.displaysGood a1) := by
  unfold State.displaysGood
  apply keeps_forAll
  · intro x1
    intro x2
    intro k3
    refine keeps_ite ?_ ?_
    · apply keeps_State_outStarting (w := w.of)
      assumption
    · assumption
  · assumption

theorem keeps_State_displaySwitch (a1 : State) (h1 : Keeps S z a1) (w : Sub [.objs, .irq, .jour, .disps] S) : Keeps S
    z (State.displaySwitch a1) := by
  unfold State.displaySwitch
  apply keeps_forAll
  · intro x1
    intro x2
    intro k3
    apply keeps_State_updDisp (w := w.of)
    apply keeps_State_discardFlips (w := w.of)
    assumption
  · assumption

theorem keeps_State_frozen_ (a1 : State) (a2 : Nat) (a3 : Nat) (a4 : Nat) (h1 : Keeps S z a1) (w : Sub [.objs, .irq,
    .jour, .sent, .disps, .safety] S) : Keeps S z (State.frozen_ a1 a2 a3 a4) := by
  unfold State.frozen_
  extract_lets +onlyGivenNames y1
  clear_value y1
  extract_lets +onlyGivenNames y2
  have k2 : Keeps S z y2 := by
    unfold y2
    apply keeps_State_set (w := w.of)
    apply keeps_State_count (w := w.of)
    apply keeps_State_regFault (w := w.of)
    apply keeps_State_regState (w := w.of)
    assumption
  clear_value y2
  extract_lets +onlyGivenNames y3
  have k3 : Keeps S z y3 := by
    unfold y3
    apply keeps_State_updRegion (w := w.of)
    assumption
  clear_value y3
  apply keeps_State_latchSf (w := w.of)
  apply keeps_State_danger (w := w.of)
  assumption

theorem keeps_State_mismatch (a1 : State) (a2 : Nat) (a3 : Nat) (h1 : Keeps S z a1) (w : Sub [.objs, .irq, .jour,
    .sent, .disps, .safety] S) : Keeps S z (State.mismatch a1 a2 a3) := by
  unfold State.mismatch
  extract_lets +onlyGivenNames y1
  have k1 : Keeps S z y1 := by
    unfold y1
    apply keeps_State_set (w := w.of)
    apply keeps_State_count (w := w.of)
    apply keeps_State_regFault (w := w.of)
    apply keeps_State_regState (w := w.of)
    assumption
  clear_value y1
  extract_lets +onlyGivenNames y2
  have k2 : Keeps S z y2 := by
    unfold y2
    apply keeps_State_updRegion (w := w.of)
    assumption
  clear_value y2
  apply keeps_State_latchSf (w := w.of)
  apply keeps_State_danger (w := w.of)
  assumption

theorem keeps_State_restored (a1 : State) (a2 : Nat) (a3 : Nat) (h1 : Keeps S z a1) (w : Sub [.objs, .irq, .jour] S) :
    Keeps S z (State.restored a1 a2 a3) := by
  unfold State.restored
  extract_lets +onlyGivenNames y1
  clear_value y1
  apply keeps_State_ev (w := w.of)
  apply keeps_State_regState (w := w.of)
  assumption

theorem keeps_State_heartbeat (a1 : State) (a2 : Nat) (a3 : Nat) (a4 : Nat) (a5 : Nat) (h1 : Keeps S z a1) (w : Sub
    [.objs, .irq, .jour, .sent, .disps, .safety] S) : Keeps S z (State.heartbeat a1 a2 a3 a4 a5) := by
  unfold State.heartbeat
  extract_lets +onlyGivenNames y1
  clear_value y1
  refine keeps_ite ?_ ?_
  · apply keeps_State_setAll (w := w.of)
    apply keeps_State_regState (w := w.of)
    assumption
  · refine keeps_ite ?_ ?_
    · extract_lets +onlyGivenNames y2
      have k2 : Keeps S z y2 := by
        unfold y2
        apply keeps_State_setAll (w := w.of)
        assumption
      clear_value y2
      refine keeps_ite ?_ ?_
      · apply keeps_State_restored (w := w.of)
        assumption
      · assumption
    · extract_lets +onlyGivenNames y3
      have k3 : Keeps S z y3 := by
        unfold y3
        apply keeps_State_countSat (w := w.of)
        assumption
      clear_value y3
      refine keeps_ite ?_ ?_
      · refine keeps_ite ?_ ?_
        · apply keeps_State_frozen_ (w := w.of)
          assumption
        · assumption
      · apply keeps_State_regFault (w := w.of)
        assumption

theorem keeps_State_mustMatch (a1 : State) (a2 : Nat) (a3 : Nat) (a4 : Nat) (h1 : Keeps S z a1) (w : Sub [.objs, .irq,
    .jour, .sent, .disps, .safety] S) : Keeps S z (State.mustMatch a1 a2 a3 a4) := by
  unfold State.mustMatch
  extract_lets +onlyGivenNames y1
  clear_value y1
  extract_lets +onlyGivenNames y2
  have k2 : Keeps S z y2 := by
    unfold y2
    apply keeps_State_set (w := w.of)
    assumption
  clear_value y2
  refine keeps_ite ?_ ?_
  · extract_lets +onlyGivenNames y3
    have k3 : Keeps S z y3 := by
      unfold y3
      apply keeps_State_set (w := w.of)
      assumption
    clear_value y3
    refine keeps_ite ?_ ?_
    · apply keeps_State_restored (w := w.of)
      assumption
    · apply keeps_State_regState (w := w.of)
      assumption
  · extract_lets +onlyGivenNames y4
    have k4 : Keeps S z y4 := by
      unfold y4
      apply keeps_State_countSat (w := w.of)
      assumption
    clear_value y4
    extract_lets +onlyGivenNames y5
    have k5 : Keeps S z y5 := by
      unfold y5
      refine keeps_ite ?_ ?_
      · apply keeps_State_restored (w := w.of)
        assumption
      · refine keeps_ite ?_ ?_
        · apply keeps_State_regState (w := w.of)
          assumption
        · assumption
    clear_value y5
    refine keeps_ite ?_ ?_
    · apply keeps_State_regFault (w := w.of)
      assumption
    · refine keeps_ite ?_ ?_
      · apply keeps_State_mismatch (w := w.of)
        assumption
      · assumption

theorem keeps_State_regComplete (a1 : State) (a2 : Nat) (a3 : Nat) (h1 : Keeps S z a1) (w : Sub [.objs, .irq, .jour,
    .sent, .disps, .safety] S) : Keeps S z (State.regComplete a1 a2 a3) := by
  unfold State.regComplete
  extract_lets +onlyGivenNames y1
  clear_value y1
  extract_lets +onlyGivenNames y2
  clear_value y2
  extract_lets +onlyGivenNames y3
  clear_value y3
  extract_lets +onlyGivenNames y4
  have k4 : Keeps S z y4 := by
    unfold y4
    apply keeps_State_updRegion (w := w.of)
    assumption
  clear_value y4
  extract_lets +onlyGivenNames y5
  have k5 : Keeps S z y5 := by
    unfold y5
    apply keeps_State_setAll (w := w.of)
    assumption
  clear_value y5
  refine keeps_ite ?_ ?_
  · apply keeps_State_heartbeat (w := w.of)
    assumption
  · apply keeps_State_mustMatch (w := w.of)
    assumption

theorem keeps_State_ciWake (a1 : State) (h1 : Keeps S z a1) (w : Sub [.irq] S) : Keeps S z (State.ciWake a1) := by
  unfold State.ciWake
  refine keeps_ite ?_ ?_
  · refine keeps_mk ?_ (w_irq := .inr w.has)
    assumption
  · assumption

theorem keeps_State_touch (a1 : State) (a2 : Path) (h1 : Keeps S z a1) (w : Sub [.sessions, .irq, .jour] S) : Keeps S
    z (State.touch a1 a2) := by
  unfold State.touch
  extract_lets +onlyGivenNames y1
  have k1 : Keeps S z y1 := by
    unfold y1
    apply keeps_State_settleSession (w := w.of)
    apply keeps_State_ciWake (w := w.of)
    assumption
  clear_value y1
  apply keeps_State_updSession (w := w.of)
  assumption

theorem keeps_State_write (a1 : State) (a2 : Path) (a3 : Nat) (a4 : Nat) (a5 : Bytes) (a6 : List Nat) (a7 : State →
    State) (h1 : Keeps S z a1) (h7 : ∀ x0, Keeps S z x0 → Keeps S z (a7 x0)) (w : Sub [.objs, .sessions, .irq, .jour]
    S) : Keeps S z (State.write a1 a2 a3 a4 a5 a6 a7) := by
  unfold State.write
  refine keeps_ite ?_ ?_
  · split
    · apply keeps_State_violate (w := w.of)
      apply keeps_State_touch (w := w.of)
      assumption
    · apply h7
      apply keeps_State_touch (w := w.of)
      assumption
  · assumption

theorem keeps_State_writeNum (a1 : State) (a2 : Path) (a3 : Nat) (a4 : Nat) (a5 : Nat) (a6 : List Nat) (a7 : State →
    State) (h1 : Keeps S z a1) (h7 : ∀ x0, Keeps S z x0 → Keeps S z (a7 x0)) (w : Sub [.objs, .sessions, .irq, .jour]
    S) : Keeps S z (State.writeNum a1 a2 a3 a4 a5 a6 a7) := by
  unfold State.writeNum
  apply keeps_State_write (w := w.of)
  · assumption
  · exact h7

theorem keeps_State_writeKeep (a1 : State) (a2 : Path) (a3 : Nat) (a4 : Nat) (a5 : Nat) (a6 : List Nat) (h1 : Keeps S
    z a1) (w : Sub [.objs, .sessions, .irq, .jour] S) : Keeps S z (State.writeKeep a1 a2 a3 a4 a5 a6) := by
  unfold State.writeKeep
  apply keeps_State_writeNum (w := w.of)
  · assumption
  · intro x1
    intro k2
    apply keeps_State_set (w := w.of)
    assumption

theorem keeps_State_command (a1 : State) (a2 : Path) (a3 : Nat) (a4 : Nat) (a5 : List Nat) (a6 : List Nat) (a7 : List
    Nat) (a8 : State → State) (h1 : Keeps S z a1) (h8 : ∀ x0, Keeps S z x0 → Keeps S z (a8 x0)) (w : Sub [.objs,
    .sessions, .cmds, .irq, .jour] S) : Keeps S z (State.command a1 a2 a3 a4 a5 a6 a7 a8) := by
  unfold State.command
  apply keeps_State_writeNum (w := w.of)
  · assumption
  · intro x1
    intro k2
    apply h8
    apply keeps_State_cmdAccept (w := w.of)
    assumption

theorem keeps_State_commandNow (a1 : State) (a2 : Path) (a3 : Nat) (a4 : Nat) (a5 : List Nat) (a6 : List Nat) (a7 :
    List Nat) (a8 : Nat) (a9 : State → State) (h1 : Keeps S z a1) (h9 : ∀ x0, Keeps S z x0 → Keeps S z (a9 x0)) (w :
    Sub [.objs, .sessions, .cmds, .irq, .jour] S) : Keeps S z (State.commandNow a1 a2 a3 a4 a5 a6 a7 a8 a9) := by
  unfold State.commandNow
  apply keeps_State_command (w := w.of)
  · assumption
  · intro x1
    intro k2
    apply keeps_State_cmdCommit (w := w.of)
    apply h9
    assumption

theorem keeps_execOutputEnable (a1 : Path) (a2 : Nat) (a3 : State) (h3 : Keeps S z a3) (w : Sub [.objs, .timers,
    .sessions, .irq, .jour, .sent, .disps] S) : KeepsA S z (execOutputEnable a1 a2 a3) := by
  unfold execOutputEnable
  apply keeps_onPath
  · assumption
  · extract_lets +onlyGivenNames y1
    clear_value y1
    extract_lets +onlyGivenNames y2
    clear_value y2
    extract_lets +onlyGivenNames y3
    clear_value y3
    apply keeps_State_budgetCount (w := w.of)
    apply keeps_State_writeNum (w := w.of)
    · assumption
    · intro x4
      intro k5
      apply keeps_State_outStart (w := w.of)
      apply keeps_State_set (w := w.of)
      assumption

theorem keeps_execOutputDisable (a1 : Path) (a2 : Nat) (a3 : State) (h3 : Keeps S z a3) (w : Sub [.objs, .timers,
    .sessions, .irq, .jour, .sent, .disps] S) : KeepsA S z (execOutputDisable a1 a2 a3) := by
  unfold execOutputDisable
  apply keeps_onPath
  · assumption
  · apply keeps_State_writeNum (w := w.of)
    · assumption
    · intro x1
      intro k2
      apply keeps_State_outOff (w := w.of)
      apply keeps_State_set (w := w.of)
      assumption

theorem keeps_execHpdAsserted (a1 : Nat) (a2 : State) (h2 : Keeps S z a2) (w : Sub [.objs, .timers, .disps] S) :
    KeepsA S z (execHpdAsserted a1 a2) := by
  unfold execHpdAsserted
  apply keeps_onPort
  · assumption
  · extract_lets +onlyGivenNames y1
    have k1 : Keeps S z y1 := by
      unfold y1
      apply keeps_State_updDisp (w := w.of)
      apply keeps_State_stop (w := w.of)
      assumption
    clear_value y1
    refine keeps_ite ?_ ?_
    · apply keeps_State_outStarting (w := w.of)
      assumption
    · assumption

theorem keeps_execHpdDeasserted (a1 : Nat) (a2 : State) (h2 : Keeps S z a2) (w : Sub [.timers, .disps] S) : KeepsA S z
    (execHpdDeasserted a1 a2) := by
  unfold execHpdDeasserted
  apply keeps_onPort
  · assumption
  · extract_lets +onlyGivenNames y1
    have k1 : Keeps S z y1 := by
      unfold y1
      apply keeps_State_updDisp (w := w.of)
      assumption
    clear_value y1
    refine keeps_ite ?_ ?_
    · apply keeps_State_start (w := w.of)
      assumption
    · assumption

theorem keeps_execHpdLowTimeout (a1 : Nat) (a2 : State) (h2 : Keeps S z a2) (w : Sub [.objs, .timers, .irq, .jour] S)
    : KeepsA S z (execHpdLowTimeout a1 a2) := by
  unfold execHpdLowTimeout
  apply keeps_onPort
  · assumption
  · refine keeps_ite ?_ ?_
    · apply keeps_State_outDown (w := w.of)
      assumption
    · assumption

theorem keeps_State_linkRuns (a1 : State) (a2 : Nat) (a3 : Nat) (a4 : Nat) (h1 : Keeps S z a1) (w : Sub [.objs, .sent]
    S) : Keeps S z (State.linkRuns a1 a2 a3 a4) := by
  unfold State.linkRuns
  apply keeps_State_send (w := w.of)
  apply keeps_State_setAll (w := w.of)
  assumption

theorem keeps_execIrqHpd (a1 : Nat) (a2 : Bool) (a3 : List (Nat × Nat)) (a4 : State) (h4 : Keeps S z a4) (w : Sub
    [.objs, .timers, .irq, .jour, .sent] S) : KeepsA S z (execIrqHpd a1 a2 a3 a4) := by
  unfold execIrqHpd
  apply keeps_onPort
  · assumption
  · refine keeps_ite ?_ ?_
    · extract_lets +onlyGivenNames y1
      have k1 : Keeps S z y1 := by
        unfold y1
        apply keeps_State_send (w := w.of)
        assumption
      clear_value y1
      refine keeps_ite ?_ ?_
      · assumption
      · split
        · apply keeps_State_outDown (w := w.of)
          assumption
        · refine keeps_ite ?_ ?_
          · apply keeps_State_linkRuns (w := w.of)
            assumption
          · apply keeps_State_outDown (w := w.of)
            assumption
    · assumption

theorem keeps_execDpLinkTrainingDone (a1 : Nat) (a2 : Nat) (a3 : Nat) (a4 : Nat) (a5 : List (Nat × Nat)) (a6 : Bytes)
    (a7 : State) (h7 : Keeps S z a7) (w : Sub [.objs, .timers, .irq, .jour, .sent, .disps] S) : KeepsA S z
    (execDpLinkTrainingDone a1 a2 a3 a4 a5 a6 a7) := by
  unfold execDpLinkTrainingDone
  apply keeps_onPort
  · assumption
  · refine keeps_ite ?_ ?_
    · assumption
    · extract_lets +onlyGivenNames y1
      have k1 : Keeps S z y1 := by
        unfold y1
        apply keeps_State_updDisp (w := w.of)
        apply keeps_State_stop (w := w.of)
        assumption
      clear_value y1
      extract_lets +onlyGivenNames y2
      have k2 : Keeps S z y2 := by
        unfold y2
        apply keeps_State_setAll (w := w.of)
        assumption
      clear_value y2
      split
      · apply keeps_State_outDown (w := w.of)
        assumption
      · refine keeps_ite ?_ ?_
        · apply keeps_State_outDown (w := w.of)
          assumption
        · extract_lets +onlyGivenNames y3
          have k3 : Keeps S z y3 := by
            unfold y3
            apply keeps_State_glideActive (w := w.of)
            apply keeps_State_linkRuns (w := w.of)
            apply keeps_State_setAll (w := w.of)
            assumption
          clear_value y3
          apply keeps_State_outEv (w := w.of)
          apply keeps_State_noGlide (w := w.of)
          assumption

theorem keeps_execLvdsClockStable (a1 : Nat) (a2 : State) (h2 : Keeps S z a2) (w : Sub [.objs, .irq, .jour, .sent] S)
    : KeepsA S z (execLvdsClockStable a1 a2) := by
  unfold execLvdsClockStable
  apply keeps_onPort
  · assumption
  · refine keeps_ite ?_ ?_
    · extract_lets +onlyGivenNames y1
      have k1 : Keeps S z y1 := by
        unfold y1
        apply keeps_State_glideActive (w := w.of)
        apply keeps_State_set (w := w.of)
        assumption
      clear_value y1
      apply keeps_State_outEv (w := w.of)
      assumption
    · assumption

theorem keeps_execFrontPorchLineEnd (a1 : Nat) (a2 : State) (h2 : Keeps S z a2) (w : Sub [.objs, .irq, .jour, .rates,
    .sent, .disps] S) : KeepsA S z (execFrontPorchLineEnd a1 a2) := by
  unfold execFrontPorchLineEnd
  apply keeps_onPort
  · assumption
  · refine keeps_ite ?_ ?_
    · assumption
    · extract_lets +onlyGivenNames y1
      have k1 : Keeps S z y1 := by
        unfold y1
        apply keeps_State_updDisp (w := w.of)
        apply keeps_State_judgeFlips (w := w.of)
        assumption
      clear_value y1
      extract_lets +onlyGivenNames y2
      clear_value y2
      extract_lets +onlyGivenNames y3
      clear_value y3
      extract_lets +onlyGivenNames y4
      clear_value y4
      refine keeps_ite ?_ ?_
      · assumption
      · refine keeps_ite ?_ ?_
        · apply keeps_State_latch (w := w.of)
          assumption
        · refine keeps_ite ?_ ?_
          · extract_lets +onlyGivenNames y5
            have k5 : Keeps S z y5 := by
              unfold y5
              apply keeps_State_evRate (w := w.of)
              apply keeps_State_count (w := w.of)
              assumption
            clear_value y5
            apply keeps_State_latch (w := w.of)
            assumption
          · apply keeps_State_updDisp (w := w.of)
            apply keeps_State_count (w := w.of)
            assumption

theorem keeps_execDisplayCellReceived (a1 : Nat) (a2 : Cell) (a3 : State) (h3 : Keeps S z a3) (w : Sub [.objs,
    .freeCount, .irq, .jour, .rates, .disps, .dram] S) : KeepsA S z (execDisplayCellReceived a1 a2 a3) := by
  unfold execDisplayCellReceived
  apply keeps_onUnit
  split
  · assumption
  · refine keeps_ite ?_ ?_
    · assumption
    · apply keeps_State_judgeFlips (w := w.of)
      apply keeps_State_displayCell (w := w.of)
      assumption

theorem keeps_execLayerUnderrun (a1 : Nat) (a2 : Pixel) (a3 : State) (h3 : Keeps S z a3) (w : Sub [.objs, .irq, .jour,
    .rates, .disps] S) : KeepsA S z (execLayerUnderrun a1 a2 a3) := by
  unfold execLayerUnderrun
  extract_lets +onlyGivenNames y1
  clear_value y1
  apply keeps_onPort
  · assumption
  · refine keeps_ite ?_ ?_
    · assumption
    · extract_lets +onlyGivenNames y2
      clear_value y2
      extract_lets +onlyGivenNames y3
      have k3 : Keeps S z y3 := by
        unfold y3
        apply keeps_State_updDisp (w := w.of)
        assumption
      clear_value y3
      extract_lets +onlyGivenNames y4
      have k4 : Keeps S z y4 := by
        unfold y4
        apply keeps_State_set (w := w.of)
        apply keeps_State_count (w := w.of)
        apply keeps_State_count (w := w.of)
        assumption
      clear_value y4
      apply keeps_State_evRate (w := w.of)
      assumption

theorem keeps_execOutputClearCounters (a1 : Path) (a2 : Nat) (a3 : State) (h3 : Keeps S z a3) (w : Sub [.objs,
    .sessions, .cmds, .irq, .jour] S) : KeepsA S z (execOutputClearCounters a1 a2 a3) := by
  unfold execOutputClearCounters
  apply keeps_onPath
  · assumption
  · apply keeps_State_commandNow (w := w.of)
    · assumption
    · intro x1
      intro k2
      apply keeps_State_clear (w := w.of)
      assumption

theorem keeps_execSignatureCompletion (a1 : Nat) (a2 : Nat) (a3 : State) (h3 : Keeps S z a3) (w : Sub [.objs, .irq,
    .jour, .sent, .disps, .safety] S) : KeepsA S z (execSignatureCompletion a1 a2 a3) := by
  unfold execSignatureCompletion
  apply keeps_onPort
  · assumption
  · refine keeps_ite ?_ ?_
    · apply keeps_forAll
      · intro x1
        intro x2
        intro k3
        apply keeps_State_regComplete (w := w.of)
        assumption
      · assumption
    · assumption

theorem keeps_execFreezeTimeExpired (a1 : Nat) (a2 : Nat) (a3 : State) (h3 : Keeps S z a3) (w : Sub [.objs, .irq,
    .jour, .sent, .disps, .safety] S) : KeepsA S z (execFreezeTimeExpired a1 a2 a3) := by
  unfold execFreezeTimeExpired
  apply keeps_onPort
  · assumption
  · extract_lets +onlyGivenNames y1
    clear_value y1
    extract_lets +onlyGivenNames y2
    clear_value y2
    extract_lets +onlyGivenNames y3
    clear_value y3
    refine keeps_ite ?_ ?_
    · assumption
    · refine keeps_ite ?_ ?_
      · assumption
      · refine keeps_ite ?_ ?_
        · apply keeps_State_frozen_ (w := w.of)
          assumption
        · refine keeps_ite ?_ ?_
          · apply keeps_State_regFault (w := w.of)
            assumption
          · assumption

theorem keeps_State_sendReceipt (a1 : State) (a2 : Nat) (h1 : Keeps S z a1) (w : Sub [.objs, .irq, .jour, .rates,
    .fabric, .disps] S) : Keeps S z (State.sendReceipt a1 a2) := by
  unfold State.sendReceipt
  split
  · assumption
  · refine keeps_ite ?_ ?_
    · extract_lets +onlyGivenNames y1
      clear_value y1
      extract_lets +onlyGivenNames y2
      have k2 : Keeps S z y2 := by
        unfold y2
        apply keeps_State_giveBack (w := w.of)
        apply keeps_State_updDisp (w := w.of)
        assumption
      clear_value y2
      apply keeps_State_unitOut (w := w.of)
      apply keeps_State_count (w := w.of)
      assumption
    · assumption

theorem keeps_execActiveAreaEnd (a1 : Nat) (a2 : State) (h2 : Keeps S z a2) (w : Sub [.objs, .irq, .jour, .rates,
    .sent, .fabric, .disps] S) : KeepsA S z (execActiveAreaEnd a1 a2) := by
  unfold execActiveAreaEnd
  apply keeps_onPort
  · assumption
  · refine keeps_ite ?_ ?_
    · assumption
    · extract_lets +onlyGivenNames y1
      have k1 : Keeps S z y1 := by
        unfold y1
        refine keeps_ite ?_ ?_
        · assumption
        · refine keeps_ite ?_ ?_
          · apply keeps_State_send (w := w.of)
            assumption
          · apply keeps_State_send (w := w.of)
            assumption
      clear_value y1
      apply keeps_State_sendReceipt (w := w.of)
      apply keeps_State_updDisp (w := w.of)
      apply keeps_State_judgeFlips (w := w.of)
      assumption

theorem keeps_execIntegrityClear (a1 : Path) (a2 : Nat) (a3 : State) (h3 : Keeps S z a3) (w : Sub [.objs, .sessions,
    .cmds, .irq, .jour] S) : KeepsA S z (execIntegrityClear a1 a2 a3) := by
  unfold execIntegrityClear
  apply keeps_onPath
  · assumption
  · apply keeps_State_commandNow (w := w.of)
    · assumption
    · intro x1
      intro k2
      apply keeps_State_clear (w := w.of)
      assumption

theorem keeps_execExpectedSignatureWrite (a1 : Path) (a2 : Nat) (a3 : Nat) (a4 : Nat) (a5 : State) (h5 : Keeps S z a5)
    (w : Sub [.objs, .sessions, .irq, .jour, .disps] S) : KeepsA S z (execExpectedSignatureWrite a1 a2 a3 a4 a5) := by
  unfold execExpectedSignatureWrite
  apply keeps_onPath
  · assumption
  · apply keeps_State_writeNum (w := w.of)
    · assumption
    · intro x1
      intro k2
      apply keeps_State_updRegion (w := w.of)
      apply keeps_State_setAll (w := w.of)
      assumption

theorem keeps_State_updPl (a1 : State) (a2 : Nat) (a3 : PlTime → PlTime) (h1 : Keeps S z a1) (w : Sub [.pl] S) : Keeps
    S z (State.updPl a1 a2 a3) := by
  unfold State.updPl
  refine keeps_mk ?_ (w_pl := .inr w.has)
  assumption

theorem keeps_State_pushBlock (a1 : State) (a2 : Nat) (a3 : Nat) (h1 : Keeps S z a1) (w : Sub [.sent, .trunks] S) :
    Keeps S z (State.pushBlock a1 a2 a3) := by
  unfold State.pushBlock
  extract_lets +onlyGivenNames y1
  clear_value y1
  refine keeps_ite ?_ ?_
  · apply keeps_State_updTrunk (w := w.of)
    assumption
  · apply keeps_State_send (w := w.of)
    apply keeps_State_updTrunk (w := w.of)
    assumption

theorem keeps_State_putMarker (a1 : State) (a2 : Nat) (h1 : Keeps S z a1) (w : Sub [.sent, .trunks, .pl] S) : Keeps S
    z (State.putMarker a1 a2) := by
  unfold State.putMarker
  extract_lets +onlyGivenNames y1
  clear_value y1
  extract_lets +onlyGivenNames y2
  clear_value y2
  extract_lets +onlyGivenNames y3
  clear_value y3
  extract_lets +onlyGivenNames y4
  have k4 : Keeps S z y4 := by
    unfold y4
    apply keeps_State_updTrunk (w := w.of)
    assumption
  clear_value y4
  extract_lets +onlyGivenNames y5
  have k5 : Keeps S z y5 := by
    unfold y5
    apply keeps_State_send (w := w.of)
    apply keeps_State_updPl (w := w.of)
    assumption
  clear_value y5
  refine keeps_ite ?_ ?_
  · assumption
  · apply keeps_forAll
    · intro x6
      intro x7
      intro k8
      apply keeps_State_pushBlock (w := w.of)
      assumption
    · assumption

theorem keeps_State_putBlock (a1 : State) (a2 : Nat) (a3 : Nat) (h1 : Keeps S z a1) (w : Sub [.sent, .trunks, .pl] S)
    : Keeps S z (State.putBlock a1 a2 a3) := by
  unfold State.putBlock
  extract_lets +onlyGivenNames y1
  have k1 : Keeps S z y1 := by
    unfold y1
    refine keeps_ite ?_ ?_
    · apply keeps_State_putMarker (w := w.of)
      assumption
    · assumption
  clear_value y1
  apply keeps_State_pushBlock (w := w.of)
  assumption

theorem keeps_State_dueMarker (a1 : State) (a2 : Nat) (h1 : Keeps S z a1) (w : Sub [.sent, .trunks, .pl] S) : Keeps S
    z (State.dueMarker a1 a2) := by
  unfold State.dueMarker
  refine keeps_ite ?_ ?_
  · apply keeps_State_putMarker (w := w.of)
    assumption
  · apply keeps_State_updTrunk (w := w.of)
    assumption

theorem keeps_State_putCell (a1 : State) (a2 : Nat) (a3 : Cell) (h1 : Keeps S z a1) (w : Sub [.sent, .trunks, .pl] S)
    : Keeps S z (State.putCell a1 a2 a3) := by
  unfold State.putCell
  refine keeps_ite ?_ ?_
  · assumption
  · apply keeps_forAll
    · intro x1
      intro x2
      intro k3
      apply keeps_State_putBlock (w := w.of)
      assumption
    · assumption

theorem keeps_State_idleCell (a1 : State) (a2 : Nat) (h1 : Keeps S z a1) (w : Sub [.sent, .trunks, .pl] S) : Keeps S z
    (State.idleCell a1 a2) := by
  unfold State.idleCell
  apply keeps_State_putCell (w := w.of)
  assumption

theorem keeps_State_putIdle (a1 : State) (a2 : Nat) (a3 : Nat) (h1 : Keeps S z a1) (w : Sub [.sent, .trunks, .pl] S) :
    Keeps S z (State.putIdle a1 a2 a3) := by
  unfold State.putIdle
  extract_lets +onlyGivenNames y1
  have k1 : Keeps S z y1 := by
    unfold y1
    apply keeps_State_send (w := w.of)
    assumption
  clear_value y1
  refine keeps_ite ?_ ?_
  · assumption
  · apply keeps_forAll
    · intro x2
      intro x3
      intro k4
      apply keeps_State_putBlock (w := w.of)
      assumption
    · assumption

theorem keeps_State_flushCycle (a1 : State) (a2 : Nat) (h1 : Keeps S z a1) (w : Sub [.jour, .rates] S) : Keeps S z
    (State.flushCycle a1 a2) := by
  unfold State.flushCycle
  apply keeps_forAll
  · intro x1
    intro x2
    intro k3
    refine keeps_ite ?_ ?_
    · apply keeps_State_rateEnd (w := w.of)
      assumption
    · assumption
  · assumption

theorem keeps_State_verifyCycle (a1 : State) (a2 : Nat) (h1 : Keeps S z a1) (w : Sub [.freeCount, .jour, .rates,
    .sent, .trunks, .pl] S) : Keeps S z (State.verifyCycle a1 a2) := by
  unfold State.verifyCycle
  split
  apply keeps_State_dueMarker (w := w.of)
  apply keeps_State_updTrunk (w := w.of)
  apply keeps_State_flushCycle (w := w.of)
  refine keeps_pair (by assumption) ?_
  apply keeps_State_draw (w := w.of)
  assumption

theorem keeps_State_pwrEv (a1 : State) (a2 : Nat) (a3 : Nat) (a4 : Nat) (a5 : Nat) (a6 : Bytes) (h1 : Keeps S z a1) (w
    : Sub [.objs, .irq, .jour, .power] S) : Keeps S z (State.pwrEv a1 a2 a3 a4 a5 a6) := by
  unfold State.pwrEv
  refine keeps_ite ?_ ?_
  · apply keeps_State_ev (w := w.of)
    assumption
  · extract_lets +onlyGivenNames y1
    have k1 : Keeps S z y1 := by
      unfold y1
      refine keeps_ite ?_ ?_
      · apply keeps_State_set (w := w.of)
        assumption
      · assumption
    clear_value y1
    refine keeps_ite ?_ ?_
    · refine keeps_mk ?_ (w_power := .inr w.has)
      assumption
    · apply keeps_State_count (w := w.of)
      assumption

theorem keeps_State_putTurn (a1 : State) (a2 : TurnOff) (h1 : Keeps S z a1) (w : Sub [.power] S) : Keeps S z
    (State.putTurn a1 a2) := by
  unfold State.putTurn
  refine keeps_mk ?_ (w_power := .inr w.has)
  assumption

theorem keeps_State_turnEnd (a1 : State) (a2 : TurnOff) (h1 : Keeps S z a1) (w : Sub [.objs, .irq, .jour, .power] S) :
    Keeps S z (State.turnEnd a1 a2) := by
  unfold State.turnEnd
  refine keeps_ite ?_ ?_
  · assumption
  · refine keeps_ite ?_ ?_
    · refine keeps_mk ?_ (w_power := .inr w.has)
      assumption
    · extract_lets +onlyGivenNames y1
      clear_value y1
      extract_lets +onlyGivenNames y2
      have k2 : Keeps S z y2 := by
        unfold y2
        refine keeps_ite ?_ ?_
        · apply keeps_State_evAt (w := w.of)
          assumption
        · apply keeps_State_pwrEv (w := w.of)
          assumption
      clear_value y2
      apply keeps_State_putTurn (w := w.of)
      assumption

theorem keeps_State_turnsEnd (a1 : State) (a2 : Nat) (h1 : Keeps S z a1) (w : Sub [.objs, .irq, .jour, .power] S) :
    Keeps S z (State.turnsEnd a1 a2) := by
  unfold State.turnsEnd
  apply keeps_forAll
  · intro x1
    intro x2
    intro k3
    apply keeps_State_turnEnd (w := w.of)
    assumption
  · assumption

theorem keeps_State_turnOff (a1 : State) (a2 : Nat) (h1 : Keeps S z a1) (w : Sub [.objs, .irq, .jour, .rates, .power]
    S) : Keeps S z (State.turnOff a1 a2) := by
  unfold State.turnOff
  extract_lets +onlyGivenNames y1
  have k1 : Keeps S z y1 := by
    unfold y1
    apply keeps_State_turnsEnd (w := w.of)
    assumption
  clear_value y1
  split
  · apply keeps_State_putTurn (w := w.of)
    refine keeps_ite ?_ ?_
    · assumption
    · apply keeps_State_raise (w := w.of)
      assumption
  · refine keeps_ite ?_ ?_
    · apply keeps_State_evRate (w := w.of)
      assumption
    · apply keeps_State_putTurn (w := w.of)
      apply keeps_State_pwrEv (w := w.of)
      assumption

theorem keeps_State_gate (a1 : State) (a2 : Nat) (a3 : Bool) (h1 : Keeps S z a1) (w : Sub [.sent] S) : Keeps S z
    (State.gate a1 a2 a3) := by
  unfold State.gate
  apply keeps_State_send (w := w.of)
  assumption

theorem keeps_State_request (a1 : State) (a2 : Nat) (a3 : Bool) (h1 : Keeps S z a1) (w : Sub [.power] S) : Keeps S z
    (State.request a1 a2 a3) := by
  unfold State.request
  extract_lets +onlyGivenNames y1
  clear_value y1
  refine keeps_mk ?_ (w_power := .inr w.has)
  assumption

theorem keeps_State_breakerRamp (a1 : State) (a2 : Nat) (h1 : Keeps S z a1) (w : Sub [.objs, .timers, .sent] S) :
    Keeps S z (State.breakerRamp a1 a2) := by
  unfold State.breakerRamp
  apply keeps_State_gate (w := w.of)
  apply keeps_State_start (w := w.of)
  apply keeps_State_stop (w := w.of)
  apply keeps_State_set (w := w.of)
  assumption

theorem keeps_State_breakerOff (a1 : State) (a2 : Nat) (h1 : Keeps S z a1) (w : Sub [.objs, .timers, .sent] S) : Keeps
    S z (State.breakerOff a1 a2) := by
  unfold State.breakerOff
  extract_lets +onlyGivenNames y1
  have k1 : Keeps S z y1 := by
    unfold y1
    refine keeps_ite ?_ ?_
    · apply keeps_State_gate (w := w.of)
      assumption
    · assumption
  clear_value y1
  apply keeps_State_stopAll (w := w.of)
  apply keeps_State_set (w := w.of)
  assumption

theorem keeps_State_retryDecision (a1 : State) (a2 : Nat) (h1 : Keeps S z a1) (w : Sub [.objs, .timers, .irq, .jour,
    .power] S) : Keeps S z (State.retryDecision a1 a2) := by
  unfold State.retryDecision
  refine keeps_ite ?_ ?_
  · apply keeps_State_set (w := w.of)
    assumption
  · refine keeps_ite ?_ ?_
    · extract_lets +onlyGivenNames y1
      clear_value y1
      extract_lets +onlyGivenNames y2
      have k2 : Keeps S z y2 := by
        unfold y2
        refine keeps_mk ?_ (w_power := .inr w.has)
        assumption
      clear_value y2
      apply keeps_State_start (w := w.of)
      apply keeps_State_set (w := w.of)
      assumption
    · apply keeps_State_pwrEv (w := w.of)
      apply keeps_State_set (w := w.of)
      assumption

theorem keeps_State_trip (a1 : State) (a2 : Nat) (a3 : Nat) (a4 : Nat) (a5 : Nat) (a6 : Int) (h1 : Keeps S z a1) (w :
    Sub [.objs, .timers, .irq, .jour, .sent, .power] S) : Keeps S z (State.trip a1 a2 a3 a4 a5 a6) := by
  unfold State.trip
  extract_lets +onlyGivenNames y1
  have k1 : Keeps S z y1 := by
    unfold y1
    apply keeps_State_count (w := w.of)
    apply keeps_State_stopAll (w := w.of)
    apply keeps_State_gate (w := w.of)
    assumption
  clear_value y1
  extract_lets +onlyGivenNames y2
  have k2 : Keeps S z y2 := by
    unfold y2
    apply keeps_State_setAll (w := w.of)
    assumption
  clear_value y2
  extract_lets +onlyGivenNames y3
  have k3 : Keeps S z y3 := by
    unfold y3
    apply keeps_State_pwrEv (w := w.of)
    assumption
  clear_value y3
  apply keeps_State_retryDecision (w := w.of)
  assumption

theorem keeps_State_retryBreaker (a1 : State) (a2 : Nat) (a3 : Int) (h1 : Keeps S z a1) (w : Sub [.objs, .timers,
    .irq, .jour, .sent, .power] S) : Keeps S z (State.retryBreaker a1 a2 a3) := by
  unfold State.retryBreaker
  extract_lets +onlyGivenNames y1
  have k1 : Keeps S z y1 := by
    unfold y1
    apply keeps_State_count (w := w.of)
    assumption
  clear_value y1
  apply keeps_State_pwrEv (w := w.of)
  apply keeps_State_breakerRamp (w := w.of)
  assumption

theorem keeps_State_breakerReset (a1 : State) (a2 : Nat) (a3 : Nat) (h1 : Keeps S z a1) (w : Sub [.objs, .timers,
    .irq, .jour, .sent, .power] S) : Keeps S z (State.breakerReset a1 a2 a3) := by
  unfold State.breakerReset
  apply keeps_State_pwrEv (w := w.of)
  apply keeps_State_set (w := w.of)
  apply keeps_State_breakerOff (w := w.of)
  assumption

theorem keeps_State_breakerSwitch (a1 : State) (a2 : Bool) (h1 : Keeps S z a1) (w : Sub [.objs] S) : Keeps S z
    (State.breakerSwitch a1 a2) := by
  unfold State.breakerSwitch
  apply keeps_forAll
  · intro x1
    intro x2
    intro k3
    refine keeps_ite ?_ ?_
    · apply keeps_onlyIf
      · intro x4
        intro k5
        apply keeps_State_set (w := w.of)
        assumption
      · assumption
    · refine keeps_ite ?_ ?_
      · apply keeps_State_set (w := w.of)
        assumption
      · assumption
  · assumption

theorem keeps_State_updUport (a1 : State) (a2 : Nat) (a3 : UsbPort → UsbPort) (h1 : Keeps S z a1) (w : Sub [.usb] S) :
    Keeps S z (State.updUport a1 a2 a3) := by
  unfold State.updUport
  refine keeps_mk ?_ (w_usb := .inr w.has)
  assumption

theorem keeps_State_showHub (a1 : State) (h1 : Keeps S z a1) (w : Sub [.objs] S) : Keeps S z (State.showHub a1) := by
  unfold State.showHub
  extract_lets +onlyGivenNames y1
  clear_value y1
  apply keeps_State_setAll (w := w.of)
  assumption

theorem keeps_State_usbComplete (a1 : State) (a2 : UsbReq) (a3 : Nat) (a4 : Nat) (a5 : Nat) (a6 : Nat) (a7 : Bytes)
    (h1 : Keeps S z a1) (w : Sub [.objs, .freeCount, .irq, .jour, .rates, .fabric] S) : Keeps S z (State.usbComplete
    a1 a2 a3 a4 a5 a6 a7) := by
  unfold State.usbComplete
  split
  extract_lets +onlyGivenNames y1
  clear_value y1
  extract_lets +onlyGivenNames y2
  clear_value y2
  extract_lets +onlyGivenNames y3
  clear_value y3
  apply keeps_State_unitOut (w := w.of)
  refine keeps_pair (by assumption) ?_
  apply keeps_State_draw (w := w.of)
  assumption

theorem keeps_State_missed (a1 : State) (a2 : Nat) (a3 : Nat) (h1 : Keeps S z a1) (w : Sub [.objs, .irq, .jour,
    .rates] S) : Keeps S z (State.missed a1 a2 a3) := by
  unfold State.missed
  extract_lets +onlyGivenNames y1
  have k1 : Keeps S z y1 := by
    unfold y1
    refine keeps_ite ?_ ?_
    · apply keeps_State_count (w := w.of)
      apply keeps_State_count (w := w.of)
      assumption
    · refine keeps_ite ?_ ?_
      · apply keeps_State_count (w := w.of)
        assumption
      · apply keeps_State_count (w := w.of)
        assumption
  clear_value y1
  apply keeps_State_evRate (w := w.of)
  assumption

theorem keeps_State_turnAway (a1 : State) (a2 : Nat) (a3 : UsbReq) (a4 : Nat) (h1 : Keeps S z a1) (w : Sub [.objs,
    .freeCount, .irq, .jour, .rates, .fabric] S) : Keeps S z (State.turnAway a1 a2 a3 a4) := by
  unfold State.turnAway
  extract_lets +onlyGivenNames y1
  have k1 : Keeps S z y1 := by
    unfold y1
    refine keeps_ite ?_ ?_
    · apply keeps_State_missed (w := w.of)
      assumption
    · refine keeps_ite ?_ ?_
      · apply keeps_State_count (w := w.of)
        assumption
      · assumption
  clear_value y1
  apply keeps_State_usbComplete (w := w.of)
  assumption

theorem keeps_State_discardNote (a1 : State) (a2 : Nat) (a3 : Nat) (a4 : Nat) (h1 : Keeps S z a1) (w : Sub [.objs,
    .irq, .jour] S) : Keeps S z (State.discardNote a1 a2 a3 a4) := by
  unfold State.discardNote
  refine keeps_ite ?_ ?_
  · assumption
  · apply keeps_State_ev (w := w.of)
    apply keeps_State_count (w := w.of)
    assumption

theorem keeps_State_discardSome (a1 : State) (a2 : Nat) (a3 : Nat) (a4 : Nat) (a5 : UsbReq → Bool) (h1 : Keeps S z a1)
    (w : Sub [.objs, .freeCount, .irq, .jour, .rates, .fabric, .usb] S) : Keeps S z (State.discardSome a1 a2 a3 a4 a5)
    := by
  unfold State.discardSome
  extract_lets +onlyGivenNames y1
  clear_value y1
  extract_lets +onlyGivenNames y2
  clear_value y2
  extract_lets +onlyGivenNames y3
  have k3 : Keeps S z y3 := by
    unfold y3
    apply keeps_State_updUport (w := w.of)
    assumption
  clear_value y3
  extract_lets +onlyGivenNames y4
  have k4 : Keeps S z y4 := by
    unfold y4
    refine keeps_ite ?_ ?_
    · apply keeps_State_discardNote (w := w.of)
      assumption
    · assumption
  clear_value y4
  apply keeps_forAll
  · intro x5
    intro x6
    intro k7
    apply keeps_State_usbComplete (w := w.of)
    assumption
  · assumption

theorem keeps_State_discard (a1 : State) (a2 : Nat) (a3 : Nat) (a4 : Nat) (h1 : Keeps S z a1) (w : Sub [.objs,
    .freeCount, .irq, .jour, .rates, .fabric, .usb] S) : Keeps S z (State.discard a1 a2 a3 a4) := by
  unfold State.discard
  apply keeps_State_discardSome (w := w.of)
  assumption

theorem keeps_State_pbit (a1 : State) (a2 : Nat) (a3 : Nat) (a4 : Bool) (h1 : Keeps S z a1) (w : Sub [.objs] S) :
    Keeps S z (State.pbit a1 a2 a3 a4) := by
  unfold State.pbit
  apply keeps_State_set (w := w.of)
  assumption

theorem keeps_State_cbit (a1 : State) (a2 : Nat) (a3 : Nat) (h1 : Keeps S z a1) (w : Sub [.objs, .irq] S) : Keeps S z
    (State.cbit a1 a2 a3) := by
  unfold State.cbit
  apply keeps_State_raise (w := w.of)
  apply keeps_State_set (w := w.of)
  assumption

theorem keeps_State_rawDone (a1 : State) (a2 : Nat) (h1 : Keeps S z a1) (w : Sub [.objs, .irq, .jour] S) : Keeps S z
    (State.rawDone a1 a2) := by
  unfold State.rawDone
  apply keeps_State_cmdCommit (w := w.of)
  assumption

theorem keeps_State_rawFollow (a1 : State) (a2 : Nat) (a3 : Nat) (a4 : Nat) (h1 : Keeps S z a1) (w : Sub [.objs, .irq,
    .jour] S) : Keeps S z (State.rawFollow a1 a2 a3 a4) := by
  unfold State.rawFollow
  extract_lets +onlyGivenNames y1
  clear_value y1
  refine keeps_ite ?_ ?_
  · apply keeps_State_rawDone (w := w.of)
    assumption
  · refine keeps_ite ?_ ?_
    · apply keeps_State_cmdFail (w := w.of)
      assumption
    · assumption

theorem keeps_State_pgo (a1 : State) (a2 : Nat) (a3 : Nat) (h1 : Keeps S z a1) (w : Sub [.objs, .timers, .irq, .jour,
    .usb] S) : Keeps S z (State.pgo a1 a2 a3) := by
  unfold State.pgo
  extract_lets +onlyGivenNames y1
  clear_value y1
  refine keeps_ite ?_ ?_
  · assumption
  · extract_lets +onlyGivenNames y2
    have k2 : Keeps S z y2 := by
      unfold y2
      apply keeps_State_stopAll (w := w.of)
      apply keeps_State_set (w := w.of)
      assumption
    clear_value y2
    extract_lets +onlyGivenNames y3
    have k3 : Keeps S z y3 := by
      unfold y3
      apply keeps_State_updUport (w := w.of)
      assumption
    clear_value y3
    extract_lets +onlyGivenNames y4
    have k4 : Keeps S z y4 := by
      unfold y4
      apply keeps_State_pbit (w := w.of)
      apply keeps_State_pbit (w := w.of)
      apply keeps_State_pbit (w := w.of)
      assumption
    clear_value y4
    extract_lets +onlyGivenNames y5
    have k5 : Keeps S z y5 := by
      unfold y5
      apply keeps_State_pbit (w := w.of)
      apply keeps_State_pbit (w := w.of)
      assumption
    clear_value y5
    extract_lets +onlyGivenNames y6
    have k6 : Keeps S z y6 := by
      unfold y6
      refine keeps_ite ?_ ?_
      · apply keeps_State_pbit (w := w.of)
        apply keeps_State_set (w := w.of)
        assumption
      · assumption
    clear_value y6
    extract_lets +onlyGivenNames y7
    have k7 : Keeps S z y7 := by
      unfold y7
      refine keeps_ite ?_ ?_
      · apply keeps_State_pbit (w := w.of)
        apply keeps_State_pbit (w := w.of)
        assumption
      · assumption
    clear_value y7
    extract_lets +onlyGivenNames y8
    have k8 : Keeps S z y8 := by
      unfold y8
      apply keeps_State_ev (w := w.of)
      assumption
    clear_value y8
    apply keeps_State_rawFollow (w := w.of)
    assumption

theorem keeps_State_portPowerOn (a1 : State) (a2 : Nat) (h1 : Keeps S z a1) (w : Sub [.objs, .timers, .irq, .jour,
    .usb, .power] S) : Keeps S z (State.portPowerOn a1 a2) := by
  unfold State.portPowerOn
  extract_lets +onlyGivenNames y1
  have k1 : Keeps S z y1 := by
    unfold y1
    apply keeps_State_request (w := w.of)
    assumption
  clear_value y1
  refine keeps_ite ?_ ?_
  · extract_lets +onlyGivenNames y2
    have k2 : Keeps S z y2 := by
      unfold y2
      apply keeps_State_pgo (w := w.of)
      assumption
    clear_value y2
    refine keeps_ite ?_ ?_
    · apply keeps_State_pbit (w := w.of)
      assumption
    · assumption
  · assumption

theorem keeps_State_portPowerOff (a1 : State) (a2 : Nat) (a3 : Nat) (a4 : Nat) (h1 : Keeps S z a1) (w : Sub [.objs,
    .freeCount, .timers, .irq, .jour, .rates, .fabric, .usb, .power] S) : Keeps S z (State.portPowerOff a1 a2 a3 a4)
    := by
  unfold State.portPowerOff
  apply keeps_State_discard (w := w.of)
  apply keeps_State_pgo (w := w.of)
  apply keeps_State_request (w := w.of)
  assumption

theorem keeps_State_portPowerGood (a1 : State) (a2 : Nat) (h1 : Keeps S z a1) (w : Sub [.objs, .timers, .irq, .jour,
    .usb] S) : Keeps S z (State.portPowerGood a1 a2) := by
  unfold State.portPowerGood
  extract_lets +onlyGivenNames y1
  clear_value y1
  extract_lets +onlyGivenNames y2
  have k2 : Keeps S z y2 := by
    unfold y2
    refine keeps_ite ?_ ?_
    · refine keeps_mk ?_ (w_usb := .inr w.has)
      assumption
    · apply keeps_State_pbit (w := w.of)
      assumption
  clear_value y2
  extract_lets +onlyGivenNames y3
  have k3 : Keeps S z y3 := by
    unfold y3
    refine keeps_ite ?_ ?_
    · apply keeps_State_pgo (w := w.of)
      assumption
    · assumption
  clear_value y3
  extract_lets +onlyGivenNames y4
  have k4 : Keeps S z y4 := by
    unfold y4
    apply keeps_State_pbit (w := w.of)
    assumption
  clear_value y4
  refine keeps_ite ?_ ?_
  · apply keeps_State_rawDone (w := w.of)
    assumption
  · assumption

theorem keeps_State_portTrip (a1 : State) (a2 : Nat) (h1 : Keeps S z a1) (w : Sub [.objs, .freeCount, .timers, .irq,
    .jour, .rates, .fabric, .usb] S) : Keeps S z (State.portTrip a1 a2) := by
  unfold State.portTrip
  extract_lets +onlyGivenNames y1
  have k1 : Keeps S z y1 := by
    unfold y1
    apply keeps_State_count (w := w.of)
    apply keeps_State_discard (w := w.of)
    apply keeps_State_pgo (w := w.of)
    assumption
  clear_value y1
  extract_lets +onlyGivenNames y2
  clear_value y2
  extract_lets +onlyGivenNames y3
  have k3 : Keeps S z y3 := by
    unfold y3
    refine keeps_ite ?_ ?_
    · apply keeps_State_raise (w := w.of)
      refine keeps_mk ?_ (w_usb := .inr w.has)
      assumption
    · apply keeps_State_cbit (w := w.of)
      apply keeps_State_pbit (w := w.of)
      assumption
  clear_value y3
  apply keeps_State_ev (w := w.of)
  assumption

theorem keeps_State_portChannelOff (a1 : State) (a2 : Nat) (h1 : Keeps S z a1) (w : Sub [.objs, .irq, .jour] S) :
    Keeps S z (State.portChannelOff a1 a2) := by
  unfold State.portChannelOff
  refine keeps_ite ?_ ?_
  · apply keeps_State_rawDone (w := w.of)
    assumption
  · assumption

theorem keeps_State_portReset (a1 : State) (a2 : Nat) (h1 : Keeps S z a1) (w : Sub [.objs, .freeCount, .timers, .irq,
    .jour, .rates, .sent, .fabric, .usb] S) : Keeps S z (State.portReset a1 a2) := by
  unfold State.portReset
  apply keeps_State_discard (w := w.of)
  apply keeps_State_send (w := w.of)
  apply keeps_State_start (w := w.of)
  apply keeps_State_pgo (w := w.of)
  assumption

theorem keeps_State_portSuspend (a1 : State) (a2 : Nat) (h1 : Keeps S z a1) (w : Sub [.objs, .freeCount, .timers,
    .irq, .jour, .rates, .fabric, .usb] S) : Keeps S z (State.portSuspend a1 a2) := by
  unfold State.portSuspend
  apply keeps_State_discard (w := w.of)
  apply keeps_State_pgo (w := w.of)
  assumption

theorem keeps_State_portResume (a1 : State) (a2 : Nat) (h1 : Keeps S z a1) (w : Sub [.objs, .timers, .irq, .jour,
    .sent, .usb] S) : Keeps S z (State.portResume a1 a2) := by
  unfold State.portResume
  apply keeps_State_send (w := w.of)
  apply keeps_State_start (w := w.of)
  apply keeps_State_pgo (w := w.of)
  assumption

theorem keeps_State_askReset (a1 : State) (a2 : Nat) (h1 : Keeps S z a1) (w : Sub [.objs, .freeCount, .timers, .irq,
    .jour, .rates, .sent, .fabric, .usb] S) : Keeps S z (State.askReset a1 a2) := by
  unfold State.askReset
  refine keeps_ite ?_ ?_
  · refine keeps_ite ?_ ?_
    · apply keeps_State_updUport (w := w.of)
      assumption
    · apply keeps_State_portReset (w := w.of)
      assumption
  · assumption

theorem keeps_State_askSuspend (a1 : State) (a2 : Nat) (h1 : Keeps S z a1) (w : Sub [.objs, .freeCount, .timers, .irq,
    .jour, .rates, .fabric, .usb] S) : Keeps S z (State.askSuspend a1 a2) := by
  unfold State.askSuspend
  refine keeps_ite ?_ ?_
  · refine keeps_ite ?_ ?_
    · apply keeps_State_updUport (w := w.of)
      assumption
    · apply keeps_State_portSuspend (w := w.of)
      assumption
  · assumption

theorem keeps_State_portDisable (a1 : State) (a2 : Nat) (a3 : Bool) (h1 : Keeps S z a1) (w : Sub [.objs, .freeCount,
    .timers, .irq, .jour, .rates, .fabric, .usb] S) : Keeps S z (State.portDisable a1 a2 a3) := by
  unfold State.portDisable
  extract_lets +onlyGivenNames y1
  have k1 : Keeps S z y1 := by
    unfold y1
    apply keeps_State_discard (w := w.of)
    apply keeps_State_pgo (w := w.of)
    assumption
  clear_value y1
  refine keeps_ite ?_ ?_
  · assumption
  · apply keeps_State_cbit (w := w.of)
    assumption

theorem keeps_State_portError (a1 : State) (a2 : Nat) (h1 : Keeps S z a1) (w : Sub [.objs, .freeCount, .timers, .irq,
    .jour, .rates, .fabric, .usb] S) : Keeps S z (State.portError a1 a2) := by
  unfold State.portError
  refine keeps_ite ?_ ?_
  · apply keeps_State_portDisable (w := w.of)
    assumption
  · assumption

theorem keeps_State_portTest (a1 : State) (a2 : Nat) (a3 : Nat) (h1 : Keeps S z a1) (w : Sub [.objs, .sent, .usb] S) :
    Keeps S z (State.portTest a1 a2 a3) := by
  unfold State.portTest
  apply keeps_State_send (w := w.of)
  apply keeps_State_pbit (w := w.of)
  apply keeps_State_updUport (w := w.of)
  assumption

theorem keeps_State_toWire (a1 : State) (a2 : Nat) (a3 : UsbReq) (h1 : Keeps S z a1) (w : Sub [.sent, .usb] S) : Keeps
    S z (State.toWire a1 a2 a3) := by
  unfold State.toWire
  extract_lets +onlyGivenNames y1
  clear_value y1
  apply keeps_State_send (w := w.of)
  apply keeps_State_updUport (w := w.of)
  assumption

theorem keeps_State_runPeriodic (a1 : State) (a2 : Nat) (h1 : Keeps S z a1) (w : Sub [.sent, .usb] S) : Keeps S z
    (State.runPeriodic a1 a2) := by
  unfold State.runPeriodic
  extract_lets +onlyGivenNames y1
  clear_value y1
  refine keeps_ite ?_ ?_
  · assumption
  · split
    · apply keeps_State_toWire (w := w.of)
      apply keeps_State_updUport (w := w.of)
      assumption
    · assumption

theorem keeps_State_takeRequest (a1 : State) (a2 : Nat) (a3 : UsbReq) (h1 : Keeps S z a1) (w : Sub [.objs, .freeCount,
    .irq, .jour, .rates, .fabric, .usb] S) : Keeps S z (State.takeRequest a1 a2 a3) := by
  unfold State.takeRequest
  refine keeps_ite ?_ ?_
  · apply keeps_State_turnAway (w := w.of)
    assumption
  · refine keeps_ite ?_ ?_
    · refine keeps_ite ?_ ?_
      · apply keeps_State_turnAway (w := w.of)
        assumption
      · refine keeps_ite ?_ ?_
        · apply keeps_State_turnAway (w := w.of)
          assumption
        · refine keeps_ite ?_ ?_
          · apply keeps_State_turnAway (w := w.of)
            assumption
          · refine keeps_ite ?_ ?_
            · apply keeps_State_turnAway (w := w.of)
              assumption
            · apply keeps_State_updUport (w := w.of)
              assumption
    · refine keeps_ite ?_ ?_
      · apply keeps_State_turnAway (w := w.of)
        assumption
      · apply keeps_State_updUport (w := w.of)
        assumption

theorem keeps_State_hubAnswer (a1 : State) (a2 : UsbReq) (h1 : Keeps S z a1) (w : Sub [.objs, .freeCount, .irq, .jour,
    .rates, .fabric, .usb] S) : Keeps S z (State.hubAnswer a1 a2) := by
  unfold State.hubAnswer
  extract_lets +onlyGivenNames y1
  have k1 : Keeps S z y1 := by
    unfold y1
    apply keeps_State_count (w := w.of)
    assumption
  clear_value y1
  extract_lets +onlyGivenNames y2
  clear_value y2
  refine keeps_ite ?_ ?_
  · apply keeps_State_usbComplete (w := w.of)
    assumption
  · refine keeps_ite ?_ ?_
    · refine keeps_ite ?_ ?_
      · apply keeps_State_usbComplete (w := w.of)
        assumption
      · refine keeps_ite ?_ ?_
        · apply keeps_State_usbComplete (w := w.of)
          assumption
        · refine keeps_ite ?_ ?_
          · apply keeps_State_usbComplete (w := w.of)
            assumption
          · extract_lets +onlyGivenNames y3
            clear_value y3
            extract_lets +onlyGivenNames y4
            have k4 : Keeps S z y4 := by
              unfold y4
              apply keeps_State_usbComplete (w := w.of)
              assumption
            clear_value y4
            refine keeps_mk ?_ (w_usb := .inr w.has)
            assumption
    · refine keeps_ite ?_ ?_
      · apply keeps_State_usbComplete (w := w.of)
        assumption
      · refine keeps_ite ?_ ?_
        · extract_lets +onlyGivenNames y5
          clear_value y5
          extract_lets +onlyGivenNames y6
          have k6 : Keeps S z y6 := by
            unfold y6
            refine keeps_mk ?_ (w_usb := .inr w.has)
            assumption
          clear_value y6
          apply keeps_State_usbComplete (w := w.of)
          assumption
        · refine keeps_ite ?_ ?_
          · apply keeps_State_usbComplete (w := w.of)
            assumption
          · refine keeps_ite ?_ ?_
            · extract_lets +onlyGivenNames y7
              clear_value y7
              extract_lets +onlyGivenNames y8
              clear_value y8
              extract_lets +onlyGivenNames y9
              have k9 : Keeps S z y9 := by
                unfold y9
                apply keeps_State_usbComplete (w := w.of)
                assumption
              clear_value y9
              refine keeps_mk ?_ (w_usb := .inr w.has)
              assumption
            · apply keeps_State_usbComplete (w := w.of)
              assumption

theorem keeps_State_updRelay (a1 : State) (a2 : Nat) (a3 : Relay → Relay) (h1 : Keeps S z a1) (w : Sub [.usb] S) :
    Keeps S z (State.updRelay a1 a2 a3) := by
  unfold State.updRelay
  refine keeps_mk ?_ (w_usb := .inr w.has)
  assumption

theorem keeps_State_busEvent (a1 : State) (a2 : Nat) (a3 : Nat) (h1 : Keeps S z a1) (w : Sub [.objs, .irq, .jour,
    .rates, .fabric] S) : Keeps S z (State.busEvent a1 a2 a3) := by
  unfold State.busEvent
  apply keeps_State_unitOut (w := w.of)
  assumption

theorem keeps_State_busNote (a1 : State) (a2 : Nat) (h1 : Keeps S z a1) (w : Sub [.irq, .jour] S) : Keeps S z
    (State.busNote a1 a2) := by
  unfold State.busNote
  apply keeps_State_ev (w := w.of)
  assumption

theorem keeps_State_hubSuspend (a1 : State) (h1 : Keeps S z a1) (w : Sub [.objs, .timers, .usb] S) : Keeps S z
    (State.hubSuspend a1) := by
  unfold State.hubSuspend
  extract_lets +onlyGivenNames y1
  have k1 : Keeps S z y1 := by
    unfold y1
    apply keeps_State_set (w := w.of)
    assumption
  clear_value y1
  apply keeps_State_stop (w := w.of)
  refine keeps_mk ?_ (w_usb := .inr w.has)
  assumption

theorem keeps_State_hubResume (a1 : State) (h1 : Keeps S z a1) (w : Sub [.timers, .sent, .usb] S) : Keeps S z
    (State.hubResume a1) := by
  unfold State.hubResume
  extract_lets +onlyGivenNames y1
  clear_value y1
  extract_lets +onlyGivenNames y2
  have k2 : Keeps S z y2 := by
    unfold y2
    apply keeps_State_start (w := w.of)
    refine keeps_mk ?_ (w_usb := .inr w.has)
    assumption
  clear_value y2
  apply keeps_forAll
  · intro x3
    intro x4
    intro k5
    apply keeps_onlyIf
    · intro x6
      intro k7
      apply keeps_State_send (w := w.of)
      assumption
    · assumption
  · assumption

theorem keeps_State_hubDefault (a1 : State) (h1 : Keeps S z a1) (w : Sub [.usb] S) : Keeps S z (State.hubDefault a1)
    := by
  unfold State.hubDefault
  refine keeps_mk ?_ (w_usb := .inr w.has)
  assumption

theorem keeps_State_forget (a1 : State) (a2 : Nat) (a3 : Bool) (h1 : Keeps S z a1) (w : Sub [.objs, .irq, .jour, .usb]
    S) : Keeps S z (State.forget a1 a2 a3) := by
  unfold State.forget
  apply keeps_forAll
  · intro x1
    intro x2
    intro k3
    extract_lets +onlyGivenNames y4
    clear_value y4
    extract_lets +onlyGivenNames y5
    clear_value y5
    extract_lets +onlyGivenNames y6
    have k6 : Keeps S z y6 := by
      unfold y6
      apply keeps_State_updUport (w := w.of)
      assumption
    clear_value y6
    refine keeps_ite ?_ ?_
    · apply keeps_State_discardNote (w := w.of)
      assumption
    · assumption
  · assumption

theorem keeps_State_usbOpen (a1 : State) (a2 : Nat) (a3 : Nat) (h1 : Keeps S z a1) (w : Sub [.objs, .irq, .jour,
    .rates, .fabric, .usb] S) : Keeps S z (State.usbOpen a1 a2 a3) := by
  unfold State.usbOpen
  refine keeps_ite ?_ ?_
  · assumption
  · extract_lets +onlyGivenNames y1
    have k1 : Keeps S z y1 := by
      unfold y1
      apply keeps_State_showHub (w := w.of)
      assumption
    clear_value y1
    refine keeps_ite ?_ ?_
    · extract_lets +onlyGivenNames y2
      have k2 : Keeps S z y2 := by
        unfold y2
        apply keeps_State_busEvent (w := w.of)
        assumption
      clear_value y2
      apply keeps_State_raise (w := w.of)
      refine keeps_mk ?_ (w_usb := .inr w.has)
      assumption
    · assumption

theorem keeps_State_usbClose (a1 : State) (a2 : Nat) (a3 : Nat) (h1 : Keeps S z a1) (w : Sub [.objs, .freeCount,
    .timers, .irq, .jour, .rates, .fabric, .usb] S) : Keeps S z (State.usbClose a1 a2 a3) := by
  unfold State.usbClose
  refine keeps_ite ?_ ?_
  · apply keeps_State_forget (w := w.of)
    assumption
  · refine keeps_ite ?_ ?_
    · assumption
    · extract_lets +onlyGivenNames y1
      have k1 : Keeps S z y1 := by
        unfold y1
        apply keeps_State_hubSuspend (w := w.of)
        apply keeps_State_forget (w := w.of)
        assumption
      clear_value y1
      extract_lets +onlyGivenNames y2
      have k2 : Keeps S z y2 := by
        unfold y2
        refine keeps_ite ?_ ?_
        · apply keeps_forAll
          · intro x3
            intro x4
            intro k5
            apply keeps_State_discard (w := w.of)
            assumption
          · assumption
        · assumption
      clear_value y2
      apply keeps_State_set (w := w.of)
      refine keeps_mk ?_ (w_usb := .inr w.has)
      assumption

theorem keeps_State_usbPortsOff (a1 : State) (a2 : Bool) (h1 : Keeps S z a1) (w : Sub [.objs, .freeCount, .timers,
    .irq, .jour, .rates, .fabric, .usb, .power] S) : Keeps S z (State.usbPortsOff a1 a2) := by
  unfold State.usbPortsOff
  apply keeps_forAll
  · intro x1
    intro x2
    intro k3
    refine keeps_ite ?_ ?_
    · refine keeps_ite ?_ ?_
      · apply keeps_State_discard (w := w.of)
        apply keeps_State_pgo (w := w.of)
        assumption
      · assumption
    · apply keeps_State_discard (w := w.of)
      apply keeps_State_pgo (w := w.of)
      apply keeps_State_request (w := w.of)
      assumption
  · assumption

theorem keeps_State_onOpen (a1 : State) (a2 : Nat) (a3 : Nat) (a4 : Nat) (h1 : Keeps S z a1) (w : Sub [.objs, .irq,
    .jour, .rates, .sent, .fabric, .disps, .usb, .stor] S) : Keeps S z (State.onOpen a1 a2 a3 a4) := by
  unfold State.onOpen
  refine keeps_ite ?_ ?_
  · apply keeps_State_displayOpen (w := w.of)
    assumption
  · refine keeps_ite ?_ ?_
    · apply keeps_State_storageOpen (w := w.of)
      assumption
    · refine keeps_ite ?_ ?_
      · apply keeps_State_usbOpen (w := w.of)
        assumption
      · assumption

theorem keeps_State_onClose (a1 : State) (a2 : Nat) (a3 : Nat) (a4 : Nat) (h1 : Keeps S z a1) (w : Sub [.objs,
    .freeCount, .timers, .irq, .jour, .rates, .sent, .fabric, .disps, .usb, .stor, .fld] S) : Keeps S z (State.onClose
    a1 a2 a3 a4) := by
  unfold State.onClose
  refine keeps_ite ?_ ?_
  · apply keeps_State_displayClose (w := w.of)
    assumption
  · refine keeps_ite ?_ ?_
    · apply keeps_State_storageClose (w := w.of)
      assumption
    · refine keeps_ite ?_ ?_
      · apply keeps_State_usbClose (w := w.of)
        assumption
      · refine keeps_ite ?_ ?_
        · refine keeps_mk ?_ (w_fld := .inr w.has)
          assumption
        · assumption

theorem keeps_State_onLost (a1 : State) (a2 : Nat) (a3 : List Int) (h1 : Keeps S z a1) (w : Sub [.objs, .irq, .jour,
    .rates, .sent, .fabric, .stor] S) : Keeps S z (State.onLost a1 a2 a3) := by
  unfold State.onLost
  apply keeps_State_storageLost (w := w.of)
  assumption

theorem keeps_State_onReopen (a1 : State) (a2 : Nat) (a3 : Nat) (a4 : Nat) (h1 : Keeps S z a1) (w : Sub [.objs, .irq,
    .jour, .rates, .sent, .fabric, .disps, .usb, .stor] S) : Keeps S z (State.onReopen a1 a2 a3 a4) := by
  unfold State.onReopen
  refine keeps_ite ?_ ?_
  · assumption
  · apply keeps_State_onOpen (w := w.of)
    assumption

theorem keeps_State_emit (a1 : State) (a2 : Nat) (a3 : List Nat) (a4 : Cell) (a5 : (Option Nat)) (h1 :
    Keeps S z a1) (w : Sub [.fabric] S) : Keeps S z (State.emit a1 a2 a3 a4 a5) := by
  unfold State.emit
  refine keeps_ite ?_ ?_
  · assumption
  · apply keeps_State_toAdapter (w := w.of)
    assumption

theorem keeps_State_sendControl (a1 : State) (a2 : Nat) (a3 : Bytes) (a4 : (Option Nat)) (h1 : Keeps S z
    a1) (w : Sub [.fabric] S) : Keeps S z (State.sendControl a1 a2 a3 a4) := by
  unfold State.sendControl
  apply keeps_State_emit (w := w.of)
  assumption

theorem keeps_State_sendOffer (a1 : State) (a2 : Nat) (a3 : Nat) (h1 : Keeps S z a1) (w : Sub [.fabric] S) : Keeps S z
    (State.sendOffer a1 a2 a3) := by
  unfold State.sendOffer
  extract_lets +onlyGivenNames y1
  clear_value y1
  apply keeps_State_sendControl (w := w.of)
  assumption

theorem keeps_State_sendClose (a1 : State) (a2 : Nat) (a3 : (Option Nat)) (h1 : Keeps S z a1) (w : Sub
    [.fabric] S) : Keeps S z (State.sendClose a1 a2 a3) := by
  unfold State.sendClose
  apply keeps_State_sendControl (w := w.of)
  assumption

theorem keeps_State_sendKeyReady (a1 : State) (a2 : Nat) (a3 : Nat) (h1 : Keeps S z a1) (w : Sub [.fabric] S) : Keeps
    S z (State.sendKeyReady a1 a2 a3) := by
  unfold State.sendKeyReady
  apply keeps_State_sendControl (w := w.of)
  assumption

theorem keeps_State_refuse (a1 : State) (a2 : Nat) (a3 : Nat) (h1 : Keeps S z a1) (w : Sub [.objs, .timers, .irq,
    .jour, .fabric] S) : Keeps S z (State.refuse a1 a2 a3) := by
  unfold State.refuse
  extract_lets +onlyGivenNames y1
  have k1 : Keeps S z y1 := by
    unfold y1
    apply keeps_State_setAll (w := w.of)
    apply keeps_State_stopAll (w := w.of)
    assumption
  clear_value y1
  extract_lets +onlyGivenNames y2
  have k2 : Keeps S z y2 := by
    unfold y2
    apply keeps_State_tunEv (w := w.of)
    assumption
  clear_value y2
  apply keeps_State_sendOffer (w := w.of)
  assumption

theorem keeps_State_negotiate (a1 : State) (a2 : Nat) (h1 : Keeps S z a1) (w : Sub [.objs, .timers, .irq, .jour,
    .tunnels, .fabric] S) : Keeps S z (State.negotiate a1 a2) := by
  unfold State.negotiate
  extract_lets +onlyGivenNames y1
  have k1 : Keeps S z y1 := by
    unfold y1
    apply keeps_State_updTun (w := w.of)
    assumption
  clear_value y1
  extract_lets +onlyGivenNames y2
  have k2 : Keeps S z y2 := by
    unfold y2
    apply keeps_State_showTwin (w := w.of)
    assumption
  clear_value y2
  refine keeps_ite ?_ ?_
  · apply keeps_State_refuse (w := w.of)
    assumption
  · extract_lets +onlyGivenNames y3
    have k3 : Keeps S z y3 := by
      unfold y3
      refine keeps_ite ?_ ?_
      · apply keeps_State_set (w := w.of)
        assumption
      · assumption
    clear_value y3
    extract_lets +onlyGivenNames y4
    have k4 : Keeps S z y4 := by
      unfold y4
      apply keeps_State_setAll (w := w.of)
      assumption
    clear_value y4
    apply keeps_State_sendOffer (w := w.of)
    apply keeps_State_start (w := w.of)
    apply keeps_State_start (w := w.of)
    assumption

theorem keeps_State_announceKey (a1 : State) (a2 : Nat) (h1 : Keeps S z a1) (w : Sub [.timers, .fabric] S) : Keeps S z
    (State.announceKey a1 a2) := by
  unfold State.announceKey
  refine keeps_ite ?_ ?_
  · apply keeps_State_start (w := w.of)
    apply keeps_State_sendKeyReady (w := w.of)
    assumption
  · assumption

theorem keeps_State_moveKey (a1 : State) (a2 : Nat) (h1 : Keeps S z a1) (w : Sub [.objs, .timers, .irq, .jour,
    .tunnels] S) : Keeps S z (State.moveKey a1 a2) := by
  unfold State.moveKey
  extract_lets +onlyGivenNames y1
  clear_value y1
  extract_lets +onlyGivenNames y2
  clear_value y2
  extract_lets +onlyGivenNames y3
  have k3 : Keeps S z y3 := by
    unfold y3
    apply keeps_State_stopAll (w := w.of)
    apply keeps_State_setAll (w := w.of)
    assumption
  clear_value y3
  extract_lets +onlyGivenNames y4
  have k4 : Keeps S z y4 := by
    unfold y4
    apply keeps_State_updTun (w := w.of)
    assumption
  clear_value y4
  apply keeps_State_tunEv (w := w.of)
  assumption

theorem keeps_State_mayMove (a1 : State) (a2 : Nat) (a3 : Nat) (h1 : Keeps S z a1) (w : Sub [.objs, .timers, .irq,
    .jour, .tunnels] S) : Keeps S z (State.mayMove a1 a2 a3) := by
  unfold State.mayMove
  refine keeps_ite ?_ ?_
  · apply keeps_State_moveKey (w := w.of)
    assumption
  · assumption

theorem keeps_State_takeKey (a1 : State) (a2 : Nat) (a3 : Nat) (h1 : Keeps S z a1) (w : Sub [.objs, .timers, .irq,
    .jour, .tunnels, .fabric] S) : Keeps S z (State.takeKey a1 a2 a3) := by
  unfold State.takeKey
  apply keeps_State_mayMove (w := w.of)
  apply keeps_State_announceKey (w := w.of)
  assumption

theorem keeps_State_creditGone (a1 : State) (a2 : Nat) (h1 : Keeps S z a1) (w : Sub [.scheds] S) : Keeps S z
    (State.creditGone a1 a2) := by
  unfold State.creditGone
  apply keeps_forAll
  · intro x1
    intro x2
    intro k3
    apply keeps_State_updShaper (w := w.of)
    assumption
  · assumption

theorem keeps_State_openTunnel (a1 : State) (a2 : Nat) (a3 : Nat) (h1 : Keeps S z a1) (w : Sub [.objs, .timers, .irq,
    .jour, .rates, .sent, .tunnels, .fabric, .scheds, .disps, .usb, .stor] S) : Keeps S z (State.openTunnel a1 a2 a3)
    := by
  unfold State.openTunnel
  extract_lets +onlyGivenNames y1
  have k1 : Keeps S z y1 := by
    unfold y1
    apply keeps_State_stopAll (w := w.of)
    assumption
  clear_value y1
  extract_lets +onlyGivenNames y2
  have k2 : Keeps S z y2 := by
    unfold y2
    apply keeps_State_setAll (w := w.of)
    assumption
  clear_value y2
  extract_lets +onlyGivenNames y3
  clear_value y3
  extract_lets +onlyGivenNames y4
  clear_value y4
  extract_lets +onlyGivenNames y5
  have k5 : Keeps S z y5 := by
    unfold y5
    apply keeps_State_updTun (w := w.of)
    assumption
  clear_value y5
  extract_lets +onlyGivenNames y6
  have k6 : Keeps S z y6 := by
    unfold y6
    apply keeps_forAll
    · intro x7
      intro x8
      intro k9
      extract_lets +onlyGivenNames y10
      clear_value y10
      apply keeps_State_updShaper (w := w.of)
      assumption
    · assumption
  clear_value y6
  extract_lets +onlyGivenNames y11
  have k11 : Keeps S z y11 := by
    unfold y11
    apply keeps_forAll
    · intro x12
      intro x13
      intro k14
      refine keeps_ite ?_ ?_
      · apply keeps_State_tunEv (w := w.of)
        assumption
      · assumption
    · apply keeps_State_showTwin (w := w.of)
      assumption
  clear_value y11
  extract_lets +onlyGivenNames y15
  have k15 : Keeps S z y15 := by
    unfold y15
    apply keeps_State_tunEv (w := w.of)
    assumption
  clear_value y15
  apply keeps_State_announceKey (w := w.of)
  apply keeps_State_onOpen (w := w.of)
  assumption

theorem keeps_State_openCheck (a1 : State) (a2 : Nat) (h1 : Keeps S z a1) (w : Sub [.objs, .timers, .irq, .jour,
    .rates, .sent, .tunnels, .fabric, .scheds, .disps, .usb, .stor] S) : Keeps S z (State.openCheck a1 a2) := by
  unfold State.openCheck
  extract_lets +onlyGivenNames y1
  clear_value y1
  refine keeps_ite ?_ ?_
  · apply keeps_State_openTunnel (w := w.of)
    assumption
  · assumption

theorem keeps_State_offerSent (a1 : State) (a2 : Nat) (a3 : Cell) (h1 : Keeps S z a1) (w : Sub [.objs, .timers, .irq,
    .jour, .rates, .sent, .tunnels, .fabric, .scheds, .disps, .usb, .stor] S) : Keeps S z (State.offerSent a1 a2 a3)
    := by
  unfold State.offerSent
  refine keeps_ite ?_ ?_
  · apply keeps_State_openCheck (w := w.of)
    apply keeps_State_updTun (w := w.of)
    assumption
  · assumption

theorem keeps_State_tryStart (a1 : State) (a2 : Nat) (h1 : Keeps S z a1) (w : Sub [.objs, .timers, .irq, .jour,
    .rates, .sent, .tunnels, .fabric, .scheds, .disps, .usb, .stor] S) : Keeps S z (State.tryStart a1 a2) := by
  unfold State.tryStart
  refine keeps_ite ?_ ?_
  · refine keeps_ite ?_ ?_
    · apply keeps_State_openTunnel (w := w.of)
      assumption
    · apply keeps_State_negotiate (w := w.of)
      assumption
  · assumption

theorem keeps_State_leaveOff (a1 : State) (a2 : Nat) (h1 : Keeps S z a1) (w : Sub [.objs, .timers, .irq, .jour,
    .rates, .sent, .tunnels, .fabric, .scheds, .disps, .usb, .stor] S) : Keeps S z (State.leaveOff a1 a2) := by
  unfold State.leaveOff
  extract_lets +onlyGivenNames y1
  clear_value y1
  refine keeps_ite ?_ ?_
  · apply keeps_State_tryStart (w := w.of)
    apply keeps_State_set (w := w.of)
    apply keeps_State_latchCfg (w := w.of)
    assumption
  · assumption

theorem keeps_State_toOff (a1 : State) (a2 : Nat) (h1 : Keeps S z a1) (w : Sub [.objs, .freeCount, .timers, .irq,
    .jour, .rates, .sent, .tunnels, .fabric, .scheds, .disps, .usb, .stor, .fld] S) : Keeps S z (State.toOff a1 a2) :=
    by
  unfold State.toOff
  extract_lets +onlyGivenNames y1
  clear_value y1
  extract_lets +onlyGivenNames y2
  clear_value y2
  extract_lets +onlyGivenNames y3
  have k3 : Keeps S z y3 := by
    unfold y3
    apply keeps_State_set (w := w.of)
    apply keeps_State_stopAll (w := w.of)
    apply keeps_State_creditGone (w := w.of)
    assumption
  clear_value y3
  extract_lets +onlyGivenNames y4
  have k4 : Keeps S z y4 := by
    unfold y4
    refine keeps_ite ?_ ?_
    · apply keeps_State_onClose (w := w.of)
      assumption
    · assumption
  clear_value y4
  extract_lets +onlyGivenNames y5
  have k5 : Keeps S z y5 := by
    unfold y5
    apply keeps_State_showTwin (w := w.of)
    apply keeps_State_updTun (w := w.of)
    assumption
  clear_value y5
  extract_lets +onlyGivenNames y6
  have k6 : Keeps S z y6 := by
    unfold y6
    refine keeps_ite ?_ ?_
    · apply keeps_State_cmdCommit (w := w.of)
      assumption
    · assumption
  clear_value y6
  apply keeps_State_leaveOff (w := w.of)
  assumption

theorem keeps_State_drainDiscard (a1 : State) (a2 : Nat) (h1 : Keeps S z a1) (w : Sub [.objs, .timers, .tunnels,
    .fabric] S) : Keeps S z (State.drainDiscard a1 a2) := by
  unfold State.drainDiscard
  split
  apply keeps_State_updTun (w := w.of)
  apply keeps_State_count (w := w.of)
  refine keeps_pair (by assumption) ?_
  apply keeps_State_discardTunnel (w := w.of)
  assumption

theorem keeps_State_toWaiting (a1 : State) (a2 : Nat) (h1 : Keeps S z a1) (w : Sub [.objs, .tunnels, .scheds] S) :
    Keeps S z (State.toWaiting a1 a2) := by
  unfold State.toWaiting
  apply keeps_State_showTwin (w := w.of)
  apply keeps_State_set (w := w.of)
  apply keeps_State_updTun (w := w.of)
  apply keeps_State_creditGone (w := w.of)
  assumption

theorem keeps_State_drainDone (a1 : State) (a2 : Nat) (h1 : Keeps S z a1) (w : Sub [.objs, .freeCount, .timers, .irq,
    .jour, .rates, .sent, .tunnels, .fabric, .scheds, .disps, .usb, .stor, .fld] S) : Keeps S z (State.drainDone a1
    a2) := by
  unfold State.drainDone
  extract_lets +onlyGivenNames y1
  clear_value y1
  extract_lets +onlyGivenNames y2
  have k2 : Keeps S z y2 := by
    unfold y2
    apply keeps_State_stop (w := w.of)
    assumption
  clear_value y2
  refine keeps_ite ?_ ?_
  · extract_lets +onlyGivenNames y3
    have k3 : Keeps S z y3 := by
      unfold y3
      apply keeps_State_toWaiting (w := w.of)
      assumption
    clear_value y3
    refine keeps_ite ?_ ?_
    · assumption
    · refine keeps_ite ?_ ?_
      · apply keeps_State_openTunnel (w := w.of)
        assumption
      · apply keeps_State_negotiate (w := w.of)
        assumption
  · apply keeps_State_toOff (w := w.of)
    apply keeps_State_tunEv (w := w.of)
    assumption

theorem keeps_State_drainCheck (a1 : State) (a2 : Nat) (h1 : Keeps S z a1) (w : Sub [.objs, .freeCount, .timers, .irq,
    .jour, .rates, .sent, .tunnels, .fabric, .scheds, .disps, .usb, .stor, .fld] S) : Keeps S z (State.drainCheck a1
    a2) := by
  unfold State.drainCheck
  extract_lets +onlyGivenNames y1
  clear_value y1
  refine keeps_ite ?_ ?_
  · apply keeps_State_drainDone (w := w.of)
    assumption
  · assumption

theorem keeps_State_drain (a1 : State) (a2 : Nat) (a3 : Nat) (a4 : Bool) (h1 : Keeps S z a1) (w : Sub [.objs,
    .freeCount, .timers, .irq, .jour, .rates, .sent, .tunnels, .fabric, .disps, .usb, .stor, .fld] S) : Keeps S z
    (State.drain a1 a2 a3 a4) := by
  unfold State.drain
  extract_lets +onlyGivenNames y1
  have k1 : Keeps S z y1 := by
    unfold y1
    apply keeps_State_updTun (w := w.of)
    assumption
  clear_value y1
  apply keeps_State_onClose (w := w.of)
  apply keeps_State_start (w := w.of)
  apply keeps_State_set (w := w.of)
  apply keeps_State_stop (w := w.of)
  assumption

theorem keeps_State_shut (a1 : State) (a2 : Nat) (a3 : Nat) (h1 : Keeps S z a1) (w : Sub [.objs, .freeCount, .timers,
    .irq, .jour, .rates, .sent, .tunnels, .fabric, .scheds, .disps, .usb, .stor, .fld] S) : Keeps S z (State.shut a1
    a2 a3) := by
  unfold State.shut
  refine keeps_ite ?_ ?_
  · apply keeps_State_drain (w := w.of)
    assumption
  · refine keeps_ite ?_ ?_
    · apply keeps_State_updTun (w := w.of)
      assumption
    · refine keeps_ite ?_ ?_
      · apply keeps_State_toOff (w := w.of)
        apply keeps_State_sendClose (w := w.of)
        assumption
      · refine keeps_ite ?_ ?_
        · assumption
        · apply keeps_State_toOff (w := w.of)
          assumption

theorem keeps_State_pathLost (a1 : State) (a2 : Nat) (h1 : Keeps S z a1) (w : Sub [.objs, .freeCount, .timers, .irq,
    .jour, .rates, .sent, .tunnels, .fabric, .scheds, .disps, .usb, .stor, .fld] S) : Keeps S z (State.pathLost a1 a2)
    := by
  unfold State.pathLost
  refine keeps_ite ?_ ?_
  · extract_lets +onlyGivenNames y1
    clear_value y1
    extract_lets +onlyGivenNames y2
    clear_value y2
    extract_lets +onlyGivenNames y3
    have k3 : Keeps S z y3 := by
      unfold y3
      apply keeps_State_count (w := w.of)
      apply keeps_State_drainDiscard (w := w.of)
      assumption
    clear_value y3
    extract_lets +onlyGivenNames y4
    have k4 : Keeps S z y4 := by
      unfold y4
      apply keeps_State_tunEv (w := w.of)
      assumption
    clear_value y4
    apply keeps_State_toWaiting (w := w.of)
    apply keeps_State_stopAll (w := w.of)
    apply keeps_State_onClose (w := w.of)
    assumption
  · refine keeps_ite ?_ ?_
    · extract_lets +onlyGivenNames y5
      have k5 : Keeps S z y5 := by
        unfold y5
        apply keeps_State_stop (w := w.of)
        apply keeps_State_drainDiscard (w := w.of)
        assumption
      clear_value y5
      refine keeps_ite ?_ ?_
      · apply keeps_State_toWaiting (w := w.of)
        assumption
      · apply keeps_State_toOff (w := w.of)
        assumption
    · refine keeps_ite ?_ ?_
      · apply keeps_State_toWaiting (w := w.of)
        apply keeps_State_stopAll (w := w.of)
        assumption
      · assumption

theorem keeps_State_sideDown (a1 : State) (a2 : Nat) (a3 : Nat) (a4 : Nat) (h1 : Keeps S z a1) (w : Sub [.objs,
    .freeCount, .timers, .irq, .jour, .rates, .sent, .tunnels, .fabric, .scheds, .disps, .usb, .stor, .fld] S) : Keeps
    S z (State.sideDown a1 a2 a3 a4) := by
  unfold State.sideDown
  extract_lets +onlyGivenNames y1
  have k1 : Keeps S z y1 := by
    unfold y1
    apply keeps_State_setCond (w := w.of)
    assumption
  clear_value y1
  refine keeps_ite ?_ ?_
  · assumption
  · apply keeps_State_pathLost (w := w.of)
    assumption

theorem keeps_State_tunnelsDown (a1 : State) (a2 : Nat) (h1 : Keeps S z a1) (w : Sub [.objs, .freeCount, .timers,
    .irq, .jour, .rates, .sent, .tunnels, .fabric, .scheds, .disps, .usb, .stor, .fld] S) : Keeps S z
    (State.tunnelsDown a1 a2) := by
  unfold State.tunnelsDown
  apply keeps_forAll
  · intro x1
    intro x2
    intro k3
    refine keeps_ite ?_ ?_
    · assumption
    · extract_lets +onlyGivenNames y4
      have k4 : Keeps S z y4 := by
        unfold y4
        refine keeps_ite ?_ ?_
        · apply keeps_State_sideDown (w := w.of)
          assumption
        · assumption
      clear_value y4
      extract_lets +onlyGivenNames y5
      have k5 : Keeps S z y5 := by
        unfold y5
        refine keeps_ite ?_ ?_
        · assumption
        · apply keeps_State_pathLost (w := w.of)
          assumption
      clear_value y5
      apply keeps_State_tryStart (w := w.of)
      assumption
  · assumption

theorem keeps_State_sideBad (a1 : State) (a2 : Nat) (a3 : Nat) (h1 : Keeps S z a1) (w : Sub [.objs, .freeCount,
    .timers, .irq, .jour, .rates, .sent, .tunnels, .fabric, .scheds, .disps, .usb, .stor, .fld] S) : Keeps S z
    (State.sideBad a1 a2 a3) := by
  unfold State.sideBad
  refine keeps_ite ?_ ?_
  · refine keeps_ite ?_ ?_
    · apply keeps_State_tunEv (w := w.of)
      assumption
    · apply keeps_State_sideDown (w := w.of)
      assumption
  · assumption

theorem keeps_State_tunnelsUp (a1 : State) (a2 : Nat) (h1 : Keeps S z a1) (w : Sub [.objs, .freeCount, .timers, .irq,
    .jour, .rates, .sent, .tunnels, .fabric, .scheds, .disps, .usb, .stor, .fld] S) : Keeps S z (State.tunnelsUp a1
    a2) := by
  unfold State.tunnelsUp
  apply keeps_forAll
  · intro x1
    intro x2
    intro k3
    refine keeps_ite ?_ ?_
    · assumption
    · refine keeps_ite ?_ ?_
      · apply keeps_State_tryStart (w := w.of)
        assumption
      · refine keeps_ite ?_ ?_
        · extract_lets +onlyGivenNames y4
          have k4 : Keeps S z y4 := by
            unfold y4
            refine keeps_ite ?_ ?_
            · apply keeps_State_setCond (w := w.of)
              assumption
            · assumption
          clear_value y4
          apply keeps_State_sideBad (w := w.of)
          apply keeps_State_sideBad (w := w.of)
          assumption
        · assumption
  · assumption

theorem keeps_State_drainTrunk (a1 : State) (a2 : Nat) (h1 : Keeps S z a1) (w : Sub [.objs, .freeCount, .timers, .irq,
    .jour, .rates, .sent, .tunnels, .fabric, .disps, .usb, .stor, .fld] S) : Keeps S z (State.drainTrunk a1 a2) := by
  unfold State.drainTrunk
  apply keeps_forAll
  · intro x1
    intro x2
    intro k3
    refine keeps_ite ?_ ?_
    · apply keeps_State_drain (w := w.of)
      assumption
    · assumption
  · assumption

theorem keeps_State_schedRate (a1 : State) (a2 : Nat) (a3 : Nat) (a4 : Nat) (a5 : Nat) (a6 : Nat) (a7 : Bytes) (a8 :
    List Nat) (h1 : Keeps S z a1) (w : Sub [.irq, .jour, .rates] S) : Keeps S z (State.schedRate a1 a2 a3 a4 a5 a6 a7
    a8) := by
  unfold State.schedRate
  apply keeps_State_evRate (w := w.of)
  assumption

theorem keeps_State_renderTable (a1 : State) (a2 : Nat) (h1 : Keeps S z a1) (w : Sub [.objs, .irq, .jour, .rates,
    .scheds] S) : Keeps S z (State.renderTable a1 a2) := by
  unfold State.renderTable
  split
  extract_lets +onlyGivenNames y1
  have k1 : Keeps S z y1 := by
    unfold y1
    apply keeps_State_updSched (w := w.of)
    assumption
  clear_value y1
  extract_lets +onlyGivenNames y2
  have k2 : Keeps S z y2 := by
    unfold y2
    apply keeps_State_setAll (w := w.of)
    assumption
  clear_value y2
  extract_lets +onlyGivenNames y3
  have k3 : Keeps S z y3 := by
    unfold y3
    apply keeps_State_set (w := w.of)
    assumption
  clear_value y3
  refine keeps_ite ?_ ?_
  · assumption
  · apply keeps_State_schedRate (w := w.of)
    assumption

theorem keeps_State_activate (a1 : State) (a2 : Nat) (a3 : List Nat) (a4 : Nat) (h1 : Keeps S z a1) (w : Sub [.objs,
    .irq, .jour, .rates] S) : Keeps S z (State.activate a1 a2 a3 a4) := by
  unfold State.activate
  extract_lets +onlyGivenNames y1
  clear_value y1
  extract_lets +onlyGivenNames y2
  have k2 : Keeps S z y2 := by
    unfold y2
    apply keeps_forAll
    · intro x3
      intro x4
      intro k5
      apply keeps_State_set (w := w.of)
      assumption
    · assumption
  clear_value y2
  extract_lets +onlyGivenNames y6
  have k6 : Keeps S z y6 := by
    unfold y6
    apply keeps_State_set (w := w.of)
    assumption
  clear_value y6
  apply keeps_State_schedRate (w := w.of)
  assumption

theorem keeps_State_noSwitch (a1 : State) (a2 : Nat) (h1 : Keeps S z a1) (w : Sub [.objs, .scheds] S) : Keeps S z
    (State.noSwitch a1 a2) := by
  unfold State.noSwitch
  extract_lets +onlyGivenNames y1
  have k1 : Keeps S z y1 := by
    unfold y1
    apply keeps_State_updSched (w := w.of)
    assumption
  clear_value y1
  apply keeps_State_set (w := w.of)
  assumption

theorem keeps_State_switchFails (a1 : State) (a2 : Nat) (a3 : Nat) (h1 : Keeps S z a1) (w : Sub [.objs, .irq, .jour,
    .rates, .scheds] S) : Keeps S z (State.switchFails a1 a2 a3) := by
  unfold State.switchFails
  apply keeps_State_schedRate (w := w.of)
  apply keeps_State_cmdFail (w := w.of)
  apply keeps_State_noSwitch (w := w.of)
  assumption

theorem keeps_State_schedUp (a1 : State) (a2 : Nat) (h1 : Keeps S z a1) (w : Sub [.objs, .irq, .jour, .rates, .scheds]
    S) : Keeps S z (State.schedUp a1 a2) := by
  unfold State.schedUp
  extract_lets +onlyGivenNames y1
  clear_value y1
  extract_lets +onlyGivenNames y2
  clear_value y2
  extract_lets +onlyGivenNames y3
  have k3 : Keeps S z y3 := by
    unfold y3
    refine keeps_ite ?_ ?_
    · apply keeps_State_activate (w := w.of)
      assumption
    · assumption
  clear_value y3
  extract_lets +onlyGivenNames y4
  have k4 : Keeps S z y4 := by
    unfold y4
    apply keeps_State_updSched (w := w.of)
    assumption
  clear_value y4
  apply keeps_State_renderTable (w := w.of)
  apply keeps_State_setAll (w := w.of)
  assumption

theorem keeps_State_schedDown (a1 : State) (a2 : Nat) (h1 : Keeps S z a1) (w : Sub [.objs, .irq, .jour, .rates,
    .tunnels, .scheds] S) : Keeps S z (State.schedDown a1 a2) := by
  unfold State.schedDown
  extract_lets +onlyGivenNames y1
  clear_value y1
  extract_lets +onlyGivenNames y2
  have k2 : Keeps S z y2 := by
    unfold y2
    apply keeps_State_updSched (w := w.of)
    assumption
  clear_value y2
  extract_lets +onlyGivenNames y3
  have k3 : Keeps S z y3 := by
    unfold y3
    apply keeps_forAll
    · intro x4
      intro x5
      intro k6
      apply keeps_State_updShaper (w := w.of)
      assumption
    · assumption
  clear_value y3
  extract_lets +onlyGivenNames y7
  have k7 : Keeps S z y7 := by
    unfold y7
    apply keeps_forAll
    · intro x8
      intro x9
      intro k10
      apply keeps_State_updTun (w := w.of)
      assumption
    · assumption
  clear_value y7
  refine keeps_ite ?_ ?_
  · refine keeps_ite ?_ ?_
    · assumption
    · apply keeps_State_switchFails (w := w.of)
      assumption
  · assumption

theorem keeps_State_gateMarker (a1 : State) (a2 : Nat) (a3 : Nat) (a4 : Nat) (a5 : Nat) (h1 : Keeps S z a1) (w : Sub
    [.objs, .scheds] S) : Keeps S z (State.gateMarker a1 a2 a3 a4 a5) := by
  unfold State.gateMarker
  extract_lets +onlyGivenNames y1
  clear_value y1
  extract_lets +onlyGivenNames y2
  have k2 : Keeps S z y2 := by
    unfold y2
    apply keeps_State_set (w := w.of)
    assumption
  clear_value y2
  extract_lets +onlyGivenNames y3
  clear_value y3
  extract_lets +onlyGivenNames y4
  clear_value y4
  extract_lets +onlyGivenNames y5
  have k5 : Keeps S z y5 := by
    unfold y5
    apply keeps_State_updSched (w := w.of)
    assumption
  clear_value y5
  refine keeps_ite ?_ ?_
  · assumption
  · apply keeps_State_set (w := w.of)
    assumption

theorem keeps_State_correct (a1 : State) (a2 : Nat) (a3 : Int) (h1 : Keeps S z a1) (w : Sub [.objs, .irq, .jour,
    .rates, .scheds] S) : Keeps S z (State.correct a1 a2 a3) := by
  unfold State.correct
  extract_lets +onlyGivenNames y1
  clear_value y1
  refine keeps_ite ?_ ?_
  · assumption
  · extract_lets +onlyGivenNames y2
    clear_value y2
    extract_lets +onlyGivenNames y3
    clear_value y3
    extract_lets +onlyGivenNames y4
    clear_value y4
    extract_lets +onlyGivenNames y5
    clear_value y5
    extract_lets +onlyGivenNames y6
    have k6 : Keeps S z y6 := by
      unfold y6
      apply keeps_State_updSched (w := w.of)
      assumption
    clear_value y6
    extract_lets +onlyGivenNames y7
    have k7 : Keeps S z y7 := by
      unfold y7
      apply keeps_State_set (w := w.of)
      assumption
    clear_value y7
    refine keeps_ite ?_ ?_
    · apply keeps_State_schedRate (w := w.of)
      assumption
    · assumption

theorem keeps_State_refillOne (a1 : State) (a2 : Nat) (a3 : Nat) (h1 : Keeps S z a1) (w : Sub [.scheds] S) : Keeps S z
    (State.refillOne a1 a2 a3) := by
  unfold State.refillOne
  extract_lets +onlyGivenNames y1
  clear_value y1
  extract_lets +onlyGivenNames y2
  clear_value y2
  apply keeps_State_updShaper (w := w.of)
  assumption

theorem keeps_State_overbooked (a1 : State) (a2 : Nat) (a3 : Nat) (h1 : Keeps S z a1) (w : Sub [.irq, .jour, .rates]
    S) : Keeps S z (State.overbooked a1 a2 a3) := by
  unfold State.overbooked
  extract_lets +onlyGivenNames y1
  clear_value y1
  extract_lets +onlyGivenNames y2
  clear_value y2
  refine keeps_ite ?_ ?_
  · apply keeps_State_schedRate (w := w.of)
    assumption
  · assumption

theorem keeps_State_refill (a1 : State) (a2 : Nat) (h1 : Keeps S z a1) (w : Sub [.irq, .jour, .rates, .scheds] S) :
    Keeps S z (State.refill a1 a2) := by
  unfold State.refill
  extract_lets +onlyGivenNames y1
  have k1 : Keeps S z y1 := by
    unfold y1
    apply keeps_forAll
    · intro x2
      intro x3
      intro k4
      apply keeps_State_refillOne (w := w.of)
      assumption
    · assumption
  clear_value y1
  apply keeps_forAll
  · intro x5
    intro x6
    intro k7
    apply keeps_State_overbooked (w := w.of)
    assumption
  · assumption

theorem keeps_State_switchAt (a1 : State) (a2 : Nat) (h1 : Keeps S z a1) (w : Sub [.objs, .irq, .jour, .rates,
    .scheds] S) : Keeps S z (State.switchAt a1 a2) := by
  unfold State.switchAt
  extract_lets +onlyGivenNames y1
  clear_value y1
  refine keeps_ite ?_ ?_
  · assumption
  · extract_lets +onlyGivenNames y2
    clear_value y2
    extract_lets +onlyGivenNames y3
    have k3 : Keeps S z y3 := by
      unfold y3
      apply keeps_State_updSched (w := w.of)
      assumption
    clear_value y3
    refine keeps_ite ?_ ?_
    · assumption
    · extract_lets +onlyGivenNames y4
      have k4 : Keeps S z y4 := by
        unfold y4
        apply keeps_State_renderTable (w := w.of)
        apply keeps_State_activate (w := w.of)
        assumption
      clear_value y4
      refine keeps_ite ?_ ?_
      · apply keeps_State_cmdCommit (w := w.of)
        assumption
      · assumption

theorem keeps_State_tailHead (a1 : State) (a2 : Nat) (a3 : Nat) (h1 : Keeps S z a1) (w : Sub [.tunnels, .scheds] S) :
    Keeps S z (State.tailHead a1 a2 a3) := by
  unfold State.tailHead
  extract_lets +onlyGivenNames y1
  clear_value y1
  extract_lets +onlyGivenNames y2
  clear_value y2
  extract_lets +onlyGivenNames y3
  clear_value y3
  extract_lets +onlyGivenNames y4
  have k4 : Keeps S z y4 := by
    unfold y4
    apply keeps_State_updTun (w := w.of)
    assumption
  clear_value y4
  refine keeps_ite ?_ ?_
  · apply keeps_State_updShaper (w := w.of)
    assumption
  · assumption

theorem keeps_State_tailsDue (a1 : State) (a2 : Nat) (h1 : Keeps S z a1) (w : Sub [.tunnels, .scheds] S) : Keeps S z
    (State.tailsDue a1 a2) := by
  unfold State.tailsDue
  extract_lets +onlyGivenNames y1
  clear_value y1
  apply keeps_forAll
  · intro x2
    intro x3
    intro k4
    refine keeps_ite ?_ ?_
    · assumption
    · refine keeps_ite ?_ ?_
      · apply keeps_State_tailHead (w := w.of)
        assumption
      · assumption
  · assumption

theorem keeps_State_releaseIdle (a1 : State) (a2 : Nat) (h1 : Keeps S z a1) (w : Sub [.sent, .trunks, .pl] S) : Keeps
    S z (State.releaseIdle a1 a2) := by
  unfold State.releaseIdle
  split
  extract_lets +onlyGivenNames y1
  clear_value y1
  extract_lets +onlyGivenNames y2
  have k2 : Keeps S z y2 := by
    unfold y2
    apply keeps_State_updTrunk (w := w.of)
    assumption
  clear_value y2
  refine keeps_ite ?_ ?_
  · assumption
  · apply keeps_State_putIdle (w := w.of)
    assumption

theorem keeps_State_startCycle (a1 : State) (a2 : Nat) (h1 : Keeps S z a1) (w : Sub [.objs, .irq, .jour, .rates,
    .sent, .trunks, .tunnels, .scheds, .pl] S) : Keeps S z (State.startCycle a1 a2) := by
  unfold State.startCycle
  extract_lets +onlyGivenNames y1
  clear_value y1
  extract_lets +onlyGivenNames y2
  have k2 : Keeps S z y2 := by
    unfold y2
    apply keeps_State_flushCycle (w := w.of)
    assumption
  clear_value y2
  extract_lets +onlyGivenNames y3
  have k3 : Keeps S z y3 := by
    unfold y3
    refine keeps_ite ?_ ?_
    · apply keeps_State_updTrunk (w := w.of)
      assumption
    · apply keeps_State_releaseIdle (w := w.of)
      assumption
  clear_value y3
  extract_lets +onlyGivenNames y4
  have k4 : Keeps S z y4 := by
    unfold y4
    apply keeps_State_updTrunk (w := w.of)
    assumption
  clear_value y4
  extract_lets +onlyGivenNames y5
  have k5 : Keeps S z y5 := by
    unfold y5
    apply keeps_State_set (w := w.of)
    assumption
  clear_value y5
  extract_lets +onlyGivenNames y6
  have k6 : Keeps S z y6 := by
    unfold y6
    apply keeps_State_tailsDue (w := w.of)
    apply keeps_State_switchAt (w := w.of)
    assumption
  clear_value y6
  extract_lets +onlyGivenNames y7
  clear_value y7
  extract_lets +onlyGivenNames y8
  clear_value y8
  extract_lets +onlyGivenNames y9
  clear_value y9
  extract_lets +onlyGivenNames y10
  clear_value y10
  extract_lets +onlyGivenNames y11
  clear_value y11
  extract_lets +onlyGivenNames y12
  have k12 : Keeps S z y12 := by
    unfold y12
    apply keeps_State_updSched (w := w.of)
    assumption
  clear_value y12
  extract_lets +onlyGivenNames y13
  have k13 : Keeps S z y13 := by
    unfold y13
    apply keeps_State_setAll (w := w.of)
    assumption
  clear_value y13
  apply keeps_State_dueMarker (w := w.of)
  apply keeps_State_refill (w := w.of)
  assumption

theorem keeps_State_endCycle (a1 : State) (a2 : Nat) (h1 : Keeps S z a1) (w : Sub [.objs, .irq, .jour, .rates, .sent,
    .scheds, .safety] S) : Keeps S z (State.endCycle a1 a2) := by
  unfold State.endCycle
  extract_lets +onlyGivenNames y1
  clear_value y1
  extract_lets +onlyGivenNames y2
  clear_value y2
  extract_lets +onlyGivenNames y3
  clear_value y3
  extract_lets +onlyGivenNames y4
  have k4 : Keeps S z y4 := by
    unfold y4
    apply keeps_State_updSched (w := w.of)
    assumption
  clear_value y4
  extract_lets +onlyGivenNames y5
  have k5 : Keeps S z y5 := by
    unfold y5
    refine keeps_ite ?_ ?_
    · assumption
    · apply keeps_State_count (w := w.of)
      assumption
  clear_value y5
  extract_lets +onlyGivenNames y6
  have k6 : Keeps S z y6 := by
    unfold y6
    refine keeps_ite ?_ ?_
    · assumption
    · apply keeps_State_count (w := w.of)
      assumption
  clear_value y6
  extract_lets +onlyGivenNames y7
  have k7 : Keeps S z y7 := by
    unfold y7
    refine keeps_ite ?_ ?_
    · assumption
    · apply keeps_State_schedRate (w := w.of)
      assumption
  clear_value y7
  refine keeps_ite ?_ ?_
  · assumption
  · apply keeps_State_latchSf (w := w.of)
    apply keeps_State_dangerRate (w := w.of)
    assumption

theorem keeps_State_sealOnce (a1 : State) (a2 : Nat) (a3 : Nat) (a4 : Option Nat) (a5 : Cell) (h1 : Keeps S z a1) (w :
    Sub [.fabric] S) : Keeps S z (State.sealOnce a1 a2 a3 a4 a5).2 := by
  unfold State.sealOnce
  split
  · dsimp only
    assumption
  · extract_lets +onlyGivenNames y1
    clear_value y1
    dsimp only
    split
    · apply keeps_State_updBuf (w := w.of)
      assumption
    · assumption

theorem keeps_State_sequence (a1 : State) (a2 : Nat) (a3 : Nat) (a4 : Desc) (h1 : Keeps S z a1) (w : Sub [.objs,
    .tunnels, .fabric] S) : Keeps S z (State.sequence a1 a2 a3 a4).2 := by
  unfold State.sequence
  split
  · dsimp only
    apply keeps_State_updTun (w := w.of)
    assumption
  · split
    · dsimp only
      assumption
    · split
      · dsimp only
        apply keeps_State_count (w := w.of)
        assumption
      · extract_lets +onlyGivenNames y1
        clear_value y1
        split
        · dsimp only
          assumption
        · extract_lets +onlyGivenNames y2
          clear_value y2
          split
          · dsimp only
            apply keeps_State_count (w := w.of)
            assumption
          · extract_lets +onlyGivenNames y3
            clear_value y3
            extract_lets +onlyGivenNames y4
            have k4 : Keeps S z y4 := by
              unfold y4
              refine keeps_ite ?_ ?_
              · apply keeps_State_countWrap (w := w.of)
                assumption
              · assumption
            clear_value y4
            extract_lets +onlyGivenNames y5
            have k5 : Keeps S z y5 := by
              unfold y5
              split
              · apply keeps_State_updBuf (w := w.of)
                assumption
              · assumption
            clear_value y5
            dsimp only
            apply keeps_State_count (w := w.of)
            assumption

theorem keeps_State_lineCell (a1 : State) (a2 : Nat) (a3 : Cell) (h1 : Keeps S z a1) (w : Sub [.objs, .sent, .trunks,
    .pl] S) : Keeps S z (State.lineCell a1 a2 a3) := by
  unfold State.lineCell
  extract_lets +onlyGivenNames y1
  have k1 : Keeps S z y1 := by
    unfold y1
    apply keeps_State_updTrunk (w := w.of)
    assumption
  clear_value y1
  apply keeps_State_putCell (w := w.of)
  apply keeps_State_send (w := w.of)
  apply keeps_State_count (w := w.of)
  assumption

theorem keeps_State_nextHead (a1 : State) (a2 : Nat) (a3 : Nat) (a4 : Nat) (a5 : Nat) (h1 : Keeps S z a1) (w : Sub
    [.scheds] S) : Keeps S z (State.nextHead a1 a2 a3 a4 a5) := by
  unfold State.nextHead
  extract_lets +onlyGivenNames y1
  have k1 : Keeps S z y1 := by
    unfold y1
    apply keeps_State_updSched (w := w.of)
    assumption
  clear_value y1
  extract_lets +onlyGivenNames y2
  clear_value y2
  apply keeps_State_updShaper (w := w.of)
  assumption

theorem keeps_State_eccDiscard (a1 : State) (a2 : Nat) (a3 : Nat) (a4 : Desc) (h1 : Keeps S z a1) (w : Sub [.objs,
    .timers, .irq, .jour, .rates, .sent, .fabric, .safety] S) : Keeps S z (State.eccDiscard a1 a2 a3 a4) := by
  unfold State.eccDiscard
  extract_lets +onlyGivenNames y1
  have k1 : Keeps S z y1 := by
    unfold y1
    apply keeps_State_count (w := w.of)
    assumption
  clear_value y1
  extract_lets +onlyGivenNames y2
  have k2 : Keeps S z y2 := by
    unfold y2
    apply keeps_State_ev (w := w.of)
    apply keeps_State_memBad (w := w.of)
    assumption
  clear_value y2
  refine keeps_ite ?_ ?_
  · assumption
  · extract_lets +onlyGivenNames y3
    clear_value y3
    refine keeps_ite ?_ ?_
    · apply keeps_State_tailEv (w := w.of)
      apply keeps_State_updQueue (w := w.of)
      assumption
    · split
      extract_lets +onlyGivenNames y4
      have k4 : Keeps S z y4 := by
        unfold y4
        apply keeps_State_withdraw (w := w.of)
        assumption
      clear_value y4
      extract_lets +onlyGivenNames y5
      have k5 : Keeps S z y5 := by
        unfold y5
        apply keeps_State_updQueue (w := w.of)
        assumption
      clear_value y5
      extract_lets +onlyGivenNames y6
      have k6 : Keeps S z y6 := by
        unfold y6
        refine keeps_ite ?_ ?_
        · assumption
        · apply keeps_State_setUnit (w := w.of)
          assumption
      clear_value y6
      apply keeps_State_tailEv (w := w.of)
      assumption

theorem keeps_State_sendHead (a1 : State) (a2 : Nat) (a3 : Nat) (a4 : Nat) (h1 : Keeps S z a1) (w : Sub [.objs,
    .freeCount, .timers, .irq, .jour, .rates, .sent, .trunks, .tunnels, .fabric, .scheds, .disps, .usb, .pl, .stor,
    .fld, .safety] S) : Keeps S z (State.sendHead a1 a2 a3 a4) := by
  unfold State.sendHead
  extract_lets +onlyGivenNames y1
  clear_value y1
  extract_lets +onlyGivenNames y2
  clear_value y2
  split
  · assumption
  · extract_lets +onlyGivenNames y3
    clear_value y3
    extract_lets +onlyGivenNames y4
    clear_value y4
    split
    extract_lets +onlyGivenNames y5
    clear_value y5
    extract_lets +onlyGivenNames y6
    clear_value y6
    extract_lets +onlyGivenNames y7
    clear_value y7
    extract_lets +onlyGivenNames y8
    clear_value y8
    extract_lets +onlyGivenNames y9
    clear_value y9
    split
    extract_lets +onlyGivenNames y10
    have k10 : Keeps S z y10 := by
      unfold y10
      apply keeps_State_release (w := w.of)
      refine keeps_pair (by assumption) ?_
      split
      · apply keeps_State_sealOnce (w := w.of)
        refine keeps_pair (by assumption) ?_
        split
        · apply keeps_State_sequence (w := w.of)
          assumption
        · dsimp only
          assumption
      · dsimp only
        refine keeps_pair (by assumption) ?_
        split
        · apply keeps_State_sequence (w := w.of)
          assumption
        · dsimp only
          assumption
    clear_value y10
    extract_lets +onlyGivenNames y11
    have k11 : Keeps S z y11 := by
      unfold y11
      refine keeps_ite ?_ ?_
      · apply keeps_State_memCorrected (w := w.of)
        assumption
      · assumption
    clear_value y11
    refine keeps_ite ?_ ?_
    · apply keeps_State_nextHead (w := w.of)
      apply keeps_State_eccDiscard (w := w.of)
      assumption
    · extract_lets +onlyGivenNames y12
      have k12 : Keeps S z y12 := by
        unfold y12
        refine keeps_ite ?_ ?_
        · apply keeps_State_count (w := w.of)
          assumption
        · assumption
      clear_value y12
      extract_lets +onlyGivenNames y13
      have k13 : Keeps S z y13 := by
        unfold y13
        refine keeps_ite ?_ ?_
        · refine keeps_ite ?_ ?_
          · assumption
          · apply keeps_State_count (w := w.of)
            assumption
        · assumption
      clear_value y13
      extract_lets +onlyGivenNames y14
      have k14 : Keeps S z y14 := by
        unfold y14
        apply keeps_State_updTun (w := w.of)
        assumption
      clear_value y14
      extract_lets +onlyGivenNames y15
      have k15 : Keeps S z y15 := by
        unfold y15
        apply keeps_State_nextHead (w := w.of)
        apply keeps_State_lineCell (w := w.of)
        apply keeps_State_updShaper (w := w.of)
        assumption
      clear_value y15
      extract_lets +onlyGivenNames y16
      have k16 : Keeps S z y16 := by
        unfold y16
        refine keeps_ite ?_ ?_
        · apply keeps_State_offerSent (w := w.of)
          assumption
        · assumption
      clear_value y16
      refine keeps_ite ?_ ?_
      · apply keeps_State_drainCheck (w := w.of)
        apply keeps_State_updTun (w := w.of)
        assumption
      · assumption

theorem keeps_State_sendTail (a1 : State) (a2 : Nat) (a3 : Nat) (h1 : Keeps S z a1) (w : Sub [.objs, .sent, .trunks,
    .tunnels, .scheds, .pl] S) : Keeps S z (State.sendTail a1 a2 a3) := by
  unfold State.sendTail
  extract_lets +onlyGivenNames y1
  clear_value y1
  extract_lets +onlyGivenNames y2
  clear_value y2
  extract_lets +onlyGivenNames y3
  clear_value y3
  extract_lets +onlyGivenNames y4
  have k4 : Keeps S z y4 := by
    unfold y4
    apply keeps_State_lineCell (w := w.of)
    apply keeps_State_updTun (w := w.of)
    assumption
  clear_value y4
  apply keeps_State_updSched (w := w.of)
  assumption

theorem keeps_State_sendPick (a1 : State) (a2 : Nat) (a3 : Nat) (a4 : Nat) (h1 : Keeps S z a1) (w : Sub [.objs,
    .freeCount, .timers, .irq, .jour, .rates, .sent, .trunks, .tunnels, .fabric, .scheds, .disps, .usb, .pl, .stor,
    .fld, .safety] S) : Keeps S z (State.sendPick a1 a2 a3 a4) := by
  unfold State.sendPick
  refine keeps_ite ?_ ?_
  · apply keeps_State_sendTail (w := w.of)
    assumption
  · apply keeps_State_sendHead (w := w.of)
    assumption

theorem keeps_State_shape (a1 : State) (a2 : Nat) (a3 : Nat) (a4 : Option Nat) (h1 : Keeps S z a1) (w : Sub [.scheds]
    S) : Keeps S z (State.shape a1 a2 a3 a4) := by
  unfold State.shape
  apply keeps_forAll
  · intro x1
    intro x2
    intro k3
    extract_lets +onlyGivenNames y4
    clear_value y4
    apply keeps_State_updShaper (w := w.of)
    assumption
  · assumption

theorem keeps_State_mayWait (a1 : State) (a2 : Nat) (a3 : Nat) (a4 : Option Nat) (h1 : Keeps S z a1) (w : Sub [.objs,
    .fabric] S) : Keeps S z (State.mayWait a1 a2 a3 a4) := by
  unfold State.mayWait
  extract_lets +onlyGivenNames y1
  clear_value y1
  extract_lets +onlyGivenNames y2
  have k2 : Keeps S z y2 := by
    unfold y2
    apply keeps_forAll
    · intro x3
      intro x4
      intro k5
      refine keeps_ite ?_ ?_
      · apply keeps_State_count (w := w.of)
        assumption
      · assumption
    · assumption
  clear_value y2
  apply keeps_forAll
  · intro x6
    intro x7
    intro k8
    refine keeps_ite ?_ ?_
    · assumption
    · apply keeps_State_updQueue (w := w.of)
      assumption
  · assumption

theorem keeps_State_requestSent (a1 : State) (a2 : Nat) (h1 : Keeps S z a1) (w : Sub [.objs, .timers, .irq, .jour,
    .trunks] S) : Keeps S z (State.requestSent a1 a2) := by
  unfold State.requestSent
  refine keeps_ite ?_ ?_
  · extract_lets +onlyGivenNames y1
    clear_value y1
    extract_lets +onlyGivenNames y2
    have k2 : Keeps S z y2 := by
      unfold y2
      apply keeps_State_start (w := w.of)
      apply keeps_State_updTrunk (w := w.of)
      assumption
    clear_value y2
    refine keeps_ite ?_ ?_
    · apply keeps_State_cmdCommit (w := w.of)
      assumption
    · assumption
  · assumption

theorem keeps_State_sendControlCell (a1 : State) (a2 : Nat) (h1 : Keeps S z a1) (w : Sub [.objs, .timers, .irq, .jour,
    .sent, .trunks, .scheds, .pl] S) : Keeps S z (State.sendControlCell a1 a2) := by
  unfold State.sendControlCell
  extract_lets +onlyGivenNames y1
  clear_value y1
  extract_lets +onlyGivenNames y2
  clear_value y2
  extract_lets +onlyGivenNames y3
  clear_value y3
  extract_lets +onlyGivenNames y4
  have k4 : Keeps S z y4 := by
    unfold y4
    refine keeps_ite ?_ ?_
    · assumption
    · apply keeps_State_send (w := w.of)
      assumption
  clear_value y4
  extract_lets +onlyGivenNames y5
  have k5 : Keeps S z y5 := by
    unfold y5
    apply keeps_State_requestSent (w := w.of)
    apply keeps_State_updTrunk (w := w.of)
    apply keeps_State_putCell (w := w.of)
    assumption
  clear_value y5
  extract_lets +onlyGivenNames y6
  have k6 : Keeps S z y6 := by
    unfold y6
    apply keeps_State_updSched (w := w.of)
    assumption
  clear_value y6
  extract_lets +onlyGivenNames y7
  have k7 : Keeps S z y7 := by
    unfold y7
    refine keeps_ite ?_ ?_
    · apply keeps_State_updSched (w := w.of)
      assumption
    · assumption
  clear_value y7
  refine keeps_ite ?_ ?_
  · apply keeps_State_cmdCommit (w := w.of)
    assumption
  · assumption

theorem keeps_State_bestEffortTime (a1 : State) (a2 : Nat) (a3 : Nat) (a4 : Bool) (a5 : Bool) (h1 : Keeps S z a1) (w :
    Sub [.objs, .freeCount, .timers, .irq, .jour, .rates, .sent, .trunks, .tunnels, .fabric, .scheds, .disps, .usb,
    .pl, .stor, .fld, .safety] S) : Keeps S z (State.bestEffortTime a1 a2 a3 a4 a5) := by
  unfold State.bestEffortTime
  extract_lets +onlyGivenNames y1
  clear_value y1
  extract_lets +onlyGivenNames y2
  clear_value y2
  extract_lets +onlyGivenNames y3
  have k3 : Keeps S z y3 := by
    unfold y3
    apply keeps_State_updSched (w := w.of)
    assumption
  clear_value y3
  refine keeps_ite ?_ ?_
  · extract_lets +onlyGivenNames y4
    have k4 : Keeps S z y4 := by
      unfold y4
      apply keeps_State_sendControlCell (w := w.of)
      assumption
    clear_value y4
    refine keeps_ite ?_ ?_
    · apply keeps_forAll
      · intro x5
        intro x6
        intro k7
        apply keeps_State_shape (w := w.of)
        assumption
      · assumption
    · assumption
  · extract_lets +onlyGivenNames y8
    clear_value y8
    extract_lets +onlyGivenNames y9
    clear_value y9
    extract_lets +onlyGivenNames y10
    clear_value y10
    extract_lets +onlyGivenNames y11
    have k11 : Keeps S z y11 := by
      unfold y11
      apply keeps_forAll
      · intro x12
        intro x13
        intro k14
        refine keeps_ite ?_ ?_
        · assumption
        · apply keeps_State_mayWait (w := w.of)
          assumption
      · assumption
    clear_value y11
    extract_lets +onlyGivenNames y15
    have k15 : Keeps S z y15 := by
      unfold y15
      refine keeps_ite ?_ ?_
      · apply keeps_forAll
        · intro x16
          intro x17
          intro k18
          apply keeps_State_shape (w := w.of)
          assumption
        · assumption
      · split
        · apply keeps_State_updShaper (w := w.of)
          assumption
        · assumption
    clear_value y15
    split
    · extract_lets +onlyGivenNames y19
      have k19 : Keeps S z y19 := by
        unfold y19
        refine keeps_ite ?_ ?_
        · apply keeps_State_updSched (w := w.of)
          assumption
        · assumption
      clear_value y19
      extract_lets +onlyGivenNames y20
      have k20 : Keeps S z y20 := by
        unfold y20
        refine keeps_ite ?_ ?_
        · assumption
        · apply keeps_State_count (w := w.of)
          assumption
      clear_value y20
      apply keeps_State_sendPick (w := w.of)
      assumption
    · refine keeps_ite ?_ ?_
      · apply keeps_State_idleCell (w := w.of)
        assumption
      · apply keeps_State_sendControlCell (w := w.of)
        assumption

theorem keeps_State_cellTime (a1 : State) (a2 : Nat) (a3 : Nat) (h1 : Keeps S z a1) (w : Sub [.objs, .freeCount,
    .timers, .irq, .jour, .rates, .sent, .trunks, .tunnels, .fabric, .scheds, .disps, .usb, .pl, .stor, .fld, .safety]
    S) : Keeps S z (State.cellTime a1 a2 a3) := by
  unfold State.cellTime
  split
  · assumption
  · extract_lets +onlyGivenNames y1
    have k1 : Keeps S z y1 := by
      unfold y1
      apply keeps_State_updSched (w := w.of)
      assumption
    clear_value y1
    extract_lets +onlyGivenNames y2
    clear_value y2
    extract_lets +onlyGivenNames y3
    clear_value y3
    extract_lets +onlyGivenNames y4
    have k4 : Keeps S z y4 := by
      unfold y4
      apply keeps_State_shape (w := w.of)
      apply keeps_State_mayWait (w := w.of)
      assumption
    clear_value y4
    extract_lets +onlyGivenNames y5
    have k5 : Keeps S z y5 := by
      unfold y5
      refine keeps_ite ?_ ?_
      · apply keeps_State_sendControlCell (w := w.of)
        assumption
      · refine keeps_ite ?_ ?_
        · split
          · apply keeps_State_sendPick (w := w.of)
            assumption
          · apply keeps_State_bestEffortTime (w := w.of)
            assumption
        · apply keeps_State_bestEffortTime (w := w.of)
          assumption
    clear_value y5
    refine keeps_ite ?_ ?_
    · apply keeps_State_endCycle (w := w.of)
      assumption
    · assumption

theorem keeps_State_takeShare (a1 : State) (a2 : Nat) (a3 : Nat) (h1 : Keeps S z a1) (w : Sub [.scheds] S) : Keeps S z
    (State.takeShare a1 a2 a3) := by
  unfold State.takeShare
  extract_lets +onlyGivenNames y1
  clear_value y1
  split
  · extract_lets +onlyGivenNames y2
    clear_value y2
    apply keeps_State_updShaper (w := w.of)
    apply keeps_State_updShaper (w := w.of)
    assumption
  · apply keeps_State_updShaper (w := w.of)
    assumption

theorem keeps_State_carve (a1 : State) (a2 : Nat) (h1 : Keeps S z a1) (w : Sub [.objs, .irq, .jour, .rates, .scheds]
    S) : Keeps S z (State.carve a1 a2) := by
  unfold State.carve
  extract_lets +onlyGivenNames y1
  have k1 : Keeps S z y1 := by
    unfold y1
    apply keeps_State_updSched (w := w.of)
    assumption
  clear_value y1
  extract_lets +onlyGivenNames y2
  clear_value y2
  extract_lets +onlyGivenNames y3
  clear_value y3
  extract_lets +onlyGivenNames y4
  clear_value y4
  extract_lets +onlyGivenNames y5
  have k5 : Keeps S z y5 := by
    unfold y5
    apply keeps_State_set (w := w.of)
    apply keeps_State_count (w := w.of)
    assumption
  clear_value y5
  extract_lets +onlyGivenNames y6
  have k6 : Keeps S z y6 := by
    unfold y6
    apply keeps_forAll
    · intro x7
      intro x8
      intro k9
      extract_lets +onlyGivenNames y10
      clear_value y10
      refine keeps_ite ?_ ?_
      · apply keeps_State_count (w := w.of)
        assumption
      · assumption
    · assumption
  clear_value y6
  extract_lets +onlyGivenNames y11
  clear_value y11
  extract_lets +onlyGivenNames y12
  clear_value y12
  extract_lets +onlyGivenNames y13
  clear_value y13
  extract_lets +onlyGivenNames y14
  clear_value y14
  extract_lets +onlyGivenNames y15
  have k15 : Keeps S z y15 := by
    unfold y15
    apply keeps_forAll
    · intro x16
      intro x17
      intro k18
      refine keeps_ite ?_ ?_
      · apply keeps_State_schedRate (w := w.of)
        apply keeps_State_count (w := w.of)
        assumption
      · assumption
    · assumption
  clear_value y15
  extract_lets +onlyGivenNames y19
  have k19 : Keeps S z y19 := by
    unfold y19
    refine keeps_ite ?_ ?_
    · apply keeps_State_schedRate (w := w.of)
      apply keeps_State_count (w := w.of)
      assumption
    · assumption
  clear_value y19
  extract_lets +onlyGivenNames y20
  have k20 : Keeps S z y20 := by
    unfold y20
    refine keeps_ite ?_ ?_
    · apply keeps_State_schedRate (w := w.of)
      assumption
    · assumption
  clear_value y20
  extract_lets +onlyGivenNames y21
  have k21 : Keeps S z y21 := by
    unfold y21
    apply keeps_forAll
    · intro x22
      intro x23
      intro k24
      apply keeps_State_updShaper (w := w.of)
      assumption
    · assumption
  clear_value y21
  extract_lets +onlyGivenNames y25
  have k25 : Keeps S z y25 := by
    unfold y25
    refine keeps_ite ?_ ?_
    · assumption
    · apply keeps_forAll
      · intro x26
        intro x27
        intro k28
        apply keeps_State_takeShare (w := w.of)
        assumption
      · assumption
  clear_value y25
  extract_lets +onlyGivenNames y29
  have k29 : Keeps S z y29 := by
    unfold y29
    apply keeps_forAll
    · intro x30
      intro x31
      intro k32
      apply keeps_State_updShaper (w := w.of)
      assumption
    · assumption
  clear_value y29
  extract_lets +onlyGivenNames y33
  have k33 : Keeps S z y33 := by
    unfold y33
    apply keeps_forAll
    · intro x34
      intro x35
      intro k36
      extract_lets +onlyGivenNames y37
      clear_value y37
      extract_lets +onlyGivenNames y38
      clear_value y38
      apply keeps_State_updShaper (w := w.of)
      assumption
    · assumption
  clear_value y33
  apply keeps_State_refill (w := w.of)
  assumption

theorem keeps_State_updTime (a1 : State) (a2 : TimeBase → TimeBase) (h1 : Keeps S z a1) (w : Sub [.time] S) : Keeps S
    z (State.updTime a1 a2) := by
  unfold State.updTime
  refine keeps_mk ?_ (w_time := .inr w.has)
  assumption

theorem keeps_State_timeEv (a1 : State) (a2 : Nat) (a3 : Nat) (a4 : Nat) (a5 : Bytes) (h1 : Keeps S z a1) (w : Sub
    [.irq, .jour] S) : Keeps S z (State.timeEv a1 a2 a3 a4 a5) := by
  unfold State.timeEv
  apply keeps_State_ev (w := w.of)
  assumption

theorem keeps_State_inputErrors (a1 : State) (a2 : Nat) (a3 : Nat) (a4 : Nat) (h1 : Keeps S z a1) (w : Sub [.irq,
    .jour, .rates] S) : Keeps S z (State.inputErrors a1 a2 a3 a4) := by
  unfold State.inputErrors
  apply keeps_State_evRate (w := w.of)
  assumption

theorem keeps_State_setTime (a1 : State) (a2 : Nat) (h1 : Keeps S z a1) (w : Sub [.objs, .irq, .jour, .time] S) :
    Keeps S z (State.setTime a1 a2) := by
  unfold State.setTime
  extract_lets +onlyGivenNames y1
  clear_value y1
  refine keeps_ite ?_ ?_
  · assumption
  · extract_lets +onlyGivenNames y2
    have k2 : Keeps S z y2 := by
      unfold y2
      apply keeps_State_updTime (w := w.of)
      assumption
    clear_value y2
    extract_lets +onlyGivenNames y3
    have k3 : Keeps S z y3 := by
      unfold y3
      apply keeps_State_setAll (w := w.of)
      assumption
    clear_value y3
    extract_lets +onlyGivenNames y4
    have k4 : Keeps S z y4 := by
      unfold y4
      refine keeps_ite ?_ ?_
      · apply keeps_State_set (w := w.of)
        assumption
      · assumption
    clear_value y4
    apply keeps_State_timeEv (w := w.of)
    assumption

theorem keeps_State_setWord (a1 : State) (a2 : Int) (h1 : Keeps S z a1) (w : Sub [.objs, .time] S) : Keeps S z
    (State.setWord a1 a2) := by
  unfold State.setWord
  extract_lets +onlyGivenNames y1
  clear_value y1
  extract_lets +onlyGivenNames y2
  have k2 : Keeps S z y2 := by
    unfold y2
    apply keeps_State_updTime (w := w.of)
    assumption
  clear_value y2
  apply keeps_State_set (w := w.of)
  assumption

theorem keeps_State_followTime (a1 : State) (a2 : Nat) (h1 : Keeps S z a1) (w : Sub [.objs, .irq, .jour, .rates,
    .scheds, .pl] S) : Keeps S z (State.followTime a1 a2) := by
  unfold State.followTime
  extract_lets +onlyGivenNames y1
  clear_value y1
  extract_lets +onlyGivenNames y2
  clear_value y2
  refine keeps_ite ?_ ?_
  · assumption
  · apply keeps_State_correct (w := w.of)
    apply keeps_State_updPl (w := w.of)
    assumption

theorem keeps_State_followAll (a1 : State) (h1 : Keeps S z a1) (w : Sub [.objs, .irq, .jour, .rates, .scheds, .pl] S)
    : Keeps S z (State.followAll a1) := by
  unfold State.followAll
  apply keeps_forAll
  · intro x1
    intro x2
    intro k3
    apply keeps_onlyIf
    · intro x4
      intro k5
      apply keeps_State_followTime (w := w.of)
      assumption
    · assumption
  · assumption

theorem keeps_State_stepTime (a1 : State) (a2 : Int) (a3 : Nat) (h1 : Keeps S z a1) (w : Sub [.objs, .station, .irq,
    .jour, .rates, .scheds, .time, .pl] S) : Keeps S z (State.stepTime a1 a2 a3) := by
  unfold State.stepTime
  extract_lets +onlyGivenNames y1
  clear_value y1
  extract_lets +onlyGivenNames y2
  have k2 : Keeps S z y2 := by
    unfold y2
    refine keeps_mk ?_ (w_station := .inr w.has) (w_time := .inr w.has)
    assumption
  clear_value y2
  apply keeps_State_followAll (w := w.of)
  apply keeps_State_timeEv (w := w.of)
  apply keeps_State_count (w := w.of)
  assumption

theorem keeps_State_slewTime (a1 : State) (a2 : Int) (h1 : Keeps S z a1) (w : Sub [.time] S) : Keeps S z
    (State.slewTime a1 a2) := by
  unfold State.slewTime
  apply keeps_State_updTime (w := w.of)
  assumption

theorem keeps_State_servo (a1 : State) (a2 : Int) (a3 : Nat) (h1 : Keeps S z a1) (w : Sub [.objs, .station,
    .freeCount, .irq, .jour, .rates, .scheds, .time, .pl] S) : Keeps S z (State.servo a1 a2 a3) := by
  unfold State.servo
  refine keeps_ite ?_ ?_
  · assumption
  · split
    extract_lets +onlyGivenNames y1
    have k1 : Keeps S z y1 := by
      unfold y1
      apply keeps_State_setWord (w := w.of)
      refine keeps_pair (by assumption) ?_
      apply keeps_State_draw (w := w.of)
      assumption
    clear_value y1
    refine keeps_ite ?_ ?_
    · apply keeps_State_stepTime (w := w.of)
      assumption
    · extract_lets +onlyGivenNames y2
      have k2 : Keeps S z y2 := by
        unfold y2
        apply keeps_State_slewTime (w := w.of)
        assumption
      clear_value y2
      refine keeps_ite ?_ ?_
      · apply keeps_State_evRate (w := w.of)
        assumption
      · assumption

theorem keeps_State_sample (a1 : State) (a2 : Int) (a3 : Nat) (h1 : Keeps S z a1) (w : Sub [.objs, .station,
    .freeCount, .irq, .jour, .rates, .scheds, .time, .pl] S) : Keeps S z (State.sample a1 a2 a3) := by
  unfold State.sample
  refine keeps_ite ?_ ?_
  · assumption
  · extract_lets +onlyGivenNames y1
    have k1 : Keeps S z y1 := by
      unfold y1
      apply keeps_State_set (w := w.of)
      assumption
    clear_value y1
    extract_lets +onlyGivenNames y2
    have k2 : Keeps S z y2 := by
      unfold y2
      refine keeps_ite ?_ ?_
      · apply keeps_State_updTime (w := w.of)
        assumption
      · assumption
    clear_value y2
    extract_lets +onlyGivenNames y3
    have k3 : Keeps S z y3 := by
      unfold y3
      apply keeps_State_updTime (w := w.of)
      assumption
    clear_value y3
    extract_lets +onlyGivenNames y4
    clear_value y4
    extract_lets +onlyGivenNames y5
    clear_value y5
    extract_lets +onlyGivenNames y6
    have k6 : Keeps S z y6 := by
      unfold y6
      split
      · apply keeps_State_setTime (w := w.of)
        assumption
      · apply keeps_State_setTime (w := w.of)
        assumption
      · apply keeps_State_setTime (w := w.of)
        assumption
      · refine keeps_ite ?_ ?_
        · apply keeps_State_setTime (w := w.of)
          apply keeps_State_updTime (w := w.of)
          assumption
        · apply keeps_State_updTime (w := w.of)
          assumption
      · refine keeps_ite ?_ ?_
        · apply keeps_State_setTime (w := w.of)
          assumption
        · apply keeps_State_updTime (w := w.of)
          assumption
      · assumption
    clear_value y6
    apply keeps_State_servo (w := w.of)
    assumption

theorem keeps_State_sourceLost (a1 : State) (a2 : Nat) (h1 : Keeps S z a1) (w : Sub [.objs, .irq, .jour, .time] S) :
    Keeps S z (State.sourceLost a1 a2) := by
  unfold State.sourceLost
  extract_lets +onlyGivenNames y1
  clear_value y1
  extract_lets +onlyGivenNames y2
  have k2 : Keeps S z y2 := by
    unfold y2
    apply keeps_State_updTime (w := w.of)
    assumption
  clear_value y2
  refine keeps_ite ?_ ?_
  · extract_lets +onlyGivenNames y3
    have k3 : Keeps S z y3 := by
      unfold y3
      apply keeps_State_count (w := w.of)
      assumption
    clear_value y3
    extract_lets +onlyGivenNames y4
    have k4 : Keeps S z y4 := by
      unfold y4
      refine keeps_ite ?_ ?_
      · apply keeps_State_setWord (w := w.of)
        assumption
      · assumption
    clear_value y4
    extract_lets +onlyGivenNames y5
    have k5 : Keeps S z y5 := by
      unfold y5
      apply keeps_State_timeEv (w := w.of)
      assumption
    clear_value y5
    apply keeps_State_setTime (w := w.of)
    assumption
  · assumption

theorem keeps_State_reselect (a1 : State) (a2 : Nat) (h1 : Keeps S z a1) (w : Sub [.objs, .irq, .jour, .time] S) :
    Keeps S z (State.reselect a1 a2) := by
  unfold State.reselect
  extract_lets +onlyGivenNames y1
  have k1 : Keeps S z y1 := by
    unfold y1
    apply keeps_State_updTime (w := w.of)
    assumption
  clear_value y1
  refine keeps_ite ?_ ?_
  · refine keeps_ite ?_ ?_
    · apply keeps_State_setTime (w := w.of)
      assumption
    · assumption
  · extract_lets +onlyGivenNames y2
    have k2 : Keeps S z y2 := by
      unfold y2
      refine keeps_ite ?_ ?_
      · apply keeps_State_setWord (w := w.of)
        assumption
      · assumption
    clear_value y2
    apply keeps_State_setTime (w := w.of)
    assumption

theorem keeps_State_leaveFault (a1 : State) (h1 : Keeps S z a1) (w : Sub [.objs, .irq, .jour, .time] S) : Keeps S z
    (State.leaveFault a1) := by
  unfold State.leaveFault
  refine keeps_ite ?_ ?_
  · apply keeps_State_setTime (w := w.of)
    assumption
  · assumption

theorem keeps_State_timeFault (a1 : State) (a2 : Nat) (h1 : Keeps S z a1) (w : Sub [.objs, .irq, .jour, .sent, .time,
    .safety] S) : Keeps S z (State.timeFault a1 a2) := by
  unfold State.timeFault
  extract_lets +onlyGivenNames y1
  have k1 : Keeps S z y1 := by
    unfold y1
    apply keeps_State_set (w := w.of)
    apply keeps_State_count (w := w.of)
    assumption
  clear_value y1
  extract_lets +onlyGivenNames y2
  have k2 : Keeps S z y2 := by
    unfold y2
    apply keeps_State_latchSf (w := w.of)
    apply keeps_State_danger (w := w.of)
    assumption
  clear_value y2
  refine keeps_ite ?_ ?_
  · assumption
  · apply keeps_State_setTime (w := w.of)
    assumption

theorem keeps_State_markCycle (a1 : State) (a2 : Nat) (h1 : Keeps S z a1) (w : Sub [.objs, .pl] S) : Keeps S z
    (State.markCycle a1 a2) := by
  unfold State.markCycle
  extract_lets +onlyGivenNames y1
  clear_value y1
  extract_lets +onlyGivenNames y2
  clear_value y2
  extract_lets +onlyGivenNames y3
  have k3 : Keeps S z y3 := by
    unfold y3
    refine keeps_ite ?_ ?_
    · assumption
    · apply keeps_State_count (w := w.of)
      assumption
  clear_value y3
  apply keeps_State_updPl (w := w.of)
  assumption

theorem keeps_State_keepRx (a1 : State) (a2 : Nat) (a3 : Nat) (a4 : Nat) (h1 : Keeps S z a1) (w : Sub [.pl] S) : Keeps
    S z (State.keepRx a1 a2 a3 a4) := by
  unfold State.keepRx
  apply keeps_State_updPl (w := w.of)
  assumption

theorem keeps_State_timeTransfer (a1 : State) (a2 : Nat) (a3 : Nat) (a4 : Nat) (a5 : Nat) (a6 : Nat) (h1 : Keeps S z
    a1) (w : Sub [.objs, .station, .freeCount, .irq, .jour, .rates, .scheds, .time, .pl] S) : Keeps S z
    (State.timeTransfer a1 a2 a3 a4 a5 a6) := by
  unfold State.timeTransfer
  extract_lets +onlyGivenNames y1
  have k1 : Keeps S z y1 := by
    unfold y1
    apply keeps_State_updSched (w := w.of)
    assumption
  clear_value y1
  split
  · extract_lets +onlyGivenNames y2
    clear_value y2
    extract_lets +onlyGivenNames y3
    clear_value y3
    extract_lets +onlyGivenNames y4
    clear_value y4
    extract_lets +onlyGivenNames y5
    have k5 : Keeps S z y5 := by
      unfold y5
      apply keeps_State_setAll (w := w.of)
      assumption
    clear_value y5
    extract_lets +onlyGivenNames y6
    have k6 : Keeps S z y6 := by
      unfold y6
      apply keeps_State_updPl (w := w.of)
      apply keeps_State_count (w := w.of)
      assumption
    clear_value y6
    refine keeps_ite ?_ ?_
    · extract_lets +onlyGivenNames y7
      have k7 : Keeps S z y7 := by
        unfold y7
        apply keeps_State_updTime (w := w.of)
        assumption
      clear_value y7
      apply keeps_State_sample (w := w.of)
      assumption
    · assumption
  · assumption

theorem keeps_State_onTrained (a1 : State) (a2 : Nat) (h1 : Keeps S z a1) (w : Sub [.objs, .irq, .jour, .rates,
    .scheds, .pl] S) : Keeps S z (State.onTrained a1 a2) := by
  unfold State.onTrained
  extract_lets +onlyGivenNames y1
  have k1 : Keeps S z y1 := by
    unfold y1
    apply keeps_State_schedUp (w := w.of)
    assumption
  clear_value y1
  extract_lets +onlyGivenNames y2
  have k2 : Keeps S z y2 := by
    unfold y2
    apply keeps_State_updPl (w := w.of)
    assumption
  clear_value y2
  apply keeps_State_set (w := w.of)
  assumption

theorem keeps_State_onUntrained (a1 : State) (a2 : Nat) (h1 : Keeps S z a1) (w : Sub [.objs, .irq, .jour, .rates,
    .tunnels, .scheds, .pl] S) : Keeps S z (State.onUntrained a1 a2) := by
  unfold State.onUntrained
  apply keeps_State_updPl (w := w.of)
  apply keeps_State_schedDown (w := w.of)
  assumption

theorem keeps_State_updEthp (a1 : State) (a2 : Nat) (a3 : EthPort → EthPort) (h1 : Keeps S z a1) (w : Sub [.eth] S) :
    Keeps S z (State.updEthp a1 a2 a3) := by
  unfold State.updEthp
  refine keeps_mk ?_ (w_eth := .inr w.has)
  assumption

theorem keeps_State_updRedp (a1 : State) (a2 : Nat) (a3 : RedPair → RedPair) (h1 : Keeps S z a1) (w : Sub [.eth] S) :
    Keeps S z (State.updRedp a1 a2 a3) := by
  unfold State.updRedp
  refine keeps_mk ?_ (w_eth := .inr w.has)
  assumption

theorem keeps_State_setL2 (a1 : State) (a2 : Nat) (a3 : L2) (h1 : Keeps S z a1) (w : Sub [.objs, .fabric] S) : Keeps S
    z (State.setL2 a1 a2 a3) := by
  unfold State.setL2
  extract_lets +onlyGivenNames y1
  have k1 : Keeps S z y1 := by
    unfold y1
    apply keeps_State_updFabric (w := w.of)
    assumption
  clear_value y1
  apply keeps_State_setAll (w := w.of)
  assumption

theorem keeps_State_learn (a1 : State) (a2 : Nat) (a3 : Nat) (a4 : Nat) (a5 : Nat) (a6 : Nat) (h1 : Keeps S z a1) (w :
    Sub [.objs, .irq, .jour, .rates, .fabric] S) : Keeps S z (State.learn a1 a2 a3 a4 a5 a6) := by
  unfold State.learn
  refine keeps_ite ?_ ?_
  · assumption
  · split
    · extract_lets +onlyGivenNames y1
      clear_value y1
      refine keeps_ite ?_ ?_
      · assumption
      · extract_lets +onlyGivenNames y2
        have k2 : Keeps S z y2 := by
          unfold y2
          apply keeps_State_setL2 (w := w.of)
          assumption
        clear_value y2
        refine keeps_ite ?_ ?_
        · assumption
        · apply keeps_State_fabricEv (w := w.of)
          apply keeps_State_count (w := w.of)
          assumption
    · extract_lets +onlyGivenNames y3
      clear_value y3
      split
      · apply keeps_State_setL2 (w := w.of)
        assumption
      · apply keeps_State_fabricEv (w := w.of)
        apply keeps_State_count (w := w.of)
        assumption

theorem keeps_State_frameIn (a1 : State) (a2 : Nat) (a3 : Nat) (a4 : Nat) (a5 : Bool) (a6 : Bytes) (a7 : Bool) (h1 : Keeps S z a1) (w : Sub [.objs, .irq, .jour, .rates, .fabric] S) : Keeps S z (State.frameIn a1 a2 a3
    a4 a5 a6 a7) := by
  unfold State.frameIn
  split
  extract_lets +onlyGivenNames y1
  clear_value y1
  extract_lets +onlyGivenNames y2
  clear_value y2
  refine keeps_ite ?_ ?_
  · refine keeps_ite ?_ ?_
    · assumption
    · apply keeps_State_tailEv (w := w.of)
      apply keeps_forAll
      · intro x3
        intro x4
        intro k5
        apply keeps_State_toFabric (w := w.of)
        assumption
      · assumption
  · apply keeps_forAll
    · intro x6
      intro x7
      intro k8
      apply keeps_State_toFabric (w := w.of)
      assumption
    · assumption

theorem keeps_State_ptpOut (a1 : State) (a2 : Nat) (a3 : Nat) (a4 : Bool) (a5 : Bytes) (h1 : Keeps S z a1) (w : Sub
    [.objs, .irq, .jour, .rates] S) : Keeps S z (State.ptpOut a1 a2 a3 a4 a5).2 := by
  unfold State.ptpOut
  split
  · extract_lets +onlyGivenNames y1
    clear_value y1
    split
    · dsimp only
      assumption
    · dsimp only
      apply keeps_State_inputErrors (w := w.of)
      apply keeps_State_count (w := w.of)
      assumption
  · dsimp only
    assumption

theorem keeps_State_frameOut (a1 : State) (a2 : Nat) (a3 : Nat) (a4 : Nat) (a5 : Bool) (a6 : Bool) (a7 : Bytes) (h1 :
    Keeps S z a1) (w : Sub [.objs, .irq, .jour, .rates, .sent] S) : Keeps S z (State.frameOut a1 a2 a3 a4 a5 a6 a7) :=
    by
  unfold State.frameOut
  extract_lets +onlyGivenNames y1
  clear_value y1
  extract_lets +onlyGivenNames y2
  clear_value y2
  refine keeps_ite ?_ ?_
  · assumption
  · split
    extract_lets +onlyGivenNames y3
    have k3 : Keeps S z y3 := by
      unfold y3
      refine keeps_ite ?_ ?_
      · apply keeps_State_count (w := w.of)
        assumption
      · assumption
    clear_value y3
    split
    extract_lets +onlyGivenNames y4
    clear_value y4
    extract_lets +onlyGivenNames y5
    clear_value y5
    apply keeps_State_send (w := w.of)
    apply keeps_State_count (w := w.of)
    refine keeps_pair (by assumption) ?_
    apply keeps_State_ptpOut (w := w.of)
    assumption

theorem keeps_State_updFld (a1 : State) (a2 : Field → Field) (h1 : Keeps S z a1) (w : Sub [.fld] S) : Keeps S z
    (State.updFld a1 a2) := by
  unfold State.updFld
  refine keeps_mk ?_ (w_fld := .inr w.has)
  assumption

theorem keeps_State_updCanp (a1 : State) (a2 : Nat) (a3 : CanPort → CanPort) (h1 : Keeps S z a1) (w : Sub [.fld] S) :
    Keeps S z (State.updCanp a1 a2 a3) := by
  unfold State.updCanp
  apply keeps_State_updFld (w := w.of)
  assumption

theorem keeps_State_updMap (a1 : State) (a2 : Nat) (a3 : MapEntry → MapEntry) (h1 : Keeps S z a1) (w : Sub [.fld] S) :
    Keeps S z (State.updMap a1 a2 a3) := by
  unfold State.updMap
  apply keeps_State_updFld (w := w.of)
  assumption

theorem keeps_State_updCanTx (a1 : State) (a2 : Nat) (a3 : CanTx → CanTx) (h1 : Keeps S z a1) (w : Sub [.fld] S) :
    Keeps S z (State.updCanTx a1 a2 a3) := by
  unfold State.updCanTx
  apply keeps_State_updFld (w := w.of)
  assumption

theorem keeps_State_updPub (a1 : State) (a2 : Nat) (a3 : GoosePub → GoosePub) (h1 : Keeps S z a1) (w : Sub [.fld] S) :
    Keeps S z (State.updPub a1 a2 a3) := by
  unfold State.updPub
  apply keeps_State_updFld (w := w.of)
  assumption

theorem keeps_State_updGsub (a1 : State) (a2 : Nat) (a3 : GooseSub → GooseSub) (h1 : Keeps S z a1) (w : Sub [.fld] S)
    : Keeps S z (State.updGsub a1 a2 a3) := by
  unfold State.updGsub
  apply keeps_State_updFld (w := w.of)
  assumption

theorem keeps_State_canDrop (a1 : State) (a2 : Nat) (a3 : Nat) (a4 : Nat) (h1 : Keeps S z a1) (w : Sub [.objs, .irq,
    .jour, .rates] S) : Keeps S z (State.canDrop a1 a2 a3 a4) := by
  unfold State.canDrop
  apply keeps_State_evRate (w := w.of)
  apply keeps_State_count (w := w.of)
  apply keeps_State_count (w := w.of)
  assumption

theorem keeps_State_canSend (a1 : State) (a2 : Nat) (a3 : CanFrame) (h1 : Keeps S z a1) (w : Sub [.objs, .irq, .jour,
    .rates, .fld] S) : Keeps S z (State.canSend a1 a2 a3) := by
  unfold State.canSend
  refine keeps_ite ?_ ?_
  · apply keeps_State_canDrop (w := w.of)
    assumption
  · apply keeps_State_updCanp (w := w.of)
    assumption

theorem keeps_State_busState (a1 : State) (a2 : Nat) (a3 : Nat) (a4 : Nat) (a5 : Nat) (h1 : Keeps S z a1) (w : Sub
    [.objs, .irq, .jour] S) : Keeps S z (State.busState a1 a2 a3 a4 a5) := by
  unfold State.busState
  extract_lets +onlyGivenNames y1
  clear_value y1
  apply keeps_State_ev (w := w.of)
  apply keeps_State_set (w := w.of)
  assumption

theorem keeps_State_canErrors (a1 : State) (a2 : Nat) (a3 : Nat) (a4 : Nat) (h1 : Keeps S z a1) (w : Sub [.objs, .irq,
    .jour, .fld] S) : Keeps S z (State.canErrors a1 a2 a3 a4) := by
  unfold State.canErrors
  extract_lets +onlyGivenNames y1
  clear_value y1
  extract_lets +onlyGivenNames y2
  have k2 : Keeps S z y2 := by
    unfold y2
    apply keeps_State_updCanp (w := w.of)
    assumption
  clear_value y2
  refine keeps_ite ?_ ?_
  · assumption
  · apply keeps_State_busState (w := w.of)
    assumption

theorem keeps_State_canHeard (a1 : State) (a2 : Nat) (h1 : Keeps S z a1) (w : Sub [.objs, .irq, .jour, .fld] S) :
    Keeps S z (State.canHeard a1 a2) := by
  unfold State.canHeard
  extract_lets +onlyGivenNames y1
  clear_value y1
  refine keeps_ite ?_ ?_
  · assumption
  · apply keeps_State_canErrors (w := w.of)
    assumption

theorem keeps_State_canSpoken (a1 : State) (a2 : Nat) (h1 : Keeps S z a1) (w : Sub [.objs, .irq, .jour, .fld] S) :
    Keeps S z (State.canSpoken a1 a2) := by
  unfold State.canSpoken
  extract_lets +onlyGivenNames y1
  clear_value y1
  refine keeps_ite ?_ ?_
  · assumption
  · apply keeps_State_canErrors (w := w.of)
    assumption

theorem keeps_State_canDrain (a1 : State) (a2 : Nat) (h1 : Keeps S z a1) (w : Sub [.objs, .irq, .jour, .sent, .fld] S)
    : Keeps S z (State.canDrain a1 a2) := by
  unfold State.canDrain
  split
  · assumption
  · refine keeps_ite ?_ ?_
    · assumption
    · apply keeps_State_canSpoken (w := w.of)
      apply keeps_State_send (w := w.of)
      apply keeps_State_updCanp (w := w.of)
      assumption

theorem keeps_State_gatewaySend (a1 : State) (a2 : Nat) (a3 : CanFrame) (h1 : Keeps S z a1) (w : Sub [.objs, .irq,
    .jour, .rates, .fld] S) : Keeps S z (State.gatewaySend a1 a2 a3) := by
  unfold State.gatewaySend
  refine keeps_ite ?_ ?_
  · apply keeps_State_canSend (w := w.of)
    assumption
  · extract_lets +onlyGivenNames y1
    clear_value y1
    extract_lets +onlyGivenNames y2
    clear_value y2
    extract_lets +onlyGivenNames y3
    clear_value y3
    refine keeps_ite ?_ ?_
    · apply keeps_State_canDrop (w := w.of)
      assumption
    · apply keeps_State_canSend (w := w.of)
      apply keeps_State_updCanp (w := w.of)
      assumption

theorem keeps_State_fieldUnit (a1 : State) (a2 : Nat) (a3 : Bytes) (h1 : Keeps S z a1) (w : Sub [.fabric] S) : Keeps S
    z (State.fieldUnit a1 a2 a3).2 := by
  unfold State.fieldUnit
  split
  · dsimp only
    apply keeps_State_toFabric (w := w.of)
    assumption
  · dsimp only
    assumption

theorem keeps_State_canTxNow (a1 : State) (a2 : Nat) (h1 : Keeps S z a1) (w : Sub [.objs, .irq, .jour, .rates, .fld]
    S) : Keeps S z (State.canTxNow a1 a2) := by
  unfold State.canTxNow
  extract_lets +onlyGivenNames y1
  clear_value y1
  extract_lets +onlyGivenNames y2
  have k2 : Keeps S z y2 := by
    unfold y2
    apply keeps_State_updCanTx (w := w.of)
    assumption
  clear_value y2
  apply keeps_State_gatewaySend (w := w.of)
  assumption

theorem keeps_State_canTrigger (a1 : State) (a2 : Nat) (h1 : Keeps S z a1) (w : Sub [.objs, .irq, .jour, .rates, .fld]
    S) : Keeps S z (State.canTrigger a1 a2) := by
  unfold State.canTrigger
  split
  · refine keeps_ite ?_ ?_
    · assumption
    · apply keeps_State_updFld (w := w.of)
      assumption
  · refine keeps_ite ?_ ?_
    · apply keeps_State_updCanTx (w := w.of)
      assumption
    · apply keeps_State_canTxNow (w := w.of)
      assumption

theorem keeps_State_together (a1 : State) (a2 : State → State) (h1 : Keeps S z a1) (h2 : ∀ x0, Keeps S z x0 → Keeps S
    z (a2 x0)) (w : Sub [.objs, .irq, .jour, .rates, .fld] S) : Keeps S z (State.together a1 a2) := by
  unfold State.together
  extract_lets +onlyGivenNames y1
  have k1 : Keeps S z y1 := by
    unfold y1
    apply h2
    apply keeps_State_updFld (w := w.of)
    assumption
  clear_value y1
  apply keeps_forAll
  · intro x2
    intro x3
    intro k4
    apply keeps_State_canTrigger (w := w.of)
    assumption
  · apply keeps_State_updFld (w := w.of)
    assumption

theorem keeps_State_updTpdo (a1 : State) (a2 : Nat) (a3 : Tpdo → Tpdo) (h1 : Keeps S z a1) (w : Sub [.canOpen] S) :
    Keeps S z (State.updTpdo a1 a2 a3) := by
  unfold State.updTpdo
  refine keeps_mk ?_ (w_canOpen := .inr w.has)
  assumption

theorem keeps_State_tpdoSend (a1 : State) (a2 : Nat) (h1 : Keeps S z a1) (w : Sub [.objs, .irq, .jour, .rates,
    .canOpen, .fld] S) : Keeps S z (State.tpdoSend a1 a2) := by
  unfold State.tpdoSend
  extract_lets +onlyGivenNames y1
  clear_value y1
  extract_lets +onlyGivenNames y2
  clear_value y2
  apply keeps_State_updTpdo (w := w.of)
  apply keeps_State_canSend (w := w.of)
  assumption

theorem keeps_State_tpdoTrigger (a1 : State) (a2 : Nat) (h1 : Keeps S z a1) (w : Sub [.objs, .irq, .jour, .rates,
    .canOpen, .fld] S) : Keeps S z (State.tpdoTrigger a1 a2) := by
  unfold State.tpdoTrigger
  refine keeps_ite ?_ ?_
  · apply keeps_State_updTpdo (w := w.of)
    assumption
  · apply keeps_State_tpdoSend (w := w.of)
    assumption

theorem keeps_State_tpdoCheck (a1 : State) (h1 : Keeps S z a1) (w : Sub [.objs, .irq, .jour, .rates, .canOpen, .fld]
    S) : Keeps S z (State.tpdoCheck a1) := by
  unfold State.tpdoCheck
  apply keeps_forAll
  · intro x1
    intro x2
    intro k3
    refine keeps_ite ?_ ?_
    · apply keeps_State_tpdoTrigger (w := w.of)
      assumption
    · assumption
  · assumption

theorem keeps_State_goosePublish (a1 : State) (a2 : Nat) (a3 : Nat) (h1 : Keeps S z a1) (w : Sub [.objs, .irq, .jour,
    .rates, .fabric, .fld] S) : Keeps S z (State.goosePublish a1 a2 a3) := by
  unfold State.goosePublish
  extract_lets +onlyGivenNames y1
  have k1 : Keeps S z y1 := by
    unfold y1
    apply keeps_State_updPub (w := w.of)
    assumption
  clear_value y1
  refine keeps_ite ?_ ?_
  · extract_lets +onlyGivenNames y2
    have k2 : Keeps S z y2 := by
      unfold y2
      apply keeps_State_frameIn (w := w.of)
      assumption
    clear_value y2
    apply keeps_State_updPub (w := w.of)
    assumption
  · assumption

theorem keeps_State_goosePack (a1 : State) (a2 : Nat) (a3 : Nat) (a4 : Nat) (a5 : Nat) (a6 : Nat) (h1 : Keeps S z a1)
    (w : Sub [.objs, .irq, .jour, .rates, .fabric, .fld] S) : Keeps S z (State.goosePack a1 a2 a3 a4 a5 a6) := by
  unfold State.goosePack
  extract_lets +onlyGivenNames y1
  clear_value y1
  extract_lets +onlyGivenNames y2
  have k2 : Keeps S z y2 := by
    unfold y2
    apply keeps_State_updPub (w := w.of)
    assumption
  clear_value y2
  refine keeps_ite ?_ ?_
  · apply keeps_State_goosePublish (w := w.of)
    apply keeps_State_updPub (w := w.of)
    assumption
  · assumption

theorem keeps_State_recordLost (a1 : State) (a2 : Nat) (a3 : Nat) (h1 : Keeps S z a1) (w : Sub [.irq, .jour, .rates]
    S) : Keeps S z (State.recordLost a1 a2 a3) := by
  unfold State.recordLost
  apply keeps_State_evRate (w := w.of)
  assumption

theorem keeps_State_gatherRecord (a1 : State) (a2 : Nat) (a3 : Nat) (a4 : Bytes) (h1 : Keeps S z a1) (w : Sub [.irq,
    .jour, .rates, .fld] S) : Keeps S z (State.gatherRecord a1 a2 a3 a4) := by
  unfold State.gatherRecord
  split
  · apply keeps_State_updFld (w := w.of)
    assumption
  · apply keeps_State_recordLost (w := w.of)
    assumption

theorem keeps_State_flushRecords (a1 : State) (a2 : Nat) (h1 : Keeps S z a1) (w : Sub [.irq, .jour, .rates, .fabric,
    .fld] S) : Keeps S z (State.flushRecords a1 a2) := by
  unfold State.flushRecords
  apply keeps_forAll
  · intro x1
    intro x2
    intro k3
    split
    · refine keeps_ite ?_ ?_
      · extract_lets +onlyGivenNames y4
        have k4 : Keeps S z y4 := by
          unfold y4
          apply keeps_forAll
          · intro x5
            intro x6
            intro k7
            apply keeps_State_fieldUnit (w := w.of)
            assumption
          · assumption
        clear_value y4
        apply keeps_State_updFld (w := w.of)
        assumption
      · assumption
    · apply keeps_State_updFld (w := w.of)
      apply keeps_forAll
      · intro x8
        intro x9
        intro k10
        apply keeps_State_recordLost (w := w.of)
        assumption
      · assumption
  · assumption

theorem keeps_State_mapPack (a1 : State) (a2 : Nat) (h1 : Keeps S z a1) (w : Sub [.objs, .irq, .jour, .rates, .fabric,
    .fld] S) : Keeps S z (State.mapPack a1 a2) := by
  unfold State.mapPack
  extract_lets +onlyGivenNames y1
  clear_value y1
  extract_lets +onlyGivenNames y2
  clear_value y2
  extract_lets +onlyGivenNames y3
  clear_value y3
  extract_lets +onlyGivenNames y4
  clear_value y4
  extract_lets +onlyGivenNames y5
  have k5 : Keeps S z y5 := by
    unfold y5
    apply keeps_State_updMap (w := w.of)
    assumption
  clear_value y5
  split
  · apply keeps_State_canTrigger (w := w.of)
    assumption
  · apply keeps_State_goosePack (w := w.of)
    assumption
  · apply keeps_State_gatherRecord (w := w.of)
    assumption
  · assumption

theorem keeps_State_mapTrigger (a1 : State) (a2 : Nat) (a3 : Nat) (a4 : Nat) (a5 : Bool) (h1 : Keeps S z a1) (w : Sub
    [.objs, .irq, .jour, .rates, .canOpen, .fabric, .fld] S) : Keeps S z (State.mapTrigger a1 a2 a3 a4 a5) := by
  unfold State.mapTrigger
  extract_lets +onlyGivenNames y1
  clear_value y1
  extract_lets +onlyGivenNames y2
  clear_value y2
  extract_lets +onlyGivenNames y3
  clear_value y3
  apply keeps_State_tpdoCheck (w := w.of)
  refine keeps_ite ?_ ?_
  · apply keeps_State_mapPack (w := w.of)
    assumption
  · assumption

theorem keeps_State_mapStale (a1 : State) (a2 : Nat) (a3 : Nat) (h1 : Keeps S z a1) (w : Sub [.objs, .irq, .jour,
    .rates, .canOpen, .fabric, .fld] S) : Keeps S z (State.mapStale a1 a2 a3) := by
  unfold State.mapStale
  extract_lets +onlyGivenNames y1
  clear_value y1
  extract_lets +onlyGivenNames y2
  clear_value y2
  refine keeps_ite ?_ ?_
  · assumption
  · extract_lets +onlyGivenNames y3
    have k3 : Keeps S z y3 := by
      unfold y3
      apply keeps_State_updMap (w := w.of)
      apply keeps_State_set (w := w.of)
      assumption
    clear_value y3
    extract_lets +onlyGivenNames y4
    have k4 : Keeps S z y4 := by
      unfold y4
      refine keeps_ite ?_ ?_
      · apply keeps_State_set (w := w.of)
        assumption
      · assumption
    clear_value y4
    apply keeps_State_mapTrigger (w := w.of)
    apply keeps_State_ev (w := w.of)
    assumption

theorem keeps_State_mapUpdate (a1 : State) (a2 : Nat) (a3 : Nat) (a4 : Nat) (a5 : Nat) (h1 : Keeps S z a1) (w : Sub
    [.objs, .freeCount, .irq, .jour, .rates, .canOpen, .fabric, .fld] S) : Keeps S z (State.mapUpdate a1 a2 a3 a4 a5)
    := by
  unfold State.mapUpdate
  extract_lets +onlyGivenNames y1
  clear_value y1
  extract_lets +onlyGivenNames y2
  clear_value y2
  extract_lets +onlyGivenNames y3
  clear_value y3
  extract_lets +onlyGivenNames y4
  have k4 : Keeps S z y4 := by
    unfold y4
    apply keeps_State_updMap (w := w.of)
    assumption
  clear_value y4
  extract_lets +onlyGivenNames y5
  clear_value y5
  split
  extract_lets +onlyGivenNames y6
  clear_value y6
  extract_lets +onlyGivenNames y7
  have k7 : Keeps S z y7 := by
    unfold y7
    refine keeps_ite ?_ ?_
    · apply keeps_State_set (w := w.of)
      refine keeps_pair (by assumption) ?_
      apply keeps_State_draw (w := w.of)
      assumption
    · split
      extract_lets +onlyGivenNames y8
      have k8 : Keeps S z y8 := by
        unfold y8
        apply keeps_State_setAll (w := w.of)
        refine keeps_pair (by assumption) ?_
        apply keeps_State_draw (w := w.of)
        assumption
      clear_value y8
      refine keeps_ite ?_ ?_
      · apply keeps_State_evRate (w := w.of)
        assumption
      · assumption
  clear_value y7
  extract_lets +onlyGivenNames y9
  have k9 : Keeps S z y9 := by
    unfold y9
    apply keeps_State_set (w := w.of)
    assumption
  clear_value y9
  extract_lets +onlyGivenNames y10
  have k10 : Keeps S z y10 := by
    unfold y10
    refine keeps_ite ?_ ?_
    · assumption
    · apply keeps_State_ev (w := w.of)
      apply keeps_State_updMap (w := w.of)
      assumption
  clear_value y10
  extract_lets +onlyGivenNames y11
  have k11 : Keeps S z y11 := by
    unfold y11
    refine keeps_ite ?_ ?_
    · refine keeps_ite ?_ ?_
      · apply keeps_State_set (w := w.of)
        assumption
      · assumption
    · assumption
  clear_value y11
  apply keeps_State_mapTrigger (w := w.of)
  assumption

theorem keeps_State_canSource (a1 : State) (a2 : Nat) (a3 : CanFrame) (a4 : Nat) (h1 : Keeps S z a1) (w : Sub [.objs,
    .freeCount, .irq, .jour, .rates, .canOpen, .fabric, .fld] S) : Keeps S z (State.canSource a1 a2 a3 a4) := by
  unfold State.canSource
  refine keeps_ite ?_ ?_
  · assumption
  · apply keeps_State_together (w := w.of)
    · assumption
    · intro x1
      intro k2
      apply keeps_forAll
      · intro x3
        intro x4
        intro k5
        extract_lets +onlyGivenNames y6
        clear_value y6
        refine keeps_ite ?_ ?_
        · split
          · apply keeps_State_mapUpdate (w := w.of)
            assumption
          · split
            apply keeps_State_mapUpdate (w := w.of)
            refine keeps_pair (by assumption) ?_
            apply keeps_State_draw (w := w.of)
            assumption
        · assumption
      · assumption

theorem keeps_State_mapRaw (a1 : State) (a2 : Nat) (a3 : Nat) (a4 : Nat) (a5 : Nat) (h1 : Keeps S z a1) (w : Sub
    [.objs, .freeCount, .irq, .jour, .rates, .canOpen, .fabric, .fld] S) : Keeps S z (State.mapRaw a1 a2 a3 a4 a5) :=
    by
  unfold State.mapRaw
  apply keeps_State_mapUpdate (w := w.of)
  assumption

theorem keeps_State_recordSource (a1 : State) (a2 : Nat) (a3 : Bytes) (h1 : Keeps S z a1) (w : Sub [.objs, .freeCount,
    .irq, .jour, .rates, .canOpen, .fabric, .fld] S) : Keeps S z (State.recordSource a1 a2 a3) := by
  unfold State.recordSource
  refine keeps_ite ?_ ?_
  · assumption
  · extract_lets +onlyGivenNames y1
    clear_value y1
    extract_lets +onlyGivenNames y2
    clear_value y2
    apply keeps_forAll
    · intro x3
      intro x4
      intro k5
      extract_lets +onlyGivenNames y6
      clear_value y6
      refine keeps_ite ?_ ?_
      · apply keeps_State_mapRaw (w := w.of)
        assumption
      · assumption
    · assumption

theorem keeps_State_gooseOffer (a1 : State) (a2 : Bytes) (a3 : Nat) (a4 : Nat) (h1 : Keeps S z a1) (w : Sub [.objs,
    .freeCount, .irq, .jour, .rates, .canOpen, .fabric, .fld] S) : Keeps S z (State.gooseOffer a1 a2 a3 a4) := by
  unfold State.gooseOffer
  extract_lets +onlyGivenNames y1
  clear_value y1
  split
  extract_lets +onlyGivenNames y2
  clear_value y2
  extract_lets +onlyGivenNames y3
  clear_value y3
  extract_lets +onlyGivenNames y4
  clear_value y4
  refine keeps_ite ?_ ?_
  · assumption
  · refine keeps_ite ?_ ?_
    · apply keeps_State_updGsub (w := w.of)
      assumption
    · extract_lets +onlyGivenNames y5
      clear_value y5
      extract_lets +onlyGivenNames y6
      clear_value y6
      extract_lets +onlyGivenNames y7
      clear_value y7
      refine keeps_ite ?_ ?_
      · apply keeps_State_updGsub (w := w.of)
        assumption
      · extract_lets +onlyGivenNames y8
        have k8 : Keeps S z y8 := by
          unfold y8
          apply keeps_State_updGsub (w := w.of)
          assumption
        clear_value y8
        extract_lets +onlyGivenNames y9
        clear_value y9
        apply keeps_State_together (w := w.of)
        · assumption
        · intro x10
          intro k11
          apply keeps_forAll
          · intro x12
            intro x13
            intro k14
            extract_lets +onlyGivenNames y15
            clear_value y15
            refine keeps_ite ?_ ?_
            · split
              · split
                apply keeps_State_mapRaw (w := w.of)
                refine keeps_pair (by assumption) ?_
                apply keeps_State_draw (w := w.of)
                assumption
              · assumption
            · assumption
          · assumption

theorem keeps_State_gooseIn (a1 : State) (a2 : Bytes) (a3 : Nat) (h1 : Keeps S z a1) (w : Sub [.objs, .freeCount,
    .irq, .jour, .rates, .canOpen, .fabric, .fld] S) : Keeps S z (State.gooseIn a1 a2 a3) := by
  unfold State.gooseIn
  refine keeps_ite ?_ ?_
  · apply keeps_forAll
    · intro x1
      intro x2
      intro k3
      apply keeps_State_gooseOffer (w := w.of)
      assumption
    · assumption
  · assumption

theorem keeps_State_staleAll (a1 : State) (h1 : Keeps S z a1) (w : Sub [.objs, .irq, .jour, .rates, .canOpen, .fld] S)
    : Keeps S z (State.staleAll a1) := by
  unfold State.staleAll
  apply keeps_State_tpdoCheck (w := w.of)
  apply keeps_forAll
  · intro x1
    intro x2
    intro k3
    apply keeps_State_set (w := w.of)
    assumption
  · assumption

theorem keeps_State_mapEnable (a1 : State) (a2 : Nat) (h1 : Keeps S z a1) (w : Sub [.objs, .fld] S) : Keeps S z
    (State.mapEnable a1 a2) := by
  unfold State.mapEnable
  extract_lets +onlyGivenNames y1
  have k1 : Keeps S z y1 := by
    unfold y1
    apply keeps_State_set (w := w.of)
    assumption
  clear_value y1
  apply keeps_State_updMap (w := w.of)
  assumption

end Sys2Proof.Laws
end

