-- ==== Sys2Proof/Laws/KeepsLinks.lean ====
section
/-!
SUPPORT. What each operation can change and what it keeps: Ethernet, storage, the service port, trunks, tunnels and the fabric. One lemma for each definition, in the order of the
files under Machine/.
-/

set_option Elab.async false

set_option linter.all false

namespace Sys2Proof.Laws

open Sys2Proof Sys2Proof.Machine

variable {S : Piece → Bool} {z : State}

theorem keeps_State_ethErrors (a1 : State) (a2 : Nat) (a3 : Nat) (a4 : Nat) (a5 : Nat) (h1 : Keeps S z a1) (w : Sub
    [.objs, .irq, .jour, .rates] S) : Keeps S z (State.ethErrors a1 a2 a3 a4 a5) := by
  unfold State.ethErrors
  apply keeps_State_evRate (w := w.of)
  apply keeps_State_count (w := w.of)
  apply keeps_State_count (w := w.of)
  apply keeps_State_count (w := w.of)
  assumption

theorem keeps_State_keepNode (a1 : State) (a2 : Node) (h1 : Keeps S z a1) (w : Sub [.eth] S) : Keeps S z
    (State.keepNode a1 a2) := by
  unfold State.keepNode
  refine keeps_mk ?_ (w_eth := .inr w.has)
  assumption

theorem keeps_State_pairSeen (a1 : State) (a2 : Nat) (a3 : Nat) (a4 : Nat) (a5 : Nat) (h1 : Keeps S z a1) (w : Sub
    [.freeCount, .eth] S) : Keeps S z (State.pairSeen a1 a2 a3 a4 a5).2 := by
  unfold State.pairSeen
  split
  · split
    · dsimp only
      apply keeps_State_keepNode (w := w.of)
      assumption
    · dsimp only
      apply keeps_State_keepNode (w := w.of)
      assumption
  · extract_lets +onlyGivenNames y1
    clear_value y1
    extract_lets +onlyGivenNames y2
    clear_value y2
    split
    · dsimp only
      apply keeps_State_keepNode (w := w.of)
      assumption
    · split
      split
      · dsimp only
        apply keeps_State_keepNode (w := w.of)
        refine keeps_mk ?_ (w_eth := .inr w.has)
        refine keeps_pair (by assumption) ?_
        apply keeps_State_draw (w := w.of)
        assumption
      · dsimp only
        refine keeps_pair (by assumption) ?_
        apply keeps_State_draw (w := w.of)
        assumption

theorem keeps_State_pairIn (a1 : State) (a2 : Nat) (a3 : Bytes) (h1 : Keeps S z a1) (w : Sub [.objs, .freeCount, .eth]
    S) : Keeps S z (State.pairIn a1 a2 a3).2 := by
  unfold State.pairIn
  extract_lets +onlyGivenNames y1
  clear_value y1
  extract_lets +onlyGivenNames y2
  have k2 : ∀ x1, Keeps S z x1 →  Keeps S z (y2 x1) := by
    intro x1 hx1
    unfold y2
    apply keeps_State_count (w := w.of)
    assumption
  clear_value y2
  extract_lets +onlyGivenNames y3
  clear_value y3
  split
  · dsimp only
    assumption
  · split
    · extract_lets +onlyGivenNames y4
      have k4 : Keeps S z y4 := by
        unfold y4
        refine keeps_ite ?_ ?_
        · apply keeps_State_count (w := w.of)
          assumption
        · assumption
      clear_value y4
      split
      split
      · dsimp only
        apply k2
        refine keeps_pair (by assumption) ?_
        apply keeps_State_pairSeen (w := w.of)
        assumption
      · dsimp only
        refine keeps_pair (by assumption) ?_
        apply keeps_State_pairSeen (w := w.of)
        assumption
    · dsimp only
      assumption
  · split
    · split
      · dsimp only
        assumption
      · split
        · dsimp only
          assumption
        · split
          split
          · dsimp only
            apply k2
            refine keeps_pair (by assumption) ?_
            apply keeps_State_pairSeen (w := w.of)
            assumption
          · dsimp only
            refine keeps_pair (by assumption) ?_
            apply keeps_State_pairSeen (w := w.of)
            assumption
    · dsimp only
      assumption
  · dsimp only
    assumption

theorem keeps_State_ringOn (a1 : State) (a2 : Nat) (a3 : Bool) (a4 : Bytes) (a5 : Bytes) (h1 : Keeps S z a1) (w : Sub
    [.objs, .irq, .jour, .rates, .sent] S) : Keeps S z (State.ringOn a1 a2 a3 a4 a5) := by
  unfold State.ringOn
  extract_lets +onlyGivenNames y1
  clear_value y1
  extract_lets +onlyGivenNames y2
  clear_value y2
  refine keeps_ite ?_ ?_
  · assumption
  · split
    apply keeps_State_send (w := w.of)
    apply keeps_State_count (w := w.of)
    refine keeps_pair (by assumption) ?_
    apply keeps_State_ptpOut (w := w.of)
    assumption

theorem keeps_State_forward (a1 : State) (a2 : Nat) (a3 : Bool) (a4 : Bytes) (h1 : Keeps S z a1) (w : Sub [.objs,
    .freeCount, .irq, .jour, .rates, .canOpen, .fabric, .fld] S) : Keeps S z (State.forward a1 a2 a3 a4) := by
  unfold State.forward
  split
  refine keeps_ite ?_ ?_
  · apply keeps_State_ethErrors (w := w.of)
    assumption
  · extract_lets +onlyGivenNames y1
    clear_value y1
    extract_lets +onlyGivenNames y2
    have k2 : Keeps S z y2 := by
      unfold y2
      refine keeps_ite ?_ ?_
      · apply keeps_State_count (w := w.of)
        assumption
      · refine keeps_ite ?_ ?_
        · apply keeps_State_count (w := w.of)
          assumption
        · assumption
    clear_value y2
    extract_lets +onlyGivenNames y3
    clear_value y3
    extract_lets +onlyGivenNames y4
    clear_value y4
    extract_lets +onlyGivenNames y5
    have k5 : Keeps S z y5 := by
      unfold y5
      refine keeps_ite ?_ ?_
      · apply keeps_State_gooseIn (w := w.of)
        assumption
      · assumption
    clear_value y5
    apply keeps_State_frameIn (w := w.of)
    assumption

theorem keeps_State_reportAnnounce (a1 : State) (a2 : Nat) (a3 : Bytes) (h1 : Keeps S z a1) (w : Sub [.objs] S) :
    Keeps S z (State.reportAnnounce a1 a2 a3) := by
  unfold State.reportAnnounce
  refine keeps_ite ?_ ?_
  · extract_lets +onlyGivenNames y1
    clear_value y1
    apply keeps_State_set (w := w.of)
    assumption
  · assumption

theorem keeps_State_frameReceived (a1 : State) (a2 : Nat) (a3 : Bytes) (h1 : Keeps S z a1) (w : Sub [.objs,
    .freeCount, .irq, .jour, .rates, .sent, .canOpen, .fabric, .eth, .fld] S) : Keeps S z (State.frameReceived a1 a2
    a3) := by
  unfold State.frameReceived
  refine keeps_ite ?_ ?_
  · assumption
  · refine keeps_ite ?_ ?_
    · apply keeps_State_ethErrors (w := w.of)
      apply keeps_State_count (w := w.of)
      assumption
    · extract_lets +onlyGivenNames y1
      clear_value y1
      extract_lets +onlyGivenNames y2
      clear_value y2
      extract_lets +onlyGivenNames y3
      clear_value y3
      extract_lets +onlyGivenNames y4
      clear_value y4
      refine keeps_ite ?_ ?_
      · apply keeps_State_forward (w := w.of)
        apply keeps_State_ethErrors (w := w.of)
        apply keeps_State_count (w := w.of)
        assumption
      · refine keeps_ite ?_ ?_
        · apply keeps_State_forward (w := w.of)
          apply keeps_State_ethErrors (w := w.of)
          apply keeps_State_count (w := w.of)
          assumption
        · refine keeps_ite ?_ ?_
          · assumption
          · extract_lets +onlyGivenNames y5
            have k5 : Keeps S z y5 := by
              unfold y5
              apply keeps_State_reportAnnounce (w := w.of)
              apply keeps_State_count (w := w.of)
              assumption
            clear_value y5
            extract_lets +onlyGivenNames y6
            have k6 : Keeps S z y6 := by
              unfold y6
              refine keeps_ite ?_ ?_
              · apply keeps_State_updEthp (w := w.of)
                assumption
              · assumption
            clear_value y6
            split
            · apply keeps_State_forward (w := w.of)
              apply keeps_State_ringOn (w := w.of)
              refine keeps_pair (by assumption) ?_
              apply keeps_State_pairIn (w := w.of)
              assumption
            · refine keeps_pair (by assumption) ?_
              apply keeps_State_pairIn (w := w.of)
              assumption

theorem keeps_execEthFrameReceived (a1 : Nat) (a2 : Bytes) (a3 : State) (h3 : Keeps S z a3) (w : Sub [.objs,
    .freeCount, .irq, .jour, .rates, .sent, .canOpen, .fabric, .eth, .fld] S) : KeepsA S z (execEthFrameReceived a1 a2
    a3) := by
  unfold execEthFrameReceived
  apply keeps_onPort
  · assumption
  · apply keeps_State_frameReceived (w := w.of)
    assumption

theorem keeps_State_linkEv (a1 : State) (a2 : Nat) (a3 : Nat) (a4 : Nat) (a5 : Nat) (h1 : Keeps S z a1) (w : Sub
    [.objs, .irq, .jour] S) : Keeps S z (State.linkEv a1 a2 a3 a4 a5) := by
  unfold State.linkEv
  apply keeps_State_ev (w := w.of)
  apply keeps_State_setAll (w := w.of)
  assumption

theorem keeps_State_pairDown (a1 : State) (a2 : Nat) (a3 : Nat) (h1 : Keeps S z a1) (w : Sub [.objs, .irq, .jour,
    .eth] S) : Keeps S z (State.pairDown a1 a2 a3) := by
  unfold State.pairDown
  extract_lets +onlyGivenNames y1
  clear_value y1
  refine keeps_ite ?_ ?_
  · assumption
  · apply keeps_State_ev (w := w.of)
    apply keeps_State_updRedp (w := w.of)
    apply keeps_State_set (w := w.of)
    assumption

theorem keeps_State_pairCheck (a1 : State) (a2 : Nat) (h1 : Keeps S z a1) (w : Sub [.objs, .irq, .jour, .eth] S) :
    Keeps S z (State.pairCheck a1 a2) := by
  unfold State.pairCheck
  apply keeps_forAll
  · intro x1
    intro x2
    intro k3
    refine keeps_ite ?_ ?_
    · assumption
    · apply keeps_State_pairDown (w := w.of)
      assumption
  · assumption

theorem keeps_State_pairUp (a1 : State) (a2 : Nat) (h1 : Keeps S z a1) (w : Sub [.objs, .irq, .jour] S) : Keeps S z
    (State.pairUp a1 a2) := by
  unfold State.pairUp
  refine keeps_ite ?_ ?_
  · apply keeps_State_ev (w := w.of)
    apply keeps_State_set (w := w.of)
    assumption
  · assumption

theorem keeps_execEthLinkUp (a1 : Nat) (a2 : Nat) (a3 : State) (h3 : Keeps S z a3) (w : Sub [.objs, .irq, .jour, .eth]
    S) : KeepsA S z (execEthLinkUp a1 a2 a3) := by
  unfold execEthLinkUp
  apply keeps_onPort
  · assumption
  · refine keeps_ite ?_ ?_
    · assumption
    · apply keeps_State_pairUp (w := w.of)
      apply keeps_State_updEthp (w := w.of)
      apply keeps_State_linkEv (w := w.of)
      assumption

theorem keeps_State_ethLinkLost (a1 : State) (a2 : Nat) (h1 : Keeps S z a1) (w : Sub [.objs, .irq, .jour, .eth] S) :
    Keeps S z (State.ethLinkLost a1 a2) := by
  unfold State.ethLinkLost
  refine keeps_ite ?_ ?_
  · assumption
  · apply keeps_State_pairDown (w := w.of)
    apply keeps_State_updEthp (w := w.of)
    apply keeps_State_linkEv (w := w.of)
    apply keeps_State_count (w := w.of)
    assumption

theorem keeps_execEthLinkDown (a1 : Nat) (a2 : State) (h2 : Keeps S z a2) (w : Sub [.objs, .irq, .jour, .eth] S) :
    KeepsA S z (execEthLinkDown a1 a2) := by
  unfold execEthLinkDown
  apply keeps_onPort
  · assumption
  · apply keeps_State_ethLinkLost (w := w.of)
    assumption

theorem keeps_execPauseFrameReceived (a1 : Nat) (a2 : Nat) (a3 : State) (h3 : Keeps S z a3) (w : Sub [.objs, .eth] S)
    : KeepsA S z (execPauseFrameReceived a1 a2 a3) := by
  unfold execPauseFrameReceived
  apply keeps_onPort
  · assumption
  · refine keeps_ite ?_ ?_
    · apply keeps_State_updEthp (w := w.of)
      apply keeps_State_count (w := w.of)
      assumption
    · assumption

theorem keeps_execEthPortClearCounters (a1 : Path) (a2 : Nat) (a3 : State) (h3 : Keeps S z a3) (w : Sub [.objs,
    .sessions, .cmds, .irq, .jour] S) : KeepsA S z (execEthPortClearCounters a1 a2 a3) := by
  unfold execEthPortClearCounters
  apply keeps_onPath
  · assumption
  · apply keeps_State_commandNow (w := w.of)
    · assumption
    · intro x1
      intro k2
      apply keeps_State_clear (w := w.of)
      assumption

theorem keeps_execLifeCheckTimer (a1 : Nat) (a2 : State) (h2 : Keeps S z a2) (w : Sub [.objs, .irq, .jour, .rates,
    .sent, .eth] S) : KeepsA S z (execLifeCheckTimer a1 a2) := by
  unfold execLifeCheckTimer
  apply keeps_onPort
  · assumption
  · refine keeps_ite ?_ ?_
    · extract_lets +onlyGivenNames y1
      clear_value y1
      extract_lets +onlyGivenNames y2
      clear_value y2
      extract_lets +onlyGivenNames y3
      have k3 : Keeps S z y3 := by
        unfold y3
        apply keeps_State_updRedp (w := w.of)
        assumption
      clear_value y3
      extract_lets +onlyGivenNames y4
      have k4 : Keeps S z y4 := by
        unfold y4
        apply keeps_forAll
        · intro x5
          intro x6
          intro k7
          apply keeps_State_frameOut (w := w.of)
          assumption
        · assumption
      clear_value y4
      apply keeps_State_pairUp (w := w.of)
      apply keeps_State_pairCheck (w := w.of)
      assumption
    · assumption

theorem keeps_execSupervisionTimeout (a1 : Nat) (a2 : State) (h2 : Keeps S z a2) (w : Sub [.objs, .irq, .jour, .eth]
    S) : KeepsA S z (execSupervisionTimeout a1 a2) := by
  unfold execSupervisionTimeout
  apply keeps_onPort
  · assumption
  · refine keeps_ite ?_ ?_
    · apply keeps_State_pairDown (w := w.of)
      assumption
    · assumption

theorem keeps_execNodeForgetTimeout (a1 : Nat) (a2 : Nat) (a3 : State) (h3 : Keeps S z a3) (w : Sub [.objs, .eth] S) :
    KeepsA S z (execNodeForgetTimeout a1 a2 a3) := by
  unfold execNodeForgetTimeout
  apply keeps_onPort
  · assumption
  · split
    · refine keeps_ite ?_ ?_
      · extract_lets +onlyGivenNames y1
        clear_value y1
        extract_lets +onlyGivenNames y2
        clear_value y2
        extract_lets +onlyGivenNames y3
        have k3 : Keeps S z y3 := by
          unfold y3
          refine keeps_mk ?_ (w_eth := .inr w.has)
          assumption
        clear_value y3
        apply keeps_State_count (w := w.of)
        assumption
      · assumption
    · assumption

theorem keeps_State_ptpState (a1 : State) (a2 : Nat) (a3 : Nat) (h1 : Keeps S z a1) (w : Sub [.objs, .irq, .jour] S) :
    Keeps S z (State.ptpState a1 a2 a3) := by
  unfold State.ptpState
  refine keeps_ite ?_ ?_
  · assumption
  · apply keeps_State_ev (w := w.of)
    apply keeps_State_set (w := w.of)
    assumption

theorem keeps_State_onPtp (a1 : State) (a2 : Nat) (a3 : Nat) (a4 : Bytes) (a5 : Bytes → State → State) (h1 : Keeps S z
    a1) (h5 : ∀ x0 x1, Keeps S z x1 → Keeps S z (a5 x0 x1)) (w : Sub [.objs] S) : Keeps S z (State.onPtp a1 a2 a3 a4
    a5) := by
  unfold State.onPtp
  extract_lets +onlyGivenNames y1
  clear_value y1
  refine keeps_ite ?_ ?_
  · apply h5
    apply keeps_State_count (w := w.of)
    assumption
  · assumption

theorem keeps_State_ptpBridge (a1 : State) (a2 : Nat) (a3 : Bytes) (a4 : Bytes) (h1 : Keeps S z a1) (w : Sub [.objs,
    .irq, .jour, .rates, .sent, .fabric] S) : Keeps S z (State.ptpBridge a1 a2 a3 a4) := by
  unfold State.ptpBridge
  extract_lets +onlyGivenNames y1
  have k1 : Keeps S z y1 := by
    unfold y1
    refine keeps_ite ?_ ?_
    · assumption
    · apply keeps_State_ringOn (w := w.of)
      assumption
  clear_value y1
  split
  refine keeps_ite ?_ ?_
  · apply keeps_State_frameIn (w := w.of)
    assumption
  · apply keeps_State_ethErrors (w := w.of)
    assumption

theorem keeps_State_ptpSample (a1 : State) (a2 : Nat) (a3 : Nat) (a4 : Int) (a5 : Int) (h1 : Keeps S z a1) (w : Sub
    [.objs, .station, .freeCount, .irq, .jour, .rates, .scheds, .time, .pl] S) : Keeps S z (State.ptpSample a1 a2 a3
    a4 a5) := by
  unfold State.ptpSample
  apply keeps_State_sample (w := w.of)
  assumption

theorem keeps_execPtpSyncReceived (a1 : Nat) (a2 : Bytes) (a3 : State) (h3 : Keeps S z a3) (w : Sub [.objs, .station,
    .freeCount, .irq, .jour, .rates, .sent, .fabric, .scheds, .time, .eth, .pl] S) : KeepsA S z (execPtpSyncReceived
    a1 a2 a3) := by
  unfold execPtpSyncReceived
  extract_lets +onlyGivenNames y1
  clear_value y1
  apply keeps_onPort
  · assumption
  · apply keeps_State_onPtp (w := w.of)
    · assumption
    · intro x2
      intro x3
      intro k4
      extract_lets +onlyGivenNames y5
      clear_value y5
      extract_lets +onlyGivenNames y6
      have k6 : Keeps S z y6 := by
        unfold y6
        refine keeps_ite ?_ ?_
        · assumption
        · refine keeps_ite ?_ ?_
          · apply keeps_State_updEthp (w := w.of)
            assumption
          · apply keeps_State_ptpSample (w := w.of)
            assumption
      clear_value y6
      refine keeps_ite ?_ ?_
      · assumption
      · apply keeps_State_ptpBridge (w := w.of)
        assumption

theorem keeps_State_linkDelay (a1 : State) (a2 : Nat) (a3 : Int) (a4 : Int) (h1 : Keeps S z a1) (w : Sub [.objs] S) :
    Keeps S z (State.linkDelay a1 a2 a3 a4) := by
  unfold State.linkDelay
  apply keeps_State_set (w := w.of)
  assumption

theorem keeps_execPtpFollowUpReceived (a1 : Nat) (a2 : Bytes) (a3 : State) (h3 : Keeps S z a3) (w : Sub [.objs,
    .station, .freeCount, .irq, .jour, .rates, .sent, .fabric, .scheds, .time, .eth, .pl] S) : KeepsA S z
    (execPtpFollowUpReceived a1 a2 a3) := by
  unfold execPtpFollowUpReceived
  extract_lets +onlyGivenNames y1
  clear_value y1
  extract_lets +onlyGivenNames y2
  clear_value y2
  apply keeps_onPort
  · assumption
  · refine keeps_ite ?_ ?_
    · apply keeps_State_onPtp (w := w.of)
      · assumption
      · intro x3
        intro x4
        intro k5
        extract_lets +onlyGivenNames y6
        clear_value y6
        extract_lets +onlyGivenNames y7
        have k7 : Keeps S z y7 := by
          unfold y7
          refine keeps_ite ?_ ?_
          · apply keeps_State_updEthp (w := w.of)
            apply keeps_State_ptpSample (w := w.of)
            assumption
          · assumption
        clear_value y7
        apply keeps_State_ptpBridge (w := w.of)
        assumption
    · apply keeps_State_onPtp (w := w.of)
      · assumption
      · intro x8
        intro x9
        intro k10
        refine keeps_ite ?_ ?_
        · apply keeps_State_updEthp (w := w.of)
          apply keeps_State_linkDelay (w := w.of)
          assumption
        · assumption

theorem keeps_execPtpAnnounceReceived (a1 : Nat) (a2 : Bytes) (a3 : State) (h3 : Keeps S z a3) (w : Sub [.objs,
    .freeCount, .irq, .jour, .rates, .sent, .canOpen, .fabric, .time, .eth, .fld] S) : KeepsA S z
    (execPtpAnnounceReceived a1 a2 a3) := by
  unfold execPtpAnnounceReceived
  extract_lets +onlyGivenNames y1
  clear_value y1
  apply keeps_onPort
  · assumption
  · refine keeps_ite ?_ ?_
    · apply keeps_State_frameReceived (w := w.of)
      assumption
    · apply keeps_State_onPtp (w := w.of)
      · assumption
      · intro x2
        intro x3
        intro k4
        extract_lets +onlyGivenNames y5
        have k5 : Keeps S z y5 := by
          unfold y5
          apply keeps_State_updEthp (w := w.of)
          apply keeps_State_reportAnnounce (w := w.of)
          assumption
        clear_value y5
        extract_lets +onlyGivenNames y6
        have k6 : Keeps S z y6 := by
          unfold y6
          refine keeps_ite ?_ ?_
          · apply keeps_State_updTime (w := w.of)
            assumption
          · assumption
        clear_value y6
        apply keeps_State_ptpBridge (w := w.of)
        assumption

theorem keeps_State_ptpSend (a1 : State) (a2 : Nat) (a3 : Bool) (a4 : Bytes) (h1 : Keeps S z a1) (w : Sub [.objs,
    .sent] S) : Keeps S z (State.ptpSend a1 a2 a3 a4) := by
  unfold State.ptpSend
  extract_lets +onlyGivenNames y1
  clear_value y1
  refine keeps_ite ?_ ?_
  · extract_lets +onlyGivenNames y2
    clear_value y2
    apply keeps_State_send (w := w.of)
    apply keeps_State_count (w := w.of)
    assumption
  · assumption

theorem keeps_execPtpPdelayReqReceived (a1 : Nat) (a2 : Bytes) (a3 : State) (h3 : Keeps S z a3) (w : Sub [.objs,
    .sent] S) : KeepsA S z (execPtpPdelayReqReceived a1 a2 a3) := by
  unfold execPtpPdelayReqReceived
  apply keeps_onPort
  · assumption
  · apply keeps_State_onPtp (w := w.of)
    · assumption
    · intro x1
      intro x2
      intro k3
      extract_lets +onlyGivenNames y4
      clear_value y4
      extract_lets +onlyGivenNames y5
      clear_value y5
      refine keeps_ite ?_ ?_
      · apply keeps_State_ptpSend (w := w.of)
        apply keeps_State_ptpSend (w := w.of)
        assumption
      · apply keeps_State_ptpSend (w := w.of)
        assumption

theorem keeps_execPtpPdelayRespReceived (a1 : Nat) (a2 : Bytes) (a3 : State) (h3 : Keeps S z a3) (w : Sub [.objs,
    .irq, .jour, .rates, .sent, .fabric, .eth] S) : KeepsA S z (execPtpPdelayRespReceived a1 a2 a3) := by
  unfold execPtpPdelayRespReceived
  extract_lets +onlyGivenNames y1
  clear_value y1
  extract_lets +onlyGivenNames y2
  clear_value y2
  apply keeps_onPort
  · assumption
  · apply keeps_State_onPtp (w := w.of)
    · assumption
    · intro x3
      intro x4
      intro k5
      extract_lets +onlyGivenNames y6
      clear_value y6
      refine keeps_ite ?_ ?_
      · apply keeps_State_ptpBridge (w := w.of)
        assumption
      · refine keeps_ite ?_ ?_
        · assumption
        · refine keeps_ite ?_ ?_
          · apply keeps_State_updEthp (w := w.of)
            assumption
          · apply keeps_State_linkDelay (w := w.of)
            assumption

theorem keeps_execPtpSyncTimer (a1 : Nat) (a2 : State) (h2 : Keeps S z a2) (w : Sub [.objs, .sent, .eth] S) : KeepsA S
    z (execPtpSyncTimer a1 a2) := by
  unfold execPtpSyncTimer
  extract_lets +onlyGivenNames y1
  clear_value y1
  apply keeps_onPort
  · assumption
  · refine keeps_ite ?_ ?_
    · extract_lets +onlyGivenNames y2
      clear_value y2
      extract_lets +onlyGivenNames y3
      have k3 : Keeps S z y3 := by
        unfold y3
        apply keeps_State_updEthp (w := w.of)
        assumption
      clear_value y3
      extract_lets +onlyGivenNames y4
      have k4 : Keeps S z y4 := by
        unfold y4
        apply keeps_State_ptpSend (w := w.of)
        assumption
      clear_value y4
      extract_lets +onlyGivenNames y5
      have k5 : Keeps S z y5 := by
        unfold y5
        refine keeps_ite ?_ ?_
        · apply keeps_State_ptpSend (w := w.of)
          assumption
        · assumption
      clear_value y5
      extract_lets +onlyGivenNames y6
      clear_value y6
      extract_lets +onlyGivenNames y7
      clear_value y7
      extract_lets +onlyGivenNames y8
      clear_value y8
      apply keeps_State_ptpSend (w := w.of)
      assumption
    · assumption

theorem keeps_execPtpPdelayTimer (a1 : Nat) (a2 : State) (h2 : Keeps S z a2) (w : Sub [.objs, .sent, .eth] S) : KeepsA
    S z (execPtpPdelayTimer a1 a2) := by
  unfold execPtpPdelayTimer
  extract_lets +onlyGivenNames y1
  clear_value y1
  apply keeps_onPort
  · assumption
  · refine keeps_ite ?_ ?_
    · apply keeps_State_updEthp (w := w.of)
      apply keeps_State_ptpSend (w := w.of)
      assumption
    · assumption

theorem keeps_execAnnounceReceiptTimeout (a1 : Nat) (a2 : State) (h2 : Keeps S z a2) (w : Sub [.objs, .irq, .jour,
    .time] S) : KeepsA S z (execAnnounceReceiptTimeout a1 a2) := by
  unfold execAnnounceReceiptTimeout
  apply keeps_onPort
  · assumption
  · refine keeps_ite ?_ ?_
    · apply keeps_State_sourceLost (w := w.of)
      assumption
    · assumption

theorem keeps_execPcieLinkUp (a1 : Nat) (a2 : Nat) (a3 : Nat) (a4 : State) (h4 : Keeps S z a4) (w : Sub [.objs, .irq,
    .jour, .sent, .stor] S) : KeepsA S z (execPcieLinkUp a1 a2 a3 a4) := by
  unfold execPcieLinkUp
  apply keeps_onPort
  · assumption
  · refine keeps_ite ?_ ?_
    · apply keeps_State_set (w := w.of)
      assumption
    · refine keeps_ite ?_ ?_
      · extract_lets +onlyGivenNames y1
        have k1 : Keeps S z y1 := by
          unfold y1
          apply keeps_State_setAll (w := w.of)
          assumption
        clear_value y1
        extract_lets +onlyGivenNames y2
        have k2 : Keeps S z y2 := by
          unfold y2
          apply keeps_State_updPcie (w := w.of)
          assumption
        clear_value y2
        extract_lets +onlyGivenNames y3
        have k3 : Keeps S z y3 := by
          unfold y3
          apply keeps_State_ev (w := w.of)
          assumption
        clear_value y3
        refine keeps_ite ?_ ?_
        · apply keeps_State_send (w := w.of)
          assumption
        · refine keeps_ite ?_ ?_
          · apply keeps_State_driveBegin (w := w.of)
            assumption
          · assumption
      · assumption

theorem keeps_State_flushOne (a1 : State) (a2 : Bool) (h1 : Keeps S z a1) (w : Sub [.objs, .irq, .jour, .stor] S) :
    Keeps S z (State.flushOne a1 a2) := by
  unfold State.flushOne
  extract_lets +onlyGivenNames y1
  have k1 : Keeps S z y1 := by
    unfold y1
    apply keeps_State_updStore (w := w.of)
    assumption
  clear_value y1
  refine keeps_ite ?_ ?_
  · apply keeps_State_cmdCommit (w := w.of)
    assumption
  · assumption

theorem keeps_State_flushCut (a1 : State) (a2 : Nat) (h1 : Keeps S z a1) (w : Sub [.objs, .irq, .jour, .stor] S) :
    Keeps S z (State.flushCut a1 a2) := by
  unfold State.flushCut
  apply keeps_forAll
  · intro x1
    intro x2
    intro k3
    apply keeps_State_flushOne (w := w.of)
    assumption
  · assumption

theorem keeps_State_queuesGone (a1 : State) (a2 : Nat) (h1 : Keeps S z a1) (w : Sub [.objs, .irq, .jour, .stor] S) :
    Keeps S z (State.queuesGone a1 a2) := by
  unfold State.queuesGone
  apply keeps_State_updPcie (w := w.of)
  apply keeps_State_flushCut (w := w.of)
  assumption

theorem keeps_State_pcieLinkLost (a1 : State) (a2 : Nat) (h1 : Keeps S z a1) (w : Sub [.objs, .irq, .jour, .rates,
    .sent, .fabric, .stor] S) : Keeps S z (State.pcieLinkLost a1 a2) := by
  unfold State.pcieLinkLost
  refine keeps_ite ?_ ?_
  · assumption
  · refine keeps_ite ?_ ?_
    · apply keeps_State_set (w := w.of)
      assumption
    · extract_lets +onlyGivenNames y1
      have k1 : Keeps S z y1 := by
        unfold y1
        apply keeps_State_count (w := w.of)
        apply keeps_State_setAll (w := w.of)
        assumption
      clear_value y1
      extract_lets +onlyGivenNames y2
      have k2 : Keeps S z y2 := by
        unfold y2
        apply keeps_State_ev (w := w.of)
        assumption
      clear_value y2
      extract_lets +onlyGivenNames y3
      clear_value y3
      extract_lets +onlyGivenNames y4
      have k4 : Keeps S z y4 := by
        unfold y4
        apply keeps_State_updPcie (w := w.of)
        assumption
      clear_value y4
      extract_lets +onlyGivenNames y5
      have k5 : Keeps S z y5 := by
        unfold y5
        apply keeps_State_updStore (w := w.of)
        assumption
      clear_value y5
      extract_lets +onlyGivenNames y6
      have k6 : Keeps S z y6 := by
        unfold y6
        apply keeps_forAll
        · intro x7
          intro x8
          intro k9
          refine keeps_ite ?_ ?_
          · apply keeps_State_flushOne (w := w.of)
            assumption
          · apply keeps_State_sendUnit (w := w.of)
            assumption
        · assumption
      clear_value y6
      extract_lets +onlyGivenNames y10
      have k10 : Keeps S z y10 := by
        unfold y10
        apply keeps_forAll
        · intro x11
          intro x12
          intro k13
          apply keeps_State_sendUnit (w := w.of)
          assumption
        · assumption
      clear_value y10
      apply keeps_State_driveState (w := w.of)
      apply keeps_State_freeLock (w := w.of)
      assumption

theorem keeps_execPcieLinkDown (a1 : Nat) (a2 : State) (h2 : Keeps S z a2) (w : Sub [.objs, .irq, .jour, .rates,
    .sent, .fabric, .stor] S) : KeepsA S z (execPcieLinkDown a1 a2) := by
  unfold execPcieLinkDown
  apply keeps_onPort
  · assumption
  · apply keeps_State_pcieLinkLost (w := w.of)
    assumption

theorem keeps_execDriveReady (a1 : Nat) (a2 : Nat) (a3 : List (Nat × Nat × Nat)) (a4 : State) (h4 : Keeps S z a4) (w :
    Sub [.objs, .irq, .jour, .rates, .sent, .fabric, .stor] S) : KeepsA S z (execDriveReady a1 a2 a3 a4) := by
  unfold execDriveReady
  apply keeps_onPort
  · assumption
  · refine keeps_ite ?_ ?_
    · apply keeps_State_driveState (w := w.of)
      assumption
    · refine keeps_ite ?_ ?_
      · refine keeps_ite ?_ ?_
        · apply keeps_State_driveState (w := w.of)
          assumption
        · extract_lets +onlyGivenNames y1
          have k1 : Keeps S z y1 := by
            unfold y1
            apply keeps_State_driveState (w := w.of)
            apply keeps_State_updPcie (w := w.of)
            apply keeps_State_driveQueues (w := w.of)
            assumption
          clear_value y1
          apply keeps_forAll
          · intro x2
            intro x3
            intro k4
            refine keeps_ite ?_ ?_
            · apply keeps_State_sendNsInfo (w := w.of)
              assumption
            · assumption
          · assumption
      · assumption

theorem keeps_execDriveInitTimeout (a1 : Nat) (a2 : InitStat) (a3 : State) (h3 : Keeps S z a3) (w : Sub [.objs, .irq,
    .jour] S) : KeepsA S z (execDriveInitTimeout a1 a2 a3) := by
  unfold execDriveInitTimeout
  apply keeps_onPort
  · assumption
  · refine keeps_ite ?_ ?_
    · apply keeps_State_driveState (w := w.of)
      assumption
    · assumption

theorem keeps_execNvmeSqDoorbell (a1 : Nat) (a2 : Nat) (a3 : Nat) (a4 : State) (h4 : Keeps S z a4) (w : Sub [.objs,
    .stor] S) : KeepsA S z (execNvmeSqDoorbell a1 a2 a3 a4) := by
  unfold execNvmeSqDoorbell
  apply keeps_onPort
  · assumption
  · split
    · refine keeps_ite ?_ ?_
      · apply keeps_State_updPcie (w := w.of)
        apply keeps_State_count (w := w.of)
        assumption
      · assumption
    · assumption

theorem keeps_State_fetched (a1 : State) (a2 : Nat) (a3 : Nat) (a4 : State → State) (h1 : Keeps S z a1) (h4 : ∀ x0,
    Keeps S z x0 → Keeps S z (a4 x0)) (w : Sub [.objs, .stor] S) : Keeps S z (State.fetched a1 a2 a3 a4) := by
  unfold State.fetched
  split
  · refine keeps_ite ?_ ?_
    · apply h4
      apply keeps_State_updPcie (w := w.of)
      apply keeps_State_count (w := w.of)
      apply keeps_State_count (w := w.of)
      assumption
    · assumption
  · assumption

theorem keeps_State_nvForward (a1 : State) (a2 : Nat) (a3 : Nat) (a4 : Nat) (a5 : Nat) (a6 : Nat) (a7 : Nat) (a8 :
    Nat) (a9 : HostBuf) (h1 : Keeps S z a1) (w : Sub [.objs, .irq, .jour, .rates, .sent, .fabric, .stor] S) : Keeps S
    z (State.nvForward a1 a2 a3 a4 a5 a6 a7 a8 a9) := by
  unfold State.nvForward
  split
  · apply keeps_State_cqEntry (w := w.of)
    assumption
  · extract_lets +onlyGivenNames y1
    clear_value y1
    refine keeps_ite ?_ ?_
    · apply keeps_State_cqEntry (w := w.of)
      assumption
    · split
      extract_lets +onlyGivenNames y2
      clear_value y2
      extract_lets +onlyGivenNames y3
      clear_value y3
      extract_lets +onlyGivenNames y4
      have k4 : Keeps S z y4 := by
        unfold y4
        apply keeps_State_updPcie (w := w.of)
        refine keeps_pair (by assumption) ?_
        apply keeps_State_newTag (w := w.of)
        assumption
      clear_value y4
      extract_lets +onlyGivenNames y5
      have k5 : Keeps S z y5 := by
        unfold y5
        refine keeps_ite ?_ ?_
        · apply keeps_State_sendData (w := w.of)
          apply keeps_State_hostRead (w := w.of)
          assumption
        · assumption
      clear_value y5
      apply keeps_State_sendUnit (w := w.of)
      assumption

theorem keeps_execNvmeRead (a1 : Nat) (a2 : Nat) (a3 : Nat) (a4 : Nat) (a5 : Nat) (a6 : Nat) (a7 : List Nat) (a8 :
    State) (h8 : Keeps S z a8) (w : Sub [.objs, .irq, .jour, .rates, .sent, .fabric, .stor] S) : KeepsA S z
    (execNvmeRead a1 a2 a3 a4 a5 a6 a7 a8) := by
  unfold execNvmeRead
  apply keeps_onPort
  · assumption
  · apply keeps_State_fetched (w := w.of)
    · assumption
    · intro x1
      intro k2
      apply keeps_State_nvForward (w := w.of)
      assumption

theorem keeps_execNvmeWrite (a1 : Nat) (a2 : Nat) (a3 : Nat) (a4 : Nat) (a5 : Nat) (a6 : Nat) (a7 : HostBuf) (a8 :
    State) (h8 : Keeps S z a8) (w : Sub [.objs, .irq, .jour, .rates, .sent, .fabric, .stor] S) : KeepsA S z
    (execNvmeWrite a1 a2 a3 a4 a5 a6 a7 a8) := by
  unfold execNvmeWrite
  apply keeps_onPort
  · assumption
  · apply keeps_State_fetched (w := w.of)
    · assumption
    · intro x1
      intro k2
      apply keeps_State_nvForward (w := w.of)
      assumption

theorem keeps_execNvmeFlush (a1 : Nat) (a2 : Nat) (a3 : Nat) (a4 : Nat) (a5 : State) (h5 : Keeps S z a5) (w : Sub
    [.objs, .irq, .jour, .rates, .sent, .fabric, .stor] S) : KeepsA S z (execNvmeFlush a1 a2 a3 a4 a5) := by
  unfold execNvmeFlush
  apply keeps_onPort
  · assumption
  · apply keeps_State_fetched (w := w.of)
    · assumption
    · intro x1
      intro k2
      apply keeps_State_nvForward (w := w.of)
      assumption

theorem keeps_execNvmeWriteZeroes (a1 : Nat) (a2 : Nat) (a3 : Nat) (a4 : Nat) (a5 : Nat) (a6 : Nat) (a7 : State) (h7 :
    Keeps S z a7) (w : Sub [.objs, .irq, .jour, .rates, .sent, .fabric, .stor] S) : KeepsA S z (execNvmeWriteZeroes a1
    a2 a3 a4 a5 a6 a7) := by
  unfold execNvmeWriteZeroes
  apply keeps_onPort
  · assumption
  · apply keeps_State_fetched (w := w.of)
    · assumption
    · intro x1
      intro k2
      apply keeps_State_nvForward (w := w.of)
      assumption

theorem keeps_State_nvReply (a1 : State) (a2 : Nat) (a3 : Nat) (a4 : Bytes) (h1 : Keeps S z a1) (w : Sub [.objs, .irq,
    .jour, .rates, .sent, .stor] S) : Keeps S z (State.nvReply a1 a2 a3 a4) := by
  unfold State.nvReply
  apply keeps_State_cqEntry (w := w.of)
  apply keeps_State_send (w := w.of)
  apply keeps_State_count (w := w.of)
  assumption

theorem keeps_execNvmeIdentify (a1 : Nat) (a2 : Nat) (a3 : Nat) (a4 : Nat) (a5 : State) (h5 : Keeps S z a5) (w : Sub
    [.objs, .freeCount, .irq, .jour, .rates, .sent, .stor] S) : KeepsA S z (execNvmeIdentify a1 a2 a3 a4 a5) := by
  unfold execNvmeIdentify
  apply keeps_onPort
  · assumption
  · apply keeps_State_fetched (w := w.of)
    · assumption
    · intro x1
      intro k2
      split
      extract_lets +onlyGivenNames y3
      clear_value y3
      refine keeps_ite ?_ ?_
      · apply keeps_State_nvReply (w := w.of)
        refine keeps_pair (by assumption) ?_
        apply keeps_State_draw (w := w.of)
        assumption
      · refine keeps_ite ?_ ?_
        · split
          · apply keeps_State_cqEntry (w := w.of)
            refine keeps_pair (by assumption) ?_
            apply keeps_State_draw (w := w.of)
            assumption
          · split
            apply keeps_State_nvReply (w := w.of)
            refine keeps_pair (by assumption) ?_
            apply keeps_State_draw (w := w.of)
            assumption
        · refine keeps_ite ?_ ?_
          · extract_lets +onlyGivenNames y4
            clear_value y4
            apply keeps_State_nvReply (w := w.of)
            refine keeps_pair (by assumption) ?_
            apply keeps_State_draw (w := w.of)
            assumption
          · apply keeps_State_cqEntry (w := w.of)
            refine keeps_pair (by assumption) ?_
            apply keeps_State_draw (w := w.of)
            assumption

theorem keeps_execNvmeCreateIoQueue (a1 : Nat) (a2 : Nat) (a3 : Bool) (a4 : Nat) (a5 : Nat) (a6 : Nat) (a7 : Bool) (a8
    : State) (h8 : Keeps S z a8) (w : Sub [.objs, .irq, .jour, .rates, .sent, .stor] S) : KeepsA S z
    (execNvmeCreateIoQueue a1 a2 a3 a4 a5 a6 a7 a8) := by
  unfold execNvmeCreateIoQueue
  apply keeps_onPort
  · assumption
  · apply keeps_State_fetched (w := w.of)
    · assumption
    · intro x1
      intro k2
      extract_lets +onlyGivenNames y3
      clear_value y3
      extract_lets +onlyGivenNames y4
      clear_value y4
      refine keeps_ite ?_ ?_
      · apply keeps_State_cqEntry (w := w.of)
        assumption
      · refine keeps_ite ?_ ?_
        · apply keeps_State_cqEntry (w := w.of)
          assumption
        · refine keeps_ite ?_ ?_
          · refine keeps_ite ?_ ?_
            · apply keeps_State_cqEntry (w := w.of)
              assumption
            · apply keeps_State_cqEntry (w := w.of)
              apply keeps_State_updPcie (w := w.of)
              assumption
          · refine keeps_ite ?_ ?_
            · apply keeps_State_cqEntry (w := w.of)
              assumption
            · apply keeps_State_cqEntry (w := w.of)
              apply keeps_State_updPcie (w := w.of)
              assumption

theorem keeps_execNvmeDeleteIoQueue (a1 : Nat) (a2 : Nat) (a3 : Bool) (a4 : Nat) (a5 : State) (h5 : Keeps S z a5) (w :
    Sub [.objs, .irq, .jour, .rates, .sent, .stor] S) : KeepsA S z (execNvmeDeleteIoQueue a1 a2 a3 a4 a5) := by
  unfold execNvmeDeleteIoQueue
  apply keeps_onPort
  · assumption
  · apply keeps_State_fetched (w := w.of)
    · assumption
    · intro x1
      intro k2
      extract_lets +onlyGivenNames y3
      clear_value y3
      refine keeps_ite ?_ ?_
      · refine keeps_ite ?_ ?_
        · apply keeps_State_cqEntry (w := w.of)
          assumption
        · apply keeps_State_cqEntry (w := w.of)
          apply keeps_State_updPcie (w := w.of)
          assumption
      · refine keeps_ite ?_ ?_
        · apply keeps_State_cqEntry (w := w.of)
          assumption
        · refine keeps_ite ?_ ?_
          · apply keeps_State_cqEntry (w := w.of)
            assumption
          · apply keeps_State_cqEntry (w := w.of)
            apply keeps_State_updPcie (w := w.of)
            assumption

theorem keeps_execNvmeGetLogPage (a1 : Nat) (a2 : Nat) (a3 : Nat) (a4 : Nat) (a5 : State) (h5 : Keeps S z a5) (w : Sub
    [.objs, .freeCount, .irq, .jour, .rates, .sent, .stor] S) : KeepsA S z (execNvmeGetLogPage a1 a2 a3 a4 a5) := by
  unfold execNvmeGetLogPage
  apply keeps_onPort
  · assumption
  · apply keeps_State_fetched (w := w.of)
    · assumption
    · intro x1
      intro k2
      refine keeps_ite ?_ ?_
      · split
        apply keeps_State_nvReply (w := w.of)
        refine keeps_pair (by assumption) ?_
        apply keeps_State_draw (w := w.of)
        assumption
      · apply keeps_State_cqEntry (w := w.of)
        assumption

theorem keeps_execNvmeGetFeatures (a1 : Nat) (a2 : Nat) (a3 : Nat) (a4 : State) (h4 : Keeps S z a4) (w : Sub [.objs,
    .irq, .jour, .rates, .sent, .stor] S) : KeepsA S z (execNvmeGetFeatures a1 a2 a3 a4) := by
  unfold execNvmeGetFeatures
  apply keeps_onPort
  · assumption
  · apply keeps_State_fetched (w := w.of)
    · assumption
    · intro x1
      intro k2
      refine keeps_ite ?_ ?_
      · apply keeps_State_cqEntry (w := w.of)
        assumption
      · apply keeps_State_cqEntry (w := w.of)
        assumption

theorem keeps_execNvmeSetFeatures (a1 : Nat) (a2 : Nat) (a3 : Nat) (a4 : Nat) (a5 : State) (h5 : Keeps S z a5) (w :
    Sub [.objs, .irq, .jour, .rates, .sent, .stor] S) : KeepsA S z (execNvmeSetFeatures a1 a2 a3 a4 a5) := by
  unfold execNvmeSetFeatures
  apply keeps_onPort
  · assumption
  · apply keeps_State_fetched (w := w.of)
    · assumption
    · intro x1
      intro k2
      refine keeps_ite ?_ ?_
      · apply keeps_State_cqEntry (w := w.of)
        apply keeps_State_updPcie (w := w.of)
        assumption
      · apply keeps_State_cqEntry (w := w.of)
        assumption

theorem keeps_execNvmeAbort (a1 : Nat) (a2 : Nat) (a3 : State) (h3 : Keeps S z a3) (w : Sub [.objs, .irq, .jour,
    .rates, .sent, .stor] S) : KeepsA S z (execNvmeAbort a1 a2 a3) := by
  unfold execNvmeAbort
  apply keeps_onPort
  · assumption
  · apply keeps_State_fetched (w := w.of)
    · assumption
    · intro x1
      intro k2
      apply keeps_State_cqEntry (w := w.of)
      assumption

theorem keeps_execNvmeAsyncEventRequest (a1 : Nat) (a2 : Nat) (a3 : State) (h3 : Keeps S z a3) (w : Sub [.objs, .irq,
    .jour, .rates, .sent, .stor] S) : KeepsA S z (execNvmeAsyncEventRequest a1 a2 a3) := by
  unfold execNvmeAsyncEventRequest
  apply keeps_onPort
  · assumption
  · apply keeps_State_fetched (w := w.of)
    · assumption
    · intro x1
      intro k2
      extract_lets +onlyGivenNames y3
      have k3 : Keeps S z y3 := by
        unfold y3
        apply keeps_State_updPcie (w := w.of)
        assumption
      clear_value y3
      refine keeps_ite ?_ ?_
      · apply keeps_State_nsNotice (w := w.of)
        apply keeps_State_updPcie (w := w.of)
        assumption
      · assumption

theorem keeps_execNvmeInvalidOpcode (a1 : Nat) (a2 : Nat) (a3 : Nat) (a4 : State) (h4 : Keeps S z a4) (w : Sub [.objs,
    .irq, .jour, .rates, .sent, .stor] S) : KeepsA S z (execNvmeInvalidOpcode a1 a2 a3 a4) := by
  unfold execNvmeInvalidOpcode
  apply keeps_onPort
  · assumption
  · apply keeps_State_fetched (w := w.of)
    · assumption
    · intro x1
      intro k2
      apply keeps_State_cqEntry (w := w.of)
      assumption

theorem keeps_State_serverUnit (a1 : State) (a2 : Nat) (a3 : Nat) (a4 : SUnit) (a5 : Bool) (h1 : Keeps S z a1) (w :
    Sub [.objs, .irq, .jour, .rates, .sent, .stor] S) : Keeps S z (State.serverUnit a1 a2 a3 a4 a5) := by
  unfold State.serverUnit
  extract_lets +onlyGivenNames y1
  clear_value y1
  split
  · assumption
  · refine keeps_ite ?_ ?_
    · assumption
    · extract_lets +onlyGivenNames y2
      have k2 : Keeps S z y2 := by
        unfold y2
        apply keeps_State_updStore (w := w.of)
        assumption
      clear_value y2
      apply keeps_State_nsNotice (w := w.of)
      assumption
  · split
    · assumption
    · refine keeps_ite ?_ ?_
      · apply keeps_State_updPcie (w := w.of)
        assumption
      · refine keeps_ite ?_ ?_
        · apply keeps_State_pcieErrors (w := w.of)
          assumption
        · refine keeps_ite ?_ ?_
          · apply keeps_State_hostWrite (w := w.of)
            apply keeps_State_updPcie (w := w.of)
            assumption
          · assumption
  · split
    · assumption
    · refine keeps_ite ?_ ?_
      · apply keeps_State_nvmeDataError (w := w.of)
        apply keeps_State_ioDone (w := w.of)
        assumption
      · apply keeps_State_ioDone (w := w.of)
        assumption

theorem keeps_State_driveUnit (a1 : State) (a2 : Nat) (a3 : Nat) (a4 : Nat) (a5 : SUnit) (a6 : Bool) (h1 : Keeps S z
    a1) (w : Sub [.objs, .irq, .jour, .rates, .sent, .fabric, .stor, .dram] S) : Keeps S z (State.driveUnit a1 a2 a3
    a4 a5 a6) := by
  unfold State.driveUnit
  extract_lets +onlyGivenNames y1
  clear_value y1
  split
  · assumption
  · assumption
  · refine keeps_ite ?_ ?_
    · apply keeps_State_updPcie (w := w.of)
      assumption
    · apply keeps_State_stageIn (w := w.of)
      apply keeps_State_updPcie (w := w.of)
      assumption
  · extract_lets +onlyGivenNames y2
    clear_value y2
    extract_lets +onlyGivenNames y3
    clear_value y3
    extract_lets +onlyGivenNames y4
    have k4 : Keeps S z y4 := by
      unfold y4
      apply keeps_State_updPcie (w := w.of)
      assumption
    clear_value y4
    refine keeps_ite ?_ ?_
    · apply keeps_State_sendUnit (w := w.of)
      assumption
    · refine keeps_ite ?_ ?_
      · apply keeps_State_sendUnit (w := w.of)
        assumption
      · apply keeps_State_toDrive (w := w.of)
        assumption

theorem keeps_State_storageUnit (a1 : State) (a2 : Nat) (a3 : Nat) (a4 : SUnit) (a5 : Bool) (h1 : Keeps S z a1) (w :
    Sub [.objs, .irq, .jour, .rates, .sent, .fabric, .stor, .dram] S) : Keeps S z (State.storageUnit a1 a2 a3 a4 a5)
    := by
  unfold State.storageUnit
  extract_lets +onlyGivenNames y1
  clear_value y1
  extract_lets +onlyGivenNames y2
  clear_value y2
  refine keeps_ite ?_ ?_
  · extract_lets +onlyGivenNames y3
    have k3 : Keeps S z y3 := by
      unfold y3
      apply keeps_State_hurtDone (w := w.of)
      assumption
    clear_value y3
    extract_lets +onlyGivenNames y4
    clear_value y4
    refine keeps_ite ?_ ?_
    · apply keeps_State_driveUnit (w := w.of)
      assumption
    · refine keeps_ite ?_ ?_
      · apply keeps_State_serverUnit (w := w.of)
        assumption
      · assumption
  · assumption

theorem keeps_execDriveCompletion (a1 : Nat) (a2 : Nat) (a3 : Nat) (a4 : State) (h4 : Keeps S z a4) (w : Sub [.objs,
    .irq, .jour, .rates, .sent, .fabric, .stor] S) : KeepsA S z (execDriveCompletion a1 a2 a3 a4) := by
  unfold execDriveCompletion
  apply keeps_onPort
  · assumption
  · split
    · assumption
    · extract_lets +onlyGivenNames y1
      have k1 : Keeps S z y1 := by
        unfold y1
        apply keeps_State_updPcie (w := w.of)
        apply keeps_State_count (w := w.of)
        assumption
      clear_value y1
      extract_lets +onlyGivenNames y2
      have k2 : Keeps S z y2 := by
        unfold y2
        refine keeps_ite ?_ ?_
        · apply keeps_State_sendData (w := w.of)
          assumption
        · assumption
      clear_value y2
      extract_lets +onlyGivenNames y3
      have k3 : Keeps S z y3 := by
        unfold y3
        refine keeps_ite ?_ ?_
        · apply keeps_State_flushOne (w := w.of)
          assumption
        · apply keeps_State_sendUnit (w := w.of)
          assumption
      clear_value y3
      apply keeps_State_issueQueued (w := w.of)
      assumption

theorem keeps_State_tlpIn (a1 : State) (a2 : Nat) (a3 : TlpData) (a4 : State → State) (h1 : Keeps S z a1) (h4 : ∀ x0,
    Keeps S z x0 → Keeps S z (a4 x0)) (w : Sub [.objs, .irq, .jour, .rates, .sent, .stor] S) : Keeps S z (State.tlpIn
    a1 a2 a3 a4) := by
  unfold State.tlpIn
  extract_lets +onlyGivenNames y1
  have k1 : Keeps S z y1 := by
    unfold y1
    apply keeps_State_count (w := w.of)
    assumption
  clear_value y1
  extract_lets +onlyGivenNames y2
  have k2 : Keeps S z y2 := by
    unfold y2
    refine keeps_ite ?_ ?_
    · assumption
    · apply keeps_State_pcieErrors (w := w.of)
      assumption
  clear_value y2
  refine keeps_ite ?_ ?_
  · apply keeps_State_aerSet (w := w.of)
    assumption
  · refine keeps_ite ?_ ?_
    · apply h4
      refine keeps_ite ?_ ?_
      · apply keeps_State_pcieErrors (w := w.of)
        assumption
      · assumption
    · apply keeps_State_complete (w := w.of)
      apply keeps_State_pcieErrors (w := w.of)
      assumption

theorem keeps_execWindowWriteRequest (a1 : Nat) (a2 : Nat) (a3 : Nat) (a4 : TlpData) (a5 : State) (h5 : Keeps S z a5)
    (w : Sub [.objs, .irq, .jour, .rates, .sent, .fabric, .stor] S) : KeepsA S z (execWindowWriteRequest a1 a2 a3 a4
    a5) := by
  unfold execWindowWriteRequest
  apply keeps_onPort
  · assumption
  · refine keeps_ite ?_ ?_
    · apply keeps_State_tlpIn (w := w.of)
      · assumption
      · intro x1
        intro k2
        apply keeps_State_windowWrite (w := w.of)
        assumption
    · assumption

theorem keeps_execWindowReadRequest (a1 : Nat) (a2 : Nat) (a3 : Nat) (a4 : Nat) (a5 : Nat) (a6 : State) (h6 : Keeps S
    z a6) (w : Sub [.objs, .irq, .jour, .rates, .sent, .fabric, .stor] S) : KeepsA S z (execWindowReadRequest a1 a2 a3
    a4 a5 a6) := by
  unfold execWindowReadRequest
  apply keeps_onPort
  · assumption
  · refine keeps_ite ?_ ?_
    · apply keeps_State_windowRead (w := w.of)
      apply keeps_State_count (w := w.of)
      assumption
    · assumption

theorem keeps_State_refuseLock (a1 : State) (a2 : Nat) (a3 : Nat) (a4 : Nat) (h1 : Keeps S z a1) (w : Sub [.objs,
    .irq, .jour, .rates, .sent, .stor] S) : Keeps S z (State.refuseLock a1 a2 a3 a4) := by
  unfold State.refuseLock
  extract_lets +onlyGivenNames y1
  have k1 : Keeps S z y1 := by
    unfold y1
    apply keeps_State_lockEv (w := w.of)
    apply keeps_State_count (w := w.of)
    assumption
  clear_value y1
  apply keeps_State_complete (w := w.of)
  apply keeps_State_pcieErrors (w := w.of)
  assumption

theorem keeps_execMrdlkRequest (a1 : Nat) (a2 : Nat) (a3 : Nat) (a4 : Nat) (a5 : State) (h5 : Keeps S z a5) (w : Sub
    [.objs, .irq, .jour, .rates, .sent, .fabric, .stor] S) : KeepsA S z (execMrdlkRequest a1 a2 a3 a4 a5) := by
  unfold execMrdlkRequest
  apply keeps_onPort
  · assumption
  · refine keeps_ite ?_ ?_
    · assumption
    · split
      · apply keeps_State_complete (w := w.of)
        apply keeps_State_pcieErrors (w := w.of)
        apply keeps_State_count (w := w.of)
        assumption
      · refine keeps_ite ?_ ?_
        · apply keeps_State_refuseLock (w := w.of)
          apply keeps_State_count (w := w.of)
          assumption
        · refine keeps_ite ?_ ?_
          · assumption
          · apply keeps_State_windowRead (w := w.of)
            apply keeps_State_count (w := w.of)
            assumption

theorem keeps_execUnlockMessage (a1 : Nat) (a2 : State) (h2 : Keeps S z a2) (w : Sub [.objs, .irq, .jour, .rates,
    .fabric, .stor] S) : KeepsA S z (execUnlockMessage a1 a2) := by
  unfold execUnlockMessage
  apply keeps_onPort
  · assumption
  · refine keeps_ite ?_ ?_
    · assumption
    · apply keeps_forAll
      · intro x1
        intro x2
        intro k3
        refine keeps_ite ?_ ?_
        · extract_lets +onlyGivenNames y4
          have k4 : Keeps S z y4 := by
            unfold y4
            apply keeps_State_updStore (w := w.of)
            assumption
          clear_value y4
          apply keeps_State_lockEv (w := w.of)
          apply keeps_State_windowUnit (w := w.of)
          assumption
        · assumption
      · apply keeps_State_count (w := w.of)
        assumption

theorem keeps_State_lockedRead (a1 : State) (a2 : Nat) (a3 : Nat) (a4 : Nat) (a5 : Nat) (a6 : Nat) (a7 : Nat) (a8 :
    Nat) (a9 : Nat) (a10 : Bytes) (h1 : Keeps S z a1) (w : Sub [.objs, .irq, .jour, .rates, .sent, .fabric, .stor] S)
    : Keeps S z (State.lockedRead a1 a2 a3 a4 a5 a6 a7 a8 a9 a10) := by
  unfold State.lockedRead
  extract_lets +onlyGivenNames y1
  clear_value y1
  extract_lets +onlyGivenNames y2
  clear_value y2
  extract_lets +onlyGivenNames y3
  refine keeps_ite ?_ ?_
  · apply keeps_State_windowUnit (w := w.of)
    assumption
  · extract_lets +onlyGivenNames y4
    have k4 : Keeps S z y4 := by
      unfold y4
      refine keeps_ite ?_ ?_
      · assumption
      · apply keeps_State_lockEv (w := w.of)
        apply keeps_State_set (w := w.of)
        apply keeps_State_updPcie (w := w.of)
        assumption
    clear_value y4
    extract_lets +onlyGivenNames y5
    have k5 : Keeps S z y5 := by
      unfold y5
      apply keeps_State_busAnswer (w := w.of)
      apply keeps_State_send (w := w.of)
      apply keeps_State_count (w := w.of)
      assumption
    clear_value y5
    refine keeps_ite ?_ ?_
    · apply keeps_State_freeLock (w := w.of)
      assumption
    · assumption

theorem keeps_State_unitHurt (a1 : State) (a2 : Nat) (a3 : Nat) (a4 : Nat) (a5 : Nat) (a6 : Nat) (h1 : Keeps S z a1)
    (w : Sub [.objs, .irq, .jour, .rates, .sent, .fabric, .stor] S) : Keeps S z (State.unitHurt a1 a2 a3 a4 a5 a6) :=
    by
  unfold State.unitHurt
  refine keeps_ite ?_ ?_
  · apply keeps_State_hurtDone (w := w.of)
    assumption
  · apply keeps_State_hurtDone (w := w.of)
    apply keeps_State_fence (w := w.of)
    assumption

theorem keeps_State_windowIn (a1 : State) (a2 : Nat) (a3 : Nat) (a4 : Nat) (a5 : Bytes) (a6 : Nat) (a7 : Bytes) (h1 :
    Keeps S z a1) (w : Sub [.objs, .irq, .jour, .rates, .sent, .fabric, .stor] S) : Keeps S z (State.windowIn a1 a2 a3
    a4 a5 a6 a7) := by
  unfold State.windowIn
  extract_lets +onlyGivenNames y1
  clear_value y1
  extract_lets +onlyGivenNames y2
  clear_value y2
  extract_lets +onlyGivenNames y3
  clear_value y3
  extract_lets +onlyGivenNames y4
  clear_value y4
  extract_lets +onlyGivenNames y5
  clear_value y5
  extract_lets +onlyGivenNames y6
  clear_value y6
  extract_lets +onlyGivenNames y7
  clear_value y7
  extract_lets +onlyGivenNames y8
  clear_value y8
  extract_lets +onlyGivenNames y9
  clear_value y9
  refine keeps_ite ?_ ?_
  · assumption
  · refine keeps_ite ?_ ?_
    · apply keeps_State_unitHurt (w := w.of)
      assumption
    · refine keeps_ite ?_ ?_
      · refine keeps_ite ?_ ?_
        · apply keeps_State_freeLock (w := w.of)
          assumption
        · assumption
      · refine keeps_ite ?_ ?_
        · apply keeps_State_lockedRead (w := w.of)
          assumption
        · refine keeps_ite ?_ ?_
          · apply keeps_State_updPcie (w := w.of)
            assumption
          · apply keeps_State_issueUnit (w := w.of)
            assumption

theorem keeps_State_keepFetched (a1 : State) (a2 : WinRead) (h1 : Keeps S z a1) (w : Sub [.objs, .irq, .jour, .rates,
    .stor] S) : Keeps S z (State.keepFetched a1 a2) := by
  unfold State.keepFetched
  extract_lets +onlyGivenNames y1
  clear_value y1
  extract_lets +onlyGivenNames y2
  clear_value y2
  extract_lets +onlyGivenNames y3
  clear_value y3
  extract_lets +onlyGivenNames y4
  clear_value y4
  extract_lets +onlyGivenNames y5
  clear_value y5
  extract_lets +onlyGivenNames y6
  clear_value y6
  extract_lets +onlyGivenNames y7
  clear_value y7
  extract_lets +onlyGivenNames y8
  clear_value y8
  extract_lets +onlyGivenNames y9
  have k9 : Keeps S z y9 := by
    unfold y9
    apply keeps_State_updStore (w := w.of)
    assumption
  clear_value y9
  extract_lets +onlyGivenNames y10
  clear_value y10
  refine keeps_ite ?_ ?_
  · assumption
  · apply keeps_State_evRate (w := w.of)
    apply keeps_State_count (w := w.of)
    assumption

theorem keeps_State_readDone (a1 : State) (a2 : Nat) (a3 : WinRead) (h1 : Keeps S z a1) (w : Sub [.objs, .irq, .jour,
    .rates, .sent, .stor] S) : Keeps S z (State.readDone a1 a2 a3) := by
  unfold State.readDone
  extract_lets +onlyGivenNames y1
  clear_value y1
  refine keeps_ite ?_ ?_
  · extract_lets +onlyGivenNames y2
    have k2 : Keeps S z y2 := by
      unfold y2
      refine keeps_ite ?_ ?_
      · apply keeps_State_lockEv (w := w.of)
        apply keeps_State_count (w := w.of)
        assumption
      · assumption
    clear_value y2
    apply keeps_State_complete (w := w.of)
    apply keeps_State_pcieErrors (w := w.of)
    assumption
  · extract_lets +onlyGivenNames y3
    have k3 : Keeps S z y3 := by
      unfold y3
      refine keeps_ite ?_ ?_
      · apply keeps_State_keepFetched (w := w.of)
        assumption
      · assumption
    clear_value y3
    extract_lets +onlyGivenNames y4
    have k4 : Keeps S z y4 := by
      unfold y4
      refine keeps_ite ?_ ?_
      · apply keeps_State_lockEv (w := w.of)
        apply keeps_State_count (w := w.of)
        apply keeps_State_updStore (w := w.of)
        assumption
      · assumption
    clear_value y4
    apply keeps_State_complete (w := w.of)
    assumption

theorem keeps_State_windowCompletion (a1 : State) (a2 : Nat) (a3 : Nat) (a4 : Nat) (a5 : Bytes) (h1 : Keeps S z a1) (w
    : Sub [.objs, .irq, .jour, .rates, .sent, .fabric, .stor] S) : Keeps S z (State.windowCompletion a1 a2 a3 a4 a5)
    := by
  unfold State.windowCompletion
  extract_lets +onlyGivenNames y1
  clear_value y1
  extract_lets +onlyGivenNames y2
  clear_value y2
  extract_lets +onlyGivenNames y3
  clear_value y3
  extract_lets +onlyGivenNames y4
  clear_value y4
  refine keeps_ite ?_ ?_
  · assumption
  · refine keeps_ite ?_ ?_
    · apply keeps_State_unitHurt (w := w.of)
      assumption
    · split
      · apply keeps_State_evRate (w := w.of)
        apply keeps_State_count (w := w.of)
        assumption
      · extract_lets +onlyGivenNames y5
        clear_value y5
        extract_lets +onlyGivenNames y6
        have k6 : Keeps S z y6 := by
          unfold y6
          apply keeps_State_updStore (w := w.of)
          assumption
        clear_value y6
        refine keeps_ite ?_ ?_
        · apply keeps_State_readDone (w := w.of)
          assumption
        · assumption

theorem keeps_State_unitNow (a1 : State) (a2 : Nat) (a3 : Nat) (a4 : InUnit) (h1 : Keeps S z a1) (w : Sub [.objs,
    .irq, .jour, .rates, .sent, .fabric, .stor, .dram] S) : Keeps S z (State.unitNow a1 a2 a3 a4) := by
  unfold State.unitNow
  split
  · apply keeps_State_windowIn (w := w.of)
    assumption
  · apply keeps_State_windowCompletion (w := w.of)
    assumption
  · apply keeps_State_storageUnit (w := w.of)
    assumption

theorem keeps_State_unitsReady (a1 : State) (a2 : Nat) (h1 : Keeps S z a1) (w : Sub [.objs, .irq, .jour, .rates,
    .sent, .fabric, .stor, .dram] S) : Keeps S z (State.unitsReady a1 a2) := by
  unfold State.unitsReady
  extract_lets +onlyGivenNames y1
  clear_value y1
  refine keeps_ite ?_ ?_
  · assumption
  · extract_lets +onlyGivenNames y2
    have k2 : Keeps S z y2 := by
      unfold y2
      apply keeps_State_updStore (w := w.of)
      assumption
    clear_value y2
    apply keeps_forAll
    · intro x3
      intro x4
      intro k5
      apply keeps_State_unitNow (w := w.of)
      assumption
    · assumption

theorem keeps_State_unitIn (a1 : State) (a2 : Nat) (a3 : Nat) (a4 : InUnit) (h1 : Keeps S z a1) (w : Sub [.objs, .irq,
    .jour, .rates, .sent, .fabric, .stor, .dram] S) : Keeps S z (State.unitIn a1 a2 a3 a4) := by
  unfold State.unitIn
  extract_lets +onlyGivenNames y1
  have k1 : Keeps S z y1 := by
    unfold y1
    apply keeps_State_unitsReady (w := w.of)
    assumption
  clear_value y1
  refine keeps_ite ?_ ?_
  · apply keeps_State_updStore (w := w.of)
    assumption
  · apply keeps_State_unitNow (w := w.of)
    assumption

theorem keeps_execStorageUnitReceived (a1 : Nat) (a2 : SUnit) (a3 : UnitMark) (a4 : State) (h4 : Keeps S z a4) (w :
    Sub [.objs, .irq, .jour, .rates, .sent, .fabric, .stor, .dram] S) : KeepsA S z (execStorageUnitReceived a1 a2 a3
    a4) := by
  unfold execStorageUnitReceived
  apply keeps_onUnit
  apply keeps_State_unitIn (w := w.of)
  assumption

theorem keeps_execWindowUnitReceived (a1 : Nat) (a2 : Nat) (a3 : Nat) (a4 : Bytes) (a5 : Nat) (a6 : Bytes) (a7 :
    State) (h7 : Keeps S z a7) (w : Sub [.objs, .irq, .jour, .rates, .sent, .fabric, .stor, .dram] S) : KeepsA S z
    (execWindowUnitReceived a1 a2 a3 a4 a5 a6 a7) := by
  unfold execWindowUnitReceived
  apply keeps_onUnit
  apply keeps_State_unitIn (w := w.of)
  assumption

theorem keeps_execWindowCompletionReceived (a1 : Nat) (a2 : Nat) (a3 : Nat) (a4 : Bytes) (a5 : State) (h5 : Keeps S z
    a5) (w : Sub [.objs, .irq, .jour, .rates, .sent, .fabric, .stor, .dram] S) : KeepsA S z
    (execWindowCompletionReceived a1 a2 a3 a4 a5) := by
  unfold execWindowCompletionReceived
  apply keeps_onUnit
  apply keeps_State_unitIn (w := w.of)
  assumption

theorem keeps_execLockRefusedReceived (a1 : Nat) (a2 : Bytes) (a3 : State) (h3 : Keeps S z a3) (w : Sub [.objs, .irq,
    .jour, .rates, .sent, .stor] S) : KeepsA S z (execLockRefusedReceived a1 a2 a3) := by
  unfold execLockRefusedReceived
  extract_lets +onlyGivenNames y1
  clear_value y1
  extract_lets +onlyGivenNames y2
  clear_value y2
  apply keeps_onUnit
  split
  · assumption
  · apply keeps_State_refuseLock (w := w.of)
    apply keeps_State_updStore (w := w.of)
    assumption

theorem keeps_execCompletionTimeout (a1 : Nat) (a2 : State) (h2 : Keeps S z a2) (w : Sub [.objs, .irq, .jour, .rates,
    .sent, .stor] S) : KeepsA S z (execCompletionTimeout a1 a2) := by
  unfold execCompletionTimeout
  refine keeps_next ?_
  split
  · assumption
  · extract_lets +onlyGivenNames y1
    clear_value y1
    extract_lets +onlyGivenNames y2
    have k2 : Keeps S z y2 := by
      unfold y2
      apply keeps_State_updStore (w := w.of)
      assumption
    clear_value y2
    extract_lets +onlyGivenNames y3
    have k3 : Keeps S z y3 := by
      unfold y3
      apply keeps_State_evRate (w := w.of)
      assumption
    clear_value y3
    apply keeps_State_complete (w := w.of)
    apply keeps_State_pcieErrors (w := w.of)
    assumption

theorem keeps_execPrefetchLifeExpired (a1 : Nat) (a2 : State) (h2 : Keeps S z a2) (w : Sub [.objs, .irq, .jour,
    .rates, .stor] S) : KeepsA S z (execPrefetchLifeExpired a1 a2) := by
  unfold execPrefetchLifeExpired
  apply keeps_onUnit
  apply keeps_State_dropFetched (w := w.of)
  assumption

theorem keeps_execWindowUnfence (a1 : Path) (a2 : Nat) (a3 : State) (h3 : Keeps S z a3) (w : Sub [.objs, .sessions,
    .cmds, .irq, .jour, .stor] S) : KeepsA S z (execWindowUnfence a1 a2 a3) := by
  unfold execWindowUnfence
  apply keeps_onPath
  · assumption
  · apply keeps_State_commandNow (w := w.of)
    · assumption
    · intro x1
      intro k2
      apply keeps_State_updStore (w := w.of)
      assumption

theorem keeps_execWindowClearCounters (a1 : Path) (a2 : Nat) (a3 : State) (h3 : Keeps S z a3) (w : Sub [.objs,
    .sessions, .cmds, .irq, .jour] S) : KeepsA S z (execWindowClearCounters a1 a2 a3) := by
  unfold execWindowClearCounters
  apply keeps_onPath
  · assumption
  · apply keeps_State_commandNow (w := w.of)
    · assumption
    · intro x1
      intro k2
      apply keeps_State_clear (w := w.of)
      assumption

theorem keeps_execStorageFlush (a1 : Path) (a2 : State) (h2 : Keeps S z a2) (w : Sub [.objs, .sessions, .cmds, .irq,
    .jour, .sent, .stor] S) : KeepsA S z (execStorageFlush a1 a2) := by
  unfold execStorageFlush
  apply keeps_onPath
  · assumption
  · apply keeps_State_command (w := w.of)
    · assumption
    · intro x1
      intro k2
      extract_lets +onlyGivenNames y3
      clear_value y3
      extract_lets +onlyGivenNames y4
      have k4 : Keeps S z y4 := by
        unfold y4
        apply keeps_forAll
        · intro x5
          intro x6
          intro k7
          apply keeps_State_updPcie (w := w.of)
          assumption
        · assumption
      clear_value y4
      extract_lets +onlyGivenNames y8
      have k8 : Keeps S z y8 := by
        unfold y8
        apply keeps_State_updStore (w := w.of)
        assumption
      clear_value y8
      refine keeps_ite ?_ ?_
      · apply keeps_State_cmdCommit (w := w.of)
        assumption
      · apply keeps_forAll
        · intro x9
          intro x10
          intro k11
          apply keeps_State_issue (w := w.of)
          assumption
        · assumption

theorem keeps_execBusMasterDisable (a1 : MasterWrite) (a2 : State) (h2 : Keeps S z a2) (w : Sub [.stor] S) : KeepsA S
    z (execBusMasterDisable a1 a2) := by
  unfold execBusMasterDisable
  apply keeps_onPort
  · assumption
  · refine keeps_ite ?_ ?_
    · apply keeps_State_updPcie (w := w.of)
      assumption
    · assumption

theorem keeps_State_dramEnabled (a1 : State) (a2 : Nat) (a3 : Nat) (a4 : Bytes) (h1 : Keeps S z a1) (w : Sub [.dram]
    S) : Keeps S z (State.dramEnabled a1 a2 a3 a4) := by
  unfold State.dramEnabled
  apply keeps_forAll
  · intro x1
    intro x2
    intro k3
    apply keeps_State_dramPut (w := w.of)
    assumption
  · assumption

theorem keeps_execRootPortDeviceRequest (a1 : Nat) (a2 : Bool) (a3 : Nat) (a4 : Nat) (a5 : Nat) (a6 : Nat) (a7 :
    TlpData) (a8 : State) (h8 : Keeps S z a8) (w : Sub [.objs, .irq, .jour, .rates, .sent, .fabric, .stor, .dram] S) :
    KeepsA S z (execRootPortDeviceRequest a1 a2 a3 a4 a5 a6 a7 a8) := by
  unfold execRootPortDeviceRequest
  apply keeps_onPort
  · assumption
  · refine keeps_ite ?_ ?_
    · assumption
    · apply keeps_State_tlpIn (w := w.of)
      · assumption
      · intro x1
        intro k2
        extract_lets +onlyGivenNames y3
        clear_value y3
        extract_lets +onlyGivenNames y4
        clear_value y4
        refine keeps_ite ?_ ?_
        · refine keeps_ite ?_ ?_
          · apply keeps_State_dramEnabled (w := w.of)
            apply keeps_State_stagingTakes (w := w.of)
            assumption
          · apply keeps_State_complete (w := w.of)
            assumption
        · refine keeps_ite ?_ ?_
          · refine keeps_ite ?_ ?_
            · apply keeps_State_windowWrite (w := w.of)
              assumption
            · apply keeps_State_windowRead (w := w.of)
              assumption
          · refine keeps_ite ?_ ?_
            · assumption
            · extract_lets +onlyGivenNames y5
              have k5 : Keeps S z y5 := by
                unfold y5
                apply keeps_State_pcieErrors (w := w.of)
                assumption
              clear_value y5
              refine keeps_ite ?_ ?_
              · assumption
              · apply keeps_State_complete (w := w.of)
                assumption

theorem keeps_execPcieClearCounters (a1 : Path) (a2 : Nat) (a3 : State) (h3 : Keeps S z a3) (w : Sub [.objs,
    .sessions, .cmds, .irq, .jour] S) : KeepsA S z (execPcieClearCounters a1 a2 a3) := by
  unfold execPcieClearCounters
  apply keeps_onPath
  · assumption
  · apply keeps_State_commandNow (w := w.of)
    · assumption
    · intro x1
      intro k2
      apply keeps_State_clear (w := w.of)
      assumption

theorem keeps_State_updSvc (a1 : State) (a2 : SvcDev → SvcDev) (h1 : Keeps S z a1) (w : Sub [.svc] S) : Keeps S z
    (State.updSvc a1 a2) := by
  unfold State.updSvc
  refine keeps_mk ?_ (w_svc := .inr w.has)
  assumption

theorem keeps_State_svcGo (a1 : State) (a2 : Nat) (h1 : Keeps S z a1) (w : Sub [.objs, .irq, .jour] S) : Keeps S z
    (State.svcGo a1 a2) := by
  unfold State.svcGo
  extract_lets +onlyGivenNames y1
  clear_value y1
  refine keeps_ite ?_ ?_
  · assumption
  · apply keeps_State_ev (w := w.of)
    apply keeps_State_set (w := w.of)
    assumption

theorem keeps_State_freshEps (a1 : State) (a2 : List Nat) (h1 : Keeps S z a1) (w : Sub [.objs, .irq] S) : Keeps S z
    (State.freshEps a1 a2) := by
  unfold State.freshEps
  extract_lets +onlyGivenNames y1
  clear_value y1
  extract_lets +onlyGivenNames y2
  have k2 : Keeps S z y2 := by
    unfold y2
    apply keeps_State_clear (w := w.of)
    assumption
  clear_value y2
  refine keeps_ite ?_ ?_
  · apply keeps_State_raise (w := w.of)
    assumption
  · assumption

theorem keeps_State_svcQueue (a1 : State) (a2 : Nat) (a3 : List Bytes) (h1 : Keeps S z a1) (w : Sub [.svc] S) : Keeps
    S z (State.svcQueue a1 a2 a3) := by
  unfold State.svcQueue
  apply keeps_State_updSvc (w := w.of)
  assumption

theorem keeps_State_setSvcBuf (a1 : State) (a2 : Nat) (a3 : Bool) (a4 : Nat) (a5 : SvcBuf) (h1 : Keeps S z a1) (w :
    Sub [.svc] S) : Keeps S z (State.setSvcBuf a1 a2 a3 a4 a5) := by
  unfold State.setSvcBuf
  apply keeps_State_updSvc (w := w.of)
  assumption

theorem keeps_State_nextTurn (a1 : State) (a2 : Nat) (a3 : Bool) (h1 : Keeps S z a1) (w : Sub [.svc] S) : Keeps S z
    (State.nextTurn a1 a2 a3) := by
  unfold State.nextTurn
  extract_lets +onlyGivenNames y1
  clear_value y1
  apply keeps_State_updSvc (w := w.of)
  assumption

theorem keeps_State_svcReply (a1 : State) (a2 : Bytes) (h1 : Keeps S z a1) (w : Sub [.svc] S) : Keeps S z
    (State.svcReply a1 a2) := by
  unfold State.svcReply
  apply keeps_State_svcQueue (w := w.of)
  assumption

theorem keeps_State_svcDetach (a1 : State) (h1 : Keeps S z a1) (w : Sub [.objs, .sessions, .irq, .jour, .sent, .svc]
    S) : Keeps S z (State.svcDetach a1) := by
  unfold State.svcDetach
  refine keeps_ite ?_ ?_
  · assumption
  · extract_lets +onlyGivenNames y1
    have k1 : Keeps S z y1 := by
      unfold y1
      apply keeps_State_send (w := w.of)
      apply keeps_State_svcGo (w := w.of)
      assumption
    extract_lets +onlyGivenNames y2
    have k2 : Keeps S z y2 := by
      unfold y2
      apply keeps_State_setAll (w := w.of)
      assumption
    extract_lets +onlyGivenNames y3
    have k3 : Keeps S z y3 := by
      unfold y3
      refine keeps_mk ?_ (w_svc := .inr w.has)
      assumption
    extract_lets +onlyGivenNames y4
    have k4 : Keeps S z y4 := by
      unfold y4
      apply keeps_State_endSession (w := w.of)
      assumption
    refine keeps_ite ?_ ?_
    · apply keeps_State_ev (w := w.of)
      apply keeps_State_set (w := w.of)
      apply keeps_State_cmdFail (w := w.of)
      assumption
    · assumption

theorem keeps_State_svcAddress (a1 : State) (a2 : Nat) (h1 : Keeps S z a1) (w : Sub [.objs, .irq, .jour] S) : Keeps S
    z (State.svcAddress a1 a2) := by
  unfold State.svcAddress
  refine keeps_ite ?_ ?_
  · apply keeps_State_svcGo (w := w.of)
    apply keeps_State_set (w := w.of)
    assumption
  · assumption

theorem keeps_State_svcConfigure (a1 : State) (a2 : Nat) (h1 : Keeps S z a1) (w : Sub [.objs, .irq, .jour, .svc] S) :
    Keeps S z (State.svcConfigure a1 a2) := by
  unfold State.svcConfigure
  refine keeps_ite ?_ ?_
  · apply keeps_State_svcGo (w := w.of)
    apply keeps_State_freshEps (w := w.of)
    apply keeps_State_updSvc (w := w.of)
    assumption
  · assumption

theorem keeps_State_svcInterface (a1 : State) (a2 : Nat) (a3 : Nat) (h1 : Keeps S z a1) (w : Sub [.objs, .irq] S) :
    Keeps S z (State.svcInterface a1 a2 a3) := by
  unfold State.svcInterface
  refine keeps_ite ?_ ?_
  · apply keeps_State_freshEps (w := w.of)
    assumption
  · assumption

theorem keeps_State_svcHalt (a1 : State) (a2 : Nat) (a3 : Bool) (a4 : Bool) (h1 : Keeps S z a1) (w : Sub [.objs, .irq]
    S) : Keeps S z (State.svcHalt a1 a2 a3 a4) := by
  unfold State.svcHalt
  refine keeps_ite ?_ ?_
  · assumption
  · extract_lets +onlyGivenNames y1
    clear_value y1
    extract_lets +onlyGivenNames y2
    have k2 : Keeps S z y2 := by
      unfold y2
      apply keeps_State_set (w := w.of)
      assumption
    clear_value y2
    extract_lets +onlyGivenNames y3
    have k3 : Keeps S z y3 := by
      unfold y3
      refine keeps_ite ?_ ?_
      · assumption
      · apply keeps_State_set (w := w.of)
        assumption
    clear_value y3
    refine keeps_ite ?_ ?_
    · assumption
    · apply keeps_State_raise (w := w.of)
      assumption

theorem keeps_State_takePlan (a1 : State) (h1 : Keeps S z a1) (w : Sub [.objs, .svc] S) : Keeps S z (State.takePlan
    a1) := by
  unfold State.takePlan
  extract_lets +onlyGivenNames y1
  clear_value y1
  apply keeps_State_set (w := w.of)
  apply keeps_State_updSvc (w := w.of)
  assumption

theorem keeps_State_updLane (a1 : State) (a2 : Nat) (a3 : Nat) (a4 : Lane → Lane) (h1 : Keeps S z a1) (w : Sub
    [.trunks] S) : Keeps S z (State.updLane a1 a2 a3 a4) := by
  unfold State.updLane
  apply keeps_State_updTrunk (w := w.of)
  assumption

theorem keeps_State_trunkEv (a1 : State) (a2 : Nat) (a3 : Nat) (a4 : Nat) (a5 : Nat) (a6 : Bytes) (h1 : Keeps S z a1)
    (w : Sub [.irq, .jour] S) : Keeps S z (State.trunkEv a1 a2 a3 a4 a5 a6) := by
  unfold State.trunkEv
  apply keeps_State_ev (w := w.of)
  assumption

theorem keeps_State_cmdEnd (a1 : State) (a2 : Nat) (h1 : Keeps S z a1) (w : Sub [.objs] S) : Keeps S z (State.cmdEnd
    a1 a2) := by
  unfold State.cmdEnd
  refine keeps_ite ?_ ?_
  · apply keeps_State_cmdFail (w := w.of)
    assumption
  · assumption

theorem keeps_State_showCap (a1 : State) (a2 : Nat) (a3 : Nat) (h1 : Keeps S z a1) (w : Sub [.objs] S) : Keeps S z
    (State.showCap a1 a2 a3) := by
  unfold State.showCap
  apply keeps_State_set (w := w.of)
  assumption

theorem keeps_State_sendLane (a1 : State) (a2 : Nat) (a3 : Nat) (h1 : Keeps S z a1) (w : Sub [.sent] S) : Keeps S z
    (State.sendLane a1 a2 a3) := by
  unfold State.sendLane
  apply keeps_State_send (w := w.of)
  assumption

theorem keeps_State_sendTraining (a1 : State) (a2 : Nat) (h1 : Keeps S z a1) (w : Sub [.sent] S) : Keeps S z
    (State.sendTraining a1 a2) := by
  unfold State.sendTraining
  refine keeps_ite ?_ ?_
  · apply keeps_forAll
    · intro x1
      intro x2
      intro k3
      apply keeps_State_sendLane (w := w.of)
      assumption
    · apply keeps_State_send (w := w.of)
      assumption
  · apply keeps_forAll
    · intro x4
      intro x5
      intro k6
      apply keeps_State_sendLane (w := w.of)
      assumption
    · assumption

theorem keeps_State_enter (a1 : State) (a2 : Nat) (a3 : Nat) (h1 : Keeps S z a1) (w : Sub [.objs, .timers, .sent,
    .trunks] S) : Keeps S z (State.enter a1 a2 a3) := by
  unfold State.enter
  extract_lets +onlyGivenNames y1
  have k1 : Keeps S z y1 := by
    unfold y1
    apply keeps_State_setAll (w := w.of)
    apply keeps_State_stopAll (w := w.of)
    assumption
  clear_value y1
  apply keeps_State_sendTraining (w := w.of)
  apply keeps_State_updTrunk (w := w.of)
  assumption

theorem keeps_State_showLanes (a1 : State) (a2 : Nat) (a3 : Nat) (h1 : Keeps S z a1) (w : Sub [.objs] S) : Keeps S z
    (State.showLanes a1 a2 a3) := by
  unfold State.showLanes
  apply keeps_State_setAll (w := w.of)
  assumption

theorem keeps_State_dropHeld (a1 : State) (a2 : Nat) (h1 : Keeps S z a1) (w : Sub [.objs, .trunks] S) : Keeps S z
    (State.dropHeld a1 a2) := by
  unfold State.dropHeld
  apply keeps_State_updTrunk (w := w.of)
  apply keeps_State_countSat (w := w.of)
  assumption

theorem keeps_State_systemDown (a1 : State) (h1 : Keeps S z a1) (w : Sub [.objs] S) : Keeps S z (State.systemDown a1)
    := by
  unfold State.systemDown
  refine keeps_ite ?_ ?_
  · assumption
  · apply keeps_State_setAll (w := w.of)
    assumption

theorem keeps_State_untrain (a1 : State) (a2 : Nat) (h1 : Keeps S z a1) (w : Sub [.objs, .freeCount, .timers,
    .sessions, .irq, .jour, .rates, .sent, .trunks, .tunnels, .fabric, .scheds, .disps, .usb, .pl, .stor, .fld] S) :
    Keeps S z (State.untrain a1 a2) := by
  unfold State.untrain
  extract_lets +onlyGivenNames y1
  clear_value y1
  extract_lets +onlyGivenNames y2
  have k2 : Keeps S z y2 := by
    unfold y2
    apply keeps_State_setAll (w := w.of)
    apply keeps_State_cmdEnd (w := w.of)
    apply keeps_State_flushCycle (w := w.of)
    assumption
  clear_value y2
  refine keeps_ite ?_ ?_
  · apply keeps_State_tunnelsDown (w := w.of)
    apply keeps_State_endTrunkSessions (w := w.of)
    apply keeps_State_systemDown (w := w.of)
    apply keeps_State_onUntrained (w := w.of)
    apply keeps_State_dropHeld (w := w.of)
    assumption
  · assumption

theorem keeps_State_toDetect (a1 : State) (a2 : Nat) (h1 : Keeps S z a1) (w : Sub [.objs, .freeCount, .timers,
    .sessions, .irq, .jour, .rates, .sent, .trunks, .tunnels, .fabric, .scheds, .disps, .usb, .pl, .stor, .fld] S) :
    Keeps S z (State.toDetect a1 a2) := by
  unfold State.toDetect
  extract_lets +onlyGivenNames y1
  have k1 : Keeps S z y1 := by
    unfold y1
    apply keeps_State_updTrunk (w := w.of)
    apply keeps_State_untrain (w := w.of)
    assumption
  clear_value y1
  apply keeps_State_enter (w := w.of)
  apply keeps_State_showCap (w := w.of)
  apply keeps_State_showLanes (w := w.of)
  assumption

theorem keeps_State_trunkOff (a1 : State) (a2 : Nat) (h1 : Keeps S z a1) (w : Sub [.objs, .freeCount, .timers,
    .sessions, .irq, .jour, .rates, .sent, .trunks, .tunnels, .fabric, .scheds, .disps, .usb, .pl, .stor, .fld] S) :
    Keeps S z (State.trunkOff a1 a2) := by
  unfold State.trunkOff
  extract_lets +onlyGivenNames y1
  have k1 : Keeps S z y1 := by
    unfold y1
    apply keeps_State_cmdEnd (w := w.of)
    apply keeps_State_untrain (w := w.of)
    assumption
  clear_value y1
  extract_lets +onlyGivenNames y2
  have k2 : Keeps S z y2 := by
    unfold y2
    apply keeps_State_stopAll (w := w.of)
    apply keeps_State_updTrunk (w := w.of)
    assumption
  clear_value y2
  apply keeps_State_send (w := w.of)
  apply keeps_State_showLanes (w := w.of)
  apply keeps_State_setAll (w := w.of)
  assumption

theorem keeps_State_toHeld (a1 : State) (a2 : Nat) (a3 : Nat) (h1 : Keeps S z a1) (w : Sub [.objs, .timers, .irq,
    .jour, .sent, .trunks] S) : Keeps S z (State.toHeld a1 a2 a3) := by
  unfold State.toHeld
  extract_lets +onlyGivenNames y1
  clear_value y1
  extract_lets +onlyGivenNames y2
  have k2 : Keeps S z y2 := by
    unfold y2
    apply keeps_State_start (w := w.of)
    apply keeps_State_set (w := w.of)
    apply keeps_State_enter (w := w.of)
    assumption
  clear_value y2
  extract_lets +onlyGivenNames y3
  have k3 : Keeps S z y3 := by
    unfold y3
    apply keeps_State_updTrunk (w := w.of)
    assumption
  clear_value y3
  refine keeps_ite ?_ ?_
  · assumption
  · apply keeps_State_trunkEv (w := w.of)
    assumption

theorem keeps_State_toRateChange (a1 : State) (a2 : Nat) (h1 : Keeps S z a1) (w : Sub [.objs, .timers, .sent, .trunks]
    S) : Keeps S z (State.toRateChange a1 a2) := by
  unfold State.toRateChange
  apply keeps_State_enter (w := w.of)
  apply keeps_State_showCap (w := w.of)
  assumption

theorem keeps_State_nextMode (a1 : State) (a2 : Nat) (a3 : Nat) (h1 : Keeps S z a1) (w : Sub [.objs, .timers, .irq,
    .jour, .rates, .sent, .trunks] S) : Keeps S z (State.nextMode a1 a2 a3) := by
  unfold State.nextMode
  extract_lets +onlyGivenNames y1
  clear_value y1
  extract_lets +onlyGivenNames y2
  have k2 : Keeps S z y2 := by
    unfold y2
    apply keeps_State_updTrunk (w := w.of)
    apply keeps_State_cmdEnd (w := w.of)
    assumption
  clear_value y2
  extract_lets +onlyGivenNames y3
  have k3 : Keeps S z y3 := by
    unfold y3
    apply keeps_State_flushCycle (w := w.of)
    assumption
  clear_value y3
  extract_lets +onlyGivenNames y4
  have k4 : Keeps S z y4 := by
    unfold y4
    apply keeps_State_trunkEv (w := w.of)
    assumption
  clear_value y4
  refine keeps_ite ?_ ?_
  · apply keeps_State_toHeld (w := w.of)
    assumption
  · apply keeps_State_toRateChange (w := w.of)
    assumption

theorem keeps_State_setDone (a1 : State) (a2 : Nat) (h1 : Keeps S z a1) (w : Sub [.sent, .trunks] S) : Keeps S z
    (State.setDone a1 a2) := by
  unfold State.setDone
  refine keeps_ite ?_ ?_
  · assumption
  · apply keeps_State_sendTraining (w := w.of)
    apply keeps_State_updTrunk (w := w.of)
    assumption

theorem keeps_State_recordLanes (a1 : State) (a2 : Nat) (h1 : Keeps S z a1) (w : Sub [.objs] S) : Keeps S z
    (State.recordLanes a1 a2) := by
  unfold State.recordLanes
  apply keeps_forAll
  · intro x1
    intro x2
    intro k3
    split
    · apply keeps_State_setAll (w := w.of)
      assumption
    · assumption
  · assumption

theorem keeps_State_laneLost (a1 : State) (a2 : Nat) (a3 : Nat) (a4 : Nat) (h1 : Keeps S z a1) (w : Sub [.objs, .irq,
    .jour, .trunks] S) : Keeps S z (State.laneLost a1 a2 a3 a4) := by
  unfold State.laneLost
  extract_lets +onlyGivenNames y1
  have k1 : Keeps S z y1 := by
    unfold y1
    apply keeps_State_setAll (w := w.of)
    assumption
  clear_value y1
  extract_lets +onlyGivenNames y2
  have k2 : Keeps S z y2 := by
    unfold y2
    apply keeps_State_set (w := w.of)
    apply keeps_State_countSat (w := w.of)
    assumption
  clear_value y2
  extract_lets +onlyGivenNames y3
  have k3 : Keeps S z y3 := by
    unfold y3
    apply keeps_State_updLane (w := w.of)
    assumption
  clear_value y3
  extract_lets +onlyGivenNames y4
  have k4 : Keeps S z y4 := by
    unfold y4
    apply keeps_State_updTrunk (w := w.of)
    assumption
  clear_value y4
  apply keeps_State_trunkEv (w := w.of)
  assumption

theorem keeps_State_laneBack (a1 : State) (a2 : Nat) (a3 : Nat) (h1 : Keeps S z a1) (w : Sub [.objs, .irq, .jour,
    .trunks] S) : Keeps S z (State.laneBack a1 a2 a3) := by
  unfold State.laneBack
  extract_lets +onlyGivenNames y1
  clear_value y1
  refine keeps_ite ?_ ?_
  · extract_lets +onlyGivenNames y2
    have k2 : Keeps S z y2 := by
      unfold y2
      apply keeps_State_setAll (w := w.of)
      assumption
    clear_value y2
    extract_lets +onlyGivenNames y3
    have k3 : Keeps S z y3 := by
      unfold y3
      apply keeps_State_set (w := w.of)
      assumption
    clear_value y3
    extract_lets +onlyGivenNames y4
    have k4 : Keeps S z y4 := by
      unfold y4
      apply keeps_State_updLane (w := w.of)
      assumption
    clear_value y4
    apply keeps_State_trunkEv (w := w.of)
    assumption
  · assumption

theorem keeps_State_planStart (a1 : State) (a2 : Nat) (h1 : Keeps S z a1) (w : Sub [.objs] S) : Keeps S z
    (State.planStart a1 a2) := by
  unfold State.planStart
  apply keeps_State_setAll (w := w.of)
  assumption

theorem keeps_State_toTrained (a1 : State) (a2 : Nat) (h1 : Keeps S z a1) (w : Sub [.objs, .freeCount, .timers, .irq,
    .jour, .rates, .sent, .trunks, .tunnels, .fabric, .scheds, .disps, .usb, .pl, .stor, .fld] S) : Keeps S z
    (State.toTrained a1 a2) := by
  unfold State.toTrained
  extract_lets +onlyGivenNames y1
  clear_value y1
  extract_lets +onlyGivenNames y2
  clear_value y2
  extract_lets +onlyGivenNames y3
  clear_value y3
  extract_lets +onlyGivenNames y4
  have k4 : Keeps S z y4 := by
    unfold y4
    apply keeps_State_setAll (w := w.of)
    apply keeps_State_stopAll (w := w.of)
    assumption
  clear_value y4
  extract_lets +onlyGivenNames y5
  have k5 : Keeps S z y5 := by
    unfold y5
    apply keeps_State_setAll (w := w.of)
    apply keeps_State_showLanes (w := w.of)
    assumption
  clear_value y5
  extract_lets +onlyGivenNames y6
  have k6 : Keeps S z y6 := by
    unfold y6
    apply keeps_State_set (w := w.of)
    assumption
  clear_value y6
  extract_lets +onlyGivenNames y7
  have k7 : Keeps S z y7 := by
    unfold y7
    apply keeps_State_updTrunk (w := w.of)
    apply keeps_State_flushCycle (w := w.of)
    assumption
  clear_value y7
  extract_lets +onlyGivenNames y8
  have k8 : Keeps S z y8 := by
    unfold y8
    apply keeps_forAll
    · intro x9
      intro x10
      intro k11
      apply keeps_State_set (w := w.of)
      apply keeps_State_updTun (w := w.of)
      assumption
    · assumption
  clear_value y8
  extract_lets +onlyGivenNames y12
  have k12 : Keeps S z y12 := by
    unfold y12
    apply keeps_State_onTrained (w := w.of)
    apply keeps_State_start (w := w.of)
    assumption
  clear_value y12
  extract_lets +onlyGivenNames y13
  have k13 : Keeps S z y13 := by
    unfold y13
    apply keeps_State_trunkEv (w := w.of)
    assumption
  clear_value y13
  extract_lets +onlyGivenNames y14
  have k14 : Keeps S z y14 := by
    unfold y14
    apply keeps_State_planStart (w := w.of)
    assumption
  clear_value y14
  extract_lets +onlyGivenNames y15
  have k15 : Keeps S z y15 := by
    unfold y15
    apply keeps_forAll
    · intro x16
      intro x17
      intro k18
      apply keeps_State_laneLost (w := w.of)
      assumption
    · assumption
  clear_value y15
  apply keeps_State_tunnelsUp (w := w.of)
  assumption

theorem keeps_State_recordRemote (a1 : State) (a2 : Nat) (a3 : Bytes) (h1 : Keeps S z a1) (w : Sub [.objs] S) : Keeps
    S z (State.recordRemote a1 a2 a3) := by
  unfold State.recordRemote
  apply keeps_State_setAll (w := w.of)
  assumption

theorem keeps_State_judgeCaps (a1 : State) (a2 : Nat) (h1 : Keeps S z a1) (w : Sub [.objs, .timers, .irq, .jour,
    .sent, .trunks] S) : Keeps S z (State.judgeCaps a1 a2) := by
  unfold State.judgeCaps
  extract_lets +onlyGivenNames y1
  clear_value y1
  refine keeps_ite ?_ ?_
  · apply keeps_State_toHeld (w := w.of)
    assumption
  · refine keeps_ite ?_ ?_
    · apply keeps_State_toHeld (w := w.of)
      assumption
    · apply keeps_State_toRateChange (w := w.of)
      apply keeps_State_updTrunk (w := w.of)
      assumption

theorem keeps_State_toEqualise (a1 : State) (a2 : Nat) (h1 : Keeps S z a1) (w : Sub [.objs, .timers, .irq, .jour,
    .sent, .trunks] S) : Keeps S z (State.toEqualise a1 a2) := by
  unfold State.toEqualise
  extract_lets +onlyGivenNames y1
  have k1 : Keeps S z y1 := by
    unfold y1
    apply keeps_State_enter (w := w.of)
    assumption
  clear_value y1
  refine keeps_ite ?_ ?_
  · extract_lets +onlyGivenNames y2
    have k2 : Keeps S z y2 := by
      unfold y2
      apply keeps_State_start (w := w.of)
      apply keeps_State_set (w := w.of)
      assumption
    clear_value y2
    apply keeps_State_trunkEv (w := w.of)
    apply keeps_State_updTrunk (w := w.of)
    assumption
  · apply keeps_State_start (w := w.of)
    assumption

theorem keeps_State_toVerify (a1 : State) (a2 : Nat) (h1 : Keeps S z a1) (w : Sub [.objs, .freeCount, .timers, .sent,
    .trunks] S) : Keeps S z (State.toVerify a1 a2) := by
  unfold State.toVerify
  split
  extract_lets +onlyGivenNames y1
  clear_value y1
  extract_lets +onlyGivenNames y2
  have k2 : Keeps S z y2 := by
    unfold y2
    apply keeps_State_updTrunk (w := w.of)
    refine keeps_pair (by assumption) ?_
    apply keeps_State_draw (w := w.of)
    assumption
  clear_value y2
  extract_lets +onlyGivenNames y3
  have k3 : Keeps S z y3 := by
    unfold y3
    apply keeps_forAll
    · intro x4
      intro x5
      intro k6
      apply keeps_State_updLane (w := w.of)
      assumption
    · apply keeps_State_enter (w := w.of)
      assumption
  clear_value y3
  apply keeps_State_start (w := w.of)
  assumption

theorem keeps_State_advanceOnce (a1 : State) (a2 : Nat) (h1 : Keeps S z a1) (w : Sub [.objs, .freeCount, .timers,
    .irq, .jour, .rates, .sent, .trunks, .tunnels, .fabric, .scheds, .disps, .usb, .pl, .stor, .fld] S) : Keeps S z
    (State.advanceOnce a1 a2) := by
  unfold State.advanceOnce
  extract_lets +onlyGivenNames y1
  clear_value y1
  split
  · extract_lets +onlyGivenNames y2
    have k2 : Keeps S z y2 := by
      unfold y2
      refine keeps_ite ?_ ?_
      · apply keeps_State_setDone (w := w.of)
        assumption
      · assumption
    clear_value y2
    refine keeps_ite ?_ ?_
    · apply keeps_State_start (w := w.of)
      apply keeps_State_enter (w := w.of)
      assumption
    · assumption
  · extract_lets +onlyGivenNames y3
    have k3 : Keeps S z y3 := by
      unfold y3
      refine keeps_ite ?_ ?_
      · apply keeps_State_setDone (w := w.of)
        assumption
      · assumption
    clear_value y3
    refine keeps_ite ?_ ?_
    · apply keeps_State_start (w := w.of)
      apply keeps_State_enter (w := w.of)
      assumption
    · assumption
  · extract_lets +onlyGivenNames y4
    have k4 : Keeps S z y4 := by
      unfold y4
      refine keeps_ite ?_ ?_
      · apply keeps_State_setDone (w := w.of)
        apply keeps_State_recordLanes (w := w.of)
        assumption
      · assumption
    clear_value y4
    refine keeps_ite ?_ ?_
    · apply keeps_State_start (w := w.of)
      apply keeps_State_enter (w := w.of)
      apply keeps_State_showCap (w := w.of)
      assumption
    · assumption
  · refine keeps_ite ?_ ?_
    · apply keeps_State_judgeCaps (w := w.of)
      assumption
    · assumption
  · refine keeps_ite ?_ ?_
    · refine keeps_ite ?_ ?_
      · apply keeps_State_toEqualise (w := w.of)
        assumption
      · assumption
    · refine keeps_ite ?_ ?_
      · apply keeps_State_start (w := w.of)
        assumption
      · assumption
  · refine keeps_ite ?_ ?_
    · apply keeps_State_toVerify (w := w.of)
      assumption
    · assumption
  · refine keeps_ite ?_ ?_
    · apply keeps_State_toTrained (w := w.of)
      assumption
    · assumption
  · assumption

theorem keeps_State_advance (a1 : State) (a2 : Nat) (h1 : Keeps S z a1) (w : Sub [.objs, .freeCount, .timers, .irq,
    .jour, .rates, .sent, .trunks, .tunnels, .fabric, .scheds, .disps, .usb, .pl, .stor, .fld] S) : Keeps S z
    (State.advance a1 a2) := by
  unfold State.advance
  apply keeps_foldl
  · assumption
  · intro x1
    intro k2
    intro x3
    apply keeps_State_advanceOnce (w := w.of)
    assumption

theorem keeps_State_leaveTrained (a1 : State) (a2 : Nat) (h1 : Keeps S z a1) (w : Sub [.objs, .freeCount, .timers,
    .sessions, .irq, .jour, .rates, .sent, .trunks, .tunnels, .fabric, .scheds, .disps, .usb, .pl, .stor, .fld] S) :
    Keeps S z (State.leaveTrained a1 a2) := by
  unfold State.leaveTrained
  refine keeps_ite ?_ ?_
  · apply keeps_State_trunkOff (w := w.of)
    assumption
  · apply keeps_State_toDetect (w := w.of)
    assumption

theorem keeps_State_trunkLost (a1 : State) (a2 : Nat) (a3 : Nat) (h1 : Keeps S z a1) (w : Sub [.objs, .freeCount,
    .timers, .sessions, .irq, .jour, .rates, .sent, .trunks, .tunnels, .fabric, .scheds, .disps, .usb, .pl, .stor,
    .fld, .safety] S) : Keeps S z (State.trunkLost a1 a2 a3) := by
  unfold State.trunkLost
  extract_lets +onlyGivenNames y1
  clear_value y1
  extract_lets +onlyGivenNames y2
  clear_value y2
  extract_lets +onlyGivenNames y3
  have k3 : Keeps S z y3 := by
    unfold y3
    refine keeps_ite ?_ ?_
    · apply keeps_State_latchSf (w := w.of)
      assumption
    · assumption
  clear_value y3
  extract_lets +onlyGivenNames y4
  have k4 : Keeps S z y4 := by
    unfold y4
    apply keeps_State_leaveTrained (w := w.of)
    apply keeps_State_count (w := w.of)
    apply keeps_State_cmdEnd (w := w.of)
    assumption
  clear_value y4
  apply keeps_State_advance (w := w.of)
  apply keeps_State_trunkEv (w := w.of)
  assumption

theorem keeps_State_lossCheck (a1 : State) (a2 : Nat) (h1 : Keeps S z a1) (w : Sub [.objs, .freeCount, .timers,
    .sessions, .irq, .jour, .rates, .sent, .trunks, .tunnels, .fabric, .scheds, .disps, .usb, .pl, .stor, .fld,
    .safety] S) : Keeps S z (State.lossCheck a1 a2) := by
  unfold State.lossCheck
  refine keeps_ite ?_ ?_
  · assumption
  · extract_lets +onlyGivenNames y1
    clear_value y1
    refine keeps_ite ?_ ?_
    · refine keeps_ite ?_ ?_
      · apply keeps_State_trunkLost (w := w.of)
        assumption
      · assumption
    · refine keeps_ite ?_ ?_
      · apply keeps_State_trunkLost (w := w.of)
        assumption
      · assumption

theorem keeps_State_retry (a1 : State) (a2 : Nat) (h1 : Keeps S z a1) (w : Sub [.objs, .freeCount, .timers, .sessions,
    .irq, .jour, .rates, .sent, .trunks, .tunnels, .fabric, .scheds, .disps, .usb, .pl, .stor, .fld] S) : Keeps S z
    (State.retry a1 a2) := by
  unfold State.retry
  apply keeps_State_advance (w := w.of)
  apply keeps_State_leaveTrained (w := w.of)
  assumption

theorem keeps_State_tryAgain (a1 : State) (a2 : Nat) (h1 : Keeps S z a1) (w : Sub [.objs, .freeCount, .timers,
    .sessions, .irq, .jour, .rates, .sent, .trunks, .tunnels, .fabric, .scheds, .disps, .usb, .pl, .stor, .fld] S) :
    Keeps S z (State.tryAgain a1 a2) := by
  unfold State.tryAgain
  apply keeps_State_retry (w := w.of)
  apply keeps_State_count (w := w.of)
  assumption

theorem keeps_State_trunkOn (a1 : State) (a2 : Nat) (h1 : Keeps S z a1) (w : Sub [.objs, .freeCount, .timers,
    .sessions, .irq, .jour, .rates, .sent, .trunks, .tunnels, .fabric, .scheds, .disps, .usb, .pl, .stor, .fld] S) :
    Keeps S z (State.trunkOn a1 a2) := by
  unfold State.trunkOn
  refine keeps_ite ?_ ?_
  · apply keeps_State_retry (w := w.of)
    assumption
  · assumption

theorem keeps_State_settleTrunk (a1 : State) (a2 : Nat) (h1 : Keeps S z a1) (w : Sub [.objs, .freeCount, .timers,
    .sessions, .irq, .jour, .rates, .sent, .trunks, .tunnels, .fabric, .scheds, .disps, .usb, .pl, .stor, .fld] S) :
    Keeps S z (State.settleTrunk a1 a2) := by
  unfold State.settleTrunk
  refine keeps_ite ?_ ?_
  · apply keeps_State_trunkOff (w := w.of)
    assumption
  · assumption

theorem keeps_State_settle (a1 : State) (h1 : Keeps S z a1) (w : Sub [.objs, .freeCount, .timers, .sessions, .irq,
    .jour, .rates, .sent, .trunks, .tunnels, .fabric, .scheds, .disps, .usb, .pl, .stor, .fld] S) : Keeps S z
    (State.settle a1) := by
  unfold State.settle
  apply keeps_forAll
  · intro x1
    intro x2
    intro k3
    apply keeps_State_settleTrunk (w := w.of)
    assumption
  · assumption

theorem keeps_State_closeTrunk (a1 : State) (a2 : Nat) (h1 : Keeps S z a1) (w : Sub [.objs, .freeCount, .timers,
    .sessions, .irq, .jour, .rates, .sent, .trunks, .tunnels, .fabric, .scheds, .disps, .usb, .pl, .stor, .fld] S) :
    Keeps S z (State.closeTrunk a1 a2) := by
  unfold State.closeTrunk
  refine keeps_ite ?_ ?_
  · apply keeps_State_settleTrunk (w := w.of)
    apply keeps_State_drainTrunk (w := w.of)
    apply keeps_State_updTrunk (w := w.of)
    assumption
  · refine keeps_ite ?_ ?_
    · assumption
    · apply keeps_State_trunkOff (w := w.of)
      assumption

theorem keeps_State_startRetrain (a1 : State) (a2 : Nat) (a3 : Nat) (h1 : Keeps S z a1) (w : Sub [.objs, .freeCount,
    .timers, .irq, .jour, .rates, .sent, .trunks, .tunnels, .fabric, .disps, .usb, .stor, .fld] S) : Keeps S z
    (State.startRetrain a1 a2 a3) := by
  unfold State.startRetrain
  refine keeps_ite ?_ ?_
  · assumption
  · extract_lets +onlyGivenNames y1
    clear_value y1
    apply keeps_State_drainTrunk (w := w.of)
    apply keeps_State_updTrunk (w := w.of)
    assumption

theorem keeps_State_retrainCheck (a1 : State) (a2 : Nat) (h1 : Keeps S z a1) (w : Sub [.objs, .freeCount, .timers,
    .sessions, .irq, .jour, .rates, .sent, .trunks, .tunnels, .fabric, .scheds, .disps, .usb, .pl, .stor, .fld] S) :
    Keeps S z (State.retrainCheck a1 a2) := by
  unfold State.retrainCheck
  refine keeps_ite ?_ ?_
  · apply keeps_State_retry (w := w.of)
    assumption
  · assumption

theorem keeps_State_undoRetrain (a1 : State) (a2 : Nat) (h1 : Keeps S z a1) (w : Sub [.objs, .timers, .irq, .jour,
    .rates, .sent, .trunks, .tunnels, .fabric, .scheds, .disps, .usb, .stor] S) : Keeps S z (State.undoRetrain a1 a2)
    := by
  unfold State.undoRetrain
  refine keeps_ite ?_ ?_
  · apply keeps_State_updTrunk (w := w.of)
    assumption
  · extract_lets +onlyGivenNames y1
    have k1 : Keeps S z y1 := by
      unfold y1
      apply keeps_State_updTrunk (w := w.of)
      assumption
    clear_value y1
    apply keeps_forAll
    · intro x2
      intro x3
      intro k4
      apply keeps_State_tryStart (w := w.of)
      assumption
    · assumption

theorem keeps_State_heldWrite (a1 : State) (a2 : Nat) (h1 : Keeps S z a1) (w : Sub [.objs, .freeCount, .timers,
    .sessions, .irq, .jour, .rates, .sent, .trunks, .tunnels, .fabric, .scheds, .disps, .usb, .pl, .stor, .fld] S) :
    Keeps S z (State.heldWrite a1 a2) := by
  unfold State.heldWrite
  refine keeps_ite ?_ ?_
  · apply keeps_State_tryAgain (w := w.of)
    assumption
  · assumption

theorem keeps_State_laneWord (a1 : State) (a2 : Nat) (a3 : Nat) (a4 : Nat) (a5 : Bool) (a6 : Codeword) (h1 : Keeps S z
    a1) (w : Sub [.objs, .trunks] S) : Keeps S z (State.laneWord a1 a2 a3 a4 a5 a6) := by
  unfold State.laneWord
  extract_lets +onlyGivenNames y1
  clear_value y1
  extract_lets +onlyGivenNames y2
  have k2 : Keeps S z y2 := by
    unfold y2
    apply keeps_State_countSat (w := w.of)
    assumption
  clear_value y2
  refine keeps_ite ?_ ?_
  · apply keeps_State_updLane (w := w.of)
    apply keeps_State_countSat (w := w.of)
    assumption
  · refine keeps_ite ?_ ?_
    · extract_lets +onlyGivenNames y3
      have k3 : Keeps S z y3 := by
        unfold y3
        refine keeps_ite ?_ ?_
        · assumption
        · apply keeps_State_countSat (w := w.of)
          apply keeps_State_countSat (w := w.of)
          assumption
      clear_value y3
      extract_lets +onlyGivenNames y4
      have k4 : Keeps S z y4 := by
        unfold y4
        refine keeps_ite ?_ ?_
        · apply keeps_State_set (w := w.of)
          assumption
        · assumption
      clear_value y4
      apply keeps_State_updLane (w := w.of)
      assumption
    · apply keeps_State_updLane (w := w.of)
      apply keeps_State_countSat (w := w.of)
      assumption

theorem keeps_State_markerGot (a1 : State) (a2 : Nat) (a3 : Nat) (a4 : Nat) (h1 : Keeps S z a1) (w : Sub [.timers,
    .trunks, .pl] S) : Keeps S z (State.markerGot a1 a2 a3 a4) := by
  unfold State.markerGot
  apply keeps_State_start (w := w.of)
  apply keeps_State_keepRx (w := w.of)
  apply keeps_State_updTrunk (w := w.of)
  assumption

theorem keeps_State_groupFate (a1 : State) (a2 : Nat) (a3 : Nat) (a4 : List Nat) (a5 : Bool) (a6 : Bool) (a7 : Bool)
    (a8 : Nat) (h1 : Keeps S z a1) (w : Sub [.objs, .irq, .jour, .rates, .trunks] S) : Keeps S z (State.groupFate a1
    a2 a3 a4 a5 a6 a7 a8) := by
  unfold State.groupFate
  refine keeps_ite ?_ ?_
  · refine keeps_ite ?_ ?_
    · apply keeps_State_countSat (w := w.of)
      assumption
    · refine keeps_ite ?_ ?_
      · apply keeps_State_evCycle (w := w.of)
        apply keeps_State_countSat (w := w.of)
        assumption
      · assumption
  · refine keeps_ite ?_ ?_
    · apply keeps_State_countSat (w := w.of)
      apply keeps_State_countSat (w := w.of)
      assumption
    · apply keeps_State_evCycle (w := w.of)
      apply keeps_State_updTrunk (w := w.of)
      apply keeps_State_countSat (w := w.of)
      apply keeps_State_countSat (w := w.of)
      assumption

theorem keeps_State_markerPassed (a1 : State) (a2 : Nat) (h1 : Keeps S z a1) (w : Sub [.trunks] S) : Keeps S z
    (State.markerPassed a1 a2) := by
  unfold State.markerPassed
  apply keeps_State_updTrunk (w := w.of)
  assumption

theorem keeps_State_groupAfter (a1 : State) (a2 : Nat) (a3 : Nat) (a4 : Option Nat) (a5 : Nat) (a6 : Bool) (h1 : Keeps
    S z a1) (w : Sub [.objs, .freeCount, .timers, .sessions, .irq, .jour, .rates, .sent, .trunks, .tunnels, .fabric,
    .scheds, .disps, .usb, .pl, .stor, .fld, .safety] S) : Keeps S z (State.groupAfter a1 a2 a3 a4 a5 a6) := by
  unfold State.groupAfter
  extract_lets +onlyGivenNames y1
  have k1 : Keeps S z y1 := by
    unfold y1
    split
    · refine keeps_ite ?_ ?_
      · apply keeps_State_markerGot (w := w.of)
        assumption
      · apply keeps_State_markerPassed (w := w.of)
        apply keeps_State_countSat (w := w.of)
        assumption
    · assumption
  clear_value y1
  apply keeps_State_lossCheck (w := w.of)
  apply keeps_forAll
  · intro x2
    intro x3
    intro k4
    apply keeps_State_laneLost (w := w.of)
    assumption
  · apply keeps_forAll
    · intro x5
      intro x6
      intro k7
      apply keeps_State_laneBack (w := w.of)
      assumption
    · assumption

theorem keeps_State_groupCells (a1 : State) (a2 : Nat) (a3 : Bool) (a4 : Bool) (a5 : Nat) (h1 : Keeps S z a1) (w : Sub
    [.trunks] S) : Keeps S z (State.groupCells a1 a2 a3 a4 a5).1 := by
  unfold State.groupCells
  extract_lets +onlyGivenNames y1
  clear_value y1
  split
  extract_lets +onlyGivenNames y2
  clear_value y2
  dsimp only
  apply keeps_State_updTrunk (w := w.of)
  assumption

theorem keeps_State_lineIn (a1 : State) (a2 : Nat) (h1 : Keeps S z a1) (w : Sub [.trunks] S) : Keeps S z (State.lineIn
    a1 a2).2 := by
  unfold State.lineIn
  split
  · dsimp only
    assumption
  · dsimp only
    apply keeps_State_updTrunk (w := w.of)
    assumption

theorem keeps_State_groupIn (a1 : State) (a2 : Nat) (a3 : Nat) (a4 : List Nat) (a5 : List Codeword) (a6 : Bool) (a7 :
    Option Nat) (a8 : Nat) (a9 : Nat) (h1 : Keeps S z a1) (w : Sub [.objs, .freeCount, .timers, .sessions, .irq,
    .jour, .rates, .sent, .trunks, .tunnels, .fabric, .scheds, .disps, .usb, .pl, .stor, .fld, .safety] S) : Keeps S z
    (State.groupIn a1 a2 a3 a4 a5 a6 a7 a8 a9) := by
  unfold State.groupIn
  extract_lets +onlyGivenNames y1
  clear_value y1
  extract_lets +onlyGivenNames y2
  clear_value y2
  extract_lets +onlyGivenNames y3
  have k3 : Keeps S z y3 := by
    unfold y3
    apply keeps_forAll
    · intro x4
      intro x5
      intro k6
      apply keeps_State_laneWord (w := w.of)
      assumption
    · apply keeps_State_countSat (w := w.of)
      assumption
  clear_value y3
  split
  extract_lets +onlyGivenNames y7
  have k7 : Keeps S z y7 := by
    unfold y7
    apply keeps_State_groupFate (w := w.of)
    refine keeps_pair1 (by assumption) ?_
    apply keeps_State_groupCells (w := w.of)
    assumption
  clear_value y7
  refine keeps_ite ?_ ?_
  · assumption
  · apply keeps_State_groupAfter (w := w.of)
    assumption

theorem keeps_State_group (a1 : State) (a2 : Nat) (a3 : List Codeword) (a4 : Bool) (a5 : Option Nat) (a6 : Nat) (a7 :
    Nat) (h1 : Keeps S z a1) (w : Sub [.objs, .freeCount, .timers, .sessions, .irq, .jour, .rates, .sent, .trunks,
    .tunnels, .fabric, .scheds, .disps, .usb, .pl, .stor, .fld, .safety] S) : Keeps S z (State.group a1 a2 a3 a4 a5 a6
    a7) := by
  unfold State.group
  extract_lets +onlyGivenNames y1
  clear_value y1
  apply keeps_State_groupIn (w := w.of)
  assumption

theorem keeps_execCodewordGroupReceived (a1 : Nat) (a2 : List Codeword) (a3 : Bool) (a4 : Option Nat) (a5 : Nat) (a6 :
    Nat) (a7 : State) (h7 : Keeps S z a7) (w : Sub [.objs, .freeCount, .timers, .sessions, .irq, .jour, .rates, .sent,
    .trunks, .tunnels, .fabric, .scheds, .disps, .usb, .pl, .stor, .fld, .safety] S) : KeepsA S z
    (execCodewordGroupReceived a1 a2 a3 a4 a5 a6 a7) := by
  unfold execCodewordGroupReceived
  apply keeps_onPort
  · assumption
  · refine keeps_ite ?_ ?_
    · apply keeps_State_group (w := w.of)
      assumption
    · assumption

theorem keeps_execLaneSignalLost (a1 : Nat) (a2 : Nat) (a3 : Nat) (a4 : State) (h4 : Keeps S z a4) (w : Sub [.objs,
    .freeCount, .timers, .sessions, .irq, .jour, .rates, .sent, .trunks, .tunnels, .fabric, .scheds, .disps, .usb,
    .pl, .stor, .fld, .safety] S) : KeepsA S z (execLaneSignalLost a1 a2 a3 a4) := by
  unfold execLaneSignalLost
  extract_lets +onlyGivenNames y1
  have k1 : Keeps S z y1 := by
    unfold y1
    apply keeps_State_updLane (w := w.of)
    assumption
  clear_value y1
  apply keeps_onPort
  · assumption
  · refine keeps_ite ?_ ?_
    · refine keeps_ite ?_ ?_
      · apply keeps_State_lossCheck (w := w.of)
        apply keeps_State_laneLost (w := w.of)
        assumption
      · assumption
    · assumption

theorem keeps_execMarkerTimeout (a1 : Nat) (a2 : State) (h2 : Keeps S z a2) (w : Sub [.objs, .freeCount, .timers,
    .sessions, .irq, .jour, .rates, .sent, .trunks, .tunnels, .fabric, .scheds, .disps, .usb, .pl, .stor, .fld,
    .safety] S) : KeepsA S z (execMarkerTimeout a1 a2) := by
  unfold execMarkerTimeout
  apply keeps_onPort
  · assumption
  · refine keeps_ite ?_ ?_
    · apply keeps_State_trunkLost (w := w.of)
      assumption
    · assumption

theorem keeps_State_eyeAnswer (a1 : State) (a2 : Nat) (a3 : Nat) (a4 : Nat) (h1 : Keeps S z a1) (w : Sub [.objs, .irq,
    .jour, .sent, .trunks] S) : Keeps S z (State.eyeAnswer a1 a2 a3 a4) := by
  unfold State.eyeAnswer
  extract_lets +onlyGivenNames y1
  clear_value y1
  extract_lets +onlyGivenNames y2
  clear_value y2
  extract_lets +onlyGivenNames y3
  clear_value y3
  extract_lets +onlyGivenNames y4
  clear_value y4
  refine keeps_ite ?_ ?_
  · extract_lets +onlyGivenNames y5
    have k5 : Keeps S z y5 := by
      unfold y5
      apply keeps_State_updTrunk (w := w.of)
      assumption
    clear_value y5
    apply keeps_State_cmdCommit (w := w.of)
    apply keeps_State_sendLane (w := w.of)
    assumption
  · assumption

theorem keeps_State_frame (a1 : State) (a2 : Nat) (a3 : Nat) (a4 : Bool) (a5 : Bytes) (h1 : Keeps S z a1) (w : Sub
    [.objs, .freeCount, .timers, .sessions, .irq, .jour, .rates, .sent, .trunks, .tunnels, .fabric, .scheds, .disps,
    .usb, .pl, .stor, .fld] S) : Keeps S z (State.frame a1 a2 a3 a4 a5) := by
  unfold State.frame
  extract_lets +onlyGivenNames y1
  clear_value y1
  extract_lets +onlyGivenNames y2
  clear_value y2
  extract_lets +onlyGivenNames y3
  clear_value y3
  extract_lets +onlyGivenNames y4
  clear_value y4
  refine keeps_ite ?_ ?_
  · apply keeps_State_retry (w := w.of)
    assumption
  · extract_lets +onlyGivenNames y5
    clear_value y5
    extract_lets +onlyGivenNames y6
    have k6 : Keeps S z y6 := by
      unfold y6
      apply keeps_State_updTrunk (w := w.of)
      assumption
    clear_value y6
    extract_lets +onlyGivenNames y7
    clear_value y7
    extract_lets +onlyGivenNames y8
    have k8 : Keeps S z y8 := by
      unfold y8
      refine keeps_ite ?_ ?_
      · apply keeps_State_updLane (w := w.of)
        assumption
      · assumption
    clear_value y8
    extract_lets +onlyGivenNames y9
    have k9 : Keeps S z y9 := by
      unfold y9
      refine keeps_ite ?_ ?_
      · assumption
      · apply keeps_State_sendLane (w := w.of)
        assumption
    clear_value y9
    extract_lets +onlyGivenNames y10
    have k10 : Keeps S z y10 := by
      unfold y10
      apply keeps_State_eyeAnswer (w := w.of)
      assumption
    clear_value y10
    extract_lets +onlyGivenNames y11
    have k11 : Keeps S z y11 := by
      unfold y11
      refine keeps_ite ?_ ?_
      · apply keeps_State_setDone (w := w.of)
        apply keeps_State_recordRemote (w := w.of)
        assumption
      · assumption
    clear_value y11
    refine keeps_ite ?_ ?_
    · apply keeps_State_advance (w := w.of)
      apply keeps_State_nextMode (w := w.of)
      assumption
    · apply keeps_State_advance (w := w.of)
      assumption

theorem keeps_execTrainingFrameReceived (a1 : Nat) (a2 : Nat) (a3 : Bool) (a4 : Bytes) (a5 : State) (h5 : Keeps S z
    a5) (w : Sub [.objs, .freeCount, .timers, .sessions, .irq, .jour, .rates, .sent, .trunks, .tunnels, .fabric,
    .scheds, .disps, .usb, .pl, .stor, .fld] S) : KeepsA S z (execTrainingFrameReceived a1 a2 a3 a4 a5) := by
  unfold execTrainingFrameReceived
  apply keeps_onPort
  · assumption
  · refine keeps_ite ?_ ?_
    · apply keeps_State_frame (w := w.of)
      assumption
    · assumption

theorem keeps_State_trunkSwitch (a1 : State) (a2 : Nat) (a3 : Nat) (h1 : Keeps S z a1) (w : Sub [.objs, .freeCount,
    .timers, .sessions, .irq, .jour, .rates, .sent, .trunks, .tunnels, .fabric, .scheds, .disps, .usb, .pl, .stor,
    .fld] S) : Keeps S z (State.trunkSwitch a1 a2 a3) := by
  unfold State.trunkSwitch
  extract_lets +onlyGivenNames y1
  have k1 : Keeps S z y1 := by
    unfold y1
    apply keeps_State_set (w := w.of)
    assumption
  clear_value y1
  refine keeps_ite ?_ ?_
  · apply keeps_State_closeTrunk (w := w.of)
    assumption
  · extract_lets +onlyGivenNames y2
    have k2 : Keeps S z y2 := by
      unfold y2
      apply keeps_State_updTrunk (w := w.of)
      assumption
    clear_value y2
    extract_lets +onlyGivenNames y3
    have k3 : Keeps S z y3 := by
      unfold y3
      apply keeps_forAll
      · intro x4
        intro x5
        intro k6
        apply keeps_State_tryStart (w := w.of)
        assumption
      · assumption
    clear_value y3
    refine keeps_ite ?_ ?_
    · apply keeps_State_heldWrite (w := w.of)
      assumption
    · apply keeps_State_trunkOn (w := w.of)
      assumption

theorem keeps_execTrunkEnableWrite (a1 : Path) (a2 : Nat) (a3 : Nat) (a4 : State) (h4 : Keeps S z a4) (w : Sub [.objs,
    .freeCount, .timers, .sessions, .irq, .jour, .rates, .sent, .trunks, .tunnels, .fabric, .scheds, .disps, .usb,
    .pl, .stor, .fld] S) : KeepsA S z (execTrunkEnableWrite a1 a2 a3 a4) := by
  unfold execTrunkEnableWrite
  apply keeps_onPath
  · assumption
  · apply keeps_State_writeNum (w := w.of)
    · assumption
    · intro x1
      intro k2
      apply keeps_State_trunkSwitch (w := w.of)
      assumption

theorem keeps_execTrunkSignalDetect (a1 : Nat) (a2 : Nat) (a3 : State) (h3 : Keeps S z a3) (w : Sub [.objs,
    .freeCount, .timers, .irq, .jour, .rates, .sent, .trunks, .tunnels, .fabric, .scheds, .disps, .usb, .pl, .stor,
    .fld] S) : KeepsA S z (execTrunkSignalDetect a1 a2 a3) := by
  unfold execTrunkSignalDetect
  apply keeps_onPort
  · assumption
  · apply keeps_State_advance (w := w.of)
    apply keeps_State_updTrunk (w := w.of)
    assumption

theorem keeps_execLaneSyncTimeout (a1 : Nat) (a2 : State) (h2 : Keeps S z a2) (w : Sub [.objs, .freeCount, .timers,
    .sessions, .irq, .jour, .rates, .sent, .trunks, .tunnels, .fabric, .scheds, .disps, .usb, .pl, .stor, .fld] S) :
    KeepsA S z (execLaneSyncTimeout a1 a2) := by
  unfold execLaneSyncTimeout
  apply keeps_onPort
  · assumption
  · refine keeps_ite ?_ ?_
    · apply keeps_State_tryAgain (w := w.of)
      assumption
    · assumption

theorem keeps_execIdentifyTimeout (a1 : Nat) (a2 : State) (h2 : Keeps S z a2) (w : Sub [.objs, .timers, .irq, .jour,
    .sent, .trunks] S) : KeepsA S z (execIdentifyTimeout a1 a2) := by
  unfold execIdentifyTimeout
  apply keeps_onPort
  · assumption
  · refine keeps_ite ?_ ?_
    · apply keeps_State_toHeld (w := w.of)
      assumption
    · assumption

theorem keeps_execCapabilitiesTimeout (a1 : Nat) (a2 : State) (h2 : Keeps S z a2) (w : Sub [.objs, .freeCount,
    .timers, .sessions, .irq, .jour, .rates, .sent, .trunks, .tunnels, .fabric, .scheds, .disps, .usb, .pl, .stor,
    .fld] S) : KeepsA S z (execCapabilitiesTimeout a1 a2) := by
  unfold execCapabilitiesTimeout
  apply keeps_onPort
  · assumption
  · refine keeps_ite ?_ ?_
    · apply keeps_State_tryAgain (w := w.of)
      assumption
    · assumption

theorem keeps_execRateSwitchDelayExpired (a1 : Nat) (a2 : State) (h2 : Keeps S z a2) (w : Sub [.timers, .sent,
    .trunks] S) : KeepsA S z (execRateSwitchDelayExpired a1 a2) := by
  unfold execRateSwitchDelayExpired
  apply keeps_onPort
  · assumption
  · refine keeps_ite ?_ ?_
    · extract_lets +onlyGivenNames y1
      have k1 : Keeps S z y1 := by
        unfold y1
        apply keeps_State_updTrunk (w := w.of)
        assumption
      clear_value y1
      apply keeps_forAll
      · intro x2
        intro x3
        intro k4
        apply keeps_State_updLane (w := w.of)
        assumption
      · apply keeps_State_sendTraining (w := w.of)
        apply keeps_State_start (w := w.of)
        apply keeps_State_stop (w := w.of)
        assumption
    · assumption

theorem keeps_execRateChangeLockTimeout (a1 : Nat) (a2 : State) (h2 : Keeps S z a2) (w : Sub [.objs, .freeCount,
    .timers, .irq, .jour, .rates, .sent, .trunks, .tunnels, .fabric, .scheds, .disps, .usb, .pl, .stor, .fld] S) :
    KeepsA S z (execRateChangeLockTimeout a1 a2) := by
  unfold execRateChangeLockTimeout
  apply keeps_onPort
  · assumption
  · refine keeps_ite ?_ ?_
    · apply keeps_State_advance (w := w.of)
      apply keeps_State_nextMode (w := w.of)
      assumption
    · assumption

theorem keeps_execEqualiseAdaptationComplete (a1 : Nat) (a2 : State) (h2 : Keeps S z a2) (w : Sub [.objs, .freeCount,
    .timers, .irq, .jour, .rates, .sent, .trunks, .tunnels, .fabric, .scheds, .disps, .usb, .pl, .stor, .fld] S) :
    KeepsA S z (execEqualiseAdaptationComplete a1 a2) := by
  unfold execEqualiseAdaptationComplete
  apply keeps_onPort
  · assumption
  · refine keeps_ite ?_ ?_
    · apply keeps_State_advance (w := w.of)
      apply keeps_State_setDone (w := w.of)
      apply keeps_State_stop (w := w.of)
      assumption
    · assumption

theorem keeps_execEqualiseTimeout (a1 : Nat) (a2 : State) (h2 : Keeps S z a2) (w : Sub [.objs, .freeCount, .timers,
    .irq, .jour, .rates, .sent, .trunks, .tunnels, .fabric, .scheds, .disps, .usb, .pl, .stor, .fld] S) : KeepsA S z
    (execEqualiseTimeout a1 a2) := by
  unfold execEqualiseTimeout
  apply keeps_onPort
  · assumption
  · refine keeps_ite ?_ ?_
    · apply keeps_State_advance (w := w.of)
      apply keeps_State_nextMode (w := w.of)
      assumption
    · assumption

theorem keeps_execVerifyWindowEnd (a1 : Nat) (a2 : State) (h2 : Keeps S z a2) (w : Sub [.objs, .freeCount, .timers,
    .irq, .jour, .rates, .sent, .trunks, .tunnels, .fabric, .scheds, .disps, .usb, .pl, .stor, .fld] S) : KeepsA S z
    (execVerifyWindowEnd a1 a2) := by
  unfold execVerifyWindowEnd
  extract_lets +onlyGivenNames y1
  clear_value y1
  apply keeps_onPort
  · assumption
  · refine keeps_ite ?_ ?_
    · extract_lets +onlyGivenNames y2
      have k2 : Keeps S z y2 := by
        unfold y2
        apply keeps_State_stop (w := w.of)
        assumption
      clear_value y2
      refine keeps_ite ?_ ?_
      · apply keeps_State_advance (w := w.of)
        apply keeps_State_setDone (w := w.of)
        apply keeps_State_updTrunk (w := w.of)
        assumption
      · apply keeps_State_advance (w := w.of)
        apply keeps_State_nextMode (w := w.of)
        assumption
    · assumption

theorem keeps_execHeldRetryExpired (a1 : Nat) (a2 : State) (h2 : Keeps S z a2) (w : Sub [.objs, .freeCount, .timers,
    .sessions, .irq, .jour, .rates, .sent, .trunks, .tunnels, .fabric, .scheds, .disps, .usb, .pl, .stor, .fld] S) :
    KeepsA S z (execHeldRetryExpired a1 a2) := by
  unfold execHeldRetryExpired
  apply keeps_onPort
  · assumption
  · refine keeps_ite ?_ ?_
    · apply keeps_State_tryAgain (w := w.of)
      assumption
    · assumption

theorem keeps_execEyeWaitRepeat (a1 : Nat) (a2 : State) (h2 : Keeps S z a2) (w : Sub [.timers, .irq, .jour] S) :
    KeepsA S z (execEyeWaitRepeat a1 a2) := by
  unfold execEyeWaitRepeat
  apply keeps_onPort
  · assumption
  · refine keeps_ite ?_ ?_
    · apply keeps_State_trunkEv (w := w.of)
      apply keeps_State_start (w := w.of)
      assumption
    · assumption

theorem keeps_execTrunkRetrain (a1 : Path) (a2 : Nat) (a3 : State) (h3 : Keeps S z a3) (w : Sub [.objs, .freeCount,
    .timers, .sessions, .cmds, .irq, .jour, .rates, .sent, .trunks, .tunnels, .fabric, .scheds, .disps, .usb, .pl,
    .stor, .fld] S) : KeepsA S z (execTrunkRetrain a1 a2 a3) := by
  unfold execTrunkRetrain
  extract_lets +onlyGivenNames y1
  clear_value y1
  apply keeps_onPath
  · assumption
  · apply keeps_State_command (w := w.of)
    · assumption
    · intro x2
      intro k3
      refine keeps_ite ?_ ?_
      · refine keeps_ite ?_ ?_
        · apply keeps_State_cmdCommit (w := w.of)
          assumption
        · apply keeps_State_startRetrain (w := w.of)
          assumption
      · apply keeps_State_advance (w := w.of)
        apply keeps_State_cmdCommit (w := w.of)
        apply keeps_State_toDetect (w := w.of)
        apply keeps_State_updTrunk (w := w.of)
        assumption

theorem keeps_execTrunkClearCounters (a1 : Path) (a2 : Nat) (a3 : State) (h3 : Keeps S z a3) (w : Sub [.objs,
    .sessions, .cmds, .irq, .jour] S) : KeepsA S z (execTrunkClearCounters a1 a2 a3) := by
  unfold execTrunkClearCounters
  apply keeps_onPath
  · assumption
  · apply keeps_State_commandNow (w := w.of)
    · assumption
    · intro x1
      intro k2
      apply keeps_State_clear (w := w.of)
      assumption

theorem keeps_execRetrainRequestSend (a1 : Nat) (a2 : State) (h2 : Keeps S z a2) (w : Sub [.trunks] S) : KeepsA S z
    (execRetrainRequestSend a1 a2) := by
  unfold execRetrainRequestSend
  extract_lets +onlyGivenNames y1
  clear_value y1
  apply keeps_onPort
  · assumption
  · refine keeps_ite ?_ ?_
    · apply keeps_State_updTrunk (w := w.of)
      assumption
    · assumption

theorem keeps_execRetrainWaitTimeout (a1 : Nat) (a2 : State) (h2 : Keeps S z a2) (w : Sub [.objs, .freeCount, .timers,
    .sessions, .irq, .jour, .rates, .sent, .trunks, .tunnels, .fabric, .scheds, .disps, .usb, .pl, .stor, .fld] S) :
    KeepsA S z (execRetrainWaitTimeout a1 a2) := by
  unfold execRetrainWaitTimeout
  apply keeps_onPort
  · assumption
  · refine keeps_ite ?_ ?_
    · apply keeps_State_retry (w := w.of)
      assumption
    · assumption

theorem keeps_execEyeApplyLane (a1 : Path) (a2 : Nat) (a3 : State) (h3 : Keeps S z a3) (w : Sub [.objs, .sessions,
    .cmds, .irq, .jour, .sent, .trunks] S) : KeepsA S z (execEyeApplyLane a1 a2 a3) := by
  unfold execEyeApplyLane
  extract_lets +onlyGivenNames y1
  clear_value y1
  apply keeps_onPath
  · assumption
  · apply keeps_State_command (w := w.of)
    · assumption
    · intro x2
      intro k3
      extract_lets +onlyGivenNames y4
      clear_value y4
      extract_lets +onlyGivenNames y5
      have k5 : Keeps S z y5 := by
        unfold y5
        apply keeps_State_updTrunk (w := w.of)
        assumption
      clear_value y5
      extract_lets +onlyGivenNames y6
      have k6 : Keeps S z y6 := by
        unfold y6
        apply keeps_State_updLane (w := w.of)
        assumption
      clear_value y6
      extract_lets +onlyGivenNames y7
      clear_value y7
      extract_lets +onlyGivenNames y8
      have k8 : Keeps S z y8 := by
        unfold y8
        apply keeps_State_sendLane (w := w.of)
        assumption
      clear_value y8
      refine keeps_ite ?_ ?_
      · apply keeps_State_cmdCommit (w := w.of)
        assumption
      · assumption

theorem keeps_execEyeFinishEqualise (a1 : Path) (a2 : Nat) (a3 : State) (h3 : Keeps S z a3) (w : Sub [.objs,
    .freeCount, .timers, .sessions, .cmds, .irq, .jour, .rates, .sent, .trunks, .tunnels, .fabric, .scheds, .disps,
    .usb, .pl, .stor, .fld] S) : KeepsA S z (execEyeFinishEqualise a1 a2 a3) := by
  unfold execEyeFinishEqualise
  extract_lets +onlyGivenNames y1
  clear_value y1
  apply keeps_onPath
  · assumption
  · apply keeps_State_command (w := w.of)
    · assumption
    · intro x2
      intro k3
      apply keeps_State_advance (w := w.of)
      apply keeps_State_cmdCommit (w := w.of)
      apply keeps_State_setDone (w := w.of)
      assumption

theorem keeps_State_block (a1 : State) (a2 : Nat) (a3 : Bytes) (h1 : Keeps S z a1) (w : Sub [.objs, .station,
    .freeCount, .timers, .sessions, .irq, .jour, .rates, .sent, .trunks, .tunnels, .fabric, .scheds, .disps, .usb,
    .time, .pl, .stor, .fld] S) : Keeps S z (State.block a1 a2 a3) := by
  unfold State.block
  split
  · apply keeps_State_updTrunk (w := w.of)
    assumption
  · apply keeps_State_gateMarker (w := w.of)
    assumption
  · apply keeps_State_timeTransfer (w := w.of)
    assumption
  · apply keeps_State_updTrunk (w := w.of)
    assumption
  · refine keeps_ite ?_ ?_
    · apply keeps_State_retrainCheck (w := w.of)
      apply keeps_State_startRetrain (w := w.of)
      apply keeps_State_updTrunk (w := w.of)
      assumption
    · assumption
  · assumption

theorem keeps_State_controlCell (a1 : State) (a2 : Nat) (a3 : Cell) (h1 : Keeps S z a1) (w : Sub [.objs, .station,
    .freeCount, .timers, .sessions, .irq, .jour, .rates, .sent, .trunks, .tunnels, .fabric, .scheds, .disps, .usb,
    .time, .pl, .stor, .fld] S) : Keeps S z (State.controlCell a1 a2 a3) := by
  unfold State.controlCell
  apply keeps_forAll
  · intro x1
    intro x2
    intro k3
    refine keeps_ite ?_ ?_
    · apply keeps_State_block (w := w.of)
      assumption
    · assumption
  · assumption

theorem keeps_execControlCellReceived (a1 : Nat) (a2 : Bytes) (a3 : State) (h3 : Keeps S z a3) (w : Sub [.objs,
    .station, .freeCount, .timers, .sessions, .irq, .jour, .rates, .sent, .trunks, .tunnels, .fabric, .scheds, .disps,
    .usb, .time, .pl, .stor, .fld, .safety] S) : KeepsA S z (execControlCellReceived a1 a2 a3) := by
  unfold execControlCellReceived
  extract_lets +onlyGivenNames y1
  clear_value y1
  apply keeps_onPort
  · assumption
  · split
    refine keeps_ite ?_ ?_
    · refine keeps_pair (by assumption) ?_
      apply keeps_State_lineIn (w := w.of)
      assumption
    · refine keeps_ite ?_ ?_
      · apply keeps_State_cellCrc (w := w.of)
        refine keeps_pair (by assumption) ?_
        apply keeps_State_lineIn (w := w.of)
        assumption
      · refine keeps_ite ?_ ?_
        · refine keeps_pair (by assumption) ?_
          apply keeps_State_lineIn (w := w.of)
          assumption
        · apply keeps_State_controlCell (w := w.of)
          refine keeps_pair (by assumption) ?_
          apply keeps_State_lineIn (w := w.of)
          assumption

theorem keeps_execPcsBlockReceived (a1 : Nat) (a2 : Nat) (a3 : Bool) (a4 : Option Nat) (a5 : Nat) (a6 : Int) (a7 :
    State) (h7 : Keeps S z a7) (w : Sub [.objs, .freeCount, .timers, .sessions, .irq, .jour, .rates, .sent, .trunks,
    .tunnels, .fabric, .scheds, .disps, .usb, .pl, .stor, .fld, .safety] S) : KeepsA S z (execPcsBlockReceived a1 a2
    a3 a4 a5 a6 a7) := by
  unfold execPcsBlockReceived
  extract_lets +onlyGivenNames y1
  extract_lets +onlyGivenNames y2
  apply keeps_onPort
  · assumption
  · refine keeps_ite ?_ ?_
    · assumption
    · extract_lets +onlyGivenNames y3
      have k3 : Keeps S z y3 := by
        unfold y3
        refine keeps_ite ?_ ?_
        · assumption
        · apply keeps_State_countSat (w := w.of)
          assumption
      extract_lets +onlyGivenNames y4
      have k4 : Keeps S z y4 := by
        unfold y4
        apply keeps_State_updLane (w := w.of)
        assumption
      extract_lets +onlyGivenNames y5
      have k5 : Keeps S z y5 := by
        unfold y5
        refine keeps_ite ?_ ?_
        · apply keeps_State_set (w := w.of)
          assumption
        · assumption
      refine keeps_ite ?_ ?_
      · assumption
      · extract_lets +onlyGivenNames y6
        have k6 : Keeps S z y6 := by
          unfold y6
          split
          · refine keeps_ite ?_ ?_
            · assumption
            · refine keeps_ite ?_ ?_
              · apply keeps_State_markerGot (w := w.of)
                assumption
              · apply keeps_State_markerPassed (w := w.of)
                assumption
          · assumption
        refine keeps_ite ?_ ?_
        · apply keeps_State_lossCheck (w := w.of)
          apply keeps_State_laneLost (w := w.of)
          assumption
        · assumption

theorem keeps_execLaneLockAcquired (a1 : Nat) (a2 : Nat) (a3 : State) (h3 : Keeps S z a3) (w : Sub [.objs, .freeCount,
    .timers, .irq, .jour, .rates, .sent, .trunks, .tunnels, .fabric, .scheds, .disps, .usb, .pl, .stor, .fld] S) :
    KeepsA S z (execLaneLockAcquired a1 a2 a3) := by
  unfold execLaneLockAcquired
  apply keeps_onPort
  · assumption
  · extract_lets +onlyGivenNames y1
    have k1 : Keeps S z y1 := by
      unfold y1
      apply keeps_State_updLane (w := w.of)
      assumption
    clear_value y1
    refine keeps_ite ?_ ?_
    · apply keeps_State_laneBack (w := w.of)
      assumption
    · refine keeps_ite ?_ ?_
      · apply keeps_State_advance (w := w.of)
        apply keeps_State_setDone (w := w.of)
        apply keeps_State_stop (w := w.of)
        assumption
      · assumption

theorem keeps_State_dropOffSources (a1 : State) (h1 : Keeps S z a1) (w : Sub [.irq] S) : Keeps S z
    (State.dropOffSources a1) := by
  unfold State.dropOffSources
  refine keeps_mk ?_ (w_irq := .inr w.has)
  assumption

theorem keeps_State_domainStops (a1 : State) (a2 : Nat) (a3 : Bool) (h1 : Keeps S z a1) (w : Sub [.objs, .freeCount,
    .timers, .sessions, .cmds, .irq, .jour, .rates, .sent, .trunks, .tunnels, .fabric, .scheds, .disps, .usb, .svc,
    .eth, .pl, .stor, .dram, .fld, .power] S) : Keeps S z (State.domainStops a1 a2 a3) := by
  unfold State.domainStops
  extract_lets +onlyGivenNames y0
  have k0 : Keeps S z y0 := by
    unfold y0
    exact keeps_forAll _ _ _ (fun _ _ k => keeps_ite (keeps_State_emptyAdapter _ _ k w.of) k) h1
  clear_value y0
  refine keeps_ite (keeps_ite (keeps_State_trunkOff _ _ k0 w.of) (keeps_State_closeTrunk _ _ k0 w.of)) ?_
  refine keeps_ite (keeps_ite (keeps_State_displaysFail _ k0 w.of) (keeps_State_displaysOff _ k0 w.of)) ?_
  refine keeps_ite (keeps_of k0 rfl rfl rfl (List.suffix_refl _) (w.of (G := [.dram])) (by intro f hf; cases f <;> first | rfl | cases hf) fun c =>
    ⟨c.objs, c.strs, rfl, c.ring⟩) ?_
  refine keeps_ite (keeps_forAll _ _ _ (fun _ _ k => keeps_State_ethLinkLost _ _ k w.of) k0) ?_
  refine keeps_ite (keeps_forAll _ _ _ (fun _ _ k => keeps_State_pcieLinkLost _ _ k w.of) k0) ?_
  exact keeps_ite (keeps_State_svcDetach _ (keeps_State_usbPortsOff _ _ k0 w.of) w.of) (keeps_mk k0 (w_fld := .inr w.has))

theorem keeps_State_domainDown (a1 : State) (a2 : Nat) (a3 : Nat) (h1 : Keeps S z a1) (w : Sub [.objs, .freeCount,
    .timers, .sessions, .cmds, .irq, .jour, .rates, .sent, .trunks, .tunnels, .fabric, .scheds, .disps, .usb, .svc,
    .eth, .pl, .stor, .dram, .fld, .power] S) : Keeps S z (State.domainDown a1 a2 a3) := by
  unfold State.domainDown
  extract_lets +onlyGivenNames y1
  clear_value y1
  refine keeps_ite ?_ ?_
  · apply keeps_State_dropOffSources (w := w.of)
    apply keeps_State_domainStops (w := w.of)
    apply keeps_State_set (w := w.of)
    assumption
  · extract_lets +onlyGivenNames y2
    have k2 : Keeps S z y2 := by
      unfold y2
      apply keeps_State_dropOffSources (w := w.of)
      apply keeps_State_set (w := w.of)
      assumption
    clear_value y2
    refine keeps_ite ?_ ?_
    · apply keeps_State_displaysOff (w := w.of)
      assumption
    · assumption

theorem keeps_State_domainUp (a1 : State) (a2 : Nat) (h1 : Keeps S z a1) (w : Sub [.objs, .freeCount, .timers,
    .sessions, .irq, .jour, .rates, .sent, .trunks, .tunnels, .fabric, .scheds, .disps, .usb, .pl, .stor, .fld] S) :
    Keeps S z (State.domainUp a1 a2) := by
  unfold State.domainUp
  extract_lets +onlyGivenNames y1
  clear_value y1
  refine keeps_ite ?_ ?_
  · apply keeps_State_set (w := w.of)
    assumption
  · extract_lets +onlyGivenNames y2
    have k2 : Keeps S z y2 := by
      unfold y2
      apply keeps_State_set (w := w.of)
      assumption
    clear_value y2
    refine keeps_ite ?_ ?_
    · assumption
    · refine keeps_ite ?_ ?_
      · apply keeps_State_trunkOn (w := w.of)
        assumption
      · refine keeps_ite ?_ ?_
        · refine keeps_ite ?_ ?_
          · apply keeps_State_displaysOn (w := w.of)
            apply keeps_State_displaysGood (w := w.of)
            assumption
          · apply keeps_State_displaysOn (w := w.of)
            assumption
        · assumption

theorem keeps_State_domainSwitch (a1 : State) (a2 : Nat) (a3 : Nat) (h1 : Keeps S z a1) (w : Sub [.objs, .freeCount,
    .timers, .sessions, .cmds, .irq, .jour, .rates, .sent, .trunks, .tunnels, .fabric, .scheds, .disps, .usb, .svc,
    .eth, .pl, .stor, .dram, .fld, .power] S) : Keeps S z (State.domainSwitch a1 a2 a3) := by
  unfold State.domainSwitch
  extract_lets +onlyGivenNames y1
  have k1 : Keeps S z y1 := by
    unfold y1
    apply keeps_State_set (w := w.of)
    assumption
  clear_value y1
  refine keeps_ite ?_ ?_
  · assumption
  · refine keeps_ite ?_ ?_
    · apply keeps_State_domainUp (w := w.of)
      assumption
    · apply keeps_State_domainDown (w := w.of)
      assumption

theorem keeps_execDomainEnableWrite (a1 : Path) (a2 : Nat) (a3 : Nat) (a4 : State) (h4 : Keeps S z a4) (w : Sub
    [.objs, .freeCount, .timers, .sessions, .cmds, .irq, .jour, .rates, .sent, .trunks, .tunnels, .fabric, .scheds,
    .disps, .usb, .svc, .eth, .pl, .stor, .dram, .fld, .power] S) : KeepsA S z (execDomainEnableWrite a1 a2 a3 a4) :=
    by
  unfold execDomainEnableWrite
  apply keeps_onPath
  · assumption
  · apply keeps_State_writeNum (w := w.of)
    · assumption
    · intro x1
      intro k2
      apply keeps_State_domainSwitch (w := w.of)
      assumption

theorem keeps_State_isolate (a1 : State) (a2 : Nat) (a3 : Nat) (a4 : Nat) (a5 : Nat) (h1 : Keeps S z a1) (w : Sub
    [.objs, .freeCount, .timers, .sessions, .cmds, .irq, .jour, .rates, .sent, .trunks, .tunnels, .fabric, .scheds,
    .disps, .usb, .svc, .eth, .pl, .stor, .dram, .fld, .power] S) : Keeps S z (State.isolate a1 a2 a3 a4 a5) := by
  unfold State.isolate
  apply keeps_State_ev (w := w.of)
  extract_lets +onlyGivenNames y1
  have k1 : Keeps S z y1 := by
    unfold y1
    apply keeps_State_domainDown (w := w.of)
    assumption
  clear_value y1
  refine keeps_mk ?_ (w_power := .inr w.has)
  assumption

theorem keeps_execDomainSupplyFail (a1 : Nat) (a2 : Nat) (a3 : Nat) (a4 : State) (h4 : Keeps S z a4) (w : Sub [.objs,
    .freeCount, .timers, .sessions, .cmds, .irq, .jour, .rates, .sent, .trunks, .tunnels, .fabric, .scheds, .disps,
    .usb, .svc, .eth, .pl, .stor, .dram, .fld, .power] S) : KeepsA S z (execDomainSupplyFail a1 a2 a3 a4) := by
  unfold execDomainSupplyFail
  apply keeps_onUnit
  refine keeps_ite ?_ ?_
  · apply keeps_State_isolate (w := w.of)
    assumption
  · assumption

theorem keeps_State_goodAgain (a1 : State) (a2 : Nat) (h1 : Keeps S z a1) (w : Sub [.objs, .power] S) : Keeps S z
    (State.goodAgain a1 a2) := by
  unfold State.goodAgain
  extract_lets +onlyGivenNames y1
  clear_value y1
  extract_lets +onlyGivenNames y2
  clear_value y2
  extract_lets +onlyGivenNames y3
  have k3 : Keeps S z y3 := by
    unfold y3
    refine keeps_mk ?_ (w_power := .inr w.has)
    assumption
  clear_value y3
  apply keeps_State_set (w := w.of)
  assumption

theorem keeps_execDomainGoodAgain (a1 : Nat) (a2 : State) (h2 : Keeps S z a2) (w : Sub [.objs, .freeCount, .timers,
    .sessions, .irq, .jour, .rates, .sent, .trunks, .tunnels, .fabric, .scheds, .disps, .usb, .pl, .stor, .fld,
    .power] S) : KeepsA S z (execDomainGoodAgain a1 a2) := by
  unfold execDomainGoodAgain
  apply keeps_onUnit
  refine keeps_ite ?_ ?_
  · extract_lets +onlyGivenNames y1
    have k1 : Keeps S z y1 := by
      unfold y1
      apply keeps_State_goodAgain (w := w.of)
      assumption
    clear_value y1
    refine keeps_ite ?_ ?_
    · apply keeps_State_domainUp (w := w.of)
      assumption
    · assumption
  · assumption

theorem keeps_execDomainPowerUpStagger (a1 : State) (h1 : Keeps S z a1) (w : Sub [.objs, .freeCount, .timers,
    .sessions, .irq, .jour, .rates, .sent, .trunks, .tunnels, .fabric, .scheds, .disps, .usb, .pl, .stor, .fld, .boot]
    S) : KeepsA S z (execDomainPowerUpStagger a1) := by
  unfold execDomainPowerUpStagger
  refine keeps_next ?_
  refine keeps_ite ?_ ?_
  · split
    · apply keeps_State_stop (w := w.of)
      assumption
    · extract_lets +onlyGivenNames y1
      clear_value y1
      extract_lets +onlyGivenNames y2
      have k2 : Keeps S z y2 := by
        unfold y2
        refine keeps_mk ?_ (w_boot := .inr w.has)
        assumption
      clear_value y2
      extract_lets +onlyGivenNames y3
      have k3 : Keeps S z y3 := by
        unfold y3
        refine keeps_ite ?_ ?_
        · apply keeps_State_stop (w := w.of)
          assumption
        · apply keeps_State_start (w := w.of)
          assumption
      clear_value y3
      apply keeps_State_domainUp (w := w.of)
      assumption
  · assumption

theorem keeps_State_fillSlot (a1 : State) (a2 : Nat) (a3 : Nat) (h1 : Keeps S z a1) (w : Sub [.objs, .timers, .irq,
    .jour, .tunnels, .fabric, .keys] S) : Keeps S z (State.fillSlot a1 a2 a3) := by
  unfold State.fillSlot
  extract_lets +onlyGivenNames y1
  clear_value y1
  extract_lets +onlyGivenNames y2
  have k2 : Keeps S z y2 := by
    unfold y2
    apply keeps_State_setAll (w := w.of)
    apply keeps_State_setKey (w := w.of)
    assumption
  clear_value y2
  extract_lets +onlyGivenNames y3
  have k3 : Keeps S z y3 := by
    unfold y3
    apply keeps_forAll
    · intro x4
      intro x5
      intro k6
      refine keeps_ite ?_ ?_
      · apply keeps_State_set (w := w.of)
        assumption
      · assumption
    · assumption
  clear_value y3
  apply keeps_forAll
  · intro x7
    intro x8
    intro k9
    refine keeps_ite ?_ ?_
    · apply keeps_State_takeKey (w := w.of)
      assumption
    · assumption
  · assumption

theorem keeps_State_emptySlot (a1 : State) (a2 : Nat) (h1 : Keeps S z a1) (w : Sub [.objs, .freeCount, .irq, .jour,
    .keys] S) : Keeps S z (State.emptySlot a1 a2) := by
  unfold State.emptySlot
  refine keeps_ite ?_ ?_
  · assumption
  · split
    extract_lets +onlyGivenNames y1
    clear_value y1
    extract_lets +onlyGivenNames y2
    have k2 : Keeps S z y2 := by
      unfold y2
      apply keeps_State_setAll (w := w.of)
      apply keeps_State_setKey (w := w.of)
      refine keeps_pair (by assumption) ?_
      apply keeps_State_draw (w := w.of)
      assumption
    clear_value y2
    extract_lets +onlyGivenNames y3
    have k3 : Keeps S z y3 := by
      unfold y3
      refine keeps_ite ?_ ?_
      · apply keeps_State_setAll (w := w.of)
        assumption
      · assumption
    clear_value y3
    apply keeps_forAll
    · intro x4
      intro x5
      intro k6
      refine keeps_ite ?_ ?_
      · apply keeps_State_ev (w := w.of)
        assumption
      · assumption
    · assumption

theorem keeps_State_destroy (a1 : State) (a2 : List Nat) (a3 : Nat) (h1 : Keeps S z a1) (w : Sub [.objs, .freeCount,
    .irq, .jour, .keys, .secu] S) : Keeps S z (State.destroy a1 a2 a3) := by
  unfold State.destroy
  extract_lets +onlyGivenNames y1
  clear_value y1
  extract_lets +onlyGivenNames y2
  clear_value y2
  extract_lets +onlyGivenNames y3
  have k3 : Keeps S z y3 := by
    unfold y3
    apply keeps_forAll
    · intro x4
      intro x5
      intro k6
      apply keeps_State_emptySlot (w := w.of)
      assumption
    · assumption
  clear_value y3
  extract_lets +onlyGivenNames y7
  have k7 : Keeps S z y7 := by
    unfold y7
    apply keeps_forAll
    · intro x8
      intro x9
      intro k10
      apply keeps_State_set (w := w.of)
      assumption
    · assumption
  clear_value y7
  extract_lets +onlyGivenNames y11
  clear_value y11
  extract_lets +onlyGivenNames y12
  have k12 : Keeps S z y12 := by
    unfold y12
    refine keeps_mk ?_ (w_secu := .inr w.has)
    assumption
  clear_value y12
  apply keeps_forAll
  · intro x13
    intro x14
    intro k15
    refine keeps_ite ?_ ?_
    · apply keeps_State_ev (w := w.of)
      assumption
    · apply keeps_State_ev (w := w.of)
      assumption
  · assumption

theorem keeps_State_keyParity (a1 : State) (a2 : Nat) (h1 : Keeps S z a1) (w : Sub [.objs, .freeCount, .irq, .jour,
    .keys] S) : Keeps S z (State.keyParity a1 a2) := by
  unfold State.keyParity
  refine keeps_ite ?_ ?_
  · assumption
  · apply keeps_State_ev (w := w.of)
    apply keeps_State_emptySlot (w := w.of)
    assumption

theorem keeps_State_zeroise (a1 : State) (a2 : Nat) (h1 : Keeps S z a1) (w : Sub [.objs, .freeCount, .irq, .jour,
    .keys, .secu] S) : Keeps S z (State.zeroise a1 a2) := by
  unfold State.zeroise
  extract_lets +onlyGivenNames y1
  clear_value y1
  extract_lets +onlyGivenNames y2
  have k2 : Keeps S z y2 := by
    unfold y2
    apply keeps_forAll
    · intro x3
      intro x4
      intro k5
      apply keeps_State_emptySlot (w := w.of)
      assumption
    · assumption
  clear_value y2
  extract_lets +onlyGivenNames y6
  clear_value y6
  extract_lets +onlyGivenNames y7
  have k7 : Keeps S z y7 := by
    unfold y7
    refine keeps_mk ?_ (w_secu := .inr w.has)
    assumption
  clear_value y7
  apply keeps_State_ev (w := w.of)
  assumption

theorem keeps_State_toLife (a1 : State) (a2 : Nat) (a3 : Nat) (h1 : Keeps S z a1) (w : Sub [.objs, .freeCount, .irq,
    .jour, .keys, .secu] S) : Keeps S z (State.toLife a1 a2 a3) := by
  unfold State.toLife
  extract_lets +onlyGivenNames y1
  clear_value y1
  extract_lets +onlyGivenNames y2
  clear_value y2
  extract_lets +onlyGivenNames y3
  have k3 : Keeps S z y3 := by
    unfold y3
    refine keeps_mk ?_ (w_secu := .inr w.has)
    assumption
  clear_value y3
  extract_lets +onlyGivenNames y4
  have k4 : Keeps S z y4 := by
    unfold y4
    apply keeps_State_ev (w := w.of)
    assumption
  clear_value y4
  extract_lets +onlyGivenNames y5
  clear_value y5
  refine keeps_ite ?_ ?_
  · assumption
  · apply keeps_State_destroy (w := w.of)
    assumption

theorem keeps_State_keyCreated (a1 : State) (a2 : Nat) (a3 : Nat) (h1 : Keeps S z a1) (w : Sub [.irq, .jour] S) :
    Keeps S z (State.keyCreated a1 a2 a3) := by
  unfold State.keyCreated
  apply keeps_State_ev (w := w.of)
  assumption

theorem keeps_State_restoreKeys (a1 : State) (h1 : Keeps S z a1) (w : Sub [.objs, .timers, .irq, .jour, .tunnels,
    .fabric, .keys, .secu] S) : Keeps S z (State.restoreKeys a1) := by
  unfold State.restoreKeys
  refine keeps_ite ?_ ?_
  · assumption
  · extract_lets +onlyGivenNames y1
    clear_value y1
    extract_lets +onlyGivenNames y2
    clear_value y2
    extract_lets +onlyGivenNames y3
    clear_value y3
    extract_lets +onlyGivenNames y4
    have k4 : Keeps S z y4 := by
      unfold y4
      refine keeps_mk ?_ (w_secu := .inr w.has)
      assumption
    clear_value y4
    apply keeps_forAll
    · intro x5
      intro x6
      intro k7
      refine keeps_ite ?_ ?_
      · assumption
      · split
        · apply keeps_State_fillSlot (w := w.of)
          assumption
        · apply keeps_State_ev (w := w.of)
          assumption
    · assumption

theorem keeps_State_bootIdentity (a1 : State) (h1 : Keeps S z a1) (w : Sub [.objs, .timers, .irq, .jour, .tunnels,
    .fabric, .keys] S) : Keeps S z (State.bootIdentity a1) := by
  unfold State.bootIdentity
  refine keeps_ite ?_ ?_
  · extract_lets +onlyGivenNames y1
    have k1 : Keeps S z y1 := by
      unfold y1
      apply keeps_State_setAll (w := w.of)
      assumption
    clear_value y1
    extract_lets +onlyGivenNames y2
    have k2 : Keeps S z y2 := by
      unfold y2
      apply keeps_State_fillSlot (w := w.of)
      assumption
    clear_value y2
    apply keeps_State_setAll (w := w.of)
    assumption
  · assumption

theorem keeps_State_tamperEv (a1 : State) (a2 : Nat) (a3 : Nat) (a4 : Nat) (h1 : Keeps S z a1) (w : Sub [.irq, .jour]
    S) : Keeps S z (State.tamperEv a1 a2 a3 a4) := by
  unfold State.tamperEv
  apply keeps_State_ev (w := w.of)
  assumption

theorem keeps_State_makeRoot (a1 : State) (a2 : Bool) (h1 : Keeps S z a1) (w : Sub [.objs, .freeCount, .irq, .jour,
    .keys, .secu] S) : Keeps S z (State.makeRoot a1 a2) := by
  unfold State.makeRoot
  split
  extract_lets +onlyGivenNames y1
  clear_value y1
  extract_lets +onlyGivenNames y2
  clear_value y2
  extract_lets +onlyGivenNames y3
  clear_value y3
  extract_lets +onlyGivenNames y4
  have k4 : Keeps S z y4 := by
    unfold y4
    refine keeps_mk ?_ (w_secu := .inr w.has)
    refine keeps_pair (by assumption) ?_
    apply keeps_State_draw (w := w.of)
    assumption
  clear_value y4
  refine keeps_ite ?_ ?_
  · apply keeps_State_toLife (w := w.of)
    apply keeps_State_ev (w := w.of)
    assumption
  · apply keeps_State_toLife (w := w.of)
    apply keeps_State_ev (w := w.of)
    assumption

theorem keeps_State_bootSecurity (a1 : State) (a2 : Nat) (h1 : Keeps S z a1) (w : Sub [.objs, .freeCount, .timers,
    .irq, .jour, .tunnels, .fabric, .keys, .secu] S) : Keeps S z (State.bootSecurity a1 a2) := by
  unfold State.bootSecurity
  extract_lets +onlyGivenNames y1
  clear_value y1
  extract_lets +onlyGivenNames y2
  clear_value y2
  extract_lets +onlyGivenNames y3
  have k3 : Keeps S z y3 := by
    unfold y3
    refine keeps_mk ?_ (w_secu := .inr w.has)
    assumption
  clear_value y3
  extract_lets +onlyGivenNames y4
  have k4 : Keeps S z y4 := by
    unfold y4
    apply keeps_forAll
    · intro x5
      intro x6
      intro k7
      apply keeps_State_tamperEv (w := w.of)
      assumption
    · assumption
  clear_value y4
  extract_lets +onlyGivenNames y8
  have k8 : Keeps S z y8 := by
    unfold y8
    refine keeps_ite ?_ ?_
    · apply keeps_State_toLife (w := w.of)
      assumption
    · assumption
  clear_value y8
  extract_lets +onlyGivenNames y9
  have k9 : Keeps S z y9 := by
    unfold y9
    refine keeps_ite ?_ ?_
    · refine keeps_ite ?_ ?_
      · apply keeps_State_ev (w := w.of)
        assumption
      · apply keeps_State_makeRoot (w := w.of)
        assumption
    · assumption
  clear_value y9
  apply keeps_State_bootIdentity (w := w.of)
  assumption

theorem keeps_State_lose (a1 : State) (a2 : Nat) (a3 : Nat) (a4 : List Int) (h1 : Keeps S z a1) (w : Sub [.objs, .irq,
    .jour, .rates, .sent, .fabric, .stor, .safety] S) : Keeps S z (State.lose a1 a2 a3 a4) := by
  unfold State.lose
  split
  · assumption
  · extract_lets +onlyGivenNames y1
    have k1 : Keeps S z y1 := by
      unfold y1
      apply keeps_State_set (w := w.of)
      apply keeps_State_count (w := w.of)
      assumption
    clear_value y1
    extract_lets +onlyGivenNames y2
    have k2 : Keeps S z y2 := by
      unfold y2
      apply keeps_State_evCycle (w := w.of)
      assumption
    clear_value y2
    apply keeps_State_onLost (w := w.of)
    refine keeps_ite ?_ ?_
    · apply keeps_State_latchSf (w := w.of)
      assumption
    · assumption

theorem keeps_State_sideHeard (a1 : State) (a2 : Nat) (a3 : Nat) (a4 : Nat) (h1 : Keeps S z a1) (w : Sub [.objs, .irq,
    .jour, .tunnels] S) : Keeps S z (State.sideHeard a1 a2 a3 a4) := by
  unfold State.sideHeard
  extract_lets +onlyGivenNames y1
  clear_value y1
  extract_lets +onlyGivenNames y2
  clear_value y2
  refine keeps_ite ?_ ?_
  · apply keeps_State_setCond (w := w.of)
    assumption
  · assumption

theorem keeps_State_judgeLost (a1 : State) (a2 : Nat) (a3 : Nat) (a4 : Nat) (h1 : Keeps S z a1) (w : Sub [.objs, .irq,
    .jour, .rates, .sent, .tunnels, .fabric, .stor, .safety] S) : Keeps S z (State.judgeLost a1 a2 a3 a4) := by
  unfold State.judgeLost
  extract_lets +onlyGivenNames y1
  clear_value y1
  split
  · assumption
  · extract_lets +onlyGivenNames y2
    clear_value y2
    apply keeps_State_lose (w := w.of)
    apply keeps_State_updTun (w := w.of)
    assumption

theorem keeps_State_skew (a1 : State) (a2 : Nat) (a3 : Nat) (a4 : Int) (h1 : Keeps S z a1) (w : Sub [.objs, .tunnels]
    S) : Keeps S z (State.skew a1 a2 a3 a4) := by
  unfold State.skew
  refine keeps_ite ?_ ?_
  · assumption
  · extract_lets +onlyGivenNames y1
    clear_value y1
    split
    · refine keeps_ite ?_ ?_
      · assumption
      · extract_lets +onlyGivenNames y2
        clear_value y2
        apply keeps_State_updTun (w := w.of)
        apply keeps_State_set (w := w.of)
        assumption
    · apply keeps_State_updTun (w := w.of)
      assumption

theorem keeps_State_accept (a1 : State) (a2 : Nat) (a3 : Nat) (a4 : Nat) (a5 : Nat) (a6 : Int) (a7 : Bool) (h1 : Keeps
    S z a1) (w : Sub [.objs, .irq, .jour, .rates, .sent, .tunnels, .fabric, .stor, .safety] S) : Keeps S z
    (State.accept a1 a2 a3 a4 a5 a6 a7) := by
  unfold State.accept
  extract_lets +onlyGivenNames y1
  clear_value y1
  extract_lets +onlyGivenNames y2
  clear_value y2
  extract_lets +onlyGivenNames y3
  have k3 : Keeps S z y3 := by
    unfold y3
    refine keeps_ite ?_ ?_
    · apply keeps_State_lose (w := w.of)
      apply keeps_State_updTun (w := w.of)
      assumption
    · refine keeps_ite ?_ ?_
      · apply keeps_State_updTun (w := w.of)
        assumption
      · assumption
  clear_value y3
  apply keeps_State_updTun (w := w.of)
  assumption

theorem keeps_State_slotSeen (a1 : State) (a2 : Nat) (a3 : Nat) (h1 : Keeps S z a1) (w : Sub [.objs, .timers, .irq,
    .jour, .tunnels] S) : Keeps S z (State.slotSeen a1 a2 a3) := by
  unfold State.slotSeen
  extract_lets +onlyGivenNames y1
  have k1 : Keeps S z y1 := by
    unfold y1
    apply keeps_State_mayMove (w := w.of)
    assumption
  clear_value y1
  extract_lets +onlyGivenNames y2
  clear_value y2
  refine keeps_ite ?_ ?_
  · apply keeps_State_start (w := w.of)
    assumption
  · assumption

theorem keeps_State_giveCredit (a1 : State) (a2 : Nat) (a3 : Nat) (h1 : Keeps S z a1) (w : Sub [.trunks] S) : Keeps S
    z (State.giveCredit a1 a2 a3) := by
  unfold State.giveCredit
  apply keeps_State_giveCredits (w := w.of)
  assumption

theorem keeps_State_hold (a1 : State) (a2 : Nat) (a3 : Cell) (h1 : Keeps S z a1) (w : Sub [.trunks] S) : Keeps S z
    (State.hold a1 a2 a3) := by
  unfold State.hold
  apply keeps_State_updTrunk (w := w.of)
  assumption

theorem keeps_State_take (a1 : State) (a2 : Nat) (a3 : Nat) (a4 : Cell) (h1 : Keeps S z a1) (w : Sub [.objs, .sent,
    .trunks] S) : Keeps S z (State.take a1 a2 a3 a4) := by
  unfold State.take
  refine keeps_ite ?_ ?_
  · apply keeps_State_hold (w := w.of)
    apply keeps_State_count (w := w.of)
    assumption
  · apply keeps_State_giveCredit (w := w.of)
    apply keeps_State_send (w := w.of)
    assumption

theorem keeps_State_stale (a1 : State) (a2 : Nat) (a3 : Nat) (h1 : Keeps S z a1) (w : Sub [.objs, .irq, .jour, .rates]
    S) : Keeps S z (State.stale a1 a2 a3) := by
  unfold State.stale
  extract_lets +onlyGivenNames y1
  have k1 : Keeps S z y1 := by
    unfold y1
    apply keeps_State_count (w := w.of)
    assumption
  clear_value y1
  refine keeps_ite ?_ ?_
  · apply keeps_State_evCycle (w := w.of)
    assumption
  · assumption

theorem keeps_State_sequenced (a1 : State) (a2 : Nat) (a3 : Nat) (a4 : Cell) (h1 : Keeps S z a1) (w : Sub [.objs,
    .timers, .irq, .jour, .rates, .sent, .trunks, .tunnels, .fabric, .stor, .safety] S) : Keeps S z (State.sequenced
    a1 a2 a3 a4) := by
  unfold State.sequenced
  extract_lets +onlyGivenNames y1
  clear_value y1
  extract_lets +onlyGivenNames y2
  clear_value y2
  refine keeps_ite ?_ ?_
  · apply keeps_State_giveCredit (w := w.of)
    apply keeps_State_stale (w := w.of)
    assumption
  · extract_lets +onlyGivenNames y3
    clear_value y3
    extract_lets +onlyGivenNames y4
    clear_value y4
    extract_lets +onlyGivenNames y5
    clear_value y5
    extract_lets +onlyGivenNames y6
    have k6 : Keeps S z y6 := by
      unfold y6
      refine keeps_ite ?_ ?_
      · apply keeps_State_updTun (w := w.of)
        assumption
      · assumption
    clear_value y6
    extract_lets +onlyGivenNames y7
    have k7 : Keeps S z y7 := by
      unfold y7
      refine keeps_ite ?_ ?_
      · assumption
      · apply keeps_State_skew (w := w.of)
        assumption
    clear_value y7
    extract_lets +onlyGivenNames y8
    have k8 : Keeps S z y8 := by
      unfold y8
      apply keeps_State_evCycle (w := w.of)
      apply keeps_State_count (w := w.of)
      assumption
    clear_value y8
    extract_lets +onlyGivenNames y9
    have k9 : Keeps S z y9 := by
      unfold y9
      refine keeps_ite ?_ ?_
      · apply keeps_State_giveCredit (w := w.of)
        apply keeps_State_updTun (w := w.of)
        assumption
      · refine keeps_ite ?_ ?_
        · apply keeps_State_giveCredit (w := w.of)
          apply keeps_State_updTun (w := w.of)
          apply keeps_State_count (w := w.of)
          assumption
        · refine keeps_ite ?_ ?_
          · apply keeps_State_giveCredit (w := w.of)
            apply keeps_State_updTun (w := w.of)
            apply keeps_State_stale (w := w.of)
            assumption
          · split
            · apply keeps_State_take (w := w.of)
              apply keeps_State_slotSeen (w := w.of)
              apply keeps_State_accept (w := w.of)
              assumption
            · apply keeps_State_giveCredit (w := w.of)
              apply keeps_State_accept (w := w.of)
              assumption
    clear_value y9
    apply keeps_State_judgeLost (w := w.of)
    apply keeps_State_sideHeard (w := w.of)
    assumption

theorem keeps_State_cellIn (a1 : State) (a2 : Nat) (a3 : Cell) (h1 : Keeps S z a1) (w : Sub [.objs, .timers, .irq,
    .jour, .rates, .sent, .trunks, .tunnels, .fabric, .stor, .safety] S) : Keeps S z (State.cellIn a1 a2 a3) := by
  unfold State.cellIn
  extract_lets +onlyGivenNames y1
  clear_value y1
  refine keeps_ite ?_ ?_
  · apply keeps_State_giveCredit (w := w.of)
    apply keeps_State_cellCrc (w := w.of)
    assumption
  · refine keeps_ite ?_ ?_
    · apply keeps_State_giveCredit (w := w.of)
      apply keeps_State_fabricEv (w := w.of)
      apply keeps_State_count (w := w.of)
      assumption
    · refine keeps_ite ?_ ?_
      · refine keeps_ite ?_ ?_
        · apply keeps_State_giveCredit (w := w.of)
          apply keeps_State_send (w := w.of)
          assumption
        · apply keeps_State_giveCredit (w := w.of)
          apply keeps_State_count (w := w.of)
          assumption
      · refine keeps_ite ?_ ?_
        · apply keeps_State_giveCredit (w := w.of)
          apply keeps_State_send (w := w.of)
          assumption
        · refine keeps_ite ?_ ?_
          · apply keeps_State_hold (w := w.of)
            refine keeps_ite ?_ ?_
            · apply keeps_State_count (w := w.of)
              assumption
            · assumption
          · refine keeps_ite ?_ ?_
            · apply keeps_State_giveCredit (w := w.of)
              apply keeps_State_count (w := w.of)
              assumption
            · apply keeps_State_sequenced (w := w.of)
              assumption

theorem keeps_execCellReceived (a1 : Nat) (a2 : Bytes) (a3 : Bool) (a4 : State) (h4 : Keeps S z a4) (w : Sub [.objs,
    .station, .freeCount, .timers, .sessions, .irq, .jour, .rates, .sent, .trunks, .tunnels, .fabric, .scheds, .disps,
    .usb, .time, .pl, .stor, .fld, .keys, .safety] S) : KeepsA S z (execCellReceived a1 a2 a3 a4) := by
  unfold execCellReceived
  extract_lets +onlyGivenNames y1
  clear_value y1
  apply keeps_onPort
  · assumption
  · split
    refine keeps_ite ?_ ?_
    · refine keeps_pair (by assumption) ?_
      apply keeps_State_lineIn (w := w.of)
      assumption
    · refine keeps_ite ?_ ?_
      · apply keeps_State_cellCrc (w := w.of)
        refine keeps_pair (by assumption) ?_
        apply keeps_State_lineIn (w := w.of)
        assumption
      · refine keeps_ite ?_ ?_
        · apply keeps_State_controlCell (w := w.of)
          refine keeps_pair (by assumption) ?_
          apply keeps_State_lineIn (w := w.of)
          assumption
        · extract_lets +onlyGivenNames y2
          have k2 : Keeps S z y2 := by
            unfold y2
            refine keeps_ite ?_ ?_
            · apply keeps_State_keyParity (w := w.of)
              refine keeps_pair (by assumption) ?_
              apply keeps_State_lineIn (w := w.of)
              assumption
            · refine keeps_pair (by assumption) ?_
              apply keeps_State_lineIn (w := w.of)
              assumption
          clear_value y2
          apply keeps_State_cellIn (w := w.of)
          assumption

theorem keeps_execTunnelEnable (a1 : Path) (a2 : Nat) (a3 : State) (h3 : Keeps S z a3) (w : Sub [.objs, .timers,
    .sessions, .irq, .jour, .rates, .sent, .tunnels, .fabric, .scheds, .disps, .usb, .stor] S) : KeepsA S z
    (execTunnelEnable a1 a2 a3) := by
  unfold execTunnelEnable
  apply keeps_onPath
  · assumption
  · apply keeps_State_writeNum (w := w.of)
    · assumption
    · intro x1
      intro k2
      apply keeps_State_leaveOff (w := w.of)
      apply keeps_State_set (w := w.of)
      assumption

theorem keeps_execTunnelDisable (a1 : Path) (a2 : Nat) (a3 : State) (h3 : Keeps S z a3) (w : Sub [.objs, .freeCount,
    .timers, .sessions, .irq, .jour, .rates, .sent, .trunks, .tunnels, .fabric, .scheds, .disps, .usb, .pl, .stor,
    .fld] S) : KeepsA S z (execTunnelDisable a1 a2 a3) := by
  unfold execTunnelDisable
  apply keeps_onPath
  · assumption
  · apply keeps_State_writeNum (w := w.of)
    · assumption
    · intro x1
      intro k2
      apply keeps_State_settle (w := w.of)
      apply keeps_State_shut (w := w.of)
      apply keeps_State_set (w := w.of)
      assumption

theorem keeps_State_refusedAgain (a1 : State) (a2 : Nat) (h1 : Keeps S z a1) (w : Sub [.objs, .timers, .irq, .jour,
    .tunnels, .fabric] S) : Keeps S z (State.refusedAgain a1 a2) := by
  unfold State.refusedAgain
  refine keeps_ite ?_ ?_
  · apply keeps_State_negotiate (w := w.of)
    apply keeps_State_set (w := w.of)
    apply keeps_State_latchCfg (w := w.of)
    assumption
  · assumption

theorem keeps_State_keyNext (a1 : State) (a2 : Nat) (a3 : Nat) (h1 : Keeps S z a1) (w : Sub [.objs, .timers, .irq,
    .jour, .tunnels, .fabric] S) : Keeps S z (State.keyNext a1 a2 a3) := by
  unfold State.keyNext
  extract_lets +onlyGivenNames y1
  have k1 : Keeps S z y1 := by
    unfold y1
    apply keeps_State_stop (w := w.of)
    apply keeps_State_set (w := w.of)
    assumption
  clear_value y1
  extract_lets +onlyGivenNames y2
  have k2 : Keeps S z y2 := by
    unfold y2
    refine keeps_ite ?_ ?_
    · assumption
    · refine keeps_ite ?_ ?_
      · assumption
      · refine keeps_ite ?_ ?_
        · apply keeps_State_sendKeyReady (w := w.of)
          assumption
        · apply keeps_State_takeKey (w := w.of)
          assumption
  clear_value y2
  apply keeps_State_refusedAgain (w := w.of)
  assumption

theorem keeps_execTunnelRecordWrite (a1 : Path) (a2 : Nat) (a3 : Nat) (a4 : Nat) (a5 : State) (h5 : Keeps S z a5) (w :
    Sub [.objs, .timers, .sessions, .irq, .jour, .tunnels, .fabric] S) : KeepsA S z (execTunnelRecordWrite a1 a2 a3 a4
    a5) := by
  unfold execTunnelRecordWrite
  apply keeps_onPath
  · assumption
  · apply keeps_State_writeNum (w := w.of)
    · assumption
    · intro x1
      intro k2
      refine keeps_ite ?_ ?_
      · apply keeps_State_keyNext (w := w.of)
        assumption
      · extract_lets +onlyGivenNames y3
        have k3 : Keeps S z y3 := by
          unfold y3
          apply keeps_State_set (w := w.of)
          assumption
        clear_value y3
        refine keeps_ite ?_ ?_
        · assumption
        · apply keeps_State_refusedAgain (w := w.of)
          assumption

theorem keeps_execTunnelDrain (a1 : Path) (a2 : Nat) (a3 : State) (h3 : Keeps S z a3) (w : Sub [.objs, .freeCount,
    .timers, .sessions, .cmds, .irq, .jour, .rates, .sent, .trunks, .tunnels, .fabric, .scheds, .disps, .usb, .pl,
    .stor, .fld] S) : KeepsA S z (execTunnelDrain a1 a2 a3) := by
  unfold execTunnelDrain
  extract_lets +onlyGivenNames y1
  clear_value y1
  apply keeps_onPath
  · assumption
  · apply keeps_State_command (w := w.of)
    · assumption
    · intro x2
      intro k3
      extract_lets +onlyGivenNames y4
      have k4 : Keeps S z y4 := by
        unfold y4
        apply keeps_State_set (w := w.of)
        assumption
      clear_value y4
      refine keeps_ite ?_ ?_
      · apply keeps_State_cmdCommit (w := w.of)
        assumption
      · apply keeps_State_settle (w := w.of)
        apply keeps_State_shut (w := w.of)
        apply keeps_State_updTun (w := w.of)
        assumption

theorem keeps_execTunnelClearCounters (a1 : Path) (a2 : Nat) (a3 : State) (h3 : Keeps S z a3) (w : Sub [.objs,
    .sessions, .cmds, .irq, .jour] S) : KeepsA S z (execTunnelClearCounters a1 a2 a3) := by
  unfold execTunnelClearCounters
  apply keeps_onPath
  · assumption
  · apply keeps_State_commandNow (w := w.of)
    · assumption
    · intro x1
      intro k2
      apply keeps_State_clear (w := w.of)
      assumption

theorem keeps_State_withdrawClose (a1 : State) (a2 : Nat) (h1 : Keeps S z a1) (w : Sub [.objs, .timers, .tunnels,
    .fabric] S) : Keeps S z (State.withdrawClose a1 a2) := by
  unfold State.withdrawClose
  refine keeps_ite ?_ ?_
  · apply keeps_State_updTun (w := w.of)
    apply keeps_State_discardCells (w := w.of)
    assumption
  · assumption

theorem keeps_State_undoDrain (a1 : State) (a2 : Nat) (h1 : Keeps S z a1) (w : Sub [.objs, .timers, .irq, .jour,
    .rates, .sent, .tunnels, .fabric, .disps, .usb, .stor] S) : Keeps S z (State.undoDrain a1 a2) := by
  unfold State.undoDrain
  extract_lets +onlyGivenNames y1
  have k1 : Keeps S z y1 := by
    unfold y1
    apply keeps_State_updTun (w := w.of)
    apply keeps_State_set (w := w.of)
    assumption
  clear_value y1
  refine keeps_ite ?_ ?_
  · extract_lets +onlyGivenNames y2
    have k2 : Keeps S z y2 := by
      unfold y2
      apply keeps_State_withdrawClose (w := w.of)
      assumption
    clear_value y2
    apply keeps_State_onReopen (w := w.of)
    apply keeps_State_announceKey (w := w.of)
    apply keeps_State_stop (w := w.of)
    apply keeps_State_set (w := w.of)
    assumption
  · assumption

theorem keeps_State_offerIn (a1 : State) (a2 : Nat) (a3 : Bytes) (h1 : Keeps S z a1) (w : Sub [.objs, .timers, .irq,
    .jour, .rates, .sent, .tunnels, .fabric, .scheds, .disps, .usb, .stor] S) : Keeps S z (State.offerIn a1 a2 a3) :=
    by
  unfold State.offerIn
  extract_lets +onlyGivenNames y1
  have k1 : Keeps S z y1 := by
    unfold y1
    apply keeps_State_updTun (w := w.of)
    assumption
  clear_value y1
  extract_lets +onlyGivenNames y2
  clear_value y2
  refine keeps_ite ?_ ?_
  · apply keeps_State_refuse (w := w.of)
    assumption
  · refine keeps_ite ?_ ?_
    · assumption
    · apply keeps_State_openCheck (w := w.of)
      apply keeps_State_updTun (w := w.of)
      assumption

theorem keeps_execOfferReceived (a1 : Nat) (a2 : Nat) (a3 : Bytes) (a4 : State) (h4 : Keeps S z a4) (w : Sub [.objs,
    .freeCount, .timers, .irq, .jour, .rates, .sent, .tunnels, .fabric, .scheds, .disps, .usb, .stor, .fld] S) :
    KeepsA S z (execOfferReceived a1 a2 a3 a4) := by
  unfold execOfferReceived
  apply keeps_onPort
  · assumption
  · refine keeps_ite ?_ ?_
    · assumption
    · split
      · apply keeps_State_offerIn (w := w.of)
        assumption
      · refine keeps_ite ?_ ?_
        · assumption
        · extract_lets +onlyGivenNames y1
          have k1 : Keeps S z y1 := by
            unfold y1
            apply keeps_State_refusedAgain (w := w.of)
            assumption
          clear_value y1
          refine keeps_ite ?_ ?_
          · apply keeps_State_offerIn (w := w.of)
            assumption
          · assumption
      · refine keeps_ite ?_ ?_
        · apply keeps_State_count (w := w.of)
          assumption
        · refine keeps_ite ?_ ?_
          · apply keeps_State_offerIn (w := w.of)
            apply keeps_State_negotiate (w := w.of)
            apply keeps_State_creditGone (w := w.of)
            apply keeps_State_onClose (w := w.of)
            assumption
          · assumption
      · assumption
      · apply keeps_State_count (w := w.of)
        assumption

theorem keeps_execNegotiationRepeat (a1 : Nat) (a2 : State) (h2 : Keeps S z a2) (w : Sub [.timers, .irq, .jour,
    .fabric] S) : KeepsA S z (execNegotiationRepeat a1 a2) := by
  unfold execNegotiationRepeat
  apply keeps_onUnit
  refine keeps_ite ?_ ?_
  · extract_lets +onlyGivenNames y1
    have k1 : Keeps S z y1 := by
      unfold y1
      apply keeps_State_sendOffer (w := w.of)
      apply keeps_State_start (w := w.of)
      assumption
    clear_value y1
    refine keeps_ite ?_ ?_
    · apply keeps_State_tunEv (w := w.of)
      apply keeps_State_start (w := w.of)
      assumption
    · assumption
  · assumption

theorem keeps_execCloseReceived (a1 : Nat) (a2 : State) (h2 : Keeps S z a2) (w : Sub [.objs, .freeCount, .timers,
    .sessions, .irq, .jour, .rates, .sent, .trunks, .tunnels, .fabric, .scheds, .disps, .usb, .pl, .stor, .fld] S) :
    KeepsA S z (execCloseReceived a1 a2) := by
  unfold execCloseReceived
  apply keeps_onUnit
  refine keeps_ite ?_ ?_
  · assumption
  · refine keeps_ite ?_ ?_
    · apply keeps_State_settle (w := w.of)
      apply keeps_State_drain (w := w.of)
      assumption
    · refine keeps_ite ?_ ?_
      · apply keeps_State_settle (w := w.of)
        apply keeps_State_drainCheck (w := w.of)
        apply keeps_State_updTun (w := w.of)
        assumption
      · assumption

theorem keeps_execCloseSend (a1 : Nat) (a2 : State) (h2 : Keeps S z a2) (w : Sub [.tunnels, .fabric] S) : KeepsA S z
    (execCloseSend a1 a2) := by
  unfold execCloseSend
  apply keeps_onUnit
  refine keeps_ite ?_ ?_
  · apply keeps_State_sendClose (w := w.of)
    apply keeps_State_updTun (w := w.of)
    assumption
  · assumption

theorem keeps_State_lateClose (a1 : State) (a2 : Nat) (h1 : Keeps S z a1) (w : Sub [.objs, .fabric] S) : Keeps S z
    (State.lateClose a1 a2) := by
  unfold State.lateClose
  apply keeps_State_sendClose (w := w.of)
  apply keeps_State_countWrap (w := w.of)
  assumption

theorem keeps_State_drainExpired (a1 : State) (a2 : Nat) (h1 : Keeps S z a1) (w : Sub [.objs, .freeCount, .timers,
    .sessions, .irq, .jour, .rates, .sent, .trunks, .tunnels, .fabric, .scheds, .disps, .usb, .pl, .stor, .fld] S) :
    Keeps S z (State.drainExpired a1 a2) := by
  unfold State.drainExpired
  extract_lets +onlyGivenNames y1
  clear_value y1
  extract_lets +onlyGivenNames y2
  have k2 : Keeps S z y2 := by
    unfold y2
    apply keeps_State_drainDiscard (w := w.of)
    assumption
  clear_value y2
  extract_lets +onlyGivenNames y3
  have k3 : Keeps S z y3 := by
    unfold y3
    apply keeps_State_tunEv (w := w.of)
    assumption
  clear_value y3
  extract_lets +onlyGivenNames y4
  have k4 : Keeps S z y4 := by
    unfold y4
    refine keeps_ite ?_ ?_
    · assumption
    · apply keeps_State_lateClose (w := w.of)
      assumption
  clear_value y4
  apply keeps_State_settle (w := w.of)
  apply keeps_State_drainDone (w := w.of)
  assumption

theorem keeps_execDrainBoundExpired (a1 : Nat) (a2 : State) (h2 : Keeps S z a2) (w : Sub [.objs, .freeCount, .timers,
    .sessions, .irq, .jour, .rates, .sent, .trunks, .tunnels, .fabric, .scheds, .disps, .usb, .pl, .stor, .fld] S) :
    KeepsA S z (execDrainBoundExpired a1 a2) := by
  unfold execDrainBoundExpired
  apply keeps_onUnit
  refine keeps_ite ?_ ?_
  · apply keeps_State_drainExpired (w := w.of)
    assumption
  · assumption

theorem keeps_execKeyReadyReceived (a1 : Nat) (a2 : Nat) (a3 : State) (h3 : Keeps S z a3) (w : Sub [.objs, .timers,
    .irq, .jour, .tunnels] S) : KeepsA S z (execKeyReadyReceived a1 a2 a3) := by
  unfold execKeyReadyReceived
  apply keeps_onUnit
  refine keeps_ite ?_ ?_
  · apply keeps_State_mayMove (w := w.of)
    apply keeps_State_updTun (w := w.of)
    assumption
  · assumption

theorem keeps_execKeySlotNextWrite (a1 : Path) (a2 : Nat) (a3 : Nat) (a4 : State) (h4 : Keeps S z a4) (w : Sub [.objs,
    .timers, .sessions, .irq, .jour, .tunnels, .fabric] S) : KeepsA S z (execKeySlotNextWrite a1 a2 a3 a4) := by
  unfold execKeySlotNextWrite
  apply keeps_onPath
  · assumption
  · apply keeps_State_writeNum (w := w.of)
    · assumption
    · intro x1
      intro k2
      apply keeps_State_keyNext (w := w.of)
      assumption

theorem keeps_execKeyReadyRepeat (a1 : Nat) (a2 : State) (h2 : Keeps S z a2) (w : Sub [.timers, .fabric] S) : KeepsA S
    z (execKeyReadyRepeat a1 a2) := by
  unfold execKeyReadyRepeat
  apply keeps_onUnit
  refine keeps_ite ?_ ?_
  · apply keeps_State_announceKey (w := w.of)
    assumption
  · assumption

theorem keeps_execOldKeyAcceptExpired (a1 : Nat) (a2 : State) (h2 : Keeps S z a2) (w : Sub [.timers, .tunnels] S) :
    KeepsA S z (execOldKeyAcceptExpired a1 a2) := by
  unfold execOldKeyAcceptExpired
  apply keeps_onUnit
  refine keeps_ite ?_ ?_
  · apply keeps_State_updTun (w := w.of)
    apply keeps_State_stop (w := w.of)
    assumption
  · assumption

theorem keeps_execTwinLagTimeout (a1 : Nat) (a2 : Nat) (a3 : State) (h3 : Keeps S z a3) (w : Sub [.objs, .irq, .jour,
    .tunnels] S) : KeepsA S z (execTwinLagTimeout a1 a2 a3) := by
  unfold execTwinLagTimeout
  extract_lets +onlyGivenNames y1
  clear_value y1
  extract_lets +onlyGivenNames y2
  clear_value y2
  apply keeps_onUnit
  refine keeps_ite ?_ ?_
  · apply keeps_State_setCond (w := w.of)
    assumption
  · assumption

theorem keeps_State_intoTunnel (a1 : State) (a2 : Nat) (a3 : Nat) (a4 : Cell) (h1 : Keeps S z a1) (w : Sub [.fabric]
    S) : Keeps S z (State.intoTunnel a1 a2 a3 a4).2 := by
  unfold State.intoTunnel
  split
  extract_lets +onlyGivenNames y1
  clear_value y1
  dsimp only
  refine keeps_pair (by assumption) ?_
  apply keeps_State_colour (w := w.of)
  assumption

theorem keeps_State_unhold (a1 : State) (a2 : Nat) (a3 : Nat) (a4 : List Held) (h1 : Keeps S z a1) (w : Sub [.trunks]
    S) : Keeps S z (State.unhold a1 a2 a3 a4) := by
  unfold State.unhold
  apply keeps_State_giveCredit (w := w.of)
  apply keeps_State_updTrunk (w := w.of)
  assumption

theorem keeps_State_learnAt (a1 : State) (a2 : Nat) (a3 : Nat) (a4 : Nat) (a5 : Nat) (a6 : Bool) (a7 : Cell) (h1 :
    Keeps S z a1) (w : Sub [.objs, .irq, .jour, .rates, .fabric] S) : Keeps S z (State.learnAt a1 a2 a3 a4 a5 a6 a7)
    := by
  unfold State.learnAt
  refine keeps_ite ?_ ?_
  · extract_lets +onlyGivenNames y1
    clear_value y1
    apply keeps_State_learn (w := w.of)
    assumption
  · assumption

theorem keeps_State_trunkArrival (a1 : State) (a2 : Nat) (a3 : Nat) (h1 : Keeps S z a1) (w : Sub [.objs, .timers,
    .irq, .jour, .rates, .trunks, .fabric, .scheds] S) : Keeps S z (State.trunkArrival a1 a2 a3) := by
  unfold State.trunkArrival
  split
  · assumption
  · extract_lets +onlyGivenNames y1
    clear_value y1
    extract_lets +onlyGivenNames y2
    have k2 : Keeps S z y2 := by
      unfold y2
      refine keeps_ite ?_ ?_
      · assumption
      · apply keeps_State_count (w := w.of)
        assumption
    clear_value y2
    split
    · apply keeps_State_unhold (w := w.of)
      apply keeps_State_count (w := w.of)
      assumption
    · extract_lets +onlyGivenNames y3
      clear_value y3
      extract_lets +onlyGivenNames y4
      clear_value y4
      extract_lets +onlyGivenNames y5
      have k5 : Keeps S z y5 := by
        unfold y5
        refine keeps_ite ?_ ?_
        · assumption
        · apply keeps_State_offerAll (w := w.of)
          refine keeps_ite ?_ ?_
          · apply keeps_State_noteSource (w := w.of)
            assumption
          · assumption
      clear_value y5
      refine keeps_ite ?_ ?_
      · extract_lets +onlyGivenNames y6
        clear_value y6
        extract_lets +onlyGivenNames y7
        have k7 : Keeps S z y7 := by
          unfold y7
          apply keeps_State_unhold (w := w.of)
          apply keeps_State_store (w := w.of)
          assumption
        clear_value y7
        refine keeps_ite ?_ ?_
        · apply keeps_State_learnAt (w := w.of)
          assumption
        · assumption
      · apply keeps_State_updTrunk (w := w.of)
        assumption

theorem keeps_State_ethDests (a1 : State) (a2 : Nat) (a3 : Nat) (a4 : Cell) (h1 : Keeps S z a1) (w : Sub [.objs,
    .fabric] S) : Keeps S z (State.ethDests a1 a2 a3 a4).2 := by
  unfold State.ethDests
  extract_lets +onlyGivenNames y1
  clear_value y1
  extract_lets +onlyGivenNames y2
  clear_value y2
  extract_lets +onlyGivenNames y3
  have k3 : Keeps S z y3 := by
    unfold y3
    refine keeps_ite ?_ ?_
    · split
      extract_lets +onlyGivenNames y4
      have k4 : Keeps S z y4 := by
        unfold y4
        refine keeps_ite ?_ ?_
        · apply keeps_State_count (w := w.of)
          assumption
        · assumption
      clear_value y4
      extract_lets +onlyGivenNames y5
      clear_value y5
      apply keeps_State_updFabric (w := w.of)
      assumption
    · assumption
  clear_value y3
  apply keeps_foldPair
  · intro x6
    intro k7
    intro x8
    split
    · split
      · split
        dsimp only
        refine keeps_pair (by assumption) ?_
        apply keeps_State_intoTunnel (w := w.of)
        assumption
      · assumption
    · dsimp only
      assumption
  · dsimp only
    assumption

theorem keeps_State_adapterDests (a1 : State) (a2 : Nat) (a3 : Nat) (a4 : Cell) (h1 : Keeps S z a1) (w : Sub [.objs,
    .fabric] S) : Keeps S z (State.adapterDests a1 a2 a3 a4).2 := by
  unfold State.adapterDests
  split
  · apply keeps_State_ethDests (w := w.of)
    assumption
  · split
    · apply keeps_State_intoTunnel (w := w.of)
      assumption
    · dsimp only
      assumption

theorem keeps_State_heldDests (a1 : State) (a2 : Nat) (a3 : Nat) (a4 : Held) (h1 : Keeps S z a1) (w : Sub [.objs,
    .fabric] S) : Keeps S z (State.heldDests a1 a2 a3 a4).2 := by
  unfold State.heldDests
  split
  · dsimp only
    assumption
  · split
    · split
      dsimp only
      refine keeps_pair (by assumption) ?_
      apply keeps_State_colour (w := w.of)
      assumption
    · apply keeps_State_adapterDests (w := w.of)
      assumption

theorem keeps_State_adapterArrival (a1 : State) (a2 : Nat) (a3 : Nat) (h1 : Keeps S z a1) (w : Sub [.objs, .timers,
    .irq, .jour, .rates, .fabric, .scheds] S) : Keeps S z (State.adapterArrival a1 a2 a3) := by
  unfold State.adapterArrival
  split
  · assumption
  · extract_lets +onlyGivenNames y1
    clear_value y1
    split
    extract_lets +onlyGivenNames y2
    have k2 : Keeps S z y2 := by
      unfold y2
      refine keeps_ite ?_ ?_
      · refine keeps_pair (by assumption) ?_
        apply keeps_State_heldDests (w := w.of)
        assumption
      · apply keeps_State_count (w := w.of)
        refine keeps_pair (by assumption) ?_
        apply keeps_State_heldDests (w := w.of)
        assumption
    clear_value y2
    refine keeps_ite ?_ ?_
    · apply keeps_State_leaves (w := w.of)
      assumption
    · extract_lets +onlyGivenNames y3
      clear_value y3
      refine keeps_ite ?_ ?_
      · apply keeps_State_leaves (w := w.of)
        apply keeps_State_count (w := w.of)
        assumption
      · extract_lets +onlyGivenNames y4
        clear_value y4
        extract_lets +onlyGivenNames y5
        clear_value y5
        extract_lets +onlyGivenNames y6
        have k6 : Keeps S z y6 := by
          unfold y6
          refine keeps_ite ?_ ?_
          · assumption
          · apply keeps_State_offerAll (w := w.of)
            refine keeps_ite ?_ ?_
            · apply keeps_State_noteSource (w := w.of)
              assumption
            · assumption
        clear_value y6
        extract_lets +onlyGivenNames y7
        clear_value y7
        refine keeps_ite ?_ ?_
        · extract_lets +onlyGivenNames y8
          clear_value y8
          extract_lets +onlyGivenNames y9
          clear_value y9
          apply keeps_State_updFabric (w := w.of)
          assumption
        · extract_lets +onlyGivenNames y10
          clear_value y10
          extract_lets +onlyGivenNames y11
          have k11 : Keeps S z y11 := by
            unfold y11
            apply keeps_State_leaves (w := w.of)
            apply keeps_State_store (w := w.of)
            assumption
          clear_value y11
          extract_lets +onlyGivenNames y12
          have k12 : Keeps S z y12 := by
            unfold y12
            refine keeps_ite ?_ ?_
            · apply keeps_State_learnAt (w := w.of)
              assumption
            · assumption
          clear_value y12
          refine keeps_ite ?_ ?_
          · apply keeps_State_receiptLost (w := w.of)
            assumption
          · assumption

theorem keeps_execFabricCellArrival (a1 : Nat) (a2 : Nat) (a3 : State) (h3 : Keeps S z a3) (w : Sub [.objs, .timers,
    .irq, .jour, .rates, .trunks, .fabric, .scheds] S) : KeepsA S z (execFabricCellArrival a1 a2 a3) := by
  unfold execFabricCellArrival
  apply keeps_onPort
  · assumption
  · refine keeps_ite ?_ ?_
    · extract_lets +onlyGivenNames y1
      have k1 : Keeps S z y1 := by
        unfold y1
        refine keeps_ite ?_ ?_
        · apply keeps_State_updFabric (w := w.of)
          assumption
        · assumption
      clear_value y1
      refine keeps_ite ?_ ?_
      · apply keeps_State_trunkArrival (w := w.of)
        assumption
      · apply keeps_State_adapterArrival (w := w.of)
        assumption
    · assumption

theorem keeps_State_eccCell (a1 : State) (a2 : Nat) (a3 : Nat) (a4 : Desc) (h1 : Keeps S z a1) (w : Sub [.objs, .irq,
    .jour, .sent, .safety] S) : Keeps S z (State.eccCell a1 a2 a3 a4) := by
  unfold State.eccCell
  apply keeps_State_ev (w := w.of)
  apply keeps_State_memBad (w := w.of)
  apply keeps_State_count (w := w.of)
  assumption

theorem keeps_State_eccLocal (a1 : State) (a2 : Nat) (a3 : Nat) (a4 : Desc) (h1 : Keeps S z a1) (w : Sub [.objs,
    .timers, .irq, .jour, .rates, .sent, .fabric, .safety] S) : Keeps S z (State.eccLocal a1 a2 a3 a4) := by
  unfold State.eccLocal
  extract_lets +onlyGivenNames y1
  have k1 : Keeps S z y1 := by
    unfold y1
    apply keeps_State_eccCell (w := w.of)
    assumption
  clear_value y1
  refine keeps_ite ?_ ?_
  · assumption
  · split
    extract_lets +onlyGivenNames y2
    have k2 : Keeps S z y2 := by
      unfold y2
      apply keeps_State_withdraw (w := w.of)
      assumption
    clear_value y2
    extract_lets +onlyGivenNames y3
    have k3 : Keeps S z y3 := by
      unfold y3
      apply keeps_State_updQueue (w := w.of)
      assumption
    clear_value y3
    apply keeps_State_tailEv (w := w.of)
    refine keeps_ite ?_ ?_
    · assumption
    · apply keeps_State_setUnit (w := w.of)
      assumption

theorem keeps_State_sendFrame (a1 : State) (a2 : Nat) (a3 : Nat) (a4 : Nat) (a5 : Nat) (h1 : Keeps S z a1) (w : Sub
    [.objs, .timers, .irq, .jour, .rates, .sent, .fabric, .eth, .safety] S) : Keeps S z (State.sendFrame a1 a2 a3 a4
    a5) := by
  unfold State.sendFrame
  extract_lets +onlyGivenNames y1
  clear_value y1
  split
  · assumption
  · split
    extract_lets +onlyGivenNames y2
    clear_value y2
    extract_lets +onlyGivenNames y3
    clear_value y3
    extract_lets +onlyGivenNames y4
    clear_value y4
    extract_lets +onlyGivenNames y5
    clear_value y5
    extract_lets +onlyGivenNames y6
    have k6 : Keeps S z y6 := by
      unfold y6
      apply keeps_State_updRedp (w := w.of)
      assumption
    clear_value y6
    extract_lets +onlyGivenNames y7
    have k7 : Keeps S z y7 := by
      unfold y7
      refine keeps_ite ?_ ?_
      · assumption
      · split
        · apply keeps_State_updBuf (w := w.of)
          assumption
        · assumption
    clear_value y7
    extract_lets +onlyGivenNames y8
    have k8 : Keeps S z y8 := by
      unfold y8
      apply keeps_State_release (w := w.of)
      assumption
    clear_value y8
    extract_lets +onlyGivenNames y9
    clear_value y9
    refine keeps_ite ?_ ?_
    · extract_lets +onlyGivenNames y10
      have k10 : Keeps S z y10 := by
        unfold y10
        apply keeps_State_eccCell (w := w.of)
        assumption
      clear_value y10
      refine keeps_ite ?_ ?_
      · assumption
      · apply keeps_State_tailEv (w := w.of)
        assumption
    · refine keeps_ite ?_ ?_
      · apply keeps_State_tailEv (w := w.of)
        assumption
      · extract_lets +onlyGivenNames y11
        have k11 : Keeps S z y11 := by
          unfold y11
          refine keeps_ite ?_ ?_
          · apply keeps_State_memCorrected (w := w.of)
            assumption
          · assumption
        clear_value y11
        extract_lets +onlyGivenNames y12
        have k12 : Keeps S z y12 := by
          unfold y12
          apply keeps_State_count (w := w.of)
          assumption
        clear_value y12
        apply keeps_State_frameOut (w := w.of)
        assumption

theorem keeps_State_egressMismatch (a1 : State) (a2 : Nat) (a3 : Nat) (a4 : Nat) (h1 : Keeps S z a1) (w : Sub [.objs,
    .irq, .jour, .rates, .sent, .safety] S) : Keeps S z (State.egressMismatch a1 a2 a3 a4) := by
  unfold State.egressMismatch
  apply keeps_State_latchSf (w := w.of)
  apply keeps_State_dangerCycle (w := w.of)
  apply keeps_State_count (w := w.of)
  assumption

theorem keeps_State_writerTakes (a1 : State) (a2 : Cell) (h1 : Keeps S z a1) (w : Sub [.fabric] S) : Keeps S z
    (State.writerTakes a1 a2) := by
  unfold State.writerTakes
  extract_lets +onlyGivenNames y1
  clear_value y1
  apply keeps_State_updFabric (w := w.of)
  assumption

theorem keeps_State_localTakes (a1 : State) (a2 : Nat) (a3 : Cell) (h1 : Keeps S z a1) (w : Sub [.stor] S) : Keeps S z
    (State.localTakes a1 a2 a3) := by
  unfold State.localTakes
  refine keeps_ite ?_ ?_
  · assumption
  · apply keeps_State_storageTakes (w := w.of)
    assumption

theorem keeps_execEgressSerialise (a1 : Nat) (a2 : Nat) (a3 : Nat) (a4 : Serving) (a5 : State) (h5 : Keeps S z a5) (w
    : Sub [.objs, .timers, .irq, .jour, .rates, .sent, .fabric, .eth, .stor, .safety] S) : KeepsA S z
    (execEgressSerialise a1 a2 a3 a4 a5) := by
  unfold execEgressSerialise
  apply keeps_onPort
  · assumption
  · refine keeps_ite ?_ ?_
    · assumption
    · split
      · assumption
      · refine keeps_ite ?_ ?_
        · assumption
        · split
          · refine keeps_ite ?_ ?_
            · assumption
            · apply keeps_State_egressMismatch (w := w.of)
              apply keeps_State_release (w := w.of)
              assumption
          · refine keeps_ite ?_ ?_
            · refine keeps_ite ?_ ?_
              · assumption
              · apply keeps_State_sendFrame (w := w.of)
                assumption
            · extract_lets +onlyGivenNames y1
              have k1 : Keeps S z y1 := by
                unfold y1
                apply keeps_State_release (w := w.of)
                assumption
              clear_value y1
              refine keeps_ite ?_ ?_
              · apply keeps_State_eccLocal (w := w.of)
                assumption
              · extract_lets +onlyGivenNames y2
                have k2 : Keeps S z y2 := by
                  unfold y2
                  refine keeps_ite ?_ ?_
                  · apply keeps_State_memCorrected (w := w.of)
                    assumption
                  · assumption
                clear_value y2
                extract_lets +onlyGivenNames y3
                have k3 : Keeps S z y3 := by
                  unfold y3
                  refine keeps_ite ?_ ?_
                  · apply keeps_State_writerTakes (w := w.of)
                    assumption
                  · refine keeps_ite ?_ ?_
                    · assumption
                    · apply keeps_State_localTakes (w := w.of)
                      assumption
                clear_value y3
                apply keeps_State_send (w := w.of)
                apply keeps_State_count (w := w.of)
                assumption

theorem keeps_execRedAverageIdleUpdate (a1 : Nat) (a2 : Nat) (a3 : State) (h3 : Keeps S z a3) (w : Sub [.fabric] S) :
    KeepsA S z (execRedAverageIdleUpdate a1 a2 a3) := by
  unfold execRedAverageIdleUpdate
  apply keeps_onPort
  · assumption
  · extract_lets +onlyGivenNames y1
    clear_value y1
    refine keeps_ite ?_ ?_
    · apply keeps_State_average (w := w.of)
      apply keeps_State_updQueue (w := w.of)
      assumption
    · assumption

theorem keeps_execStallBoundExpired (a1 : Nat) (a2 : Nat) (a3 : State) (h3 : Keeps S z a3) (w : Sub [.objs,
    .freeCount, .timers, .sessions, .irq, .jour, .rates, .sent, .trunks, .tunnels, .fabric, .scheds, .disps, .usb,
    .pl, .stor, .fld] S) : KeepsA S z (execStallBoundExpired a1 a2 a3) := by
  unfold execStallBoundExpired
  apply keeps_onPort
  · assumption
  · refine keeps_ite ?_ ?_
    · extract_lets +onlyGivenNames y1
      clear_value y1
      extract_lets +onlyGivenNames y2
      have k2 : Keeps S z y2 := by
        unfold y2
        apply keeps_forAll
        · intro x3
          intro x4
          intro k5
          apply keeps_State_drainExpired (w := w.of)
          assumption
        · assumption
      clear_value y2
      extract_lets +onlyGivenNames y6
      clear_value y6
      refine keeps_ite ?_ ?_
      · assumption
      · extract_lets +onlyGivenNames y7
        have k7 : Keeps S z y7 := by
          unfold y7
          apply keeps_State_release (w := w.of)
          assumption
        clear_value y7
        extract_lets +onlyGivenNames y8
        have k8 : Keeps S z y8 := by
          unfold y8
          apply keeps_State_updQueue (w := w.of)
          assumption
        clear_value y8
        extract_lets +onlyGivenNames y9
        have k9 : Keeps S z y9 := by
          unfold y9
          apply keeps_State_count (w := w.of)
          apply keeps_State_count (w := w.of)
          assumption
        clear_value y9
        apply keeps_State_fabricEv (w := w.of)
        assumption
    · assumption

theorem keeps_execHoldBoundExpired (a1 : Nat) (a2 : State) (h2 : Keeps S z a2) (w : Sub [.objs, .irq, .jour, .rates,
    .trunks] S) : KeepsA S z (execHoldBoundExpired a1 a2) := by
  unfold execHoldBoundExpired
  apply keeps_onPort
  · assumption
  · extract_lets +onlyGivenNames y1
    clear_value y1
    extract_lets +onlyGivenNames y2
    have k2 : Keeps S z y2 := by
      unfold y2
      apply keeps_State_updTrunk (w := w.of)
      assumption
    clear_value y2
    extract_lets +onlyGivenNames y3
    have k3 : Keeps S z y3 := by
      unfold y3
      apply keeps_forAll
      · intro x4
        intro x5
        intro k6
        apply keeps_State_giveCredit (w := w.of)
        assumption
      · assumption
    clear_value y3
    apply keeps_forAll
    · intro x7
      intro x8
      intro k9
      extract_lets +onlyGivenNames y10
      clear_value y10
      refine keeps_ite ?_ ?_
      · assumption
      · apply keeps_State_fabricEv (w := w.of)
        apply keeps_State_count (w := w.of)
        assumption
    · assumption

theorem keeps_execOpenUnitTimeout (a1 : Nat) (a2 : Nat) (a3 : Nat) (a4 : State) (h4 : Keeps S z a4) (w : Sub [.objs,
    .timers, .irq, .jour, .rates, .fabric] S) : KeepsA S z (execOpenUnitTimeout a1 a2 a3 a4) := by
  unfold execOpenUnitTimeout
  extract_lets +onlyGivenNames y1
  clear_value y1
  apply keeps_onPort
  · assumption
  · refine keeps_ite ?_ ?_
    · apply keeps_State_setUnit (w := w.of)
      apply keeps_State_dropUnit (w := w.of)
      assumption
    · assumption

theorem keeps_execL2EntryAged (a1 : Nat) (a2 : State) (h2 : Keeps S z a2) (w : Sub [.objs, .fabric] S) : KeepsA S z
    (execL2EntryAged a1 a2) := by
  unfold execL2EntryAged
  extract_lets +onlyGivenNames y1
  clear_value y1
  apply keeps_onUnit
  refine keeps_ite ?_ ?_
  · apply keeps_State_setL2 (w := w.of)
    assumption
  · assumption

theorem keeps_State_showL2 (a1 : State) (a2 : L2) (h1 : Keeps S z a1) (w : Sub [.objs] S) : Keeps S z (State.showL2 a1
    a2) := by
  unfold State.showL2
  apply keeps_State_setAll (w := w.of)
  assumption

theorem keeps_execL2ReadMatch (a1 : Path) (a2 : State) (h2 : Keeps S z a2) (w : Sub [.objs, .sessions, .cmds, .irq,
    .jour] S) : KeepsA S z (execL2ReadMatch a1 a2) := by
  unfold execL2ReadMatch
  apply keeps_onPath
  · assumption
  · apply keeps_State_command (w := w.of)
    · assumption
    · intro x1
      intro k2
      split
      · apply keeps_State_cmdCommit (w := w.of)
        apply keeps_State_showL2 (w := w.of)
        assumption
      · apply keeps_State_cmdFail (w := w.of)
        assumption

theorem keeps_execL2ReadSlot (a1 : Path) (a2 : State) (h2 : Keeps S z a2) (w : Sub [.objs, .sessions, .cmds, .irq,
    .jour] S) : KeepsA S z (execL2ReadSlot a1 a2) := by
  unfold execL2ReadSlot
  apply keeps_onPath
  · assumption
  · apply keeps_State_commandNow (w := w.of)
    · assumption
    · intro x1
      intro k2
      apply keeps_State_showL2 (w := w.of)
      assumption

theorem keeps_execL2WriteEntry (a1 : Path) (a2 : State) (h2 : Keeps S z a2) (w : Sub [.objs, .sessions, .cmds, .irq,
    .jour, .fabric] S) : KeepsA S z (execL2WriteEntry a1 a2) := by
  unfold execL2WriteEntry
  apply keeps_onPath
  · assumption
  · apply keeps_State_command (w := w.of)
    · assumption
    · intro x1
      intro k2
      extract_lets +onlyGivenNames y3
      clear_value y3
      extract_lets +onlyGivenNames y4
      clear_value y4
      split
      · apply keeps_State_cmdCommit (w := w.of)
        apply keeps_State_setL2 (w := w.of)
        assumption
      · apply keeps_State_cmdFail (w := w.of)
        assumption

theorem keeps_execL2DeleteEntry (a1 : Path) (a2 : State) (h2 : Keeps S z a2) (w : Sub [.objs, .sessions, .cmds, .irq,
    .jour, .fabric] S) : KeepsA S z (execL2DeleteEntry a1 a2) := by
  unfold execL2DeleteEntry
  apply keeps_onPath
  · assumption
  · apply keeps_State_command (w := w.of)
    · assumption
    · intro x1
      intro k2
      split
      · apply keeps_State_cmdCommit (w := w.of)
        apply keeps_State_setL2 (w := w.of)
        assumption
      · apply keeps_State_cmdFail (w := w.of)
        assumption

theorem keeps_State_flushLearnt (a1 : State) (h1 : Keeps S z a1) (w : Sub [.objs, .fabric] S) : Keeps S z
    (State.flushLearnt a1) := by
  unfold State.flushLearnt
  apply keeps_forAll
  · intro x1
    intro x2
    intro k3
    refine keeps_ite ?_ ?_
    · assumption
    · apply keeps_State_setL2 (w := w.of)
      assumption
  · assumption

theorem keeps_execL2FlushLearnt (a1 : Path) (a2 : State) (h2 : Keeps S z a2) (w : Sub [.objs, .sessions, .cmds, .irq,
    .jour, .fabric] S) : KeepsA S z (execL2FlushLearnt a1 a2) := by
  unfold execL2FlushLearnt
  apply keeps_onPath
  · assumption
  · apply keeps_State_commandNow (w := w.of)
    · assumption
    · intro x1
      intro k2
      apply keeps_State_flushLearnt (w := w.of)
      assumption

theorem keeps_execFabricClearCounters (a1 : Path) (a2 : State) (h2 : Keeps S z a2) (w : Sub [.objs, .sessions, .cmds,
    .irq, .jour] S) : KeepsA S z (execFabricClearCounters a1 a2) := by
  unfold execFabricClearCounters
  apply keeps_onPath
  · assumption
  · apply keeps_State_commandNow (w := w.of)
    · assumption
    · intro x1
      intro k2
      apply keeps_State_clear (w := w.of)
      assumption

end Sys2Proof.Laws
end

