-- ==== Sys2Proof/Laws/KeepsSystem.lean ====
section
/-!
SUPPORT. What each operation can change and what it keeps: reset, start-up, pair B, the journal, USB, sessions and update. One lemma for each definition, in the order of the
files under Machine/.
-/

set_option Elab.async false

set_option linter.all false

namespace Sys2Proof.Laws

open Sys2Proof Sys2Proof.Machine

variable {S : Piece → Bool} {z : State}

theorem keeps_State_updPd (a1 : State) (a2 : Pd → Pd) (h1 : Keeps S z a1) (w : Sub [.pd] S) : Keeps S z (State.updPd
    a1 a2) := by
  unfold State.updPd
  refine keeps_mk ?_ (w_pd := .inr w.has)
  assumption

theorem keeps_State_pdEv (a1 : State) (a2 : Nat) (a3 : Nat) (a4 : Nat) (a5 : Bytes) (h1 : Keeps S z a1) (w : Sub
    [.irq, .jour] S) : Keeps S z (State.pdEv a1 a2 a3 a4 a5) := by
  unfold State.pdEv
  apply keeps_State_ev (w := w.of)
  assumption

theorem keeps_State_presentRp (a1 : State) (a2 : Nat) (h1 : Keeps S z a1) (w : Sub [.sent] S) : Keeps S z
    (State.presentRp a1 a2) := by
  unfold State.presentRp
  apply keeps_State_send (w := w.of)
  assumption

theorem keeps_State_pdPut (a1 : State) (a2 : PdMsg) (h1 : Keeps S z a1) (w : Sub [.timers, .sent, .pd] S) : Keeps S z
    (State.pdPut a1 a2) := by
  unfold State.pdPut
  extract_lets +onlyGivenNames y1
  have k1 : Keeps S z y1 := by
    unfold y1
    refine keeps_ite ?_ ?_
    · apply keeps_State_presentRp (w := w.of)
      assumption
    · assumption
  clear_value y1
  extract_lets +onlyGivenNames y2
  have k2 : Keeps S z y2 := by
    unfold y2
    apply keeps_State_start (w := w.of)
    apply keeps_State_send (w := w.of)
    assumption
  clear_value y2
  extract_lets +onlyGivenNames y3
  have k3 : Keeps S z y3 := by
    unfold y3
    refine keeps_ite ?_ ?_
    · apply keeps_State_start (w := w.of)
      assumption
    · assumption
  clear_value y3
  apply keeps_State_updPd (w := w.of)
  assumption

theorem keeps_State_pdSend (a1 : State) (a2 : PdMsg) (h1 : Keeps S z a1) (w : Sub [.timers, .sent, .pd] S) : Keeps S z
    (State.pdSend a1 a2) := by
  unfold State.pdSend
  refine keeps_ite ?_ ?_
  · apply keeps_State_updPd (w := w.of)
    assumption
  · apply keeps_State_pdPut (w := w.of)
    assumption

theorem keeps_State_pdLater (a1 : State) (a2 : PdMsg) (h1 : Keeps S z a1) (w : Sub [.pd] S) : Keeps S z (State.pdLater
    a1 a2) := by
  unfold State.pdLater
  apply keeps_State_updPd (w := w.of)
  assumption

theorem keeps_State_pdAsk (a1 : State) (a2 : PdMsg) (h1 : Keeps S z a1) (w : Sub [.timers, .sent, .pd] S) : Keeps S z
    (State.pdAsk a1 a2) := by
  unfold State.pdAsk
  refine keeps_ite ?_ ?_
  · apply keeps_State_pdLater (w := w.of)
    assumption
  · apply keeps_State_pdSend (w := w.of)
    assumption

theorem keeps_State_readyRp (a1 : State) (h1 : Keeps S z a1) (w : Sub [.sent] S) : Keeps S z (State.readyRp a1) := by
  unfold State.readyRp
  refine keeps_ite ?_ ?_
  · apply keeps_State_presentRp (w := w.of)
    assumption
  · assumption

theorem keeps_State_pdDone (a1 : State) (a2 : Nat) (a3 : Nat) (h1 : Keeps S z a1) (w : Sub [.objs, .irq, .jour] S) :
    Keeps S z (State.pdDone a1 a2 a3) := by
  unfold State.pdDone
  refine keeps_ite ?_ ?_
  · extract_lets +onlyGivenNames y1
    have k1 : Keeps S z y1 := by
      unfold y1
      refine keeps_ite ?_ ?_
      · apply keeps_State_cmdCommit (w := w.of)
        assumption
      · apply keeps_State_cmdFail (w := w.of)
        assumption
    clear_value y1
    apply keeps_State_pdEv (w := w.of)
    assumption
  · assumption

theorem keeps_State_pdEndAny (a1 : State) (a2 : Nat) (h1 : Keeps S z a1) (w : Sub [.objs, .irq, .jour] S) : Keeps S z
    (State.pdEndAny a1 a2) := by
  unfold State.pdEndAny
  apply keeps_forAll
  · intro x1
    intro x2
    intro k3
    apply keeps_State_pdDone (w := w.of)
    assumption
  · assumption

theorem keeps_State_sendCaps (a1 : State) (h1 : Keeps S z a1) (w : Sub [.timers, .irq, .jour, .sent, .pd] S) : Keeps S
    z (State.sendCaps a1) := by
  unfold State.sendCaps
  extract_lets +onlyGivenNames y1
  have k1 : Keeps S z y1 := by
    unfold y1
    apply keeps_forAll
    · intro x2
      intro x3
      intro k4
      apply keeps_onlyIf
      · intro x5
        intro k6
        apply keeps_State_pdEv (w := w.of)
        assumption
      · assumption
    · assumption
  clear_value y1
  extract_lets +onlyGivenNames y7
  have k7 : Keeps S z y7 := by
    unfold y7
    refine keeps_ite ?_ ?_
    · apply keeps_State_presentRp (w := w.of)
      assumption
    · assumption
  clear_value y7
  extract_lets +onlyGivenNames y8
  clear_value y8
  apply keeps_State_pdSend (w := w.of)
  apply keeps_State_updPd (w := w.of)
  assumption

theorem keeps_State_requestDone (a1 : State) (a2 : Nat) (a3 : Nat) (h1 : Keeps S z a1) (w : Sub [.objs, .irq, .jour]
    S) : Keeps S z (State.requestDone a1 a2 a3) := by
  unfold State.requestDone
  refine keeps_ite ?_ ?_
  · apply keeps_State_pdDone (w := w.of)
    assumption
  · assumption

theorem keeps_State_putRequest (a1 : State) (a2 : Nat) (h1 : Keeps S z a1) (w : Sub [.objs, .timers, .irq, .jour,
    .sent, .pd] S) : Keeps S z (State.putRequest a1 a2) := by
  unfold State.putRequest
  extract_lets +onlyGivenNames y1
  clear_value y1
  extract_lets +onlyGivenNames y2
  have k2 : Keeps S z y2 := by
    unfold y2
    split
    · refine keeps_ite ?_ ?_
      · assumption
      · apply keeps_State_requestDone (w := w.of)
        assumption
    · assumption
  clear_value y2
  apply keeps_State_pdSend (w := w.of)
  apply keeps_State_updPd (w := w.of)
  assumption

theorem keeps_State_sendRequest (a1 : State) (a2 : Nat) (a3 : Bool) (h1 : Keeps S z a1) (w : Sub [.objs, .timers,
    .irq, .jour, .sent, .pd] S) : Keeps S z (State.sendRequest a1 a2 a3) := by
  unfold State.sendRequest
  extract_lets +onlyGivenNames y1
  clear_value y1
  extract_lets +onlyGivenNames y2
  clear_value y2
  refine keeps_ite ?_ ?_
  · apply keeps_State_pdLater (w := w.of)
    assumption
  · apply keeps_State_putRequest (w := w.of)
    assumption

theorem keeps_State_vsel (a1 : State) (a2 : Nat) (h1 : Keeps S z a1) (w : Sub [.sent] S) : Keeps S z (State.vsel a1
    a2) := by
  unfold State.vsel
  apply keeps_State_send (w := w.of)
  apply keeps_State_send (w := w.of)
  assumption

theorem keeps_State_discharging (a1 : State) (a2 : Bool) (h1 : Keeps S z a1) (w : Sub [.sent, .pd] S) : Keeps S z
    (State.discharging a1 a2) := by
  unfold State.discharging
  apply keeps_State_send (w := w.of)
  apply keeps_State_updPd (w := w.of)
  assumption

theorem keeps_State_vconn (a1 : State) (a2 : Bool) (h1 : Keeps S z a1) (w : Sub [.objs, .sent] S) : Keeps S z
    (State.vconn a1 a2) := by
  unfold State.vconn
  apply keeps_State_send (w := w.of)
  apply keeps_State_set (w := w.of)
  assumption

theorem keeps_State_contract (a1 : State) (a2 : Nat) (a3 : Nat) (a4 : Nat) (h1 : Keeps S z a1) (w : Sub [.objs,
    .timers, .irq, .jour, .pd] S) : Keeps S z (State.contract a1 a2 a3 a4) := by
  unfold State.contract
  extract_lets +onlyGivenNames y1
  have k1 : Keeps S z y1 := by
    unfold y1
    apply keeps_State_setAll (w := w.of)
    assumption
  clear_value y1
  extract_lets +onlyGivenNames y2
  have k2 : Keeps S z y2 := by
    unfold y2
    apply keeps_State_stopAll (w := w.of)
    apply keeps_State_updPd (w := w.of)
    assumption
  clear_value y2
  apply keeps_State_pdEv (w := w.of)
  assumption

theorem keeps_State_noContract (a1 : State) (h1 : Keeps S z a1) (w : Sub [.objs, .pd] S) : Keeps S z (State.noContract
    a1) := by
  unfold State.noContract
  apply keeps_State_updPd (w := w.of)
  apply keeps_State_setAll (w := w.of)
  assumption

theorem keeps_State_putSwap (a1 : State) (a2 : Nat) (h1 : Keeps S z a1) (w : Sub [.timers, .sent, .pd] S) : Keeps S z
    (State.putSwap a1 a2) := by
  unfold State.putSwap
  extract_lets +onlyGivenNames y1
  have k1 : Keeps S z y1 := by
    unfold y1
    apply keeps_State_updPd (w := w.of)
    assumption
  clear_value y1
  apply keeps_State_pdAsk (w := w.of)
  assumption

theorem keeps_State_askSwap (a1 : State) (a2 : Nat) (h1 : Keeps S z a1) (w : Sub [.timers, .sent, .pd] S) : Keeps S z
    (State.askSwap a1 a2) := by
  unfold State.askSwap
  refine keeps_ite ?_ ?_
  · apply keeps_State_putSwap (w := w.of)
    assumption
  · refine keeps_ite ?_ ?_
    · assumption
    · apply keeps_State_updPd (w := w.of)
      assumption

theorem keeps_State_swapEnd (a1 : State) (a2 : Nat) (h1 : Keeps S z a1) (w : Sub [.objs, .timers, .irq, .jour, .sent,
    .pd] S) : Keeps S z (State.swapEnd a1 a2) := by
  unfold State.swapEnd
  extract_lets +onlyGivenNames y1
  clear_value y1
  extract_lets +onlyGivenNames y2
  have k2 : Keeps S z y2 := by
    unfold y2
    apply keeps_State_pdEv (w := w.of)
    assumption
  clear_value y2
  extract_lets +onlyGivenNames y3
  have k3 : Keeps S z y3 := by
    unfold y3
    apply keeps_State_stop (w := w.of)
    apply keeps_State_updPd (w := w.of)
    assumption
  clear_value y3
  extract_lets +onlyGivenNames y4
  have k4 : Keeps S z y4 := by
    unfold y4
    refine keeps_ite ?_ ?_
    · apply keeps_State_readyRp (w := w.of)
      apply keeps_State_pdDone (w := w.of)
      assumption
    · assumption
  clear_value y4
  refine keeps_ite ?_ ?_
  · assumption
  · apply keeps_State_putSwap (w := w.of)
    assumption

theorem keeps_State_defaultRole (a1 : State) (h1 : Keeps S z a1) (w : Sub [.objs] S) : Keeps S z (State.defaultRole
    a1) := by
  unfold State.defaultRole
  apply keeps_State_set (w := w.of)
  assumption

theorem keeps_State_swapRoles (a1 : State) (h1 : Keeps S z a1) (w : Sub [.objs, .timers, .irq, .jour, .sent, .pd] S) :
    Keeps S z (State.swapRoles a1) := by
  unfold State.swapRoles
  extract_lets +onlyGivenNames y1
  have k1 : Keeps S z y1 := by
    unfold y1
    apply keeps_State_stop (w := w.of)
    apply keeps_State_updPd (w := w.of)
    assumption
  clear_value y1
  apply keeps_State_swapEnd (w := w.of)
  apply keeps_State_set (w := w.of)
  assumption

theorem keeps_State_autoUfp (a1 : State) (h1 : Keeps S z a1) (w : Sub [.timers, .sent, .pd] S) : Keeps S z
    (State.autoUfp a1) := by
  unfold State.autoUfp
  refine keeps_ite ?_ ?_
  · apply keeps_State_askSwap (w := w.of)
    apply keeps_State_updPd (w := w.of)
    assumption
  · assumption

theorem keeps_State_hardReset (a1 : State) (a2 : Bool) (h1 : Keeps S z a1) (w : Sub [.objs, .timers, .irq, .jour,
    .sent, .pd] S) : Keeps S z (State.hardReset a1 a2) := by
  unfold State.hardReset
  extract_lets +onlyGivenNames y1
  clear_value y1
  extract_lets +onlyGivenNames y2
  have k2 : Keeps S z y2 := by
    unfold y2
    refine keeps_ite ?_ ?_
    · apply keeps_State_send (w := w.of)
      assumption
    · assumption
  clear_value y2
  extract_lets +onlyGivenNames y3
  have k3 : Keeps S z y3 := by
    unfold y3
    apply keeps_State_count (w := w.of)
    assumption
  clear_value y3
  extract_lets +onlyGivenNames y4
  have k4 : Keeps S z y4 := by
    unfold y4
    apply keeps_State_pdEv (w := w.of)
    assumption
  clear_value y4
  extract_lets +onlyGivenNames y5
  have k5 : Keeps S z y5 := by
    unfold y5
    apply keeps_State_stopAll (w := w.of)
    apply keeps_State_pdEndAny (w := w.of)
    assumption
  clear_value y5
  extract_lets +onlyGivenNames y6
  have k6 : Keeps S z y6 := by
    unfold y6
    refine keeps_ite ?_ ?_
    · apply keeps_State_vconn (w := w.of)
      assumption
    · assumption
  clear_value y6
  extract_lets +onlyGivenNames y7
  have k7 : Keeps S z y7 := by
    unfold y7
    apply keeps_State_noContract (w := w.of)
    apply keeps_State_defaultRole (w := w.of)
    assumption
  clear_value y7
  extract_lets +onlyGivenNames y8
  have k8 : Keeps S z y8 := by
    unfold y8
    apply keeps_State_updPd (w := w.of)
    assumption
  clear_value y8
  refine keeps_ite ?_ ?_
  · apply keeps_State_start (w := w.of)
    apply keeps_State_updPd (w := w.of)
    apply keeps_State_presentRp (w := w.of)
    assumption
  · apply keeps_State_updPd (w := w.of)
    assumption

theorem keeps_State_liftPull (a1 : State) (a2 : Bool) (h1 : Keeps S z a1) (w : Sub [.sent] S) : Keeps S z
    (State.liftPull a1 a2) := by
  unfold State.liftPull
  refine keeps_ite ?_ ?_
  · apply keeps_State_send (w := w.of)
    assumption
  · assumption

theorem keeps_State_unattach (a1 : State) (h1 : Keeps S z a1) (w : Sub [.objs, .timers, .irq, .jour, .sent, .pd,
    .power] S) : Keeps S z (State.unattach a1) := by
  unfold State.unattach
  extract_lets +onlyGivenNames y1
  have k1 : Keeps S z y1 := by
    unfold y1
    apply keeps_State_stopAll (w := w.of)
    apply keeps_State_pdEndAny (w := w.of)
    refine keeps_ite ?_ ?_
    · apply keeps_State_liftPull (w := w.of)
      assumption
    · assumption
  clear_value y1
  extract_lets +onlyGivenNames y2
  have k2 : Keeps S z y2 := by
    unfold y2
    refine keeps_ite ?_ ?_
    · apply keeps_State_vconn (w := w.of)
      assumption
    · assumption
  clear_value y2
  extract_lets +onlyGivenNames y3
  have k3 : Keeps S z y3 := by
    unfold y3
    apply keeps_State_noContract (w := w.of)
    apply keeps_State_request (w := w.of)
    assumption
  clear_value y3
  extract_lets +onlyGivenNames y4
  have k4 : Keeps S z y4 := by
    unfold y4
    apply keeps_State_setAll (w := w.of)
    assumption
  clear_value y4
  refine keeps_mk ?_ (w_pd := .inr w.has)
  assumption

theorem keeps_State_errorRecovery (a1 : State) (h1 : Keeps S z a1) (w : Sub [.objs, .timers, .irq, .jour, .sent, .pd,
    .power] S) : Keeps S z (State.errorRecovery a1) := by
  unfold State.errorRecovery
  apply keeps_State_start (w := w.of)
  apply keeps_State_send (w := w.of)
  apply keeps_State_set (w := w.of)
  apply keeps_State_unattach (w := w.of)
  assumption

theorem keeps_State_terminate (a1 : State) (h1 : Keeps S z a1) (w : Sub [.timers, .sent, .pd] S) : Keeps S z
    (State.terminate a1) := by
  unfold State.terminate
  extract_lets +onlyGivenNames y1
  clear_value y1
  extract_lets +onlyGivenNames y2
  have k2 : Keeps S z y2 := by
    unfold y2
    apply keeps_State_send (w := w.of)
    apply keeps_State_updPd (w := w.of)
    assumption
  clear_value y2
  refine keeps_ite ?_ ?_
  · apply keeps_State_start (w := w.of)
    assumption
  · apply keeps_State_stop (w := w.of)
    assumption

theorem keeps_State_roleModeWritten (a1 : State) (h1 : Keeps S z a1) (w : Sub [.objs, .timers, .irq, .jour, .sent,
    .pd, .power] S) : Keeps S z (State.roleModeWritten a1) := by
  unfold State.roleModeWritten
  refine keeps_ite ?_ ?_
  · apply keeps_State_errorRecovery (w := w.of)
    assumption
  · refine keeps_ite ?_ ?_
    · assumption
    · apply keeps_State_terminate (w := w.of)
      apply keeps_State_setAll (w := w.of)
      apply keeps_State_stopAll (w := w.of)
      assumption

theorem keeps_State_rpWritten (a1 : State) (h1 : Keeps S z a1) (w : Sub [.sent] S) : Keeps S z (State.rpWritten a1) :=
    by
  unfold State.rpWritten
  refine keeps_ite ?_ ?_
  · apply keeps_State_presentRp (w := w.of)
    assumption
  · assumption

theorem keeps_State_protect (a1 : State) (a2 : Nat) (a3 : Nat) (h1 : Keeps S z a1) (w : Sub [.objs, .irq, .jour] S) :
    Keeps S z (State.protect a1 a2 a3) := by
  unfold State.protect
  extract_lets +onlyGivenNames y1
  clear_value y1
  apply keeps_State_pdEv (w := w.of)
  apply keeps_State_count (w := w.of)
  assumption

theorem keeps_State_svcTrip (a1 : State) (a2 : Nat) (h1 : Keeps S z a1) (w : Sub [.objs, .timers, .irq, .jour, .sent,
    .pd, .power] S) : Keeps S z (State.svcTrip a1 a2) := by
  unfold State.svcTrip
  refine keeps_ite ?_ ?_
  · assumption
  · extract_lets +onlyGivenNames y1
    have k1 : Keeps S z y1 := by
      unfold y1
      refine keeps_ite ?_ ?_
      · apply keeps_State_protect (w := w.of)
        assumption
      · refine keeps_ite ?_ ?_
        · apply keeps_State_protect (w := w.of)
          assumption
        · assumption
    clear_value y1
    apply keeps_State_set (w := w.of)
    apply keeps_State_errorRecovery (w := w.of)
    assumption

theorem keeps_State_svcReturn (a1 : State) (h1 : Keeps S z a1) (w : Sub [.objs, .timers, .sent, .pd] S) : Keeps S z
    (State.svcReturn a1) := by
  unfold State.svcReturn
  refine keeps_ite ?_ ?_
  · extract_lets +onlyGivenNames y1
    have k1 : Keeps S z y1 := by
      unfold y1
      apply keeps_State_set (w := w.of)
      assumption
    clear_value y1
    refine keeps_ite ?_ ?_
    · apply keeps_State_terminate (w := w.of)
      assumption
    · assumption
  · assumption

theorem keeps_State_svcPowerGood (a1 : State) (h1 : Keeps S z a1) (w : Sub [.timers, .pd] S) : Keeps S z
    (State.svcPowerGood a1) := by
  unfold State.svcPowerGood
  extract_lets +onlyGivenNames y1
  have k1 : Keeps S z y1 := by
    unfold y1
    apply keeps_State_updPd (w := w.of)
    assumption
  clear_value y1
  refine keeps_ite ?_ ?_
  · apply keeps_State_start (w := w.of)
    assumption
  · assumption

theorem keeps_State_showSinkCaps (a1 : State) (h1 : Keeps S z a1) (w : Sub [.objs, .sent, .pd] S) : Keeps S z
    (State.showSinkCaps a1) := by
  unfold State.showSinkCaps
  split
  · extract_lets +onlyGivenNames y1
    have k1 : Keeps S z y1 := by
      unfold y1
      apply keeps_State_setAll (w := w.of)
      assumption
    clear_value y1
    apply keeps_State_readyRp (w := w.of)
    apply keeps_State_updPd (w := w.of)
    assumption
  · assumption

theorem keeps_State_crcOver (a1 : State) (h1 : Keeps S z a1) (w : Sub [.timers, .pd] S) : Keeps S z (State.crcOver a1)
    := by
  unfold State.crcOver
  apply keeps_State_stop (w := w.of)
  apply keeps_State_updPd (w := w.of)
  assumption

theorem keeps_State_pdNext (a1 : State) (h1 : Keeps S z a1) (w : Sub [.timers, .sent, .pd] S) : Keeps S z
    (State.pdNext a1) := by
  unfold State.pdNext
  refine keeps_ite ?_ ?_
  · assumption
  · split
    · assumption
    · apply keeps_State_pdPut (w := w.of)
      apply keeps_State_updPd (w := w.of)
      assumption

theorem keeps_State_heard (a1 : State) (h1 : Keeps S z a1) (w : Sub [.objs, .timers, .irq, .jour, .sent, .pd] S) :
    Keeps S z (State.heard a1) := by
  unfold State.heard
  extract_lets +onlyGivenNames y1
  clear_value y1
  extract_lets +onlyGivenNames y2
  have k2 : Keeps S z y2 := by
    unfold y2
    apply keeps_State_crcOver (w := w.of)
    assumption
  clear_value y2
  apply keeps_State_pdNext (w := w.of)
  split
  · apply keeps_State_pdDone (w := w.of)
    apply keeps_State_stop (w := w.of)
    apply keeps_State_updPd (w := w.of)
    assumption
  · apply keeps_State_showSinkCaps (w := w.of)
    assumption
  · assumption

theorem keeps_State_pdRestart (a1 : State) (h1 : Keeps S z a1) (w : Sub [.objs, .timers, .irq, .jour, .sent, .pd] S) :
    Keeps S z (State.pdRestart a1) := by
  unfold State.pdRestart
  extract_lets +onlyGivenNames y1
  have k1 : Keeps S z y1 := by
    unfold y1
    apply keeps_State_updPd (w := w.of)
    apply keeps_State_crcOver (w := w.of)
    assumption
  extract_lets +onlyGivenNames y2
  have k2 : Keeps S z y2 := by
    unfold y2
    split
    · apply keeps_State_requestDone (w := w.of)
      apply keeps_State_stopAll (w := w.of)
      apply keeps_State_updPd (w := w.of)
      assumption
    · assumption
  refine keeps_ite ?_ ?_
  · apply keeps_State_swapEnd (w := w.of)
    assumption
  · assumption

theorem keeps_State_crcCame (a1 : State) (h1 : Keeps S z a1) (w : Sub [.objs, .timers, .irq, .jour, .sent, .pd] S) :
    Keeps S z (State.crcCame a1) := by
  unfold State.crcCame
  refine keeps_ite ?_ ?_
  · apply keeps_State_heard (w := w.of)
    assumption
  · assumption

theorem keeps_State_attachAs (a1 : State) (a2 : Bool) (a3 : Nat) (a4 : Nat) (h1 : Keeps S z a1) (w : Sub [.objs, .irq,
    .jour, .sent, .pd, .power] S) : Keeps S z (State.attachAs a1 a2 a3 a4) := by
  unfold State.attachAs
  extract_lets +onlyGivenNames y1
  have k1 : Keeps S z y1 := by
    unfold y1
    apply keeps_State_setAll (w := w.of)
    assumption
  clear_value y1
  extract_lets +onlyGivenNames y2
  have k2 : Keeps S z y2 := by
    unfold y2
    apply keeps_State_pdEv (w := w.of)
    assumption
  clear_value y2
  refine keeps_ite ?_ ?_
  · apply keeps_State_request (w := w.of)
    apply keeps_State_vsel (w := w.of)
    apply keeps_State_presentRp (w := w.of)
    assumption
  · apply keeps_State_liftPull (w := w.of)
    apply keeps_State_updPd (w := w.of)
    assumption

theorem keeps_State_partnerLevel (a1 : State) (a2 : Nat) (h1 : Keeps S z a1) (w : Sub [.objs, .timers, .irq, .jour,
    .sent, .pd] S) : Keeps S z (State.partnerLevel a1 a2) := by
  unfold State.partnerLevel
  extract_lets +onlyGivenNames y1
  have k1 : Keeps S z y1 := by
    unfold y1
    apply keeps_State_set (w := w.of)
    assumption
  clear_value y1
  refine keeps_ite ?_ ?_
  · apply keeps_forAll
    · intro x2
      intro x3
      intro k4
      split
      · apply keeps_State_putRequest (w := w.of)
        assumption
      · apply keeps_State_pdSend (w := w.of)
        assumption
    · apply keeps_State_updPd (w := w.of)
      assumption
  · assumption

theorem keeps_State_pdSwitch (a1 : State) (a2 : Bool) (h1 : Keeps S z a1) (w : Sub [.objs, .timers, .irq, .jour,
    .sent, .pd] S) : Keeps S z (State.pdSwitch a1 a2) := by
  unfold State.pdSwitch
  refine keeps_ite ?_ ?_
  · assumption
  · refine keeps_ite ?_ ?_
    · refine keeps_ite ?_ ?_
      · refine keeps_ite ?_ ?_
        · apply keeps_State_start (w := w.of)
          assumption
        · assumption
      · apply keeps_State_pdSend (w := w.of)
        apply keeps_State_updPd (w := w.of)
        assumption
    · extract_lets +onlyGivenNames y1
      have k1 : Keeps S z y1 := by
        unfold y1
        apply keeps_State_hardReset (w := w.of)
        assumption
      clear_value y1
      apply keeps_State_updPd (w := w.of)
      assumption

theorem keeps_State_pdoChanged (a1 : State) (h1 : Keeps S z a1) (w : Sub [.timers, .irq, .jour, .sent, .pd] S) : Keeps
    S z (State.pdoChanged a1) := by
  unfold State.pdoChanged
  refine keeps_ite ?_ ?_
  · apply keeps_State_sendCaps (w := w.of)
    assumption
  · refine keeps_ite ?_ ?_
    · apply keeps_State_updPd (w := w.of)
      assumption
    · assumption

theorem keeps_State_channelsOff (a1 : State) (h1 : Keeps S z a1) (w : Sub [.objs, .timers, .sent, .power] S) : Keeps S
    z (State.channelsOff a1) := by
  unfold State.channelsOff
  extract_lets +onlyGivenNames y1
  clear_value y1
  extract_lets +onlyGivenNames y2
  have k2 : Keeps S z y2 := by
    unfold y2
    refine keeps_mk ?_ (w_power := .inr w.has)
    assumption
  clear_value y2
  apply keeps_forAll
  · intro x3
    intro x4
    intro k5
    apply keeps_onlyIf
    · intro x6
      intro k7
      apply keeps_State_stopAll (w := w.of)
      apply keeps_State_set (w := w.of)
      apply keeps_State_gate (w := w.of)
      assumption
    · assumption
  · assumption

theorem keeps_State_svcSilent (a1 : State) (h1 : Keeps S z a1) (w : Sub [.objs, .sent, .pd] S) : Keeps S z
    (State.svcSilent a1) := by
  unfold State.svcSilent
  extract_lets +onlyGivenNames y1
  have k1 : Keeps S z y1 := by
    unfold y1
    refine keeps_ite ?_ ?_
    · apply keeps_State_discharging (w := w.of)
      assumption
    · assumption
  clear_value y1
  apply keeps_State_send (w := w.of)
  apply keeps_State_vsel (w := w.of)
  apply keeps_State_vconn (w := w.of)
  assumption

theorem keeps_State_toReset (a1 : State) (a2 : Nat) (a3 : Bool) (h1 : Keeps S z a1) (w : Sub (Piece.allBut [.head,
    .freeCount]) S) : Keeps S z (State.toReset a1 a2 a3) := by
  unfold State.toReset
  refine keeps_ite (keeps_mk h1 (w_power := .inr w.has)) ?_
  extract_lets app y2 bad y4 b
  have k2 : Keeps S z y2 := keeps_ite h1 (keeps_State_ev _ _ _ _ _ _ h1 w.of)
  clear_value y2
  have k4 : Keeps S z y4 := keeps_State_svcSilent _ (keeps_State_channelsOff _ (keeps_State_pulse _ (keeps_State_set _ _ _ k2 w.of) w.of) w.of) w.of
  clear_value y4
  exact keeps_of k4 rfl rfl rfl (List.suffix_refl _) w (by intro f hf; cases f <;> first | rfl | cases hf) fun c =>
    ⟨wf_filter _ c.objs, rfl, rfl, c.ring⟩

theorem keeps_State_updBoot (a1 : State) (a2 : Boot → Boot) (h1 : Keeps S z a1) (w : Sub [.boot] S) : Keeps S z
    (State.updBoot a1 a2) := by
  unfold State.updBoot
  refine keeps_mk ?_ (w_boot := .inr w.has)
  assumption

theorem keeps_State_program (a1 : State) (a2 : Nat) (a3 : Bytes) (h1 : Keeps S z a1) (w : Sub [.boot] S) : Keeps S z
    (State.program a1 a2 a3) := by
  induction a3 generalizing a1 a2 with
  | nil =>
    rw [State.program]
    assumption
  | cons e r ih =>
    rw [State.program]
    apply ih
    apply keeps_State_updBoot (w := w.of)
    assumption

theorem keeps_State_eraseRegion (a1 : State) (a2 : Nat) (h1 : Keeps S z a1) (w : Sub [.boot] S) : Keeps S z
    (State.eraseRegion a1 a2) := by
  unfold State.eraseRegion
  apply keeps_State_updBoot (w := w.of)
  assumption

theorem keeps_State_note (a1 : State) (a2 : Nat) (a3 : Nat) (a4 : Bytes) (h1 : Keeps S z a1) (w : Sub [.boot] S) :
    Keeps S z (State.note a1 a2 a3 a4) := by
  unfold State.note
  apply keeps_State_updBoot (w := w.of)
  assumption

theorem keeps_State_enterLift (a1 : State) (a2 : Nat) (h1 : Keeps S z a1) (w : Sub [.objs, .sent, .boot] S) : Keeps S
    z (State.enterLift a1 a2) := by
  unfold State.enterLift
  extract_lets +onlyGivenNames y1
  have k1 : Keeps S z y1 := by
    unfold y1
    apply keeps_State_updBoot (w := w.of)
    apply keeps_State_setAll (w := w.of)
    assumption
  clear_value y1
  extract_lets +onlyGivenNames y2
  have k2 : Keeps S z y2 := by
    unfold y2
    apply keeps_State_note (w := w.of)
    assumption
  clear_value y2
  refine keeps_ite ?_ ?_
  · apply keeps_State_liftPull (w := w.of)
    assumption
  · assumption

theorem keeps_State_putCopy (a1 : State) (a2 : Copy) (h1 : Keeps S z a1) (w : Sub [.boot] S) : Keeps S z
    (State.putCopy a1 a2) := by
  unfold State.putCopy
  extract_lets +onlyGivenNames y1
  clear_value y1
  extract_lets +onlyGivenNames y2
  have k2 : Keeps S z y2 := by
    unfold y2
    apply keeps_State_updBoot (w := w.of)
    assumption
  clear_value y2
  apply keeps_State_updBoot (w := w.of)
  assumption

theorem keeps_State_useCopy (a1 : State) (a2 : Option Copy) (a3 : List Nat) (h1 : Keeps S z a1) (w : Sub [.boot] S) :
    Keeps S z (State.useCopy a1 a2 a3) := by
  unfold State.useCopy
  extract_lets +onlyGivenNames y1
  clear_value y1
  apply keeps_State_updBoot (w := w.of)
  assumption

theorem keeps_State_applyCopy (a1 : State) (a2 : Copy) (a3 : List Nat) (h1 : Keeps S z a1) (w : Sub [.objs, .strs] S)
    : Keeps S z (State.applyCopy a1 a2 a3) := by
  unfold State.applyCopy
  extract_lets +onlyGivenNames y1
  clear_value y1
  extract_lets +onlyGivenNames y2
  have k2 : Keeps S z y2 := by
    unfold y2
    apply keeps_forAll
    · intro x3
      intro x4
      intro k5
      apply keeps_State_set (w := w.of)
      assumption
    · assumption
  clear_value y2
  extract_lets +onlyGivenNames y6
  have k6 : Keeps S z y6 := by
    unfold y6
    apply keeps_forAll
    · intro x7
      intro x8
      intro k9
      apply keeps_State_set (w := w.of)
      assumption
    · assumption
  clear_value y6
  apply keeps_forAll
  · intro x10
    intro x11
    intro k12
    apply keeps_State_setStr (w := w.of)
    assumption
  · assumption

theorem keeps_State_applyMigrated (a1 : State) (a2 : Copy) (a3 : List Nat) (h1 : Keeps S z a1) (w : Sub [.objs, .strs]
    S) : Keeps S z (State.applyMigrated a1 a2 a3) := by
  unfold State.applyMigrated
  extract_lets +onlyGivenNames y1
  clear_value y1
  extract_lets +onlyGivenNames y2
  have k2 : Keeps S z y2 := by
    unfold y2
    apply keeps_forAll
    · intro x3
      intro x4
      intro k5
      split
      · refine keeps_ite ?_ ?_
        · apply keeps_State_set (w := w.of)
          assumption
        · assumption
      · assumption
    · assumption
  clear_value y2
  extract_lets +onlyGivenNames y6
  have k6 : Keeps S z y6 := by
    unfold y6
    apply keeps_forAll
    · intro x7
      intro x8
      intro k9
      split
      · refine keeps_ite ?_ ?_
        · apply keeps_State_setStr (w := w.of)
          assumption
        · assumption
      · assumption
    · assumption
  clear_value y6
  apply keeps_forAll
  · intro x10
    intro x11
    intro k12
    split
    · refine keeps_ite ?_ ?_
      · apply keeps_State_set (w := w.of)
        assumption
      · assumption
    · refine keeps_ite ?_ ?_
      · apply keeps_State_setStr (w := w.of)
        assumption
      · assumption
    · assumption
  · assumption

theorem keeps_State_copyTamper (a1 : State) (h1 : Keeps S z a1) (w : Sub [.secu] S) : Keeps S z (State.copyTamper a1)
    := by
  unfold State.copyTamper
  extract_lets +onlyGivenNames y1
  clear_value y1
  refine keeps_mk ?_ (w_secu := .inr w.has)
  assumption

theorem keeps_State_takeConfig (a1 : State) (h1 : Keeps S z a1) (w : Sub [.objs, .strs, .usb, .secu, .boot] S) :
    Keeps S z (State.takeConfig a1) := by
  unfold State.takeConfig
  extract_lets +onlyGivenNames y1
  have k1 : Keeps S z y1 := keeps_of h1 rfl rfl rfl (List.suffix_refl _) (w.of (G := [.objs, .strs])) (by intro f hf; cases f <;> first | rfl | cases hf) fun c =>
    ⟨wf_filter _ c.objs, rfl, c.dram, c.ring⟩
  clear_value y1
  split
  extract_lets +onlyGivenNames y1
  clear_value y1
  extract_lets +onlyGivenNames y2
  clear_value y2
  extract_lets +onlyGivenNames y3
  clear_value y3
  extract_lets +onlyGivenNames y4
  have k4 : Keeps S z y4 := by
    unfold y4
    split
    · assumption
    · refine keeps_ite ?_ ?_
      · apply keeps_State_applyMigrated (w := w.of)
        assumption
      · apply keeps_State_applyCopy (w := w.of)
        assumption
  clear_value y4
  extract_lets +onlyGivenNames y5
  clear_value y5
  extract_lets +onlyGivenNames y6
  have k6 : Keeps S z y6 := by
    unfold y6
    apply keeps_State_useCopy (w := w.of)
    apply keeps_State_updBoot (w := w.of)
    assumption
  clear_value y6
  extract_lets +onlyGivenNames y7
  have k7 : Keeps S z y7 := by
    unfold y7
    apply keeps_forAll
    · intro x8
      intro x9
      intro k10
      apply keeps_State_set (w := w.of)
      assumption
    · assumption
  clear_value y7
  apply keeps_State_copyTamper (w := w.of)
  refine keeps_mk ?_ (w_usb := .inr w.has)
  assumption

theorem keeps_State_storeMigrated (a1 : State) (h1 : Keeps S z a1) (w : Sub [.objs, .irq, .jour, .boot] S) : Keeps S z
    (State.storeMigrated a1) := by
  unfold State.storeMigrated
  split
  · assumption
  · extract_lets +onlyGivenNames y1
    clear_value y1
    extract_lets +onlyGivenNames y2
    clear_value y2
    extract_lets +onlyGivenNames y3
    clear_value y3
    extract_lets +onlyGivenNames y4
    clear_value y4
    extract_lets +onlyGivenNames y5
    clear_value y5
    extract_lets +onlyGivenNames y6
    have k6 : Keeps S z y6 := by
      unfold y6
      apply keeps_State_count (w := w.of)
      apply keeps_State_updBoot (w := w.of)
      assumption
    clear_value y6
    extract_lets +onlyGivenNames y7
    clear_value y7
    extract_lets +onlyGivenNames y8
    have k8 : Keeps S z y8 := by
      unfold y8
      apply keeps_State_useCopy (w := w.of)
      apply keeps_State_putCopy (w := w.of)
      assumption
    clear_value y8
    extract_lets +onlyGivenNames y9
    clear_value y9
    apply keeps_State_ev (w := w.of)
    assumption

theorem keeps_State_takeEnabled (a1 : State) (h1 : Keeps S z a1) (w : Sub [.objs, .irq, .jour, .rates, .svc, .stor,
    .fld] S) : Keeps S z (State.takeEnabled a1) := by
  unfold State.takeEnabled
  extract_lets +onlyGivenNames y1
  have k1 : Keeps S z y1 := by
    unfold y1
    apply keeps_forAll
    · intro x2
      intro x3
      intro k4
      refine keeps_ite ?_ ?_
      · apply keeps_State_windowSet (w := w.of)
        assumption
      · assumption
    · assumption
  clear_value y1
  extract_lets +onlyGivenNames y5
  have k5 : Keeps S z y5 := by
    unfold y5
    apply keeps_forAll
    · intro x6
      intro x7
      intro k8
      refine keeps_ite ?_ ?_
      · apply keeps_State_mapEnable (w := w.of)
        assumption
      · assumption
    · assumption
  clear_value y5
  apply keeps_State_takePlan (w := w.of)
  assumption

theorem keeps_State_updApp (a1 : State) (a2 : App → App) (h1 : Keeps S z a1) (w : Sub [.app] S) : Keeps S z
    (State.updApp a1 a2) := by
  unfold State.updApp
  refine keeps_mk ?_ (w_app := .inr w.has)
  assumption

theorem keeps_State_appGo (a1 : State) (a2 : Nat) (a3 : Nat) (h1 : Keeps S z a1) (w : Sub [.objs, .irq, .jour] S) :
    Keeps S z (State.appGo a1 a2 a3) := by
  unfold State.appGo
  extract_lets +onlyGivenNames y1
  clear_value y1
  apply keeps_State_ev (w := w.of)
  apply keeps_State_set (w := w.of)
  assumption

theorem keeps_State_appWatch (a1 : State) (h1 : Keeps S z a1) (w : Sub [.timers] S) : Keeps S z (State.appWatch a1) :=
    by
  unfold State.appWatch
  refine keeps_ite ?_ ?_
  · apply keeps_State_stop (w := w.of)
    assumption
  · apply keeps_State_start (w := w.of)
    assumption

theorem keeps_State_appEnd (a1 : State) (a2 : Path) (a3 : Nat) (h1 : Keeps S z a1) (w : Sub [.timers, .sessions, .irq,
    .jour] S) : Keeps S z (State.appEnd a1 a2 a3) := by
  unfold State.appEnd
  extract_lets +onlyGivenNames y1
  have k1 : Keeps S z y1 := by
    unfold y1
    apply keeps_State_stop (w := w.of)
    apply keeps_State_endSessionAt (w := w.of)
    assumption
  clear_value y1
  refine keeps_mk ?_ (w_irq := .inr w.has)
  assumption

theorem keeps_State_appLoad (a1 : State) (a2 : Nat) (h1 : Keeps S z a1) (w : Sub [.objs, .irq, .jour, .app] S) : Keeps
    S z (State.appLoad a1 a2) := by
  unfold State.appLoad
  apply keeps_State_set (w := w.of)
  apply keeps_State_updApp (w := w.of)
  apply keeps_State_appGo (w := w.of)
  assumption

theorem keeps_State_appStop (a1 : State) (a2 : Nat) (h1 : Keeps S z a1) (w : Sub [.objs, .timers, .sessions, .irq,
    .jour, .app] S) : Keeps S z (State.appStop a1 a2) := by
  unfold State.appStop
  extract_lets +onlyGivenNames y1
  have k1 : Keeps S z y1 := by
    unfold y1
    apply keeps_State_appEnd (w := w.of)
    apply keeps_State_updApp (w := w.of)
    assumption
  clear_value y1
  refine keeps_ite ?_ ?_
  · apply keeps_State_cmdCommit (w := w.of)
    apply keeps_State_appGo (w := w.of)
    assumption
  · refine keeps_ite ?_ ?_
    · apply keeps_State_appLoad (w := w.of)
      assumption
    · extract_lets +onlyGivenNames y2
      have k2 : Keeps S z y2 := by
        unfold y2
        apply keeps_State_updApp (w := w.of)
        apply keeps_State_appGo (w := w.of)
        assumption
      clear_value y2
      refine keeps_ite ?_ ?_
      · apply keeps_State_appLoad (w := w.of)
        assumption
      · assumption

theorem keeps_State_appAsk (a1 : State) (a2 : Path) (a3 : Nat) (h1 : Keeps S z a1) (w : Sub [.objs, .timers,
    .sessions, .irq, .jour, .app] S) : Keeps S z (State.appAsk a1 a2 a3) := by
  unfold State.appAsk
  extract_lets +onlyGivenNames y1
  have k1 : Keeps S z y1 := by
    unfold y1
    apply keeps_State_updApp (w := w.of)
    assumption
  clear_value y1
  refine keeps_ite ?_ ?_
  · apply keeps_State_appStop (w := w.of)
    assumption
  · apply keeps_State_updApp (w := w.of)
    assumption

theorem keeps_State_appLoaded (a1 : State) (h1 : Keeps S z a1) (w : Sub [.objs, .timers, .sessions, .irq, .jour, .app]
    S) : Keeps S z (State.appLoaded a1) := by
  unfold State.appLoaded
  extract_lets +onlyGivenNames y1
  clear_value y1
  extract_lets +onlyGivenNames y2
  clear_value y2
  extract_lets +onlyGivenNames y3
  clear_value y3
  extract_lets +onlyGivenNames y4
  clear_value y4
  refine keeps_ite ?_ ?_
  · extract_lets +onlyGivenNames y5
    clear_value y5
    extract_lets +onlyGivenNames y6
    clear_value y6
    extract_lets +onlyGivenNames y7
    clear_value y7
    extract_lets +onlyGivenNames y8
    clear_value y8
    extract_lets +onlyGivenNames y9
    have k9 : Keeps S z y9 := by
      unfold y9
      apply keeps_State_updApp (w := w.of)
      assumption
    clear_value y9
    extract_lets +onlyGivenNames y10
    have k10 : Keeps S z y10 := by
      unfold y10
      apply keeps_State_setAll (w := w.of)
      assumption
    clear_value y10
    extract_lets +onlyGivenNames y11
    have k11 : Keeps S z y11 := by
      unfold y11
      apply keeps_State_appGo (w := w.of)
      apply keeps_State_appWatch (w := w.of)
      apply keeps_State_updSession (w := w.of)
      assumption
    clear_value y11
    refine keeps_ite ?_ ?_
    · apply keeps_State_cmdCommit (w := w.of)
      assumption
    · assumption
  · extract_lets +onlyGivenNames y12
    have k12 : Keeps S z y12 := by
      unfold y12
      apply keeps_State_ev (w := w.of)
      apply keeps_State_appGo (w := w.of)
      apply keeps_State_set (w := w.of)
      assumption
    clear_value y12
    refine keeps_ite ?_ ?_
    · apply keeps_State_cmdFail (w := w.of)
      assumption
    · assumption

theorem keeps_State_setEnable (a1 : State) (a2 : Nat) (a3 : Nat) (h1 : Keeps S z a1) (w : Sub [.irq] S) : Keeps S z
    (State.setEnable a1 a2 a3) := by
  unfold State.setEnable
  extract_lets +onlyGivenNames y1
  clear_value y1
  refine keeps_mk ?_ (w_irq := .inr w.has)
  assumption

theorem keeps_State_setCtrl (a1 : State) (a2 : Nat) (a3 : Nat) (h1 : Keeps S z a1) (w : Sub [.irq] S) : Keeps S z
    (State.setCtrl a1 a2 a3) := by
  unfold State.setCtrl
  refine keeps_mk ?_ (w_irq := .inr w.has)
  assumption

theorem keeps_State_claim (a1 : State) (a2 : Nat) (a3 : Nat) (h1 : Keeps S z a1) (w : Sub [.objs, .irq, .sent] S) :
    Keeps S z (State.claim a1 a2 a3) := by
  unfold State.claim
  extract_lets +onlyGivenNames y1
  clear_value y1
  extract_lets +onlyGivenNames y2
  clear_value y2
  extract_lets +onlyGivenNames y3
  have k3 : Keeps S z y3 := by
    unfold y3
    refine keeps_ite ?_ ?_
    · assumption
    · apply keeps_State_count (w := w.of)
      refine keeps_mk ?_ (w_irq := .inr w.has)
      assumption
  clear_value y3
  apply keeps_State_send (w := w.of)
  assumption

theorem keeps_State_endSource (a1 : State) (a2 : Nat) (a3 : Nat) (a4 : Nat) (h1 : Keeps S z a1) (w : Sub [.irq, .jour,
    .rates] S) : Keeps S z (State.endSource a1 a2 a3 a4) := by
  unfold State.endSource
  refine keeps_ite ?_ ?_
  · refine keeps_mk ?_ (w_irq := .inr w.has)
    assumption
  · apply keeps_State_evRate (w := w.of)
    assumption

theorem keeps_State_deliver (a1 : State) (a2 : Nat) (a3 : Nat) (a4 : Bool) (h1 : Keeps S z a1) (w : Sub [.objs, .irq,
    .sent] S) : Keeps S z (State.deliver a1 a2 a3 a4) := by
  unfold State.deliver
  refine keeps_ite ?_ ?_
  · apply keeps_State_claim (w := w.of)
    assumption
  · refine keeps_ite ?_ ?_
    · extract_lets +onlyGivenNames y1
      have k1 : Keeps S z y1 := by
        unfold y1
        refine keeps_ite ?_ ?_
        · apply keeps_State_count (w := w.of)
          assumption
        · assumption
      clear_value y1
      apply keeps_State_claim (w := w.of)
      assumption
    · assumption

theorem keeps_State_pushSkip (a1 : State) (a2 : Nat) (h1 : Keeps S z a1) (w : Sub [.objs, .irq, .jour, .rates] S) :
    Keeps S z (State.pushSkip a1 a2) := by
  unfold State.pushSkip
  extract_lets +onlyGivenNames y1
  clear_value y1
  extract_lets +onlyGivenNames y2
  clear_value y2
  refine keeps_ite ?_ ?_
  · assumption
  · apply keeps_State_evRate (w := w.of)
    apply keeps_State_count (w := w.of)
    apply keeps_State_set (w := w.of)
    assumption

theorem keeps_State_entryTaken (a1 : State) (a2 : Path) (a3 : Nat) (a4 : Bool) (h1 : Keeps S z a1) (w : Sub [.objs] S)
    : Keeps S z (State.entryTaken a1 a2 a3 a4) := by
  unfold State.entryTaken
  apply keeps_State_set (w := w.of)
  apply keeps_State_set (w := w.of)
  assumption

theorem keeps_State_takeAt (a1 : State) (a2 : Path) (a3 : Nat) (h1 : Keeps S z a1) (w : Sub [.objs] S) : Keeps S z
    (State.takeAt a1 a2 a3).2 := by
  unfold State.takeAt
  split
  · dsimp only
    apply keeps_State_entryTaken (w := w.of)
    assumption
  · dsimp only
    apply keeps_State_set (w := w.of)
    assumption

theorem keeps_State_takeEntry (a1 : State) (a2 : Path) (h1 : Keeps S z a1) (w : Sub [.objs] S) : Keeps S z
    (State.takeEntry a1 a2).2 := by
  unfold State.takeEntry
  apply keeps_State_takeAt (w := w.of)
  assumption

theorem keeps_State_takeRemote (a1 : State) (a2 : Path) (a3 : Nat) (h1 : Keeps S z a1) (w : Sub [.objs] S) : Keeps S z
    (State.takeRemote a1 a2 a3).2 := by
  unfold State.takeRemote
  extract_lets +onlyGivenNames y1
  clear_value y1
  split
  · dsimp only
    apply keeps_State_set (w := w.of)
    assumption
  · dsimp only
    assumption

theorem keeps_State_pushSend (a1 : State) (a2 : Nat) (a3 : List Nat) (h1 : Keeps S z a1) (w : Sub [.fabric] S) : Keeps
    S z (State.pushSend a1 a2 a3) := by
  unfold State.pushSend
  extract_lets +onlyGivenNames y1
  clear_value y1
  refine keeps_ite ?_ ?_
  · assumption
  · apply keeps_State_emit (w := w.of)
    assumption

theorem keeps_State_pushAgain (a1 : State) (a2 : Nat) (a3 : Nat × List Nat × Nat) (h1 : Keeps S z a1) (w : Sub
    [.fabric, .pl] S) : Keeps S z (State.pushAgain a1 a2 a3) := by
  unfold State.pushAgain
  refine keeps_ite ?_ ?_
  · apply keeps_State_updPl (w := w.of)
    apply keeps_State_pushSend (w := w.of)
    assumption
  · assumption

theorem keeps_State_pushOne (a1 : State) (a2 : Nat) (h1 : Keeps S z a1) (w : Sub [.objs, .irq, .jour, .rates, .fabric,
    .pl] S) : Keeps S z (State.pushOne a1 a2) := by
  unfold State.pushOne
  refine keeps_ite ?_ ?_
  · assumption
  · extract_lets +onlyGivenNames y1
    have k1 : Keeps S z y1 := by
      unfold y1
      apply keeps_State_pushSkip (w := w.of)
      assumption
    clear_value y1
    extract_lets +onlyGivenNames y2
    clear_value y2
    extract_lets +onlyGivenNames y3
    clear_value y3
    extract_lets +onlyGivenNames y4
    clear_value y4
    extract_lets +onlyGivenNames y5
    clear_value y5
    refine keeps_ite ?_ ?_
    · apply keeps_State_set (w := w.of)
      assumption
    · extract_lets +onlyGivenNames y6
      clear_value y6
      apply keeps_State_updPl (w := w.of)
      apply keeps_State_pushSend (w := w.of)
      apply keeps_State_set (w := w.of)
      assumption

theorem keeps_State_pushCycle (a1 : State) (a2 : Nat) (h1 : Keeps S z a1) (w : Sub [.objs, .irq, .jour, .rates,
    .fabric, .pl] S) : Keeps S z (State.pushCycle a1 a2) := by
  unfold State.pushCycle
  refine keeps_ite ?_ ?_
  · apply keeps_forAll
    · intro x1
      intro x2
      intro k3
      apply keeps_State_pushOne (w := w.of)
      assumption
    · assumption
  · assumption

theorem keeps_State_clearJournal (a1 : State) (a2 : Nat) (h1 : Keeps S z a1) (w : Sub [.objs, .irq, .jour, .pl] S) :
    Keeps S z (State.clearJournal a1 a2) := by
  unfold State.clearJournal
  extract_lets +onlyGivenNames j y1 y2
  have k1 : Keeps S z y1 := keeps_of h1 rfl rfl rfl (List.suffix_refl _) (w.of (G := [.jour])) (by intro f hf; cases f <;> first | rfl | cases hf) fun c => ⟨c.objs, c.strs, c.dram, by simp [y1, j]⟩
  clear_value y1
  have k2 : Keeps S z y2 := keeps_forAll _ _ _ (fun _ _ k => keeps_State_updPl _ _ _ (keeps_State_set _ _ _ k w.of) w.of) k1
  clear_value y2
  exact keeps_State_ev _ _ _ _ _ _ k2 w.of

theorem keeps_State_pushStore (a1 : State) (a2 : Nat) (a3 : Bytes) (h1 : Keeps S z a1) (w : Sub [.objs, .pl] S) :
    Keeps S z (State.pushStore a1 a2 a3) := by
  unfold State.pushStore
  extract_lets +onlyGivenNames y1
  clear_value y1
  extract_lets +onlyGivenNames y2
  clear_value y2
  refine keeps_ite ?_ ?_
  · assumption
  · extract_lets +onlyGivenNames y3
    have k3 : Keeps S z y3 := by
      unfold y3
      apply keeps_State_updPl (w := w.of)
      apply keeps_State_count (w := w.of)
      assumption
    clear_value y3
    refine keeps_ite ?_ ?_
    · apply keeps_State_count (w := w.of)
      assumption
    · assumption

theorem keeps_State_answer (a1 : State) (a2 : Path) (a3 : Nat) (a4 : Nat) (a5 : Bytes) (h1 : Keeps S z a1) (w : Sub
    [.sent] S) : Keeps S z (State.answer a1 a2 a3 a4 a5) := by
  unfold State.answer
  apply keeps_State_send (w := w.of)
  assumption

theorem keeps_State_updSafety (a1 : State) (a2 : SafetyState → SafetyState) (h1 : Keeps S z a1) (w : Sub [.safety] S)
    : Keeps S z (State.updSafety a1 a2) := by
  unfold State.updSafety
  refine keeps_mk ?_ (w_safety := .inr w.has)
  assumption

theorem keeps_State_passBegin (a1 : State) (a2 : Nat) (h1 : Keeps S z a1) (w : Sub [.timers, .safety] S) : Keeps S z
    (State.passBegin a1 a2) := by
  unfold State.passBegin
  apply keeps_State_updSafety (w := w.of)
  apply keeps_State_start (w := w.of)
  assumption

theorem keeps_State_taskStep (a1 : State) (a2 : Nat) (a3 : Nat) (a4 : Nat) (a5 : Bool) (h1 : Keeps S z a1) (w : Sub
    [.objs, .timers, .safety] S) : Keeps S z (State.taskStep a1 a2 a3 a4 a5) := by
  unfold State.taskStep
  extract_lets +onlyGivenNames y1
  have k1 : Keeps S z y1 := by
    unfold y1
    refine keeps_ite ?_ ?_
    · assumption
    · apply keeps_State_passBegin (w := w.of)
      assumption
  clear_value y1
  extract_lets +onlyGivenNames y2
  have k2 : Keeps S z y2 := by
    unfold y2
    apply keeps_State_count (w := w.of)
    apply keeps_State_count (w := w.of)
    assumption
  clear_value y2
  refine keeps_ite ?_ ?_
  · extract_lets +onlyGivenNames y3
    clear_value y3
    extract_lets +onlyGivenNames y4
    have k4 : Keeps S z y4 := by
      unfold y4
      apply keeps_State_setAll (w := w.of)
      apply keeps_State_count (w := w.of)
      assumption
    clear_value y4
    apply keeps_State_passBegin (w := w.of)
    assumption
  · apply keeps_State_set (w := w.of)
    assumption

theorem keeps_State_taskSwitch (a1 : State) (a2 : Nat) (a3 : Nat) (h1 : Keeps S z a1) (w : Sub [.objs, .timers, .irq,
    .jour, .safety] S) : Keeps S z (State.taskSwitch a1 a2 a3) := by
  unfold State.taskSwitch
  extract_lets +onlyGivenNames y1
  clear_value y1
  extract_lets +onlyGivenNames y2
  have k2 : Keeps S z y2 := by
    unfold y2
    apply keeps_State_set (w := w.of)
    assumption
  clear_value y2
  refine keeps_ite ?_ ?_
  · apply keeps_State_passBegin (w := w.of)
    assumption
  · refine keeps_ite ?_ ?_
    · apply keeps_State_ev (w := w.of)
      apply keeps_State_stop (w := w.of)
      assumption
    · assumption

theorem keeps_State_stepEv (a1 : State) (a2 : Nat) (a3 : Nat) (a4 : Nat) (h1 : Keeps S z a1) (w : Sub [.objs, .irq,
    .jour] S) : Keeps S z (State.stepEv a1 a2 a3 a4) := by
  unfold State.stepEv
  apply keeps_State_ev (w := w.of)
  apply keeps_State_count (w := w.of)
  apply keeps_State_count (w := w.of)
  assumption

theorem keeps_State_setVolts (a1 : State) (a2 : Nat) (h1 : Keeps S z a1) (w : Sub [.objs, .irq, .jour, .sent, .safety]
    S) : Keeps S z (State.setVolts a1 a2) := by
  unfold State.setVolts
  extract_lets +onlyGivenNames y1
  clear_value y1
  refine keeps_ite ?_ ?_
  · assumption
  · extract_lets +onlyGivenNames y2
    have k2 : Keeps S z y2 := by
      unfold y2
      apply keeps_forAll
      · intro x3
        intro x4
        intro k5
        apply keeps_State_send (w := w.of)
        assumption
      · assumption
    clear_value y2
    apply keeps_State_stepEv (w := w.of)
    apply keeps_State_updSafety (w := w.of)
    apply keeps_State_set (w := w.of)
    assumption

theorem keeps_State_setCtle (a1 : State) (a2 : Nat) (a3 : Nat) (a4 : Nat) (h1 : Keeps S z a1) (w : Sub [.objs, .irq,
    .jour] S) : Keeps S z (State.setCtle a1 a2 a3 a4) := by
  unfold State.setCtle
  extract_lets +onlyGivenNames y1
  clear_value y1
  refine keeps_ite ?_ ?_
  · assumption
  · apply keeps_State_stepEv (w := w.of)
    apply keeps_State_set (w := w.of)
    assumption

theorem keeps_State_setGuard (a1 : State) (a2 : Nat) (a3 : Nat) (h1 : Keeps S z a1) (w : Sub [.objs, .irq, .jour] S) :
    Keeps S z (State.setGuard a1 a2 a3) := by
  unfold State.setGuard
  extract_lets +onlyGivenNames y1
  clear_value y1
  refine keeps_ite ?_ ?_
  · assumption
  · apply keeps_State_stepEv (w := w.of)
    apply keeps_State_set (w := w.of)
    assumption

theorem keeps_State_setPin (a1 : State) (a2 : Nat) (a3 : Option (Nat × Nat)) (h1 : Keeps S z a1) (w : Sub [.objs,
    .timers, .irq, .jour, .safety] S) : Keeps S z (State.setPin a1 a2 a3) := by
  unfold State.setPin
  extract_lets +onlyGivenNames y1
  clear_value y1
  extract_lets +onlyGivenNames y2
  clear_value y2
  split
  · apply keeps_State_updSafety (w := w.of)
    apply keeps_State_stop (w := w.of)
    apply keeps_State_set (w := w.of)
    assumption
  · extract_lets +onlyGivenNames y3
    have k3 : Keeps S z y3 := by
      unfold y3
      apply keeps_State_updSafety (w := w.of)
      apply keeps_State_set (w := w.of)
      assumption
    clear_value y3
    refine keeps_ite ?_ ?_
    · assumption
    · apply keeps_State_ev (w := w.of)
      apply keeps_State_start (w := w.of)
      assumption

theorem keeps_State_planTrunk (a1 : State) (a2 : Nat) (a3 : List Nat) (h1 : Keeps S z a1) (w : Sub [.objs, .irq,
    .jour] S) : Keeps S z (State.planTrunk a1 a2 a3) := by
  unfold State.planTrunk
  extract_lets +onlyGivenNames y1
  clear_value y1
  extract_lets +onlyGivenNames y2
  have k2 : ∀ x1, Keeps S z x1 → ∀ x2 x3, Keeps S z (y2 x1 x2 x3) := by
    intro x1 hx1 x2 x3
    unfold y2
    refine keeps_ite ?_ ?_
    · apply keeps_State_set (w := w.of)
      assumption
    · apply keeps_State_setCtle (w := w.of)
      assumption
  clear_value y2
  extract_lets +onlyGivenNames y3
  have k3 : Keeps S z y3 := by
    unfold y3
    refine keeps_ite ?_ ?_
    · apply keeps_State_setAll (w := w.of)
      assumption
    · assumption
  clear_value y3
  split
  · apply keeps_State_set (w := w.of)
    assumption
  · split
    · apply keeps_State_set (w := w.of)
      assumption
    · apply k2
      apply keeps_State_set (w := w.of)
      assumption

theorem keeps_State_planChannel (a1 : State) (a2 : Nat) (h1 : Keeps S z a1) (w : Sub [.objs, .irq, .jour, .safety] S)
    : Keeps S z (State.planChannel a1 a2) := by
  unfold State.planChannel
  extract_lets +onlyGivenNames y1
  clear_value y1
  extract_lets +onlyGivenNames y2
  clear_value y2
  extract_lets +onlyGivenNames y3
  clear_value y3
  extract_lets +onlyGivenNames y4
  have k4 : Keeps S z y4 := by
    unfold y4
    apply keeps_State_set (w := w.of)
    assumption
  clear_value y4
  extract_lets +onlyGivenNames y5
  clear_value y5
  refine keeps_ite ?_ ?_
  · apply keeps_State_updSafety (w := w.of)
    assumption
  · apply keeps_State_setGuard (w := w.of)
    assumption

theorem keeps_State_dropProposal (a1 : State) (h1 : Keeps S z a1) (w : Sub [.objs, .safety] S) : Keeps S z
    (State.dropProposal a1) := by
  unfold State.dropProposal
  extract_lets +onlyGivenNames y1
  have k1 : Keeps S z y1 := by
    unfold y1
    apply keeps_State_clear (w := w.of)
    assumption
  clear_value y1
  extract_lets +onlyGivenNames y2
  have k2 : Keeps S z y2 := by
    unfold y2
    apply keeps_forAll
    · intro x3
      intro x4
      intro k5
      apply keeps_State_clear (w := w.of)
      assumption
    · assumption
  clear_value y2
  apply keeps_State_updSafety (w := w.of)
  assumption

theorem keeps_State_plan (a1 : State) (a2 : List Nat) (h1 : Keeps S z a1) (w : Sub [.objs, .timers, .irq, .jour,
    .sent, .safety] S) : Keeps S z (State.plan a1 a2) := by
  unfold State.plan
  extract_lets +onlyGivenNames y1
  clear_value y1
  split
  extract_lets +onlyGivenNames y2
  clear_value y2
  extract_lets +onlyGivenNames y3
  clear_value y3
  extract_lets +onlyGivenNames y4
  have k4 : Keeps S z y4 := by
    unfold y4
    apply keeps_State_setPin (w := w.of)
    assumption
  clear_value y4
  extract_lets +onlyGivenNames y5
  have k5 : Keeps S z y5 := by
    unfold y5
    apply keeps_State_setPin (w := w.of)
    assumption
  clear_value y5
  extract_lets +onlyGivenNames y6
  have k6 : Keeps S z y6 := by
    unfold y6
    apply keeps_State_setPin (w := w.of)
    assumption
  clear_value y6
  extract_lets +onlyGivenNames y7
  clear_value y7
  extract_lets +onlyGivenNames y8
  have k8 : Keeps S z y8 := by
    unfold y8
    refine keeps_ite ?_ ?_
    · apply keeps_State_ev (w := w.of)
      assumption
    · assumption
  clear_value y8
  extract_lets +onlyGivenNames y9
  have k9 : Keeps S z y9 := by
    unfold y9
    refine keeps_ite ?_ ?_
    · apply keeps_State_set (w := w.of)
      assumption
    · apply keeps_State_setVolts (w := w.of)
      assumption
  clear_value y9
  extract_lets +onlyGivenNames y10
  have k10 : Keeps S z y10 := by
    unfold y10
    apply keeps_forAll
    · intro x11
      intro x12
      intro k13
      apply keeps_State_planTrunk (w := w.of)
      assumption
    · assumption
  clear_value y10
  extract_lets +onlyGivenNames y14
  have k14 : Keeps S z y14 := by
    unfold y14
    apply keeps_forAll
    · intro x15
      intro x16
      intro k17
      apply keeps_State_planChannel (w := w.of)
      assumption
    · assumption
  clear_value y14
  extract_lets +onlyGivenNames y18
  have k18 : Keeps S z y18 := by
    unfold y18
    refine keeps_ite ?_ ?_
    · assumption
    · apply keeps_State_count (w := w.of)
      assumption
  clear_value y18
  extract_lets +onlyGivenNames y19
  have k19 : Keeps S z y19 := by
    unfold y19
    refine keeps_ite ?_ ?_
    · apply keeps_State_ev (w := w.of)
      apply keeps_State_set (w := w.of)
      assumption
    · assumption
  clear_value y19
  extract_lets +onlyGivenNames y20
  have k20 : Keeps S z y20 := by
    unfold y20
    apply keeps_State_taskStep (w := w.of)
    apply keeps_State_start (w := w.of)
    apply keeps_State_set (w := w.of)
    assumption
  clear_value y20
  refine keeps_ite ?_ ?_
  · apply keeps_State_cmdCommit (w := w.of)
    assumption
  · assumption

theorem keeps_State_ctleInto (a1 : State) (a2 : Nat) (a3 : Nat) (h1 : Keeps S z a1) (w : Sub [.objs, .irq, .jour] S) :
    Keeps S z (State.ctleInto a1 a2 a3) := by
  unfold State.ctleInto
  apply keeps_forAll
  · intro x1
    intro x2
    intro k3
    extract_lets +onlyGivenNames y4
    clear_value y4
    refine keeps_ite ?_ ?_
    · apply keeps_State_setCtle (w := w.of)
      assumption
    · refine keeps_ite ?_ ?_
      · apply keeps_State_setCtle (w := w.of)
        assumption
      · assumption
  · assumption

theorem keeps_State_intoEnvelope (a1 : State) (h1 : Keeps S z a1) (w : Sub [.objs, .irq, .jour, .sent, .safety] S) :
    Keeps S z (State.intoEnvelope a1) := by
  unfold State.intoEnvelope
  extract_lets +onlyGivenNames y1
  have k1 : Keeps S z y1 := by
    unfold y1
    apply keeps_State_setVolts (w := w.of)
    assumption
  clear_value y1
  extract_lets +onlyGivenNames y2
  have k2 : Keeps S z y2 := by
    unfold y2
    apply keeps_forAll
    · intro x3
      intro x4
      intro k5
      refine keeps_ite ?_ ?_
      · apply keeps_forAll
        · intro x6
          intro x7
          intro k8
          apply keeps_State_ctleInto (w := w.of)
          assumption
        · assumption
      · assumption
    · assumption
  clear_value y2
  apply keeps_forAll
  · intro x9
    intro x10
    intro k11
    apply keeps_State_setGuard (w := w.of)
    assumption
  · assumption

theorem keeps_State_applyProposal (a1 : State) (h1 : Keeps S z a1) (w : Sub [.objs, .irq, .jour, .sent, .safety] S) :
    Keeps S z (State.applyProposal a1) := by
  unfold State.applyProposal
  refine keeps_ite ?_ ?_
  · extract_lets +onlyGivenNames y1
    have k1 : Keeps S z y1 := by
      unfold y1
      apply keeps_State_setVolts (w := w.of)
      assumption
    clear_value y1
    extract_lets +onlyGivenNames y2
    have k2 : Keeps S z y2 := by
      unfold y2
      apply keeps_forAll
      · intro x3
        intro x4
        intro k5
        refine keeps_ite ?_ ?_
        · apply keeps_forAll
          · intro x6
            intro x7
            intro k8
            apply keeps_State_setCtle (w := w.of)
            assumption
          · assumption
        · assumption
      · assumption
    clear_value y2
    extract_lets +onlyGivenNames y9
    have k9 : Keeps S z y9 := by
      unfold y9
      apply keeps_forAll
      · intro x10
        intro x11
        intro k12
        apply keeps_State_setGuard (w := w.of)
        assumption
      · assumption
    clear_value y9
    apply keeps_State_dropProposal (w := w.of)
    apply keeps_State_intoEnvelope (w := w.of)
    assumption
  · assumption

theorem keeps_State_marginSet (a1 : State) (a2 : Nat) (a3 : Nat) (h1 : Keeps S z a1) (w : Sub [.objs, .irq, .jour,
    .sent, .safety] S) : Keeps S z (State.marginSet a1 a2 a3) := by
  unfold State.marginSet
  extract_lets +onlyGivenNames y1
  have k1 : Keeps S z y1 := by
    unfold y1
    apply keeps_State_set (w := w.of)
    assumption
  clear_value y1
  refine keeps_ite ?_ ?_
  · apply keeps_State_intoEnvelope (w := w.of)
    assumption
  · assumption

theorem keeps_State_baselineNow (a1 : State) (h1 : Keeps S z a1) (w : Sub [.safety] S) : Keeps S z (State.baselineNow
    a1) := by
  unfold State.baselineNow
  refine keeps_ite ?_ ?_
  · apply keeps_State_updSafety (w := w.of)
    assumption
  · assumption

theorem keeps_State_setNor (a1 : State) (a2 : Nat) (a3 : NorBlock) (h1 : Keeps S z a1) (w : Sub [.safety] S) : Keeps S
    z (State.setNor a1 a2 a3) := by
  unfold State.setNor
  apply keeps_State_updSafety (w := w.of)
  assumption

theorem keeps_State_norShow (a1 : State) (h1 : Keeps S z a1) (w : Sub [.objs] S) : Keeps S z (State.norShow a1) := by
  unfold State.norShow
  extract_lets +onlyGivenNames y1
  clear_value y1
  extract_lets +onlyGivenNames y2
  clear_value y2
  apply keeps_State_setAll (w := w.of)
  assumption

theorem keeps_State_norWarn (a1 : State) (h1 : Keeps S z a1) (w : Sub [.timers, .irq, .jour] S) : Keeps S z
    (State.norWarn a1) := by
  unfold State.norWarn
  refine keeps_ite ?_ ?_
  · apply keeps_State_ev (w := w.of)
    apply keeps_State_start (w := w.of)
    assumption
  · assumption

theorem keeps_State_norRetire (a1 : State) (a2 : Nat) (a3 : Nat) (h1 : Keeps S z a1) (w : Sub [.timers, .irq, .jour,
    .safety] S) : Keeps S z (State.norRetire a1 a2 a3) := by
  unfold State.norRetire
  extract_lets +onlyGivenNames y1
  clear_value y1
  extract_lets +onlyGivenNames y2
  have k2 : Keeps S z y2 := by
    unfold y2
    apply keeps_State_setNor (w := w.of)
    assumption
  clear_value y2
  apply keeps_State_norWarn (w := w.of)
  apply keeps_State_ev (w := w.of)
  assumption

theorem keeps_State_norBegin (a1 : State) (a2 : Nat) (a3 : Nat) (h1 : Keeps S z a1) (w : Sub [.safety] S) : Keeps S z
    (State.norBegin a1 a2 a3) := by
  unfold State.norBegin
  extract_lets +onlyGivenNames y1
  clear_value y1
  apply keeps_State_updSafety (w := w.of)
  apply keeps_State_setNor (w := w.of)
  assumption

theorem keeps_State_norReclaim (a1 : State) (a2 : Bool) (h1 : Keeps S z a1) (w : Sub [.timers, .irq, .jour, .safety]
    S) : Keeps S z (State.norReclaim a1 a2) := by
  unfold State.norReclaim
  refine keeps_ite ?_ ?_
  · assumption
  · extract_lets +onlyGivenNames y1
    clear_value y1
    split
    · assumption
    · extract_lets +onlyGivenNames y2
      clear_value y2
      extract_lets +onlyGivenNames y3
      have k3 : Keeps S z y3 := by
        unfold y3
        apply keeps_State_updSafety (w := w.of)
        apply keeps_State_setNor (w := w.of)
        assumption
      clear_value y3
      refine keeps_ite ?_ ?_
      · apply keeps_State_norRetire (w := w.of)
        assumption
      · refine keeps_ite ?_ ?_
        · apply keeps_State_norRetire (w := w.of)
          assumption
        · assumption

theorem keeps_State_norPlace (a1 : State) (a2 : Nat) (a3 : Bool) (a4 : Nat) (a5 : Bool) (a6 : Nat) (h1 : Keeps S z a1)
    (w : Sub [.timers, .irq, .jour, .safety] S) : Keeps S z (State.norPlace a1 a2 a3 a4 a5 a6).1 := by
  induction a4 generalizing a1 a5 a6 with
  | zero =>
    rw [State.norPlace]
    dsimp only
    assumption
  | succ n ih =>
    rw [State.norPlace]
    split
    · dsimp only
      assumption
    · split
      · split
        · apply ih
          apply keeps_State_setNor (w := w.of)
          assumption
        · apply ih
          apply keeps_State_norRetire (w := w.of)
          assumption
      · extract_lets +onlyGivenNames y1
        have k1 : Keeps S z y1 := by
          unfold y1
          refine keeps_ite ?_ ?_
          · assumption
          · apply keeps_State_norReclaim (w := w.of)
            assumption
        clear_value y1
        split
        · dsimp only
          assumption
        · apply ih
          apply keeps_State_norBegin (w := w.of)
          assumption

theorem keeps_State_norHold (a1 : State) (a2 : Nat) (h1 : Keeps S z a1) (w : Sub [.objs, .safety] S) : Keeps S z
    (State.norHold a1 a2) := by
  unfold State.norHold
  extract_lets +onlyGivenNames y1
  clear_value y1
  apply keeps_State_count (w := w.of)
  apply keeps_State_updSafety (w := w.of)
  assumption

theorem keeps_State_gather (a1 : State) (a2 : Nat) (a3 : List Int) (h1 : Keeps S z a1) (w : Sub [.safety] S) : Keeps S
    z (State.gather a1 a2 a3) := by
  induction a3 generalizing a1 a2 with
  | nil =>
    rw [State.gather]
    assumption
  | cons e r ih =>
    rw [State.gather]
    apply ih
    apply keeps_State_updSafety (w := w.of)
    assumption

theorem keeps_State_feedGo (a1 : State) (a2 : Nat) (a3 : Nat) (a4 : Nat) (h1 : Keeps S z a1) (w : Sub [.objs, .irq,
    .jour, .sent, .power] S) : Keeps S z (State.feedGo a1 a2 a3 a4) := by
  unfold State.feedGo
  extract_lets +onlyGivenNames y1
  clear_value y1
  refine keeps_ite ?_ ?_
  · assumption
  · extract_lets +onlyGivenNames y2
    have k2 : Keeps S z y2 := by
      unfold y2
      refine keeps_ite ?_ ?_
      · apply keeps_State_send (w := w.of)
        assumption
      · assumption
    clear_value y2
    apply keeps_State_pwrEv (w := w.of)
    apply keeps_State_set (w := w.of)
    assumption

theorem keeps_State_dropEnables (a1 : State) (a2 : Nat) (h1 : Keeps S z a1) (w : Sub [.sent] S) : Keeps S z
    (State.dropEnables a1 a2) := by
  induction a2 generalizing a1 with
  | zero =>
    rw [State.dropEnables]
    assumption
  | succ n ih =>
    rw [State.dropEnables]
    apply ih
    apply keeps_State_send (w := w.of)
    assumption

theorem keeps_State_railsOff (a1 : State) (a2 : Nat) (h1 : Keeps S z a1) (w : Sub [.objs, .timers, .sent, .power] S) :
    Keeps S z (State.railsOff a1 a2) := by
  unfold State.railsOff
  extract_lets +onlyGivenNames y1
  have k1 : Keeps S z y1 := by
    unfold y1
    apply keeps_State_stopAll (w := w.of)
    apply keeps_State_dropEnables (w := w.of)
    assumption
  clear_value y1
  extract_lets +onlyGivenNames y2
  have k2 : Keeps S z y2 := by
    unfold y2
    apply keeps_State_setAll (w := w.of)
    assumption
  clear_value y2
  refine keeps_mk ?_ (w_power := .inr w.has)
  assumption

theorem keeps_State_cardOff (a1 : State) (h1 : Keeps S z a1) (w : Sub (Piece.allBut [.head, .freeCount]) S) : Keeps S
    z (State.cardOff a1) := by
  unfold State.cardOff
  apply keeps_State_railsOff (w := w.of)
  apply keeps_State_toReset (w := w.of)
  assumption

theorem keeps_State_inletOff (a1 : State) (h1 : Keeps S z a1) (w : Sub (Piece.allBut [.head, .freeCount]) S) : Keeps S
    z (State.inletOff a1) := by
  unfold State.inletOff
  refine keeps_ite ?_ ?_
  · apply keeps_State_breakerOff (w := w.of)
    apply keeps_State_cardOff (w := w.of)
    assumption
  · assumption

theorem keeps_State_vorGone (a1 : State) (h1 : Keeps S z a1) (w : Sub (Piece.allBut [.head, .freeCount]) S) :
    Keeps S z (State.vorGone a1) := by
  unfold State.vorGone
  extract_lets +onlyGivenNames y1
  have k1 : Keeps S z y1 := keeps_State_railsOff _ 0 (keeps_State_toReset _ 1 true (keeps_State_request _ 9 false
    (keeps_State_inletOff _ h1 w.of) w.of) w.of) w.of
  clear_value y1
  exact keeps_of (keeps_State_stop _ .holdUp k1 w.of) rfl rfl rfl (List.suffix_refl _) (w.of (G := [.objs])) (by intro f hf; cases f <;> first | rfl | cases hf) fun c =>
    ⟨wf_filter _ c.objs, c.strs, c.dram, c.ring⟩

theorem keeps_State_tripNow (a1 : State) (a2 : Nat) (a3 : Nat) (a4 : Nat) (a5 : Nat) (a6 : Int) (h1 : Keeps S z a1) (w
    : Sub (Piece.allBut [.head]) S) : Keeps S z (State.tripNow a1 a2 a3 a4 a5 a6) := by
  unfold State.tripNow
  refine keeps_ite ?_ ?_
  · assumption
  · extract_lets +onlyGivenNames y1
    clear_value y1
    extract_lets +onlyGivenNames y2
    clear_value y2
    extract_lets +onlyGivenNames y3
    have k3 : Keeps S z y3 := by
      unfold y3
      refine keeps_ite ?_ ?_
      · apply keeps_State_send (w := w.of)
        assumption
      · assumption
    clear_value y3
    extract_lets +onlyGivenNames y4
    have k4 : Keeps S z y4 := by
      unfold y4
      refine keeps_ite ?_ ?_
      · apply keeps_State_cardOff (w := w.of)
        assumption
      · assumption
    clear_value y4
    extract_lets +onlyGivenNames y5
    have k5 : Keeps S z y5 := by
      unfold y5
      apply keeps_State_trip (w := w.of)
      assumption
    clear_value y5
    refine keeps_ite ?_ ?_
    · apply keeps_State_portTrip (w := w.of)
      assumption
    · refine keeps_ite ?_ ?_
      · apply keeps_State_svcTrip (w := w.of)
        assumption
      · assumption

theorem keeps_execUsbRequestUnit (a1 : Nat) (a2 : Bytes) (a3 : Nat) (a4 : State) (h4 : Keeps S z a4) (w : Sub [.objs,
    .freeCount, .irq, .jour, .rates, .fabric, .usb] S) : KeepsA S z (execUsbRequestUnit a1 a2 a3 a4) := by
  unfold execUsbRequestUnit
  apply keeps_onUnit
  refine keeps_ite ?_ ?_
  · assumption
  · refine keeps_ite ?_ ?_
    · apply keeps_State_count (w := w.of)
      assumption
    · refine keeps_ite ?_ ?_
      · assumption
      · extract_lets +onlyGivenNames y1
        extract_lets +onlyGivenNames y2
        extract_lets +onlyGivenNames y3
        have k3 : Keeps S z y3 := by
          unfold y3
          refine keeps_mk ?_ (w_usb := .inr w.has)
          assumption
        refine keeps_ite ?_ ?_
        · apply keeps_State_usbComplete (w := w.of)
          assumption
        · refine keeps_ite ?_ ?_
          · refine keeps_ite ?_ ?_
            · apply keeps_State_usbComplete (w := w.of)
              assumption
            · apply keeps_State_hubAnswer (w := w.of)
              assumption
          · apply keeps_State_takeRequest (w := w.of)
            assumption

theorem keeps_State_passed (a1 : State) (a2 : Nat) (h1 : Keeps S z a1) (w : Sub [.objs, .freeCount, .irq, .jour,
    .rates, .fabric, .usb] S) : Keeps S z (State.passed a1 a2) := by
  unfold State.passed
  extract_lets +onlyGivenNames y1
  clear_value y1
  extract_lets +onlyGivenNames y2
  have k2 : Keeps S z y2 := by
    unfold y2
    apply keeps_State_updUport (w := w.of)
    assumption
  clear_value y2
  apply keeps_forAll
  · intro x3
    intro x4
    intro k5
    apply keeps_State_turnAway (w := w.of)
    assumption
  · assumption

theorem keeps_State_microPort (a1 : State) (a2 : Nat) (h1 : Keeps S z a1) (w : Sub [.objs, .freeCount, .timers, .irq,
    .jour, .rates, .sent, .fabric, .usb] S) : Keeps S z (State.microPort a1 a2) := by
  unfold State.microPort
  extract_lets +onlyGivenNames y1
  have k1 : Keeps S z y1 := by
    unfold y1
    refine keeps_ite ?_ ?_
    · apply keeps_State_portError (w := w.of)
      apply keeps_State_updUport (w := w.of)
      assumption
    · assumption
  clear_value y1
  extract_lets +onlyGivenNames y2
  have k2 : Keeps S z y2 := by
    unfold y2
    apply keeps_State_passed (w := w.of)
    assumption
  clear_value y2
  refine keeps_ite ?_ ?_
  · extract_lets +onlyGivenNames y3
    have k3 : Keeps S z y3 := by
      unfold y3
      refine keeps_ite ?_ ?_
      · apply keeps_State_send (w := w.of)
        assumption
      · assumption
    clear_value y3
    apply keeps_State_runPeriodic (w := w.of)
    assumption
  · assumption

theorem keeps_execMicroframeStart (a1 : State) (h1 : Keeps S z a1) (w : Sub [.objs, .freeCount, .timers, .irq, .jour,
    .rates, .sent, .fabric, .usb] S) : KeepsA S z (execMicroframeStart a1) := by
  unfold execMicroframeStart
  refine keeps_next ?_
  refine keeps_ite ?_ ?_
  · extract_lets +onlyGivenNames y1
    clear_value y1
    extract_lets +onlyGivenNames y2
    have k2 : Keeps S z y2 := by
      unfold y2
      refine keeps_mk ?_ (w_usb := .inr w.has)
      assumption
    clear_value y2
    apply keeps_forAll
    · intro x3
      intro x4
      intro k5
      apply keeps_State_microPort (w := w.of)
      assumption
    · assumption
  · assumption

theorem keeps_execUsbTransactionStart (a1 : Nat) (a2 : Nat) (a3 : State) (h3 : Keeps S z a3) (w : Sub [.sent, .usb] S)
    : KeepsA S z (execUsbTransactionStart a1 a2 a3) := by
  unfold execUsbTransactionStart
  apply keeps_onPort
  · assumption
  · extract_lets +onlyGivenNames y1
    clear_value y1
    split
    · assumption
    · extract_lets +onlyGivenNames y2
      clear_value y2
      refine keeps_ite ?_ ?_
      · apply keeps_State_toWire (w := w.of)
        apply keeps_State_updUport (w := w.of)
        assumption
      · assumption

theorem keeps_State_wireFree (a1 : State) (a2 : Nat) (h1 : Keeps S z a1) (w : Sub [.objs, .freeCount, .timers, .irq,
    .jour, .rates, .sent, .fabric, .usb] S) : Keeps S z (State.wireFree a1 a2) := by
  unfold State.wireFree
  extract_lets +onlyGivenNames y1
  clear_value y1
  extract_lets +onlyGivenNames y2
  have k2 : Keeps S z y2 := by
    unfold y2
    apply keeps_State_updUport (w := w.of)
    assumption
  clear_value y2
  refine keeps_ite ?_ ?_
  · apply keeps_State_portReset (w := w.of)
    assumption
  · refine keeps_ite ?_ ?_
    · apply keeps_State_portSuspend (w := w.of)
      assumption
    · apply keeps_State_runPeriodic (w := w.of)
      assumption

theorem keeps_State_executed (a1 : State) (a2 : Nat) (a3 : UsbReq) (a4 : Nat) (a5 : Nat) (a6 : Bytes) (h1 : Keeps S z
    a1) (w : Sub [.objs, .freeCount, .irq, .jour, .rates, .fabric] S) : Keeps S z (State.executed a1 a2 a3 a4 a5 a6)
    := by
  unfold State.executed
  extract_lets +onlyGivenNames y1
  have k1 : Keeps S z y1 := by
    unfold y1
    apply keeps_State_count (w := w.of)
    apply keeps_State_count (w := w.of)
    assumption
  clear_value y1
  extract_lets +onlyGivenNames y2
  have k2 : Keeps S z y2 := by
    unfold y2
    refine keeps_ite ?_ ?_
    · apply keeps_State_count (w := w.of)
      assumption
    · assumption
  clear_value y2
  extract_lets +onlyGivenNames y3
  have k3 : Keeps S z y3 := by
    unfold y3
    refine keeps_ite ?_ ?_
    · apply keeps_State_evRate (w := w.of)
      assumption
    · assumption
  clear_value y3
  extract_lets +onlyGivenNames y4
  clear_value y4
  apply keeps_State_usbComplete (w := w.of)
  assumption

theorem keeps_execUsbTransactionEnd (a1 : Nat) (a2 : Nat) (a3 : Nat) (a4 : Bytes) (a5 : State) (h5 : Keeps S z a5) (w
    : Sub [.objs, .freeCount, .timers, .irq, .jour, .rates, .sent, .fabric, .usb] S) : KeepsA S z
    (execUsbTransactionEnd a1 a2 a3 a4 a5) := by
  unfold execUsbTransactionEnd
  apply keeps_onPort
  · assumption
  · extract_lets +onlyGivenNames y1
    clear_value y1
    split
    · assumption
    · refine keeps_ite ?_ ?_
      · assumption
      · extract_lets +onlyGivenNames y2
        have k2 : Keeps S z y2 := by
          unfold y2
          apply keeps_State_updUport (w := w.of)
          assumption
        clear_value y2
        extract_lets +onlyGivenNames y3
        have k3 : Keeps S z y3 := by
          unfold y3
          refine keeps_ite ?_ ?_
          · apply keeps_State_count (w := w.of)
            assumption
          · assumption
        clear_value y3
        extract_lets +onlyGivenNames y4
        clear_value y4
        extract_lets +onlyGivenNames y5
        have k5 : Keeps S z y5 := by
          unfold y5
          refine keeps_ite ?_ ?_
          · apply keeps_State_updUport (w := w.of)
            assumption
          · refine keeps_ite ?_ ?_
            · apply keeps_State_updUport (w := w.of)
              assumption
            · apply keeps_State_executed (w := w.of)
              assumption
        clear_value y5
        apply keeps_State_wireFree (w := w.of)
        assumption

theorem keeps_execNakRetryExpired (a1 : Nat) (a2 : State) (h2 : Keeps S z a2) (w : Sub [.objs, .freeCount, .irq,
    .jour, .rates, .fabric, .usb] S) : KeepsA S z (execNakRetryExpired a1 a2) := by
  unfold execNakRetryExpired
  apply keeps_onPort
  · assumption
  · split
    · assumption
    · refine keeps_ite ?_ ?_
      · apply keeps_State_executed (w := w.of)
        apply keeps_State_updUport (w := w.of)
        assumption
      · assumption

theorem keeps_State_busCommand (a1 : State) (a2 : Nat) (a3 : State → State) (h1 : Keeps S z a1) (h3 : ∀ x0, Keeps S z
    x0 → Keeps S z (a3 x0)) (w : Sub [.usb] S) : Keeps S z (State.busCommand a1 a2 a3) := by
  unfold State.busCommand
  refine keeps_ite ?_ ?_
  · assumption
  · refine keeps_ite ?_ ?_
    · refine keeps_mk ?_ (w_usb := .inr w.has)
      assumption
    · apply h3
      assumption

theorem keeps_execBusCommandReset (a1 : Nat) (a2 : State) (h2 : Keeps S z a2) (w : Sub [.objs, .freeCount, .timers,
    .irq, .jour, .rates, .fabric, .usb, .power] S) : KeepsA S z (execBusCommandReset a1 a2) := by
  unfold execBusCommandReset
  apply keeps_onUnit
  apply keeps_State_busCommand (w := w.of)
  · assumption
  · intro x1
    intro k2
    extract_lets +onlyGivenNames y3
    have k3 : Keeps S z y3 := by
      unfold y3
      apply keeps_forAll
      · intro x4
        intro x5
        intro k6
        apply keeps_State_portPowerOff (w := w.of)
        assumption
      · assumption
    clear_value y3
    extract_lets +onlyGivenNames y7
    have k7 : Keeps S z y7 := by
      unfold y7
      apply keeps_State_count (w := w.of)
      apply keeps_State_stop (w := w.of)
      apply keeps_State_hubDefault (w := w.of)
      assumption
    clear_value y7
    extract_lets +onlyGivenNames y8
    clear_value y8
    extract_lets +onlyGivenNames y9
    have k9 : Keeps S z y9 := by
      unfold y9
      refine keeps_mk ?_ (w_usb := .inr w.has)
      assumption
    clear_value y9
    apply keeps_State_busEvent (w := w.of)
    apply keeps_State_busNote (w := w.of)
    apply keeps_State_showHub (w := w.of)
    assumption

theorem keeps_execBusCommandSuspend (a1 : Nat) (a2 : State) (h2 : Keeps S z a2) (w : Sub [.objs, .freeCount, .timers,
    .irq, .jour, .rates, .fabric, .usb] S) : KeepsA S z (execBusCommandSuspend a1 a2) := by
  unfold execBusCommandSuspend
  apply keeps_onUnit
  apply keeps_State_busCommand (w := w.of)
  · assumption
  · intro x1
    intro k2
    extract_lets +onlyGivenNames y3
    have k3 : Keeps S z y3 := by
      unfold y3
      apply keeps_State_hubSuspend (w := w.of)
      assumption
    clear_value y3
    extract_lets +onlyGivenNames y4
    have k4 : Keeps S z y4 := by
      unfold y4
      apply keeps_forAll
      · intro x5
        intro x6
        intro k7
        apply keeps_State_discard (w := w.of)
        assumption
      · assumption
    clear_value y4
    apply keeps_State_busEvent (w := w.of)
    apply keeps_State_busNote (w := w.of)
    apply keeps_State_showHub (w := w.of)
    assumption

theorem keeps_execBusCommandResume (a1 : Nat) (a2 : Nat) (a3 : State) (h3 : Keeps S z a3) (w : Sub [.objs, .timers,
    .irq, .jour, .sent, .usb] S) : KeepsA S z (execBusCommandResume a1 a2 a3) := by
  unfold execBusCommandResume
  apply keeps_onUnit
  apply keeps_State_busCommand (w := w.of)
  · assumption
  · intro x1
    intro k2
    extract_lets +onlyGivenNames y3
    have k3 : Keeps S z y3 := by
      unfold y3
      apply keeps_State_busNote (w := w.of)
      assumption
    clear_value y3
    refine keeps_ite ?_ ?_
    · refine keeps_ite ?_ ?_
      · assumption
      · apply keeps_State_hubResume (w := w.of)
        assumption
    · apply keeps_State_count (w := w.of)
      assumption

theorem keeps_execResumeKEnd (a1 : State) (h1 : Keeps S z a1) (w : Sub [.objs, .timers, .irq, .jour, .rates, .fabric,
    .usb] S) : KeepsA S z (execResumeKEnd a1) := by
  unfold execResumeKEnd
  refine keeps_next ?_
  refine keeps_ite ?_ ?_
  · extract_lets +onlyGivenNames y1
    have k1 : Keeps S z y1 := by
      unfold y1
      apply keeps_State_stop (w := w.of)
      assumption
    clear_value y1
    extract_lets +onlyGivenNames y2
    clear_value y2
    extract_lets +onlyGivenNames y3
    have k3 : Keeps S z y3 := by
      unfold y3
      refine keeps_mk ?_ (w_usb := .inr w.has)
      assumption
    clear_value y3
    extract_lets +onlyGivenNames y4
    have k4 : Keeps S z y4 := by
      unfold y4
      apply keeps_State_showHub (w := w.of)
      assumption
    clear_value y4
    split
    · apply keeps_State_raise (w := w.of)
      apply keeps_State_busEvent (w := w.of)
      assumption
    · assumption
  · assumption

theorem keeps_execDspDeviceAttach (a1 : Nat) (a2 : Bool) (a3 : State) (h3 : Keeps S z a3) (w : Sub [.objs, .timers,
    .irq, .jour, .usb] S) : KeepsA S z (execDspDeviceAttach a1 a2 a3) := by
  unfold execDspDeviceAttach
  apply keeps_onPort
  · assumption
  · refine keeps_ite ?_ ?_
    · extract_lets +onlyGivenNames y1
      have k1 : Keeps S z y1 := by
        unfold y1
        apply keeps_State_pgo (w := w.of)
        apply keeps_State_updUport (w := w.of)
        assumption
      clear_value y1
      apply keeps_State_cbit (w := w.of)
      apply keeps_State_set (w := w.of)
      assumption
    · assumption

theorem keeps_execDspDeviceDetach (a1 : Nat) (a2 : State) (h2 : Keeps S z a2) (w : Sub [.objs, .freeCount, .timers,
    .irq, .jour, .rates, .fabric, .usb] S) : KeepsA S z (execDspDeviceDetach a1 a2) := by
  unfold execDspDeviceDetach
  apply keeps_onPort
  · assumption
  · refine keeps_ite ?_ ?_
    · apply keeps_State_cbit (w := w.of)
      apply keeps_State_discard (w := w.of)
      apply keeps_State_pgo (w := w.of)
      assumption
    · assumption

theorem keeps_execDeviceChirpDetected (a1 : Nat) (a2 : Nat) (a3 : State) (h3 : Keeps S z a3) (w : Sub [.sent, .usb] S)
    : KeepsA S z (execDeviceChirpDetected a1 a2 a3) := by
  unfold execDeviceChirpDetected
  apply keeps_onPort
  · assumption
  · refine keeps_ite ?_ ?_
    · apply keeps_State_send (w := w.of)
      apply keeps_State_updUport (w := w.of)
      assumption
    · assumption

theorem keeps_execPortResetEnd (a1 : Nat) (a2 : State) (h2 : Keeps S z a2) (w : Sub [.objs, .timers, .irq, .jour,
    .usb] S) : KeepsA S z (execPortResetEnd a1 a2) := by
  unfold execPortResetEnd
  apply keeps_onPort
  · assumption
  · refine keeps_ite ?_ ?_
    · extract_lets +onlyGivenNames y1
      clear_value y1
      extract_lets +onlyGivenNames y2
      have k2 : Keeps S z y2 := by
        unfold y2
        apply keeps_State_set (w := w.of)
        assumption
      clear_value y2
      apply keeps_State_cbit (w := w.of)
      apply keeps_State_pbit (w := w.of)
      apply keeps_State_pgo (w := w.of)
      assumption
    · assumption

theorem keeps_State_noteWake (a1 : State) (a2 : Nat) (h1 : Keeps S z a1) (w : Sub [.usb] S) : Keeps S z
    (State.noteWake a1 a2) := by
  unfold State.noteWake
  refine keeps_ite ?_ ?_
  · refine keeps_mk ?_ (w_usb := .inr w.has)
    assumption
  · assumption

theorem keeps_execDspDeviceK (a1 : Nat) (a2 : State) (h2 : Keeps S z a2) (w : Sub [.objs, .timers, .irq, .jour,
    .rates, .sent, .fabric, .usb] S) : KeepsA S z (execDspDeviceK a1 a2) := by
  unfold execDspDeviceK
  apply keeps_onPort
  · assumption
  · refine keeps_ite ?_ ?_
    · assumption
    · refine keeps_ite ?_ ?_
      · apply keeps_State_portResume (w := w.of)
        apply keeps_State_count (w := w.of)
        apply keeps_State_noteWake (w := w.of)
        assumption
      · refine keeps_ite ?_ ?_
        · apply keeps_State_noteWake (w := w.of)
          assumption
        · refine keeps_ite ?_ ?_
          · extract_lets +onlyGivenNames y1
            have k1 : Keeps S z y1 := by
              unfold y1
              apply keeps_State_noteWake (w := w.of)
              assumption
            clear_value y1
            extract_lets +onlyGivenNames y2
            have k2 : Keeps S z y2 := by
              unfold y2
              apply keeps_State_hubResume (w := w.of)
              apply keeps_State_count (w := w.of)
              apply keeps_State_count (w := w.of)
              assumption
            clear_value y2
            extract_lets +onlyGivenNames y3
            have k3 : Keeps S z y3 := by
              unfold y3
              apply keeps_State_ev (w := w.of)
              assumption
            clear_value y3
            split
            · apply keeps_State_busEvent (w := w.of)
              assumption
            · assumption
          · assumption

theorem keeps_execSetPortPower (a1 : Nat) (a2 : State) (h2 : Keeps S z a2) (w : Sub [.objs, .timers, .irq, .jour,
    .usb, .power] S) : KeepsA S z (execSetPortPower a1 a2) := by
  unfold execSetPortPower
  apply keeps_onPort
  · assumption
  · refine keeps_ite ?_ ?_
    · apply keeps_forAll
      · intro x1
        intro x2
        intro k3
        apply keeps_State_portPowerOn (w := w.of)
        assumption
      · assumption
    · assumption

theorem keeps_execClearPortPower (a1 : Nat) (a2 : State) (h2 : Keeps S z a2) (w : Sub [.objs, .freeCount, .timers,
    .irq, .jour, .rates, .fabric, .usb, .power] S) : KeepsA S z (execClearPortPower a1 a2) := by
  unfold execClearPortPower
  apply keeps_onPort
  · assumption
  · refine keeps_ite ?_ ?_
    · apply keeps_forAll
      · intro x1
        intro x2
        intro k3
        apply keeps_State_portPowerOff (w := w.of)
        assumption
      · assumption
    · assumption

theorem keeps_execSetPortReset (a1 : Nat) (a2 : State) (h2 : Keeps S z a2) (w : Sub [.objs, .freeCount, .timers, .irq,
    .jour, .rates, .sent, .fabric, .usb] S) : KeepsA S z (execSetPortReset a1 a2) := by
  unfold execSetPortReset
  apply keeps_onPort
  · assumption
  · refine keeps_ite ?_ ?_
    · apply keeps_State_askReset (w := w.of)
      assumption
    · assumption

theorem keeps_execSetPortSuspend (a1 : Nat) (a2 : State) (h2 : Keeps S z a2) (w : Sub [.objs, .freeCount, .timers,
    .irq, .jour, .rates, .fabric, .usb] S) : KeepsA S z (execSetPortSuspend a1 a2) := by
  unfold execSetPortSuspend
  apply keeps_onPort
  · assumption
  · refine keeps_ite ?_ ?_
    · apply keeps_State_askSuspend (w := w.of)
      assumption
    · assumption

theorem keeps_execClearPortSuspend (a1 : Nat) (a2 : State) (h2 : Keeps S z a2) (w : Sub [.objs, .timers, .irq, .jour,
    .sent, .usb] S) : KeepsA S z (execClearPortSuspend a1 a2) := by
  unfold execClearPortSuspend
  apply keeps_onPort
  · assumption
  · refine keeps_ite ?_ ?_
    · apply keeps_State_portResume (w := w.of)
      assumption
    · assumption

theorem keeps_execClearPortEnable (a1 : Nat) (a2 : State) (h2 : Keeps S z a2) (w : Sub [.objs, .freeCount, .timers,
    .irq, .jour, .rates, .fabric, .usb] S) : KeepsA S z (execClearPortEnable a1 a2) := by
  unfold execClearPortEnable
  apply keeps_onPort
  · assumption
  · refine keeps_ite ?_ ?_
    · apply keeps_State_portDisable (w := w.of)
      assumption
    · assumption

theorem keeps_execSetPortTest (a1 : Nat) (a2 : Nat) (a3 : State) (h3 : Keeps S z a3) (w : Sub [.objs, .sent, .usb] S)
    : KeepsA S z (execSetPortTest a1 a2 a3) := by
  unfold execSetPortTest
  apply keeps_onPort
  · assumption
  · refine keeps_ite ?_ ?_
    · assumption
    · refine keeps_ite ?_ ?_
      · apply keeps_State_portTest (w := w.of)
        assumption
      · refine keeps_mk ?_ (w_usb := .inr w.has)
        assumption

theorem keeps_execClearPortChange (a1 : Nat) (a2 : Nat) (a3 : State) (h3 : Keeps S z a3) (w : Sub [.objs] S) : KeepsA
    S z (execClearPortChange a1 a2 a3) := by
  unfold execClearPortChange
  apply keeps_onPort
  · assumption
  · refine keeps_ite ?_ ?_
    · apply keeps_State_set (w := w.of)
      assumption
    · assumption

theorem keeps_execClearHubChange (a1 : Nat) (a2 : State) (h2 : Keeps S z a2) (w : Sub [.usb] S) : KeepsA S z
    (execClearHubChange a1 a2) := by
  unfold execClearHubChange
  refine keeps_next ?_
  refine keeps_ite ?_ ?_
  · refine keeps_mk ?_ (w_usb := .inr w.has)
    assumption
  · assumption

theorem keeps_State_hubData (a1 : State) (a2 : Nat) (a3 : Bytes) (h1 : Keeps S z a1) (w : Sub [.usb] S) : Keeps S z
    (State.hubData a1 a2 a3) := by
  unfold State.hubData
  refine keeps_mk ?_ (w_usb := .inr w.has)
  assumption

theorem keeps_execGetPortStatus (a1 : Nat) (a2 : State) (h2 : Keeps S z a2) (w : Sub [.usb] S) : KeepsA S z
    (execGetPortStatus a1 a2) := by
  unfold execGetPortStatus
  apply keeps_onPort
  · assumption
  · refine keeps_ite ?_ ?_
    · apply keeps_State_hubData (w := w.of)
      assumption
    · assumption

theorem keeps_execHubGetStatus (a1 : Nat) (a2 : State) (h2 : Keeps S z a2) (w : Sub [.usb] S) : KeepsA S z
    (execHubGetStatus a1 a2) := by
  unfold execHubGetStatus
  refine keeps_next ?_
  refine keeps_ite ?_ ?_
  · assumption
  · refine keeps_ite ?_ ?_
    · apply keeps_State_hubData (w := w.of)
      assumption
    · refine keeps_ite ?_ ?_
      · apply keeps_State_hubData (w := w.of)
        assumption
      · apply keeps_State_hubData (w := w.of)
        assumption

theorem keeps_execHubGetDescriptor (a1 : Nat) (a2 : Nat) (a3 : Nat) (a4 : State) (h4 : Keeps S z a4) (w : Sub [.usb]
    S) : KeepsA S z (execHubGetDescriptor a1 a2 a3 a4) := by
  unfold execHubGetDescriptor
  refine keeps_next ?_
  refine keeps_ite ?_ ?_
  · assumption
  · refine keeps_ite ?_ ?_
    · apply keeps_State_hubData (w := w.of)
      assumption
    · refine keeps_ite ?_ ?_
      · apply keeps_State_hubData (w := w.of)
        assumption
      · refine keeps_ite ?_ ?_
        · apply keeps_State_hubData (w := w.of)
          assumption
        · refine keeps_ite ?_ ?_
          · apply keeps_State_hubData (w := w.of)
            assumption
          · refine keeps_ite ?_ ?_
            · apply keeps_State_hubData (w := w.of)
              assumption
            · refine keeps_mk ?_ (w_usb := .inr w.has)
              assumption

theorem keeps_execHubSetAddress (a1 : Nat) (a2 : State) (h2 : Keeps S z a2) (w : Sub [.objs, .usb] S) : KeepsA S z
    (execHubSetAddress a1 a2) := by
  unfold execHubSetAddress
  refine keeps_next ?_
  refine keeps_ite ?_ ?_
  · apply keeps_State_showHub (w := w.of)
    refine keeps_mk ?_ (w_usb := .inr w.has)
    assumption
  · assumption

theorem keeps_execHubSetConfiguration (a1 : Nat) (a2 : State) (h2 : Keeps S z a2) (w : Sub [.objs, .usb] S) : KeepsA S
    z (execHubSetConfiguration a1 a2) := by
  unfold execHubSetConfiguration
  refine keeps_next ?_
  refine keeps_ite ?_ ?_
  · assumption
  · refine keeps_ite ?_ ?_
    · apply keeps_State_showHub (w := w.of)
      refine keeps_mk ?_ (w_usb := .inr w.has)
      assumption
    · refine keeps_mk ?_ (w_usb := .inr w.has)
      assumption

theorem keeps_State_admitAgain (a1 : State) (a2 : Nat) (h1 : Keeps S z a1) (w : Sub [.objs, .freeCount, .irq, .jour,
    .rates, .fabric, .usb] S) : Keeps S z (State.admitAgain a1 a2) := by
  unfold State.admitAgain
  apply keeps_forAll
  · intro x1
    intro x2
    intro k3
    refine keeps_ite ?_ ?_
    · apply keeps_State_turnAway (w := w.of)
      apply keeps_State_updUport (w := w.of)
      assumption
    · assumption
  · assumption

theorem keeps_execHubSetInterface (a1 : Nat) (a2 : State) (h2 : Keeps S z a2) (w : Sub [.objs, .freeCount, .irq,
    .jour, .rates, .fabric, .usb] S) : KeepsA S z (execHubSetInterface a1 a2) := by
  unfold execHubSetInterface
  refine keeps_next ?_
  refine keeps_ite ?_ ?_
  · assumption
  · refine keeps_ite ?_ ?_
    · extract_lets +onlyGivenNames y1
      clear_value y1
      extract_lets +onlyGivenNames y2
      have k2 : Keeps S z y2 := by
        unfold y2
        refine keeps_mk ?_ (w_usb := .inr w.has)
        assumption
      clear_value y2
      apply keeps_forAll
      · intro x3
        intro x4
        intro k5
        apply keeps_State_admitAgain (w := w.of)
        assumption
      · assumption
    · refine keeps_mk ?_ (w_usb := .inr w.has)
      assumption

theorem keeps_execHubSetRemoteWakeup (a1 : State) (h1 : Keeps S z a1) (w : Sub [.usb] S) : KeepsA S z
    (execHubSetRemoteWakeup a1) := by
  unfold execHubSetRemoteWakeup
  refine keeps_next ?_
  refine keeps_ite ?_ ?_
  · refine keeps_mk ?_ (w_usb := .inr w.has)
    assumption
  · assumption

theorem keeps_execHubClearRemoteWakeup (a1 : State) (h1 : Keeps S z a1) (w : Sub [.usb] S) : KeepsA S z
    (execHubClearRemoteWakeup a1) := by
  unfold execHubClearRemoteWakeup
  refine keeps_next ?_
  refine keeps_ite ?_ ?_
  · refine keeps_mk ?_ (w_usb := .inr w.has)
    assumption
  · assumption

theorem keeps_execClearTtBuffer (a1 : Nat) (a2 : Nat) (a3 : Nat) (a4 : Nat) (a5 : Bool) (a6 : State) (h6 : Keeps S z
    a6) (w : Sub [.objs, .freeCount, .irq, .jour, .rates, .fabric, .usb] S) : KeepsA S z (execClearTtBuffer a1 a2 a3
    a4 a5 a6) := by
  unfold execClearTtBuffer
  apply keeps_onPort
  · assumption
  · refine keeps_ite ?_ ?_
    · apply keeps_State_discardSome (w := w.of)
      assumption
    · assumption

theorem keeps_execResetTt (a1 : Nat) (a2 : State) (h2 : Keeps S z a2) (w : Sub [.objs, .freeCount, .irq, .jour,
    .rates, .fabric, .usb] S) : KeepsA S z (execResetTt a1 a2) := by
  unfold execResetTt
  apply keeps_onPort
  · assumption
  · refine keeps_ite ?_ ?_
    · apply keeps_State_discardSome (w := w.of)
      assumption
    · assumption

theorem keeps_execPortResumingEnd (a1 : Nat) (a2 : State) (h2 : Keeps S z a2) (w : Sub [.objs, .timers, .irq, .jour,
    .usb] S) : KeepsA S z (execPortResumingEnd a1 a2) := by
  unfold execPortResumingEnd
  apply keeps_onPort
  · assumption
  · refine keeps_ite ?_ ?_
    · extract_lets +onlyGivenNames y1
      clear_value y1
      apply keeps_State_cbit (w := w.of)
      apply keeps_State_pbit (w := w.of)
      apply keeps_State_set (w := w.of)
      apply keeps_State_pgo (w := w.of)
      assumption
    · assumption

theorem keeps_State_ringUp (a1 : State) (a2 : Nat) (a3 : Bytes) (h1 : Keeps S z a1) (w : Sub [.objs, .sent, .usb] S) :
    Keeps S z (State.ringUp a1 a2 a3) := by
  unfold State.ringUp
  extract_lets +onlyGivenNames y1
  clear_value y1
  refine keeps_ite ?_ ?_
  · apply keeps_State_updRelay (w := w.of)
    assumption
  · extract_lets +onlyGivenNames y2
    clear_value y2
    extract_lets +onlyGivenNames y3
    clear_value y3
    extract_lets +onlyGivenNames y4
    have k4 : Keeps S z y4 := by
      unfold y4
      apply keeps_State_count (w := w.of)
      assumption
    clear_value y4
    extract_lets +onlyGivenNames y5
    have k5 : Keeps S z y5 := by
      unfold y5
      apply keeps_State_send (w := w.of)
      assumption
    clear_value y5
    extract_lets +onlyGivenNames y6
    have k6 : Keeps S z y6 := by
      unfold y6
      apply keeps_State_send (w := w.of)
      apply keeps_State_send (w := w.of)
      assumption
    clear_value y6
    extract_lets +onlyGivenNames y7
    have k7 : Keeps S z y7 := by
      unfold y7
      apply keeps_State_count (w := w.of)
      apply keeps_State_updRelay (w := w.of)
      assumption
    clear_value y7
    refine keeps_ite ?_ ?_
    · apply keeps_State_updRelay (w := w.of)
      assumption
    · assumption

theorem keeps_State_relayDown (a1 : State) (a2 : Nat) (a3 : Bytes) (h1 : Keeps S z a1) (w : Sub [.objs, .freeCount,
    .irq, .jour, .rates, .sent, .fabric, .usb] S) : Keeps S z (State.relayDown a1 a2 a3) := by
  unfold State.relayDown
  extract_lets +onlyGivenNames y1
  clear_value y1
  extract_lets +onlyGivenNames y2
  clear_value y2
  split
  · apply keeps_State_unitOut (w := w.of)
    apply keeps_State_count (w := w.of)
    assumption
  · refine keeps_ite ?_ ?_
    · split
      extract_lets +onlyGivenNames y3
      clear_value y3
      apply keeps_State_ringUp (w := w.of)
      refine keeps_pair (by assumption) ?_
      apply keeps_State_draw (w := w.of)
      assumption
    · apply keeps_State_count (w := w.of)
      assumption

theorem keeps_execRelayDownProducerWrite (a1 : Nat) (a2 : Nat) (a3 : List Bytes) (a4 : State) (h4 : Keeps S z a4) (w :
    Sub [.objs, .freeCount, .irq, .jour, .rates, .sent, .fabric, .usb] S) : KeepsA S z (execRelayDownProducerWrite a1
    a2 a3 a4) := by
  unfold execRelayDownProducerWrite
  apply keeps_onUnit
  extract_lets +onlyGivenNames y1
  clear_value y1
  refine keeps_ite ?_ ?_
  · extract_lets +onlyGivenNames y2
    clear_value y2
    extract_lets +onlyGivenNames y3
    have k3 : Keeps S z y3 := by
      unfold y3
      apply keeps_forAll
      · intro x4
        intro x5
        intro k6
        apply keeps_State_send (w := w.of)
        apply keeps_State_count (w := w.of)
        assumption
      · assumption
    clear_value y3
    extract_lets +onlyGivenNames y7
    have k7 : Keeps S z y7 := by
      unfold y7
      apply keeps_State_updRelay (w := w.of)
      assumption
    clear_value y7
    apply keeps_forAll
    · intro x8
      intro x9
      intro k10
      apply keeps_State_relayDown (w := w.of)
      assumption
    · assumption
  · assumption

theorem keeps_State_ringDrain (a1 : State) (a2 : Nat) (h1 : Keeps S z a1) (w : Sub [.objs, .sent, .usb] S) : Keeps S z
    (State.ringDrain a1 a2) := by
  unfold State.ringDrain
  extract_lets +onlyGivenNames y1
  clear_value y1
  apply keeps_forAll
  · intro x2
    intro x3
    intro k4
    apply keeps_State_ringUp (w := w.of)
    assumption
  · apply keeps_State_updRelay (w := w.of)
    assumption

theorem keeps_execRelayUpConsumerWrite (a1 : Nat) (a2 : Nat) (a3 : State) (h3 : Keeps S z a3) (w : Sub [.objs, .irq,
    .jour, .rates, .sent, .usb] S) : KeepsA S z (execRelayUpConsumerWrite a1 a2 a3) := by
  unfold execRelayUpConsumerWrite
  apply keeps_onUnit
  refine keeps_ite ?_ ?_
  · extract_lets +onlyGivenNames y1
    have k1 : Keeps S z y1 := by
      unfold y1
      apply keeps_State_updRelay (w := w.of)
      assumption
    clear_value y1
    split
    · refine keeps_ite ?_ ?_
      · assumption
      · extract_lets +onlyGivenNames y2
        clear_value y2
        extract_lets +onlyGivenNames y3
        have k3 : Keeps S z y3 := by
          unfold y3
          apply keeps_State_count (w := w.of)
          apply keeps_State_updRelay (w := w.of)
          assumption
        clear_value y3
        extract_lets +onlyGivenNames y4
        have k4 : Keeps S z y4 := by
          unfold y4
          apply keeps_State_evRate (w := w.of)
          assumption
        clear_value y4
        apply keeps_State_ringDrain (w := w.of)
        assumption
    · assumption
  · assumption

theorem keeps_execRelayUnitFromTunnel (a1 : Nat) (a2 : Bytes) (a3 : State) (h3 : Keeps S z a3) (w : Sub [.objs, .sent,
    .usb] S) : KeepsA S z (execRelayUnitFromTunnel a1 a2 a3) := by
  unfold execRelayUnitFromTunnel
  apply keeps_onUnit
  split
  · refine keeps_ite ?_ ?_
    · apply keeps_State_ringUp (w := w.of)
      assumption
    · assumption
  · assumption

theorem keeps_State_rawPort (a1 : State) (a2 : Path) (a3 : Nat) (a4 : Nat) (a5 : Nat) (a6 : List Nat) (a7 : State →
    State) (h1 : Keeps S z a1) (h7 : ∀ x0, Keeps S z x0 → Keeps S z (a7 x0)) (w : Sub [.objs, .sessions, .cmds, .irq,
    .jour] S) : Keeps S z (State.rawPort a1 a2 a3 a4 a5 a6 a7) := by
  unfold State.rawPort
  apply keeps_State_command (w := w.of)
  · assumption
  · exact h7

theorem keeps_execUsbPortPowerOn (a1 : Path) (a2 : Nat) (a3 : State) (h3 : Keeps S z a3) (w : Sub [.objs, .timers,
    .sessions, .cmds, .irq, .jour, .usb, .power] S) : KeepsA S z (execUsbPortPowerOn a1 a2 a3) := by
  unfold execUsbPortPowerOn
  apply keeps_onPath
  · assumption
  · apply keeps_State_rawPort (w := w.of)
    · assumption
    · intro x1
      intro k2
      extract_lets +onlyGivenNames y3
      have k3 : Keeps S z y3 := by
        unfold y3
        apply keeps_State_portPowerOn (w := w.of)
        assumption
      clear_value y3
      refine keeps_ite ?_ ?_
      · apply keeps_State_rawDone (w := w.of)
        assumption
      · assumption

theorem keeps_execUsbPortPowerOff (a1 : Path) (a2 : Nat) (a3 : State) (h3 : Keeps S z a3) (w : Sub [.objs, .freeCount,
    .timers, .sessions, .cmds, .irq, .jour, .rates, .fabric, .usb, .power] S) : KeepsA S z (execUsbPortPowerOff a1 a2
    a3) := by
  unfold execUsbPortPowerOff
  apply keeps_onPath
  · assumption
  · apply keeps_State_rawPort (w := w.of)
    · assumption
    · intro x1
      intro k2
      extract_lets +onlyGivenNames y3
      have k3 : Keeps S z y3 := by
        unfold y3
        apply keeps_State_portPowerOff (w := w.of)
        assumption
      clear_value y3
      refine keeps_ite ?_ ?_
      · assumption
      · apply keeps_State_rawDone (w := w.of)
        assumption

theorem keeps_execUsbPortReset (a1 : Path) (a2 : Nat) (a3 : State) (h3 : Keeps S z a3) (w : Sub [.objs, .freeCount,
    .timers, .sessions, .cmds, .irq, .jour, .rates, .sent, .fabric, .usb] S) : KeepsA S z (execUsbPortReset a1 a2 a3)
    := by
  unfold execUsbPortReset
  apply keeps_onPath
  · assumption
  · apply keeps_State_rawPort (w := w.of)
    · assumption
    · intro x1
      intro k2
      apply keeps_State_askReset (w := w.of)
      assumption

theorem keeps_execUsbPortSuspend (a1 : Path) (a2 : Nat) (a3 : State) (h3 : Keeps S z a3) (w : Sub [.objs, .freeCount,
    .timers, .sessions, .cmds, .irq, .jour, .rates, .fabric, .usb] S) : KeepsA S z (execUsbPortSuspend a1 a2 a3) := by
  unfold execUsbPortSuspend
  apply keeps_onPath
  · assumption
  · apply keeps_State_rawPort (w := w.of)
    · assumption
    · intro x1
      intro k2
      apply keeps_State_askSuspend (w := w.of)
      assumption

theorem keeps_execUsbPortResume (a1 : Path) (a2 : Nat) (a3 : State) (h3 : Keeps S z a3) (w : Sub [.objs, .timers,
    .sessions, .cmds, .irq, .jour, .sent, .usb] S) : KeepsA S z (execUsbPortResume a1 a2 a3) := by
  unfold execUsbPortResume
  apply keeps_onPath
  · assumption
  · apply keeps_State_rawPort (w := w.of)
    · assumption
    · intro x1
      intro k2
      apply keeps_State_portResume (w := w.of)
      assumption

theorem keeps_execUsbPortTestMode (a1 : Path) (a2 : Nat) (a3 : Nat) (a4 : State) (h4 : Keeps S z a4) (w : Sub [.objs,
    .sessions, .cmds, .irq, .jour, .sent, .usb] S) : KeepsA S z (execUsbPortTestMode a1 a2 a3 a4) := by
  unfold execUsbPortTestMode
  apply keeps_onPath
  · assumption
  · apply keeps_State_rawPort (w := w.of)
    · assumption
    · intro x1
      intro k2
      apply keeps_State_rawDone (w := w.of)
      apply keeps_State_portTest (w := w.of)
      assumption

theorem keeps_execUsbHubClearCounters (a1 : Path) (a2 : State) (h2 : Keeps S z a2) (w : Sub [.objs, .sessions, .cmds,
    .irq, .jour] S) : KeepsA S z (execUsbHubClearCounters a1 a2) := by
  unfold execUsbHubClearCounters
  apply keeps_onPath
  · assumption
  · apply keeps_State_commandNow (w := w.of)
    · assumption
    · intro x1
      intro k2
      apply keeps_State_clear (w := w.of)
      apply keeps_State_clear (w := w.of)
      assumption

theorem keeps_State_loadSlot (a1 : State) (a2 : Nat) (h1 : Keeps S z a1) (w : Sub [.timers, .boot] S) : Keeps S z
    (State.loadSlot a1 a2) := by
  unfold State.loadSlot
  extract_lets +onlyGivenNames y1
  clear_value y1
  extract_lets +onlyGivenNames y2
  clear_value y2
  apply keeps_State_start (w := w.of)
  apply keeps_State_updBoot (w := w.of)
  assumption

theorem keeps_State_trySlots (a1 : State) (a2 : List Nat) (h1 : Keeps S z a1) (w : Sub [.objs, .timers, .sent, .boot]
    S) : Keeps S z (State.trySlots a1 a2) := by
  induction a2 generalizing a1 with
  | nil =>
    rw [State.trySlots]
    assumption
  | cons e r ih =>
    rw [State.trySlots]
    refine keeps_ite ?_ ?_
    · apply keeps_State_loadSlot (w := w.of)
      apply keeps_State_updBoot (w := w.of)
      assumption
    · extract_lets +onlyGivenNames y1
      have k1 : Keeps S z y1 := by
        unfold y1
        apply keeps_State_updBoot (w := w.of)
        apply keeps_State_updBoot (w := w.of)
        assumption
      clear_value y1
      extract_lets +onlyGivenNames y2
      have k2 : Keeps S z y2 := by
        unfold y2
        apply keeps_State_note (w := w.of)
        assumption
      clear_value y2
      refine keeps_ite ?_ ?_
      · apply keeps_State_enterLift (w := w.of)
        assumption
      · apply ih
        assumption

theorem keeps_State_chooseSlot (a1 : State) (a2 : Bool) (h1 : Keeps S z a1) (w : Sub [.objs, .timers, .sent, .boot] S)
    : Keeps S z (State.chooseSlot a1 a2) := by
  unfold State.chooseSlot
  extract_lets +onlyGivenNames y1
  clear_value y1
  refine keeps_ite ?_ ?_
  · apply keeps_State_enterLift (w := w.of)
    assumption
  · refine keeps_ite ?_ ?_
    · apply keeps_State_enterLift (w := w.of)
      assumption
    · extract_lets +onlyGivenNames y2
      clear_value y2
      apply keeps_State_trySlots (w := w.of)
      apply keeps_State_updBoot (w := w.of)
      assumption

theorem keeps_State_seedLfsrs (a1 : State) (h1 : Keeps S z a1) (w : Sub [.freeCount, .fabric] S) : Keeps S z
    (State.seedLfsrs a1) := by
  unfold State.seedLfsrs
  apply keeps_forAll
  · intro x1
    intro x2
    intro k3
    split
    apply keeps_State_updFabric (w := w.of)
    refine keeps_pair (by assumption) ?_
    apply keeps_State_draw (w := w.of)
    assumption
  · assumption

theorem keeps_State_bootStart (a1 : State) (a2 : Bool) (a3 : Bool) (a4 : Nat) (h1 : Keeps S z a1) (w : Sub [.head,
    .objs, .strs, .freeCount, .timers, .irq, .jour, .rates, .sent, .tunnels, .fabric, .scheds, .usb, .keys, .secu, .power, .boot] S) :
    Keeps S z (State.bootStart a1 a2 a3 a4) := by
  unfold State.bootStart
  extract_lets +onlyGivenNames y1
  have k1 : Keeps S z y1 := keeps_of h1 rfl rfl rfl (List.suffix_refl _) (w.of (G := [.head, .objs])) (by intro f hf; cases f <;> first | rfl | cases hf) fun c =>
    ⟨wf_rehead _ c.objs, c.strs, c.dram, c.ring⟩
  clear_value y1
  extract_lets +onlyGivenNames y1
  have k1 : Keeps S z y1 := by
    unfold y1
    apply keeps_State_setAll (w := w.of)
    assumption
  clear_value y1
  extract_lets +onlyGivenNames y2
  clear_value y2
  extract_lets +onlyGivenNames y3
  have k3 : Keeps S z y3 := by
    unfold y3
    apply keeps_State_stop (w := w.of)
    apply keeps_State_updBoot (w := w.of)
    assumption
  clear_value y3
  extract_lets +onlyGivenNames y4
  have k4 : Keeps S z y4 := by
    unfold y4
    refine keeps_ite ?_ ?_
    · apply keeps_State_set (w := w.of)
      assumption
    · assumption
  clear_value y4
  extract_lets +onlyGivenNames y5
  clear_value y5
  extract_lets +onlyGivenNames y6
  have k6 : Keeps S z y6 := by
    unfold y6
    refine keeps_mk ?_ (w_power := .inr w.has)
    assumption
  clear_value y6
  extract_lets +onlyGivenNames y7
  have k7 : Keeps S z y7 := by
    unfold y7
    apply keeps_State_seedLfsrs (w := w.of)
    apply keeps_State_start (w := w.of)
    apply keeps_State_bootSecurity (w := w.of)
    assumption
  clear_value y7
  extract_lets +onlyGivenNames y8
  have k8 : Keeps S z y8 := by
    unfold y8
    apply keeps_State_chooseSlot (w := w.of)
    assumption
  clear_value y8
  refine keeps_ite ?_ ?_
  · extract_lets +onlyGivenNames y9
    have k9 : Keeps S z y9 := by
      unfold y9
      apply keeps_State_storeMigrated (w := w.of)
      apply keeps_State_showReserved (w := w.of)
      apply keeps_State_takeConfig (w := w.of)
      assumption
    clear_value y9
    apply keeps_State_start (w := w.of)
    apply keeps_State_updBoot (w := w.of)
    assumption
  · assumption

theorem keeps_State_queueJournal (a1 : State) (a2 : List QEv) (h1 : Keeps S z a1) (w : Sub [.objs, .irq, .jour, .sent,
    .safety] S) : Keeps S z (State.queueJournal a1 a2) := by
  induction a2 generalizing a1 with
  | nil =>
    rw [State.queueJournal]
    assumption
  | cons e r ih =>
    rw [State.queueJournal]
    apply ih
    refine keeps_ite ?_ ?_
    · apply keeps_State_sf4Fault (w := w.of)
      assumption
    · apply keeps_State_ev (w := w.of)
      assumption

theorem keeps_State_noteJournal (a1 : State) (a2 : List QEv) (h1 : Keeps S z a1) (w : Sub [.irq, .jour] S) : Keeps S z
    (State.noteJournal a1 a2) := by
  induction a2 generalizing a1 with
  | nil =>
    rw [State.noteJournal]
    assumption
  | cons e r ih =>
    rw [State.noteJournal]
    apply ih
    apply keeps_State_ev (w := w.of)
    assumption

theorem keeps_State_startJournal (a1 : State) (h1 : Keeps S z a1) (w : Sub [.objs, .irq, .jour, .sent, .safety] S) :
    Keeps S z (State.startJournal a1) := by
  unfold State.startJournal
  extract_lets +onlyGivenNames y1
  clear_value y1
  extract_lets +onlyGivenNames y2
  have k2 : Keeps S z y2 := by
    unfold y2
    apply keeps_State_noteJournal (w := w.of)
    apply keeps_State_queueJournal (w := w.of)
    assumption
  clear_value y2
  extract_lets +onlyGivenNames y3
  clear_value y3
  extract_lets +onlyGivenNames y4
  clear_value y4
  extract_lets +onlyGivenNames y5
  have k5 : Keeps S z y5 := by
    unfold y5
    refine keeps_ite ?_ ?_
    · apply keeps_State_ev (w := w.of)
      assumption
    · assumption
  clear_value y5
  extract_lets +onlyGivenNames y6
  have k6 : Keeps S z y6 := by
    unfold y6
    apply keeps_State_ev (w := w.of)
    assumption
  clear_value y6
  extract_lets +onlyGivenNames y7
  have k7 : Keeps S z y7 := by
    unfold y7
    split
    · apply keeps_State_ev (w := w.of)
      assumption
    · assumption
  clear_value y7
  extract_lets +onlyGivenNames y8
  clear_value y8
  apply keeps_State_ev (w := w.of)
  apply keeps_State_set (w := w.of)
  assumption

theorem keeps_State_relaySwitch (a1 : State) (a2 : Nat) (a3 : Nat) (h1 : Keeps S z a1) (w : Sub [.objs, .usb] S) :
    Keeps S z (State.relaySwitch a1 a2 a3) := by
  unfold State.relaySwitch
  extract_lets +onlyGivenNames y1
  have k1 : Keeps S z y1 := by
    unfold y1
    apply keeps_State_set (w := w.of)
    assumption
  clear_value y1
  refine keeps_ite ?_ ?_
  · extract_lets +onlyGivenNames y2
    clear_value y2
    apply keeps_State_updRelay (w := w.of)
    assumption
  · apply keeps_State_updRelay (w := w.of)
    assumption

theorem keeps_State_canTake (a1 : State) (h1 : Keeps S z a1) (w : Sub [.timers, .canOpen, .canNode] S) : Keeps S z
    (State.canTake a1) := by
  unfold State.canTake
  apply keeps_State_start (w := w.of)
  refine keeps_mk ?_ (w_canOpen := .inr w.has) (w_canNode := .inr w.has)
  assumption

theorem keeps_State_servicesStart (a1 : State) (h1 : Keeps S z a1) (w : Sub [.objs, .timers, .safety] S) : Keeps S z
    (State.servicesStart a1) := by
  unfold State.servicesStart
  extract_lets +onlyGivenNames y1
  have k1 : Keeps S z y1 := by
    unfold y1
    apply keeps_forAll
    · intro x2
      intro x3
      intro k4
      apply keeps_State_start (w := w.of)
      assumption
    · assumption
  clear_value y1
  extract_lets +onlyGivenNames y5
  have k5 : Keeps S z y5 := by
    unfold y5
    apply keeps_forAll
    · intro x6
      intro x7
      intro k8
      refine keeps_ite ?_ ?_
      · apply keeps_State_passBegin (w := w.of)
        assumption
      · assumption
    · assumption
  clear_value y5
  apply keeps_State_norShow (w := w.of)
  apply keeps_State_set (w := w.of)
  assumption

theorem keeps_State_enterState (a1 : State) (a2 : Nat) (h1 : Keeps S z a1) (w : Sub [.objs, .irq, .jour, .sent,
    .safety] S) : Keeps S z (State.enterState a1 a2) := by
  unfold State.enterState
  apply keeps_State_pulse (w := w.of)
  apply keeps_State_raise (w := w.of)
  apply keeps_State_set (w := w.of)
  assumption

theorem keeps_State_enterRun (a1 : State) (h1 : Keeps S z a1) (w : Sub [.objs, .timers, .irq, .jour, .rates, .sent,
    .tunnels, .fabric, .scheds, .disps, .usb, .stor, .safety] S) : Keeps S z (State.enterRun a1) := by
  unfold State.enterRun
  extract_lets +onlyGivenNames y1
  clear_value y1
  extract_lets +onlyGivenNames y2
  have k2 : Keeps S z y2 := by
    unfold y2
    apply keeps_State_enterState (w := w.of)
    refine keeps_ite ?_ ?_
    · apply keeps_State_takeRoles (w := w.of)
      assumption
    · assumption
  clear_value y2
  extract_lets +onlyGivenNames y3
  have k3 : Keeps S z y3 := by
    unfold y3
    refine keeps_ite ?_ ?_
    · assumption
    · apply keeps_forAll
      · intro x4
        intro x5
        intro k6
        apply keeps_State_leaveOff (w := w.of)
        assumption
      · assumption
  clear_value y3
  extract_lets +onlyGivenNames y7
  have k7 : Keeps S z y7 := by
    unfold y7
    apply keeps_State_baselineNow (w := w.of)
    assumption
  clear_value y7
  apply keeps_State_set (w := w.of)
  assumption

theorem keeps_State_declared (a1 : State) (h1 : Keeps S z a1) (w : Sub (Piece.allBut [.head, .strs, .station,
    .lockouts, .sessionCounter, .cmds, .modeHeld, .stateHeld, .time, .eth, .dram]) S) : Keeps S z (State.declared a1)
    := by
  unfold State.declared
  extract_lets +onlyGivenNames y1
  clear_value y1
  extract_lets +onlyGivenNames y2
  clear_value y2
  extract_lets +onlyGivenNames y3
  have k3 : Keeps S z y3 := by
    unfold y3
    refine keeps_ite ?_ ?_
    · refine keeps_mk ?_ (w_secu := .inr w.has)
      assumption
    · assumption
  clear_value y3
  extract_lets +onlyGivenNames y4
  have k4 : Keeps S z y4 := by
    unfold y4
    apply keeps_State_restoreKeys (w := w.of)
    assumption
  clear_value y4
  extract_lets +onlyGivenNames y5
  clear_value y5
  extract_lets +onlyGivenNames y6
  have k6 : Keeps S z y6 := by
    unfold y6
    apply keeps_State_stop (w := w.of)
    assumption
  clear_value y6
  extract_lets +onlyGivenNames y7
  have k7 : Keeps S z y7 := by
    unfold y7
    apply keeps_State_startJournal (w := w.of)
    assumption
  clear_value y7
  extract_lets +onlyGivenNames y8
  have k8 : Keeps S z y8 := by
    unfold y8
    apply keeps_State_updBoot (w := w.of)
    assumption
  clear_value y8
  extract_lets +onlyGivenNames y9
  clear_value y9
  extract_lets +onlyGivenNames y10
  have k10 : Keeps S z y10 := by
    unfold y10
    refine keeps_mk ?_ (w_power := .inr w.has)
    assumption
  clear_value y10
  extract_lets +onlyGivenNames y11
  have k11 : Keeps S z y11 := by
    unfold y11
    apply keeps_State_takeEnabled (w := w.of)
    apply keeps_State_enterState (w := w.of)
    assumption
  clear_value y11
  extract_lets +onlyGivenNames y12
  have k12 : Keeps S z y12 := by
    unfold y12
    apply keeps_forAll
    · intro x13
      intro x14
      intro k15
      refine keeps_ite ?_ ?_
      · apply keeps_State_relaySwitch (w := w.of)
        assumption
      · assumption
    · assumption
  clear_value y12
  extract_lets +onlyGivenNames y16
  have k16 : Keeps S z y16 := by
    unfold y16
    apply keeps_State_servicesStart (w := w.of)
    apply keeps_State_canTake (w := w.of)
    assumption
  clear_value y16
  extract_lets +onlyGivenNames y17
  have k17 : Keeps S z y17 := by
    unfold y17
    apply keeps_State_setVolts (w := w.of)
    assumption
  clear_value y17
  extract_lets +onlyGivenNames y18
  have k18 : Keeps S z y18 := by
    unfold y18
    apply keeps_State_errorRecovery (w := w.of)
    apply keeps_State_displaysOn (w := w.of)
    apply keeps_forAll
    · intro x19
      intro x20
      intro k21
      apply keeps_State_trunkOn (w := w.of)
      assumption
    · assumption
  clear_value y18
  extract_lets +onlyGivenNames y22
  have k22 : Keeps S z y22 := by
    unfold y22
    refine keeps_ite ?_ ?_
    · apply keeps_State_appLoad (w := w.of)
      assumption
    · assumption
  clear_value y22
  refine keeps_ite ?_ ?_
  · apply keeps_State_enterRun (w := w.of)
    assumption
  · assumption

theorem keeps_State_goState (a1 : State) (a2 : Nat) (h1 : Keeps S z a1) (w : Sub [.objs, .freeCount, .timers,
    .sessions, .irq, .jour, .rates, .sent, .trunks, .tunnels, .fabric, .scheds, .disps, .usb, .pl, .stor, .fld,
    .safety] S) : Keeps S z (State.goState a1 a2) := by
  unfold State.goState
  refine keeps_ite ?_ ?_
  · apply keeps_State_enterRun (w := w.of)
    assumption
  · refine keeps_ite ?_ ?_
    · apply keeps_State_enterState (w := w.of)
      assumption
    · extract_lets +onlyGivenNames y1
      have k1 : Keeps S z y1 := by
        unfold y1
        apply keeps_State_set (w := w.of)
        assumption
      clear_value y1
      apply keeps_State_settle (w := w.of)
      apply keeps_forAll
      · intro x2
        intro x3
        intro k4
        apply keeps_State_shut (w := w.of)
        assumption
      · assumption

theorem keeps_State_heldRequests (a1 : State) (a2 : Nat) (h1 : Keeps S z a1) (w : Sub [.objs, .freeCount, .timers,
    .sessions, .irq, .jour, .rates, .sent, .stateHeld, .trunks, .tunnels, .fabric, .scheds, .disps, .usb, .pl, .stor,
    .fld, .safety] S) : Keeps S z (State.heldRequests a1 a2) := by
  induction a2 generalizing a1 with
  | zero =>
    rw [State.heldRequests]
    assumption
  | succ n ih =>
    rw [State.heldRequests]
    split
    · assumption
    · refine keeps_ite ?_ ?_
      · assumption
      · extract_lets +onlyGivenNames y1
        have k1 : Keeps S z y1 := by
          unfold y1
          refine keeps_mk ?_ (w_stateHeld := .inr w.has)
          assumption
        clear_value y1
        apply ih
        refine keeps_ite ?_ ?_
        · apply keeps_State_goState (w := w.of)
          assumption
        · apply keeps_State_violateAt (w := w.of)
          assumption

theorem keeps_State_askState (a1 : State) (a2 : Path) (a3 : Nat) (h1 : Keeps S z a1) (w : Sub [.objs, .freeCount,
    .timers, .sessions, .irq, .jour, .rates, .sent, .stateHeld, .trunks, .tunnels, .fabric, .scheds, .disps, .usb,
    .pl, .stor, .fld, .safety] S) : Keeps S z (State.askState a1 a2 a3) := by
  unfold State.askState
  apply keeps_State_writeNum (w := w.of)
  · assumption
  · intro x1
    intro k2
    refine keeps_ite ?_ ?_
    · refine keeps_mk ?_ (w_stateHeld := .inr w.has)
      assumption
    · apply keeps_State_goState (w := w.of)
      assumption

theorem keeps_State_islandStop (a1 : State) (a2 : Nat) (a3 : Nat) (h1 : Keeps S z a1) (w : Sub [.objs, .irq, .jour,
    .sent, .safety] S) : Keeps S z (State.islandStop a1 a2 a3) := by
  unfold State.islandStop
  apply keeps_State_danger (w := w.of)
  apply keeps_State_latchCommon (w := w.of)
  apply keeps_State_count (w := w.of)
  assumption

theorem keeps_State_crossingDiscard (a1 : State) (a2 : Nat) (a3 : Nat) (a4 : Nat) (a5 : Nat) (h1 : Keeps S z a1) (w :
    Sub [.objs, .irq, .jour, .rates, .trunks] S) : Keeps S z (State.crossingDiscard a1 a2 a3 a4 a5) := by
  unfold State.crossingDiscard
  refine keeps_ite ?_ ?_
  · assumption
  · extract_lets +onlyGivenNames y1
    have k1 : Keeps S z y1 := by
      unfold y1
      refine keeps_ite ?_ ?_
      · apply keeps_State_giveCredits (w := w.of)
        assumption
      · assumption
    clear_value y1
    apply keeps_State_fabricEv (w := w.of)
    apply keeps_State_count (w := w.of)
    assumption

theorem keeps_State_crossingLost (a1 : State) (a2 : Nat) (a3 : List (Nat × Nat)) (h1 : Keeps S z a1) (w : Sub [.objs,
    .irq, .jour, .rates, .trunks] S) : Keeps S z (State.crossingLost a1 a2 a3) := by
  unfold State.crossingLost
  apply keeps_forAll
  · intro x1
    intro x2
    intro k3
    apply keeps_forAll
    · intro x4
      intro x5
      intro k6
      apply keeps_State_crossingDiscard (w := w.of)
      assumption
    · assumption
  · assumption

theorem keeps_State_setLockout (a1 : State) (a2 : Path) (a3 : Lockout) (h1 : Keeps S z a1) (w : Sub [.lockouts] S) :
    Keeps S z (State.setLockout a1 a2 a3) := by
  unfold State.setLockout
  refine keeps_mk ?_ (w_lockouts := .inr w.has)
  assumption

theorem keeps_State_lockSettle (a1 : State) (a2 : Path) (h1 : Keeps S z a1) (w : Sub [.lockouts] S) : Keeps S z
    (State.lockSettle a1 a2) := by
  unfold State.lockSettle
  refine keeps_ite ?_ ?_
  · apply keeps_State_setLockout (w := w.of)
    assumption
  · assumption

theorem keeps_State_askSession (a1 : State) (a2 : Path) (a3 : Nat) (h1 : Keeps S z a1) (w : Sub [.freeCount,
    .sessions, .irq, .jour] S) : Keeps S z (State.askSession a1 a2 a3) := by
  unfold State.askSession
  extract_lets +onlyGivenNames y1
  have k1 : Keeps S z y1 := by
    unfold y1
    apply keeps_State_updSession (w := w.of)
    assumption
  clear_value y1
  refine keeps_ite ?_ ?_
  · apply keeps_State_endSession (w := w.of)
    assumption
  · refine keeps_ite ?_ ?_
    · assumption
    · split
      apply keeps_State_updSession (w := w.of)
      refine keeps_pair (by assumption) ?_
      apply keeps_State_draw (w := w.of)
      assumption

theorem keeps_State_refusedEv (a1 : State) (a2 : Path) (a3 : Nat) (a4 : Nat) (h1 : Keeps S z a1) (w : Sub [.irq,
    .jour] S) : Keeps S z (State.refusedEv a1 a2 a3 a4) := by
  unfold State.refusedEv
  apply keeps_State_ev (w := w.of)
  assumption

theorem keeps_State_grant (a1 : State) (a2 : Path) (a3 : Nat) (h1 : Keeps S z a1) (w : Sub [.sessions, .lockouts,
    .sessionCounter, .irq, .jour] S) : Keeps S z (State.grant a1 a2 a3) := by
  unfold State.grant
  extract_lets +onlyGivenNames y1
  clear_value y1
  extract_lets +onlyGivenNames y2
  have k2 : Keeps S z y2 := by
    unfold y2
    apply keeps_State_setLockout (w := w.of)
    assumption
  clear_value y2
  extract_lets +onlyGivenNames y3
  have k3 : Keeps S z y3 := by
    unfold y3
    refine keeps_mk ?_ (w_sessionCounter := .inr w.has)
    assumption
  clear_value y3
  extract_lets +onlyGivenNames y4
  have k4 : Keeps S z y4 := by
    unfold y4
    apply keeps_State_updSession (w := w.of)
    assumption
  clear_value y4
  extract_lets +onlyGivenNames y5
  clear_value y5
  apply keeps_State_ev (w := w.of)
  assumption

theorem keeps_State_refuseSession (a1 : State) (a2 : Path) (h1 : Keeps S z a1) (w : Sub [.sessions, .lockouts, .irq,
    .jour] S) : Keeps S z (State.refuseSession a1 a2) := by
  unfold State.refuseSession
  extract_lets +onlyGivenNames y1
  clear_value y1
  extract_lets +onlyGivenNames y2
  clear_value y2
  extract_lets +onlyGivenNames y3
  have k3 : Keeps S z y3 := by
    unfold y3
    apply keeps_State_setLockout (w := w.of)
    apply keeps_State_updSession (w := w.of)
    assumption
  clear_value y3
  extract_lets +onlyGivenNames y4
  have k4 : Keeps S z y4 := by
    unfold y4
    apply keeps_State_refusedEv (w := w.of)
    assumption
  clear_value y4
  refine keeps_ite ?_ ?_
  · apply keeps_State_ev (w := w.of)
    apply keeps_State_setLockout (w := w.of)
    assumption
  · assumption

theorem keeps_State_respond (a1 : State) (a2 : Path) (a3 : Nat) (a4 : Bytes) (h1 : Keeps S z a1) (w : Sub [.sessions,
    .lockouts, .sessionCounter, .irq, .jour] S) : Keeps S z (State.respond a1 a2 a3 a4) := by
  unfold State.respond
  extract_lets +onlyGivenNames y1
  have k1 : Keeps S z y1 := by
    unfold y1
    apply keeps_State_lockSettle (w := w.of)
    assumption
  clear_value y1
  extract_lets +onlyGivenNames y2
  clear_value y2
  refine keeps_ite ?_ ?_
  · apply keeps_State_refusedEv (w := w.of)
    assumption
  · split
    · apply keeps_State_refusedEv (w := w.of)
      apply keeps_State_updSession (w := w.of)
      assumption
    · extract_lets +onlyGivenNames y3
      clear_value y3
      refine keeps_ite ?_ ?_
      · apply keeps_State_grant (w := w.of)
        assumption
      · apply keeps_State_refuseSession (w := w.of)
        assumption

theorem keeps_execSessionRequest (a1 : Path) (a2 : Nat) (a3 : State) (h3 : Keeps S z a3) (w : Sub [.objs, .freeCount,
    .sessions, .irq, .jour] S) : KeepsA S z (execSessionRequest a1 a2 a3) := by
  unfold execSessionRequest
  apply keeps_onPath
  · assumption
  · apply keeps_State_writeNum (w := w.of)
    · assumption
    · intro x1
      intro k2
      apply keeps_State_askSession (w := w.of)
      assumption

theorem keeps_execSessionEndRequest (a1 : Path) (a2 : State) (h2 : Keeps S z a2) (w : Sub [.objs, .freeCount,
    .sessions, .irq, .jour] S) : KeepsA S z (execSessionEndRequest a1 a2) := by
  unfold execSessionEndRequest
  apply keeps_onPath
  · assumption
  · apply keeps_State_writeNum (w := w.of)
    · assumption
    · intro x1
      intro k2
      apply keeps_State_askSession (w := w.of)
      assumption

theorem keeps_execSessionResponse (a1 : Path) (a2 : Nat) (a3 : Bytes) (a4 : State) (h4 : Keeps S z a4) (w : Sub
    [.objs, .sessions, .lockouts, .sessionCounter, .irq, .jour] S) : KeepsA S z (execSessionResponse a1 a2 a3 a4) :=
    by
  unfold execSessionResponse
  apply keeps_onPath
  · assumption
  · apply keeps_State_write (w := w.of)
    · assumption
    · intro x1
      intro k2
      apply keeps_State_respond (w := w.of)
      assumption

theorem keeps_execChallengeExpired (a1 : Path) (a2 : State) (h2 : Keeps S z a2) (w : Sub [.sessions] S) : KeepsA S z
    (execChallengeExpired a1 a2) := by
  unfold execChallengeExpired
  apply keeps_onPath
  · assumption
  · refine keeps_ite ?_ ?_
    · apply keeps_State_updSession (w := w.of)
      assumption
    · assumption

theorem keeps_execSessionIdleTimeout (a1 : Path) (a2 : State) (h2 : Keeps S z a2) (w : Sub [.sessions, .irq, .jour] S)
    : KeepsA S z (execSessionIdleTimeout a1 a2) := by
  unfold execSessionIdleTimeout
  apply keeps_onPath
  · assumption
  · refine keeps_ite ?_ ?_
    · apply keeps_State_endSession (w := w.of)
      assumption
    · assumption

theorem keeps_execSessionAgeTimeout (a1 : Path) (a2 : State) (h2 : Keeps S z a2) (w : Sub [.sessions, .irq, .jour] S)
    : KeepsA S z (execSessionAgeTimeout a1 a2) := by
  unfold execSessionAgeTimeout
  apply keeps_onPath
  · assumption
  · extract_lets +onlyGivenNames y1
    clear_value y1
    refine keeps_ite ?_ ?_
    · apply keeps_State_endSession (w := w.of)
      assumption
    · assumption

theorem keeps_State_setLimit (a1 : State) (a2 : Path) (a3 : Nat) (a4 : Nat) (h1 : Keeps S z a1) (w : Sub [.objs,
    .sessions, .irq, .jour] S) : Keeps S z (State.setLimit a1 a2 a3 a4) := by
  unfold State.setLimit
  apply keeps_forAll
  · intro x1
    intro x2
    intro k3
    refine keeps_ite ?_ ?_
    · apply keeps_State_endSession (w := w.of)
      assumption
    · assumption
  · apply keeps_State_set (w := w.of)
    assumption

theorem keeps_execSessionLimitWrite (a1 : Path) (a2 : Nat) (a3 : Nat) (a4 : State) (h4 : Keeps S z a4) (w : Sub
    [.objs, .sessions, .irq, .jour] S) : KeepsA S z (execSessionLimitWrite a1 a2 a3 a4) := by
  unfold execSessionLimitWrite
  apply keeps_onPath
  · assumption
  · apply keeps_State_writeNum (w := w.of)
    · assumption
    · intro x1
      intro k2
      apply keeps_State_setLimit (w := w.of)
      assumption

theorem keeps_execLockoutEnd (a1 : Path) (a2 : State) (h2 : Keeps S z a2) (w : Sub [.lockouts] S) : KeepsA S z
    (execLockoutEnd a1 a2) := by
  unfold execLockoutEnd
  apply keeps_onPath
  · assumption
  · apply keeps_State_lockSettle (w := w.of)
    assumption

theorem keeps_State_clearViolations (a1 : State) (h1 : Keeps S z a1) (w : Sub [.objs] S) : Keeps S z
    (State.clearViolations a1) := by
  unfold State.clearViolations
  apply keeps_State_clear (w := w.of)
  assumption

theorem keeps_execViolationsClear (a1 : Path) (a2 : Nat) (a3 : State) (h3 : Keeps S z a3) (w : Sub [.objs, .sessions,
    .irq, .jour] S) : KeepsA S z (execViolationsClear a1 a2 a3) := by
  unfold execViolationsClear
  apply keeps_onPath
  · assumption
  · apply keeps_State_writeNum (w := w.of)
    · assumption
    · intro x1
      intro k2
      apply keeps_State_clearViolations (w := w.of)
      assumption

theorem keeps_State_dfuBlock (a1 : State) (a2 : Dfu) (a3 : Nat) (a4 : Nat) (a5 : Nat) (a6 : Bytes) (a7 : Bool) (a8 :
    Bool) (h1 : Keeps S z a1) (w : Sub [.boot] S) : Keeps S z (State.dfuBlock a1 a2 a3 a4 a5 a6 a7 a8).1 := by
  unfold State.dfuBlock
  split
  · split
    · dsimp only
      assumption
    · extract_lets +onlyGivenNames y1
      clear_value y1
      extract_lets +onlyGivenNames y2
      clear_value y2
      split
      · dsimp only
        assumption
      · split
        · dsimp only
          assumption
        · extract_lets +onlyGivenNames y3
          have k3 : Keeps S z y3 := by
            unfold y3
            apply keeps_State_eraseRegion (w := w.of)
            assumption
          clear_value y3
          split
          · dsimp only
            assumption
          · split
            · dsimp only
              assumption
            · dsimp only
              apply keeps_State_program (w := w.of)
              assumption
  · split
    · split
      · dsimp only
        apply keeps_State_eraseRegion (w := w.of)
        assumption
      · split
        · dsimp only
          apply keeps_State_eraseRegion (w := w.of)
          assumption
        · dsimp only
          apply keeps_State_program (w := w.of)
          assumption
    · dsimp only
      assumption

theorem keeps_State_dfuEnd (a1 : State) (a2 : Dfu) (a3 : Nat) (a4 : Bool) (h1 : Keeps S z a1) (w : Sub [.boot] S) :
    KeepsI S z (State.dfuEnd a1 a2 a3 a4) := by
  unfold State.dfuEnd
  extract_lets +onlyGivenNames y1
  clear_value y1
  split
  · exact keepsI_inr
  · split
    · exact keepsI_inr
    · split
      · exact keepsI_inr
      · refine keepsI_inl ?_
        apply keeps_State_program (w := w.of)
        assumption

theorem keeps_State_liftFail (a1 : State) (a2 : Nat) (a3 : Nat) (h1 : Keeps S z a1) (w : Sub [.boot] S) : Keeps S z
    (State.liftFail a1 a2 a3) := by
  unfold State.liftFail
  extract_lets +onlyGivenNames y1
  clear_value y1
  refine keeps_ite ?_ ?_
  · assumption
  · extract_lets +onlyGivenNames y2
    clear_value y2
    apply keeps_State_note (w := w.of)
    apply keeps_State_updBoot (w := w.of)
    assumption

theorem keeps_execLiftDfuDnload (a1 : Nat) (a2 : Nat) (a3 : Bytes) (a4 : Bool) (a5 : Bool) (a6 : State) (h6 : Keeps S
    z a6) (w : Sub [.boot] S) : KeepsA S z (execLiftDfuDnload a1 a2 a3 a4 a5 a6) := by
  unfold execLiftDfuDnload
  apply keeps_onUnit
  refine keeps_ite ?_ ?_
  · extract_lets +onlyGivenNames y1
    clear_value y1
    refine keeps_ite ?_ ?_
    · apply keeps_State_liftFail (w := w.of)
      apply keeps_State_eraseRegion (w := w.of)
      assumption
    · split
      · apply keeps_State_updBoot (w := w.of)
        refine keeps_pair1 (by assumption) ?_
        apply keeps_State_dfuBlock (w := w.of)
        assumption
      · apply keeps_State_liftFail (w := w.of)
        refine keeps_pair1 (by assumption) ?_
        apply keeps_State_dfuBlock (w := w.of)
        assumption
  · assumption

theorem keeps_execLiftDfuDnloadEnd (a1 : Nat) (a2 : Bool) (a3 : State) (h3 : Keeps S z a3) (w : Sub (Piece.allBut
    [.head, .freeCount]) S) : KeepsA S z (execLiftDfuDnloadEnd a1 a2 a3) := by
  unfold execLiftDfuDnloadEnd
  apply keeps_onUnit
  refine keeps_ite ?_ ?_
  · extract_lets +onlyGivenNames y1
    clear_value y1
    refine keeps_ite ?_ ?_
    · apply keeps_State_liftFail (w := w.of)
      assumption
    · split
      · extract_lets +onlyGivenNames y2
        have k2 : Keeps S z y2 := by
          unfold y2
          refine keeps_ite ?_ ?_
          · apply keeps_State_updBoot (w := w.of)
            refine keeps_inl (by assumption) ?_
            apply keeps_State_dfuEnd (w := w.of)
            assumption
          · refine keeps_inl (by assumption) ?_
            apply keeps_State_dfuEnd (w := w.of)
            assumption
        clear_value y2
        extract_lets +onlyGivenNames y3
        have k3 : Keeps S z y3 := by
          unfold y3
          apply keeps_State_note (w := w.of)
          assumption
        clear_value y3
        apply keeps_State_toReset (w := w.of)
        apply keeps_State_send (w := w.of)
        assumption
      · apply keeps_State_liftFail (w := w.of)
        refine keeps_ite ?_ ?_
        · apply keeps_State_eraseRegion (w := w.of)
          assumption
        · assumption
  · assumption

theorem keeps_execLiftDfuAbort (a1 : State) (h1 : Keeps S z a1) (w : Sub [.boot] S) : KeepsA S z (execLiftDfuAbort a1)
    := by
  unfold execLiftDfuAbort
  refine keeps_next ?_
  refine keeps_ite ?_ ?_
  · extract_lets +onlyGivenNames y1
    clear_value y1
    extract_lets +onlyGivenNames y2
    have k2 : Keeps S z y2 := by
      unfold y2
      refine keeps_ite ?_ ?_
      · assumption
      · apply keeps_State_eraseRegion (w := w.of)
        assumption
    clear_value y2
    apply keeps_State_updBoot (w := w.of)
    assumption
  · assumption

theorem keeps_State_dfuSet (a1 : State) (a2 : Nat) (a3 : Nat) (h1 : Keeps S z a1) (w : Sub [.objs, .boot] S) : Keeps S
    z (State.dfuSet a1 a2 a3) := by
  unfold State.dfuSet
  refine keeps_ite ?_ ?_
  · apply keeps_State_updBoot (w := w.of)
    assumption
  · apply keeps_State_updBoot (w := w.of)
    apply keeps_State_setAll (w := w.of)
    assumption

theorem keeps_execLiftDfuGetstatus (a1 : State) (h1 : Keeps S z a1) (w : Sub [.objs, .sent, .boot] S) : KeepsA S z
    (execLiftDfuGetstatus a1) := by
  unfold execLiftDfuGetstatus
  refine keeps_next ?_
  refine keeps_ite ?_ ?_
  · split
    extract_lets +onlyGivenNames y1
    clear_value y1
    apply keeps_State_send (w := w.of)
    apply keeps_State_dfuSet (w := w.of)
    assumption
  · assumption

theorem keeps_execLiftDfuClrstatus (a1 : State) (h1 : Keeps S z a1) (w : Sub [.objs, .boot] S) : KeepsA S z
    (execLiftDfuClrstatus a1) := by
  unfold execLiftDfuClrstatus
  refine keeps_next ?_
  refine keeps_ite ?_ ?_
  · split
    refine keeps_ite ?_ ?_
    · apply keeps_State_dfuSet (w := w.of)
      assumption
    · apply keeps_State_dfuSet (w := w.of)
      assumption
  · assumption

theorem keeps_execLiftDfuGetstate (a1 : State) (h1 : Keeps S z a1) (w : Sub [.sent] S) : KeepsA S z
    (execLiftDfuGetstate a1) := by
  unfold execLiftDfuGetstate
  refine keeps_next ?_
  refine keeps_ite ?_ ?_
  · apply keeps_State_send (w := w.of)
    assumption
  · assumption

theorem keeps_execDfuDetach (a1 : State) (h1 : Keeps S z a1) (w : Sub [.svc] S) : KeepsA S z (execDfuDetach a1) := by
  unfold execDfuDetach
  refine keeps_next ?_
  refine keeps_ite ?_ ?_
  · apply keeps_State_updSvc (w := w.of)
    assumption
  · assumption

theorem keeps_State_stagingFail (a1 : State) (a2 : Nat) (a3 : Nat) (h1 : Keeps S z a1) (w : Sub [.objs, .irq, .jour,
    .boot] S) : Keeps S z (State.stagingFail a1 a2 a3) := by
  unfold State.stagingFail
  extract_lets +onlyGivenNames y1
  have k1 : Keeps S z y1 := by
    unfold y1
    apply keeps_State_dfuSet (w := w.of)
    assumption
  clear_value y1
  apply keeps_State_ev (w := w.of)
  apply keeps_State_set (w := w.of)
  apply keeps_State_cmdFail (w := w.of)
  assumption

theorem keeps_execStagingDfuDnload (a1 : Nat) (a2 : Bytes) (a3 : Bool) (a4 : Bool) (a5 : State) (h5 : Keeps S z a5) (w
    : Sub [.objs, .irq, .jour, .boot] S) : KeepsA S z (execStagingDfuDnload a1 a2 a3 a4 a5) := by
  unfold execStagingDfuDnload
  refine keeps_next ?_
  refine keeps_ite ?_ ?_
  · refine keeps_ite ?_ ?_
    · assumption
    · refine keeps_ite ?_ ?_
      · apply keeps_State_dfuSet (w := w.of)
        assumption
      · extract_lets +onlyGivenNames y1
        clear_value y1
        extract_lets +onlyGivenNames y2
        clear_value y2
        extract_lets +onlyGivenNames y3
        clear_value y3
        split
        · extract_lets +onlyGivenNames y4
          have k4 : Keeps S z y4 := by
            unfold y4
            apply keeps_State_count (w := w.of)
            apply keeps_State_updBoot (w := w.of)
            refine keeps_pair1 (by assumption) ?_
            apply keeps_State_dfuBlock (w := w.of)
            assumption
          clear_value y4
          apply keeps_State_dfuSet (w := w.of)
          assumption
        · apply keeps_State_stagingFail (w := w.of)
          refine keeps_pair1 (by assumption) ?_
          apply keeps_State_dfuBlock (w := w.of)
          assumption
  · assumption

theorem keeps_execStagingDfuDnloadEnd (a1 : Bool) (a2 : State) (h2 : Keeps S z a2) (w : Sub [.objs, .irq, .jour,
    .boot] S) : KeepsA S z (execStagingDfuDnloadEnd a1 a2) := by
  unfold execStagingDfuDnloadEnd
  refine keeps_next ?_
  refine keeps_ite ?_ ?_
  · refine keeps_ite ?_ ?_
    · assumption
    · refine keeps_ite ?_ ?_
      · apply keeps_State_dfuSet (w := w.of)
        assumption
      · extract_lets +onlyGivenNames y1
        clear_value y1
        extract_lets +onlyGivenNames y2
        clear_value y2
        split
        · extract_lets +onlyGivenNames y3
          clear_value y3
          extract_lets +onlyGivenNames y4
          have k4 : Keeps S z y4 := by
            unfold y4
            apply keeps_State_setAll (w := w.of)
            refine keeps_inl (by assumption) ?_
            apply keeps_State_dfuEnd (w := w.of)
            assumption
          clear_value y4
          extract_lets +onlyGivenNames y5
          have k5 : Keeps S z y5 := by
            unfold y5
            apply keeps_State_ev (w := w.of)
            apply keeps_State_dfuSet (w := w.of)
            assumption
          clear_value y5
          apply keeps_State_cmdCommit (w := w.of)
          assumption
        · apply keeps_State_stagingFail (w := w.of)
          apply keeps_State_eraseRegion (w := w.of)
          assumption
  · assumption

theorem keeps_State_unstaged (a1 : State) (a2 : Nat) (h1 : Keeps S z a1) (w : Sub [.objs, .boot] S) : Keeps S z
    (State.unstaged a1 a2) := by
  unfold State.unstaged
  apply keeps_State_setAll (w := w.of)
  apply keeps_State_updBoot (w := w.of)
  apply keeps_State_eraseRegion (w := w.of)
  assumption

theorem keeps_execImageStage (a1 : Path) (a2 : State) (h2 : Keeps S z a2) (w : Sub [.objs, .sessions, .cmds, .irq,
    .jour, .boot] S) : KeepsA S z (execImageStage a1 a2) := by
  unfold execImageStage
  apply keeps_onPath
  · assumption
  · apply keeps_State_command (w := w.of)
    · assumption
    · intro x1
      intro k2
      apply keeps_State_unstaged (w := w.of)
      assumption

theorem keeps_execImageActivate (a1 : Path) (a2 : State) (h2 : Keeps S z a2) (w : Sub [.objs, .sessions, .cmds, .irq,
    .jour, .boot] S) : KeepsA S z (execImageActivate a1 a2) := by
  unfold execImageActivate
  apply keeps_onPath
  · assumption
  · apply keeps_State_command (w := w.of)
    · assumption
    · intro x1
      intro k2
      refine keeps_ite ?_ ?_
      · apply keeps_State_cmdFail (w := w.of)
        assumption
      · extract_lets +onlyGivenNames y3
        have k3 : Keeps S z y3 := by
          unfold y3
          apply keeps_State_set (w := w.of)
          assumption
        clear_value y3
        split
        · refine keeps_ite ?_ ?_
          · apply keeps_State_eraseRegion (w := w.of)
            assumption
          · assumption
        · assumption

theorem keeps_execImageActivationDone (a1 : Bool) (a2 : State) (h2 : Keeps S z a2) (w : Sub [.objs, .irq, .jour,
    .boot] S) : KeepsA S z (execImageActivationDone a1 a2) := by
  unfold execImageActivationDone
  refine keeps_next ?_
  split
  · assumption
  · refine keeps_ite ?_ ?_
    · assumption
    · extract_lets +onlyGivenNames y1
      clear_value y1
      extract_lets +onlyGivenNames y2
      clear_value y2
      extract_lets +onlyGivenNames y3
      clear_value y3
      extract_lets +onlyGivenNames y4
      have k4 : Keeps S z y4 := by
        unfold y4
        apply keeps_State_set (w := w.of)
        apply keeps_State_eraseRegion (w := w.of)
        assumption
      clear_value y4
      refine keeps_ite ?_ ?_
      · apply keeps_State_cmdFail (w := w.of)
        assumption
      · extract_lets +onlyGivenNames y5
        have k5 : Keeps S z y5 := by
          unfold y5
          apply keeps_State_program (w := w.of)
          assumption
        clear_value y5
        refine keeps_ite ?_ ?_
        · apply keeps_State_cmdFail (w := w.of)
          assumption
        · extract_lets +onlyGivenNames y6
          have k6 : Keeps S z y6 := by
            unfold y6
            apply keeps_State_program (w := w.of)
            assumption
          clear_value y6
          extract_lets +onlyGivenNames y7
          have k7 : Keeps S z y7 := by
            unfold y7
            refine keeps_ite ?_ ?_
            · apply keeps_State_updBoot (w := w.of)
              assumption
            · assumption
          clear_value y7
          extract_lets +onlyGivenNames y8
          have k8 : Keeps S z y8 := by
            unfold y8
            apply keeps_State_ev (w := w.of)
            assumption
          clear_value y8
          apply keeps_State_cmdCommit (w := w.of)
          assumption

theorem keeps_execImageDiscard (a1 : Path) (a2 : State) (h2 : Keeps S z a2) (w : Sub [.objs, .sessions, .cmds, .irq,
    .jour, .boot] S) : KeepsA S z (execImageDiscard a1 a2) := by
  unfold execImageDiscard
  apply keeps_onPath
  · assumption
  · apply keeps_State_commandNow (w := w.of)
    · assumption
    · intro x1
      intro k2
      apply keeps_State_unstaged (w := w.of)
      assumption

theorem keeps_execFwConfirmSlot (a1 : Path) (a2 : State) (h2 : Keeps S z a2) (w : Sub [.objs, .sessions, .cmds, .irq,
    .jour, .boot] S) : KeepsA S z (execFwConfirmSlot a1 a2) := by
  unfold execFwConfirmSlot
  apply keeps_onPath
  · assumption
  · apply keeps_State_commandNow (w := w.of)
    · assumption
    · intro x1
      intro k2
      apply keeps_State_ev (w := w.of)
      apply keeps_State_updBoot (w := w.of)
      assumption

theorem keeps_execFwAdvanceRollback (a1 : Path) (a2 : Bool) (a3 : State) (h3 : Keeps S z a3) (w : Sub [.objs,
    .sessions, .cmds, .irq, .jour, .boot] S) : KeepsA S z (execFwAdvanceRollback a1 a2 a3) := by
  unfold execFwAdvanceRollback
  apply keeps_onPath
  · assumption
  · apply keeps_State_command (w := w.of)
    · assumption
    · intro x1
      intro k2
      extract_lets +onlyGivenNames y3
      clear_value y3
      extract_lets +onlyGivenNames y4
      clear_value y4
      refine keeps_ite ?_ ?_
      · apply keeps_State_cmdFail (w := w.of)
        assumption
      · refine keeps_ite ?_ ?_
        · apply keeps_State_cmdFail (w := w.of)
          assumption
        · refine keeps_ite ?_ ?_
          · apply keeps_State_cmdFail (w := w.of)
            assumption
          · extract_lets +onlyGivenNames y5
            have k5 : Keeps S z y5 := by
              unfold y5
              apply keeps_State_ev (w := w.of)
              apply keeps_State_updBoot (w := w.of)
              assumption
            clear_value y5
            apply keeps_State_cmdCommit (w := w.of)
            assumption

theorem keeps_execFwRaiseAppFloor (a1 : Path) (a2 : State) (h2 : Keeps S z a2) (w : Sub [.objs, .sessions, .cmds,
    .irq, .jour, .boot] S) : KeepsA S z (execFwRaiseAppFloor a1 a2) := by
  unfold execFwRaiseAppFloor
  apply keeps_onPath
  · assumption
  · apply keeps_State_commandNow (w := w.of)
    · assumption
    · intro x1
      intro k2
      extract_lets +onlyGivenNames y3
      clear_value y3
      extract_lets +onlyGivenNames y4
      clear_value y4
      refine keeps_ite ?_ ?_
      · assumption
      · apply keeps_State_ev (w := w.of)
        apply keeps_State_updBoot (w := w.of)
        assumption

theorem keeps_execFwReset (a1 : Path) (a2 : State) (h2 : Keeps S z a2) (w : Sub [.objs, .timers, .sessions, .cmds,
    .irq, .jour, .boot] S) : KeepsA S z (execFwReset a1 a2) := by
  unfold execFwReset
  apply keeps_onPath
  · assumption
  · apply keeps_State_commandNow (w := w.of)
    · assumption
    · intro x1
      intro k2
      refine keeps_ite ?_ ?_
      · apply keeps_State_start (w := w.of)
        apply keeps_State_updBoot (w := w.of)
        assumption
      · apply keeps_State_start (w := w.of)
        assumption

theorem keeps_execFwResetDelayExpired (a1 : State) (h1 : Keeps S z a1) (w : Sub (Piece.allBut [.head, .freeCount]) S)
    : KeepsA S z (execFwResetDelayExpired a1) := by
  unfold execFwResetDelayExpired
  refine keeps_next ?_
  refine keeps_ite ?_ ?_
  · refine keeps_ite ?_ ?_
    · apply keeps_State_start (w := w.of)
      apply keeps_State_stop (w := w.of)
      apply keeps_State_updBoot (w := w.of)
      assumption
    · assumption
  · refine keeps_ite ?_ ?_
    · apply keeps_State_toReset (w := w.of)
      apply keeps_State_stop (w := w.of)
      assumption
    · assumption

theorem keeps_execOrphanDiscard (a1 : Path) (a2 : State) (h2 : Keeps S z a2) (w : Sub [.objs, .sessions, .cmds, .irq,
    .jour, .boot] S) : KeepsA S z (execOrphanDiscard a1 a2) := by
  unfold execOrphanDiscard
  apply keeps_onPath
  · assumption
  · apply keeps_State_commandNow (w := w.of)
    · assumption
    · intro x1
      intro k2
      apply keeps_State_updBoot (w := w.of)
      assumption

theorem keeps_execConfigBackupWrite (a1 : State) (h1 : Keeps S z a1) (w : Sub [.boot] S) : KeepsA S z
    (execConfigBackupWrite a1) := by
  unfold execConfigBackupWrite
  refine keeps_next ?_
  refine keeps_ite ?_ ?_
  · split
    · apply keeps_State_updBoot (w := w.of)
      assumption
    · assumption
  · assumption

theorem keeps_State_storeArea (a1 : State) (a2 : Nat) (h1 : Keeps S z a1) (w : Sub [.secu, .boot] S) : Keeps S z
    (State.storeArea a1 a2) := by
  unfold State.storeArea
  extract_lets +onlyGivenNames y1
  clear_value y1
  extract_lets +onlyGivenNames y2
  have k2 : Keeps S z y2 := by
    unfold y2
    apply keeps_State_useCopy (w := w.of)
    apply keeps_State_putCopy (w := w.of)
    assumption
  clear_value y2
  extract_lets +onlyGivenNames y3
  clear_value y3
  extract_lets +onlyGivenNames y4
  clear_value y4
  extract_lets +onlyGivenNames y5
  have k5 : Keeps S z y5 := by
    unfold y5
    refine keeps_ite ?_ ?_
    · refine keeps_mk ?_ (w_secu := .inr w.has)
      assumption
    · assumption
  clear_value y5
  refine keeps_ite ?_ ?_
  · apply keeps_State_updBoot (w := w.of)
    assumption
  · assumption

theorem keeps_State_writeStore (a1 : State) (a2 : Path) (a3 : Nat) (a4 : Nat) (h1 : Keeps S z a1) (w : Sub [.objs,
    .sessions, .cmds, .irq, .jour, .secu, .boot] S) : Keeps S z (State.writeStore a1 a2 a3 a4) := by
  unfold State.writeStore
  apply keeps_State_writeNum (w := w.of)
  · assumption
  · intro x1
    intro k2
    apply keeps_State_cmdCommit (w := w.of)
    apply keeps_State_storeArea (w := w.of)
    apply keeps_State_cmdAccept (w := w.of)
    assumption

theorem keeps_State_writeRestore (a1 : State) (a2 : Path) (a3 : Nat) (a4 : Nat) (h1 : Keeps S z a1) (w : Sub [.objs,
    .sessions, .cmds, .irq, .jour, .boot] S) : Keeps S z (State.writeRestore a1 a2 a3 a4) := by
  unfold State.writeRestore
  apply keeps_State_writeNum (w := w.of)
  · assumption
  · intro x1
    intro k2
    apply keeps_State_cmdCommit (w := w.of)
    apply keeps_State_updBoot (w := w.of)
    apply keeps_State_cmdAccept (w := w.of)
    assumption

theorem keeps_execStoreConfiguration (a1 : Path) (a2 : Nat) (a3 : Nat) (a4 : State) (h4 : Keeps S z a4) (w : Sub
    [.objs, .sessions, .cmds, .irq, .jour, .secu, .boot] S) : KeepsA S z (execStoreConfiguration a1 a2 a3 a4) := by
  unfold execStoreConfiguration
  apply keeps_onPath
  · assumption
  · apply keeps_State_writeStore (w := w.of)
    assumption

theorem keeps_execRestoreDefaults (a1 : Path) (a2 : Nat) (a3 : Nat) (a4 : State) (h4 : Keeps S z a4) (w : Sub [.objs,
    .sessions, .cmds, .irq, .jour, .boot] S) : KeepsA S z (execRestoreDefaults a1 a2 a3 a4) := by
  unfold execRestoreDefaults
  apply keeps_onPath
  · assumption
  · apply keeps_State_writeRestore (w := w.of)
    assumption

theorem keeps_State_undo (a1 : State) (a2 : Path) (a3 : Nat) (h1 : Keeps S z a1) (w : Sub [.objs, .timers, .sessions,
    .irq, .jour, .rates, .sent, .trunks, .tunnels, .fabric, .scheds, .disps, .usb, .stor, .app, .boot] S) : Keeps S z
    (State.undo a1 a2 a3) := by
  unfold State.undo
  extract_lets +onlyGivenNames y1
  clear_value y1
  refine keeps_ite ?_ ?_
  · apply keeps_State_undoDrain (w := w.of)
    assumption
  · refine keeps_ite ?_ ?_
    · apply keeps_State_undoRetrain (w := w.of)
      assumption
    · refine keeps_ite ?_ ?_
      · apply keeps_State_noSwitch (w := w.of)
        assumption
      · refine keeps_ite ?_ ?_
        · apply keeps_State_updTrunk (w := w.of)
          assumption
        · refine keeps_ite ?_ ?_
          · apply keeps_State_updStore (w := w.of)
            assumption
          · refine keeps_ite ?_ ?_
            · refine keeps_ite ?_ ?_
              · apply keeps_State_unstaged (w := w.of)
                assumption
              · extract_lets +onlyGivenNames y2
                have k2 : Keeps S z y2 := by
                  unfold y2
                  split
                  · apply keeps_State_eraseRegion (w := w.of)
                    assumption
                  · assumption
                clear_value y2
                apply keeps_State_set (w := w.of)
                assumption
            · refine keeps_ite ?_ ?_
              · extract_lets +onlyGivenNames y3
                have k3 : Keeps S z y3 := by
                  unfold y3
                  apply keeps_State_updApp (w := w.of)
                  assumption
                clear_value y3
                refine keeps_ite ?_ ?_
                · apply keeps_State_appGo (w := w.of)
                  apply keeps_State_updApp (w := w.of)
                  apply keeps_State_appEnd (w := w.of)
                  assumption
                · assumption
              · refine keeps_ite ?_ ?_
                · apply keeps_State_updApp (w := w.of)
                  assumption
                · assumption

theorem keeps_State_abortCmd (a1 : State) (a2 : Path) (a3 : Nat) (h1 : Keeps S z a1) (w : Sub [.objs, .timers,
    .sessions, .cmds, .irq, .jour, .rates, .sent, .trunks, .tunnels, .fabric, .scheds, .disps, .usb, .stor, .app,
    .boot] S) : Keeps S z (State.abortCmd a1 a2 a3) := by
  unfold State.abortCmd
  refine keeps_ite ?_ ?_
  · apply keeps_State_ev (w := w.of)
    apply keeps_State_set (w := w.of)
    assumption
  · refine keeps_ite ?_ ?_
    · apply keeps_State_cmdUndoing (w := w.of)
      apply keeps_State_undo (w := w.of)
      assumption
    · assumption

theorem keeps_State_writeAbort (a1 : State) (a2 : Path) (a3 : Nat) (a4 : Nat) (h1 : Keeps S z a1) (w : Sub [.objs,
    .timers, .sessions, .cmds, .irq, .jour, .rates, .sent, .trunks, .tunnels, .fabric, .scheds, .disps, .usb, .stor,
    .app, .boot] S) : Keeps S z (State.writeAbort a1 a2 a3 a4) := by
  unfold State.writeAbort
  apply keeps_State_writeNum (w := w.of)
  · assumption
  · intro x1
    intro k2
    apply keeps_State_abortCmd (w := w.of)
    assumption

theorem keeps_execCommandAbort (a1 : Path) (a2 : Nat) (a3 : Nat) (a4 : State) (h4 : Keeps S z a4) (w : Sub [.objs,
    .timers, .sessions, .cmds, .irq, .jour, .rates, .sent, .trunks, .tunnels, .fabric, .scheds, .disps, .usb, .stor,
    .app, .boot] S) : KeepsA S z (execCommandAbort a1 a2 a3 a4) := by
  unfold execCommandAbort
  apply keeps_onPath
  · assumption
  · apply keeps_State_writeAbort (w := w.of)
    assumption

theorem keeps_State_switchBegin (a1 : State) (a2 : Nat) (a3 : Nat) (h1 : Keeps S z a1) (w : Sub [.objs, .freeCount,
    .timers, .irq, .jour, .rates, .sent, .canOpen, .trunks, .tunnels, .fabric, .scheds, .disps, .usb, .pd, .time,
    .stor, .fld, .power] S) : Keeps S z (State.switchBegin a1 a2 a3) := by
  unfold State.switchBegin
  extract_lets +onlyGivenNames y1
  have k1 : Keeps S z y1 := by
    unfold y1
    apply keeps_forAll
    · intro x2
      intro x3
      intro k4
      apply keeps_State_shut (w := w.of)
      assumption
    · assumption
  clear_value y1
  split
  · apply keeps_forAll
    · intro x5
      intro x6
      intro k7
      refine keeps_ite ?_ ?_
      · apply keeps_State_startRetrain (w := w.of)
        assumption
      · assumption
    · assumption
  · apply keeps_forAll
    · intro x8
      intro x9
      intro k10
      apply keeps_State_updSched (w := w.of)
      assumption
    · assumption
  · apply keeps_State_displaySwitch (w := w.of)
    assumption
  · apply keeps_State_usbPortsOff (w := w.of)
    assumption
  · refine keeps_ite ?_ ?_
    · apply keeps_State_pdSwitch (w := w.of)
      assumption
    · assumption
  · apply keeps_forAll
    · intro x11
      intro x12
      intro k13
      apply keeps_State_queuesGone (w := w.of)
      assumption
    · assumption
  · apply keeps_State_staleAll (w := w.of)
    assumption
  · refine keeps_ite ?_ ?_
    · apply keeps_State_setTime (w := w.of)
      assumption
    · assumption
  · assumption

theorem keeps_State_switchEnd (a1 : State) (a2 : Nat) (a3 : Nat) (a4 : Path) (a5 : Nat) (h1 : Keeps S z a1) (w : Sub
    [.objs, .timers, .irq, .jour, .rates, .sent, .canOpen, .tunnels, .fabric, .scheds, .disps, .usb, .pd, .time,
    .stor, .fld, .safety] S) : Keeps S z (State.switchEnd a1 a2 a3 a4 a5) := by
  unfold State.switchEnd
  extract_lets +onlyGivenNames y1
  clear_value y1
  extract_lets +onlyGivenNames y2
  have k2 : Keeps S z y2 := by
    unfold y2
    apply keeps_State_setAll (w := w.of)
    assumption
  clear_value y2
  extract_lets +onlyGivenNames y3
  have k3 : Keeps S z y3 := by
    unfold y3
    split
    · apply keeps_State_flushLearnt (w := w.of)
      assumption
    · apply keeps_forAll
      · intro x4
        intro x5
        intro k6
        apply keeps_State_updSched (w := w.of)
        assumption
      · assumption
    · refine keeps_ite ?_ ?_
      · apply keeps_State_pdSwitch (w := w.of)
        assumption
      · assumption
    · apply keeps_State_staleAll (w := w.of)
      assumption
    · refine keeps_ite ?_ ?_
      · apply keeps_State_setTime (w := w.of)
        assumption
      · assumption
    · apply keeps_State_dropProposal (w := w.of)
      assumption
    · apply keeps_State_breakerSwitch (w := w.of)
      assumption
    · assumption
  clear_value y3
  extract_lets +onlyGivenNames y7
  have k7 : Keeps S z y7 := by
    unfold y7
    apply keeps_State_evAt (w := w.of)
    assumption
  clear_value y7
  apply keeps_forAll
  · intro x8
    intro x9
    intro k10
    apply keeps_State_leaveOff (w := w.of)
    assumption
  · assumption

theorem keeps_State_takeMode (a1 : State) (a2 : Nat) (a3 : Nat) (a4 : Path) (a5 : Nat) (h1 : Keeps S z a1) (w : Sub
    [.objs, .freeCount, .timers, .cmds, .irq, .jour, .rates, .sent, .canOpen, .trunks, .tunnels, .fabric, .scheds,
    .disps, .usb, .pd, .time, .stor, .fld, .power, .safety] S) : Keeps S z (State.takeMode a1 a2 a3 a4 a5) := by
  unfold State.takeMode
  refine keeps_ite ?_ ?_
  · assumption
  · refine keeps_ite ?_ ?_
    · extract_lets +onlyGivenNames y1
      have k1 : Keeps S z y1 := by
        unfold y1
        refine keeps_mk ?_ (w_cmds := .inr w.has)
        assumption
      clear_value y1
      apply keeps_State_switchBegin (w := w.of)
      apply keeps_State_set (w := w.of)
      assumption
    · apply keeps_State_switchEnd (w := w.of)
      apply keeps_State_switchBegin (w := w.of)
      assumption

theorem keeps_State_writeMode (a1 : State) (a2 : Path) (a3 : Nat) (a4 : Nat) (h1 : Keeps S z a1) (w : Sub
    (Piece.allBut [.head, .strs, .station, .lockouts, .sessionCounter, .stateHeld, .svc, .eth, .pl, .dram, .canNode,
    .keys, .secu, .app, .boot]) S) : Keeps S z (State.writeMode a1 a2 a3 a4) := by
  unfold State.writeMode
  extract_lets +onlyGivenNames y1
  clear_value y1
  extract_lets +onlyGivenNames y2
  clear_value y2
  apply keeps_State_budgetCount (w := w.of)
  apply keeps_State_writeNum (w := w.of)
  · assumption
  · intro x3
    intro k4
    refine keeps_ite ?_ ?_
    · refine keeps_mk ?_ (w_modeHeld := .inr w.has)
      assumption
    · apply keeps_State_takeMode (w := w.of)
      assumption

theorem keeps_State_heldMode (a1 : State) (a2 : Nat) (h1 : Keeps S z a1) (w : Sub [.objs, .freeCount, .timers, .cmds,
    .irq, .jour, .rates, .sent, .canOpen, .modeHeld, .trunks, .tunnels, .fabric, .scheds, .disps, .usb, .pd, .time,
    .stor, .fld, .power, .safety] S) : Keeps S z (State.heldMode a1 a2) := by
  unfold State.heldMode
  split
  · assumption
  · extract_lets +onlyGivenNames y1
    have k1 : Keeps S z y1 := by
      unfold y1
      refine keeps_mk ?_ (w_modeHeld := .inr w.has)
      assumption
    clear_value y1
    refine keeps_ite ?_ ?_
    · apply keeps_State_budgetCount (w := w.of)
      apply keeps_State_violateAt (w := w.of)
      assumption
    · apply keeps_State_takeMode (w := w.of)
      assumption

theorem keeps_execFunctionModeWrite (a1 : Path) (a2 : Nat) (a3 : Nat) (a4 : State) (h4 : Keeps S z a4) (w : Sub
    (Piece.allBut [.head, .strs, .station, .lockouts, .sessionCounter, .stateHeld, .svc, .eth, .pl, .dram, .canNode,
    .keys, .secu, .app, .boot]) S) : KeepsA S z (execFunctionModeWrite a1 a2 a3 a4) := by
  unfold execFunctionModeWrite
  apply keeps_onPath
  · assumption
  · apply keeps_State_writeMode (w := w.of)
    assumption

theorem keeps_execFunctionSwitchComplete (a1 : Nat) (a2 : State) (h2 : Keeps S z a2) (w : Sub [.objs, .freeCount,
    .timers, .cmds, .irq, .jour, .rates, .sent, .canOpen, .modeHeld, .trunks, .tunnels, .fabric, .scheds, .disps,
    .usb, .pd, .time, .stor, .fld, .power, .safety] S) : KeepsA S z (execFunctionSwitchComplete a1 a2) := by
  unfold execFunctionSwitchComplete
  apply keeps_onUnit
  refine keeps_ite ?_ ?_
  · extract_lets +onlyGivenNames y1
    clear_value y1
    apply keeps_State_heldMode (w := w.of)
    apply keeps_State_switchEnd (w := w.of)
    assumption
  · assumption

theorem keeps_State_makeKey (a1 : State) (a2 : Path) (a3 : Nat) (a4 : Bool) (h1 : Keeps S z a1) (w : Sub [.objs,
    .timers, .sessions, .cmds, .irq, .jour, .tunnels, .fabric, .keys] S) : Keeps S z (State.makeKey a1 a2 a3 a4) := by
  unfold State.makeKey
  extract_lets +onlyGivenNames y1
  clear_value y1
  apply keeps_State_command (w := w.of)
  · assumption
  · intro x2
    intro k3
    split
    · apply keeps_State_cmdFail (w := w.of)
      assumption
    · extract_lets +onlyGivenNames y4
      have k4 : Keeps S z y4 := by
        unfold y4
        apply keeps_State_keyCreated (w := w.of)
        apply keeps_State_fillSlot (w := w.of)
        assumption
      clear_value y4
      extract_lets +onlyGivenNames y5
      have k5 : Keeps S z y5 := by
        unfold y5
        refine keeps_ite ?_ ?_
        · apply keeps_State_ev (w := w.of)
          assumption
        · assumption
      clear_value y5
      apply keeps_State_cmdCommit (w := w.of)
      assumption

theorem keeps_execKeyDerive (a1 : KeyRun) (a2 : State) (h2 : Keeps S z a2) (w : Sub [.objs, .timers, .sessions, .cmds,
    .irq, .jour, .tunnels, .fabric, .keys] S) : KeepsA S z (execKeyDerive a1 a2) := by
  unfold execKeyDerive
  apply keeps_onPath
  · assumption
  · apply keeps_State_makeKey (w := w.of)
    assumption

theorem keeps_execKeyAgree (a1 : KeyRun) (a2 : State) (h2 : Keeps S z a2) (w : Sub [.objs, .timers, .sessions, .cmds,
    .irq, .jour, .tunnels, .fabric, .keys] S) : KeepsA S z (execKeyAgree a1 a2) := by
  unfold execKeyAgree
  apply keeps_onPath
  · assumption
  · apply keeps_State_makeKey (w := w.of)
    assumption

theorem keeps_execKeyImport (a1 : KeyRun) (a2 : State) (h2 : Keeps S z a2) (w : Sub [.objs, .timers, .sessions, .cmds,
    .irq, .jour, .tunnels, .fabric, .keys] S) : KeepsA S z (execKeyImport a1 a2) := by
  unfold execKeyImport
  apply keeps_onPath
  · assumption
  · apply keeps_State_makeKey (w := w.of)
    assumption

theorem keeps_State_revoke (a1 : State) (a2 : Path) (a3 : Nat) (h1 : Keeps S z a1) (w : Sub [.sessions, .irq, .jour]
    S) : Keeps S z (State.revoke a1 a2 a3) := by
  unfold State.revoke
  refine keeps_ite ?_ ?_
  · assumption
  · extract_lets +onlyGivenNames y1
    clear_value y1
    extract_lets +onlyGivenNames y2
    clear_value y2
    extract_lets +onlyGivenNames y3
    have k3 : Keeps S z y3 := by
      unfold y3
      apply keeps_forAll
      · intro x4
        intro x5
        intro k6
        apply keeps_State_endSession (w := w.of)
        assumption
      · assumption
    clear_value y3
    apply keeps_State_ev (w := w.of)
    assumption

theorem keeps_execKeyInvalidate (a1 : KeyRun) (a2 : State) (h2 : Keeps S z a2) (w : Sub [.objs, .freeCount, .sessions,
    .cmds, .irq, .jour, .keys, .secu] S) : KeepsA S z (execKeyInvalidate a1 a2) := by
  unfold execKeyInvalidate
  extract_lets +onlyGivenNames y1
  clear_value y1
  apply keeps_onPath
  · assumption
  · apply keeps_State_command (w := w.of)
    · assumption
    · intro x2
      intro k3
      refine keeps_ite ?_ ?_
      · apply keeps_State_cmdFail (w := w.of)
        assumption
      · refine keeps_ite ?_ ?_
        · apply keeps_State_cmdFail (w := w.of)
          assumption
        · refine keeps_ite ?_ ?_
          · extract_lets +onlyGivenNames y4
            clear_value y4
            apply keeps_State_cmdCommit (w := w.of)
            apply keeps_State_revoke (w := w.of)
            apply keeps_State_destroy (w := w.of)
            assumption
          · extract_lets +onlyGivenNames y5
            clear_value y5
            extract_lets +onlyGivenNames y6
            have k6 : Keeps S z y6 := by
              unfold y6
              refine keeps_mk ?_ (w_secu := .inr w.has)
              assumption
            clear_value y6
            apply keeps_State_cmdCommit (w := w.of)
            assumption

theorem keeps_execEnterOperational (a1 : Path) (a2 : Nat) (a3 : State) (h3 : Keeps S z a3) (w : Sub [.objs,
    .freeCount, .sessions, .cmds, .irq, .jour, .keys, .secu] S) : KeepsA S z (execEnterOperational a1 a2 a3) := by
  unfold execEnterOperational
  apply keeps_onPath
  · assumption
  · apply keeps_State_command (w := w.of)
    · assumption
    · intro x1
      intro k2
      refine keeps_ite ?_ ?_
      · apply keeps_State_cmdCommit (w := w.of)
        apply keeps_State_toLife (w := w.of)
        assumption
      · apply keeps_State_cmdFail (w := w.of)
        assumption

theorem keeps_execDecommission (a1 : Path) (a2 : Nat) (a3 : State) (h3 : Keeps S z a3) (w : Sub [.objs, .freeCount,
    .sessions, .cmds, .irq, .jour, .keys, .secu] S) : KeepsA S z (execDecommission a1 a2 a3) := by
  unfold execDecommission
  apply keeps_onPath
  · assumption
  · apply keeps_State_command (w := w.of)
    · assumption
    · intro x1
      intro k2
      apply keeps_State_cmdCommit (w := w.of)
      apply keeps_State_toLife (w := w.of)
      assumption

theorem keeps_execEnrolCustomerKeyHash (a1 : Path) (a2 : State) (h2 : Keeps S z a2) (w : Sub [.objs, .sessions, .cmds,
    .irq, .jour, .secu] S) : KeepsA S z (execEnrolCustomerKeyHash a1 a2) := by
  unfold execEnrolCustomerKeyHash
  apply keeps_onPath
  · assumption
  · apply keeps_State_commandNow (w := w.of)
    · assumption
    · intro x1
      intro k2
      extract_lets +onlyGivenNames y3
      clear_value y3
      apply keeps_State_set (w := w.of)
      refine keeps_mk ?_ (w_secu := .inr w.has)
      assumption

theorem keeps_execTamperAlarm (a1 : Nat) (a2 : Bool) (a3 : State) (h3 : Keeps S z a3) (w : Sub [.objs, .freeCount,
    .irq, .jour, .keys, .secu] S) : KeepsA S z (execTamperAlarm a1 a2 a3) := by
  unfold execTamperAlarm
  apply keeps_onUnit
  refine keeps_ite ?_ ?_
  · refine keeps_mk ?_ (w_secu := .inr w.has)
    assumption
  · refine keeps_ite ?_ ?_
    · assumption
    · extract_lets +onlyGivenNames y1
      extract_lets +onlyGivenNames y2
      extract_lets +onlyGivenNames y3
      have k3 : Keeps S z y3 := by
        unfold y3
        refine keeps_mk ?_ (w_secu := .inr w.has)
        assumption
      refine keeps_ite ?_ ?_
      · refine keeps_mk ?_ (w_secu := .inr w.has)
        assumption
      · extract_lets +onlyGivenNames y4
        have k4 : Keeps S z y4 := by
          unfold y4
          apply keeps_State_tamperEv (w := w.of)
          assumption
        refine keeps_ite ?_ ?_
        · refine keeps_mk ?_ (w_secu := .inr w.has)
          assumption
        · refine keeps_ite ?_ ?_
          · assumption
          · extract_lets +onlyGivenNames y5
            have k5 : Keeps S z y5 := by
              unfold y5
              apply keeps_State_zeroise (w := w.of)
              assumption
            refine keeps_ite ?_ ?_
            · apply keeps_State_toLife (w := w.of)
              assumption
            · assumption

theorem keeps_execTamperClear (a1 : Path) (a2 : State) (h2 : Keeps S z a2) (w : Sub [.objs, .sessions, .cmds, .irq,
    .jour, .secu] S) : KeepsA S z (execTamperClear a1 a2) := by
  unfold execTamperClear
  extract_lets +onlyGivenNames y1
  clear_value y1
  apply keeps_onPath
  · assumption
  · apply keeps_State_commandNow (w := w.of)
    · assumption
    · intro x2
      intro k3
      extract_lets +onlyGivenNames y4
      clear_value y4
      apply keeps_State_ev (w := w.of)
      refine keeps_mk ?_ (w_secu := .inr w.has)
      assumption

theorem keeps_execCryptoSelftest (a1 : Nat) (a2 : Bool) (a3 : State) (h3 : Keeps S z a3) (w : Sub [.objs, .timers,
    .irq, .jour] S) : KeepsA S z (execCryptoSelftest a1 a2 a3) := by
  unfold execCryptoSelftest
  apply keeps_onPort
  · assumption
  · refine keeps_ite ?_ ?_
    · assumption
    · extract_lets +onlyGivenNames y1
      have k1 : Keeps S z y1 := by
        unfold y1
        apply keeps_State_start (w := w.of)
        assumption
      clear_value y1
      refine keeps_ite ?_ ?_
      · assumption
      · apply keeps_State_ev (w := w.of)
        apply keeps_State_set (w := w.of)
        assumption

theorem keeps_execTrngHealthFailure (a1 : Nat) (a2 : State) (h2 : Keeps S z a2) (w : Sub [.objs, .irq, .jour] S) :
    KeepsA S z (execTrngHealthFailure a1 a2) := by
  unfold execTrngHealthFailure
  refine keeps_next ?_
  refine keeps_ite ?_ ?_
  · assumption
  · apply keeps_State_ev (w := w.of)
    apply keeps_State_set (w := w.of)
    assumption

end Sys2Proof.Laws
end

