-- ==== Sys2Proof/Laws/KeepsCommands.lean ====
section
/-!
SUPPORT. What each operation can change and what it keeps: the commands of the remaining families. One lemma for each definition, in the order of the
files under Machine/.
-/

set_option Elab.async false

set_option linter.all false

namespace Sys2Proof.Laws

open Sys2Proof Sys2Proof.Machine

variable {S : Piece → Bool} {z : State}

theorem keeps_State_readObject (a1 : State) (a2 : Path) (a3 : Nat) (a4 : Nat) (a5 : ObjRow) (h1 : Keeps S z a1) (w :
    Sub [.objs] S) : Keeps S z (State.readObject a1 a2 a3 a4 a5).2 := by
  unfold State.readObject
  split
  · dsimp only
    assumption
  · split
    · dsimp only
      assumption
    · split
      · apply keeps_State_takeEntry (w := w.of)
        assumption
      · split
        · apply keeps_State_takeRemote (w := w.of)
          assumption
        · split
          · dsimp only
            assumption
          · split
            · dsimp only
              assumption
            · split
              · dsimp only
                assumption
              · split
                · dsimp only
                  assumption
                · split
                  · dsimp only
                    assumption
                  · split
                    · dsimp only
                      assumption
                    · split
                      · dsimp only
                        assumption
                      · dsimp only
                        assumption

theorem keeps_State_readNow (a1 : State) (a2 : Path) (a3 : Nat) (a4 : Nat) (h1 : Keeps S z a1) (w : Sub [.objs,
    .sessions, .irq, .jour] S) : Keeps S z (State.readNow a1 a2 a3 a4).2 := by
  unfold State.readNow
  extract_lets +onlyGivenNames y1
  have k1 : Keeps S z y1 := by
    unfold y1
    apply keeps_State_settleSession (w := w.of)
    assumption
  clear_value y1
  split
  · dsimp only
    apply keeps_State_violate (w := w.of)
    apply keeps_State_touch (w := w.of)
    assumption
  · split
    · dsimp only
      apply keeps_State_violate (w := w.of)
      apply keeps_State_touch (w := w.of)
      assumption
    · dsimp only
      apply keeps_State_violate (w := w.of)
      apply keeps_State_touch (w := w.of)
      assumption
    · split
      dsimp only
      apply keeps_State_touch (w := w.of)
      refine keeps_pair (by assumption) ?_
      apply keeps_State_readObject (w := w.of)
      assumption

theorem keeps_State_appEnable (a1 : State) (a2 : Path) (a3 : Nat) (h1 : Keeps S z a1) (w : Sub [.objs, .timers,
    .sessions, .irq, .jour, .app] S) : Keeps S z (State.appEnable a1 a2 a3) := by
  unfold State.appEnable
  extract_lets +onlyGivenNames y1
  have k1 : Keeps S z y1 := by
    unfold y1
    apply keeps_State_set (w := w.of)
    assumption
  clear_value y1
  refine keeps_ite ?_ ?_
  · refine keeps_ite ?_ ?_
    · apply keeps_State_appLoad (w := w.of)
      assumption
    · assumption
  · refine keeps_ite ?_ ?_
    · assumption
    · apply keeps_State_appAsk (w := w.of)
      assumption

theorem keeps_execAppEnableWrite (a1 : Path) (a2 : Nat) (a3 : State) (h3 : Keeps S z a3) (w : Sub [.objs, .timers,
    .sessions, .irq, .jour, .app] S) : KeepsA S z (execAppEnableWrite a1 a2 a3) := by
  unfold execAppEnableWrite
  apply keeps_onPath
  · assumption
  · apply keeps_State_writeNum (w := w.of)
    · assumption
    · intro x1
      intro k2
      apply keeps_State_appEnable (w := w.of)
      assumption

theorem keeps_execAppLoadComplete (a1 : State) (h1 : Keeps S z a1) (w : Sub [.objs, .timers, .sessions, .irq, .jour,
    .app] S) : KeepsA S z (execAppLoadComplete a1) := by
  unfold execAppLoadComplete
  refine keeps_next ?_
  refine keeps_ite ?_ ?_
  · apply keeps_State_appLoaded (w := w.of)
    assumption
  · assumption

theorem keeps_execAppStart (a1 : Path) (a2 : State) (h2 : Keeps S z a2) (w : Sub [.objs, .timers, .sessions, .cmds,
    .irq, .jour] S) : KeepsA S z (execAppStart a1 a2) := by
  unfold execAppStart
  apply keeps_onPath
  · assumption
  · apply keeps_State_commandNow (w := w.of)
    · assumption
    · intro x1
      intro k2
      apply keeps_State_appGo (w := w.of)
      apply keeps_State_appWatch (w := w.of)
      assumption

theorem keeps_execAppHalt (a1 : Path) (a2 : State) (h2 : Keeps S z a2) (w : Sub [.objs, .timers, .sessions, .cmds,
    .irq, .jour, .app] S) : KeepsA S z (execAppHalt a1 a2) := by
  unfold execAppHalt
  apply keeps_onPath
  · assumption
  · apply keeps_State_command (w := w.of)
    · assumption
    · intro x1
      intro k2
      apply keeps_State_appAsk (w := w.of)
      assumption

theorem keeps_execAppRestart (a1 : Path) (a2 : State) (h2 : Keeps S z a2) (w : Sub [.objs, .timers, .sessions, .cmds,
    .irq, .jour, .app] S) : KeepsA S z (execAppRestart a1 a2) := by
  unfold execAppRestart
  apply keeps_onPath
  · assumption
  · apply keeps_State_command (w := w.of)
    · assumption
    · intro x1
      intro k2
      apply keeps_State_appAsk (w := w.of)
      assumption

theorem keeps_execAppClearCounters (a1 : Path) (a2 : State) (h2 : Keeps S z a2) (w : Sub [.objs, .sessions, .cmds,
    .irq, .jour] S) : KeepsA S z (execAppClearCounters a1 a2) := by
  unfold execAppClearCounters
  apply keeps_onPath
  · assumption
  · apply keeps_State_commandNow (w := w.of)
    · assumption
    · intro x1
      intro k2
      apply keeps_State_clear (w := w.of)
      assumption

theorem keeps_execBusUnmappedAccess (a1 : Nat) (a2 : State) (h2 : Keeps S z a2) (w : Sub [.objs, .irq, .jour, .rates,
    .sent] S) : KeepsA S z (execBusUnmappedAccess a1 a2) := by
  unfold execBusUnmappedAccess
  refine keeps_next ?_
  refine keeps_ite ?_ ?_
  · extract_lets +onlyGivenNames y1
    have k1 : Keeps S z y1 := by
      unfold y1
      apply keeps_State_set (w := w.of)
      apply keeps_State_count (w := w.of)
      assumption
    clear_value y1
    apply keeps_State_send (w := w.of)
    apply keeps_State_evRate (w := w.of)
    assumption
  · assumption

theorem keeps_State_gwGo (a1 : State) (a2 : Nat) (a3 : Nat) (a4 : Nat) (a5 : Bytes) (h1 : Keeps S z a1) (w : Sub
    [.objs, .irq, .app] S) : Keeps S z (State.gwGo a1 a2 a3 a4 a5) := by
  unfold State.gwGo
  refine keeps_ite ?_ ?_
  · assumption
  · refine keeps_ite ?_ ?_
    · apply keeps_State_count (w := w.of)
      apply keeps_State_updApp (w := w.of)
      assumption
    · extract_lets +onlyGivenNames y1
      have k1 : Keeps S z y1 := by
        unfold y1
        apply keeps_State_updApp (w := w.of)
        assumption
      clear_value y1
      refine keeps_ite ?_ ?_
      · apply keeps_State_raise (w := w.of)
        apply keeps_State_updApp (w := w.of)
        assumption
      · apply keeps_State_count (w := w.of)
        apply keeps_State_updApp (w := w.of)
        assumption

theorem keeps_execGwGoRead (a1 : Nat) (a2 : Nat) (a3 : State) (h3 : Keeps S z a3) (w : Sub [.objs, .irq, .app] S) :
    KeepsA S z (execGwGoRead a1 a2 a3) := by
  unfold execGwGoRead
  refine keeps_next ?_
  apply keeps_State_gwGo (w := w.of)
  assumption

theorem keeps_execGwGoWrite (a1 : Nat) (a2 : Nat) (a3 : Bytes) (a4 : State) (h4 : Keeps S z a4) (w : Sub [.objs, .irq,
    .app] S) : KeepsA S z (execGwGoWrite a1 a2 a3 a4) := by
  unfold execGwGoWrite
  refine keeps_next ?_
  apply keeps_State_gwGo (w := w.of)
  assumption

theorem keeps_execJpEntryRead (a1 : Option Nat) (a2 : State) (h2 : Keeps S z a2) (w : Sub [.sent, .app] S) : KeepsA S
    z (execJpEntryRead a1 a2) := by
  unfold execJpEntryRead
  refine keeps_next ?_
  refine keeps_ite ?_ ?_
  · extract_lets +onlyGivenNames y1
    clear_value y1
    split
    · apply keeps_State_send (w := w.of)
      apply keeps_State_updApp (w := w.of)
      assumption
    · apply keeps_State_send (w := w.of)
      apply keeps_State_updApp (w := w.of)
      assumption
  · assumption

theorem keeps_execJpWrite (a1 : Nat) (a2 : Nat) (a3 : Bytes) (a4 : State) (h4 : Keeps S z a4) (w : Sub [.objs, .irq,
    .jour, .rates, .app] S) : KeepsA S z (execJpWrite a1 a2 a3 a4) := by
  unfold execJpWrite
  refine keeps_next ?_
  refine keeps_ite ?_ ?_
  · extract_lets +onlyGivenNames y1
    have k1 : Keeps S z y1 := by
      unfold y1
      refine keeps_ite ?_ ?_
      · apply keeps_State_updApp (w := w.of)
        assumption
      · assumption
    clear_value y1
    refine keeps_ite ?_ ?_
    · apply keeps_State_evRate (w := w.of)
      apply keeps_State_count (w := w.of)
      assumption
    · extract_lets +onlyGivenNames y2
      have k2 : Keeps S z y2 := by
        unfold y2
        apply keeps_State_count (w := w.of)
        apply keeps_State_updApp (w := w.of)
        assumption
      clear_value y2
      apply keeps_State_ev (w := w.of)
      assumption
  · assumption

theorem keeps_execDbSet (a1 : Nat) (a2 : State) (h2 : Keeps S z a2) (w : Sub [.irq] S) : KeepsA S z (execDbSet a1 a2)
    := by
  unfold execDbSet
  refine keeps_next ?_
  refine keeps_ite ?_ ?_
  · refine keeps_mk ?_ (w_irq := .inr w.has)
    assumption
  · assumption

theorem keeps_execDbClear (a1 : Nat) (a2 : State) (h2 : Keeps S z a2) (w : Sub [.irq] S) : KeepsA S z (execDbClear a1
    a2) := by
  unfold execDbClear
  refine keeps_next ?_
  refine keeps_ite ?_ ?_
  · refine keeps_mk ?_ (w_irq := .inr w.has)
    assumption
  · assumption

theorem keeps_execDoorbellRing (a1 : Path) (a2 : Nat) (a3 : State) (h3 : Keeps S z a3) (w : Sub [.objs, .sessions,
    .irq, .jour] S) : KeepsA S z (execDoorbellRing a1 a2 a3) := by
  unfold execDoorbellRing
  apply keeps_onPath
  · assumption
  · apply keeps_State_writeNum (w := w.of)
    · assumption
    · intro x1
      intro k2
      refine keeps_mk ?_ (w_irq := .inr w.has)
      assumption

theorem keeps_execAppMailboxPost (a1 : Path) (a2 : State) (h2 : Keeps S z a2) (w : Sub [.objs, .sessions, .cmds, .irq,
    .jour, .app] S) : KeepsA S z (execAppMailboxPost a1 a2) := by
  unfold execAppMailboxPost
  apply keeps_onPath
  · assumption
  · apply keeps_State_command (w := w.of)
    · assumption
    · intro x1
      intro k2
      extract_lets +onlyGivenNames y3
      clear_value y3
      apply keeps_State_raise (w := w.of)
      apply keeps_State_updApp (w := w.of)
      assumption

theorem keeps_execHostMsgTake (a1 : State) (h1 : Keeps S z a1) (w : Sub [.objs, .irq, .jour, .app] S) : KeepsA S z
    (execHostMsgTake a1) := by
  unfold execHostMsgTake
  refine keeps_next ?_
  refine keeps_ite ?_ ?_
  · apply keeps_State_cmdCommit (w := w.of)
    apply keeps_State_updApp (w := w.of)
    assumption
  · assumption

theorem keeps_execAppMsgSend (a1 : Bytes) (a2 : State) (h2 : Keeps S z a2) (w : Sub [.objs, .irq] S) : KeepsA S z
    (execAppMsgSend a1 a2) := by
  unfold execAppMsgSend
  refine keeps_next ?_
  refine keeps_ite ?_ ?_
  · extract_lets +onlyGivenNames y1
    clear_value y1
    apply keeps_State_raise (w := w.of)
    apply keeps_State_countWrap (w := w.of)
    apply keeps_State_setAll (w := w.of)
    assumption
  · assumption

theorem keeps_execEndpointDescriptorWrite (a1 : Nat) (a2 : Bool) (a3 : Nat) (a4 : Nat) (a5 : Bool) (a6 : Bytes) (a7 :
    State) (h7 : Keeps S z a7) (w : Sub [.objs, .irq, .svc] S) : KeepsA S z (execEndpointDescriptorWrite a1 a2 a3 a4
    a5 a6 a7) := by
  unfold execEndpointDescriptorWrite
  apply keeps_onUnit
  refine keeps_ite ?_ ?_
  · extract_lets +onlyGivenNames y1
    clear_value y1
    extract_lets +onlyGivenNames y2
    have k2 : Keeps S z y2 := by
      unfold y2
      refine keeps_ite ?_ ?_
      · assumption
      · apply keeps_State_setSvcBuf (w := w.of)
        assumption
    clear_value y2
    refine keeps_ite ?_ ?_
    · apply keeps_State_svcHalt (w := w.of)
      assumption
    · assumption
  · assumption

theorem keeps_execStimeLatchRead (a1 : State) (h1 : Keeps S z a1) (w : Sub [.sent, .app] S) : KeepsA S z
    (execStimeLatchRead a1) := by
  unfold execStimeLatchRead
  refine keeps_next ?_
  refine keeps_ite ?_ ?_
  · apply keeps_State_send (w := w.of)
    apply keeps_State_updApp (w := w.of)
    assumption
  · assumption

theorem keeps_State_setAppTimer (a1 : State) (a2 : Nat) (a3 : AppTimer) (h1 : Keeps S z a1) (w : Sub [.app] S) : Keeps
    S z (State.setAppTimer a1 a2 a3) := by
  unfold State.setAppTimer
  apply keeps_State_updApp (w := w.of)
  assumption

theorem keeps_execTmrArm (a1 : Nat) (a2 : Nat) (a3 : Nat) (a4 : Bool) (a5 : State) (h5 : Keeps S z a5) (w : Sub [.app]
    S) : KeepsA S z (execTmrArm a1 a2 a3 a4 a5) := by
  unfold execTmrArm
  apply keeps_onUnit
  refine keeps_ite ?_ ?_
  · extract_lets +onlyGivenNames y1
    clear_value y1
    extract_lets +onlyGivenNames y2
    clear_value y2
    apply keeps_State_setAppTimer (w := w.of)
    assumption
  · assumption

theorem keeps_execTimerExpiry (a1 : Nat) (a2 : State) (h2 : Keeps S z a2) (w : Sub [.irq, .app] S) : KeepsA S z
    (execTimerExpiry a1 a2) := by
  unfold execTimerExpiry
  apply keeps_onUnit
  extract_lets +onlyGivenNames y1
  clear_value y1
  refine keeps_ite ?_ ?_
  · extract_lets +onlyGivenNames y2
    clear_value y2
    extract_lets +onlyGivenNames y3
    have k3 : Keeps S z y3 := by
      unfold y3
      apply keeps_State_raise (w := w.of)
      assumption
    clear_value y3
    extract_lets +onlyGivenNames y4
    clear_value y4
    refine keeps_ite ?_ ?_
    · apply keeps_State_setAppTimer (w := w.of)
      assumption
    · refine keeps_ite ?_ ?_
      · extract_lets +onlyGivenNames y5
        clear_value y5
        apply keeps_State_setAppTimer (w := w.of)
        assumption
      · apply keeps_State_setAppTimer (w := w.of)
        assumption
  · assumption

theorem keeps_execWdogKick (a1 : Nat) (a2 : State) (h2 : Keeps S z a2) (w : Sub [.timers] S) : KeepsA S z
    (execWdogKick a1 a2) := by
  unfold execWdogKick
  refine keeps_next ?_
  refine keeps_ite ?_ ?_
  · apply keeps_State_appWatch (w := w.of)
    assumption
  · assumption

theorem keeps_execWatchdogExpiry (a1 : State) (h1 : Keeps S z a1) (w : Sub [.objs, .timers, .irq, .jour] S) : KeepsA S
    z (execWatchdogExpiry a1) := by
  unfold execWatchdogExpiry
  refine keeps_next ?_
  extract_lets +onlyGivenNames y1
  clear_value y1
  refine keeps_ite ?_ ?_
  · extract_lets +onlyGivenNames y2
    have k2 : Keeps S z y2 := by
      unfold y2
      apply keeps_State_start (w := w.of)
      apply keeps_State_count (w := w.of)
      assumption
    clear_value y2
    apply keeps_State_ev (w := w.of)
    assumption
  · assumption

theorem keeps_execNClaim (a1 : Nat) (a2 : Nat) (a3 : State) (h3 : Keeps S z a3) (w : Sub [.objs, .irq, .sent] S) :
    KeepsA S z (execNClaim a1 a2 a3) := by
  unfold execNClaim
  apply keeps_onUnit
  refine keeps_ite ?_ ?_
  · apply keeps_State_claim (w := w.of)
    apply keeps_State_setEnable (w := w.of)
    assumption
  · assumption

theorem keeps_execNComplete (a1 : Nat) (a2 : Nat) (a3 : State) (h3 : Keeps S z a3) (w : Sub [.irq, .jour, .rates] S) :
    KeepsA S z (execNComplete a1 a2 a3) := by
  unfold execNComplete
  apply keeps_onUnit
  refine keeps_ite ?_ ?_
  · apply keeps_State_endSource (w := w.of)
    assumption
  · assumption

theorem keeps_execFClaim (a1 : Nat) (a2 : Nat) (a3 : State) (h3 : Keeps S z a3) (w : Sub [.objs, .irq, .sent] S) :
    KeepsA S z (execFClaim a1 a2 a3) := by
  unfold execFClaim
  apply keeps_onUnit
  refine keeps_ite ?_ ?_
  · apply keeps_State_claim (w := w.of)
    apply keeps_State_setEnable (w := w.of)
    assumption
  · assumption

theorem keeps_execFComplete (a1 : Nat) (a2 : Nat) (a3 : State) (h3 : Keeps S z a3) (w : Sub [.irq, .jour, .rates] S) :
    KeepsA S z (execFComplete a1 a2 a3) := by
  unfold execFComplete
  apply keeps_onUnit
  refine keeps_ite ?_ ?_
  · apply keeps_State_endSource (w := w.of)
    assumption
  · assumption

theorem keeps_execNormalInterruptEntry (a1 : Nat) (a2 : Nat) (a3 : Nat) (a4 : Bool) (a5 : State) (h5 : Keeps S z a5)
    (w : Sub [.objs, .irq, .sent] S) : KeepsA S z (execNormalInterruptEntry a1 a2 a3 a4 a5) := by
  unfold execNormalInterruptEntry
  apply keeps_onUnit
  refine keeps_ite ?_ ?_
  · apply keeps_State_deliver (w := w.of)
    apply keeps_State_setCtrl (w := w.of)
    apply keeps_State_setEnable (w := w.of)
    assumption
  · assumption

theorem keeps_execFastInterruptEntry (a1 : Nat) (a2 : Nat) (a3 : Nat) (a4 : State) (h4 : Keeps S z a4) (w : Sub
    [.objs, .irq, .sent] S) : KeepsA S z (execFastInterruptEntry a1 a2 a3 a4) := by
  unfold execFastInterruptEntry
  apply keeps_onUnit
  refine keeps_ite ?_ ?_
  · apply keeps_State_deliver (w := w.of)
    apply keeps_State_setCtrl (w := w.of)
    apply keeps_State_setEnable (w := w.of)
    assumption
  · assumption

theorem keeps_execCi2ClockStop (a1 : State) (h1 : Keeps S z a1) (w : Sub [.irq] S) : KeepsA S z (execCi2ClockStop a1)
    := by
  unfold execCi2ClockStop
  refine keeps_next ?_
  refine keeps_ite ?_ ?_
  · refine keeps_mk ?_ (w_irq := .inr w.has)
    assumption
  · assumption

theorem keeps_execCi2ClockRestart (a1 : Bool) (a2 : State) (h2 : Keeps S z a2) (w : Sub [.irq] S) : KeepsA S z
    (execCi2ClockRestart a1 a2) := by
  unfold execCi2ClockRestart
  refine keeps_next ?_
  extract_lets +onlyGivenNames y1
  clear_value y1
  refine keeps_ite ?_ ?_
  · apply keeps_State_ciWake (w := w.of)
    assumption
  · assumption

theorem keeps_execLockstepMismatch (a1 : Nat) (a2 : Nat) (a3 : Nat) (a4 : State) (h4 : Keeps S z a4) (w : Sub [.objs,
    .irq, .jour, .sent, .safety] S) : KeepsA S z (execLockstepMismatch a1 a2 a3 a4) := by
  unfold execLockstepMismatch
  apply keeps_onUnit
  refine keeps_ite ?_ ?_
  · assumption
  · extract_lets +onlyGivenNames y1
    have k1 : Keeps S z y1 := by
      unfold y1
      apply keeps_State_updSafety (w := w.of)
      assumption
    clear_value y1
    extract_lets +onlyGivenNames y2
    have k2 : Keeps S z y2 := by
      unfold y2
      apply keeps_State_latchCommon (w := w.of)
      apply keeps_State_count (w := w.of)
      assumption
    clear_value y2
    apply keeps_State_danger (w := w.of)
    assumption

theorem keeps_execShadowCheck (a1 : Bool) (a2 : Bool) (a3 : Nat) (a4 : Nat) (a5 : State) (h5 : Keeps S z a5) (w : Sub
    [.objs, .timers, .irq, .jour, .sent, .safety] S) : KeepsA S z (execShadowCheck a1 a2 a3 a4 a5) := by
  unfold execShadowCheck
  refine keeps_next ?_
  refine keeps_ite ?_ ?_
  · extract_lets +onlyGivenNames y1
    clear_value y1
    extract_lets +onlyGivenNames y2
    have k2 : Keeps S z y2 := by
      unfold y2
      apply keeps_State_start (w := w.of)
      assumption
    clear_value y2
    refine keeps_ite ?_ ?_
    · assumption
    · extract_lets +onlyGivenNames y3
      have k3 : Keeps S z y3 := by
        unfold y3
        apply keeps_State_updSafety (w := w.of)
        assumption
      clear_value y3
      extract_lets +onlyGivenNames y4
      have k4 : Keeps S z y4 := by
        unfold y4
        refine keeps_ite ?_ ?_
        · assumption
        · apply keeps_State_danger (w := w.of)
          apply keeps_State_latchCommon (w := w.of)
          apply keeps_State_count (w := w.of)
          assumption
      clear_value y4
      apply keeps_State_taskStep (w := w.of)
      assumption
  · assumption

theorem keeps_execTunnelSilent (a1 : Nat) (a2 : State) (h2 : Keeps S z a2) (w : Sub [.objs, .irq, .jour, .sent,
    .tunnels, .safety] S) : KeepsA S z (execTunnelSilent a1 a2) := by
  unfold execTunnelSilent
  apply keeps_onUnit
  extract_lets +onlyGivenNames y1
  clear_value y1
  refine keeps_ite ?_ ?_
  · extract_lets +onlyGivenNames y2
    have k2 : Keeps S z y2 := by
      unfold y2
      apply keeps_State_count (w := w.of)
      apply keeps_State_updTun (w := w.of)
      assumption
    clear_value y2
    apply keeps_State_danger (w := w.of)
    apply keeps_State_latchSf (w := w.of)
    assumption
  · assumption

theorem keeps_execSf4PowerPathFault (a1 : Nat) (a2 : Nat) (a3 : Nat) (a4 : State) (h4 : Keeps S z a4) (w : Sub [.objs,
    .irq, .jour, .sent, .power, .safety] S) : KeepsA S z (execSf4PowerPathFault a1 a2 a3 a4) := by
  unfold execSf4PowerPathFault
  apply keeps_onPort
  · assumption
  · refine keeps_ite ?_ ?_
    · extract_lets +onlyGivenNames y1
      clear_value y1
      refine keeps_ite ?_ ?_
      · apply keeps_State_pwrEv (w := w.of)
        assumption
      · apply keeps_State_sf4Fault (w := w.of)
        assumption
    · assumption

theorem keeps_execSafePulsePermission (a1 : State) (h1 : Keeps S z a1) (w : Sub [.objs, .timers, .irq, .jour, .sent,
    .safety] S) : KeepsA S z (execSafePulsePermission a1) := by
  unfold execSafePulsePermission
  refine keeps_next ?_
  refine keeps_ite ?_ ?_
  · assumption
  · apply keeps_State_pulse (w := w.of)
    apply keeps_State_start (w := w.of)
    apply keeps_State_updSafety (w := w.of)
    assumption

theorem keeps_execSafePulsePermissionTimeout (a1 : State) (h1 : Keeps S z a1) (w : Sub [.objs, .timers, .irq, .jour,
    .sent, .safety] S) : KeepsA S z (execSafePulsePermissionTimeout a1) := by
  unfold execSafePulsePermissionTimeout
  refine keeps_next ?_
  refine keeps_ite ?_ ?_
  · apply keeps_State_pulse (w := w.of)
    apply keeps_State_stop (w := w.of)
    apply keeps_State_updSafety (w := w.of)
    assumption
  · assumption

theorem keeps_execSafetyClearLatches (a1 : Path) (a2 : State) (h2 : Keeps S z a2) (w : Sub [.objs, .sessions, .cmds,
    .irq, .jour, .sent, .safety] S) : KeepsA S z (execSafetyClearLatches a1 a2) := by
  unfold execSafetyClearLatches
  apply keeps_onPath
  · assumption
  · apply keeps_State_command (w := w.of)
    · assumption
    · intro x1
      intro k2
      extract_lets +onlyGivenNames y3
      have k3 : Keeps S z y3 := by
        unfold y3
        apply keeps_State_clear (w := w.of)
        assumption
      clear_value y3
      extract_lets +onlyGivenNames y4
      have k4 : Keeps S z y4 := by
        unfold y4
        apply keeps_State_updSafety (w := w.of)
        assumption
      clear_value y4
      apply keeps_State_pulse (w := w.of)
      apply keeps_State_cmdCommit (w := w.of)
      assumption

theorem keeps_execShadowReload (a1 : Path) (a2 : State) (h2 : Keeps S z a2) (w : Sub [.objs, .sessions, .cmds, .irq,
    .jour] S) : KeepsA S z (execShadowReload a1 a2) := by
  unfold execShadowReload
  apply keeps_onPath
  · assumption
  · apply keeps_State_commandNow (w := w.of)
    · assumption
    · intro x1
      intro k2
      assumption

theorem keeps_execSentinelReport (a1 : List Int) (a2 : List Nat) (a3 : State) (h3 : Keeps S z a3) (w : Sub [.objs,
    .timers, .safety] S) : KeepsA S z (execSentinelReport a1 a2 a3) := by
  unfold execSentinelReport
  refine keeps_next ?_
  refine keeps_ite ?_ ?_
  · extract_lets +onlyGivenNames y1
    have k1 : Keeps S z y1 := by
      unfold y1
      apply keeps_State_baselineNow (w := w.of)
      apply keeps_State_updSafety (w := w.of)
      apply keeps_State_start (w := w.of)
      assumption
    clear_value y1
    extract_lets +onlyGivenNames y2
    clear_value y2
    extract_lets +onlyGivenNames y3
    have k3 : Keeps S z y3 := by
      unfold y3
      apply keeps_State_setAll (w := w.of)
      assumption
    clear_value y3
    extract_lets +onlyGivenNames y4
    have k4 : Keeps S z y4 := by
      unfold y4
      refine keeps_ite ?_ ?_
      · assumption
      · apply keeps_State_setAll (w := w.of)
        assumption
    clear_value y4
    split
    · apply keeps_State_setAll (w := w.of)
      assumption
    · assumption
  · assumption

theorem keeps_execPlanInstant (a1 : List Nat) (a2 : State) (h2 : Keeps S z a2) (w : Sub [.objs, .timers, .irq, .jour,
    .sent, .safety] S) : KeepsA S z (execPlanInstant a1 a2) := by
  unfold execPlanInstant
  refine keeps_next ?_
  refine keeps_ite ?_ ?_
  · apply keeps_State_plan (w := w.of)
    assumption
  · assumption

theorem keeps_execMarginApprove (a1 : Path) (a2 : State) (h2 : Keeps S z a2) (w : Sub [.objs, .sessions, .cmds, .irq,
    .jour, .sent, .safety] S) : KeepsA S z (execMarginApprove a1 a2) := by
  unfold execMarginApprove
  apply keeps_onPath
  · assumption
  · apply keeps_State_commandNow (w := w.of)
    · assumption
    · intro x1
      intro k2
      apply keeps_State_applyProposal (w := w.of)
      assumption

theorem keeps_execMarginPlanNow (a1 : Path) (a2 : List Nat) (a3 : State) (h3 : Keeps S z a3) (w : Sub [.objs, .timers,
    .sessions, .cmds, .irq, .jour, .sent, .safety] S) : KeepsA S z (execMarginPlanNow a1 a2 a3) := by
  unfold execMarginPlanNow
  apply keeps_onPath
  · assumption
  · apply keeps_State_command (w := w.of)
    · assumption
    · intro x1
      intro k2
      refine keeps_ite ?_ ?_
      · assumption
      · apply keeps_State_plan (w := w.of)
        assumption

theorem keeps_execMarginEnvelopeWrite (a1 : Path) (a2 : Nat) (a3 : Nat) (a4 : State) (h4 : Keeps S z a4) (w : Sub
    [.objs, .sessions, .irq, .jour, .sent, .safety] S) : KeepsA S z (execMarginEnvelopeWrite a1 a2 a3 a4) := by
  unfold execMarginEnvelopeWrite
  apply keeps_onPath
  · assumption
  · apply keeps_State_writeNum (w := w.of)
    · assumption
    · intro x1
      intro k2
      apply keeps_State_marginSet (w := w.of)
      assumption

theorem keeps_execMarginPinnedRepeat (a1 : Nat) (a2 : State) (h2 : Keeps S z a2) (w : Sub [.timers, .irq, .jour] S) :
    KeepsA S z (execMarginPinnedRepeat a1 a2) := by
  unfold execMarginPinnedRepeat
  apply keeps_onUnit
  refine keeps_ite ?_ ?_
  · split
    · apply keeps_State_ev (w := w.of)
      apply keeps_State_start (w := w.of)
      assumption
    · assumption
  · assumption

theorem keeps_State_scrubbed (a1 : State) (a2 : Nat) (a3 : Nat) (a4 : Nat) (a5 : Option Nat) (a6 : Bool) (h1 : Keeps S
    z a1) (w : Sub [.objs, .timers, .irq, .jour, .rates, .sent, .safety] S) : Keeps S z (State.scrubbed a1 a2 a3 a4 a5
    a6) := by
  unfold State.scrubbed
  extract_lets +onlyGivenNames y1
  have k1 : Keeps S z y1 := by
    unfold y1
    refine keeps_ite ?_ ?_
    · assumption
    · apply keeps_State_memCorrected (w := w.of)
      assumption
  clear_value y1
  extract_lets +onlyGivenNames y2
  have k2 : Keeps S z y2 := by
    unfold y2
    split
    · apply keeps_State_memBad (w := w.of)
      assumption
    · assumption
  clear_value y2
  apply keeps_State_taskStep (w := w.of)
  assumption

theorem keeps_execDramPatrolScrub (a1 : Nat) (a2 : Option Nat) (a3 : Bool) (a4 : State) (h4 : Keeps S z a4) (w : Sub
    [.objs, .timers, .irq, .jour, .rates, .sent, .safety] S) : KeepsA S z (execDramPatrolScrub a1 a2 a3 a4) := by
  unfold execDramPatrolScrub
  refine keeps_next ?_
  refine keeps_ite ?_ ?_
  · apply keeps_State_scrubbed (w := w.of)
    assumption
  · assumption

theorem keeps_execBufferPatrolScrub (a1 : Nat) (a2 : Option Nat) (a3 : Bool) (a4 : State) (h4 : Keeps S z a4) (w : Sub
    [.objs, .timers, .irq, .jour, .rates, .sent, .safety] S) : KeepsA S z (execBufferPatrolScrub a1 a2 a3 a4) := by
  unfold execBufferPatrolScrub
  refine keeps_next ?_
  refine keeps_ite ?_ ?_
  · apply keeps_State_scrubbed (w := w.of)
    assumption
  · assumption

theorem keeps_execSramScrub (a1 : Nat) (a2 : Nat) (a3 : Option Nat) (a4 : Bool) (a5 : State) (h5 : Keeps S z a5) (w :
    Sub [.objs, .timers, .irq, .jour, .rates, .sent, .safety] S) : KeepsA S z (execSramScrub a1 a2 a3 a4 a5) := by
  unfold execSramScrub
  apply keeps_onUnit
  refine keeps_ite ?_ ?_
  · apply keeps_State_scrubbed (w := w.of)
    assumption
  · assumption

theorem keeps_State_mramLost (a1 : State) (a2 : Nat) (a3 : Nat) (h1 : Keeps S z a1) (w : Sub [.jour, .boot] S) : Keeps
    S z (State.mramLost a1 a2 a3) := by
  unfold State.mramLost
  refine keeps_ite (keeps_State_updBoot _ _ h1 w.of) (keeps_ite ?_ h1)
  split
  · exact keeps_of h1 rfl rfl rfl (List.suffix_refl _) (w.of (G := [.jour])) (by intro f hf; cases f <;> first | rfl | cases hf) fun c =>
      ⟨c.objs, c.strs, c.dram, by simpa using c.ring⟩
  · exact h1

theorem keeps_execMramScrub (a1 : Nat) (a2 : Option (Nat × Nat × Nat)) (a3 : Bool) (a4 : State) (h4 : Keeps S z a4) (w
    : Sub [.objs, .timers, .irq, .jour, .rates, .sent, .safety, .boot] S) : KeepsA S z (execMramScrub a1 a2 a3 a4) :=
    by
  unfold execMramScrub
  refine keeps_next ?_
  refine keeps_ite ?_ ?_
  · extract_lets +onlyGivenNames y1
    have k1 : Keeps S z y1 := by
      unfold y1
      split
      · apply keeps_State_mramLost (w := w.of)
        assumption
      · assumption
    clear_value y1
    apply keeps_State_scrubbed (w := w.of)
    assumption
  · assumption

theorem keeps_execDdrCalibration (a1 : Nat) (a2 : List Nat) (a3 : State) (h3 : Keeps S z a3) (w : Sub [.objs, .timers,
    .safety] S) : KeepsA S z (execDdrCalibration a1 a2 a3) := by
  unfold execDdrCalibration
  apply keeps_onUnit
  refine keeps_ite ?_ ?_
  · extract_lets +onlyGivenNames y1
    have k1 : Keeps S z y1 := by
      unfold y1
      refine keeps_ite ?_ ?_
      · apply keeps_State_setAll (w := w.of)
        assumption
      · assumption
    clear_value y1
    apply keeps_State_taskStep (w := w.of)
    assumption
  · assumption

theorem keeps_execSerdesSweep (a1 : Nat) (a2 : Nat) (a3 : Nat) (a4 : State) (h4 : Keeps S z a4) (w : Sub [.objs,
    .timers, .safety] S) : KeepsA S z (execSerdesSweep a1 a2 a3 a4) := by
  unfold execSerdesSweep
  apply keeps_onPort
  · assumption
  · refine keeps_ite ?_ ?_
    · extract_lets +onlyGivenNames y1
      have k1 : Keeps S z y1 := by
        unfold y1
        apply keeps_State_updSafety (w := w.of)
        assumption
      clear_value y1
      apply keeps_State_taskStep (w := w.of)
      assumption
    · assumption

theorem keeps_execSensorCalibration (a1 : State) (h1 : Keeps S z a1) (w : Sub [.objs, .timers, .safety] S) : KeepsA S
    z (execSensorCalibration a1) := by
  unfold execSensorCalibration
  refine keeps_next ?_
  refine keeps_ite ?_ ?_
  · apply keeps_State_taskStep (w := w.of)
    assumption
  · assumption

theorem keeps_execBackgroundTaskBehind (a1 : Nat) (a2 : State) (h2 : Keeps S z a2) (w : Sub [.objs, .irq, .jour,
    .safety] S) : KeepsA S z (execBackgroundTaskBehind a1 a2) := by
  unfold execBackgroundTaskBehind
  apply keeps_onUnit
  extract_lets +onlyGivenNames y1
  clear_value y1
  refine keeps_ite ?_ ?_
  · extract_lets +onlyGivenNames y2
    clear_value y2
    extract_lets +onlyGivenNames y3
    have k3 : Keeps S z y3 := by
      unfold y3
      apply keeps_State_updSafety (w := w.of)
      apply keeps_State_count (w := w.of)
      assumption
    clear_value y3
    apply keeps_State_ev (w := w.of)
    assumption
  · assumption

theorem keeps_execBackgroundTaskEnableWrite (a1 : Path) (a2 : Nat) (a3 : Nat) (a4 : State) (h4 : Keeps S z a4) (w :
    Sub [.objs, .timers, .sessions, .irq, .jour, .safety] S) : KeepsA S z (execBackgroundTaskEnableWrite a1 a2 a3 a4)
    := by
  unfold execBackgroundTaskEnableWrite
  apply keeps_onPath
  · assumption
  · apply keeps_State_writeNum (w := w.of)
    · assumption
    · intro x1
      intro k2
      apply keeps_State_taskSwitch (w := w.of)
      assumption

theorem keeps_execNorLogWrite (a1 : Nat) (a2 : Nat) (a3 : Bool) (a4 : Bool) (a5 : State) (h5 : Keeps S z a5) (w : Sub
    [.objs, .timers, .irq, .jour, .safety] S) : KeepsA S z (execNorLogWrite a1 a2 a3 a4 a5) := by
  unfold execNorLogWrite
  apply keeps_onUnit
  refine keeps_ite ?_ ?_
  · assumption
  · refine keeps_ite ?_ ?_
    · split
      apply keeps_State_norShow (w := w.of)
      apply keeps_State_norWarn (w := w.of)
      apply keeps_State_taskStep (w := w.of)
      apply keeps_State_norHold (w := w.of)
      refine keeps_pair1 (by assumption) ?_
      apply keeps_State_norPlace (w := w.of)
      assumption
    · apply keeps_State_norHold (w := w.of)
      assumption

theorem keeps_execTelemetrySample (a1 : List Int) (a2 : Int) (a3 : List Nat) (a4 : List Nat) (a5 : State) (h5 : Keeps
    S z a5) (w : Sub [.objs, .timers, .irq, .jour, .rates, .safety] S) : KeepsA S z (execTelemetrySample a1 a2 a3 a4
    a5) := by
  unfold execTelemetrySample
  refine keeps_next ?_
  refine keeps_ite ?_ ?_
  · extract_lets +onlyGivenNames y1
    clear_value y1
    extract_lets +onlyGivenNames y2
    have k2 : Keeps S z y2 := by
      unfold y2
      apply keeps_State_start (w := w.of)
      assumption
    clear_value y2
    extract_lets +onlyGivenNames y3
    clear_value y3
    extract_lets +onlyGivenNames y4
    clear_value y4
    extract_lets +onlyGivenNames y5
    have k5 : Keeps S z y5 := by
      unfold y5
      apply keeps_State_setAll (w := w.of)
      assumption
    clear_value y5
    extract_lets +onlyGivenNames y6
    have k6 : Keeps S z y6 := by
      unfold y6
      apply keeps_State_setAll (w := w.of)
      assumption
    clear_value y6
    extract_lets +onlyGivenNames y7
    have k7 : Keeps S z y7 := by
      unfold y7
      apply keeps_State_gather (w := w.of)
      assumption
    clear_value y7
    extract_lets +onlyGivenNames y8
    clear_value y8
    extract_lets +onlyGivenNames y9
    have k9 : Keeps S z y9 := by
      unfold y9
      refine keeps_ite ?_ ?_
      · apply keeps_State_evRate (w := w.of)
        apply keeps_State_count (w := w.of)
        assumption
      · assumption
    clear_value y9
    apply keeps_State_taskStep (w := w.of)
    assumption
  · assumption

theorem keeps_execTelemetryLogRecord (a1 : State) (h1 : Keeps S z a1) (w : Sub [.timers, .safety] S) : KeepsA S z
    (execTelemetryLogRecord a1) := by
  unfold execTelemetryLogRecord
  refine keeps_next ?_
  refine keeps_ite ?_ ?_
  · apply keeps_State_updSafety (w := w.of)
    apply keeps_State_start (w := w.of)
    assumption
  · assumption

theorem keeps_execCanFrameReceived (a1 : Nat) (a2 : CanFrame) (a3 : Nat) (a4 : State) (h4 : Keeps S z a4) (w : Sub
    [.objs, .freeCount, .irq, .jour, .rates, .sent, .canOpen, .fabric, .fld] S) : KeepsA S z (execCanFrameReceived a1
    a2 a3 a4) := by
  unfold execCanFrameReceived
  apply keeps_onUnit
  refine keeps_ite ?_ ?_
  · assumption
  · extract_lets +onlyGivenNames y1
    have k1 : Keeps S z y1 := by
      unfold y1
      apply keeps_State_canHeard (w := w.of)
      apply keeps_State_count (w := w.of)
      assumption
    clear_value y1
    split
    · extract_lets +onlyGivenNames y2
      have k2 : Keeps S z y2 := by
        unfold y2
        refine keeps_ite ?_ ?_
        · apply keeps_State_fieldUnit (w := w.of)
          assumption
        · assumption
      clear_value y2
      refine keeps_ite ?_ ?_
      · apply keeps_State_canSource (w := w.of)
        assumption
      · assumption
    · refine keeps_ite ?_ ?_
      · apply keeps_State_send (w := w.of)
        assumption
      · apply keeps_State_canDrop (w := w.of)
        assumption

theorem keeps_execCanBusOff (a1 : Nat) (a2 : Nat) (a3 : Nat) (a4 : State) (h4 : Keeps S z a4) (w : Sub [.objs, .irq,
    .jour, .fld] S) : KeepsA S z (execCanBusOff a1 a2 a3 a4) := by
  unfold execCanBusOff
  apply keeps_onUnit
  refine keeps_ite ?_ ?_
  · assumption
  · apply keeps_State_canErrors (w := w.of)
    assumption

theorem keeps_execCanBusOffRecovery (a1 : Nat) (a2 : State) (h2 : Keeps S z a2) (w : Sub [.objs, .irq, .jour, .fld] S)
    : KeepsA S z (execCanBusOffRecovery a1 a2) := by
  unfold execCanBusOffRecovery
  apply keeps_onUnit
  refine keeps_ite ?_ ?_
  · apply keeps_State_canErrors (w := w.of)
    assumption
  · assumption

theorem keeps_execCanLeaveBusOff (a1 : Path) (a2 : Nat) (a3 : State) (h3 : Keeps S z a3) (w : Sub [.objs, .sessions,
    .cmds, .irq, .jour, .fld] S) : KeepsA S z (execCanLeaveBusOff a1 a2 a3) := by
  unfold execCanLeaveBusOff
  apply keeps_onPath
  · assumption
  · apply keeps_State_commandNow (w := w.of)
    · assumption
    · intro x1
      intro k2
      refine keeps_ite ?_ ?_
      · apply keeps_State_canErrors (w := w.of)
        assumption
      · assumption

theorem keeps_State_uartErrors (a1 : State) (a2 : Nat) (a3 : Nat) (a4 : Nat) (a5 : Nat) (a6 : Nat) (h1 : Keeps S z a1)
    (w : Sub [.irq, .jour, .rates] S) : Keeps S z (State.uartErrors a1 a2 a3 a4 a5 a6) := by
  unfold State.uartErrors
  refine keeps_ite ?_ ?_
  · assumption
  · apply keeps_State_evRate (w := w.of)
    assumption

theorem keeps_State_updUart (a1 : State) (a2 : Nat) (a3 : Uart → Uart) (h1 : Keeps S z a1) (w : Sub [.fld] S) : Keeps
    S z (State.updUart a1 a2 a3) := by
  unfold State.updUart
  apply keeps_State_updFld (w := w.of)
  assumption

theorem keeps_State_uartRts (a1 : State) (a2 : Nat) (h1 : Keeps S z a1) (w : Sub [.sent, .fld] S) : Keeps S z
    (State.uartRts a1 a2) := by
  unfold State.uartRts
  extract_lets +onlyGivenNames y1
  clear_value y1
  refine keeps_ite ?_ ?_
  · assumption
  · apply keeps_State_send (w := w.of)
    apply keeps_State_updUart (w := w.of)
    assumption

theorem keeps_State_serialUnit (a1 : State) (a2 : Nat) (a3 : Nat × Nat × Bytes) (h1 : Keeps S z a1) (w : Sub [.fabric]
    S) : Keeps S z (State.serialUnit a1 a2 a3) := by
  unfold State.serialUnit
  apply keeps_State_fieldUnit (w := w.of)
  assumption

theorem keeps_State_uartSettle (a1 : State) (a2 : Nat) (h1 : Keeps S z a1) (w : Sub [.sent, .fabric, .fld] S) : Keeps
    S z (State.uartSettle a1 a2) := by
  unfold State.uartSettle
  extract_lets +onlyGivenNames y1
  have k1 : Keeps S z y1 := by
    unfold y1
    refine keeps_ite ?_ ?_
    · apply keeps_State_send (w := w.of)
      apply keeps_State_updUart (w := w.of)
      assumption
    · assumption
  clear_value y1
  extract_lets +onlyGivenNames y2
  have k2 : Keeps S z y2 := by
    unfold y2
    refine keeps_ite ?_ ?_
    · assumption
    · apply keeps_forAll
      · intro x3
        intro x4
        intro k5
        apply keeps_State_serialUnit (w := w.of)
        assumption
      · apply keeps_State_updUart (w := w.of)
        assumption
  clear_value y2
  refine keeps_ite ?_ ?_
  · apply keeps_State_uartRts (w := w.of)
    assumption
  · assumption

theorem keeps_execUartUnitClose (a1 : Nat) (a2 : Nat) (a3 : Nat) (a4 : Bytes) (a5 : State) (h5 : Keeps S z a5) (w :
    Sub [.irq, .jour, .rates, .sent, .fabric, .fld] S) : KeepsA S z (execUartUnitClose a1 a2 a3 a4 a5) := by
  unfold execUartUnitClose
  apply keeps_onPort
  · assumption
  · refine keeps_ite ?_ ?_
    · assumption
    · extract_lets +onlyGivenNames y1
      have k1 : Keeps S z y1 := by
        unfold y1
        apply keeps_State_uartSettle (w := w.of)
        assumption
      clear_value y1
      refine keeps_ite ?_ ?_
      · assumption
      · extract_lets +onlyGivenNames y2
        clear_value y2
        extract_lets +onlyGivenNames y3
        clear_value y3
        extract_lets +onlyGivenNames y4
        have k4 : Keeps S z y4 := by
          unfold y4
          apply keeps_State_uartErrors (w := w.of)
          assumption
        clear_value y4
        extract_lets +onlyGivenNames y5
        clear_value y5
        extract_lets +onlyGivenNames y6
        clear_value y6
        apply keeps_State_uartSettle (w := w.of)
        apply keeps_State_updUart (w := w.of)
        assumption

theorem keeps_execUartUnitTransmit (a1 : Nat) (a2 : Bool) (a3 : State) (h3 : Keeps S z a3) (w : Sub [.sent, .fabric,
    .fld] S) : KeepsA S z (execUartUnitTransmit a1 a2 a3) := by
  unfold execUartUnitTransmit
  apply keeps_onPort
  · assumption
  · extract_lets +onlyGivenNames y1
    have k1 : Keeps S z y1 := by
      unfold y1
      refine keeps_ite ?_ ?_
      · apply keeps_State_uartSettle (w := w.of)
        assumption
      · assumption
    clear_value y1
    extract_lets +onlyGivenNames y2
    clear_value y2
    extract_lets +onlyGivenNames y3
    clear_value y3
    split
    · assumption
    · extract_lets +onlyGivenNames y4
      clear_value y4
      refine keeps_ite ?_ ?_
      · assumption
      · extract_lets +onlyGivenNames y5
        have k5 : Keeps S z y5 := by
          unfold y5
          apply keeps_State_updFld (w := w.of)
          assumption
        clear_value y5
        extract_lets +onlyGivenNames y6
        clear_value y6
        refine keeps_ite ?_ ?_
        · apply keeps_State_send (w := w.of)
          apply keeps_State_send (w := w.of)
          apply keeps_State_updUart (w := w.of)
          assumption
        · apply keeps_State_send (w := w.of)
          apply keeps_State_updUart (w := w.of)
          assumption

theorem keeps_State_fieldNow (a1 : State) (a2 : Nat) (a3 : Bytes) (a4 : Bool) (h1 : Keeps S z a1) (w : Sub [.objs,
    .freeCount, .irq, .jour, .rates, .canOpen, .fabric, .fld] S) : Keeps S z (State.fieldNow a1 a2 a3 a4) := by
  unfold State.fieldNow
  extract_lets +onlyGivenNames y1
  clear_value y1
  refine keeps_ite ?_ ?_
  · assumption
  · refine keeps_ite ?_ ?_
    · apply keeps_State_updFld (w := w.of)
      assumption
    · refine keeps_ite ?_ ?_
      · extract_lets +onlyGivenNames y2
        clear_value y2
        refine keeps_ite ?_ ?_
        · apply keeps_State_canDrop (w := w.of)
          assumption
        · apply keeps_State_canSend (w := w.of)
          assumption
      · refine keeps_ite ?_ ?_
        · extract_lets +onlyGivenNames y3
          clear_value y3
          extract_lets +onlyGivenNames y4
          clear_value y4
          refine keeps_ite ?_ ?_
          · apply keeps_State_uartErrors (w := w.of)
            assumption
          · apply keeps_State_updFld (w := w.of)
            assumption
        · refine keeps_ite ?_ ?_
          · apply keeps_State_together (w := w.of)
            · assumption
            · intro x5
              intro k6
              apply keeps_forAll
              · intro x7
                intro x8
                intro k9
                apply keeps_State_recordSource (w := w.of)
                assumption
              · assumption
          · assumption

theorem keeps_State_fieldReady (a1 : State) (a2 : Nat) (h1 : Keeps S z a1) (w : Sub [.objs, .freeCount, .irq, .jour,
    .rates, .canOpen, .fabric, .fld] S) : Keeps S z (State.fieldReady a1 a2) := by
  unfold State.fieldReady
  extract_lets +onlyGivenNames y1
  clear_value y1
  refine keeps_ite ?_ ?_
  · assumption
  · extract_lets +onlyGivenNames y2
    have k2 : Keeps S z y2 := by
      unfold y2
      apply keeps_State_updFld (w := w.of)
      assumption
    clear_value y2
    apply keeps_forAll
    · intro x3
      intro x4
      intro k5
      apply keeps_State_fieldNow (w := w.of)
      assumption
    · assumption

theorem keeps_execFieldUnitReceived (a1 : Nat) (a2 : Bytes) (a3 : UnitMark) (a4 : State) (h4 : Keeps S z a4) (w : Sub
    [.objs, .freeCount, .irq, .jour, .rates, .canOpen, .fabric, .fld] S) : KeepsA S z (execFieldUnitReceived a1 a2 a3
    a4) := by
  unfold execFieldUnitReceived
  apply keeps_onUnit
  extract_lets +onlyGivenNames y1
  have k1 : Keeps S z y1 := by
    unfold y1
    apply keeps_State_fieldReady (w := w.of)
    assumption
  clear_value y1
  refine keeps_ite ?_ ?_
  · apply keeps_State_updFld (w := w.of)
    assumption
  · apply keeps_State_fieldNow (w := w.of)
    assumption

theorem keeps_execStaleTimeExpired (a1 : Nat) (a2 : State) (h2 : Keeps S z a2) (w : Sub [.objs, .irq, .jour, .rates,
    .canOpen, .fabric, .fld] S) : KeepsA S z (execStaleTimeExpired a1 a2) := by
  unfold execStaleTimeExpired
  apply keeps_onUnit
  refine keeps_ite ?_ ?_
  · apply keeps_State_mapStale (w := w.of)
    assumption
  · assumption

theorem keeps_execCanTxCycleTimer (a1 : Nat) (a2 : State) (h2 : Keeps S z a2) (w : Sub [.objs, .irq, .jour, .rates,
    .fld] S) : KeepsA S z (execCanTxCycleTimer a1 a2) := by
  unfold execCanTxCycleTimer
  extract_lets +onlyGivenNames y1
  clear_value y1
  apply keeps_onUnit
  refine keeps_ite ?_ ?_
  · apply keeps_State_canTrigger (w := w.of)
    apply keeps_State_updCanTx (w := w.of)
    assumption
  · assumption

theorem keeps_execCanTxInhibitEnd (a1 : Nat) (a2 : State) (h2 : Keeps S z a2) (w : Sub [.objs, .irq, .jour, .rates,
    .fld] S) : KeepsA S z (execCanTxInhibitEnd a1 a2) := by
  unfold execCanTxInhibitEnd
  apply keeps_onUnit
  refine keeps_ite ?_ ?_
  · apply keeps_State_canTxNow (w := w.of)
    assumption
  · assumption

theorem keeps_execGooseRepeatTimer (a1 : Nat) (a2 : State) (h2 : Keeps S z a2) (w : Sub [.objs, .irq, .jour, .rates,
    .fabric, .fld] S) : KeepsA S z (execGooseRepeatTimer a1 a2) := by
  unfold execGooseRepeatTimer
  extract_lets +onlyGivenNames y1
  clear_value y1
  apply keeps_onUnit
  refine keeps_ite ?_ ?_
  · apply keeps_State_goosePublish (w := w.of)
    assumption
  · assumption

theorem keeps_execGooseTalExpired (a1 : Nat) (a2 : State) (h2 : Keeps S z a2) (w : Sub [.objs, .irq, .jour, .rates,
    .canOpen, .fabric, .fld] S) : KeepsA S z (execGooseTalExpired a1 a2) := by
  unfold execGooseTalExpired
  extract_lets +onlyGivenNames y1
  clear_value y1
  apply keeps_onUnit
  refine keeps_ite ?_ ?_
  · extract_lets +onlyGivenNames y2
    have k2 : Keeps S z y2 := by
      unfold y2
      apply keeps_State_count (w := w.of)
      apply keeps_State_updGsub (w := w.of)
      assumption
    clear_value y2
    extract_lets +onlyGivenNames y3
    have k3 : Keeps S z y3 := by
      unfold y3
      apply keeps_State_ev (w := w.of)
      assumption
    clear_value y3
    refine keeps_ite ?_ ?_
    · apply keeps_State_together (w := w.of)
      · assumption
      · intro x4
        intro k5
        apply keeps_forAll
        · intro x6
          intro x7
          intro k8
          refine keeps_ite ?_ ?_
          · apply keeps_State_mapStale (w := w.of)
            assumption
          · assumption
        · assumption
    · assumption
  · assumption

theorem keeps_execSignalValueWrite (a1 : Path) (a2 : Nat) (a3 : Nat) (a4 : Nat) (a5 : State) (h5 : Keeps S z a5) (w :
    Sub [.objs, .sessions, .irq, .jour, .rates, .canOpen, .fabric, .fld] S) : KeepsA S z (execSignalValueWrite a1 a2
    a3 a4 a5) := by
  unfold execSignalValueWrite
  apply keeps_onPath
  · assumption
  · apply keeps_State_writeNum (w := w.of)
    · assumption
    · intro x1
      intro k2
      extract_lets +onlyGivenNames y3
      have k3 : Keeps S z y3 := by
        unfold y3
        apply keeps_State_setAll (w := w.of)
        assumption
      clear_value y3
      apply keeps_State_tpdoCheck (w := w.of)
      refine keeps_ite ?_ ?_
      · apply keeps_State_mapPack (w := w.of)
        assumption
      · assumption

theorem keeps_execJournalClear (a1 : Path) (a2 : State) (h2 : Keeps S z a2) (w : Sub [.objs, .sessions, .cmds, .irq,
    .jour, .pl] S) : KeepsA S z (execJournalClear a1 a2) := by
  unfold execJournalClear
  apply keeps_onPath
  · assumption
  · apply keeps_State_commandNow (w := w.of)
    · assumption
    · intro x1
      intro k2
      apply keeps_State_clearJournal (w := w.of)
      assumption

theorem keeps_execJournalEntryRead (a1 : Path) (a2 : State) (h2 : Keeps S z a2) (w : Sub [.objs, .sessions, .irq,
    .jour, .sent] S) : KeepsA S z (execJournalEntryRead a1 a2) := by
  unfold execJournalEntryRead
  apply keeps_onPath
  · assumption
  · refine keeps_ite ?_ ?_
    · split
      apply keeps_State_answer (w := w.of)
      apply keeps_State_touch (w := w.of)
      refine keeps_pair (by assumption) ?_
      apply keeps_State_takeEntry (w := w.of)
      assumption
    · assumption

theorem keeps_execRemoteEntryRead (a1 : Path) (a2 : Nat) (a3 : State) (h3 : Keeps S z a3) (w : Sub [.objs, .sessions,
    .irq, .jour, .sent] S) : KeepsA S z (execRemoteEntryRead a1 a2 a3) := by
  unfold execRemoteEntryRead
  apply keeps_onPath
  · assumption
  · refine keeps_ite ?_ ?_
    · assumption
    · extract_lets +onlyGivenNames y1
      clear_value y1
      split
      · apply keeps_State_answer (w := w.of)
        apply keeps_State_violate (w := w.of)
        apply keeps_State_touch (w := w.of)
        assumption
      · split
        apply keeps_State_answer (w := w.of)
        apply keeps_State_touch (w := w.of)
        refine keeps_pair (by assumption) ?_
        apply keeps_State_takeRemote (w := w.of)
        assumption

theorem keeps_execJournalPushCellReceived (a1 : Nat) (a2 : Bytes) (a3 : State) (h3 : Keeps S z a3) (w : Sub [.objs,
    .fabric, .pl] S) : KeepsA S z (execJournalPushCellReceived a1 a2 a3) := by
  unfold execJournalPushCellReceived
  apply keeps_onPort
  · assumption
  · refine keeps_ite ?_ ?_
    · extract_lets +onlyGivenNames y1
      have k1 : Keeps S z y1 := by
        unfold y1
        apply keeps_forAll
        · intro x2
          intro x3
          intro k4
          apply keeps_State_pushStore (w := w.of)
          assumption
        · assumption
      clear_value y1
      extract_lets +onlyGivenNames y5
      clear_value y5
      apply keeps_State_emit (w := w.of)
      assumption
    · assumption

theorem keeps_execJournalAckReceived (a1 : Nat) (a2 : Nat) (a3 : State) (h3 : Keeps S z a3) (w : Sub [.objs, .pl] S) :
    KeepsA S z (execJournalAckReceived a1 a2 a3) := by
  unfold execJournalAckReceived
  apply keeps_onPort
  · assumption
  · refine keeps_ite ?_ ?_
    · extract_lets +onlyGivenNames y1
      clear_value y1
      extract_lets +onlyGivenNames y2
      clear_value y2
      apply keeps_State_updPl (w := w.of)
      apply keeps_State_set (w := w.of)
      assumption
    · assumption

theorem keeps_execJournalPushRetransmit (a1 : Nat) (a2 : State) (h2 : Keeps S z a2) (w : Sub [.fabric, .pl] S) :
    KeepsA S z (execJournalPushRetransmit a1 a2) := by
  unfold execJournalPushRetransmit
  apply keeps_onPort
  · assumption
  · refine keeps_ite ?_ ?_
    · extract_lets +onlyGivenNames y1
      clear_value y1
      apply keeps_forAll
      · intro x2
        intro x3
        intro k4
        apply keeps_State_pushAgain (w := w.of)
        assumption
      · assumption
    · assumption

theorem keeps_execRateLimitPeriodEnd (a1 : Nat) (a2 : Nat) (a3 : State) (h3 : Keeps S z a3) (w : Sub [.objs, .irq,
    .jour, .rates, .power] S) : KeepsA S z (execRateLimitPeriodEnd a1 a2 a3) := by
  unfold execRateLimitPeriodEnd
  extract_lets +onlyGivenNames y1
  have k1 : Keeps S z y1 := by
    unfold y1
    refine keeps_ite ?_ ?_
    · apply keeps_State_turnsEnd (w := w.of)
      assumption
    · assumption
  clear_value y1
  refine keeps_next ?_
  apply keeps_forAll
  · intro x2
    intro x3
    intro k4
    refine keeps_ite ?_ ?_
    · extract_lets +onlyGivenNames y5
      have k5 : Keeps S z y5 := by
        unfold y5
        apply keeps_State_rateEnd (w := w.of)
        assumption
      clear_value y5
      refine keeps_ite ?_ ?_
      · apply keeps_State_sharedGone (w := w.of)
        assumption
      · assumption
    · assumption
  · assumption

theorem keeps_execTypecAttach (a1 : Bool) (a2 : Nat) (a3 : CcSeen) (a4 : State) (h4 : Keeps S z a4) (w : Sub [.objs,
    .timers, .irq, .jour, .sent, .pd, .power] S) : KeepsA S z (execTypecAttach a1 a2 a3 a4) := by
  unfold execTypecAttach
  refine keeps_next ?_
  extract_lets +onlyGivenNames y1
  clear_value y1
  extract_lets +onlyGivenNames y2
  clear_value y2
  refine keeps_ite ?_ ?_
  · apply keeps_State_partnerLevel (w := w.of)
    assumption
  · refine keeps_ite ?_ ?_
    · refine keeps_ite ?_ ?_
      · refine keeps_ite ?_ ?_
        · apply keeps_State_set (w := w.of)
          apply keeps_State_start (w := w.of)
          apply keeps_State_stop (w := w.of)
          assumption
        · assumption
      · refine keeps_ite ?_ ?_
        · assumption
        · extract_lets +onlyGivenNames y3
          have k3 : Keeps S z y3 := by
            unfold y3
            apply keeps_State_stopAll (w := w.of)
            assumption
          clear_value y3
          refine keeps_ite ?_ ?_
          · apply keeps_State_start (w := w.of)
            apply keeps_State_send (w := w.of)
            apply keeps_State_setAll (w := w.of)
            assumption
          · apply keeps_State_attachAs (w := w.of)
            assumption
    · assumption

theorem keeps_execTypecDetach (a1 : State) (h1 : Keeps S z a1) (w : Sub [.objs, .timers, .irq, .jour, .sent, .pd,
    .power] S) : KeepsA S z (execTypecDetach a1) := by
  unfold execTypecDetach
  refine keeps_next ?_
  refine keeps_ite ?_ ?_
  · extract_lets +onlyGivenNames y1
    clear_value y1
    extract_lets +onlyGivenNames y2
    have k2 : Keeps S z y2 := by
      unfold y2
      refine keeps_ite ?_ ?_
      · apply keeps_State_pdEv (w := w.of)
        assumption
      · assumption
    clear_value y2
    extract_lets +onlyGivenNames y3
    have k3 : Keeps S z y3 := by
      unfold y3
      refine keeps_ite ?_ ?_
      · apply keeps_State_discharging (w := w.of)
        apply keeps_State_vsel (w := w.of)
        assumption
      · assumption
    clear_value y3
    apply keeps_State_terminate (w := w.of)
    apply keeps_State_set (w := w.of)
    apply keeps_State_unattach (w := w.of)
    assumption
  · assumption

theorem keeps_execDrpToggleTimer (a1 : State) (h1 : Keeps S z a1) (w : Sub [.timers, .sent, .pd] S) : KeepsA S z
    (execDrpToggleTimer a1) := by
  unfold execDrpToggleTimer
  refine keeps_next ?_
  refine keeps_ite ?_ ?_
  · extract_lets +onlyGivenNames y1
    clear_value y1
    apply keeps_State_start (w := w.of)
    apply keeps_State_send (w := w.of)
    apply keeps_State_updPd (w := w.of)
    assumption
  · assumption

theorem keeps_execTrySnkTimeout (a1 : State) (h1 : Keeps S z a1) (w : Sub [.objs, .timers, .sent] S) : KeepsA S z
    (execTrySnkTimeout a1) := by
  unfold execTrySnkTimeout
  refine keeps_next ?_
  refine keeps_ite ?_ ?_
  · apply keeps_State_presentRp (w := w.of)
    apply keeps_State_set (w := w.of)
    apply keeps_State_stop (w := w.of)
    assumption
  · assumption

theorem keeps_execErrorRecoveryEnd (a1 : State) (h1 : Keeps S z a1) (w : Sub [.objs, .timers, .sent, .pd] S) : KeepsA
    S z (execErrorRecoveryEnd a1) := by
  unfold execErrorRecoveryEnd
  refine keeps_next ?_
  refine keeps_ite ?_ ?_
  · apply keeps_State_terminate (w := w.of)
    apply keeps_State_set (w := w.of)
    apply keeps_State_stop (w := w.of)
    assumption
  · assumption

theorem keeps_execRaDetected (a1 : State) (h1 : Keeps S z a1) (w : Sub [.objs, .sent, .pd] S) : KeepsA S z
    (execRaDetected a1) := by
  unfold execRaDetected
  refine keeps_next ?_
  refine keeps_ite ?_ ?_
  · extract_lets +onlyGivenNames y1
    have k1 : Keeps S z y1 := by
      unfold y1
      apply keeps_State_updPd (w := w.of)
      assumption
    clear_value y1
    refine keeps_ite ?_ ?_
    · apply keeps_State_vconn (w := w.of)
      assumption
    · assumption
  · assumption

theorem keeps_State_pdTake (a1 : State) (a2 : Nat) (a3 : State → State) (h1 : Keeps S z a1) (h3 : ∀ x0, Keeps S z x0 →
    Keeps S z (a3 x0)) (w : Sub [.objs, .timers, .irq, .jour, .sent, .pd] S) : Keeps S z (State.pdTake a1 a2 a3) := by
  unfold State.pdTake
  refine keeps_ite ?_ ?_
  · assumption
  · extract_lets +onlyGivenNames y1
    have k1 : Keeps S z y1 := by
      unfold y1
      apply keeps_State_send (w := w.of)
      assumption
    clear_value y1
    refine keeps_ite ?_ ?_
    · assumption
    · apply h3
      apply keeps_State_heard (w := w.of)
      apply keeps_State_updPd (w := w.of)
      assumption

theorem keeps_State_revision (a1 : State) (a2 : Nat) (h1 : Keeps S z a1) (w : Sub [.objs] S) : Keeps S z
    (State.revision a1 a2) := by
  unfold State.revision
  apply keeps_State_set (w := w.of)
  assumption

theorem keeps_State_notSupported (a1 : State) (h1 : Keeps S z a1) (w : Sub [.timers, .sent, .pd] S) : Keeps S z
    (State.notSupported a1) := by
  unfold State.notSupported
  apply keeps_State_pdSend (w := w.of)
  assumption

theorem keeps_execPdSourceCapabilities (a1 : Nat) (a2 : Nat) (a3 : List Nat) (a4 : State) (h4 : Keeps S z a4) (w : Sub
    [.objs, .timers, .irq, .jour, .sent, .pd] S) : KeepsA S z (execPdSourceCapabilities a1 a2 a3 a4) := by
  unfold execPdSourceCapabilities
  refine keeps_next ?_
  apply keeps_State_pdTake (w := w.of)
  · assumption
  · intro x1
    intro k2
    refine keeps_ite ?_ ?_
    · apply keeps_State_notSupported (w := w.of)
      assumption
    · extract_lets +onlyGivenNames y3
      have k3 : Keeps S z y3 := by
        unfold y3
        apply keeps_State_updPd (w := w.of)
        apply keeps_State_revision (w := w.of)
        assumption
      clear_value y3
      extract_lets +onlyGivenNames y4
      have k4 : Keeps S z y4 := by
        unfold y4
        apply keeps_State_setAll (w := w.of)
        assumption
      clear_value y4
      apply keeps_State_sendRequest (w := w.of)
      assumption

theorem keeps_execPdRequest (a1 : Nat) (a2 : Nat) (a3 : Nat) (a4 : State) (h4 : Keeps S z a4) (w : Sub [.objs,
    .timers, .irq, .jour, .sent, .pd] S) : KeepsA S z (execPdRequest a1 a2 a3 a4) := by
  unfold execPdRequest
  refine keeps_next ?_
  apply keeps_State_pdTake (w := w.of)
  · assumption
  · intro x1
    intro k2
    refine keeps_ite ?_ ?_
    · apply keeps_State_notSupported (w := w.of)
      assumption
    · extract_lets +onlyGivenNames y3
      have k3 : Keeps S z y3 := by
        unfold y3
        apply keeps_State_revision (w := w.of)
        assumption
      clear_value y3
      extract_lets +onlyGivenNames y4
      clear_value y4
      extract_lets +onlyGivenNames y5
      clear_value y5
      extract_lets +onlyGivenNames y6
      clear_value y6
      refine keeps_ite ?_ ?_
      · extract_lets +onlyGivenNames y7
        have k7 : Keeps S z y7 := by
          unfold y7
          apply keeps_State_set (w := w.of)
          apply keeps_State_pdSend (w := w.of)
          assumption
        clear_value y7
        extract_lets +onlyGivenNames y8
        have k8 : Keeps S z y8 := by
          unfold y8
          apply keeps_State_updPd (w := w.of)
          assumption
        clear_value y8
        apply keeps_State_start (w := w.of)
        apply keeps_State_start (w := w.of)
        assumption
      · apply keeps_State_readyRp (w := w.of)
        apply keeps_State_pdSend (w := w.of)
        assumption

theorem keeps_execPdAccept (a1 : Nat) (a2 : State) (h2 : Keeps S z a2) (w : Sub [.objs, .timers, .irq, .jour, .sent,
    .pd] S) : KeepsA S z (execPdAccept a1 a2) := by
  unfold execPdAccept
  refine keeps_next ?_
  apply keeps_State_pdTake (w := w.of)
  · assumption
  · intro x1
    intro k2
    extract_lets +onlyGivenNames y3
    clear_value y3
    refine keeps_ite ?_ ?_
    · apply keeps_State_updPd (w := w.of)
      assumption
    · split
      · extract_lets +onlyGivenNames y4
        clear_value y4
        extract_lets +onlyGivenNames y5
        have k5 : Keeps S z y5 := by
          unfold y5
          apply keeps_State_set (w := w.of)
          apply keeps_State_stop (w := w.of)
          assumption
        clear_value y5
        apply keeps_State_start (w := w.of)
        apply keeps_State_updPd (w := w.of)
        assumption
      · refine keeps_ite ?_ ?_
        · assumption
        · refine keeps_ite ?_ ?_
          · apply keeps_State_swapRoles (w := w.of)
            apply keeps_State_updPd (w := w.of)
            assumption
          · extract_lets +onlyGivenNames y6
            have k6 : Keeps S z y6 := by
              unfold y6
              apply keeps_State_stop (w := w.of)
              apply keeps_State_updPd (w := w.of)
              assumption
            clear_value y6
            refine keeps_ite ?_ ?_
            · assumption
            · apply keeps_State_swapEnd (w := w.of)
              apply keeps_State_pdSend (w := w.of)
              apply keeps_State_vconn (w := w.of)
              assumption

theorem keeps_execPdReject (a1 : Nat) (a2 : Bool) (a3 : State) (h3 : Keeps S z a3) (w : Sub [.objs, .timers, .irq,
    .jour, .sent, .pd] S) : KeepsA S z (execPdReject a1 a2 a3) := by
  unfold execPdReject
  refine keeps_next ?_
  apply keeps_State_pdTake (w := w.of)
  · assumption
  · intro x1
    intro k2
    extract_lets +onlyGivenNames y3
    clear_value y3
    split
    · apply keeps_State_requestDone (w := w.of)
      apply keeps_State_updPd (w := w.of)
      apply keeps_State_stop (w := w.of)
      assumption
    · refine keeps_ite ?_ ?_
      · apply keeps_State_swapEnd (w := w.of)
        apply keeps_State_stop (w := w.of)
        apply keeps_State_updPd (w := w.of)
        assumption
      · refine keeps_ite ?_ ?_
        · apply keeps_State_swapEnd (w := w.of)
          assumption
        · assumption

theorem keeps_execPdWait (a1 : Nat) (a2 : State) (h2 : Keeps S z a2) (w : Sub [.objs, .timers, .irq, .jour, .sent,
    .pd] S) : KeepsA S z (execPdWait a1 a2) := by
  unfold execPdWait
  refine keeps_next ?_
  apply keeps_State_pdTake (w := w.of)
  · assumption
  · intro x1
    intro k2
    split
    · apply keeps_State_start (w := w.of)
      apply keeps_State_stop (w := w.of)
      assumption
    · refine keeps_ite ?_ ?_
      · extract_lets +onlyGivenNames y3
        clear_value y3
        extract_lets +onlyGivenNames y4
        have k4 : Keeps S z y4 := by
          unfold y4
          apply keeps_State_swapEnd (w := w.of)
          assumption
        clear_value y4
        refine keeps_ite ?_ ?_
        · apply keeps_State_start (w := w.of)
          apply keeps_State_updPd (w := w.of)
          assumption
        · assumption
      · assumption

theorem keeps_execPdPsRdy (a1 : Nat) (a2 : State) (h2 : Keeps S z a2) (w : Sub [.objs, .timers, .irq, .jour, .sent,
    .pd] S) : KeepsA S z (execPdPsRdy a1 a2) := by
  unfold execPdPsRdy
  refine keeps_next ?_
  apply keeps_State_pdTake (w := w.of)
  · assumption
  · intro x1
    intro k2
    refine keeps_ite ?_ ?_
    · apply keeps_State_swapEnd (w := w.of)
      apply keeps_State_vconn (w := w.of)
      assumption
    · split
      · refine keeps_ite ?_ ?_
        · apply keeps_State_requestDone (w := w.of)
          apply keeps_State_contract (w := w.of)
          assumption
        · assumption
      · assumption

theorem keeps_execPdGetSourceCap (a1 : Nat) (a2 : State) (h2 : Keeps S z a2) (w : Sub [.objs, .timers, .irq, .jour,
    .sent, .pd] S) : KeepsA S z (execPdGetSourceCap a1 a2) := by
  unfold execPdGetSourceCap
  refine keeps_next ?_
  apply keeps_State_pdTake (w := w.of)
  · assumption
  · intro x1
    intro k2
    refine keeps_ite ?_ ?_
    · apply keeps_State_sendCaps (w := w.of)
      assumption
    · apply keeps_State_notSupported (w := w.of)
      assumption

theorem keeps_execPdGetSinkCap (a1 : Nat) (a2 : State) (h2 : Keeps S z a2) (w : Sub [.objs, .timers, .irq, .jour,
    .sent, .pd] S) : KeepsA S z (execPdGetSinkCap a1 a2) := by
  unfold execPdGetSinkCap
  refine keeps_next ?_
  apply keeps_State_pdTake (w := w.of)
  · assumption
  · intro x1
    intro k2
    apply keeps_State_pdSend (w := w.of)
    assumption

theorem keeps_State_crossed (a1 : State) (h1 : Keeps S z a1) (w : Sub [.objs, .timers, .irq, .jour, .sent, .pd] S) :
    Keeps S z (State.crossed a1) := by
  unfold State.crossed
  refine keeps_ite ?_ ?_
  · apply keeps_State_swapEnd (w := w.of)
    assumption
  · assumption

theorem keeps_execPdDrSwap (a1 : Nat) (a2 : State) (h2 : Keeps S z a2) (w : Sub [.objs, .timers, .irq, .jour, .sent,
    .pd] S) : KeepsA S z (execPdDrSwap a1 a2) := by
  unfold execPdDrSwap
  refine keeps_next ?_
  apply keeps_State_pdTake (w := w.of)
  · assumption
  · intro x1
    intro k2
    extract_lets +onlyGivenNames y3
    have k3 : Keeps S z y3 := by
      unfold y3
      apply keeps_State_crossed (w := w.of)
      assumption
    clear_value y3
    extract_lets +onlyGivenNames y4
    clear_value y4
    refine keeps_ite ?_ ?_
    · apply keeps_State_notSupported (w := w.of)
      assumption
    · refine keeps_ite ?_ ?_
      · apply keeps_State_pdSend (w := w.of)
        assumption
      · refine keeps_ite ?_ ?_
        · apply keeps_State_swapRoles (w := w.of)
          apply keeps_State_updPd (w := w.of)
          apply keeps_State_pdSend (w := w.of)
          assumption
        · apply keeps_State_pdSend (w := w.of)
          assumption

theorem keeps_execPdVconnSwap (a1 : Nat) (a2 : State) (h2 : Keeps S z a2) (w : Sub [.objs, .timers, .irq, .jour,
    .sent, .pd] S) : KeepsA S z (execPdVconnSwap a1 a2) := by
  unfold execPdVconnSwap
  refine keeps_next ?_
  apply keeps_State_pdTake (w := w.of)
  · assumption
  · intro x1
    intro k2
    extract_lets +onlyGivenNames y3
    have k3 : Keeps S z y3 := by
      unfold y3
      apply keeps_State_crossed (w := w.of)
      assumption
    clear_value y3
    refine keeps_ite ?_ ?_
    · apply keeps_State_pdSend (w := w.of)
      assumption
    · refine keeps_ite ?_ ?_
      · extract_lets +onlyGivenNames y4
        have k4 : Keeps S z y4 := by
          unfold y4
          apply keeps_State_updPd (w := w.of)
          apply keeps_State_pdSend (w := w.of)
          assumption
        clear_value y4
        refine keeps_ite ?_ ?_
        · assumption
        · apply keeps_State_swapEnd (w := w.of)
          apply keeps_State_pdSend (w := w.of)
          apply keeps_State_vconn (w := w.of)
          assumption
      · apply keeps_State_pdSend (w := w.of)
        assumption

theorem keeps_execPdSoftReset (a1 : Nat) (a2 : State) (h2 : Keeps S z a2) (w : Sub [.objs, .timers, .irq, .jour,
    .sent, .pd] S) : KeepsA S z (execPdSoftReset a1 a2) := by
  unfold execPdSoftReset
  refine keeps_next ?_
  refine keeps_ite ?_ ?_
  · extract_lets +onlyGivenNames y1
    have k1 : Keeps S z y1 := by
      unfold y1
      apply keeps_State_send (w := w.of)
      assumption
    clear_value y1
    extract_lets +onlyGivenNames y2
    have k2 : Keeps S z y2 := by
      unfold y2
      apply keeps_State_pdSend (w := w.of)
      apply keeps_State_updPd (w := w.of)
      apply keeps_State_pdRestart (w := w.of)
      assumption
    clear_value y2
    refine keeps_ite ?_ ?_
    · apply keeps_State_start (w := w.of)
      assumption
    · assumption
  · assumption

theorem keeps_execPdHardReset (a1 : State) (h1 : Keeps S z a1) (w : Sub [.objs, .timers, .irq, .jour, .sent, .pd] S) :
    KeepsA S z (execPdHardReset a1) := by
  unfold execPdHardReset
  refine keeps_next ?_
  refine keeps_ite ?_ ?_
  · apply keeps_State_hardReset (w := w.of)
    assumption
  · assumption

theorem keeps_execPdDiscoverIdentity (a1 : VdmIn) (a2 : State) (h2 : Keeps S z a2) (w : Sub [.objs, .timers, .irq,
    .jour, .sent, .pd] S) : KeepsA S z (execPdDiscoverIdentity a1 a2) := by
  unfold execPdDiscoverIdentity
  refine keeps_next ?_
  apply keeps_State_pdTake (w := w.of)
  · assumption
  · intro x1
    intro k2
    refine keeps_ite ?_ ?_
    · apply keeps_State_pdSend (w := w.of)
      assumption
    · refine keeps_ite ?_ ?_
      · assumption
      · refine keeps_ite ?_ ?_
        · apply keeps_State_pdSend (w := w.of)
          assumption
        · apply keeps_State_pdSend (w := w.of)
          assumption

theorem keeps_execPdPrSwap (a1 : Nat) (a2 : State) (h2 : Keeps S z a2) (w : Sub [.objs, .timers, .irq, .jour, .sent,
    .pd] S) : KeepsA S z (execPdPrSwap a1 a2) := by
  unfold execPdPrSwap
  refine keeps_next ?_
  apply keeps_State_pdTake (w := w.of)
  · assumption
  · intro x1
    intro k2
    apply keeps_State_notSupported (w := w.of)
    assumption

theorem keeps_execPdExtendedMessage (a1 : Nat) (a2 : State) (h2 : Keeps S z a2) (w : Sub [.objs, .timers, .irq, .jour,
    .sent, .pd] S) : KeepsA S z (execPdExtendedMessage a1 a2) := by
  unfold execPdExtendedMessage
  refine keeps_next ?_
  apply keeps_State_pdTake (w := w.of)
  · assumption
  · intro x1
    intro k2
    apply keeps_State_pdSend (w := w.of)
    assumption

theorem keeps_execPdBist (a1 : Nat) (a2 : Bool) (a3 : State) (h3 : Keeps S z a3) (w : Sub [.objs, .timers, .irq,
    .jour, .sent, .pd] S) : KeepsA S z (execPdBist a1 a2 a3) := by
  unfold execPdBist
  refine keeps_next ?_
  apply keeps_State_pdTake (w := w.of)
  · assumption
  · intro x1
    intro k2
    apply keeps_State_send (w := w.of)
    assumption

theorem keeps_execPdGoodcrcTimeout (a1 : State) (h1 : Keeps S z a1) (w : Sub [.objs, .timers, .irq, .jour, .sent, .pd]
    S) : KeepsA S z (execPdGoodcrcTimeout a1) := by
  unfold execPdGoodcrcTimeout
  refine keeps_next ?_
  split
  · assumption
  · refine keeps_ite ?_ ?_
    · assumption
    · extract_lets +onlyGivenNames y1
      clear_value y1
      refine keeps_ite ?_ ?_
      · apply keeps_State_start (w := w.of)
        apply keeps_State_send (w := w.of)
        apply keeps_State_updPd (w := w.of)
        assumption
      · extract_lets +onlyGivenNames y2
        have k2 : Keeps S z y2 := by
          unfold y2
          apply keeps_State_pdEv (w := w.of)
          apply keeps_State_count (w := w.of)
          assumption
        clear_value y2
        extract_lets +onlyGivenNames y3
        have k3 : Keeps S z y3 := by
          unfold y3
          apply keeps_State_crcOver (w := w.of)
          assumption
        clear_value y3
        split
        · apply keeps_State_pdNext (w := w.of)
          apply keeps_State_pdDone (w := w.of)
          apply keeps_State_start (w := w.of)
          apply keeps_State_updPd (w := w.of)
          assumption
        · apply keeps_State_hardReset (w := w.of)
          assumption
        · apply keeps_State_hardReset (w := w.of)
          assumption
        · apply keeps_State_pdNext (w := w.of)
          apply keeps_State_swapEnd (w := w.of)
          assumption
        · apply keeps_State_pdNext (w := w.of)
          apply keeps_State_swapEnd (w := w.of)
          assumption
        · apply keeps_State_pdSend (w := w.of)
          apply keeps_State_updPd (w := w.of)
          apply keeps_State_pdRestart (w := w.of)
          assumption

theorem keeps_execFirstSourceCapTimer (a1 : State) (h1 : Keeps S z a1) (w : Sub [.timers, .irq, .jour, .sent, .pd] S)
    : KeepsA S z (execFirstSourceCapTimer a1) := by
  unfold execFirstSourceCapTimer
  refine keeps_next ?_
  refine keeps_ite ?_ ?_
  · apply keeps_State_sendCaps (w := w.of)
    apply keeps_State_updPd (w := w.of)
    apply keeps_State_stop (w := w.of)
    assumption
  · assumption

theorem keeps_execSourceCapRepeat (a1 : State) (h1 : Keeps S z a1) (w : Sub [.timers, .irq, .jour, .sent, .pd] S) :
    KeepsA S z (execSourceCapRepeat a1) := by
  unfold execSourceCapRepeat
  refine keeps_next ?_
  refine keeps_ite ?_ ?_
  · apply keeps_State_sendCaps (w := w.of)
    apply keeps_State_stop (w := w.of)
    assumption
  · assumption

theorem keeps_execSrcTransitionExpired (a1 : State) (h1 : Keeps S z a1) (w : Sub [.timers, .sent] S) : KeepsA S z
    (execSrcTransitionExpired a1) := by
  unfold execSrcTransitionExpired
  refine keeps_next ?_
  split
  · refine keeps_ite ?_ ?_
    · apply keeps_State_vsel (w := w.of)
      apply keeps_State_stop (w := w.of)
      assumption
    · assumption
  · assumption

theorem keeps_execVbusSettled (a1 : List Nat) (a2 : State) (h2 : Keeps S z a2) (w : Sub [.objs, .timers, .irq, .jour,
    .sent, .pd] S) : KeepsA S z (execVbusSettled a1 a2) := by
  unfold execVbusSettled
  refine keeps_next ?_
  refine keeps_ite ?_ ?_
  · apply keeps_State_updPd (w := w.of)
    assumption
  · split
    · refine keeps_ite ?_ ?_
      · extract_lets +onlyGivenNames y1
        have k1 : Keeps S z y1 := by
          unfold y1
          apply keeps_State_contract (w := w.of)
          apply keeps_State_pdSend (w := w.of)
          assumption
        clear_value y1
        extract_lets +onlyGivenNames y2
        have k2 : Keeps S z y2 := by
          unfold y2
          apply keeps_State_pdSend (w := w.of)
          apply keeps_State_updPd (w := w.of)
          assumption
        clear_value y2
        refine keeps_ite ?_ ?_
        · apply keeps_State_sendCaps (w := w.of)
          assumption
        · apply keeps_State_autoUfp (w := w.of)
          assumption
      · assumption
    · assumption

theorem keeps_execPsTransitionSrcTimeout (a1 : Nat) (a2 : State) (h2 : Keeps S z a2) (w : Sub [.objs, .timers, .irq,
    .jour, .sent, .pd] S) : KeepsA S z (execPsTransitionSrcTimeout a1 a2) := by
  unfold execPsTransitionSrcTimeout
  refine keeps_next ?_
  split
  · refine keeps_ite ?_ ?_
    · apply keeps_State_hardReset (w := w.of)
      apply keeps_State_pdEv (w := w.of)
      assumption
    · assumption
  · assumption

theorem keeps_execPsTransitionTimeout (a1 : State) (h1 : Keeps S z a1) (w : Sub [.objs, .timers, .irq, .jour, .sent,
    .pd] S) : KeepsA S z (execPsTransitionTimeout a1) := by
  unfold execPsTransitionTimeout
  refine keeps_next ?_
  refine keeps_ite ?_ ?_
  · apply keeps_State_hardReset (w := w.of)
    assumption
  · assumption

theorem keeps_execSenderResponseTimeout (a1 : State) (h1 : Keeps S z a1) (w : Sub [.objs, .timers, .irq, .jour, .sent,
    .pd] S) : KeepsA S z (execSenderResponseTimeout a1) := by
  unfold execSenderResponseTimeout
  refine keeps_next ?_
  refine keeps_ite ?_ ?_
  · extract_lets +onlyGivenNames y1
    have k1 : Keeps S z y1 := by
      unfold y1
      apply keeps_State_updPd (w := w.of)
      apply keeps_State_stop (w := w.of)
      assumption
    clear_value y1
    refine keeps_ite ?_ ?_
    · apply keeps_State_askSwap (w := w.of)
      apply keeps_State_updPd (w := w.of)
      assumption
    · assumption
  · refine keeps_ite ?_ ?_
    · extract_lets +onlyGivenNames y2
      have k2 : Keeps S z y2 := by
        unfold y2
        apply keeps_State_stop (w := w.of)
        assumption
      clear_value y2
      refine keeps_ite ?_ ?_
      · apply keeps_State_hardReset (w := w.of)
        apply keeps_State_requestDone (w := w.of)
        assumption
      · refine keeps_ite ?_ ?_
        · apply keeps_State_swapEnd (w := w.of)
          assumption
        · assumption
    · assumption

theorem keeps_execSinkRequestRetry (a1 : State) (h1 : Keeps S z a1) (w : Sub [.objs, .timers, .irq, .jour, .sent, .pd]
    S) : KeepsA S z (execSinkRequestRetry a1) := by
  unfold execSinkRequestRetry
  refine keeps_next ?_
  split
  · refine keeps_ite ?_ ?_
    · apply keeps_State_sendRequest (w := w.of)
      apply keeps_State_stop (w := w.of)
      assumption
    · assumption
  · assumption

theorem keeps_execSvcVbusOvervoltage (a1 : Nat) (a2 : Nat) (a3 : Int) (a4 : State) (h4 : Keeps S z a4) (w : Sub
    [.objs, .timers, .irq, .jour, .sent, .pd, .power] S) : KeepsA S z (execSvcVbusOvervoltage a1 a2 a3 a4) := by
  unfold execSvcVbusOvervoltage
  refine keeps_next ?_
  refine keeps_ite ?_ ?_
  · refine keeps_ite ?_ ?_
    · extract_lets +onlyGivenNames y1
      have k1 : Keeps S z y1 := by
        unfold y1
        apply keeps_State_discharging (w := w.of)
        apply keeps_State_trip (w := w.of)
        apply keeps_State_protect (w := w.of)
        assumption
      clear_value y1
      apply keeps_State_errorRecovery (w := w.of)
      assumption
    · refine keeps_ite ?_ ?_
      · apply keeps_State_errorRecovery (w := w.of)
        apply keeps_State_protect (w := w.of)
        assumption
      · assumption
  · assumption

theorem keeps_execSvcCcOvervoltage (a1 : Nat) (a2 : State) (h2 : Keeps S z a2) (w : Sub [.objs, .timers, .irq, .jour,
    .sent, .pd, .power] S) : KeepsA S z (execSvcCcOvervoltage a1 a2) := by
  unfold execSvcCcOvervoltage
  refine keeps_next ?_
  refine keeps_ite ?_ ?_
  · apply keeps_State_errorRecovery (w := w.of)
    apply keeps_State_vconn (w := w.of)
    apply keeps_State_protect (w := w.of)
    assumption
  · assumption

theorem keeps_execVconnOvercurrent (a1 : Nat) (a2 : State) (h2 : Keeps S z a2) (w : Sub [.objs, .irq, .jour, .sent,
    .pd] S) : KeepsA S z (execVconnOvercurrent a1 a2) := by
  unfold execVconnOvercurrent
  refine keeps_next ?_
  refine keeps_ite ?_ ?_
  · apply keeps_State_updPd (w := w.of)
    apply keeps_State_vconn (w := w.of)
    apply keeps_State_protect (w := w.of)
    assumption
  · assumption

theorem keeps_State_pdCommand (a1 : State) (a2 : Path) (a3 : Nat) (a4 : Nat) (a5 : List Nat) (a6 : State → State) (h1
    : Keeps S z a1) (h6 : ∀ x0, Keeps S z x0 → Keeps S z (a6 x0)) (w : Sub [.objs, .sessions, .cmds, .irq, .jour] S) :
    Keeps S z (State.pdCommand a1 a2 a3 a4 a5 a6) := by
  unfold State.pdCommand
  apply keeps_State_command (w := w.of)
  · assumption
  · exact h6

theorem keeps_execPdCmdDrSwap (a1 : Path) (a2 : State) (h2 : Keeps S z a2) (w : Sub [.objs, .timers, .sessions, .cmds,
    .irq, .jour, .sent, .pd] S) : KeepsA S z (execPdCmdDrSwap a1 a2) := by
  unfold execPdCmdDrSwap
  apply keeps_onPath
  · assumption
  · apply keeps_State_pdCommand (w := w.of)
    · assumption
    · intro x1
      intro k2
      apply keeps_State_askSwap (w := w.of)
      assumption

theorem keeps_execPdCmdVconnSwap (a1 : Path) (a2 : State) (h2 : Keeps S z a2) (w : Sub [.objs, .timers, .sessions,
    .cmds, .irq, .jour, .sent, .pd] S) : KeepsA S z (execPdCmdVconnSwap a1 a2) := by
  unfold execPdCmdVconnSwap
  apply keeps_onPath
  · assumption
  · apply keeps_State_pdCommand (w := w.of)
    · assumption
    · intro x1
      intro k2
      apply keeps_State_askSwap (w := w.of)
      assumption

theorem keeps_execPdCmdHardReset (a1 : Path) (a2 : State) (h2 : Keeps S z a2) (w : Sub [.objs, .timers, .sessions,
    .cmds, .irq, .jour, .sent, .pd] S) : KeepsA S z (execPdCmdHardReset a1 a2) := by
  unfold execPdCmdHardReset
  apply keeps_onPath
  · assumption
  · apply keeps_State_pdCommand (w := w.of)
    · assumption
    · intro x1
      intro k2
      apply keeps_State_hardReset (w := w.of)
      apply keeps_State_pdDone (w := w.of)
      assumption

theorem keeps_execPdCmdSendSourceCap (a1 : Path) (a2 : State) (h2 : Keeps S z a2) (w : Sub [.objs, .timers, .sessions,
    .cmds, .irq, .jour, .sent, .pd] S) : KeepsA S z (execPdCmdSendSourceCap a1 a2) := by
  unfold execPdCmdSendSourceCap
  apply keeps_onPath
  · assumption
  · apply keeps_State_pdCommand (w := w.of)
    · assumption
    · intro x1
      intro k2
      apply keeps_State_sendCaps (w := w.of)
      apply keeps_State_updPd (w := w.of)
      assumption

theorem keeps_execPdCmdRequest (a1 : Path) (a2 : Nat) (a3 : State) (h3 : Keeps S z a3) (w : Sub [.objs, .timers,
    .sessions, .cmds, .irq, .jour, .sent, .pd] S) : KeepsA S z (execPdCmdRequest a1 a2 a3) := by
  unfold execPdCmdRequest
  apply keeps_onPath
  · assumption
  · apply keeps_State_pdCommand (w := w.of)
    · assumption
    · intro x1
      intro k2
      apply keeps_State_sendRequest (w := w.of)
      assumption

theorem keeps_execPdoWrite (a1 : Path) (a2 : Nat) (a3 : Nat) (a4 : State) (h4 : Keeps S z a4) (w : Sub [.objs,
    .timers, .sessions, .irq, .jour, .sent, .pd] S) : KeepsA S z (execPdoWrite a1 a2 a3 a4) := by
  unfold execPdoWrite
  apply keeps_onPath
  · assumption
  · refine keeps_ite ?_ ?_
    · apply keeps_State_writeNum (w := w.of)
      · assumption
      · intro x1
        intro k2
        apply keeps_State_pdoChanged (w := w.of)
        apply keeps_State_set (w := w.of)
        assumption
    · assumption

theorem keeps_execPsHardResetTimer (a1 : State) (h1 : Keeps S z a1) (w : Sub [.timers, .sent, .pd, .power] S) : KeepsA
    S z (execPsHardResetTimer a1) := by
  unfold execPsHardResetTimer
  refine keeps_next ?_
  refine keeps_ite ?_ ?_
  · extract_lets +onlyGivenNames y1
    have k1 : Keeps S z y1 := by
      unfold y1
      apply keeps_State_discharging (w := w.of)
      apply keeps_State_vsel (w := w.of)
      apply keeps_State_request (w := w.of)
      apply keeps_State_stop (w := w.of)
      assumption
    clear_value y1
    apply keeps_State_updPd (w := w.of)
    assumption
  · assumption

theorem keeps_execVbusSafe0vReached (a1 : State) (h1 : Keeps S z a1) (w : Sub [.timers, .sent, .pd] S) : KeepsA S z
    (execVbusSafe0vReached a1) := by
  unfold execVbusSafe0vReached
  refine keeps_next ?_
  refine keeps_ite ?_ ?_
  · extract_lets +onlyGivenNames y1
    have k1 : Keeps S z y1 := by
      unfold y1
      apply keeps_State_updPd (w := w.of)
      apply keeps_State_discharging (w := w.of)
      assumption
    clear_value y1
    refine keeps_ite ?_ ?_
    · apply keeps_State_start (w := w.of)
      apply keeps_State_updPd (w := w.of)
      assumption
    · assumption
  · assumption

theorem keeps_execSrcRecoverTimer (a1 : State) (h1 : Keeps S z a1) (w : Sub [.objs, .timers, .sent, .pd, .power] S) :
    KeepsA S z (execSrcRecoverTimer a1) := by
  unfold execSrcRecoverTimer
  refine keeps_next ?_
  refine keeps_ite ?_ ?_
  · extract_lets +onlyGivenNames y1
    have k1 : Keeps S z y1 := by
      unfold y1
      apply keeps_State_request (w := w.of)
      apply keeps_State_updPd (w := w.of)
      apply keeps_State_stop (w := w.of)
      assumption
    clear_value y1
    refine keeps_ite ?_ ?_
    · apply keeps_State_vconn (w := w.of)
      assumption
    · assumption
  · assumption

theorem keeps_execFeedStateChange (a1 : Nat) (a2 : Nat) (a3 : Nat) (a4 : State) (h4 : Keeps S z a4) (w : Sub [.objs,
    .irq, .jour, .sent, .power] S) : KeepsA S z (execFeedStateChange a1 a2 a3 a4) := by
  unfold execFeedStateChange
  apply keeps_onUnit
  apply keeps_State_feedGo (w := w.of)
  assumption

theorem keeps_execFeedReverseCurrent (a1 : Nat) (a2 : Nat) (a3 : Nat) (a4 : State) (h4 : Keeps S z a4) (w : Sub
    [.objs, .irq, .jour, .rates, .sent, .power] S) : KeepsA S z (execFeedReverseCurrent a1 a2 a3 a4) := by
  unfold execFeedReverseCurrent
  apply keeps_onUnit
  refine keeps_ite ?_ ?_
  · apply keeps_State_turnOff (w := w.of)
    apply keeps_State_count (w := w.of)
    apply keeps_State_feedGo (w := w.of)
    assumption
  · assumption

theorem keeps_execVorBelowMinimum (a1 : Nat) (a2 : State) (h2 : Keeps S z a2) (w : Sub (Piece.allBut [.head,
    .freeCount]) S) : KeepsA S z (execVorBelowMinimum a1 a2) := by
  unfold execVorBelowMinimum
  refine keeps_next ?_
  refine keeps_ite ?_ ?_
  · apply keeps_State_vorGone (w := w.of)
    assumption
  · assumption

theorem keeps_execHoldupCheck (a1 : Nat) (a2 : State) (h2 : Keeps S z a2) (w : Sub [.objs, .timers, .irq, .jour,
    .power] S) : KeepsA S z (execHoldupCheck a1 a2) := by
  unfold execHoldupCheck
  refine keeps_next ?_
  refine keeps_ite ?_ ?_
  · extract_lets +onlyGivenNames y1
    have k1 : Keeps S z y1 := by
      unfold y1
      apply keeps_State_stop (w := w.of)
      assumption
    clear_value y1
    refine keeps_ite ?_ ?_
    · apply keeps_State_pwrEv (w := w.of)
      assumption
    · assumption
  · assumption

theorem keeps_execInletDebounceComplete (a1 : Nat) (a2 : State) (h2 : Keeps S z a2) (w : Sub [.timers, .power] S) :
    KeepsA S z (execInletDebounceComplete a1 a2) := by
  unfold execInletDebounceComplete
  refine keeps_next ?_
  extract_lets +onlyGivenNames y1
  clear_value y1
  refine keeps_ite ?_ ?_
  · assumption
  · extract_lets +onlyGivenNames y2
    have k2 : Keeps S z y2 := by
      unfold y2
      apply keeps_State_start (w := w.of)
      apply keeps_State_request (w := w.of)
      assumption
    clear_value y2
    refine keeps_mk ?_ (w_power := .inr w.has)
    assumption

theorem keeps_execInletOvervoltage (a1 : Nat) (a2 : State) (h2 : Keeps S z a2) (w : Sub (Piece.allBut [.head,
    .freeCount]) S) : KeepsA S z (execInletOvervoltage a1 a2) := by
  unfold execInletOvervoltage
  refine keeps_next ?_
  refine keeps_ite ?_ ?_
  · extract_lets +onlyGivenNames y1
    clear_value y1
    extract_lets +onlyGivenNames y2
    have k2 : Keeps S z y2 := by
      unfold y2
      apply keeps_State_request (w := w.of)
      apply keeps_State_inletOff (w := w.of)
      assumption
    clear_value y2
    extract_lets +onlyGivenNames y3
    clear_value y3
    extract_lets +onlyGivenNames y4
    have k4 : Keeps S z y4 := by
      unfold y4
      refine keeps_mk ?_ (w_power := .inr w.has)
      assumption
    clear_value y4
    refine keeps_ite ?_ ?_
    · apply keeps_State_pwrEv (w := w.of)
      apply keeps_State_count (w := w.of)
      assumption
    · assumption
  · assumption

theorem keeps_execPowerFailWarning (a1 : Nat) (a2 : State) (h2 : Keeps S z a2) (w : Sub [.objs, .irq, .jour, .power]
    S) : KeepsA S z (execPowerFailWarning a1 a2) := by
  unfold execPowerFailWarning
  refine keeps_next ?_
  refine keeps_ite ?_ ?_
  · apply keeps_State_pwrEv (w := w.of)
    apply keeps_State_count (w := w.of)
    assumption
  · assumption

theorem keeps_execBreakerOnRequest (a1 : Nat) (a2 : State) (h2 : Keeps S z a2) (w : Sub [.objs, .timers, .sent] S) :
    KeepsA S z (execBreakerOnRequest a1 a2) := by
  unfold execBreakerOnRequest
  apply keeps_onPort
  · assumption
  · refine keeps_ite ?_ ?_
    · apply keeps_State_breakerRamp (w := w.of)
      assumption
    · assumption

theorem keeps_execBreakerRequestWithdrawn (a1 : Nat) (a2 : State) (h2 : Keeps S z a2) (w : Sub (Piece.allBut [.head,
    .freeCount]) S) : KeepsA S z (execBreakerRequestWithdrawn a1 a2) := by
  unfold execBreakerRequestWithdrawn
  apply keeps_onPort
  · assumption
  · refine keeps_ite ?_ ?_
    · refine keeps_ite ?_ ?_
      · apply keeps_State_inletOff (w := w.of)
        assumption
      · extract_lets +onlyGivenNames y1
        have k1 : Keeps S z y1 := by
          unfold y1
          apply keeps_State_breakerOff (w := w.of)
          assumption
        clear_value y1
        refine keeps_ite ?_ ?_
        · apply keeps_State_portChannelOff (w := w.of)
          assumption
        · assumption
    · assumption

theorem keeps_execBreakerFullEnhancement (a1 : Nat) (a2 : State) (h2 : Keeps S z a2) (w : Sub [.objs, .timers, .irq,
    .jour, .usb, .pd, .power] S) : KeepsA S z (execBreakerFullEnhancement a1 a2) := by
  unfold execBreakerFullEnhancement
  apply keeps_onPort
  · assumption
  · refine keeps_ite ?_ ?_
    · extract_lets +onlyGivenNames y1
      have k1 : Keeps S z y1 := by
        unfold y1
        apply keeps_State_start (w := w.of)
        apply keeps_State_stop (w := w.of)
        apply keeps_State_set (w := w.of)
        assumption
      clear_value y1
      refine keeps_ite ?_ ?_
      · apply keeps_State_portPowerGood (w := w.of)
        assumption
      · refine keeps_ite ?_ ?_
        · apply keeps_State_svcPowerGood (w := w.of)
          assumption
        · extract_lets +onlyGivenNames y2
          clear_value y2
          extract_lets +onlyGivenNames y3
          have k3 : Keeps S z y3 := by
            unfold y3
            refine keeps_mk ?_ (w_power := .inr w.has)
            assumption
          clear_value y3
          apply keeps_State_start (w := w.of)
          apply keeps_State_set (w := w.of)
          assumption
    · assumption

theorem keeps_execBreakerRampTimeout (a1 : Nat) (a2 : Nat) (a3 : Int) (a4 : State) (h4 : Keeps S z a4) (w : Sub
    (Piece.allBut [.head]) S) : KeepsA S z (execBreakerRampTimeout a1 a2 a3 a4) := by
  unfold execBreakerRampTimeout
  apply keeps_onPort
  · assumption
  · refine keeps_ite ?_ ?_
    · apply keeps_State_tripNow (w := w.of)
      assumption
    · assumption

theorem keeps_execBreakerCurveTrip (a1 : Nat) (a2 : Nat) (a3 : Nat) (a4 : Int) (a5 : State) (h5 : Keeps S z a5) (w :
    Sub (Piece.allBut [.head]) S) : KeepsA S z (execBreakerCurveTrip a1 a2 a3 a4 a5) := by
  unfold execBreakerCurveTrip
  apply keeps_onPort
  · assumption
  · refine keeps_ite ?_ ?_
    · apply keeps_State_tripNow (w := w.of)
      assumption
    · assumption

theorem keeps_execBreakerFastTrip (a1 : Nat) (a2 : Nat) (a3 : Int) (a4 : State) (h4 : Keeps S z a4) (w : Sub
    (Piece.allBut [.head]) S) : KeepsA S z (execBreakerFastTrip a1 a2 a3 a4) := by
  unfold execBreakerFastTrip
  apply keeps_onPort
  · assumption
  · refine keeps_ite ?_ ?_
    · apply keeps_State_tripNow (w := w.of)
      assumption
    · assumption

theorem keeps_execBreakerThermalTrip (a1 : Nat) (a2 : Nat) (a3 : Int) (a4 : State) (h4 : Keeps S z a4) (w : Sub
    (Piece.allBut [.head]) S) : KeepsA S z (execBreakerThermalTrip a1 a2 a3 a4) := by
  unfold execBreakerThermalTrip
  apply keeps_onPort
  · assumption
  · refine keeps_ite ?_ ?_
    · apply keeps_State_tripNow (w := w.of)
      assumption
    · assumption

theorem keeps_execBreakerReverseCurrent (a1 : Nat) (a2 : Nat) (a3 : Int) (a4 : State) (h4 : Keeps S z a4) (w : Sub
    (Piece.allBut [.head]) S) : KeepsA S z (execBreakerReverseCurrent a1 a2 a3 a4) := by
  unfold execBreakerReverseCurrent
  apply keeps_onPort
  · assumption
  · refine keeps_ite ?_ ?_
    · apply keeps_State_tripNow (w := w.of)
      assumption
    · assumption

theorem keeps_execBreakerRetryTimer (a1 : Nat) (a2 : Int) (a3 : State) (h3 : Keeps S z a3) (w : Sub [.objs, .timers,
    .irq, .jour, .sent, .pd, .power] S) : KeepsA S z (execBreakerRetryTimer a1 a2 a3) := by
  unfold execBreakerRetryTimer
  apply keeps_onPort
  · assumption
  · refine keeps_ite ?_ ?_
    · extract_lets +onlyGivenNames y1
      have k1 : Keeps S z y1 := by
        unfold y1
        refine keeps_ite ?_ ?_
        · apply keeps_State_svcReturn (w := w.of)
          assumption
        · assumption
      clear_value y1
      refine keeps_ite ?_ ?_
      · apply keeps_State_retryBreaker (w := w.of)
        assumption
      · assumption
    · assumption

theorem keeps_execRetryResetTimeExpired (a1 : Nat) (a2 : State) (h2 : Keeps S z a2) (w : Sub [.objs, .timers] S) :
    KeepsA S z (execRetryResetTimeExpired a1 a2) := by
  unfold execRetryResetTimeExpired
  apply keeps_onPort
  · assumption
  · refine keeps_ite ?_ ?_
    · apply keeps_State_stop (w := w.of)
      apply keeps_State_set (w := w.of)
      assumption
    · assumption

theorem keeps_execRetryCountWrite (a1 : Path) (a2 : Nat) (a3 : Nat) (a4 : State) (h4 : Keeps S z a4) (w : Sub [.objs,
    .timers, .sessions, .irq, .jour] S) : KeepsA S z (execRetryCountWrite a1 a2 a3 a4) := by
  unfold execRetryCountWrite
  apply keeps_onPath
  · assumption
  · apply keeps_State_writeNum (w := w.of)
    · assumption
    · intro x1
      intro k2
      extract_lets +onlyGivenNames y3
      have k3 : Keeps S z y3 := by
        unfold y3
        apply keeps_State_set (w := w.of)
        assumption
      clear_value y3
      refine keeps_ite ?_ ?_
      · apply keeps_State_stop (w := w.of)
        apply keeps_State_set (w := w.of)
        assumption
      · assumption

theorem keeps_execInletRestart (a1 : State) (h1 : Keeps S z a1) (w : Sub [.objs, .timers, .irq, .jour, .sent, .power]
    S) : KeepsA S z (execInletRestart a1) := by
  unfold execInletRestart
  refine keeps_next ?_
  refine keeps_ite ?_ ?_
  · apply keeps_State_breakerReset (w := w.of)
    assumption
  · assumption

theorem keeps_execFetSensorFault (a1 : Nat) (a2 : Nat) (a3 : State) (h3 : Keeps S z a3) (w : Sub [.objs, .irq, .jour,
    .power] S) : KeepsA S z (execFetSensorFault a1 a2 a3) := by
  unfold execFetSensorFault
  apply keeps_onPort
  · assumption
  · extract_lets +onlyGivenNames y1
    clear_value y1
    refine keeps_ite ?_ ?_
    · assumption
    · extract_lets +onlyGivenNames y2
      have k2 : Keeps S z y2 := by
        unfold y2
        apply keeps_State_set (w := w.of)
        assumption
      clear_value y2
      refine keeps_ite ?_ ?_
      · assumption
      · apply keeps_State_pwrEv (w := w.of)
        assumption

theorem keeps_execBreakerReset (a1 : Path) (a2 : Nat) (a3 : State) (h3 : Keeps S z a3) (w : Sub [.objs, .timers,
    .sessions, .cmds, .irq, .jour, .sent, .pd, .power] S) : KeepsA S z (execBreakerReset a1 a2 a3) := by
  unfold execBreakerReset
  apply keeps_onPath
  · assumption
  · apply keeps_State_commandNow (w := w.of)
    · assumption
    · intro x1
      intro k2
      extract_lets +onlyGivenNames y3
      have k3 : Keeps S z y3 := by
        unfold y3
        apply keeps_State_breakerReset (w := w.of)
        assumption
      clear_value y3
      refine keeps_ite ?_ ?_
      · apply keeps_State_svcReturn (w := w.of)
        assumption
      · assumption

theorem keeps_execBreakerRetryNow (a1 : Path) (a2 : Nat) (a3 : Int) (a4 : State) (h4 : Keeps S z a4) (w : Sub [.objs,
    .timers, .sessions, .cmds, .irq, .jour, .sent, .power] S) : KeepsA S z (execBreakerRetryNow a1 a2 a3 a4) := by
  unfold execBreakerRetryNow
  apply keeps_onPath
  · assumption
  · apply keeps_State_command (w := w.of)
    · assumption
    · intro x1
      intro k2
      refine keeps_ite ?_ ?_
      · apply keeps_State_cmdFail (w := w.of)
        assumption
      · refine keeps_ite ?_ ?_
        · apply keeps_State_cmdFail (w := w.of)
          assumption
        · apply keeps_State_cmdCommit (w := w.of)
          apply keeps_State_retryBreaker (w := w.of)
          assumption

theorem keeps_execBreakerClearCounters (a1 : Path) (a2 : Nat) (a3 : State) (h3 : Keeps S z a3) (w : Sub [.objs,
    .sessions, .cmds, .irq, .jour] S) : KeepsA S z (execBreakerClearCounters a1 a2 a3) := by
  unfold execBreakerClearCounters
  apply keeps_onPath
  · assumption
  · apply keeps_State_commandNow (w := w.of)
    · assumption
    · intro x1
      intro k2
      apply keeps_State_clear (w := w.of)
      assumption

theorem keeps_execPowerEntryClearCounters (a1 : Path) (a2 : State) (h2 : Keeps S z a2) (w : Sub [.objs, .sessions,
    .cmds, .irq, .jour] S) : KeepsA S z (execPowerEntryClearCounters a1 a2) := by
  unfold execPowerEntryClearCounters
  apply keeps_onPath
  · assumption
  · apply keeps_State_commandNow (w := w.of)
    · assumption
    · intro x1
      intro k2
      apply keeps_State_clear (w := w.of)
      assumption

theorem keeps_State_coldStart (a1 : State) (h1 : Keeps S z a1) (w : Sub (Piece.allBut [.head, .freeCount]) S) : Keeps
    S z (State.coldStart a1) := by
  unfold State.coldStart
  extract_lets +onlyGivenNames y1 j y2
  have k1 : Keeps S z y1 := keeps_State_toReset _ 1 true h1 w.of
  clear_value y1
  have k2 : Keeps S z y2 := keeps_of k1 rfl rfl rfl (List.suffix_refl _) (w.of (G := [.objs, .timers, .power, .secu])) (by intro f hf; cases f <;> first | rfl | cases hf) fun c =>
    ⟨rfl, c.strs, c.dram, c.ring⟩
  exact keeps_forAll _ _ _ (fun _ _ k => keeps_State_set _ _ _ k w.of) k2

theorem keeps_execPd0ColdStart (a1 : State) (h1 : Keeps S z a1) (w : Sub (Piece.allBut [.head, .freeCount]) S) :
    KeepsA S z (execPd0ColdStart a1) := by
  unfold execPd0ColdStart
  refine keeps_next ?_
  refine keeps_ite ?_ ?_
  · apply keeps_State_coldStart (w := w.of)
    assumption
  · assumption

theorem keeps_execRailGroupEnable (a1 : State) (h1 : Keeps S z a1) (w : Sub [.objs, .timers, .sent, .power] S) :
    KeepsA S z (execRailGroupEnable a1) := by
  unfold execRailGroupEnable
  refine keeps_next ?_
  extract_lets +onlyGivenNames y1
  clear_value y1
  refine keeps_ite ?_ ?_
  · extract_lets +onlyGivenNames y2
    have k2 : Keeps S z y2 := by
      unfold y2
      apply keeps_State_start (w := w.of)
      apply keeps_State_stop (w := w.of)
      apply keeps_State_set (w := w.of)
      assumption
    clear_value y2
    apply keeps_State_send (w := w.of)
    refine keeps_mk ?_ (w_power := .inr w.has)
    assumption
  · assumption

theorem keeps_execRailGroupGood (a1 : State) (h1 : Keeps S z a1) (w : Sub [.objs, .timers, .power] S) : KeepsA S z
    (execRailGroupGood a1) := by
  unfold execRailGroupGood
  refine keeps_next ?_
  extract_lets +onlyGivenNames y1
  clear_value y1
  refine keeps_ite ?_ ?_
  · extract_lets +onlyGivenNames y2
    have k2 : Keeps S z y2 := by
      unfold y2
      apply keeps_State_stop (w := w.of)
      apply keeps_State_set (w := w.of)
      assumption
    clear_value y2
    extract_lets +onlyGivenNames y3
    clear_value y3
    extract_lets +onlyGivenNames y4
    have k4 : Keeps S z y4 := by
      unfold y4
      refine keeps_mk ?_ (w_power := .inr w.has)
      assumption
    clear_value y4
    refine keeps_ite ?_ ?_
    · apply keeps_State_start (w := w.of)
      apply keeps_State_set (w := w.of)
      assumption
    · apply keeps_State_start (w := w.of)
      assumption
  · assumption

theorem keeps_execRailGroupTimeout (a1 : State) (h1 : Keeps S z a1) (w : Sub [.objs, .timers, .irq, .jour, .sent,
    .power] S) : KeepsA S z (execRailGroupTimeout a1) := by
  unfold execRailGroupTimeout
  refine keeps_next ?_
  extract_lets +onlyGivenNames y1
  clear_value y1
  refine keeps_ite ?_ ?_
  · extract_lets +onlyGivenNames y2
    clear_value y2
    apply keeps_State_pwrEv (w := w.of)
    apply keeps_State_railsOff (w := w.of)
    assumption
  · assumption

theorem keeps_execRailFault (a1 : Nat) (a2 : Bool) (a3 : Nat) (a4 : State) (h4 : Keeps S z a4) (w : Sub (Piece.allBut
    [.head]) S) : KeepsA S z (execRailFault a1 a2 a3 a4) := by
  unfold execRailFault
  apply keeps_onUnit
  split
  refine keeps_ite ?_ ?_
  · extract_lets +onlyGivenNames y1
    have k1 : Keeps S z y1 := by
      unfold y1
      apply keeps_State_set (w := w.of)
      apply keeps_State_count (w := w.of)
      assumption
    clear_value y1
    extract_lets +onlyGivenNames y2
    have k2 : ∀ x1, Keeps S z x1 →  Keeps S z (y2 x1) := by
      intro x1 hx1
      unfold y2
      apply keeps_State_pwrEv (w := w.of)
      assumption
    clear_value y2
    extract_lets +onlyGivenNames y3
    have k3 : ∀ x1, Keeps S z x1 →  Keeps S z (y3 x1) := by
      intro x1 hx1
      unfold y3
      apply keeps_State_set (w := w.of)
      assumption
    clear_value y3
    refine keeps_ite ?_ ?_
    · apply k2
      apply keeps_State_railsOff (w := w.of)
      apply keeps_State_toReset (w := w.of)
      assumption
    · refine keeps_ite ?_ ?_
      · apply k2
        apply k3
        apply keeps_State_toReset (w := w.of)
        assumption
      · apply k2
        apply keeps_forAll
        · intro x4
          intro x5
          intro k6
          apply keeps_State_domainDown (w := w.of)
          assumption
        · apply k3
          assumption
  · assumption

theorem keeps_State_watchCycle (a1 : State) (a2 : Nat) (h1 : Keeps S z a1) (w : Sub [.tunnels] S) : Keeps S z
    (State.watchCycle a1 a2) := by
  unfold State.watchCycle
  apply keeps_forAll
  · intro x1
    intro x2
    intro k3
    extract_lets +onlyGivenNames y4
    clear_value y4
    refine keeps_ite ?_ ?_
    · apply keeps_State_updTun (w := w.of)
      assumption
    · assumption
  · assumption

theorem keeps_execSchedCycleStart (a1 : Nat) (a2 : State) (h2 : Keeps S z a2) (w : Sub [.objs, .freeCount, .irq,
    .jour, .rates, .sent, .trunks, .tunnels, .fabric, .scheds, .pl, .fld] S) : KeepsA S z (execSchedCycleStart a1 a2)
    := by
  unfold execSchedCycleStart
  apply keeps_onPort
  · assumption
  · refine keeps_ite ?_ ?_
    · apply keeps_State_verifyCycle (w := w.of)
      assumption
    · refine keeps_ite ?_ ?_
      · extract_lets +onlyGivenNames y1
        have k1 : Keeps S z y1 := by
          unfold y1
          apply keeps_State_markCycle (w := w.of)
          apply keeps_State_startCycle (w := w.of)
          apply keeps_State_followTime (w := w.of)
          assumption
        clear_value y1
        apply keeps_State_watchCycle (w := w.of)
        apply keeps_State_flushRecords (w := w.of)
        apply keeps_State_pushCycle (w := w.of)
        assumption
      · assumption

theorem keeps_execSchedCellTime (a1 : Nat) (a2 : Nat) (a3 : State) (h3 : Keeps S z a3) (w : Sub [.objs, .freeCount,
    .timers, .sessions, .irq, .jour, .rates, .sent, .trunks, .tunnels, .fabric, .scheds, .disps, .usb, .pl, .stor,
    .fld, .safety] S) : KeepsA S z (execSchedCellTime a1 a2 a3) := by
  unfold execSchedCellTime
  apply keeps_onPort
  · assumption
  · refine keeps_ite ?_ ?_
    · apply keeps_State_retrainCheck (w := w.of)
      apply keeps_State_cellTime (w := w.of)
      assumption
    · refine keeps_ite ?_ ?_
      · apply keeps_State_idleCell (w := w.of)
        assumption
      · assumption

theorem keeps_execGateTableSwitch (a1 : Path) (a2 : Nat) (a3 : State) (h3 : Keeps S z a3) (w : Sub [.objs, .sessions,
    .cmds, .irq, .jour, .rates, .scheds] S) : KeepsA S z (execGateTableSwitch a1 a2 a3) := by
  unfold execGateTableSwitch
  extract_lets +onlyGivenNames y1
  clear_value y1
  apply keeps_onPath
  · assumption
  · apply keeps_State_command (w := w.of)
    · assumption
    · intro x2
      intro k3
      extract_lets +onlyGivenNames y4
      clear_value y4
      refine keeps_ite ?_ ?_
      · apply keeps_State_switchFails (w := w.of)
        assumption
      · refine keeps_ite ?_ ?_
        · apply keeps_State_switchFails (w := w.of)
          assumption
        · refine keeps_ite ?_ ?_
          · extract_lets +onlyGivenNames y5
            clear_value y5
            apply keeps_State_set (w := w.of)
            apply keeps_State_updSched (w := w.of)
            assumption
          · apply keeps_State_updSched (w := w.of)
            assumption

theorem keeps_execSchedVersionMismatch (a1 : Nat) (a2 : State) (h2 : Keeps S z a2) (w : Sub [.objs, .irq, .jour,
    .rates] S) : KeepsA S z (execSchedVersionMismatch a1 a2) := by
  unfold execSchedVersionMismatch
  apply keeps_onPort
  · assumption
  · refine keeps_ite ?_ ?_
    · apply keeps_State_schedRate (w := w.of)
      apply keeps_State_set (w := w.of)
      assumption
    · assumption

theorem keeps_execCarveEpoch (a1 : Nat) (a2 : State) (h2 : Keeps S z a2) (w : Sub [.objs, .irq, .jour, .rates,
    .scheds] S) : KeepsA S z (execCarveEpoch a1 a2) := by
  unfold execCarveEpoch
  apply keeps_onPort
  · assumption
  · refine keeps_ite ?_ ?_
    · apply keeps_State_carve (w := w.of)
      assumption
    · assumption

theorem keeps_execResetAsserted (a1 : Bool) (a2 : State) (h2 : Keeps S z a2) (w : Sub (Piece.allBut [.head,
    .freeCount]) S) : KeepsA S z (execResetAsserted a1 a2) := by
  unfold execResetAsserted
  refine keeps_next ?_
  refine keeps_ite ?_ ?_
  · apply keeps_State_toReset (w := w.of)
    assumption
  · refine keeps_ite ?_ ?_
    · apply keeps_State_start (w := w.of)
      apply keeps_State_setAll (w := w.of)
      assumption
    · refine keeps_ite ?_ ?_
      · refine keeps_mk ?_ (w_power := .inr w.has)
        assumption
      · assumption

theorem keeps_execResetReleased (a1 : Straps) (a2 : Nat) (a3 : State) (h3 : Keeps S z a3) (w : Sub [.head, .objs,
    .strs, .freeCount, .timers, .irq, .jour, .rates, .sent, .tunnels, .fabric, .scheds, .usb, .keys, .secu, .power,
    .boot] S) : KeepsA S z (execResetReleased a1 a2 a3) := by
  unfold execResetReleased
  refine keeps_next ?_
  refine keeps_ite ?_ ?_
  · apply keeps_State_bootStart (w := w.of)
    assumption
  · assumption

theorem keeps_execIlkaiDeclaredStarted (a1 : State) (h1 : Keeps S z a1) (w : Sub (Piece.allBut [.head, .strs,
    .station, .lockouts, .sessionCounter, .cmds, .modeHeld, .stateHeld, .time, .eth, .dram]) S) : KeepsA S z
    (execIlkaiDeclaredStarted a1) := by
  unfold execIlkaiDeclaredStarted
  refine keeps_next ?_
  refine keeps_ite ?_ ?_
  · apply keeps_State_declared (w := w.of)
    assumption
  · assumption

theorem keeps_execBootWatchdogExpired (a1 : State) (h1 : Keeps S z a1) (w : Sub (Piece.allBut [.head, .freeCount]) S)
    : KeepsA S z (execBootWatchdogExpired a1) := by
  unfold execBootWatchdogExpired
  refine keeps_next ?_
  refine keeps_ite ?_ ?_
  · extract_lets +onlyGivenNames y1
    have k1 : Keeps S z y1 := by
      unfold y1
      apply keeps_State_updBoot (w := w.of)
      assumption
    clear_value y1
    apply keeps_State_toReset (w := w.of)
    apply keeps_State_note (w := w.of)
    assumption
  · assumption

theorem keeps_execStateRequestSetup (a1 : Path) (a2 : State) (h2 : Keeps S z a2) (w : Sub [.objs, .freeCount, .timers,
    .sessions, .irq, .jour, .rates, .sent, .stateHeld, .trunks, .tunnels, .fabric, .scheds, .disps, .usb, .pl, .stor,
    .fld, .safety] S) : KeepsA S z (execStateRequestSetup a1 a2) := by
  unfold execStateRequestSetup
  apply keeps_onPath
  · assumption
  · apply keeps_State_askState (w := w.of)
    assumption

theorem keeps_execStateRequestRun (a1 : Path) (a2 : State) (h2 : Keeps S z a2) (w : Sub [.objs, .freeCount, .timers,
    .sessions, .irq, .jour, .rates, .sent, .stateHeld, .trunks, .tunnels, .fabric, .scheds, .disps, .usb, .pl, .stor,
    .fld, .safety] S) : KeepsA S z (execStateRequestRun a1 a2) := by
  unfold execStateRequestRun
  apply keeps_onPath
  · assumption
  · apply keeps_State_askState (w := w.of)
    assumption

theorem keeps_execStateRequestMaintain (a1 : Path) (a2 : State) (h2 : Keeps S z a2) (w : Sub [.objs, .freeCount,
    .timers, .sessions, .irq, .jour, .rates, .sent, .stateHeld, .trunks, .tunnels, .fabric, .scheds, .disps, .usb,
    .pl, .stor, .fld, .safety] S) : KeepsA S z (execStateRequestMaintain a1 a2) := by
  unfold execStateRequestMaintain
  apply keeps_onPath
  · assumption
  · apply keeps_State_askState (w := w.of)
    assumption

theorem keeps_execSetupTransitionComplete (a1 : State) (h1 : Keeps S z a1) (w : Sub [.objs, .freeCount, .timers,
    .sessions, .irq, .jour, .rates, .sent, .stateHeld, .trunks, .tunnels, .fabric, .scheds, .disps, .usb, .pl, .stor,
    .fld, .safety] S) : KeepsA S z (execSetupTransitionComplete a1) := by
  unfold execSetupTransitionComplete
  refine keeps_next ?_
  refine keeps_ite ?_ ?_
  · extract_lets +onlyGivenNames y1
    have k1 : Keeps S z y1 := by
      unfold y1
      apply keeps_State_enterState (w := w.of)
      apply keeps_State_set (w := w.of)
      assumption
    clear_value y1
    apply keeps_State_heldRequests (w := w.of)
    assumption
  · assumption

theorem keeps_execIslandWatchdogExpired (a1 : Nat) (a2 : List (Nat × Nat)) (a3 : State) (h3 : Keeps S z a3) (w : Sub
    [.objs, .irq, .jour, .rates, .sent, .trunks, .safety] S) : KeepsA S z (execIslandWatchdogExpired a1 a2 a3) := by
  unfold execIslandWatchdogExpired
  apply keeps_onUnit
  refine keeps_ite ?_ ?_
  · assumption
  · apply keeps_State_crossingLost (w := w.of)
    apply keeps_State_islandStop (w := w.of)
    assumption

theorem keeps_execD2dFrameReceived (a1 : Bool) (a2 : State) (h2 : Keeps S z a2) (w : Sub [.objs, .timers, .irq, .jour,
    .sent, .safety] S) : KeepsA S z (execD2dFrameReceived a1 a2) := by
  unfold execD2dFrameReceived
  refine keeps_next ?_
  refine keeps_ite ?_ ?_
  · assumption
  · refine keeps_ite ?_ ?_
    · apply keeps_State_pulse (w := w.of)
      apply keeps_State_start (w := w.of)
      apply keeps_State_updSafety (w := w.of)
      assumption
    · apply keeps_State_send (w := w.of)
      assumption

theorem keeps_execD2dLinkTimeout (a1 : State) (h1 : Keeps S z a1) (w : Sub [.objs, .timers, .irq, .jour, .sent,
    .safety] S) : KeepsA S z (execD2dLinkTimeout a1) := by
  unfold execD2dLinkTimeout
  refine keeps_next ?_
  refine keeps_ite ?_ ?_
  · extract_lets +onlyGivenNames y1
    have k1 : Keeps S z y1 := by
      unfold y1
      apply keeps_State_pulse (w := w.of)
      apply keeps_State_stop (w := w.of)
      apply keeps_State_updSafety (w := w.of)
      assumption
    clear_value y1
    apply keeps_State_islandStop (w := w.of)
    assumption
  · assumption

theorem keeps_execSvcDeviceAttach (a1 : State) (h1 : Keeps S z a1) (w : Sub [.objs, .irq, .jour, .sent, .svc] S) :
    KeepsA S z (execSvcDeviceAttach a1) := by
  unfold execSvcDeviceAttach
  refine keeps_next ?_
  refine keeps_ite ?_ ?_
  · extract_lets +onlyGivenNames y1
    clear_value y1
    extract_lets +onlyGivenNames y2
    have k2 : Keeps S z y2 := by
      unfold y2
      apply keeps_State_updSvc (w := w.of)
      assumption
    clear_value y2
    apply keeps_State_send (w := w.of)
    apply keeps_State_svcGo (w := w.of)
    assumption
  · assumption

theorem keeps_execSvcDeviceDetach (a1 : State) (h1 : Keeps S z a1) (w : Sub [.objs, .sessions, .irq, .jour, .sent,
    .svc] S) : KeepsA S z (execSvcDeviceDetach a1) := by
  unfold execSvcDeviceDetach
  refine keeps_next ?_
  refine keeps_ite ?_ ?_
  · assumption
  · apply keeps_State_svcDetach (w := w.of)
    assumption

theorem keeps_execSvcBusReset (a1 : Bool) (a2 : State) (h2 : Keeps S z a2) (w : Sub [.objs, .irq, .jour, .svc] S) :
    KeepsA S z (execSvcBusReset a1 a2) := by
  unfold execSvcBusReset
  refine keeps_next ?_
  refine keeps_ite ?_ ?_
  · extract_lets +onlyGivenNames y1
    clear_value y1
    extract_lets +onlyGivenNames y2
    clear_value y2
    extract_lets +onlyGivenNames y3
    have k3 : Keeps S z y3 := by
      unfold y3
      apply keeps_State_setAll (w := w.of)
      assumption
    clear_value y3
    extract_lets +onlyGivenNames y4
    have k4 : Keeps S z y4 := by
      unfold y4
      apply keeps_State_svcGo (w := w.of)
      apply keeps_State_freshEps (w := w.of)
      apply keeps_State_count (w := w.of)
      assumption
    clear_value y4
    extract_lets +onlyGivenNames y5
    have k5 : Keeps S z y5 := by
      unfold y5
      apply keeps_State_updSvc (w := w.of)
      assumption
    clear_value y5
    extract_lets +onlyGivenNames y6
    have k6 : Keeps S z y6 := by
      unfold y6
      refine keeps_ite ?_ ?_
      · assumption
      · apply keeps_State_setAll (w := w.of)
        assumption
    clear_value y6
    apply keeps_State_ev (w := w.of)
    assumption
  · assumption

theorem keeps_execSvcSetupReceived (a1 : Bytes) (a2 : State) (h2 : Keeps S z a2) (w : Sub [.objs, .svc] S) : KeepsA S
    z (execSvcSetupReceived a1 a2) := by
  unfold execSvcSetupReceived
  refine keeps_next ?_
  refine keeps_ite ?_ ?_
  · extract_lets +onlyGivenNames y1
    have k1 : Keeps S z y1 := by
      unfold y1
      apply keeps_State_count (w := w.of)
      assumption
    clear_value y1
    extract_lets +onlyGivenNames y2
    have k2 : Keeps S z y2 := by
      unfold y2
      refine keeps_ite ?_ ?_
      · apply keeps_State_count (w := w.of)
        assumption
      · assumption
    clear_value y2
    extract_lets +onlyGivenNames y3
    clear_value y3
    extract_lets +onlyGivenNames y4
    clear_value y4
    extract_lets +onlyGivenNames y5
    have k5 : Keeps S z y5 := by
      unfold y5
      apply keeps_State_setAll (w := w.of)
      assumption
    clear_value y5
    extract_lets +onlyGivenNames y6
    have k6 : Keeps S z y6 := by
      unfold y6
      apply keeps_State_updSvc (w := w.of)
      assumption
    clear_value y6
    refine keeps_ite ?_ ?_
    · assumption
    · apply keeps_State_svcQueue (w := w.of)
      assumption
  · assumption

theorem keeps_State_svcTest (a1 : State) (a2 : Nat) (h1 : Keeps S z a1) (w : Sub [.sent, .svc] S) : Keeps S z
    (State.svcTest a1 a2) := by
  unfold State.svcTest
  apply keeps_State_send (w := w.of)
  apply keeps_State_updSvc (w := w.of)
  assumption

theorem keeps_State_svcEffect (a1 : State) (a2 : Bytes) (h1 : Keeps S z a1) (w : Sub [.objs, .irq, .jour, .sent, .svc]
    S) : Keeps S z (State.svcEffect a1 a2) := by
  unfold State.svcEffect
  extract_lets +onlyGivenNames y1
  clear_value y1
  extract_lets +onlyGivenNames y2
  clear_value y2
  extract_lets +onlyGivenNames y3
  clear_value y3
  extract_lets +onlyGivenNames y4
  clear_value y4
  refine keeps_ite ?_ ?_
  · apply keeps_State_svcAddress (w := w.of)
    assumption
  · refine keeps_ite ?_ ?_
    · apply keeps_State_svcConfigure (w := w.of)
      assumption
    · refine keeps_ite ?_ ?_
      · apply keeps_State_updSvc (w := w.of)
        assumption
      · refine keeps_ite ?_ ?_
        · apply keeps_State_svcTest (w := w.of)
          assumption
        · refine keeps_ite ?_ ?_
          · apply keeps_State_svcInterface (w := w.of)
            assumption
          · refine keeps_ite ?_ ?_
            · apply keeps_State_svcHalt (w := w.of)
              assumption
            · refine keeps_ite ?_ ?_
              · apply keeps_State_setAll (w := w.of)
                assumption
              · refine keeps_ite ?_ ?_
                · extract_lets +onlyGivenNames y5
                  have k5 : Keeps S z y5 := by
                    unfold y5
                    apply keeps_State_set (w := w.of)
                    assumption
                  clear_value y5
                  refine keeps_ite ?_ ?_
                  · apply keeps_State_ev (w := w.of)
                    apply keeps_State_set (w := w.of)
                    apply keeps_State_cmdFail (w := w.of)
                    assumption
                  · assumption
                · assumption

theorem keeps_execSvcStatusStageComplete (a1 : State) (h1 : Keeps S z a1) (w : Sub [.objs, .irq, .jour, .sent, .svc]
    S) : KeepsA S z (execSvcStatusStageComplete a1) := by
  unfold execSvcStatusStageComplete
  refine keeps_next ?_
  split
  · extract_lets +onlyGivenNames y1
    have k1 : Keeps S z y1 := by
      unfold y1
      apply keeps_State_updSvc (w := w.of)
      assumption
    clear_value y1
    refine keeps_ite ?_ ?_
    · assumption
    · apply keeps_State_svcEffect (w := w.of)
      assumption
  · assumption

theorem keeps_execSvcSetAddress (a1 : Nat) (a2 : State) (h2 : Keeps S z a2) (w : Sub [.objs, .irq, .jour, .svc] S) :
    KeepsA S z (execSvcSetAddress a1 a2) := by
  unfold execSvcSetAddress
  refine keeps_next ?_
  apply keeps_State_svcAddress (w := w.of)
  apply keeps_State_updSvc (w := w.of)
  assumption

theorem keeps_execSvcSetConfiguration (a1 : Nat) (a2 : State) (h2 : Keeps S z a2) (w : Sub [.objs, .irq, .jour, .svc]
    S) : KeepsA S z (execSvcSetConfiguration a1 a2) := by
  unfold execSvcSetConfiguration
  refine keeps_next ?_
  apply keeps_State_svcConfigure (w := w.of)
  apply keeps_State_updSvc (w := w.of)
  assumption

theorem keeps_execSvcSetInterface (a1 : Nat) (a2 : Nat) (a3 : State) (h3 : Keeps S z a3) (w : Sub [.objs, .irq, .svc]
    S) : KeepsA S z (execSvcSetInterface a1 a2 a3) := by
  unfold execSvcSetInterface
  refine keeps_next ?_
  apply keeps_State_svcInterface (w := w.of)
  apply keeps_State_updSvc (w := w.of)
  assumption

theorem keeps_execSvcSetEndpointHalt (a1 : Nat) (a2 : Bool) (a3 : State) (h3 : Keeps S z a3) (w : Sub [.objs, .irq,
    .svc] S) : KeepsA S z (execSvcSetEndpointHalt a1 a2 a3) := by
  unfold execSvcSetEndpointHalt
  apply keeps_onUnit
  apply keeps_State_svcHalt (w := w.of)
  apply keeps_State_updSvc (w := w.of)
  assumption

theorem keeps_execSvcClearEndpointHalt (a1 : Nat) (a2 : Bool) (a3 : State) (h3 : Keeps S z a3) (w : Sub [.objs, .irq,
    .svc] S) : KeepsA S z (execSvcClearEndpointHalt a1 a2 a3) := by
  unfold execSvcClearEndpointHalt
  apply keeps_onUnit
  apply keeps_State_svcHalt (w := w.of)
  apply keeps_State_updSvc (w := w.of)
  assumption

theorem keeps_State_svcStore (a1 : State) (a2 : Nat) (a3 : Bytes) (h1 : Keeps S z a1) (w : Sub [.irq, .svc] S) : Keeps
    S z (State.svcStore a1 a2 a3) := by
  unfold State.svcStore
  refine keeps_ite ?_ ?_
  · assumption
  · refine keeps_ite ?_ ?_
    · refine keeps_ite ?_ ?_
      · apply keeps_State_updSvc (w := w.of)
        assumption
      · apply keeps_State_updSvc (w := w.of)
        assumption
    · apply keeps_State_raise (w := w.of)
      apply keeps_State_nextTurn (w := w.of)
      apply keeps_State_setSvcBuf (w := w.of)
      assumption

theorem keeps_execSvcOutPacket (a1 : Nat) (a2 : Nat) (a3 : Bytes) (a4 : State) (h4 : Keeps S z a4) (w : Sub [.objs,
    .irq, .sent, .svc] S) : KeepsA S z (execSvcOutPacket a1 a2 a3 a4) := by
  unfold execSvcOutPacket
  apply keeps_onUnit
  refine keeps_ite ?_ ?_
  · assumption
  · extract_lets +onlyGivenNames y1
    clear_value y1
    refine keeps_ite ?_ ?_
    · refine keeps_ite ?_ ?_
      · apply keeps_State_svcStore (w := w.of)
        assumption
      · assumption
    · refine keeps_ite ?_ ?_
      · apply keeps_State_send (w := w.of)
        assumption
      · refine keeps_ite ?_ ?_
        · apply keeps_State_send (w := w.of)
          assumption
        · refine keeps_ite ?_ ?_
          · extract_lets +onlyGivenNames y2
            have k2 : Keeps S z y2 := by
              unfold y2
              apply keeps_State_send (w := w.of)
              apply keeps_State_set (w := w.of)
              assumption
            clear_value y2
            apply keeps_State_svcStore (w := w.of)
            assumption
          · apply keeps_State_send (w := w.of)
            assumption

theorem keeps_State_svcSent (a1 : State) (a2 : Nat) (h1 : Keeps S z a1) (w : Sub [.irq, .svc] S) : Keeps S z
    (State.svcSent a1 a2) := by
  unfold State.svcSent
  refine keeps_ite ?_ ?_
  · apply keeps_State_updSvc (w := w.of)
    assumption
  · apply keeps_State_raise (w := w.of)
    apply keeps_State_nextTurn (w := w.of)
    apply keeps_State_setSvcBuf (w := w.of)
    assumption

theorem keeps_execSvcInToken (a1 : Nat) (a2 : Bool) (a3 : State) (h3 : Keeps S z a3) (w : Sub [.objs, .irq, .sent,
    .svc] S) : KeepsA S z (execSvcInToken a1 a2 a3) := by
  unfold execSvcInToken
  apply keeps_onUnit
  refine keeps_ite ?_ ?_
  · assumption
  · extract_lets +onlyGivenNames y1
    clear_value y1
    refine keeps_ite ?_ ?_
    · apply keeps_State_send (w := w.of)
      assumption
    · split
      · refine keeps_ite ?_ ?_
        · apply keeps_State_send (w := w.of)
          assumption
        · apply keeps_State_send (w := w.of)
          assumption
      · extract_lets +onlyGivenNames y2
        have k2 : Keeps S z y2 := by
          unfold y2
          apply keeps_State_send (w := w.of)
          assumption
        clear_value y2
        refine keeps_ite ?_ ?_
        · apply keeps_State_svcSent (w := w.of)
          assumption
        · refine keeps_ite ?_ ?_
          · apply keeps_State_svcSent (w := w.of)
            apply keeps_State_set (w := w.of)
            assumption
          · assumption

theorem keeps_execSvcSuspendDetected (a1 : State) (h1 : Keeps S z a1) (w : Sub [.objs, .irq, .jour, .svc] S) : KeepsA
    S z (execSvcSuspendDetected a1) := by
  unfold execSvcSuspendDetected
  refine keeps_next ?_
  refine keeps_ite ?_ ?_
  · apply keeps_State_svcGo (w := w.of)
    apply keeps_State_updSvc (w := w.of)
    assumption
  · assumption

theorem keeps_execSvcHostResume (a1 : State) (h1 : Keeps S z a1) (w : Sub [.objs, .irq, .jour] S) : KeepsA S z
    (execSvcHostResume a1) := by
  unfold execSvcHostResume
  refine keeps_next ?_
  refine keeps_ite ?_ ?_
  · apply keeps_State_svcGo (w := w.of)
    assumption
  · assumption

theorem keeps_execSvcRemoteWake (a1 : Path) (a2 : Bool) (a3 : State) (h3 : Keeps S z a3) (w : Sub [.objs, .sessions,
    .cmds, .irq, .jour, .sent] S) : KeepsA S z (execSvcRemoteWake a1 a2 a3) := by
  unfold execSvcRemoteWake
  apply keeps_onPath
  · assumption
  · apply keeps_State_command (w := w.of)
    · assumption
    · intro x1
      intro k2
      extract_lets +onlyGivenNames y3
      have k3 : Keeps S z y3 := by
        unfold y3
        refine keeps_ite ?_ ?_
        · apply keeps_State_cmdFail (w := w.of)
          assumption
        · apply keeps_State_cmdCommit (w := w.of)
          apply keeps_State_send (w := w.of)
          assumption
      clear_value y3
      apply keeps_State_raise (w := w.of)
      assumption

theorem keeps_execSvcDeviceEnableWrite (a1 : Path) (a2 : Nat) (a3 : State) (h3 : Keeps S z a3) (w : Sub [.objs,
    .sessions, .irq, .jour, .svc] S) : KeepsA S z (execSvcDeviceEnableWrite a1 a2 a3) := by
  unfold execSvcDeviceEnableWrite
  apply keeps_onPath
  · assumption
  · apply keeps_State_writeNum (w := w.of)
    · assumption
    · intro x1
      intro k2
      extract_lets +onlyGivenNames y3
      have k3 : Keeps S z y3 := by
        unfold y3
        apply keeps_State_set (w := w.of)
        assumption
      clear_value y3
      refine keeps_ite ?_ ?_
      · apply keeps_State_takePlan (w := w.of)
        assumption
      · assumption

theorem keeps_execIrigFrameReceived (a1 : Nat) (a2 : Irig) (a3 : State) (h3 : Keeps S z a3) (w : Sub [.objs, .station,
    .freeCount, .irq, .jour, .rates, .scheds, .time, .pl] S) : KeepsA S z (execIrigFrameReceived a1 a2 a3) := by
  unfold execIrigFrameReceived
  apply keeps_onPort
  · assumption
  · extract_lets +onlyGivenNames y1
    clear_value y1
    refine keeps_ite ?_ ?_
    · assumption
    · refine keeps_ite ?_ ?_
      · extract_lets +onlyGivenNames y2
        have k2 : Keeps S z y2 := by
          unfold y2
          apply keeps_State_inputErrors (w := w.of)
          apply keeps_State_count (w := w.of)
          assumption
        clear_value y2
        refine keeps_ite ?_ ?_
        · apply keeps_State_updTime (w := w.of)
          assumption
        · assumption
      · extract_lets +onlyGivenNames y3
        clear_value y3
        extract_lets +onlyGivenNames y4
        have k4 : Keeps S z y4 := by
          unfold y4
          apply keeps_State_updTime (w := w.of)
          assumption
        clear_value y4
        refine keeps_ite ?_ ?_
        · assumption
        · refine keeps_ite ?_ ?_
          · apply keeps_State_sourceLost (w := w.of)
            assumption
          · extract_lets +onlyGivenNames y5
            clear_value y5
            extract_lets +onlyGivenNames y6
            have k6 : Keeps S z y6 := by
              unfold y6
              refine keeps_ite ?_ ?_
              · apply keeps_State_set (w := w.of)
                assumption
              · assumption
            clear_value y6
            apply keeps_State_sample (w := w.of)
            assumption

theorem keeps_execPpsInEdge (a1 : Bool) (a2 : State) (h2 : Keeps S z a2) (w : Sub [.objs, .station, .freeCount, .irq,
    .jour, .rates, .scheds, .time, .pl] S) : KeepsA S z (execPpsInEdge a1 a2) := by
  unfold execPpsInEdge
  refine keeps_next ?_
  refine keeps_ite ?_ ?_
  · apply keeps_State_sample (w := w.of)
    assumption
  · assumption

theorem keeps_execPpsOutSecond (a1 : State) (h1 : Keeps S z a1) (w : Sub [.sent, .time] S) : KeepsA S z
    (execPpsOutSecond a1) := by
  unfold execPpsOutSecond
  refine keeps_next ?_
  refine keeps_ite ?_ ?_
  · apply keeps_State_send (w := w.of)
    apply keeps_State_updTime (w := w.of)
    assumption
  · assumption

theorem keeps_execPpsOutWidthEnd (a1 : State) (h1 : Keeps S z a1) (w : Sub [.sent, .time] S) : KeepsA S z
    (execPpsOutWidthEnd a1) := by
  unfold execPpsOutWidthEnd
  refine keeps_next ?_
  refine keeps_ite ?_ ?_
  · apply keeps_State_send (w := w.of)
    apply keeps_State_updTime (w := w.of)
    assumption
  · assumption

theorem keeps_execTimeSourceLost (a1 : State) (h1 : Keeps S z a1) (w : Sub [.objs, .irq, .jour, .rates, .time] S) :
    KeepsA S z (execTimeSourceLost a1) := by
  unfold execTimeSourceLost
  refine keeps_next ?_
  refine keeps_ite ?_ ?_
  · extract_lets +onlyGivenNames y1
    have k1 : Keeps S z y1 := by
      unfold y1
      refine keeps_ite ?_ ?_
      · apply keeps_State_inputErrors (w := w.of)
        assumption
      · assumption
    clear_value y1
    apply keeps_State_sourceLost (w := w.of)
    assumption
  · assumption

theorem keeps_execHoldoverLimitExpired (a1 : State) (h1 : Keeps S z a1) (w : Sub [.objs, .irq, .jour, .time] S) :
    KeepsA S z (execHoldoverLimitExpired a1) := by
  unfold execHoldoverLimitExpired
  refine keeps_next ?_
  refine keeps_ite ?_ ?_
  · apply keeps_State_setTime (w := w.of)
    assumption
  · assumption

theorem keeps_execTimeSourceWrite (a1 : Path) (a2 : Nat) (a3 : Nat) (a4 : State) (h4 : Keeps S z a4) (w : Sub [.objs,
    .sessions, .irq, .jour, .time] S) : KeepsA S z (execTimeSourceWrite a1 a2 a3 a4) := by
  unfold execTimeSourceWrite
  apply keeps_onPath
  · assumption
  · apply keeps_State_writeNum (w := w.of)
    · assumption
    · intro x1
      intro k2
      apply keeps_State_reselect (w := w.of)
      apply keeps_State_set (w := w.of)
      assumption

theorem keeps_execSf3Fault (a1 : Nat) (a2 : State) (h2 : Keeps S z a2) (w : Sub [.objs, .irq, .jour, .sent, .time,
    .safety] S) : KeepsA S z (execSf3Fault a1 a2) := by
  unfold execSf3Fault
  extract_lets +onlyGivenNames y1
  clear_value y1
  refine keeps_next ?_
  refine keeps_ite ?_ ?_
  · apply keeps_State_timeFault (w := w.of)
    assumption
  · assumption

theorem keeps_execTimeStep (a1 : Path) (a2 : State) (h2 : Keeps S z a2) (w : Sub [.objs, .station, .sessions, .cmds,
    .irq, .jour, .rates, .scheds, .time, .pl] S) : KeepsA S z (execTimeStep a1 a2) := by
  unfold execTimeStep
  apply keeps_onPath
  · assumption
  · apply keeps_State_command (w := w.of)
    · assumption
    · intro x1
      intro k2
      refine keeps_ite ?_ ?_
      · apply keeps_State_cmdFail (w := w.of)
        assumption
      · refine keeps_ite ?_ ?_
        · apply keeps_State_cmdFail (w := w.of)
          assumption
        · apply keeps_State_leaveFault (w := w.of)
          apply keeps_State_cmdCommit (w := w.of)
          apply keeps_State_stepTime (w := w.of)
          assumption

theorem keeps_execTimeSet (a1 : Path) (a2 : State) (h2 : Keeps S z a2) (w : Sub [.objs, .station, .sessions, .cmds,
    .irq, .jour, .rates, .scheds, .time, .pl] S) : KeepsA S z (execTimeSet a1 a2) := by
  unfold execTimeSet
  apply keeps_onPath
  · assumption
  · apply keeps_State_command (w := w.of)
    · assumption
    · intro x1
      intro k2
      apply keeps_State_leaveFault (w := w.of)
      apply keeps_State_cmdCommit (w := w.of)
      apply keeps_State_stepTime (w := w.of)
      assumption

theorem keeps_execTimeSlew (a1 : Path) (a2 : State) (h2 : Keeps S z a2) (w : Sub [.objs, .sessions, .cmds, .irq,
    .jour, .time] S) : KeepsA S z (execTimeSlew a1 a2) := by
  unfold execTimeSlew
  apply keeps_onPath
  · assumption
  · apply keeps_State_command (w := w.of)
    · assumption
    · intro x1
      intro k2
      refine keeps_ite ?_ ?_
      · apply keeps_State_cmdCommit (w := w.of)
        apply keeps_State_slewTime (w := w.of)
        assumption
      · apply keeps_State_cmdFail (w := w.of)
        assumption

theorem keeps_execHostFrequencyWrite (a1 : Path) (a2 : Nat) (a3 : State) (h3 : Keeps S z a3) (w : Sub [.objs,
    .sessions, .irq, .jour, .time] S) : KeepsA S z (execHostFrequencyWrite a1 a2 a3) := by
  unfold execHostFrequencyWrite
  apply keeps_onPath
  · assumption
  · apply keeps_State_writeNum (w := w.of)
    · assumption
    · intro x1
      intro k2
      extract_lets +onlyGivenNames y3
      have k3 : Keeps S z y3 := by
        unfold y3
        apply keeps_State_set (w := w.of)
        assumption
      clear_value y3
      refine keeps_ite ?_ ?_
      · apply keeps_State_setWord (w := w.of)
        assumption
      · assumption

theorem keeps_execTimeStatusMessageSend (a1 : Nat) (a2 : State) (h2 : Keeps S z a2) (w : Sub [.fabric, .pl] S) :
    KeepsA S z (execTimeStatusMessageSend a1 a2) := by
  unfold execTimeStatusMessageSend
  extract_lets +onlyGivenNames y1
  clear_value y1
  apply keeps_onPort
  · assumption
  · refine keeps_ite ?_ ?_
    · apply keeps_State_emit (w := w.of)
      apply keeps_State_updPl (w := w.of)
      assumption
    · assumption

theorem keeps_execTimeStatusMessageReceived (a1 : Nat) (a2 : Bytes) (a3 : State) (h3 : Keeps S z a3) (w : Sub [.objs,
    .irq, .jour, .pl] S) : KeepsA S z (execTimeStatusMessageReceived a1 a2 a3) := by
  unfold execTimeStatusMessageReceived
  apply keeps_onPort
  · assumption
  · refine keeps_ite ?_ ?_
    · extract_lets +onlyGivenNames y1
      clear_value y1
      extract_lets +onlyGivenNames y2
      have k2 : Keeps S z y2 := by
        unfold y2
        apply keeps_State_setAll (w := w.of)
        assumption
      clear_value y2
      extract_lets +onlyGivenNames y3
      have k3 : Keeps S z y3 := by
        unfold y3
        apply keeps_State_updPl (w := w.of)
        assumption
      clear_value y3
      refine keeps_ite ?_ ?_
      · assumption
      · apply keeps_State_timeEv (w := w.of)
        assumption
    · assumption

theorem keeps_execLeapSecond (a1 : State) (h1 : Keeps S z a1) (w : Sub [.objs, .irq, .jour, .pl] S) : KeepsA S z
    (execLeapSecond a1) := by
  unfold execLeapSecond
  extract_lets +onlyGivenNames y1
  clear_value y1
  extract_lets +onlyGivenNames y2
  clear_value y2
  extract_lets +onlyGivenNames y3
  clear_value y3
  refine keeps_next ?_
  refine keeps_ite ?_ ?_
  · assumption
  · extract_lets +onlyGivenNames y4
    have k4 : Keeps S z y4 := by
      unfold y4
      split
      · apply keeps_State_updPl (w := w.of)
        assumption
      · apply keeps_State_setAll (w := w.of)
        assumption
    clear_value y4
    apply keeps_State_timeEv (w := w.of)
    assumption

theorem keeps_State_statementMade (a1 : State) (a2 : Nat) (a3 : Nat) (a4 : Nat) (a5 : Nat) (h1 : Keeps S z
    a1) (w : Sub [.objs, .irq, .jour, .rates] S) : Keeps S z (State.statementMade a1 a2 a3 a4 a5) := by
  unfold State.statementMade
  extract_lets +onlyGivenNames y1
  have k1 : Keeps S z y1 := by
    unfold y1
    refine keeps_ite ?_ ?_
    · apply keeps_State_count (w := w.of)
      assumption
    · assumption
  clear_value y1
  apply keeps_State_evRate (w := w.of)
  apply keeps_State_set (w := w.of)
  assumption

theorem keeps_State_vanguriAnswer (a1 : State) (a2 : Nat) (a3 : Bytes) (a4 : Bool) (h1 : Keeps S z a1) (w : Sub
    [.objs, .irq, .jour, .rates, .fabric] S) : Keeps S z (State.vanguriAnswer a1 a2 a3 a4) := by
  unfold State.vanguriAnswer
  extract_lets +onlyGivenNames y1
  clear_value y1
  extract_lets +onlyGivenNames y2
  clear_value y2
  extract_lets +onlyGivenNames y3
  have k3 : Keeps S z y3 := by
    unfold y3
    apply keeps_State_statementMade (w := w.of)
    assumption
  clear_value y3
  extract_lets +onlyGivenNames y4
  clear_value y4
  apply keeps_forAll
  · intro x5
    intro x6
    intro k7
    apply keeps_State_emit (w := w.of)
    assumption
  · assumption

theorem keeps_execVanguriRequest (a1 : Nat) (a2 : Bool) (a3 : Bytes) (a4 : Bool) (a5 : State) (h5 : Keeps S z a5) (w :
    Sub [.objs, .irq, .jour, .rates, .fabric, .secu] S) : KeepsA S z (execVanguriRequest a1 a2 a3 a4 a5) := by
  unfold execVanguriRequest
  apply keeps_onPort
  · assumption
  · refine keeps_ite ?_ ?_
    · refine keeps_ite ?_ ?_
      · apply keeps_State_count (w := w.of)
        assumption
      · refine keeps_ite ?_ ?_
        · refine keeps_mk ?_ (w_secu := .inr w.has)
          assumption
        · apply keeps_State_vanguriAnswer (w := w.of)
          assumption
    · assumption

theorem keeps_State_vanguriServe (a1 : State) (a2 : Nat) (h1 : Keeps S z a1) (w : Sub [.objs, .irq, .jour, .rates,
    .fabric, .secu] S) : Keeps S z (State.vanguriServe a1 a2) := by
  unfold State.vanguriServe
  split
  · assumption
  · refine keeps_ite ?_ ?_
    · apply keeps_State_vanguriAnswer (w := w.of)
      refine keeps_mk ?_ (w_secu := .inr w.has)
      assumption
    · assumption

theorem keeps_execVanguriSign (a1 : Path) (a2 : Bool) (a3 : State) (h3 : Keeps S z a3) (w : Sub [.objs, .strs,
    .sessions, .cmds, .irq, .jour, .rates] S) : KeepsA S z (execVanguriSign a1 a2 a3) := by
  unfold execVanguriSign
  apply keeps_onPath
  · assumption
  · apply keeps_State_command (w := w.of)
    · assumption
    · intro x1
      intro k2
      extract_lets +onlyGivenNames y3
      clear_value y3
      extract_lets +onlyGivenNames y4
      clear_value y4
      extract_lets +onlyGivenNames y5
      clear_value y5
      apply keeps_State_cmdCommit (w := w.of)
      apply keeps_State_statementMade (w := w.of)
      apply keeps_State_setStr (w := w.of)
      assumption

end Sys2Proof.Laws
end

