-- ==== Sys2Proof/Laws/KeepsAccess.lean ====
section
/-!
SUPPORT. What each operation can change and what it keeps: access to the dictionary on every path. One lemma for each definition, in the order of the
files under Machine/.
-/

set_option Elab.async false

set_option linter.all false

namespace Sys2Proof.Laws

open Sys2Proof Sys2Proof.Machine

variable {S : Piece → Bool} {z : State}

theorem keeps_State_after (a1 : State) (a2 : Ans) (h1 : Keeps S z a1) (h2 : KeepsA S z a2) : Keeps S z (State.after a1
    a2) := by
  unfold State.after
  split
  · exact h2 _ rfl
  · exact h1

theorem keeps_State_noCommand (a1 : State) (a2 : Path) (a3 : Nat) (a4 : Nat) (a5 : List Nat) (a6 : List Nat) (h1 :
    Keeps S z a1) (w : Sub [.objs, .sessions, .cmds, .irq, .jour] S) : Keeps S z (State.noCommand a1 a2 a3 a4 a5 a6)
    := by
  unfold State.noCommand
  apply keeps_State_command (w := w.of)
  · assumption
  · intro x1
    intro k2
    refine keeps_id ?_
    assumption

theorem keeps_State_linkCommand (a1 : State) (a2 : Path) (a3 : Nat) (a4 : Nat) (h1 : Keeps S z a1) (w : Sub [.objs,
    .freeCount, .timers, .sessions, .cmds, .irq, .jour, .rates, .sent, .trunks, .tunnels, .fabric, .scheds, .disps,
    .usb, .pl, .stor, .fld] S) : Keeps S z (State.linkCommand a1 a2 a3 a4) := by
  unfold State.linkCommand
  refine keeps_ite ?_ ?_
  · extract_lets +onlyGivenNames y1
    clear_value y1
    refine keeps_ite ?_ ?_
    · refine keeps_ite ?_ ?_
      · apply keeps_State_after
        · assumption
        · apply keeps_execEyeApplyLane (w := w.of)
          assumption
      · refine keeps_ite ?_ ?_
        · apply keeps_State_after
          · assumption
          · apply keeps_execEyeFinishEqualise (w := w.of)
            assumption
        · apply keeps_State_noCommand (w := w.of)
          assumption
    · refine keeps_ite ?_ ?_
      · apply keeps_State_after
        · assumption
        · apply keeps_execTrunkRetrain (w := w.of)
          assumption
      · refine keeps_ite ?_ ?_
        · apply keeps_State_after
          · assumption
          · apply keeps_execTrunkClearCounters (w := w.of)
            assumption
        · apply keeps_State_noCommand (w := w.of)
          assumption
  · refine keeps_ite ?_ ?_
    · apply keeps_State_after
      · assumption
      · apply keeps_execFabricClearCounters (w := w.of)
        assumption
    · refine keeps_ite ?_ ?_
      · split
        · apply keeps_State_after
          · assumption
          · apply keeps_execL2ReadMatch (w := w.of)
            assumption
        · apply keeps_State_after
          · assumption
          · apply keeps_execL2ReadSlot (w := w.of)
            assumption
        · apply keeps_State_after
          · assumption
          · apply keeps_execL2WriteEntry (w := w.of)
            assumption
        · apply keeps_State_after
          · assumption
          · apply keeps_execL2DeleteEntry (w := w.of)
            assumption
        · apply keeps_State_after
          · assumption
          · apply keeps_execL2FlushLearnt (w := w.of)
            assumption
      · refine keeps_ite ?_ ?_
        · apply keeps_State_after
          · assumption
          · apply keeps_execGateTableSwitch (w := w.of)
            assumption
        · refine keeps_ite ?_ ?_
          · apply keeps_State_after
            · assumption
            · apply keeps_execOutputClearCounters (w := w.of)
              assumption
          · refine keeps_ite ?_ ?_
            · apply keeps_State_after
              · assumption
              · apply keeps_execIntegrityClear (w := w.of)
                assumption
            · apply keeps_State_noCommand (w := w.of)
              assumption

theorem keeps_State_portCommand (a1 : State) (a2 : Path) (a3 : Nat) (a4 : Nat) (h1 : Keeps S z a1) (w : Sub [.objs,
    .station, .freeCount, .timers, .sessions, .cmds, .irq, .jour, .rates, .sent, .fabric, .scheds, .usb, .pd, .time,
    .pl, .stor, .fld, .power] S) : Keeps S z (State.portCommand a1 a2 a3 a4) := by
  unfold State.portCommand
  refine keeps_ite ?_ ?_
  · apply keeps_State_after
    · assumption
    · apply keeps_execUsbHubClearCounters (w := w.of)
      assumption
  · refine keeps_ite ?_ ?_
    · extract_lets +onlyGivenNames y1
      clear_value y1
      refine keeps_ite ?_ ?_
      · apply keeps_State_after
        · assumption
        · apply keeps_execUsbPortTestMode (w := w.of)
          assumption
      · refine keeps_ite ?_ ?_
        · apply keeps_State_after
          · assumption
          · apply keeps_execUsbPortPowerOn (w := w.of)
            assumption
        · refine keeps_ite ?_ ?_
          · apply keeps_State_after
            · assumption
            · apply keeps_execUsbPortPowerOff (w := w.of)
              assumption
          · refine keeps_ite ?_ ?_
            · apply keeps_State_after
              · assumption
              · apply keeps_execUsbPortReset (w := w.of)
                assumption
            · refine keeps_ite ?_ ?_
              · apply keeps_State_after
                · assumption
                · apply keeps_execUsbPortSuspend (w := w.of)
                  assumption
              · refine keeps_ite ?_ ?_
                · apply keeps_State_after
                  · assumption
                  · apply keeps_execUsbPortResume (w := w.of)
                    assumption
                · apply keeps_State_noCommand (w := w.of)
                  assumption
    · refine keeps_ite ?_ ?_
      · apply keeps_State_after
        · assumption
        · apply keeps_execSvcRemoteWake (w := w.of)
          assumption
      · refine keeps_ite ?_ ?_
        · refine keeps_ite ?_ ?_
          · apply keeps_State_after
            · assumption
            · apply keeps_execPdCmdDrSwap (w := w.of)
              assumption
          · refine keeps_ite ?_ ?_
            · apply keeps_State_after
              · assumption
              · apply keeps_execPdCmdVconnSwap (w := w.of)
                assumption
            · refine keeps_ite ?_ ?_
              · apply keeps_State_after
                · assumption
                · apply keeps_execPdCmdHardReset (w := w.of)
                  assumption
              · refine keeps_ite ?_ ?_
                · apply keeps_State_after
                  · assumption
                  · apply keeps_execPdCmdSendSourceCap (w := w.of)
                    assumption
                · refine keeps_ite ?_ ?_
                  · apply keeps_State_after
                    · assumption
                    · apply keeps_execPdCmdRequest (w := w.of)
                      assumption
                  · apply keeps_State_pdCommand (w := w.of)
                    · assumption
                    · intro x2
                      intro k3
                      refine keeps_id ?_
                      assumption
        · refine keeps_ite ?_ ?_
          · apply keeps_State_after
            · assumption
            · apply keeps_execEthPortClearCounters (w := w.of)
              assumption
          · refine keeps_ite ?_ ?_
            · apply keeps_State_after
              · assumption
              · apply keeps_execStorageFlush (w := w.of)
                assumption
            · refine keeps_ite ?_ ?_
              · apply keeps_State_after
                · assumption
                · apply keeps_execPcieClearCounters (w := w.of)
                  assumption
              · refine keeps_ite ?_ ?_
                · apply keeps_State_after
                  · assumption
                  · apply keeps_execWindowUnfence (w := w.of)
                    assumption
                · refine keeps_ite ?_ ?_
                  · apply keeps_State_after
                    · assumption
                    · apply keeps_execWindowClearCounters (w := w.of)
                      assumption
                  · refine keeps_ite ?_ ?_
                    · apply keeps_State_after
                      · assumption
                      · apply keeps_execCanLeaveBusOff (w := w.of)
                        assumption
                    · refine keeps_ite ?_ ?_
                      · apply keeps_State_after
                        · assumption
                        · apply keeps_execTimeStep (w := w.of)
                          assumption
                      · refine keeps_ite ?_ ?_
                        · apply keeps_State_after
                          · assumption
                          · apply keeps_execTimeSet (w := w.of)
                            assumption
                        · refine keeps_ite ?_ ?_
                          · apply keeps_State_after
                            · assumption
                            · apply keeps_execTimeSlew (w := w.of)
                              assumption
                          · refine keeps_ite ?_ ?_
                            · apply keeps_State_after
                              · assumption
                              · apply keeps_execJournalClear (w := w.of)
                                assumption
                            · apply keeps_State_noCommand (w := w.of)
                              assumption

theorem keeps_State_keyCommand (a1 : State) (a2 : Path) (a3 : Nat) (a4 : Nat) (h1 : Keeps S z a1) (w : Sub
    (Piece.allBut [.head, .station, .lockouts, .sessionCounter, .canOpen, .modeHeld, .stateHeld, .svc, .time, .eth,
    .dram, .canNode, .app, .safety, .boot]) S) : Keeps S z (State.keyCommand a1 a2 a3 a4) := by
  unfold State.keyCommand
  refine keeps_ite ?_ ?_
  · refine keeps_ite ?_ ?_
    · apply keeps_State_after
      · assumption
      · apply keeps_execTunnelDrain (w := w.of)
        assumption
    · refine keeps_ite ?_ ?_
      · apply keeps_State_after
        · assumption
        · apply keeps_execTunnelClearCounters (w := w.of)
          assumption
      · apply keeps_State_noCommand (w := w.of)
        assumption
  · refine keeps_ite ?_ ?_
    · refine keeps_ite ?_ ?_
      · apply keeps_State_after
        · assumption
        · apply keeps_execEnterOperational (w := w.of)
          assumption
      · refine keeps_ite ?_ ?_
        · apply keeps_State_after
          · assumption
          · apply keeps_execDecommission (w := w.of)
            assumption
        · refine keeps_ite ?_ ?_
          · apply keeps_State_after
            · assumption
            · apply keeps_execEnrolCustomerKeyHash (w := w.of)
              assumption
          · apply keeps_State_noCommand (w := w.of)
            assumption
    · refine keeps_ite ?_ ?_
      · refine keeps_ite ?_ ?_
        · apply keeps_State_after
          · assumption
          · apply keeps_execKeyDerive (w := w.of)
            assumption
        · refine keeps_ite ?_ ?_
          · apply keeps_State_after
            · assumption
            · apply keeps_execKeyAgree (w := w.of)
              assumption
          · refine keeps_ite ?_ ?_
            · apply keeps_State_after
              · assumption
              · apply keeps_execKeyImport (w := w.of)
                assumption
            · refine keeps_ite ?_ ?_
              · apply keeps_State_after
                · assumption
                · apply keeps_execKeyInvalidate (w := w.of)
                  assumption
              · apply keeps_State_noCommand (w := w.of)
                assumption
      · refine keeps_ite ?_ ?_
        · apply keeps_State_after
          · assumption
          · apply keeps_execTamperClear (w := w.of)
            assumption
        · refine keeps_ite ?_ ?_
          · apply keeps_State_after
            · assumption
            · apply keeps_execVanguriSign (w := w.of)
              assumption
          · refine keeps_ite ?_ ?_
            · apply keeps_State_after
              · assumption
              · apply keeps_execPowerEntryClearCounters (w := w.of)
                assumption
            · refine keeps_ite ?_ ?_
              · extract_lets +onlyGivenNames y1
                clear_value y1
                refine keeps_ite ?_ ?_
                · apply keeps_State_after
                  · assumption
                  · apply keeps_execBreakerReset (w := w.of)
                    assumption
                · refine keeps_ite ?_ ?_
                  · apply keeps_State_after
                    · assumption
                    · apply keeps_execBreakerRetryNow (w := w.of)
                      assumption
                  · refine keeps_ite ?_ ?_
                    · apply keeps_State_after
                      · assumption
                      · apply keeps_execBreakerClearCounters (w := w.of)
                        assumption
                    · apply keeps_State_noCommand (w := w.of)
                      assumption
              · apply keeps_State_noCommand (w := w.of)
                assumption

theorem keeps_State_systemCommand (a1 : State) (a2 : Path) (a3 : Nat) (a4 : Nat) (h1 : Keeps S z a1) (w : Sub [.objs,
    .timers, .sessions, .cmds, .irq, .jour, .sent, .app, .safety, .boot] S) : Keeps S z (State.systemCommand a1 a2 a3
    a4) := by
  unfold State.systemCommand
  refine keeps_ite ?_ ?_
  · apply keeps_State_after
    · assumption
    · apply keeps_execMarginApprove (w := w.of)
      assumption
  · refine keeps_ite ?_ ?_
    · apply keeps_State_after
      · assumption
      · apply keeps_execMarginPlanNow (w := w.of)
        assumption
    · refine keeps_ite ?_ ?_
      · apply keeps_State_after
        · assumption
        · apply keeps_execSafetyClearLatches (w := w.of)
          assumption
      · refine keeps_ite ?_ ?_
        · apply keeps_State_after
          · assumption
          · apply keeps_execShadowReload (w := w.of)
            assumption
        · refine keeps_ite ?_ ?_
          · apply keeps_State_after
            · assumption
            · apply keeps_execAppStart (w := w.of)
              assumption
          · refine keeps_ite ?_ ?_
            · apply keeps_State_after
              · assumption
              · apply keeps_execAppHalt (w := w.of)
                assumption
            · refine keeps_ite ?_ ?_
              · apply keeps_State_after
                · assumption
                · apply keeps_execAppRestart (w := w.of)
                  assumption
              · refine keeps_ite ?_ ?_
                · apply keeps_State_after
                  · assumption
                  · apply keeps_execAppClearCounters (w := w.of)
                    assumption
                · refine keeps_ite ?_ ?_
                  · apply keeps_State_after
                    · assumption
                    · apply keeps_execAppMailboxPost (w := w.of)
                      assumption
                  · refine keeps_ite ?_ ?_
                    · refine keeps_ite ?_ ?_
                      · apply keeps_State_after
                        · assumption
                        · apply keeps_execFwConfirmSlot (w := w.of)
                          assumption
                      · refine keeps_ite ?_ ?_
                        · apply keeps_State_after
                          · assumption
                          · apply keeps_execFwAdvanceRollback (w := w.of)
                            assumption
                        · refine keeps_ite ?_ ?_
                          · apply keeps_State_after
                            · assumption
                            · apply keeps_execFwRaiseAppFloor (w := w.of)
                              assumption
                          · refine keeps_ite ?_ ?_
                            · apply keeps_State_after
                              · assumption
                              · apply keeps_execFwReset (w := w.of)
                                assumption
                            · apply keeps_State_noCommand (w := w.of)
                              assumption
                    · refine keeps_ite ?_ ?_
                      · refine keeps_ite ?_ ?_
                        · apply keeps_State_after
                          · assumption
                          · apply keeps_execImageStage (w := w.of)
                            assumption
                        · refine keeps_ite ?_ ?_
                          · apply keeps_State_after
                            · assumption
                            · apply keeps_execImageActivate (w := w.of)
                              assumption
                          · refine keeps_ite ?_ ?_
                            · apply keeps_State_after
                              · assumption
                              · apply keeps_execImageDiscard (w := w.of)
                                assumption
                            · apply keeps_State_noCommand (w := w.of)
                              assumption
                      · refine keeps_ite ?_ ?_
                        · apply keeps_State_after
                          · assumption
                          · apply keeps_execOrphanDiscard (w := w.of)
                            assumption
                        · apply keeps_State_noCommand (w := w.of)
                          assumption

theorem keeps_State_commandWrite (a1 : State) (a2 : Path) (a3 : Nat) (a4 : Nat) (h1 : Keeps S z a1) (w : Sub
    (Piece.allBut [.head, .lockouts, .sessionCounter, .canOpen, .modeHeld, .stateHeld, .svc, .eth, .dram, .canNode])
    S) : Keeps S z (State.commandWrite a1 a2 a3 a4) := by
  unfold State.commandWrite
  refine keeps_ite ?_ ?_
  · apply keeps_State_noCommand (w := w.of)
    assumption
  · refine keeps_ite ?_ ?_
    · apply keeps_State_linkCommand (w := w.of)
      assumption
    · refine keeps_ite ?_ ?_
      · apply keeps_State_portCommand (w := w.of)
        assumption
      · refine keeps_ite ?_ ?_
        · apply keeps_State_keyCommand (w := w.of)
          assumption
        · apply keeps_State_systemCommand (w := w.of)
          assumption

theorem keeps_State_afterStore (a1 : State) (a2 : Path) (a3 : Nat) (a4 : Nat) (a5 : Nat) (a6 : Nat) (h1 : Keeps S z
    a1) (w : Sub [.objs, .freeCount, .timers, .sessions, .irq, .jour, .rates, .sent, .trunks, .tunnels, .fabric,
    .scheds, .disps, .usb, .pd, .eth, .pl, .stor, .fld, .secu, .power, .safety] S) : Keeps S z (State.afterStore a1 a2
    a3 a4 a5 a6) := by
  unfold State.afterStore
  refine keeps_ite ?_ ?_
  · apply keeps_State_updSession (w := w.of)
    assumption
  · extract_lets +onlyGivenNames y1
    clear_value y1
    extract_lets +onlyGivenNames y2
    have k2 : Keeps S z y2 := by
      unfold y2
      apply keeps_State_set (w := w.of)
      assumption
    clear_value y2
    refine keeps_ite ?_ ?_
    · apply keeps_State_start (w := w.of)
      assumption
    · refine keeps_ite ?_ ?_
      · apply keeps_State_heldWrite (w := w.of)
        assumption
      · refine keeps_ite ?_ ?_
        · apply keeps_State_showReserved (w := w.of)
          assumption
        · refine keeps_ite ?_ ?_
          · apply keeps_State_relaySwitch (w := w.of)
            assumption
          · refine keeps_ite ?_ ?_
            · apply keeps_State_roleModeWritten (w := w.of)
              assumption
            · refine keeps_ite ?_ ?_
              · apply keeps_State_rpWritten (w := w.of)
                assumption
              · refine keeps_ite ?_ ?_
                · apply keeps_State_ptpState (w := w.of)
                  assumption
                · refine keeps_ite ?_ ?_
                  · apply keeps_State_ethLinkLost (w := w.of)
                    assumption
                  · refine keeps_ite ?_ ?_
                    · apply keeps_State_pairCheck (w := w.of)
                      assumption
                    · refine keeps_ite ?_ ?_
                      · apply keeps_State_pcieLinkLost (w := w.of)
                        assumption
                      · refine keeps_ite ?_ ?_
                        · apply keeps_State_windowSet (w := w.of)
                          assumption
                        · refine keeps_ite ?_ ?_
                          · refine keeps_ite ?_ ?_
                            · apply keeps_State_goosePublish (w := w.of)
                              assumption
                            · apply keeps_State_updPub (w := w.of)
                              assumption
                          · refine keeps_ite ?_ ?_
                            · refine keeps_ite ?_ ?_
                              · apply keeps_State_uartRts (w := w.of)
                                assumption
                              · assumption
                            · refine keeps_ite ?_ ?_
                              · apply keeps_State_updGsub (w := w.of)
                                assumption
                              · refine keeps_ite ?_ ?_
                                · apply keeps_State_set (w := w.of)
                                  assumption
                                · refine keeps_ite ?_ ?_
                                  · apply keeps_State_copyTamper (w := w.of)
                                    assumption
                                  · refine keeps_ite ?_ ?_
                                    · extract_lets +onlyGivenNames y3
                                      clear_value y3
                                      extract_lets +onlyGivenNames y4
                                      clear_value y4
                                      apply keeps_State_feedGo (w := w.of)
                                      assumption
                                    · refine keeps_ite ?_ ?_
                                      · apply keeps_State_pulse (w := w.of)
                                        assumption
                                      · refine keeps_ite ?_ ?_
                                        · refine keeps_ite ?_ ?_
                                          · apply keeps_State_appWatch (w := w.of)
                                            assumption
                                          · assumption
                                        · refine keeps_ite ?_ ?_
                                          · extract_lets +onlyGivenNames y5
                                            clear_value y5
                                            refine keeps_mk ?_ (w_irq := .inr w.has)
                                            assumption
                                          · refine keeps_ite ?_ ?_
                                            · apply keeps_State_mapEnable (w := w.of)
                                              assumption
                                            · assumption

theorem keeps_State_plainWrite (a1 : State) (a2 : Path) (a3 : Nat) (a4 : Nat) (a5 : ObjRow) (a6 : Bytes) (h1 : Keeps S
    z a1) (w : Sub (Piece.allBut [.head, .station, .lockouts, .sessionCounter, .cmds, .canOpen, .modeHeld, .stateHeld,
    .svc, .time, .dram, .canNode, .keys, .app, .boot]) S) : Keeps S z (State.plainWrite a1 a2 a3 a4 a5 a6) := by
  unfold State.plainWrite
  extract_lets +onlyGivenNames y1
  clear_value y1
  extract_lets +onlyGivenNames y2
  clear_value y2
  extract_lets +onlyGivenNames y3
  clear_value y3
  extract_lets +onlyGivenNames y4
  have k4 : Keeps S z y4 := by
    unfold y4
    apply keeps_State_write (w := w.of)
    · assumption
    · intro x5
      intro k6
      refine keeps_ite ?_ ?_
      · apply keeps_State_setStr (w := w.of)
        assumption
      · apply keeps_State_afterStore (w := w.of)
        assumption
  clear_value y4
  apply keeps_State_budgetCount (w := w.of)
  assumption

theorem keeps_State_lowWrite (a1 : State) (a2 : Path) (a3 : Nat) (a4 : Nat) (a5 : Nat) (a6 : ObjRow) (a7 : Bytes) (h1
    : Keeps S z a1) (w : Sub (Piece.allBut [.head, .station, .canNode, .keys, .app]) S) : Keeps S z (State.lowWrite a1
    a2 a3 a4 a5 a6 a7) := by
  unfold State.lowWrite
  extract_lets +onlyGivenNames y1
  clear_value y1
  refine keeps_ite ?_ ?_
  · refine keeps_ite ?_ ?_
    · apply keeps_State_after
      · assumption
      · apply keeps_execSessionEndRequest (w := w.of)
        assumption
    · apply keeps_State_after
      · assumption
      · apply keeps_execSessionRequest (w := w.of)
        assumption
  · refine keeps_ite ?_ ?_
    · apply keeps_State_after
      · assumption
      · apply keeps_execSessionResponse (w := w.of)
        assumption
    · refine keeps_ite ?_ ?_
      · apply keeps_State_after
        · assumption
        · apply keeps_execSessionLimitWrite (w := w.of)
          assumption
      · refine keeps_ite ?_ ?_
        · apply keeps_State_writeStore (w := w.of)
          assumption
        · refine keeps_ite ?_ ?_
          · apply keeps_State_writeRestore (w := w.of)
            assumption
          · refine keeps_ite ?_ ?_
            · apply keeps_State_after
              · assumption
              · apply keeps_execViolationsClear (w := w.of)
                assumption
            · refine keeps_ite ?_ ?_
              · apply keeps_State_askState (w := w.of)
                assumption
              · refine keeps_ite ?_ ?_
                · apply keeps_State_writeMode (w := w.of)
                  assumption
                · refine keeps_ite ?_ ?_
                  · apply keeps_State_after
                    · assumption
                    · apply keeps_execDomainEnableWrite (w := w.of)
                      assumption
                  · refine keeps_ite ?_ ?_
                    · apply keeps_State_after
                      · assumption
                      · apply keeps_execTrunkEnableWrite (w := w.of)
                        assumption
                    · refine keeps_ite ?_ ?_
                      · refine keeps_ite ?_ ?_
                        · apply keeps_State_after
                          · assumption
                          · apply keeps_execOutputEnable (w := w.of)
                            assumption
                        · refine keeps_ite ?_ ?_
                          · apply keeps_State_after
                            · assumption
                            · apply keeps_execOutputDisable (w := w.of)
                              assumption
                          · apply keeps_State_plainWrite (w := w.of)
                            assumption
                      · refine keeps_ite ?_ ?_
                        · apply keeps_State_after
                          · assumption
                          · apply keeps_execExpectedSignatureWrite (w := w.of)
                            assumption
                        · apply keeps_State_plainWrite (w := w.of)
                          assumption

theorem keeps_State_highWrite (a1 : State) (a2 : Path) (a3 : Nat) (a4 : Nat) (a5 : ObjRow) (a6 : Bytes) (h1 : Keeps S
    z a1) (w : Sub (Piece.allBut [.head, .station, .lockouts, .sessionCounter, .cmds, .modeHeld, .stateHeld, .dram,
    .canNode, .keys, .boot]) S) : Keeps S z (State.highWrite a1 a2 a3 a4 a5 a6) := by
  unfold State.highWrite
  extract_lets +onlyGivenNames y1
  clear_value y1
  refine keeps_ite ?_ ?_
  · apply keeps_State_after
    · assumption
    · apply keeps_execSvcDeviceEnableWrite (w := w.of)
      assumption
  · refine keeps_ite ?_ ?_
    · apply keeps_State_after
      · assumption
      · apply keeps_execPdoWrite (w := w.of)
        assumption
    · refine keeps_ite ?_ ?_
      · apply keeps_State_after
        · assumption
        · apply keeps_execTimeSourceWrite (w := w.of)
          assumption
      · refine keeps_ite ?_ ?_
        · apply keeps_State_after
          · assumption
          · apply keeps_execHostFrequencyWrite (w := w.of)
            assumption
        · refine keeps_ite ?_ ?_
          · extract_lets +onlyGivenNames y2
            clear_value y2
            refine keeps_ite ?_ ?_
            · apply keeps_State_after
              · assumption
              · apply keeps_execTunnelEnable (w := w.of)
                assumption
            · refine keeps_ite ?_ ?_
              · apply keeps_State_after
                · assumption
                · apply keeps_execTunnelDisable (w := w.of)
                  assumption
              · refine keeps_ite ?_ ?_
                · apply keeps_State_after
                  · assumption
                  · apply keeps_execKeySlotNextWrite (w := w.of)
                    assumption
                · refine keeps_ite ?_ ?_
                  · apply keeps_State_after
                    · assumption
                    · apply keeps_execTunnelRecordWrite (w := w.of)
                      assumption
                  · apply keeps_State_plainWrite (w := w.of)
                    assumption
          · refine keeps_ite ?_ ?_
            · apply keeps_State_after
              · assumption
              · apply keeps_execRetryCountWrite (w := w.of)
                assumption
            · refine keeps_ite ?_ ?_
              · apply keeps_State_after
                · assumption
                · apply keeps_execMarginEnvelopeWrite (w := w.of)
                  assumption
              · refine keeps_ite ?_ ?_
                · apply keeps_State_after
                  · assumption
                  · apply keeps_execBackgroundTaskEnableWrite (w := w.of)
                    assumption
                · refine keeps_ite ?_ ?_
                  · apply keeps_State_after
                    · assumption
                    · apply keeps_execAppEnableWrite (w := w.of)
                      assumption
                  · refine keeps_ite ?_ ?_
                    · apply keeps_State_after
                      · assumption
                      · apply keeps_execDoorbellRing (w := w.of)
                        assumption
                    · refine keeps_ite ?_ ?_
                      · apply keeps_State_after
                        · assumption
                        · apply keeps_execSignalValueWrite (w := w.of)
                          assumption
                      · apply keeps_State_plainWrite (w := w.of)
                        assumption

theorem keeps_State_odWrite (a1 : State) (a2 : Path) (a3 : Nat) (a4 : Nat) (a5 : Nat) (a6 : Bytes) (h1 : Keeps S z a1)
    (w : Sub (Piece.allBut [.head, .canNode]) S) : Keeps S z (State.odWrite a1 a2 a3 a4 a5 a6) := by
  unfold State.odWrite
  split
  · apply keeps_State_write (w := w.of)
    · assumption
    · intro x1
      intro k2
      refine keeps_id ?_
      assumption
  · extract_lets +onlyGivenNames y3
    clear_value y3
    refine keeps_ite ?_ ?_
    · apply keeps_State_write (w := w.of)
      · assumption
      · intro x4
        intro k5
        refine keeps_id ?_
        assumption
    · refine keeps_ite ?_ ?_
      · apply keeps_State_write (w := w.of)
        · assumption
        · intro x6
          intro k7
          refine keeps_id ?_
          assumption
      · refine keeps_ite ?_ ?_
        · apply keeps_State_commandWrite (w := w.of)
          assumption
        · refine keeps_ite ?_ ?_
          · apply keeps_State_writeAbort (w := w.of)
            assumption
          · refine keeps_ite ?_ ?_
            · apply keeps_State_lowWrite (w := w.of)
              assumption
            · apply keeps_State_highWrite (w := w.of)
              assumption

theorem keeps_execOdWrite (a1 : Path) (a2 : Nat) (a3 : Nat) (a4 : Bytes) (a5 : State) (h5 : Keeps S z a5) (w : Sub
    (Piece.allBut [.head, .canNode]) S) : KeepsA S z (execOdWrite a1 a2 a3 a4 a5) := by
  unfold execOdWrite
  apply keeps_onPath
  · assumption
  · apply keeps_State_odWrite (w := w.of)
    assumption

theorem keeps_State_updSdo (a1 : State) (a2 : Sdo → Sdo) (h1 : Keeps S z a1) (w : Sub [.canOpen] S) : Keeps S z
    (State.updSdo a1 a2) := by
  unfold State.updSdo
  refine keeps_mk ?_ (w_canOpen := .inr w.has)
  assumption

theorem keeps_State_canOut (a1 : State) (a2 : Nat) (a3 : Bytes) (h1 : Keeps S z a1) (w : Sub [.objs, .irq, .jour,
    .rates, .fld] S) : Keeps S z (State.canOut a1 a2 a3) := by
  unfold State.canOut
  apply keeps_State_canSend (w := w.of)
  assumption

theorem keeps_State_sdoOut (a1 : State) (a2 : Bytes) (h1 : Keeps S z a1) (w : Sub [.objs, .irq, .jour, .rates, .fld]
    S) : Keeps S z (State.sdoOut a1 a2) := by
  unfold State.sdoOut
  apply keeps_State_canOut (w := w.of)
  assumption

theorem keeps_State_sdoClose (a1 : State) (h1 : Keeps S z a1) (w : Sub [.canOpen] S) : Keeps S z (State.sdoClose a1)
    := by
  unfold State.sdoClose
  apply keeps_State_updSdo (w := w.of)
  assumption

theorem keeps_State_sdoAbort (a1 : State) (a2 : Nat) (a3 : Nat) (a4 : Nat) (h1 : Keeps S z a1) (w : Sub [.objs, .irq,
    .jour, .rates, .canOpen, .fld] S) : Keeps S z (State.sdoAbort a1 a2 a3 a4) := by
  unfold State.sdoAbort
  apply keeps_State_sdoClose (w := w.of)
  apply keeps_State_ev (w := w.of)
  apply keeps_State_sdoOut (w := w.of)
  assumption

theorem keeps_State_sdoFault (a1 : State) (a2 : Nat) (h1 : Keeps S z a1) (w : Sub [.objs, .irq, .jour, .rates,
    .canOpen, .fld] S) : Keeps S z (State.sdoFault a1 a2) := by
  unfold State.sdoFault
  apply keeps_State_sdoAbort (w := w.of)
  assumption

theorem keeps_State_sdoWrite (a1 : State) (a2 : Nat) (a3 : Nat) (a4 : Option Nat) (a5 : Bytes) (h1 : Keeps S z a1) (w
    : Sub (Piece.allBut [.head, .canNode]) S) : Keeps S z (State.sdoWrite a1 a2 a3 a4 a5) := by
  unfold State.sdoWrite
  split
  · refine keeps_ite ?_ ?_
    · apply keeps_State_odWrite (w := w.of)
      assumption
    · apply keeps_State_write (w := w.of)
      · assumption
      · intro x1
        intro k2
        refine keeps_id ?_
        assumption
  · apply keeps_State_odWrite (w := w.of)
    assumption

theorem keeps_State_sdoExpedited (a1 : State) (a2 : Nat) (a3 : Nat) (a4 : Nat) (a5 : Bool) (a6 : Bytes) (h1 : Keeps S
    z a1) (w : Sub (Piece.allBut [.head, .canNode]) S) : Keeps S z (State.sdoExpedited a1 a2 a3 a4 a5 a6) := by
  unfold State.sdoExpedited
  refine keeps_ite ?_ ?_
  · apply keeps_State_write (w := w.of)
    · assumption
    · intro x1
      intro k2
      refine keeps_id ?_
      assumption
  · apply keeps_State_sdoWrite (w := w.of)
    assumption

theorem keeps_State_sdoDownload (a1 : State) (a2 : Bytes) (h1 : Keeps S z a1) (w : Sub (Piece.allBut [.head,
    .canNode]) S) : Keeps S z (State.sdoDownload a1 a2) := by
  unfold State.sdoDownload
  extract_lets +onlyGivenNames y1
  clear_value y1
  extract_lets +onlyGivenNames y2
  clear_value y2
  extract_lets +onlyGivenNames y3
  clear_value y3
  extract_lets +onlyGivenNames y4
  have k4 : Keeps S z y4 := by
    unfold y4
    apply keeps_State_sdoClose (w := w.of)
    assumption
  clear_value y4
  refine keeps_ite ?_ ?_
  · apply keeps_State_sdoOut (w := w.of)
    apply keeps_State_sdoExpedited (w := w.of)
    assumption
  · apply keeps_State_sdoOut (w := w.of)
    apply keeps_State_updSdo (w := w.of)
    assumption

theorem keeps_State_sdoSegment (a1 : State) (a2 : Bytes) (h1 : Keeps S z a1) (w : Sub (Piece.allBut [.head, .canNode])
    S) : Keeps S z (State.sdoSegment a1 a2) := by
  unfold State.sdoSegment
  extract_lets +onlyGivenNames y1
  clear_value y1
  extract_lets +onlyGivenNames y2
  clear_value y2
  refine keeps_ite ?_ ?_
  · apply keeps_State_sdoFault (w := w.of)
    assumption
  · refine keeps_ite ?_ ?_
    · apply keeps_State_sdoFault (w := w.of)
      assumption
    · extract_lets +onlyGivenNames y3
      clear_value y3
      extract_lets +onlyGivenNames y4
      have k4 : Keeps S z y4 := by
        unfold y4
        refine keeps_ite ?_ ?_
        · apply keeps_State_sdoClose (w := w.of)
          apply keeps_State_sdoWrite (w := w.of)
          assumption
        · apply keeps_State_updSdo (w := w.of)
          assumption
      clear_value y4
      apply keeps_State_sdoOut (w := w.of)
      assumption

theorem keeps_State_sdoRead (a1 : State) (a2 : Nat) (a3 : Nat) (h1 : Keeps S z a1) (w : Sub [.objs, .sessions, .irq,
    .jour] S) : Keeps S z (State.sdoRead a1 a2 a3).2 := by
  unfold State.sdoRead
  apply keeps_State_readNow (w := w.of)
  assumption

theorem keeps_State_sdoUpload (a1 : State) (a2 : Bytes) (h1 : Keeps S z a1) (w : Sub [.objs, .sessions, .irq, .jour,
    .rates, .canOpen, .fld] S) : Keeps S z (State.sdoUpload a1 a2) := by
  unfold State.sdoUpload
  extract_lets +onlyGivenNames y1
  clear_value y1
  extract_lets +onlyGivenNames y2
  clear_value y2
  split
  extract_lets +onlyGivenNames y3
  clear_value y3
  refine keeps_ite ?_ ?_
  · apply keeps_State_sdoOut (w := w.of)
    refine keeps_pair (by assumption) ?_
    apply keeps_State_sdoRead (w := w.of)
    apply keeps_State_sdoClose (w := w.of)
    assumption
  · apply keeps_State_sdoOut (w := w.of)
    apply keeps_State_updSdo (w := w.of)
    refine keeps_pair (by assumption) ?_
    apply keeps_State_sdoRead (w := w.of)
    apply keeps_State_sdoClose (w := w.of)
    assumption

theorem keeps_State_sdoNext (a1 : State) (a2 : Bytes) (h1 : Keeps S z a1) (w : Sub [.objs, .irq, .jour, .rates,
    .canOpen, .fld] S) : Keeps S z (State.sdoNext a1 a2) := by
  unfold State.sdoNext
  extract_lets +onlyGivenNames y1
  clear_value y1
  refine keeps_ite ?_ ?_
  · apply keeps_State_sdoFault (w := w.of)
    assumption
  · refine keeps_ite ?_ ?_
    · apply keeps_State_sdoFault (w := w.of)
      assumption
    · extract_lets +onlyGivenNames y2
      clear_value y2
      extract_lets +onlyGivenNames y3
      clear_value y3
      extract_lets +onlyGivenNames y4
      have k4 : Keeps S z y4 := by
        unfold y4
        refine keeps_ite ?_ ?_
        · apply keeps_State_sdoClose (w := w.of)
          assumption
        · apply keeps_State_updSdo (w := w.of)
          assumption
      clear_value y4
      apply keeps_State_sdoOut (w := w.of)
      assumption

theorem keeps_State_sdoBlockDownload (a1 : State) (a2 : Bytes) (h1 : Keeps S z a1) (w : Sub [.objs, .irq, .jour,
    .rates, .canOpen, .fld] S) : Keeps S z (State.sdoBlockDownload a1 a2) := by
  unfold State.sdoBlockDownload
  extract_lets +onlyGivenNames y1
  clear_value y1
  extract_lets +onlyGivenNames y2
  clear_value y2
  extract_lets +onlyGivenNames y3
  clear_value y3
  extract_lets +onlyGivenNames y4
  clear_value y4
  apply keeps_State_sdoOut (w := w.of)
  apply keeps_State_updSdo (w := w.of)
  assumption

theorem keeps_State_sdoBlockSegment (a1 : State) (a2 : Bytes) (h1 : Keeps S z a1) (w : Sub [.objs, .irq, .jour,
    .rates, .canOpen, .fld] S) : Keeps S z (State.sdoBlockSegment a1 a2) := by
  unfold State.sdoBlockSegment
  extract_lets +onlyGivenNames y1
  clear_value y1
  extract_lets +onlyGivenNames y2
  clear_value y2
  extract_lets +onlyGivenNames y3
  clear_value y3
  extract_lets +onlyGivenNames y4
  clear_value y4
  refine keeps_ite ?_ ?_
  · apply keeps_State_sdoFault (w := w.of)
    assumption
  · extract_lets +onlyGivenNames y5
    clear_value y5
    extract_lets +onlyGivenNames y6
    clear_value y6
    extract_lets +onlyGivenNames y7
    clear_value y7
    extract_lets +onlyGivenNames y8
    have k8 : Keeps S z y8 := by
      unfold y8
      apply keeps_State_updSdo (w := w.of)
      assumption
    clear_value y8
    refine keeps_ite ?_ ?_
    · apply keeps_State_sdoOut (w := w.of)
      assumption
    · assumption

theorem keeps_State_sdoBlockEnd (a1 : State) (a2 : Bytes) (h1 : Keeps S z a1) (w : Sub (Piece.allBut [.head,
    .canNode]) S) : Keeps S z (State.sdoBlockEnd a1 a2) := by
  unfold State.sdoBlockEnd
  extract_lets +onlyGivenNames y1
  clear_value y1
  extract_lets +onlyGivenNames y2
  clear_value y2
  refine keeps_ite ?_ ?_
  · apply keeps_State_sdoFault (w := w.of)
    assumption
  · apply keeps_State_sdoOut (w := w.of)
    apply keeps_State_sdoClose (w := w.of)
    apply keeps_State_sdoWrite (w := w.of)
    assumption

theorem keeps_State_sdoBlock (a1 : State) (h1 : Keeps S z a1) (w : Sub [.objs, .irq, .jour, .rates, .canOpen, .fld] S)
    : Keeps S z (State.sdoBlock a1) := by
  unfold State.sdoBlock
  extract_lets +onlyGivenNames y1
  clear_value y1
  extract_lets +onlyGivenNames y2
  clear_value y2
  extract_lets +onlyGivenNames y3
  clear_value y3
  extract_lets +onlyGivenNames y4
  have k4 : Keeps S z y4 := by
    unfold y4
    apply keeps_forAll
    · intro x5
      intro x6
      intro k7
      extract_lets +onlyGivenNames y8
      clear_value y8
      apply keeps_State_sdoOut (w := w.of)
      assumption
    · assumption
  clear_value y4
  apply keeps_State_updSdo (w := w.of)
  assumption

theorem keeps_State_sdoBlockUpload (a1 : State) (a2 : Bytes) (h1 : Keeps S z a1) (w : Sub [.objs, .sessions, .irq,
    .jour, .rates, .canOpen, .fld] S) : Keeps S z (State.sdoBlockUpload a1 a2) := by
  unfold State.sdoBlockUpload
  extract_lets +onlyGivenNames y1
  clear_value y1
  extract_lets +onlyGivenNames y2
  clear_value y2
  extract_lets +onlyGivenNames y3
  clear_value y3
  extract_lets +onlyGivenNames y4
  clear_value y4
  extract_lets +onlyGivenNames y5
  have k5 : Keeps S z y5 := by
    unfold y5
    apply keeps_State_sdoClose (w := w.of)
    assumption
  clear_value y5
  refine keeps_ite ?_ ?_
  · apply keeps_State_sdoAbort (w := w.of)
    assumption
  · split
    apply keeps_State_sdoOut (w := w.of)
    apply keeps_State_updSdo (w := w.of)
    refine keeps_pair (by assumption) ?_
    apply keeps_State_sdoRead (w := w.of)
    assumption

theorem keeps_State_sdoBlockAck (a1 : State) (a2 : Bytes) (h1 : Keeps S z a1) (w : Sub [.objs, .irq, .jour, .rates,
    .canOpen, .fld] S) : Keeps S z (State.sdoBlockAck a1 a2) := by
  unfold State.sdoBlockAck
  extract_lets +onlyGivenNames y1
  clear_value y1
  extract_lets +onlyGivenNames y2
  clear_value y2
  extract_lets +onlyGivenNames y3
  clear_value y3
  refine keeps_ite ?_ ?_
  · apply keeps_State_sdoFault (w := w.of)
    assumption
  · extract_lets +onlyGivenNames y4
    clear_value y4
    refine keeps_ite ?_ ?_
    · extract_lets +onlyGivenNames y5
      clear_value y5
      apply keeps_State_sdoOut (w := w.of)
      apply keeps_State_updSdo (w := w.of)
      assumption
    · refine keeps_ite ?_ ?_
      · apply keeps_State_sdoFault (w := w.of)
        assumption
      · apply keeps_State_sdoBlock (w := w.of)
        apply keeps_State_updSdo (w := w.of)
        assumption

theorem keeps_State_sdoBlockCommand (a1 : State) (a2 : Bytes) (h1 : Keeps S z a1) (w : Sub [.objs, .sessions, .irq,
    .jour, .rates, .canOpen, .fld] S) : Keeps S z (State.sdoBlockCommand a1 a2) := by
  unfold State.sdoBlockCommand
  extract_lets +onlyGivenNames y1
  clear_value y1
  extract_lets +onlyGivenNames y2
  clear_value y2
  refine keeps_ite ?_ ?_
  · apply keeps_State_sdoBlockUpload (w := w.of)
    assumption
  · refine keeps_ite ?_ ?_
    · apply keeps_State_sdoBlock (w := w.of)
      assumption
    · refine keeps_ite ?_ ?_
      · apply keeps_State_sdoBlockAck (w := w.of)
        assumption
      · refine keeps_ite ?_ ?_
        · apply keeps_State_sdoClose (w := w.of)
          assumption
        · apply keeps_State_sdoFault (w := w.of)
          assumption

theorem keeps_State_sdoClientAbort (a1 : State) (a2 : Bytes) (h1 : Keeps S z a1) (w : Sub [.canOpen] S) : Keeps S z
    (State.sdoClientAbort a1 a2) := by
  unfold State.sdoClientAbort
  apply keeps_State_sdoClose (w := w.of)
  assumption

theorem keeps_State_sdoFrame (a1 : State) (a2 : Bytes) (h1 : Keeps S z a1) (w : Sub (Piece.allBut [.head, .canNode])
    S) : Keeps S z (State.sdoFrame a1 a2) := by
  unfold State.sdoFrame
  refine keeps_ite ?_ ?_
  · assumption
  · extract_lets +onlyGivenNames y1
    clear_value y1
    extract_lets +onlyGivenNames y2
    clear_value y2
    extract_lets +onlyGivenNames y3
    clear_value y3
    refine keeps_ite ?_ ?_
    · apply keeps_State_sdoClientAbort (w := w.of)
      assumption
    · refine keeps_ite ?_ ?_
      · apply keeps_State_sdoBlockSegment (w := w.of)
        assumption
      · split
        · apply keeps_State_sdoSegment (w := w.of)
          assumption
        · apply keeps_State_sdoDownload (w := w.of)
          assumption
        · apply keeps_State_sdoUpload (w := w.of)
          assumption
        · apply keeps_State_sdoNext (w := w.of)
          assumption
        · apply keeps_State_sdoBlockCommand (w := w.of)
          assumption
        · refine keeps_ite ?_ ?_
          · refine keeps_ite ?_ ?_
            · apply keeps_State_sdoBlockEnd (w := w.of)
              assumption
            · apply keeps_State_sdoFault (w := w.of)
              assumption
          · apply keeps_State_sdoBlockDownload (w := w.of)
            assumption
        · apply keeps_State_sdoFault (w := w.of)
          assumption

theorem keeps_execSdoInitiateDownload (a1 : Bytes) (a2 : State) (h2 : Keeps S z a2) (w : Sub (Piece.allBut [.head,
    .canNode]) S) : KeepsA S z (execSdoInitiateDownload a1 a2) := by
  unfold execSdoInitiateDownload
  refine keeps_next ?_
  apply keeps_State_sdoFrame (w := w.of)
  assumption

theorem keeps_execSdoDownloadSegment (a1 : Bytes) (a2 : State) (h2 : Keeps S z a2) (w : Sub (Piece.allBut [.head,
    .canNode]) S) : KeepsA S z (execSdoDownloadSegment a1 a2) := by
  unfold execSdoDownloadSegment
  refine keeps_next ?_
  apply keeps_State_sdoFrame (w := w.of)
  assumption

theorem keeps_execSdoInitiateUpload (a1 : Bytes) (a2 : State) (h2 : Keeps S z a2) (w : Sub (Piece.allBut [.head,
    .canNode]) S) : KeepsA S z (execSdoInitiateUpload a1 a2) := by
  unfold execSdoInitiateUpload
  refine keeps_next ?_
  apply keeps_State_sdoFrame (w := w.of)
  assumption

theorem keeps_execSdoUploadSegment (a1 : Bytes) (a2 : State) (h2 : Keeps S z a2) (w : Sub (Piece.allBut [.head,
    .canNode]) S) : KeepsA S z (execSdoUploadSegment a1 a2) := by
  unfold execSdoUploadSegment
  refine keeps_next ?_
  apply keeps_State_sdoFrame (w := w.of)
  assumption

theorem keeps_execSdoBlockDownloadSegment (a1 : Bytes) (a2 : State) (h2 : Keeps S z a2) (w : Sub (Piece.allBut [.head,
    .canNode]) S) : KeepsA S z (execSdoBlockDownloadSegment a1 a2) := by
  unfold execSdoBlockDownloadSegment
  refine keeps_next ?_
  apply keeps_State_sdoFrame (w := w.of)
  assumption

theorem keeps_execSdoBlockDownloadEnd (a1 : Bytes) (a2 : State) (h2 : Keeps S z a2) (w : Sub (Piece.allBut [.head,
    .canNode]) S) : KeepsA S z (execSdoBlockDownloadEnd a1 a2) := by
  unfold execSdoBlockDownloadEnd
  refine keeps_next ?_
  apply keeps_State_sdoFrame (w := w.of)
  assumption

theorem keeps_execSdoBlockUploadRequest (a1 : Bytes) (a2 : State) (h2 : Keeps S z a2) (w : Sub (Piece.allBut [.head,
    .canNode]) S) : KeepsA S z (execSdoBlockUploadRequest a1 a2) := by
  unfold execSdoBlockUploadRequest
  refine keeps_next ?_
  apply keeps_State_sdoFrame (w := w.of)
  assumption

theorem keeps_execSdoAbortReceived (a1 : Bytes) (a2 : State) (h2 : Keeps S z a2) (w : Sub (Piece.allBut [.head,
    .canNode]) S) : KeepsA S z (execSdoAbortReceived a1 a2) := by
  unfold execSdoAbortReceived
  refine keeps_next ?_
  apply keeps_State_sdoFrame (w := w.of)
  assumption

theorem keeps_execSdoTimeout (a1 : State) (h1 : Keeps S z a1) (w : Sub [.objs, .irq, .jour, .rates, .canOpen, .fld] S)
    : KeepsA S z (execSdoTimeout a1) := by
  unfold execSdoTimeout
  refine keeps_next ?_
  refine keeps_ite ?_ ?_
  · apply keeps_State_sdoFault (w := w.of)
    assumption
  · assumption

theorem keeps_State_asOperator (a1 : State) (a2 : State → State) (h1 : Keeps S z a1) (h2 : ∀ x0, Keeps S z x0 → Keeps
    S z (a2 x0)) (w : Sub [.sessions] S) : Keeps S z (State.asOperator a1 a2) := by
  unfold State.asOperator
  extract_lets +onlyGivenNames y1
  clear_value y1
  extract_lets +onlyGivenNames y2
  have k2 : Keeps S z y2 := by
    unfold y2
    apply h2
    apply keeps_State_updSession (w := w.of)
    assumption
  clear_value y2
  apply keeps_State_updSession (w := w.of)
  assumption

theorem keeps_State_rpdoWrite (a1 : State) (a2 : List Nat) (a3 : Bytes) (h1 : Keeps S z a1) (w : Sub (Piece.allBut
    [.head, .canNode]) S) : Keeps S z (State.rpdoWrite a1 a2 a3) := by
  induction a2 generalizing a1 a3 with
  | nil =>
    rw [State.rpdoWrite]
    assumption
  | cons e r ih =>
    rw [State.rpdoWrite]
    apply ih
    refine keeps_ite ?_ ?_
    · assumption
    · apply keeps_State_odWrite (w := w.of)
      assumption

theorem keeps_State_rpdoApply (a1 : State) (a2 : Nat) (a3 : Bytes) (h1 : Keeps S z a1) (w : Sub (Piece.allBut [.head,
    .canNode]) S) : Keeps S z (State.rpdoApply a1 a2 a3) := by
  unfold State.rpdoApply
  extract_lets +onlyGivenNames y1
  clear_value y1
  refine keeps_ite ?_ ?_
  · apply keeps_State_asOperator (w := w.of)
    · assumption
    · intro x2
      intro k3
      apply keeps_State_rpdoWrite (w := w.of)
      assumption
  · assumption

theorem keeps_execRpdoReceived (a1 : Nat) (a2 : Bytes) (a3 : State) (h3 : Keeps S z a3) (w : Sub (Piece.allBut [.head,
    .canNode]) S) : KeepsA S z (execRpdoReceived a1 a2 a3) := by
  unfold execRpdoReceived
  apply keeps_onUnit
  refine keeps_ite ?_ ?_
  · assumption
  · refine keeps_ite ?_ ?_
    · refine keeps_mk ?_ (w_canOpen := .inr w.has)
      assumption
    · apply keeps_State_rpdoApply (w := w.of)
      assumption

theorem keeps_State_rpdoSync (a1 : State) (a2 : Nat) (h1 : Keeps S z a1) (w : Sub (Piece.allBut [.head, .canNode]) S)
    : Keeps S z (State.rpdoSync a1 a2) := by
  unfold State.rpdoSync
  split
  · assumption
  · extract_lets +onlyGivenNames y1
    clear_value y1
    extract_lets +onlyGivenNames y2
    have k2 : Keeps S z y2 := by
      unfold y2
      refine keeps_mk ?_ (w_canOpen := .inr w.has)
      assumption
    clear_value y2
    refine keeps_ite ?_ ?_
    · apply keeps_State_rpdoApply (w := w.of)
      assumption
    · assumption

theorem keeps_State_tpdoSync (a1 : State) (a2 : Nat) (h1 : Keeps S z a1) (w : Sub [.objs, .irq, .jour, .rates,
    .canOpen, .fld] S) : Keeps S z (State.tpdoSync a1 a2) := by
  unfold State.tpdoSync
  extract_lets +onlyGivenNames y1
  clear_value y1
  refine keeps_ite ?_ ?_
  · assumption
  · refine keeps_ite ?_ ?_
    · refine keeps_ite ?_ ?_
      · apply keeps_State_tpdoSend (w := w.of)
        assumption
      · assumption
    · refine keeps_ite ?_ ?_
      · apply keeps_State_tpdoSend (w := w.of)
        assumption
      · apply keeps_State_updTpdo (w := w.of)
        assumption

theorem keeps_execSyncReceived (a1 : State) (h1 : Keeps S z a1) (w : Sub (Piece.allBut [.head, .canNode]) S) : KeepsA
    S z (execSyncReceived a1) := by
  unfold execSyncReceived
  refine keeps_next ?_
  refine keeps_ite ?_ ?_
  · apply keeps_forAll
    · intro x1
      intro x2
      intro k3
      apply keeps_State_rpdoSync (w := w.of)
      assumption
    · apply keeps_forAll
      · intro x4
        intro x5
        intro k6
        apply keeps_State_tpdoSync (w := w.of)
        assumption
      · assumption
  · assumption

theorem keeps_execTpdoEventTimer (a1 : Nat) (a2 : State) (h2 : Keeps S z a2) (w : Sub [.objs, .irq, .jour, .rates,
    .canOpen, .fld] S) : KeepsA S z (execTpdoEventTimer a1 a2) := by
  unfold execTpdoEventTimer
  apply keeps_onUnit
  extract_lets +onlyGivenNames y1
  clear_value y1
  refine keeps_ite ?_ ?_
  · apply keeps_State_tpdoTrigger (w := w.of)
    assumption
  · assumption

theorem keeps_execTpdoInhibitEnd (a1 : Nat) (a2 : State) (h2 : Keeps S z a2) (w : Sub [.objs, .irq, .jour, .rates,
    .canOpen, .fld] S) : KeepsA S z (execTpdoInhibitEnd a1 a2) := by
  unfold execTpdoInhibitEnd
  apply keeps_onUnit
  refine keeps_ite ?_ ?_
  · apply keeps_State_tpdoSend (w := w.of)
    assumption
  · assumption

theorem keeps_execHeartbeatTimer (a1 : State) (h1 : Keeps S z a1) (w : Sub [.objs, .timers, .irq, .jour, .rates, .fld]
    S) : KeepsA S z (execHeartbeatTimer a1) := by
  unfold execHeartbeatTimer
  refine keeps_next ?_
  extract_lets +onlyGivenNames y1
  clear_value y1
  refine keeps_ite ?_ ?_
  · apply keeps_State_start (w := w.of)
    apply keeps_State_canOut (w := w.of)
    assumption
  · assumption

theorem keeps_State_setNmt (a1 : State) (a2 : Nat) (h1 : Keeps S z a1) (w : Sub [.canOpen] S) : Keeps S z
    (State.setNmt a1 a2) := by
  unfold State.setNmt
  refine keeps_mk ?_ (w_canOpen := .inr w.has)
  assumption

theorem keeps_execNmtStartRemoteNode (a1 : Nat) (a2 : State) (h2 : Keeps S z a2) (w : Sub [.canOpen] S) : KeepsA S z
    (execNmtStartRemoteNode a1 a2) := by
  unfold execNmtStartRemoteNode
  refine keeps_next ?_
  refine keeps_ite ?_ ?_
  · refine keeps_ite ?_ ?_
    · assumption
    · apply keeps_forAll
      · intro x1
        intro x2
        intro k3
        apply keeps_State_updTpdo (w := w.of)
        assumption
      · apply keeps_State_setNmt (w := w.of)
        assumption
  · assumption

theorem keeps_execNmtEnterPreOperational (a1 : Nat) (a2 : State) (h2 : Keeps S z a2) (w : Sub [.canOpen] S) : KeepsA S
    z (execNmtEnterPreOperational a1 a2) := by
  unfold execNmtEnterPreOperational
  refine keeps_next ?_
  refine keeps_ite ?_ ?_
  · apply keeps_State_setNmt (w := w.of)
    assumption
  · assumption

theorem keeps_execNmtStopRemoteNode (a1 : Nat) (a2 : State) (h2 : Keeps S z a2) (w : Sub [.canOpen] S) : KeepsA S z
    (execNmtStopRemoteNode a1 a2) := by
  unfold execNmtStopRemoteNode
  refine keeps_next ?_
  refine keeps_ite ?_ ?_
  · apply keeps_State_setNmt (w := w.of)
    assumption
  · assumption

theorem keeps_State_canReset (a1 : State) (h1 : Keeps S z a1) (w : Sub [.objs, .timers, .sessions, .irq, .jour,
    .canOpen, .canNode] S) : Keeps S z (State.canReset a1) := by
  unfold State.canReset
  extract_lets +onlyGivenNames y1
  have k1 : Keeps S z y1 := by
    unfold y1
    apply keeps_State_endSession (w := w.of)
    assumption
  clear_value y1
  extract_lets +onlyGivenNames y2
  have k2 : Keeps S z y2 := by
    unfold y2
    apply keeps_forAll
    · intro x3
      intro x4
      intro k5
      apply keeps_State_set (w := w.of)
      assumption
    · assumption
  clear_value y2
  apply keeps_State_canTake (w := w.of)
  assumption

theorem keeps_execNmtResetCommunication (a1 : Nat) (a2 : State) (h2 : Keeps S z a2) (w : Sub [.objs, .timers,
    .sessions, .irq, .jour, .canOpen, .canNode] S) : KeepsA S z (execNmtResetCommunication a1 a2) := by
  unfold execNmtResetCommunication
  refine keeps_next ?_
  refine keeps_ite ?_ ?_
  · apply keeps_State_canReset (w := w.of)
    assumption
  · assumption

theorem keeps_execNmtResetNode (a1 : Nat) (a2 : State) (h2 : Keeps S z a2) (w : Sub [.objs, .timers, .sessions, .irq,
    .jour, .canOpen, .canNode] S) : KeepsA S z (execNmtResetNode a1 a2) := by
  unfold execNmtResetNode
  refine keeps_next ?_
  refine keeps_ite ?_ ?_
  · apply keeps_State_canReset (w := w.of)
    assumption
  · assumption

theorem keeps_State_mgmtSend (a1 : State) (a2 : Nat) (a3 : Bytes) (h1 : Keeps S z a1) (w : Sub [.sent, .fabric, .svc]
    S) : Keeps S z (State.mgmtSend a1 a2 a3) := by
  unfold State.mgmtSend
  refine keeps_ite ?_ ?_
  · assumption
  · extract_lets +onlyGivenNames y1
    have k1 : Keeps S z y1 := by
      unfold y1
      apply keeps_State_send (w := w.of)
      assumption
    clear_value y1
    refine keeps_ite ?_ ?_
    · apply keeps_State_svcReply (w := w.of)
      assumption
    · apply keeps_forAll
      · intro x2
        intro x3
        intro k4
        apply keeps_State_emit (w := w.of)
        assumption
      · assumption

theorem keeps_State_lateEffect (a1 : State) (a2 : LateWrite) (h1 : Keeps S z a1) (w : Sub (Piece.allBut [.head, .strs,
    .station, .lockouts, .sessionCounter, .stateHeld, .canNode, .keys, .secu, .app, .boot]) S) : Keeps S z
    (State.lateEffect a1 a2) := by
  unfold State.lateEffect
  refine keeps_ite ?_ ?_
  · refine keeps_ite ?_ ?_
    · refine keeps_mk ?_ (w_modeHeld := .inr w.has)
      assumption
    · apply keeps_State_takeMode (w := w.of)
      assumption
  · refine keeps_ite ?_ ?_
    · apply keeps_State_domainSwitch (w := w.of)
      assumption
    · apply keeps_State_trunkSwitch (w := w.of)
      assumption

theorem keeps_State_setLate (a1 : State) (a2 : Nat) (a3 : List LateWrite) (h1 : Keeps S z a1) (w : Sub [.trunks, .svc]
    S) : Keeps S z (State.setLate a1 a2 a3) := by
  unfold State.setLate
  refine keeps_ite ?_ ?_
  · apply keeps_State_updSvc (w := w.of)
    assumption
  · apply keeps_State_updTrunk (w := w.of)
    assumption

theorem keeps_State_lateRun (a1 : State) (a2 : Nat) (h1 : Keeps S z a1) (w : Sub (Piece.allBut [.head, .strs,
    .station, .lockouts, .sessionCounter, .stateHeld, .canNode, .keys, .secu, .app, .boot]) S) : Keeps S z
    (State.lateRun a1 a2) := by
  unfold State.lateRun
  refine keeps_ite ?_ ?_
  · apply keeps_forAll
    · intro x1
      intro x2
      intro k3
      apply keeps_State_lateEffect (w := w.of)
      assumption
    · apply keeps_State_setLate (w := w.of)
      assumption
  · assumption

theorem keeps_State_mgmtWrite (a1 : State) (a2 : Nat) (a3 : Bytes) (h1 : Keeps S z a1) (w : Sub (Piece.allBut [.head,
    .canNode]) S) : Keeps S z (State.mgmtWrite a1 a2 a3) := by
  unfold State.mgmtWrite
  extract_lets +onlyGivenNames y1
  clear_value y1
  extract_lets +onlyGivenNames y2
  clear_value y2
  extract_lets +onlyGivenNames y3
  clear_value y3
  extract_lets +onlyGivenNames y4
  clear_value y4
  extract_lets +onlyGivenNames y5
  have k5 : Keeps S z y5 := by
    unfold y5
    apply keeps_State_mgmtSend (w := w.of)
    assumption
  clear_value y5
  refine keeps_ite ?_ ?_
  · extract_lets +onlyGivenNames y6
    have k6 : Keeps S z y6 := by
      unfold y6
      apply keeps_State_touch (w := w.of)
      assumption
    clear_value y6
    apply keeps_State_setLate (w := w.of)
    assumption
  · apply keeps_State_odWrite (w := w.of)
    assumption

theorem keeps_State_mgmtExecute (a1 : State) (a2 : Nat) (a3 : Bytes) (a4 : Bool) (h1 : Keeps S z a1) (w : Sub
    (Piece.allBut [.head, .canNode]) S) : Keeps S z (State.mgmtExecute a1 a2 a3 a4) := by
  unfold State.mgmtExecute
  refine keeps_ite ?_ ?_
  · apply keeps_State_mgmtSend (w := w.of)
    assumption
  · refine keeps_ite ?_ ?_
    · apply keeps_State_mgmtSend (w := w.of)
      assumption
    · refine keeps_ite ?_ ?_
      · split
        apply keeps_State_mgmtSend (w := w.of)
        refine keeps_pair (by assumption) ?_
        apply keeps_State_readNow (w := w.of)
        assumption
      · apply keeps_State_mgmtWrite (w := w.of)
        assumption

theorem keeps_State_releaseHeld (a1 : State) (h1 : Keeps S z a1) (w : Sub (Piece.allBut [.head, .canNode]) S) : Keeps
    S z (State.releaseHeld a1) := by
  unfold State.releaseHeld
  refine keeps_ite ?_ ?_
  · assumption
  · extract_lets +onlyGivenNames y1
    clear_value y1
    apply keeps_forAll
    · intro x2
      intro x3
      intro k4
      apply keeps_State_mgmtExecute (w := w.of)
      assumption
    · apply keeps_State_updSvc (w := w.of)
      assumption

theorem keeps_State_mgmtRequest (a1 : State) (a2 : Nat) (a3 : Bytes) (h1 : Keeps S z a1) (w : Sub (Piece.allBut
    [.head, .canNode]) S) : Keeps S z (State.mgmtRequest a1 a2 a3) := by
  unfold State.mgmtRequest
  extract_lets +onlyGivenNames y1
  have k1 : Keeps S z y1 := by
    unfold y1
    apply keeps_State_lateRun (w := w.of)
    assumption
  clear_value y1
  extract_lets +onlyGivenNames y2
  clear_value y2
  refine keeps_ite ?_ ?_
  · assumption
  · extract_lets +onlyGivenNames y3
    have k3 : Keeps S z y3 := by
      unfold y3
      refine keeps_ite ?_ ?_
      · apply keeps_State_updSvc (w := w.of)
        assumption
      · assumption
    clear_value y3
    extract_lets +onlyGivenNames y4
    clear_value y4
    refine keeps_ite ?_ ?_
    · apply keeps_State_updSvc (w := w.of)
      assumption
    · apply keeps_State_mgmtExecute (w := w.of)
      assumption

theorem keeps_execMgmtReadRequest (a1 : Nat) (a2 : Bytes) (a3 : State) (h3 : Keeps S z a3) (w : Sub (Piece.allBut
    [.head, .canNode]) S) : KeepsA S z (execMgmtReadRequest a1 a2 a3) := by
  unfold execMgmtReadRequest
  apply keeps_onPort
  · assumption
  · apply keeps_State_mgmtRequest (w := w.of)
    assumption

theorem keeps_execMgmtWriteRequest (a1 : Nat) (a2 : Bytes) (a3 : State) (h3 : Keeps S z a3) (w : Sub (Piece.allBut
    [.head, .canNode]) S) : KeepsA S z (execMgmtWriteRequest a1 a2 a3) := by
  unfold execMgmtWriteRequest
  apply keeps_onPort
  · assumption
  · apply keeps_State_mgmtRequest (w := w.of)
    assumption

theorem keeps_State_gatewayRun (a1 : State) (h1 : Keeps S z a1) (w : Sub (Piece.allBut [.head, .canNode]) S) : Keeps S
    z (State.gatewayRun a1) := by
  unfold State.gatewayRun
  extract_lets +onlyGivenNames y1
  clear_value y1
  extract_lets +onlyGivenNames y2
  clear_value y2
  extract_lets +onlyGivenNames y3
  have k3 : Keeps S z y3 := by
    unfold y3
    refine keeps_ite ?_ ?_
    · split
      apply keeps_State_updApp (w := w.of)
      refine keeps_pair (by assumption) ?_
      apply keeps_State_readNow (w := w.of)
      assumption
    · apply keeps_State_odWrite (w := w.of)
      assumption
  clear_value y3
  apply keeps_State_raise (w := w.of)
  apply keeps_State_updApp (w := w.of)
  assumption

theorem keeps_execGatewayDone (a1 : State) (h1 : Keeps S z a1) (w : Sub (Piece.allBut [.head, .canNode]) S) : KeepsA S
    z (execGatewayDone a1) := by
  unfold execGatewayDone
  refine keeps_next ?_
  refine keeps_ite ?_ ?_
  · assumption
  · extract_lets +onlyGivenNames y1
    have k1 : Keeps S z y1 := by
      unfold y1
      apply keeps_State_gatewayRun (w := w.of)
      assumption
    clear_value y1
    refine keeps_ite ?_ ?_
    · assumption
    · apply keeps_State_appStop (w := w.of)
      assumption

theorem keeps_execMapPeriodTimer (a1 : Nat) (a2 : State) (h2 : Keeps S z a2) (w : Sub [.objs, .freeCount, .irq, .jour,
    .rates, .canOpen, .fabric, .fld] S) : KeepsA S z (execMapPeriodTimer a1 a2) := by
  unfold execMapPeriodTimer
  apply keeps_onUnit
  refine keeps_ite ?_ ?_
  · assumption
  · extract_lets +onlyGivenNames y1
    have k1 : Keeps S z y1 := by
      unfold y1
      apply keeps_State_updMap (w := w.of)
      assumption
    clear_value y1
    extract_lets +onlyGivenNames y2
    clear_value y2
    extract_lets +onlyGivenNames y3
    have k3 : Keeps S z y3 := by
      unfold y3
      refine keeps_ite ?_ ?_
      · apply keeps_State_mapRaw (w := w.of)
        assumption
      · assumption
    clear_value y3
    refine keeps_ite ?_ ?_
    · apply keeps_State_tpdoCheck (w := w.of)
      apply keeps_State_mapPack (w := w.of)
      assumption
    · assumption

theorem keeps_State_undosEnd (a1 : State) (h1 : Keeps S z a1) (w : Sub [.objs, .cmds, .irq, .jour] S) : Keeps S z
    (State.undosEnd a1) := by
  unfold State.undosEnd
  apply keeps_forAll
  · intro x1
    intro x2
    intro k3
    refine keeps_ite ?_ ?_
    · apply keeps_State_cmdAborted (w := w.of)
      assumption
    · assumption
  · assumption

theorem keeps_State_mgmtSettle (a1 : State) (h1 : Keeps S z a1) (w : Sub (Piece.allBut [.head, .canNode]) S) : Keeps S
    z (State.mgmtSettle a1) := by
  unfold State.mgmtSettle
  apply keeps_State_releaseHeld (w := w.of)
  apply keeps_forAll
  · intro x1
    intro x2
    intro k3
    apply keeps_State_lateRun (w := w.of)
    assumption
  · assumption

theorem keeps_State_unitsSettle (a1 : State) (h1 : Keeps S z a1) (w : Sub [.objs, .freeCount, .irq, .jour, .rates,
    .sent, .canOpen, .fabric, .stor, .dram, .fld] S) : Keeps S z (State.unitsSettle a1) := by
  unfold State.unitsSettle
  extract_lets +onlyGivenNames y1
  have k1 : Keeps S z y1 := by
    unfold y1
    apply keeps_forAll
    · intro x2
      intro x3
      intro k4
      apply keeps_State_unitsReady (w := w.of)
      assumption
    · assumption
  clear_value y1
  apply keeps_forAll
  · intro x5
    intro x6
    intro k7
    apply keeps_State_fieldReady (w := w.of)
    assumption
  · assumption

theorem keeps_State_uartsSettle (a1 : State) (h1 : Keeps S z a1) (w : Sub [.sent, .fabric, .fld] S) : Keeps S z
    (State.uartsSettle a1) := by
  unfold State.uartsSettle
  apply keeps_forAll
  · intro x1
    intro x2
    intro k3
    apply keeps_State_uartSettle (w := w.of)
    assumption
  · assumption

theorem keeps_State_vanguriSettle (a1 : State) (h1 : Keeps S z a1) (w : Sub [.objs, .irq, .jour, .rates, .fabric,
    .secu] S) : Keeps S z (State.vanguriSettle a1) := by
  unfold State.vanguriSettle
  apply keeps_forAll
  · intro x1
    intro x2
    intro k3
    apply keeps_State_vanguriServe (w := w.of)
    assumption
  · assumption

theorem keeps_State_waitsEnd (a1 : State) (h1 : Keeps S z a1) (w : Sub (Piece.allBut [.head, .canNode]) S) : Keeps S z
    (State.waitsEnd a1) := by
  unfold State.waitsEnd
  apply keeps_State_crcCame (w := w.of)
  apply keeps_State_vanguriSettle (w := w.of)
  apply keeps_State_uartsSettle (w := w.of)
  apply keeps_State_unitsSettle (w := w.of)
  apply keeps_State_mgmtSettle (w := w.of)
  apply keeps_State_undosEnd (w := w.of)
  assumption

end Sys2Proof.Laws
end

