-- ==== Sys2Proof/Laws/State.lean ====
section
/-!
SUPPORT. The fields of the state after each update, so that no proof unfolds a record update, and the objects after each
operation that sets none.
-/

set_option Elab.async false

set_option linter.all false

namespace Sys2Proof.Laws

open Sys2Proof Sys2Proof.Machine

variable (s : State)

@[simp] theorem set_part (a0 : Nat) (a1 : Nat) : (s.set a0 a1).part = s.part := rfl
@[simp] theorem set_head (a0 : Nat) (a1 : Nat) : (s.set a0 a1).head = s.head := rfl
@[simp] theorem set_strs (a0 : Nat) (a1 : Nat) : (s.set a0 a1).strs = s.strs := rfl
@[simp] theorem set_clock (a0 : Nat) (a1 : Nat) : (s.set a0 a1).clock = s.clock := rfl
@[simp] theorem set_station (a0 : Nat) (a1 : Nat) : (s.set a0 a1).station = s.station := rfl
@[simp] theorem set_freeCount (a0 : Nat) (a1 : Nat) : (s.set a0 a1).freeCount = s.freeCount := rfl
@[simp] theorem set_timers (a0 : Nat) (a1 : Nat) : (s.set a0 a1).timers = s.timers := rfl
@[simp] theorem set_sessions (a0 : Nat) (a1 : Nat) : (s.set a0 a1).sessions = s.sessions := rfl
@[simp] theorem set_lockouts (a0 : Nat) (a1 : Nat) : (s.set a0 a1).lockouts = s.lockouts := rfl
@[simp] theorem set_sessionCounter (a0 : Nat) (a1 : Nat) : (s.set a0 a1).sessionCounter = s.sessionCounter := rfl
@[simp] theorem set_cmds (a0 : Nat) (a1 : Nat) : (s.set a0 a1).cmds = s.cmds := rfl
@[simp] theorem set_irq (a0 : Nat) (a1 : Nat) : (s.set a0 a1).irq = s.irq := rfl
@[simp] theorem set_jour (a0 : Nat) (a1 : Nat) : (s.set a0 a1).jour = s.jour := rfl
@[simp] theorem set_rates (a0 : Nat) (a1 : Nat) : (s.set a0 a1).rates = s.rates := rfl
@[simp] theorem set_sent (a0 : Nat) (a1 : Nat) : (s.set a0 a1).sent = s.sent := rfl
@[simp] theorem set_pending (a0 : Nat) (a1 : Nat) : (s.set a0 a1).pending = s.pending := rfl
@[simp] theorem set_canOpen (a0 : Nat) (a1 : Nat) : (s.set a0 a1).canOpen = s.canOpen := rfl
@[simp] theorem set_modeHeld (a0 : Nat) (a1 : Nat) : (s.set a0 a1).modeHeld = s.modeHeld := rfl
@[simp] theorem set_stateHeld (a0 : Nat) (a1 : Nat) : (s.set a0 a1).stateHeld = s.stateHeld := rfl
@[simp] theorem set_trunks (a0 : Nat) (a1 : Nat) : (s.set a0 a1).trunks = s.trunks := rfl
@[simp] theorem set_tunnels (a0 : Nat) (a1 : Nat) : (s.set a0 a1).tunnels = s.tunnels := rfl
@[simp] theorem set_fabric (a0 : Nat) (a1 : Nat) : (s.set a0 a1).fabric = s.fabric := rfl
@[simp] theorem set_scheds (a0 : Nat) (a1 : Nat) : (s.set a0 a1).scheds = s.scheds := rfl
@[simp] theorem set_disps (a0 : Nat) (a1 : Nat) : (s.set a0 a1).disps = s.disps := rfl
@[simp] theorem set_usb (a0 : Nat) (a1 : Nat) : (s.set a0 a1).usb = s.usb := rfl
@[simp] theorem set_svc (a0 : Nat) (a1 : Nat) : (s.set a0 a1).svc = s.svc := rfl
@[simp] theorem set_pd (a0 : Nat) (a1 : Nat) : (s.set a0 a1).pd = s.pd := rfl
@[simp] theorem set_time (a0 : Nat) (a1 : Nat) : (s.set a0 a1).time = s.time := rfl
@[simp] theorem set_eth (a0 : Nat) (a1 : Nat) : (s.set a0 a1).eth = s.eth := rfl
@[simp] theorem set_pl (a0 : Nat) (a1 : Nat) : (s.set a0 a1).pl = s.pl := rfl
@[simp] theorem set_stor (a0 : Nat) (a1 : Nat) : (s.set a0 a1).stor = s.stor := rfl
@[simp] theorem set_dram (a0 : Nat) (a1 : Nat) : (s.set a0 a1).dram = s.dram := rfl
@[simp] theorem set_fld (a0 : Nat) (a1 : Nat) : (s.set a0 a1).fld = s.fld := rfl
@[simp] theorem set_canNode (a0 : Nat) (a1 : Nat) : (s.set a0 a1).canNode = s.canNode := rfl
@[simp] theorem set_keys (a0 : Nat) (a1 : Nat) : (s.set a0 a1).keys = s.keys := rfl
@[simp] theorem set_secu (a0 : Nat) (a1 : Nat) : (s.set a0 a1).secu = s.secu := rfl
@[simp] theorem set_power (a0 : Nat) (a1 : Nat) : (s.set a0 a1).power = s.power := rfl
@[simp] theorem set_app (a0 : Nat) (a1 : Nat) : (s.set a0 a1).app = s.app := rfl
@[simp] theorem set_safety (a0 : Nat) (a1 : Nat) : (s.set a0 a1).safety = s.safety := rfl
@[simp] theorem set_boot (a0 : Nat) (a1 : Nat) : (s.set a0 a1).boot = s.boot := rfl
@[simp] theorem set_str (a0 : Nat) (a1 : Nat) (k : Nat) : (s.set a0 a1).str k = s.str k := rfl

@[simp] theorem setStr_part (a0 : Nat) (a1 : Bytes) : (s.setStr a0 a1).part = s.part := rfl
@[simp] theorem setStr_head (a0 : Nat) (a1 : Bytes) : (s.setStr a0 a1).head = s.head := rfl
@[simp] theorem setStr_objs (a0 : Nat) (a1 : Bytes) : (s.setStr a0 a1).objs = s.objs := rfl
@[simp] theorem setStr_clock (a0 : Nat) (a1 : Bytes) : (s.setStr a0 a1).clock = s.clock := rfl
@[simp] theorem setStr_station (a0 : Nat) (a1 : Bytes) : (s.setStr a0 a1).station = s.station := rfl
@[simp] theorem setStr_freeCount (a0 : Nat) (a1 : Bytes) : (s.setStr a0 a1).freeCount = s.freeCount := rfl
@[simp] theorem setStr_timers (a0 : Nat) (a1 : Bytes) : (s.setStr a0 a1).timers = s.timers := rfl
@[simp] theorem setStr_sessions (a0 : Nat) (a1 : Bytes) : (s.setStr a0 a1).sessions = s.sessions := rfl
@[simp] theorem setStr_lockouts (a0 : Nat) (a1 : Bytes) : (s.setStr a0 a1).lockouts = s.lockouts := rfl
@[simp] theorem setStr_sessionCounter (a0 : Nat) (a1 : Bytes) : (s.setStr a0 a1).sessionCounter = s.sessionCounter := rfl
@[simp] theorem setStr_cmds (a0 : Nat) (a1 : Bytes) : (s.setStr a0 a1).cmds = s.cmds := rfl
@[simp] theorem setStr_irq (a0 : Nat) (a1 : Bytes) : (s.setStr a0 a1).irq = s.irq := rfl
@[simp] theorem setStr_jour (a0 : Nat) (a1 : Bytes) : (s.setStr a0 a1).jour = s.jour := rfl
@[simp] theorem setStr_rates (a0 : Nat) (a1 : Bytes) : (s.setStr a0 a1).rates = s.rates := rfl
@[simp] theorem setStr_sent (a0 : Nat) (a1 : Bytes) : (s.setStr a0 a1).sent = s.sent := rfl
@[simp] theorem setStr_pending (a0 : Nat) (a1 : Bytes) : (s.setStr a0 a1).pending = s.pending := rfl
@[simp] theorem setStr_canOpen (a0 : Nat) (a1 : Bytes) : (s.setStr a0 a1).canOpen = s.canOpen := rfl
@[simp] theorem setStr_modeHeld (a0 : Nat) (a1 : Bytes) : (s.setStr a0 a1).modeHeld = s.modeHeld := rfl
@[simp] theorem setStr_stateHeld (a0 : Nat) (a1 : Bytes) : (s.setStr a0 a1).stateHeld = s.stateHeld := rfl
@[simp] theorem setStr_trunks (a0 : Nat) (a1 : Bytes) : (s.setStr a0 a1).trunks = s.trunks := rfl
@[simp] theorem setStr_tunnels (a0 : Nat) (a1 : Bytes) : (s.setStr a0 a1).tunnels = s.tunnels := rfl
@[simp] theorem setStr_fabric (a0 : Nat) (a1 : Bytes) : (s.setStr a0 a1).fabric = s.fabric := rfl
@[simp] theorem setStr_scheds (a0 : Nat) (a1 : Bytes) : (s.setStr a0 a1).scheds = s.scheds := rfl
@[simp] theorem setStr_disps (a0 : Nat) (a1 : Bytes) : (s.setStr a0 a1).disps = s.disps := rfl
@[simp] theorem setStr_usb (a0 : Nat) (a1 : Bytes) : (s.setStr a0 a1).usb = s.usb := rfl
@[simp] theorem setStr_svc (a0 : Nat) (a1 : Bytes) : (s.setStr a0 a1).svc = s.svc := rfl
@[simp] theorem setStr_pd (a0 : Nat) (a1 : Bytes) : (s.setStr a0 a1).pd = s.pd := rfl
@[simp] theorem setStr_time (a0 : Nat) (a1 : Bytes) : (s.setStr a0 a1).time = s.time := rfl
@[simp] theorem setStr_eth (a0 : Nat) (a1 : Bytes) : (s.setStr a0 a1).eth = s.eth := rfl
@[simp] theorem setStr_pl (a0 : Nat) (a1 : Bytes) : (s.setStr a0 a1).pl = s.pl := rfl
@[simp] theorem setStr_stor (a0 : Nat) (a1 : Bytes) : (s.setStr a0 a1).stor = s.stor := rfl
@[simp] theorem setStr_dram (a0 : Nat) (a1 : Bytes) : (s.setStr a0 a1).dram = s.dram := rfl
@[simp] theorem setStr_fld (a0 : Nat) (a1 : Bytes) : (s.setStr a0 a1).fld = s.fld := rfl
@[simp] theorem setStr_canNode (a0 : Nat) (a1 : Bytes) : (s.setStr a0 a1).canNode = s.canNode := rfl
@[simp] theorem setStr_keys (a0 : Nat) (a1 : Bytes) : (s.setStr a0 a1).keys = s.keys := rfl
@[simp] theorem setStr_secu (a0 : Nat) (a1 : Bytes) : (s.setStr a0 a1).secu = s.secu := rfl
@[simp] theorem setStr_power (a0 : Nat) (a1 : Bytes) : (s.setStr a0 a1).power = s.power := rfl
@[simp] theorem setStr_app (a0 : Nat) (a1 : Bytes) : (s.setStr a0 a1).app = s.app := rfl
@[simp] theorem setStr_safety (a0 : Nat) (a1 : Bytes) : (s.setStr a0 a1).safety = s.safety := rfl
@[simp] theorem setStr_boot (a0 : Nat) (a1 : Bytes) : (s.setStr a0 a1).boot = s.boot := rfl
@[simp] theorem setStr_get (a0 : Nat) (a1 : Bytes) (k : Nat) : (s.setStr a0 a1).get k = s.get k := rfl

@[simp] theorem start_part (a0 : Timer) : (s.start a0).part = s.part := rfl
@[simp] theorem start_head (a0 : Timer) : (s.start a0).head = s.head := rfl
@[simp] theorem start_objs (a0 : Timer) : (s.start a0).objs = s.objs := rfl
@[simp] theorem start_strs (a0 : Timer) : (s.start a0).strs = s.strs := rfl
@[simp] theorem start_clock (a0 : Timer) : (s.start a0).clock = s.clock := rfl
@[simp] theorem start_station (a0 : Timer) : (s.start a0).station = s.station := rfl
@[simp] theorem start_freeCount (a0 : Timer) : (s.start a0).freeCount = s.freeCount := rfl
@[simp] theorem start_sessions (a0 : Timer) : (s.start a0).sessions = s.sessions := rfl
@[simp] theorem start_lockouts (a0 : Timer) : (s.start a0).lockouts = s.lockouts := rfl
@[simp] theorem start_sessionCounter (a0 : Timer) : (s.start a0).sessionCounter = s.sessionCounter := rfl
@[simp] theorem start_cmds (a0 : Timer) : (s.start a0).cmds = s.cmds := rfl
@[simp] theorem start_irq (a0 : Timer) : (s.start a0).irq = s.irq := rfl
@[simp] theorem start_jour (a0 : Timer) : (s.start a0).jour = s.jour := rfl
@[simp] theorem start_rates (a0 : Timer) : (s.start a0).rates = s.rates := rfl
@[simp] theorem start_sent (a0 : Timer) : (s.start a0).sent = s.sent := rfl
@[simp] theorem start_pending (a0 : Timer) : (s.start a0).pending = s.pending := rfl
@[simp] theorem start_canOpen (a0 : Timer) : (s.start a0).canOpen = s.canOpen := rfl
@[simp] theorem start_modeHeld (a0 : Timer) : (s.start a0).modeHeld = s.modeHeld := rfl
@[simp] theorem start_stateHeld (a0 : Timer) : (s.start a0).stateHeld = s.stateHeld := rfl
@[simp] theorem start_trunks (a0 : Timer) : (s.start a0).trunks = s.trunks := rfl
@[simp] theorem start_tunnels (a0 : Timer) : (s.start a0).tunnels = s.tunnels := rfl
@[simp] theorem start_fabric (a0 : Timer) : (s.start a0).fabric = s.fabric := rfl
@[simp] theorem start_scheds (a0 : Timer) : (s.start a0).scheds = s.scheds := rfl
@[simp] theorem start_disps (a0 : Timer) : (s.start a0).disps = s.disps := rfl
@[simp] theorem start_usb (a0 : Timer) : (s.start a0).usb = s.usb := rfl
@[simp] theorem start_svc (a0 : Timer) : (s.start a0).svc = s.svc := rfl
@[simp] theorem start_pd (a0 : Timer) : (s.start a0).pd = s.pd := rfl
@[simp] theorem start_time (a0 : Timer) : (s.start a0).time = s.time := rfl
@[simp] theorem start_eth (a0 : Timer) : (s.start a0).eth = s.eth := rfl
@[simp] theorem start_pl (a0 : Timer) : (s.start a0).pl = s.pl := rfl
@[simp] theorem start_stor (a0 : Timer) : (s.start a0).stor = s.stor := rfl
@[simp] theorem start_dram (a0 : Timer) : (s.start a0).dram = s.dram := rfl
@[simp] theorem start_fld (a0 : Timer) : (s.start a0).fld = s.fld := rfl
@[simp] theorem start_canNode (a0 : Timer) : (s.start a0).canNode = s.canNode := rfl
@[simp] theorem start_keys (a0 : Timer) : (s.start a0).keys = s.keys := rfl
@[simp] theorem start_secu (a0 : Timer) : (s.start a0).secu = s.secu := rfl
@[simp] theorem start_power (a0 : Timer) : (s.start a0).power = s.power := rfl
@[simp] theorem start_app (a0 : Timer) : (s.start a0).app = s.app := rfl
@[simp] theorem start_safety (a0 : Timer) : (s.start a0).safety = s.safety := rfl
@[simp] theorem start_boot (a0 : Timer) : (s.start a0).boot = s.boot := rfl
@[simp] theorem start_get (a0 : Timer) (k : Nat) : (s.start a0).get k = s.get k := rfl
@[simp] theorem start_str (a0 : Timer) (k : Nat) : (s.start a0).str k = s.str k := rfl

@[simp] theorem stop_part (a0 : Timer) : (s.stop a0).part = s.part := rfl
@[simp] theorem stop_head (a0 : Timer) : (s.stop a0).head = s.head := rfl
@[simp] theorem stop_objs (a0 : Timer) : (s.stop a0).objs = s.objs := rfl
@[simp] theorem stop_strs (a0 : Timer) : (s.stop a0).strs = s.strs := rfl
@[simp] theorem stop_clock (a0 : Timer) : (s.stop a0).clock = s.clock := rfl
@[simp] theorem stop_station (a0 : Timer) : (s.stop a0).station = s.station := rfl
@[simp] theorem stop_freeCount (a0 : Timer) : (s.stop a0).freeCount = s.freeCount := rfl
@[simp] theorem stop_sessions (a0 : Timer) : (s.stop a0).sessions = s.sessions := rfl
@[simp] theorem stop_lockouts (a0 : Timer) : (s.stop a0).lockouts = s.lockouts := rfl
@[simp] theorem stop_sessionCounter (a0 : Timer) : (s.stop a0).sessionCounter = s.sessionCounter := rfl
@[simp] theorem stop_cmds (a0 : Timer) : (s.stop a0).cmds = s.cmds := rfl
@[simp] theorem stop_irq (a0 : Timer) : (s.stop a0).irq = s.irq := rfl
@[simp] theorem stop_jour (a0 : Timer) : (s.stop a0).jour = s.jour := rfl
@[simp] theorem stop_rates (a0 : Timer) : (s.stop a0).rates = s.rates := rfl
@[simp] theorem stop_sent (a0 : Timer) : (s.stop a0).sent = s.sent := rfl
@[simp] theorem stop_pending (a0 : Timer) : (s.stop a0).pending = s.pending := rfl
@[simp] theorem stop_canOpen (a0 : Timer) : (s.stop a0).canOpen = s.canOpen := rfl
@[simp] theorem stop_modeHeld (a0 : Timer) : (s.stop a0).modeHeld = s.modeHeld := rfl
@[simp] theorem stop_stateHeld (a0 : Timer) : (s.stop a0).stateHeld = s.stateHeld := rfl
@[simp] theorem stop_trunks (a0 : Timer) : (s.stop a0).trunks = s.trunks := rfl
@[simp] theorem stop_tunnels (a0 : Timer) : (s.stop a0).tunnels = s.tunnels := rfl
@[simp] theorem stop_fabric (a0 : Timer) : (s.stop a0).fabric = s.fabric := rfl
@[simp] theorem stop_scheds (a0 : Timer) : (s.stop a0).scheds = s.scheds := rfl
@[simp] theorem stop_disps (a0 : Timer) : (s.stop a0).disps = s.disps := rfl
@[simp] theorem stop_usb (a0 : Timer) : (s.stop a0).usb = s.usb := rfl
@[simp] theorem stop_svc (a0 : Timer) : (s.stop a0).svc = s.svc := rfl
@[simp] theorem stop_pd (a0 : Timer) : (s.stop a0).pd = s.pd := rfl
@[simp] theorem stop_time (a0 : Timer) : (s.stop a0).time = s.time := rfl
@[simp] theorem stop_eth (a0 : Timer) : (s.stop a0).eth = s.eth := rfl
@[simp] theorem stop_pl (a0 : Timer) : (s.stop a0).pl = s.pl := rfl
@[simp] theorem stop_stor (a0 : Timer) : (s.stop a0).stor = s.stor := rfl
@[simp] theorem stop_dram (a0 : Timer) : (s.stop a0).dram = s.dram := rfl
@[simp] theorem stop_fld (a0 : Timer) : (s.stop a0).fld = s.fld := rfl
@[simp] theorem stop_canNode (a0 : Timer) : (s.stop a0).canNode = s.canNode := rfl
@[simp] theorem stop_keys (a0 : Timer) : (s.stop a0).keys = s.keys := rfl
@[simp] theorem stop_secu (a0 : Timer) : (s.stop a0).secu = s.secu := rfl
@[simp] theorem stop_power (a0 : Timer) : (s.stop a0).power = s.power := rfl
@[simp] theorem stop_app (a0 : Timer) : (s.stop a0).app = s.app := rfl
@[simp] theorem stop_safety (a0 : Timer) : (s.stop a0).safety = s.safety := rfl
@[simp] theorem stop_boot (a0 : Timer) : (s.stop a0).boot = s.boot := rfl
@[simp] theorem stop_get (a0 : Timer) (k : Nat) : (s.stop a0).get k = s.get k := rfl
@[simp] theorem stop_str (a0 : Timer) (k : Nat) : (s.stop a0).str k = s.str k := rfl

@[simp] theorem send_part (a0 : Out) : (s.send a0).part = s.part := rfl
@[simp] theorem send_head (a0 : Out) : (s.send a0).head = s.head := rfl
@[simp] theorem send_objs (a0 : Out) : (s.send a0).objs = s.objs := rfl
@[simp] theorem send_strs (a0 : Out) : (s.send a0).strs = s.strs := rfl
@[simp] theorem send_clock (a0 : Out) : (s.send a0).clock = s.clock := rfl
@[simp] theorem send_station (a0 : Out) : (s.send a0).station = s.station := rfl
@[simp] theorem send_freeCount (a0 : Out) : (s.send a0).freeCount = s.freeCount := rfl
@[simp] theorem send_timers (a0 : Out) : (s.send a0).timers = s.timers := rfl
@[simp] theorem send_sessions (a0 : Out) : (s.send a0).sessions = s.sessions := rfl
@[simp] theorem send_lockouts (a0 : Out) : (s.send a0).lockouts = s.lockouts := rfl
@[simp] theorem send_sessionCounter (a0 : Out) : (s.send a0).sessionCounter = s.sessionCounter := rfl
@[simp] theorem send_cmds (a0 : Out) : (s.send a0).cmds = s.cmds := rfl
@[simp] theorem send_irq (a0 : Out) : (s.send a0).irq = s.irq := rfl
@[simp] theorem send_jour (a0 : Out) : (s.send a0).jour = s.jour := rfl
@[simp] theorem send_rates (a0 : Out) : (s.send a0).rates = s.rates := rfl
@[simp] theorem send_pending (a0 : Out) : (s.send a0).pending = s.pending := rfl
@[simp] theorem send_canOpen (a0 : Out) : (s.send a0).canOpen = s.canOpen := rfl
@[simp] theorem send_modeHeld (a0 : Out) : (s.send a0).modeHeld = s.modeHeld := rfl
@[simp] theorem send_stateHeld (a0 : Out) : (s.send a0).stateHeld = s.stateHeld := rfl
@[simp] theorem send_trunks (a0 : Out) : (s.send a0).trunks = s.trunks := rfl
@[simp] theorem send_tunnels (a0 : Out) : (s.send a0).tunnels = s.tunnels := rfl
@[simp] theorem send_fabric (a0 : Out) : (s.send a0).fabric = s.fabric := rfl
@[simp] theorem send_scheds (a0 : Out) : (s.send a0).scheds = s.scheds := rfl
@[simp] theorem send_disps (a0 : Out) : (s.send a0).disps = s.disps := rfl
@[simp] theorem send_usb (a0 : Out) : (s.send a0).usb = s.usb := rfl
@[simp] theorem send_svc (a0 : Out) : (s.send a0).svc = s.svc := rfl
@[simp] theorem send_pd (a0 : Out) : (s.send a0).pd = s.pd := rfl
@[simp] theorem send_time (a0 : Out) : (s.send a0).time = s.time := rfl
@[simp] theorem send_eth (a0 : Out) : (s.send a0).eth = s.eth := rfl
@[simp] theorem send_pl (a0 : Out) : (s.send a0).pl = s.pl := rfl
@[simp] theorem send_stor (a0 : Out) : (s.send a0).stor = s.stor := rfl
@[simp] theorem send_dram (a0 : Out) : (s.send a0).dram = s.dram := rfl
@[simp] theorem send_fld (a0 : Out) : (s.send a0).fld = s.fld := rfl
@[simp] theorem send_canNode (a0 : Out) : (s.send a0).canNode = s.canNode := rfl
@[simp] theorem send_keys (a0 : Out) : (s.send a0).keys = s.keys := rfl
@[simp] theorem send_secu (a0 : Out) : (s.send a0).secu = s.secu := rfl
@[simp] theorem send_power (a0 : Out) : (s.send a0).power = s.power := rfl
@[simp] theorem send_app (a0 : Out) : (s.send a0).app = s.app := rfl
@[simp] theorem send_safety (a0 : Out) : (s.send a0).safety = s.safety := rfl
@[simp] theorem send_boot (a0 : Out) : (s.send a0).boot = s.boot := rfl
@[simp] theorem send_get (a0 : Out) (k : Nat) : (s.send a0).get k = s.get k := rfl
@[simp] theorem send_str (a0 : Out) (k : Nat) : (s.send a0).str k = s.str k := rfl

@[simp] theorem journalAt_part (a0 : Nat) (a1 : Nat) (a2 : Nat) (a3 : Nat) (a4 : Bytes) : (s.journalAt a0 a1 a2 a3 a4).part = s.part := rfl
@[simp] theorem journalAt_head (a0 : Nat) (a1 : Nat) (a2 : Nat) (a3 : Nat) (a4 : Bytes) : (s.journalAt a0 a1 a2 a3 a4).head = s.head := rfl
@[simp] theorem journalAt_objs (a0 : Nat) (a1 : Nat) (a2 : Nat) (a3 : Nat) (a4 : Bytes) : (s.journalAt a0 a1 a2 a3 a4).objs = s.objs := rfl
@[simp] theorem journalAt_strs (a0 : Nat) (a1 : Nat) (a2 : Nat) (a3 : Nat) (a4 : Bytes) : (s.journalAt a0 a1 a2 a3 a4).strs = s.strs := rfl
@[simp] theorem journalAt_clock (a0 : Nat) (a1 : Nat) (a2 : Nat) (a3 : Nat) (a4 : Bytes) : (s.journalAt a0 a1 a2 a3 a4).clock = s.clock := rfl
@[simp] theorem journalAt_station (a0 : Nat) (a1 : Nat) (a2 : Nat) (a3 : Nat) (a4 : Bytes) : (s.journalAt a0 a1 a2 a3 a4).station = s.station := rfl
@[simp] theorem journalAt_freeCount (a0 : Nat) (a1 : Nat) (a2 : Nat) (a3 : Nat) (a4 : Bytes) : (s.journalAt a0 a1 a2 a3 a4).freeCount = s.freeCount := rfl
@[simp] theorem journalAt_timers (a0 : Nat) (a1 : Nat) (a2 : Nat) (a3 : Nat) (a4 : Bytes) : (s.journalAt a0 a1 a2 a3 a4).timers = s.timers := rfl
@[simp] theorem journalAt_sessions (a0 : Nat) (a1 : Nat) (a2 : Nat) (a3 : Nat) (a4 : Bytes) : (s.journalAt a0 a1 a2 a3 a4).sessions = s.sessions := rfl
@[simp] theorem journalAt_lockouts (a0 : Nat) (a1 : Nat) (a2 : Nat) (a3 : Nat) (a4 : Bytes) : (s.journalAt a0 a1 a2 a3 a4).lockouts = s.lockouts := rfl
@[simp] theorem journalAt_sessionCounter (a0 : Nat) (a1 : Nat) (a2 : Nat) (a3 : Nat) (a4 : Bytes) : (s.journalAt a0 a1 a2 a3 a4).sessionCounter = s.sessionCounter := rfl
@[simp] theorem journalAt_cmds (a0 : Nat) (a1 : Nat) (a2 : Nat) (a3 : Nat) (a4 : Bytes) : (s.journalAt a0 a1 a2 a3 a4).cmds = s.cmds := rfl
@[simp] theorem journalAt_irq (a0 : Nat) (a1 : Nat) (a2 : Nat) (a3 : Nat) (a4 : Bytes) : (s.journalAt a0 a1 a2 a3 a4).irq = s.irq := rfl
@[simp] theorem journalAt_rates (a0 : Nat) (a1 : Nat) (a2 : Nat) (a3 : Nat) (a4 : Bytes) : (s.journalAt a0 a1 a2 a3 a4).rates = s.rates := rfl
@[simp] theorem journalAt_sent (a0 : Nat) (a1 : Nat) (a2 : Nat) (a3 : Nat) (a4 : Bytes) : (s.journalAt a0 a1 a2 a3 a4).sent = s.sent := rfl
@[simp] theorem journalAt_pending (a0 : Nat) (a1 : Nat) (a2 : Nat) (a3 : Nat) (a4 : Bytes) : (s.journalAt a0 a1 a2 a3 a4).pending = s.pending := rfl
@[simp] theorem journalAt_canOpen (a0 : Nat) (a1 : Nat) (a2 : Nat) (a3 : Nat) (a4 : Bytes) : (s.journalAt a0 a1 a2 a3 a4).canOpen = s.canOpen := rfl
@[simp] theorem journalAt_modeHeld (a0 : Nat) (a1 : Nat) (a2 : Nat) (a3 : Nat) (a4 : Bytes) : (s.journalAt a0 a1 a2 a3 a4).modeHeld = s.modeHeld := rfl
@[simp] theorem journalAt_stateHeld (a0 : Nat) (a1 : Nat) (a2 : Nat) (a3 : Nat) (a4 : Bytes) : (s.journalAt a0 a1 a2 a3 a4).stateHeld = s.stateHeld := rfl
@[simp] theorem journalAt_trunks (a0 : Nat) (a1 : Nat) (a2 : Nat) (a3 : Nat) (a4 : Bytes) : (s.journalAt a0 a1 a2 a3 a4).trunks = s.trunks := rfl
@[simp] theorem journalAt_tunnels (a0 : Nat) (a1 : Nat) (a2 : Nat) (a3 : Nat) (a4 : Bytes) : (s.journalAt a0 a1 a2 a3 a4).tunnels = s.tunnels := rfl
@[simp] theorem journalAt_fabric (a0 : Nat) (a1 : Nat) (a2 : Nat) (a3 : Nat) (a4 : Bytes) : (s.journalAt a0 a1 a2 a3 a4).fabric = s.fabric := rfl
@[simp] theorem journalAt_scheds (a0 : Nat) (a1 : Nat) (a2 : Nat) (a3 : Nat) (a4 : Bytes) : (s.journalAt a0 a1 a2 a3 a4).scheds = s.scheds := rfl
@[simp] theorem journalAt_disps (a0 : Nat) (a1 : Nat) (a2 : Nat) (a3 : Nat) (a4 : Bytes) : (s.journalAt a0 a1 a2 a3 a4).disps = s.disps := rfl
@[simp] theorem journalAt_usb (a0 : Nat) (a1 : Nat) (a2 : Nat) (a3 : Nat) (a4 : Bytes) : (s.journalAt a0 a1 a2 a3 a4).usb = s.usb := rfl
@[simp] theorem journalAt_svc (a0 : Nat) (a1 : Nat) (a2 : Nat) (a3 : Nat) (a4 : Bytes) : (s.journalAt a0 a1 a2 a3 a4).svc = s.svc := rfl
@[simp] theorem journalAt_pd (a0 : Nat) (a1 : Nat) (a2 : Nat) (a3 : Nat) (a4 : Bytes) : (s.journalAt a0 a1 a2 a3 a4).pd = s.pd := rfl
@[simp] theorem journalAt_time (a0 : Nat) (a1 : Nat) (a2 : Nat) (a3 : Nat) (a4 : Bytes) : (s.journalAt a0 a1 a2 a3 a4).time = s.time := rfl
@[simp] theorem journalAt_eth (a0 : Nat) (a1 : Nat) (a2 : Nat) (a3 : Nat) (a4 : Bytes) : (s.journalAt a0 a1 a2 a3 a4).eth = s.eth := rfl
@[simp] theorem journalAt_pl (a0 : Nat) (a1 : Nat) (a2 : Nat) (a3 : Nat) (a4 : Bytes) : (s.journalAt a0 a1 a2 a3 a4).pl = s.pl := rfl
@[simp] theorem journalAt_stor (a0 : Nat) (a1 : Nat) (a2 : Nat) (a3 : Nat) (a4 : Bytes) : (s.journalAt a0 a1 a2 a3 a4).stor = s.stor := rfl
@[simp] theorem journalAt_dram (a0 : Nat) (a1 : Nat) (a2 : Nat) (a3 : Nat) (a4 : Bytes) : (s.journalAt a0 a1 a2 a3 a4).dram = s.dram := rfl
@[simp] theorem journalAt_fld (a0 : Nat) (a1 : Nat) (a2 : Nat) (a3 : Nat) (a4 : Bytes) : (s.journalAt a0 a1 a2 a3 a4).fld = s.fld := rfl
@[simp] theorem journalAt_canNode (a0 : Nat) (a1 : Nat) (a2 : Nat) (a3 : Nat) (a4 : Bytes) : (s.journalAt a0 a1 a2 a3 a4).canNode = s.canNode := rfl
@[simp] theorem journalAt_keys (a0 : Nat) (a1 : Nat) (a2 : Nat) (a3 : Nat) (a4 : Bytes) : (s.journalAt a0 a1 a2 a3 a4).keys = s.keys := rfl
@[simp] theorem journalAt_secu (a0 : Nat) (a1 : Nat) (a2 : Nat) (a3 : Nat) (a4 : Bytes) : (s.journalAt a0 a1 a2 a3 a4).secu = s.secu := rfl
@[simp] theorem journalAt_power (a0 : Nat) (a1 : Nat) (a2 : Nat) (a3 : Nat) (a4 : Bytes) : (s.journalAt a0 a1 a2 a3 a4).power = s.power := rfl
@[simp] theorem journalAt_app (a0 : Nat) (a1 : Nat) (a2 : Nat) (a3 : Nat) (a4 : Bytes) : (s.journalAt a0 a1 a2 a3 a4).app = s.app := rfl
@[simp] theorem journalAt_safety (a0 : Nat) (a1 : Nat) (a2 : Nat) (a3 : Nat) (a4 : Bytes) : (s.journalAt a0 a1 a2 a3 a4).safety = s.safety := rfl
@[simp] theorem journalAt_boot (a0 : Nat) (a1 : Nat) (a2 : Nat) (a3 : Nat) (a4 : Bytes) : (s.journalAt a0 a1 a2 a3 a4).boot = s.boot := rfl
@[simp] theorem journalAt_get (a0 : Nat) (a1 : Nat) (a2 : Nat) (a3 : Nat) (a4 : Bytes) (k : Nat) : (s.journalAt a0 a1 a2 a3 a4).get k = s.get k := rfl
@[simp] theorem journalAt_str (a0 : Nat) (a1 : Nat) (a2 : Nat) (a3 : Nat) (a4 : Bytes) (k : Nat) : (s.journalAt a0 a1 a2 a3 a4).str k = s.str k := rfl

@[simp] theorem putRate_part (a0 : Rate) : (s.putRate a0).part = s.part := rfl
@[simp] theorem putRate_head (a0 : Rate) : (s.putRate a0).head = s.head := rfl
@[simp] theorem putRate_objs (a0 : Rate) : (s.putRate a0).objs = s.objs := rfl
@[simp] theorem putRate_strs (a0 : Rate) : (s.putRate a0).strs = s.strs := rfl
@[simp] theorem putRate_clock (a0 : Rate) : (s.putRate a0).clock = s.clock := rfl
@[simp] theorem putRate_station (a0 : Rate) : (s.putRate a0).station = s.station := rfl
@[simp] theorem putRate_freeCount (a0 : Rate) : (s.putRate a0).freeCount = s.freeCount := rfl
@[simp] theorem putRate_timers (a0 : Rate) : (s.putRate a0).timers = s.timers := rfl
@[simp] theorem putRate_sessions (a0 : Rate) : (s.putRate a0).sessions = s.sessions := rfl
@[simp] theorem putRate_lockouts (a0 : Rate) : (s.putRate a0).lockouts = s.lockouts := rfl
@[simp] theorem putRate_sessionCounter (a0 : Rate) : (s.putRate a0).sessionCounter = s.sessionCounter := rfl
@[simp] theorem putRate_cmds (a0 : Rate) : (s.putRate a0).cmds = s.cmds := rfl
@[simp] theorem putRate_irq (a0 : Rate) : (s.putRate a0).irq = s.irq := rfl
@[simp] theorem putRate_jour (a0 : Rate) : (s.putRate a0).jour = s.jour := rfl
@[simp] theorem putRate_sent (a0 : Rate) : (s.putRate a0).sent = s.sent := rfl
@[simp] theorem putRate_pending (a0 : Rate) : (s.putRate a0).pending = s.pending := rfl
@[simp] theorem putRate_canOpen (a0 : Rate) : (s.putRate a0).canOpen = s.canOpen := rfl
@[simp] theorem putRate_modeHeld (a0 : Rate) : (s.putRate a0).modeHeld = s.modeHeld := rfl
@[simp] theorem putRate_stateHeld (a0 : Rate) : (s.putRate a0).stateHeld = s.stateHeld := rfl
@[simp] theorem putRate_trunks (a0 : Rate) : (s.putRate a0).trunks = s.trunks := rfl
@[simp] theorem putRate_tunnels (a0 : Rate) : (s.putRate a0).tunnels = s.tunnels := rfl
@[simp] theorem putRate_fabric (a0 : Rate) : (s.putRate a0).fabric = s.fabric := rfl
@[simp] theorem putRate_scheds (a0 : Rate) : (s.putRate a0).scheds = s.scheds := rfl
@[simp] theorem putRate_disps (a0 : Rate) : (s.putRate a0).disps = s.disps := rfl
@[simp] theorem putRate_usb (a0 : Rate) : (s.putRate a0).usb = s.usb := rfl
@[simp] theorem putRate_svc (a0 : Rate) : (s.putRate a0).svc = s.svc := rfl
@[simp] theorem putRate_pd (a0 : Rate) : (s.putRate a0).pd = s.pd := rfl
@[simp] theorem putRate_time (a0 : Rate) : (s.putRate a0).time = s.time := rfl
@[simp] theorem putRate_eth (a0 : Rate) : (s.putRate a0).eth = s.eth := rfl
@[simp] theorem putRate_pl (a0 : Rate) : (s.putRate a0).pl = s.pl := rfl
@[simp] theorem putRate_stor (a0 : Rate) : (s.putRate a0).stor = s.stor := rfl
@[simp] theorem putRate_dram (a0 : Rate) : (s.putRate a0).dram = s.dram := rfl
@[simp] theorem putRate_fld (a0 : Rate) : (s.putRate a0).fld = s.fld := rfl
@[simp] theorem putRate_canNode (a0 : Rate) : (s.putRate a0).canNode = s.canNode := rfl
@[simp] theorem putRate_keys (a0 : Rate) : (s.putRate a0).keys = s.keys := rfl
@[simp] theorem putRate_secu (a0 : Rate) : (s.putRate a0).secu = s.secu := rfl
@[simp] theorem putRate_power (a0 : Rate) : (s.putRate a0).power = s.power := rfl
@[simp] theorem putRate_app (a0 : Rate) : (s.putRate a0).app = s.app := rfl
@[simp] theorem putRate_safety (a0 : Rate) : (s.putRate a0).safety = s.safety := rfl
@[simp] theorem putRate_boot (a0 : Rate) : (s.putRate a0).boot = s.boot := rfl
@[simp] theorem putRate_get (a0 : Rate) (k : Nat) : (s.putRate a0).get k = s.get k := rfl
@[simp] theorem putRate_str (a0 : Rate) (k : Nat) : (s.putRate a0).str k = s.str k := rfl

@[simp] theorem updSession_part (a0 : Path) (a1 : Session → Session) : (s.updSession a0 a1).part = s.part := rfl
@[simp] theorem updSession_head (a0 : Path) (a1 : Session → Session) : (s.updSession a0 a1).head = s.head := rfl
@[simp] theorem updSession_objs (a0 : Path) (a1 : Session → Session) : (s.updSession a0 a1).objs = s.objs := rfl
@[simp] theorem updSession_strs (a0 : Path) (a1 : Session → Session) : (s.updSession a0 a1).strs = s.strs := rfl
@[simp] theorem updSession_clock (a0 : Path) (a1 : Session → Session) : (s.updSession a0 a1).clock = s.clock := rfl
@[simp] theorem updSession_station (a0 : Path) (a1 : Session → Session) : (s.updSession a0 a1).station = s.station := rfl
@[simp] theorem updSession_freeCount (a0 : Path) (a1 : Session → Session) : (s.updSession a0 a1).freeCount = s.freeCount := rfl
@[simp] theorem updSession_timers (a0 : Path) (a1 : Session → Session) : (s.updSession a0 a1).timers = s.timers := rfl
@[simp] theorem updSession_lockouts (a0 : Path) (a1 : Session → Session) : (s.updSession a0 a1).lockouts = s.lockouts := rfl
@[simp] theorem updSession_sessionCounter (a0 : Path) (a1 : Session → Session) : (s.updSession a0 a1).sessionCounter = s.sessionCounter := rfl
@[simp] theorem updSession_cmds (a0 : Path) (a1 : Session → Session) : (s.updSession a0 a1).cmds = s.cmds := rfl
@[simp] theorem updSession_irq (a0 : Path) (a1 : Session → Session) : (s.updSession a0 a1).irq = s.irq := rfl
@[simp] theorem updSession_jour (a0 : Path) (a1 : Session → Session) : (s.updSession a0 a1).jour = s.jour := rfl
@[simp] theorem updSession_rates (a0 : Path) (a1 : Session → Session) : (s.updSession a0 a1).rates = s.rates := rfl
@[simp] theorem updSession_sent (a0 : Path) (a1 : Session → Session) : (s.updSession a0 a1).sent = s.sent := rfl
@[simp] theorem updSession_pending (a0 : Path) (a1 : Session → Session) : (s.updSession a0 a1).pending = s.pending := rfl
@[simp] theorem updSession_canOpen (a0 : Path) (a1 : Session → Session) : (s.updSession a0 a1).canOpen = s.canOpen := rfl
@[simp] theorem updSession_modeHeld (a0 : Path) (a1 : Session → Session) : (s.updSession a0 a1).modeHeld = s.modeHeld := rfl
@[simp] theorem updSession_stateHeld (a0 : Path) (a1 : Session → Session) : (s.updSession a0 a1).stateHeld = s.stateHeld := rfl
@[simp] theorem updSession_trunks (a0 : Path) (a1 : Session → Session) : (s.updSession a0 a1).trunks = s.trunks := rfl
@[simp] theorem updSession_tunnels (a0 : Path) (a1 : Session → Session) : (s.updSession a0 a1).tunnels = s.tunnels := rfl
@[simp] theorem updSession_fabric (a0 : Path) (a1 : Session → Session) : (s.updSession a0 a1).fabric = s.fabric := rfl
@[simp] theorem updSession_scheds (a0 : Path) (a1 : Session → Session) : (s.updSession a0 a1).scheds = s.scheds := rfl
@[simp] theorem updSession_disps (a0 : Path) (a1 : Session → Session) : (s.updSession a0 a1).disps = s.disps := rfl
@[simp] theorem updSession_usb (a0 : Path) (a1 : Session → Session) : (s.updSession a0 a1).usb = s.usb := rfl
@[simp] theorem updSession_svc (a0 : Path) (a1 : Session → Session) : (s.updSession a0 a1).svc = s.svc := rfl
@[simp] theorem updSession_pd (a0 : Path) (a1 : Session → Session) : (s.updSession a0 a1).pd = s.pd := rfl
@[simp] theorem updSession_time (a0 : Path) (a1 : Session → Session) : (s.updSession a0 a1).time = s.time := rfl
@[simp] theorem updSession_eth (a0 : Path) (a1 : Session → Session) : (s.updSession a0 a1).eth = s.eth := rfl
@[simp] theorem updSession_pl (a0 : Path) (a1 : Session → Session) : (s.updSession a0 a1).pl = s.pl := rfl
@[simp] theorem updSession_stor (a0 : Path) (a1 : Session → Session) : (s.updSession a0 a1).stor = s.stor := rfl
@[simp] theorem updSession_dram (a0 : Path) (a1 : Session → Session) : (s.updSession a0 a1).dram = s.dram := rfl
@[simp] theorem updSession_fld (a0 : Path) (a1 : Session → Session) : (s.updSession a0 a1).fld = s.fld := rfl
@[simp] theorem updSession_canNode (a0 : Path) (a1 : Session → Session) : (s.updSession a0 a1).canNode = s.canNode := rfl
@[simp] theorem updSession_keys (a0 : Path) (a1 : Session → Session) : (s.updSession a0 a1).keys = s.keys := rfl
@[simp] theorem updSession_secu (a0 : Path) (a1 : Session → Session) : (s.updSession a0 a1).secu = s.secu := rfl
@[simp] theorem updSession_power (a0 : Path) (a1 : Session → Session) : (s.updSession a0 a1).power = s.power := rfl
@[simp] theorem updSession_app (a0 : Path) (a1 : Session → Session) : (s.updSession a0 a1).app = s.app := rfl
@[simp] theorem updSession_safety (a0 : Path) (a1 : Session → Session) : (s.updSession a0 a1).safety = s.safety := rfl
@[simp] theorem updSession_boot (a0 : Path) (a1 : Session → Session) : (s.updSession a0 a1).boot = s.boot := rfl
@[simp] theorem updSession_get (a0 : Path) (a1 : Session → Session) (k : Nat) : (s.updSession a0 a1).get k = s.get k := rfl
@[simp] theorem updSession_str (a0 : Path) (a1 : Session → Session) (k : Nat) : (s.updSession a0 a1).str k = s.str k := rfl

@[simp] theorem updTrunk_part (a0 : Nat) (a1 : Trunk → Trunk) : (s.updTrunk a0 a1).part = s.part := rfl
@[simp] theorem updTrunk_head (a0 : Nat) (a1 : Trunk → Trunk) : (s.updTrunk a0 a1).head = s.head := rfl
@[simp] theorem updTrunk_objs (a0 : Nat) (a1 : Trunk → Trunk) : (s.updTrunk a0 a1).objs = s.objs := rfl
@[simp] theorem updTrunk_strs (a0 : Nat) (a1 : Trunk → Trunk) : (s.updTrunk a0 a1).strs = s.strs := rfl
@[simp] theorem updTrunk_clock (a0 : Nat) (a1 : Trunk → Trunk) : (s.updTrunk a0 a1).clock = s.clock := rfl
@[simp] theorem updTrunk_station (a0 : Nat) (a1 : Trunk → Trunk) : (s.updTrunk a0 a1).station = s.station := rfl
@[simp] theorem updTrunk_freeCount (a0 : Nat) (a1 : Trunk → Trunk) : (s.updTrunk a0 a1).freeCount = s.freeCount := rfl
@[simp] theorem updTrunk_timers (a0 : Nat) (a1 : Trunk → Trunk) : (s.updTrunk a0 a1).timers = s.timers := rfl
@[simp] theorem updTrunk_sessions (a0 : Nat) (a1 : Trunk → Trunk) : (s.updTrunk a0 a1).sessions = s.sessions := rfl
@[simp] theorem updTrunk_lockouts (a0 : Nat) (a1 : Trunk → Trunk) : (s.updTrunk a0 a1).lockouts = s.lockouts := rfl
@[simp] theorem updTrunk_sessionCounter (a0 : Nat) (a1 : Trunk → Trunk) : (s.updTrunk a0 a1).sessionCounter = s.sessionCounter := rfl
@[simp] theorem updTrunk_cmds (a0 : Nat) (a1 : Trunk → Trunk) : (s.updTrunk a0 a1).cmds = s.cmds := rfl
@[simp] theorem updTrunk_irq (a0 : Nat) (a1 : Trunk → Trunk) : (s.updTrunk a0 a1).irq = s.irq := rfl
@[simp] theorem updTrunk_jour (a0 : Nat) (a1 : Trunk → Trunk) : (s.updTrunk a0 a1).jour = s.jour := rfl
@[simp] theorem updTrunk_rates (a0 : Nat) (a1 : Trunk → Trunk) : (s.updTrunk a0 a1).rates = s.rates := rfl
@[simp] theorem updTrunk_sent (a0 : Nat) (a1 : Trunk → Trunk) : (s.updTrunk a0 a1).sent = s.sent := rfl
@[simp] theorem updTrunk_pending (a0 : Nat) (a1 : Trunk → Trunk) : (s.updTrunk a0 a1).pending = s.pending := rfl
@[simp] theorem updTrunk_canOpen (a0 : Nat) (a1 : Trunk → Trunk) : (s.updTrunk a0 a1).canOpen = s.canOpen := rfl
@[simp] theorem updTrunk_modeHeld (a0 : Nat) (a1 : Trunk → Trunk) : (s.updTrunk a0 a1).modeHeld = s.modeHeld := rfl
@[simp] theorem updTrunk_stateHeld (a0 : Nat) (a1 : Trunk → Trunk) : (s.updTrunk a0 a1).stateHeld = s.stateHeld := rfl
@[simp] theorem updTrunk_tunnels (a0 : Nat) (a1 : Trunk → Trunk) : (s.updTrunk a0 a1).tunnels = s.tunnels := rfl
@[simp] theorem updTrunk_fabric (a0 : Nat) (a1 : Trunk → Trunk) : (s.updTrunk a0 a1).fabric = s.fabric := rfl
@[simp] theorem updTrunk_scheds (a0 : Nat) (a1 : Trunk → Trunk) : (s.updTrunk a0 a1).scheds = s.scheds := rfl
@[simp] theorem updTrunk_disps (a0 : Nat) (a1 : Trunk → Trunk) : (s.updTrunk a0 a1).disps = s.disps := rfl
@[simp] theorem updTrunk_usb (a0 : Nat) (a1 : Trunk → Trunk) : (s.updTrunk a0 a1).usb = s.usb := rfl
@[simp] theorem updTrunk_svc (a0 : Nat) (a1 : Trunk → Trunk) : (s.updTrunk a0 a1).svc = s.svc := rfl
@[simp] theorem updTrunk_pd (a0 : Nat) (a1 : Trunk → Trunk) : (s.updTrunk a0 a1).pd = s.pd := rfl
@[simp] theorem updTrunk_time (a0 : Nat) (a1 : Trunk → Trunk) : (s.updTrunk a0 a1).time = s.time := rfl
@[simp] theorem updTrunk_eth (a0 : Nat) (a1 : Trunk → Trunk) : (s.updTrunk a0 a1).eth = s.eth := rfl
@[simp] theorem updTrunk_pl (a0 : Nat) (a1 : Trunk → Trunk) : (s.updTrunk a0 a1).pl = s.pl := rfl
@[simp] theorem updTrunk_stor (a0 : Nat) (a1 : Trunk → Trunk) : (s.updTrunk a0 a1).stor = s.stor := rfl
@[simp] theorem updTrunk_dram (a0 : Nat) (a1 : Trunk → Trunk) : (s.updTrunk a0 a1).dram = s.dram := rfl
@[simp] theorem updTrunk_fld (a0 : Nat) (a1 : Trunk → Trunk) : (s.updTrunk a0 a1).fld = s.fld := rfl
@[simp] theorem updTrunk_canNode (a0 : Nat) (a1 : Trunk → Trunk) : (s.updTrunk a0 a1).canNode = s.canNode := rfl
@[simp] theorem updTrunk_keys (a0 : Nat) (a1 : Trunk → Trunk) : (s.updTrunk a0 a1).keys = s.keys := rfl
@[simp] theorem updTrunk_secu (a0 : Nat) (a1 : Trunk → Trunk) : (s.updTrunk a0 a1).secu = s.secu := rfl
@[simp] theorem updTrunk_power (a0 : Nat) (a1 : Trunk → Trunk) : (s.updTrunk a0 a1).power = s.power := rfl
@[simp] theorem updTrunk_app (a0 : Nat) (a1 : Trunk → Trunk) : (s.updTrunk a0 a1).app = s.app := rfl
@[simp] theorem updTrunk_safety (a0 : Nat) (a1 : Trunk → Trunk) : (s.updTrunk a0 a1).safety = s.safety := rfl
@[simp] theorem updTrunk_boot (a0 : Nat) (a1 : Trunk → Trunk) : (s.updTrunk a0 a1).boot = s.boot := rfl
@[simp] theorem updTrunk_get (a0 : Nat) (a1 : Trunk → Trunk) (k : Nat) : (s.updTrunk a0 a1).get k = s.get k := rfl
@[simp] theorem updTrunk_str (a0 : Nat) (a1 : Trunk → Trunk) (k : Nat) : (s.updTrunk a0 a1).str k = s.str k := rfl

@[simp] theorem updTun_part (a0 : Nat) (a1 : Tunnel → Tunnel) : (s.updTun a0 a1).part = s.part := rfl
@[simp] theorem updTun_head (a0 : Nat) (a1 : Tunnel → Tunnel) : (s.updTun a0 a1).head = s.head := rfl
@[simp] theorem updTun_objs (a0 : Nat) (a1 : Tunnel → Tunnel) : (s.updTun a0 a1).objs = s.objs := rfl
@[simp] theorem updTun_strs (a0 : Nat) (a1 : Tunnel → Tunnel) : (s.updTun a0 a1).strs = s.strs := rfl
@[simp] theorem updTun_clock (a0 : Nat) (a1 : Tunnel → Tunnel) : (s.updTun a0 a1).clock = s.clock := rfl
@[simp] theorem updTun_station (a0 : Nat) (a1 : Tunnel → Tunnel) : (s.updTun a0 a1).station = s.station := rfl
@[simp] theorem updTun_freeCount (a0 : Nat) (a1 : Tunnel → Tunnel) : (s.updTun a0 a1).freeCount = s.freeCount := rfl
@[simp] theorem updTun_timers (a0 : Nat) (a1 : Tunnel → Tunnel) : (s.updTun a0 a1).timers = s.timers := rfl
@[simp] theorem updTun_sessions (a0 : Nat) (a1 : Tunnel → Tunnel) : (s.updTun a0 a1).sessions = s.sessions := rfl
@[simp] theorem updTun_lockouts (a0 : Nat) (a1 : Tunnel → Tunnel) : (s.updTun a0 a1).lockouts = s.lockouts := rfl
@[simp] theorem updTun_sessionCounter (a0 : Nat) (a1 : Tunnel → Tunnel) : (s.updTun a0 a1).sessionCounter = s.sessionCounter := rfl
@[simp] theorem updTun_cmds (a0 : Nat) (a1 : Tunnel → Tunnel) : (s.updTun a0 a1).cmds = s.cmds := rfl
@[simp] theorem updTun_irq (a0 : Nat) (a1 : Tunnel → Tunnel) : (s.updTun a0 a1).irq = s.irq := rfl
@[simp] theorem updTun_jour (a0 : Nat) (a1 : Tunnel → Tunnel) : (s.updTun a0 a1).jour = s.jour := rfl
@[simp] theorem updTun_rates (a0 : Nat) (a1 : Tunnel → Tunnel) : (s.updTun a0 a1).rates = s.rates := rfl
@[simp] theorem updTun_sent (a0 : Nat) (a1 : Tunnel → Tunnel) : (s.updTun a0 a1).sent = s.sent := rfl
@[simp] theorem updTun_pending (a0 : Nat) (a1 : Tunnel → Tunnel) : (s.updTun a0 a1).pending = s.pending := rfl
@[simp] theorem updTun_canOpen (a0 : Nat) (a1 : Tunnel → Tunnel) : (s.updTun a0 a1).canOpen = s.canOpen := rfl
@[simp] theorem updTun_modeHeld (a0 : Nat) (a1 : Tunnel → Tunnel) : (s.updTun a0 a1).modeHeld = s.modeHeld := rfl
@[simp] theorem updTun_stateHeld (a0 : Nat) (a1 : Tunnel → Tunnel) : (s.updTun a0 a1).stateHeld = s.stateHeld := rfl
@[simp] theorem updTun_trunks (a0 : Nat) (a1 : Tunnel → Tunnel) : (s.updTun a0 a1).trunks = s.trunks := rfl
@[simp] theorem updTun_fabric (a0 : Nat) (a1 : Tunnel → Tunnel) : (s.updTun a0 a1).fabric = s.fabric := rfl
@[simp] theorem updTun_scheds (a0 : Nat) (a1 : Tunnel → Tunnel) : (s.updTun a0 a1).scheds = s.scheds := rfl
@[simp] theorem updTun_disps (a0 : Nat) (a1 : Tunnel → Tunnel) : (s.updTun a0 a1).disps = s.disps := rfl
@[simp] theorem updTun_usb (a0 : Nat) (a1 : Tunnel → Tunnel) : (s.updTun a0 a1).usb = s.usb := rfl
@[simp] theorem updTun_svc (a0 : Nat) (a1 : Tunnel → Tunnel) : (s.updTun a0 a1).svc = s.svc := rfl
@[simp] theorem updTun_pd (a0 : Nat) (a1 : Tunnel → Tunnel) : (s.updTun a0 a1).pd = s.pd := rfl
@[simp] theorem updTun_time (a0 : Nat) (a1 : Tunnel → Tunnel) : (s.updTun a0 a1).time = s.time := rfl
@[simp] theorem updTun_eth (a0 : Nat) (a1 : Tunnel → Tunnel) : (s.updTun a0 a1).eth = s.eth := rfl
@[simp] theorem updTun_pl (a0 : Nat) (a1 : Tunnel → Tunnel) : (s.updTun a0 a1).pl = s.pl := rfl
@[simp] theorem updTun_stor (a0 : Nat) (a1 : Tunnel → Tunnel) : (s.updTun a0 a1).stor = s.stor := rfl
@[simp] theorem updTun_dram (a0 : Nat) (a1 : Tunnel → Tunnel) : (s.updTun a0 a1).dram = s.dram := rfl
@[simp] theorem updTun_fld (a0 : Nat) (a1 : Tunnel → Tunnel) : (s.updTun a0 a1).fld = s.fld := rfl
@[simp] theorem updTun_canNode (a0 : Nat) (a1 : Tunnel → Tunnel) : (s.updTun a0 a1).canNode = s.canNode := rfl
@[simp] theorem updTun_keys (a0 : Nat) (a1 : Tunnel → Tunnel) : (s.updTun a0 a1).keys = s.keys := rfl
@[simp] theorem updTun_secu (a0 : Nat) (a1 : Tunnel → Tunnel) : (s.updTun a0 a1).secu = s.secu := rfl
@[simp] theorem updTun_power (a0 : Nat) (a1 : Tunnel → Tunnel) : (s.updTun a0 a1).power = s.power := rfl
@[simp] theorem updTun_app (a0 : Nat) (a1 : Tunnel → Tunnel) : (s.updTun a0 a1).app = s.app := rfl
@[simp] theorem updTun_safety (a0 : Nat) (a1 : Tunnel → Tunnel) : (s.updTun a0 a1).safety = s.safety := rfl
@[simp] theorem updTun_boot (a0 : Nat) (a1 : Tunnel → Tunnel) : (s.updTun a0 a1).boot = s.boot := rfl
@[simp] theorem updTun_get (a0 : Nat) (a1 : Tunnel → Tunnel) (k : Nat) : (s.updTun a0 a1).get k = s.get k := rfl
@[simp] theorem updTun_str (a0 : Nat) (a1 : Tunnel → Tunnel) (k : Nat) : (s.updTun a0 a1).str k = s.str k := rfl

@[simp] theorem updFabric_part (a0 : Fabric → Fabric) : (s.updFabric a0).part = s.part := rfl
@[simp] theorem updFabric_head (a0 : Fabric → Fabric) : (s.updFabric a0).head = s.head := rfl
@[simp] theorem updFabric_objs (a0 : Fabric → Fabric) : (s.updFabric a0).objs = s.objs := rfl
@[simp] theorem updFabric_strs (a0 : Fabric → Fabric) : (s.updFabric a0).strs = s.strs := rfl
@[simp] theorem updFabric_clock (a0 : Fabric → Fabric) : (s.updFabric a0).clock = s.clock := rfl
@[simp] theorem updFabric_station (a0 : Fabric → Fabric) : (s.updFabric a0).station = s.station := rfl
@[simp] theorem updFabric_freeCount (a0 : Fabric → Fabric) : (s.updFabric a0).freeCount = s.freeCount := rfl
@[simp] theorem updFabric_timers (a0 : Fabric → Fabric) : (s.updFabric a0).timers = s.timers := rfl
@[simp] theorem updFabric_sessions (a0 : Fabric → Fabric) : (s.updFabric a0).sessions = s.sessions := rfl
@[simp] theorem updFabric_lockouts (a0 : Fabric → Fabric) : (s.updFabric a0).lockouts = s.lockouts := rfl
@[simp] theorem updFabric_sessionCounter (a0 : Fabric → Fabric) : (s.updFabric a0).sessionCounter = s.sessionCounter := rfl
@[simp] theorem updFabric_cmds (a0 : Fabric → Fabric) : (s.updFabric a0).cmds = s.cmds := rfl
@[simp] theorem updFabric_irq (a0 : Fabric → Fabric) : (s.updFabric a0).irq = s.irq := rfl
@[simp] theorem updFabric_jour (a0 : Fabric → Fabric) : (s.updFabric a0).jour = s.jour := rfl
@[simp] theorem updFabric_rates (a0 : Fabric → Fabric) : (s.updFabric a0).rates = s.rates := rfl
@[simp] theorem updFabric_sent (a0 : Fabric → Fabric) : (s.updFabric a0).sent = s.sent := rfl
@[simp] theorem updFabric_pending (a0 : Fabric → Fabric) : (s.updFabric a0).pending = s.pending := rfl
@[simp] theorem updFabric_canOpen (a0 : Fabric → Fabric) : (s.updFabric a0).canOpen = s.canOpen := rfl
@[simp] theorem updFabric_modeHeld (a0 : Fabric → Fabric) : (s.updFabric a0).modeHeld = s.modeHeld := rfl
@[simp] theorem updFabric_stateHeld (a0 : Fabric → Fabric) : (s.updFabric a0).stateHeld = s.stateHeld := rfl
@[simp] theorem updFabric_trunks (a0 : Fabric → Fabric) : (s.updFabric a0).trunks = s.trunks := rfl
@[simp] theorem updFabric_tunnels (a0 : Fabric → Fabric) : (s.updFabric a0).tunnels = s.tunnels := rfl
@[simp] theorem updFabric_scheds (a0 : Fabric → Fabric) : (s.updFabric a0).scheds = s.scheds := rfl
@[simp] theorem updFabric_disps (a0 : Fabric → Fabric) : (s.updFabric a0).disps = s.disps := rfl
@[simp] theorem updFabric_usb (a0 : Fabric → Fabric) : (s.updFabric a0).usb = s.usb := rfl
@[simp] theorem updFabric_svc (a0 : Fabric → Fabric) : (s.updFabric a0).svc = s.svc := rfl
@[simp] theorem updFabric_pd (a0 : Fabric → Fabric) : (s.updFabric a0).pd = s.pd := rfl
@[simp] theorem updFabric_time (a0 : Fabric → Fabric) : (s.updFabric a0).time = s.time := rfl
@[simp] theorem updFabric_eth (a0 : Fabric → Fabric) : (s.updFabric a0).eth = s.eth := rfl
@[simp] theorem updFabric_pl (a0 : Fabric → Fabric) : (s.updFabric a0).pl = s.pl := rfl
@[simp] theorem updFabric_stor (a0 : Fabric → Fabric) : (s.updFabric a0).stor = s.stor := rfl
@[simp] theorem updFabric_dram (a0 : Fabric → Fabric) : (s.updFabric a0).dram = s.dram := rfl
@[simp] theorem updFabric_fld (a0 : Fabric → Fabric) : (s.updFabric a0).fld = s.fld := rfl
@[simp] theorem updFabric_canNode (a0 : Fabric → Fabric) : (s.updFabric a0).canNode = s.canNode := rfl
@[simp] theorem updFabric_keys (a0 : Fabric → Fabric) : (s.updFabric a0).keys = s.keys := rfl
@[simp] theorem updFabric_secu (a0 : Fabric → Fabric) : (s.updFabric a0).secu = s.secu := rfl
@[simp] theorem updFabric_power (a0 : Fabric → Fabric) : (s.updFabric a0).power = s.power := rfl
@[simp] theorem updFabric_app (a0 : Fabric → Fabric) : (s.updFabric a0).app = s.app := rfl
@[simp] theorem updFabric_safety (a0 : Fabric → Fabric) : (s.updFabric a0).safety = s.safety := rfl
@[simp] theorem updFabric_boot (a0 : Fabric → Fabric) : (s.updFabric a0).boot = s.boot := rfl
@[simp] theorem updFabric_get (a0 : Fabric → Fabric) (k : Nat) : (s.updFabric a0).get k = s.get k := rfl
@[simp] theorem updFabric_str (a0 : Fabric → Fabric) (k : Nat) : (s.updFabric a0).str k = s.str k := rfl

@[simp] theorem updSched_part (a0 : Nat) (a1 : Sched → Sched) : (s.updSched a0 a1).part = s.part := rfl
@[simp] theorem updSched_head (a0 : Nat) (a1 : Sched → Sched) : (s.updSched a0 a1).head = s.head := rfl
@[simp] theorem updSched_objs (a0 : Nat) (a1 : Sched → Sched) : (s.updSched a0 a1).objs = s.objs := rfl
@[simp] theorem updSched_strs (a0 : Nat) (a1 : Sched → Sched) : (s.updSched a0 a1).strs = s.strs := rfl
@[simp] theorem updSched_clock (a0 : Nat) (a1 : Sched → Sched) : (s.updSched a0 a1).clock = s.clock := rfl
@[simp] theorem updSched_station (a0 : Nat) (a1 : Sched → Sched) : (s.updSched a0 a1).station = s.station := rfl
@[simp] theorem updSched_freeCount (a0 : Nat) (a1 : Sched → Sched) : (s.updSched a0 a1).freeCount = s.freeCount := rfl
@[simp] theorem updSched_timers (a0 : Nat) (a1 : Sched → Sched) : (s.updSched a0 a1).timers = s.timers := rfl
@[simp] theorem updSched_sessions (a0 : Nat) (a1 : Sched → Sched) : (s.updSched a0 a1).sessions = s.sessions := rfl
@[simp] theorem updSched_lockouts (a0 : Nat) (a1 : Sched → Sched) : (s.updSched a0 a1).lockouts = s.lockouts := rfl
@[simp] theorem updSched_sessionCounter (a0 : Nat) (a1 : Sched → Sched) : (s.updSched a0 a1).sessionCounter = s.sessionCounter := rfl
@[simp] theorem updSched_cmds (a0 : Nat) (a1 : Sched → Sched) : (s.updSched a0 a1).cmds = s.cmds := rfl
@[simp] theorem updSched_irq (a0 : Nat) (a1 : Sched → Sched) : (s.updSched a0 a1).irq = s.irq := rfl
@[simp] theorem updSched_jour (a0 : Nat) (a1 : Sched → Sched) : (s.updSched a0 a1).jour = s.jour := rfl
@[simp] theorem updSched_rates (a0 : Nat) (a1 : Sched → Sched) : (s.updSched a0 a1).rates = s.rates := rfl
@[simp] theorem updSched_sent (a0 : Nat) (a1 : Sched → Sched) : (s.updSched a0 a1).sent = s.sent := rfl
@[simp] theorem updSched_pending (a0 : Nat) (a1 : Sched → Sched) : (s.updSched a0 a1).pending = s.pending := rfl
@[simp] theorem updSched_canOpen (a0 : Nat) (a1 : Sched → Sched) : (s.updSched a0 a1).canOpen = s.canOpen := rfl
@[simp] theorem updSched_modeHeld (a0 : Nat) (a1 : Sched → Sched) : (s.updSched a0 a1).modeHeld = s.modeHeld := rfl
@[simp] theorem updSched_stateHeld (a0 : Nat) (a1 : Sched → Sched) : (s.updSched a0 a1).stateHeld = s.stateHeld := rfl
@[simp] theorem updSched_trunks (a0 : Nat) (a1 : Sched → Sched) : (s.updSched a0 a1).trunks = s.trunks := rfl
@[simp] theorem updSched_tunnels (a0 : Nat) (a1 : Sched → Sched) : (s.updSched a0 a1).tunnels = s.tunnels := rfl
@[simp] theorem updSched_fabric (a0 : Nat) (a1 : Sched → Sched) : (s.updSched a0 a1).fabric = s.fabric := rfl
@[simp] theorem updSched_disps (a0 : Nat) (a1 : Sched → Sched) : (s.updSched a0 a1).disps = s.disps := rfl
@[simp] theorem updSched_usb (a0 : Nat) (a1 : Sched → Sched) : (s.updSched a0 a1).usb = s.usb := rfl
@[simp] theorem updSched_svc (a0 : Nat) (a1 : Sched → Sched) : (s.updSched a0 a1).svc = s.svc := rfl
@[simp] theorem updSched_pd (a0 : Nat) (a1 : Sched → Sched) : (s.updSched a0 a1).pd = s.pd := rfl
@[simp] theorem updSched_time (a0 : Nat) (a1 : Sched → Sched) : (s.updSched a0 a1).time = s.time := rfl
@[simp] theorem updSched_eth (a0 : Nat) (a1 : Sched → Sched) : (s.updSched a0 a1).eth = s.eth := rfl
@[simp] theorem updSched_pl (a0 : Nat) (a1 : Sched → Sched) : (s.updSched a0 a1).pl = s.pl := rfl
@[simp] theorem updSched_stor (a0 : Nat) (a1 : Sched → Sched) : (s.updSched a0 a1).stor = s.stor := rfl
@[simp] theorem updSched_dram (a0 : Nat) (a1 : Sched → Sched) : (s.updSched a0 a1).dram = s.dram := rfl
@[simp] theorem updSched_fld (a0 : Nat) (a1 : Sched → Sched) : (s.updSched a0 a1).fld = s.fld := rfl
@[simp] theorem updSched_canNode (a0 : Nat) (a1 : Sched → Sched) : (s.updSched a0 a1).canNode = s.canNode := rfl
@[simp] theorem updSched_keys (a0 : Nat) (a1 : Sched → Sched) : (s.updSched a0 a1).keys = s.keys := rfl
@[simp] theorem updSched_secu (a0 : Nat) (a1 : Sched → Sched) : (s.updSched a0 a1).secu = s.secu := rfl
@[simp] theorem updSched_power (a0 : Nat) (a1 : Sched → Sched) : (s.updSched a0 a1).power = s.power := rfl
@[simp] theorem updSched_app (a0 : Nat) (a1 : Sched → Sched) : (s.updSched a0 a1).app = s.app := rfl
@[simp] theorem updSched_safety (a0 : Nat) (a1 : Sched → Sched) : (s.updSched a0 a1).safety = s.safety := rfl
@[simp] theorem updSched_boot (a0 : Nat) (a1 : Sched → Sched) : (s.updSched a0 a1).boot = s.boot := rfl
@[simp] theorem updSched_get (a0 : Nat) (a1 : Sched → Sched) (k : Nat) : (s.updSched a0 a1).get k = s.get k := rfl
@[simp] theorem updSched_str (a0 : Nat) (a1 : Sched → Sched) (k : Nat) : (s.updSched a0 a1).str k = s.str k := rfl

@[simp] theorem updDisp_part (a0 : Nat) (a1 : Disp → Disp) : (s.updDisp a0 a1).part = s.part := rfl
@[simp] theorem updDisp_head (a0 : Nat) (a1 : Disp → Disp) : (s.updDisp a0 a1).head = s.head := rfl
@[simp] theorem updDisp_objs (a0 : Nat) (a1 : Disp → Disp) : (s.updDisp a0 a1).objs = s.objs := rfl
@[simp] theorem updDisp_strs (a0 : Nat) (a1 : Disp → Disp) : (s.updDisp a0 a1).strs = s.strs := rfl
@[simp] theorem updDisp_clock (a0 : Nat) (a1 : Disp → Disp) : (s.updDisp a0 a1).clock = s.clock := rfl
@[simp] theorem updDisp_station (a0 : Nat) (a1 : Disp → Disp) : (s.updDisp a0 a1).station = s.station := rfl
@[simp] theorem updDisp_freeCount (a0 : Nat) (a1 : Disp → Disp) : (s.updDisp a0 a1).freeCount = s.freeCount := rfl
@[simp] theorem updDisp_timers (a0 : Nat) (a1 : Disp → Disp) : (s.updDisp a0 a1).timers = s.timers := rfl
@[simp] theorem updDisp_sessions (a0 : Nat) (a1 : Disp → Disp) : (s.updDisp a0 a1).sessions = s.sessions := rfl
@[simp] theorem updDisp_lockouts (a0 : Nat) (a1 : Disp → Disp) : (s.updDisp a0 a1).lockouts = s.lockouts := rfl
@[simp] theorem updDisp_sessionCounter (a0 : Nat) (a1 : Disp → Disp) : (s.updDisp a0 a1).sessionCounter = s.sessionCounter := rfl
@[simp] theorem updDisp_cmds (a0 : Nat) (a1 : Disp → Disp) : (s.updDisp a0 a1).cmds = s.cmds := rfl
@[simp] theorem updDisp_irq (a0 : Nat) (a1 : Disp → Disp) : (s.updDisp a0 a1).irq = s.irq := rfl
@[simp] theorem updDisp_jour (a0 : Nat) (a1 : Disp → Disp) : (s.updDisp a0 a1).jour = s.jour := rfl
@[simp] theorem updDisp_rates (a0 : Nat) (a1 : Disp → Disp) : (s.updDisp a0 a1).rates = s.rates := rfl
@[simp] theorem updDisp_sent (a0 : Nat) (a1 : Disp → Disp) : (s.updDisp a0 a1).sent = s.sent := rfl
@[simp] theorem updDisp_pending (a0 : Nat) (a1 : Disp → Disp) : (s.updDisp a0 a1).pending = s.pending := rfl
@[simp] theorem updDisp_canOpen (a0 : Nat) (a1 : Disp → Disp) : (s.updDisp a0 a1).canOpen = s.canOpen := rfl
@[simp] theorem updDisp_modeHeld (a0 : Nat) (a1 : Disp → Disp) : (s.updDisp a0 a1).modeHeld = s.modeHeld := rfl
@[simp] theorem updDisp_stateHeld (a0 : Nat) (a1 : Disp → Disp) : (s.updDisp a0 a1).stateHeld = s.stateHeld := rfl
@[simp] theorem updDisp_trunks (a0 : Nat) (a1 : Disp → Disp) : (s.updDisp a0 a1).trunks = s.trunks := rfl
@[simp] theorem updDisp_tunnels (a0 : Nat) (a1 : Disp → Disp) : (s.updDisp a0 a1).tunnels = s.tunnels := rfl
@[simp] theorem updDisp_fabric (a0 : Nat) (a1 : Disp → Disp) : (s.updDisp a0 a1).fabric = s.fabric := rfl
@[simp] theorem updDisp_scheds (a0 : Nat) (a1 : Disp → Disp) : (s.updDisp a0 a1).scheds = s.scheds := rfl
@[simp] theorem updDisp_usb (a0 : Nat) (a1 : Disp → Disp) : (s.updDisp a0 a1).usb = s.usb := rfl
@[simp] theorem updDisp_svc (a0 : Nat) (a1 : Disp → Disp) : (s.updDisp a0 a1).svc = s.svc := rfl
@[simp] theorem updDisp_pd (a0 : Nat) (a1 : Disp → Disp) : (s.updDisp a0 a1).pd = s.pd := rfl
@[simp] theorem updDisp_time (a0 : Nat) (a1 : Disp → Disp) : (s.updDisp a0 a1).time = s.time := rfl
@[simp] theorem updDisp_eth (a0 : Nat) (a1 : Disp → Disp) : (s.updDisp a0 a1).eth = s.eth := rfl
@[simp] theorem updDisp_pl (a0 : Nat) (a1 : Disp → Disp) : (s.updDisp a0 a1).pl = s.pl := rfl
@[simp] theorem updDisp_stor (a0 : Nat) (a1 : Disp → Disp) : (s.updDisp a0 a1).stor = s.stor := rfl
@[simp] theorem updDisp_dram (a0 : Nat) (a1 : Disp → Disp) : (s.updDisp a0 a1).dram = s.dram := rfl
@[simp] theorem updDisp_fld (a0 : Nat) (a1 : Disp → Disp) : (s.updDisp a0 a1).fld = s.fld := rfl
@[simp] theorem updDisp_canNode (a0 : Nat) (a1 : Disp → Disp) : (s.updDisp a0 a1).canNode = s.canNode := rfl
@[simp] theorem updDisp_keys (a0 : Nat) (a1 : Disp → Disp) : (s.updDisp a0 a1).keys = s.keys := rfl
@[simp] theorem updDisp_secu (a0 : Nat) (a1 : Disp → Disp) : (s.updDisp a0 a1).secu = s.secu := rfl
@[simp] theorem updDisp_power (a0 : Nat) (a1 : Disp → Disp) : (s.updDisp a0 a1).power = s.power := rfl
@[simp] theorem updDisp_app (a0 : Nat) (a1 : Disp → Disp) : (s.updDisp a0 a1).app = s.app := rfl
@[simp] theorem updDisp_safety (a0 : Nat) (a1 : Disp → Disp) : (s.updDisp a0 a1).safety = s.safety := rfl
@[simp] theorem updDisp_boot (a0 : Nat) (a1 : Disp → Disp) : (s.updDisp a0 a1).boot = s.boot := rfl
@[simp] theorem updDisp_get (a0 : Nat) (a1 : Disp → Disp) (k : Nat) : (s.updDisp a0 a1).get k = s.get k := rfl
@[simp] theorem updDisp_str (a0 : Nat) (a1 : Disp → Disp) (k : Nat) : (s.updDisp a0 a1).str k = s.str k := rfl

@[simp] theorem updUport_part (a0 : Nat) (a1 : UsbPort → UsbPort) : (s.updUport a0 a1).part = s.part := rfl
@[simp] theorem updUport_head (a0 : Nat) (a1 : UsbPort → UsbPort) : (s.updUport a0 a1).head = s.head := rfl
@[simp] theorem updUport_objs (a0 : Nat) (a1 : UsbPort → UsbPort) : (s.updUport a0 a1).objs = s.objs := rfl
@[simp] theorem updUport_strs (a0 : Nat) (a1 : UsbPort → UsbPort) : (s.updUport a0 a1).strs = s.strs := rfl
@[simp] theorem updUport_clock (a0 : Nat) (a1 : UsbPort → UsbPort) : (s.updUport a0 a1).clock = s.clock := rfl
@[simp] theorem updUport_station (a0 : Nat) (a1 : UsbPort → UsbPort) : (s.updUport a0 a1).station = s.station := rfl
@[simp] theorem updUport_freeCount (a0 : Nat) (a1 : UsbPort → UsbPort) : (s.updUport a0 a1).freeCount = s.freeCount := rfl
@[simp] theorem updUport_timers (a0 : Nat) (a1 : UsbPort → UsbPort) : (s.updUport a0 a1).timers = s.timers := rfl
@[simp] theorem updUport_sessions (a0 : Nat) (a1 : UsbPort → UsbPort) : (s.updUport a0 a1).sessions = s.sessions := rfl
@[simp] theorem updUport_lockouts (a0 : Nat) (a1 : UsbPort → UsbPort) : (s.updUport a0 a1).lockouts = s.lockouts := rfl
@[simp] theorem updUport_sessionCounter (a0 : Nat) (a1 : UsbPort → UsbPort) : (s.updUport a0 a1).sessionCounter = s.sessionCounter := rfl
@[simp] theorem updUport_cmds (a0 : Nat) (a1 : UsbPort → UsbPort) : (s.updUport a0 a1).cmds = s.cmds := rfl
@[simp] theorem updUport_irq (a0 : Nat) (a1 : UsbPort → UsbPort) : (s.updUport a0 a1).irq = s.irq := rfl
@[simp] theorem updUport_jour (a0 : Nat) (a1 : UsbPort → UsbPort) : (s.updUport a0 a1).jour = s.jour := rfl
@[simp] theorem updUport_rates (a0 : Nat) (a1 : UsbPort → UsbPort) : (s.updUport a0 a1).rates = s.rates := rfl
@[simp] theorem updUport_sent (a0 : Nat) (a1 : UsbPort → UsbPort) : (s.updUport a0 a1).sent = s.sent := rfl
@[simp] theorem updUport_pending (a0 : Nat) (a1 : UsbPort → UsbPort) : (s.updUport a0 a1).pending = s.pending := rfl
@[simp] theorem updUport_canOpen (a0 : Nat) (a1 : UsbPort → UsbPort) : (s.updUport a0 a1).canOpen = s.canOpen := rfl
@[simp] theorem updUport_modeHeld (a0 : Nat) (a1 : UsbPort → UsbPort) : (s.updUport a0 a1).modeHeld = s.modeHeld := rfl
@[simp] theorem updUport_stateHeld (a0 : Nat) (a1 : UsbPort → UsbPort) : (s.updUport a0 a1).stateHeld = s.stateHeld := rfl
@[simp] theorem updUport_trunks (a0 : Nat) (a1 : UsbPort → UsbPort) : (s.updUport a0 a1).trunks = s.trunks := rfl
@[simp] theorem updUport_tunnels (a0 : Nat) (a1 : UsbPort → UsbPort) : (s.updUport a0 a1).tunnels = s.tunnels := rfl
@[simp] theorem updUport_fabric (a0 : Nat) (a1 : UsbPort → UsbPort) : (s.updUport a0 a1).fabric = s.fabric := rfl
@[simp] theorem updUport_scheds (a0 : Nat) (a1 : UsbPort → UsbPort) : (s.updUport a0 a1).scheds = s.scheds := rfl
@[simp] theorem updUport_disps (a0 : Nat) (a1 : UsbPort → UsbPort) : (s.updUport a0 a1).disps = s.disps := rfl
@[simp] theorem updUport_svc (a0 : Nat) (a1 : UsbPort → UsbPort) : (s.updUport a0 a1).svc = s.svc := rfl
@[simp] theorem updUport_pd (a0 : Nat) (a1 : UsbPort → UsbPort) : (s.updUport a0 a1).pd = s.pd := rfl
@[simp] theorem updUport_time (a0 : Nat) (a1 : UsbPort → UsbPort) : (s.updUport a0 a1).time = s.time := rfl
@[simp] theorem updUport_eth (a0 : Nat) (a1 : UsbPort → UsbPort) : (s.updUport a0 a1).eth = s.eth := rfl
@[simp] theorem updUport_pl (a0 : Nat) (a1 : UsbPort → UsbPort) : (s.updUport a0 a1).pl = s.pl := rfl
@[simp] theorem updUport_stor (a0 : Nat) (a1 : UsbPort → UsbPort) : (s.updUport a0 a1).stor = s.stor := rfl
@[simp] theorem updUport_dram (a0 : Nat) (a1 : UsbPort → UsbPort) : (s.updUport a0 a1).dram = s.dram := rfl
@[simp] theorem updUport_fld (a0 : Nat) (a1 : UsbPort → UsbPort) : (s.updUport a0 a1).fld = s.fld := rfl
@[simp] theorem updUport_canNode (a0 : Nat) (a1 : UsbPort → UsbPort) : (s.updUport a0 a1).canNode = s.canNode := rfl
@[simp] theorem updUport_keys (a0 : Nat) (a1 : UsbPort → UsbPort) : (s.updUport a0 a1).keys = s.keys := rfl
@[simp] theorem updUport_secu (a0 : Nat) (a1 : UsbPort → UsbPort) : (s.updUport a0 a1).secu = s.secu := rfl
@[simp] theorem updUport_power (a0 : Nat) (a1 : UsbPort → UsbPort) : (s.updUport a0 a1).power = s.power := rfl
@[simp] theorem updUport_app (a0 : Nat) (a1 : UsbPort → UsbPort) : (s.updUport a0 a1).app = s.app := rfl
@[simp] theorem updUport_safety (a0 : Nat) (a1 : UsbPort → UsbPort) : (s.updUport a0 a1).safety = s.safety := rfl
@[simp] theorem updUport_boot (a0 : Nat) (a1 : UsbPort → UsbPort) : (s.updUport a0 a1).boot = s.boot := rfl
@[simp] theorem updUport_get (a0 : Nat) (a1 : UsbPort → UsbPort) (k : Nat) : (s.updUport a0 a1).get k = s.get k := rfl
@[simp] theorem updUport_str (a0 : Nat) (a1 : UsbPort → UsbPort) (k : Nat) : (s.updUport a0 a1).str k = s.str k := rfl

@[simp] theorem updRelay_part (a0 : Nat) (a1 : Relay → Relay) : (s.updRelay a0 a1).part = s.part := rfl
@[simp] theorem updRelay_head (a0 : Nat) (a1 : Relay → Relay) : (s.updRelay a0 a1).head = s.head := rfl
@[simp] theorem updRelay_objs (a0 : Nat) (a1 : Relay → Relay) : (s.updRelay a0 a1).objs = s.objs := rfl
@[simp] theorem updRelay_strs (a0 : Nat) (a1 : Relay → Relay) : (s.updRelay a0 a1).strs = s.strs := rfl
@[simp] theorem updRelay_clock (a0 : Nat) (a1 : Relay → Relay) : (s.updRelay a0 a1).clock = s.clock := rfl
@[simp] theorem updRelay_station (a0 : Nat) (a1 : Relay → Relay) : (s.updRelay a0 a1).station = s.station := rfl
@[simp] theorem updRelay_freeCount (a0 : Nat) (a1 : Relay → Relay) : (s.updRelay a0 a1).freeCount = s.freeCount := rfl
@[simp] theorem updRelay_timers (a0 : Nat) (a1 : Relay → Relay) : (s.updRelay a0 a1).timers = s.timers := rfl
@[simp] theorem updRelay_sessions (a0 : Nat) (a1 : Relay → Relay) : (s.updRelay a0 a1).sessions = s.sessions := rfl
@[simp] theorem updRelay_lockouts (a0 : Nat) (a1 : Relay → Relay) : (s.updRelay a0 a1).lockouts = s.lockouts := rfl
@[simp] theorem updRelay_sessionCounter (a0 : Nat) (a1 : Relay → Relay) : (s.updRelay a0 a1).sessionCounter = s.sessionCounter := rfl
@[simp] theorem updRelay_cmds (a0 : Nat) (a1 : Relay → Relay) : (s.updRelay a0 a1).cmds = s.cmds := rfl
@[simp] theorem updRelay_irq (a0 : Nat) (a1 : Relay → Relay) : (s.updRelay a0 a1).irq = s.irq := rfl
@[simp] theorem updRelay_jour (a0 : Nat) (a1 : Relay → Relay) : (s.updRelay a0 a1).jour = s.jour := rfl
@[simp] theorem updRelay_rates (a0 : Nat) (a1 : Relay → Relay) : (s.updRelay a0 a1).rates = s.rates := rfl
@[simp] theorem updRelay_sent (a0 : Nat) (a1 : Relay → Relay) : (s.updRelay a0 a1).sent = s.sent := rfl
@[simp] theorem updRelay_pending (a0 : Nat) (a1 : Relay → Relay) : (s.updRelay a0 a1).pending = s.pending := rfl
@[simp] theorem updRelay_canOpen (a0 : Nat) (a1 : Relay → Relay) : (s.updRelay a0 a1).canOpen = s.canOpen := rfl
@[simp] theorem updRelay_modeHeld (a0 : Nat) (a1 : Relay → Relay) : (s.updRelay a0 a1).modeHeld = s.modeHeld := rfl
@[simp] theorem updRelay_stateHeld (a0 : Nat) (a1 : Relay → Relay) : (s.updRelay a0 a1).stateHeld = s.stateHeld := rfl
@[simp] theorem updRelay_trunks (a0 : Nat) (a1 : Relay → Relay) : (s.updRelay a0 a1).trunks = s.trunks := rfl
@[simp] theorem updRelay_tunnels (a0 : Nat) (a1 : Relay → Relay) : (s.updRelay a0 a1).tunnels = s.tunnels := rfl
@[simp] theorem updRelay_fabric (a0 : Nat) (a1 : Relay → Relay) : (s.updRelay a0 a1).fabric = s.fabric := rfl
@[simp] theorem updRelay_scheds (a0 : Nat) (a1 : Relay → Relay) : (s.updRelay a0 a1).scheds = s.scheds := rfl
@[simp] theorem updRelay_disps (a0 : Nat) (a1 : Relay → Relay) : (s.updRelay a0 a1).disps = s.disps := rfl
@[simp] theorem updRelay_svc (a0 : Nat) (a1 : Relay → Relay) : (s.updRelay a0 a1).svc = s.svc := rfl
@[simp] theorem updRelay_pd (a0 : Nat) (a1 : Relay → Relay) : (s.updRelay a0 a1).pd = s.pd := rfl
@[simp] theorem updRelay_time (a0 : Nat) (a1 : Relay → Relay) : (s.updRelay a0 a1).time = s.time := rfl
@[simp] theorem updRelay_eth (a0 : Nat) (a1 : Relay → Relay) : (s.updRelay a0 a1).eth = s.eth := rfl
@[simp] theorem updRelay_pl (a0 : Nat) (a1 : Relay → Relay) : (s.updRelay a0 a1).pl = s.pl := rfl
@[simp] theorem updRelay_stor (a0 : Nat) (a1 : Relay → Relay) : (s.updRelay a0 a1).stor = s.stor := rfl
@[simp] theorem updRelay_dram (a0 : Nat) (a1 : Relay → Relay) : (s.updRelay a0 a1).dram = s.dram := rfl
@[simp] theorem updRelay_fld (a0 : Nat) (a1 : Relay → Relay) : (s.updRelay a0 a1).fld = s.fld := rfl
@[simp] theorem updRelay_canNode (a0 : Nat) (a1 : Relay → Relay) : (s.updRelay a0 a1).canNode = s.canNode := rfl
@[simp] theorem updRelay_keys (a0 : Nat) (a1 : Relay → Relay) : (s.updRelay a0 a1).keys = s.keys := rfl
@[simp] theorem updRelay_secu (a0 : Nat) (a1 : Relay → Relay) : (s.updRelay a0 a1).secu = s.secu := rfl
@[simp] theorem updRelay_power (a0 : Nat) (a1 : Relay → Relay) : (s.updRelay a0 a1).power = s.power := rfl
@[simp] theorem updRelay_app (a0 : Nat) (a1 : Relay → Relay) : (s.updRelay a0 a1).app = s.app := rfl
@[simp] theorem updRelay_safety (a0 : Nat) (a1 : Relay → Relay) : (s.updRelay a0 a1).safety = s.safety := rfl
@[simp] theorem updRelay_boot (a0 : Nat) (a1 : Relay → Relay) : (s.updRelay a0 a1).boot = s.boot := rfl
@[simp] theorem updRelay_get (a0 : Nat) (a1 : Relay → Relay) (k : Nat) : (s.updRelay a0 a1).get k = s.get k := rfl
@[simp] theorem updRelay_str (a0 : Nat) (a1 : Relay → Relay) (k : Nat) : (s.updRelay a0 a1).str k = s.str k := rfl

@[simp] theorem updSvc_part (a0 : SvcDev → SvcDev) : (s.updSvc a0).part = s.part := rfl
@[simp] theorem updSvc_head (a0 : SvcDev → SvcDev) : (s.updSvc a0).head = s.head := rfl
@[simp] theorem updSvc_objs (a0 : SvcDev → SvcDev) : (s.updSvc a0).objs = s.objs := rfl
@[simp] theorem updSvc_strs (a0 : SvcDev → SvcDev) : (s.updSvc a0).strs = s.strs := rfl
@[simp] theorem updSvc_clock (a0 : SvcDev → SvcDev) : (s.updSvc a0).clock = s.clock := rfl
@[simp] theorem updSvc_station (a0 : SvcDev → SvcDev) : (s.updSvc a0).station = s.station := rfl
@[simp] theorem updSvc_freeCount (a0 : SvcDev → SvcDev) : (s.updSvc a0).freeCount = s.freeCount := rfl
@[simp] theorem updSvc_timers (a0 : SvcDev → SvcDev) : (s.updSvc a0).timers = s.timers := rfl
@[simp] theorem updSvc_sessions (a0 : SvcDev → SvcDev) : (s.updSvc a0).sessions = s.sessions := rfl
@[simp] theorem updSvc_lockouts (a0 : SvcDev → SvcDev) : (s.updSvc a0).lockouts = s.lockouts := rfl
@[simp] theorem updSvc_sessionCounter (a0 : SvcDev → SvcDev) : (s.updSvc a0).sessionCounter = s.sessionCounter := rfl
@[simp] theorem updSvc_cmds (a0 : SvcDev → SvcDev) : (s.updSvc a0).cmds = s.cmds := rfl
@[simp] theorem updSvc_irq (a0 : SvcDev → SvcDev) : (s.updSvc a0).irq = s.irq := rfl
@[simp] theorem updSvc_jour (a0 : SvcDev → SvcDev) : (s.updSvc a0).jour = s.jour := rfl
@[simp] theorem updSvc_rates (a0 : SvcDev → SvcDev) : (s.updSvc a0).rates = s.rates := rfl
@[simp] theorem updSvc_sent (a0 : SvcDev → SvcDev) : (s.updSvc a0).sent = s.sent := rfl
@[simp] theorem updSvc_pending (a0 : SvcDev → SvcDev) : (s.updSvc a0).pending = s.pending := rfl
@[simp] theorem updSvc_canOpen (a0 : SvcDev → SvcDev) : (s.updSvc a0).canOpen = s.canOpen := rfl
@[simp] theorem updSvc_modeHeld (a0 : SvcDev → SvcDev) : (s.updSvc a0).modeHeld = s.modeHeld := rfl
@[simp] theorem updSvc_stateHeld (a0 : SvcDev → SvcDev) : (s.updSvc a0).stateHeld = s.stateHeld := rfl
@[simp] theorem updSvc_trunks (a0 : SvcDev → SvcDev) : (s.updSvc a0).trunks = s.trunks := rfl
@[simp] theorem updSvc_tunnels (a0 : SvcDev → SvcDev) : (s.updSvc a0).tunnels = s.tunnels := rfl
@[simp] theorem updSvc_fabric (a0 : SvcDev → SvcDev) : (s.updSvc a0).fabric = s.fabric := rfl
@[simp] theorem updSvc_scheds (a0 : SvcDev → SvcDev) : (s.updSvc a0).scheds = s.scheds := rfl
@[simp] theorem updSvc_disps (a0 : SvcDev → SvcDev) : (s.updSvc a0).disps = s.disps := rfl
@[simp] theorem updSvc_usb (a0 : SvcDev → SvcDev) : (s.updSvc a0).usb = s.usb := rfl
@[simp] theorem updSvc_pd (a0 : SvcDev → SvcDev) : (s.updSvc a0).pd = s.pd := rfl
@[simp] theorem updSvc_time (a0 : SvcDev → SvcDev) : (s.updSvc a0).time = s.time := rfl
@[simp] theorem updSvc_eth (a0 : SvcDev → SvcDev) : (s.updSvc a0).eth = s.eth := rfl
@[simp] theorem updSvc_pl (a0 : SvcDev → SvcDev) : (s.updSvc a0).pl = s.pl := rfl
@[simp] theorem updSvc_stor (a0 : SvcDev → SvcDev) : (s.updSvc a0).stor = s.stor := rfl
@[simp] theorem updSvc_dram (a0 : SvcDev → SvcDev) : (s.updSvc a0).dram = s.dram := rfl
@[simp] theorem updSvc_fld (a0 : SvcDev → SvcDev) : (s.updSvc a0).fld = s.fld := rfl
@[simp] theorem updSvc_canNode (a0 : SvcDev → SvcDev) : (s.updSvc a0).canNode = s.canNode := rfl
@[simp] theorem updSvc_keys (a0 : SvcDev → SvcDev) : (s.updSvc a0).keys = s.keys := rfl
@[simp] theorem updSvc_secu (a0 : SvcDev → SvcDev) : (s.updSvc a0).secu = s.secu := rfl
@[simp] theorem updSvc_power (a0 : SvcDev → SvcDev) : (s.updSvc a0).power = s.power := rfl
@[simp] theorem updSvc_app (a0 : SvcDev → SvcDev) : (s.updSvc a0).app = s.app := rfl
@[simp] theorem updSvc_safety (a0 : SvcDev → SvcDev) : (s.updSvc a0).safety = s.safety := rfl
@[simp] theorem updSvc_boot (a0 : SvcDev → SvcDev) : (s.updSvc a0).boot = s.boot := rfl
@[simp] theorem updSvc_get (a0 : SvcDev → SvcDev) (k : Nat) : (s.updSvc a0).get k = s.get k := rfl
@[simp] theorem updSvc_str (a0 : SvcDev → SvcDev) (k : Nat) : (s.updSvc a0).str k = s.str k := rfl

@[simp] theorem updPd_part (a0 : Pd → Pd) : (s.updPd a0).part = s.part := rfl
@[simp] theorem updPd_head (a0 : Pd → Pd) : (s.updPd a0).head = s.head := rfl
@[simp] theorem updPd_objs (a0 : Pd → Pd) : (s.updPd a0).objs = s.objs := rfl
@[simp] theorem updPd_strs (a0 : Pd → Pd) : (s.updPd a0).strs = s.strs := rfl
@[simp] theorem updPd_clock (a0 : Pd → Pd) : (s.updPd a0).clock = s.clock := rfl
@[simp] theorem updPd_station (a0 : Pd → Pd) : (s.updPd a0).station = s.station := rfl
@[simp] theorem updPd_freeCount (a0 : Pd → Pd) : (s.updPd a0).freeCount = s.freeCount := rfl
@[simp] theorem updPd_timers (a0 : Pd → Pd) : (s.updPd a0).timers = s.timers := rfl
@[simp] theorem updPd_sessions (a0 : Pd → Pd) : (s.updPd a0).sessions = s.sessions := rfl
@[simp] theorem updPd_lockouts (a0 : Pd → Pd) : (s.updPd a0).lockouts = s.lockouts := rfl
@[simp] theorem updPd_sessionCounter (a0 : Pd → Pd) : (s.updPd a0).sessionCounter = s.sessionCounter := rfl
@[simp] theorem updPd_cmds (a0 : Pd → Pd) : (s.updPd a0).cmds = s.cmds := rfl
@[simp] theorem updPd_irq (a0 : Pd → Pd) : (s.updPd a0).irq = s.irq := rfl
@[simp] theorem updPd_jour (a0 : Pd → Pd) : (s.updPd a0).jour = s.jour := rfl
@[simp] theorem updPd_rates (a0 : Pd → Pd) : (s.updPd a0).rates = s.rates := rfl
@[simp] theorem updPd_sent (a0 : Pd → Pd) : (s.updPd a0).sent = s.sent := rfl
@[simp] theorem updPd_pending (a0 : Pd → Pd) : (s.updPd a0).pending = s.pending := rfl
@[simp] theorem updPd_canOpen (a0 : Pd → Pd) : (s.updPd a0).canOpen = s.canOpen := rfl
@[simp] theorem updPd_modeHeld (a0 : Pd → Pd) : (s.updPd a0).modeHeld = s.modeHeld := rfl
@[simp] theorem updPd_stateHeld (a0 : Pd → Pd) : (s.updPd a0).stateHeld = s.stateHeld := rfl
@[simp] theorem updPd_trunks (a0 : Pd → Pd) : (s.updPd a0).trunks = s.trunks := rfl
@[simp] theorem updPd_tunnels (a0 : Pd → Pd) : (s.updPd a0).tunnels = s.tunnels := rfl
@[simp] theorem updPd_fabric (a0 : Pd → Pd) : (s.updPd a0).fabric = s.fabric := rfl
@[simp] theorem updPd_scheds (a0 : Pd → Pd) : (s.updPd a0).scheds = s.scheds := rfl
@[simp] theorem updPd_disps (a0 : Pd → Pd) : (s.updPd a0).disps = s.disps := rfl
@[simp] theorem updPd_usb (a0 : Pd → Pd) : (s.updPd a0).usb = s.usb := rfl
@[simp] theorem updPd_svc (a0 : Pd → Pd) : (s.updPd a0).svc = s.svc := rfl
@[simp] theorem updPd_time (a0 : Pd → Pd) : (s.updPd a0).time = s.time := rfl
@[simp] theorem updPd_eth (a0 : Pd → Pd) : (s.updPd a0).eth = s.eth := rfl
@[simp] theorem updPd_pl (a0 : Pd → Pd) : (s.updPd a0).pl = s.pl := rfl
@[simp] theorem updPd_stor (a0 : Pd → Pd) : (s.updPd a0).stor = s.stor := rfl
@[simp] theorem updPd_dram (a0 : Pd → Pd) : (s.updPd a0).dram = s.dram := rfl
@[simp] theorem updPd_fld (a0 : Pd → Pd) : (s.updPd a0).fld = s.fld := rfl
@[simp] theorem updPd_canNode (a0 : Pd → Pd) : (s.updPd a0).canNode = s.canNode := rfl
@[simp] theorem updPd_keys (a0 : Pd → Pd) : (s.updPd a0).keys = s.keys := rfl
@[simp] theorem updPd_secu (a0 : Pd → Pd) : (s.updPd a0).secu = s.secu := rfl
@[simp] theorem updPd_power (a0 : Pd → Pd) : (s.updPd a0).power = s.power := rfl
@[simp] theorem updPd_app (a0 : Pd → Pd) : (s.updPd a0).app = s.app := rfl
@[simp] theorem updPd_safety (a0 : Pd → Pd) : (s.updPd a0).safety = s.safety := rfl
@[simp] theorem updPd_boot (a0 : Pd → Pd) : (s.updPd a0).boot = s.boot := rfl
@[simp] theorem updPd_get (a0 : Pd → Pd) (k : Nat) : (s.updPd a0).get k = s.get k := rfl
@[simp] theorem updPd_str (a0 : Pd → Pd) (k : Nat) : (s.updPd a0).str k = s.str k := rfl

@[simp] theorem updTime_part (a0 : TimeBase → TimeBase) : (s.updTime a0).part = s.part := rfl
@[simp] theorem updTime_head (a0 : TimeBase → TimeBase) : (s.updTime a0).head = s.head := rfl
@[simp] theorem updTime_objs (a0 : TimeBase → TimeBase) : (s.updTime a0).objs = s.objs := rfl
@[simp] theorem updTime_strs (a0 : TimeBase → TimeBase) : (s.updTime a0).strs = s.strs := rfl
@[simp] theorem updTime_clock (a0 : TimeBase → TimeBase) : (s.updTime a0).clock = s.clock := rfl
@[simp] theorem updTime_station (a0 : TimeBase → TimeBase) : (s.updTime a0).station = s.station := rfl
@[simp] theorem updTime_freeCount (a0 : TimeBase → TimeBase) : (s.updTime a0).freeCount = s.freeCount := rfl
@[simp] theorem updTime_timers (a0 : TimeBase → TimeBase) : (s.updTime a0).timers = s.timers := rfl
@[simp] theorem updTime_sessions (a0 : TimeBase → TimeBase) : (s.updTime a0).sessions = s.sessions := rfl
@[simp] theorem updTime_lockouts (a0 : TimeBase → TimeBase) : (s.updTime a0).lockouts = s.lockouts := rfl
@[simp] theorem updTime_sessionCounter (a0 : TimeBase → TimeBase) : (s.updTime a0).sessionCounter = s.sessionCounter := rfl
@[simp] theorem updTime_cmds (a0 : TimeBase → TimeBase) : (s.updTime a0).cmds = s.cmds := rfl
@[simp] theorem updTime_irq (a0 : TimeBase → TimeBase) : (s.updTime a0).irq = s.irq := rfl
@[simp] theorem updTime_jour (a0 : TimeBase → TimeBase) : (s.updTime a0).jour = s.jour := rfl
@[simp] theorem updTime_rates (a0 : TimeBase → TimeBase) : (s.updTime a0).rates = s.rates := rfl
@[simp] theorem updTime_sent (a0 : TimeBase → TimeBase) : (s.updTime a0).sent = s.sent := rfl
@[simp] theorem updTime_pending (a0 : TimeBase → TimeBase) : (s.updTime a0).pending = s.pending := rfl
@[simp] theorem updTime_canOpen (a0 : TimeBase → TimeBase) : (s.updTime a0).canOpen = s.canOpen := rfl
@[simp] theorem updTime_modeHeld (a0 : TimeBase → TimeBase) : (s.updTime a0).modeHeld = s.modeHeld := rfl
@[simp] theorem updTime_stateHeld (a0 : TimeBase → TimeBase) : (s.updTime a0).stateHeld = s.stateHeld := rfl
@[simp] theorem updTime_trunks (a0 : TimeBase → TimeBase) : (s.updTime a0).trunks = s.trunks := rfl
@[simp] theorem updTime_tunnels (a0 : TimeBase → TimeBase) : (s.updTime a0).tunnels = s.tunnels := rfl
@[simp] theorem updTime_fabric (a0 : TimeBase → TimeBase) : (s.updTime a0).fabric = s.fabric := rfl
@[simp] theorem updTime_scheds (a0 : TimeBase → TimeBase) : (s.updTime a0).scheds = s.scheds := rfl
@[simp] theorem updTime_disps (a0 : TimeBase → TimeBase) : (s.updTime a0).disps = s.disps := rfl
@[simp] theorem updTime_usb (a0 : TimeBase → TimeBase) : (s.updTime a0).usb = s.usb := rfl
@[simp] theorem updTime_svc (a0 : TimeBase → TimeBase) : (s.updTime a0).svc = s.svc := rfl
@[simp] theorem updTime_pd (a0 : TimeBase → TimeBase) : (s.updTime a0).pd = s.pd := rfl
@[simp] theorem updTime_eth (a0 : TimeBase → TimeBase) : (s.updTime a0).eth = s.eth := rfl
@[simp] theorem updTime_pl (a0 : TimeBase → TimeBase) : (s.updTime a0).pl = s.pl := rfl
@[simp] theorem updTime_stor (a0 : TimeBase → TimeBase) : (s.updTime a0).stor = s.stor := rfl
@[simp] theorem updTime_dram (a0 : TimeBase → TimeBase) : (s.updTime a0).dram = s.dram := rfl
@[simp] theorem updTime_fld (a0 : TimeBase → TimeBase) : (s.updTime a0).fld = s.fld := rfl
@[simp] theorem updTime_canNode (a0 : TimeBase → TimeBase) : (s.updTime a0).canNode = s.canNode := rfl
@[simp] theorem updTime_keys (a0 : TimeBase → TimeBase) : (s.updTime a0).keys = s.keys := rfl
@[simp] theorem updTime_secu (a0 : TimeBase → TimeBase) : (s.updTime a0).secu = s.secu := rfl
@[simp] theorem updTime_power (a0 : TimeBase → TimeBase) : (s.updTime a0).power = s.power := rfl
@[simp] theorem updTime_app (a0 : TimeBase → TimeBase) : (s.updTime a0).app = s.app := rfl
@[simp] theorem updTime_safety (a0 : TimeBase → TimeBase) : (s.updTime a0).safety = s.safety := rfl
@[simp] theorem updTime_boot (a0 : TimeBase → TimeBase) : (s.updTime a0).boot = s.boot := rfl
@[simp] theorem updTime_get (a0 : TimeBase → TimeBase) (k : Nat) : (s.updTime a0).get k = s.get k := rfl
@[simp] theorem updTime_str (a0 : TimeBase → TimeBase) (k : Nat) : (s.updTime a0).str k = s.str k := rfl

@[simp] theorem updPl_part (a0 : Nat) (a1 : PlTime → PlTime) : (s.updPl a0 a1).part = s.part := rfl
@[simp] theorem updPl_head (a0 : Nat) (a1 : PlTime → PlTime) : (s.updPl a0 a1).head = s.head := rfl
@[simp] theorem updPl_objs (a0 : Nat) (a1 : PlTime → PlTime) : (s.updPl a0 a1).objs = s.objs := rfl
@[simp] theorem updPl_strs (a0 : Nat) (a1 : PlTime → PlTime) : (s.updPl a0 a1).strs = s.strs := rfl
@[simp] theorem updPl_clock (a0 : Nat) (a1 : PlTime → PlTime) : (s.updPl a0 a1).clock = s.clock := rfl
@[simp] theorem updPl_station (a0 : Nat) (a1 : PlTime → PlTime) : (s.updPl a0 a1).station = s.station := rfl
@[simp] theorem updPl_freeCount (a0 : Nat) (a1 : PlTime → PlTime) : (s.updPl a0 a1).freeCount = s.freeCount := rfl
@[simp] theorem updPl_timers (a0 : Nat) (a1 : PlTime → PlTime) : (s.updPl a0 a1).timers = s.timers := rfl
@[simp] theorem updPl_sessions (a0 : Nat) (a1 : PlTime → PlTime) : (s.updPl a0 a1).sessions = s.sessions := rfl
@[simp] theorem updPl_lockouts (a0 : Nat) (a1 : PlTime → PlTime) : (s.updPl a0 a1).lockouts = s.lockouts := rfl
@[simp] theorem updPl_sessionCounter (a0 : Nat) (a1 : PlTime → PlTime) : (s.updPl a0 a1).sessionCounter = s.sessionCounter := rfl
@[simp] theorem updPl_cmds (a0 : Nat) (a1 : PlTime → PlTime) : (s.updPl a0 a1).cmds = s.cmds := rfl
@[simp] theorem updPl_irq (a0 : Nat) (a1 : PlTime → PlTime) : (s.updPl a0 a1).irq = s.irq := rfl
@[simp] theorem updPl_jour (a0 : Nat) (a1 : PlTime → PlTime) : (s.updPl a0 a1).jour = s.jour := rfl
@[simp] theorem updPl_rates (a0 : Nat) (a1 : PlTime → PlTime) : (s.updPl a0 a1).rates = s.rates := rfl
@[simp] theorem updPl_sent (a0 : Nat) (a1 : PlTime → PlTime) : (s.updPl a0 a1).sent = s.sent := rfl
@[simp] theorem updPl_pending (a0 : Nat) (a1 : PlTime → PlTime) : (s.updPl a0 a1).pending = s.pending := rfl
@[simp] theorem updPl_canOpen (a0 : Nat) (a1 : PlTime → PlTime) : (s.updPl a0 a1).canOpen = s.canOpen := rfl
@[simp] theorem updPl_modeHeld (a0 : Nat) (a1 : PlTime → PlTime) : (s.updPl a0 a1).modeHeld = s.modeHeld := rfl
@[simp] theorem updPl_stateHeld (a0 : Nat) (a1 : PlTime → PlTime) : (s.updPl a0 a1).stateHeld = s.stateHeld := rfl
@[simp] theorem updPl_trunks (a0 : Nat) (a1 : PlTime → PlTime) : (s.updPl a0 a1).trunks = s.trunks := rfl
@[simp] theorem updPl_tunnels (a0 : Nat) (a1 : PlTime → PlTime) : (s.updPl a0 a1).tunnels = s.tunnels := rfl
@[simp] theorem updPl_fabric (a0 : Nat) (a1 : PlTime → PlTime) : (s.updPl a0 a1).fabric = s.fabric := rfl
@[simp] theorem updPl_scheds (a0 : Nat) (a1 : PlTime → PlTime) : (s.updPl a0 a1).scheds = s.scheds := rfl
@[simp] theorem updPl_disps (a0 : Nat) (a1 : PlTime → PlTime) : (s.updPl a0 a1).disps = s.disps := rfl
@[simp] theorem updPl_usb (a0 : Nat) (a1 : PlTime → PlTime) : (s.updPl a0 a1).usb = s.usb := rfl
@[simp] theorem updPl_svc (a0 : Nat) (a1 : PlTime → PlTime) : (s.updPl a0 a1).svc = s.svc := rfl
@[simp] theorem updPl_pd (a0 : Nat) (a1 : PlTime → PlTime) : (s.updPl a0 a1).pd = s.pd := rfl
@[simp] theorem updPl_time (a0 : Nat) (a1 : PlTime → PlTime) : (s.updPl a0 a1).time = s.time := rfl
@[simp] theorem updPl_eth (a0 : Nat) (a1 : PlTime → PlTime) : (s.updPl a0 a1).eth = s.eth := rfl
@[simp] theorem updPl_stor (a0 : Nat) (a1 : PlTime → PlTime) : (s.updPl a0 a1).stor = s.stor := rfl
@[simp] theorem updPl_dram (a0 : Nat) (a1 : PlTime → PlTime) : (s.updPl a0 a1).dram = s.dram := rfl
@[simp] theorem updPl_fld (a0 : Nat) (a1 : PlTime → PlTime) : (s.updPl a0 a1).fld = s.fld := rfl
@[simp] theorem updPl_canNode (a0 : Nat) (a1 : PlTime → PlTime) : (s.updPl a0 a1).canNode = s.canNode := rfl
@[simp] theorem updPl_keys (a0 : Nat) (a1 : PlTime → PlTime) : (s.updPl a0 a1).keys = s.keys := rfl
@[simp] theorem updPl_secu (a0 : Nat) (a1 : PlTime → PlTime) : (s.updPl a0 a1).secu = s.secu := rfl
@[simp] theorem updPl_power (a0 : Nat) (a1 : PlTime → PlTime) : (s.updPl a0 a1).power = s.power := rfl
@[simp] theorem updPl_app (a0 : Nat) (a1 : PlTime → PlTime) : (s.updPl a0 a1).app = s.app := rfl
@[simp] theorem updPl_safety (a0 : Nat) (a1 : PlTime → PlTime) : (s.updPl a0 a1).safety = s.safety := rfl
@[simp] theorem updPl_boot (a0 : Nat) (a1 : PlTime → PlTime) : (s.updPl a0 a1).boot = s.boot := rfl
@[simp] theorem updPl_get (a0 : Nat) (a1 : PlTime → PlTime) (k : Nat) : (s.updPl a0 a1).get k = s.get k := rfl
@[simp] theorem updPl_str (a0 : Nat) (a1 : PlTime → PlTime) (k : Nat) : (s.updPl a0 a1).str k = s.str k := rfl

@[simp] theorem updStore_part (a0 : Store → Store) : (s.updStore a0).part = s.part := rfl
@[simp] theorem updStore_head (a0 : Store → Store) : (s.updStore a0).head = s.head := rfl
@[simp] theorem updStore_objs (a0 : Store → Store) : (s.updStore a0).objs = s.objs := rfl
@[simp] theorem updStore_strs (a0 : Store → Store) : (s.updStore a0).strs = s.strs := rfl
@[simp] theorem updStore_clock (a0 : Store → Store) : (s.updStore a0).clock = s.clock := rfl
@[simp] theorem updStore_station (a0 : Store → Store) : (s.updStore a0).station = s.station := rfl
@[simp] theorem updStore_freeCount (a0 : Store → Store) : (s.updStore a0).freeCount = s.freeCount := rfl
@[simp] theorem updStore_timers (a0 : Store → Store) : (s.updStore a0).timers = s.timers := rfl
@[simp] theorem updStore_sessions (a0 : Store → Store) : (s.updStore a0).sessions = s.sessions := rfl
@[simp] theorem updStore_lockouts (a0 : Store → Store) : (s.updStore a0).lockouts = s.lockouts := rfl
@[simp] theorem updStore_sessionCounter (a0 : Store → Store) : (s.updStore a0).sessionCounter = s.sessionCounter := rfl
@[simp] theorem updStore_cmds (a0 : Store → Store) : (s.updStore a0).cmds = s.cmds := rfl
@[simp] theorem updStore_irq (a0 : Store → Store) : (s.updStore a0).irq = s.irq := rfl
@[simp] theorem updStore_jour (a0 : Store → Store) : (s.updStore a0).jour = s.jour := rfl
@[simp] theorem updStore_rates (a0 : Store → Store) : (s.updStore a0).rates = s.rates := rfl
@[simp] theorem updStore_sent (a0 : Store → Store) : (s.updStore a0).sent = s.sent := rfl
@[simp] theorem updStore_pending (a0 : Store → Store) : (s.updStore a0).pending = s.pending := rfl
@[simp] theorem updStore_canOpen (a0 : Store → Store) : (s.updStore a0).canOpen = s.canOpen := rfl
@[simp] theorem updStore_modeHeld (a0 : Store → Store) : (s.updStore a0).modeHeld = s.modeHeld := rfl
@[simp] theorem updStore_stateHeld (a0 : Store → Store) : (s.updStore a0).stateHeld = s.stateHeld := rfl
@[simp] theorem updStore_trunks (a0 : Store → Store) : (s.updStore a0).trunks = s.trunks := rfl
@[simp] theorem updStore_tunnels (a0 : Store → Store) : (s.updStore a0).tunnels = s.tunnels := rfl
@[simp] theorem updStore_fabric (a0 : Store → Store) : (s.updStore a0).fabric = s.fabric := rfl
@[simp] theorem updStore_scheds (a0 : Store → Store) : (s.updStore a0).scheds = s.scheds := rfl
@[simp] theorem updStore_disps (a0 : Store → Store) : (s.updStore a0).disps = s.disps := rfl
@[simp] theorem updStore_usb (a0 : Store → Store) : (s.updStore a0).usb = s.usb := rfl
@[simp] theorem updStore_svc (a0 : Store → Store) : (s.updStore a0).svc = s.svc := rfl
@[simp] theorem updStore_pd (a0 : Store → Store) : (s.updStore a0).pd = s.pd := rfl
@[simp] theorem updStore_time (a0 : Store → Store) : (s.updStore a0).time = s.time := rfl
@[simp] theorem updStore_eth (a0 : Store → Store) : (s.updStore a0).eth = s.eth := rfl
@[simp] theorem updStore_pl (a0 : Store → Store) : (s.updStore a0).pl = s.pl := rfl
@[simp] theorem updStore_dram (a0 : Store → Store) : (s.updStore a0).dram = s.dram := rfl
@[simp] theorem updStore_fld (a0 : Store → Store) : (s.updStore a0).fld = s.fld := rfl
@[simp] theorem updStore_canNode (a0 : Store → Store) : (s.updStore a0).canNode = s.canNode := rfl
@[simp] theorem updStore_keys (a0 : Store → Store) : (s.updStore a0).keys = s.keys := rfl
@[simp] theorem updStore_secu (a0 : Store → Store) : (s.updStore a0).secu = s.secu := rfl
@[simp] theorem updStore_power (a0 : Store → Store) : (s.updStore a0).power = s.power := rfl
@[simp] theorem updStore_app (a0 : Store → Store) : (s.updStore a0).app = s.app := rfl
@[simp] theorem updStore_safety (a0 : Store → Store) : (s.updStore a0).safety = s.safety := rfl
@[simp] theorem updStore_boot (a0 : Store → Store) : (s.updStore a0).boot = s.boot := rfl
@[simp] theorem updStore_get (a0 : Store → Store) (k : Nat) : (s.updStore a0).get k = s.get k := rfl
@[simp] theorem updStore_str (a0 : Store → Store) (k : Nat) : (s.updStore a0).str k = s.str k := rfl

@[simp] theorem updPcie_part (a0 : Nat) (a1 : Pcie → Pcie) : (s.updPcie a0 a1).part = s.part := rfl
@[simp] theorem updPcie_head (a0 : Nat) (a1 : Pcie → Pcie) : (s.updPcie a0 a1).head = s.head := rfl
@[simp] theorem updPcie_objs (a0 : Nat) (a1 : Pcie → Pcie) : (s.updPcie a0 a1).objs = s.objs := rfl
@[simp] theorem updPcie_strs (a0 : Nat) (a1 : Pcie → Pcie) : (s.updPcie a0 a1).strs = s.strs := rfl
@[simp] theorem updPcie_clock (a0 : Nat) (a1 : Pcie → Pcie) : (s.updPcie a0 a1).clock = s.clock := rfl
@[simp] theorem updPcie_station (a0 : Nat) (a1 : Pcie → Pcie) : (s.updPcie a0 a1).station = s.station := rfl
@[simp] theorem updPcie_freeCount (a0 : Nat) (a1 : Pcie → Pcie) : (s.updPcie a0 a1).freeCount = s.freeCount := rfl
@[simp] theorem updPcie_timers (a0 : Nat) (a1 : Pcie → Pcie) : (s.updPcie a0 a1).timers = s.timers := rfl
@[simp] theorem updPcie_sessions (a0 : Nat) (a1 : Pcie → Pcie) : (s.updPcie a0 a1).sessions = s.sessions := rfl
@[simp] theorem updPcie_lockouts (a0 : Nat) (a1 : Pcie → Pcie) : (s.updPcie a0 a1).lockouts = s.lockouts := rfl
@[simp] theorem updPcie_sessionCounter (a0 : Nat) (a1 : Pcie → Pcie) : (s.updPcie a0 a1).sessionCounter = s.sessionCounter := rfl
@[simp] theorem updPcie_cmds (a0 : Nat) (a1 : Pcie → Pcie) : (s.updPcie a0 a1).cmds = s.cmds := rfl
@[simp] theorem updPcie_irq (a0 : Nat) (a1 : Pcie → Pcie) : (s.updPcie a0 a1).irq = s.irq := rfl
@[simp] theorem updPcie_jour (a0 : Nat) (a1 : Pcie → Pcie) : (s.updPcie a0 a1).jour = s.jour := rfl
@[simp] theorem updPcie_rates (a0 : Nat) (a1 : Pcie → Pcie) : (s.updPcie a0 a1).rates = s.rates := rfl
@[simp] theorem updPcie_sent (a0 : Nat) (a1 : Pcie → Pcie) : (s.updPcie a0 a1).sent = s.sent := rfl
@[simp] theorem updPcie_pending (a0 : Nat) (a1 : Pcie → Pcie) : (s.updPcie a0 a1).pending = s.pending := rfl
@[simp] theorem updPcie_canOpen (a0 : Nat) (a1 : Pcie → Pcie) : (s.updPcie a0 a1).canOpen = s.canOpen := rfl
@[simp] theorem updPcie_modeHeld (a0 : Nat) (a1 : Pcie → Pcie) : (s.updPcie a0 a1).modeHeld = s.modeHeld := rfl
@[simp] theorem updPcie_stateHeld (a0 : Nat) (a1 : Pcie → Pcie) : (s.updPcie a0 a1).stateHeld = s.stateHeld := rfl
@[simp] theorem updPcie_trunks (a0 : Nat) (a1 : Pcie → Pcie) : (s.updPcie a0 a1).trunks = s.trunks := rfl
@[simp] theorem updPcie_tunnels (a0 : Nat) (a1 : Pcie → Pcie) : (s.updPcie a0 a1).tunnels = s.tunnels := rfl
@[simp] theorem updPcie_fabric (a0 : Nat) (a1 : Pcie → Pcie) : (s.updPcie a0 a1).fabric = s.fabric := rfl
@[simp] theorem updPcie_scheds (a0 : Nat) (a1 : Pcie → Pcie) : (s.updPcie a0 a1).scheds = s.scheds := rfl
@[simp] theorem updPcie_disps (a0 : Nat) (a1 : Pcie → Pcie) : (s.updPcie a0 a1).disps = s.disps := rfl
@[simp] theorem updPcie_usb (a0 : Nat) (a1 : Pcie → Pcie) : (s.updPcie a0 a1).usb = s.usb := rfl
@[simp] theorem updPcie_svc (a0 : Nat) (a1 : Pcie → Pcie) : (s.updPcie a0 a1).svc = s.svc := rfl
@[simp] theorem updPcie_pd (a0 : Nat) (a1 : Pcie → Pcie) : (s.updPcie a0 a1).pd = s.pd := rfl
@[simp] theorem updPcie_time (a0 : Nat) (a1 : Pcie → Pcie) : (s.updPcie a0 a1).time = s.time := rfl
@[simp] theorem updPcie_eth (a0 : Nat) (a1 : Pcie → Pcie) : (s.updPcie a0 a1).eth = s.eth := rfl
@[simp] theorem updPcie_pl (a0 : Nat) (a1 : Pcie → Pcie) : (s.updPcie a0 a1).pl = s.pl := rfl
@[simp] theorem updPcie_dram (a0 : Nat) (a1 : Pcie → Pcie) : (s.updPcie a0 a1).dram = s.dram := rfl
@[simp] theorem updPcie_fld (a0 : Nat) (a1 : Pcie → Pcie) : (s.updPcie a0 a1).fld = s.fld := rfl
@[simp] theorem updPcie_canNode (a0 : Nat) (a1 : Pcie → Pcie) : (s.updPcie a0 a1).canNode = s.canNode := rfl
@[simp] theorem updPcie_keys (a0 : Nat) (a1 : Pcie → Pcie) : (s.updPcie a0 a1).keys = s.keys := rfl
@[simp] theorem updPcie_secu (a0 : Nat) (a1 : Pcie → Pcie) : (s.updPcie a0 a1).secu = s.secu := rfl
@[simp] theorem updPcie_power (a0 : Nat) (a1 : Pcie → Pcie) : (s.updPcie a0 a1).power = s.power := rfl
@[simp] theorem updPcie_app (a0 : Nat) (a1 : Pcie → Pcie) : (s.updPcie a0 a1).app = s.app := rfl
@[simp] theorem updPcie_safety (a0 : Nat) (a1 : Pcie → Pcie) : (s.updPcie a0 a1).safety = s.safety := rfl
@[simp] theorem updPcie_boot (a0 : Nat) (a1 : Pcie → Pcie) : (s.updPcie a0 a1).boot = s.boot := rfl
@[simp] theorem updPcie_get (a0 : Nat) (a1 : Pcie → Pcie) (k : Nat) : (s.updPcie a0 a1).get k = s.get k := rfl
@[simp] theorem updPcie_str (a0 : Nat) (a1 : Pcie → Pcie) (k : Nat) : (s.updPcie a0 a1).str k = s.str k := rfl

@[simp] theorem updFld_part (a0 : Field → Field) : (s.updFld a0).part = s.part := rfl
@[simp] theorem updFld_head (a0 : Field → Field) : (s.updFld a0).head = s.head := rfl
@[simp] theorem updFld_objs (a0 : Field → Field) : (s.updFld a0).objs = s.objs := rfl
@[simp] theorem updFld_strs (a0 : Field → Field) : (s.updFld a0).strs = s.strs := rfl
@[simp] theorem updFld_clock (a0 : Field → Field) : (s.updFld a0).clock = s.clock := rfl
@[simp] theorem updFld_station (a0 : Field → Field) : (s.updFld a0).station = s.station := rfl
@[simp] theorem updFld_freeCount (a0 : Field → Field) : (s.updFld a0).freeCount = s.freeCount := rfl
@[simp] theorem updFld_timers (a0 : Field → Field) : (s.updFld a0).timers = s.timers := rfl
@[simp] theorem updFld_sessions (a0 : Field → Field) : (s.updFld a0).sessions = s.sessions := rfl
@[simp] theorem updFld_lockouts (a0 : Field → Field) : (s.updFld a0).lockouts = s.lockouts := rfl
@[simp] theorem updFld_sessionCounter (a0 : Field → Field) : (s.updFld a0).sessionCounter = s.sessionCounter := rfl
@[simp] theorem updFld_cmds (a0 : Field → Field) : (s.updFld a0).cmds = s.cmds := rfl
@[simp] theorem updFld_irq (a0 : Field → Field) : (s.updFld a0).irq = s.irq := rfl
@[simp] theorem updFld_jour (a0 : Field → Field) : (s.updFld a0).jour = s.jour := rfl
@[simp] theorem updFld_rates (a0 : Field → Field) : (s.updFld a0).rates = s.rates := rfl
@[simp] theorem updFld_sent (a0 : Field → Field) : (s.updFld a0).sent = s.sent := rfl
@[simp] theorem updFld_pending (a0 : Field → Field) : (s.updFld a0).pending = s.pending := rfl
@[simp] theorem updFld_canOpen (a0 : Field → Field) : (s.updFld a0).canOpen = s.canOpen := rfl
@[simp] theorem updFld_modeHeld (a0 : Field → Field) : (s.updFld a0).modeHeld = s.modeHeld := rfl
@[simp] theorem updFld_stateHeld (a0 : Field → Field) : (s.updFld a0).stateHeld = s.stateHeld := rfl
@[simp] theorem updFld_trunks (a0 : Field → Field) : (s.updFld a0).trunks = s.trunks := rfl
@[simp] theorem updFld_tunnels (a0 : Field → Field) : (s.updFld a0).tunnels = s.tunnels := rfl
@[simp] theorem updFld_fabric (a0 : Field → Field) : (s.updFld a0).fabric = s.fabric := rfl
@[simp] theorem updFld_scheds (a0 : Field → Field) : (s.updFld a0).scheds = s.scheds := rfl
@[simp] theorem updFld_disps (a0 : Field → Field) : (s.updFld a0).disps = s.disps := rfl
@[simp] theorem updFld_usb (a0 : Field → Field) : (s.updFld a0).usb = s.usb := rfl
@[simp] theorem updFld_svc (a0 : Field → Field) : (s.updFld a0).svc = s.svc := rfl
@[simp] theorem updFld_pd (a0 : Field → Field) : (s.updFld a0).pd = s.pd := rfl
@[simp] theorem updFld_time (a0 : Field → Field) : (s.updFld a0).time = s.time := rfl
@[simp] theorem updFld_eth (a0 : Field → Field) : (s.updFld a0).eth = s.eth := rfl
@[simp] theorem updFld_pl (a0 : Field → Field) : (s.updFld a0).pl = s.pl := rfl
@[simp] theorem updFld_stor (a0 : Field → Field) : (s.updFld a0).stor = s.stor := rfl
@[simp] theorem updFld_dram (a0 : Field → Field) : (s.updFld a0).dram = s.dram := rfl
@[simp] theorem updFld_canNode (a0 : Field → Field) : (s.updFld a0).canNode = s.canNode := rfl
@[simp] theorem updFld_keys (a0 : Field → Field) : (s.updFld a0).keys = s.keys := rfl
@[simp] theorem updFld_secu (a0 : Field → Field) : (s.updFld a0).secu = s.secu := rfl
@[simp] theorem updFld_power (a0 : Field → Field) : (s.updFld a0).power = s.power := rfl
@[simp] theorem updFld_app (a0 : Field → Field) : (s.updFld a0).app = s.app := rfl
@[simp] theorem updFld_safety (a0 : Field → Field) : (s.updFld a0).safety = s.safety := rfl
@[simp] theorem updFld_boot (a0 : Field → Field) : (s.updFld a0).boot = s.boot := rfl
@[simp] theorem updFld_get (a0 : Field → Field) (k : Nat) : (s.updFld a0).get k = s.get k := rfl
@[simp] theorem updFld_str (a0 : Field → Field) (k : Nat) : (s.updFld a0).str k = s.str k := rfl

@[simp] theorem updSafety_part (a0 : SafetyState → SafetyState) : (s.updSafety a0).part = s.part := rfl
@[simp] theorem updSafety_head (a0 : SafetyState → SafetyState) : (s.updSafety a0).head = s.head := rfl
@[simp] theorem updSafety_objs (a0 : SafetyState → SafetyState) : (s.updSafety a0).objs = s.objs := rfl
@[simp] theorem updSafety_strs (a0 : SafetyState → SafetyState) : (s.updSafety a0).strs = s.strs := rfl
@[simp] theorem updSafety_clock (a0 : SafetyState → SafetyState) : (s.updSafety a0).clock = s.clock := rfl
@[simp] theorem updSafety_station (a0 : SafetyState → SafetyState) : (s.updSafety a0).station = s.station := rfl
@[simp] theorem updSafety_freeCount (a0 : SafetyState → SafetyState) : (s.updSafety a0).freeCount = s.freeCount := rfl
@[simp] theorem updSafety_timers (a0 : SafetyState → SafetyState) : (s.updSafety a0).timers = s.timers := rfl
@[simp] theorem updSafety_sessions (a0 : SafetyState → SafetyState) : (s.updSafety a0).sessions = s.sessions := rfl
@[simp] theorem updSafety_lockouts (a0 : SafetyState → SafetyState) : (s.updSafety a0).lockouts = s.lockouts := rfl
@[simp] theorem updSafety_sessionCounter (a0 : SafetyState → SafetyState) : (s.updSafety a0).sessionCounter = s.sessionCounter := rfl
@[simp] theorem updSafety_cmds (a0 : SafetyState → SafetyState) : (s.updSafety a0).cmds = s.cmds := rfl
@[simp] theorem updSafety_irq (a0 : SafetyState → SafetyState) : (s.updSafety a0).irq = s.irq := rfl
@[simp] theorem updSafety_jour (a0 : SafetyState → SafetyState) : (s.updSafety a0).jour = s.jour := rfl
@[simp] theorem updSafety_rates (a0 : SafetyState → SafetyState) : (s.updSafety a0).rates = s.rates := rfl
@[simp] theorem updSafety_sent (a0 : SafetyState → SafetyState) : (s.updSafety a0).sent = s.sent := rfl
@[simp] theorem updSafety_pending (a0 : SafetyState → SafetyState) : (s.updSafety a0).pending = s.pending := rfl
@[simp] theorem updSafety_canOpen (a0 : SafetyState → SafetyState) : (s.updSafety a0).canOpen = s.canOpen := rfl
@[simp] theorem updSafety_modeHeld (a0 : SafetyState → SafetyState) : (s.updSafety a0).modeHeld = s.modeHeld := rfl
@[simp] theorem updSafety_stateHeld (a0 : SafetyState → SafetyState) : (s.updSafety a0).stateHeld = s.stateHeld := rfl
@[simp] theorem updSafety_trunks (a0 : SafetyState → SafetyState) : (s.updSafety a0).trunks = s.trunks := rfl
@[simp] theorem updSafety_tunnels (a0 : SafetyState → SafetyState) : (s.updSafety a0).tunnels = s.tunnels := rfl
@[simp] theorem updSafety_fabric (a0 : SafetyState → SafetyState) : (s.updSafety a0).fabric = s.fabric := rfl
@[simp] theorem updSafety_scheds (a0 : SafetyState → SafetyState) : (s.updSafety a0).scheds = s.scheds := rfl
@[simp] theorem updSafety_disps (a0 : SafetyState → SafetyState) : (s.updSafety a0).disps = s.disps := rfl
@[simp] theorem updSafety_usb (a0 : SafetyState → SafetyState) : (s.updSafety a0).usb = s.usb := rfl
@[simp] theorem updSafety_svc (a0 : SafetyState → SafetyState) : (s.updSafety a0).svc = s.svc := rfl
@[simp] theorem updSafety_pd (a0 : SafetyState → SafetyState) : (s.updSafety a0).pd = s.pd := rfl
@[simp] theorem updSafety_time (a0 : SafetyState → SafetyState) : (s.updSafety a0).time = s.time := rfl
@[simp] theorem updSafety_eth (a0 : SafetyState → SafetyState) : (s.updSafety a0).eth = s.eth := rfl
@[simp] theorem updSafety_pl (a0 : SafetyState → SafetyState) : (s.updSafety a0).pl = s.pl := rfl
@[simp] theorem updSafety_stor (a0 : SafetyState → SafetyState) : (s.updSafety a0).stor = s.stor := rfl
@[simp] theorem updSafety_dram (a0 : SafetyState → SafetyState) : (s.updSafety a0).dram = s.dram := rfl
@[simp] theorem updSafety_fld (a0 : SafetyState → SafetyState) : (s.updSafety a0).fld = s.fld := rfl
@[simp] theorem updSafety_canNode (a0 : SafetyState → SafetyState) : (s.updSafety a0).canNode = s.canNode := rfl
@[simp] theorem updSafety_keys (a0 : SafetyState → SafetyState) : (s.updSafety a0).keys = s.keys := rfl
@[simp] theorem updSafety_secu (a0 : SafetyState → SafetyState) : (s.updSafety a0).secu = s.secu := rfl
@[simp] theorem updSafety_power (a0 : SafetyState → SafetyState) : (s.updSafety a0).power = s.power := rfl
@[simp] theorem updSafety_app (a0 : SafetyState → SafetyState) : (s.updSafety a0).app = s.app := rfl
@[simp] theorem updSafety_boot (a0 : SafetyState → SafetyState) : (s.updSafety a0).boot = s.boot := rfl
@[simp] theorem updSafety_get (a0 : SafetyState → SafetyState) (k : Nat) : (s.updSafety a0).get k = s.get k := rfl
@[simp] theorem updSafety_str (a0 : SafetyState → SafetyState) (k : Nat) : (s.updSafety a0).str k = s.str k := rfl

@[simp] theorem updApp_part (a0 : App → App) : (s.updApp a0).part = s.part := rfl
@[simp] theorem updApp_head (a0 : App → App) : (s.updApp a0).head = s.head := rfl
@[simp] theorem updApp_objs (a0 : App → App) : (s.updApp a0).objs = s.objs := rfl
@[simp] theorem updApp_strs (a0 : App → App) : (s.updApp a0).strs = s.strs := rfl
@[simp] theorem updApp_clock (a0 : App → App) : (s.updApp a0).clock = s.clock := rfl
@[simp] theorem updApp_station (a0 : App → App) : (s.updApp a0).station = s.station := rfl
@[simp] theorem updApp_freeCount (a0 : App → App) : (s.updApp a0).freeCount = s.freeCount := rfl
@[simp] theorem updApp_timers (a0 : App → App) : (s.updApp a0).timers = s.timers := rfl
@[simp] theorem updApp_sessions (a0 : App → App) : (s.updApp a0).sessions = s.sessions := rfl
@[simp] theorem updApp_lockouts (a0 : App → App) : (s.updApp a0).lockouts = s.lockouts := rfl
@[simp] theorem updApp_sessionCounter (a0 : App → App) : (s.updApp a0).sessionCounter = s.sessionCounter := rfl
@[simp] theorem updApp_cmds (a0 : App → App) : (s.updApp a0).cmds = s.cmds := rfl
@[simp] theorem updApp_irq (a0 : App → App) : (s.updApp a0).irq = s.irq := rfl
@[simp] theorem updApp_jour (a0 : App → App) : (s.updApp a0).jour = s.jour := rfl
@[simp] theorem updApp_rates (a0 : App → App) : (s.updApp a0).rates = s.rates := rfl
@[simp] theorem updApp_sent (a0 : App → App) : (s.updApp a0).sent = s.sent := rfl
@[simp] theorem updApp_pending (a0 : App → App) : (s.updApp a0).pending = s.pending := rfl
@[simp] theorem updApp_canOpen (a0 : App → App) : (s.updApp a0).canOpen = s.canOpen := rfl
@[simp] theorem updApp_modeHeld (a0 : App → App) : (s.updApp a0).modeHeld = s.modeHeld := rfl
@[simp] theorem updApp_stateHeld (a0 : App → App) : (s.updApp a0).stateHeld = s.stateHeld := rfl
@[simp] theorem updApp_trunks (a0 : App → App) : (s.updApp a0).trunks = s.trunks := rfl
@[simp] theorem updApp_tunnels (a0 : App → App) : (s.updApp a0).tunnels = s.tunnels := rfl
@[simp] theorem updApp_fabric (a0 : App → App) : (s.updApp a0).fabric = s.fabric := rfl
@[simp] theorem updApp_scheds (a0 : App → App) : (s.updApp a0).scheds = s.scheds := rfl
@[simp] theorem updApp_disps (a0 : App → App) : (s.updApp a0).disps = s.disps := rfl
@[simp] theorem updApp_usb (a0 : App → App) : (s.updApp a0).usb = s.usb := rfl
@[simp] theorem updApp_svc (a0 : App → App) : (s.updApp a0).svc = s.svc := rfl
@[simp] theorem updApp_pd (a0 : App → App) : (s.updApp a0).pd = s.pd := rfl
@[simp] theorem updApp_time (a0 : App → App) : (s.updApp a0).time = s.time := rfl
@[simp] theorem updApp_eth (a0 : App → App) : (s.updApp a0).eth = s.eth := rfl
@[simp] theorem updApp_pl (a0 : App → App) : (s.updApp a0).pl = s.pl := rfl
@[simp] theorem updApp_stor (a0 : App → App) : (s.updApp a0).stor = s.stor := rfl
@[simp] theorem updApp_dram (a0 : App → App) : (s.updApp a0).dram = s.dram := rfl
@[simp] theorem updApp_fld (a0 : App → App) : (s.updApp a0).fld = s.fld := rfl
@[simp] theorem updApp_canNode (a0 : App → App) : (s.updApp a0).canNode = s.canNode := rfl
@[simp] theorem updApp_keys (a0 : App → App) : (s.updApp a0).keys = s.keys := rfl
@[simp] theorem updApp_secu (a0 : App → App) : (s.updApp a0).secu = s.secu := rfl
@[simp] theorem updApp_power (a0 : App → App) : (s.updApp a0).power = s.power := rfl
@[simp] theorem updApp_safety (a0 : App → App) : (s.updApp a0).safety = s.safety := rfl
@[simp] theorem updApp_boot (a0 : App → App) : (s.updApp a0).boot = s.boot := rfl
@[simp] theorem updApp_get (a0 : App → App) (k : Nat) : (s.updApp a0).get k = s.get k := rfl
@[simp] theorem updApp_str (a0 : App → App) (k : Nat) : (s.updApp a0).str k = s.str k := rfl

@[simp] theorem updBoot_part (a0 : Boot → Boot) : (s.updBoot a0).part = s.part := rfl
@[simp] theorem updBoot_head (a0 : Boot → Boot) : (s.updBoot a0).head = s.head := rfl
@[simp] theorem updBoot_objs (a0 : Boot → Boot) : (s.updBoot a0).objs = s.objs := rfl
@[simp] theorem updBoot_strs (a0 : Boot → Boot) : (s.updBoot a0).strs = s.strs := rfl
@[simp] theorem updBoot_clock (a0 : Boot → Boot) : (s.updBoot a0).clock = s.clock := rfl
@[simp] theorem updBoot_station (a0 : Boot → Boot) : (s.updBoot a0).station = s.station := rfl
@[simp] theorem updBoot_freeCount (a0 : Boot → Boot) : (s.updBoot a0).freeCount = s.freeCount := rfl
@[simp] theorem updBoot_timers (a0 : Boot → Boot) : (s.updBoot a0).timers = s.timers := rfl
@[simp] theorem updBoot_sessions (a0 : Boot → Boot) : (s.updBoot a0).sessions = s.sessions := rfl
@[simp] theorem updBoot_lockouts (a0 : Boot → Boot) : (s.updBoot a0).lockouts = s.lockouts := rfl
@[simp] theorem updBoot_sessionCounter (a0 : Boot → Boot) : (s.updBoot a0).sessionCounter = s.sessionCounter := rfl
@[simp] theorem updBoot_cmds (a0 : Boot → Boot) : (s.updBoot a0).cmds = s.cmds := rfl
@[simp] theorem updBoot_irq (a0 : Boot → Boot) : (s.updBoot a0).irq = s.irq := rfl
@[simp] theorem updBoot_jour (a0 : Boot → Boot) : (s.updBoot a0).jour = s.jour := rfl
@[simp] theorem updBoot_rates (a0 : Boot → Boot) : (s.updBoot a0).rates = s.rates := rfl
@[simp] theorem updBoot_sent (a0 : Boot → Boot) : (s.updBoot a0).sent = s.sent := rfl
@[simp] theorem updBoot_pending (a0 : Boot → Boot) : (s.updBoot a0).pending = s.pending := rfl
@[simp] theorem updBoot_canOpen (a0 : Boot → Boot) : (s.updBoot a0).canOpen = s.canOpen := rfl
@[simp] theorem updBoot_modeHeld (a0 : Boot → Boot) : (s.updBoot a0).modeHeld = s.modeHeld := rfl
@[simp] theorem updBoot_stateHeld (a0 : Boot → Boot) : (s.updBoot a0).stateHeld = s.stateHeld := rfl
@[simp] theorem updBoot_trunks (a0 : Boot → Boot) : (s.updBoot a0).trunks = s.trunks := rfl
@[simp] theorem updBoot_tunnels (a0 : Boot → Boot) : (s.updBoot a0).tunnels = s.tunnels := rfl
@[simp] theorem updBoot_fabric (a0 : Boot → Boot) : (s.updBoot a0).fabric = s.fabric := rfl
@[simp] theorem updBoot_scheds (a0 : Boot → Boot) : (s.updBoot a0).scheds = s.scheds := rfl
@[simp] theorem updBoot_disps (a0 : Boot → Boot) : (s.updBoot a0).disps = s.disps := rfl
@[simp] theorem updBoot_usb (a0 : Boot → Boot) : (s.updBoot a0).usb = s.usb := rfl
@[simp] theorem updBoot_svc (a0 : Boot → Boot) : (s.updBoot a0).svc = s.svc := rfl
@[simp] theorem updBoot_pd (a0 : Boot → Boot) : (s.updBoot a0).pd = s.pd := rfl
@[simp] theorem updBoot_time (a0 : Boot → Boot) : (s.updBoot a0).time = s.time := rfl
@[simp] theorem updBoot_eth (a0 : Boot → Boot) : (s.updBoot a0).eth = s.eth := rfl
@[simp] theorem updBoot_pl (a0 : Boot → Boot) : (s.updBoot a0).pl = s.pl := rfl
@[simp] theorem updBoot_stor (a0 : Boot → Boot) : (s.updBoot a0).stor = s.stor := rfl
@[simp] theorem updBoot_dram (a0 : Boot → Boot) : (s.updBoot a0).dram = s.dram := rfl
@[simp] theorem updBoot_fld (a0 : Boot → Boot) : (s.updBoot a0).fld = s.fld := rfl
@[simp] theorem updBoot_canNode (a0 : Boot → Boot) : (s.updBoot a0).canNode = s.canNode := rfl
@[simp] theorem updBoot_keys (a0 : Boot → Boot) : (s.updBoot a0).keys = s.keys := rfl
@[simp] theorem updBoot_secu (a0 : Boot → Boot) : (s.updBoot a0).secu = s.secu := rfl
@[simp] theorem updBoot_power (a0 : Boot → Boot) : (s.updBoot a0).power = s.power := rfl
@[simp] theorem updBoot_app (a0 : Boot → Boot) : (s.updBoot a0).app = s.app := rfl
@[simp] theorem updBoot_safety (a0 : Boot → Boot) : (s.updBoot a0).safety = s.safety := rfl
@[simp] theorem updBoot_get (a0 : Boot → Boot) (k : Nat) : (s.updBoot a0).get k = s.get k := rfl
@[simp] theorem updBoot_str (a0 : Boot → Boot) (k : Nat) : (s.updBoot a0).str k = s.str k := rfl

@[simp] theorem setKey_part (a0 : Nat) (a1 : Nat) : (s.setKey a0 a1).part = s.part := rfl
@[simp] theorem setKey_head (a0 : Nat) (a1 : Nat) : (s.setKey a0 a1).head = s.head := rfl
@[simp] theorem setKey_objs (a0 : Nat) (a1 : Nat) : (s.setKey a0 a1).objs = s.objs := rfl
@[simp] theorem setKey_strs (a0 : Nat) (a1 : Nat) : (s.setKey a0 a1).strs = s.strs := rfl
@[simp] theorem setKey_clock (a0 : Nat) (a1 : Nat) : (s.setKey a0 a1).clock = s.clock := rfl
@[simp] theorem setKey_station (a0 : Nat) (a1 : Nat) : (s.setKey a0 a1).station = s.station := rfl
@[simp] theorem setKey_freeCount (a0 : Nat) (a1 : Nat) : (s.setKey a0 a1).freeCount = s.freeCount := rfl
@[simp] theorem setKey_timers (a0 : Nat) (a1 : Nat) : (s.setKey a0 a1).timers = s.timers := rfl
@[simp] theorem setKey_sessions (a0 : Nat) (a1 : Nat) : (s.setKey a0 a1).sessions = s.sessions := rfl
@[simp] theorem setKey_lockouts (a0 : Nat) (a1 : Nat) : (s.setKey a0 a1).lockouts = s.lockouts := rfl
@[simp] theorem setKey_sessionCounter (a0 : Nat) (a1 : Nat) : (s.setKey a0 a1).sessionCounter = s.sessionCounter := rfl
@[simp] theorem setKey_cmds (a0 : Nat) (a1 : Nat) : (s.setKey a0 a1).cmds = s.cmds := rfl
@[simp] theorem setKey_irq (a0 : Nat) (a1 : Nat) : (s.setKey a0 a1).irq = s.irq := rfl
@[simp] theorem setKey_jour (a0 : Nat) (a1 : Nat) : (s.setKey a0 a1).jour = s.jour := rfl
@[simp] theorem setKey_rates (a0 : Nat) (a1 : Nat) : (s.setKey a0 a1).rates = s.rates := rfl
@[simp] theorem setKey_sent (a0 : Nat) (a1 : Nat) : (s.setKey a0 a1).sent = s.sent := rfl
@[simp] theorem setKey_pending (a0 : Nat) (a1 : Nat) : (s.setKey a0 a1).pending = s.pending := rfl
@[simp] theorem setKey_canOpen (a0 : Nat) (a1 : Nat) : (s.setKey a0 a1).canOpen = s.canOpen := rfl
@[simp] theorem setKey_modeHeld (a0 : Nat) (a1 : Nat) : (s.setKey a0 a1).modeHeld = s.modeHeld := rfl
@[simp] theorem setKey_stateHeld (a0 : Nat) (a1 : Nat) : (s.setKey a0 a1).stateHeld = s.stateHeld := rfl
@[simp] theorem setKey_trunks (a0 : Nat) (a1 : Nat) : (s.setKey a0 a1).trunks = s.trunks := rfl
@[simp] theorem setKey_tunnels (a0 : Nat) (a1 : Nat) : (s.setKey a0 a1).tunnels = s.tunnels := rfl
@[simp] theorem setKey_fabric (a0 : Nat) (a1 : Nat) : (s.setKey a0 a1).fabric = s.fabric := rfl
@[simp] theorem setKey_scheds (a0 : Nat) (a1 : Nat) : (s.setKey a0 a1).scheds = s.scheds := rfl
@[simp] theorem setKey_disps (a0 : Nat) (a1 : Nat) : (s.setKey a0 a1).disps = s.disps := rfl
@[simp] theorem setKey_usb (a0 : Nat) (a1 : Nat) : (s.setKey a0 a1).usb = s.usb := rfl
@[simp] theorem setKey_svc (a0 : Nat) (a1 : Nat) : (s.setKey a0 a1).svc = s.svc := rfl
@[simp] theorem setKey_pd (a0 : Nat) (a1 : Nat) : (s.setKey a0 a1).pd = s.pd := rfl
@[simp] theorem setKey_time (a0 : Nat) (a1 : Nat) : (s.setKey a0 a1).time = s.time := rfl
@[simp] theorem setKey_eth (a0 : Nat) (a1 : Nat) : (s.setKey a0 a1).eth = s.eth := rfl
@[simp] theorem setKey_pl (a0 : Nat) (a1 : Nat) : (s.setKey a0 a1).pl = s.pl := rfl
@[simp] theorem setKey_stor (a0 : Nat) (a1 : Nat) : (s.setKey a0 a1).stor = s.stor := rfl
@[simp] theorem setKey_dram (a0 : Nat) (a1 : Nat) : (s.setKey a0 a1).dram = s.dram := rfl
@[simp] theorem setKey_fld (a0 : Nat) (a1 : Nat) : (s.setKey a0 a1).fld = s.fld := rfl
@[simp] theorem setKey_canNode (a0 : Nat) (a1 : Nat) : (s.setKey a0 a1).canNode = s.canNode := rfl
@[simp] theorem setKey_secu (a0 : Nat) (a1 : Nat) : (s.setKey a0 a1).secu = s.secu := rfl
@[simp] theorem setKey_power (a0 : Nat) (a1 : Nat) : (s.setKey a0 a1).power = s.power := rfl
@[simp] theorem setKey_app (a0 : Nat) (a1 : Nat) : (s.setKey a0 a1).app = s.app := rfl
@[simp] theorem setKey_safety (a0 : Nat) (a1 : Nat) : (s.setKey a0 a1).safety = s.safety := rfl
@[simp] theorem setKey_boot (a0 : Nat) (a1 : Nat) : (s.setKey a0 a1).boot = s.boot := rfl
@[simp] theorem setKey_get (a0 : Nat) (a1 : Nat) (k : Nat) : (s.setKey a0 a1).get k = s.get k := rfl
@[simp] theorem setKey_str (a0 : Nat) (a1 : Nat) (k : Nat) : (s.setKey a0 a1).str k = s.str k := rfl

/-- An object set and read (R27). -/
@[simp] theorem get_set_same (k v : Nat) : (s.set k v).get k = v := get_put_same _ _ _ _

theorem get_set_ne {k j : Nat} (v : Nat) (h : j ≠ k) : (s.set k v).get j = s.get j := get_put_ne _ _ h _ _

theorem get_set (k v j : Nat) : (s.set k v).get j = if j = k then v else s.get j := by
  split
  · subst j; simp
  · exact get_set_ne s v (by assumption)

theorem get_setAll_ne (l : List (Nat × Nat)) {j : Nat} (h : ∀ e ∈ l, j ≠ e.1) : (s.setAll l).get j = s.get j := by
  induction l generalizing s with
  | nil => rfl
  | cons e r ih =>
    show ((s.set e.1 e.2).setAll r).get j = _
    rw [ih _ fun x hx => h x (List.mem_cons_of_mem _ hx), get_set_ne _ _ (h e List.mem_cons_self)]

theorem get_clear (l : List Nat) (j : Nat) : (s.clear l).get j = if j ∈ l then 0 else s.get j := by
  induction l generalizing s with
  | nil => simp [State.clear]
  | cons k r ih =>
    show ((s.set k 0).clear r).get j = _
    rw [ih, get_set]
    by_cases h : j ∈ r <;> by_cases hk : j = k <;> simp [h, hk]

/-- What an effect that sets no object leaves of the objects. -/
theorem Keeps.get {S : Piece → Bool} {z t : State} (h : Keeps S z t) (ho : S .objs = false) (hh : S .head = false) (k : Nat) :
    t.get k = z.get k := by
  have a : t.objs = z.objs := h.same _ ho
  have b : t.head = z.head := h.same _ hh
  simp [State.get, a, b, h.part]

/-- The keeping of every piece but those listed. -/
theorem Keeps.list {F : List Piece} {z t : State} (h : Keeps (fun f => F.contains f) z t) (f : Piece) (hf : F.contains f = false) :
    f.same z t := h.same f hf

@[simp] theorem keepNode_get (a0 : Node) (k : Nat) : (s.keepNode a0).get k = s.get k :=
  Keeps.get (keeps_State_keepNode _ _ (Keeps.refl (fun f => [.eth].contains f) s) (fun _ h => h)) rfl rfl k
@[simp] theorem lockEv_get (a0 : Nat) (a1 : Nat) (a2 : Nat) (a3 : Nat) (k : Nat) : (s.lockEv a0 a1 a2 a3).get k = s.get k :=
  Keeps.get (keeps_State_lockEv _ _ _ _ _ (Keeps.refl (fun f => [.irq, .jour].contains f) s) (fun _ h => h)) rfl rfl k
@[simp] theorem outEv_get (a0 : Nat) (a1 : Nat) (a2 : Nat) (a3 : Nat) (a4 : Bytes) (k : Nat) : (s.outEv a0 a1 a2 a3 a4).get k = s.get k :=
  Keeps.get (keeps_State_outEv _ _ _ _ _ _ (Keeps.refl (fun f => [.irq, .jour].contains f) s) (fun _ h => h)) rfl rfl k
@[simp] theorem terminate_get  (k : Nat) : (s.terminate ).get k = s.get k :=
  Keeps.get (keeps_State_terminate _  (Keeps.refl (fun f => [.timers, .sent, .pd].contains f) s) (fun _ h => h)) rfl rfl k
@[simp] theorem setSvcBuf_get (a0 : Nat) (a1 : Bool) (a2 : Nat) (a3 : SvcBuf) (k : Nat) : (s.setSvcBuf a0 a1 a2 a3).get k = s.get k :=
  Keeps.get (keeps_State_setSvcBuf _ _ _ _ _ (Keeps.refl (fun f => [.svc].contains f) s) (fun _ h => h)) rfl rfl k
@[simp] theorem pdoChanged_get  (k : Nat) : (s.pdoChanged ).get k = s.get k :=
  Keeps.get (keeps_State_pdoChanged _  (Keeps.refl (fun f => [.timers, .irq, .jour, .sent, .pd].contains f) s) (fun _ h => h)) rfl rfl k
@[simp] theorem releaseIdle_get (a0 : Nat) (k : Nat) : (s.releaseIdle a0).get k = s.get k :=
  Keeps.get (keeps_State_releaseIdle _ _ (Keeps.refl (fun f => [.sent, .trunks, .pl].contains f) s) (fun _ h => h)) rfl rfl k
@[simp] theorem passBegin_get (a0 : Nat) (k : Nat) : (s.passBegin a0).get k = s.get k :=
  Keeps.get (keeps_State_passBegin _ _ (Keeps.refl (fun f => [.timers, .safety].contains f) s) (fun _ h => h)) rfl rfl k
@[simp] theorem gather_get (a0 : Nat) (a1 : List Int) (k : Nat) : (s.gather a0 a1).get k = s.get k :=
  Keeps.get (keeps_State_gather _ _ _ (Keeps.refl (fun f => [.safety].contains f) s) (fun _ h => h)) rfl rfl k
@[simp] theorem uartErrors_get (a0 : Nat) (a1 : Nat) (a2 : Nat) (a3 : Nat) (a4 : Nat) (k : Nat) : (s.uartErrors a0 a1 a2 a3 a4).get k = s.get k :=
  Keeps.get (keeps_State_uartErrors _ _ _ _ _ _ (Keeps.refl (fun f => [.irq, .jour, .rates].contains f) s) (fun _ h => h)) rfl rfl k
@[simp] theorem pdSend_get (a0 : PdMsg) (k : Nat) : (s.pdSend a0).get k = s.get k :=
  Keeps.get (keeps_State_pdSend _ _ (Keeps.refl (fun f => [.timers, .sent, .pd].contains f) s) (fun _ h => h)) rfl rfl k
@[simp] theorem setUnit_get (a0 : Nat) (a1 : Nat) (a2 : Nat) (k : Nat) : (s.setUnit a0 a1 a2).get k = s.get k :=
  Keeps.get (keeps_State_setUnit _ _ _ _ (Keeps.refl (fun f => [.fabric].contains f) s) (fun _ h => h)) rfl rfl k
@[simp] theorem svcStore_get (a0 : Nat) (a1 : Bytes) (k : Nat) : (s.svcStore a0 a1).get k = s.get k :=
  Keeps.get (keeps_State_svcStore _ _ _ (Keeps.refl (fun f => [.irq, .svc].contains f) s) (fun _ h => h)) rfl rfl k
@[simp] theorem keyCreated_get (a0 : Nat) (a1 : Nat) (k : Nat) : (s.keyCreated a0 a1).get k = s.get k :=
  Keeps.get (keeps_State_keyCreated _ _ _ (Keeps.refl (fun f => [.irq, .jour].contains f) s) (fun _ h => h)) rfl rfl k
@[simp] theorem issue_get (a0 : Nat) (a1 : QdCmd) (k : Nat) : (s.issue a0 a1).get k = s.get k :=
  Keeps.get (keeps_State_issue _ _ _ (Keeps.refl (fun f => [.sent, .stor].contains f) s) (fun _ h => h)) rfl rfl k
@[simp] theorem updTpdo_get (a0 : Nat) (a1 : Tpdo → Tpdo) (k : Nat) : (s.updTpdo a0 a1).get k = s.get k :=
  Keeps.get (keeps_State_updTpdo _ _ _ (Keeps.refl (fun f => [.canOpen].contains f) s) (fun _ h => h)) rfl rfl k
@[simp] theorem grant_get (a0 : Path) (a1 : Nat) (k : Nat) : (s.grant a0 a1).get k = s.get k :=
  Keeps.get (keeps_State_grant _ _ _ (Keeps.refl (fun f => [.sessions, .lockouts, .sessionCounter, .irq, .jour].contains f) s) (fun _ h => h)) rfl rfl k
@[simp] theorem toWire_get (a0 : Nat) (a1 : UsbReq) (k : Nat) : (s.toWire a0 a1).get k = s.get k :=
  Keeps.get (keeps_State_toWire _ _ _ (Keeps.refl (fun f => [.sent, .usb].contains f) s) (fun _ h => h)) rfl rfl k
@[simp] theorem refuseSession_get (a0 : Path) (k : Nat) : (s.refuseSession a0).get k = s.get k :=
  Keeps.get (keeps_State_refuseSession _ _ (Keeps.refl (fun f => [.sessions, .lockouts, .irq, .jour].contains f) s) (fun _ h => h)) rfl rfl k
@[simp] theorem flushRecords_get (a0 : Nat) (k : Nat) : (s.flushRecords a0).get k = s.get k :=
  Keeps.get (keeps_State_flushRecords _ _ (Keeps.refl (fun f => [.irq, .jour, .rates, .fabric, .fld].contains f) s) (fun _ h => h)) rfl rfl k
@[simp] theorem hubDefault_get  (k : Nat) : (s.hubDefault ).get k = s.get k :=
  Keeps.get (keeps_State_hubDefault _  (Keeps.refl (fun f => [.usb].contains f) s) (fun _ h => h)) rfl rfl k
@[simp] theorem refusedEv_get (a0 : Path) (a1 : Nat) (a2 : Nat) (k : Nat) : (s.refusedEv a0 a1 a2).get k = s.get k :=
  Keeps.get (keeps_State_refusedEv _ _ _ _ (Keeps.refl (fun f => [.irq, .jour].contains f) s) (fun _ h => h)) rfl rfl k
@[simp] theorem request_get (a0 : Nat) (a1 : Bool) (k : Nat) : (s.request a0 a1).get k = s.get k :=
  Keeps.get (keeps_State_request _ _ _ (Keeps.refl (fun f => [.power].contains f) s) (fun _ h => h)) rfl rfl k
@[simp] theorem updRegion_get (a0 : Nat) (a1 : Nat) (a2 : Region → Region) (k : Nat) : (s.updRegion a0 a1 a2).get k = s.get k :=
  Keeps.get (keeps_State_updRegion _ _ _ _ (Keeps.refl (fun f => [.disps].contains f) s) (fun _ h => h)) rfl rfl k
@[simp] theorem recordLost_get (a0 : Nat) (a1 : Nat) (k : Nat) : (s.recordLost a0 a1).get k = s.get k :=
  Keeps.get (keeps_State_recordLost _ _ _ (Keeps.refl (fun f => [.irq, .jour, .rates].contains f) s) (fun _ h => h)) rfl rfl k
@[simp] theorem nextHead_get (a0 : Nat) (a1 : Nat) (a2 : Nat) (a3 : Nat) (k : Nat) : (s.nextHead a0 a1 a2 a3).get k = s.get k :=
  Keeps.get (keeps_State_nextHead _ _ _ _ _ (Keeps.refl (fun f => [.scheds].contains f) s) (fun _ h => h)) rfl rfl k
@[simp] theorem slewTime_get (a0 : Int) (k : Nat) : (s.slewTime a0).get k = s.get k :=
  Keeps.get (keeps_State_slewTime _ _ (Keeps.refl (fun f => [.time].contains f) s) (fun _ h => h)) rfl rfl k
@[simp] theorem eraseRegion_get (a0 : Nat) (k : Nat) : (s.eraseRegion a0).get k = s.get k :=
  Keeps.get (keeps_State_eraseRegion _ _ (Keeps.refl (fun f => [.boot].contains f) s) (fun _ h => h)) rfl rfl k
@[simp] theorem endTrunkSessions_get (a0 : Nat) (k : Nat) : (s.endTrunkSessions a0).get k = s.get k :=
  Keeps.get (keeps_State_endTrunkSessions _ _ (Keeps.refl (fun f => [.sessions, .irq, .jour].contains f) s) (fun _ h => h)) rfl rfl k
@[simp] theorem svcReply_get (a0 : Bytes) (k : Nat) : (s.svcReply a0).get k = s.get k :=
  Keeps.get (keeps_State_svcReply _ _ (Keeps.refl (fun f => [.svc].contains f) s) (fun _ h => h)) rfl rfl k
@[simp] theorem dropEnables_get (a0 : Nat) (k : Nat) : (s.dropEnables a0).get k = s.get k :=
  Keeps.get (keeps_State_dropEnables _ _ (Keeps.refl (fun f => [.sent].contains f) s) (fun _ h => h)) rfl rfl k
@[simp] theorem average_get (a0 : Nat) (a1 : Nat) (k : Nat) : (s.average a0 a1).get k = s.get k :=
  Keeps.get (keeps_State_average _ _ _ (Keeps.refl (fun f => [.fabric].contains f) s) (fun _ h => h)) rfl rfl k
@[simp] theorem giveCredits_get (a0 : Nat) (a1 : Nat) (a2 : Nat) (k : Nat) : (s.giveCredits a0 a1 a2).get k = s.get k :=
  Keeps.get (keeps_State_giveCredits _ _ _ _ (Keeps.refl (fun f => [.trunks].contains f) s) (fun _ h => h)) rfl rfl k
@[simp] theorem dramPut_get (a0 : Nat) (a1 : BitVec 8) (k : Nat) : (s.dramPut a0 a1).get k = s.get k :=
  Keeps.get (keeps_State_dramPut _ _ _ (Keeps.refl (fun f => [.dram].contains f) s) (fun _ h => h)) rfl rfl k
@[simp] theorem updGsub_get (a0 : Nat) (a1 : GooseSub → GooseSub) (k : Nat) : (s.updGsub a0 a1).get k = s.get k :=
  Keeps.get (keeps_State_updGsub _ _ _ (Keeps.refl (fun f => [.fld].contains f) s) (fun _ h => h)) rfl rfl k
@[simp] theorem askSwap_get (a0 : Nat) (k : Nat) : (s.askSwap a0).get k = s.get k :=
  Keeps.get (keeps_State_askSwap _ _ (Keeps.refl (fun f => [.timers, .sent, .pd].contains f) s) (fun _ h => h)) rfl rfl k
@[simp] theorem overbooked_get (a0 : Nat) (a1 : Nat) (k : Nat) : (s.overbooked a0 a1).get k = s.get k :=
  Keeps.get (keeps_State_overbooked _ _ _ (Keeps.refl (fun f => [.irq, .jour, .rates].contains f) s) (fun _ h => h)) rfl rfl k
@[simp] theorem markerGot_get (a0 : Nat) (a1 : Nat) (a2 : Nat) (k : Nat) : (s.markerGot a0 a1 a2).get k = s.get k :=
  Keeps.get (keeps_State_markerGot _ _ _ _ (Keeps.refl (fun f => [.timers, .trunks, .pl].contains f) s) (fun _ h => h)) rfl rfl k
@[simp] theorem hold_get (a0 : Nat) (a1 : Cell) (k : Nat) : (s.hold a0 a1).get k = s.get k :=
  Keeps.get (keeps_State_hold _ _ _ (Keeps.refl (fun f => [.trunks].contains f) s) (fun _ h => h)) rfl rfl k
@[simp] theorem setNmt_get (a0 : Nat) (k : Nat) : (s.setNmt a0).get k = s.get k :=
  Keeps.get (keeps_State_setNmt _ _ (Keeps.refl (fun f => [.canOpen].contains f) s) (fun _ h => h)) rfl rfl k
@[simp] theorem tamperEv_get (a0 : Nat) (a1 : Nat) (a2 : Nat) (k : Nat) : (s.tamperEv a0 a1 a2).get k = s.get k :=
  Keeps.get (keeps_State_tamperEv _ _ _ _ (Keeps.refl (fun f => [.irq, .jour].contains f) s) (fun _ h => h)) rfl rfl k
@[simp] theorem busNote_get (a0 : Nat) (k : Nat) : (s.busNote a0).get k = s.get k :=
  Keeps.get (keeps_State_busNote _ _ (Keeps.refl (fun f => [.irq, .jour].contains f) s) (fun _ h => h)) rfl rfl k
@[simp] theorem unref_get (a0 : Nat) (k : Nat) : (s.unref a0).get k = s.get k :=
  Keeps.get (keeps_State_unref _ _ (Keeps.refl (fun f => [.fabric].contains f) s) (fun _ h => h)) rfl rfl k
@[simp] theorem respond_get (a0 : Path) (a1 : Nat) (a2 : Bytes) (k : Nat) : (s.respond a0 a1 a2).get k = s.get k :=
  Keeps.get (keeps_State_respond _ _ _ _ (Keeps.refl (fun f => [.sessions, .lockouts, .sessionCounter, .irq, .jour].contains f) s) (fun _ h => h)) rfl rfl k
@[simp] theorem updCanp_get (a0 : Nat) (a1 : CanPort → CanPort) (k : Nat) : (s.updCanp a0 a1).get k = s.get k :=
  Keeps.get (keeps_State_updCanp _ _ _ (Keeps.refl (fun f => [.fld].contains f) s) (fun _ h => h)) rfl rfl k
@[simp] theorem toFabric_get (a0 : Nat) (a1 : Cell) (k : Nat) : (s.toFabric a0 a1).get k = s.get k :=
  Keeps.get (keeps_State_toFabric _ _ _ (Keeps.refl (fun f => [.fabric].contains f) s) (fun _ h => h)) rfl rfl k
@[simp] theorem note_get (a0 : Nat) (a1 : Nat) (a2 : Bytes) (k : Nat) : (s.note a0 a1 a2).get k = s.get k :=
  Keeps.get (keeps_State_note _ _ _ _ (Keeps.refl (fun f => [.boot].contains f) s) (fun _ h => h)) rfl rfl k
@[simp] theorem updShaper_get (a0 : Nat) (a1 : Nat) (a2 : Shaper → Shaper) (k : Nat) : (s.updShaper a0 a1 a2).get k = s.get k :=
  Keeps.get (keeps_State_updShaper _ _ _ _ (Keeps.refl (fun f => [.scheds].contains f) s) (fun _ h => h)) rfl rfl k
@[simp] theorem updBuf_get (a0 : Nat) (a1 : BufCell → BufCell) (k : Nat) : (s.updBuf a0 a1).get k = s.get k :=
  Keeps.get (keeps_State_updBuf _ _ _ (Keeps.refl (fun f => [.fabric].contains f) s) (fun _ h => h)) rfl rfl k
@[simp] theorem svcPowerGood_get  (k : Nat) : (s.svcPowerGood ).get k = s.get k :=
  Keeps.get (keeps_State_svcPowerGood _  (Keeps.refl (fun f => [.timers, .pd].contains f) s) (fun _ h => h)) rfl rfl k
@[simp] theorem setAppTimer_get (a0 : Nat) (a1 : AppTimer) (k : Nat) : (s.setAppTimer a0 a1).get k = s.get k :=
  Keeps.get (keeps_State_setAppTimer _ _ _ (Keeps.refl (fun f => [.app].contains f) s) (fun _ h => h)) rfl rfl k
@[simp] theorem askSession_get (a0 : Path) (a1 : Nat) (k : Nat) : (s.askSession a0 a1).get k = s.get k :=
  Keeps.get (keeps_State_askSession _ _ _ (Keeps.refl (fun f => [.freeCount, .sessions, .irq, .jour].contains f) s) (fun _ h => h)) rfl rfl k
@[simp] theorem ciWake_get  (k : Nat) : (s.ciWake ).get k = s.get k :=
  Keeps.get (keeps_State_ciWake _  (Keeps.refl (fun f => [.irq].contains f) s) (fun _ h => h)) rfl rfl k
@[simp] theorem setDone_get (a0 : Nat) (k : Nat) : (s.setDone a0).get k = s.get k :=
  Keeps.get (keeps_State_setDone _ _ (Keeps.refl (fun f => [.sent, .trunks].contains f) s) (fun _ h => h)) rfl rfl k
@[simp] theorem answer_get (a0 : Path) (a1 : Nat) (a2 : Nat) (a3 : Bytes) (k : Nat) : (s.answer a0 a1 a2 a3).get k = s.get k :=
  Keeps.get (keeps_State_answer _ _ _ _ _ (Keeps.refl (fun f => [.sent].contains f) s) (fun _ h => h)) rfl rfl k
@[simp] theorem loadSlot_get (a0 : Nat) (k : Nat) : (s.loadSlot a0).get k = s.get k :=
  Keeps.get (keeps_State_loadSlot _ _ (Keeps.refl (fun f => [.timers, .boot].contains f) s) (fun _ h => h)) rfl rfl k
@[simp] theorem hubData_get (a0 : Nat) (a1 : Bytes) (k : Nat) : (s.hubData a0 a1).get k = s.get k :=
  Keeps.get (keeps_State_hubData _ _ _ (Keeps.refl (fun f => [.usb].contains f) s) (fun _ h => h)) rfl rfl k
@[simp] theorem setEnable_get (a0 : Nat) (a1 : Nat) (k : Nat) : (s.setEnable a0 a1).get k = s.get k :=
  Keeps.get (keeps_State_setEnable _ _ _ (Keeps.refl (fun f => [.irq].contains f) s) (fun _ h => h)) rfl rfl k
@[simp] theorem dramEnabled_get (a0 : Nat) (a1 : Nat) (a2 : Bytes) (k : Nat) : (s.dramEnabled a0 a1 a2).get k = s.get k :=
  Keeps.get (keeps_State_dramEnabled _ _ _ _ (Keeps.refl (fun f => [.dram].contains f) s) (fun _ h => h)) rfl rfl k
@[simp] theorem issueQueued_get (a0 : Nat) (a1 : List QdCmd) (k : Nat) : (s.issueQueued a0 a1).get k = s.get k :=
  Keeps.get (keeps_State_issueQueued _ _ _ (Keeps.refl (fun f => [.irq, .jour, .rates, .sent, .stor].contains f) s) (fun _ h => h)) rfl rfl k
@[simp] theorem keepRx_get (a0 : Nat) (a1 : Nat) (a2 : Nat) (k : Nat) : (s.keepRx a0 a1 a2).get k = s.get k :=
  Keeps.get (keeps_State_keepRx _ _ _ _ (Keeps.refl (fun f => [.pl].contains f) s) (fun _ h => h)) rfl rfl k
@[simp] theorem autoUfp_get  (k : Nat) : (s.autoUfp ).get k = s.get k :=
  Keeps.get (keeps_State_autoUfp _  (Keeps.refl (fun f => [.timers, .sent, .pd].contains f) s) (fun _ h => h)) rfl rfl k
@[simp] theorem stageIn_get (a0 : Nat) (a1 : Nat) (a2 : Nat) (a3 : Bytes) (k : Nat) : (s.stageIn a0 a1 a2 a3).get k = s.get k :=
  Keeps.get (keeps_State_stageIn _ _ _ _ _ (Keeps.refl (fun f => [.dram].contains f) s) (fun _ h => h)) rfl rfl k
@[simp] theorem tailsDue_get (a0 : Nat) (k : Nat) : (s.tailsDue a0).get k = s.get k :=
  Keeps.get (keeps_State_tailsDue _ _ (Keeps.refl (fun f => [.tunnels, .scheds].contains f) s) (fun _ h => h)) rfl rfl k
@[simp] theorem updUnit_get (a0 : Nat) (a1 : Int) (a2 : DUnit → DUnit) (k : Nat) : (s.updUnit a0 a1 a2).get k = s.get k :=
  Keeps.get (keeps_State_updUnit _ _ _ _ (Keeps.refl (fun f => [.disps].contains f) s) (fun _ h => h)) rfl rfl k
@[simp] theorem rateNow_get (a0 : Nat) (a1 : Nat) (a2 : Nat) (k : Nat) : (s.rateNow a0 a1 a2).get k = s.get k :=
  Keeps.get (keeps_State_rateNow _ _ _ _ (Keeps.refl (fun f => [.jour, .rates].contains f) s) (fun _ h => h)) rfl rfl k
@[simp] theorem stopAll_get (a0 : List Timer) (k : Nat) : (s.stopAll a0).get k = s.get k :=
  Keeps.get (keeps_State_stopAll _ _ (Keeps.refl (fun f => [.timers].contains f) s) (fun _ h => h)) rfl rfl k
@[simp] theorem schedRate_get (a0 : Nat) (a1 : Nat) (a2 : Nat) (a3 : Nat) (a4 : Nat) (a5 : Bytes) (a6 : List Nat) (k : Nat) : (s.schedRate a0 a1 a2 a3 a4 a5 a6).get k = s.get k :=
  Keeps.get (keeps_State_schedRate _ _ _ _ _ _ _ _ (Keeps.refl (fun f => [.irq, .jour, .rates].contains f) s) (fun _ h => h)) rfl rfl k
@[simp] theorem pdEv_get (a0 : Nat) (a1 : Nat) (a2 : Nat) (a3 : Bytes) (k : Nat) : (s.pdEv a0 a1 a2 a3).get k = s.get k :=
  Keeps.get (keeps_State_pdEv _ _ _ _ _ (Keeps.refl (fun f => [.irq, .jour].contains f) s) (fun _ h => h)) rfl rfl k
@[simp] theorem timeEv_get (a0 : Nat) (a1 : Nat) (a2 : Nat) (a3 : Bytes) (k : Nat) : (s.timeEv a0 a1 a2 a3).get k = s.get k :=
  Keeps.get (keeps_State_timeEv _ _ _ _ _ (Keeps.refl (fun f => [.irq, .jour].contains f) s) (fun _ h => h)) rfl rfl k
@[simp] theorem sendTraining_get (a0 : Nat) (k : Nat) : (s.sendTraining a0).get k = s.get k :=
  Keeps.get (keeps_State_sendTraining _ _ (Keeps.refl (fun f => [.sent].contains f) s) (fun _ h => h)) rfl rfl k
@[simp] theorem updRedp_get (a0 : Nat) (a1 : RedPair → RedPair) (k : Nat) : (s.updRedp a0 a1).get k = s.get k :=
  Keeps.get (keeps_State_updRedp _ _ _ (Keeps.refl (fun f => [.eth].contains f) s) (fun _ h => h)) rfl rfl k
@[simp] theorem sdoClose_get  (k : Nat) : (s.sdoClose ).get k = s.get k :=
  Keeps.get (keeps_State_sdoClose _  (Keeps.refl (fun f => [.canOpen].contains f) s) (fun _ h => h)) rfl rfl k
@[simp] theorem touch_get (a0 : Path) (k : Nat) : (s.touch a0).get k = s.get k :=
  Keeps.get (keeps_State_touch _ _ (Keeps.refl (fun f => [.sessions, .irq, .jour].contains f) s) (fun _ h => h)) rfl rfl k
@[simp] theorem inputErrors_get (a0 : Nat) (a1 : Nat) (a2 : Nat) (k : Nat) : (s.inputErrors a0 a1 a2).get k = s.get k :=
  Keeps.get (keeps_State_inputErrors _ _ _ _ (Keeps.refl (fun f => [.irq, .jour, .rates].contains f) s) (fun _ h => h)) rfl rfl k
@[simp] theorem svcSent_get (a0 : Nat) (k : Nat) : (s.svcSent a0).get k = s.get k :=
  Keeps.get (keeps_State_svcSent _ _ (Keeps.refl (fun f => [.irq, .svc].contains f) s) (fun _ h => h)) rfl rfl k
@[simp] theorem notSupported_get  (k : Nat) : (s.notSupported ).get k = s.get k :=
  Keeps.get (keeps_State_notSupported _  (Keeps.refl (fun f => [.timers, .sent, .pd].contains f) s) (fun _ h => h)) rfl rfl k
@[simp] theorem revoke_get (a0 : Path) (a1 : Nat) (k : Nat) : (s.revoke a0 a1).get k = s.get k :=
  Keeps.get (keeps_State_revoke _ _ _ (Keeps.refl (fun f => [.sessions, .irq, .jour].contains f) s) (fun _ h => h)) rfl rfl k
@[simp] theorem updSdo_get (a0 : Sdo → Sdo) (k : Nat) : (s.updSdo a0).get k = s.get k :=
  Keeps.get (keeps_State_updSdo _ _ (Keeps.refl (fun f => [.canOpen].contains f) s) (fun _ h => h)) rfl rfl k
@[simp] theorem sdoClientAbort_get (a0 : Bytes) (k : Nat) : (s.sdoClientAbort a0).get k = s.get k :=
  Keeps.get (keeps_State_sdoClientAbort _ _ (Keeps.refl (fun f => [.canOpen].contains f) s) (fun _ h => h)) rfl rfl k
@[simp] theorem discharging_get (a0 : Bool) (k : Nat) : (s.discharging a0).get k = s.get k :=
  Keeps.get (keeps_State_discharging _ _ (Keeps.refl (fun f => [.sent, .pd].contains f) s) (fun _ h => h)) rfl rfl k
@[simp] theorem liftFail_get (a0 : Nat) (a1 : Nat) (k : Nat) : (s.liftFail a0 a1).get k = s.get k :=
  Keeps.get (keeps_State_liftFail _ _ _ (Keeps.refl (fun f => [.boot].contains f) s) (fun _ h => h)) rfl rfl k
@[simp] theorem updLane_get (a0 : Nat) (a1 : Nat) (a2 : Lane → Lane) (k : Nat) : (s.updLane a0 a1 a2).get k = s.get k :=
  Keeps.get (keeps_State_updLane _ _ _ _ (Keeps.refl (fun f => [.trunks].contains f) s) (fun _ h => h)) rfl rfl k
@[simp] theorem norReclaim_get (a0 : Bool) (k : Nat) : (s.norReclaim a0).get k = s.get k :=
  Keeps.get (keeps_State_norReclaim _ _ (Keeps.refl (fun f => [.timers, .irq, .jour, .safety].contains f) s) (fun _ h => h)) rfl rfl k
@[simp] theorem seedLfsrs_get  (k : Nat) : (s.seedLfsrs ).get k = s.get k :=
  Keeps.get (keeps_State_seedLfsrs _  (Keeps.refl (fun f => [.freeCount, .fabric].contains f) s) (fun _ h => h)) rfl rfl k
@[simp] theorem setNor_get (a0 : Nat) (a1 : NorBlock) (k : Nat) : (s.setNor a0 a1).get k = s.get k :=
  Keeps.get (keeps_State_setNor _ _ _ (Keeps.refl (fun f => [.safety].contains f) s) (fun _ h => h)) rfl rfl k
@[simp] theorem raise_get (a0 : Nat) (k : Nat) : (s.raise a0).get k = s.get k :=
  Keeps.get (keeps_State_raise _ _ (Keeps.refl (fun f => [.irq].contains f) s) (fun _ h => h)) rfl rfl k
@[simp] theorem baselineNow_get  (k : Nat) : (s.baselineNow ).get k = s.get k :=
  Keeps.get (keeps_State_baselineNow _  (Keeps.refl (fun f => [.safety].contains f) s) (fun _ h => h)) rfl rfl k
@[simp] theorem copyTamper_get  (k : Nat) : (s.copyTamper ).get k = s.get k :=
  Keeps.get (keeps_State_copyTamper _  (Keeps.refl (fun f => [.secu].contains f) s) (fun _ h => h)) rfl rfl k
@[simp] theorem giveCredit_get (a0 : Nat) (a1 : Nat) (k : Nat) : (s.giveCredit a0 a1).get k = s.get k :=
  Keeps.get (keeps_State_giveCredit _ _ _ (Keeps.refl (fun f => [.trunks].contains f) s) (fun _ h => h)) rfl rfl k
@[simp] theorem shape_get (a0 : Nat) (a1 : Nat) (a2 : Option Nat) (k : Nat) : (s.shape a0 a1 a2).get k = s.get k :=
  Keeps.get (keeps_State_shape _ _ _ _ (Keeps.refl (fun f => [.scheds].contains f) s) (fun _ h => h)) rfl rfl k
@[simp] theorem norBegin_get (a0 : Nat) (a1 : Nat) (k : Nat) : (s.norBegin a0 a1).get k = s.get k :=
  Keeps.get (keeps_State_norBegin _ _ _ (Keeps.refl (fun f => [.safety].contains f) s) (fun _ h => h)) rfl rfl k
@[simp] theorem mramLost_get (a0 : Nat) (a1 : Nat) (k : Nat) : (s.mramLost a0 a1).get k = s.get k :=
  Keeps.get (keeps_State_mramLost _ _ _ (Keeps.refl (fun f => [.jour, .boot].contains f) s) (fun _ h => h)) rfl rfl k
@[simp] theorem ev_get (a0 : Nat) (a1 : Nat) (a2 : Nat) (a3 : Nat) (a4 : Bytes) (k : Nat) : (s.ev a0 a1 a2 a3 a4).get k = s.get k :=
  Keeps.get (keeps_State_ev _ _ _ _ _ _ (Keeps.refl (fun f => [.irq, .jour].contains f) s) (fun _ h => h)) rfl rfl k
@[simp] theorem vsel_get (a0 : Nat) (k : Nat) : (s.vsel a0).get k = s.get k :=
  Keeps.get (keeps_State_vsel _ _ (Keeps.refl (fun f => [.sent].contains f) s) (fun _ h => h)) rfl rfl k
@[simp] theorem dropOffSources_get  (k : Nat) : (s.dropOffSources ).get k = s.get k :=
  Keeps.get (keeps_State_dropOffSources _  (Keeps.refl (fun f => [.irq].contains f) s) (fun _ h => h)) rfl rfl k
@[simp] theorem updCanTx_get (a0 : Nat) (a1 : CanTx → CanTx) (k : Nat) : (s.updCanTx a0 a1).get k = s.get k :=
  Keeps.get (keeps_State_updCanTx _ _ _ (Keeps.refl (fun f => [.fld].contains f) s) (fun _ h => h)) rfl rfl k
@[simp] theorem noteJournal_get (a0 : List QEv) (k : Nat) : (s.noteJournal a0).get k = s.get k :=
  Keeps.get (keeps_State_noteJournal _ _ (Keeps.refl (fun f => [.irq, .jour].contains f) s) (fun _ h => h)) rfl rfl k
@[simp] theorem norRetire_get (a0 : Nat) (a1 : Nat) (k : Nat) : (s.norRetire a0 a1).get k = s.get k :=
  Keeps.get (keeps_State_norRetire _ _ _ (Keeps.refl (fun f => [.timers, .irq, .jour, .safety].contains f) s) (fun _ h => h)) rfl rfl k
@[simp] theorem toDrive_get (a0 : Nat) (a1 : QdCmd) (k : Nat) : (s.toDrive a0 a1).get k = s.get k :=
  Keeps.get (keeps_State_toDrive _ _ _ (Keeps.refl (fun f => [.irq, .jour, .rates, .sent, .stor].contains f) s) (fun _ h => h)) rfl rfl k
@[simp] theorem updQueue_get (a0 : Nat) (a1 : Queue → Queue) (k : Nat) : (s.updQueue a0 a1).get k = s.get k :=
  Keeps.get (keeps_State_updQueue _ _ _ (Keeps.refl (fun f => [.fabric].contains f) s) (fun _ h => h)) rfl rfl k
@[simp] theorem flushCycle_get (a0 : Nat) (k : Nat) : (s.flushCycle a0).get k = s.get k :=
  Keeps.get (keeps_State_flushCycle _ _ (Keeps.refl (fun f => [.jour, .rates].contains f) s) (fun _ h => h)) rfl rfl k
@[simp] theorem lockSettle_get (a0 : Path) (k : Nat) : (s.lockSettle a0).get k = s.get k :=
  Keeps.get (keeps_State_lockSettle _ _ (Keeps.refl (fun f => [.lockouts].contains f) s) (fun _ h => h)) rfl rfl k
@[simp] theorem evRate_get (a0 : Nat) (a1 : Nat) (a2 : Nat) (a3 : Nat) (a4 : Nat) (a5 : Bytes) (a6 : List Nat) (a7 : Bytes) (a8 : Nat) (k : Nat) : (s.evRate a0 a1 a2 a3 a4 a5 a6 a7 a8).get k = s.get k :=
  Keeps.get (keeps_State_evRate _ _ _ _ _ _ _ _ _ _ (Keeps.refl (fun f => [.irq, .jour, .rates].contains f) s) (fun _ h => h)) rfl rfl k
@[simp] theorem storeArea_get (a0 : Nat) (k : Nat) : (s.storeArea a0).get k = s.get k :=
  Keeps.get (keeps_State_storeArea _ _ (Keeps.refl (fun f => [.secu, .boot].contains f) s) (fun _ h => h)) rfl rfl k
@[simp] theorem updPub_get (a0 : Nat) (a1 : GoosePub → GoosePub) (k : Nat) : (s.updPub a0 a1).get k = s.get k :=
  Keeps.get (keeps_State_updPub _ _ _ (Keeps.refl (fun f => [.fld].contains f) s) (fun _ h => h)) rfl rfl k
@[simp] theorem updEthp_get (a0 : Nat) (a1 : EthPort → EthPort) (k : Nat) : (s.updEthp a0 a1).get k = s.get k :=
  Keeps.get (keeps_State_updEthp _ _ _ (Keeps.refl (fun f => [.eth].contains f) s) (fun _ h => h)) rfl rfl k
@[simp] theorem setCtrl_get (a0 : Nat) (a1 : Nat) (k : Nat) : (s.setCtrl a0 a1).get k = s.get k :=
  Keeps.get (keeps_State_setCtrl _ _ _ (Keeps.refl (fun f => [.irq].contains f) s) (fun _ h => h)) rfl rfl k
@[simp] theorem nextTurn_get (a0 : Nat) (a1 : Bool) (k : Nat) : (s.nextTurn a0 a1).get k = s.get k :=
  Keeps.get (keeps_State_nextTurn _ _ _ (Keeps.refl (fun f => [.svc].contains f) s) (fun _ h => h)) rfl rfl k
@[simp] theorem refill_get (a0 : Nat) (k : Nat) : (s.refill a0).get k = s.get k :=
  Keeps.get (keeps_State_refill _ _ (Keeps.refl (fun f => [.irq, .jour, .rates, .scheds].contains f) s) (fun _ h => h)) rfl rfl k
@[simp] theorem tunEv_get (a0 : Nat) (a1 : Nat) (a2 : Nat) (a3 : Nat) (a4 : Bytes) (k : Nat) : (s.tunEv a0 a1 a2 a3 a4).get k = s.get k :=
  Keeps.get (keeps_State_tunEv _ _ _ _ _ _ (Keeps.refl (fun f => [.irq, .jour].contains f) s) (fun _ h => h)) rfl rfl k
@[simp] theorem refillOne_get (a0 : Nat) (a1 : Nat) (k : Nat) : (s.refillOne a0 a1).get k = s.get k :=
  Keeps.get (keeps_State_refillOne _ _ _ (Keeps.refl (fun f => [.scheds].contains f) s) (fun _ h => h)) rfl rfl k
@[simp] theorem latchCfg_get (a0 : Nat) (k : Nat) : (s.latchCfg a0).get k = s.get k :=
  Keeps.get (keeps_State_latchCfg _ _ (Keeps.refl (fun f => [.tunnels].contains f) s) (fun _ h => h)) rfl rfl k
@[simp] theorem endSource_get (a0 : Nat) (a1 : Nat) (a2 : Nat) (k : Nat) : (s.endSource a0 a1 a2).get k = s.get k :=
  Keeps.get (keeps_State_endSource _ _ _ _ (Keeps.refl (fun f => [.irq, .jour, .rates].contains f) s) (fun _ h => h)) rfl rfl k
@[simp] theorem watchCycle_get (a0 : Nat) (k : Nat) : (s.watchCycle a0).get k = s.get k :=
  Keeps.get (keeps_State_watchCycle _ _ (Keeps.refl (fun f => [.tunnels].contains f) s) (fun _ h => h)) rfl rfl k
@[simp] theorem gatherRecord_get (a0 : Nat) (a1 : Nat) (a2 : Bytes) (k : Nat) : (s.gatherRecord a0 a1 a2).get k = s.get k :=
  Keeps.get (keeps_State_gatherRecord _ _ _ _ (Keeps.refl (fun f => [.irq, .jour, .rates, .fld].contains f) s) (fun _ h => h)) rfl rfl k
@[simp] theorem wake_get (a0 : Nat) (a1 : Nat) (a2 : Nat) (k : Nat) : (s.wake a0 a1 a2).get k = s.get k :=
  Keeps.get (keeps_State_wake _ _ _ _ (Keeps.refl (fun f => [.scheds].contains f) s) (fun _ h => h)) rfl rfl k
@[simp] theorem appWatch_get  (k : Nat) : (s.appWatch ).get k = s.get k :=
  Keeps.get (keeps_State_appWatch _  (Keeps.refl (fun f => [.timers].contains f) s) (fun _ h => h)) rfl rfl k
@[simp] theorem rateEnd_get (a0 : Rate) (k : Nat) : (s.rateEnd a0).get k = s.get k :=
  Keeps.get (keeps_State_rateEnd _ _ (Keeps.refl (fun f => [.jour, .rates].contains f) s) (fun _ h => h)) rfl rfl k
@[simp] theorem endSession_get (a0 : Path) (a1 : Nat) (a2 : Path) (k : Nat) : (s.endSession a0 a1 a2).get k = s.get k :=
  Keeps.get (keeps_State_endSession _ _ _ _ (Keeps.refl (fun f => [.sessions, .irq, .jour].contains f) s) (fun _ h => h)) rfl rfl k
@[simp] theorem norWarn_get  (k : Nat) : (s.norWarn ).get k = s.get k :=
  Keeps.get (keeps_State_norWarn _  (Keeps.refl (fun f => [.timers, .irq, .jour].contains f) s) (fun _ h => h)) rfl rfl k
@[simp] theorem sendCaps_get  (k : Nat) : (s.sendCaps ).get k = s.get k :=
  Keeps.get (keeps_State_sendCaps _  (Keeps.refl (fun f => [.timers, .irq, .jour, .sent, .pd].contains f) s) (fun _ h => h)) rfl rfl k
@[simp] theorem hubResume_get  (k : Nat) : (s.hubResume ).get k = s.get k :=
  Keeps.get (keeps_State_hubResume _  (Keeps.refl (fun f => [.timers, .sent, .usb].contains f) s) (fun _ h => h)) rfl rfl k
@[simp] theorem setLockout_get (a0 : Path) (a1 : Lockout) (k : Nat) : (s.setLockout a0 a1).get k = s.get k :=
  Keeps.get (keeps_State_setLockout _ _ _ (Keeps.refl (fun f => [.lockouts].contains f) s) (fun _ h => h)) rfl rfl k
@[simp] theorem fabricEv_get (a0 : Nat) (a1 : Nat) (a2 : Nat) (a3 : Nat) (a4 : Bytes) (a5 : List Nat) (a6 : Bytes) (k : Nat) : (s.fabricEv a0 a1 a2 a3 a4 a5 a6).get k = s.get k :=
  Keeps.get (keeps_State_fabricEv _ _ _ _ _ _ _ _ (Keeps.refl (fun f => [.irq, .jour, .rates].contains f) s) (fun _ h => h)) rfl rfl k
@[simp] theorem trunkEv_get (a0 : Nat) (a1 : Nat) (a2 : Nat) (a3 : Nat) (a4 : Bytes) (k : Nat) : (s.trunkEv a0 a1 a2 a3 a4).get k = s.get k :=
  Keeps.get (keeps_State_trunkEv _ _ _ _ _ _ (Keeps.refl (fun f => [.irq, .jour].contains f) s) (fun _ h => h)) rfl rfl k
@[simp] theorem unhold_get (a0 : Nat) (a1 : Nat) (a2 : List Held) (k : Nat) : (s.unhold a0 a1 a2).get k = s.get k :=
  Keeps.get (keeps_State_unhold _ _ _ _ (Keeps.refl (fun f => [.trunks].contains f) s) (fun _ h => h)) rfl rfl k
@[simp] theorem evCycle_get (a0 : Nat) (a1 : Nat) (a2 : Nat) (a3 : Nat) (a4 : Nat) (a5 : Bytes) (a6 : List Nat) (a7 : Bytes) (k : Nat) : (s.evCycle a0 a1 a2 a3 a4 a5 a6 a7).get k = s.get k :=
  Keeps.get (keeps_State_evCycle _ _ _ _ _ _ _ _ _ (Keeps.refl (fun f => [.irq, .jour, .rates].contains f) s) (fun _ h => h)) rfl rfl k
@[simp] theorem program_get (a0 : Nat) (a1 : Bytes) (k : Nat) : (s.program a0 a1).get k = s.get k :=
  Keeps.get (keeps_State_program _ _ _ (Keeps.refl (fun f => [.boot].contains f) s) (fun _ h => h)) rfl rfl k
@[simp] theorem updMap_get (a0 : Nat) (a1 : MapEntry → MapEntry) (k : Nat) : (s.updMap a0 a1).get k = s.get k :=
  Keeps.get (keeps_State_updMap _ _ _ (Keeps.refl (fun f => [.fld].contains f) s) (fun _ h => h)) rfl rfl k
@[simp] theorem runPeriodic_get (a0 : Nat) (k : Nat) : (s.runPeriodic a0).get k = s.get k :=
  Keeps.get (keeps_State_runPeriodic _ _ (Keeps.refl (fun f => [.sent, .usb].contains f) s) (fun _ h => h)) rfl rfl k
@[simp] theorem putCopy_get (a0 : Copy) (k : Nat) : (s.putCopy a0).get k = s.get k :=
  Keeps.get (keeps_State_putCopy _ _ (Keeps.refl (fun f => [.boot].contains f) s) (fun _ h => h)) rfl rfl k
@[simp] theorem svcQueue_get (a0 : Nat) (a1 : List Bytes) (k : Nat) : (s.svcQueue a0 a1).get k = s.get k :=
  Keeps.get (keeps_State_svcQueue _ _ _ (Keeps.refl (fun f => [.svc].contains f) s) (fun _ h => h)) rfl rfl k
@[simp] theorem canTake_get  (k : Nat) : (s.canTake ).get k = s.get k :=
  Keeps.get (keeps_State_canTake _  (Keeps.refl (fun f => [.timers, .canOpen, .canNode].contains f) s) (fun _ h => h)) rfl rfl k
@[simp] theorem evAt_get (a0 : Nat) (a1 : Nat) (a2 : Nat) (a3 : Nat) (a4 : Nat) (a5 : Bytes) (k : Nat) : (s.evAt a0 a1 a2 a3 a4 a5).get k = s.get k :=
  Keeps.get (keeps_State_evAt _ _ _ _ _ _ _ (Keeps.refl (fun f => [.irq, .jour].contains f) s) (fun _ h => h)) rfl rfl k
@[simp] theorem settleSession_get (a0 : Path) (k : Nat) : (s.settleSession a0).get k = s.get k :=
  Keeps.get (keeps_State_settleSession _ _ (Keeps.refl (fun f => [.sessions, .irq, .jour].contains f) s) (fun _ h => h)) rfl rfl k
@[simp] theorem presentRp_get (a0 : Nat) (k : Nat) : (s.presentRp a0).get k = s.get k :=
  Keeps.get (keeps_State_presentRp _ _ (Keeps.refl (fun f => [.sent].contains f) s) (fun _ h => h)) rfl rfl k
@[simp] theorem pdPut_get (a0 : PdMsg) (k : Nat) : (s.pdPut a0).get k = s.get k :=
  Keeps.get (keeps_State_pdPut _ _ (Keeps.refl (fun f => [.timers, .sent, .pd].contains f) s) (fun _ h => h)) rfl rfl k
@[simp] theorem pdAsk_get (a0 : PdMsg) (k : Nat) : (s.pdAsk a0).get k = s.get k :=
  Keeps.get (keeps_State_pdAsk _ _ (Keeps.refl (fun f => [.timers, .sent, .pd].contains f) s) (fun _ h => h)) rfl rfl k
@[simp] theorem readyRp_get  (k : Nat) : (s.readyRp ).get k = s.get k :=
  Keeps.get (keeps_State_readyRp _  (Keeps.refl (fun f => [.sent].contains f) s) (fun _ h => h)) rfl rfl k

end Sys2Proof.Laws
end

