-- ==== Sys2Proof/Laws/Judge.lean ====
section
/-!
SUPPORT. How the dictionary judges a write (R37-R41) and takes a command (R56), and the fields of the state after the operations
that record events.
-/

set_option Elab.async false

set_option linter.all false

namespace Sys2Proof.Laws

open Sys2Proof Sys2Proof.Machine

variable (s : State)

theorem ciWake_keeps  : Keeps (fun f => [.irq].contains f) s (s.ciWake ) :=
  (keeps_State_ciWake _ (Keeps.refl (fun f => [.irq].contains f) s) (fun _ h => h))
@[simp] theorem ciWake_head  : (s.ciWake ).head = s.head := (ciWake_keeps s ).same .head rfl
@[simp] theorem ciWake_objs  : (s.ciWake ).objs = s.objs := (ciWake_keeps s ).same .objs rfl
@[simp] theorem ciWake_strs  : (s.ciWake ).strs = s.strs := (ciWake_keeps s ).same .strs rfl
@[simp] theorem ciWake_station  : (s.ciWake ).station = s.station := (ciWake_keeps s ).same .station rfl
@[simp] theorem ciWake_freeCount  : (s.ciWake ).freeCount = s.freeCount := (ciWake_keeps s ).same .freeCount rfl
@[simp] theorem ciWake_timers  : (s.ciWake ).timers = s.timers := (ciWake_keeps s ).same .timers rfl
@[simp] theorem ciWake_sessions  : (s.ciWake ).sessions = s.sessions := (ciWake_keeps s ).same .sessions rfl
@[simp] theorem ciWake_lockouts  : (s.ciWake ).lockouts = s.lockouts := (ciWake_keeps s ).same .lockouts rfl
@[simp] theorem ciWake_sessionCounter  : (s.ciWake ).sessionCounter = s.sessionCounter := (ciWake_keeps s ).same .sessionCounter rfl
@[simp] theorem ciWake_cmds  : (s.ciWake ).cmds = s.cmds := (ciWake_keeps s ).same .cmds rfl
@[simp] theorem ciWake_jour  : (s.ciWake ).jour = s.jour := (ciWake_keeps s ).same .jour rfl
@[simp] theorem ciWake_rates  : (s.ciWake ).rates = s.rates := (ciWake_keeps s ).same .rates rfl
@[simp] theorem ciWake_canOpen  : (s.ciWake ).canOpen = s.canOpen := (ciWake_keeps s ).same .canOpen rfl
@[simp] theorem ciWake_modeHeld  : (s.ciWake ).modeHeld = s.modeHeld := (ciWake_keeps s ).same .modeHeld rfl
@[simp] theorem ciWake_stateHeld  : (s.ciWake ).stateHeld = s.stateHeld := (ciWake_keeps s ).same .stateHeld rfl
@[simp] theorem ciWake_trunks  : (s.ciWake ).trunks = s.trunks := (ciWake_keeps s ).same .trunks rfl
@[simp] theorem ciWake_tunnels  : (s.ciWake ).tunnels = s.tunnels := (ciWake_keeps s ).same .tunnels rfl
@[simp] theorem ciWake_fabric  : (s.ciWake ).fabric = s.fabric := (ciWake_keeps s ).same .fabric rfl
@[simp] theorem ciWake_scheds  : (s.ciWake ).scheds = s.scheds := (ciWake_keeps s ).same .scheds rfl
@[simp] theorem ciWake_disps  : (s.ciWake ).disps = s.disps := (ciWake_keeps s ).same .disps rfl
@[simp] theorem ciWake_usb  : (s.ciWake ).usb = s.usb := (ciWake_keeps s ).same .usb rfl
@[simp] theorem ciWake_svc  : (s.ciWake ).svc = s.svc := (ciWake_keeps s ).same .svc rfl
@[simp] theorem ciWake_pd  : (s.ciWake ).pd = s.pd := (ciWake_keeps s ).same .pd rfl
@[simp] theorem ciWake_time  : (s.ciWake ).time = s.time := (ciWake_keeps s ).same .time rfl
@[simp] theorem ciWake_eth  : (s.ciWake ).eth = s.eth := (ciWake_keeps s ).same .eth rfl
@[simp] theorem ciWake_pl  : (s.ciWake ).pl = s.pl := (ciWake_keeps s ).same .pl rfl
@[simp] theorem ciWake_stor  : (s.ciWake ).stor = s.stor := (ciWake_keeps s ).same .stor rfl
@[simp] theorem ciWake_dram  : (s.ciWake ).dram = s.dram := (ciWake_keeps s ).same .dram rfl
@[simp] theorem ciWake_fld  : (s.ciWake ).fld = s.fld := (ciWake_keeps s ).same .fld rfl
@[simp] theorem ciWake_canNode  : (s.ciWake ).canNode = s.canNode := (ciWake_keeps s ).same .canNode rfl
@[simp] theorem ciWake_keys  : (s.ciWake ).keys = s.keys := (ciWake_keeps s ).same .keys rfl
@[simp] theorem ciWake_secu  : (s.ciWake ).secu = s.secu := (ciWake_keeps s ).same .secu rfl
@[simp] theorem ciWake_power  : (s.ciWake ).power = s.power := (ciWake_keeps s ).same .power rfl
@[simp] theorem ciWake_app  : (s.ciWake ).app = s.app := (ciWake_keeps s ).same .app rfl
@[simp] theorem ciWake_safety  : (s.ciWake ).safety = s.safety := (ciWake_keeps s ).same .safety rfl
@[simp] theorem ciWake_boot  : (s.ciWake ).boot = s.boot := (ciWake_keeps s ).same .boot rfl
@[simp] theorem ciWake_part  : (s.ciWake ).part = s.part := (ciWake_keeps s ).part
@[simp] theorem ciWake_clock  : (s.ciWake ).clock = s.clock := (ciWake_keeps s ).clock
@[simp] theorem ciWake_pending  : (s.ciWake ).pending = s.pending := (ciWake_keeps s ).pending
@[simp] theorem ciWake_sent  : (s.ciWake ).sent = s.sent := (ciWake_keeps s ).same .sent rfl

theorem touch_keeps (a0 : Path) : Keeps (fun f => [.sessions, .irq, .jour].contains f) s (s.touch a0) :=
  (keeps_State_touch _ _ (Keeps.refl (fun f => [.sessions, .irq, .jour].contains f) s) (fun _ h => h))
@[simp] theorem touch_head (a0 : Path) : (s.touch a0).head = s.head := (touch_keeps s a0).same .head rfl
@[simp] theorem touch_objs (a0 : Path) : (s.touch a0).objs = s.objs := (touch_keeps s a0).same .objs rfl
@[simp] theorem touch_strs (a0 : Path) : (s.touch a0).strs = s.strs := (touch_keeps s a0).same .strs rfl
@[simp] theorem touch_station (a0 : Path) : (s.touch a0).station = s.station := (touch_keeps s a0).same .station rfl
@[simp] theorem touch_freeCount (a0 : Path) : (s.touch a0).freeCount = s.freeCount := (touch_keeps s a0).same .freeCount rfl
@[simp] theorem touch_timers (a0 : Path) : (s.touch a0).timers = s.timers := (touch_keeps s a0).same .timers rfl
@[simp] theorem touch_lockouts (a0 : Path) : (s.touch a0).lockouts = s.lockouts := (touch_keeps s a0).same .lockouts rfl
@[simp] theorem touch_sessionCounter (a0 : Path) : (s.touch a0).sessionCounter = s.sessionCounter := (touch_keeps s a0).same .sessionCounter rfl
@[simp] theorem touch_cmds (a0 : Path) : (s.touch a0).cmds = s.cmds := (touch_keeps s a0).same .cmds rfl
@[simp] theorem touch_rates (a0 : Path) : (s.touch a0).rates = s.rates := (touch_keeps s a0).same .rates rfl
@[simp] theorem touch_canOpen (a0 : Path) : (s.touch a0).canOpen = s.canOpen := (touch_keeps s a0).same .canOpen rfl
@[simp] theorem touch_modeHeld (a0 : Path) : (s.touch a0).modeHeld = s.modeHeld := (touch_keeps s a0).same .modeHeld rfl
@[simp] theorem touch_stateHeld (a0 : Path) : (s.touch a0).stateHeld = s.stateHeld := (touch_keeps s a0).same .stateHeld rfl
@[simp] theorem touch_trunks (a0 : Path) : (s.touch a0).trunks = s.trunks := (touch_keeps s a0).same .trunks rfl
@[simp] theorem touch_tunnels (a0 : Path) : (s.touch a0).tunnels = s.tunnels := (touch_keeps s a0).same .tunnels rfl
@[simp] theorem touch_fabric (a0 : Path) : (s.touch a0).fabric = s.fabric := (touch_keeps s a0).same .fabric rfl
@[simp] theorem touch_scheds (a0 : Path) : (s.touch a0).scheds = s.scheds := (touch_keeps s a0).same .scheds rfl
@[simp] theorem touch_disps (a0 : Path) : (s.touch a0).disps = s.disps := (touch_keeps s a0).same .disps rfl
@[simp] theorem touch_usb (a0 : Path) : (s.touch a0).usb = s.usb := (touch_keeps s a0).same .usb rfl
@[simp] theorem touch_svc (a0 : Path) : (s.touch a0).svc = s.svc := (touch_keeps s a0).same .svc rfl
@[simp] theorem touch_pd (a0 : Path) : (s.touch a0).pd = s.pd := (touch_keeps s a0).same .pd rfl
@[simp] theorem touch_time (a0 : Path) : (s.touch a0).time = s.time := (touch_keeps s a0).same .time rfl
@[simp] theorem touch_eth (a0 : Path) : (s.touch a0).eth = s.eth := (touch_keeps s a0).same .eth rfl
@[simp] theorem touch_pl (a0 : Path) : (s.touch a0).pl = s.pl := (touch_keeps s a0).same .pl rfl
@[simp] theorem touch_stor (a0 : Path) : (s.touch a0).stor = s.stor := (touch_keeps s a0).same .stor rfl
@[simp] theorem touch_dram (a0 : Path) : (s.touch a0).dram = s.dram := (touch_keeps s a0).same .dram rfl
@[simp] theorem touch_fld (a0 : Path) : (s.touch a0).fld = s.fld := (touch_keeps s a0).same .fld rfl
@[simp] theorem touch_canNode (a0 : Path) : (s.touch a0).canNode = s.canNode := (touch_keeps s a0).same .canNode rfl
@[simp] theorem touch_keys (a0 : Path) : (s.touch a0).keys = s.keys := (touch_keeps s a0).same .keys rfl
@[simp] theorem touch_secu (a0 : Path) : (s.touch a0).secu = s.secu := (touch_keeps s a0).same .secu rfl
@[simp] theorem touch_power (a0 : Path) : (s.touch a0).power = s.power := (touch_keeps s a0).same .power rfl
@[simp] theorem touch_app (a0 : Path) : (s.touch a0).app = s.app := (touch_keeps s a0).same .app rfl
@[simp] theorem touch_safety (a0 : Path) : (s.touch a0).safety = s.safety := (touch_keeps s a0).same .safety rfl
@[simp] theorem touch_boot (a0 : Path) : (s.touch a0).boot = s.boot := (touch_keeps s a0).same .boot rfl
@[simp] theorem touch_part (a0 : Path) : (s.touch a0).part = s.part := (touch_keeps s a0).part
@[simp] theorem touch_clock (a0 : Path) : (s.touch a0).clock = s.clock := (touch_keeps s a0).clock
@[simp] theorem touch_pending (a0 : Path) : (s.touch a0).pending = s.pending := (touch_keeps s a0).pending
@[simp] theorem touch_sent (a0 : Path) : (s.touch a0).sent = s.sent := (touch_keeps s a0).same .sent rfl

theorem raise_keeps (a0 : Nat) : Keeps (fun f => [.irq].contains f) s (s.raise a0) :=
  (keeps_State_raise _ _ (Keeps.refl (fun f => [.irq].contains f) s) (fun _ h => h))
@[simp] theorem raise_head (a0 : Nat) : (s.raise a0).head = s.head := (raise_keeps s a0).same .head rfl
@[simp] theorem raise_objs (a0 : Nat) : (s.raise a0).objs = s.objs := (raise_keeps s a0).same .objs rfl
@[simp] theorem raise_strs (a0 : Nat) : (s.raise a0).strs = s.strs := (raise_keeps s a0).same .strs rfl
@[simp] theorem raise_station (a0 : Nat) : (s.raise a0).station = s.station := (raise_keeps s a0).same .station rfl
@[simp] theorem raise_freeCount (a0 : Nat) : (s.raise a0).freeCount = s.freeCount := (raise_keeps s a0).same .freeCount rfl
@[simp] theorem raise_timers (a0 : Nat) : (s.raise a0).timers = s.timers := (raise_keeps s a0).same .timers rfl
@[simp] theorem raise_sessions (a0 : Nat) : (s.raise a0).sessions = s.sessions := (raise_keeps s a0).same .sessions rfl
@[simp] theorem raise_lockouts (a0 : Nat) : (s.raise a0).lockouts = s.lockouts := (raise_keeps s a0).same .lockouts rfl
@[simp] theorem raise_sessionCounter (a0 : Nat) : (s.raise a0).sessionCounter = s.sessionCounter := (raise_keeps s a0).same .sessionCounter rfl
@[simp] theorem raise_cmds (a0 : Nat) : (s.raise a0).cmds = s.cmds := (raise_keeps s a0).same .cmds rfl
@[simp] theorem raise_jour (a0 : Nat) : (s.raise a0).jour = s.jour := (raise_keeps s a0).same .jour rfl
@[simp] theorem raise_rates (a0 : Nat) : (s.raise a0).rates = s.rates := (raise_keeps s a0).same .rates rfl
@[simp] theorem raise_canOpen (a0 : Nat) : (s.raise a0).canOpen = s.canOpen := (raise_keeps s a0).same .canOpen rfl
@[simp] theorem raise_modeHeld (a0 : Nat) : (s.raise a0).modeHeld = s.modeHeld := (raise_keeps s a0).same .modeHeld rfl
@[simp] theorem raise_stateHeld (a0 : Nat) : (s.raise a0).stateHeld = s.stateHeld := (raise_keeps s a0).same .stateHeld rfl
@[simp] theorem raise_trunks (a0 : Nat) : (s.raise a0).trunks = s.trunks := (raise_keeps s a0).same .trunks rfl
@[simp] theorem raise_tunnels (a0 : Nat) : (s.raise a0).tunnels = s.tunnels := (raise_keeps s a0).same .tunnels rfl
@[simp] theorem raise_fabric (a0 : Nat) : (s.raise a0).fabric = s.fabric := (raise_keeps s a0).same .fabric rfl
@[simp] theorem raise_scheds (a0 : Nat) : (s.raise a0).scheds = s.scheds := (raise_keeps s a0).same .scheds rfl
@[simp] theorem raise_disps (a0 : Nat) : (s.raise a0).disps = s.disps := (raise_keeps s a0).same .disps rfl
@[simp] theorem raise_usb (a0 : Nat) : (s.raise a0).usb = s.usb := (raise_keeps s a0).same .usb rfl
@[simp] theorem raise_svc (a0 : Nat) : (s.raise a0).svc = s.svc := (raise_keeps s a0).same .svc rfl
@[simp] theorem raise_pd (a0 : Nat) : (s.raise a0).pd = s.pd := (raise_keeps s a0).same .pd rfl
@[simp] theorem raise_time (a0 : Nat) : (s.raise a0).time = s.time := (raise_keeps s a0).same .time rfl
@[simp] theorem raise_eth (a0 : Nat) : (s.raise a0).eth = s.eth := (raise_keeps s a0).same .eth rfl
@[simp] theorem raise_pl (a0 : Nat) : (s.raise a0).pl = s.pl := (raise_keeps s a0).same .pl rfl
@[simp] theorem raise_stor (a0 : Nat) : (s.raise a0).stor = s.stor := (raise_keeps s a0).same .stor rfl
@[simp] theorem raise_dram (a0 : Nat) : (s.raise a0).dram = s.dram := (raise_keeps s a0).same .dram rfl
@[simp] theorem raise_fld (a0 : Nat) : (s.raise a0).fld = s.fld := (raise_keeps s a0).same .fld rfl
@[simp] theorem raise_canNode (a0 : Nat) : (s.raise a0).canNode = s.canNode := (raise_keeps s a0).same .canNode rfl
@[simp] theorem raise_keys (a0 : Nat) : (s.raise a0).keys = s.keys := (raise_keeps s a0).same .keys rfl
@[simp] theorem raise_secu (a0 : Nat) : (s.raise a0).secu = s.secu := (raise_keeps s a0).same .secu rfl
@[simp] theorem raise_power (a0 : Nat) : (s.raise a0).power = s.power := (raise_keeps s a0).same .power rfl
@[simp] theorem raise_app (a0 : Nat) : (s.raise a0).app = s.app := (raise_keeps s a0).same .app rfl
@[simp] theorem raise_safety (a0 : Nat) : (s.raise a0).safety = s.safety := (raise_keeps s a0).same .safety rfl
@[simp] theorem raise_boot (a0 : Nat) : (s.raise a0).boot = s.boot := (raise_keeps s a0).same .boot rfl
@[simp] theorem raise_part (a0 : Nat) : (s.raise a0).part = s.part := (raise_keeps s a0).part
@[simp] theorem raise_clock (a0 : Nat) : (s.raise a0).clock = s.clock := (raise_keeps s a0).clock
@[simp] theorem raise_pending (a0 : Nat) : (s.raise a0).pending = s.pending := (raise_keeps s a0).pending
@[simp] theorem raise_sent (a0 : Nat) : (s.raise a0).sent = s.sent := (raise_keeps s a0).same .sent rfl

theorem ev_keeps (a0 : Nat) (a1 : Nat) (a2 : Nat) (a3 : Nat) (a4 : Bytes) : Keeps (fun f => [.irq, .jour].contains f) s (s.ev a0 a1 a2 a3 a4) :=
  (keeps_State_ev _ _ _ _ _ _ (Keeps.refl (fun f => [.irq, .jour].contains f) s) (fun _ h => h))
@[simp] theorem ev_head (a0 : Nat) (a1 : Nat) (a2 : Nat) (a3 : Nat) (a4 : Bytes) : (s.ev a0 a1 a2 a3 a4).head = s.head := (ev_keeps s a0 a1 a2 a3 a4).same .head rfl
@[simp] theorem ev_objs (a0 : Nat) (a1 : Nat) (a2 : Nat) (a3 : Nat) (a4 : Bytes) : (s.ev a0 a1 a2 a3 a4).objs = s.objs := (ev_keeps s a0 a1 a2 a3 a4).same .objs rfl
@[simp] theorem ev_strs (a0 : Nat) (a1 : Nat) (a2 : Nat) (a3 : Nat) (a4 : Bytes) : (s.ev a0 a1 a2 a3 a4).strs = s.strs := (ev_keeps s a0 a1 a2 a3 a4).same .strs rfl
@[simp] theorem ev_station (a0 : Nat) (a1 : Nat) (a2 : Nat) (a3 : Nat) (a4 : Bytes) : (s.ev a0 a1 a2 a3 a4).station = s.station := (ev_keeps s a0 a1 a2 a3 a4).same .station rfl
@[simp] theorem ev_freeCount (a0 : Nat) (a1 : Nat) (a2 : Nat) (a3 : Nat) (a4 : Bytes) : (s.ev a0 a1 a2 a3 a4).freeCount = s.freeCount := (ev_keeps s a0 a1 a2 a3 a4).same .freeCount rfl
@[simp] theorem ev_timers (a0 : Nat) (a1 : Nat) (a2 : Nat) (a3 : Nat) (a4 : Bytes) : (s.ev a0 a1 a2 a3 a4).timers = s.timers := (ev_keeps s a0 a1 a2 a3 a4).same .timers rfl
@[simp] theorem ev_sessions (a0 : Nat) (a1 : Nat) (a2 : Nat) (a3 : Nat) (a4 : Bytes) : (s.ev a0 a1 a2 a3 a4).sessions = s.sessions := (ev_keeps s a0 a1 a2 a3 a4).same .sessions rfl
@[simp] theorem ev_lockouts (a0 : Nat) (a1 : Nat) (a2 : Nat) (a3 : Nat) (a4 : Bytes) : (s.ev a0 a1 a2 a3 a4).lockouts = s.lockouts := (ev_keeps s a0 a1 a2 a3 a4).same .lockouts rfl
@[simp] theorem ev_sessionCounter (a0 : Nat) (a1 : Nat) (a2 : Nat) (a3 : Nat) (a4 : Bytes) : (s.ev a0 a1 a2 a3 a4).sessionCounter = s.sessionCounter := (ev_keeps s a0 a1 a2 a3 a4).same .sessionCounter rfl
@[simp] theorem ev_cmds (a0 : Nat) (a1 : Nat) (a2 : Nat) (a3 : Nat) (a4 : Bytes) : (s.ev a0 a1 a2 a3 a4).cmds = s.cmds := (ev_keeps s a0 a1 a2 a3 a4).same .cmds rfl
@[simp] theorem ev_rates (a0 : Nat) (a1 : Nat) (a2 : Nat) (a3 : Nat) (a4 : Bytes) : (s.ev a0 a1 a2 a3 a4).rates = s.rates := (ev_keeps s a0 a1 a2 a3 a4).same .rates rfl
@[simp] theorem ev_canOpen (a0 : Nat) (a1 : Nat) (a2 : Nat) (a3 : Nat) (a4 : Bytes) : (s.ev a0 a1 a2 a3 a4).canOpen = s.canOpen := (ev_keeps s a0 a1 a2 a3 a4).same .canOpen rfl
@[simp] theorem ev_modeHeld (a0 : Nat) (a1 : Nat) (a2 : Nat) (a3 : Nat) (a4 : Bytes) : (s.ev a0 a1 a2 a3 a4).modeHeld = s.modeHeld := (ev_keeps s a0 a1 a2 a3 a4).same .modeHeld rfl
@[simp] theorem ev_stateHeld (a0 : Nat) (a1 : Nat) (a2 : Nat) (a3 : Nat) (a4 : Bytes) : (s.ev a0 a1 a2 a3 a4).stateHeld = s.stateHeld := (ev_keeps s a0 a1 a2 a3 a4).same .stateHeld rfl
@[simp] theorem ev_trunks (a0 : Nat) (a1 : Nat) (a2 : Nat) (a3 : Nat) (a4 : Bytes) : (s.ev a0 a1 a2 a3 a4).trunks = s.trunks := (ev_keeps s a0 a1 a2 a3 a4).same .trunks rfl
@[simp] theorem ev_tunnels (a0 : Nat) (a1 : Nat) (a2 : Nat) (a3 : Nat) (a4 : Bytes) : (s.ev a0 a1 a2 a3 a4).tunnels = s.tunnels := (ev_keeps s a0 a1 a2 a3 a4).same .tunnels rfl
@[simp] theorem ev_fabric (a0 : Nat) (a1 : Nat) (a2 : Nat) (a3 : Nat) (a4 : Bytes) : (s.ev a0 a1 a2 a3 a4).fabric = s.fabric := (ev_keeps s a0 a1 a2 a3 a4).same .fabric rfl
@[simp] theorem ev_scheds (a0 : Nat) (a1 : Nat) (a2 : Nat) (a3 : Nat) (a4 : Bytes) : (s.ev a0 a1 a2 a3 a4).scheds = s.scheds := (ev_keeps s a0 a1 a2 a3 a4).same .scheds rfl
@[simp] theorem ev_disps (a0 : Nat) (a1 : Nat) (a2 : Nat) (a3 : Nat) (a4 : Bytes) : (s.ev a0 a1 a2 a3 a4).disps = s.disps := (ev_keeps s a0 a1 a2 a3 a4).same .disps rfl
@[simp] theorem ev_usb (a0 : Nat) (a1 : Nat) (a2 : Nat) (a3 : Nat) (a4 : Bytes) : (s.ev a0 a1 a2 a3 a4).usb = s.usb := (ev_keeps s a0 a1 a2 a3 a4).same .usb rfl
@[simp] theorem ev_svc (a0 : Nat) (a1 : Nat) (a2 : Nat) (a3 : Nat) (a4 : Bytes) : (s.ev a0 a1 a2 a3 a4).svc = s.svc := (ev_keeps s a0 a1 a2 a3 a4).same .svc rfl
@[simp] theorem ev_pd (a0 : Nat) (a1 : Nat) (a2 : Nat) (a3 : Nat) (a4 : Bytes) : (s.ev a0 a1 a2 a3 a4).pd = s.pd := (ev_keeps s a0 a1 a2 a3 a4).same .pd rfl
@[simp] theorem ev_time (a0 : Nat) (a1 : Nat) (a2 : Nat) (a3 : Nat) (a4 : Bytes) : (s.ev a0 a1 a2 a3 a4).time = s.time := (ev_keeps s a0 a1 a2 a3 a4).same .time rfl
@[simp] theorem ev_eth (a0 : Nat) (a1 : Nat) (a2 : Nat) (a3 : Nat) (a4 : Bytes) : (s.ev a0 a1 a2 a3 a4).eth = s.eth := (ev_keeps s a0 a1 a2 a3 a4).same .eth rfl
@[simp] theorem ev_pl (a0 : Nat) (a1 : Nat) (a2 : Nat) (a3 : Nat) (a4 : Bytes) : (s.ev a0 a1 a2 a3 a4).pl = s.pl := (ev_keeps s a0 a1 a2 a3 a4).same .pl rfl
@[simp] theorem ev_stor (a0 : Nat) (a1 : Nat) (a2 : Nat) (a3 : Nat) (a4 : Bytes) : (s.ev a0 a1 a2 a3 a4).stor = s.stor := (ev_keeps s a0 a1 a2 a3 a4).same .stor rfl
@[simp] theorem ev_dram (a0 : Nat) (a1 : Nat) (a2 : Nat) (a3 : Nat) (a4 : Bytes) : (s.ev a0 a1 a2 a3 a4).dram = s.dram := (ev_keeps s a0 a1 a2 a3 a4).same .dram rfl
@[simp] theorem ev_fld (a0 : Nat) (a1 : Nat) (a2 : Nat) (a3 : Nat) (a4 : Bytes) : (s.ev a0 a1 a2 a3 a4).fld = s.fld := (ev_keeps s a0 a1 a2 a3 a4).same .fld rfl
@[simp] theorem ev_canNode (a0 : Nat) (a1 : Nat) (a2 : Nat) (a3 : Nat) (a4 : Bytes) : (s.ev a0 a1 a2 a3 a4).canNode = s.canNode := (ev_keeps s a0 a1 a2 a3 a4).same .canNode rfl
@[simp] theorem ev_keys (a0 : Nat) (a1 : Nat) (a2 : Nat) (a3 : Nat) (a4 : Bytes) : (s.ev a0 a1 a2 a3 a4).keys = s.keys := (ev_keeps s a0 a1 a2 a3 a4).same .keys rfl
@[simp] theorem ev_secu (a0 : Nat) (a1 : Nat) (a2 : Nat) (a3 : Nat) (a4 : Bytes) : (s.ev a0 a1 a2 a3 a4).secu = s.secu := (ev_keeps s a0 a1 a2 a3 a4).same .secu rfl
@[simp] theorem ev_power (a0 : Nat) (a1 : Nat) (a2 : Nat) (a3 : Nat) (a4 : Bytes) : (s.ev a0 a1 a2 a3 a4).power = s.power := (ev_keeps s a0 a1 a2 a3 a4).same .power rfl
@[simp] theorem ev_app (a0 : Nat) (a1 : Nat) (a2 : Nat) (a3 : Nat) (a4 : Bytes) : (s.ev a0 a1 a2 a3 a4).app = s.app := (ev_keeps s a0 a1 a2 a3 a4).same .app rfl
@[simp] theorem ev_safety (a0 : Nat) (a1 : Nat) (a2 : Nat) (a3 : Nat) (a4 : Bytes) : (s.ev a0 a1 a2 a3 a4).safety = s.safety := (ev_keeps s a0 a1 a2 a3 a4).same .safety rfl
@[simp] theorem ev_boot (a0 : Nat) (a1 : Nat) (a2 : Nat) (a3 : Nat) (a4 : Bytes) : (s.ev a0 a1 a2 a3 a4).boot = s.boot := (ev_keeps s a0 a1 a2 a3 a4).same .boot rfl
@[simp] theorem ev_part (a0 : Nat) (a1 : Nat) (a2 : Nat) (a3 : Nat) (a4 : Bytes) : (s.ev a0 a1 a2 a3 a4).part = s.part := (ev_keeps s a0 a1 a2 a3 a4).part
@[simp] theorem ev_clock (a0 : Nat) (a1 : Nat) (a2 : Nat) (a3 : Nat) (a4 : Bytes) : (s.ev a0 a1 a2 a3 a4).clock = s.clock := (ev_keeps s a0 a1 a2 a3 a4).clock
@[simp] theorem ev_pending (a0 : Nat) (a1 : Nat) (a2 : Nat) (a3 : Nat) (a4 : Bytes) : (s.ev a0 a1 a2 a3 a4).pending = s.pending := (ev_keeps s a0 a1 a2 a3 a4).pending
@[simp] theorem ev_sent (a0 : Nat) (a1 : Nat) (a2 : Nat) (a3 : Nat) (a4 : Bytes) : (s.ev a0 a1 a2 a3 a4).sent = s.sent := (ev_keeps s a0 a1 a2 a3 a4).same .sent rfl

theorem evRate_keeps (a0 : Nat) (a1 : Nat) (a2 : Nat) (a3 : Nat) (a4 : Nat) (a5 : Bytes) (a6 : List Nat) (a7 : Bytes) (a8 : Nat) : Keeps (fun f => [.irq, .jour, .rates].contains f) s (s.evRate a0 a1 a2 a3 a4 a5 a6 a7 a8) :=
  (keeps_State_evRate _ _ _ _ _ _ _ _ _ _ (Keeps.refl (fun f => [.irq, .jour, .rates].contains f) s) (fun _ h => h))
@[simp] theorem evRate_head (a0 : Nat) (a1 : Nat) (a2 : Nat) (a3 : Nat) (a4 : Nat) (a5 : Bytes) (a6 : List Nat) (a7 : Bytes) (a8 : Nat) : (s.evRate a0 a1 a2 a3 a4 a5 a6 a7 a8).head = s.head := (evRate_keeps s a0 a1 a2 a3 a4 a5 a6 a7 a8).same .head rfl
@[simp] theorem evRate_objs (a0 : Nat) (a1 : Nat) (a2 : Nat) (a3 : Nat) (a4 : Nat) (a5 : Bytes) (a6 : List Nat) (a7 : Bytes) (a8 : Nat) : (s.evRate a0 a1 a2 a3 a4 a5 a6 a7 a8).objs = s.objs := (evRate_keeps s a0 a1 a2 a3 a4 a5 a6 a7 a8).same .objs rfl
@[simp] theorem evRate_strs (a0 : Nat) (a1 : Nat) (a2 : Nat) (a3 : Nat) (a4 : Nat) (a5 : Bytes) (a6 : List Nat) (a7 : Bytes) (a8 : Nat) : (s.evRate a0 a1 a2 a3 a4 a5 a6 a7 a8).strs = s.strs := (evRate_keeps s a0 a1 a2 a3 a4 a5 a6 a7 a8).same .strs rfl
@[simp] theorem evRate_station (a0 : Nat) (a1 : Nat) (a2 : Nat) (a3 : Nat) (a4 : Nat) (a5 : Bytes) (a6 : List Nat) (a7 : Bytes) (a8 : Nat) : (s.evRate a0 a1 a2 a3 a4 a5 a6 a7 a8).station = s.station := (evRate_keeps s a0 a1 a2 a3 a4 a5 a6 a7 a8).same .station rfl
@[simp] theorem evRate_freeCount (a0 : Nat) (a1 : Nat) (a2 : Nat) (a3 : Nat) (a4 : Nat) (a5 : Bytes) (a6 : List Nat) (a7 : Bytes) (a8 : Nat) : (s.evRate a0 a1 a2 a3 a4 a5 a6 a7 a8).freeCount = s.freeCount := (evRate_keeps s a0 a1 a2 a3 a4 a5 a6 a7 a8).same .freeCount rfl
@[simp] theorem evRate_timers (a0 : Nat) (a1 : Nat) (a2 : Nat) (a3 : Nat) (a4 : Nat) (a5 : Bytes) (a6 : List Nat) (a7 : Bytes) (a8 : Nat) : (s.evRate a0 a1 a2 a3 a4 a5 a6 a7 a8).timers = s.timers := (evRate_keeps s a0 a1 a2 a3 a4 a5 a6 a7 a8).same .timers rfl
@[simp] theorem evRate_sessions (a0 : Nat) (a1 : Nat) (a2 : Nat) (a3 : Nat) (a4 : Nat) (a5 : Bytes) (a6 : List Nat) (a7 : Bytes) (a8 : Nat) : (s.evRate a0 a1 a2 a3 a4 a5 a6 a7 a8).sessions = s.sessions := (evRate_keeps s a0 a1 a2 a3 a4 a5 a6 a7 a8).same .sessions rfl
@[simp] theorem evRate_lockouts (a0 : Nat) (a1 : Nat) (a2 : Nat) (a3 : Nat) (a4 : Nat) (a5 : Bytes) (a6 : List Nat) (a7 : Bytes) (a8 : Nat) : (s.evRate a0 a1 a2 a3 a4 a5 a6 a7 a8).lockouts = s.lockouts := (evRate_keeps s a0 a1 a2 a3 a4 a5 a6 a7 a8).same .lockouts rfl
@[simp] theorem evRate_sessionCounter (a0 : Nat) (a1 : Nat) (a2 : Nat) (a3 : Nat) (a4 : Nat) (a5 : Bytes) (a6 : List Nat) (a7 : Bytes) (a8 : Nat) : (s.evRate a0 a1 a2 a3 a4 a5 a6 a7 a8).sessionCounter = s.sessionCounter := (evRate_keeps s a0 a1 a2 a3 a4 a5 a6 a7 a8).same .sessionCounter rfl
@[simp] theorem evRate_cmds (a0 : Nat) (a1 : Nat) (a2 : Nat) (a3 : Nat) (a4 : Nat) (a5 : Bytes) (a6 : List Nat) (a7 : Bytes) (a8 : Nat) : (s.evRate a0 a1 a2 a3 a4 a5 a6 a7 a8).cmds = s.cmds := (evRate_keeps s a0 a1 a2 a3 a4 a5 a6 a7 a8).same .cmds rfl
@[simp] theorem evRate_canOpen (a0 : Nat) (a1 : Nat) (a2 : Nat) (a3 : Nat) (a4 : Nat) (a5 : Bytes) (a6 : List Nat) (a7 : Bytes) (a8 : Nat) : (s.evRate a0 a1 a2 a3 a4 a5 a6 a7 a8).canOpen = s.canOpen := (evRate_keeps s a0 a1 a2 a3 a4 a5 a6 a7 a8).same .canOpen rfl
@[simp] theorem evRate_modeHeld (a0 : Nat) (a1 : Nat) (a2 : Nat) (a3 : Nat) (a4 : Nat) (a5 : Bytes) (a6 : List Nat) (a7 : Bytes) (a8 : Nat) : (s.evRate a0 a1 a2 a3 a4 a5 a6 a7 a8).modeHeld = s.modeHeld := (evRate_keeps s a0 a1 a2 a3 a4 a5 a6 a7 a8).same .modeHeld rfl
@[simp] theorem evRate_stateHeld (a0 : Nat) (a1 : Nat) (a2 : Nat) (a3 : Nat) (a4 : Nat) (a5 : Bytes) (a6 : List Nat) (a7 : Bytes) (a8 : Nat) : (s.evRate a0 a1 a2 a3 a4 a5 a6 a7 a8).stateHeld = s.stateHeld := (evRate_keeps s a0 a1 a2 a3 a4 a5 a6 a7 a8).same .stateHeld rfl
@[simp] theorem evRate_trunks (a0 : Nat) (a1 : Nat) (a2 : Nat) (a3 : Nat) (a4 : Nat) (a5 : Bytes) (a6 : List Nat) (a7 : Bytes) (a8 : Nat) : (s.evRate a0 a1 a2 a3 a4 a5 a6 a7 a8).trunks = s.trunks := (evRate_keeps s a0 a1 a2 a3 a4 a5 a6 a7 a8).same .trunks rfl
@[simp] theorem evRate_tunnels (a0 : Nat) (a1 : Nat) (a2 : Nat) (a3 : Nat) (a4 : Nat) (a5 : Bytes) (a6 : List Nat) (a7 : Bytes) (a8 : Nat) : (s.evRate a0 a1 a2 a3 a4 a5 a6 a7 a8).tunnels = s.tunnels := (evRate_keeps s a0 a1 a2 a3 a4 a5 a6 a7 a8).same .tunnels rfl
@[simp] theorem evRate_fabric (a0 : Nat) (a1 : Nat) (a2 : Nat) (a3 : Nat) (a4 : Nat) (a5 : Bytes) (a6 : List Nat) (a7 : Bytes) (a8 : Nat) : (s.evRate a0 a1 a2 a3 a4 a5 a6 a7 a8).fabric = s.fabric := (evRate_keeps s a0 a1 a2 a3 a4 a5 a6 a7 a8).same .fabric rfl
@[simp] theorem evRate_scheds (a0 : Nat) (a1 : Nat) (a2 : Nat) (a3 : Nat) (a4 : Nat) (a5 : Bytes) (a6 : List Nat) (a7 : Bytes) (a8 : Nat) : (s.evRate a0 a1 a2 a3 a4 a5 a6 a7 a8).scheds = s.scheds := (evRate_keeps s a0 a1 a2 a3 a4 a5 a6 a7 a8).same .scheds rfl
@[simp] theorem evRate_disps (a0 : Nat) (a1 : Nat) (a2 : Nat) (a3 : Nat) (a4 : Nat) (a5 : Bytes) (a6 : List Nat) (a7 : Bytes) (a8 : Nat) : (s.evRate a0 a1 a2 a3 a4 a5 a6 a7 a8).disps = s.disps := (evRate_keeps s a0 a1 a2 a3 a4 a5 a6 a7 a8).same .disps rfl
@[simp] theorem evRate_usb (a0 : Nat) (a1 : Nat) (a2 : Nat) (a3 : Nat) (a4 : Nat) (a5 : Bytes) (a6 : List Nat) (a7 : Bytes) (a8 : Nat) : (s.evRate a0 a1 a2 a3 a4 a5 a6 a7 a8).usb = s.usb := (evRate_keeps s a0 a1 a2 a3 a4 a5 a6 a7 a8).same .usb rfl
@[simp] theorem evRate_svc (a0 : Nat) (a1 : Nat) (a2 : Nat) (a3 : Nat) (a4 : Nat) (a5 : Bytes) (a6 : List Nat) (a7 : Bytes) (a8 : Nat) : (s.evRate a0 a1 a2 a3 a4 a5 a6 a7 a8).svc = s.svc := (evRate_keeps s a0 a1 a2 a3 a4 a5 a6 a7 a8).same .svc rfl
@[simp] theorem evRate_pd (a0 : Nat) (a1 : Nat) (a2 : Nat) (a3 : Nat) (a4 : Nat) (a5 : Bytes) (a6 : List Nat) (a7 : Bytes) (a8 : Nat) : (s.evRate a0 a1 a2 a3 a4 a5 a6 a7 a8).pd = s.pd := (evRate_keeps s a0 a1 a2 a3 a4 a5 a6 a7 a8).same .pd rfl
@[simp] theorem evRate_time (a0 : Nat) (a1 : Nat) (a2 : Nat) (a3 : Nat) (a4 : Nat) (a5 : Bytes) (a6 : List Nat) (a7 : Bytes) (a8 : Nat) : (s.evRate a0 a1 a2 a3 a4 a5 a6 a7 a8).time = s.time := (evRate_keeps s a0 a1 a2 a3 a4 a5 a6 a7 a8).same .time rfl
@[simp] theorem evRate_eth (a0 : Nat) (a1 : Nat) (a2 : Nat) (a3 : Nat) (a4 : Nat) (a5 : Bytes) (a6 : List Nat) (a7 : Bytes) (a8 : Nat) : (s.evRate a0 a1 a2 a3 a4 a5 a6 a7 a8).eth = s.eth := (evRate_keeps s a0 a1 a2 a3 a4 a5 a6 a7 a8).same .eth rfl
@[simp] theorem evRate_pl (a0 : Nat) (a1 : Nat) (a2 : Nat) (a3 : Nat) (a4 : Nat) (a5 : Bytes) (a6 : List Nat) (a7 : Bytes) (a8 : Nat) : (s.evRate a0 a1 a2 a3 a4 a5 a6 a7 a8).pl = s.pl := (evRate_keeps s a0 a1 a2 a3 a4 a5 a6 a7 a8).same .pl rfl
@[simp] theorem evRate_stor (a0 : Nat) (a1 : Nat) (a2 : Nat) (a3 : Nat) (a4 : Nat) (a5 : Bytes) (a6 : List Nat) (a7 : Bytes) (a8 : Nat) : (s.evRate a0 a1 a2 a3 a4 a5 a6 a7 a8).stor = s.stor := (evRate_keeps s a0 a1 a2 a3 a4 a5 a6 a7 a8).same .stor rfl
@[simp] theorem evRate_dram (a0 : Nat) (a1 : Nat) (a2 : Nat) (a3 : Nat) (a4 : Nat) (a5 : Bytes) (a6 : List Nat) (a7 : Bytes) (a8 : Nat) : (s.evRate a0 a1 a2 a3 a4 a5 a6 a7 a8).dram = s.dram := (evRate_keeps s a0 a1 a2 a3 a4 a5 a6 a7 a8).same .dram rfl
@[simp] theorem evRate_fld (a0 : Nat) (a1 : Nat) (a2 : Nat) (a3 : Nat) (a4 : Nat) (a5 : Bytes) (a6 : List Nat) (a7 : Bytes) (a8 : Nat) : (s.evRate a0 a1 a2 a3 a4 a5 a6 a7 a8).fld = s.fld := (evRate_keeps s a0 a1 a2 a3 a4 a5 a6 a7 a8).same .fld rfl
@[simp] theorem evRate_canNode (a0 : Nat) (a1 : Nat) (a2 : Nat) (a3 : Nat) (a4 : Nat) (a5 : Bytes) (a6 : List Nat) (a7 : Bytes) (a8 : Nat) : (s.evRate a0 a1 a2 a3 a4 a5 a6 a7 a8).canNode = s.canNode := (evRate_keeps s a0 a1 a2 a3 a4 a5 a6 a7 a8).same .canNode rfl
@[simp] theorem evRate_keys (a0 : Nat) (a1 : Nat) (a2 : Nat) (a3 : Nat) (a4 : Nat) (a5 : Bytes) (a6 : List Nat) (a7 : Bytes) (a8 : Nat) : (s.evRate a0 a1 a2 a3 a4 a5 a6 a7 a8).keys = s.keys := (evRate_keeps s a0 a1 a2 a3 a4 a5 a6 a7 a8).same .keys rfl
@[simp] theorem evRate_secu (a0 : Nat) (a1 : Nat) (a2 : Nat) (a3 : Nat) (a4 : Nat) (a5 : Bytes) (a6 : List Nat) (a7 : Bytes) (a8 : Nat) : (s.evRate a0 a1 a2 a3 a4 a5 a6 a7 a8).secu = s.secu := (evRate_keeps s a0 a1 a2 a3 a4 a5 a6 a7 a8).same .secu rfl
@[simp] theorem evRate_power (a0 : Nat) (a1 : Nat) (a2 : Nat) (a3 : Nat) (a4 : Nat) (a5 : Bytes) (a6 : List Nat) (a7 : Bytes) (a8 : Nat) : (s.evRate a0 a1 a2 a3 a4 a5 a6 a7 a8).power = s.power := (evRate_keeps s a0 a1 a2 a3 a4 a5 a6 a7 a8).same .power rfl
@[simp] theorem evRate_app (a0 : Nat) (a1 : Nat) (a2 : Nat) (a3 : Nat) (a4 : Nat) (a5 : Bytes) (a6 : List Nat) (a7 : Bytes) (a8 : Nat) : (s.evRate a0 a1 a2 a3 a4 a5 a6 a7 a8).app = s.app := (evRate_keeps s a0 a1 a2 a3 a4 a5 a6 a7 a8).same .app rfl
@[simp] theorem evRate_safety (a0 : Nat) (a1 : Nat) (a2 : Nat) (a3 : Nat) (a4 : Nat) (a5 : Bytes) (a6 : List Nat) (a7 : Bytes) (a8 : Nat) : (s.evRate a0 a1 a2 a3 a4 a5 a6 a7 a8).safety = s.safety := (evRate_keeps s a0 a1 a2 a3 a4 a5 a6 a7 a8).same .safety rfl
@[simp] theorem evRate_boot (a0 : Nat) (a1 : Nat) (a2 : Nat) (a3 : Nat) (a4 : Nat) (a5 : Bytes) (a6 : List Nat) (a7 : Bytes) (a8 : Nat) : (s.evRate a0 a1 a2 a3 a4 a5 a6 a7 a8).boot = s.boot := (evRate_keeps s a0 a1 a2 a3 a4 a5 a6 a7 a8).same .boot rfl
@[simp] theorem evRate_part (a0 : Nat) (a1 : Nat) (a2 : Nat) (a3 : Nat) (a4 : Nat) (a5 : Bytes) (a6 : List Nat) (a7 : Bytes) (a8 : Nat) : (s.evRate a0 a1 a2 a3 a4 a5 a6 a7 a8).part = s.part := (evRate_keeps s a0 a1 a2 a3 a4 a5 a6 a7 a8).part
@[simp] theorem evRate_clock (a0 : Nat) (a1 : Nat) (a2 : Nat) (a3 : Nat) (a4 : Nat) (a5 : Bytes) (a6 : List Nat) (a7 : Bytes) (a8 : Nat) : (s.evRate a0 a1 a2 a3 a4 a5 a6 a7 a8).clock = s.clock := (evRate_keeps s a0 a1 a2 a3 a4 a5 a6 a7 a8).clock
@[simp] theorem evRate_pending (a0 : Nat) (a1 : Nat) (a2 : Nat) (a3 : Nat) (a4 : Nat) (a5 : Bytes) (a6 : List Nat) (a7 : Bytes) (a8 : Nat) : (s.evRate a0 a1 a2 a3 a4 a5 a6 a7 a8).pending = s.pending := (evRate_keeps s a0 a1 a2 a3 a4 a5 a6 a7 a8).pending
@[simp] theorem evRate_sent (a0 : Nat) (a1 : Nat) (a2 : Nat) (a3 : Nat) (a4 : Nat) (a5 : Bytes) (a6 : List Nat) (a7 : Bytes) (a8 : Nat) : (s.evRate a0 a1 a2 a3 a4 a5 a6 a7 a8).sent = s.sent := (evRate_keeps s a0 a1 a2 a3 a4 a5 a6 a7 a8).same .sent rfl

theorem evCycle_keeps (a0 : Nat) (a1 : Nat) (a2 : Nat) (a3 : Nat) (a4 : Nat) (a5 : Bytes) (a6 : List Nat) (a7 : Bytes) : Keeps (fun f => [.irq, .jour, .rates].contains f) s (s.evCycle a0 a1 a2 a3 a4 a5 a6 a7) :=
  (keeps_State_evCycle _ _ _ _ _ _ _ _ _ (Keeps.refl (fun f => [.irq, .jour, .rates].contains f) s) (fun _ h => h))
@[simp] theorem evCycle_head (a0 : Nat) (a1 : Nat) (a2 : Nat) (a3 : Nat) (a4 : Nat) (a5 : Bytes) (a6 : List Nat) (a7 : Bytes) : (s.evCycle a0 a1 a2 a3 a4 a5 a6 a7).head = s.head := (evCycle_keeps s a0 a1 a2 a3 a4 a5 a6 a7).same .head rfl
@[simp] theorem evCycle_objs (a0 : Nat) (a1 : Nat) (a2 : Nat) (a3 : Nat) (a4 : Nat) (a5 : Bytes) (a6 : List Nat) (a7 : Bytes) : (s.evCycle a0 a1 a2 a3 a4 a5 a6 a7).objs = s.objs := (evCycle_keeps s a0 a1 a2 a3 a4 a5 a6 a7).same .objs rfl
@[simp] theorem evCycle_strs (a0 : Nat) (a1 : Nat) (a2 : Nat) (a3 : Nat) (a4 : Nat) (a5 : Bytes) (a6 : List Nat) (a7 : Bytes) : (s.evCycle a0 a1 a2 a3 a4 a5 a6 a7).strs = s.strs := (evCycle_keeps s a0 a1 a2 a3 a4 a5 a6 a7).same .strs rfl
@[simp] theorem evCycle_station (a0 : Nat) (a1 : Nat) (a2 : Nat) (a3 : Nat) (a4 : Nat) (a5 : Bytes) (a6 : List Nat) (a7 : Bytes) : (s.evCycle a0 a1 a2 a3 a4 a5 a6 a7).station = s.station := (evCycle_keeps s a0 a1 a2 a3 a4 a5 a6 a7).same .station rfl
@[simp] theorem evCycle_freeCount (a0 : Nat) (a1 : Nat) (a2 : Nat) (a3 : Nat) (a4 : Nat) (a5 : Bytes) (a6 : List Nat) (a7 : Bytes) : (s.evCycle a0 a1 a2 a3 a4 a5 a6 a7).freeCount = s.freeCount := (evCycle_keeps s a0 a1 a2 a3 a4 a5 a6 a7).same .freeCount rfl
@[simp] theorem evCycle_timers (a0 : Nat) (a1 : Nat) (a2 : Nat) (a3 : Nat) (a4 : Nat) (a5 : Bytes) (a6 : List Nat) (a7 : Bytes) : (s.evCycle a0 a1 a2 a3 a4 a5 a6 a7).timers = s.timers := (evCycle_keeps s a0 a1 a2 a3 a4 a5 a6 a7).same .timers rfl
@[simp] theorem evCycle_sessions (a0 : Nat) (a1 : Nat) (a2 : Nat) (a3 : Nat) (a4 : Nat) (a5 : Bytes) (a6 : List Nat) (a7 : Bytes) : (s.evCycle a0 a1 a2 a3 a4 a5 a6 a7).sessions = s.sessions := (evCycle_keeps s a0 a1 a2 a3 a4 a5 a6 a7).same .sessions rfl
@[simp] theorem evCycle_lockouts (a0 : Nat) (a1 : Nat) (a2 : Nat) (a3 : Nat) (a4 : Nat) (a5 : Bytes) (a6 : List Nat) (a7 : Bytes) : (s.evCycle a0 a1 a2 a3 a4 a5 a6 a7).lockouts = s.lockouts := (evCycle_keeps s a0 a1 a2 a3 a4 a5 a6 a7).same .lockouts rfl
@[simp] theorem evCycle_sessionCounter (a0 : Nat) (a1 : Nat) (a2 : Nat) (a3 : Nat) (a4 : Nat) (a5 : Bytes) (a6 : List Nat) (a7 : Bytes) : (s.evCycle a0 a1 a2 a3 a4 a5 a6 a7).sessionCounter = s.sessionCounter := (evCycle_keeps s a0 a1 a2 a3 a4 a5 a6 a7).same .sessionCounter rfl
@[simp] theorem evCycle_cmds (a0 : Nat) (a1 : Nat) (a2 : Nat) (a3 : Nat) (a4 : Nat) (a5 : Bytes) (a6 : List Nat) (a7 : Bytes) : (s.evCycle a0 a1 a2 a3 a4 a5 a6 a7).cmds = s.cmds := (evCycle_keeps s a0 a1 a2 a3 a4 a5 a6 a7).same .cmds rfl
@[simp] theorem evCycle_canOpen (a0 : Nat) (a1 : Nat) (a2 : Nat) (a3 : Nat) (a4 : Nat) (a5 : Bytes) (a6 : List Nat) (a7 : Bytes) : (s.evCycle a0 a1 a2 a3 a4 a5 a6 a7).canOpen = s.canOpen := (evCycle_keeps s a0 a1 a2 a3 a4 a5 a6 a7).same .canOpen rfl
@[simp] theorem evCycle_modeHeld (a0 : Nat) (a1 : Nat) (a2 : Nat) (a3 : Nat) (a4 : Nat) (a5 : Bytes) (a6 : List Nat) (a7 : Bytes) : (s.evCycle a0 a1 a2 a3 a4 a5 a6 a7).modeHeld = s.modeHeld := (evCycle_keeps s a0 a1 a2 a3 a4 a5 a6 a7).same .modeHeld rfl
@[simp] theorem evCycle_stateHeld (a0 : Nat) (a1 : Nat) (a2 : Nat) (a3 : Nat) (a4 : Nat) (a5 : Bytes) (a6 : List Nat) (a7 : Bytes) : (s.evCycle a0 a1 a2 a3 a4 a5 a6 a7).stateHeld = s.stateHeld := (evCycle_keeps s a0 a1 a2 a3 a4 a5 a6 a7).same .stateHeld rfl
@[simp] theorem evCycle_trunks (a0 : Nat) (a1 : Nat) (a2 : Nat) (a3 : Nat) (a4 : Nat) (a5 : Bytes) (a6 : List Nat) (a7 : Bytes) : (s.evCycle a0 a1 a2 a3 a4 a5 a6 a7).trunks = s.trunks := (evCycle_keeps s a0 a1 a2 a3 a4 a5 a6 a7).same .trunks rfl
@[simp] theorem evCycle_tunnels (a0 : Nat) (a1 : Nat) (a2 : Nat) (a3 : Nat) (a4 : Nat) (a5 : Bytes) (a6 : List Nat) (a7 : Bytes) : (s.evCycle a0 a1 a2 a3 a4 a5 a6 a7).tunnels = s.tunnels := (evCycle_keeps s a0 a1 a2 a3 a4 a5 a6 a7).same .tunnels rfl
@[simp] theorem evCycle_fabric (a0 : Nat) (a1 : Nat) (a2 : Nat) (a3 : Nat) (a4 : Nat) (a5 : Bytes) (a6 : List Nat) (a7 : Bytes) : (s.evCycle a0 a1 a2 a3 a4 a5 a6 a7).fabric = s.fabric := (evCycle_keeps s a0 a1 a2 a3 a4 a5 a6 a7).same .fabric rfl
@[simp] theorem evCycle_scheds (a0 : Nat) (a1 : Nat) (a2 : Nat) (a3 : Nat) (a4 : Nat) (a5 : Bytes) (a6 : List Nat) (a7 : Bytes) : (s.evCycle a0 a1 a2 a3 a4 a5 a6 a7).scheds = s.scheds := (evCycle_keeps s a0 a1 a2 a3 a4 a5 a6 a7).same .scheds rfl
@[simp] theorem evCycle_disps (a0 : Nat) (a1 : Nat) (a2 : Nat) (a3 : Nat) (a4 : Nat) (a5 : Bytes) (a6 : List Nat) (a7 : Bytes) : (s.evCycle a0 a1 a2 a3 a4 a5 a6 a7).disps = s.disps := (evCycle_keeps s a0 a1 a2 a3 a4 a5 a6 a7).same .disps rfl
@[simp] theorem evCycle_usb (a0 : Nat) (a1 : Nat) (a2 : Nat) (a3 : Nat) (a4 : Nat) (a5 : Bytes) (a6 : List Nat) (a7 : Bytes) : (s.evCycle a0 a1 a2 a3 a4 a5 a6 a7).usb = s.usb := (evCycle_keeps s a0 a1 a2 a3 a4 a5 a6 a7).same .usb rfl
@[simp] theorem evCycle_svc (a0 : Nat) (a1 : Nat) (a2 : Nat) (a3 : Nat) (a4 : Nat) (a5 : Bytes) (a6 : List Nat) (a7 : Bytes) : (s.evCycle a0 a1 a2 a3 a4 a5 a6 a7).svc = s.svc := (evCycle_keeps s a0 a1 a2 a3 a4 a5 a6 a7).same .svc rfl
@[simp] theorem evCycle_pd (a0 : Nat) (a1 : Nat) (a2 : Nat) (a3 : Nat) (a4 : Nat) (a5 : Bytes) (a6 : List Nat) (a7 : Bytes) : (s.evCycle a0 a1 a2 a3 a4 a5 a6 a7).pd = s.pd := (evCycle_keeps s a0 a1 a2 a3 a4 a5 a6 a7).same .pd rfl
@[simp] theorem evCycle_time (a0 : Nat) (a1 : Nat) (a2 : Nat) (a3 : Nat) (a4 : Nat) (a5 : Bytes) (a6 : List Nat) (a7 : Bytes) : (s.evCycle a0 a1 a2 a3 a4 a5 a6 a7).time = s.time := (evCycle_keeps s a0 a1 a2 a3 a4 a5 a6 a7).same .time rfl
@[simp] theorem evCycle_eth (a0 : Nat) (a1 : Nat) (a2 : Nat) (a3 : Nat) (a4 : Nat) (a5 : Bytes) (a6 : List Nat) (a7 : Bytes) : (s.evCycle a0 a1 a2 a3 a4 a5 a6 a7).eth = s.eth := (evCycle_keeps s a0 a1 a2 a3 a4 a5 a6 a7).same .eth rfl
@[simp] theorem evCycle_pl (a0 : Nat) (a1 : Nat) (a2 : Nat) (a3 : Nat) (a4 : Nat) (a5 : Bytes) (a6 : List Nat) (a7 : Bytes) : (s.evCycle a0 a1 a2 a3 a4 a5 a6 a7).pl = s.pl := (evCycle_keeps s a0 a1 a2 a3 a4 a5 a6 a7).same .pl rfl
@[simp] theorem evCycle_stor (a0 : Nat) (a1 : Nat) (a2 : Nat) (a3 : Nat) (a4 : Nat) (a5 : Bytes) (a6 : List Nat) (a7 : Bytes) : (s.evCycle a0 a1 a2 a3 a4 a5 a6 a7).stor = s.stor := (evCycle_keeps s a0 a1 a2 a3 a4 a5 a6 a7).same .stor rfl
@[simp] theorem evCycle_dram (a0 : Nat) (a1 : Nat) (a2 : Nat) (a3 : Nat) (a4 : Nat) (a5 : Bytes) (a6 : List Nat) (a7 : Bytes) : (s.evCycle a0 a1 a2 a3 a4 a5 a6 a7).dram = s.dram := (evCycle_keeps s a0 a1 a2 a3 a4 a5 a6 a7).same .dram rfl
@[simp] theorem evCycle_fld (a0 : Nat) (a1 : Nat) (a2 : Nat) (a3 : Nat) (a4 : Nat) (a5 : Bytes) (a6 : List Nat) (a7 : Bytes) : (s.evCycle a0 a1 a2 a3 a4 a5 a6 a7).fld = s.fld := (evCycle_keeps s a0 a1 a2 a3 a4 a5 a6 a7).same .fld rfl
@[simp] theorem evCycle_canNode (a0 : Nat) (a1 : Nat) (a2 : Nat) (a3 : Nat) (a4 : Nat) (a5 : Bytes) (a6 : List Nat) (a7 : Bytes) : (s.evCycle a0 a1 a2 a3 a4 a5 a6 a7).canNode = s.canNode := (evCycle_keeps s a0 a1 a2 a3 a4 a5 a6 a7).same .canNode rfl
@[simp] theorem evCycle_keys (a0 : Nat) (a1 : Nat) (a2 : Nat) (a3 : Nat) (a4 : Nat) (a5 : Bytes) (a6 : List Nat) (a7 : Bytes) : (s.evCycle a0 a1 a2 a3 a4 a5 a6 a7).keys = s.keys := (evCycle_keeps s a0 a1 a2 a3 a4 a5 a6 a7).same .keys rfl
@[simp] theorem evCycle_secu (a0 : Nat) (a1 : Nat) (a2 : Nat) (a3 : Nat) (a4 : Nat) (a5 : Bytes) (a6 : List Nat) (a7 : Bytes) : (s.evCycle a0 a1 a2 a3 a4 a5 a6 a7).secu = s.secu := (evCycle_keeps s a0 a1 a2 a3 a4 a5 a6 a7).same .secu rfl
@[simp] theorem evCycle_power (a0 : Nat) (a1 : Nat) (a2 : Nat) (a3 : Nat) (a4 : Nat) (a5 : Bytes) (a6 : List Nat) (a7 : Bytes) : (s.evCycle a0 a1 a2 a3 a4 a5 a6 a7).power = s.power := (evCycle_keeps s a0 a1 a2 a3 a4 a5 a6 a7).same .power rfl
@[simp] theorem evCycle_app (a0 : Nat) (a1 : Nat) (a2 : Nat) (a3 : Nat) (a4 : Nat) (a5 : Bytes) (a6 : List Nat) (a7 : Bytes) : (s.evCycle a0 a1 a2 a3 a4 a5 a6 a7).app = s.app := (evCycle_keeps s a0 a1 a2 a3 a4 a5 a6 a7).same .app rfl
@[simp] theorem evCycle_safety (a0 : Nat) (a1 : Nat) (a2 : Nat) (a3 : Nat) (a4 : Nat) (a5 : Bytes) (a6 : List Nat) (a7 : Bytes) : (s.evCycle a0 a1 a2 a3 a4 a5 a6 a7).safety = s.safety := (evCycle_keeps s a0 a1 a2 a3 a4 a5 a6 a7).same .safety rfl
@[simp] theorem evCycle_boot (a0 : Nat) (a1 : Nat) (a2 : Nat) (a3 : Nat) (a4 : Nat) (a5 : Bytes) (a6 : List Nat) (a7 : Bytes) : (s.evCycle a0 a1 a2 a3 a4 a5 a6 a7).boot = s.boot := (evCycle_keeps s a0 a1 a2 a3 a4 a5 a6 a7).same .boot rfl
@[simp] theorem evCycle_part (a0 : Nat) (a1 : Nat) (a2 : Nat) (a3 : Nat) (a4 : Nat) (a5 : Bytes) (a6 : List Nat) (a7 : Bytes) : (s.evCycle a0 a1 a2 a3 a4 a5 a6 a7).part = s.part := (evCycle_keeps s a0 a1 a2 a3 a4 a5 a6 a7).part
@[simp] theorem evCycle_clock (a0 : Nat) (a1 : Nat) (a2 : Nat) (a3 : Nat) (a4 : Nat) (a5 : Bytes) (a6 : List Nat) (a7 : Bytes) : (s.evCycle a0 a1 a2 a3 a4 a5 a6 a7).clock = s.clock := (evCycle_keeps s a0 a1 a2 a3 a4 a5 a6 a7).clock
@[simp] theorem evCycle_pending (a0 : Nat) (a1 : Nat) (a2 : Nat) (a3 : Nat) (a4 : Nat) (a5 : Bytes) (a6 : List Nat) (a7 : Bytes) : (s.evCycle a0 a1 a2 a3 a4 a5 a6 a7).pending = s.pending := (evCycle_keeps s a0 a1 a2 a3 a4 a5 a6 a7).pending
@[simp] theorem evCycle_sent (a0 : Nat) (a1 : Nat) (a2 : Nat) (a3 : Nat) (a4 : Nat) (a5 : Bytes) (a6 : List Nat) (a7 : Bytes) : (s.evCycle a0 a1 a2 a3 a4 a5 a6 a7).sent = s.sent := (evCycle_keeps s a0 a1 a2 a3 a4 a5 a6 a7).same .sent rfl

theorem violate_keeps (a0 : Path) (a1 : Nat) (a2 : Nat) (a3 : Nat) : Keeps (fun f => [.objs, .irq, .jour].contains f) s (s.violate a0 a1 a2 a3) :=
  (keeps_State_violate _ _ _ _ _ (Keeps.refl (fun f => [.objs, .irq, .jour].contains f) s) (fun _ h => h))
@[simp] theorem violate_head (a0 : Path) (a1 : Nat) (a2 : Nat) (a3 : Nat) : (s.violate a0 a1 a2 a3).head = s.head := (violate_keeps s a0 a1 a2 a3).same .head rfl
@[simp] theorem violate_strs (a0 : Path) (a1 : Nat) (a2 : Nat) (a3 : Nat) : (s.violate a0 a1 a2 a3).strs = s.strs := (violate_keeps s a0 a1 a2 a3).same .strs rfl
@[simp] theorem violate_station (a0 : Path) (a1 : Nat) (a2 : Nat) (a3 : Nat) : (s.violate a0 a1 a2 a3).station = s.station := (violate_keeps s a0 a1 a2 a3).same .station rfl
@[simp] theorem violate_freeCount (a0 : Path) (a1 : Nat) (a2 : Nat) (a3 : Nat) : (s.violate a0 a1 a2 a3).freeCount = s.freeCount := (violate_keeps s a0 a1 a2 a3).same .freeCount rfl
@[simp] theorem violate_timers (a0 : Path) (a1 : Nat) (a2 : Nat) (a3 : Nat) : (s.violate a0 a1 a2 a3).timers = s.timers := (violate_keeps s a0 a1 a2 a3).same .timers rfl
@[simp] theorem violate_sessions (a0 : Path) (a1 : Nat) (a2 : Nat) (a3 : Nat) : (s.violate a0 a1 a2 a3).sessions = s.sessions := (violate_keeps s a0 a1 a2 a3).same .sessions rfl
@[simp] theorem violate_lockouts (a0 : Path) (a1 : Nat) (a2 : Nat) (a3 : Nat) : (s.violate a0 a1 a2 a3).lockouts = s.lockouts := (violate_keeps s a0 a1 a2 a3).same .lockouts rfl
@[simp] theorem violate_sessionCounter (a0 : Path) (a1 : Nat) (a2 : Nat) (a3 : Nat) : (s.violate a0 a1 a2 a3).sessionCounter = s.sessionCounter := (violate_keeps s a0 a1 a2 a3).same .sessionCounter rfl
@[simp] theorem violate_cmds (a0 : Path) (a1 : Nat) (a2 : Nat) (a3 : Nat) : (s.violate a0 a1 a2 a3).cmds = s.cmds := (violate_keeps s a0 a1 a2 a3).same .cmds rfl
@[simp] theorem violate_rates (a0 : Path) (a1 : Nat) (a2 : Nat) (a3 : Nat) : (s.violate a0 a1 a2 a3).rates = s.rates := (violate_keeps s a0 a1 a2 a3).same .rates rfl
@[simp] theorem violate_canOpen (a0 : Path) (a1 : Nat) (a2 : Nat) (a3 : Nat) : (s.violate a0 a1 a2 a3).canOpen = s.canOpen := (violate_keeps s a0 a1 a2 a3).same .canOpen rfl
@[simp] theorem violate_modeHeld (a0 : Path) (a1 : Nat) (a2 : Nat) (a3 : Nat) : (s.violate a0 a1 a2 a3).modeHeld = s.modeHeld := (violate_keeps s a0 a1 a2 a3).same .modeHeld rfl
@[simp] theorem violate_stateHeld (a0 : Path) (a1 : Nat) (a2 : Nat) (a3 : Nat) : (s.violate a0 a1 a2 a3).stateHeld = s.stateHeld := (violate_keeps s a0 a1 a2 a3).same .stateHeld rfl
@[simp] theorem violate_trunks (a0 : Path) (a1 : Nat) (a2 : Nat) (a3 : Nat) : (s.violate a0 a1 a2 a3).trunks = s.trunks := (violate_keeps s a0 a1 a2 a3).same .trunks rfl
@[simp] theorem violate_tunnels (a0 : Path) (a1 : Nat) (a2 : Nat) (a3 : Nat) : (s.violate a0 a1 a2 a3).tunnels = s.tunnels := (violate_keeps s a0 a1 a2 a3).same .tunnels rfl
@[simp] theorem violate_fabric (a0 : Path) (a1 : Nat) (a2 : Nat) (a3 : Nat) : (s.violate a0 a1 a2 a3).fabric = s.fabric := (violate_keeps s a0 a1 a2 a3).same .fabric rfl
@[simp] theorem violate_scheds (a0 : Path) (a1 : Nat) (a2 : Nat) (a3 : Nat) : (s.violate a0 a1 a2 a3).scheds = s.scheds := (violate_keeps s a0 a1 a2 a3).same .scheds rfl
@[simp] theorem violate_disps (a0 : Path) (a1 : Nat) (a2 : Nat) (a3 : Nat) : (s.violate a0 a1 a2 a3).disps = s.disps := (violate_keeps s a0 a1 a2 a3).same .disps rfl
@[simp] theorem violate_usb (a0 : Path) (a1 : Nat) (a2 : Nat) (a3 : Nat) : (s.violate a0 a1 a2 a3).usb = s.usb := (violate_keeps s a0 a1 a2 a3).same .usb rfl
@[simp] theorem violate_svc (a0 : Path) (a1 : Nat) (a2 : Nat) (a3 : Nat) : (s.violate a0 a1 a2 a3).svc = s.svc := (violate_keeps s a0 a1 a2 a3).same .svc rfl
@[simp] theorem violate_pd (a0 : Path) (a1 : Nat) (a2 : Nat) (a3 : Nat) : (s.violate a0 a1 a2 a3).pd = s.pd := (violate_keeps s a0 a1 a2 a3).same .pd rfl
@[simp] theorem violate_time (a0 : Path) (a1 : Nat) (a2 : Nat) (a3 : Nat) : (s.violate a0 a1 a2 a3).time = s.time := (violate_keeps s a0 a1 a2 a3).same .time rfl
@[simp] theorem violate_eth (a0 : Path) (a1 : Nat) (a2 : Nat) (a3 : Nat) : (s.violate a0 a1 a2 a3).eth = s.eth := (violate_keeps s a0 a1 a2 a3).same .eth rfl
@[simp] theorem violate_pl (a0 : Path) (a1 : Nat) (a2 : Nat) (a3 : Nat) : (s.violate a0 a1 a2 a3).pl = s.pl := (violate_keeps s a0 a1 a2 a3).same .pl rfl
@[simp] theorem violate_stor (a0 : Path) (a1 : Nat) (a2 : Nat) (a3 : Nat) : (s.violate a0 a1 a2 a3).stor = s.stor := (violate_keeps s a0 a1 a2 a3).same .stor rfl
@[simp] theorem violate_dram (a0 : Path) (a1 : Nat) (a2 : Nat) (a3 : Nat) : (s.violate a0 a1 a2 a3).dram = s.dram := (violate_keeps s a0 a1 a2 a3).same .dram rfl
@[simp] theorem violate_fld (a0 : Path) (a1 : Nat) (a2 : Nat) (a3 : Nat) : (s.violate a0 a1 a2 a3).fld = s.fld := (violate_keeps s a0 a1 a2 a3).same .fld rfl
@[simp] theorem violate_canNode (a0 : Path) (a1 : Nat) (a2 : Nat) (a3 : Nat) : (s.violate a0 a1 a2 a3).canNode = s.canNode := (violate_keeps s a0 a1 a2 a3).same .canNode rfl
@[simp] theorem violate_keys (a0 : Path) (a1 : Nat) (a2 : Nat) (a3 : Nat) : (s.violate a0 a1 a2 a3).keys = s.keys := (violate_keeps s a0 a1 a2 a3).same .keys rfl
@[simp] theorem violate_secu (a0 : Path) (a1 : Nat) (a2 : Nat) (a3 : Nat) : (s.violate a0 a1 a2 a3).secu = s.secu := (violate_keeps s a0 a1 a2 a3).same .secu rfl
@[simp] theorem violate_power (a0 : Path) (a1 : Nat) (a2 : Nat) (a3 : Nat) : (s.violate a0 a1 a2 a3).power = s.power := (violate_keeps s a0 a1 a2 a3).same .power rfl
@[simp] theorem violate_app (a0 : Path) (a1 : Nat) (a2 : Nat) (a3 : Nat) : (s.violate a0 a1 a2 a3).app = s.app := (violate_keeps s a0 a1 a2 a3).same .app rfl
@[simp] theorem violate_safety (a0 : Path) (a1 : Nat) (a2 : Nat) (a3 : Nat) : (s.violate a0 a1 a2 a3).safety = s.safety := (violate_keeps s a0 a1 a2 a3).same .safety rfl
@[simp] theorem violate_boot (a0 : Path) (a1 : Nat) (a2 : Nat) (a3 : Nat) : (s.violate a0 a1 a2 a3).boot = s.boot := (violate_keeps s a0 a1 a2 a3).same .boot rfl
@[simp] theorem violate_part (a0 : Path) (a1 : Nat) (a2 : Nat) (a3 : Nat) : (s.violate a0 a1 a2 a3).part = s.part := (violate_keeps s a0 a1 a2 a3).part
@[simp] theorem violate_clock (a0 : Path) (a1 : Nat) (a2 : Nat) (a3 : Nat) : (s.violate a0 a1 a2 a3).clock = s.clock := (violate_keeps s a0 a1 a2 a3).clock
@[simp] theorem violate_pending (a0 : Path) (a1 : Nat) (a2 : Nat) (a3 : Nat) : (s.violate a0 a1 a2 a3).pending = s.pending := (violate_keeps s a0 a1 a2 a3).pending
@[simp] theorem violate_sent (a0 : Path) (a1 : Nat) (a2 : Nat) (a3 : Nat) : (s.violate a0 a1 a2 a3).sent = s.sent := (violate_keeps s a0 a1 a2 a3).same .sent rfl

theorem cmdAccept_keeps (a0 : Nat) (a1 : Nat) (a2 : Path) : Keeps (fun f => [.objs, .cmds].contains f) s (s.cmdAccept a0 a1 a2) :=
  (keeps_State_cmdAccept _ _ _ _ (Keeps.refl (fun f => [.objs, .cmds].contains f) s) (fun _ h => h))
@[simp] theorem cmdAccept_head (a0 : Nat) (a1 : Nat) (a2 : Path) : (s.cmdAccept a0 a1 a2).head = s.head := (cmdAccept_keeps s a0 a1 a2).same .head rfl
@[simp] theorem cmdAccept_strs (a0 : Nat) (a1 : Nat) (a2 : Path) : (s.cmdAccept a0 a1 a2).strs = s.strs := (cmdAccept_keeps s a0 a1 a2).same .strs rfl
@[simp] theorem cmdAccept_station (a0 : Nat) (a1 : Nat) (a2 : Path) : (s.cmdAccept a0 a1 a2).station = s.station := (cmdAccept_keeps s a0 a1 a2).same .station rfl
@[simp] theorem cmdAccept_freeCount (a0 : Nat) (a1 : Nat) (a2 : Path) : (s.cmdAccept a0 a1 a2).freeCount = s.freeCount := (cmdAccept_keeps s a0 a1 a2).same .freeCount rfl
@[simp] theorem cmdAccept_timers (a0 : Nat) (a1 : Nat) (a2 : Path) : (s.cmdAccept a0 a1 a2).timers = s.timers := (cmdAccept_keeps s a0 a1 a2).same .timers rfl
@[simp] theorem cmdAccept_sessions (a0 : Nat) (a1 : Nat) (a2 : Path) : (s.cmdAccept a0 a1 a2).sessions = s.sessions := (cmdAccept_keeps s a0 a1 a2).same .sessions rfl
@[simp] theorem cmdAccept_lockouts (a0 : Nat) (a1 : Nat) (a2 : Path) : (s.cmdAccept a0 a1 a2).lockouts = s.lockouts := (cmdAccept_keeps s a0 a1 a2).same .lockouts rfl
@[simp] theorem cmdAccept_sessionCounter (a0 : Nat) (a1 : Nat) (a2 : Path) : (s.cmdAccept a0 a1 a2).sessionCounter = s.sessionCounter := (cmdAccept_keeps s a0 a1 a2).same .sessionCounter rfl
@[simp] theorem cmdAccept_irq (a0 : Nat) (a1 : Nat) (a2 : Path) : (s.cmdAccept a0 a1 a2).irq = s.irq := (cmdAccept_keeps s a0 a1 a2).same .irq rfl
@[simp] theorem cmdAccept_jour (a0 : Nat) (a1 : Nat) (a2 : Path) : (s.cmdAccept a0 a1 a2).jour = s.jour := (cmdAccept_keeps s a0 a1 a2).same .jour rfl
@[simp] theorem cmdAccept_rates (a0 : Nat) (a1 : Nat) (a2 : Path) : (s.cmdAccept a0 a1 a2).rates = s.rates := (cmdAccept_keeps s a0 a1 a2).same .rates rfl
@[simp] theorem cmdAccept_canOpen (a0 : Nat) (a1 : Nat) (a2 : Path) : (s.cmdAccept a0 a1 a2).canOpen = s.canOpen := (cmdAccept_keeps s a0 a1 a2).same .canOpen rfl
@[simp] theorem cmdAccept_modeHeld (a0 : Nat) (a1 : Nat) (a2 : Path) : (s.cmdAccept a0 a1 a2).modeHeld = s.modeHeld := (cmdAccept_keeps s a0 a1 a2).same .modeHeld rfl
@[simp] theorem cmdAccept_stateHeld (a0 : Nat) (a1 : Nat) (a2 : Path) : (s.cmdAccept a0 a1 a2).stateHeld = s.stateHeld := (cmdAccept_keeps s a0 a1 a2).same .stateHeld rfl
@[simp] theorem cmdAccept_trunks (a0 : Nat) (a1 : Nat) (a2 : Path) : (s.cmdAccept a0 a1 a2).trunks = s.trunks := (cmdAccept_keeps s a0 a1 a2).same .trunks rfl
@[simp] theorem cmdAccept_tunnels (a0 : Nat) (a1 : Nat) (a2 : Path) : (s.cmdAccept a0 a1 a2).tunnels = s.tunnels := (cmdAccept_keeps s a0 a1 a2).same .tunnels rfl
@[simp] theorem cmdAccept_fabric (a0 : Nat) (a1 : Nat) (a2 : Path) : (s.cmdAccept a0 a1 a2).fabric = s.fabric := (cmdAccept_keeps s a0 a1 a2).same .fabric rfl
@[simp] theorem cmdAccept_scheds (a0 : Nat) (a1 : Nat) (a2 : Path) : (s.cmdAccept a0 a1 a2).scheds = s.scheds := (cmdAccept_keeps s a0 a1 a2).same .scheds rfl
@[simp] theorem cmdAccept_disps (a0 : Nat) (a1 : Nat) (a2 : Path) : (s.cmdAccept a0 a1 a2).disps = s.disps := (cmdAccept_keeps s a0 a1 a2).same .disps rfl
@[simp] theorem cmdAccept_usb (a0 : Nat) (a1 : Nat) (a2 : Path) : (s.cmdAccept a0 a1 a2).usb = s.usb := (cmdAccept_keeps s a0 a1 a2).same .usb rfl
@[simp] theorem cmdAccept_svc (a0 : Nat) (a1 : Nat) (a2 : Path) : (s.cmdAccept a0 a1 a2).svc = s.svc := (cmdAccept_keeps s a0 a1 a2).same .svc rfl
@[simp] theorem cmdAccept_pd (a0 : Nat) (a1 : Nat) (a2 : Path) : (s.cmdAccept a0 a1 a2).pd = s.pd := (cmdAccept_keeps s a0 a1 a2).same .pd rfl
@[simp] theorem cmdAccept_time (a0 : Nat) (a1 : Nat) (a2 : Path) : (s.cmdAccept a0 a1 a2).time = s.time := (cmdAccept_keeps s a0 a1 a2).same .time rfl
@[simp] theorem cmdAccept_eth (a0 : Nat) (a1 : Nat) (a2 : Path) : (s.cmdAccept a0 a1 a2).eth = s.eth := (cmdAccept_keeps s a0 a1 a2).same .eth rfl
@[simp] theorem cmdAccept_pl (a0 : Nat) (a1 : Nat) (a2 : Path) : (s.cmdAccept a0 a1 a2).pl = s.pl := (cmdAccept_keeps s a0 a1 a2).same .pl rfl
@[simp] theorem cmdAccept_stor (a0 : Nat) (a1 : Nat) (a2 : Path) : (s.cmdAccept a0 a1 a2).stor = s.stor := (cmdAccept_keeps s a0 a1 a2).same .stor rfl
@[simp] theorem cmdAccept_dram (a0 : Nat) (a1 : Nat) (a2 : Path) : (s.cmdAccept a0 a1 a2).dram = s.dram := (cmdAccept_keeps s a0 a1 a2).same .dram rfl
@[simp] theorem cmdAccept_fld (a0 : Nat) (a1 : Nat) (a2 : Path) : (s.cmdAccept a0 a1 a2).fld = s.fld := (cmdAccept_keeps s a0 a1 a2).same .fld rfl
@[simp] theorem cmdAccept_canNode (a0 : Nat) (a1 : Nat) (a2 : Path) : (s.cmdAccept a0 a1 a2).canNode = s.canNode := (cmdAccept_keeps s a0 a1 a2).same .canNode rfl
@[simp] theorem cmdAccept_keys (a0 : Nat) (a1 : Nat) (a2 : Path) : (s.cmdAccept a0 a1 a2).keys = s.keys := (cmdAccept_keeps s a0 a1 a2).same .keys rfl
@[simp] theorem cmdAccept_secu (a0 : Nat) (a1 : Nat) (a2 : Path) : (s.cmdAccept a0 a1 a2).secu = s.secu := (cmdAccept_keeps s a0 a1 a2).same .secu rfl
@[simp] theorem cmdAccept_power (a0 : Nat) (a1 : Nat) (a2 : Path) : (s.cmdAccept a0 a1 a2).power = s.power := (cmdAccept_keeps s a0 a1 a2).same .power rfl
@[simp] theorem cmdAccept_app (a0 : Nat) (a1 : Nat) (a2 : Path) : (s.cmdAccept a0 a1 a2).app = s.app := (cmdAccept_keeps s a0 a1 a2).same .app rfl
@[simp] theorem cmdAccept_safety (a0 : Nat) (a1 : Nat) (a2 : Path) : (s.cmdAccept a0 a1 a2).safety = s.safety := (cmdAccept_keeps s a0 a1 a2).same .safety rfl
@[simp] theorem cmdAccept_boot (a0 : Nat) (a1 : Nat) (a2 : Path) : (s.cmdAccept a0 a1 a2).boot = s.boot := (cmdAccept_keeps s a0 a1 a2).same .boot rfl
@[simp] theorem cmdAccept_part (a0 : Nat) (a1 : Nat) (a2 : Path) : (s.cmdAccept a0 a1 a2).part = s.part := (cmdAccept_keeps s a0 a1 a2).part
@[simp] theorem cmdAccept_clock (a0 : Nat) (a1 : Nat) (a2 : Path) : (s.cmdAccept a0 a1 a2).clock = s.clock := (cmdAccept_keeps s a0 a1 a2).clock
@[simp] theorem cmdAccept_pending (a0 : Nat) (a1 : Nat) (a2 : Path) : (s.cmdAccept a0 a1 a2).pending = s.pending := (cmdAccept_keeps s a0 a1 a2).pending
@[simp] theorem cmdAccept_sent (a0 : Nat) (a1 : Nat) (a2 : Path) : (s.cmdAccept a0 a1 a2).sent = s.sent := (cmdAccept_keeps s a0 a1 a2).same .sent rfl

theorem cmdCommit_keeps (a0 : Nat) (a1 : Nat) : Keeps (fun f => [.objs, .irq, .jour].contains f) s (s.cmdCommit a0 a1) :=
  (keeps_State_cmdCommit _ _ _ (Keeps.refl (fun f => [.objs, .irq, .jour].contains f) s) (fun _ h => h))
@[simp] theorem cmdCommit_head (a0 : Nat) (a1 : Nat) : (s.cmdCommit a0 a1).head = s.head := (cmdCommit_keeps s a0 a1).same .head rfl
@[simp] theorem cmdCommit_strs (a0 : Nat) (a1 : Nat) : (s.cmdCommit a0 a1).strs = s.strs := (cmdCommit_keeps s a0 a1).same .strs rfl
@[simp] theorem cmdCommit_station (a0 : Nat) (a1 : Nat) : (s.cmdCommit a0 a1).station = s.station := (cmdCommit_keeps s a0 a1).same .station rfl
@[simp] theorem cmdCommit_freeCount (a0 : Nat) (a1 : Nat) : (s.cmdCommit a0 a1).freeCount = s.freeCount := (cmdCommit_keeps s a0 a1).same .freeCount rfl
@[simp] theorem cmdCommit_timers (a0 : Nat) (a1 : Nat) : (s.cmdCommit a0 a1).timers = s.timers := (cmdCommit_keeps s a0 a1).same .timers rfl
@[simp] theorem cmdCommit_sessions (a0 : Nat) (a1 : Nat) : (s.cmdCommit a0 a1).sessions = s.sessions := (cmdCommit_keeps s a0 a1).same .sessions rfl
@[simp] theorem cmdCommit_lockouts (a0 : Nat) (a1 : Nat) : (s.cmdCommit a0 a1).lockouts = s.lockouts := (cmdCommit_keeps s a0 a1).same .lockouts rfl
@[simp] theorem cmdCommit_sessionCounter (a0 : Nat) (a1 : Nat) : (s.cmdCommit a0 a1).sessionCounter = s.sessionCounter := (cmdCommit_keeps s a0 a1).same .sessionCounter rfl
@[simp] theorem cmdCommit_cmds (a0 : Nat) (a1 : Nat) : (s.cmdCommit a0 a1).cmds = s.cmds := (cmdCommit_keeps s a0 a1).same .cmds rfl
@[simp] theorem cmdCommit_rates (a0 : Nat) (a1 : Nat) : (s.cmdCommit a0 a1).rates = s.rates := (cmdCommit_keeps s a0 a1).same .rates rfl
@[simp] theorem cmdCommit_canOpen (a0 : Nat) (a1 : Nat) : (s.cmdCommit a0 a1).canOpen = s.canOpen := (cmdCommit_keeps s a0 a1).same .canOpen rfl
@[simp] theorem cmdCommit_modeHeld (a0 : Nat) (a1 : Nat) : (s.cmdCommit a0 a1).modeHeld = s.modeHeld := (cmdCommit_keeps s a0 a1).same .modeHeld rfl
@[simp] theorem cmdCommit_stateHeld (a0 : Nat) (a1 : Nat) : (s.cmdCommit a0 a1).stateHeld = s.stateHeld := (cmdCommit_keeps s a0 a1).same .stateHeld rfl
@[simp] theorem cmdCommit_trunks (a0 : Nat) (a1 : Nat) : (s.cmdCommit a0 a1).trunks = s.trunks := (cmdCommit_keeps s a0 a1).same .trunks rfl
@[simp] theorem cmdCommit_tunnels (a0 : Nat) (a1 : Nat) : (s.cmdCommit a0 a1).tunnels = s.tunnels := (cmdCommit_keeps s a0 a1).same .tunnels rfl
@[simp] theorem cmdCommit_fabric (a0 : Nat) (a1 : Nat) : (s.cmdCommit a0 a1).fabric = s.fabric := (cmdCommit_keeps s a0 a1).same .fabric rfl
@[simp] theorem cmdCommit_scheds (a0 : Nat) (a1 : Nat) : (s.cmdCommit a0 a1).scheds = s.scheds := (cmdCommit_keeps s a0 a1).same .scheds rfl
@[simp] theorem cmdCommit_disps (a0 : Nat) (a1 : Nat) : (s.cmdCommit a0 a1).disps = s.disps := (cmdCommit_keeps s a0 a1).same .disps rfl
@[simp] theorem cmdCommit_usb (a0 : Nat) (a1 : Nat) : (s.cmdCommit a0 a1).usb = s.usb := (cmdCommit_keeps s a0 a1).same .usb rfl
@[simp] theorem cmdCommit_svc (a0 : Nat) (a1 : Nat) : (s.cmdCommit a0 a1).svc = s.svc := (cmdCommit_keeps s a0 a1).same .svc rfl
@[simp] theorem cmdCommit_pd (a0 : Nat) (a1 : Nat) : (s.cmdCommit a0 a1).pd = s.pd := (cmdCommit_keeps s a0 a1).same .pd rfl
@[simp] theorem cmdCommit_time (a0 : Nat) (a1 : Nat) : (s.cmdCommit a0 a1).time = s.time := (cmdCommit_keeps s a0 a1).same .time rfl
@[simp] theorem cmdCommit_eth (a0 : Nat) (a1 : Nat) : (s.cmdCommit a0 a1).eth = s.eth := (cmdCommit_keeps s a0 a1).same .eth rfl
@[simp] theorem cmdCommit_pl (a0 : Nat) (a1 : Nat) : (s.cmdCommit a0 a1).pl = s.pl := (cmdCommit_keeps s a0 a1).same .pl rfl
@[simp] theorem cmdCommit_stor (a0 : Nat) (a1 : Nat) : (s.cmdCommit a0 a1).stor = s.stor := (cmdCommit_keeps s a0 a1).same .stor rfl
@[simp] theorem cmdCommit_dram (a0 : Nat) (a1 : Nat) : (s.cmdCommit a0 a1).dram = s.dram := (cmdCommit_keeps s a0 a1).same .dram rfl
@[simp] theorem cmdCommit_fld (a0 : Nat) (a1 : Nat) : (s.cmdCommit a0 a1).fld = s.fld := (cmdCommit_keeps s a0 a1).same .fld rfl
@[simp] theorem cmdCommit_canNode (a0 : Nat) (a1 : Nat) : (s.cmdCommit a0 a1).canNode = s.canNode := (cmdCommit_keeps s a0 a1).same .canNode rfl
@[simp] theorem cmdCommit_keys (a0 : Nat) (a1 : Nat) : (s.cmdCommit a0 a1).keys = s.keys := (cmdCommit_keeps s a0 a1).same .keys rfl
@[simp] theorem cmdCommit_secu (a0 : Nat) (a1 : Nat) : (s.cmdCommit a0 a1).secu = s.secu := (cmdCommit_keeps s a0 a1).same .secu rfl
@[simp] theorem cmdCommit_power (a0 : Nat) (a1 : Nat) : (s.cmdCommit a0 a1).power = s.power := (cmdCommit_keeps s a0 a1).same .power rfl
@[simp] theorem cmdCommit_app (a0 : Nat) (a1 : Nat) : (s.cmdCommit a0 a1).app = s.app := (cmdCommit_keeps s a0 a1).same .app rfl
@[simp] theorem cmdCommit_safety (a0 : Nat) (a1 : Nat) : (s.cmdCommit a0 a1).safety = s.safety := (cmdCommit_keeps s a0 a1).same .safety rfl
@[simp] theorem cmdCommit_boot (a0 : Nat) (a1 : Nat) : (s.cmdCommit a0 a1).boot = s.boot := (cmdCommit_keeps s a0 a1).same .boot rfl
@[simp] theorem cmdCommit_part (a0 : Nat) (a1 : Nat) : (s.cmdCommit a0 a1).part = s.part := (cmdCommit_keeps s a0 a1).part
@[simp] theorem cmdCommit_clock (a0 : Nat) (a1 : Nat) : (s.cmdCommit a0 a1).clock = s.clock := (cmdCommit_keeps s a0 a1).clock
@[simp] theorem cmdCommit_pending (a0 : Nat) (a1 : Nat) : (s.cmdCommit a0 a1).pending = s.pending := (cmdCommit_keeps s a0 a1).pending
@[simp] theorem cmdCommit_sent (a0 : Nat) (a1 : Nat) : (s.cmdCommit a0 a1).sent = s.sent := (cmdCommit_keeps s a0 a1).same .sent rfl

theorem cmdFail_keeps (a0 : Nat) (a1 : Nat) : Keeps (fun f => [.objs].contains f) s (s.cmdFail a0 a1) :=
  (keeps_State_cmdFail _ _ _ (Keeps.refl (fun f => [.objs].contains f) s) (fun _ h => h))
@[simp] theorem cmdFail_head (a0 : Nat) (a1 : Nat) : (s.cmdFail a0 a1).head = s.head := (cmdFail_keeps s a0 a1).same .head rfl
@[simp] theorem cmdFail_strs (a0 : Nat) (a1 : Nat) : (s.cmdFail a0 a1).strs = s.strs := (cmdFail_keeps s a0 a1).same .strs rfl
@[simp] theorem cmdFail_station (a0 : Nat) (a1 : Nat) : (s.cmdFail a0 a1).station = s.station := (cmdFail_keeps s a0 a1).same .station rfl
@[simp] theorem cmdFail_freeCount (a0 : Nat) (a1 : Nat) : (s.cmdFail a0 a1).freeCount = s.freeCount := (cmdFail_keeps s a0 a1).same .freeCount rfl
@[simp] theorem cmdFail_timers (a0 : Nat) (a1 : Nat) : (s.cmdFail a0 a1).timers = s.timers := (cmdFail_keeps s a0 a1).same .timers rfl
@[simp] theorem cmdFail_sessions (a0 : Nat) (a1 : Nat) : (s.cmdFail a0 a1).sessions = s.sessions := (cmdFail_keeps s a0 a1).same .sessions rfl
@[simp] theorem cmdFail_lockouts (a0 : Nat) (a1 : Nat) : (s.cmdFail a0 a1).lockouts = s.lockouts := (cmdFail_keeps s a0 a1).same .lockouts rfl
@[simp] theorem cmdFail_sessionCounter (a0 : Nat) (a1 : Nat) : (s.cmdFail a0 a1).sessionCounter = s.sessionCounter := (cmdFail_keeps s a0 a1).same .sessionCounter rfl
@[simp] theorem cmdFail_cmds (a0 : Nat) (a1 : Nat) : (s.cmdFail a0 a1).cmds = s.cmds := (cmdFail_keeps s a0 a1).same .cmds rfl
@[simp] theorem cmdFail_irq (a0 : Nat) (a1 : Nat) : (s.cmdFail a0 a1).irq = s.irq := (cmdFail_keeps s a0 a1).same .irq rfl
@[simp] theorem cmdFail_jour (a0 : Nat) (a1 : Nat) : (s.cmdFail a0 a1).jour = s.jour := (cmdFail_keeps s a0 a1).same .jour rfl
@[simp] theorem cmdFail_rates (a0 : Nat) (a1 : Nat) : (s.cmdFail a0 a1).rates = s.rates := (cmdFail_keeps s a0 a1).same .rates rfl
@[simp] theorem cmdFail_canOpen (a0 : Nat) (a1 : Nat) : (s.cmdFail a0 a1).canOpen = s.canOpen := (cmdFail_keeps s a0 a1).same .canOpen rfl
@[simp] theorem cmdFail_modeHeld (a0 : Nat) (a1 : Nat) : (s.cmdFail a0 a1).modeHeld = s.modeHeld := (cmdFail_keeps s a0 a1).same .modeHeld rfl
@[simp] theorem cmdFail_stateHeld (a0 : Nat) (a1 : Nat) : (s.cmdFail a0 a1).stateHeld = s.stateHeld := (cmdFail_keeps s a0 a1).same .stateHeld rfl
@[simp] theorem cmdFail_trunks (a0 : Nat) (a1 : Nat) : (s.cmdFail a0 a1).trunks = s.trunks := (cmdFail_keeps s a0 a1).same .trunks rfl
@[simp] theorem cmdFail_tunnels (a0 : Nat) (a1 : Nat) : (s.cmdFail a0 a1).tunnels = s.tunnels := (cmdFail_keeps s a0 a1).same .tunnels rfl
@[simp] theorem cmdFail_fabric (a0 : Nat) (a1 : Nat) : (s.cmdFail a0 a1).fabric = s.fabric := (cmdFail_keeps s a0 a1).same .fabric rfl
@[simp] theorem cmdFail_scheds (a0 : Nat) (a1 : Nat) : (s.cmdFail a0 a1).scheds = s.scheds := (cmdFail_keeps s a0 a1).same .scheds rfl
@[simp] theorem cmdFail_disps (a0 : Nat) (a1 : Nat) : (s.cmdFail a0 a1).disps = s.disps := (cmdFail_keeps s a0 a1).same .disps rfl
@[simp] theorem cmdFail_usb (a0 : Nat) (a1 : Nat) : (s.cmdFail a0 a1).usb = s.usb := (cmdFail_keeps s a0 a1).same .usb rfl
@[simp] theorem cmdFail_svc (a0 : Nat) (a1 : Nat) : (s.cmdFail a0 a1).svc = s.svc := (cmdFail_keeps s a0 a1).same .svc rfl
@[simp] theorem cmdFail_pd (a0 : Nat) (a1 : Nat) : (s.cmdFail a0 a1).pd = s.pd := (cmdFail_keeps s a0 a1).same .pd rfl
@[simp] theorem cmdFail_time (a0 : Nat) (a1 : Nat) : (s.cmdFail a0 a1).time = s.time := (cmdFail_keeps s a0 a1).same .time rfl
@[simp] theorem cmdFail_eth (a0 : Nat) (a1 : Nat) : (s.cmdFail a0 a1).eth = s.eth := (cmdFail_keeps s a0 a1).same .eth rfl
@[simp] theorem cmdFail_pl (a0 : Nat) (a1 : Nat) : (s.cmdFail a0 a1).pl = s.pl := (cmdFail_keeps s a0 a1).same .pl rfl
@[simp] theorem cmdFail_stor (a0 : Nat) (a1 : Nat) : (s.cmdFail a0 a1).stor = s.stor := (cmdFail_keeps s a0 a1).same .stor rfl
@[simp] theorem cmdFail_dram (a0 : Nat) (a1 : Nat) : (s.cmdFail a0 a1).dram = s.dram := (cmdFail_keeps s a0 a1).same .dram rfl
@[simp] theorem cmdFail_fld (a0 : Nat) (a1 : Nat) : (s.cmdFail a0 a1).fld = s.fld := (cmdFail_keeps s a0 a1).same .fld rfl
@[simp] theorem cmdFail_canNode (a0 : Nat) (a1 : Nat) : (s.cmdFail a0 a1).canNode = s.canNode := (cmdFail_keeps s a0 a1).same .canNode rfl
@[simp] theorem cmdFail_keys (a0 : Nat) (a1 : Nat) : (s.cmdFail a0 a1).keys = s.keys := (cmdFail_keeps s a0 a1).same .keys rfl
@[simp] theorem cmdFail_secu (a0 : Nat) (a1 : Nat) : (s.cmdFail a0 a1).secu = s.secu := (cmdFail_keeps s a0 a1).same .secu rfl
@[simp] theorem cmdFail_power (a0 : Nat) (a1 : Nat) : (s.cmdFail a0 a1).power = s.power := (cmdFail_keeps s a0 a1).same .power rfl
@[simp] theorem cmdFail_app (a0 : Nat) (a1 : Nat) : (s.cmdFail a0 a1).app = s.app := (cmdFail_keeps s a0 a1).same .app rfl
@[simp] theorem cmdFail_safety (a0 : Nat) (a1 : Nat) : (s.cmdFail a0 a1).safety = s.safety := (cmdFail_keeps s a0 a1).same .safety rfl
@[simp] theorem cmdFail_boot (a0 : Nat) (a1 : Nat) : (s.cmdFail a0 a1).boot = s.boot := (cmdFail_keeps s a0 a1).same .boot rfl
@[simp] theorem cmdFail_part (a0 : Nat) (a1 : Nat) : (s.cmdFail a0 a1).part = s.part := (cmdFail_keeps s a0 a1).part
@[simp] theorem cmdFail_clock (a0 : Nat) (a1 : Nat) : (s.cmdFail a0 a1).clock = s.clock := (cmdFail_keeps s a0 a1).clock
@[simp] theorem cmdFail_pending (a0 : Nat) (a1 : Nat) : (s.cmdFail a0 a1).pending = s.pending := (cmdFail_keeps s a0 a1).pending
@[simp] theorem cmdFail_sent (a0 : Nat) (a1 : Nat) : (s.cmdFail a0 a1).sent = s.sent := (cmdFail_keeps s a0 a1).same .sent rfl

theorem count_keeps (a0 : Nat) (a1 : Nat) : Keeps (fun f => [.objs].contains f) s (s.count a0 a1) :=
  (keeps_State_count _ _ _ (Keeps.refl (fun f => [.objs].contains f) s) (fun _ h => h))
@[simp] theorem count_head (a0 : Nat) (a1 : Nat) : (s.count a0 a1).head = s.head := (count_keeps s a0 a1).same .head rfl
@[simp] theorem count_strs (a0 : Nat) (a1 : Nat) : (s.count a0 a1).strs = s.strs := (count_keeps s a0 a1).same .strs rfl
@[simp] theorem count_station (a0 : Nat) (a1 : Nat) : (s.count a0 a1).station = s.station := (count_keeps s a0 a1).same .station rfl
@[simp] theorem count_freeCount (a0 : Nat) (a1 : Nat) : (s.count a0 a1).freeCount = s.freeCount := (count_keeps s a0 a1).same .freeCount rfl
@[simp] theorem count_timers (a0 : Nat) (a1 : Nat) : (s.count a0 a1).timers = s.timers := (count_keeps s a0 a1).same .timers rfl
@[simp] theorem count_sessions (a0 : Nat) (a1 : Nat) : (s.count a0 a1).sessions = s.sessions := (count_keeps s a0 a1).same .sessions rfl
@[simp] theorem count_lockouts (a0 : Nat) (a1 : Nat) : (s.count a0 a1).lockouts = s.lockouts := (count_keeps s a0 a1).same .lockouts rfl
@[simp] theorem count_sessionCounter (a0 : Nat) (a1 : Nat) : (s.count a0 a1).sessionCounter = s.sessionCounter := (count_keeps s a0 a1).same .sessionCounter rfl
@[simp] theorem count_cmds (a0 : Nat) (a1 : Nat) : (s.count a0 a1).cmds = s.cmds := (count_keeps s a0 a1).same .cmds rfl
@[simp] theorem count_irq (a0 : Nat) (a1 : Nat) : (s.count a0 a1).irq = s.irq := (count_keeps s a0 a1).same .irq rfl
@[simp] theorem count_jour (a0 : Nat) (a1 : Nat) : (s.count a0 a1).jour = s.jour := (count_keeps s a0 a1).same .jour rfl
@[simp] theorem count_rates (a0 : Nat) (a1 : Nat) : (s.count a0 a1).rates = s.rates := (count_keeps s a0 a1).same .rates rfl
@[simp] theorem count_canOpen (a0 : Nat) (a1 : Nat) : (s.count a0 a1).canOpen = s.canOpen := (count_keeps s a0 a1).same .canOpen rfl
@[simp] theorem count_modeHeld (a0 : Nat) (a1 : Nat) : (s.count a0 a1).modeHeld = s.modeHeld := (count_keeps s a0 a1).same .modeHeld rfl
@[simp] theorem count_stateHeld (a0 : Nat) (a1 : Nat) : (s.count a0 a1).stateHeld = s.stateHeld := (count_keeps s a0 a1).same .stateHeld rfl
@[simp] theorem count_trunks (a0 : Nat) (a1 : Nat) : (s.count a0 a1).trunks = s.trunks := (count_keeps s a0 a1).same .trunks rfl
@[simp] theorem count_tunnels (a0 : Nat) (a1 : Nat) : (s.count a0 a1).tunnels = s.tunnels := (count_keeps s a0 a1).same .tunnels rfl
@[simp] theorem count_fabric (a0 : Nat) (a1 : Nat) : (s.count a0 a1).fabric = s.fabric := (count_keeps s a0 a1).same .fabric rfl
@[simp] theorem count_scheds (a0 : Nat) (a1 : Nat) : (s.count a0 a1).scheds = s.scheds := (count_keeps s a0 a1).same .scheds rfl
@[simp] theorem count_disps (a0 : Nat) (a1 : Nat) : (s.count a0 a1).disps = s.disps := (count_keeps s a0 a1).same .disps rfl
@[simp] theorem count_usb (a0 : Nat) (a1 : Nat) : (s.count a0 a1).usb = s.usb := (count_keeps s a0 a1).same .usb rfl
@[simp] theorem count_svc (a0 : Nat) (a1 : Nat) : (s.count a0 a1).svc = s.svc := (count_keeps s a0 a1).same .svc rfl
@[simp] theorem count_pd (a0 : Nat) (a1 : Nat) : (s.count a0 a1).pd = s.pd := (count_keeps s a0 a1).same .pd rfl
@[simp] theorem count_time (a0 : Nat) (a1 : Nat) : (s.count a0 a1).time = s.time := (count_keeps s a0 a1).same .time rfl
@[simp] theorem count_eth (a0 : Nat) (a1 : Nat) : (s.count a0 a1).eth = s.eth := (count_keeps s a0 a1).same .eth rfl
@[simp] theorem count_pl (a0 : Nat) (a1 : Nat) : (s.count a0 a1).pl = s.pl := (count_keeps s a0 a1).same .pl rfl
@[simp] theorem count_stor (a0 : Nat) (a1 : Nat) : (s.count a0 a1).stor = s.stor := (count_keeps s a0 a1).same .stor rfl
@[simp] theorem count_dram (a0 : Nat) (a1 : Nat) : (s.count a0 a1).dram = s.dram := (count_keeps s a0 a1).same .dram rfl
@[simp] theorem count_fld (a0 : Nat) (a1 : Nat) : (s.count a0 a1).fld = s.fld := (count_keeps s a0 a1).same .fld rfl
@[simp] theorem count_canNode (a0 : Nat) (a1 : Nat) : (s.count a0 a1).canNode = s.canNode := (count_keeps s a0 a1).same .canNode rfl
@[simp] theorem count_keys (a0 : Nat) (a1 : Nat) : (s.count a0 a1).keys = s.keys := (count_keeps s a0 a1).same .keys rfl
@[simp] theorem count_secu (a0 : Nat) (a1 : Nat) : (s.count a0 a1).secu = s.secu := (count_keeps s a0 a1).same .secu rfl
@[simp] theorem count_power (a0 : Nat) (a1 : Nat) : (s.count a0 a1).power = s.power := (count_keeps s a0 a1).same .power rfl
@[simp] theorem count_app (a0 : Nat) (a1 : Nat) : (s.count a0 a1).app = s.app := (count_keeps s a0 a1).same .app rfl
@[simp] theorem count_safety (a0 : Nat) (a1 : Nat) : (s.count a0 a1).safety = s.safety := (count_keeps s a0 a1).same .safety rfl
@[simp] theorem count_boot (a0 : Nat) (a1 : Nat) : (s.count a0 a1).boot = s.boot := (count_keeps s a0 a1).same .boot rfl
@[simp] theorem count_part (a0 : Nat) (a1 : Nat) : (s.count a0 a1).part = s.part := (count_keeps s a0 a1).part
@[simp] theorem count_clock (a0 : Nat) (a1 : Nat) : (s.count a0 a1).clock = s.clock := (count_keeps s a0 a1).clock
@[simp] theorem count_pending (a0 : Nat) (a1 : Nat) : (s.count a0 a1).pending = s.pending := (count_keeps s a0 a1).pending
@[simp] theorem count_sent (a0 : Nat) (a1 : Nat) : (s.count a0 a1).sent = s.sent := (count_keeps s a0 a1).same .sent rfl

theorem countSat_keeps (a0 : Nat) (a1 : Nat) : Keeps (fun f => [.objs].contains f) s (s.countSat a0 a1) :=
  (keeps_State_countSat _ _ _ (Keeps.refl (fun f => [.objs].contains f) s) (fun _ h => h))
@[simp] theorem countSat_head (a0 : Nat) (a1 : Nat) : (s.countSat a0 a1).head = s.head := (countSat_keeps s a0 a1).same .head rfl
@[simp] theorem countSat_strs (a0 : Nat) (a1 : Nat) : (s.countSat a0 a1).strs = s.strs := (countSat_keeps s a0 a1).same .strs rfl
@[simp] theorem countSat_station (a0 : Nat) (a1 : Nat) : (s.countSat a0 a1).station = s.station := (countSat_keeps s a0 a1).same .station rfl
@[simp] theorem countSat_freeCount (a0 : Nat) (a1 : Nat) : (s.countSat a0 a1).freeCount = s.freeCount := (countSat_keeps s a0 a1).same .freeCount rfl
@[simp] theorem countSat_timers (a0 : Nat) (a1 : Nat) : (s.countSat a0 a1).timers = s.timers := (countSat_keeps s a0 a1).same .timers rfl
@[simp] theorem countSat_sessions (a0 : Nat) (a1 : Nat) : (s.countSat a0 a1).sessions = s.sessions := (countSat_keeps s a0 a1).same .sessions rfl
@[simp] theorem countSat_lockouts (a0 : Nat) (a1 : Nat) : (s.countSat a0 a1).lockouts = s.lockouts := (countSat_keeps s a0 a1).same .lockouts rfl
@[simp] theorem countSat_sessionCounter (a0 : Nat) (a1 : Nat) : (s.countSat a0 a1).sessionCounter = s.sessionCounter := (countSat_keeps s a0 a1).same .sessionCounter rfl
@[simp] theorem countSat_cmds (a0 : Nat) (a1 : Nat) : (s.countSat a0 a1).cmds = s.cmds := (countSat_keeps s a0 a1).same .cmds rfl
@[simp] theorem countSat_irq (a0 : Nat) (a1 : Nat) : (s.countSat a0 a1).irq = s.irq := (countSat_keeps s a0 a1).same .irq rfl
@[simp] theorem countSat_jour (a0 : Nat) (a1 : Nat) : (s.countSat a0 a1).jour = s.jour := (countSat_keeps s a0 a1).same .jour rfl
@[simp] theorem countSat_rates (a0 : Nat) (a1 : Nat) : (s.countSat a0 a1).rates = s.rates := (countSat_keeps s a0 a1).same .rates rfl
@[simp] theorem countSat_canOpen (a0 : Nat) (a1 : Nat) : (s.countSat a0 a1).canOpen = s.canOpen := (countSat_keeps s a0 a1).same .canOpen rfl
@[simp] theorem countSat_modeHeld (a0 : Nat) (a1 : Nat) : (s.countSat a0 a1).modeHeld = s.modeHeld := (countSat_keeps s a0 a1).same .modeHeld rfl
@[simp] theorem countSat_stateHeld (a0 : Nat) (a1 : Nat) : (s.countSat a0 a1).stateHeld = s.stateHeld := (countSat_keeps s a0 a1).same .stateHeld rfl
@[simp] theorem countSat_trunks (a0 : Nat) (a1 : Nat) : (s.countSat a0 a1).trunks = s.trunks := (countSat_keeps s a0 a1).same .trunks rfl
@[simp] theorem countSat_tunnels (a0 : Nat) (a1 : Nat) : (s.countSat a0 a1).tunnels = s.tunnels := (countSat_keeps s a0 a1).same .tunnels rfl
@[simp] theorem countSat_fabric (a0 : Nat) (a1 : Nat) : (s.countSat a0 a1).fabric = s.fabric := (countSat_keeps s a0 a1).same .fabric rfl
@[simp] theorem countSat_scheds (a0 : Nat) (a1 : Nat) : (s.countSat a0 a1).scheds = s.scheds := (countSat_keeps s a0 a1).same .scheds rfl
@[simp] theorem countSat_disps (a0 : Nat) (a1 : Nat) : (s.countSat a0 a1).disps = s.disps := (countSat_keeps s a0 a1).same .disps rfl
@[simp] theorem countSat_usb (a0 : Nat) (a1 : Nat) : (s.countSat a0 a1).usb = s.usb := (countSat_keeps s a0 a1).same .usb rfl
@[simp] theorem countSat_svc (a0 : Nat) (a1 : Nat) : (s.countSat a0 a1).svc = s.svc := (countSat_keeps s a0 a1).same .svc rfl
@[simp] theorem countSat_pd (a0 : Nat) (a1 : Nat) : (s.countSat a0 a1).pd = s.pd := (countSat_keeps s a0 a1).same .pd rfl
@[simp] theorem countSat_time (a0 : Nat) (a1 : Nat) : (s.countSat a0 a1).time = s.time := (countSat_keeps s a0 a1).same .time rfl
@[simp] theorem countSat_eth (a0 : Nat) (a1 : Nat) : (s.countSat a0 a1).eth = s.eth := (countSat_keeps s a0 a1).same .eth rfl
@[simp] theorem countSat_pl (a0 : Nat) (a1 : Nat) : (s.countSat a0 a1).pl = s.pl := (countSat_keeps s a0 a1).same .pl rfl
@[simp] theorem countSat_stor (a0 : Nat) (a1 : Nat) : (s.countSat a0 a1).stor = s.stor := (countSat_keeps s a0 a1).same .stor rfl
@[simp] theorem countSat_dram (a0 : Nat) (a1 : Nat) : (s.countSat a0 a1).dram = s.dram := (countSat_keeps s a0 a1).same .dram rfl
@[simp] theorem countSat_fld (a0 : Nat) (a1 : Nat) : (s.countSat a0 a1).fld = s.fld := (countSat_keeps s a0 a1).same .fld rfl
@[simp] theorem countSat_canNode (a0 : Nat) (a1 : Nat) : (s.countSat a0 a1).canNode = s.canNode := (countSat_keeps s a0 a1).same .canNode rfl
@[simp] theorem countSat_keys (a0 : Nat) (a1 : Nat) : (s.countSat a0 a1).keys = s.keys := (countSat_keeps s a0 a1).same .keys rfl
@[simp] theorem countSat_secu (a0 : Nat) (a1 : Nat) : (s.countSat a0 a1).secu = s.secu := (countSat_keeps s a0 a1).same .secu rfl
@[simp] theorem countSat_power (a0 : Nat) (a1 : Nat) : (s.countSat a0 a1).power = s.power := (countSat_keeps s a0 a1).same .power rfl
@[simp] theorem countSat_app (a0 : Nat) (a1 : Nat) : (s.countSat a0 a1).app = s.app := (countSat_keeps s a0 a1).same .app rfl
@[simp] theorem countSat_safety (a0 : Nat) (a1 : Nat) : (s.countSat a0 a1).safety = s.safety := (countSat_keeps s a0 a1).same .safety rfl
@[simp] theorem countSat_boot (a0 : Nat) (a1 : Nat) : (s.countSat a0 a1).boot = s.boot := (countSat_keeps s a0 a1).same .boot rfl
@[simp] theorem countSat_part (a0 : Nat) (a1 : Nat) : (s.countSat a0 a1).part = s.part := (countSat_keeps s a0 a1).part
@[simp] theorem countSat_clock (a0 : Nat) (a1 : Nat) : (s.countSat a0 a1).clock = s.clock := (countSat_keeps s a0 a1).clock
@[simp] theorem countSat_pending (a0 : Nat) (a1 : Nat) : (s.countSat a0 a1).pending = s.pending := (countSat_keeps s a0 a1).pending
@[simp] theorem countSat_sent (a0 : Nat) (a1 : Nat) : (s.countSat a0 a1).sent = s.sent := (countSat_keeps s a0 a1).same .sent rfl

theorem countWrap_keeps (a0 : Nat) (a1 : Nat) : Keeps (fun f => [.objs].contains f) s (s.countWrap a0 a1) :=
  (keeps_State_countWrap _ _ _ (Keeps.refl (fun f => [.objs].contains f) s) (fun _ h => h))
@[simp] theorem countWrap_head (a0 : Nat) (a1 : Nat) : (s.countWrap a0 a1).head = s.head := (countWrap_keeps s a0 a1).same .head rfl
@[simp] theorem countWrap_strs (a0 : Nat) (a1 : Nat) : (s.countWrap a0 a1).strs = s.strs := (countWrap_keeps s a0 a1).same .strs rfl
@[simp] theorem countWrap_station (a0 : Nat) (a1 : Nat) : (s.countWrap a0 a1).station = s.station := (countWrap_keeps s a0 a1).same .station rfl
@[simp] theorem countWrap_freeCount (a0 : Nat) (a1 : Nat) : (s.countWrap a0 a1).freeCount = s.freeCount := (countWrap_keeps s a0 a1).same .freeCount rfl
@[simp] theorem countWrap_timers (a0 : Nat) (a1 : Nat) : (s.countWrap a0 a1).timers = s.timers := (countWrap_keeps s a0 a1).same .timers rfl
@[simp] theorem countWrap_sessions (a0 : Nat) (a1 : Nat) : (s.countWrap a0 a1).sessions = s.sessions := (countWrap_keeps s a0 a1).same .sessions rfl
@[simp] theorem countWrap_lockouts (a0 : Nat) (a1 : Nat) : (s.countWrap a0 a1).lockouts = s.lockouts := (countWrap_keeps s a0 a1).same .lockouts rfl
@[simp] theorem countWrap_sessionCounter (a0 : Nat) (a1 : Nat) : (s.countWrap a0 a1).sessionCounter = s.sessionCounter := (countWrap_keeps s a0 a1).same .sessionCounter rfl
@[simp] theorem countWrap_cmds (a0 : Nat) (a1 : Nat) : (s.countWrap a0 a1).cmds = s.cmds := (countWrap_keeps s a0 a1).same .cmds rfl
@[simp] theorem countWrap_irq (a0 : Nat) (a1 : Nat) : (s.countWrap a0 a1).irq = s.irq := (countWrap_keeps s a0 a1).same .irq rfl
@[simp] theorem countWrap_jour (a0 : Nat) (a1 : Nat) : (s.countWrap a0 a1).jour = s.jour := (countWrap_keeps s a0 a1).same .jour rfl
@[simp] theorem countWrap_rates (a0 : Nat) (a1 : Nat) : (s.countWrap a0 a1).rates = s.rates := (countWrap_keeps s a0 a1).same .rates rfl
@[simp] theorem countWrap_canOpen (a0 : Nat) (a1 : Nat) : (s.countWrap a0 a1).canOpen = s.canOpen := (countWrap_keeps s a0 a1).same .canOpen rfl
@[simp] theorem countWrap_modeHeld (a0 : Nat) (a1 : Nat) : (s.countWrap a0 a1).modeHeld = s.modeHeld := (countWrap_keeps s a0 a1).same .modeHeld rfl
@[simp] theorem countWrap_stateHeld (a0 : Nat) (a1 : Nat) : (s.countWrap a0 a1).stateHeld = s.stateHeld := (countWrap_keeps s a0 a1).same .stateHeld rfl
@[simp] theorem countWrap_trunks (a0 : Nat) (a1 : Nat) : (s.countWrap a0 a1).trunks = s.trunks := (countWrap_keeps s a0 a1).same .trunks rfl
@[simp] theorem countWrap_tunnels (a0 : Nat) (a1 : Nat) : (s.countWrap a0 a1).tunnels = s.tunnels := (countWrap_keeps s a0 a1).same .tunnels rfl
@[simp] theorem countWrap_fabric (a0 : Nat) (a1 : Nat) : (s.countWrap a0 a1).fabric = s.fabric := (countWrap_keeps s a0 a1).same .fabric rfl
@[simp] theorem countWrap_scheds (a0 : Nat) (a1 : Nat) : (s.countWrap a0 a1).scheds = s.scheds := (countWrap_keeps s a0 a1).same .scheds rfl
@[simp] theorem countWrap_disps (a0 : Nat) (a1 : Nat) : (s.countWrap a0 a1).disps = s.disps := (countWrap_keeps s a0 a1).same .disps rfl
@[simp] theorem countWrap_usb (a0 : Nat) (a1 : Nat) : (s.countWrap a0 a1).usb = s.usb := (countWrap_keeps s a0 a1).same .usb rfl
@[simp] theorem countWrap_svc (a0 : Nat) (a1 : Nat) : (s.countWrap a0 a1).svc = s.svc := (countWrap_keeps s a0 a1).same .svc rfl
@[simp] theorem countWrap_pd (a0 : Nat) (a1 : Nat) : (s.countWrap a0 a1).pd = s.pd := (countWrap_keeps s a0 a1).same .pd rfl
@[simp] theorem countWrap_time (a0 : Nat) (a1 : Nat) : (s.countWrap a0 a1).time = s.time := (countWrap_keeps s a0 a1).same .time rfl
@[simp] theorem countWrap_eth (a0 : Nat) (a1 : Nat) : (s.countWrap a0 a1).eth = s.eth := (countWrap_keeps s a0 a1).same .eth rfl
@[simp] theorem countWrap_pl (a0 : Nat) (a1 : Nat) : (s.countWrap a0 a1).pl = s.pl := (countWrap_keeps s a0 a1).same .pl rfl
@[simp] theorem countWrap_stor (a0 : Nat) (a1 : Nat) : (s.countWrap a0 a1).stor = s.stor := (countWrap_keeps s a0 a1).same .stor rfl
@[simp] theorem countWrap_dram (a0 : Nat) (a1 : Nat) : (s.countWrap a0 a1).dram = s.dram := (countWrap_keeps s a0 a1).same .dram rfl
@[simp] theorem countWrap_fld (a0 : Nat) (a1 : Nat) : (s.countWrap a0 a1).fld = s.fld := (countWrap_keeps s a0 a1).same .fld rfl
@[simp] theorem countWrap_canNode (a0 : Nat) (a1 : Nat) : (s.countWrap a0 a1).canNode = s.canNode := (countWrap_keeps s a0 a1).same .canNode rfl
@[simp] theorem countWrap_keys (a0 : Nat) (a1 : Nat) : (s.countWrap a0 a1).keys = s.keys := (countWrap_keeps s a0 a1).same .keys rfl
@[simp] theorem countWrap_secu (a0 : Nat) (a1 : Nat) : (s.countWrap a0 a1).secu = s.secu := (countWrap_keeps s a0 a1).same .secu rfl
@[simp] theorem countWrap_power (a0 : Nat) (a1 : Nat) : (s.countWrap a0 a1).power = s.power := (countWrap_keeps s a0 a1).same .power rfl
@[simp] theorem countWrap_app (a0 : Nat) (a1 : Nat) : (s.countWrap a0 a1).app = s.app := (countWrap_keeps s a0 a1).same .app rfl
@[simp] theorem countWrap_safety (a0 : Nat) (a1 : Nat) : (s.countWrap a0 a1).safety = s.safety := (countWrap_keeps s a0 a1).same .safety rfl
@[simp] theorem countWrap_boot (a0 : Nat) (a1 : Nat) : (s.countWrap a0 a1).boot = s.boot := (countWrap_keeps s a0 a1).same .boot rfl
@[simp] theorem countWrap_part (a0 : Nat) (a1 : Nat) : (s.countWrap a0 a1).part = s.part := (countWrap_keeps s a0 a1).part
@[simp] theorem countWrap_clock (a0 : Nat) (a1 : Nat) : (s.countWrap a0 a1).clock = s.clock := (countWrap_keeps s a0 a1).clock
@[simp] theorem countWrap_pending (a0 : Nat) (a1 : Nat) : (s.countWrap a0 a1).pending = s.pending := (countWrap_keeps s a0 a1).pending
@[simp] theorem countWrap_sent (a0 : Nat) (a1 : Nat) : (s.countWrap a0 a1).sent = s.sent := (countWrap_keeps s a0 a1).same .sent rfl

theorem setAll_keeps (a0 : List (Nat × Nat)) : Keeps (fun f => [.objs].contains f) s (s.setAll a0) :=
  (keeps_State_setAll _ _ (Keeps.refl (fun f => [.objs].contains f) s) (fun _ h => h))
@[simp] theorem setAll_head (a0 : List (Nat × Nat)) : (s.setAll a0).head = s.head := (setAll_keeps s a0).same .head rfl
@[simp] theorem setAll_strs (a0 : List (Nat × Nat)) : (s.setAll a0).strs = s.strs := (setAll_keeps s a0).same .strs rfl
@[simp] theorem setAll_station (a0 : List (Nat × Nat)) : (s.setAll a0).station = s.station := (setAll_keeps s a0).same .station rfl
@[simp] theorem setAll_freeCount (a0 : List (Nat × Nat)) : (s.setAll a0).freeCount = s.freeCount := (setAll_keeps s a0).same .freeCount rfl
@[simp] theorem setAll_timers (a0 : List (Nat × Nat)) : (s.setAll a0).timers = s.timers := (setAll_keeps s a0).same .timers rfl
@[simp] theorem setAll_sessions (a0 : List (Nat × Nat)) : (s.setAll a0).sessions = s.sessions := (setAll_keeps s a0).same .sessions rfl
@[simp] theorem setAll_lockouts (a0 : List (Nat × Nat)) : (s.setAll a0).lockouts = s.lockouts := (setAll_keeps s a0).same .lockouts rfl
@[simp] theorem setAll_sessionCounter (a0 : List (Nat × Nat)) : (s.setAll a0).sessionCounter = s.sessionCounter := (setAll_keeps s a0).same .sessionCounter rfl
@[simp] theorem setAll_cmds (a0 : List (Nat × Nat)) : (s.setAll a0).cmds = s.cmds := (setAll_keeps s a0).same .cmds rfl
@[simp] theorem setAll_irq (a0 : List (Nat × Nat)) : (s.setAll a0).irq = s.irq := (setAll_keeps s a0).same .irq rfl
@[simp] theorem setAll_jour (a0 : List (Nat × Nat)) : (s.setAll a0).jour = s.jour := (setAll_keeps s a0).same .jour rfl
@[simp] theorem setAll_rates (a0 : List (Nat × Nat)) : (s.setAll a0).rates = s.rates := (setAll_keeps s a0).same .rates rfl
@[simp] theorem setAll_canOpen (a0 : List (Nat × Nat)) : (s.setAll a0).canOpen = s.canOpen := (setAll_keeps s a0).same .canOpen rfl
@[simp] theorem setAll_modeHeld (a0 : List (Nat × Nat)) : (s.setAll a0).modeHeld = s.modeHeld := (setAll_keeps s a0).same .modeHeld rfl
@[simp] theorem setAll_stateHeld (a0 : List (Nat × Nat)) : (s.setAll a0).stateHeld = s.stateHeld := (setAll_keeps s a0).same .stateHeld rfl
@[simp] theorem setAll_trunks (a0 : List (Nat × Nat)) : (s.setAll a0).trunks = s.trunks := (setAll_keeps s a0).same .trunks rfl
@[simp] theorem setAll_tunnels (a0 : List (Nat × Nat)) : (s.setAll a0).tunnels = s.tunnels := (setAll_keeps s a0).same .tunnels rfl
@[simp] theorem setAll_fabric (a0 : List (Nat × Nat)) : (s.setAll a0).fabric = s.fabric := (setAll_keeps s a0).same .fabric rfl
@[simp] theorem setAll_scheds (a0 : List (Nat × Nat)) : (s.setAll a0).scheds = s.scheds := (setAll_keeps s a0).same .scheds rfl
@[simp] theorem setAll_disps (a0 : List (Nat × Nat)) : (s.setAll a0).disps = s.disps := (setAll_keeps s a0).same .disps rfl
@[simp] theorem setAll_usb (a0 : List (Nat × Nat)) : (s.setAll a0).usb = s.usb := (setAll_keeps s a0).same .usb rfl
@[simp] theorem setAll_svc (a0 : List (Nat × Nat)) : (s.setAll a0).svc = s.svc := (setAll_keeps s a0).same .svc rfl
@[simp] theorem setAll_pd (a0 : List (Nat × Nat)) : (s.setAll a0).pd = s.pd := (setAll_keeps s a0).same .pd rfl
@[simp] theorem setAll_time (a0 : List (Nat × Nat)) : (s.setAll a0).time = s.time := (setAll_keeps s a0).same .time rfl
@[simp] theorem setAll_eth (a0 : List (Nat × Nat)) : (s.setAll a0).eth = s.eth := (setAll_keeps s a0).same .eth rfl
@[simp] theorem setAll_pl (a0 : List (Nat × Nat)) : (s.setAll a0).pl = s.pl := (setAll_keeps s a0).same .pl rfl
@[simp] theorem setAll_stor (a0 : List (Nat × Nat)) : (s.setAll a0).stor = s.stor := (setAll_keeps s a0).same .stor rfl
@[simp] theorem setAll_dram (a0 : List (Nat × Nat)) : (s.setAll a0).dram = s.dram := (setAll_keeps s a0).same .dram rfl
@[simp] theorem setAll_fld (a0 : List (Nat × Nat)) : (s.setAll a0).fld = s.fld := (setAll_keeps s a0).same .fld rfl
@[simp] theorem setAll_canNode (a0 : List (Nat × Nat)) : (s.setAll a0).canNode = s.canNode := (setAll_keeps s a0).same .canNode rfl
@[simp] theorem setAll_keys (a0 : List (Nat × Nat)) : (s.setAll a0).keys = s.keys := (setAll_keeps s a0).same .keys rfl
@[simp] theorem setAll_secu (a0 : List (Nat × Nat)) : (s.setAll a0).secu = s.secu := (setAll_keeps s a0).same .secu rfl
@[simp] theorem setAll_power (a0 : List (Nat × Nat)) : (s.setAll a0).power = s.power := (setAll_keeps s a0).same .power rfl
@[simp] theorem setAll_app (a0 : List (Nat × Nat)) : (s.setAll a0).app = s.app := (setAll_keeps s a0).same .app rfl
@[simp] theorem setAll_safety (a0 : List (Nat × Nat)) : (s.setAll a0).safety = s.safety := (setAll_keeps s a0).same .safety rfl
@[simp] theorem setAll_boot (a0 : List (Nat × Nat)) : (s.setAll a0).boot = s.boot := (setAll_keeps s a0).same .boot rfl
@[simp] theorem setAll_part (a0 : List (Nat × Nat)) : (s.setAll a0).part = s.part := (setAll_keeps s a0).part
@[simp] theorem setAll_clock (a0 : List (Nat × Nat)) : (s.setAll a0).clock = s.clock := (setAll_keeps s a0).clock
@[simp] theorem setAll_pending (a0 : List (Nat × Nat)) : (s.setAll a0).pending = s.pending := (setAll_keeps s a0).pending
@[simp] theorem setAll_sent (a0 : List (Nat × Nat)) : (s.setAll a0).sent = s.sent := (setAll_keeps s a0).same .sent rfl

theorem clear_keeps (a0 : List Nat) : Keeps (fun f => [.objs].contains f) s (s.clear a0) :=
  (keeps_State_clear _ _ (Keeps.refl (fun f => [.objs].contains f) s) (fun _ h => h))
@[simp] theorem clear_head (a0 : List Nat) : (s.clear a0).head = s.head := (clear_keeps s a0).same .head rfl
@[simp] theorem clear_strs (a0 : List Nat) : (s.clear a0).strs = s.strs := (clear_keeps s a0).same .strs rfl
@[simp] theorem clear_station (a0 : List Nat) : (s.clear a0).station = s.station := (clear_keeps s a0).same .station rfl
@[simp] theorem clear_freeCount (a0 : List Nat) : (s.clear a0).freeCount = s.freeCount := (clear_keeps s a0).same .freeCount rfl
@[simp] theorem clear_timers (a0 : List Nat) : (s.clear a0).timers = s.timers := (clear_keeps s a0).same .timers rfl
@[simp] theorem clear_sessions (a0 : List Nat) : (s.clear a0).sessions = s.sessions := (clear_keeps s a0).same .sessions rfl
@[simp] theorem clear_lockouts (a0 : List Nat) : (s.clear a0).lockouts = s.lockouts := (clear_keeps s a0).same .lockouts rfl
@[simp] theorem clear_sessionCounter (a0 : List Nat) : (s.clear a0).sessionCounter = s.sessionCounter := (clear_keeps s a0).same .sessionCounter rfl
@[simp] theorem clear_cmds (a0 : List Nat) : (s.clear a0).cmds = s.cmds := (clear_keeps s a0).same .cmds rfl
@[simp] theorem clear_irq (a0 : List Nat) : (s.clear a0).irq = s.irq := (clear_keeps s a0).same .irq rfl
@[simp] theorem clear_jour (a0 : List Nat) : (s.clear a0).jour = s.jour := (clear_keeps s a0).same .jour rfl
@[simp] theorem clear_rates (a0 : List Nat) : (s.clear a0).rates = s.rates := (clear_keeps s a0).same .rates rfl
@[simp] theorem clear_canOpen (a0 : List Nat) : (s.clear a0).canOpen = s.canOpen := (clear_keeps s a0).same .canOpen rfl
@[simp] theorem clear_modeHeld (a0 : List Nat) : (s.clear a0).modeHeld = s.modeHeld := (clear_keeps s a0).same .modeHeld rfl
@[simp] theorem clear_stateHeld (a0 : List Nat) : (s.clear a0).stateHeld = s.stateHeld := (clear_keeps s a0).same .stateHeld rfl
@[simp] theorem clear_trunks (a0 : List Nat) : (s.clear a0).trunks = s.trunks := (clear_keeps s a0).same .trunks rfl
@[simp] theorem clear_tunnels (a0 : List Nat) : (s.clear a0).tunnels = s.tunnels := (clear_keeps s a0).same .tunnels rfl
@[simp] theorem clear_fabric (a0 : List Nat) : (s.clear a0).fabric = s.fabric := (clear_keeps s a0).same .fabric rfl
@[simp] theorem clear_scheds (a0 : List Nat) : (s.clear a0).scheds = s.scheds := (clear_keeps s a0).same .scheds rfl
@[simp] theorem clear_disps (a0 : List Nat) : (s.clear a0).disps = s.disps := (clear_keeps s a0).same .disps rfl
@[simp] theorem clear_usb (a0 : List Nat) : (s.clear a0).usb = s.usb := (clear_keeps s a0).same .usb rfl
@[simp] theorem clear_svc (a0 : List Nat) : (s.clear a0).svc = s.svc := (clear_keeps s a0).same .svc rfl
@[simp] theorem clear_pd (a0 : List Nat) : (s.clear a0).pd = s.pd := (clear_keeps s a0).same .pd rfl
@[simp] theorem clear_time (a0 : List Nat) : (s.clear a0).time = s.time := (clear_keeps s a0).same .time rfl
@[simp] theorem clear_eth (a0 : List Nat) : (s.clear a0).eth = s.eth := (clear_keeps s a0).same .eth rfl
@[simp] theorem clear_pl (a0 : List Nat) : (s.clear a0).pl = s.pl := (clear_keeps s a0).same .pl rfl
@[simp] theorem clear_stor (a0 : List Nat) : (s.clear a0).stor = s.stor := (clear_keeps s a0).same .stor rfl
@[simp] theorem clear_dram (a0 : List Nat) : (s.clear a0).dram = s.dram := (clear_keeps s a0).same .dram rfl
@[simp] theorem clear_fld (a0 : List Nat) : (s.clear a0).fld = s.fld := (clear_keeps s a0).same .fld rfl
@[simp] theorem clear_canNode (a0 : List Nat) : (s.clear a0).canNode = s.canNode := (clear_keeps s a0).same .canNode rfl
@[simp] theorem clear_keys (a0 : List Nat) : (s.clear a0).keys = s.keys := (clear_keeps s a0).same .keys rfl
@[simp] theorem clear_secu (a0 : List Nat) : (s.clear a0).secu = s.secu := (clear_keeps s a0).same .secu rfl
@[simp] theorem clear_power (a0 : List Nat) : (s.clear a0).power = s.power := (clear_keeps s a0).same .power rfl
@[simp] theorem clear_app (a0 : List Nat) : (s.clear a0).app = s.app := (clear_keeps s a0).same .app rfl
@[simp] theorem clear_safety (a0 : List Nat) : (s.clear a0).safety = s.safety := (clear_keeps s a0).same .safety rfl
@[simp] theorem clear_boot (a0 : List Nat) : (s.clear a0).boot = s.boot := (clear_keeps s a0).same .boot rfl
@[simp] theorem clear_part (a0 : List Nat) : (s.clear a0).part = s.part := (clear_keeps s a0).part
@[simp] theorem clear_clock (a0 : List Nat) : (s.clear a0).clock = s.clock := (clear_keeps s a0).clock
@[simp] theorem clear_pending (a0 : List Nat) : (s.clear a0).pending = s.pending := (clear_keeps s a0).pending
@[simp] theorem clear_sent (a0 : List Nat) : (s.clear a0).sent = s.sent := (clear_keeps s a0).same .sent rfl

theorem danger_keeps (a0 : Nat) (a1 : Nat) (a2 : Nat) (a3 : Bytes) : Keeps (fun f => [.objs, .irq, .jour].contains f) s (s.danger a0 a1 a2 a3) :=
  (keeps_State_danger _ _ _ _ _ (Keeps.refl (fun f => [.objs, .irq, .jour].contains f) s) (fun _ h => h))
@[simp] theorem danger_head (a0 : Nat) (a1 : Nat) (a2 : Nat) (a3 : Bytes) : (s.danger a0 a1 a2 a3).head = s.head := (danger_keeps s a0 a1 a2 a3).same .head rfl
@[simp] theorem danger_strs (a0 : Nat) (a1 : Nat) (a2 : Nat) (a3 : Bytes) : (s.danger a0 a1 a2 a3).strs = s.strs := (danger_keeps s a0 a1 a2 a3).same .strs rfl
@[simp] theorem danger_station (a0 : Nat) (a1 : Nat) (a2 : Nat) (a3 : Bytes) : (s.danger a0 a1 a2 a3).station = s.station := (danger_keeps s a0 a1 a2 a3).same .station rfl
@[simp] theorem danger_freeCount (a0 : Nat) (a1 : Nat) (a2 : Nat) (a3 : Bytes) : (s.danger a0 a1 a2 a3).freeCount = s.freeCount := (danger_keeps s a0 a1 a2 a3).same .freeCount rfl
@[simp] theorem danger_timers (a0 : Nat) (a1 : Nat) (a2 : Nat) (a3 : Bytes) : (s.danger a0 a1 a2 a3).timers = s.timers := (danger_keeps s a0 a1 a2 a3).same .timers rfl
@[simp] theorem danger_sessions (a0 : Nat) (a1 : Nat) (a2 : Nat) (a3 : Bytes) : (s.danger a0 a1 a2 a3).sessions = s.sessions := (danger_keeps s a0 a1 a2 a3).same .sessions rfl
@[simp] theorem danger_lockouts (a0 : Nat) (a1 : Nat) (a2 : Nat) (a3 : Bytes) : (s.danger a0 a1 a2 a3).lockouts = s.lockouts := (danger_keeps s a0 a1 a2 a3).same .lockouts rfl
@[simp] theorem danger_sessionCounter (a0 : Nat) (a1 : Nat) (a2 : Nat) (a3 : Bytes) : (s.danger a0 a1 a2 a3).sessionCounter = s.sessionCounter := (danger_keeps s a0 a1 a2 a3).same .sessionCounter rfl
@[simp] theorem danger_cmds (a0 : Nat) (a1 : Nat) (a2 : Nat) (a3 : Bytes) : (s.danger a0 a1 a2 a3).cmds = s.cmds := (danger_keeps s a0 a1 a2 a3).same .cmds rfl
@[simp] theorem danger_rates (a0 : Nat) (a1 : Nat) (a2 : Nat) (a3 : Bytes) : (s.danger a0 a1 a2 a3).rates = s.rates := (danger_keeps s a0 a1 a2 a3).same .rates rfl
@[simp] theorem danger_canOpen (a0 : Nat) (a1 : Nat) (a2 : Nat) (a3 : Bytes) : (s.danger a0 a1 a2 a3).canOpen = s.canOpen := (danger_keeps s a0 a1 a2 a3).same .canOpen rfl
@[simp] theorem danger_modeHeld (a0 : Nat) (a1 : Nat) (a2 : Nat) (a3 : Bytes) : (s.danger a0 a1 a2 a3).modeHeld = s.modeHeld := (danger_keeps s a0 a1 a2 a3).same .modeHeld rfl
@[simp] theorem danger_stateHeld (a0 : Nat) (a1 : Nat) (a2 : Nat) (a3 : Bytes) : (s.danger a0 a1 a2 a3).stateHeld = s.stateHeld := (danger_keeps s a0 a1 a2 a3).same .stateHeld rfl
@[simp] theorem danger_trunks (a0 : Nat) (a1 : Nat) (a2 : Nat) (a3 : Bytes) : (s.danger a0 a1 a2 a3).trunks = s.trunks := (danger_keeps s a0 a1 a2 a3).same .trunks rfl
@[simp] theorem danger_tunnels (a0 : Nat) (a1 : Nat) (a2 : Nat) (a3 : Bytes) : (s.danger a0 a1 a2 a3).tunnels = s.tunnels := (danger_keeps s a0 a1 a2 a3).same .tunnels rfl
@[simp] theorem danger_fabric (a0 : Nat) (a1 : Nat) (a2 : Nat) (a3 : Bytes) : (s.danger a0 a1 a2 a3).fabric = s.fabric := (danger_keeps s a0 a1 a2 a3).same .fabric rfl
@[simp] theorem danger_scheds (a0 : Nat) (a1 : Nat) (a2 : Nat) (a3 : Bytes) : (s.danger a0 a1 a2 a3).scheds = s.scheds := (danger_keeps s a0 a1 a2 a3).same .scheds rfl
@[simp] theorem danger_disps (a0 : Nat) (a1 : Nat) (a2 : Nat) (a3 : Bytes) : (s.danger a0 a1 a2 a3).disps = s.disps := (danger_keeps s a0 a1 a2 a3).same .disps rfl
@[simp] theorem danger_usb (a0 : Nat) (a1 : Nat) (a2 : Nat) (a3 : Bytes) : (s.danger a0 a1 a2 a3).usb = s.usb := (danger_keeps s a0 a1 a2 a3).same .usb rfl
@[simp] theorem danger_svc (a0 : Nat) (a1 : Nat) (a2 : Nat) (a3 : Bytes) : (s.danger a0 a1 a2 a3).svc = s.svc := (danger_keeps s a0 a1 a2 a3).same .svc rfl
@[simp] theorem danger_pd (a0 : Nat) (a1 : Nat) (a2 : Nat) (a3 : Bytes) : (s.danger a0 a1 a2 a3).pd = s.pd := (danger_keeps s a0 a1 a2 a3).same .pd rfl
@[simp] theorem danger_time (a0 : Nat) (a1 : Nat) (a2 : Nat) (a3 : Bytes) : (s.danger a0 a1 a2 a3).time = s.time := (danger_keeps s a0 a1 a2 a3).same .time rfl
@[simp] theorem danger_eth (a0 : Nat) (a1 : Nat) (a2 : Nat) (a3 : Bytes) : (s.danger a0 a1 a2 a3).eth = s.eth := (danger_keeps s a0 a1 a2 a3).same .eth rfl
@[simp] theorem danger_pl (a0 : Nat) (a1 : Nat) (a2 : Nat) (a3 : Bytes) : (s.danger a0 a1 a2 a3).pl = s.pl := (danger_keeps s a0 a1 a2 a3).same .pl rfl
@[simp] theorem danger_stor (a0 : Nat) (a1 : Nat) (a2 : Nat) (a3 : Bytes) : (s.danger a0 a1 a2 a3).stor = s.stor := (danger_keeps s a0 a1 a2 a3).same .stor rfl
@[simp] theorem danger_dram (a0 : Nat) (a1 : Nat) (a2 : Nat) (a3 : Bytes) : (s.danger a0 a1 a2 a3).dram = s.dram := (danger_keeps s a0 a1 a2 a3).same .dram rfl
@[simp] theorem danger_fld (a0 : Nat) (a1 : Nat) (a2 : Nat) (a3 : Bytes) : (s.danger a0 a1 a2 a3).fld = s.fld := (danger_keeps s a0 a1 a2 a3).same .fld rfl
@[simp] theorem danger_canNode (a0 : Nat) (a1 : Nat) (a2 : Nat) (a3 : Bytes) : (s.danger a0 a1 a2 a3).canNode = s.canNode := (danger_keeps s a0 a1 a2 a3).same .canNode rfl
@[simp] theorem danger_keys (a0 : Nat) (a1 : Nat) (a2 : Nat) (a3 : Bytes) : (s.danger a0 a1 a2 a3).keys = s.keys := (danger_keeps s a0 a1 a2 a3).same .keys rfl
@[simp] theorem danger_secu (a0 : Nat) (a1 : Nat) (a2 : Nat) (a3 : Bytes) : (s.danger a0 a1 a2 a3).secu = s.secu := (danger_keeps s a0 a1 a2 a3).same .secu rfl
@[simp] theorem danger_power (a0 : Nat) (a1 : Nat) (a2 : Nat) (a3 : Bytes) : (s.danger a0 a1 a2 a3).power = s.power := (danger_keeps s a0 a1 a2 a3).same .power rfl
@[simp] theorem danger_app (a0 : Nat) (a1 : Nat) (a2 : Nat) (a3 : Bytes) : (s.danger a0 a1 a2 a3).app = s.app := (danger_keeps s a0 a1 a2 a3).same .app rfl
@[simp] theorem danger_safety (a0 : Nat) (a1 : Nat) (a2 : Nat) (a3 : Bytes) : (s.danger a0 a1 a2 a3).safety = s.safety := (danger_keeps s a0 a1 a2 a3).same .safety rfl
@[simp] theorem danger_boot (a0 : Nat) (a1 : Nat) (a2 : Nat) (a3 : Bytes) : (s.danger a0 a1 a2 a3).boot = s.boot := (danger_keeps s a0 a1 a2 a3).same .boot rfl
@[simp] theorem danger_part (a0 : Nat) (a1 : Nat) (a2 : Nat) (a3 : Bytes) : (s.danger a0 a1 a2 a3).part = s.part := (danger_keeps s a0 a1 a2 a3).part
@[simp] theorem danger_clock (a0 : Nat) (a1 : Nat) (a2 : Nat) (a3 : Bytes) : (s.danger a0 a1 a2 a3).clock = s.clock := (danger_keeps s a0 a1 a2 a3).clock
@[simp] theorem danger_pending (a0 : Nat) (a1 : Nat) (a2 : Nat) (a3 : Bytes) : (s.danger a0 a1 a2 a3).pending = s.pending := (danger_keeps s a0 a1 a2 a3).pending
@[simp] theorem danger_sent (a0 : Nat) (a1 : Nat) (a2 : Nat) (a3 : Bytes) : (s.danger a0 a1 a2 a3).sent = s.sent := (danger_keeps s a0 a1 a2 a3).same .sent rfl

theorem dangerCycle_keeps (a0 : Nat) (a1 : Nat) (a2 : Nat) (a3 : Nat) (a4 : Bytes) (a5 : List Nat) (a6 : Bytes) : Keeps (fun f => [.objs, .irq, .jour, .rates].contains f) s (s.dangerCycle a0 a1 a2 a3 a4 a5 a6) :=
  (keeps_State_dangerCycle _ _ _ _ _ _ _ _ (Keeps.refl (fun f => [.objs, .irq, .jour, .rates].contains f) s) (fun _ h => h))
@[simp] theorem dangerCycle_head (a0 : Nat) (a1 : Nat) (a2 : Nat) (a3 : Nat) (a4 : Bytes) (a5 : List Nat) (a6 : Bytes) : (s.dangerCycle a0 a1 a2 a3 a4 a5 a6).head = s.head := (dangerCycle_keeps s a0 a1 a2 a3 a4 a5 a6).same .head rfl
@[simp] theorem dangerCycle_strs (a0 : Nat) (a1 : Nat) (a2 : Nat) (a3 : Nat) (a4 : Bytes) (a5 : List Nat) (a6 : Bytes) : (s.dangerCycle a0 a1 a2 a3 a4 a5 a6).strs = s.strs := (dangerCycle_keeps s a0 a1 a2 a3 a4 a5 a6).same .strs rfl
@[simp] theorem dangerCycle_station (a0 : Nat) (a1 : Nat) (a2 : Nat) (a3 : Nat) (a4 : Bytes) (a5 : List Nat) (a6 : Bytes) : (s.dangerCycle a0 a1 a2 a3 a4 a5 a6).station = s.station := (dangerCycle_keeps s a0 a1 a2 a3 a4 a5 a6).same .station rfl
@[simp] theorem dangerCycle_freeCount (a0 : Nat) (a1 : Nat) (a2 : Nat) (a3 : Nat) (a4 : Bytes) (a5 : List Nat) (a6 : Bytes) : (s.dangerCycle a0 a1 a2 a3 a4 a5 a6).freeCount = s.freeCount := (dangerCycle_keeps s a0 a1 a2 a3 a4 a5 a6).same .freeCount rfl
@[simp] theorem dangerCycle_timers (a0 : Nat) (a1 : Nat) (a2 : Nat) (a3 : Nat) (a4 : Bytes) (a5 : List Nat) (a6 : Bytes) : (s.dangerCycle a0 a1 a2 a3 a4 a5 a6).timers = s.timers := (dangerCycle_keeps s a0 a1 a2 a3 a4 a5 a6).same .timers rfl
@[simp] theorem dangerCycle_sessions (a0 : Nat) (a1 : Nat) (a2 : Nat) (a3 : Nat) (a4 : Bytes) (a5 : List Nat) (a6 : Bytes) : (s.dangerCycle a0 a1 a2 a3 a4 a5 a6).sessions = s.sessions := (dangerCycle_keeps s a0 a1 a2 a3 a4 a5 a6).same .sessions rfl
@[simp] theorem dangerCycle_lockouts (a0 : Nat) (a1 : Nat) (a2 : Nat) (a3 : Nat) (a4 : Bytes) (a5 : List Nat) (a6 : Bytes) : (s.dangerCycle a0 a1 a2 a3 a4 a5 a6).lockouts = s.lockouts := (dangerCycle_keeps s a0 a1 a2 a3 a4 a5 a6).same .lockouts rfl
@[simp] theorem dangerCycle_sessionCounter (a0 : Nat) (a1 : Nat) (a2 : Nat) (a3 : Nat) (a4 : Bytes) (a5 : List Nat) (a6 : Bytes) : (s.dangerCycle a0 a1 a2 a3 a4 a5 a6).sessionCounter = s.sessionCounter := (dangerCycle_keeps s a0 a1 a2 a3 a4 a5 a6).same .sessionCounter rfl
@[simp] theorem dangerCycle_cmds (a0 : Nat) (a1 : Nat) (a2 : Nat) (a3 : Nat) (a4 : Bytes) (a5 : List Nat) (a6 : Bytes) : (s.dangerCycle a0 a1 a2 a3 a4 a5 a6).cmds = s.cmds := (dangerCycle_keeps s a0 a1 a2 a3 a4 a5 a6).same .cmds rfl
@[simp] theorem dangerCycle_canOpen (a0 : Nat) (a1 : Nat) (a2 : Nat) (a3 : Nat) (a4 : Bytes) (a5 : List Nat) (a6 : Bytes) : (s.dangerCycle a0 a1 a2 a3 a4 a5 a6).canOpen = s.canOpen := (dangerCycle_keeps s a0 a1 a2 a3 a4 a5 a6).same .canOpen rfl
@[simp] theorem dangerCycle_modeHeld (a0 : Nat) (a1 : Nat) (a2 : Nat) (a3 : Nat) (a4 : Bytes) (a5 : List Nat) (a6 : Bytes) : (s.dangerCycle a0 a1 a2 a3 a4 a5 a6).modeHeld = s.modeHeld := (dangerCycle_keeps s a0 a1 a2 a3 a4 a5 a6).same .modeHeld rfl
@[simp] theorem dangerCycle_stateHeld (a0 : Nat) (a1 : Nat) (a2 : Nat) (a3 : Nat) (a4 : Bytes) (a5 : List Nat) (a6 : Bytes) : (s.dangerCycle a0 a1 a2 a3 a4 a5 a6).stateHeld = s.stateHeld := (dangerCycle_keeps s a0 a1 a2 a3 a4 a5 a6).same .stateHeld rfl
@[simp] theorem dangerCycle_trunks (a0 : Nat) (a1 : Nat) (a2 : Nat) (a3 : Nat) (a4 : Bytes) (a5 : List Nat) (a6 : Bytes) : (s.dangerCycle a0 a1 a2 a3 a4 a5 a6).trunks = s.trunks := (dangerCycle_keeps s a0 a1 a2 a3 a4 a5 a6).same .trunks rfl
@[simp] theorem dangerCycle_tunnels (a0 : Nat) (a1 : Nat) (a2 : Nat) (a3 : Nat) (a4 : Bytes) (a5 : List Nat) (a6 : Bytes) : (s.dangerCycle a0 a1 a2 a3 a4 a5 a6).tunnels = s.tunnels := (dangerCycle_keeps s a0 a1 a2 a3 a4 a5 a6).same .tunnels rfl
@[simp] theorem dangerCycle_fabric (a0 : Nat) (a1 : Nat) (a2 : Nat) (a3 : Nat) (a4 : Bytes) (a5 : List Nat) (a6 : Bytes) : (s.dangerCycle a0 a1 a2 a3 a4 a5 a6).fabric = s.fabric := (dangerCycle_keeps s a0 a1 a2 a3 a4 a5 a6).same .fabric rfl
@[simp] theorem dangerCycle_scheds (a0 : Nat) (a1 : Nat) (a2 : Nat) (a3 : Nat) (a4 : Bytes) (a5 : List Nat) (a6 : Bytes) : (s.dangerCycle a0 a1 a2 a3 a4 a5 a6).scheds = s.scheds := (dangerCycle_keeps s a0 a1 a2 a3 a4 a5 a6).same .scheds rfl
@[simp] theorem dangerCycle_disps (a0 : Nat) (a1 : Nat) (a2 : Nat) (a3 : Nat) (a4 : Bytes) (a5 : List Nat) (a6 : Bytes) : (s.dangerCycle a0 a1 a2 a3 a4 a5 a6).disps = s.disps := (dangerCycle_keeps s a0 a1 a2 a3 a4 a5 a6).same .disps rfl
@[simp] theorem dangerCycle_usb (a0 : Nat) (a1 : Nat) (a2 : Nat) (a3 : Nat) (a4 : Bytes) (a5 : List Nat) (a6 : Bytes) : (s.dangerCycle a0 a1 a2 a3 a4 a5 a6).usb = s.usb := (dangerCycle_keeps s a0 a1 a2 a3 a4 a5 a6).same .usb rfl
@[simp] theorem dangerCycle_svc (a0 : Nat) (a1 : Nat) (a2 : Nat) (a3 : Nat) (a4 : Bytes) (a5 : List Nat) (a6 : Bytes) : (s.dangerCycle a0 a1 a2 a3 a4 a5 a6).svc = s.svc := (dangerCycle_keeps s a0 a1 a2 a3 a4 a5 a6).same .svc rfl
@[simp] theorem dangerCycle_pd (a0 : Nat) (a1 : Nat) (a2 : Nat) (a3 : Nat) (a4 : Bytes) (a5 : List Nat) (a6 : Bytes) : (s.dangerCycle a0 a1 a2 a3 a4 a5 a6).pd = s.pd := (dangerCycle_keeps s a0 a1 a2 a3 a4 a5 a6).same .pd rfl
@[simp] theorem dangerCycle_time (a0 : Nat) (a1 : Nat) (a2 : Nat) (a3 : Nat) (a4 : Bytes) (a5 : List Nat) (a6 : Bytes) : (s.dangerCycle a0 a1 a2 a3 a4 a5 a6).time = s.time := (dangerCycle_keeps s a0 a1 a2 a3 a4 a5 a6).same .time rfl
@[simp] theorem dangerCycle_eth (a0 : Nat) (a1 : Nat) (a2 : Nat) (a3 : Nat) (a4 : Bytes) (a5 : List Nat) (a6 : Bytes) : (s.dangerCycle a0 a1 a2 a3 a4 a5 a6).eth = s.eth := (dangerCycle_keeps s a0 a1 a2 a3 a4 a5 a6).same .eth rfl
@[simp] theorem dangerCycle_pl (a0 : Nat) (a1 : Nat) (a2 : Nat) (a3 : Nat) (a4 : Bytes) (a5 : List Nat) (a6 : Bytes) : (s.dangerCycle a0 a1 a2 a3 a4 a5 a6).pl = s.pl := (dangerCycle_keeps s a0 a1 a2 a3 a4 a5 a6).same .pl rfl
@[simp] theorem dangerCycle_stor (a0 : Nat) (a1 : Nat) (a2 : Nat) (a3 : Nat) (a4 : Bytes) (a5 : List Nat) (a6 : Bytes) : (s.dangerCycle a0 a1 a2 a3 a4 a5 a6).stor = s.stor := (dangerCycle_keeps s a0 a1 a2 a3 a4 a5 a6).same .stor rfl
@[simp] theorem dangerCycle_dram (a0 : Nat) (a1 : Nat) (a2 : Nat) (a3 : Nat) (a4 : Bytes) (a5 : List Nat) (a6 : Bytes) : (s.dangerCycle a0 a1 a2 a3 a4 a5 a6).dram = s.dram := (dangerCycle_keeps s a0 a1 a2 a3 a4 a5 a6).same .dram rfl
@[simp] theorem dangerCycle_fld (a0 : Nat) (a1 : Nat) (a2 : Nat) (a3 : Nat) (a4 : Bytes) (a5 : List Nat) (a6 : Bytes) : (s.dangerCycle a0 a1 a2 a3 a4 a5 a6).fld = s.fld := (dangerCycle_keeps s a0 a1 a2 a3 a4 a5 a6).same .fld rfl
@[simp] theorem dangerCycle_canNode (a0 : Nat) (a1 : Nat) (a2 : Nat) (a3 : Nat) (a4 : Bytes) (a5 : List Nat) (a6 : Bytes) : (s.dangerCycle a0 a1 a2 a3 a4 a5 a6).canNode = s.canNode := (dangerCycle_keeps s a0 a1 a2 a3 a4 a5 a6).same .canNode rfl
@[simp] theorem dangerCycle_keys (a0 : Nat) (a1 : Nat) (a2 : Nat) (a3 : Nat) (a4 : Bytes) (a5 : List Nat) (a6 : Bytes) : (s.dangerCycle a0 a1 a2 a3 a4 a5 a6).keys = s.keys := (dangerCycle_keeps s a0 a1 a2 a3 a4 a5 a6).same .keys rfl
@[simp] theorem dangerCycle_secu (a0 : Nat) (a1 : Nat) (a2 : Nat) (a3 : Nat) (a4 : Bytes) (a5 : List Nat) (a6 : Bytes) : (s.dangerCycle a0 a1 a2 a3 a4 a5 a6).secu = s.secu := (dangerCycle_keeps s a0 a1 a2 a3 a4 a5 a6).same .secu rfl
@[simp] theorem dangerCycle_power (a0 : Nat) (a1 : Nat) (a2 : Nat) (a3 : Nat) (a4 : Bytes) (a5 : List Nat) (a6 : Bytes) : (s.dangerCycle a0 a1 a2 a3 a4 a5 a6).power = s.power := (dangerCycle_keeps s a0 a1 a2 a3 a4 a5 a6).same .power rfl
@[simp] theorem dangerCycle_app (a0 : Nat) (a1 : Nat) (a2 : Nat) (a3 : Nat) (a4 : Bytes) (a5 : List Nat) (a6 : Bytes) : (s.dangerCycle a0 a1 a2 a3 a4 a5 a6).app = s.app := (dangerCycle_keeps s a0 a1 a2 a3 a4 a5 a6).same .app rfl
@[simp] theorem dangerCycle_safety (a0 : Nat) (a1 : Nat) (a2 : Nat) (a3 : Nat) (a4 : Bytes) (a5 : List Nat) (a6 : Bytes) : (s.dangerCycle a0 a1 a2 a3 a4 a5 a6).safety = s.safety := (dangerCycle_keeps s a0 a1 a2 a3 a4 a5 a6).same .safety rfl
@[simp] theorem dangerCycle_boot (a0 : Nat) (a1 : Nat) (a2 : Nat) (a3 : Nat) (a4 : Bytes) (a5 : List Nat) (a6 : Bytes) : (s.dangerCycle a0 a1 a2 a3 a4 a5 a6).boot = s.boot := (dangerCycle_keeps s a0 a1 a2 a3 a4 a5 a6).same .boot rfl
@[simp] theorem dangerCycle_part (a0 : Nat) (a1 : Nat) (a2 : Nat) (a3 : Nat) (a4 : Bytes) (a5 : List Nat) (a6 : Bytes) : (s.dangerCycle a0 a1 a2 a3 a4 a5 a6).part = s.part := (dangerCycle_keeps s a0 a1 a2 a3 a4 a5 a6).part
@[simp] theorem dangerCycle_clock (a0 : Nat) (a1 : Nat) (a2 : Nat) (a3 : Nat) (a4 : Bytes) (a5 : List Nat) (a6 : Bytes) : (s.dangerCycle a0 a1 a2 a3 a4 a5 a6).clock = s.clock := (dangerCycle_keeps s a0 a1 a2 a3 a4 a5 a6).clock
@[simp] theorem dangerCycle_pending (a0 : Nat) (a1 : Nat) (a2 : Nat) (a3 : Nat) (a4 : Bytes) (a5 : List Nat) (a6 : Bytes) : (s.dangerCycle a0 a1 a2 a3 a4 a5 a6).pending = s.pending := (dangerCycle_keeps s a0 a1 a2 a3 a4 a5 a6).pending
@[simp] theorem dangerCycle_sent (a0 : Nat) (a1 : Nat) (a2 : Nat) (a3 : Nat) (a4 : Bytes) (a5 : List Nat) (a6 : Bytes) : (s.dangerCycle a0 a1 a2 a3 a4 a5 a6).sent = s.sent := (dangerCycle_keeps s a0 a1 a2 a3 a4 a5 a6).same .sent rfl

theorem latchSf_keeps (a0 : Nat) : Keeps (fun f => [.objs, .irq, .jour, .sent, .safety].contains f) s (s.latchSf a0) :=
  (keeps_State_latchSf _ _ (Keeps.refl (fun f => [.objs, .irq, .jour, .sent, .safety].contains f) s) (fun _ h => h))
@[simp] theorem latchSf_head (a0 : Nat) : (s.latchSf a0).head = s.head := (latchSf_keeps s a0).same .head rfl
@[simp] theorem latchSf_strs (a0 : Nat) : (s.latchSf a0).strs = s.strs := (latchSf_keeps s a0).same .strs rfl
@[simp] theorem latchSf_station (a0 : Nat) : (s.latchSf a0).station = s.station := (latchSf_keeps s a0).same .station rfl
@[simp] theorem latchSf_freeCount (a0 : Nat) : (s.latchSf a0).freeCount = s.freeCount := (latchSf_keeps s a0).same .freeCount rfl
@[simp] theorem latchSf_timers (a0 : Nat) : (s.latchSf a0).timers = s.timers := (latchSf_keeps s a0).same .timers rfl
@[simp] theorem latchSf_sessions (a0 : Nat) : (s.latchSf a0).sessions = s.sessions := (latchSf_keeps s a0).same .sessions rfl
@[simp] theorem latchSf_lockouts (a0 : Nat) : (s.latchSf a0).lockouts = s.lockouts := (latchSf_keeps s a0).same .lockouts rfl
@[simp] theorem latchSf_sessionCounter (a0 : Nat) : (s.latchSf a0).sessionCounter = s.sessionCounter := (latchSf_keeps s a0).same .sessionCounter rfl
@[simp] theorem latchSf_cmds (a0 : Nat) : (s.latchSf a0).cmds = s.cmds := (latchSf_keeps s a0).same .cmds rfl
@[simp] theorem latchSf_rates (a0 : Nat) : (s.latchSf a0).rates = s.rates := (latchSf_keeps s a0).same .rates rfl
@[simp] theorem latchSf_canOpen (a0 : Nat) : (s.latchSf a0).canOpen = s.canOpen := (latchSf_keeps s a0).same .canOpen rfl
@[simp] theorem latchSf_modeHeld (a0 : Nat) : (s.latchSf a0).modeHeld = s.modeHeld := (latchSf_keeps s a0).same .modeHeld rfl
@[simp] theorem latchSf_stateHeld (a0 : Nat) : (s.latchSf a0).stateHeld = s.stateHeld := (latchSf_keeps s a0).same .stateHeld rfl
@[simp] theorem latchSf_trunks (a0 : Nat) : (s.latchSf a0).trunks = s.trunks := (latchSf_keeps s a0).same .trunks rfl
@[simp] theorem latchSf_tunnels (a0 : Nat) : (s.latchSf a0).tunnels = s.tunnels := (latchSf_keeps s a0).same .tunnels rfl
@[simp] theorem latchSf_fabric (a0 : Nat) : (s.latchSf a0).fabric = s.fabric := (latchSf_keeps s a0).same .fabric rfl
@[simp] theorem latchSf_scheds (a0 : Nat) : (s.latchSf a0).scheds = s.scheds := (latchSf_keeps s a0).same .scheds rfl
@[simp] theorem latchSf_disps (a0 : Nat) : (s.latchSf a0).disps = s.disps := (latchSf_keeps s a0).same .disps rfl
@[simp] theorem latchSf_usb (a0 : Nat) : (s.latchSf a0).usb = s.usb := (latchSf_keeps s a0).same .usb rfl
@[simp] theorem latchSf_svc (a0 : Nat) : (s.latchSf a0).svc = s.svc := (latchSf_keeps s a0).same .svc rfl
@[simp] theorem latchSf_pd (a0 : Nat) : (s.latchSf a0).pd = s.pd := (latchSf_keeps s a0).same .pd rfl
@[simp] theorem latchSf_time (a0 : Nat) : (s.latchSf a0).time = s.time := (latchSf_keeps s a0).same .time rfl
@[simp] theorem latchSf_eth (a0 : Nat) : (s.latchSf a0).eth = s.eth := (latchSf_keeps s a0).same .eth rfl
@[simp] theorem latchSf_pl (a0 : Nat) : (s.latchSf a0).pl = s.pl := (latchSf_keeps s a0).same .pl rfl
@[simp] theorem latchSf_stor (a0 : Nat) : (s.latchSf a0).stor = s.stor := (latchSf_keeps s a0).same .stor rfl
@[simp] theorem latchSf_dram (a0 : Nat) : (s.latchSf a0).dram = s.dram := (latchSf_keeps s a0).same .dram rfl
@[simp] theorem latchSf_fld (a0 : Nat) : (s.latchSf a0).fld = s.fld := (latchSf_keeps s a0).same .fld rfl
@[simp] theorem latchSf_canNode (a0 : Nat) : (s.latchSf a0).canNode = s.canNode := (latchSf_keeps s a0).same .canNode rfl
@[simp] theorem latchSf_keys (a0 : Nat) : (s.latchSf a0).keys = s.keys := (latchSf_keeps s a0).same .keys rfl
@[simp] theorem latchSf_secu (a0 : Nat) : (s.latchSf a0).secu = s.secu := (latchSf_keeps s a0).same .secu rfl
@[simp] theorem latchSf_power (a0 : Nat) : (s.latchSf a0).power = s.power := (latchSf_keeps s a0).same .power rfl
@[simp] theorem latchSf_app (a0 : Nat) : (s.latchSf a0).app = s.app := (latchSf_keeps s a0).same .app rfl
@[simp] theorem latchSf_boot (a0 : Nat) : (s.latchSf a0).boot = s.boot := (latchSf_keeps s a0).same .boot rfl
@[simp] theorem latchSf_part (a0 : Nat) : (s.latchSf a0).part = s.part := (latchSf_keeps s a0).part
@[simp] theorem latchSf_clock (a0 : Nat) : (s.latchSf a0).clock = s.clock := (latchSf_keeps s a0).clock
@[simp] theorem latchSf_pending (a0 : Nat) : (s.latchSf a0).pending = s.pending := (latchSf_keeps s a0).pending

theorem latchCommon_keeps (a0 : Nat) : Keeps (fun f => [.objs, .irq, .jour, .sent, .safety].contains f) s (s.latchCommon a0) :=
  (keeps_State_latchCommon _ _ (Keeps.refl (fun f => [.objs, .irq, .jour, .sent, .safety].contains f) s) (fun _ h => h))
@[simp] theorem latchCommon_head (a0 : Nat) : (s.latchCommon a0).head = s.head := (latchCommon_keeps s a0).same .head rfl
@[simp] theorem latchCommon_strs (a0 : Nat) : (s.latchCommon a0).strs = s.strs := (latchCommon_keeps s a0).same .strs rfl
@[simp] theorem latchCommon_station (a0 : Nat) : (s.latchCommon a0).station = s.station := (latchCommon_keeps s a0).same .station rfl
@[simp] theorem latchCommon_freeCount (a0 : Nat) : (s.latchCommon a0).freeCount = s.freeCount := (latchCommon_keeps s a0).same .freeCount rfl
@[simp] theorem latchCommon_timers (a0 : Nat) : (s.latchCommon a0).timers = s.timers := (latchCommon_keeps s a0).same .timers rfl
@[simp] theorem latchCommon_sessions (a0 : Nat) : (s.latchCommon a0).sessions = s.sessions := (latchCommon_keeps s a0).same .sessions rfl
@[simp] theorem latchCommon_lockouts (a0 : Nat) : (s.latchCommon a0).lockouts = s.lockouts := (latchCommon_keeps s a0).same .lockouts rfl
@[simp] theorem latchCommon_sessionCounter (a0 : Nat) : (s.latchCommon a0).sessionCounter = s.sessionCounter := (latchCommon_keeps s a0).same .sessionCounter rfl
@[simp] theorem latchCommon_cmds (a0 : Nat) : (s.latchCommon a0).cmds = s.cmds := (latchCommon_keeps s a0).same .cmds rfl
@[simp] theorem latchCommon_rates (a0 : Nat) : (s.latchCommon a0).rates = s.rates := (latchCommon_keeps s a0).same .rates rfl
@[simp] theorem latchCommon_canOpen (a0 : Nat) : (s.latchCommon a0).canOpen = s.canOpen := (latchCommon_keeps s a0).same .canOpen rfl
@[simp] theorem latchCommon_modeHeld (a0 : Nat) : (s.latchCommon a0).modeHeld = s.modeHeld := (latchCommon_keeps s a0).same .modeHeld rfl
@[simp] theorem latchCommon_stateHeld (a0 : Nat) : (s.latchCommon a0).stateHeld = s.stateHeld := (latchCommon_keeps s a0).same .stateHeld rfl
@[simp] theorem latchCommon_trunks (a0 : Nat) : (s.latchCommon a0).trunks = s.trunks := (latchCommon_keeps s a0).same .trunks rfl
@[simp] theorem latchCommon_tunnels (a0 : Nat) : (s.latchCommon a0).tunnels = s.tunnels := (latchCommon_keeps s a0).same .tunnels rfl
@[simp] theorem latchCommon_fabric (a0 : Nat) : (s.latchCommon a0).fabric = s.fabric := (latchCommon_keeps s a0).same .fabric rfl
@[simp] theorem latchCommon_scheds (a0 : Nat) : (s.latchCommon a0).scheds = s.scheds := (latchCommon_keeps s a0).same .scheds rfl
@[simp] theorem latchCommon_disps (a0 : Nat) : (s.latchCommon a0).disps = s.disps := (latchCommon_keeps s a0).same .disps rfl
@[simp] theorem latchCommon_usb (a0 : Nat) : (s.latchCommon a0).usb = s.usb := (latchCommon_keeps s a0).same .usb rfl
@[simp] theorem latchCommon_svc (a0 : Nat) : (s.latchCommon a0).svc = s.svc := (latchCommon_keeps s a0).same .svc rfl
@[simp] theorem latchCommon_pd (a0 : Nat) : (s.latchCommon a0).pd = s.pd := (latchCommon_keeps s a0).same .pd rfl
@[simp] theorem latchCommon_time (a0 : Nat) : (s.latchCommon a0).time = s.time := (latchCommon_keeps s a0).same .time rfl
@[simp] theorem latchCommon_eth (a0 : Nat) : (s.latchCommon a0).eth = s.eth := (latchCommon_keeps s a0).same .eth rfl
@[simp] theorem latchCommon_pl (a0 : Nat) : (s.latchCommon a0).pl = s.pl := (latchCommon_keeps s a0).same .pl rfl
@[simp] theorem latchCommon_stor (a0 : Nat) : (s.latchCommon a0).stor = s.stor := (latchCommon_keeps s a0).same .stor rfl
@[simp] theorem latchCommon_dram (a0 : Nat) : (s.latchCommon a0).dram = s.dram := (latchCommon_keeps s a0).same .dram rfl
@[simp] theorem latchCommon_fld (a0 : Nat) : (s.latchCommon a0).fld = s.fld := (latchCommon_keeps s a0).same .fld rfl
@[simp] theorem latchCommon_canNode (a0 : Nat) : (s.latchCommon a0).canNode = s.canNode := (latchCommon_keeps s a0).same .canNode rfl
@[simp] theorem latchCommon_keys (a0 : Nat) : (s.latchCommon a0).keys = s.keys := (latchCommon_keeps s a0).same .keys rfl
@[simp] theorem latchCommon_secu (a0 : Nat) : (s.latchCommon a0).secu = s.secu := (latchCommon_keeps s a0).same .secu rfl
@[simp] theorem latchCommon_power (a0 : Nat) : (s.latchCommon a0).power = s.power := (latchCommon_keeps s a0).same .power rfl
@[simp] theorem latchCommon_app (a0 : Nat) : (s.latchCommon a0).app = s.app := (latchCommon_keeps s a0).same .app rfl
@[simp] theorem latchCommon_boot (a0 : Nat) : (s.latchCommon a0).boot = s.boot := (latchCommon_keeps s a0).same .boot rfl
@[simp] theorem latchCommon_part (a0 : Nat) : (s.latchCommon a0).part = s.part := (latchCommon_keeps s a0).part
@[simp] theorem latchCommon_clock (a0 : Nat) : (s.latchCommon a0).clock = s.clock := (latchCommon_keeps s a0).clock
@[simp] theorem latchCommon_pending (a0 : Nat) : (s.latchCommon a0).pending = s.pending := (latchCommon_keeps s a0).pending

theorem pulse_keeps  : Keeps (fun f => [.objs, .irq, .jour, .sent, .safety].contains f) s (s.pulse ) :=
  (keeps_State_pulse _ (Keeps.refl (fun f => [.objs, .irq, .jour, .sent, .safety].contains f) s) (fun _ h => h))
@[simp] theorem pulse_head  : (s.pulse ).head = s.head := (pulse_keeps s ).same .head rfl
@[simp] theorem pulse_strs  : (s.pulse ).strs = s.strs := (pulse_keeps s ).same .strs rfl
@[simp] theorem pulse_station  : (s.pulse ).station = s.station := (pulse_keeps s ).same .station rfl
@[simp] theorem pulse_freeCount  : (s.pulse ).freeCount = s.freeCount := (pulse_keeps s ).same .freeCount rfl
@[simp] theorem pulse_timers  : (s.pulse ).timers = s.timers := (pulse_keeps s ).same .timers rfl
@[simp] theorem pulse_sessions  : (s.pulse ).sessions = s.sessions := (pulse_keeps s ).same .sessions rfl
@[simp] theorem pulse_lockouts  : (s.pulse ).lockouts = s.lockouts := (pulse_keeps s ).same .lockouts rfl
@[simp] theorem pulse_sessionCounter  : (s.pulse ).sessionCounter = s.sessionCounter := (pulse_keeps s ).same .sessionCounter rfl
@[simp] theorem pulse_cmds  : (s.pulse ).cmds = s.cmds := (pulse_keeps s ).same .cmds rfl
@[simp] theorem pulse_rates  : (s.pulse ).rates = s.rates := (pulse_keeps s ).same .rates rfl
@[simp] theorem pulse_canOpen  : (s.pulse ).canOpen = s.canOpen := (pulse_keeps s ).same .canOpen rfl
@[simp] theorem pulse_modeHeld  : (s.pulse ).modeHeld = s.modeHeld := (pulse_keeps s ).same .modeHeld rfl
@[simp] theorem pulse_stateHeld  : (s.pulse ).stateHeld = s.stateHeld := (pulse_keeps s ).same .stateHeld rfl
@[simp] theorem pulse_trunks  : (s.pulse ).trunks = s.trunks := (pulse_keeps s ).same .trunks rfl
@[simp] theorem pulse_tunnels  : (s.pulse ).tunnels = s.tunnels := (pulse_keeps s ).same .tunnels rfl
@[simp] theorem pulse_fabric  : (s.pulse ).fabric = s.fabric := (pulse_keeps s ).same .fabric rfl
@[simp] theorem pulse_scheds  : (s.pulse ).scheds = s.scheds := (pulse_keeps s ).same .scheds rfl
@[simp] theorem pulse_disps  : (s.pulse ).disps = s.disps := (pulse_keeps s ).same .disps rfl
@[simp] theorem pulse_usb  : (s.pulse ).usb = s.usb := (pulse_keeps s ).same .usb rfl
@[simp] theorem pulse_svc  : (s.pulse ).svc = s.svc := (pulse_keeps s ).same .svc rfl
@[simp] theorem pulse_pd  : (s.pulse ).pd = s.pd := (pulse_keeps s ).same .pd rfl
@[simp] theorem pulse_time  : (s.pulse ).time = s.time := (pulse_keeps s ).same .time rfl
@[simp] theorem pulse_eth  : (s.pulse ).eth = s.eth := (pulse_keeps s ).same .eth rfl
@[simp] theorem pulse_pl  : (s.pulse ).pl = s.pl := (pulse_keeps s ).same .pl rfl
@[simp] theorem pulse_stor  : (s.pulse ).stor = s.stor := (pulse_keeps s ).same .stor rfl
@[simp] theorem pulse_dram  : (s.pulse ).dram = s.dram := (pulse_keeps s ).same .dram rfl
@[simp] theorem pulse_fld  : (s.pulse ).fld = s.fld := (pulse_keeps s ).same .fld rfl
@[simp] theorem pulse_canNode  : (s.pulse ).canNode = s.canNode := (pulse_keeps s ).same .canNode rfl
@[simp] theorem pulse_keys  : (s.pulse ).keys = s.keys := (pulse_keeps s ).same .keys rfl
@[simp] theorem pulse_secu  : (s.pulse ).secu = s.secu := (pulse_keeps s ).same .secu rfl
@[simp] theorem pulse_power  : (s.pulse ).power = s.power := (pulse_keeps s ).same .power rfl
@[simp] theorem pulse_app  : (s.pulse ).app = s.app := (pulse_keeps s ).same .app rfl
@[simp] theorem pulse_boot  : (s.pulse ).boot = s.boot := (pulse_keeps s ).same .boot rfl
@[simp] theorem pulse_part  : (s.pulse ).part = s.part := (pulse_keeps s ).part
@[simp] theorem pulse_clock  : (s.pulse ).clock = s.clock := (pulse_keeps s ).clock
@[simp] theorem pulse_pending  : (s.pulse ).pending = s.pending := (pulse_keeps s ).pending

theorem memBad_keeps (a0 : Nat) (a1 : Nat) : Keeps (fun f => [.objs, .irq, .jour, .sent, .safety].contains f) s (s.memBad a0 a1) :=
  (keeps_State_memBad _ _ _ (Keeps.refl (fun f => [.objs, .irq, .jour, .sent, .safety].contains f) s) (fun _ h => h))
@[simp] theorem memBad_head (a0 : Nat) (a1 : Nat) : (s.memBad a0 a1).head = s.head := (memBad_keeps s a0 a1).same .head rfl
@[simp] theorem memBad_strs (a0 : Nat) (a1 : Nat) : (s.memBad a0 a1).strs = s.strs := (memBad_keeps s a0 a1).same .strs rfl
@[simp] theorem memBad_station (a0 : Nat) (a1 : Nat) : (s.memBad a0 a1).station = s.station := (memBad_keeps s a0 a1).same .station rfl
@[simp] theorem memBad_freeCount (a0 : Nat) (a1 : Nat) : (s.memBad a0 a1).freeCount = s.freeCount := (memBad_keeps s a0 a1).same .freeCount rfl
@[simp] theorem memBad_timers (a0 : Nat) (a1 : Nat) : (s.memBad a0 a1).timers = s.timers := (memBad_keeps s a0 a1).same .timers rfl
@[simp] theorem memBad_sessions (a0 : Nat) (a1 : Nat) : (s.memBad a0 a1).sessions = s.sessions := (memBad_keeps s a0 a1).same .sessions rfl
@[simp] theorem memBad_lockouts (a0 : Nat) (a1 : Nat) : (s.memBad a0 a1).lockouts = s.lockouts := (memBad_keeps s a0 a1).same .lockouts rfl
@[simp] theorem memBad_sessionCounter (a0 : Nat) (a1 : Nat) : (s.memBad a0 a1).sessionCounter = s.sessionCounter := (memBad_keeps s a0 a1).same .sessionCounter rfl
@[simp] theorem memBad_cmds (a0 : Nat) (a1 : Nat) : (s.memBad a0 a1).cmds = s.cmds := (memBad_keeps s a0 a1).same .cmds rfl
@[simp] theorem memBad_rates (a0 : Nat) (a1 : Nat) : (s.memBad a0 a1).rates = s.rates := (memBad_keeps s a0 a1).same .rates rfl
@[simp] theorem memBad_canOpen (a0 : Nat) (a1 : Nat) : (s.memBad a0 a1).canOpen = s.canOpen := (memBad_keeps s a0 a1).same .canOpen rfl
@[simp] theorem memBad_modeHeld (a0 : Nat) (a1 : Nat) : (s.memBad a0 a1).modeHeld = s.modeHeld := (memBad_keeps s a0 a1).same .modeHeld rfl
@[simp] theorem memBad_stateHeld (a0 : Nat) (a1 : Nat) : (s.memBad a0 a1).stateHeld = s.stateHeld := (memBad_keeps s a0 a1).same .stateHeld rfl
@[simp] theorem memBad_trunks (a0 : Nat) (a1 : Nat) : (s.memBad a0 a1).trunks = s.trunks := (memBad_keeps s a0 a1).same .trunks rfl
@[simp] theorem memBad_tunnels (a0 : Nat) (a1 : Nat) : (s.memBad a0 a1).tunnels = s.tunnels := (memBad_keeps s a0 a1).same .tunnels rfl
@[simp] theorem memBad_fabric (a0 : Nat) (a1 : Nat) : (s.memBad a0 a1).fabric = s.fabric := (memBad_keeps s a0 a1).same .fabric rfl
@[simp] theorem memBad_scheds (a0 : Nat) (a1 : Nat) : (s.memBad a0 a1).scheds = s.scheds := (memBad_keeps s a0 a1).same .scheds rfl
@[simp] theorem memBad_disps (a0 : Nat) (a1 : Nat) : (s.memBad a0 a1).disps = s.disps := (memBad_keeps s a0 a1).same .disps rfl
@[simp] theorem memBad_usb (a0 : Nat) (a1 : Nat) : (s.memBad a0 a1).usb = s.usb := (memBad_keeps s a0 a1).same .usb rfl
@[simp] theorem memBad_svc (a0 : Nat) (a1 : Nat) : (s.memBad a0 a1).svc = s.svc := (memBad_keeps s a0 a1).same .svc rfl
@[simp] theorem memBad_pd (a0 : Nat) (a1 : Nat) : (s.memBad a0 a1).pd = s.pd := (memBad_keeps s a0 a1).same .pd rfl
@[simp] theorem memBad_time (a0 : Nat) (a1 : Nat) : (s.memBad a0 a1).time = s.time := (memBad_keeps s a0 a1).same .time rfl
@[simp] theorem memBad_eth (a0 : Nat) (a1 : Nat) : (s.memBad a0 a1).eth = s.eth := (memBad_keeps s a0 a1).same .eth rfl
@[simp] theorem memBad_pl (a0 : Nat) (a1 : Nat) : (s.memBad a0 a1).pl = s.pl := (memBad_keeps s a0 a1).same .pl rfl
@[simp] theorem memBad_stor (a0 : Nat) (a1 : Nat) : (s.memBad a0 a1).stor = s.stor := (memBad_keeps s a0 a1).same .stor rfl
@[simp] theorem memBad_dram (a0 : Nat) (a1 : Nat) : (s.memBad a0 a1).dram = s.dram := (memBad_keeps s a0 a1).same .dram rfl
@[simp] theorem memBad_fld (a0 : Nat) (a1 : Nat) : (s.memBad a0 a1).fld = s.fld := (memBad_keeps s a0 a1).same .fld rfl
@[simp] theorem memBad_canNode (a0 : Nat) (a1 : Nat) : (s.memBad a0 a1).canNode = s.canNode := (memBad_keeps s a0 a1).same .canNode rfl
@[simp] theorem memBad_keys (a0 : Nat) (a1 : Nat) : (s.memBad a0 a1).keys = s.keys := (memBad_keeps s a0 a1).same .keys rfl
@[simp] theorem memBad_secu (a0 : Nat) (a1 : Nat) : (s.memBad a0 a1).secu = s.secu := (memBad_keeps s a0 a1).same .secu rfl
@[simp] theorem memBad_power (a0 : Nat) (a1 : Nat) : (s.memBad a0 a1).power = s.power := (memBad_keeps s a0 a1).same .power rfl
@[simp] theorem memBad_app (a0 : Nat) (a1 : Nat) : (s.memBad a0 a1).app = s.app := (memBad_keeps s a0 a1).same .app rfl
@[simp] theorem memBad_boot (a0 : Nat) (a1 : Nat) : (s.memBad a0 a1).boot = s.boot := (memBad_keeps s a0 a1).same .boot rfl
@[simp] theorem memBad_part (a0 : Nat) (a1 : Nat) : (s.memBad a0 a1).part = s.part := (memBad_keeps s a0 a1).part
@[simp] theorem memBad_clock (a0 : Nat) (a1 : Nat) : (s.memBad a0 a1).clock = s.clock := (memBad_keeps s a0 a1).clock
@[simp] theorem memBad_pending (a0 : Nat) (a1 : Nat) : (s.memBad a0 a1).pending = s.pending := (memBad_keeps s a0 a1).pending

theorem memCorrected_keeps (a0 : Nat) (a1 : Nat) : Keeps (fun f => [.objs, .irq, .jour, .rates].contains f) s (s.memCorrected a0 a1) :=
  (keeps_State_memCorrected _ _ _ (Keeps.refl (fun f => [.objs, .irq, .jour, .rates].contains f) s) (fun _ h => h))
@[simp] theorem memCorrected_head (a0 : Nat) (a1 : Nat) : (s.memCorrected a0 a1).head = s.head := (memCorrected_keeps s a0 a1).same .head rfl
@[simp] theorem memCorrected_strs (a0 : Nat) (a1 : Nat) : (s.memCorrected a0 a1).strs = s.strs := (memCorrected_keeps s a0 a1).same .strs rfl
@[simp] theorem memCorrected_station (a0 : Nat) (a1 : Nat) : (s.memCorrected a0 a1).station = s.station := (memCorrected_keeps s a0 a1).same .station rfl
@[simp] theorem memCorrected_freeCount (a0 : Nat) (a1 : Nat) : (s.memCorrected a0 a1).freeCount = s.freeCount := (memCorrected_keeps s a0 a1).same .freeCount rfl
@[simp] theorem memCorrected_timers (a0 : Nat) (a1 : Nat) : (s.memCorrected a0 a1).timers = s.timers := (memCorrected_keeps s a0 a1).same .timers rfl
@[simp] theorem memCorrected_sessions (a0 : Nat) (a1 : Nat) : (s.memCorrected a0 a1).sessions = s.sessions := (memCorrected_keeps s a0 a1).same .sessions rfl
@[simp] theorem memCorrected_lockouts (a0 : Nat) (a1 : Nat) : (s.memCorrected a0 a1).lockouts = s.lockouts := (memCorrected_keeps s a0 a1).same .lockouts rfl
@[simp] theorem memCorrected_sessionCounter (a0 : Nat) (a1 : Nat) : (s.memCorrected a0 a1).sessionCounter = s.sessionCounter := (memCorrected_keeps s a0 a1).same .sessionCounter rfl
@[simp] theorem memCorrected_cmds (a0 : Nat) (a1 : Nat) : (s.memCorrected a0 a1).cmds = s.cmds := (memCorrected_keeps s a0 a1).same .cmds rfl
@[simp] theorem memCorrected_canOpen (a0 : Nat) (a1 : Nat) : (s.memCorrected a0 a1).canOpen = s.canOpen := (memCorrected_keeps s a0 a1).same .canOpen rfl
@[simp] theorem memCorrected_modeHeld (a0 : Nat) (a1 : Nat) : (s.memCorrected a0 a1).modeHeld = s.modeHeld := (memCorrected_keeps s a0 a1).same .modeHeld rfl
@[simp] theorem memCorrected_stateHeld (a0 : Nat) (a1 : Nat) : (s.memCorrected a0 a1).stateHeld = s.stateHeld := (memCorrected_keeps s a0 a1).same .stateHeld rfl
@[simp] theorem memCorrected_trunks (a0 : Nat) (a1 : Nat) : (s.memCorrected a0 a1).trunks = s.trunks := (memCorrected_keeps s a0 a1).same .trunks rfl
@[simp] theorem memCorrected_tunnels (a0 : Nat) (a1 : Nat) : (s.memCorrected a0 a1).tunnels = s.tunnels := (memCorrected_keeps s a0 a1).same .tunnels rfl
@[simp] theorem memCorrected_fabric (a0 : Nat) (a1 : Nat) : (s.memCorrected a0 a1).fabric = s.fabric := (memCorrected_keeps s a0 a1).same .fabric rfl
@[simp] theorem memCorrected_scheds (a0 : Nat) (a1 : Nat) : (s.memCorrected a0 a1).scheds = s.scheds := (memCorrected_keeps s a0 a1).same .scheds rfl
@[simp] theorem memCorrected_disps (a0 : Nat) (a1 : Nat) : (s.memCorrected a0 a1).disps = s.disps := (memCorrected_keeps s a0 a1).same .disps rfl
@[simp] theorem memCorrected_usb (a0 : Nat) (a1 : Nat) : (s.memCorrected a0 a1).usb = s.usb := (memCorrected_keeps s a0 a1).same .usb rfl
@[simp] theorem memCorrected_svc (a0 : Nat) (a1 : Nat) : (s.memCorrected a0 a1).svc = s.svc := (memCorrected_keeps s a0 a1).same .svc rfl
@[simp] theorem memCorrected_pd (a0 : Nat) (a1 : Nat) : (s.memCorrected a0 a1).pd = s.pd := (memCorrected_keeps s a0 a1).same .pd rfl
@[simp] theorem memCorrected_time (a0 : Nat) (a1 : Nat) : (s.memCorrected a0 a1).time = s.time := (memCorrected_keeps s a0 a1).same .time rfl
@[simp] theorem memCorrected_eth (a0 : Nat) (a1 : Nat) : (s.memCorrected a0 a1).eth = s.eth := (memCorrected_keeps s a0 a1).same .eth rfl
@[simp] theorem memCorrected_pl (a0 : Nat) (a1 : Nat) : (s.memCorrected a0 a1).pl = s.pl := (memCorrected_keeps s a0 a1).same .pl rfl
@[simp] theorem memCorrected_stor (a0 : Nat) (a1 : Nat) : (s.memCorrected a0 a1).stor = s.stor := (memCorrected_keeps s a0 a1).same .stor rfl
@[simp] theorem memCorrected_dram (a0 : Nat) (a1 : Nat) : (s.memCorrected a0 a1).dram = s.dram := (memCorrected_keeps s a0 a1).same .dram rfl
@[simp] theorem memCorrected_fld (a0 : Nat) (a1 : Nat) : (s.memCorrected a0 a1).fld = s.fld := (memCorrected_keeps s a0 a1).same .fld rfl
@[simp] theorem memCorrected_canNode (a0 : Nat) (a1 : Nat) : (s.memCorrected a0 a1).canNode = s.canNode := (memCorrected_keeps s a0 a1).same .canNode rfl
@[simp] theorem memCorrected_keys (a0 : Nat) (a1 : Nat) : (s.memCorrected a0 a1).keys = s.keys := (memCorrected_keeps s a0 a1).same .keys rfl
@[simp] theorem memCorrected_secu (a0 : Nat) (a1 : Nat) : (s.memCorrected a0 a1).secu = s.secu := (memCorrected_keeps s a0 a1).same .secu rfl
@[simp] theorem memCorrected_power (a0 : Nat) (a1 : Nat) : (s.memCorrected a0 a1).power = s.power := (memCorrected_keeps s a0 a1).same .power rfl
@[simp] theorem memCorrected_app (a0 : Nat) (a1 : Nat) : (s.memCorrected a0 a1).app = s.app := (memCorrected_keeps s a0 a1).same .app rfl
@[simp] theorem memCorrected_safety (a0 : Nat) (a1 : Nat) : (s.memCorrected a0 a1).safety = s.safety := (memCorrected_keeps s a0 a1).same .safety rfl
@[simp] theorem memCorrected_boot (a0 : Nat) (a1 : Nat) : (s.memCorrected a0 a1).boot = s.boot := (memCorrected_keeps s a0 a1).same .boot rfl
@[simp] theorem memCorrected_part (a0 : Nat) (a1 : Nat) : (s.memCorrected a0 a1).part = s.part := (memCorrected_keeps s a0 a1).part
@[simp] theorem memCorrected_clock (a0 : Nat) (a1 : Nat) : (s.memCorrected a0 a1).clock = s.clock := (memCorrected_keeps s a0 a1).clock
@[simp] theorem memCorrected_pending (a0 : Nat) (a1 : Nat) : (s.memCorrected a0 a1).pending = s.pending := (memCorrected_keeps s a0 a1).pending
@[simp] theorem memCorrected_sent (a0 : Nat) (a1 : Nat) : (s.memCorrected a0 a1).sent = s.sent := (memCorrected_keeps s a0 a1).same .sent rfl

theorem endSession_keeps (a0 : Path) (a1 : Nat) (a2 : Path) : Keeps (fun f => [.sessions, .irq, .jour].contains f) s (s.endSession a0 a1 a2) :=
  (keeps_State_endSession _ _ _ _ (Keeps.refl (fun f => [.sessions, .irq, .jour].contains f) s) (fun _ h => h))
@[simp] theorem endSession_head (a0 : Path) (a1 : Nat) (a2 : Path) : (s.endSession a0 a1 a2).head = s.head := (endSession_keeps s a0 a1 a2).same .head rfl
@[simp] theorem endSession_objs (a0 : Path) (a1 : Nat) (a2 : Path) : (s.endSession a0 a1 a2).objs = s.objs := (endSession_keeps s a0 a1 a2).same .objs rfl
@[simp] theorem endSession_strs (a0 : Path) (a1 : Nat) (a2 : Path) : (s.endSession a0 a1 a2).strs = s.strs := (endSession_keeps s a0 a1 a2).same .strs rfl
@[simp] theorem endSession_station (a0 : Path) (a1 : Nat) (a2 : Path) : (s.endSession a0 a1 a2).station = s.station := (endSession_keeps s a0 a1 a2).same .station rfl
@[simp] theorem endSession_freeCount (a0 : Path) (a1 : Nat) (a2 : Path) : (s.endSession a0 a1 a2).freeCount = s.freeCount := (endSession_keeps s a0 a1 a2).same .freeCount rfl
@[simp] theorem endSession_timers (a0 : Path) (a1 : Nat) (a2 : Path) : (s.endSession a0 a1 a2).timers = s.timers := (endSession_keeps s a0 a1 a2).same .timers rfl
@[simp] theorem endSession_lockouts (a0 : Path) (a1 : Nat) (a2 : Path) : (s.endSession a0 a1 a2).lockouts = s.lockouts := (endSession_keeps s a0 a1 a2).same .lockouts rfl
@[simp] theorem endSession_sessionCounter (a0 : Path) (a1 : Nat) (a2 : Path) : (s.endSession a0 a1 a2).sessionCounter = s.sessionCounter := (endSession_keeps s a0 a1 a2).same .sessionCounter rfl
@[simp] theorem endSession_cmds (a0 : Path) (a1 : Nat) (a2 : Path) : (s.endSession a0 a1 a2).cmds = s.cmds := (endSession_keeps s a0 a1 a2).same .cmds rfl
@[simp] theorem endSession_rates (a0 : Path) (a1 : Nat) (a2 : Path) : (s.endSession a0 a1 a2).rates = s.rates := (endSession_keeps s a0 a1 a2).same .rates rfl
@[simp] theorem endSession_canOpen (a0 : Path) (a1 : Nat) (a2 : Path) : (s.endSession a0 a1 a2).canOpen = s.canOpen := (endSession_keeps s a0 a1 a2).same .canOpen rfl
@[simp] theorem endSession_modeHeld (a0 : Path) (a1 : Nat) (a2 : Path) : (s.endSession a0 a1 a2).modeHeld = s.modeHeld := (endSession_keeps s a0 a1 a2).same .modeHeld rfl
@[simp] theorem endSession_stateHeld (a0 : Path) (a1 : Nat) (a2 : Path) : (s.endSession a0 a1 a2).stateHeld = s.stateHeld := (endSession_keeps s a0 a1 a2).same .stateHeld rfl
@[simp] theorem endSession_trunks (a0 : Path) (a1 : Nat) (a2 : Path) : (s.endSession a0 a1 a2).trunks = s.trunks := (endSession_keeps s a0 a1 a2).same .trunks rfl
@[simp] theorem endSession_tunnels (a0 : Path) (a1 : Nat) (a2 : Path) : (s.endSession a0 a1 a2).tunnels = s.tunnels := (endSession_keeps s a0 a1 a2).same .tunnels rfl
@[simp] theorem endSession_fabric (a0 : Path) (a1 : Nat) (a2 : Path) : (s.endSession a0 a1 a2).fabric = s.fabric := (endSession_keeps s a0 a1 a2).same .fabric rfl
@[simp] theorem endSession_scheds (a0 : Path) (a1 : Nat) (a2 : Path) : (s.endSession a0 a1 a2).scheds = s.scheds := (endSession_keeps s a0 a1 a2).same .scheds rfl
@[simp] theorem endSession_disps (a0 : Path) (a1 : Nat) (a2 : Path) : (s.endSession a0 a1 a2).disps = s.disps := (endSession_keeps s a0 a1 a2).same .disps rfl
@[simp] theorem endSession_usb (a0 : Path) (a1 : Nat) (a2 : Path) : (s.endSession a0 a1 a2).usb = s.usb := (endSession_keeps s a0 a1 a2).same .usb rfl
@[simp] theorem endSession_svc (a0 : Path) (a1 : Nat) (a2 : Path) : (s.endSession a0 a1 a2).svc = s.svc := (endSession_keeps s a0 a1 a2).same .svc rfl
@[simp] theorem endSession_pd (a0 : Path) (a1 : Nat) (a2 : Path) : (s.endSession a0 a1 a2).pd = s.pd := (endSession_keeps s a0 a1 a2).same .pd rfl
@[simp] theorem endSession_time (a0 : Path) (a1 : Nat) (a2 : Path) : (s.endSession a0 a1 a2).time = s.time := (endSession_keeps s a0 a1 a2).same .time rfl
@[simp] theorem endSession_eth (a0 : Path) (a1 : Nat) (a2 : Path) : (s.endSession a0 a1 a2).eth = s.eth := (endSession_keeps s a0 a1 a2).same .eth rfl
@[simp] theorem endSession_pl (a0 : Path) (a1 : Nat) (a2 : Path) : (s.endSession a0 a1 a2).pl = s.pl := (endSession_keeps s a0 a1 a2).same .pl rfl
@[simp] theorem endSession_stor (a0 : Path) (a1 : Nat) (a2 : Path) : (s.endSession a0 a1 a2).stor = s.stor := (endSession_keeps s a0 a1 a2).same .stor rfl
@[simp] theorem endSession_dram (a0 : Path) (a1 : Nat) (a2 : Path) : (s.endSession a0 a1 a2).dram = s.dram := (endSession_keeps s a0 a1 a2).same .dram rfl
@[simp] theorem endSession_fld (a0 : Path) (a1 : Nat) (a2 : Path) : (s.endSession a0 a1 a2).fld = s.fld := (endSession_keeps s a0 a1 a2).same .fld rfl
@[simp] theorem endSession_canNode (a0 : Path) (a1 : Nat) (a2 : Path) : (s.endSession a0 a1 a2).canNode = s.canNode := (endSession_keeps s a0 a1 a2).same .canNode rfl
@[simp] theorem endSession_keys (a0 : Path) (a1 : Nat) (a2 : Path) : (s.endSession a0 a1 a2).keys = s.keys := (endSession_keeps s a0 a1 a2).same .keys rfl
@[simp] theorem endSession_secu (a0 : Path) (a1 : Nat) (a2 : Path) : (s.endSession a0 a1 a2).secu = s.secu := (endSession_keeps s a0 a1 a2).same .secu rfl
@[simp] theorem endSession_power (a0 : Path) (a1 : Nat) (a2 : Path) : (s.endSession a0 a1 a2).power = s.power := (endSession_keeps s a0 a1 a2).same .power rfl
@[simp] theorem endSession_app (a0 : Path) (a1 : Nat) (a2 : Path) : (s.endSession a0 a1 a2).app = s.app := (endSession_keeps s a0 a1 a2).same .app rfl
@[simp] theorem endSession_safety (a0 : Path) (a1 : Nat) (a2 : Path) : (s.endSession a0 a1 a2).safety = s.safety := (endSession_keeps s a0 a1 a2).same .safety rfl
@[simp] theorem endSession_boot (a0 : Path) (a1 : Nat) (a2 : Path) : (s.endSession a0 a1 a2).boot = s.boot := (endSession_keeps s a0 a1 a2).same .boot rfl
@[simp] theorem endSession_part (a0 : Path) (a1 : Nat) (a2 : Path) : (s.endSession a0 a1 a2).part = s.part := (endSession_keeps s a0 a1 a2).part
@[simp] theorem endSession_clock (a0 : Path) (a1 : Nat) (a2 : Path) : (s.endSession a0 a1 a2).clock = s.clock := (endSession_keeps s a0 a1 a2).clock
@[simp] theorem endSession_pending (a0 : Path) (a1 : Nat) (a2 : Path) : (s.endSession a0 a1 a2).pending = s.pending := (endSession_keeps s a0 a1 a2).pending
@[simp] theorem endSession_sent (a0 : Path) (a1 : Nat) (a2 : Path) : (s.endSession a0 a1 a2).sent = s.sent := (endSession_keeps s a0 a1 a2).same .sent rfl

/-- No kind, no lowest kind. -/
theorem lowest_none {l : List Nat} : lowest l = none ↔ l = [] := by
  cases l with
  | nil => simp [lowest]
  | cons k r =>
    simp only [lowest]
    cases lowest r <;> simp

@[simp] theorem kindIf_nil {c : Bool} {k : Nat} : kindIf c k = [] ↔ c = false := by
  cases c <;> simp [kindIf]

/-- The kinds that a family adds refuse a write, and only they beside the object's own (R37). -/
theorem judgeWrite_none {p : Path} {i sub : Nat} {data : Bytes} {more : List Nat} :
    s.judgeWrite p i sub data more = none ↔ s.judgeWrite p i sub data [] = none ∧ more = [] := by
  unfold State.judgeWrite
  cases rowAt i sub with
  | none => simp
  | some r => simp only [lowest_none, List.append_eq_nil_iff, and_true]

/-- A write that nothing refuses has its effect (R37, R39). -/
theorem writeNum_done {p : Path} {i sub v : Nat} {more : List Nat} {eff : State → State} (h : s.allows p i sub v)
    (hm : more = []) : s.writeNum p i sub v more eff = eff (s.touch p) := by
  subst hm
  simp [State.writeNum, State.write, h.2.1, h.2.2]

/-- A refused write is a violation and nothing more (R37, R41). -/
theorem writeNum_refused {p : Path} {i sub v k : Nat} {more : List Nat} {eff : State → State} (hr : s.reach = true)
    (h : s.judgeWrite p i sub (leBytes (objSize i sub) v) more = some k) :
    s.writeNum p i sub v more eff = (s.touch p).violate p i sub k := by
  simp [State.writeNum, State.write, hr, h]

/-- No path reaches the dictionary in Reset, Boot and Lift (R6). -/
theorem writeNum_unreached {p : Path} {i sub v : Nat} {more : List Nat} {eff : State → State} (hr : s.reach = false) :
    s.writeNum p i sub v more eff = s := by
  simp [State.writeNum, State.write, hr]

theorem allows_kinds {p : Path} {i sub v : Nat} (h : s.allows p i sub v) :
    s.judgeWrite p i sub (leBytes (objSize i sub) v) [] = none := h.2.2

theorem allows_reach {p : Path} {i sub v : Nat} (h : s.allows p i sub v) : s.reach = true := h.2.1

theorem allows_ok {p : Path} {i sub v : Nat} (h : s.allows p i sub v) : p.ok = true := h.1

theorem takes_ok {p : Path} {i v : Nat} (h : s.takes p i v) : p.ok = true := h.1.1

/-- A command that its block takes begins (R56). -/
theorem command_taken {p : Path} {i v : Nat} {states known more : List Nat} {eff : State → State}
    (h : s.takes p i v) (hs : s.dev ∈ states) (hv : v ∈ known) (hm : more = []) :
    s.command p i v states known more eff = eff ((s.touch p).cmdAccept i v p) := by
  unfold State.command
  refine writeNum_done s h.1 ?_
  simp [State.cmdKinds, hm, h.2.1, hs, hv]

/-- In a state where its block takes commands the hub is in Setup, Run or Maintain (R6, R56). -/
theorem takes_anyState {p : Path} {i v : Nat} (h : s.takes p i v) : s.dev ∈ anyState := by
  have h1 := h.1.2.1
  have h2 := h.2.2
  simp only [State.reach, decide_eq_true_eq] at h1
  simp [anyState]
  omega

/-- A command that its owner names no states for. -/
theorem command_any {p : Path} {i v : Nat} {known more : List Nat} {eff : State → State}
    (h : s.takes p i v) (hv : v ∈ known) (hm : more = []) :
    s.command p i v anyState known more eff = eff ((s.touch p).cmdAccept i v p) :=
  command_taken s h (takes_anyState s h) hv hm

theorem commandNow_taken {p : Path} {i v result : Nat} {states known more : List Nat} {eff : State → State}
    (h : s.takes p i v) (hs : s.dev ∈ states) (hv : v ∈ known) (hm : more = []) :
    s.commandNow p i v states known more result eff = (eff ((s.touch p).cmdAccept i v p)).cmdCommit i result :=
  command_taken s h hs hv hm

theorem commandNow_any {p : Path} {i v result : Nat} {known more : List Nat} {eff : State → State}
    (h : s.takes p i v) (hv : v ∈ known) (hm : more = []) :
    s.commandNow p i v anyState known more result eff = (eff ((s.touch p).cmdAccept i v p)).cmdCommit i result :=
  command_taken s h (takes_anyState s h) hv hm

/-- What a command's acceptance and its commit point leave in its block (R56). -/
theorem cmdAccept_get {i v : Nat} {p : Path} {k : Nat} (h : ∀ n, 0xF2 ≤ n → n ≤ 0xF5 → k ≠ ob i n) :
    (s.cmdAccept i v p).get k = s.get k := by
  unfold State.cmdAccept State.countWrap
  rw [get_set_ne _ _ (h 0xF5 (by omega) (by omega)), get_setAll_ne]
  · rfl
  · intro e he
    simp at he
    rcases he with rfl | rfl | rfl
    · exact h 0xF2 (by omega) (by omega)
    · exact h 0xF3 (by omega) (by omega)
    · exact h 0xF4 (by omega) (by omega)

theorem cmdCommit_get {i r : Nat} {k : Nat} (h : ∀ n, 0xF2 ≤ n → n ≤ 0xF5 → k ≠ ob i n) :
    (s.cmdCommit i r).get k = s.get k := by
  unfold State.cmdCommit
  simp only [evAt_get]
  rw [get_setAll_ne]
  intro e he
  simp at he
  rcases he with rfl | rfl | rfl
  · exact h 0xF2 (by omega) (by omega)
  · exact h 0xF3 (by omega) (by omega)
  · exact h 0xF4 (by omega) (by omega)

@[simp] theorem cmdCommit_status {i r : Nat} : (s.cmdCommit i r).get (ob i 0xF2) = 2 := by
  simp [State.cmdCommit, State.setAll, get_set, ob]

@[simp] theorem cmdCommit_result {i r : Nat} : (s.cmdCommit i r).get (ob i 0xF3) = r := by
  simp [State.cmdCommit, State.setAll, get_set, ob]

@[simp] theorem cmdAccept_status {i v : Nat} {p : Path} : (s.cmdAccept i v p).get (ob i 0xF2) = 1 := by
  simp [State.cmdAccept, State.countWrap, State.setAll, get_set, ob]

/-- The same objects, the same values. -/
theorem get_of_objs {s t : State} (ho : t.objs = s.objs) (hh : t.head = s.head) (hp : t.part = s.part) (k : Nat) :
    t.get k = s.get k := by
  simp [State.get, ho, hh, hp]

@[simp] theorem ciWake_overLimit (p : Path) : s.ciWake.overLimit p = s.overLimit p := by
  unfold State.ciWake
  split <;> rfl

/-- An access on a path whose session is past no limit (R34, R36). -/
theorem touch_live {p : Path} (h : s.overLimit p = 0) :
    s.touch p = s.ciWake.updSession p fun x => { x with used := true, lastAccess := s.clock } := by
  simp [State.touch, State.settleSession, h]

/-- It changes nothing of the session but its last access (R34). -/
theorem touch_session {p : Path} (h : s.overLimit p = 0) :
    ((s.touch p).session p) = { s.session p with used := true, lastAccess := s.clock } := by
  simp [touch_live s h, State.updSession, State.session]

/-- It restarts CI2 if it is stopped (R400). -/
theorem touch_irq {p : Path} (h : s.overLimit p = 0) : (s.touch p).irq = s.ciWake.irq := by
  simp [touch_live s h, State.updSession]

/-- It journals nothing. -/
theorem touch_jour {p : Path} (h : s.overLimit p = 0) : (s.touch p).jour = s.jour := by
  simp [touch_live s h, State.updSession]

/-! Units and paths (R1, R2, R48): a port of the part, and a path whose slot exists, take their commands. -/

theorem onPort_has {has : Part → Bool} {t : State} (hf : has s.part.full = true) (h : has s.part = true) :
    onPort s has t = .next t := by
  simp [onPort, hf, h]

/-- An event of a port that the part lacks changes nothing (R2). -/
theorem onPort_lacks {has : Part → Bool} {t : State} (hf : has s.part.full = true) (h : has s.part = false) :
    onPort s has t = .next s := by
  simp [onPort, hf, h]

theorem onPath_ok {p : Path} {known : Bool} {t : State} (hk : known = true) (h : p.ok = true) :
    onPath p known s t = .next t := by
  simp [onPath, hk, h]

theorem hasTrunk_full {p : Part} {n : Nat} (h : p.hasTrunk n = true) : p.full.hasTrunk n = true := by
  unfold Part.hasTrunk Part.trunks at h
  have h := of_decide_eq_true h
  have e : p.full.trunks = 4 := rfl
  unfold Part.hasTrunk
  rw [e]
  exact decide_eq_true (by split at h <;> omega)

theorem hasOutput_full {p : Part} {n : Nat} (h : p.hasOutput n = true) : p.full.hasOutput n = true := by
  simp only [Part.hasOutput, Part.full, if_true, decide_eq_true_eq] at *
  split at h <;> simp only [decide_eq_true_eq] at h <;> omega

theorem hasEth_full {p : Part} {n : Nat} (h : p.hasEth n = true) : p.full.hasEth n = true := by
  simp [Part.hasEth, Part.full] at *
  split at h <;> omega

theorem hasPcie_full {p : Part} {n : Nat} (h : p.hasPcie n = true) : p.full.hasPcie n = true := by
  simp [Part.hasPcie, Part.full] at *
  split at h <;> omega

theorem hasUsb_full {p : Part} {n : Nat} (h : p.hasUsb n = true) : p.full.hasUsb n = true := by
  simp [Part.hasUsb, Part.full] at *
  split at h <;> omega

theorem hasUart_full {p : Part} {n : Nat} (h : p.hasUart n = true) : p.full.hasUart n = true := by
  simp [Part.hasUart, Part.full] at *
  split at h <;> omega

theorem hasBreaker_full {p : Part} {n : Nat} (h : p.hasBreaker n = true) : p.full.hasBreaker n = true := by
  simp [Part.hasBreaker, Part.full] at *
  exact h.1

theorem hasFabricPort_full {p : Part} {n : Nat} (h : p.hasFabricPort n = true) : p.full.hasFabricPort n = true := by
  simp [Part.hasFabricPort, Part.full] at *
  exact h.1

theorem pathUnit_full {p : Part} {c u : Nat} (h : p.pathUnit c u = true) : p.full.pathUnit c u = true := by
  simp only [Part.pathUnit, Bool.and_eq_true, Bool.or_eq_true] at *
  exact ⟨h.1, h.2.imp id hasBreaker_full⟩

end Sys2Proof.Laws
end

