-- ==== Sys2Proof/Laws/Memory.lean ====
section
/-!
SUPPORT. The memories: reading after writing, and that every operation on DRAM, the boot flash and pair B's memories keeps
the canonical form.
-/

set_option Elab.async false

namespace Sys2Proof.Laws

open Sys2Proof Sys2Proof.Machine

variable (s : State)

@[simp] theorem dramPut_byte_same (a : Nat) (v : BitVec 8) : (s.dramPut a v).dramByte a = v := by
  simp [State.dramPut, State.dramByte]

theorem dramPut_byte_ne {a b : Nat} (v : BitVec 8) (h : b ≠ a) : (s.dramPut a v).dramByte b = s.dramByte b := by
  simpa [State.dramPut, State.dramByte] using get_put_ne 0 0 h v s.dram

theorem dramPut_byte (a b : Nat) (v : BitVec 8) : (s.dramPut a v).dramByte b = if b = a then v else s.dramByte b := by
  split
  · next h => rw [h]; exact dramPut_byte_same s a v
  · next h => exact dramPut_byte_ne s v h

theorem dramPut_wf {a : Nat} {v : BitVec 8} (h : Memory.wf 0 s.dram = true) : Memory.wf 0 (s.dramPut a v).dram = true :=
  wf_put a v h

theorem stageIn_wf {n tag off : Nat} {bs : Bytes} (h : Memory.wf 0 s.dram = true) :
    Memory.wf 0 (s.stageIn n tag off bs).dram = true := by
  induction bs generalizing s off with
  | nil => exact h
  | cons b r ih => exact ih (s := s.dramPut _ b) (dramPut_wf s h)

/-- Bytes put into DRAM one after another, each at an address computed from its place, leave every other byte. -/
theorem forAll_dramPut_frame {α : Type} (f : α → Nat) (g : α → BitVec 8) (l : List α) (b : Nat) (h : ∀ a ∈ l, b ≠ f a) :
    (forAll (fun a s => s.dramPut (f a) (g a)) l s).dramByte b = s.dramByte b := by
  induction l generalizing s with
  | nil => rfl
  | cons a r ih =>
    have h1 := ih (s.dramPut (f a) (g a)) fun x hx => h x (List.mem_cons_of_mem _ hx)
    exact h1.trans (dramPut_byte_ne s _ (h a List.mem_cons_self))

theorem dramEnabled_frame {addr be : Nat} {data : Bytes} {b : Nat} (h : b ∉ enabledBytes addr ((data.length + 3) / 4) be) :
    (s.dramEnabled addr be data).dramByte b = s.dramByte b :=
  forAll_dramPut_frame s _ _ _ _ fun _ ha e => h (e ▸ ha)

/-- An enabled byte of a write into DRAM holds its byte of the data. -/
theorem dramEnabled_byte {addr be : Nat} {data : Bytes} {b : Nat} (h : b ∈ enabledBytes addr ((data.length + 3) / 4) be) :
    (s.dramEnabled addr be data).dramByte b = data.getD (b - addr / 4 * 4) 0 := by
  unfold State.dramEnabled
  generalize enabledBytes addr ((data.length + 3) / 4) be = l at h
  induction l generalizing s with
  | nil => cases h
  | cons a r ih =>
    by_cases hr : b ∈ r
    · exact ih _ hr
    · have hb : b = a := by simpa [hr] using h
      subst hb
      exact (forAll_dramPut_frame _ id (fun a => data.getD (a - addr / 4 * 4) 0) r b fun x hx e => hr (e ▸ hx)).trans
        (dramPut_byte_same s _ _)

theorem stageIn_frame {n tag off b : Nat} {bs : Bytes} (h : ∀ k, k < bs.length → b ≠ s.staging n tag (off + k)) :
    (s.stageIn n tag off bs).dramByte b = s.dramByte b := by
  induction bs generalizing s off with
  | nil => rfl
  | cons x r ih =>
    have h1 := ih (s := s.dramPut (s.staging n tag off) x) (off := off + 1) fun k hk e =>
      h (k + 1) (by simpa using hk) (by rw [e, show off + 1 + k = off + (k + 1) by omega]; rfl)
    exact h1.trans (dramPut_byte_ne s _ (h 0 (by simp)))

theorem putBytes_wf {m : List Host.Cell} {a : Nat} {bs : Bytes} (h : Memory.wf 0 m = true) :
    Memory.wf 0 (putBytes m a bs) = true := by
  induction bs generalizing m a with
  | nil => exact h
  | cons b r ih => exact ih (wf_put a b h)

theorem program_wf {a : Nat} {bs : Bytes} (h : Memory.wf 0xFF s.boot.flash = true) :
    Memory.wf 0xFF (s.program a bs).boot.flash = true := by
  induction bs generalizing s a with
  | nil => exact h
  | cons b r ih => exact ih (s := s.updBoot fun x => { x with flash := Sparse.put 0xFF a b x.flash }) (wf_put a b h)

theorem eraseRegion_wf {r : Nat} (h : Memory.wf 0xFF s.boot.flash = true) :
    Memory.wf 0xFF (s.eraseRegion r).boot.flash = true := wfFrom_filter _ h

theorem reset_memory_wf : Memory.wf 0 State.reset.dram = true ∧ Memory.wf 0xFF State.reset.boot.flash = true ∧
    Memory.wf 0 State.reset.app.tcm = true ∧ Memory.wf 0 State.reset.app.sram = true ∧ Memory.wf 0 State.reset.app.mram = true :=
  ⟨rfl, rfl, rfl, rfl, rfl⟩

end Sys2Proof.Laws
end

