-- ==== Sys2Proof/Tests/Slice0.lean ====
section
/-!
SUPPORT. The model's own tests, and for every statement a state and operands that meet the hypotheses of each of its clauses.
-/

set_option Elab.async false
set_option linter.unusedTactic false
set_option linter.unreachableTactic false
set_option linter.unusedVariables false

set_option maxRecDepth 100000

namespace Sys2Proof.Tests

open Sys2Proof Sys2Proof.Machine Sys2Proof.Laws


/-- A hub in a device state, with some objects set, a session of Custodian rights on the service port. -/
def hub (dev : Nat) (objs : List (Nat × Nat)) : State :=
  { State.reset.setAll ((ob 0x2000 1, dev) :: objs) with sessions := [(5, { rights := 3, lastAccess := 10 ^ 15, granted := 10 ^ 15 })] }

theorem response_permitted (s : State) (data : Bytes) (hd : data.length = 16) (hm : s.missing 0x1100 4 = false) :
    s.judgeWrite .service 0x1100 4 data [] = none := by
  have hr : (rowAt 0x1100 4).isSome = true := by decide
  obtain ⟨r, hr⟩ := Option.isSome_iff_exists.mp hr
  have e : r = (rowAt 0x1100 4).get (by decide) := by simp [hr]
  have h1 : r.type ≠ 9 := by rw [e]; decide
  have h2 : r.size = 16 := by rw [e]; decide
  have h3 : r.level = 0 := by rw [e]; decide
  have h4 : r.acc = .wo := by rw [e]; decide
  have h5 : r.rng = .any := by rw [e]; decide
  have h6 : r.type ≠ 1 := by rw [e]; decide
  unfold State.judgeWrite
  rw [hr]
  simp only [lowest_none, List.append_eq_nil_iff, kindIf_nil, hm, sizeBad, h1, if_false, h2, hd, inRange, h5, h4]
  have hw : s.levelFor .service 0x1100 4 (leNat data) r = 0 := by
    simp [State.levelFor, writeLevel, h3, slotIndex]
  simp [hw, h6, State.frozen, State.pathKinds, allotIndex, slotIndex]

/-- A cell or training frame of 256 bytes with a right trailer (R93). -/
def goodCell (b : Bytes) : Bytes := fitBytes 252 b ++ leBytes 4 (crc32c (fitBytes 252 b))


/-- A hub whose hub function has its asynchronous tunnel Open and its domain on. -/
def hubU (objs : List (Nat × Nat)) : State :=
  { hub 4 ([(tunKey 16 0x10, 3), (ob 0x2021 13, 2)] ++ objs) with tunnels := [(16, { cfg := [(2, 3), (6, 15)] })] }

/-- The service-port device in a state of R239, in high speed, with its configuration chosen. -/
def hubV (st : Nat) (objs : List (Nat × Nat)) : State :=
  { hub 4 ([(ob 0x2021 13, 2), (ob 0x2A20 1, 1), (ob 0x2B01 3, 1), (svcStat 1, st)] ++ objs) with
    svc := { config := true, app := true, fast := true }, pd := { vbus := true } }

/-- A host-assisted service port, attached as Source 2 or Sink 3. -/
def hubD (role : Nat) (objs : List (Nat × Nat)) (pd : Pd) : State :=
  { hub 4 ([(ob 0x2010 6, 1), (ob 0x2021 3, 2), (pdStat 1, role), (pdStat 2, 4 - role), (pdStat 3, 4 - role), (pdStat 6, 3)] ++ objs) with
    pd, clock := sec 1 }

/-- A hub whose Ethernet ports are on and whose port 0 is linked at 1000 Mb/s. -/
def hubE (objs : List (Nat × Nat)) : State :=
  hub 4 ([(ob 0x2021 11, 2), (ethCfg 0 1, 1), (ethStat 0 1, 1), (ethStat 0 2, 1000), (ethCfg 0 0x0B, 2)] ++ objs)

/-- A PTP frame of a message type. -/
def ptpW (kind : Nat) : Bytes :=
  withFcs ([0x01, 0x1B, 0x19, 0, 0, 0, 2, 0, 0, 0, 0, 1, 0x88, 0xF7] ++ u8 kind ++ zeros 65)

theorem fcsShift_lt (n r : Nat) (h : r < 2 ^ 32) : fcsShift n r < 2 ^ 32 := by
  induction n generalizing r with
  | zero => exact h
  | succ n ih =>
    simp only [fcsShift]
    apply ih
    split
    · exact Nat.xor_lt_two_pow (by omega) (by norm_num)
    · omega

theorem fcsOf_lt (f : Bytes) : fcsOf f < 2 ^ 32 := by
  have h : ∀ (l : Bytes) r, r < 2 ^ 32 → l.foldl (fun r b => fcsShift 8 (r ^^^ b.toNat)) r < 2 ^ 32 := by
    intro l
    induction l with
    | nil => intro r hr; exact hr
    | cons b t ih =>
      intro r hr
      exact ih _ (fcsShift_lt _ _ (Nat.xor_lt_two_pow hr (by have := b.isLt; omega)))
  exact Nat.xor_lt_two_pow (h f _ (by norm_num)) (by norm_num)

theorem inner_zero (s : State) (e : Nat) (f : Bytes) (h : s.pairMode e = 0) : s.inner e f = f := by
  simp [State.inner, h]

theorem dropFcs_withFcs (f : Bytes) : dropFcs (withFcs f) = f := by
  simp [dropFcs, withFcs, u32, leBytes]

theorem fcsGood_withFcs (f : Bytes) : fcsGood (withFcs f) = true := by
  unfold fcsGood
  rw [dropFcs_withFcs]
  have h := fcsOf_lt f
  have e : (withFcs f).length - 4 = f.length := by simp [withFcs, u32, leBytes]
  simp only [e, decide_eq_true_eq]
  unfold withFcs
  generalize fcsOf f = c at h
  simp [leAt, fitBytes, zeros, u32, leBytes, leNat]
  omega

/-- A hub whose PCIe port 0 is up, root 0 or endpoint 1; queue 0 and queue 1 each hold a command to fetch. -/
def hubN (role : Nat) (objs : List (Nat × Nat)) : State :=
  { hub 4 ([(ob 0x2021 12, 2), (pcieCfg 0 1, 1), (pcieCfg 0 2, role), (pcieStat 0 1, 2)] ++ objs) with
    stor := { ports := [(0, { sqs := [(0, { tail := 1 }), (1, { tail := 1, cq := 1 })], cqs := [(0, {}), (1, {})] })] }, clock := sec 1 }

theorem fitBytes_fit (n : Nat) (b : Bytes) : fitBytes n (fitBytes n b) = fitBytes n b := by
  have h : (fitBytes n b).length = n := by simp [fitBytes, zeros]
  generalize fitBytes n b = c at h
  unfold fitBytes
  rw [List.take_append_of_le_length (by omega), List.take_of_length_le (by omega)]

/-- A download of an image without payload, its digest in the header, ends well. -/
theorem dfuEnd_empty (s : State) (d : Dfu) (r : Nat) (h : d.state = dfuNext) (hh : d.header = zeros 32 ++ sha384 []) :
    s.dfuEnd d r true = .inl (s.program (regionBase r) d.header) := by
  have e : imgPayload d.header = 0 := by
    have a : fitBytes 4 ((zeros 32 ++ sha384 []).drop 20) = zeros 4 := by
      simp [fitBytes, zeros]
    rw [hh]
    simp only [imgPayload, leAt, a]
    rfl
  have f : fitBytes 48 (d.header.drop 32) = sha384 [] := by
    rw [hh]
    have b : (zeros 32 ++ sha384 []).drop 32 = sha384 [] := by simp [zeros]
    rw [b]
    exact fitBytes_fit _ _
  unfold State.dfuEnd
  simp [h, e, f, State.flashBytes, upTo]

/-- A download in DFU's download-idle state whose header names no payload and carries its digest. -/
def dfuEmpty : Dfu := { state := dfuNext, alt := 1, header := zeros 32 ++ sha384 [] }



/-! Commands whose numbers name no unit of the family, one for each check of WellFormed. -/

/-- Every check refuses its ill-formed command. -/
theorem test_ill_formed_refused :
    (([.islandWatchdogExpired 18 [],
      .domainEnableWrite .service 14 0,
      .domainSupplyFail 0 7 0,
      .odWrite .service 65536 2 [],
      .odWrite .service 0 256 [],
      .mgmtReadRequest 5 [],
      .rpdoReceived 4 [],
      .functionModeWrite .service 12 0,
      .laneSignalLost 0 5 0,
      .tunnelEnable .service 4096,
      .tunnelRecordWrite .service 4096 2 0,
      .fabricCellArrival 20 0,
      .fabricCellArrival 0 8,
      .l2EntryAged 16384,
      .outputEnable .service 4,
      .hpdAsserted 2,
      .lvdsClockStable 1,
      .layerUnderrun 16 ⟨0, 0⟩,
      .signatureCompletion 0 8,
      .usbTransactionStart 8 0,
      .relayDownProducerWrite 16 0 [],
      .svcSetEndpointHalt 16 false,
      .ethFrameReceived 8 [],
      .timeSourceWrite .service 3 0,
      .pcieLinkUp 2 0 0,
      .prefetchLifeExpired 64,
      .canFrameReceived 2 { id := 0 } 0,
      .uartUnitClose 4 0 0 [],
      .mapPeriodTimer 1024,
      .canTxCycleTimer 64,
      .gooseRepeatTimer 16,
      .gooseTalExpired 16,
      .tamperAlarm 9 false,
      .feedStateChange 2 0 0,
      .breakerOnRequest 10,
      .tmrArm 4 0 0 false,
      .nClaim 2 0,
      .sf4PowerPathFault 7 0 0,
      .sf4PowerPathFault 1 99 0,
      .marginPinnedRepeat 3,
      .sramScrub 5 0 none false,
      .ddrCalibration 3 [],
      .backgroundTaskBehind 11,
      .norLogWrite 2 0 false false,
      .liftDfuDnload 3 0 [] false false,
      .pcsBlockReceived 0 4 false none 0 0] : List Instr).all
      fun c => !c.wellFormed) = true := by decide

/-- An ill-formed command stops by name and changes nothing. -/
theorem test_ill_formed_stops : exec (.trunkEnableWrite .service 4 1) State.reset = .fault .noSuchUnit := rfl

/-- On a QH7-18 eFuse channel 4 does not exist: its events change nothing (R2). -/
theorem test_small_part (s : State) (h : s.part.qh34 = false) : exec (.breakerOnRequest 4) s = .next s := by
  show execBreakerOnRequest 4 s = _
  unfold execBreakerOnRequest onPort
  simp [Part.full, Part.hasBreaker, h]

/-- A request with a session slot that does not exist is not executed (R48). -/
theorem test_absent_slot : exec (.stateRequestSetup (.tunnel 4)) (hub 4 []) = .next (hub 4 []) := rfl

/-! Worked examples of the spec, and small steps by hand from its rules. -/

/-- CRC-32C by its definition of R93, on the nine digits of the common check. -/
theorem test_crc32c : crc32c ([0x31, 0x32, 0x33, 0x34, 0x35, 0x36, 0x37, 0x38, 0x39] : Bytes) = 0xE3069283 := by decide

/-- "Across the wrap, with one side lost": t0, t2, t3, t9. -/
theorem test_extend_across_the_wrap : extend 65534 131069 = 131070 ∧ extend 65532 131071 = 131068 ∧ extend 0 131071 = 131072 ∧
    extend 2 131072 = 131074 := by decide

/-- Window 5 of "a big-endian recorder behind bay 10", at 0x40000, far address 0x80000000, ByteLanes 2. -/
def recorder : State :=
  { hub 4 [] with stor := { wins := [(5, [(3, 0x40000), (6, 0x80000000), (7, 2)])] } }

/-- The recorder's three writes: which bytes make a run, and each run's far DW, length, enables and bytes. -/
theorem test_recorder_first : runsOf 0x40000 4 (enabledBytes 0x40104 1 15) = [[0x40104, 0x40105, 0x40106, 0x40107]] ∧
    recorder.runHead 5 0x40104 [0x40104, 0x40105, 0x40106, 0x40107] = (0x80000104, 1, 15) ∧
    recorder.runData 5 [0x40104, 0x40105, 0x40106, 0x40107] 0x40104 [0x78, 0x56, 0x34, 0x12] = [0x12, 0x34, 0x56, 0x78] := by decide
theorem test_recorder_second : recorder.runHead 5 0x40106 [0x40106, 0x40107] = (0x80000104, 1, 3) ∧
    recorder.runData 5 [0x40106, 0x40107] 0x40106 [0, 0, 0xEF, 0xBE] = [0xBE, 0xEF, 0, 0] := by decide
theorem test_recorder_third : runsOf 0x40000 4 (enabledBytes 0x40102 2 0xFC) = [[0x40102, 0x40103], [0x40104, 0x40105, 0x40106, 0x40107]] ∧
    recorder.runHead 5 0x40102 [0x40102, 0x40103] = (0x80000100, 1, 3) ∧
    recorder.runData 5 [0x40102, 0x40103] 0x40102 [0, 0, 0x11, 0x22, 0x33, 0x44, 0x55, 0x66] = [0x22, 0x11, 0, 0] ∧
    recorder.runHead 5 0x40102 [0x40104, 0x40105, 0x40106, 0x40107] = (0x80000104, 1, 15) ∧
    recorder.runData 5 [0x40104, 0x40105, 0x40106, 0x40107] 0x40102 [0, 0, 0x11, 0x22, 0x33, 0x44, 0x55, 0x66] = [0x66, 0x55, 0x44, 0x33] := by
  decide

/-- The example of R232: EP2 bulk IN of 16 granules from 34 and EP3 isochronous IN of 32 from 50 leave 430. -/
theorem test_granules_free : (hub 4 [(svcEp 2 7, 1), (svcEp 2 11, 34), (svcEp 2 12, 16), (svcEp 3 7, 1), (svcEp 3 11, 50), (svcEp 3 12, 32)]).granulesFree = 430 := by
  decide

/-- The bay of "one PL sample at Brenmoor", with the stamps of the two markers kept (here trunk 1). -/
def plBay : State :=
  { hub 4 [(ob 0x2F05 1, 8)] with station := 1010041, pl := [(1, { rxs := [(7, 1010041)], txs := [(9, 1062537)] })] }

/-- Its offset of 37 ns and mean delay of 10 000 ns (R272). -/
theorem test_pl_offset : (plBay.timeTransfer 1 7 1000000 9 1072496).get (ob 0x2F05 2) = 37 := by decide
theorem test_pl_mean_delay : (plBay.timeTransfer 1 7 1000000 9 1072496).get (ob 0x2F05 3) = 10000 := by decide

/-- "One decision at the Brenmoor head": the new average, and the yellow frame is dropped where a green one is admitted. -/
theorem test_red_average : newAvg 1280000 6024 9 = 1280512 := by decide

def stationBus : State :=
  { hub 4 [(profileKey 4 1, 0), (ob 0x2700 1, 9), (ob 0x2700 6, 2048), (ob 0x2700 7, 8192), (ob 0x2700 8, 32768),
           (ob 0x2700 2, 8192), (ob 0x2700 3, 16384)] with
    fabric := { queues := [(qOf 4 1, { avg := 1280512, prof := some 0 })], lfsr := [(0, 0x3A10)] } }

theorem test_red_decision : (stationBus.redDecision 4 1 1).1 = 2 ∧ (stationBus.redDecision 4 1 0).1 = 1 := by decide

/-- "Display, sampled values and storage on one trunk": the shares of epochs k and k + 1. -/
theorem test_carve_epoch_k : fill 100 3857 [{ n := 0x22, weight := 4, share := 332, target := 3973 }, { n := 0x23, weight := 1, share := 67, target := 338 }] =
    ([{ n := 0x22, weight := 4, share := 3918, target := 3973 }, { n := 0x23, weight := 1, share := 338, target := 338 }], 0) := by decide
theorem test_carve_epoch_next : fill 100 3857 [{ n := 0x22, weight := 4, share := 332, target := 1987 }, { n := 0x23, weight := 1, share := 67, target := 338 }] =
    ([{ n := 0x22, weight := 4, share := 1987, target := 1987 }, { n := 0x23, weight := 1, share := 338, target := 338 }], 1931) ∧
    fill 100 1931 [{ n := 0x22, weight := 4, share := 1987, target := 1987 }, { n := 0x23, weight := 1, share := 338, target := 663 }] =
    ([{ n := 0x22, weight := 4, share := 1987, target := 1987 }, { n := 0x23, weight := 1, share := 663, target := 663 }], 1606) := by decide

/-- R31: in Reset no path reaches the dictionary. -/
theorem test_unreachable_in_reset : exec (.stateRequestRun .service) State.reset = .next State.reset := rfl

/-- An empty queue lets a nanosecond pass. -/
theorem test_idle : step State.reset = .next { State.reset with clock := 1 } := rfl

/-- No word of the opcode table spells a command. -/
theorem test_no_word : decodeTableWord 16 0x1234 = none ∧ State.reset.withFetchWord 16 0x1234 = State.reset := by decide

/-! Witnesses of the statements, clause by clause. -/

/-- O1: states and operands that meet the hypotheses. -/
theorem witness_StepRunsTheFrontCommand :
    ∃ (s : State) (c : Instr) (rest : List Instr), (s.pending = c :: rest) :=
  ⟨{ hub 4 [] with pending := [.stimeLatchRead, .identifyTimeout 0] }, _, _, rfl⟩

/-- O2: states and operands that meet the hypotheses of each clause. -/
theorem witness_EmptyQueueIdlesOneNanosecond :
    (∃ (s : State), (s.pending = [])) ∧
    (∃ (s : State) (i : Nat) (x : CmdRec), (s.pending = []) ∧ (s.cmds = [(i, x)]) ∧ (x.undoing = true) ∧ (s.quiet)) :=
  ⟨⟨State.reset, by decide⟩,
   ⟨{ hub 4 [] with cmds := [(0x4201, { undoing := true })] }, _, _, ⟨by decide, rfl, rfl, ⟨by decide, rfl, rfl, rfl, rfl, rfl, rfl, fun _ => rfl⟩⟩⟩⟩

/-- O5: states and operands that meet the hypotheses. -/
theorem witness_EveryStepKeepsTheCanonicalForm :
    ∃ (s t : State), (Canonical s) ∧ (step s = .next t) :=
  ⟨State.reset, _, ⟨⟨rfl, rfl, rfl, by decide⟩, rfl⟩⟩

/-- O6: states and operands that meet the hypotheses. -/
theorem witness_EachCommandChangesOnlyItsPieces :
    ∃ (c : Instr) (s t : State) (f : Piece), (exec c s = .next t) ∧ ((mayChange c).contains f = false) :=
  ⟨.stimeLatchRead, hub 4 [], _, .keys, ⟨rfl, by decide⟩⟩

/-- O7: states and operands that meet the hypotheses. -/
theorem witness_EveryStepKeepsPartOrderAndWhatWasSent :
    ∃ (s t : State), (step s = .next t) :=
  ⟨{ hub 4 [] with pending := [.identifyTimeout 0] }, _, rfl⟩

/-- O9: states and operands that meet the hypotheses of each clause. -/
theorem witness_ViolationIsCountedAndJournalled :
    (∃ (s : State) (p : Path) (i sub k : Nat), (1 ≤ k ∧ k ≤ 7)) ∧
    (∃ (s : State) (p : Path) (i sub k : Nat) (data : Bytes) (more : List Nat) (eff : State → State), (s.reach = true) ∧ (s.judgeWrite p i sub data more = some k)) ∧
    (∃ (s : State) (p : Path) (i sub : Nat) (data : Bytes), (p.ok = true) ∧ (s.reach = true) ∧ (i < 65536 ∧ sub < 256) ∧ (rowAt i sub = none)) :=
  ⟨⟨hub 4 [], .service, 0x1000, 0, 7, by decide⟩,
   ⟨hub 4 [], .service, 0x0FFF, 0, 1, [], [], id, by decide⟩,
   ⟨hub 4 [], .service, 0x0FFF, 255, [], by decide⟩⟩

/-- O10: states and operands that meet the hypotheses of each clause. -/
theorem witness_RefusedStateRequestsAndTransitions :
    (∃ (s : State) (p : Path), (s.allows p 0x2000 2 devSetup) ∧ (s.get (ob 0x2000 4) = 0) ∧ (s.dev = devSetup)) ∧
    (∃ (s : State) (p : Path), (s.allows p 0x2000 2 devRun) ∧ (s.get (ob 0x2000 4) = 0) ∧ (s.dev = devRun)) ∧
    (∃ (s : State) (p : Path), (s.allows p 0x2000 2 devMaintain) ∧ (s.get (ob 0x2000 4) = 0) ∧ (s.dev = devSetup ∨ s.dev = devMaintain)) ∧
    (∃ (s : State) (p : Path), (s.allows p 0x2000 2 devMaintain) ∧ (s.get (ob 0x2000 4) = 1)) ∧
    (∃ (s : State) (p : Path), (s.allows p 0x2000 2 devRun) ∧ (s.get (ob 0x2000 4) = 1)) ∧
    (∃ (s : State) (p : Path), (s.allows p 0x2000 2 devSetup) ∧ (s.get (ob 0x2000 4) = 1)) ∧
    (∃ (s y : State) (p : Path) (v_ time : Nat), (s.get (ob 0x2000 4) = 1) ∧ (s.liveTunnels = []) ∧ (s.stateHeld = [(v_, p, time)]) ∧ (y = { (s.set (ob 0x2000 4) 0).enterState devSetup with stateHeld := [] })) :=
  ⟨⟨hub 3 [], .service, ⟨by simp only [State.allows]; decide, by decide, by decide⟩⟩,
   ⟨hub 4 [], .service, ⟨by simp only [State.allows]; decide, by decide, by decide⟩⟩,
   ⟨hub 3 [], .service, ⟨by simp only [State.allows]; decide, by decide, by decide⟩⟩,
   ⟨hub 4 [(ob 0x2000 4, 1)], .service, ⟨by simp only [State.allows]; decide, by decide⟩⟩,
   ⟨hub 4 [(ob 0x2000 4, 1)], .service, ⟨by simp only [State.allows]; decide, by decide⟩⟩,
   ⟨hub 4 [(ob 0x2000 4, 1)], .service, ⟨by simp only [State.allows]; decide, by decide⟩⟩,
   ⟨{ hub 4 [(ob 0x2000 4, 1)] with stateHeld := [(5, .service, 9)] }, _, .service, 5, 9, ⟨by decide, by decide, by decide, rfl⟩⟩⟩

/-- O11: states and operands that meet the hypotheses of each clause. -/
theorem witness_CustomerHashIsProgrammedOnce :
    (∃ (s : State) (p : Path), (s.takes p 0x4000 3) ∧ (s.secu.life = 1) ∧ (s.secu.custDone = false)) ∧
    (∃ (s : State) (p : Path), (s.takes p 0x4000 3) ∧ (s.secu.life ≠ 1 ∨ s.secu.custDone = true)) :=
  ⟨⟨{ hub 4 [] with secu := { life := 1 } }, .service, ⟨by simp only [State.takes, State.allows]; decide, by decide, by decide⟩⟩,
   ⟨{ hub 4 [] with secu := { life := 2 } }, .service, ⟨by simp only [State.takes, State.allows]; decide, by decide⟩⟩⟩

/-- O12: states and operands that meet the hypotheses of each clause. -/
theorem witness_NoPathReachesTheDictionaryBeforeSetup :
    (∃ (c : Instr) (s : State), (viaPath c = true) ∧ (c.wellFormed = true) ∧ (s.dev < 3)) ∧
    (∃ (s : State) (p : Path) (i sub : Nat) (data : Bytes) (more : List Nat) (eff : State → State), (s.dev < 3)) :=
  ⟨⟨.odWrite .service 0x1210 2 [5, 0], hub devLift [], by decide⟩,
   ⟨hub devBoot [], .can, 0x1210, 2, [], [], id, by decide⟩⟩

/-- O13: states and operands that meet the hypotheses of each clause. -/
theorem witness_CommandBlockAcceptsCommitsAndFails :
    (∃ (s : State) (p : Path) (i v_ : Nat) (known more : List Nat) (eff : State → State), (s.takes p i v_) ∧ (v_ ∈ known) ∧ (more = []) ∧ (objSize (ob i 0xF5 / 256) (ob i 0xF5 % 256) = 2)) ∧
    (∃ (s : State) (p : Path) (i v_ : Nat) (states known more : List Nat) (eff : State → State), (s.allows p i 0xF0 v_) ∧ (s.get (ob i 0xF2) = 1) ∧ (more = [] ∨ more = [6] ∨ more = [7]) ∧ (i ≠ 0x1F80)) :=
  ⟨⟨hub 4 [(ob 0x4400 0xF5, 65535)], .service, 0x4400, 1, [1, 2], [], id, ⟨by simp only [State.takes, State.allows]; decide, by decide, by decide, by decide⟩⟩,
   ⟨hub 4 [(ob 0x4400 0xF2, 1)], .service, 0x4400, 1, anyState, [1, 2], [7], id, ⟨by simp only [State.allows]; decide, by decide, by decide, by decide⟩⟩⟩

/-- O14: states and operands that meet the hypotheses. -/
theorem witness_ResetKeepsAndLoses :
    ∃ (s t : State) (k_ : Nat) (q : Bool), (s.dev ≠ devReset) ∧ (t = s.toReset k_ q) :=
  ⟨hub 4 [], _, 2, false, ⟨by decide, rfl⟩⟩

/-- O15: states and operands that meet the hypotheses of each clause. -/
theorem witness_FullJournalLosesItsOldest :
    (∃ (j : Journal) (e : JEntry), (∀ x, x ∈ j.ring → x.arrival + 20000 ≤ e.arrival ∨ x.time ≤ e.time ∧ (x.time = e.time → x.code ≤ e.code ∨ regionPair e x = true))) ∧
    (∃ (j : Journal) (e x : JEntry) (r : List JEntry), (j.ring = x :: r) ∧ (e.arrival < x.arrival + 20000) ∧ (e.time < x.time ∨ (e.time = x.time ∧ e.code < x.code ∧ regionPair e x = false))) :=
  ⟨⟨{ ring := [{ arrival := 5, time := 7, code := 0x6041 }] }, { arrival := 6, time := 7, code := 0x6040 }, by decide⟩,
   ⟨{ ring := [{ arrival := 5, time := 7 }] }, { arrival := 6, time := 3 }, _, _, ⟨rfl, by decide, by decide⟩⟩⟩

/-- O16: states and operands that meet the hypotheses of each clause. -/
theorem witness_ClaimsTakeTheBestPendingSource :
    (∃ (s : State) (p c : Nat), (s.irq.active p c ≠ 0)) ∧
    (∃ (s : State) (p c : Nat), (∀ k, 0 < k → k < 512 → (s.srcPending k && s.enabled p k && decide (s.get (ob (irqIndex k) 3) = c)) = false)) ∧
    (∃ (s : State) (p c b : Nat), (p < 2 ∧ c < 2) ∧ (s.irq.active p c = 0) ∧ (b = s.bestSource p c) ∧ (b ≠ 0)) ∧
    (∃ (s : State) (k_ : Nat), (1 ≤ k_ ∧ k_ < 384) ∧ (s.srcOff k_ = false)) :=
  ⟨⟨{ hub 4 [] with irq := { normalA := 3 } }, 0, 0, by decide⟩,
   ⟨hub 4 [], 0, 0, by
      intro k _ _
      have e : (hub 4 []).irq = {} := rfl
      simp [State.srcPending, Irq.level, e]⟩,
   ⟨{ hub 4 [] with irq := { latch := 96, enableA := 96 } }, 0, 0, _, ⟨by decide, by decide, rfl, by decide⟩⟩,
   ⟨hub 4 [], 383, by decide⟩⟩

/-- O17: states and operands that meet the hypotheses of each clause. -/
theorem witness_BytesOfDramAreStoredWhereComputed :
    (∃ (s y t : State) (p addr len be tag : Nat) (write : Bool) (data : TlpData), (exec (.rootPortDeviceRequest p write addr len be tag data) s = .next t) ∧ (y = s.count (pcieStat p 5) 1)) ∧
    (∃ (s t : State) (n tag off : Nat) (bs : Bytes) (mark : UnitMark), (exec (.storageUnitReceived n (.data tag off bs) mark) s = .next t) ∧ (s.stor.held = [])) ∧
    (∃ (s t : State) (n tag off : Nat) (bs : Bytes) (mark : UnitMark), (exec (.storageUnitReceived n (.data tag off bs) mark) s = .next t) ∧ (s.stor.held = [] ∧ s.seqGap n mark.seq = false) ∧ (mark.damaged = false ∧ s.hurtOf n mark.seq (storageBytes (.data tag off bs)).length = 0) ∧ (s.domainOn 11 = true ∧ s.queueMode = true) ∧ (s.tstate n = 3) ∧ (s.tcfg n 2 = 1 ∧ s.get (tunKey n 0x12) = 2 ∧ s.tcfg n 6 = 18) ∧ (bs.length ≤ s.stagingSize)) ∧
    (∃ (s t : State) (n : Nat) (u : SUnit) (mark : UnitMark), (exec (.storageUnitReceived n u mark) s = .next t) ∧ (s.stor.held = []) ∧ (∀ tag off bs, u ≠ .data tag off bs)) ∧
    (∃ (s t : State) (n d : Nat) (c : Cell) (u : DUnit) (seq : Int) (j row : Nat) (bs : Bytes), (exec (.displayCellReceived n c) s = .next t) ∧ (s.outputOf n = some d) ∧ (c.first = false ∧ (s.disp d).early = []) ∧ (seq = extend c.seq (s.tun n).h) ∧ ((s.disp d).unitAt seq = some u) ∧ (j = (seq - u.first).toNat) ∧ (bs = ((c.payload.take c.len).drop (if j = 0 then 16 else 0)).take (u.len - contentAt j)) ∧ (row = max 1 (u.w * pixelBytes (s.lay (4 * d + u.layer) 2)))) ∧
    (∃ (s t : State) (n d : Nat) (c : Cell), (exec (.displayCellReceived n c) s = .next t) ∧ (s.outputOf n = some d) ∧ (c.first = false ∧ (s.disp d).early = []) ∧ ((s.disp d).unitAt (extend c.seq (s.tun n).h) = none)) ∧
    (∃ (s t y : State) (n d : Nat) (c : Cell) (b : Bytes) (u : DUnit) (row : Nat) (bs : Bytes), (exec (.displayCellReceived n c) s = .next t) ∧ (s.outputOf n = some d) ∧ (c.first = true ∧ (s.disp d).early = [] ∧ s.get (tunKey n 0x12) ≠ 1) ∧ (b = c.payload) ∧ (u = { first := extend c.seq (s.tun n).h, kind := 1, flip := leAt b 4 2, layer := byteAt b 1, buf := byteAt b 2, x := leAt b 6 2, y := leAt b 8 2, w := leAt b 10 2, h := leAt b 12 2, len := leAt b 10 2 * leAt b 12 2 * pixelBytes (s.lay (4 * d + byteAt b 1) 2) }) ∧ (y = (s.updDisp d (fun x => { x with units := x.units ++ [u] })).updFlip d u.flip (fun f => f)) ∧ (row = max 1 (u.w * pixelBytes (y.lay (4 * d + u.layer) 2))) ∧ (bs = ((c.payload.take c.len).drop 16).take u.len)) ∧
    (∃ (s : State) (d j row : Nat) (c : Cell) (u : DUnit) (seq : Int) (bs : Bytes), (j = (seq - u.first).toNat) ∧ (bs = ((c.payload.take c.len).drop (if j = 0 then 16 else 0)).take (u.len - contentAt j)) ∧ (row = max 1 (u.w * pixelBytes (s.lay (4 * d + u.layer) 2)))) ∧
    (∃ (c : Instr) (s t : State), (exec c s = .next t) ∧ ((mayChange c).contains .dram = false)) :=
  ⟨⟨hubN 0 [(ob 0x2D00 2, 1)], _, _, 0, 16, 1, 15, 3, true, { bytes := [1, 2, 3, 4] }, ⟨rfl, rfl⟩⟩,
   ⟨{ hubN 0 [(tunKey 16 0x10, 3), (tunKey 16 0x12, 2)] with tunnels := [(16, { cfg := [(2, 1), (6, 18)] })] }, _, 16, 0, 0, [5], {}, ⟨rfl, rfl⟩⟩,
   ⟨{ hubN 0 [(tunKey 16 0x10, 3), (tunKey 16 0x12, 2)] with tunnels := [(16, { cfg := [(2, 1), (6, 18)] })] }, _, 16, 0, 0, [5], {}, ⟨rfl, by decide, by decide, by decide, by decide, by decide, by decide⟩⟩,
   ⟨{ hubN 0 [(tunKey 16 0x10, 3), (tunKey 16 0x12, 2)] with tunnels := [(16, { cfg := [(2, 1), (6, 18)] })] }, _, 16, .command 0 0 0 0, {}, ⟨rfl, rfl, by intro _ _ _ h; cases h⟩⟩,
   ⟨{ hub 4 [(tunKey 16 0x10, 3), (ob 0x2021 9, 2)] with tunnels := [(16, { cfg := [(6, 14), (8, 2)] })], disps := [(2, { units := [{ first := -1, kind := 1, w := 100, h := 1, len := 400 }] })] }, _, 16, 2, { tunnel := 16, cls := 1, first := false, len := 4, payload := [1, 2, 3, 4] }, { first := -1, kind := 1, w := 100, h := 1, len := 400 }, _, _, _, _, ⟨rfl, by decide, by decide, rfl, by decide, rfl, rfl, rfl⟩⟩,
   ⟨{ hub 4 [(tunKey 16 0x10, 3), (ob 0x2021 9, 2)] with tunnels := [(16, { cfg := [(6, 14), (8, 2)] })] }, _, 16, 2, { tunnel := 16, cls := 1, first := false, len := 4, payload := [1, 2, 3, 4] }, ⟨rfl, by decide, by decide, by decide⟩⟩,
   ⟨{ hub 4 [(tunKey 16 0x10, 3), (tunKey 16 0x12, 2), (ob 0x2021 9, 2)] with tunnels := [(16, { cfg := [(6, 14), (8, 2)] })] }, _, _, 16, 2, { tunnel := 16, cls := 1, payload := [1] }, _, _, _, _, ⟨rfl, by decide, by decide, rfl, rfl, rfl, rfl, rfl⟩⟩,
   ⟨hub 4 [], 2, _, _, { tunnel := 16, cls := 1, payload := [1] }, { first := 0, kind := 1 }, 0, _, ⟨rfl, rfl, rfl⟩⟩,
   ⟨.stimeLatchRead, hub 4 [], _, ⟨rfl, by decide⟩⟩⟩

/-- O18: states and operands that meet the hypotheses of each clause. -/
theorem witness_RefusedResponsesCountTowardsLockout :
    (∃ (s : State) (p : Path) (tk chal : Nat) (data : Bytes), (p.ok = true ∧ s.part.hasTrunk tk = true) ∧ (s.reach = true) ∧ (s.judgeWrite p 0x1100 4 data [] = none) ∧ ((s.lockout p).since = none) ∧ (s.liveChallenge p = some chal) ∧ (¬ (s.credential (s.session p).cred = true ∧ (s.session p).chalRights ≤ s.get (slotKey (112 + (s.session p).cred) 0x0D) ∧ data = s.answerTo p chal (s.session p).chalRights (s.session p).cred))) ∧
    (∃ (s : State) (p : Path) (tk : Nat) (data : Bytes), (p.ok = true ∧ s.part.hasTrunk tk = true) ∧ (s.reach = true) ∧ (s.judgeWrite p 0x1100 4 data [] = none) ∧ ((s.lockedOut p = true) ∨ ((s.lockout p).since = none ∧ s.liveChallenge p = none))) ∧
    (∃ (s t : State) (p q : Path) (tk : Nat) (data : Bytes), (exec (.sessionResponse p tk data) s = .next t) ∧ (q.held ≠ p.held)) :=
  ⟨⟨{ hub 4 [] with sessions := [(5, { rights := 3, chal := some (9, 0), chalRights := 2 })] }, .service, 0, 9, zeros 16, ⟨by decide, by decide, response_permitted _ _ (by simp [zeros]) (by decide), by decide, by decide, by rintro ⟨h, _⟩; revert h; decide⟩⟩,
   ⟨hub 4 [], .service, 0, zeros 16, ⟨by decide, by decide, response_permitted _ _ (by simp [zeros]) (by decide), by decide⟩⟩,
   ⟨hub 4 [], _, .service, .can, 0, zeros 16, ⟨rfl, by decide⟩⟩⟩

/-- O19: states and operands that meet the hypotheses of each clause. -/
theorem witness_StartCommandsComplete :
    (∃ (s : State) (card : Bool), (s.dev ≠ devReset)) ∧
    (∃ (s : State) (trueHead liftN : Bool) (r : Nat), (s.dev = devReset) ∧ (s.seqState = 5) ∧ (s.timing .resetRelease = false)) ∧
    (∃ (s : State), (s.dev = devBoot) ∧ (s.boot.domains = [])) ∧
    (∃ (s : State), (s.dev = devBoot) ∧ (s.due .bootWatchdog (sec 20) = true)) ∧
    (∃ (s : State) (p : Path), (s.allows p 0x2000 2 devSetup) ∧ (s.flag (ob 0x2000 4) = false) ∧ (s.dev = devRun ∨ s.dev = devMaintain)) ∧
    (∃ (s : State) (p : Path), (s.allows p 0x2000 2 devRun) ∧ (s.flag (ob 0x2000 4) = false) ∧ (s.dev = devSetup ∨ s.dev = devMaintain)) ∧
    (∃ (s : State) (p : Path), (s.allows p 0x2000 2 devMaintain) ∧ (s.flag (ob 0x2000 4) = false) ∧ (s.dev = devRun)) ∧
    (∃ (s : State), (s.flag (ob 0x2000 4) = true) ∧ (s.liveTunnels = []) ∧ (s.stateHeld = [])) :=
  ⟨⟨hub 4 [], true, by decide⟩,
   ⟨hub 0 [(peStat 8, 5)], true, true, 0, by decide⟩,
   ⟨hub 1 [], by decide⟩,
   ⟨{ hub 1 [] with timers := [(.bootWatchdog, 0)], clock := sec 20 }, by decide⟩,
   ⟨hub 4 [], .service, ⟨by simp only [State.allows]; decide, by decide, by decide⟩⟩,
   ⟨hub 3 [], .service, ⟨by simp only [State.allows]; decide, by decide, by decide⟩⟩,
   ⟨hub 4 [], .service, ⟨by simp only [State.allows]; decide, by decide, by decide⟩⟩,
   ⟨hub 4 [(ob 0x2000 4, 1)], by decide⟩⟩

/-- O20: states and operands that meet the hypotheses of each clause. -/
theorem witness_IslandAndDomainCommandsComplete :
    (∃ (s : State) (isl : Nat) (fifo : List (Nat × Nat)), (isl < 18) ∧ (s.dev ≠ devReset) ∧ (s.islandWatched isl = true)) ∧
    (∃ (s : State), (s.dev ≠ devReset)) ∧
    (∃ (s : State), (s.dev ≠ devReset) ∧ (s.due .d2d 10000 = true)) ∧
    (∃ (s : State) (p : Path) (dom v : Nat), (dom < 14) ∧ (s.allows p 0x2020 (dom + 1) v) ∧ (s.dramMissing dom v = false)) ∧
    (∃ (s : State) (dom : Nat) (rest : List Nat), (s.due .domainStagger 20000 = true) ∧ (s.boot.domains = dom :: rest)) ∧
    (∃ (s : State) (dom rail mv : Nat), (4 ≤ dom) ∧ (dom < 14) ∧ (rail < 7) ∧ (s.flag (enKey dom) = true) ∧ (s.domainOn dom = true)) :=
  ⟨⟨hub 3 [], 4, [], by decide⟩,
   ⟨hub 3 [], by decide⟩,
   ⟨{ hub 3 [] with timers := [(.d2d, 0)], clock := 10000 }, by decide⟩,
   ⟨hub 3 [], .service, 4, 1, ⟨by decide, by simp only [State.allows]; decide, by decide⟩⟩,
   ⟨{ hub 1 [] with timers := [(.domainStagger, 0)], clock := 20000, boot := { domains := [9, 4] } }, 9, [4], by decide⟩,
   ⟨hub 3 [(domKey 4, 2), (enKey 4, 1)], 4, 2, 700, by decide⟩⟩

/-- O21: states and operands that meet the hypotheses of each clause. -/
theorem witness_DictionaryMessagesComplete :
    (∃ (s : State) (p : Path) (i sub : Nat) (data : Bytes) (r : ObjRow), ((0x1200 ≤ i ∧ i < 0x1F80) ∨ (0x2600 ≤ i ∧ i < 0x2710)) ∧ (sub < 0xF0) ∧ (p.ok = true) ∧ (s.reach = true) ∧ (rowAt i sub = some r) ∧ (r.type ≠ 9) ∧ (s.oldProfile i = false) ∧ (s.judgeWrite p i sub data [] = none) ∧ (s.plainKinds p i sub (leNat data) = [])) ∧
    (∃ (s : State) (mp : Nat) (msg : Bytes), (mp = 4 ∨ s.part.hasTrunk mp = true) ∧ (s.mgmtOn mp = true ∧ s.lateWrites mp = []) ∧ (mp = 4 → s.ep1Halted = false ∧ s.svc.complete.contains msg = false) ∧ (mgmtMalformed mp msg = false) ∧ (s.mgmtWaiting mp < 16) ∧ (mgmtByte msg 0 = 1)) ∧
    (∃ (s : State) (mp : Nat) (msg : Bytes), (mp = 4 ∨ s.part.hasTrunk mp = true) ∧ (s.mgmtOn mp = true ∧ s.lateWrites mp = []) ∧ (mp = 4 → s.ep1Halted = false ∧ s.svc.complete.contains msg = false) ∧ (mgmtMalformed mp msg = false) ∧ (s.mgmtWaiting mp < 16) ∧ (mgmtByte msg 0 = 2) ∧ (awaitsReply mp (mgmtWord msg 4) (mgmtByte msg 6) (leNat (msg.drop 12)) = false)) ∧
    (∃ (s y : State) (mp v : Nat) (msg : Bytes) (p : Path), (mp = 4 ∨ s.part.hasTrunk mp = true) ∧ (s.mgmtOn mp = true ∧ s.lateWrites mp = []) ∧ (mp = 4 → s.ep1Halted = false ∧ s.svc.complete.contains msg = false) ∧ (mgmtMalformed mp msg = false) ∧ (s.mgmtWaiting mp < 16) ∧ (mgmtByte msg 0 = 2) ∧ (v = leNat (msg.drop 12) ∧ p = mgmtPath mp (mgmtByte msg 1)) ∧ (awaitsReply mp (mgmtWord msg 4) (mgmtByte msg 6) v = true) ∧ (y = s.mgmtSend mp (mgmtReply msg 0 [])) ∧ (y.judgeWrite p (mgmtWord msg 4) (mgmtByte msg 6) (msg.drop 12) [] = none)) ∧
    (∃ (s : State) (i sub : Nat), (s.app.gwOp = 2) ∧ (s.app.gwAddress = i * 256 + sub) ∧ (sub < 256) ∧ ((s.odWrite .gateway 0 i sub (s.app.gwData.take s.app.gwLength)).app.stop = 0)) ∧
    (∃ (s : State) (me : Nat), (me < 1024) ∧ (s.mapping = true) ∧ (s.flag (mapKey me 1) = true) ∧ ((s.mapEntry me).periodAt + msec (s.mcfg me 0x12) ≤ s.clock) ∧ (s.mcfg me 2 ≠ 3) ∧ (s.mcfg me 0x10 ≠ 2)) ∧
    (∃ (s : State) (me : Nat), (me < 1024) ∧ (s.mapping = true) ∧ (s.flag (mapKey me 1) = true) ∧ ((s.mapEntry me).periodAt + msec (s.mcfg me 0x12) ≤ s.clock) ∧ (s.mcfg me 2 ≠ 3) ∧ (s.mcfg me 0x10 = 2)) ∧
    (∃ (s : State) (me : Nat), (me < 1024) ∧ (s.mapping = true) ∧ (s.flag (mapKey me 1) = true) ∧ ((s.mapEntry me).periodAt + msec (s.mcfg me 0x12) ≤ s.clock) ∧ (s.mcfg me 2 = 3)) :=
  ⟨⟨hub 3 [], .service, 0x1210, 2, [0x10, 0x27], (rowAt 0x1210 2).get (by decide), by decide⟩,
   ⟨hub 3 [(ob 0x2A21 1, 4)], 4, [1, 0, 7, 0, 0x18, 0x10, 1, 0, 0, 0, 0, 0], by decide⟩,
   ⟨hub 3 [(ob 0x2A21 1, 4)], 4, [2, 0, 7, 0, 0x18, 0x10, 1, 0, 0, 0, 0, 0], by decide⟩,
   ⟨hub 3 [(ob 0x2A21 1, 4)], _, 4, _, [2, 0, 7, 0, 0x10, 0x20, 6, 0, 1, 0, 0, 0, 0], _, ⟨by decide, by decide, by decide, by decide, by decide, by decide, ⟨rfl, rfl⟩, by decide, rfl, by decide⟩⟩,
   ⟨{ hub 3 [] with app := { gwOp := 2, gwAddress := 0x121002, gwLength := 2, gwData := [5, 0] } }, 0x1210, 2, by decide⟩,
   ⟨hub 4 [(mapKey 0 1, 1), (ob 0x2021 14, 2)], 0, by decide⟩,
   ⟨{ hub 4 [(mapKey 0 1, 1), (ob 0x2021 14, 2)] with fld := { maps := [(0, { cfg := [(0x10, 2)] })] } }, 0, by decide⟩,
   ⟨{ hub 4 [(mapKey 0 1, 1), (ob 0x2021 14, 2)] with fld := { maps := [(0, { cfg := [(2, 3)] })] } }, 0, by decide⟩⟩

/-- O22: states and operands that meet the hypotheses of each clause. -/
theorem witness_SdoCommandsComplete :
    (∃ (s : State) (frame f : Bytes), (f = fitBytes 8 frame) ∧ (s.sdoRuns = true) ∧ (s.canOpen.sdo.kind ≠ 3) ∧ (byteAt f 0 / 32 = 1) ∧ ((byteAt f 0).testBit 1 = false)) ∧
    (∃ (s : State) (frame f : Bytes), (f = fitBytes 8 frame) ∧ (s.sdoRuns = true) ∧ (s.canOpen.sdo.kind ≠ 3) ∧ (byteAt f 0 / 32 = 1) ∧ ((byteAt f 0).testBit 1 = true)) ∧
    (∃ (s : State) (frame f : Bytes), (f = fitBytes 8 frame) ∧ (s.sdoRuns = true) ∧ (s.canOpen.sdo.kind = 1) ∧ (byteAt f 0 / 32 = 0) ∧ ((byteAt f 0).testBit 4 = s.canOpen.sdo.toggle)) ∧
    (∃ (s : State) (frame f v : Bytes) (t : State), (f = fitBytes 8 frame) ∧ (s.sdoRuns = true) ∧ (s.canOpen.sdo.kind ≠ 3) ∧ (byteAt f 0 / 32 = 2) ∧ ((v, t) = ({ s with canOpen := { s.canOpen with sdo := {} } } : State).readNow .can (leAt f 1 2) (byteAt f 3))) ∧
    (∃ (s : State) (frame f : Bytes), (f = fitBytes 8 frame) ∧ (s.sdoRuns = true) ∧ (s.canOpen.sdo.kind = 2) ∧ (byteAt f 0 / 32 = 3) ∧ ((byteAt f 0).testBit 4 = s.canOpen.sdo.toggle) ∧ (s.canOpen.sdo.data.length ≤ s.canOpen.sdo.sent + 7)) ∧
    (∃ (s : State) (frame f : Bytes), (f = fitBytes 8 frame) ∧ (s.sdoRuns = true) ∧ (s.canOpen.sdo.kind = 3) ∧ (byteAt f 0 = s.canOpen.sdo.seq + 1) ∧ (byteAt f 0 < 128) ∧ (byteAt f 0 ≠ s.canOpen.sdo.blk)) ∧
    (∃ (s : State) (frame f : Bytes), (f = fitBytes 8 frame) ∧ (s.sdoRuns = true) ∧ (s.canOpen.sdo.kind = 4) ∧ (s.canOpen.sdo.crc = false) ∧ (byteAt f 0 / 32 = 6) ∧ ((byteAt f 0).testBit 0 = true)) ∧
    (∃ (s : State) (frame f : Bytes), (f = fitBytes 8 frame) ∧ (s.sdoRuns = true) ∧ (s.canOpen.sdo.kind = 7) ∧ (byteAt f 0 / 32 = 5) ∧ (field (byteAt f 0) 0 2 = 1)) ∧
    (∃ (s : State) (frame : Bytes), (s.sdoRuns = true) ∧ (byteAt (fitBytes 8 frame) 0 = 0x80)) ∧
    (∃ (s : State), (s.sdoRuns = true) ∧ (s.canOpen.sdo.kind ≠ 0) ∧ (s.canOpen.sdo.at_ + msec (s.get (ob 0x1210 2)) ≤ s.clock)) :=
  ⟨⟨hub 4 [(ob 0x2E01 1, 1)], [0x21, 0x10, 0x12, 2, 2, 0, 0, 0], [0x21, 0x10, 0x12, 2, 2, 0, 0, 0], by decide⟩,
   ⟨hub 4 [(ob 0x2E01 1, 1)], [0x2B, 0x10, 0x12, 2, 2, 0, 0, 0], [0x2B, 0x10, 0x12, 2, 2, 0, 0, 0], by decide⟩,
   ⟨{ hub 4 [(ob 0x2E01 1, 1)] with canOpen := { sdo := { kind := 1 } } }, [1, 5, 0, 0, 0, 0, 0, 0], [1, 5, 0, 0, 0, 0, 0, 0], by decide⟩,
   ⟨hub 4 [(ob 0x2E01 1, 1)], [0x40, 0x10, 0x12, 2, 0, 0, 0, 0], [0x40, 0x10, 0x12, 2, 0, 0, 0, 0], (({ (hub 4 [(ob 0x2E01 1, 1)]) with canOpen := {} } : State).readNow .can 0x1210 2).1, (({ (hub 4 [(ob 0x2E01 1, 1)]) with canOpen := {} } : State).readNow .can 0x1210 2).2, by refine ⟨by decide, by decide, by decide, by decide, rfl⟩⟩,
   ⟨{ hub 4 [(ob 0x2E01 1, 1)] with canOpen := { sdo := { kind := 2, data := zeros 5 } } }, [0x60, 0, 0, 0, 0, 0, 0, 0], [0x60, 0, 0, 0, 0, 0, 0, 0], by decide⟩,
   ⟨{ hub 4 [(ob 0x2E01 1, 1)] with canOpen := { sdo := { kind := 3, blk := 8 } } }, [1, 5, 0, 0, 0, 0, 0, 0], [1, 5, 0, 0, 0, 0, 0, 0], by decide⟩,
   ⟨{ hub 4 [(ob 0x2E01 1, 1)] with canOpen := { sdo := { kind := 4, blk := 8 } } }, [0xC1, 5, 0, 0, 0, 0, 0, 0], [0xC1, 5, 0, 0, 0, 0, 0, 0], by decide⟩,
   ⟨{ hub 4 [(ob 0x2E01 1, 1)] with canOpen := { sdo := { kind := 7, blk := 8 } } }, [0xA1, 5, 0, 0, 0, 0, 0, 0], [0xA1, 5, 0, 0, 0, 0, 0, 0], by decide⟩,
   ⟨hub 4 [(ob 0x2E01 1, 1)], [0x80, 5, 0, 0, 0, 0, 0, 0], by decide⟩,
   ⟨{ hub 4 [(ob 0x2E01 1, 1)] with canOpen := { sdo := { kind := 1 } }, clock := sec 100 }, by decide⟩⟩

/-- O23: states and operands that meet the hypotheses of each clause. -/
theorem witness_CanOpenServicesComplete :
    (∃ (s : State) (k : Nat) (data : Bytes), (k < 4) ∧ (s.canRuns = true) ∧ (s.canOpen.nmt = 5) ∧ ((s.get (ob (0x1400 + k) 1)).testBit 31 = false) ∧ (((s.pdoMap (0x1600 + k)).map fun v => v % 256 / 8).foldl (· + ·) 0 ≤ data.length) ∧ (240 < s.get (ob (0x1400 + k) 2))) ∧
    (∃ (s : State), (s.canRuns = true)) ∧
    (∃ (s : State) (k : Nat), (k < 4) ∧ (s.tpdoOn k = true) ∧ (254 ≤ s.get (ob (0x1800 + k) 2)) ∧ (s.get (ob (0x1800 + k) 5) ≠ 0) ∧ ((s.tpdo k).timer + msec (s.get (ob (0x1800 + k) 5)) ≤ s.clock) ∧ (s.tpdoHeld k = false)) ∧
    (∃ (s : State) (k : Nat), (k < 4) ∧ (s.tpdoOn k = true) ∧ ((s.tpdo k).deferred = true) ∧ (s.tpdoHeld k = false)) ∧
    (∃ (s : State), (s.canRuns = true) ∧ (s.get (ob 0x1017 0) ≠ 0) ∧ (s.due .heartbeat (msec (s.get (ob 0x1017 0))) = true)) ∧
    (∃ (s : State) (node : Nat), (s.canRuns = true) ∧ (node = 0 ∨ node = s.canNode)) ∧
    (∃ (s : State) (node : Nat), (s.canRuns = true) ∧ (node = 0 ∨ node = s.canNode)) ∧
    (∃ (s : State) (node : Nat), (s.canRuns = true) ∧ (node = 0 ∨ node = s.canNode)) ∧
    (∃ (s : State) (node : Nat), (s.canRuns = true) ∧ (node = 0 ∨ node = s.canNode)) ∧
    (∃ (s : State) (node : Nat), (s.canRuns = true) ∧ (node = 0 ∨ node = s.canNode)) ∧
    (∃ (s : State) (k : Nat) (data : Bytes), (k < 4) ∧ (s.canRuns = true) ∧ (s.canOpen.nmt = 5) ∧ ((s.get (ob (0x1400 + k) 1)).testBit 31 = false) ∧ (s.get (ob (0x1400 + k) 2) ≤ 240)) :=
  ⟨⟨{ hub 4 [(ob 0x2E01 1, 1), (ob 0x1400 1, 0x200), (ob 0x1400 2, 241)] with canOpen := { nmt := 5 } }, 0, [], by decide⟩,
   ⟨{ hub 4 [(ob 0x2E01 1, 1)] with canOpen := { nmt := 5 } }, by decide⟩,
   ⟨{ hub 4 [(ob 0x2E01 1, 1), (ob 0x1800 1, 0x180), (ob 0x1800 2, 255), (ob 0x1800 5, 1), (ob 0x1A00 0, 1), (ob 0x1A00 1, 0x50001640)] with canOpen := { nmt := 5 }, clock := sec 1 }, 0, by decide⟩,
   ⟨{ hub 4 [(ob 0x2E01 1, 1), (ob 0x1800 1, 0x180), (ob 0x1800 2, 255), (ob 0x1800 5, 1), (ob 0x1A00 0, 1), (ob 0x1A00 1, 0x50001640)] with canOpen := { nmt := 5, tpdos := [(0, { deferred := true })] }, clock := sec 1 }, 0, by decide⟩,
   ⟨{ hub 4 [(ob 0x2E01 1, 1), (ob 0x1017 0, 100)] with timers := [(.heartbeat, 0)], clock := sec 1 }, by decide⟩,
   ⟨{ hub 4 [(ob 0x2E01 1, 1)] with canNode := 7 }, 7, by decide⟩,
   ⟨{ hub 4 [(ob 0x2E01 1, 1)] with canNode := 7 }, 7, by decide⟩,
   ⟨{ hub 4 [(ob 0x2E01 1, 1)] with canNode := 7 }, 7, by decide⟩,
   ⟨{ hub 4 [(ob 0x2E01 1, 1)] with canNode := 7 }, 7, by decide⟩,
   ⟨{ hub 4 [(ob 0x2E01 1, 1)] with canNode := 7 }, 7, by decide⟩,
   ⟨{ hub 4 [(ob 0x2E01 1, 1), (ob 0x1400 1, 0x200), (ob 0x1400 2, 240)] with canOpen := { nmt := 5 } }, 0, [], by decide⟩⟩

/-- O24: states and operands that meet the hypotheses of each clause. -/
theorem witness_SessionCommandsComplete :
    (∃ (s : State) (p : Path) (v : Nat), (s.allows p 0x1100 1 v) ∧ (v ≠ 0) ∧ (s.overLimit p = 0) ∧ (s.lockedOut p = false) ∧ (s.get (ob 0x4000 7) ≠ 1)) ∧
    (∃ (s : State) (p : Path), (s.allows p 0x1100 1 0) ∧ ((s.session p).rights ≠ 0)) ∧
    (∃ (s : State) (p : Path) (tk : Nat) (data : Bytes) (chal : Nat), (p.ok = true) ∧ (s.part.hasTrunk tk = true) ∧ (s.reach = true) ∧ (s.judgeWrite p 0x1100 4 data [] = none) ∧ (s.lockedOut p = false) ∧ ((s.lockout p).since = none) ∧ (s.liveChallenge p = some chal) ∧ (s.credential (s.session p).cred = true) ∧ ((s.session p).chalRights ≤ s.get (slotKey (112 + (s.session p).cred) 0x0D)) ∧ (data = s.answerTo p chal (s.session p).chalRights (s.session p).cred)) ∧
    (∃ (s : State) (p : Path) (c v : Nat), (p.ok = true) ∧ ((s.session p).chal = some (v, c)) ∧ (c + sec 10 ≤ s.clock)) ∧
    (∃ (s : State) (p : Path), (p.ok = true) ∧ ((s.session p).rights ≠ 0) ∧ ((s.session p).lastAccess + msec (s.get (ob 0x1101 1)) < s.clock)) ∧
    (∃ (s : State) (p : Path), (p.ok = true) ∧ ((s.session p).rights ≠ 0) ∧ ((s.session p).granted + msec (s.get (ob 0x1101 2)) < s.clock)) ∧
    (∃ (s : State) (p : Path) (sub v : Nat), (sub < 256) ∧ (s.allows p 0x1101 sub v)) ∧
    (∃ (s : State) (p : Path) (c : Nat), (p.ok = true) ∧ ((s.lockout p).since = some c) ∧ (c + sec 60 ≤ s.clock)) ∧
    (∃ (s : State) (p : Path), (s.allows p 0x1F80 1 0)) :=
  ⟨⟨hub 4 [], .service, 2, ⟨by simp only [State.allows]; decide, by decide, by decide, by decide, by decide⟩⟩,
   ⟨hub 4 [], .service, ⟨by simp only [State.allows]; decide, by decide⟩⟩,
   ⟨{ hub 4 [(slotKey 112 2, 1), (slotKey 112 3, 1), (slotKey 112 4, 8), (slotKey 112 0x0D, 3)] with sessions := [(5, { rights := 3, chal := some (9, 0), chalRights := 2 })] }, .service, 0, State.answerTo { hub 4 [(slotKey 112 2, 1), (slotKey 112 3, 1), (slotKey 112 4, 8), (slotKey 112 0x0D, 3)] with sessions := [(5, { rights := 3, chal := some (9, 0), chalRights := 2 })] } .service 9 2 0, 9, by exact ⟨by decide, by decide, by decide, response_permitted _ _ (by simp [State.answerTo, fitBytes, zeros]) (by decide), by decide, by decide, by decide, by decide, by decide, rfl⟩⟩,
   ⟨{ hub 4 [] with sessions := [(0, { chal := some (7, 0) })], clock := sec 10 }, .can, 0, 7, by decide⟩,
   ⟨{ hub 4 [] with clock := 10 ^ 16 }, .service, by decide⟩,
   ⟨{ hub 4 [] with clock := 10 ^ 16 }, .service, by decide⟩,
   ⟨hub 4 [], .service, 1, 60000, ⟨by decide, by simp only [State.allows]; decide⟩⟩,
   ⟨{ hub 4 [] with lockouts := [(0, { refusals := 5, since := some 0 })], clock := sec 60 }, .can, 0, by decide⟩,
   ⟨hub 4 [], .service, by simp only [State.allows]; decide⟩⟩

/-- O25: states and operands that meet the hypotheses of each clause. -/
theorem witness_ConfigurationCommandsComplete :
    (∃ (s : State) (p : Path) (area v : Nat), (s.allows p 0x1010 area v) ∧ (s.cmdStatus 0x1010 ≠ 1) ∧ (s.dev ≠ devRun)) ∧
    (∃ (s : State) (p : Path) (area v : Nat), (s.allows p 0x1011 area v) ∧ (s.cmdStatus 0x1011 ≠ 1) ∧ (s.dev ≠ devRun)) ∧
    (∃ (s : State) (p : Path) (i v : Nat), (i < 65536) ∧ (s.allows p i 0xF1 v) ∧ (s.cmdStatus i = 1) ∧ ((s.cmd i).undoing = false)) ∧
    (∃ (s : State) (p : Path) (i v : Nat), (i < 65536) ∧ (s.allows p i 0xF1 v) ∧ (s.cmdStatus i = 2)) ∧
    (∃ (s : State) (p : Path) (fn v : Nat), (1 ≤ fn ∧ fn ≤ 11) ∧ (s.allows p 0x2010 fn v) ∧ (s.modeBad fn v = false) ∧ (fn ≠ 4) ∧ (s.get (ob 0x2011 fn) ≠ 2) ∧ (s.get (ob 0x2010 fn) ≠ v) ∧ ((s.touch p).fnBusy fn = false)) ∧
    (∃ (s : State) (fn : Nat), (1 ≤ fn ∧ fn ≤ 11) ∧ (s.get (ob 0x2011 fn) = 2) ∧ (s.switchReady fn = true)) :=
  ⟨⟨hub 3 [], .service, 1, 0x65766173, ⟨by simp only [State.allows]; decide, by decide, by decide⟩⟩,
   ⟨hub 3 [], .service, 1, 0x64616F6C, ⟨by simp only [State.allows]; decide, by decide, by decide⟩⟩,
   ⟨hub 3 [(ob 0x2502 0xF2, 1)], .service, 0x2502, 1, ⟨by decide, by simp only [State.allows]; decide, by decide, by decide⟩⟩,
   ⟨hub 3 [(ob 0x2502 0xF2, 2)], .service, 0x2502, 1, ⟨by decide, by simp only [State.allows]; decide, by decide⟩⟩,
   ⟨hub 3 [], .service, 10, 1, ⟨by decide, by simp only [State.allows]; decide, by decide, by decide, by decide, by decide, by decide⟩⟩,
   ⟨hub 3 [(ob 0x2011 8, 2)], 8, by decide⟩⟩

/-- O26: states and operands that meet the hypotheses of each clause. -/
theorem witness_TrunkTrainingCommandsComplete :
    (∃ (s : State) (t phys : Nat) (inv : Bool) (frame : Bytes), (s.part.hasTrunk t = true) ∧ (crcGood frame = true) ∧ (phys < 5) ∧ (1 ≤ s.train t ∧ s.train t ≤ 7)) ∧
    (∃ (s : State) (p : Path) (t v : Nat), (s.part.hasTrunk t = true) ∧ (s.allows p (tkIndex t 0) 1 v)) ∧
    (∃ (s : State) (t mask : Nat), (s.part.hasTrunk t = true)) ∧
    (∃ (s : State) (t : Nat), (s.part.hasTrunk t = true) ∧ (s.train t = 2) ∧ ((s.trunk t).done = false) ∧ (s.due (.laneSync t) (msec 10) = true)) ∧
    (∃ (s : State) (t : Nat), (s.part.hasTrunk t = true) ∧ (s.train t = 3) ∧ ((s.trunk t).done = false) ∧ (s.due (.identify t) (msec 10) = true)) ∧
    (∃ (s : State) (t : Nat), (s.part.hasTrunk t = true) ∧ (s.train t = 4) ∧ (s.due (.capabilities t) (msec 50) = true)) ∧
    (∃ (s : State) (t : Nat), (s.part.hasTrunk t = true) ∧ (s.train t = 5) ∧ (s.due (.rateSwitch t) (usec 100) = true)) ∧
    (∃ (s : State) (t : Nat), (s.part.hasTrunk t = true) ∧ (s.train t = 5) ∧ ((s.trunk t).done = false) ∧ (s.due (.rateLock t) (msec 1) = true)) ∧
    (∃ (s : State) (t : Nat), (s.part.hasTrunk t = true) ∧ (s.train t = 6) ∧ (s.hostMode 1 = false)) ∧
    (∃ (s : State) (t : Nat), (s.part.hasTrunk t = true) ∧ (s.train t = 6) ∧ ((s.trunk t).done = false) ∧ (s.due (.equalise t) (msec 500) = true)) ∧
    (∃ (s : State) (t : Nat), (s.part.hasTrunk t = true) ∧ (s.train t = 7) ∧ (s.due (.verify t) (msec 10) = true)) ∧
    (∃ (s : State) (t : Nat), (s.part.hasTrunk t = true) ∧ (s.train t = 9) ∧ (s.due (.heldRetry t) (msec (s.get (tk t 0 7))) = true)) ∧
    (∃ (s : State) (t : Nat), (s.part.hasTrunk t = true) ∧ (s.train t = 6) ∧ (s.due (.eyeWait t) (sec 10) = true)) ∧
    (∃ (s : State) (t l : Nat), (s.part.hasTrunk t = true) ∧ (l < 5) ∧ (s.trained t = true)) :=
  ⟨⟨hub 3 [(tk 0 1 1, 1)], 0, 0, false, goodCell [], by decide⟩,
   ⟨hub 3 [], .service, 0, 1, ⟨by decide, by simp only [State.allows]; decide⟩⟩,
   ⟨hub 3 [], 0, 31, by decide⟩,
   ⟨{ hub 3 [(tk 0 1 1, 2)] with timers := [(.laneSync 0, 0)], clock := sec 1 }, 0, by decide⟩,
   ⟨{ hub 3 [(tk 0 1 1, 3)] with timers := [(.identify 0, 0)], clock := sec 1 }, 0, by decide⟩,
   ⟨{ hub 3 [(tk 0 1 1, 4)] with timers := [(.capabilities 0, 0)], clock := sec 1 }, 0, by decide⟩,
   ⟨{ hub 3 [(tk 0 1 1, 5)] with timers := [(.rateSwitch 0, 0)], clock := sec 1 }, 0, by decide⟩,
   ⟨{ hub 3 [(tk 0 1 1, 5)] with timers := [(.rateLock 0, 0)], clock := sec 1 }, 0, by decide⟩,
   ⟨hub 3 [(tk 0 1 1, 6)], 0, by decide⟩,
   ⟨{ hub 3 [(tk 0 1 1, 6)] with timers := [(.equalise 0, 0)], clock := sec 1 }, 0, by decide⟩,
   ⟨{ hub 3 [(tk 0 1 1, 7)] with timers := [(.verify 0, 0)], clock := sec 1 }, 0, by decide⟩,
   ⟨{ hub 3 [(tk 0 1 1, 9)] with timers := [(.heldRetry 0, 0)], clock := sec 1000 }, 0, by decide⟩,
   ⟨{ hub 3 [(tk 0 1 1, 6)] with timers := [(.eyeWait 0, 0)], clock := sec 1000 }, 0, by decide⟩,
   ⟨hub 3 [(tk 0 1 1, 8)], 0, 4, by decide⟩⟩

/-- O27: states and operands that meet the hypotheses of each clause. -/
theorem witness_TrunkServiceCommandsComplete :
    (∃ (s : State) (t : Nat) (words : List Codeword) (x : Bool) (m : Option Nat) (stamp idles : Nat), (s.part.hasTrunk t = true) ∧ (s.train t = 8) ∧ (s.get (tk t 1 4) ≠ 3)) ∧
    (∃ (s : State) (t l cause : Nat), (s.part.hasTrunk t = true) ∧ (l < 5) ∧ (s.trained t = true) ∧ (s.get (laneKey t l 3) = 2)) ∧
    (∃ (s : State) (t : Nat), (s.part.hasTrunk t = true) ∧ (s.trained t = true) ∧ (s.due (.marker t) (usec 250) = true)) ∧
    (∃ (s : State) (p : Path) (t : Nat), (s.part.hasTrunk t = true) ∧ (s.takes p (tkIndex t 0) 1) ∧ (s.trained t = true) ∧ ((s.trunk t).reqSent = false)) ∧
    (∃ (s : State) (p : Path) (t : Nat), (s.part.hasTrunk t = true) ∧ (s.takes p (tkIndex t 0) 2)) ∧
    (∃ (s : State) (t : Nat), (s.part.hasTrunk t = true) ∧ (s.trained t = true) ∧ ((s.trunk t).retrain ≠ 0) ∧ ((s.trunk t).reqSent = false) ∧ (s.drainsOn t = false)) ∧
    (∃ (s : State) (t : Nat), (s.part.hasTrunk t = true) ∧ (s.trained t = true) ∧ ((s.trunk t).reqSent = true) ∧ (s.due (.retrainWait t) (usec (s.trunk t).retrainBound) = true)) ∧
    (∃ (s : State) (p : Path) (t l pre : Nat), (s.part.hasTrunk t = true) ∧ (s.takes p (tkIndex t 0x20) 1) ∧ (s.hostMode 1 = true) ∧ (s.train t = 6) ∧ (s.get (tk t 0x20 1) = l) ∧ (s.get (tk t 0x20 4) = pre) ∧ (pre ≠ 0)) ∧
    (∃ (s : State) (p : Path) (t : Nat), (s.part.hasTrunk t = true) ∧ (s.takes p (tkIndex t 0x20) 2) ∧ (s.hostMode 1 = true) ∧ (s.train t = 6)) ∧
    (∃ (s : State) (t : Nat) (cell : Bytes), (s.part.hasTrunk t = true) ∧ (s.trained t = true) ∧ ((s.trunk t).doomed = 0) ∧ (crcGood cell = true) ∧ ((parseCell cell).tunnel = 0)) ∧
    (∃ (s : State) (t l stamp : Nat) (skew : Int), (s.part.hasTrunk t = true) ∧ (l < 4) ∧ (s.trained t = true) ∧ (s.get (tk t 1 4) = 3) ∧ (s.get (laneKey t l 3) = 2) ∧ (16 ≤ (s.lane t l).run + 1)) ∧
    (∃ (s : State) (t : Nat) (cell : Bytes), (s.part.hasTrunk t = true) ∧ ((s.trunk t).doomed ≠ 0)) :=
  ⟨⟨hub 3 [(tk 0 1 1, 8), (tk 0 1 4, 1)], 0, [], true, none, 0, 0, by decide⟩,
   ⟨hub 3 [(tk 0 1 1, 8), (laneKey 0 4 3, 2)], 0, 4, 1, by decide⟩,
   ⟨{ hub 3 [(tk 0 1 1, 8)] with timers := [(.marker 0, 0)], clock := sec 1000 }, 0, by decide⟩,
   ⟨hub 3 [(tk 0 1 1, 8)], .service, 0, ⟨by decide, by simp only [State.takes, State.allows]; decide, by decide, by decide⟩⟩,
   ⟨hub 3 [(tk 0 1 1, 8)], .service, 0, ⟨by decide, by simp only [State.takes, State.allows]; decide⟩⟩,
   ⟨{ hub 3 [(tk 0 1 1, 8)] with trunks := [(0, { retrain := 1 })] }, 0, by decide⟩,
   ⟨{ hub 3 [(tk 0 1 1, 8)] with trunks := [(0, { reqSent := true })], timers := [(.retrainWait 0, 0)], clock := sec 1000 }, 0, by decide⟩,
   ⟨hub 3 [(tk 0 1 1, 6), (ob 0x2010 1, 1), (tk 0 0x20 4, 3)], .service, 0, 0, 3, ⟨by decide, by simp only [State.takes, State.allows]; decide, by decide, by decide, by decide, by decide, by decide⟩⟩,
   ⟨hub 3 [(tk 0 1 1, 6), (ob 0x2010 1, 1)], .service, 0, ⟨by decide, by simp only [State.takes, State.allows]; decide, by decide, by decide⟩⟩,
   ⟨hub 3 [(tk 0 1 1, 8)], 0, goodCell [], by decide⟩,
   ⟨{ hub 3 [(tk 0 1 1, 8), (tk 0 1 4, 3), (laneKey 0 3 3, 2)] with trunks := [(0, { lanes := [(3, { run := 15 })] })] }, 0, 3, 0, 0, by decide⟩,
   ⟨{ hub 3 [(tk 0 1 1, 8)] with trunks := [(0, { doomed := 1 })] }, 0, goodCell [], by decide⟩⟩

/-- O28: states and operands that meet the hypotheses of each clause. -/
theorem witness_TunnelCommandsComplete :
    (∃ (s : State) (t : Nat) (raw : Bytes), (s.part.hasTrunk t = true) ∧ (s.trained t = true) ∧ ((s.trunk t).doomed = 0) ∧ (crcGood raw = true) ∧ ((parseCell raw).tunnel ≠ 0)) ∧
    (∃ (s : State) (t : Nat) (raw : Bytes), (s.part.hasTrunk t = true) ∧ (s.trained t = true) ∧ ((s.trunk t).doomed = 0) ∧ (crcGood raw = true) ∧ ((parseCell raw).tunnel ≠ 0) ∧ (malformed (parseCell raw) = false) ∧ (s.recordOn t (parseCell raw).tunnel = true) ∧ (s.live (parseCell raw).tunnel = true) ∧ (16 ≤ (parseCell raw).tunnel) ∧ (s.transit (parseCell raw).tunnel = true)) ∧
    (∃ (s : State) (p : Path) (n : Nat), (n < 4096) ∧ (s.allows p (0x3000 + n) 1 1) ∧ (s.enableBad n = false)) ∧
    (∃ (s : State) (p : Path) (n : Nat), (n < 4096) ∧ (s.allows p (0x3000 + n) 1 0)) ∧
    (∃ (s : State) (p : Path) (n sub v : Nat), (n < 4096) ∧ (2 ≤ sub ∧ sub ≤ 0x0B) ∧ (s.allows p (0x3000 + n) sub v) ∧ (sub = 9 → v &&& kindVersions (s.get (tunKey n 2)) = v ∧ v ≠ 0) ∧ (sub = 4 → v < s.part.trunks) ∧ (s.tstate n ≠ 5)) ∧
    (∃ (s : State) (p : Path) (n : Nat), (n < 4096) ∧ (4 < n) ∧ (s.takes p (0x3000 + n) 1) ∧ (s.tstate n ≠ 0)) ∧
    (∃ (s : State) (p : Path) (n : Nat), (n < 4096) ∧ (4 < n) ∧ (s.takes p (0x3000 + n) 1) ∧ (s.tstate n = 0)) ∧
    (∃ (s : State) (p : Path) (n : Nat), (n < 4096) ∧ (s.takes p (0x3000 + n) 2)) ∧
    (∃ (s : State) (t n : Nat) (msg : Bytes), (s.part.hasTrunk t = true) ∧ (16 ≤ n ∧ n < 4096) ∧ (s.recordOn t n = true) ∧ (s.transit n = false) ∧ (s.trained t = true) ∧ (s.tstate n = 2)) ∧
    (∃ (s : State) (n : Nat), (n < 4096) ∧ (s.tstate n = 2) ∧ (s.due (.offer n) (msec 10) = true) ∧ (((s.start (.offer n)).sendOffer n 0).due (.offerWait n) (sec 10) = false)) ∧
    (∃ (s : State) (t : Nat) (raw : Bytes) (bad : Bool), (s.part.hasTrunk t = true) ∧ ((s.trunk t).doomed ≠ 0)) :=
  ⟨⟨hub 4 [(tk 0 1 1, 8)], 0, goodCell [0, 16, 0, 0, 0, 0, 0, 0], by decide⟩,
   ⟨hub 4 [(tk 0 1 1, 8), (tunKey 16 0x10, 3), (tunKey 16 1, 1), (tunKey 16 2, 2)], 0, goodCell [1, 0, 0, 0, 0, 0, 0, 0], by decide⟩,
   ⟨hub 3 [(tunKey 16 2, 2), (tunKey 16 3, 1), (tunKey 16 4, 0), (tunKey 16 6, 4), (tunKey 16 9, 1), (tunKey 16 0x0D, 10), (ob 0x2021 5, 2)], .service, 16, ⟨by decide, by simp only [State.allows]; decide, by decide⟩⟩,
   ⟨hub 3 [(tunKey 16 0x0D, 10)], .service, 16, ⟨by decide, by simp only [State.allows]; decide⟩⟩,
   ⟨hub 3 [(tunKey 16 0x0D, 10)], .service, 16, 9, 2, ⟨by decide, by decide, by simp only [State.allows]; decide, by decide, by decide, by decide⟩⟩,
   ⟨hub 3 [(tunKey 16 0x10, 3)], .service, 16, ⟨by decide, by decide, by simp only [State.takes, State.allows]; decide, by decide⟩⟩,
   ⟨hub 3 [(tunKey 16 1, 1), (tunKey 16 0x0D, 10)], .service, 16, ⟨by decide, by decide, by simp only [State.takes, State.allows]; decide, by decide⟩⟩,
   ⟨hub 3 [(tunKey 16 1, 1), (tunKey 16 0x0D, 10)], .service, 16, ⟨by decide, by simp only [State.takes, State.allows]; decide⟩⟩,
   ⟨{ hub 4 [(tk 0 1 1, 8), (tunKey 16 0x10, 2), (tunKey 16 1, 1)] with tunnels := [(16, { cfg := [(6, 4)] })] }, 0, 16, [], by decide⟩,
   ⟨{ hub 4 [(tk 0 1 1, 8), (tunKey 16 0x10, 2), (tunKey 16 1, 1)] with timers := [(.offer 16, 0)], clock := sec 1 }, 16, by decide⟩,
   ⟨{ hub 4 [(tk 0 1 1, 8)] with trunks := [(0, { doomed := 1 })] }, 0, [], true, by decide⟩⟩

/-- O29: states and operands that meet the hypotheses of each clause. -/
theorem witness_TunnelDrainAndKeyCommandsComplete :
    (∃ (s : State) (n : Nat), (16 ≤ n ∧ n < 4096) ∧ (s.transit n = false) ∧ (s.tstate n = 3)) ∧
    (∃ (s : State) (n : Nat), (16 ≤ n ∧ n < 4096) ∧ (s.transit n = false) ∧ (s.tstate n = 4)) ∧
    (∃ (s : State) (n : Nat), (n < 4096) ∧ (s.tstate n = 4) ∧ (s.transit n = false) ∧ ((s.tun n).closeQueued = false) ∧ (s.queuedOut n = false)) ∧
    (∃ (s z : State) (n : Nat), (n < 4096) ∧ (s.tstate n = 4) ∧ (s.due (.drain n) (usec (s.get (tunKey n 0x0D))) = true) ∧ (z = (s.drainDiscard n).tunEv 0x3040 2 4 n (u32 (((s.drainDiscard n).tun n).discards - (s.tun n).discards) ++ u32 ((s.drainDiscard n).get (tunKey n 0x0D))))) ∧
    (∃ (s : State) (n slot : Nat), (n < 4096) ∧ (s.tstate n = 3 ∨ s.tstate n = 4)) ∧
    (∃ (s : State) (p : Path) (n v : Nat), (n < 4096) ∧ (s.allows p (0x3000 + n) 0x0C v)) ∧
    (∃ (s : State) (n : Nat), (n < 4096) ∧ (s.due (.keyReady n) (msec 1) = true) ∧ (s.tstate n = 3) ∧ (s.tcfg n 0x0A = 1) ∧ (s.get (tunKey n 0x0C) ≠ 0) ∧ (s.tunnelKey (s.get (tunKey n 0x0C)) = true)) ∧
    (∃ (s : State) (n : Nat), (n < 4096) ∧ (s.due (.oldKey n) (usec (s.get (tunKey n 0x0D))) = true)) ∧
    (∃ (s : State) (n k : Nat), (n < 4096) ∧ (k < 2) ∧ (s.live n = true) ∧ (s.sided n = true) ∧ (((s.tun n).side k).cond = 2) ∧ (((s.tun n).side k).advanced + 125000 ≤ s.clock) ∧ (((s.tun n).side k).advanced < ((s.tun n).side (1 - k)).advanced)) :=
  ⟨⟨{ hub 4 [(tunKey 16 0x10, 3)] with tunnels := [(16, { cfg := [(6, 4)] })] }, 16, by decide⟩,
   ⟨{ hub 4 [(tunKey 16 0x10, 4)] with tunnels := [(16, { cfg := [(6, 4)] })] }, 16, by decide⟩,
   ⟨{ hub 4 [(tunKey 16 0x10, 4)] with tunnels := [(16, { cfg := [(6, 4)] })] }, 16, by decide⟩,
   ⟨{ hub 4 [(tunKey 16 0x10, 4)] with tunnels := [(16, { cfg := [(6, 4)], closeSent := true })], timers := [(.drain 16, 0)], clock := sec 1000 }, _, 16, ⟨by decide, by decide, by decide, rfl⟩⟩,
   ⟨{ hub 4 [(tunKey 16 0x10, 4)] with tunnels := [(16, { cfg := [(6, 4)] })] }, 16, 3, by decide⟩,
   ⟨hub 3 [(tunKey 16 0x0D, 10)], .service, 16, 5, ⟨by decide, by simp only [State.allows]; decide⟩⟩,
   ⟨{ hub 4 [(tunKey 16 0x10, 3), (tunKey 16 0x0C, 5), (slotKey 5 2, 1), (slotKey 5 4, 2)] with tunnels := [(16, { cfg := [(6, 4), (0x0A, 1)] })], timers := [(.keyReady 16, 0)], clock := sec 1000 }, 16, by decide⟩,
   ⟨{ hub 4 [(tunKey 16 0x10, 3)] with tunnels := [(16, { cfg := [(6, 4), (0x0A, 1)] })], timers := [(.oldKey 16, 0)], clock := sec 1000 }, 16, by decide⟩,
   ⟨{ hub 4 [(tunKey 16 0x10, 3)] with tunnels := [(16, { cfg := [(5, 1), (6, 4), (0x0A, 1)], sideA := { cond := 2, advanced := 0 }, sideB := { cond := 2, advanced := 5 } })], clock := sec 1000 }, 16, 0, by decide⟩⟩

/-- O30: states and operands that meet the hypotheses of each clause. -/
theorem witness_FabricCommandsComplete :
    (∃ (s : State) (fp cls : Nat) (h : Held) (kept : List Held), (fp < 4) ∧ (s.part.hasFabricPort fp = true) ∧ (cls < 8) ∧ (s.granted fp = true) ∧ (s.classClaims fp cls = true) ∧ (takeHeld cls (s.trunk fp).held = some (h, kept)) ∧ (s.fromTunnel fp h.cell = []) ∧ (h.offered = true)) ∧
    (∃ (s y z : State) (fp cls : Nat) (h : Held) (kept : List Held) (d : Dest) (r : List Dest), (fp < 4) ∧ (s.part.hasFabricPort fp = true) ∧ (cls < 8) ∧ (s.granted fp = true) ∧ (s.classClaims fp cls = true) ∧ (y = s.updFabric (fun x => { x with grant := fp })) ∧ (takeHeld cls (y.trunk fp).held = some (h, kept)) ∧ (y.fromTunnel fp h.cell = d :: r) ∧ (h.offered = true) ∧ (y.fits (d :: r) = true) ∧ (z = ((y.store (d :: r) h.cell).updTrunk fp (fun x => { x with held := kept })).giveCredit fp cls)) ∧
    (∃ (s y : State) (fp cls : Nat) (h : Held) (kept : List Held), (4 ≤ fp ∧ fp < 18) ∧ (s.part.hasFabricPort fp = true) ∧ (cls < 8) ∧ (s.granted fp = true) ∧ (s.classClaims fp cls = true) ∧ (y = s.updFabric (fun x => { x with grant := fp })) ∧ (takeHeld cls (y.waitsAt fp) = some (h, kept)) ∧ (h.cell.tunnel ≠ 0) ∧ (fp ≠ 14) ∧ (h.offered = true) ∧ (y.destsNow h ≠ []) ∧ (∀ d ∈ y.destsNow h, d.p < 20) ∧ (y.fits (y.destsNow h) = true)) ∧
    (∃ (s y : State) (fp cls : Nat) (ready : Bool) (d : Desc) (kept : List Desc), (12 ≤ fp) ∧ (s.part.hasFabricPort fp = true) ∧ (s.portOn fp = true) ∧ (cls < 8) ∧ ((s.queue (qOf fp cls)).descs = d :: kept) ∧ (s.mayDeliver fp d.flow ready = true) ∧ (y = (if fp = 14 then (s.release fp cls [d] kept).writerTakes d.cell else s.release fp cls [d] kept))) ∧
    (∃ (s : State) (fp cls ecc : Nat) (x : Serving), (4 ≤ fp) ∧ (s.part.hasFabricPort fp = true) ∧ (cls < 8) ∧ (s.portOn fp = false)) ∧
    (∃ (s : State) (fp cls : Nat), (s.part.hasFabricPort fp = true) ∧ (cls < 8) ∧ ((s.queue (qOf fp cls)).descs = []) ∧ ((s.queue (qOf fp cls)).avgAt + 1024 ≤ s.clock)) ∧
    (∃ (s : State) (fp cls : Nat), (s.part.hasFabricPort fp = true) ∧ (cls < 8) ∧ (s.stalled fp cls = true) ∧ (s.drainsDue (qOf fp cls) = [])) ∧
    (∃ (s : State) (t : Nat), (s.part.hasTrunk t = true) ∧ ((s.trunk t).held.all (fun h => !s.overHeld t h) = false)) ∧
    (∃ (s : State) (fp cls flow : Nat), (4 ≤ fp) ∧ (s.part.hasFabricPort fp = true) ∧ (cls < 8) ∧ (Sparse.get 0 (s.queue (qOf fp cls)).opens flow ≠ 0) ∧ (Sparse.get 0 (s.queue (qOf fp cls)).opens flow - 1 + usec (s.get (ob (0x2510 + fp) 0x19)) ≤ s.clock)) ∧
    (∃ (s : State) (e : Nat), (e < 16384) ∧ ((s.l2 e).valid = true) ∧ ((s.l2 e).fixed = false) ∧ ((s.l2 e).seen + sec (s.get (ob 0x2501 1)) ≤ s.clock)) :=
  ⟨⟨{ hub 4 [] with trunks := [(0, { held := [{ cell := { tunnel := 16, cls := 1 }, since := 0, offered := true }] })] }, 0, 1, { cell := { tunnel := 16, cls := 1 }, since := 0, offered := true }, [], by decide⟩,
   ⟨{ hub 4 [(tunKey 16 6, 4), (tunKey 16 3, 1), (ob 0x2021 11, 2)] with trunks := [(0, { held := [{ cell := { tunnel := 16, cls := 1 }, since := 0, offered := true }] })] }, _, _, 0, 1, { cell := { tunnel := 16, cls := 1 }, since := 0, offered := true }, [], { p := 4, c := 1, flow := 16, cell := { tunnel := 16, cls := 1 } }, [], ⟨by decide, by decide, by decide, by decide, by decide, rfl, by decide, by decide, by decide, by decide, rfl⟩⟩,
   ⟨{ hub 4 [(ob 0x2021 11, 2), (ob 0x2021 12, 2)] with fabric := { waiting := [(12, [{ cell := { tunnel := 16, cls := 1 }, since := 0, offered := true, dests := [{ p := 4, c := 1, flow := 16, cell := { tunnel := 16, cls := 1 } }] }])] } }, _, 12, 1, { cell := { tunnel := 16, cls := 1 }, since := 0, offered := true, dests := [{ p := 4, c := 1, flow := 16, cell := { tunnel := 16, cls := 1 } }] }, [], ⟨by decide, by decide, by decide, by decide, by decide, rfl, by decide, by decide, by decide, by decide, by decide, by decide, by decide⟩⟩,
   ⟨{ hub 4 [(ob 0x2021 3, 2)] with fabric := { queues := [(137, { descs := [{ cell := { tunnel := 16, cls := 1 }, flow := 16, since := 0 }] })] } }, _, 17, 1, true, { cell := { tunnel := 16, cls := 1 }, flow := 16, since := 0 }, [], ⟨by decide, by decide, by decide, by decide, by decide, by decide, rfl⟩⟩,
   ⟨hub 4 [], 12, 1, 0, {}, by decide⟩,
   ⟨{ hub 4 [] with clock := 1024 }, 4, 1, by decide⟩,
   ⟨{ hub 4 [] with fabric := { queues := [(137, { descs := [{ cell := { tunnel := 16, cls := 1 }, flow := 16, since := 0 }] })] }, timers := [(.stall 137, 0)], clock := sec 100 }, 17, 1, by decide⟩,
   ⟨{ hub 4 [(tunKey 16 0x10, 3), (domKey 2, 2), (maxKey 17 1, 0), (reservedKey 17 1, 0)] with trunks := [(0, { held := [{ cell := { tunnel := 16, cls := 1 }, since := 0 }] })], tunnels := [(16, { cfg := [(3, 1), (6, 17)] })], clock := sec 100 }, 0, by decide⟩,
   ⟨{ hub 4 [] with fabric := { queues := [(137, { opens := [(16, 1)] })] }, clock := sec 100 }, 17, 1, 16, by decide⟩,
   ⟨{ hub 4 [] with fabric := { l2 := [(3, { valid := true })] }, clock := sec 10000 }, 3, by decide⟩⟩

/-- O31: states and operands that meet the hypotheses of each clause. -/
theorem witness_Layer2WindowCommandsComplete :
    (∃ (s : State) (p : Path) (k : Nat), (s.takes p 0x2502 1) ∧ (((s.touch p).cmdAccept 0x2502 1 p).windowSlot = some k)) ∧
    (∃ (s : State) (p : Path), (s.takes p 0x2502 1) ∧ (((s.touch p).cmdAccept 0x2502 1 p).windowSlot = none)) ∧
    (∃ (s : State) (p : Path), (s.takes p 0x2502 2)) ∧
    (∃ (s a : State) (p : Path) (k : Nat), (s.takes p 0x2502 3) ∧ (a = (s.touch p).cmdAccept 0x2502 3 p) ∧ (a.writeWay (a.get (ob 0x2502 2)) (a.get (ob 0x2502 3)) = some k)) ∧
    (∃ (s a : State) (p : Path) (k : Nat), (s.takes p 0x2502 4) ∧ (a = (s.touch p).cmdAccept 0x2502 4 p) ∧ (a.windowSlot = some k)) ∧
    (∃ (s : State) (p : Path), (s.takes p 0x2502 5)) ∧
    (∃ (s : State) (p : Path), (s.takes p 0x2500 1)) :=
  ⟨⟨{ hub 4 [(ob 0x2502 3, 255)] with fabric := { l2 := [(16184, { valid := true, vlan := 255 })] } }, .service, 16184, ⟨by simp only [State.takes, State.allows]; decide, by decide⟩⟩,
   ⟨hub 4 [], .service, ⟨by simp only [State.takes, State.allows]; decide, by decide⟩⟩,
   ⟨hub 4 [], .service, by simp only [State.takes, State.allows]; decide⟩,
   ⟨hub 4 [(ob 0x2502 3, 255)], _, .service, 16184, by refine ⟨by simp only [State.takes, State.allows]; decide, rfl, by decide⟩⟩,
   ⟨{ hub 4 [(ob 0x2502 3, 255)] with fabric := { l2 := [(16184, { valid := true, vlan := 255 })] } }, _, .service, 16184, by refine ⟨by simp only [State.takes, State.allows]; decide, rfl, by decide⟩⟩,
   ⟨hub 4 [], .service, by simp only [State.takes, State.allows]; decide⟩,
   ⟨hub 4 [], .service, by simp only [State.takes, State.allows]; decide⟩⟩

/-- O32: states and operands that meet the hypotheses of each clause. -/
theorem witness_SchedulerCommandsComplete :
    (∃ (s a : State) (t : Nat), (s.part.hasTrunk t = true) ∧ (s.cycleDue t = true) ∧ (a = ((s.followTime t).startCycle t).markCycle t)) ∧
    (∃ (s : State) (t ecc k len : Nat) (r : List (Nat × Nat)), (s.part.hasTrunk t = true) ∧ (s.trained t = true) ∧ ((s.sched t).places = (k, len) :: r) ∧ (1 < len) ∧ (1 ≤ k ∧ k ≤ 3)) ∧
    (∃ (s : State) (t ecc len : Nat) (r : List (Nat × Nat)), (s.part.hasTrunk t = true) ∧ (s.trained t = true) ∧ ((s.sched t).places = (0, len) :: r)) ∧
    (∃ (s a : State) (p : Path) (t : Nat), (s.part.hasTrunk t = true) ∧ (s.takes p (0x2610 + t) 1) ∧ (a = (s.touch p).cmdAccept (0x2610 + t) 1 p) ∧ (a.ownsSchedule t = true) ∧ (tableRule (a.table (0x2610 + t)) = 0) ∧ (a.trained t = false)) ∧
    (∃ (s a : State) (p : Path) (t : Nat), (s.part.hasTrunk t = true) ∧ (s.takes p (0x2610 + t) 1) ∧ (a = (s.touch p).cmdAccept (0x2610 + t) 1 p) ∧ (a.ownsSchedule t = true) ∧ (tableRule (a.table (0x2610 + t)) = 0) ∧ (a.trained t = true)) ∧
    (∃ (s : State) (t : Nat), (s.part.hasTrunk t = true) ∧ (s.trained t = true) ∧ (8 < (s.sched t).mismatch) ∧ (s.get (ob (0x2618 + t) 0x0F) = 1)) ∧
    (∃ (s : State) (t : Nat), (s.part.hasTrunk t = true) ∧ (s.trained t = true) ∧ ((s.sched t).epoch = true)) :=
  ⟨⟨hub 4 [(tk 0 1 1, 8)], _, 0, by refine ⟨by decide, by decide, rfl⟩⟩,
   ⟨{ hub 4 [(tk 0 1 1, 8)] with scheds := [(0, { places := [(3, 5)] })] }, 0, 0, 3, 5, [], by decide⟩,
   ⟨{ hub 4 [(tk 0 1 1, 8)] with scheds := [(0, { places := [(0, 1)] })] }, 0, 0, 1, [], by decide⟩,
   ⟨hub 4 [(tk 0 0 6, 1), (ob 0x2610 1, 0x03000000)], _, .service, 0, by refine ⟨by decide, by simp only [State.takes, State.allows]; decide, rfl, by decide, by decide, by decide⟩⟩,
   ⟨hub 4 [(tk 0 1 1, 8), (tk 0 2 0, 8 * 256 ^ 2), (ob 0x2610 1, 0x03000000)], _, .service, 0, by refine ⟨by decide, by simp only [State.takes, State.allows]; decide, rfl, by decide, by decide, by decide⟩⟩,
   ⟨{ hub 4 [(tk 0 1 1, 8), (ob 0x2618 0x0F, 1)] with scheds := [(0, { mismatch := 9 })] }, 0, by decide⟩,
   ⟨{ hub 4 [(tk 0 1 1, 8)] with scheds := [(0, { epoch := true })] }, 0, by decide⟩⟩

/-- O33: states and operands that meet the hypotheses of each clause. -/
theorem witness_DisplayOutputCommandsComplete :
    (∃ (s : State) (p : Path) (d : Nat), (s.part.hasOutput d = true) ∧ (s.allows p (0x2800 + d) 1 1) ∧ (s.outTimingBad d = false) ∧ (s.budgetBad (outCfg d 1) 1 = false)) ∧
    (∃ (s : State) (p : Path) (d : Nat), (s.part.hasOutput d = true) ∧ (s.allows p (0x2800 + d) 1 0)) ∧
    (∃ (s : State) (d : Nat), (d < 2) ∧ (s.part.hasOutput d = true) ∧ (s.outState d ≠ 3)) ∧
    (∃ (s : State) (d : Nat), (d < 2) ∧ (s.part.hasOutput d = true) ∧ (s.outState d = 1 ∨ s.outState d = 2)) ∧
    (∃ (s : State) (d : Nat), (d < 2) ∧ (s.part.hasOutput d = true) ∧ ((s.outState d = 2 ∧ s.due (.hpdLow d) (msec 2) = true) ∨ (s.outState d = 1 ∧ s.due (.hpdLow d) (msec 100) = true))) ∧
    (∃ (s : State) (d : Nat) (goods : List (Nat × Nat)), (d < 2) ∧ (s.part.hasOutput d = true) ∧ (s.outState d = 2)) ∧
    (∃ (s x : State) (d rate lanes sinkRate sinkLanes cap : Nat) (goods : List (Nat × Nat)) (edid : Bytes), (d < 2) ∧ (s.part.hasOutput d = true) ∧ (s.outState d = 1) ∧ ((s.disp d).hpd = true) ∧ (x = ((s.stop (.hpdLow d)).updDisp d fun x => { x with adapt := cap, sinkRate, sinkLanes }).setAll [(outStat d 0x12, ofBool (cap.testBit 6)), (outStat d 0x14, leNat (fitBytes 256 edid))]) ∧ (x.dpLink d goods = some (rate, lanes)) ∧ (x.dpCarries d rate lanes = true)) ∧
    (∃ (s : State) (d : Nat), (2 ≤ d) ∧ (s.part.hasOutput d = true) ∧ (s.outState d = 1)) ∧
    (∃ (s : State) (d : Nat), (s.part.hasOutput d = true) ∧ (s.outState d ≠ 0) ∧ ((s.disp d).porch = true) ∧ (s.outTunnel d = none) ∧ ((s.disp d).plan ≤ (s.disp d).line + 1) ∧ (s.get (outCfg d 0x0E) = 0)) ∧
    (∃ (s : State) (lay x y n : Nat), (lay < 16) ∧ (s.part.hasOutput (lay / 4) = true) ∧ (s.outState (lay / 4) ≠ 0) ∧ ((s.disp (lay / 4)).porch = false) ∧ ((s.disp (lay / 4)).blanked.testBit (lay % 4) = false) ∧ (x < s.timing_ (lay / 4) 3) ∧ (y < s.timing_ (lay / 4) 7) ∧ (s.layerAt (lay / 4) (lay % 4) x y ≠ none) ∧ (n = s.pixelsFrom (lay / 4) (lay % 4) x y)) ∧
    (∃ (s : State) (p : Path) (d : Nat), (s.part.hasOutput d = true) ∧ (s.takes p (0x2804 + d) 1)) :=
  ⟨⟨hub 3 [(outCfg 2 2, 71000), (outCfg 2 3, 1280), (outCfg 2 4, 48), (outCfg 2 5, 32), (outCfg 2 6, 80), (outCfg 2 7, 800), (outCfg 2 8, 3), (outCfg 2 9, 6), (outCfg 2 10, 14), (outCfg 2 12, 823), (outCfg 2 13, 823), (outCfg 2 15, 8)], .service, 2, ⟨by decide, by simp only [State.allows]; decide, by decide, by decide⟩⟩,
   ⟨hub 4 [], .service, 2, ⟨by decide, by simp only [State.allows]; decide⟩⟩,
   ⟨hub 4 [], 1, by decide⟩,
   ⟨hub 4 [(outStat 1 1, 2)], 1, by decide⟩,
   ⟨{ hub 4 [(outStat 1 1, 2)] with timers := [(.hpdLow 1, 0)], clock := sec 1 }, 1, by decide⟩,
   ⟨hub 4 [(outStat 1 1, 2)], 1, [], by decide⟩,
   ⟨{ hub 4 [(outStat 1 1, 1)] with disps := [(1, { hpd := true, timing := [(2, 148500), (15, 8), (16, 2), (17, 4)] })] }, _, 1, 2, 4, 2, 4, 0, [(2, 4)], [], ⟨by decide, by decide, by decide, by decide, rfl, by decide, by decide⟩⟩,
   ⟨hub 4 [(outStat 2 1, 1)], 2, by decide⟩,
   ⟨{ hub 4 [(outStat 2 1, 2)] with disps := [(2, { porch := true, line := 2, plan := 3 })] }, 2, by decide⟩,
   ⟨{ hub 4 [(outStat 2 1, 2)] with disps := [(2, { porch := false, timing := [(3, 1920), (7, 1080)], fronts := [1], layers := [(9 * 16 + 1, 1), (9 * 16 + 3, 100), (9 * 16 + 4, 50)] })] }, 9, 99, 49, _, ⟨by decide, by decide, by decide, by decide, by decide, by decide, by decide, by decide, rfl⟩⟩,
   ⟨hub 4 [], .service, 2, ⟨by decide, by simp only [State.takes, State.allows]; decide⟩⟩⟩

/-- O34: states and operands that meet the hypotheses of each clause. -/
theorem witness_DisplayRegionCommandsComplete :
    (∃ (s : State) (n d : Nat) (c : Cell), (n < 4096) ∧ (s.outputOf n = some d) ∧ (s.live n = true) ∧ (s.domainOn 8 = true) ∧ (c.kind ≠ 1)) ∧
    (∃ (s : State) (d reg : Nat), (s.part.hasOutput d = true) ∧ (reg < 8) ∧ (s.pendingRegion d reg = true) ∧ (∀ r, r < reg → s.pendingRegion d r = true → s.lastLine d r ≠ s.lastLine d reg)) ∧
    (∃ (s : State) (d reg : Nat), (s.part.hasOutput d = true) ∧ (reg < 8) ∧ (s.outState d ≠ 0) ∧ ((s.region d reg).mode ≠ 0) ∧ ((s.disp d).rearm = false) ∧ (s.get (regStat d reg 1) = 2 ∨ s.get (regStat d reg 1) = 4) ∧ (s.pendingRegion d reg = true → s.scanLine d ≠ some (s.lastLine d reg)) ∧ (s.get (regStat d reg 6) + msec (s.get (integ d 2)) ≤ s.station)) ∧
    (∃ (s : State) (d n : Nat), (s.part.hasOutput d = true) ∧ (s.outState d ≠ 0) ∧ ((s.disp d).porch = false) ∧ (s.outTunnel d = some n) ∧ ((s.disp d).flips = [] ∧ (s.disp d).early = []) ∧ (s.get (tunKey n 0x12) = 2) ∧ (s.get (integ d 4) = 1) ∧ ((s.disp d).freed = [])) ∧
    (∃ (s : State) (p : Path) (d : Nat), (s.part.hasOutput d = true) ∧ (s.takes p (0x2860 + d) 1)) ∧
    (∃ (s : State) (p : Path) (d reg x : Nat), (s.part.hasOutput d = true) ∧ (reg < 8) ∧ (s.allows p (0x2820 + 8 * d + reg) 6 x)) ∧
    (∃ (s : State) (d : Nat), (s.part.hasOutput d = true) ∧ (2 ≤ d) ∧ (s.outState d = 2) ∧ ((s.disp d).porch = false)) :=
  ⟨⟨{ hub 4 [(tunKey 16 0x10, 3), (ob 0x2021 9, 2)] with tunnels := [(16, { cfg := [(6, 14), (8, 2)] })] }, 16, 2, { tunnel := 16, cls := 1 }, by decide⟩,
   ⟨{ hub 4 [(outStat 2 1, 2), (regStat 2 1 1, 2)] with disps := [(2, { porch := false, regions := [(1, { mode := 1, h := 1 })] })] }, 2, 1, by decide⟩,
   ⟨{ hub 4 [(outStat 2 1, 2), (regStat 2 0 1, 2)] with disps := [(2, { regions := [(0, { mode := 1 })] })], station := sec 100 }, 2, 0, by decide⟩,
   ⟨{ hub 4 [(outStat 1 1, 2), (tunKey 16 0x10, 3), (tunKey 16 0x12, 2), (integ 1 4, 1)] with tunnels := [(16, { cfg := [(6, 14), (8, 1)] })], disps := [(1, { porch := false })] }, 1, 16, by decide⟩,
   ⟨hub 4 [], .service, 2, ⟨by decide, by simp only [State.takes, State.allows]; decide⟩⟩,
   ⟨hub 4 [], .service, 2, 0, 77, ⟨by decide, by decide, by simp only [State.allows]; decide⟩⟩,
   ⟨{ hub 4 [(outStat 2 1, 2)] with disps := [(2, { porch := false })] }, 2, by decide⟩⟩

/-- O35: states and operands that meet the hypotheses of each clause. -/
theorem witness_UsbHubFunctionCommandsComplete :
    (∃ (s : State) (n : Nat) (unit : Bytes) (r : UsbReq), (n < 4096) ∧ (s.ofHub n = true) ∧ (byteAt unit 0 = 1) ∧ (r = { tunnel := n, hdr := fitBytes 16 unit, data := unit.drop 16, order := s.usb.order }) ∧ (r.malformed (decide (s.tcfg n 8 = 1)) = false) ∧ (r.port ≠ 0)) ∧
    (∃ (s : State), (s.domainOn 12 = true) ∧ (s.usb.micro ≠ s.station / 125000)) ∧
    (∃ (s : State) (u dur : Nat) (r : UsbReq) (rest : List UsbReq), (s.part.hasUsb u = true) ∧ ((s.uport u).asyncQ = r :: rest) ∧ (s.domainOn 12 = true) ∧ (s.pstate u = 4) ∧ (s.usb.suspended = false) ∧ ((s.uport u).active = none) ∧ ((s.uport u).next = 0) ∧ ((s.uport u).perQ.any s.isNow = false) ∧ (s.station % (if r.speed = 0 then 125000 else 1000000) + dur ≤ (if r.speed = 0 then 125000 else 1000000))) ∧
    (∃ (s : State) (u res pid : Nat) (data : Bytes) (r : UsbReq), (s.part.hasUsb u = true) ∧ ((s.uport u).active = some r) ∧ (res = 0 ∨ res = 2 ∨ res = 3)) ∧
    (∃ (s : State) (u : Nat) (r : UsbReq) (rest : List UsbReq), (s.part.hasUsb u = true) ∧ ((s.uport u).asyncQ = r :: rest) ∧ (s.domainOn 12 = true) ∧ (r.naked = true) ∧ (s.nakAgain r = false)) ∧
    (∃ (s : State) (n : Nat), (n < 4096) ∧ (s.ofHub n = true) ∧ (s.tcfg n 8 = 0) ∧ (s.rawUsb = false)) ∧
    (∃ (s : State) (n : Nat), (n < 4096) ∧ (s.ofHub n = true) ∧ (s.tcfg n 8 = 0) ∧ (s.rawUsb = false)) ∧
    (∃ (s : State) (n : Nat), (n < 4096) ∧ (s.ofHub n = true) ∧ (s.tcfg n 8 = 0) ∧ (s.rawUsb = false) ∧ (s.usb.suspended = true) ∧ (s.usb.resuming = false)) ∧
    (∃ (s : State) (n sn : Nat), (n < 4096) ∧ (s.ofHub n = true) ∧ (s.tcfg n 8 = 0) ∧ (s.rawUsb = false) ∧ (s.usb.suspended = false ∨ sn ≠ s.get (usbStat 3))) ∧
    (∃ (s y : State) (n : Nat), (s.usb.resuming = true) ∧ (s.due .hubResume (msec 20) = true) ∧ (y = ({ s.stop .hubResume with usb := { s.usb with suspended := false, resuming := false } } : State).showHub) ∧ (y.hubTunnel = some n)) ∧
    (∃ (s : State) (u : Nat) (slow : Bool), (s.portOk u = true) ∧ (s.pstate u = 1) ∧ ((s.get (usbPort u 3)).testBit 8 = true)) ∧
    (∃ (s : State) (u : Nat), (s.portOk u = true) ∧ (2 ≤ s.pstate u)) ∧
    (∃ (s : State) (u len : Nat), (s.portOk u = true) ∧ (s.pstate u = 3) ∧ (2500 ≤ len) ∧ (s.due (.usbReset u) 7000001 = false)) ∧
    (∃ (s : State) (u : Nat), (s.portOk u = true) ∧ (s.pstate u = 3) ∧ (s.due (.usbReset u) (msec (s.get (ob 0x2A00 6))) = true)) ∧
    (∃ (s : State) (u : Nat), (s.portOk u = true) ∧ (s.pstate u = 5)) ∧
    (∃ (s : State) (u : Nat), (s.portOk u = true) ∧ (s.pstate u = 6) ∧ (s.due (.usbResume u) (msec 20) = true)) :=
  ⟨⟨hubU [], 16, [1, 1, 5, 0x10, 0, 0, 7, 0, 8, 0, 0, 0, 0, 0, 0, 0, 0x80, 6, 0, 1, 0, 0, 18, 0], { tunnel := 16, hdr := [1, 1, 5, 0x10, 0, 0, 7, 0, 8, 0, 0, 0, 0, 0, 0, 0], data := [0x80, 6, 0, 1, 0, 0, 18, 0], order := 0 }, by decide⟩,
   ⟨{ hubU [] with station := 500000 }, by decide⟩,
   ⟨{ hubU [(usbPort 1 1, 4)] with usb := { ports := [(1, { asyncQ := [{ tunnel := 16, hdr := zeros 16 }] })] } }, 1, 1000, { tunnel := 16, hdr := zeros 16 }, [], by decide⟩,
   ⟨{ hubU [(usbPort 1 1, 4)] with usb := { ports := [(1, { active := some { tunnel := 16, hdr := zeros 16 } })] } }, 1, 0, 2, [], { tunnel := 16, hdr := zeros 16 }, by decide⟩,
   ⟨{ hubU [(usbPort 1 1, 4)] with usb := { ports := [(1, { asyncQ := [{ tunnel := 16, hdr := zeros 16, naked := true, first := some 0 }] })] }, clock := sec 2000 }, 1, { tunnel := 16, hdr := zeros 16, naked := true, first := some 0 }, [], by decide⟩,
   ⟨hubU [], 16, by decide⟩,
   ⟨hubU [], 16, by decide⟩,
   ⟨{ hubU [] with usb := { suspended := true } }, 16, by decide⟩,
   ⟨hubU [], 16, 0, by decide⟩,
   ⟨{ hubU [] with usb := { suspended := true, resuming := true }, timers := [(.hubResume, 0)], clock := sec 1 }, _, 16, ⟨by decide, by decide, rfl, by decide⟩⟩,
   ⟨hubU [(usbPort 1 1, 1), (usbPort 1 3, 256)], 1, false, by decide⟩,
   ⟨hubU [(usbPort 1 1, 4), (usbPort 1 3, 256)], 1, by decide⟩,
   ⟨hubU [(usbPort 1 1, 3)], 1, 3000, by decide⟩,
   ⟨{ hubU [(usbPort 1 1, 3)] with timers := [(.usbReset 1, 0)], clock := sec 1 }, 1, by decide⟩,
   ⟨hubU [(usbPort 1 1, 5)], 1, by decide⟩,
   ⟨{ hubU [(usbPort 1 1, 6)] with timers := [(.usbResume 1, 0)], clock := sec 1 }, 1, by decide⟩⟩

/-- O36: states and operands that meet the hypotheses of each clause. -/
theorem witness_UsbClassRequestsComplete :
    (∃ (s : State) (u : Nat), (s.classOk u = true)) ∧
    (∃ (s : State) (u : Nat), (s.classOk u = true)) ∧
    (∃ (s : State) (u : Nat), (s.classOk u = true) ∧ (s.pstate u = 2 ∨ s.pstate u = 4) ∧ ((s.uport u).active = none)) ∧
    (∃ (s : State) (u : Nat), (s.classOk u = true) ∧ (s.pstate u = 4) ∧ ((s.uport u).active = none)) ∧
    (∃ (s : State) (u : Nat), (s.classOk u = true) ∧ (s.pstate u = 5)) ∧
    (∃ (s : State) (u : Nat), (s.classOk u = true) ∧ (4 ≤ s.pstate u)) ∧
    (∃ (s : State) (u n : Nat), (s.classOk u = true) ∧ (testKnown n = true)) ∧
    (∃ (s : State) (u f : Nat), (s.classOk u = true) ∧ (f < 5)) ∧
    (∃ (s : State) (f : Nat), (s.hubLive = true) ∧ (f < 2)) ∧
    (∃ (s : State) (u : Nat), (s.classOk u = true)) ∧
    (∃ (s : State) (n : Nat), (s.hubLive = true)) ∧
    (∃ (s : State) (num len : Nat), (s.hubLive = true)) ∧
    (∃ (s : State) (a : Nat), (s.hubLive = true) ∧ (a < 128)) ∧
    (∃ (s : State) (x : Nat), (s.hubLive = true) ∧ (x ≤ 1)) ∧
    (∃ (s : State) (alt : Nat), (s.hubLive = true) ∧ (alt ≤ 1)) ∧
    (∃ (s : State), (s.hubLive = true)) ∧
    (∃ (s : State), (s.hubLive = true)) ∧
    (∃ (s : State) (u a e t : Nat) (i : Bool), (s.classOk u = true)) ∧
    (∃ (s : State) (u : Nat), (s.classOk u = true)) :=
  ⟨⟨hubU [], 1, by decide⟩,
   ⟨hubU [], 1, by decide⟩,
   ⟨hubU [(usbPort 1 1, 4)], 1, by decide⟩,
   ⟨hubU [(usbPort 1 1, 4)], 1, by decide⟩,
   ⟨hubU [(usbPort 1 1, 5)], 1, by decide⟩,
   ⟨hubU [(usbPort 1 1, 5)], 1, by decide⟩,
   ⟨hubU [], 1, 3, by decide⟩,
   ⟨hubU [(usbPort 1 4, 5)], 1, 2, by decide⟩,
   ⟨hubU [], 1, by decide⟩,
   ⟨hubU [(usbPort 1 4, 5)], 1, by decide⟩,
   ⟨hubU [], 0, by decide⟩,
   ⟨hubU [], 0, 18, by decide⟩,
   ⟨hubU [], 5, by decide⟩,
   ⟨hubU [], 1, by decide⟩,
   ⟨hubU [], 1, by decide⟩,
   ⟨hubU [], by decide⟩,
   ⟨hubU [], by decide⟩,
   ⟨hubU [], 1, 5, 1, 2, true, by decide⟩,
   ⟨hubU [], 1, by decide⟩⟩

/-- O37: states and operands that meet the hypotheses of each clause. -/
theorem witness_UsbRelayAndRawCommandsComplete :
    (∃ (s : State) (r n : Nat) (units : List Bytes), (r < 16) ∧ (s.relayOn r = true) ∧ (n < 2 ^ 32) ∧ ((n + 2 ^ 32 - (s.relay r).down) % 2 ^ 32 = units.length) ∧ (units.length ≤ s.rcfg r 5)) ∧
    (∃ (s : State) (r n : Nat), (r < 16) ∧ (s.relayOn r = true) ∧ (n < 2 ^ 32) ∧ ((s.relay r).fullSince = none)) ∧
    (∃ (s : State) (n r : Nat) (unit : Bytes), (16 ≤ n ∧ n < 4096) ∧ (s.tstate n = 3 ∨ s.tstate n = 4) ∧ (s.tcfg n 2 = 3) ∧ (s.tcfg n 6 = 15) ∧ (r < 16) ∧ (s.tcfg n 8 = 0x100 + r ∨ s.tcfg n 8 = 0x180 + r) ∧ (s.relayOn r = true)) ∧
    (∃ (s : State) (p : Path) (u : Nat), (s.part.hasUsb u = true) ∧ (s.takes p (0x2A08 + u) 1) ∧ (s.rawUsb = true) ∧ (s.domainOn 12 = true) ∧ (s.pstate u ≤ 6)) ∧
    (∃ (s : State) (p : Path) (u : Nat), (s.part.hasUsb u = true) ∧ (s.takes p (0x2A08 + u) 2) ∧ (s.rawUsb = true) ∧ (s.domainOn 12 = true) ∧ (s.pstate u ≤ 6)) ∧
    (∃ (s : State) (p : Path) (u : Nat), (s.part.hasUsb u = true) ∧ (s.takes p (0x2A08 + u) 3) ∧ (s.rawUsb = true) ∧ (s.domainOn 12 = true) ∧ (s.pstate u = 2 ∨ s.pstate u = 4)) ∧
    (∃ (s : State) (p : Path) (u : Nat), (s.part.hasUsb u = true) ∧ (s.takes p (0x2A08 + u) 4) ∧ (s.rawUsb = true) ∧ (s.domainOn 12 = true) ∧ (s.pstate u = 4)) ∧
    (∃ (s : State) (p : Path) (u : Nat), (s.part.hasUsb u = true) ∧ (s.takes p (0x2A08 + u) 5) ∧ (s.rawUsb = true) ∧ (s.domainOn 12 = true) ∧ (s.pstate u = 5)) ∧
    (∃ (s : State) (p : Path) (u n : Nat), (s.part.hasUsb u = true) ∧ (s.takes p (0x2A08 + u) (6 + 256 * n)) ∧ (s.rawUsb = true) ∧ (s.domainOn 12 = true) ∧ (s.pstate u ≤ 6) ∧ (testKnown n = true)) ∧
    (∃ (s : State) (p : Path), (s.takes p 0x2A01 1)) :=
  ⟨⟨{ hubU [(ob 0x2021 12, 2), (pcieCfg 1 1, 1), (pcieStat 1 1, 2)] with usb := { relays := [(0, { on := true, cfg := [(2, 13), (5, 16)] })] } }, 0, 1, [[1]], by decide⟩,
   ⟨{ hubU [(ob 0x2021 12, 2), (pcieCfg 1 1, 1), (pcieStat 1 1, 2)] with usb := { relays := [(0, { on := true, cfg := [(2, 13), (5, 16)] })] } }, 0, 1, by decide⟩,
   ⟨{ hubU [(ob 0x2021 12, 2), (pcieCfg 1 1, 1), (pcieStat 1 1, 2)] with usb := { relays := [(0, { on := true, cfg := [(2, 13), (5, 16)] })] }, tunnels := [(16, { cfg := [(2, 3), (6, 15), (8, 256)] })] }, 16, 0, [2], by decide⟩,
   ⟨hubU [(ob 0x2010 5, 1), (usbPort 1 1, 4)], .service, 1, ⟨by decide, by simp only [State.takes, State.allows]; decide, by decide, by decide, by decide⟩⟩,
   ⟨hubU [(ob 0x2010 5, 1), (usbPort 1 1, 4)], .service, 1, ⟨by decide, by simp only [State.takes, State.allows]; decide, by decide, by decide, by decide⟩⟩,
   ⟨hubU [(ob 0x2010 5, 1), (usbPort 1 1, 4)], .service, 1, ⟨by decide, by simp only [State.takes, State.allows]; decide, by decide, by decide, by decide⟩⟩,
   ⟨hubU [(ob 0x2010 5, 1), (usbPort 1 1, 4)], .service, 1, ⟨by decide, by simp only [State.takes, State.allows]; decide, by decide, by decide, by decide⟩⟩,
   ⟨hubU [(ob 0x2010 5, 1), (usbPort 1 1, 5)], .service, 1, ⟨by decide, by simp only [State.takes, State.allows]; decide, by decide, by decide, by decide⟩⟩,
   ⟨hubU [(ob 0x2010 5, 1), (usbPort 1 1, 4)], .service, 1, 3, ⟨by decide, by simp only [State.takes, State.allows]; decide, by decide, by decide, by decide, by decide⟩⟩,
   ⟨hubU [], .service, by simp only [State.takes, State.allows]; decide⟩⟩

/-- O38: states and operands that meet the hypotheses of each clause. -/
theorem witness_ServiceDeviceCommandsComplete :
    (∃ (s y : State), (s.svcState = 0) ∧ (s.svcMay = true) ∧ (y = s.updSvc (fun x => { x with fast := decide (s.get (ob 0x2A20 2) = 0), wakeCap := s.flag (ob 0x2A20 5), app := s.flag (ob 0x2A20 6) }))) ∧
    (∃ (s : State), (s.svcMay = false)) ∧
    (∃ (s x y : State) (hs : Bool), (1 ≤ s.svcState) ∧ (s.svc.detach = none) ∧ (s.svc.dfu = false) ∧ (x = ((((s.setAll [(svcStat 2, 0), (svcStat 3, if hs ∧ s.svc.fast then 1 else 2), (svcStat 8, s.station)]).count (svcStat 4) 1).freshEps (0 :: faceEps 0 ++ faceEps 2)).svcGo 2)) ∧ (y = x.updSvc (fun x => { x with setup := none, stall := false, config := false, wakeOn := false, rx := [], inQ := [], detach := none, dfu := false }))) ∧
    (∃ (s x y : State) (setup d : Bytes), (s.svcIn 2 4 = true) ∧ (setup.length = 8) ∧ (s.svc.setup = none) ∧ (x = s.count (svcStat 5) 1) ∧ (y = (x.setAll [(toggleKey 0 false, 1), (toggleKey 0 true, 1)]).updSvc (fun z => { z with setup := some setup, stall := (x.svcRequest setup).isNone, inQ := Sparse.put [] 0 [] z.inQ })) ∧ (d = ((x.svcRequest setup).getD []).take (leAt setup 6 2))) ∧
    (∃ (s : State) (b : Bytes), (s.svc.setup = some b) ∧ (s.svc.stall = false)) ∧
    (∃ (s : State) (a : Nat), (s.svcState = 2 ∨ s.svcState = 3) ∧ (a < 128)) ∧
    (∃ (s : State) (x : Nat), (s.svcState = 3 ∨ s.svcState = 4) ∧ (x ≤ 1)) ∧
    (∃ (s : State) (f : Nat), (s.svcState = 4)) ∧
    (∃ (s y : State) (ep : Nat) (i : Bool), (0 < ep ∧ ep < 16) ∧ (s.epOn ep i = true) ∧ (s.flag (haltKey ep i) = false) ∧ (y = s.updSvc (fun x => { x with setup := none }))) ∧
    (∃ (s y : State) (ep : Nat) (i : Bool), (0 < ep ∧ ep < 16) ∧ (s.epOn ep i = true) ∧ (s.flag (haltKey ep i) = true) ∧ (y = s.updSvc (fun x => { x with setup := none }))) ∧
    (∃ (s y : State) (ep pid : Nat) (data : Bytes), (ep ≤ 1) ∧ (s.svcIn 2 4 = true) ∧ (s.epOn ep false = true) ∧ (data.length ≤ s.epMax ep false) ∧ (s.flag (haltKey ep false) = false) ∧ (s.svc.stall = false) ∧ (pid = s.get (toggleKey ep false)) ∧ (y = ((s.set (toggleKey ep false) (1 - s.get (toggleKey ep false))).send (.svcAnswer ep 0 [])))) ∧
    (∃ (s : State) (ep pid : Nat) (data : Bytes), (ep ≤ 1) ∧ (s.svcIn 2 4 = true) ∧ (s.epOn ep false = true) ∧ (data.length ≤ s.epMax ep false) ∧ (s.flag (haltKey ep false) = false) ∧ (s.svc.stall = false) ∧ (pid ≠ s.get (toggleKey ep false))) ∧
    (∃ (s y : State) (ep : Nat) (d : Bytes), (ep ≤ 1) ∧ (s.svcIn 2 4 = true) ∧ (s.epOn ep true = true) ∧ (s.flag (haltKey ep true) = false) ∧ (s.svc.stall = false) ∧ (s.svcReady ep = some d) ∧ (y = s.send (.svcAnswer ep 3 d))) ∧
    (∃ (s : State), (s.svcIn 1 4 = true)) ∧
    (∃ (s : State), (s.svcState = 5)) ∧
    (∃ (s y : State) (p : Path), (s.takes p 0x2A21 1) ∧ (s.svcState = 5) ∧ (s.svc.wakeOn = true) ∧ (y = (s.touch p).cmdAccept 0x2A21 1 p)) ∧
    (∃ (s : State) (p : Path), (s.allows p 0x2A20 1 1) ∧ (s.planBad = false)) :=
  ⟨⟨hubV 0 [], _, ⟨by decide, by decide, rfl⟩⟩,
   ⟨hub 4 [], by decide⟩,
   ⟨hubV 4 [], _, _, true, ⟨by decide, by decide, by decide, rfl, rfl⟩⟩,
   ⟨hubV 2 [], _, _, [0x80, 6, 0, 1, 0, 0, 18, 0], _, ⟨by decide, by decide, by decide, rfl, rfl, rfl⟩⟩,
   ⟨{ hubV 2 [] with svc := { setup := some [0, 5, 7, 0, 0, 0, 0, 0] } }, [0, 5, 7, 0, 0, 0, 0, 0], by decide⟩,
   ⟨hubV 2 [], 7, by decide⟩,
   ⟨hubV 3 [], 1, by decide⟩,
   ⟨hubV 4 [], 2, by decide⟩,
   ⟨hubV 4 [], _, 1, true, ⟨by decide, by decide, by decide, rfl⟩⟩,
   ⟨hubV 4 [(haltKey 1 true, 1)], _, 1, true, ⟨by decide, by decide, by decide, rfl⟩⟩,
   ⟨hubV 4 [], _, 1, 0, [5], ⟨by decide, by decide, by decide, by decide, by decide, by decide, by decide, rfl⟩⟩,
   ⟨hubV 4 [], 1, 1, [5], by decide⟩,
   ⟨{ hubV 4 [] with svc := { config := true, inQ := [(1, [[1, 2]])] } }, _, 1, [1, 2], ⟨by decide, by decide, by decide, by decide, by decide, by decide, rfl⟩⟩,
   ⟨hubV 4 [], by decide⟩,
   ⟨hubV 5 [], by decide⟩,
   ⟨{ hubV 5 [] with svc := { wakeOn := true } }, _, .service, ⟨by simp only [State.takes, State.allows]; decide, by decide, by decide, rfl⟩⟩,
   ⟨hubV 0 [], .service, ⟨by simp only [State.allows]; decide, by decide⟩⟩⟩

/-- O39: states and operands that meet the hypotheses of each clause. -/
theorem witness_PdMessagesComplete :
    (∃ (s y : State) (id : Nat) (rev : Nat) (pdos : List Nat), (s.pdOn = true) ∧ (id < 8) ∧ (s.pd.rxId ≠ some id) ∧ (y = ((s.send (.pdGoodCrc id)).updPd fun x => { x with rxId := some id }).heard) ∧ (y.isSink = true)) ∧
    (∃ (s y : State) (id : Nat) (rev rdo : Nat), (s.pdOn = true) ∧ (id < 8) ∧ (s.pd.rxId ≠ some id) ∧ (y = ((s.send (.pdGoodCrc id)).updPd fun x => { x with rxId := some id }).heard) ∧ (y.isSource = true) ∧ (1 ≤ field rdo 28 3 ∧ field rdo 28 3 ≤ y.pd.advertised.length) ∧ (field rdo 10 10 ≤ y.pd.advertised.getD (field rdo 28 3 - 1) 0 % 1024) ∧ (rdo % 1024 ≤ y.pd.advertised.getD (field rdo 28 3 - 1) 0 % 1024 ∨ rdo.testBit 26)) ∧
    (∃ (s y : State) (id : Nat) (k : Nat), (s.pdOn = true) ∧ (id < 8) ∧ (s.pd.rxId ≠ some id) ∧ (y = ((s.send (.pdGoodCrc id)).updPd fun x => { x with rxId := some id }).heard) ∧ (y.pd.softSent = false ∧ y.pd.asked = some k)) ∧
    (∃ (s y : State) (id : Nat), (s.pdOn = true) ∧ (id < 8) ∧ (s.pd.rxId ≠ some id) ∧ (y = ((s.send (.pdGoodCrc id)).updPd fun x => { x with rxId := some id }).heard) ∧ (y.pd.softSent = false ∧ y.pd.asked = none) ∧ (y.pd.swap = 1) ∧ (y.pd.swapOwn = true) ∧ (y.pd.swapAgreed = false ∧ y.pd.ask.any pdSwaps = false)) ∧
    (∃ (s y : State) (id : Nat) (n : Bool) (k : Nat), (s.pdOn = true) ∧ (id < 8) ∧ (s.pd.rxId ≠ some id) ∧ (y = ((s.send (.pdGoodCrc id)).updPd fun x => { x with rxId := some id }).heard) ∧ (y.pd.asked = some k)) ∧
    (∃ (s y : State) (id : Nat) (n : Bool), (s.pdOn = true) ∧ (id < 8) ∧ (s.pd.rxId ≠ some id) ∧ (y = ((s.send (.pdGoodCrc id)).updPd fun x => { x with rxId := some id }).heard) ∧ (y.pd.asked = none) ∧ (y.pd.swap ≠ 0) ∧ (y.pd.swapOwn = true)) ∧
    (∃ (s y : State) (id : Nat) (k : Nat), (s.pdOn = true) ∧ (id < 8) ∧ (s.pd.rxId ≠ some id) ∧ (y = ((s.send (.pdGoodCrc id)).updPd fun x => { x with rxId := some id }).heard) ∧ (y.pd.asked = some k)) ∧
    (∃ (s y : State) (id : Nat) (k mv ma : Nat), (s.pdOn = true) ∧ (id < 8) ∧ (s.pd.rxId ≠ some id) ∧ (y = ((s.send (.pdGoodCrc id)).updPd fun x => { x with rxId := some id }).heard) ∧ (y.isSink = true) ∧ (y.pd.swap = 0) ∧ (y.pd.target = some (k, mv, ma))) ∧
    (∃ (s y : State) (id : Nat), (s.pdOn = true) ∧ (id < 8) ∧ (s.pd.rxId ≠ some id) ∧ (y = ((s.send (.pdGoodCrc id)).updPd fun x => { x with rxId := some id }).heard) ∧ (y.pd.swap = 2) ∧ (y.pd.swapAgreed = true)) ∧
    (∃ (s y : State) (id : Nat), (s.pdOn = true) ∧ (id < 8) ∧ (s.pd.rxId ≠ some id) ∧ (y = ((s.send (.pdGoodCrc id)).updPd fun x => { x with rxId := some id }).heard)) ∧
    (∃ (s y : State) (id : Nat), (s.pdOn = true) ∧ (id < 8) ∧ (s.pd.rxId ≠ some id) ∧ (y = ((s.send (.pdGoodCrc id)).updPd fun x => { x with rxId := some id }).heard)) ∧
    (∃ (s y : State) (id : Nat), (s.pdOn = true) ∧ (id < 8) ∧ (s.pd.rxId ≠ some id) ∧ (y = ((s.send (.pdGoodCrc id)).updPd fun x => { x with rxId := some id }).heard) ∧ (y.pd.swap = 0) ∧ (y.part.qh34 = true) ∧ (y.get (pdCfg 0x0B) = 2 ∨ (y.get (pdCfg 0x0B) = 1 ∧ y.get (pdStat 3) = 2))) ∧
    (∃ (s y : State) (id : Nat), (s.pdOn = true) ∧ (id < 8) ∧ (s.pd.rxId ≠ some id) ∧ (y = ((s.send (.pdGoodCrc id)).updPd fun x => { x with rxId := some id }).heard) ∧ (y.pd.swap = 0) ∧ (y.get (pdCfg 0x0C) = 1) ∧ (y.get (pdStat 4) = 1)) ∧
    (∃ (s y : State) (id : Nat), (s.pdOn = true) ∧ (id < 8) ∧ (y = (((s.send (.pdGoodCrc id)).pdRestart.updPd fun x => { x with txId := 0, rxId := none }).pdSend .accept))) ∧
    (∃ (s : State), (s.pdOn = true)) ∧
    (∃ (s y : State) (id : Nat), (s.pdOn = true) ∧ (id < 8) ∧ (s.pd.rxId ≠ some id) ∧ (y = ((s.send (.pdGoodCrc id)).updPd fun x => { x with rxId := some id }).heard)) ∧
    (∃ (s y : State) (id hdr : Nat), (s.pdOn = true) ∧ (id < 8) ∧ (s.pd.rxId ≠ some id) ∧ (y = ((s.send (.pdGoodCrc id)).updPd fun x => { x with rxId := some id }).heard)) ∧
    (∃ (s y : State) (id : Nat), (s.pdOn = true) ∧ (id < 8) ∧ (s.pd.rxId ≠ some id) ∧ (y = ((s.send (.pdGoodCrc id)).updPd fun x => { x with rxId := some id }).heard)) ∧
    (∃ (s y : State) (id : Nat), (s.pdOn = true) ∧ (id < 8) ∧ (s.pd.rxId ≠ some id) ∧ (y = ((s.send (.pdGoodCrc id)).updPd fun x => { x with rxId := some id }).heard)) ∧
    (∃ (s y : State) (id : Nat) (carrier : Bool), (s.pdOn = true) ∧ (id < 8) ∧ (s.pd.rxId ≠ some id) ∧ (y = ((s.send (.pdGoodCrc id)).updPd fun x => { x with rxId := some id }).heard)) :=
  ⟨⟨hubD 3 [] {}, _, 0, 3, [19006] , ⟨by decide, by decide, by decide, rfl, by decide⟩⟩,
   ⟨hubD 2 [] { advertised := [0x0A019096] }, _, 0, 3, 0x10019064, ⟨by decide, by decide, by decide, rfl, by decide, by decide, by decide, by decide⟩⟩,
   ⟨hubD 3 [] { asked := some 1, askedMa := 500 }, _, 0, 1, ⟨by decide, by decide, by decide, rfl, by decide⟩⟩,
   ⟨hubD 2 [] { swap := 1, swapOwn := true }, _, 0, ⟨by decide, by decide, by decide, rfl, by decide, by decide, by decide, by decide⟩⟩,
   ⟨hubD 3 [] { asked := some 2 }, _, 0, true, 2, ⟨by decide, by decide, by decide, rfl, by decide⟩⟩,
   ⟨hubD 2 [] { swap := 1, swapOwn := true }, _, 0, false, ⟨by decide, by decide, by decide, rfl, by decide, by decide, by decide⟩⟩,
   ⟨hubD 3 [] { asked := some 1 }, _, 0, 1, ⟨by decide, by decide, by decide, rfl, by decide⟩⟩,
   ⟨hubD 3 [] { target := some (1, 5000, 900) }, _, 0, 1, 5000, 900, ⟨by decide, by decide, by decide, rfl, by decide, by decide, by decide⟩⟩,
   ⟨hubD 3 [] { swap := 2, swapAgreed := true }, _, 0, ⟨by decide, by decide, by decide, rfl, by decide, by decide⟩⟩,
   ⟨hubD 2 [] {}, _, 0, ⟨by decide, by decide, by decide, rfl⟩⟩,
   ⟨hubD 2 [] {}, _, 0, ⟨by decide, by decide, by decide, rfl⟩⟩,
   ⟨{ hubD 2 [(pdCfg 0x0B, 2)] {} with part := { State.reset.part with qh34 := true } }, _, 0, ⟨by decide, by decide, by decide, rfl, by decide, by decide, by decide⟩⟩,
   ⟨hubD 2 [(pdCfg 0x0C, 1), (pdStat 4, 1)] {}, _, 0, ⟨by decide, by decide, by decide, rfl, by decide, by decide, by decide⟩⟩,
   ⟨hubD 2 [] {}, _, 0, ⟨by decide, by decide, rfl⟩⟩,
   ⟨hubD 2 [] {}, by decide⟩,
   ⟨hubD 2 [] {}, _, 0, ⟨by decide, by decide, by decide, rfl⟩⟩,
   ⟨hubD 2 [] {}, _, 0, 0x8001, ⟨by decide, by decide, by decide, rfl⟩⟩,
   ⟨hubD 2 [] {}, _, 0, ⟨by decide, by decide, by decide, rfl⟩⟩,
   ⟨hubD 2 [] {}, _, 0, ⟨by decide, by decide, by decide, rfl⟩⟩,
   ⟨hubD 2 [] {}, _, 0, true, ⟨by decide, by decide, by decide, rfl⟩⟩⟩

/-- O40: states and operands that meet the hypotheses of each clause. -/
theorem witness_ServicePowerTimersComplete :
    (∃ (s x y : State) (cc : Nat), (s.domainOn 2 = true) ∧ (s.typeC = 0 ∨ (s.typeC = 1 ∧ s.due .pdCc (msec 100) = true)) ∧ (s.pd.discharge = false) ∧ (cc = 1 ∨ cc = 2) ∧ (s.roleMode = 1) ∧ (x = (s.stopAll [.pdDrp, .pdTrySnk, .pdCc]).setAll [(pdStat 1, 2), (pdStat 2, 2), (pdStat 3, 2), (pdStat 5, cc), (pdStat 0x0A, 0), (pdStat 9, 0)]) ∧ (y = x.pdEv 0x8001 0 168 (u8 2 ++ u8 cc ++ u8 0))) ∧
    (∃ (s : State) (cc rp : Nat), (s.domainOn 2 = true) ∧ (s.typeC = 0) ∧ (s.pd.discharge = false) ∧ (cc = 1 ∨ cc = 2) ∧ (rp ≤ 2) ∧ (s.roleMode = 0 ∨ s.roleMode = 2)) ∧
    (∃ (s x : State) (cc rp : Nat), (s.domainOn 2 = true) ∧ (s.typeC = 0 ∨ (s.typeC = 1 ∧ s.due .pdCc (msec 100) = true) ∨ s.typeC = 4) ∧ (s.pd.discharge = false) ∧ (cc = 1 ∨ cc = 2) ∧ (rp ≤ 2) ∧ (s.roleMode = 0 ∨ s.roleMode = 2) ∧ (x = (s.stopAll [.pdDrp, .pdTrySnk, .pdCc]).setAll [(pdStat 1, 3), (pdStat 2, 1), (pdStat 3, 1), (pdStat 5, cc), (pdStat 0x0A, rp), (pdStat 9, 0)])) ∧
    (∃ (s y : State), (s.typeC = 3) ∧ (y = s.pdEv 0x8002 0 168 (u16 (s.get (pdStat 7)) ++ u16 ((s.pd.target.map fun x => x.2.1).getD 0)))) ∧
    (∃ (s : State), (s.typeC = 0) ∧ (s.roleMode = 2) ∧ (s.due .pdDrp (msec 25) = true)) ∧
    (∃ (s : State), (s.typeC = 4) ∧ (s.due .pdTrySnk (msec 75) = true)) ∧
    (∃ (s x y : State) (cc : Nat), (s.domainOn 2 = true) ∧ (s.typeC = 5) ∧ (s.pd.discharge = false) ∧ (cc = 1 ∨ cc = 2) ∧ (s.roleMode = 2) ∧ (x = (s.stopAll [.pdDrp, .pdTrySnk, .pdCc]).setAll [(pdStat 1, 2), (pdStat 2, 2), (pdStat 3, 2), (pdStat 5, cc), (pdStat 0x0A, 0), (pdStat 9, 0)]) ∧ (y = x.pdEv 0x8001 0 168 (u8 2 ++ u8 cc ++ u8 0))) ∧
    (∃ (s : State), (s.typeC = 6) ∧ (s.due .pdError (msec 25) = true)) ∧
    (∃ (s : State), (s.isSource = true) ∧ (s.get (pdCfg 0x0E) = 1) ∧ (s.pd.vconnCut = false) ∧ (s.get (pdStat 4) = 0)) ∧
    (∃ (s : State) (m : PdMsg), (s.pd.waitCrc = some m) ∧ (s.pdOn = true) ∧ (s.due .pdGoodCrc 900000 = true) ∧ (s.pd.retries < (if s.get (pdStat 6) = 2 then 3 else 2))) ∧
    (∃ (s : State), (s.pdOn = true) ∧ (s.isSource = true) ∧ (s.pd.vbus = true) ∧ (s.due .pdFirstCap (msec 100) = true)) ∧
    (∃ (s : State), (s.pdOn = true) ∧ (s.isSource = true) ∧ (s.pd.capsBad = true) ∧ (s.pd.caps < 50) ∧ (s.due .pdCapRepeat (msec 100) = true)) ∧
    (∃ (s : State) (k mv ma : Nat), (s.pd.target = some (k, mv, ma)) ∧ (s.isSource = true) ∧ (s.due .pdTransition (msec 25) = true)) ∧
    (∃ (s y : State) (k mv ma : Nat) (pdos : List Nat), (s.pd.target = some (k, mv, ma)) ∧ (s.isSource = true) ∧ (s.pdOn = true) ∧ (s.timing .pdTransition = false) ∧ (y = (((s.pdSend .psRdy).contract k mv ma).updPd fun x => { x with sinkCaps := some pdos }).pdSend .getSinkCap)) ∧
    (∃ (s : State) (k v ma mv : Nat), (s.pd.target = some (k, v, ma)) ∧ (s.isSource = true) ∧ (s.pdOn = true) ∧ (s.due .pdTransitionSrc (msec 275) = true)) ∧
    (∃ (s : State), (s.isSink = true) ∧ (s.pdOn = true) ∧ (s.due .pdPsRdy (msec 450) = true)) ∧
    (∃ (s : State), (s.pdOn = true) ∧ (s.due .pdResponse (msec 27) = true) ∧ (s.pd.autoWait = false) ∧ (s.pd.asked = none) ∧ (s.pd.swap ≠ 0) ∧ (s.pd.swapOwn = true)) ∧
    (∃ (s : State) (k : Nat), (s.pd.asked = some k) ∧ (s.isSink = true) ∧ (s.pdOn = true) ∧ (s.due .pdSinkRetry (msec 100) = true)) ∧
    (∃ (s : State) (mv ma : Nat) (t : Int), (s.vbusLimit < mv) ∧ (s.isSource = true) ∧ (s.driven 8 = true)) ∧
    (∃ (s : State) (mv ma : Nat) (t : Int), (s.vbusLimit < mv) ∧ (s.isSink = true)) ∧
    (∃ (s : State) (mv : Nat), (6000 < mv) ∧ (s.dev ≠ devReset)) ∧
    (∃ (s : State) (ma : Nat), (400 < ma) ∧ (s.get (pdStat 4) = 1)) ∧
    (∃ (s : State), (s.isSource = true) ∧ (s.pd.hardStage = 1) ∧ (s.due .pdHardReset (msec 25) = true)) ∧
    (∃ (s : State), (s.pd.discharge = true) ∧ (s.driven 8 = false) ∧ (s.pd.hardStage = 2)) ∧
    (∃ (s y : State), (s.isSource = true) ∧ (s.pd.hardStage = 3) ∧ (s.due .pdRecover (msec 660) = true) ∧ (y = ((s.stop .pdRecover).updPd fun x => { x with hardStage := 0 }).request 8 true)) ∧
    (∃ (s : State) (p : Path), (s.takes p 0x2B01 1) ∧ (s.hostMode 6 = true) ∧ (s.attached = true) ∧ (s.get (pdStat 6) ≠ 0) ∧ (s.part.qh34 = true)) ∧
    (∃ (s : State) (p : Path), (s.takes p 0x2B01 2) ∧ (s.hostMode 6 = true) ∧ (s.attached = true) ∧ (s.get (pdStat 6) ≠ 0)) ∧
    (∃ (s : State) (p : Path), (s.takes p 0x2B01 3) ∧ (s.hostMode 6 = true) ∧ (s.attached = true) ∧ (s.get (pdStat 6) ≠ 0)) ∧
    (∃ (s : State) (p : Path), (s.takes p 0x2B01 4) ∧ (s.hostMode 6 = true) ∧ (s.attached = true) ∧ (s.get (pdStat 6) ≠ 0) ∧ (s.isSource = true)) ∧
    (∃ (s : State) (p : Path) (n : Nat), (s.takes p 0x2B01 (5 + 256 * n)) ∧ (s.hostMode 6 = true) ∧ (s.attached = true) ∧ (s.get (pdStat 6) ≠ 0) ∧ (s.isSink = true) ∧ (1 ≤ n ∧ n ≤ s.get (ob 0x2B02 8))) ∧
    (∃ (s : State) (p : Path) (item x : Nat), (5 ≤ item ∧ item ≤ 9) ∧ (s.allows p 0x2B00 item x) ∧ (s.pdKinds item x = [])) :=
  ⟨⟨{ hub 4 [(ob 0x2021 3, 2), (pdCfg 1, 1)] with clock := 5 }, _, _, 1, ⟨by decide, by decide, by decide, by decide, by decide, rfl, rfl⟩⟩,
   ⟨hub 4 [(ob 0x2021 3, 2), (pdCfg 1, 0)], 2, 2, by decide⟩,
   ⟨hub 4 [(ob 0x2021 3, 2), (pdCfg 1, 2), (pdStat 1, 4)], _, 2, 2, ⟨by decide, by decide, by decide, by decide, by decide, by decide, rfl⟩⟩,
   ⟨hubD 3 [] {}, _, ⟨by decide, rfl⟩⟩,
   ⟨{ hub 4 [(pdCfg 1, 2)] with timers := [(.pdDrp, 0)], clock := sec 1 }, by decide⟩,
   ⟨{ hub 4 [(pdStat 1, 4)] with timers := [(.pdTrySnk, 0)], clock := sec 1 }, by decide⟩,
   ⟨{ hub 4 [(ob 0x2021 3, 2), (pdCfg 1, 2), (pdStat 1, 5)] with clock := 5 }, _, _, 1, ⟨by decide, by decide, by decide, by decide, by decide, rfl, rfl⟩⟩,
   ⟨{ hub 4 [(pdStat 1, 6)] with timers := [(.pdError, 0)], clock := sec 1 }, by decide⟩,
   ⟨hubD 2 [(pdCfg 0x0E, 1)] {}, by decide⟩,
   ⟨{ hubD 2 [] { waitCrc := some .accept } with timers := [(.pdGoodCrc, 0)] }, .accept, by decide⟩,
   ⟨{ hubD 2 [] { vbus := true } with timers := [(.pdFirstCap, 0)] }, by decide⟩,
   ⟨{ hubD 2 [] { capsBad := true } with timers := [(.pdCapRepeat, 0)] }, by decide⟩,
   ⟨{ hubD 2 [] { target := some (2, 9000, 900) } with timers := [(.pdTransition, 0)] }, 2, 9000, 900, by decide⟩,
   ⟨hubD 2 [] { target := some (2, 9000, 900) }, _, 2, 9000, 900, [0x0C019064], ⟨by decide, by decide, by decide, by decide, rfl⟩⟩,
   ⟨{ hubD 2 [] { target := some (2, 9000, 900) } with timers := [(.pdTransitionSrc, 0)] }, 2, 9000, 900, 5100, by decide⟩,
   ⟨{ hubD 3 [] {} with timers := [(.pdPsRdy, 0)] }, by decide⟩,
   ⟨{ hubD 3 [] { swap := 1, swapOwn := true } with timers := [(.pdResponse, 0)] }, by decide⟩,
   ⟨{ hubD 3 [] { asked := some 1 } with timers := [(.pdSinkRetry, 0)] }, 1, by decide⟩,
   ⟨hubD 2 [(brStat 8 1, 2)] {}, 7000, 100, 30, by decide⟩,
   ⟨hubD 3 [] {}, 7000, 100, 30, by decide⟩,
   ⟨hub 4 [], 7000, by decide⟩,
   ⟨hubD 2 [(pdStat 4, 1)] {}, 500, by decide⟩,
   ⟨{ hubD 2 [] { hardStage := 1 } with timers := [(.pdHardReset, 0)] }, by decide⟩,
   ⟨hubD 2 [] { hardStage := 2, discharge := true }, by decide⟩,
   ⟨{ hubD 2 [] { hardStage := 3 } with timers := [(.pdRecover, 0)] }, _, ⟨by decide, by decide, by decide, rfl⟩⟩,
   ⟨{ hubD 2 [] {} with part := { State.reset.part with qh34 := true } }, .service, ⟨by simp only [State.takes, State.allows]; decide, by decide, by decide, by decide, by decide⟩⟩,
   ⟨hubD 2 [] {}, .service, ⟨by simp only [State.takes, State.allows]; decide, by decide, by decide, by decide⟩⟩,
   ⟨hubD 2 [] {}, .service, ⟨by simp only [State.takes, State.allows]; decide, by decide, by decide, by decide⟩⟩,
   ⟨hubD 2 [] {}, .service, ⟨by simp only [State.takes, State.allows]; decide, by decide, by decide, by decide, by decide⟩⟩,
   ⟨hubD 3 [(ob 0x2B02 8, 2)] {}, .service, 2, ⟨by simp only [State.takes, State.allows]; decide, by decide, by decide, by decide, by decide, by decide⟩⟩,
   ⟨hubD 2 [] {}, .service, 5, 90, ⟨by decide, by simp only [State.allows]; decide, by decide⟩⟩⟩

/-- O41: states and operands that meet the hypotheses of each clause. -/
theorem witness_EthernetCommandsComplete :
    (∃ (s : State) (e : Nat) (frame : Bytes), (s.ethUp e = true) ∧ (s.get (ethStat e 1) = 1) ∧ (64 ≤ frame.length ∧ frame.length ≤ s.get (ethCfg e 4)) ∧ (fcsGood frame = true) ∧ (isPtp (dropFcs frame) = false) ∧ (s.pairMode e = 0) ∧ (etherType (dropFcs frame) ≠ 0x88FB)) ∧
    (∃ (s y : State) (e : Nat) (frame : Bytes), (s.ethUp e = true) ∧ (s.get (ethStat e 1) = 1) ∧ (frame.length < 64) ∧ (y = s.count (ethStat e 3) 1)) ∧
    (∃ (s : State) (e n : Nat), (s.ethUp e = true) ∧ (s.get (ethStat e 1) ≠ 1) ∧ ((s.linkRates e).contains n = true)) ∧
    (∃ (s : State) (e : Nat), (s.part.hasEth e = true) ∧ (s.get (ethStat e 1) = 1)) ∧
    (∃ (s : State) (e q : Nat), (s.ethUp e = true) ∧ (s.get (ethStat e 1) = 1) ∧ (s.get (ethCfg e 5) = 1)) ∧
    (∃ (s : State) (p : Path) (e : Nat), (s.part.hasEth e = true) ∧ (s.takes p (0x2C08 + e) 1)) ∧
    (∃ (s : State) (k : Nat), (s.part.hasEth (2 * k) = true) ∧ (s.pairMode (2 * k) ≠ 0) ∧ ((s.redp k).lastLife + msec (s.get (pairKey k 3)) ≤ s.clock)) ∧
    (∃ (s : State) (e : Nat), (s.part.hasEth e = true) ∧ (s.get (ethStat e 1) = 1) ∧ (s.pairPortGood e = false)) ∧
    (∃ (s : State) (k mac : Nat) (x : Node), (s.part.hasEth (2 * k) = true) ∧ (s.node k mac = some x) ∧ (x.seen + sec (s.get (pairKey k 2)) ≤ s.clock)) :=
  ⟨⟨hubE [], 0, withFcs (zeros 60), by decide⟩,
   ⟨hubE [], _, 0, [1], ⟨by decide, by decide, by decide, rfl⟩⟩,
   ⟨hubE [(ethCfg 1 1, 1), (ethCfg 1 2, 3)], 1, 100, by decide⟩,
   ⟨hubE [], 0, by decide⟩,
   ⟨hubE [(ethCfg 0 5, 1)], 0, 100, by decide⟩,
   ⟨hubE [], .service, 0, ⟨by decide, by simp only [State.takes, State.allows]; decide⟩⟩,
   ⟨{ hubE [(pairKey 0 1, 1)] with clock := sec 10 }, 0, by decide⟩,
   ⟨{ hubE [(pairKey 0 1, 1)] with clock := sec 100 }, 0, by decide⟩,
   ⟨{ hubE [] with eth := { nodes := [{ pair := 0, mac := 5, seqs := [(1, 1)], seen := 0 }] }, clock := sec 1000 }, 0, 5, { pair := 0, mac := 5, seqs := [(1, 1)], seen := 0 }, by decide⟩⟩

/-- O42: states and operands that meet the hypotheses of each clause. -/
theorem witness_PtpCommandsComplete :
    (∃ (s y : State) (e : Nat) (frame f : Bytes), (f = s.inner e (dropFcs frame)) ∧ (fcsGood frame = true) ∧ (s.ptpTakes e f 0 = true) ∧ (y = s.count (ethStat e 3) 1) ∧ (y.ptpSource e = false) ∧ (y.get (ethCfg e 0x0B) ≠ 3)) ∧
    (∃ (s y : State) (e : Nat) (frame f : Bytes), (f = s.inner e (dropFcs frame)) ∧ (fcsGood frame = true) ∧ (s.ptpTakes e f 0 = true) ∧ (y = s.count (ethStat e 3) 1) ∧ (y.ptpSource e = true) ∧ (ptpAt f 4 1 = y.get (ob 0x2F00 0x13)) ∧ ((ptpAt f 6 1).testBit 1 = false)) ∧
    (∃ (s y : State) (e : Nat) (frame f : Bytes), (f = s.inner e (dropFcs frame)) ∧ (fcsGood frame = true) ∧ (s.ptpTakes e f 8 = true) ∧ (y = s.count (ethStat e 3) 1) ∧ (y.ptpSource e = true) ∧ ((s.ethp e).syncSeq = some (ptpAt f 30 2)) ∧ (ptpAt f 4 1 = y.get (ob 0x2F00 0x13))) ∧
    (∃ (s y z : State) (e : Nat) (frame f b v : Bytes), (f = s.inner e (dropFcs frame)) ∧ (fcsGood frame = true) ∧ (s.ptpTakes e f 11 = true) ∧ (z = s.count (ethStat e 3) 1) ∧ (b = f.drop (bodyAt f)) ∧ (v = (b.drop 53).take 8 ++ (b.drop 47).take 1 ++ (b.drop 48).take 4 ++ (b.drop 52).take 1 ++ (b.drop 61).take 2) ∧ (y = (z.set (ethCfg e 0x0E) (leNat v)).updEthp e (fun x => { x with announced := z.clock })) ∧ (z.ptpSource e = false)) ∧
    (∃ (s y : State) (e : Nat) (frame f : Bytes), (f = s.inner e (dropFcs frame)) ∧ (fcsGood frame = true) ∧ (s.ptpTakes e f 2 = true) ∧ (y = s.count (ethStat e 3) 1) ∧ (y.get (ob 0x2F00 0x10) ≠ 2)) ∧
    (∃ (s y : State) (e : Nat) (frame f : Bytes), (f = s.inner e (dropFcs frame)) ∧ (fcsGood frame = true) ∧ (s.ptpTakes e f 3 = true) ∧ (y = s.count (ethStat e 3) 1) ∧ ((f.drop (bodyAt f + 44)).take 10 = fitBytes 8 (Config.clockIdentity y.part.serial) ++ beBytes 2 (e + 1)) ∧ (ptpAt f 30 2 = ((s.ethp e).reqSeq + 65535) % 65536) ∧ ((ptpAt f 6 1).testBit 1 = false)) ∧
    (∃ (s x y : State) (e : Nat) (gm : Bytes), (s.part.hasEth e = true) ∧ (s.get (ethCfg e 0x0B) = 3) ∧ (s.timeValid = true) ∧ ((s.ethp e).lastSync + sec 1 ≤ s.clock) ∧ (s.get (ob 0x2F00 0x10) ≠ 2) ∧ (x = s.updEthp e (fun y => { y with lastSync := s.clock, outSeq := wrapAdd 16 y.outSeq 1 })) ∧ (y = x.ptpSend e false (x.ptpHead e 0 44 0 0 (s.ethp e).outSeq 0 ++ ptpTime x.station)) ∧ (gm = (if y.sourceGm = 0 then fitBytes 8 (Config.clockIdentity y.part.serial) else leBytes 8 y.sourceGm))) ∧
    (∃ (s : State) (e : Nat), (s.part.hasEth e = true) ∧ (s.get (ethCfg e 0x0B) ≠ 0) ∧ ((s.ethp e).lastReq + sec 1 ≤ s.clock)) ∧
    (∃ (s : State) (e : Nat), (s.part.hasEth e = true) ∧ (s.ptpSource e = true) ∧ (s.time.valid = true) ∧ ((s.ethp e).announced + sec 3 ≤ s.clock)) :=
  ⟨⟨hubE [], _, 0, ptpW 0, _, ⟨rfl, by decide, by decide, rfl, by decide, by decide⟩⟩,
   ⟨hubE [(ob 0x2F00 1, 1)], _, 0, ptpW 0, _, ⟨rfl, by decide, by decide, rfl, by decide, by decide, by decide⟩⟩,
   ⟨{ hubE [(ob 0x2F00 1, 1)] with eth := { ports := [(0, { syncSeq := some 0 })] } }, _, 0, ptpW 8, _, ⟨rfl, by decide, by decide, rfl, by decide, by decide, by decide⟩⟩,
   ⟨hubE [], _, _, 0, ptpW 11, _, _, _, ⟨rfl, by decide, by decide, rfl, rfl, rfl, rfl, by decide⟩⟩,
   ⟨hubE [(ob 0x2F00 0x10, 1)], _, 0, ptpW 2, _, ⟨rfl, by decide, by decide, rfl, by decide⟩⟩,
   ⟨{ hubE [] with eth := { ports := [(0, { reqSeq := 1 })] } }, _, 0, withFcs ([0x01, 0x1B, 0x19, 0, 0, 0, 2, 0, 0, 0, 0, 1, 0x88, 0xF7, 3] ++ zeros 43 ++ (fitBytes 8 (Config.clockIdentity (hubE []).part.serial) ++ beBytes 2 1)), ([0x01, 0x1B, 0x19, 0, 0, 0, 2, 0, 0, 0, 0, 1, 0x88, 0xF7, 3] ++ zeros 43 ++ (fitBytes 8 (Config.clockIdentity (hubE []).part.serial) ++ beBytes 2 1)), ⟨by rw [inner_zero _ _ _ (by decide), dropFcs_withFcs], fcsGood_withFcs _, by decide, rfl, by
      have a : bodyAt ([0x01, 0x1B, 0x19, 0, 0, 0, 2, 0, 0, 0, 0, 1, 0x88, 0xF7, 3] ++ zeros 43 ++
        (fitBytes 8 (Config.clockIdentity (hubE []).part.serial) ++ beBytes 2 1)) = 14 := by decide
      rw [a, List.drop_append_of_le_length (by decide)]
      have b : ([0x01, 0x1B, 0x19, 0, 0, 0, 2, 0, 0, 0, 0, 1, 0x88, 0xF7, 3] ++ zeros 43 : Bytes).drop (14 + 44) = [] := by decide
      rw [b]
      simp [fitBytes, zeros, beBytes, leBytes], by decide, by decide⟩⟩,
   ⟨{ hubE [(ethCfg 0 0x0B, 3), (ob 0x2F01 1, 2), (ob 0x2F00 0x10, 1)] with clock := sec 10 }, _, _, 0, _, ⟨by decide, by decide, by decide, by decide, by decide, rfl, rfl, rfl⟩⟩,
   ⟨{ hubE [] with clock := sec 10 }, 0, by decide⟩,
   ⟨{ hubE [(ob 0x2F00 1, 1)] with clock := sec 10, time := { valid := true } }, 0, by decide⟩⟩

/-- O43: states and operands that meet the hypotheses of each clause. -/
theorem witness_TimeCommandsComplete :
    (∃ (s : State) (at_ : Nat) (f : Irig), (s.part.qh34 = true ∧ s.reach = true) ∧ (f.good = true) ∧ (s.tmSource = 3) ∧ (s.get (ob 0x2F00 0x0A) ≠ 1)) ∧
    (∃ (s y : State) (at_ : Nat) (f : Irig), (s.part.qh34 = true ∧ s.reach = true) ∧ (f.good = false) ∧ (s.tmSource = 3) ∧ (y = (s.count (ob 0x2F01 0x0B) 1).inputErrors 1 0 0)) ∧
    (∃ (s : State) (r : Bool), (s.tmSource = 4) ∧ (r = decide (s.get (ob 0x2F00 0x0E) = 0))) ∧
    (∃ (s : State), (s.timeValid = true) ∧ (s.get (ob 0x2F00 0x0C) = 1) ∧ (s.station % 1000000000 = 0) ∧ (s.time.pps = false)) ∧
    (∃ (s : State), (s.time.pps = true) ∧ (s.time.ppsAt + msec (s.get (ob 0x2F00 0x0D)) ≤ s.clock)) ∧
    (∃ (s : State), (s.time.valid = true) ∧ (s.lossCause ≠ 0) ∧ (s.tmSource ≠ 4)) ∧
    (∃ (s : State), (s.tmState = 3) ∧ (s.time.holdAt + sec (s.get (ob 0x2F00 7)) ≤ s.clock)) ∧
    (∃ (s : State) (p : Path) (sub x : Nat), (sub = 1 ∨ sub = 2) ∧ (s.allows p 0x2F00 sub x) ∧ (x ≠ 3 ∨ sub = 2 ∨ s.part.qh34 = true)) ∧
    (∃ (s : State) (c : Nat), (c = 1 ∨ c = 2 ∨ c = 3 ∨ c = 6)) ∧
    (∃ (s y : State) (p : Path), (s.takes p 0x2F00 1) ∧ (y = (s.touch p).cmdAccept 0x2F00 1 p) ∧ (y.hostMode 9 = false) ∧ (y.time.valid = true) ∧ (y.time.sampled = true)) ∧
    (∃ (s y : State) (p : Path), (s.takes p 0x2F00 2) ∧ (y = (s.touch p).cmdAccept 0x2F00 2 p)) ∧
    (∃ (s y : State) (p : Path), (s.takes p 0x2F00 3) ∧ (y = (s.touch p).cmdAccept 0x2F00 3 p) ∧ (y.hostMode 9 = true)) ∧
    (∃ (s y : State) (p : Path) (x : Nat), (s.allows p 0x2F03 2 x) ∧ (y = (s.touch p).set (ob 0x2F03 2) x)) ∧
    (∃ (s : State) (t : Nat), (s.trained t = true) ∧ ((s.trunk t).cycle % 8 = 0) ∧ ((s.plt t).statusSent ≠ some (s.trunk t).cycle)) ∧
    (∃ (s y : State) (t : Nat) (msg : Bytes), (s.trained t = true) ∧ (y = (s.setAll [(ob (0x2F04 + t) 6, byteAt msg 0), (ob (0x2F04 + t) 7, byteAt msg 2)]).updPl t (fun x => { x with utc := some (leAt msg 4 2, byteAt msg 6), gm := leAt msg 8 8 }))) ∧
    (∃ (s : State) (n : Int) (o : Nat), (n = (if s.leapByte % 4 = 1 then 1 else if s.leapByte % 4 = 3 then -1 else 0)) ∧ (n ≠ 0) ∧ (o = sput 16 (sget 16 s.utcOffset + n)) ∧ (((s.station : Int) - sget 16 o * 1000000000) % (86400 * 1000000000) < 1000000000)) :=
  ⟨⟨hub 4 [(ob 0x2F00 1, 3), (ob 0x2F00 0x0A, 0)], 5, {}, by decide⟩,
   ⟨hub 4 [(ob 0x2F00 1, 3)], _, 5, { good := false }, ⟨by decide, by decide, by decide, rfl⟩⟩,
   ⟨hub 4 [(ob 0x2F00 1, 4)], true, by decide⟩,
   ⟨hub 4 [(ob 0x2F01 1, 2), (ob 0x2F00 0x0C, 1)], by decide⟩,
   ⟨{ hub 4 [] with time := { pps := true }, clock := sec 10 }, by decide⟩,
   ⟨{ hub 4 [(ob 0x2F00 1, 1)] with time := { valid := true }, clock := sec 10 }, by decide⟩,
   ⟨{ hub 4 [(ob 0x2F01 1, 3)] with clock := sec 1000000 }, by decide⟩,
   ⟨hub 4 [], .service, 1, 2, ⟨by decide, by simp only [State.allows]; decide, by decide⟩⟩,
   ⟨hub 4 [], 2, by decide⟩,
   ⟨{ hub 4 [] with time := { valid := true, sampled := true, offset := 5 }, station := 100 }, _, .service, ⟨by simp only [State.takes, State.allows]; decide, rfl, by decide, by decide, by decide⟩⟩,
   ⟨hub 4 [], _, .service, ⟨by simp only [State.takes, State.allows]; decide, rfl⟩⟩,
   ⟨hub 4 [(ob 0x2010 9, 1)], _, .service, ⟨by simp only [State.takes, State.allows]; decide, rfl, by decide⟩⟩,
   ⟨hub 4 [], _, .service, 7, ⟨by simp only [State.allows]; decide, rfl⟩⟩,
   ⟨hub 4 [(tk 0 1 1, 8)], 0, by decide⟩,
   ⟨hub 4 [(tk 0 1 1, 8)], _, 0, [1], ⟨by decide, rfl⟩⟩,
   ⟨{ hub 4 [(ob 0x2F00 4, 1)] with station := (1 + sget 16 ((hub 4 []).get (ob 0x2F00 3))).toNat * 1000000000 }, 1, _, ⟨by decide, by decide, rfl, by decide⟩⟩⟩

/-- O44: states and operands that meet the hypotheses of each clause. -/
theorem witness_JournalCommandsComplete :
    (∃ (s y : State) (p : Path), (s.takes p 0x2F10 1) ∧ (y = (s.touch p).cmdAccept 0x2F10 1 p)) ∧
    (∃ (s : State) (p : Path), (p.ok = true) ∧ (s.reach = true)) ∧
    (∃ (s : State) (p : Path) (t : Nat), (p.ok = true) ∧ (s.part.hasTrunk t = true) ∧ (s.reach = true)) ∧
    (∃ (s y : State) (t n : Nat) (b : Bytes) (r : List (Nat × Bytes)) (e : Bytes), (s.trained t = true) ∧ (32 ≤ b.length) ∧ (y = forAll (fun b s => s.pushStore t b) (entriesOf (min 7 (b.length / 32)) b) s) ∧ ((y.plt t).ring = (n, e) :: r)) ∧
    (∃ (s : State) (t i a : Nat), (s.trained t = true) ∧ (a = (s.get (pushKey t 1) + 2 ^ 32 - (s.get (pushKey t 1) + 65536 - i % 65536) % 65536) % 2 ^ 32)) ∧
    (∃ (s y : State) (t : Nat), (s.trained t = true) ∧ (y = forAll (fun (e : Nat × List Nat × Nat) s => s.pushSend t e.2.1) ((s.plt t).pushes.filter fun e => decide (e.2.2 + msec 1 ≤ s.clock)) s)) ∧
    (∃ (s : State) (c i : Nat) (r : Rate), (c ≠ 0xD002) ∧ (s.rates.filter (fun r => decide (r.code = c ∧ r.inst = i)) = [r]) ∧ (s.rateDue r = true)) :=
  ⟨⟨hub 4 [], _, .service, ⟨by simp only [State.takes, State.allows]; decide, rfl⟩⟩,
   ⟨hub 4 [], .service, by decide⟩,
   ⟨hub 4 [], .service, 0, by decide⟩,
   ⟨hub 4 [(tk 0 1 1, 8)], _, 0, 0, zeros 32, [], zeros 32, ⟨by decide, by decide, rfl, by decide⟩⟩,
   ⟨hub 4 [(tk 0 1 1, 8)], 0, 0, 0, by decide⟩,
   ⟨hub 4 [(tk 0 1 1, 8)], _, 0, ⟨by decide, rfl⟩⟩,
   ⟨{ hub 4 [] with rates := [{ code := 5, inst := 0, period := 1 }], clock := sec 1000 }, 5, 0, { code := 5, inst := 0, period := 1 }, by decide⟩⟩

/-- O45: states and operands that meet the hypotheses of each clause. -/
theorem witness_StorageEngineCommandsComplete :
    (∃ (s y : State) (p speed width : Nat), (s.part.hasPcie p = true) ∧ (s.domainOn 11 = true) ∧ (s.get (pcieCfg p 1) = 1) ∧ (s.get (pcieStat p 1) ≠ 2) ∧ (1 ≤ speed ∧ speed ≤ s.get (pcieCfg p 3)) ∧ (width ≤ s.get (pcieCfg p 4)) ∧ (width = 1 ∨ width = 2 ∨ width = 4) ∧ (y = ((s.setAll [(pcieStat p 1, 2), (pcieStat p 2, speed), (pcieStat p 3, width)]).updPcie p (fun x => { x with master := true, d3hot := false, readSize := 512 })).ev 0xA001 p 0 (208 + p) (u16 p ++ u16 2 ++ u16 speed ++ u16 width))) ∧
    (∃ (s : State) (p : Nat), (s.part.hasPcie p = true) ∧ (s.get (pcieStat p 1) ≠ 0)) ∧
    (∃ (s y : State) (p csts : Nat) (spaces : List (Nat × Nat × Nat)), (s.pcieUp p = true) ∧ (s.isRoot p = true) ∧ (s.queueMode = true) ∧ (s.get (pcieStat p 4) = 1) ∧ (csts.testBit 1 = false) ∧ (y = ((s.driveQueues p).updPcie p (fun x => { x with spaces })).driveState p 2 csts)) ∧
    (∃ (s : State) (p : Nat) (x : InitStat), (s.part.hasPcie p = true) ∧ (s.isRoot p = true) ∧ (s.get (pcieStat p 4) = 1) ∧ ((s.pcie p).initAt + msec (500 * x.readyTime) ≤ s.clock)) ∧
    (∃ (s : State) (p q tail : Nat) (x : Sq), (Sparse.find q (s.pcie p).sqs = some x) ∧ (s.nvmeOn p = true) ∧ (tail < x.size)) ∧
    (∃ (s y : State) (p q cid : Nat) (x : Sq) (nsid slba blocks : Nat) (prps : List Nat), (Sparse.find q (s.pcie p).sqs = some x) ∧ (s.nvmeOn p = true) ∧ (s.masters p = true) ∧ (x.head ≠ x.tail) ∧ (y = ((s.count (pcieStat p 6) 1).count (pcieStat p 5) 1).updPcie p (fun z => { z with sqs := Sparse.ins q { x with head := (x.head + 1) % max 1 x.size } (Sparse.drop q z.sqs) }))) ∧
    (∃ (s y : State) (p q cid : Nat) (x : Sq) (nsid slba blocks : Nat) (buf : HostBuf), (Sparse.find q (s.pcie p).sqs = some x) ∧ (s.nvmeOn p = true) ∧ (s.masters p = true) ∧ (x.head ≠ x.tail) ∧ (y = ((s.count (pcieStat p 6) 1).count (pcieStat p 5) 1).updPcie p (fun z => { z with sqs := Sparse.ins q { x with head := (x.head + 1) % max 1 x.size } (Sparse.drop q z.sqs) }))) ∧
    (∃ (s y : State) (p q cid : Nat) (x : Sq) (nsid : Nat), (Sparse.find q (s.pcie p).sqs = some x) ∧ (s.nvmeOn p = true) ∧ (s.masters p = true) ∧ (x.head ≠ x.tail) ∧ (y = ((s.count (pcieStat p 6) 1).count (pcieStat p 5) 1).updPcie p (fun z => { z with sqs := Sparse.ins q { x with head := (x.head + 1) % max 1 x.size } (Sparse.drop q z.sqs) }))) ∧
    (∃ (s y : State) (p q cid : Nat) (x : Sq) (nsid slba blocks : Nat), (Sparse.find q (s.pcie p).sqs = some x) ∧ (s.nvmeOn p = true) ∧ (s.masters p = true) ∧ (x.head ≠ x.tail) ∧ (y = ((s.count (pcieStat p 6) 1).count (pcieStat p 5) 1).updPcie p (fun z => { z with sqs := Sparse.ins q { x with head := (x.head + 1) % max 1 x.size } (Sparse.drop q z.sqs) }))) ∧
    (∃ (s y : State) (p cid : Nat) (x : Sq) (nsid : Nat), (Sparse.find 0 (s.pcie p).sqs = some x) ∧ (s.nvmeOn p = true) ∧ (s.masters p = true) ∧ (x.head ≠ x.tail) ∧ (y = ((s.count (pcieStat p 6) 1).count (pcieStat p 5) 1).updPcie p (fun z => { z with sqs := Sparse.ins 0 { x with head := (x.head + 1) % max 1 x.size } (Sparse.drop 0 z.sqs) }))) ∧
    (∃ (s y : State) (p cid : Nat) (x : Sq) (n size vec : Nat) (ien : Bool), (Sparse.find 0 (s.pcie p).sqs = some x) ∧ (s.nvmeOn p = true) ∧ (s.masters p = true) ∧ (x.head ≠ x.tail) ∧ (y = ((s.count (pcieStat p 6) 1).count (pcieStat p 5) 1).updPcie p (fun z => { z with sqs := Sparse.ins 0 { x with head := (x.head + 1) % max 1 x.size } (Sparse.drop 0 z.sqs) })) ∧ (1 ≤ n ∧ n ≤ 16) ∧ (2 ≤ size ∧ size ≤ 1024) ∧ (vec < 64) ∧ (Sparse.find n (y.pcie p).cqs = none)) ∧
    (∃ (s y : State) (p cid : Nat) (x : Sq) (n size cq : Nat) (ien : Bool), (Sparse.find 0 (s.pcie p).sqs = some x) ∧ (s.nvmeOn p = true) ∧ (s.masters p = true) ∧ (x.head ≠ x.tail) ∧ (y = ((s.count (pcieStat p 6) 1).count (pcieStat p 5) 1).updPcie p (fun z => { z with sqs := Sparse.ins 0 { x with head := (x.head + 1) % max 1 x.size } (Sparse.drop 0 z.sqs) })) ∧ (1 ≤ n ∧ n ≤ 16) ∧ (2 ≤ size ∧ size ≤ 1024) ∧ (cq ≠ 0 ∧ (Sparse.find cq (y.pcie p).cqs).isNone = false) ∧ (Sparse.find n (y.pcie p).sqs = none)) ∧
    (∃ (s y : State) (p cid : Nat) (x : Sq) (n : Nat), (Sparse.find 0 (s.pcie p).sqs = some x) ∧ (s.nvmeOn p = true) ∧ (s.masters p = true) ∧ (x.head ≠ x.tail) ∧ (y = ((s.count (pcieStat p 6) 1).count (pcieStat p 5) 1).updPcie p (fun z => { z with sqs := Sparse.ins 0 { x with head := (x.head + 1) % max 1 x.size } (Sparse.drop 0 z.sqs) })) ∧ (n ≠ 0) ∧ ((Sparse.find n (y.pcie p).sqs).isNone = false)) ∧
    (∃ (s y : State) (p cid : Nat) (x : Sq) (lid len : Nat), (Sparse.find 0 (s.pcie p).sqs = some x) ∧ (s.nvmeOn p = true) ∧ (s.masters p = true) ∧ (x.head ≠ x.tail) ∧ (y = ((s.count (pcieStat p 6) 1).count (pcieStat p 5) 1).updPcie p (fun z => { z with sqs := Sparse.ins 0 { x with head := (x.head + 1) % max 1 x.size } (Sparse.drop 0 z.sqs) })) ∧ (lid = 1 ∨ lid = 2)) ∧
    (∃ (s y : State) (p cid : Nat) (x : Sq) (fid : Nat), (Sparse.find 0 (s.pcie p).sqs = some x) ∧ (s.nvmeOn p = true) ∧ (s.masters p = true) ∧ (x.head ≠ x.tail) ∧ (y = ((s.count (pcieStat p 6) 1).count (pcieStat p 5) 1).updPcie p (fun z => { z with sqs := Sparse.ins 0 { x with head := (x.head + 1) % max 1 x.size } (Sparse.drop 0 z.sqs) })) ∧ (nvFeature fid = true)) ∧
    (∃ (s y : State) (p cid : Nat) (x : Sq) (fid n : Nat), (Sparse.find 0 (s.pcie p).sqs = some x) ∧ (s.nvmeOn p = true) ∧ (s.masters p = true) ∧ (x.head ≠ x.tail) ∧ (y = ((s.count (pcieStat p 6) 1).count (pcieStat p 5) 1).updPcie p (fun z => { z with sqs := Sparse.ins 0 { x with head := (x.head + 1) % max 1 x.size } (Sparse.drop 0 z.sqs) })) ∧ (nvFeature fid = true)) ∧
    (∃ (s y : State) (p cid : Nat) (x : Sq), (Sparse.find 0 (s.pcie p).sqs = some x) ∧ (s.nvmeOn p = true) ∧ (s.masters p = true) ∧ (x.head ≠ x.tail) ∧ (y = ((s.count (pcieStat p 6) 1).count (pcieStat p 5) 1).updPcie p (fun z => { z with sqs := Sparse.ins 0 { x with head := (x.head + 1) % max 1 x.size } (Sparse.drop 0 z.sqs) }))) ∧
    (∃ (s y : State) (p cid : Nat) (x : Sq), (Sparse.find 0 (s.pcie p).sqs = some x) ∧ (s.nvmeOn p = true) ∧ (s.masters p = true) ∧ (x.head ≠ x.tail) ∧ (y = ((s.count (pcieStat p 6) 1).count (pcieStat p 5) 1).updPcie p (fun z => { z with sqs := Sparse.ins 0 { x with head := (x.head + 1) % max 1 x.size } (Sparse.drop 0 z.sqs) })) ∧ ((y.pcie p).notice = false)) ∧
    (∃ (s y : State) (p q cid : Nat) (x : Sq), (Sparse.find q (s.pcie p).sqs = some x) ∧ (s.nvmeOn p = true) ∧ (s.masters p = true) ∧ (x.head ≠ x.tail) ∧ (y = ((s.count (pcieStat p 6) 1).count (pcieStat p 5) 1).updPcie p (fun z => { z with sqs := Sparse.ins q { x with head := (x.head + 1) % max 1 x.size } (Sparse.drop q z.sqs) }))) ∧
    (∃ (s y : State) (n : Nat) (u : SUnit) (mark : UnitMark), (n < 4096) ∧ (s.domainOn 11 = true) ∧ (s.queueMode = true) ∧ (s.tstate n = 3) ∧ (s.tcfg n 2 = 1) ∧ (s.get (tunKey n 0x12) = 2) ∧ (s.tcfg n 6 = 18) ∧ (s.stor.held = [] ∧ s.seqGap n mark.seq = false) ∧ (mark.damaged = false ∧ s.hurtOf n mark.seq (storageBytes u).length = 0) ∧ (y = s.hurtDone n mark.seq (storageBytes u).length)) ∧
    (∃ (s y : State) (n : Nat) (u : SUnit) (mark : UnitMark), (n < 4096) ∧ (s.domainOn 11 = true) ∧ (s.queueMode = true) ∧ (s.tstate n = 3) ∧ (s.tcfg n 2 = 1) ∧ (s.get (tunKey n 0x12) = 2) ∧ (s.tcfg n 6 = 12 ∨ s.tcfg n 6 = 13) ∧ (s.stor.held = [] ∧ s.seqGap n mark.seq = false) ∧ (mark.damaged = false ∧ s.hurtOf n mark.seq (storageBytes u).length = 0) ∧ (y = s.hurtDone n mark.seq (storageBytes u).length)) ∧
    (∃ (s x y : State) (p own st : Nat) (c : DrCmd), (s.part.hasPcie p = true) ∧ ((s.pcie p).drive.find? (fun c => decide (c.own = own)) = some c) ∧ (c.tunnel ≠ 0) ∧ (x = (s.count (pcieStat p 5) 1).updPcie p (fun z => { z with drive := z.drive.filter fun y => decide (y ≠ c) })) ∧ (y = (if c.op = 2 ∧ st = 0 then x.sendData c.tunnel c.tag (x.stageOut c.tunnel c.tag c.bytes) else x).sendUnit c.tunnel (.completion c.tag st))) ∧
    (∃ (s y : State) (p : Path), (s.takes p 0x2D00 1) ∧ (y = (s.touch p).cmdAccept 0x2D00 1 p) ∧ ((([0, 1] : List Nat).flatMap fun p => if y.part.hasPcie p ∧ y.isRoot p ∧ y.get (pcieStat p 4) = 2 then (y.pcie p).spaces.map fun e => (p, e.1) else []) = [])) ∧
    (∃ (s : State) (w : MasterWrite), (s.pcieUp w.port = true) ∧ (s.isRoot w.port = false)) ∧
    (∃ (s : State) (p : Path) (n : Nat), (s.part.hasPcie n = true) ∧ (s.takes p (0x2D03 + n) 1)) :=
  ⟨⟨hub 4 [(ob 0x2021 12, 2), (pcieCfg 0 1, 1), (pcieCfg 0 3, 3), (pcieCfg 0 4, 4)], _, 0, 3, 4, ⟨by decide, by decide, by decide, by decide, by decide, by decide, by decide, rfl⟩⟩,
   ⟨hubN 1 [], 0, by decide⟩,
   ⟨hubN 0 [(pcieStat 0 4, 1)], _, 0, 1, [(1, 100, 9)], ⟨by decide, by decide, by decide, by decide, by decide, rfl⟩⟩,
   ⟨hubN 0 [(pcieStat 0 4, 1)], 0, { csts := 1, readyTime := 1 }, by decide⟩,
   ⟨hubN 1 [], 0, 1, 5, { tail := 1, cq := 1 }, by decide⟩,
   ⟨hubN 1 [], _, 0, 1, 7, { tail := 1, cq := 1 }, 1, 0, 8, [4096], ⟨by decide, by decide, by decide, by decide, rfl⟩⟩,
   ⟨hubN 1 [], _, 0, 1, 7, { tail := 1, cq := 1 }, 1, 0, 8, ⟨[4096], [1]⟩, ⟨by decide, by decide, by decide, by decide, rfl⟩⟩,
   ⟨hubN 1 [], _, 0, 1, 7, { tail := 1, cq := 1 }, 1, ⟨by decide, by decide, by decide, by decide, rfl⟩⟩,
   ⟨hubN 1 [], _, 0, 1, 7, { tail := 1, cq := 1 }, 1, 0, 8, ⟨by decide, by decide, by decide, by decide, rfl⟩⟩,
   ⟨hubN 1 [], _, 0, 7, { tail := 1 }, 0, ⟨by decide, by decide, by decide, by decide, rfl⟩⟩,
   ⟨hubN 1 [], _, 0, 7, { tail := 1 }, 3, 16, 2, true, ⟨by decide, by decide, by decide, by decide, rfl, by decide, by decide, by decide, by decide⟩⟩,
   ⟨hubN 1 [], _, 0, 7, { tail := 1 }, 3, 16, 1, true, ⟨by decide, by decide, by decide, by decide, rfl, by decide, by decide, by decide, by decide⟩⟩,
   ⟨hubN 1 [], _, 0, 7, { tail := 1 }, 1, ⟨by decide, by decide, by decide, by decide, rfl, by decide, by decide⟩⟩,
   ⟨hubN 1 [], _, 0, 7, { tail := 1 }, 2, 512, ⟨by decide, by decide, by decide, by decide, rfl, by decide⟩⟩,
   ⟨hubN 1 [], _, 0, 7, { tail := 1 }, 7, ⟨by decide, by decide, by decide, by decide, rfl, by decide⟩⟩,
   ⟨hubN 1 [], _, 0, 7, { tail := 1 }, 8, 3, ⟨by decide, by decide, by decide, by decide, rfl, by decide⟩⟩,
   ⟨hubN 1 [], _, 0, 7, { tail := 1 }, ⟨by decide, by decide, by decide, by decide, rfl⟩⟩,
   ⟨hubN 1 [], _, 0, 7, { tail := 1 }, ⟨by decide, by decide, by decide, by decide, rfl, by decide⟩⟩,
   ⟨hubN 1 [], _, 0, 1, 7, { tail := 1, cq := 1 }, ⟨by decide, by decide, by decide, by decide, rfl⟩⟩,
   ⟨{ hubN 0 [(tunKey 16 0x10, 3), (tunKey 16 0x12, 2)] with tunnels := [(16, { cfg := [(2, 1), (6, 18)] })] }, _, 16, .completion 0 0, {}, ⟨by decide, by decide, by decide, by decide, by decide, by decide, by decide, by decide, by decide, rfl⟩⟩,
   ⟨{ hubN 1 [(tunKey 16 0x10, 3), (tunKey 16 0x12, 2)] with tunnels := [(16, { cfg := [(2, 1), (6, 12)] })] }, _, 16, .completion 0 0, {}, ⟨by decide, by decide, by decide, by decide, by decide, by decide, by decide, by decide, by decide, rfl⟩⟩,
   ⟨{ hubN 0 [] with stor := { ports := [(0, { drive := [{ tunnel := 16, tag := 3, own := 5, nsid := 1, op := 1 }] })] } }, _, _, 0, 5, 0, { tunnel := 16, tag := 3, own := 5, nsid := 1, op := 1 }, ⟨by decide, by decide, by decide, rfl, rfl⟩⟩,
   ⟨hub 4 [], _, .service, ⟨by simp only [State.takes, State.allows]; decide, rfl, by decide⟩⟩,
   ⟨hubN 1 [], { port := 0 }, by decide⟩,
   ⟨hub 4 [], .service, 0, ⟨by decide, by simp only [State.takes, State.allows]; decide⟩⟩⟩

/-- O46: states and operands that meet the hypotheses of each clause. -/
theorem witness_WindowBridgeCommandsComplete :
    (∃ (s y : State) (p addr be : Nat) (data : TlpData), (s.pcieUp p = true) ∧ (s.writeHeld p addr = false) ∧ (data.kind = .memory ∧ data.ecrcBad = false ∧ data.replays = 0) ∧ (y = s.count (pcieStat p 5) 1)) ∧
    (∃ (s y : State) (p addr be : Nat) (data : TlpData), (s.pcieUp p = true) ∧ (s.writeHeld p addr = false) ∧ (data.kind ≠ .memory ∧ data.ecrcBad = false ∧ data.replays = 0) ∧ (y = s.count (pcieStat p 5) 1)) ∧
    (∃ (s : State) (p addr len be tag : Nat), (s.pcieUp p = true) ∧ (s.readHeld p addr len false = false)) ∧
    (∃ (s : State) (p addr len tag w : Nat), (s.pcieUp p = true) ∧ (s.findWin p addr = some w) ∧ (s.isRoot p = false) ∧ (s.get (pcieCfg p 0x0A) = 1) ∧ (s.win w 9 = 1) ∧ (s.readHeld p addr len true = false)) ∧
    (∃ (s : State) (p : Nat), (s.pcieUp p = true) ∧ (s.isRoot p = false)) ∧
    (∃ (s : State) (n p w tag len be addr seq bs : Nat) (unit bd : Bytes), (n < 4096) ∧ (s.domainOn 11 = true) ∧ (s.live n = true) ∧ (s.tcfg n 2 = 1) ∧ (s.get (tunKey n 0x12) = 1) ∧ (p < 2) ∧ (s.tcfg n 6 = 12 + p) ∧ (byteAt unit 0 = 2) ∧ (w = byteAt unit 1 % 64 ∧ tag = leAt unit 2 2 ∧ len = leAt unit 4 2 ∧ be = byteAt unit 6 ∧ addr = leAt unit 8 8) ∧ (s.isFenced n = false) ∧ (s.pcieUp p = true) ∧ (s.masters p = true) ∧ ((s.pcie p).lockTunnel = 0) ∧ (s.stor.held = [] ∧ s.seqGap n seq = false ∧ s.hurtOf n seq unit.length = 0)) ∧
    (∃ (s : State) (n p len be addr seq bs : Nat) (unit bd : Bytes), (n < 4096) ∧ (s.domainOn 11 = true) ∧ (s.live n = true) ∧ (s.tcfg n 2 = 1) ∧ (s.get (tunKey n 0x12) = 1) ∧ (p < 2) ∧ (s.tcfg n 6 = 12 + p) ∧ (byteAt unit 0 = 1) ∧ (len = leAt unit 4 2 ∧ be = byteAt unit 6 ∧ addr = leAt unit 8 8) ∧ (s.isFenced n = false) ∧ (s.pcieUp p = true) ∧ (s.masters p = true) ∧ ((s.pcie p).lockTunnel = 0) ∧ (s.stor.held = [] ∧ s.seqGap n seq = false ∧ s.hurtOf n seq unit.length = 0)) ∧
    (∃ (s : State) (n seq : Nat) (unit : Bytes) (r r' : WinRead), (n < 4096) ∧ (s.domainOn 11 = true) ∧ (s.live n = true) ∧ (s.tcfg n 2 = 1) ∧ (s.get (tunKey n 0x12) = 1) ∧ (s.stor.reads.find? (fun r => decide (r.tag = leAt unit 2 2 ∧ r.win = byteAt unit 1 % 64 ∧ s.win (byteAt unit 1 % 64) 5 = n)) = some r) ∧ (r.runs = 1) ∧ (byteAt unit 7 = 0) ∧ (r' = { r with runs := 0, data := s.readBytes (byteAt unit 1 % 64) (leAt unit 8 8) (byteAt unit 6) (unit.drop 16) r.data }) ∧ (s.stor.held = [] ∧ s.seqGap n seq = false ∧ s.hurtOf n seq unit.length = 0)) ∧
    (∃ (s : State) (n : Nat) (unit : Bytes) (r : WinRead), (n < 4096) ∧ (s.stor.reads.find? (fun r => decide (r.tag = leAt unit 2 2 ∧ r.win = byteAt unit 1 % 64 ∧ r.locked ∧ s.win (byteAt unit 1 % 64) 5 = n)) = some r)) ∧
    (∃ (s y : State) (tag : Nat) (r : WinRead), (s.stor.reads.find? (fun r => decide (r.tag = tag ∧ r.since + usec (s.get (ob 0x2D00 4)) < s.clock)) = some r) ∧ (y = s.updStore (fun x => { x with reads := x.reads.filter fun y => decide (y ≠ r) }))) ∧
    (∃ (s : State) (w : Nat), (w < 64)) ∧
    (∃ (s y : State) (p : Path) (w : Nat), (w < 64) ∧ (s.takes p (0x2D40 + w) 1) ∧ (y = (s.touch p).cmdAccept (0x2D40 + w) 1 p)) ∧
    (∃ (s y : State) (p : Path) (w : Nat), (w < 64) ∧ (s.takes p (0x2D40 + w) 2) ∧ (y = (s.touch p).cmdAccept (0x2D40 + w) 2 p)) ∧
    (∃ (s y : State) (p addr be len tag : Nat) (data : TlpData), (s.pcieUp p = true) ∧ (s.isRoot p = true) ∧ (data.kind = .memory ∧ data.ecrcBad = false ∧ data.replays = 0 ∧ data.poisoned = false) ∧ (s.stagingFree = true) ∧ (y = s.count (pcieStat p 5) 1) ∧ (y.get (ob 0x2D00 1) ≤ addr ∧ addr < y.get (ob 0x2D00 1) + y.stagingSize) ∧ (s.deviceReadHeld p addr len = false)) :=
  ⟨⟨hubN 1 [], _, 0, 0x1000, 15, { bytes := [1, 2, 3, 4] }, ⟨by decide, by decide, by decide, rfl⟩⟩,
   ⟨hubN 1 [], _, 0, 0x1000, 15, { bytes := [], kind := .io }, ⟨by decide, by decide, by decide, rfl⟩⟩,
   ⟨hubN 1 [], 0, 0x1000, 1, 15, 3, by decide⟩,
   ⟨{ hubN 1 [(winKey 0 1, 1), (pcieCfg 0 0x0A, 1)] with stor := { wins := [(0, [(2, 12), (3, 0x1000), (4, 12), (9, 1)])] } }, 0, 0x1000, 1, 3, 0, by decide⟩,
   ⟨hubN 1 [], 0, by decide⟩,
   ⟨{ hubN 0 [(tunKey 16 0x10, 3), (tunKey 16 0x12, 1)] with tunnels := [(16, { cfg := [(2, 1), (6, 12)] })] }, 16, 0, 3, 5, 1, 15, 0x1000, 0, 3, [2, 3, 5, 0, 1, 0, 15, 0, 0, 0x10], [9], by decide⟩,
   ⟨{ hubN 0 [(tunKey 16 0x10, 3), (tunKey 16 0x12, 1)] with tunnels := [(16, { cfg := [(2, 1), (6, 12)] })] }, 16, 0, 1, 15, 0x1000, 0, 0, [1, 3, 5, 0, 1, 0, 15, 0, 0, 0x10], [9], by decide⟩,
   ⟨{ hubN 0 [(tunKey 16 0x10, 3), (tunKey 16 0x12, 1)] with tunnels := [(16, { cfg := [(2, 1), (6, 12)] })], stor := { wins := [(3, [(5, 16)])], reads := [{ tag := 5, win := 3, reqTag := 1, addr := 0, len := 4, reserve := 4, runs := 1 }] } }, 16, 0, [0x81, 3, 5, 0, 1, 0, 15, 0, 0, 0x10], { tag := 5, win := 3, reqTag := 1, addr := 0, len := 4, reserve := 4, runs := 1 }, _, ⟨by decide, by decide, by decide, by decide, by decide, by decide, by decide, by decide, rfl, by decide⟩⟩,
   ⟨{ hubN 0 [] with stor := { wins := [(3, [(2, 12), (5, 16)])], reads := [{ tag := 5, win := 3, reqTag := 1, addr := 0, len := 4, reserve := 4, runs := 1, locked := true }] } }, 16, [0x82, 3, 5, 0, 1, 0, 15, 0, 0, 0x10], { tag := 5, win := 3, reqTag := 1, addr := 0, len := 4, reserve := 4, runs := 1, locked := true }, by decide⟩,
   ⟨{ hubN 0 [] with stor := { reads := [{ tag := 5, win := 3, reqTag := 1, addr := 0, len := 4, reserve := 4, runs := 1 }] }, clock := sec 100 }, _, 5, { tag := 5, win := 3, reqTag := 1, addr := 0, len := 4, reserve := 4, runs := 1 }, ⟨by decide, rfl⟩⟩,
   ⟨hubN 0 [], 3, by decide⟩,
   ⟨hubN 0 [], _, .service, 3, ⟨by decide, by simp only [State.takes, State.allows]; decide, rfl⟩⟩,
   ⟨hubN 0 [], _, .service, 3, ⟨by decide, by simp only [State.takes, State.allows]; decide, rfl⟩⟩,
   ⟨hubN 0 [(ob 0x2D00 2, 1)], _, 0, 16, 15, 1, 3, { bytes := [1, 2, 3, 4] }, ⟨by decide, by decide, by decide, by decide, rfl, by decide, by decide⟩⟩⟩

/-- O47: states and operands that meet the hypotheses of each clause. -/
theorem witness_FieldCommandsComplete :
    (∃ (s y : State) (c at_ a : Nat) (f : CanFrame), (c < 2) ∧ (s.get (ob (0x2E01 + c) 1) = 1) ∧ (s.reach = true ∧ s.fieldOn = true) ∧ (s.get (canStat c 1) ≠ 2) ∧ (y = (s.count (canStat c 2) 1).canHeard c) ∧ (y.fieldOn = true) ∧ (y.canFilter c f = some a) ∧ (a.testBit 0 = true) ∧ (a.testBit 1 = false)) ∧
    (∃ (s y : State) (c at_ : Nat) (f : CanFrame), (c < 2) ∧ (s.get (ob (0x2E01 + c) 1) = 1) ∧ (s.reach = true ∧ s.fieldOn = true) ∧ (s.get (canStat c 1) ≠ 2) ∧ (y = (s.count (canStat c 2) 1).canHeard c) ∧ (y.fieldOn = true) ∧ (y.canFilter c f = none) ∧ (c = 0 → y.reservedId f.ide f.id = false)) ∧
    (∃ (s y : State) (c tec rec_ new : Nat), (c < 2) ∧ (s.reach = true) ∧ (s.get (canStat c 1) ≠ 2) ∧ (y = s.updCanp c (fun x => { x with tec, rec_ })) ∧ ((new = 2 ∧ 256 ≤ tec) ∨ (new = 1 ∧ tec < 256 ∧ (128 ≤ tec ∨ 128 ≤ rec_)) ∨ (new = 0 ∧ tec < 128 ∧ rec_ < 128))) ∧
    (∃ (s : State) (c : Nat), (c < 2) ∧ (s.reach = true) ∧ (s.get (canStat c 1) = 2) ∧ (s.get (ob (0x2E01 + c) 6) = 0)) ∧
    (∃ (s y : State) (p : Path) (c : Nat), (c < 2) ∧ (s.takes p (0x2E03 + c) 1) ∧ (y = (s.touch p).cmdAccept (0x2E03 + c) 1 p)) ∧
    (∃ (s x y : State) (u f at_ : Nat) (data : Bytes), (s.part.hasUart u = true) ∧ (s.fieldOn = true) ∧ (s.get (ob (0x2E08 + u) 1) ≠ 0) ∧ (x = s.uartSettle u) ∧ ((x.uart u).driving = false) ∧ (data.length ≤ 220 ∧ data.length + (x.uart u).filled ≤ 1024) ∧ (y = x.uartErrors u (field f 1 1) (field f 2 1) (field f 3 1) 0)) ∧
    (∃ (s y : State) (u n : Nat), (n = (s.uart u).rx.length) ∧ ((s.uart u).driving = false) ∧ (s.fieldOn = true) ∧ (s.serialHeld u = false) ∧ (y = forAll (fun e z => z.serialUnit u e) (s.uart u).rx (s.updUart u fun x => { x with rx := [] })) ∧ (y.fieldOn = true)) ∧
    (∃ (s y : State) (u : Nat) (cts : Bool) (d : Bytes) (r : List Bytes), (s.part.hasUart u = true) ∧ (s.fieldOn = true) ∧ (y = s.uartSettle u) ∧ (y.get (ob (0x2E08 + u) 1) = 2 ∧ Sparse.get [] y.fld.uarts u = d :: r ∧ y.fieldOn = true) ∧ ((y.uart u).busyTo ≤ y.clock ∧ d.length ≤ 1024)) ∧
    (∃ (s : State) (n : Nat) (unit : Bytes) (mark : UnitMark), (n < 4096) ∧ (s.tstate n = 3 ∨ s.tstate n = 4) ∧ (s.tcfg n 2 = 4) ∧ (s.transit n = false) ∧ (s.fieldOn = true) ∧ (s.tcfg n 8 = 1) ∧ (byteAt unit 0 = 1) ∧ (s.fld.held = [] ∧ s.seqGap n mark.seq = false) ∧ (mark.damaged = false)) ∧
    (∃ (s : State) (n : Nat) (unit : Bytes) (mark : UnitMark), (n < 4096) ∧ (s.fld.held = []) ∧ (s.seqGap n mark.seq = true)) ∧
    (∃ (s : State) (m : Nat), (m < 1024) ∧ (s.mapping = true) ∧ (s.get (mapKey m 1) = 1) ∧ (s.mcfg m 0x13 ≠ 0) ∧ ((s.mapEntry m).updated + msec (s.mcfg m 0x13) ≤ s.clock)) ∧
    (∃ (s : State) (k : Nat), (k < 64) ∧ (s.fieldOn = true) ∧ (s.get (ob (0x2E40 + k) 4) ≠ 0) ∧ ((s.canTx k).cycleAt + msec (s.get (ob (0x2E40 + k) 4)) ≤ s.clock)) ∧
    (∃ (s : State) (k : Nat), (k < 64) ∧ (s.fieldOn = true) ∧ ((s.canTx k).deferred = true) ∧ (s.inhibited k = false)) ∧
    (∃ (s : State) (g : Nat), (g < 16) ∧ (s.fieldOn = true) ∧ (s.get (pubKey g 1) = 1) ∧ ((s.pub g).interval ≠ 0) ∧ ((s.pub g).sentAt + msec (s.pub g).interval ≤ s.clock)) ∧
    (∃ (s y : State) (k : Nat), (k < 16) ∧ ((s.gsub k).alive = true ∧ s.get (subKey k 1) = 1) ∧ ((s.gsub k).at_ + msec (s.gsub k).tal ≤ s.clock) ∧ (y = (s.updGsub k (fun x => { x with alive := false })).count (subKey k 5) 1) ∧ (y.mapping = false)) ∧
    (∃ (s y : State) (p : Path) (m sub x : Nat), (m < 1024) ∧ (sub = 0x16 ∨ sub = 0x17) ∧ (s.allows p (0x5000 + m) sub x) ∧ (s.hostMaps = true) ∧ (y = (s.touch p).setAll [(mapKey m sub, withoutReserved (0x5000 + m) sub x), (mapKey m 0x18, s.station)])) :=
  ⟨⟨hub 4 [(ob 0x2021 14, 2), (ob 0x2E02 1, 1), (ob 0x2E06 1, 2 ^ 62)], _, 1, 0, 1, { id := 5 }, ⟨by decide, by decide, by decide, by decide, rfl, by decide, by decide, by decide, by decide⟩⟩,
   ⟨hub 4 [(ob 0x2021 14, 2), (ob 0x2E02 1, 1)], _, 1, 0, { id := 5 }, ⟨by decide, by decide, by decide, by decide, rfl, by decide, by decide, by decide⟩⟩,
   ⟨hub 4 [], _, 1, 130, 0, 1, ⟨by decide, by decide, by decide, rfl, by decide⟩⟩,
   ⟨hub 4 [(canStat 1 1, 2), (ob 0x2E02 6, 0)], 1, by decide⟩,
   ⟨hub 4 [(canStat 1 1, 2)], _, .service, 1, ⟨by decide, by simp only [State.takes, State.allows]; decide, rfl⟩⟩,
   ⟨hub 4 [(ob 0x2021 14, 2), (ob 0x2E08 1, 1)], _, _, 0, 1, 0, [65], ⟨by decide, by decide, by decide, rfl, by decide, by decide, rfl⟩⟩,
   ⟨{ hub 4 [(ob 0x2021 14, 2)] with fld := { lines := [(0, { rx := [(0, 0, [65])] })] } }, _, 0, 1, ⟨by decide, by decide, by decide, by decide, rfl, by decide⟩⟩,
   ⟨{ hub 4 [(ob 0x2021 14, 2), (ob 0x2E08 1, 2)] with fld := { uarts := [(0, [[65]])] } }, _, 0, false, [65], [], ⟨by decide, by decide, rfl, by decide, by decide⟩⟩,
   ⟨{ hub 4 [(ob 0x2021 14, 2), (tunKey 16 0x10, 3)] with tunnels := [(16, { cfg := [(2, 4), (6, 16), (8, 1)] })] }, 16, [1], {}, by decide⟩,
   ⟨{ hub 4 [] with tunnels := [(16, { h := 5, checked := 2 })] }, 16, [1], { seq := 5 }, by decide⟩,
   ⟨{ hub 4 [(ob 0x2021 14, 2), (mapKey 3 1, 1)] with fld := { maps := [(3, { cfg := [(0x13, 5)] })] }, clock := sec 1 }, 3, by decide⟩,
   ⟨{ hub 4 [(ob 0x2021 14, 2), (ob 0x2E43 4, 5)] with clock := sec 1 }, 3, by decide⟩,
   ⟨{ hub 4 [(ob 0x2021 14, 2)] with fld := { txs := [(3, { deferred := true })] }, clock := sec 1 }, 3, by decide⟩,
   ⟨{ hub 4 [(ob 0x2021 14, 2), (pubKey 3 1, 1)] with fld := { pubs := [(3, { interval := 2 })] }, clock := sec 1 }, 3, by decide⟩,
   ⟨{ hub 4 [(subKey 3 1, 1)] with fld := { subs := [(3, { alive := true, tal := 5 })] }, clock := sec 1 }, _, 3, ⟨by decide, by decide, by decide, rfl, by decide⟩⟩,
   ⟨hub 4 [(ob 0x2010 8, 1)], _, .service, 3, 0x17, 0xF9, ⟨by decide, by decide, by simp only [State.allows]; decide, by decide, rfl⟩⟩⟩

/-- O48: states and operands that meet the hypotheses of each clause. -/
theorem witness_SecurityCommandsComplete :
    (∃ (s y : State) (p : Path) (k : Nat), (s.takes p 0x4002 1) ∧ (k = s.slotOf p) ∧ (k ≠ 0) ∧ (s.slotValid k = false) ∧ (k < 112) ∧ (y = (s.touch p).cmdAccept 0x4002 1 p)) ∧
    (∃ (s y : State) (p : Path) (k : Nat), (s.takes p 0x4002 2) ∧ (k = s.slotOf p) ∧ (k ≠ 0) ∧ (s.slotValid k = false) ∧ (k < 112) ∧ (y = (s.touch p).cmdAccept 0x4002 2 p)) ∧
    (∃ (s y : State) (p : Path) (k : Nat), (s.takes p 0x4002 3) ∧ (k = s.slotOf p) ∧ (k ≠ 0) ∧ (s.slotValid k = false) ∧ (k < 112) ∧ (y = (s.touch p).cmdAccept 0x4002 3 p)) ∧
    (∃ (s y : State) (p : Path) (cut : Bool), (s.takes p 0x4002 4) ∧ (s.slotOf p ≠ 0) ∧ (s.secu.life = 0 ∨ s.secu.life = 3 ∨ s.secu.blocked = true) ∧ (y = (s.touch p).cmdAccept 0x4002 4 p)) ∧
    (∃ (s y : State) (p : Path) (k : Nat) (cut : Bool), (s.takes p 0x4002 4) ∧ (k = s.slotOf p) ∧ (k ≠ 0) ∧ (y = (s.touch p).cmdAccept 0x4002 4 p) ∧ (y.slotValid k = true) ∧ ((s.secu.life = 1 ∨ s.secu.life = 2) ∧ s.secu.blocked = false)) ∧
    (∃ (s y : State) (p : Path), (s.takes p 0x4000 0x5A5A5A01) ∧ (s.secu.life = 1) ∧ (y = (s.touch p).cmdAccept 0x4000 0x5A5A5A01 p) ∧ (((upTo 16).any fun c => y.credential c && decide (y.get (slotKey (112 + c) 0x0D) = 3)) = true)) ∧
    (∃ (s y : State) (p : Path), (s.takes p 0x4000 0x5A5A5A02) ∧ (s.secu.life = 1 ∨ s.secu.life = 2) ∧ (y = (s.touch p).cmdAccept 0x4000 0x5A5A5A02 p)) ∧
    (∃ (s y : State) (p : Path), (s.takes p 0x4000 3) ∧ (s.secu.life = 1) ∧ (s.secu.custDone = false) ∧ (y = (s.touch p).cmdAccept 0x4000 3 p)) ∧
    (∃ (s y : State) (n a : Nat), (n < 9) ∧ (s.dev ≠ devReset) ∧ (s.dev ≠ devLift) ∧ (a = s.tamperAction n) ∧ (a = 0 ∨ s.secu.life = 3) ∧ (y = { s with secu := { s.secu with active := setBit s.secu.active n, latched := setBit s.secu.latched n, events := cnt 32 s.secu.events 1, lastTime := s.station, lastSource := n, lock := s.secu.lock || decide (a = 2) } })) ∧
    (∃ (s y : State) (n a : Nat), (n < 9) ∧ (s.dev ≠ devReset) ∧ (s.dev ≠ devLift) ∧ (a = s.tamperAction n) ∧ (a ≠ 0 ∧ s.secu.life ≠ 3) ∧ (y = { s with secu := { s.secu with active := setBit s.secu.active n, latched := setBit s.secu.latched n, events := cnt 32 s.secu.events 1, lastTime := s.station, lastSource := n, lock := s.secu.lock || decide (a = 2) } })) ∧
    (∃ (s : State) (n : Nat), (n < 9)) ∧
    (∃ (s y : State) (p : Path), (s.takes p 0x4009 1) ∧ (y = (s.touch p).cmdAccept 0x4009 1 p)) ∧
    (∃ (s y : State) (e : Nat), (s.part.hasTrunk e = true) ∧ (s.dev ≠ devReset) ∧ (s.timing (.selfTest e) = false) ∧ (y = s.start (.selfTest e))) ∧
    (∃ (s : State) (n : Nat), (s.dev ≠ devReset)) ∧
    (∃ (s : State) (t : Nat) (busy cut : Bool) (msg : Bytes), (s.reach = true) ∧ (s.trained t = true) ∧ (byteAt msg 0 = 1) ∧ (36 ≤ msg.length) ∧ (busy = true ∨ s.asksOf t ≠ [])) ∧
    (∃ (s y : State) (t st : Nat) (msg unit : Bytes) (cut : Bool), (s.reach = true) ∧ (s.trained t = true) ∧ (byteAt msg 0 = 1) ∧ (36 ≤ msg.length) ∧ (s.asksOf t = []) ∧ (st = s.statementStatus cut) ∧ (y = s.statementMade t st t) ∧ (unit = u8 2 ++ u8 st ++ (msg.drop 2).take 2 ++ zeros 12 ++ s.statement ((msg.drop 4).take 32) st)) ∧
    (∃ (s y : State) (p : Path) (cut : Bool) (st h : Nat), (s.takes p 0x4010 1) ∧ (y = (s.touch p).cmdAccept 0x4010 1 p) ∧ (st = y.statementStatus cut) ∧ (h = heldIndex p.held 0x4010)) :=
  ⟨⟨hub 4 [(ob (heldIndex 5 0x4002) 1, 9)], _, .service, _, ⟨by simp only [State.takes, State.allows]; decide, rfl, by decide, by decide, by decide, rfl⟩⟩,
   ⟨hub 4 [(ob (heldIndex 5 0x4002) 1, 9)], _, .service, _, ⟨by simp only [State.takes, State.allows]; decide, rfl, by decide, by decide, by decide, rfl⟩⟩,
   ⟨hub 4 [(ob (heldIndex 5 0x4002) 1, 9)], _, .service, _, ⟨by simp only [State.takes, State.allows]; decide, rfl, by decide, by decide, by decide, rfl⟩⟩,
   ⟨hub 4 [(ob (heldIndex 5 0x4002) 1, 9)], _, .service, false, ⟨by simp only [State.takes, State.allows]; decide, by decide, by decide, rfl⟩⟩,
   ⟨{ hub 4 [(ob (heldIndex 5 0x4002) 1, 9), (slotKey 9 2, 1)] with secu := { life := 1 } }, _, .service, _, false, ⟨by simp only [State.takes, State.allows]; decide, rfl, by decide, rfl, by decide, by decide⟩⟩,
   ⟨{ hub 4 [(slotKey 112 2, 1), (slotKey 112 3, 1), (slotKey 112 4, 8), (slotKey 112 0x0D, 3)] with secu := { life := 1 } }, _, .service, ⟨by simp only [State.takes, State.allows]; decide, by decide, rfl, by decide⟩⟩,
   ⟨{ hub 4 [] with secu := { life := 2 } }, _, .service, ⟨by simp only [State.takes, State.allows]; decide, by decide, rfl⟩⟩,
   ⟨{ hub 4 [] with secu := { life := 1 } }, _, .service, ⟨by simp only [State.takes, State.allows]; decide, by decide, by decide, rfl⟩⟩,
   ⟨{ hub 4 [] with secu := { life := 3 } }, _, 3, _, ⟨by decide, by decide, by decide, rfl, by decide, rfl⟩⟩,
   ⟨hub 4 [(ob 0x4008 4, 1)], _, 3, _, ⟨by decide, by decide, by decide, rfl, by decide, rfl⟩⟩,
   ⟨hub 4 [], 3, by decide⟩,
   ⟨hub 4 [], _, .service, ⟨by simp only [State.takes, State.allows]; decide, rfl⟩⟩,
   ⟨hub 4 [], _, 0, ⟨by decide, by decide, by decide, rfl⟩⟩,
   ⟨hub 4 [], 1, by decide⟩,
   ⟨hub 4 [(tk 0 1 1, 8)], 0, true, false, u8 1 ++ zeros 40, by decide⟩,
   ⟨hub 4 [(tk 0 1 1, 8)], _, 0, _, u8 1 ++ zeros 40, _, false, ⟨by decide, by decide, by decide, by decide, by decide, rfl, rfl, rfl⟩⟩,
   ⟨hub 4 [], _, .service, false, _, _, ⟨by simp only [State.takes, State.allows]; decide, rfl, rfl, rfl⟩⟩⟩

/-- O49: states and operands that meet the hypotheses of each clause. -/
theorem witness_PowerEntryCommandsComplete :
    (∃ (s y : State) (f mv vor : Nat), (f < 2) ∧ (s.feedNow f mv vor ≠ s.feedState f) ∧ (y = (if s.feedState f = 2 ∨ s.feedNow f mv vor = 2 then s.send (.pin (diodePin f) (ofBool (decide (s.feedNow f mv vor = 2)))) else s))) ∧
    (∃ (s y : State) (f mv vor : Nat), (f < 2) ∧ (s.feedState f = 2) ∧ (mv + 10 < vor) ∧ (s.dev ≠ devReset) ∧ (s.power.turned = []) ∧ (y = (((s.send (.pin (diodePin f) 0)).set (peStat (1 + f)) 1).ev 0xD001 f 0 (288 + f) (u16 f ++ u8 2 ++ u8 1 ++ u16 mv)).count (peStat (9 + f)) 1)) ∧
    (∃ (s y : State) (f : Nat), (s.dev = devReset) ∧ (s.power.turned = []) ∧ (y = s.pwrEv 0xD002 f 2 (288 + f) (u16 f ++ u32 1))) ∧
    (∃ (s : State) (vor : Nat), (vor < 6000)) ∧
    (∃ (s : State) (mv : Nat), (s.due .holdUp (msec 50) = true)) ∧
    (∃ (s y : State) (vor : Nat), (s.wanted 9 = false) ∧ (s.get (peCfg 5) ≤ vor ∧ vor < s.get (peCfg 6)) ∧ (s.power.overV = false) ∧ (y = (s.request 9 true).start .holdUp)) ∧
    (∃ (s y : State) (vor : Nat), (s.get (peCfg 6) ≤ vor) ∧ (s.driven 9 = true) ∧ (y = s.inletOff.request 9 false)) ∧
    (∃ (s : State) (vor : Nat), (vor < s.get (peCfg 5))) ∧
    (∃ (s : State) (p : Path), (s.takes p 0x4101 1)) ∧
    (∃ (s : State), (s.dev = devReset) ∧ (s.wanted 9 = false)) ∧
    (∃ (s y : State), (s.breaker 9 = 2) ∧ (s.seqState < 4) ∧ (s.seqState = 0 ∨ s.power.groupGood = true) ∧ (s.due .rail (msec 1) = true) ∧ (y = ((s.set (peStat 8) (s.seqState + 1)).stop .rail).start .railGood)) ∧
    (∃ (s y : State), (1 ≤ s.seqState ∧ s.seqState < 4) ∧ (s.timing .railGood = true) ∧ (y = (s.set (railKey 8) ((groupRails s.seqState).foldl setBit (s.get (railKey 8)))).stop .railGood)) ∧
    (∃ (s y : State), (s.seqState = 4) ∧ (s.timing .railGood = true) ∧ (y = (s.set (railKey 8) ((groupRails 4).foldl setBit (s.get (railKey 8)))).stop .railGood)) ∧
    (∃ (s : State), (1 ≤ s.seqState ∧ s.seqState ≤ 4) ∧ (s.due .railGood (msec 10) = true)) ∧
    (∃ (s y : State) (r mv : Nat), (r < 7) ∧ (s.seqState = 5) ∧ ((railWindow r).2 < 10 * mv) ∧ (y = (s.count (railKey 9) 1).set (railKey 0x0A) (r + 1))) ∧
    (∃ (s y : State) (r mv : Nat), (r = 0 ∨ r = 5 ∨ r = 6) ∧ (s.seqState = 5) ∧ (10 * mv < (railWindow r).1) ∧ (y = ((s.count (railKey 9) 1).set (railKey 0x0A) (r + 1)).toReset 3 false)) ∧
    (∃ (s : State) (d : Nat), (4 ≤ d ∧ d < 14) ∧ (s.get (domKey d) = 3) ∧ (s.flag (enKey d) = true)) :=
  ⟨⟨hub 4 [(peCfg 1, 1)], _, 0, 24000, 0, ⟨by decide, by decide, rfl⟩⟩,
   ⟨hub 4 [(peStat 1, 2)], _, 0, 20000, 24000, ⟨by decide, by decide, by decide, by decide, by decide, rfl⟩⟩,
   ⟨State.reset, _, 0, ⟨by decide, by decide, rfl⟩⟩,
   ⟨hub 4 [], 5000, by decide⟩,
   ⟨{ hub 4 [] with timers := [(.holdUp, 0)], clock := sec 1 }, 9000, by decide⟩,
   ⟨hub 4 [], _, 24000, ⟨by decide, by decide, by decide, rfl⟩⟩,
   ⟨hub 4 [(brStat 9 1, 2)], _, 65000, ⟨by decide, by decide, rfl⟩⟩,
   ⟨hub 4 [], 100, by decide⟩,
   ⟨hub 4 [], .service, by simp only [State.takes, State.allows]; decide⟩,
   ⟨State.reset, by decide⟩,
   ⟨{ hub 0 [(brStat 9 1, 2)] with timers := [(.rail, 0)], clock := sec 1 }, _, ⟨by decide, by decide, by decide, by decide, rfl⟩⟩,
   ⟨{ hub 0 [(peStat 8, 2)] with timers := [(.railGood, 0)] }, _, ⟨by decide, by decide, rfl⟩⟩,
   ⟨{ hub 0 [(peStat 8, 4)] with timers := [(.railGood, 0)] }, _, ⟨by decide, by decide, rfl⟩⟩,
   ⟨{ hub 0 [(peStat 8, 2)] with timers := [(.railGood, 0)], clock := sec 1 }, by decide⟩,
   ⟨hub 4 [(peStat 8, 5)], _, 1, 2000, ⟨by decide, by decide, by decide, rfl⟩⟩,
   ⟨hub 4 [(peStat 8, 5)], _, 0, 5, ⟨by decide, by decide, by decide, rfl⟩⟩,
   ⟨hub 4 [(domKey 8, 3), (enKey 8, 1)], 8, by decide⟩⟩

/-- O50: states and operands that meet the hypotheses of each clause. -/
theorem witness_BreakerCommandsComplete :
    (∃ (s : State) (c : Nat), (s.part.hasBreaker c = true) ∧ (s.wanted c = true) ∧ (s.breaker c = 0)) ∧
    (∃ (s : State) (c : Nat), (s.part.hasBreaker c = true) ∧ (s.wanted c = false) ∧ (s.driven c = true) ∧ (c < 8)) ∧
    (∃ (s : State) (c : Nat), (s.part.hasBreaker c = true) ∧ (s.breaker c = 1) ∧ (c ≤ 8)) ∧
    (∃ (s : State) (c ma : Nat) (t : Int), (s.part.hasBreaker c = true) ∧ (s.breaker c = 1) ∧ (s.due (.ramp c) (msec (s.get (brCfg c 4))) = true)) ∧
    (∃ (s : State) (c n ma : Nat) (t : Int), (s.part.hasBreaker c = true) ∧ (s.breaker c = 2) ∧ (n < 8) ∧ (s.get (brCfg c (0x0E + n)) * s.get (brCfg c 1) / 1000 < ma)) ∧
    (∃ (s : State) (c ma : Nat) (t : Int), (s.part.hasBreaker c = true) ∧ (2 * s.get (brCfg c 1) < ma)) ∧
    (∃ (s : State) (c ma : Nat) (t : Int), (s.part.hasBreaker c = true) ∧ (((10 * s.get (brCfg c 9) : Nat) : Int) < t)) ∧
    (∃ (s : State) (c ma : Nat) (t : Int), (s.part.hasBreaker c = true) ∧ (c < 9)) ∧
    (∃ (s : State) (c : Nat) (t : Int), (s.part.hasBreaker c = true) ∧ (s.breaker c = 3) ∧ (s.retryDue c = true) ∧ (t ≤ ((10 * s.get (brCfg c 0x0A) : Nat) : Int)) ∧ (c ≠ 8) ∧ (s.wanted c = true)) ∧
    (∃ (s : State) (c : Nat), (s.part.hasBreaker c = true) ∧ (s.breaker c = 2) ∧ (s.due (.onTime c) (sec (s.get (brCfg c 0x0D))) = true)) ∧
    (∃ (s y : State) (p : Path) (c n : Nat), (s.part.hasBreaker c = true) ∧ (s.allows p (0x4110 + c) 0x0B n) ∧ (y = (s.touch p).set (brCfg c 0x0B) n)) ∧
    (∃ (s : State), (s.breaker 9 = 4)) ∧
    (∃ (s : State) (c st ohms : Nat), (s.part.hasBreaker c = true) ∧ (s.get (brCfg c 5) = 1) ∧ ((st = 2 ∧ 400000 < ohms) ∨ (st = 3 ∧ ohms < 200)) ∧ (s.get (brStat c 6) ≠ st)) ∧
    (∃ (s : State) (c ohms : Nat), (s.part.hasBreaker c = true) ∧ (s.get (brCfg c 5) = 1) ∧ (200 ≤ ohms ∧ ohms ≤ 400000)) ∧
    (∃ (s : State) (p : Path) (c : Nat), (s.part.hasBreaker c = true) ∧ (s.takes p (0x4120 + c) 1) ∧ (3 ≤ s.breaker c) ∧ (c ≠ 8)) ∧
    (∃ (s y : State) (p : Path) (c : Nat) (t : Int), (s.part.hasBreaker c = true) ∧ (s.takes p (0x4120 + c) 2) ∧ (s.breaker c = 5) ∧ (y = (s.touch p).cmdAccept (0x4120 + c) 2 p) ∧ (t ≤ ((10 * y.get (brCfg c 0x0A) : Nat) : Int)) ∧ (y.wanted c = true)) ∧
    (∃ (s : State) (p : Path) (c : Nat), (s.part.hasBreaker c = true) ∧ (s.takes p (0x4120 + c) 3)) :=
  ⟨⟨{ hub 4 [] with power := { want := [1] } }, 1, by decide⟩,
   ⟨hub 4 [(brStat 1 1, 2)], 1, by decide⟩,
   ⟨hub 4 [(brStat 1 1, 1)], 1, by decide⟩,
   ⟨{ hub 4 [(brStat 1 1, 1)] with timers := [(.ramp 1, 0)], clock := sec 100 }, 1, 100, 300, by decide⟩,
   ⟨hub 4 [(brStat 1 1, 2)], 1, 0, 60000, 300, by decide⟩,
   ⟨hub 4 [(brStat 1 1, 2)], 1, 60000, 300, by decide⟩,
   ⟨hub 4 [(brStat 1 1, 2)], 1, 100, 3000, by decide⟩,
   ⟨hub 4 [(brStat 1 1, 2)], 1, 100, 300, by decide⟩,
   ⟨{ hub 4 [(brStat 1 1, 3)] with power := { want := [1] } }, 1, 300, by decide⟩,
   ⟨{ hub 4 [(brStat 1 1, 2)] with timers := [(.onTime 1, 0)], clock := sec 100000 }, 1, by decide⟩,
   ⟨hub 4 [], _, .service, 1, 2, ⟨by decide, by simp only [State.allows]; decide, rfl⟩⟩,
   ⟨hub 4 [(brStat 9 1, 4)], by decide⟩,
   ⟨hub 4 [(brCfg 1 5, 1)], 1, 2, 500000, by decide⟩,
   ⟨hub 4 [(brCfg 1 5, 1)], 1, 10000, by decide⟩,
   ⟨hub 4 [(brStat 1 1, 4)], .service, 1, ⟨by decide, by simp only [State.takes, State.allows]; decide, by decide, by decide⟩⟩,
   ⟨{ hub 4 [(brStat 1 1, 5)] with power := { want := [1] } }, _, .service, 1, 300, ⟨by decide, by simp only [State.takes, State.allows]; decide, by decide, rfl, by decide, by decide⟩⟩,
   ⟨hub 4 [], .service, 1, ⟨by decide, by simp only [State.takes, State.allows]; decide⟩⟩⟩

/-- O51: states and operands that meet the hypotheses of each clause. -/
theorem witness_ApplicationCommandsComplete :
    (∃ (s : State) (p : Path) (n : Nat), (s.allows p 0x4500 1 n)) ∧
    (∃ (s : State), (s.get (ob 0x4501 1) = 1) ∧ (s.reach = true)) ∧
    (∃ (s : State) (p : Path), (s.takes p 0x4500 1) ∧ (s.get (ob 0x4501 1) = 3)) ∧
    (∃ (s : State) (p : Path), (s.takes p 0x4500 2) ∧ (s.get (ob 0x4501 1) = 2)) ∧
    (∃ (s : State) (p : Path), (s.takes p 0x4500 3) ∧ (2 ≤ s.get (ob 0x4501 1))) ∧
    (∃ (s : State) (p : Path), (s.takes p 0x4501 1)) ∧
    (∃ (s y : State) (a : Nat), (s.get (ob 0x4501 1) = 2) ∧ (y = (s.count (ob 0x4501 5) 1).set (ob 0x4501 6) (a % 2 ^ 32))) ∧
    (∃ (s y : State) (a n : Nat), (s.get (ob 0x4501 1) = 2) ∧ (s.app.gwOp = 0) ∧ (n ≤ 4096) ∧ (y = s.updApp (fun x => { x with gwAddress := a % 2 ^ 24, gwLength := n }))) ∧
    (∃ (s y : State) (a n : Nat) (data : Bytes), (s.get (ob 0x4501 1) = 2) ∧ (s.app.gwOp = 0) ∧ (n ≤ 4096) ∧ (y = s.updApp (fun x => { x with gwAddress := a % 2 ^ 24, gwLength := n, gwData := fitBytes 4096 data }))) ∧
    (∃ (s : State) (a n : Nat) (data : Bytes), (s.get (ob 0x4501 1) = 2) ∧ (s.app.gwOp ≠ 0)) ∧
    (∃ (s : State) (i k : Nat), (s.get (ob 0x4501 1) = 2) ∧ (s.placeOf (i % 2 ^ 32) = some k)) ∧
    (∃ (s : State) (i : Nat), (s.get (ob 0x4501 1) = 2) ∧ (s.placeOf (i % 2 ^ 32) = none)) ∧
    (∃ (s y : State) (c v : Nat) (b : Bytes), (s.get (ob 0x4501 1) = 2) ∧ (s.app.jpSince + sec 1 ≤ s.clock) ∧ (y = s.updApp (fun x => { x with jpSince := s.clock, jpCount := 0 })) ∧ (0 < s.get (ob 0x4500 8))) ∧
    (∃ (s : State) (b : Nat), (s.get (ob 0x4501 1) = 2) ∧ (448 ≤ b) ∧ (b < 512)) ∧
    (∃ (s : State) (b : Nat), (s.get (ob 0x4501 1) = 2) ∧ (384 ≤ b) ∧ (b < 448)) ∧
    (∃ (s : State) (p : Path) (b : Nat), (s.allows p 0x4502 6 b)) ∧
    (∃ (s y : State) (p : Path), (s.takes p 0x4502 1) ∧ (y = (s.touch p).cmdAccept 0x4502 1 p)) ∧
    (∃ (s : State), (s.get (ob 0x4501 1) = 2) ∧ (s.app.posted = true)) ∧
    (∃ (s : State) (m : Bytes), (s.get (ob 0x4501 1) = 2)) ∧
    (∃ (s : State) (e b : Nat) (i : Bool) (d : Bytes), (s.get (ob 0x4501 1) = 2) ∧ (2 ≤ e ∧ e < 16) ∧ (b < 2) ∧ (s.epOn e i = true) ∧ ((s.svcBuf e i b).full ≠ i)) ∧
    (∃ (s : State), (s.get (ob 0x4501 1) = 2)) ∧
    (∃ (s : State) (k t n : Nat) (q : Bool), (s.get (ob 0x4501 1) = 2) ∧ (k < 4) ∧ (10000 ≤ n ∧ n < 2 ^ 32)) ∧
    (∃ (s : State) (k : Nat), (k < 4) ∧ ((s.appTimer k).enable = true) ∧ ((s.appTimer k).due ≤ s.station) ∧ ((s.appTimer k).periodic = false) ∧ (s.srcPending (13 + k) = false)) ∧
    (∃ (s : State) (k : Nat), (k < 4) ∧ ((s.appTimer k).enable = true) ∧ ((s.appTimer k).due ≤ s.station) ∧ ((s.appTimer k).periodic = true) ∧ (s.station < (s.appTimer k).due + (s.appTimer k).period) ∧ (s.srcPending (13 + k) = false)) ∧
    (∃ (s : State), (s.get (ob 0x4501 1) = 2)) ∧
    (∃ (s y : State), (s.get (ob 0x4501 1) = 2) ∧ (s.get (ob 0x4500 7) ≠ 0) ∧ (s.due .appWdog (msec (s.get (ob 0x4500 7))) = true) ∧ (y = (s.count (ob 0x4501 0x0B) 1).start .appWdog)) :=
  ⟨⟨hub 4 [], .service, 1, by simp only [State.allows]; decide⟩,
   ⟨hub 4 [(ob 0x4501 1, 1)], by decide⟩,
   ⟨hub 4 [(ob 0x4501 1, 3)], .service, ⟨by simp only [State.takes, State.allows]; decide, by decide⟩⟩,
   ⟨hub 4 [(ob 0x4501 1, 2)], .service, ⟨by simp only [State.takes, State.allows]; decide, by decide⟩⟩,
   ⟨hub 4 [(ob 0x4501 1, 4)], .service, ⟨by simp only [State.takes, State.allows]; decide, by decide⟩⟩,
   ⟨hub 4 [(ob 0x4501 5, 9)], .service, by simp only [State.takes, State.allows]; decide⟩,
   ⟨hub 4 [(ob 0x4501 1, 2)], _, 0x50000000, ⟨by decide, rfl⟩⟩,
   ⟨hub 4 [(ob 0x4501 1, 2)], _, 0x200001, 4, ⟨by decide, by decide, by decide, rfl⟩⟩,
   ⟨hub 4 [(ob 0x4501 1, 2)], _, 0x200001, 1, [7], ⟨by decide, by decide, by decide, rfl⟩⟩,
   ⟨{ hub 4 [(ob 0x4501 1, 2)] with app := { gwOp := 1 } }, 0x200001, 1, [7], by decide⟩,
   ⟨(hub 4 [(ob 0x4501 1, 2)]).ev 0x1210 0 3 2 [], 0, 0, by decide⟩,
   ⟨hub 4 [(ob 0x4501 1, 2)], 7, by decide⟩,
   ⟨{ hub 4 [(ob 0x4501 1, 2), (ob 0x4500 8, 100)] with clock := sec 2 }, _, 3, 1, [1], ⟨by decide, by decide, rfl, by decide⟩⟩,
   ⟨hub 4 [(ob 0x4501 1, 2)], 511, by decide⟩,
   ⟨hub 4 [(ob 0x4501 1, 2)], 384, by decide⟩,
   ⟨hub 4 [], .service, 384, by simp only [State.allows]; decide⟩,
   ⟨hub 4 [(ob 0x4502 2, 3)], _, .service, ⟨by simp only [State.takes, State.allows]; decide, rfl⟩⟩,
   ⟨{ hub 4 [(ob 0x4501 1, 2)] with app := { posted := true } }, by decide⟩,
   ⟨hub 4 [(ob 0x4501 1, 2)], [1, 2], by decide⟩,
   ⟨{ hubV 4 [(ob 0x4501 1, 2), (ob 0x4500 1, 1)] with svc := { config := true, app := true, fast := true, plan := [(87, 1)] } }, 5, 0, true, [], by decide⟩,
   ⟨{ hub 4 [(ob 0x4501 1, 2)] with station := 5 }, by decide⟩,
   ⟨hub 4 [(ob 0x4501 1, 2)], 3, 100, 10000, true, by decide⟩,
   ⟨{ hub 4 [] with app := { timers := [(3, { enable := true, due := 5 })] }, station := 9 }, 3, by decide⟩,
   ⟨{ hub 4 [] with app := { timers := [(3, { enable := true, due := 5, periodic := true, period := 10000 })] }, station := 9 }, 3, by decide⟩,
   ⟨hub 4 [(ob 0x4501 1, 2)], by decide⟩,
   ⟨{ hub 4 [(ob 0x4501 1, 2), (ob 0x4500 7, 100)] with timers := [(.appWdog, 0)], clock := sec 100 }, _, ⟨by decide, by decide, by decide, rfl⟩⟩⟩

/-- O52: states and operands that meet the hypotheses of each clause. -/
theorem witness_InterruptCommandsComplete :
    (∃ (s : State) (p m : Nat), (p < 2) ∧ (s.pairRuns p = true)) ∧
    (∃ (s : State) (p k : Nat), (p < 2) ∧ (s.pairRuns p = true) ∧ (k ≠ 0) ∧ (s.irq.active p 0 = k)) ∧
    (∃ (s : State) (p k : Nat), (p < 2) ∧ (s.pairRuns p = true) ∧ (s.irq.active p 0 ≠ k)) ∧
    (∃ (s : State) (p m : Nat), (p < 2) ∧ (s.pairRuns p = true)) ∧
    (∃ (s : State) (p k : Nat), (p < 2) ∧ (s.pairRuns p = true) ∧ (k ≠ 0) ∧ (s.irq.active p 1 = k)) ∧
    (∃ (s y : State) (p m c : Nat) (r : Bool), (p < 2) ∧ (s.pairRuns p = true) ∧ (y = (s.setEnable p m).setCtrl p c) ∧ (y.delivers p 0 = true)) ∧
    (∃ (s y : State) (p m c : Nat), (p < 2) ∧ (s.pairRuns p = true) ∧ (y = (s.setEnable p m).setCtrl p c) ∧ (y.irq.active p 0 = 0) ∧ (y.bestSource p 0 = 0)) ∧
    (∃ (s y : State) (p m c : Nat), (p < 2) ∧ (s.pairRuns p = true) ∧ (y = (s.setEnable p m).setCtrl p c) ∧ (y.delivers p 1 = true)) ∧
    (∃ (s : State), (s.dev = devSetup) ∧ (s.get (ob 0x4500 9) = 1) ∧ (s.delivers 0 0 = false ∧ s.delivers 0 1 = false) ∧ (s.delivers 1 0 = false ∧ s.delivers 1 1 = false)) ∧
    (∃ (s : State), (s.irq.stopped = true)) ∧
    (∃ (s : State) (k : Nat), (s.irq.stopped = true) ∧ (k < 384) ∧ (s.irq.async.testBit k = true) ∧ (s.enabled 1 k = true)) :=
  ⟨⟨hub 4 [], 0, 0, by decide⟩,
   ⟨{ hub 4 [] with irq := { normalA := 3 } }, 0, 3, by decide⟩,
   ⟨{ hub 4 [] with irq := { normalA := 3 } }, 0, 4, by decide⟩,
   ⟨hub 4 [(ob 0x4501 1, 2)], 1, 0, by decide⟩,
   ⟨{ hub 4 [(ob 0x4501 1, 2)] with irq := { fastB := 3 } }, 1, 3, by decide⟩,
   ⟨{ hub 4 [(ob (irqIndex 5) 2, 1)] with irq := { latch := 32 } }, _, 0, 32, 0, false, ⟨by decide, by decide, rfl, by decide⟩⟩,
   ⟨hub 4 [], _, 0, 32, 0, ⟨by decide, by decide, rfl, by decide, by decide⟩⟩,
   ⟨{ hub 4 [(ob (irqIndex 5) 2, 1), (ob (irqIndex 5) 3, 1)] with irq := { latch := 32 } }, _, 0, 32, 0, ⟨by decide, by decide, rfl, by decide⟩⟩,
   ⟨hub devSetup [(ob 0x4500 9, 1)], by decide⟩,
   ⟨{ hub 3 [] with irq := { stopped := true } }, by decide⟩,
   ⟨{ hub 3 [(ob (irqIndex 5) 2, 2)] with irq := { stopped := true, async := 32, enableB := 32 } }, 5, by decide⟩⟩

/-- O53: states and operands that meet the hypotheses of each clause. -/
theorem witness_SafetyCommandsComplete :
    (∃ (s : State) (c a : Nat), (s.dev ≠ devReset)) ∧
    (∃ (s : State) (c a : Nat), (s.dev ≠ devReset) ∧ (s.get (ob 0x4501 1) ≠ 0)) ∧
    (∃ (s : State) (low high : Nat), (s.taskRuns 4 = true) ∧ (s.due .shadow 39000 = true)) ∧
    (∃ (s : State) (low high : Nat), (s.taskRuns 4 = true) ∧ (s.due .shadow 39000 = true)) ∧
    (∃ (s : State) (ok : Bool) (low high : Nat), (s.taskRuns 4 = true) ∧ (s.due .shadow 39000 = true)) ∧
    (∃ (s : State) (n : Nat), (n < 4096) ∧ (s.watched n = true) ∧ (s.tstate n = 3) ∧ (s.get (ob 0x4410 0x21) ≤ (s.tun n).quiet) ∧ ((s.tun n).silent = false)) ∧
    (∃ (s : State) (cause unit value : Nat), (1 ≤ cause) ∧ (cause ≤ 6) ∧ (s.part.pathUnit cause unit = true) ∧ (s.pathFault cause unit value = true) ∧ (s.dev ≠ devReset)) :=
  ⟨⟨hub 4 [], 5, 7, by decide⟩,
   ⟨hub 4 [(ob 0x4501 1, 2)], 5, 7, by decide⟩,
   ⟨{ hub 4 [] with timers := [(.shadow, 0)], clock := 39000 }, 0, 0, by decide⟩,
   ⟨{ hub 4 [] with timers := [(.shadow, 0)], clock := 39000, safety := { shadowNext := 255 } }, 0, 0, by decide⟩,
   ⟨{ hub 4 [] with timers := [(.shadow, 0)], clock := 39000 }, false, 0, 0, by decide⟩,
   ⟨{ hub 4 [(tunKey 16 0x10, 3), (ob 0x4410 1, 16), (ob 0x4410 0x21, 3)] with tunnels := [(16, { quiet := 3 })] }, 16, by decide⟩,
   ⟨hub 4 [], 1, 1, 51, by decide⟩⟩

/-- O54: states and operands that meet the hypotheses of each clause. -/
theorem witness_BackgroundCommandsComplete :
    (∃ (s y : State) (m : List Int) (d : List Nat) (k : Nat) (x : Int), (s.reach = true) ∧ (s.due .sentinel (sec 10) = true) ∧ (m.length = 32 ∧ d.length = 32) ∧ (y = (((s.start .sentinel).updSafety (fun x => { x with delays := d })).baselineNow).setAll ((upTo 32).map fun k => (ob 0x4210 (k + 1), sputSat 16 (m.getD k 0)))) ∧ (y.safety.baseline = []) ∧ (worst 0 m = some (k, x))) ∧
    (∃ (s : State) (e : List Nat), (s.reach = true) ∧ (s.planDue = true)) ∧
    (∃ (s : State) (p : Path), (s.allows p 0x4201 0xF0 1) ∧ (s.cmdStatus 0x4201 ≠ 1) ∧ (s.dev = 3 ∨ s.dev = 5)) ∧
    (∃ (s : State) (p : Path) (e : List Nat), (s.takes p 0x4201 2) ∧ (s.safety.lockA = false)) ∧
    (∃ (s : State) (p : Path) (i n : Nat), (s.allows p 0x4200 i n) ∧ (s.marginKinds i n = [])) ∧
    (∃ (s : State) (n b u : Nat), (n < 3) ∧ (s.reach = true) ∧ (s.due (.pinned n) (sec 86400) = true) ∧ ((s.safety.pins.find? fun e => decide (e.1 = n)) = some (n, b, u))) ∧
    (∃ (s : State) (n : Nat) (b : Option Nat) (d : Bool), (s.taskRuns 0 = true)) ∧
    (∃ (s : State) (n : Nat) (b : Option Nat) (d : Bool), (s.taskRuns 1 = true)) ∧
    (∃ (s : State) (m n : Nat) (b : Option Nat) (d : Bool), (2 ≤ m ∧ m ≤ 4) ∧ (s.taskRuns 2 = true)) ∧
    (∃ (s : State) (n w_ q a : Nat) (d : Bool), (s.taskRuns 3 = true)) ∧
    (∃ (s : State) (n : Nat) (d : Bool), (s.taskRuns 3 = true)) ∧
    (∃ (s : State) (l : List Nat), (s.taskRuns 5 = true)) ∧
    (∃ (s : State) (n : Nat) (l : List Nat), (n = 0 ∨ n = 2) ∧ (s.taskRuns 5 = true)) ∧
    (∃ (s : State) (t l b : Nat), (s.part.hasTrunk t = true) ∧ (l < 5) ∧ (s.taskRuns 6 = true) ∧ (s.trained t = true)) ∧
    (∃ (s : State), (s.taskRuns 7 = true)) ∧
    (∃ (s y : State) (n : Nat), (n < 11) ∧ (s.taskRuns n = true) ∧ (s.taskPeriod n ≠ 0) ∧ (s.due (.pass n) (2 * s.taskPeriod n) = true) ∧ (s.safety.late.contains n = false) ∧ (y = (s.count (taskKey n 9) 1).updSafety (fun x => { x with late := n :: x.late }))) ∧
    (∃ (s : State) (p : Path) (n v_ : Nat), (s.allows p (0x4310 + n) 1 v_) ∧ (n < 11)) ∧
    (∃ (s : State) (l n : Nat) (e g : Bool) (a : State × Nat), (l < 2) ∧ (s.reach = true) ∧ (s.taskRuns 8 = true) ∧ (a = s.norPlace l e 200 g (s.safety.norWait + n))) ∧
    (∃ (s : State) (l n : Nat) (e g : Bool), (l < 2) ∧ (s.reach = true) ∧ (s.taskRuns 8 = false)) ∧
    (∃ (s y : State) (l : List Int) (g : Int) (r w_ : List Nat), (s.taskRuns 9 = true) ∧ (s.due .telemetry (msec (s.get (ob 0x4300 4))) = true) ∧ (l.length = 8) ∧ (y = (((s.start .telemetry).setAll ((upTo 8).map fun k => (ob 0x4330 (k + 1), sputSat 16 (l.getD k 0)))).setAll [(ob 0x4330 9, sputSat 16 (l.foldl max (l.headD 0))), (ob 0x4330 0x0A, sputSat 16 (if s.get (taskKey 9 4) = 0 then l.foldl max (l.headD 0) else max (sget 16 ((s.start .telemetry).get (ob 0x4330 0x0A))) (l.foldl max (l.headD 0)))), (ob 0x4330 0x0B, w_.foldl (· + ·) 0 % 2 ^ 32)]).gather 0 (l ++ [g] ++ (r.take 7).map Int.ofNat ++ (w_.take 14).map Int.ofNat)) ∧ (l.foldl max (l.headD 0) ≤ (10 * y.get (ob 0x4300 6) : Nat))) ∧
    (∃ (s : State), (s.taskRuns 9 = true) ∧ (s.due .telemetryLog (sec (s.get (ob 0x4300 5))) = true)) :=
  ⟨⟨{ hub 3 [] with clock := sec 100, timers := [(.sentinel, 0)] }, _, List.replicate 32 5, List.replicate 32 7, 0, 5, ⟨by decide, by decide, by decide, rfl, by decide, by decide⟩⟩,
   ⟨{ hub 4 [(taskKey 10 1, 1), (mgCfg 6, 60)] with clock := sec 100, timers := [(.plan, 0)] }, [], by decide⟩,
   ⟨hub 3 [], .service, ⟨by simp only [State.allows]; decide, by decide, by decide⟩⟩,
   ⟨hub 4 [], .service, [], ⟨by simp only [State.takes, State.allows]; decide, by decide⟩⟩,
   ⟨hub 4 [(mgCfg 2, 900)], .service, 1, 700, ⟨by simp only [State.allows]; decide, by decide⟩⟩,
   ⟨{ hub 4 [] with clock := sec 86400, timers := [(.pinned 2, 0)], safety := { pins := [(2, 5, 6)] } }, 2, _, _, ⟨by decide, by decide, by decide, rfl⟩⟩,
   ⟨hub 4 [(taskKey 0 1, 1), (ob 0x2021 10, 2)], 3, none, false, by decide⟩,
   ⟨hub 4 [(taskKey 1 1, 1)], 3, none, false, by decide⟩,
   ⟨hub 4 [(taskKey 2 1, 1)], 4, 3, none, false, by decide⟩,
   ⟨hub 4 [(taskKey 3 1, 1)], 3, 1, 0, 64, false, by decide⟩,
   ⟨hub 4 [(taskKey 3 1, 1)], 3, false, by decide⟩,
   ⟨hub 4 [(taskKey 5 1, 1), (ob 0x2021 10, 2)], [30, 31, 32, 33], by decide⟩,
   ⟨hub 4 [(taskKey 5 1, 1), (ob 0x2021 10, 2)], 2, [], by decide⟩,
   ⟨hub 4 [(taskKey 6 1, 1), (tk 0 1 1, 8)], 0, 4, 9, by decide⟩,
   ⟨hub 4 [(taskKey 7 1, 1)], by decide⟩,
   ⟨{ hub 4 [(taskKey 7 1, 1)] with clock := sec 100, timers := [(.pass 7, 0)] }, _, 7, ⟨by decide, by decide, by decide, by decide, by decide, rfl⟩⟩,
   ⟨hub 4 [], .service, 3, 0, ⟨by simp only [State.allows]; decide, by decide⟩⟩,
   ⟨hub 4 [(taskKey 8 1, 1)], 1, 5, true, true, _, ⟨by decide, by decide, by decide, rfl⟩⟩,
   ⟨hub 4 [(taskKey 8 1, 0)], 1, 5, true, true, by decide⟩,
   ⟨{ hub 4 [(taskKey 9 1, 1)] with clock := sec 100, timers := [(.telemetry, 0)] }, _, [250, 250, 250, 250, 250, 250, 250, 250], 250, [], [], ⟨by decide, by decide, by decide, rfl, by decide⟩⟩,
   ⟨{ hub 4 [(taskKey 9 1, 1)] with clock := sec 100000, timers := [(.telemetryLog, 0)] }, by decide⟩⟩

/-- O55: states and operands that meet the hypotheses of each clause. -/
theorem witness_UpdateCommandsComplete :
    (∃ (s : State) (a b : Nat) (data : Bytes) (e g : Bool) (y : State) (d : Dfu), (a < 3) ∧ (s.liftHere = true) ∧ (0 < data.length ∧ data.length ≤ 4096) ∧ (s.boot.lift.state = dfuNext → s.boot.lift.alt = a) ∧ (s.dfuBlock { s.boot.lift with alt := a } a (if a = 2 then 2 else 1) b data e g = (y, .inl d))) ∧
    (∃ (s : State) (a b : Nat) (data : Bytes) (e g : Bool) (y : State) (k r : Nat), (a < 3) ∧ (s.liftHere = true) ∧ (0 < data.length ∧ data.length ≤ 4096) ∧ (s.boot.lift.state = dfuNext → s.boot.lift.alt = a) ∧ (s.dfuBlock { s.boot.lift with alt := a } a (if a = 2 then 2 else 1) b data e g = (y, .inr (k, r)))) ∧
    (∃ (s y z : State) (a : Nat) (g : Bool), (a < 3) ∧ (s.liftHere = true) ∧ (s.boot.lift.alt = a) ∧ (s.dfuEnd s.boot.lift a g = .inl y) ∧ (z = (if a < 2 then y.updBoot (fun x => { x with trial := a + 1, failed := 0 }) else y))) ∧
    (∃ (s y : State), (s.liftHere = true) ∧ (s.boot.lift.state ≠ dfuError) ∧ (y = (if s.boot.lift.state = dfuIdle then s else s.eraseRegion s.boot.lift.alt))) ∧
    (∃ (s : State) (b c k : Nat), (s.dfuHere = true) ∧ (s.dfuNow = (b, c)) ∧ (k = (if b = dfuSync then dfuNext else b))) ∧
    (∃ (s : State) (c : Nat), (s.dfuHere = true) ∧ (s.dfuNow = (dfuError, c))) ∧
    (∃ (s : State) (b c : Nat), (s.dfuHere = true) ∧ (s.dfuNow = (b, c)) ∧ (b ≠ dfuError)) ∧
    (∃ (s : State), (s.dfuHere = true)) ∧
    (∃ (s : State), (s.svcState = 4) ∧ (s.svc.dfu = false)) ∧
    (∃ (s y : State) (b : Nat) (data h_ : Bytes) (e g : Bool) (x d : Dfu), (s.reach = true) ∧ (s.svc.dfu = true) ∧ (0 < data.length ∧ data.length ≤ 4096) ∧ (s.dfuNow.1 ≠ dfuError) ∧ (s.stagingRuns = true) ∧ (x = { s.boot.stage with state := s.dfuNow.1 }) ∧ (h_ = (if x.state = dfuIdle then data else x.header)) ∧ (s.dfuBlock x 3 (if imgKind h_ = 2 then 2 else 1) b data e g = (y, .inl d))) ∧
    (∃ (s y : State) (b k r : Nat) (data h_ : Bytes) (e g : Bool) (x : Dfu), (s.reach = true) ∧ (s.svc.dfu = true) ∧ (0 < data.length ∧ data.length ≤ 4096) ∧ (s.dfuNow.1 ≠ dfuError) ∧ (s.stagingRuns = true) ∧ (x = { s.boot.stage with state := s.dfuNow.1 }) ∧ (h_ = (if x.state = dfuIdle then data else x.header)) ∧ (s.dfuBlock x 3 (if imgKind h_ = 2 then 2 else 1) b data e g = (y, .inr (k, r)))) ∧
    (∃ (s : State) (g : Bool) (k r : Nat), (s.reach = true) ∧ (s.svc.dfu = true) ∧ (s.dfuNow.1 ≠ dfuError) ∧ (s.stagingRuns = true) ∧ (s.dfuEnd { s.boot.stage with state := s.dfuNow.1 } 3 g = .inr (k, r))) ∧
    (∃ (s y z : State) (g : Bool) (h_ : Bytes), (s.reach = true) ∧ (s.svc.dfu = true) ∧ (s.dfuNow.1 ≠ dfuError) ∧ (s.stagingRuns = true) ∧ (s.dfuEnd { s.boot.stage with state := s.dfuNow.1 } 3 g = .inl y) ∧ (h_ = s.boot.stage.header) ∧ (z = (y.setAll [(ob 0x6001 1, 2), (ob 0x6001 2, imgKind h_), (ob 0x6001 3, imgVersion h_), (ob 0x6001 4, imgSecurity h_)]).dfuSet dfuIdle 0)) ∧
    (∃ (s : State) (p : Path), (s.allows p 0x6001 0xF0 1) ∧ (s.cmdStatus 0x6001 ≠ 1) ∧ (s.dev = 3 ∨ s.dev = 5)) ∧
    (∃ (s y z : State) (p : Path) (r : Nat), (s.allows p 0x6001 0xF0 2) ∧ (s.cmdStatus 0x6001 ≠ 1) ∧ (s.dev = 3 ∨ s.dev = 5) ∧ (y = (s.touch p).cmdAccept 0x6001 2 p) ∧ (y.get (ob 0x6001 1) = 2) ∧ (z = y.set (ob 0x6001 1) 4) ∧ (z.activating = some r) ∧ (z.copyReady = true)) ∧
    (∃ (s y : State) (p : Path), (s.allows p 0x6001 0xF0 2) ∧ (s.cmdStatus 0x6001 ≠ 1) ∧ (s.dev = 3 ∨ s.dev = 5) ∧ (y = (s.touch p).cmdAccept 0x6001 2 p) ∧ (y.get (ob 0x6001 1) ≠ 2)) ∧
    (∃ (s y z : State) (r : Nat), (s.activating = some r) ∧ (s.copyReady = true) ∧ (s.get (ob 0x6001 2) = 2) ∧ (y = (((s.eraseRegion r).set (ob 0x6001 1) 2).program (regionBase r + 512) (((s.eraseRegion r).set (ob 0x6001 1) 2).regionPayload 3))) ∧ (z = y.program (regionBase r) (s.regionHeader 3))) ∧
    (∃ (s : State) (p : Path), (s.allows p 0x6001 0xF0 3) ∧ (s.cmdStatus 0x6001 ≠ 1) ∧ (s.dev = 3 ∨ s.dev = 5)) ∧
    (∃ (s y : State) (p : Path), (s.takes p 0x6000 1) ∧ (y = (s.touch p).cmdAccept 0x6000 1 p)) ∧
    (∃ (s y : State) (p : Path), (s.allows p 0x6000 0xF0 258) ∧ (s.cmdStatus 0x6000 ≠ 1) ∧ (s.dev = 3 ∨ s.dev = 5) ∧ (y = (s.touch p).cmdAccept 0x6000 258 p) ∧ (y.boot.lastSlot = y.boot.preferred) ∧ (y.boot.rollback < y.boot.secVersion)) ∧
    (∃ (s y : State) (p : Path), (s.takes p 0x6000 3) ∧ (y = (s.touch p).cmdAccept 0x6000 3 p) ∧ (y.boot.appFloor < y.app.secVersion)) ∧
    (∃ (s y : State) (p : Path), (s.takes p 0x6000 4) ∧ (y = (s.touch p).cmdAccept 0x6000 4 p) ∧ (y.otherRuns = false)) ∧
    (∃ (s : State), (s.boot.resetAsked = false) ∧ (s.due .fwReset (msec 10) = true)) ∧
    (∃ (s : State) (p : Path), (s.takes p 0x6002 1)) ∧
    (∃ (s : State) (c : Copy), (s.reach = true) ∧ (s.get (ob 0x6001 1) = 0 ∨ s.get (ob 0x6001 1) = 2) ∧ (s.boot.backupDue = some c)) :=
  ⟨⟨{ hub devLift [(pdStat 1, 3)] with pd := { vbus := true }, boot := { lift := { state := dfuNext, next := 5, alt := 1 } } }, 1, 5, [1, 2], true, true, _, _, ⟨by decide, by decide, by decide, by decide, rfl⟩⟩,
   ⟨{ hub devLift [(pdStat 1, 3)] with pd := { vbus := true }, boot := { lift := { state := dfuIdle, alt := 1 } } }, 1, 3, [1, 2], true, true, _, _, _, ⟨by decide, by decide, by decide, by decide, rfl⟩⟩,
   ⟨{ hub devLift [(pdStat 1, 3)] with pd := { vbus := true }, boot := { lift := dfuEmpty } }, _, _, 1, true, ⟨by decide, by decide, rfl, dfuEnd_empty _ dfuEmpty 1 rfl rfl, rfl⟩⟩,
   ⟨{ hub devLift [(pdStat 1, 3)] with pd := { vbus := true }, boot := { lift := { state := dfuNext, alt := 1 } } }, _, ⟨by decide, by decide, rfl⟩⟩,
   ⟨{ hub devLift [(pdStat 1, 3)] with pd := { vbus := true }, boot := { lift := { state := dfuSync } } }, _, _, _, ⟨by decide, rfl, rfl⟩⟩,
   ⟨{ hub devLift [(pdStat 1, 3)] with pd := { vbus := true }, boot := { lift := { state := dfuError, status := 3 } } }, 3, by decide⟩,
   ⟨{ hub devLift [(pdStat 1, 3)] with pd := { vbus := true }, boot := { lift := { state := dfuIdle, status := 0 } } }, dfuIdle, 0, by decide⟩,
   ⟨{ hub devLift [(pdStat 1, 3)] with pd := { vbus := true }, boot := { lift := { state := dfuIdle, status := 0 } } }, by decide⟩,
   ⟨hubV 4 [], by decide⟩,
   ⟨{ hub 3 [(ob 0x6001 6, dfuNext), (ob 0x6001 0xF2, 1)] with svc := { dfu := true }, cmds := [(0x6001, { value := 1 })], boot := { stage := { next := 5, state := dfuNext } } }, _, 5, [1, 2], _, true, true, _, _, ⟨by decide, by decide, by decide, by decide, by decide, rfl, rfl, rfl⟩⟩,
   ⟨{ hub 3 [(ob 0x6001 6, dfuNext), (ob 0x6001 0xF2, 1)] with svc := { dfu := true }, cmds := [(0x6001, { value := 1 })], boot := { stage := { next := 5, state := dfuNext } } }, _, 4, _, _, [1, 2], _, true, true, _, ⟨by decide, by decide, by decide, by decide, by decide, rfl, rfl, rfl⟩⟩,
   ⟨{ hub 3 [(ob 0x6001 6, dfuIdle), (ob 0x6001 0xF2, 1)] with svc := { dfu := true }, cmds := [(0x6001, { value := 1 })] }, true, _, _, ⟨by decide, by decide, by decide, by decide, rfl⟩⟩,
   ⟨{ hub 3 [(ob 0x6001 6, dfuNext), (ob 0x6001 0xF2, 1)] with svc := { dfu := true }, cmds := [(0x6001, { value := 1 })], boot := { stage := dfuEmpty } }, _, _, true, _, ⟨by decide, by decide, by decide, by decide, dfuEnd_empty _ _ 3 (by decide) rfl, rfl, rfl⟩⟩,
   ⟨hub 3 [], .service, ⟨by simp only [State.allows]; decide, by decide, by decide⟩⟩,
   ⟨hub 3 [(ob 0x6001 1, 2), (ob 0x6001 2, 1)], _, _, .service, _, ⟨by simp only [State.takes, State.allows]; decide, by decide, by decide, rfl, by decide, rfl, rfl, by decide⟩⟩,
   ⟨hub 3 [], _, .service, ⟨by simp only [State.allows]; decide, by decide, by decide, rfl, by decide⟩⟩,
   ⟨{ hub 3 [(ob 0x6001 1, 4), (ob 0x6001 2, 2), (ob 0x6001 0xF2, 1)] with cmds := [(0x6001, { value := 2 })] }, _, _, _, ⟨rfl, by decide, by decide, rfl, rfl⟩⟩,
   ⟨hub 3 [], .service, ⟨by simp only [State.allows]; decide, by decide, by decide⟩⟩,
   ⟨hub 3 [], _, .service, ⟨by simp only [State.takes, State.allows]; decide, rfl⟩⟩,
   ⟨{ hub 3 [] with boot := { secVersion := 4 } }, _, .service, ⟨by simp only [State.allows]; decide, by decide, by decide, rfl, by decide, by decide⟩⟩,
   ⟨{ hub 3 [] with app := { secVersion := 4 } }, _, .service, ⟨by simp only [State.takes, State.allows]; decide, rfl, by decide⟩⟩,
   ⟨hub 3 [], _, .service, ⟨by simp only [State.takes, State.allows]; decide, rfl, by decide⟩⟩,
   ⟨{ hub 3 [] with clock := sec 1, timers := [(.fwReset, 0)] }, by decide⟩,
   ⟨hub 3 [], .service, by simp only [State.takes, State.allows]; decide⟩,
   ⟨{ hub 3 [] with boot := { backupDue := some {} } }, {}, by decide⟩⟩

/-- O56: states and operands that meet the hypotheses of each clause. -/
theorem witness_PulsePermissionAndSafetyCommandsComplete :
    (∃ (s : State), (s.dev ≠ devReset) ∧ (s.safety.link = true)) ∧
    (∃ (s : State), (s.due .permit (msec 10) = true)) ∧
    (∃ (s : State) (p : Path), (s.takes p 0x4400 1)) ∧
    (∃ (s : State) (p : Path), (s.takes p 0x4400 2)) :=
  ⟨⟨{ hub 4 [] with safety := { link := true } }, by decide⟩,
   ⟨{ hub 4 [] with timers := [(.permit, 0)], clock := msec 10 }, by decide⟩,
   ⟨hub 4 [], .service, by simp only [State.takes, State.allows]; decide⟩,
   ⟨hub 4 [], .service, by simp only [State.takes, State.allows]; decide⟩⟩

end Sys2Proof.Tests
end

section
/-!
SUPPORT. The frame of every command and of an idle nanosecond: what exec and State.idle can change
(R6, R10), from the lemmas of Laws/Keeps*.lean.
-/

set_option Elab.async false

namespace Sys2Proof.Scope

open Sys2Proof Sys2Proof.Machine Sys2Proof.Laws

theorem sub_self (F : List Piece) : Sub F fun f => F.contains f := fun _ h => h

/-- What any command can do: it changes the pieces that mayChange lists for it, and keeps the part, the queue, the
clock, what was sent and the canonical form. One lemma for each meaning. -/
theorem exec_keeps (c : Instr) (s : State) : KeepsA (fun f => (mayChange c).contains f) s (exec c s) := by
  cases c with
  | resetAsserted => exact keeps_execResetAsserted _ s (.refl _ s) (sub_self _)
  | resetReleased => exact keeps_execResetReleased _ _ s (.refl _ s) (sub_self _)
  | ilkaiDeclaredStarted => exact keeps_execIlkaiDeclaredStarted s (.refl _ s) (sub_self _)
  | bootWatchdogExpired => exact keeps_execBootWatchdogExpired s (.refl _ s) (sub_self _)
  | stateRequestSetup => exact keeps_execStateRequestSetup _ s (.refl _ s) (sub_self _)
  | stateRequestRun => exact keeps_execStateRequestRun _ s (.refl _ s) (sub_self _)
  | stateRequestMaintain => exact keeps_execStateRequestMaintain _ s (.refl _ s) (sub_self _)
  | setupTransitionComplete => exact keeps_execSetupTransitionComplete s (.refl _ s) (sub_self _)
  | islandWatchdogExpired => exact keeps_execIslandWatchdogExpired _ _ s (.refl _ s) (sub_self _)
  | d2dFrameReceived => exact keeps_execD2dFrameReceived _ s (.refl _ s) (sub_self _)
  | d2dLinkTimeout => exact keeps_execD2dLinkTimeout s (.refl _ s) (sub_self _)
  | domainEnableWrite => exact keeps_execDomainEnableWrite _ _ _ s (.refl _ s) (sub_self _)
  | domainPowerUpStagger => exact keeps_execDomainPowerUpStagger s (.refl _ s) (sub_self _)
  | domainSupplyFail => exact keeps_execDomainSupplyFail _ _ _ s (.refl _ s) (sub_self _)
  | odWrite => exact keeps_execOdWrite _ _ _ _ s (.refl _ s) (sub_self _)
  | mgmtReadRequest => exact keeps_execMgmtReadRequest _ _ s (.refl _ s) (sub_self _)
  | mgmtWriteRequest => exact keeps_execMgmtWriteRequest _ _ s (.refl _ s) (sub_self _)
  | sdoInitiateDownload => exact keeps_execSdoInitiateDownload _ s (.refl _ s) (sub_self _)
  | sdoDownloadSegment => exact keeps_execSdoDownloadSegment _ s (.refl _ s) (sub_self _)
  | sdoInitiateUpload => exact keeps_execSdoInitiateUpload _ s (.refl _ s) (sub_self _)
  | sdoUploadSegment => exact keeps_execSdoUploadSegment _ s (.refl _ s) (sub_self _)
  | sdoBlockDownloadSegment => exact keeps_execSdoBlockDownloadSegment _ s (.refl _ s) (sub_self _)
  | sdoBlockDownloadEnd => exact keeps_execSdoBlockDownloadEnd _ s (.refl _ s) (sub_self _)
  | sdoBlockUploadRequest => exact keeps_execSdoBlockUploadRequest _ s (.refl _ s) (sub_self _)
  | sdoAbortReceived => exact keeps_execSdoAbortReceived _ s (.refl _ s) (sub_self _)
  | sdoTimeout => exact keeps_execSdoTimeout s (.refl _ s) (sub_self _)
  | rpdoReceived => exact keeps_execRpdoReceived _ _ s (.refl _ s) (sub_self _)
  | syncReceived => exact keeps_execSyncReceived s (.refl _ s) (sub_self _)
  | tpdoEventTimer => exact keeps_execTpdoEventTimer _ s (.refl _ s) (sub_self _)
  | tpdoInhibitEnd => exact keeps_execTpdoInhibitEnd _ s (.refl _ s) (sub_self _)
  | heartbeatTimer => exact keeps_execHeartbeatTimer s (.refl _ s) (sub_self _)
  | nmtStartRemoteNode => exact keeps_execNmtStartRemoteNode _ s (.refl _ s) (sub_self _)
  | nmtEnterPreOperational => exact keeps_execNmtEnterPreOperational _ s (.refl _ s) (sub_self _)
  | nmtStopRemoteNode => exact keeps_execNmtStopRemoteNode _ s (.refl _ s) (sub_self _)
  | nmtResetCommunication => exact keeps_execNmtResetCommunication _ s (.refl _ s) (sub_self _)
  | nmtResetNode => exact keeps_execNmtResetNode _ s (.refl _ s) (sub_self _)
  | sessionRequest => exact keeps_execSessionRequest _ _ s (.refl _ s) (sub_self _)
  | sessionEndRequest => exact keeps_execSessionEndRequest _ s (.refl _ s) (sub_self _)
  | sessionResponse => exact keeps_execSessionResponse _ _ _ s (.refl _ s) (sub_self _)
  | challengeExpired => exact keeps_execChallengeExpired _ s (.refl _ s) (sub_self _)
  | sessionIdleTimeout => exact keeps_execSessionIdleTimeout _ s (.refl _ s) (sub_self _)
  | sessionAgeTimeout => exact keeps_execSessionAgeTimeout _ s (.refl _ s) (sub_self _)
  | sessionLimitWrite => exact keeps_execSessionLimitWrite _ _ _ s (.refl _ s) (sub_self _)
  | lockoutEnd => exact keeps_execLockoutEnd _ s (.refl _ s) (sub_self _)
  | violationsClear => exact keeps_execViolationsClear _ _ s (.refl _ s) (sub_self _)
  | storeConfiguration => exact keeps_execStoreConfiguration _ _ _ s (.refl _ s) (sub_self _)
  | restoreDefaults => exact keeps_execRestoreDefaults _ _ _ s (.refl _ s) (sub_self _)
  | commandAbort => exact keeps_execCommandAbort _ _ _ s (.refl _ s) (sub_self _)
  | functionModeWrite => exact keeps_execFunctionModeWrite _ _ _ s (.refl _ s) (sub_self _)
  | functionSwitchComplete => exact keeps_execFunctionSwitchComplete _ s (.refl _ s) (sub_self _)
  | codewordGroupReceived => exact keeps_execCodewordGroupReceived _ _ _ _ _ _ s (.refl _ s) (sub_self _)
  | laneSignalLost => exact keeps_execLaneSignalLost _ _ _ s (.refl _ s) (sub_self _)
  | markerTimeout => exact keeps_execMarkerTimeout _ s (.refl _ s) (sub_self _)
  | trainingFrameReceived => exact keeps_execTrainingFrameReceived _ _ _ _ s (.refl _ s) (sub_self _)
  | trunkEnableWrite => exact keeps_execTrunkEnableWrite _ _ _ s (.refl _ s) (sub_self _)
  | trunkSignalDetect => exact keeps_execTrunkSignalDetect _ _ s (.refl _ s) (sub_self _)
  | laneSyncTimeout => exact keeps_execLaneSyncTimeout _ s (.refl _ s) (sub_self _)
  | identifyTimeout => exact keeps_execIdentifyTimeout _ s (.refl _ s) (sub_self _)
  | capabilitiesTimeout => exact keeps_execCapabilitiesTimeout _ s (.refl _ s) (sub_self _)
  | rateSwitchDelayExpired => exact keeps_execRateSwitchDelayExpired _ s (.refl _ s) (sub_self _)
  | rateChangeLockTimeout => exact keeps_execRateChangeLockTimeout _ s (.refl _ s) (sub_self _)
  | equaliseAdaptationComplete => exact keeps_execEqualiseAdaptationComplete _ s (.refl _ s) (sub_self _)
  | equaliseTimeout => exact keeps_execEqualiseTimeout _ s (.refl _ s) (sub_self _)
  | verifyWindowEnd => exact keeps_execVerifyWindowEnd _ s (.refl _ s) (sub_self _)
  | heldRetryExpired => exact keeps_execHeldRetryExpired _ s (.refl _ s) (sub_self _)
  | eyeWaitRepeat => exact keeps_execEyeWaitRepeat _ s (.refl _ s) (sub_self _)
  | trunkRetrain => exact keeps_execTrunkRetrain _ _ s (.refl _ s) (sub_self _)
  | trunkClearCounters => exact keeps_execTrunkClearCounters _ _ s (.refl _ s) (sub_self _)
  | retrainRequestSend => exact keeps_execRetrainRequestSend _ s (.refl _ s) (sub_self _)
  | retrainWaitTimeout => exact keeps_execRetrainWaitTimeout _ s (.refl _ s) (sub_self _)
  | eyeApplyLane => exact keeps_execEyeApplyLane _ _ s (.refl _ s) (sub_self _)
  | eyeFinishEqualise => exact keeps_execEyeFinishEqualise _ _ s (.refl _ s) (sub_self _)
  | controlCellReceived => exact keeps_execControlCellReceived _ _ s (.refl _ s) (sub_self _)
  | cellReceived => exact keeps_execCellReceived _ _ _ s (.refl _ s) (sub_self _)
  | tunnelEnable => exact keeps_execTunnelEnable _ _ s (.refl _ s) (sub_self _)
  | tunnelDisable => exact keeps_execTunnelDisable _ _ s (.refl _ s) (sub_self _)
  | tunnelRecordWrite => exact keeps_execTunnelRecordWrite _ _ _ _ s (.refl _ s) (sub_self _)
  | tunnelDrain => exact keeps_execTunnelDrain _ _ s (.refl _ s) (sub_self _)
  | tunnelClearCounters => exact keeps_execTunnelClearCounters _ _ s (.refl _ s) (sub_self _)
  | offerReceived => exact keeps_execOfferReceived _ _ _ s (.refl _ s) (sub_self _)
  | negotiationRepeat => exact keeps_execNegotiationRepeat _ s (.refl _ s) (sub_self _)
  | closeReceived => exact keeps_execCloseReceived _ s (.refl _ s) (sub_self _)
  | closeSend => exact keeps_execCloseSend _ s (.refl _ s) (sub_self _)
  | drainBoundExpired => exact keeps_execDrainBoundExpired _ s (.refl _ s) (sub_self _)
  | keyReadyReceived => exact keeps_execKeyReadyReceived _ _ s (.refl _ s) (sub_self _)
  | keySlotNextWrite => exact keeps_execKeySlotNextWrite _ _ _ s (.refl _ s) (sub_self _)
  | keyReadyRepeat => exact keeps_execKeyReadyRepeat _ s (.refl _ s) (sub_self _)
  | oldKeyAcceptExpired => exact keeps_execOldKeyAcceptExpired _ s (.refl _ s) (sub_self _)
  | twinLagTimeout => exact keeps_execTwinLagTimeout _ _ s (.refl _ s) (sub_self _)
  | fabricCellArrival => exact keeps_execFabricCellArrival _ _ s (.refl _ s) (sub_self _)
  | egressSerialise => exact keeps_execEgressSerialise _ _ _ _ s (.refl _ s) (sub_self _)
  | redAverageIdleUpdate => exact keeps_execRedAverageIdleUpdate _ _ s (.refl _ s) (sub_self _)
  | stallBoundExpired => exact keeps_execStallBoundExpired _ _ s (.refl _ s) (sub_self _)
  | holdBoundExpired => exact keeps_execHoldBoundExpired _ s (.refl _ s) (sub_self _)
  | openUnitTimeout => exact keeps_execOpenUnitTimeout _ _ _ s (.refl _ s) (sub_self _)
  | l2EntryAged => exact keeps_execL2EntryAged _ s (.refl _ s) (sub_self _)
  | l2ReadMatch => exact keeps_execL2ReadMatch _ s (.refl _ s) (sub_self _)
  | l2ReadSlot => exact keeps_execL2ReadSlot _ s (.refl _ s) (sub_self _)
  | l2WriteEntry => exact keeps_execL2WriteEntry _ s (.refl _ s) (sub_self _)
  | l2DeleteEntry => exact keeps_execL2DeleteEntry _ s (.refl _ s) (sub_self _)
  | l2FlushLearnt => exact keeps_execL2FlushLearnt _ s (.refl _ s) (sub_self _)
  | fabricClearCounters => exact keeps_execFabricClearCounters _ s (.refl _ s) (sub_self _)
  | schedCycleStart => exact keeps_execSchedCycleStart _ s (.refl _ s) (sub_self _)
  | schedCellTime => exact keeps_execSchedCellTime _ _ s (.refl _ s) (sub_self _)
  | gateTableSwitch => exact keeps_execGateTableSwitch _ _ s (.refl _ s) (sub_self _)
  | schedVersionMismatch => exact keeps_execSchedVersionMismatch _ s (.refl _ s) (sub_self _)
  | carveEpoch => exact keeps_execCarveEpoch _ s (.refl _ s) (sub_self _)
  | outputEnable => exact keeps_execOutputEnable _ _ s (.refl _ s) (sub_self _)
  | outputDisable => exact keeps_execOutputDisable _ _ s (.refl _ s) (sub_self _)
  | hpdAsserted => exact keeps_execHpdAsserted _ s (.refl _ s) (sub_self _)
  | hpdDeasserted => exact keeps_execHpdDeasserted _ s (.refl _ s) (sub_self _)
  | hpdLowTimeout => exact keeps_execHpdLowTimeout _ s (.refl _ s) (sub_self _)
  | irqHpd => exact keeps_execIrqHpd _ _ _ s (.refl _ s) (sub_self _)
  | dpLinkTrainingDone => exact keeps_execDpLinkTrainingDone _ _ _ _ _ _ s (.refl _ s) (sub_self _)
  | lvdsClockStable => exact keeps_execLvdsClockStable _ s (.refl _ s) (sub_self _)
  | frontPorchLineEnd => exact keeps_execFrontPorchLineEnd _ s (.refl _ s) (sub_self _)
  | displayCellReceived => exact keeps_execDisplayCellReceived _ _ s (.refl _ s) (sub_self _)
  | layerUnderrun => exact keeps_execLayerUnderrun _ _ s (.refl _ s) (sub_self _)
  | outputClearCounters => exact keeps_execOutputClearCounters _ _ s (.refl _ s) (sub_self _)
  | signatureCompletion => exact keeps_execSignatureCompletion _ _ s (.refl _ s) (sub_self _)
  | freezeTimeExpired => exact keeps_execFreezeTimeExpired _ _ s (.refl _ s) (sub_self _)
  | activeAreaEnd => exact keeps_execActiveAreaEnd _ s (.refl _ s) (sub_self _)
  | integrityClear => exact keeps_execIntegrityClear _ _ s (.refl _ s) (sub_self _)
  | expectedSignatureWrite => exact keeps_execExpectedSignatureWrite _ _ _ _ s (.refl _ s) (sub_self _)
  | usbRequestUnit => exact keeps_execUsbRequestUnit _ _ _ s (.refl _ s) (sub_self _)
  | microframeStart => exact keeps_execMicroframeStart s (.refl _ s) (sub_self _)
  | usbTransactionStart => exact keeps_execUsbTransactionStart _ _ s (.refl _ s) (sub_self _)
  | usbTransactionEnd => exact keeps_execUsbTransactionEnd _ _ _ _ s (.refl _ s) (sub_self _)
  | nakRetryExpired => exact keeps_execNakRetryExpired _ s (.refl _ s) (sub_self _)
  | busCommandReset => exact keeps_execBusCommandReset _ s (.refl _ s) (sub_self _)
  | busCommandSuspend => exact keeps_execBusCommandSuspend _ s (.refl _ s) (sub_self _)
  | busCommandResume => exact keeps_execBusCommandResume _ _ s (.refl _ s) (sub_self _)
  | resumeKEnd => exact keeps_execResumeKEnd s (.refl _ s) (sub_self _)
  | dspDeviceAttach => exact keeps_execDspDeviceAttach _ _ s (.refl _ s) (sub_self _)
  | dspDeviceDetach => exact keeps_execDspDeviceDetach _ s (.refl _ s) (sub_self _)
  | deviceChirpDetected => exact keeps_execDeviceChirpDetected _ _ s (.refl _ s) (sub_self _)
  | portResetEnd => exact keeps_execPortResetEnd _ s (.refl _ s) (sub_self _)
  | dspDeviceK => exact keeps_execDspDeviceK _ s (.refl _ s) (sub_self _)
  | setPortPower => exact keeps_execSetPortPower _ s (.refl _ s) (sub_self _)
  | clearPortPower => exact keeps_execClearPortPower _ s (.refl _ s) (sub_self _)
  | setPortReset => exact keeps_execSetPortReset _ s (.refl _ s) (sub_self _)
  | setPortSuspend => exact keeps_execSetPortSuspend _ s (.refl _ s) (sub_self _)
  | clearPortSuspend => exact keeps_execClearPortSuspend _ s (.refl _ s) (sub_self _)
  | clearPortEnable => exact keeps_execClearPortEnable _ s (.refl _ s) (sub_self _)
  | setPortTest => exact keeps_execSetPortTest _ _ s (.refl _ s) (sub_self _)
  | clearPortChange => exact keeps_execClearPortChange _ _ s (.refl _ s) (sub_self _)
  | clearHubChange => exact keeps_execClearHubChange _ s (.refl _ s) (sub_self _)
  | getPortStatus => exact keeps_execGetPortStatus _ s (.refl _ s) (sub_self _)
  | hubGetStatus => exact keeps_execHubGetStatus _ s (.refl _ s) (sub_self _)
  | hubGetDescriptor => exact keeps_execHubGetDescriptor _ _ _ s (.refl _ s) (sub_self _)
  | hubSetAddress => exact keeps_execHubSetAddress _ s (.refl _ s) (sub_self _)
  | hubSetConfiguration => exact keeps_execHubSetConfiguration _ s (.refl _ s) (sub_self _)
  | hubSetInterface => exact keeps_execHubSetInterface _ s (.refl _ s) (sub_self _)
  | hubSetRemoteWakeup => exact keeps_execHubSetRemoteWakeup s (.refl _ s) (sub_self _)
  | hubClearRemoteWakeup => exact keeps_execHubClearRemoteWakeup s (.refl _ s) (sub_self _)
  | clearTtBuffer => exact keeps_execClearTtBuffer _ _ _ _ _ s (.refl _ s) (sub_self _)
  | resetTt => exact keeps_execResetTt _ s (.refl _ s) (sub_self _)
  | relayDownProducerWrite => exact keeps_execRelayDownProducerWrite _ _ _ s (.refl _ s) (sub_self _)
  | relayUpConsumerWrite => exact keeps_execRelayUpConsumerWrite _ _ s (.refl _ s) (sub_self _)
  | relayUnitFromTunnel => exact keeps_execRelayUnitFromTunnel _ _ s (.refl _ s) (sub_self _)
  | usbPortPowerOn => exact keeps_execUsbPortPowerOn _ _ s (.refl _ s) (sub_self _)
  | usbPortPowerOff => exact keeps_execUsbPortPowerOff _ _ s (.refl _ s) (sub_self _)
  | usbPortReset => exact keeps_execUsbPortReset _ _ s (.refl _ s) (sub_self _)
  | usbPortSuspend => exact keeps_execUsbPortSuspend _ _ s (.refl _ s) (sub_self _)
  | usbPortResume => exact keeps_execUsbPortResume _ _ s (.refl _ s) (sub_self _)
  | usbPortTestMode => exact keeps_execUsbPortTestMode _ _ _ s (.refl _ s) (sub_self _)
  | usbHubClearCounters => exact keeps_execUsbHubClearCounters _ s (.refl _ s) (sub_self _)
  | svcDeviceAttach => exact keeps_execSvcDeviceAttach s (.refl _ s) (sub_self _)
  | svcDeviceDetach => exact keeps_execSvcDeviceDetach s (.refl _ s) (sub_self _)
  | svcBusReset => exact keeps_execSvcBusReset _ s (.refl _ s) (sub_self _)
  | svcSetupReceived => exact keeps_execSvcSetupReceived _ s (.refl _ s) (sub_self _)
  | svcStatusStageComplete => exact keeps_execSvcStatusStageComplete s (.refl _ s) (sub_self _)
  | svcSetAddress => exact keeps_execSvcSetAddress _ s (.refl _ s) (sub_self _)
  | svcSetConfiguration => exact keeps_execSvcSetConfiguration _ s (.refl _ s) (sub_self _)
  | svcSetInterface => exact keeps_execSvcSetInterface _ _ s (.refl _ s) (sub_self _)
  | svcSetEndpointHalt => exact keeps_execSvcSetEndpointHalt _ _ s (.refl _ s) (sub_self _)
  | svcClearEndpointHalt => exact keeps_execSvcClearEndpointHalt _ _ s (.refl _ s) (sub_self _)
  | svcOutPacket => exact keeps_execSvcOutPacket _ _ _ s (.refl _ s) (sub_self _)
  | svcInToken => exact keeps_execSvcInToken _ _ s (.refl _ s) (sub_self _)
  | svcSuspendDetected => exact keeps_execSvcSuspendDetected s (.refl _ s) (sub_self _)
  | svcHostResume => exact keeps_execSvcHostResume s (.refl _ s) (sub_self _)
  | svcRemoteWake => exact keeps_execSvcRemoteWake _ _ s (.refl _ s) (sub_self _)
  | svcDeviceEnableWrite => exact keeps_execSvcDeviceEnableWrite _ _ s (.refl _ s) (sub_self _)
  | typecAttach => exact keeps_execTypecAttach _ _ _ s (.refl _ s) (sub_self _)
  | typecDetach => exact keeps_execTypecDetach s (.refl _ s) (sub_self _)
  | drpToggleTimer => exact keeps_execDrpToggleTimer s (.refl _ s) (sub_self _)
  | trySnkTimeout => exact keeps_execTrySnkTimeout s (.refl _ s) (sub_self _)
  | errorRecoveryEnd => exact keeps_execErrorRecoveryEnd s (.refl _ s) (sub_self _)
  | raDetected => exact keeps_execRaDetected s (.refl _ s) (sub_self _)
  | pdSourceCapabilities => exact keeps_execPdSourceCapabilities _ _ _ s (.refl _ s) (sub_self _)
  | pdRequest => exact keeps_execPdRequest _ _ _ s (.refl _ s) (sub_self _)
  | pdAccept => exact keeps_execPdAccept _ s (.refl _ s) (sub_self _)
  | pdReject => exact keeps_execPdReject _ _ s (.refl _ s) (sub_self _)
  | pdWait => exact keeps_execPdWait _ s (.refl _ s) (sub_self _)
  | pdPsRdy => exact keeps_execPdPsRdy _ s (.refl _ s) (sub_self _)
  | pdGetSourceCap => exact keeps_execPdGetSourceCap _ s (.refl _ s) (sub_self _)
  | pdGetSinkCap => exact keeps_execPdGetSinkCap _ s (.refl _ s) (sub_self _)
  | pdDrSwap => exact keeps_execPdDrSwap _ s (.refl _ s) (sub_self _)
  | pdVconnSwap => exact keeps_execPdVconnSwap _ s (.refl _ s) (sub_self _)
  | pdSoftReset => exact keeps_execPdSoftReset _ s (.refl _ s) (sub_self _)
  | pdHardReset => exact keeps_execPdHardReset s (.refl _ s) (sub_self _)
  | pdDiscoverIdentity => exact keeps_execPdDiscoverIdentity _ s (.refl _ s) (sub_self _)
  | pdPrSwap => exact keeps_execPdPrSwap _ s (.refl _ s) (sub_self _)
  | pdExtendedMessage => exact keeps_execPdExtendedMessage _ s (.refl _ s) (sub_self _)
  | pdBist => exact keeps_execPdBist _ _ s (.refl _ s) (sub_self _)
  | pdGoodcrcTimeout => exact keeps_execPdGoodcrcTimeout s (.refl _ s) (sub_self _)
  | firstSourceCapTimer => exact keeps_execFirstSourceCapTimer s (.refl _ s) (sub_self _)
  | sourceCapRepeat => exact keeps_execSourceCapRepeat s (.refl _ s) (sub_self _)
  | srcTransitionExpired => exact keeps_execSrcTransitionExpired s (.refl _ s) (sub_self _)
  | vbusSettled => exact keeps_execVbusSettled _ s (.refl _ s) (sub_self _)
  | psTransitionSrcTimeout => exact keeps_execPsTransitionSrcTimeout _ s (.refl _ s) (sub_self _)
  | psTransitionTimeout => exact keeps_execPsTransitionTimeout s (.refl _ s) (sub_self _)
  | senderResponseTimeout => exact keeps_execSenderResponseTimeout s (.refl _ s) (sub_self _)
  | sinkRequestRetry => exact keeps_execSinkRequestRetry s (.refl _ s) (sub_self _)
  | svcVbusOvervoltage => exact keeps_execSvcVbusOvervoltage _ _ _ s (.refl _ s) (sub_self _)
  | svcCcOvervoltage => exact keeps_execSvcCcOvervoltage _ s (.refl _ s) (sub_self _)
  | vconnOvercurrent => exact keeps_execVconnOvercurrent _ s (.refl _ s) (sub_self _)
  | pdCmdDrSwap => exact keeps_execPdCmdDrSwap _ s (.refl _ s) (sub_self _)
  | pdCmdVconnSwap => exact keeps_execPdCmdVconnSwap _ s (.refl _ s) (sub_self _)
  | pdCmdHardReset => exact keeps_execPdCmdHardReset _ s (.refl _ s) (sub_self _)
  | pdCmdSendSourceCap => exact keeps_execPdCmdSendSourceCap _ s (.refl _ s) (sub_self _)
  | pdCmdRequest => exact keeps_execPdCmdRequest _ _ s (.refl _ s) (sub_self _)
  | pdoWrite => exact keeps_execPdoWrite _ _ _ s (.refl _ s) (sub_self _)
  | ethFrameReceived => exact keeps_execEthFrameReceived _ _ s (.refl _ s) (sub_self _)
  | ethLinkUp => exact keeps_execEthLinkUp _ _ s (.refl _ s) (sub_self _)
  | ethLinkDown => exact keeps_execEthLinkDown _ s (.refl _ s) (sub_self _)
  | pauseFrameReceived => exact keeps_execPauseFrameReceived _ _ s (.refl _ s) (sub_self _)
  | ethPortClearCounters => exact keeps_execEthPortClearCounters _ _ s (.refl _ s) (sub_self _)
  | lifeCheckTimer => exact keeps_execLifeCheckTimer _ s (.refl _ s) (sub_self _)
  | supervisionTimeout => exact keeps_execSupervisionTimeout _ s (.refl _ s) (sub_self _)
  | nodeForgetTimeout => exact keeps_execNodeForgetTimeout _ _ s (.refl _ s) (sub_self _)
  | ptpSyncReceived => exact keeps_execPtpSyncReceived _ _ s (.refl _ s) (sub_self _)
  | ptpFollowUpReceived => exact keeps_execPtpFollowUpReceived _ _ s (.refl _ s) (sub_self _)
  | ptpAnnounceReceived => exact keeps_execPtpAnnounceReceived _ _ s (.refl _ s) (sub_self _)
  | ptpPdelayReqReceived => exact keeps_execPtpPdelayReqReceived _ _ s (.refl _ s) (sub_self _)
  | ptpPdelayRespReceived => exact keeps_execPtpPdelayRespReceived _ _ s (.refl _ s) (sub_self _)
  | ptpSyncTimer => exact keeps_execPtpSyncTimer _ s (.refl _ s) (sub_self _)
  | ptpPdelayTimer => exact keeps_execPtpPdelayTimer _ s (.refl _ s) (sub_self _)
  | announceReceiptTimeout => exact keeps_execAnnounceReceiptTimeout _ s (.refl _ s) (sub_self _)
  | irigFrameReceived => exact keeps_execIrigFrameReceived _ _ s (.refl _ s) (sub_self _)
  | ppsInEdge => exact keeps_execPpsInEdge _ s (.refl _ s) (sub_self _)
  | ppsOutSecond => exact keeps_execPpsOutSecond s (.refl _ s) (sub_self _)
  | ppsOutWidthEnd => exact keeps_execPpsOutWidthEnd s (.refl _ s) (sub_self _)
  | timeSourceLost => exact keeps_execTimeSourceLost s (.refl _ s) (sub_self _)
  | holdoverLimitExpired => exact keeps_execHoldoverLimitExpired s (.refl _ s) (sub_self _)
  | timeSourceWrite => exact keeps_execTimeSourceWrite _ _ _ s (.refl _ s) (sub_self _)
  | sf3Fault => exact keeps_execSf3Fault _ s (.refl _ s) (sub_self _)
  | timeStep => exact keeps_execTimeStep _ s (.refl _ s) (sub_self _)
  | timeSet => exact keeps_execTimeSet _ s (.refl _ s) (sub_self _)
  | timeSlew => exact keeps_execTimeSlew _ s (.refl _ s) (sub_self _)
  | hostFrequencyWrite => exact keeps_execHostFrequencyWrite _ _ s (.refl _ s) (sub_self _)
  | timeStatusMessageSend => exact keeps_execTimeStatusMessageSend _ s (.refl _ s) (sub_self _)
  | timeStatusMessageReceived => exact keeps_execTimeStatusMessageReceived _ _ s (.refl _ s) (sub_self _)
  | journalClear => exact keeps_execJournalClear _ s (.refl _ s) (sub_self _)
  | journalEntryRead => exact keeps_execJournalEntryRead _ s (.refl _ s) (sub_self _)
  | remoteEntryRead => exact keeps_execRemoteEntryRead _ _ s (.refl _ s) (sub_self _)
  | journalPushCellReceived => exact keeps_execJournalPushCellReceived _ _ s (.refl _ s) (sub_self _)
  | journalAckReceived => exact keeps_execJournalAckReceived _ _ s (.refl _ s) (sub_self _)
  | journalPushRetransmit => exact keeps_execJournalPushRetransmit _ s (.refl _ s) (sub_self _)
  | rateLimitPeriodEnd => exact keeps_execRateLimitPeriodEnd _ _ s (.refl _ s) (sub_self _)
  | pcieLinkUp => exact keeps_execPcieLinkUp _ _ _ s (.refl _ s) (sub_self _)
  | pcieLinkDown => exact keeps_execPcieLinkDown _ s (.refl _ s) (sub_self _)
  | driveReady => exact keeps_execDriveReady _ _ _ s (.refl _ s) (sub_self _)
  | driveInitTimeout => exact keeps_execDriveInitTimeout _ _ s (.refl _ s) (sub_self _)
  | nvmeSqDoorbell => exact keeps_execNvmeSqDoorbell _ _ _ s (.refl _ s) (sub_self _)
  | nvmeRead => exact keeps_execNvmeRead _ _ _ _ _ _ _ s (.refl _ s) (sub_self _)
  | nvmeWrite => exact keeps_execNvmeWrite _ _ _ _ _ _ _ s (.refl _ s) (sub_self _)
  | nvmeFlush => exact keeps_execNvmeFlush _ _ _ _ s (.refl _ s) (sub_self _)
  | nvmeWriteZeroes => exact keeps_execNvmeWriteZeroes _ _ _ _ _ _ s (.refl _ s) (sub_self _)
  | nvmeIdentify => exact keeps_execNvmeIdentify _ _ _ _ s (.refl _ s) (sub_self _)
  | nvmeCreateIoQueue => exact keeps_execNvmeCreateIoQueue _ _ _ _ _ _ _ s (.refl _ s) (sub_self _)
  | nvmeDeleteIoQueue => exact keeps_execNvmeDeleteIoQueue _ _ _ _ s (.refl _ s) (sub_self _)
  | nvmeGetLogPage => exact keeps_execNvmeGetLogPage _ _ _ _ s (.refl _ s) (sub_self _)
  | nvmeGetFeatures => exact keeps_execNvmeGetFeatures _ _ _ s (.refl _ s) (sub_self _)
  | nvmeSetFeatures => exact keeps_execNvmeSetFeatures _ _ _ _ s (.refl _ s) (sub_self _)
  | nvmeAbort => exact keeps_execNvmeAbort _ _ s (.refl _ s) (sub_self _)
  | nvmeAsyncEventRequest => exact keeps_execNvmeAsyncEventRequest _ _ s (.refl _ s) (sub_self _)
  | nvmeInvalidOpcode => exact keeps_execNvmeInvalidOpcode _ _ _ s (.refl _ s) (sub_self _)
  | storageUnitReceived => exact keeps_execStorageUnitReceived _ _ _ s (.refl _ s) (sub_self _)
  | driveCompletion => exact keeps_execDriveCompletion _ _ _ s (.refl _ s) (sub_self _)
  | windowWriteRequest => exact keeps_execWindowWriteRequest _ _ _ _ s (.refl _ s) (sub_self _)
  | windowReadRequest => exact keeps_execWindowReadRequest _ _ _ _ _ s (.refl _ s) (sub_self _)
  | mrdlkRequest => exact keeps_execMrdlkRequest _ _ _ _ s (.refl _ s) (sub_self _)
  | unlockMessage => exact keeps_execUnlockMessage _ s (.refl _ s) (sub_self _)
  | windowUnitReceived => exact keeps_execWindowUnitReceived _ _ _ _ _ _ s (.refl _ s) (sub_self _)
  | windowCompletionReceived => exact keeps_execWindowCompletionReceived _ _ _ _ s (.refl _ s) (sub_self _)
  | lockRefusedReceived => exact keeps_execLockRefusedReceived _ _ s (.refl _ s) (sub_self _)
  | completionTimeout => exact keeps_execCompletionTimeout _ s (.refl _ s) (sub_self _)
  | prefetchLifeExpired => exact keeps_execPrefetchLifeExpired _ s (.refl _ s) (sub_self _)
  | windowUnfence => exact keeps_execWindowUnfence _ _ s (.refl _ s) (sub_self _)
  | windowClearCounters => exact keeps_execWindowClearCounters _ _ s (.refl _ s) (sub_self _)
  | storageFlush => exact keeps_execStorageFlush _ s (.refl _ s) (sub_self _)
  | busMasterDisable => exact keeps_execBusMasterDisable _ s (.refl _ s) (sub_self _)
  | rootPortDeviceRequest => exact keeps_execRootPortDeviceRequest _ _ _ _ _ _ _ s (.refl _ s) (sub_self _)
  | pcieClearCounters => exact keeps_execPcieClearCounters _ _ s (.refl _ s) (sub_self _)
  | canFrameReceived => exact keeps_execCanFrameReceived _ _ _ s (.refl _ s) (sub_self _)
  | canBusOff => exact keeps_execCanBusOff _ _ _ s (.refl _ s) (sub_self _)
  | canBusOffRecovery => exact keeps_execCanBusOffRecovery _ s (.refl _ s) (sub_self _)
  | canLeaveBusOff => exact keeps_execCanLeaveBusOff _ _ s (.refl _ s) (sub_self _)
  | uartUnitClose => exact keeps_execUartUnitClose _ _ _ _ s (.refl _ s) (sub_self _)
  | uartUnitTransmit => exact keeps_execUartUnitTransmit _ _ s (.refl _ s) (sub_self _)
  | fieldUnitReceived => exact keeps_execFieldUnitReceived _ _ _ s (.refl _ s) (sub_self _)
  | mapPeriodTimer => exact keeps_execMapPeriodTimer _ s (.refl _ s) (sub_self _)
  | staleTimeExpired => exact keeps_execStaleTimeExpired _ s (.refl _ s) (sub_self _)
  | canTxCycleTimer => exact keeps_execCanTxCycleTimer _ s (.refl _ s) (sub_self _)
  | canTxInhibitEnd => exact keeps_execCanTxInhibitEnd _ s (.refl _ s) (sub_self _)
  | gooseRepeatTimer => exact keeps_execGooseRepeatTimer _ s (.refl _ s) (sub_self _)
  | gooseTalExpired => exact keeps_execGooseTalExpired _ s (.refl _ s) (sub_self _)
  | signalValueWrite => exact keeps_execSignalValueWrite _ _ _ _ s (.refl _ s) (sub_self _)
  | keyDerive => exact keeps_execKeyDerive _ s (.refl _ s) (sub_self _)
  | keyAgree => exact keeps_execKeyAgree _ s (.refl _ s) (sub_self _)
  | keyImport => exact keeps_execKeyImport _ s (.refl _ s) (sub_self _)
  | keyInvalidate => exact keeps_execKeyInvalidate _ s (.refl _ s) (sub_self _)
  | enterOperational => exact keeps_execEnterOperational _ _ s (.refl _ s) (sub_self _)
  | decommission => exact keeps_execDecommission _ _ s (.refl _ s) (sub_self _)
  | enrolCustomerKeyHash => exact keeps_execEnrolCustomerKeyHash _ s (.refl _ s) (sub_self _)
  | tamperAlarm => exact keeps_execTamperAlarm _ _ s (.refl _ s) (sub_self _)
  | tamperClear => exact keeps_execTamperClear _ s (.refl _ s) (sub_self _)
  | vanguriRequest => exact keeps_execVanguriRequest _ _ _ _ s (.refl _ s) (sub_self _)
  | vanguriSign => exact keeps_execVanguriSign _ _ s (.refl _ s) (sub_self _)
  | cryptoSelftest => exact keeps_execCryptoSelftest _ _ s (.refl _ s) (sub_self _)
  | trngHealthFailure => exact keeps_execTrngHealthFailure _ s (.refl _ s) (sub_self _)
  | feedStateChange => exact keeps_execFeedStateChange _ _ _ s (.refl _ s) (sub_self _)
  | feedReverseCurrent => exact keeps_execFeedReverseCurrent _ _ _ s (.refl _ s) (sub_self _)
  | vorBelowMinimum => exact keeps_execVorBelowMinimum _ s (.refl _ s) (sub_self _)
  | holdupCheck => exact keeps_execHoldupCheck _ s (.refl _ s) (sub_self _)
  | inletDebounceComplete => exact keeps_execInletDebounceComplete _ s (.refl _ s) (sub_self _)
  | inletOvervoltage => exact keeps_execInletOvervoltage _ s (.refl _ s) (sub_self _)
  | powerFailWarning => exact keeps_execPowerFailWarning _ s (.refl _ s) (sub_self _)
  | breakerOnRequest => exact keeps_execBreakerOnRequest _ s (.refl _ s) (sub_self _)
  | breakerRequestWithdrawn => exact keeps_execBreakerRequestWithdrawn _ s (.refl _ s) (sub_self _)
  | breakerFullEnhancement => exact keeps_execBreakerFullEnhancement _ s (.refl _ s) (sub_self _)
  | breakerRampTimeout => exact keeps_execBreakerRampTimeout _ _ _ s (.refl _ s) (sub_self _)
  | breakerCurveTrip => exact keeps_execBreakerCurveTrip _ _ _ _ s (.refl _ s) (sub_self _)
  | breakerFastTrip => exact keeps_execBreakerFastTrip _ _ _ s (.refl _ s) (sub_self _)
  | breakerThermalTrip => exact keeps_execBreakerThermalTrip _ _ _ s (.refl _ s) (sub_self _)
  | breakerReverseCurrent => exact keeps_execBreakerReverseCurrent _ _ _ s (.refl _ s) (sub_self _)
  | breakerRetryTimer => exact keeps_execBreakerRetryTimer _ _ s (.refl _ s) (sub_self _)
  | retryResetTimeExpired => exact keeps_execRetryResetTimeExpired _ s (.refl _ s) (sub_self _)
  | retryCountWrite => exact keeps_execRetryCountWrite _ _ _ s (.refl _ s) (sub_self _)
  | inletRestart => exact keeps_execInletRestart s (.refl _ s) (sub_self _)
  | fetSensorFault => exact keeps_execFetSensorFault _ _ s (.refl _ s) (sub_self _)
  | breakerReset => exact keeps_execBreakerReset _ _ s (.refl _ s) (sub_self _)
  | breakerRetryNow => exact keeps_execBreakerRetryNow _ _ _ s (.refl _ s) (sub_self _)
  | breakerClearCounters => exact keeps_execBreakerClearCounters _ _ s (.refl _ s) (sub_self _)
  | powerEntryClearCounters => exact keeps_execPowerEntryClearCounters _ s (.refl _ s) (sub_self _)
  | pd0ColdStart => exact keeps_execPd0ColdStart s (.refl _ s) (sub_self _)
  | railGroupEnable => exact keeps_execRailGroupEnable s (.refl _ s) (sub_self _)
  | railGroupGood => exact keeps_execRailGroupGood s (.refl _ s) (sub_self _)
  | railGroupTimeout => exact keeps_execRailGroupTimeout s (.refl _ s) (sub_self _)
  | railFault => exact keeps_execRailFault _ _ _ s (.refl _ s) (sub_self _)
  | appEnableWrite => exact keeps_execAppEnableWrite _ _ s (.refl _ s) (sub_self _)
  | appLoadComplete => exact keeps_execAppLoadComplete s (.refl _ s) (sub_self _)
  | appStart => exact keeps_execAppStart _ s (.refl _ s) (sub_self _)
  | appHalt => exact keeps_execAppHalt _ s (.refl _ s) (sub_self _)
  | appRestart => exact keeps_execAppRestart _ s (.refl _ s) (sub_self _)
  | appClearCounters => exact keeps_execAppClearCounters _ s (.refl _ s) (sub_self _)
  | busUnmappedAccess => exact keeps_execBusUnmappedAccess _ s (.refl _ s) (sub_self _)
  | gwGoRead => exact keeps_execGwGoRead _ _ s (.refl _ s) (sub_self _)
  | gwGoWrite => exact keeps_execGwGoWrite _ _ _ s (.refl _ s) (sub_self _)
  | gatewayDone => exact keeps_execGatewayDone s (.refl _ s) (sub_self _)
  | jpEntryRead => exact keeps_execJpEntryRead _ s (.refl _ s) (sub_self _)
  | jpWrite => exact keeps_execJpWrite _ _ _ s (.refl _ s) (sub_self _)
  | dbSet => exact keeps_execDbSet _ s (.refl _ s) (sub_self _)
  | dbClear => exact keeps_execDbClear _ s (.refl _ s) (sub_self _)
  | doorbellRing => exact keeps_execDoorbellRing _ _ s (.refl _ s) (sub_self _)
  | appMailboxPost => exact keeps_execAppMailboxPost _ s (.refl _ s) (sub_self _)
  | hostMsgTake => exact keeps_execHostMsgTake s (.refl _ s) (sub_self _)
  | appMsgSend => exact keeps_execAppMsgSend _ s (.refl _ s) (sub_self _)
  | endpointDescriptorWrite => exact keeps_execEndpointDescriptorWrite _ _ _ _ _ _ s (.refl _ s) (sub_self _)
  | stimeLatchRead => exact keeps_execStimeLatchRead s (.refl _ s) (sub_self _)
  | tmrArm => exact keeps_execTmrArm _ _ _ _ s (.refl _ s) (sub_self _)
  | timerExpiry => exact keeps_execTimerExpiry _ s (.refl _ s) (sub_self _)
  | wdogKick => exact keeps_execWdogKick _ s (.refl _ s) (sub_self _)
  | watchdogExpiry => exact keeps_execWatchdogExpiry s (.refl _ s) (sub_self _)
  | nClaim => exact keeps_execNClaim _ _ s (.refl _ s) (sub_self _)
  | nComplete => exact keeps_execNComplete _ _ s (.refl _ s) (sub_self _)
  | fClaim => exact keeps_execFClaim _ _ s (.refl _ s) (sub_self _)
  | fComplete => exact keeps_execFComplete _ _ s (.refl _ s) (sub_self _)
  | normalInterruptEntry => exact keeps_execNormalInterruptEntry _ _ _ _ s (.refl _ s) (sub_self _)
  | fastInterruptEntry => exact keeps_execFastInterruptEntry _ _ _ s (.refl _ s) (sub_self _)
  | ci2ClockStop => exact keeps_execCi2ClockStop s (.refl _ s) (sub_self _)
  | ci2ClockRestart => exact keeps_execCi2ClockRestart _ s (.refl _ s) (sub_self _)
  | lockstepMismatch => exact keeps_execLockstepMismatch _ _ _ s (.refl _ s) (sub_self _)
  | shadowCheck => exact keeps_execShadowCheck _ _ _ _ s (.refl _ s) (sub_self _)
  | tunnelSilent => exact keeps_execTunnelSilent _ s (.refl _ s) (sub_self _)
  | sf4PowerPathFault => exact keeps_execSf4PowerPathFault _ _ _ s (.refl _ s) (sub_self _)
  | safePulsePermission => exact keeps_execSafePulsePermission s (.refl _ s) (sub_self _)
  | safePulsePermissionTimeout => exact keeps_execSafePulsePermissionTimeout s (.refl _ s) (sub_self _)
  | safetyClearLatches => exact keeps_execSafetyClearLatches _ s (.refl _ s) (sub_self _)
  | shadowReload => exact keeps_execShadowReload _ s (.refl _ s) (sub_self _)
  | sentinelReport => exact keeps_execSentinelReport _ _ s (.refl _ s) (sub_self _)
  | planInstant => exact keeps_execPlanInstant _ s (.refl _ s) (sub_self _)
  | marginApprove => exact keeps_execMarginApprove _ s (.refl _ s) (sub_self _)
  | marginPlanNow => exact keeps_execMarginPlanNow _ _ s (.refl _ s) (sub_self _)
  | marginEnvelopeWrite => exact keeps_execMarginEnvelopeWrite _ _ _ s (.refl _ s) (sub_self _)
  | marginPinnedRepeat => exact keeps_execMarginPinnedRepeat _ s (.refl _ s) (sub_self _)
  | dramPatrolScrub => exact keeps_execDramPatrolScrub _ _ _ s (.refl _ s) (sub_self _)
  | bufferPatrolScrub => exact keeps_execBufferPatrolScrub _ _ _ s (.refl _ s) (sub_self _)
  | sramScrub => exact keeps_execSramScrub _ _ _ _ s (.refl _ s) (sub_self _)
  | mramScrub => exact keeps_execMramScrub _ _ _ s (.refl _ s) (sub_self _)
  | ddrCalibration => exact keeps_execDdrCalibration _ _ s (.refl _ s) (sub_self _)
  | serdesSweep => exact keeps_execSerdesSweep _ _ _ s (.refl _ s) (sub_self _)
  | sensorCalibration => exact keeps_execSensorCalibration s (.refl _ s) (sub_self _)
  | backgroundTaskBehind => exact keeps_execBackgroundTaskBehind _ s (.refl _ s) (sub_self _)
  | backgroundTaskEnableWrite => exact keeps_execBackgroundTaskEnableWrite _ _ _ s (.refl _ s) (sub_self _)
  | norLogWrite => exact keeps_execNorLogWrite _ _ _ _ s (.refl _ s) (sub_self _)
  | telemetrySample => exact keeps_execTelemetrySample _ _ _ _ s (.refl _ s) (sub_self _)
  | telemetryLogRecord => exact keeps_execTelemetryLogRecord s (.refl _ s) (sub_self _)
  | liftDfuDnload => exact keeps_execLiftDfuDnload _ _ _ _ _ s (.refl _ s) (sub_self _)
  | liftDfuDnloadEnd => exact keeps_execLiftDfuDnloadEnd _ _ s (.refl _ s) (sub_self _)
  | liftDfuAbort => exact keeps_execLiftDfuAbort s (.refl _ s) (sub_self _)
  | liftDfuGetstatus => exact keeps_execLiftDfuGetstatus s (.refl _ s) (sub_self _)
  | liftDfuClrstatus => exact keeps_execLiftDfuClrstatus s (.refl _ s) (sub_self _)
  | liftDfuGetstate => exact keeps_execLiftDfuGetstate s (.refl _ s) (sub_self _)
  | dfuDetach => exact keeps_execDfuDetach s (.refl _ s) (sub_self _)
  | stagingDfuDnload => exact keeps_execStagingDfuDnload _ _ _ _ s (.refl _ s) (sub_self _)
  | stagingDfuDnloadEnd => exact keeps_execStagingDfuDnloadEnd _ s (.refl _ s) (sub_self _)
  | imageStage => exact keeps_execImageStage _ s (.refl _ s) (sub_self _)
  | imageActivate => exact keeps_execImageActivate _ s (.refl _ s) (sub_self _)
  | imageActivationDone => exact keeps_execImageActivationDone _ s (.refl _ s) (sub_self _)
  | imageDiscard => exact keeps_execImageDiscard _ s (.refl _ s) (sub_self _)
  | fwConfirmSlot => exact keeps_execFwConfirmSlot _ s (.refl _ s) (sub_self _)
  | fwAdvanceRollback => exact keeps_execFwAdvanceRollback _ _ s (.refl _ s) (sub_self _)
  | fwRaiseAppFloor => exact keeps_execFwRaiseAppFloor _ s (.refl _ s) (sub_self _)
  | fwReset => exact keeps_execFwReset _ s (.refl _ s) (sub_self _)
  | fwResetDelayExpired => exact keeps_execFwResetDelayExpired s (.refl _ s) (sub_self _)
  | orphanDiscard => exact keeps_execOrphanDiscard _ s (.refl _ s) (sub_self _)
  | configBackupWrite => exact keeps_execConfigBackupWrite s (.refl _ s) (sub_self _)
  | pcsBlockReceived => exact keeps_execPcsBlockReceived _ _ _ _ _ _ s (.refl _ s) (sub_self _)
  | laneLockAcquired => exact keeps_execLaneLockAcquired _ _ s (.refl _ s) (sub_self _)
  | domainGoodAgain => exact keeps_execDomainGoodAgain _ s (.refl _ s) (sub_self _)
  | portResumingEnd => exact keeps_execPortResumingEnd _ s (.refl _ s) (sub_self _)
  | psHardResetTimer => exact keeps_execPsHardResetTimer s (.refl _ s) (sub_self _)
  | vbusSafe0vReached => exact keeps_execVbusSafe0vReached s (.refl _ s) (sub_self _)
  | srcRecoverTimer => exact keeps_execSrcRecoverTimer s (.refl _ s) (sub_self _)
  | leapSecond => exact keeps_execLeapSecond s (.refl _ s) (sub_self _)

/-- Settles O6. -/
theorem eachCommandChangesOnlyItsPieces : Obligations.EachCommandChangesOnlyItsPieces := by
  intro c s t f h hf
  have k : Keeps _ s t := exec_keeps c s t h
  exact ⟨k.same f hf, k.part, k.pending, k.clock⟩

theorem keeps_trans {S : Piece → Bool} {a b c : State} (h : Keeps S a b) (k : Keeps S b c) : Keeps S a c :=
  ⟨k.part.trans h.part, k.pending.trans h.pending, k.clock.trans h.clock, h.sent.trans k.sent,
    fun f hf => Piece.same_trans (h.same f hf) (k.same f hf), fun x => k.canon (h.canon x)⟩

/-- Only the release from Reset samples the role (R3). -/
theorem mayChange_head {c : Instr} (h : ∀ a b, c ≠ .resetReleased a b) : (mayChange c).contains .head = false := by
  cases c with
  | resetReleased a b => exact absurd rfl (h a b)
  | _ => rfl

/-- A nanosecond moves the clocks and the frequency word's remainder and nothing else (R10). -/
theorem tick_eq (s : State) : ∃ station time, s.tick = { s with clock := s.clock + 1, station, time } := by
  unfold State.tick
  extract_lets
  split
  · exact ⟨s.station, s.time, rfl⟩
  · exact ⟨_, _, rfl⟩

/-- What is done in a nanosecond that no command fills, beside the clocks. -/
theorem idle_keeps (s : State) : Keeps (fun f => (Piece.allBut [.head, .canNode]).contains f) s.tick s.idle := by
  unfold State.idle
  have w := sub_self (Piece.allBut [.head, .canNode])
  refine keeps_forAll _ _ _ (fun c t h => keeps_State_canDrain _ _ h w.of) ?_
  exact keeps_State_waitsEnd _ (.refl _ _) w

/-- Settles O7: a command keeps what exec_keeps says, an idle nanosecond what idle_keeps says. -/
theorem everyStepKeepsPartOrderAndWhatWasSent : Obligations.EveryStepKeepsPartOrderAndWhatWasSent := by
  intro s t h
  unfold step at h
  cases hp : s.pending with
  | nil =>
    rw [hp] at h
    obtain rfl : s.idle = t := Host.Outcome.next.inj h
    have k := idle_keeps s
    obtain ⟨station, time, e⟩ := tick_eq s
    rw [e] at k
    have hq : s.idle.pending = [] := k.pending.trans hp
    have hc : s.idle.clock = s.clock + 1 := k.clock
    exact ⟨hq, k.part, by omega, k.sent, fun _ => k.same .head rfl⟩
  | cons c rest =>
    rw [hp] at h
    have k : Keeps _ { s with pending := rest } t := exec_keeps c _ t h
    refine ⟨k.pending, k.part, k.clock.ge, k.sent, fun hc => ?_⟩
    exact k.same .head (mayChange_head fun a b e => hc a b (congrArg some e))

theorem forAll_id {α : Type} {f : α → State → State} {l : List α} {s : State} (h : ∀ a ∈ l, f a s = s) :
    forAll f l s = s := by
  induction l with
  | nil => rfl
  | cons a r ih =>
    rw [forAll, h a List.mem_cons_self]
    exact ih fun b hb => h b (List.mem_cons_of_mem _ hb)

/-! Where nothing waits for the hub's own time (State.quiet), an idle nanosecond is the clocks, the undos' end and a
frame from each CAN port. -/

section
variable {s t : State}

theorem quiet_of_same (h : s.quiet) (svc : t.svc = s.svc) (trunks : t.trunks = s.trunks) (stor : t.stor = s.stor)
    (fld : t.fld = s.fld) (secu : t.secu = s.secu) (pd : t.pd = s.pd) : t.quiet := by
  simpa only [State.quiet, State.lateWrites, State.trunk, State.canp, svc, trunks, stor, fld, secu, pd] using h

theorem tick_cmds (s : State) : s.tick.cmds = s.cmds := by
  obtain ⟨_, _, e⟩ := tick_eq s
  rw [e]

theorem tick_quiet (h : s.quiet) : s.tick.quiet := by
  obtain ⟨station, time, e⟩ := tick_eq s
  rw [e]
  exact quiet_of_same h rfl rfl rfl rfl rfl rfl

theorem undosEnd_keeps (s : State) : Keeps (fun f => [.objs, .cmds, .irq, .jour].contains f) s s.undosEnd :=
  keeps_State_undosEnd _ (.refl _ s) (sub_self _)

theorem undosEnd_quiet (h : s.quiet) : s.undosEnd.quiet := by
  have k := undosEnd_keeps s
  exact quiet_of_same h (k.same .svc rfl) (k.same .trunks rfl) (k.same .stor rfl) (k.same .fld rfl) (k.same .secu rfl)
    (k.same .pd rfl)

/-- No undo runs, none ends. -/
theorem undosEnd_none (h : ∀ e, e ∈ s.cmds → e.2.undoing = false) : s.undosEnd = s :=
  forAll_id fun e he => by simp [h e he]

theorem mgmtSettle_quiet (h : s.quiet) : s.mgmtSettle = s := by
  obtain ⟨late, held, -⟩ := h
  have hl : forAll (fun mp s => s.lateRun mp) (upTo 5) s = s :=
    forAll_id fun mp hmp => by simp [State.lateRun, late mp (List.mem_range.mp hmp)]
  simp [State.mgmtSettle, hl, State.releaseHeld, held]

theorem unitsSettle_quiet (h : s.quiet) : s.unitsSettle = s := by
  obtain ⟨-, -, stor, fld, -⟩ := h
  simp [State.unitsSettle, stor, fld, forAll]

theorem uartsSettle_quiet (h : s.quiet) : s.uartsSettle = s := by
  obtain ⟨-, -, -, -, lines, -⟩ := h
  simp [State.uartsSettle, lines, forAll]

theorem vanguriSettle_quiet (h : s.quiet) : s.vanguriSettle = s := by
  obtain ⟨-, -, -, -, -, asks, -⟩ := h
  exact forAll_id fun t _ => by simp [State.vanguriServe, State.asksOf, asks]

theorem crcCame_quiet (h : s.quiet) : s.crcCame = s := by
  obtain ⟨-, -, -, -, -, -, crc, -⟩ := h
  simp [State.crcCame, crc]

theorem waitsEnd_quiet (h : s.quiet) : s.waitsEnd = s.undosEnd := by
  have q := undosEnd_quiet h
  rw [State.waitsEnd, mgmtSettle_quiet q, unitsSettle_quiet q, uartsSettle_quiet q, vanguriSettle_quiet q,
    crcCame_quiet q]

/-- A frame that leaves a CAN port without errors changes no counter (R318). -/
theorem canDrain_keeps (c : Nat) (h : ∀ c, (s.canp c).tec = 0) :
    Keeps (fun f => [.sent, .fld].contains f) s (s.canDrain c) ∧ ∀ c', ((s.canDrain c).canp c').tec = 0 := by
  unfold State.canDrain
  split
  · exact ⟨.refl _ s, h⟩
  · next f r htx =>
    split
    · exact ⟨.refl _ s, h⟩
    · have hu : ∀ c', (((s.updCanp c fun x => { x with tx := r }).send (.can c f)).canp c').tec = 0 := by
        intro c'
        by_cases hc : c' = c
        · subst hc; simpa [State.canp, State.updCanp, State.updFld, State.send] using h c'
        · simpa [State.canp, State.updCanp, State.updFld, State.send, get_put_ne _ _ hc] using h c'
      rw [State.canSpoken, if_pos (hu c)]
      exact ⟨keeps_State_send _ _ (keeps_State_updCanp _ _ _ (.refl _ s) (sub_self _).of) (sub_self _).of, hu⟩

theorem idle_quiet (h : s.quiet) : Keeps (fun f => [.sent, .fld].contains f) s.tick.undosEnd s.idle := by
  have q := tick_quiet h
  obtain ⟨-, -, -, -, -, -, -, tec⟩ := undosEnd_quiet q
  obtain ⟨k0, tec0⟩ := canDrain_keeps 0 tec
  obtain ⟨k1, -⟩ := canDrain_keeps 1 tec0
  rw [State.idle, waitsEnd_quiet q]
  exact keeps_trans k0 k1

end

theorem step_nil {s : State} (h : s.pending = []) : step s = .next s.idle := by
  rw [step, h]

/-- The end of an undo sets the block's Status and no other object (R57). -/
theorem cmdAborted_get (s : State) (i k : Nat) :
    (s.cmdAborted i).get k = if k = ob i 0xF2 then 3 else s.get k := by
  unfold State.cmdAborted
  rw [evAt_get]
  exact get_set s (ob i 0xF2) 3 k

theorem cmdAborted_cmd (s : State) (i : Nat) : ((s.cmdAborted i).cmd i).undoing = false := by
  simp [State.cmdAborted, State.evAt, State.cmd]

theorem undosEnd_one {s : State} {i : Nat} {x : CmdRec} (h : s.cmds = [(i, x)]) (hx : x.undoing = true) :
    s.undosEnd = s.cmdAborted i := by
  simp [State.undosEnd, h, forAll, hx]

/-- Settles O2: idle_quiet leaves the clocks and the undos' end, and tick_eq and cmdAborted_get say what they are. -/
theorem emptyQueueIdlesOneNanosecond : Obligations.EmptyQueueIdlesOneNanosecond := by
  refine ⟨fun s hp => ?_, fun s i x hp hc hx hq => ?_⟩
  · obtain ⟨station, time, e⟩ := tick_eq s
    have k := idle_keeps s
    have u := undosEnd_keeps s.tick
    rw [e] at k u
    refine ⟨s.idle, step_nil hp, k.clock, k.pending.trans hp, k.part, k.same .head rfl, fun hq => ?_,
      fun hq hn => ?_⟩
    · have q := idle_quiet hq
      rw [e] at q
      exact ⟨(q.same .keys rfl).trans (u.same .keys rfl), (q.same .secu rfl).trans (u.same .secu rfl),
        (q.same .dram rfl).trans (u.same .dram rfl)⟩
    · have q := idle_quiet hq
      rw [undosEnd_none (by rwa [tick_cmds]), e] at q
      exact ⟨q.same .objs rfl, q.same .strs rfl, q.same .jour rfl⟩
  · obtain ⟨station, time, e⟩ := tick_eq s
    have q := idle_quiet hq
    rw [undosEnd_one ((tick_cmds s).trans hc) hx, e] at q
    refine ⟨s.idle, step_nil hp, ?_, ?_, ?_⟩
    · rw [q.get rfl rfl, cmdAborted_get, if_pos rfl]
    · have hcmds : s.idle.cmds = _ := q.same .cmds rfl
      rw [State.cmd, hcmds]
      exact cmdAborted_cmd _ i
    · rw [q.get rfl rfl, cmdAborted_get, if_neg (by simp [ob])]
      rfl

end Sys2Proof.Scope
end

section
/-!
SUPPORT. Every command completes (R1, R2): a meaning answers a next state or is guarded by onUnit, onPort or onPath.
-/

set_option Elab.async false

namespace Sys2Proof.Scope

open Sys2Proof Sys2Proof.Machine Sys2Proof.Laws

/-- A meaning answers a next state if the units that its command names are known, and stops by name if they are not. -/
def Answers (known : Bool) (a : Ans) : Prop :=
  (known = true → ∃ t, a = .next t) ∧ (known = false → a = .fault .noSuchUnit)

theorem answers_next {t : State} : Answers true (.next t) := ⟨fun _ => ⟨t, rfl⟩, nofun⟩

theorem answers_fault : Answers false (.fault .noSuchUnit) := ⟨nofun, fun _ => rfl⟩

theorem answers_onUnit {known known' : Bool} {t : State} (h : known' = known) : Answers known (onUnit known' t) := by
  subst h
  cases known'
  · exact answers_fault
  · exact answers_next

theorem answers_onPath {p : Path} {known known' : Bool} {s t : State} (h : known' = known) :
    Answers known (onPath p known' s t) := by
  subst h
  cases known'
  · exact answers_fault
  · exact answers_next

/-- The family has the unit when the QH7-34 has it (R1, R2). -/
theorem answers_onPort {s t : State} {has : Part → Bool} {known : Bool} (h : has s.part.full = known) :
    Answers known (onPort s has t) := by
  unfold onPort
  cases known
  · rw [h]; exact answers_fault
  · rw [h]; exact answers_next

/-! The units of the QH7-34, which has every unit of the family (R1). -/

theorem full_hasFabricPort (p : Part) (fp : Nat) : p.full.hasFabricPort fp = decide (fp < 20) := Bool.and_true _

theorem full_hasBreaker (p : Part) (c : Nat) : p.full.hasBreaker c = decide (c < 10) := Bool.and_true _

theorem full_pathUnit (p : Part) (cause unit : Nat) : p.full.pathUnit cause unit = powerUnit cause unit := by
  rw [Part.pathUnit, full_hasBreaker]
  unfold powerUnit
  by_cases h : cause ≤ 3
  · simp [h, Nat.not_lt.mpr h]
  · simp [Nat.lt_of_not_le h]

section
variable {s t : State} {n m : Nat} {b : Bool}

theorem answers_onQh34 : Answers true (onPort s (fun q => q.qh34) t) := answers_onPort rfl

theorem answers_onTrunk : Answers (decide (n < 4)) (onPort s (fun q => q.hasTrunk n) t) := answers_onPort rfl

theorem answers_onTrunk_and : Answers (decide (n < 4) && b) (onPort s (fun q => q.hasTrunk n && b) t) :=
  answers_onPort rfl

theorem answers_onOutput : Answers (decide (n < 4)) (onPort s (fun q => q.hasOutput n) t) := answers_onPort rfl

theorem answers_onOutput_and : Answers (decide (n < 4) && b) (onPort s (fun q => q.hasOutput n && b) t) :=
  answers_onPort rfl

theorem answers_onDisplayPort : Answers (decide (n < 2)) (onPort s (fun q => q.hasOutput n && decide (n < 2)) t) := by
  refine answers_onPort ?_
  simp only [Part.hasOutput, Part.full, if_true, ← Bool.decide_and, decide_eq_decide]
  omega

theorem answers_onLayer : Answers (decide (n < 16)) (onPort s (fun q => decide (n < 16) && q.hasOutput (n / 4)) t) := by
  refine answers_onPort ?_
  simp only [Part.hasOutput, Part.full, if_true, ← Bool.decide_and, decide_eq_decide]
  omega

theorem answers_onEth : Answers (decide (n < 8)) (onPort s (fun q => q.hasEth n) t) := answers_onPort rfl

theorem answers_onPcie : Answers (decide (n < 2)) (onPort s (fun q => q.hasPcie n) t) := answers_onPort rfl

theorem answers_onUsb : Answers (decide (n < 8)) (onPort s (fun q => q.hasUsb n) t) := answers_onPort rfl

theorem answers_onUart : Answers (decide (n < 4)) (onPort s (fun q => q.hasUart n) t) := answers_onPort rfl

theorem answers_onQueue :
    Answers (decide (n < 20) && b) (onPort s (fun q => q.hasFabricPort n && b) t) :=
  answers_onPort (by rw [full_hasFabricPort])

theorem answers_onBreaker : Answers (decide (n < 10)) (onPort s (fun q => q.hasBreaker n) t) :=
  answers_onPort (full_hasBreaker _ _)

theorem answers_onMgmtPath : Answers (decide (n < 5)) (onPort s (fun q => decide (n = 4) || q.hasTrunk n) t) := by
  refine answers_onPort ?_
  have h : s.part.full.hasTrunk n = decide (n < 4) := rfl
  simp only [h, ← Bool.decide_or, decide_eq_decide]
  omega

theorem answers_onPathUnit : Answers (b && powerUnit n m) (onPort s (fun q => b && q.pathUnit n m) t) :=
  answers_onPort (by rw [full_pathUnit])

end

/-- Every meaning answers a next state, but for a command whose numbers name no unit of the family (R1, R2). -/
theorem exec_answers (c : Instr) (s : State) : Answers c.wellFormed (exec c s) := by
  cases c with
  | resetAsserted | resetReleased | ilkaiDeclaredStarted | bootWatchdogExpired | setupTransitionComplete
  | d2dFrameReceived | d2dLinkTimeout | domainPowerUpStagger | sdoInitiateDownload | sdoDownloadSegment
  | sdoInitiateUpload | sdoUploadSegment | sdoBlockDownloadSegment | sdoBlockDownloadEnd | sdoBlockUploadRequest
  | sdoAbortReceived | sdoTimeout | syncReceived | heartbeatTimer | nmtStartRemoteNode | nmtEnterPreOperational
  | nmtStopRemoteNode | nmtResetCommunication | nmtResetNode | microframeStart | resumeKEnd | clearHubChange
  | hubGetStatus | hubGetDescriptor | hubSetAddress | hubSetConfiguration | hubSetInterface | hubSetRemoteWakeup
  | hubClearRemoteWakeup | svcDeviceAttach | svcDeviceDetach | svcBusReset | svcSetupReceived | svcStatusStageComplete
  | svcSetAddress | svcSetConfiguration | svcSetInterface | svcSuspendDetected | svcHostResume | typecAttach
  | typecDetach | drpToggleTimer | trySnkTimeout | errorRecoveryEnd | raDetected | pdSourceCapabilities | pdRequest
  | pdAccept | pdReject | pdWait | pdPsRdy | pdGetSourceCap | pdGetSinkCap | pdDrSwap | pdVconnSwap | pdSoftReset
  | pdHardReset | pdDiscoverIdentity | pdPrSwap | pdExtendedMessage | pdBist | pdGoodcrcTimeout | firstSourceCapTimer
  | sourceCapRepeat | srcTransitionExpired | vbusSettled | psTransitionSrcTimeout | psTransitionTimeout
  | senderResponseTimeout | sinkRequestRetry | svcVbusOvervoltage | svcCcOvervoltage | vconnOvercurrent | ppsInEdge
  | ppsOutSecond | ppsOutWidthEnd | timeSourceLost | holdoverLimitExpired | sf3Fault | rateLimitPeriodEnd
  | completionTimeout | trngHealthFailure | vorBelowMinimum | holdupCheck | inletDebounceComplete | inletOvervoltage
  | powerFailWarning | inletRestart | pd0ColdStart | railGroupEnable | railGroupGood | railGroupTimeout
  | appLoadComplete | busUnmappedAccess | gwGoRead | gwGoWrite | gatewayDone | jpEntryRead | jpWrite | dbSet | dbClear
  | hostMsgTake | appMsgSend | stimeLatchRead | wdogKick | watchdogExpiry | ci2ClockStop | ci2ClockRestart
  | shadowCheck | safePulsePermission | safePulsePermissionTimeout | sentinelReport | planInstant | dramPatrolScrub
  | bufferPatrolScrub | mramScrub | sensorCalibration | telemetrySample | telemetryLogRecord | liftDfuAbort
  | liftDfuGetstatus | liftDfuClrstatus | liftDfuGetstate | dfuDetach | stagingDfuDnload | stagingDfuDnloadEnd
  | imageActivationDone | fwResetDelayExpired | configBackupWrite | psHardResetTimer | vbusSafe0vReached
  | srcRecoverTimer | leapSecond =>
    exact answers_next
  | islandWatchdogExpired | rpdoReceived | tpdoEventTimer | tpdoInhibitEnd | functionSwitchComplete
  | negotiationRepeat | closeReceived | closeSend | drainBoundExpired | keyReadyReceived | keyReadyRepeat
  | oldKeyAcceptExpired | twinLagTimeout | l2EntryAged | displayCellReceived | usbRequestUnit | busCommandReset
  | busCommandSuspend | busCommandResume | relayDownProducerWrite | relayUpConsumerWrite | relayUnitFromTunnel
  | svcSetEndpointHalt | svcClearEndpointHalt | svcOutPacket | svcInToken | storageUnitReceived | windowUnitReceived
  | windowCompletionReceived | lockRefusedReceived | prefetchLifeExpired | canFrameReceived | canBusOff
  | canBusOffRecovery | fieldUnitReceived | mapPeriodTimer | staleTimeExpired | canTxCycleTimer | canTxInhibitEnd
  | gooseRepeatTimer | gooseTalExpired | tamperAlarm | feedStateChange | feedReverseCurrent | railFault
  | endpointDescriptorWrite | tmrArm | timerExpiry | nClaim | nComplete | fClaim | fComplete | normalInterruptEntry
  | fastInterruptEntry | lockstepMismatch | tunnelSilent | marginPinnedRepeat | sramScrub | ddrCalibration
  | backgroundTaskBehind | norLogWrite | liftDfuDnload | liftDfuDnloadEnd | domainGoodAgain =>
    exact answers_onUnit rfl
  | domainSupplyFail =>
    exact answers_onUnit (Bool.decide_and _ _)
  | stateRequestSetup | stateRequestRun | stateRequestMaintain | domainEnableWrite | sessionRequest
  | sessionEndRequest | sessionResponse | challengeExpired | sessionIdleTimeout | sessionAgeTimeout
  | sessionLimitWrite | lockoutEnd | violationsClear | storeConfiguration | restoreDefaults | commandAbort
  | functionModeWrite | trunkEnableWrite | trunkRetrain | trunkClearCounters | eyeApplyLane | eyeFinishEqualise
  | tunnelEnable | tunnelDisable | tunnelRecordWrite | tunnelDrain | tunnelClearCounters | keySlotNextWrite
  | l2ReadMatch | l2ReadSlot | l2WriteEntry | l2DeleteEntry | l2FlushLearnt | fabricClearCounters | gateTableSwitch
  | outputEnable | outputDisable | outputClearCounters | integrityClear | expectedSignatureWrite | usbPortPowerOn
  | usbPortPowerOff | usbPortReset | usbPortSuspend | usbPortResume | usbPortTestMode | usbHubClearCounters
  | svcRemoteWake | svcDeviceEnableWrite | pdCmdDrSwap | pdCmdVconnSwap | pdCmdHardReset | pdCmdSendSourceCap
  | pdCmdRequest | pdoWrite | ethPortClearCounters | timeSourceWrite | timeStep | timeSet | timeSlew
  | hostFrequencyWrite | journalClear | journalEntryRead | remoteEntryRead | windowUnfence | windowClearCounters
  | storageFlush | pcieClearCounters | canLeaveBusOff | signalValueWrite | keyDerive | keyAgree | keyImport
  | keyInvalidate | enterOperational | decommission | enrolCustomerKeyHash | tamperClear | vanguriSign
  | retryCountWrite | breakerReset | breakerRetryNow | breakerClearCounters | powerEntryClearCounters | appEnableWrite
  | appStart | appHalt | appRestart | appClearCounters | doorbellRing | appMailboxPost | safetyClearLatches
  | shadowReload | marginApprove | marginPlanNow | marginEnvelopeWrite | backgroundTaskEnableWrite | imageStage
  | imageActivate | imageDiscard | fwConfirmSlot | fwAdvanceRollback | fwRaiseAppFloor | fwReset | orphanDiscard =>
    exact answers_onPath rfl
  | odWrite =>
    exact answers_onPath (Bool.decide_and _ _)
  | codewordGroupReceived | markerTimeout | trainingFrameReceived | trunkSignalDetect | laneSyncTimeout
  | identifyTimeout | capabilitiesTimeout | rateSwitchDelayExpired | rateChangeLockTimeout
  | equaliseAdaptationComplete | equaliseTimeout | verifyWindowEnd | heldRetryExpired | eyeWaitRepeat
  | retrainRequestSend | retrainWaitTimeout | controlCellReceived | cellReceived | holdBoundExpired | schedCycleStart
  | schedCellTime | schedVersionMismatch | carveEpoch | timeStatusMessageSend | timeStatusMessageReceived
  | journalPushCellReceived | journalAckReceived | journalPushRetransmit | vanguriRequest | cryptoSelftest =>
    exact answers_onTrunk
  | frontPorchLineEnd | activeAreaEnd =>
    exact answers_onOutput
  | ethFrameReceived | ethLinkUp | ethLinkDown | pauseFrameReceived | lifeCheckTimer | supervisionTimeout
  | nodeForgetTimeout | ptpSyncReceived | ptpFollowUpReceived | ptpAnnounceReceived | ptpPdelayReqReceived
  | ptpPdelayRespReceived | ptpSyncTimer | ptpPdelayTimer | announceReceiptTimeout =>
    exact answers_onEth
  | pcieLinkUp | pcieLinkDown | driveReady | driveInitTimeout | nvmeSqDoorbell | nvmeRead | nvmeWrite | nvmeFlush
  | nvmeWriteZeroes | nvmeIdentify | nvmeCreateIoQueue | nvmeDeleteIoQueue | nvmeGetLogPage | nvmeGetFeatures
  | nvmeSetFeatures | nvmeAbort | nvmeAsyncEventRequest | nvmeInvalidOpcode | driveCompletion | windowWriteRequest
  | windowReadRequest | mrdlkRequest | unlockMessage | busMasterDisable | rootPortDeviceRequest =>
    exact answers_onPcie
  | usbTransactionStart | usbTransactionEnd | nakRetryExpired | dspDeviceAttach | dspDeviceDetach
  | deviceChirpDetected | portResetEnd | dspDeviceK | setPortPower | clearPortPower | setPortReset | setPortSuspend
  | clearPortSuspend | clearPortEnable | setPortTest | clearPortChange | getPortStatus | clearTtBuffer | resetTt
  | portResumingEnd =>
    exact answers_onUsb
  | uartUnitClose | uartUnitTransmit =>
    exact answers_onUart
  | laneSignalLost | offerReceived | serdesSweep | pcsBlockReceived | laneLockAcquired =>
    exact answers_onTrunk_and
  | lvdsClockStable | signatureCompletion | freezeTimeExpired =>
    exact answers_onOutput_and
  | irigFrameReceived =>
    exact answers_onQh34
  | hpdAsserted | hpdDeasserted | hpdLowTimeout | irqHpd | dpLinkTrainingDone =>
    exact answers_onDisplayPort
  | layerUnderrun =>
    exact answers_onLayer
  | fabricCellArrival | egressSerialise | redAverageIdleUpdate | stallBoundExpired | openUnitTimeout =>
    exact answers_onQueue
  | breakerOnRequest | breakerRequestWithdrawn | breakerFullEnhancement | breakerRampTimeout | breakerCurveTrip
  | breakerFastTrip | breakerThermalTrip | breakerReverseCurrent | breakerRetryTimer | retryResetTimeExpired
  | fetSensorFault =>
    exact answers_onBreaker
  | mgmtReadRequest | mgmtWriteRequest =>
    exact answers_onMgmtPath
  | sf4PowerPathFault =>
    exact answers_onPathUnit

/-- Settles O8: each meaning is a next state or guarded by onUnit, onPort or onPath, whose guard is the command's
well-formedness. -/
theorem everyCommandCompletesOrNamesAMissingUnit : Obligations.EveryCommandCompletesOrNamesAMissingUnit :=
  exec_answers

end Sys2Proof.Scope
end

section
/-!
SUPPORT. No path reaches the dictionary in Reset, Boot and Lift (R6, R33).
-/

set_option Elab.async false

namespace Sys2Proof.Scope

open Sys2Proof Sys2Proof.Machine Sys2Proof.Laws

/-! In Reset, Boot and Lift no path reaches the dictionary (R6): each meaning of an access is a guarded write, command
or read that the engine does not hear. -/

/-- A meaning that leaves the state as it is, or stops by name. -/
def Deaf (s : State) (a : Ans) : Prop := a = .next s ∨ a = .fault .noSuchUnit

section
variable {s : State} (hr : s.reach = false)
include hr

theorem write_unreached {p : Path} {i sub : Nat} {data : Bytes} {more : List Nat} {eff : State → State} :
    s.write p i sub data more eff = s := by
  simp [State.write, hr]

theorem command_unreached {p : Path} {i v : Nat} {states known more : List Nat} {eff : State → State} :
    s.command p i v states known more eff = s :=
  writeNum_unreached s hr

theorem commandNow_unreached {p : Path} {i v r : Nat} {states known more : List Nat} {eff : State → State} :
    s.commandNow p i v states known more r eff = s :=
  command_unreached hr

theorem rawPort_unreached {p : Path} {u c v : Nat} {states : List Nat} {eff : State → State} :
    s.rawPort p u c v states eff = s :=
  command_unreached hr

theorem pdCommand_unreached {p : Path} {c v : Nat} {bad : List Nat} {eff : State → State} :
    s.pdCommand p c v bad eff = s :=
  command_unreached hr

theorem makeKey_unreached {p : Path} {c : Nat} {cut : Bool} : s.makeKey p c cut = s := by
  unfold State.makeKey
  exact command_unreached hr

theorem askState_unreached {p : Path} {v : Nat} : s.askState p v = s :=
  writeNum_unreached s hr

theorem writeStore_unreached {p : Path} {area v : Nat} : s.writeStore p area v = s :=
  writeNum_unreached s hr

theorem writeRestore_unreached {p : Path} {area v : Nat} : s.writeRestore p area v = s :=
  writeNum_unreached s hr

theorem writeAbort_unreached {p : Path} {i v : Nat} : s.writeAbort p i v = s :=
  writeNum_unreached s hr

end

section
variable {s t : State} {p : Path} {known : Bool}

theorem deaf_onPath (h : t = s) : Deaf s (onPath p known s t) := by
  subst h
  cases known
  · exact .inr rfl
  · exact .inl (congrArg _ (ite_self t))

theorem after_deaf {a : Ans} (h : Deaf s a) : s.after a = s := by
  rcases h with rfl | rfl <;> rfl

theorem budgetCount_false {kind : Option Nat} : s.budgetCount false kind = s := rfl

/-- A request that changes nothing leaves the state as it is to the write that stands for it. -/
theorem after_onPath : s.after (onPath p known s s) = s := after_deaf (deaf_onPath rfl)

end

section
variable {s : State} (hr : s.reach = false)
include hr

theorem writeMode_unreached {p : Path} {fn v : Nat} : s.writeMode p fn v = s := by
  simp only [State.writeMode, writeNum_unreached s hr, hr, Bool.false_and, budgetCount_false]

theorem plainWrite_unreached {p : Path} {i sub : Nat} {r : ObjRow} {data : Bytes} :
    s.plainWrite p i sub r data = s := by
  simp only [State.plainWrite, write_unreached hr, hr, Bool.false_and, budgetCount_false]

theorem noCommand_unreached {p : Path} {i v : Nat} {states more : List Nat} : s.noCommand p i v states more = s :=
  command_unreached hr

theorem linkCommand_unreached {p : Path} {i v : Nat} : s.linkCommand p i v = s := by
  simp only [State.linkCommand,
    execEyeApplyLane, execEyeFinishEqualise, execTrunkRetrain, execTrunkClearCounters, execFabricClearCounters,
    execL2ReadMatch, execL2ReadSlot, execL2WriteEntry, execL2DeleteEntry, execL2FlushLearnt, execGateTableSwitch,
    execOutputClearCounters, execIntegrityClear,
    command_unreached hr, commandNow_unreached hr, noCommand_unreached hr, after_onPath, ite_self]
  repeat' split
  all_goals rfl

theorem portCommand_unreached {p : Path} {i v : Nat} : s.portCommand p i v = s := by
  simp only [State.portCommand,
    execUsbHubClearCounters, execUsbPortTestMode, execUsbPortPowerOn, execUsbPortPowerOff, execUsbPortReset,
    execUsbPortSuspend, execUsbPortResume, execSvcRemoteWake, execPdCmdDrSwap, execPdCmdVconnSwap, execPdCmdHardReset,
    execPdCmdSendSourceCap, execPdCmdRequest, execEthPortClearCounters, execStorageFlush, execPcieClearCounters,
    execWindowUnfence, execWindowClearCounters, execCanLeaveBusOff, execTimeStep, execTimeSet, execTimeSlew,
    execJournalClear,
    command_unreached hr, commandNow_unreached hr, noCommand_unreached hr, rawPort_unreached hr, pdCommand_unreached hr,
    after_onPath, ite_self]

theorem keyCommand_unreached {p : Path} {i v : Nat} : s.keyCommand p i v = s := by
  simp only [State.keyCommand,
    execTunnelDrain, execTunnelClearCounters, execEnterOperational, execDecommission, execEnrolCustomerKeyHash,
    execKeyDerive, execKeyAgree, execKeyImport, execKeyInvalidate, execTamperClear, execVanguriSign,
    execPowerEntryClearCounters, execBreakerReset, execBreakerRetryNow, execBreakerClearCounters,
    command_unreached hr, commandNow_unreached hr, noCommand_unreached hr, makeKey_unreached hr, after_onPath, ite_self]

theorem systemCommand_unreached {p : Path} {i v : Nat} : s.systemCommand p i v = s := by
  simp only [State.systemCommand,
    execMarginApprove, execMarginPlanNow, execSafetyClearLatches, execShadowReload, execAppStart, execAppHalt,
    execAppRestart, execAppClearCounters, execAppMailboxPost, execFwConfirmSlot, execFwAdvanceRollback,
    execFwRaiseAppFloor, execFwReset, execImageStage, execImageActivate, execImageDiscard, execOrphanDiscard,
    command_unreached hr, commandNow_unreached hr, noCommand_unreached hr, after_onPath, ite_self]

theorem commandWrite_unreached {p : Path} {i v : Nat} : s.commandWrite p i v = s := by
  simp only [State.commandWrite, noCommand_unreached hr, linkCommand_unreached hr, portCommand_unreached hr,
    keyCommand_unreached hr, systemCommand_unreached hr, ite_self]

theorem lowWrite_unreached {p : Path} {tk i sub : Nat} {r : ObjRow} {data : Bytes} :
    s.lowWrite p tk i sub r data = s := by
  simp only [State.lowWrite,
    execSessionEndRequest, execSessionRequest, execSessionResponse, execSessionLimitWrite, execViolationsClear,
    execDomainEnableWrite, execTrunkEnableWrite, execOutputEnable, execOutputDisable, execExpectedSignatureWrite,
    write_unreached hr, writeNum_unreached s hr, writeStore_unreached hr, writeRestore_unreached hr,
    askState_unreached hr, writeMode_unreached hr, plainWrite_unreached hr, hr, Bool.false_and, budgetCount_false,
    after_onPath, ite_self]

theorem highWrite_unreached {p : Path} {i sub : Nat} {r : ObjRow} {data : Bytes} : s.highWrite p i sub r data = s := by
  simp only [State.highWrite,
    execSvcDeviceEnableWrite, execPdoWrite, execTimeSourceWrite, execHostFrequencyWrite, execTunnelEnable,
    execTunnelDisable, execKeySlotNextWrite, execTunnelRecordWrite, execRetryCountWrite, execMarginEnvelopeWrite,
    execBackgroundTaskEnableWrite, execAppEnableWrite, execDoorbellRing, execSignalValueWrite,
    plainWrite_unreached hr, writeNum_unreached s hr, after_onPath, ite_self]

theorem odWrite_unreached {p : Path} {tk i sub : Nat} {data : Bytes} : s.odWrite p tk i sub data = s := by
  unfold State.odWrite
  split
  · exact write_unreached hr
  · simp only [write_unreached hr, commandWrite_unreached hr, writeAbort_unreached hr, lowWrite_unreached hr,
      highWrite_unreached hr, ite_self]

end

theorem exec_deaf {c : Instr} {s : State} (hv : viaPath c = true) (hr : s.reach = false) :
    Deaf s (exec c s) := by
  unfold exec
  cases c with
  | sessionResponse =>
    exact deaf_onPath (write_unreached hr)
  | domainEnableWrite | sessionRequest | sessionEndRequest | sessionLimitWrite | violationsClear | trunkEnableWrite
  | tunnelEnable | tunnelDisable | tunnelRecordWrite | keySlotNextWrite | outputDisable | expectedSignatureWrite
  | svcDeviceEnableWrite | timeSourceWrite | hostFrequencyWrite | signalValueWrite | retryCountWrite | appEnableWrite
  | doorbellRing | marginEnvelopeWrite | backgroundTaskEnableWrite =>
    exact deaf_onPath (writeNum_unreached s hr)
  | trunkRetrain | eyeApplyLane | eyeFinishEqualise | tunnelDrain | l2ReadMatch | l2WriteEntry | l2DeleteEntry
  | gateTableSwitch | svcRemoteWake | timeStep | timeSet | timeSlew | storageFlush | keyInvalidate | enterOperational
  | decommission | vanguriSign | breakerRetryNow | appHalt | appRestart | appMailboxPost | safetyClearLatches
  | marginPlanNow | imageStage | imageActivate | fwAdvanceRollback =>
    exact deaf_onPath (command_unreached hr)
  | trunkClearCounters | tunnelClearCounters | l2ReadSlot | l2FlushLearnt | fabricClearCounters | outputClearCounters
  | integrityClear | usbHubClearCounters | ethPortClearCounters | journalClear | windowUnfence | windowClearCounters
  | pcieClearCounters | canLeaveBusOff | enrolCustomerKeyHash | tamperClear | breakerReset | breakerClearCounters
  | powerEntryClearCounters | appStart | appClearCounters | shadowReload | marginApprove | imageDiscard
  | fwConfirmSlot | fwRaiseAppFloor | fwReset | orphanDiscard =>
    exact deaf_onPath (commandNow_unreached hr)
  | usbPortPowerOn | usbPortPowerOff | usbPortReset | usbPortSuspend | usbPortResume | usbPortTestMode =>
    exact deaf_onPath (rawPort_unreached hr)
  | pdCmdDrSwap | pdCmdVconnSwap | pdCmdHardReset | pdCmdSendSourceCap | pdCmdRequest =>
    exact deaf_onPath (pdCommand_unreached hr)
  | keyDerive | keyAgree | keyImport =>
    exact deaf_onPath (makeKey_unreached hr)
  | stateRequestSetup | stateRequestRun | stateRequestMaintain =>
    exact deaf_onPath (askState_unreached hr)
  | storeConfiguration =>
    exact deaf_onPath (writeStore_unreached hr)
  | restoreDefaults =>
    exact deaf_onPath (writeRestore_unreached hr)
  | commandAbort =>
    exact deaf_onPath (writeAbort_unreached hr)
  | functionModeWrite =>
    exact deaf_onPath (writeMode_unreached hr)
  | odWrite =>
    exact deaf_onPath (odWrite_unreached hr)
  | outputEnable =>
    exact deaf_onPath (by simp only [writeNum_unreached s hr, hr, Bool.false_and, budgetCount_false])
  | pdoWrite =>
    exact deaf_onPath (by simp only [writeNum_unreached s hr, ite_self])
  | journalEntryRead | remoteEntryRead =>
    exact deaf_onPath (by simp [hr])
  | _ => cases hv

theorem reach_of_dev {s : State} (h : s.dev < 3) : s.reach = false := decide_eq_false (by omega)

/-- Settles O12: an access on a path whose hub is not reached is deaf, and a well-formed one does not stop. -/
theorem noPathReachesTheDictionaryBeforeSetup : Obligations.NoPathReachesTheDictionaryBeforeSetup := by
  refine ⟨fun c s hv hw hd => ?_, fun s p i sub data more eff hd => write_unreached (reach_of_dev hd)⟩
  obtain h | h := exec_deaf hv (reach_of_dev hd)
  · exact h
  · obtain ⟨t, ht⟩ := (exec_answers c s).1 hw
    rw [ht] at h
    cases h

end Sys2Proof.Scope
end

section
/-!
SUPPORT. The hub right after reset (R6, R52).
-/

set_option Elab.async false

namespace Sys2Proof.Scope

open Sys2Proof Sys2Proof.Machine Sys2Proof.Laws

/-- An object that is not listed reads its default (R52). -/
theorem get_unlisted {s : State} {k : Nat} (h : Sparse.find k s.objs = none) :
    s.get k = objDefault s.part s.head k := by
  rw [State.get, Sparse.get, h, Option.getD_none]

theorem dev_of_unlisted {s : State} (h : Sparse.find (ob 0x2000 1) s.objs = none) : s.dev = devReset :=
  get_unlisted h

/-- Settles O3: nothing is listed in any store of the state after reset. -/
theorem hubAfterReset : Obligations.HubAfterReset := by
  have hd : State.reset.dev = devReset := dev_of_unlisted rfl
  exact ⟨hd, reach_of_dev (hd ▸ by decide), rfl, rfl, fun k => get_unlisted rfl, rfl, fun p => rfl, rfl, rfl, rfl,
    rfl, fun a => rfl, rfl⟩

end Sys2Proof.Scope
end

section
/-!
SUPPORT. StateRequest and the transitions between device states (R6-R8, R444, R452).
-/

set_option Elab.async false

namespace Sys2Proof.Scope

open Sys2Proof Sys2Proof.Machine Sys2Proof.Laws

/-! How the engine judges a state request (R7, R8, R37). -/

section
variable {s : State} {p : Path} {v : Nat}

theorem flag_iff {k : Nat} : s.flag k = true ↔ s.get k = 1 := decide_eq_true_iff

theorem flag_of_zero {k : Nat} (h : s.get k = 0) : s.flag k = false := decide_eq_false (by omega)

@[simp] theorem touch_flag (k : Nat) : (s.touch p).flag k = s.flag k := by
  rw [State.flag, State.flag, touch_get]

@[simp] theorem touch_dev : (s.touch p).dev = s.dev := touch_get s p _

/-- Where the object's own row refuses nothing, a kind that the family adds is the violation (R37). -/
theorem judgeWrite_added {i sub k : Nat} {data : Bytes} (h : s.judgeWrite p i sub data [] = none) :
    s.judgeWrite p i sub data [k] = some k := by
  unfold State.judgeWrite at *
  cases hr : rowAt i sub with
  | none => simp [hr] at h
  | some r =>
    simp only [hr, lowest_none, List.append_nil] at h
    simp only [h, List.nil_append]
    rfl

/-- A request made during a transition is held (R8). -/
theorem askState_held (h : s.allows p 0x2000 2 v) (hb : s.get (ob 0x2000 4) = 1) :
    s.askState p v = { s.touch p with stateHeld := (s.touch p).stateHeld ++ [(v, p, s.station)] } := by
  have hf : s.flag (ob 0x2000 4) = true := flag_iff.2 hb
  rw [State.askState, writeNum_done s h (by simp [hf, kindIf])]
  simp only [touch_flag, hf, if_true, touch_station]

/-- A transition that R7 lists begins. -/
theorem askState_goes (h : s.allows p 0x2000 2 v) (hb : s.flag (ob 0x2000 4) = false) (hg : s.mayGo v = true) :
    s.askState p v = (s.touch p).goState v := by
  rw [State.askState, writeNum_done s h (by simp [hg, kindIf])]
  simp only [touch_flag, hb, Bool.false_eq_true, if_false]

/-- One that it does not list is of kind 6 (R8). -/
theorem askState_refused (h : s.allows p 0x2000 2 v) (hb : s.get (ob 0x2000 4) = 0) (hg : s.mayGo v = false) :
    s.askState p v = (s.touch p).violate p 0x2000 2 6 := by
  have hk : kindIf (!s.flag (ob 0x2000 4) && !s.mayGo v) 6 = [6] := by simp [flag_of_zero hb, hg, kindIf]
  rw [State.askState, hk]
  exact writeNum_refused s (allows_reach s h) (judgeWrite_added (allows_kinds s h))

/-! The transitions that R7 lists, from each state. -/

theorem mayGo_setup (h : s.dev = devSetup) : s.mayGo v = decide (v = devRun) := by
  simp [State.mayGo, h, devSetup, devRun, devMaintain]

theorem mayGo_run (h : s.dev = devRun) : s.mayGo v = (decide (v = devSetup) || decide (v = devMaintain)) := by
  simp [State.mayGo, h, devSetup, devRun, devMaintain]

theorem mayGo_maintain (h : s.dev = devMaintain) : s.mayGo v = (decide (v = devRun) || decide (v = devSetup)) := by
  simp [State.mayGo, h, devSetup, devRun, devMaintain]

theorem mayGo_toRun (h : s.dev = devSetup ∨ s.dev = devMaintain) : s.mayGo devRun = true := by
  rcases h with h | h
  · exact mayGo_setup h
  · exact mayGo_maintain h

theorem mayGo_toSetup (h : s.dev = devRun ∨ s.dev = devMaintain) : s.mayGo devSetup = true := by
  rcases h with h | h
  · exact mayGo_run h
  · exact mayGo_maintain h

theorem goState_run : s.goState devRun = s.enterRun := if_pos rfl

theorem goState_maintain : s.goState devMaintain = s.enterState devMaintain := by
  rw [State.goState, if_neg (by decide), if_pos rfl]

/-- On the way to Setup the live tunnels drain (R7). -/
theorem goState_setup : s.goState devSetup = (forAll (fun (n : Nat) s => s.shut n 3)
    (s.set (ob 0x2000 4) 1).liveTunnels (s.set (ob 0x2000 4) 1)).settle := by
  rw [State.goState, if_neg (by decide), if_neg (by decide)]

/-! What the entries of an access and of a state change leave of the objects. -/

/-- A violation writes objects of 0x1F80 (R41, R42). -/
theorem violateAt_get {time i sub kind k : Nat} (hk : kind < 200) (h : k / 256 ≠ 0x1F80) :
    (s.violateAt time p i sub kind).get k = s.get k := by
  have hc : p.code < 4 := by cases p <;> simp [Path.code]
  have hne : ∀ x, x < 256 → k ≠ ob 0x1F80 x := by
    rintro x hx rfl
    exact h (by unfold ob; omega)
  unfold State.violateAt State.countSat
  rw [evAt_get, get_setAll_ne, get_set_ne _ _ (hne _ (by omega)), get_set_ne _ _ (hne _ (by omega)),
    get_set_ne _ _ (hne _ (by omega))]
  simp only [List.forall_mem_cons, List.not_mem_nil, false_implies, implies_true, and_true]
  exact ⟨hne _ (by omega), hne _ (by omega), hne _ (by omega), hne _ (by omega)⟩

theorem violate_dev {i sub : Nat} : ((s.touch p).violate p i sub 6).dev = s.dev :=
  (violateAt_get (by decide) (by decide)).trans touch_dev

/-- SAFE_PULSE's level is the one object that it sets (R411). -/
theorem pulse_get {k : Nat} (h : k ≠ ob 0x4400 4) : s.pulse.get k = s.get k := by
  unfold State.pulse
  split
  · split
    · rfl
    · exact (ev_get ..).trans (get_set_ne s 1 h)
  · split
    · rfl
    · exact (ev_get ..).trans (get_set_ne s 0 h)

theorem enterState_get {k new : Nat} (h : k ≠ ob 0x4400 4) :
    (s.enterState new).get k = if k = ob 0x2000 1 then new else s.get k := by
  rw [State.enterState, pulse_get h, raise_get, get_set]

theorem enterState_dev {new : Nat} : (s.enterState new).dev = new :=
  (enterState_get (by decide)).trans (if_pos rfl)

@[simp] theorem enterState_stateHeld {new : Nat} : (s.enterState new).stateHeld = s.stateHeld := by
  simp [State.enterState]

end

/-! The device states (R7, R8). -/

section
variable {s : State} {p : Path}

theorem exec_stateRequestSetup (h : p.ok = true) : exec (.stateRequestSetup p) s = .next (s.askState p devSetup) :=
  onPath_ok s rfl h

theorem exec_stateRequestRun (h : p.ok = true) : exec (.stateRequestRun p) s = .next (s.askState p devRun) :=
  onPath_ok s rfl h

theorem exec_stateRequestMaintain (h : p.ok = true) :
    exec (.stateRequestMaintain p) s = .next (s.askState p devMaintain) :=
  onPath_ok s rfl h

theorem exec_setupTransitionComplete (hb : s.get (ob 0x2000 4) = 1) (hl : s.liveTunnels = []) :
    exec .setupTransitionComplete s =
      .next (((s.set (ob 0x2000 4) 0).enterState devSetup).heldRequests s.stateHeld.length) := by
  show execSetupTransitionComplete s = _
  rw [execSetupTransitionComplete, if_pos ⟨flag_iff.2 hb, hl⟩]
  dsimp only
  rw [enterState_stateHeld, set_stateHeld]

/-- Holding a request is no change of state. -/
theorem held_dev {l : List (Nat × Path × Nat)} : ({ s with stateHeld := l } : State).dev = s.dev := rfl

/-- The oldest held request is judged in Setup, where R7 lists Run alone (R8). -/
theorem heldRequests_setup {v time : Nat} (hd : s.dev = devSetup) (hb : s.get (ob 0x2000 4) = 0)
    (hh : s.stateHeld = [(v, p, time)]) :
    s.heldRequests 1 = if v = devRun then ({ s with stateHeld := [] } : State).enterRun
      else ({ s with stateHeld := [] } : State).violateAt time p 0x2000 2 6 := by
  have hg : ({ s with stateHeld := [] } : State).mayGo v = decide (v = devRun) := mayGo_setup (held_dev.trans hd)
  simp only [State.heldRequests, hh, flag_of_zero hb, Bool.false_eq_true, if_false, hg, decide_eq_true_eq]
  split
  · next hv => rw [hv, goState_run]
  · rfl

end

/-- Settles O10: a request is refused, held or judged in Setup as askState_refused, askState_held and heldRequests_setup
say. -/
theorem refusedStateRequestsAndTransitions : Obligations.RefusedStateRequestsAndTransitions := by
  refine ⟨?_, ?_, ?_, ?_, ?_, ?_, ?_⟩
  · intro s p ha hb hd
    exact ⟨by rw [exec_stateRequestSetup (allows_ok s ha), askState_refused ha hb (mayGo_setup hd)], violate_dev⟩
  · intro s p ha hb hd
    exact ⟨by rw [exec_stateRequestRun (allows_ok s ha), askState_refused ha hb (mayGo_run hd)], violate_dev⟩
  · intro s p ha hb hd
    have hg : s.mayGo devMaintain = false := hd.elim (fun h => mayGo_setup h) fun h => mayGo_maintain h
    exact ⟨by rw [exec_stateRequestMaintain (allows_ok s ha), askState_refused ha hb hg], violate_dev⟩
  · intro s p ha hb
    rw [exec_stateRequestMaintain (allows_ok s ha), askState_held ha hb]
  · intro s p ha hb
    rw [exec_stateRequestRun (allows_ok s ha), askState_held ha hb]
  · intro s p ha hb
    rw [exec_stateRequestSetup (allows_ok s ha), askState_held ha hb]
  · rintro s y p v time hb hl hh rfl
    have hb' : ((s.set (ob 0x2000 4) 0).enterState devSetup).get (ob 0x2000 4) = 0 :=
      (enterState_get (by decide)).trans (get_set_same s _ _)
    have hd : ((s.set (ob 0x2000 4) 0).enterState devSetup).dev = devSetup := enterState_dev
    refine ⟨held_dev.trans hd, ?_⟩
    rw [exec_setupTransitionComplete hb hl, hh]
    exact congrArg _ (heldRequests_setup hd hb' (enterState_stateHeld.trans hh))

/-- Settles O19: each command's meaning on the branch that its rule names; a request that R7 lists goes as
askState_goes says. -/
theorem startCommandsComplete : Obligations.StartCommandsComplete := by
  refine ⟨?_, ?_, ?_, ?_, ?_, ?_, ?_, ?_⟩
  · intro s card hd
    exact congrArg _ (if_pos hd)
  · intro s trueHead liftN r hd hq ht
    exact congrArg _ (if_pos ⟨hd, hq, .inl (by rw [ht]; rfl)⟩)
  · intro s hd hb
    exact congrArg _ (if_pos ⟨hd, hb⟩)
  · intro s hd ht
    exact congrArg _ (if_pos ⟨hd, ht⟩)
  · intro s p ha hb hd
    rw [exec_stateRequestSetup (allows_ok s ha), askState_goes ha hb (mayGo_toSetup hd), goState_setup]
  · intro s p ha hb hd
    rw [exec_stateRequestRun (allows_ok s ha), askState_goes ha hb (mayGo_toRun hd), goState_run]
  · intro s p ha hb hd
    rw [exec_stateRequestMaintain (allows_ok s ha), askState_goes ha hb (mayGo_run hd), goState_maintain,
      State.enterState]
  · intro s hb hl hh
    rw [exec_setupTransitionComplete (flag_iff.1 hb) hl, hh, List.length_nil, State.heldRequests, State.enterState]

end Sys2Proof.Scope
end

section
/-!
SUPPORT. What a reset keeps and loses (R374, R377, R452).
-/

set_option Elab.async false

namespace Sys2Proof.Scope

open Sys2Proof Sys2Proof.Machine Sys2Proof.Laws

/-! The journal's newest entries stay when one more is written (R281). -/

theorem mem_jInsert {x e : JEntry} {l : List JEntry} {m : Nat} (h : e ∈ l.take m) :
    e ∈ (jInsert x l).take (m + 1) := by
  induction l generalizing m with
  | nil => simp at h
  | cons y r ih =>
    cases m with
    | zero => simp at h
    | succ m =>
      rw [jInsert]
      split
      · rw [List.take_succ_cons, List.mem_cons] at h ⊢
        exact h.imp id ih
      · exact List.mem_cons_of_mem _ h

theorem mem_add {j : Journal} {x e : JEntry} {m : Nat} (hm : m < 131072) (h : e ∈ j.ring.take m) :
    e ∈ (j.add x).ring.take (m + 1) := by
  rw [Journal.add, List.take_take, Nat.min_eq_left (by omega)]
  exact mem_jInsert h

/-- At most one entry has been written. -/
def OneEntry (s t : State) : Prop := t.jour = s.jour ∨ ∃ x, t.jour = s.jour.add x

theorem OneEntry.mem {s t : State} (h : OneEntry s t) {e : JEntry} {m : Nat} (hm : m < 131072)
    (he : e ∈ s.jour.ring.take m) : e ∈ t.jour.ring.take (m + 1) := by
  obtain h | ⟨x, h⟩ := h
  · rw [h]
    exact List.take_subset_take_left _ (Nat.le_succ m) he
  · rw [h]
    exact mem_add hm he

/-- Arguments of 16 bytes or fewer make one entry (R279). -/
theorem ev_oneEntry {s : State} {code inst sev src : Nat} {args : Bytes} (h : args.length ≤ 16) :
    OneEntry s (s.ev code inst sev src args) := by
  refine .inr ⟨{ time := s.station, code, inst, sev, flags := s.jFlags, arrival := s.clock,
                 args := fitBytes 16 args }, ?_⟩
  rw [State.ev, State.evAt, raise_jour, State.journalAt, argParts, if_pos h]
  rfl

theorem OneEntry.of_eq {s t u : State} (h : OneEntry s t) (e : u.jour = t.jour) : OneEntry s u := by
  unfold OneEntry at *
  rwa [e]

theorem length_leBytes (n v : Nat) : (leBytes n v).length = n := by
  induction n generalizing v with
  | zero => rfl
  | succ n ih => rw [leBytes, List.length_cons, ih]

/-- SAFE_PULSE's stop or start is one entry (R411). -/
theorem pulse_oneEntry (s : State) : OneEntry s s.pulse := by
  unfold State.pulse
  split
  · split
    · exact .inl rfl
    · exact ev_oneEntry (by simp [u32, length_leBytes])
  · split
    · exact .inl rfl
    · exact ev_oneEntry (by simp [u16, length_leBytes])

/-- It leaves MRAM's part of the safety state: the baseline and the setpoint (R420, R422). -/
theorem pulse_baseline (s : State) :
    s.pulse.safety.baseline = s.safety.baseline ∧ s.pulse.safety.vdd = s.safety.vdd := by
  unfold State.pulse
  split
  · split
    · exact ⟨rfl, rfl⟩
    · simp
  · split
    · exact ⟨rfl, rfl⟩
    · simp

/-! Channels 0 to 8 turn off (R377). -/

/-- A channel that is driven turns off. -/
def channelOff (c : Nat) (s : State) : State :=
  onlyIf (s.driven c) (fun s => ((s.gate c false).set (brStat c 1) 0).stopAll [.ramp c, .onTime c]) s

theorem channelsOff_eq (s : State) :
    s.channelsOff =
      forAll channelOff (upTo 9)
        { s with power := { s.power with want := s.power.want.filter fun c => decide (c = 9) } } :=
  rfl

theorem channelOff_get {c k : Nat} (s : State) (h : k ≠ brStat c 1) : (channelOff c s).get k = s.get k := by
  unfold channelOff onlyIf
  split
  · rw [stopAll_get, get_set_ne _ _ h]
    rfl
  · rfl

theorem channelOff_driven (c : Nat) (s : State) : (channelOff c s).driven c = false := by
  unfold channelOff onlyIf
  split
  · rw [State.driven, State.breaker, stopAll_get, get_set_same]
    rfl
  · next h => exact Bool.not_eq_true _ ▸ h

theorem channelOff_stays {c d : Nat} {s : State} (h : s.driven d = false) : (channelOff c s).driven d = false := by
  by_cases hd : d = c
  · subst hd
    exact channelOff_driven d s
  · have hk : brStat d 1 ≠ brStat c 1 := fun e => hd (by unfold brStat ob at e; omega)
    rw [State.driven, State.breaker, channelOff_get s hk]
    exact h

theorem forAll_channelOff_get {k : Nat} (h : ∀ c, k ≠ brStat c 1) (l : List Nat) (s : State) :
    (forAll channelOff l s).get k = s.get k := by
  induction l generalizing s with
  | nil => rfl
  | cons c r ih => exact (ih _).trans (channelOff_get s (h c))

theorem forAll_channelOff_driven {d : Nat} (l : List Nat) (s : State) (h : d ∈ l ∨ s.driven d = false) :
    (forAll channelOff l s).driven d = false := by
  induction l generalizing s with
  | nil => exact h.resolve_left List.not_mem_nil
  | cons c r ih =>
    refine ih _ ?_
    rcases h with h | h
    · rcases List.mem_cons.1 h with rfl | h
      · exact .inr (channelOff_driven d s)
      · exact .inl h
    · exact .inr (channelOff_stays h)

theorem svcSilent_get {k : Nat} (s : State) (h : k ≠ pdStat 4) : s.svcSilent.get k = s.get k := by
  unfold State.svcSilent State.vconn
  rw [send_get, vsel_get, send_get, get_set_ne _ _ h]
  split
  · exact discharging_get s false k
  · rfl

/-! The hub's last acts before Reset takes its state: pair B is Off (R387), SAFE_PULSE stops (R411), the channels turn
off (R377) and the service port is silent (R244). -/

/-- The journal entry of pair B's end (R387). -/
def appEnds (s : State) : State :=
  if s.get (ob 0x4501 1) = 0 then s else s.ev 0x1200 0 1 1 (u8 (s.get (ob 0x4501 1)) ++ u8 0 ++ u8 3)

/-- The state that Reset then takes. -/
def silenced (s : State) : State := (((appEnds s).set (ob 0x2000 1) devReset).pulse).channelsOff.svcSilent

theorem appEnds_keeps (s : State) : Keeps (fun f => [.irq, .jour].contains f) s (appEnds s) :=
  keeps_ite (.refl _ s) (keeps_State_ev _ _ _ _ _ _ (.refl _ s) (sub_self _))

theorem silenced_keeps (s : State) :
    Keeps (fun f => [.objs, .timers, .irq, .jour, .sent, .safety, .power, .pd].contains f) s (silenced s) := by
  have w := sub_self [Piece.objs, .timers, .irq, .jour, .sent, .safety, .power, .pd]
  refine keeps_State_svcSilent _ (keeps_State_channelsOff _ (keeps_State_pulse _ (keeps_State_set _ _ _ ?_ w.of) w.of)
    w.of) w.of
  exact keeps_ite (.refl _ s) (keeps_State_ev _ _ _ _ _ _ (.refl _ s) w.of)

theorem appEnds_oneEntry (s : State) : OneEntry s (appEnds s) := by
  unfold appEnds
  split
  · exact .inl rfl
  · exact ev_oneEntry (by simp [u8, length_leBytes])

theorem appEnds_get (s : State) (k : Nat) : (appEnds s).get k = s.get k := (appEnds_keeps s).get rfl rfl k

/-- The two entries of a reset push out at most the two oldest (R281). -/
theorem silenced_ring {s : State} {e : JEntry} (h : e ∈ s.jour.ring.take 131070) : e ∈ (silenced s).jour.ring := by
  have h1 : e ∈ (appEnds s).jour.ring.take 131071 := (appEnds_oneEntry s).mem (by decide) h
  have w := sub_self [Piece.objs, .timers, .sent, .power, .pd]
  have k : Keeps _ _ (silenced s) := keeps_State_svcSilent _ (keeps_State_channelsOff _ (.refl _ _) w.of) w.of
  have h2 : OneEntry (appEnds s) (silenced s) :=
    OneEntry.of_eq (pulse_oneEntry ((appEnds s).set (ob 0x2000 1) devReset)) (k.same .jour rfl)
  exact List.mem_of_mem_take (h2.mem (by decide) h1)

/-- It leaves MRAM's part of the safety state. -/
theorem silenced_baseline (s : State) :
    (silenced s).safety.baseline = s.safety.baseline ∧ (silenced s).safety.vdd = s.safety.vdd := by
  have w := sub_self [Piece.objs, .timers, .sent, .power, .pd]
  have k : Keeps _ _ (silenced s) := keeps_State_svcSilent _ (keeps_State_channelsOff _ (.refl _ _) w.of) w.of
  have hs : (silenced s).safety = ((appEnds s).set (ob 0x2000 1) devReset).pulse.safety := k.same .safety rfl
  have ha : (appEnds s).safety = s.safety := (appEnds_keeps s).same .safety rfl
  have hp := pulse_baseline ((appEnds s).set (ob 0x2000 1) devReset)
  rwa [← hs, set_safety, ha] at hp

theorem get_power (s : State) (p : Power) (n : Nat) : ({ s with power := p } : State).get n = s.get n := rfl

/-- Of the objects that the guard die keeps, the breakers' states alone change. -/
theorem silenced_get {s : State} {n : Nat} {q : Bool} (hg : guardKeeps q n = true) (hn : ∀ c, n ≠ brStat c 1) :
    (silenced s).get n = s.get n := by
  have hne : ∀ k, guardKeeps q k = false → n ≠ k := by
    rintro k hk rfl
    rw [hk] at hg
    cases hg
  rw [silenced, svcSilent_get _ (hne _ (by cases q <;> decide)), channelsOff_eq, forAll_channelOff_get hn]
  rw [get_power, pulse_get (hne _ (by cases q <;> decide)), get_set_ne _ _ (hne _ (by cases q <;> decide)), appEnds_get]

theorem silenced_driven (s : State) {c : Nat} (h : c < 9) : (silenced s).driven c = false := by
  have hk : brStat c 1 ≠ pdStat 4 := by unfold brStat pdStat ob; omega
  rw [State.driven, State.breaker, silenced, svcSilent_get _ hk, channelsOff_eq]
  exact forAll_channelOff_driven _ _ (.inl (List.mem_range.2 h))

/-! What Reset takes from that state. -/

section
variable {s : State} {k : Nat} {q : Bool} (h : s.dev ≠ devReset)
include h

omit h in
theorem toReset_keeps : Keeps (fun f => (Piece.allBut [.head, .freeCount]).contains f) s (s.toReset k q) :=
  keeps_State_toReset _ _ _ (.refl _ s) (sub_self _)

/-- What MRAM, fuses, flash and the guard die keep, and the reset's kind (R452). -/
theorem toReset_taken :
    (s.toReset k q).objs = (silenced s).objs.filter (fun e => guardKeeps q e.1) ∧
      (s.toReset k q).jour = (silenced s).jour ∧ (s.toReset k q).power.kind = k ∧
      (s.toReset k q).secu = { (silenced s).secu with asks := [] } ∧
      (s.toReset k q).app = { mram := (silenced s).app.mram } ∧
      (s.toReset k q).boot.flash = (silenced s).boot.flash ∧ (s.toReset k q).boot.copyA = (silenced s).boot.copyA ∧
      (s.toReset k q).boot.copyB = (silenced s).boot.copyB ∧
      (s.toReset k q).boot.orphans = (silenced s).boot.orphans ∧
      (s.toReset k q).safety.baseline = (silenced s).safety.baseline ∧
      (s.toReset k q).safety.vdd = (silenced s).safety.vdd := by
  generalize ht : s.toReset k q = t
  rw [State.toReset, if_neg h] at ht
  extract_lets app ended stageBad last b at ht
  have e : silenced s = last := rfl
  rw [e]
  clear_value last
  subst ht
  exact ⟨rfl, rfl, rfl, rfl, rfl, rfl, rfl, rfl, rfl, rfl, rfl⟩

/-- What the hub die loses (R6, R36, R52, R387, R396). -/
theorem toReset_lost :
    (s.toReset k q).dram = [] ∧ (s.toReset k q).keys = [] ∧ (s.toReset k q).sessions = [] ∧
      (s.toReset k q).lockouts = [] ∧ (s.toReset k q).cmds = [] ∧ (s.toReset k q).irq = {} ∧
      (s.toReset k q).rates = [] ∧ (s.toReset k q).trunks = [] ∧ (s.toReset k q).tunnels = [] ∧
      (s.toReset k q).fabric = {} ∧ (s.toReset k q).scheds = [] ∧ (s.toReset k q).canOpen = {} ∧
      (s.toReset k q).strs = [] := by
  generalize ht : s.toReset k q = t
  rw [State.toReset, if_neg h] at ht
  extract_lets app ended stageBad last b at ht
  clear_value last
  subst ht
  exact ⟨rfl, rfl, rfl, rfl, rfl, rfl, rfl, rfl, rfl, rfl, rfl, rfl, rfl⟩

end

theorem find_filter {α : Type} (P : Nat → Bool) (n : Nat) (m : List (Nat × α)) :
    Sparse.find n (m.filter fun e => P e.1) = if P n then Sparse.find n m else none := by
  induction m with
  | nil => simp [Sparse.find]
  | cons e r ih =>
    obtain ⟨j, v⟩ := e
    by_cases hj : n = j
    · subst hj
      by_cases hP : P n <;> simp [Sparse.find, hP, ih]
    · by_cases hP : P j <;> simp [Sparse.find, hP, ih, hj]

section
variable {s : State} {k n : Nat} {q : Bool} (h : s.dev ≠ devReset)
include h

/-- An object that the guard die keeps reads as it did when Reset came. -/
theorem toReset_get_kept (hg : guardKeeps q n = true) : (s.toReset k q).get n = (silenced s).get n := by
  have hh : (s.toReset k q).head = (silenced s).head :=
    (toReset_keeps.same .head rfl : _ = s.head).trans ((silenced_keeps s).same .head rfl).symm
  have hp : (s.toReset k q).part = (silenced s).part := toReset_keeps.part.trans (silenced_keeps s).part.symm
  obtain ⟨objs, -⟩ := toReset_taken (k := k) (q := q) h
  rw [State.get, State.get, Sparse.get, Sparse.get, objs, find_filter (guardKeeps q), if_pos hg, hh, hp]

/-- Every other object goes to its default (R52). -/
theorem toReset_get_lost (hg : guardKeeps q n = false) : (s.toReset k q).get n = objDefault s.part s.head n := by
  have hh : (s.toReset k q).head = s.head := toReset_keeps.same .head rfl
  obtain ⟨objs, -⟩ := toReset_taken (k := k) (q := q) h
  have hf : Sparse.find n (s.toReset k q).objs = none := by
    rw [objs, find_filter (guardKeeps q), hg]
    rfl
  rw [get_unlisted hf, hh, toReset_keeps.part]

theorem toReset_dev : (s.toReset k q).dev = devReset :=
  toReset_get_lost h (by cases q <;> decide)

omit h in
/-- The guard die keeps every breaker's state (R374). -/
theorem guardKeeps_breaker {c : Nat} (hc : c < 10) : guardKeeps q (brStat c 1) = true := by
  have hi : brStat c 1 / 256 = 0x4120 + c := by unfold brStat ob; omega
  have hs : brStat c 1 % 256 = 1 := by unfold brStat ob; omega
  simp only [guardKeeps, hi, hs]
  cases q
  · simp
    omega
  · simp [aonSub]
    omega

theorem toReset_driven {c : Nat} (hc : c < 9) : (s.toReset k q).driven c = false := by
  rw [State.driven, State.breaker, toReset_get_kept h (guardKeeps_breaker (by omega))]
  exact silenced_driven s hc

end

/-- Settles O14: Reset takes from the silenced hub what toReset_taken says, and loses what toReset_lost says. -/
theorem resetKeepsAndLoses : Obligations.ResetKeepsAndLoses := by
  rintro s t k q h rfl
  obtain ⟨-, jour, kind, secu, app, flash, copyA, copyB, orphans, baseline, vdd⟩ :=
    toReset_taken (k := k) (q := q) h
  obtain ⟨dram, keys, sessions, lockouts, cmds, irq, rates, trunks, tunnels, fabric, scheds, canOpen, strs⟩ :=
    toReset_lost (k := k) (q := q) h
  have last := silenced_keeps s
  have hsecu : (silenced s).secu = s.secu := last.same .secu rfl
  have happ : (silenced s).app = s.app := last.same .app rfl
  have hboot : (silenced s).boot = s.boot := last.same .boot rfl
  obtain ⟨hbase, hvdd⟩ := silenced_baseline s
  have ring : ∀ e, e ∈ s.jour.ring.take 131070 → e ∈ (s.toReset k q).jour.ring := fun e he => by
    rw [jour]
    exact silenced_ring he
  rw [hsecu] at secu
  rw [happ] at app
  rw [hboot] at flash copyA copyB orphans
  exact ⟨toReset_dev h, kind, secu, flash, copyA, copyB, orphans, app, baseline.trans hbase, vdd.trans hvdd,
    ring, fun n hg hn => (toReset_get_kept h hg).trans (silenced_get hg hn),
    fun n hg => toReset_get_lost h hg, fun c hc => toReset_driven h hc, dram, keys, sessions, lockouts, cmds, irq,
    rates, trunks, tunnels, fabric, scheds, canOpen, strs, toReset_keeps.same .head rfl, toReset_keeps.part⟩

end Sys2Proof.Scope
end

section
/-!
SUPPORT. The islands, the die-to-die link and the power domains (R12, R17-R22, R380).
-/

set_option Elab.async false

namespace Sys2Proof.Scope

open Sys2Proof Sys2Proof.Machine Sys2Proof.Laws

/-- A unit that the family has takes its commands (R1). -/
theorem onUnit_known {known : Bool} {t : State} (h : known = true) : onUnit known t = .next t := if_pos h

section
variable {s : State} {dom : Nat}

/-- What the domain does with its DomainEnable: PD0-PD3 only take the value, the others power up or down (R20). -/
theorem domainSwitch_eq (v : Nat) :
    s.domainSwitch dom v = if dom < 4 then s.set (ob 0x2020 (dom + 1)) v
      else if v = 1 then (s.set (ob 0x2020 (dom + 1)) 1).domainUp dom
      else (s.set (ob 0x2020 (dom + 1)) v).domainDown dom 0 := by
  unfold State.domainSwitch enKey
  by_cases hv : v = 1
  · rw [hv]
  · simp only [if_neg hv]

/-- A permitted DomainEnable takes its value (R20, R21). -/
theorem exec_domainEnableWrite {p : Path} {v : Nat} (hu : dom < 14) (ha : s.allows p 0x2020 (dom + 1) v)
    (hm : s.dramMissing dom v = false) :
    exec (.domainEnableWrite p dom v) s = .next ((s.touch p).domainSwitch dom v) := by
  have hw : s.writeNum p 0x2020 (dom + 1) v (s.domainKinds dom v) (fun s => s.domainSwitch dom v) =
      (s.touch p).domainSwitch dom v := writeNum_done s ha (kindIf_nil.2 hm)
  exact (onPath_ok s (decide_eq_true hu) (allows_ok s ha)).trans (congrArg _ hw)

/-- The next domain of the start-up order powers up (R380). -/
theorem exec_domainPowerUpStagger {rest : List Nat} (ht : s.due .domainStagger 20000 = true)
    (hb : s.boot.domains = dom :: rest) :
    exec .domainPowerUpStagger s =
      .next ((if rest = [] then ({ s with boot := { s.boot with domains := rest } } : State).stop .domainStagger
        else ({ s with boot := { s.boot with domains := rest } } : State).start .domainStagger).domainUp dom) := by
  show execDomainPowerUpStagger s = _
  rw [execDomainPowerUpStagger, if_pos ht, hb]

end

/-- Settles O20: each command's meaning on the branch that its rule names. -/
theorem islandAndDomainCommandsComplete : Obligations.IslandAndDomainCommandsComplete := by
  refine ⟨?_, ?_, ?_, ?_, ?_, ?_⟩
  · intro s isl fifo hu hd hw
    have watched : ¬ (s.dev = devReset ∨ (!s.islandWatched isl) = true) := by simp [hd, hw]
    exact (onUnit_known (decide_eq_true hu)).trans (congrArg _ (if_neg watched))
  · intro s hd
    exact ⟨congrArg _ (if_neg hd), congrArg _ (if_neg hd)⟩
  · intro s hd ht
    exact congrArg _ (if_pos ⟨hd, ht⟩)
  · intro s p dom v hu ha hm
    rw [exec_domainEnableWrite hu ha hm, domainSwitch_eq]
  · intro s dom rest ht hb
    exact exec_domainPowerUpStagger ht hb
  · intro s dom rail mv hl hu hr he ho
    exact (onUnit_known (decide_eq_true ⟨hu, hr⟩)).trans (congrArg _ (if_pos ⟨hl, he, ho⟩))

end Sys2Proof.Scope
end

section
/-!
SUPPORT. The messages that read and write the dictionary, the gateway's request and the Period of a map entry
(R37-R39, R46-R48, R326, R390).
-/

set_option Elab.async false

namespace Sys2Proof.Scope

open Sys2Proof Sys2Proof.Machine Sys2Proof.Laws

/-! Indices whose objects are kept under their own number and have no command of their own: the communication profile
below the violations, and scheduling below AllotmentWindow (R38). -/

/-- What the judgement of a permitted write has found of the object (R37). -/
theorem judgeWrite_permits {s : State} {p : Path} {i sub : Nat} {data : Bytes} {r : ObjRow} (hr : rowAt i sub = some r)
    (h : s.judgeWrite p i sub data [] = none) :
    s.missing i sub = false ∧ sizeBad i r data.length = false ∧
      decide (r.acc = .ro ∨ r.acc = .const) = false := by
  simp only [State.judgeWrite, hr, lowest_none, List.append_eq_nil_iff, kindIf_nil, Bool.or_eq_false_iff] at h
  obtain ⟨⟨⟨⟨⟨⟨⟨missing, size⟩, -⟩, access, -⟩, -⟩, -⟩, -⟩, -⟩ := h
  exact ⟨missing, size, access⟩

section
variable {s : State} {p : Path} {i sub : Nat} (h : (0x1200 ≤ i ∧ i < 0x1F80) ∨ (0x2600 ≤ i ∧ i < 0x2710))
include h

theorem placed_self : s.placed p i sub = i := by
  simp (disch := omega) only [State.placed, if_neg]

theorem withoutReserved_self {v : Nat} : withoutReserved i sub v = v := by
  simp (disch := omega) only [withoutReserved, if_neg]

theorem afterStore_set {v : Nat} : s.afterStore p i sub i v = s.set (ob i sub) v := by
  simp (disch := omega) only [State.afterStore, ↓if_neg, withoutReserved_self h]

theorem lowWrite_plain {tk : Nat} {r : ObjRow} {data : Bytes} :
    s.lowWrite p tk i sub r data = s.plainWrite p i sub r data := by
  simp (disch := omega) only [State.lowWrite, if_neg]

/-- A permitted plain write of a number stores it (R37, R39). -/
theorem plainWrite_set {r : ObjRow} {data : Bytes} (ht : r.type ≠ 9) (hr : s.reach = true)
    (hj : s.judgeWrite p i sub data [] = none) (hk : s.plainKinds p i sub (leNat data) = []) :
    s.plainWrite p i sub r data = (s.touch p).set (ob i sub) (leNat data) := by
  have unbudgeted : decide ((0x2800 ≤ i ∧ i < 0x2804) ∨ (0x2900 ≤ i ∧ i < 0x2910) ∨ i = 0x2810 ∨
      (i = 0x2D00 ∧ sub = 3)) = false := decide_eq_false (by omega)
  simp only [State.plainWrite, placed_self h, unbudgeted, Bool.and_false, budgetCount_false, hk, State.write, hr, hj,
    if_true, if_neg ht, afterStore_set h]

/-- A permitted write of such an object stores its value, whichever message carries it (R37-R39). -/
theorem odWrite_set {tk : Nat} {r : ObjRow} {data : Bytes} (hs : sub < 0xF0) (hr : s.reach = true)
    (hrow : rowAt i sub = some r) (ht : r.type ≠ 9) (ho : s.oldProfile i = false)
    (hj : s.judgeWrite p i sub data [] = none) (hk : s.plainKinds p i sub (leNat data) = []) :
    s.odWrite p tk i sub data = (s.touch p).set (ob i sub) (leNat data) := by
  obtain ⟨missing, size, access⟩ := judgeWrite_permits hrow hj
  have native : s.nativeData i sub r data = data := by simp [State.nativeData, ho]
  simp only [State.odWrite, hrow, native, missing, size, access, Bool.or_false, Bool.false_eq_true, if_false]
  rw [if_neg (by omega), if_neg (by omega), if_pos (by omega), lowWrite_plain h, plainWrite_set h ht hr hj hk]

end

/-! Management messages (R46-R48). -/

section
variable {s : State} {mp : Nat} {msg : Bytes}

theorem lateRun_nil (h : s.lateWrites mp = []) : s.lateRun mp = s := if_neg fun ⟨hne, _⟩ => hne h

/-- A management port of the part takes its messages (R2). -/
theorem onPort_mgmt {t : State} (h : mp = 4 ∨ s.part.hasTrunk mp = true) :
    onPort s (fun q => decide (mp = 4) || q.hasTrunk mp) t = .next t := by
  refine onPort_has s ?_ ?_
  · rcases h with h | h <;> simp [h, hasTrunk_full]
  · rcases h with h | h <;> simp [h]

/-- A well-formed request on a port with room is executed at once. -/
theorem mgmtRequest_executed (hon : s.mgmtOn mp = true) (hl : s.lateWrites mp = [])
    (h4 : mp = 4 → s.ep1Halted = false ∧ s.svc.complete.contains msg = false) (hw : s.mgmtWaiting mp < 16) :
    s.mgmtRequest mp msg = s.mgmtExecute mp msg false := by
  have reach : s.reach = true := Bool.and_elim_left hon
  have whole : (decide (mp = 4) && s.svc.complete.contains msg) = false := by
    by_cases h : mp = 4
    · rw [(h4 h).2, Bool.and_false]
    · rw [decide_eq_false h, Bool.false_and]
  have halted : ¬ (mp = 4 ∧ s.ep1Halted = true) := fun ⟨h, hh⟩ => Bool.false_ne_true ((h4 h).1.symm.trans hh)
  have busy : decide (16 ≤ s.mgmtWaiting mp) = false := decide_eq_false (by omega)
  rw [State.mgmtRequest, lateRun_nil hl]
  simp only [whole, reach, hon, busy, if_neg halted, Bool.or_false, Bool.not_true, Bool.false_eq_true, if_false]

theorem mgmtExecute_read (hm : mgmtMalformed mp msg = false) (ho : mgmtByte msg 0 = 1) :
    s.mgmtExecute mp msg false =
      (s.readNow (mgmtPath mp (mgmtByte msg 1)) (mgmtWord msg 4) (mgmtByte msg 6)).2.mgmtSend mp
        (mgmtReply msg 0 (s.readNow (mgmtPath mp (mgmtByte msg 1)) (mgmtWord msg 4) (mgmtByte msg 6)).1) := by
  simp only [State.mgmtExecute, hm, ho, Bool.false_eq_true, if_false, if_true]

theorem mgmtExecute_write (hm : mgmtMalformed mp msg = false) (ho : mgmtByte msg 0 = 2) :
    s.mgmtExecute mp msg false = s.mgmtWrite mp msg := by
  simp [State.mgmtExecute, hm, ho]

/-- A write's reply leaves before its effect (R47). -/
theorem mgmtWrite_now
    (ha : awaitsReply mp (mgmtWord msg 4) (mgmtByte msg 6) (leNat (msg.drop 12)) = false) :
    s.mgmtWrite mp msg =
      (s.mgmtSend mp (mgmtReply msg 0 [])).odWrite (mgmtPath mp (mgmtByte msg 1)) (if mp = 4 then 0 else mp)
        (mgmtWord msg 4) (mgmtByte msg 6) (msg.drop 12) := by
  simp only [State.mgmtWrite, ha, Bool.false_and, Bool.false_eq_true, if_false]

/-- A permitted write that takes its own path away waits until the reply is gone (R21, R255). -/
theorem mgmtWrite_late {y : State} {p : Path} (hy : y = s.mgmtSend mp (mgmtReply msg 0 []))
    (hp : p = mgmtPath mp (mgmtByte msg 1))
    (ha : awaitsReply mp (mgmtWord msg 4) (mgmtByte msg 6) (leNat (msg.drop 12)) = true)
    (hj : y.judgeWrite p (mgmtWord msg 4) (mgmtByte msg 6) (msg.drop 12) [] = none) :
    s.mgmtWrite mp msg = (y.touch p).setLate mp ((y.touch p).lateWrites mp ++
      [{ path := p, time := (y.touch p).station, index := mgmtWord msg 4, sub := mgmtByte msg 6,
         value := leNat (msg.drop 12) }]) := by
  subst hy hp
  simp only [State.mgmtWrite, ha, hj, Option.isNone_none, Bool.and_true, if_true]

end

section
variable {s : State} {mp : Nat} {msg : Bytes} (hu : mp = 4 ∨ s.part.hasTrunk mp = true)
  (hon : s.mgmtOn mp = true) (hl : s.lateWrites mp = [])
  (h4 : mp = 4 → s.ep1Halted = false ∧ s.svc.complete.contains msg = false) (hw : s.mgmtWaiting mp < 16)
include hu hon hl h4 hw

theorem exec_mgmtReadRequest : exec (.mgmtReadRequest mp msg) s = .next (s.mgmtExecute mp msg false) :=
  (onPort_mgmt hu).trans (congrArg _ (mgmtRequest_executed hon hl h4 hw))

theorem exec_mgmtWriteRequest : exec (.mgmtWriteRequest mp msg) s = .next (s.mgmtExecute mp msg false) :=
  (onPort_mgmt hu).trans (congrArg _ (mgmtRequest_executed hon hl h4 hw))

end

/-! The gateway's write at the engine (R390). -/

/-- The engine writes the bytes that the gateway holds, then tells pair B. -/
theorem gatewayRun_write {s : State} {i sub : Nat} (ho : s.app.gwOp = 2) (ha : s.app.gwAddress = i * 256 + sub)
    (hs : sub < 256) :
    s.gatewayRun = ((s.odWrite .gateway 0 i sub (s.app.gwData.take s.app.gwLength)).updApp
      fun x => { x with gwOp := 0, gwDone := true }).raise 3 := by
  have index : s.app.gwAddress / 256 = i := by omega
  have subindex : s.app.gwAddress % 256 = sub := by omega
  simp [State.gatewayRun, ho, index, subindex]

/-! The Period of a map entry (R326). -/

section
variable {s : State} {me : Nat}

theorem mcfg_updMap {f : MapEntry → MapEntry} (h : ∀ x, (f x).cfg = x.cfg) (sub : Nat) :
    (s.updMap me f).mcfg me sub = s.mcfg me sub := by
  show Sparse.get 0 (Sparse.get {} (Sparse.put {} me (f (s.mapEntry me)) s.fld.maps) me).cfg sub = _
  rw [get_put_same, h, State.mcfg]

/-- The Period of an enabled entry is over and the next begins. -/
def periodBegun (s : State) (me : Nat) : State := s.updMap me fun x => { x with periodAt := s.clock }

@[simp] theorem periodBegun_mcfg (sub : Nat) : (periodBegun s me).mcfg me sub = s.mcfg me sub :=
  mcfg_updMap (f := fun x => { x with periodAt := s.clock }) (fun _ => rfl) sub

/-- An object source is sampled. -/
def objectSampled (s : State) (me : Nat) : State :=
  s.mapRaw me (s.objectRaw (field (s.mcfg me 3) 8 16) (field (s.mcfg me 3) 0 8)) s.station 0

/-- An entry of TriggerMode 2 is packed into its destination. -/
def periodPacked (s : State) (me : Nat) : State := if s.mcfg me 0x10 = 2 then (s.mapPack me).tpdoCheck else s

theorem exec_mapPeriodTimer (hu : me < 1024) (hm : s.mapping = true) (he : s.flag (mapKey me 1) = true)
    (ht : (s.mapEntry me).periodAt + msec (s.mcfg me 0x12) ≤ s.clock) :
    exec (.mapPeriodTimer me) s =
      .next (periodPacked (if s.mcfg me 2 = 3 then objectSampled (periodBegun s me) me else periodBegun s me) me) := by
  have elapsed : ¬ (!s.mapping || !s.flag (mapKey me 1) ||
      decide (s.clock < (s.mapEntry me).periodAt + msec (s.mcfg me 0x12))) = true := by
    simp [hm, he, ht]
  rw [← periodBegun_mcfg (s := s) 2]
  exact (onUnit_known (decide_eq_true hu)).trans (congrArg _ (if_neg elapsed))

end

/-- Settles O21: a permitted write stores as odWrite_set says; a message is executed as mgmtExecute_read, mgmtWrite_now
and mgmtWrite_late say, the gateway's write as gatewayRun_write, a Period as exec_mapPeriodTimer. -/
theorem dictionaryMessagesComplete : Obligations.DictionaryMessagesComplete := by
  refine ⟨?_, ?_, ?_, ?_, ?_, ?_, ?_, ?_⟩
  · intro s p i sub data r hi hs hp hr hrow ht ho hj hk
    have known : decide (i < 65536 ∧ sub < 256) = true := decide_eq_true (by omega)
    exact (onPath_ok s known hp).trans (congrArg _ (odWrite_set hi hs hr hrow ht ho hj hk))
  · intro s mp msg hu ⟨hon, hl⟩ h4 hm hw ho
    rw [exec_mgmtReadRequest hu hon hl h4 hw, mgmtExecute_read hm ho]
  · intro s mp msg hu ⟨hon, hl⟩ h4 hm hw ho ha
    rw [exec_mgmtWriteRequest hu hon hl h4 hw, mgmtExecute_write hm ho, mgmtWrite_now ha]
  · rintro s y mp v msg p hu ⟨hon, hl⟩ h4 hm hw ho ⟨rfl, hp⟩ ha hy hj
    rw [exec_mgmtWriteRequest hu hon hl h4 hw, mgmtExecute_write hm ho, mgmtWrite_late hy hp ha hj]
  · intro s i sub ho ha hs hstop
    have pending : s.app.gwOp ≠ 0 := by omega
    have live : s.gatewayRun.app.stop = 0 := by
      rw [gatewayRun_write ho ha hs, raise_app]
      exact hstop
    show Host.Outcome.next _ = _
    rw [if_neg pending]
    exact congrArg _ ((if_pos live).trans (gatewayRun_write ho ha hs))
  · intro s me hu hm he ht hsrc htrig
    rw [exec_mapPeriodTimer hu hm he ht, if_neg hsrc, periodPacked, periodBegun_mcfg, if_neg htrig, periodBegun]
  · intro s me hu hm he ht hsrc htrig
    rw [exec_mapPeriodTimer hu hm he ht, if_neg hsrc, periodPacked, periodBegun_mcfg, if_pos htrig, periodBegun]
  · intro s me hu hm he ht hsrc
    rw [exec_mapPeriodTimer hu hm he ht, if_pos hsrc, objectSampled, periodBegun_mcfg]
    rfl

end Sys2Proof.Scope
end

section
/-!
SUPPORT. Power entry: a feed's reverse turn-offs, and the commands of feeds, the inlet and the rails (R364-R366, R374,
R378-R382).
-/

set_option Elab.async false

namespace Sys2Proof.Scope

open Sys2Proof Sys2Proof.Machine Sys2Proof.Laws

/-! An event of the guard die (R374): journalled while the hub runs, queued in Reset. -/

section
variable {s : State} {code inst sev src : Nat} {args : Bytes}

theorem pwrEv_run (h : s.dev ≠ devReset) : s.pwrEv code inst sev src args = s.ev code inst sev src args := if_pos h

theorem pwrEv_clock : (s.pwrEv code inst sev src args).clock = s.clock :=
  (keeps_State_pwrEv s code inst sev src args (.refl _ s) (sub_self _)).clock

/-- In Reset it counts what the queue has no room for, and sets no other object. -/
theorem pwrEv_get {k : Nat} (h : k ≠ ob 0x4101 0x0D) : (s.pwrEv code inst sev src args).get k = s.get k := by
  unfold State.pwrEv
  split
  · exact ev_get ..
  · have emptied : (if s.power.queue = [] then s.set (ob 0x4101 0x0D) 0 else s).get k = s.get k := by
      split
      · exact get_set_ne s 0 h
      · rfl
    extract_lets t
    split
    · exact (get_power t _ k).trans emptied
    · exact (get_set_ne t _ h).trans emptied

theorem pwrEv_dev : (s.pwrEv code inst sev src args).dev = s.dev := pwrEv_get (by decide)

/-- It leaves the records of reverse turn-offs. -/
theorem pwrEv_turned : (s.pwrEv code inst sev src args).power.turned = s.power.turned := by
  unfold State.pwrEv
  split
  · rw [ev_power]
  · have emptied : (if s.power.queue = [] then s.set (ob 0x4101 0x0D) 0 else s).power.turned = s.power.turned := by
      split <;> rfl
    extract_lets t
    split
    · exact emptied
    · exact (congrArg Power.turned (count_power t _ _)).trans emptied

end

/-! A feed's reverse turn-offs, journalled at most once per second (R364, R374, R479). -/

section
variable {s : State} {f : Nat}

/-- The first of a second while the hub runs. -/
theorem turnOff_run (hd : s.dev ≠ devReset) (ht : s.power.turned = []) :
    s.turnOff f = s.evRate 0xD002 f 2 (288 + f) (sec 1) (u16 f) [1] [] := by
  have ended : s.turnsEnd f = s := by simp [State.turnsEnd, ht, forAll]
  simp [State.turnOff, ended, ht, hd]

/-- The first of a second in Reset is queued, and its period begins. -/
theorem turnOff_reset (hd : s.dev = devReset) (ht : s.power.turned = []) :
    s.turnOff f = (s.pwrEv 0xD002 f 2 (288 + f) (u16 f ++ u32 1)).putTurn { feed := f, since := s.clock } := by
  have ended : s.turnsEnd f = s := by simp [State.turnsEnd, ht, forAll]
  simp [State.turnOff, ended, ht, hd]

theorem turnEnd_within {x : TurnOff} (h : s.clock < x.since + sec 1) : s.turnEnd x = s := by
  rw [State.turnEnd, if_pos h]

/-- A further one within the period is counted in its record. -/
theorem turnOff_again {x : TurnOff} (hd : s.dev = devReset) (ht : s.power.turned = [x]) (hf : x.feed = f)
    (hn : s.clock < x.since + sec 1) :
    s.turnOff f =
      s.putTurn { x with count := satAdd 32 x.count 1, first := if x.count = 0 then s.clock else x.first } := by
  have own : [x].filter (fun e => decide (e.feed = f)) = [x] := by simp [hf]
  have ended : s.turnsEnd f = s := by rw [State.turnsEnd, ht, own, forAll, turnEnd_within hn, forAll]
  simp [State.turnOff, ended, ht, hd, hf]

/-- The record of the only feed that has one. -/
theorem putTurn_only {x : TurnOff} (h : ∀ e ∈ s.power.turned, e.feed = x.feed) :
    s.putTurn x = { s with power := { s.power with turned := [x] } } := by
  have others : s.power.turned.filter (fun e => decide (e.feed ≠ x.feed)) = [] :=
    List.filter_eq_nil_iff.2 fun e he => by simp [h e he]
  rw [State.putTurn, others]

end

/-! Two of a second in Reset: the first is queued, the second counted in the record that the first began. -/

section
variable {s : State} {f : Nat} (hd : s.dev = devReset) (ht : s.power.turned = [])
include hd ht

theorem turnOff_reset_first {y : State} (hy : y = s.pwrEv 0xD002 f 2 (288 + f) (u16 f ++ u32 1)) :
    s.turnOff f = { y with power := { y.power with turned := [{ feed := f, since := s.clock }] } } := by
  rw [turnOff_reset hd ht, hy, putTurn_only (by simp [pwrEv_turned, ht])]

theorem turnOff_reset_second :
    (s.turnOff f).turnOff f = { s.turnOff f with power := { (s.turnOff f).power with
      turned := [{ feed := f, since := s.clock, count := 1, first := s.clock }] } } := by
  have dev : (s.turnOff f).dev = devReset := by
    rw [turnOff_reset_first hd ht rfl]
    exact pwrEv_dev.trans hd
  have turned : (s.turnOff f).power.turned = [{ feed := f, since := s.clock }] := by
    rw [turnOff_reset_first hd ht rfl]
  have clock : (s.turnOff f).clock = s.clock := by
    rw [turnOff_reset_first hd ht rfl]
    exact pwrEv_clock
  have within : (s.turnOff f).clock < s.clock + sec 1 := clock.trans_lt (Nat.lt_add_of_pos_right (by decide))
  have one : satAdd 32 0 1 = 1 := rfl
  rw [turnOff_again dev turned rfl within, putTurn_only (by simp [turned])]
  simp only [clock, one, if_true]

end

/-! What a feed's new state and a rail's fault come to. -/

section
variable {s : State}

/-- A conducting feed whose current reverses blocks (R364). -/
theorem feedGo_blocks {f mv : Nat} (hf : f < 2) (hs : s.feedState f = 2) (hd : s.dev ≠ devReset) :
    s.feedGo f 1 mv = ((s.send (.pin (diodePin f) 0)).set (peStat (1 + f)) 1).ev 0xD001 f 0 (288 + f)
      (u16 f ++ u8 2 ++ u8 1 ++ u16 mv) := by
  have state : ob 0x2000 1 ≠ peStat (1 + f) := by unfold peStat ob; omega
  have runs : ((s.send (.pin (diodePin f) 0)).set (peStat (1 + f)) 1).dev ≠ devReset := by
    rw [State.dev, get_set_ne _ _ state]
    exact hd
  rw [← pwrEv_run runs]
  simp only [State.feedGo, hs]
  rfl

theorem exec_feedReverseCurrent {f mv vor : Nat} (hf : f < 2) (hs : s.feedState f = 2) (hv : mv + 10 < vor) :
    exec (.feedReverseCurrent f mv vor) s = .next (((s.feedGo f 1 mv).count (peStat (9 + f)) 1).turnOff f) :=
  (onUnit_known (decide_eq_true hf)).trans (congrArg Host.Outcome.next (if_pos ⟨hs, hv⟩))

/-- An over-voltage of a rail cuts the rails off (R379). -/
theorem exec_railFault_over {r mv : Nat} (hr : r < 7) (hq : s.seqState = 5) (hv : (railWindow r).2 < 10 * mv) :
    exec (.railFault r true mv) s =
      .next (((((s.count (railKey 9) 1).set (railKey 0x0A) (r + 1)).toReset 3 false).railsOff 6).pwrEv
        0xD040 (r + 1) 3 292 (u16 (r + 1) ++ u8 2 ++ u16 mv)) := by
  show execRailFault r true mv s = _
  simp only [execRailFault, onUnit_known (decide_eq_true hr), hq, hv, decide_true, if_true, and_self]

/-- An under-voltage of VDD_CORE, VDD_IO18 or VDD_IO33 resets the hub (R379). -/
theorem exec_railFault_under {r mv : Nat} (hr : r = 0 ∨ r = 5 ∨ r = 6) (hq : s.seqState = 5)
    (hv : 10 * mv < (railWindow r).1) {y : State}
    (hy : y = ((s.count (railKey 9) 1).set (railKey 0x0A) (r + 1)).toReset 3 false) :
    exec (.railFault r false mv) s =
      .next ((y.set (railKey 8) (clrBit (y.get (railKey 8)) r)).pwrEv 0xD040 (r + 1) 3 292
        (u16 (r + 1) ++ u8 1 ++ u16 mv)) := by
  have known : decide (r < 7) = true := decide_eq_true (by omega)
  subst hy
  show execRailFault r false mv s = _
  simp only [execRailFault, onUnit_known known, hq, hv, hr, Bool.false_eq_true, decide_true, if_true, if_false,
    and_self]

/-- The rails' power-good bits are no object of the domains. -/
theorem goodAgain_get {d k : Nat} (h : k ≠ railKey 8) : (s.goodAgain d).get k = s.get k := by
  rw [State.goodAgain, get_set_ne _ _ h, get_power]

/-- A domain in fault while it is enabled reads on again when its supply returns (R20, R21). -/
theorem exec_domainGoodAgain {d : Nat} (hl : 4 ≤ d) (hu : d < 14) (hf : s.get (domKey d) = 3)
    (he : s.flag (enKey d) = true) : exec (.domainGoodAgain d) s = .next ((s.goodAgain d).domainUp d) := by
  have fault : (s.goodAgain d).get (domKey d) = 3 :=
    (goodAgain_get (by unfold domKey railKey ob; omega)).trans hf
  have enabled : (s.goodAgain d).flag (enKey d) = true :=
    flag_iff.2 ((goodAgain_get (by unfold enKey railKey ob; omega)).trans (flag_iff.1 he))
  exact (onUnit_known (decide_eq_true hu)).trans
    (congrArg Host.Outcome.next ((if_pos hl).trans (if_pos ⟨fault, enabled⟩)))

end

/-- Settles O49: each command's meaning on the branch that its rule names; the reverse turn-offs are those of
turnOff_run, turnOff_reset_first and turnOff_reset_second. -/
theorem powerEntryCommandsComplete : Obligations.PowerEntryCommandsComplete := by
  refine ⟨?_, ?_, ?_, ?_, ?_, ?_, ?_, ?_, ?_, ?_, ?_, ?_, ?_, ?_, ?_, ?_, ?_⟩
  · rintro s y f mv vor hf hne rfl
    exact (onUnit_known (decide_eq_true hf)).trans (congrArg Host.Outcome.next (if_neg hne.symm))
  · rintro s y f mv vor hf hs hv hd ht rfl
    rw [exec_feedReverseCurrent hf hs hv, feedGo_blocks hf hs hd, turnOff_run]
    · have counted : ob 0x2000 1 ≠ peStat (9 + f) := by unfold peStat ob; omega
      have state : ob 0x2000 1 ≠ peStat (1 + f) := by unfold peStat ob; omega
      rw [State.dev, State.count, get_set_ne _ _ counted, ev_get, get_set_ne _ _ state]
      exact hd
    · rw [count_power, ev_power]
      exact ht
  · rintro s y f hd ht rfl
    exact ⟨turnOff_reset_first hd ht rfl, turnOff_reset_second hd ht⟩
  · intro s vor hv
    exact congrArg Host.Outcome.next (if_pos hv)
  · intro s mv ht
    exact congrArg Host.Outcome.next (if_pos ht)
  · rintro s y vor hw ⟨hl, hh⟩ ho rfl
    have steady : ¬ (s.wanted 9 = true ∨ vor < s.get (peCfg 5) ∨ s.get (peCfg 6) ≤ vor ∨
        (s.power.overV = true ∧ s.get (peCfg 6) < vor + 1000)) := by
      simp [hw, ho, hl, hh]
    exact congrArg Host.Outcome.next (if_neg steady)
  · rintro s y vor hv hd rfl
    exact congrArg Host.Outcome.next ((if_pos hv).trans (if_pos hd))
  · intro s vor hv
    exact congrArg Host.Outcome.next (if_pos hv)
  · intro s p ht
    have cleared := commandNow_any s ht (result := 0) (known := [1]) (more := [])
      (eff := fun s => s.clear [peStat 9, peStat 0x0A, peStat 0x0B, peStat 0x0C]) (by decide) rfl
    exact (onPath_ok s rfl (takes_ok s ht)).trans (congrArg _ cleared)
  · intro s hd hw
    exact congrArg Host.Outcome.next (if_pos ⟨hd, by rw [hw]; rfl⟩)
  · rintro s y hb hq hg ht rfl
    exact congrArg Host.Outcome.next (if_pos ⟨hb, hq, hg, ht⟩)
  · rintro s y ⟨hl, hh⟩ ht rfl
    exact congrArg Host.Outcome.next ((if_pos ⟨hl, hh.le, ht⟩).trans (if_neg hh.ne))
  · rintro s y hq ht rfl
    rw [← hq]
    exact congrArg Host.Outcome.next ((if_pos ⟨by omega, hq.le, ht⟩).trans (if_pos hq))
  · rintro s ⟨hl, hh⟩ ht
    exact congrArg Host.Outcome.next (if_pos ⟨hl, hh, ht⟩)
  · rintro s y r mv hr hq hv rfl
    exact exec_railFault_over hr hq hv
  · intro s y r mv hr hq hv hy
    exact exec_railFault_under hr hq hv hy
  · rintro s d ⟨hl, hu⟩ hf he
    exact exec_domainGoodAgain hl hu hf he

end Sys2Proof.Scope
end

section
/-!
SUPPORT. What each step keeps: the front command's answer (R49), and the canonical form of what is stored (R27, R281,
R294).
-/

set_option Elab.async false

namespace Sys2Proof.Scope

open Sys2Proof Sys2Proof.Machine Sys2Proof.Laws

theorem step_cons {s : State} {c : Instr} {rest : List Instr} (h : s.pending = c :: rest) :
    step s = exec c { s with pending := rest } := by
  rw [step, h]

/-- Settles O1. -/
theorem stepRunsTheFrontCommand : Obligations.StepRunsTheFrontCommand := fun _ _ _ => step_cons

/-- Settles O4: each list of State.reset is empty. -/
theorem resetIsCanonical : Obligations.ResetIsCanonical := ⟨rfl, rfl, rfl, Nat.zero_le _⟩

/-- The form speaks of the part, the role, the stores and the journal ring alone. -/
theorem canonical_of_same {s t : State} (c : Canonical s) (part : t.part = s.part) (head : t.head = s.head)
    (objs : t.objs = s.objs) (strs : t.strs = s.strs) (dram : t.dram = s.dram) (jour : t.jour = s.jour) : Canonical t where
  objs := by rw [part, head, objs]; exact c.objs
  strs := by rw [strs]; exact c.strs
  dram := by rw [dram]; exact c.dram
  ring := by rw [jour]; exact c.ring

/-- Taking the front command from the queue touches nothing that the form speaks of. -/
theorem canonical_dequeue {s : State} (c : Canonical s) (rest : List Instr) : Canonical { s with pending := rest } :=
  canonical_of_same c rfl rfl rfl rfl rfl rfl

theorem canonical_tick {s : State} (c : Canonical s) : Canonical s.tick := by
  obtain ⟨_, _, e⟩ := tick_eq s
  rw [e]
  exact canonical_of_same c rfl rfl rfl rfl rfl rfl

/-- Settles O5: every command keeps the form (exec_keeps), and so does what is done in an idle nanosecond (idle_keeps). -/
theorem everyStepKeepsTheCanonicalForm : Obligations.EveryStepKeepsTheCanonicalForm := by
  intro s t c h
  cases hp : s.pending with
  | nil =>
    rw [step_nil hp] at h
    obtain rfl := Host.Outcome.next.inj h
    exact (idle_keeps s).canon (canonical_tick c)
  | cons i rest =>
    rw [step_cons hp] at h
    exact (exec_keeps i _ t h).canon (canonical_dequeue c rest)

end Sys2Proof.Scope
end

section
/-!
SUPPORT. A violation (R41, R42): what it leaves of the objects, the journal and the interrupt latches.
-/

set_option Elab.async false

namespace Sys2Proof.Scope

open Sys2Proof Sys2Proof.Machine Sys2Proof.Laws

theorem ob_inj {i a b : Nat} : ob i a = ob i b ↔ a = b := by
  unfold ob
  omega

theorem setBit_testBit (v i : Nat) : (setBit v i).testBit i = true := by
  simp [setBit, Nat.testBit_or, Nat.testBit_shiftLeft]

/-- A routed source of a domain that is on sets its latch while CI2 runs (R395, R396, R400). -/
theorem raise_latches {s : State} {src : Nat} (hn : src ≠ 0 ∧ src < 384) (hr : s.route src ≠ 0) (ho : s.srcOff src = false)
    (hc : s.irq.stopped = false) : (s.raise src).irq.latch.testBit src = true := by
  have h : ¬(src = 0 ∨ 384 ≤ src ∨ s.route src = 0 ∨ s.srcOff src = true) := by
    simp only [ho, Bool.false_eq_true, or_false, not_or]
    exact ⟨hn.1, by omega, hr⟩
  rw [State.raise, if_neg h, if_neg (by simp [hc])]
  exact setBit_testBit _ _

/-- Arguments of 16 bytes or fewer make one entry (R279). -/
theorem journalAt_jour {s : State} {time code inst sev : Nat} {args : Bytes} (h : args.length ≤ 16) :
    (s.journalAt time code inst sev args).jour = s.jour.add
      { time, code, inst, sev, flags := s.jFlags, arrival := s.clock, args := fitBytes 16 args } := by
  rw [State.journalAt, argParts, if_pos h]
  rfl

theorem evAt_jour {s : State} {time code inst sev src : Nat} {args : Bytes} (h : args.length ≤ 16) :
    (s.evAt time code inst sev src args).jour = s.jour.add
      { time, code, inst, sev, flags := s.jFlags, arrival := s.clock, args := fitBytes 16 args } := by
  rw [State.evAt, raise_jour, journalAt_jour h]

theorem path_code_lt (p : Path) : p.code < 4 := by
  cases p <;> simp [Path.code]

/-- The violation counters are 32 bits wide (R42). -/
theorem objSize_violations {m : Nat} (h : 1 ≤ m ∧ m ≤ 12) : objSize (ob 0x1F80 m / 256) (ob 0x1F80 m % 256) = 4 := by
  obtain ⟨hl, hu⟩ := h
  interval_cases m <;> decide

/-- A 32-bit counter that stops at its maximum counts one more. -/
theorem countSat_get {s : State} {k : Nat} (h : objSize (k / 256) (k % 256) = 4) (n : Nat) :
    (s.countSat k 1).get n = if n = k then min (s.get k + 1) 0xFFFFFFFF else s.get n := by
  rw [State.countSat, h, get_set]
  rfl

section
variable (s : State) (p : Path) (i sub k : Nat)

/-- The objects of 0x1F80 as a violation sets them, before it is journalled (R42). -/
def violated : State :=
  (((s.countSat (ob 0x1F80 1) 1).countSat (ob 0x1F80 (1 + k)) 1).countSat (ob 0x1F80 (9 + p.code)) 1).setAll
    [(ob 0x1F80 0x0D, plainIndex i), (ob 0x1F80 0x0E, sub), (ob 0x1F80 0x0F, k), (ob 0x1F80 0x10, s.station)]

/-- The bytes of R41's table that the entry carries. -/
def violationArgs : Bytes :=
  u16 (plainIndex i) ++ u8 sub ++ u8 k ++ u8 p.code ++ u8 (s.session p).rights ++
    u16 (if (s.session p).rights = 0 then 0 else (s.session p).id) ++ u32 ((violated s p i sub k).get (ob 0x1F80 1))

theorem violate_eq : s.violate p i sub k =
    (violated s p i sub k).evAt s.station 0x1101 p.code (if k = 3 then 2 else 1) 4 (violationArgs s p i sub k) := rfl

variable {s p i sub k}

/-- The counters of the whole, of the kind and of the path are three objects. -/
theorem violated_get (hk : 1 ≤ k ∧ k ≤ 7) (n : Nat) : (violated s p i sub k).get n =
    if n = ob 0x1F80 0x10 then s.station else if n = ob 0x1F80 0x0F then k else if n = ob 0x1F80 0x0E then sub
    else if n = ob 0x1F80 0x0D then plainIndex i
    else if n = ob 0x1F80 1 ∨ n = ob 0x1F80 (1 + k) ∨ n = ob 0x1F80 (9 + p.code) then min (s.get n + 1) 0xFFFFFFFF
    else s.get n := by
  have hp := path_code_lt p
  simp only [violated, State.setAll, get_set, countSat_get (objSize_violations (m := 1) (by omega)),
    countSat_get (objSize_violations (m := 1 + k) (by omega)),
    countSat_get (objSize_violations (m := 9 + p.code) (by omega))]
  simp only [ob_inj]
  grind

theorem violate_get (n : Nat) : (s.violate p i sub k).get n = (violated s p i sub k).get n := by
  rw [violate_eq, evAt_get]

theorem violationArgs_length : (violationArgs s p i sub k).length = 12 := by
  simp [violationArgs, u8, u16, u32, length_leBytes]

theorem violationArgs_fit : fitBytes 16 (violationArgs s p i sub k) = violationArgs s p i sub k ++ zeros 4 := rfl

theorem violated_route (hk : 1 ≤ k ∧ k ≤ 7) : (violated s p i sub k).route 4 = s.route 4 := by
  rw [State.route, ← violate_get]
  exact violateAt_get (by omega) (by decide)

theorem violated_jour : (violated s p i sub k).jour = s.jour := by simp [violated]

theorem violated_irq : (violated s p i sub k).irq = s.irq := by simp [violated]

theorem violate_jour : (s.violate p i sub k).jour = s.jour.add
    { time := s.station, code := 0x1101, inst := p.code, sev := if k = 3 then 2 else 1,
      flags := (violated s p i sub k).jFlags, arrival := (violated s p i sub k).clock,
      args := violationArgs s p i sub k ++ zeros 4 } := by
  rw [violate_eq, evAt_jour (by rw [violationArgs_length]; decide), violated_jour, violationArgs_fit]

theorem srcOff_violation : s.srcOff 4 = false := by simp [State.srcOff]

/-- A violation sets source 4 (R41). -/
theorem violate_latches (hk : 1 ≤ k ∧ k ≤ 7) (hr : s.route 4 ≠ 0) (hs : s.irq.stopped = false) :
    (s.violate p i sub k).irq.latch.testBit 4 = true := by
  rw [violate_eq]
  refine raise_latches (by decide) ?_ srcOff_violation ?_
  · rwa [State.route, journalAt_get, ← State.route, violated_route hk]
  · rwa [journalAt_irq, violated_irq]

end

/-- A write that breaks a rule (R37, R41). -/
theorem write_refused {s : State} {p : Path} {i sub k : Nat} {data : Bytes} {more : List Nat} {eff : State → State}
    (hr : s.reach = true) (hj : s.judgeWrite p i sub data more = some k) :
    s.write p i sub data more eff = (s.touch p).violate p i sub k := by
  simp [State.write, hr, hj]

/-- A write that nothing refuses has its effect (R37, R39). -/
theorem write_done {s : State} {p : Path} {i sub : Nat} {data : Bytes} {more : List Nat} {eff : State → State}
    (hr : s.reach = true) (hj : s.judgeWrite p i sub data more = none) : s.write p i sub data more eff = eff (s.touch p) := by
  simp [State.write, hr, hj]

/-- An object outside the tables is missing (R37). -/
theorem judgeWrite_outside {s : State} {p : Path} {i sub : Nat} {data : Bytes} {more : List Nat} (h : rowAt i sub = none) :
    s.judgeWrite p i sub data more = some 1 := by
  rw [State.judgeWrite, h]

/-- A violation's objects are those of violated_get. -/
theorem violate_objects {s : State} {p : Path} {i sub k : Nat} (hk : 1 ≤ k ∧ k ≤ 7) :
    (s.violate p i sub k).get (ob 0x1F80 1) = min (s.get (ob 0x1F80 1) + 1) 0xFFFFFFFF ∧
      (s.violate p i sub k).get (ob 0x1F80 (1 + k)) = min (s.get (ob 0x1F80 (1 + k)) + 1) 0xFFFFFFFF ∧
      (s.violate p i sub k).get (ob 0x1F80 (9 + p.code)) = min (s.get (ob 0x1F80 (9 + p.code)) + 1) 0xFFFFFFFF ∧
      (s.violate p i sub k).get (ob 0x1F80 0x0D) = plainIndex i ∧ (s.violate p i sub k).get (ob 0x1F80 0x0E) = sub ∧
      (s.violate p i sub k).get (ob 0x1F80 0x0F) = k ∧ (s.violate p i sub k).get (ob 0x1F80 0x10) = s.station ∧
      ∀ n, (∀ m, 1 ≤ m → m ≤ 0x10 → n ≠ ob 0x1F80 m) → (s.violate p i sub k).get n = s.get n := by
  have hp := path_code_lt p
  simp only [violate_get, violated_get hk]
  refine ⟨by simp [ob_inj], ?_, ?_, by simp [ob_inj], by simp [ob_inj], by simp [ob_inj], by simp, fun n hn => ?_⟩
  · simp only [ob_inj]
    grind
  · simp only [ob_inj]
    grind
  · have h (m : Nat) (hl : 1 ≤ m) (hu : m ≤ 0x10) : ¬ n = ob 0x1F80 m := hn m hl hu
    simp [h 0x10, h 0x0F, h 0x0E, h 0x0D, h 1, h (1 + k) (by omega) (by omega), h (9 + p.code) (by omega) (by omega)]

/-- Its entry is the one of R41's table. -/
theorem violate_journals {s : State} {p : Path} {i sub k : Nat} (hk : 1 ≤ k ∧ k ≤ 7) :
    ∃ e, (s.violate p i sub k).jour = s.jour.add e ∧ e.code = 0x1101 ∧ e.sev = (if k = 3 then 2 else 1) ∧
      e.time = s.station ∧ e.args = u16 (plainIndex i) ++ u8 sub ++ u8 k ++ u8 p.code ++ u8 (s.session p).rights ++
        u16 (if (s.session p).rights = 0 then 0 else (s.session p).id) ++
        u32 (min (s.get (ob 0x1F80 1) + 1) 0xFFFFFFFF) ++ zeros 4 := by
  have total : (violated s p i sub k).get (ob 0x1F80 1) = min (s.get (ob 0x1F80 1) + 1) 0xFFFFFFFF :=
    (violate_get _).symm.trans (violate_objects hk).1
  refine ⟨_, violate_jour, rfl, rfl, rfl, ?_⟩
  rw [violationArgs, total]

/-- Settles O9. -/
theorem violationIsCountedAndJournalled : Obligations.ViolationIsCountedAndJournalled := by
  refine ⟨fun s p i sub k hk => ?_, fun s p i sub k data more eff => write_refused, fun s p i sub data hp hr hi hn => ?_⟩
  · obtain ⟨total, kind, path, index, subindex, last, time, others⟩ := violate_objects (s := s) (p := p) (i := i) (sub := sub) hk
    exact ⟨total, kind, path, index, subindex, last, time, others, violate_journals hk, violate_latches hk⟩
  · rw [exec, execOdWrite, onPath_ok s (by simpa using hi) hp, State.odWrite, hn]
    exact congrArg _ (write_refused hr (judgeWrite_outside hn))

end Sys2Proof.Scope
end

section
/-!
SUPPORT. Command blocks (R56, R57): what accepting, committing, failing and refusing a command leave in them.
-/

set_option Elab.async false

namespace Sys2Proof.Scope

open Sys2Proof Sys2Proof.Machine Sys2Proof.Laws

section
variable {s : State} {p : Path} {i v r : Nat}

/-- Where the object's own row refuses nothing, the kinds that the family adds decide (R37). -/
theorem judgeWrite_more {sub : Nat} {data : Bytes} (h : s.judgeWrite p i sub data [] = none) (more : List Nat) :
    s.judgeWrite p i sub data more = lowest more := by
  unfold State.judgeWrite at *
  cases hr : rowAt i sub with
  | none => simp [hr] at h
  | some row =>
    simp only [hr, List.append_nil, lowest_none] at h ⊢
    rw [h, List.nil_append]

theorem get_cmds (l : List (Nat × CmdRec)) (n : Nat) : ({ s with cmds := l } : State).get n = s.get n := rfl

theorem cmdAccept_object (hs : objSize (ob i 0xF5 / 256) (ob i 0xF5 % 256) = 2) (n : Nat) : (s.cmdAccept i v p).get n =
    if n = ob i 0xF5 then (s.get (ob i 0xF5) + 1) % 65536 else if n = ob i 0xF4 then 0 else if n = ob i 0xF3 then 0
    else if n = ob i 0xF2 then 1 else s.get n := by
  rw [State.cmdAccept, State.countWrap, hs, get_set]
  simp only [State.setAll, get_set, get_cmds, ob_inj, Nat.reduceEqDiff, reduceIte]
  rfl

theorem cmdAccept_cmd : (s.cmdAccept i v p).cmd i = { value := v, path := p, at_ := s.station } := by
  simp [State.cmdAccept, State.cmd]

theorem cmdAccept_jour : (s.cmdAccept i v p).jour = s.jour := by simp [State.cmdAccept]

theorem cmdCommit_object (n : Nat) : (s.cmdCommit i r).get n =
    if n = ob i 0xF4 then s.station else if n = ob i 0xF3 then r else if n = ob i 0xF2 then 2 else s.get n := by
  simp only [State.cmdCommit, evAt_get, State.setAll, get_set]

theorem cmdFail_object (n : Nat) : (s.cmdFail i r).get n =
    if n = ob i 0xF3 then r else if n = ob i 0xF2 then 5 else s.get n := by
  simp only [State.cmdFail, State.setAll, get_set]

/-- A block that runs a command takes no further one: kind 6, and a value that its owner does not define is only a
higher kind (R37, R56). -/
theorem cmdKinds_busy {states known more : List Nat} (hb : s.cmdStatus i = 1) (hm : more = [] ∨ more = [6] ∨ more = [7]) :
    lowest (s.cmdKinds i v states known ++ more) = some 6 := by
  rw [State.cmdKinds, hb]
  obtain rfl | rfl | rfl := hm <;> cases hk : known.contains v <;> rfl

theorem command_busy {states known more : List Nat} {eff : State → State} (h : s.allows p i 0xF0 v)
    (hb : s.cmdStatus i = 1) (hm : more = [] ∨ more = [6] ∨ more = [7]) :
    s.command p i v states known more eff = (s.touch p).violate p i 0xF0 6 := by
  rw [State.command, writeNum_refused s (allows_reach s h)]
  rw [judgeWrite_more (allows_kinds s h), cmdKinds_busy hb hm]

end

/-- Settles O13. -/
theorem commandBlockAcceptsCommitsAndFails : Obligations.CommandBlockAcceptsCommitsAndFails := by
  refine ⟨fun s p i v known more eff ht hv hm hs => ?_, fun s i r => ?_, fun s p i v states known more eff ha hb hm hi => ?_⟩
  · have get := cmdAccept_object (s := s.touch p) (v := v) (p := p) hs
    simp only [touch_get] at get
    refine ⟨(s.touch p).cmdAccept i v p, command_any s ht hv hm, ?_, ?_, ?_, ?_, fun n hn => ?_, ?_, fun hl => ?_⟩
    · simp [get, ob_inj]
    · simp [get, ob_inj]
    · simp [get, ob_inj]
    · simp [get]
    · rw [cmdAccept_get _ hn, touch_get]
    · rw [cmdAccept_cmd]
    · rw [cmdAccept_jour, touch_jour s hl]
  · simp only [cmdCommit_object, cmdFail_object]
    exact ⟨by simp [ob_inj], by simp [ob_inj], by simp, by simp [ob_inj], by simp [ob_inj], by simp, by simp [State.cmdFail],
      (keeps_State_cmdCommit s i r (.refl _ s) (sub_self _)).same .keys rfl⟩
  · refine ⟨command_busy ha hb hm, fun m hl hu => ?_⟩
    have hx : ob i m / 256 ≠ 0x1F80 := by unfold ob; omega
    exact (violateAt_get (by decide) hx).trans (touch_get s p _)

end Sys2Proof.Scope
end

section
/-!
SUPPORT. Ski passes (R33-R36, R41): what the operations on sessions and lockouts leave of them, and the commands of
sessions, challenges, responses, lockouts and the violation counters.
-/

set_option Elab.async false

namespace Sys2Proof.Scope

open Sys2Proof Sys2Proof.Machine Sys2Proof.Laws

/-! Sessions and lockouts after each update. -/

section
variable {s t u : State} {p q : Path}

theorem session_of_sessions (h : t.sessions = s.sessions) : t.session q = s.session q := by
  rw [State.session, h, State.session]

theorem lockout_of_lockouts (h : t.lockouts = s.lockouts) : t.lockout q = s.lockout q := by
  rw [State.lockout, h, State.lockout]

@[simp] theorem updSession_session_same {f : Session → Session} : (s.updSession p f).session p = f (s.session p) :=
  get_put_same _ _ _ _

theorem updSession_session_ne {f : Session → Session} (h : q.held ≠ p.held) :
    (s.updSession p f).session q = s.session q := get_put_ne _ _ h _ _

@[simp] theorem updSession_lockout {f : Session → Session} : (s.updSession p f).lockout q = s.lockout q := rfl

@[simp] theorem setLockout_lockout_same {x : Lockout} : (s.setLockout p x).lockout p = x := get_put_same _ _ _ _

theorem setLockout_lockout_ne {x : Lockout} (h : q.code ≠ p.code) : (s.setLockout p x).lockout q = s.lockout q :=
  get_put_ne _ _ h _ _

@[simp] theorem setLockout_session {x : Lockout} : (s.setLockout p x).session q = s.session q := rfl

@[simp] theorem ev_session {code inst sev src : Nat} {args : Bytes} :
    (s.ev code inst sev src args).session q = s.session q := session_of_sessions (ev_sessions ..)

@[simp] theorem ev_lockout {code inst sev src : Nat} {args : Bytes} :
    (s.ev code inst sev src args).lockout q = s.lockout q := lockout_of_lockouts (ev_lockouts ..)

@[simp] theorem refusedEv_session {rights cause : Nat} : (s.refusedEv p rights cause).session q = s.session q := ev_session

@[simp] theorem refusedEv_lockout {rights cause : Nat} : (s.refusedEv p rights cause).lockout q = s.lockout q := ev_lockout

theorem refusedEv_lockouts {rights cause : Nat} : (s.refusedEv p rights cause).lockouts = s.lockouts := ev_lockouts ..

/-! An access on a path. -/

theorem overLimit_holds (h : s.overLimit p ≠ 0) : (s.session p).rights ≠ 0 := fun e => h (if_pos e)

/-- A session that holds rights loses them at its end and nothing else (R36). -/
theorem endSession_held {c : Nat} {g : Path} (h : (s.session p).rights ≠ 0) : s.endSession p c g =
    (s.updSession p fun x => { x with rights := 0 }).ev 0x1122 g.code 1 5
      (u8 p.code ++ u8 p.slot ++ u8 (s.session p).rights ++ u8 (s.session p).grantCred ++ u16 (s.session p).id ++ u8 c) :=
  if_neg h

theorem endSession_session {c : Nat} {g : Path} : (s.endSession p c g).session p = { s.session p with rights := 0 } := by
  by_cases h : (s.session p).rights = 0
  · rw [show s.endSession p c g = s from if_pos h, ← h]
  · rw [endSession_held h, ev_session, updSession_session_same]

theorem settleSession_session : (s.settleSession p).session p = { s.session p with rights := s.rightsOf p } := by
  unfold State.settleSession State.rightsOf
  split
  · rfl
  · exact endSession_session

theorem ciWake_session : s.ciWake.session q = s.session q := session_of_sessions (ciWake_sessions s)

/-- An access carries the rights that its path still holds, and starts the idle time anew (R30, R34). -/
theorem touch_session_same : (s.touch p).session p =
    { s.session p with rights := s.rightsOf p, used := true, lastAccess := s.clock } := by
  have hr : s.ciWake.rightsOf p = s.rightsOf p := by
    rw [State.rightsOf, ciWake_overLimit, ciWake_session, State.rightsOf]
  have hc : (s.ciWake.settleSession p).clock = s.clock :=
    (keeps_State_settleSession _ p (.refl _ s.ciWake) (sub_self _)).clock.trans (ciWake_clock s)
  rw [State.touch, updSession_session_same, settleSession_session, hr, ciWake_session, hc]

@[simp] theorem touch_lockout : (s.touch p).lockout q = s.lockout q := lockout_of_lockouts (touch_lockouts s p)

@[simp] theorem touch_lockedOut : (s.touch p).lockedOut q = s.lockedOut q := by
  rw [State.lockedOut, touch_lockout, touch_clock, State.lockedOut]

@[simp] theorem touch_liveChallenge : (s.touch p).liveChallenge p = s.liveChallenge p := by
  rw [State.liveChallenge, touch_session_same, touch_clock, State.liveChallenge]

@[simp] theorem touch_credential (c : Nat) : (s.touch p).credential c = s.credential c := by
  simp [State.credential, State.slotValid]

@[simp] theorem touch_answerTo (chal rights c : Nat) : (s.touch p).answerTo p chal rights c = s.answerTo p chal rights c := by
  simp [State.answerTo, State.key]

/-! The engine's answers to a response (R35). -/

theorem lockSettle_open (h : (s.lockout p).since = none) : s.lockSettle p = s := by
  simp [State.lockSettle, h]

theorem lockSettle_locked (h : s.lockedOut p = true) : s.lockSettle p = s := by
  simp [State.lockSettle, h]

theorem lockedOut_open (h : (s.lockout p).since = none) : s.lockedOut p = false := by
  rw [State.lockedOut, h]

theorem respond_locked {tk : Nat} {data : Bytes} (h : s.lockedOut p = true) :
    s.respond p tk data = s.refusedEv p (s.session p).request 3 := by
  simp [State.respond, lockSettle_locked h, h]

theorem respond_unasked {tk : Nat} {data : Bytes} (h : (s.lockout p).since = none) (hc : s.liveChallenge p = none) :
    s.respond p tk data =
      (s.updSession p fun x => { x with chal := none }).refusedEv p (s.session p).request 2 := by
  simp [State.respond, lockSettle_open h, lockedOut_open h, hc]

/-- The response proves the credential for the challenge, within its MaxRights (R35, R349). -/
def Proves (s : State) (p : Path) (chal : Nat) (data : Bytes) : Prop :=
  s.credential (s.session p).cred = true ∧ (s.session p).chalRights ≤ s.get (slotKey (112 + (s.session p).cred) 0x0D) ∧
    data = s.answerTo p chal (s.session p).chalRights (s.session p).cred

theorem respond_right {tk chal : Nat} {data : Bytes} (h : (s.lockout p).since = none) (hc : s.liveChallenge p = some chal)
    (hr : Proves s p chal data) : s.respond p tk data = s.grant p tk := by
  simp only [State.respond, lockSettle_open h, lockedOut_open h, hc]
  exact if_pos hr

theorem respond_wrong {tk chal : Nat} {data : Bytes} (h : (s.lockout p).since = none) (hc : s.liveChallenge p = some chal)
    (hw : ¬ Proves s p chal data) : s.respond p tk data = s.refuseSession p := by
  simp only [State.respond, lockSettle_open h, lockedOut_open h, hc]
  exact if_neg hw

/-- An access does not touch what a response is checked against. -/
theorem touch_proves {chal : Nat} {data : Bytes} : Proves (s.touch p) p chal data ↔ Proves s p chal data := by
  simp [Proves, touch_session_same]

/-- A wrong response ends the challenge and the session's rights (R35 step 4). -/
theorem refuseSession_session : (s.refuseSession p).session p = { s.session p with chal := none, rights := 0 } := by
  unfold State.refuseSession
  dsimp only
  split <;> simp

/-- It counts one refusal; the fifth locks the path out (R36). -/
theorem refuseSession_lockout : (s.refuseSession p).lockout p =
    { refusals := (s.lockout p).refusals + 1, since := if 5 ≤ (s.lockout p).refusals + 1 then some s.clock else none } := by
  have hc (x : Session → Session) (l : Lockout) (r c : Nat) :
      (((s.updSession p x).setLockout p l).refusedEv p r c).clock = s.clock := ev_clock ..
  unfold State.refuseSession
  dsimp only
  split <;> simp [hc]

/-! What an access leaves of the sessions and lockouts of other paths (R33). -/

/-- The sessions of other paths and slots and the lockouts of other paths are as before. -/
def SparesOthers (p : Path) (s t : State) : Prop :=
  ∀ q : Path, q.held ≠ p.held → t.session q = s.session q ∧ (q.code ≠ p.code → t.lockout q = s.lockout q)

theorem SparesOthers.refl (p : Path) (s : State) : SparesOthers p s s := fun _ _ => ⟨rfl, fun _ => rfl⟩

theorem SparesOthers.trans (h : SparesOthers p s t) (k : SparesOthers p t u) : SparesOthers p s u :=
  fun q hq => ⟨(k q hq).1.trans (h q hq).1, fun hc => ((k q hq).2 hc).trans ((h q hq).2 hc)⟩

theorem SparesOthers.of_same (hs : t.sessions = s.sessions) (hl : t.lockouts = s.lockouts) : SparesOthers p s t :=
  fun _ _ => ⟨session_of_sessions hs, fun _ => lockout_of_lockouts hl⟩

theorem SparesOthers.updSession {f : Session → Session} (h : SparesOthers p s t) : SparesOthers p s (t.updSession p f) :=
  h.trans fun _ hq => ⟨updSession_session_ne hq, fun _ => rfl⟩

theorem SparesOthers.setLockout {x : Lockout} (h : SparesOthers p s t) : SparesOthers p s (t.setLockout p x) :=
  h.trans fun _ _ => ⟨rfl, setLockout_lockout_ne⟩

theorem SparesOthers.sessionCounter {n : Nat} (h : SparesOthers p s t) : SparesOthers p s { t with sessionCounter := n } :=
  h.trans (.of_same rfl rfl)

theorem SparesOthers.ev {code inst sev src : Nat} {args : Bytes} (h : SparesOthers p s t) :
    SparesOthers p s (t.ev code inst sev src args) :=
  h.trans (.of_same (ev_sessions ..) (ev_lockouts ..))

theorem SparesOthers.refusedEv {rights cause : Nat} (h : SparesOthers p s t) : SparesOthers p s (t.refusedEv p rights cause) :=
  h.ev

theorem SparesOthers.settleSession (h : SparesOthers p s t) : SparesOthers p s (t.settleSession p) := by
  unfold State.settleSession
  split
  · exact h
  · next hl =>
    rw [endSession_held (overLimit_holds hl)]
    exact h.updSession.ev

theorem sparesOthers_touch : SparesOthers p s (s.touch p) := by
  unfold State.touch
  have wake : SparesOthers p s s.ciWake := .of_same (ciWake_sessions s) (ciWake_lockouts s)
  exact wake.settleSession.updSession

theorem sparesOthers_violate {i sub k : Nat} : SparesOthers p s (s.violate p i sub k) :=
  .of_same (violate_sessions ..) (violate_lockouts ..)

theorem sparesOthers_lockSettle : SparesOthers p s (s.lockSettle p) := by
  unfold State.lockSettle
  split
  · exact (SparesOthers.refl p s).setLockout
  · exact .refl p s

theorem sparesOthers_grant {tk : Nat} : SparesOthers p s (s.grant p tk) := by
  unfold State.grant
  dsimp only
  exact (SparesOthers.refl p s).setLockout.sessionCounter.updSession.ev

theorem sparesOthers_refuseSession : SparesOthers p s (s.refuseSession p) := by
  unfold State.refuseSession
  dsimp only
  split
  · exact (SparesOthers.refl p s).updSession.setLockout.refusedEv.setLockout.ev
  · exact (SparesOthers.refl p s).updSession.setLockout.refusedEv

theorem sparesOthers_respond {tk : Nat} {data : Bytes} : SparesOthers p s (s.respond p tk data) := by
  unfold State.respond
  refine sparesOthers_lockSettle.trans ?_
  generalize s.lockSettle p = t
  have r := SparesOthers.refl p t
  dsimp only
  split
  · exact r.refusedEv
  · split
    · exact r.updSession.refusedEv
    · split
      · exact sparesOthers_grant
      · exact sparesOthers_refuseSession

/-- Whatever a write comes to, an effect that spares the other paths leaves them as they were. -/
theorem sparesOthers_write {i sub : Nat} {data : Bytes} {more : List Nat} {eff : State → State}
    (h : SparesOthers p (s.touch p) (eff (s.touch p))) : SparesOthers p s (s.write p i sub data more eff) := by
  unfold State.write
  split
  · split
    · exact sparesOthers_touch.trans sparesOthers_violate
    · exact sparesOthers_touch.trans h
  · exact .refl p s

theorem onPath_next {known : Bool} (h : onPath p known s u = .next t) : t = u ∨ t = s := by
  unfold onPath at h
  grind

/-! SessionResponse (R35). -/

theorem hasTrunk_lt {n : Nat} {x : Part} (h : x.hasTrunk n = true) : n < 4 := by
  have := hasTrunk_full h
  exact of_decide_eq_true this

/-- A response that the engine takes. -/
theorem exec_sessionResponse {tk : Nat} {data : Bytes} (hp : p.ok = true ∧ s.part.hasTrunk tk = true) (hr : s.reach = true)
    (hj : s.judgeWrite p 0x1100 4 data [] = none) :
    exec (.sessionResponse p tk data) s = .next ((s.touch p).respond p tk data) := by
  rw [exec, execSessionResponse, onPath_ok s (decide_eq_true (hasTrunk_lt hp.2)) hp.1, write_done hr hj]

end

/-- Settles O18. -/
theorem refusedResponsesCountTowardsLockout : Obligations.RefusedResponsesCountTowardsLockout := by
  refine ⟨fun s p tk chal data hp hr hj ho hc hw => ?_, fun s p tk data hp hr hj h => ?_, fun s t p q tk data he => ?_⟩
  · refine ⟨(s.touch p).refuseSession p, ?_, ?_, ?_, ?_, ?_⟩
    · rw [exec_sessionResponse hp hr hj, respond_wrong (by simpa) (by simpa) (touch_proves.not.mpr hw)]
    · rw [refuseSession_session]
    · rw [refuseSession_session]
    · rw [refuseSession_lockout, touch_lockout]
    · rw [refuseSession_lockout, touch_lockout, touch_clock]
  · refine ⟨_, exec_sessionResponse hp hr hj, ?_⟩
    obtain hl | ⟨ho, hc⟩ := h
    · rw [respond_locked (by simpa), refusedEv_session, touch_session_same, refusedEv_lockouts, touch_lockouts]
      exact ⟨rfl, rfl⟩
    · rw [respond_unasked (by simpa) (by simpa), refusedEv_session, updSession_session_same, touch_session_same,
        refusedEv_lockouts, updSession_lockouts, touch_lockouts]
      exact ⟨rfl, rfl⟩
  · rw [exec, execSessionResponse] at he
    obtain rfl | rfl := onPath_next he
    · exact sparesOthers_write sparesOthers_respond q
    · exact SparesOthers.refl p _ q

end Sys2Proof.Scope
end

section
/-!
SUPPORT. The commands of sessions, challenges, lockouts and the violation counters (R35, R36, R41, R42).
-/

set_option Elab.async false

namespace Sys2Proof.Scope

open Sys2Proof Sys2Proof.Machine Sys2Proof.Laws

section
variable {s : State} {p : Path}

/-- A write that the dictionary permits on a path that the hub has. -/
theorem onPath_writeNum {i sub v : Nat} {known : Bool} {eff : State → State} (hk : known = true) (ha : s.allows p i sub v) :
    onPath p known s (s.writeNum p i sub v [] eff) = .next (eff (s.touch p)) := by
  rw [onPath_ok s hk (allows_ok s ha), writeNum_done s ha rfl]

/-- A request draws a challenge while the path is not locked out and the TRNG runs (R35, R356). -/
theorem askSession_draws {v : Nat} (hv : v ≠ 0) (hl : s.lockedOut p = false) (ht : s.get (ob 0x4000 7) ≠ 1) :
    s.askSession p v = (s.updSession p fun x => { x with request := v }).draw.2.updSession p
      fun x => { x with chal := some (Config.trng s.freeCount % 2 ^ 128, s.clock), chalRights := v } := by
  have hb : ¬ ((s.updSession p fun x => { x with request := v }).lockedOut p ||
      decide ((s.updSession p fun x => { x with request := v }).get (ob 0x4000 7) = 1)) = true := by
    rw [Bool.or_eq_true, decide_eq_true_iff, not_or, Bool.not_eq_true]
    exact ⟨hl, ht⟩
  rw [State.askSession]
  dsimp only
  rw [if_neg hv, if_neg hb]
  rfl

theorem draw_session {q : Path} : s.draw.2.session q = s.session q := rfl

theorem askSession_session {v : Nat} (hv : v ≠ 0) (hl : s.lockedOut p = false) (ht : s.get (ob 0x4000 7) ≠ 1) :
    (s.askSession p v).session p = { s.session p with
      request := v, chal := some (Config.trng s.freeCount % 2 ^ 128, s.clock), chalRights := v } := by
  rw [askSession_draws hv hl ht, updSession_session_same, draw_session, updSession_session_same]

theorem askSession_freeCount {v : Nat} (hv : v ≠ 0) (hl : s.lockedOut p = false) (ht : s.get (ob 0x4000 7) ≠ 1) :
    (s.askSession p v).freeCount = s.freeCount + 1 := by
  rw [askSession_draws hv hl ht]
  rfl

/-- A request sets no object. -/
theorem askSession_get {v : Nat} (k : Nat) : (s.askSession p v).get k = s.get k :=
  (keeps_State_askSession s p v (.refl _ s) (sub_self _)).get rfl rfl k

theorem askSession_ends : s.askSession p 0 = (s.updSession p fun x => { x with request := 0 }).endSession p 1 := by
  rw [State.askSession]
  exact if_pos rfl

/-- A right response grants the rights that its challenge was drawn for (R35 step 3). -/
theorem grant_session {tk : Nat} : (s.grant p tk).session p =
    { s.session p with
      chal := none, rights := (s.session p).chalRights, id := s.sessionCounter % 65535 + 1, start := s.station,
      granted := s.clock, grantCred := (s.session p).cred, trunk := tk } := by
  rw [State.grant]
  dsimp only
  rw [ev_session, updSession_session_same]
  rfl

/-- A held session's limits (R36). -/
theorem overLimit_idle (hr : (s.session p).rights ≠ 0) (hi : (s.session p).lastAccess + msec (s.get (ob 0x1101 1)) < s.clock) :
    s.overLimit p = 2 := by
  simp [State.overLimit, hr, hi]

theorem liveChallenge_old {v c : Nat} (h : (s.session p).chal = some (v, c)) (ho : c + sec 10 ≤ s.clock) :
    s.liveChallenge p = none := by
  simp [State.liveChallenge, h, ho]

theorem lockSettle_over {c : Nat} (h : (s.lockout p).since = some c) (ho : c + sec 60 ≤ s.clock) :
    s.lockSettle p = s.setLockout p {} := by
  simp [State.lockSettle, State.lockedOut, h, ho]

theorem clearViolations_get (k : Nat) : s.clearViolations.get k =
    if k ∈ (upTo 12).map fun n => ob 0x1F80 (n + 1) then 0 else s.get k := get_clear ..

theorem mem_violations {k : Nat} : (k ∈ (upTo 12).map fun n => ob 0x1F80 (n + 1)) ↔ ∃ n, (1 ≤ n ∧ n ≤ 12) ∧ k = ob 0x1F80 n := by
  simp only [upTo, List.mem_map, List.mem_range]
  constructor
  · rintro ⟨n, hn, rfl⟩
    exact ⟨n + 1, by omega, rfl⟩
  · rintro ⟨n, hn, rfl⟩
    exact ⟨n - 1, by omega, by rw [Nat.sub_add_cancel hn.1]⟩

end

/-- Settles O24. -/
theorem sessionCommandsComplete : Obligations.SessionCommandsComplete := by
  refine ⟨fun s p v ha hv ho hl ht => ?_, fun s p ha hr => ?_, fun s p tk data chal hp hk hr hj _ ho hc hcred hmax hd => ?_,
    fun s p c v hp hc ho => ?_, fun s p hp hr hi => ?_, fun s p hp hr hi => ?_, fun s p sub v hs ha => ?_,
    fun s p c hp hc ho => ?_, fun s p ha => ?_⟩
  · refine ⟨(s.touch p).askSession p v, onPath_writeNum rfl ha, ?_⟩
    rw [askSession_session hv (by simpa) (by simpa), touch_session s ho, touch_freeCount, touch_clock,
      askSession_freeCount hv (by simpa) (by simpa), touch_freeCount]
    exact ⟨rfl, rfl, rfl, rfl, rfl, fun k => (askSession_get k).trans (touch_get s p k)⟩
  · refine ⟨(s.touch p).askSession p 0, onPath_writeNum rfl ha, ?_⟩
    rw [askSession_ends, endSession_session, updSession_session_same]
    exact ⟨rfl, rfl, fun k => by rw [endSession_get, updSession_get, touch_get]⟩
  · have right := touch_proves.mpr (⟨hcred, hmax, hd⟩ : Proves s p chal data)
    rw [exec_sessionResponse ⟨hp, hk⟩ hr hj, respond_right (by simpa) (by simpa) right, grant_session, touch_session_same]
    exact ⟨rfl, rfl, rfl, touch_clock s p⟩
  · rw [exec, execChallengeExpired, onPath_ok s rfl hp, liveChallenge_old hc ho, hc]
    rfl
  · rw [exec, execSessionIdleTimeout, onPath_ok s rfl hp, if_pos (overLimit_idle hr hi), endSession_held hr]
  · rw [exec, execSessionAgeTimeout, onPath_ok s rfl hp]
    dsimp only
    rw [if_pos ⟨hr, hi⟩, endSession_held hr]
  · exact onPath_writeNum (decide_eq_true hs) ha
  · rw [exec, execLockoutEnd, onPath_ok s rfl hp, lockSettle_over hc ho]
    rfl
  · refine ⟨(s.touch p).clearViolations, onPath_writeNum rfl ha, fun n hl hu => ?_, fun k hk => ?_⟩
    · rw [clearViolations_get, if_pos (mem_violations.mpr ⟨n, ⟨hl, hu⟩, rfl⟩)]
    · rw [clearViolations_get, if_neg, touch_get]
      rw [mem_violations]
      rintro ⟨n, hn, e⟩
      exact hk n hn.1 hn.2 e

end Sys2Proof.Scope
end

section
/-!
SUPPORT. The windows of L2Entry and FabricStatus (R144, R146, R147).
-/

set_option Elab.async false

namespace Sys2Proof.Scope

open Sys2Proof Sys2Proof.Machine Sys2Proof.Laws

section
variable {s : State} {p : Path} {i v : Nat}

/-- A command that its block takes, on a path that the hub has (R56). -/
theorem onPath_command {known : List Nat} {eff : State → State} (h : s.takes p i v) (hv : v ∈ known) :
    onPath p true s (s.command p i v anyState known [] eff) = .next (eff ((s.touch p).cmdAccept i v p)) := by
  rw [onPath_ok s rfl (takes_ok s h), command_any s h hv rfl]

theorem onPath_commandNow {known : List Nat} {result : Nat} {eff : State → State} (h : s.takes p i v) (hv : v ∈ known) :
    onPath p true s (s.commandNow p i v anyState known [] result eff) =
      .next ((eff ((s.touch p).cmdAccept i v p)).cmdCommit i result) :=
  onPath_command h hv

/-- Taking a command leaves the Layer-2 table. -/
theorem accepted_l2 (e : Nat) : ((s.touch p).cmdAccept i v p).l2 e = s.l2 e := by
  have hf : ((s.touch p).cmdAccept i v p).fabric = s.fabric :=
    ((keeps_State_cmdAccept (s.touch p) i v p (.refl _ _) (sub_self _)).same .fabric rfl).trans (touch_fabric s p)
  rw [State.l2, hf, State.l2]

/-- Of the objects it sets the block's own. -/
theorem accepted_get {k : Nat} (h : ∀ n, 0xF2 ≤ n → n ≤ 0xF5 → k ≠ ob i n) :
    ((s.touch p).cmdAccept i v p).get k = s.get k := (cmdAccept_get _ h).trans (touch_get s p k)

/-- The window as an entry shown in it leaves it (R147). -/
theorem showL2_get (x : L2) (k : Nat) : (s.showL2 x).get k =
    if k = ob 0x2502 8 then ofBool x.valid
    else if k = ob 0x2502 7 then (if x.valid then (s.clock - x.seen) / 1000000000 else 0)
    else if k = ob 0x2502 6 then ofBool (x.fixed || s.hostMode 2) else if k = ob 0x2502 5 then x.tunnel
    else if k = ob 0x2502 4 then x.ports else if k = ob 0x2502 3 then x.vlan else if k = ob 0x2502 2 then x.mac
    else s.get k := by
  simp only [State.showL2, State.setAll, get_set]

/-- The commit point leaves the window's objects (R56). -/
theorem showL2_committed {r : Nat} (x : L2) :
    ((s.showL2 x).cmdCommit 0x2502 r).get (ob 0x2502 2) = x.mac ∧
      ((s.showL2 x).cmdCommit 0x2502 r).get (ob 0x2502 3) = x.vlan ∧
      ((s.showL2 x).cmdCommit 0x2502 r).get (ob 0x2502 4) = x.ports ∧
      ((s.showL2 x).cmdCommit 0x2502 r).get (ob 0x2502 5) = x.tunnel ∧
      ((s.showL2 x).cmdCommit 0x2502 r).get (ob 0x2502 8) = ofBool x.valid := by
  simp [cmdCommit_object, showL2_get, ob_inj]

/-- An entry shown sets the window's objects alone. -/
theorem showL2_others (x : L2) {k : Nat} (h : k / 256 ≠ 0x2502) : (s.showL2 x).get k = s.get k := by
  have hne : ∀ n, n < 256 → ¬ k = ob 0x2502 n := by
    rintro n hn rfl
    exact h (by unfold ob; omega)
  simp [showL2_get, hne]

end

/-- Settles O31. -/
theorem layer2WindowCommandsComplete : Obligations.Layer2WindowCommandsComplete := by
  refine ⟨fun s p k ht hw => ?_, fun s p ht hw => ?_, fun s p ht => ?_, fun s a p k ht ha hw => ?_,
    fun s a p k ht ha hw => ?_, fun s p ht => ?_, fun s p ht => ?_⟩
  · rw [exec, execL2ReadMatch, onPath_command ht (by decide), hw]
  · rw [exec, execL2ReadMatch, onPath_command ht (by decide), hw]
  · have own (k : Nat) (h : k / 256 ≠ 0x2502) : ∀ n, 0xF2 ≤ n → n ≤ 0xF5 → k ≠ ob 0x2502 n := by
      rintro n hl hu rfl
      exact h (by unfold ob; omega)
    have slot : ((s.touch p).cmdAccept 0x2502 2 p).get (ob 0x2502 1) = s.get (ob 0x2502 1) :=
      accepted_get fun n hl _ => by rw [ne_eq, ob_inj]; omega
    rw [exec, execL2ReadSlot, onPath_commandNow ht (by decide)]
    rw [slot, accepted_l2]
    obtain ⟨mac, vlan, ports, tunnel, valid⟩ := showL2_committed (s := (s.touch p).cmdAccept 0x2502 2 p) (r := 0)
      (s.l2 (s.get (ob 0x2502 1)))
    refine ⟨_, rfl, mac, vlan, ports, tunnel, valid, cmdCommit_status _, cmdCommit_result _, fun k hk => ?_⟩
    rw [cmdCommit_get _ (own k hk), showL2_others _ hk, accepted_get (own k hk)]
  · subst ha
    rw [exec, execL2WriteEntry, onPath_command ht (by decide)]
    dsimp only
    rw [hw]
  · subst ha
    rw [exec, execL2DeleteEntry, onPath_command ht (by decide), hw]
  · rw [exec, execL2FlushLearnt, onPath_commandNow ht (by decide)]
  · rw [exec, execFabricClearCounters, onPath_commandNow ht (by decide)]

end Sys2Proof.Scope
end

section
/-!
SUPPORT. The SDO server of C0 (R38, R39, R43, R45): what each frame comes to in the transfer state that it continues.
-/

set_option Elab.async false

namespace Sys2Proof.Scope

open Sys2Proof Sys2Proof.Machine Sys2Proof.Laws

section
variable {s : State} {frame f : Bytes}

/-! A frame goes to the operation of its client command (R43). -/

/-- What a frame that is neither an abort nor a segment of a block comes to, by its client command (R43). -/
def sdoServed (s : State) (f : Bytes) : State :=
  match byteAt f 0 / 32 with
  | 0 => s.sdoSegment f
  | 1 => s.sdoDownload f
  | 2 => s.sdoUpload f
  | 3 => s.sdoNext f
  | 5 => s.sdoBlockCommand f
  | 6 =>
    if (byteAt f 0).testBit 0 then if s.canOpen.sdo.kind = 4 then s.sdoBlockEnd f else s.sdoFault 0x05040001
    else s.sdoBlockDownload f
  | _ => s.sdoFault 0x05040001

theorem sdoFrame_served {c : Nat} (hr : s.sdoRuns = true) (hf : f = fitBytes 8 frame) (hk : s.canOpen.sdo.kind ≠ 3)
    (hc : byteAt f 0 / 32 = c) (h4 : c ≠ 4 := by decide) : s.sdoFrame frame = sdoServed s f := by
  subst hf
  have hb : byteAt (fitBytes 8 frame) 0 ≠ 0x80 := by omega
  rw [State.sdoFrame, if_neg (by simp [hr])]
  dsimp only
  rw [if_neg hb, if_neg hk]
  rfl

theorem sdoFrame_abort (hr : s.sdoRuns = true) (hf : f = fitBytes 8 frame) (hb : byteAt f 0 = 0x80) :
    s.sdoFrame frame = s.sdoClose := by
  subst hf
  simp [State.sdoFrame, hr, hb, State.sdoClientAbort]

theorem sdoFrame_blockSegment (hr : s.sdoRuns = true) (hf : f = fitBytes 8 frame) (hb : byteAt f 0 ≠ 0x80)
    (hk : s.canOpen.sdo.kind = 3) : s.sdoFrame frame = s.sdoBlockSegment f := by
  subst hf
  simp [State.sdoFrame, hr, hb, hk]

/-! The operations in the transfer state that they continue. -/

theorem sdoDownload_segmented (h : (byteAt f 0).testBit 1 = false) : s.sdoDownload f =
    ({ s with canOpen := { s.canOpen with sdo :=
      { kind := 1, index := leAt f 1 2, sub := byteAt f 3,
        size := if (byteAt f 0).testBit 0 then some (leAt f 4 4) else none, at_ := s.clock } } } : State).sdoOut
      (u8 0x60 ++ u16 (leAt f 1 2) ++ u8 (byteAt f 3)) := by
  rw [State.sdoDownload]
  dsimp only
  rw [if_neg (by simp [h])]
  rfl

theorem sdoDownload_expedited (h : (byteAt f 0).testBit 1 = true) : s.sdoDownload f =
    (s.sdoClose.sdoExpedited (leAt f 1 2) (byteAt f 3) (field (byteAt f 0) 2 2) ((byteAt f 0).testBit 0) (f.drop 4)).sdoOut
      (u8 0x60 ++ u16 (leAt f 1 2) ++ u8 (byteAt f 3)) := by
  rw [State.sdoDownload]
  exact if_pos h

/-- An expedited download to a larger object without a size indication is of kind 2 (R40). -/
theorem sdoExpedited_eq {i sub n : Nat} {sized : Bool} {four : Bytes} : s.sdoExpedited i sub n sized four =
    if sized = false ∧ longString i sub = true then s.write .can i sub four [2] id
    else s.odWrite .can 0 i sub (expeditedData i sub n sized four) := by
  rw [State.sdoExpedited]
  simp only [Bool.and_eq_true, Bool.not_eq_true']
  rfl

theorem sdoSegment_taken (hk : s.canOpen.sdo.kind = 1) (ht : (byteAt f 0).testBit 4 = s.canOpen.sdo.toggle) :
    s.sdoSegment f = (if (byteAt f 0).testBit 0 then
        (s.sdoWrite s.canOpen.sdo.index s.canOpen.sdo.sub s.canOpen.sdo.size
          (s.canOpen.sdo.data ++ (f.drop 1).take (7 - field (byteAt f 0) 1 3))).sdoClose
      else s.updSdo fun x => { x with
        data := s.canOpen.sdo.data ++ (f.drop 1).take (7 - field (byteAt f 0) 1 3), toggle := !x.toggle,
        at_ := s.clock }).sdoOut (u8 (0x20 + 16 * ofBool s.canOpen.sdo.toggle)) := by
  rw [State.sdoSegment]
  dsimp only
  rw [if_neg (by simp [hk]), if_neg (by simp [ht])]

/-- The value is read at the initiation and kept until the transfer ends (R38; log entry 42). -/
theorem sdoUpload_value {v : Bytes} {t : State} (hv : s.sdoClose.readNow .can (leAt f 1 2) (byteAt f 3) = (v, t)) :
    s.sdoUpload f = if 1 ≤ v.length ∧ v.length ≤ 4 then
        t.sdoOut (u8 (0x43 + 4 * (4 - v.length)) ++ (u16 (leAt f 1 2) ++ u8 (byteAt f 3)) ++ v)
      else (t.updSdo fun _ =>
        { kind := 2, index := leAt f 1 2, sub := byteAt f 3, data := v, at_ := t.clock }).sdoOut
          (u8 0x41 ++ (u16 (leAt f 1 2) ++ u8 (byteAt f 3)) ++ u32 v.length) := by
  rw [State.sdoUpload, State.sdoRead]
  dsimp only
  rw [hv]

theorem sdoNext_last (hk : s.canOpen.sdo.kind = 2) (ht : (byteAt f 0).testBit 4 = s.canOpen.sdo.toggle)
    (hl : s.canOpen.sdo.data.length ≤ s.canOpen.sdo.sent + 7) : s.sdoNext f = s.sdoClose.sdoOut
      (u8 (16 * ofBool s.canOpen.sdo.toggle + 2 * (7 - ((s.canOpen.sdo.data.drop s.canOpen.sdo.sent).take 7).length) + 1) ++
        (s.canOpen.sdo.data.drop s.canOpen.sdo.sent).take 7) := by
  rw [State.sdoNext]
  dsimp only
  rw [if_neg (by simp [hk]), if_neg (by simp [ht]), decide_eq_true hl]
  rfl

theorem sdoBlockSegment_within (hs : byteAt f 0 = s.canOpen.sdo.seq + 1) (hl : byteAt f 0 < 128)
    (hb : byteAt f 0 ≠ s.canOpen.sdo.blk) : s.sdoBlockSegment f = s.updSdo fun x => { x with
      data := s.canOpen.sdo.data ++ (f.drop 1).take 7, seq := s.canOpen.sdo.seq + 1, kind := 3, at_ := s.clock } := by
  have seq : byteAt f 0 % 128 = s.canOpen.sdo.seq + 1 := by omega
  have last : (byteAt f 0).testBit 7 = false := Nat.testBit_lt_two_pow hl
  have more : ¬ s.canOpen.sdo.seq + 1 = s.canOpen.sdo.blk := hs ▸ hb
  simp [State.sdoBlockSegment, seq, last, more]

theorem sdoBlockEnd_plain (hc : s.canOpen.sdo.crc = false) : s.sdoBlockEnd f =
    ((s.sdoWrite s.canOpen.sdo.index s.canOpen.sdo.sub s.canOpen.sdo.size
      (s.canOpen.sdo.data.take (s.canOpen.sdo.data.length - field (byteAt f 0) 2 3))).sdoClose).sdoOut (u8 0xA1) := by
  simp [State.sdoBlockEnd, hc]

theorem sdoBlockCommand_end (hk : s.canOpen.sdo.kind = 7) (hc : field (byteAt f 0) 0 2 = 1) :
    s.sdoBlockCommand f = s.sdoClose := by
  simp [State.sdoBlockCommand, hk, hc]

end

/-- Settles O22. -/
theorem sdoCommandsComplete : Obligations.SdoCommandsComplete := by
  refine ⟨fun s frame f hf hr hk hc hb => ?_, fun s frame f hf hr hk hc hb => ?_, fun s frame f hf hr hk hc ht => ?_,
    fun s frame f v t hf hr hk hc hv => ?_, fun s frame f hf hr hk hc ht hl => ?_, fun s frame f hf hr hk hs hl hb => ?_,
    fun s frame f hf hr hk hcrc hc he => ?_, fun s frame f hf hr hk hc hcs => ?_, fun s frame hr hb => ?_,
    fun s hr hk ho => ?_⟩
  · rw [exec, execSdoInitiateDownload, sdoFrame_served hr hf hk hc]
    simp only [sdoServed, hc]
    rw [sdoDownload_segmented hb]
  · rw [exec, execSdoInitiateDownload, sdoFrame_served hr hf hk hc]
    simp only [sdoServed, hc]
    rw [sdoDownload_expedited hb, sdoExpedited_eq]
    rfl
  · rw [exec, execSdoDownloadSegment, sdoFrame_served hr hf (by simp [hk]) hc]
    simp only [sdoServed, hc]
    rw [sdoSegment_taken hk ht]
    rfl
  · rw [exec, execSdoInitiateUpload, sdoFrame_served hr hf hk hc]
    simp only [sdoServed, hc]
    rw [sdoUpload_value hv.symm]
    rfl
  · rw [exec, execSdoUploadSegment, sdoFrame_served hr hf (by simp [hk]) hc]
    simp only [sdoServed, hc]
    rw [sdoNext_last hk ht hl]
    rfl
  · rw [exec, execSdoBlockDownloadSegment, sdoFrame_blockSegment hr hf (by omega) hk, sdoBlockSegment_within hs hl hb,
      State.updSdo, ← hk]
  · rw [exec, execSdoBlockDownloadEnd, sdoFrame_served hr hf (by simp [hk]) hc]
    simp only [sdoServed, hc]
    rw [if_pos he, if_pos hk, sdoBlockEnd_plain hcrc]
  · rw [exec, execSdoBlockUploadRequest, sdoFrame_served hr hf (by simp [hk]) hc]
    simp only [sdoServed, hc]
    rw [sdoBlockCommand_end hk hcs]
    rfl
  · rw [exec, execSdoAbortReceived, sdoFrame_abort hr rfl hb]
    rfl
  · rw [exec, execSdoTimeout, if_pos ⟨hr, hk, ho⟩]
    rfl

end Sys2Proof.Scope
end

section
/-!
SUPPORT. PDOs, SYNC, the heartbeat and NMT on C0 (R43, R44, R45).
-/

set_option Elab.async false

namespace Sys2Proof.Scope

open Sys2Proof Sys2Proof.Machine Sys2Proof.Laws

section
variable {s : State} {k : Nat}

theorem rpdoOn_of (hr : s.canRuns = true) (hn : s.canOpen.nmt = 5) (hv : (s.get (ob (0x1400 + k) 1)).testBit 31 = false) :
    s.rpdoOn k = true := by
  simp [State.rpdoOn, hr, hn, hv]

/-- An event-driven RPDO is written at once (R43). -/
theorem exec_rpdoReceived_event {data : Bytes} (hk : k < 4) (ho : s.rpdoOn k = true) (ht : 240 < s.get (ob (0x1400 + k) 2)) :
    exec (.rpdoReceived k data) s = .next (s.rpdoApply k data) := by
  rw [exec, execRpdoReceived, onUnit_known (decide_eq_true hk), if_neg (by simp [ho]), if_neg (by omega)]

/-- What is done with Operator rights is done in a state that differs in C0's session alone. -/
theorem asOperator_congr {f g : State → State} (h : ∀ x, f (s.updSession .can x) = g (s.updSession .can x)) :
    s.asOperator f = s.asOperator g := by
  unfold State.asOperator
  dsimp only
  rw [h]

theorem pdoMap_updSession {p : Path} {x : Session → Session} (i : Nat) : (s.updSession p x).pdoMap i = s.pdoMap i := by
  simp only [State.pdoMap, updSession_get]

/-- A frame as long as the mapping is applied, with Operator rights (R43). -/
theorem rpdoApply_whole {data : Bytes} (h : ((s.pdoMap (0x1600 + k)).map fun v => v % 256 / 8).foldl (· + ·) 0 ≤ data.length) :
    s.rpdoApply k data = s.asOperator fun s => s.rpdoWrite (s.pdoMap (0x1600 + k)) data := by
  rw [State.rpdoApply, if_pos h]
  exact asOperator_congr fun f => by rw [pdoMap_updSession]

/-- A synchronous one is held for the next SYNC (R43; log entry 43). -/
theorem exec_rpdoReceived_sync {data : Bytes} (hk : k < 4) (ho : s.rpdoOn k = true) (ht : s.get (ob (0x1400 + k) 2) ≤ 240) :
    exec (.rpdoReceived k data) s =
      .next { s with canOpen := { s.canOpen with rpdos := Sparse.put [] k data s.canOpen.rpdos } } := by
  rw [exec, execRpdoReceived, onUnit_known (decide_eq_true hk), if_neg (by simp [ho]), if_pos ht]

theorem tpdoTrigger_free (h : s.tpdoHeld k = false) : s.tpdoTrigger k = s.tpdoSend k := by
  simp [State.tpdoTrigger, h]

theorem forMe_of {node : Nat} (hr : s.canRuns = true) (hn : node = 0 ∨ node = s.canNode) : s.forMe node = true := by
  simp [State.forMe, hr, hn]

/-- A TPDO's own state is no part of NMT's, of the open transfer or of the objects. -/
theorem forAll_updTpdo (f : State → Tpdo → Tpdo) (l : List Nat) (s : State) :
    (forAll (fun k s => s.updTpdo k (f s)) l s).canOpen.nmt = s.canOpen.nmt ∧
      (forAll (fun k s => s.updTpdo k (f s)) l s).canOpen.sdo = s.canOpen.sdo ∧
      ∀ n, (forAll (fun k s => s.updTpdo k (f s)) l s).get n = s.get n := by
  induction l generalizing s with
  | nil => exact ⟨rfl, rfl, fun _ => rfl⟩
  | cons k r ih => exact ih (s.updTpdo k (f s))

end

/-- Settles O23. -/
theorem canOpenServicesComplete : Obligations.CanOpenServicesComplete := by
  refine ⟨fun s k data hk hr hn hv hl ht => ?_, fun s hr => ?_, fun s k hk ho ht hm hd hh => ?_, fun s k hk ho hd hh => ?_,
    fun s hr hm hd => ?_, fun s node hr hn => ?_, fun s node hr hn => ?_, fun s node hr hn => ?_, fun s node hr hn => ?_,
    fun s node hr hn => ?_, fun s k data hk hr hn hv ht => ?_⟩
  · rw [exec_rpdoReceived_event hk (rpdoOn_of hr hn hv) ht, rpdoApply_whole hl]
  · rw [exec, execSyncReceived, if_pos hr, show upTo 4 = [0, 1, 2, 3] from rfl]
    simp only [forAll]
  · rw [exec, execTpdoEventTimer, onUnit_known (decide_eq_true hk)]
    dsimp only
    rw [if_pos ⟨ho, ht, hm, hd⟩, tpdoTrigger_free hh]
  · rw [exec, execTpdoInhibitEnd, onUnit_known (decide_eq_true hk), if_pos ⟨ho, hd, by simp [hh]⟩]
  · rw [exec, execHeartbeatTimer]
    dsimp only
    rw [if_pos ⟨hr, hm, hd⟩, State.canOut]
  · rw [exec, execNmtStartRemoteNode, if_pos (forMe_of hr hn)]
    split
    · next h => exact ⟨s, rfl, h, rfl, rfl, fun _ => rfl⟩
    · obtain ⟨nmt, sdo, get⟩ := forAll_updTpdo (fun s x => { x with timer := s.clock, syncs := 0 }) (upTo 4) (s.setNmt 5)
      exact ⟨_, rfl, nmt, sdo, get _, get⟩
  · rw [exec, execNmtEnterPreOperational, if_pos (forMe_of hr hn), State.setNmt]
  · rw [exec, execNmtStopRemoteNode, if_pos (forMe_of hr hn), State.setNmt]
  · rw [exec, execNmtResetCommunication, if_pos (forMe_of hr hn)]
    rfl
  · rw [exec, execNmtResetNode, if_pos (forMe_of hr hn)]
    rfl
  · exact exec_rpdoReceived_sync hk (rpdoOn_of hr hn hv) ht

end Sys2Proof.Scope
end

section
/-!
SUPPORT. Store, restore, aborts of commands and function modes (R50, R54-R57).
-/

set_option Elab.async false

namespace Sys2Proof.Scope

open Sys2Proof Sys2Proof.Machine Sys2Proof.Laws

section
variable {s : State} {p : Path} {i fn v : Nat}

/-- Outside Run a store or restore block that is idle takes its command (R50, R56). -/
theorem storeKinds_idle (hs : s.cmdStatus i ≠ 1) (hd : s.dev ≠ devRun) : s.storeKinds i = [] := by
  simp [State.storeKinds, hs, hd]

theorem touch_cmd : (s.touch p).cmd i = s.cmd i := by
  rw [State.cmd, touch_cmds, State.cmd]

theorem touch_cmdStatus : (s.touch p).cmdStatus i = s.cmdStatus i := touch_get ..

/-- A command that runs is undone; the block waits for the undo's end (R57). -/
theorem abortCmd_running (hs : s.cmdStatus i = 1) (hu : (s.cmd i).undoing = false) :
    s.abortCmd p i = (s.undo p i).cmdUndoing i p := by
  simp [State.abortCmd, State.cmdRuns, hs, hu]

/-- A command past its commit point stays done (R57). -/
theorem abortCmd_committed (hs : s.cmdStatus i = 2) : s.abortCmd p i =
    (s.set (ob i 0xF2) 4).ev 0x1112 p.code 1 0
      (u16 i ++ u32 (s.cmd i).value ++ u8 p.code ++ u8 0 ++ u64 (s.get (ob i 0xF4))) := if_pos hs

/-- An abort of a command that runs or has committed is taken (R57). -/
theorem writeAbort_taken (ha : s.allows p i 0xF1 v) (hs : s.cmdStatus i = 1 ∨ s.cmdStatus i = 2) :
    s.writeAbort p i v = (s.touch p).abortCmd p i := by
  rw [State.writeAbort, writeNum_done s ha]
  obtain h | h := hs <;> rw [h] <;> rfl

/-- A mode that needs nothing that the hub lacks (R54, R55). -/
theorem modeRefused_none (hb : s.modeBad fn v = false) (hf : fn ≠ 4) : s.modeRefused fn v = false := by
  simp [State.modeRefused, hb, hf]

theorem writeMode_now (ha : s.allows p 0x2010 fn v) (hb : s.modeBad fn v = false) (hf : fn ≠ 4)
    (hs : s.get (ob 0x2011 fn) ≠ 2) : s.writeMode p fn v = (s.touch p).takeMode fn v p s.station := by
  have free : decide (s.get (ob 0x2011 fn) = 2) = false := decide_eq_false hs
  have other : decide (fn = 4) = false := decide_eq_false hf
  rw [State.writeMode]
  simp only [free, other, modeRefused_none hb hf, Bool.and_false, Bool.false_and, budgetCount_false]
  exact (writeNum_done s ha rfl).trans (by rw [if_neg Bool.false_ne_true, touch_station])

/-- A function without traffic changes its mode at once (R55). -/
theorem takeMode_unused {time : Nat} (hv : s.get (ob 0x2010 fn) ≠ v) (hb : s.fnBusy fn = false) :
    s.takeMode fn v p time = (s.switchBegin fn v).switchEnd fn v p time := by
  simp [State.takeMode, hv, hb]

end

/-- Settles O25. -/
theorem configurationCommandsComplete : Obligations.ConfigurationCommandsComplete := by
  refine ⟨fun s p area v ha hs hd => ?_, fun s p area v ha hs hd => ?_, fun s p i v hi ha hs hu => ?_,
    fun s p i v hi ha hs => ?_, fun s p fn v hf ha hb h4 hs hv hbusy => ?_, fun s fn hf hs hr => ?_⟩
  · rw [exec, execStoreConfiguration, onPath_ok s rfl (allows_ok s ha), State.writeStore,
      writeNum_done s ha (storeKinds_idle hs hd)]
  · rw [exec, execRestoreDefaults, onPath_ok s rfl (allows_ok s ha), State.writeRestore,
      writeNum_done s ha (storeKinds_idle hs hd)]
  · rw [exec, execCommandAbort, onPath_ok s (decide_eq_true hi) (allows_ok s ha), writeAbort_taken ha (.inl hs),
      abortCmd_running (touch_cmdStatus.trans hs) (by rwa [touch_cmd])]
  · rw [exec, execCommandAbort, onPath_ok s (decide_eq_true hi) (allows_ok s ha), writeAbort_taken ha (.inr hs),
      abortCmd_committed (touch_cmdStatus.trans hs), touch_cmd, touch_get]
  · rw [exec, execFunctionModeWrite, onPath_ok s (decide_eq_true hf) (allows_ok s ha), writeMode_now ha hb h4 hs,
      takeMode_unused (by rwa [touch_get]) hbusy]
  · rw [exec, execFunctionSwitchComplete, onUnit_known (decide_eq_true hf), if_pos ⟨hs, hr⟩]
    rfl

end Sys2Proof.Scope
end

section
/-!
SUPPORT. Training of a trunk (R60, R73, R77): what comes on LP's receiver in modes 2 and 3.
-/

set_option Elab.async false

namespace Sys2Proof.Scope

open Sys2Proof Sys2Proof.Machine Sys2Proof.Laws

/-- A trunk of the part takes its events (R2). -/
theorem onPort_trunk {s u : State} {t : Nat} (h : s.part.hasTrunk t = true) : onPort s (fun q => q.hasTrunk t) u = .next u :=
  onPort_has s (hasTrunk_full h) h

/-- While LP is powered down, a training frame on its receiver is ignored (R60). -/
theorem exec_trainingFrameReceived_fromLp {s : State} {t phys : Nat} {inv : Bool} {frame : Bytes}
    (ht : s.part.hasTrunk t = true) (hl : s.fromLp t phys frame = true) :
    exec (.trainingFrameReceived t phys inv frame) s = .next s := by
  rw [exec, execTrainingFrameReceived, onPort_trunk ht, if_neg (by simp [hl])]

/-! A frame with a right trailer passes its CRC (R93). -/

theorem crcShift_lt {n r : Nat} (h : r < 2 ^ 32) : crcShift n r < 2 ^ 32 := by
  induction n generalizing r with
  | zero => exact h
  | succ n ih =>
    rw [crcShift]
    split
    · exact ih (Nat.xor_lt_two_pow (by omega) (by omega))
    · exact ih (by omega)

theorem crcRun_lt {r : Nat} {b : Bytes} (h : r < 2 ^ 32) : crcRun r b < 2 ^ 32 := by
  induction b generalizing r with
  | nil => exact h
  | cons x b ih => exact ih (crcShift_lt (Nat.xor_lt_two_pow h (by omega)))

theorem crc32c_lt (b : Bytes) : crc32c b < 2 ^ 32 := Nat.xor_lt_two_pow (crcRun_lt (by omega)) (by omega)

theorem leNat_leBytes (n v : Nat) : leNat (leBytes n v) = v % 256 ^ n := by
  induction n generalizing v with
  | zero => simp [leBytes, leNat, Nat.mod_one]
  | succ n ih => rw [leBytes, leNat, ih, Nat.pow_succ', Nat.mod_mul, BitVec.toNat_ofNat]

theorem crcGood_trailer {b : Bytes} (h : b.length = 252) : crcGood (b ++ u32 (crc32c b)) = true := by
  have length : (u32 (crc32c b)).length = 4 := length_leBytes 4 _
  have taken : (b ++ u32 (crc32c b)).take 252 = b := List.take_left' h
  have trailer : leAt (b ++ u32 (crc32c b)) 252 4 = crc32c b := by
    rw [leAt, List.drop_left' h, fitBytes, List.take_left' length, u32, leNat_leBytes]
    exact Nat.mod_eq_of_lt (crc32c_lt b)
  simp [crcGood, trailer, taken, h, length]

/-- Trunk 0 in Equalise on its way into mode 2. -/
def equalisingMode2 : State :=
  { State.reset.setAll [(tk 0 1 1, 6)] with trunks := [(0, { attempts := [2] })] }

/-- A training frame of logical lane 4, LP, before its trailer (R73). -/
def lpFrameBody : Bytes := zeros 8 ++ 4 :: zeros 243

def lpFrame : Bytes := lpFrameBody ++ u32 (crc32c lpFrameBody)

theorem lpFrame_crcGood : crcGood lpFrame = true := crcGood_trailer <| by
  simp only [lpFrameBody, zeros, List.length_append, List.length_cons, List.length_replicate]

theorem lpFrame_fromLp : equalisingMode2.fromLp 0 4 lpFrame = true := by decide

/-- Were the frame taken, physical lane 4 would stand in the mask of lanes with frames. -/
theorem lpFrame_taken : ((equalisingMode2.frame 0 4 false lpFrame).trunk 0).frames = 16 := by decide

/-- Refutes O26: its first clause takes every good training frame, and R60's exception is no part of its condition. On a
trunk that equalises for mode 2, LP's receiver is ignored, so a good frame on it changes nothing. -/
theorem not_trunkTrainingCommandsComplete : ¬ Obligations.TrunkTrainingCommandsComplete := by
  rintro ⟨taken, -⟩
  have takes := taken equalisingMode2 0 4 false lpFrame (by decide) lpFrame_crcGood (by decide) (by decide)
  rw [exec_trainingFrameReceived_fromLp (by decide) lpFrame_fromLp] at takes
  have same : equalisingMode2 = equalisingMode2.frame 0 4 false lpFrame := Host.Outcome.next.inj takes
  have frames := lpFrame_taken
  rw [← same] at frames
  exact absurd frames (by decide)

end Sys2Proof.Scope
end

section
/-!
SUPPORT. A trunk in service (R65, R68, R70, R77, R78, R80, R81, R86): what taking a command leaves of it, its lanes, and what
comes on its line.
-/

set_option Elab.async false

namespace Sys2Proof.Scope

open Sys2Proof Sys2Proof.Machine Sys2Proof.Laws

section
variable {s u : State} {t l : Nat}

theorem onPort_lane {n : Nat} (ht : s.part.hasTrunk t = true) (hl : l < n) :
    onPort s (fun q => q.hasTrunk t && decide (l < n)) u = .next u :=
  onPort_has s (by simp [hasTrunk_full ht, hl]) (by simp [ht, hl])

/-- A path that the hub has reaches a trunk's block. -/
theorem onPath_trunk {p : Path} (ht : s.part.hasTrunk t = true) (hp : p.ok = true) :
    onPath p (decide (t < 4)) s u = .next u := onPath_ok s (decide_eq_true (hasTrunk_lt ht)) hp

theorem trained_iff (ht : s.part.hasTrunk t = true) : s.trained t = true ↔ s.train t = 8 := by
  simp [State.trained, State.train, ht]

/-- A Trained trunk's line is in the trunk's own mode. -/
theorem lineMode_trained (h : s.trained t = true) : s.lineMode t = s.get (tk t 1 4) := if_pos h

/-! A trunk's and a lane's own state after a change. -/

@[simp] theorem updTrunk_trunk {f : Trunk → Trunk} : (s.updTrunk t f).trunk t = f (s.trunk t) := get_put_same ..

@[simp] theorem updLane_trunk {f : Lane → Lane} : (s.updLane t l f).trunk t =
    { s.trunk t with lanes := Sparse.put {} l (f (s.lane t l)) (s.trunk t).lanes } := updTrunk_trunk

@[simp] theorem updLane_lane {f : Lane → Lane} : (s.updLane t l f).lane t l = f (s.lane t l) := by
  simp [State.lane]

/-! Taking a command leaves the trunks: their objects but the block's own, and their state (R56). -/

variable {p : Path} {i v : Nat}

theorem accepted_tk {o sub : Nat} (h : sub < 0xF0) : ((s.touch p).cmdAccept i v p).get (tk t o sub) = s.get (tk t o sub) :=
  accepted_get fun n _ _ => by unfold tk ob; omega

theorem accepted_trunk : ((s.touch p).cmdAccept i v p).trunk t = s.trunk t := by
  have ht : ((s.touch p).cmdAccept i v p).trunks = s.trunks :=
    ((keeps_State_cmdAccept (s.touch p) i v p (.refl _ _) (sub_self _)).same .trunks rfl).trans (touch_trunks s p)
  rw [State.trunk, ht, State.trunk]

theorem accepted_sent : ((s.touch p).cmdAccept i v p).sent = s.sent :=
  ((keeps_State_cmdAccept (s.touch p) i v p (.refl _ _) (sub_self _)).same .sent rfl).trans (touch_sent s p)

theorem accepted_trained : ((s.touch p).cmdAccept i v p).trained t = s.trained t := by
  have hp : ((s.touch p).cmdAccept i v p).part = s.part :=
    (keeps_State_cmdAccept (s.touch p) i v p (.refl _ _) (sub_self _)).part.trans (touch_part s p)
  rw [State.trained, hp, accepted_tk (by omega), State.trained]

/-- Host eye tuning has its commands in Equalise (R80). -/
theorem eyeKinds_none (hm : s.hostMode 1 = true) (he : s.train t = 6) : s.eyeKinds t = [] := by
  simp [State.eyeKinds, hm, he]

/-- A trunk that is not Off takes a command to retrain (R86). -/
theorem retrainKinds_none (ht : s.part.hasTrunk t = true) (h : s.trained t = true) :
    kindIf (decide (s.train t = 0)) 6 = [] := by
  simp [(trained_iff ht).mp h]

/-! What comes on the line (R65, R68, R81). -/

theorem exec_codewordGroupReceived_trained {words : List Codeword} {x : Bool} {m : Option Nat} {stamp idles : Nat}
    (ht : s.part.hasTrunk t = true) (h8 : s.train t = 8) (hm : s.get (tk t 1 4) ≠ 3) :
    exec (.codewordGroupReceived t words x m stamp idles) s = .next (s.group t words x m stamp idles) := by
  rw [exec, execCodewordGroupReceived, onPort_trunk ht, if_pos (.inl ⟨h8, hm⟩)]

/-- A cell of an uncorrectable group is discarded (R65). -/
theorem lineIn_doomed (h : (s.trunk t).doomed ≠ 0) :
    s.lineIn t = (true, s.updTrunk t fun x => { x with doomed := x.doomed - 1 }) := if_neg h

theorem lineIn_whole (h : (s.trunk t).doomed = 0) : s.lineIn t = (false, s) := if_pos h

theorem exec_controlCellReceived_doomed {cell : Bytes} (ht : s.part.hasTrunk t = true) (h : (s.trunk t).doomed ≠ 0) :
    exec (.controlCellReceived t cell) s = .next (s.updTrunk t fun x => { x with doomed := x.doomed - 1 }) := by
  simp only [exec, execControlCellReceived, lineIn_doomed h, Bool.true_or, if_true, onPort_trunk ht]

/-- A good control cell of a Trained trunk is consumed (R81). -/
theorem exec_controlCellReceived_whole {cell : Bytes} (ht : s.part.hasTrunk t = true) (h : s.trained t = true)
    (hd : (s.trunk t).doomed = 0) (hc : crcGood cell = true) (hn : (parseCell cell).tunnel = 0) :
    exec (.controlCellReceived t cell) s = .next (s.controlCell t (parseCell cell)) := by
  simp [exec, execControlCellReceived, lineIn_whole hd, h, hc, hn, onPort_trunk ht]

theorem countSat_get_ne {k j n : Nat} (h : j ≠ k) : (s.countSat k n).get j = s.get j := get_set_ne _ _ h

/-- The invalid sync header that makes 16 in a row loses a lane in service (R68). -/
theorem exec_pcsBlockReceived_invalid {stamp : Nat} {skew : Int} (ht : s.part.hasTrunk t = true) (hl : l < 4)
    (h : s.trained t = true) (hm : s.get (tk t 1 4) = 3) (hs : s.get (laneKey t l 3) = 2) (hr : 16 ≤ (s.lane t l).run + 1) :
    exec (.pcsBlockReceived t l false none stamp skew) s =
      .next ((((s.countSat (laneKey t l 0x0B) 1).updLane t l fun x =>
        { x with run := x.run + 1, verifySync := true }).laneLost t l 6).lossCheck t) := by
  have state : (s.countSat (laneKey t l 0x0B) 1).get (laneKey t l 3) = 2 :=
    (countSat_get_ne (by simp [laneKey, tk, ob_inj])).trans hs
  have run : ((s.countSat (laneKey t l 0x0B) 1).lane t l).run = (s.lane t l).run := rfl
  simp [exec, execPcsBlockReceived, onPort_lane ht hl, h, hm, state, run, hr]

end

/-! Host eye tuning (R80). -/

section
variable {s : State} {t : Nat}

/-- The far transmitter's requests and the selected lane's receiver settings, as command 1 takes them from the block. -/
def eyeSettings (s : State) (t : Nat) : State :=
  (s.updTrunk t fun x =>
    { x with eyeLane := s.get (tk t 0x20 1), eyePreset := s.get (tk t 0x20 4), eyePre := stepCode (s.get (tk t 0x20 5)),
             eyePost := stepCode (s.get (tk t 0x20 6)) }).updLane t (s.get (tk t 0x20 1)) fun x =>
    { x with ctle := some (s.get (tk t 0x20 2)), dfe := some (s.get (tk t 0x20 3)) }

/-- With a preset requested, the command waits for the far end's answer. -/
theorem exec_eyeApplyLane_preset {p : Path} (ht : s.part.hasTrunk t = true) (hc : s.takes p (tkIndex t 0x20) 1)
    (hm : s.hostMode 1 = true) (he : s.train t = 6) (hp : s.get (tk t 0x20 4) ≠ 0) :
    exec (.eyeApplyLane p t) s =
      .next ((eyeSettings ((s.touch p).cmdAccept (tkIndex t 0x20) 1 p) t).sendLane t
        (((s.touch p).cmdAccept (tkIndex t 0x20) 1 p).get (tk t 0x20 1))) := by
  rw [exec, execEyeApplyLane, onPath_trunk ht (takes_ok s hc),
    command_any s hc (by simp) (eyeKinds_none hm he)]
  rw [← accepted_tk (i := tkIndex t 0x20) (v := 1) (p := p) (by omega)] at hp
  generalize (s.touch p).cmdAccept (tkIndex t 0x20) 1 p = a at hp
  have waits : ¬ (((eyeSettings a t).trunk t).eyePreset = 0 ∧ ((eyeSettings a t).trunk t).eyePre = 0 ∧
      ((eyeSettings a t).trunk t).eyePost = 0) := fun h => hp (by simpa [eyeSettings] using h.1)
  exact congrArg Host.Outcome.next (if_neg waits)

@[simp] theorem sendLane_trunk {n l : Nat} : (s.sendLane t l).trunk n = s.trunk n := rfl

@[simp] theorem sendLane_lane {n l k : Nat} : (s.sendLane t l).lane n k = s.lane n k := rfl

theorem eyeSettings_sent : (eyeSettings s t).sent = s.sent := rfl

theorem sendLane_sent {l : Nat} : (s.sendLane t l).sent =
    .training t l (s.trunk t).rate ((s.sendLane t l).trainingFrame t l) :: s.sent := rfl

end

/-- Settles O27. -/
theorem trunkServiceCommandsComplete : Obligations.TrunkServiceCommandsComplete := by
  refine ⟨fun s t words x m stamp idles ht h8 hm => ?_, fun s t l cause ht hl h hs => ?_, fun s t ht h hd => ?_,
    fun s p t ht hc h hr => ?_, fun s p t ht hc => ?_, fun s t ht h hr hs hd => ?_, fun s t ht h hr hd => ?_,
    fun s p t l pre ht hc hm he hl hp hn => ?_, fun s p t ht hc hm he => ?_, fun s t cell ht h hd hc hn => ?_,
    fun s t l stamp skew ht hl h hm hs hr => ?_, fun s t cell ht hd => ?_⟩
  · rw [exec_codewordGroupReceived_trained ht h8 hm, State.group, lineMode_trained ((trained_iff ht).mpr h8)]
  · rw [exec, execLaneSignalLost, onPort_lane ht hl, if_pos h, if_pos hs]
  · rw [exec, execMarkerTimeout, onPort_trunk ht, if_pos (by simp [h, hd])]
  · rw [exec, execTrunkRetrain, onPath_trunk ht (takes_ok s hc),
      command_any s hc (by simp) (retrainKinds_none ht h), accepted_trained, if_pos h, accepted_trunk, if_neg (by simp [hr])]
  · rw [exec, execTrunkClearCounters, onPath_trunk ht (takes_ok s hc),
      commandNow_any s hc (by simp) rfl]
  · rw [exec, execRetrainRequestSend, onPort_trunk ht, if_pos (by simp [h, hr, hs, hd])]
  · rw [exec, execRetrainWaitTimeout, onPort_trunk ht, if_pos (by simp [h, hr, hd])]
  · subst hl hp
    refine ⟨_, exec_eyeApplyLane_preset ht hc hm he hn, ?_⟩
    simp only [sendLane_sent, eyeSettings_sent, accepted_sent]
    simp [eyeSettings, accepted_tk, accepted_trunk]
  · rw [exec, execEyeFinishEqualise, onPath_trunk ht (takes_ok s hc),
      command_any s hc (by simp) (eyeKinds_none hm he)]
  · rw [exec_controlCellReceived_whole ht h hd hc hn, State.controlCell]
  · exact exec_pcsBlockReceived_invalid ht hl h hm hs hr
  · exact exec_controlCellReceived_doomed ht hd

end Sys2Proof.Scope
end

section
/-!
SUPPORT. Tunnels (R94, R98, R99, R100, R102, R104, R113, R116, R118): a record's objects, a cell's way through the checks of
R94, and what a drain's bound does.
-/

set_option Elab.async false

namespace Sys2Proof.Scope

open Sys2Proof Sys2Proof.Machine Sys2Proof.Laws

section
variable {s : State} {t n : Nat}

theorem tunKey_inj {a b : Nat} : tunKey n a = tunKey n b ↔ a = b := ob_inj

/-- Another subindex of the record has been written: TunnelState reads as before (R102). -/
theorem set_tstate {sub v : Nat} (h : sub ≠ 0x10) : (s.set (tunKey n sub) v).tstate n = s.tstate n :=
  get_set_ne s v fun e => h (tunKey_inj.mp e).symm

/-- Taking a command leaves TunnelState (R56). -/
theorem accepted_tstate {p : Path} {i v : Nat} : ((s.touch p).cmdAccept i v p).tstate n = s.tstate n :=
  accepted_get fun _ _ _ => by unfold tunKey ob; omega

/-- A path that the hub has reaches a record's write that nothing refuses (R37, R99). -/
theorem onPath_record {p : Path} {sub v : Nat} {eff : State → State} (hn : n < 4096) (ha : s.allows p (0x3000 + n) sub v) :
    onPath p (decide (n < 4096)) s (s.writeNum p (0x3000 + n) sub v [] eff) = .next (eff (s.touch p)) :=
  onPath_writeNum (decide_eq_true hn) ha

/-! A cell's way through the checks of R94. -/

/-- A whole cell of a Trained trunk that is not for tunnel 0 goes on to the checks after the CRC (R94). -/
theorem exec_cellReceived_whole {raw : Bytes} (ht : s.part.hasTrunk t = true) (h : s.trained t = true)
    (hd : (s.trunk t).doomed = 0) (hc : crcGood raw = true) (hn : (parseCell raw).tunnel ≠ 0) :
    exec (.cellReceived t raw false) s = .next (s.cellIn t (parseCell raw)) := by
  simp [exec, execCellReceived, lineIn_whole hd, h, hc, hn, onPort_trunk ht]

theorem exec_cellReceived_doomed {raw : Bytes} {bad : Bool} (ht : s.part.hasTrunk t = true) (h : (s.trunk t).doomed ≠ 0) :
    exec (.cellReceived t raw bad) s = .next (s.updTrunk t fun x => { x with doomed := x.doomed - 1 }) := by
  simp only [exec, execCellReceived, lineIn_doomed h, Bool.true_or, if_true, onPort_trunk ht]

/-- A well-formed cell of a transit record that is Open or Draining enters the receive stage with no check of its sequence;
a data cell is counted first (R94). -/
theorem cellIn_transit {c : Cell} (hm : malformed c = false) (hr : s.recordOn t c.tunnel = true) (hl : s.live c.tunnel = true)
    (hn : 16 ≤ c.tunnel) (ht : s.transit c.tunnel = true) :
    s.cellIn t c = (if c.kind = 0 then s.count (tunKey c.tunnel 0x18) 1 else s).hold t c := by
  have up : ¬ (s.tstate c.tunnel ≠ 3 ∧ s.tstate c.tunnel ≠ 4) := by
    have := of_decide_eq_true hl
    omega
  simp [State.cellIn, hm, hr, if_neg up, ht, hn]

theorem hold_held {c : Cell} :
    ((s.hold t c).trunk t).held = (s.trunk t).held ++ [{ cell := c, since := s.clock }] := by
  rw [State.hold, updTrunk_trunk]

theorem count_get_ne {k j v : Nat} (h : j ≠ k) : (s.count k v).get j = s.get j := get_set_ne _ _ h

/-- The count of received data cells is all that comes before the receive stage of a transit record (R94). -/
theorem cellIn_transit_holds {c : Cell} (hm : malformed c = false) (hr : s.recordOn t c.tunnel = true)
    (hl : s.live c.tunnel = true) (hn : 16 ≤ c.tunnel) (ht : s.transit c.tunnel = true) :
    ((s.cellIn t c).trunk t).held = (s.trunk t).held ++ [{ cell := c, since := s.clock }] ∧
      ∀ k, k ≠ tunKey c.tunnel 0x18 → (s.cellIn t c).get k = s.get k := by
  rw [cellIn_transit hm hr hl hn ht, hold_held]
  by_cases data : c.kind = 0
  · rw [if_pos data, count_clock, State.trunk, count_trunks]
    exact ⟨rfl, fun k hk => (hold_get ..).trans (count_get_ne hk)⟩
  · rw [if_neg data]
    exact ⟨rfl, fun k _ => hold_get ..⟩

/-! Records, offers, drains and keys. -/

/-- The record of a tunnel that is not Refused keeps a write and no more (R99, R102). -/
theorem exec_tunnelRecordWrite_kept {p : Path} {sub v : Nat} (hn : n < 4096) (hs : 2 ≤ sub ∧ sub ≤ 0x0B)
    (ha : s.allows p (0x3000 + n) sub v)
    (hv : sub = 9 → v &&& kindVersions (s.get (tunKey n 2)) = v ∧ v ≠ 0) (ht : sub = 4 → v < s.part.trunks)
    (h5 : s.tstate n ≠ 5) :
    exec (.tunnelRecordWrite p n sub v) s = .next ((s.touch p).set (tunKey n sub) v) := by
  have versions : kindIf (decide (sub = 9) && decide (v &&& kindVersions (s.get (tunKey n 2)) ≠ v ∨ v = 0)) 7 = [] := by
    rw [kindIf_nil, Bool.and_eq_false_imp]
    intro h9
    obtain ⟨named, nonzero⟩ := hv (of_decide_eq_true h9)
    exact decide_eq_false (by simp [named, nonzero])
  have trunk : kindIf (decide (sub = 4 ∧ s.part.trunks ≤ v)) 7 = [] :=
    kindIf_nil.mpr (decide_eq_false fun ⟨h4, hle⟩ => absurd (ht h4) (Nat.not_lt.mpr hle))
  have state : ((s.touch p).set (tunKey n sub) v).tstate n ≠ 5 := by
    rw [set_tstate (by omega)]
    exact (touch_get s p _).trans_ne h5
  rw [exec, execTunnelRecordWrite, versions, trunk, List.nil_append,
    onPath_writeNum (decide_eq_true ⟨hn, by omega, by omega⟩) ha, if_neg (by omega)]
  dsimp only
  rw [if_neg (by omega), State.refusedAgain, if_neg state]

/-- An offer of a Negotiating tunnel that ends here is judged (R104). -/
theorem exec_offerReceived_negotiating {msg : Bytes} (ht : s.part.hasTrunk t = true) (hn : 16 ≤ n ∧ n < 4096)
    (hr : s.recordOn t n = true) (hx : s.transit n = false) (h : s.trained t = true) (h2 : s.tstate n = 2) :
    exec (.offerReceived t n msg) s = .next (s.offerIn n msg) := by
  obtain ⟨data, known⟩ := hn
  have low : ¬ n < 16 := Nat.not_lt.mpr data
  rw [exec, execOfferReceived, onPort_lane ht known, h2]
  simp [low, hr, hx, h]

/-- A drain's bound ends the drain: what is queued is discarded, and a Close not yet sent follows (R118). -/
theorem drainExpired_eq {z : State}
    (hz : z = (s.drainDiscard n).tunEv 0x3040 2 4 n (u32 (((s.drainDiscard n).tun n).discards - (s.tun n).discards) ++
      u32 ((s.drainDiscard n).get (tunKey n 0x0D)))) :
    s.drainExpired n =
      ((if z.transit n = true ∨ (z.tun n).closeSent = true then z else z.lateClose n).drainDone n).settle := by
  rw [State.drainExpired, hz]

end

/-- Settles O28. -/
theorem tunnelCommandsComplete : Obligations.TunnelCommandsComplete := by
  refine ⟨fun s t raw ht h hd hc hn => ?_, fun s t raw ht h hd hc hn hm hr hl hs hx => ?_, fun s p n hn ha hb => ?_,
    fun s p n hn ha => ?_, fun s p n sub v hn hs ha hv ht h5 => ?_, fun s p n hn h4 hc h0 => ?_,
    fun s p n hn h4 hc h0 => ?_, fun s p n hn hc => ?_, fun s t n msg ht hn hr hx h h2 => ?_,
    fun s n hn h2 hd hw => ?_, fun s t raw bad ht hd => ?_⟩
  · exact exec_cellReceived_whole ht h hd hc hn
  · exact ⟨_, exec_cellReceived_whole ht h hd hc hn, cellIn_transit_holds hm hr hl hs hx⟩
  · rw [exec, execTunnelEnable, kindIf_nil.mpr hb, onPath_record hn ha]
  · rw [exec, execTunnelDisable, onPath_record hn ha]
  · exact exec_tunnelRecordWrite_kept hn hs ha hv ht h5
  · rw [exec, execTunnelDrain, decide_eq_true hn, kindIf_nil.mpr (decide_eq_false (by omega)),
      onPath_command hc (by simp), if_neg (by rwa [set_tstate (by omega), accepted_tstate])]
  · rw [exec, execTunnelDrain, decide_eq_true hn, kindIf_nil.mpr (decide_eq_false (by omega)),
      onPath_command hc (by simp), if_pos (by rwa [set_tstate (by omega), accepted_tstate])]
  · rw [exec, execTunnelClearCounters, decide_eq_true hn, onPath_commandNow hc (by simp)]
  · exact exec_offerReceived_negotiating ht hn hr hx h h2
  · rw [exec, execNegotiationRepeat, onUnit_known (decide_eq_true hn), if_pos ⟨h2, hd⟩, if_neg (by simp [hw])]
  · exact exec_cellReceived_doomed ht hd

/-- Settles O29. -/
theorem tunnelDrainAndKeyCommandsComplete : Obligations.TunnelDrainAndKeyCommandsComplete := by
  refine ⟨fun s n hn hx h3 => ?_, fun s n hn hx h4 => ?_, fun s n hn h4 hx hc hq => ?_, fun s z n hn h4 hd hz => ?_,
    fun s n slot hn hl => ?_, fun s p n v hn ha => ?_, fun s n hn hd h3 he hk hv => ?_, fun s n hn hd => ?_,
    fun s n k hn hk hl hs hc ha hb => ?_⟩
  · rw [exec, execCloseReceived, onUnit_known (decide_eq_true hn.2), if_neg (by simp [hx, hn.1]), if_pos h3]
  · rw [exec, execCloseReceived, onUnit_known (decide_eq_true hn.2), if_neg (by simp [hx, hn.1]), if_neg (by omega),
      if_pos h4]
  · rw [exec, execCloseSend, onUnit_known (decide_eq_true hn), if_pos (by simp [h4, hx, hc, hq])]
  · have passed : s.drainOver n = true := by simp [State.drainOver, h4, hd]
    rw [exec, execDrainBoundExpired, onUnit_known (decide_eq_true hn), if_pos passed, drainExpired_eq hz]
  · rw [exec, execKeyReadyReceived, onUnit_known (decide_eq_true hn), if_pos hl]
  · rw [exec, execKeySlotNextWrite, onPath_record hn ha]
  · rw [exec, execKeyReadyRepeat, onUnit_known (decide_eq_true hn), if_pos hd, State.announceKey,
      if_pos ⟨h3, he, hk, hv⟩]
  · rw [exec, execOldKeyAcceptExpired, onUnit_known (decide_eq_true hn), if_pos hd]
  · rw [exec, execTwinLagTimeout, onUnit_known (decide_eq_true hn), Nat.mod_eq_of_lt hk,
      if_pos (by simp [hl, hs, hc, ha, hb])]

end Sys2Proof.Scope
end

section
/-!
SUPPORT. A serialiser of a local fabric port (R140): the adapter that takes the cell marks the unit that a tail-bad cell
damages (R298).
-/

set_option Elab.async false

namespace Sys2Proof.Scope

open Sys2Proof Sys2Proof.Machine Sys2Proof.Laws

section
variable {s u : State} {fp cls : Nat} {d : Desc} {kept : List Desc}

/-- A fabric port of the part takes its events (R2). -/
theorem onPort_fabricPort (hp : s.part.hasFabricPort fp = true) (hc : cls < 8) :
    onPort s (fun q => q.hasFabricPort fp && decide (cls < 8)) u = .next u :=
  onPort_has s (by simp [hasFabricPort_full hp, hc]) (by simp [hp, hc])

/-- A PCIe port's serialiser hands its head cell to the port's adapter (R140, R298). -/
theorem exec_egressSerialise_pcie {ready : Bool} (hf : fp = 12 ∨ fp = 13) (hp : s.part.hasFabricPort fp = true)
    (ho : s.portOn fp = true) (hc : cls < 8) (hq : (s.queue (qOf fp cls)).descs = d :: kept)
    (hr : s.mayDeliver fp d.cell.tunnel ready = true) :
    exec (.egressSerialise fp cls 0 ⟨0, ready, none⟩) s =
      .next ((((s.release fp cls [d] kept).storageTakes fp d.cell).count (portKey fp 0x0A) 1).send (.deliver fp d.cell)) := by
  rw [exec, execEgressSerialise, onPort_fabricPort hp hc, hq]
  obtain rfl | rfl := hf <;> simp [ho, hr, State.localTakes]

/-- A unit's last cell with the tail-bad mark damages the unit at the PCIe port that takes it (R298). -/
theorem storageTakes_tailBad {c : Cell} (hf : fp ≠ 18) (hl : c.last = true) (hb : c.bad = true) (hk : c.kind = 0) :
    (s.storageTakes fp c).stor.hurt = s.stor.hurt ++ [(c.tunnel, c.seq % 65536, if c.len = 0 then 3 else 2)] := by
  rw [State.storageTakes, if_neg fun h => hf h.1, if_pos ⟨hl, hb, hk⟩]
  rfl

/-- A cell that leaves its queue, its count and its delivery touch nothing of the storage adapters. -/
theorem release_stor : (s.release fp cls [d] kept).stor = s.stor :=
  (keeps_State_release s fp cls [d] kept (.refl _ s) (sub_self _)).same .stor rfl

theorem countedDelivery_stor {k : Nat} : ((s.count k 1).send (.deliver fp d.cell)).stor = s.stor := count_stor s k 1

end

/-- The last cell, tail-bad, of a unit of tunnel 16. -/
def tailBadDesc : Desc := { cell := { tunnel := 16, cls := 0, first := false, bad := true, len := 20 }, flow := 16 }

/-- The tail-bad cell at the head of a queue to PCIe port 0, whose power domain is on. -/
def tailBadToPcie : State :=
  { State.reset.setAll [(domKey 11, 2)] with fabric := { queues := [(qOf 12 0, { descs := [tailBadDesc] })] } }

theorem tailBadToPcie_hasPort : tailBadToPcie.part.hasFabricPort 12 = true := by decide

theorem tailBadToPcie_on : tailBadToPcie.portOn 12 = true := by decide

theorem tailBadToPcie_descs : (tailBadToPcie.queue (qOf 12 0)).descs = [tailBadDesc] := by decide

theorem tailBadToPcie_delivers : tailBadToPcie.mayDeliver 12 16 true = true := by decide

/-- Refutes O30: its fourth clause has the serialiser release, count and deliver the cell and says nothing of the adapter
that takes it. At a PCIe port the adapter notes that a tail-bad cell damages its unit (R298), so the clause's state is
another one. -/
theorem not_fabricCommandsComplete : ¬ Obligations.FabricCommandsComplete := by
  rintro ⟨-, -, -, delivered, -⟩
  have clause := delivered tailBadToPcie _ 12 0 true tailBadDesc [] (by decide) tailBadToPcie_hasPort tailBadToPcie_on
    (by decide) tailBadToPcie_descs tailBadToPcie_delivers rfl
  rw [exec_egressSerialise_pcie (.inl rfl) tailBadToPcie_hasPort tailBadToPcie_on (by decide) tailBadToPcie_descs
    tailBadToPcie_delivers] at clause
  have hurt := congrArg (·.stor.hurt) (Host.Outcome.next.inj clause)
  simp only [countedDelivery_stor] at hurt
  rw [storageTakes_tailBad (by decide) rfl rfl rfl, if_neg (by decide), release_stor] at hurt
  exact absurd hurt (by decide)

end Sys2Proof.Scope
end

section
/-!
SUPPORT. The Ethernet ports and redundancy pairs (R136, R262, R263, R264, R265, R266, R286, R291): a port's units, and a
frame's way through the checks of R264.
-/

set_option Elab.async false

namespace Sys2Proof.Scope

open Sys2Proof Sys2Proof.Machine Sys2Proof.Laws

section
variable {s u : State} {e k : Nat} {f : Bytes}

/-- A port of the part takes its events (R2). -/
theorem onPort_eth (h : s.part.hasEth e = true) : onPort s (fun q => q.hasEth e) u = .next u :=
  onPort_has s (hasEth_full h) h

theorem hasEth_lt {x : Part} (h : x.hasEth e = true) : e < 8 := of_decide_eq_true (hasEth_full h)

/-- A port that takes part is on the part (R125). -/
theorem ethUp_hasEth (h : s.ethUp e = true) : s.part.hasEth e = true := by
  simp only [State.ethUp, Bool.and_eq_true] at h
  exact h.1.1

/-- A path that the hub has reaches a port's block. -/
theorem onPath_eth {p : Path} (he : s.part.hasEth e = true) (hp : p.ok = true) :
    onPath p (decide (e < 8)) s u = .next u := onPath_ok s (decide_eq_true (hasEth_lt he)) hp

/-- A port's counters lie apart from its pair's mode. -/
theorem count_pairMode {n : Nat} : (s.count (ethStat e 3) n).pairMode e = s.pairMode e :=
  count_get_ne (by unfold pairKey ethStat ob; omega)

/-! A frame at a port of an independent pair (R265). -/

theorem inner_independent (h : s.pairMode e = 0) : s.inner e f = f := by
  simp [State.inner, h]

theorem ringTag_independent (h : s.pairMode e = 0) : s.ringTag e f = [] := by
  simp [State.ringTag, h]

theorem pairIn_independent (h : s.pairMode e = 0) : s.pairIn e f = (some f, s) := by
  simp [State.pairIn, h]

/-- Without a tag a frame is not passed on round the ring. -/
theorem ringOn_untagged {fixed : Bool} {g : Bytes} : s.ringOn e fixed [] g = s := by
  simp [State.ringOn]

theorem reportAnnounce_other (h : isPtp f = false) : s.reportAnnounce e f = s := if_neg (by simp [h])

theorem ptpOwn_other (h : isPtp f = false) : ptpOwn f = false := by simp [ptpOwn, h]

/-- A frame that is too short is counted and discarded as a length error (R262, R264). -/
theorem frameReceived_short (hu : s.ethUp e = true) (hl : s.get (ethStat e 1) = 1) (hs : f.length < 64) :
    s.frameReceived e f = (s.count (ethStat e 3) 1).ethErrors e 0 1 0 := by
  simp [State.frameReceived, hu, hl, hs]

/-- A good frame that is neither PTP nor supervision is counted and forwarded as it came, where the port's pair is
independent (R264, R265). -/
theorem frameReceived_good (hu : s.ethUp e = true) (hl : s.get (ethStat e 1) = 1)
    (hn : 64 ≤ f.length ∧ f.length ≤ s.get (ethCfg e 4)) (hc : fcsGood f = true) (hp : isPtp (dropFcs f) = false)
    (hm : s.pairMode e = 0) (ht : etherType (dropFcs f) ≠ 0x88FB) :
    s.frameReceived e f = (s.count (ethStat e 3) 1).forward e false (dropFcs f) := by
  have mode : (s.count (ethStat e 3) 1).pairMode e = 0 := count_pairMode.trans hm
  simp [State.frameReceived, hu, hl, Nat.not_lt.mpr hn.1, Nat.not_lt.mpr hn.2, hc, inner_independent hm,
    ringTag_independent hm, ptpOwn_other hp, reportAnnounce_other hp, ht, pairIn_independent mode, ringOn_untagged]

end

/-- Settles O41. -/
theorem ethernetCommandsComplete : Obligations.EthernetCommandsComplete := by
  refine ⟨fun s e f hu hl hn hc hp hm ht => ?_, fun s y e f hu hl hs hy => ?_, fun s e n hu hl hr => ?_,
    fun s e he hl => ?_, fun s e q hu hl hx => ?_, fun s p e he hc => ?_, fun s k he hm hd => ?_,
    fun s e he hl hg => ?_, fun s k mac x he hx hd => ?_⟩
  · rw [exec, execEthFrameReceived, onPort_eth (ethUp_hasEth hu), frameReceived_good hu hl hn hc hp hm ht]
  · rw [exec, execEthFrameReceived, onPort_eth (ethUp_hasEth hu), frameReceived_short hu hl hs, hy]
  · rw [exec, execEthLinkUp, onPort_eth (ethUp_hasEth hu), hu, hr, if_neg (by simp [hl])]
  · rw [exec, execEthLinkDown, onPort_eth he, State.ethLinkLost, if_neg (by simp [hl])]
  · rw [exec, execPauseFrameReceived, onPort_eth (ethUp_hasEth hu), if_pos ⟨hu, hl, hx⟩]
  · rw [exec, execEthPortClearCounters, onPath_eth he (takes_ok s hc), commandNow_any s hc (by simp) rfl]
  · rw [exec, execLifeCheckTimer, onPort_eth he, if_pos ⟨hm, hd⟩]
  · rw [exec, execSupervisionTimeout, onPort_eth he, if_pos (by simp [hl, hg])]
  · rw [exec, execNodeForgetTimeout, onPort_eth he, hx]
    dsimp only
    rw [if_pos hd]

end Sys2Proof.Scope
end

section
/-!
SUPPORT. The scheduler of a trunk (R150, R151, R155): a cycle that is due, a place with cell times left, and a switch that is
announced.
-/

set_option Elab.async false

namespace Sys2Proof.Scope

open Sys2Proof Sys2Proof.Machine Sys2Proof.Laws

section
variable {s : State} {p : Path} {t : Nat}

@[simp] theorem updSched_sched {f : Sched → Sched} : (s.updSched t f).sched t = f (s.sched t) := get_put_same ..

@[simp] theorem set_sched {k v : Nat} : (s.set k v).sched t = s.sched t := rfl

/-- A cycle falls due on a Trained trunk (R150). -/
theorem cycleDue_trained (h : s.cycleDue t = true) : s.trained t = true := by
  simp only [State.cycleDue, Bool.and_eq_true] at h
  exact h.1.1

/-- A Trained trunk is past Verify, whose markers are due no more (R79). -/
theorem verifyDue_trained (ht : s.part.hasTrunk t = true) (h : s.trained t = true) : s.verifyDue t = false := by
  simp [State.verifyDue, (trained_iff ht).mp h]

theorem exec_schedCellTime_trained {ecc : Nat} (ht : s.part.hasTrunk t = true) (h : s.trained t = true) :
    exec (.schedCellTime t ecc) s = .next ((s.cellTime t ecc).retrainCheck t) := by
  rw [exec, execSchedCellTime, onPort_trunk ht, if_pos h]

/-- A best-effort place that is not in its last cell time gives one to the best-effort service (R151). -/
theorem cellTime_bestEffort {ecc k len : Nat} {r : List (Nat × Nat)} (hp : (s.sched t).places = (k, len) :: r)
    (hl : 1 < len) (hk : 1 ≤ k ∧ k ≤ 3) :
    s.cellTime t ecc =
      (s.updSched t fun x => { x with places := (k, len - 1) :: r }).bestEffortTime t ecc true false := by
  have more : ¬ len ≤ 1 := Nat.not_le.mpr hl
  have control : k ≠ 0 := by omega
  have gate : ¬ (4 ≤ k ∧ k ≤ 7) := by omega
  have planned : k ≠ 8 := by omega
  simp [State.cellTime, hp, more, control, gate, planned]

/-- A control place sends a control cell (R151). -/
theorem cellTime_control {ecc len : Nat} {r : List (Nat × Nat)} (hp : (s.sched t).places = (0, len) :: r) :
    s.cellTime t ecc =
      (s.updSched t fun x => { x with places := if len ≤ 1 then r else (0, len - 1) :: r }).sendControlCell t := by
  simp [State.cellTime, hp]

/-- The owner takes a next table that breaks no rule: a Trained trunk's is announced for its switch cycle, another's waits
for the next cycle start (R155). -/
theorem exec_gateTableSwitch_checked {a : State} (ht : s.part.hasTrunk t = true) (hc : s.takes p (0x2610 + t) 1)
    (ha : a = (s.touch p).cmdAccept (0x2610 + t) 1 p) (ho : a.ownsSchedule t = true)
    (hr : tableRule (a.table (0x2610 + t)) = 0) :
    exec (.gateTableSwitch p t) s = .next
      (if a.trained t = true then
        (a.updSched t fun y => { y with switch := a.switchCycle t, next := a.table (0x2610 + t) }).set (ob (0x2618 + t) 4)
          (a.switchCycle t)
      else a.updSched t fun y => { y with switch := 0, next := a.table (0x2610 + t) }) := by
  rw [exec, execGateTableSwitch, onPath_trunk ht (takes_ok s hc), command_any s hc (by simp) rfl, ← ha]
  simp [ho, hr]

/-- Taking the command leaves the cycle that its switch falls on (R155). -/
theorem accepted_switchCycle {i v : Nat} (hi : i = 0x2610 + t) :
    ((s.touch p).cmdAccept i v p).switchCycle t = s.switchCycle t := by
  have lead : ((s.touch p).cmdAccept i v p).get (ob (0x2610 + t) 0x41) = s.get (ob (0x2610 + t) 0x41) :=
    accepted_get fun n _ _ => by subst hi; simp only [ne_eq, ob_inj]; omega
  rw [State.switchCycle, lead, accepted_trunk, State.switchCycle]

/-- The announcement of a switch stands in the schedule and in the trunk's status, and the command still runs (R155). -/
theorem announced_shows {x : Nat} {es : List Nat} {z : State}
    (hz : z = (s.updSched t fun y => { y with switch := x, next := es }).set (ob (0x2618 + t) 4) x) :
    (z.sched t).switch = x ∧ (z.sched t).next = es ∧ z.get (ob (0x2618 + t) 4) = x ∧
      z.cmdStatus (0x2610 + t) = s.cmdStatus (0x2610 + t) := by
  have sched : z.sched t = { s.sched t with switch := x, next := es } := by rw [hz, set_sched, updSched_sched]
  refine ⟨by rw [sched], by rw [sched], by rw [hz, get_set, if_pos rfl], ?_⟩
  rw [hz, State.cmdStatus, get_set, if_neg (by unfold ob; omega)]
  rfl

end

/-- Settles O32. -/
theorem schedulerCommandsComplete : Obligations.SchedulerCommandsComplete := by
  refine ⟨fun s a t ht hd ha => ?_, fun s t ecc k len r ht h hp hl hk => ?_, fun s t ecc len r ht h hp => ?_,
    fun s a p t ht hc ha ho hr h => ?_, fun s a p t ht hc ha ho hr h => ?_, fun s t ht h hm hv => ?_,
    fun s t ht h he => ?_⟩
  · rw [exec, execSchedCycleStart, onPort_trunk ht, verifyDue_trained ht (cycleDue_trained hd), if_neg (by simp),
      if_pos hd, ha]
  · rw [exec_schedCellTime_trained ht h, cellTime_bestEffort hp hl hk]
  · rw [exec_schedCellTime_trained ht h, cellTime_control hp]
  · rw [exec_gateTableSwitch_checked ht hc ha ho hr, if_neg (by simp [h])]
  · obtain ⟨switch, next, shown, runs⟩ := announced_shows (s := a) (t := t) (x := a.switchCycle t)
      (es := a.table (0x2610 + t)) rfl
    refine ⟨_, a.switchCycle t, (exec_gateTableSwitch_checked ht hc ha ho hr).trans (by rw [if_pos h]), ?_,
      switch, next, shown, runs.trans ?_⟩
    · rw [ha, accepted_switchCycle rfl, State.switchCycle]
    · rw [ha]
      exact cmdAccept_status _
  · rw [exec, execSchedVersionMismatch, onPort_trunk ht, if_pos ⟨h, hm, hv⟩, State.schedRate]
  · rw [exec, execCarveEpoch, onPort_trunk ht, if_pos ⟨h, he⟩]

end Sys2Proof.Scope
end

section
/-!
SUPPORT. Display outputs (R177, R178, R179, R181, R189, R190, R194): an output's ports and paths, its own state after a change,
and what its commands do where the rules' conditions hold.
-/

set_option Elab.async false

namespace Sys2Proof.Scope

open Sys2Proof Sys2Proof.Machine Sys2Proof.Laws

section
variable {s u : State} {d : Nat}

theorem hasOutput_lt {x : Part} (h : x.hasOutput d = true) : d < 4 := of_decide_eq_true (hasOutput_full h)

/-- An output of the part takes its events (R2). -/
theorem onPort_output (h : s.part.hasOutput d = true) : onPort s (fun q => q.hasOutput d) u = .next u :=
  onPort_has s (hasOutput_full h) h

/-- So does what belongs to an output of the part: one kind of output, or a region of it. -/
theorem onPort_outputUnit {known : Bool} (h : s.part.hasOutput d = true) (hk : known = true) :
    onPort s (fun q => q.hasOutput d && known) u = .next u :=
  onPort_has s (by simp [hasOutput_full h, hk]) (by simp [h, hk])

theorem onPort_layer {l : Nat} (hl : l < 16) (h : s.part.hasOutput (l / 4) = true) :
    onPort s (fun q => decide (l < 16) && q.hasOutput (l / 4)) u = .next u :=
  onPort_has s (by simp [hasOutput_full h, hl]) (by simp [h, hl])

/-- A path that the hub has reaches an output's command block. -/
theorem onPath_outputCommand {p : Path} {i result : Nat} {eff : State → State} (h : s.part.hasOutput d = true)
    (hc : s.takes p i 1) :
    onPath p (decide (d < 4)) s (s.commandNow p i 1 anyState [1] [] result eff) =
      .next ((eff ((s.touch p).cmdAccept i 1 p)).cmdCommit i result) := by
  rw [decide_eq_true (hasOutput_lt h), onPath_commandNow hc (by simp)]

@[simp] theorem updDisp_disp {f : Disp → Disp} : (s.updDisp d f).disp d = f (s.disp d) := get_put_same ..

/-- A write that breaks no budget is not counted (R191). -/
theorem budgetCount_fits {kind : Option Nat} : s.budgetCount false kind = s := by simp [State.budgetCount]

/-- OutputEnable's write of 1, where the timing and the budget pass their checks (R181, R191). -/
theorem exec_outputEnable_checked {p : Path} (h : s.part.hasOutput d = true) (ha : s.allows p (0x2800 + d) 1 1)
    (ht : s.outTimingBad d = false) (hb : s.budgetBad (outCfg d 1) 1 = false) :
    exec (.outputEnable p d) s = .next (((s.touch p).set (outCfg d 1) 1).outStart d) := by
  have fits : kindIf false 7 = [] := rfl
  rw [exec, execOutputEnable]
  simp only [ht, hb, Bool.or_false, Bool.and_false, fits, budgetCount_fits]
  exact onPath_writeNum (decide_eq_true (hasOutput_lt h)) ha

/-- IRQ_HPD on a Running output reads the link status, and trains again a link that is lost (R177, R179). -/
theorem exec_irqHpd_running {good : Bool} {goods : List (Nat × Nat)} (h2 : d < 2) (h : s.part.hasOutput d = true)
    (hs : s.outState d = 2) :
    exec (.irqHpd d good goods) s = .next (if good = true then s.send (.dpAux d 0x202 6) else
      match s.dpLink d goods with
      | none => (s.send (.dpAux d 0x202 6)).outDown d 2
      | some (rate, lanes) =>
        if s.dpCarries d rate lanes = true then (s.send (.dpAux d 0x202 6)).linkRuns d rate lanes
        else (s.send (.dpAux d 0x202 6)).outDown d 3) := by
  rw [exec, execIrqHpd, onPort_outputUnit h (decide_eq_true h2), if_pos hs]
  rfl

/-- Training that ends with a link that carries the stream: the output runs, glides where it may and reports itself (R177,
R179). -/
theorem exec_dpLinkTrainingDone_carries {x y : State} {rate lanes sinkRate sinkLanes cap : Nat} {goods : List (Nat × Nat)}
    {edid : Bytes} (h2 : d < 2) (h : s.part.hasOutput d = true) (hs : s.outState d = 1) (hh : (s.disp d).hpd = true)
    (hx : x = ((s.stop (.hpdLow d)).updDisp d fun x => { x with adapt := cap, sinkRate, sinkLanes }).setAll
      [(outStat d 0x12, ofBool (cap.testBit 6)), (outStat d 0x14, leNat (fitBytes 256 edid))])
    (hl : x.dpLink d goods = some (rate, lanes)) (hc : x.dpCarries d rate lanes = true)
    (hy : y = ((x.setAll [(outStat d 1, 2), (outStat d 2, 0), (outStat d 0x13, 0)]).linkRuns d rate lanes).glideActive d) :
    exec (.dpLinkTrainingDone d sinkRate sinkLanes cap goods edid) s =
      .next ((y.noGlide d).outEv d 0x6001 0 0 (u16 rate ++ u16 lanes ++ u16 (y.get (outStat d 0x13)))) := by
  rw [exec, execDpLinkTrainingDone, onPort_outputUnit h (decide_eq_true h2), if_neg (by simp [hs, hh])]
  dsimp only
  rw [← hx, hl]
  simp [hc, hy]

theorem judgeFlips_noTunnel (h : s.outTunnel d = none) : s.judgeFlips d = s := by rw [State.judgeFlips, h]

/-- The front porch reaches its plan without gliding: the frame is latched (R189). -/
theorem exec_frontPorchLineEnd_latches (h : s.part.hasOutput d = true) (hs : s.outState d ≠ 0)
    (hp : (s.disp d).porch = true) (ht : s.outTunnel d = none) (hl : (s.disp d).plan ≤ (s.disp d).line + 1)
    (hg : s.get (outCfg d 0x0E) = 0) :
    exec (.frontPorchLineEnd d) s = .next ((s.updDisp d fun x => { x with line := x.line + 1 }).latch d false) := by
  rw [exec, execFrontPorchLineEnd, onPort_output h, if_neg (by simp [hs, hp]), judgeFlips_noTunnel ht]
  simp only [updDisp_disp, updDisp_get]
  rw [if_neg (Nat.not_lt.mpr hl), if_pos (.inr (.inl hg))]

/-- A pixel of a layer that is shown is missing: the layer is blanked from there on, counted and reported (R190). -/
theorem exec_layerUnderrun_shown {l x y : Nat} (hl : l < 16) (h : s.part.hasOutput (l / 4) = true)
    (hs : s.outState (l / 4) ≠ 0) (hp : (s.disp (l / 4)).porch = false)
    (hb : (s.disp (l / 4)).blanked.testBit (l % 4) = false) (hx : x < s.timing_ (l / 4) 3) (hy : y < s.timing_ (l / 4) 7)
    (ha : s.layerAt (l / 4) (l % 4) x y ≠ none) :
    exec (.layerUnderrun l ⟨x, y⟩) s = .next (((((s.updDisp (l / 4) fun w =>
        { w with blanked := setBit w.blanked (l % 4), blankAt := Sparse.put 0 (l % 4) (y * 65536 + x) w.blankAt }).count
      (layStat l 4) 1).count (layStat l 5) (s.pixelsFrom (l / 4) (l % 4) x y)).set (layStat l 6) s.station).evRate 0x6030 l 3
        (112 + l) (sec 1) (u16 l) [1, s.pixelsFrom (l / 4) (l % 4) x y] []) := by
  have shown : ¬ (s.outState (l / 4) = 0 ∨ (s.disp (l / 4)).porch = true ∨
      (s.disp (l / 4)).blanked.testBit (l % 4) = true ∨ s.timing_ (l / 4) 3 ≤ x ∨ s.timing_ (l / 4) 7 ≤ y ∨
      s.layerAt (l / 4) (l % 4) x y = none) := by
    simp [hs, hp, hb, ha, hx, hy]
  rw [exec, execLayerUnderrun]
  dsimp only
  rw [onPort_layer hl h, if_neg shown]
  rfl

end

/-- Settles O33. -/
theorem displayOutputCommandsComplete : Obligations.DisplayOutputCommandsComplete := by
  refine ⟨fun s p d h ha ht hb => exec_outputEnable_checked h ha ht hb, fun s p d h ha => ?_, fun s d h2 h hs => ?_,
    fun s d h2 h hs => ?_, fun s d h2 h hd => ?_, fun s d goods h2 h hs => ⟨?_, fun hl => ?_, fun rate lanes hl => ?_⟩,
    fun s x d rate lanes sinkRate sinkLanes cap goods edid h2 h hs hh hx hl hc => ?_, fun s d h2 h hs => ?_,
    fun s d h hs hp ht hl hg => exec_frontPorchLineEnd_latches h hs hp ht hl hg,
    fun s l x y n hl h hs hp hb hx hy ha hn => ?_, fun s p d h hc => ?_⟩
  · rw [exec, execOutputDisable, onPath_writeNum (decide_eq_true (hasOutput_lt h)) ha]
  · rw [exec, execHpdAsserted, onPort_outputUnit h (decide_eq_true h2)]
    exact congrArg _ (if_neg fun down => hs down.1)
  · rw [exec, execHpdDeasserted, onPort_outputUnit h (decide_eq_true h2)]
    exact congrArg _ (if_pos hs)
  · rw [exec, execHpdLowTimeout, onPort_outputUnit h (decide_eq_true h2), if_pos hd]
  · rw [exec_irqHpd_running h2 h hs, if_pos rfl]
  · rw [exec_irqHpd_running h2 h hs, hl, if_neg (by simp)]
  · rw [exec_irqHpd_running h2 h hs, hl, if_neg (by simp)]
  · exact ⟨_, _, exec_dpLinkTrainingDone_carries h2 h hs hh hx hl hc rfl, rfl, rfl⟩
  · refine ⟨_, rfl, ?_⟩
    rw [exec, execLvdsClockStable, onPort_outputUnit h (decide_eq_true h2), if_pos hs]
  · exact ⟨_, rfl, by rw [exec_layerUnderrun_shown hl h hs hp hb hx hy ha, ← hn]⟩
  · rw [exec, execOutputClearCounters, onPath_outputCommand h hc]

end Sys2Proof.Scope
end

section
/-!
SUPPORT. Regions, receipts and display cells (R185, R199, R202, R203, R205, R208, R213).
-/

set_option Elab.async false

namespace Sys2Proof.Scope

open Sys2Proof Sys2Proof.Machine Sys2Proof.Laws

section
variable {s : State} {d r : Nat}

/-- Of the numbers up to one that a check passes, it alone passes. -/
theorem filter_upTo_only {p : Nat → Bool} (h : p r = true) (first : ∀ k, k < r → p k = false) :
    (upTo (r + 1)).filter p = [r] := by
  have none : (List.range r).filter p = [] :=
    List.filter_eq_nil_iff.mpr fun k hk => by simp [first k (List.mem_range.mp hk)]
  rw [upTo, List.range_succ, List.filter_append, none, List.nil_append, List.filter_singleton, h, cond_true]

/-- The first region to complete in its line completes alone (R199, R210). -/
theorem exec_signatureCompletion_first (h : s.part.hasOutput d = true) (hr : r < 8) (hp : s.pendingRegion d r = true)
    (first : ∀ k, k < r → s.pendingRegion d k = true → s.lastLine d k ≠ s.lastLine d r) :
    exec (.signatureCompletion d r) s = .next (s.regComplete d r) := by
  have alone : (upTo (r + 1)).filter (fun k => s.pendingRegion d k && decide (s.lastLine d k = s.lastLine d r)) = [r] :=
    filter_upTo_only (by simp [hp]) fun k hk => by simpa using first k hk
  rw [exec, execSignatureCompletion, onPort_outputUnit h (decide_eq_true hr), if_pos hp, alone]
  rfl

/-- A region that is judged, Good or Mismatch, freezes once FreezeTime has passed, but for a completion that is still to come
in the line that is sent (R202, R203). -/
theorem exec_freezeTimeExpired_freezes (h : s.part.hasOutput d = true) (hr : r < 8) (hs : s.outState d ≠ 0)
    (hm : (s.region d r).mode ≠ 0) (ha : (s.disp d).rearm = false)
    (hj : s.get (regStat d r 1) = 2 ∨ s.get (regStat d r 1) = 4)
    (hc : s.pendingRegion d r = true → s.scanLine d ≠ some (s.lastLine d r))
    (ht : s.get (regStat d r 6) + msec (s.get (integ d 2)) ≤ s.station) :
    exec (.freezeTimeExpired d r) s = .next (s.frozen_ d r 2) := by
  have armed : s.get (regStat d r 1) ≠ 1 := by omega
  have passed : ¬ s.station < s.get (regStat d r 6) + msec (s.get (integ d 2)) := Nat.not_lt.mpr ht
  rw [exec, execFreezeTimeExpired, onPort_outputUnit h (decide_eq_true hr)]
  dsimp only
  rw [if_neg armed, if_neg (by simp [hs, hm, ha, passed]), if_neg fun still => hc still.1 still.2, if_pos (.inr hj)]

/-! The end of the active area (R178, R187, R208). -/

/-- The frame that goes out at the end of the active area of an output that runs (R177, R178). -/
def frameSent (s : State) (d : Nat) : State :=
  if s.outState d ≠ 2 then s
  else if 2 ≤ d then s.send (.lvds d (s.lvdsFrame d)) else s.send (.rgb d (s.timing_ d 0x0F) (s.rgbFrame d))

theorem exec_activeAreaEnd_scanning (h : s.part.hasOutput d = true) (hs : s.outState d ≠ 0) (hp : (s.disp d).porch = false) :
    exec (.activeAreaEnd d) s =
      .next ((((frameSent s d).judgeFlips d).updDisp d fun x => { x with porch := true, line := 0 }).sendReceipt d) := by
  rw [exec, execActiveAreaEnd, onPort_output h, if_neg (by simp [hs, hp]), frameSent]

/-- The frame goes out and nothing else changes. -/
theorem frameSent_eq : ∃ sent, frameSent s d = { s with sent } := by
  unfold frameSent
  split
  · exact ⟨_, rfl⟩
  · split <;> exact ⟨_, rfl⟩

/-- Without a flip and without a cell that waits there is nothing to judge (R187). -/
theorem judgeFlips_idle (hf : (s.disp d).flips = []) (he : (s.disp d).early = []) : s.judgeFlips d = s := by
  unfold State.judgeFlips
  split
  · rfl
  · have early (n : Nat) : s.dropEarly n d = s := by simp [State.dropEarly, he]
    simp [early, hf, forAll]

/-- An Open version-2 tunnel takes the receipt where receipts are on and no buffer returns (R188, R208). -/
theorem sendReceipt_open {n : Nat} (ht : s.outTunnel d = some n) (hv : s.get (tunKey n 0x12) = 2)
    (hi : s.get (integ d 4) = 1) (hf : (s.disp d).freed = []) :
    s.sendReceipt d = ((s.updDisp d fun x => { x with freed := [] }).count (integ d 5) 1).unitOut 14 n false
      ((s.updDisp d fun x => { x with freed := [] }).receipt d) := by
  simp [State.sendReceipt, ht, hv, hi, hf, State.giveBack, forAll]

/-- The end of the active area of an output that has nothing to judge: the frame goes out, the porch opens and the receipt
goes back. -/
theorem exec_activeAreaEnd_receipt {n : Nat} {y : State} (h : s.part.hasOutput d = true) (hs : s.outState d ≠ 0)
    (hp : (s.disp d).porch = false) (ht : s.outTunnel d = some n) (hq : (s.disp d).flips = [] ∧ (s.disp d).early = [])
    (hv : s.get (tunKey n 0x12) = 2) (hi : s.get (integ d 4) = 1) (hf : (s.disp d).freed = [])
    (hy : y = ((frameSent s d).updDisp d fun x => { x with porch := true, line := 0 }).updDisp d
      fun x => { x with freed := [] }) :
    exec (.activeAreaEnd d) s = .next ((y.count (integ d 5) 1).unitOut 14 n false (y.receipt d)) := by
  obtain ⟨sent, e⟩ := frameSent_eq (s := s) (d := d)
  have idle : (frameSent s d).judgeFlips d = frameSent s d := by
    rw [e]
    exact judgeFlips_idle hq.1 hq.2
  rw [exec_activeAreaEnd_scanning h hs hp, idle, hy, sendReceipt_open (n := n)]
  · rw [e]; exact ht
  · rw [e]; exact hv
  · rw [e]; exact hi
  · rw [e, updDisp_disp]; exact hf

end

/-- Settles O34. -/
theorem displayRegionCommandsComplete : Obligations.DisplayRegionCommandsComplete := by
  refine ⟨fun s n d c hn ho hl hd hk => ?_, fun s d r h hr hp first => ⟨_, rfl, ?_⟩,
    fun s d r h hr hs hm ha hj hc ht => exec_freezeTimeExpired_freezes h hr hs hm ha hj hc ht,
    fun s d n h hs hp ht hq hv hi hf => ⟨_, rfl, ?_⟩, fun s p d h hc => ?_, fun s p d r x h hr ha => ?_,
    fun s d h h2 hs hp => ?_⟩
  · rw [exec, execDisplayCellReceived, onUnit_known (decide_eq_true hn), ho]
    dsimp only
    rw [if_neg (by simp [hl, hd, hk])]
  · rw [exec_signatureCompletion_first h hr hp first, State.regComplete]
  · exact exec_activeAreaEnd_receipt h hs hp ht hq hv hi hf rfl
  · rw [exec, execIntegrityClear, onPath_outputCommand h hc]
  · rw [exec, execExpectedSignatureWrite, onPath_writeNum (by simp [hasOutput_lt h, hr]) ha]
  · rw [exec_activeAreaEnd_scanning h (by omega) hp, frameSent, if_neg (by simp [hs]), if_pos h2]

end Sys2Proof.Scope
end

section
/-!
SUPPORT. What storage stores in DRAM (R293, R294, R297): a drive's write, and a unit of data at the drive side.
-/

set_option Elab.async false

namespace Sys2Proof.Scope

open Sys2Proof Sys2Proof.Machine Sys2Proof.Laws

section
variable {s t u : State} {a : Nat}

/-- An effect that does not change DRAM leaves its bytes. -/
theorem dramByte_of_keeps {S : Piece → Bool} (k : Keeps S s t) (h : S .dram = false) : t.dramByte a = s.dramByte a := by
  rw [State.dramByte, k.same .dram h, State.dramByte]

theorem updPcie_dramByte {p : Nat} {f : Pcie → Pcie} : (s.updPcie p f).dramByte a = s.dramByte a := by
  rw [State.dramByte, updPcie_dram, State.dramByte]

theorem complete_dramByte {p tag status : Nat} {locked : Bool} {bs : Bytes} :
    (s.complete p tag status locked bs).dramByte a = s.dramByte a :=
  dramByte_of_keeps (keeps_State_complete s p tag status locked bs (.refl _ s) (sub_self _)) rfl

theorem pcieErrors_dramByte {p replays poisoned ur ca : Nat} :
    (s.pcieErrors p replays poisoned ur ca).dramByte a = s.dramByte a :=
  dramByte_of_keeps (keeps_State_pcieErrors s p replays poisoned ur ca (.refl _ s) (sub_self _)) rfl

theorem onPort_next {has : Part → Bool} (h : onPort s has u = .next t) : t = u ∨ t = s := by
  unfold onPort at h
  grind

theorem onUnit_next {known : Bool} (h : onUnit known u = .next t) : t = u := by
  unfold onUnit at h
  grind

/-! A drive's request (R292, R293). -/

section
variable {p k : Nat} {x : TlpData} {eff : State → State}

/-- Errors of a port are counted in its own status (R314). -/
theorem pcieErrors_get {replays poisoned ur ca : Nat} (h : ∀ n, k ≠ pcieStat p n) :
    (s.pcieErrors p replays poisoned ur ca).get k = s.get k := by
  rw [State.pcieErrors, evRate_get, count_get_ne (h _), count_get_ne (h _), count_get_ne (h _), count_get_ne (h _)]
  split <;> split <;> split <;> simp only [State.aerSet, updPcie_get]

/-- What a port's status shows lies apart from StorageGlobal (R312). -/
theorem storageGlobal_ne_pcieStat {sub n : Nat} (h : sub < 0x300) : ob 0x2D00 sub ≠ pcieStat p n := by
  unfold pcieStat ob
  omega

theorem tlpIn_dramByte (h : ∀ z, (eff z).dramByte a = z.dramByte a) : (s.tlpIn p x eff).dramByte a = s.dramByte a := by
  have counted : (s.count (pcieStat p 5) 1).dramByte a = s.dramByte a := by
    rw [State.dramByte, count_dram, State.dramByte]
  unfold State.tlpIn
  extract_lets y z
  have passed : z.dramByte a = s.dramByte a := by
    unfold z
    split
    · exact counted
    · exact pcieErrors_dramByte.trans counted
  split
  · exact updPcie_dramByte.trans passed
  · split
    · rw [h]
      split
      · exact pcieErrors_dramByte.trans passed
      · exact passed
    · exact complete_dramByte.trans (pcieErrors_dramByte.trans passed)

/-- A request for memory whose ECRC is right goes on, with the errors counted that it brings (R292). -/
theorem tlpIn_memory (hk : x.kind = .memory) (he : x.ecrcBad = false) :
    ∃ z, s.tlpIn p x eff = eff z ∧ ∀ sub, sub < 0x300 → z.get (ob 0x2D00 sub) = s.get (ob 0x2D00 sub) := by
  unfold State.tlpIn
  extract_lets y z
  refine ⟨_, by rw [if_neg (by simp [he]), if_pos hk], fun sub hs => ?_⟩
  have counted : y.get (ob 0x2D00 sub) = s.get (ob 0x2D00 sub) := count_get_ne (storageGlobal_ne_pcieStat hs)
  have replayed : z.get (ob 0x2D00 sub) = s.get (ob 0x2D00 sub) := by
    unfold z
    split
    · exact counted
    · exact (pcieErrors_get fun n => storageGlobal_ne_pcieStat hs).trans counted
  split
  · exact (pcieErrors_get fun n => storageGlobal_ne_pcieStat hs).trans replayed
  · exact replayed

end

section
variable {p addr len be tag : Nat} {write : Bool} {data : TlpData}

/-- What a drive's request does once the port has taken it (R293). -/
def deviceTlp (p : Nat) (write : Bool) (addr len be tag : Nat) (data : TlpData) (s : State) : State :=
  if s.get (ob 0x2D00 1) ≤ addr ∧ addr < s.get (ob 0x2D00 1) + s.stagingSize then
    if write then (s.stagingTakes data.bytes.length).dramEnabled addr be data.bytes
    else s.complete p tag 0 false (s.dramRead (addr / 4 * 4) (4 * len))
  else if s.get (pcieCfg p 0x0C) ≤ addr ∧ addr < s.get (pcieCfg p 0x0C) + 2 ^ s.get (pcieCfg p 0x0D) then
    if write then s.windowWrite p addr be data.bytes data.poisoned else s.windowRead p addr len be tag false
  else if write ∧ s.queueMode ∧ addr = Config.msixAddress p then s
  else if write then s.pcieErrors p 0 0 1 0
  else (s.pcieErrors p 0 0 1 0).complete p tag 1 false []

theorem exec_rootPortDeviceRequest :
    exec (.rootPortDeviceRequest p write addr len be tag data) s = onPort s (fun q => q.hasPcie p)
      (if !s.pcieUp p ∨ !s.isRoot p ∨ (!write ∧ s.deviceReadHeld p addr len) ∨ (write ∧ s.deviceWriteHeld p addr) then s
       else s.tlpIn p { data with tag } (deviceTlp p write addr len be tag data)) := rfl

/-- Of DRAM a request stores the enabled bytes of a write to staging (R293). -/
theorem deviceTlp_frame (ha : write = false ∨ a ∉ enabledBytes addr ((data.bytes.length + 3) / 4) be) :
    (deviceTlp p write addr len be tag data s).dramByte a = s.dramByte a := by
  have timed : (s.stagingTakes data.bytes.length).dramByte a = s.dramByte a :=
    dramByte_of_keeps (keeps_State_stagingTakes s _ (.refl _ s) (sub_self _)) rfl
  unfold deviceTlp
  split
  · split
    next w => exact (dramEnabled_frame _ (ha.resolve_left (by simp [w]))).trans timed
    next => exact complete_dramByte
  · split
    · split
      · exact dramByte_of_keeps (keeps_State_windowWrite s _ _ _ _ _ (.refl _ s) (sub_self _)) rfl
      · exact dramByte_of_keeps (keeps_State_windowRead s _ _ _ _ _ _ (.refl _ s) (sub_self _)) rfl
    · split
      · rfl
      · split
        · exact pcieErrors_dramByte
        · exact complete_dramByte.trans pcieErrors_dramByte

theorem exec_rootPortDeviceRequest_frame (h : exec (.rootPortDeviceRequest p write addr len be tag data) s = .next t)
    (ha : write = false ∨ a ∉ enabledBytes addr ((data.bytes.length + 3) / 4) be) : t.dramByte a = s.dramByte a := by
  rw [exec_rootPortDeviceRequest] at h
  obtain rfl | rfl := onPort_next h
  · split
    · rfl
    · exact tlpIn_dramByte fun z => deviceTlp_frame ha
  · rfl

theorem stagingSize_of_get (h : t.get (ob 0x2D00 2) = s.get (ob 0x2D00 2)) : t.stagingSize = s.stagingSize := by
  rw [State.stagingSize, h, State.stagingSize]

/-- A write to staging that the engine may make now stores its enabled bytes (R293, R294). -/
theorem exec_rootPortDeviceRequest_stores (h : exec (.rootPortDeviceRequest p true addr len be tag data) s = .next t)
    (hu : s.pcieUp p = true) (hr : s.isRoot p = true) (hf : s.stagingFree = true) (hk : data.kind = .memory)
    (he : data.ecrcBad = false) (hb : s.get (ob 0x2D00 1) ≤ addr ∧ addr < s.get (ob 0x2D00 1) + s.stagingSize)
    (ha : a ∈ enabledBytes addr ((data.bytes.length + 3) / 4) be) :
    t.dramByte a = data.bytes.getD (a - addr / 4 * 4) 0 := by
  have port : s.part.hasPcie p = true := by
    simp only [State.pcieUp, Bool.and_eq_true] at hu
    exact hu.1.1
  have admitted : s.deviceWriteHeld p addr = false := by simp [State.deviceWriteHeld, hb, hf]
  rw [exec_rootPortDeviceRequest, onPort_has s (hasPcie_full port) port, if_neg (by simp [hu, hr, admitted])] at h
  obtain rfl := Host.Outcome.next.inj h
  obtain ⟨z, reached, kept⟩ := tlpIn_memory (s := s) (p := p) (x := { data with tag }) hk he
  have base := kept 1 (by omega)
  have size : z.stagingSize = s.stagingSize := stagingSize_of_get (kept 2 (by omega))
  rw [reached, deviceTlp, base, size, if_pos hb, if_pos rfl]
  exact dramEnabled_byte _ ha

end

/-! A unit of a storage tunnel (R297). -/

section
variable {n seq tag off : Nat} {bs : Bytes} {v : SUnit} {w : InUnit} {damaged : Bool}

/-- With nothing held, a unit waits for its turn or is acted on at once. -/
theorem unitIn_noneHeld (h : s.stor.held = []) : s.unitIn n seq w =
    if s.seqGap n seq then s.updStore fun x => { x with held := s.heldInsert { tunnel := n, seq, unit := w } x.held }
    else s.unitNow n seq w := by
  have ready : s.unitsReady n = s := by simp [State.unitsReady, h]
  rw [State.unitIn, ready]

theorem exec_storageUnitReceived_next {mark : UnitMark} (h : exec (.storageUnitReceived n v mark) s = .next t)
    (hh : s.stor.held = []) :
    t = if s.seqGap n mark.seq then
        s.updStore fun x => { x with held := s.heldInsert { tunnel := n, seq := mark.seq, unit := .storage v mark.damaged } x.held }
      else s.storageUnit n mark.seq v mark.damaged := by
  rw [exec, execStorageUnitReceived] at h
  rw [onUnit_next h, unitIn_noneHeld hh, State.unitNow]

theorem hurtDone_dramByte {m : Nat} : (s.hurtDone n seq m).dramByte a = s.dramByte a := by
  rw [State.dramByte, State.hurtDone, updStore_dram, State.dramByte]

/-- What the drive side makes of a unit decides what the unit stores: the server side stores nothing in DRAM. -/
theorem storageUnit_dramByte
    (h : ∀ m port ns dmg, (State.driveUnit (s.hurtDone n seq m) n port ns v dmg).dramByte a = s.dramByte a) :
    (s.storageUnit n seq v damaged).dramByte a = s.dramByte a := by
  unfold State.storageUnit
  dsimp only
  split
  · split
    · exact h ..
    · split
      · exact (dramByte_of_keeps (keeps_State_serverUnit (s.hurtDone n seq _) n _ v _ (.refl _ _) (sub_self _)) rfl).trans
          hurtDone_dramByte
      · exact hurtDone_dramByte
  · rfl

theorem exec_storageUnitReceived_dramByte {mark : UnitMark} (h : exec (.storageUnitReceived n v mark) s = .next t)
    (hh : s.stor.held = [])
    (hd : ∀ m port ns dmg, (State.driveUnit (s.hurtDone n mark.seq m) n port ns v dmg).dramByte a = s.dramByte a) :
    t.dramByte a = s.dramByte a := by
  rw [exec_storageUnitReceived_next h hh]
  split
  · rfl
  · exact storageUnit_dramByte hd

/-- Data at the drive side lands at its command's place in staging and nowhere else (R297). -/
theorem driveUnit_data_frame {m port ns : Nat} (h : ∀ k, k < bs.length → a ≠ s.staging n tag (off + k)) :
    (State.driveUnit (s.hurtDone n seq m) n port ns (.data tag off bs) damaged).dramByte a = s.dramByte a := by
  rw [State.driveUnit]
  split
  · exact updPcie_dramByte.trans hurtDone_dramByte
  · refine (stageIn_frame _ ?_).trans (updPcie_dramByte.trans hurtDone_dramByte)
    exact h

/-- Every other unit at the drive side stores nothing in DRAM (R297). -/
theorem driveUnit_other {m port ns : Nat} (h : ∀ tag off bs, v ≠ .data tag off bs) :
    (State.driveUnit (s.hurtDone n seq m) n port ns v damaged).dramByte a = s.dramByte a := by
  cases v with
  | completion tag status => exact hurtDone_dramByte
  | nsInfo blocks lb => exact hurtDone_dramByte
  | data tag off bs => exact absurd rfl (h tag off bs)
  | command tag op slba blocks =>
    rw [State.driveUnit]
    generalize hy : State.updPcie _ _ _ = y
    have forgotten : y.dramByte a = s.dramByte a := by rw [← hy, updPcie_dramByte, hurtDone_dramByte]
    have answered (status : Nat) : (y.sendUnit n (.completion tag status)).dramByte a = s.dramByte a :=
      (dramByte_of_keeps (keeps_State_sendUnit y n _ (.refl _ _) (sub_self _)) rfl).trans forgotten
    split
    · exact answered _
    · split
      · exact answered _
      · exact (dramByte_of_keeps (keeps_State_toDrive y port _ (.refl _ _) (sub_self _)) rfl).trans forgotten

/-- Bytes less than the region's size apart have different places in staging (R294). -/
theorem staging_ne {i j : Nat} (h : i < j) (hs : j - i < s.stagingSize) : s.staging n tag i ≠ s.staging n tag j := by
  intro e
  have same : Config.stagingPlace n tag + i ≡ Config.stagingPlace n tag + j [MOD s.stagingSize] :=
    Nat.add_left_cancel e
  have apart := (Nat.modEq_iff_dvd' (by omega)).mp same
  have size := Nat.le_of_dvd (by omega) apart
  omega

/-- Data that fits into the region is stored byte by byte (R294, R297). -/
theorem stageIn_byte {k : Nat} (hl : bs.length ≤ s.stagingSize) (hk : k < bs.length) :
    (s.stageIn n tag off bs).dramByte (s.staging n tag (off + k)) = bs.getD k 0 := by
  induction bs generalizing s off k with
  | nil => exact absurd hk (Nat.not_lt_zero k)
  | cons b r ih =>
    have hl : r.length + 1 ≤ s.stagingSize := hl
    rw [State.stageIn]
    cases k with
    | zero =>
      refine (stageIn_frame _ fun j hj => ?_).trans (dramPut_byte_same s _ b)
      exact staging_ne (s := s) (by omega) (by omega)
    | succ k =>
      have rest := ih (s := s.dramPut (s.staging n tag off) b) (off := off + 1) (k := k)
        (Nat.le_of_succ_le hl) (Nat.lt_of_succ_lt_succ hk)
      rw [show off + (k + 1) = off + 1 + k by omega]
      exact rest

/-- A unit of data in order and undamaged lands at the drive side of its tunnel (R297, R298). -/
theorem storageUnit_data_lands {k : Nat} (hm : damaged = false ∧ s.hurtOf n seq (storageBytes (.data tag off bs)).length = 0)
    (hd : s.domainOn 11 = true ∧ s.queueMode = true) (ht : s.tstate n = 3)
    (hc : s.tcfg n 2 = 1 ∧ s.get (tunKey n 0x12) = 2 ∧ s.tcfg n 6 = 18) (hl : bs.length ≤ s.stagingSize)
    (hk : k < bs.length) :
    (s.storageUnit n seq (.data tag off bs) damaged).dramByte (s.staging n tag (off + k)) = bs.getD k 0 := by
  obtain ⟨whole, unhurt⟩ := hm
  unfold State.storageUnit
  dsimp only
  rw [if_pos ⟨hd.1, hd.2, ht, hc.1, hc.2.1⟩, if_pos (by exact hc.2.2), whole, unhurt]
  exact stageIn_byte hl hk

end

end

end Sys2Proof.Scope
end

section
/-!
SUPPORT. What a display cell stores in DRAM (R183, R185, R186): the bytes of its content at the pixels of its unit's rectangle.
-/

set_option Elab.async false

namespace Sys2Proof.Scope

open Sys2Proof Sys2Proof.Machine Sys2Proof.Laws

/-- An address that no byte of some content has in a unit's rectangle, from an offset of the unit's content on; a unit of
another kind has no pixels (R183, R186). -/
def offPixels (s : State) (d : Nat) (u : DUnit) (off : Nat) (bs : Bytes) (a : Nat) : Prop :=
  (u.kind ≠ 1 ∧ u.kind ≠ 4) ∨ ∀ k, k < bs.length →
    a ≠ s.pixelAddr (4 * d + u.layer) u.buf u.x (u.y + (off + k) / max 1 (u.w * pixelBytes (s.lay (4 * d + u.layer) 2))) +
      (off + k) % max 1 (u.w * pixelBytes (s.lay (4 * d + u.layer) 2))

/-- The content of a cell of a unit, by its sequence, up to the end of the content that the unit declares (R185, R186). -/
def cellContent (u : DUnit) (seq : Int) (c : Cell) : Bytes :=
  ((c.payload.take c.len).drop (if (seq - u.first).toNat = 0 then 16 else 0)).take (u.len - contentAt (seq - u.first).toNat)

/-- An invariant of each step holds after all. -/
theorem forAll_invariant {α : Type} {P : State → Prop} {f : α → State → State} {l : List α} {s : State} (h : P s)
    (step : ∀ x ∈ l, ∀ t, P t → P (f x t)) : P (forAll f l s) := by
  induction l generalizing s with
  | nil => exact h
  | cons x r ih => exact ih (step x List.mem_cons_self s h) fun y hy => step y (List.mem_cons_of_mem _ hy)

section
variable {s t : State} {d a : Nat} {u : DUnit} {seq : Int} {c : Cell}

/-! What a layer shows follows its output's state, its configuration and its latched values (R196). -/

theorem lay_congr (hg : ∀ k, t.get k = s.get k) (hd : t.disps = s.disps) (l sub : Nat) : t.lay l sub = s.lay l sub := by
  rw [State.lay, State.outState, State.disp, hg, hg, hd, State.lay, State.outState, State.disp]

theorem updDisp_lay {f : Disp → Disp} (h : ∀ x, (f x).layers = x.layers) (l sub : Nat) :
    (s.updDisp d f).lay l sub = s.lay l sub := by
  have layers : ((s.updDisp d f).disp (l / 4)).layers = (s.disp (l / 4)).layers := by
    by_cases hd : l / 4 = d
    · rw [hd, updDisp_disp, h]
    · rw [State.disp, State.updDisp, get_put_ne _ _ hd, State.disp]
  rw [State.lay, layers, State.outState, updDisp_get, updDisp_get, State.lay, State.outState]

/-- FlipsOutstanding is none of the objects that a layer follows. -/
theorem updFlip_lay {num : Nat} {f : Flip → Flip} (hd : d < 4) (l sub : Nat) :
    (s.updFlip d num f).lay l sub = s.lay l sub := by
  rw [State.updFlip, State.showFlips]
  generalize List.length _ = v
  have state : outStat (l / 4) 1 ≠ outStat d 0x16 := by unfold outStat ob; omega
  have value : layCfg l sub ≠ outStat d 0x16 := by unfold layCfg outStat ob; omega
  rw [State.lay, State.outState, get_set_ne _ _ state, get_set_ne _ _ value, ← State.outState, State.disp, set_disps,
    ← State.disp, ← State.lay]
  exact updDisp_lay (fun x => by split <;> rfl) l sub

/-- A byte that is torn leaves the state but for the frame's shadow (R188). -/
theorem tear_cases {row : Int} :
    s.tear d a row = s ∨ ∃ v, s.tear d a row = s.draw.2.updDisp d fun x => { x with shadow := Sparse.ins a v x.shadow } := by
  unfold State.tear
  split
  · exact .inl rfl
  · split
    · exact .inl rfl
    · exact .inr ⟨_, rfl⟩

theorem tear_lay {b : Nat} {row : Int} (l sub : Nat) : (s.tear d b row).lay l sub = s.lay l sub := by
  obtain e | ⟨v, e⟩ := tear_cases (s := s) (d := d) (a := b) (row := row) <;> rw [e]
  rw [updDisp_lay]
  · exact lay_congr (fun _ => rfl) rfl l sub
  · exact fun _ => rfl

theorem tear_dramByte {b : Nat} {row : Int} : (s.tear d b row).dramByte a = s.dramByte a :=
  dramByte_of_keeps (keeps_State_tear s d b row (.refl _ s) (sub_self _)) rfl

theorem count_dramByte {k n : Nat} : (s.count k n).dramByte a = s.dramByte a := by
  rw [State.dramByte, count_dram, State.dramByte]

theorem updDisp_dramByte {f : Disp → Disp} : (s.updDisp d f).dramByte a = s.dramByte a := by
  rw [State.dramByte, updDisp_dram, State.dramByte]

theorem updUnit_dramByte {first : Int} {f : DUnit → DUnit} : (s.updUnit d first f).dramByte a = s.dramByte a :=
  updDisp_dramByte

/-- Content written to a unit's rectangle leaves the bytes off its pixels (R183, R186). -/
theorem writePixels_frame {off : Nat} {bs : Bytes} (hk : u.kind = 1 ∨ u.kind = 4)
    (h : offPixels s d u off (bs.take (u.len - off)) a) : (s.writePixels d u off bs).dramByte a = s.dramByte a := by
  have miss := h.resolve_left (by omega)
  unfold State.writePixels
  extract_lets l row bs shown z
  refine count_dramByte.trans (And.left (b := ∀ l sub, z.lay l sub = s.lay l sub) ?_)
  refine forAll_invariant (P := fun t => t.dramByte a = s.dramByte a ∧ ∀ l sub, t.lay l sub = s.lay l sub)
    ⟨rfl, fun _ _ => rfl⟩ fun k hk t ⟨byte, lay⟩ => ?_
  extract_lets o y addr z
  have here : a ≠ addr := by
    have := miss k (List.mem_range.mp hk)
    simpa only [addr, State.pixelAddr, lay] using this
  have torn : z.dramByte a = s.dramByte a ∧ ∀ l sub, z.lay l sub = s.lay l sub := by
    unfold z
    split
    · exact ⟨tear_dramByte.trans byte, fun l sub => (tear_lay l sub).trans (lay l sub)⟩
    · exact ⟨byte, lay⟩
  exact ⟨(dramPut_byte_ne _ _ here).trans torn.1, torn.2⟩

/-- A cell placed in its unit leaves the bytes off the pixels of its content (R185, R186). -/
theorem placeCell_frame (h : offPixels s d u (contentAt (seq - u.first).toNat) (cellContent u seq c) a) :
    (s.placeCell d u seq c).dramByte a = s.dramByte a := by
  unfold State.placeCell
  extract_lets j bs off z wrong y
  have placed : z.dramByte a = s.dramByte a := by
    unfold z
    split
    next hk => exact writePixels_frame hk h
    · split
      · exact updUnit_dramByte
      · rfl
  split
  · have ended : y.dramByte a = s.dramByte a := updUnit_dramByte.trans placed
    split
    · exact count_dramByte.trans ended
    · exact ended
  · exact placed

/-! Early cells (R185): what a cell's place leaves of those that wait. -/

theorem disp_of_keeps {S : Piece → Bool} (k : Keeps S s t) (h : S .disps = false) : t.disp d = s.disp d := by
  rw [State.disp, k.same .disps h, State.disp]

theorem tear_early {b : Nat} {row : Int} : ((s.tear d b row).disp d).early = (s.disp d).early := by
  obtain e | ⟨v, e⟩ := tear_cases (s := s) (d := d) (a := b) (row := row) <;> rw [e]
  rw [updDisp_disp]
  rfl

theorem count_disp {k n : Nat} : (s.count k n).disp d = s.disp d := by rw [State.disp, count_disps, State.disp]

theorem updUnit_early {first : Int} {f : DUnit → DUnit} : ((s.updUnit d first f).disp d).early = (s.disp d).early := by
  rw [State.updUnit, updDisp_disp]

theorem writePixels_early {off : Nat} {bs : Bytes} : ((s.writePixels d u off bs).disp d).early = (s.disp d).early := by
  unfold State.writePixels
  extract_lets l row bs shown z
  rw [count_disp]
  refine forAll_invariant (P := fun t => (t.disp d).early = (s.disp d).early) rfl fun k _ t early => ?_
  extract_lets o y addr z
  change (z.disp d).early = _
  unfold z
  split
  · exact tear_early.trans early
  · exact early

theorem placeCell_early : ((s.placeCell d u seq c).disp d).early = (s.disp d).early := by
  unfold State.placeCell
  extract_lets j bs off z wrong y
  have placed : (z.disp d).early = (s.disp d).early := by
    unfold z
    split
    · exact writePixels_early
    · split
      · exact updUnit_early
      · rfl
  split
  · have ended : (y.disp d).early = (s.disp d).early := updUnit_early.trans placed
    split
    · rw [count_disp]
      exact ended
    · exact ended
  · exact placed

theorem updFlip_early {num : Nat} {f : Flip → Flip} : ((s.updFlip d num f).disp d).early = (s.disp d).early := by
  rw [State.updFlip, State.showFlips, State.disp, set_disps, ← State.disp, updDisp_disp]
  split <;> rfl

theorem takeEarly_none (h : (s.disp d).early = []) : s.takeEarly d = s := by simp [State.takeEarly, h]

/-! The unit of a sequence (R185). -/

/-- The later of a unit and the latest before it. -/
def laterUnit (b : Option DUnit) (u : DUnit) : Option DUnit :=
  match b with
  | none => some u
  | some v => if v.first < u.first then some u else b

theorem begunBy_eq {x : Disp} : x.begunBy seq = (x.units.filter fun u => decide (u.first ≤ seq)).foldl laterUnit none := rfl

/-- The latest unit is one of those begun. -/
theorem foldl_laterUnit_mem {l : List DUnit} {b : Option DUnit} (h : l.foldl laterUnit b = some u) : b = some u ∨ u ∈ l := by
  induction l generalizing b with
  | nil => exact .inl h
  | cons v r ih =>
    obtain e | m := ih h
    · cases b with
      | none => exact .inr (by simp_all [laterUnit])
      | some w =>
        simp only [laterUnit] at e
        split at e
        · exact .inr (by simp_all)
        · exact .inl e
    · exact .inr (List.mem_cons_of_mem _ m)

theorem begunBy_first {x : Disp} (h : x.begunBy seq = some u) : u.first ≤ seq := by
  rw [begunBy_eq] at h
  obtain e | m := foldl_laterUnit_mem h
  · exact absurd e (by simp)
  · simpa using (List.mem_filter.mp m).2

/-- A change of the units that leaves their first sequences leaves which is the latest. -/
theorem foldl_laterUnit_map {g : DUnit → DUnit} (hg : ∀ v, (g v).first = v.first) (l : List DUnit) (b : Option DUnit) :
    (l.map g).foldl laterUnit (b.map g) = (l.foldl laterUnit b).map g := by
  induction l generalizing b with
  | nil => rfl
  | cons v r ih =>
    have step : laterUnit (b.map g) (g v) = (laterUnit b v).map g := by
      cases b with
      | none => rfl
      | some w =>
        simp only [laterUnit, Option.map_some, hg]
        split <;> rfl
    rw [List.map_cons, List.foldl_cons, step, ih, List.foldl_cons]

theorem begunBy_map {x : Disp} {g : DUnit → DUnit} (hg : ∀ v, (g v).first = v.first) :
    ({ x with units := x.units.map g } : Disp).begunBy seq = (x.begunBy seq).map g := by
  rw [begunBy_eq, begunBy_eq, ← foldl_laterUnit_map hg, List.filter_map]
  simp only [Function.comp_def, hg, Option.map_none]

/-- A cell that shows its unit to be longer than declared marks it; every other leaves the state (R186). -/
theorem outgrown_cases : s.outgrown d seq c = s ∨ ∃ u, (s.disp d).begunBy seq = some u ∧ u.last = none ∧ u.len ≠ 0 ∧
    ((seq + 1 = u.span ∧ c.last = false) ∨ (seq = u.span ∧ c.first = false)) ∧
    s.outgrown d seq c = s.updUnit d u.first fun v => { v with overLong := true } := by
  unfold State.outgrown
  split
  next u begun =>
    split
    next grown => exact .inr ⟨u, begun, grown.1, grown.2.1, grown.2.2, rfl⟩
    · exact .inl rfl
  · exact .inl rfl

/-- A unit marked as longer than declared holds the sequence that showed it. -/
theorem updUnit_overLong_unitAt (h : (s.disp d).begunBy seq = some u) (hl : u.last = none) :
    ((s.updUnit d u.first fun v => { v with overLong := true }).disp d).unitAt seq = some { u with overLong := true } := by
  rw [State.updUnit, updDisp_disp, Disp.unitAt, begunBy_map (fun v => by split <;> rfl), h]
  simp [DUnit.holds, begunBy_first h, hl]

theorem outgrown_lay (l sub : Nat) : (s.outgrown d seq c).lay l sub = s.lay l sub := by
  obtain e | ⟨u, -, -, -, -, e⟩ := outgrown_cases (s := s) (d := d) (seq := seq) (c := c) <;> rw [e]
  rw [State.updUnit, updDisp_lay]
  exact fun _ => rfl

theorem outgrown_dramByte : (s.outgrown d seq c).dramByte a = s.dramByte a :=
  dramByte_of_keeps (keeps_State_outgrown s d seq c (.refl _ s) (sub_self _)) rfl

theorem outgrown_early : ((s.outgrown d seq c).disp d).early = (s.disp d).early := by
  obtain e | ⟨u, -, -, -, -, e⟩ := outgrown_cases (s := s) (d := d) (seq := seq) (c := c) <;> rw [e]
  exact updUnit_early

/-- A sequence that lies in a unit lies in it still, longer than declared or not. -/
theorem outgrown_unitAt (h : (s.disp d).unitAt seq = some u) :
    ∃ b, ((s.outgrown d seq c).disp d).unitAt seq = some { u with overLong := b } := by
  obtain e | ⟨v, begun, last, -, -, e⟩ := outgrown_cases (s := s) (d := d) (seq := seq) (c := c) <;> rw [e]
  · exact ⟨u.overLong, h⟩
  · have same : v = u := by
      rw [Disp.unitAt, begun] at h
      exact Option.some.inj (Option.filter_eq_some_iff.mp h).1
    exact ⟨true, same ▸ updUnit_overLong_unitAt begun last⟩

/-- The cells that a unit's header declares carry all of its content (R185). -/
theorem len_le_contentAt (len : Nat) : len ≤ contentAt (unitSpan len) := by
  have content (n : Nat) : contentAt (1 + n) = 220 + 236 * n := by
    rw [contentAt, if_neg (by omega)]
    omega
  unfold unitSpan
  split
  next one => exact one.trans (content 0).ge
  · rw [content]
    omega

/-- A sequence that lies in no unit lies in one that it shows to be longer than declared, past its content, or in none
(R185, R186). -/
theorem outgrown_noUnitAt (h : (s.disp d).unitAt seq = none) :
    ((s.outgrown d seq c).disp d).unitAt seq = none ∨
      ∃ u, ((s.outgrown d seq c).disp d).unitAt seq = some u ∧ u.len ≤ contentAt (seq - u.first).toNat := by
  obtain e | ⟨v, begun, last, len, shown, e⟩ := outgrown_cases (s := s) (d := d) (seq := seq) (c := c) <;> rw [e]
  · exact .inl h
  · refine .inr ⟨_, updUnit_overLong_unitAt begun last, ?_⟩
    have first := begunBy_first begun
    have past : ¬ seq < v.span := by
      intro inside
      rw [Disp.unitAt, begun] at h
      simp [DUnit.holds, first, last, inside] at h
    have cells : (seq - v.first).toNat = unitSpan v.len := by
      unfold DUnit.span at past shown
      omega
    change v.len ≤ contentAt (seq - v.first).toNat
    rw [cells]
    exact len_le_contentAt v.len

/-! Later cells of a unit. -/

theorem offPixels_of_lay {off : Nat} {bs : Bytes} (hl : ∀ l sub, t.lay l sub = s.lay l sub) (h : offPixels s d u off bs a) :
    offPixels t d u off bs a := by
  simpa only [offPixels, State.pixelAddr, hl] using h

/-- A later cell, with no cell waiting, stores in DRAM what its place in its unit says. -/
theorem displayCell_later_dramByte {n : Nat} (hf : c.first = false) (he : (s.disp d).early = [])
    (h : ∀ u, ((s.outgrown d seq c).disp d).unitAt seq = some u →
      ((s.outgrown d seq c).placeCell d u seq c).dramByte a = (s.outgrown d seq c).dramByte a) :
    (s.displayCell n d seq c).dramByte a = s.dramByte a := by
  rw [State.displayCell, if_neg (by simp [hf])]
  dsimp only
  split
  next u unit =>
    rw [takeEarly_none (placeCell_early.trans (outgrown_early.trans he)), h u unit]
    exact outgrown_dramByte
  · exact updDisp_dramByte.trans outgrown_dramByte

theorem displayCell_inUnit_frame {n : Nat} (hf : c.first = false) (he : (s.disp d).early = [])
    (hu : (s.disp d).unitAt seq = some u)
    (h : offPixels s d u (contentAt (seq - u.first).toNat) (cellContent u seq c) a) :
    (s.displayCell n d seq c).dramByte a = s.dramByte a := by
  refine displayCell_later_dramByte hf he fun v unit => placeCell_frame ?_
  obtain ⟨b, held⟩ := outgrown_unitAt (c := c) hu
  obtain rfl : { u with overLong := b } = v := Option.some.inj (held.symm.trans unit)
  exact offPixels_of_lay outgrown_lay h

theorem displayCell_noUnit_frame {n : Nat} (hf : c.first = false) (he : (s.disp d).early = [])
    (hu : (s.disp d).unitAt seq = none) : (s.displayCell n d seq c).dramByte a = s.dramByte a := by
  refine displayCell_later_dramByte hf he fun v unit => placeCell_frame (.inr fun k hk => ?_)
  obtain none | ⟨w, held, past⟩ := outgrown_noUnitAt (c := c) hu
  · exact absurd (none.symm.trans unit) (by simp)
  · obtain rfl : w = v := Option.some.inj (held.symm.trans unit)
    rw [cellContent, Nat.sub_eq_zero_of_le past, List.take_zero] at hk
    exact absurd hk (Nat.not_lt_zero k)

/-! The first cell of a version-2 unit (R185, R186). -/

/-- The rectangle that a first cell's header declares. -/
def rectUnit (s : State) (d : Nat) (seq : Int) (b : Bytes) : DUnit :=
  { first := seq, kind := 1, flip := leAt b 4 2, layer := byteAt b 1, buf := byteAt b 2, x := leAt b 6 2, y := leAt b 8 2,
    w := leAt b 10 2, h := leAt b 12 2,
    len := leAt b 10 2 * leAt b 12 2 * pixelBytes (s.lay (4 * d + byteAt b 1) 2) }

/-- The unit that a first cell begins. -/
def headerUnit (s : State) (d : Nat) (seq : Int) (c : Cell) : DUnit :=
  let b := c.payload
  let u : DUnit :=
    if byteAt b 0 = 1 then rectUnit s d seq b
    else if byteAt b 0 = 3 then
      { first := seq, kind := 3, flip := leAt b 4 2, layer := byteAt b 1, x := byteAt b 2, w := leAt b 6 2,
        len := 4 * leAt b 6 2 }
    else { first := seq, kind := 0, flip := leAt b 4 2, layer := byteAt b 1, ended := true }
  { u with last := if c.last then some seq else none }

/-- A unit's record begins. -/
def keepUnit (s : State) (d : Nat) (u : DUnit) : State := s.updDisp d fun x => { x with units := x.units ++ [u] }

theorem unitFirst_eq : s.unitFirst d seq c =
    let b := c.payload
    let u := headerUnit s d seq c
    if !s.inWindow d (leAt b 4 2) then keepUnit (s.rectDiscard d (byteAt b 1) u.buf 2) d { u with kind := 0 }
    else if byteAt b 0 = 2 then
      if s.hostMode 4 ∧ byteAt b 1 &&& 0x0E ≠ 0 then s.rectDiscard d (byteAt b 1) 0 1
      else s.commitFlip d (leAt b 4 2) (byteAt b 1 % 16) (byteAt b 6)
        (if (byteAt b 2).testBit 0 then some (leAt b 8 8) else none) seq
    else if (byteAt b 0 ≠ 1 ∧ byteAt b 0 ≠ 3) ∨ !s.rectFits d u then
      keepUnit (s.rectDiscard d (byteAt b 1) u.buf 1) d { u with kind := 0 }
    else ((keepUnit s d u).updFlip d (leAt b 4 2) fun f => f).placeCell d u seq c := rfl

theorem headerUnit_rect (h : byteAt c.payload 0 = 1) :
    headerUnit s d seq c = { rectUnit s d seq c.payload with last := if c.last then some seq else none } := by
  simp only [headerUnit, if_pos h]

theorem headerUnit_noRect (h : byteAt c.payload 0 ≠ 1) :
    (headerUnit s d seq c).kind ≠ 1 ∧ (headerUnit s d seq c).kind ≠ 4 := by
  simp only [headerUnit, if_neg h]
  split <;> exact ⟨by simp, by simp⟩

theorem begun_lay {v : DUnit} {num : Nat} {f : Flip → Flip} (hd : d < 4) (l sub : Nat) :
    ((keepUnit s d v).updFlip d num f).lay l sub = s.lay l sub := by
  rw [updFlip_lay hd, keepUnit, updDisp_lay]
  exact fun _ => rfl

theorem rectDiscard_dramByte {layer buf cause : Nat} : (s.rectDiscard d layer buf cause).dramByte a = s.dramByte a :=
  dramByte_of_keeps (keeps_State_rectDiscard s d layer buf cause (.refl _ s) (sub_self _)) rfl

theorem updFlip_dramByte {num : Nat} {f : Flip → Flip} : (s.updFlip d num f).dramByte a = s.dramByte a :=
  dramByte_of_keeps (keeps_State_updFlip s d num f (.refl _ s) (sub_self _)) rfl

theorem commitFlip_dramByte {num mask bufs : Nat} {nb : Option Nat} :
    (s.commitFlip d num mask bufs nb seq).dramByte a = s.dramByte a :=
  dramByte_of_keeps (keeps_State_commitFlip s d num mask bufs nb seq (.refl _ s) (sub_self _)) rfl

/-- A first cell leaves the bytes off the pixels of its content in the rectangle that it declares; without one it stores
nothing. -/
theorem unitFirst_frame (hd : d < 4)
    (h : byteAt c.payload 0 ≠ 1 ∨ offPixels s d (rectUnit s d seq c.payload) 0 (cellContent (rectUnit s d seq c.payload) seq c) a) :
    (s.unitFirst d seq c).dramByte a = s.dramByte a := by
  rw [unitFirst_eq]
  extract_lets b u
  split
  · exact updDisp_dramByte.trans rectDiscard_dramByte
  · split
    · split
      · exact rectDiscard_dramByte
      · exact commitFlip_dramByte
    · split
      · exact updDisp_dramByte.trans rectDiscard_dramByte
      · refine (placeCell_frame (offPixels_of_lay (begun_lay hd) ?_)).trans (updFlip_dramByte.trans updDisp_dramByte)
        by_cases rect : byteAt c.payload 0 = 1
        · have content := h.resolve_left (by simpa using rect)
          have start : contentAt (seq - (rectUnit s d seq c.payload).first).toNat = 0 := by
            simp [rectUnit, contentAt]
          rw [← start] at content
          simp only [u, headerUnit_rect rect]
          exact content
        · exact .inl (headerUnit_noRect rect)

/-- The bytes off a declared rectangle, read from the state in which its unit has begun. -/
theorem offPixels_rect {y : State} (hl : ∀ l sub, y.lay l sub = s.lay l sub) (hu : u = rectUnit s d seq c.payload)
    (h : ∀ k, k < (((c.payload.take c.len).drop 16).take u.len).length →
      a ≠ y.pixelAddr (4 * d + u.layer) u.buf u.x (u.y + k / max 1 (u.w * pixelBytes (y.lay (4 * d + u.layer) 2))) +
        k % max 1 (u.w * pixelBytes (y.lay (4 * d + u.layer) 2))) :
    offPixels s d (rectUnit s d seq c.payload) 0 (cellContent (rectUnit s d seq c.payload) seq c) a := by
  have content : cellContent u seq c = ((c.payload.take c.len).drop 16).take u.len := by
    simp [hu, cellContent, rectUnit, contentAt]
  rw [← hu, content]
  refine .inr fun k hk => ?_
  simpa only [Nat.zero_add, State.pixelAddr, hl] using h k hk

theorem own_disp {e : Nat × Nat} {hub : Bool} : (s.own d e hub).disp d = s.disp d :=
  disp_of_keeps (keeps_State_own s d e hub (.refl _ s) (sub_self _)) rfl

theorem rectDiscard_disp {layer buf cause : Nat} : (s.rectDiscard d layer buf cause).disp d = s.disp d :=
  disp_of_keeps (keeps_State_rectDiscard s d layer buf cause (.refl _ s) (sub_self _)) rfl

theorem keepUnit_early : ((keepUnit s d u).disp d).early = (s.disp d).early := by rw [keepUnit, updDisp_disp]

theorem commitFlip_early {num mask bufs : Nat} {nb : Option Nat} :
    ((s.commitFlip d num mask bufs nb seq).disp d).early = (s.disp d).early := by
  unfold State.commitFlip
  split
  · rfl
  · dsimp only
    refine forAll_invariant (P := fun t => (t.disp d).early = (s.disp d).early) ?_ fun e _ t early => ?_
    · rw [updDisp_disp]
      exact updFlip_early
    · rw [own_disp]
      exact early

/-- A first cell leaves the cells that wait. -/
theorem unitFirst_early : ((s.unitFirst d seq c).disp d).early = (s.disp d).early := by
  have discarded {layer buf cause : Nat} {v : DUnit} :
      ((keepUnit (s.rectDiscard d layer buf cause) d v).disp d).early = (s.disp d).early := by
    rw [keepUnit_early, rectDiscard_disp]
  rw [unitFirst_eq]
  extract_lets b u
  split
  · exact discarded
  · split
    · split
      · rw [rectDiscard_disp]
      · exact commitFlip_early
    · split
      · exact discarded
      · exact placeCell_early.trans (updFlip_early.trans keepUnit_early)

theorem displayCell_first_frame {n : Nat} (hd : d < 4) (hf : c.first = true) (he : (s.disp d).early = [])
    (hv : s.get (tunKey n 0x12) ≠ 1)
    (h : byteAt c.payload 0 ≠ 1 ∨ offPixels s d (rectUnit s d seq c.payload) 0 (cellContent (rectUnit s d seq c.payload) seq c) a) :
    (s.displayCell n d seq c).dramByte a = s.dramByte a := by
  rw [State.displayCell, if_pos hf, if_neg hv, takeEarly_none (outgrown_early.trans (unitFirst_early.trans he))]
  exact outgrown_dramByte.trans (unitFirst_frame hd h)

/-! A cell of a display tunnel. -/

/-- What a cell of an output's tunnel stores in DRAM is what its place stores: judging the flips stores nothing. -/
theorem exec_displayCellReceived_dramByte {n : Nat} (h : exec (.displayCellReceived n c) s = .next t)
    (ho : s.outputOf n = some d)
    (hc : (s.displayCell n d (extend c.seq (s.tun n).h) c).dramByte a = s.dramByte a) : t.dramByte a = s.dramByte a := by
  rw [exec, execDisplayCellReceived, ho] at h
  rw [onUnit_next h]
  dsimp only
  split
  · rfl
  · exact (dramByte_of_keeps (keeps_State_judgeFlips _ d (.refl _ _) (sub_self _)) rfl).trans hc

theorem outputOf_lt {n : Nat} (h : s.outputOf n = some d) : d < 4 := by
  unfold State.outputOf at h
  split at h
  next known =>
    obtain rfl := Option.some.inj h
    exact hasOutput_lt known.2.2
  · exact absurd h (by simp)

end

/-- Settles O17: a clause for each place where the model stores to DRAM, and the frame of every other command. -/
theorem bytesOfDramAreStoredWhereComputed : Obligations.BytesOfDramAreStoredWhereComputed := by
  refine ⟨fun s y t p addr len be tag write data h hy => ⟨fun a ha => exec_rootPortDeviceRequest_frame h ha,
      fun hw hu hr hf hk he hb a ha => ?_⟩,
    fun s t n tag off bs mark h hh a ha => ?_, fun s t n tag off bs mark h hh hm hd ht hc hl k hk => ?_,
    fun s t n u mark h hh hu a => ?_, fun s t n d c u seq j row bs h ho hc hs hu hj hbs hrow a ha => ?_,
    fun s t n d c h ho hc hu a => ?_, fun s t y n d c b u row bs h ho hc hb hu hy hrow hbs a ha => ?_,
    fun s d j row c u seq bs hj hbs hrow a ha => ?_, fun c s t h hc a => ?_⟩
  · subst hw
    have shown (sub : Nat) (hs : sub < 0x300) : y.get (ob 0x2D00 sub) = s.get (ob 0x2D00 sub) := by
      rw [hy]
      exact count_get_ne (storageGlobal_ne_pcieStat hs)
    rw [shown 1 (by omega), stagingSize_of_get (shown 2 (by omega))] at hb
    exact exec_rootPortDeviceRequest_stores h hu hr hf hk he hb ha
  · exact exec_storageUnitReceived_dramByte h hh fun m port ns dmg => driveUnit_data_frame ha
  · rw [exec_storageUnitReceived_next h hh.1, if_neg (by simp [hh.2])]
    exact storageUnit_data_lands hm hd ht hc hl hk
  · exact exec_storageUnitReceived_dramByte h hh fun m port ns dmg => driveUnit_other hu
  · subst hs hj hbs hrow
    exact exec_displayCellReceived_dramByte h ho (displayCell_inUnit_frame hc.1 hc.2 hu ha)
  · exact exec_displayCellReceived_dramByte h ho (displayCell_noUnit_frame hc.1 hc.2 hu)
  · subst hb hrow hbs
    have begun (l sub : Nat) : y.lay l sub = s.lay l sub := by
      rw [hy]
      exact begun_lay (outputOf_lt ho) l sub
    exact exec_displayCellReceived_dramByte h ho
      (displayCell_first_frame (outputOf_lt ho) hc.1 hc.2.1 hc.2.2 (ha.imp id fun off => offPixels_rect begun hu off))
  · subst hj hbs hrow
    exact placeCell_frame ha
  · exact dramByte_of_keeps (exec_keeps c s t h) hc

end Sys2Proof.Scope
end

section
/-!
SUPPORT. The USB hub function (R215, R216, R219, R221, R222, R223, R224, R226, R227, R228, R229): a port's units, its own
state after a change, and what its requests, transactions and bus commands do where the rules' conditions hold.
-/

set_option Elab.async false

namespace Sys2Proof.Scope

open Sys2Proof Sys2Proof.Machine Sys2Proof.Laws

section
variable {s t : State} {u n : Nat}

/-- A port of the part takes its events (R2). -/
theorem onPort_usb (h : s.part.hasUsb u = true) : onPort s (fun q => q.hasUsb u) t = .next t :=
  onPort_has s (hasUsb_full h) h

theorem portOk_hasUsb (h : s.portOk u = true) : s.part.hasUsb u = true := (Bool.and_eq_true_iff.mp h).1

theorem classOk_hasUsb (h : s.classOk u = true) : s.part.hasUsb u = true := (Bool.and_eq_true_iff.mp h).1

/-- A port whose domain is on takes what happens on its wire (R223). -/
theorem onPort_wire (h : s.portOk u = true) : onPort s (fun q => q.hasUsb u) t = .next t := onPort_usb (portOk_hasUsb h)

/-- A port of a hub function that answers takes its class requests (R216). -/
theorem onPort_class (h : s.classOk u = true) : onPort s (fun q => q.hasUsb u) t = .next t := onPort_usb (classOk_hasUsb h)

/-- A hub function that is not suspended is awake, whoever controls its ports (R222, R230). -/
theorem asleep_awake (h : s.usb.suspended = false) : s.asleep = false := by rw [State.asleep, h, Bool.false_and]

/-- A bus command over the Open asynchronous tunnel is obeyed, but in raw port control (R222, R230). -/
theorem busCommand_obeyed {eff : State → State} (ho : s.ofHub n = true) (ha : s.tcfg n 8 = 0) (hr : s.rawUsb = false) :
    s.busCommand n eff = eff s := by
  rw [State.busCommand, if_neg (by simp [ho, ha]), if_neg (by simp [hr])]

/-- A change of PortState takes no station time (R10, R223). -/
theorem pgo_station {new : Nat} : (s.pgo u new).station = s.station :=
  (keeps_State_pgo s u new (.refl _ s) (sub_self _)).same .station rfl

theorem busNote_usb {cmd : Nat} : (s.busNote cmd).usb = s.usb := ev_usb ..

/-- A hub function that answers does what the request asks for; one without a path, asleep or in raw port control does
nothing (R216). -/
theorem ite_hubLive (h : s.hubLive = true) : (if (!s.hubLive) = true then s else t) = t := if_neg (by simp [h])

/-- With no transaction on the wire a port is reset at once (R223). -/
theorem askReset_now (hs : s.pstate u = 2 ∨ s.pstate u = 4) (ha : (s.uport u).active = none) :
    s.askReset u = s.portReset u := by
  rw [State.askReset, if_pos hs, if_neg (by simp [ha])]

/-- So is it suspended (R223). -/
theorem askSuspend_now (hs : s.pstate u = 4) (ha : (s.uport u).active = none) : s.askSuspend u = s.portSuspend u := by
  rw [State.askSuspend, if_pos hs, if_neg (by simp [ha])]

/-- A well-formed request of a port is taken in its turn (R219, R221). -/
theorem exec_usbRequestUnit_port {unit : Bytes} {r : UsbReq} (hn : n < 4096) (ho : s.ofHub n = true)
    (hk : byteAt unit 0 = 1)
    (hr : r = { tunnel := n, hdr := fitBytes 16 unit, data := unit.drop 16, order := s.usb.order })
    (hm : r.malformed (decide (s.tcfg n 8 = 1)) = false) (hp : r.port ≠ 0) :
    exec (.usbRequestUnit n unit 0) s =
      .next (({ s with usb := { s.usb with order := s.usb.order + 1 } } : State).takeRequest (r.port - 1) r) := by
  have whole : ¬ ((0 : Nat) = 2 ∨ r.malformed (decide (s.tcfg n 8 = 1)) = true) := by simp [hm]
  rw [exec, execUsbRequestUnit, onUnit_known (decide_eq_true hn), if_neg (by simp [ho]), if_neg (by decide),
    if_neg (by omega)]
  dsimp only
  rw [← hr]
  exact congrArg _ ((if_neg whole).trans (if_neg hp))

/-- A transaction that ends with data, a handshake or a STALL is not repeated: its request is executed (R221). -/
theorem exec_usbTransactionEnd_answered {res pid : Nat} {data : Bytes} {r : UsbReq} (hu : s.part.hasUsb u = true)
    (ha : (s.uport u).active = some r) (hr : res = 0 ∨ res = 2 ∨ res = 3) :
    exec (.usbTransactionEnd u res pid data) s =
      .next (((s.updUport u fun x => { x with active := none }).executed u r res pid
        ((data.take r.len).take (if r.token = 3 then 1024 else 0))).wireFree u) := by
  have noBabble : ¬ (res = 6 ∧ s.pstate u = 4) := by omega
  rw [exec, execUsbTransactionEnd, onPort_usb hu]
  dsimp only
  rw [ha]
  dsimp only
  rw [if_neg (by omega : ¬ 6 < res), if_neg (by omega : ¬ res = 5), if_neg (by omega), if_neg (by omega)]
  simp only [noBabble, decide_false, Bool.or_false]

/-- An asynchronous transaction takes a free wire that no periodic request needs, if it ends before the next SOF (R221). -/
theorem exec_usbTransactionStart_free {dur : Nat} {r : UsbReq} {rest : List UsbReq} (hu : s.part.hasUsb u = true)
    (hq : (s.uport u).asyncQ = r :: rest) (hd : s.domainOn 12 = true) (hs : s.pstate u = 4)
    (hw : s.usb.suspended = false) (ha : (s.uport u).active = none) (hn : (s.uport u).next = 0)
    (hp : (s.uport u).perQ.any s.isNow = false)
    (ht : s.station % (if r.speed = 0 then 125000 else 1000000) + dur ≤ (if r.speed = 0 then 125000 else 1000000)) :
    exec (.usbTransactionStart u dur) s = .next ((s.updUport u fun x => { x with asyncQ := rest }).toWire u r) := by
  rw [exec, execUsbTransactionStart, onPort_usb hu]
  dsimp only
  rw [hq]
  dsimp only
  rw [if_pos ⟨hd, hs, by simp [asleep_awake hw], ha, hn, hp, ht⟩]

end

/-- Settles O35: each command's meaning on the branch that its rule names. -/
theorem usbHubFunctionCommandsComplete : Obligations.UsbHubFunctionCommandsComplete := by
  refine ⟨fun s n unit r hn ho hk hr hm hp => exec_usbRequestUnit_port hn ho hk hr hm hp, fun s hd hm => ?_,
    fun s u dur r rest hu hq hd hs hw ha hn hp ht => exec_usbTransactionStart_free hu hq hd hs hw ha hn hp ht,
    fun s u res pid data r hu ha hr => exec_usbTransactionEnd_answered hu ha hr, fun s u r rest hu hq hd hn ha => ?_,
    fun s n hn ho ha hr => ⟨_, _, rfl, rfl, ?_⟩, fun s n hn ho ha hr => ?_, fun s n hn ho ha hr hs hw => ?_,
    fun s n sn hn ho ha hr hs => ?_, fun s y n hr hd hy ht => ?_, fun s u slow hu hs hp => ?_, fun s u hu hs => ?_,
    fun s u len hu hs hl hd => ?_, fun s u hu hs hd => ?_, fun s u hu hs => ?_, fun s u hu hs hd => ?_⟩
  · rw [exec, execMicroframeStart, if_pos ⟨hd, hm⟩]
    rfl
  · rw [exec, execNakRetryExpired, onPort_usb hu, hq]
    dsimp only
    rw [if_pos ⟨hd, hn, by simp [ha]⟩]
  · rw [exec, execBusCommandReset, onUnit_known (decide_eq_true hn), busCommand_obeyed ho ha hr]
  · rw [exec, execBusCommandSuspend, onUnit_known (decide_eq_true hn), busCommand_obeyed ho ha hr]
  · rw [exec, execBusCommandResume, onUnit_known (decide_eq_true hn), busCommand_obeyed ho ha hr]
    dsimp only
    rw [busNote_get, busNote_usb, if_pos ⟨hs, rfl⟩, if_neg (by simp [hw])]
  · rw [exec, execBusCommandResume, onUnit_known (decide_eq_true hn), busCommand_obeyed ho ha hr]
    dsimp only
    rw [busNote_get, busNote_usb, if_neg fun same => hs.elim (by simp [same.1]) fun old => old same.2]
  · rw [exec, execResumeKEnd, if_pos ⟨hr, hd⟩]
    dsimp only
    rw [← hy, ht]
  · rw [exec, execDspDeviceAttach, onPort_wire hu, if_pos ⟨hu, hs, hp⟩]
    dsimp only
    rw [pgo_station, updUport_station]
  · rw [exec, execDspDeviceDetach, onPort_wire hu, if_pos ⟨hu, hs⟩]
  · rw [exec, execDeviceChirpDetected, onPort_wire hu, if_pos ⟨hu, hs, hl, by simp [hd]⟩]
  · rw [exec, execPortResetEnd, onPort_wire hu, if_pos ⟨hu, hs, hd⟩]
  · rw [exec, execDspDeviceK, onPort_wire hu, if_neg (by simp [hu]), if_pos hs]
  · rw [exec, execPortResumingEnd, onPort_wire hu, if_pos ⟨hu, hs, hd⟩]

/-- Settles O36: a hub function that answers takes its requests as onPort_class and ite_hubLive say. -/
theorem usbClassRequestsComplete : Obligations.UsbClassRequestsComplete := by
  refine ⟨fun s u h => ?_, fun s u h => ?_, fun s u h hs ha => ?_, fun s u h hs ha => ?_, fun s u h hs => ?_,
    fun s u h hs => ?_, fun s u n h hn => ?_, fun s u f h hf => ?_, fun s f h hf => ?_, fun s u h => ?_,
    fun s n h => ?_, fun s num len h => ⟨?_, ?_, ?_⟩, fun s a h ha => ?_, fun s x h hx => ?_, fun s alt h ha => ?_,
    fun s h => ?_, fun s h => ?_, fun s u a e t i h => ?_, fun s u h => ?_⟩
  · rw [exec, execSetPortPower, onPort_class h, if_pos h]
  · rw [exec, execClearPortPower, onPort_class h, if_pos h]
  · rw [exec, execSetPortReset, onPort_class h, if_pos h, askReset_now hs ha]
  · rw [exec, execSetPortSuspend, onPort_class h, if_pos h, askSuspend_now hs ha]
  · rw [exec, execClearPortSuspend, onPort_class h, if_pos ⟨h, hs⟩]
  · rw [exec, execClearPortEnable, onPort_class h, if_pos ⟨h, hs⟩]
  · rw [exec, execSetPortTest, onPort_class h, if_neg (by simp [h]), if_pos hn]
  · rw [exec, execClearPortChange, onPort_class h, if_pos ⟨h, hf⟩]
  · rw [exec, execClearHubChange, if_pos ⟨h, hf⟩]
  · rw [exec, execGetPortStatus, onPort_class h, if_pos h]
  · exact congrArg _ (ite_hubLive h)
  · rw [exec, execHubGetDescriptor, ite_hubLive h, if_pos rfl]
  · rw [exec, execHubGetDescriptor, ite_hubLive h, if_neg (by decide), if_pos (.inl rfl)]
  · rw [exec, execHubGetDescriptor, ite_hubLive h, if_neg (by decide), if_neg (by decide), if_neg (by decide),
      if_neg (by decide), if_pos rfl]
  · rw [exec, execHubSetAddress, if_pos ⟨h, ha⟩]
  · rw [exec, execHubSetConfiguration, ite_hubLive h, if_pos hx]
  · rw [exec, execHubSetInterface, ite_hubLive h]
    exact congrArg _ (if_pos ha)
  · rw [exec, execHubSetRemoteWakeup, if_pos h]
  · rw [exec, execHubClearRemoteWakeup, if_pos h]
  · rw [exec, execClearTtBuffer, onPort_class h, if_pos h]
  · rw [exec, execResetTt, onPort_class h, if_pos h]

end Sys2Proof.Scope
end

section
/-!
SUPPORT. The relays and raw port control (R217, R218, R223, R230, R236, R237): a relay's own state after a change, the relay
that a tunnel joins, and a raw port command that its block takes.
-/

set_option Elab.async false

namespace Sys2Proof.Scope

open Sys2Proof Sys2Proof.Machine Sys2Proof.Laws

section
variable {s : State} {p : Path} {u n r c v : Nat}

@[simp] theorem updRelay_relay {f : Relay → Relay} : (s.updRelay r f).relay r = f (s.relay r) := get_put_same ..

/-- The endpoints 0x100 to 0x10F and 0x180 to 0x18F of a peripheral tunnel are the relays' (R217). -/
theorem relayOf_endpoint (hn : 16 ≤ n) (hp : s.tcfg n 2 = 3) (ha : s.tcfg n 6 = 15) (hr : r < 16)
    (he : s.tcfg n 8 = 0x100 + r ∨ s.tcfg n 8 = 0x180 + r) : s.relayOf n = some r := by
  have joined : (s.tcfg n 8 / 128 = 2 ∨ s.tcfg n 8 / 128 = 3) ∧ s.tcfg n 8 % 128 = r := by omega
  obtain ⟨side, relay⟩ := joined
  rw [State.relayOf, relay, if_pos ⟨hn, hp, ha, side, hr⟩]

/-- The server's new count of a relay whose ring and link are up has the units that it adds fetched (R218). -/
theorem exec_relayDownProducerWrite_fetches {units : List Bytes} (hr : r < 16) (ho : s.relayOn r = true)
    (hn : n < 2 ^ 32) (hu : (n + 2 ^ 32 - (s.relay r).down) % 2 ^ 32 = units.length) (hc : units.length ≤ s.rcfg r 5) :
    exec (.relayDownProducerWrite r n units) s = .next (forAll (fun unit s => s.relayDown r unit) units
      ((forAll (fun k (t : State) => (t.count (pcieStat (s.rcfg r 2 - 12) 6) 1).send
        (.ringRead (s.rcfg r 2 - 12) (t.rcfg r 3 + 2048 * (((t.relay r).down + k) % t.rcfg r 5)) 2048))
          (upTo units.length) s).updRelay r fun x => { x with down := n })) := by
  rw [exec, execRelayDownProducerWrite, onUnit_known (decide_eq_true hr)]
  dsimp only
  rw [hu, if_pos ⟨ho, hn, rfl, hc⟩]

/-- The server's index of consumed slots, where no unit waits for one, is taken and nothing more (R218). -/
theorem exec_relayUpConsumerWrite_free (hr : r < 16) (ho : s.relayOn r = true) (hn : n < 2 ^ 32)
    (hf : (s.relay r).fullSince = none) :
    exec (.relayUpConsumerWrite r n) s = .next (s.updRelay r fun x => { x with consumed := n }) := by
  rw [exec, execRelayUpConsumerWrite, onUnit_known (decide_eq_true hr), if_pos ⟨ho, hn⟩]
  dsimp only
  rw [updRelay_relay, hf]

/-! Raw port control (R230, R237). -/

theorem hasUsb_lt {x : Part} (h : x.hasUsb u = true) : u < 8 := of_decide_eq_true (hasUsb_full h)

/-- A raw port command that its block takes and whose port is in a state that R223 names for it. -/
theorem onPath_rawPort {states : List Nat} {eff : State → State} (hu : s.part.hasUsb u = true)
    (ht : s.takes p (0x2A08 + u) v) (hr : s.rawUsb = true) (hd : s.domainOn 12 = true) (hs : s.pstate u ∈ states)
    (hv : (c = 6 → testKnown (v / 256) = true) ∧ (c ≠ 6 → v < 256)) :
    onPath p (decide (u < 8)) s (s.rawPort p u c v states eff) =
      .next (eff ((s.touch p).cmdAccept (0x2A08 + u) v p)) := by
  rw [onPath_ok s (decide_eq_true (hasUsb_lt hu)) (takes_ok s ht), State.rawPort, command_any s ht (by simp)]
  simpa [hr, hd, hs] using hv

end

/-- Settles O37: the relay's commands on the branch that R218 names, the raw port commands as onPath_rawPort says. -/
theorem usbRelayAndRawCommandsComplete : Obligations.UsbRelayAndRawCommandsComplete := by
  refine ⟨fun s r n units hr ho hn hu hc => exec_relayDownProducerWrite_fetches hr ho hn hu hc,
    fun s r n hr ho hn hf => exec_relayUpConsumerWrite_free hr ho hn hf,
    fun s n r unit hn hs hp ha hr he ho => ?_, fun s p u hu ht hr hd hs => ?_, fun s p u hu ht hr hd hs => ?_,
    fun s p u hu ht hr hd hs => ?_, fun s p u hu ht hr hd hs => ?_, fun s p u hu ht hr hd hs => ?_,
    fun s p u n hu ht hr hd hs hn => ?_, fun s p ht => ⟨_, rfl, ?_⟩⟩
  · rw [exec, execRelayUnitFromTunnel, onUnit_known (decide_eq_true hn.2), relayOf_endpoint hn.1 hp ha hr he]
    dsimp only
    rw [if_pos ⟨hs, ho⟩]
  · rw [exec, execUsbPortPowerOn, onPath_rawPort hu ht hr hd (by simp; omega) (by decide)]
  · rw [exec, execUsbPortPowerOff, onPath_rawPort hu ht hr hd (by simp; omega) (by decide)]
  · rw [exec, execUsbPortReset, onPath_rawPort hu ht hr hd (by simp [hs]) (by decide)]
  · rw [exec, execUsbPortSuspend, onPath_rawPort hu ht hr hd (by simp [hs]) (by decide)]
  · rw [exec, execUsbPortResume, onPath_rawPort hu ht hr hd (by simp [hs]) (by decide)]
  · have selector : (6 + 256 * n) / 256 = n := by omega
    rw [exec, execUsbPortTestMode, onPath_rawPort hu ht hr hd (by simp; omega) ⟨fun _ => by rw [selector, hn], nofun⟩]
  · have part : ((s.touch p).cmdAccept 0x2A01 1 p).part = s.part := by simp
    rw [exec, execUsbHubClearCounters, onPath_commandNow ht (by simp)]
    simp only [State.usbPorts, part]

end Sys2Proof.Scope
end

section
/-!
SUPPORT. The service-port device (R231, R232, R233, R234, R235, R239, R393): its endpoints after a control transfer, and its
bus reset, its SETUP and its packets where the rules' conditions hold.
-/

set_option Elab.async false

namespace Sys2Proof.Scope

open Sys2Proof Sys2Proof.Machine Sys2Proof.Laws

section
variable {s x y : State} {ep : Nat} {i : Bool} {d : Bytes}

/-- The end of a control transfer leaves the endpoints that its host sees enabled (R231, R232). -/
theorem setupEnd_epOn : (s.updSvc fun x => { x with setup := none }).epOn ep i = s.epOn ep i := rfl

theorem setupEnd_flag {k : Nat} : (s.updSvc fun x => { x with setup := none }).flag k = s.flag k := rfl

/-- A halt that changes in an enabled direction is shown and told; its end starts the toggle anew (R233). -/
theorem svcHalt_changes {on : Bool} (h0 : ep ≠ 0) (he : s.epOn ep i = true) (hf : s.flag (haltKey ep i) = !on) :
    s.svcHalt ep i on = (if on = true then s.set (haltKey ep i) (ofBool on)
      else (s.set (haltKey ep i) (ofBool on)).set (toggleKey ep i) 0).raise 162 := by
  have changed : ¬ ((!on) = on) := by cases on <;> decide
  rw [State.svcHalt, if_neg (by simp [h0, he]), hf]
  exact if_neg changed

/-- Outside DFU mode and without a DETACH a bus reset brings no change of mode (R233, R234, R447). -/
theorem exec_svcBusReset_plain {hs : Bool} (ha : 1 ≤ s.svcState) (hd : s.svc.detach = none) (hu : s.svc.dfu = false)
    (hx : x = ((((s.setAll [(svcStat 2, 0), (svcStat 3, if hs ∧ s.svc.fast then 1 else 2), (svcStat 8, s.station)]).count
      (svcStat 4) 1).freshEps (0 :: faceEps 0 ++ faceEps 2)).svcGo 2))
    (hy : y = x.updSvc fun x => { x with
      setup := none, stall := false, config := false, wakeOn := false, rx := [], inQ := [], detach := none, dfu := false }) :
    exec (.svcBusReset hs) s = .next
      (y.ev 0x7061 0 1 161 (u16 0 ++ u16 (ofBool s.svc.setup.isSome) ++ u16 (ofBool (decide (s.svc.rx ≠ []))))) := by
  rw [exec, execSvcBusReset, if_pos ha]
  dsimp only
  rw [hd, hu, hy, hx]
  rfl

/-- A SETUP with none before it begins a control transfer: its data stage waits in EP0's queue (R233). -/
theorem exec_svcSetupReceived_first {setup : Bytes} (hi : s.svcIn 2 4 = true) (hl : setup.length = 8)
    (hn : s.svc.setup = none) (hx : x = s.count (svcStat 5) 1)
    (hy : y = (x.setAll [(toggleKey 0 false, 1), (toggleKey 0 true, 1)]).updSvc fun z =>
      { z with setup := some setup, stall := (x.svcRequest setup).isNone, inQ := Sparse.put [] 0 [] z.inQ })
    (hd : d = ((x.svcRequest setup).getD []).take (leAt setup 6 2)) :
    exec (.svcSetupReceived setup) s = .next (if d = [] then y else y.svcQueue 0 (packets 64 (d.length / 64) d)) := by
  have first : ¬ x.svc.setup.isSome = true := by simp [hx, hn]
  rw [exec, execSvcSetupReceived, if_pos ⟨hi, hl⟩]
  dsimp only
  rw [← hx, if_neg first, ← hd, ← hy]

/-- Remote wake, enabled and in Suspended, drives K, but where the host's K comes first (R234, R239). -/
theorem exec_svcRemoteWake_wakes {p : Path} {hostFirst : Bool} (ht : s.takes p 0x2A21 1) (hs : s.svcState = 5)
    (hw : s.svc.wakeOn = true) (hy : y = (s.touch p).cmdAccept 0x2A21 1 p) :
    exec (.svcRemoteWake p hostFirst) s =
      .next ((if hostFirst = true then y.cmdFail 0x2A21 1 else (y.send .svcK).cmdCommit 0x2A21 0).raise 163) := by
  have enabled : kindIf (decide (s.svcState ≠ 5) || !s.svc.wakeOn) 6 = [] := by simp [hs, hw]
  rw [exec, execSvcRemoteWake, enabled, onPath_command ht (by simp), ← hy]

/-! Packets on EP0 and EP1 (R233). -/

section
variable {pid : Nat} {data : Bytes} (h1 : ep ≤ 1) (hi : s.svcIn 2 4 = true)
include h1 hi

/-- An OUT packet that fits, in a direction without a halt and a STALL, is judged by its PID. -/
theorem exec_svcOutPacket_judged (he : s.epOn ep false = true) (hl : data.length ≤ s.epMax ep false)
    (hh : s.flag (haltKey ep false) = false) (hs : s.svc.stall = false) :
    exec (.svcOutPacket ep pid data) s = .next (if pid ≠ s.get (toggleKey ep false) then s.send (.svcAnswer ep 0 [])
      else ((s.set (toggleKey ep false) (1 - s.get (toggleKey ep false))).send (.svcAnswer ep 0 [])).svcStore ep data) := by
  have free : (decide (ep ≤ 1) || !(s.svcBuf ep false (s.svcTurn ep false)).full) = true := by simp [h1]
  rw [exec, execSvcOutPacket, onUnit_known (decide_eq_true (by omega)), if_neg (by simp [hi, he, Nat.not_lt.mpr hl])]
  dsimp only
  rw [free, if_neg (by omega), if_neg (by simp [hh, hs]), if_pos rfl]

/-- An IN token takes the packet that waits; the toggle and the queue go on with its ACK. -/
theorem exec_svcInToken_ready {acked : Bool} (he : s.epOn ep true = true) (hh : s.flag (haltKey ep true) = false)
    (hs : s.svc.stall = false) (hr : s.svcReady ep = some d) (hy : y = s.send (.svcAnswer ep 3 d)) :
    exec (.svcInToken ep acked) s =
      .next (if acked = true then (y.set (toggleKey ep true) (1 - y.get (toggleKey ep true))).svcSent ep else y) := by
  have notIso : decide (2 ≤ ep ∧ s.scfg ep 8 = 1) = false := decide_eq_false (by omega)
  rw [exec, execSvcInToken, onUnit_known (decide_eq_true (by omega)), if_neg (by simp [hi, he])]
  dsimp only
  rw [notIso, if_neg (by simp [hh, hs]), hr]
  dsimp only
  rw [← hy, if_neg (by decide)]

end

end

/-- Settles O38: each command's meaning on the branch that its rule names. -/
theorem serviceDeviceCommandsComplete : Obligations.ServiceDeviceCommandsComplete := by
  refine ⟨fun s y h0 hm hy => ?_, fun s hm => ?_, fun s x y hs ha hd hu hx hy => exec_svcBusReset_plain ha hd hu hx hy,
    fun s x y setup d hi hl hn hx hy hd => exec_svcSetupReceived_first hi hl hn hx hy hd, fun s b hb hs => ?_,
    fun s a hs ha => ?_, fun s x hs hx => ?_, fun s f hs => ?_, fun s y ep i h0 he hf hy => ?_,
    fun s y ep i h0 he hf hy => ?_, fun s y ep pid data h1 hi he hl hh hs hp hy => ?_,
    fun s ep pid data h1 hi he hl hh hs hp => ?_, fun s y ep d h1 hi he hh hs hr hy => ⟨?_, ?_⟩, fun s hi => ?_,
    fun s hs => ?_, fun s y p ht hs hw hy => ⟨?_, ?_⟩, fun s p ha hb => ?_⟩
  · rw [exec, execSvcDeviceAttach, if_pos ⟨h0, hm⟩, hy]
  · rw [exec, execSvcDeviceDetach, if_neg (by simp [hm])]
  · rw [exec, execSvcStatusStageComplete, hb]
    dsimp only
    rw [if_neg (by simp [hs])]
  · rw [exec, execSvcSetAddress, State.svcAddress, if_pos ⟨hs, ha⟩]
  · rw [exec, execSvcSetConfiguration, State.svcConfigure, if_pos ⟨hs, hx⟩]
  · rw [exec, execSvcSetInterface, State.svcInterface, if_pos ⟨hs, rfl⟩]
  · rw [exec, execSvcSetEndpointHalt, onUnit_known (decide_eq_true h0.2), hy,
      svcHalt_changes (on := true) (by omega) (setupEnd_epOn.trans he) (setupEnd_flag.trans hf)]
    rfl
  · rw [exec, execSvcClearEndpointHalt, onUnit_known (decide_eq_true h0.2), hy,
      svcHalt_changes (on := false) (by omega) (setupEnd_epOn.trans he) (setupEnd_flag.trans hf)]
    rfl
  · rw [exec_svcOutPacket_judged h1 hi he hl hh hs, if_neg (by simp [hp]), hy]
  · rw [exec_svcOutPacket_judged h1 hi he hl hh hs, if_pos hp]
  · rw [exec_svcInToken_ready h1 hi he hh hs hr hy, if_neg (by decide)]
  · rw [exec_svcInToken_ready h1 hi he hh hs hr hy, if_pos rfl, hy, send_get]
  · rw [exec, execSvcSuspendDetected, if_pos hi]
  · rw [exec, execSvcHostResume, if_pos hs]
  · rw [exec_svcRemoteWake_wakes ht hs hw hy, if_pos rfl]
  · rw [exec_svcRemoteWake_wakes ht hs hw hy, if_neg (by decide)]
  · have holds : kindIf (decide (1 = 1) && s.planBad) 7 = [] := by simp [hb]
    rw [exec, execSvcDeviceEnableWrite, holds, onPath_writeNum rfl ha, if_pos rfl]

end Sys2Proof.Scope
end

section
/-!
SUPPORT. PD messages (R242, R243, R246, R247, R250, R251, R253, R254): a new message that the port takes, and the branches
of an answer that a rule names.
-/

set_option Elab.async false

namespace Sys2Proof.Scope

open Sys2Proof Sys2Proof.Machine Sys2Proof.Laws

section
variable {s y : State} {id : Nat}

/-- A message with a new MessageID is acknowledged, and what it asks for is done (R243, R248). -/
theorem pdTake_new {eff : State → State} (ho : s.pdOn = true) (hi : id < 8) (hn : s.pd.rxId ≠ some id)
    (hy : y = ((s.send (.pdGoodCrc id)).updPd fun x => { x with rxId := some id }).heard) : s.pdTake id eff = eff y := by
  rw [State.pdTake, if_neg (by simp [ho, hi])]
  dsimp only
  rw [send_pd, if_neg hn, hy]

/-- Without a swap under way a partner's swap crosses none (R255). -/
theorem crossed_none (h : y.pd.swap = 0) : y.crossed = y := if_neg (by simp [h])

end

/-- Settles O39: pdTake_new takes each message, whose meaning is on the branch that its rule names. -/
theorem pdMessagesComplete : Obligations.PdMessagesComplete := by
  refine ⟨fun s y id rev pdos ho hi hn hy hr => ?_, fun s y id rev rdo ho hi hn hy hr hk ha hm => ?_,
    fun s y id k ho hi hn hy hk => ?_, fun s y id ho hi hn hy ha hs hw hg => ?_, fun s y id n k ho hi hn hy hk => ?_,
    fun s y id n ho hi hn hy ha hs hw => ?_, fun s y id k ho hi hn hy hk => ?_,
    fun s y id k mv ma ho hi hn hy hr hs ht => ?_, fun s y id ho hi hn hy hs hg => ?_, fun s y id ho hi hn hy => ?_,
    fun s y id ho hi hn hy => ?_, fun s y id ho hi hn hy hs hq hp => ?_, fun s y id ho hi hn hy hs hp hv => ?_,
    fun s y id ho hi hy => ?_, fun s ho => ?_, fun s y id ho hi hn hy => ?_,
    fun s y id hdr ho hi hn hy => ⟨fun hu => ?_, fun hu hc ha => ?_⟩, fun s y id ho hi hn hy => ?_,
    fun s y id ho hi hn hy => ?_, fun s y id carrier ho hi hn hy => ?_⟩
  · rw [exec, execPdSourceCapabilities, pdTake_new ho hi hn hy, if_neg (by simp [hr])]
  · rw [exec, execPdRequest, pdTake_new ho hi hn hy, if_neg (by simp [hr])]
    exact congrArg _ (if_pos ⟨hk.1, hk.2, ha, hm⟩)
  · rw [exec, execPdAccept, pdTake_new ho hi hn hy]
    dsimp only
    rw [if_neg (by simp [hk.1]), hk.2]
    rfl
  · rw [exec, execPdAccept, pdTake_new ho hi hn hy]
    dsimp only
    rw [if_neg (by simp [ha.1]), ha.2]
    dsimp only
    rw [if_neg (by simp [hs, hw, hg]), if_pos hs]
  · rw [exec, execPdReject, pdTake_new ho hi hn hy]
    dsimp only
    rw [hk]
  · rw [exec, execPdReject, pdTake_new ho hi hn hy]
    dsimp only
    rw [ha]
    dsimp only
    by_cases h1 : y.pd.swap = 1
    · rw [if_pos ⟨h1, hw⟩, if_pos h1]
    · rw [if_neg fun h => h1 h.1, if_neg h1, if_pos ⟨hs, hw⟩]
  · rw [exec, execPdWait, pdTake_new ho hi hn hy, hk]
  · rw [exec, execPdPsRdy, pdTake_new ho hi hn hy, if_neg (by simp [hs]), ht]
    dsimp only
    rw [if_pos hr]
  · rw [exec, execPdPsRdy, pdTake_new ho hi hn hy, if_pos ⟨hs, hg⟩]
  · rw [exec, execPdGetSourceCap, pdTake_new ho hi hn hy]
  · rw [exec, execPdGetSinkCap, pdTake_new ho hi hn hy]
  · rw [exec, execPdDrSwap, pdTake_new ho hi hn hy, crossed_none hs]
    dsimp only
    rw [if_neg (by simp [hq]), if_neg (by simp [hs]), if_pos hp]
  · rw [exec, execPdVconnSwap, pdTake_new ho hi hn hy, crossed_none hs]
    dsimp only
    rw [if_neg (by simp [hs]), if_pos ⟨hp, .inl hv⟩, updPd_get, pdSend_get, if_pos hv]
  · rw [exec, execPdSoftReset, if_pos ⟨ho, hi⟩, hy]
  · rw [exec, execPdHardReset, if_pos ho]
  · rw [exec, execPdDiscoverIdentity, pdTake_new ho hi hn hy]
    dsimp only
    rw [if_neg (by decide), if_neg (by decide), if_pos (by decide)]
  · rw [exec, execPdDiscoverIdentity, pdTake_new ho hi hn hy, if_pos (by simp [hu])]
  · rw [exec, execPdDiscoverIdentity, pdTake_new ho hi hn hy, if_neg (by simp [hu]), if_neg (by simp [hc]),
      if_neg (by tauto)]
  · rw [exec, execPdPrSwap, pdTake_new ho hi hn hy]
  · rw [exec, execPdExtendedMessage, pdTake_new ho hi hn hy]
  · rw [exec, execPdBist, pdTake_new ho hi hn hy]

end Sys2Proof.Scope
end

section
/-!
SUPPORT. The service port's attach, timers, protections and commands (R244, R245, R246, R247, R250, R251, R252, R253, R254,
R255, R258): the two roles, what an attach comes to, and a command that the port's block takes.
-/

set_option Elab.async false

namespace Sys2Proof.Scope

open Sys2Proof Sys2Proof.Machine Sys2Proof.Laws

section
variable {s x y : State}

theorem isSink_iff : s.isSink = true ↔ s.typeC = 3 := decide_eq_true_iff

/-- A Source is no Sink (R245). -/
theorem isSource_notSink (h : s.isSource = true) : ¬ s.isSink = true := by
  have source : s.typeC = 2 := of_decide_eq_true h
  simp [isSink_iff, source]

theorem isSink_notSource (h : s.isSink = true) : ¬ s.isSource = true := fun hs => isSource_notSink hs h

/-! Attach (R245, R248). -/

/-- TypeCState among the objects that an attach sets. -/
theorem setAll_typeC {v : Nat} {l : List (Nat × Nat)} (h : ∀ e ∈ l, pdStat 1 ≠ e.1) :
    (s.setAll ((pdStat 1, v) :: l)).typeC = v :=
  (get_setAll_ne _ l h).trans (get_set_same _ _ _)

/-- As Source the port presents Rp, selects 5 V and requests channel 8 (R245, R248, R249). -/
theorem attachAs_source {cc : Nat}
    (hx : x = s.setAll [(pdStat 1, 2), (pdStat 2, 2), (pdStat 3, 2), (pdStat 5, cc), (pdStat 0x0A, 0), (pdStat 9, 0)])
    (hy : y = x.pdEv 0x8001 0 168 (u8 2 ++ u8 cc ++ u8 0)) :
    s.attachAs true cc 0 = ((y.presentRp (y.get (pdCfg 3))).vsel 5000).request 8 true := by
  have source : x.typeC = 2 := hx ▸ setAll_typeC (by simp [pdStat, ob_inj])
  rw [State.attachAs]
  simp only [if_true]
  rw [← hx, source, hy]

/-- As Sink it has VBUS, which the DFU device's pull-up follows in Lift (R244, R245). -/
theorem attachAs_sink {cc rp : Nat}
    (hx : x = s.setAll [(pdStat 1, 3), (pdStat 2, 1), (pdStat 3, 1), (pdStat 5, cc), (pdStat 0x0A, rp), (pdStat 9, 0)]) :
    s.attachAs false cc rp =
      ((x.pdEv 0x8001 0 168 (u8 3 ++ u8 cc ++ u8 rp)).updPd fun x => { x with vbus := true }).liftPull true := by
  have sink : x.typeC = 3 := hx ▸ setAll_typeC (by simp [pdStat, ob_inj])
  rw [State.attachAs]
  simp only [Bool.false_eq_true, if_false]
  rw [← hx, sink]

section
variable {source : Bool} {cc rp : Nat} (hd : s.domainOn 2 = true) (hv : s.pd.discharge = false) (hc : cc = 1 ∨ cc = 2)
include hd hv hc

/-- A partner that is debounced, where PortRoleMode and TypeCState let the port take the role and no Try.SNK comes first,
is attached (R245). -/
theorem exec_typecAttach_attaches (hp : rp ≤ 2)
    (ht : s.typeC = 0 ∨ (s.typeC = 1 ∧ s.due .pdCc (msec 100) = true) ∨ s.typeC = 4 ∨ s.typeC = 5)
    (h4 : s.typeC = 4 → source = false) (h5 : s.typeC = 5 → source = true)
    (hm : s.roleMode = 2 ∨ (s.roleMode = 1 ∧ source = true) ∨ (s.roleMode = 0 ∧ source = false))
    (hn : source = false ∨ s.roleMode ≠ 2 ∨ s.typeC = 5) :
    exec (.typecAttach source cc ⟨rp, true⟩) s =
      .next ((s.stopAll [.pdDrp, .pdTrySnk, .pdCc]).attachAs source cc rp) := by
  have late : ¬ (s.typeC = 1 ∧ (!s.due .pdCc (msec 100)) = true) := by
    rintro ⟨h1, hl⟩
    simp_all
  have direct : ¬ (s.typeC ≤ 1 ∧ source = true ∧ s.roleMode = 2 ∧
      (s.stopAll [.pdDrp, .pdTrySnk, .pdCc]).get (pdCfg 2) = 1) := by
    rintro ⟨h1, rfl, h2, -⟩
    simp_all
  rw [exec, execTypecAttach]
  dsimp only
  rw [if_neg (by omega), if_pos, if_neg (by decide), if_neg late, if_neg direct]
  exact ⟨hd, by omega, by simp [hv], hc, hp, by simpa using hm, by simpa using h4, h5⟩

/-- A partner of an unattached port is waited for (R245). -/
theorem exec_typecAttach_waits (hp : rp ≤ 2) (ht : s.typeC = 0) (hm : s.roleMode = 0 ∨ s.roleMode = 2) :
    exec (.typecAttach false cc ⟨rp, false⟩) s = .next (((s.stop .pdDrp).start .pdCc).set (pdStat 1) 1) := by
  rw [exec, execTypecAttach]
  dsimp only
  rw [if_neg (by omega), if_pos, if_pos (by decide), if_pos ht]
  exact ⟨hd, by omega, by simp [hv], hc, hp, by simp; omega, fun _ => rfl, by omega⟩

end

/-! The commands of ServicePowerStatus (R258). -/

/-- A command that the block takes, with a PD partner in host-assisted mode and in the role that the command asks for. -/
theorem onPath_pdCommand {p : Path} {c v : Nat} {bad : List Nat} {eff : State → State} (ht : s.takes p 0x2B01 v)
    (hh : s.hostMode 6 = true) (ha : s.attached = true) (hr : s.get (pdStat 6) ≠ 0)
    (hc : (c = 4 → s.isSource = true) ∧ (c = 5 → s.isSink = true)) (hb : bad = []) :
    onPath p true s (s.pdCommand p c v bad eff) = .next (eff ((s.touch p).cmdAccept 0x2B01 v p)) := by
  have partner : kindIf (!s.hostMode 6 || !s.attached || decide (s.get (pdStat 6) = 0)) 6 = [] := by simp [hh, ha, hr]
  have role : kindIf (decide (c = 4) && !s.isSource || decide (c = 5) && !s.isSink) 6 = [] := by simpa using hc
  rw [State.pdCommand, partner, role, hb]
  exact onPath_command ht (by simp)

end

/-- Settles O40: each command's meaning on the branch that its rule names. -/
theorem servicePowerTimersComplete : Obligations.ServicePowerTimersComplete := by
  refine ⟨fun s x y cc hd ht hv hc hm hx hy => ?_, fun s cc rp hd ht hv hc hp hm => ?_,
    fun s x cc rp hd ht hv hc hp hm hx => ?_, fun s y ht hy => ?_, fun s ht hm hw => ?_, fun s ht hw => ?_,
    fun s x y cc hd ht hv hc hm hx hy => ?_, fun s ht hw => ?_, fun s hr hg hv h0 => ?_, fun s m hm ho hw hl => ?_,
    fun s ho hr hv hw => ?_, fun s ho hr hb hl hw => ?_, fun s k mv ma ht hr hw => ?_,
    fun s y k mv ma pdos ht hr ho hw hy => ?_, fun s k v ma mv ht hr ho hw => ?_, fun s hr ho hw => ?_,
    fun s ho hw ha hn hs hg => ?_, fun s k hk hr ho hw => ?_, fun s mv ma t hl hr hd => ?_, fun s mv ma t hl hr => ?_,
    fun s mv hl hd => ?_, fun s ma hl hv => ?_, fun s hr hs hw => ?_, fun s hv hd hs => ?_, fun s y hr hs hw hy => ?_,
    fun s p ht hh ha hr hq => ?_, fun s p ht hh ha hr => ?_, fun s p ht hh ha hr => ?_, fun s p ht hh ha hr hs => ?_,
    fun s p n ht hh ha hr hs hn => ?_, fun s p item x hi ha hk => ?_⟩
  · rw [exec_typecAttach_attaches hd hv hc (by decide) (by tauto) (by omega) (fun _ => rfl) (by simp [hm])
      (by simp [hm]), attachAs_source hx hy]
  · exact exec_typecAttach_waits hd hv hc hp ht hm
  · rw [exec_typecAttach_attaches hd hv hc hp (by tauto) (fun _ => rfl) (by omega) (by tauto) (.inl rfl),
      attachAs_sink hx]
  · have attached : s.attached = true := decide_eq_true (.inr ht)
    rw [exec, execTypecDetach, if_pos (by omega), attached, hy]
    dsimp only
    rw [if_pos rfl, if_neg (isSink_notSource (isSink_iff.2 ht))]
    cases s.pd.target <;> rfl
  · rw [exec, execDrpToggleTimer, if_pos ⟨ht, hm, hw⟩]
  · rw [exec, execTrySnkTimeout, if_pos ⟨ht, hw⟩]
  · rw [exec_typecAttach_attaches hd hv hc (by decide) (by tauto) (by omega) (fun _ => rfl) (.inl hm)
      (.inr (.inr ht)), attachAs_source hx hy]
  · rw [exec, execErrorRecoveryEnd, if_pos ⟨ht, hw⟩]
  · rw [exec, execRaDetected, if_pos hr]
    exact congrArg _ (if_pos ⟨hg, by simp [State.updPd, hv], h0⟩)
  · rw [exec, execPdGoodcrcTimeout, hm]
    dsimp only
    rw [if_neg (by simp [ho, hw]), if_pos hl]
  · rw [exec, execFirstSourceCapTimer, if_pos ⟨ho, hr, hv, hw⟩]
  · rw [exec, execSourceCapRepeat, if_pos ⟨ho, hr, hb, hl, hw⟩]
  · rw [exec, execSrcTransitionExpired, ht]
    dsimp only
    rw [if_pos ⟨hr, hw⟩]
  · rw [exec, execVbusSettled, if_neg (isSource_notSink hr), ht]
    dsimp only
    rw [if_pos ⟨hr, ho, by simp [hw]⟩, ← hy]
  · rw [exec, execPsTransitionSrcTimeout, ht]
    dsimp only
    rw [if_pos ⟨hr, ho, hw⟩]
  · rw [exec, execPsTransitionTimeout, if_pos ⟨hr, ho, hw⟩]
  · have noRequest : ¬ (s.stop .pdResponse).pd.asked.isSome = true := by simp [State.stop, hn]
    rw [exec, execSenderResponseTimeout, if_neg (by simp [ha]), if_pos ⟨ho, hw⟩]
    dsimp only
    rw [if_neg noRequest]
    exact congrArg _ (if_pos ⟨hs, hg⟩)
  · rw [exec, execSinkRequestRetry, hk]
    dsimp only
    rw [if_pos ⟨hr, ho, hw⟩]
  · rw [exec, execSvcVbusOvervoltage, if_pos hl, if_pos ⟨hr, hd⟩]
  · rw [exec, execSvcVbusOvervoltage, if_pos hl, if_neg fun h => isSink_notSource hr h.1, if_pos hr]
  · rw [exec, execSvcCcOvervoltage, if_pos ⟨hl, hd⟩]
  · rw [exec, execVconnOvercurrent, if_pos ⟨hl, hv⟩, State.vbusNow]
  · rw [exec, execPsHardResetTimer, if_pos ⟨hr, hs, hw⟩]
  · rw [exec, execVbusSafe0vReached, if_pos ⟨hv, by simp [hd]⟩]
    exact congrArg _ (if_pos hs)
  · rw [exec, execSrcRecoverTimer, if_pos ⟨hr, hs, hw⟩]
    dsimp only
    simp only [← hy, Bool.not_eq_true']
  · rw [exec, execPdCmdDrSwap, onPath_pdCommand ht hh ha hr (by simp) (by simp [hq])]
  · rw [exec, execPdCmdVconnSwap, onPath_pdCommand ht hh ha hr (by simp) rfl]
  · rw [exec, execPdCmdHardReset, onPath_pdCommand ht hh ha hr (by simp) rfl]
  · rw [exec, execPdCmdSendSourceCap, onPath_pdCommand ht hh ha hr (by simp [hs]) rfl]
  · rw [exec, execPdCmdRequest, onPath_pdCommand ht hh ha hr (by simp [hs]) (by simp; omega)]
  · rw [exec, execPdoWrite, if_pos hi, hk, onPath_writeNum rfl ha]

end Sys2Proof.Scope
end

section
/-!
SUPPORT. The breakers (R252, R367, R368, R369, R370, R371, R372, R373, R377, R384): a breaker of the part takes its events
and its commands.
-/

set_option Elab.async false

namespace Sys2Proof.Scope

open Sys2Proof Sys2Proof.Machine Sys2Proof.Laws

section
variable {s t : State} {p : Path} {c v : Nat}

theorem hasBreaker_lt {x : Part} (h : x.hasBreaker c = true) : c < 10 :=
  of_decide_eq_true (Bool.and_eq_true_iff.1 h).1

/-- A breaker of the part takes its events (R2). -/
theorem onPort_breaker (h : s.part.hasBreaker c = true) : onPort s (fun q => q.hasBreaker c) t = .next t :=
  onPort_has s (hasBreaker_full h) h

/-- A command of BreakerStatus that its block takes, on a path that the hub has (R56, R384). -/
theorem onPath_breakerCommand {more : List Nat} {eff : State → State} (h : s.part.hasBreaker c = true)
    (ht : s.takes p (0x4120 + c) v) (hv : v ∈ [1, 2, 3]) (hm : more = []) :
    onPath p (decide (c < 10)) s (s.command p (0x4120 + c) v anyState [1, 2, 3] more eff) =
      .next (eff ((s.touch p).cmdAccept (0x4120 + c) v p)) := by
  rw [onPath_ok s (decide_eq_true (hasBreaker_lt h)) (takes_ok s ht), command_any s ht hv hm]

theorem onPath_breakerCommandNow {more : List Nat} {eff : State → State} (h : s.part.hasBreaker c = true)
    (ht : s.takes p (0x4120 + c) v) (hv : v ∈ [1, 2, 3]) (hm : more = []) :
    onPath p (decide (c < 10)) s (s.commandNow p (0x4120 + c) v anyState [1, 2, 3] more 0 eff) =
      .next ((eff ((s.touch p).cmdAccept (0x4120 + c) v p)).cmdCommit (0x4120 + c) 0) :=
  onPath_breakerCommand h ht hv hm

/-- An NTC that reads open or short, and did not before, is journalled (R363, R370). -/
theorem exec_fetSensorFault_fails {st ohms : Nat} (h : s.part.hasBreaker c = true) (hu : s.get (brCfg c 5) = 1)
    (hs : (st = 2 ∧ 400000 < ohms) ∨ (st = 3 ∧ ohms < 200)) (hn : s.get (brStat c 6) ≠ st) :
    exec (.fetSensorFault c ohms) s =
      .next ((s.set (brStat c 6) st).pwrEv 0xD030 c 2 303 (u16 c ++ u8 st)) := by
  have reads : ntcState ohms = st := by
    unfold ntcState
    split
    · omega
    · split <;> omega
  rw [exec, execFetSensorFault, onPort_breaker h, reads]
  dsimp only
  rw [if_neg (by omega), if_neg (by omega)]

/-- An NTC in its range reads valid, and nothing is journalled (R363). -/
theorem exec_fetSensorFault_valid {ohms : Nat} (h : s.part.hasBreaker c = true) (hu : s.get (brCfg c 5) = 1)
    (hl : 200 ≤ ohms ∧ ohms ≤ 400000) :
    exec (.fetSensorFault c ohms) s = .next (if s.get (brStat c 6) ≤ 1 then s else s.set (brStat c 6) 1) := by
  have reads : ntcState ohms = 1 := by rw [ntcState, if_neg (by omega), if_neg (by omega)]
  have before : s.get (brCfg c 5) = 0 ∨ max 1 (s.get (brStat c 6)) = 1 ↔ s.get (brStat c 6) ≤ 1 := by omega
  rw [exec, execFetSensorFault, onPort_breaker h, reads]
  dsimp only
  simp only [before, if_true]

end

/-- Settles O50: a breaker of the part takes each event and command on the branch that its rule names. -/
theorem breakerCommandsComplete : Obligations.BreakerCommandsComplete := by
  refine ⟨fun s c h hw hb => ?_, fun s c h hw hd hc => ?_, fun s c h hb hc => ?_, fun s c ma t h hb hd => ?_,
    fun s c n ma t h hb hn hl => ?_, fun s c ma t h hl => ?_, fun s c ma t h hl => ?_, fun s c ma t h hc => ?_,
    fun s c t h hb hd hl hc hw => ?_, fun s c h hb hd => ?_, fun s y p c n h ha hy => ?_, fun s hb => ?_,
    fun s c st ohms h hu hs hn => exec_fetSensorFault_fails h hu hs hn,
    fun s c ohms h hu hl => exec_fetSensorFault_valid h hu hl, fun s p c h ht hb hc => ?_,
    fun s y p c t h ht hb hy hl hw => ?_, fun s p c h ht => ?_⟩
  · rw [exec, execBreakerOnRequest, onPort_breaker h, if_pos ⟨hw, hb⟩]
  · rw [exec, execBreakerRequestWithdrawn, onPort_breaker h, if_pos ⟨by simp [hw], hd⟩, if_neg (by omega)]
    exact congrArg _ (if_pos hc)
  · rw [exec, execBreakerFullEnhancement, onPort_breaker h, if_pos hb]
    dsimp only
    obtain lt | rfl := Nat.lt_or_eq_of_le hc
    · rw [if_pos lt, if_neg lt.ne]
    · rw [if_neg (by decide), if_pos rfl, if_pos rfl]
  · rw [exec, execBreakerRampTimeout, onPort_breaker h, if_pos ⟨hb, hd⟩]
  · rw [exec, execBreakerCurveTrip, onPort_breaker h, if_pos ⟨hb, hn, hl⟩]
  · rw [exec, execBreakerFastTrip, onPort_breaker h, if_pos hl]
  · rw [exec, execBreakerThermalTrip, onPort_breaker h, if_pos hl]
  · rw [exec, execBreakerReverseCurrent, onPort_breaker h, if_pos hc]
  · rw [exec, execBreakerRetryTimer, onPort_breaker h, if_pos ⟨hb, hd, hl⟩, if_neg hc]
    exact congrArg _ (if_pos hw)
  · rw [exec, execRetryResetTimeExpired, onPort_breaker h, if_pos ⟨hb, hd⟩]
  · rw [exec, execRetryCountWrite, onPath_writeNum (decide_eq_true (hasBreaker_lt h)) ha]
    dsimp only
    rw [← hy]
  · rw [exec, execInletRestart, if_pos hb]
  · rw [exec, execBreakerReset, onPath_breakerCommandNow h ht (by decide) (by simpa using hb), if_neg hc]
  · rw [exec, execBreakerRetryNow, onPath_breakerCommand h ht (by decide) (by simp [hb]), ← hy, if_neg (by omega),
      if_neg (by simp [hw])]
  · rw [exec, execBreakerClearCounters, onPath_breakerCommandNow h ht (by decide) rfl]

end Sys2Proof.Scope
end

section
/-!
SUPPORT. The journal's ring (R279, R281, R290): where a new entry goes, and what a full ring loses.
-/

set_option Elab.async false

namespace Sys2Proof.Scope

open Sys2Proof Sys2Proof.Machine Sys2Proof.Laws

section
variable {e x : JEntry} {r l : List JEntry} {j : Journal}

/-- The entries that the new one goes behind: those that arrived within 20 µs of it with a later stamp, or the same stamp
and a higher code, but for the other region of one output (R210, R281). -/
theorem jBefore_iff : jBefore e x = true ↔ e.arrival < x.arrival + 20000 ∧
    (e.time < x.time ∨ (e.time = x.time ∧ e.code < x.code ∧ regionPair e x = false)) := by
  simp only [jBefore, Bool.and_eq_true, Bool.or_eq_true, decide_eq_true_eq, Bool.not_eq_true', and_assoc]

theorem jBefore_eq_false (h : x.arrival + 20000 ≤ e.arrival ∨
    x.time ≤ e.time ∧ (x.time = e.time → x.code ≤ e.code ∨ regionPair e x = true)) : jBefore e x = false := by
  rw [Bool.eq_false_iff, ne_eq, jBefore_iff]
  rintro ⟨near, later | ⟨same, higher, noPair⟩⟩
  · omega
  · obtain far | ⟨-, ordered⟩ := h
    · omega
    · obtain lower | pair := ordered same.symm
      · omega
      · simp [noPair] at pair

theorem jInsert_front (h : ∀ x ∈ l, jBefore e x = false) : jInsert e l = e :: l := by
  cases l with
  | nil => rfl
  | cons x r => rw [jInsert, h x List.mem_cons_self, if_neg Bool.false_ne_true]

theorem jInsert_behind (h : jBefore e x = true) : jInsert e (x :: r) = x :: jInsert e r := if_pos h

/-- The entries that were there keep their order: the new one only comes among them. -/
theorem jInsert_perm : (jInsert e l).Perm (e :: l) := by
  induction l with
  | nil => exact .refl _
  | cons x r ih =>
    rw [jInsert]
    split
    · exact (ih.cons x).trans (.swap e x r)
    · exact .refl _

theorem add_ring : (j.add e).ring = (jInsert e j.ring).take 131072 := rfl

theorem add_ring_front (h : ∀ x ∈ j.ring, jBefore e x = false) : (j.add e).ring = (e :: j.ring).take 131072 := by
  rw [add_ring, jInsert_front h]

theorem add_ring_behind (hr : j.ring = x :: r) (h : jBefore e x = true) :
    (j.add e).ring = x :: (jInsert e r).take 131071 := by
  rw [add_ring, hr, jInsert_behind h, List.take_succ_cons]

theorem add_ring_length : (j.add e).ring.length = min (j.ring.length + 1) 131072 := by
  rw [add_ring, List.length_take, jInsert_perm.length_eq, List.length_cons, Nat.min_comm]

/-- A ring that is not full loses nothing (R281). -/
theorem mem_add_ring (h : j.ring.length < 131072) : x ∈ (j.add e).ring ↔ x = e ∨ x ∈ j.ring := by
  have short : (jInsert e j.ring).length ≤ 131072 := by
    rw [jInsert_perm.length_eq]
    exact h
  rw [add_ring, List.take_of_length_le short, jInsert_perm.mem_iff, List.mem_cons]

end

/-- Settles O15. -/
theorem fullJournalLosesItsOldest : Obligations.FullJournalLosesItsOldest := by
  refine ⟨fun j e h => ⟨add_ring_front fun x hx => jBefore_eq_false (h x hx), rfl, rfl⟩,
    fun j e x r hr ha ho => ?_, fun j e => ⟨add_ring_length, fun h x => mem_add_ring h⟩⟩
  rw [add_ring_behind hr (jBefore_iff.mpr ⟨ha, ho⟩)]
  refine ⟨rfl, fun empty => ?_⟩
  rw [empty]
  rfl

end Sys2Proof.Scope
end

section
/-!
SUPPORT. PTP on an Ethernet port (R262, R273): a frame outside the port's lengths has no effect.
-/

set_option Elab.async false

namespace Sys2Proof.Scope

open Sys2Proof Sys2Proof.Machine Sys2Proof.Laws

section
variable {s : State} {e : Nat} {frame : Bytes}

/-- A PTP frame shorter than 64 bytes or longer than MaxFrame is not used (R262). -/
theorem onPtp_badLength {kind : Nat} {eff : Bytes → State → State}
    (h : ¬ (64 ≤ frame.length ∧ frame.length ≤ s.get (ethCfg e 4))) : s.onPtp e kind frame eff = s := by
  simp [State.onPtp, h]

theorem exec_ptpPdelayReqReceived_badLength (he : s.part.hasEth e = true)
    (h : ¬ (64 ≤ frame.length ∧ frame.length ≤ s.get (ethCfg e 4))) :
    exec (.ptpPdelayReqReceived e frame) s = .next s := by
  rw [exec, execPtpPdelayReqReceived, onPort_eth he, onPtp_badLength h]

/-- The hub's own PTP frame counts among the frames sent and in no other object (R262). -/
theorem ptpSend_get {k : Nat} {peer : Bool} {msg : Bytes} (h : k ≠ ethStat e 4) :
    (s.ptpSend e peer msg).get k = s.get k := by
  rw [State.ptpSend]
  split
  · rw [send_get, count_get_ne h]
  · rfl

end

/-! A frame with a right frame check sequence passes its check (R262). -/

theorem fcsShift_lt {n r : Nat} (h : r < 2 ^ 32) : fcsShift n r < 2 ^ 32 := by
  induction n generalizing r with
  | zero => exact h
  | succ n ih =>
    rw [fcsShift]
    split
    · exact ih (Nat.xor_lt_two_pow (by omega) (by omega))
    · exact ih (by omega)

theorem fcsOf_lt (b : Bytes) : fcsOf b < 2 ^ 32 := by
  refine Nat.xor_lt_two_pow ?_ (by omega)
  exact List.foldlRecOn (motive := (· < 2 ^ 32)) b _ (by omega) fun _ hr x _ =>
    fcsShift_lt (Nat.xor_lt_two_pow hr (by omega))

theorem fcsGood_withFcs {b : Bytes} : fcsGood (withFcs b) = true := by
  have length : (u32 (fcsOf b)).length = 4 := length_leBytes 4 _
  have body : (b ++ u32 (fcsOf b)).length - 4 = b.length := by rw [List.length_append, length, Nat.add_sub_cancel]
  rw [fcsGood, decide_eq_true_eq, withFcs, dropFcs, body, List.take_left, leAt, List.drop_left, fitBytes,
    List.take_left' length, u32, leNat_leBytes]
  exact Nat.mod_eq_of_lt (fcsOf_lt b)

/-- A hub in Run whose Ethernet port 0 is a PTP time receiver with its link up. -/
def ptpPort : State :=
  State.reset.setAll [(ob 0x2000 1, devRun), (ob 0x2021 11, 2), (ethCfg 0 1, 1), (ethStat 0 1, 1), (ethCfg 0 0x0B, 2)]

/-- A Pdelay_Req cut off after its first byte, with a good check sequence. -/
def runtPdelayReq : Bytes :=
  withFcs [0x01, 0x80, 0xC2, 0x00, 0x00, 0x0E, 0x02, 0x00, 0x00, 0x00, 0x00, 0x01, 0x88, 0xF7, 0x02]

/-- Refutes O42: its clauses ask for a good check sequence and not for a length of 64 bytes to MaxFrame (R262). Its fifth
clause counts and answers a Pdelay_Req of 19 bytes, on which the port does nothing. -/
theorem not_ptpCommandsComplete : ¬ Obligations.PtpCommandsComplete := by
  rintro ⟨-, -, -, -, answered, -⟩
  have clause := answered ptpPort _ 0 runtPdelayReq _ rfl fcsGood_withFcs (by decide) rfl (by decide)
  rw [exec_ptpPdelayReqReceived_badLength (by decide) (by decide)] at clause
  have received := congrArg (·.get (ethStat 0 3)) (Host.Outcome.next.inj clause)
  rw [ptpSend_get (by decide)] at received
  exact absurd received (by decide)

end Sys2Proof.Scope
end

section
/-!
SUPPORT. Time-status messages (R272): what a trunk keeps of one.
-/

set_option Elab.async false

namespace Sys2Proof.Scope

open Sys2Proof Sys2Proof.Machine Sys2Proof.Laws

section
variable {s : State} {t : Nat}

@[simp] theorem updPl_plt {f : PlTime → PlTime} : (s.updPl t f).plt t = f (s.plt t) := get_put_same ..

theorem timeEv_plt {code sev k : Nat} {args : Bytes} : (s.timeEv code sev k args).plt t = s.plt t := by
  rw [State.plt, State.timeEv, ev_pl, State.plt]

/-- A trunk keeps TaiUtcOffset and the two leap bits of byte 6, whose other bits are reserved (R272). -/
theorem exec_timeStatusMessageReceived_utc {msg : Bytes} (h : s.trained t = true) :
    ∃ u, exec (.timeStatusMessageReceived t msg) s = .next u ∧
      (u.plt t).utc = some (leAt msg 4 2, byteAt msg 6 % 4) := by
  rw [exec, execTimeStatusMessageReceived, onPort_trunk (Bool.and_eq_true_iff.mp h).1, if_pos h]
  refine ⟨_, rfl, ?_⟩
  dsimp only
  split
  · rw [updPl_plt]
  · rw [timeEv_plt, updPl_plt]

end

/-- A hub in Run whose trunk 0 is Trained. -/
def trainedTrunk : State := State.reset.setAll [(ob 0x2000 1, devRun), (tk 0 1 1, 8)]

/-- A time-status message whose first reserved bit of byte 6 is set. -/
def reservedBitMsg : Bytes := zeros 6 ++ 4 :: zeros 9

/-- Refutes O43: its fifteenth clause, for a received time-status message, keeps byte 6 whole, though only the two leap
bits of it are kept (R272, where bits 2 to 7 are reserved). A message with bit 2 set leaves 0, and the clause 4. -/
theorem not_timeCommandsComplete : ¬ Obligations.TimeCommandsComplete := by
  rintro ⟨-, -, -, -, -, -, -, -, -, -, -, -, -, -, stored, -⟩
  have clause := stored trainedTrunk _ 0 reservedBitMsg (by decide) rfl
  obtain ⟨u, received, kept⟩ := exec_timeStatusMessageReceived_utc (msg := reservedBitMsg) (t := 0) (s := trainedTrunk)
    (by decide)
  have same := Host.Outcome.next.inj (received.symm.trans clause)
  have whole : (u.plt 0).utc = some (leAt reservedBitMsg 4 2, byteAt reservedBitMsg 6) := by
    rw [same]
    split
    · rw [updPl_plt]
    · rw [timeEv_plt, updPl_plt]
  rw [kept] at whole
  exact absurd whole (by decide)

end Sys2Proof.Scope
end

section
/-!
SUPPORT. The journal push (R283): push cells wait for their acknowledgement, and a cycle has room for PushCellsPerCycle.
-/

set_option Elab.async false

namespace Sys2Proof.Scope

open Sys2Proof Sys2Proof.Machine Sys2Proof.Laws

section
variable {s : State} {t : Nat}

/-- A cycle that has no room for another push cell sends none again (R283). -/
theorem pushAgain_full {c : Nat × List Nat × Nat} (h : s.pushFree t = false) : s.pushAgain t c = s :=
  if_neg (by simp [h])

theorem exec_journalPushRetransmit_full (ht : s.trained t = true) (h : s.pushFree t = false) :
    exec (.journalPushRetransmit t) s = .next s := by
  rw [exec, execJournalPushRetransmit, onPort_trunk (Bool.and_eq_true_iff.mp ht).1, if_pos ht]
  exact congrArg _ (forAll_id fun _ _ => pushAgain_full h)

theorem pushSend_keeps (is : List Nat) : Keeps (fun f => [.fabric].contains f) s (s.pushSend t is) :=
  keeps_State_pushSend s t is (.refl _ s) (sub_self _)

theorem pushSend_plt {is : List Nat} {k : Nat} : (s.pushSend t is).plt k = s.plt k := by
  rw [State.plt, (pushSend_keeps is).same .pl rfl, State.plt]

end

/-- A hub in Run with trunk 0 Trained, at 1 ms: the cycle has sent the two push cells that PushCellsPerCycle allows, and
the cell of entry 1, sent at 0, has no acknowledgement. -/
def pushesSpent : State :=
  { State.reset.setAll [(ob 0x2000 1, devRun), (tk 0 1 1, 8), (pushKey 0 1, 1)] with
    clock := msec 1
    jour := { ring := [{}, {}], next := 2, seq := 2, written := 2 }
    pl := [(0, { pushes := [(1, [1], 0)], cells := 2 })] }

theorem pushesSpent_late :
    ((pushesSpent.plt 0).pushes.filter fun e => decide (e.2.2 + msec 1 ≤ pushesSpent.clock)) = [(1, [1], 0)] := by decide

/-- Refutes O44: its sixth clause sends every late push cell again, whatever the cycle has sent; R283 lets at most
PushCellsPerCycle leave. In a cycle that has sent these the cell still waits, and the clause has it sent at 1 ms. -/
theorem not_journalCommandsComplete : ¬ Obligations.JournalCommandsComplete := by
  rintro ⟨-, -, -, -, -, again, -⟩
  have clause := again pushesSpent _ 0 (by decide) rfl
  rw [exec_journalPushRetransmit_full (by decide) (by decide), pushesSpent_late] at clause
  have waits := congrArg (fun z => (z.plt 0).pushes) (Host.Outcome.next.inj clause)
  simp only [updPl_plt, forAll, pushSend_plt, (pushSend_keeps _).clock] at waits
  exact absurd waits (by decide)

end Sys2Proof.Scope
end

section
/-!
SUPPORT. Keys, the life cycle, tampering and statements (R339-R362).
-/

set_option Elab.async false

namespace Sys2Proof.Scope

open Sys2Proof Sys2Proof.Machine Sys2Proof.Laws

section
variable {s : State} {p : Path} {v : Nat}

/-- A command that its block takes, on a path and of a unit that the hub has (R56). -/
theorem onPath_takes {i : Nat} {k : Bool} {known more : List Nat} {eff : State → State} (h : s.takes p i v)
    (hk : k = true) (hv : v ∈ known) (hm : more = []) : onPath p k s (s.command p i v anyState known more eff) =
      .next (eff ((s.touch p).cmdAccept i v p)) := by
  rw [onPath_ok s hk (takes_ok s h), command_any s h hv hm]

theorem onPath_takesNow {i result : Nat} {k : Bool} {known more : List Nat} {eff : State → State} (h : s.takes p i v)
    (hk : k = true) (hv : v ∈ known) (hm : more = []) :
    onPath p k s (s.commandNow p i v anyState known more result eff) =
      .next ((eff ((s.touch p).cmdAccept i v p)).cmdCommit i result) :=
  onPath_takes h hk hv hm

/-! The customer's key hash (R350). -/

/-- Command 3 of SecurityStatus programs the hash in Provisioning, once (R350). -/
theorem exec_enrolCustomerKeyHash_programs {y : State} (h : s.takes p 0x4000 3) (hl : s.secu.life = 1)
    (hd : s.secu.custDone = false) (hy : y = (s.touch p).cmdAccept 0x4000 3 p) :
    exec (.enrolCustomerKeyHash p) s = .next
      ((({ y with secu := { y.secu with custHash := y.get (ob 0x4000 6), custDone := true } } : State).set
        (ob 0x4000 5) (y.get (ob 0x4000 6))).cmdCommit 0x4000 0) := by
  rw [exec, execEnrolCustomerKeyHash, onPath_takesNow h rfl (by decide) (by simp [hl, hd]), ← hy]

/-- Outside Provisioning, and once the hash is programmed, the command is of kind 6 (R350; log entry 14). -/
theorem exec_enrolCustomerKeyHash_refused (h : s.takes p 0x4000 3) (hl : s.secu.life ≠ 1 ∨ s.secu.custDone = true) :
    exec (.enrolCustomerKeyHash p) s = .next ((s.touch p).violate p 0x4000 0xF0 6) := by
  have kinds : s.cmdKinds 0x4000 3 anyState lifeCmds = [] := by
    simp [State.cmdKinds, h.2.1, takes_anyState s h, lifeCmds]
  have judged : s.judgeWrite p 0x4000 0xF0 (leBytes (objSize 0x4000 0xF0) 3)
      (s.cmdKinds 0x4000 3 anyState lifeCmds ++ kindIf (decide (s.secu.life ≠ 1) || s.secu.custDone) 6) = some 6 := by
    rw [judgeWrite_more (allows_kinds s h.1), kinds,
      show (decide (s.secu.life ≠ 1) || s.secu.custDone) = true by simpa using hl]
    rfl
  rw [exec, execEnrolCustomerKeyHash, onPath_ok s rfl (takes_ok s h), State.commandNow, State.command,
    writeNum_refused s (allows_reach s h.1) judged]

end

/-- Settles O11. -/
theorem customerHashIsProgrammedOnce : Obligations.CustomerHashIsProgrammedOnce := by
  refine ⟨fun s p h hl hd => ⟨_, exec_enrolCustomerKeyHash_programs h hl hd rfl, ?_⟩, fun s p h hl =>
    ⟨exec_enrolCustomerKeyHash_refused h hl, by simp⟩⟩
  have next : ((s.touch p).cmdAccept 0x4000 3 p).get (ob 0x4000 6) = s.get (ob 0x4000 6) :=
    accepted_get fun n hl hu => by simp only [ne_eq, ob_inj]; omega
  simp [next, cmdCommit_object, ob_inj]

section
variable {s : State} {p : Path}

/-- Commands 1 to 3 of R346 on a slot below the credentials: the key goes into the slot, or the command fails with the
Result of what stands against it. -/
theorem makeKey_belowCredentials {k c : Nat} {y : State} (h : s.takes p 0x4002 c) (hc : c ∈ [1, 2, 3, 4])
    (hk : k = s.slotOf p) (h0 : k ≠ 0) (hv : s.slotValid k = false) (hl : k < 112)
    (hy : y = (s.touch p).cmdAccept 0x4002 c p) :
    onPath p true s (s.makeKey p c false) = .next (Sum.elim (fun key => ((y.fillSlot k key).keyCreated k c).cmdCommit 0x4002 0)
      (fun r => y.cmdFail 0x4002 r) (y.workKey k c)) := by
  rw [State.makeKey, ← hk, onPath_takes h rfl hc (by simp [h0, hv]), ← hy]
  dsimp only
  rw [if_neg (by simp)]
  cases y.workKey k c with
  | inl key => simp [show ¬ 112 ≤ k by omega]
  | inr r => rfl

/-- Where no root can be used a slot is not destroyed (R352, R353). -/
theorem exec_keyInvalidate_rootless {y : State} {cut : Bool} (h : s.takes p 0x4002 4) (h0 : s.slotOf p ≠ 0)
    (hr : s.secu.life = 0 ∨ s.secu.life = 3 ∨ s.secu.blocked = true) (hy : y = (s.touch p).cmdAccept 0x4002 4 p) :
    exec (.keyInvalidate ⟨p, cut⟩) s = .next (y.cmdFail 0x4002 (if cut ∧ s.secu.blocked then 8 else 7)) := by
  have same : y.secu = s.secu := by simp [hy]
  rw [exec, execKeyInvalidate, onPath_takes h rfl (by decide) (by simp [h0]), ← hy]
  dsimp only
  rw [same]
  by_cases zeroised : s.secu.blocked = true ∧ cut = true
  · rw [if_pos zeroised, if_pos zeroised.symm]
  · rw [if_neg zeroised, if_pos hr, if_neg fun c => zeroised c.symm]

theorem exec_keyInvalidate_valid {k : Nat} {y : State} {cut : Bool} (h : s.takes p 0x4002 4) (hk : k = s.slotOf p)
    (h0 : k ≠ 0) (hy : y = (s.touch p).cmdAccept 0x4002 4 p) (hv : y.slotValid k = true)
    (hl : s.secu.life = 1 ∨ s.secu.life = 2) (hb : s.secu.blocked = false) : exec (.keyInvalidate ⟨p, cut⟩) s =
      .next (((y.destroy [k] 1).revoke p k).cmdCommit 0x4002 ((y.boundTo [k]).length * 256)) := by
  have same : y.secu = s.secu := by simp [hy]
  have usable : ¬(s.secu.life = 0 ∨ s.secu.life = 3 ∨ s.secu.blocked = true) := by
    rw [hb]
    simp only [Bool.false_eq_true, or_false]
    omega
  rw [exec, execKeyInvalidate, ← hk, onPath_takes h rfl (by decide) (by simp [h0]), ← hy]
  dsimp only
  rw [same, if_neg (by simp [hb]), if_neg usable, if_pos hv]

/-! Tampering (R351, R353). -/

/-- What a tamper source's alarm records of itself (R351, R360). -/
def alarmed (s : State) (n : Nat) : State :=
  { s with secu := { s.secu with
      active := setBit s.secu.active n, latched := setBit s.secu.latched n, events := cnt 32 s.secu.events 1,
      lastTime := s.station, lastSource := n, lock := s.secu.lock || decide (s.tamperAction n = 2) } }

/-- Zeroisation leaves the life cycle (R352). -/
theorem zeroise_life {n : Nat} : (s.zeroise n).secu.life = s.secu.life := by
  have emptied : (forAll (fun k s => s.emptySlot k) s.validSlots s).secu = s.secu :=
    (keeps_forAll (S := fun f => [.objs, .freeCount, .irq, .jour, .keys].contains f) _ _ _
      (fun k y h => keeps_State_emptySlot y k h (sub_self _)) (.refl _ s)).same .secu rfl
  rw [State.zeroise, ev_secu]
  dsimp only
  rw [emptied]

/-- An alarm while the hub runs is recorded and journalled; with an action, outside Decommissioned, the slots are zeroised,
and action 3 decommissions (R351, R353). -/
theorem exec_tamperAlarm_awake {n a : Nat} {y : State} (hn : n < 9) (hr : s.dev ≠ devReset) (hl : s.dev ≠ devLift)
    (ha : a = s.tamperAction n) (hy : y = (alarmed s n).tamperEv n a 0) : exec (.tamperAlarm n true) s =
      .next (if a = 0 ∨ s.secu.life = 3 then y
        else if a = 3 ∧ s.secu.life ≠ 0 then (y.zeroise n).toLife 3 2 else y.zeroise n) := by
  have dev : y.dev = s.dev := by rw [hy]; exact ev_get ..
  have life : y.secu.life = s.secu.life := by rw [hy, State.tamperEv, ev_secu]; rfl
  rw [exec, execTamperAlarm, onUnit_known (decide_eq_true hn), if_neg (by simp), if_neg (by simp [hr]), ← ha]
  refine congrArg _ ((if_neg hr).trans ?_)
  rw [alarmed, ← ha] at hy
  rw [← hy]
  dsimp only
  rw [dev, if_neg hl, life, zeroise_life, life]

/-! Self-tests and statements (R355, R356). -/

theorem exec_cryptoSelftest_first {e : Nat} {pass : Bool} {y : State} (he : s.part.hasTrunk e = true) (hr : s.dev ≠ devReset)
    (ht : s.timing (.selfTest e) = false) (hy : y = s.start (.selfTest e)) : exec (.cryptoSelftest e pass) s =
      .next (if pass then y
        else (y.set (ob 0x4000 8) (setBit (y.get (ob 0x4000 8)) e)).ev 0xC060 e 4 278 (u16 e ++ u16 e)) := by
  rw [exec, execCryptoSelftest, onPort_trunk he, if_neg (by simp [hr, ht]), ← hy]

theorem exec_vanguriRequest_whole {t : Nat} {busy cut : Bool} {msg : Bytes} (hr : s.reach = true) (ht : s.trained t = true)
    (hm : byteAt msg 0 = 1) (hl : 36 ≤ msg.length) : exec (.vanguriRequest t busy msg cut) s =
      .next (if 4 ≤ (s.asksOf t).length then s.count (ob 0x4010 5) 1
        else if busy ∨ s.asksOf t ≠ [] then { s with secu := { s.secu with asks := s.secu.asks ++ [(t, msg, cut)] } }
        else s.vanguriAnswer t msg cut) := by
  rw [exec, execVanguriRequest, onPort_trunk (Bool.and_eq_true_iff.mp ht).1, if_pos ⟨hr, ht, hm, hl⟩]

end

/-- Settles O48: each command goes its branch by the life cycle, the slot and the tamper state that its rule names. -/
theorem securityCommandsComplete : Obligations.SecurityCommandsComplete := by
  refine ⟨fun s y p k h hk h0 hv hl hy => makeKey_belowCredentials h (by decide) hk h0 hv hl hy,
    fun s y p k h hk h0 hv hl hy => makeKey_belowCredentials h (by decide) hk h0 hv hl hy,
    fun s y p k h hk h0 hv hl hy => makeKey_belowCredentials h (by decide) hk h0 hv hl hy,
    fun s y p cut h h0 hr hy => exec_keyInvalidate_rootless h h0 hr hy,
    fun s y p k cut h hk h0 hy hv hu => exec_keyInvalidate_valid h hk h0 hy hv hu.1 hu.2,
    fun s y p h hl hy hc => ?_, fun s y p h hl hy => ?_, fun s y p h hl hd hy => exec_enrolCustomerKeyHash_programs h hl hd hy,
    fun s y n a hn hr hd ha hl hy => ?_, fun s y n a hn hr hd ha hl hy => ?_, fun s n hn => ?_, fun s y p h hy => ?_,
    fun s y e he hd ht hy => ?_, fun s n hd => ?_, fun s t busy cut msg hr ht hm hl hb => ?_,
    fun s y t st msg unit cut hr ht hm hl ha hst hy hu => ?_, fun s y p cut st i h hy hst hi => ?_⟩
  · rw [exec, execEnterOperational, onPath_takes h rfl (by decide) (by simp [hl]), ← hy, if_pos hc]
  · rw [exec, execDecommission, onPath_takes h rfl (by decide) (by simp; omega), ← hy]
  · rw [exec_tamperAlarm_awake hn hr hd ha rfl, if_pos hl, hy, ha, alarmed]
  · have acts : ¬(a = 0 ∨ s.secu.life = 3) := by omega
    rw [exec_tamperAlarm_awake hn hr hd ha rfl, if_neg acts, hy, ha, alarmed]
  · rw [exec, execTamperAlarm, onUnit_known (decide_eq_true hn)]
    rfl
  · rw [exec, execTamperClear, onPath_takesNow h rfl (by decide) rfl, ← hy]
  · exact ⟨exec_cryptoSelftest_first he hd ht hy, exec_cryptoSelftest_first he hd ht hy⟩
  · rw [exec, execTrngHealthFailure, if_neg hd]
  · rw [exec_vanguriRequest_whole hr ht hm hl, if_pos hb]
  · rw [exec_vanguriRequest_whole hr ht hm hl, ha, if_neg (by decide), if_neg (by decide), State.vanguriAnswer,
      ← hst, ← hy, ← hu]
  · rw [exec, execVanguriSign, onPath_takes h rfl (by decide) rfl, ← hy, hst, hi]

end Sys2Proof.Scope
end

section
/-!
SUPPORT. The interrupt controller (R395-R400): which source a claim takes, and what claims, completions and deliveries do.
-/

set_option Elab.async false

namespace Sys2Proof.Scope

open Sys2Proof Sys2Proof.Machine Sys2Proof.Laws

section
variable {s : State} {p c k m : Nat}

/-- A pair's source of a class is pending and enabled: a claim may take it (R397). -/
def claimable (s : State) (p c k : Nat) : Bool := s.srcPending k && s.enabled p k && decide (s.get (ob (irqIndex k) 3) = c)

/-- Source `a` goes before source `b`: a higher Priority, or the same and no higher number (R397). -/
def GoesFirst (s : State) (a b : Nat) : Prop :=
  s.get (ob (irqIndex b) 4) < s.get (ob (irqIndex a) 4) ∨ (s.get (ob (irqIndex b) 4) = s.get (ob (irqIndex a) 4) ∧ a ≤ b)

/-- Of sources in ascending order the better of each two is in the end one that goes before all. -/
theorem foldl_better {l : List Nat} (h : (k :: l).Pairwise (· < ·)) :
    l.foldl s.better k ∈ k :: l ∧ ∀ x ∈ k :: l, GoesFirst s (l.foldl s.better k) x := by
  induction l generalizing k with
  | nil => exact ⟨by simp, by simp [GoesFirst]⟩
  | cons x r ih =>
    obtain ⟨first, rest⟩ := List.pairwise_cons.mp h
    rw [List.foldl_cons, State.better]
    split
    next lower =>
      obtain ⟨mem, best⟩ := ih rest
      refine ⟨List.mem_cons_of_mem _ mem, List.forall_mem_cons.mpr ⟨?_, best⟩⟩
      have beatsX := best x List.mem_cons_self
      simp only [GoesFirst] at beatsX ⊢
      omega
    next upper =>
      have short : (k :: r).Pairwise (· < ·) :=
        List.pairwise_cons.mpr ⟨fun y hy => first y (List.mem_cons_of_mem _ hy), (List.pairwise_cons.mp rest).2⟩
      obtain ⟨mem, best⟩ := ih short
      obtain ⟨beatsK, beatsRest⟩ := List.forall_mem_cons.mp best
      refine ⟨by grind, List.forall_mem_cons.mpr ⟨beatsK, List.forall_mem_cons.mpr ⟨?_, beatsRest⟩⟩⟩
      have behind := first x List.mem_cons_self
      simp only [GoesFirst] at beatsK ⊢
      omega

/-- The sources that a claim may take, in ascending order. -/
def claimables (s : State) (p c : Nat) : List Nat := ((upTo 512).filter fun k => decide (k ≠ 0)).filter (claimable s p c)

/-- The one that goes before all, 0 for none. -/
def bestOf (s : State) : List Nat → Nat
  | [] => 0
  | k :: r => r.foldl s.better k

theorem bestSource_eq : s.bestSource p c = bestOf s (claimables s p c) := by
  unfold State.bestSource claimables claimable
  dsimp only
  generalize List.filter _ _ = l
  cases l <;> rfl

theorem mem_claimables : k ∈ claimables s p c ↔ (0 < k ∧ k < 512) ∧ claimable s p c k = true := by
  simp only [claimables, upTo, List.mem_filter, List.mem_range, decide_eq_true_eq, Nat.pos_iff_ne_zero, and_comm]

/-- With no source to take a claim's source is 0 (R397). -/
theorem bestSource_none (h : ∀ k, 0 < k → k < 512 → claimable s p c k = false) : s.bestSource p c = 0 := by
  have none : claimables s p c = [] := List.eq_nil_iff_forall_not_mem.mpr fun k hk => by
    obtain ⟨⟨hl, hu⟩, takes⟩ := mem_claimables.mp hk
    simp [h k hl hu] at takes
  rw [bestSource_eq, none, bestOf]

/-- A claim's source is one that the claim may take, and it goes before every other (R397). -/
theorem bestSource_some (h : s.bestSource p c ≠ 0) : s.bestSource p c < 512 ∧ claimable s p c (s.bestSource p c) = true ∧
    ∀ k, 0 < k → k < 512 → claimable s p c k = true → GoesFirst s (s.bestSource p c) k := by
  have ascending : (claimables s p c).Pairwise (· < ·) := (List.pairwise_lt_range.filter _).filter _
  rw [bestSource_eq] at h ⊢
  cases hl : claimables s p c with
  | nil => exact absurd (congrArg (bestOf s) hl) h
  | cons k r =>
    rw [hl] at ascending
    obtain ⟨mem, best⟩ := foldl_better (s := s) ascending
    rw [← hl] at mem best
    obtain ⟨range, takes⟩ := mem_claimables.mp mem
    exact ⟨range.2, takes, fun j h0 hj hc => best j (mem_claimables.mpr ⟨⟨h0, hj⟩, hc⟩)⟩

/-- A claim that takes no source (R397). -/
theorem claim_none (h : s.irq.active p c ≠ 0 ∨ s.bestSource p c = 0) : s.claim p c = s.send (.claimed p c 0) := by
  have taken : (if s.irq.active p c ≠ 0 then 0 else s.bestSource p c) = 0 := by
    split
    · rfl
    · exact h.resolve_left ‹_›
  rw [State.claim, taken]
  rfl

theorem active_setActive {x : Irq} (hp : p < 2) (hc : c < 2) : (x.setActive p c k).active p c = k := by
  interval_cases p <;> interval_cases c <;> rfl

theorem setActive_masks {x : Irq} : (x.setActive p c k).latch = x.latch ∧ (x.setActive p c k).bells = x.bells := by
  unfold Irq.setActive
  split <;> split <;> exact ⟨rfl, rfl⟩

/-- The controller after a claim took a source: a latch is cleared, a doorbell bit stays (R396, R397). -/
def claimedIrq (x : Irq) (p c k : Nat) : Irq :=
  if k < 384 then { x.setActive p c k with latch := clrBit (x.setActive p c k).latch k } else x.setActive p c k

/-- A claim that takes a source (R397). -/
theorem claim_some (ha : s.irq.active p c = 0) (h : s.bestSource p c ≠ 0) : s.claim p c =
    (({ s with irq := claimedIrq s.irq p c (s.bestSource p c) } : State).count (ob (irqIndex (s.bestSource p c)) 7) 1).send
      (.claimed p c (s.bestSource p c)) := by
  have taken : (if s.irq.active p c ≠ 0 then 0 else s.bestSource p c) = s.bestSource p c := if_neg (by simp [ha])
  rw [State.claim, taken]
  exact congrArg (State.send · (.claimed p c (s.bestSource p c))) (if_neg h)

theorem claim_irq (ha : s.irq.active p c = 0) (h : s.bestSource p c ≠ 0) :
    (s.claim p c).irq = claimedIrq s.irq p c (s.bestSource p c) := by
  rw [claim_some ha h, send_irq, count_irq]

theorem claimedIrq_active {x : Irq} (hp : p < 2) (hc : c < 2) : (claimedIrq x p c k).active p c = k := by
  have same : (claimedIrq x p c k).active p c = (x.setActive p c k).active p c := by
    unfold claimedIrq
    split <;> rfl
  rw [same, active_setActive hp hc]

theorem claimedIrq_bells {x : Irq} : (claimedIrq x p c k).bells = x.bells := by
  unfold claimedIrq
  split <;> exact setActive_masks.2

theorem claimedIrq_latch {x : Irq} (h : k < 384) : (claimedIrq x p c k).latch = clrBit x.latch k := by
  rw [claimedIrq, if_pos h, setActive_masks.1]

/-- An event of a source of a domain that is on: one routed to no pair has no latch, and while CI2 is stopped the
asynchronous latch takes it (R396, R400). -/
theorem raise_on (hk : 1 ≤ k ∧ k < 384) (ho : s.srcOff k = false) : s.raise k = if s.route k = 0 then s
    else if s.irq.stopped then { s with irq := { s.irq with async := setBit s.irq.async k } }
    else { s with irq := { s.irq with latch := setBit s.irq.latch k } } := by
  have blocked : (k = 0 ∨ 384 ≤ k ∨ s.route k = 0 ∨ s.srcOff k = true) ↔ s.route k = 0 := by
    rw [ho]
    simp only [Bool.false_eq_true, or_false]
    omega
  rw [State.raise]
  simp only [blocked]

end

/-- Settles O16. -/
theorem claimsTakeTheBestPendingSource : Obligations.ClaimsTakeTheBestPendingSource := by
  refine ⟨fun s p c ha => claim_none (.inl ha), fun s p c h => claim_none (.inr (bestSource_none h)),
    fun s p c b ⟨hp, hc⟩ ha hb h0 => ?_, fun s k hk ho => ?_⟩
  · rw [hb] at h0 ⊢
    obtain ⟨range, takes, first⟩ := bestSource_some h0
    simp only [claimable, State.srcPending, State.enabled, Bool.and_eq_true, Bool.not_eq_true', decide_eq_true_eq] at takes
    obtain ⟨⟨⟨level, idle⟩, enabled, route⟩, cls⟩ := takes
    have on : s.enabled p (s.bestSource p c) = true := by simp [State.enabled, enabled, route]
    refine ⟨range, level, idle, on, route, cls, fun k hl hu hpend hen hcls => ?_, ?_, ?_, fun hb => ?_, ?_⟩
    · exact first k hl hu (by simp [claimable, hpend, hen, hcls])
    · rw [claim_irq ha h0, claimedIrq_active hp hc]
    · rw [claim_irq ha h0, claimedIrq_bells]
    · rw [claim_irq ha h0, claimedIrq_latch hb]
    · rw [claim_some ha h0, State.send, count_sent]
  · rw [raise_on hk ho]
    exact ⟨fun hr => if_pos hr, fun hr hs => by simp [hr, hs], fun hr hs => by simp [hr, hs]⟩

section
variable {s y : State} {p c m k ctrl : Nat}

theorem exec_nClaim_runs (hp : p < 2) (hr : s.pairRuns p = true) :
    exec (.nClaim p m) s = .next ((s.setEnable p m).claim p 0) := by
  rw [exec, execNClaim, onUnit_known (decide_eq_true hp), if_pos hr]

theorem exec_fClaim_runs (hp : p < 2) (hr : s.pairRuns p = true) :
    exec (.fClaim p m) s = .next ((s.setEnable p m).claim p 1) := by
  rw [exec, execFClaim, onUnit_known (decide_eq_true hp), if_pos hr]

theorem exec_nComplete_runs (hp : p < 2) (hr : s.pairRuns p = true) :
    exec (.nComplete p k) s = .next (s.endSource p 0 k) := by
  rw [exec, execNComplete, onUnit_known (decide_eq_true hp), if_pos hr]

theorem exec_fComplete_runs (hp : p < 2) (hr : s.pairRuns p = true) :
    exec (.fComplete p k) s = .next (s.endSource p 1 k) := by
  rw [exec, execFComplete, onUnit_known (decide_eq_true hp), if_pos hr]

/-- A write of the active source ends it (R397). -/
theorem endSource_active (h0 : k ≠ 0) (h : s.irq.active p c = k) :
    s.endSource p c k = { s with irq := s.irq.setActive p c 0 } := if_pos ⟨h0, h⟩

/-- A write of another source is recorded (R397). -/
theorem endSource_other (h : s.irq.active p c ≠ k) : s.endSource p c k =
    s.evRate 0x1230 0 2 0 (sec 1) (u8 (p + 1) ++ u8 c ++ u16 k) [1] [] := if_neg fun e => h e.2

theorem exec_normalInterruptEntry_runs {r : Bool} (hp : p < 2) (hr : s.pairRuns p = true)
    (hy : y = (s.setEnable p m).setCtrl p ctrl) :
    exec (.normalInterruptEntry p m ctrl r) s = .next (y.deliver p 0 r) := by
  rw [exec, execNormalInterruptEntry, onUnit_known (decide_eq_true hp), if_pos hr, hy]

theorem exec_fastInterruptEntry_runs (hp : p < 2) (hr : s.pairRuns p = true) (hy : y = (s.setEnable p m).setCtrl p ctrl) :
    exec (.fastInterruptEntry p m ctrl) s = .next (y.deliver p 1 false) := by
  rw [exec, execFastInterruptEntry, onUnit_known (decide_eq_true hp), if_pos hr, hy]

theorem deliver_requested {r : Bool} (h : s.delivers p c = true) : s.deliver p c r = s.claim p c := if_pos h

/-- An entry that resumes with nothing to take is spurious, and pair B's is counted (R399). -/
theorem deliver_spurious (ha : s.irq.active p c = 0) (hb : s.bestSource p c = 0) :
    s.deliver p c true = (if p = 1 then s.count (ob 0x4501 0x0C) 1 else s).claim p c := by
  rw [State.deliver, if_neg (by simp [State.delivers, hb]), if_pos ⟨rfl, ha⟩]
  simp only [hb, and_true]

end

/-- Settles O52: every clause is one branch of its command, on a pair that executes. -/
theorem interruptCommandsComplete : Obligations.InterruptCommandsComplete := by
  refine ⟨fun s p m hp hr => exec_nClaim_runs hp hr, fun s p k hp hr h0 ha => ?_, fun s p k hp hr ha => ?_,
    fun s p m hp hr => exec_fClaim_runs hp hr, fun s p k hp hr h0 ha => ?_, fun s y p m c r hp hr hy hd => ?_,
    fun s y p m c hp hr hy ha hb => ?_, fun s y p m c hp hr hy hd => ?_, fun s hs he ha hb => ?_, fun s hs => ?_,
    fun s k hs hk ha he => ?_⟩
  · rw [exec_nComplete_runs hp hr, endSource_active h0 ha]
  · rw [exec_nComplete_runs hp hr, endSource_other ha]
  · rw [exec_fComplete_runs hp hr, endSource_active h0 ha]
  · rw [exec_normalInterruptEntry_runs hp hr hy, deliver_requested hd]
  · rw [exec_normalInterruptEntry_runs hp hr hy, deliver_spurious ha hb]
  · rw [exec_fastInterruptEntry_runs hp hr hy, deliver_requested hd]
  · rw [exec, execCi2ClockStop, if_pos (by simp [hs, he, ha, hb])]
  · rw [exec, execCi2ClockRestart]
    exact congrArg _ (if_pos ⟨hs, .inl rfl⟩)
  · have woken : ((upTo 384).any fun k => s.irq.async.testBit k && (s.enabled 0 k || s.enabled 1 k)) = true :=
      List.any_eq_true.mpr ⟨k, List.mem_range.mpr hk, by simp [ha, he]⟩
    rw [exec, execCi2ClockRestart]
    exact congrArg _ (if_pos ⟨hs, .inr woken⟩)

end Sys2Proof.Scope
end

section
/-!
SUPPORT. The detections of the safety functions, the pulse permission, and the background work (R408-R438).
-/

set_option Elab.async false

namespace Sys2Proof.Scope

open Sys2Proof Sys2Proof.Machine Sys2Proof.Laws

section
variable {s y : State} {p : Path} {n : Nat}

/-- Outside Reset a mismatch of pair A, and of pair B while it is enabled, is recorded (R412). -/
theorem exec_lockstepMismatch_counted {c a : Nat} (hp : n < 2) (hr : s.dev ≠ devReset)
    (hb : n = 1 → s.get (ob 0x4501 1) ≠ 0) :
    exec (.lockstepMismatch n c a) s =
      .next ((((s.updSafety fun x => if n = 0 then { x with lockA := true } else { x with lockB := true }).count
        (ob 0x4400 (5 + n)) 1).latchCommon n).danger 0xE001 (n + 1) (320 + n) (u16 (n + 1) ++ u32 c ++ u64 a)) := by
  have counts : ¬(s.dev = devReset ∨ (n = 1 ∧ s.get (ob 0x4501 1) = 0)) := fun h =>
    h.elim hr fun e => hb e.1 e.2
  rw [exec, execLockstepMismatch, onUnit_known (decide_eq_true hp), if_neg counts]

/-- A shadow check that is due and whose block is not being written (R414). -/
theorem exec_shadowCheck_due {ok : Bool} {low high : Nat} (ht : s.taskRuns 4 = true) (hd : s.due .shadow 39000 = true)
    (hy : y = (s.start .shadow).updSafety fun x => { x with shadowNext := (s.safety.shadowNext + 1) % 256 }) :
    exec (.shadowCheck ok false low high) s = .next ((if ok then y else ((y.count (ob 0x4400 8) 1).latchCommon 3).danger
      0xE003 s.safety.shadowNext 323 (u16 s.safety.shadowNext ++ u16 low ++ u16 high)).taskStep 4 0 (ofBool !ok)
        (decide (s.safety.shadowNext = 255))) := by
  rw [exec, execShadowCheck, if_pos ⟨ht, hd⟩, hy]
  exact congrArg _ (if_neg Bool.false_ne_true)

/-- The latches are cleared at the model's clock, and SAFE_PULSE follows (R411, R433). -/
theorem exec_safetyClearLatches_takes (h : s.takes p 0x4400 1) (hy : y = (s.touch p).cmdAccept 0x4400 1 p) :
    exec (.safetyClearLatches p) s = .next (((((y.clear [ob 0x4400 2, ob 0x4400 3]).updSafety
      fun x => { x with lockB := false, clearedAt := some s.clock, again := 0 }).cmdCommit 0x4400 0).pulse)) := by
  have clock : (y.clear [ob 0x4400 2, ob 0x4400 3]).clock = s.clock := by simp [hy]
  rw [exec, execSafetyClearLatches, onPath_takes h rfl (by decide) rfl, ← hy]
  dsimp only
  rw [clock]

end

/-- Settles O53. -/
theorem safetyCommandsComplete : Obligations.SafetyCommandsComplete := by
  refine ⟨fun s c a hr => exec_lockstepMismatch_counted (by decide) hr nofun,
    fun s c a hr hb => exec_lockstepMismatch_counted (by decide) hr fun _ => hb,
    fun s low high ht hd => exec_shadowCheck_due ht hd rfl, fun s low high ht hd => exec_shadowCheck_due ht hd rfl,
    fun s ok low high ht hd => ?_, fun s n hn hw ho hq hs => ?_, fun s cause unit value hl hu hp hf hr => ?_⟩
  · rw [exec, execShadowCheck, if_pos ⟨ht, hd⟩]
    exact congrArg _ (if_pos rfl)
  · rw [exec, execTunnelSilent, onUnit_known (decide_eq_true hn)]
    exact congrArg _ (if_pos ⟨hw, ho, hq, by simp [hs]⟩)
  · rw [exec, execSf4PowerPathFault, onPort_has s (by simp [hl, hu, pathUnit_full hp]) (by simp [hl, hu, hp]), if_pos hf]
    exact congrArg _ (if_neg hr)

/-- Settles O56. -/
theorem pulsePermissionAndSafetyCommandsComplete : Obligations.PulsePermissionAndSafetyCommandsComplete := by
  refine ⟨fun s hr hl => ?_, fun s hd => ?_, fun s p h => exec_safetyClearLatches_takes h rfl, fun s p h => ?_⟩
  · rw [exec, execSafePulsePermission, if_neg (by simp [hr, hl])]
    rfl
  · rw [exec, execSafePulsePermissionTimeout, if_pos hd]
    rfl
  · rw [exec, execShadowReload, onPath_takesNow h rfl (by decide) rfl]

/-! Commands of Setup and Maintain only (R56). -/

section
variable {s : State} {p : Path} {i v : Nat}

theorem mem_setupOrMaintain (h : s.dev = 3 ∨ s.dev = 5) : s.dev ∈ [3, 5] := by simpa using h

/-- In Setup and Maintain a block with no command running takes a command that the dictionary permits (R56). -/
theorem takes_inSetup (ha : s.allows p i 0xF0 v) (hb : s.cmdStatus i ≠ 1) (hs : s.dev = 3 ∨ s.dev = 5) : s.takes p i v :=
  ⟨ha, hb, by omega⟩

theorem onPath_takesIn {result : Nat} {k : Bool} {states known more : List Nat} {eff : State → State} (h : s.takes p i v)
    (hk : k = true) (hs : s.dev ∈ states) (hv : v ∈ known) (hm : more = []) :
    onPath p k s (s.commandNow p i v states known more result eff) =
      .next ((eff ((s.touch p).cmdAccept i v p)).cmdCommit i result) := by
  rw [onPath_ok s hk (takes_ok s h), commandNow_taken s h hs hv hm]

end

/-- Settles O54. -/
theorem backgroundCommandsComplete : Obligations.BackgroundCommandsComplete := by
  refine ⟨fun s y m d k x hr hd hl hy hb hw => ?_, fun s e hr hd => ?_,
    fun s p ha hb hs => ?_, fun s p e h hl => ?_, fun s p i n ha hk => ?_, fun s n b u hn hr hd hf => ?_,
    fun s n b d ht => ?_, fun s n b d ht => ?_, fun s m n b d hm ht => ?_, fun s n w q a d ht => ?_, fun s n d ht => ?_,
    fun s l ht => ?_, fun s n l hn ht => ?_, fun s t l b hp hl ht hx => ?_, fun s ht => ?_, fun s y n hn ht hp hd hl hy => ?_,
    fun s p n v ha hn => ?_, fun s l n e g a hl hr ht ha => ?_, fun s l n e g hl hr ht => ?_,
    fun s y l g r w ht hd hl hy hc => ?_, fun s ht hd => ?_⟩
  · rw [hy, setAll_safety] at hb
    rw [exec, execSentinelReport, if_pos ⟨hr, hd, hl⟩]
    dsimp only
    rw [hb, if_pos rfl, hw, ← hy]
  · rw [exec, execPlanInstant, if_pos ⟨hr, hd⟩]
  · rw [exec, execMarginApprove, onPath_takesIn (takes_inSetup ha hb hs) rfl (mem_setupOrMaintain hs) (by decide) rfl]
  · rw [exec, execMarginPlanNow, onPath_takes h rfl (by decide) rfl, if_neg (by simp [hl])]
  · rw [exec, execMarginEnvelopeWrite, hk, onPath_writeNum rfl ha]
  · rw [exec, execMarginPinnedRepeat, onUnit_known (decide_eq_true hn), if_pos ⟨hr, hd⟩, hf]
  · rw [exec, execDramPatrolScrub, if_pos ht]
  · rw [exec, execBufferPatrolScrub, if_pos ht]
  · rw [exec, execSramScrub, onUnit_known (decide_eq_true hm), if_pos ht]
  · rw [exec, execMramScrub, if_pos ht]
    rfl
  · rw [exec, execMramScrub, if_pos ht]
    rfl
  · rw [exec, execDdrCalibration, onUnit_known (by decide), if_pos ht]
    rfl
  · rw [exec, execDdrCalibration, onUnit_known (decide_eq_true (by omega)), if_pos ht]
    dsimp only
    rw [if_neg (by omega)]
  · rw [exec, execSerdesSweep, onPort_lane hp hl, if_pos ⟨ht, hx⟩]
    rfl
  · rw [exec, execSensorCalibration, if_pos ht]
  · rw [exec, execBackgroundTaskBehind, onUnit_known (decide_eq_true hn)]
    dsimp only
    rw [if_pos ⟨ht, hp, hd, by rw [hl]; rfl⟩, ← hy]
  · rw [exec, execBackgroundTaskEnableWrite, onPath_writeNum (decide_eq_true hn) ha]
  · rw [exec, execNorLogWrite, onUnit_known (decide_eq_true hl), if_neg (by simp [hr]), if_pos ht, ha]
  · rw [exec, execNorLogWrite, onUnit_known (decide_eq_true hl), if_neg (by simp [hr]), if_neg (by simp [ht])]
  · rw [exec, execTelemetrySample, if_pos ⟨ht, hd, hl⟩]
    simp only [decide_eq_true_eq]
    rw [← hy, if_neg (not_lt.mpr hc)]
  · rw [exec, execTelemetryLogRecord, if_pos ⟨ht, hd⟩]

end Sys2Proof.Scope
end

section
/-!
SUPPORT. Lift, staging, activation and the firmware's blocks (R445-R457).
-/

set_option Elab.async false

namespace Sys2Proof.Scope

open Sys2Proof Sys2Proof.Machine Sys2Proof.Laws

section
variable {s y z : State} {p : Path} {i v a b : Nat} {data : Bytes} {e g : Bool}

/-- A command of Setup and Maintain only that ends later (R56). -/
theorem onPath_takesWithin {k : Bool} {states known more : List Nat} {eff : State → State} (h : s.takes p i v)
    (hk : k = true) (hs : s.dev ∈ states) (hv : v ∈ known) (hm : more = []) :
    onPath p k s (s.command p i v states known more eff) = .next (eff ((s.touch p).cmdAccept i v p)) := by
  rw [onPath_ok s hk (takes_ok s h), command_taken s h hs hv hm]

/-- A block of a size that DFU allows, for the alternate setting of the download, goes to the target region (R446). -/
theorem exec_liftDfuDnload_block (ha : a < 3) (hl : s.liftHere = true) (hn : 0 < data.length ∧ data.length ≤ 4096)
    (hd : s.boot.lift.state = dfuNext → s.boot.lift.alt = a) : exec (.liftDfuDnload a b data e g) s =
      .next (match s.dfuBlock { s.boot.lift with alt := a } a (if a = 2 then 2 else 1) b data e g with
        | (s, .inl d) => s.updBoot fun x => { x with lift := d }
        | (s, .inr (status, _)) => s.liftFail a status) := by
  rw [exec, execLiftDfuDnload, onUnit_known (decide_eq_true ha), if_pos ⟨hl, hn.1, hn.2⟩]
  exact congrArg _ (if_neg fun h => h.2 (hd h.1))

theorem exec_liftDfuDnloadEnd_complete (ha : a < 3) (hl : s.liftHere = true) (hd : s.boot.lift.alt = a)
    (hy : s.dfuEnd s.boot.lift a g = .inl y)
    (hz : z = if a < 2 then y.updBoot (fun x => { x with trial := a + 1, failed := 0 }) else y) :
    exec (.liftDfuDnloadEnd a g) s = .next ((((z.note 0xF005 2
      (u16 (altSlot a) ++ u8 a ++ u32 (imgVersion s.boot.lift.header) ++ u8 0)).send
        (.dfuStatus 0 dfuWaitReset (Config.dfuPoll dfuWaitReset))).toReset 6 false)) := by
  rw [exec, execLiftDfuDnloadEnd, onUnit_known (decide_eq_true ha), if_pos hl]
  dsimp only
  rw [if_neg (by simp [hd]), hy, hz]

/-- A block of a staging download (R447). -/
theorem exec_stagingDfuDnload_block {x : Dfu} {h : Bytes} (hr : s.reach = true) (hd : s.svc.dfu = true)
    (hn : 0 < data.length ∧ data.length ≤ 4096) (he : s.dfuNow.1 ≠ dfuError) (hs : s.stagingRuns = true)
    (hx : x = { s.boot.stage with state := s.dfuNow.1 }) (hh : h = if x.state = dfuIdle then data else x.header) :
    exec (.stagingDfuDnload b data e g) s = .next (match s.dfuBlock x 3 (if imgKind h = 2 then 2 else 1) b data e g with
        | (s, .inl d) => ((s.updBoot fun x => { x with stage := d }).count (ob 0x6001 5) data.length).dfuSet d.state 0
        | (s, .inr (status, result)) => s.stagingFail status result) := by
  rw [exec, execStagingDfuDnload, if_pos ⟨hr, hd, hn.1, hn.2⟩, if_neg he, hh, hx]
  exact congrArg _ (if_neg (by simp [hs]))

/-- The zero-length block of a staging download (R447). -/
theorem exec_stagingDfuDnloadEnd_runs (hr : s.reach = true) (hd : s.svc.dfu = true) (he : s.dfuNow.1 ≠ dfuError)
    (hs : s.stagingRuns = true) : exec (.stagingDfuDnloadEnd g) s =
      .next (match s.dfuEnd { s.boot.stage with state := s.dfuNow.1 } 3 g with
        | .inl t => ((((t.setAll [(ob 0x6001 1, 2), (ob 0x6001 2, imgKind s.boot.stage.header),
            (ob 0x6001 3, imgVersion s.boot.stage.header), (ob 0x6001 4, imgSecurity s.boot.stage.header)]).dfuSet dfuIdle 0).ev
            0xF010 0 1 0 (u16 0 ++ u8 (imgKind s.boot.stage.header) ++ u32 (imgVersion s.boot.stage.header) ++
              u8 (imgSecurity s.boot.stage.header))).cmdCommit 0x6001 0)
        | .inr (status, result) => (s.eraseRegion 3).stagingFail status result) := by
  rw [exec, execStagingDfuDnloadEnd, if_pos ⟨hr, hd⟩, if_neg he]
  exact congrArg _ (if_neg (by simp [hs]))

/-- The copy of a pair B image that is programmed (R448). -/
theorem exec_imageActivationDone_app {r : Nat} (ha : s.activating = some r) (hc : s.copyReady = true)
    (hk : s.get (ob 0x6001 2) = 2) (hy : y = ((s.eraseRegion r).set (ob 0x6001 1) 2).program (regionBase r + 512)
      (((s.eraseRegion r).set (ob 0x6001 1) 2).regionPayload 3))
    (hz : z = y.program (regionBase r) (s.regionHeader 3)) : exec (.imageActivationDone true) s =
      .next ((z.ev 0xF012 0 1 0 (u16 (altSlot r) ++ u8 2 ++ u32 (imgVersion (s.regionHeader 3)) ++
        u8 r)).cmdCommit 0x6001 0) := by
  rw [exec, execImageActivationDone, ha]
  dsimp only
  rw [if_neg (by simp [hc]), hk, if_neg (by decide), if_neg (by simp), if_neg (by decide), ← hy, ← hz]

/-- FirmwareStatus command 2 with bit 8 on the preferred slot, with a count to raise (R448). -/
theorem exec_fwAdvanceRollback_forced (ha : s.allows p 0x6000 0xF0 258) (hb : s.cmdStatus 0x6000 ≠ 1)
    (hs : s.dev = 3 ∨ s.dev = 5) (hy : y = (s.touch p).cmdAccept 0x6000 258 p) (hp : y.boot.lastSlot = y.boot.preferred)
    (hv : y.boot.rollback < y.boot.secVersion) : exec (.fwAdvanceRollback p true) s =
      .next (((y.updBoot fun x => { x with rollback := x.secVersion }).ev 0xF014 0 2 0
        (u16 y.boot.lastSlot ++ u8 1 ++ u8 y.boot.rollback ++ u8 y.boot.secVersion)).cmdCommit 0x6000 0) := by
  have value : 2 + 256 * ofBool true = 258 := rfl
  rw [exec, execFwAdvanceRollback, value,
    onPath_takesWithin (takes_inSetup ha hb hs) rfl (mem_setupOrMaintain hs) (by decide) rfl, ← hy]
  dsimp only
  rw [if_neg (by simp [hp]), if_neg (by omega), if_neg (by simp)]

end

/-- Settles O55: each command goes the branch that its rule names for the state. -/
theorem updateCommandsComplete : Obligations.UpdateCommandsComplete := by
  refine ⟨fun s a b data e g y d ha hl hn hd hb => ?_, fun s a b data e g y k r ha hl hn hd hb => ?_,
    fun s y z a g ha hl hd hy hz => exec_liftDfuDnloadEnd_complete ha hl hd hy hz, fun s y hl he hy => ?_,
    fun s b c k hd hn hk => ?_, fun s c hd hn => ?_, fun s b c hd hn he => ?_, fun s hd => ?_, fun s hs hd => ?_,
    fun s y b data h e g x d hr hd hn he hs hx hh hb => ?_, fun s y b k r data h e g x hr hd hn he hs hx hh hb => ?_,
    fun s g k r hr hd he hs hb => ?_, fun s y z g h hr hd he hs hb hh hz => ?_, fun s p ha hb hs => ?_,
    fun s y z p r ha hb hs hy hg hz hr hc => ?_, fun s y p ha hb hs hy hg => ?_,
    fun s y z r ha hc hk hy hz => exec_imageActivationDone_app ha hc hk hy hz, fun s p ha hb hs => ?_,
    fun s y p h hy => ?_, fun s y p ha hb hs hy hp hv => exec_fwAdvanceRollback_forced ha hb hs hy hp hv,
    fun s y p h hy hv => ?_, fun s y p h hy ho => ?_, fun s hr hd => ?_, fun s p h => ?_, fun s c hr hs hb => ?_⟩
  · rw [exec_liftDfuDnload_block ha hl hn hd, hb]
  · rw [exec_liftDfuDnload_block ha hl hn hd, hb]
  · rw [exec, execLiftDfuAbort, if_pos ⟨hl, he⟩, hy]
  · rw [exec, execLiftDfuGetstatus, if_pos hd, hn, hk]
  · rw [exec, execLiftDfuClrstatus, if_pos hd, hn]
    exact congrArg _ (if_pos rfl)
  · rw [exec, execLiftDfuClrstatus, if_pos hd, hn]
    exact congrArg _ (if_neg he)
  · rw [exec, execLiftDfuGetstate, if_pos hd]
  · rw [exec, execDfuDetach, if_pos ⟨hs, by simp [hd]⟩]
  · rw [exec_stagingDfuDnload_block hr hd hn he hs hx hh, hb]
  · rw [exec_stagingDfuDnload_block hr hd hn he hs hx hh, hb]
  · rw [exec_stagingDfuDnloadEnd_runs hr hd he hs, hb]
  · rw [exec_stagingDfuDnloadEnd_runs hr hd he hs, hb, hz, hh]
  · rw [exec, execImageStage, onPath_takesWithin (takes_inSetup ha hb hs) rfl (mem_setupOrMaintain hs) (by decide) rfl]
  · rw [exec, execImageActivate,
      onPath_takesWithin (takes_inSetup ha hb hs) rfl (mem_setupOrMaintain hs) (by decide) rfl, ← hy]
    dsimp only
    rw [if_neg (by simp [hg]), ← hz, hr]
    exact congrArg _ (if_pos hc)
  · rw [exec, execImageActivate,
      onPath_takesWithin (takes_inSetup ha hb hs) rfl (mem_setupOrMaintain hs) (by decide) rfl, ← hy, if_pos hg]
  · rw [exec, execImageDiscard, onPath_takesIn (takes_inSetup ha hb hs) rfl (mem_setupOrMaintain hs) (by decide) rfl]
  · rw [exec, execFwConfirmSlot, onPath_takesNow h rfl (by decide) rfl, ← hy]
  · rw [exec, execFwRaiseAppFloor, onPath_takesNow h rfl (by decide) rfl, ← hy]
    dsimp only
    rw [if_neg (by omega)]
  · rw [exec, execFwReset, onPath_takesNow h rfl (by decide) rfl, ← hy, if_neg (by simp [ho])]
  · rw [exec, execFwResetDelayExpired, if_neg (by simp [hr]), if_pos hd]
  · rw [exec, execOrphanDiscard, onPath_takesNow h rfl (by decide) rfl]
  · rw [exec, execConfigBackupWrite, if_pos ⟨hr, by omega, by omega⟩, hb]

end Sys2Proof.Scope
end

section
/-!
SUPPORT. Pair B: its states, gateway, journal port, doorbells, mailbox and timers (R387-R404).
-/

set_option Elab.async false

namespace Sys2Proof.Scope

open Sys2Proof Sys2Proof.Machine Sys2Proof.Laws

section
variable {s y : State} {a n k : Nat} {data : Bytes}

/-- Pair B executes in AppState 2 (R387). -/
theorem appRuns_of (h : s.get (ob 0x4501 1) = 2) : s.appRuns = true := decide_eq_true h

/-- A GW_GO of a running pair B whose gateway is idle and whose length is within its buffer (R390). -/
theorem gwGo_submits {op : Nat} (hr : s.get (ob 0x4501 1) = 2) (hi : s.app.gwOp = 0) (hn : n ≤ 4096)
    (hy : y = s.updApp fun x => { x with
      gwAddress := a % 2 ^ 24, gwLength := n, gwData := if op = 2 then fitBytes 4096 data else x.gwData }) :
    s.gwGo op a n data =
      (y.updApp fun x => { x with gwOp := op, gwDone := false, gwOverrun := false }).count (ob 0x4501 7) 1 := by
  rw [State.gwGo, if_neg (by simp [appRuns_of hr]), if_neg (by simp [hi])]
  dsimp only
  rw [← hy, if_neg (by omega)]

/-- A GW_GO while a request is at the engine (R390). -/
theorem gwGo_overrun {op : Nat} (hr : s.get (ob 0x4501 1) = 2) (hi : s.app.gwOp ≠ 0) :
    s.gwGo op a n data = (s.updApp fun x => { x with gwOverrun := true }).count (ob 0x4501 8) 1 := by
  rw [State.gwGo, if_neg (by simp [appRuns_of hr]), if_pos hi]

/-- The journal port answers a read with the entry, or with zero where there is none (R391). -/
theorem exec_jpEntryRead_runs {i : Nat} (hr : s.get (ob 0x4501 1) = 2) : exec (.jpEntryRead (some i)) s =
    .next (match s.placeOf (i % 2 ^ 32) with
      | some k => (s.updApp fun x => { x with jpIndex := some ((i % 2 ^ 32 + 1) % 2 ^ 32) }).send
          (.busRead 0x40020020 (leNat (s.entryBytes k)))
      | none => (s.updApp fun x => { x with jpIndex := some (i % 2 ^ 32) }).send (.busRead 0x40020020 0)) := by
  rw [exec, execJpEntryRead, if_pos (appRuns_of hr)]
  rfl

/-- The first entry of pair B's own in a second, where it may write any (R391). -/
theorem exec_jpWrite_first {c v : Nat} (hr : s.get (ob 0x4501 1) = 2) (ht : s.app.jpSince + sec 1 ≤ s.clock)
    (hy : y = s.updApp fun x => { x with jpSince := s.clock, jpCount := 0 }) (hl : 0 < s.get (ob 0x4500 8)) :
    exec (.jpWrite c v data) s = .next (((y.updApp fun x => { x with jpCount := 1 }).count (ob 0x4501 9) 1).ev
      (0x1F00 + c % 256) 2 (v % 4) 0 (fitBytes 16 data)) := by
  have limit : ¬ y.get (ob 0x4500 8) ≤ y.app.jpCount := by rw [hy]; exact Nat.not_le.mpr hl
  have anew : s.app.jpSince + sec 1 ≤ s.clock ∨ s.app.jpCount = 0 := .inl ht
  rw [exec, execJpWrite, if_pos (appRuns_of hr)]
  dsimp only
  rw [if_pos anew, ← hy, if_neg limit, hy]
  rfl

/-! Timers (R394). -/

theorem exec_timerExpiry_once (hk : k < 4) (he : (s.appTimer k).enable = true) (hd : (s.appTimer k).due ≤ s.station)
    (hp : (s.appTimer k).periodic = false) (hs : s.srcPending (13 + k) = false) :
    exec (.timerExpiry k) s = .next ((s.raise (13 + k)).setAppTimer k { s.appTimer k with enable := false }) := by
  rw [exec, execTimerExpiry, onUnit_known (decide_eq_true hk)]
  dsimp only
  rw [if_pos ⟨he, hd⟩, hs, if_neg Bool.false_ne_true, if_pos (by simp [hp])]

theorem exec_timerExpiry_periodic (hk : k < 4) (he : (s.appTimer k).enable = true) (hd : (s.appTimer k).due ≤ s.station)
    (hp : (s.appTimer k).periodic = true) (hn : s.station < (s.appTimer k).due + (s.appTimer k).period)
    (hs : s.srcPending (13 + k) = false) : exec (.timerExpiry k) s =
      .next ((s.raise (13 + k)).setAppTimer k { s.appTimer k with due := (s.appTimer k).due + (s.appTimer k).period }) := by
  rw [exec, execTimerExpiry, onUnit_known (decide_eq_true hk)]
  dsimp only
  rw [if_pos ⟨he, hd⟩, hs, if_neg Bool.false_ne_true, if_neg (by simp [hp]), raise_station, if_neg (by omega)]

theorem exec_watchdogExpiry_due (hr : s.get (ob 0x4501 1) = 2) (hw : s.get (ob 0x4500 7) ≠ 0)
    (hd : s.due .appWdog (msec (s.get (ob 0x4500 7))) = true)
    (hy : y = (s.count (ob 0x4501 0x0B) 1).start .appWdog) : exec .watchdogExpiry s =
      .next (y.ev 0x1210 0 3 2 (u16 (s.get (ob 0x4500 7)) ++ u32 (y.get (ob 0x4501 0x0B)))) := by
  rw [exec, execWatchdogExpiry]
  dsimp only
  rw [if_pos ⟨appRuns_of hr, hw, hd⟩, hy]

end

/-- Settles O51: every clause is one branch of its command. -/
theorem applicationCommandsComplete : Obligations.ApplicationCommandsComplete := by
  refine ⟨fun s p n ha => ?_, fun s hs hr => ?_, fun s p h hs => ?_, fun s p h hs => ?_, fun s p h hs => ?_, fun s p h => ?_,
    fun s y a hr hy => ?_, fun s y a n hr hi hn hy => ?_, fun s y a n data hr hi hn hy => ?_, fun s a n data hr hi => ?_,
    fun s i k hr hp => ?_, fun s i hr hp => ?_, fun s y c v b hr ht hy hl => exec_jpWrite_first hr ht hy hl,
    fun s b hr hl hu => ?_, fun s b hr hl hu => ?_, fun s p b ha => ?_, fun s y p h hy => ?_, fun s hr hp => ?_,
    fun s m hr => ?_, fun s e b i d hr he hb ho hf => ?_, fun s hr => ?_, fun s k t n q hr hk hn => ?_,
    fun s k hk he hd hp hs => exec_timerExpiry_once hk he hd hp hs,
    fun s k hk he hd hp hn hs => exec_timerExpiry_periodic hk he hd hp hn hs, fun s hr => ?_,
    fun s y hr hw hd hy => exec_watchdogExpiry_due hr hw hd hy⟩
  · rw [exec, execAppEnableWrite, onPath_writeNum rfl ha]
  · rw [exec, execAppLoadComplete, if_pos ⟨hs, hr⟩]
  · rw [exec, execAppStart, onPath_takesNow h rfl (by decide) (by simp [State.appState, hs])]
  · rw [exec, execAppHalt, onPath_takes h rfl (by decide) (by simp [State.appState, hs])]
  · rw [exec, execAppRestart, onPath_takes h rfl (by decide) (by simp [State.appState]; omega)]
  · rw [exec, execAppClearCounters, onPath_takesNow h rfl (by decide) rfl]
  · rw [exec, execBusUnmappedAccess, if_pos (appRuns_of hr), hy]
  · rw [exec, execGwGoRead, gwGo_submits hr hi hn rfl, hy]
    rfl
  · rw [exec, execGwGoWrite, gwGo_submits hr hi hn rfl, hy]
    rfl
  · rw [exec, execGwGoWrite, gwGo_overrun hr hi]
  · rw [exec_jpEntryRead_runs hr, hp]
  · rw [exec_jpEntryRead_runs hr, hp]
  · rw [exec, execDbSet, if_pos ⟨appRuns_of hr, hl, hu⟩]
  · rw [exec, execDbClear, if_pos ⟨appRuns_of hr, hl, hu⟩]
  · rw [exec, execDoorbellRing, onPath_writeNum rfl ha]
  · rw [exec, execAppMailboxPost, onPath_takes h rfl (by decide) rfl, ← hy]
  · rw [exec, execHostMsgTake, if_pos ⟨appRuns_of hr, hp⟩]
  · rw [exec, execAppMsgSend, if_pos (appRuns_of hr)]
  · rw [exec, execEndpointDescriptorWrite, onUnit_known (decide_eq_true he.2), if_pos ⟨appRuns_of hr, he.1, hb, ho⟩]
    dsimp only
    rw [if_neg Bool.false_ne_true, if_neg (fun h => h.elim (· rfl) hf)]
  · rw [exec, execStimeLatchRead, if_pos (appRuns_of hr)]
  · rw [exec, execTmrArm, onUnit_known (decide_eq_true hk), if_pos (appRuns_of hr)]
    dsimp only
    rw [if_pos hn]
  · rw [exec, execWdogKick, if_pos ⟨appRuns_of hr, rfl⟩]

end Sys2Proof.Scope
end

section
/-!
SUPPORT. PCIe links, drives, the queue engine and the window bridge (R292-R313).
-/

set_option Elab.async false

namespace Sys2Proof.Scope

open Sys2Proof Sys2Proof.Machine Sys2Proof.Laws

section
variable {s t y : State} {p q n : Nat}

theorem hasPcie_lt {x : Part} (h : x.hasPcie p = true) : p < 2 := of_decide_eq_true (hasPcie_full h)

/-- A PCIe port of the part takes its events (R2). -/
theorem onPort_pcie (h : s.part.hasPcie p = true) : onPort s (fun q => q.hasPcie p) t = .next t :=
  onPort_has s (hasPcie_full h) h

theorem pcieUp_hasPcie (h : s.pcieUp p = true) : s.part.hasPcie p = true := by
  simp only [State.pcieUp, Bool.and_eq_true] at h
  exact h.1.1

theorem onPort_pcieUp (h : s.pcieUp p = true) : onPort s (fun q => q.hasPcie p) t = .next t :=
  onPort_pcie (pcieUp_hasPcie h)

@[simp] theorem updPcie_pcie {f : Pcie → Pcie} : (s.updPcie p f).pcie p = f (s.pcie p) := get_put_same ..

/-! A command of the server (R295). -/

theorem nvmeOn_up (h : s.nvmeOn p = true) : s.pcieUp p = true := by
  simp only [State.nvmeOn, Bool.and_eq_true] at h
  exact h.1.1

/-- The state after a command was fetched from a queue (R295). -/
def afterFetch (s : State) (p q : Nat) (x : Sq) : State :=
  ((s.count (pcieStat p 6) 1).count (pcieStat p 5) 1).updPcie p fun z =>
    { z with sqs := Sparse.ins q { x with head := (x.head + 1) % max 1 x.size } (Sparse.drop q z.sqs) }

/-- The controller fetches a command that waits in a queue, where its port may master (R293, R295). -/
theorem onPort_fetched {x : Sq} {eff : State → State} (hx : Sparse.find q (s.pcie p).sqs = some x) (ho : s.nvmeOn p = true)
    (hm : s.masters p = true) (ht : x.head ≠ x.tail) (hy : y = afterFetch s p q x) :
    onPort s (fun q => q.hasPcie p) (s.fetched p q eff) = .next (eff y) := by
  rw [onPort_pcieUp (nvmeOn_up ho), State.fetched, hx, hy]
  exact congrArg _ (if_pos ⟨ho, hm, ht⟩)

/-! A unit of a storage or window tunnel in its turn (R297, R304). -/

theorem unitIn_inOrder {seq : Nat} {u : InUnit} (hh : s.stor.held = []) (hs : s.seqGap n seq = false) :
    s.unitIn n seq u = s.unitNow n seq u := by
  rw [unitIn_noneHeld hh, if_neg (by simp [hs])]

/-- An undamaged unit of an Open version-2 tunnel goes to its drive side or its server side (R295, R297). -/
theorem exec_storageUnitReceived_inOrder {u : SUnit} {mark : UnitMark} (hn : n < 4096) (hd : s.domainOn 11 = true)
    (hq : s.queueMode = true) (ho : s.tstate n = 3) (hc : s.tcfg n 2 = 1) (hv : s.get (tunKey n 0x12) = 2)
    (hs : s.stor.held = [] ∧ s.seqGap n mark.seq = false)
    (hm : mark.damaged = false ∧ s.hurtOf n mark.seq (storageBytes u).length = 0)
    (hy : y = s.hurtDone n mark.seq (storageBytes u).length) : exec (.storageUnitReceived n u mark) s =
      .next (if y.tcfg n 6 = 18 then y.driveUnit n (y.tcfg n 8 / 4096) (y.tcfg n 8 % 4096) u false
        else if y.tcfg n 6 = 12 ∨ y.tcfg n 6 = 13 then y.serverUnit n (y.tcfg n 6 - 12) u false else y) := by
  have whole : (mark.damaged || decide (s.hurtOf n mark.seq (storageBytes u).length ≠ 0)) = false := by simp [hm]
  rw [exec, execStorageUnitReceived, onUnit_known (decide_eq_true hn), unitIn_inOrder hs.1 hs.2, State.unitNow,
    State.storageUnit]
  dsimp only
  rw [if_pos ⟨hd, hq, ho, hc, hv⟩, whole, ← hy]

theorem hurtDone_tcfg {seq m k : Nat} : (s.hurtDone n seq m).tcfg n k = s.tcfg n k := rfl

end

/-- Settles O45: each command goes the branch that its rule names for the state. -/
theorem storageEngineCommandsComplete : Obligations.StorageEngineCommandsComplete := by
  refine ⟨fun s y p speed width hp hd he hs hv hw hl hy => ?_, fun s p hp hs => ?_,
    fun s y p csts spaces hu hr hq hs hc hy => ?_,
    fun s p x hp hr hs ht => ?_, fun s p q tail x hx ho ht => ?_,
    fun s y p q cid x nsid slba blocks prps hx ho hm ht hy => ?_, fun s y p q cid x nsid slba blocks buf hx ho hm ht hy => ?_,
    fun s y p q cid x nsid hx ho hm ht hy => ?_, fun s y p q cid x nsid slba blocks hx ho hm ht hy => ?_,
    fun s y p cid x nsid hx ho hm ht hy => ?_, fun s y p cid x n size vec ien hx ho hm ht hy hn hs hv hf => ?_,
    fun s y p cid x n size cq ien hx ho hm ht hy hn hs hc hf => ?_, fun s y p cid x n hx ho hm ht hy hn hf => ?_,
    fun s y p cid x lid len hx ho hm ht hy hl => ?_, fun s y p cid x fid hx ho hm ht hy hf => ?_,
    fun s y p cid x fid n hx ho hm ht hy hf => ?_, fun s y p cid x hx ho hm ht hy => ?_,
    fun s y p cid x hx ho hm ht hy hn => ?_,
    fun s y p q cid x hx ho hm ht hy => ?_, fun s y n u mark hn hd hq ho hc hv hl hs hm hy => ?_,
    fun s y n u mark hn hd hq ho hc hv hl hs hm hy => ?_, fun s x y p own st c hp hf hc hx hy => ?_, fun s y p h hy hn => ?_,
    fun s w hu hr => ?_, fun s p n hp h => ?_⟩
  · have trains : ¬(s.domainOn 11 = true ∧ s.get (pcieCfg p 1) = 1 ∧ s.get (pcieStat p 1) = 0 ∧ speed = 0) := by omega
    have lanes : [1, 2, 4].contains width = true := by simpa using hl
    rw [exec, execPcieLinkUp, onPort_pcie hp, if_neg trains, if_pos ⟨hd, he, hs, hv.1, hv.2, hw, lanes⟩, hy]
  · rw [exec, execPcieLinkDown, onPort_pcie hp]
  · rw [exec, execDriveReady, onPort_pcieUp hu, if_neg (by simp [hs]), if_pos ⟨hu, hr, hq, hs⟩, if_neg (by simp [hc]), hy]
  · rw [exec, execDriveInitTimeout, onPort_pcie hp, if_pos ⟨hr, hs, ht⟩]
  · rw [exec, execNvmeSqDoorbell, onPort_pcieUp (nvmeOn_up ho), hx]
    exact congrArg _ (if_pos ⟨ho, ht⟩)
  · rw [exec, execNvmeRead, onPort_fetched hx ho hm ht hy]
  · rw [exec, execNvmeWrite, onPort_fetched hx ho hm ht hy]
  · rw [exec, execNvmeFlush, onPort_fetched hx ho hm ht hy]
  · rw [exec, execNvmeWriteZeroes, onPort_fetched hx ho hm ht hy]
  · rw [exec, execNvmeIdentify, onPort_fetched hx ho hm ht hy]
    rfl
  · rw [exec, execNvmeCreateIoQueue, onPort_fetched hx ho hm ht hy]
    dsimp only
    rw [if_neg (by simp [hf]; omega), if_neg (by omega), if_neg Bool.false_ne_true, if_neg (by omega)]
  · rw [exec, execNvmeCreateIoQueue, onPort_fetched hx ho hm ht hy]
    dsimp only
    rw [if_neg (by simp [hf]; omega), if_neg (by omega), if_pos rfl, if_neg (fun h => h.elim hc.1 (by simp [hc.2]))]
  · rw [exec, execNvmeDeleteIoQueue, onPort_fetched hx ho hm ht hy]
    dsimp only
    rw [if_pos rfl, if_neg (fun h => h.elim hn (by simp [hf]))]
  · rw [exec, execNvmeGetLogPage, onPort_fetched hx ho hm ht hy, if_pos hl]
  · rw [exec, execNvmeGetFeatures, onPort_fetched hx ho hm ht hy, if_pos hf]
  · rw [exec, execNvmeSetFeatures, onPort_fetched hx ho hm ht hy, if_pos hf]
  · rw [exec, execNvmeAbort, onPort_fetched hx ho hm ht hy]
  · rw [exec, execNvmeAsyncEventRequest, onPort_fetched hx ho hm ht hy]
    dsimp only
    rw [if_neg (by simp [hn])]
  · rw [exec, execNvmeInvalidOpcode, onPort_fetched hx ho hm ht hy]
  · rw [exec_storageUnitReceived_inOrder hn hd hq ho hc hv hs hm hy, if_pos (by rw [hy, hurtDone_tcfg, hl])]
  · have side : y.tcfg n 6 = 12 ∨ y.tcfg n 6 = 13 := by rwa [hy, hurtDone_tcfg]
    rw [exec_storageUnitReceived_inOrder hn hd hq ho hc hv hs hm hy, if_neg (by omega), if_pos side]
  · rw [exec, execDriveCompletion, onPort_pcie hp, hf]
    dsimp only
    rw [if_neg hc, ← hx, ← hy]
  · rw [exec, execStorageFlush, onPath_takes h rfl (by decide) rfl, ← hy]
    dsimp only
    rw [hn]
    rfl
  · rw [exec, execBusMasterDisable, onPort_pcieUp hu, if_pos ⟨hu, by simp [hr]⟩]
    cases w.readSize <;> simp
  · rw [exec, execPcieClearCounters, onPath_takesNow h (decide_eq_true (hasPcie_lt hp)) (by decide) rfl]

end Sys2Proof.Scope
end

section
/-!
SUPPORT. The window bridge (R299-R313).
-/

set_option Elab.async false

namespace Sys2Proof.Scope

open Sys2Proof Sys2Proof.Machine Sys2Proof.Laws

section
variable {s y : State} {p n seq : Nat} {unit bd : Bytes}

/-! A request that reaches a port (R292). -/

theorem tlpIn_readable {x : TlpData} {eff : State → State} (hx : x.kind = .memory ∧ x.ecrcBad = false ∧ x.replays = 0) :
    s.tlpIn p x eff =
      eff (if x.poisoned then (s.count (pcieStat p 5) 1).pcieErrors p 0 1 0 0 else s.count (pcieStat p 5) 1) := by
  obtain ⟨memory, whole, once⟩ := hx
  unfold State.tlpIn
  dsimp only
  rw [if_pos once, if_neg (by simp [whole]), if_pos memory]

theorem tlpIn_unsupported {x : TlpData} {eff : State → State}
    (hx : x.kind ≠ .memory ∧ x.ecrcBad = false ∧ x.replays = 0) :
    s.tlpIn p x eff = ((s.count (pcieStat p 5) 1).pcieErrors p 0 0 1 0).complete p x.tag 1 false [] := by
  obtain ⟨other, whole, once⟩ := hx
  unfold State.tlpIn
  dsimp only
  rw [if_pos once, if_neg (by simp [whole]), if_neg other]

/-! A unit of a version-1 tunnel in its turn (R300, R304). -/

/-- A request that nothing locked away and no damage keeps from the bus is issued on it (R300, R305, R306). -/
theorem windowIn_issued {bs : Nat} (hd : s.domainOn 11 = true) (hl : s.live n = true) (hc : s.tcfg n 2 = 1)
    (hv : s.get (tunKey n 0x12) = 1) (hp : p < 2) (ht : s.tcfg n 6 = 12 + p) (hk : byteAt unit 0 = 1 ∨ byteAt unit 0 = 2)
    (ho : (s.pcie p).lockTunnel = 0) (hh : s.hurtOf n seq unit.length = 0) :
    s.windowIn n seq 0 unit bs bd = s.issueUnit n p unit bs bd := by
  have port : s.tcfg n 6 - 12 = p := by omega
  unfold State.windowIn
  dsimp only
  rw [port, if_neg (by simp [hd, hl, hc, hv, ht]; omega), if_neg (not_not_intro rfl), if_neg (not_not_intro hh),
    if_neg (by omega), if_neg (by omega), if_neg (by simp [ho])]

theorem issueUnit_read {bs : Nat} (hl : s.live n = true) (hk : byteAt unit 0 = 2) (hf : s.isFenced n = false)
    (hu : s.pcieUp p = true) (hm : s.masters p = true) :
    s.issueUnit n p unit bs bd = (s.farRead p (leAt unit 8 8) (leAt unit 4 2) (byteAt unit 6)).busAnswer n p
      (byteAt unit 1 % 64) (leAt unit 2 2) (leAt unit 4 2) (byteAt unit 6) (leAt unit 8 8) bs bd := by
  unfold State.issueUnit
  dsimp only
  rw [if_neg (by simp [hl]), if_neg (by simp [hf]), if_neg (by simp [hu, hm]), if_neg (by omega), if_pos hk]

theorem issueUnit_write {bs : Nat} (hl : s.live n = true) (hk : byteAt unit 0 = 1) (hf : s.isFenced n = false)
    (hu : s.pcieUp p = true) (hm : s.masters p = true) :
    s.issueUnit n p unit bs bd = (s.dropAll (s.winsOf n)).farWrite p (leAt unit 8 8) (byteAt unit 6)
      (fitBytes (4 * leAt unit 4 2) (unit.drop 16)) := by
  unfold State.issueUnit
  dsimp only
  rw [if_neg (by simp [hl]), if_neg (by simp [hf]), if_neg (by simp [hu, hm]), if_pos hk]

/-- The last completion of a read, where its bus answered well, ends the read (R302, R304). -/
theorem windowCompletion_last {r r' : WinRead} (hd : s.domainOn 11 = true) (hl : s.live n = true) (hc : s.tcfg n 2 = 1)
    (hv : s.get (tunKey n 0x12) = 1) (hh : s.hurtOf n seq unit.length = 0)
    (hr : s.stor.reads.find? (fun r => decide (r.tag = leAt unit 2 2 ∧ r.win = byteAt unit 1 % 64 ∧
      s.win (byteAt unit 1 % 64) 5 = n)) = some r) (h1 : r.runs = 1) (h0 : byteAt unit 7 = 0)
    (he : r' = { r with
      runs := 0, data := s.readBytes (byteAt unit 1 % 64) (leAt unit 8 8) (byteAt unit 6) (unit.drop 16) r.data }) :
    s.windowCompletion n seq 0 unit =
      (s.updStore fun x => { x with reads := x.reads.filter fun y => decide (y ≠ r) }).readDone n r' := by
  unfold State.windowCompletion
  dsimp only
  rw [if_neg (by simp [hd, hl, hc, hv]), if_neg (not_not_intro rfl), if_neg (not_not_intro hh), hr]
  simp only [h1, h0, he, Nat.sub_self, if_true, Nat.max_zero]

/-! A drive's request for staging (R293). -/

section
variable {addr be len tag : Nat} {write : Bool} {data : TlpData}

/-- A request that a root port takes and nothing withholds is acted on (R292, R293). -/
theorem exec_rootPortDeviceRequest_taken (hu : s.pcieUp p = true) (hr : s.isRoot p = true)
    (hx : data.kind = .memory ∧ data.ecrcBad = false ∧ data.replays = 0 ∧ data.poisoned = false)
    (hread : s.deviceReadHeld p addr len = false) (hwrite : s.deviceWriteHeld p addr = false) :
    exec (.rootPortDeviceRequest p write addr len be tag data) s =
      .next (deviceTlp p write addr len be tag data (s.count (pcieStat p 5) 1)) := by
  obtain ⟨memory, whole, once, sound⟩ := hx
  rw [exec_rootPortDeviceRequest, onPort_pcieUp hu, if_neg (by simp [hu, hr, hread, hwrite]),
    tlpIn_readable (x := { data with tag }) ⟨memory, whole, once⟩]
  simp only [sound, Bool.false_eq_true, if_false]

/-- Once a request is counted the staging area lies where it lay (R293, R312). -/
theorem count_staging : (s.count (pcieStat p 5) 1).get (ob 0x2D00 1) = s.get (ob 0x2D00 1) ∧
    (s.count (pcieStat p 5) 1).stagingSize = s.stagingSize :=
  ⟨count_get_ne (storageGlobal_ne_pcieStat (by decide)),
    stagingSize_of_get (count_get_ne (storageGlobal_ne_pcieStat (by decide)))⟩

end

end

/-- Settles O46: each command goes the branch that its rule names for the state. -/
theorem windowBridgeCommandsComplete : Obligations.WindowBridgeCommandsComplete := by
  refine ⟨fun s y p addr be data hu hw hx hy => ?_, fun s y p addr be data hu hw hx hy => ?_,
    fun s p addr len be tag hu hr => ?_,
    fun s p addr len tag w hu hw hr hl hk hh => ?_, fun s p hu hr => ⟨_, ?_, fun w y => rfl⟩,
    fun s n p w tag len be addr seq bs unit bd hn hd hl hc hv hp ht hk hx hf hu hm ho hs => ?_,
    fun s n p len be addr seq bs unit bd hn hd hl hc hv hp ht hk hx hf hu hm ho hs => ?_,
    fun s n seq unit r r' hn hd hl hc hv hr h1 h0 he hs => ?_, fun s n unit r hn hr => ?_, fun s y tag r hr hy => ?_,
    fun s w hw => ?_, fun s y p w hw h hy => ?_, fun s y p w hw h hy => ?_,
    fun s y p addr be len tag data hu hr hx hf hy ha hh => ?_⟩
  · rw [exec, execWindowWriteRequest, onPort_pcieUp hu, if_pos ⟨hu, hw⟩, tlpIn_readable hx, hy]
  · rw [exec, execWindowWriteRequest, onPort_pcieUp hu, if_pos ⟨hu, hw⟩, tlpIn_unsupported hx, hy]
  · rw [exec, execWindowReadRequest, onPort_pcieUp hu, if_pos ⟨hu, hr⟩]
  · rw [exec, execMrdlkRequest, onPort_pcieUp hu, if_neg (by simp [hu]), hw]
    dsimp only
    rw [if_neg (by simp [hr, hl, hk]), if_neg (by simp [hh])]
  · rw [exec, execUnlockMessage, onPort_pcieUp hu, if_neg (by simp [hu, hr])]
    rfl
  · obtain ⟨none, next, whole⟩ := hs
    obtain ⟨rfl, rfl, rfl, rfl, rfl⟩ := hx
    rw [exec, execWindowUnitReceived, onUnit_known (decide_eq_true hn), unitIn_inOrder none next, State.unitNow,
      windowIn_issued hd hl hc hv hp ht (.inr hk) ho whole, issueUnit_read hl hk hf hu hm]
  · obtain ⟨none, next, whole⟩ := hs
    obtain ⟨rfl, rfl, rfl⟩ := hx
    rw [exec, execWindowUnitReceived, onUnit_known (decide_eq_true hn), unitIn_inOrder none next, State.unitNow,
      windowIn_issued hd hl hc hv hp ht (.inl hk) ho whole, issueUnit_write hl hk hf hu hm]
  · obtain ⟨none, next, whole⟩ := hs
    rw [exec, execWindowCompletionReceived, onUnit_known (decide_eq_true hn), unitIn_inOrder none next, State.unitNow,
      windowCompletion_last hd hl hc hv whole hr h1 h0 he]
  · rw [exec, execLockRefusedReceived, onUnit_known (decide_eq_true hn), hr]
  · rw [exec, execCompletionTimeout, hr, hy]
  · rw [exec, execPrefetchLifeExpired, onUnit_known (decide_eq_true hw)]
  · rw [exec, execWindowUnfence, onPath_takesNow h (decide_eq_true hw) (by decide) rfl, ← hy]
  · rw [exec, execWindowClearCounters, onPath_takesNow h (decide_eq_true hw) (by decide) rfl, ← hy]
  · subst hy
    have base := (count_staging (s := s) (p := p)).1
    have size := (count_staging (s := s) (p := p)).2
    have within : s.get (ob 0x2D00 1) ≤ addr ∧ addr < s.get (ob 0x2D00 1) + s.stagingSize := by rwa [base, size] at ha
    have admitted : s.deviceWriteHeld p addr = false := by simp [State.deviceWriteHeld, within, hf]
    constructor
    · rw [exec_rootPortDeviceRequest_taken hu hr hx hh admitted, deviceTlp, if_pos ha, if_pos rfl]
    · rw [exec_rootPortDeviceRequest_taken hu hr hx hh admitted, deviceTlp, if_pos ha, if_neg Bool.false_ne_true]

end Sys2Proof.Scope
end

section
/-!
SUPPORT. CAN ports, serial ports, map entries and GOOSE (R315-R331, R335).
-/

set_option Elab.async false

namespace Sys2Proof.Scope

open Sys2Proof Sys2Proof.Machine Sys2Proof.Laws

section
variable {s y : State} {c u n : Nat}

/-! A CAN port's error counters (R318). -/

/-- Error counters give a port the state of their bounds: bus-off from 256, error passive from 128, else active. -/
theorem canErrors_state {tec rec_ new : Nat} (hy : y = s.updCanp c fun x => { x with tec, rec_ })
    (hn : (new = 2 ∧ 256 ≤ tec) ∨ (new = 1 ∧ tec < 256 ∧ (128 ≤ tec ∨ 128 ≤ rec_)) ∨
      (new = 0 ∧ tec < 128 ∧ rec_ < 128)) :
    s.canErrors c tec rec_ = if s.get (canStat c 1) = new then y else y.busState c new tec rec_ := by
  have state : (if 256 ≤ tec then 2 else if 128 ≤ tec ∨ 128 ≤ rec_ then 1 else 0) = new := by
    split
    · omega
    · split <;> omega
  unfold State.canErrors
  rw [state, hy]
  rfl

/-- Counters of 0 make a port that is in bus-off active. -/
theorem canErrors_leave (hb : s.get (canStat c 1) = 2) :
    s.canErrors c 0 0 = (s.updCanp c fun x => { x with tec := 0, rec_ := 0 }).busState c 0 0 0 := by
  rw [canErrors_state rfl (.inr (.inr ⟨rfl, by decide, by decide⟩)), if_neg (by simp [hb])]

/-! A serial port (R319, R320). -/

theorem onPort_uart {t : State} (h : s.part.hasUart u = true) : onPort s (fun q => q.hasUart u) t = .next t :=
  onPort_has s (hasUart_full h) h

/-- Data that fit into one part are one part. -/
theorem chunks_one {k : Nat} {bs : Bytes} (h : bs.length ≤ k) : chunks (bs.length + 1) k bs = [bs] := by
  rw [chunks, if_pos h]

/-- A line that nobody drives passes on the units that its receiver holds, and shows its room (R319, R320). -/
theorem uartSettle_passes (hd : (s.uart u).driving = false) (hf : s.fieldOn = true) (hh : s.serialHeld u = false)
    (hy : y = forAll (fun e z => z.serialUnit u e) (s.uart u).rx (s.updUart u fun x => { x with rx := [] }))
    (ho : y.fieldOn = true) :
    s.uartSettle u = (if (s.uart u).rx.length = 0 then s else y).uartRts u := by
  have released : ¬ ((s.uart u).driving = true ∧ (s.uart u).busyTo ≤ s.clock) := by simp [hd]
  unfold State.uartSettle
  dsimp only
  rw [if_neg released]
  by_cases empty : (s.uart u).rx = []
  · have held : (s.uart u).rx = [] ∨ s.serialHeld u = true := .inl empty
    rw [if_pos held, if_pos hf, if_pos (by simp [empty])]
  · have passed : ¬ ((s.uart u).rx = [] ∨ s.serialHeld u = true) := by simp [empty, hh]
    rw [if_neg passed, ← hy, if_pos ho, if_neg (by simpa using empty)]

/-- More characters take no less time on a line. -/
theorem uartChars_mono {a b : Nat} (h : a ≤ b) : s.uartChars u a ≤ s.uartChars u b :=
  Nat.div_le_div_right (Nat.mul_le_mul_right _ (Nat.mul_le_mul_right _ h))

/-! A field unit (R322). -/

theorem fieldReady_none (h : s.fld.held = []) : s.fieldReady n = s := by
  unfold State.fieldReady
  rw [h]
  rfl

/-- A CAN unit for C1 is sent on C1 (R322, R323). -/
theorem fieldNow_can {unit : Bytes} (ho : s.tstate n = 3 ∨ s.tstate n = 4) (hc : s.tcfg n 2 = 4) (ht : s.transit n = false)
    (hf : s.fieldOn = true) (he : s.tcfg n 8 = 1) (hk : byteAt unit 0 = 1) :
    s.fieldNow n unit false = s.canSend 1 (unitCan unit) := by
  have taken : ¬ ((s.tstate n ≠ 3 ∧ s.tstate n ≠ 4) ∨ s.tcfg n 2 ≠ 4 ∨ s.transit n ∨ !s.fieldOn) := by
    simp [hc, ht, hf]
    omega
  unfold State.fieldNow
  dsimp only
  rw [if_neg taken, if_neg Bool.false_ne_true, he, if_pos ⟨by decide, hk⟩, if_neg (by simp)]

/-! GOOSE (R330, R331). -/

/-- An event changes no object, so the hub maps after it as before. -/
theorem ev_mapping {a b d e : Nat} {data : Bytes} : (s.ev a b d e data).mapping = s.mapping := by
  simp only [State.mapping, State.fieldOn, State.domainOn, State.hostMode, ev_get]

end

/-- Settles O47: each command goes the branch that its rule names for the state. -/
theorem fieldCommandsComplete : Obligations.FieldCommandsComplete := by
  refine ⟨fun s y c at_ a f hc he hr hb hy ho hf h0 h1 => ?_, fun s y c at_ f hc he hr hb hy ho hf hi => ?_,
    fun s y c tec rec_ new hc hr hb hy hn => ?_, fun s c hc hr hb h6 => ?_, fun s y p c hc h hy => ?_,
    fun s x y u f at_ data hu hf hm hx hd hl hy => ?_, fun s y u n hn hd hf hh hy ho => ?_,
    fun s y u cts d r hu hf hy hq hb => ?_, fun s n unit mark hn ho hc ht hf he hk hs hm => ?_,
    fun s n unit mark hn hh hs => ?_, fun s m hm ho he ht hl => ?_, fun s k hk hf hc ht => ?_, fun s k hk hf hd hi => ?_,
    fun s g hg hf he hi ht => ?_, fun s y k hk ha ht hy hm => ?_, fun s y p m sub x hm hs ha hh hy => ?_⟩
  · rw [exec, execCanFrameReceived, onUnit_known (decide_eq_true hc), if_neg (by simp [hr, he, hb])]
    dsimp only
    rw [← hy, if_pos ho, hf]
    dsimp only
    rw [if_pos h0, if_neg (by simp [h1])]
  · rw [exec, execCanFrameReceived, onUnit_known (decide_eq_true hc), if_neg (by simp [hr, he, hb])]
    dsimp only
    rw [← hy, if_pos ho, hf]
    dsimp only
    rw [if_neg (fun h => by simp [hi h.1] at h)]
  · rw [exec, execCanBusOff, onUnit_known (decide_eq_true hc), if_neg (by simp [hr, hb]), canErrors_state hy hn]
  · rw [exec, execCanBusOffRecovery, onUnit_known (decide_eq_true hc), if_pos ⟨hr, hb, h6⟩, canErrors_leave hb]
  · rw [exec, execCanLeaveBusOff, onPath_takesNow h (decide_eq_true hc) (by decide) rfl, ← hy]
    by_cases off : y.get (canStat c 1) = 2
    · rw [if_pos off, if_pos off, canErrors_leave off]
    · rw [if_neg off, if_neg off]
  · obtain ⟨short, room⟩ := hl
    have all : data.take (1024 - (x.uart u).filled) = data := List.take_of_length_le (by omega)
    rw [exec, execUartUnitClose, onPort_uart hu, if_neg (by simp [hf, hm])]
    dsimp only
    rw [← hx, if_neg (by simp [hd]), all, if_neg (Nat.lt_irrefl _), ← hy, chunks_one short]
    rfl
  · rw [hn, uartSettle_passes hd hf hh hy ho]
  · obtain ⟨mode, queue, on⟩ := hq
    obtain ⟨free, short⟩ := hb
    have now : max y.clock (y.uart u).busyTo = y.clock := Nat.max_eq_left free
    have fits := uartChars_mono (s := y) (u := u) short
    rw [exec, execUartUnitTransmit, onPort_uart hu, if_pos hf, ← hy]
    dsimp only
    rw [queue]
    dsimp only
    rw [mode, now, if_neg (by simp [on]; omega), if_neg (by decide)]
    rfl
  · rw [exec, execFieldUnitReceived, onUnit_known (decide_eq_true hn)]
    dsimp only
    rw [fieldReady_none hs.1, if_neg (by simp [hs.2]), hm, fieldNow_can ho hc ht hf he hk]
  · rw [exec, execFieldUnitReceived, onUnit_known (decide_eq_true hn)]
    dsimp only
    rw [fieldReady_none hh, if_pos hs]
    simp only [State.updFld, hh, State.fieldInsert]
  · rw [exec, execStaleTimeExpired, onUnit_known (decide_eq_true hm), if_pos (by simp [ho, he, ht, hl])]
  · rw [exec, execCanTxCycleTimer, onUnit_known (decide_eq_true hk), if_pos ⟨hf, hc, ht⟩]
  · rw [exec, execCanTxInhibitEnd, onUnit_known (decide_eq_true hk), if_pos ⟨hf, hd, by simp [hi]⟩]
  · rw [exec, execGooseRepeatTimer, onUnit_known (decide_eq_true hg), if_pos ⟨hf, he, hi, ht⟩]
  · rw [exec, execGooseTalExpired, onUnit_known (decide_eq_true hk), if_pos ⟨ha.1, ha.2, ht⟩]
    dsimp only
    rw [← hy, if_neg (by simp [ev_mapping, hm])]
  · rw [exec, execSignalValueWrite, hh, show kindIf (!true) 4 = [] from rfl,
      onPath_writeNum (decide_eq_true (p := _ ∧ _) ⟨hm, hs⟩) ha]
    dsimp only
    rw [touch_station, ← hy]

end Sys2Proof.Scope
end
